-- ==== Sys2Proof/Word.lean ====
section
/-! DEFINITION. The word types of the block: bytes, the 32-bit management word (R8) and the 64-bit
value of a register pair (R27). Bit 0 is the least significant bit (R5). -/

namespace Sys2Proof

/-- One byte of a record, a packet or memory. -/
abbrev Byte := BitVec 8
/-- One management word (R8); also the bits of an FP32 value. -/
abbrev Word := BitVec 32
/-- A 64-bit value (R27), a tag, a CRC-64 or an address field of a record. -/
abbrev DWord := BitVec 64

end Sys2Proof
end

