-- ==== Sys2Proof/Types.lean ====
section
/-! DEFINITION. The operand types of the commands: pages, requesters, request bodies (R244, R255,
R336, R388), VST packets (R313), cut-in messages (R298), checkpoint marks (R413), and the measured
outcomes that environment events carry. Plain data. -/

namespace Sys2Proof

/-- Connection number, 0-16,383 (R314). -/
abbrev Conn := BitVec 14
/-- Hardware partition, 0-7 (R447). -/
abbrev Part := BitVec 3
/-- Step core number, 0-255 (R140). -/
abbrev CoreId := BitVec 8
/-- Peer port: 0 X+, 1 X-, 2 Y+, 3 Y- (R343). -/
abbrev PortId := BitVec 2
/-- Flash die number, 0-63 (R119). -/
abbrev Die := BitVec 6
/-- Scalar or vector register number (R140). -/
abbrev Reg := BitVec 5
/-- Predicate register number (R140). -/
abbrev PReg := BitVec 3

/-- The 25 register pages of R16, in index order. -/
inductive Page
  | chip | clk | pwr | sec | flt | sess | fig | tier | gdr | flash | grid | sched | attn | samp
  | spec | text | cut | xpt | peer | host | egr | srch | ckpt | crc | tel
  deriving DecidableEq, Repr

/-- Who makes a management access (R10): the sideband, or one designated VST connection. -/
inductive Requester
  | sideband
  | conn (n : Conn)
  deriving DecidableEq, Repr

/-- One upset found by the vote sweep (R28): copy 0, 1 or 2 of the register at `addr` (bank `bank`)
has the bits of `flip` inverted. -/
structure Upset where
  addr : Word
  bank : Nat
  copy : Nat
  flip : Word
  deriving DecidableEq, Repr

/-- OPEN body (R336, R43). -/
structure OpenReq where
  model : Byte
  codec : Byte
  priority : Byte
  stopInclude : Byte
  client : BitVec 16
  grammar : BitVec 16
  maxLen : Word
  seed : DWord
  stops : List (List Byte)
  deriving DecidableEq, Repr

/-- What an APPEND adds (R275, R336): inline tokens, inline text, or a range of a registration. -/
inductive AppendSrc
  | tokens (l : List Word)
  | text (l : List Byte)
  | region (isText : Bool) (count : Word) (tag : Word) (offset : DWord)
  deriving DecidableEq, Repr

/-- Sampling block (R244). FP32 fields are kept as their bits. -/
structure Sampling where
  temp : Word
  topP : Word
  minP : Word
  rep : Word
  pres : Word
  freq : Word
  window : Word
  topK : BitVec 16
  flags : BitVec 16
  eos : Word
  rsvd : Word
  deriving DecidableEq, Repr

/-- Speculation block (R255). -/
structure SpecBlock where
  sources : Byte
  maxNodes : Byte
  maxDepth : Byte
  echoBranches : Byte
  draftSlot : Byte
  draftWidth : Byte
  hostCount : BitVec 16
  echoTag : Word
  echoCount : Word
  echoOffset : DWord
  rsvd : DWord
  deriving DecidableEq, Repr

/-- GENERATE body (R336). -/
structure GenReq where
  maxNew : BitVec 16
  samp : Sampling
  spec : SpecBlock
  drafts : List Word
  deriving DecidableEq, Repr

/-- FORK body (R336). -/
structure ForkReq where
  p : Word
  seed : DWord
  deriving DecidableEq, Repr

/-- REGISTER body (R336). -/
structure RegReq where
  length : DWord
  access : Byte
  conn : BitVec 16
  notify : BitVec 16
  deriving DecidableEq, Repr

/-- SEARCH body (R388). -/
structure SearchReq where
  mode : Byte
  flags : Byte
  k : BitVec 16
  beam : BitVec 16
  rerank : BitVec 16
  widen : Byte
  maxVisit : Word
  deadline : Word
  bitmapTag : Word
  bitmapOffset : DWord
  sketch : List Byte
  vector : List Byte
  deriving DecidableEq, Repr

/-- INDEX_LOAD body (R388). -/
structure LoadReq where
  kind : Byte
  object : Word
  tag : Word
  offset : DWord
  length : Word
  deriving DecidableEq, Repr

/-- One result of a search (R398): item, shard entry, distance bits. -/
structure SearchHit where
  item : Nat
  shard : Nat
  dist : Word
  deriving DecidableEq, Repr

/-- Cut-in message body (R298). -/
structure CutMsg where
  typ : Byte
  form : Byte
  status : Byte
  flags : Byte
  cutId : Word
  srcHandle : Word
  dstHandle : Word
  epoch : Word
  regionTag : Word
  imageLen : DWord
  imageCrc : DWord
  modelKey : DWord
  tag : DWord
  notify : BitVec 16
  crcOk : Bool
  deriving DecidableEq, Repr

/-- Checkpoint mark (R413). `crcOk`: its CRC-32C passed. -/
structure Mark where
  typ : Byte
  flags : Byte
  origin : Byte
  hops : Byte
  round : Word
  epoch : Word
  cand0 : Word
  cand1 : Word
  crcOk : Bool
  deriving DecidableEq, Repr

/-- A VST packet (R313): common header, the extension fields of every TYPE, and the payload.
Fields that a TYPE does not carry are zero. -/
structure Pkt where
  typ : BitVec 4 := 0
  flags : Byte := 0
  dst : BitVec 16 := 0
  src : BitVec 16 := 0
  nonce : Word := 0
  seq : Word := 0
  tag : Word := 0
  offset : DWord := 0
  opId : Word := 0
  length : Word := 0
  respTag : Word := 0
  respOffset : DWord := 0
  cls : Byte := 0
  msgLen : BitVec 16 := 0
  msgId : Word := 0
  cumSeq : Word := 0
  ce : BitVec 16 := 0
  nakSeq : Word := 0
  status : Byte := 0
  part : Byte := 0
  cflags : Byte := 0
  myNonce : Word := 0
  initSeq : Word := 0
  payload : List Byte := []
  deriving DecidableEq, Repr

/-- Where a packet came from: path (false host port, true peer fabric), remote address or node,
remote UDP port, the partition its destination address belongs to on the host port, and whether it
carried CE (R311, R312). -/
structure Link where
  peer : Bool
  addr : BitVec 128
  port : BitVec 16
  hostPart : Option Part
  ce : Bool
  deriving DecidableEq, Repr

/-- Predicate of a step instruction (R149): register and PNEG. -/
structure Guard where
  neg : Bool
  pred : PReg
  deriving DecidableEq, Repr

/-- The two engines of a step (R220). -/
inductive EngineKind
  | decode | chunk
  deriving DecidableEq, Repr

/-- Fresh keys and values of one session and attention layer, BF16 tail layout, one byte list per
row in row order (R212). -/
structure FreshKV where
  handle : Word
  layer : Nat
  rows : List (List Byte)
  deriving DecidableEq, Repr

/-- The queries that the projections give the rows of one session for a layer (R202), FP32 bits: one list for each row in
row order, its query heads one after another. -/
structure RowQueries where
  handle : Word
  rows : List (List Word)
  deriving DecidableEq, Repr

/-- The logits of one sampled row: FP32 bits, in token order (R174, R249). -/
structure RowLogits where
  handle : Word
  node : Nat
  logits : List Word
  deriving DecidableEq, Repr

/-- What the end of an engine's layer delivers: the core that ended last, the measured step time in
us, the measured merge time in cycles, the queries, the fresh keys and values, the logits of the sampled rows
(last layer only), at the end of a level of the draft model its logits per session (R259), the recurrent state of a session
after each of its rows (KIND 2), the outputs that go on to the next module of a ring (last layer only, R238), and the
sessions whose data met an uncorrectable read (R160). -/
structure LayerResult where
  slowCore : CoreId
  endedLast : Bool
  time : BitVec 24
  mergeCycles : BitVec 16
  queries : List RowQueries
  fresh : List FreshKV
  logits : List RowLogits
  drafts : List (Word × List Word)
  recur : List (Word × List (List Byte))
  outputs : List Byte
  bad : List Word
  deriving DecidableEq, Repr

/-- What the FEC makes of a codeword (R343, R344). -/
inductive FecResult
  | clean | corrected | uncorrectable
  deriving DecidableEq, Repr

/-- A codeword of a frame on a peer port: its lane, the frame's bytes that it carries, what the FEC makes of it, and
whether an earlier frame shares it. -/
structure Codeword where
  lane : BitVec 4
  bytes : List Byte
  fec : FecResult
  shared : Bool
  deriving DecidableEq, Repr

/-- Result of a core self-test (R165, R166). -/
inductive TestResult
  | pass | slow | fail
  deriving DecidableEq, Repr

/-- Result of a GDDR7 read under the burst code (R111): clean, corrected, uncorrectable, clean after one to four
retries (one more than the operand says) of a failed link CRC, or with the retries exhausted. -/
inductive EccResult
  | clean | corrected | uncorrectable | retried (n : BitVec 2) | retryOut
  deriving DecidableEq, Repr

/-- Result of a flash read by its owner (R129): read hard, corrected by shifted levels or a soft decode, or
uncorrectable. -/
inductive ReadResult
  | clean | retried | uncorrectable
  deriving DecidableEq, Repr

/-- What the read-scan met in an extent (R133): nothing, a weak codeword, or uncorrectable
codewords at the given byte offsets, beside a weak one or not. -/
inductive ScanResult
  | clean | weak | uncorrectable (offsets : List Nat) (weak : Bool)
  deriving DecidableEq, Repr

/-- What a failed program wrote (R125, R131): the write head of its die, the target of a whole copy, or a journal
extent. -/
inductive FailTarget
  | head | copy (ext : BitVec 17) | journal
  deriving DecidableEq, Repr

/-- One measurement of PWR_LEARN (R434): class, point, core-rail energy in nJ and time in ns per
1,000 nominal cycles per core. -/
structure LearnSample where
  cls : BitVec 3
  point : BitVec 4
  nj : Nat
  ns : Nat
  deriving DecidableEq, Repr

/-- One thermal site reading (R441): site and its two sensors, in 0.125 degrees C. -/
structure SiteReading where
  site : BitVec 5
  a : BitVec 12
  b : BitVec 12
  deriving DecidableEq, Repr

/-- A fault report (R475, R480): class, reporting page, INFO, ADDR, and for a class that admits more
than one level whether the higher one holds; `together` says that it arrives within 10 us of an earlier
report of the same INFO and ADDR, if there is one (R479). -/
structure FaultRep where
  cls : Byte
  page : Page
  info : Word
  addr : DWord
  higher : Bool
  together : Bool
  deriving DecidableEq, Repr

end Sys2Proof
end

