-- ==== Sys2Proof/Syntax.lean ====
section
/-! DEFINITION. The commands of the block: one constructor for each row of the opcode table, in the
table's order. A command that a requester or a host sends carries that sender and its operands; an
event of the environment carries what was measured. -/

namespace Sys2Proof

/-- One command (spec/opcode_table.json). -/
inductive Instr
  /-- SMB_WRITE (R13): Sideband WRITE command (0x10) writes DATA at ADDR and keeps the status for
      LAST_STATUS. -/
  | smbWrite (addr data : Word) (pecOk : Bool)
  /-- SMB_SET_ADDR (R13): Sideband SET_ADDR command (0x11) latches the read address. -/
  | smbSetAddr (addr : Word) (pecOk : Bool)
  /-- SMB_READ (R13): Sideband READ command (0x12) returns status and data at the latched address,
      then adds 4 to the address once its PEC byte has been sent. -/
  | smbRead (pecSent : Bool)
  /-- SMB_LAST_STATUS (R13): Sideband LAST_STATUS command (0x13) returns the status code of the
      last WRITE. -/
  | smbLastStatus
  /-- SMB_CLOCK_LOW_TIMEOUT (R526): SMB_CLK held low for more than 25 ms releases both lines,
      resets the SMBus interface and abandons the transaction in progress. -/
  | smbClockLowTimeout (acked : Option (Word × Word))
  /-- MGMT_REQ (R337): An in-band management frame is executed access by access and answered with
      one MGMT_RESP. -/
  | mgmtReq (conn : Conn) (frame : List Byte)
  /-- REGISTER_WRITE (R20): A write to a register field that has no row of its own stores or acts
      on the value as the field's access code allows. -/
  | registerWrite (r : Requester) (addr data : Word)
  /-- LO_READ (R27): Reading a _LO word copies the pair's _HI into the requester's read shadow. -/
  | loRead (r : Requester) (addr : Word)
  /-- LO_WRITE (R27): Writing a _LO word places it in the requester's write hold without consuming
      an unlock. -/
  | loWrite (r : Requester) (addr data : Word)
  /-- HI_WRITE (R27): Writing the _HI word applies the held pair in one uncore cycle, or applies
      _HI alone when nothing is held. -/
  | hiWrite (r : Requester) (addr data : Word)
  /-- ALIAS_SET (R22): A write to the set alias sets the written bits in one atomic read-modify-
      write. -/
  | aliasSet (r : Requester) (addr data : Word)
  /-- ALIAS_CLEAR (R22): A write to the clear alias clears the written bits in one atomic read-
      modify-write. -/
  | aliasClear (r : Requester) (addr data : Word)
  /-- ALIAS_TOGGLE (R22): A write to the toggle alias toggles the written bits in one atomic read-
      modify-write. -/
  | aliasToggle (r : Requester) (addr data : Word)
  /-- BLK_UNLOCK (R25): Writing 0x0000_C0DA arms an unlock for the requester on that page; any
      other value disarms it. -/
  | blkUnlock (r : Requester) (page : Page) (data : Word)
  /-- UNLOCK_LAPSE (R25): An unlock not consumed within 10,000 µs lapses. -/
  | unlockLapse (r : Requester) (page : Page)
  /-- ENABLE (R31): A BLK_CTRL write of ENABLE moves the block between OFF, ON and DISABLED, or
      starts a drain when ENABLE is cleared. -/
  | enable (r : Requester) (page : Page) (value : Word)
  /-- DRAIN (R31): A BLK_CTRL write of DRAIN 1 takes an ON block to DRAINING and starts its drain
      timer. -/
  | drain (r : Requester) (page : Page)
  /-- SELFTEST (R31): A BLK_CTRL write of SELFTEST 1 starts the block self-test, or is refused
      with REJECTED_BUSY, as the state table sets. -/
  | selftest (r : Requester) (page : Page)
  /-- SOFT_RESET (R31): A BLK_CTRL write of SOFT_RESET 1 under an unlock returns the page to its
      reset values. -/
  | softReset (r : Requester) (page : Page)
  /-- DRAIN_DONE (R31): INFLIGHT of a DRAINING block reaches 0; the block goes DISABLED and
      DRAIN_DONE is set. -/
  | drainDone (page : Page)
  /-- DRAIN_TIMEOUT (R31): The drain timeout expires; remaining work aborts with ABORTED_DRAIN and
      the block goes DISABLED with DRAIN_FORCED set. -/
  | drainTimeout (page : Page)
  /-- SELFTEST_END (R31): A block self-test ends; ST_RAN is set, ST_FAIL on failure, and a TESTING
      block goes DISABLED. -/
  | selftestEnd (page : Page) (pass : Bool)
  /-- BLK_INT_SET (R18): A write of BLK_INT_SET sets BLK_INT bits as if the hardware had raised
      those events. -/
  | blkIntSet (r : Requester) (page : Page) (data : Word)
  /-- BLK_INT_EN_WRITE (R19): Enabling an interrupt bit that is already pending sends an event
      frame at once. -/
  | blkIntEnWrite (r : Requester) (page : Page) (data : Word)
  /-- VOTE_SWEEP (R28): The background sweep compares the copies of triplicated registers. -/
  | voteSweep (upsets : List Upset)
  /-- MODEL_VALIDATE (R196): Writing ATTN.MODEL_CTRL.VALID 1 starts the check of the slot's layer
      table. -/
  | modelValidate (r : Requester) (layers : Byte)
  /-- MODEL_INVALIDATE (R196): Writing ATTN.MODEL_CTRL.VALID 0 invalidates the slot unless a
      session names it. -/
  | modelInvalidate (r : Requester) (layers : Byte)
  /-- MODEL_CHECK_DONE (R535): The layer-table check ends; the slot becomes valid, or MODEL_STAT
      records the code. -/
  | modelCheckDone
  /-- VOCAB_VALIDATE (R271): Writing TEXT.VOCAB_CTRL.VALID 1 starts the check of the vocabulary
      table. -/
  | vocabValidate (r : Requester) (mode : Bool)
  /-- VOCAB_INVALIDATE (R272): Writing TEXT.VOCAB_CTRL.VALID 0 invalidates the slot's text unless
      a session names the slot. -/
  | vocabInvalidate (r : Requester) (mode : Bool)
  /-- VOCAB_CHECK_DONE (R535): The vocabulary check ends with VALID 1 or a code in VOCAB_STAT. -/
  | vocabCheckDone
  /-- GRAM_VALIDATE (R278): Writing TEXT.GRAM_CTRL.VALID 1 starts the check of the grammar table. -/
  | gramValidate (r : Requester) (slot : BitVec 4)
  /-- GRAM_INVALIDATE (R278): Writing TEXT.GRAM_CTRL.VALID 0 invalidates the grammar unless a
      session names it. -/
  | gramInvalidate (r : Requester) (slot : BitVec 4)
  /-- GRAM_CHECK_DONE (R535): The grammar check ends with VALID 1 or a code in GRAM_STAT. -/
  | gramCheckDone
  /-- IDX_VALIDATE (R387): Writing SRCH.IDX_CTRL.VALID 1 starts the check of the search index
      slot. -/
  | idxValidate (r : Requester) (part : Part) (repair : Bool)
  /-- IDX_INVALIDATE (R387): Writing SRCH.IDX_CTRL.VALID 0 invalidates the index unless an
      operation on it is in progress. -/
  | idxInvalidate (r : Requester) (part : Part) (repair : Bool)
  /-- IDX_CHECK_DONE (R535): The index check ends with VALID 1 or a code in IDX_STAT. -/
  | idxCheckDone (index : BitVec 4)
  /-- VIEW_HANDLE (R65): Writing SESS.VIEW_HANDLE loads the handle's committed entry into
      VIEW_ENTRY after the handle checks. -/
  | viewHandle (r : Requester) (handle : Word)
  /-- DAMAGE_SWEEP_START (R109): Writing TIER.SWEEP.START starts a damage sweep over the directory
      and block tables. -/
  | damageSweepStart (r : Requester)
  /-- DAMAGE_SWEEP_END (R109): A damage sweep ends; FOUND is recorded and SWEEP_DONE is set. -/
  | damageSweepEnd
  /-- OPEN (R44): OPEN creates a READY session at a free index from the partition's free list. -/
  | openSession (conn : Conn) (tag : DWord) (req : OpenReq)
  /-- APPEND (R45): APPEND adds tokens or text to a session in chunks, reviving it first if
      needed. -/
  | append (conn : Conn) (tag : DWord) (handle : Word) (src : AppendSrc)
  /-- GENERATE (R537): GENERATE is checked in order and then produces tokens step by step until a
      stop condition. -/
  | generate (conn : Conn) (tag : DWord) (handle : Word) (req : GenReq)
  /-- PARK (R54): PARK writes back mutable state to GDDR7 and commits SITOUT. -/
  | park (conn : Conn) (tag : DWord) (handle : Word)
  /-- RESUME (R55): RESUME issues the reads that revive a SITOUT or COLD session. -/
  | resume (conn : Conn) (tag : DWord) (handle : Word) (deadline : Word)
  /-- REVIVAL_DONE (R107): The last revival read completes; the deadline is tested and the session
      commits READY or the operation ends TIER_LATE. -/
  | revivalDone (handle : Word) (elapsed : Word) (image : ReadResult)
  /-- FORK (R57): FORK creates a new session sharing the source's sealed blocks below P. -/
  | fork (conn : Conn) (tag : DWord) (handle : Word) (req : ForkReq)
  /-- EXCLUDE_SPAN (R59): EXCLUDE_SPAN removes a range of positions from all later attention of
      the session. -/
  | excludeSpan (conn : Conn) (tag : DWord) (handle : Word) (start stop : Word)
  /-- END (R60): END commits ENDED and starts the background release of the session. -/
  | endSession (conn : Conn) (tag : DWord) (handle : Word)
  /-- SECURE_END (R467): SECURE_END ends the session and erases and verifies everything only it
      held. -/
  | secureEnd (conn : Conn) (tag : DWord) (handle : Word)
  /-- SESSION_RELEASE_DONE (R60): The release of an ENDED session completes and the entry becomes
      FREE at the next generation. -/
  | sessionReleaseDone (handle : Word) (verified : Bool)
  /-- QUERY (R50): QUERY is answered at once from the session's last committed figure. -/
  | query (conn : Conn) (tag : DWord) (handle : Word)
  /-- OFFER (R305): The host operation OFFER starts a hand-over of the session to another Tarier. -/
  | offer (conn : Conn) (tag : DWord) (handle : Word) (toConn notify : BitVec 16)
  /-- ATTEST (R460): An ATTEST request is answered with a signed attestation report of the
      requester's partition. -/
  | attest (conn : Conn) (tag : DWord) (handle : Word) (body : List Byte)
  /-- REGISTER (R327): REGISTER takes a range from the partition's heap and zeroes it for a new
      registration. -/
  | register (conn : Conn) (tag : DWord) (req : RegReq)
  /-- REGISTER_ZERO_DONE (R327): Zeroing of a new registration ends; ACTIVE commits and the
      registration record is sent. -/
  | registerZeroDone (index : BitVec 16)
  /-- REVOKE (R327): REVOKE commits DRAINING, the revocation point. -/
  | revoke (conn : Conn) (tag : DWord) (region : Word)
  /-- REVOKE_DRAINED (R333): INFLIGHT of a DRAINING registration reaches 0; FREE commits, the
      generation rises and the revoke record is sent. -/
  | revokeDrained (index : BitVec 16)
  /-- SEARCH (R388): SEARCH is checked and queued as a walk or a scan on the index. -/
  | search (conn : Conn) (tag : DWord) (handle : Word) (req : SearchReq)
  /-- DELETE (R399): DELETE sets the tombstone bits of its items. -/
  | delete (conn : Conn) (tag : DWord) (handle : Word) (items : List Word)
  /-- DELETE_WAIT_END (R399): Every query accepted before a DELETE has ended, so the DELETE
      completes. -/
  | deleteWaitEnd (id : Nat)
  /-- INDEX_LOAD (R386): INDEX_LOAD copies one object from a registration into flash. -/
  | indexLoad (conn : Conn) (tag : DWord) (handle : Word) (req : LoadReq)
  /-- INDEX_FREE (R386): INDEX_FREE frees every object of the index and marks every entry ABSENT. -/
  | indexFree (conn : Conn) (tag : DWord) (handle : Word)
  /-- FIGURE_APPLY (R73): FIG applies a committed figure's actions in FIG_SEQ order and releases
      its log and staging space. -/
  | figureApply
  /-- FIG_STALL_RELEASE (R71): A figure waiting for log, staging or open-figure space opens once
      space is released. -/
  | figStallRelease
  /-- CHIP_FAULT (R52): A step datapath or control fault stops every step, replays the log and
      ends every operation with ABORTED_CHIP_FAULT. -/
  | chipFault (lost unreadable : List DWord) (time : BitVec 16)
  /-- SCHED_RESUME (R236): After REPLAY_DONE and the completion of lost operations, SCHED resumes
      forming from an empty session table. -/
  | schedResume
  /-- STEP_BOUNDARY (R219): At a partition's step boundary SCHED selects sessions, cuts chunks,
      splits rows and releases layer 0. -/
  | stepBoundary (part : Part) (late : List Word)
  /-- BATCH_HOLD_EXPIRY (R224): The batch hold time passes and SCHED releases the decode step. -/
  | batchHoldExpiry (part : Part) (late : List Word)
  /-- LAYER_END (R230): An engine's layer ends when its last placement reports done, and the next
      layer's placements are formed and released. -/
  | layerEnd (part : Part) (engine : EngineKind) (res : LayerResult)
  /-- RATIO_JUDGE (R229): Every 64 steps SCHED moves CHUNK_ROWS by one row when one engine ended
      last often enough. -/
  | ratioJudge (part : Part)
  /-- ACTIVATIONS_ARRIVED (R238): Under RING_SPLIT the previous module's activations arrive and
      the step's first layer can run. -/
  | activationsArrived (part : Part) (waited : Word) (compute : Word)
  /-- TOKENISE_DONE (R275): TEXT finishes tokenising an APPEND's text and the session becomes
      eligible. -/
  | tokeniseDone (handle : Word)
  /-- NOP (R150): Step instruction NOP does nothing. -/
  | nop (core : CoreId) (g : Guard)
  /-- HALT (R146): Step instruction HALT ends the program. -/
  | halt (core : CoreId) (g : Guard)
  /-- LOOP (R150): Step instruction LOOP repeats the next IMM instructions S[A] times. -/
  | loop (core : CoreId) (g : Guard) (a : Reg) (len : Word)
  /-- SKIP (R150): Step instruction SKIP skips the next IMM instructions if the predicate holds. -/
  | skip (core : CoreId) (g : Guard) (n : Word)
  /-- BAR (R157): Step instruction BAR waits at a group barrier, which releases every member after
      the last arrives. -/
  | bar (core : CoreId) (g : Guard) (b : BitVec 2)
  /-- FENCE (R156): Step instruction FENCE waits until every SEND, PUT and STORE issued is
      acknowledged. -/
  | fence (core : CoreId) (g : Guard)
  /-- SMOVI (R150): Step instruction SMOVI loads an immediate into a scalar register. -/
  | smovi (core : CoreId) (g : Guard) (a : Reg) (imm : Word)
  /-- SADD (R150): Step instruction SADD adds scalars. -/
  | sadd (core : CoreId) (g : Guard) (a b c : Reg) (imm : Word)
  /-- SSUB (R150): Step instruction SSUB subtracts scalars. -/
  | ssub (core : CoreId) (g : Guard) (a b c : Reg) (imm : Word)
  /-- SMUL (R150): Step instruction SMUL multiplies scalars, keeping the low 32 bits. -/
  | smul (core : CoreId) (g : Guard) (a b c : Reg) (imm : Word)
  /-- SAND (R150): Step instruction SAND takes the bitwise AND of scalars. -/
  | sand (core : CoreId) (g : Guard) (a b c : Reg) (imm : Word)
  /-- SOR (R150): Step instruction SOR takes the bitwise OR of scalars. -/
  | sor (core : CoreId) (g : Guard) (a b c : Reg) (imm : Word)
  /-- SXOR (R150): Step instruction SXOR takes the bitwise XOR of scalars. -/
  | sxor (core : CoreId) (g : Guard) (a b c : Reg) (imm : Word)
  /-- SSHL (R150): Step instruction SSHL shifts a scalar left. -/
  | sshl (core : CoreId) (g : Guard) (a b c : Reg) (imm : Word)
  /-- SSHR (R150): Step instruction SSHR shifts a scalar right logically. -/
  | sshr (core : CoreId) (g : Guard) (a b c : Reg) (imm : Word)
  /-- SCMP (R150): Step instruction SCMP compares scalars into a predicate. -/
  | scmp (core : CoreId) (g : Guard) (p : PReg) (b c : Reg) (fmt : BitVec 2)
  /-- SLD (R150): Step instruction SLD loads 32 bits from the core store. -/
  | sld (core : CoreId) (g : Guard) (a b : Reg) (imm : Word)
  /-- SST (R150): Step instruction SST stores 32 bits to the core store. -/
  | sst (core : CoreId) (g : Guard) (a b : Reg) (imm : Word)
  /-- SPAR (R150): Step instruction SPAR reads a parameter word. -/
  | spar (core : CoreId) (g : Guard) (a : Reg) (imm : Word)
  /-- SIDX (R150): Step instruction SIDX reads a loop iteration index. -/
  | sidx (core : CoreId) (g : Guard) (a : Reg) (depth : BitVec 2)
  /-- VLD (R150): Step instruction VLD loads 64 elements converted to FP32. -/
  | vld (core : CoreId) (g : Guard) (a b : Reg) (fmt : BitVec 2) (imm : Word)
  /-- VST (R150): Step instruction VST stores 64 elements in a chosen format. -/
  | vst (core : CoreId) (g : Guard) (a b : Reg) (fmt : BitVec 2) (imm : Word)
  /-- VADD (R150): Step instruction VADD adds vectors. -/
  | vadd (core : CoreId) (g : Guard) (a b c : Reg)
  /-- VSUB (R150): Step instruction VSUB subtracts vectors. -/
  | vsub (core : CoreId) (g : Guard) (a b c : Reg)
  /-- VMUL (R150): Step instruction VMUL multiplies vectors. -/
  | vmul (core : CoreId) (g : Guard) (a b c : Reg)
  /-- VFMA (R178): Step instruction VFMA performs fused multiply-add with one rounding. -/
  | vfma (core : CoreId) (g : Guard) (a b c : Reg)
  /-- VMAX (R178): Step instruction VMAX takes the lane-wise maximum with the NaN rules. -/
  | vmax (core : CoreId) (g : Guard) (a b c : Reg)
  /-- VMIN (R178): Step instruction VMIN takes the lane-wise minimum with the NaN rules. -/
  | vmin (core : CoreId) (g : Guard) (a b c : Reg)
  /-- VEXP2 (R179): Step instruction VEXP2 computes 2^x per lane. -/
  | vexp2 (core : CoreId) (g : Guard) (a b : Reg)
  /-- VRCP (R179): Step instruction VRCP computes reciprocals per lane. -/
  | vrcp (core : CoreId) (g : Guard) (a b : Reg)
  /-- VRSQ (R179): Step instruction VRSQ computes reciprocal square roots per lane. -/
  | vrsq (core : CoreId) (g : Guard) (a b : Reg)
  /-- VRED (R178): Step instruction VRED reduces lanes by sum or maximum. -/
  | vred (core : CoreId) (g : Guard) (a b : Reg) (max : Bool)
  /-- VBCAST (R150): Step instruction VBCAST broadcasts a lane or scalar to every lane. -/
  | vbcast (core : CoreId) (g : Guard) (a b : Reg) (scalar : Bool) (lane : BitVec 6)
  /-- VSEL (R150): Step instruction VSEL selects per lane by predicate. -/
  | vsel (core : CoreId) (g : Guard) (a b c : Reg)
  /-- VCMP (R178): Step instruction VCMP compares vectors into a predicate. -/
  | vcmp (core : CoreId) (g : Guard) (p : PReg) (b c : Reg) (fmt : BitVec 2)
  /-- VROT (R150): Step instruction VROT rotates lane pairs by cosine and sine. -/
  | vrot (core : CoreId) (g : Guard) (a b c : Reg)
  /-- MZERO (R150): Step instruction MZERO zeroes an accumulator bank. -/
  | mzero (core : CoreId) (g : Guard) (bank : Bool)
  /-- MMA (R152): Step instruction MMA accumulates a matrix product into a bank under a residue
      check. -/
  | mma (core : CoreId) (g : Guard) (a b c : Reg) (fa fb : BitVec 4) (bank : Bool) (dist : BitVec 16)
  /-- MOUT (R150): Step instruction MOUT writes an accumulator bank to the core store. -/
  | mout (core : CoreId) (g : Guard) (a : Reg) (fmt : BitVec 2) (bank : Bool)
  /-- MCOL (R150): Step instruction MCOL reads one bank column into a vector register. -/
  | mcol (core : CoreId) (g : Guard) (a : Reg) (col : BitVec 5) (bank : Bool)
  /-- RECV (R155): Step instruction RECV posts a receive buffer and sends a credit to the source
      core. -/
  | recv (core : CoreId) (g : Guard) (a b c : Reg) (tag : BitVec 4)
  /-- SEND (R155): Step instruction SEND queues a message that streams once its credit is held. -/
  | send (core : CoreId) (g : Guard) (a b c : Reg) (tag : BitVec 4)
  /-- MESSAGE_ARRIVAL (R155): A mesh message has fully arrived in its posted buffer. -/
  | messageArrival (src dst : CoreId) (tag : BitVec 4)
  /-- MESH_LINK_FAIL (R153): After 16 consecutive replays of one flit the link fails as a step
      datapath fault. -/
  | meshLinkFail (core : CoreId)
  /-- RWAIT (R150): Step instruction RWAIT waits for a tag's message and returns its length. -/
  | rwait (core : CoreId) (g : Guard) (a : Reg) (tag : BitVec 4)
  /-- CPLAN (R158): Step instruction CPLAN starts a copy plan of LOAD, STORE, PUT, BLOCK and TAIL
      descriptors. -/
  | cplan (core : CoreId) (g : Guard) (a b : Reg) (plan : BitVec 2)
  /-- COPY_PLAN_DONE (R158): Every descriptor of a copy plan has completed. -/
  | copyPlanDone (core : CoreId) (plan : BitVec 2) (met : List (Nat × EccResult)) (replays : Nat)
  /-- CWAIT (R158): Step instruction CWAIT waits until a copy plan has completed. -/
  | cwait (core : CoreId) (g : Guard) (plan : BitVec 2)
  /-- PLACEMENT_DONE (R146): A core reports done once every SEND, PUT and STORE is acknowledged,
      and a latency sample is recorded. -/
  | placementDone (core : CoreId) (cycles : Word)
  /-- WATCHDOG_EXPIRY (R148): A placement not done within GRID.WATCHDOG is a program error. -/
  | watchdogExpiry (core : CoreId)
  /-- LAME_EVAL (R164): Every 1,024 steps GRID marks LAME each core whose median latency exceeds
      the ratio. -/
  | lameEval
  /-- ROTATE_TEST (R167): Every ROTATE interval GRID queues a self-test of the next core. -/
  | rotateTest
  /-- CORE_TEST_END (R166): A core self-test ends and the core goes FREE, LAME or FAULTED. -/
  | coreTestEnd (core : CoreId) (res : TestResult)
  /-- CORE_STORE_SCRUB (R168): The core store is scrubbed, correcting single errors in place. -/
  | coreStoreScrub (core : CoreId) (single : Nat) (double reloadFails : Bool)
  /-- LOCKSTEP_DISAGREE (R168): A disagreement between a core sequencer and its shadow is detected
      as a step fault. -/
  | lockstepDisagree (core : CoreId)
  /-- CORE_ONLINE (R165): CORE_CTRL.ONLINE takes an OFF core to TESTING. -/
  | coreOnline (r : Requester)
  /-- CORE_OFFLINE (R165): CORE_CTRL.OFFLINE takes a core toward OFF. -/
  | coreOffline (r : Requester)
  /-- CORE_TEST (R165): CORE_CTRL.TEST requests a core self-test. -/
  | coreTest (r : Requester)
  /-- AGE_FLUSH (R101): A SITOUT session parked longer than FLUSH_AGE has its RESIDENT blocks
      written to flash. -/
  | ageFlush (handle : Word)
  /-- PRESSURE_EVICT (R102): HEAP_FREE falls below PRESSURE.LOW and TIER starts evicting SITOUT
      sessions. -/
  | pressureEvict (part : Part)
  /-- COLD_AGE_EVICT (R102): A session sitting out longer than COLD_AGE is evicted without
      pressure. -/
  | coldAgeEvict (handle : Word)
  /-- EVICTION_COMMIT (R103): Once every block is MIRRORED and the image durable, one figure makes
      the session COLD. -/
  | evictionCommit (handle : Word)
  /-- BLOCK_READ_DONE (R100): A revival read of a block completes and is checked; the block
      becomes MIRRORED. -/
  | blockReadDone (block : Word) (res : ReadResult)
  /-- PATROL_SCRUB (R113): Patrol scrub reads and corrects GDDR7 addresses. -/
  | patrolScrub (addr : BitVec 38) (res : EccResult) (passEnd : Bool)
  /-- RETRAIN_WINDOW (R113): A live retraining window trains one GDDR7 channel. -/
  | retrainWindow (ch : BitVec 5) (ok : Bool)
  /-- OBJECT_DURABLE (R124): An object's pages and summary record are programmed and FLASH reports
      it durable to its owner. -/
  | objectDurable (id : Nat)
  /-- PROGRAM_FAIL (R125): A flash program fails; objects are rewritten elsewhere and the extent
      is copied to a spare. -/
  | programFail (die : Die) (what : FailTarget)
  /-- EXTENT_COPY_DONE (R125): A whole-extent copy completes and the source extent is erased or
      retired. -/
  | extentCopyDone (ext : BitVec 17)
  /-- EXTENT_ERASE_DONE (R128): An extent erase ends; the extent returns to the spares or is
      retired. -/
  | extentEraseDone (ext : BitVec 17) (pass : Bool)
  /-- WEAR_LEVEL (R128): A cold extent is copied to the most worn spare when erase counts differ
      by more than 200. -/
  | wearLevel
  /-- COMPACTION_START (R127): With too few free extents, FLASH copies the emptiest closed
      extent's live objects. -/
  | compactionStart
  /-- DIE_COMMAND_TIMEOUT (R130): A die that times out a command is reset. -/
  | dieCommandTimeout (die : Die)
  /-- DIE_LOST (R130): A die reset not complete within 50,000 µs loses the die, retires its
      extents and starts the damage sweep. -/
  | dieLost (die : Die)
  /-- DIE_POLL (R130): FLASH polls every idle die once per 1,000 ms. -/
  | diePoll (die : Die) (answered : Bool)
  /-- MAP_REBUILT (R132): At power-up the extent map is rebuilt and MAP_READY set. -/
  | mapRebuilt
  /-- SUMMARY_SCAN_DONE (R132): The scan of closed summaries ends and FLASH accepts writes and
      goes ON. -/
  | summaryScanDone
  /-- READ_SCAN (R133): The background read-scan reads codewords of closed extents and refreshes
      weak ones. -/
  | readScan (ext : BitVec 17) (res : ScanResult) (passEnd : Bool)
  /-- PEER_FRAME_RX (R347): A frame arriving on a peer port is delivered locally, dropped, or
      routed to an output port. -/
  | peerFrameRx (port : PortId) (first : BitVec 4) (words : List Codeword)
  /-- PEER_OUTPUT_ARBITRATE (R351): An output port with credit chooses its next frame by channel
      and transit/local weights. -/
  | peerOutputArbitrate (port : PortId)
  /-- LASER_FAILOVER (R345): The lit comb laser source falls below its floor and the standby
      source is lit. -/
  | laserFailover (standbyOk : Bool)
  /-- RING_LOCK_TICK (R353): Every 10 µs each ring heater is adjusted to hold lock. -/
  | ringLockTick (port : PortId) (lane : BitVec 4) (nearLimit : Bool)
  /-- CAL_SWEEP_START (R354): A full recalibration sweep starts on a Tj change, a heater near its
      limit, port UP or a write of CAL_CTRL.START. -/
  | calSweepStart (by_ : Option Requester)
  /-- CAL_LANE_DONE (R354): One lane's sweep ends and the next lane is taken, or the sweep ends
      with CAL_DONE. -/
  | calLaneDone (locked : Bool)
  /-- LANE_LOST (R355): A lost lane is detected and striping moves to the remaining lanes. -/
  | laneLost (port : PortId) (lane : BitVec 4)
  /-- PORT_SILENCE_TIMEOUT (R356): Nothing arrives from a neighbour for 100 µs and the port goes
      DOWN. -/
  | portSilenceTimeout (port : PortId)
  /-- SLOW_WINDOW (R357): At the end of each window, ports with credit stalls above STALL_PCT set
      SLOW. -/
  | slowWindow (p0 p1 p2 p3 : BitVec 7)
  /-- IDLE_REDUCE (R358): A port below UTIL_PCT for IDLE_US keeps only four lanes lit. -/
  | idleReduce (port : PortId)
  /-- LANE_RELIGHT (R358): More than WAKE_KIB waiting relights the dark lanes. -/
  | laneRelight (port : PortId)
  /-- PORT_ENABLE (R361): Writing PORT_CFG.ENABLE starts training a port or takes it OFF. -/
  | portEnable (r : Requester) (value : Word)
  /-- PORT_TRAINED (R361): Both directions align and node IDs are exchanged; the port goes UP. -/
  | portTrained (port : PortId) (lanes : BitVec 16) (node : Option (BitVec 12))
  /-- PORT_TRAINING_TIMEOUT (R361): 50,000 µs without alignment takes the port DOWN. -/
  | portTrainingTimeout (port : PortId)
  /-- PORT_RETRAIN_TIMER (R361): 1,000,000 µs in DOWN retrains the port. -/
  | portRetrainTimer (port : PortId)
  /-- RT_SWAP (R349): A guarded write of RT_CTRL.SWAP exchanges the routing banks between frames. -/
  | rtSwap (r : Requester)
  /-- RT_COPY (R363): Writing RT_CTRL.COPY copies the active bank into the shadow bank. -/
  | rtCopy (r : Requester)
  /-- RT_DATA_ACCESS (R363): An access to RT_DATA reaches the shadow entry and advances RT_INDEX. -/
  | rtDataAccess (r : Requester) (write : Option Word)
  /-- HOST_FRAME_RX (R368): A received host-port frame is classified, answered for ARP, policed
      and passed to XPT. -/
  | hostFrameRx (frame : List Byte) (fcsOk : Bool) (fec : List FecResult)
  /-- HOST_TRAINED (R370): All 8 host lanes align and the host port goes UP. -/
  | hostTrained
  /-- HOST_TRAINING_TIMEOUT (R370): 50,000 µs without alignment takes the host port DOWN. -/
  | hostTrainingTimeout
  /-- HOST_LINK_LOSS (R370): A lost lane or PCS alignment takes the host port DOWN. -/
  | hostLinkLoss (lanesOk : Byte)
  /-- HOST_RETRAIN_TIMER (R370): 1,000,000 µs in DOWN retrains the host port. -/
  | hostRetrainTimer
  /-- HOST_CAL_START (R370): Writing HOST.CAL_CTRL.START takes the link down for a sweep. -/
  | hostCalStart (r : Requester)
  /-- HOST_CAL_NEEDED (R370): A host heater within 5% of its range sets CAL_CTRL.NEEDED. -/
  | hostCalNeeded
  /-- HOST_LASER_FAILOVER (R365): The host optics' standby laser source is lit. -/
  | hostLaserFailover (standbyOk : Bool)
  /-- POLICER_REFILL (R369): Every 10 µs each partition's receive policer gains RATE tokens. -/
  | policerRefill
  /-- SHAPER_REFILL (R375): Every REFILL interval each shaped egress queue gains tokens up to
      BURST. -/
  | shaperRefill
  /-- QUEUE_SAMPLE (R377): Every SAMPLE interval EGR samples each queue's depth and head delay. -/
  | queueSample (delays : List (Nat × Nat))
  /-- EGRESS_SELECT (R374): An output chooses its next packet from the control lane, then by
      priority level and round robin. -/
  | egressSelect (peerOut : Bool)
  /-- SENDER_WAIT_RELEASE (R372): A connection waiting for queue or buffer space resumes sending
      in arrival order. -/
  | senderWaitRelease
  /-- VST_WRITE (R332): An accepted WRITE packet is checked and placed into its registration. -/
  | vstWrite (l : Link) (p : Pkt)
  /-- WRITE_PLACED (R332): A WRITE's bytes reach GDDR7; INFLIGHT falls and the packet may be
      acknowledged. -/
  | writePlaced (conn : Conn) (seq : Word)
  /-- VST_READ_REQ (R331): An accepted READ_REQ is checked and answered with READ_RESP packets. -/
  | vstReadReq (l : Link) (p : Pkt)
  /-- VST_READ_RESP (R329): A READ_RESP is checked against the requester's registration and
      placed. -/
  | vstReadResp (l : Link) (p : Pkt)
  /-- VST_MSG (R335): A MSG segment is accepted and reassembled, or its message is discarded and
      NAKed. -/
  | vstMsg (l : Link) (p : Pkt)
  /-- MESSAGE_DELIVER (R336): A message whose segments have arrived and whose earlier packets are
      placed is delivered and acted on. -/
  | messageDeliver (conn : Conn) (msgId : Word)
  /-- VST_ACK (R320): An ACK advances the sender's window, triggers SACK retransmissions and feeds
      rate control. -/
  | vstAck (l : Link) (p : Pkt)
  /-- VST_NAK (R330): A NAK closes its sequence number and records the status for the initiator's
      operation. -/
  | vstNak (l : Link) (p : Pkt)
  /-- VST_CONNECT (R315): An incoming CONNECT opens a connection in the partition's range and is
      answered with CONNECT_ACK. -/
  | vstConnect (l : Link) (p : Pkt)
  /-- VST_CONNECT_ACK (R317): A CONNECT_ACK opens or fails a CONNECTING connection. -/
  | vstConnectAck (l : Link) (p : Pkt)
  /-- VST_CLOSE (R317): A received CLOSE takes an OPEN connection to CLOSING. -/
  | vstClose (l : Link) (p : Pkt)
  /-- CONN_CLOSED (R317): A CLOSING connection has every packet acknowledged and CLOSE received,
      and goes CLOSED. -/
  | connClosed (conn : Conn)
  /-- RTO_EXPIRY (R320): A packet's retransmission timer expires; it is resent with a doubled
      timer. -/
  | rtoExpiry (conn : Conn) (seq : Word)
  /-- ACK_DELAY_EXPIRY (R319): ACK_CFG.DELAY passes after the first unacknowledged acceptance and
      an ACK is sent. -/
  | ackDelayExpiry (conn : Conn)
  /-- RATE_INCREASE_TICK (R324): Every AI_INTERVAL without a decrease the connection's rate rises
      by AI_STEP. -/
  | rateIncreaseTick (conn : Conn)
  /-- CONN_FAILED_TIMEOUT (R317): After 10,000,000 µs in FAILED a connection becomes CLOSED. -/
  | connFailedTimeout (conn : Conn)
  /-- CONN_OPEN (R315): CONN_CTRL.OPEN sends CONNECT on a CLOSED connection. -/
  | connOpen (r : Requester)
  /-- CONN_CLOSE (R317): CONN_CTRL.CLOSE takes an OPEN connection to CLOSING. -/
  | connClose (r : Requester)
  /-- CONN_RELEASE (R317): CONN_CTRL.RELEASE takes a FAILED connection to CLOSED. -/
  | connRelease (r : Requester)
  /-- CONN_MGMT (R316): CONN_CTRL.MGMT designates an open connection for management. -/
  | connMgmt (r : Requester)
  /-- CONN_UNMGMT (R317): CONN_CTRL.UNMGMT removes a connection's management designation. -/
  | connUnmgmt (r : Requester)
  /-- CUT_OFFER_RX (R299): A destination receiving OFFER registers a landing region and sends
      ACCEPT, or DECLINE. -/
  | cutOfferRx (conn : Conn) (m : CutMsg)
  /-- CUT_ACCEPT_RX (R305): A source receiving ACCEPT writes the image into the landing region. -/
  | cutAcceptRx (conn : Conn) (m : CutMsg)
  /-- CUT_IMAGE_ACKED (R306): Every image write is acknowledged; the source sends RELEASE and
      enters HELD. -/
  | cutImageAcked (handle : Word)
  /-- CUT_RELEASE_RX (R302): A destination receiving RELEASE revokes the landing region. -/
  | cutReleaseRx (conn : Conn) (m : CutMsg)
  /-- CUT_CONVERSION_START (R302): The landing region's in-flight count reaches 0 and conversion
      of the image starts. -/
  | cutConversionStart (handle : Word)
  /-- CUT_CONVERSION_DONE (R302): Conversion ends; READY at E + 1 commits and CONFIRM is sent. -/
  | cutConversionDone (handle : Word)
  /-- CUT_CONFIRM_RX (R306): A HELD source receiving CONFIRM frees the session and sends DONE. -/
  | cutConfirmRx (conn : Conn) (m : CutMsg)
  /-- CUT_DECLINE_RX (R306): A source receiving DECLINE returns the session to READY, reclaiming
      if HELD. -/
  | cutDeclineRx (conn : Conn) (m : CutMsg)
  /-- CUT_WITHDRAW_RX (R306): A destination receiving WITHDRAW discards its HANDOFF_IN or
      unsettled session. -/
  | cutWithdrawRx (conn : Conn) (m : CutMsg)
  /-- CUT_RECLAIM_RX (R306): A destination receiving RECLAIM at a higher epoch discards its copy. -/
  | cutReclaimRx (conn : Conn) (m : CutMsg)
  /-- CUT_PROBE_RX (R306): A PROBE is answered with STANDING from the record or the entry. -/
  | cutProbeRx (conn : Conn) (m : CutMsg)
  /-- CUT_STANDING_RX (R306): A STANDING answer drives the receiving end's row of the cut-in
      table. -/
  | cutStandingRx (conn : Conn) (m : CutMsg)
  /-- CUT_DONE_RX (R303): DONE settles the arrived session, which sends its arrival record. -/
  | cutDoneRx (conn : Conn) (m : CutMsg)
  /-- ACCEPT_TIMEOUT (R306): No ACCEPT within ACCEPT_TIMEOUT: the source withdraws at E + 2. -/
  | acceptTimeout (handle : Word)
  /-- CONFIRM_TIMEOUT (R305): T_eff passes in HELD: the source reclaims at E + 2 and sends
      RECLAIM. -/
  | confirmTimeout (handle : Word)
  /-- SOURCE_PROBE_TIMER (R305): At T_eff/4, T_eff/2 and 3T_eff/4 a HELD source sends PROBE. -/
  | sourceProbeTimer (handle : Word)
  /-- SETTLE_PROBE_TIMER (R303): Every SETTLE_PROBE an unsettled destination sends PROBE and
      resends CONFIRM. -/
  | settleProbeTimer (handle : Word)
  /-- ORPHAN_AGE_TIMER (R304): A destination in HANDOFF_IN longer than ORPHAN_AGE sets ORPHAN and
      sends PROBE. -/
  | orphanAgeTimer (handle : Word)
  /-- RECORD_AGE_EXPIRY (R307): A cut record is discarded RECORD_AGE after its cut-in ends. -/
  | recordAgeExpiry (conn : Conn) (cutId : Word)
  /-- RESOLVE_SETTLE (R307): CUT.RESOLVE SETTLE settles an unsettled destination session. -/
  | resolveSettle (r : Requester)
  /-- RESOLVE_DISCARD (R307): CUT.RESOLVE DISCARD acts as a message carrying the stored epoch + 2. -/
  | resolveDiscard (r : Requester)
  /-- SCAN_PASS_START (R391): SRCH starts a scan pass over up to BATCH waiting scans of one index. -/
  | scanPassStart
  /-- SCAN_PASS_END (R391): A scan pass has read every sketch and fixed each scan's candidates. -/
  | scanPassEnd (uncorr : Bool)
  /-- WALK_LISTS_READY (R392): The lists of a walk round are ready and the round is scored. -/
  | walkListsReady (id : Nat) (uncorr : List Nat) (gddr : Bool)
  /-- RERANK_DONE (R397): Re-rank vectors are read and exact distances computed; the search record
      is sent. -/
  | rerankDone (id : Nat) (uncorr : List Nat)
  /-- SEARCH_DEADLINE (R402): A query not complete at its deadline stops and completes with
      TIER_LATE. -/
  | searchDeadline (id : Nat)
  /-- SHARD_ANSWER (R401): A shard's sub-query answer arrives at the merger and is merged. -/
  | shardAnswer (id : Nat) (shard : BitVec 6) (status : Byte) (hits : List SearchHit)
  /-- REPAIR_OBJECT (R400): Background repair rewrites a graph object with enough dead edges. -/
  | repairObject (index : BitVec 4) (object : Nat)
  /-- CKPT_TIMER_EXPIRY (R414): TIMER ticks since the last PREPARE pass and the leader starts a
      round. -/
  | ckptTimerExpiry
  /-- CKPT_STEPS_REACHED (R414): STEPS steps end on the leader and it starts a round. -/
  | ckptStepsReached
  /-- CKPT_NOW (R414): A write of CKPT.CTRL.NOW starts a round on the leader. -/
  | ckptNow (r : Requester)
  /-- MARK_PREPARE_RX (R414): A PREPARE mark raises its epoch and is forwarded, or at the leader
      triggers SNAP. -/
  | markPrepareRx (m : Mark)
  /-- MARK_SNAP_RX (R414): A SNAP mark is forwarded and the member takes, or skips, its snapshot
      point. -/
  | markSnapRx (m : Mark)
  /-- MARK_RESTORE_QUERY_RX (R419): A RESTORE_QUERY mark intersects candidate epochs, or at the
      leader triggers RESTORE_GO. -/
  | markRestoreQueryRx (m : Mark)
  /-- MARK_RESTORE_GO_RX (R420): A RESTORE_GO mark starts the member's restore at the chosen
      epoch. -/
  | markRestoreGoRx (m : Mark)
  /-- MARK_TIMEOUT (R414): A mark not returned within MARK_TIMEOUT makes the leader start a new
      round. -/
  | markTimeout
  /-- SNAPSHOT_POINT (R415): At the step boundary CKPT records FIG_HEAD and sets pending bits for
      mutable regions. -/
  | snapshotPoint
  /-- COPY_BEFORE_WRITE (R416): A write to a pending region is held while the region is copied to
      bounce space. -/
  | copyBeforeWrite (addr : BitVec 38)
  /-- SHARD_BODY_ACKED (R417): Every shard data packet is acknowledged and the COMPLETE header is
      written. -/
  | shardBodyAcked
  /-- SHARD_COMMITTED (R417): The COMPLETE header is acknowledged and a CKPT_COMMIT figure records
      the generation's epoch. -/
  | shardCommitted
  /-- RESTORE_START (R418): RESTORE_CTRL.START reads the member's generations and offers epochs. -/
  | restoreStart (r : Requester) (gen0 gen1 : List Byte)
  /-- RESTORE_REBUILD_DONE (R420): The member's sessions are rebuilt from the shard and flash and
      the result reported. -/
  | restoreRebuildDone (shard : Option (List Byte))
  /-- CKPT_CUT_RECLAIM (R421): CKPT.CUT_RESOLVE RECLAIM makes a restored HELD session SITOUT at
      EPOCH + 2. -/
  | ckptCutReclaim (r : Requester)
  /-- CKPT_CUT_DROP (R421): CKPT.CUT_RESOLVE DROP makes a restored HELD session FREE. -/
  | ckptCutDrop (r : Requester)
  /-- NEXT_AREA_TAG_WRITE (R408): Writing NEXT_AREA_TAG sets GEN0_EPOCH and GEN1_EPOCH to none. -/
  | nextAreaTagWrite (r : Requester) (data : Word)
  /-- POWER_SAMPLE (R430): Every 10 µs PWR samples input power and core current and applies the
      fast limit. -/
  | powerSample (dw avg : BitVec 16) (da : BitVec 16)
  /-- PWR_LEARN (R434): Every 100 µs PWR divides each row's energy among phase classes and updates
      the tables. -/
  | pwrLearn (samples : List LearnSample)
  /-- PWR_EXPLORE (R434): Every EXPLORE steps PWR runs an engine one point off its choice for 64
      steps. -/
  | pwrExplore (part : Part) (engine : EngineKind) (up : Bool)
  /-- PWR_DECIDE (R435): Every DECIDE interval PWR chooses points and pacing for each partition. -/
  | pwrDecide (ratio : Nat) (cycles : List (Nat × Nat)) (avg : BitVec 16)
  /-- MARK_ESTIMATE (R439): Every 100 ns PWR estimates row current and sets the marking fill to
      bound the fall. -/
  | markEstimate (row : BitVec 4) (est i0 t : Nat)
  /-- MARK_HOLD_EXPIRY (R439): After MARK.HOLD at the floor the marking fill falls to zero at the
      slew. -/
  | markHoldExpiry (row : BitVec 4)
  /-- THERMAL_READ (R441): Every 1 ms the site sensors are read, TJ updated and sensor
      disagreements flagged. -/
  | thermalRead (sites : List SiteReading)
  /-- THROTTLE_STEP (R442): While TJ is at THROTTLE, every 1,000 µs rows drop a point or pacing
      rises. -/
  | throttleStep
  /-- THERMAL_TRIP (R443): A site comparator reaches 115 °C; GDDR7 self-refreshes, clocks stop and
      the core rail goes off. -/
  | thermalTrip (site : BitVec 5)
  /-- TRIP_CLEAR (R444): A sideband write of TRIP.CLEAR below CLEAR_C restores rails and clocks
      and reports a chip fault. -/
  | tripClear (r : Requester) (data : Word)
  /-- COMPARATOR_EXERCISE (R446): Every 10 s each trip comparator is exercised against a
      reference. -/
  | comparatorExercise (site : BitVec 5) (pass : Bool)
  /-- PART_VALIDATE (R448): Writing PART_CTRL.VALID 1 checks and validates a partition. -/
  | partValidate (r : Requester)
  /-- PART_INVALIDATE (R450): Writing PART_CTRL.VALID 0 with no unit in use takes the partition to
      SCRUBBING. -/
  | partInvalidate (r : Requester)
  /-- PART_PURGE (R451): PART_CTRL.PURGE ends everything a tenant holds. -/
  | partPurge (r : Requester)
  /-- PURGE_DRAINED (R450): The last session, connection, registration and index of a purging
      partition end; it goes SCRUBBING. -/
  | purgeDrained (part : Part)
  /-- PART_SCRUB_DONE (R450): Every unit of the partition is zeroised or erased and verified; it
      goes INVALID. -/
  | partScrubDone (part : Part)
  /-- EXTEND (R458): The write of EXTEND7 extends the partition's MP1 measurement. -/
  | extend (r : Requester) (data : Word)
  /-- CONSENT_WRITE (R461): A partition writes its DEBUG and PROFILE consent bits. -/
  | consentWrite (r : Requester) (data : Word)
  /-- CHIP_DEBUG_REQ (R463): CHIP_DEBUG.REQ opens chip-wide debug when every valid partition
      consents. -/
  | chipDebugReq (r : Requester)
  /-- CHIP_DEBUG_CLOSE (R463): CHIP_DEBUG.CLOSE closes chip-wide debug. -/
  | chipDebugClose (r : Requester)
  /-- DBG_OPEN (R462): DBG_CTRL.OPEN opens debug on a consenting partition. -/
  | dbgOpen (r : Requester) (part : Part)
  /-- DBG_CLOSE (R464): DBG_CTRL.CLOSE closes partition debug. -/
  | dbgClose (r : Requester)
  /-- DBG_DATA_READ (R470): A read of DBG_DATA returns the word at the debug address and advances
      it by 4. -/
  | dbgDataRead (r : Requester)
  /-- ROLLBACK_RAISE (R457): A guarded write of a higher MIN_SVN burns fuses. -/
  | rollbackRaise (r : Requester) (value : Word)
  /-- KEY_REVOKE (R457): A guarded write of a KEY_REVOKE bit revokes a key slot for good. -/
  | keyRevoke (r : Requester) (value : Word)
  /-- TRACE_ENABLE (R471): Writing TEL.TRACE_CTRL.EN starts the trace on a consenting partition's
      rows. -/
  | traceEnable (r : Requester) (part : Part)
  /-- TEL_SNAPSHOT (R465): Every 10 ms TEL takes a coarsened counter snapshot for each partition. -/
  | telSnapshot
  /-- TEL_POWER_UPDATE (R466): Once per second TEL.POWER is updated with the last second's
      average. -/
  | telPowerUpdate (avg : BitVec 16)
  /-- FAULT_REPORT (R480): FLT records a detected fault, counts it, sets its level event and
      writes a black-box record. -/
  | faultReport (f : FaultRep)
  /-- MODULE_FAULT (R477): A level 3 fault stops the fast clocks, sets FAULTED, drops the core
      rail and abandons GDDR7. -/
  | moduleFault
  /-- MODULE_RESET (R478): A guarded sideband write of FLT.MODULE.RESET runs the power-up sequence
      with GDDR7 lost. -/
  | moduleReset (r : Requester)
  /-- BB_SECTOR_ERASE_DONE (R483): The erase of the next black-box sector ends and queued records
      are written. -/
  | bbSectorEraseDone
  /-- BB_INDEX (R487): Writing BB_INDEX starts copying a black-box slot into the window. -/
  | bbIndex (r : Requester) (slot : Word)
  /-- BB_WINDOW_READY (R487): The slot copy ends; READY and CRC_OK are set. -/
  | bbWindowReady
  /-- BB_MARK (R483): Writing BB_MARK appends a KIND 7 host marker record. -/
  | bbMark (r : Requester) (value : Word) (early : Bool)
  /-- SUPPLY_CHANGE (R489): The 48 V or 3.3 V supply rises or falls, starting or restarting the 10
      ms good timer or the minuet domain. -/
  | supplyChange (mainMv auxMv : Nat)
  /-- POWER_LOSS (R485): Input below its limit is detected as a power loss and a KIND 4 record is
      written. -/
  | powerLoss
  /-- MAIN_OVERVOLTAGE (R523): VIN48 above 62 V for 10 µs opens the input stage as a main-supply
      loss. -/
  | mainOvervoltage
  /-- SUPPLIES_GOOD (R490): Both supplies hold good for 10 ms and the power-up sequence starts; bit 0 of `readFail`:
      bank A cannot be read, bit 1: bank B cannot (R501). -/
  | suppliesGood (readFail : BitVec 2)
  /-- BOOT_READY (R490): Configuration, channel training and map rebuild complete; BOOT.STATE
      READY and the KIND 1 record is written. -/
  | bootReady (holdupOk : Bool)
  /-- RESET_INPUT (R491): RESET_N low for at least 1 µs resets the module. -/
  | resetInput
  /-- XTAL_STABLE (R492): The minuet crystal becomes stable and XTAL_OK is set. -/
  | xtalStable
  /-- XTAL_FAIL (R508): The crystal stops and the internal oscillator takes over. -/
  | xtalFail
  /-- NAP_ENTRY (R494): The idle conditions hold for NAP_US and the fast domain enters NAP. -/
  | napEntry
  /-- DEEP_ENTRY (R494): DEEP_AFTER ticks in NAP pass and the fast domain enters DEEP. -/
  | deepEntry
  /-- FAST_WAKE (R495): A frame, register write, sideband access or timer wakes the fast domain to
      RUN. -/
  | fastWake (cause : Byte) (us : BitVec 16)
  /-- HOUSEKEEPING_WAKE (R497): Every HOUSEKEEP interval of sleep, the fast domain wakes to run
      the due shares of periodic duties. -/
  | housekeepingWake (us : BitVec 16)
  /-- CLK_WAKE (R495): Writing CLK.CTRL.WAKE wakes the fast domain. -/
  | clkWake (r : Requester) (us : BitVec 16)
  /-- CLK_HOLD (R495): Writing CLK.CTRL.HOLD wakes and holds, or releases, the fast domain in RUN. -/
  | clkHold (r : Requester) (hold : Bool) (us : BitVec 16)
  /-- OVL_APPLY (R505): Writing OVL_APPLY queues an overlay to be applied as one figure. -/
  | ovlApply (r : Requester) (number : BitVec 4)
  /-- OVERLAY_COMMIT (R78): At a step boundary of every partition the overlay figure commits or
      aborts. -/
  | overlayCommit
  /-- BOOT_PREFER_WRITE (R509): Writing BOOT_CFG stores a new boot configuration record. -/
  | bootPreferWrite (r : Requester) (value : Word)
  /-- CHIP_SELFTEST_START (R507): CHIP.SELFTEST.START takes the tested blocks to TESTING, forcing
      a chip fault if asked. -/
  | chipSelftestStart (r : Requester) (value : Word)
  /-- CHIP_SELFTEST_END (R507): The whole-chip self-test ends and each block returns or stays
      DISABLED. -/
  | chipSelftestEnd (failed : List Page)
  /-- UPDATE_START (R502): CHIP.UPDATE.START reads, verifies and programs a bundle into the other
      bank. -/
  | updateStart (r : Requester) (value : Word)
  /-- UPDATE_DONE (R502): A bundle update ends with its status and a new boot record if accepted. -/
  | updateDone (readBackOk : Bool)
  /-- NOR_DATA_WRITE (R509): A sideband write of NOR_DATA while boot has FAILED programs 4 B of
      bank A. -/
  | norDataWrite (r : Requester) (value : Word)
  /-- CRC_START (R515): CRC.CTRL.START checks the sources and starts a CRC run. -/
  | crcStart (r : Requester)
  /-- CRC_RUN_DONE (R510): A CRC run folds its last byte; RESULT, STATUS and VALID are written. -/
  | crcRunDone (unit : BitVec 2) (uncorr : Bool)
  /-- JTAG_TRST (R527): TRST_N low resets the TAP to Test-Logic-Reset. -/
  | jtagTrst
  /-- JTAG_IDCODE (R528): The IDCODE instruction returns 0x1940_05D3. -/
  | jtagIdcode
  /-- JTAG_BYPASS (R463): The BYPASS instruction selects the bypass register. -/
  | jtagBypass
  /-- JTAG_SAMPLE_PRELOAD (R463): The SAMPLE/PRELOAD instruction captures the boundary register. -/
  | jtagSamplePreload (preload : BitVec 14)
  /-- JTAG_EXTEST (R463): EXTEST, only under chip-wide debug, takes the pins from the die. -/
  | jtagExtest
  /-- JTAG_INTEST (R463): INTEST is served only while chip-wide debug is open. -/
  | jtagIntest
  /-- JTAG_CLAMP (R463): CLAMP is served only while chip-wide debug is open. -/
  | jtagClamp
  /-- JTAG_HIGHZ (R463): HIGHZ is served only while chip-wide debug is open. -/
  | jtagHighz
  /-- READ_FULLY_READ (R331): The last byte of an accepted READ_REQ is read from GDDR7, and the
      request leaves its registration's INFLIGHT count. -/
  | readFullyRead (conn : Conn) (seq : Word)
  /-- SHARD_DEADLINE (R401): A merged query's sub-query deadline passes without a shard's answer,
      and the merger completes with SEARCH_PARTIAL and what it has merged. -/
  | shardDeadline (id : Nat)
  /-- PACING_RELEASE (R436): The partition's running share over the decision interval falls to x,
      and the step that pacing held back is released. -/
  | pacingRelease (part : Part)
  /-- PLL_RELOCK (R475): A fast PLL whose clock was lost relocks, setting CLK.BLK_INT.PLL_RELOCK,
      or escalates to level 3 if not relocked within 1,000 µs. -/
  | pllRelock (inTime : Bool)
  /-- RESET_N_RELEASE (R527): RESET_N rises after a reset pulse: the straps are sampled again, the
      address stays NACKed for up to 1 ms, and the power-up sequence runs once both supplies
      are good. -/
  | resetNRelease (addr : BitVec 2)
  /-- BB_HEAD_FOUND (R482): At power-up FLT finds the black-box head, the slot after the valid
      record of greatest SEQ, and writes the records it held meanwhile. -/
  | bbHeadFound
  /-- DIR_COPY_DONE (R66): The copy of all 512 MiB of directory entries to the new region
      completes, and SESS STATE goes from DISABLED to ON. -/
  | dirCopyDone
  deriving DecidableEq, Repr

end Sys2Proof
end

