-- ==== Sys2Proof/Decode.lean ====
section
/-! DEFINITION. The command that a word spells by the bits of spec/opcode_table.json: no row of the table gives bits, since
the commands of the block reach it as management accesses, packets, frames and events. And the decoder of the words of a
step program (R149, R150, R152): the command that an instruction word is at a core. -/

namespace Sys2Proof

/-- The command of a word by the table's bits: none, for every word. -/
def decodeTableWord (_nbits _w : Nat) : Option Instr := none

/-! ### The words of a step program -/

/-- OP, bits 63:56 (R149). -/
def opField (w : BitVec 64) : BitVec 8 := w.extractLsb' 56 8
/-- PNEG and PRED, bits 55 and 54:52 (R149). -/
def guardField (w : BitVec 64) : Guard := { neg := w.getLsbD 55, pred := w.extractLsb' 52 3 }
/-- A register number in the 6-bit field from bit `lo` (R149); 32 to 63 name no register of R140. -/
def regField (lo : Nat) (w : BitVec 64) : Option Reg :=
  if w.getLsbD (lo + 5) then none else some (w.extractLsb' lo 5)
/-- A predicate register number in field A (R149); 8 to 63 name none of P0 to P7. -/
def predField (w : BitVec 64) : Option PReg :=
  if w.extractLsb' 49 3 = 0 then some (w.extractLsb' 46 3) else none
/-- FMT, bits 33:32 (R149). -/
def fmtField (w : BitVec 64) : BitVec 2 := w.extractLsb' 32 2
/-- FMT where the operation has only the modes 0 and 1 (R150: VRED, VBCAST). -/
def modeField (w : BitVec 64) : Option Bool :=
  if w.getLsbD 33 then none else some (w.getLsbD 32)
/-- IMM, bits 31:0 (R149). -/
def immField (w : BitVec 64) : Word := w.extractLsb' 0 32
/-- IMM where R150 gives it the values below 2^n. -/
def immBelow (n : Nat) (w : BitVec 64) : Option (BitVec n) :=
  if (immField w).toNat < 2 ^ n then some (w.extractLsb' 0 n) else none

/-- An operation over fields A and B. -/
def withAB (w : BitVec 64) (f : Reg → Reg → Instr) : Option Instr := do
  let a ← regField 46 w
  let b ← regField 40 w
  pure (f a b)

/-- An operation over fields A, B and C. -/
def withABC (w : BitVec 64) (f : Reg → Reg → Reg → Instr) : Option Instr := do
  let a ← regField 46 w
  let b ← regField 40 w
  let c ← regField 34 w
  pure (f a b c)

/-- A comparison of B with C into P[A]. -/
def withPBC (w : BitVec 64) (f : PReg → Reg → Reg → Instr) : Option Instr := do
  let p ← predField w
  let b ← regField 40 w
  let c ← regField 34 w
  pure (f p b c)

/-- The operations 0x00 to 0x05 (R150): control. -/
def controlWord (core : CoreId) (w : BitVec 64) : Option Instr :=
  let g := guardField w
  let imm := immField w
  match (opField w).toNat with
  | 0x00 => some (.nop core g)
  | 0x01 => some (.halt core g)
  | 0x02 => (regField 46 w).map (fun a => .loop core g a imm)
  | 0x03 => if 1 ≤ imm.toNat ∧ imm.toNat ≤ 255 then some (.skip core g imm) else none
  | 0x04 => (immBelow 2 w).map (fun b => .bar core g b)
  | 0x05 => some (.fence core g)
  | _ => none

/-- The operations 0x10 to 0x1D (R150): scalar. -/
def scalarWord (core : CoreId) (w : BitVec 64) : Option Instr :=
  let g := guardField w
  let imm := immField w
  match (opField w).toNat with
  | 0x10 => (regField 46 w).map (fun a => .smovi core g a imm)
  | 0x11 => withABC w (fun a b c => .sadd core g a b c imm)
  | 0x12 => withABC w (fun a b c => .ssub core g a b c imm)
  | 0x13 => withABC w (fun a b c => .smul core g a b c imm)
  | 0x14 => withABC w (fun a b c => .sand core g a b c imm)
  | 0x15 => withABC w (fun a b c => .sor core g a b c imm)
  | 0x16 => withABC w (fun a b c => .sxor core g a b c imm)
  | 0x17 => withABC w (fun a b c => .sshl core g a b c imm)
  | 0x18 => withABC w (fun a b c => .sshr core g a b c imm)
  | 0x19 => withPBC w (fun p b c => .scmp core g p b c (fmtField w))
  | 0x1A => withAB w (fun a b => .sld core g a b imm)
  | 0x1B => withAB w (fun a b => .sst core g a b imm)
  | 0x1C => (regField 46 w).map (fun a => .spar core g a imm)
  | 0x1D => (regField 46 w).bind (fun a => (immBelow 2 w).map (fun d => .sidx core g a d))
  | _ => none

/-- The operations 0x20 to 0x2F (R150): vector. -/
def vectorWord (core : CoreId) (w : BitVec 64) : Option Instr :=
  let g := guardField w
  let imm := immField w
  match (opField w).toNat with
  | 0x20 => withAB w (fun a b => .vld core g a b (fmtField w) imm)
  | 0x21 => withAB w (fun a b => .vst core g a b (fmtField w) imm)
  | 0x22 => withABC w (.vadd core g)
  | 0x23 => withABC w (.vsub core g)
  | 0x24 => withABC w (.vmul core g)
  | 0x25 => withABC w (.vfma core g)
  | 0x26 => withABC w (.vmax core g)
  | 0x27 => withABC w (.vmin core g)
  | 0x28 => withAB w (.vexp2 core g)
  | 0x29 => withAB w (.vrcp core g)
  | 0x2A => withAB w (.vrsq core g)
  | 0x2B => (modeField w).bind (fun m => withAB w (fun a b => .vred core g a b m))
  | 0x2C =>
    match modeField w with
    | some true => withAB w (fun a b => .vbcast core g a b true (w.extractLsb' 0 6))
    | some false => (immBelow 6 w).bind (fun l => withAB w (fun a b => .vbcast core g a b false l))
    | none => none
  | 0x2D => withABC w (.vsel core g)
  | 0x2E => withPBC w (fun p b c => .vcmp core g p b c (fmtField w))
  | 0x2F => withABC w (.vrot core g)
  | _ => none

/-- The operations 0x40 to 0x43 (R150, R152): matrix. An MMA's immediate holds the formats in bits 3:0 and 7:4, the bank in
bit 8 and the distance of the A slices in bits 31:16. -/
def matrixWord (core : CoreId) (w : BitVec 64) : Option Instr :=
  let g := guardField w
  match (opField w).toNat with
  | 0x40 => some (.mzero core g (w.getLsbD 0))
  | 0x41 => withABC w (fun a b c =>
      .mma core g a b c (w.extractLsb' 0 4) (w.extractLsb' 4 4) (w.getLsbD 8) (w.extractLsb' 16 16))
  | 0x42 => (regField 46 w).map (fun a => .mout core g a (fmtField w) (w.getLsbD 0))
  | 0x43 => (regField 46 w).map (fun a => .mcol core g a (w.extractLsb' 0 5) (w.getLsbD 8))
  | _ => none

/-- The operations 0x50 to 0x61 (R150): messages and copy plans. -/
def moveWord (core : CoreId) (w : BitVec 64) : Option Instr :=
  let g := guardField w
  match (opField w).toNat with
  | 0x50 => (immBelow 4 w).bind (fun t => withABC w (fun a b c => .recv core g a b c t))
  | 0x51 => (immBelow 4 w).bind (fun t => withABC w (fun a b c => .send core g a b c t))
  | 0x52 => (immBelow 4 w).bind (fun t => (regField 46 w).map (fun a => .rwait core g a t))
  | 0x60 => (immBelow 2 w).bind (fun p => withAB w (fun a b => .cplan core g a b p))
  | 0x61 => (immBelow 2 w).map (fun p => .cwait core g p)
  | _ => none

/-- The command that an instruction word is at a core (R149, R150), and none for a word whose opcode is not in the table
or whose fields lie outside what the table gives the operation (log entry 121). -/
def stepWord (core : CoreId) (w : BitVec 64) : Option Instr :=
  match (opField w).toNat / 16 with
  | 0x0 => controlWord core w
  | 0x1 => scalarWord core w
  | 0x2 => vectorWord core w
  | 0x4 => matrixWord core w
  | 0x5 | 0x6 => moveWord core w
  | _ => none

end Sys2Proof
end

