-- ==== Sys2Proof/Config.lean ====
section
/-! DEFINITION. What an implementation fixes and the manual leaves open: free values, as constants
with no body. Nothing can evaluate them, so a statement about one holds for every value. -/

namespace Sys2Proof

/-- A fresh free value for each value of the state's counter `free` (log entry 3). -/
opaque Config.free : Nat → DWord

/-- Result of VEXP2 where R179 bounds only its error; used only where it lies inside that bound (log entry 4). -/
opaque Config.vexp2 : Word → Word
/-- Result of VRCP where R179 bounds only its error (log entry 4). -/
opaque Config.vrcp : Word → Word
/-- Result of VRSQ where R179 bounds only its error (log entry 4). -/
opaque Config.vrsq : Word → Word

/-- Sign and payload bits of the NaN that an operation returns (R177, R178; log entry 8). -/
opaque Config.nanBits : Word
/-- Smoothing shift of a model slot, attention layer, KV head and key channel (R182) in a bundle's tables, given by their
bytes: the manual does not give their layout (log entry 9). -/
opaque Config.smooth : List Byte → Nat → Nat → Nat → Nat → BitVec 4

/-- BF16 element of the up-projection weights of a latent layer (R210), whose layout at AUX the manual does not give (log
entry 115): by AUX, the state's counter, whether it is W_uv, the query head, the row and the column. -/
opaque Config.upWeight : Nat → Nat → Bool → Nat → Nat → Nat → BitVec 16

/-- Byte of a codec group whose rotated elements are not all finite (R184, R185 state none; log entry 9). -/
opaque Config.codecOpen : Bool → List Word → Nat → Byte

/-- Text of a token of a slot whose tables were changed while valid (R536), by the state's counter. -/
opaque Config.openText : Nat → Nat → Nat → List Byte
/-- Tokens of a text under a slot whose tables were changed while valid (R536), by the state's counter: the first and the
others. -/
opaque Config.openTokens : Nat → Nat → List Byte → Nat × List Nat
/-- Mask bit of a token under a grammar that breaks R281 or was changed while valid (R536). -/
opaque Config.openMask : Nat → Nat → Nat → Bool

/-- Byte of a core store that a self-test or DEEP left (R142, R166, R493; log entry 32). -/
opaque Config.coreFill : Nat → Nat → Byte

/-- Byte of the figure log ring or of the staging region, whose contents the manual does not lay out byte by byte
(log entry 66), by the state's counter and the address. -/
opaque Config.ringByte : Nat → Nat → Byte

/-- Whether a codec, smoothing or PHY table of a bundle passes its check: the manual does not give its layout
(R500; log entry 31). -/
opaque Config.tableOk : List Byte → Bool

/-- SLH-DSA verification of FIPS 205 (R456): public key, message, signature (log entry 5). -/
opaque Config.slhVerify : List Byte → List Byte → List Byte → Bool
/-- The SLH-DSA-SHA2-128f signature of the device key over a message (R459, R460; log entry 5). -/
opaque Config.slhSign : List Byte → List Byte
/-- The public key of the device key pair (R459; log entry 5). -/
opaque Config.attestPk : List Byte
/-- SHA-256 hash fused for key slot n (R456; log entry 5). -/
opaque Config.keyHash : Nat → List Byte
/-- The boot logic version that MC0 measures (R458; log entry 5). -/
opaque Config.bootLogicVersion : List Byte

end Sys2Proof
end

