-- ==== Sys2Proof/Machine/State.lean ====
section
/-! DEFINITION. The state of the block as plain data: every register, table, queue, counter, mode and
pin of the specification, the closed types of faults and refusals, and the state after reset. -/

namespace Sys2Proof.Machine

/-- A sparse table: keys strictly rising, and no entry equal to what an unlisted key reads as. -/
abbrev Tbl (α : Type) := List (Nat × α)

/-! ### Management window (R8-R35) -/

/-- State of a block (R31). -/
inductive BState
  | off | on | draining | disabled | testing | fault
  deriving DecidableEq, Repr

/-- The common header of one page (R17): BLK_CTRL, BLK_STAT, BLK_INT, BLK_INT_EN, BLK_VOTE_ERR, and the
state a block held before a whole-chip self-test (R507). ENABLE, DRAIN, SELFTEST and SOFT_RESET stand as the majority of
their three copies has them; `odd0`, `odd1` and `odd2` hold the bits of BLK_CTRL 3:0 in which a copy differs from it
(R28). -/
structure BlockHdr where
  state : BState
  enable : Bool
  drain : Bool
  selftest : Bool
  softReset : Bool
  odd0 : BitVec 4
  odd1 : BitVec 4
  odd2 : BitVec 4
  drainForced : Bool
  stFail : Bool
  stRan : Bool
  int : Word
  intEn : Word
  voteCount : Byte
  voteOffset : BitVec 10
  voteNomaj : Bool
  votePending : Bool
  before : Option BState
  deriving DecidableEq, Repr

/-- What one requester holds (R10, R25, R27): the read shadow (key of the _HI word, value), the write
hold (key of the _LO word, value), and the pages with an armed unlock. -/
structure ReqState where
  shadow : Option (Nat × Word)
  hold : Option (Nat × Word)
  unlocked : List Nat
  deriving DecidableEq, Repr

/-- Status code and data of a management access (R11, R13). -/
structure Access where
  status : Byte
  data : Word
  deriving DecidableEq, Repr

/-- The management window. `regs` holds the words that differ from their reset value, keyed by
bank * 2^20 + byte address; `copy1` and `copy2` hold the bits in which the second and third copy of a
triplicated word differ from the first (R28). -/
structure Mgmt where
  regs : Tbl Word
  copy1 : Tbl Word
  copy2 : Tbl Word
  blocks : Tbl BlockHdr
  sideband : ReqState
  inband : Tbl ReqState
  acc : Access
  deriving DecidableEq, Repr

/-- The sideband port (R13, R525-R527): latched read address, status of the last WRITE, bytes of the
last answer, strapped address bits, whether the address is NACKed (RESET_N low), and whether the PEC byte of the last
block write was NACKed. -/
structure Smb where
  addr : Word
  lastStatus : Byte
  reply : List Byte
  strap : BitVec 2
  nacking : Bool
  pecNack : Bool
  deriving DecidableEq, Repr

/-! ### Sessions (R36-R67) -/

/-- State of a session, in the order of the codes of R40. -/
inductive SessState
  | free | ready | running | sitout | cold | handoffOut | handoffIn | held | ended | damaged
  deriving DecidableEq, Repr

/-- A directory entry (R40). `crcFlip` is the stored ENTRY_CRC exclusive-or the CRC-32C of the entry:
0 while the entry is intact. -/
structure Session where
  part : Nat
  gen : Nat
  state : SessState
  dense : Bool
  stopInclude : Bool
  shared : Bool
  tailDecoded : Bool
  priority : Nat
  model : Nat
  length : Nat
  maxLen : Nat
  epoch : Nat
  client : Nat
  grammar : Nat
  blockTable : Nat
  tailBase : Nat
  smallState : Nat
  exclTable : Nat
  figSeq : Nat
  prngKey : DWord
  prngCtr : DWord
  resident : Nat
  flashBlocks : Nat
  parent : Word
  stamp : Word
  excluded : Nat
  stopCount : Nat
  exclCount : Nat
  crcFlip : Word
  deriving DecidableEq, Repr

/-- One slot of the count table (R246). -/
structure CountSlot where
  token : Nat
  count : Nat
  last : Nat
  deriving DecidableEq, Repr

/-- What a session owns beside its entry (R36): the sealed-block table (R99, key group * layers + layer),
the ledger entries it claims (R99), the count table (R246, LIVE slots), the grammar stack (R279), the
stop history and strings (R285), the exclusion spans (R93), the COLD image (R104), and an eviction in
phase 1 (R103): the write id of its image and the durable address; whether an arrival is unsettled (R303),
whether the end is a secure one, and the checkpoints that it still waits for (R412). -/
structure Body where
  blocks : Tbl Nat
  claims : List Nat
  counts : Tbl CountSlot
  gram : List Nat
  hist : List Byte
  stops : List (List Byte)
  excl : List (Nat × Nat)
  image : Option Nat
  evict : Option (Option Nat × Option Nat)
  unsettled : Bool
  secure : Bool
  ckptWait : Nat
  deriving DecidableEq, Repr

/-- A node of a candidate tree (R256): token and parent (the root's parent is itself). -/
structure TreeNode where
  token : Nat
  parent : Nat
  deriving DecidableEq, Repr

/-- The request an operation carries (R43, R336). -/
inductive OpArg
  | plain
  | append (src : AppendSrc)
  | generate (req : GenReq)
  | resume (deadline : Word)
  | fork (req : ForkReq)
  | exclude (start stop : Word)
  | offer (conn notify : BitVec 16)
  deriving DecidableEq, Repr

/-- Where an operation stands: queued behind another (R49), due to begin, tokenising (R275), reviving (R55), waiting
for a place in a step (R221), running in a step, or handing over (R305). -/
inductive OpPhase
  | queued | due | tokenising | reviving | ready | running | handing
  deriving DecidableEq, Repr

/-- An operation on a session (R49), with the state R192-R263 give an APPEND or GENERATE in progress:
the tokens still to append, the carried token, the final token and its status once drawn (R194), the
tree of the next step, the last 256 emitted tokens, the host source's place (R257), the text bytes
generated and held (R289), whether a drain timeout ends it once the running step ends (R243), and the node that the draft
model's next level extends (R259). -/
structure Op where
  code : Nat
  conn : Nat
  tag : DWord
  handle : Word
  arg : OpArg
  phase : OpPhase
  order : Nat
  started : Bool
  implicit : Bool
  preempted : Bool
  tokens : List Nat
  tokensIn : Nat
  tokensOut : Nat
  textBytes : Nat
  genBytes : Nat
  lastFig : Nat
  carried : Option Nat
  final : Option Nat
  tree : List TreeNode
  recent : List Nat
  hostAt : Option Nat
  held : List Byte
  drainEnd : Bool
  draftAt : Option Nat := none
  deriving DecidableEq, Repr

/-- Completion record (R63) before its FIG_SEQ, EPOCH and LENGTH are filled from committed state. -/
structure CompRec where
  status : Byte
  preempted : Bool
  stopIncluded : Bool
  implicit : Bool
  tailDecoded : Bool
  handle : Word
  tag : DWord
  code : Nat
  overhang : List Byte
  stopIndex : Nat
  epoch : Nat
  length : Nat
  tokensIn : Nat
  tokensOut : Nat
  textBytes : Nat
  figSeq : Option Nat
  aux : DWord
  deriving DecidableEq, Repr

/-- Output record (R277). -/
structure OutRec where
  handle : Word
  tag : DWord
  firstPos : Nat
  tokens : List Nat
  text : List Byte
  stopCut : Bool
  flush : Bool
  figSeq : Option Nat
  deriving DecidableEq, Repr

/-- A message or record that Tarier sends (R335): session completion, output record, or the bytes of a
message of the given class. `figSeq = none` in a record takes the sequence number of the figure that
sends it. -/
inductive OutMsg
  | comp (r : CompRec)
  | out (r : OutRec)
  | raw (cls : Nat) (bytes : List Byte)
  deriving DecidableEq, Repr

/-- The session directory (R38-R66): entries and bodies by index, operation queues, the free list of
each partition (next unused index of its range, then freed indices in order), the cached entries (R42),
whether the directory was initialised (DIR_CTRL), a pending move of the region (R66), and the
operations waiting for a place: acceptance counter. -/
structure SessUnit where
  entries : Tbl Session
  bodies : Tbl Body
  ops : Tbl (List Op)
  fresh : Tbl Nat
  freed : Tbl (List Nat)
  cached : List Nat
  inited : Bool
  moveFrom : Option Nat
  copying : Bool
  accepted : Nat
  lossDone : Bool
  deriving DecidableEq, Repr

/-! ### Figures (R68-R88) -/

/-- Subject of a figure (R68). -/
inductive Subject
  | session (idx : Nat)
  | region (idx : Nat)
  | config
  | checkpoint
  deriving DecidableEq, Repr

/-- State of a registration (R326). -/
inductive RegionState
  | free | active | draining
  deriving DecidableEq, Repr

/-- Field of the directory entry that a DIR_SET action writes (R69). -/
inductive DirField
  | part | state | flags | priority | model | length | maxLen | client | grammar | blockTable
  | tailBase | smallState | exclTable | prngKey | prngCtr | resident | flashBlocks | parent | excluded
  | stopCount | exclCount
  deriving DecidableEq, Repr

/-- Action of a figure (R69): the value its target has afterwards. `sub` selects SUBJECT1.
KV_APPEND carries the staged bytes by address; BLOCK_REF carries block-table keys with their ledger entries; STOP_SET
carries the history and the stop strings, which share its 576 B. `tableSet` is the DIR_SET of BLOCK_TABLE by an operation
that replaces the block table whole: the address of the new table, and what stands in it (log entry 13). -/
inductive Action
  | kvAppend (first count : Nat) (stage : Tbl (List Byte))
  | blockRef (entries : List (Nat × Nat))
  | tableSet (addr : Nat) (blocks : Tbl Nat) (claims : List Nat)
  | tokenEmit (token bytes : Nat)
  | countBatch (pairs : List (Nat × CountSlot))
  | grammarSet (stack : List Nat)
  | stopSet (hist : List Byte) (stops : List (List Byte))
  | dirSet (sub : Bool) (f : DirField) (v : Nat)
  | epochSet (e : Nat)
  | exclSet (spans : List (Nat × Nat)) (excluded : Nat)
  | refAdjust (block : Nat) (up : Bool)
  | regionSet (sub : Bool) (st : RegionState)
  | regOverlay (number : Nat) (writes : List (Word × Word))
  | ckptCommit (epoch : Word) (gen : Nat)
  deriving DecidableEq, Repr

/-- State of a cut-in at one end (R306). -/
inductive CutState
  | offered | sending | heldSrc | handoffIn | converting | unsettled | settled | reclaimed | aborted
  | discarded | done
  deriving DecidableEq, Repr

/-- Cut record (R306, R307): key (connection, CUT_ID), role, handles, offered epoch, landing region with the base of
its range, flags of STANDING, the arrival record's address, and the OFFER operation's reply address. -/
structure CutRec where
  conn : Nat
  cutId : Word
  source : Bool
  idx : Nat
  srcHandle : Word
  dstHandle : Word
  epoch : Nat
  form : Nat
  imageLen : Nat
  imageCrc : DWord
  region : Nat
  regionTag : Word
  reckoned : Nat
  state : CutState
  released : Bool
  confirmed : Bool
  reclaimed : Bool
  notify : Nat
  tag : DWord
  replyConn : Nat
  replyTag : DWord
  base : Nat
  ended : Bool
  deriving DecidableEq, Repr

/-- What follows the commit of a figure (R73, t3): records and messages sent, an index or region index
taken from its free list, an operation that ends, a record of a cut-in, the operation in progress as it
stands from then on (its last figure is this one), queued operations that are dropped, and an operation whose last
figure is this one. -/
inductive After
  | send (conn : Nat) (m : OutMsg)
  | opDone (idx status : Nat)
  | takeIndex (idx : Nat)
  | takeRegion (idx : Nat)
  | cutRecord (r : CutRec)
  | intEvent (page : Page) (bit : Nat)
  | opUpdate (idx : Nat) (o : Op)
  | opTrim (idx : Nat)
  | opFig (idx : Nat)
  deriving DecidableEq, Repr

/-- Where a figure comes from (R71). -/
inductive Origin
  | step | session | cutIn | transport | overlay | checkpoint
  deriving DecidableEq, Repr

/-- A figure (R68-R71): subjects, actions, staged bytes, what follows its commit, and whether FIG.STALL_CNT has counted
its wait for space. -/
structure Figure where
  subjects : List Subject
  acts : List Action
  origin : Origin
  staged : Nat
  after : List After
  stalled : Bool := false
  deriving DecidableEq, Repr

/-- A committed figure that is not yet applied (R73), with its FIG_SEQ, its log units of 32 B, its INTENT_ID, and the
place of its staged bytes in the pool. -/
structure Committed where
  seq : Nat
  fig : Figure
  units : Nat
  id : Nat
  place : Nat
  deriving DecidableEq, Repr

/-- FIG (R71-R88): figures waiting to open, figures committed and not applied, FIG_SEQ last committed
and last applied, ring positions in 32 B units, the units written since FIG was initialised (INTENT_ID), the ring's
records by unit, staged and reserved bytes. Figures wait
while a chip fault is reported and not yet recovered from (R82: `flt.chipPending`). -/
structure FigUnit where
  waiting : List Figure
  committed : List Committed
  seq : Nat
  applied : Nat
  logTail : Nat
  logHead : Nat
  logUsed : Nat
  written : Nat
  ring : Tbl (List Byte)
  staged : Nat
  reserved : Nat
  deriving DecidableEq, Repr

/-! ### Tiers (R89-R118) -/

/-- State of a ledger entry (R98, R100). -/
inductive BlkState
  | free | staged | resident | mirrored | flash | reading | damaged
  deriving DecidableEq, Repr

/-- A ledger entry (R98). -/
structure Ledger where
  gddr : Option Nat
  size : Nat
  flash : Option Nat
  ref : Nat
  res : Nat
  state : BlkState
  refSeq : Nat
  deriving DecidableEq, Repr

/-- A revival in progress (R106): session, PRIORITY, arrival order, deadline in us, whether its reads are
outstanding, the blocks and the image still to come, the allocations made for it, whether it began COLD,
whether its deadline has passed while reads run on (R107), and whether a block that it read has arrived: the image came
before it. -/
structure Revival where
  idx : Nat
  priority : Nat
  order : Nat
  deadline : Nat
  reading : Bool
  waitBlocks : List Nat
  addrs : List Nat
  cold : Bool
  late : Bool
  arrived : Bool
  deriving DecidableEq, Repr

/-- TIER: ledger, heap allocations (base, bytes, partition), revivals, whether a damage sweep runs
(R109), the partitions whose pressure has not reached PRESSURE.HIGH yet (R102), and the weight working copies: GDDR7
base, bytes, flash address of the master part (R89, R112; log entry 105). -/
structure TierUnit where
  ledger : Tbl Ledger
  heap : List (Nat × Nat × Nat)
  revivals : List Revival
  sweeping : Bool
  pressing : List Nat
  weights : List (Nat × Nat × Nat)
  deriving DecidableEq, Repr

/-! ### Flash (R119-R139) -/

/-- State of a physical extent (R128). -/
inductive ExtState
  | spare | open | closed | erasing | retired
  deriving DecidableEq, Repr

/-- A summary record (R122): one for each object that was put into an extent. -/
structure SumRec where
  offset : Nat
  len : Nat
  kind : Nat
  owner : DWord
  seq : Nat
  deriving DecidableEq, Repr

/-- A record of the mapping journal (R131): a LEXT mapped to a physical extent, unmapped, an extent retired, a LEXT
removed, the summary record of an open extent's object, an erase count, a snapshot of the map (LEXT, extent). -/
inductive JRec
  | map (lext ext : Nat)
  | unmap (lext : Nat)
  | retire (ext : Nat)
  | shrink (extents : Nat)
  | summary (ext : Nat) (r : SumRec)
  | erases (ext n : Nat)
  | snapshot (map : List (Nat × Nat))
  deriving DecidableEq, Repr

/-- A physical extent (R128): state, logical extent it backs, bytes filled, erase count, reads since its
program (R133), whether a program failed in it, the other extent of a whole copy in progress, the summary records of its
objects (R122), and whether a whole copy of it is due (R125, R133). -/
structure Extent where
  state : ExtState
  lext : Option Nat
  fill : Nat
  erases : Nat
  reads : Nat
  failed : Bool
  copyTo : Option Nat
  records : List SumRec
  copyDue : Bool
  deriving DecidableEq, Repr

/-- A flash object (R120, R122). -/
structure FObj where
  len : Nat
  kind : Nat
  owner : DWord
  seq : Nat
  data : List Byte
  deriving DecidableEq, Repr

/-- What a flash write is for: a sealed block (ledger entry), a COLD image (session), an object of a
search index (index, KIND, object, whether repair wrote it), or a relocation of the object at an
address. -/
inductive FUse
  | block (entry : Nat)
  | image (idx : Nat)
  | search (index kind object : Nat) (repair : Bool)
  | relocate (addr : Nat)
  deriving DecidableEq, Repr

/-- A flash write that is not yet durable (R124). -/
structure FWrite where
  id : Nat
  obj : FObj
  use : FUse
  ext : Nat
  addr : Nat
  deriving DecidableEq, Repr

/-- FLASH: extents, objects by logical address, writes in progress, lost and resetting dies, map and
scan state of R132, frees held under R412 with the completed checkpoints still to come (0: held until the scan of R132
ends), the LEXTs removed and still to be removed (R134), the mapping journal as both copies hold it, and whether a copy
of it is being rebuilt (R131). -/
structure FlashUnit where
  extents : Tbl Extent
  objects : Tbl FObj
  writes : List FWrite
  nextWrite : Nat
  lostDies : List Nat
  resetDies : List Nat
  heads : Tbl Nat
  mapReady : Bool
  scanned : Bool
  userCut : Nat
  cutDue : Nat
  heldFrees : List (Nat × Nat)
  journal : List JRec
  journalBroken : Bool
  deriving DecidableEq, Repr

/-! ### Step grid (R140-R171) -/

/-- State of a core (R165). -/
inductive CoreState
  | off | free | busy | draining | testing | lame | faulted
  deriving DecidableEq, Repr

/-- What a core waits for (R146, R155-R158). -/
inductive CoreWait
  | bar (b : Nat)
  | fence
  | message (tag : Nat) (a : Nat)
  | plan (p : Nat)
  deriving DecidableEq, Repr

/-- A loop being run (R150, R151): first instruction of the body, its length, iterations and the index
of the present one. -/
structure LoopFrame where
  start : Nat
  len : Nat
  count : Nat
  index : Nat
  deriving DecidableEq, Repr

/-- A posted receive buffer (R155): place, bytes, source core, and the arrived length. -/
structure Post where
  addr : Nat
  len : Nat
  src : Nat
  arrived : Option Nat
  deriving DecidableEq, Repr

/-- A message in the send queue (R155). -/
structure SendMsg where
  dst : Nat
  tag : Nat
  addr : Nat
  len : Nat
  deriving DecidableEq, Repr

/-- A copy descriptor (R158) with its addresses resolved, and the core-store bytes it writes or reads. -/
structure Desc where
  kind : Nat
  size : Nat
  outFp32 : Bool
  part : Nat
  keyT : Bool
  len : Nat
  src : Nat
  dst : Nat
  stride : Nat
  rows : Nat
  deriving DecidableEq, Repr

/-- A step core (R140): registers, accumulator banks (key bank * 2048 + column * 64 + row) and what each bank
holds (0 zeros, 1 floating, 2 integer), core store (unlisted bytes are 0, or open when `fill` is not 0: log
entry 32; parameter bytes that SCHED wrote and the manual does not give are open under `paramFill`), program counter, loops innermost first, waits, receive buffers by tag, queued and streaming
messages, credits held (destination, tag), plans, resident programs (least recently used first), and the
state, test and latency data of R163-R167: the state before TESTING or BUSY, whether a test was requested,
whether a DRAINING core goes OFF, whether it becomes LAME after its placement; the engine that its placement serves
(partition * 2 + engine), and the placements of a shared list that wait for the core (R232): engine, parameter block,
program. -/
structure Core where
  s : Tbl Word
  v : Tbl (List Word)
  p : Tbl (BitVec 64)
  acc : Tbl Word
  accKind : Tbl Nat
  store : Tbl Byte
  fill : Nat
  paramFill : Nat
  pc : Nat
  loops : List LoopFrame
  wait : Option CoreWait
  halted : Bool
  posts : Tbl Post
  sendQ : List SendMsg
  inFlight : List (SendMsg × List Byte)
  credits : List (Nat × Nat)
  plans : Tbl (List Desc)
  programs : List Nat
  state : CoreState
  before : CoreState
  stFail : Bool
  requested : Bool
  wantOff : Bool
  lameDue : Bool
  window : List Nat
  owner : Nat := 0
  queued : List (Nat × List Byte × Nat) := []
  deriving DecidableEq, Repr

/-- GRID: cores, test requests that wait, and the next core of the rotation (R167). -/
structure GridUnit where
  cores : Tbl Core
  tests : List Nat
  rotateNext : Nat
  deriving DecidableEq, Repr

/-! ### Step forming (R219-R243) -/

/-- Kind of rows a session has in a step (R192). -/
inductive RowKind
  | carried | replay | chunk | closing
  deriving DecidableEq, Repr

/-- One session's part of a step: kind, the chunk's tokens, rows, tree, reserved staging bytes (R227), the ledger
entries staged for its seals (R105), fresh keys and values (key row * 256 + attention layer), draws by node, the
nodes without an allowed token, the recurrent state after each row (key row * 256 + recurrent layer, R211), the attention
outputs of the layer by row (R209), and whether its data met an uncorrectable read (R160). -/
structure Work where
  idx : Nat
  kind : RowKind
  tokens : List Nat
  rows : Nat
  tree : List TreeNode
  stage : Nat
  blocks : List Nat
  fresh : Tbl (List Byte)
  draws : Tbl Nat
  deadNodes : List Nat
  recur : Tbl (List Byte)
  outs : Tbl (List Byte)
  bad : Bool
  deriving DecidableEq, Repr

/-- A unit of span forming (R198): session, KV head, and a read group, or the tip, with the ledger entry that a group's
BLOCK descriptor names. -/
structure SpanUnit where
  idx : Nat
  head : Nat
  group : Option (Nat × Nat)
  deriving DecidableEq, Repr

/-- An engine of a running step (R220): model slot, rows of the grid, works in step order, the layer it
runs, the cores of that layer's placements (R230; none while no core could take them, R232), whether its last
layer ended, and the units that each of its cores works through, in order, with the descriptors that read them (R198,
R199). -/
structure Engine where
  kind : EngineKind
  slot : Nat
  rows : List Nat
  works : List Work
  layer : Nat
  layers : Nat
  cores : List Nat
  ended : Bool
  pieces : List (List (SpanUnit × List Desc)) := []
  deriving DecidableEq, Repr

/-- Where a running step stands: in its layers, waiting for its last figure to commit or abort (R219), in a level of the
draft model on some cores (R259), or sending its outputs on (R238). -/
inductive StepPhase
  | layers
  | figures
  | draft (level : Nat) (cores : List Nat)
  | sending
  deriving DecidableEq, Repr

/-- What the last layer leaves for the end of the step: the engine that ended last, when the step had both and one ended
last (R229), and LAST_STEP. -/
structure StepTail where
  last : Option EngineKind
  stat : Word
  deriving DecidableEq, Repr

/-- A running step (R219): its engines, whether it waits for RING_SPLIT activations (R238) or for
pacing (R436), the AFFINITY that it was formed under (R241), whether SPEC was ON then (R269), where it stands, the
connection that its outputs go to, and what its layers left. -/
structure Step where
  engines : List Engine
  waitPeer : Bool
  paced : Bool
  affinity : Bool := false
  spec : Bool := false
  phase : StepPhase := .layers
  sendTo : Option Nat := none
  tail : Option StepTail := none
  deriving DecidableEq, Repr

/-- Scheduler state of one partition: CHUNK_ROWS in force, whether RATIO_CFG.INIT applies at the next boundary, the
value that R229 sets for it, c and d and the steps of the window, the running step, and a batch hold (R224). -/
structure SchedPart where
  chunkRows : Nat
  initDue : Bool
  chunkNext : Option Nat
  cLast : Nat
  dLast : Nat
  window : Nat
  step : Option Step
  holding : Bool
  deriving DecidableEq, Repr

/-- SCHED: partitions, client counts (key partition * 65,536 + client; started, completed, aborted), and
whether forming is stopped by a chip fault (R236) or held for an overlay (R219). -/
structure SchedUnit where
  parts : Tbl SchedPart
  clients : Tbl (Nat × Nat × Nat)
  stopped : Bool
  clientMove : Bool
  deriving DecidableEq, Repr

/-- Checks of R535 in progress, the bytes of each table as its check found them (R536: layer tables,
vocabularies, grammars), and the listed bytes of the rotary tables that a layer table points to. -/
structure ChecksUnit where
  model : Option Nat
  vocab : Option Nat
  gram : Option Nat
  index : List Nat
  layerImg : Tbl (List Byte)
  tableImg : Tbl (List Host.Cell) := []
  vocabImg : Tbl (List Byte)
  gramImg : Tbl (List Byte)
  deriving DecidableEq, Repr

/-! ### Transport (R311-R342) -/

/-- State of a connection (R317). -/
inductive ConnState
  | closed | connecting | open | closing | failed
  deriving DecidableEq, Repr

/-- What an initiated remote operation is for (R301, R401, R413, R417, R419). -/
inductive InitUse
  | cutImage (cutId : Word)
  | mark
  | shardBody
  | shardHeader
  | shardQuery (id shard : Nat)
  | plain
  deriving DecidableEq, Repr

/-- A data packet sent and not yet closed by an ACK or NAK (R318, R320). -/
structure TxPkt where
  pkt : Pkt
  use : InitUse
  expiries : Nat
  timer : Nat
  deriving DecidableEq, Repr

/-- A connection (R314-R325). `nakd` holds the first NAK status of each operation that is not complete (R330),
`owed` that an accepted packet is not yet acknowledged (R319), `slowed` that its rate has been decreased (R324),
`segs` the accepted MSG packets not yet assembled and `part` those of the message being assembled (R335). `rxCum` is CUM, `rxGot` the accepted numbers above it, `rxPend` the
accepted numbers that may not yet be acknowledged (neither placed nor delivered, R319), `ready` the complete
messages in sequence order, `reqNonce` what the CONNECT that opened it answered (status, own INIT_SEQ). -/
structure ConnSt where
  state : ConnState
  local_ : Bool
  remConn : Nat
  myNonce : Word
  remNonce : Word
  remAddr : BitVec 128
  peer : Bool
  txNext : Word
  txOpen : List TxPkt
  txWait : List (Pkt × InitUse)
  msgNext : Word
  rxCum : Word
  rxGot : List Word
  rxPend : List Word
  rxTop : Word
  ackDue : Nat
  owed : Bool
  ceSince : Nat
  segs : List Pkt
  part : List Pkt
  ready : List (List Pkt)
  badMsg : Option Word
  ops : List Word
  mgmt : Bool
  spray : Bool
  rate : Nat
  slowed : Bool
  retx : Nat
  nakd : List (InitUse × Nat)
  closeRx : Bool
  reqNonce : Option (Nat × Word)
  waiting : Bool
  deriving DecidableEq, Repr

/-- A registration (R326). -/
structure Region where
  state : RegionState
  gen : Nat
  part : Nat
  base : Nat
  len : Nat
  write : Bool
  read : Bool
  conn : Nat
  notify : Nat
  inflight : Nat
  landing : Bool
  zeroing : Bool
  violated : Bool
  replyConn : Nat
  replyTag : DWord
  deriving DecidableEq, Repr

/-- An accepted remote access not yet placed or fully read (R331, R332). -/
structure RemAcc where
  conn : Nat
  seq : Word
  region : Nat
  isRead : Bool
  addr : Nat
  data : List Byte
  req : Pkt
  deriving DecidableEq, Repr

/-- XPT. `heldReqs` are the management frames that wait through a wake, with their connections (R14). -/
structure XptUnit where
  conns : Tbl ConnSt
  regions : Tbl Region
  freshRegion : Nat
  freedRegions : List Nat
  accs : List RemAcc
  heldReqs : List (Nat × List Byte)
  deriving DecidableEq, Repr

/-! ### Ports (R343-R382) -/

/-- State of a peer port (R361). -/
inductive PortState
  | off | training | up | reduced | down
  deriving DecidableEq, Repr

/-- A frame waiting for an output port: channel, class, transit or local, bytes (R346, R351). -/
structure QFrame where
  vc : Nat
  cls : Nat
  transit : Bool
  bytes : List Byte
  deriving DecidableEq, Repr

/-- A peer port: state, active, lost and dark lanes, neighbour, frames waiting, the frame counts of the two weighted
choices of R351 (by channel), and the frames sent. Credit that a neighbour returns is no row of the table: which
class holds it is a free value (log entry 51). -/
structure PeerPort where
  state : PortState
  active : BitVec 16
  lost : BitVec 16
  dark : BitVec 16
  node : Option Nat
  known : Bool
  queue : List QFrame
  bulkTurn : Nat
  ckptTurn : Nat
  transitTurn : Tbl Nat
  localTurn : Tbl Nat
  tx : List (List Byte)
  deriving DecidableEq, Repr

/-- PEER: ports, the two routing banks and the active one (R349), a calibration sweep (port and lane),
frames held for this node while the chip sleeps (R359). -/
structure PeerUnit where
  ports : Tbl PeerPort
  bank0 : Tbl Word
  bank1 : Tbl Word
  active : Bool
  sweep : Option (Nat × Nat)
  held : List (List Byte)
  bothLasersOut : Bool
  deriving DecidableEq, Repr

/-- State of the host port (R370). -/
inductive HostState
  | off | training | up | down
  deriving DecidableEq, Repr

/-- HOST: port state, aligned lanes, policer buckets by partition (R369), frames held while the chip
sleeps (R496), calibration flags, and the frames sent. -/
structure HostUnit where
  state : HostState
  lanes : Byte
  buckets : Tbl Nat
  held : List (List Byte)
  needed : Bool
  sweeping : Bool
  tx : List (List Byte)
  deriving DecidableEq, Repr

/-- An egress queue (R371-R376): packets with their connection, tokens, and the shaper values in use. -/
structure EQueue where
  pkts : List (Nat × Pkt)
  tokens : Nat
  shaped : Bool
  rate : Nat
  burst : Nat
  deriving DecidableEq, Repr

/-- EGR: queues, the control lanes of the two outputs (R373; a CONNECT_ACK that opens nothing carries its
remote end in place of a connection), the queue served last at each output and
level (key output * 8 + level), and the connections waiting for space in arrival order (R372). -/
structure EgrUnit where
  queues : Tbl EQueue
  ctl0 : List (Nat × Option Link × Pkt)
  ctl1 : List (Nat × Option Link × Pkt)
  last : Tbl Nat
  waiters : List Nat
  deriving DecidableEq, Repr

/-! ### Search (R383-R406) -/

/-- Where a query stands. -/
inductive QPhase
  | queued | walking | scanning | reranking | merging
  deriving DecidableEq, Repr

/-- A query in progress (R388-R402). Beam members are (distance, item). `fetched` holds the items whose lists were
read; `shards` and `answered` are shard entries asked and answered; `parent` names the merged query and the shard
entry that a LOCAL sub-query serves. -/
structure Query where
  id : Nat
  index : Nat
  conn : Nat
  tag : DWord
  req : SearchReq
  phase : QPhase
  width : Nat
  widenings : Nat
  budget : Bool
  visited : List Nat
  expanded : List Nat
  fetched : List Nat
  beam : List (Nat × Nat)
  cands : List (Nat × Nat)
  scored : Nat
  reads : Nat
  shards : List Nat
  answered : List Nat
  partialQ : Bool
  merged : List SearchHit
  parent : Option (Nat × Nat)
  deriving DecidableEq, Repr

/-- A DELETE waiting for the queries accepted before it (R399). -/
structure DelWait where
  id : Nat
  index : Nat
  conn : Nat
  tag : DWord
  newly : Nat
  queries : List Nat
  deriving DecidableEq, Repr

/-- An INDEX_LOAD in progress (R386): the write of its object, its index, whom it answers, and the tag of the region that it
loads from. -/
structure Load where
  write : Nat
  index : Nat
  conn : Nat
  tag : DWord
  source : Word
  deriving DecidableEq, Repr

/-- An object replaced by repair, freed when the walks that began before have ended (R400). -/
structure OldObj where
  addr : Nat
  walks : List Nat
  deriving DecidableEq, Repr

/-- SRCH. `entries` holds the object-table entries that SRCH wrote, by GDDR7 address (R385); `repairNext` is the
object that repair examines next, by index (R400). -/
structure SrchUnit where
  queries : List Query
  pass : List Nat
  deletes : List DelWait
  loads : List Load
  olds : List OldObj
  entries : Tbl DWord
  repairNext : Tbl Nat
  nextId : Nat
  deriving DecidableEq, Repr

/-! ### Checkpoint (R407-R425) -/

/-- Phase of CKPT (R424). -/
inductive CkptPhase
  | idle | snapshot | stream | restore
  deriving DecidableEq, Repr

/-- CKPT: the leader's round count and the highest round seen, the TYPE of the mark that the leader waits for, the
epoch that a snapshot waits to take, pending regions by number and bounce space by heap address, the shard in
progress, the blocks that a flush before the shard still waits for (R411), this module's own registrations, the steps
since the last PREPARE, and a restore: the generations that it offered (number, bytes) and the epoch chosen. -/
structure CkptUnit where
  phase : CkptPhase
  round : Nat
  topRound : Nat
  outstanding : Option Nat
  snapEpoch : Option Nat
  pending : List Nat
  bounced : List Nat
  shard : List Byte
  shardEpoch : Nat
  shardGen : Nat
  shardFlags : Nat
  flushing : Option (List Nat)
  figHead : Nat
  bodyAcked : Bool
  areaRegion : Option Nat
  markRegion : Option Nat
  stepsSince : Nat
  offered : List (Nat × List Byte)
  chosen : Option Nat
  deriving DecidableEq, Repr

/-! ### Power (R426-R446) -/

/-- PWR: the class table (key class * 16 + point; nJ and ns), consecutive sensor disagreements by site, throttling
and the pacing that it adds in percent, the fast limit, the trip, the running share of each partition in 1/65,536,
the engines that explore (key partition * 2 + engine; the point to return to and the steps left), the marking fill
of each row, the rows whose fill falls to zero after MARK.HOLD, the learned gap power in 0.1 W, and the input energy below
a whole mJ in uJ and the marking energy below it in units of 10^-13 J. The points of the rows are ROW_POINT0 and ROW_POINT1. -/
structure PwrUnit where
  classes : Tbl (Nat × Nat)
  disagree : Tbl Nat
  throttled : Bool
  throttlePace : Nat
  halved : Bool
  tripped : Bool
  paceX : Tbl Nat
  exploring : Tbl (Nat × Nat)
  marking : Tbl Nat
  markDone : List Nat
  gapPower : Nat
  energyUj : Nat
  markRem : Nat
  deriving DecidableEq, Repr

/-! ### Partitions (R447-R471) -/

/-- State of a partition (R450). -/
inductive PartState
  | invalid | valid | purging | scrubbing
  deriving DecidableEq, Repr

/-- SEC of one partition: state, whether a purge runs or ended in SCRUBBING (R451), consent (R461), measurements and
the words collected by EXTEND (R458). -/
structure SecPart where
  state : PartState
  purged : Bool
  debug : Bool
  profile : Bool
  mp0 : List Byte
  mp1 : List Byte
  extend : Tbl Word
  deriving DecidableEq, Repr

/-- An attestation request waiting (R460). -/
structure AttestReq where
  conn : Nat
  tag : DWord
  nonce : List Byte
  deriving DecidableEq, Repr

/-- SEC and TEL: partitions, chip measurements, debug state, attestation queue, tenant snapshots of
the TEL counters (key partition * 64 + word) and the trace. -/
structure SecUnit where
  parts : Tbl SecPart
  mc0 : List Byte
  mc1 : List Byte
  mc2 : List Byte
  chipDebug : Bool
  everDebug : Bool
  partDebug : Option Nat
  attest : List AttestReq
  snaps : Tbl Word
  tracing : Option Nat
  tracePos : Nat
  powerAvg : Nat
  deriving DecidableEq, Repr

/-! ### Faults (R472-R488) -/

/-- A fault that a later report may join (R479): the class and page of its first report, its INFO and ADDR, and the level
given so far. -/
structure LastReport where
  cls : Nat
  page : Nat
  info : Word
  addr : DWord
  level : Nat
  deriving DecidableEq, Repr

/-- FLT: the faults reported, the latest first and one for each INFO and ADDR, reactions still to run, module fault, and the black box: slots, whether the head
is found, the sector being erased, the queue of records, the window, power-ups since manufacture, fault
records since power-up, and the level 0 classes recorded (R481-R487). -/
structure FltUnit where
  reports : List LastReport
  chipPending : Bool
  modulePending : Bool
  faulted : Bool
  slots : Tbl (List Byte)
  headKnown : Bool
  erasing : Option Nat
  queue : List (List Byte)
  window : List Byte
  loading : Bool
  ready : Bool
  crcOk : Bool
  boots : Nat
  faultRecs : Nat
  level0Seen : List Nat
  deriving DecidableEq, Repr

/-! ### Boot, clocks and module (R489-R509, R518-R530) -/

/-- State of CHIP.BOOT (R509). -/
inductive BootState
  | powering | verifying | configuring | ready | configErr | failed
  deriving DecidableEq, Repr

/-- State of the fast domain (R493, R508). -/
inductive FastState
  | run | nap | deep | waking | entering | off
  deriving DecidableEq, Repr

/-- CHIP and CLK: supplies in mV, the open input stage (R523), whether a power loss was acted on, boot NOR as bytes (unlisted erased),
boot configuration, overlays queued, running bank and bundle bytes, the smoothing table of each model slot as the bytes of
the bundle's tables (R182), self-test and update in progress
(an update whose verification waits for SEC's self-test, R470), sleep state, the state that a wake in progress began from (R495), oscillators, and whether the bundle in force is not the
one of the boot before (R483). -/
structure ChipUnit where
  mainMv : Nat
  auxMv : Nat
  inputOpen : Bool
  lossSeen : Bool
  bootState : BootState
  bootDone : Bool
  nor : List Host.Cell
  prefer : Bool
  bootOverlay : Nat
  bank : Bool
  bundleLive : Bool
  smooth : Tbl (List Byte)
  overlays : List Nat
  inForce : Nat
  lastBundle : DWord
  testing : List Page
  updating : Bool
  updateTag : Word
  updateImage : List Byte
  updatePrefer : Bool
  updateWaits : Bool
  resetCause : Nat
  fast : FastState
  wakeFrom : FastState
  xtalOk : Bool
  refOk : Bool
  inReset : Bool
  pllLost : Bool
  bundleChanged : Bool
  deriving DecidableEq, Repr

/-- Instruction register of the TAP (R463, R528). -/
inductive TapInstr
  | idcode | bypass | samplePreload | extest | intest | clamp | highz
  deriving DecidableEq, Repr

/-- The TAP: instruction, boundary register over the 14 signal contacts of R524, last captured data. -/
structure Tap where
  instr : TapInstr
  boundary : BitVec 14
  captured : Word
  deriving DecidableEq, Repr

/-- A CRC unit (R510-R517): held register, and a run in progress: its ranges (flash or GDDR7, address, bytes) and
their bytes as the run began. -/
structure CrcRun where
  held : DWord
  busy : Bool
  ranges : List (Bool × Nat × Nat)
  input : List Byte
  deriving DecidableEq, Repr

/-- Flash part fitted (R1). -/
inductive Variant
  | nvt9404 | nvt9408 | nvt9416
  deriving DecidableEq, Repr

/-- Levels the block drives on its management connector (R524): ALERT_N low, TRIP_N low, AUX_GOOD high. -/
structure Pins where
  alertLow : Bool
  tripLow : Bool
  auxGood : Bool
  deriving DecidableEq, Repr

/-- Everything but the queue of waiting commands. `mem` is GDDR7: (address, byte) pairs, addresses rising,
unlisted addresses read 0. `free`, `now` and `fineNow` are the model's own (log entries 3, 22): the counter of
free values, and the minuet ticks and uncore cycles of the last stamp taken. -/
structure Chip where
  variant : Variant
  mgmt : Mgmt
  smb : Smb
  mem : List Host.Cell
  sess : SessUnit
  fig : FigUnit
  tier : TierUnit
  flash : FlashUnit
  grid : GridUnit
  sched : SchedUnit
  checks : ChecksUnit
  cuts : List CutRec
  cutNext : Word
  xpt : XptUnit
  peer : PeerUnit
  host : HostUnit
  egr : EgrUnit
  srch : SrchUnit
  ckpt : CkptUnit
  pwr : PwrUnit
  sec : SecUnit
  flt : FltUnit
  chip : ChipUnit
  tap : Tap
  crc : Tbl CrcRun
  pins : Pins
  free : Nat
  now : Nat
  fineNow : Nat
  deriving DecidableEq, Repr

/-- The state of the machine: the chip, and the commands that are waiting, first in first out. -/
structure State extends Chip where
  pending : List Instr
  deriving DecidableEq, Repr

/-- Faults of a step. No command of this block ends in one: the specification gives every row an
effect (log entry 2). The constructor is kept for a table word that would name no unit. -/
inductive Fault
  /-- No meaning raises it. Safe. -/
  | none_
  deriving DecidableEq, Repr

/-- Refusals of a step. -/
inductive Refusal
  /-- A row of the table without a meaning, rejected by name in Dispatch. Safe. -/
  | notModelled (mnemonic : String)
  deriving DecidableEq, Repr

/-! ### Reset -/

/-- A requester that holds nothing (R10). -/
def ReqState.empty : ReqState := { shadow := none, hold := none, unlocked := [] }

/-- State.reset's chip: every block OFF, every table empty, every register at its reset value (an empty
`regs` table: RegTable.lean holds the reset values), both supplies just risen and not yet held for
10 ms (R489, R490 before t0; log entry 6). -/
def Chip.reset : Chip :=
  { variant := .nvt9416
    mgmt := { regs := [], copy1 := [], copy2 := [], blocks := [], sideband := ReqState.empty,
              inband := [], acc := { status := 0, data := 0 } }
    smb := { addr := 0, lastStatus := 0, reply := [], strap := 0, nacking := false, pecNack := false }
    mem := []
    sess := { entries := [], bodies := [], ops := [], fresh := [], freed := [], cached := [],
              inited := false, moveFrom := none, copying := false, accepted := 0, lossDone := false }
    fig := { waiting := [], committed := [], seq := 0, applied := 0, logTail := 0, logHead := 0,
             logUsed := 0, written := 0, ring := [], staged := 0, reserved := 0 }
    tier := { ledger := [], heap := [], revivals := [],
              sweeping := false, pressing := [], weights := [] }
    flash := { extents := [], objects := [], writes := [], nextWrite := 0, lostDies := [],
               resetDies := [], heads := [], mapReady := false, scanned := false, userCut := 0, cutDue := 0,
               heldFrees := [], journal := [], journalBroken := false }
    grid := { cores := [], tests := [], rotateNext := 0 }
    sched := { parts := [], clients := [], stopped := false, clientMove := false }
    checks := { model := none, vocab := none, gram := none, index := [], layerImg := [], vocabImg := [], gramImg := [] }
    cuts := []
    cutNext := 0
    xpt := { conns := [], regions := [], freshRegion := 0, freedRegions := [], accs := [], heldReqs := [] }
    peer := { ports := [], bank0 := [], bank1 := [], active := false, sweep := none, held := [],
              bothLasersOut := false }
    host := { state := .off, lanes := 0, buckets := [], held := [], needed := false,
              sweeping := false, tx := [] }
    egr := { queues := [], ctl0 := [], ctl1 := [], last := [], waiters := [] }
    srch := { queries := [], pass := [], deletes := [], loads := [], olds := [], entries := [],
              repairNext := [], nextId := 0 }
    ckpt := { phase := .idle, round := 0, topRound := 0, outstanding := none, snapEpoch := none,
              pending := [], bounced := [], shard := [], shardEpoch := 0, shardGen := 0,
              shardFlags := 0, flushing := none, figHead := 0, bodyAcked := false, areaRegion := none,
              markRegion := none, stepsSince := 0, offered := [], chosen := none }
    pwr := { classes := [], disagree := [], throttled := false, throttlePace := 0,
             halved := false, tripped := false, paceX := [], exploring := [], marking := [],
             markDone := [], gapPower := 0, energyUj := 0, markRem := 0 }
    sec := { parts := [], mc0 := List.replicate 32 0, mc1 := List.replicate 32 0,
             mc2 := List.replicate 32 0, chipDebug := false, everDebug := false, partDebug := none,
             attest := [], snaps := [], tracing := none, tracePos := 0, powerAvg := 0 }
    flt := { reports := [], chipPending := false, modulePending := false, faulted := false,
             slots := [], headKnown := false, erasing := none,
             queue := [], window := List.replicate 256 0, loading := false, ready := false, crcOk := false,
             boots := 0, faultRecs := 0, level0Seen := [] }
    chip := { mainMv := 48000, auxMv := 3300, inputOpen := false, lossSeen := false, bootState := .powering,
              bootDone := false, nor := [],
              prefer := false, bootOverlay := 0, bank := false, bundleLive := false, smooth := [], overlays := [],
              inForce := 0, lastBundle := 0, testing := [], updating := false,
              updateTag := 0, updateImage := [], updatePrefer := false, updateWaits := false, resetCause := 0,
              fast := .off, wakeFrom := .off,
              xtalOk := false, refOk := false, inReset := false, pllLost := false, bundleChanged := false }
    tap := { instr := .idcode, boundary := 0, captured := 0 }
    crc := []
    pins := { alertLow := false, tripLow := false, auxGood := true }
    free := 0
    now := 0
    fineNow := 0 }

/-- The machine right after reset: the chip as `Chip.reset` has it and no command waiting. -/
def State.reset : State := { toChip := Chip.reset, pending := [] }

end Sys2Proof.Machine
end

