-- ==== Sys2Proof/Machine/Ops.lean ====
section
/-! DEFINITION. The named operations over plain data that every family uses: sparse tables, byte order
(R5), check values (R510), SHA-256 (R456), the bytes of GDDR7, and the form of a meaning. -/

namespace Sys2Proof.Machine

/-! ### Sparse tables -/

/-- The value a table lists for a key. -/
def tfind {α : Type} : Tbl α → Nat → Option α
  | [], _ => none
  | (j, v) :: r, k => if j = k then some v else tfind r k

/-- The value of a key; an unlisted key reads `d`. -/
def tget {α : Type} (d : α) (t : Tbl α) (k : Nat) : α := (tfind t k).getD d

/-- Removes a key. -/
def tdel {α : Type} (t : Tbl α) (k : Nat) : Tbl α := t.filter (fun e => e.1 ≠ k)

/-- Lists a key with a value, keeping keys rising. -/
def tins {α : Type} : Tbl α → Nat → α → Tbl α
  | [], k, v => [(k, v)]
  | (j, w) :: r, k, v =>
    if k < j then (k, v) :: (j, w) :: r
    else if k = j then (k, v) :: r
    else (j, w) :: tins r k v

/-- Writes a key of a table whose unlisted keys read `d`: the value `d` removes the entry. -/
def tset {α : Type} [DecidableEq α] (d : α) (t : Tbl α) (k : Nat) (v : α) : Tbl α :=
  if v = d then tdel t k else tins t k v

/-- Applies a function to the value of a listed key. -/
def tmod {α : Type} (t : Tbl α) (k : Nat) (f : α → α) : Tbl α :=
  t.map (fun e => if e.1 = k then (e.1, f e.2) else e)

/-- Keys strictly rising. -/
def keysRise {α : Type} : List (Nat × α) → Bool
  | [] => true
  | [_] => true
  | a :: b :: r => decide (a.1 < b.1) && keysRise (b :: r)

/-! ### Words, bytes and fields -/

/-- Bits hi..lo of a word as a number. -/
def fld (w : Word) (hi lo : Nat) : Nat := (w.toNat >>> lo) % 2 ^ (hi - lo + 1)

/-- One bit of a word. -/
def bit (w : Word) (n : Nat) : Bool := w.getLsbD n

/-- The mask of bits hi..lo. -/
def maskOf (hi lo : Nat) : Word := BitVec.ofNat 32 ((2 ^ (hi - lo + 1) - 1) <<< lo)

/-- A word with bits hi..lo replaced by a number. -/
def putFld (w : Word) (hi lo v : Nat) : Word :=
  (w &&& ~~~(maskOf hi lo)) ||| (BitVec.ofNat 32 (v <<< lo) &&& maskOf hi lo)

/-- A word with one bit replaced. -/
def putBit (w : Word) (n : Nat) (b : Bool) : Word := putFld w n n (if b then 1 else 0)

/-- Bitwise majority of three words (R28). -/
def majority (a b c : Word) : Word := (a &&& b) ||| (a &&& c) ||| (b &&& c)

/-- Little-endian bytes of a number (R5). -/
def leBytes : Nat → Nat → List Byte
  | 0, _ => []
  | n + 1, v => BitVec.ofNat 8 v :: leBytes n (v / 256)

/-- The number that little-endian bytes spell (R5). -/
def leNat : List Byte → Nat
  | [] => 0
  | b :: r => b.toNat + 256 * leNat r

/-- The number in `n` bytes at offset `o`; bytes past the end count as zero. -/
def rdLE (l : List Byte) (o n : Nat) : Nat := leNat ((l.drop o).take n)

/-- The bytes from `o`, `n` of them. -/
def slice (l : List Byte) (o n : Nat) : List Byte := (l.drop o).take n

/-- A list of bytes cut or filled with zeros to `n` bytes. -/
def padTo (n : Nat) (l : List Byte) : List Byte := l.take n ++ List.replicate (n - l.length) 0

/-- Whether a bit of a number is set. -/
def nbit (v n : Nat) : Bool := (v >>> n) % 2 = 1

/-- 1 for true. -/
def b2n (b : Bool) : Nat := if b then 1 else 0

/-- The low 32 bits. -/
def w32 (v : Nat) : Word := BitVec.ofNat 32 v
/-- The low 64 bits. -/
def w64 (v : Nat) : DWord := BitVec.ofNat 64 v

/-- Round up to a multiple of `m`. -/
def roundUp (n m : Nat) : Nat := if m = 0 then n else (n + m - 1) / m * m

/-- A list without its first element that satisfies `p`. -/
def dropFirst {α : Type} (p : α → Bool) : List α → List α
  | [] => []
  | a :: r => if p a then r else a :: dropFirst p r

/-- Replaces the element at an index. -/
def setAt {α : Type} : List α → Nat → α → List α
  | [], _, _ => []
  | _ :: r, 0, b => b :: r
  | a :: r, n + 1, b => a :: setAt r n b

/-- Cuts a list into pieces of `n` elements, with fuel. -/
def chunksOf {α : Type} : Nat → Nat → List α → List (List α)
  | 0, _, _ => []
  | f + 1, n, l => if l.isEmpty || n = 0 then [] else l.take n :: chunksOf f n (l.drop n)

/-- Inserts into a list in rising order of a key, before equal keys. -/
def insertBy {α : Type} (k : α → Nat) (a : α) : List α → List α
  | [] => [a]
  | b :: r => if k a ≤ k b then a :: b :: r else b :: insertBy k a r

/-- A list sorted by a key, equal keys in their present order. -/
def sortBy {α : Type} (k : α → Nat) (l : List α) : List α := l.foldr (insertBy k) []

/-- Numbers every element from 0. -/
def numbered {α : Type} (l : List α) : List (Nat × α) := (List.range l.length).zip l

/-- The 32-bit little-endian words of a byte list. -/
def wordsOf (l : List Byte) : List Nat := (chunksOf l.length 4 l).map leNat

/-! ### Check values (R510) -/

/-- Bit reversal of the low `n` bits. -/
def revBits : Nat → Nat → Nat
  | 0, _ => 0
  | n + 1, v => (v % 2) * 2 ^ n + revBits n (v / 2)

/-- One bit of the shift register of R510: width, polynomial. -/
def crcBit (w poly : Nat) (acc : Nat) (inBit : Bool) : Nat :=
  let top := nbit acc (w - 1)
  let sh := (acc * 2) % 2 ^ w
  if top != inBit then sh ^^^ poly else sh

/-- One byte, most significant bit first. -/
def crcByte (w poly : Nat) (acc : Nat) (b : Nat) : Nat :=
  [7, 6, 5, 4, 3, 2, 1, 0].foldl (fun a i => crcBit w poly a (nbit b i)) acc

/-- The register after the bytes, without the final steps of R510. -/
def crcRaw (w poly : Nat) (refin : Bool) (init : Nat) (l : List Byte) : Nat :=
  l.foldl (fun a b => crcByte w poly a (if refin then revBits 8 b.toNat else b.toNat)) init

/-- The check value of a byte string (R510). -/
def crcGen (w poly init : Nat) (refin refout : Bool) (xorout : Nat) (l : List Byte) : Nat :=
  let r := crcRaw w poly refin init l
  (if refout then revBits w r else r) ^^^ xorout

/-- CRC-32C as R510 gives it. -/
def crc32c (l : List Byte) : Nat := crcGen 32 0x1EDC6F41 0xFFFFFFFF true true 0xFFFFFFFF l

/-- CRC-64 as R510 gives it. -/
def crc64 (l : List Byte) : Nat := crcGen 64 0x42F0E1EBA9EA3693 0 false false 0 l

/-! ### SHA-256 (FIPS 180-4, which R456 and R458 name; PRESUMED, log entry 5)

The standard's constants are the first fraction bits of roots of primes, and its eight working variables are the last four
values of two sequences; both are written here that way. -/

/-- The whole part of the `k`-th root of a number below 2^(36 k), bit by bit from the highest. -/
def rootOf (k n : Nat) : Nat :=
  (List.range 36).foldr (fun i r => if (r + 2 ^ i) ^ k ≤ n then r + 2 ^ i else r) 0

/-- The first 32 fraction bits of the `k`-th root of a number. -/
def rootFrac (k p : Nat) : Nat := rootOf k (p * 2 ^ (32 * k)) % 2 ^ 32

/-- The primes below 312: there are 64 of them. -/
def shaPrimes : List Nat :=
  (List.range 312).filter (fun n => decide (2 ≤ n) && [2, 3, 5, 7, 11, 13, 17].all (fun d => n = d || n % d ≠ 0))

/-- Exclusive-or of a 32-bit word turned right by each of the given counts. -/
def turned (x : Nat) (counts : List Nat) : Nat :=
  counts.foldl (fun acc n => acc ^^^ ((x * 2 ^ 32 + x) / 2 ^ n % 2 ^ 32)) 0

/-- The next word of the message schedule, from the words before it with the newest first. -/
def shaNext (w : List Nat) : Nat :=
  let back := fun (n : Nat) => w.getD (n - 1) 0
  (back 16 + back 7 + (turned (back 15) [7, 18] ^^^ back 15 / 2 ^ 3) + (turned (back 2) [17, 19] ^^^ back 2 / 2 ^ 10)) %
    2 ^ 32

/-- The two sequences of a block, newest value first: each step adds one value to both. -/
structure ShaSeq where
  left : List Nat
  right : List Nat
  deriving DecidableEq, Repr

/-- One step of the two sequences with its constant and schedule word. -/
def shaStep (q : ShaSeq) (k w : Nat) : ShaSeq :=
  let l := fun (n : Nat) => q.left.getD n 0
  let r := fun (n : Nat) => q.right.getD n 0
  let pick := (r 0 &&& r 1) + ((2 ^ 32 - 1 - r 0) &&& r 2)
  let most := (l 0 &&& l 1) ||| (l 2 &&& (l 0 ||| l 1))
  let t := r 3 + turned (r 0) [6, 11, 25] + pick + k + w
  { left := (t + turned (l 0) [2, 13, 22] + most) % 2 ^ 32 :: q.left.take 3
    right := (l 3 + t) % 2 ^ 32 :: q.right.take 3 }

/-- The steps of a block: the schedule grows by one word after each of them. -/
def shaSteps : List Nat → List Nat → ShaSeq → ShaSeq
  | [], _, q => q
  | p :: rest, w, q => shaSteps rest (shaNext w :: w) (shaStep q (rootFrac 3 p) (w.getD 15 0))

/-- Big-endian number of bytes. -/
def beNat (l : List Byte) : Nat := l.foldl (fun a b => a * 256 + b.toNat) 0

/-- Big-endian bytes of a number. -/
def beBytes (n v : Nat) : List Byte := (leBytes n v).reverse

/-- A block of 64 bytes added to the value before it, element by element. -/
def shaBlock (q : ShaSeq) (blk : List Byte) : ShaSeq :=
  let x := shaSteps shaPrimes ((chunksOf 16 4 blk).map beNat).reverse q
  let plus := List.zipWith (fun a b => (a + b) % 2 ^ 32)
  { left := plus q.left x.left, right := plus q.right x.right }

/-- The value before the first block. -/
def shaStart : ShaSeq :=
  { left := (shaPrimes.take 4).map (rootFrac 2), right := ((shaPrimes.drop 4).take 4).map (rootFrac 2) }

/-- SHA-256 of a byte string: a one bit and zeros fill it up to eight bytes before the end of a block, which take the
length in bits. -/
def sha256 (l : List Byte) : List Byte :=
  let filled := roundUp (l.length + 9) 64
  let text := padTo (filled - 8) (l ++ [0x80]) ++ beBytes 8 (8 * l.length)
  let q := (chunksOf (filled / 64) 64 text).foldl shaBlock shaStart
  (q.left ++ q.right).flatMap (beBytes 4)

/-! ### Memory: GDDR7 as (address, byte) pairs -/

/-- What an address that is not listed reads as (log entry 7). -/
def memDefault : Byte := 0

/-- The size of GDDR7 in bytes (R89). -/
def gddrSize : Nat := 2 ^ 38

/-- The byte at an address. -/
def memGet (m : List Host.Cell) (a : Nat) : Byte := tget memDefault m a

/-- Writes one byte, keeping the canonical form. -/
def memPut (m : List Host.Cell) (a : Nat) (b : Byte) : List Host.Cell := tset memDefault m a b

/-- The canonical form: addresses strictly rising, no entry equal to the unlisted value. -/
def Memory.wf (m : List Host.Cell) : Bool := keysRise m && m.all (fun e => e.2 ≠ memDefault)

/-- The bytes from an address. -/
def memRead (m : List Host.Cell) (a n : Nat) : List Byte :=
  (List.range n).map (fun i => memGet m (a + i))

/-- Writes bytes from an address. -/
def memWrite (m : List Host.Cell) (a : Nat) (l : List Byte) : List Host.Cell :=
  (numbered l).foldl (fun m e => memPut m (a + e.1) e.2) m

/-- Writes zeros over a range. -/
def memZero (m : List Host.Cell) (a n : Nat) : List Host.Cell :=
  m.filter (fun e => e.1 < a || a + n ≤ e.1)

/-- Ranges [a, a+n) and [b, b+k) share an address. A range of size 0 overlaps nothing (R538). -/
def overlaps (a n b k : Nat) : Bool := 0 < n && 0 < k && a < b + k && b < a + n

/-! ### Free values and counters -/

/-- The next free value and the chip with its counter advanced (log entry 3). -/
def takeFree (c : Chip) : Nat × Chip :=
  ((Config.free c.free).toNat, { c with free := c.free + 1 })

/-- A stamp in minuet ticks (R40, R484): no less than the one before it, else free (log entry 22). -/
def takeTick (c : Chip) : Nat × Chip :=
  let (v, c1) := takeFree c
  (c.now + v, { c1 with now := c.now + v })

/-- A fine stamp in uncore cycles (R6, R63): no less than the one before it, else free (log entry 22). -/
def takeFine (c : Chip) : Nat × Chip :=
  let (v, c1) := takeFree c
  (c.fineNow + v, { c1 with fineNow := c.fineNow + v })

/-- A 32-bit count that saturates (R20). -/
def sat32 (n : Nat) : Nat := min n 0xFFFFFFFF

/-! ### Pages -/

/-- Index of a page (R16). -/
def pageIdx : Page → Nat
  | .chip => 0x00
  | .clk => 0x01
  | .pwr => 0x02
  | .sec => 0x03
  | .flt => 0x04
  | .sess => 0x05
  | .fig => 0x06
  | .tier => 0x07
  | .gdr => 0x08
  | .flash => 0x09
  | .grid => 0x0A
  | .sched => 0x0B
  | .attn => 0x0C
  | .samp => 0x0D
  | .spec => 0x0E
  | .text => 0x0F
  | .cut => 0x10
  | .xpt => 0x11
  | .peer => 0x12
  | .host => 0x13
  | .egr => 0x14
  | .srch => 0x15
  | .ckpt => 0x16
  | .crc => 0x17
  | .tel => 0x18

/-- Every page, in index order (R16). -/
def allPages : List Page :=
  [.chip, .clk, .pwr, .sec, .flt, .sess, .fig, .tier, .gdr, .flash, .grid, .sched, .attn, .samp,
   .spec, .text, .cut, .xpt, .peer, .host, .egr, .srch, .ckpt, .crc, .tel]

/-- The page of an index. -/
def pageOf (n : Nat) : Page := allPages.getD n .chip

/-- Pages 0x00-0x04 are not drainable (R16). -/
def drainable (p : Page) : Bool := 5 ≤ pageIdx p

/-- Pages of the minuet domain (R16). -/
def minuetPage (p : Page) : Bool :=
  match p with
  | .chip => true
  | .clk => true
  | .pwr => true
  | .flt => true
  | _ => false

/-- The address of the register at an offset of a page (R16). -/
def pageAddr (p : Page) (off : Nat) : Nat := pageIdx p * 0x4000 + off

/-! ### Status codes (R7) -/

/-- Status codes of R7. -/
abbrev stOK : Nat := 0x00
abbrev stEos : Nat := 0x01
abbrev stString : Nat := 0x02
abbrev stLimit : Nat := 0x03
abbrev stDeadEnd : Nat := 0x04
abbrev stTierLate : Nat := 0x10
abbrev stTierFault : Nat := 0x11
abbrev stDamaged : Nat := 0x12
abbrev rejBusy : Nat := 0x20
abbrev rejState : Nat := 0x21
abbrev rejPart : Nat := 0x22
abbrev rejLimit : Nat := 0x23
abbrev stViolation : Nat := 0x30
abbrev stRevoked : Nat := 0x31
abbrev stStale : Nat := 0x32
abbrev stConnLost : Nat := 0x33
abbrev stReclaimed : Nat := 0x40
abbrev stCutAborted : Nat := 0x41
abbrev stAbortFault : Nat := 0x50
abbrev stAbortDrain : Nat := 0x51
abbrev stFewer : Nat := 0x60
abbrev stMixed : Nat := 0x61
abbrev stPartial : Nat := 0x62

end Sys2Proof.Machine
end

