-- ==== Sys2Proof/Machine/RegTable.lean ====
section
/-! DEFINITION. The register tables of the specification: for each page the registers from offset 0x040
with their fields, access codes (R20), reset values and banks, as the register sections of the chapters
give them (R65, R87, R115, R118, R138, R169, R217, R241, R266, R268, R293, R309, R340, R363, R379, R381,
R405, R424, R446, R470, R471, R488, R508, R509, R517). The common header (R17) is in Operands.lean. -/

namespace Sys2Proof.Machine

/-- Access code of a field (R20). -/
inductive Acc
  | rw | ro | wo | w1c | rwg | rwt | rwgt
  deriving DecidableEq, Repr

/-- The selector that banks a register; `none_` for a register that is not banked. -/
inductive Bank
  | none_ | part | model | slot | vocab | gram | cutSlot | conn | reg | port | hostPart | queue | index
  | shard | rail | cls | secPart | fltClass | unit | telPart
  deriving DecidableEq, Repr

/-- A field: bits hi..lo, access code, reset value. -/
structure RegField where
  hi : Nat
  lo : Nat
  acc : Acc
  reset : Nat
  deriving DecidableEq, Repr

/-- `n` registers of one layout from byte offset `off`; `pair` is 1 for the _LO word of a 64-bit pair
(R27), 2 for its _HI word, else 0. -/
structure RegRow where
  off : Nat
  n : Nat
  bank : Bank
  pair : Nat
  fields : List RegField
  deriving DecidableEq, Repr

/-- Registers of CHIP. -/
def regsChip0 : List RegRow :=
  [
    -- BOOT_CFG
    ⟨0x040, 1, .none_, 0, [⟨11, 8, .rwgt, 0⟩, ⟨0, 0, .rwgt, 0⟩]⟩,
    -- BOOT
    ⟨0x044, 1, .none_, 0, [⟨31, 24, .ro, 0⟩, ⟨23, 16, .ro, 0⟩, ⟨3, 3, .ro, 0⟩, ⟨2, 0, .ro, 0⟩]⟩,
    -- OVL_APPLY
    ⟨0x048, 1, .none_, 0, [⟨3, 0, .wo, 0⟩]⟩,
    -- OVL_STAT
    ⟨0x04c, 1, .none_, 0, [⟨31, 31, .ro, 0⟩, ⟨23, 16, .ro, 0⟩, ⟨11, 8, .ro, 0⟩, ⟨3, 0, .ro, 0⟩]⟩,
    -- OVL_PRESENT
    ⟨0x050, 1, .none_, 0, [⟨15, 0, .ro, 0⟩]⟩,
    -- SPLIT
    ⟨0x054, 1, .none_, 0, [⟨31, 31, .rwt, 0⟩, ⟨30, 27, .rwt, 0⟩, ⟨26, 24, .rwt, 0⟩, ⟨15, 8, .rwt, 0⟩, ⟨7, 0, .rwt, 0⟩]⟩,
    -- SPLIT_CONN
    ⟨0x058, 1, .none_, 0, [⟨29, 16, .rwt, 0⟩, ⟨13, 0, .rwt, 0⟩]⟩,
    -- SELFTEST
    ⟨0x05c, 1, .none_, 0, [⟨23, 16, .ro, 0⟩, ⟨9, 9, .ro, 0⟩, ⟨8, 8, .ro, 0⟩, ⟨2, 2, .rwg, 0⟩, ⟨1, 1, .rwg, 0⟩, ⟨0, 0, .rwg, 0⟩]⟩,
    -- UPDATE_TAG
    ⟨0x060, 1, .none_, 0, [⟨31, 0, .rw, 0⟩]⟩,
    -- UPDATE
    ⟨0x064, 1, .none_, 0, [⟨31, 24, .ro, 0⟩, ⟨23, 16, .ro, 0⟩, ⟨8, 8, .ro, 0⟩, ⟨1, 1, .rwg, 0⟩, ⟨0, 0, .rwg, 0⟩]⟩,
    -- NOR_ADDR
    ⟨0x068, 1, .none_, 0, [⟨31, 0, .rwg, 0⟩]⟩,
    -- NOR_DATA
    ⟨0x06c, 1, .none_, 0, [⟨31, 0, .wo, 0⟩]⟩,
    -- RESET_CAUSE
    ⟨0x070, 1, .none_, 0, [⟨1, 0, .ro, 0⟩]⟩,
    -- BASE_ERR
    ⟨0x074, 1, .none_, 0, [⟨13, 0, .ro, 0⟩]⟩ ]

/-- Every register of CHIP from offset 0x040. -/
def regsChip : List RegRow := regsChip0

/-- Registers of CLK. -/
def regsClk0 : List RegRow :=
  [
    -- STATE
    ⟨0x040, 1, .none_, 0, [⟨9, 9, .ro, 0⟩, ⟨8, 8, .ro, 0⟩, ⟨2, 0, .ro, 0⟩]⟩,
    -- SLEEP_CFG
    ⟨0x044, 1, .none_, 0, [⟨31, 16, .rwt, 0x64⟩, ⟨1, 0, .rwt, 2⟩]⟩,
    -- DEEP_AFTER
    ⟨0x048, 1, .none_, 0, [⟨31, 0, .rwt, 0x148⟩]⟩,
    -- HOUSEKEEP
    ⟨0x04c, 1, .none_, 0, [⟨31, 0, .rwt, 0x64⟩]⟩,
    -- CTRL
    ⟨0x050, 1, .none_, 0, [⟨1, 1, .rwt, 0⟩, ⟨0, 0, .wo, 0⟩]⟩,
    -- SSC
    ⟨0x054, 1, .none_, 0, [⟨15, 8, .rwt, 0x1f⟩, ⟨1, 1, .rwt, 1⟩, ⟨0, 0, .rwt, 1⟩]⟩,
    -- MINUET_LO
    ⟨0x058, 1, .none_, 1, [⟨31, 0, .ro, 0⟩]⟩,
    -- MINUET_HI
    ⟨0x05c, 1, .none_, 2, [⟨31, 0, .ro, 0⟩]⟩,
    -- WAKE_CNT
    ⟨0x060, 1, .none_, 0, [⟨31, 0, .ro, 0⟩]⟩,
    -- DEEP_CNT
    ⟨0x064, 1, .none_, 0, [⟨31, 0, .ro, 0⟩]⟩,
    -- LAST_WAKE
    ⟨0x068, 1, .none_, 0, [⟨31, 16, .ro, 0⟩, ⟨7, 0, .ro, 0⟩]⟩ ]

/-- Every register of CLK from offset 0x040. -/
def regsClk : List RegRow := regsClk0

/-- Registers of PWR. -/
def regsPwr0 : List RegRow :=
  [
    -- CAP
    ⟨0x040, 1, .none_, 0, [⟨21, 16, .rwgt, 4⟩, ⟨9, 0, .rwgt, 0x30c⟩]⟩,
    -- FAST
    ⟨0x044, 1, .none_, 0, [⟨25, 16, .rwgt, 0x1f4⟩, ⟨10, 0, .rwgt, 0x3e8⟩]⟩,
    -- CTRL
    ⟨0x048, 1, .none_, 0, [⟨15, 12, .rwt, 0xf⟩, ⟨8, 8, .rwt, 1⟩, ⟨1, 1, .rwt, 1⟩, ⟨0, 0, .rwt, 1⟩]⟩,
    -- DECIDE
    ⟨0x04c, 1, .none_, 0, [⟨31, 16, .rwt, 0x3e8⟩, ⟨7, 0, .rwt, 0xa⟩]⟩,
    -- EXPLORE
    ⟨0x050, 1, .none_, 0, [⟨31, 0, .rwt, 0x1000⟩]⟩,
    -- PWR_NOW
    ⟨0x054, 1, .none_, 0, [⟨15, 0, .ro, 0⟩]⟩,
    -- PWR_AVG
    ⟨0x058, 1, .none_, 0, [⟨15, 0, .ro, 0⟩]⟩,
    -- ENERGY_LO
    ⟨0x05c, 1, .none_, 1, [⟨31, 0, .ro, 0⟩]⟩,
    -- ENERGY_HI
    ⟨0x060, 1, .none_, 2, [⟨31, 0, .ro, 0⟩]⟩,
    -- RAIL_SEL
    ⟨0x064, 1, .none_, 0, [⟨2, 0, .rw, 0⟩]⟩,
    -- RAIL_PWR
    ⟨0x068, 1, .rail, 0, [⟨31, 16, .ro, 0⟩, ⟨15, 0, .ro, 0⟩]⟩,
    -- ROW_POINT0
    ⟨0x06c, 1, .none_, 0, [⟨31, 0, .ro, 0⟩]⟩,
    -- ROW_POINT1
    ⟨0x070, 1, .none_, 0, [⟨31, 0, .ro, 0⟩]⟩,
    -- PACE
    ⟨0x074, 1, .none_, 0, [⟨23, 16, .ro, 0x64⟩]⟩,
    -- CLASS_SEL
    ⟨0x078, 1, .none_, 0, [⟨11, 8, .rw, 0⟩, ⟨2, 0, .rw, 0⟩]⟩,
    -- CLASS_DATA
    ⟨0x07c, 1, .cls, 0, [⟨31, 16, .ro, 0⟩, ⟨15, 0, .ro, 0⟩]⟩,
    -- VF_POINT
    ⟨0x080, 16, .none_, 0, [⟨31, 16, .ro, 0⟩, ⟨15, 0, .ro, 0⟩]⟩,
    -- LIMIT
    ⟨0x0c0, 1, .none_, 0, [⟨4, 4, .ro, 0⟩, ⟨3, 3, .ro, 0⟩, ⟨2, 2, .ro, 0⟩, ⟨1, 1, .ro, 0⟩, ⟨0, 0, .ro, 0⟩]⟩,
    -- MARK
    ⟨0x0c4, 1, .none_, 0, [⟨31, 16, .rwt, 0x32⟩, ⟨14, 8, .rwt, 0x64⟩, ⟨6, 0, .rwt, 0x3c⟩]⟩,
    -- MARK_HOLD
    ⟨0x0c8, 1, .none_, 0, [⟨31, 0, .rwt, 0x7d0⟩]⟩,
    -- MARK_ENERGY
    ⟨0x0cc, 1, .none_, 0, [⟨31, 0, .ro, 0⟩]⟩,
    -- MARK_SHORT
    ⟨0x0d0, 1, .none_, 0, [⟨31, 0, .ro, 0⟩]⟩,
    -- TJ
    ⟨0x0d4, 1, .none_, 0, [⟨20, 16, .ro, 0⟩, ⟨11, 0, .ro, 0⟩]⟩,
    -- THERM
    ⟨0x0d8, 1, .none_, 0, [⟨15, 8, .rwt, 2⟩, ⟨7, 0, .rwgt, 0x69⟩]⟩ ]

/-- Registers of PWR (continued). -/
def regsPwr1 : List RegRow :=
  [
    -- SENSOR_FAULT
    ⟨0x0dc, 1, .none_, 0, [⟨31, 0, .ro, 0⟩]⟩,
    -- TRIP
    ⟨0x0e0, 1, .none_, 0, [⟨31, 16, .ro, 0⟩, ⟨15, 8, .rwgt, 0x5f⟩, ⟨1, 1, .wo, 0⟩, ⟨0, 0, .ro, 0⟩]⟩,
    -- THROTTLE_CNT
    ⟨0x0e4, 1, .none_, 0, [⟨31, 0, .ro, 0⟩]⟩,
    -- FAST_CNT
    ⟨0x0e8, 1, .none_, 0, [⟨31, 0, .ro, 0⟩]⟩ ]

/-- Every register of PWR from offset 0x040. -/
def regsPwr : List RegRow := regsPwr0 ++ regsPwr1

/-- Registers of SEC. -/
def regsSec0 : List RegRow :=
  [
    -- PART_SEL
    ⟨0x040, 1, .none_, 0, [⟨2, 0, .rw, 0⟩]⟩,
    -- PART_CTRL
    ⟨0x044, 1, .secPart, 0, [⟨23, 16, .ro, 0⟩, ⟨3, 2, .ro, 0⟩, ⟨1, 1, .wo, 0⟩, ⟨0, 0, .rwg, 0⟩]⟩,
    -- PART_RES
    ⟨0x048, 1, .secPart, 0, [⟨23, 16, .rwg, 0⟩, ⟨15, 8, .rwg, 0⟩, ⟨7, 0, .rwg, 0⟩]⟩,
    -- PART_SLOTS
    ⟨0x04c, 1, .secPart, 0, [⟨15, 0, .rwg, 0⟩]⟩,
    -- PART_CONN
    ⟨0x050, 1, .secPart, 0, [⟨30, 16, .rwg, 0⟩, ⟨13, 0, .rwg, 0⟩]⟩,
    -- PART_DIR
    ⟨0x054, 1, .secPart, 0, [⟨26, 16, .rwg, 0⟩, ⟨9, 0, .rwg, 0⟩]⟩,
    -- PART_CONSENT
    ⟨0x058, 1, .secPart, 0, [⟨1, 1, .rw, 0⟩, ⟨0, 0, .rw, 0⟩]⟩,
    -- MP0_
    ⟨0x05c, 8, .secPart, 0, [⟨31, 0, .ro, 0⟩]⟩,
    -- MP1_
    ⟨0x07c, 8, .secPart, 0, [⟨31, 0, .ro, 0⟩]⟩,
    -- EXTEND
    ⟨0x09c, 8, .secPart, 0, [⟨31, 0, .wo, 0⟩]⟩,
    -- MC0_
    ⟨0x0bc, 8, .none_, 0, [⟨31, 0, .ro, 0⟩]⟩,
    -- MC1_
    ⟨0x0dc, 8, .none_, 0, [⟨31, 0, .ro, 0⟩]⟩,
    -- MC2_
    ⟨0x0fc, 8, .none_, 0, [⟨31, 0, .ro, 0⟩]⟩,
    -- BOOT_STAT
    ⟨0x11c, 1, .none_, 0, [⟨31, 24, .ro, 0⟩, ⟨23, 16, .ro, 0⟩, ⟨9, 8, .ro, 0⟩, ⟨0, 0, .ro, 0⟩]⟩,
    -- ROLLBACK
    ⟨0x120, 1, .none_, 0, [⟨5, 0, .rwg, 0⟩]⟩,
    -- KEY_REVOKE
    ⟨0x124, 1, .none_, 0, [⟨3, 0, .rwg, 0⟩]⟩,
    -- DEVICE_ID_LO
    ⟨0x128, 1, .none_, 1, [⟨31, 0, .ro, 0⟩]⟩,
    -- DEVICE_ID_HI
    ⟨0x12c, 1, .none_, 2, [⟨31, 0, .ro, 0⟩]⟩,
    -- CHIP_DEBUG
    ⟨0x130, 1, .none_, 0, [⟨31, 24, .ro, 0⟩, ⟨9, 9, .ro, 0⟩, ⟨8, 8, .ro, 0⟩, ⟨1, 1, .wo, 0⟩, ⟨0, 0, .wo, 0⟩]⟩,
    -- DBG_CTRL
    ⟨0x134, 1, .none_, 0, [⟨31, 24, .ro, 0⟩, ⟨16, 16, .ro, 0⟩, ⟨9, 9, .wo, 0⟩, ⟨8, 8, .wo, 0⟩, ⟨2, 0, .rw, 0⟩]⟩,
    -- DBG_ADDR_LO
    ⟨0x138, 1, .none_, 1, [⟨31, 2, .rw, 0⟩]⟩,
    -- DBG_ADDR_HI
    ⟨0x13c, 1, .none_, 2, [⟨31, 31, .rw, 0⟩, ⟨23, 16, .rw, 0⟩, ⟨5, 0, .rw, 0⟩]⟩,
    -- DBG_DATA
    ⟨0x140, 1, .none_, 0, [⟨31, 0, .ro, 0⟩]⟩,
    -- ATTEST_CNT
    ⟨0x14c, 1, .none_, 0, [⟨31, 0, .ro, 0⟩]⟩ ]

/-- Every register of SEC from offset 0x040. -/
def regsSec : List RegRow := regsSec0

/-- Registers of FLT. -/
def regsFlt0 : List RegRow :=
  [
    -- LAST_CLASS
    ⟨0x040, 1, .none_, 0, [⟨31, 31, .w1c, 0⟩, ⟨20, 16, .ro, 0⟩, ⟨9, 8, .ro, 0⟩, ⟨7, 0, .ro, 0⟩]⟩,
    -- LAST_INFO
    ⟨0x044, 1, .none_, 0, [⟨31, 0, .ro, 0⟩]⟩,
    -- LAST_ADDR_LO
    ⟨0x048, 1, .none_, 1, [⟨31, 0, .ro, 0⟩]⟩,
    -- LAST_ADDR_HI
    ⟨0x04c, 1, .none_, 2, [⟨31, 0, .ro, 0⟩]⟩,
    -- LAST_STAMP
    ⟨0x050, 1, .none_, 0, [⟨31, 0, .ro, 0⟩]⟩,
    -- CLASS_SEL
    ⟨0x054, 1, .none_, 0, [⟨7, 0, .rw, 0⟩]⟩,
    -- CLASS_CNT
    ⟨0x058, 1, .fltClass, 0, [⟨31, 0, .ro, 0⟩]⟩,
    -- MODULE
    ⟨0x05c, 1, .none_, 0, [⟨31, 31, .ro, 0⟩, ⟨0, 0, .rwg, 0⟩]⟩,
    -- BB_HEAD
    ⟨0x060, 1, .none_, 0, [⟨14, 0, .ro, 0⟩]⟩,
    -- BB_SEQ
    ⟨0x064, 1, .none_, 0, [⟨31, 0, .ro, 0⟩]⟩,
    -- BB_SUPPRESSED
    ⟨0x068, 1, .none_, 0, [⟨31, 0, .ro, 0⟩]⟩,
    -- BB_INDEX
    ⟨0x06c, 1, .none_, 0, [⟨14, 0, .rw, 0⟩]⟩,
    -- BB_STAT
    ⟨0x070, 1, .none_, 0, [⟨1, 1, .ro, 0⟩, ⟨0, 0, .ro, 0⟩]⟩,
    -- BB_MARK
    ⟨0x074, 1, .none_, 0, [⟨31, 0, .wo, 0⟩]⟩,
    -- STATUS
    ⟨0x078, 1, .none_, 0, [⟨1, 1, .ro, 1⟩, ⟨0, 0, .ro, 0⟩]⟩,
    -- BB_WINDOW
    ⟨0x100, 64, .none_, 0, [⟨31, 0, .ro, 0⟩]⟩ ]

/-- Every register of FLT from offset 0x040. -/
def regsFlt : List RegRow := regsFlt0

/-- Registers of SESS. -/
def regsSess0 : List RegRow :=
  [
    -- DIR_BASE_LO
    ⟨0x040, 1, .none_, 1, [⟨31, 21, .rwgt, 0⟩]⟩,
    -- DIR_BASE_HI
    ⟨0x044, 1, .none_, 2, [⟨5, 0, .rwgt, 0⟩]⟩,
    -- DIR_CTRL
    ⟨0x048, 1, .none_, 0, [⟨0, 0, .rwt, 0⟩]⟩,
    -- DRAIN_TIMEOUT
    ⟨0x04c, 1, .none_, 0, [⟨31, 0, .rwt, 0x2710⟩]⟩,
    -- OPQ_CFG
    ⟨0x050, 1, .none_, 0, [⟨3, 0, .rwt, 4⟩]⟩,
    -- OPQ_FREE
    ⟨0x054, 1, .none_, 0, [⟨16, 0, .ro, 0x10000⟩]⟩,
    -- CNT_SEL
    ⟨0x058, 1, .none_, 0, [⟨3, 0, .rw, 0⟩]⟩,
    -- CNT_VALUE
    ⟨0x05c, 1, .none_, 0, [⟨22, 0, .ro, 0⟩]⟩,
    -- CACHE_MISS_LO
    ⟨0x060, 1, .none_, 1, [⟨31, 0, .ro, 0⟩]⟩,
    -- CACHE_MISS_HI
    ⟨0x064, 1, .none_, 2, [⟨31, 0, .ro, 0⟩]⟩,
    -- VIEW_HANDLE
    ⟨0x068, 1, .none_, 0, [⟨31, 0, .rw, 0⟩]⟩,
    -- VIEW_STAT
    ⟨0x06c, 1, .none_, 0, [⟨15, 8, .ro, 0⟩, ⟨0, 0, .ro, 0⟩]⟩,
    -- VIEW_ENTRY
    ⟨0x080, 32, .none_, 0, [⟨31, 0, .ro, 0⟩]⟩ ]

/-- Every register of SESS from offset 0x040. -/
def regsSess : List RegRow := regsSess0

/-- Registers of FIG. -/
def regsFig0 : List RegRow :=
  [
    -- LOG_BASE_LO
    ⟨0x040, 1, .none_, 1, [⟨31, 20, .rwgt, 0⟩]⟩,
    -- LOG_BASE_HI
    ⟨0x044, 1, .none_, 2, [⟨5, 0, .rwgt, 0⟩]⟩,
    -- STAGE_BASE_LO
    ⟨0x048, 1, .none_, 1, [⟨31, 26, .rwgt, 0⟩]⟩,
    -- STAGE_BASE_HI
    ⟨0x04c, 1, .none_, 2, [⟨5, 0, .rwgt, 0⟩]⟩,
    -- SEQ_LO
    ⟨0x050, 1, .none_, 1, [⟨31, 0, .ro, 0⟩]⟩,
    -- SEQ_HI
    ⟨0x054, 1, .none_, 2, [⟨31, 0, .ro, 0⟩]⟩,
    -- APPLIED_LO
    ⟨0x058, 1, .none_, 1, [⟨31, 0, .ro, 0⟩]⟩,
    -- APPLIED_HI
    ⟨0x05c, 1, .none_, 2, [⟨31, 0, .ro, 0⟩]⟩,
    -- LOG_FREE
    ⟨0x060, 1, .none_, 0, [⟨20, 0, .ro, 0x100000⟩]⟩,
    -- LOG_TAIL
    ⟨0x064, 1, .none_, 0, [⟨14, 0, .ro, 0⟩]⟩,
    -- OPEN
    ⟨0x068, 1, .none_, 0, [⟨12, 0, .ro, 0⟩]⟩,
    -- COMMIT_CNT_LO
    ⟨0x06c, 1, .none_, 1, [⟨31, 0, .ro, 0⟩]⟩,
    -- COMMIT_CNT_HI
    ⟨0x070, 1, .none_, 2, [⟨31, 0, .ro, 0⟩]⟩,
    -- ABORT_CNT
    ⟨0x074, 1, .none_, 0, [⟨31, 0, .ro, 0⟩]⟩,
    -- STALL_CNT
    ⟨0x078, 1, .none_, 0, [⟨31, 0, .ro, 0⟩]⟩,
    -- LAT_MAX
    ⟨0x07c, 1, .none_, 0, [⟨15, 0, .rw, 0⟩]⟩,
    -- DRAIN_TIMEOUT
    ⟨0x080, 1, .none_, 0, [⟨31, 0, .rwt, 0x2710⟩]⟩,
    -- REPLAY
    ⟨0x084, 1, .none_, 0, [⟨16, 16, .ro, 0⟩, ⟨15, 0, .ro, 0⟩]⟩,
    -- REPLAY_TIME
    ⟨0x088, 1, .none_, 0, [⟨15, 0, .ro, 0⟩]⟩,
    -- STAGE_SIZE
    ⟨0x08c, 1, .none_, 0, [⟨8, 0, .rwgt, 0x10⟩]⟩,
    -- STAGE_FREE
    ⟨0x090, 1, .none_, 0, [⟨24, 0, .ro, 0x100000⟩]⟩ ]

/-- Every register of FIG from offset 0x040. -/
def regsFig : List RegRow := regsFig0

/-- Registers of TIER. -/
def regsTier0 : List RegRow :=
  [
    -- LEDGER_BASE_LO
    ⟨0x040, 1, .none_, 1, [⟨31, 21, .rwgt, 0⟩]⟩,
    -- LEDGER_BASE_HI
    ⟨0x044, 1, .none_, 2, [⟨5, 0, .rwgt, 0⟩]⟩,
    -- LEDGER_SIZE
    ⟨0x048, 1, .none_, 0, [⟨4, 0, .rwt, 0x18⟩]⟩,
    -- HEAP
    ⟨0x04c, 1, .none_, 0, [⟨24, 16, .rwgt, 0⟩, ⟨7, 0, .rwgt, 0⟩]⟩,
    -- FLUSH_AGE
    ⟨0x050, 1, .none_, 0, [⟨31, 0, .rwt, 0x960000⟩]⟩,
    -- COLD_AGE
    ⟨0x054, 1, .none_, 0, [⟨31, 0, .rwt, 0x12c0000⟩]⟩,
    -- PRESSURE
    ⟨0x058, 1, .none_, 0, [⟨15, 8, .rwt, 0x10⟩, ⟨7, 0, .rwt, 8⟩]⟩,
    -- CFG
    ⟨0x05c, 1, .none_, 0, [⟨1, 1, .rwt, 0⟩, ⟨0, 0, .rwt, 0⟩]⟩,
    -- DEADLINE_DEFAULT
    ⟨0x060, 1, .none_, 0, [⟨31, 0, .rwt, 0x186a0⟩]⟩,
    -- HEAP_FREE
    ⟨0x064, 1, .none_, 0, [⟨18, 0, .ro, 0⟩]⟩,
    -- LEDGER_FREE
    ⟨0x068, 1, .none_, 0, [⟨28, 0, .ro, 0⟩]⟩,
    -- FLUSH_BYTES_LO
    ⟨0x06c, 1, .none_, 1, [⟨31, 0, .ro, 0⟩]⟩,
    -- FLUSH_BYTES_HI
    ⟨0x070, 1, .none_, 2, [⟨31, 0, .ro, 0⟩]⟩,
    -- REVIVE_BYTES_LO
    ⟨0x074, 1, .none_, 1, [⟨31, 0, .ro, 0⟩]⟩,
    -- REVIVE_BYTES_HI
    ⟨0x078, 1, .none_, 2, [⟨31, 0, .ro, 0⟩]⟩,
    -- LATE_CNT
    ⟨0x07c, 1, .none_, 0, [⟨31, 0, .ro, 0⟩]⟩,
    -- FAULT_CNT
    ⟨0x080, 1, .none_, 0, [⟨31, 0, .ro, 0⟩]⟩,
    -- SWEEP
    ⟨0x084, 1, .none_, 0, [⟨31, 31, .rw, 0⟩, ⟨22, 0, .ro, 0⟩]⟩,
    -- DRAIN_TIMEOUT
    ⟨0x088, 1, .none_, 0, [⟨31, 0, .rwt, 0x2710⟩]⟩,
    -- REVIVE_ACTIVE
    ⟨0x08c, 1, .none_, 0, [⟨6, 0, .ro, 0⟩]⟩ ]

/-- Every register of TIER from offset 0x040. -/
def regsTier : List RegRow := regsTier0

/-- Registers of GDR. -/
def regsGdr0 : List RegRow :=
  [
    -- INTERLEAVE
    ⟨0x040, 1, .none_, 0, [⟨0, 0, .rwgt, 0⟩]⟩,
    -- SCRUB_PERIOD
    ⟨0x044, 1, .none_, 0, [⟨15, 0, .rwt, 0x2710⟩]⟩,
    -- RETRAIN
    ⟨0x048, 1, .none_, 0, [⟨31, 16, .rwt, 0x32⟩, ⟨15, 8, .rwt, 1⟩, ⟨0, 0, .rwt, 1⟩]⟩,
    -- CH_READY
    ⟨0x04c, 1, .none_, 0, [⟨31, 0, .ro, 0⟩]⟩,
    -- CH_FAULT
    ⟨0x050, 1, .none_, 0, [⟨31, 0, .ro, 0⟩]⟩,
    -- CE_CNT
    ⟨0x054, 1, .none_, 0, [⟨31, 0, .ro, 0⟩]⟩,
    -- UE_CNT
    ⟨0x058, 1, .none_, 0, [⟨31, 0, .ro, 0⟩]⟩,
    -- RETRY_CNT
    ⟨0x05c, 1, .none_, 0, [⟨31, 0, .ro, 0⟩]⟩,
    -- SCRUB_PASSES
    ⟨0x060, 1, .none_, 0, [⟨31, 0, .ro, 0⟩]⟩,
    -- UE_ADDR_LO
    ⟨0x064, 1, .none_, 1, [⟨31, 0, .ro, 0⟩]⟩,
    -- UE_ADDR_HI
    ⟨0x068, 1, .none_, 2, [⟨31, 0, .ro, 0⟩]⟩,
    -- DRAIN_TIMEOUT
    ⟨0x06c, 1, .none_, 0, [⟨31, 0, .rwt, 0x2710⟩]⟩ ]

/-- Every register of GDR from offset 0x040. -/
def regsGdr : List RegRow := regsGdr0

/-- Registers of FLASH. -/
def regsFlash0 : List RegRow :=
  [
    -- GEOMETRY
    ⟨0x040, 1, .none_, 0, [⟨31, 24, .ro, 0x10⟩, ⟨23, 16, .ro, 0x40⟩, ⟨15, 8, .ro, 4⟩, ⟨7, 0, .ro, 4⟩]⟩,
    -- USER_EXTENTS
    ⟨0x044, 1, .none_, 0, [⟨16, 0, .ro, 0⟩]⟩,
    -- SPARE_EXTENTS
    ⟨0x048, 1, .none_, 0, [⟨16, 0, .ro, 0⟩]⟩,
    -- FREE_EXTENTS
    ⟨0x04c, 1, .none_, 0, [⟨16, 0, .ro, 0⟩]⟩,
    -- SPARE_MIN
    ⟨0x050, 1, .none_, 0, [⟨15, 0, .rwt, 0x40⟩]⟩,
    -- STATUS
    ⟨0x054, 1, .none_, 0, [⟨4, 4, .ro, 0⟩, ⟨3, 3, .ro, 0⟩, ⟨2, 2, .ro, 0⟩, ⟨1, 1, .ro, 0⟩, ⟨0, 0, .ro, 0⟩]⟩,
    -- DIE_LOST_LO
    ⟨0x058, 1, .none_, 1, [⟨31, 0, .ro, 0⟩]⟩,
    -- DIE_LOST_HI
    ⟨0x05c, 1, .none_, 2, [⟨31, 0, .ro, 0⟩]⟩,
    -- OWNER_BYTES_LO
    ⟨0x060, 1, .none_, 1, [⟨31, 0, .ro, 0⟩]⟩,
    -- OWNER_BYTES_HI
    ⟨0x064, 1, .none_, 2, [⟨31, 0, .ro, 0⟩]⟩,
    -- MEDIA_BYTES_LO
    ⟨0x068, 1, .none_, 1, [⟨31, 0, .ro, 0⟩]⟩,
    -- MEDIA_BYTES_HI
    ⟨0x06c, 1, .none_, 2, [⟨31, 0, .ro, 0⟩]⟩,
    -- READ_BYTES_LO
    ⟨0x070, 1, .none_, 1, [⟨31, 0, .ro, 0⟩]⟩,
    -- READ_BYTES_HI
    ⟨0x074, 1, .none_, 2, [⟨31, 0, .ro, 0⟩]⟩,
    -- WEAR
    ⟨0x078, 1, .none_, 0, [⟨31, 16, .ro, 0⟩, ⟨15, 0, .ro, 0⟩]⟩,
    -- RATED_PE
    ⟨0x07c, 1, .none_, 0, [⟨15, 0, .ro, 0xdac⟩]⟩,
    -- UNCORR_CNT
    ⟨0x080, 1, .none_, 0, [⟨31, 0, .ro, 0⟩]⟩,
    -- RETRY_CNT
    ⟨0x084, 1, .none_, 0, [⟨31, 0, .ro, 0⟩]⟩,
    -- PROGFAIL_CNT
    ⟨0x088, 1, .none_, 0, [⟨31, 0, .ro, 0⟩]⟩,
    -- RETIRED_CNT
    ⟨0x08c, 1, .none_, 0, [⟨31, 0, .ro, 0⟩]⟩,
    -- SCAN_CFG
    ⟨0x090, 1, .none_, 0, [⟨7, 0, .rwt, 0xa8⟩]⟩,
    -- SCAN_PROGRESS
    ⟨0x094, 1, .none_, 0, [⟨16, 0, .ro, 0⟩]⟩,
    -- COMPACT
    ⟨0x098, 1, .none_, 0, [⟨31, 16, .rwt, 0x100⟩, ⟨6, 0, .rwt, 0x19⟩]⟩,
    -- DRAIN_TIMEOUT
    ⟨0x09c, 1, .none_, 0, [⟨31, 0, .rwt, 0x2710⟩]⟩ ]

/-- Every register of FLASH from offset 0x040. -/
def regsFlash : List RegRow := regsFlash0

/-- Registers of GRID. -/
def regsGrid0 : List RegRow :=
  [
    -- CORE_SEL
    ⟨0x040, 1, .none_, 0, [⟨7, 0, .rw, 0⟩]⟩,
    -- CORE_STAT
    ⟨0x044, 1, .none_, 0, [⟨31, 16, .ro, 0⟩, ⟨15, 13, .ro, 0⟩, ⟨3, 3, .ro, 0⟩, ⟨2, 0, .ro, 0⟩]⟩,
    -- CORE_CTRL
    ⟨0x048, 1, .none_, 0, [⟨2, 2, .wo, 0⟩, ⟨1, 1, .wo, 0⟩, ⟨0, 0, .wo, 0⟩]⟩,
    -- LAME_CFG
    ⟨0x04c, 1, .none_, 0, [⟨31, 16, .rwt, 0x140⟩, ⟨1, 1, .rwt, 1⟩, ⟨0, 0, .rwt, 1⟩]⟩,
    -- ROTATE
    ⟨0x050, 1, .none_, 0, [⟨11, 0, .rwt, 0x7d0⟩]⟩,
    -- WATCHDOG
    ⟨0x054, 1, .none_, 0, [⟨31, 0, .rwt, 0x186a0⟩]⟩,
    -- DRAIN_TIMEOUT
    ⟨0x058, 1, .none_, 0, [⟨31, 0, .rwt, 0x2710⟩]⟩,
    -- GRID_MEDIAN
    ⟨0x05c, 1, .none_, 0, [⟨15, 0, .ro, 0⟩]⟩,
    -- PROG_ERR
    ⟨0x060, 1, .none_, 0, [⟨31, 31, .w1c, 0⟩, ⟨23, 16, .ro, 0⟩, ⟨7, 0, .ro, 0⟩]⟩,
    -- MESH_RETRY
    ⟨0x064, 1, .none_, 0, [⟨31, 0, .ro, 0⟩]⟩,
    -- STORE_CE
    ⟨0x068, 1, .none_, 0, [⟨31, 0, .ro, 0⟩]⟩,
    -- TEST_QUEUE
    ⟨0x06c, 1, .none_, 0, [⟨15, 8, .ro, 0⟩, ⟨7, 0, .ro, 0⟩]⟩,
    -- AVAIL
    ⟨0x070, 8, .none_, 0, [⟨31, 0, .ro, 0⟩]⟩,
    -- LAMEMAP
    ⟨0x090, 8, .none_, 0, [⟨31, 0, .ro, 0⟩]⟩,
    -- FAULTMAP
    ⟨0x0b0, 8, .none_, 0, [⟨31, 0, .ro, 0⟩]⟩ ]

/-- Every register of GRID from offset 0x040. -/
def regsGrid : List RegRow := regsGrid0

/-- Registers of SCHED. -/
def regsSched0 : List RegRow :=
  [
    -- MODE
    ⟨0x040, 1, .none_, 0, [⟨0, 0, .rwt, 0⟩]⟩,
    -- CHUNK
    ⟨0x044, 1, .none_, 0, [⟨26, 16, .rwt, 0x40⟩, ⟨12, 0, .rwt, 0x200⟩]⟩,
    -- CHUNK_BUDGET
    ⟨0x048, 1, .none_, 0, [⟨16, 0, .rwt, 0x1000⟩]⟩,
    -- DECODE
    ⟨0x04c, 1, .none_, 0, [⟨10, 0, .rwt, 0x400⟩]⟩,
    -- BATCH_HOLD
    ⟨0x050, 1, .none_, 0, [⟨31, 16, .rwt, 0⟩, ⟨10, 0, .rwt, 1⟩]⟩,
    -- PART_SEL
    ⟨0x054, 1, .none_, 0, [⟨2, 0, .rw, 0⟩]⟩,
    -- RATIO_CFG
    ⟨0x058, 1, .part, 0, [⟨31, 31, .rwt, 1⟩, ⟨19, 16, .rwt, 8⟩, ⟨15, 12, .rwt, 0xf⟩, ⟨11, 8, .rwt, 1⟩, ⟨3, 0, .rwt, 4⟩]⟩,
    -- RATIO_STAT
    ⟨0x05c, 1, .part, 0, [⟨31, 24, .ro, 0⟩, ⟨23, 16, .ro, 0⟩, ⟨15, 8, .ro, 0⟩, ⟨3, 0, .ro, 0⟩]⟩,
    -- STEP_CNT_LO
    ⟨0x060, 1, .part, 1, [⟨31, 0, .ro, 0⟩]⟩,
    -- STEP_CNT_HI
    ⟨0x064, 1, .part, 2, [⟨31, 0, .ro, 0⟩]⟩,
    -- LAST_STEP
    ⟨0x068, 1, .part, 0, [⟨31, 24, .ro, 0⟩, ⟨23, 0, .ro, 0⟩]⟩,
    -- QUEUE
    ⟨0x06c, 1, .part, 0, [⟨31, 16, .ro, 0⟩, ⟨15, 0, .ro, 0⟩]⟩,
    -- LEFT_OUT
    ⟨0x070, 1, .part, 0, [⟨31, 0, .ro, 0⟩]⟩,
    -- CLIENT_BASE_LO
    ⟨0x074, 1, .none_, 1, [⟨31, 23, .rwgt, 0⟩]⟩,
    -- CLIENT_BASE_HI
    ⟨0x078, 1, .none_, 2, [⟨5, 0, .rwgt, 0⟩]⟩,
    -- CLIENT_SEL
    ⟨0x07c, 1, .none_, 0, [⟨18, 16, .rw, 0⟩, ⟨15, 0, .rw, 0⟩]⟩,
    -- CLIENT_STARTED
    ⟨0x080, 1, .none_, 0, [⟨31, 0, .ro, 0⟩]⟩,
    -- CLIENT_COMPLETED
    ⟨0x084, 1, .none_, 0, [⟨31, 0, .ro, 0⟩]⟩,
    -- CLIENT_ABORTED
    ⟨0x088, 1, .none_, 0, [⟨31, 0, .ro, 0⟩]⟩,
    -- PREEMPT_CNT
    ⟨0x08c, 1, .none_, 0, [⟨31, 0, .ro, 0⟩]⟩,
    -- DRAIN_TIMEOUT
    ⟨0x090, 1, .none_, 0, [⟨31, 0, .rwt, 0x2710⟩]⟩,
    -- PEER_WAIT
    ⟨0x094, 1, .none_, 0, [⟨31, 0, .ro, 0⟩]⟩ ]

/-- Every register of SCHED from offset 0x040. -/
def regsSched : List RegRow := regsSched0

/-- Registers of ATTN. -/
def regsAttn0 : List RegRow :=
  [
    -- SPAN_CFG
    ⟨0x040, 1, .none_, 0, [⟨15, 0, .rwt, 4⟩]⟩,
    -- MODEL_SEL
    ⟨0x044, 1, .none_, 0, [⟨3, 0, .rw, 0⟩]⟩,
    -- LAYERS_LO
    ⟨0x048, 1, .model, 1, [⟨31, 5, .rwg, 0⟩]⟩,
    -- LAYERS_HI
    ⟨0x04c, 1, .model, 2, [⟨5, 0, .rwg, 0⟩]⟩,
    -- MODEL_CTRL
    ⟨0x050, 1, .model, 0, [⟨15, 8, .rwg, 0⟩, ⟨0, 0, .rwg, 0⟩]⟩,
    -- MODEL_STAT
    ⟨0x054, 1, .none_, 0, [⟨15, 8, .ro, 0⟩, ⟨7, 0, .ro, 0⟩]⟩,
    -- MODEL_VALID
    ⟨0x058, 1, .none_, 0, [⟨15, 0, .ro, 0⟩]⟩,
    -- SCATTER_BYTES_LO
    ⟨0x05c, 1, .none_, 1, [⟨31, 0, .ro, 0⟩]⟩,
    -- SCATTER_BYTES_HI
    ⟨0x060, 1, .none_, 2, [⟨31, 0, .ro, 0⟩]⟩,
    -- COMPACT_BYTES_LO
    ⟨0x064, 1, .none_, 1, [⟨31, 0, .ro, 0⟩]⟩,
    -- COMPACT_BYTES_HI
    ⟨0x068, 1, .none_, 2, [⟨31, 0, .ro, 0⟩]⟩,
    -- SPANS
    ⟨0x06c, 1, .none_, 0, [⟨31, 16, .ro, 0⟩, ⟨8, 0, .ro, 0⟩]⟩,
    -- MERGE_MAX
    ⟨0x070, 1, .none_, 0, [⟨15, 0, .rw, 0⟩]⟩,
    -- DRAIN_TIMEOUT
    ⟨0x074, 1, .none_, 0, [⟨31, 0, .rwt, 0x2710⟩]⟩ ]

/-- Every register of ATTN from offset 0x040. -/
def regsAttn : List RegRow := regsAttn0

/-- Registers of SAMP. -/
def regsSamp0 : List RegRow :=
  [
    -- SLOT_SEL
    ⟨0x040, 1, .none_, 0, [⟨3, 0, .rw, 0⟩]⟩,
    -- SLOT_VOCAB
    ⟨0x044, 1, .slot, 0, [⟨20, 0, .rwg, 0⟩]⟩,
    -- DIST_CNT_LO
    ⟨0x048, 1, .none_, 1, [⟨31, 0, .ro, 0⟩]⟩,
    -- DIST_CNT_HI
    ⟨0x04c, 1, .none_, 2, [⟨31, 0, .ro, 0⟩]⟩,
    -- COUNT_DROP
    ⟨0x050, 1, .none_, 0, [⟨31, 0, .ro, 0⟩]⟩,
    -- NAN_ROW_CNT
    ⟨0x054, 1, .none_, 0, [⟨31, 0, .ro, 0⟩]⟩,
    -- DEAD_END_CNT
    ⟨0x058, 1, .none_, 0, [⟨31, 0, .ro, 0⟩]⟩,
    -- BUSY_MAX
    ⟨0x05c, 1, .none_, 0, [⟨15, 0, .rw, 0⟩]⟩,
    -- DRAIN_TIMEOUT
    ⟨0x060, 1, .none_, 0, [⟨31, 0, .rwt, 0x2710⟩]⟩,
    -- CFG
    ⟨0x064, 1, .none_, 0, [⟨0, 0, .rwt, 1⟩]⟩ ]

/-- Every register of SAMP from offset 0x040. -/
def regsSamp : List RegRow := regsSamp0

/-- Registers of SPEC. -/
def regsSpec0 : List RegRow :=
  [
    -- TREE_DEFAULT
    ⟨0x040, 1, .none_, 0, [⟨11, 8, .rwt, 8⟩, ⟨6, 0, .rwt, 0xa⟩]⟩,
    -- ECHO_CFG
    ⟨0x044, 1, .none_, 0, [⟨7, 4, .rwt, 8⟩, ⟨3, 0, .rwt, 2⟩]⟩,
    -- PROPOSED_LO
    ⟨0x048, 1, .none_, 1, [⟨31, 0, .ro, 0⟩]⟩,
    -- PROPOSED_HI
    ⟨0x04c, 1, .none_, 2, [⟨31, 0, .ro, 0⟩]⟩,
    -- ACCEPTED_LO
    ⟨0x050, 1, .none_, 1, [⟨31, 0, .ro, 0⟩]⟩,
    -- ACCEPTED_HI
    ⟨0x054, 1, .none_, 2, [⟨31, 0, .ro, 0⟩]⟩,
    -- DRAIN_TIMEOUT
    ⟨0x058, 1, .none_, 0, [⟨31, 0, .rwt, 0x2710⟩]⟩ ]

/-- Every register of SPEC from offset 0x040. -/
def regsSpec : List RegRow := regsSpec0

/-- Registers of TEXT. -/
def regsText0 : List RegRow :=
  [
    -- VOCAB_SEL
    ⟨0x040, 1, .none_, 0, [⟨3, 0, .rw, 0⟩]⟩,
    -- VOCAB_LO
    ⟨0x044, 1, .vocab, 1, [⟨31, 6, .rwg, 0⟩]⟩,
    -- VOCAB_HI
    ⟨0x048, 1, .vocab, 2, [⟨5, 0, .rwg, 0⟩]⟩,
    -- VOCAB_CTRL
    ⟨0x04c, 1, .vocab, 0, [⟨1, 1, .rwg, 0⟩, ⟨0, 0, .rwg, 0⟩]⟩,
    -- VOCAB_STAT
    ⟨0x050, 1, .none_, 0, [⟨31, 16, .ro, 0⟩, ⟨7, 0, .ro, 0⟩]⟩,
    -- GRAM_SEL
    ⟨0x054, 1, .none_, 0, [⟨11, 0, .rw, 0⟩]⟩,
    -- GRAM_LO
    ⟨0x058, 1, .gram, 1, [⟨31, 6, .rwg, 0⟩]⟩,
    -- GRAM_HI
    ⟨0x05c, 1, .gram, 2, [⟨5, 0, .rwg, 0⟩]⟩,
    -- GRAM_CTRL
    ⟨0x060, 1, .gram, 0, [⟨7, 4, .rwg, 0⟩, ⟨0, 0, .rwg, 0⟩]⟩,
    -- GRAM_STAT
    ⟨0x064, 1, .none_, 0, [⟨7, 0, .ro, 0⟩]⟩,
    -- WORK_BASE_LO
    ⟨0x068, 1, .none_, 1, [⟨31, 21, .rwgt, 0⟩]⟩,
    -- WORK_BASE_HI
    ⟨0x06c, 1, .none_, 2, [⟨5, 0, .rwgt, 0⟩]⟩,
    -- WORK_SIZE
    ⟨0x070, 1, .none_, 0, [⟨10, 0, .rwt, 0x200⟩]⟩,
    -- WORK_FREE
    ⟨0x074, 1, .none_, 0, [⟨10, 0, .ro, 0⟩]⟩,
    -- TOK_BYTES_LO
    ⟨0x078, 1, .none_, 1, [⟨31, 0, .ro, 0⟩]⟩,
    -- TOK_BYTES_HI
    ⟨0x07c, 1, .none_, 2, [⟨31, 0, .ro, 0⟩]⟩,
    -- TOK_OUT_LO
    ⟨0x080, 1, .none_, 1, [⟨31, 0, .ro, 0⟩]⟩,
    -- TOK_OUT_HI
    ⟨0x084, 1, .none_, 2, [⟨31, 0, .ro, 0⟩]⟩,
    -- MASK_CNT_LO
    ⟨0x088, 1, .none_, 1, [⟨31, 0, .ro, 0⟩]⟩,
    -- MASK_CNT_HI
    ⟨0x08c, 1, .none_, 2, [⟨31, 0, .ro, 0⟩]⟩,
    -- MASK_LATE_CNT
    ⟨0x090, 1, .none_, 0, [⟨31, 0, .ro, 0⟩]⟩,
    -- STOP_CNT
    ⟨0x094, 1, .none_, 0, [⟨31, 0, .ro, 0⟩]⟩,
    -- CACHE_MISS
    ⟨0x098, 1, .none_, 0, [⟨31, 0, .ro, 0⟩]⟩,
    -- MASK_LATE_MAX
    ⟨0x09c, 1, .none_, 0, [⟨15, 0, .rw, 0⟩]⟩ ]

/-- Registers of TEXT (continued). -/
def regsText1 : List RegRow :=
  [
    -- DRAIN_TIMEOUT
    ⟨0x0a0, 1, .none_, 0, [⟨31, 0, .rwt, 0x2710⟩]⟩ ]

/-- Every register of TEXT from offset 0x040. -/
def regsText : List RegRow := regsText0 ++ regsText1

/-- Registers of CUT. -/
def regsCut0 : List RegRow :=
  [
    -- CONFIRM_TIMEOUT
    ⟨0x040, 1, .none_, 0, [⟨31, 0, .rwt, 0xc350⟩]⟩,
    -- ACCEPT_TIMEOUT
    ⟨0x044, 1, .none_, 0, [⟨31, 0, .rwt, 0x2710⟩]⟩,
    -- SETTLE_PROBE
    ⟨0x048, 1, .none_, 0, [⟨31, 0, .rwt, 0x2710⟩]⟩,
    -- ORPHAN_AGE
    ⟨0x04c, 1, .none_, 0, [⟨31, 0, .rwt, 0xf4240⟩]⟩,
    -- RECORD_AGE
    ⟨0x050, 1, .none_, 0, [⟨31, 0, .rwt, 0x989680⟩]⟩,
    -- SLOT_SEL
    ⟨0x054, 1, .none_, 0, [⟨3, 0, .rw, 0⟩]⟩,
    -- MODEL_KEY_LO
    ⟨0x058, 1, .cutSlot, 1, [⟨31, 0, .rwg, 0⟩]⟩,
    -- MODEL_KEY_HI
    ⟨0x05c, 1, .cutSlot, 2, [⟨31, 0, .rwg, 0⟩]⟩,
    -- RESOLVE_HANDLE
    ⟨0x060, 1, .none_, 0, [⟨31, 0, .rw, 0⟩]⟩,
    -- RESOLVE
    ⟨0x064, 1, .none_, 0, [⟨15, 8, .ro, 0⟩, ⟨1, 0, .rwg, 0⟩]⟩,
    -- RECORDS
    ⟨0x068, 1, .none_, 0, [⟨12, 0, .ro, 0⟩]⟩,
    -- OUT_CNT
    ⟨0x06c, 1, .none_, 0, [⟨31, 0, .ro, 0⟩]⟩,
    -- IN_CNT
    ⟨0x070, 1, .none_, 0, [⟨31, 0, .ro, 0⟩]⟩,
    -- RECLAIM_CNT
    ⟨0x074, 1, .none_, 0, [⟨31, 0, .ro, 0⟩]⟩,
    -- ABORT_CNT
    ⟨0x078, 1, .none_, 0, [⟨31, 0, .ro, 0⟩]⟩,
    -- BAD_MSG
    ⟨0x07c, 1, .none_, 0, [⟨31, 0, .ro, 0⟩]⟩,
    -- DRAIN_TIMEOUT
    ⟨0x080, 1, .none_, 0, [⟨31, 0, .rwt, 0x2710⟩]⟩ ]

/-- Every register of CUT from offset 0x040. -/
def regsCut : List RegRow := regsCut0

/-- Registers of XPT. -/
def regsXpt0 : List RegRow :=
  [
    -- UDP_PORT
    ⟨0x040, 1, .none_, 0, [⟨15, 0, .rwgt, 0xb8c4⟩]⟩,
    -- CONN_SEL
    ⟨0x044, 1, .none_, 0, [⟨13, 0, .rw, 0⟩]⟩,
    -- CONN_ADDR
    ⟨0x048, 4, .conn, 0, [⟨31, 0, .rw, 0⟩]⟩,
    -- CONN_DEST
    ⟨0x058, 1, .conn, 0, [⟨31, 31, .rw, 0⟩, ⟨30, 28, .ro, 0⟩, ⟨27, 16, .rw, 0⟩, ⟨8, 0, .rw, 0⟩]⟩,
    -- CONN_PORT
    ⟨0x05c, 1, .conn, 0, [⟨15, 0, .rw, 0xb8c4⟩]⟩,
    -- CONN_CTRL
    ⟨0x060, 1, .conn, 0, [⟨10, 10, .rw, 0⟩, ⟨9, 9, .rw, 0⟩, ⟨4, 4, .wo, 0⟩, ⟨3, 3, .wo, 0⟩, ⟨2, 2, .wo, 0⟩, ⟨1, 1, .wo, 0⟩, ⟨0, 0, .wo, 0⟩]⟩,
    -- CONN_STAT
    ⟨0x064, 1, .conn, 0, [⟨31, 16, .ro, 0⟩, ⟨6, 6, .ro, 0⟩, ⟨5, 5, .ro, 0⟩, ⟨4, 4, .ro, 0⟩, ⟨2, 0, .ro, 0⟩]⟩,
    -- CONN_RATE
    ⟨0x068, 1, .conn, 0, [⟨31, 0, .ro, 0⟩]⟩,
    -- RTO
    ⟨0x06c, 1, .none_, 0, [⟨31, 16, .rwt, 0x3200⟩, ⟨15, 0, .rwt, 0xc8⟩]⟩,
    -- RETRY
    ⟨0x070, 1, .none_, 0, [⟨15, 8, .rwt, 8⟩, ⟨3, 0, .rwt, 7⟩]⟩,
    -- ACK_CFG
    ⟨0x074, 1, .none_, 0, [⟨15, 8, .rwt, 4⟩, ⟨7, 0, .rwt, 0x10⟩]⟩,
    -- RATE_CFG
    ⟨0x078, 1, .none_, 0, [⟨31, 24, .rwt, 0xc0⟩, ⟨23, 16, .rwt, 8⟩, ⟨15, 0, .rwt, 0x32⟩]⟩,
    -- RATE_HOLD
    ⟨0x07c, 1, .none_, 0, [⟨31, 16, .rwt, 1⟩, ⟨15, 0, .rwt, 0x32⟩]⟩,
    -- RATE_MAX
    ⟨0x080, 1, .none_, 0, [⟨31, 0, .rwt, 0x186a00⟩]⟩,
    -- MGMT_CFG
    ⟨0x084, 1, .none_, 0, [⟨20, 16, .ro, 0⟩, ⟨7, 0, .rwgt, 0⟩]⟩,
    -- SPRAY_CONN
    ⟨0x088, 8, .none_, 0, [⟨31, 31, .rwgt, 0⟩, ⟨13, 0, .rwgt, 0⟩]⟩,
    -- REG_COUNT
    ⟨0x0a8, 1, .none_, 0, [⟨16, 0, .ro, 0⟩]⟩,
    -- REG_SEL
    ⟨0x0ac, 1, .none_, 0, [⟨15, 0, .rw, 0⟩]⟩,
    -- REG_STAT
    ⟨0x0b0, 1, .reg, 0, [⟨31, 16, .ro, 0⟩, ⟨15, 8, .ro, 1⟩, ⟨7, 5, .ro, 0⟩, ⟨1, 0, .ro, 0⟩]⟩,
    -- TX_PKT_LO
    ⟨0x0b4, 1, .none_, 1, [⟨31, 0, .ro, 0⟩]⟩,
    -- TX_PKT_HI
    ⟨0x0b8, 1, .none_, 2, [⟨31, 0, .ro, 0⟩]⟩,
    -- RX_PKT_LO
    ⟨0x0bc, 1, .none_, 1, [⟨31, 0, .ro, 0⟩]⟩,
    -- RX_PKT_HI
    ⟨0x0c0, 1, .none_, 2, [⟨31, 0, .ro, 0⟩]⟩,
    -- RETX_CNT
    ⟨0x0c4, 1, .none_, 0, [⟨31, 0, .ro, 0⟩]⟩ ]

/-- Registers of XPT (continued). -/
def regsXpt1 : List RegRow :=
  [
    -- DUP_CNT
    ⟨0x0c8, 1, .none_, 0, [⟨31, 0, .ro, 0⟩]⟩,
    -- STALE_CNT
    ⟨0x0cc, 1, .none_, 0, [⟨31, 0, .ro, 0⟩]⟩,
    -- VIOL_CNT
    ⟨0x0d0, 1, .none_, 0, [⟨31, 0, .ro, 0⟩]⟩,
    -- BAD_CRC
    ⟨0x0d4, 1, .none_, 0, [⟨31, 0, .ro, 0⟩]⟩,
    -- BAD_NONCE
    ⟨0x0d8, 1, .none_, 0, [⟨31, 0, .ro, 0⟩]⟩,
    -- CE_CNT
    ⟨0x0dc, 1, .none_, 0, [⟨31, 0, .ro, 0⟩]⟩,
    -- REC_DROP
    ⟨0x0e0, 1, .none_, 0, [⟨31, 0, .ro, 0⟩]⟩,
    -- DRAIN_TIMEOUT
    ⟨0x0e4, 1, .none_, 0, [⟨31, 0, .rwt, 0x2710⟩]⟩ ]

/-- Every register of XPT from offset 0x040. -/
def regsXpt : List RegRow := regsXpt0 ++ regsXpt1

/-- Registers of PEER. -/
def regsPeer0 : List RegRow :=
  [
    -- NODE
    ⟨0x040, 1, .none_, 0, [⟨31, 31, .rwgt, 0⟩, ⟨11, 0, .rwgt, 0⟩]⟩,
    -- PORT_SEL
    ⟨0x044, 1, .none_, 0, [⟨1, 0, .rw, 0⟩]⟩,
    -- PORT_CFG
    ⟨0x048, 1, .port, 0, [⟨2, 2, .rwt, 1⟩, ⟨1, 1, .rwt, 0⟩, ⟨0, 0, .rwt, 1⟩]⟩,
    -- PORT_STAT
    ⟨0x04c, 1, .port, 0, [⟨31, 20, .ro, 0⟩, ⟨19, 19, .ro, 0⟩, ⟨12, 8, .ro, 0⟩, ⟨2, 0, .ro, 0⟩]⟩,
    -- LANE_MAP
    ⟨0x050, 1, .port, 0, [⟨31, 16, .ro, 0⟩, ⟨15, 0, .ro, 0⟩]⟩,
    -- FEC_CORR
    ⟨0x054, 1, .port, 0, [⟨31, 0, .ro, 0⟩]⟩,
    -- FEC_UNCORR
    ⟨0x058, 1, .port, 0, [⟨31, 0, .ro, 0⟩]⟩,
    -- STALL
    ⟨0x05c, 1, .port, 0, [⟨31, 31, .ro, 0⟩, ⟨6, 0, .ro, 0⟩]⟩,
    -- TRANSIT_LO
    ⟨0x060, 1, .port, 1, [⟨31, 0, .ro, 0⟩]⟩,
    -- TRANSIT_HI
    ⟨0x064, 1, .port, 2, [⟨31, 0, .ro, 0⟩]⟩,
    -- LOCAL_LO
    ⟨0x068, 1, .port, 1, [⟨31, 0, .ro, 0⟩]⟩,
    -- LOCAL_HI
    ⟨0x06c, 1, .port, 2, [⟨31, 0, .ro, 0⟩]⟩,
    -- ARB
    ⟨0x070, 1, .none_, 0, [⟨31, 24, .rwt, 1⟩, ⟨23, 16, .rwt, 3⟩, ⟨15, 8, .rwt, 2⟩, ⟨7, 0, .rwt, 1⟩]⟩,
    -- ECN_THRESH
    ⟨0x074, 1, .none_, 0, [⟨15, 0, .rwt, 0x40⟩]⟩,
    -- HOP_LIMIT
    ⟨0x078, 1, .none_, 0, [⟨7, 0, .rwt, 0x80⟩]⟩,
    -- IDLE_CFG
    ⟨0x07c, 1, .none_, 0, [⟨31, 16, .rwt, 0x3e8⟩, ⟨15, 8, .rwt, 0x10⟩, ⟨6, 0, .rwt, 5⟩]⟩,
    -- CAL_CTRL
    ⟨0x080, 1, .none_, 0, [⟨23, 16, .rwt, 0xf⟩, ⟨8, 8, .rwt, 1⟩, ⟨7, 4, .ro, 0⟩, ⟨3, 2, .ro, 0⟩, ⟨0, 0, .rw, 0⟩]⟩,
    -- SLOW_CFG
    ⟨0x084, 1, .none_, 0, [⟨31, 16, .rwt, 0x3e8⟩, ⟨6, 0, .rwt, 0x19⟩]⟩,
    -- RT_INDEX
    ⟨0x088, 1, .none_, 0, [⟨11, 0, .rw, 0⟩]⟩,
    -- RT_DATA
    ⟨0x08c, 1, .none_, 0, [⟨31, 31, .rw, 0⟩, ⟨7, 4, .rw, 0⟩, ⟨1, 0, .rw, 0⟩]⟩,
    -- RT_CTRL
    ⟨0x090, 1, .none_, 0, [⟨8, 8, .ro, 0⟩, ⟨1, 1, .rwg, 0⟩, ⟨0, 0, .rwg, 0⟩]⟩,
    -- DROP_ROUTE
    ⟨0x094, 1, .none_, 0, [⟨31, 0, .ro, 0⟩]⟩,
    -- DROP_HOPS
    ⟨0x098, 1, .none_, 0, [⟨31, 0, .ro, 0⟩]⟩,
    -- DROP_DOWN
    ⟨0x09c, 1, .none_, 0, [⟨31, 0, .ro, 0⟩]⟩ ]

/-- Registers of PEER (continued). -/
def regsPeer1 : List RegRow :=
  [
    -- LASER
    ⟨0x0a0, 1, .none_, 0, [⟨15, 8, .ro, 0⟩, ⟨1, 1, .ro, 1⟩, ⟨0, 0, .ro, 0⟩]⟩,
    -- DRAIN_TIMEOUT
    ⟨0x0a4, 1, .none_, 0, [⟨31, 0, .rwt, 0x2710⟩]⟩ ]

/-- Every register of PEER from offset 0x040. -/
def regsPeer : List RegRow := regsPeer0 ++ regsPeer1

/-- Registers of HOST. -/
def regsHost0 : List RegRow :=
  [
    -- PORT_CFG
    ⟨0x040, 1, .none_, 0, [⟨1, 1, .rwt, 1⟩, ⟨0, 0, .rwt, 1⟩]⟩,
    -- PORT_STAT
    ⟨0x044, 1, .none_, 0, [⟨15, 8, .ro, 0⟩, ⟨2, 0, .ro, 0⟩]⟩,
    -- BASE_MAC_LO
    ⟨0x048, 1, .none_, 1, [⟨31, 0, .ro, 0⟩]⟩,
    -- BASE_MAC_HI
    ⟨0x04c, 1, .none_, 2, [⟨15, 0, .ro, 0⟩]⟩,
    -- PART_SEL
    ⟨0x050, 1, .none_, 0, [⟨2, 0, .rw, 0⟩]⟩,
    -- PART_L2
    ⟨0x054, 1, .hostPart, 0, [⟨31, 31, .rwgt, 0⟩, ⟨30, 30, .rwgt, 0⟩, ⟨27, 16, .rwgt, 0⟩]⟩,
    -- PART_IPV4
    ⟨0x058, 1, .hostPart, 0, [⟨31, 0, .rwgt, 0⟩]⟩,
    -- PART_IPV6_
    ⟨0x05c, 4, .hostPart, 0, [⟨31, 0, .rwgt, 0⟩]⟩,
    -- GW_MAC_LO
    ⟨0x06c, 1, .hostPart, 1, [⟨31, 0, .rwgt, 0⟩]⟩,
    -- GW_MAC_HI
    ⟨0x070, 1, .hostPart, 2, [⟨15, 0, .rwgt, 0⟩]⟩,
    -- POLICE
    ⟨0x074, 1, .hostPart, 0, [⟨31, 16, .rwgt, 0⟩, ⟨15, 0, .rwgt, 0⟩]⟩,
    -- POLICE_DROP
    ⟨0x078, 1, .hostPart, 0, [⟨31, 0, .ro, 0⟩]⟩,
    -- RX_FRAMES_LO
    ⟨0x07c, 1, .none_, 1, [⟨31, 0, .ro, 0⟩]⟩,
    -- RX_FRAMES_HI
    ⟨0x080, 1, .none_, 2, [⟨31, 0, .ro, 0⟩]⟩,
    -- TX_FRAMES_LO
    ⟨0x084, 1, .none_, 1, [⟨31, 0, .ro, 0⟩]⟩,
    -- TX_FRAMES_HI
    ⟨0x088, 1, .none_, 2, [⟨31, 0, .ro, 0⟩]⟩,
    -- RX_FCS_ERR
    ⟨0x08c, 1, .none_, 0, [⟨31, 0, .ro, 0⟩]⟩,
    -- RX_FILTER
    ⟨0x090, 1, .none_, 0, [⟨31, 0, .ro, 0⟩]⟩,
    -- RX_FULL
    ⟨0x094, 1, .none_, 0, [⟨31, 0, .ro, 0⟩]⟩,
    -- RX_PAUSE
    ⟨0x098, 1, .none_, 0, [⟨31, 0, .ro, 0⟩]⟩,
    -- FEC_CORR
    ⟨0x09c, 1, .none_, 0, [⟨31, 0, .ro, 0⟩]⟩,
    -- FEC_UNCORR
    ⟨0x0a0, 1, .none_, 0, [⟨31, 0, .ro, 0⟩]⟩,
    -- LASER
    ⟨0x0a4, 1, .none_, 0, [⟨15, 8, .ro, 0⟩, ⟨1, 1, .ro, 1⟩, ⟨0, 0, .ro, 0⟩]⟩,
    -- CAL_CTRL
    ⟨0x0a8, 1, .none_, 0, [⟨1, 1, .ro, 0⟩, ⟨0, 0, .rw, 0⟩]⟩ ]

/-- Registers of HOST (continued). -/
def regsHost1 : List RegRow :=
  [
    -- DRAIN_TIMEOUT
    ⟨0x0ac, 1, .none_, 0, [⟨31, 0, .rwt, 0x2710⟩]⟩ ]

/-- Every register of HOST from offset 0x040. -/
def regsHost : List RegRow := regsHost0 ++ regsHost1

/-- Registers of EGR. -/
def regsEgr0 : List RegRow :=
  [
    -- REFILL
    ⟨0x040, 1, .none_, 0, [⟨15, 0, .rwt, 0xa⟩]⟩,
    -- SAMPLE
    ⟨0x044, 1, .none_, 0, [⟨15, 0, .rwt, 0x64⟩]⟩,
    -- QUEUE_SEL
    ⟨0x048, 1, .none_, 0, [⟨8, 0, .rw, 0⟩]⟩,
    -- Q_CFG
    ⟨0x04c, 1, .queue, 0, [⟨31, 31, .rwgt, 0⟩, ⟨30, 30, .rwgt, 0⟩, ⟨29, 27, .rwgt, 0⟩, ⟨26, 24, .rwgt, 7⟩, ⟨21, 16, .rwgt, 0⟩, ⟨15, 13, .rwgt, 0⟩, ⟨11, 0, .rwgt, 0x400⟩]⟩,
    -- Q_SHAPE
    ⟨0x050, 1, .queue, 0, [⟨31, 16, .rwgt, 0x1d8⟩, ⟨15, 0, .rwgt, 0x1d8⟩]⟩,
    -- Q_STAT
    ⟨0x054, 1, .queue, 0, [⟨31, 16, .ro, 0⟩, ⟨12, 0, .ro, 0⟩]⟩,
    -- Q_DEPTH
    ⟨0x058, 1, .queue, 0, [⟨31, 16, .rw, 0⟩, ⟨15, 0, .ro, 0⟩]⟩,
    -- Q_DELAY
    ⟨0x05c, 1, .queue, 0, [⟨31, 16, .rw, 0⟩, ⟨15, 0, .ro, 0⟩]⟩,
    -- Q_TX_LO
    ⟨0x060, 1, .queue, 1, [⟨31, 0, .ro, 0⟩]⟩,
    -- Q_TX_HI
    ⟨0x064, 1, .queue, 2, [⟨31, 0, .ro, 0⟩]⟩,
    -- Q_FULL
    ⟨0x068, 1, .queue, 0, [⟨31, 0, .ro, 0⟩]⟩,
    -- BUF_FREE
    ⟨0x06c, 1, .none_, 0, [⟨31, 0, .ro, 0x10000⟩]⟩,
    -- DRAIN_TIMEOUT
    ⟨0x070, 1, .none_, 0, [⟨31, 0, .rwt, 0x2710⟩]⟩ ]

/-- Every register of EGR from offset 0x040. -/
def regsEgr : List RegRow := regsEgr0

/-- Registers of SRCH. -/
def regsSrch0 : List RegRow :=
  [
    -- INDEX_SEL
    ⟨0x040, 1, .none_, 0, [⟨3, 0, .rw, 0⟩]⟩,
    -- IDX_CTRL
    ⟨0x044, 1, .index, 0, [⟨10, 8, .rwg, 0⟩, ⟨1, 1, .rw, 0⟩, ⟨0, 0, .rwg, 0⟩]⟩,
    -- IDX_FORMAT
    ⟨0x048, 1, .index, 0, [⟨27, 16, .rw, 0⟩, ⟨5, 5, .rw, 0⟩, ⟨4, 4, .rw, 0⟩, ⟨1, 0, .rw, 1⟩]⟩,
    -- IDX_GRAPH
    ⟨0x04c, 1, .index, 0, [⟨20, 16, .rw, 0x10⟩, ⟨12, 8, .rw, 0xf⟩, ⟨6, 0, .rw, 0⟩]⟩,
    -- IDX_ITEMS
    ⟨0x050, 1, .index, 0, [⟨30, 0, .rw, 0⟩]⟩,
    -- IDX_SKETCH_TAG
    ⟨0x054, 1, .index, 0, [⟨31, 0, .rw, 0⟩]⟩,
    -- IDX_TOMB_TAG
    ⟨0x058, 1, .index, 0, [⟨31, 0, .rw, 0⟩]⟩,
    -- IDX_TABLE_TAG
    ⟨0x05c, 1, .index, 0, [⟨31, 0, .rw, 0⟩]⟩,
    -- IDX_STAT
    ⟨0x060, 1, .index, 0, [⟨7, 0, .ro, 0⟩]⟩,
    -- IDX_REPAIRED
    ⟨0x064, 1, .index, 0, [⟨31, 0, .ro, 0⟩]⟩,
    -- IDX_DAMAGED
    ⟨0x068, 1, .index, 0, [⟨31, 0, .ro, 0⟩]⟩,
    -- IDX_DELETED
    ⟨0x06c, 1, .index, 0, [⟨31, 0, .ro, 0⟩]⟩,
    -- SHARD_SEL
    ⟨0x070, 1, .index, 0, [⟨5, 0, .rw, 0⟩]⟩,
    -- SHARD_ENTRY
    ⟨0x074, 1, .shard, 0, [⟨31, 31, .rw, 0⟩, ⟨30, 30, .rw, 0⟩, ⟨27, 24, .rw, 0⟩, ⟨13, 0, .rw, 0⟩]⟩,
    -- DEFAULTS
    ⟨0x078, 1, .none_, 0, [⟨31, 24, .rwt, 8⟩, ⟨23, 16, .rwt, 8⟩, ⟨12, 0, .rwt, 0x80⟩]⟩,
    -- MAX_VISIT
    ⟨0x07c, 1, .none_, 0, [⟨31, 0, .rwt, 0x10000⟩]⟩,
    -- DEADLINE_DEFAULT
    ⟨0x080, 1, .none_, 0, [⟨31, 0, .rwt, 0x186a0⟩]⟩,
    -- MERGE_MARGIN
    ⟨0x084, 1, .none_, 0, [⟨31, 0, .rwt, 0x3e8⟩]⟩,
    -- SCAN_CFG
    ⟨0x088, 1, .none_, 0, [⟨14, 8, .rwt, 0x40⟩, ⟨6, 0, .rwt, 0x32⟩]⟩,
    -- REPAIR_CFG
    ⟨0x08c, 1, .none_, 0, [⟨23, 16, .rwt, 1⟩, ⟨15, 0, .rwt, 0x10⟩]⟩,
    -- QUERY_CNT_LO
    ⟨0x090, 1, .none_, 1, [⟨31, 0, .ro, 0⟩]⟩,
    -- QUERY_CNT_HI
    ⟨0x094, 1, .none_, 2, [⟨31, 0, .ro, 0⟩]⟩,
    -- FEWER_CNT
    ⟨0x098, 1, .none_, 0, [⟨31, 0, .ro, 0⟩]⟩,
    -- LATE_CNT
    ⟨0x09c, 1, .none_, 0, [⟨31, 0, .ro, 0⟩]⟩ ]

/-- Registers of SRCH (continued). -/
def regsSrch1 : List RegRow :=
  [
    -- FAULT_CNT
    ⟨0x0a0, 1, .none_, 0, [⟨31, 0, .ro, 0⟩]⟩,
    -- BAD_EDGE
    ⟨0x0a4, 1, .none_, 0, [⟨31, 0, .ro, 0⟩]⟩,
    -- ACTIVE
    ⟨0x0a8, 1, .none_, 0, [⟨28, 16, .ro, 0⟩, ⟨15, 9, .ro, 0⟩, ⟨8, 0, .ro, 0⟩]⟩ ]

/-- Every register of SRCH from offset 0x040. -/
def regsSrch : List RegRow := regsSrch0 ++ regsSrch1

/-- Registers of CKPT. -/
def regsCkpt0 : List RegRow :=
  [
    -- CFG
    ⟨0x040, 1, .none_, 0, [⟨29, 24, .rwt, 0⟩, ⟨21, 16, .rwt, 0⟩, ⟨2, 2, .rwt, 0⟩, ⟨1, 1, .rwt, 0⟩, ⟨0, 0, .rwt, 0⟩]⟩,
    -- TIMER
    ⟨0x044, 1, .none_, 0, [⟨31, 0, .rwt, 0x20000⟩]⟩,
    -- STEPS
    ⟨0x048, 1, .none_, 0, [⟨31, 0, .rwt, 0⟩]⟩,
    -- RING_CONN
    ⟨0x04c, 1, .none_, 0, [⟨13, 0, .rwt, 0⟩]⟩,
    -- NEXT_AREA_TAG
    ⟨0x050, 1, .none_, 0, [⟨31, 0, .rwt, 0⟩]⟩,
    -- NEXT_MARK_TAG
    ⟨0x054, 1, .none_, 0, [⟨31, 0, .rwt, 0⟩]⟩,
    -- HOST_AREA
    ⟨0x058, 1, .none_, 0, [⟨11, 8, .rwgt, 8⟩, ⟨7, 0, .rwgt, 0⟩]⟩,
    -- BOUNCE
    ⟨0x05c, 1, .none_, 0, [⟨12, 0, .rwt, 0x200⟩]⟩,
    -- AREA_TAG
    ⟨0x060, 1, .none_, 0, [⟨31, 0, .ro, 0⟩]⟩,
    -- MARK_TAG
    ⟨0x064, 1, .none_, 0, [⟨31, 0, .ro, 0⟩]⟩,
    -- LAST_EPOCH
    ⟨0x068, 1, .none_, 0, [⟨31, 0, .ro, 0⟩]⟩,
    -- GEN0_EPOCH
    ⟨0x06c, 1, .none_, 0, [⟨31, 0, .ro, 0xffffffff⟩]⟩,
    -- GEN1_EPOCH
    ⟨0x070, 1, .none_, 0, [⟨31, 0, .ro, 0xffffffff⟩]⟩,
    -- STATUS
    ⟨0x074, 1, .none_, 0, [⟨31, 16, .ro, 0⟩, ⟨2, 0, .ro, 0⟩]⟩,
    -- MARK_TIMEOUT
    ⟨0x078, 1, .none_, 0, [⟨31, 0, .rwt, 0xf4240⟩]⟩,
    -- CTRL
    ⟨0x07c, 1, .none_, 0, [⟨0, 0, .wo, 0⟩]⟩,
    -- RESTORE_SET_LO
    ⟨0x080, 1, .none_, 1, [⟨31, 0, .rw, 0⟩]⟩,
    -- RESTORE_SET_HI
    ⟨0x084, 1, .none_, 2, [⟨31, 0, .rw, 0⟩]⟩,
    -- RESTORE_CTRL
    ⟨0x088, 1, .none_, 0, [⟨15, 8, .ro, 0⟩, ⟨0, 0, .rwg, 0⟩]⟩,
    -- RESTORE_EPOCH
    ⟨0x08c, 1, .none_, 0, [⟨31, 0, .ro, 0xffffffff⟩]⟩,
    -- RESTORE_DAMAGED
    ⟨0x090, 1, .none_, 0, [⟨31, 0, .ro, 0⟩]⟩,
    -- CUT_HANDLE
    ⟨0x094, 1, .none_, 0, [⟨31, 0, .rw, 0⟩]⟩,
    -- CUT_RESOLVE
    ⟨0x098, 1, .none_, 0, [⟨15, 8, .ro, 0⟩, ⟨1, 0, .rwg, 0⟩]⟩,
    -- STALL_CNT
    ⟨0x09c, 1, .none_, 0, [⟨31, 0, .ro, 0⟩]⟩ ]

/-- Registers of CKPT (continued). -/
def regsCkpt1 : List RegRow :=
  [
    -- SKIP_CNT
    ⟨0x0a0, 1, .none_, 0, [⟨31, 0, .ro, 0⟩]⟩,
    -- FAIL_CNT
    ⟨0x0a4, 1, .none_, 0, [⟨31, 0, .ro, 0⟩]⟩,
    -- DRAIN_TIMEOUT
    ⟨0x0a8, 1, .none_, 0, [⟨31, 0, .rwt, 0x2710⟩]⟩ ]

/-- Every register of CKPT from offset 0x040. -/
def regsCkpt : List RegRow := regsCkpt0 ++ regsCkpt1

/-- Registers of CRC. -/
def regsCrc0 : List RegRow :=
  [
    -- UNIT_SEL
    ⟨0x040, 1, .none_, 0, [⟨1, 0, .rw, 0⟩]⟩,
    -- CFG
    ⟨0x044, 1, .unit, 0, [⟨11, 11, .rw, 0⟩, ⟨10, 10, .rw, 0⟩, ⟨9, 9, .rw, 1⟩, ⟨8, 8, .rw, 1⟩, ⟨5, 0, .rw, 0x1f⟩]⟩,
    -- POLY_LO
    ⟨0x048, 1, .unit, 1, [⟨31, 0, .rw, 0x1edc6f41⟩]⟩,
    -- POLY_HI
    ⟨0x04c, 1, .unit, 2, [⟨31, 0, .rw, 0⟩]⟩,
    -- INIT_LO
    ⟨0x050, 1, .unit, 1, [⟨31, 0, .rw, 0xffffffff⟩]⟩,
    -- INIT_HI
    ⟨0x054, 1, .unit, 2, [⟨31, 0, .rw, 0⟩]⟩,
    -- XOROUT_LO
    ⟨0x058, 1, .unit, 1, [⟨31, 0, .rw, 0xffffffff⟩]⟩,
    -- XOROUT_HI
    ⟨0x05c, 1, .unit, 2, [⟨31, 0, .rw, 0⟩]⟩,
    -- SRC_LO
    ⟨0x060, 1, .unit, 1, [⟨31, 0, .rw, 0⟩]⟩,
    -- SRC_HI
    ⟨0x064, 1, .unit, 2, [⟨31, 0, .rw, 0⟩]⟩,
    -- LEN
    ⟨0x068, 1, .unit, 0, [⟨31, 0, .rw, 0⟩]⟩,
    -- CTRL
    ⟨0x06c, 1, .unit, 0, [⟨0, 0, .wo, 0⟩]⟩,
    -- STAT
    ⟨0x070, 1, .unit, 0, [⟨31, 31, .ro, 0⟩, ⟨23, 16, .ro, 0⟩, ⟨0, 0, .ro, 0⟩]⟩,
    -- RESULT_LO
    ⟨0x074, 1, .unit, 1, [⟨31, 0, .ro, 0⟩]⟩,
    -- RESULT_HI
    ⟨0x078, 1, .unit, 2, [⟨31, 0, .ro, 0⟩]⟩,
    -- BYTES
    ⟨0x07c, 1, .unit, 0, [⟨31, 0, .ro, 0⟩]⟩,
    -- DRAIN_TIMEOUT
    ⟨0x080, 1, .none_, 0, [⟨31, 0, .rwt, 0x2710⟩]⟩ ]

/-- Every register of CRC from offset 0x040. -/
def regsCrc : List RegRow := regsCrc0

/-- Registers of TEL. -/
def regsTel0 : List RegRow :=
  [
    -- PART_SEL
    ⟨0x040, 1, .none_, 0, [⟨2, 0, .rw, 0⟩]⟩,
    -- SESSIONS
    ⟨0x044, 1, .telPart, 0, [⟨31, 0, .ro, 0⟩]⟩,
    -- STEPS_LO
    ⟨0x048, 1, .telPart, 1, [⟨31, 0, .ro, 0⟩]⟩,
    -- STEPS_HI
    ⟨0x04c, 1, .telPart, 2, [⟨31, 0, .ro, 0⟩]⟩,
    -- TOKENS_IN_LO
    ⟨0x050, 1, .telPart, 1, [⟨31, 0, .ro, 0⟩]⟩,
    -- TOKENS_IN_HI
    ⟨0x054, 1, .telPart, 2, [⟨31, 0, .ro, 0⟩]⟩,
    -- TOKENS_OUT_LO
    ⟨0x058, 1, .telPart, 1, [⟨31, 0, .ro, 0⟩]⟩,
    -- TOKENS_OUT_HI
    ⟨0x05c, 1, .telPart, 2, [⟨31, 0, .ro, 0⟩]⟩,
    -- JOBS_STARTED
    ⟨0x060, 1, .telPart, 0, [⟨31, 0, .ro, 0⟩]⟩,
    -- JOBS_COMPLETED
    ⟨0x064, 1, .telPart, 0, [⟨31, 0, .ro, 0⟩]⟩,
    -- JOBS_ABORTED
    ⟨0x068, 1, .telPart, 0, [⟨31, 0, .ro, 0⟩]⟩,
    -- HEAP_MIB
    ⟨0x06c, 1, .telPart, 0, [⟨31, 0, .ro, 0⟩]⟩,
    -- FLASH_MIB
    ⟨0x070, 1, .telPart, 0, [⟨31, 0, .ro, 0⟩]⟩,
    -- POWER
    ⟨0x074, 1, .telPart, 0, [⟨31, 0, .ro, 0⟩]⟩,
    -- CLIENT_SEL
    ⟨0x078, 1, .telPart, 0, [⟨15, 0, .rw, 0⟩]⟩,
    -- CLIENT_STARTED
    ⟨0x07c, 1, .telPart, 0, [⟨31, 0, .ro, 0⟩]⟩,
    -- CLIENT_COMPLETED
    ⟨0x080, 1, .telPart, 0, [⟨31, 0, .ro, 0⟩]⟩,
    -- CLIENT_ABORTED
    ⟨0x084, 1, .telPart, 0, [⟨31, 0, .ro, 0⟩]⟩,
    -- SNAP_SEQ
    ⟨0x088, 1, .none_, 0, [⟨31, 0, .ro, 0⟩]⟩,
    -- TRACE_CTRL
    ⟨0x08c, 1, .none_, 0, [⟨10, 8, .rw, 0⟩, ⟨0, 0, .rw, 0⟩]⟩,
    -- TRACE_TAG
    ⟨0x090, 1, .none_, 0, [⟨31, 0, .rw, 0⟩]⟩,
    -- TRACE_DROP
    ⟨0x094, 1, .none_, 0, [⟨31, 0, .ro, 0⟩]⟩ ]

/-- Every register of TEL from offset 0x040. -/
def regsTel : List RegRow := regsTel0

/-- The register table of a page. -/
def pageRegs : Page → List RegRow
  | .chip => regsChip
  | .clk => regsClk
  | .pwr => regsPwr
  | .sec => regsSec
  | .flt => regsFlt
  | .sess => regsSess
  | .fig => regsFig
  | .tier => regsTier
  | .gdr => regsGdr
  | .flash => regsFlash
  | .grid => regsGrid
  | .sched => regsSched
  | .attn => regsAttn
  | .samp => regsSamp
  | .spec => regsSpec
  | .text => regsText
  | .cut => regsCut
  | .xpt => regsXpt
  | .peer => regsPeer
  | .host => regsHost
  | .egr => regsEgr
  | .srch => regsSrch
  | .ckpt => regsCkpt
  | .crc => regsCrc
  | .tel => regsTel

/-! Byte addresses of the registers (page index * 0x4000 + offset, R16). -/

/-- CHIP.BOOT_CFG -/
abbrev aCHIP_BOOT_CFG : Nat := 0x00040
/-- CHIP.BOOT -/
abbrev aCHIP_BOOT : Nat := 0x00044
/-- CHIP.OVL_APPLY -/
abbrev aCHIP_OVL_APPLY : Nat := 0x00048
/-- CHIP.OVL_STAT -/
abbrev aCHIP_OVL_STAT : Nat := 0x0004c
/-- CHIP.OVL_PRESENT -/
abbrev aCHIP_OVL_PRESENT : Nat := 0x00050
/-- CHIP.SPLIT -/
abbrev aCHIP_SPLIT : Nat := 0x00054
/-- CHIP.SPLIT_CONN -/
abbrev aCHIP_SPLIT_CONN : Nat := 0x00058
/-- CHIP.SELFTEST -/
abbrev aCHIP_SELFTEST : Nat := 0x0005c
/-- CHIP.UPDATE_TAG -/
abbrev aCHIP_UPDATE_TAG : Nat := 0x00060
/-- CHIP.UPDATE -/
abbrev aCHIP_UPDATE : Nat := 0x00064
/-- CHIP.NOR_ADDR -/
abbrev aCHIP_NOR_ADDR : Nat := 0x00068
/-- CHIP.NOR_DATA -/
abbrev aCHIP_NOR_DATA : Nat := 0x0006c
/-- CHIP.RESET_CAUSE -/
abbrev aCHIP_RESET_CAUSE : Nat := 0x00070
/-- CHIP.BASE_ERR -/
abbrev aCHIP_BASE_ERR : Nat := 0x00074
/-- CLK.STATE -/
abbrev aCLK_STATE : Nat := 0x04040
/-- CLK.SLEEP_CFG -/
abbrev aCLK_SLEEP_CFG : Nat := 0x04044
/-- CLK.DEEP_AFTER -/
abbrev aCLK_DEEP_AFTER : Nat := 0x04048
/-- CLK.HOUSEKEEP -/
abbrev aCLK_HOUSEKEEP : Nat := 0x0404c
/-- CLK.CTRL -/
abbrev aCLK_CTRL : Nat := 0x04050
/-- CLK.SSC -/
abbrev aCLK_SSC : Nat := 0x04054
/-- CLK.MINUET_LO -/
abbrev aCLK_MINUET_LO : Nat := 0x04058
/-- CLK.MINUET_HI -/
abbrev aCLK_MINUET_HI : Nat := 0x0405c
/-- CLK.WAKE_CNT -/
abbrev aCLK_WAKE_CNT : Nat := 0x04060
/-- CLK.DEEP_CNT -/
abbrev aCLK_DEEP_CNT : Nat := 0x04064
/-- CLK.LAST_WAKE -/
abbrev aCLK_LAST_WAKE : Nat := 0x04068
/-- PWR.CAP -/
abbrev aPWR_CAP : Nat := 0x08040
/-- PWR.FAST -/
abbrev aPWR_FAST : Nat := 0x08044
/-- PWR.CTRL -/
abbrev aPWR_CTRL : Nat := 0x08048
/-- PWR.DECIDE -/
abbrev aPWR_DECIDE : Nat := 0x0804c
/-- PWR.EXPLORE -/
abbrev aPWR_EXPLORE : Nat := 0x08050
/-- PWR.PWR_NOW -/
abbrev aPWR_PWR_NOW : Nat := 0x08054
/-- PWR.PWR_AVG -/
abbrev aPWR_PWR_AVG : Nat := 0x08058
/-- PWR.ENERGY_LO -/
abbrev aPWR_ENERGY_LO : Nat := 0x0805c
/-- PWR.ENERGY_HI -/
abbrev aPWR_ENERGY_HI : Nat := 0x08060
/-- PWR.RAIL_SEL -/
abbrev aPWR_RAIL_SEL : Nat := 0x08064
/-- PWR.RAIL_PWR -/
abbrev aPWR_RAIL_PWR : Nat := 0x08068
/-- PWR.ROW_POINT0 -/
abbrev aPWR_ROW_POINT0 : Nat := 0x0806c
/-- PWR.ROW_POINT1 -/
abbrev aPWR_ROW_POINT1 : Nat := 0x08070
/-- PWR.PACE -/
abbrev aPWR_PACE : Nat := 0x08074
/-- PWR.CLASS_SEL -/
abbrev aPWR_CLASS_SEL : Nat := 0x08078
/-- PWR.CLASS_DATA -/
abbrev aPWR_CLASS_DATA : Nat := 0x0807c
/-- PWR.VF_POINT -/
abbrev aPWR_VF_POINT : Nat := 0x08080
/-- PWR.LIMIT -/
abbrev aPWR_LIMIT : Nat := 0x080c0
/-- PWR.MARK -/
abbrev aPWR_MARK : Nat := 0x080c4
/-- PWR.MARK_HOLD -/
abbrev aPWR_MARK_HOLD : Nat := 0x080c8
/-- PWR.MARK_ENERGY -/
abbrev aPWR_MARK_ENERGY : Nat := 0x080cc
/-- PWR.MARK_SHORT -/
abbrev aPWR_MARK_SHORT : Nat := 0x080d0
/-- PWR.TJ -/
abbrev aPWR_TJ : Nat := 0x080d4
/-- PWR.THERM -/
abbrev aPWR_THERM : Nat := 0x080d8
/-- PWR.SENSOR_FAULT -/
abbrev aPWR_SENSOR_FAULT : Nat := 0x080dc
/-- PWR.TRIP -/
abbrev aPWR_TRIP : Nat := 0x080e0
/-- PWR.THROTTLE_CNT -/
abbrev aPWR_THROTTLE_CNT : Nat := 0x080e4
/-- PWR.FAST_CNT -/
abbrev aPWR_FAST_CNT : Nat := 0x080e8
/-- SEC.PART_SEL -/
abbrev aSEC_PART_SEL : Nat := 0x0c040
/-- SEC.PART_CTRL -/
abbrev aSEC_PART_CTRL : Nat := 0x0c044
/-- SEC.PART_RES -/
abbrev aSEC_PART_RES : Nat := 0x0c048
/-- SEC.PART_SLOTS -/
abbrev aSEC_PART_SLOTS : Nat := 0x0c04c
/-- SEC.PART_CONN -/
abbrev aSEC_PART_CONN : Nat := 0x0c050
/-- SEC.PART_DIR -/
abbrev aSEC_PART_DIR : Nat := 0x0c054
/-- SEC.PART_CONSENT -/
abbrev aSEC_PART_CONSENT : Nat := 0x0c058
/-- SEC.MP0_ -/
abbrev aSEC_MP0_ : Nat := 0x0c05c
/-- SEC.MP1_ -/
abbrev aSEC_MP1_ : Nat := 0x0c07c
/-- SEC.EXTEND -/
abbrev aSEC_EXTEND : Nat := 0x0c09c
/-- SEC.MC0_ -/
abbrev aSEC_MC0_ : Nat := 0x0c0bc
/-- SEC.MC1_ -/
abbrev aSEC_MC1_ : Nat := 0x0c0dc
/-- SEC.MC2_ -/
abbrev aSEC_MC2_ : Nat := 0x0c0fc
/-- SEC.BOOT_STAT -/
abbrev aSEC_BOOT_STAT : Nat := 0x0c11c
/-- SEC.ROLLBACK -/
abbrev aSEC_ROLLBACK : Nat := 0x0c120
/-- SEC.KEY_REVOKE -/
abbrev aSEC_KEY_REVOKE : Nat := 0x0c124
/-- SEC.DEVICE_ID_LO -/
abbrev aSEC_DEVICE_ID_LO : Nat := 0x0c128
/-- SEC.DEVICE_ID_HI -/
abbrev aSEC_DEVICE_ID_HI : Nat := 0x0c12c
/-- SEC.CHIP_DEBUG -/
abbrev aSEC_CHIP_DEBUG : Nat := 0x0c130
/-- SEC.DBG_CTRL -/
abbrev aSEC_DBG_CTRL : Nat := 0x0c134
/-- SEC.DBG_ADDR_LO -/
abbrev aSEC_DBG_ADDR_LO : Nat := 0x0c138
/-- SEC.DBG_ADDR_HI -/
abbrev aSEC_DBG_ADDR_HI : Nat := 0x0c13c
/-- SEC.DBG_DATA -/
abbrev aSEC_DBG_DATA : Nat := 0x0c140
/-- SEC.ATTEST_CNT -/
abbrev aSEC_ATTEST_CNT : Nat := 0x0c14c
/-- FLT.LAST_CLASS -/
abbrev aFLT_LAST_CLASS : Nat := 0x10040
/-- FLT.LAST_INFO -/
abbrev aFLT_LAST_INFO : Nat := 0x10044
/-- FLT.LAST_ADDR_LO -/
abbrev aFLT_LAST_ADDR_LO : Nat := 0x10048
/-- FLT.LAST_ADDR_HI -/
abbrev aFLT_LAST_ADDR_HI : Nat := 0x1004c
/-- FLT.LAST_STAMP -/
abbrev aFLT_LAST_STAMP : Nat := 0x10050
/-- FLT.CLASS_SEL -/
abbrev aFLT_CLASS_SEL : Nat := 0x10054
/-- FLT.CLASS_CNT -/
abbrev aFLT_CLASS_CNT : Nat := 0x10058
/-- FLT.MODULE -/
abbrev aFLT_MODULE : Nat := 0x1005c
/-- FLT.BB_HEAD -/
abbrev aFLT_BB_HEAD : Nat := 0x10060
/-- FLT.BB_SEQ -/
abbrev aFLT_BB_SEQ : Nat := 0x10064
/-- FLT.BB_SUPPRESSED -/
abbrev aFLT_BB_SUPPRESSED : Nat := 0x10068
/-- FLT.BB_INDEX -/
abbrev aFLT_BB_INDEX : Nat := 0x1006c
/-- FLT.BB_STAT -/
abbrev aFLT_BB_STAT : Nat := 0x10070
/-- FLT.BB_MARK -/
abbrev aFLT_BB_MARK : Nat := 0x10074
/-- FLT.STATUS -/
abbrev aFLT_STATUS : Nat := 0x10078
/-- FLT.BB_WINDOW -/
abbrev aFLT_BB_WINDOW : Nat := 0x10100
/-- SESS.DIR_BASE_LO -/
abbrev aSESS_DIR_BASE_LO : Nat := 0x14040
/-- SESS.DIR_BASE_HI -/
abbrev aSESS_DIR_BASE_HI : Nat := 0x14044
/-- SESS.DIR_CTRL -/
abbrev aSESS_DIR_CTRL : Nat := 0x14048
/-- SESS.DRAIN_TIMEOUT -/
abbrev aSESS_DRAIN_TIMEOUT : Nat := 0x1404c
/-- SESS.OPQ_CFG -/
abbrev aSESS_OPQ_CFG : Nat := 0x14050
/-- SESS.OPQ_FREE -/
abbrev aSESS_OPQ_FREE : Nat := 0x14054
/-- SESS.CNT_SEL -/
abbrev aSESS_CNT_SEL : Nat := 0x14058
/-- SESS.CNT_VALUE -/
abbrev aSESS_CNT_VALUE : Nat := 0x1405c
/-- SESS.CACHE_MISS_LO -/
abbrev aSESS_CACHE_MISS_LO : Nat := 0x14060
/-- SESS.CACHE_MISS_HI -/
abbrev aSESS_CACHE_MISS_HI : Nat := 0x14064
/-- SESS.VIEW_HANDLE -/
abbrev aSESS_VIEW_HANDLE : Nat := 0x14068
/-- SESS.VIEW_STAT -/
abbrev aSESS_VIEW_STAT : Nat := 0x1406c
/-- SESS.VIEW_ENTRY -/
abbrev aSESS_VIEW_ENTRY : Nat := 0x14080
/-- FIG.LOG_BASE_LO -/
abbrev aFIG_LOG_BASE_LO : Nat := 0x18040
/-- FIG.LOG_BASE_HI -/
abbrev aFIG_LOG_BASE_HI : Nat := 0x18044
/-- FIG.STAGE_BASE_LO -/
abbrev aFIG_STAGE_BASE_LO : Nat := 0x18048
/-- FIG.STAGE_BASE_HI -/
abbrev aFIG_STAGE_BASE_HI : Nat := 0x1804c
/-- FIG.SEQ_LO -/
abbrev aFIG_SEQ_LO : Nat := 0x18050
/-- FIG.SEQ_HI -/
abbrev aFIG_SEQ_HI : Nat := 0x18054
/-- FIG.APPLIED_LO -/
abbrev aFIG_APPLIED_LO : Nat := 0x18058
/-- FIG.APPLIED_HI -/
abbrev aFIG_APPLIED_HI : Nat := 0x1805c
/-- FIG.LOG_FREE -/
abbrev aFIG_LOG_FREE : Nat := 0x18060
/-- FIG.LOG_TAIL -/
abbrev aFIG_LOG_TAIL : Nat := 0x18064
/-- FIG.OPEN -/
abbrev aFIG_OPEN : Nat := 0x18068
/-- FIG.COMMIT_CNT_LO -/
abbrev aFIG_COMMIT_CNT_LO : Nat := 0x1806c
/-- FIG.COMMIT_CNT_HI -/
abbrev aFIG_COMMIT_CNT_HI : Nat := 0x18070
/-- FIG.ABORT_CNT -/
abbrev aFIG_ABORT_CNT : Nat := 0x18074
/-- FIG.STALL_CNT -/
abbrev aFIG_STALL_CNT : Nat := 0x18078
/-- FIG.LAT_MAX -/
abbrev aFIG_LAT_MAX : Nat := 0x1807c
/-- FIG.DRAIN_TIMEOUT -/
abbrev aFIG_DRAIN_TIMEOUT : Nat := 0x18080
/-- FIG.REPLAY -/
abbrev aFIG_REPLAY : Nat := 0x18084
/-- FIG.REPLAY_TIME -/
abbrev aFIG_REPLAY_TIME : Nat := 0x18088
/-- FIG.STAGE_SIZE -/
abbrev aFIG_STAGE_SIZE : Nat := 0x1808c
/-- FIG.STAGE_FREE -/
abbrev aFIG_STAGE_FREE : Nat := 0x18090
/-- TIER.LEDGER_BASE_LO -/
abbrev aTIER_LEDGER_BASE_LO : Nat := 0x1c040
/-- TIER.LEDGER_BASE_HI -/
abbrev aTIER_LEDGER_BASE_HI : Nat := 0x1c044
/-- TIER.LEDGER_SIZE -/
abbrev aTIER_LEDGER_SIZE : Nat := 0x1c048
/-- TIER.HEAP -/
abbrev aTIER_HEAP : Nat := 0x1c04c
/-- TIER.FLUSH_AGE -/
abbrev aTIER_FLUSH_AGE : Nat := 0x1c050
/-- TIER.COLD_AGE -/
abbrev aTIER_COLD_AGE : Nat := 0x1c054
/-- TIER.PRESSURE -/
abbrev aTIER_PRESSURE : Nat := 0x1c058
/-- TIER.CFG -/
abbrev aTIER_CFG : Nat := 0x1c05c
/-- TIER.DEADLINE_DEFAULT -/
abbrev aTIER_DEADLINE_DEFAULT : Nat := 0x1c060
/-- TIER.HEAP_FREE -/
abbrev aTIER_HEAP_FREE : Nat := 0x1c064
/-- TIER.LEDGER_FREE -/
abbrev aTIER_LEDGER_FREE : Nat := 0x1c068
/-- TIER.FLUSH_BYTES_LO -/
abbrev aTIER_FLUSH_BYTES_LO : Nat := 0x1c06c
/-- TIER.FLUSH_BYTES_HI -/
abbrev aTIER_FLUSH_BYTES_HI : Nat := 0x1c070
/-- TIER.REVIVE_BYTES_LO -/
abbrev aTIER_REVIVE_BYTES_LO : Nat := 0x1c074
/-- TIER.REVIVE_BYTES_HI -/
abbrev aTIER_REVIVE_BYTES_HI : Nat := 0x1c078
/-- TIER.LATE_CNT -/
abbrev aTIER_LATE_CNT : Nat := 0x1c07c
/-- TIER.FAULT_CNT -/
abbrev aTIER_FAULT_CNT : Nat := 0x1c080
/-- TIER.SWEEP -/
abbrev aTIER_SWEEP : Nat := 0x1c084
/-- TIER.DRAIN_TIMEOUT -/
abbrev aTIER_DRAIN_TIMEOUT : Nat := 0x1c088
/-- TIER.REVIVE_ACTIVE -/
abbrev aTIER_REVIVE_ACTIVE : Nat := 0x1c08c
/-- GDR.INTERLEAVE -/
abbrev aGDR_INTERLEAVE : Nat := 0x20040
/-- GDR.SCRUB_PERIOD -/
abbrev aGDR_SCRUB_PERIOD : Nat := 0x20044
/-- GDR.RETRAIN -/
abbrev aGDR_RETRAIN : Nat := 0x20048
/-- GDR.CH_READY -/
abbrev aGDR_CH_READY : Nat := 0x2004c
/-- GDR.CH_FAULT -/
abbrev aGDR_CH_FAULT : Nat := 0x20050
/-- GDR.CE_CNT -/
abbrev aGDR_CE_CNT : Nat := 0x20054
/-- GDR.UE_CNT -/
abbrev aGDR_UE_CNT : Nat := 0x20058
/-- GDR.RETRY_CNT -/
abbrev aGDR_RETRY_CNT : Nat := 0x2005c
/-- GDR.SCRUB_PASSES -/
abbrev aGDR_SCRUB_PASSES : Nat := 0x20060
/-- GDR.UE_ADDR_LO -/
abbrev aGDR_UE_ADDR_LO : Nat := 0x20064
/-- GDR.UE_ADDR_HI -/
abbrev aGDR_UE_ADDR_HI : Nat := 0x20068
/-- GDR.DRAIN_TIMEOUT -/
abbrev aGDR_DRAIN_TIMEOUT : Nat := 0x2006c
/-- FLASH.GEOMETRY -/
abbrev aFLASH_GEOMETRY : Nat := 0x24040
/-- FLASH.USER_EXTENTS -/
abbrev aFLASH_USER_EXTENTS : Nat := 0x24044
/-- FLASH.SPARE_EXTENTS -/
abbrev aFLASH_SPARE_EXTENTS : Nat := 0x24048
/-- FLASH.FREE_EXTENTS -/
abbrev aFLASH_FREE_EXTENTS : Nat := 0x2404c
/-- FLASH.SPARE_MIN -/
abbrev aFLASH_SPARE_MIN : Nat := 0x24050
/-- FLASH.STATUS -/
abbrev aFLASH_STATUS : Nat := 0x24054
/-- FLASH.DIE_LOST_LO -/
abbrev aFLASH_DIE_LOST_LO : Nat := 0x24058
/-- FLASH.DIE_LOST_HI -/
abbrev aFLASH_DIE_LOST_HI : Nat := 0x2405c
/-- FLASH.OWNER_BYTES_LO -/
abbrev aFLASH_OWNER_BYTES_LO : Nat := 0x24060
/-- FLASH.OWNER_BYTES_HI -/
abbrev aFLASH_OWNER_BYTES_HI : Nat := 0x24064
/-- FLASH.MEDIA_BYTES_LO -/
abbrev aFLASH_MEDIA_BYTES_LO : Nat := 0x24068
/-- FLASH.MEDIA_BYTES_HI -/
abbrev aFLASH_MEDIA_BYTES_HI : Nat := 0x2406c
/-- FLASH.READ_BYTES_LO -/
abbrev aFLASH_READ_BYTES_LO : Nat := 0x24070
/-- FLASH.READ_BYTES_HI -/
abbrev aFLASH_READ_BYTES_HI : Nat := 0x24074
/-- FLASH.WEAR -/
abbrev aFLASH_WEAR : Nat := 0x24078
/-- FLASH.RATED_PE -/
abbrev aFLASH_RATED_PE : Nat := 0x2407c
/-- FLASH.UNCORR_CNT -/
abbrev aFLASH_UNCORR_CNT : Nat := 0x24080
/-- FLASH.RETRY_CNT -/
abbrev aFLASH_RETRY_CNT : Nat := 0x24084
/-- FLASH.PROGFAIL_CNT -/
abbrev aFLASH_PROGFAIL_CNT : Nat := 0x24088
/-- FLASH.RETIRED_CNT -/
abbrev aFLASH_RETIRED_CNT : Nat := 0x2408c
/-- FLASH.SCAN_CFG -/
abbrev aFLASH_SCAN_CFG : Nat := 0x24090
/-- FLASH.SCAN_PROGRESS -/
abbrev aFLASH_SCAN_PROGRESS : Nat := 0x24094
/-- FLASH.COMPACT -/
abbrev aFLASH_COMPACT : Nat := 0x24098
/-- FLASH.DRAIN_TIMEOUT -/
abbrev aFLASH_DRAIN_TIMEOUT : Nat := 0x2409c
/-- GRID.CORE_SEL -/
abbrev aGRID_CORE_SEL : Nat := 0x28040
/-- GRID.CORE_STAT -/
abbrev aGRID_CORE_STAT : Nat := 0x28044
/-- GRID.CORE_CTRL -/
abbrev aGRID_CORE_CTRL : Nat := 0x28048
/-- GRID.LAME_CFG -/
abbrev aGRID_LAME_CFG : Nat := 0x2804c
/-- GRID.ROTATE -/
abbrev aGRID_ROTATE : Nat := 0x28050
/-- GRID.WATCHDOG -/
abbrev aGRID_WATCHDOG : Nat := 0x28054
/-- GRID.DRAIN_TIMEOUT -/
abbrev aGRID_DRAIN_TIMEOUT : Nat := 0x28058
/-- GRID.GRID_MEDIAN -/
abbrev aGRID_GRID_MEDIAN : Nat := 0x2805c
/-- GRID.PROG_ERR -/
abbrev aGRID_PROG_ERR : Nat := 0x28060
/-- GRID.MESH_RETRY -/
abbrev aGRID_MESH_RETRY : Nat := 0x28064
/-- GRID.STORE_CE -/
abbrev aGRID_STORE_CE : Nat := 0x28068
/-- GRID.TEST_QUEUE -/
abbrev aGRID_TEST_QUEUE : Nat := 0x2806c
/-- GRID.AVAIL -/
abbrev aGRID_AVAIL : Nat := 0x28070
/-- GRID.LAMEMAP -/
abbrev aGRID_LAMEMAP : Nat := 0x28090
/-- GRID.FAULTMAP -/
abbrev aGRID_FAULTMAP : Nat := 0x280b0
/-- SCHED.MODE -/
abbrev aSCHED_MODE : Nat := 0x2c040
/-- SCHED.CHUNK -/
abbrev aSCHED_CHUNK : Nat := 0x2c044
/-- SCHED.CHUNK_BUDGET -/
abbrev aSCHED_CHUNK_BUDGET : Nat := 0x2c048
/-- SCHED.DECODE -/
abbrev aSCHED_DECODE : Nat := 0x2c04c
/-- SCHED.BATCH_HOLD -/
abbrev aSCHED_BATCH_HOLD : Nat := 0x2c050
/-- SCHED.PART_SEL -/
abbrev aSCHED_PART_SEL : Nat := 0x2c054
/-- SCHED.RATIO_CFG -/
abbrev aSCHED_RATIO_CFG : Nat := 0x2c058
/-- SCHED.RATIO_STAT -/
abbrev aSCHED_RATIO_STAT : Nat := 0x2c05c
/-- SCHED.STEP_CNT_LO -/
abbrev aSCHED_STEP_CNT_LO : Nat := 0x2c060
/-- SCHED.STEP_CNT_HI -/
abbrev aSCHED_STEP_CNT_HI : Nat := 0x2c064
/-- SCHED.LAST_STEP -/
abbrev aSCHED_LAST_STEP : Nat := 0x2c068
/-- SCHED.QUEUE -/
abbrev aSCHED_QUEUE : Nat := 0x2c06c
/-- SCHED.LEFT_OUT -/
abbrev aSCHED_LEFT_OUT : Nat := 0x2c070
/-- SCHED.CLIENT_BASE_LO -/
abbrev aSCHED_CLIENT_BASE_LO : Nat := 0x2c074
/-- SCHED.CLIENT_BASE_HI -/
abbrev aSCHED_CLIENT_BASE_HI : Nat := 0x2c078
/-- SCHED.CLIENT_SEL -/
abbrev aSCHED_CLIENT_SEL : Nat := 0x2c07c
/-- SCHED.CLIENT_STARTED -/
abbrev aSCHED_CLIENT_STARTED : Nat := 0x2c080
/-- SCHED.CLIENT_COMPLETED -/
abbrev aSCHED_CLIENT_COMPLETED : Nat := 0x2c084
/-- SCHED.CLIENT_ABORTED -/
abbrev aSCHED_CLIENT_ABORTED : Nat := 0x2c088
/-- SCHED.PREEMPT_CNT -/
abbrev aSCHED_PREEMPT_CNT : Nat := 0x2c08c
/-- SCHED.DRAIN_TIMEOUT -/
abbrev aSCHED_DRAIN_TIMEOUT : Nat := 0x2c090
/-- SCHED.PEER_WAIT -/
abbrev aSCHED_PEER_WAIT : Nat := 0x2c094
/-- ATTN.SPAN_CFG -/
abbrev aATTN_SPAN_CFG : Nat := 0x30040
/-- ATTN.MODEL_SEL -/
abbrev aATTN_MODEL_SEL : Nat := 0x30044
/-- ATTN.LAYERS_LO -/
abbrev aATTN_LAYERS_LO : Nat := 0x30048
/-- ATTN.LAYERS_HI -/
abbrev aATTN_LAYERS_HI : Nat := 0x3004c
/-- ATTN.MODEL_CTRL -/
abbrev aATTN_MODEL_CTRL : Nat := 0x30050
/-- ATTN.MODEL_STAT -/
abbrev aATTN_MODEL_STAT : Nat := 0x30054
/-- ATTN.MODEL_VALID -/
abbrev aATTN_MODEL_VALID : Nat := 0x30058
/-- ATTN.SCATTER_BYTES_LO -/
abbrev aATTN_SCATTER_BYTES_LO : Nat := 0x3005c
/-- ATTN.SCATTER_BYTES_HI -/
abbrev aATTN_SCATTER_BYTES_HI : Nat := 0x30060
/-- ATTN.COMPACT_BYTES_LO -/
abbrev aATTN_COMPACT_BYTES_LO : Nat := 0x30064
/-- ATTN.COMPACT_BYTES_HI -/
abbrev aATTN_COMPACT_BYTES_HI : Nat := 0x30068
/-- ATTN.SPANS -/
abbrev aATTN_SPANS : Nat := 0x3006c
/-- ATTN.MERGE_MAX -/
abbrev aATTN_MERGE_MAX : Nat := 0x30070
/-- ATTN.DRAIN_TIMEOUT -/
abbrev aATTN_DRAIN_TIMEOUT : Nat := 0x30074
/-- SAMP.SLOT_SEL -/
abbrev aSAMP_SLOT_SEL : Nat := 0x34040
/-- SAMP.SLOT_VOCAB -/
abbrev aSAMP_SLOT_VOCAB : Nat := 0x34044
/-- SAMP.DIST_CNT_LO -/
abbrev aSAMP_DIST_CNT_LO : Nat := 0x34048
/-- SAMP.DIST_CNT_HI -/
abbrev aSAMP_DIST_CNT_HI : Nat := 0x3404c
/-- SAMP.COUNT_DROP -/
abbrev aSAMP_COUNT_DROP : Nat := 0x34050
/-- SAMP.NAN_ROW_CNT -/
abbrev aSAMP_NAN_ROW_CNT : Nat := 0x34054
/-- SAMP.DEAD_END_CNT -/
abbrev aSAMP_DEAD_END_CNT : Nat := 0x34058
/-- SAMP.BUSY_MAX -/
abbrev aSAMP_BUSY_MAX : Nat := 0x3405c
/-- SAMP.DRAIN_TIMEOUT -/
abbrev aSAMP_DRAIN_TIMEOUT : Nat := 0x34060
/-- SAMP.CFG -/
abbrev aSAMP_CFG : Nat := 0x34064
/-- SPEC.TREE_DEFAULT -/
abbrev aSPEC_TREE_DEFAULT : Nat := 0x38040
/-- SPEC.ECHO_CFG -/
abbrev aSPEC_ECHO_CFG : Nat := 0x38044
/-- SPEC.PROPOSED_LO -/
abbrev aSPEC_PROPOSED_LO : Nat := 0x38048
/-- SPEC.PROPOSED_HI -/
abbrev aSPEC_PROPOSED_HI : Nat := 0x3804c
/-- SPEC.ACCEPTED_LO -/
abbrev aSPEC_ACCEPTED_LO : Nat := 0x38050
/-- SPEC.ACCEPTED_HI -/
abbrev aSPEC_ACCEPTED_HI : Nat := 0x38054
/-- SPEC.DRAIN_TIMEOUT -/
abbrev aSPEC_DRAIN_TIMEOUT : Nat := 0x38058
/-- TEXT.VOCAB_SEL -/
abbrev aTEXT_VOCAB_SEL : Nat := 0x3c040
/-- TEXT.VOCAB_LO -/
abbrev aTEXT_VOCAB_LO : Nat := 0x3c044
/-- TEXT.VOCAB_HI -/
abbrev aTEXT_VOCAB_HI : Nat := 0x3c048
/-- TEXT.VOCAB_CTRL -/
abbrev aTEXT_VOCAB_CTRL : Nat := 0x3c04c
/-- TEXT.VOCAB_STAT -/
abbrev aTEXT_VOCAB_STAT : Nat := 0x3c050
/-- TEXT.GRAM_SEL -/
abbrev aTEXT_GRAM_SEL : Nat := 0x3c054
/-- TEXT.GRAM_LO -/
abbrev aTEXT_GRAM_LO : Nat := 0x3c058
/-- TEXT.GRAM_HI -/
abbrev aTEXT_GRAM_HI : Nat := 0x3c05c
/-- TEXT.GRAM_CTRL -/
abbrev aTEXT_GRAM_CTRL : Nat := 0x3c060
/-- TEXT.GRAM_STAT -/
abbrev aTEXT_GRAM_STAT : Nat := 0x3c064
/-- TEXT.WORK_BASE_LO -/
abbrev aTEXT_WORK_BASE_LO : Nat := 0x3c068
/-- TEXT.WORK_BASE_HI -/
abbrev aTEXT_WORK_BASE_HI : Nat := 0x3c06c
/-- TEXT.WORK_SIZE -/
abbrev aTEXT_WORK_SIZE : Nat := 0x3c070
/-- TEXT.WORK_FREE -/
abbrev aTEXT_WORK_FREE : Nat := 0x3c074
/-- TEXT.TOK_BYTES_LO -/
abbrev aTEXT_TOK_BYTES_LO : Nat := 0x3c078
/-- TEXT.TOK_BYTES_HI -/
abbrev aTEXT_TOK_BYTES_HI : Nat := 0x3c07c
/-- TEXT.TOK_OUT_LO -/
abbrev aTEXT_TOK_OUT_LO : Nat := 0x3c080
/-- TEXT.TOK_OUT_HI -/
abbrev aTEXT_TOK_OUT_HI : Nat := 0x3c084
/-- TEXT.MASK_CNT_LO -/
abbrev aTEXT_MASK_CNT_LO : Nat := 0x3c088
/-- TEXT.MASK_CNT_HI -/
abbrev aTEXT_MASK_CNT_HI : Nat := 0x3c08c
/-- TEXT.MASK_LATE_CNT -/
abbrev aTEXT_MASK_LATE_CNT : Nat := 0x3c090
/-- TEXT.STOP_CNT -/
abbrev aTEXT_STOP_CNT : Nat := 0x3c094
/-- TEXT.CACHE_MISS -/
abbrev aTEXT_CACHE_MISS : Nat := 0x3c098
/-- TEXT.MASK_LATE_MAX -/
abbrev aTEXT_MASK_LATE_MAX : Nat := 0x3c09c
/-- TEXT.DRAIN_TIMEOUT -/
abbrev aTEXT_DRAIN_TIMEOUT : Nat := 0x3c0a0
/-- CUT.CONFIRM_TIMEOUT -/
abbrev aCUT_CONFIRM_TIMEOUT : Nat := 0x40040
/-- CUT.ACCEPT_TIMEOUT -/
abbrev aCUT_ACCEPT_TIMEOUT : Nat := 0x40044
/-- CUT.SETTLE_PROBE -/
abbrev aCUT_SETTLE_PROBE : Nat := 0x40048
/-- CUT.ORPHAN_AGE -/
abbrev aCUT_ORPHAN_AGE : Nat := 0x4004c
/-- CUT.RECORD_AGE -/
abbrev aCUT_RECORD_AGE : Nat := 0x40050
/-- CUT.SLOT_SEL -/
abbrev aCUT_SLOT_SEL : Nat := 0x40054
/-- CUT.MODEL_KEY_LO -/
abbrev aCUT_MODEL_KEY_LO : Nat := 0x40058
/-- CUT.MODEL_KEY_HI -/
abbrev aCUT_MODEL_KEY_HI : Nat := 0x4005c
/-- CUT.RESOLVE_HANDLE -/
abbrev aCUT_RESOLVE_HANDLE : Nat := 0x40060
/-- CUT.RESOLVE -/
abbrev aCUT_RESOLVE : Nat := 0x40064
/-- CUT.RECORDS -/
abbrev aCUT_RECORDS : Nat := 0x40068
/-- CUT.OUT_CNT -/
abbrev aCUT_OUT_CNT : Nat := 0x4006c
/-- CUT.IN_CNT -/
abbrev aCUT_IN_CNT : Nat := 0x40070
/-- CUT.RECLAIM_CNT -/
abbrev aCUT_RECLAIM_CNT : Nat := 0x40074
/-- CUT.ABORT_CNT -/
abbrev aCUT_ABORT_CNT : Nat := 0x40078
/-- CUT.BAD_MSG -/
abbrev aCUT_BAD_MSG : Nat := 0x4007c
/-- CUT.DRAIN_TIMEOUT -/
abbrev aCUT_DRAIN_TIMEOUT : Nat := 0x40080
/-- XPT.UDP_PORT -/
abbrev aXPT_UDP_PORT : Nat := 0x44040
/-- XPT.CONN_SEL -/
abbrev aXPT_CONN_SEL : Nat := 0x44044
/-- XPT.CONN_ADDR -/
abbrev aXPT_CONN_ADDR : Nat := 0x44048
/-- XPT.CONN_DEST -/
abbrev aXPT_CONN_DEST : Nat := 0x44058
/-- XPT.CONN_PORT -/
abbrev aXPT_CONN_PORT : Nat := 0x4405c
/-- XPT.CONN_CTRL -/
abbrev aXPT_CONN_CTRL : Nat := 0x44060
/-- XPT.CONN_STAT -/
abbrev aXPT_CONN_STAT : Nat := 0x44064
/-- XPT.CONN_RATE -/
abbrev aXPT_CONN_RATE : Nat := 0x44068
/-- XPT.RTO -/
abbrev aXPT_RTO : Nat := 0x4406c
/-- XPT.RETRY -/
abbrev aXPT_RETRY : Nat := 0x44070
/-- XPT.ACK_CFG -/
abbrev aXPT_ACK_CFG : Nat := 0x44074
/-- XPT.RATE_CFG -/
abbrev aXPT_RATE_CFG : Nat := 0x44078
/-- XPT.RATE_HOLD -/
abbrev aXPT_RATE_HOLD : Nat := 0x4407c
/-- XPT.RATE_MAX -/
abbrev aXPT_RATE_MAX : Nat := 0x44080
/-- XPT.MGMT_CFG -/
abbrev aXPT_MGMT_CFG : Nat := 0x44084
/-- XPT.SPRAY_CONN -/
abbrev aXPT_SPRAY_CONN : Nat := 0x44088
/-- XPT.REG_COUNT -/
abbrev aXPT_REG_COUNT : Nat := 0x440a8
/-- XPT.REG_SEL -/
abbrev aXPT_REG_SEL : Nat := 0x440ac
/-- XPT.REG_STAT -/
abbrev aXPT_REG_STAT : Nat := 0x440b0
/-- XPT.TX_PKT_LO -/
abbrev aXPT_TX_PKT_LO : Nat := 0x440b4
/-- XPT.TX_PKT_HI -/
abbrev aXPT_TX_PKT_HI : Nat := 0x440b8
/-- XPT.RX_PKT_LO -/
abbrev aXPT_RX_PKT_LO : Nat := 0x440bc
/-- XPT.RX_PKT_HI -/
abbrev aXPT_RX_PKT_HI : Nat := 0x440c0
/-- XPT.RETX_CNT -/
abbrev aXPT_RETX_CNT : Nat := 0x440c4
/-- XPT.DUP_CNT -/
abbrev aXPT_DUP_CNT : Nat := 0x440c8
/-- XPT.STALE_CNT -/
abbrev aXPT_STALE_CNT : Nat := 0x440cc
/-- XPT.VIOL_CNT -/
abbrev aXPT_VIOL_CNT : Nat := 0x440d0
/-- XPT.BAD_CRC -/
abbrev aXPT_BAD_CRC : Nat := 0x440d4
/-- XPT.BAD_NONCE -/
abbrev aXPT_BAD_NONCE : Nat := 0x440d8
/-- XPT.CE_CNT -/
abbrev aXPT_CE_CNT : Nat := 0x440dc
/-- XPT.REC_DROP -/
abbrev aXPT_REC_DROP : Nat := 0x440e0
/-- XPT.DRAIN_TIMEOUT -/
abbrev aXPT_DRAIN_TIMEOUT : Nat := 0x440e4
/-- PEER.NODE -/
abbrev aPEER_NODE : Nat := 0x48040
/-- PEER.PORT_SEL -/
abbrev aPEER_PORT_SEL : Nat := 0x48044
/-- PEER.PORT_CFG -/
abbrev aPEER_PORT_CFG : Nat := 0x48048
/-- PEER.PORT_STAT -/
abbrev aPEER_PORT_STAT : Nat := 0x4804c
/-- PEER.LANE_MAP -/
abbrev aPEER_LANE_MAP : Nat := 0x48050
/-- PEER.FEC_CORR -/
abbrev aPEER_FEC_CORR : Nat := 0x48054
/-- PEER.FEC_UNCORR -/
abbrev aPEER_FEC_UNCORR : Nat := 0x48058
/-- PEER.STALL -/
abbrev aPEER_STALL : Nat := 0x4805c
/-- PEER.TRANSIT_LO -/
abbrev aPEER_TRANSIT_LO : Nat := 0x48060
/-- PEER.TRANSIT_HI -/
abbrev aPEER_TRANSIT_HI : Nat := 0x48064
/-- PEER.LOCAL_LO -/
abbrev aPEER_LOCAL_LO : Nat := 0x48068
/-- PEER.LOCAL_HI -/
abbrev aPEER_LOCAL_HI : Nat := 0x4806c
/-- PEER.ARB -/
abbrev aPEER_ARB : Nat := 0x48070
/-- PEER.ECN_THRESH -/
abbrev aPEER_ECN_THRESH : Nat := 0x48074
/-- PEER.HOP_LIMIT -/
abbrev aPEER_HOP_LIMIT : Nat := 0x48078
/-- PEER.IDLE_CFG -/
abbrev aPEER_IDLE_CFG : Nat := 0x4807c
/-- PEER.CAL_CTRL -/
abbrev aPEER_CAL_CTRL : Nat := 0x48080
/-- PEER.SLOW_CFG -/
abbrev aPEER_SLOW_CFG : Nat := 0x48084
/-- PEER.RT_INDEX -/
abbrev aPEER_RT_INDEX : Nat := 0x48088
/-- PEER.RT_DATA -/
abbrev aPEER_RT_DATA : Nat := 0x4808c
/-- PEER.RT_CTRL -/
abbrev aPEER_RT_CTRL : Nat := 0x48090
/-- PEER.DROP_ROUTE -/
abbrev aPEER_DROP_ROUTE : Nat := 0x48094
/-- PEER.DROP_HOPS -/
abbrev aPEER_DROP_HOPS : Nat := 0x48098
/-- PEER.DROP_DOWN -/
abbrev aPEER_DROP_DOWN : Nat := 0x4809c
/-- PEER.LASER -/
abbrev aPEER_LASER : Nat := 0x480a0
/-- PEER.DRAIN_TIMEOUT -/
abbrev aPEER_DRAIN_TIMEOUT : Nat := 0x480a4
/-- HOST.PORT_CFG -/
abbrev aHOST_PORT_CFG : Nat := 0x4c040
/-- HOST.PORT_STAT -/
abbrev aHOST_PORT_STAT : Nat := 0x4c044
/-- HOST.BASE_MAC_LO -/
abbrev aHOST_BASE_MAC_LO : Nat := 0x4c048
/-- HOST.BASE_MAC_HI -/
abbrev aHOST_BASE_MAC_HI : Nat := 0x4c04c
/-- HOST.PART_SEL -/
abbrev aHOST_PART_SEL : Nat := 0x4c050
/-- HOST.PART_L2 -/
abbrev aHOST_PART_L2 : Nat := 0x4c054
/-- HOST.PART_IPV4 -/
abbrev aHOST_PART_IPV4 : Nat := 0x4c058
/-- HOST.PART_IPV6_ -/
abbrev aHOST_PART_IPV6_ : Nat := 0x4c05c
/-- HOST.GW_MAC_LO -/
abbrev aHOST_GW_MAC_LO : Nat := 0x4c06c
/-- HOST.GW_MAC_HI -/
abbrev aHOST_GW_MAC_HI : Nat := 0x4c070
/-- HOST.POLICE -/
abbrev aHOST_POLICE : Nat := 0x4c074
/-- HOST.POLICE_DROP -/
abbrev aHOST_POLICE_DROP : Nat := 0x4c078
/-- HOST.RX_FRAMES_LO -/
abbrev aHOST_RX_FRAMES_LO : Nat := 0x4c07c
/-- HOST.RX_FRAMES_HI -/
abbrev aHOST_RX_FRAMES_HI : Nat := 0x4c080
/-- HOST.TX_FRAMES_LO -/
abbrev aHOST_TX_FRAMES_LO : Nat := 0x4c084
/-- HOST.TX_FRAMES_HI -/
abbrev aHOST_TX_FRAMES_HI : Nat := 0x4c088
/-- HOST.RX_FCS_ERR -/
abbrev aHOST_RX_FCS_ERR : Nat := 0x4c08c
/-- HOST.RX_FILTER -/
abbrev aHOST_RX_FILTER : Nat := 0x4c090
/-- HOST.RX_FULL -/
abbrev aHOST_RX_FULL : Nat := 0x4c094
/-- HOST.RX_PAUSE -/
abbrev aHOST_RX_PAUSE : Nat := 0x4c098
/-- HOST.FEC_CORR -/
abbrev aHOST_FEC_CORR : Nat := 0x4c09c
/-- HOST.FEC_UNCORR -/
abbrev aHOST_FEC_UNCORR : Nat := 0x4c0a0
/-- HOST.LASER -/
abbrev aHOST_LASER : Nat := 0x4c0a4
/-- HOST.CAL_CTRL -/
abbrev aHOST_CAL_CTRL : Nat := 0x4c0a8
/-- HOST.DRAIN_TIMEOUT -/
abbrev aHOST_DRAIN_TIMEOUT : Nat := 0x4c0ac
/-- EGR.REFILL -/
abbrev aEGR_REFILL : Nat := 0x50040
/-- EGR.SAMPLE -/
abbrev aEGR_SAMPLE : Nat := 0x50044
/-- EGR.QUEUE_SEL -/
abbrev aEGR_QUEUE_SEL : Nat := 0x50048
/-- EGR.Q_CFG -/
abbrev aEGR_Q_CFG : Nat := 0x5004c
/-- EGR.Q_SHAPE -/
abbrev aEGR_Q_SHAPE : Nat := 0x50050
/-- EGR.Q_STAT -/
abbrev aEGR_Q_STAT : Nat := 0x50054
/-- EGR.Q_DEPTH -/
abbrev aEGR_Q_DEPTH : Nat := 0x50058
/-- EGR.Q_DELAY -/
abbrev aEGR_Q_DELAY : Nat := 0x5005c
/-- EGR.Q_TX_LO -/
abbrev aEGR_Q_TX_LO : Nat := 0x50060
/-- EGR.Q_TX_HI -/
abbrev aEGR_Q_TX_HI : Nat := 0x50064
/-- EGR.Q_FULL -/
abbrev aEGR_Q_FULL : Nat := 0x50068
/-- EGR.BUF_FREE -/
abbrev aEGR_BUF_FREE : Nat := 0x5006c
/-- EGR.DRAIN_TIMEOUT -/
abbrev aEGR_DRAIN_TIMEOUT : Nat := 0x50070
/-- SRCH.INDEX_SEL -/
abbrev aSRCH_INDEX_SEL : Nat := 0x54040
/-- SRCH.IDX_CTRL -/
abbrev aSRCH_IDX_CTRL : Nat := 0x54044
/-- SRCH.IDX_FORMAT -/
abbrev aSRCH_IDX_FORMAT : Nat := 0x54048
/-- SRCH.IDX_GRAPH -/
abbrev aSRCH_IDX_GRAPH : Nat := 0x5404c
/-- SRCH.IDX_ITEMS -/
abbrev aSRCH_IDX_ITEMS : Nat := 0x54050
/-- SRCH.IDX_SKETCH_TAG -/
abbrev aSRCH_IDX_SKETCH_TAG : Nat := 0x54054
/-- SRCH.IDX_TOMB_TAG -/
abbrev aSRCH_IDX_TOMB_TAG : Nat := 0x54058
/-- SRCH.IDX_TABLE_TAG -/
abbrev aSRCH_IDX_TABLE_TAG : Nat := 0x5405c
/-- SRCH.IDX_STAT -/
abbrev aSRCH_IDX_STAT : Nat := 0x54060
/-- SRCH.IDX_REPAIRED -/
abbrev aSRCH_IDX_REPAIRED : Nat := 0x54064
/-- SRCH.IDX_DAMAGED -/
abbrev aSRCH_IDX_DAMAGED : Nat := 0x54068
/-- SRCH.IDX_DELETED -/
abbrev aSRCH_IDX_DELETED : Nat := 0x5406c
/-- SRCH.SHARD_SEL -/
abbrev aSRCH_SHARD_SEL : Nat := 0x54070
/-- SRCH.SHARD_ENTRY -/
abbrev aSRCH_SHARD_ENTRY : Nat := 0x54074
/-- SRCH.DEFAULTS -/
abbrev aSRCH_DEFAULTS : Nat := 0x54078
/-- SRCH.MAX_VISIT -/
abbrev aSRCH_MAX_VISIT : Nat := 0x5407c
/-- SRCH.DEADLINE_DEFAULT -/
abbrev aSRCH_DEADLINE_DEFAULT : Nat := 0x54080
/-- SRCH.MERGE_MARGIN -/
abbrev aSRCH_MERGE_MARGIN : Nat := 0x54084
/-- SRCH.SCAN_CFG -/
abbrev aSRCH_SCAN_CFG : Nat := 0x54088
/-- SRCH.REPAIR_CFG -/
abbrev aSRCH_REPAIR_CFG : Nat := 0x5408c
/-- SRCH.QUERY_CNT_LO -/
abbrev aSRCH_QUERY_CNT_LO : Nat := 0x54090
/-- SRCH.QUERY_CNT_HI -/
abbrev aSRCH_QUERY_CNT_HI : Nat := 0x54094
/-- SRCH.FEWER_CNT -/
abbrev aSRCH_FEWER_CNT : Nat := 0x54098
/-- SRCH.LATE_CNT -/
abbrev aSRCH_LATE_CNT : Nat := 0x5409c
/-- SRCH.FAULT_CNT -/
abbrev aSRCH_FAULT_CNT : Nat := 0x540a0
/-- SRCH.BAD_EDGE -/
abbrev aSRCH_BAD_EDGE : Nat := 0x540a4
/-- SRCH.ACTIVE -/
abbrev aSRCH_ACTIVE : Nat := 0x540a8
/-- CKPT.CFG -/
abbrev aCKPT_CFG : Nat := 0x58040
/-- CKPT.TIMER -/
abbrev aCKPT_TIMER : Nat := 0x58044
/-- CKPT.STEPS -/
abbrev aCKPT_STEPS : Nat := 0x58048
/-- CKPT.RING_CONN -/
abbrev aCKPT_RING_CONN : Nat := 0x5804c
/-- CKPT.NEXT_AREA_TAG -/
abbrev aCKPT_NEXT_AREA_TAG : Nat := 0x58050
/-- CKPT.NEXT_MARK_TAG -/
abbrev aCKPT_NEXT_MARK_TAG : Nat := 0x58054
/-- CKPT.HOST_AREA -/
abbrev aCKPT_HOST_AREA : Nat := 0x58058
/-- CKPT.BOUNCE -/
abbrev aCKPT_BOUNCE : Nat := 0x5805c
/-- CKPT.AREA_TAG -/
abbrev aCKPT_AREA_TAG : Nat := 0x58060
/-- CKPT.MARK_TAG -/
abbrev aCKPT_MARK_TAG : Nat := 0x58064
/-- CKPT.LAST_EPOCH -/
abbrev aCKPT_LAST_EPOCH : Nat := 0x58068
/-- CKPT.GEN0_EPOCH -/
abbrev aCKPT_GEN0_EPOCH : Nat := 0x5806c
/-- CKPT.GEN1_EPOCH -/
abbrev aCKPT_GEN1_EPOCH : Nat := 0x58070
/-- CKPT.STATUS -/
abbrev aCKPT_STATUS : Nat := 0x58074
/-- CKPT.MARK_TIMEOUT -/
abbrev aCKPT_MARK_TIMEOUT : Nat := 0x58078
/-- CKPT.CTRL -/
abbrev aCKPT_CTRL : Nat := 0x5807c
/-- CKPT.RESTORE_SET_LO -/
abbrev aCKPT_RESTORE_SET_LO : Nat := 0x58080
/-- CKPT.RESTORE_SET_HI -/
abbrev aCKPT_RESTORE_SET_HI : Nat := 0x58084
/-- CKPT.RESTORE_CTRL -/
abbrev aCKPT_RESTORE_CTRL : Nat := 0x58088
/-- CKPT.RESTORE_EPOCH -/
abbrev aCKPT_RESTORE_EPOCH : Nat := 0x5808c
/-- CKPT.RESTORE_DAMAGED -/
abbrev aCKPT_RESTORE_DAMAGED : Nat := 0x58090
/-- CKPT.CUT_HANDLE -/
abbrev aCKPT_CUT_HANDLE : Nat := 0x58094
/-- CKPT.CUT_RESOLVE -/
abbrev aCKPT_CUT_RESOLVE : Nat := 0x58098
/-- CKPT.STALL_CNT -/
abbrev aCKPT_STALL_CNT : Nat := 0x5809c
/-- CKPT.SKIP_CNT -/
abbrev aCKPT_SKIP_CNT : Nat := 0x580a0
/-- CKPT.FAIL_CNT -/
abbrev aCKPT_FAIL_CNT : Nat := 0x580a4
/-- CKPT.DRAIN_TIMEOUT -/
abbrev aCKPT_DRAIN_TIMEOUT : Nat := 0x580a8
/-- CRC.UNIT_SEL -/
abbrev aCRC_UNIT_SEL : Nat := 0x5c040
/-- CRC.CFG -/
abbrev aCRC_CFG : Nat := 0x5c044
/-- CRC.POLY_LO -/
abbrev aCRC_POLY_LO : Nat := 0x5c048
/-- CRC.POLY_HI -/
abbrev aCRC_POLY_HI : Nat := 0x5c04c
/-- CRC.INIT_LO -/
abbrev aCRC_INIT_LO : Nat := 0x5c050
/-- CRC.INIT_HI -/
abbrev aCRC_INIT_HI : Nat := 0x5c054
/-- CRC.XOROUT_LO -/
abbrev aCRC_XOROUT_LO : Nat := 0x5c058
/-- CRC.XOROUT_HI -/
abbrev aCRC_XOROUT_HI : Nat := 0x5c05c
/-- CRC.SRC_LO -/
abbrev aCRC_SRC_LO : Nat := 0x5c060
/-- CRC.SRC_HI -/
abbrev aCRC_SRC_HI : Nat := 0x5c064
/-- CRC.LEN -/
abbrev aCRC_LEN : Nat := 0x5c068
/-- CRC.CTRL -/
abbrev aCRC_CTRL : Nat := 0x5c06c
/-- CRC.STAT -/
abbrev aCRC_STAT : Nat := 0x5c070
/-- CRC.RESULT_LO -/
abbrev aCRC_RESULT_LO : Nat := 0x5c074
/-- CRC.RESULT_HI -/
abbrev aCRC_RESULT_HI : Nat := 0x5c078
/-- CRC.BYTES -/
abbrev aCRC_BYTES : Nat := 0x5c07c
/-- CRC.DRAIN_TIMEOUT -/
abbrev aCRC_DRAIN_TIMEOUT : Nat := 0x5c080
/-- TEL.PART_SEL -/
abbrev aTEL_PART_SEL : Nat := 0x60040
/-- TEL.SESSIONS -/
abbrev aTEL_SESSIONS : Nat := 0x60044
/-- TEL.STEPS_LO -/
abbrev aTEL_STEPS_LO : Nat := 0x60048
/-- TEL.STEPS_HI -/
abbrev aTEL_STEPS_HI : Nat := 0x6004c
/-- TEL.TOKENS_IN_LO -/
abbrev aTEL_TOKENS_IN_LO : Nat := 0x60050
/-- TEL.TOKENS_IN_HI -/
abbrev aTEL_TOKENS_IN_HI : Nat := 0x60054
/-- TEL.TOKENS_OUT_LO -/
abbrev aTEL_TOKENS_OUT_LO : Nat := 0x60058
/-- TEL.TOKENS_OUT_HI -/
abbrev aTEL_TOKENS_OUT_HI : Nat := 0x6005c
/-- TEL.JOBS_STARTED -/
abbrev aTEL_JOBS_STARTED : Nat := 0x60060
/-- TEL.JOBS_COMPLETED -/
abbrev aTEL_JOBS_COMPLETED : Nat := 0x60064
/-- TEL.JOBS_ABORTED -/
abbrev aTEL_JOBS_ABORTED : Nat := 0x60068
/-- TEL.HEAP_MIB -/
abbrev aTEL_HEAP_MIB : Nat := 0x6006c
/-- TEL.FLASH_MIB -/
abbrev aTEL_FLASH_MIB : Nat := 0x60070
/-- TEL.POWER -/
abbrev aTEL_POWER : Nat := 0x60074
/-- TEL.CLIENT_SEL -/
abbrev aTEL_CLIENT_SEL : Nat := 0x60078
/-- TEL.CLIENT_STARTED -/
abbrev aTEL_CLIENT_STARTED : Nat := 0x6007c
/-- TEL.CLIENT_COMPLETED -/
abbrev aTEL_CLIENT_COMPLETED : Nat := 0x60080
/-- TEL.CLIENT_ABORTED -/
abbrev aTEL_CLIENT_ABORTED : Nat := 0x60084
/-- TEL.SNAP_SEQ -/
abbrev aTEL_SNAP_SEQ : Nat := 0x60088
/-- TEL.TRACE_CTRL -/
abbrev aTEL_TRACE_CTRL : Nat := 0x6008c
/-- TEL.TRACE_TAG -/
abbrev aTEL_TRACE_TAG : Nat := 0x60090
/-- TEL.TRACE_DROP -/
abbrev aTEL_TRACE_DROP : Nat := 0x60094

end Sys2Proof.Machine
end

