-- ==== Sys2Proof/Machine/Operands.lean ====
section
/-! DEFINITION. The operand forms: register addresses, banks and fields (R16, R17, R20), the stored words
of the registers with their three copies (R28), and the common page header (R17). -/

namespace Sys2Proof.Machine

/-- The row of a page that holds an offset. -/
def rowAt (p : Page) (off : Nat) : Option RegRow :=
  (pageRegs p).find? (fun r => r.off ≤ off && off < r.off + 4 * r.n)

/-- The row of a base address (page base + offset below 0x1000). -/
def rowOf (a : Nat) : Option RegRow := rowAt (pageOf (a / 0x4000)) (a % 0x4000)

/-- Mask of the fields of a row that have one of the given access codes. -/
def maskOfAcc (r : RegRow) (p : Acc → Bool) : Word :=
  r.fields.foldl (fun m f => if p f.acc then m ||| maskOf f.hi f.lo else m) 0

/-- Fields that a plain write stores (R20). -/
def storedAcc (a : Acc) : Bool :=
  match a with
  | .rw => true
  | .rwg => true
  | .rwt => true
  | .rwgt => true
  | _ => false

/-- Guarded fields (R20). -/
def guardedAcc (a : Acc) : Bool :=
  match a with
  | .rwg => true
  | .rwgt => true
  | _ => false

/-- Triplicated fields (R28). -/
def tripleAcc (a : Acc) : Bool :=
  match a with
  | .rwt => true
  | .rwgt => true
  | _ => false

/-- Fields that read as 0 (R20). -/
def writeOnlyAcc (a : Acc) : Bool :=
  match a with
  | .wo => true
  | _ => false

/-- W1C fields (R20). -/
def w1cAcc (a : Acc) : Bool :=
  match a with
  | .w1c => true
  | _ => false

/-- A register is guarded when one of its fields is (R24, R26). -/
def rowGuarded (r : RegRow) : Bool := r.fields.any (fun f => guardedAcc f.acc)

/-- The reset word of the fields of a row. -/
def rowReset (r : RegRow) : Word :=
  r.fields.foldl (fun w f => w ||| BitVec.ofNat 32 (f.reset <<< f.lo)) 0

/-- Bank stride of a register key. -/
abbrev bankStride : Nat := 0x100000

/-- Key of a register: bank and base address. -/
def rkey (bank a : Nat) : Nat := bank * bankStride + a

/-- FLASH.GEOMETRY of each part (R1, R138). -/
def geometryOf (v : Variant) : Word :=
  match v with
  | .nvt9404 => 0x04100104
  | .nvt9408 => 0x08200204
  | .nvt9416 => 0x10400404

/-- Reset values that differ by bank or by part: SEC bank 0 (R470), the points of PWR (R431), and
FLASH.GEOMETRY. -/
def specialReset (v : Variant) (bank a : Nat) : Option Word :=
  if a = aFLASH_GEOMETRY then some (geometryOf v)
  else if a = aSEC_PART_CTRL then some (if bank = 0 then 0x5 else 0)
  else if a = aSEC_PART_RES then some (if bank = 0 then 0x00FFFFFF else 0)
  else if a = aSEC_PART_SLOTS then some (if bank = 0 then 0xFFFF else 0)
  else if a = aSEC_PART_CONN then some (if bank = 0 then 0x40000000 else 0)
  else if a = aSEC_PART_DIR then some (if bank = 0 then 0x04000000 else 0)
  else if aPWR_VF_POINT ≤ a ∧ a < aPWR_VF_POINT + 64 then
    some (w32 ((600 + 110 * ((a - aPWR_VF_POINT) / 4)) * 65536 + (550 + 20 * ((a - aPWR_VF_POINT) / 4))))
  else none

/-- The reset value of a register key. -/
def regReset (v : Variant) (key : Nat) : Word :=
  match specialReset v (key / bankStride) (key % bankStride) with
  | some w => w
  | none =>
    match rowOf (key % bankStride) with
    | some r => rowReset r
    | none => 0

/-- The stored value of a register key: the majority of its three copies (R28). -/
def regKey (c : Chip) (key : Nat) : Word :=
  let a := tget (regReset c.variant key) c.mgmt.regs key
  majority a (a ^^^ tget 0 c.mgmt.copy1 key) (a ^^^ tget 0 c.mgmt.copy2 key)

/-- A register that is not banked. -/
def reg (c : Chip) (a : Nat) : Word := regKey c (rkey 0 a)

/-- A register of a bank. -/
def regB (c : Chip) (bank a : Nat) : Word := regKey c (rkey bank a)

/-- Stores the masked bits of a word into all three copies (R20). -/
def setKey (c : Chip) (key : Nat) (mask v : Word) : Chip :=
  let old := tget (regReset c.variant key) c.mgmt.regs key
  let new := (old &&& ~~~mask) ||| (v &&& mask)
  { c with mgmt := { c.mgmt with
      regs := tset (regReset c.variant key) c.mgmt.regs key new
      copy1 := tset 0 c.mgmt.copy1 key (tget 0 c.mgmt.copy1 key &&& ~~~mask)
      copy2 := tset 0 c.mgmt.copy2 key (tget 0 c.mgmt.copy2 key &&& ~~~mask) } }

/-- Stores a whole word. -/
def setReg (c : Chip) (a : Nat) (v : Word) : Chip := setKey c (rkey 0 a) (BitVec.allOnes 32) v

/-- Stores a whole word in a bank. -/
def setRegB (c : Chip) (bank a : Nat) (v : Word) : Chip := setKey c (rkey bank a) (BitVec.allOnes 32) v

/-- Stores one field. -/
def setFld (c : Chip) (a hi lo v : Nat) : Chip :=
  setKey c (rkey 0 a) (maskOf hi lo) (BitVec.ofNat 32 (v <<< lo))

/-- Stores one field in a bank. -/
def setFldB (c : Chip) (bank a hi lo v : Nat) : Chip :=
  setKey c (rkey bank a) (maskOf hi lo) (BitVec.ofNat 32 (v <<< lo))

/-- The value of a _LO, _HI pair (R27). -/
def pairB (c : Chip) (bank lo : Nat) : Nat :=
  (regB c bank lo).toNat + 2 ^ 32 * (regB c bank (lo + 4)).toNat

/-- The value of a pair that is not banked. -/
def pair (c : Chip) (lo : Nat) : Nat := pairB c 0 lo

/-- Stores a pair. -/
def setPairB (c : Chip) (bank lo v : Nat) : Chip :=
  setRegB (setRegB c bank lo (w32 v)) bank (lo + 4) (w32 (v / 2 ^ 32))

/-- Stores a pair that is not banked. -/
def setPair (c : Chip) (lo v : Nat) : Chip := setPairB c 0 lo v

/-- Adds to a 32-bit counter, which saturates. -/
def bumpB (c : Chip) (bank a n : Nat) : Chip :=
  if n = 0 then c else setRegB c bank a (w32 (sat32 ((regB c bank a).toNat + n)))

/-- Adds to a 32-bit counter that is not banked. -/
def bump (c : Chip) (a n : Nat) : Chip := bumpB c 0 a n

/-- Adds to a 64-bit counter. -/
def bumpPair (c : Chip) (lo n : Nat) : Chip := if n = 0 then c else setPair c lo (pair c lo + n)

/-- Adds to a 64-bit counter of a bank. -/
def bumpPairB (c : Chip) (bank lo n : Nat) : Chip :=
  if n = 0 then c else setPairB c bank lo (pairB c bank lo + n)

/-! ### The common header (R17) -/

/-- The header of a page at reset. -/
def hdrReset (p : Nat) : BlockHdr :=
  { state := if p < 5 then .on else .off, enable := decide (p < 5), drain := false, selftest := false,
    softReset := false, odd0 := 0, odd1 := 0, odd2 := 0, drainForced := false, stFail := false, stRan := false, int := 0, intEn := 0, voteCount := 0,
    voteOffset := 0, voteNomaj := false, votePending := false, before := none }

/-- The header of a page. -/
def hdr (c : Chip) (p : Page) : BlockHdr := tget (hdrReset (pageIdx p)) c.mgmt.blocks (pageIdx p)

/-- Writes the header of a page. -/
def setHdr (c : Chip) (p : Page) (h : BlockHdr) : Chip :=
  { c with mgmt := { c.mgmt with
      blocks := tset (hdrReset (pageIdx p)) c.mgmt.blocks (pageIdx p) h } }

/-- State of a block (R31). -/
def bstate (c : Chip) (p : Page) : BState := (hdr c p).state

/-- A block that accepts new work: ON (R31). -/
def isOn (c : Chip) (p : Page) : Bool := decide (bstate c p = .on)

/-- A block whose hardware works on what it has accepted: ON or DRAINING (R31). -/
def isUp (c : Chip) (p : Page) : Bool := decide (bstate c p = .on ∨ bstate c p = .draining)

/-- Code of a state in BLK_STAT (R17). -/
def bstateCode (s : BState) : Nat :=
  match s with
  | .off => 0
  | .on => 1
  | .draining => 2
  | .disabled => 3
  | .testing => 4
  | .fault => 5

/-! ### Requesters (R10) -/

/-- What a requester holds. -/
def reqState (c : Chip) (r : Requester) : ReqState :=
  match r with
  | .sideband => c.mgmt.sideband
  | .conn n => tget ReqState.empty c.mgmt.inband n.toNat

/-- Writes what a requester holds. -/
def setReqState (c : Chip) (r : Requester) (q : ReqState) : Chip :=
  match r with
  | .sideband => { c with mgmt := { c.mgmt with sideband := q } }
  | .conn n => { c with mgmt := { c.mgmt with
      inband := tset ReqState.empty c.mgmt.inband n.toNat q } }

/-- The result of a management access. -/
def answer (c : Chip) (st : Nat) (d : Word) : Chip :=
  { c with mgmt := { c.mgmt with acc := { status := BitVec.ofNat 8 st, data := d } } }

/-! ### Handles (R37) -/

/-- Partition of a handle. -/
def hPart (h : Word) : Nat := fld h 31 29
/-- Directory index of a handle. -/
def hIdx (h : Word) : Nat := fld h 28 7
/-- Generation of a handle. -/
def hGen (h : Word) : Nat := fld h 6 0
/-- The handle of partition, index and generation. -/
def mkHandle (part idx gen : Nat) : Word := w32 (part * 2 ^ 29 + idx * 2 ^ 7 + gen)

end Sys2Proof.Machine
end

