-- ==== Sys2Proof/Machine/Flags.lean ====
section
/-! DEFINITION. Flags: the levels of the output pins (R480, R524, R529), the states that partitions and
the power domains put the pages in, and the form of a meaning, which leaves the pins as the state sets
them. -/

namespace Sys2Proof.Machine

/-- The minuet domain runs: auxiliary supply at or above 3.135 V (R489, R492). -/
def minuetOn (c : Chip) : Bool := 3135 ≤ c.chip.auxMv

/-- The alert line is asserted (R480): FLT.BLK_INT.CHIP or MODULE set with its enable bit, or
MODULE.FAULTED. -/
def alertOn (c : Chip) : Bool :=
  let h := hdr c .flt
  c.flt.faulted || bit (h.int &&& h.intEn) 18 || bit (h.int &&& h.intEn) 19

/-- The TAP takes the pins from the die (R463): they follow the boundary register, contact k in bit k - 1, or nothing
drives them. -/
def tapPins (c : Chip) : Option Pins :=
  match c.tap.instr with
  | .extest => some { alertLow := !c.tap.boundary.getLsbD 2, tripLow := !c.tap.boundary.getLsbD 3, auxGood := c.tap.boundary.getLsbD 13 }
  | .clamp => some { alertLow := !c.tap.boundary.getLsbD 2, tripLow := !c.tap.boundary.getLsbD 3, auxGood := c.tap.boundary.getLsbD 13 }
  | .highz => some { alertLow := false, tripLow := false, auxGood := false }
  | .intest => none
  | .idcode => none
  | .bypass => none
  | .samplePreload => none

/-- The levels of the output pins (R524, R529); without the auxiliary supply none is driven, and under a scan
instruction the TAP has them. -/
def pinsOf (c : Chip) : Pins :=
  if minuetOn c then
    (tapPins c).getD { alertLow := alertOn c, tripLow := c.pwr.tripped, auxGood := true }
  else { alertLow := false, tripLow := false, auxGood := false }

/-- The chip with its output pins driven as its state sets them. -/
def drivePins (c : Chip) : Chip := { c with pins := pinsOf c }

/-- The form of every meaning: the command's effect on the chip, then the pins; the queue of waiting
commands is untouched. -/
def act (s : State) (f : Chip → Chip) : Host.Outcome State Fault Refusal :=
  .next { s with toChip := drivePins (f s.toChip) }

/-- The fast domain runs (R493). -/
def fastRuns (c : Chip) : Bool := decide (c.chip.fast = .run)

/-- A command of the fast domain acts while the domain runs, no module fault is in force and the module is not
tripped (R443, R477, R493). -/
def whenAwake (c : Chip) (f : Chip → Chip) : Chip :=
  if fastRuns c && !c.flt.faulted && !c.pwr.tripped then f c else c

/-- State of a partition at reset (R448): partition 0 VALID, the others INVALID. -/
def secPartReset (p : Nat) : SecPart :=
  { state := if p = 0 then .valid else .invalid, purged := false, debug := false, profile := false,
    mp0 := List.replicate 32 0, mp1 := List.replicate 32 0, extend := [] }

/-- SEC of a partition. -/
def secPart (c : Chip) (p : Nat) : SecPart := tget (secPartReset p) c.sec.parts p

/-- Writes SEC of a partition. -/
def setSecPart (c : Chip) (p : Nat) (x : SecPart) : Chip :=
  { c with sec := { c.sec with parts := tset (secPartReset p) c.sec.parts p x } }

/-- A partition that holds its units: not INVALID (R450). -/
def partHolds (c : Chip) (p : Nat) : Bool := decide ((secPart c p).state ≠ .invalid)

/-- A partition that accepts new work: VALID (R450, R451). -/
def partValid (c : Chip) (p : Nat) : Bool := decide ((secPart c p).state = .valid)

/-- Every partition number. -/
def parts8 : List Nat := [0, 1, 2, 3, 4, 5, 6, 7]

/-- Base and count of a partition's connection range (R470). -/
def connRange (c : Chip) (p : Nat) : Nat × Nat :=
  let w := regB c p aSEC_PART_CONN
  (fld w 13 0, fld w 30 16)

/-- Base and count of a partition's directory range, in entries (R447, R470). -/
def dirRange (c : Chip) (p : Nat) : Nat × Nat :=
  let w := regB c p aSEC_PART_DIR
  (4096 * fld w 9 0, 4096 * fld w 26 16)

/-- The partition whose connection range holds a number (R314). -/
def partOfConn (c : Chip) (n : Nat) : Option Nat :=
  parts8.find? (fun p => partHolds c p && (connRange c p).1 ≤ n && n < (connRange c p).1 + (connRange c p).2)

/-- The partition whose directory range holds an index (R39). -/
def partOfIdx (c : Chip) (n : Nat) : Option Nat :=
  parts8.find? (fun p => partHolds c p && (dirRange c p).1 ≤ n && n < (dirRange c p).1 + (dirRange c p).2)

/-- The partition a requester acts for (R314, R447): the sideband acts for partition 0. -/
def reqPart (c : Chip) (r : Requester) : Nat :=
  match r with
  | .sideband => 0
  | .conn n => (partOfConn c n.toNat).getD 0

end Sys2Proof.Machine
end

