-- ==== Sys2Proof/Machine/Float.lean ====
section
/-! DEFINITION. Number formats and their arithmetic (R172-R179): values as exact dyadic numbers, one
rounding to nearest even, and the vector operations on FP32 bits. -/

namespace Sys2Proof.Machine

/-- A floating value: NaN, infinity with its sign, or (-1)^neg * m * 2^e. -/
inductive Fp
  | nan
  | inf (neg : Bool)
  | fin (neg : Bool) (m : Nat) (e : Int)
  deriving DecidableEq, Repr

/-- A binary format (R172): total bits, precision with the hidden bit, exponent of the least subnormal
bit, code of infinity (or the first code past the finite ones), the largest finite code, whether it has
infinities, and its NaN code. -/
structure Fmt where
  bits : Nat
  prec : Nat
  emin : Int
  top : Nat
  maxFin : Nat
  hasInf : Bool
  nanCode : Nat
  deriving DecidableEq, Repr

/-- FP32. -/
def fmtFp32 : Fmt := ⟨32, 24, -149, 0x7F800000, 0x7F7FFFFF, true, 0x7FC00000⟩
/-- BF16. -/
def fmtBf16 : Fmt := ⟨16, 8, -133, 0x7F80, 0x7F7F, true, 0x7FC0⟩
/-- FP8 E5M2. -/
def fmtE5m2 : Fmt := ⟨8, 3, -16, 0x7C, 0x7B, true, 0x7E⟩
/-- FP8 E4M3. -/
def fmtE4m3 : Fmt := ⟨8, 4, -9, 0x7F, 0x7E, false, 0x7F⟩

/-- m * 2^e as an integer multiple of 2^t, exact when t is at most e. -/
def shiftUp (m : Nat) (e t : Int) : Nat := m * 2 ^ (e - t).toNat

/-- Division of naturals with rounding to nearest, ties to even. -/
def divRne (a b : Nat) : Nat :=
  let q := a / b
  let r := a % b
  if 2 * r > b ∨ (2 * r = b ∧ q % 2 = 1) then q + 1 else q

/-- The code of the value m * 2^e (m > 0) in a format, before any overflow rule (R177). -/
def roundCode (f : Fmt) (m : Nat) (e : Int) : Nat :=
  let l : Int := (Nat.log2 m : Int) + 1
  let t := max (e + l - f.prec) f.emin
  let q := if t ≤ e then shiftUp m e t else divRne m (2 ^ (t - e).toNat)
  (t - f.emin).toNat * 2 ^ (f.prec - 1) + q

/-- Rounds a value into a format. `sat` selects the overflow of a narrowing conversion to FP8 (R177):
the largest finite value; otherwise overflow gives infinity. -/
def encodeFp (f : Fmt) (sat : Bool) (v : Fp) : Nat :=
  let sign (n : Bool) : Nat := if n then 2 ^ (f.bits - 1) else 0
  match v with
  | .nan => f.nanCode
  | .inf n => sign n + (if f.hasInf then f.top else f.maxFin)
  | .fin n m e =>
    if m = 0 then sign n
    else
      let c := roundCode f m e
      if c ≤ f.maxFin then sign n + c
      else sign n + (if sat || !f.hasInf then f.maxFin else f.top)

/-- The value of a code of a format (R172). -/
def decodeFp (f : Fmt) (code : Nat) : Fp :=
  let neg := nbit code (f.bits - 1)
  let b := code % 2 ^ (f.bits - 1)
  if f.hasInf ∧ b = f.top then .inf neg
  else if f.maxFin < b then .nan
  else
    let ex := b / 2 ^ (f.prec - 1)
    let mt := b % 2 ^ (f.prec - 1)
    if ex = 0 then .fin neg mt f.emin
    else .fin neg (mt + 2 ^ (f.prec - 1)) (f.emin + (ex : Int) - 1)

/-- Value of an FP32 word. -/
def fpOf (w : Word) : Fp := decodeFp fmtFp32 w.toNat
/-- The quiet NaN that a vector operation returns: its sign and payload are left open (R178; log entry
8). -/
def quietNan : Word := 0x7FC00000 ||| (Config.nanBits &&& 0x803FFFFF)

/-- FP32 word nearest a value. -/
def fpTo (v : Fp) : Word :=
  match v with
  | .nan => quietNan
  | x => w32 (encodeFp fmtFp32 false x)

/-- Exact sum; a zero sum is +0 unless both are -0 (IEEE 754, R178). -/
def fpAdd (a b : Fp) : Fp :=
  match a, b with
  | .nan, _ => .nan
  | _, .nan => .nan
  | .inf s, .inf t => if s = t then .inf s else .nan
  | .inf s, .fin _ _ _ => .inf s
  | .fin _ _ _, .inf t => .inf t
  | .fin s m e, .fin t n g =>
    let k := min e g
    let x : Int := (if s then -1 else 1) * (shiftUp m e k : Int)
    let y : Int := (if t then -1 else 1) * (shiftUp n g k : Int)
    let z := x + y
    if z = 0 then .fin (s && t) 0 k else .fin (decide (z < 0)) z.natAbs k

/-- Sign change. -/
def fpNeg (a : Fp) : Fp :=
  match a with
  | .nan => .nan
  | .inf s => .inf (!s)
  | .fin s m e => .fin (!s) m e

/-- Exact product. -/
def fpMul (a b : Fp) : Fp :=
  match a, b with
  | .nan, _ => .nan
  | _, .nan => .nan
  | .inf s, .inf t => .inf (s != t)
  | .inf s, .fin t n _ => if n = 0 then .nan else .inf (s != t)
  | .fin s m _, .inf t => if m = 0 then .nan else .inf (s != t)
  | .fin s m e, .fin t n g => .fin (s != t) (m * n) (e + g)

/-- a < b; false when either is NaN. -/
def fpLt (a b : Fp) : Bool :=
  match a, b with
  | .nan, _ => false
  | _, .nan => false
  | .inf s, .inf t => s && !t
  | .inf s, .fin _ _ _ => s
  | .fin _ _ _, .inf t => !t
  | .fin s m e, .fin t n g =>
    let k := min e g
    let x : Int := (if s then -1 else 1) * (shiftUp m e k : Int)
    let y : Int := (if t then -1 else 1) * (shiftUp n g k : Int)
    decide (x < y)

/-- Equality of values; +0 equals -0; false on NaN. -/
def fpEq (a b : Fp) : Bool :=
  match a, b with
  | .nan, _ => false
  | _, .nan => false
  | .inf s, .inf t => s = t
  | .inf _, .fin _ _ _ => false
  | .fin _ _ _, .inf _ => false
  | .fin _ _ _, .fin _ _ _ => !fpLt a b && !fpLt b a

/-- Whether a value is NaN. -/
def fpNan (a : Fp) : Bool := decide (a = .nan)

/-- A value that is zero. -/
def fpZero (a : Fp) : Bool :=
  match a with
  | .fin _ m _ => m = 0
  | _ => false

/-- Sign of a value that is not NaN. -/
def fpSign (a : Fp) : Bool :=
  match a with
  | .nan => false
  | .inf s => s
  | .fin s _ _ => s

/-! ### Vector arithmetic on FP32 words (R178) -/

/-- rne(a + b). -/
def fadd (a b : Word) : Word := fpTo (fpAdd (fpOf a) (fpOf b))
/-- rne(a - b). -/
def fsub (a b : Word) : Word := fpTo (fpAdd (fpOf a) (fpNeg (fpOf b)))
/-- rne(a * b). -/
def fmul (a b : Word) : Word := fpTo (fpMul (fpOf a) (fpOf b))
/-- rne(a * b + c), rounded once. -/
def ffma (a b c : Word) : Word := fpTo (fpAdd (fpMul (fpOf a) (fpOf b)) (fpOf c))

/-- VMAX of one lane (R178). -/
def fmax (a b : Word) : Word :=
  let x := fpOf a
  let y := fpOf b
  if fpNan x && fpNan y then fpTo .nan
  else if fpNan x then b
  else if fpNan y then a
  else if fpZero x && fpZero y then (if fpSign x then b else a)
  else if fpLt x y then b else a

/-- VMIN of one lane (R178). -/
def fmin (a b : Word) : Word :=
  let x := fpOf a
  let y := fpOf b
  if fpNan x && fpNan y then fpTo .nan
  else if fpNan x then b
  else if fpNan y then a
  else if fpZero x && fpZero y then (if fpSign x then a else b)
  else if fpLt y x then b else a

/-- Comparison of FMT 0 equal, 1 less, 2 less or equal, 3 unordered (R178, R149). -/
def fcmp (fmt : Nat) (a b : Word) : Bool :=
  let x := fpOf a
  let y := fpOf b
  if fmt = 0 then fpEq x y
  else if fmt = 1 then fpLt x y
  else if fmt = 2 then fpLt x y || fpEq x y
  else fpNan x || fpNan y

/-- Adds neighbours, then their sums, until one is left (R178). -/
def pairSum : Nat → List Word → List Word
  | 0, l => l
  | _ + 1, [] => []
  | _ + 1, [a] => [a]
  | n + 1, a :: b :: r => fadd a b :: pairSum n r

/-- VRED sum of 64 lanes (R178): six levels of pairs. -/
def vredSum (l : List Word) : Word :=
  ((List.range 6).foldl (fun x _ => pairSum 64 x) l).headD 0

/-- VRED maximum of the lanes. -/
def vredMax (l : List Word) : Word :=
  match l with
  | [] => 0
  | a :: r => r.foldl fmax (if fpNan (fpOf a) then fpTo .nan else a)

/-! ### Special functions (R179) -/

/-- Integer square root, from the highest bit, with fuel. -/
def isqrtFrom : Nat → Nat → Nat → Nat
  | 0, _, r => r
  | k + 1, n, r => isqrtFrom k n (if (r + 2 ^ k) * (r + 2 ^ k) ≤ n then r + 2 ^ k else r)

/-- Integer square root. -/
def isqrt (n : Nat) : Nat := isqrtFrom (Nat.log2 n / 2 + 1) n 0

/-- 1 / (m * 2^e) as a dyadic number with a sticky bit far below an FP32 rounding. -/
def recipDy (m : Nat) (e : Int) : Nat × Int :=
  let k := Nat.log2 m + 80
  (2 * (2 ^ k / m) + (if 2 ^ k % m = 0 then 0 else 1), -e - (k : Int) - 1)

/-- 1 / sqrt (m * 2^e), as `recipDy`. -/
def rsqrtDy (m : Nat) (e : Int) : Nat × Int :=
  let n := if e % 2 = 0 then m else 2 * m
  let f := if e % 2 = 0 then e else e - 1
  let k := Nat.log2 n + 80
  let y := isqrt (2 ^ (2 * k) / n)
  (2 * y + (if y * y * n = 2 ^ (2 * k) then 0 else 1), -(f / 2) - (k : Int) - 1)

/-- 2^(f / 2^64) in units of 2^-96: the product of the roots of 2 that the bits of `f` select. -/
def exp2Frac (f : Nat) : Nat :=
  ((List.range 64).foldl (fun (a : Nat × Nat) i =>
    let r := isqrt (a.2 * 2 ^ 96)
    (if nbit f (63 - i) then a.1 * r / 2 ^ 96 else a.1, r)) (2 ^ 96, 2 ^ 97)).1

/-- 2^x for x = (-1)^neg * m * 2^e, to about 2^-60 of its size. Bits of x below 2^-64 are taken away from zero, so that
the result lies on the true side of 1. -/
def exp2Dy (neg : Bool) (m : Nat) (e : Int) : Nat × Int :=
  let k := (-64 - e).toNat
  let mag : Int := if -64 ≤ e then ((m * 2 ^ (e + 64).toNat : Nat) : Int) else (((m + 2 ^ k - 1) / 2 ^ k : Nat) : Int)
  let x : Int := if neg then -mag else mag
  (exp2Frac (x % 2 ^ 64).toNat, x / 2 ^ 64 - 96)

/-- A finite word of the given sign lies within `k` FP32 ulp of m * 2^e (R179). -/
def nearDy (k : Nat) (neg : Bool) (r : Word) (m : Nat) (e : Int) : Bool :=
  match fpOf r with
  | .fin s m' e' =>
    let u : Int := max (-149) (e + (Nat.log2 m : Int) - 23)
    let lo : Int := min (min e e') u
    let x : Int := ((m * 2 ^ (e - lo).toNat : Nat) : Int)
    let y : Int := ((m' * 2 ^ (e' - lo).toNat : Nat) : Int)
    s = neg && decide ((x - y).natAbs ≤ k * 2 ^ (u - lo).toNat)
  | _ => false

/-- A result inside the error of R179: the open one where it lies inside, else the rounded value. -/
def boundedDy (k : Nat) (neg : Bool) (r : Word) (y : Nat × Int) : Word :=
  if nearDy k neg r y.1 y.2 then r else fpTo (.fin neg y.1 y.2)

/-- VEXP2 (R179): the special inputs, otherwise a value within 2 ulp (log entry 4). -/
def fexp2 (a : Word) : Word :=
  let x := fpOf a
  if fpNan x then fpTo .nan
  else if fpLt x (.fin true 150 0) then 0
  else if !fpLt x (.fin false 128 0) then fpTo (.inf false)
  else
    match x with
    | .fin s m e => boundedDy 2 false (Config.vexp2 a) (exp2Dy s m e)
    | _ => 0

/-- VRCP (R179): within 1 ulp. -/
def frcp (a : Word) : Word :=
  match fpOf a with
  | .nan => fpTo .nan
  | .inf s => fpTo (.fin s 0 0)
  | .fin s m e => if m = 0 then fpTo (.inf s) else boundedDy 1 s (Config.vrcp a) (recipDy m e)

/-- VRSQ (R179): within 2 ulp. -/
def frsq (a : Word) : Word :=
  match fpOf a with
  | .nan => fpTo .nan
  | .inf s => if s then fpTo .nan else 0
  | .fin s m e =>
    if m = 0 then fpTo (.inf s)
    else if s then fpTo .nan
    else boundedDy 2 false (Config.vrsq a) (rsqrtDy m e)

/-- 1 / x, rounded once (the sampler's reciprocals, R249). -/
def finv (a : Word) : Word :=
  match fpOf a with
  | .nan => fpTo .nan
  | .inf s => fpTo (.fin s 0 0)
  | .fin s m e => if m = 0 then fpTo (.inf s) else fpTo (.fin s (recipDy m e).1 (recipDy m e).2)

/-! ### Narrow formats (R177) -/

/-- BF16 code of a value. -/
def toBf16 (v : Fp) : Nat := encodeFp fmtBf16 false v
/-- BF16 code of an FP32 word; a NaN gives a quiet NaN with its sign (R177), the rest of its payload open
(log entry 8). -/
def bf16Of (w : Word) : Nat :=
  if fpNan (fpOf w) then
    (if bit w 31 then 0xFFC0 else 0x7FC0) + fld Config.nanBits 21 16
  else toBf16 (fpOf w)
/-- FP32 word of a BF16 code: exact. -/
def ofBf16 (b : Nat) : Word := w32 (b * 65536)

/-- Bytes of an element of VLD, VST and MOUT: FMT 0 FP32, 1 BF16, 2 E4M3, 3 E5M2 (R149, R174). -/
def elemBytes (fmt : Nat) : Nat := if fmt = 0 then 4 else if fmt = 1 then 2 else 1

/-- FP32 word of an element code (R177: widening is exact). -/
def widen (fmt code : Nat) : Word :=
  if fmt = 0 then w32 code
  else if fmt = 1 then ofBf16 code
  else if fmt = 2 then fpTo (decodeFp fmtE4m3 code)
  else fpTo (decodeFp fmtE5m2 code)

/-- Element code of an FP32 word (R177). The sign of an FP8 NaN, and the mantissa of an E5M2 NaN above
zero, are open (log entry 8). -/
def narrow (fmt : Nat) (w : Word) : Nat :=
  if fmt = 0 then w.toNat
  else if fmt = 1 then bf16Of w
  else if fpNan (fpOf w) then
    128 * fld Config.nanBits 31 31 +
      (if fmt = 2 then 0x7F else 0x7D + min 2 (fld Config.nanBits 17 16))
  else if fmt = 2 then encodeFp fmtE4m3 true (fpOf w)
  else
    match fpOf w with
    | .inf s => encodeFp fmtE5m2 false (.inf s)
    | v => encodeFp fmtE5m2 true v

/-- FP32 word of a 32-bit two's complement integer, rounded (R176). -/
def fpOfInt (w : Word) : Word :=
  let z := w.toInt
  fpTo (.fin (decide (z < 0)) z.natAbs 0)

end Sys2Proof.Machine
end

