-- ==== Sys2Proof/Machine/Bundle.lean ====
section
/-! DEFINITION. Bundles (R455, R456, R500-R503): the boot NOR, the manifest, the section table, the program
library (R144, R145) and the configuration images. -/

namespace Sys2Proof.Machine

/-- Reads `n` bytes of a bundle from an offset. -/
abbrev Source := Nat → Nat → List Byte

/-- A byte of the boot NOR; an unlisted byte is erased, 0xFF (log entry 29). -/
def norGet (c : Chip) (a : Nat) : Byte := tget 0xFF c.chip.nor a

/-- Writes bytes of the boot NOR. -/
def norPut (c : Chip) (a : Nat) (l : List Byte) : Chip :=
  { c with chip := { c.chip with
      nor := (numbered l).foldl (fun m e => tset 0xFF m (a + e.1) e.2) c.chip.nor } }

/-- Erases a range of the boot NOR. -/
def norErase (c : Chip) (a n : Nat) : Chip :=
  { c with chip := { c.chip with nor := c.chip.nor.filter (fun e => e.1 < a || a + n ≤ e.1) } }

/-- Bytes of a bank (R500). -/
abbrev bankBytes : Nat := 33488896

/-- First byte of a bank (R500): A 0, B 0x200_0000. -/
def bankBase (b : Bool) : Nat := if b then 0x2000000 else 0

/-- A bank of the boot NOR. -/
def bankSource (c : Chip) (b : Bool) : Source :=
  fun o n => (List.range n).map (fun i => if o + i < bankBytes then norGet c (bankBase b + o + i) else 0xFF)

/-- A bundle given as bytes. -/
def listSource (l : List Byte) : Source := fun o n => slice l o n

/-- Offset of the body (R455). -/
abbrev bodyAt : Nat := 29952

/-- SVN, KEY_SLOT, BODY_LEN, BODY_DIGEST, PUBKEY and BUNDLE_ID of a manifest (R455). -/
def mfSvn (m : List Byte) : Nat := rdLE m 3 1
/-- KEY_SLOT. -/
def mfSlot (m : List Byte) : Nat := rdLE m 4 1
/-- BODY_LEN. -/
def mfLen (m : List Byte) : Nat := rdLE m 8 8
/-- BODY_DIGEST. -/
def mfDigest (m : List Byte) : List Byte := slice m 0x10 32
/-- PUBKEY. -/
def mfKey (m : List Byte) : List Byte := slice m 0x30 64
/-- BUNDLE_ID. -/
def mfId (m : List Byte) : DWord := w64 (rdLE m 0x70 8)

/-- A section (R500): TYPE, LENGTH, offset from the start of the body. -/
def sections (src : Source) : List (Nat × Nat × Nat) :=
  let n := rdLE (src bodyAt 4) 0 4
  (List.range n).map (fun i =>
    let e := src (bodyAt + 8 + 16 * i) 16
    (rdLE e 0 4, rdLE e 4 4, rdLE e 8 8))

/-- The sections of a TYPE. -/
def sectionsOf (src : Source) (t : Nat) : List (Nat × Nat × Nat) := (sections src).filter (fun s => s.1 = t)

/-! ### Configuration images (R503) -/

/-- Header of an image. -/
def imgHeader (src : Source) (s : Nat × Nat × Nat) : List Byte := src (bodyAt + s.2.2) 16
/-- NUMBER of an image. -/
def imgNumber (src : Source) (s : Nat × Nat × Nat) : Nat := rdLE (imgHeader src s) 2 1
/-- COUNT of an image. -/
def imgCount (src : Source) (s : Nat × Nat × Nat) : Nat := rdLE (imgHeader src s) 4 2
/-- The whole image: header and entries. -/
def imgBytes (src : Source) (s : Nat × Nat × Nat) : List Byte := src (bodyAt + s.2.2) (16 + 8 * imgCount src s)
/-- The entries of an image: ADDR and DATA. -/
def imgWrites (src : Source) (s : Nat × Nat × Nat) : List (Word × Word) :=
  (chunksOf (imgCount src s) 8 ((imgBytes src s).drop 16)).map (fun e => (w32 (rdLE e 0 4), w32 (rdLE e 4 4)))

/-- An entry may stand in an image: a base address of a register at 0x040 or above, not of SEC; the base
image may also write BLK_CTRL (R503). -/
def imgEntryOk (base : Bool) (a : Nat) : Bool :=
  let off := a % 0x4000
  a / 0x4000 ≤ 0x18 && a / 0x4000 ≠ pageIdx .sec && off < 0x1000 && off % 4 = 0 &&
    ((base && decide (off = 8)) || (0x40 ≤ off && (rowOf a).isSome))

/-- The header ranges, CRC and entries of an image (R503). -/
def imgOk (src : Source) (base : Bool) (s : Nat × Nat × Nat) : Bool :=
  let h := imgHeader src s
  let n := imgCount src s
  let b := imgBytes src s
  rdLE h 0 2 = 0x4F56 && 1 ≤ n && n ≤ (if base then 16384 else 256) && 16 + 8 * n ≤ s.2.1 &&
    (if base then imgNumber src s = 0xFF else imgNumber src s ≤ 15) &&
    rdLE h 12 4 = crc32c (b.take 12 ++ b.drop 16) &&
    (imgWrites src s).all (fun e => imgEntryOk base e.1.toNat)

/-- The overlay image of a number. -/
def overlayOf (src : Source) (n : Nat) : Option (Nat × Nat × Nat) :=
  (sectionsOf src 2).find? (fun s => imgNumber src s = n)

/-- CHIP.OVL_PRESENT. -/
def ovlPresent (src : Source) : Nat :=
  (List.range 16).foldl (fun a n => if (overlayOf src n).isSome then a + 2 ^ n else a) 0

/-! ### The program library (R144, R145) -/

/-- The opcodes of R150. -/
def opcodes : List Nat :=
  [0x00, 0x01, 0x02, 0x03, 0x04, 0x05, 0x10, 0x11, 0x12, 0x13, 0x14, 0x15, 0x16, 0x17, 0x18, 0x19, 0x1A,
   0x1B, 0x1C, 0x1D, 0x20, 0x21, 0x22, 0x23, 0x24, 0x25, 0x26, 0x27, 0x28, 0x29, 0x2A, 0x2B, 0x2C, 0x2D,
   0x2E, 0x2F, 0x40, 0x41, 0x42, 0x43, 0x50, 0x51, 0x52, 0x60, 0x61]

/-- Format codes of an MMA may stand together (R152, R174): floating with floating, integer with integer. -/
def mmaFormatsOk (fa fb : Nat) : Bool := fa < 6 && fb < 6 && (decide (4 ≤ fa) == decide (4 ≤ fb))

/-- Nesting of LOOP and SKIP from instruction `i` on (R145): `ends` holds the ends of the enclosing bodies,
innermost first. -/
def nestOk : List Nat → Nat → List Nat → Bool
  | [], _, _ => true
  | w :: r, i, ends0 =>
    let ends := ends0.filter (fun e => i < e)
    let last := ends.headD (i + 1 + r.length)
    let op := w >>> 56
    let imm := w % 2 ^ 32
    if op = 0x02 then
      decide (ends.length < 4) && decide (i + 1 + imm ≤ last) && nestOk r (i + 1) ((i + 1 + imm) :: ends)
    else if op = 0x03 then decide (i + 1 + imm ≤ last) && nestOk r (i + 1) ends
    else if op = 0x41 then mmaFormatsOk (imm % 16) (imm / 16 % 16) && nestOk r (i + 1) ends
    else decide (op ∈ opcodes) && nestOk r (i + 1) ends

/-- A program: header and code. -/
structure Prog where
  id : Nat
  nominal : Nat
  storeUse : Nat
  codeLen : Nat
  ok : Bool
  deriving DecidableEq, Repr

/-- The program at an offset, and its bytes (R144): programs follow one another in the section (log entry
30). -/
def progAt (src : Source) (o : Nat) : Prog × Nat :=
  let h := src o 64
  let n := rdLE h 6 2
  let code := src (o + 64) (8 * n)
  let words := (chunksOf n 8 code).map leNat
  ({ id := rdLE h 4 2, nominal := rdLE h 0x0C 4, storeUse := rdLE h 8 4, codeLen := n,
     ok := rdLE h 0 2 = 0x5350 && rdLE h 2 1 = 1 && rdLE h 3 1 ≤ 7 && rdLE h 4 2 ≤ 0x0FFF && 1 ≤ n &&
       n ≤ 8192 && rdLE h 8 4 ≤ 1044480 && 24 ≤ rdLE h 0x10 2 && rdLE h 0x10 2 ≤ 1024 &&
       rdLE h 0x3C 4 = crc32c (h.take 60 ++ code) && nestOk words 0 [] }, 64 + 8 * n)

/-- The programs in `len` bytes, with fuel. -/
def progsFrom (src : Source) : Nat → Nat → Nat → List Prog
  | 0, _, _ => []
  | f + 1, o, len =>
    if len = 0 then []
    else
      let (p, n) := progAt src o
      if len < n then [{ p with ok := false }] else p :: progsFrom src f (o + n) (len - n)

/-- The program library of a bundle: at most 4,096 programs count, one more shows that it is too long. -/
def library (src : Source) : List Prog :=
  (sectionsOf src 3).flatMap (fun s => progsFrom src 4097 (bodyAt + s.2.2) s.2.1)

/-- The library passes R145. -/
def libraryOk (src : Source) : Bool :=
  let l := library src
  l.length ≤ 4096 && ((sectionsOf src 3).map (·.2.1)).sum ≤ 2 ^ 26 && l.all (·.ok)

/-! ### Smoothing tables (R182, R500) -/

/-- The codec and smoothing tables of a bundle: its sections of TYPE 0x04. -/
def codecTables (src : Source) : List Byte :=
  (sectionsOf src 4).flatMap (fun s => src (bodyAt + s.2.2) s.2.1)

/-! ### Verification (R456, R501) -/

/-- The section table passes its checks (check 6 of R501). Whether a codec table and a PHY table pass is
open, since their layouts are not given (log entry 31). -/
def sectionsOk (src : Source) (bodyLen : Nat) : Bool :=
  let all := sections src
  let base := sectionsOf src 1
  let ovl := sectionsOf src 2
  let nums := ovl.map (imgNumber src)
  all.all (fun s => s.2.2 + s.2.1 ≤ bodyLen) && base.length = 1 && base.all (imgOk src true) &&
    ovl.all (imgOk src false) && nums.Nodup && (nums = [] || 0 ∈ nums) && libraryOk src &&
    (sectionsOf src 4).all (fun s => Config.tableOk (src (bodyAt + s.2.2) s.2.1)) &&
    (sectionsOf src 5).all (fun s => Config.tableOk (src (bodyAt + s.2.2) s.2.1))

/-- SEC.KEY_REVOKE and SEC.ROLLBACK.MIN_SVN as the next verification sees them (R457). -/
def keyRevoked (c : Chip) (slot : Nat) : Bool := bit (reg c aSEC_KEY_REVOKE) slot
/-- MIN_SVN. -/
def minSvn (c : Chip) : Nat := fld (reg c aSEC_ROLLBACK) 5 0

/-- The first failing check of a bundle (R456, R501): 0 none. -/
def bundleCheck (c : Chip) (src : Source) : Nat :=
  let m := src 0 128
  if rdLE m 0 2 ≠ 0x4D42 ∨ rdLE m 2 1 ≠ 1 then 1
  else if 3 < mfSlot m ∨ keyRevoked c (mfSlot m) = true ∨ sha256 (mfKey m) ≠ Config.keyHash (mfSlot m) then 2
  else if mfSvn m < minSvn c then 3
  else if bankBytes < bodyAt + mfLen m ∨ sha256 (src bodyAt (mfLen m)) ≠ mfDigest m then 4
  else if Config.slhVerify (mfKey m) m (src 128 29792) = false then 5
  else if sectionsOk src (mfLen m) = false then 6
  else 0

/-- The running bundle. -/
def running (c : Chip) : Source := bankSource c c.chip.bank

/-- A program of the running bundle by PROG_ID. -/
def progOf (c : Chip) (id : Nat) : Option Prog :=
  if c.chip.bundleLive then (library (running c)).find? (fun p => p.id = id) else none

end Sys2Proof.Machine
end

