-- ==== Sys2Proof/Machine/Vst.lean ====
section
/-! DEFINITION. The VST packet as bytes (R313): the encoder, the parser that accepts exactly the valid
packets, and the virtual channel of a packet (R312). -/

namespace Sys2Proof.Machine

/-- Bytes of the extension of a TYPE (R313); none for a TYPE that does not exist. -/
def extLen (typ : Nat) : Option Nat :=
  if typ = 1 then some 16
  else if typ = 2 then some 32
  else if typ = 3 then some 16
  else if typ = 4 then some 8
  else if typ = 5 then some 8
  else if typ = 6 then some 8
  else if typ = 7 then some 16
  else if typ = 8 then some 16
  else if typ = 9 then some 0
  else none

/-- Whether a TYPE may carry a payload of this length (R313). -/
def payloadOk (typ n : Nat) : Bool :=
  if typ = 1 ∨ typ = 3 ∨ typ = 4 then 1 ≤ n && n ≤ 4096
  else if typ = 5 then n = 0 || n = 128
  else n = 0

/-- The common header (R313). -/
def encHeader (p : Pkt) : List Byte :=
  [BitVec.ofNat 8 (16 + p.typ.toNat), p.flags] ++ leBytes 2 p.payload.length ++ leBytes 2 p.dst.toNat ++
    leBytes 2 p.src.toNat ++ leBytes 4 p.nonce.toNat ++ leBytes 4 p.seq.toNat

/-- The extension of a packet's TYPE (R313). -/
def encExt (p : Pkt) : List Byte :=
  let t := p.typ.toNat
  if t = 1 ∨ t = 3 then leBytes 4 p.tag.toNat ++ leBytes 8 p.offset.toNat ++ leBytes 4 p.opId.toNat
  else if t = 2 then
    leBytes 4 p.tag.toNat ++ leBytes 8 p.offset.toNat ++ leBytes 4 p.length.toNat ++
      leBytes 4 p.respTag.toNat ++ leBytes 8 p.respOffset.toNat ++ leBytes 4 p.opId.toNat
  else if t = 4 then [p.cls, 0] ++ leBytes 2 p.msgLen.toNat ++ leBytes 4 p.msgId.toNat
  else if t = 5 then leBytes 4 p.cumSeq.toNat ++ leBytes 2 p.ce.toNat ++ [0, 0]
  else if t = 6 then leBytes 4 p.nakSeq.toNat ++ [p.status, 0, 0, 0]
  else if t = 7 ∨ t = 8 then
    [p.part, p.cflags, p.status, 0] ++ leBytes 4 p.myNonce.toNat ++ leBytes 4 p.initSeq.toNat ++
      [0, 0, 0, 0]
  else []

/-- A packet as the bytes on the link, with its trailer (R313). -/
def encPkt (p : Pkt) : List Byte :=
  let b := encHeader p ++ encExt p ++ p.payload
  b ++ leBytes 4 (crc32c b)

/-- Bytes of a packet (R313). -/
def pktLen (p : Pkt) : Nat := 16 + (extLen p.typ.toNat).getD 0 + p.payload.length + 4

/-- Reads a field of the extension as a 32-bit word. -/
def extW (l : List Byte) (o : Nat) : Word := w32 (rdLE l (16 + o) 4)

/-- The fields of a packet whose bytes hold a valid TYPE. -/
def readPkt (t n : Nat) (l : List Byte) : Pkt :=
  let ext := (extLen t).getD 0
  let base : Pkt :=
    { typ := BitVec.ofNat 4 t, flags := l.getD 1 0, dst := BitVec.ofNat 16 (rdLE l 4 2),
      src := BitVec.ofNat 16 (rdLE l 6 2), nonce := w32 (rdLE l 8 4), seq := w32 (rdLE l 12 4),
      payload := slice l (16 + ext) n }
  if t = 1 ∨ t = 3 then
    { base with tag := extW l 0, offset := w64 (rdLE l 20 8), opId := extW l 12 }
  else if t = 2 then
    { base with tag := extW l 0, offset := w64 (rdLE l 20 8), length := extW l 12, respTag := extW l 16,
                respOffset := w64 (rdLE l 36 8), opId := extW l 28 }
  else if t = 4 then
    { base with cls := l.getD 16 0, msgLen := BitVec.ofNat 16 (rdLE l 18 2), msgId := extW l 4 }
  else if t = 5 then { base with cumSeq := extW l 0, ce := BitVec.ofNat 16 (rdLE l 20 2) }
  else if t = 6 then { base with nakSeq := extW l 0, status := l.getD 20 0 }
  else if t = 7 ∨ t = 8 then
    { base with part := l.getD 16 0, cflags := l.getD 17 0, status := l.getD 18 0,
                myNonce := extW l 4, initSeq := extW l 8 }
  else base

/-- A valid packet from its bytes; none where R313 drops it. -/
def parsePkt (l : List Byte) : Option Pkt :=
  let v := (l.getD 0 0).toNat / 16
  let t := (l.getD 0 0).toNat % 16
  let n := rdLE l 2 2
  match extLen t with
  | none => none
  | some e =>
    if v = 1 ∧ n ≤ 4096 ∧ l.length = 16 + e + n + 4 ∧ payloadOk t n = true ∧
        rdLE l (l.length - 4) 4 = crc32c (l.take (l.length - 4)) then
      some (readPkt t n l)
    else none

/-- Whether a packet given as fields is valid: the checks of R313 that its fields can break. -/
def pktValid (p : Pkt) : Bool :=
  (extLen p.typ.toNat).isSome && payloadOk p.typ.toNat p.payload.length

/-- FLAGS bits of a packet (R313). -/
def pFirst (p : Pkt) : Bool := p.flags.getLsbD 0
/-- LAST. -/
def pLast (p : Pkt) : Bool := p.flags.getLsbD 1
/-- SPRAY. -/
def pSpray (p : Pkt) : Bool := p.flags.getLsbD 2
/-- RETX. -/
def pRetx (p : Pkt) : Bool := p.flags.getLsbD 3
/-- ACK_NOW. -/
def pAckNow (p : Pkt) : Bool := p.flags.getLsbD 4

/-- Control packets (R373): ACK, NAK, CONNECT, CONNECT_ACK, CLOSE. -/
def isControl (p : Pkt) : Bool := 5 ≤ p.typ.toNat

/-- The virtual channel of a packet (R312); `ckpt` is CONN_CTRL.CKPT. -/
def vcOf (p : Pkt) (ckpt : Bool) : Nat :=
  let t := p.typ.toNat
  if t = 4 ∧ p.cls = 4 then 1
  else if t = 1 ∨ t = 2 ∨ t = 3 then (if ckpt then 3 else 2)
  else 0

end Sys2Proof.Machine
end

