-- ==== Sys2Proof/Machine/Send.lean ====
section
/-! DEFINITION. Sending on connections (R318, R335, R371-R373), block events and event frames (R18, R19,
R338). Every block sends its messages and raises its events through these operations. -/

namespace Sys2Proof.Machine

/-! ### Connections -/

/-- A CLOSED connection (R317). -/
def connReset : ConnSt :=
  { state := .closed, local_ := false, remConn := 0, myNonce := 0, remNonce := 0, remAddr := 0,
    peer := false, txNext := 0, txOpen := [], txWait := [], msgNext := 0, rxCum := 0, rxGot := [],
    rxPend := [], rxTop := 0, ackDue := 0, owed := false, ceSince := 0, segs := [], part := [], ready := [],
    badMsg := none, ops := [], mgmt := false, spray := false, rate := 0, slowed := false, retx := 0, nakd := [],
    closeRx := false, reqNonce := none, waiting := false }

/-- A connection by number. -/
def conn (c : Chip) (n : Nat) : ConnSt := tget connReset c.xpt.conns n

/-- Writes a connection. -/
def setConn (c : Chip) (n : Nat) (k : ConnSt) : Chip :=
  { c with xpt := { c.xpt with conns := tset connReset c.xpt.conns n k } }

/-- CONN_DEST.PATH of a connection: the peer fabric. -/
def pathPeer (c : Chip) (n : Nat) : Bool := bit (regB c n aXPT_CONN_DEST) 31

/-- CONN_DEST.QUEUE of a connection (R325). -/
def queueOf (c : Chip) (n : Nat) : Nat := fld (regB c n aXPT_CONN_DEST) 8 0

/-- CONN_CTRL.EVENTS of a connection. -/
def eventsBit (c : Chip) (n : Nat) : Bool := bit (regB c n aXPT_CONN_CTRL) 9

/-- CONN_CTRL.CKPT of a connection. -/
def ckptBit (c : Chip) (n : Nat) : Bool := bit (regB c n aXPT_CONN_CTRL) 10

/-- XPT lets a connection carry packets: ON or DRAINING, or DISABLED with a designated connection
(R342). -/
def xptCarries (c : Chip) (n : Nat) : Bool :=
  isUp c .xpt || (decide (bstate c .xpt = .disabled) && (conn c n).mgmt)

/-- New operations on a connection are refused with REJECTED_BUSY while its port or EGR is not ON (R34, R364, R380,
R382); EGR refuses none of a designated connection. -/
def pathBusy (c : Chip) (n : Nat) : Bool :=
  (if pathPeer c n then !isOn c .peer else !isOn c .host) || (!isOn c .egr && !(conn c n).mgmt)

/-! ### Egress queues (R371-R373) -/

/-- A queue at reset, with the shaper values of R381. -/
def equeueReset : EQueue := { pkts := [], tokens := 0, shaped := false, rate := 472, burst := 472 }

/-- A queue by number. -/
def equeue (c : Chip) (q : Nat) : EQueue := tget equeueReset c.egr.queues q

/-- Writes a queue. -/
def setEqueue (c : Chip) (q : Nat) (e : EQueue) : Chip :=
  { c with egr := { c.egr with queues := tset equeueReset c.egr.queues q e } }

/-- Q_CFG.LIMIT: 0 means 4,096 (R381). -/
def queueLimit (c : Chip) (q : Nat) : Nat :=
  let l := fld (regB c q aEGR_Q_CFG) 11 0
  if l = 0 then 4096 else l

/-- Cells of 256 B that a packet occupies (R372). -/
def cellsOf (p : Pkt) : Nat := (pktLen p + 255) / 256

/-- Cells in use. -/
def cellsUsed (c : Chip) : Nat :=
  c.egr.queues.foldl (fun n e => n + (e.2.pkts.map (fun x => cellsOf x.2)).sum) 0

/-- EGR.BUF_FREE. -/
def bufFree (c : Chip) : Nat := 65536 - cellsUsed c

/-- A queue and the buffer have room for a packet (R372). -/
def hasSpace (c : Chip) (q : Nat) (p : Pkt) : Bool :=
  (equeue c q).pkts.length < queueLimit c q && cellsOf p ≤ bufFree c

/-- Event bits as (page, bit). -/
abbrev EventBit := Page × Nat

/-- Places a numbered packet in the egress queue of its connection (R325, R372). -/
def enqueuePkt (c : Chip) (n : Nat) (p : Pkt) : Chip × List EventBit :=
  let q := queueOf c n
  let e := equeue c q
  let c1 := setEqueue c q { e with pkts := e.pkts ++ [(n, p)] }
  (c1, if 4096 ≤ bufFree c ∧ bufFree c1 < 4096 then [(.egr, 17)] else [])

/-- A connection waits for space in its queue or in the buffer (R372). -/
def waitSpace (c : Chip) (n : Nat) (w : List (Pkt × InitUse)) : Chip × List EventBit :=
  let k := conn c n
  let c1 := setConn c n { k with txWait := w, waiting := true }
  let c2 := { c1 with egr := { c1.egr with waiters := if n ∈ c1.egr.waiters then c1.egr.waiters else c1.egr.waiters ++ [n] } }
  (bumpB c2 (queueOf c n) aEGR_Q_FULL 1, [(.egr, 16)])

/-- Gives a data packet its number and places it in the egress queue of its connection (R318, R325). -/
def sendNow (c : Chip) (n : Nat) (p : Pkt) (u : InitUse) : Chip × List EventBit :=
  let k := conn c n
  let p' : Pkt := { p with dst := BitVec.ofNat 16 k.remConn, src := BitVec.ofNat 16 n,
                           nonce := k.remNonce, seq := k.txNext,
                           flags := p.flags ||| (if k.spray then 4 else 0) }
  enqueuePkt (setConn c n { k with
    txNext := k.txNext + 1
    txOpen := k.txOpen ++ [{ pkt := p', use := u, expiries := 0, timer := 0 }] }) n p'

/-- A connection may send a new packet: it is OPEN, XPT carries it, and the window of R318 has room. -/
def mayNumber (c : Chip) (n : Nat) : Bool :=
  decide ((conn c n).state = .open) && xptCarries c n && (conn c n).txOpen.length < 1024

/-- Sends a data packet: at once, or when the window of R318, the queue or the buffer lets it. A wait for
the queue or the buffer is counted and raises QUEUE_FULL (R372). -/
def sendPkt (c : Chip) (n : Nat) (p : Pkt) (u : InitUse) : Chip × List EventBit :=
  let k := conn c n
  if k.txWait ≠ [] ∨ mayNumber c n = false then (setConn c n { k with txWait := k.txWait ++ [(p, u)] }, [])
  else if hasSpace c (queueOf c n) p then sendNow c n p u
  else waitSpace c n (k.txWait ++ [(p, u)])

/-- Sends a packet again with RETX set and its number kept (R320): at once, or before every packet that waits. -/
def sendAgain (c : Chip) (n : Nat) (p : Pkt) (u : InitUse) : Chip × List EventBit :=
  let p' : Pkt := { p with flags := p.flags ||| 8 }
  let k := { conn c n with retx := (conn c n).retx + 1 }
  let c1 := setConn (bump c aXPT_RETX_CNT 1) n k
  if hasSpace c1 (queueOf c1 n) p' then enqueuePkt c1 n p' else waitSpace c1 n ((p', u) :: k.txWait)

/-- Sends the packets of a connection that wait, in order, while the window, the queue and the buffer
let them. A packet sent again needs no new number. -/
def pumpN : Nat → Chip → Nat → Chip × List EventBit
  | 0, c, _ => (c, [])
  | f + 1, c, n =>
    let k := conn c n
    match k.txWait with
    | [] => (c, [])
    | (p, u) :: rest =>
      if k.waiting ∨ (pRetx p = false ∧ mayNumber c n = false) then (c, [])
      else if hasSpace c (queueOf c n) p then
        let c0 := setConn c n { k with txWait := rest }
        let (c1, e1) := if pRetx p then enqueuePkt c0 n p else sendNow c0 n p u
        let (c2, e2) := pumpN f c1 n
        (c2, e1 ++ e2)
      else waitSpace c n k.txWait

/-- `pumpN` over every waiting packet. -/
def pump (c : Chip) (n : Nat) : Chip × List EventBit := pumpN (conn c n).txWait.length c n

/-- Places a control packet in the control lane of its connection's output (R373). -/
def sendControl (c : Chip) (n : Nat) (p : Pkt) : Chip :=
  if pathPeer c n then { c with egr := { c.egr with ctl1 := c.egr.ctl1 ++ [(n, none, p)] } }
  else { c with egr := { c.egr with ctl0 := c.egr.ctl0 ++ [(n, none, p)] } }

/-- The packets of a message (R335): consecutive MSG packets, all but the last with 4,096 B. -/
def msgPkts (cls : Nat) (id : Word) (bytes : List Byte) : List Pkt :=
  let segs := chunksOf 16 4096 bytes
  (numbered segs).map (fun e =>
    { typ := 4, cls := BitVec.ofNat 8 cls, msgId := id, msgLen := BitVec.ofNat 16 bytes.length,
      flags := BitVec.ofNat 8 ((if e.1 = 0 then 1 else 0) + (if e.1 + 1 = segs.length then 2 else 0)),
      payload := e.2 })

/-- Sends the packets of a list on a connection, in order. -/
def sendAll (c : Chip) (n : Nat) (ps : List Pkt) (u : InitUse) : Chip × List EventBit :=
  ps.foldl (fun a p => let (c1, e) := sendPkt a.1 n p u; (c1, a.2 ++ e)) (c, [])

/-- Sends a message on a connection (R335). On a connection that is not OPEN a RECORD is dropped and
counted (R321, R334); a MSG on a spray connection is dropped and counted in BAD_CRC (R322). -/
def pushMsg (c : Chip) (n cls : Nat) (bytes : List Byte) : Chip × List EventBit :=
  let k := conn c n
  if k.state ≠ .open then
    if cls = 2 then (bump c aXPT_REC_DROP 1, [(.xpt, 20)]) else (c, [])
  else if k.spray then (bump c aXPT_BAD_CRC 1, [])
  else
    sendAll (setConn c n { k with msgNext := k.msgNext + 1 }) n (msgPkts cls k.msgNext bytes) .plain

/-! ### Events (R18, R19, R338) -/

/-- The 16 B EVENT message of a page. -/
def eventBytes (p : Page) (int : Word) (stamp : Nat) : List Byte :=
  leBytes 1 (pageIdx p) ++ [0, 0, 0] ++ leBytes 4 int.toNat ++ leBytes 8 stamp

/-- The OPEN designated connections with EVENTS set, in number order. -/
def eventConns (c : Chip) : List Nat :=
  (c.xpt.conns.filter (fun e => e.2.mgmt && decide (e.2.state = .open) && eventsBit c e.1)).map (·.1)

/-- Sends one event frame of a page to every event destination; without a destination no stamp is
taken. -/
def sendEvent (c : Chip) (p : Page) : Chip × List EventBit :=
  let dests := eventConns c
  if dests.isEmpty then (c, [])
  else
    let (stamp, c1) := takeFine c
    dests.foldl (fun a n =>
      let (c2, e) := pushMsg a.1 n 7 (eventBytes p (hdr c p).int stamp)
      (c2, a.2 ++ e)) (c1, [])

/-- Sets bits of BLK_INT; a bit that goes from 0 to 1 while enabled sends an event frame (R19). DEDUCED: bits that one
write sets at once share one frame, since a frame carries the whole of BLK_INT (log entry 88). -/
def setInt (c : Chip) (p : Page) (bits : Word) : Chip × List EventBit :=
  let h := hdr c p
  let new := bits &&& ~~~h.int
  let c1 := setHdr c p { h with int := h.int ||| bits }
  if new &&& h.intEn = 0 then (c1, []) else sendEvent c1 p

/-- Sets event bits in order, and those that sending the event frames raises in turn. -/
def raiseN : Nat → List EventBit → Chip → Chip
  | 0, _, c => c
  | _ + 1, [], c => c
  | f + 1, (p, b) :: rest, c =>
    let (c1, e) := setInt c p (BitVec.ofNat 32 (2 ^ b))
    raiseN f (rest ++ e) c1

/-- Raises a list of events. Sending event frames can raise only EGR.QUEUE_FULL, EGR.BUF_LOW and
XPT.REC_DROP, each once. -/
def raises (c : Chip) (l : List EventBit) : Chip := raiseN (32 * l.length + 128) l c

/-- Raises one event of a page (R18). -/
def raise (c : Chip) (p : Page) (b : Nat) : Chip := raises c [(p, b)]

/-- Raises the events that an operation over packets reports. -/
def settleEvents (r : Chip × List EventBit) : Chip := raises r.1 r.2

/-- Sends a message and raises what that reports. -/
def sendMsg (c : Chip) (n cls : Nat) (bytes : List Byte) : Chip := settleEvents (pushMsg c n cls bytes)

/-- Changes the state of a block, which sets BLK_INT.STATE (R31). -/
def setState (c : Chip) (p : Page) (s : BState) : Chip :=
  let h := hdr c p
  if h.state = s then c else raise (setHdr c p { h with state := s }) p 0

end Sys2Proof.Machine
end

