-- ==== Sys2Proof/Machine/Fault.lean ====
section
/-! DEFINITION. FLT (R472-R488): levels, fault reports, the black-box record and ring, and the commands
FAULT_REPORT, BB_SECTOR_ERASE_DONE, BB_INDEX's window and BB_HEAD_FOUND. Every block reports its faults
through `report`. -/

namespace Sys2Proof.Machine

/-! ### Black box (R482-R487) -/

/-- The 32 STATES bytes' source: BLK_STAT.STATE of every page. -/
def stateBytes (c : Chip) : List Byte :=
  allPages.map (fun p => BitVec.ofNat 8 (bstateCode (bstate c p)))

/-- The fast domain is unpowered or asleep as FINE and FIG_SEQ of R484 see it. -/
def fastAwake (c : Chip) : Bool := decide (c.chip.fast = .run)

/-- FIG is powered: the fast domain is neither OFF nor in DEEP nor on its way out of DEEP. -/
def figPowered (c : Chip) : Bool :=
  decide (c.chip.fast ≠ .off ∧ c.chip.fast ≠ .deep ∧ ¬(c.chip.fast = .waking ∧ c.chip.wakeFrom = .deep))

/-- A record (R484) before SEQ and CRC are filled in. Its two stamps are free values (log entry 3). -/
def bbBytes (c : Chip) (kind cls level page : Nat) (info : Word) (addr : DWord) (mark : Word)
    (minuet fine : Nat) : List Byte :=
  [0x42, 0x42, 1, BitVec.ofNat 8 kind] ++ leBytes 4 0 ++ leBytes 4 c.flt.boots ++ leBytes 4 minuet ++
    leBytes 8 (if fastAwake c then fine else 0) ++
    [BitVec.ofNat 8 cls, BitVec.ofNat 8 level, BitVec.ofNat 8 page, 0] ++ leBytes 4 info.toNat ++
    leBytes 8 addr.toNat ++ stateBytes c ++ [0] ++ leBytes 2 (fld (reg c aPWR_PWR_NOW) 15 0) ++
    leBytes 2 (fld (reg c aPWR_TJ) 11 0) ++ leBytes 1 (fld (reg c aPWR_TJ) 20 16) ++
    leBytes 1 (fld (reg c aPWR_LIMIT) 4 0) ++ leBytes 4 (reg c aPWR_ROW_POINT0).toNat ++
    leBytes 4 (reg c aPWR_ROW_POINT1).toNat ++ leBytes 8 (if figPowered c then c.fig.seq else 0) ++
    leBytes 8 (pair c aSEC_DEVICE_ID_LO) ++ leBytes 8 c.chip.lastBundle.toNat ++
    leBytes 1 (fld (reg c aSEC_BOOT_STAT) 23 16) ++ leBytes 1 (b2n c.chip.bank) ++ [0, 0] ++
    leBytes 4 mark.toNat ++ List.replicate 140 0

/-- KIND of a record. -/
def bbKind (r : List Byte) : Nat := (r.getD 3 0).toNat

/-- Next slot to write: BB_HEAD (R482). -/
def bbHead (c : Chip) : Nat := fld (reg c aFLT_BB_HEAD) 14 0

/-- A record other than KIND 4 may be written: the head is known, and the slot after it stays erased for a
power loss (R483). -/
def bbFree (c : Chip) : Bool :=
  c.flt.headKnown &&
    (match c.flt.erasing with
     | none => true
     | some s => s ≠ bbHead c / 16 && bbHead c % 16 ≠ 15)

/-- Programs a record into the slot at the head with the next SEQ and its CRC. The first record of a
sector starts the erase of the next sector (R482). -/
def bbProgram (c : Chip) (r : List Byte) : Chip :=
  let h := bbHead c
  let seq := (reg c aFLT_BB_SEQ).toNat + 1
  let b := r.take 4 ++ leBytes 4 seq ++ (r.drop 8).take 244
  let c1 := { c with flt := { c.flt with
    slots := tins c.flt.slots h (b ++ leBytes 4 (crc32c b))
    erasing := if h % 16 = 0 then some ((h / 16 + 1) % 2048) else c.flt.erasing } }
  let c2 := setReg (setReg c1 aFLT_BB_SEQ (w32 seq)) aFLT_BB_HEAD (w32 ((h + 1) % 32768))
  let c3 := setFld c2 aFLT_STATUS 1 1 1
  if h = 32767 then raise c3 .flt 20 else c3

/-- A record that waits: up to 64; a full queue gives way as R483 sets. -/
def bbQueue (c : Chip) (r : List Byte) : Chip :=
  if c.flt.queue.length < 64 then { c with flt := { c.flt with queue := c.flt.queue ++ [r] } }
  else
    let soft := fun (x : List Byte) => bbKind x = 2 || bbKind x = 7
    let c1 := bump c aFLT_BB_SUPPRESSED 1
    if soft r then c1
    else
      let q := (dropFirst soft c.flt.queue.reverse).reverse
      { c1 with flt := { c1.flt with queue := q ++ [r] } }

/-- Adds a record to the black box: at once, or in the queue. The KIND 4 record takes the slot at the
head (R485). -/
def bbAppend (c : Chip) (r : List Byte) : Chip :=
  if bbKind r = 4 then bbProgram c r
  else if c.flt.queue.isEmpty && bbFree c then bbProgram c r
  else bbQueue c r

/-- Writes the records that wait, oldest first, while they may be written. -/
def bbDrainN : Nat → Chip → Chip
  | 0, c => c
  | n + 1, c =>
    match c.flt.queue with
    | [] => c
    | r :: q =>
      if bbFree c then bbDrainN n (bbProgram { c with flt := { c.flt with queue := q } } r) else c

/-- `bbDrainN` over the whole queue. -/
def bbDrain (c : Chip) : Chip := bbDrainN c.flt.queue.length c

/-- Writes a record with fresh stamps. -/
def bbRecord (c : Chip) (kind cls level page : Nat) (info : Word) (addr : DWord) (mark : Word) : Chip :=
  let (m, c1) := takeTick c
  let (f, c2) := takeFine c1
  bbAppend c2 (bbBytes c2 kind cls level page info addr mark m f)

/-- A record of a kind that carries no fault (R484). -/
def bbPlain (c : Chip) (kind : Nat) (mark : Word) : Chip := bbRecord c kind 0 0xFF 4 0 0 mark

/-! ### Reports (R474-R481) -/

/-- The level of a class (R475): the lower and the higher one it admits, by reporting page. -/
def levelsOf (cls : Nat) (p : Page) : Nat × Nat :=
  if cls = 0x11 then (if pageIdx p < 5 then (3, 3) else (2, 2))
  else if cls = 0x19 then (if p = .host then (1, 1) else (0, 0))
  else
    [(0, 0), (2, 2), (2, 2), (0, 0), (0, 2), (0, 2), (0, 0), (0, 1), (0, 1), (3, 3), (3, 3), (1, 1), (1, 1),
     (0, 1), (1, 1), (0, 0), (0, 0), (2, 2), (2, 3), (2, 2), (3, 3), (3, 3), (0, 0), (2, 2), (0, 0), (0, 0),
     (1, 1), (0, 0), (1, 1), (0, 0), (0, 0)].getD cls (0, 0)

/-- The level of a report (R474). -/
def levelOf (f : FaultRep) : Nat :=
  let l := levelsOf f.cls.toNat f.page
  if f.higher then l.2 else l.1

/-- The reaction of a level begins (R473, R477, R479): CHIP_FAULT and MODULE_FAULT carry it out. Class 0x15
is a power loss, carried out by POWER_LOSS. -/
def startReaction (c : Chip) (cls level : Nat) : Chip :=
  if level = 3 ∧ cls ≠ 0x15 then
    { c with flt := { c.flt with modulePending := true, chipPending := false } }
  else if level = 2 ∧ c.flt.modulePending = false ∧ c.flt.faulted = false then
    { c with flt := { c.flt with chipPending := true } }
  else c

/-- The black-box record of a fault report (R481). The 60 s of a level 0 class and the 16 records of a
second are times that the model does not keep: free values decide them where they can hold
(log entry 18). -/
def faultRecord (c : Chip) (f : FaultRep) (level : Nat) : Chip :=
  if level = 3 then c
  else
    let (v, c1) := takeFree c
    let (w, c2) := takeFree c1
    let seen := f.cls.toNat ∈ c2.flt.level0Seen
    if level = 0 ∧ seen ∧ v % 2 = 0 then c2
    else if 16 ≤ c2.flt.faultRecs ∧ w % 2 = 0 then bump c2 aFLT_BB_SUPPRESSED 1
    else
      let c3 := { c2 with flt := { c2.flt with
        faultRecs := c2.flt.faultRecs + 1
        level0Seen := if level = 0 ∧ ¬ seen then c2.flt.level0Seen ++ [f.cls.toNat]
          else c2.flt.level0Seen } }
      bbRecord c3 2 f.cls.toNat level (pageIdx f.page) f.info f.addr 0

/-- A record whose read-back failed is written to the next slot (class 0x1E). -/
def bbRewrite (c : Chip) : Chip :=
  let h := (bbHead c + 32767) % 32768
  let c1 := setFld c aFLT_STATUS 1 1 0
  match tfind c.flt.slots h with
  | none => c1
  | some r =>
    let c2 := { c1 with flt := { c1.flt with slots := tdel c1.flt.slots h } }
    bbAppend (setReg c2 aFLT_BB_SEQ (w32 ((reg c2 aFLT_BB_SEQ).toNat - 1))) r

/-- The fault with the INFO and ADDR of a report that was reported before it. -/
def sameFault (c : Chip) (f : FaultRep) : Option LastReport :=
  c.flt.reports.find? (fun l => decide (l.info = f.info ∧ l.addr = f.addr))

/-- The faults of other INFO or ADDR. -/
def otherFaults (c : Chip) (f : FaultRep) : List LastReport :=
  c.flt.reports.filter (fun l => !decide (l.info = f.info ∧ l.addr = f.addr))

/-- A later report of one fault: its own class count, and the highest level (R479). LAST_CLASS shows the level while
the fault is the last one recorded. -/
def reportAgain (c : Chip) (f : FaultRep) (l : LastReport) : Chip :=
  let level := levelOf f
  if level ≤ l.level then c
  else
    let shown := decide (c.flt.reports.head? = some l)
    let c1 := { c with flt := { c.flt with
      reports := c.flt.reports.map (fun x => if x = l then { l with level := level } else x) } }
    let c2 := if shown then setFld c1 aFLT_LAST_CLASS 9 8 level else c1
    startReaction (raise c2 .flt (16 + level)) f.cls.toNat level

/-- A fault of its own at a level: LAST_*, the level's event, the black-box record, and the reaction (R480, R481). -/
def reportAt (c : Chip) (f : FaultRep) (level : Nat) : Chip :=
  let (st, c0) := takeTick c
  let c1 := { c0 with flt := { c0.flt with
    reports := { cls := f.cls.toNat, page := pageIdx f.page, info := f.info, addr := f.addr, level := level } ::
      otherFaults c0 f } }
  let w := 2 ^ 31 + pageIdx f.page * 2 ^ 16 + level * 2 ^ 8 + f.cls.toNat
  let c2 := setReg (setReg c1 aFLT_LAST_CLASS (w32 w)) aFLT_LAST_INFO f.info
  let c3 := setPair c2 aFLT_LAST_ADDR_LO (f.addr.toNat % 2 ^ 38)
  let c4 := setReg c3 aFLT_LAST_STAMP (w32 st)
  let c5 := if f.cls.toNat = 0x1E then bbRewrite c4 else c4
  startReaction (faultRecord (raise c5 .flt (16 + level)) f level) f.cls.toNat level

/-- A fault of its own at the level of its class (R475). -/
def reportFirst (c : Chip) (f : FaultRep) : Chip := reportAt c f (levelOf f)

/-- A chip fault for which R475 lists no class (R147): reported as R480 has it, with a class code, INFO and ADDR that are
free values, the class none of those listed (log entry 35). -/
def reportUnlisted (c : Chip) (p : Page) : Chip :=
  let (k, c1) := takeFree c
  let (i, c2) := takeFree c1
  let (a, c3) := takeFree c2
  reportAt c3 { cls := BitVec.ofNat 8 (0x1F + k % 225), page := p, info := w32 i, addr := w64 (a % 2 ^ 38), higher := true,
                together := false } 2

/-- The trace stops (R464, R471). -/
def traceStop (c : Chip) : Chip :=
  setFld { c with sec := { c.sec with tracing := none } } aTEL_TRACE_CTRL 0 0 0

/-- The trace stops where TEL leaves ON (R471). -/
def telLeaves (c : Chip) (p : Page) : Chip := if p = .tel then traceStop c else c

/-- A block whose triplicated field has no majority goes to FAULT, whether the report is the fault's first or joins an
earlier one (R30, R31). -/
def faultState (c : Chip) (f : FaultRep) : Chip :=
  if f.cls.toNat = 0x11 ∧ drainable f.page then telLeaves (setState c f.page .fault) f.page else c

/-- A detected fault (R480). A code that R475 does not list names no fault. -/
def report (c : Chip) (f : FaultRep) : Chip :=
  if f.cls.toNat = 0 ∨ 0x1E < f.cls.toNat then c
  else
    let c1 := bumpB c f.cls.toNat aFLT_CLASS_CNT 1
    let c2 := match sameFault c f with
      | some l => if f.together then reportAgain c1 f l else reportFirst c1 f
      | none => reportFirst c1 f
    faultState c2 f

/-- A report from a block of this model. Whether an earlier report of the same INFO and ADDR came within 10 us is a free
value (log entry 81). -/
def fault (c : Chip) (cls : Nat) (p : Page) (info : Nat) (addr : Nat) (higher : Bool) : Chip :=
  let f : FaultRep := { cls := BitVec.ofNat 8 cls, page := p, info := w32 info, addr := w64 addr, higher := higher,
                        together := false }
  if (sameFault c f).isNone then report c f
  else
    let (v, c1) := takeFree c
    report c1 { f with together := decide (v % 2 = 1) }

/-! ### Commands -/

/-- BB_SECTOR_ERASE_DONE (R482, R483): the sector is erased and verified, and waiting records follow. -/
def bbEraseDone (c : Chip) : Chip :=
  match c.flt.erasing with
  | none => c
  | some s =>
    bbDrain { c with flt := { c.flt with
      erasing := none
      slots := c.flt.slots.filter (fun e => e.1 / 16 ≠ s) } }

/-- BB_SECTOR_ERASE_DONE. -/
def execBbSectorEraseDone (s : State) : Host.Outcome State Fault Refusal := act s bbEraseDone

/-- A slot holds a valid record: its CRC passes (R482). -/
def bbValid (r : List Byte) : Bool := r.length = 256 && rdLE r 252 4 = crc32c (r.take 252)

/-- The valid record of greatest SEQ: its slot and SEQ. -/
def bbNewest (c : Chip) : Option (Nat × Nat) :=
  c.flt.slots.foldl (fun m e =>
    if bbValid e.2 then
      (match m with
       | none => some (e.1, rdLE e.2 4 4)
       | some (k, q) => if q < rdLE e.2 4 4 then some (e.1, rdLE e.2 4 4) else some (k, q))
    else m) none

/-- BB_HEAD_FOUND (R482): the head is the slot after the newest valid record. An erase that the loss of
power left unfinished starts again, and the records held meanwhile are written. -/
def bbHeadFound (c : Chip) : Chip :=
  if c.flt.headKnown then c
  else
    let (h, q) := match bbNewest c with
      | none => (0, 0)
      | some (k, q) => ((k + 1) % 32768, q)
    let dirty := fun (s : Nat) => c.flt.slots.any (fun e => e.1 / 16 = s && h ≤ e.1)
    let next := (h / 16 + 1) % 2048
    let c1 := setReg (setReg c aFLT_BB_HEAD (w32 h)) aFLT_BB_SEQ (w32 q)
    bbDrain { c1 with flt := { c1.flt with
      headKnown := true
      erasing := if dirty (h / 16) then some (h / 16)
        else if h % 16 ≠ 0 ∧ c.flt.slots.any (fun e => e.1 / 16 = next) then some next
        else none } }

/-- BB_HEAD_FOUND. -/
def execBbHeadFound (s : State) : Host.Outcome State Fault Refusal :=
  act s (fun c => if minuetOn c then bbHeadFound c else c)

/-- The window takes the slot of BB_INDEX (R487): READY, and CRC_OK when the record's CRC passes. An erased
slot reads as ones. -/
def bbWindowReady (c : Chip) : Chip :=
  if c.flt.loading = false then c
  else
    let r := (tfind c.flt.slots (fld (reg c aFLT_BB_INDEX) 14 0)).getD (List.replicate 256 0xFF)
    { c with flt := { c.flt with window := r, loading := false, ready := true, crcOk := bbValid r } }

/-- BB_WINDOW_READY. -/
def execBbWindowReady (s : State) : Host.Outcome State Fault Refusal := act s bbWindowReady

end Sys2Proof.Machine
end

