-- ==== Sys2Proof/Machine/Media.lean ====
section
/-! DEFINITION. FLASH placement (R119-R128): extents, write heads, objects, frees. The commands of the flash
family are in Flash.lean. -/

namespace Sys2Proof.Machine

/-- Dies fitted (R119). -/
def diesOf (v : Variant) : Nat :=
  match v with
  | .nvt9404 => 16
  | .nvt9408 => 32
  | .nvt9416 => 64

/-- User extents of a new module (R119). -/
def userNew (v : Variant) : Nat :=
  match v with
  | .nvt9404 => 28836
  | .nvt9408 => 57672
  | .nvt9416 => 115343

/-- Physical extents: 2,048 for each die (R119); extent e lies on die e div 2,048 (log entry 11). -/
def physExtents (v : Variant) : Nat := 2048 * diesOf v

/-- Object bytes of an extent (R119). -/
abbrev extentBytes : Nat := 133169152

/-- A physical extent in SPARE. -/
def extReset : Extent :=
  { state := .spare, lext := none, fill := 0, erases := 0, reads := 0, failed := false, copyTo := none, records := [],
    copyDue := false }

/-- A physical extent. -/
def extent (c : Chip) (e : Nat) : Extent := tget extReset c.flash.extents e

/-- Writes a physical extent. -/
def setExtent (c : Chip) (e : Nat) (x : Extent) : Chip :=
  { c with flash := { c.flash with extents := tset extReset c.flash.extents e x } }

/-- Die of a physical extent. -/
def dieOf (e : Nat) : Nat := e / 2048

/-- Extents listed with a state. -/
def extentsIn (c : Chip) (s : ExtState) : Nat :=
  (c.flash.extents.filter (fun x => decide (x.2.state = s))).length

/-- User extents now offered (R138). -/
def userExtents (c : Chip) : Nat := userNew c.variant - c.flash.userCut

/-- LEXTs in use: those a physical extent that is not erasing or retired backs. -/
def mappedLexts (c : Chip) : List Nat := (c.flash.extents.filterMap (fun x => x.2.lext)).dedup

/-- Free LEXTs (R138). -/
def freeLexts (c : Chip) : Nat := userExtents c - (mappedLexts c).length

/-- Physical extents in SPARE. -/
def spareCount (c : Chip) : Nat :=
  physExtents c.variant -
    (c.flash.extents.filter (fun x => decide (x.2.state ≠ .spare))).length

/-- SPARE_EXTENTS: good unmapped spares beyond the 16 journal extents and those that back free LEXTs
(R119, R138; log entry 11). -/
def spareExtents (c : Chip) : Nat := spareCount c - 16 - freeLexts c

/-- SPARE_MIN: below 32 acts as 32 (R138). -/
def spareMin (c : Chip) : Nat := max 32 (fld (reg c aFLASH_SPARE_MIN) 15 0)

/-- LEXT of a logical flash address (R121). -/
def lextOf (addr : Nat) : Nat := addr / 2 ^ 27

/-- The physical extent that serves a LEXT: while a whole copy of it runs, the old extent (R125). -/
def extOfLext (c : Chip) (l : Nat) : Option Nat :=
  (c.flash.extents.find? (fun x => decide (x.2.lext = some l ∧
    (x.2.state = .closed ∨ (x.2.state = .open ∧ x.2.copyTo = none))))).map (·.1)

/-- The die that serves a logical flash address. -/
def dieAt (c : Chip) (addr : Nat) : Nat := ((extOfLext c (lextOf addr)).map dieOf).getD 0

/-- Live bytes of a LEXT: its objects and the writes not yet durable (R126). -/
def liveBytes (c : Chip) (l : Nat) : Nat :=
  ((c.flash.objects.filter (fun o => lextOf o.1 = l)).map (fun o => o.2.len)).sum +
  ((c.flash.writes.filter (fun w => lextOf w.addr = l)).map (fun w => w.obj.len)).sum

/-- The 32 B of a summary record (R122). -/
def sumRecBytes (r : SumRec) : List Byte :=
  let l := leBytes 4 r.offset ++ leBytes 4 r.len ++ leBytes 1 r.kind ++ [0, 0, 0] ++ leBytes 8 r.owner.toNat ++
    leBytes 8 r.seq
  l ++ leBytes 4 (crc32c l)

/-- The tier is read-only (R134). -/
def flashReadOnly (c : Chip) : Bool := bit (reg c aFLASH_STATUS) 3

/-! ### Journal and spares (R131, R134) -/

/-- Records of the journal that fill 8 extents of a copy (DESIGN CHOICE: 32 B a record; log entry 106). -/
abbrev journalRoom : Nat := 8 * extentBytes / 32

/-- Appends a record to both copies of the journal; full copies begin anew with a snapshot of the map (R131). A copy that
was being rebuilt is whole again (log entry 106). The bytes programmed are a free value of MEDIA_BYTES (R136). -/
def jput (c : Chip) (r : JRec) : Chip :=
  let l := c.flash.journal ++ [r]
  let snap := c.flash.extents.filterMap (fun x => x.2.lext.map (fun l => (l, x.1)))
  let (v, c1) := takeFree c
  bumpPair { c1 with flash := { c1.flash with
    journalBroken := false
    journal := if l.length < journalRoom then l else [.snapshot snap] } } aFLASH_MEDIA_BYTES_LO (v % 2 ^ 20)

/-- SPARE_LOW (R138): SPARE_EXTENTS fell below SPARE_MIN; `was` is its value before. -/
def noteSpares (was : Nat) (c : Chip) : Chip :=
  if spareMin c ≤ was ∧ spareExtents c < spareMin c then raise c .flash 19 else c

/-- A LEXT that is to be removed is removed as soon as one is free (R134). -/
def applyCut (c : Chip) : Chip :=
  if c.flash.cutDue = 0 ∨ freeLexts c = 0 then c
  else
    let c1 := { c with flash := { c.flash with userCut := c.flash.userCut + 1, cutDue := c.flash.cutDue - 1 } }
    raise (jput c1 (.shrink (userExtents c1))) .flash 20

/-- What a retirement does once the spares stand below SPARE_MIN (R134): `was` is SPARE_EXTENTS before it. -/
def spareReaction (c : Chip) (was : Nat) : Chip :=
  let c1 := noteSpares was c
  if spareMin c1 ≤ spareExtents c1 then c1
  else
    match c1.variant with
    | .nvt9416 => if flashReadOnly c1 then c1 else raise (setFld c1 aFLASH_STATUS 3 3 1) .flash 21
    | _ =>
      if was < spareMin c1 then applyCut { c1 with flash := { c1.flash with cutDue := c1.flash.cutDue + 1 } }
      else c1

/-- Retires an extent (R128). -/
def retire (c : Chip) (e : Nat) : Chip :=
  let was := spareExtents c
  let c1 := setExtent c e { extent c e with state := .retired, lext := none, copyTo := none, records := [], copyDue := false }
  spareReaction (raise (bump (jput c1 (.retire e)) aFLASH_RETIRED_CNT 1) .flash 18) was

/-- Takes an extent out of the map, to be erased (R128). -/
def startErase (c : Chip) (e : Nat) : Chip :=
  let x := extent c e
  let c1 := setExtent c e { x with state := .erasing, lext := none, copyTo := none, records := [], copyDue := false }
  noteSpares (spareExtents c) (applyCut (match x.lext with
    | some l => if (mappedLexts c1).contains l then c1 else jput c1 (.unmap l)
    | none => c1))

/-- A CLOSED extent without live bytes is erased (R126), or retired after a program failure (R128). A copy in progress
keeps it until its end. -/
def eraseIfDead (c : Chip) (l : Nat) : Chip :=
  match extOfLext c l with
  | none => c
  | some e =>
    if (extent c e).state = .closed ∧ (extent c e).copyTo = none ∧ liveBytes c l = 0 then
      if (extent c e).failed then retire c e else startErase c e
    else c

/-- Closes an open extent (R122): what its records say is its summary from now on. -/
def closeExtent (c : Chip) (e : Nat) : Chip :=
  let x := extent c e
  let c1 := setExtent c e { x with state := .closed }
  let c2 := { c1 with flash := { c1.flash with heads := tdel c1.flash.heads (dieOf e) } }
  match x.lext with
  | none => c2
  | some l => eraseIfDead c2 l

/-- SPARE extents of a die. -/
def sparesOn (c : Chip) (d : Nat) : List Nat :=
  ((List.range 2048).map (fun i => 2048 * d + i)).filter (fun e => decide ((extent c e).state = .spare))

/-- A free LEXT number: the free value where it names one, else the lowest. -/
def pickLext (c : Chip) (v : Nat) : Option Nat :=
  let used := mappedLexts c
  if freeLexts c = 0 then none
  else if v % userNew c.variant ∉ used then some (v % userNew c.variant)
  else (List.range (used.length + 1)).find? (fun l => l ∉ used)

/-- A spare of a die: the one that a free value names, else the first (log entry 11). -/
def spareOn (c : Chip) (d v : Nat) : Option Nat :=
  let free := fun (e : Nat) => decide ((extent c e).state = .spare)
  if free (2048 * d + v % 2048) then some (2048 * d + v % 2048)
  else ((List.range 2048).find? (fun i => free (2048 * d + i))).map (fun i => 2048 * d + i)

/-- Opens a write head on a die: a spare of the die mapped to a free LEXT (R123, R128). Which spare and
which LEXT are left open (log entry 11). -/
def openHead (c : Chip) (d : Nat) : Option (Nat × Chip) :=
  let (v, c1) := takeFree c
  let (w, c2) := takeFree c1
  match spareOn c2 d v, pickLext c2 w with
  | some e, some l =>
    let c3 := jput (setExtent c2 e { extent c2 e with
      state := .open, lext := some l, fill := 0, reads := 0, records := [] }) (.map l e)
    some (e, { c3 with flash := { c3.flash with heads := tins c3.flash.heads d e } })
  | _, _ => none

/-- FLASH keeps one open extent on every die that is not lost (R123). -/
def keepHeads (c : Chip) : Chip :=
  if isOn c .flash = false then c
  else
    (List.range (diesOf c.variant)).foldl (fun c d =>
      if d ∈ c.flash.lostDies ∨ (tfind c.flash.heads d).isSome then c
      else
        match openHead c d with
        | some (_, c1) => c1
        | none => c) c

/-- Places left in an extent: bytes, and summary records (R122). -/
def extRoom (x : Extent) (len : Nat) : Bool :=
  decide (x.fill + roundUp len 64 ≤ extentBytes ∧ x.records.length < 32768)

/-- The write head of a die with room for an object, closing a full one (R122, R123). -/
def headFor (c : Chip) (d len : Nat) : Option (Nat × Chip) :=
  match tfind c.flash.heads d with
  | some e => if extRoom (extent c e) len then some (e, c) else openHead (closeExtent c e) d
  | none => openHead c d

/-- Flash channel pairs of a partition (R447). -/
def diesFor (c : Chip) (p : Nat) : List Nat :=
  (List.range (diesOf c.variant)).filter (fun d =>
    d ∉ c.flash.lostDies && nbit (fld (regB c p aSEC_PART_RES) 23 16) (d % 16 / 2))

/-- Queued program bytes of a die. -/
def queuedOn (c : Chip) (d : Nat) : Nat :=
  ((c.flash.writes.filter (fun w => dieOf w.ext = d)).map (fun w => w.obj.len)).sum

/-- Dies in rising order of their queued bytes; equal dies start at the one a free value names (R123). -/
def dieOrder (c : Chip) (p v : Nat) : List Nat :=
  let l := diesFor c p
  sortBy (queuedOn c) (l.drop (v % max 1 l.length) ++ l.take (v % max 1 l.length))

/-- The first die of a list that can take an object. -/
def firstHead (c : Chip) (len : Nat) : List Nat → Option (Nat × Chip)
  | [] => none
  | d :: r =>
    match headFor c d len with
    | some x => some x
    | none => firstHead c len r

/-- An open extent that can take no further object closes at once, and its die gets a new head (R122, R123, R128). -/
def closeFull (c : Chip) (e : Nat) : Chip :=
  if extRoom (extent c e) 64 then c
  else
    match openHead (closeExtent c e) (dieOf e) with
    | some (_, c1) => c1
    | none => closeExtent c e

/-- Places an object at the write head of one of a list of dies (R123): the write id and the chip. -/
def placeWrite (c : Chip) (dies : List Nat) (obj : FObj) (use : FUse) : Option (Nat × Chip) :=
  match firstHead c obj.len dies with
  | none => none
  | some (e, c2) =>
    let x := extent c2 e
    let w : FWrite := { id := c2.flash.nextWrite, obj := obj, use := use, ext := e,
                        addr := (x.lext.getD 0) * 2 ^ 27 + x.fill }
    let rec_ : SumRec := { offset := x.fill, len := obj.len, kind := obj.kind, owner := obj.owner, seq := obj.seq }
    let c3 := setExtent c2 e { x with fill := x.fill + roundUp obj.len 64, records := x.records ++ [rec_] }
    some (w.id, closeFull { c3 with flash := { c3.flash with
      writes := c3.flash.writes ++ [w], nextWrite := c3.flash.nextWrite + 1 } } e)

/-- The die of the write that was placed last. -/
def lastDie (c : Chip) : Option Nat :=
  (c.flash.writes.find? (fun w => w.id + 1 = c.flash.nextWrite)).map (fun w => dieOf w.ext)

/-- A write of an object (R120, R123): the status, the id of the write and the chip. The owner learns the
address when the write is durable (R124). A die to avoid takes it only where no other can (R123). -/
def flashWriteTo (c : Chip) (part : Nat) (obj : FObj) (use : FUse) (avoid : Option Nat) : Nat × Nat × Chip :=
  if isOn c .flash = false then (rejBusy, 0, c)
  else if obj.len < 64 ∨ extentBytes < obj.len then (rejLimit, 0, c)
  else if flashReadOnly c then (rejBusy, 0, c)
  else
    let (v, c1) := takeFree c
    let (back, front) := (dieOrder c1 part v).partition (fun d => decide (avoid = some d))
    match placeWrite c1 (front ++ back) obj use with
    | none => (rejBusy, 0, setFld c aFLASH_STATUS 4 4 1)
    | some (id, c2) => (stOK, id, c2)

/-- A write that follows no other of its flush. -/
def flashWrite (c : Chip) (part : Nat) (obj : FObj) (use : FUse) : Nat × Nat × Chip := flashWriteTo c part obj use none

/-- The object at an address. -/
def flashObj (c : Chip) (addr : Nat) : Option FObj := tfind c.flash.objects addr

/-- Removes an object and erases its extent when nothing live is left (R126). -/
def dropObject (c : Chip) (addr : Nat) : Chip :=
  let c1 := { c with flash := { c.flash with objects := tdel c.flash.objects addr } }
  let c2 := eraseIfDead c1 (lextOf addr)
  if bit (reg c2 aFLASH_STATUS) 4 ∧ 0 < freeLexts c2 then setFld c2 aFLASH_STATUS 4 4 0 else c2

/-- A free by its owner, by address and length (R126), and its status: one that does not name a whole object is refused
(R120, R137). A sealed block or COLD image is held for two checkpoints while CKPT is ON (R412); before the scan of R132
ends, every free is held until then. -/
def flashFreeOf (c : Chip) (addr len : Nat) : Nat × Chip :=
  match flashObj c addr with
  | none => (rejLimit, c)
  | some o =>
    let held := fun (n : Nat) => (stOK, { c with flash := { c.flash with heldFrees := c.flash.heldFrees ++ [(addr, n)] } })
    if o.len ≠ len then (rejLimit, c)
    else if isOn c .ckpt ∧ (o.kind = 1 ∨ o.kind = 2) then held (2 + b2n (decide (c.ckpt.phase = .stream)))
    else if c.flash.scanned = false then held 0
    else (stOK, dropObject c addr)

/-- An owner frees an object whole (R120). -/
def flashFree (c : Chip) (addr : Nat) : Chip := (flashFreeOf c addr (((flashObj c addr).map (·.len)).getD 0)).2

/-! ### Whole copies (R125, R128, R133) -/

/-- Live bytes of a physical extent. -/
def extLive (c : Chip) (e : Nat) : Nat := ((extent c e).lext.map (liveBytes c)).getD 0

/-- The partition whose dies hold a die: its objects go only there (R123). -/
def partOfDie (c : Chip) (d : Nat) : Nat :=
  (parts8.find? (fun p => partHolds c p && d ∈ diesFor c p)).getD 0

/-- Spares that a copy of an extent may go to: on the dies of its partition that are not lost. -/
def spareList (c : Chip) (e : Nat) : List Nat :=
  (diesFor c (partOfDie c (dieOf e))).flatMap (sparesOn c)

/-- Starts the whole copy of a closed extent to a spare under the same LEXT. -/
def copyTo (c : Chip) (e t : Nat) : Chip :=
  let x := extent c e
  let c1 := setExtent c t { extent c t with state := .open, lext := x.lext, fill := x.fill, reads := 0,
                                            copyTo := some e, records := x.records }
  noteSpares (spareExtents c) (setExtent c1 e { x with copyTo := some t, copyDue := false })

/-- Starts a whole copy to a spare that a free value names (log entry 11); without a spare, or while FLASH is not ON, the
copy stays due. -/
def startCopy (c : Chip) (e : Nat) : Chip :=
  if (extent c e).state ≠ .closed ∨ (extent c e).copyTo ≠ none then c
  else
    let (v, c1) := takeFree c
    let l := spareList c1 e
    match l[v % max 1 l.length]? with
    | none => setExtent c1 e { extent c1 e with copyDue := true }
    | some t => copyTo c1 e t

/-- Starts the copies that are due (R125, R133): of extents that a program failure or a weak codeword marked and whose
copy has not begun or was cut off. -/
def pumpCopies (c : Chip) : Chip :=
  if isOn c .flash = false then c
  else
    ((c.flash.extents.filter (fun x => decide (x.2.state = .closed ∧ x.2.copyTo = none) && (x.2.copyDue || x.2.failed))).map
      (·.1)).foldl (fun c e =>
        if (extent c e).failed ∧ extLive c e = 0 then retire c e else startCopy c e) c

/-- What FLASH does when an extent returns to the spares or leaves service: due copies and missing write heads. -/
def pumpFlash (c : Chip) : Chip := keepHeads (pumpCopies c)

/-- Bytes of the object at an address, with the read counted in READ_BYTES (R138) and in the reads of its
extent: the 500,000th since its program makes a refresh due (R133). -/
def flashRead (c : Chip) (addr : Nat) : List Byte × Chip :=
  match flashObj c addr with
  | none => ([], c)
  | some o =>
    let c1 := bumpPair c aFLASH_READ_BYTES_LO o.len
    let c2 := match extOfLext c1 (lextOf addr) with
      | some e =>
        let x := extent c1 e
        setExtent c1 e { x with reads := x.reads + 1, copyDue := x.copyDue || decide (500000 ≤ x.reads + 1) }
      | none => c1
    (o.data, c2)

/-- FLASH serves reads: from the rebuilt map on (R132), and not while it drains or is DISABLED, TESTING or in FAULT
(R31, R139). -/
def flashServes (c : Chip) : Bool := c.flash.mapReady && decide (bstate c .flash = .on ∨ bstate c .flash = .off)

/-- FLASH refuses new reads with REJECTED_BUSY (R139): its map is ready and it does not serve. -/
def flashRefuses (c : Chip) : Bool := c.flash.mapReady && !flashServes c

/-- Cancels a write that is not durable: its space stays filled, nothing live is left of it. -/
def cancelWrite (c : Chip) (id : Nat) : Chip :=
  match c.flash.writes.find? (fun w => w.id = id) with
  | none => c
  | some w =>
    eraseIfDead { c with flash := { c.flash with writes := c.flash.writes.filter (fun x => x.id ≠ id) } }
      (lextOf w.addr)

end Sys2Proof.Machine
end

