-- ==== Sys2Proof/Machine/Codec.lean ====
section
/-! DEFINITION. The KV codec (R181-R187): rotation, the FINE and DENSE groups, the payload of a block or of
the filled positions of a tail, and the sealed-block header (R96). -/

namespace Sys2Proof.Machine

/-- One butterfly level of R183. -/
def butterfly (a : List Word) (s : Nat) : List Word :=
  (List.range 64).map (fun i =>
    let x := a.getD i 0
    if nbit i s then fsub (a.getD (i - 2 ^ s) 0) x else fadd x (a.getD (i + 2 ^ s) 0))

/-- The rotation of a group of 64 (R183). -/
def rotate (a : List Word) : List Word :=
  ((List.range 6).foldl butterfly a).map (fun x => fmul x 0x3E000000)

/-- Magnitude of a finite value as (m, e); none otherwise. -/
def finiteMag (w : Word) : Option (Nat × Int) :=
  match fpOf w with
  | .fin _ m e => some (m, e)
  | _ => none

/-- Whether every element is finite. -/
def allFinite (l : List Word) : Bool := l.all (fun w => (finiteMag w).isSome)

/-- The largest magnitude of finite elements, as an FP32 word without sign. -/
def maxMag (l : List Word) : Nat := l.foldl (fun m w => max m (w.toNat % 2 ^ 31)) 0

/-- Floor of the base-2 logarithm of a finite magnitude given by its FP32 code (R184). -/
def floorLog2 (code : Nat) : Int :=
  match decodeFp fmtFp32 code with
  | .fin _ m e => (Nat.log2 m : Int) + e
  | _ => 0

/-- Clamps an integer. -/
def clampI (lo hi v : Int) : Int := max lo (min hi v)

/-- RNE of |y| / (n * 2^d) for a finite FP32 word y. -/
def quotRne (y : Word) (n : Nat) (d : Int) : Nat :=
  match fpOf y with
  | .fin _ m e => if d ≤ e then divRne (shiftUp m e d) n else divRne m (shiftUp n d e)
  | _ => 0

/-- Value q * n * 2^d with sign. -/
def fpInt (q : Int) (n : Nat) (d : Int) : Fp := .fin (decide (q < 0)) (q.natAbs * n) d

/-! ### FINE (R184) -/

/-- Signed code of an element. -/
def fineCode (y : Word) (d : Int) : Int :=
  let q : Int := min 511 (quotRne y 1 d)
  if bit y 31 then -q else q

/-- Exact residual y - q * 2^d. -/
def residual (y : Word) (q : Int) (d : Int) : Fp := fpAdd (fpOf y) (fpNeg (fpInt q 1 d))

/-- |a| < |b| of exact values. -/
def magLt (a b : Fp) : Bool :=
  let abs (v : Fp) : Fp := if fpSign v then fpNeg v else v
  fpLt (abs a) (abs b)

/-- Index of the largest |r|, the lowest on a tie (R184). -/
def argMaxMag (l : List Fp) : Nat :=
  ((numbered l).foldl (fun (b : Nat × Fp) e => if magLt b.2 e.2 then e else b)
    (0, .fin false 0 0)).1

/-- A FINE group of 82 B from a rotated group. -/
def fineGroup (y : List Word) : List Byte :=
  if allFinite y = false then (List.range 82).map (Config.codecOpen false y)
  else
    let m := maxMag y
    let e : Int := if m = 0 then 0 else clampI 1 254 (floorLog2 m + 119)
    let d := e - 127
    let q := y.map (fun w => if m = 0 then (0 : Int) else fineCode w d)
    let r := (y.zip q).map (fun p => residual p.1 p.2 d)
    let j := argMaxMag r
    let rj := r.getD j (.fin false 0 0)
    let v := m ≠ 0 ∧ magLt (.fin false 1 (d - 3)) rj
    let b1 := if v then 128 + (if fpSign rj then 64 else 0) + j else 0
    let field := (numbered q).foldl
      (fun n p => n + ((if p.2 < 0 then 512 else 0) + p.2.natAbs) * 2 ^ (10 * p.1)) 0
    leBytes 1 e.toNat ++ leBytes 1 b1 ++ leBytes 80 field

/-- The values of a FINE group before the inverse rotation (R186 steps 1 and 2). -/
def fineValues (g : List Byte) : List Word :=
  let d : Int := ((g.getD 0 0).toNat : Int) - 127
  let b1 := (g.getD 1 0).toNat
  let field := rdLE g 2 80
  (List.range 64).map (fun i =>
    let c := (field >>> (10 * i)) % 1024
    let q : Int := if 512 ≤ c then -((c % 512 : Nat) : Int) else (c : Int)
    let z := fpInt q 1 d
    if nbit b1 7 ∧ b1 % 64 = i then
      fpTo (fpAdd z (.fin (nbit b1 6) 1 (d - 2)))
    else fpTo z)

/-! ### DENSE (R185) -/

/-- F[n]: 2^(-n/8) rounded to FP32, as significand of 24 bits; the exponent is -24 for n above 0. -/
def denseF (n : Nat) : Nat :=
  [0x1000000, 0xEAC0C7, 0xD744FD, 0xC5672A, 0xB504F3, 0xA5FED7, 0x9837F0, 0x8B95C2].getD n 0

/-- Quantum of sub-scale s: significand and exponent. -/
def denseQ (e : Int) (s : Nat) : Nat × Int := (denseF (s % 8), e - 127 - ((s / 8 : Nat) : Int) - 24)

/-- 7.5 * quantum at least M. -/
def denseFits (e : Int) (mcode s : Nat) : Bool :=
  let (n, d) := denseQ e s
  !fpLt (.fin false (15 * n) (d - 1)) (decodeFp fmtFp32 mcode)

/-- Sub-scale code of a subgroup (R185). -/
def denseSub (e : Int) (mcode : Nat) : Nat :=
  if mcode = 0 then 63
  else ((List.range 64).reverse.find? (denseFits e mcode)).getD 0

/-- Signed code of an element. -/
def denseCode (e : Int) (s : Nat) (y : Word) : Int :=
  let (n, d) := denseQ e s
  let q : Int := min 7 (quotRne y n d)
  if bit y 31 then -q else q

/-- A DENSE group of 36 B from a rotated group. -/
def denseGroup (y : List Word) : List Byte :=
  if allFinite y = false then (List.range 36).map (Config.codecOpen true y)
  else
    let m := maxMag y
    let e : Int := if m = 0 then 0 else clampI 1 254 (floorLog2 m + 125)
    let subs := [0, 1, 2, 3].map (fun k => denseSub e (maxMag (slice' y (16 * k) 16)))
    let q := (numbered y).map (fun p => denseCode e (subs.getD (p.1 / 16) 0) p.2)
    let field := (numbered subs).foldl (fun n p => n + p.2 * 2 ^ (6 * p.1)) 0
    let nib (x : Int) : Nat := if x < 0 then 16 - x.natAbs else x.natAbs
    leBytes 1 e.toNat ++ leBytes 3 field ++
      (List.range 32).map (fun i =>
        BitVec.ofNat 8 (nib (q.getD (2 * i) 0) + 16 * nib (q.getD (2 * i + 1) 0)))
where
  /-- Elements o to o + n - 1. -/
  slice' (l : List Word) (o n : Nat) : List Word := (l.drop o).take n

/-- The values of a DENSE group before the inverse rotation (R186 step 1). -/
def denseValues (g : List Byte) : List Word :=
  let e : Int := ((g.getD 0 0).toNat : Int)
  let field := rdLE g 1 3
  (List.range 64).map (fun i =>
    let b := (g.getD (4 + i / 2) 0).toNat
    let c := if i % 2 = 0 then b % 16 else b / 16
    let q : Int := if 8 ≤ c then (c : Int) - 16 else (c : Int)
    let (n, d) := denseQ e ((field >>> (6 * (i / 16))) % 64)
    fpTo (fpInt q n d))

/-! ### Parts and payloads (R181, R182, R187) -/

/-- Bytes of a group. -/
def groupBytes (dense : Bool) : Nat := if dense then 36 else 82

/-- Multiplies by 2^k with the rounding of R177. -/
def scaleBy (k : Int) (w : Word) : Word :=
  match fpOf w with
  | .fin s m e => fpTo (.fin s m (e + k))
  | _ => w

/-- Encodes `n` groups of a part; `elem i` is element i as an FP32 word, smoothed. -/
def encodePart (dense : Bool) (n : Nat) (elem : Nat → Word) : List Byte :=
  (List.range n).flatMap (fun g =>
    let y := rotate ((List.range 64).map (fun i => elem (64 * g + i)))
    if dense then denseGroup y else fineGroup y)

/-- Decodes a part to its elements, before smoothing is undone. -/
def decodePart (dense : Bool) (bytes : List Byte) : List Word :=
  (chunksOf bytes.length (groupBytes dense) bytes).flatMap (fun g =>
    rotate (if dense then denseValues g else fineValues g))

/-- Shape of an attention layer: number, KV heads, HEAD_DIM. -/
structure LayerShape where
  layer : Nat
  heads : Nat
  dim : Nat
  deriving DecidableEq, Repr

/-- Bytes of one position of a layer in BF16: keys of every head, then values (log entry 10). -/
def rowBytes (s : LayerShape) : Nat := s.heads * s.dim * 4

/-- Element of a part: part 0 keys, 1 values; rows in BF16 bytes. An unfilled position reads +0. -/
def rowElem (s : LayerShape) (rows : List (List Byte)) (part head i : Nat) : Word :=
  let row := rows.getD (i / s.dim) []
  ofBf16 (rdLE row (2 * ((part * s.heads + head) * s.dim + i % s.dim)) 2)

/-- A slot's smoothing table: the shift of an attention layer, KV head and key channel (R182). -/
abbrev Smoothing := Nat → Nat → Nat → BitVec 4

/-- Smoothing shift of a key element (R182); values are not smoothed. -/
def smoothOf (sm : Smoothing) (s : LayerShape) (part head i : Nat) : Int :=
  if part = 0 then ((sm s.layer head (i % s.dim)).toNat : Int) else 0

/-- The payload of the first `n` positions of a layer (R181, R187): key parts, then value parts. -/
def encodePayload (dense : Bool) (sm : Smoothing) (s : LayerShape) (n : Nat) (rows : List (List Byte)) :
    List Byte :=
  let groups := (n * s.dim + 63) / 64
  ([0, 1].flatMap (fun part => (List.range s.heads).map (fun h => (part, h)))).flatMap (fun ph =>
    encodePart dense groups (fun i =>
      if i < n * s.dim then
        scaleBy (-(smoothOf sm s ph.1 ph.2 i)) (rowElem s rows ph.1 ph.2 i)
      else 0))

/-- Bytes of a payload for `n` positions. -/
def payloadLen (dense : Bool) (s : LayerShape) (n : Nat) : Nat :=
  2 * s.heads * ((n * s.dim + 63) / 64) * groupBytes dense

/-- The FP32 elements of one part of a payload (R186). -/
def decodedPart (dense : Bool) (sm : Smoothing) (s : LayerShape) (n : Nat) (payload : List Byte)
    (part head : Nat) : List Word :=
  let len := (n * s.dim + 63) / 64 * groupBytes dense
  let l := decodePart dense (slice payload ((part * s.heads + head) * len) len)
  (numbered (l.take (n * s.dim))).map (fun p => scaleBy (smoothOf sm s part head p.1) p.2)

/-- The positions of a payload as BF16 rows. -/
def decodeRows (dense : Bool) (sm : Smoothing) (s : LayerShape) (n : Nat) (payload : List Byte) :
    List (List Byte) :=
  let parts := [0, 1].flatMap (fun part => (List.range s.heads).map (fun h =>
    decodedPart dense sm s n payload part h))
  (List.range n).map (fun p => parts.flatMap (fun l =>
    (List.range s.dim).flatMap (fun i => leBytes 2 (bf16Of (l.getD (p * s.dim + i) 0)))))

/-- The sealed-block header (R96). -/
def blockHeader (dense : Bool) (slot : Nat) (s : LayerShape) (group ledger : Nat) (sealer : Word)
    (seq : Nat) (payload : List Byte) : List Byte :=
  let h := leBytes 2 0x4B42 ++ leBytes 1 (16 + b2n dense) ++ leBytes 1 s.layer ++ leBytes 1 slot ++
    leBytes 1 s.heads ++ leBytes 2 s.dim ++ leBytes 4 group ++ leBytes 4 payload.length ++
    leBytes 4 ledger ++ leBytes 4 sealer.toNat ++ leBytes 8 seq ++ leBytes 8 (crc64 payload) ++
    List.replicate 20 0
  h ++ leBytes 4 (crc32c h)

end Sys2Proof.Machine
end

