-- ==== Sys2Proof/Machine/Model.lean ====
section
/-! DEFINITION. Layer tables (R195) and the shape of a loaded model: layers, attention layers, tails and
recurrent state (R92, R93). -/

namespace Sys2Proof.Machine

/-- MODEL_CTRL.VALID of a slot (R217). -/
def modelValid (c : Chip) (slot : Nat) : Bool := bit (regB c slot aATTN_MODEL_CTRL) 0

/-- Layers of a slot; 0 means 256 (R217). -/
def layerCount (c : Chip) (slot : Nat) : Nat :=
  let l := fld (regB c slot aATTN_MODEL_CTRL) 15 8
  if l = 0 then 256 else l

/-- Address of a slot's layer table. -/
def layersAddr (c : Chip) (slot : Nat) : Nat := pairB c slot aATTN_LAYERS_LO

/-- Descriptor of a layer as GDDR7 holds it (R195). -/
def layerDescAt (c : Chip) (slot i : Nat) : List Byte := memRead c.mem (layersAddr c slot + 32 * i) 32

/-- Descriptor of a layer: of a valid slot, the one that passed its check, which is used as written (R196). A host that
changes the table in GDDR7 meanwhile moves no tail by it (R536). -/
def layerDesc (c : Chip) (slot i : Nat) : List Byte :=
  match tfind c.checks.layerImg slot with
  | some l => slice l (32 * i) 32
  | none => layerDescAt c slot i

/-- Every descriptor of a slot. -/
def layerTable (c : Chip) (slot : Nat) : List (List Byte) :=
  (List.range (layerCount c slot)).map (layerDesc c slot)

/-- Every descriptor of a slot as GDDR7 holds it, for the check of R196. -/
def layerTableAt (c : Chip) (slot : Nat) : List (List Byte) :=
  (List.range (layerCount c slot)).map (layerDescAt c slot)

/-- KIND of a descriptor. -/
def ldKind (d : List Byte) : Nat := rdLE d 0 1
/-- KV_HEADS. -/
def ldHeads (d : List Byte) : Nat := rdLE d 1 1
/-- Q_PER_KV. -/
def ldQ (d : List Byte) : Nat := rdLE d 2 1
/-- FLAGS. -/
def ldFlags (d : List Byte) : Nat := rdLE d 3 1
/-- HEAD_DIM. -/
def ldDim (d : List Byte) : Nat := rdLE d 4 2
/-- ROPE_DIMS. -/
def ldRope (d : List Byte) : Nat := rdLE d 6 2
/-- WINDOW. -/
def ldWindow (d : List Byte) : Nat := rdLE d 8 4
/-- SCALE. -/
def ldScale (d : List Byte) : Word := w32 (rdLE d 0x0C 4)
/-- ROPE_TABLE. -/
def ldTable (d : List Byte) : Nat := rdLE d 0x10 8
/-- AUX. -/
def ldAux (d : List Byte) : Nat := rdLE d 0x18 8

/-- PROG_ID in AUX of a recurrent layer. -/
def ldProg (d : List Byte) : Nat := ldAux d / 2 ^ 32 % 2 ^ 16

/-- Attention layers: KIND 0 and 1. -/
def isAttn (d : List Byte) : Bool := ldKind d = 0 || ldKind d = 1

/-- Rotated elements of a layer: none without ROPE (R195). -/
def ropeDims (d : List Byte) : Nat := if nbit (ldFlags d) 1 then ldRope d else 0

/-- Bytes of an entry of a rotary table (R201): chunks of 256 B for 32 pairs. -/
def ropeEntryBytes (dims : Nat) : Nat := (dims / 2 + 31) / 32 * 256

/-- The listed bytes of GDDR7 in the rotary tables that a slot's layer table points to (R201, R536). -/
def ropeCells (c : Chip) (slot : Nat) : List Host.Cell :=
  let ranges := ((layerTable c slot).filter isAttn).map (fun d =>
    (ldTable d, ldTable d + (128 + 32768) * ropeEntryBytes (ropeDims d)))
  c.mem.filter (fun x => ranges.any (fun r => decide (r.1 ≤ x.1 ∧ x.1 < r.2)))

/-- The attention layers of a slot, numbered in table order (R195). -/
def shapes (c : Chip) (slot : Nat) : List LayerShape :=
  (numbered ((layerTable c slot).filter isAttn)).map (fun e =>
    { layer := e.1, heads := ldHeads e.2, dim := ldDim e.2 })

/-- The smoothing table of a slot (R182). -/
def smoothing (c : Chip) (slot : Nat) : Smoothing := Config.smooth (tget [] c.chip.smooth slot) slot

/-- State bytes of the recurrent layers of a slot (R211). -/
def recurSizes (c : Chip) (slot : Nat) : List Nat :=
  ((layerTable c slot).filter (fun d => ldKind d = 2)).map (fun d => ldAux d % 2 ^ 32)

/-- BF16 bytes of one position over every attention layer. -/
def posBytes (c : Chip) (slot : Nat) : Nat := ((shapes c slot).map rowBytes).sum

/-- Bytes allocated at TAIL_BASE: the tails, then the recurrent state (R93). -/
def tailSetBytes (c : Chip) (slot : Nat) : Nat := 128 * posBytes c slot + (recurSizes c slot).sum

/-- Offset of a layer's tail in the tail set (log entry 10). -/
def tailOff (c : Chip) (slot layer : Nat) : Nat :=
  128 * (((shapes c slot).take layer).map rowBytes).sum

/-- Bytes of the small-state area and of the exclusion table (R93). -/
abbrev smallBytes : Nat := 528384
/-- Bytes of the exclusion table (R93). -/
abbrev exclBytes : Nat := 128

/-- Footprint of a sealed block: header and payload (R92). -/
def blockSize (dense : Bool) (s : LayerShape) : Nat := 64 + payloadLen dense s 128

end Sys2Proof.Machine
end

