-- ==== Sys2Proof/Machine/Heap.lean ====
section
/-! DEFINITION. TIER's heap and block ledger (R93, R98-R100, R105, R449). -/

namespace Sys2Proof.Machine

/-- A partition other than 0 is valid. -/
def tenantsValid (c : Chip) : Bool := parts8.any (fun p => p ≠ 0 && partHolds c p)

/-- Base and size of the heap (R115). -/
def heapRegion (c : Chip) : Nat × Nat :=
  let w := reg c aTIER_HEAP
  (fld w 7 0 * 2 ^ 30, fld w 24 16 * 2 ^ 30)

/-- The part of the heap in a channel group of 32 GiB (R110, R449). -/
def heapInGroup (c : Chip) (g : Nat) : Nat × Nat :=
  let (b, n) := heapRegion c
  let lo := max b (g * 2 ^ 35)
  let hi := min (b + n) ((g + 1) * 2 ^ 35)
  (lo, hi - lo)

/-- Ranges of the heap that a partition allocates in (R449). -/
def heapRanges (c : Chip) (p : Nat) : List (Nat × Nat) :=
  if tenantsValid c then
    ((parts8.filter (fun g => nbit (fld (regB c p aSEC_PART_RES) 15 8) g)).map (heapInGroup c)).filter
      (fun r => 0 < r.2)
  else [heapRegion c]

/-- Bytes of the heap that a partition may use. -/
def heapTotal (c : Chip) (p : Nat) : Nat := ((heapRanges c p).map (·.2)).sum

/-- Bytes of the heap that a partition uses; without tenants every allocation counts. -/
def heapUsed (c : Chip) (p : Nat) : Nat :=
  ((c.tier.heap.filter (fun a => !tenantsValid c || a.2.2 = p)).map (·.2.1)).sum

/-- Space that cut-ins hold for their converted sessions (R299). -/
def heapHeld (c : Chip) (p : Nat) : Nat :=
  ((c.cuts.filter (fun r => !tenantsValid c || partOfIdx c r.idx = some p)).map (·.reckoned)).sum

/-- Free heap of a partition in bytes. -/
def heapFree (c : Chip) (p : Nat) : Nat := heapTotal c p - heapUsed c p - heapHeld c p

/-- PRESSURE.LOW in bytes. -/
def pressureLow (c : Chip) : Nat := fld (reg c aTIER_PRESSURE) 7 0 * 2 ^ 30

/-- PRESSURE.HIGH in bytes; a value not above LOW acts as LOW + 1 (R116). -/
def pressureHigh (c : Chip) : Nat :=
  let l := fld (reg c aTIER_PRESSURE) 7 0
  let h := fld (reg c aTIER_PRESSURE) 15 8
  (if h ≤ l then l + 1 else h) * 2 ^ 30

/-- A place for `n` bytes: 64 B aligned, inside a range, clear of every allocation. Address 0 stands for no allocation
(R40), and an allocation of no bytes has a place of its own. -/
def heapFits (c : Chip) (p a n : Nat) : Bool :=
  decide (0 < a ∧ a % 64 = 0) && (heapRanges c p).any (fun r => r.1 ≤ a && a + n ≤ r.1 + r.2) &&
    c.tier.heap.all (fun x => !overlaps a (max 1 n) x.1 (max 1 x.2.1))

/-- Places to try: the start of each range and the end of each allocation. -/
def heapCands (c : Chip) (p : Nat) : List Nat :=
  (heapRanges c p).map (fun r => max 64 (roundUp r.1 64)) ++ c.tier.heap.map (fun x => roundUp (x.1 + max 1 x.2.1) 64)

/-- Allocates `n` bytes for a partition. Which place is left open (log entry 12): the free value where it
names one, else the first that fits. -/
def heapAlloc (c : Chip) (p n : Nat) : Option (Nat × Chip) :=
  let (v, c1) := takeFree c
  let a := v % 2 ^ 32 * 64
  match (if heapFits c1 p a n then some a else (heapCands c1 p).find? (fun b => heapFits c1 p b n)) with
  | none => none
  | some b => some (b, { c1 with tier := { c1.tier with heap := c1.tier.heap ++ [(b, n, p)] } })

/-- Allocates a list of sizes; all or none. -/
def heapAllocs (c : Chip) (p : Nat) : List Nat → Option (List Nat × Chip)
  | [] => some ([], c)
  | n :: r =>
    match heapAlloc c p n with
    | none => none
    | some (a, c1) =>
      match heapAllocs c1 p r with
      | none => none
      | some (l, c2) => some (a :: l, c2)

/-- Releases the allocation at an address. -/
def heapRelease (c : Chip) (a : Nat) : Chip :=
  { c with tier := { c.tier with heap := dropFirst (fun x => x.1 = a) c.tier.heap } }

/-- The channel of an address (R110). -/
def channelOf (c : Chip) (a : Nat) : Nat :=
  if bit (reg c aGDR_INTERLEAVE) 0 then a / 2 ^ 35 % 8 * 4 + ((a / 2 ^ 8 % 4) ^^^ (a / 2 ^ 16 % 4))
  else (a / 2 ^ 8 % 32) ^^^ (a / 2 ^ 16 % 32)

/-! ### Ledger (R98-R100) -/

/-- A FREE ledger entry. -/
def ledgerReset : Ledger :=
  { gddr := none, size := 0, flash := none, ref := 0, res := 0, state := .free, refSeq := 0 }

/-- A ledger entry. -/
def ledger (c : Chip) (i : Nat) : Ledger := tget ledgerReset c.tier.ledger i

/-- Writes a ledger entry. -/
def setLedger (c : Chip) (i : Nat) (e : Ledger) : Chip :=
  { c with tier := { c.tier with ledger := tset ledgerReset c.tier.ledger i e } }

/-- Entries of the ledger (R115, R116). -/
def ledgerSize (c : Chip) : Nat :=
  2 ^ max 20 (min 28 (fld (reg c aTIER_LEDGER_SIZE) 4 0))

/-- TIER.LEDGER_FREE. -/
def ledgerFree (c : Chip) : Nat :=
  ledgerSize c - (c.tier.ledger.filter (fun e => decide (e.2.state ≠ .free))).length

/-- LEDGER_LOW (R114, R115): LEDGER_FREE fell below 1/16 of the entries; `was` is its value before. -/
def noteLedger (was : Nat) (c : Chip) : Chip :=
  if ledgerSize c / 16 ≤ was ∧ ledgerFree c < ledgerSize c / 16 then raise c .tier 21 else c

/-- A FREE entry: the free value where it names one, else the lowest (log entry 12). -/
def pickLedger (c : Chip) (v : Nat) : Option Nat :=
  if ledgerFree c = 0 then none
  else if (ledger c (v % ledgerSize c)).state = .free then some (v % ledgerSize c)
  else (List.range (c.tier.ledger.length + 1)).find? (fun i => decide ((ledger c i).state = .free))

/-- Takes a ledger entry and heap space for a sealed block (R94, R100): STAGED. -/
def stageBlock (c : Chip) (part size : Nat) : Option (Nat × Nat × Chip) :=
  let (v, c1) := takeFree c
  match pickLedger c1 v with
  | none => none
  | some i =>
    match heapAlloc c1 part size with
    | none => none
    | some (a, c2) =>
      let c3 := setLedger c2 i { ledgerReset with gddr := some a, size := size, state := .staged }
      some (i, a, noteLedger (ledgerFree c1) c3)

/-- Releases the GDDR7 copy of a block. -/
def dropGddr (c : Chip) (i : Nat) : Chip :=
  match (ledger c i).gddr with
  | none => c
  | some a => setLedger (heapRelease c a) i { ledger c i with gddr := none }

/-- Releases a block with every copy (R100: REFCOUNT reached 0, or an aborted STAGED block). -/
def freeBlock (c : Chip) (i : Nat) : Chip :=
  let c1 := dropGddr c i
  let c2 := match (ledger c1 i).flash with
    | none => c1
    | some a => flashFree c1 a
  setLedger c2 i ledgerReset

/-- Releases the GDDR7 copy of a MIRRORED block without claims (R100): FLASH. -/
def releaseCopy (c : Chip) (i : Nat) : Chip :=
  if (ledger c i).state = .mirrored ∧ (ledger c i).res = 0 then
    let c1 := dropGddr c i
    setLedger c1 i { ledger c1 i with state := .flash }
  else c

/-- Takes a claim (R99). -/
def takeClaim (c : Chip) (i : Nat) : Chip := setLedger c i { ledger c i with res := (ledger c i).res + 1 }

/-- Drops a claim (R99). The copy stays: only an eviction releases it (R100). -/
def dropClaim (c : Chip) (i : Nat) : Chip := setLedger c i { ledger c i with res := (ledger c i).res - 1 }

/-- Drops a claim for an eviction (R103): a block whose RES_COUNT reaches 0 goes from MIRRORED to FLASH. -/
def evictClaim (c : Chip) (i : Nat) : Chip := releaseCopy (dropClaim c i) i

/-- A reference change of a committed figure, applied once (R77). A count of 0 releases the block. -/
def refAdjust (c : Chip) (seq i : Nat) (up : Bool) : Chip :=
  let e := ledger c i
  if seq ≤ e.refSeq then c
  else if up then setLedger c i { e with ref := min 65535 (e.ref + 1), refSeq := seq }
  else if e.ref ≤ 1 then freeBlock (setLedger c i { e with ref := 0, refSeq := seq }) i
  else setLedger c i { e with ref := e.ref - 1, refSeq := seq }

end Sys2Proof.Machine
end

