-- ==== Sys2Proof/Machine/Record.lean ====
section
/-! DEFINITION. The bytes of the figure log and of staged arguments (R69-R71, R247): action entries, intent, commit
and abort records. -/

namespace Sys2Proof.Machine

/-! ### Staged arguments (R69, R70) -/

/-- One live slot of the count table (R246). -/
def countSlotBytes (s : CountSlot) : List Byte :=
  leBytes 8 (s.token + s.count * 2 ^ 20 + s.last * 2 ^ 36 + 2 ^ 58)

/-- A staged pair of COUNT_BATCH (R247): slot number, two reserved bytes, the slot's new contents. -/
def pairBytes (e : Nat × CountSlot) : List Byte := leBytes 2 e.1 ++ [0, 0] ++ countSlotBytes e.2

/-- Stack entries (R279): 4 B each. -/
def stackBytes (l : List Nat) : List Byte := l.flatMap (leBytes 4)

/-- The stop matcher's area (R285): the history, then eight stop strings filled up with 0xFF. -/
def stopBytes (hist : List Byte) (stops : List (List Byte)) : List Byte :=
  hist ++ (List.range 8).flatMap (fun k =>
    let s := (stops.getD k []).take 64
    s ++ List.replicate (64 - s.length) 0xFF)

/-- An exclusion table (R93): 16 spans. -/
def spanBytes (spans : List (Nat × Nat)) : List Byte :=
  padTo 128 (spans.flatMap (fun e => leBytes 4 e.1 ++ leBytes 4 e.2))

/-- The bytes that an action has in the staging pool (R69, R70). -/
def stagedArgs (a : Action) : List Byte :=
  match a with
  | .kvAppend _ _ stage => stage.flatMap (·.2)
  | .blockRef refs => refs.flatMap (fun e => leBytes 4 e.2)
  | .countBatch l => l.flatMap pairBytes
  | .grammarSet l => stackBytes l
  | .stopSet h s => stopBytes h s
  | .exclSet spans _ => spanBytes spans
  | .regOverlay _ writes => writes.flatMap (fun w => leBytes 4 w.1.toNat ++ leBytes 4 w.2.toNat)
  | .tableSet _ _ _ => []
  | .tokenEmit _ _ => []
  | .dirSet _ _ _ => []
  | .epochSet _ => []
  | .refAdjust _ _ => []
  | .regionSet _ _ => []
  | .ckptCommit _ _ => []

/-- The staged bytes of a list of actions, in their order. -/
def stagedBytes (acts : List Action) : List Byte := acts.flatMap stagedArgs

/-- A list of count pairs as COUNT_BATCH actions of at most 4,096 pairs each (R69). -/
def countBatches (l : List (Nat × CountSlot)) : List Action :=
  ((List.range (l.length / 4096 + 1)).map (fun k => (l.drop (4096 * k)).take 4096)).filterMap (fun p =>
    if p.isEmpty then none else some (.countBatch p))

/-! ### Action entries (R71) -/

/-- Byte offset and size code of a directory field (R40, R71). -/
def fieldPlace (f : DirField) : Nat × Nat :=
  match f with
  | .part => (0x00, 2)
  | .state => (0x04, 0)
  | .flags => (0x05, 0)
  | .priority => (0x06, 0)
  | .model => (0x07, 0)
  | .length => (0x08, 2)
  | .maxLen => (0x0C, 2)
  | .client => (0x14, 1)
  | .grammar => (0x16, 1)
  | .blockTable => (0x18, 3)
  | .tailBase => (0x20, 3)
  | .smallState => (0x28, 3)
  | .exclTable => (0x30, 3)
  | .prngKey => (0x40, 3)
  | .prngCtr => (0x48, 3)
  | .resident => (0x50, 2)
  | .flashBlocks => (0x54, 2)
  | .parent => (0x58, 2)
  | .excluded => (0x60, 2)
  | .stopCount => (0x64, 0)
  | .exclCount => (0x65, 0)

/-- Code of a registration's state (R340). -/
def regionCode (s : RegionState) : Nat :=
  match s with
  | .free => 0
  | .active => 1
  | .draining => 2

/-- TYPE, FLAGS, ARG_A, ARG_B and ARG_C of an action (R69, R71); `at_` is the pool address of its staged arguments and
`h` the handle of the session it sets. DEDUCED: which argument each value of a type takes (log entry 94). -/
def entryFields (h at_ : Nat) (a : Action) : Nat × Nat × Nat × Nat × Nat :=
  match a with
  | .kvAppend first n stage => (0x01, 0, n, first, if stage.isEmpty then 0 else at_)
  | .blockRef refs => (0x02, 0, refs.length, (refs.map (·.1)).headD 0 / max 1 refs.length, at_)
  | .tokenEmit t n => (0x03, 0, n, t, at_)
  | .countBatch l => (0x04, 0, l.length, 0, at_)
  | .grammarSet l => (0x05, 0, l.length, l.headD 0, at_)
  | .stopSet _ _ => (0x06, 0, 576, 0, at_)
  | .dirSet sub f v =>
    (0x07, b2n sub + 2 * (fieldPlace f).2, (fieldPlace f).1, 0, if f = .part then h else v)
  | .tableSet a _ _ => (0x07, 2 * 3, 0x18, 0, a)
  | .epochSet e => (0x08, 0, 0, e, 0)
  | .exclSet spans n => (0x09, 0, spans.length, n, at_)
  | .refAdjust k up => (0x0A, 16 * b2n (!up), 0, 0, k)
  | .regionSet sub st => (0x0B, b2n sub, regionCode st, 0, 0)
  | .regOverlay n writes => (0x0C, 0, writes.length, n, at_)
  | .ckptCommit e g => (0x0D, 0, 0, e.toNat, g)

/-- The 16 B of an action entry (R71). -/
def actionBytes (f : Nat × Nat × Nat × Nat × Nat) : List Byte :=
  leBytes 1 f.1 ++ leBytes 1 f.2.1 ++ leBytes 2 f.2.2.1 ++ leBytes 4 f.2.2.2.1 ++ leBytes 8 f.2.2.2.2

/-- An action that stands in the intent record: the reference changes of R77 do not (log entry 13). -/
def recorded (a : Action) : Bool :=
  match a with
  | .refAdjust _ _ => false
  | _ => true

/-- The entries of a list of actions whose staged arguments lie one after the other from `at_`. -/
def entriesFrom (h : Bool → Nat) : Nat → List Action → List Byte
  | _, [] => []
  | at_, a :: r =>
    let sub := match a with
      | .dirSet s _ _ => s
      | _ => false
    actionBytes (entryFields (h sub) at_ a) ++ entriesFrom h (at_ + (stagedArgs a).length) r

/-! ### Log records (R71) -/

/-- What an intent and the record that closes it share: COUNT, identifiers and kinds of the subjects, ORIGIN,
INTENT_ID. -/
structure LogHead where
  count : Nat
  sub0 : Nat
  sub1 : Nat
  kinds : Nat
  origin : Nat
  id : Nat
  deriving DecidableEq, Repr

/-- An intent record (R71) over the bytes of its action entries. -/
def intentBytes (h : LogHead) (entries : List Byte) : List Byte :=
  let l := leBytes 2 0x4649 ++ leBytes 1 0x01 ++ leBytes 1 h.count ++ leBytes 4 h.sub0 ++ leBytes 4 h.sub1 ++
    leBytes 1 h.kinds ++ leBytes 1 h.origin ++ [0, 0] ++ leBytes 8 h.id ++ leBytes 4 0
  padTo (roundUp (32 + entries.length) 32) (l ++ leBytes 4 (crc32c (l ++ entries)) ++ entries)

/-- A commit (kind 0x02) or abort (kind 0x03) record (R71). -/
def closeBytes (kind : Nat) (h : LogHead) (seq stamp : Nat) : List Byte :=
  let l := leBytes 2 0x4649 ++ leBytes 1 kind ++ leBytes 1 h.count ++ leBytes 4 h.sub0 ++ leBytes 8 h.id ++
    leBytes 8 seq ++ leBytes 4 stamp
  l ++ leBytes 4 (crc32c l)

/-- Writes records into the ring of 32,768 units of 32 B, from a unit on. -/
def ringPut (t : Tbl (List Byte)) (pos : Nat) (l : List Byte) : Tbl (List Byte) :=
  (numbered (chunksOf (l.length / 32) 32 l)).foldl (fun t e => tins t ((pos + e.1) % 32768) e.2) t

/-- Code of a figure's origin (R71). -/
def originCode (o : Origin) : Nat :=
  match o with
  | .step => 1
  | .session => 2
  | .cutIn => 3
  | .transport => 4
  | .overlay => 5
  | .checkpoint => 6

/-- Kind of a subject (R68). -/
def subjectKind (s : Subject) : Nat :=
  match s with
  | .session _ => 0
  | .region _ => 1
  | .config => 2
  | .checkpoint => 3

end Sys2Proof.Machine
end

