-- ==== Sys2Proof/Machine/Fig.lean ====
section
/-! DEFINITION. The session directory as data (R36-R42), the free lists (R38), completion and output records
(R63, R277), and figures: opening, commit, application (R68-R77). -/

namespace Sys2Proof.Machine

/-! ### Directory -/

/-- A FREE entry at generation 1 (R65). -/
def freeEntry : Session :=
  { part := 0, gen := 1, state := .free, dense := false, stopInclude := false, shared := false,
    tailDecoded := false, priority := 0, model := 0, length := 0, maxLen := 0, epoch := 0, client := 0,
    grammar := 0, blockTable := 0, tailBase := 0, smallState := 0, exclTable := 0, figSeq := 0,
    prngKey := 0, prngCtr := 0, resident := 0, flashBlocks := 0, parent := 0, stamp := 0, excluded := 0,
    stopCount := 0, exclCount := 0, crcFlip := 0 }

/-- What a FREE entry owns. -/
def bodyReset : Body :=
  { blocks := [], claims := [], counts := [], gram := [], hist := [], stops := [], excl := [],
    image := none, evict := none, unsettled := false, secure := false,
    ckptWait := 0 }

/-- A directory entry. -/
def entry (c : Chip) (i : Nat) : Session := tget freeEntry c.sess.entries i

/-- Writes a directory entry. -/
def setEntry (c : Chip) (i : Nat) (e : Session) : Chip :=
  { c with sess := { c.sess with entries := tset freeEntry c.sess.entries i e } }

/-- What a session owns. -/
def body (c : Chip) (i : Nat) : Body := tget bodyReset c.sess.bodies i

/-- Writes what a session owns. -/
def setBody (c : Chip) (i : Nat) (b : Body) : Chip :=
  { c with sess := { c.sess with bodies := tset bodyReset c.sess.bodies i b } }

/-- The operations of a session, the one in progress first (R49). -/
def opsOf (c : Chip) (i : Nat) : List Op := tget [] c.sess.ops i

/-- Writes the operations of a session. -/
def setOps (c : Chip) (i : Nat) (l : List Op) : Chip :=
  { c with sess := { c.sess with ops := tset [] c.sess.ops i l } }

/-- Queue places in use chip-wide (R49). -/
def opPlaces (c : Chip) : Nat := (c.sess.ops.map (fun e => e.2.length - 1)).sum

/-- The handle of an entry. -/
def handleOf (c : Chip) (i : Nat) : Word := mkHandle (entry c i).part i (entry c i).gen

/-- Code of a session state (R40). -/
def stateCode (s : SessState) : Nat :=
  match s with
  | .free => 0
  | .ready => 1
  | .running => 2
  | .sitout => 3
  | .cold => 4
  | .handoffOut => 5
  | .handoffIn => 6
  | .held => 7
  | .ended => 8
  | .damaged => 9

/-- The state of a code. -/
def stateOf (n : Nat) : SessState :=
  [.free, .ready, .running, .sitout, .cold, .handoffOut, .handoffIn, .held, .ended,
    SessState.damaged].getD n .free

/-- FLAGS of an entry (R40). -/
def flagsOf (e : Session) : Nat :=
  b2n e.dense + 2 * b2n e.stopInclude + 4 * b2n e.shared + 8 * b2n e.tailDecoded

/-- Blocks a session holds a claim on, and those it does not (R99). -/
def residentOf (b : Body) : Nat := b.claims.length

/-- The 128 B of an entry (R40). PENDING counts the operations queued now (log entry 14). -/
def entryBytes (e : Session) (idx pending : Nat) : List Byte :=
  let l := leBytes 4 (mkHandle e.part idx e.gen).toNat ++ leBytes 1 (stateCode e.state) ++
    leBytes 1 (flagsOf e) ++ leBytes 1 e.priority ++ leBytes 1 e.model ++ leBytes 4 e.length ++
    leBytes 4 e.maxLen ++ leBytes 4 e.epoch ++ leBytes 2 e.client ++ leBytes 2 e.grammar ++
    leBytes 8 e.blockTable ++ leBytes 8 e.tailBase ++ leBytes 8 e.smallState ++ leBytes 8 e.exclTable ++
    leBytes 8 e.figSeq ++ leBytes 8 e.prngKey.toNat ++ leBytes 8 e.prngCtr.toNat ++
    leBytes 4 e.resident ++ leBytes 4 e.flashBlocks ++ leBytes 4 e.parent.toNat ++
    leBytes 4 e.stamp.toNat ++ leBytes 4 e.excluded ++ leBytes 1 e.stopCount ++ leBytes 1 e.exclCount ++
    leBytes 1 (min 255 pending) ++ List.replicate 21 0
  l ++ leBytes 4 (crc32c l ^^^ e.crcFlip.toNat)

/-! ### Free lists (R38) -/

/-- The first FREE index from `base + k` that does not stand in the list of freed ones, with fuel. -/
def nextFresh (c : Chip) (freed : List Nat) (base count : Nat) : Nat → Nat → Option Nat
  | 0, _ => none
  | f + 1, k =>
    if count ≤ k then none
    else if (entry c (base + k)).state = .free ∧ (base + k) ∉ freed then some (base + k)
    else nextFresh c freed base count f (k + 1)

/-- The head of a partition's free list: indices of its range that were FREE when the list began and not used since, in
rising order, then the freed ones in the order they were freed (log entry 15). Indices that figures waiting
to open will take are passed over. -/
def freeIndex (c : Chip) (p : Nat) : Option Nat :=
  let (base, count) := dirRange c p
  let taken := c.fig.waiting.flatMap (fun f => f.after.filterMap (fun a =>
    match a with
    | .takeIndex i => some i
    | _ => none))
  let k := tget 0 c.sess.fresh p
  let freed := tget [] c.sess.freed p
  match nextFresh c (taken ++ freed) base count (c.sess.entries.length + taken.length + freed.length + 1) k with
  | some i => some i
  | none => freed.find? (fun i => i ∉ taken)

/-- Takes an index from its list when the figure that creates its entry commits (R38). -/
def takeIndex (c : Chip) (i : Nat) : Chip :=
  match partOfIdx c i with
  | none => c
  | some p =>
    let fr := tget [] c.sess.freed p
    let fr' := tset [] c.sess.freed p (fr.erase i)
    let fs' := tset 0 c.sess.fresh p (i - (dirRange c p).1 + 1)
    let waits := c.fig.waiting.any (fun f => f.after.any (fun a =>
      match a with
      | .takeIndex _ => true
      | _ => false))
    if i ∈ fr then { c with sess := { c.sess with freed := fr' } }
    else if waits then c
    else { c with sess := { c.sess with fresh := fs' } }

/-- Puts a freed index at the tail of its list (R38). -/
def putIndex (c : Chip) (i : Nat) : Chip :=
  match partOfIdx c i with
  | none => c
  | some p =>
    let fr := tget [] c.sess.freed p ++ [i]
    { c with sess := { c.sess with freed := tset [] c.sess.freed p fr } }

/-- A partition's free list begins anew: its directory range changed, or its entries were written by another way than
operations (log entry 15). -/
def renewList (c : Chip) (p : Nat) : Chip :=
  { c with sess := { c.sess with fresh := tset 0 c.sess.fresh p 0, freed := tset [] c.sess.freed p [] } }

/-- The next generation (R38): 127 is followed by 1. -/
def nextGen (g : Nat) : Nat := if 127 ≤ g then 1 else g + 1

/-! ### Registrations (R326) -/

/-- A FREE registration at generation 1. -/
def regionReset : Region :=
  { state := .free, gen := 1, part := 0, base := 0, len := 0, write := false, read := false, conn := 0,
    notify := 0, inflight := 0, landing := false, zeroing := false, violated := false, replyConn := 0, replyTag := 0 }

/-- A registration by index. -/
def region (c : Chip) (i : Nat) : Region := tget regionReset c.xpt.regions i

/-- Writes a registration. -/
def setRegion (c : Chip) (i : Nat) (r : Region) : Chip :=
  { c with xpt := { c.xpt with regions := tset regionReset c.xpt.regions i r } }

/-- The tag of a registration (R313). -/
def regionTag (c : Chip) (i : Nat) : Word := w32 (i * 256 + (region c i).gen)

/-- Takes a registration index from its free list (R326: first in, first out, as handles are). -/
def takeRegion (c : Chip) (i : Nat) : Chip :=
  if i ∈ c.xpt.freedRegions then
    { c with xpt := { c.xpt with freedRegions := c.xpt.freedRegions.erase i } }
  else { c with xpt := { c.xpt with freshRegion := max c.xpt.freshRegion (i + 1) } }

/-! ### Records -/

/-- The 128 B completion record (R63). -/
def compBytes (r : CompRec) (seq stamp : Nat) : List Byte :=
  leBytes 1 1 ++ [r.status] ++
    leBytes 2 (b2n r.preempted + 2 * b2n r.stopIncluded + 4 * b2n r.implicit + 8 * b2n r.tailDecoded) ++
    leBytes 4 r.handle.toNat ++ leBytes 8 r.tag.toNat ++ leBytes 1 r.code ++
    leBytes 1 r.overhang.length ++ leBytes 1 r.stopIndex ++ [0] ++ leBytes 4 r.epoch ++
    leBytes 4 r.length ++ leBytes 4 r.tokensIn ++ leBytes 4 r.tokensOut ++ leBytes 4 r.textBytes ++
    leBytes 8 seq ++ leBytes 8 stamp ++ leBytes 8 r.aux.toNat ++ padTo 64 r.overhang

/-- The output record (R277). -/
def outBytes (r : OutRec) (seq : Nat) : List Byte :=
  let l := leBytes 1 2 ++ leBytes 1 r.tokens.length ++ leBytes 2 r.text.length ++
    leBytes 4 r.handle.toNat ++ leBytes 8 r.tag.toNat ++ leBytes 8 seq ++ leBytes 4 r.firstPos ++
    leBytes 2 (b2n r.stopCut + 2 * b2n r.flush) ++ [0, 0] ++ r.tokens.flatMap (leBytes 4) ++ r.text
  padTo (roundUp l.length 8) l

/-- Sends what follows a commit: records as RECORD messages (R335), anything else under its class. -/
def sendOut (c : Chip) (n : Nat) (m : OutMsg) (seq : Nat) : Chip :=
  match m with
  | .comp r =>
    let (stamp, c1) := takeFine c
    sendMsg c1 n 2 (compBytes r (r.figSeq.getD seq) stamp)
  | .out r => sendMsg c n 2 (outBytes r (r.figSeq.getD seq))
  | .raw cls b => sendMsg c n cls b

/-! ### Operations that end -/

/-- Job counts of a client (R239): started, completed, aborted. -/
def jobs (c : Chip) (p client : Nat) : Nat × Nat × Nat := tget (0, 0, 0) c.sched.clients (p * 65536 + client)

/-- Writes the job counts of a client; each wraps modulo 2^32. -/
def setJobs (c : Chip) (p client : Nat) (j : Nat × Nat × Nat) : Chip :=
  let j' := (j.1 % 2 ^ 32, j.2.1 % 2 ^ 32, j.2.2 % 2 ^ 32)
  { c with sched := { c.sched with
      clients := tset (0, 0, 0) c.sched.clients (p * 65536 + client) j' } }

/-- Counts the end of a started job (R239). -/
def countJobEnd (c : Chip) (i status : Nat) (o : Op) : Chip :=
  if o.started ∧ (o.code = 2 ∨ o.code = 3) then
    let e := entry c i
    let (s, d, a) := jobs c e.part e.client
    setJobs c e.part e.client (if status ≤ 0x0F then (s, d + 1, a) else (s, d, a + 1))
  else c

/-- Counts an operation ended by TIER_LATE or TIER_FAULT (R115). -/
def countTier (c : Chip) (status : Nat) : Chip :=
  if status = stTierLate then raise (bump c aTIER_LATE_CNT 1) .tier 18
  else if status = stTierFault then raise (bump c aTIER_FAULT_CNT 1) .tier 19
  else c

/-- The next operation becomes due: at once, or at a step boundary after an APPEND or GENERATE (R48). -/
def dueNext (o : Op) : List Op → List Op
  | [] => []
  | n :: r => (if o.code = 2 ∨ o.code = 3 then n else { n with phase := .due }) :: r

/-- Ends the operation in progress of a session: it leaves the queue. -/
def endOp (c : Chip) (i status : Nat) : Chip :=
  match opsOf c i with
  | [] => c
  | o :: r => countTier (countJobEnd (setOps c i (dueNext o r)) i status o) status

/-! ### Figures -/

/-- A DIR_SET on a field of an entry (R69). -/
def setField (e : Session) (f : DirField) (v : Nat) : Session :=
  match f with
  | .part => { e with part := v }
  | .state => { e with state := stateOf v }
  | .flags => { e with dense := nbit v 0, stopInclude := nbit v 1, shared := nbit v 2, tailDecoded := nbit v 3 }
  | .priority => { e with priority := v }
  | .model => { e with model := v }
  | .length => { e with length := v }
  | .maxLen => { e with maxLen := v }
  | .client => { e with client := v }
  | .grammar => { e with grammar := v }
  | .blockTable => { e with blockTable := v }
  | .tailBase => { e with tailBase := v }
  | .smallState => { e with smallState := v }
  | .exclTable => { e with exclTable := v }
  | .prngKey => { e with prngKey := w64 v }
  | .prngCtr => { e with prngCtr := w64 v }
  | .resident => { e with resident := v }
  | .flashBlocks => { e with flashBlocks := v }
  | .parent => { e with parent := w32 v }
  | .excluded => { e with excluded := v }
  | .stopCount => { e with stopCount := v }
  | .exclCount => { e with exclCount := v }

/-- A field of an entry as a number. -/
def getField (e : Session) (f : DirField) : Nat :=
  match f with
  | .part => e.part
  | .state => stateCode e.state
  | .flags => flagsOf e
  | .priority => e.priority
  | .model => e.model
  | .length => e.length
  | .maxLen => e.maxLen
  | .client => e.client
  | .grammar => e.grammar
  | .blockTable => e.blockTable
  | .tailBase => e.tailBase
  | .smallState => e.smallState
  | .exclTable => e.exclTable
  | .prngKey => e.prngKey.toNat
  | .prngCtr => e.prngCtr.toNat
  | .resident => e.resident
  | .flashBlocks => e.flashBlocks
  | .parent => e.parent.toNat
  | .excluded => e.excluded
  | .stopCount => e.stopCount
  | .exclCount => e.exclCount

/-- The fields that a DIR_SET can name, in the order in which a figure sets them. -/
def dirFields : List DirField :=
  [.part, .state, .flags, .priority, .model, .length, .maxLen, .client, .grammar, .blockTable, .tailBase,
   .smallState, .exclTable, .prngKey, .prngCtr, .resident, .flashBlocks, .parent, .excluded, .stopCount,
   .exclCount]

/-- The DIR_SET actions that take an entry from one value to another; STATE comes before the addresses that it
releases. -/
def dirDiff (sub : Bool) (old new : Session) : List Action :=
  (dirFields.filter (fun f => getField old f ≠ getField new f)).map (fun f =>
    .dirSet sub f (getField new f))

/-- Actions that count toward the limit of 64 (R69; log entry 13). -/
def countedActs (f : Figure) : Nat := (f.acts.filter recorded).length

/-- Log units of 32 B that a figure takes (R71): intent record and commit record. -/
def figUnits (f : Figure) : Nat := (32 + 16 * countedActs f + 31) / 32 + 1

/-- Free bytes of the log (R87). -/
def logFree (c : Chip) : Nat := (32768 - c.fig.logUsed) * 32

/-- Bytes of the staging pool (R87). -/
def stageSize (c : Chip) : Nat := max 1 (min 256 (fld (reg c aFIG_STAGE_SIZE) 8 0)) * 2 ^ 26

/-- Bytes of the staging pool neither staged nor reserved (R87). -/
def stageFree (c : Chip) : Nat := stageSize c - c.fig.staged - c.fig.reserved

/-- The session index that a `sub` flag selects (R71). -/
def subjectIdx (f : Figure) (sub : Bool) : Option Nat :=
  let l := f.subjects.filterMap (fun s =>
    match s with
    | .session i => some i
    | _ => none)
  l[(if sub then 1 else 0)]?

/-- The registration that a `sub` flag selects. -/
def subjectRegion (f : Figure) : Option Nat :=
  (f.subjects.filterMap (fun s =>
    match s with
    | .region i => some i
    | _ => none)).head?

/-- A request would need more than 64 actions (R69). -/
def tooMany (f : Figure) : Bool := 64 < countedActs f

/-- The identifier of a subject (R68): the handle of a session, a new one's as its figure makes it. -/
def subjectId (c : Chip) (s : Subject) : Nat :=
  match s with
  | .session i =>
    (mkHandle (if (entry c i).state = .free then (partOfIdx c i).getD 0 else (entry c i).part) i (entry c i).gen).toNat
  | .region i => (regionTag c i).toNat
  | .config => 0
  | .checkpoint => 0

/-- What the records of a figure share (R71). -/
def logHeadOf (c : Chip) (f : Figure) : LogHead :=
  { count := countedActs f
    sub0 := (f.subjects.head?.map (subjectId c)).getD 0
    sub1 := (f.subjects[1]?.map (subjectId c)).getD 0
    kinds := (f.subjects.head?.map subjectKind).getD 0 + 16 * (f.subjects[1]?.map subjectKind).getD 0xF
    origin := originCode f.origin
    id := c.fig.written }

/-- The intent record of a figure whose staged bytes lie at a place of the pool. -/
def intentOf (c : Chip) (f : Figure) (place : Nat) : List Byte :=
  let h := logHeadOf c f
  intentBytes h (entriesFrom (fun sub => if sub then h.sub1 else h.sub0) (pair c aFIG_STAGE_BASE_LO + place)
    (f.acts.filter recorded))

/-- A place in the pool clear of every figure that is not yet applied. -/
def placeClear (c : Chip) (n a : Nat) : Bool :=
  decide (a + n ≤ stageSize c) && c.fig.committed.all (fun k => !overlaps a n k.place k.fig.staged)

/-- Where staged bytes lie in the pool is left open (log entry 12): the free value where it names a clear place, else
the first clear one behind another figure's bytes. -/
def stagePlace (c : Chip) (n v : Nat) : Nat :=
  let a := v % stageSize c
  if placeClear c n a then a
  else ((0 :: c.fig.committed.map (fun k => k.place + k.fig.staged)).find? (placeClear c n)).getD 0

/-- Releases the heap pieces of an entry whose addresses a figure replaces or drops. -/
def releaseAddr (c : Chip) (a : Nat) : Chip := if a = 0 then c else heapRelease c a

/-- Counts RESIDENT_BLOCKS and FLASH_BLOCKS from what a session refers to (R99). -/
def recount (c : Chip) (i : Nat) : Chip :=
  let b := body c i
  let n := (b.blocks.map (·.2)).length
  setEntry c i { entry c i with resident := b.claims.length, flashBlocks := n - b.claims.length }

/-- Releases the tails, small state and exclusion table of an entry (R93). -/
def releaseState (c : Chip) (i : Nat) : Chip :=
  let e := entry c i
  if e.tailBase = 0 then c
  else releaseAddr (releaseAddr (releaseAddr c e.tailBase) e.smallState) e.exclTable

/-- Frees a COLD image, durable or not (R104, R126). -/
def releaseImage (c : Chip) (i : Nat) : Chip :=
  let b := body c i
  let c1 := match b.image with
    | some a => flashFree c a
    | none => c
  match b.evict with
  | some (some w, none) => cancelWrite c1 w
  | some (_, some a) => if b.image = some a then c1 else flashFree c1 a
  | _ => c1

/-- A session that becomes COLD (R103): its claims are dropped, tails, small state and exclusion table
freed; the image of its eviction is its image. -/
def goCold (c : Chip) (i : Nat) : Chip :=
  let b := body c i
  let c1 := releaseState c i
  let c2 := b.claims.foldl evictClaim c1
  let img := match b.evict with
    | some (_, some a) => some a
    | _ => b.image
  recount (setBody c2 i { b with claims := [], image := img, evict := none }) i

/-- An entry that becomes FREE: what it held is released (R60), the next generation, its index to the free
list; a secure discard leaves only handle, state and generation (R38, R467). -/
def enterFree (c : Chip) (seq i : Nat) : Chip :=
  let e := entry c i
  let b := body c i
  let c1 := releaseImage (releaseState c i) i
  let c2 := b.claims.foldl dropClaim c1
  let c3 := b.blocks.foldl (fun c k => refAdjust c seq k.2 false) c2
  let e' := if b.secure then { freeEntry with part := e.part } else e
  putIndex (setBody (setEntry c3 i { e' with state := .free, gen := nextGen e.gen }) i bodyReset) i

/-- A block table that replaces the one before it: claims left are dropped, new ones taken (R99, R100). -/
def replaceTable (c : Chip) (i : Nat) (blocks : Tbl Nat) (claims : List Nat) : Chip :=
  let old := (body c i).claims
  let c1 := (claims.filter (fun k => k ∉ old)).foldl takeClaim c
  let c2 := (old.filter (fun k => k ∉ claims)).foldl dropClaim c1
  recount (setBody c2 i { body c2 i with blocks := blocks, claims := claims }) i

/-- SEAL_SEQ and HDR_CRC of a stored block header (R96). -/
def sealHeader (m : List Host.Cell) (a seq : Nat) : List Host.Cell :=
  let m1 := memWrite m (a + 0x18) (leBytes 8 seq)
  memWrite m1 (a + 0x3C) (leBytes 4 (crc32c (memRead m1 a 60)))

/-- Applies one action (R69, R73). -/
def applyAct (c : Chip) (seq : Nat) (f : Figure) (a : Action) : Chip :=
  let i := (subjectIdx f false).getD 0
  match a with
  | .kvAppend _ _ stage => { c with mem := stage.foldl (fun m e => memWrite m e.1 e.2) c.mem }
  | .blockRef refs =>
    let b := body c i
    let es := refs.map (·.2)
    let c1 := es.foldl (fun c k =>
      setLedger { c with mem := sealHeader c.mem ((ledger c k).gddr.getD 0) seq } k
        { ledger c k with state := .resident, ref := 1, res := 1, refSeq := seq }) c
    let c2 := setBody c1 i { b with
      blocks := refs.foldl (fun t e => tins t e.1 e.2) b.blocks
      claims := b.claims ++ es }
    recount c2 i
  | .tableSet a blocks claims => setEntry (replaceTable c i blocks claims) i
      { entry (replaceTable c i blocks claims) i with blockTable := a }
  | .tokenEmit _ _ => c
  | .countBatch l =>
    let b := body c i
    let t := l.foldl (fun t e => tset { token := 0, count := 0, last := 0 } t e.1 e.2) b.counts
    setBody c i { b with counts := t }
  | .grammarSet l => setBody c i { body c i with gram := l }
  | .stopSet h l => setBody c i { body c i with hist := h, stops := l }
  | .dirSet sub fd v =>
    let k := (subjectIdx f sub).getD 0
    let c1 := setEntry c k (setField (entry c k) fd v)
    if fd = .state then
      let was := (entry c k).state
      let (st, c2) := takeTick c1
      let c3 := setEntry c2 k { entry c2 k with stamp := w32 st }
      if v = 0 then enterFree c3 seq k
      else if v = 4 then goCold c3 k
      else if was = .cold ∧ (v = 1 ∨ v = 3) then setBody (releaseImage c3 k) k { body c3 k with image := none }
      else c3
    else c1
  | .epochSet v => setEntry c i { entry c i with epoch := v }
  | .exclSet spans n =>
    let c1 := setBody c i { body c i with excl := spans }
    setEntry c1 i { entry c1 i with excluded := n, exclCount := spans.length }
  | .refAdjust k up => refAdjust c seq k up
  | .regionSet _ st =>
    match subjectRegion f with
    | none => c
    | some r =>
      let x := region c r
      match st with
      | .free =>
        let c0 := if x.landing then c else heapRelease c x.base
        let c1 := setRegion c0 r { regionReset with gen := if 255 ≤ x.gen then 1 else x.gen + 1 }
        { c1 with xpt := { c1.xpt with freedRegions := c1.xpt.freedRegions ++ [r] } }
      | .draining =>
        let c1 := setRegion c r { x with state := st, zeroing := false }
        if c1.sec.tracing.isSome ∧ reg c1 aTEL_TRACE_TAG = regionTag c r then raise c1 .tel 16 else c1
      | .active => setRegion c r { x with state := st, zeroing := false }
  | .regOverlay _ _ => c
  | .ckptCommit e g => setReg c (if g = 0 then aCKPT_GEN0_EPOCH else aCKPT_GEN1_EPOCH) e

/-- Writes the applied-sequence markers of the sessions a figure names; their ENTRY_CRC is recomputed
(R41, R73). -/
def markApplied (c : Chip) (seq : Nat) (f : Figure) : Chip :=
  f.subjects.foldl (fun c s =>
    match s with
    | .session i => setEntry c i { entry c i with figSeq := seq, crcFlip := 0 }
    | _ => c) c

/-- Applies the oldest committed figure and releases its log and staging space (R73, R468). -/
def applyOne (c : Chip) : Chip :=
  match c.fig.committed with
  | [] => c
  | k :: r =>
    let c1 := { c with fig := { c.fig with committed := r } }
    let c2 := k.fig.acts.foldl (fun c a => applyAct c k.seq k.fig a) c1
    let c3 := markApplied c2 k.seq k.fig
    { c3 with fig := { c3.fig with
        applied := k.seq
        logUsed := c3.fig.logUsed - k.units
        logTail := (c3.fig.logTail + k.units) % 32768
        staged := c3.fig.staged - k.fig.staged } }

/-- Applies every committed figure: what a read of committed state waits for (R76). -/
def settleN : Nat → Chip → Chip
  | 0, c => c
  | n + 1, c => settleN n (applyOne c)

/-- `settleN` over every committed figure. -/
def settle (c : Chip) : Chip := settleN c.fig.committed.length c

/-- Two figures share a subject (R75). -/
def sharesSubject (f g : Figure) : Bool := f.subjects.any (fun s => s ∈ g.subjects)

/-- Log and staging space suffice for a figure (R71). -/
def figRoom (c : Chip) (f : Figure) : Bool :=
  c.fig.logUsed + figUnits f ≤ 32768 && c.fig.staged + f.staged ≤ stageSize c

/-- FIG opens figures: it is not OFF, TESTING or FAULT, and no recovery runs (R82, R85). -/
def figOpens (c : Chip) : Bool := isUp c .fig && !c.flt.chipPending

/-- Whether FIG can open a figure now (R71, R82, R85). -/
def canOpen (c : Chip) (f : Figure) : Bool := figOpens c && figRoom c f

/-- What follows a commit (R73, t3). -/
def afterOne (c : Chip) (seq : Nat) (a : After) : Chip :=
  match a with
  | .send n m => sendOut c n m seq
  | .opDone i st => endOp c i st
  | .takeIndex i => takeIndex c i
  | .takeRegion i => takeRegion c i
  | .cutRecord r =>
    let same := fun (x : CutRec) => x.conn = r.conn && x.cutId == r.cutId && x.source == r.source
    { c with cuts := if c.cuts.any same then c.cuts.map (fun x => if same x then r else x) else c.cuts ++ [r] }
  | .intEvent p b => raise c p b
  | .opUpdate i o =>
    match opsOf c i with
    | [] => c
    | _ :: r => setOps c i ({ o with lastFig := seq } :: r)
  | .opTrim i => setOps c i ((opsOf c i).take 1)
  | .opFig i =>
    match opsOf c i with
    | [] => c
    | o :: r => setOps c i ({ o with lastFig := seq } :: r)

/-- Writes records of `u` units at the head of the ring (R71). -/
def logWrite (c : Chip) (u : Nat) (l : List Byte) : Chip :=
  { c with fig := { c.fig with
    logHead := (c.fig.logHead + u) % 32768
    written := c.fig.written + u
    ring := ringPut c.fig.ring c.fig.logHead l } }

/-- Writes the intent and commit records of a figure (R71, R72): FIG_SEQ rises by one, and what follows
the commit happens. DEDUCED: the intent and the commit record are written by one command, since no row stands between
them, so that no figure is open between two commands (log entry 95). -/
def commitFig (c : Chip) (f : Figure) : Chip :=
  let seq := c.fig.seq + 1
  let u := figUnits f
  let (lat, ca) := takeFree c
  let (v, cb) := takeFree ca
  let (stamp, c1) := takeFine cb
  let place := stagePlace c f.staged v
  let cw := logWrite c1 u (intentOf c f place ++ closeBytes 0x02 (logHeadOf c f) seq stamp)
  let c2 := { cw with fig := { cw.fig with
    seq := seq
    committed := c1.fig.committed ++ [{ seq := seq, fig := f, units := u, id := c.fig.written, place := place }]
    logUsed := c1.fig.logUsed + u
    staged := c1.fig.staged + f.staged } }
  let c3 := bumpPair c2 aFIG_COMMIT_CNT_LO 1
  let c4 := setFld c3 aFIG_LAT_MAX 15 0 (max (fld (reg c3 aFIG_LAT_MAX) 15 0) (lat % 65536))
  let c5 := if 131072 ≤ logFree c1 ∧ logFree c4 < 131072 then raise c4 .fig 17 else c4
  f.after.foldl (fun c a => afterOne c seq a) c5

/-- The intent and abort records of a figure that aborts while it is open (R80), with FIG.ABORT_CNT. Their space is
released with that of the figure before them; a log without space for them takes none (log entry 95). -/
def abortOpen (c : Chip) (f : Figure) : Chip :=
  let u := figUnits f
  let c0 := bump c aFIG_ABORT_CNT 1
  if 32768 < c.fig.logUsed + u then c0
  else
    let (stamp, c1) := takeFine c0
    let cw := logWrite c1 u (intentOf c f 0 ++ closeBytes 0x03 (logHeadOf c f) 0 stamp)
    match c.fig.committed.reverse with
    | [] => { cw with fig := { cw.fig with logTail := (cw.fig.logTail + u) % 32768 } }
    | k :: r => { cw with fig := { cw.fig with
        committed := (({ k with units := k.units + u } : Committed) :: r).reverse
        logUsed := cw.fig.logUsed + u } }

/-- Opens a figure: it commits at once, or waits for log space, staging space, an earlier figure of the
same subject, or for FIG to open figures again (R71, R75; log entry 16). FIG.STALL_CNT counts a wait for space. -/
def openFig (c : Chip) (f : Figure) : Chip :=
  if canOpen c f ∧ c.fig.waiting.all (fun g => !sharesSubject f g) then commitFig c f
  else
    let full := figOpens c && !figRoom c f && c.fig.waiting.all (fun g => !sharesSubject f g)
    bump { c with fig := { c.fig with waiting := c.fig.waiting ++ [{ f with stalled := f.stalled || full }] } }
      aFIG_STALL_CNT (b2n full)

/-- The first figure that waits for nothing but space, and was not counted yet. -/
def stallDue (c : Chip) : Option Nat :=
  ((numbered c.fig.waiting).find? (fun e => figOpens c && !e.2.stalled && !figRoom c e.2 &&
    (c.fig.waiting.take e.1).all (fun g => !sharesSubject e.2 g))).map (·.1)

/-- Counts the waits for space of figures that waited for something else until now (R71). -/
def countStalls : Nat → Chip → Chip
  | 0, c => c
  | n + 1, c =>
    match stallDue c with
    | none => c
    | some k => countStalls n (bump { c with fig := { c.fig with
        waiting := c.fig.waiting.modify k (fun f => { f with stalled := true }) } } aFIG_STALL_CNT 1)

/-- Opens the waiting figures that can open now, in order (R71). -/
def releaseWaitingN : Nat → Chip → Chip
  | 0, c => c
  | n + 1, c =>
    let ready := fun (e : Nat × Figure) =>
      canOpen c e.2 && (c.fig.waiting.take e.1).all (fun g => !sharesSubject e.2 g)
    match ((numbered c.fig.waiting).find? ready).map (·.2) with
    | none => c
    | some f =>
      let w := dropFirst (fun g => decide (g = f)) c.fig.waiting
      releaseWaitingN n (commitFig { c with fig := { c.fig with waiting := w } } f)

/-- `releaseWaitingN` over every waiting figure. -/
def releaseWaiting (c : Chip) : Chip :=
  let c1 := releaseWaitingN c.fig.waiting.length c
  countStalls c1.fig.waiting.length c1

/-- A figure of one session with the DIR_SET actions that give its entry a new value. -/
def sessFig (c : Chip) (i : Nat) (new : Session) (acts : List Action) (after : List After) : Figure :=
  { subjects := [.session i], acts := acts ++ dirDiff false (entry c i) new, origin := .session,
    staged := (stagedBytes acts).length, after := after }

/-! ### Directory cache (R42) -/

/-- The completion record of an operation (R63) with the EPOCH and LENGTH of an entry as committed.
TAIL_DECODED shows the entry's flag after an operation that revived the session (log entry 27). -/
def compRec (o : Op) (status : Nat) (e : Session) : CompRec :=
  { status := BitVec.ofNat 8 status
    preempted := o.preempted
    stopIncluded := false
    implicit := o.implicit
    tailDecoded := (o.implicit || decide (o.code = 5)) && e.tailDecoded
    handle := o.handle
    tag := o.tag
    code := o.code
    overhang := []
    stopIndex := 0xFF
    epoch := e.epoch
    length := e.length
    tokensIn := o.tokensIn
    tokensOut := o.tokensOut
    textBytes := o.textBytes
    figSeq := none
    aux := 0 }

/-- An operation whose held text is released (R290). -/
def flushed (o : Op) : Op := { o with textBytes := o.textBytes + o.held.length, held := [] }

/-- The FLUSH record of held text (R290). -/
def flushRec (c : Chip) (i : Nat) (o : Op) : List After :=
  if o.held.isEmpty then []
  else [.send o.conn (.out { handle := o.handle, tag := o.tag, firstPos := (entry c i).length, tokens := [],
                             text := o.held, stopCut := false, flush := true, figSeq := some o.lastFig })]

/-- The records of an operation that ends without a figure of its own: held text, then the completion with
the FIG_SEQ of its last committed figure. -/
def endRecs (c : Chip) (i : Nat) (o : Op) (status : Nat) : List After :=
  let r : CompRec := { compRec (flushed o) status (entry c i) with figSeq := some o.lastFig }
  flushRec c i o ++ [After.send o.conn (.comp r)]

/-- The records of a session that becomes DAMAGED (R56, R61): the operation in progress ends with
TIER_FAULT, the queued ones with SESSION_DAMAGED. They follow the commit. -/
def damageRecs (c : Chip) (i : Nat) : List After :=
  (numbered (opsOf c i)).flatMap (fun e =>
    let st := if e.1 = 0 then stTierFault else stDamaged
    endRecs c i e.2 st ++ [.opDone i st])

/-- A session becomes DAMAGED (R61): the figure, the records, SESS.BLK_INT.DAMAGED. A session in a state that R61's table
has no such row for stays (log entry 135). -/
def damageSession (c : Chip) (i : Nat) : Chip :=
  let s := (entry c i).state
  if s = .ready ∨ s = .running ∨ s = .sitout ∨ s = .cold then
    openFig c (sessFig c i { entry c i with state := .damaged } []
      (damageRecs c i ++ [.intEvent .sess 16]))
  else c

/-- An access to an entry misses the cache and its ENTRY_CRC fails (R42). -/
def fetchFails (c : Chip) (i : Nat) : Bool := decide (i ∉ c.sess.cached ∧ (entry c i).crcFlip ≠ 0)

/-- An access to an entry: a miss is counted and fetches it; a failing ENTRY_CRC marks the session DAMAGED
and raises DIR_ERR (R42). When the cache is full, which entry leaves is left open: a free value names it
among those not RUNNING (log entry 17). -/
def touch (c : Chip) (i : Nat) : Chip :=
  if i ∈ c.sess.cached then c
  else
    let c1 := bumpPair c aSESS_CACHE_MISS_LO 1
    let (v, c2) := if c1.sess.cached.length < 65536 then (0, c1) else takeFree c1
    let keep := if c2.sess.cached.length < 65536 then c2.sess.cached
      else
        let out := c2.sess.cached.filter (fun j => decide ((entry c2 j).state ≠ .running))
        match out[v % max 1 out.length]? with
        | some j => c2.sess.cached.erase j
        | none => c2.sess.cached
    let c3 := { c2 with sess := { c2.sess with cached := keep ++ [i] } }
    if (entry c3 i).crcFlip = 0 then c3 else settle (damageSession (raise c3 .sess 17) i)

end Sys2Proof.Machine
end

