-- ==== Sys2Proof/Machine/Text.lean ====
section
/-! DEFINITION. TEXT (R270-R292): vocabularies and grammar tables as they lie in GDDR7, their checks,
tokenising, detokenising, the grammar automaton and its masks, and the stop matcher. -/

namespace Sys2Proof.Machine

/-! ### Vocabularies (R270, R271) -/

/-- SAMP.SLOT_VOCAB of a slot. -/
def slotVocab (c : Chip) (slot : Nat) : Nat := fld (regB c slot aSAMP_SLOT_VOCAB) 20 0

/-- VOCAB_CTRL.VALID of a slot. -/
def vocabValid (c : Chip) (slot : Nat) : Bool := bit (regB c slot aTEXT_VOCAB_CTRL) 0

/-- A slot in vocabulary mode. -/
def vocabMode (c : Chip) (slot : Nat) : Bool := bit (regB c slot aTEXT_VOCAB_CTRL) 1

/-- Address of a slot's vocabulary table. -/
def vocabAddr (c : Chip) (slot : Nat) : Nat := pairB c slot aTEXT_VOCAB_LO

/-- A number of `n` bytes in GDDR7. -/
def memNat (c : Chip) (a n : Nat) : Nat := leNat (memRead c.mem a n)

/-- ENTRIES of the table at an address. -/
def vocEntries (c : Chip) (a : Nat) : Nat := memNat c (a + 4) 4
/-- MERGE_LOG2. -/
def vocLog2 (c : Chip) (a : Nat) : Nat := memNat c (a + 2) 1
/-- POOL_LEN. -/
def vocPoolLen (c : Chip) (a : Nat) : Nat := memNat c (a + 12) 4
/-- Address of the entry array. -/
def vocEntryAt (c : Chip) (a : Nat) : Nat := a + memNat c (a + 0x10) 8
/-- Address of the byte pool. -/
def vocPoolAt (c : Chip) (a : Nat) : Nat := a + memNat c (a + 0x18) 8
/-- Address of the merge slots. -/
def vocMergeAt (c : Chip) (a : Nat) : Nat := a + memNat c (a + 0x20) 8
/-- Address of the byte map. -/
def vocByteAt (c : Chip) (a : Nat) : Nat := a + memNat c (a + 0x28) 8
/-- VOCAB_ID. -/
def vocId (c : Chip) (a : Nat) : Nat := memNat c (a + 0x30) 8

/-- Entry of a token. -/
def vocEntry (c : Chip) (a t : Nat) : Nat := memNat c (vocEntryAt c a + 8 * t) 8
/-- Byte-map word of a byte. -/
def byteWord (c : Chip) (a b : Nat) : Nat := memNat c (vocByteAt c a + 4 * b) 4

/-- LENGTH of an entry. -/
def entLen (e : Nat) : Nat := (e / 2 ^ 32) % 128
/-- SPECIAL of an entry. -/
def entSpecial (e : Nat) : Bool := nbit e 39

/-- The bytes of a vocabulary table: header, entries, pool, merges, byte map. -/
def vocabBytes (c : Chip) (a : Nat) : List Byte :=
  memRead c.mem a 64 ++ memRead c.mem (vocEntryAt c a) (8 * vocEntries c a) ++
    memRead c.mem (vocPoolAt c a) (vocPoolLen c a) ++
    memRead c.mem (vocMergeAt c a) (16 * 2 ^ vocLog2 c a) ++ memRead c.mem (vocByteAt c a) 1024

/-- No element of a list occurs twice. -/
def allDiffer (l : List Nat) : Bool := decide (l.dedup.length = l.length)

/-- An entry that the check of R271 takes. -/
def entryOk (e : Nat) : Bool :=
  e / 2 ^ 40 = 0 &&
    (if entSpecial e then entLen e = 0 else 1 ≤ entLen e && entLen e ≤ 64)

/-- A merge slot that the check of R271 takes. -/
def mergeOk (c : Chip) (a n : Nat) : Bool :=
  let m := vocMergeAt c a + 16 * n
  memNat c m 4 = 0xFFFFFFFF ||
    (memNat c m 4 < vocEntries c a && memNat c (m + 4) 4 < vocEntries c a &&
      memNat c (m + 12) 4 < vocEntries c a)

/-- The check of a vocabulary table (R271, R270, R292). -/
def vocabTableOk (c : Chip) (a vocab : Nat) : Bool :=
  let n := vocEntries c a
  memNat c a 2 = 0x5654 && memNat c (a + 3) 1 = 0 && memNat c (a + 0x38) 4 = 0 &&
    memNat c (a + 0x3C) 4 = crc32c (memRead c.mem a 60) &&
    n = vocab && 257 ≤ n && n ≤ 1048576 && memNat c (a + 8) 4 ≤ 4194304 &&
    vocEntryAt c a + 8 * n ≤ gddrSize && vocPoolAt c a + vocPoolLen c a ≤ gddrSize &&
    vocMergeAt c a + 16 * 2 ^ vocLog2 c a ≤ gddrSize && vocByteAt c a + 1024 ≤ gddrSize &&
    vocId c a = crc64 ((vocabBytes c a).drop 64) &&
    (List.range n).all (fun t => entryOk (vocEntry c a t)) &&
    (List.range (2 ^ vocLog2 c a)).all (mergeOk c a) &&
    (List.range 256).all (fun b => byteWord c a b / 2 ^ 29 = 0) &&
    allDiffer ((List.range 256).map (fun b => byteWord c a b % 2 ^ 20))

/-- The check that VOCAB_CTRL.VALID starts: byte mode uses no table and holds the 256 bytes (R270, R292). -/
def vocabCheckOk (c : Chip) (slot : Nat) : Bool :=
  if vocabMode c slot then vocabTableOk c (vocabAddr c slot) (slotVocab c slot)
  else 256 ≤ slotVocab c slot

/-- The slot's vocabulary was changed in GDDR7 while valid (R272). -/
def vocabOpen (c : Chip) (slot : Nat) : Bool :=
  vocabMode c slot && decide (tfind c.checks.vocabImg slot ≠ some (vocabBytes c (vocabAddr c slot)))

/-- The slot's layer table, or a rotary table that it points to, was changed in GDDR7 while valid (R196, R536). -/
def layersOpen (c : Chip) (slot : Nat) : Bool :=
  decide (tfind c.checks.layerImg slot ≠ some (layerTableAt c slot).flatten ∨
    tget [] c.checks.tableImg slot ≠ ropeCells c slot)

/-- A special token (R270, R271). -/
def isSpecial (c : Chip) (slot t : Nat) : Bool :=
  if vocabMode c slot then entSpecial (vocEntry c (vocabAddr c slot) t) else 256 ≤ t

/-- The text of a token (R276). A slot without a valid vocabulary gives no bytes (log entry 19); one changed
while valid gives any text (R536). -/
def tokenBytes (c : Chip) (slot t : Nat) : List Byte :=
  if vocabValid c slot = false then []
  else if vocabOpen c slot then (Config.openText c.free slot t).take 64
  else if isSpecial c slot t then []
  else if vocabMode c slot then
    let e := vocEntry c (vocabAddr c slot) t
    memRead c.mem (vocPoolAt c (vocabAddr c slot) + e % 2 ^ 32) (entLen e)
  else [BitVec.ofNat 8 t]

/-! ### Tokenising (R273) -/

/-- CLASS of a byte. -/
def byteClass (c : Chip) (a : Nat) (b : Byte) : Nat := (byteWord c a b.toNat / 2 ^ 24) % 16
/-- LEAD of a byte. -/
def byteLead (c : Chip) (a : Nat) (b : Byte) : Bool := nbit (byteWord c a b.toNat) 28

/-- The pieces of a byte string; `cur` is the piece begun, newest byte first. -/
def piecesFrom (c : Chip) (a : Nat) : List Byte → List Byte → List (List Byte)
  | [], cur => if cur.isEmpty then [] else [cur.reverse]
  | b :: r, cur =>
    match cur with
    | [] => piecesFrom c a r [b]
    | last :: _ =>
      let lead := byteLead c a last && decide (cur.length = 1)
      if 1024 ≤ cur.length || (decide (byteClass c a b ≠ byteClass c a last) && !lead) then
        cur.reverse :: piecesFrom c a r [b]
      else piecesFrom c a r (b :: cur)

/-- Probes the merge slots for a pair, from a slot, with fuel. -/
def mergeProbe (c : Chip) (a x y : Nat) : Nat → Nat → Option (Nat × Nat)
  | 0, _ => none
  | f + 1, i =>
    let m := vocMergeAt c a + 16 * (i % 2 ^ vocLog2 c a)
    if memNat c m 4 = 0xFFFFFFFF then none
    else if memNat c m 4 = x ∧ memNat c (m + 4) 4 = y then some (memNat c (m + 8) 4, memNat c (m + 12) 4)
    else mergeProbe c a x y f (i + 1)

/-- RANK and RESULT of the merge of a pair (R271). -/
def mergeOf (c : Chip) (a x y : Nat) : Option (Nat × Nat) :=
  mergeProbe c a x y (2 ^ vocLog2 c a)
    (((x * 0x9E3779B1 + y) % 2 ^ 32) / 2 ^ (32 - vocLog2 c a))

/-- The merge of lowest RANK, the leftmost on a tie: (rank, place, result). -/
def bestMerge (c : Chip) (a : Nat) : Nat → List Nat → Option (Nat × Nat × Nat)
  | i, x :: y :: r =>
    let rest := bestMerge c a (i + 1) (y :: r)
    match mergeOf c a x y, rest with
    | none, q => q
    | some (k, t), none => some (k, i, t)
    | some (k, t), some (k', i', t') => if k ≤ k' then some (k, i, t) else some (k', i', t')
  | _, _ => none

/-- Merges until no adjacent pair has a merge, with fuel. -/
def mergeAll (c : Chip) (a : Nat) : Nat → List Nat → List Nat
  | 0, l => l
  | f + 1, l =>
    match bestMerge c a 0 l with
    | none => l
    | some (_, i, t) => mergeAll c a f (l.take i ++ t :: l.drop (i + 2))

/-- The tokens of a text (R273, R274). Under a vocabulary that was changed while valid they are open (R272, R536). -/
def tokenise (c : Chip) (slot : Nat) (l : List Byte) : List Nat :=
  if vocabOpen c slot then
    let t := Config.openTokens c.free slot l
    ((t.1 :: t.2).take l.length).map (· % max 1 (slotVocab c slot))
  else if vocabMode c slot then
    let a := vocabAddr c slot
    (piecesFrom c a l []).flatMap (fun p =>
      mergeAll c a p.length (p.map (fun b => byteWord c a b.toNat % 2 ^ 20)))
  else l.map (·.toNat)

/-! ### Grammars (R278-R281) -/

/-- Address of a grammar table. -/
def gramAddr (c : Chip) (g : Nat) : Nat := pairB c g aTEXT_GRAM_LO
/-- GRAM_CTRL.SLOT. -/
def gramSlot (c : Chip) (g : Nat) : Nat := fld (regB c g aTEXT_GRAM_CTRL) 7 4
/-- GRAM_CTRL.VALID. -/
def gramValid (c : Chip) (g : Nat) : Bool := bit (regB c g aTEXT_GRAM_CTRL) 0

/-- STATES of the table at an address. -/
def grStates (c : Chip) (a : Nat) : Nat := memNat c (a + 4) 4
/-- START. -/
def grStart (c : Chip) (a : Nat) : Nat := memNat c (a + 8) 4
/-- TRANSITIONS. -/
def grTrans (c : Chip) (a : Nat) : Nat := memNat c (a + 12) 4
/-- ENTRIES. -/
def grEntries (c : Chip) (a : Nat) : Nat := memNat c (a + 16) 4
/-- VOCAB_ID. -/
def grVocabId (c : Chip) (a : Nat) : Nat := memNat c (a + 0x14) 8
/-- Address of the state array. -/
def grStateAt (c : Chip) (a : Nat) : Nat := a + memNat c (a + 0x1C) 8
/-- Address of the transition array. -/
def grTransAt (c : Chip) (a : Nat) : Nat := a + memNat c (a + 0x24) 8
/-- Address of the mask array. -/
def grMaskAt (c : Chip) (a : Nat) : Nat := a + memNat c (a + 0x2C) 8
/-- Address of the deep lists. -/
def grDeepAt (c : Chip) (a : Nat) : Nat := a + memNat c (a + 0x34) 8
/-- Bytes of one mask. -/
def maskLen (n : Nat) : Nat := roundUp ((n + 7) / 8) 64

/-- TRANS_FIRST of a state. -/
def stFirst (c : Chip) (a s : Nat) : Nat := memNat c (grStateAt c a + 16 * s) 4
/-- TRANS_COUNT. -/
def stCount (c : Chip) (a s : Nat) : Nat := memNat c (grStateAt c a + 16 * s + 4) 2
/-- FLAGS. -/
def stFlags (c : Chip) (a s : Nat) : Nat := memNat c (grStateAt c a + 16 * s + 6) 2
/-- MASK index. -/
def stMask (c : Chip) (a s : Nat) : Nat := memNat c (grStateAt c a + 16 * s + 8) 4
/-- DEEP offset. -/
def stDeep (c : Chip) (a s : Nat) : Nat := memNat c (grStateAt c a + 16 * s + 12) 4
/-- FINAL. -/
def stFinal (c : Chip) (a s : Nat) : Bool := nbit (stFlags c a s) 0
/-- MAX_PUSH. -/
def stPush (c : Chip) (a s : Nat) : Nat := stFlags c a s / 256

/-- A transition: LO, HI, OP, TARGET, RETURN, and its reserved byte. -/
structure Trans where
  lo : Nat
  hi : Nat
  op : Nat
  target : Nat
  ret : Nat
  rsvd : Nat
  deriving DecidableEq, Repr

/-- A transition by index. -/
def transAt (c : Chip) (a i : Nat) : Trans :=
  let l := memRead c.mem (grTransAt c a + 8 * i) 8
  { lo := rdLE l 0 1, hi := rdLE l 1 1, op := rdLE l 2 1, target := rdLE l 4 2, ret := rdLE l 6 2,
    rsvd := rdLE l 3 1 }

/-- The transitions of a state. -/
def transOf (c : Chip) (a s : Nat) : List Trans :=
  (List.range (stCount c a s)).map (fun i => transAt c a (stFirst c a s + i))

/-- The deep list of a state. -/
def deepOf (c : Chip) (a s : Nat) : List Nat :=
  let o := stDeep c a s
  if o = 0xFFFFFFFF then []
  else
    (List.range (memNat c (grDeepAt c a + o) 4)).map (fun i => memNat c (grDeepAt c a + o + 4 + 4 * i) 4)

/-- LO rises and ranges do not overlap. -/
def transRise : List Trans → Bool
  | [] => true
  | [t] => t.lo ≤ t.hi
  | t :: u :: r => t.lo ≤ t.hi && t.hi < u.lo && transRise (u :: r)

/-- A state that the check of R278 takes. -/
def stateOk (c : Chip) (a s : Nat) : Bool :=
  let n := grStates c a
  stCount c a s ≤ 256 && stFirst c a s + stCount c a s ≤ grTrans c a &&
    (stFlags c a s / 2) % 128 = 0 &&
    grMaskAt c a + (stMask c a s + 1) * maskLen (grEntries c a) ≤ gddrSize &&
    (stDeep c a s = 0xFFFFFFFF ||
      (grDeepAt c a + stDeep c a s + 4 ≤ gddrSize &&
        memNat c (grDeepAt c a + stDeep c a s) 4 ≤ 65536 &&
        grDeepAt c a + stDeep c a s + 4 + 4 * memNat c (grDeepAt c a + stDeep c a s) 4 ≤ gddrSize)) &&
    transRise (transOf c a s) &&
    (transOf c a s).all (fun t => t.rsvd = 0 && t.op ≤ 1 && t.target < n && (t.op = 0 || t.ret < n))

/-- VOCAB_ID of a slot: 0 in byte mode (R278). -/
def slotVocabId (c : Chip) (slot : Nat) : Nat :=
  if vocabMode c slot then vocId c (vocabAddr c slot) else 0

/-- The check that GRAM_CTRL.VALID starts (R278). -/
def gramCheckOk (c : Chip) (g : Nat) : Bool :=
  let a := gramAddr c g
  let slot := gramSlot c g
  memNat c a 2 = 0x4754 && memNat c (a + 3) 1 = 0 &&
    memNat c (a + 0x3C) 4 = crc32c (memRead c.mem a 60) &&
    1 ≤ grStates c a && grStates c a ≤ 65536 && grStart c a < grStates c a &&
    vocabValid c slot && grVocabId c a = slotVocabId c slot && grEntries c a = slotVocab c slot &&
    grStateAt c a + 16 * grStates c a ≤ gddrSize && grTransAt c a + 8 * grTrans c a ≤ gddrSize &&
    grMaskAt c a ≤ gddrSize && grDeepAt c a ≤ gddrSize &&
    (List.range (grStates c a)).all (stateOk c a)

/-- The bytes of a grammar table that Tarier reads. -/
def gramBytes (c : Chip) (g : Nat) : List Byte :=
  let a := gramAddr c g
  memRead c.mem a 64 ++ memRead c.mem (grStateAt c a) (16 * grStates c a) ++
    memRead c.mem (grTransAt c a) (8 * grTrans c a) ++
    (List.range (grStates c a)).flatMap (fun s =>
      memRead c.mem (grMaskAt c a + stMask c a s * maskLen (grEntries c a)) (maskLen (grEntries c a)) ++
        (deepOf c a s).flatMap (leBytes 4))

/-- The grammar was changed in GDDR7 while valid. -/
def gramOpen (c : Chip) (g : Nat) : Bool := decide (tfind c.checks.gramImg g ≠ some (gramBytes c g))

/-- The transition of a state for a byte. -/
def transFor (c : Chip) (a s : Nat) (b : Byte) : Option Trans :=
  (transOf c a s).find? (fun t => t.lo ≤ b.toNat && b.toNat ≤ t.hi)

/-- Consumes one byte (R279); the stack has its top first; fuel bounds the pops. -/
def consumeByte (c : Chip) (a : Nat) (b : Byte) : Nat → List Nat → Option (List Nat)
  | 0, _ => none
  | _ + 1, [] => none
  | f + 1, s :: r =>
    match transFor c a s b with
    | some t =>
      if t.op = 0 then some (t.target :: r)
      else if 256 < r.length + 2 then none
      else some (t.target :: t.ret :: r)
    | none => if stFinal c a s then consumeByte c a b f r else none

/-- Consumes bytes in order. -/
def consumeAll (c : Chip) (a : Nat) : List Byte → List Nat → Option (List Nat)
  | [], st => some st
  | b :: r, st =>
    match consumeByte c a b (st.length + 1) st with
    | none => none
    | some st' => consumeAll c a r st'

/-- The stack (index 0 first) after the bytes of a token (R279); none when it is not accepted. -/
def gramToken (c : Chip) (g slot t : Nat) (stack : List Nat) : Option (List Nat) :=
  (consumeAll c (gramAddr c g) (tokenBytes c slot t) stack.reverse).map List.reverse

/-- The grammar is complete: the stack is not empty and every entry is FINAL (R279). -/
def gramComplete (c : Chip) (g : Nat) (stack : List Nat) : Bool :=
  !stack.isEmpty && stack.all (stFinal c (gramAddr c g))

/-- The stack of a new GENERATE or session: the single entry START (R280, R44). -/
def gramStart (c : Chip) (g : Nat) : List Nat := [grStart c (gramAddr c g)]

/-- The stack that a GENERATE begins with (R280). -/
def gramBegin (c : Chip) (g : Nat) (stack : List Nat) : List Nat :=
  if stack.isEmpty then gramStart c g else stack

/-- The grammar of a session advanced by a token: EOS empties the stack (R279). -/
def gramAdvance (c : Chip) (g slot : Nat) (eos : Option Nat) (stack : List Nat) (t : Nat) : List Nat :=
  if g = 0xFFFF then []
  else if eos = some t then []
  else (gramToken c g slot t stack).getD stack

/-- A token's own admission (R281): its bytes are accepted and it is not special. -/
def gramAccepts (c : Chip) (g slot : Nat) (stack : List Nat) (t : Nat) : Bool :=
  !isSpecial c slot t && (gramToken c g slot t stack).isSome

/-- A mask needs the full walk: depth + MAX_PUSH passes 256 (R281). -/
def slowMask (c : Chip) (g : Nat) (stack : List Nat) : Bool :=
  match stack.getLast? with
  | none => false
  | some s => 256 < stack.length + stPush c (gramAddr c g) s

/-- Bit of the top state's precomputed mask. -/
def stateMaskBit (c : Chip) (g s t : Nat) : Bool :=
  let a := gramAddr c g
  (memGet c.mem (grMaskAt c a + stMask c a s * maskLen (grEntries c a) + t / 8)).getLsbD (t % 8)

/-- Bit of a token in the mask as TEXT forms it (R281): state mask, deep list, and the walk of the state
mask where a push could pass the depth. -/
def formedBit (c : Chip) (g slot : Nat) (stack : List Nat) (t : Nat) : Bool :=
  match stack.getLast? with
  | none => false
  | some s =>
    let acc := gramAccepts c g slot stack t
    (stateMaskBit c g s t && (!slowMask c g stack || acc)) ||
      (t ∈ deepOf c (gramAddr c g) s && acc)

/-- Bit of a token in the mask of a configuration (R281). Where the table breaks R281, or was changed while
valid, the bit is open (R536). -/
def maskBit (c : Chip) (g slot : Nat) (stack : List Nat) (eos : Option Nat) (suppress : Bool) (t : Nat) :
    Bool :=
  if g = 0xFFFF then true
  else if eos = some t ∧ isSpecial c slot t then gramComplete c g stack && !suppress
  else
    let exact := (eos = some t && gramComplete c g stack && !suppress) || gramAccepts c g slot stack t
    let formed := (eos = some t && gramComplete c g stack && !suppress) || formedBit c g slot stack t
    if gramOpen c g = false ∧ exact = formed then exact else Config.openMask c.free g t

/-! ### Stop strings (R285-R291) -/

/-- An empty history (R285). -/
def histReset : List Byte := List.replicate 64 0xFF

/-- The history after bytes: the last 64. -/
def histPush (h : List Byte) (l : List Byte) : List Byte := (h ++ l).drop (h.length + l.length - 64)

/-- A list ends with a suffix. -/
def endsWith (l suf : List Byte) : Bool := decide (l.drop (l.length - suf.length) = suf)

/-- The stop string that ends at the last byte of a history: the longest, then the lowest index (R288). -/
def stopHere (stops : List (List Byte)) (h : List Byte) : Option (Nat × Nat) :=
  (numbered stops).foldl (fun m e =>
    if e.2.isEmpty || !endsWith h e.2 then m
    else
      match m with
      | none => some (e.1, e.2.length)
      | some (k, n) => if n < e.2.length then some (e.1, e.2.length) else some (k, n)) none

/-- The first match in the bytes of a token: (bytes up to its end, string index, string length) (R287,
R288). -/
def stopMatch (stops : List (List Byte)) : List Byte → List Byte → Nat → Option (Nat × Nat × Nat)
  | _, [], _ => none
  | h, b :: r, n =>
    let h' := histPush h [b]
    match stopHere stops h' with
    | some (k, len) => some (n + 1, k, len)
    | none => stopMatch stops h' r (n + 1)

/-- Length of the longest trailing run that equals a proper prefix of a stop string, at most 63 bytes and at
most the bytes of this GENERATE not yet released (R289). -/
def holdLen (stops : List (List Byte)) (tail : List Byte) : Nat :=
  let cand := (List.range 64).filter (fun k =>
    k ≤ tail.length && stops.any (fun s => k < s.length && endsWith tail (s.take k)))
  cand.foldl max 0

/-! ### Work region (R275, R293) -/

/-- Bytes of the work region: 16-1,024 MiB, values outside act as the nearer bound (R292). -/
def workSize (c : Chip) : Nat := max 16 (min 1024 (fld (reg c aTEXT_WORK_SIZE) 10 0)) * 2 ^ 20

/-- Bytes of the work region in use: 4 B for each token of a text APPEND that waits for its chunk (R275). -/
def workUsed (c : Chip) : Nat :=
  (c.sess.ops.map (fun e => (e.2.map (fun o =>
    match o.arg with
    | .append (.text _) => 4 * o.tokens.length
    | .append (.region true _ _ _) => 4 * o.tokens.length
    | _ => 0)).sum)).sum

/-- Reads of a vocabulary's table that missed the cache of R270: a free count in vocabulary mode, none in byte mode, which
uses no table (log entry 45). -/
def vocabMisses (c : Chip) (slot : Nat) : Chip :=
  if vocabMode c slot then
    let (v, c1) := takeFree c
    bump c1 aTEXT_CACHE_MISS v
  else c

/-- Free bytes of the work region. -/
def workFree (c : Chip) : Nat := workSize c - workUsed c

end Sys2Proof.Machine
end

