-- ==== Sys2Proof/Machine/Sampler.lean ====
section
/-! DEFINITION. SAMP (R244-R254): the checks of a sampling block, the count table, the distribution of a
row and its draw. -/

namespace Sys2Proof.Machine

/-! ### Sampling block (R244, R245) -/

/-- FP32 comparison: at least. -/
def fpGe (a b : Word) : Bool := fcmp 2 b a
/-- FP32 comparison: above. -/
def fpGt (a b : Word) : Bool := fcmp 1 b a

/-- FP32 constants of R244: the decimal bounds rounded once. -/
abbrev fp001 : Word := 0x3C23D70A
/-- 1.0. -/
abbrev fp1 : Word := 0x3F800000
/-- 10. -/
abbrev fp10 : Word := 0x41200000
/-- 100. -/
abbrev fp100 : Word := 0x42C80000
/-- -100. -/
abbrev fpM100 : Word := 0xC2C80000
/-- Negative infinity. -/
abbrev fpNegInf : Word := 0xFF800000
/-- Positive infinity. -/
abbrev fpPosInf : Word := 0x7F800000
/-- log2 e rounded to FP32. -/
abbrev fpLog2e : Word := 0x3FB8AA3B

/-- A value lies between two bounds, both included. -/
def fpIn (lo hi x : Word) : Bool := fpGe x lo && fpGe hi x

/-- EOS of a block; none when it is 0xFFFFFFFF. -/
def eosOf (p : Sampling) : Option Nat := if p.eos = 0xFFFFFFFF then none else some p.eos.toNat

/-- SUPPRESS_EOS. -/
def suppressEos (p : Sampling) : Bool := p.flags.getLsbD 0

/-- The checks of R245 on the sampling block. -/
def samplingOk (p : Sampling) (vocab : Nat) : Bool :=
  (fpZero (fpOf p.temp) || fpIn fp001 fp100 p.temp) &&
    (fpGt p.topP 0 && fpGe fp1 p.topP) && (fpGe p.minP 0 && fpGt fp1 p.minP) && fpIn fp1 fp10 p.rep &&
    fpIn fpM100 fp100 p.pres && fpIn fpM100 fp100 p.freq && p.window.toNat ≤ 4194304 &&
    p.topK.toNat ≤ 1024 && p.flags.toNat < 2 && p.rsvd = 0 &&
    (p.eos = 0xFFFFFFFF || p.eos.toNat < vocab)

/-! ### Count table (R246-R248) -/

/-- A slot that is not LIVE. -/
def slotEmpty : CountSlot := { token := 0, count := 0, last := 0 }

/-- Home slot of a token. -/
def homeSlot (t : Nat) : Nat := ((t * 0x9E3779B1) % 2 ^ 32) / 2 ^ 16

/-- Probes for a token: the LIVE slot that holds it or the first free one, with fuel. -/
def probeFrom (tab : Tbl CountSlot) (t : Nat) : Nat → Nat → Option (Nat × Option CountSlot)
  | 0, _ => none
  | f + 1, i =>
    match tfind tab (i % 65536) with
    | none => some (i % 65536, none)
    | some s => if s.token = t then some (i % 65536, some s) else probeFrom tab t f (i + 1)

/-- The 64 probes of R246. -/
def probe (tab : Tbl CountSlot) (t : Nat) : Option (Nat × Option CountSlot) := probeFrom tab t 64 (homeSlot t)

/-- Enters a token at a position (R247): the table and the slot written, none when it is dropped. -/
def enterToken (tab : Tbl CountSlot) (t pos : Nat) : Tbl CountSlot × Option (Nat × CountSlot) :=
  match probe tab t with
  | none => (tab, none)
  | some (i, none) =>
    let s : CountSlot := { token := t, count := 1, last := pos }
    (tins tab i s, some (i, s))
  | some (i, some o) =>
    let s : CountSlot := { token := t, count := min 65535 (o.count + 1), last := pos }
    (tins tab i s, some (i, s))

/-- Enters tokens from a position on: the table, the last contents of each slot written, and how many were
dropped. -/
def enterTokens (tab : Tbl CountSlot) (pos : Nat) (l : List Nat) :
    Tbl CountSlot × Tbl CountSlot × Nat :=
  (numbered l).foldl (fun a e =>
    match enterToken a.1 e.2 (pos + e.1) with
    | (t, none) => (t, a.2.1, a.2.2 + 1)
    | (t, some (i, s)) => (t, tins a.2.1 i s, a.2.2)) (tab, [], 0)

/-- Visible count of a token for a row at a position (R248). -/
def visibleCount (tab : Tbl CountSlot) (window pos t : Nat) : Nat :=
  match probe tab t with
  | some (_, some s) => if window = 0 ∨ pos - s.last ≤ window then s.count else 0
  | _ => 0

/-! ### Distribution (R249, R250) -/

/-- A logit after mask and penalties; `ok` says that the token is allowed, `n` is its visible count. -/
def adjustLogit (p : Sampling) (ok : Bool) (n : Nat) (l : Word) : Word :=
  let l0 := if !ok || fpNan (fpOf l) then fpNegInf else l
  if n = 0 then l0
  else
    let l1 := if fpGt l0 0 then fmul l0 (finv p.rep) else fmul l0 p.rep
    let l2 := fsub l1 p.pres
    fsub l2 (fmul p.freq (fpTo (.fin false n 0)))

/-- The lowest-numbered token of greatest value. -/
def argMaxTok (l : List (Nat × Word)) : Option Nat :=
  (l.foldl (fun (m : Option (Nat × Word)) e =>
    match m with
    | none => some e
    | some b => if fpGt e.2 b.2 then some e else some b) none).map (·.1)

/-- The probabilities' exponential: exactly 1 at 0 (R249), else VEXP2 (log entry 4). -/
def sampExp2 (x : Word) : Word := if fpZero (fpOf x) then fp1 else fexp2 x

/-- TOP_K in force. -/
def topK (p : Sampling) : Nat := if p.topK = 0 then 1024 else min 1024 p.topK.toNat

/-- The shortest prefix whose running sum reaches a bound; all of it when none does (R249). -/
def takeMass (bound : Word) : Word → List (Nat × Word) → List (Nat × Word)
  | _, [] => []
  | acc, e :: r =>
    let s := fadd acc e.2
    if fpGe s bound then [e] else e :: takeMass bound s r

/-- The kept tokens with their weights, from the probabilities in token order. -/
def keptOf (p : Sampling) (ps : List (Nat × Word)) : List (Nat × Word) :=
  let z := ps.foldl (fun a e => fadd a e.2) 0
  let pos := ps.filter (fun e => fpGt e.2 0)
  let k := (sortBy (fun e => 2 ^ 32 - e.2.toNat) pos).take (topK p)
  let m := if p.topP = fp1 then k else takeMass (fmul p.topP z) 0 k
  m.filter (fun e => fpGe e.2 p.minP)

/-- draw_bits (R252). -/
def mixOnce (x : DWord) : DWord :=
  let a := (x ^^^ (x >>> 30)) * 0xBF58476D1CE4E5B9
  let b := (a ^^^ (a >>> 27)) * 0x94D049BB133111EB
  b ^^^ (b >>> 31)

/-- The generator of R252. -/
def drawBits (key e : DWord) : DWord := mixOnce (mixOnce ((e * 0x9E3779B97F4A7C15) ^^^ key))

/-- The draw from the kept tokens (R252). -/
def drawKept (key e : DWord) (kept : List (Nat × Word)) : Option Nat :=
  let u := fpTo (.fin false ((drawBits key e).toNat / 2 ^ 40) (-24))
  let w := (kept.foldl (fun (a : Word × List (Nat × Word)) x =>
    let s := fadd a.1 x.2
    (s, a.2 ++ [(x.1, s)])) (0, [])).2
  match w.getLast? with
  | none => none
  | some (t, last) => some (((w.find? (fun x => fpGt x.2 (fmul u last))).map (·.1)).getD t)

/-- What a row gives: a token, or none when no token is allowed; and whether every allowed logit was
negative infinity (R250). -/
structure Drawn where
  token : Option Nat
  nanRow : Bool
  deriving DecidableEq, Repr

/-- The token of a row (R249-R252). `allowed` is mask and SUPPRESS_EOS, `count` the visible counts, `open_`
a free token for the one case whose result the manual does not state (log entry 20). -/
def drawRow (p : Sampling) (logits : List Word) (allowed : Nat → Bool) (count : Nat → Nat) (key e : DWord)
    (open_ : Nat) : Drawn :=
  let l := (numbered logits).map (fun x => (x.1, adjustLogit p (allowed x.1) (count x.1) x.2))
  let al := l.filter (fun x => allowed x.1)
  let greedy := fpZero (fpOf p.temp)
  let xs := if greedy then l else l.map (fun x => (x.1, fmul x.2 (finv p.temp)))
  let infs := (numbered logits).filterMap (fun x =>
    if allowed x.1 && (((l.getD x.1 (0, 0)).2 = fpPosInf) || ((xs.getD x.1 (0, 0)).2 = fpPosInf)) then
      some (x.1, fp1)
    else none)
  match al with
  | [] => { token := none, nanRow := false }
  | a0 :: _ =>
    if infs ≠ [] then
      if greedy then { token := infs.head?.map (·.1), nanRow := false }
      else { token := drawKept key e (infs.take (topK p)), nanRow := false }
    else if al.all (fun x => x.2 = fpNegInf) then { token := some a0.1, nanRow := true }
    else if greedy then { token := argMaxTok l, nanRow := false }
    else
      match argMaxTok xs with
      | none => { token := none, nanRow := false }
      | some im =>
        let m := (xs.getD im (0, 0)).2
        if m = fpNegInf then { token := (al[open_ % al.length]?).map (·.1), nanRow := false }
        else
          let ps := xs.map (fun x => (x.1, sampExp2 (fmul (fsub x.2 m) fpLog2e)))
          { token := drawKept key e (keptOf p ps), nanRow := false }

end Sys2Proof.Machine
end

