-- ==== Sys2Proof/Machine/Tree.lean ====
section
/-! DEFINITION. SPEC (R255-R263): the checks of a speculation block, candidate trees and their sources, and
the walk. -/

namespace Sys2Proof.Machine

/-- HOST, ECHO, DRAFT of SOURCES. -/
def srcHost (b : SpecBlock) : Bool := b.sources.getLsbD 0
/-- ECHO. -/
def srcEcho (b : SpecBlock) : Bool := b.sources.getLsbD 1
/-- DRAFT. -/
def srcDraft (b : SpecBlock) : Bool := b.sources.getLsbD 2

/-- The checks of R255 that give REJECTED_LIMIT, with the body's draft count (R336). -/
def specOk (b : SpecBlock) (drafts : Nat) : Bool :=
  let n := b.maxNodes.toNat
  let d := b.maxDepth.toNat
  b.sources.toNat < 8 && b.rsvd = 0 && b.hostCount.toNat ≤ 256 && b.hostCount.toNat = drafts &&
    (b.sources = 0 ||
      ((n = 0 || (2 ≤ n && n ≤ 64)) && d ≤ 15 &&
        (!srcEcho b || (1 ≤ b.echoBranches.toNat && b.echoBranches.toNat ≤ 8 &&
          b.echoCount.toNat ≤ 65536 && b.echoOffset.toNat % 4 = 0)) &&
        (!srcDraft b || (b.draftSlot.toNat ≤ 15 && 1 ≤ b.draftWidth.toNat && b.draftWidth.toNat ≤ 4))))

/-- The status of a local read of a registration (R328, R255): partition, tag, range. -/
def regionCheck (c : Chip) (p : Nat) (tag : Word) (off len : Nat) : Nat :=
  let i := tag.toNat / 256
  let r := region c i
  if 65536 ≤ i ∨ tag.toNat % 256 = 0 then rejState
  else if r.state ≠ .free ∧ r.gen = tag.toNat % 256 ∧ r.part ≠ p then rejPart
  else if r.state ≠ .active ∨ r.gen ≠ tag.toNat % 256 then rejState
  else if r.len < off + len then rejLimit
  else stOK

/-- Bytes of a registration from an offset. -/
def regionRead (c : Chip) (tag : Word) (off len : Nat) : List Byte :=
  memRead c.mem ((region c (tag.toNat / 256)).base + off) len

/-- A tag names an ACTIVE registration. -/
def regionActive (c : Chip) (tag : Word) : Bool :=
  decide ((region c (tag.toNat / 256)).state = .active ∧ (region c (tag.toNat / 256)).gen = tag.toNat % 256)

/-- MAX_NODES in force (R255, R268). -/
def treeNodes (c : Chip) (b : SpecBlock) : Nat :=
  if b.maxNodes = 0 then max 2 (min 64 (fld (reg c aSPEC_TREE_DEFAULT) 6 0)) else b.maxNodes.toNat

/-- MAX_DEPTH in force. -/
def treeDepth (c : Chip) (b : SpecBlock) : Nat :=
  if b.maxDepth = 0 then max 1 (fld (reg c aSPEC_TREE_DEFAULT) 11 8) else b.maxDepth.toNat

/-- A node of a tree. -/
def nodeAt (tr : List TreeNode) (n : Nat) : TreeNode := tr.getD n { token := 0, parent := 0 }

/-- The path of a node from the root, root first, with fuel. -/
def nodePath (tr : List TreeNode) : Nat → Nat → List Nat
  | 0, n => [n]
  | f + 1, n => if n = 0 then [0] else nodePath tr f (nodeAt tr n).parent ++ [n]

/-- Nodes from the root to a node. -/
def pathTo (tr : List TreeNode) (n : Nat) : List Nat := nodePath tr 16 n

/-- Depth of a node. -/
def nodeDepth (tr : List TreeNode) (n : Nat) : Nat := (pathTo tr n).length - 1

/-- Tokens from the root to a node. -/
def pathTokens (tr : List TreeNode) (n : Nat) : List Nat := (pathTo tr n).map (fun k => (nodeAt tr k).token)

/-- The children of a node, in number order. -/
def childrenOf (tr : List TreeNode) (n : Nat) : List Nat :=
  ((numbered tr).filter (fun e => e.1 ≠ 0 && e.2.parent = n)).map (·.1)

/-- The spine from a node on: its lowest-numbered child, and so on (R206), with fuel. -/
def spineFrom (tr : List TreeNode) : Nat → Nat → List Nat
  | 0, n => [n]
  | f + 1, n =>
    match childrenOf tr n with
    | [] => [n]
    | k :: _ => n :: spineFrom tr f k

/-- The spine of a tree. -/
def spine (tr : List TreeNode) : List Nat := spineFrom tr 16 0

/-- Ancestor map of a node (R206). -/
def ancestorMap (tr : List TreeNode) (n : Nat) : Nat := (pathTo tr n).foldl (fun m k => m ||| 2 ^ k) 0

/-- Inserts a chain of tokens below a node; a token that the limits or the grammar forbid ends the chain
(R256). `ok` says whether the grammar lets a token follow a path of tokens. -/
def insertChain (nodes depth : Nat) (ok : List Nat → Nat → Bool) :
    List Nat → Nat → List TreeNode → List TreeNode
  | [], _, tr => tr
  | t :: r, cur, tr =>
    match (childrenOf tr cur).find? (fun k => (nodeAt tr k).token = t) with
    | some k => insertChain nodes depth ok r k tr
    | none =>
      if tr.length < nodes ∧ nodeDepth tr cur < depth ∧ ok (pathTokens tr cur) t then
        insertChain nodes depth ok r tr.length (tr ++ [{ token := t, parent := cur }])
      else tr

/-- Inserts the draft model's levels below a node: every token of a level is a child, and the first child
is extended (R259). -/
def insertLevels (nodes depth : Nat) (ok : List Nat → Nat → Bool) :
    List (List Nat) → Nat → List TreeNode → List TreeNode
  | [], _, tr => tr
  | lv :: r, cur, tr =>
    let tr1 := lv.foldl (fun x t => insertChain nodes depth ok [t] cur x) tr
    match lv with
    | [] => tr1
    | t :: _ =>
      match (childrenOf tr1 cur).find? (fun k => (nodeAt tr1 k).token = t) with
      | some k => insertLevels nodes depth ok r k tr1
      | none => tr1

/-- The places of a sequence after which its last `n` tokens occur earlier, latest first (R258). -/
def earlierEnds (s : List Nat) (n : Nat) : List Nat :=
  let suf := s.drop (s.length - n)
  ((List.range s.length).filter (fun i => n ≤ i && (s.drop (i - n)).take n = suf)).reverse

/-- The echo continuations of a sequence (R258): longest match first found from `hi` down to `lo`. -/
def echoFrom (s : List Nat) (depth branches lo : Nat) : Nat → List (List Nat)
  | 0 => []
  | n + 1 =>
    if n + 1 < lo then []
    else
      match earlierEnds s (n + 1) with
      | [] => echoFrom s depth branches lo n
      | l => (l.take branches).map (fun i => (s.drop i).take depth)

/-- MAX_MATCH and MIN_MATCH in force (R268). -/
def echoMatch (c : Chip) : Nat × Nat :=
  let hi := max 1 (min 8 (fld (reg c aSPEC_ECHO_CFG) 7 4))
  let lo := max 1 (fld (reg c aSPEC_ECHO_CFG) 3 0)
  (hi, if hi < lo then hi else lo)

/-- The echo sequence C (R258): echo tokens, the last 256 emitted, the carried token. -/
def echoSeq (c : Chip) (b : SpecBlock) (recent : List Nat) (carried : Nat) : List Nat :=
  ((wordsOf (regionRead c b.echoTag b.echoOffset.toNat (4 * b.echoCount.toNat))).map (· % 2 ^ 20)) ++
    recent ++ [carried]

/-- The host source after tokens were drawn (R257): its index, or off; and whether a mismatch turned it
off. -/
def hostAdvance (h : List Nat) : List Nat → Nat → Option Nat × Bool
  | [], a => (if h.length ≤ a then none else some a, false)
  | t :: r, a =>
    if h.length ≤ a then (none, false)
    else if h.getD a 0 = t then hostAdvance h r (a + 1)
    else (none, true)

/-- Keeps only the spine, renumbered (R211). -/
def spineOnly (tr : List TreeNode) : List TreeNode :=
  (numbered (spine tr)).map (fun e => { token := (nodeAt tr e.2).token, parent := e.1 - 1 })

/-- The walk of R262 and R263 from the root: the accepted path (nodes, root first) and the bonus token; none
for the bonus when a reached node gave no token. `ends` says that a token may not be taken from the tree
after a path. -/
def walkFrom (tr : List TreeNode) (draw : Nat → Option Nat) (ends : List Nat → Nat → Bool) :
    Nat → List Nat → Nat → List Nat × Option Nat
  | 0, path, n => (path ++ [n], draw n)
  | f + 1, path, n =>
    match draw n with
    | none => (path ++ [n], none)
    | some x =>
      match (childrenOf tr n).find? (fun k => (nodeAt tr k).token = x) with
      | some k =>
        if ends ((path ++ [n]).map (fun j => (nodeAt tr j).token)) x then (path ++ [n], some x)
        else walkFrom tr draw ends f (path ++ [n]) k
      | none => (path ++ [n], some x)

end Sys2Proof.Machine
end

