-- ==== Sys2Proof/Machine/Image.lean ====
section
/-! DEFINITION. The parts of a session as bytes (R36, R93, R99, R104, R246, R279, R285): what COLD images,
cut-in images, FORK and the checkpoint shard are built from. -/

namespace Sys2Proof.Machine

/-- Groups sealed at a LENGTH (R92). -/
def groupsOf (len : Nat) : Nat := len / 128

/-- Attention layers of a slot. -/
def attnLayers (c : Chip) (slot : Nat) : Nat := (shapes c slot).length

/-- Address of a position of a layer's tail (log entry 10). -/
def tailAddr (c : Chip) (base slot : Nat) (s : LayerShape) (p : Nat) : Nat :=
  base + tailOff c slot s.layer + p % 128 * rowBytes s

/-- The first `n` tail positions of a layer, in BF16. -/
def tailRows (c : Chip) (i : Nat) (s : LayerShape) (n : Nat) : List (List Byte) :=
  let e := entry c i
  (List.range n).map (fun p => memRead c.mem (tailAddr c e.tailBase e.model s p) (rowBytes s))

/-- Writes tail positions of a layer from position 0 of its tail. -/
def putTailRows (c : Chip) (base slot : Nat) (s : LayerShape) (rows : List (List Byte)) : Chip :=
  { c with mem := (numbered rows).foldl (fun m r => memWrite m (tailAddr c base slot s r.1) r.2) c.mem }

/-- Address of the recurrent state at a tail base (R93). -/
def recurAddr (c : Chip) (base slot : Nat) : Nat := base + 128 * posBytes c slot

/-- The recurrent state of a session. -/
def recurBytes (c : Chip) (i : Nat) : List Byte :=
  let e := entry c i
  memRead c.mem (recurAddr c e.tailBase e.model) (recurSizes c e.model).sum

/-- Writes bytes to GDDR7. -/
def putMem (c : Chip) (a : Nat) (l : List Byte) : Chip := { c with mem := memWrite c.mem a l }

/-- The block table (R99): a dropped block reads all ones. -/
def tableBytes (c : Chip) (i : Nat) : List Byte :=
  let e := entry c i
  (List.range (groupsOf e.length * attnLayers c e.model)).flatMap (fun k =>
    leBytes 4 ((tfind (body c i).blocks k).getD 0xFFFFFFFF))


/-- A count slot from its bytes. -/
def countSlotOf (l : List Byte) : CountSlot :=
  let v := leNat l
  { token := v % 2 ^ 20, count := v / 2 ^ 20 % 2 ^ 16, last := v / 2 ^ 36 % 2 ^ 22 }

/-- The used count slots. -/
def countsBytes (t : Tbl CountSlot) : List Byte := t.flatMap (fun e => countSlotBytes e.2)

/-- A count table from used slots: each goes to the first free slot of its probe sequence. -/
def countsOf (l : List CountSlot) : Tbl CountSlot :=
  l.foldl (fun t s =>
    match probe t s.token with
    | some (i, _) => tins t i s
    | none => t) []


/-- A history is 64 B; a session that never generated holds 0xFF (R285). -/
def histOf (b : Body) : List Byte := if b.hist.length = 64 then b.hist else histReset

/-- The 576 B of the stop matcher (R285). -/
def stopArea (b : Body) : List Byte := stopBytes (histOf b) b.stops

/-- The exclusion table (R93). -/
def exclTableBytes (b : Body) : List Byte := spanBytes b.excl

/-- Exclusion spans from a table. -/
def exclOf (l : List Byte) (n : Nat) : List (Nat × Nat) :=
  (List.range n).map (fun k => (rdLE l (8 * k) 4, rdLE l (8 * k + 4) 4))

/-- The small-state area as far as it is used (R93). -/
def smallBytesOf (b : Body) : List Byte :=
  ((List.range 65536).flatMap (fun k =>
    match tfind b.counts k with
    | some s => countSlotBytes s
    | none => leBytes 8 0)) ++
    (stackBytes b.gram ++ List.replicate (1024 - 4 * b.gram.length) 0xFF) ++ stopArea b

/-! ### Blocks -/

/-- Stored bytes of a block's GDDR7 copy. -/
def blockBytes (c : Chip) (k : Nat) : List Byte :=
  match (ledger c k).gddr with
  | some a => memRead c.mem a (ledger c k).size
  | none => []

/-- Stored bytes of a block from the copy that serves it, GDDR7's first, with no read counted. -/
def blockData (c : Chip) (k : Nat) : List Byte :=
  match (ledger c k).gddr, (ledger c k).flash with
  | some a, none => memRead c.mem a (ledger c k).size
  | some a, some f =>
    if (ledger c k).state = .reading then ((flashObj c f).map (·.data)).getD []
    else memRead c.mem a (ledger c k).size
  | none, some f => ((flashObj c f).map (·.data)).getD []
  | none, none => []

/-- HDR_CRC of a stored block (R96). -/
def hdrOk (l : List Byte) : Bool := rdLE l 0x3C 4 = crc32c (l.take 60)

/-- HDR_CRC and PAYLOAD_CRC of a stored block (R97). -/
def blockOk (l : List Byte) : Bool := hdrOk l && rdLE l 0x20 8 = crc64 (l.drop 64)

/-- The rows of positions below `n` of a stored block (R186, R96). -/
def blockRows (dense : Bool) (sm : Smoothing) (s : LayerShape) (n : Nat) (stored : List Byte) : List (List Byte) :=
  (decodeRows dense sm s 128 (stored.drop 64)).take n

/-! ### The COLD image (R104) -/

/-- The image header: handle, LENGTH, image length, CRC-64 of the rest, and whether tails are BF16
(log entry 24: the places of the fields). -/
def imageHeader (h : Word) (len : Nat) (bf16 : Bool) (rest : List Byte) : List Byte :=
  leBytes 4 h.toNat ++ leBytes 4 len ++ leBytes 8 (64 + rest.length) ++ leBytes 8 (crc64 rest) ++
    leBytes 1 (b2n bf16) ++ List.replicate 39 0

/-- The filled tail positions of every layer, coded or in BF16 (R104, R187). -/
def imageTails (c : Chip) (i : Nat) (bf16 : Bool) : List Byte :=
  let e := entry c i
  let n := e.length % 128
  (shapes c e.model).flatMap (fun s =>
    if bf16 then (tailRows c i s n).flatten
    else encodePayload e.dense (smoothing c e.model) s n (tailRows c i s n))

/-- The COLD image of a session. -/
def coldImage (c : Chip) (i : Nat) : List Byte :=
  let e := entry c i
  let b := body c i
  let bf16 := bit (reg c aTIER_CFG) 0
  let rest := tableBytes c i ++ exclTableBytes b ++ imageTails c i bf16 ++ recurBytes c i ++
    countsBytes b.counts ++ stackBytes b.gram ++ stopArea b
  imageHeader (handleOf c i) e.length bf16 rest ++ rest

/-- A COLD image passes its CRC-64. -/
def coldImageOk (l : List Byte) : Bool := 64 ≤ l.length && rdLE l 16 8 = crc64 (l.drop 64)

/-- Tails of a COLD image are BF16. -/
def coldBf16 (l : List Byte) : Bool := rdLE l 24 1 = 1

/-- Offset of the tails in a COLD image. -/
def coldTailsAt (c : Chip) (slot len : Nat) : Nat := 64 + 4 * (groupsOf len * attnLayers c slot) + 128

/-- Bytes of one layer's tail in an image. -/
def coldTailLen (dense bf16 : Bool) (s : LayerShape) (n : Nat) : Nat :=
  if bf16 then n * rowBytes s else payloadLen dense s n

/-- The tail rows of every layer of a COLD image, in layer order. -/
def coldRows (c : Chip) (dense : Bool) (slot len : Nat) (img : List Byte) :
    List (LayerShape × List (List Byte)) :=
  let n := len % 128
  let bf16 := coldBf16 img
  ((shapes c slot).foldl (fun a s =>
    let l := slice img a.1 (coldTailLen dense bf16 s n)
    let rows := if bf16 then (List.range n).map (fun p => slice l (p * rowBytes s) (rowBytes s))
      else decodeRows dense (smoothing c slot) s n l
    (a.1 + coldTailLen dense bf16 s n, a.2 ++ [(s, rows)])) (coldTailsAt c slot len, [])).2

/-- The recurrent state of a COLD image. -/
def coldRecur (c : Chip) (dense : Bool) (slot len : Nat) (img : List Byte) : List Byte :=
  let n := len % 128
  let o := coldTailsAt c slot len +
    ((shapes c slot).map (fun s => coldTailLen dense (coldBf16 img) s n)).sum
  slice img o (recurSizes c slot).sum

/-- Writes the tails and recurrent state of a COLD image at a tail base (R55). -/
def placeColdTails (c : Chip) (dense : Bool) (slot len base : Nat) (img : List Byte) : Chip :=
  let c1 := (coldRows c dense slot len img).foldl (fun c x => putTailRows c base slot x.1 x.2) c
  putMem c1 (recurAddr c base slot) (coldRecur c dense slot len img)

end Sys2Proof.Machine
end

