-- ==== Sys2Proof/Machine/Revive.lean ====
section
/-! DEFINITION. TIER's engines (R99-R109): revivals, block reads, flushes and evictions, as operations that the
session, tier and flash commands share. -/

namespace Sys2Proof.Machine

/-! ### Pressure (R102, R105) -/

/-- Entries of a partition's space: its own, or everyone's while no tenant is valid. -/
def inSpace (c : Chip) (p : Nat) (e : Session) : Bool := !tenantsValid c || decide (e.part = p)

/-- SITOUT sessions that an eviction may take: no operation, no eviction begun; none while FLASH refuses new
objects (R134). -/
def evictable (c : Chip) (p : Nat) : List Nat :=
  if flashReadOnly c || bit (reg c aFLASH_STATUS) 4 then []
  else (c.sess.entries.filter (fun e => decide (e.2.state = .sitout) && inSpace c p e.2 &&
    (opsOf c e.1).isEmpty && decide ((body c e.1).evict = none))).map (·.1)

/-- HEAP_FREE is below PRESSURE.LOW with nothing to evict in the partition's space (R105). -/
def heapLow (c : Chip) (p : Nat) : Bool :=
  decide (heapFree c p < pressureLow c) && (evictable c p).isEmpty &&
    c.sess.bodies.all (fun b => decide (b.2.evict = none) || !inSpace c p (entry c b.1))

/-- Raises HEAP_LOW when it holds. -/
def noteHeapLow (c : Chip) (p : Nat) : Chip := if heapLow c p then raise c .tier 16 else c

/-- TIER serves allocations other than sealing ones (R105). -/
def heapServes (c : Chip) (p : Nat) : Bool := !heapLow c p || decide (2 ^ 30 ≤ heapFree c p)

/-- A revival or other allocation of `n` bytes is allowed now (R105). -/
def heapAllows (c : Chip) (p n : Nat) : Bool :=
  n ≤ heapFree c p && (!heapLow c p || n + 2 ^ 30 ≤ heapFree c p)

/-! ### Revivals (R106, R107) -/

/-- Blocks of a session that it holds no claim on. -/
def unclaimed (c : Chip) (i : Nat) : List Nat :=
  let b := body c i
  ((b.blocks.map (·.2)).filter (fun k => k ∉ b.claims)).dedup

/-- TIER.REVIVE_ACTIVE: revivals with flash reads outstanding. -/
def reviveActive (c : Chip) : Nat :=
  (c.tier.revivals.filter (fun r => r.reading && (r.cold || !r.waitBlocks.isEmpty))).length

/-- The revival of a session whose deadline has not passed. -/
def revivalOf (c : Chip) (i : Nat) : Option Revival :=
  c.tier.revivals.find? (fun r => decide (r.idx = i) && !r.late)

/-- Removes every revival of a session. -/
def dropRevival (c : Chip) (i : Nat) : Chip :=
  { c with tier := { c.tier with revivals := c.tier.revivals.filter (fun r => r.idx ≠ i) } }

/-- Writes a revival in place of the session's present one. -/
def setRevival (c : Chip) (r : Revival) : Chip :=
  { c with tier := { c.tier with
      revivals := c.tier.revivals.map (fun x => if x.idx = r.idx ∧ x.late = false then r else x) } }

/-- The bytes of a session's COLD image, none when no good copy is left. -/
def imageOf (c : Chip) (i : Nat) : Option (List Byte) :=
  match (body c i).image with
  | none => none
  | some a =>
    match flashObj c a with
    | none => none
    | some o => if coldImageOk o.data then some o.data else none

/-- Adds a claim of a session on a block (R99, R100). -/
def claimBlock (c : Chip) (i k : Nat) : Chip :=
  let c1 := takeClaim c k
  setBody c1 i { body c1 i with claims := (body c1 i).claims ++ [k] }

/-- Issues the flash read of a block: heap space taken, READING (R100). -/
def startRead (c : Chip) (p k : Nat) : Option Chip :=
  match heapAlloc c p (ledger c k).size with
  | none => none
  | some (a, c1) => some (setLedger c1 k { ledger c1 k with gddr := some a, state := .reading })

/-- Issues the reads of a list of blocks; all or none. -/
def startReads (c : Chip) (p : Nat) : List Nat → Option Chip
  | [] => some c
  | k :: r =>
    match startRead c p k with
    | none => none
    | some c1 => startReads c1 p r

/-- Begins a revival whose turn has come: takes heap space, claims the copies in GDDR7 and issues its flash
reads (R55, R106). None while it must wait. A block or image without a good copy damages the session
(R108). -/
def beginRevival (c : Chip) (r : Revival) : Option Chip :=
  let i := r.idx
  let e := entry c i
  let want := unclaimed c i
  let flash := want.filter (fun k => decide ((ledger c k).state = .flash))
  let busy := want.filter (fun k => decide ((ledger c k).state = .reading))
  let here := want.filter (fun k =>
    decide ((ledger c k).state = .resident ∨ (ledger c k).state = .mirrored))
  let img := imageOf c i
  if want.any (fun k => decide ((ledger c k).state = .damaged)) || (r.cold && img.isNone) then
    let c1 := if r.cold && img.isNone then fault c 0x0C .flash (dieAt c ((body c i).image.getD 0)) ((body c i).image.getD 0) false else c
    some (damageSession (dropRevival c1 i) i)
  else
    let imgLen := (img.map (·.length)).getD 0
    let state := if r.cold then [tailSetBytes c e.model, smallBytes, exclBytes, max 64 imgLen] else []
    let need := state.sum + (flash.map (fun k => (ledger c k).size)).sum
    if (r.cold || !flash.isEmpty) && !flashServes c then none
    else if (r.cold || !flash.isEmpty || !busy.isEmpty) && 64 ≤ reviveActive c then none
    else if heapAllows c e.part need = false then none
    else
      match heapAllocs c e.part state with
      | none => none
      | some (addrs, c1) =>
        match startReads c1 e.part flash with
        | none => none
        | some c2 =>
          let c3 := here.foldl (fun c k => claimBlock c i k) c2
          let c4 := if r.cold then (flashRead c3 ((body c3 i).image.getD 0)).2 else c3
          let c5 := bumpPair c4 aTIER_REVIVE_BYTES_LO imgLen
          some (setRevival c5 { r with reading := true, waitBlocks := flash ++ busy, addrs := addrs })

/-- Begins every revival that can begin, by PRIORITY and then by arrival (R106). -/
def pumpRevivals (c : Chip) : Chip :=
  let q := sortBy (fun r => r.priority * 2 ^ 64 + r.order)
    (c.tier.revivals.filter (fun r => !r.reading && !r.late))
  q.foldl (fun c r =>
    if decide (revivalOf c r.idx = some r) then
      match beginRevival c r with
      | some c1 => c1
      | none => noteHeapLow c (entry c r.idx).part
    else c) c

/-- DEADLINE_DEFAULT (R115): 0 acts as 1. -/
def deadlineDefault (c : Chip) : Nat := max 1 (reg c aTIER_DEADLINE_DEFAULT).toNat

/-- A revival of a session joins the queue (R106); reads that an earlier one left running become its own. -/
def startRevival (c : Chip) (i deadline order : Nat) : Chip :=
  let e := entry c i
  let r : Revival := { idx := i, priority := e.priority, order := order, deadline := deadline,
                       reading := false, waitBlocks := [], addrs := [], cold := decide (e.state = .cold),
                       late := false, arrived := false }
  let c1 := dropRevival c i
  pumpRevivals { c1 with tier := { c1.tier with revivals := c1.tier.revivals ++ [r] } }

/-- Releases the image space of a revival, its last allocation. -/
def releaseImageSpace (c : Chip) (r : Revival) : Chip :=
  match r.addrs[3]? with
  | some a => heapRelease c a
  | none => c

/-- A revival that ends without its session (R52, R82): its allocations are released and the session stays
as its entry has it. -/
def abandonRevival (c : Chip) (i : Nat) : Chip :=
  match revivalOf c i with
  | none => c
  | some r =>
    let c1 := r.addrs.foldl heapRelease (dropRevival c i)
    if r.cold then
      let b := body c1 i
      setBody (b.claims.foldl dropClaim c1) i { b with claims := [] }
    else c1

/-- The session leaves COLD with its tails and small state rebuilt from the image (R55, R107): the entry with
the new addresses, and the chip with the bytes placed. TAIL_DECODED is set by a coded image (R104). -/
def rebuildCold (c : Chip) (i : Nat) (r : Revival) : Session × Chip :=
  let e := entry c i
  if r.cold then
    match imageOf c i with
    | none => (e, c)
    | some img =>
      let base := r.addrs.getD 0 0
      let c1 := placeColdTails c e.dense e.model e.length base img
      ({ e with tailBase := base, smallState := r.addrs.getD 1 0, exclTable := r.addrs.getD 2 0,
                tailDecoded := e.tailDecoded || !coldBf16 img }, releaseImageSpace c1 r)
  else (e, c)

/-- An entry with the counts of R99 as its claims now stand. -/
def countedEntry (c : Chip) (i : Nat) (e : Session) : Session :=
  let b := body c i
  { e with resident := b.claims.length, flashBlocks := b.blocks.length - b.claims.length }

/-- A revival fails (R108): the session becomes DAMAGED, and what was allocated for it is released. -/
def failRevival (c : Chip) (i : Nat) : Chip :=
  match revivalOf c i with
  | none => c
  | some r => damageSession (r.addrs.foldl heapRelease (dropRevival c i)) i

/-! ### Block reads (R97, R100, R108) -/

/-- A block loses its last good copy (R100): DAMAGED. Revivals that need it fail. -/
def damageBlock (c : Chip) (k : Nat) : Chip :=
  let c1 := dropGddr c k
  let c3 := setLedger c1 k { ledger c1 k with state := .damaged }
  let hit := (c3.tier.revivals.filter (fun r => !r.late && k ∈ r.waitBlocks)).map (·.idx)
  hit.foldl failRevival c3

/-- A revival read ends with its data in GDDR7 (R100): MIRRORED, and every waiting session claims it. -/
def blockArrived (c : Chip) (k : Nat) (data : List Byte) : Chip :=
  let e := ledger c k
  let c1 := bumpPair c aTIER_REVIVE_BYTES_LO e.size
  let c2 := putMem c1 (e.gddr.getD 0) data
  let c3 := setLedger c2 k { e with state := .mirrored }
  let wait := (c3.tier.revivals.filter (fun r => k ∈ r.waitBlocks)).map (·.idx)
  let c4 := wait.foldl (fun c i => if k ∈ unclaimed c i then claimBlock c i k else c) c3
  let revs := (c4.tier.revivals.map (fun r =>
    { r with arrived := r.arrived || k ∈ r.waitBlocks, waitBlocks := r.waitBlocks.filter (fun x => x ≠ k) })).filter (fun r =>
      !(r.late && r.waitBlocks.isEmpty))
  let c5 := { c4 with tier := { c4.tier with revivals := revs } }
  let late := (c4.tier.revivals.filter (fun r => r.late && k ∈ r.waitBlocks)).map (·.idx)
  late.foldl (fun c i =>
    if (entry c i).state = .sitout then openFig c (sessFig c i (countedEntry c i (entry c i)) [] []) else c) c5

/-- A read of a session's next operation needs FLASH: its image, or a block without a copy in GDDR7 (R106). -/
def needsFlash (c : Chip) (i : Nat) : Bool :=
  decide ((entry c i).state = .cold) || (unclaimed c i).any (fun k => decide ((ledger c k).state = .flash))

/-! ### Reads of a GDDR7 copy (R97, R100, R112) -/

/-- The flash copy of a block fails its checks or its codewords (R97, R129): no good copy is left. -/
def flashCopyBad (c : Chip) (k : Nat) : Chip :=
  let a := (ledger c k).flash.getD 0
  fault (damageBlock (raise (bump c aFLASH_UNCORR_CNT 1) .flash 17) k) 0x0C .flash (dieAt c a) a false

/-- A block's copy is placed anew: in fresh heap space, or where it stood while TIER serves only sealing allocations
(R100, R105; log entry 109). -/
def rehome (c : Chip) (k : Nat) (data : List Byte) : Chip :=
  let p := ((c.tier.heap.find? (fun x => decide ((ledger c k).gddr = some x.1))).map (·.2.2)).getD 0
  let c1 := dropGddr c k
  match (if heapServes c p then heapAlloc c1 p (ledger c k).size else none) with
  | some (b, c2) => putMem (setLedger c2 k { ledger c2 k with gddr := some b }) b data
  | none => putMem c ((ledger c k).gddr.getD 0) data

/-- An uncorrectable read of a block's GDDR7 copy at an address, found with a fault class (R100, R112): a MIRRORED block
is read again from flash, a RESIDENT one is DAMAGED. -/
def lostCopy (c : Chip) (cls a k : Nat) : Chip :=
  if (ledger c k).state = .mirrored then
    let (data, c1) := flashRead c ((ledger c k).flash.getD 0)
    if blockOk data then fault (rehome c1 k data) cls .gdr (channelOf c a) a false
    else fault (flashCopyBad c1 k) cls .gdr (channelOf c a) a true
  else if (ledger c k).state = .resident then fault (damageBlock c k) cls .gdr (channelOf c a) a true
  else fault c cls .gdr (channelOf c a) a false

/-- Reads blocks: a GDDR7 copy whose HDR_CRC fails, or a flash copy whose checks fail, is an uncorrectable read of that
copy (R97). -/
def checkCopies (c : Chip) (ks : List Nat) : Chip :=
  ks.foldl (fun c k =>
    if (ledger c k).state = .resident ∨ (ledger c k).state = .mirrored then
      if hdrOk (blockBytes c k) then c else lostCopy c 0x07 ((ledger c k).gddr.getD 0) k
    else if (ledger c k).state = .flash then
      if blockOk (blockData c k) then c else flashCopyBad c k
    else c) c

/-- A block of a list is DAMAGED. -/
def anyDamaged (c : Chip) (ks : List Nat) : Bool := ks.any (fun k => decide ((ledger c k).state = .damaged))

/-! ### Flush and eviction (R101-R104) -/

/-- A write of the block is in progress. -/
def flushing (c : Chip) (k : Nat) : Bool := c.flash.writes.any (fun w => decide (w.use = .block k))

/-- OWNER of a sealed block in the extent summary (R122). -/
def blockOwner (l : List Byte) : DWord :=
  w64 (rdLE l 0x14 4 + rdLE l 8 4 % 2 ^ 15 * 2 ^ 32 + rdLE l 3 1 * 2 ^ 56)

/-- Writes a RESIDENT block to flash (R101, R103), off the die of the object before it (R123): the status of FLASH. A copy
whose HDR_CRC fails is not written (R97). -/
def flushBlock (c : Chip) (part k : Nat) (avoid : Option Nat) : Nat × Chip :=
  if (ledger c k).state ≠ .resident ∨ flushing c k then (stOK, c)
  else
    let data := blockBytes c k
    if hdrOk data = false then (stTierFault, lostCopy c 0x07 ((ledger c k).gddr.getD 0) k)
    else
      let (st, _, c1) := flashWriteTo c part
        { len := data.length, kind := 1, owner := blockOwner data, seq := rdLE data 0x18 8, data := data } (.block k) avoid
      (st, if st = stOK then bumpPair c1 aTIER_FLUSH_BYTES_LO data.length else c1)

/-- Writes the RESIDENT blocks of a session, each to another die than the one before, up to the first that is not
written. -/
def flushRest (part : Nat) : Chip → Option Nat → List Nat → Nat × Chip
  | c, _, [] => (stOK, c)
  | c, avoid, k :: r =>
    let (st, c1) := flushBlock c part k avoid
    if st = stOK then flushRest part c1 (if c1.flash.nextWrite = c.flash.nextWrite then avoid else lastDie c1) r
    else (st, c1)

/-- `flushRest` from the first object of a flush. -/
def flushBlocks (part : Nat) (c : Chip) (l : List Nat) : Nat × Chip := flushRest part c none l

/-- Blocks a session refers to. -/
def blockList (c : Chip) (i : Nat) : List Nat := ((body c i).blocks.map (·.2)).dedup

/-- Cancels an eviction in phase 1 (R103): block copies stay valid, the image is freed. -/
def cancelEvict (c : Chip) (i : Nat) : Chip :=
  match (body c i).evict with
  | none => c
  | some (w, a) =>
    let c1 := match w, a with
      | some id, none => cancelWrite c id
      | _, some x => flashFree c x
      | none, none => c
    setBody c1 i { body c1 i with evict := none }

/-- Phase 1 of an eviction (R103): the RESIDENT blocks, then the image. A refused write abandons it. -/
def startEvict (c : Chip) (i : Nat) : Chip :=
  let e := entry c i
  let (st, c1) := flushBlocks e.part c (blockList c i)
  if st ≠ stOK then c1
  else
    let img := coldImage c1 i
    let avoid := if c1.flash.nextWrite = c.flash.nextWrite then none else lastDie c1
    let (st2, id, c2) := flashWriteTo c1 e.part
      { len := img.length, kind := 2, owner := w64 (handleOf c1 i).toNat, seq := c1.fig.seq,
        data := img } (.image i) avoid
    if st2 ≠ stOK then c2
    else
      let c3 := bumpPair c2 aTIER_FLUSH_BYTES_LO img.length
      setBody c3 i { body c3 i with evict := some (some id, none) }

/-- Heap bytes that an eviction of a session sets free. -/
def evictGain (c : Chip) (i : Nat) : Nat :=
  tailSetBytes c (entry c i).model + smallBytes + exclBytes +
    (((body c i).claims.filter (fun k => (ledger c k).res ≤ 1)).map (fun k => (ledger c k).size)).sum

/-- Age of a stamp: minuet ticks since it, on the counter that wraps (R40). -/
def stampAge (c : Chip) (s : Word) : Nat := (w32 c.now - s).toNat

/-- The order of eviction (R102): lowest priority level first, then the oldest STAMP; or STAMP alone. -/
def evictOrder (c : Chip) (p : Nat) : List Nat :=
  let key := fun (i : Nat) =>
    let e := entry c i
    (if bit (reg c aTIER_CFG) 1 then 0 else (3 - e.priority % 4) * 2 ^ 32) + (2 ^ 32 - 1 - stampAge c e.stamp)
  sortBy key (evictable c p)

/-- The sessions to evict until the free heap reaches a bound. -/
def evictUntil (c : Chip) (bound : Nat) : Nat → List Nat → List Nat
  | _, [] => []
  | free, i :: r => if bound ≤ free then [] else i :: evictUntil c bound (free + evictGain c i) r

/-- Heap bytes that the evictions of a space in phase 1 will set free. -/
def evictingGain (c : Chip) (p : Nat) : Nat :=
  ((c.sess.bodies.filter (fun b => b.2.evict.isSome && inSpace c p (entry c b.1))).map (fun b => evictGain c b.1)).sum

/-- One turn of pressure in a partition's space (R102): sessions are picked until the free heap, with what the evictions
under way set free, reaches PRESSURE.HIGH; pressure ends when HEAP_FREE has reached it. -/
def pressOn (c : Chip) (p : Nat) : Chip :=
  if pressureHigh c ≤ heapFree c p then
    { c with tier := { c.tier with pressing := c.tier.pressing.filter (fun q => q ≠ p) } }
  else if isOn c .tier then
    noteHeapLow ((evictUntil c (pressureHigh c) (heapFree c p + evictingGain c p) (evictOrder c p)).foldl startEvict c) p
  else c

/-- Pressure that has begun and not ended goes on (R102). -/
def pumpPressure (c : Chip) : Chip := c.tier.pressing.foldl pressOn c

/-- Every block of a session is MIRRORED (R103). -/
def allMirrored (c : Chip) (i : Nat) : Bool :=
  (blockList c i).all (fun k => decide ((ledger c k).state = .mirrored))

end Sys2Proof.Machine
end

