-- ==== Sys2Proof/Machine/FlashOps.lean ====
section
/-! DEFINITION. FLASH's engines (R125-R135): whole copies, retirement and spares, relocation, lost objects and
secure discard, as operations that the flash, tier and session commands share. -/

namespace Sys2Proof.Machine

/-! ### Owners (R100, R108, R126, R127) -/

/-- Ledger entries whose flash copy lies at an address. -/
def blocksAt (c : Chip) (addr : Nat) : List Nat :=
  (c.tier.ledger.filter (fun e => decide (e.2.flash = some addr))).map (·.1)

/-- Sessions whose COLD image lies at an address. -/
def imagesAt (c : Chip) (addr : Nat) : List Nat :=
  (c.sess.bodies.filter (fun b => decide (b.2.image = some addr))).map (·.1)

/-- Sessions whose eviction's durable image lies at an address. -/
def evictsAt (c : Chip) (addr : Nat) : List Nat :=
  (c.sess.bodies.filter (fun b =>
    match b.2.evict with
    | some (_, some a) => decide (a = addr)
    | _ => false)).map (·.1)

/-- A session becomes DAMAGED, its revival with it. -/
def hurtSession (c : Chip) (i : Nat) : Chip :=
  match revivalOf c i with
  | some _ => failRevival c i
  | none => damageSession c i

/-- Writes an object-table entry of a search index: one 8 B write (R385, R386). -/
def putEntry (c : Chip) (a : Nat) (v : DWord) : Chip :=
  let c1 := putMem c a (leBytes 8 v.toNat)
  { c1 with srch := { c1.srch with entries := tins c1.srch.entries a v } }

/-- An object-table entry becomes DAMAGED (R385, R402). -/
def damageEntry (c : Chip) (a : Nat) : Chip :=
  raise (putEntry c a (tget 0 c.srch.entries a ||| w64 (2 ^ 63))) .srch 16

/-- An owner replaces an old address with a new one if it still holds the old one (R127): whether it did. -/
def moveAddr (c : Chip) (old new : Nat) : Bool × Chip :=
  let bl := blocksAt c old
  let im := imagesAt c old
  let ev := evictsAt c old
  let en := (c.srch.entries.filter (fun e => decide (e.2 = w64 old))).map (·.1)
  let held := c.flash.heldFrees.any (fun h => decide (h.1 = old)) || c.tier.weights.any (fun w => decide (w.2.2 = old))
  let c1 := bl.foldl (fun c k => setLedger c k { ledger c k with flash := some new }) c
  let c2 := im.foldl (fun c i => setBody c i { body c i with image := some new }) c1
  let c3 := ev.foldl (fun c i => setBody c i { body c i with evict := some (none, some new) }) c2
  let c4 := en.foldl (fun c a => putEntry c a (w64 new)) c3
  let c5 := { c4 with
    flash := { c4.flash with heldFrees := c4.flash.heldFrees.map (fun h => if h.1 = old then (new, h.2) else h) }
    tier := { c4.tier with weights := c4.tier.weights.map (fun w => if w.2.2 = old then (w.1, w.2.1, new) else w) } }
  (!(bl.isEmpty && im.isEmpty && ev.isEmpty && en.isEmpty) || held, c5)

/-- A block loses its flash copy (R100): MIRRORED becomes RESIDENT; FLASH and READING become DAMAGED. -/
def blockLost (c : Chip) (k : Nat) : Chip :=
  if (ledger c k).state = .mirrored then
    setLedger c k { ledger c k with state := .resident, flash := none }
  else if (ledger c k).state = .flash ∨ (ledger c k).state = .reading then damageBlock c k
  else c

/-- An object has no good copy left (R108, R130): its owner acts on it. DEDUCED: an eviction whose COLD image is lost
before phase 2 is abandoned, as one whose write FLASH refuses (log entry 104). -/
def ownerLost (c : Chip) (addr : Nat) : Chip :=
  let c1 := (blocksAt c addr).foldl blockLost c
  let c2 := (imagesAt c1 addr).foldl hurtSession c1
  let c3 := (evictsAt c2 addr).foldl (fun c i => setBody c i { body c i with evict := none }) c2
  ((c3.srch.entries.filter (fun e => decide (e.2 = w64 addr))).map (·.1)).foldl damageEntry c3


/-- Ends the whole copy of an extent: the copy serves its LEXT, and the source is erased, or retired after a
program failure (R125, R128). -/
def endCopy (c : Chip) (e : Nat) : Chip :=
  let x := extent c e
  match x.state, x.copyTo with
  | .closed, some t =>
    let (v, c0) := takeFree c
    let c1 := setExtent c0 t { extent c0 t with state := .closed, copyTo := none }
    let c2 := bumpPair (jput c1 (.map (x.lext.getD 0) t)) aFLASH_MEDIA_BYTES_LO (x.fill + v % 2 ^ 20)
    let c3 := if x.failed then retire c2 e else startErase c2 e
    match x.lext with
    | some l => pumpFlash (eraseIfDead c3 l)
    | none => pumpFlash c3
  | _, _ => c

/-! ### Relocation (R127, R135) -/


/-- Objects of a LEXT. -/
def objectsIn (c : Chip) (l : Nat) : List (Nat × FObj) := c.flash.objects.filter (fun o => lextOf o.1 = l)

/-- Starts the copies of the live objects of an extent to write heads (R127). -/
def relocateAll (c : Chip) (e : Nat) : Chip :=
  match (extent c e).lext with
  | none => c
  | some l =>
    (objectsIn c l).foldl (fun c o =>
      let (v, c1) := takeFree c
      match placeWrite c1 (dieOrder c1 (partOfDie c1 (dieOf e)) v) o.2 (.relocate o.1) with
      | none => c1
      | some (_, c2) => c2) c

/-- An object copied to a new address is durable (R127). -/
def relocated (c : Chip) (old new : Nat) : Chip :=
  let (kept, c1) := moveAddr c old new
  if kept then dropObject c1 old else dropObject c1 new

/-- Moves an object to another extent at once, as a secure discard's release has done (R135). -/
def moveNow (c : Chip) (e : Nat) (o : Nat × FObj) : Chip :=
  let (v, c1) := takeFree c
  match placeWrite c1 (dieOrder c1 (partOfDie c1 (dieOf e)) v) o.2 (.relocate o.1) with
  | none => c1
  | some (id, c2) =>
    match c2.flash.writes.find? (fun w => w.id = id) with
    | none => c2
    | some w =>
      let (u, ca) := takeFree c2
      let cb := bumpPair ca aFLASH_MEDIA_BYTES_LO (o.2.len + u % 2 ^ 20)
      let c3 := { cb with flash := { cb.flash with
        writes := cb.flash.writes.filter (fun x => x.id ≠ id)
        objects := tins cb.flash.objects w.addr w.obj } }
      (moveAddr { c3 with flash := { c3.flash with objects := tdel c3.flash.objects o.1 } } o.1 w.addr).2

/-- Writes a write's object to a head of other dies under its old id (R125); a write that finds no place is
dropped, and an eviction that waits for it is abandoned. -/
def replaceWrite (c : Chip) (w : FWrite) : Chip :=
  let (v, ca) := takeFree c
  let was := extent ca w.ext
  let c1 := setExtent ca w.ext { was with records := was.records.filter (fun r => r.offset ≠ w.addr % 2 ^ 27) }
  let rest := c1.flash.writes.filter (fun x => x.id ≠ w.id)
  let dies := (dieOrder c1 (partOfDie c1 (dieOf w.ext)) v).filter (fun d => d ≠ dieOf w.ext)
  match placeWrite { c1 with flash := { c1.flash with writes := rest } } dies w.obj w.use with
  | some (id, c2) => { c2 with flash := { c2.flash with
      writes := c2.flash.writes.map (fun x => if x.id = id then { x with id := w.id } else x) } }
  | none =>
    let c2 := { c1 with flash := { c1.flash with writes := rest } }
    match w.use with
    | .image i => setBody c2 i { body c2 i with evict := none }
    | _ => c2

/-- Rewrites elsewhere every object of an extent that is not yet durable (R125). -/
def replaceWrites (c : Chip) (e : Nat) : Chip :=
  (c.flash.writes.filter (fun w => w.ext = e)).foldl replaceWrite c

/-- Ends a whole copy of an extent before it is complete: the target is erased. -/
def dropCopy (c : Chip) (e : Nat) : Chip :=
  match (extent c e).state, (extent c e).copyTo with
  | .closed, some t => startErase (setExtent c e { extent c e with copyTo := none, copyDue := true }) t
  | _, _ => c

/-- Where no write head takes what is left of an extent, a spare takes the extent whole under its LEXT. -/
def moveWhole (c : Chip) (e : Nat) : Chip :=
  match (extent c e).lext, (spareList c e).head? with
  | some l, some t =>
    if (objectsIn c l).isEmpty then c
    else
      let x := extent c e
      setExtent (jput (setExtent c t { extent c t with state := .closed, lext := some l, fill := x.fill, reads := 0,
                                                       records := x.records }) (.map l t)) e { x with lext := none }
  | _, _ => c

/-- Secure discard of one object (R135): the other live objects of its extent are relocated, and the extent is
erased and verified. `ok = false`: it still fails after four erases, and is retired and reported; else how many of them
it needed is a free value. -/
def destroyObject (c : Chip) (addr : Nat) (ok : Bool) : Chip :=
  match flashObj c addr, extOfLext c (lextOf addr) with
  | some _, some e =>
    let c0 := dropCopy (replaceWrites (if (extent c e).state = .open then closeExtent c e else c) e) e
    let c1 := { c0 with flash := { c0.flash with objects := tdel c0.flash.objects addr } }
    let c2 := moveWhole ((objectsIn c1 (lextOf addr)).foldl (fun c o => moveNow c e o) c1) e
    let (v, c3) := takeFree c2
    let n := (extent c3 e).erases + (if ok then 1 + v % 4 else 4)
    let c4 := jput (setExtent c3 e { extent c3 e with erases := n }) (.erases e n)
    keepHeads (if ok then applyCut (setExtent c4 e { extReset with erases := n })
      else fault (retire c4 e) 0x1C .flash (dieOf e * 2 ^ 16 + e % 2048) 0 false)
  | _, _ => c

end Sys2Proof.Machine
end

