-- ==== Sys2Proof/Machine/Offer.lean ====
section
/-! DEFINITION. What an OFFER sends (R297-R300, R305): cut-in messages as bytes, the portable image, cut
records, and the begin of the operation at its source. -/

namespace Sys2Proof.Machine

/-- The 64 B of a cut-in message (R298). -/
def cutBytes (m : CutMsg) : List Byte :=
  let l := [m.typ, m.form, m.status, m.flags] ++ leBytes 4 m.cutId.toNat ++ leBytes 4 m.srcHandle.toNat ++
    leBytes 4 m.dstHandle.toNat ++ leBytes 4 m.epoch.toNat ++ leBytes 4 m.regionTag.toNat ++
    leBytes 8 m.imageLen.toNat ++ leBytes 8 m.imageCrc.toNat ++ leBytes 8 m.modelKey.toNat ++
    leBytes 8 m.tag.toNat ++ leBytes 2 m.notify.toNat ++ [0, 0]
  l ++ leBytes 4 (crc32c l)

/-- A cut-in message from its bytes. -/
def cutOf (l : List Byte) : CutMsg :=
  { typ := l.getD 0 0, form := l.getD 1 0, status := l.getD 2 0, flags := l.getD 3 0,
    cutId := w32 (rdLE l 4 4), srcHandle := w32 (rdLE l 8 4), dstHandle := w32 (rdLE l 12 4),
    epoch := w32 (rdLE l 16 4), regionTag := w32 (rdLE l 20 4), imageLen := w64 (rdLE l 0x18 8),
    imageCrc := w64 (rdLE l 0x20 8), modelKey := w64 (rdLE l 0x28 8), tag := w64 (rdLE l 0x30 8),
    notify := BitVec.ofNat 16 (rdLE l 0x38 2), crcOk := rdLE l 0x3C 4 = crc32c (l.take 60) }

/-- A message with every field zero. -/
def cutZero : CutMsg :=
  { typ := 0, form := 0, status := 0, flags := 0, cutId := 0, srcHandle := 0, dstHandle := 0, epoch := 0,
    regionTag := 0, imageLen := 0, imageCrc := 0, modelKey := 0, tag := 0, notify := 0, crcOk := true }

/-- MODEL_KEY of a slot (R309). -/
def modelKey (c : Chip) (slot : Nat) : Nat := pairB c slot aCUT_MODEL_KEY_LO

/-- A section of an image, filled to the 64 B boundary of the next (R300). -/
def section64 (l : List Byte) : List Byte := padTo (roundUp l.length 64) l

/-- The drop bitmap of `n` blocks (R300). -/
def dropBitmap (b : Body) (n : Nat) : List Byte :=
  (List.range ((n + 7) / 8)).map (fun j =>
    (List.range 8).foldl (fun (a : Byte) k =>
      if 8 * j + k < n ∧ (tfind b.blocks (8 * j + k)).isNone then a ||| BitVec.ofNat 8 (2 ^ k) else a) 0)

/-- The body of a FORM 1 image (R300), sections in order. -/
def cutBody (c : Chip) (i : Nat) : List Byte :=
  let e := entry c i
  let b := body c i
  let n := groupsOf e.length * attnLayers c e.model
  section64 (dropBitmap b n) ++ section64 (b.blocks.flatMap (fun k => blockData c k.2)) ++
    section64 ((shapes c e.model).flatMap (fun s => (tailRows c i s (e.length % 128)).flatten)) ++
    section64 (recurBytes c i) ++ section64 (countsBytes b.counts) ++ section64 (stackBytes b.gram) ++
    section64 (stopArea b) ++ exclTableBytes b

/-- The image header (R300). -/
def cutHeader (c : Chip) (i form len : Nat) : List Byte :=
  let e := entry c i
  let b := body c i
  let l := leBytes 2 0x4349 ++ [1] ++ leBytes 1 form ++ leBytes 1 (b2n e.dense + 2 * b2n e.stopInclude) ++
    leBytes 1 e.priority ++ leBytes 1 e.stopCount ++ leBytes 1 e.exclCount ++ leBytes 4 e.length ++
    leBytes 4 e.maxLen ++ leBytes 4 e.epoch ++ leBytes 2 e.grammar ++ leBytes 2 e.client ++
    leBytes 8 e.prngKey.toNat ++ leBytes 8 e.prngCtr.toNat ++ leBytes 4 b.counts.length ++
    leBytes 2 b.gram.length ++ [0, 0] ++ leBytes 4 e.excluded ++ leBytes 4 (recurSizes c e.model).sum ++
    leBytes 8 len ++ List.replicate 60 0
  l ++ leBytes 4 (crc32c l)

/-- The image of a session (R300), FORM 1. -/
def cutImage (c : Chip) (i : Nat) : List Byte :=
  let b := cutBody c i
  cutHeader c i 1 (128 + b.length) ++ b

/-! ### Records (R306, R307) -/

/-- The cut record of a key at one end. -/
def cutFind (c : Chip) (source : Bool) (n : Nat) (id : Word) : Option CutRec :=
  c.cuts.find? (fun r => r.source == source && r.conn = n && decide (r.cutId = id))

/-- Writes a cut record in place of the one with its key. -/
def setCut (c : Chip) (r : CutRec) : Chip :=
  { c with cuts := c.cuts.map (fun x =>
      if x.conn = r.conn ∧ x.cutId = r.cutId ∧ x.source = r.source then r else x) }

/-- The source record of a session that has not ended. -/
def srcCut (c : Chip) (i : Nat) : Option CutRec :=
  c.cuts.find? (fun r => r.source && r.idx = i && !r.ended)

/-- The destination record of a session that has not ended. -/
def dstCut (c : Chip) (i : Nat) : Option CutRec :=
  c.cuts.find? (fun r => !r.source && r.idx = i && !r.ended)

/-- The message of either end about a record. -/
def srcMsg (r : CutRec) (typ : Byte) (epoch : Nat) : CutMsg :=
  { cutZero with typ := typ, cutId := r.cutId, srcHandle := r.srcHandle, dstHandle := r.dstHandle,
                 epoch := w32 epoch, imageLen := w64 r.imageLen }

/-- A CUT_ID that no record of the connection holds (R298), with fuel. -/
def freshCutId (c : Chip) (n : Nat) : Nat → Word → Word
  | 0, id => id
  | f + 1, id => if (cutFind c true n id).isSome then freshCutId c n f (id + 1) else id

/-- An OFFER begins at a READY source (R305): HANDOFF_OUT commits and the OFFER is sent. -/
def offerBegin (c : Chip) (i : Nat) (o : Op) (toConn notify : BitVec 16) : Chip :=
  let e := entry c i
  let n := toConn.toNat % 2 ^ 14
  let id := freshCutId c n (c.cuts.length + 1) c.cutNext
  let len := (cutImage c i).length
  let r : CutRec := { conn := n, cutId := id, source := true, idx := i, srcHandle := handleOf c i,
                      dstHandle := 0, epoch := e.epoch, form := 1, imageLen := len, imageCrc := 0,
                      region := 0, regionTag := 0, reckoned := 0, state := .offered, released := false,
                      confirmed := false, reclaimed := false, notify := notify.toNat, tag := o.tag,
                      replyConn := o.conn, replyTag := o.tag, base := 0, ended := false }
  let m : CutMsg := { srcMsg r 0x0B e.epoch with
    form := 1, imageLen := w64 len, modelKey := w64 (modelKey c e.model), tag := o.tag, notify := notify }
  let c1 := { c with cutNext := id + 1 }
  openFig c1 { sessFig c1 i { e with state := .handoffOut } []
    [.opUpdate i { o with phase := .handing }, .cutRecord r, .send n (.raw 4 (cutBytes m))]
    with origin := .cutIn }

end Sys2Proof.Machine
end

