-- ==== Sys2Proof/Machine/Sess.lean ====
section
/-! DEFINITION. SESS (R36-R67, R537): acceptance of session operations, their begin and their end, and the
commands of the session family. -/

namespace Sys2Proof.Machine

/-! ### Records of requests that no operation carries -/

/-- A completion record of a request by its fields (R63). -/
def bareRec (handle : Word) (tag : DWord) (code status : Nat) : CompRec :=
  { status := BitVec.ofNat 8 status, preempted := false, stopIncluded := false, implicit := false,
    tailDecoded := false, handle := handle, tag := tag, code := code, overhang := [], stopIndex := 0xFF,
    epoch := 0, length := 0, tokensIn := 0, tokensOut := 0, textBytes := 0, figSeq := some 0, aux := 0 }

/-- Answers a request with a completion record that shows an entry. -/
def answerReq (c : Chip) (n : Nat) (handle : Word) (tag : DWord) (code status : Nat) (e : Session)
    (aux : Nat) : Chip :=
  sendOut c n (.comp { bareRec handle tag code status with
    epoch := e.epoch, length := e.length, aux := w64 aux }) 0

/-- Refuses a request whose handle names no session of the requester: the record shows nothing of an entry
(log entry 23). -/
def rejectReq (c : Chip) (n : Nat) (handle : Word) (tag : DWord) (code status : Nat) : Chip :=
  sendOut c n (.comp (bareRec handle tag code status)) 0

/-! ### Handles (R39) -/

/-- Steps 1 and 2 of the handle checks, for a requester of partition `p`. -/
def handleStatus (c : Chip) (p : Option Nat) (h : Word) : Nat :=
  match p with
  | none => rejPart
  | some q =>
    let r := dirRange c q
    if hPart h ≠ q ∨ hIdx h < r.1 ∨ r.1 + r.2 ≤ hIdx h then rejPart
    else if (entry c (hIdx h)).state = .free ∨ (entry c (hIdx h)).gen ≠ hGen h then rejState
    else stOK

/-- The index of a handle that names a session now. -/
def sessionAt (c : Chip) (h : Word) : Option Nat :=
  if (entry c (hIdx h)).state ≠ .free ∧ handleOf c (hIdx h) = h then some (hIdx h) else none

/-- The states in which an operation is accepted (R43, R305). -/
def acceptedIn (code : Nat) (s : SessState) : Bool :=
  let awakeOrOut := decide (s = .ready ∨ s = .sitout ∨ s = .cold)
  if code = 2 ∨ code = 3 ∨ code = 6 ∨ code = 7 ∨ code = 11 then awakeOrOut
  else if code = 4 then decide (s = .ready ∨ s = .running)
  else if code = 5 then decide (s = .sitout ∨ s = .cold)
  else if code = 8 ∨ code = 9 then decide (s = .ready ∨ s = .running ∨ s = .sitout ∨ s = .cold ∨ s = .damaged)
  else decide (s ≠ .free)

/-- The code with which an operation that is not accepted in a state completes (R39). -/
def stateRefusal (s : SessState) : Nat := if s = .damaged then stDamaged else rejState

/-- States that take no operation but QUERY whatever stands in the queue (R61, R305); END and SECURE_END
reach a DAMAGED session. -/
def closedState (code : Nat) (s : SessState) : Bool :=
  decide (s = .handoffOut ∨ s = .handoffIn ∨ s = .held ∨ s = .ended) ||
    (decide (s = .damaged) && code ≠ 8 && code ≠ 9)

/-! ### Ends of operations -/

/-- Carries out what follows a commit, without a figure. -/
def applyAfters (c : Chip) (l : List After) : Chip := l.foldl (fun c a => afterOne c 0 a) c

/-- Ends the operation in progress without a figure. -/
def endNow (c : Chip) (i : Nat) (o : Op) (status : Nat) : Chip :=
  applyAfters c (endRecs c i o status ++ [.opDone i status])

/-- Ends the operation in progress from any phase: a revival is abandoned, and a RUNNING session returns to
READY by a figure before the completion record (R61). -/
def finishOp (c0 : Chip) (i status : Nat) : Chip :=
  let c := settle c0
  match opsOf c i with
  | [] => c
  | o :: _ =>
    let c1 := if o.phase = .reviving then abandonRevival c i else c
    if (entry c1 i).state = .running then
      let new := { entry c1 i with state := .ready }
      openFig c1 (sessFig c1 i new []
        (flushRec c1 i o ++ [.send o.conn (.comp (compRec (flushed o) status new)), .opDone i status]))
    else endNow c1 i o status

/-- Opens the figure of an operation that it completes (R46): the entry's new value, further actions, and the
completion record with AUX. More than 64 actions are refused (R69). -/
def figOp (c : Chip) (i : Nat) (o : Op) (new : Session) (acts : List Action) (aux : Nat)
    (more : List After) : Chip :=
  let f := sessFig c i new acts
    ([.send o.conn (.comp { compRec o stOK new with aux := w64 aux }), .opDone i stOK] ++ more)
  if tooMany f then endNow c i o rejLimit else openFig c f

/-- Sets the operation in progress. -/
def setHead (c : Chip) (i : Nat) (o : Op) : Chip :=
  match opsOf c i with
  | [] => c
  | _ :: r => setOps c i (o :: r)

/-! ### Begin of operations -/

/-- The implicit revival of R47, or the wait for a place in a step. -/
def reviveOrReady (c : Chip) (i : Nat) (o : Op) (ready : Op) : Chip :=
  let s := (entry c i).state
  if s = .sitout ∨ s = .cold then
    if isOn c .tier = false ∨ (flashRefuses c ∧ needsFlash c i) then endNow c i o rejBusy
    else startRevival (setHead c i { ready with phase := .reviving, implicit := true }) i (deadlineDefault c) o.order
  else setHead c i ready

/-- An APPEND whose tokens are known (R45, R275). -/
def appendTokens (c : Chip) (i : Nat) (o : Op) (l : List Nat) : Chip :=
  let e := entry c i
  if l.any (fun t => slotVocab c e.model ≤ t) then endNow c i o rejLimit
  else if e.maxLen < e.length + l.length then endNow c i o rejLimit
  else reviveOrReady c i o { o with phase := .ready, tokens := l }

/-- The begin of an APPEND: text is tokenised first; a region is read while its tag still names it (R328). -/
def appendBegin (c : Chip) (i : Nat) (o : Op) (src : AppendSrc) : Chip :=
  match src with
  | .tokens l => appendTokens c i o (l.map (fun t => t.toNat % 2 ^ 20))
  | .text _ => setHead c i { o with phase := .tokenising }
  | .region true _ _ _ => setHead c i { o with phase := .tokenising }
  | .region false n tag off =>
    if regionActive c tag = false then endNow c i o stRevoked
    else appendTokens c i o ((wordsOf (regionRead c tag off.toNat (4 * n.toNat))).map (· % 2 ^ 20))

/-- The begin of a GENERATE: checks 6 and 7 of R537, then R47. -/
def generateBegin (c : Chip) (i : Nat) (o : Op) (req : GenReq) : Chip :=
  let e := entry c i
  if e.length = 0 then endNow c i o rejState
  else if e.length = e.maxLen then endNow c i o stLimit
  else reviveOrReady c i o { o with
    phase := .ready, hostAt := if srcHost req.spec ∧ 0 < req.drafts.length then some 0 else none }

/-- Exclusion spans with one added, merged where spans overlap or touch (R59). -/
def addSpan (l : List (Nat × Nat)) (a b : Nat) : List (Nat × Nat) :=
  let touch := l.filter (fun s => s.1 ≤ b && a ≤ s.2)
  let rest := l.filter (fun s => !(s.1 ≤ b && a ≤ s.2))
  let lo := touch.foldl (fun m s => min m s.1) a
  let hi := touch.foldl (fun m s => max m s.2) b
  sortBy (·.1) (rest ++ [(lo, hi)])

/-- Positions that spans cover. -/
def spanCover (l : List (Nat × Nat)) : Nat := (l.map (fun s => s.2 - s.1)).sum

/-- A group lies wholly inside a span. -/
def groupIn (l : List (Nat × Nat)) (g : Nat) : Bool := l.any (fun s => s.1 ≤ 128 * g && 128 * (g + 1) ≤ s.2)

/-- EXCLUDE_SPAN (R59). -/
def excludeBegin (c : Chip) (i : Nat) (o : Op) (a b : Nat) : Chip :=
  let e := entry c i
  let bd := body c i
  let spans := addSpan bd.excl a b
  if ¬ (a < b ∧ b ≤ e.length) ∨ 16 < spans.length then endNow c i o rejLimit
  else
    let n := max 1 (attnLayers c e.model)
    let gone := bd.blocks.filter (fun k => groupIn spans (k.1 / n))
    let keep := bd.blocks.filter (fun k => !groupIn spans (k.1 / n))
    let goneIds := gone.map (·.2)
    let (v, c1) := takeFree c
    let acts := if gone.isEmpty then []
      else .tableSet (v % gddrSize) keep (bd.claims.filter (fun k => k ∉ goneIds)) ::
        goneIds.map (fun k => .refAdjust k false)
    figOp c1 i o e (acts ++ [.exclSet spans (spanCover spans)]) 0 []

/-- END and SECURE_END (R51, R60): ENDED commits. END completes and SECURE_END stays in progress until the
entry is FREE; every queued operation completes with REJECTED_STATE. -/
def endBegin (c : Chip) (i : Nat) (o : Op) (secure : Bool) : Chip :=
  let new := { entry c i with state := .ended }
  let rest := ((opsOf c i).drop 1).flatMap (fun q => endRecs c i q rejState)
  let c1 := setBody c i { body c i with
    secure := secure
    ckptWait := if secure && isOn c .ckpt then 2 + b2n (decide (c.ckpt.phase = .stream)) else 0 }
  let own := [After.send o.conn (.comp (compRec o stOK new)), .opDone i stOK]
  openFig c1 (sessFig c1 i new []
    ([.opTrim i] ++ (if secure then [.opUpdate i { o with phase := .handing }] else own) ++ rest))

/-! ### FORK (R57, R58) -/

/-- The tail rows of a source's positions from `128 * g` below `p`, from its tails, or from the image of a COLD
session. -/
def forkTailRows (c : Chip) (i : Nat) (n : Nat) : List (LayerShape × List (List Byte)) :=
  let e := entry c i
  if e.state = .cold then
    (coldRows c e.dense e.model e.length ((imageOf c i).getD [])).map (fun x => (x.1, x.2.take n))
  else (shapes c e.model).map (fun s => (s, tailRows c i s n))

/-- The rows of a sealed group's positions below `n` of the group, layer by layer; a dropped block has none. -/
def forkGroupRows (c : Chip) (i g n : Nat) : List (LayerShape × List (List Byte)) :=
  let e := entry c i
  let l := attnLayers c e.model
  (shapes c e.model).map (fun s =>
    match tfind (body c i).blocks (g * l + s.layer) with
    | some k => (s, blockRows e.dense (smoothing c e.model) s n (blockData c k))
    | none => (s, []))

/-- The blocks of a group that a session refers to. -/
def groupBlocks (c : Chip) (i g : Nat) : List Nat :=
  let l := attnLayers c (entry c i).model
  (List.range l).filterMap (fun k => tfind (body c i).blocks (g * l + k))


/-- FORK reads flash: a block of the group that it decodes has no copy in GDDR7, or the source is COLD and its image
gives the tails. -/
def forkReads (c : Chip) (i p : Nat) : Bool :=
  let e := entry c i
  let sealed := decide (p / 128 < groupsOf e.length ∧ p % 128 ≠ 0)
  (sealed && (groupBlocks c i (p / 128)).any (fun b => decide ((ledger c b).state = .flash ∨ (ledger c b).state = .reading))) ||
    (decide (e.state = .cold) && !sealed && (decide (p % 128 ≠ 0) || (decide (p = e.length) && recurSizes c e.model ≠ [])))

/-- A recurrent state copied from the source's end. -/
def forkRecur (c : Chip) (i : Nat) : List Byte :=
  let e := entry c i
  if e.state = .cold then coldRecur c e.dense e.model e.length ((imageOf c i).getD []) else recurBytes c i

/-- The refusals of FORK, in the order of its rules (R44, R57, R58, R105). -/
def forkRefusal (c : Chip) (i p : Nat) : Nat :=
  let e := entry c i
  let refs := (body c i).blocks.filter (fun k => k.1 / max 1 (attnLayers c e.model) < p / 128)
  if nbit (fld (regB c e.part aSEC_PART_SLOTS) 15 0) e.model = false then rejPart
  else if e.length < p ∨ (recurSizes c e.model ≠ [] ∧ p < e.length) then rejLimit
  else if refs.any (fun k => 65535 ≤ (ledger c k.2).ref) then rejLimit
  else if (freeIndex c e.part).isNone then rejLimit
  else if heapLow c e.part then rejBusy
  else stOK

/-- Makes the entry, body and actions of a forked session at a free index (R57). DEDUCED: EPOCH is 0, as OPEN sets it
(log entry 96). DEDUCED: SHARED is set where a sealed block is shared, as R40 words the flag (log entry 97). -/
def forkMake (c : Chip) (i : Nat) (o : Op) (req : ForkReq) (k : Nat) (addrs : List Nat) : Chip :=
  let e := entry c i
  let b := body c i
  let p := req.p.toNat
  let l := max 1 (attnLayers c e.model)
  let blocks := b.blocks.filter (fun x => x.1 / l < p / 128)
  let ids := (blocks.map (·.2)).dedup
  let claims := ids.filter (fun x => decide ((ledger c x).state = .resident ∨ (ledger c x).state = .mirrored))
  let whole := decide (p = e.length)
  let sealed := decide (p / 128 < groupsOf e.length ∧ p % 128 ≠ 0)
  let base := addrs.getD 0 0
  let decoded := decide (e.state = .cold) && !coldBf16 ((imageOf c i).getD [])
  let rows := if p % 128 = 0 then []
    else if sealed then forkGroupRows c i (p / 128) (p % 128)
    else forkTailRows c i (p % 128)
  let c1 := rows.foldl (fun c x => putTailRows c base e.model x.1 x.2) c
  let c2 := if whole then putMem c1 (recurAddr c1 base e.model) (forkRecur c i) else c1
  let spans := (b.excl.filter (fun s => s.1 < p)).map (fun s => (s.1, min s.2 p))
  let (v, c3) := takeFree c2
  let n := entry c3 k
  let new : Session := { n with
    part := e.part
    state := if claims.length = ids.length then .ready else .sitout
    dense := e.dense
    stopInclude := e.stopInclude
    shared := !blocks.isEmpty
    tailDecoded := p % 128 ≠ 0 && (sealed || e.tailDecoded || decoded)
    priority := e.priority
    model := e.model
    length := p
    maxLen := e.maxLen
    epoch := 0
    client := e.client
    grammar := e.grammar
    blockTable := v % gddrSize
    tailBase := base
    smallState := addrs.getD 1 0
    exclTable := addrs.getD 2 0
    prngKey := if req.seed = 0 then e.prngKey else req.seed
    prngCtr := 0
    resident := claims.length
    flashBlocks := blocks.length - claims.length
    parent := handleOf c i
    excluded := spanCover spans
    stopCount := e.stopCount
    exclCount := spans.length }
  let gram := if whole then b.gram
    else if e.grammar = 0xFFFF then []
    else gramStart c e.grammar
  let acts : List Action :=
    [.tableSet new.blockTable blocks claims] ++ ids.map (fun x => .refAdjust x true) ++
      (if whole then countBatches b.counts else []) ++
      [.grammarSet gram, .stopSet (if whole then histOf b else histReset) b.stops,
       .epochSet 0, .exclSet spans (spanCover spans)] ++ dirDiff false { n with blockTable := new.blockTable } new
  let c4 := setHead c3 i { o with phase := .handing }
  let f : Figure :=
    { subjects := [.session k, .session i], acts := acts, origin := .session, staged := (stagedBytes acts).length,
      after := [.takeIndex k,
                .send o.conn (.comp { compRec o stOK e with
                  tailDecoded := new.tailDecoded, aux := w64 (mkHandle e.part k n.gen).toNat }),
                .opDone i stOK] }
  if tooMany f then endNow c i o rejLimit else openFig c4 f

/-- FORK at its begin. Whether the flash reads that it needs end within the tier's default deadline is left open by the
rows: a free value says so, and late ones end it with TIER_LATE (R53; log entry 98). -/
def forkBegin (c : Chip) (i : Nat) (o : Op) (req : ForkReq) : Chip :=
  let e := entry c i
  let p := req.p.toNat
  let st := forkRefusal c i p
  if st ≠ stOK then
    let c1 := if st = rejLimit ∧ (freeIndex c e.part).isNone then raise c .sess 19 else c
    endNow (if st = rejBusy then noteHeapLow c1 e.part else c1) i o st
  else if forkReads c i p ∧ flashServes c = false then endNow c i o rejBusy
  else
    let ks := if p / 128 < groupsOf e.length ∧ p % 128 ≠ 0 then groupBlocks c i (p / 128) else []
    let ca := checkCopies c ks
    if anyDamaged ca ks ∨ (e.state = .cold ∧ (imageOf ca i).isNone) then hurtSession ca i
    else
      match freeIndex ca e.part, heapAllocs ca e.part [tailSetBytes ca e.model, smallBytes, exclBytes] with
      | some k, some (addrs, c1) =>
        let (v, c2) := takeFree c1
        if forkReads ca i p ∧ v % 2 = 1 then endNow { ca with free := c2.free } i o stTierLate
        else forkMake (if forkReads ca i p then c2 else c1) i o req k addrs
      | _, _ => endNow ca i o rejBusy

/-! ### Begin and acceptance -/

/-- An operation that has become due begins (R39 step 3, R49). -/
def beginOp (c : Chip) (i : Nat) (o : Op) : Chip :=
  let s := (entry c i).state
  let c1 := setHead c i { o with phase := .handing }
  if acceptedIn o.code s = false then endNow c i o (stateRefusal s)
  else
    match o.arg with
    | .append src => appendBegin c1 i o src
    | .generate req => generateBegin c1 i o req
    | .resume d =>
      if isOn c .tier = false ∨ (flashRefuses c ∧ needsFlash c i) then endNow c i o rejBusy
      else startRevival (setHead c i { o with phase := .reviving }) i
        (if d = 0 then deadlineDefault c else d.toNat) o.order
    | .fork req => forkBegin c1 i o req
    | .exclude a b => excludeBegin c1 i o a.toNat b.toNat
    | .offer n k =>
      if s = .ready then offerBegin c1 i { o with phase := .handing } n k
      else reviveOrReady c i o o
    | .plain =>
      if o.code = 4 then figOp c1 i o { entry c i with state := .sitout } [] 0 []
      else endBegin c1 i o (decide (o.code = 9))

/-- Revivals of sessions that are no longer SITOUT or COLD are abandoned. -/
def cleanRevivals (c : Chip) : Chip :=
  (c.tier.revivals.filter (fun r =>
    !r.late && !decide ((entry c r.idx).state = .sitout ∨ (entry c r.idx).state = .cold))).foldl
      (fun c r => abandonRevival c r.idx) c

/-- Sessions whose next operation is due; an unsettled arrival waits (R303). -/
def dueSessions (c : Chip) : List Nat :=
  (c.sess.ops.filter (fun e =>
    match e.2 with
    | o :: _ => decide (o.phase = .due) && !(body c e.1).unsettled
    | [] => false)).map (·.1)

/-- Begins every operation that is due, and those that become due by it. -/
def kickN : Nat → Chip → Chip
  | 0, c => c
  | n + 1, c =>
    match dueSessions c with
    | [] => c
    | l => kickN n (l.foldl (fun c i =>
        match opsOf c i with
        | o :: _ => beginOp (settle c) i o
        | [] => c) c)

/-- What every command that ends operations or makes room does last. -/
def kick (c : Chip) : Chip :=
  let c1 := kickN ((c.sess.ops.map (fun e => e.2.length)).sum + 1) c
  pumpRevivals (pumpPressure (cleanRevivals c1))

/-- OPQ_CFG.DEPTH (R65): 0 acts as 1, and 9-15 act as 8. -/
def opqDepth (c : Chip) : Nat := max 1 (min 8 (fld (reg c aSESS_OPQ_CFG) 3 0))

/-- The chip takes no new session operation (R52, R67, R82; a partition that is not VALID, R450). -/
def sessClosed (c : Chip) (p : Nat) : Bool :=
  !isOn c .sess || c.flt.chipPending || !partValid c p

/-- A session has a grammar or stop strings (R295). -/
def needsText (c : Chip) (i : Nat) : Bool :=
  decide ((entry c i).grammar ≠ 0xFFFF) || 0 < (entry c i).stopCount

/-- An APPEND carries text. -/
def isText (a : OpArg) : Bool :=
  match a with
  | .append (.text _) => true
  | .append (.region t _ _ _) => t
  | _ => false

/-- The connection of an OFFER takes no new operation (R364, R380, R382). -/
def offerPathBusy (c : Chip) (a : OpArg) : Bool :=
  match a with
  | .offer n _ => pathBusy c (n.toNat % 2 ^ 14)
  | _ => false

/-- REJECTED_BUSY at acceptance (R34, R49, R67, R85, R105, R117, R243, R267, R295, R308, R310). -/
def busyRefusal (c : Chip) (i code : Nat) (arg : OpArg) : Bool :=
  let ops := opsOf c i
  let s := (entry c i).state
  let out := decide (s = .sitout ∨ s = .cold)
  sessClosed c (entry c i).part || !isOn c .fig ||
    ((code = 2 || code = 3) && !isOn c .sched) ||
    (code = 3 && !isOn c .samp) ||
    (isText arg && !isOn c .text) || (code = 3 && needsText c i && !isOn c .text) ||
    (code = 11 && (!isOn c .cut || !isOn c .xpt || 4096 ≤ c.cuts.length || offerPathBusy c arg)) ||
    (((out && (code = 2 || code = 3 || code = 5 || code = 11)) || code = 6) && !isOn c .tier) ||
    (out && (code = 2 || code = 3 || code = 5 || code = 11) && flashRefuses c && needsFlash c i) ||
    (!ops.isEmpty && opqDepth c ≤ ops.length - 1) || 65536 ≤ opPlaces c

/-- The status of a region that an APPEND or the echo source reads (R255, R328). -/
def regionStatus (c : Chip) (i : Nat) (arg : OpArg) : Nat :=
  match arg with
  | .append (.region t n tag off) =>
    regionCheck c (entry c i).part tag off.toNat (if t then n.toNat else 4 * n.toNat)
  | .generate req =>
    if srcEcho req.spec then
      regionCheck c (entry c i).part req.spec.echoTag req.spec.echoOffset.toNat (4 * req.spec.echoCount.toNat)
    else stOK
  | _ => stOK

/-- The limits of a request's body that are checked when it is accepted (R45, R245, R255, R275, R297, R336,
R537). -/
def bodyStatus (c : Chip) (i : Nat) (arg : OpArg) : Nat :=
  let e := entry c i
  match arg with
  | .append (.tokens l) => if l.isEmpty then rejLimit else stOK
  | .append (.text l) =>
    if l.isEmpty ∨ 16777216 < l.length then rejLimit else if vocabValid c e.model then stOK else rejState
  | .append (.region t n _ _) =>
    if n = 0 ∨ (t ∧ 16777216 < n.toNat) then rejLimit
    else if t ∧ vocabValid c e.model = false then rejState else stOK
  | .generate req =>
    if slotVocab c e.model = 0 then rejState
    else if req.maxNew = 0 ∨ samplingOk req.samp (slotVocab c e.model) = false ∨
        specOk req.spec req.drafts.length = false then rejLimit
    else stOK
  | .offer n k =>
    if partOfConn c (n.toNat % 2 ^ 14) ≠ some e.part then rejPart
    else if 0xFFFFFFFC < e.epoch then rejLimit
    else if 2 ^ 14 ≤ k.toNat then rejLimit
    else stOK
  | _ => stOK

/-- The refusal of an accepted handle's request, if any. -/
def acceptStatus (c : Chip) (i code : Nat) (arg : OpArg) : Nat :=
  let s := (entry c i).state
  if closedState code s then stateRefusal s
  else if (opsOf c i).isEmpty ∧ acceptedIn code s = false then stateRefusal s
  else if busyRefusal c i code arg then rejBusy
  else if bodyStatus c i arg ≠ stOK then bodyStatus c i arg
  else regionStatus c i arg

/-- A new operation of a request. -/
def newOp (code conn : Nat) (tag : DWord) (handle : Word) (arg : OpArg) (order : Nat) : Op :=
  { code := code, conn := conn, tag := tag, handle := handle, arg := arg, phase := .queued, order := order,
    started := false, implicit := false, preempted := false, tokens := [], tokensIn := 0, tokensOut := 0,
    textBytes := 0, genBytes := 0, lastFig := 0, carried := none, final := none, tree := [], recent := [],
    hostAt := none, held := [], drainEnd := false }

/-- PARK, END and SECURE_END pre-empt (R51). -/
def preempts (code : Nat) : Bool := code = 4 || code = 8 || code = 9

/-- The operation in progress of a session has begun. -/
def begun (o : Op) : Bool := !decide (o.phase = .queued ∨ o.phase = .due)

/-- Places an operation: behind the others, or, for PARK, END and SECURE_END, at the head of the queue behind
those that pre-empt already (R51). -/
def placeOp (l : List Op) (o : Op) : List Op :=
  match l with
  | [] => [{ o with phase := .due }]
  | h :: r =>
    if preempts o.code then
      let front := if begun h then [h] else []
      let rest := if begun h then r else { h with phase := .queued } :: r
      let o := if begun h then o else { o with phase := h.phase }
      if begun h then
        front ++ rest.takeWhile (fun x => preempts x.code) ++ [o] ++ rest.dropWhile (fun x => preempts x.code)
      else if preempts h.code then
        h :: r.takeWhile (fun x => preempts x.code) ++ [{ o with phase := .queued }] ++
          r.dropWhile (fun x => preempts x.code)
      else o :: rest
    else l ++ [o]

/-- An APPEND or GENERATE that waits in READY for a place in a step, or for its tokens, and has not begun its
first step completes at once when it is pre-empted (R51). -/
def preemptWaiting (c : Chip) (i : Nat) : Chip :=
  match opsOf c i with
  | o :: _ =>
    if (o.code = 2 ∨ o.code = 3) ∧ !o.started ∧ (o.phase = .ready ∨ o.phase = .tokenising) then
      let c1 := setHead (bump c aSCHED_PREEMPT_CNT (b2n (decide (o.phase = .ready)))) i { o with preempted := true }
      let c2 := endNow c1 i { o with preempted := true } stOK
      match opsOf c2 i with
      | n :: r => setOps c2 i ({ n with phase := .due } :: r)
      | [] => c2
    else c
  | [] => c

/-- Accepts an operation into a session's queue (R49, R103). DEDUCED: only an operation that is accepted cancels an
eviction; a QUERY and a refused operation do not (log entry 101). -/
def enqueue (c : Chip) (i code conn : Nat) (tag : DWord) (handle : Word) (arg : OpArg) : Chip :=
  let o := newOp code conn tag handle arg c.sess.accepted
  let c1 := { c with sess := { c.sess with accepted := c.sess.accepted + 1 } }
  let before := opPlaces c1
  let c2 := setOps (cancelEvict c1 i) i (placeOp (opsOf c1 i) o)
  let c3 := if opPlaces c2 = 64513 ∧ before < 64513 then raise c2 .sess 18 else c2
  if preempts code then preemptWaiting c3 i else c3

/-- A request for a session operation other than OPEN and QUERY. -/
def request (c : Chip) (conn : Nat) (tag : DWord) (handle : Word) (code : Nat) (arg : OpArg) : Chip :=
  let c1 := settle c
  let hs := handleStatus c1 (partOfConn c1 conn) handle
  if hs ≠ stOK then rejectReq c1 conn handle tag code hs
  else
    let i := hIdx handle
    let bad := fetchFails c1 i
    let c2 := touch c1 i
    let st := if bad then stDamaged else acceptStatus c2 i code arg
    if st ≠ stOK then answerReq c2 conn handle tag code st (entry c2 i) 0
    else kick (enqueue c2 i code conn tag handle arg)

/-! ### QUERY (R50) -/

/-- AUX of a QUERY (R63). -/
def queryAux (c : Chip) (i : Nat) : Nat :=
  let e := entry c i
  stateCode e.state + 2 ^ 8 * e.exclCount + 2 ^ 16 * min 255 ((opsOf c i).length - 1) + 2 ^ 32 * e.flashBlocks

/-- QUERY: answered at once. -/
def queryReq (c : Chip) (conn : Nat) (tag : DWord) (handle : Word) : Chip :=
  let c1 := settle c
  let hs := handleStatus c1 (partOfConn c1 conn) handle
  if hs ≠ stOK then rejectReq c1 conn handle tag 10 hs
  else
    let i := hIdx handle
    let bad := fetchFails c1 i
    let c2 := touch c1 i
    if sessClosed c2 (entry c2 i).part then answerReq c2 conn handle tag 10 rejBusy (entry c2 i) 0
    else answerReq c2 conn handle tag 10 (if bad then stDamaged else stOK) (entry c2 i) (queryAux c2 i)

/-! ### OPEN (R44) -/

/-- The refusals of an OPEN (R44, R105, R278, R286, R336, R448; log entry 25 for the order). A slot that is not valid is
no refusal: the session is not eligible until it is (R221; log entry 84). -/
def openRefusal (c : Chip) (p : Nat) (req : OpenReq) : Nat :=
  let m := req.model.toNat
  let g := req.grammar.toNat
  if sessClosed c p || !isOn c .fig || !isOn c .tier then rejBusy
  else if 16 ≤ m ∨ 2 ≤ req.codec.toNat ∨ 4 ≤ req.priority.toNat ∨ 2 ≤ req.stopInclude.toNat ∨
      4194304 < req.maxLen.toNat ∨ 8 < req.stops.length ∨
      req.stops.any (fun s => 64 < s.length || (0xFF : Byte) ∈ s) ∨ (4095 < g ∧ g ≠ 0xFFFF) then rejLimit
  else if nbit (fld (regB c p aSEC_PART_SLOTS) 15 0) m = false then rejPart
  else if g ≠ 0xFFFF ∧ (gramValid c g = false ∨ gramSlot c g ≠ m) then rejState
  else if (freeIndex c p).isNone then rejLimit
  else if heapLow c p then rejBusy
  else stOK

/-- The entry of a new session (R44). -/
def openEntry (c : Chip) (p k : Nat) (req : OpenReq) (addrs : List Nat) (table : Nat) : Session :=
  { entry c k with
    part := p
    state := .ready
    dense := decide (req.codec = 1)
    stopInclude := decide (req.stopInclude = 1)
    shared := false
    tailDecoded := false
    priority := req.priority.toNat
    model := req.model.toNat
    length := 0
    maxLen := if req.maxLen = 0 then 4194304 else req.maxLen.toNat
    epoch := 0
    client := req.client.toNat
    grammar := req.grammar.toNat
    blockTable := table % gddrSize
    tailBase := addrs.getD 0 0
    smallState := addrs.getD 1 0
    exclTable := addrs.getD 2 0
    prngKey := req.seed
    prngCtr := 0
    resident := 0
    flashBlocks := 0
    parent := 0
    excluded := 0
    stopCount := (req.stops.filter (fun s => !s.isEmpty)).length
    exclCount := 0 }

/-- OPEN: one figure creates the entry (R44, R46). Fresh recurrent state is zero (log entry 26). -/
def openReq (c : Chip) (conn : Nat) (tag : DWord) (req : OpenReq) : Chip :=
  let c1 := settle c
  match partOfConn c1 conn with
  | none => rejectReq c1 conn 0 tag 1 rejPart
  | some p =>
    let st := openRefusal c1 p req
    if st ≠ stOK then
      let c2 := if st = rejLimit ∧ (freeIndex c1 p).isNone then raise c1 .sess 19 else c1
      rejectReq (if st = rejBusy then noteHeapLow c2 p else c2) conn 0 tag 1 st
    else
      let slot := req.model.toNat
      match freeIndex c1 p, heapAllocs c1 p [tailSetBytes c1 slot, smallBytes, exclBytes] with
      | some k, some (addrs, c2) =>
        let (v, c3) := takeFree c2
        let old := entry c3 k
        let new := openEntry c3 p k req addrs v
        let base := addrs.getD 0 0
        let c4 := { c3 with mem := memZero c3.mem base (tailSetBytes c3 slot) }
        let gram := if new.grammar = 0xFFFF then [] else gramStart c4 new.grammar
        openFig c4
          { subjects := [.session k]
            acts := [.grammarSet gram, .stopSet histReset req.stops, .epochSet 0] ++
              dirDiff false old new
            origin := .session
            staged := (stagedBytes [.grammarSet gram, .stopSet histReset req.stops]).length
            after := [.takeIndex k, .send conn (.comp { bareRec 0 tag 1 stOK with
              figSeq := none, aux := w64 (mkHandle p k old.gen).toNat })] }
      | _, _ => rejectReq c1 conn 0 tag 1 rejBusy

/-! ### Release (R60, R467) -/

/-- Zeroes the GDDR7 bytes that only a session held (R467). -/
def zeroHeld (c : Chip) (i : Nat) : Chip :=
  let e := entry c i
  let size := fun (a : Nat) => ((c.tier.heap.find? (fun x => x.1 = a)).map (fun x => x.2.1)).getD 0
  let own := (blockList c i).filter (fun k => (ledger c k).ref ≤ 1)
  let m1 := [e.tailBase, e.smallState, e.exclTable].foldl (fun m a =>
    if a = 0 then m else memZero m a (size a)) c.mem
  { c with mem := own.foldl (fun m k =>
      match (ledger c k).gddr with
      | some a => memZero m a (ledger c k).size
      | none => m) m1 }

/-- Flash objects that only a session held (R135). -/
def heldObjects (c : Chip) (i : Nat) : List Nat :=
  ((blockList c i).filter (fun k => (ledger c k).ref ≤ 1)).filterMap (fun k => (ledger c k).flash) ++
    (body c i).image.toList

/-- Zeroises the core stores of a partition's rows (R467): bit k of PART_RES.ROWS is cores 32k to 32k + 31
(R447). -/
def zeroCores (c : Chip) (p : Nat) : Chip :=
  let rows := fld (regB c p aSEC_PART_RES) 7 0
  { c with grid := { c.grid with
      cores := c.grid.cores.map (fun e => if nbit rows (e.1 / 32) then (e.1, { e.2 with store := [], fill := 0, paramFill := 0 }) else e) } }

/-- Shared blocks that a session's end keeps (R60). -/
def keptBlocks (c : Chip) (i : Nat) : Nat := ((blockList c i).filter (fun k => 1 < (ledger c k).ref)).length

/-- SESSION_RELEASE_DONE: the entry becomes FREE; a SECURE_END completes (R60, R412, R467). -/
def releaseDone (c : Chip) (i : Nat) (verified : Bool) : Chip :=
  let e := entry c i
  let b := body c i
  if e.state ≠ .ended ∨ (b.secure ∧ isOn c .ckpt ∧ b.ckptWait ≠ 0) then c
  else
    let new := { e with state := .free }
    if b.secure = false then openFig c (sessFig c i new [] [])
    else
      let kept := keptBlocks c i
      let objs := heldObjects c i
      let c1 := zeroCores (zeroHeld c i) e.part
      let c2 := (numbered objs).foldl (fun c x => destroyObject c x.2 (verified || x.1 ≠ 0)) c1
      let c3 := if verified ∨ objs ≠ [] then c2 else fault c2 0x1C .sess 0 e.tailBase false
      let st := if verified then stOK else stTierFault
      let after := match opsOf c3 i with
        | o :: _ => [After.send o.conn (.comp { compRec o st new with aux := w64 kept }), .opDone i st]
        | [] => []
      openFig c3 (sessFig c3 i new [] after)

/-! ### Commands -/

/-- OPEN. -/
def execOpenSession (conn : Conn) (tag : DWord) (req : OpenReq) (s : State) : Host.Outcome State Fault Refusal :=
  act s (fun c => whenAwake c (fun c => kick (openReq c conn.toNat tag req)))

/-- APPEND. -/
def execAppend (conn : Conn) (tag : DWord) (handle : Word) (src : AppendSrc) (s : State) :
    Host.Outcome State Fault Refusal :=
  act s (fun c => whenAwake c (fun c => request c conn.toNat tag handle 2 (.append src)))

/-- GENERATE. -/
def execGenerate (conn : Conn) (tag : DWord) (handle : Word) (req : GenReq) (s : State) :
    Host.Outcome State Fault Refusal :=
  act s (fun c => whenAwake c (fun c => request c conn.toNat tag handle 3 (.generate req)))

/-- PARK. -/
def execPark (conn : Conn) (tag : DWord) (handle : Word) (s : State) : Host.Outcome State Fault Refusal :=
  act s (fun c => whenAwake c (fun c => request c conn.toNat tag handle 4 .plain))

/-- RESUME. -/
def execResume (conn : Conn) (tag : DWord) (handle : Word) (deadline : Word) (s : State) :
    Host.Outcome State Fault Refusal :=
  act s (fun c => whenAwake c (fun c => request c conn.toNat tag handle 5 (.resume deadline)))

/-- FORK. -/
def execFork (conn : Conn) (tag : DWord) (handle : Word) (req : ForkReq) (s : State) :
    Host.Outcome State Fault Refusal :=
  act s (fun c => whenAwake c (fun c => request c conn.toNat tag handle 6 (.fork req)))

/-- EXCLUDE_SPAN. -/
def execExcludeSpan (conn : Conn) (tag : DWord) (handle : Word) (start stop : Word) (s : State) :
    Host.Outcome State Fault Refusal :=
  act s (fun c => whenAwake c (fun c => request c conn.toNat tag handle 7 (.exclude start stop)))

/-- END. -/
def execEndSession (conn : Conn) (tag : DWord) (handle : Word) (s : State) : Host.Outcome State Fault Refusal :=
  act s (fun c => whenAwake c (fun c => request c conn.toNat tag handle 8 .plain))

/-- SECURE_END. -/
def execSecureEnd (conn : Conn) (tag : DWord) (handle : Word) (s : State) : Host.Outcome State Fault Refusal :=
  act s (fun c => whenAwake c (fun c => request c conn.toNat tag handle 9 .plain))

/-- SESSION_RELEASE_DONE. -/
def execSessionReleaseDone (handle : Word) (verified : Bool) (s : State) : Host.Outcome State Fault Refusal :=
  act s (fun c => whenAwake c (fun c =>
    let c1 := settle c
    match sessionAt c1 handle with
    | some i => kick (settle (releaseDone c1 i verified))
    | none => c1))

/-- QUERY. -/
def execQuery (conn : Conn) (tag : DWord) (handle : Word) (s : State) : Host.Outcome State Fault Refusal :=
  act s (fun c => whenAwake c (fun c => queryReq c conn.toNat tag handle))

/-- OFFER. -/
def execOffer (conn : Conn) (tag : DWord) (handle : Word) (toConn notify : BitVec 16) (s : State) :
    Host.Outcome State Fault Refusal :=
  act s (fun c => whenAwake c (fun c => request c conn.toNat tag handle 11 (.offer toConn notify)))

/-- TOKENISE_DONE (R275): the text's tokens are known and take work space; a full region makes them wait. -/
def tokeniseDone (c : Chip) (i : Nat) : Chip :=
  match opsOf c i with
  | o :: _ =>
    if o.phase ≠ .tokenising then c
    else
      let slot := (entry c i).model
      let go := fun (l : List Byte) =>
        let t := tokenise c slot l
        if workFree c < 4 * t.length then raise c .text 19
        else
          appendTokens (bumpPair (bumpPair (vocabMisses c slot) aTEXT_TOK_BYTES_LO l.length) aTEXT_TOK_OUT_LO t.length) i o t
      match o.arg with
      | .append (.text l) => go l
      | .append (.region true n tag off) =>
        if regionActive c tag then go (regionRead c tag off.toNat n.toNat) else endNow c i o stRevoked
      | _ => c
  | [] => c

/-- TOKENISE_DONE. -/
def execTokeniseDone (handle : Word) (s : State) : Host.Outcome State Fault Refusal :=
  act s (fun c => whenAwake c (fun c =>
    let c1 := settle c
    match sessionAt c1 handle with
    | some i => if isUp c1 .text then kick (tokeniseDone c1 i) else c1
    | none => c1))

end Sys2Proof.Machine
end

