-- ==== Sys2Proof/Machine/Tier.lean ====
section
/-! DEFINITION. The commands of TIER, GDR and FIG (R73, R99-R118): revivals, flushes, evictions, the damage
sweep, patrol scrub, retraining, and the application of figures. -/

namespace Sys2Proof.Machine

/-! ### Revival (R107) -/

/-- What follows the revival figure for the operation in progress (R47, R51, R55). -/
def revivalAfter (o : Op) (preempted : Bool) (i : Nat) (new : Session) (elapsed : Word) : List After :=
  if o.code = 5 then
    [.send o.conn (.comp { compRec o stOK new with aux := w64 elapsed.toNat }), .opDone i stOK]
  else if preempted then
    [.send o.conn (.comp (compRec { o with preempted := true } stOK new)), .opDone i stOK]
  else if o.code = 11 then [.opUpdate i { o with phase := .due }]
  else [.opUpdate i { o with phase := .ready }]

/-- The last read completed within the deadline: the figure commits READY. -/
def revivalOk (c : Chip) (i : Nat) (r : Revival) (o : Op) (rest : List Op) (elapsed : Word) : Chip :=
  let (e1, c1) := rebuildCold (dropRevival c i) i r
  let new := { countedEntry c1 i e1 with state := .ready }
  let pre := (o.code = 2 || o.code = 3) && (rest.head?.map (fun n => preempts n.code)).getD false
  let c2 := if pre then
      setOps (bump c1 aSCHED_PREEMPT_CNT 1) i (o :: (match rest with
        | n :: q => { n with phase := .due } :: q
        | [] => []))
    else c1
  openFig c2 (sessFig c2 i new [] (revivalAfter o pre i new elapsed))

/-- A COLD session's image was read before the deadline (R55, R107): a block arrived, which is read after the image, or
every block is here; else the rows do not say it, and a free value does (log entry 28). -/
def imageRead (c : Chip) (r : Revival) : Bool × Chip :=
  if r.arrived ∨ !r.cold ∨ !r.reading then (r.reading, c)
  else
    let (v, c1) := takeFree c
    (v % 2 = 1, c1)

/-- The deadline passed (R107): TIER_LATE. Reads already issued run on; a COLD session whose image was read becomes
SITOUT. DEDUCED: AUX shows a revival time only with OK (log entry 99). -/
def revivalLate (c0 : Chip) (i : Nat) (r : Revival) (o : Op) : Chip :=
  let (got, c) := imageRead c0 r
  if r.reading ∧ !got then endNow (abandonRevival c i) i o stTierLate
  else
  let (e1, c1) := if r.reading then rebuildCold (dropRevival c i) i r else (entry c i, dropRevival c i)
  let c2 := if r.waitBlocks.isEmpty then c1
    else { c1 with tier := { c1.tier with
      revivals := c1.tier.revivals ++ [{ r with late := true, cold := false, addrs := [] }] } }
  let new := if r.reading then { countedEntry c2 i e1 with state := .sitout } else entry c2 i
  if new = entry c2 i then endNow c2 i o stTierLate
  else
    openFig c2 (sessFig c2 i new []
      [.send o.conn (.comp (compRec o stTierLate new)), .opDone i stTierLate])

/-- A read that needed shifted levels or a soft decode counts in FLASH.RETRY_CNT (R129, R138). -/
def noteRetry (c : Chip) (res : ReadResult) : Chip :=
  match res with
  | .clean => c
  | .retried => bump c aFLASH_RETRY_CNT 1
  | .uncorrectable => bump c aFLASH_RETRY_CNT 1

/-- REVIVAL_DONE; `image` is how the read of a COLD session's image went (R129): an uncorrectable one fails the
revival (R108). -/
def revivalDone (c0 : Chip) (i elapsed : Nat) (image : ReadResult) : Chip :=
  match revivalOf c0 i, opsOf c0 i with
  | some r, o :: rest =>
    let read := r.reading && r.cold
    let c := if read then noteRetry c0 image else c0
    if read ∧ image = .uncorrectable then
      let a := (body c i).image.getD 0
      failRevival (fault (raise (bump c aFLASH_UNCORR_CNT 1) .flash 17) 0x0C .flash (dieAt c a) a false) i
    else if elapsed ≤ r.deadline then
      if r.reading ∧ r.waitBlocks.isEmpty then revivalOk c i r o rest (w32 elapsed) else c
    else revivalLate c i r o
  | _, _ => c0

/-- REVIVAL_DONE. -/
def execRevivalDone (handle : Word) (elapsed : Word) (image : ReadResult) (s : State) :
    Host.Outcome State Fault Refusal :=
  act s (fun c => whenAwake c (fun c =>
    let c1 := settle c
    match sessionAt c1 handle with
    | some i => if isUp c1 .tier then kick (settle (revivalDone c1 i elapsed.toNat image)) else c1
    | none => c1))

/-- A revival read ends (R97, R100, R108): its data checked, or uncorrectable. -/
def blockReadDone (c : Chip) (k : Nat) (res : ReadResult) : Chip :=
  if (ledger c k).state ≠ .reading then c
  else
    let (data, c1) := flashRead (noteRetry c res) ((ledger c k).flash.getD 0)
    if res ≠ .uncorrectable ∧ blockOk data then blockArrived c1 k data else flashCopyBad c1 k

/-- BLOCK_READ_DONE. -/
def execBlockReadDone (block : Word) (res : ReadResult) (s : State) : Host.Outcome State Fault Refusal :=
  act s (fun c => whenAwake c (fun c => kick (settle (blockReadDone (settle c) block.toNat res))))

/-! ### Flush and eviction -/

/-- AGE_FLUSH (R101): the RESIDENT blocks of a SITOUT session go to flash. -/
def ageFlush (c : Chip) (i : Nat) : Chip :=
  if isOn c .tier ∧ (entry c i).state = .sitout ∧ reg c aTIER_FLUSH_AGE ≠ 0 then
    (flushBlocks (entry c i).part c (blockList c i)).2
  else c

/-- AGE_FLUSH. -/
def execAgeFlush (handle : Word) (s : State) : Host.Outcome State Fault Refusal :=
  act s (fun c => whenAwake c (fun c =>
    let c1 := settle c
    match sessionAt c1 handle with
    | some i => ageFlush c1 i
    | none => c1))

/-- PRESSURE_EVICT (R102): evictions start, and go on until HEAP_FREE reaches PRESSURE.HIGH. -/
def pressureEvict (c : Chip) (p : Nat) : Chip :=
  if isOn c .tier ∧ heapFree c p < pressureLow c ∧ p ∉ c.tier.pressing then
    pressOn { c with tier := { c.tier with pressing := c.tier.pressing ++ [p] } } p
  else pumpPressure c

/-- PRESSURE_EVICT. -/
def execPressureEvict (part : Part) (s : State) : Host.Outcome State Fault Refusal :=
  act s (fun c => whenAwake c (fun c => pressureEvict (settle c) part.toNat))

/-- COLD_AGE_EVICT (R102): without pressure. -/
def coldAgeEvict (c : Chip) (i : Nat) : Chip :=
  if isOn c .tier ∧ reg c aTIER_COLD_AGE ≠ 0 ∧ i ∈ evictable c (entry c i).part then startEvict c i else c

/-- COLD_AGE_EVICT. -/
def execColdAgeEvict (handle : Word) (s : State) : Host.Outcome State Fault Refusal :=
  act s (fun c => whenAwake c (fun c =>
    let c1 := settle c
    match sessionAt c1 handle with
    | some i => coldAgeEvict c1 i
    | none => c1))

/-- EVICTION_COMMIT (R103): phase 2, when every block is MIRRORED and the image durable. A block whose flash
copy was lost is written again. DEDUCED: the figure sets SMALL_STATE and EXCL_TABLE to 0 beside TAIL_BASE, since it frees
what they name (log entry 103). -/
def evictionCommit (c : Chip) (i : Nat) : Chip :=
  match (body c i).evict with
  | some (_, some _) =>
    if (entry c i).state ≠ .sitout ∨ isOn c .tier = false then c
    else if allMirrored c i = false then
      let (st, c1) := flushBlocks (entry c i).part c (blockList c i)
      if st = stOK then c1 else cancelEvict c1 i
    else
      let e := entry c i
      let n := (blockList c i).length
      openFig c (sessFig c i { e with state := .cold, tailBase := 0, smallState := 0, exclTable := 0,
                                      resident := 0, flashBlocks := n } [] [])
  | _ => c

/-- EVICTION_COMMIT. -/
def execEvictionCommit (handle : Word) (s : State) : Host.Outcome State Fault Refusal :=
  act s (fun c => whenAwake c (fun c =>
    let c1 := settle c
    match sessionAt c1 handle with
    | some i => pumpPressure (kick (settle (evictionCommit c1 i)))
    | none => c1))

/-! ### Damage sweep (R109) -/

/-- Sessions that refer to a DAMAGED block, in the states that R61's table leads to DAMAGED from (log entry 135). -/
def sweepFound (c : Chip) : List Nat :=
  (c.sess.entries.filter (fun e =>
    decide (e.2.state = .ready ∨ e.2.state = .running ∨ e.2.state = .sitout ∨ e.2.state = .cold) &&
      (blockList c e.1).any (fun k => decide ((ledger c k).state = .damaged)))).map (·.1)

/-- A damage sweep starts. -/
def sweepStart (c : Chip) : Chip := { c with tier := { c.tier with sweeping := true } }

/-- A damage sweep ends: what it found is DAMAGED. -/
def sweepEnd (c : Chip) : Chip :=
  if c.tier.sweeping = false then c
  else
    let l := sweepFound c
    let c1 := l.foldl hurtSession { c with tier := { c.tier with sweeping := false } }
    raise (setFld c1 aTIER_SWEEP 22 0 (min l.length (2 ^ 23 - 1))) .tier 20

/-- DAMAGE_SWEEP_END. -/
def execDamageSweepEnd (s : State) : Host.Outcome State Fault Refusal :=
  act s (fun c => whenAwake c (fun c => kick (settle (sweepEnd (settle c)))))

/-! ### GDR (R110-R113) -/

/-- What a GDDR7 address holds (R112). -/
inductive MemPlace
  | directory (idx : Nat)
  | vital
  | block (k : Nat)
  | state (idx : Nat)
  | weight (base len master : Nat)
  | other
  deriving DecidableEq, Repr

/-- Base of the directory (R65). -/
def dirBase (c : Chip) : Nat := pair c aSESS_DIR_BASE_LO

/-- An address lies in a range. -/
def inRange (a base n : Nat) : Bool := base ≤ a && a < base + n

/-- The session whose tails, small state or exclusion table an allocation is. -/
def stateOwner (c : Chip) (base : Nat) : Option Nat :=
  (c.sess.entries.find? (fun e => decide (e.2.state ≠ .free) && base ≠ 0 &&
    (e.2.tailBase = base || e.2.smallState = base || e.2.exclTable = base))).map (·.1)

/-- The block whose copy an allocation is. -/
def blockOwnerAt (c : Chip) (base : Nat) : Option Nat :=
  (c.tier.ledger.find? (fun e => decide (e.2.gddr = some base))).map (·.1)

/-- What an address holds: the fixed regions first, then the heap's allocations. -/
def placeOf (c : Chip) (a : Nat) : MemPlace :=
  if inRange a (pair c aFIG_LOG_BASE_LO) (2 ^ 20) && isUp c .fig then .vital
  else if inRange a (pair c aFIG_STAGE_BASE_LO) (stageSize c) && isUp c .fig then .vital
  else if inRange a (pair c aTIER_LEDGER_BASE_LO) (32 * ledgerSize c) && isUp c .tier then .vital
  else if inRange a (dirBase c) (2 ^ 29) && isUp c .sess then .directory ((a - dirBase c) / 128)
  else
    match c.tier.weights.find? (fun x => inRange a x.1 x.2.1), c.tier.heap.find? (fun x => inRange a x.1 x.2.1) with
    | some w, _ => .weight w.1 w.2.1 w.2.2
    | none, none => .other
    | none, some x =>
      match blockOwnerAt c x.1, stateOwner c x.1 with
      | some k, _ => .block k
      | none, some i => .state i
      | none, none => .other

/-- The reaction to an uncorrectable read (R112) found with a fault class. -/
def uncorrectable (c : Chip) (cls a : Nat) : Chip :=
  match placeOf c a with
  | .vital => fault c 0x0A .gdr (channelOf c a) a false
  | .directory i =>
    let c1 := fault c cls .gdr (channelOf c a) a true
    if i ∈ c1.sess.cached ∨ (entry c1 i).state = .free then c1
    else setEntry c1 i { entry c1 i with crcFlip := 1 }
  | .block k => lostCopy c cls a k
  | .state i => fault (hurtSession c i) cls .gdr (channelOf c a) a true
  | .weight base len master =>
    let o := (a - base) / 4096 * 4096
    let (data, c1) := flashRead c master
    if (flashObj c master).isNone then fault c1 0x0B .gdr (channelOf c a) a false
    else fault (putMem c1 (base + o) (slice data o (min 4096 (len - o)))) cls .gdr (channelOf c a) a false
  | .other => fault c cls .gdr (channelOf c a) a false

/-- An uncorrectable burst is counted and recorded (R118). -/
def countUe (c : Chip) (a : Nat) : Chip := raise (setPair (bump c aGDR_UE_CNT 1) aGDR_UE_ADDR_LO a) .gdr 16

/-- What a GDDR7 read at an address meets (R111, R112), reported with the class of a masked error or of a lost one. -/
def readBurst (c : Chip) (masked lost a : Nat) (res : EccResult) : Chip :=
  match res with
  | .clean => c
  | .corrected => fault (bump c aGDR_CE_CNT 1) masked .gdr (channelOf c a) a false
  | .uncorrectable => uncorrectable (countUe c a) lost a
  | .retried n => fault (bump c aGDR_RETRY_CNT (n.toNat + 1)) masked .gdr (channelOf c a) a false
  | .retryOut => uncorrectable (countUe (raise (bump c aGDR_RETRY_CNT 4) .gdr 19) a) lost a

/-- A read lost its data. -/
def burstLost (res : EccResult) : Bool := decide (res = .uncorrectable ∨ res = .retryOut)

/-- One address of the patrol scrub (R113). -/
def patrol (c : Chip) (a : Nat) (res : EccResult) (passEnd : Bool) : Chip :=
  let c1 := readBurst c 0x08 0x08 a res
  if passEnd then raise (bump c1 aGDR_SCRUB_PASSES 1) .gdr 18 else c1

/-- PATROL_SCRUB. -/
def execPatrolScrub (addr : BitVec 38) (res : EccResult) (passEnd : Bool) (s : State) :
    Host.Outcome State Fault Refusal :=
  act s (fun c => whenAwake c (fun c =>
    if isUp c .gdr then kick (settle (patrol (settle c) addr.toNat res passEnd)) else c))

/-- A retraining window (R113): a channel that cannot be trained is recorded and reported. -/
def retrain (c : Chip) (ch : Nat) (ok : Bool) : Chip :=
  if isUp c .gdr = false ∨ bit (reg c aGDR_RETRAIN) 0 = false ∨ ok then c
  else
    let c1 := setFld (setFld c aGDR_CH_READY ch ch 0) aGDR_CH_FAULT ch ch 1
    fault (raise c1 .gdr 17) 0x09 .gdr ch 0 false

/-- RETRAIN_WINDOW. -/
def execRetrainWindow (ch : BitVec 5) (ok : Bool) (s : State) : Host.Outcome State Fault Refusal :=
  act s (fun c => whenAwake c (fun c => retrain c ch.toNat ok))

/-! ### FIG (R71, R73) -/

/-- FIGURE_APPLY: the oldest committed figure is applied. -/
def execFigureApply (s : State) : Host.Outcome State Fault Refusal :=
  act s (fun c => whenAwake c applyOne)

/-- FIG_STALL_RELEASE: figures that waited open (R71, R74, R75). -/
def execFigStallRelease (s : State) : Host.Outcome State Fault Refusal :=
  act s (fun c => whenAwake c (fun c => kick (releaseWaiting c)))

end Sys2Proof.Machine
end

