-- ==== Sys2Proof/Machine/Grid.lean ====
section
/-! DEFINITION. The step cores (R140-R171): registers, core store, scoreboard, messages, barriers, copy plans,
and the state table of a core. The step operations are in Oper.lean. -/

namespace Sys2Proof.Machine

/-- A core at reset: OFF, with no register value given by the manual (log entry 33). -/
def coreReset : Core :=
  { s := [], v := [], p := [], acc := [], accKind := [], store := [], fill := 0, paramFill := 0, pc := 0, loops := [],
    wait := none, halted := false, posts := [], sendQ := [], inFlight := [], credits := [], plans := [],
    programs := [], state := .off, before := .off, stFail := false, requested := false, wantOff := false,
    lameDue := false, window := [] }

/-- A core by number. -/
def coreAt (c : Chip) (n : Nat) : Core := tget coreReset c.grid.cores n

/-- Writes a core. -/
def setCore (c : Chip) (n : Nat) (k : Core) : Chip :=
  { c with grid := { c.grid with cores := tset coreReset c.grid.cores n k } }

/-- The partition of a core's row pair (R140, R447). -/
def corePart (c : Chip) (n : Nat) : Nat :=
  (parts8.find? (fun p => partHolds c p && nbit (fld (regB c p aSEC_PART_RES) 7 0) (n / 32))).getD 0

/-! ### Registers (R140) -/

/-- A scalar register: S0 reads 0. -/
def sget (k : Core) (r : Reg) : Word := if r = 0 then 0 else tget 0 k.s r.toNat

/-- Writes a scalar register: a write to S0 is discarded. -/
def sset (k : Core) (r : Reg) (w : Word) : Core :=
  if r = 0 then k else { k with s := tset 0 k.s r.toNat w }

/-- 64 lanes of zero. -/
def zeroLanes : List Word := List.replicate 64 0

/-- A vector register. -/
def vget (k : Core) (r : Reg) : List Word := tget zeroLanes k.v r.toNat

/-- Writes a vector register. -/
def vset (k : Core) (r : Reg) (l : List Word) : Core := { k with v := tset zeroLanes k.v r.toNat l }

/-- A predicate register: P0 reads all ones. -/
def pget (k : Core) (r : PReg) : BitVec 64 := if r = 0 then BitVec.allOnes 64 else tget 0 k.p r.toNat

/-- Writes a predicate register: a write to P0 is discarded. -/
def pset (k : Core) (r : PReg) (w : BitVec 64) : Core :=
  if r = 0 then k else { k with p := tset 0 k.p r.toNat w }

/-- The lanes that a guard enables (R149). -/
def guardMask (k : Core) (g : Guard) : BitVec 64 := if g.neg then ~~~(pget k g.pred) else pget k g.pred

/-- Writes the enabled lanes of a vector register (R149). -/
def vsetMasked (k : Core) (g : Guard) (r : Reg) (l : List Word) : Core :=
  let m := guardMask k g
  let old := vget k r
  vset k r ((List.range 64).map (fun i => if m.getLsbD i then l.getD i 0 else old.getD i 0))

/-! ### Core store (R142) -/

/-- Bytes of a core store. -/
abbrev storeSize : Nat := 0x100000

/-- A byte of the core store. An unlisted byte is 0 from reset, and open after a self-test or DEEP (log entry
32); a parameter byte that SCHED wrote and R142 does not give is open. -/
def coreByte (k : Core) (a : Nat) : Byte :=
  (tfind k.store a).getD
    (if k.paramFill ≠ 0 ∧ 0x30 ≤ a ∧ a < 0x1000 then Config.coreFill k.paramFill a
     else if k.fill = 0 then 0
     else Config.coreFill k.fill a)

/-- Bytes of the core store. -/
def coreRead (k : Core) (a n : Nat) : List Byte := (List.range n).map (fun i => coreByte k (a + i))

/-- Writes bytes of the core store. -/
def coreWrite (k : Core) (a : Nat) (l : List Byte) : Core :=
  { k with store := (numbered l).foldl (fun t e => tins t (a + e.1) e.2) k.store }

/-- A number of the core store. -/
def coreLE (k : Core) (a n : Nat) : Nat := leNat (coreRead k a n)

/-- The alignment of an operand of `n` bytes (R142): its own size, the next power of two below where it is
none, up to 64 (log entry 34). -/
def alignOf (n : Nat) : Nat := if n = 0 then 1 else min 64 (2 ^ Nat.log2 n)

/-- The error of a core-store operand (R142, R147): range, then alignment. -/
def operandErr (a n : Nat) : Option Nat :=
  if storeSize < a + n then some 0x01 else if a % alignOf n ≠ 0 then some 0x0A else none

/-- MEMBERS of the parameter block: core `m` is in the placement group (R142). -/
def inGroup (k : Core) (m : Nat) : Bool := m < 256 && nbit (coreLE k 0x10 32) m

/-! ### Scoreboard (R143) -/

/-- A core-store range: first byte and bytes. -/
abbrev Rng := Nat × Nat

/-- Core-store bytes that a descriptor reads: STORE and PUT. -/
def descSource (d : Desc) : Option Rng :=
  if d.kind = 2 ∨ d.kind = 3 then some (d.src, (d.rows - 1) * d.stride + d.len) else none

/-- Core-store bytes of core `n` that a descriptor of core `m` writes. -/
def descDest (n m : Nat) (d : Desc) : Option Rng :=
  if d.kind = 3 then (if d.dst / 2 ^ 32 = n then some (d.dst % 2 ^ 20, d.size) else none)
  else if d.kind ≠ 2 ∧ m = n then some (d.dst, d.size)
  else none

/-- The descriptors of the running plans of a core. -/
def runningDescs (k : Core) : List Desc := k.plans.flatMap (·.2)

/-- Ranges busy for reads: destinations of running descriptors, and posted buffers whose message has not
arrived. -/
def busyReads (c : Chip) (n : Nat) : List Rng :=
  c.grid.cores.flatMap (fun e => (runningDescs e.2).filterMap (descDest n e.1)) ++
    (coreAt c n).posts.filterMap (fun e => if e.2.arrived.isNone then some (e.2.addr, e.2.len) else none)

/-- Ranges busy for writes: those, and the sources of running STORE and PUT descriptors. -/
def busyWrites (c : Chip) (n : Nat) : List Rng :=
  busyReads c n ++ (runningDescs (coreAt c n)).filterMap descSource

/-- A range meets a page that a list of ranges marks busy. -/
def pageBusy (l : List Rng) (a n : Nat) : Bool :=
  l.any (fun r => 0 < r.2 && 0 < n && a / 4096 ≤ (r.1 + r.2 - 1) / 4096 && r.1 / 4096 ≤ (a + n - 1) / 4096)

/-! ### Program order (R146, R150) -/

/-- Goes to the next iteration of loops whose body has ended, or leaves them. -/
def closeLoops : Nat → Core → Core
  | 0, k => k
  | f + 1, k =>
    match k.loops with
    | [] => k
    | l :: r =>
      if k.pc ≠ l.start + l.len then k
      else if l.index + 1 < l.count then { k with pc := l.start, loops := { l with index := l.index + 1 } :: r }
      else closeLoops f { k with loops := r }

/-- Issue goes on at an instruction. -/
def goTo (k : Core) (pc : Nat) : Core := closeLoops (k.loops.length + 1) { k with pc := pc }

/-- Issue goes on after the present instruction. -/
def advance (k : Core) : Core := goTo k (k.pc + 1)

/-- A core issues: it runs a program, has not reached HALT, waits for nothing, and no chip fault stops it
(R236). -/
def canIssue (c : Chip) (k : Core) : Bool :=
  decide (k.state = .busy ∨ k.state = .draining) && !k.halted && k.wait.isNone && isUp c .grid &&
    !c.flt.chipPending

/-- What an instruction does at issue: it goes on, stalls on the scoreboard or a full queue (R143, R150), or is
a program error (R147). -/
inductive IRes
  | next (k : Core)
  | stall
  | err (kind : Nat)
  deriving DecidableEq, Repr

/-- A program error (R147): the first is recorded in PROG_ERR, and it is a step control fault, which is reported. -/
def progError (c : Chip) (n kind : Nat) : Chip :=
  let c1 := if bit (reg c aGRID_PROG_ERR) 31 then c
    else raise (setReg c aGRID_PROG_ERR (w32 (2 ^ 31 + kind * 2 ^ 16 + n))) .grid 18
  reportUnlisted c1 .grid

/-- Issues an instruction on a core: `f` gives its effect on the core, `post` what follows on the chip. -/
def issue (c : Chip) (n : Nat) (f : Core → IRes) (post : Chip → Chip) : Chip :=
  let k := coreAt c n
  if canIssue c k then
    match f k with
    | .next k' => post (setCore c n k')
    | .stall => c
    | .err kind => progError c n kind
  else c

/-- An instruction that tests lane 0 of its predicate (R149). -/
def scalarOp (g : Guard) (f : Core → IRes) (k : Core) : IRes :=
  if (guardMask k g).getLsbD 0 then f k else .next (advance k)

/-- The effect of an instruction that reads or writes the core store: errors, then the scoreboard. -/
def withStore (c : Chip) (n : Nat) (write : Bool) (a len : Nat) (r : IRes) : IRes :=
  match operandErr a len with
  | some e => .err e
  | none => if pageBusy (if write then busyWrites c n else busyReads c n) a len then .stall else r

/-! ### Waits, messages and barriers (R155-R158) -/

/-- Every SEND, PUT and STORE of a core is acknowledged (R150). -/
def drained (k : Core) : Bool :=
  k.sendQ.isEmpty && k.inFlight.isEmpty && (runningDescs k).all (fun d => d.kind ≠ 2 && d.kind ≠ 3)

/-- Ends the wait of a core when what it waits for has come. -/
def wakeCore (c : Chip) (n : Nat) : Chip :=
  let k := coreAt c n
  match k.wait with
  | some .fence => if drained k then setCore c n (advance { k with wait := none }) else c
  | some (.message tag a) =>
    match (tfind k.posts tag).bind (·.arrived) with
    | some len => setCore c n (advance (sset { k with wait := none } (BitVec.ofNat 5 a) (w32 len)))
    | none => c
  | some (.plan p) =>
    if (tfind k.plans p).isNone then setCore c n (advance { k with wait := none }) else c
  | _ => c

/-- A core resumes: marking on its row stops unless another core of the row waits at a barrier (R440). -/
def stopMarking (c : Chip) (n : Nat) : Chip :=
  let waits := fun (k : Core) => match k.wait with
    | some (.bar _) => true
    | _ => false
  if (List.range 16).any (fun x => waits (coreAt c (n / 16 * 16 + x))) then c
  else
    { c with pwr := { c.pwr with
      marking := tdel c.pwr.marking (n / 16)
      markDone := c.pwr.markDone.filter (· ≠ n / 16) } }

/-- A barrier releases every member once the last has arrived (R157). -/
def releaseBarrier (c : Chip) (n b : Nat) : Chip :=
  let members := (List.range 256).filter (inGroup (coreAt c n))
  if n ∈ members ∧ members.all (fun m => decide ((coreAt c m).wait = some (.bar b))) then
    let c1 := members.foldl (fun c m => setCore c m (advance { coreAt c m with wait := none })) c
    members.foldl stopMarking c1
  else c

/-- A message arrives whole in its posted buffer (R155): a message longer than the buffer is a program error
(R147). -/
def deliver (c : Chip) (dst tag : Nat) (data : List Byte) : Chip :=
  let k := coreAt c dst
  match tfind k.posts tag with
  | none => c
  | some p =>
    if p.len < data.length then progError c dst 0x02
    else
      let k1 := coreWrite k p.addr data
      wakeCore (setCore c dst { k1 with posts := tins k1.posts tag { p with arrived := some data.length } }) dst

/-- The first queued message of a core that may stream: its credit is held and no message for the same
destination is queued before it (R155, R156). -/
def readySend (k : Core) : Option SendMsg :=
  (numbered k.sendQ).findSome? (fun e =>
    if (e.2.dst, e.2.tag) ∈ k.credits ∧ (k.sendQ.take e.1).all (fun m => m.dst ≠ e.2.dst) then some e.2 else none)

/-- Streams the queued messages of a core that hold their credit, with fuel. A message to the core's own number
moves within the core store (R155). -/
def pumpSends : Nat → Chip → Nat → Chip
  | 0, c, _ => c
  | f + 1, c, n =>
    let k := coreAt c n
    match readySend k with
    | none => c
    | some m =>
      let data := coreRead k m.addr m.len
      let k1 := { k with sendQ := dropFirst (fun x => decide (x = m)) k.sendQ
                         credits := k.credits.erase (m.dst, m.tag) }
      if m.dst = n then pumpSends f (deliver (setCore c n k1) n m.tag data) n
      else pumpSends f (setCore c n { k1 with inFlight := k1.inFlight ++ [(m, data)] }) n

/-- Streams what a core can stream, and ends its FENCE. -/
def pumpCore (c : Chip) (n : Nat) : Chip := wakeCore (pumpSends 8 c n) n

/-- MESSAGE_ARRIVAL (R155, R156): the oldest streaming message of a source for a destination, when it has this
tag. The link replays of R153 on its way are a free count (log entry 36). -/
def messageArrival (c : Chip) (src dst tag : Nat) : Chip :=
  let k := coreAt c src
  match k.inFlight.find? (fun e => e.1.dst = dst) with
  | none => c
  | some e =>
    if e.1.tag ≠ tag ∨ isUp c .grid = false then c
    else
      let (v, c1) := takeFree c
      let c2 := bump c1 aGRID_MESH_RETRY v
      let c3 := setCore c2 src { k with inFlight := dropFirst (fun x => decide (x = e)) k.inFlight }
      pumpCore (deliver c3 dst tag e.2) src

/-- MESSAGE_ARRIVAL. -/
def execMessageArrival (src dst : CoreId) (tag : BitVec 4) (s : State) : Host.Outcome State Fault Refusal :=
  act s (fun c => whenAwake c (fun c => messageArrival c src.toNat dst.toNat tag.toNat))

/-! ### Copy descriptors (R158-R161) -/

/-- A 64-bit value at a parameter word pair. -/
def paramPair (k : Core) (p : Nat) : Nat := coreLE k (4 * p) 8

/-- Shape of a sealed block from its stored header (R96): codec, slot, layer shape. -/
def blockShape (l : List Byte) : Bool × Nat × LayerShape :=
  (nbit (rdLE l 2 1) 0, rdLE l 4 1, { layer := rdLE l 3 1, heads := rdLE l 5 1, dim := rdLE l 6 2 })

/-- The shape of a block whose header may fail HDR_CRC: then as a session that refers to it has it (R97, R99). -/
def shapeOfBlock (c : Chip) (b : Nat) : Bool × Nat × LayerShape :=
  let stored := blockShape (blockBytes c b)
  if hdrOk (blockBytes c b) then stored
  else
    (c.sess.bodies.findSome? (fun e => (e.2.blocks.find? (fun x => x.2 = b)).bind (fun x =>
      let slot := (entry c e.1).model
      ((shapes c slot)[x.1 % max 1 (attnLayers c slot)]?).map (fun s => ((entry c e.1).dense, slot, s))))).getD stored

/-- The session and layer whose tail is at an address (R93, R158). -/
def tailAt (c : Chip) (a : Nat) : Option (Nat × LayerShape) :=
  c.sess.entries.findSome? (fun e =>
    if e.2.state = .free ∨ e.2.tailBase = 0 then none
    else ((shapes c e.2.model).find? (fun s => e.2.tailBase + tailOff c e.2.model s.layer = a)).map (fun s => (e.1, s)))

/-- The parts that a PART field selects: 0 keys, 1 values. -/
def partsOf (p : Nat) : List Nat := if p = 1 then [0] else if p = 2 then [1] else [0, 1]

/-- Output bytes of one head part of `n` positions (R159): in slices of 64 positions for keys under KEY_T. -/
def partBytes (keyT fp32 : Bool) (part dim n : Nat) : Nat :=
  (if keyT ∧ part = 0 then roundUp n 64 else n) * dim * (if fp32 then 4 else 2)

/-- Output bytes of a BLOCK or TAIL descriptor. -/
def outSize (d : Desc) (dim n : Nat) : Nat :=
  (d.len / 2 ^ 16) * ((partsOf d.part).map (fun p => partBytes d.keyT d.outFp32 p dim n)).sum

/-- The core's partition holds the GDDR7 channels of a range (R154): checked while each channel group is one
partition's (GDR MODE 1, R110). -/
def rimOk (c : Chip) (n a len : Nat) : Bool :=
  let res := fld (regB c (corePart c n) aSEC_PART_RES) 15 8
  !bit (reg c aGDR_INTERLEAVE) 0 ||
    (List.range ((a + len - 1) / 2 ^ 35 + 1 - a / 2 ^ 35)).all (fun i => nbit res (a / 2 ^ 35 + i))

/-- `rimOk` of every row of a strided read. -/
def rimRows (c : Chip) (n : Nat) (d : Desc) : Bool :=
  !bit (reg c aGDR_INTERLEAVE) 0 || (List.range d.rows).all (fun r => rimOk c n (d.src + r * d.stride) d.len)

/-- GDDR7 bytes of rows. -/
def rowsSpan (d : Desc) : Nat := (d.rows - 1) * d.stride + d.len

/-- A STORE reaches none of what no copy descriptor writes (R161): tails, blocks, ledger and directory. DEDUCED: no window
covers them, so that a STORE there is outside the windows (log entry 111). -/
def storeFree (c : Chip) (a n : Nat) : Bool :=
  !(isUp c .tier && overlaps a n (pair c aTIER_LEDGER_BASE_LO) (32 * ledgerSize c)) &&
    !(isUp c .sess && overlaps a n (dirBase c) (2 ^ 29)) &&
    c.tier.heap.all (fun x => !overlaps a n x.1 x.2.1 || ((blockOwnerAt c x.1).isNone && (stateOwner c x.1).isNone))

/-- A range lies inside one of the four STORE windows (R142, R161). -/
def inWindow (k : Core) (a n : Nat) : Bool :=
  [0, 1, 2, 3].any (fun w =>
    let b := 4096 * coreLE k (0x30 + 8 * w) 4
    let l := 4096 * coreLE k (0x34 + 8 * w) 4
    b ≤ a && a + n ≤ b + l)

/-- The fields of a descriptor that the table gives a range (R158). -/
def descFieldsOk (l : List Byte) : Bool :=
  let kind := rdLE l 0 1
  let flags := rdLE l 1 1
  let param := rdLE l 2 2
  let len := rdLE l 4 4
  let rows := rdLE l 0x1C 2
  let str := rdLE l 0x18 4
  1 ≤ kind && kind ≤ 5 && flags < 64 && flags / 8 % 4 < 3 && param ≤ 1022 && param % 2 = 0 && rdLE l 0x1E 2 = 0 &&
    (if kind ≤ 3 then 64 ≤ len && len ≤ 1048576 && len % 64 = 0 && 1 ≤ rows
     else if kind = 4 then 1 ≤ len / 2 ^ 16
     else 1 ≤ len / 2 ^ 16 && str ≤ 127 && 1 ≤ rows && str + rows ≤ 128)

/-- A descriptor as its fields give it, with SRC and DST taken from parameter words where its flags say so. -/
def descRead (k : Core) (l : List Byte) : Desc :=
  let flags := rdLE l 1 1
  let param := rdLE l 2 2
  { kind := rdLE l 0 1, size := 0, outFp32 := nbit flags 2, part := flags / 8 % 4, keyT := nbit flags 5,
    len := rdLE l 4 4,
    src := if nbit flags 0 then paramPair k param else rdLE l 8 8,
    dst := if nbit flags 1 then paramPair k param else rdLE l 0x10 8,
    stride := rdLE l 0x18 4, rows := rdLE l 0x1C 2 }

/-- The error of a core-store destination of a descriptor. -/
def destErr (d : Desc) : Option Nat := if storeSize ≤ d.dst then some 0x01 else operandErr d.dst d.size

/-- A descriptor with its size, or the program error that it is (R147, R158-R161). -/
def descCheck (c : Chip) (n : Nat) (k : Core) (l : List Byte) : Except Nat Desc :=
  if descFieldsOk l = false then .error 0x05
  else
    let d0 := descRead k l
    let fail := fun (e : Option Nat) (d : Desc) =>
      match e with
      | some x => Except.error x
      | none => Except.ok d
    if d0.kind = 1 then
      let d := { d0 with size := d0.len * d0.rows }
      if gddrSize < d.src + rowsSpan d then .error 0x05
      else if rimRows c n d = false then .error 0x09
      else fail (destErr d) d
    else if d0.kind = 2 then
      let d := { d0 with size := d0.len * d0.rows }
      if inWindow k d.dst d.size = false ∨ storeFree c d.dst d.size = false then .error 0x06
      else if rimOk c n d.dst d.size = false then .error 0x09
      else fail (operandErr d.src (rowsSpan d)) d
    else if d0.kind = 3 then
      let d := { d0 with size := d0.len * d0.rows, dst := d0.dst % 2 ^ 40 }
      if inGroup k (d.dst / 2 ^ 32) = false then .error 0x04
      else
        match operandErr d.src (rowsSpan d) with
        | some e => .error e
        | none => fail (operandErr (d.dst % 2 ^ 20) d.size) d
    else if d0.kind = 4 then
      let b := d0.src % 2 ^ 32
      match (ledger c b).gddr with
      | none => .error 0x07
      | some a =>
        let (_, _, s) := shapeOfBlock c b
        let d := { d0 with src := b, size := outSize d0 s.dim 128 }
        if s.heads < d.len % 2 ^ 16 + d.len / 2 ^ 16 then .error 0x05
        else if rimOk c n a (ledger c b).size = false then .error 0x09
        else fail (destErr d) d
    else
      match tailAt c d0.src with
      | none => .error 0x05
      | some (_, s) =>
        let d := { d0 with size := outSize d0 s.dim d0.rows }
        if s.heads < d.len % 2 ^ 16 + d.len / 2 ^ 16 then .error 0x05
        else if rimOk c n d.src (128 * rowBytes s) = false then .error 0x09
        else fail (destErr d) d

/-- The descriptors of a list, or the first program error. -/
def descsCheck (c : Chip) (n : Nat) (k : Core) : List (List Byte) → Except Nat (List Desc)
  | [] => .ok []
  | l :: r =>
    match descCheck c n k l with
    | .error e => .error e
    | .ok d =>
      match descsCheck c n k r with
      | .error e => .error e
      | .ok ds => .ok (d :: ds)

/-- The output pieces of a BLOCK or TAIL descriptor: offset and bytes (R159). `elem` gives the FP32 element of a
part, head, position and channel. -/
def outPieces (d : Desc) (dim n : Nat) (elem : Nat → Nat → Nat → Nat → Word) : List (Nat × List Byte) :=
  let eb := if d.outFp32 then 4 else 2
  let put := fun (w : Word) => if d.outFp32 then leBytes 4 w.toNat else leBytes 2 (bf16Of w)
  let first := d.len % 2 ^ 16
  let ps := partsOf d.part
  let headBytes := (ps.map (fun p => partBytes d.keyT d.outFp32 p dim n)).sum
  (List.range (d.len / 2 ^ 16)).flatMap (fun h => ps.flatMap (fun p =>
    let base := h * headBytes + (if p = 1 ∧ ps.length = 2 then partBytes d.keyT d.outFp32 0 dim n else 0)
    if d.keyT ∧ p = 0 then
      (List.range (n / 64 + b2n (decide (n % 64 ≠ 0)))).flatMap (fun sl =>
        (List.range dim).map (fun ch =>
          (base + (sl * dim + ch) * 64 * eb,
           (List.range (min 64 (n - 64 * sl))).flatMap (fun i => put (elem p (first + h) (64 * sl + i) ch)))))
    else
      (List.range n).map (fun q =>
        (base + q * dim * eb, (List.range dim).flatMap (fun ch => put (elem p (first + h) q ch))))))

/-- Writes output pieces, or zeros over the whole destination when the read met an uncorrectable burst
(R160). -/
def putPieces (c : Chip) (n : Nat) (d : Desc) (bad : Bool) (l : List (Nat × List Byte)) : Chip :=
  let k := coreAt c n
  if bad then setCore c n (coreWrite k d.dst (List.replicate d.size 0))
  else setCore c n (l.foldl (fun k e => coreWrite k (d.dst + e.1) e.2) k)

/-- The sessions of every running step whose data an uncorrectable read touched: their figures abort
(R160). -/
def markBad (c : Chip) (idxs : List Nat) : Chip :=
  let f := fun (w : Work) => if w.idx ∈ idxs then { w with bad := true } else w
  { c with sched := { c.sched with
      parts := c.sched.parts.map (fun p => (p.1, { p.2 with
        step := p.2.step.map (fun s => { s with
          engines := s.engines.map (fun e => { e with works := e.works.map f }) }) })) } }

/-- The data of a BLOCK descriptor (R159, R160, R112): a MIRRORED block is read again from flash; a block whose
header fails its CRC reads as uncorrectable (R97). -/
def copyBlock (c : Chip) (n : Nat) (d : Desc) (res : EccResult) : Chip :=
  let a := (ledger c d.src).gddr.getD 0
  let users := (c.sess.bodies.filter (fun e => e.2.blocks.any (fun x => x.2 = d.src))).map (·.1)
  let c2 := checkCopies (readBurst c 0x06 0x07 a res) [d.src]
  let l := blockBytes c2 d.src
  let (dense, slot, s) := blockShape l
  if (ledger c2 d.src).gddr.isNone ∨ hdrOk l = false ∨ s.dim ≠ (shapeOfBlock c d.src).2.2.dim then
    putPieces (markBad c2 users) n d true []
  else
    let decoded := (partsOf d.part).flatMap (fun p => (List.range (d.len / 2 ^ 16)).map (fun h =>
      ((p, d.len % 2 ^ 16 + h), decodedPart dense (smoothing c slot) s 128 (l.drop 64) p (d.len % 2 ^ 16 + h))))
    let elem := fun p h q ch =>
      (((decoded.find? (fun x => decide (x.1 = (p, h)))).map (·.2)).getD []).getD (q * s.dim + ch) 0
    putPieces c2 n d false (outPieces d s.dim 128 elem)

/-- The data of a TAIL descriptor (R159, R160). -/
def copyTail (c : Chip) (n : Nat) (d : Desc) (res : EccResult) : Chip :=
  match tailAt c d.src with
  | none => c
  | some (i, s) =>
    let rows := (tailRows c i s (d.stride + d.rows)).drop d.stride
    let c1 := readBurst c 0x06 0x07 d.src res
    if burstLost res then putPieces (markBad c1 [i]) n d true []
    else putPieces c1 n d false (outPieces d s.dim d.rows (fun p h q ch => rowElem s rows p h (q * s.dim + ch)))

/-- A lost read at an address is masked by a reload: that of a weight working copy whose master is readable (R112). -/
def reloaded (c : Chip) (a : Nat) : Bool :=
  match placeOf c a with
  | .weight _ _ m => (flashObj c m).isSome
  | .directory _ => false
  | .vital => false
  | .block k => decide ((ledger c k).state = .mirrored)
  | .state _ => false
  | .other => false

/-- The data of a LOAD descriptor: what a lost read that nothing masks leaves in the core store is open (log entry 3). -/
def copyLoad (c : Chip) (n : Nat) (d : Desc) (res : EccResult) : Chip :=
  let c1 := readBurst c 0x06 0x07 d.src res
  let data := (List.range d.rows).flatMap (fun r => memRead c1.mem (d.src + r * d.stride) d.len)
  let open_ := (List.range d.size).map (fun i => Config.coreFill (c1.free + 1) i)
  if burstLost res ∧ reloaded c d.src = false then
    setCore { c1 with free := c1.free + 1 } n (coreWrite (coreAt c1 n) d.dst open_)
  else setCore c1 n (coreWrite (coreAt c1 n) d.dst data)

/-- Carries out one descriptor of a plan (R158); `res` is what its GDDR7 read met. -/
def copyOne (c : Chip) (n : Nat) (d : Desc) (res : EccResult) : Chip :=
  let k := coreAt c n
  if d.kind = 1 then copyLoad c n d res
  else if d.kind = 2 then
    putMem c d.dst ((List.range d.rows).flatMap (fun r => coreRead k (d.src + r * d.stride) d.len))
  else if d.kind = 3 then
    let m := d.dst / 2 ^ 32
    setCore c m (coreWrite (coreAt c m) (d.dst % 2 ^ 20)
      ((List.range d.rows).flatMap (fun r => coreRead k (d.src + r * d.stride) d.len)))
  else if d.kind = 4 then copyBlock c n d res
  else copyTail c n d res

/-- COPY_PLAN_DONE (R158): every descriptor of a plan has completed; CWAIT and FENCE end. `met` gives what the reads of
descriptors met, by index, a clean read where it names none; `replays` counts the flits that links replayed (R153). The
pages of a descriptor stay busy until then, since no row ends one descriptor (log entry 112). -/
def copyPlanDone (c : Chip) (n plan : Nat) (met : List (Nat × EccResult)) (replays : Nat) : Chip :=
  match tfind (coreAt c n).plans plan with
  | none => c
  | some ds =>
    let c1 := (numbered ds).foldl (fun c e =>
      copyOne c n e.2 (((met.find? (fun m => m.1 = e.1)).map (·.2)).getD .clean)) (bump c aGRID_MESH_RETRY replays)
    wakeCore (setCore c1 n { coreAt c1 n with plans := tdel (coreAt c1 n).plans plan }) n

/-- COPY_PLAN_DONE. -/
def execCopyPlanDone (core : CoreId) (plan : BitVec 2) (met : List (Nat × EccResult)) (replays : Nat) (s : State) :
    Host.Outcome State Fault Refusal :=
  act s (fun c => whenAwake c (fun c =>
    if isUp c .grid then copyPlanDone c core.toNat plan.toNat met replays else c))

/-! ### The state table of a core (R163-R168) -/

/-- Takes a core to TESTING. -/
def startTest (c : Chip) (n : Nat) : Chip :=
  let k := coreAt c n
  setCore c n { k with state := .testing, before := if k.state = .testing then k.before else k.state }

/-- Cores in DRAINING or TESTING for test requests (R167). -/
def testsRunning (c : Chip) : Nat :=
  (c.grid.cores.filter (fun e => e.2.requested && decide (e.2.state = .draining ∨ e.2.state = .testing))).length

/-- Starts the test requests that wait, in order, while fewer than 16 cores are in test, with fuel. A request for a core
that is DRAINING waits until its placement has ended. -/
def pumpTests : Nat → Chip → Chip
  | 0, c => c
  | f + 1, c =>
    match c.grid.tests.find? (fun n => decide ((coreAt c n).state ≠ .draining)) with
    | none => c
    | some n =>
      if 16 ≤ testsRunning c then c
      else
        let c1 := { c with grid := { c.grid with tests := c.grid.tests.erase n } }
        let k := coreAt c1 n
        let c2 :=
          if k.state = .free ∨ k.state = .lame ∨ k.state = .faulted then
            startTest (setCore c1 n { k with requested := true }) n
          else if k.state = .busy then setCore c1 n { k with state := .draining, requested := true, wantOff := false }
          else c1
        pumpTests f c2

/-- `pumpTests` over the whole queue. -/
def runTests (c : Chip) : Chip := pumpTests c.grid.tests.length c

/-- Requests a self-test of a core; a request for a core that waits already is merged (R167). -/
def requestTest (c : Chip) (n : Nat) : Chip :=
  if n ∈ c.grid.tests then c
  else runTests { c with grid := { c.grid with tests := c.grid.tests ++ [n] } }

/-- CORE_CTRL (R165, R170): the chip, or none where the state has no row for the bit. Bits 0 TEST, 1 OFFLINE,
2 ONLINE. -/
def coreCtrl (c : Chip) (n : Nat) (w : Word) : Option Chip :=
  let k := coreAt c n
  let st := k.state
  if fld w 2 0 = 4 then (if st = .off then some (startTest c n) else none)
  else if fld w 2 0 = 2 then
    (if st = .free ∨ st = .lame then some (setCore c n { k with state := .off })
     else if st = .busy then some (setCore c n { k with state := .draining, wantOff := true })
     else none)
  else if fld w 2 0 = 1 then
    (if st = .free ∨ st = .lame ∨ st = .faulted ∨ st = .busy then some (requestTest c n) else none)
  else if fld w 2 0 = 0 then some c
  else none

/-- The median of a full window of 1,024 latencies; 0 before (R163). The two middle samples are halved down
(log entry 37). -/
def medianOf (l : List Nat) : Nat :=
  if l.length < 1024 then 0
  else
    let s := sortBy id l
    (s.getD 511 0 + s.getD 512 0) / 2

/-- Median of a list of any length. -/
def midOf (l : List Nat) : Nat :=
  let s := sortBy id l
  if l.isEmpty then 0 else (s.getD ((l.length - 1) / 2) 0 + s.getD (l.length / 2) 0) / 2

/-- GRID_MEDIAN (R163). -/
def gridMedian (c : Chip) : Nat :=
  midOf ((c.grid.cores.filter (fun e => decide (e.2.state = .free ∨ e.2.state = .busy) &&
    decide (1024 ≤ e.2.window.length))).map (fun e => medianOf e.2.window))

/-- LAME_CFG.RATIO: below 0x0110 acts as 0x0110 (R170). -/
def lameRatio (c : Chip) : Nat := max 0x0110 (fld (reg c aGRID_LAME_CFG) 31 16)

/-- A core becomes LAME (R164, R165). -/
def becomeLame (c : Chip) (n : Nat) : Chip :=
  let c1 := raise (setCore c n { coreAt c n with state := .lame, lameDue := false }) .grid 16
  if bit (reg c1 aGRID_LAME_CFG) 1 then requestTest c1 n else c1

/-- LAME_EVAL (R164). -/
def lameEval (c : Chip) : Chip :=
  if isUp c .grid = false ∨ bit (reg c aGRID_LAME_CFG) 0 = false then c
  else
    let gm := gridMedian c
    (List.range 256).foldl (fun c n =>
      let k := coreAt c n
      if (k.state = .free ∨ k.state = .busy) ∧ lameRatio c * gm < medianOf k.window * 256 then
        (if k.state = .free then becomeLame c n else setCore c n { k with lameDue := true })
      else c) c

/-- LAME_EVAL. -/
def execLameEval (s : State) : Host.Outcome State Fault Refusal := act s (fun c => whenAwake c lameEval)

/-- A latency sample in 8.8 (R163): core cycles over NOMINAL_CYCLES of the program that PROG_ID names; open where
the running bundle holds no such program. -/
def addSample (c : Chip) (n cycles : Nat) : Chip :=
  let k := coreAt c n
  let (v, c1) := match progOf c (coreLE k 0x08 2) with
    | some p => (if p.nominal = 0 then 0xFFFF else min 0xFFFF (cycles * 256 / p.nominal), c)
    | none => let (v, c1) := takeFree c; (v % 65536, c1)
  setCore c1 n { coreAt c1 n with window := (k.window ++ [v]).drop (k.window.length + 1 - 1024) }

/-- The trace of R471: one 16 B record for each placement on the traced partition's rows, written as a ring in the
registration of TRACE_TAG, or counted in TRACE_DROP while it is not ACTIVE. The stall count is measured: free. -/
def traceRecord (c : Chip) (n cycles : Nat) : Chip :=
  if c.sec.tracing ≠ some (corePart c n) then c
  else
    let tag := reg c aTEL_TRACE_TAG
    let r := region c (tag.toNat / 256)
    if r.state ≠ .active ∨ r.gen ≠ tag.toNat % 256 ∨ r.len < 16 then bump c aTEL_TRACE_DROP 1
    else
      let k := coreAt c n
      let (v, c1) := takeFree c
      let rec_ := coreRead k 0 4 ++ [BitVec.ofNat 8 n] ++ coreRead k 0x0D 1 ++ coreRead k 0x08 2 ++
        leBytes 4 cycles ++ leBytes 4 v
      { c1 with
        mem := memWrite c1.mem (r.base + c1.sec.tracePos % (r.len / 16) * 16) rec_
        sec := { c1.sec with tracePos := c1.sec.tracePos + 1 } }

/-- PLACEMENT_DONE (R146, R165): the program has ended and every SEND, PUT and STORE is acknowledged. -/
def placementDone (c : Chip) (n cycles : Nat) : Chip :=
  let k := coreAt c n
  if k.halted = false ∨ drained k = false ∨ isUp c .grid = false ∨ c.flt.chipPending then c
  else if k.state = .busy then
    let c1 := traceRecord (addSample c n cycles) n cycles
    let k1 := coreAt c1 n
    if k1.lameDue then becomeLame (setCore c1 n { k1 with halted := false }) n
    else setCore c1 n { k1 with state := .free, halted := false }
  else if k.state = .draining then
    let c1 := traceRecord (addSample c n cycles) n cycles
    let k1 := { coreAt c1 n with halted := false, lameDue := false }
    if k1.wantOff then runTests (setCore c1 n { k1 with state := .off, wantOff := false })
    else setCore c1 n { k1 with state := .testing, before := .free }
  else c

/-- WATCHDOG_EXPIRY (R148): a placement that is not done. -/
def execWatchdogExpiry (core : CoreId) (s : State) : Host.Outcome State Fault Refusal :=
  act s (fun c => whenAwake c (fun c =>
    let k := coreAt c core.toNat
    if (k.state = .busy ∨ k.state = .draining) ∧ isUp c .grid then progError c core.toNat 0x08 else c))

/-- ROTATE_TEST (R167): the next core of the rotation. -/
def rotateTest (c : Chip) : Chip :=
  if isUp c .grid = false then c
  else
    let n := c.grid.rotateNext
    let c1 := requestTest { c with grid := { c.grid with rotateNext := (n + 1) % 256 } } n
    if n = 255 then raise c1 .grid 21 else c1

/-- ROTATE_TEST. -/
def execRotateTest (s : State) : Host.Outcome State Fault Refusal := act s (fun c => whenAwake c rotateTest)

/-- A core's self-test ends (R165, R166): the store is left as the test's marches left it, which is open (log entry
32). -/
def coreTested (c : Chip) (n : Nat) (res : TestResult) : Chip :=
  let k1 := { coreAt c n with store := [], fill := c.free + 1, paramFill := 0, requested := false }
  let c0 := { c with free := c.free + 1 }
  let c1 := match res with
    | .pass => setCore c0 n { k1 with state := .free, stFail := false, window := [] }
    | .slow => raise (setCore c0 n { k1 with state := .lame, stFail := false }) .grid 16
    | .fail => fault (raise (setCore c0 n { k1 with state := .faulted, stFail := true }) .grid 17) 0x18 .grid n 0 false
  raise c1 .grid 20

/-- CORE_TEST_END: a test that a drain of GRID overtakes completes (R171). -/
def coreTestEnd (c : Chip) (n : Nat) (res : TestResult) : Chip :=
  if (coreAt c n).state ≠ .testing ∨ bstate c .grid = .off ∨ bstate c .grid = .testing ∨ bstate c .grid = .fault then c
  else runTests (coreTested c n res)

/-- GRID's block self-test takes every core to TESTING (R171). -/
def gridTesting (c : Chip) : Chip := (List.range 256).foldl startTest c

/-- The result of one core in GRID's block self-test: a core that was OFF goes back to OFF. Which core failed, and which
is slow, the row does not say: free values (log entry 113). -/
def gridTestedCore (pass : Bool) (c : Chip) (n : Nat) : Chip :=
  let (v, c1) := takeFree c
  let res : TestResult := if pass = false ∧ v % 3 = 2 then .fail else if v % 3 = 1 then .slow else .pass
  let was := (coreAt c n).before
  let c2 := coreTested c1 n res
  if was = .off then setCore c2 n { coreAt c2 n with state := .off } else c2

/-- GRID's block self-test ends (R171). -/
def gridTested (c : Chip) (pass : Bool) : Chip := (List.range 256).foldl (gridTestedCore pass) c

/-- A double error in a core store (R165, R475): a core that runs a placement is a step fault and is tested; a
FREE, LAME or TESTING core is tested. -/
def storeDouble (c : Chip) (n : Nat) : Chip :=
  let st := (coreAt c n).state
  if st = .busy ∨ st = .draining then requestTest (fault c 0x04 .grid n 0 true) n
  else if st = .free ∨ st = .lame ∨ st = .testing then startTest (fault c 0x04 .grid n 0 false) n
  else fault c 0x04 .grid n 0 false

/-- A program store that needs reloading and cannot be reloaded takes its core to TESTING (R165). -/
def reloadFailed (c : Chip) (n : Nat) : Chip :=
  let st := (coreAt c n).state
  if st = .free ∨ st = .lame ∨ st = .testing then startTest c n else c

/-- CORE_STORE_SCRUB (R168): single errors are corrected and counted. -/
def coreStoreScrub (c : Chip) (n single : Nat) (double reloadFails : Bool) : Chip :=
  let c1 := if single = 0 then c
    else bumpB (fault (bump c aGRID_STORE_CE single) 0x03 .grid n 0 false) 3 aFLT_CLASS_CNT (single - 1)
  let c2 := if double then storeDouble c1 n else c1
  if reloadFails then reloadFailed c2 n else c2

/-- CORE_STORE_SCRUB. -/
def execCoreStoreScrub (core : CoreId) (single : Nat) (double reloadFails : Bool) (s : State) :
    Host.Outcome State Fault Refusal :=
  act s (fun c => whenAwake c (fun c => coreStoreScrub c core.toNat single double reloadFails))

/-- LOCKSTEP_DISAGREE (R168): a step control fault, and a test of the core. -/
def execLockstepDisagree (core : CoreId) (s : State) : Host.Outcome State Fault Refusal :=
  act s (fun c => whenAwake c (fun c =>
    let st := (coreAt c core.toNat).state
    if st = .busy ∨ st = .draining then requestTest (fault c 0x01 .grid core.toNat 0 false) core.toNat else c))

/-- MESH_LINK_FAIL (R153): 16 replays, then the link fails. -/
def execMeshLinkFail (core : CoreId) (s : State) : Host.Outcome State Fault Refusal :=
  act s (fun c => whenAwake c (fun c =>
    fault (raise (bump c aGRID_MESH_RETRY 16) .grid 19) 0x05 .grid core.toNat 0 true))

/-- FAULT_REPORT (R480). FLT is powered by the auxiliary supply. A lockstep, residue or core-store report of a
core that runs a placement queues its test (R165). -/
def faultReport (c : Chip) (f : FaultRep) : Chip :=
  let c1 := report c f
  let n := f.info.toNat % 256
  let st := (coreAt c n).state
  if f.page = .grid ∧ (f.cls = 0x01 ∨ f.cls = 0x02 ∨ f.cls = 0x04) ∧ (st = .busy ∨ st = .draining) then
    requestTest c1 n
  else c1

/-- FAULT_REPORT. -/
def execFaultReport (f : FaultRep) (s : State) : Host.Outcome State Fault Refusal :=
  act s (fun c => if minuetOn c then faultReport c f else c)

/-! ### Placement (R144, R146, R230) -/

/-- Bytes of code of a program of the library (R144); a program that the library does not hold counts none. -/
def codeBytes (c : Chip) (id : Nat) : Nat := 8 * ((progOf c id).map (·.codeLen)).getD 0

/-- The resident programs, least recently used first, without those that a program store of 8 programs and 64 KiB of code
must replace (R140, R144). -/
def fitPrograms (c : Chip) : List Nat → List Nat
  | [] => []
  | p :: r =>
    if r.length < 8 ∧ ((p :: r).map (codeBytes c)).sum ≤ 65536 then p :: r else fitPrograms c r

/-- The parameter block (R142) and the release of one placement: FREE to BUSY, program resident, issue from its
first instruction. `block` is the header's first 48 bytes; the STORE windows and the words beyond the header are
the program's, which the manual does not give: they are open. `owner` is the engine that it serves. -/
def placeCore (c : Chip) (n owner : Nat) (block : List Byte) (prog : Nat) : Chip :=
  let k := coreAt c n
  if k.state ≠ .free then c
  else
    let bare := { k with
      programs := fitPrograms c ((k.programs.filter (· ≠ prog)) ++ [prog])
      store := k.store.filter (fun e => 0x1000 ≤ e.1)
      paramFill := c.free + 1 }
    let k1 := coreWrite (coreWrite bare 0 block) 0x50 (List.replicate 16 0)
    stopMarking (setCore { c with free := c.free + 1 } n { k1 with
      state := .busy, before := .free, owner := owner, pc := 0, loops := [], wait := none, halted := false, posts := [],
      sendQ := [], inFlight := [], credits := [], plans := [] }) n

/-- GRID goes ON: every OFF core is tested (R165). -/
def gridOn (c : Chip) : Chip :=
  (List.range 256).foldl (fun c n => if (coreAt c n).state = .off then startTest c n else c) c

end Sys2Proof.Machine
end

