-- ==== Sys2Proof/Machine/Oper.lean ====
section
/-! DEFINITION. The step operations (R149-R158, R172-R179): one meaning for each operation of the table of
R150. -/

namespace Sys2Proof.Machine

/-! ### Scalar and control operations -/

/-- The form of a step operation: it issues on its core while the fast domain runs. -/
def onCore (s : State) (core : CoreId) (f : Chip → Core → IRes) (post : Chip → Chip) :
    Host.Outcome State Fault Refusal :=
  act s (fun c => whenAwake c (fun c => issue c core.toNat (f c) post))

/-- A scalar operation that changes its core alone. -/
def scalarStep (s : State) (core : CoreId) (g : Guard) (f : Core → Core) : Host.Outcome State Fault Refusal :=
  onCore s core (fun _ => scalarOp g (fun k => .next (advance (f k)))) id

/-- Second operand of the scalar arithmetic (R150): S[C] + IMM. -/
def srcC (k : Core) (c : Reg) (imm : Word) : Word := sget k c + imm

/-- A scalar arithmetic operation S[A] = S[B] op (S[C] + IMM) (R150). -/
def scalarArith (s : State) (core : CoreId) (g : Guard) (a b c : Reg) (imm : Word) (op : Word → Word → Word) :
    Host.Outcome State Fault Refusal :=
  scalarStep s core g (fun k => sset k a (op (sget k b) (srcC k c imm)))

/-- NOP. -/
def execNop (core : CoreId) (g : Guard) (s : State) : Host.Outcome State Fault Refusal :=
  scalarStep s core g id

/-- HALT: the program ends (R146). -/
def execHalt (core : CoreId) (g : Guard) (s : State) : Host.Outcome State Fault Refusal :=
  onCore s core (fun _ => scalarOp g (fun k => .next { k with halted := true })) id

/-- Enters a loop of `len` instructions run `count` times; a count of 0 skips the body (R150). -/
def enterLoop (k : Core) (len count : Nat) : Core :=
  if count = 0 ∨ len = 0 then goTo k (k.pc + 1 + len)
  else { k with pc := k.pc + 1, loops := { start := k.pc + 1, len := len, count := count, index := 0 } :: k.loops }

/-- LOOP: S[A] bits 15:0 times (R150, R151). -/
def execLoop (core : CoreId) (g : Guard) (a : Reg) (len : Word) (s : State) : Host.Outcome State Fault Refusal :=
  onCore s core (fun _ => scalarOp g (fun k => .next (enterLoop k len.toNat ((sget k a).toNat % 65536)))) id

/-- SKIP. -/
def execSkip (core : CoreId) (g : Guard) (n : Word) (s : State) : Host.Outcome State Fault Refusal :=
  onCore s core (fun _ => scalarOp g (fun k => .next (goTo k (k.pc + 1 + n.toNat)))) id

/-- BAR (R157). -/
def execBar (core : CoreId) (g : Guard) (b : BitVec 2) (s : State) : Host.Outcome State Fault Refusal :=
  onCore s core (fun _ => scalarOp g (fun k => .next { k with wait := some (.bar b.toNat) }))
    (fun c => if (coreAt c core.toNat).wait = some (.bar b.toNat) then releaseBarrier c core.toNat b.toNat else c)

/-- FENCE (R156). -/
def execFence (core : CoreId) (g : Guard) (s : State) : Host.Outcome State Fault Refusal :=
  onCore s core (fun _ => scalarOp g (fun k => .next { k with wait := some .fence }))
    (fun c => wakeCore c core.toNat)

/-- SMOVI. -/
def execSmovi (core : CoreId) (g : Guard) (a : Reg) (imm : Word) (s : State) : Host.Outcome State Fault Refusal :=
  scalarStep s core g (fun k => sset k a imm)

/-- SADD. -/
def execSadd (core : CoreId) (g : Guard) (a b c : Reg) (imm : Word) (s : State) : Host.Outcome State Fault Refusal :=
  scalarArith s core g a b c imm (fun x y => x + y)

/-- SSUB. -/
def execSsub (core : CoreId) (g : Guard) (a b c : Reg) (imm : Word) (s : State) : Host.Outcome State Fault Refusal :=
  scalarArith s core g a b c imm (fun x y => x - y)

/-- SMUL: the low 32 bits. -/
def execSmul (core : CoreId) (g : Guard) (a b c : Reg) (imm : Word) (s : State) : Host.Outcome State Fault Refusal :=
  scalarArith s core g a b c imm (fun x y => x * y)

/-- SAND. -/
def execSand (core : CoreId) (g : Guard) (a b c : Reg) (imm : Word) (s : State) : Host.Outcome State Fault Refusal :=
  scalarArith s core g a b c imm (fun x y => x &&& y)

/-- SOR. -/
def execSor (core : CoreId) (g : Guard) (a b c : Reg) (imm : Word) (s : State) : Host.Outcome State Fault Refusal :=
  scalarArith s core g a b c imm (fun x y => x ||| y)

/-- SXOR. -/
def execSxor (core : CoreId) (g : Guard) (a b c : Reg) (imm : Word) (s : State) : Host.Outcome State Fault Refusal :=
  scalarArith s core g a b c imm (fun x y => x ^^^ y)

/-- SSHL: by bits 4:0. -/
def execSshl (core : CoreId) (g : Guard) (a b c : Reg) (imm : Word) (s : State) : Host.Outcome State Fault Refusal :=
  scalarArith s core g a b c imm (fun x y => x <<< (y.toNat % 32))

/-- SSHR: logical, by bits 4:0. -/
def execSshr (core : CoreId) (g : Guard) (a b c : Reg) (imm : Word) (s : State) : Host.Outcome State Fault Refusal :=
  scalarArith s core g a b c imm (fun x y => x >>> (y.toNat % 32))

/-- The comparison of SCMP (R150). -/
def scmpOf (fmt : BitVec 2) (x y : Word) : Bool :=
  if fmt = 0 then x == y
  else if fmt = 1 then x.ult y
  else if fmt = 2 then x.slt y
  else x.sle y

/-- SCMP: every lane of P[A]. -/
def execScmp (core : CoreId) (g : Guard) (p : PReg) (b c : Reg) (fmt : BitVec 2) (s : State) :
    Host.Outcome State Fault Refusal :=
  scalarStep s core g (fun k =>
    pset k p (if scmpOf fmt (sget k b) (sget k c) then BitVec.allOnes 64 else 0))

/-- Core-store address of an operand (R150): S[B] + IMM. -/
def storeAddr (k : Core) (b : Reg) (imm : Word) : Nat := (sget k b + imm).toNat

/-- SLD. -/
def execSld (core : CoreId) (g : Guard) (a b : Reg) (imm : Word) (s : State) : Host.Outcome State Fault Refusal :=
  onCore s core (fun c => scalarOp g (fun k =>
    let x := storeAddr k b imm
    withStore c core.toNat false x 4 (.next (advance (sset k a (w32 (coreLE k x 4))))))) id

/-- SST. -/
def execSst (core : CoreId) (g : Guard) (a b : Reg) (imm : Word) (s : State) : Host.Outcome State Fault Refusal :=
  onCore s core (fun c => scalarOp g (fun k =>
    let x := storeAddr k b imm
    withStore c core.toNat true x 4 (.next (advance (coreWrite k x (leBytes 4 (sget k a).toNat)))))) id

/-- SPAR: a parameter word (R142, R150). -/
def execSpar (core : CoreId) (g : Guard) (a : Reg) (imm : Word) (s : State) : Host.Outcome State Fault Refusal :=
  onCore s core (fun c => scalarOp g (fun k =>
    let x := 4 * imm.toNat
    withStore c core.toNat false x 4 (.next (advance (sset k a (w32 (coreLE k x 4))))))) id

/-- The iteration index of an enclosing loop by depth, the outermost at 0 (log entry 38); open where there is no
such loop. -/
def loopIndex (c : Chip) (k : Core) (depth : Nat) : Word :=
  match k.loops.reverse[depth]? with
  | some l => w32 l.index
  | none => w32 (Config.free c.free).toNat

/-- SIDX. -/
def execSidx (core : CoreId) (g : Guard) (a : Reg) (depth : BitVec 2) (s : State) :
    Host.Outcome State Fault Refusal :=
  onCore s core (fun c => scalarOp g (fun k => .next (advance (sset k a (loopIndex c k depth.toNat)))))
    (fun c => { c with free := c.free + 1 })

/-! ### Vector operations (R177-R179) -/

/-- A vector operation that gives every lane of V[A] (R149). -/
def vectorStep (s : State) (core : CoreId) (g : Guard) (a : Reg) (f : Core → List Word) :
    Host.Outcome State Fault Refusal :=
  onCore s core (fun _ k => .next (advance (vsetMasked k g a (f k)))) id

/-- A lane-wise operation on V[B] and V[C]. -/
def lanes2 (s : State) (core : CoreId) (g : Guard) (a b c : Reg) (op : Word → Word → Word) :
    Host.Outcome State Fault Refusal :=
  vectorStep s core g a (fun k => List.zipWith op (vget k b) (vget k c))

/-- A lane-wise operation on V[B]. -/
def lanes1 (s : State) (core : CoreId) (g : Guard) (a b : Reg) (op : Word → Word) :
    Host.Outcome State Fault Refusal :=
  vectorStep s core g a (fun k => (vget k b).map op)

/-- The 64 elements of a format at a core-store address, widened (R150, R177). -/
def loadLanes (k : Core) (x fmt : Nat) : List Word :=
  (List.range 64).map (fun i => widen fmt (coreLE k (x + i * elemBytes fmt) (elemBytes fmt)))

/-- VLD. -/
def execVld (core : CoreId) (g : Guard) (a b : Reg) (fmt : BitVec 2) (imm : Word) (s : State) :
    Host.Outcome State Fault Refusal :=
  onCore s core (fun c k =>
    let x := storeAddr k b imm
    withStore c core.toNat false x (64 * elemBytes fmt.toNat)
      (.next (advance (vsetMasked k g a (loadLanes k x fmt.toNat))))) id

/-- Stores the enabled lanes of V[A] (R149, R150). -/
def storeLanes (k : Core) (g : Guard) (a : Reg) (x fmt : Nat) : Core :=
  let m := guardMask k g
  let l := vget k a
  (List.range 64).foldl (fun k i =>
    if m.getLsbD i then coreWrite k (x + i * elemBytes fmt) (leBytes (elemBytes fmt) (narrow fmt (l.getD i 0))) else k) k

/-- VST. -/
def execVst (core : CoreId) (g : Guard) (a b : Reg) (fmt : BitVec 2) (imm : Word) (s : State) :
    Host.Outcome State Fault Refusal :=
  onCore s core (fun c k =>
    let x := storeAddr k b imm
    withStore c core.toNat true x (64 * elemBytes fmt.toNat) (.next (advance (storeLanes k g a x fmt.toNat)))) id

/-- VADD. -/
def execVadd (core : CoreId) (g : Guard) (a b c : Reg) (s : State) : Host.Outcome State Fault Refusal :=
  lanes2 s core g a b c fadd

/-- VSUB. -/
def execVsub (core : CoreId) (g : Guard) (a b c : Reg) (s : State) : Host.Outcome State Fault Refusal :=
  lanes2 s core g a b c fsub

/-- VMUL. -/
def execVmul (core : CoreId) (g : Guard) (a b c : Reg) (s : State) : Host.Outcome State Fault Refusal :=
  lanes2 s core g a b c fmul

/-- VFMA: V[A] + V[B] * V[C] with one rounding (R178). -/
def execVfma (core : CoreId) (g : Guard) (a b c : Reg) (s : State) : Host.Outcome State Fault Refusal :=
  vectorStep s core g a (fun k => (List.range 64).map (fun i =>
    ffma ((vget k b).getD i 0) ((vget k c).getD i 0) ((vget k a).getD i 0)))

/-- VMAX. -/
def execVmax (core : CoreId) (g : Guard) (a b c : Reg) (s : State) : Host.Outcome State Fault Refusal :=
  lanes2 s core g a b c fmax

/-- VMIN. -/
def execVmin (core : CoreId) (g : Guard) (a b c : Reg) (s : State) : Host.Outcome State Fault Refusal :=
  lanes2 s core g a b c fmin

/-- VEXP2. -/
def execVexp2 (core : CoreId) (g : Guard) (a b : Reg) (s : State) : Host.Outcome State Fault Refusal :=
  lanes1 s core g a b fexp2

/-- VRCP. -/
def execVrcp (core : CoreId) (g : Guard) (a b : Reg) (s : State) : Host.Outcome State Fault Refusal :=
  lanes1 s core g a b frcp

/-- VRSQ. -/
def execVrsq (core : CoreId) (g : Guard) (a b : Reg) (s : State) : Host.Outcome State Fault Refusal :=
  lanes1 s core g a b frsq

/-- VRED: lane 0 takes the sum or maximum, the others 0. -/
def execVred (core : CoreId) (g : Guard) (a b : Reg) (max : Bool) (s : State) : Host.Outcome State Fault Refusal :=
  vectorStep s core g a (fun k =>
    (if max then vredMax (vget k b) else vredSum (vget k b)) :: List.replicate 63 0)

/-- VBCAST. -/
def execVbcast (core : CoreId) (g : Guard) (a b : Reg) (scalar : Bool) (lane : BitVec 6) (s : State) :
    Host.Outcome State Fault Refusal :=
  vectorStep s core g a (fun k =>
    List.replicate 64 (if scalar then sget k b else (vget k b).getD lane.toNat 0))

/-- VSEL: per lane by the instruction's predicate, which here selects and disables nothing (R150). -/
def execVsel (core : CoreId) (g : Guard) (a b c : Reg) (s : State) : Host.Outcome State Fault Refusal :=
  onCore s core (fun _ k =>
    let m := guardMask k g
    .next (advance (vset k a ((List.range 64).map (fun i =>
      if m.getLsbD i then (vget k b).getD i 0 else (vget k c).getD i 0))))) id

/-- VCMP: per lane, under the predicate. -/
def execVcmp (core : CoreId) (g : Guard) (p : PReg) (b c : Reg) (fmt : BitVec 2) (s : State) :
    Host.Outcome State Fault Refusal :=
  onCore s core (fun _ k =>
    let m := guardMask k g
    let r := (List.range 64).foldl (fun (w : BitVec 64) i =>
      if fcmp fmt.toNat ((vget k b).getD i 0) ((vget k c).getD i 0) then w ||| (1 <<< i) else w) 0
    .next (advance (pset k p ((r &&& m) ||| (pget k p &&& ~~~m))))) id

/-- The rotation of lane pairs (R150): each product, sum and difference is rounded (R177; log entry 39). -/
def rotLanes (x c s : List Word) : List Word :=
  (List.range 32).flatMap (fun i =>
    let a := x.getD (2 * i) 0
    let b := x.getD (2 * i + 1) 0
    let co := c.getD i 0
    let si := s.getD i 0
    [fsub (fmul a co) (fmul b si), fadd (fmul a si) (fmul b co)])

/-- VROT. -/
def execVrot (core : CoreId) (g : Guard) (a b c : Reg) (s : State) : Host.Outcome State Fault Refusal :=
  vectorStep s core g a (fun k => rotLanes (vget k a) (vget k b) (vget k c))

/-! ### Matrix operations (R152, R173-R176) -/

/-- A bank's elements: 32 columns of 64 rows. -/
def bankGet (k : Core) (bank : Nat) (i : Nat) : Word := tget 0 k.acc (bank * 2048 + i)

/-- Replaces a bank's elements, and what they are: 0 zeros, 1 floating, 2 integer (R174). -/
def bankSet (k : Core) (bank kind : Nat) (l : List Word) : Core :=
  { k with
      acc := (numbered l).foldl (fun t e => tset 0 t (bank * 2048 + e.1) e.2) k.acc
      accKind := tset 0 k.accKind bank kind }

/-- MZERO: every element +0 (R175). -/
def execMzero (core : CoreId) (g : Guard) (bank : Bool) (s : State) : Host.Outcome State Fault Refusal :=
  scalarStep s core g (fun k => bankSet k (b2n bank) 0 (List.replicate 2048 0))

/-- Bits of an element of an MMA format (R152): 0 E4M3, 1 E5M2, 2 E2M1, 3 BF16, 4 INT8, 5 INT4. -/
def mmaBits (f : Nat) : Nat := if f = 3 then 16 else if f = 2 ∨ f = 5 then 4 else 8

/-- Four-bit formats. -/
def four (f : Nat) : Bool := f = 2 || f = 5

/-- Integer formats. -/
def isInt (f : Nat) : Bool := f = 4 || f = 5

/-- The code of an element of an operand: two 4-bit elements to a byte, the even one in bits 3:0 (R173). -/
def mmaCode (k : Core) (f base i : Nat) : Nat :=
  if four f then coreLE k (base + i / 2) 1 / (if i % 2 = 0 then 1 else 16) % 16
  else if f = 3 then coreLE k (base + 2 * i) 2
  else coreLE k (base + i) 1

/-- A floating element; `e` is the exponent byte of an E2M1 block (R172, R173). -/
def mmaFp (f code e : Nat) : Fp :=
  if f = 0 then decodeFp fmtE4m3 code
  else if f = 1 then decodeFp fmtE5m2 code
  else if f = 3 then decodeFp fmtBf16 code
  else if e = 0xFF then .nan
  else .fin (nbit code 3) ([0, 1, 2, 3, 4, 6, 8, 12].getD (code % 8) 0) ((e : Int) - 128)

/-- An integer element. -/
def mmaInt (f code : Nat) : Int :=
  if f = 4 then (if 128 ≤ code then (code : Int) - 256 else code)
  else if 8 ≤ code then (code : Int) - 16 else code

/-- Bytes of the codes of the A operand: K slices of 64 elements at a distance (R152). -/
def aBytes (f kk dist : Nat) : Nat := if kk = 0 then 0 else ((kk - 1) * dist + 64) * mmaBits f / 8

/-- Bytes of the codes of the B operand: dense slices of 32 (R152). -/
def bBytes (f kk : Nat) : Nat := kk * 32 * mmaBits f / 8

/-- Bytes that an operand spans, with its exponent array (R173): two exponents a slice for A, one for B. -/
def operandSpan (f base codes exps : Nat) : Nat :=
  if f = 2 then roundUp (base + codes) 64 + exps - base else codes

/-- The product of two floating elements (R175): exact, but ±infinity above the FP32 range and rounded below
it. -/
def mmaProduct (a b : Fp) : Fp :=
  match fpMul a b with
  | .fin s m e =>
    if m = 0 then .fin s m e
    else if fpLt (.fin false 0xFFFFFF 104) (.fin false m e) then .inf s
    else if (Nat.log2 m : Int) + e < -126 then fpOf (fpTo (.fin s m e))
    else .fin s m e
  | v => v

/-- Adds the products of an element in increasing k, one rounding each (R175); pairs of 4-bit products are first
summed exactly. -/
def accumulate (pairs : Bool) : Nat → Word → List Fp → Word
  | 0, w, _ => w
  | _, w, [] => w
  | f + 1, w, p :: r =>
    match pairs, r with
    | true, q :: r' => accumulate pairs f (fpTo (fpAdd (fpOf w) (fpAdd p q))) r'
    | _, _ => accumulate pairs f (fpTo (fpAdd (fpOf w) p)) r

/-- The bank after an MMA of `kk` slices at a distance (R152, R173-R176). -/
def mmaBank (k : Core) (bank fa fb aBase bBase kk dist : Nat) : List Word :=
  let aExp := roundUp (aBase + aBytes fa kk dist) 64
  let bExp := roundUp (bBase + bBytes fb kk) 64
  (List.range 2048).map (fun x =>
    let col := x / 64
    let row := x % 64
    if isInt fa then
      (List.range kk).foldl (fun (w : Word) i =>
        w + BitVec.ofInt 32 (mmaInt fa (mmaCode k fa aBase (i * dist + row)) *
          mmaInt fb (mmaCode k fb bBase (i * 32 + col)))) (bankGet k bank x)
    else
      accumulate (four fa && four fb) kk (bankGet k bank x) ((List.range kk).map (fun i =>
        mmaProduct (mmaFp fa (mmaCode k fa aBase (i * dist + row)) (coreLE k (aExp + 2 * i + row / 32) 1))
          (mmaFp fb (mmaCode k fb bBase (i * 32 + col)) (coreLE k (bExp + i) 1)))))

/-- The result of an MMA is stated: K in 1 to 4,096, formats that may stand together, and a bank that holds
nothing or elements of the same kind (R150, R152, R174; log entry 40). -/
def mmaStated (k : Core) (bank fa fb kk : Nat) : Bool :=
  1 ≤ kk && kk ≤ 4096 && mmaFormatsOk fa fb &&
    (tget 0 k.accKind bank = 0 || tget 0 k.accKind bank = (if isInt fa then 2 else 1))

/-- Free elements of a bank. -/
def freeBank (c : Chip) : List Word := (List.range 2048).map (fun i => w32 (Config.free (c.free + i)).toNat)

/-- MMA: operand errors, the slice distance of 4-bit A operands (R173), the scoreboard, the sums. -/
def mmaStep (c : Chip) (n : Nat) (a b cc : Reg) (fa fb bank dist0 : Nat) (k : Core) : IRes :=
  let kk := (sget k cc).toNat
  let dist := if dist0 = 0 then 64 else dist0
  let x := (sget k a).toNat
  let y := (sget k b).toNat
  let la := operandSpan fa x (aBytes fa kk dist) (2 * kk)
  let lb := operandSpan fb y (bBytes fb kk) kk
  match operandErr x la, operandErr y lb with
  | some e, _ => .err e
  | none, some e => .err e
  | none, none =>
    if four fa ∧ dist % 64 ≠ 0 then .err 0x0A
    else if pageBusy (busyReads c n) x la ∨ pageBusy (busyReads c n) y lb then .stall
    else .next (advance (bankSet k bank (if isInt fa then 2 else 1)
      (if mmaStated k bank fa fb kk then mmaBank k bank fa fb x y kk dist else freeBank c)))

/-- MMA. -/
def execMma (core : CoreId) (g : Guard) (a b c : Reg) (fa fb : BitVec 4) (bank : Bool) (dist : BitVec 16)
    (s : State) : Host.Outcome State Fault Refusal :=
  onCore s core (fun ch => scalarOp g (mmaStep ch core.toNat a b c fa.toNat fb.toNat (b2n bank) dist.toNat))
    (fun ch => { ch with free := ch.free + 2048 })

/-- The FP32 word of a bank element: an integer bank goes through FP32 (R176). -/
def bankFp (k : Core) (bank i : Nat) : Word :=
  if tget 0 k.accKind bank = 2 then fpOfInt (bankGet k bank i) else bankGet k bank i

/-- MOUT: 32 columns of 64 (R150). -/
def execMout (core : CoreId) (g : Guard) (a : Reg) (fmt : BitVec 2) (bank : Bool) (s : State) :
    Host.Outcome State Fault Refusal :=
  onCore s core (fun c => scalarOp g (fun k =>
    let x := (sget k a).toNat
    let eb := elemBytes fmt.toNat
    withStore c core.toNat true x (2048 * eb) (.next (advance (coreWrite k x
      ((List.range 2048).flatMap (fun i => leBytes eb (narrow fmt.toNat (bankFp k (b2n bank) i))))))))) id

/-- MCOL: one column of 64 elements (R150). -/
def execMcol (core : CoreId) (g : Guard) (a : Reg) (col : BitVec 5) (bank : Bool) (s : State) :
    Host.Outcome State Fault Refusal :=
  scalarStep s core g (fun k =>
    vset k a ((List.range 64).map (fun i => bankGet k (b2n bank) (col.toNat * 64 + i))))

/-! ### Messages and copy plans (R155-R158) -/

/-- Gives a source core the credit of a posted buffer (R155). -/
def giveCredit (c : Chip) (src dst tag : Nat) : Chip :=
  if 256 ≤ src then c
  else pumpCore (setCore c src { coreAt c src with credits := (coreAt c src).credits ++ [(dst, tag)] }) src

/-- RECV: a tag posted whose message has not arrived is a program error (R147). -/
def execRecv (core : CoreId) (g : Guard) (a b c : Reg) (tag : BitVec 4) (s : State) :
    Host.Outcome State Fault Refusal :=
  act s (fun ch => whenAwake ch (fun ch =>
    let k := coreAt ch core.toNat
    let src := (sget k c).toNat
    issue ch core.toNat (scalarOp g (fun k =>
      let x := (sget k a).toNat
      let len := (sget k b).toNat
      match operandErr x len with
      | some e => .err e
      | none =>
        if ((tfind k.posts tag.toNat).map (fun p => p.arrived.isNone)).getD false then .err 0x03
        else .next (advance { k with
          posts := tins k.posts tag.toNat { addr := x, len := len, src := src, arrived := none } })))
      (fun ch2 => if (guardMask k g).getLsbD 0 then giveCredit ch2 src core.toNat tag.toNat else ch2)))

/-- SEND: a core outside the group is a program error; a full queue stalls (R147, R150). -/
def execSend (core : CoreId) (g : Guard) (a b c : Reg) (tag : BitVec 4) (s : State) :
    Host.Outcome State Fault Refusal :=
  onCore s core (fun ch => scalarOp g (fun k =>
    let x := (sget k b).toNat
    let len := (sget k c).toNat
    let dst := (sget k a).toNat
    if inGroup k dst = false then .err 0x04
    else if 8 ≤ k.sendQ.length then .stall
    else withStore ch core.toNat false x len (.next (advance { k with
      sendQ := k.sendQ ++ [{ dst := dst, tag := tag.toNat, addr := x, len := len }] }))))
    (fun ch => pumpCore ch core.toNat)

/-- RWAIT. -/
def execRwait (core : CoreId) (g : Guard) (a : Reg) (tag : BitVec 4) (s : State) :
    Host.Outcome State Fault Refusal :=
  onCore s core (fun _ => scalarOp g (fun k => .next { k with wait := some (.message tag.toNat a.toNat) }))
    (fun ch => wakeCore ch core.toNat)

/-- CPLAN: 1 to 4,096 descriptors of 32 B; a plan that still runs stalls (R158). -/
def execCplan (core : CoreId) (g : Guard) (a b : Reg) (plan : BitVec 2) (s : State) :
    Host.Outcome State Fault Refusal :=
  onCore s core (fun ch => scalarOp g (fun k =>
    let x := (sget k a).toNat
    let n := (sget k b).toNat
    if (tfind k.plans plan.toNat).isSome then .stall
    else if n = 0 ∨ 4096 < n then .err 0x05
    else withStore ch core.toNat false x (32 * n)
      (match descsCheck ch core.toNat k (chunksOf n 32 (coreRead k x (32 * n))) with
       | .error e => .err e
       | .ok ds => .next (advance { k with plans := tins k.plans plan.toNat ds })))) id

/-- CWAIT. -/
def execCwait (core : CoreId) (g : Guard) (plan : BitVec 2) (s : State) : Host.Outcome State Fault Refusal :=
  onCore s core (fun _ => scalarOp g (fun k => .next { k with wait := some (.plan plan.toNat) }))
    (fun ch => wakeCore ch core.toNat)

end Sys2Proof.Machine
end

