-- ==== Sys2Proof/Machine/Attn.lean ====
section
/-! DEFINITION. ATTN (R195-R210): span forming, rotary codes, scores and masks, the partial softmax states of the spans,
their merging, and the outputs of an attention layer. -/

namespace Sys2Proof.Machine

/-! ### The rows of a work (R192) -/

/-- Depth of a row's position above LENGTH: the node's depth, or the row's place. -/
def rowDepth (w : Work) (r : Nat) : Nat :=
  match w.kind with
  | .carried => nodeDepth w.tree r
  | _ => r

/-- Position of a row (R192). -/
def rowPos (len : Nat) (w : Work) (r : Nat) : Nat :=
  match w.kind with
  | .replay => len - 1
  | _ => len + rowDepth w r

/-- Rows that bring fresh keys and values: none of a replay row (R192, R205). -/
def freshRows (w : Work) : Nat :=
  match w.kind with
  | .replay => 0
  | _ => w.rows

/-- A fresh row of a layer, in BF16 tail layout. -/
def freshRow (w : Work) (s : LayerShape) (r : Nat) : List Byte :=
  padTo (rowBytes s) ((tfind w.fresh (r * 256 + s.layer)).getD [])

/-- The lowest position whose query a work runs. -/
def lowQuery (c : Chip) (w : Work) : Nat := rowPos (entry c w.idx).length w 0

/-! ### Spans (R197, R198) -/

/-- The read groups of a session for a layer, with their ledger entries, group by group (R197). -/
def readGroups (c : Chip) (i layer window low : Nat) : List (Nat × Nat) :=
  let e := entry c i
  let n := attnLayers c e.model
  (List.range (groupsOf e.length)).filterMap (fun g =>
    if window = 0 ∨ low < 128 * g + 127 + window then
      (tfind (body c i).blocks (g * n + layer)).map (fun k => (g, k))
    else none)

/-- The sealed blocks of a session that a layer reads (R197). -/
def readBlocks (c : Chip) (i layer window low : Nat) : List Nat := (readGroups c i layer window low).map (·.2)

/-- Weight of a work's tip (R198). -/
def tipWeight (c : Chip) (w : Work) : Nat := max 1 (((entry c w.idx).length % 128 + freshRows w + 127) / 128)

/-- The units of one head of a work with their weights (R198): read groups of weight 1, then the tip. -/
def headUnits (c : Chip) (layer window : Nat) (w : Work) (h : Nat) : List (SpanUnit × Nat) :=
  (readGroups c w.idx layer window (lowQuery c w)).map (fun g => ({ idx := w.idx, head := h, group := some g }, 1)) ++
    [({ idx := w.idx, head := h, group := none }, tipWeight c w)]

/-- The units of an engine's layer: sessions in step order, heads, read groups in rising order, the tip (R198). -/
def layerUnits (c : Chip) (layer window heads : Nat) (ws : List Work) : List (SpanUnit × Nat) :=
  ws.flatMap (fun w => (List.range heads).flatMap (headUnits c layer window w))

/-- The piece that each unit falls in under the forming of R198, for pieces of `t` units on `cores` cores. -/
def formPieces (t cores : Nat) : List (SpanUnit × Nat) → Nat → Nat → List (Nat × SpanUnit)
  | [], _, _ => []
  | u :: r, piece, filled =>
    if t ≤ filled ∧ piece + 1 < cores then (piece + 1, u.1) :: formPieces t cores r (piece + 1) u.2
    else (piece, u.1) :: formPieces t cores r piece (filled + u.2)

/-- Spans that a head has: the pieces that its units fall in. -/
def headSpans (l : List (Nat × SpanUnit)) (i h : Nat) : List Nat :=
  ((l.filter (fun x => decide (x.2.idx = i ∧ x.2.head = h))).map (·.1)).dedup

/-- The place of an engine's layer among the attention layers of its slot. -/
def attnIndex (c : Chip) (e : Engine) : Nat := ((layerTable c e.slot).take e.layer).filter isAttn |>.length

/-- The window of a layer; 0 where it has none. -/
def layerWindow (d : List Byte) : Nat := if nbit (ldFlags d) 0 then ldWindow d else 0

/-- The forming of an engine's attention layer on its cores (R198): each unit with its piece. -/
def engineUnits (c : Chip) (e : Engine) : List (Nat × SpanUnit) :=
  let d := layerDesc c e.slot e.layer
  let us := layerUnits c (attnIndex c e) (layerWindow d) (ldHeads d) e.works
  let n := max 1 e.cores.length
  let t := max (max 1 (fld (reg c aATTN_SPAN_CFG) 15 0)) (((us.map (·.2)).sum + n - 1) / n)
  formPieces t n us 0 0

/-- The copy descriptors with which a core reads a unit (R199): a group by BLOCK, one head and both parts, keys with
KEY_T; committed tail positions of the tip by TAIL. -/
def unitDescs (c : Chip) (s : LayerShape) (u : SpanUnit) : List Desc :=
  let e := entry c u.idx
  let base : Desc := { kind := 4, size := 0, outFp32 := false, part := 0, keyT := true, len := 2 ^ 16 + u.head, src := 0,
                       dst := 0, stride := 0, rows := 0 }
  match u.group with
  | some g => [{ base with src := g.2, size := outSize base s.dim 128 }]
  | none =>
    let n := e.length % 128
    if n = 0 then []
    else [{ base with kind := 5, src := tailAddr c e.tailBase e.model s 0, rows := n, size := outSize base s.dim n }]

/-- Piece i goes to the i-th core of the list, which works through its units in order by their descriptors (R198, R199); SPANS (R217). -/
def formSpans (c : Chip) (e : Engine) : Engine × Chip :=
  let d := layerDesc c e.slot e.layer
  if isAttn d = false then ({ e with pieces := [] }, c)
  else
    let us := engineUnits c e
    let descs := fun (u : SpanUnit) => (((shapes c e.slot)[attnIndex c e]?).map (fun s => unitDescs c s u)).getD []
    let spans := e.works.flatMap (fun w => (List.range (ldHeads d)).map (fun h => (headSpans us w.idx h).length))
    ({ e with pieces := (List.range e.cores.length).map (fun i => (us.filter (fun x => x.1 = i)).map (fun x => (x.2, descs x.2))) },
     setFld (setFld c aATTN_SPANS 31 16 (min 65535 spans.sum)) aATTN_SPANS 8 0 (spans.foldl max 0))

/-! ### Rotary position codes (R200-R203) -/

/-- An entry of a rotary table: the cosines and sines of its chunks of 32 pairs (R201). -/
def ropeEntry (c : Chip) (table dims e : Nat) : List (List Word × List Word) :=
  (List.range ((dims / 2 + 31) / 32)).map (fun k =>
    let l := (wordsOf (memRead c.mem (table + e * ropeEntryBytes dims + 256 * k) 256)).map w32
    (l.take 32, l.drop 32))

/-- Fine entry j: the angles of slot j. -/
def fineEntry (c : Chip) (table dims j : Nat) : List (List Word × List Word) := ropeEntry c table dims j

/-- Coarse entry e: the angles of 128 e positions, after the 128 fine entries. -/
def coarseEntry (c : Chip) (table dims e : Nat) : List (List Word × List Word) := ropeEntry c table dims (128 + e)

/-- Applies VROT to each chunk of pairs, 64 elements at a time (R202). -/
def rotChunks : List (List Word × List Word) → List Word → List Word
  | [], x => x
  | e :: r, x => (rotLanes (x.take 64) e.1 e.2).take (x.take 64).length ++ rotChunks r (x.drop 64)

/-- Rotates the elements `lo` to `lo + dims - 1` of a vector; the others pass unchanged (R202). -/
def rotateVec (entry : List (List Word × List Word)) (lo dims : Nat) (x : List Word) : List Word :=
  x.take lo ++ rotChunks entry ((x.drop lo).take dims) ++ x.drop (lo + dims)

/-- An attention layer as a span computes it: its shape, query heads per KV head, whether it is latent and ABSORB, its
window, scale, rotated elements and rotary table, AUX, and the counter for the weights at AUX. -/
structure AttnLayer where
  shape : LayerShape
  perKv : Nat
  latent : Bool
  absorb : Bool
  window : Nat
  scale : Word
  dims : Nat
  table : Nat
  aux : Nat
  weights : Nat

/-- An attention layer from its descriptor (R195). -/
def attnLayer (d : List Byte) (s : LayerShape) (weights : Nat) : AttnLayer :=
  { shape := s, perKv := ldQ d, latent := decide (ldKind d = 1), absorb := nbit (ldFlags d) 2,
    window := layerWindow d, scale := ldScale d, dims := ropeDims d, table := ldTable d, aux := ldAux d,
    weights := weights }

/-- First rotated element of a vector of `n`: the rotary part of a latent layer stands last (R201, R210). -/
def rotStart (a : AttnLayer) (n : Nat) : Nat := if a.latent then n - a.dims else 0

/-- A query scaled, then rotated by fine entry b of its position (R202 steps 1 and 2). -/
def fineQuery (c : Chip) (a : AttnLayer) (p : Nat) (q : List Word) : List Word :=
  rotateVec (fineEntry c a.table a.dims (p % 128)) (rotStart a q.length) a.dims (q.map (fun x => fmul x a.scale))

/-- The prepared query against a group at coarse distance `d`: rotated and rounded to BF16 (R202 step 3). -/
def coarseQuery (c : Chip) (a : AttnLayer) (d : Nat) (q : List Word) : List Nat :=
  (rotateVec (coarseEntry c a.table a.dims d) (rotStart a q.length) a.dims q).map bf16Of

/-- A prepared key at a slot: widened, rotated by fine entry j, rounded to BF16 (R203). -/
def prepKey (c : Chip) (a : AttnLayer) (j : Nat) (key : List Nat) : List Nat :=
  (rotateVec (fineEntry c a.table a.dims j) (rotStart a key.length) a.dims (key.map ofBf16)).map bf16Of

/-! ### Keys and values (R199, R204, R210) -/

/-- The MMA of two BF16 vectors from +0: exact products, summed in FP32 in rising order (R175, R204). -/
def dotBf16 (x y : List Nat) : Word :=
  accumulate false x.length 0 ((x.zip y).map (fun p => mmaProduct (decodeFp fmtBf16 p.1) (decodeFp fmtBf16 p.2)))

/-- A key and a value as a query head meets them: position, the fresh row that brought them, elements in BF16. -/
structure KeyRow where
  pos : Nat
  fresh : Option Nat
  key : List Nat
  val : List Nat

/-- BF16 codes of `n` elements of a row from element `o`. -/
def rowCodes (row : List Byte) (o n : Nat) : List Nat := (List.range n).map (fun i => rdLE row (2 * (o + i)) 2)

/-- Rows of the up-projection weights of a query head times a latent vector, in BF16 (R210). -/
def upProject (a : AttnLayer) (isV : Bool) (q rows : Nat) (x : List Nat) : List Nat :=
  (List.range rows).map (fun r =>
    bf16Of (dotBf16 ((List.range x.length).map (fun i =>
      (Config.upWeight a.aux a.weights isV q r i).toNat)) x))

/-- Key and value of a stored or fresh row for query head `q` of KV head `h`, whose query has `n` elements (R204, R210):
latent rows give the up-projected key and value without ABSORB, and the row itself and its latent vector with it. -/
def keyValue (a : AttnLayer) (h q n : Nat) (row : List Byte) : List Nat × List Nat :=
  let s := a.shape
  if a.latent then
    let all := rowCodes row 0 (2 * s.dim)
    let lat := all.take (2 * s.dim - a.dims)
    if a.absorb then (all, lat)
    else (upProject a false q (n - a.dims) lat ++ all.drop (2 * s.dim - a.dims), upProject a true q s.dim lat)
  else (rowCodes row (h * s.dim) s.dim, rowCodes row ((s.heads + h) * s.dim) s.dim)

/-- The rows of a unit with their positions: of a group by the reading session's block table (R200), of the tip the
committed tail and the fresh rows. -/
def unitRows (c : Chip) (s : LayerShape) (w : Work) (u : SpanUnit) : List (Nat × Option Nat × List Byte) :=
  let e := entry c w.idx
  match u.group with
  | some g =>
    (numbered (blockRows e.dense (smoothing c e.model) s 128 (blockData c g.2))).map (fun r => (128 * g.1 + r.1, none, r.2))
  | none =>
    (numbered (tailRows c w.idx s (e.length % 128))).map (fun r => (e.length / 128 * 128 + r.1, none, r.2)) ++
      (List.range (freshRows w)).map (fun r => (e.length + rowDepth w r, some r, freshRow w s r))

/-- The keys and values of a unit for a query head, keys prepared (R203). -/
def unitKeys (c : Chip) (a : AttnLayer) (w : Work) (u : SpanUnit) (q n : Nat) : List KeyRow :=
  (unitRows c a.shape w u).map (fun x =>
    let kv := keyValue a u.head q n x.2.2
    { pos := x.1, fresh := x.2.1, key := prepKey c a (x.1 % 128) kv.1, val := kv.2 })

/-! ### Masks and partial states (R205-R207) -/

/-- A key is visible to a row (R205). Blocks that were dropped are no read groups. -/
def visible (a : AttnLayer) (excl : List (Nat × Nat)) (w : Work) (p r : Nat) (k : KeyRow) : Bool :=
  (match k.fresh with
   | none => decide (k.pos ≤ p)
   | some f =>
     match w.kind with
     | .chunk => decide (f ≤ r)
     | .carried => nbit (ancestorMap w.tree r) f
     | .closing => decide (f = r)
     | .replay => false) &&
  decide (a.window = 0 ∨ p < k.pos + a.window) && !(excl.any (fun x => decide (x.1 ≤ k.pos ∧ k.pos < x.2)))

/-- FP32 −infinity. -/
def minusInf : Word := fpTo (.inf true)

/-- The partial state of a row and query head (R207). -/
structure Partial where
  m : Word
  l : Word
  o : List Word

/-- The state that every span starts from; a value has `n` elements. -/
def Partial.start (n : Nat) : Partial := { m := minusInf, l := 0, o := List.replicate n 0 }

/-- The sum of weights by runs of 64 keys, in key order (R207); the last run is padded with zeros. -/
def runSum (p : List Word) : Word :=
  match (chunksOf p.length 64 p).map (fun l => vredSum (l ++ List.replicate (64 - l.length) 0)) with
  | [] => 0
  | x :: r => r.foldl fadd x

/-- The update of R207 over a group or the tip: `s` the scores, `ks` the keys. -/
def Partial.update (st : Partial) (s : List Word) (ks : List KeyRow) : Partial :=
  if s.all (fun x => decide (x = minusInf)) then st
  else
    let mn := fmax st.m (vredMax s)
    let alpha := fexp2 (fsub st.m mn)
    let p := s.map (fun x => bf16Of (fexp2 (fsub x mn)))
    { m := mn
      l := ffma st.l alpha (runSum (p.map ofBf16))
      o := (numbered st.o).map (fun d => ffma d.2 alpha (dotBf16 p (ks.map (fun k => k.val.getD d.1 0)))) }

/-- The merge of R208: `a` holds the lower positions. -/
def Partial.merge (a b : Partial) : Partial :=
  if b.m = minusInf then a
  else if a.m = minusInf then b
  else
    let m := fmax a.m b.m
    let x := fexp2 (fsub a.m m)
    let y := fexp2 (fsub b.m m)
    { m := m, l := ffma a.l x (fmul b.l y),
      o := (a.o.zip b.o).map (fun d => ffma d.1 x (fmul d.2 y)) }

/-- One level of the merge tree: span i receives the state of its neighbour (R208). -/
def mergeLevel : List Partial → List Partial
  | a :: b :: r => a.merge b :: mergeLevel r
  | l => l

/-- The merge tree of a head: levels until span 0 alone is left (R208), with fuel. -/
def mergeTree : Nat → List Partial → Option Partial
  | 0, l => l.head?
  | n + 1, l => if l.length ≤ 1 then l.head? else mergeTree n (mergeLevel l)

/-- The root's outputs (R209): +0 where every key was masked, else o divided by l; a latent layer with ABSORB applies
W_uv afterwards (R210). -/
def finishHead (a : AttnLayer) (q : Nat) (st : Partial) : List Nat :=
  let y := if st.m = minusInf then st.o.map (fun _ => 0) else st.o.map (fun x => bf16Of (fmul x (frcp st.l)))
  if a.latent ∧ a.absorb then upProject a true q a.shape.dim y else y

/-- Elements of a value as the spans accumulate it. -/
def valueLen (a : AttnLayer) : Nat := if a.latent ∧ a.absorb then 2 * a.shape.dim - a.dims else a.shape.dim

/-- The state of a span for one row and query head: its units in order (R199, R207). -/
def spanState (c : Chip) (a : AttnLayer) (w : Work) (r q : Nat) (query : List Word) (us : List SpanUnit) : Partial :=
  let e := entry c w.idx
  let p := rowPos e.length w r
  let fine := fineQuery c a p query
  us.foldl (fun st u =>
    let x := coarseQuery c a (match u.group with
      | some g => p / 128 - g.1
      | none => 0) fine
    let ks := unitKeys c a w u q query.length
    st.update (ks.map (fun k =>
      if visible a (body c w.idx).excl w p r k then dotBf16 x k.key else minusInf)) ks) (Partial.start (valueLen a))

/-- The output of one row and query head over the spans of its KV head (R207-R209). -/
def headOutput (c : Chip) (a : AttnLayer) (us : List (Nat × SpanUnit)) (w : Work) (r q : Nat) (query : List Word) :
    List Nat :=
  let h := q / max 1 a.perKv
  let spans := (headSpans us w.idx h).map (fun i =>
    (us.filter (fun x => decide (x.1 = i ∧ x.2.idx = w.idx ∧ x.2.head = h))).map (·.2))
  match mergeTree spans.length (spans.map (spanState c a w r q query)) with
  | some st => finishHead a q st
  | none => []

/-- The query of a head in a row's list of queries. -/
def headQuery (a : AttnLayer) (row : List Word) (q : Nat) : List Word :=
  let n := row.length / max 1 (a.shape.heads * a.perKv)
  (row.drop (q * n)).take n

/-- The outputs of a row: its query heads in order, in BF16 (R209). -/
def rowOutput (c : Chip) (a : AttnLayer) (us : List (Nat × SpanUnit)) (w : Work) (row : List Word) (r : Nat) :
    List Byte :=
  (List.range (a.shape.heads * a.perKv)).flatMap (fun q =>
    (headOutput c a us w r q (headQuery a row q)).flatMap (leBytes 2))

/-- Free bytes of the state's counter from a place on. -/
def freeBytes (c : Chip) (o n : Nat) : List Byte :=
  (List.range n).map (fun i => BitVec.ofNat 8 (Config.free (c.free + o + i)).toNat)

/-- Bytes of the outputs of a row. -/
def outputBytes (a : AttnLayer) : Nat := 2 * a.shape.heads * a.perKv * a.shape.dim

/-- The attention outputs of a work whose queries were delivered. Under a layer table or rotary table that was changed
while valid they are open (R536). -/
def attendWork (c : Chip) (open_ : Bool) (a : AttnLayer) (us : List (Nat × SpanUnit)) (queries : List RowQueries)
    (x : Nat × Work) : Work :=
  let w := x.2
  match queries.find? (fun y => y.handle = handleOf c w.idx) with
  | none => { w with outs := [] }
  | some y =>
    { w with outs := (List.range w.rows).foldl (fun t r =>
        tins t r (if open_ then freeBytes c ((x.1 * 4096 + r) * outputBytes a) (outputBytes a)
          else rowOutput c a us w (y.rows.getD r []) r)) [] }

/-- Attention over an engine's layer (R197-R210): the outputs of every work. The weights at AUX of a latent layer are free
at each layer (log entry 115). -/
def attendLayer (c : Chip) (e : Engine) (s : LayerShape) (queries : List RowQueries) (ws : List Work) :
    List Work × Chip :=
  let d := layerDesc c e.slot e.layer
  let (v, c1) := if ldKind d = 1 then takeFree c else (0, c)
  let a := attnLayer d s v
  let changed := layersOpen c e.slot
  ((numbered ws).map (attendWork c1 changed a (engineUnits c e) queries),
   if changed then { c1 with free := c1.free + ws.length * 4096 * outputBytes a } else c1)

end Sys2Proof.Machine
end

