-- ==== Sys2Proof/Machine/Sched.lean ====
section
/-! DEFINITION. SCHED (R219-R243): who joins a step, chunks, the staging reservation, the split of rows, the
placement lists, and the commands STEP_BOUNDARY, BATCH_HOLD_EXPIRY, RATIO_JUDGE and ACTIVATIONS_ARRIVED. The end of
a layer and of a step is in StepEnd.lean. -/

namespace Sys2Proof.Machine

/-! ### Settings (R225-R228, R240, R241) -/

/-- CHUNK.SIZE in force. -/
def chunkSize (c : Chip) : Nat := max 128 (min 4096 (fld (reg c aSCHED_CHUNK) 12 0 / 128 * 128))
/-- CHUNK.MAX_SESS in force. -/
def chunkSess (c : Chip) : Nat := max 1 (min 1024 (fld (reg c aSCHED_CHUNK) 26 16))
/-- CHUNK_BUDGET.TOKENS in force. -/
def chunkBudget (c : Chip) : Nat := max 128 (min 65536 (fld (reg c aSCHED_CHUNK_BUDGET) 16 0))
/-- DECODE.MAX in force. -/
def decodeMax (c : Chip) : Nat := max 1 (min 1024 (fld (reg c aSCHED_DECODE) 10 0))
/-- BATCH_HOLD: MIN_SESS and HOLD_US. -/
def batchHold (c : Chip) : Nat × Nat :=
  (fld (reg c aSCHED_BATCH_HOLD) 10 0, fld (reg c aSCHED_BATCH_HOLD) 31 16)

/-- SCHED of a partition at reset. -/
def schedReset : SchedPart :=
  { chunkRows := 0, initDue := true, chunkNext := none, cLast := 0, dLast := 0, window := 0, step := none,
    holding := false }

/-- SCHED of a partition. -/
def schedPart (c : Chip) (p : Nat) : SchedPart := tget schedReset c.sched.parts p

/-- Writes SCHED of a partition. -/
def setSched (c : Chip) (p : Nat) (x : SchedPart) : Chip :=
  { c with sched := { c.sched with parts := tset schedReset c.sched.parts p x } }

/-- The grid rows of a partition, north to south (R140, R447). -/
def rowsOf (c : Chip) (p : Nat) : List Nat :=
  if partHolds c p then (List.range 16).filter (fun y => nbit (fld (regB c p aSEC_PART_RES) 7 0) (y / 2)) else []

/-- A number of chunk rows within the bounds of R228. -/
def boundRows (c : Chip) (p v : Nat) : Nat :=
  let w := regB c p aSCHED_RATIO_CFG
  let lo := max 1 (fld w 11 8)
  max 1 (min ((rowsOf c p).length - 1) (max lo (min (fld w 15 12) v)))

/-- CHUNK_ROWS at a boundary: INIT after a write of RATIO_CFG or SCHED going ON, or the row that R229 moved. -/
def ratioAtBoundary (c : Chip) (p : Nat) : Chip :=
  let x := schedPart c p
  if x.initDue then
    setSched c p { x with initDue := false, chunkNext := none,
                          chunkRows := boundRows c p (fld (regB c p aSCHED_RATIO_CFG) 3 0) }
  else
    match x.chunkNext with
    | none => setSched c p { x with chunkRows := boundRows c p x.chunkRows }
    | some v => setSched c p { x with chunkNext := none, chunkRows := boundRows c p v }

/-! ### Eligibility and order (R221, R222) -/

/-- A figure of a session waits to open. -/
def figWaits (c : Chip) (i : Nat) : Bool := c.fig.waiting.any (fun f => decide (Subject.session i ∈ f.subjects))

/-- A session is eligible, with its operation (R221). -/
def eligibleOp (c : Chip) (p i : Nat) : Option Op :=
  let e := entry c i
  match opsOf c i with
  | o :: rest =>
    if e.part = p ∧ (e.state = .ready ∨ e.state = .running) ∧ (o.code = 2 ∨ o.code = 3) ∧ o.phase = .ready ∧
        o.drainEnd = false ∧ !((rest.head?.map (fun n => preempts n.code)).getD false) ∧ modelValid c e.model ∧ !figWaits c i then some o
    else none
  | [] => none

/-- Eligible sessions of a partition in the order of R222. -/
def eligible (c : Chip) (p : Nat) : List (Nat × Op) :=
  sortBy (fun x => (entry c x.1).priority * 2 ^ 64 + x.2.order)
    (c.sess.ops.filterMap (fun e => (eligibleOp c p e.1).map (fun o => (e.1, o))))

/-- The kind of rows of a session's next step (R192-R194). -/
def kindOf (o : Op) : RowKind :=
  if o.code = 2 then .chunk
  else if o.final.isSome then .closing
  else if o.carried.isSome then .carried
  else .replay

/-- Chunk work. -/
def isChunk (o : Op) : Bool := decide (o.code = 2)

/-- Tokens of the next chunk of an APPEND (R225). -/
def chunkLen (c : Chip) (i : Nat) (o : Op) : Nat := min o.tokens.length (chunkSize c - (entry c i).length % 128)

/-! ### Selection (R223, R226) -/

/-- The tree of a carried row in the step: the root alone when none was built, when it is not complete at t1 (R256) or while
SPEC is not ON (R269); only the spine in a model with a recurrent layer (R211). -/
def stepTree (c : Chip) (late : List Word) (i : Nat) (o : Op) : List TreeNode :=
  match o.carried with
  | none => []
  | some t =>
    let tr := if o.tree.isEmpty || handleOf c i ∈ late || !isOn c .spec then [{ token := t, parent := 0 }] else o.tree
    if recurSizes c (entry c i).model = [] then tr else spineOnly tr

/-- A session's part of a step, before its reservations. -/
def mkWork (c : Chip) (late : List Word) (x : Nat × Op) : Work :=
  let k := kindOf x.2
  let tr := match k with
    | .carried => stepTree c late x.1 x.2
    | _ => []
  let n := chunkLen c x.1 x.2
  { idx := x.1, kind := k
    tokens := (match k with
      | .chunk => x.2.tokens.take n
      | _ => [])
    rows := (match k with
      | .chunk => n
      | .carried => tr.length
      | _ => 1)
    tree := tr, stage := 0, blocks := [], fresh := [], draws := [], deadNodes := [], recur := [], outs := [], bad := false }

/-- Sessions of the slot of the first one, up to a number (R223). -/
def sameSlot (c : Chip) (n : Nat) (l : List (Nat × Op)) : List (Nat × Op) :=
  match l with
  | [] => []
  | x :: _ => (l.filter (fun y => (entry c y.1).model = (entry c x.1).model)).take n

/-- Chunk sessions up to the token budget; the first is taken whole (R226). -/
def withinBudget (c : Chip) (budget : Nat) : Nat → List (Nat × Op) → List (Nat × Op)
  | _, [] => []
  | used, x :: r =>
    let n := chunkLen c x.1 x.2
    if used ≠ 0 ∧ budget < used + n then [] else x :: withinBudget c budget (used + n) r

/-! ### Seal space (R94, R105) -/

/-- The most positions that a work can commit. -/
def workSpan (w : Work) : Nat :=
  match w.kind with
  | .chunk => w.rows
  | .carried => ((List.range w.tree.length).map (fun n => nodeDepth w.tree n + 1)).foldl max 1
  | .closing => 1
  | .replay => 0

/-- Sizes of the blocks that a work may seal, group by group, layer by layer. -/
def sealSizes (c : Chip) (w : Work) : List Nat :=
  let e := entry c w.idx
  (List.range ((e.length + workSpan w) / 128 - e.length / 128)).flatMap (fun _ =>
    (shapes c e.model).map (blockSize e.dense))

/-- Takes ledger entries and heap space for a list of blocks; all or none. -/
def stageBlocks (c : Chip) (part : Nat) : List Nat → Option (List Nat × Chip)
  | [] => some ([], c)
  | n :: r =>
    match stageBlock c part n with
    | none => none
    | some (k, _, c1) =>
      match stageBlocks c1 part r with
      | none => none
      | some (l, c2) => some (k :: l, c2)

/-- Reserves the seal space of every work, in order; a work that TIER cannot serve is left out (R105). While TIER is not ON
it refuses the request (R34, R117). -/
def reserveSeals (c : Chip) (ws : List Work) : List Work × Chip :=
  ws.foldl (fun a w =>
    let need := sealSizes a.2 w
    match (if need.isEmpty || isOn a.2 .tier then stageBlocks a.2 (entry a.2 w.idx).part need else none) with
    | some (l, c1) => (a.1 ++ [{ w with blocks := l }], c1)
    | none => (a.1, a.2)) ([], c)

/-- The works of a step from the eligible sessions in order, before reservations (R223, R226). -/
def pickWorks (c : Chip) (late : List Word) (el : List (Nat × Op)) : List Work :=
  let d := sameSlot c (decodeMax c) (el.filter (fun x => !isChunk x.2))
  let k := withinBudget c (chunkBudget c) 0 (sameSlot c (chunkSess c) (el.filter (fun x => isChunk x.2)))
  (el.filter (fun x => d.any (fun y => y.1 = x.1) || k.any (fun y => y.1 = x.1))).map (mkWork c late)

/-- The eligible sessions, the works of the step with their seal space, and the chip: a session that TIER leaves out for
want of seal space is not eligible, and the choice begins again without it (R105, R221), with fuel. -/
def serveSeals (c : Chip) (late : List Word) : Nat → List (Nat × Op) → List (Nat × Op) × List Work × Chip
  | 0, el => (el, [], c)
  | f + 1, el =>
    let ws := pickWorks c late el
    let (ok, c1) := reserveSeals c ws
    let short := ws.filter (fun w => ok.all (fun x => x.idx ≠ w.idx))
    if short.isEmpty then (el, ok, c1)
    else serveSeals c late f (el.filter (fun x => short.all (fun w => w.idx ≠ x.1)))

/-! ### Staging reservation (R227) -/

/-- Nodes of a tree off the spine. -/
def offSpine (tr : List TreeNode) : List Nat := (List.range tr.length).filter (fun n => n ∉ spine tr)

/-- Chunk positions beyond the open group's tail slots. -/
def beyondGroup (c : Chip) (w : Work) : Nat := w.rows - (128 - (entry c w.idx).length % 128)

/-- Staging bytes of a work. -/
def stageNeed (c : Chip) (w : Work) : Nat :=
  let n := match w.kind with
    | .chunk => beyondGroup c w
    | .carried => (offSpine w.tree).length
    | _ => 0
  65536 + n * posBytes c (entry c w.idx).model

/-- Removes a node that has no children, renumbering those after it. -/
def dropNode (tr : List TreeNode) (k : Nat) : List TreeNode :=
  ((numbered tr).filter (fun e => e.1 ≠ k)).map (fun e =>
    { e.2 with parent := if k < e.2.parent then e.2.parent - 1 else e.2.parent })

/-- Drops off-spine nodes from the highest-numbered down until at most `n` are left, with fuel. -/
def trimTree (n : Nat) : Nat → List TreeNode → List TreeNode
  | 0, tr => tr
  | f + 1, tr =>
    let off := offSpine tr
    match off.getLast? with
    | none => tr
    | some k => if off.length ≤ n then tr else trimTree n f (dropNode tr k)

/-- A work cut to a staging bound; none when it still does not fit. A chunk keeps the open group's positions and a
multiple of 128 staged ones (log entry 42). -/
def trimWork (c : Chip) (bound : Nat) (w : Work) : Option Work :=
  let pb := max 1 (posBytes c (entry c w.idx).model)
  if stageNeed c w ≤ bound then some w
  else if bound < 65536 then none
  else
    match w.kind with
    | .chunk =>
      let n := 128 - (entry c w.idx).length % 128 + (bound - 65536) / pb / 128 * 128
      some { w with rows := n, tokens := w.tokens.take n }
    | .carried =>
      let tr := trimTree ((bound - 65536) / pb) w.tree.length w.tree
      some { w with tree := tr, rows := tr.length }
    | _ => none

/-- Makes room from the last session back (R227): works from the last to the first, and the sum of what stands
before them. -/
def trimBack (c : Chip) (free : Nat) : Nat → List Work → List Work
  | _, [] => []
  | total, w :: before =>
    let rest := total - stageNeed c w
    if total ≤ free then w :: before
    else
      match (if rest ≤ free then trimWork c (free - rest) w else none) with
      | some w' => w' :: before
      | none => trimBack c free rest before

/-- The works of a step with their staging space; whether a tree was trimmed (R214). `ws` is in the order of
R222. -/
def reserveStage (c : Chip) (ws : List Work) : List Work × Bool :=
  let kept := (trimBack c (stageFree c) ((ws.map (stageNeed c)).sum) ws.reverse).reverse
  (kept.map (fun w => { w with stage := stageNeed c w }),
   kept.any (fun w => ws.any (fun x => x.idx = w.idx && w.tree.length < x.tree.length)))

/-! ### Placement (R228-R232) -/

/-- Cores of a list of rows that are FREE, in rising number (R230). -/
def listOf (c : Chip) (rows : List Nat) : List Nat :=
  (List.range 256).filter (fun n => n / 16 ∈ rows && decide ((coreAt c n).state = .free))

/-- A placement list under R231: it starts at the first listed core not below the home core. -/
def rotateList (home : Nat) (l : List Nat) : List Nat :=
  l.filter (fun n => home ≤ n) ++ l.filter (fun n => n < home)

/-- AFFINITY (R231). -/
def affinity (c : Chip) : Bool := bit (reg c aSCHED_MODE) 0

/-- Works in step order: of selection, or by home core under AFFINITY. -/
def stepOrder (c : Chip) (ws : List Work) : List Work :=
  if affinity c then sortBy (fun w => w.idx % 256) ws else ws

/-- Index of an engine. -/
def engineIdx (k : EngineKind) : Nat :=
  match k with
  | .decode => 0
  | .chunk => 1

/-- The cores of the other engines of a step that can take work for them: BUSY or FREE (R232). -/
def otherList (c : Chip) (engines : List Engine) (k : EngineKind) : List Nat :=
  ((engines.filter (fun e => decide (e.kind ≠ k) && !e.ended)).flatMap (·.cores)).filter (fun n =>
    decide ((coreAt c n).state = .busy ∨ (coreAt c n).state = .free))

/-- The placement list of an engine for a layer: its own rows, else the other engine's list, which both then share (R232).
AFFINITY is that of the step's boundary (R241). -/
def placement (c : Chip) (p : Nat) (st : Step) (e : Engine) : List Nat :=
  let own := listOf c e.rows
  let other := otherList c st.engines e.kind
  let l := if !own.isEmpty then own else if other.isEmpty then listOf c (rowsOf c p) else other
  if st.affinity then rotateList ((e.works.head?.map (·.idx)).getD 0 % 256) l else l

/-- The first 48 bytes of the parameter block of one core of a group (R142). -/
def paramHeader (step prog role phase : Nat) (cores : List Nat) : List Byte :=
  leBytes 8 step ++ leBytes 2 prog ++ leBytes 1 cores.length ++ leBytes 1 role ++
    leBytes 1 (cores.headD 0) ++ leBytes 1 phase ++ [0, 0] ++
    leBytes 32 (cores.foldl (fun m n => m ||| 2 ^ n) 0)

/-- Places work of an engine on a core: at once on a FREE core that nothing waits for, else after the placements that the
core has (R232). -/
def offerCore (c : Chip) (n owner : Nat) (block : List Byte) (prog : Nat) : Chip :=
  let k := coreAt c n
  if k.state = .free ∧ k.queued.isEmpty then placeCore c n owner block prog
  else setCore c n { k with queued := k.queued ++ [(owner, block, prog)] }

/-- A core that became FREE takes the placement that waits for it. -/
def startQueued (c : Chip) (n : Nat) : Chip :=
  let k := coreAt c n
  match k.queued with
  | [] => c
  | (o, b, g) :: r =>
    if k.state = .free ∧ isOn c .grid then placeCore (setCore c n { k with queued := r }) n o b g else c

/-- Releases one placement group on a list (R144, R230) with a program and a PHASE. -/
def releaseGroup (c : Chip) (p : Nat) (k : EngineKind) (cores : List Nat) (prog phase : Nat) : Chip :=
  let step := pairB c p aSCHED_STEP_CNT_LO
  (numbered cores).foldl (fun c e =>
    offerCore c e.2 (2 * p + engineIdx k) (paramHeader step prog e.1 phase cores) prog) c

/-- The cores of a recurrent layer: one for each session, in step order (R211). With fewer cores than sessions the list is
gone through again: a core runs its sessions one after the other (log entry 116). -/
def recurCores (cores : List Nat) (ws : List Work) : List Nat :=
  (List.range ws.length).map (fun i => cores.getD (i % max 1 cores.length) 0)

/-- Releases the placements of a layer on a list (R144, R211, R230): for a recurrent layer one placement of the program
that AUX names for each session; else which program of the library runs is its own choice. PROG_ID there and PHASE are
free (log entry 43). -/
def releaseLayer (c : Chip) (p : Nat) (e : Engine) : Chip :=
  let (v, c1) := takeFree c
  let (w, c2) := takeFree c1
  let d := layerDesc c e.slot e.layer
  if ldKind d = 2 then
    (recurCores e.cores e.works).foldl (fun c n => releaseGroup c p e.kind [n] (ldProg d) (w % 8)) c2
  else releaseGroup c2 p e.kind e.cores (v % 4096) (w % 8)

/-- Forms and releases the placements of an engine's layer. With no core in the partition the engine waits and NO_CORE is
set (R232); while GRID is not ON its request is refused, and it waits (R34, R171). A recurrent layer takes no more cores
than sessions (R211). -/
def placeLayer (c : Chip) (p : Nat) (st : Step) (e : Engine) : Engine × Chip :=
  if isOn c .grid = false then ({ e with cores := [], pieces := [] }, c)
  else
    let l := placement c p st e
    let recurs := ldKind (layerDesc c e.slot e.layer) = 2
    if l.isEmpty then ({ e with cores := [], pieces := [] }, raise c .sched 16)
    else
      let e1 := { e with cores := if recurs then l.take e.works.length else l }
      formSpans (releaseLayer c p e1) e1

/-- A level of the draft model is released on the decode engine's cores, as one placement (R259). -/
def placeDraft (c : Chip) (p : Nat) (st : Step) (level : Nat) : Chip :=
  if isOn c .grid = false then c
  else
    let own := listOf c ((st.engines.filter (fun e => e.kind = .decode)).flatMap (·.rows))
    let l := if own.isEmpty then listOf c (rowsOf c p) else own
    if l.isEmpty then raise c .sched 16
    else
      let (v, c1) := takeFree c
      let (w, c2) := takeFree c1
      let c3 := releaseGroup c2 p .decode l (v % 4096) (w % 8)
      setSched c3 p { schedPart c3 p with step := some { st with phase := .draft level l } }

/-- Places the layers of a running step that wait for a core (R232), after the placements that wait on shared cores. -/
def placeWaiting (c0 : Chip) (p : Nat) : Chip :=
  let c := ((c0.grid.cores.filter (fun k => !k.2.queued.isEmpty && decide (corePart c0 k.1 = p))).map (·.1)).foldl
    startQueued c0
  match (schedPart c p).step with
  | none => c
  | some st =>
    match st.phase with
    | .layers =>
      if st.waitPeer ∨ st.paced then c
      else
        let r := st.engines.foldl (fun (a : List Engine × Chip) e =>
          if e.ended ∨ e.cores ≠ [] then (a.1 ++ [e], a.2)
          else
            let (e1, c1) := placeLayer a.2 p { st with engines := a.1 ++ st.engines.drop a.1.length } e
            (a.1 ++ [e1], c1)) ([], c)
        setSched r.2 p { schedPart r.2 p with step := some { st with engines := r.1 } }
    | .draft level cores => if cores.isEmpty then placeDraft c p st level else c
    | .figures => c
    | .sending => c

/-! ### Forming (R219-R228) -/

/-- Counts sessions left out of a step (R223). -/
def leftOut (c : Chip) (p n : Nat) : Chip :=
  if n = 0 then c else raise (bumpB c p aSCHED_LEFT_OUT n) .sched 18

/-- The job of a session's first step is STARTED (R239); a READY session becomes RUNNING (log entry 41), and its entry
stays in the cache (R42, R61). -/
def joinStep (c : Chip) (i : Nat) : Chip :=
  match opsOf c i with
  | [] => c
  | o :: _ =>
    let e := entry c i
    let c1 := if o.started then c
      else
        let j := jobs c e.part e.client
        setJobs (setHead c i { o with started := true }) e.part e.client (j.1 + 1, j.2)
    let c2 := touch (setHead c1 i { o with started := true, phase := .running }) i
    if (entry c2 i).state = .ready then
      openFig c2 (sessFig c2 i { entry c2 i with state := .running } [] [.opFig i])
    else c2

/-- RING_SPLIT is in force (R506). -/
def ringSplit (c : Chip) : Bool := bit (reg c aCHIP_SPLIT) 31

/-- The layers that this module runs: first, and the one after the last (R238). -/
def layerRange (c : Chip) (slot : Nat) : Nat × Nat :=
  let n := layerCount c slot
  let w := reg c aCHIP_SPLIT
  let k := fld w 15 8
  if ringSplit c then (fld w 7 0, min n (fld w 7 0 + (if k = 0 then 256 else k))) else (0, n)

/-- The engines of a step: works by kind on their rows (R220, R228). -/
def mkEngines (c : Chip) (p : Nat) (dec chk : List Work) : List Engine :=
  let rows := rowsOf c p
  let n := (schedPart c p).chunkRows
  let slot := fun (ws : List Work) => ((ws.head?.map (fun w => (entry c w.idx).model)).getD 0)
  let eng := fun k rs (ws : List Work) =>
    let r := layerRange c (slot ws)
    ({ kind := k, slot := slot ws, rows := rs, works := stepOrder c ws, layer := r.1, layers := r.2, cores := [],
       ended := false } : Engine)
  if chk.isEmpty then (if dec.isEmpty then [] else [eng .decode rows dec])
  else if dec.isEmpty then [eng .chunk rows chk]
  else [eng .decode (rows.take (rows.length - n)) dec, eng .chunk (rows.drop (rows.length - n)) chk]

/-- A step may be formed in a partition: SCHED, ATTN and GRID work, no fault, no overlay waits, and the partition
holds its units (R78, R218, R219, R236, R450). -/
def canForm (c : Chip) (p : Nat) : Bool :=
  isUp c .sched && isOn c .attn && isOn c .grid && !c.sched.stopped && !c.flt.chipPending &&
    c.chip.overlays.isEmpty && decide (c.ckpt.phase ≠ .snapshot) && partHolds c p && (schedPart c p).step.isNone

/-- The share of running time that a partition is allowed, in 1/65,536: below 65,536 a step may wait for pacing
(R436, R442). -/
def paceOf (c : Chip) (p : Nat) : Nat :=
  min (tget 65536 c.pwr.paceX p) (65536 * (100 - min 100 c.pwr.throttlePace) / 100)

/-- Rows of an engine of a partition (R228). -/
def engineRows (c : Chip) (p : Nat) (k : EngineKind) : List Nat :=
  let rows := rowsOf c p
  let n := rows.length - (schedPart c p).chunkRows
  match k with
  | .decode => rows.take n
  | .chunk => rows.drop n

/-- The point of a row (R446). -/
def rowPoint (c : Chip) (y : Nat) : Nat :=
  let w := if y < 8 then reg c aPWR_ROW_POINT0 else reg c aPWR_ROW_POINT1
  fld w (4 * (y % 8) + 3) (4 * (y % 8))

/-- Writes the point of a row. -/
def setRowPoint (c : Chip) (y v : Nat) : Chip :=
  setFld c (if y < 8 then aPWR_ROW_POINT0 else aPWR_ROW_POINT1) (4 * (y % 8) + 3) (4 * (y % 8)) v

/-- Writes the point of several rows. -/
def setRowPoints (c : Chip) (ys : List Nat) (v : Nat) : Chip := ys.foldl (fun c y => setRowPoint c y v) c

/-- A step of a partition ends: an engine that explores counts it, and returns to its choice after 64 (R434). A row
that throttling holds down is not raised (R445). -/
def exploreStep (c : Chip) (p : Nat) (k : EngineKind) : Chip :=
  let key := p * 2 + engineIdx k
  match tfind c.pwr.exploring key with
  | none => c
  | some (base, left) =>
    if 1 < left then { c with pwr := { c.pwr with exploring := tins c.pwr.exploring key (base, left - 1) } }
    else
      let c1 := { c with pwr := { c.pwr with exploring := tdel c.pwr.exploring key } }
      if c.pwr.throttled then c1 else setRowPoints c1 (engineRows c1 p k) base

/-- Releases a step of works (t2): reservations, engines and the placements of layer 0. -/
def releaseStep (c : Chip) (p : Nat) (ws : List Work) (trimmed : Bool) : Chip :=
  let dec := ws.filter (fun w => decide (w.kind ≠ .chunk))
  let chk := ws.filter (fun w => decide (w.kind = .chunk))
  let engines := mkEngines c p dec chk
  let c1 := { c with fig := { c.fig with reserved := c.fig.reserved + (ws.map (·.stage)).sum } }
  let c2 := if trimmed then raise c1 .attn 18 else c1
  let c3 := ws.foldl (fun c w => joinStep c w.idx) c2
  let (v, c4) := if paceOf c3 p < 65536 then takeFree c3 else (1, c3)
  let ring := ringSplit c4
  let st : Step := { engines := engines, waitPeer := ring, paced := v % 2 = 0, affinity := affinity c4, spec := isOn c4 .spec }
  let c5 := setSched c4 p { schedPart c4 p with step := some st, holding := false }
  placeWaiting (if ring then c5 else setReg c5 aSCHED_PEER_WAIT 0) p

/-- Frees the blocks that a work staged and did not seal. -/
def freeStaged (c : Chip) (l : List Nat) : Chip := l.foldl freeBlock c

/-- Selection, reservations and release at a boundary (t1, t2). `force`: the batch hold has passed; `late`: the sessions
whose tree is not complete at t1 (R256). HEAP_FULL shows that TIER could not reserve a session's seals (R105). -/
def formStep (c : Chip) (p : Nat) (force : Bool) (late : List Word) : Chip :=
  let c0 := ratioAtBoundary c p
  let el0 := eligible c0 p
  let (el, ws, served) := serveSeals c0 late (el0.length + 1) el0
  let full := fun (c : Chip) => if isOn c .tier && decide (el.length < el0.length) then raise c .tier 17 else c
  let dec := el.filter (fun x => !isChunk x.2)
  let chk := el.filter (fun x => isChunk x.2)
  let shown := fun (c : Chip) => full (setRegB c p aSCHED_QUEUE (w32 (min 65535 chk.length * 65536 + min 65535 dec.length)))
  let (need, us) := batchHold c0
  if el.isEmpty then
    let c1 := shown c0
    setSched c1 p { schedPart c1 p with holding := false }
  else if !force ∧ chk.isEmpty ∧ us ≠ 0 ∧ dec.length < need then
    let c1 := shown c0
    setSched c1 p { schedPart c1 p with holding := true }
  else if (listOf c0 (rowsOf c0 p)).isEmpty then raise (shown c0) .sched 16
  else
    let c2 := shown served
    let (ws', trimmed) := reserveStage c2 ws
    let gone := ws.filter (fun w => ws'.all (fun x => x.idx ≠ w.idx))
    let c3 := gone.foldl (fun c w => freeStaged c w.blocks) c2
    let c4 := leftOut c3 p (el.length - ws'.length)
    if ws'.isEmpty then c4 else releaseStep c4 p ws' trimmed

/-! ### Pre-emption at a boundary (R51, R234) -/

/-- The running operation of a session that PARK, END or SECURE_END pre-empts completes, and the next is due. It needs
no figure: that of the pre-empting operation sets STATE (R61). -/
def preemptRunning (c : Chip) (i : Nat) : Chip :=
  match opsOf c i with
  | o :: n :: _ =>
    if o.started ∧ o.phase = .ready ∧ preempts n.code ∧ !figWaits c i then
      endNow (bump c aSCHED_PREEMPT_CNT 1) i { o with preempted := true } stOK
    else c
  | _ => c

/-- Operations left at the head of a queue by an APPEND or GENERATE become due at a boundary (R48). -/
def dueAtBoundary (c : Chip) (p : Nat) : Chip :=
  { c with sess := { c.sess with ops := c.sess.ops.map (fun e =>
      match e.2 with
      | o :: r => if (entry c e.1).part = p ∧ o.phase = .queued ∧ !figWaits c e.1 then (e.1, { o with phase := .due } :: r) else e
      | [] => e) } }

/-- What a boundary does to the queues of a partition. -/
def boundaryQueues (c : Chip) (p : Nat) : Chip :=
  let l := (c.sess.ops.filter (fun e => decide ((entry c e.1).part = p))).map (·.1)
  kick (dueAtBoundary (l.foldl preemptRunning c) p)

/-- CORE_TEST_END; a step that waits for a core takes it (R232). -/
def execCoreTestEnd (core : CoreId) (res : TestResult) (s : State) : Host.Outcome State Fault Refusal :=
  act s (fun c => whenAwake c (fun c => parts8.foldl placeWaiting (coreTestEnd c core.toNat res)))

/-- PLACEMENT_DONE; a layer that waits for a core takes it (R232). -/
def execPlacementDone (core : CoreId) (cycles : Word) (s : State) : Host.Outcome State Fault Refusal :=
  act s (fun c => whenAwake c (fun c => parts8.foldl placeWaiting (placementDone c core.toNat cycles.toNat)))

/-! ### The engine ratio and split models -/

/-- RATIO_JUDGE (R229): after each window of 64 steps. -/
def ratioJudge (c : Chip) (p : Nat) : Chip :=
  let x := schedPart c p
  let w := regB c p aSCHED_RATIO_CFG
  let h := max 1 (fld w 19 16)
  if x.window < 64 ∨ isUp c .sched = false then c
  else
    let x0 := { x with window := 0, cLast := 0, dLast := 0 }
    let cur := x.chunkNext.getD x.chunkRows
    let want := if x.dLast + h ≤ x.cLast then cur + 1 else if x.cLast + h ≤ x.dLast then cur - 1 else cur
    let v := boundRows c p want
    if bit w 31 = false ∨ v = cur then setSched c p x0
    else raise (setSched c p { x0 with chunkNext := some v }) .sched 17

/-- RATIO_JUDGE. -/
def execRatioJudge (part : Part) (s : State) : Host.Outcome State Fault Refusal :=
  act s (fun c => whenAwake c (fun c => ratioJudge c part.toNat))

/-- ACTIVATIONS_ARRIVED (R238): the previous module's activations release the step's first layer. -/
def activationsArrived (c : Chip) (p : Nat) (waited compute : Word) : Chip :=
  match (schedPart c p).step with
  | none => c
  | some st =>
    if st.waitPeer = false then c
    else
      let c1 := setReg c aSCHED_PEER_WAIT waited
      let c2 := if compute.toNat < waited.toNat then raise c1 .sched 20 else c1
      placeWaiting (setSched c2 p { schedPart c2 p with step := some { st with waitPeer := false } }) p

/-- ACTIVATIONS_ARRIVED. -/
def execActivationsArrived (part : Part) (waited compute : Word) (s : State) : Host.Outcome State Fault Refusal :=
  act s (fun c => whenAwake c (fun c => activationsArrived c part.toNat waited compute))

end Sys2Proof.Machine
end

