-- ==== Sys2Proof/Machine/StepEnd.lean ====
section
/-! DEFINITION. The end of a layer and of a step (R192-R194, R198, R212-R215, R230, R249-R264, R276-R291): scatter,
draws, the walk, stop strings, sealing, the step figures, and the command LAYER_END. -/

namespace Sys2Proof.Machine

/-! ### A GENERATE in progress -/

/-- The request of a GENERATE. -/
def genReq (o : Op) : Option GenReq :=
  match o.arg with
  | .generate r => some r
  | _ => none

/-- The text of a generated token: EOS and special tokens give no bytes (R276; log entry 44). -/
def genText (c : Chip) (i : Nat) (req : GenReq) (t : Nat) : List Byte :=
  if eosOf req.samp = some t then [] else tokenBytes c (entry c i).model t

/-- The text of a list of generated tokens. -/
def genTexts (c : Chip) (i : Nat) (req : GenReq) (l : List Nat) : List Byte := l.flatMap (genText c i req)

/-- The committed grammar stack as a GENERATE begins with it (R280). -/
def stackNow (c : Chip) (i : Nat) : List Nat :=
  let g := (entry c i).grammar
  if g = 0xFFFF then [] else gramBegin c g (body c i).gram

/-- The grammar stack after a path of tokens. -/
def stackAfter (c : Chip) (i : Nat) (req : GenReq) (l : List Nat) : List Nat :=
  let e := entry c i
  l.foldl (gramAdvance c e.grammar e.model (eosOf req.samp)) (stackNow c i)

/-- The code with which a token ends the generation after a path of tokens not yet committed (R263). -/
def finalStatus (c : Chip) (i : Nat) (o : Op) (req : GenReq) (path : List Nat) (x : Nat) : Option Nat :=
  let b := body c i
  let h := histPush (histOf b) (genTexts c i req path)
  if eosOf req.samp = some x then some stEos
  else if (stopMatch b.stops h (genText c i req x) 0).isSome then some stString
  else if req.maxNew.toNat ≤ o.tokensOut + path.length + 1 ∨
      (entry c i).maxLen ≤ (entry c i).length + path.length + 1 then some stLimit
  else none

/-! ### Scatter (R212) -/

/-- Stores the fresh rows of one attention layer in the works they belong to. -/
def storeFresh (c : Chip) (s : LayerShape) (l : List FreshKV) (w : Work) : Work :=
  let rows := ((l.find? (fun f => f.handle = handleOf c w.idx && f.layer = s.layer)).map (·.rows)).getD []
  { w with fresh := (List.range w.rows).foldl (fun t r =>
      tins t (r * 256 + s.layer) (padTo (rowBytes s) (rows.getD r []))) w.fresh }

/-- Writes a work's rows of a layer into the open group's tail slots: every row but the nodes off the spine and a
replay row. -/
def scatterWork (c : Chip) (s : LayerShape) (w : Work) : Chip :=
  let e := entry c w.idx
  match w.kind with
  | .replay => c
  | _ =>
    let spn := spine w.tree
    (List.range w.rows).foldl (fun c r =>
      let p := e.length % 128 + rowDepth w r
      if p < 128 ∧ (decide (w.kind ≠ .carried) || r ∈ spn) then
        putMem c (tailAddr c e.tailBase e.model s p) (freshRow w s r)
      else c) c

/-- Stores the recurrent state of a recurrent layer after each row of a work (R211). -/
def storeRecur (c : Chip) (k : Nat) (l : List (Word × List (List Byte))) (w : Work) : Work :=
  let rows := ((l.find? (fun x => x.1 = handleOf c w.idx)).map (·.2)).getD []
  { w with recur := (numbered (rows.take w.rows)).foldl (fun t r => tins t (r.1 * 256 + k) r.2) w.recur }

/-- The place of an engine's layer among the recurrent layers of its slot. -/
def recurIndex (c : Chip) (e : Engine) : Nat := (((layerTable c e.slot).take e.layer).filter (fun d => ldKind d = 2)).length

/-- What an engine's layer leaves: attention outputs, stored rows, tail slots, SCATTER_BYTES, MERGE_MAX (R207-R217); the
states of a recurrent layer (R211). -/
def scatterLayer (c : Chip) (e : Engine) (res : LayerResult) : Engine × Chip :=
  let d := layerDesc c e.slot e.layer
  if ldKind d = 2 then ({ e with works := e.works.map (storeRecur c (recurIndex c e) res.recur) }, c)
  else if isAttn d = false then (e, c)
  else
    let k := attnIndex c e
    match (shapes c e.slot)[k]? with
    | none => (e, c)
    | some s =>
      let (ws, c0) := attendLayer c e s res.queries (e.works.map (storeFresh c s res.fresh))
      let c1 := ws.foldl (fun c w => scatterWork c s w) c0
      let n := ((ws.filter (fun w => decide (w.kind ≠ .replay))).map (·.rows)).sum
      let c2 := bumpPair c1 aATTN_SCATTER_BYTES_LO (n * rowBytes s)
      let m := max (fld (reg c2 aATTN_MERGE_MAX) 15 0) res.mergeCycles.toNat
      ({ e with works := ws }, setFld c2 aATTN_MERGE_MAX 15 0 m)

/-! ### Draws (R249-R254, R261, R281-R283) -/

/-- Tokens pending above and at a row: the path from the root (R261). -/
def pendingPath (w : Work) (r : Nat) : List Nat :=
  match w.kind with
  | .carried => pathTokens w.tree r
  | _ => []

/-- What SAMP gives for a row. Where the slot's logits are not SLOT_VOCAB many, or its tables were changed while
valid, the token is open (R536). -/
def drawRowAt (c : Chip) (i : Nat) (req : GenReq) (w : Work) (r : Nat) (logits : List Word) (v : Nat) : Drawn :=
  let e := entry c i
  let path := pendingPath w r
  let vocab := slotVocab c e.model
  let pos := if w.kind = .replay then e.length - 1 else e.length + (path.length - 1)
  if logits.length ≠ vocab ∨ layersOpen c e.model ∨ vocabOpen c e.model then
    { token := some (v % max 1 vocab), nanRow := false }
  else
    let tab := (enterTokens (body c i).counts e.length path).1
    let st := stackAfter c i req path
    let eos := eosOf req.samp
    let sup := suppressEos req.samp
    drawRow req.samp logits
      (fun t => maskBit c e.grammar e.model st eos sup t && !(sup && eos = some t))
      (visibleCount tab req.samp.window.toNat pos) e.prngKey (e.prngCtr + w64 path.length) v

/-- The counts of a row's mask and distribution: MASK_CNT, SLOW_MASK, DIST_CNT, NAN_ROW. How long a draw waited for
its mask, and whether the mask waited for the work region, is not given: MASK_LATE and WORK_LOW are free (log entry 45). -/
def countDraw (c : Chip) (i : Nat) (req : GenReq) (w : Work) (r : Nat) (d : Drawn) : Chip :=
  let g := (entry c i).grammar
  let st := stackAfter c i req (pendingPath w r)
  let c1 := if g = 0xFFFF then c
    else
      let (v, c0) := takeFree (bumpPair (vocabMisses c (entry c i).model) aTEXT_MASK_CNT_LO 1)
      let c1 := if v / 2 % 2 = 1 then raise c0 .text 19 else c0
      let c2 := if slowMask c1 g st then raise c1 .text 20 else c1
      if v % 2 = 0 then c2
      else
        let m := max (fld (reg c2 aTEXT_MASK_LATE_MAX) 15 0) (v / 4 % 65536)
        raise (setFld (bump c2 aTEXT_MASK_LATE_CNT 1) aTEXT_MASK_LATE_MAX 15 0 m) .text 16
  let c3 := if d.token.isSome then bumpPair c1 aSAMP_DIST_CNT_LO 1 else c1
  if d.nanRow then raise (bump c3 aSAMP_NAN_ROW_CNT 1) .samp 17 else c3

/-- Draws every sampled row of a work; a closing row and chunk rows are not sampled (R192). -/
def drawWork (c : Chip) (res : LayerResult) (w : Work) : Work × Chip :=
  match (opsOf c w.idx).head?.bind genReq with
  | none => (w, c)
  | some req =>
    if w.kind = .chunk ∨ w.kind = .closing then (w, c)
    else
      (List.range w.rows).foldl (fun (a : Work × Chip) r =>
        let row := res.logits.find? (fun x => x.handle = handleOf a.2 w.idx && x.node = r)
        let (v, c1) := takeFree a.2
        let d := drawRowAt c1 w.idx req a.1 r ((row.map (·.logits)).getD []) v
        let c2 := countDraw c1 w.idx req a.1 r d
        match d.token with
        | some t => ({ a.1 with draws := tins a.1.draws r t }, c2)
        | none => ({ a.1 with deadNodes := a.1.deadNodes ++ [r] }, c2)) (w, c)

/-- The outputs of this module's last layer go on to the next module of the ring (R238, R506): as writes on NEXT, whose
region and offset the manual does not give (log entry 117). -/
def sendOutputs (c : Chip) (bytes : List Byte) : Chip :=
  let (tag, c1) := takeFree c
  let (off, c2) := takeFree c1
  let n := fld (reg c aCHIP_SPLIT_CONN) 29 16
  settleEvents (sendAll c2 n ((numbered (chunksOf bytes.length 4096 bytes)).map (fun e =>
    { typ := 1, tag := w32 tag, offset := w64 (off + 4096 * e.1), payload := e.2 })) .plain)

/-- The last layer of an engine: the draws; how long they took is measured. Under RING_SPLIT its outputs are sent on. -/
def endEngine (c : Chip) (e : Engine) (res : LayerResult) : Engine × Chip :=
  let r := e.works.foldl (fun (a : List Work × Chip) w =>
    let (w1, c1) := drawWork a.2 res w
    (a.1 ++ [w1], c1)) ([], c)
  let (v, c1) := takeFree r.2
  let m := max (fld (reg c1 aSAMP_BUSY_MAX) 15 0) (v % 65536)
  let c2 := if res.logits.isEmpty then c1 else setFld c1 aSAMP_BUSY_MAX 15 0 m
  ({ e with works := r.1, ended := true, pieces := [] }, if ringSplit c2 then sendOutputs c2 res.outputs else c2)

/-! ### Trees (R256-R259) -/

/-- The echo continuations of a GENERATE; a revoked registration gives none and sets ECHO_LOST. -/
def echoChains (c : Chip) (o : Op) (b : SpecBlock) (root : Nat) : List (List Nat) × Chip :=
  if srcEcho b = false then ([], c)
  else if regionActive c b.echoTag = false then ([], raise c .spec 16)
  else
    let (hi, lo) := echoMatch c
    (echoFrom (echoSeq c b o.recent root) (treeDepth c b) b.echoBranches.toNat lo hi, c)

/-- A slot is a draft model for a target (R259): only layers of KIND 3, and as many tokens. A slot that is neither proposes
nothing (log entry 118). -/
def isDraftModel (c : Chip) (slot target : Nat) : Bool :=
  (layerTable c slot).all (fun d => decide (ldKind d = 3)) && decide (slotVocab c slot = slotVocab c target)

/-- The node that the draft model's first level extends: the root, where the source is enabled. A draft slot that is not
valid proposes nothing and sets DRAFT_LOST. -/
def draftBegin (c : Chip) (i : Nat) (b : SpecBlock) : Option Nat × Chip :=
  if srcDraft b = false then (none, c)
  else if modelValid c b.draftSlot.toNat = false then (none, raise c .spec 17)
  else (if isDraftModel c b.draftSlot.toNat (entry c i).model then some 0 else none, c)

/-- What the grammar lets follow a path of tokens from the root, with the stack before it (R256, R281). -/
def treeAllows (c : Chip) (i : Nat) (req : GenReq) (stack : List Nat) (path : List Nat) (t : Nat) : Bool :=
  let e := entry c i
  let eos := eosOf req.samp
  maskBit c e.grammar e.model (path.foldl (gramAdvance c e.grammar e.model eos) stack) eos (suppressEos req.samp) t

/-- The tree of the next step from its carried token, with the grammar stack before that token (R256): the host chain, then
the echo continuations; and the node that the draft model extends next. -/
def buildTree (c : Chip) (i : Nat) (o : Op) (req : GenReq) (stack : List Nat) (root : Nat) :
    List TreeNode × Option Nat × Chip :=
  let b := req.spec
  let base : List TreeNode := [{ token := root, parent := 0 }]
  if b.sources = 0 ∨ isOn c .spec = false then (base, none, c)
  else
    let host := match o.hostAt with
      | some a => [(req.drafts.drop a).map (fun t => t.toNat % 2 ^ 20)]
      | none => []
    let (echo, c1) := echoChains c o b root
    let (at_, c2) := draftBegin c1 i b
    ((host ++ echo).foldl (fun tr ch =>
      insertChain (treeNodes c b) (treeDepth c b) (treeAllows c i req stack) ch 0 tr) base, at_, c2)

/-- The host source after the tokens that a step drew (R257). -/
def advanceHost (c : Chip) (o : Op) (req : GenReq) (l : List Nat) : Op × Chip :=
  match o.hostAt with
  | none => (o, c)
  | some a =>
    let (next, off) := hostAdvance (req.drafts.map (fun t => t.toNat % 2 ^ 20)) l a
    ({ o with hostAt := next }, if off then raise c .spec 18 else c)

/-- The operation with its drawn token: final, or carried with the next tree (R192, R194, R256). `path`: the tokens
that this step's figure commits; `seen`: what the host source compares. -/
def carryToken (c : Chip) (i : Nat) (o : Op) (req : GenReq) (path seen : List Nat) (x : Nat) : Op × Chip :=
  let (o1, c1) := advanceHost c o req seen
  let o2 := { o1 with phase := .ready, recent := (o.recent ++ path).drop (o.recent.length + path.length - 256) }
  if (finalStatus c i o req path x).isSome then ({ o2 with final := some x, carried := none, tree := [], draftAt := none }, c1)
  else
    let (tr, at_, c2) := buildTree c1 i o2 req (stackAfter c i req path) x
    ({ o2 with carried := some x, tree := tr, draftAt := at_ }, c2)

/-! ### The step figure (R69, R94, R213, R264) -/

/-- The rows of a layer that a figure commits, after the open group's tail. -/
def layerRows (c : Chip) (w : Work) (nodes : List Nat) (s : LayerShape) : List (List Byte) :=
  tailRows c w.idx s ((entry c w.idx).length % 128) ++ nodes.map (freshRow w s)

/-- Encodes one sealed block and writes it with its header (R94, R96). -/
def sealOne (c : Chip) (w : Work) (nodes : List Nat) (g k : Nat) (s : LayerShape) : Chip :=
  let e := entry c w.idx
  let rows := ((layerRows c w nodes s).drop (128 * (g - e.length / 128))).take 128
  let payload := encodePayload e.dense (smoothing c e.model) s 128 rows
  putMem c ((ledger c k).gddr.getD 0)
    (blockHeader e.dense e.model s g k (handleOf c w.idx) 0 payload ++ payload)

/-- Seals the groups that a figure completes: its BLOCK_REF actions, the staged blocks left, and the chip. -/
def sealGroups (c : Chip) (w : Work) (nodes : List Nat) : List Action × List Nat × Chip :=
  let e := entry c w.idx
  let sh := shapes c e.model
  let g0 := e.length / 128
  (List.range ((e.length + nodes.length) / 128 - g0)).foldl (fun (a : List Action × List Nat × Chip) j =>
    let es := a.2.1.take sh.length
    let c1 := (sh.zip es).foldl (fun c x => sealOne c w nodes (g0 + j) x.2 x.1) a.2.2
    (a.1 ++ [.blockRef ((numbered es).map (fun x => ((g0 + j) * sh.length + x.1, x.2)))], a.2.1.drop sh.length, c1)) ([], w.blocks, c)

/-- The tail slots that a figure's application fills from the staging pool: the positions of the last group, when the
figure completes the open one (R70). -/
def stagedTails (c : Chip) (w : Work) (nodes : List Nat) : Tbl (List Byte) :=
  let e := entry c w.idx
  let stop := e.length + nodes.length
  if stop / 128 = e.length / 128 then []
  else
    (shapes c e.model).flatMap (fun s =>
      (numbered ((layerRows c w nodes s).drop (128 * (stop / 128 - e.length / 128)))).map (fun r =>
        (tailAddr c e.tailBase e.model s r.1, r.2)))

/-- Compaction (R213): accepted rows of the open group at their positions. -/
def compact (c : Chip) (w : Work) (nodes : List Nat) : Chip :=
  let e := entry c w.idx
  let c1 := (shapes c e.model).foldl (fun c s =>
    (numbered nodes).foldl (fun c r =>
      let p := e.length % 128 + r.1
      if p < 128 then putMem c (tailAddr c e.tailBase e.model s p) (freshRow w s r.2) else c) c) c
  let off := (nodes.filter (fun n => n ∉ spine w.tree)).length
  match w.kind with
  | .carried => bumpPair c1 aATTN_COMPACT_BYTES_LO (off * posBytes c1 e.model)
  | _ => c1

/-- The recurrent state that the application copies: that after the last committed row, layer by layer (R211). -/
def stagedRecur (c : Chip) (w : Work) (nodes : List Nat) : Tbl (List Byte) :=
  let e := entry c w.idx
  let sizes := recurSizes c e.model
  match nodes.getLast? with
  | none => []
  | some r => (numbered sizes).filterMap (fun k =>
      (tfind w.recur (r * 256 + k.1)).map (fun l =>
        (recurAddr c e.tailBase e.model + (sizes.take k.1).sum, padTo k.2 l)))

/-- Releases the reservation of a work (R227). -/
def unreserve (c : Chip) (w : Work) : Chip :=
  { c with fig := { c.fig with reserved := c.fig.reserved - w.stage } }

/-- Opens a session's step figure: positions, seals, further actions, the entry's new value, and what follows. -/
def stepFigure (c : Chip) (w : Work) (nodes : List Nat) (acts : List Action) (new : Session) (after : List After) :
    Chip :=
  let e := entry c w.idx
  let c1 := compact (unreserve c w) w nodes
  let (refs, rest, c2) := sealGroups c1 w nodes
  let stage := stagedTails c2 w nodes ++ stagedRecur c2 w nodes
  let new' := { new with tailDecoded := e.tailDecoded && refs.isEmpty }
  openFig (freeStaged c2 rest)
    { subjects := [.session w.idx]
      acts := .kvAppend e.length nodes.length stage :: (refs ++ acts ++ dirDiff false e new')
      origin := .step, staged := w.stage, after := after }

/-- A work that commits nothing: its reservation and staged blocks are released. -/
def voidWork (c : Chip) (w : Work) : Chip := freeStaged (unreserve c w) w.blocks

/-- The step figure of a work as far as it stands when it aborts: the positions that it appends (log entry 95). -/
def openStepFig (c : Chip) (w : Work) : Figure :=
  { subjects := [.session w.idx], acts := [.kvAppend (entry c w.idx).length w.rows []], origin := .step, staged := 0,
    after := [] }

/-- A work whose figure aborts (R80): an abort record is written, and its reservation and staged blocks are released. A
replay row has no figure. -/
def abortWork (c : Chip) (w : Work) : Chip :=
  let c1 := voidWork c w
  if w.kind = .replay then c1 else abortOpen c1 (openStepFig c w)

/-- COUNT_BATCH of tokens at positions from LENGTH (R247), with COUNT_DROP. -/
def countBatch (c : Chip) (i : Nat) (l : List Nat) : List Action × Chip :=
  let (_, written, dropped) := enterTokens (body c i).counts (entry c i).length l
  (countBatches written,
   if dropped = 0 then c else raise (bump c aSAMP_COUNT_DROP dropped) .samp 16)

/-- GRAMMAR_DEAD_END (R250, R284). -/
def deadEnd (c : Chip) (i : Nat) : Chip :=
  finishOp (raise (bump c aSAMP_DEAD_END_CNT 1) .samp 18) i stDeadEnd

/-! ### The end of each kind of work -/

/-- A replay row: its token is carried, or it ends the GENERATE (R194, R250). -/
def finishReplay (c : Chip) (w : Work) (o : Op) (req : GenReq) : Chip :=
  let c1 := abortWork c w
  match tfind w.draws 0 with
  | none => deadEnd c1 w.idx
  | some x =>
    let (o1, c2) := carryToken c1 w.idx o req [] [x] x
    setHead c2 w.idx o1

/-- Bytes of held text after more text: what is released and what stays held (R289). -/
def releaseText (b : Body) (incl : Bool) (held new : List Byte) : List Byte × List Byte :=
  let l := held ++ new
  let n := if incl ∨ b.stops.all (fun s => s.isEmpty) then 0
    else min l.length (holdLen b.stops (histPush (histOf b) new))
  (l.take (l.length - n), l.drop (l.length - n))

/-- The walk of a carried row's tree, and its figure (R262-R264). -/
def finishCarried (c : Chip) (w : Work) (o : Op) (req : GenReq) : Chip :=
  let i := w.idx
  let e := entry c i
  let b := body c i
  let ends := fun path x => (finalStatus c i o req path x).isSome
  let (path, bonus) := walkFrom w.tree (fun n => tfind w.draws n) ends 16 [] 0
  let c0 := bumpPair c aSPEC_PROPOSED_LO (w.tree.length - 1)
  match bonus with
  | none => deadEnd (abortWork c0 w) i
  | some x =>
    let toks := path.map (fun n => (nodeAt w.tree n).token)
    let c1 := bumpPair c0 aSPEC_ACCEPTED_LO (path.length - 1)
    let new := genTexts c i req toks
    let (text, held) := releaseText b e.stopInclude o.held new
    let (o1, c2) := carryToken c1 i o req toks (toks.drop 1 ++ [x]) x
    let o2 := { o1 with
      tokensOut := o.tokensOut + toks.length, textBytes := o.textBytes + text.length
      genBytes := o.genBytes + new.length, held := held }
    let (cb, c3) := countBatch c2 i toks
    let acts := toks.map (fun t => Action.tokenEmit t (genText c i req t).length) ++ cb ++
      (if e.grammar = 0xFFFF then [] else [.grammarSet (stackAfter c i req toks)]) ++
      [.stopSet (histPush (histOf b) new) b.stops]
    let rec_ : OutRec := { handle := o.handle, tag := o.tag, firstPos := e.length, tokens := toks, text := text,
                           stopCut := false, flush := false, figSeq := none }
    let c4 := vocabMisses (bumpPairB c3 e.part aTEL_TOKENS_OUT_LO toks.length) e.model
    stepFigure c4 w path acts
      { e with length := e.length + toks.length, prngCtr := e.prngCtr + w64 toks.length }
      [.send o.conn (.out rec_), .opUpdate i o2]

/-- The text that a final token releases: (text, overhang, string index) (R288, R290, R291). -/
def finalText (b : Body) (incl : Bool) (held bytes : List Byte) (status : Nat) : List Byte × List Byte × Nat :=
  match (if status = stString then stopMatch b.stops (histOf b) bytes 0 else none) with
  | none => (held ++ bytes, [], 0xFF)
  | some (n, k, len) =>
    let l := held ++ bytes.take n
    ((if incl then l else l.take (l.length - len)), bytes.drop n, k)

/-- The closing row commits the final token and ends the GENERATE (R64, R194, R290, R291). -/
def finishClosing (c : Chip) (w : Work) (o : Op) (req : GenReq) : Chip :=
  let i := w.idx
  let e := entry c i
  let b := body c i
  let t := o.final.getD 0
  let st := (finalStatus c i o req [] t).getD stLimit
  let bytes := genText c i req t
  let (text, ovh, idx) := finalText b e.stopInclude o.held bytes st
  let (cb, c1) := countBatch c i [t]
  let acts := [Action.tokenEmit t bytes.length] ++ cb ++
    (if e.grammar = 0xFFFF then [] else [.grammarSet (stackAfter c i req [t])]) ++
    [.stopSet (histPush (histOf b) bytes) b.stops]
  let new := { e with length := e.length + 1, prngCtr := e.prngCtr + 1, state := .ready }
  let o1 := { o with tokensOut := o.tokensOut + 1, textBytes := o.textBytes + text.length, held := [] }
  let rec_ : OutRec := { handle := o.handle, tag := o.tag, firstPos := e.length, tokens := [t], text := text,
                         stopCut := decide (st = stString), flush := false, figSeq := none }
  let cr : CompRec := { compRec o1 st new with
    stopIncluded := decide (st = stString) && e.stopInclude, overhang := ovh, stopIndex := idx }
  let c2 := if st = stString then bump c1 aTEXT_STOP_CNT 1 else c1
  let c3 := vocabMisses (bumpPairB c2 e.part aTEL_TOKENS_OUT_LO 1) e.model
  stepFigure c3 w [0] acts new [.send o.conn (.out rec_), .send o.conn (.comp cr), .opDone i st]

/-- A chunk commits its positions; the last one ends the APPEND (R45, R225, R247, R287). -/
def finishChunk (c : Chip) (w : Work) (o : Op) : Chip :=
  let i := w.idx
  let e := entry c i
  let n := w.rows
  let (cb, c1) := if bit (reg c aSAMP_CFG) 0 then countBatch c i w.tokens else ([], c)
  let o1 := { o with phase := .ready, tokens := o.tokens.drop n, tokensIn := o.tokensIn + n }
  let done := o1.tokens.isEmpty
  let new := { e with length := e.length + n, state := if done then .ready else e.state }
  let c2 := bumpPairB c1 e.part aTEL_TOKENS_IN_LO n
  stepFigure c2 w (List.range n) (cb ++ [.stopSet histReset (body c i).stops]) new
    (if done then [.send o.conn (.comp (compRec o1 stOK new)), .opDone i stOK] else [.opUpdate i o1])

/-- The end of one session's part of a step. -/
def finishWork (c : Chip) (w : Work) : Chip :=
  match opsOf c w.idx with
  | o :: _ =>
    if o.phase ≠ .running then abortWork c w
    else if w.bad then hurtSession (abortWork c w) w.idx
    else
      match w.kind, genReq o with
      | .chunk, _ => finishChunk c w o
      | .replay, some req => finishReplay c w o req
      | .carried, some req => finishCarried c w o req
      | .closing, some req => finishClosing c w o req
      | _, none => abortWork c w
  | [] => abortWork c w

/-! ### The end of a step -/

/-- Operations that a drain timeout ends once the running step ends (R243, R267, R295). -/
def endDrained (c : Chip) (p : Nat) : Chip :=
  let l := (c.sess.ops.filter (fun e => decide ((entry c e.1).part = p) &&
    ((e.2.head?.map (fun o => o.drainEnd)).getD false))).map (·.1)
  l.foldl (fun c i => finishOp c i stAbortDrain) c

/-- A step of a partition is over: STEP_CNT, LAST_STEP, and the window of R229 from what its layers left. A step that ended
before its last layer has measured no time: LAST_STEP is free then (log entry 119). -/
def closeStep (c : Chip) (p : Nat) (tail : Option StepTail) : Chip :=
  let (v, c1) := takeFree c
  let t := tail.getD { last := none, stat := w32 v }
  let x := schedPart c1 p
  let open_ := decide (x.window < 64)
  let c2 := setSched c1 p { x with
    step := none
    window := x.window + b2n open_
    cLast := x.cLast + b2n (open_ && decide (t.last = some .chunk))
    dLast := x.dLast + b2n (open_ && decide (t.last = some .decode)) }
  let c3 := setRegB (bumpPairB c2 p aSCHED_STEP_CNT_LO 1) p aSCHED_LAST_STEP t.stat
  let c4 := { c3 with ckpt := { c3.ckpt with stepsSince := c3.ckpt.stepsSince + 1 } }
  exploreStep (exploreStep c4 p .decode) p .chunk

/-- A step figure of a partition waits to open. -/
def stepFigWaits (c : Chip) (p : Nat) : Bool :=
  c.fig.waiting.any (fun f => decide (f.origin = .step) && f.subjects.any (fun s =>
    match s with
    | .session i => decide ((entry c i).part = p)
    | _ => false))

/-- The operations of a partition whose trees the draft model extends. -/
def draftOps (c : Chip) (p : Nat) : List (Nat × Op) :=
  c.sess.ops.filterMap (fun e =>
    match e.2 with
    | o :: _ => if (entry c e.1).part = p ∧ o.draftAt.isSome then some (e.1, o) else none
    | [] => none)

/-- This module's outputs have been sent on: nothing waits on their connection (R238). -/
def sentOn (c : Chip) (st : Step) : Bool :=
  match st.sendTo with
  | none => true
  | some n => (conn c n).txWait.isEmpty

/-- What follows the last layer (R219, R220, R238, R259): once every figure of the step has committed or aborted, the draft
model's levels; once these are done, the outputs sent on; then the step ends. -/
def advanceStep (c : Chip) (p : Nat) : Chip :=
  match (schedPart c p).step with
  | none => c
  | some st =>
    let last := fun (c : Chip) => if sentOn c st then endDrained (closeStep c p st.tail) p
      else setSched c p { schedPart c p with step := some { st with phase := .sending } }
    match st.phase with
    | .layers => c
    | .figures =>
      if stepFigWaits c p then c
      else if draftOps c p ≠ [] then
        placeWaiting (setSched c p { schedPart c p with step := some { st with phase := .draft 1 [] } }) p
      else last c
    | .draft _ cores => if cores.isEmpty ∧ draftOps c p = [] then last c else c
    | .sending => last c

/-- The layers of a step are over: its figures in step order, then what is left of it. -/
def endLayers (c : Chip) (p : Nat) (st : Step) (res : LayerResult) (last : EngineKind) : Chip :=
  let c1 := (st.engines.flatMap (·.works)).foldl finishWork c
  let two := decide (st.engines.length = 2) && res.endedLast
  let st1 : Step := { st with
    engines := st.engines.map (fun e => { e with works := [] })
    phase := .figures
    sendTo := if ringSplit c1 then some (fld (reg c1 aCHIP_SPLIT_CONN) 29 16) else none
    tail := some { last := if two then some last else none
                   stat := w32 (res.slowCore.toNat * 2 ^ 24 + res.time.toNat) } }
  advanceStep (setSched c1 p { schedPart c1 p with step := some st1 }) p

/-- Placements of an engine on a list of cores are over: every one has reported done (R233). -/
def coresDone (c : Chip) (k : EngineKind) (cores : List Nat) : Bool :=
  !cores.isEmpty && cores.all (fun n =>
    let x := coreAt c n
    !(decide (x.state = .busy ∨ x.state = .draining) && decide (x.owner % 2 = engineIdx k)) &&
      x.queued.all (fun q => decide (q.1 % 2 ≠ engineIdx k)))

/-- One engine's layer is over on its cores. -/
def layerDone (c : Chip) (e : Engine) : Bool := coresDone c e.kind e.cores

/-! ### The draft model (R259) -/

/-- The greatest of some logits, the lowest token first among equals (log entry 118). -/
def bestToken (l : List (Nat × Word)) : Option (Nat × Word) :=
  l.foldl (fun a x =>
    match a with
    | none => some x
    | some b => if fpLt (fpOf b.2) (fpOf x.2) then some x else a) none

/-- The `n` tokens of greatest logit. -/
def topTokens : Nat → List (Nat × Word) → List Nat
  | 0, _ => []
  | n + 1, l =>
    match bestToken l with
    | none => []
    | some b => b.1 :: topTokens n (l.filter (fun x => x.1 ≠ b.1))

/-- One level: the DRAFT_WIDTH tokens of greatest logit become children of the node, and the next level extends the highest
of them, up to MAX_DEPTH. While SPEC is not ON it builds no trees (R269). -/
def draftLevel (c : Chip) (level : Nat) (l : List (Word × List Word)) (x : Nat × Op) : Chip :=
  let o := x.2
  match genReq o, o.draftAt, l.find? (fun y => y.1 = handleOf c x.1) with
  | some req, some n, some y =>
    if isOn c .spec = false then setHead c x.1 { o with draftAt := none }
    else
      let b := req.spec
      let toks := topTokens b.draftWidth.toNat ((numbered y.2).filter (fun v => !fpNan (fpOf v.2)))
      let tr := toks.foldl (fun tr t =>
        insertChain (treeNodes c b) (treeDepth c b) (treeAllows c x.1 req (stackNow c x.1)) [t] n tr) o.tree
      let next := (childrenOf tr n).find? (fun k => decide (some (nodeAt tr k).token = toks.head?))
      setHead c x.1 { o with tree := tr, draftAt := if level < treeDepth c b then next else none }
  | _, _, _ => setHead c x.1 { o with draftAt := none }

/-- The end of a level of the draft model: the next level, or the rest of the step. -/
def draftEnd (c0 : Chip) (p : Nat) (st : Step) (level : Nat) (res : LayerResult) : Chip :=
  let c := settle c0
  let c1 := (draftOps c p).foldl (fun c x => draftLevel c level res.drafts x) c
  let c2 := setSched c1 p { schedPart c1 p with step := some { st with phase := .draft (level + 1) [] } }
  if (draftOps c2 p).isEmpty then advanceStep c2 p else placeWaiting c2 p

/-! ### Boundaries -/

/-- STEP_BOUNDARY: the running step's rest, the queues, then the next step; a running step takes cores that became FREE
(R232). -/
def stepBoundary (c0 : Chip) (p : Nat) (late : List Word) : Chip :=
  let c := advanceStep c0 p
  if (schedPart c p).step.isSome then placeWaiting c p
  else
    let c1 := settle (boundaryQueues (settle c) p)
    if canForm c1 p then formStep c1 p false late else c1

/-- STEP_BOUNDARY. -/
def execStepBoundary (part : Part) (late : List Word) (s : State) : Host.Outcome State Fault Refusal :=
  act s (fun c => whenAwake c (fun c => stepBoundary c part.toNat late))

/-- BATCH_HOLD_EXPIRY (R224). -/
def execBatchHoldExpiry (part : Part) (late : List Word) (s : State) : Host.Outcome State Fault Refusal :=
  act s (fun c => whenAwake c (fun c =>
    let p := part.toNat
    if (schedPart c p).holding ∧ canForm c p then formStep (settle (boundaryQueues (settle c) p)) p true late else c))

/-! ### The end of a layer -/

/-- A layer reads a DAMAGED block of a work's session (R108, R112). -/
def readsDamaged (c : Chip) (e : Engine) (w : Work) : Bool :=
  let d := layerDesc c e.slot e.layer
  isAttn d && (readBlocks c w.idx (attnIndex c e) (layerWindow d) (lowQuery c w)).any
    (fun k => decide ((ledger c k).state = .damaged))

/-- Marks the works whose data met an uncorrectable read (R160, R215). -/
def noteBad (c : Chip) (l : List Word) (e : Engine) : Engine :=
  { e with works := e.works.map (fun w =>
      { w with bad := w.bad || handleOf c w.idx ∈ l || readsDamaged c e w }) }

/-- LAYER_END (R214, R230, R233): scatter, then the next layer's placements, or the end of the engine and of the
step's layers; or the end of a level of the draft model. -/
def layerEnd (c : Chip) (p : Nat) (k : EngineKind) (res : LayerResult) : Chip :=
  match (schedPart c p).step with
  | none => c
  | some st =>
    match st.phase with
    | .figures => c
    | .sending => c
    | .draft level cores =>
      if k = .chunk ∨ c.flt.chipPending ∨ coresDone c .decode cores = false then c
      else kick (settle (draftEnd c p st level res))
    | .layers =>
      match st.engines.find? (fun e => e.kind = k && !e.ended) with
      | none => c
      | some e =>
        if st.waitPeer ∨ st.paced ∨ c.flt.chipPending ∨ layerDone c e = false then c
        else
          let (e1, c1) := scatterLayer c (noteBad c res.bad e) res
          let put := fun (x : Engine) => st.engines.map (fun y => if y.kind = k then x else y)
          if e1.layer + 1 < e1.layers then
            let (e2, c2) := placeLayer c1 p st { e1 with layer := e1.layer + 1 }
            setSched c2 p { schedPart c2 p with step := some { st with engines := put e2 } }
          else
            let (e2, c2) := endEngine c1 e1 res
            let st2 := { st with engines := put e2 }
            if st2.engines.all (·.ended) then kick (settle (endLayers (settle c2) p st2 res k))
            else setSched c2 p { schedPart c2 p with step := some st2 }

/-- LAYER_END. -/
def execLayerEnd (part : Part) (engine : EngineKind) (res : LayerResult) (s : State) :
    Host.Outcome State Fault Refusal :=
  act s (fun c => whenAwake c (fun c => layerEnd c part.toNat engine res))

end Sys2Proof.Machine
end

