-- ==== Sys2Proof/Machine/Xpt.lean ====
section
/-! DEFINITION. XPT (R311-R342): control packets, the receive windows, checks and placing of remote accesses,
message assembly, registrations, the states of a connection, retransmission and rate. -/

namespace Sys2Proof.Machine

/-! ### Acknowledgements (R318, R319) -/

/-- A control packet of a connection (R313, R322). -/
def ctlPkt (c : Chip) (n typ : Nat) : Pkt :=
  let k := conn c n
  { typ := BitVec.ofNat 4 typ, flags := if k.spray then 4 else 0, dst := BitVec.ofNat 16 k.remConn,
    src := BitVec.ofNat 16 n, nonce := k.remNonce }

/-- A number stands before another modulo 2^32 (R318). -/
def seqBefore (a b : Word) : Bool := 0 < (b - a).toNat && (b - a).toNat < 2 ^ 31

/-- The lowest number that is not acknowledged: CUM, or the lowest accepted packet that is not yet placed or
delivered (R319; log entry 46). -/
def ackCum (k : ConnSt) : Word :=
  k.rxPend.foldl (fun m s => if seqBefore s m then s else m) k.rxCum

/-- A number at or above CUM_SEQ that an ACK shows as accepted. -/
def ackHas (k : ConnSt) (s : Word) : Bool :=
  decide (s ∉ k.rxPend) && (seqBefore s k.rxCum || decide (s ∈ k.rxGot))

/-- The SACK bitmap (R319); none when no accepted packet stands above CUM_SEQ. -/
def sackBits (k : ConnSt) : List Byte :=
  let base := ackCum k
  if (List.range 1024).any (fun i => ackHas k (base + w32 i)) then
    (List.range 128).map (fun j =>
      (List.range 8).foldl (fun (b : Byte) i =>
        if ackHas k (base + w32 (8 * j + i)) then b ||| BitVec.ofNat 8 (2 ^ i) else b) 0)
  else []

/-- Sends an ACK (R319). -/
def sendAck (c : Chip) (n : Nat) : Chip :=
  let k := conn c n
  let p : Pkt := { ctlPkt c n 5 with
    cumSeq := ackCum k, ce := BitVec.ofNat 16 (min 65535 k.ceSince), payload := sackBits k }
  sendControl (setConn c n { k with ackDue := 0, ceSince := 0, owed := decide (k.rxPend ≠ []) }) n p

/-- An accepted packet may be acknowledged from now on. -/
def unpend (c : Chip) (n : Nat) (s : Word) : Chip :=
  let k := conn c n
  setConn c n { k with rxPend := k.rxPend.filter (fun x => x ≠ s) }

/-- Refuses an accepted packet (R330). -/
def sendNak (c : Chip) (n : Nat) (s : Word) (st : Nat) : Chip :=
  unpend (sendControl c n { ctlPkt c n 6 with nakSeq := s, status := BitVec.ofNat 8 st }) n s

/-! ### Arrival (R313, R315, R318, R322, R342) -/

/-- XPT takes and counts arriving packets: ON, DRAINING or DISABLED (R342). -/
def xptCounts (c : Chip) : Bool := isUp c .xpt || decide (bstate c .xpt = .disabled)

/-- Only designated connections receive packets that came this way: XPT is DISABLED, or HOST is on the host path (R342,
R380). -/
def onlyMgmt (c : Chip) (l : Link) : Bool :=
  decide (bstate c .xpt = .disabled) || (!l.peer && decide (bstate c .host = .disabled))

/-- The connection that an arriving packet reaches, with the counts of packets dropped. -/
def rxGate (c : Chip) (l : Link) (p : Pkt) : Option Nat × Chip :=
  if xptCounts c = false then (none, c)
  else if pktValid p = false then (none, bump c aXPT_BAD_CRC 1)
  else
    let n := p.dst.toNat % 2 ^ 14
    let k := conn c n
    if onlyMgmt c l ∧ k.mgmt = false then (none, c)
    else if k.state = .closed ∨ p.nonce ≠ k.myNonce then (none, bump c aXPT_BAD_NONCE 1)
    else (some n, c)

/-- Counts an accepted packet (R340). -/
def countRx (c : Chip) (l : Link) : Chip := bump (bumpPair c aXPT_RX_PKT_LO 1) aXPT_CE_CNT (b2n l.ce)

/-- CUM after the numbers that are now accepted, with fuel. -/
def advanceCum : Nat → Word → List Word → Word × List Word
  | 0, cum, got => (cum, got)
  | f + 1, cum, got =>
    if cum ∈ got then advanceCum f (cum + 1) (got.filter (fun x => x ≠ cum)) else (cum, got)

/-- The connection after accepting a number: CUM advances, and on a spray connection the window of 4,096 numbers
follows the highest (R318, R322). -/
def acceptSeq (k : ConnSt) (s : Word) (ce : Bool) : ConnSt :=
  let top := if seqBefore k.rxTop s then s else k.rxTop
  let got := s :: k.rxGot
  let low := top - 4096
  let cum := if k.spray && seqBefore k.rxCum low then low else k.rxCum
  let got := if k.spray then got.filter (fun x => !seqBefore x cum) else got
  let r := advanceCum (got.length + 1) cum got
  { k with rxTop := top, rxCum := r.1, rxGot := r.2, rxPend := k.rxPend ++ [s], ackDue := k.ackDue + 1,
           owed := true, ceSince := k.ceSince + b2n ce }

/-- The window: accepts a packet once (true), or drops it. -/
def rxSeq (c : Chip) (n : Nat) (p : Pkt) (l : Link) : Bool × Chip :=
  let k := conn c n
  let below := seqBefore p.seq k.rxCum
  if !k.spray && !below && 1024 ≤ (p.seq - k.rxCum).toNat then (false, bump c aXPT_DUP_CNT 1)
  else if below || decide (p.seq ∈ k.rxGot) then (false, sendAck (bump c aXPT_DUP_CNT 1) n)
  else (true, countRx (setConn c n (acceptSeq k p.seq l.ce)) l)

/-- ACK_CFG.COUNT: 0 acts as 1. -/
def ackCount (c : Chip) : Nat := max 1 (fld (reg c aXPT_ACK_CFG) 7 0)

/-- An arriving data packet: the gate, the window, its effect, and the ACK that R319 asks for. -/
def rxData (c : Chip) (l : Link) (p : Pkt) (effect : Chip → Nat → Chip) : Chip :=
  match rxGate c l p with
  | (none, c1) => c1
  | (some n, c1) =>
    let k := conn c1 n
    if ¬(k.state = .open ∨ k.state = .closing) then c1
    else if k.spray ∧ p.typ = 4 then bump c1 aXPT_BAD_CRC 1
    else
      let (ok, c2) := rxSeq c1 n p l
      if ok then
        let c3 := effect c2 n
        if p.seq ≠ k.rxCum ∨ pAckNow p ∨ ackCount c3 ≤ (conn c3 n).ackDue then sendAck c3 n else c3
      else c2

/-! ### Remote accesses (R329-R334, R342) -/

/-- A registration that a VALID index holds (R387). -/
def indexHolds (c : Chip) (tag : Word) : Bool :=
  (List.range 16).any (fun i => bit (regB c i aSRCH_IDX_CTRL) 0 &&
    (regB c i aSRCH_IDX_SKETCH_TAG = tag || regB c i aSRCH_IDX_TOMB_TAG = tag ||
      regB c i aSRCH_IDX_TABLE_TAG = tag))

/-- The check of R329 that an access fails first; 0 when it passes every check. -/
def accessCheck (c : Chip) (n : Nat) (tag : Word) (off len : Nat) (write : Bool) : Nat :=
  let i := tag.toNat / 256
  let g := tag.toNat % 256
  let r := region c i
  if 65536 ≤ i ∨ g = 0 then 1
  else if r.state = .free ∨ r.gen ≠ g then 2
  else if partOfConn c n ≠ some r.part ∨ ¬(r.conn = 0xFFFF ∨ r.conn = n) ∨
      (if write then !r.write || indexHolds c tag else !r.read) ∨ r.len < off + len then 3
  else if r.state ≠ .active then 4
  else 0

/-- Sends a violation record (R334). At most one per registration in 10 us: a free value decides after the first
(log entry 48). -/
def violRecord (c : Chip) (n i : Nat) (p : Pkt) (chk len : Nat) : Chip :=
  let r := region c i
  let (v, c1) := if r.violated then takeFree c else (1, c)
  if v % 2 = 0 then c1
  else
    let (st, c2) := takeFine (setRegion c1 i { r with violated := true })
    sendMsg c2 r.notify 2 ([4, 0x30, BitVec.ofNat 8 p.typ.toNat, BitVec.ofNat 8 chk] ++ leBytes 4 p.tag.toNat ++
      leBytes 8 p.offset.toNat ++ leBytes 4 len ++ leBytes 2 n ++ [0, 0] ++ leBytes 8 st)

/-- Refuses an access that failed a check (R329). -/
def refuseAccess (c : Chip) (n : Nat) (p : Pkt) (len chk : Nat) : Chip :=
  if chk = 2 then raise (bump (sendNak c n p.seq stStale) aXPT_STALE_CNT 1) .xpt 17
  else
    let c1 := raise (bump (sendNak c n p.seq stViolation) aXPT_VIOL_CNT 1) .xpt 16
    if chk = 1 then c1 else violRecord c1 n (p.tag.toNat / 256) p chk len

/-- A packet that would begin a new operation while XPT, its port or EGR drains (R342, R364, R380, R382). -/
def drainRefuses (c : Chip) (n : Nat) (p : Pkt) : Bool :=
  (decide (bstate c .xpt = .draining) || pathBusy c n) && decide (p.opId ∉ (conn c n).ops)

/-- Notes that an operation has an accepted packet. -/
def noteOp (c : Chip) (n : Nat) (p : Pkt) : Chip :=
  let k := conn c n
  if p.opId ∈ k.ops then c else setConn c n { k with ops := k.ops ++ [p.opId] }

/-- An access that passed every check: it counts in INFLIGHT and cannot be refused (R329). -/
def addAcc (c : Chip) (n : Nat) (p : Pkt) (isRead : Bool) : Chip :=
  let i := p.tag.toNat / 256
  let r := region c i
  let a : RemAcc := { conn := n, seq := p.seq, region := i, isRead := isRead, addr := r.base + p.offset.toNat,
                      data := p.payload, req := p }
  { setRegion c i { r with inflight := r.inflight + 1 } with
    xpt := { (setRegion c i { r with inflight := r.inflight + 1 }).xpt with accs := c.xpt.accs ++ [a] } }

/-- CKPT holds a write to these bytes until it has copied their region (R416). -/
def ckptHeld (c : Chip) (a n : Nat) : Bool :=
  c.ckpt.pending.any (fun g => overlaps a n (g * 4096) 4096)

/-- An access leaves INFLIGHT. -/
def dropAcc (c : Chip) (a : RemAcc) : Chip :=
  let r := region c a.region
  let c1 := setRegion c a.region { r with inflight := r.inflight - 1 }
  { c1 with xpt := { c1.xpt with accs := dropFirst (fun x => x.conn = a.conn && x.seq == a.seq) c1.xpt.accs } }

/-- Places a write (R332): after the earlier writes to the same bytes, and when CKPT does not hold it. -/
def placeAcc (c : Chip) (n : Nat) (s : Word) : Chip :=
  let before := c.xpt.accs.takeWhile (fun a => !(a.conn = n && a.seq == s))
  match c.xpt.accs.find? (fun a => a.conn = n && a.seq == s) with
  | none => c
  | some a =>
    if a.isRead ∨ ckptHeld c a.addr a.data.length ∨
        before.any (fun b => !b.isRead && overlaps b.addr b.data.length a.addr a.data.length) then c
    else
      let c1 := dropAcc { c with mem := memWrite c.mem a.addr a.data } a
      unpend c1 n s

/-- An accepted WRITE (R329). -/
def writeAccess (c : Chip) (n : Nat) (p : Pkt) : Chip :=
  if drainRefuses c n p then sendNak c n p.seq rejBusy
  else
    let c1 := noteOp c n p
    let chk := accessCheck c1 n p.tag p.offset.toNat p.payload.length true
    if chk ≠ 0 then refuseAccess c1 n p p.payload.length chk else addAcc c1 n p false

/-- An accepted READ_RESP (R329): checked against the requester's registration, and placed. -/
def respAccess (c : Chip) (n : Nat) (p : Pkt) : Chip :=
  let chk := accessCheck c n p.tag p.offset.toNat p.payload.length true
  if chk ≠ 0 then refuseAccess c n p p.payload.length chk else placeAcc (addAcc c n p false) n p.seq

/-- The READ_RESP packets of a request (R331). -/
def respPkts (p : Pkt) (data : List Byte) : List Pkt :=
  (numbered (chunksOf (data.length / 4096 + 1) 4096 data)).map (fun e =>
    { typ := 3, tag := p.respTag, offset := p.respOffset + w64 (4096 * e.1), opId := p.opId, payload := e.2 })

/-- An accepted READ_REQ (R331). -/
def readAccess (c : Chip) (n : Nat) (p : Pkt) : Chip :=
  let len := p.length.toNat
  if drainRefuses c n p then sendNak c n p.seq rejBusy
  else
    let c1 := noteOp c n p
    if len = 0 ∨ 16777216 < len then sendNak c1 n p.seq rejLimit
    else
      let chk := accessCheck c1 n p.tag p.offset.toNat len false
      if chk ≠ 0 then refuseAccess c1 n p len chk
      else
        let data := memRead c1.mem ((region c1 (p.tag.toNat / 256)).base + p.offset.toNat) len
        let c2 := unpend (addAcc c1 n p true) n p.seq
        settleEvents (sendAll c2 n (respPkts p data) .plain)

/-- READ_FULLY_READ (R331). -/
def fullyRead (c : Chip) (n : Nat) (s : Word) : Chip :=
  match c.xpt.accs.find? (fun a => a.conn = n && a.seq == s && a.isRead) with
  | none => c
  | some a => dropAcc c a

/-! ### Messages (R335) -/

/-- Refuses every packet of a list. -/
def nakAll (c : Chip) (n : Nat) (l : List Pkt) (st : Nat) : Chip := l.foldl (fun c p => sendNak c n p.seq st) c

/-- Total bytes that MSG_LEN gives. -/
def msgTotal (p : Pkt) : Nat := if p.msgLen = 0 then 65536 else p.msgLen.toNat

/-- A segment breaks the message being assembled, or starts none (R335; log entry 49). -/
def msgBreaks (part : List Pkt) (p : Pkt) : Bool :=
  let total := (part.map (fun x => x.payload.length)).sum + p.payload.length
  let head := part.headD p
  decide (part.isEmpty ≠ pFirst p) || decide (16 ≤ part.length) ||
    decide (head.msgId ≠ p.msgId) || decide (head.cls ≠ p.cls) || decide (head.msgLen ≠ p.msgLen) ||
    (if pLast p then decide (total ≠ msgTotal p)
     else decide (p.payload.length ≠ 4096) || decide (msgTotal p ≤ total))

/-- Takes the next MSG packet in sequence order (R335). -/
def msgStep (c : Chip) (n : Nat) (p : Pkt) : Chip :=
  let k := conn c n
  let cls := p.cls.toNat
  if k.badMsg = some p.msgId ∧ pFirst p = false then sendNak c n p.seq rejLimit
  else
    let k := if pFirst p then { k with badMsg := none } else k
    let c := setConn c n k
    if k.part.isEmpty && (cls = 2 || cls = 6 || cls = 7) then sendNak c n p.seq rejState
    else if k.part.isEmpty && (cls = 0 || 7 < cls) then sendNak c n p.seq rejLimit
    else if msgBreaks k.part p then
      nakAll (setConn c n { k with part := [], badMsg := some (k.part.headD p).msgId }) n (k.part ++ [p]) rejLimit
    else if pLast p then setConn c n { k with part := [], ready := k.ready ++ [k.part ++ [p]] }
    else setConn c n { k with part := k.part ++ [p] }

/-- Assembles the accepted MSG packets below CUM, in sequence order, with fuel. -/
def assemble : Nat → Chip → Nat → Chip
  | 0, c, _ => c
  | f + 1, c, n =>
    let k := conn c n
    let below := k.segs.filter (fun p => seqBefore p.seq k.rxCum)
    match below with
    | [] => c
    | q :: r =>
      let p := r.foldl (fun m x => if seqBefore x.seq m.seq then x else m) q
      assemble f (msgStep (setConn c n { k with segs := k.segs.filter (fun x => x.seq ≠ p.seq) }) n p) n

/-- Assembles whatever a change of CUM lets. -/
def assembleAll (c : Chip) (n : Nat) : Chip := assemble (conn c n).segs.length c n

/-- An accepted MSG packet. -/
def msgAccess (c : Chip) (n : Nat) (p : Pkt) : Chip :=
  let k := conn c n
  setConn c n { k with segs := k.segs ++ [p] }

/-! ### Rate (R324) -/

/-- The first-hop rate of a connection in Mbit/s (R343, R366; log entry 50). -/
def firstHop (c : Chip) (n : Nat) : Nat :=
  if pathPeer c n then (if (conn c n).spray then 4 * 1935058 else 1935058) else 1600000

/-- The ceiling of R. -/
def rateCeil (c : Chip) (n : Nat) : Nat := min (reg c aXPT_RATE_MAX).toNat (firstHop c n)

/-- RATE_HOLD.MIN in Mbit/s. -/
def rateFloor (c : Chip) : Nat := 1000 * max 1 (fld (reg c aXPT_RATE_HOLD) 31 16)

/-- R of a connection in Mbit/s: between the floor and the ceiling as they are now; 0 on one that is not open. -/
def rateNow (c : Chip) (n : Nat) : Nat :=
  let r := (conn c n).rate
  if r = 0 then 0 else min (rateCeil c n) (max (rateFloor c) r)

/-- The rate after a decrease. The 50 us of DEC_HOLD since the last decrease are a free value (log entry 47). -/
def rateDown (c : Chip) (n : Nat) : Chip :=
  let k := conn c n
  let (v, c1) := if k.slowed then takeFree c else (1, c)
  if v % 2 = 0 then c1
  else
    let r := max (rateFloor c) (rateNow c n * max 1 (fld (reg c aXPT_RATE_CFG) 31 24) / 256)
    setConn c1 n { k with rate := r, slowed := true }

/-- RATE_INCREASE_TICK (R324). -/
def rateUp (c : Chip) (n : Nat) : Chip :=
  let k := conn c n
  if k.state = .open ∨ k.state = .closing then
    setConn c n { k with rate := min (rateCeil c n) (rateNow c n + 1000 * fld (reg c aXPT_RATE_CFG) 23 16) }
  else c

/-! ### Sending again (R320, R321, R330) -/

/-- RETRY.LIMIT. -/
def retryLimit (c : Chip) : Nat := max 1 (fld (reg c aXPT_RETRY) 3 0)

/-- RETRY.REORDER. -/
def reorderDist (c : Chip) : Nat := max 1 (fld (reg c aXPT_RETRY) 15 8)

/-- The timer of a packet in us: RTO.INIT, doubled at each expiry up to RTO.MAX. -/
def timerOf (c : Chip) (t : TxPkt) : Nat :=
  if t.timer = 0 then max 1 (fld (reg c aXPT_RTO) 15 0) else t.timer

/-- A number that an ACK closes. -/
def ackCloses (p : Pkt) (s : Word) : Bool :=
  seqBefore s p.cumSeq ||
    (let i := (s - p.cumSeq).toNat
     i < 1024 && (p.payload.getD (i / 8) 0).getLsbD (i % 8))

/-- The highest number that an ACK shows as accepted. -/
def ackTop (p : Pkt) : Word :=
  (List.range 1024).foldl (fun m i =>
    if (p.payload.getD (i / 8) 0).getLsbD (i % 8) then p.cumSeq + w32 i else m) (p.cumSeq - 1)

/-- The packets that the SACK distance sends again (R320). -/
def resendGaps (c : Chip) (n : Nat) (p : Pkt) : Chip :=
  let d := reorderDist c
  let top := ackTop p
  let l := (conn c n).txOpen.filter (fun t => seqBefore t.pkt.seq top && d ≤ (top - t.pkt.seq).toNat)
  settleEvents (l.foldl (fun a t => let r := sendAgain a.1 n t.pkt t.use; (r.1, a.2 ++ r.2)) (c, []))

/-- Numbers are closed: waiting packets follow. -/
def pumpConn (c : Chip) (n : Nat) : Chip := settleEvents (pump c n)

/-- The part of VST_ACK that closes packets (R320, R324): the uses of the packets it closed are returned. -/
def ackRx (c : Chip) (n : Nat) (p : Pkt) : List InitUse × Chip :=
  let k := conn c n
  let done := k.txOpen.filter (fun t => ackCloses p t.pkt.seq)
  let c1 := setConn c n { k with
    txOpen := k.txOpen.filter (fun t => !ackCloses p t.pkt.seq)
    txWait := k.txWait.filter (fun w => !(pRetx w.1 && ackCloses p w.1.seq)) }
  let c2 := if 0 < p.ce.toNat then rateDown c1 n else c1
  ((done.map (·.use)).dedup, pumpConn (resendGaps c2 n p) n)

/-- The part of VST_NAK that closes its packet and keeps the first status of its operation (R330). -/
def nakRx (c : Chip) (n : Nat) (p : Pkt) : List InitUse × Chip :=
  let k := conn c n
  match k.txOpen.find? (fun t => t.pkt.seq = p.nakSeq) with
  | none => ([], c)
  | some t =>
    let seen := k.nakd.any (fun x => decide (x.1 = t.use))
    let c1 := setConn c n { k with
      txOpen := k.txOpen.filter (fun x => x.pkt.seq ≠ p.nakSeq)
      txWait := k.txWait.filter (fun w => !(pRetx w.1 && w.1.seq == p.nakSeq))
      nakd := if t.use = .plain ∨ seen then k.nakd else k.nakd ++ [(t.use, p.status.toNat)] }
    let c2 := if t.use ≠ .plain ∧ p.status.toNat = stViolation then raise c1 .xpt 16 else c1
    ([t.use], pumpConn c2 n)

/-- Every packet of an operation is closed. -/
def useClosed (c : Chip) (n : Nat) (u : InitUse) : Bool :=
  (conn c n).txOpen.all (fun t => decide (t.use ≠ u)) && (conn c n).txWait.all (fun w => decide (w.2 ≠ u))

/-- The first NAK status of an operation. -/
def useNak (c : Chip) (n : Nat) (u : InitUse) : Option Nat :=
  ((conn c n).nakd.find? (fun x => decide (x.1 = u))).map (·.2)

/-- An operation that completed is forgotten. -/
def forgetUse (c : Chip) (n : Nat) (u : InitUse) : Chip :=
  let k := conn c n
  setConn c n { k with nakd := k.nakd.filter (fun x => decide (x.1 ≠ u)) }

/-- The operations that this chip initiated on a connection and that are not complete. -/
def openUses (k : ConnSt) : List InitUse :=
  ((k.txOpen.map (·.use) ++ k.txWait.map (·.2) ++ k.nakd.map (·.1)).dedup).filter (fun u => decide (u ≠ .plain))

/-- Records whose sending is not complete. -/
def waitingRecords (k : ConnSt) : Nat :=
  (k.txWait.filter (fun w => w.1.typ == 4 && w.1.cls == 2 && pLast w.1 && !pRetx w.1)).length

/-- Packets that wait are dropped: records are counted (R321). -/
def dropWaiting (c : Chip) (n : Nat) : Chip :=
  let k := conn c n
  let r := waitingRecords k
  let c1 := setConn c n { k with txWait := k.txWait.filter (fun w => pRetx w.1), waiting := false }
  let c2 := { c1 with egr := { c1.egr with waiters := c1.egr.waiters.filter (fun x => x ≠ n) } }
  if r = 0 then c2 else raise (bump c2 aXPT_REC_DROP r) .xpt 20

/-- What a management connection's requester holds is discarded (R10, R27). -/
def dropRequester (c : Chip) (n : Nat) : Chip :=
  { c with mgmt := { c.mgmt with inband := tdel c.mgmt.inband n } }

/-- A connection fails (R321): the operations that it carried from this chip are returned. -/
def connFail (c : Chip) (n : Nat) : List InitUse × Chip :=
  let uses := openUses (conn c n)
  let c1 := dropWaiting c n
  let c2 := setConn c1 n { conn c1 n with
    state := .failed, txOpen := [], txWait := [], segs := [], part := [], nakd := [] }
  (uses, raise (dropRequester c2 n) .xpt 18)

/-- The part of RTO_EXPIRY that does not end operations (R320, R321). -/
def rtoExpiry (c : Chip) (n : Nat) (s : Word) : List InitUse × Chip :=
  let k := conn c n
  match k.txOpen.find? (fun t => t.pkt.seq = s) with
  | none => ([], c)
  | some t =>
    if k.state ≠ .connecting ∧ k.state ≠ .open ∧ k.state ≠ .closing then ([], c)
    else if retryLimit c ≤ t.expiries then connFail c n
    else
      let t' := { t with expiries := t.expiries + 1,
                         timer := min (max (timerOf c t) (fld (reg c aXPT_RTO) 31 16)) (2 * timerOf c t) }
      let c1 := setConn c n { k with txOpen := k.txOpen.map (fun x => if x.pkt.seq = s then t' else x) }
      if isControl t.pkt then
        let c2 := setConn (bump c1 aXPT_RETX_CNT 1) n { conn c1 n with retx := k.retx + 1 }
        ([], sendControl c2 n { t.pkt with flags := t.pkt.flags ||| 8 })
      else ([], settleEvents (sendAgain c1 n t.pkt t.use))

/-! ### States of a connection (R315-R317, R341, R342) -/

/-- Designated connections (R316). -/
def mgmtCount (c : Chip) : Nat := (c.xpt.conns.filter (fun e => e.2.mgmt)).length

/-- SPRAY_CONN names a connection (R322). -/
def sprayNamed (c : Chip) (n : Nat) : Bool :=
  (List.range 8).any (fun i =>
    let w := reg c (aXPT_SPRAY_CONN + 4 * i)
    bit w 31 && fld w 13 0 = n)

/-- A connection becomes CLOSED: the nonce is discarded, the designation cleared, the number free. -/
def closeConn (c : Chip) (n : Nat) : Chip := dropRequester (setConn (dropWaiting c n) n connReset) n

/-- CONN_CTRL.OPEN on a connection (R315, R317, R371). -/
def connOpen (c : Chip) (n : Nat) : Nat × Chip :=
  let k := conn c n
  let q := regB c (queueOf c n) aEGR_Q_CFG
  if k.state ≠ .closed then (rejState, c)
  else if isOn c .xpt = false ∨ pathBusy c n then (rejBusy, c)
  else if some (fld q 29 27) ≠ partOfConn c n then (rejPart, c)
  else if bit q 30 ≠ pathPeer c n then (rejState, c)
  else
    let (v, c1) := takeFree c
    let (w, c2) := takeFree c1
    let spray := sprayNamed c2 n
    let p : Pkt := { typ := 7, flags := if spray then 4 else 0, src := BitVec.ofNat 16 n,
                     part := BitVec.ofNat 8 ((partOfConn c2 n).getD 0),
                     cflags := BitVec.ofNat 8 (b2n k.mgmt + 2 * b2n (eventsBit c2 n)),
                     myNonce := w32 v, initSeq := w32 w }
    let k' := { connReset with
      state := .connecting, local_ := true, myNonce := w32 v, txNext := w32 w, peer := pathPeer c2 n,
      spray := spray, txOpen := [{ pkt := p, use := .plain, expiries := 0, timer := 0 }] }
    (stOK, sendControl (setConn c2 n k') n p)

/-- The remote address of a connection as its registers hold it. -/
def connAddr (c : Chip) (n : Nat) : BitVec 128 :=
  BitVec.ofNat 128 ((List.range 4).foldl (fun s i => s + (regB c n (aXPT_CONN_ADDR + 4 * i)).toNat * 2 ^ (32 * i)) 0)

/-- Writes the remote end of a connection into its registers (R315, R340). -/
def setRemote (c : Chip) (n : Nat) (l : Link) : Chip :=
  let c1 := if l.peer then setFldB c n aXPT_CONN_DEST 27 16 (l.addr.toNat % 4096)
    else (List.range 4).foldl (fun c i => setRegB c n (aXPT_CONN_ADDR + 4 * i) (w32 (l.addr.toNat / 2 ^ (32 * i)))) c
  let c2 := setFldB c1 n aXPT_CONN_DEST 31 31 (b2n l.peer)
  if l.peer then c2 else setFldB c2 n aXPT_CONN_PORT 15 0 l.port.toNat

/-- Answers a CONNECT that opens nothing. -/
def refuseConnect (c : Chip) (l : Link) (p : Pkt) (st : Nat) : Chip :=
  let a : Pkt := { typ := 8, dst := p.src, nonce := p.myNonce, part := p.part, cflags := p.cflags,
                   status := BitVec.ofNat 8 st }
  if l.peer then { c with egr := { c.egr with ctl1 := c.egr.ctl1 ++ [(0, some l, a)] } }
  else { c with egr := { c.egr with ctl0 := c.egr.ctl0 ++ [(0, some l, a)] } }

/-- The designation that a CONNECT asks for, if R316 gives it, and the status that tells of a refusal. -/
def designation (c : Chip) (p : Pkt) : Bool × Nat :=
  if p.cflags.getLsbD 0 = false then (false, stOK)
  else if nbit (fld (reg c aXPT_MGMT_CFG) 7 0) p.part.toNat = false then (false, rejPart)
  else if 16 ≤ mgmtCount c then (false, rejLimit)
  else (true, stOK)

/-- The CONNECT_ACK of a connection that a CONNECT opened. -/
def connectAck (c : Chip) (n : Nat) (p : Pkt) (st : Nat) (init : Word) : Pkt :=
  let k := conn c n
  { typ := 8, flags := if k.spray then 4 else 0, dst := BitVec.ofNat 16 k.remConn, src := BitVec.ofNat 16 n,
    nonce := k.remNonce, part := p.part, cflags := p.cflags, status := BitVec.ofNat 8 st, myNonce := k.myNonce,
    initSeq := init }

/-- A CONNECT opens a connection (R315, R316). -/
def acceptConnect (c : Chip) (l : Link) (p : Pkt) (n : Nat) : Chip :=
  let (v, c1) := takeFree c
  let (w, c2) := takeFree c1
  let (m, st) := designation c2 p
  let k : ConnSt := { connReset with
    state := .open, remConn := p.src.toNat % 2 ^ 14, myNonce := w32 v, remNonce := p.myNonce, remAddr := l.addr,
    peer := l.peer, txNext := w32 w, rxCum := p.initSeq, rxTop := p.initSeq - 1, mgmt := m,
    spray := pSpray p || sprayNamed c2 n, reqNonce := some (st, w32 w) }
  let c3 := setRemote (setConn c2 n k) n l
  let c4 := if m && p.cflags.getLsbD 1 then setFldB c3 n aXPT_CONN_CTRL 9 9 1 else c3
  let c5 := setConn c4 n { k with rate := rateCeil c4 n }
  let c6 := if st = rejLimit then raise c5 .xpt 19 else c5
  sendControl c6 n (connectAck c6 n p st (w32 w))

/-- The lowest CLOSED connection of a partition's range. -/
def lowestClosed (c : Chip) (p : Nat) : Option Nat :=
  let (b, k) := connRange c p
  ((List.range (min k (c.xpt.conns.length + 1))).map (· + b)).find? (fun n => decide ((conn c n).state = .closed))

/-- The connection that an earlier copy of a CONNECT opened (R315). -/
def connectedBy (c : Chip) (l : Link) (p : Pkt) : Option (Nat × ConnSt) :=
  c.xpt.conns.find? (fun e => !e.2.local_ && e.2.peer == l.peer && e.2.remAddr == l.addr &&
    e.2.remConn = p.src.toNat % 2 ^ 14 && e.2.remNonce == p.myNonce && e.2.reqNonce.isSome &&
    decide (e.2.state ≠ .closed))

/-- VST_CONNECT (R315-R317, R342). -/
def connectRx (c : Chip) (l : Link) (p : Pkt) : Chip :=
  if xptCounts c = false then c
  else if pktValid p = false then bump c aXPT_BAD_CRC 1
  else
    let c := countRx c l
    match connectedBy c l p with
    | some (n, k) =>
      match k.reqNonce with
      | some (st, init) => sendControl c n (connectAck c n p st init)
      | none => c
    | none =>
      let d := designation c p
      if bstate c .xpt = .draining ∨ (onlyMgmt c l ∧ d.1 = false) then refuseConnect c l p rejBusy
      else if 7 < p.part.toNat ∨ partValid c p.part.toNat = false ∨
          (l.peer = false ∧ l.hostPart.map (·.toNat) ≠ some p.part.toNat) then refuseConnect c l p rejPart
      else
        match lowestClosed c p.part.toNat with
        | none => refuseConnect c l p rejLimit
        | some n => acceptConnect c l p n

/-- VST_CONNECT_ACK (R315, R317). -/
def connectAckRx (c : Chip) (l : Link) (p : Pkt) : Chip :=
  match rxGate c l p with
  | (none, c1) => c1
  | (some n, c1) =>
    let k := conn c1 n
    let c2 := countRx c1 l
    if k.state ≠ .connecting then c2
    else if p.status.toNat = stOK then
      let c3 := setConn c2 n { k with
        state := .open, remConn := p.src.toNat % 2 ^ 14, remNonce := p.myNonce, remAddr := l.addr,
        rxCum := p.initSeq, rxTop := p.initSeq - 1, txOpen := [], rate := rateCeil c2 n }
      pumpConn c3 n
    else (connFail c2 n).2

/-- CONN_CTRL.CLOSE on a connection, or the CLOSE of the other end: CLOSING (R317). -/
def startClosing (c : Chip) (n : Nat) : List InitUse × Chip :=
  let k := conn c n
  let uses := ((k.txWait.filter (fun w => !pRetx w.1)).map (·.2)).dedup.filter (fun u => decide (u ≠ .plain))
  let c1 := dropWaiting c n
  (uses, sendControl (setConn c1 n { conn c1 n with state := .closing }) n (ctlPkt c1 n 9))

/-- VST_CLOSE (R317): the operations whose packets were not sent are returned. -/
def closeRx (c : Chip) (l : Link) (p : Pkt) : List InitUse × Nat × Chip :=
  match rxGate c l p with
  | (none, c1) => ([], 0, c1)
  | (some n, c1) =>
    let k := conn c1 n
    let c2 := countRx c1 l
    if k.state = .open then
      let r := startClosing (dropRequester (setConn c2 n { k with closeRx := true }) n) n
      (r.1, n, r.2)
    else if k.state = .closing then ([], n, setConn c2 n { k with closeRx := true })
    else ([], n, c2)

/-- CONN_CLOSED (R317). -/
def connClosed (c : Chip) (n : Nat) : Chip :=
  let k := conn c n
  if k.state = .closing ∧ k.txOpen = [] ∧ k.closeRx then closeConn c n else c

/-- CONN_CTRL.MGMT (R316). -/
def connMgmt (c : Chip) (n : Nat) : Nat × Chip :=
  let k := conn c n
  if k.state ≠ .open ∨ k.mgmt then (rejState, c)
  else if 16 ≤ mgmtCount c then (rejLimit, raise c .xpt 19)
  else (stOK, setConn c n { k with mgmt := true })

/-- CONN_CTRL.UNMGMT (R317). DEDUCED: a connection that is no requester any more holds nothing: its hold, its read shadow
and its armed unlocks are dropped as R10 drops them at a close (log entry 92). -/
def connUnmgmt (c : Chip) (n : Nat) : Nat × Chip :=
  let k := conn c n
  if (k.state = .open ∨ k.state = .closing) ∧ k.mgmt then
    (stOK, dropRequester (setFldB (setConn c n { k with mgmt := false }) n aXPT_CONN_CTRL 9 9 0) n)
  else (rejState, c)

/-- CONN_CTRL.RELEASE (R317). -/
def connRelease (c : Chip) (n : Nat) : Nat × Chip :=
  if (conn c n).state = .failed then (stOK, closeConn c n) else (rejState, c)

/-! ### Registrations (R326, R327, R336) -/

/-- A registration record (R336). -/
def regRecord (st op : Nat) (tag : Word) (reqTag : DWord) (len stamp : Nat) : List Byte :=
  [3, BitVec.ofNat 8 st, BitVec.ofNat 8 op, 0] ++ leBytes 4 tag.toNat ++ leBytes 8 reqTag.toNat ++ leBytes 8 len ++
    leBytes 8 stamp

/-- Sends a registration record at once. -/
def answerRegion (c : Chip) (n st op : Nat) (tag : Word) (reqTag : DWord) (len : Nat) : Chip :=
  let (t, c1) := takeFine c
  sendMsg c1 n 2 (regRecord st op tag reqTag len t)

/-- The head of the free list of registrations (R326, R38), but for those being zeroed. -/
def freeRegion (c : Chip) : Option Nat :=
  let busy := fun i => (region c i).zeroing
  match ((List.range (c.xpt.regions.length + 1)).map (· + c.xpt.freshRegion)).find? (fun i => !busy i) with
  | some i => if i < 65536 then some i else c.xpt.freedRegions.find? (fun i => !busy i)
  | none => c.xpt.freedRegions.find? (fun i => !busy i)

/-- A number of CONN or NOTIFY in the range of a partition (R326). -/
def connOf (c : Chip) (p n : Nat) : Bool := n < 16384 && decide (partOfConn c n = some p)

/-- No new registration is taken now (R34, R85, R342, R451). -/
def regionsClosed (c : Chip) (p : Nat) : Bool :=
  !isOn c .xpt || !isOn c .fig || !isOn c .tier || c.flt.chipPending || !partValid c p

/-- The refusals of a REGISTER (R326, R336, R339, R342). -/
def registerRefusal (c : Chip) (p : Nat) (req : RegReq) : Nat :=
  let len := req.length.toNat
  if regionsClosed c p then rejBusy
  else if len = 0 ∨ len % 4096 ≠ 0 ∨ 2 ^ 38 < len ∨ 4 ≤ req.access.toNat then rejLimit
  else if (req.conn ≠ 0xFFFF ∧ connOf c p req.conn.toNat = false) ∨ connOf c p req.notify.toNat = false then rejPart
  else if (freeRegion c).isNone ∨ heapFree c p < pressureLow c then rejLimit
  else stOK

/-- Takes a range and an index for a new registration that is being zeroed. -/
def takeRange (c : Chip) (i p base len : Nat) (write read landing : Bool) (conn notify reply : Nat) (tag : DWord) :
    Chip :=
  let r := region c i
  setRegion c i { r with
    part := p, base := base, len := len, write := write, read := read, conn := conn, notify := notify,
    inflight := 0, landing := landing, zeroing := true, violated := false, replyConn := reply, replyTag := tag }

/-- REGISTER (R327). -/
def registerReq (c : Chip) (n : Nat) (tag : DWord) (req : RegReq) : Chip :=
  let c := settle c
  match partOfConn c n with
  | none => answerRegion c n rejPart 1 0 tag req.length.toNat
  | some p =>
    let st := registerRefusal c p req
    if st ≠ stOK then
      let c1 := if st = rejLimit ∧ (freeRegion c).isNone then raise c .xpt 21 else c
      answerRegion c1 n st 1 0 tag req.length.toNat
    else
      match freeRegion c, (if heapServes c p then heapAlloc c p req.length.toNat else none) with
      | some i, some (a, c1) =>
        takeRange c1 i p a req.length.toNat (req.access.getLsbD 0) (req.access.getLsbD 1) false req.conn.toNat
          req.notify.toNat n tag
      | _, _ => answerRegion c n rejLimit 1 0 tag req.length.toNat

/-- A figure of one registration. -/
def regionFig (i : Nat) (st : RegionState) (after : List After) : Figure :=
  { subjects := [.region i], acts := [.regionSet false st], origin := .transport, staged := 0, after := after }

/-- A figure of a registration waits to open. -/
def regionWaits (c : Chip) (i : Nat) : Bool := c.fig.waiting.any (fun f => .region i ∈ f.subjects)

/-- REGISTER_ZERO_DONE (R327): the range is zero, ACTIVE commits, and the record is sent. -/
def zeroDone (c : Chip) (i : Nat) : Chip :=
  let c := settle c
  let r := region c i
  if r.zeroing = false ∨ r.landing ∨ regionWaits c i then c
  else
    let (t, c1) := takeFine { c with mem := memZero c.mem r.base r.len }
    settle (openFig c1 (regionFig i .active
      [.takeRegion i, .send r.replyConn (.raw 2 (regRecord stOK 1 (regionTag c1 i) r.replyTag r.len t))]))

/-- Commits the revocation point of a registration (R327, R333). -/
def revokeRegion (c : Chip) (i reply : Nat) (tag : DWord) : Chip :=
  settle (openFig (setRegion c i { region c i with replyConn := reply, replyTag := tag })
    { regionFig i .draining [] with origin := .transport })

/-- REVOKE (R327, R387). -/
def revokeReq (c : Chip) (n : Nat) (tag : DWord) (reg : Word) : Chip :=
  let c := settle c
  let i := reg.toNat / 256
  let r := region c i
  let ans := fun st => answerRegion c n st 2 reg tag (if i < 65536 then r.len else 0)
  match partOfConn c n with
  | none => ans rejPart
  | some p =>
    if 65536 ≤ i ∨ r.state ≠ .active ∨ r.gen ≠ reg.toNat % 256 ∨ regionWaits c i then ans stStale
    else if r.part ≠ p then ans rejPart
    else if indexHolds c reg then ans rejState
    else if isOn c .fig = false ∨ c.flt.chipPending then ans rejBusy
    else revokeRegion c i n tag

/-- REVOKE_DRAINED (R327, R333): FREE commits, and the revoke record follows; CUT takes over a landing region. A
registration that no REVOKE request ended has no record to send. -/
def revokeDrained (c : Chip) (i : Nat) : Chip :=
  let c := settle c
  let r := region c i
  if r.state ≠ .draining ∨ r.inflight ≠ 0 ∨ regionWaits c i then c
  else if r.landing ∨ 16384 ≤ r.replyConn then settle (openFig c (regionFig i .free []))
  else
    let (t, c1) := takeFine c
    settle (openFig c1 (regionFig i .free
      [.send r.replyConn (.raw 2 (regRecord stOK 2 (regionTag c1 i) r.replyTag r.len t))]))

/-! ### Writes of this chip's own (R301, R323) -/

/-- The WRITE packets of an operation: 4,096 B each. -/
def writePkts (tag : Word) (off : Nat) (op : Word) (data : List Byte) : List Pkt :=
  (numbered (chunksOf (data.length / 4096 + 1) 4096 data)).map (fun e =>
    { typ := 1, tag := tag, offset := w64 (off + 4096 * e.1), opId := op, payload := e.2 })

/-- Sends a remote write under a use; its OP_ID is a free value. -/
def remoteWrite (c : Chip) (n : Nat) (tag : Word) (off : Nat) (data : List Byte) (u : InitUse) : Chip :=
  let (v, c1) := takeFree c
  settleEvents (sendAll c1 n (writePkts tag off (w32 v) data) u)

/-! ### Commands -/

/-- VST_WRITE. -/
def execVstWrite (l : Link) (p : Pkt) (s : State) : Host.Outcome State Fault Refusal :=
  act s (fun c => whenAwake c (fun c =>
    rxData c l p (fun c n => assembleAll (writeAccess (settle c) n p) n)))

/-- WRITE_PLACED. -/
def execWritePlaced (conn : Conn) (seq : Word) (s : State) : Host.Outcome State Fault Refusal :=
  act s (fun c => whenAwake c (fun c => placeAcc c conn.toNat seq))

/-- VST_READ_REQ. -/
def execVstReadReq (l : Link) (p : Pkt) (s : State) : Host.Outcome State Fault Refusal :=
  act s (fun c => whenAwake c (fun c =>
    rxData c l p (fun c n => assembleAll (readAccess (settle c) n p) n)))

/-- READ_FULLY_READ. -/
def execReadFullyRead (conn : Conn) (seq : Word) (s : State) : Host.Outcome State Fault Refusal :=
  act s (fun c => whenAwake c (fun c => fullyRead c conn.toNat seq))

/-- VST_READ_RESP. -/
def execVstReadResp (l : Link) (p : Pkt) (s : State) : Host.Outcome State Fault Refusal :=
  act s (fun c => whenAwake c (fun c =>
    rxData c l p (fun c n => assembleAll (respAccess (settle c) n p) n)))

/-- VST_MSG. -/
def execVstMsg (l : Link) (p : Pkt) (s : State) : Host.Outcome State Fault Refusal :=
  act s (fun c => whenAwake c (fun c => rxData c l p (fun c n => assembleAll (msgAccess c n p) n)))

/-- VST_CONNECT. -/
def execVstConnect (l : Link) (p : Pkt) (s : State) : Host.Outcome State Fault Refusal :=
  act s (fun c => whenAwake c (fun c => connectRx c l p))

/-- VST_CONNECT_ACK. -/
def execVstConnectAck (l : Link) (p : Pkt) (s : State) : Host.Outcome State Fault Refusal :=
  act s (fun c => whenAwake c (fun c => connectAckRx c l p))

/-- CONN_CLOSED. -/
def execConnClosed (conn : Conn) (s : State) : Host.Outcome State Fault Refusal :=
  act s (fun c => whenAwake c (fun c => connClosed c conn.toNat))

/-- CONN_FAILED_TIMEOUT (R317). -/
def execConnFailedTimeout (conn : Conn) (s : State) : Host.Outcome State Fault Refusal :=
  act s (fun c => whenAwake c (fun c => (connRelease c conn.toNat).2))

/-- ACK_DELAY_EXPIRY (R319). -/
def execAckDelayExpiry (conn : Conn) (s : State) : Host.Outcome State Fault Refusal :=
  act s (fun c => whenAwake c (fun c =>
    let k := Sys2Proof.Machine.conn c conn.toNat
    if xptCarries c conn.toNat ∧ k.owed ∧ (k.state = .open ∨ k.state = .closing) then sendAck c conn.toNat else c))

/-- RATE_INCREASE_TICK. -/
def execRateIncreaseTick (conn : Conn) (s : State) : Host.Outcome State Fault Refusal :=
  act s (fun c => whenAwake c (fun c => rateUp c conn.toNat))

/-- REGISTER. -/
def execRegister (conn : Conn) (tag : DWord) (req : RegReq) (s : State) : Host.Outcome State Fault Refusal :=
  act s (fun c => whenAwake c (fun c => registerReq c conn.toNat tag req))

/-- REGISTER_ZERO_DONE. -/
def execRegisterZeroDone (index : BitVec 16) (s : State) : Host.Outcome State Fault Refusal :=
  act s (fun c => whenAwake c (fun c => zeroDone c index.toNat))

/-- REVOKE. -/
def execRevoke (conn : Conn) (tag : DWord) (region : Word) (s : State) : Host.Outcome State Fault Refusal :=
  act s (fun c => whenAwake c (fun c => revokeReq c conn.toNat tag region))

/-- REVOKE_DRAINED. -/
def execRevokeDrained (index : BitVec 16) (s : State) : Host.Outcome State Fault Refusal :=
  act s (fun c => whenAwake c (fun c => revokeDrained c index.toNat))

end Sys2Proof.Machine
end

