-- ==== Sys2Proof/Machine/Cut.lean ====
section
/-! DEFINITION. CUT (R296-R310): the rows of the cut-in table at both ends, the landing region, the conversion of
the portable image, settling and the timers. -/

namespace Sys2Proof.Machine

/-! ### Messages and matches (R298, R306) -/

/-- CUT acts on messages and timers: not OFF, TESTING or FAULT (R310). -/
def cutUp (c : Chip) : Bool := isUp c .cut || decide (bstate c .cut = .disabled)

/-- An arriving message: a failing CRC drops and counts it (R298). -/
def withCut (c : Chip) (m : CutMsg) (f : Chip → Chip) : Chip :=
  if cutUp c = false then c
  else if m.crcOk = false then bump c aCUT_BAD_MSG 1
  else settle (kick (settle (f (settle c))))

/-- Sends a cut-in message. -/
def sendCut (c : Chip) (n : Nat) (m : CutMsg) : Chip := sendMsg c n 4 (cutBytes m)

/-- The session of a handle that the partition of a connection holds (R306, R314). -/
def heldHere (c : Chip) (n : Nat) (h : Word) : Option Nat :=
  match sessionAt c h with
  | some i => if partOfConn c n = some (entry c i).part then some i else none
  | none => none

/-- What a message of the source meets at this end: its record, else the session of DST_HANDLE. -/
def dstOf (c : Chip) (n : Nat) (m : CutMsg) : Option CutRec × Option Nat :=
  match cutFind c false n m.cutId with
  | some r => (some r, sessionAt c r.dstHandle)
  | none => (none, heldHere c n m.dstHandle)

/-- What a message of the destination meets at this end: its record, else the session of SRC_HANDLE. -/
def srcOf (c : Chip) (n : Nat) (m : CutMsg) : Option CutRec × Option Nat :=
  match cutFind c true n m.cutId with
  | some r => (some r, sessionAt c r.srcHandle)
  | none => (none, heldHere c n m.srcHandle)

/-- A session that its destination end has not settled: HANDOFF_IN, or READY and unsettled. -/
def arriving (c : Chip) (i : Nat) : Bool :=
  decide ((entry c i).state = .handoffIn) || (decide ((entry c i).state = .ready) && (body c i).unsettled)

/-! ### Discard at the destination (R306) -/

/-- Aborts the figures of a session that wait to open (R80), with the blocks they would have referred to. -/
def abortWaiting (c : Chip) (i : Nat) : Chip :=
  let (gone, keep) := c.fig.waiting.partition (fun f => .session i ∈ f.subjects)
  let blocks := gone.flatMap (fun f => f.acts.flatMap (fun a =>
    match a with
    | .blockRef l => l.map (·.2)
    | _ => []))
  blocks.foldl freeBlock (bump { c with fig := { c.fig with waiting := keep } } aFIG_ABORT_CNT gone.length)

/-- Releases what conversion left of a landing range: every piece that is no block's (R302). -/
def releaseRest (c : Chip) (base len : Nat) : Chip :=
  { c with tier := { c.tier with heap := c.tier.heap.filter (fun x =>
      !(base ≤ x.1 && x.1 < base + len) || c.tier.ledger.any (fun e => decide (e.2.gddr = some x.1))) } }

/-- The landing region's bytes. -/
def landingLen (len : Nat) : Nat := max 4096 (roundUp len 4096)

/-- The landing region of a record is still a registration. -/
def landingOpen (c : Chip) (x : CutRec) : Bool :=
  let r := region c x.region
  r.landing && r.base = x.base && decide (r.state ≠ .free)

/-- Gives up a landing region: a range that conversion took over returns to the heap, another is revoked. -/
def dropLanding (c : Chip) (x : CutRec) : Chip :=
  if landingOpen c x then
    let r := region c x.region
    let c1 := setRegion c x.region { r with landing := false, replyConn := 16384 }
    if r.state = .active then settle (openFig c1 (regionFig x.region .draining [])) else c1
  else releaseRest c x.base (landingLen x.imageLen)

/-- Discards the session of a destination (R306): FREE, every operation ends with CUT_RECLAIMED. -/
def discardDst (c : Chip) (i : Nat) (r : Option CutRec) : Chip :=
  let c1 := abortWaiting (abandonRevival c i) i
  let c2 := match r with
    | some x =>
      let y := { x with state := .discarded, reckoned := 0, reclaimed := true, ended := true }
      setCut (if x.state = .handoffIn ∨ x.state = .converting ∨ x.state = .aborted
        then dropLanding c1 x else c1) y
    | none => c1
  let recs := (opsOf c2 i).flatMap (fun o => endRecs c2 i o stReclaimed ++ [.opDone i stReclaimed])
  raise (openFig c2 { sessFig c2 i { entry c2 i with state := .free } [] recs with origin := .cutIn }) .cut 18

/-! ### OFFER at the destination (R299) -/

/-- BF16 bytes of one group of a slot (R299). -/
def groupBf16 (c : Chip) (slot : Nat) : Nat := 128 * posBytes c slot

/-- Bytes of one group sealed at FINE. -/
def groupFine (c : Chip) (slot : Nat) : Nat := ((shapes c slot).map (blockSize false)).sum

/-- The space reckoned for the converted session (R299). -/
def reckon (c : Chip) (slot form len : Nat) : Nat :=
  (if form = 0 then len / max 1 (groupBf16 c slot) * groupFine c slot else 0) +
    tailSetBytes c slot + smallBytes + exclBytes

/-- The model slot of a key: one that is granted to the partition before one that is not (R299, R447). -/
def slotOfKey (c : Chip) (p key : Nat) : Option Nat :=
  let ok := fun s => modelValid c s && modelKey c s = key && key ≠ 0
  let own := fun s => nbit (fld (regB c p aSEC_PART_SLOTS) 15 0) s
  match (List.range 16).find? (fun s => ok s && own s) with
  | some s => some s
  | none => (List.range 16).find? ok

/-- The refusal of an OFFER, OK when it is valid (R297, R299, R308, R310, R447). -/
def offerRefusal (c : Chip) (p : Nat) (m : CutMsg) : Nat :=
  let len := m.imageLen.toNat
  match slotOfKey c p m.modelKey.toNat with
  | none => rejState
  | some s =>
    if nbit (fld (regB c p aSEC_PART_SLOTS) 15 0) s = false then rejPart
    else if (freeIndex c p).isNone ∨ (freeRegion c).isNone ∨ 4096 ≤ c.cuts.length ∨ 0xFFFFFFFC < m.epoch.toNat ∨
        2 ^ 38 < len ∨ 2 ≤ m.form.toNat then rejLimit
    else if heapFree c p < pressureLow c + landingLen len + reckon c s m.form.toNat len then rejBusy
    else if !isOn c .cut || sessClosed c p || regionsClosed c p then rejBusy
    else stOK

/-- Declines an OFFER, or a conversion that failed. -/
def declineMsg (m : CutMsg) (st epoch : Nat) : CutMsg :=
  { cutZero with typ := 0x18, status := BitVec.ofNat 8 st, cutId := m.cutId, srcHandle := m.srcHandle,
                 dstHandle := m.dstHandle, epoch := w32 epoch, imageLen := m.imageLen }

/-- The ACCEPT of a record. -/
def acceptMsg (r : CutRec) : CutMsg := { srcMsg r 0x0C r.epoch with regionTag := r.regionTag }

/-- A valid OFFER: one figure creates the entry in HANDOFF_IN, the registration and the record; ACCEPT follows
(R299). -/
def acceptOffer (c : Chip) (n p slot k g base : Nat) (m : CutMsg) : Chip :=
  let len := m.imageLen.toNat
  let old := entry c k
  let c1 := takeRange c g p base (landingLen len) true false true n (m.notify.toNat % 2 ^ 14) 16384 0
  let h := mkHandle p k old.gen
  let r : CutRec := { conn := n, cutId := m.cutId, source := false, idx := k, srcHandle := m.srcHandle,
                      dstHandle := h, epoch := m.epoch.toNat, form := m.form.toNat, imageLen := len,
                      imageCrc := 0, region := g, regionTag := regionTag c1 g,
                      reckoned := reckon c slot m.form.toNat len, state := .handoffIn, released := false,
                      confirmed := false, reclaimed := false, notify := m.notify.toNat % 2 ^ 14, tag := m.tag,
                      replyConn := 0, replyTag := 0, base := base, ended := false }
  let new := { freeEntry with part := p, gen := old.gen, state := .handoffIn, model := slot }
  openFig c1
    { subjects := [.session k, .region g]
      acts := [.regionSet true .active, .epochSet m.epoch.toNat] ++ dirDiff false old new
      origin := .cutIn
      staged := 0
      after := [.takeIndex k, .takeRegion g, .cutRecord r, .send n (.raw 4 (cutBytes (acceptMsg r)))] }

/-- An OFFER's figure waits to open. -/
def offerWaits (c : Chip) (n : Nat) (id : Word) : Bool :=
  c.fig.waiting.any (fun f => f.after.any (fun a =>
    match a with
    | .cutRecord r => !r.source && r.conn = n && r.cutId == id
    | _ => false))

/-- CUT_OFFER_RX. -/
def offerRx (c : Chip) (n : Nat) (m : CutMsg) : Chip :=
  match cutFind c false n m.cutId with
  | some r => if r.state = .handoffIn ∧ r.released = false then sendCut c n (acceptMsg r) else c
  | none =>
    if offerWaits c n m.cutId then c
    else
      let p := (partOfConn c n).getD 0
      let decline := fun c st => raise (sendCut c n (declineMsg m st m.epoch.toNat)) .cut 20
      let st := if (partOfConn c n).isNone then rejPart else offerRefusal c p m
      if st ≠ stOK then decline c st
      else
        match slotOfKey c p m.modelKey.toNat, freeIndex c p, freeRegion c,
            (if heapServes c p then heapAlloc c p (landingLen m.imageLen.toNat) else none) with
        | some s, some k, some g, some (base, c1) => acceptOffer c1 n p s k g base m
        | _, _, _, _ => decline c rejBusy

/-! ### RELEASE and conversion (R302) -/

/-- CUT_RELEASE_RX: the landing region is revoked; an unsettled destination confirms again (R306). -/
def releaseRx (c : Chip) (n : Nat) (m : CutMsg) : Chip :=
  match dstOf c n m with
  | (some r, some i) =>
    if r.state = .handoffIn ∧ r.released = false ∧ m.epoch.toNat = r.epoch then
      let c1 := setCut c { r with released := true, imageCrc := m.imageCrc }
      settle (openFig c1 (regionFig r.region .draining []))
    else if r.state = .unsettled ∧ arriving c i then sendCut c n (srcMsg r 0x0E (r.epoch + 1))
    else c
  | (none, some i) =>
    if (entry c i).state = .ready ∧ (body c i).unsettled then
      sendCut c n { cutZero with typ := 0x0E, cutId := m.cutId, srcHandle := m.srcHandle, dstHandle := m.dstHandle,
                                 epoch := w32 (entry c i).epoch }
    else c
  | _ => c

/-- The image in a landing region. -/
def landed (c : Chip) (r : CutRec) : List Byte := memRead c.mem r.base r.imageLen

/-- Offsets of the sections of an image: bitmap, groups, tails, recurrent state, counts, stack, stop state,
exclusions, end (R300). -/
structure ImageMap where
  bitmap : Nat
  groups : Nat
  tails : Nat
  recur : Nat
  counts : Nat
  stack : Nat
  stop : Nat
  excl : Nat
  stop_ : Nat
  deriving DecidableEq, Repr

/-- A block of an image is present: its drop bit is 0. -/
def imageHas (img : List Byte) (b : Nat) : Bool := !((img.getD (128 + b / 8) 0).getLsbD (b % 8))

/-- Bytes of a block in the group section of an image (R300). -/
def imageBlockLen (img : List Byte) (s : LayerShape) : Nat :=
  if rdLE img 3 1 = 0 then 128 * rowBytes s else blockSize (nbit (rdLE img 4 1) 0) s

/-- The blocks present in an image: key, offset, shape. -/
def imageBlocks (c : Chip) (slot : Nat) (img : List Byte) : List (Nat × Nat × LayerShape) :=
  let sh := shapes c slot
  let n := rdLE img 8 4 / 128 * sh.length
  let start := roundUp (128 + (n + 7) / 8) 64
  ((List.range n).foldl (fun (a : Nat × List (Nat × Nat × LayerShape)) b =>
    match sh[b % sh.length]? with
    | some s => if imageHas img b then (a.1 + imageBlockLen img s, a.2 ++ [(b, a.1, s)]) else a
    | none => a) (start, [])).2

/-- The sections of an image (R300). -/
def imageMap (c : Chip) (slot : Nat) (img : List Byte) : ImageMap :=
  let sh := shapes c slot
  let n := rdLE img 8 4 / 128 * sh.length
  let blocks := imageBlocks c slot img
  let groups := roundUp (128 + (n + 7) / 8) 64
  let tails := roundUp (groups + (blocks.map (fun b => imageBlockLen img b.2.2)).sum) 64
  let recur := roundUp (tails + (rdLE img 8 4 % 128) * (sh.map rowBytes).sum) 64
  let counts := roundUp (recur + rdLE img 0x34 4) 64
  let stack := roundUp (counts + 8 * rdLE img 0x28 4) 64
  let stop := roundUp (stack + 4 * rdLE img 0x2C 2) 64
  { bitmap := 128, groups := groups, tails := tails, recur := recur, counts := counts, stack := stack,
    stop := stop, excl := stop + 576, stop_ := stop + 576 + 128 }

/-- The checks of a FORM 1 block (R96, R300). -/
def imageBlockOk (img : List Byte) (layers b : Nat) (o : Nat) (s : LayerShape) : Bool :=
  let dense := nbit (rdLE img 4 1) 0
  let l := slice img o (blockSize dense s)
  blockOk l && rdLE l 0 2 = 0x4B42 && rdLE l 2 1 = 16 + b2n dense && rdLE l 3 1 = s.layer && rdLE l 5 1 = s.heads &&
    rdLE l 6 2 = s.dim && rdLE l 8 4 = b / layers && rdLE l 12 4 = payloadLen dense s 128

/-- The status of step 1 of the conversion (R302, R308). -/
def imageStatus (c : Chip) (slot : Nat) (r : CutRec) (img : List Byte) : Nat :=
  let len := rdLE img 8 4
  let g := rdLE img 0x14 2
  let head := img.take 128
  if ¬(128 ≤ img.length ∧ rdLE head 0x7C 4 = crc32c (head.take 0x7C) ∧ rdLE head 0 2 = 0x4349 ∧
      rdLE head 2 1 = 1 ∧ rdLE head 3 1 = r.form ∧ rdLE head 0x38 8 = r.imageLen ∧
      r.imageCrc.toNat = crc64 (img.drop 128) ∧ rdLE head 16 4 = r.epoch) then stTierFault
  else if 4194304 < len ∨ 4194304 < rdLE head 12 4 ∨ rdLE head 12 4 < len then rejLimit
  else if ¬(rdLE head 5 1 < 4 ∧ rdLE head 6 1 ≤ 8 ∧ rdLE head 7 1 ≤ 16 ∧ rdLE head 0x28 4 ≤ 65536 ∧
      rdLE head 0x2C 2 ≤ 256 ∧ rdLE head 0x34 4 = (recurSizes c slot).sum) then stTierFault
  else if (imageMap c slot img).stop_ ≠ r.imageLen then stTierFault
  else if r.form = 1 ∧ (imageBlocks c slot img).all (fun b =>
      imageBlockOk img (max 1 (attnLayers c slot)) b.1 b.2.1 b.2.2) = false then stTierFault
  else if g ≠ 0xFFFF ∧ (4096 ≤ g ∨ gramValid c g = false ∨ gramSlot c g ≠ slot) then rejState
  else stOK

/-- Cuts the heap piece of a landing region into its blocks and what lies around them (FORM 1). -/
def splitLanding (c : Chip) (base len part : Nat) (l : List (Nat × Nat)) : Chip :=
  match l with
  | [] => c
  | (o, _) :: _ =>
    let stop := l.foldl (fun m x => max m (x.1 + x.2)) o
    let pieces := [(base, o, part)] ++ l.map (fun x => (base + x.1, x.2, part)) ++
      (if stop < len then [(base + stop, len - stop, part)] else [])
    { c with tier := { c.tier with heap := dropFirst (fun x => x.1 = base) c.tier.heap ++ pieces } }

/-- Places one block of an image (R302): FORM 0 sealed into fresh space, FORM 1 where it lies, under a fresh
header. None where no ledger entry or space is left. -/
def placeImageBlock (c : Chip) (r : CutRec) (slot layers base : Nat) (img : List Byte)
    (b : Nat × Nat × LayerShape) : Option (Nat × Chip) :=
  let dense := nbit (rdLE img 4 1) 0
  let s := b.2.2
  if r.form = 0 then
    match stageBlock c (entry c r.idx).part (blockSize dense s) with
    | none => none
    | some (k, a, c1) =>
      let raw := slice img b.2.1 (128 * rowBytes s)
      let rows := (List.range 128).map (fun p => slice raw (p * rowBytes s) (rowBytes s))
      let payload := encodePayload dense (smoothing c slot) s 128 rows
      some (k, putMem c1 a (blockHeader dense slot s (b.1 / layers) k r.dstHandle 0 payload ++ payload))
  else
    let (v, c1) := takeFree c
    match pickLedger c1 v with
    | none => none
    | some k =>
      let a := base + b.2.1
      let payload := slice img (b.2.1 + 64) (payloadLen dense s 128)
      let c2 := noteLedger (ledgerFree c1)
        (setLedger c1 k { ledgerReset with gddr := some a, size := blockSize dense s, state := .staged })
      some (k, putMem c2 a (blockHeader dense slot s (b.1 / layers) k r.dstHandle 0 payload))

/-- Places the blocks of a list; none where one has no place. -/
def placeBlocks (r : CutRec) (slot layers base : Nat) (img : List Byte) :
    Chip → List (Nat × Nat × LayerShape) → Option (List (Nat × Nat) × Chip)
  | c, [] => some ([], c)
  | c, b :: rest =>
    match placeImageBlock c r slot layers base img b with
    | none => none
    | some (k, c1) =>
      match placeBlocks r slot layers base img c1 rest with
      | none => none
      | some (l, c2) => some ((b.1, k) :: l, c2)

/-- One figure per group, from the first group without a BLOCK_REF (R302). -/
def placeGroups (r : CutRec) (slot layers base : Nat) (img : List Byte) (blocks : List (Nat × Nat × LayerShape)) :
    Chip → List Nat → Option Chip
  | c, [] => some c
  | c, g :: rest =>
    match placeBlocks r slot layers base img c (blocks.filter (fun b => b.1 / layers = g)) with
    | none => none
    | some (refs, c1) =>
      let acts : List Action := if refs.isEmpty then [] else [.blockRef refs]
      let c2 := openFig c1 { subjects := [.session r.idx], acts := acts, origin := .cutIn,
                             staged := (stagedBytes acts).length, after := [] }
      placeGroups r slot layers base img blocks c2 rest

/-- A conversion that a check ends: DECLINE, and the session stays HANDOFF_IN (R302). -/
def declineImage (c : Chip) (r : CutRec) (st : Nat) : Chip :=
  let m := { srcMsg r 0x18 r.epoch with status := BitVec.ofNat 8 st }
  raise (sendCut (setCut c { r with state := .aborted }) r.conn m) .cut 20

/-- CUT_CONVERSION_START (R302): no placement is in flight; steps 1 to 3. -/
def conversionStart (c : Chip) (i : Nat) : Chip :=
  match dstCut c i with
  | none => c
  | some r =>
    let g := region c r.region
    if ¬(r.released ∧ r.state = .handoffIn) ∨ (landingOpen c r ∧ (g.state = .active ∨ g.inflight ≠ 0)) ∨
        regionWaits c r.region then c
    else
      let img := landed c r
      let slot := (entry c i).model
      let c0 := if landingOpen c r then revokeDrained c r.region else c
      let st := imageStatus c0 slot r img
      if st ≠ stOK then declineImage c0 r st
      else
        let layers := max 1 (attnLayers c0 slot)
        let blocks := (imageBlocks c0 slot img).filter (fun b => (tfind (body c0 i).blocks b.1).isNone)
        let whole := c0.tier.heap.any (fun x => x.1 = r.base && x.2.1 = landingLen r.imageLen)
        let c1 := if r.form = 1 ∧ whole then
            splitLanding c0 r.base (landingLen r.imageLen) (entry c0 i).part
              (blocks.map (fun b => (b.2.1, imageBlockLen img b.2.2)))
          else c0
        let groups := (List.range (rdLE img 8 4 / 128)).filter (fun g => blocks.any (fun b => b.1 / layers = g))
        match placeGroups r slot layers r.base img blocks (setCut c1 { r with reckoned := 0 }) groups with
        | none => declineImage c0 r stTierFault
        | some c2 => setCut c2 { r with
            state := .converting, reckoned := tailSetBytes c2 slot + smallBytes + exclBytes }

/-- Stop strings from the 576 B of a stop matcher: none holds 0xFF (R286). -/
def stopsFrom (area : List Byte) (n : Nat) : List (List Byte) :=
  (List.range n).map (fun k => (slice area (64 + 64 * k) 64).takeWhile (fun b => b ≠ 0xFF))

/-- The entry of an arrived session (R302). -/
def arrivedEntry (c : Chip) (i : Nat) (img : List Byte) (addrs : List Nat) (table : Nat) : Session :=
  { entry c i with
    state := .ready
    dense := nbit (rdLE img 4 1) 0
    stopInclude := nbit (rdLE img 4 1) 1
    priority := rdLE img 5 1
    length := rdLE img 8 4
    maxLen := rdLE img 12 4
    client := rdLE img 0x16 2
    grammar := rdLE img 0x14 2
    blockTable := table % gddrSize
    tailBase := addrs.getD 0 0
    smallState := addrs.getD 1 0
    exclTable := addrs.getD 2 0
    prngKey := w64 (rdLE img 0x18 8)
    prngCtr := w64 (rdLE img 0x20 8)
    excluded := rdLE img 0x30 4
    stopCount := rdLE img 6 1
    exclCount := rdLE img 7 1 }

/-- CUT_CONVERSION_DONE (R302): steps 4 to 6. -/
def conversionDone (c : Chip) (i : Nat) : Chip :=
  match dstCut c i with
  | none => c
  | some r =>
    if r.state ≠ .converting ∨ c.fig.waiting.any (fun f => .session i ∈ f.subjects) then c
    else
      let e := entry c i
      let img := landed c r
      let m := imageMap c e.model img
      let c0 := setCut c { r with reckoned := 0 }
      match (if heapServes c e.part then heapAllocs c0 e.part [tailSetBytes c e.model, smallBytes, exclBytes] else none) with
      | none => c
      | some (addrs, c1) =>
        let n := rdLE img 8 4 % 128
        let c2 := ((shapes c e.model).foldl (fun (a : Nat × Chip) s =>
          let rows := (List.range n).map (fun p => slice img (a.1 + p * rowBytes s) (rowBytes s))
          (a.1 + n * rowBytes s, putTailRows a.2 (addrs.getD 0 0) e.model s rows)) (m.tails, c1)).2
        let c3 := putMem c2 (recurAddr c2 (addrs.getD 0 0) e.model) (slice img m.recur (rdLE img 0x34 4))
        let (v, c4) := takeFree c3
        let area := slice img m.stop 576
        let spans := exclOf (slice img m.excl 128) (rdLE img 7 1)
        let new := arrivedEntry c4 i img addrs v
        let acts : List Action :=
          countBatches (countsOf ((List.range (rdLE img 0x28 4)).map (fun j => countSlotOf (slice img (m.counts + 8 * j) 8)))) ++
          [.grammarSet ((List.range (rdLE img 0x2C 2)).map (fun j => rdLE img (m.stack + 4 * j) 4)),
           .stopSet (area.take 64) (stopsFrom area (rdLE img 6 1)),
           .exclSet spans (rdLE img 0x30 4), .epochSet (r.epoch + 1)]
        let c5 := setBody (releaseRest c4 r.base (landingLen r.imageLen)) i { body c4 i with unsettled := true }
        let r1 := { r with state := .unsettled, reckoned := 0 }
        openFig c5 { sessFig c5 i new acts
          [.cutRecord r1, .send r.conn (.raw 4 (cutBytes (srcMsg r 0x0E (r.epoch + 1))))] with origin := .cutIn }

/-! ### Settling (R303) -/

/-- Settles an unsettled session: the arrival record goes to NOTIFY. -/
def settleArrival (c : Chip) (i : Nat) (r : CutRec) : Chip :=
  let e := entry c i
  let c1 := setBody (setCut c { r with state := .settled, confirmed := true, ended := true }) i
    { body c i with unsettled := false }
  let c2 := bump c1 aCUT_IN_CNT 1
  let c3 := sendOut c2 r.notify (.comp { bareRec r.dstHandle r.tag 0x0B stOK with
    epoch := e.epoch, length := e.length, figSeq := some e.figSeq, aux := w64 r.srcHandle.toNat }) e.figSeq
  raise c3 .cut 16

/-- Settles an unsettled session that a message meets by its handle alone (R306). No record holds the NOTIFY
connection and the TAG of R303, so no arrival record goes out. DEDUCED, log 123. -/
def settleBare (c : Chip) (i : Nat) : Chip :=
  raise (bump (setBody c i { body c i with unsettled := false }) aCUT_IN_CNT 1) .cut 16

/-- CUT_DONE_RX. -/
def doneRx (c : Chip) (n : Nat) (m : CutMsg) : Chip :=
  match dstOf c n m with
  | (some r, some i) => if r.state = .unsettled ∧ arriving c i then settleArrival c i r else c
  | (none, some i) => if (entry c i).state = .ready ∧ (body c i).unsettled then settleBare c i else c
  | _ => c

/-- CUT_WITHDRAW_RX, and RECLAIM at an arriving session: the higher epoch discards it (R306). -/
def withdrawRx (c : Chip) (n : Nat) (m : CutMsg) : Chip :=
  match dstOf c n m with
  | (r, some i) => if arriving c i ∧ (entry c i).epoch < m.epoch.toNat then discardDst c i r else c
  | _ => c

/-- CUT_RECLAIM_RX: also reaches a settled copy at E + 1 with E + 2 (R306). -/
def reclaimRx (c : Chip) (n : Nat) (m : CutMsg) : Chip :=
  match dstOf c n m with
  | (r, some i) =>
    let s := (entry c i).state
    if arriving c i then withdrawRx c n m
    else if (s = .ready ∨ s = .running ∨ s = .sitout ∨ s = .cold ∨ s = .damaged) ∧
        m.epoch.toNat = (entry c i).epoch + 1 then discardDst c i r
    else c
  | _ => c

/-! ### The source (R305, R306) -/

/-- The OFFER operation of a source, when it is still in progress. -/
def offerOp (c : Chip) (i : Nat) : Option Op :=
  match opsOf c i with
  | o :: _ => if o.code = 11 ∧ o.phase = .handing then some o else none
  | [] => none

/-- The records that end an OFFER operation. -/
def offerEnds (c : Chip) (i : Nat) (new : Session) (st aux : Nat) : List After :=
  match offerOp c i with
  | some o => [.send o.conn (.comp { compRec o st new with aux := w64 aux }), .opDone i st]
  | none => []

/-- A source returns to READY at an epoch (R306): a message to the destination if one is given, and the OFFER's
end. -/
def srcReturn (c : Chip) (i : Nat) (r : CutRec) (epoch st : Nat) (msg : Option Byte) : Chip :=
  let new := { entry c i with state := .ready, epoch := epoch }
  let raw := match msg with
    | some t => [After.send r.conn (.raw 4 (cutBytes (srcMsg r t epoch)))]
    | none => []
  let r1 := { r with state := if st = stReclaimed then .reclaimed else .aborted, ended := true,
                     reclaimed := decide (r.state = .heldSrc) }
  let c1 := if st = stCutAborted then bump c aCUT_ABORT_CNT 1 else c
  let c2 := if r.state = .heldSrc then bump c1 aCUT_RECLAIM_CNT 1 else c1
  openFig (forgetUse c2 r.conn (.cutImage r.cutId))
    { sessFig c2 i { new with epoch := (entry c i).epoch } [.epochSet epoch]
        ([.cutRecord r1] ++ raw ++ offerEnds c2 i new st 0) with origin := .cutIn }

/-- A source in HANDOFF_OUT withdraws (R306): no ACCEPT in time, or an image write refused. -/
def srcWithdraw (c : Chip) (i : Nat) (r : CutRec) (st : Nat) : Chip :=
  srcReturn c i r ((entry c i).epoch + 2) st (some 0x19)

/-- CUT_ACCEPT_RX (R301, R305): the image is written into the landing region. -/
def acceptRx (c : Chip) (n : Nat) (m : CutMsg) : Chip :=
  match srcOf c n m with
  | (some r, some i) =>
    if r.state = .offered ∧ (entry c i).state = .handoffOut ∧ m.epoch.toNat = r.epoch then
      let ca := checkCopies c (blockList c i)
      if anyDamaged ca (blockList c i) then hurtSession (settle (srcWithdraw ca i r stTierFault)) i
      else
        let img := cutImage ca i
        let c1 := setCut ca { r with state := .sending, dstHandle := m.dstHandle, regionTag := m.regionTag,
                                     imageCrc := w64 (crc64 (img.drop 128)) }
        remoteWrite c1 n m.regionTag 0 img (.cutImage r.cutId)
    else c
  | _ => c

/-- CUT_IMAGE_ACKED (R305): HELD commits and RELEASE is sent. -/
def imageAcked (c : Chip) (i : Nat) : Chip :=
  match srcCut c i with
  | none => c
  | some r =>
    if r.state ≠ .sending ∨ (entry c i).state ≠ .handoffOut ∨ useClosed c r.conn (.cutImage r.cutId) = false ∨
        (useNak c r.conn (.cutImage r.cutId)).isSome then c
    else
      let m := { srcMsg r 0x0D r.epoch with imageCrc := r.imageCrc }
      openFig c { sessFig c i { entry c i with state := .held } []
        [.cutRecord { r with state := .heldSrc }, .send r.conn (.raw 4 (cutBytes m))] with origin := .cutIn }

/-- The hand-over completes at the source (R306): FREE, DONE, OK with DST_HANDLE; the operations behind the OFFER
complete with REJECTED_STATE (R305). -/
def srcDone (c : Chip) (i : Nat) (r : CutRec) : Chip :=
  let new := { entry c i with state := .free }
  let rest := ((opsOf c i).drop 1).flatMap (fun q => endRecs c i q rejState)
  let r1 := { r with state := .done, confirmed := true, ended := true }
  let c1 := bump c aCUT_OUT_CNT 1
  openFig c1 { sessFig c1 i new []
    ([.cutRecord r1, .opTrim i, .send r.conn (.raw 4 (cutBytes (srcMsg r 0x1D (r.epoch + 1))))] ++
      offerEnds c1 i { new with epoch := r.epoch } stOK r.dstHandle.toNat ++ rest) with origin := .cutIn }

/-- The record and session that a message of the destination meets: a session met by its handle acts as with a
record (R306). -/
def srcMeets (c : Chip) (n : Nat) (m : CutMsg) : Option (CutRec × Nat) :=
  match srcOf c n m with
  | (some r, some i) => some (r, i)
  | (none, some i) =>
    let e := entry c i
    some ({ conn := n, cutId := m.cutId, source := true, idx := i, srcHandle := m.srcHandle, dstHandle := m.dstHandle,
            epoch := e.epoch, form := 1, imageLen := m.imageLen.toNat, imageCrc := 0, region := 0, regionTag := 0,
            reckoned := 0, state := if e.state = .held then .heldSrc else .done, released := false, confirmed := false,
            reclaimed := decide (e.state = .ready), notify := 0, tag := 0, replyConn := 0, replyTag := 0, base := 0,
            ended := decide (e.state ≠ .held) }, i)
  | _ => none

/-- CUT_CONFIRM_RX. -/
def confirmRx (c : Chip) (n : Nat) (m : CutMsg) : Chip :=
  match srcMeets c n m with
  | some (r, i) =>
    let e := entry c i
    if e.state = .held ∧ r.state = .heldSrc ∧ m.epoch.toNat = e.epoch + 1 then srcDone c i r
    else if e.state = .ready ∧ e.epoch = m.epoch.toNat + 1 then sendCut c n (srcMsg r 0x1A e.epoch)
    else c
  | none => c

/-- CUT_DECLINE_RX. -/
def declineRx (c : Chip) (n : Nat) (m : CutMsg) : Chip :=
  match srcMeets c n m with
  | some (r, i) =>
    let e := entry c i
    if e.state = .handoffOut ∧ r.ended = false then raise (srcReturn c i r e.epoch stCutAborted none) .cut 20
    else if e.state = .held ∧ r.state = .heldSrc then
      raise (srcReturn c i r (e.epoch + 2) stCutAborted (some 0x1A)) .cut 20
    else c
  | none => c

/-! ### PROBE and STANDING (R306, R307) -/

/-- FLAGS of a STANDING (R298). -/
def standFlags (r : Option CutRec) : Byte :=
  match r with
  | some r => BitVec.ofNat 8 (b2n r.released + 2 * b2n r.confirmed + 4 * b2n r.reclaimed)
  | none => 0

/-- IMAGE_LEN of a record. -/
def recLen (r : Option CutRec) : Nat :=
  match r with
  | some x => x.imageLen
  | none => 0

/-- The STANDING that answers a PROBE: the state and epoch of the session, or 0xFF at 0xFFFF_FFFF. -/
def standing (c : Chip) (m : CutMsg) (r : Option CutRec) (i : Option Nat) : CutMsg :=
  let base := { cutZero with typ := 0x1C, flags := standFlags r, cutId := m.cutId, srcHandle := m.srcHandle,
                             dstHandle := m.dstHandle,
                             imageLen := w64 (recLen r) }
  match i with
  | some k => { base with status := BitVec.ofNat 8 (stateCode (entry c k).state), epoch := w32 (entry c k).epoch }
  | none => { base with status := 0xFF, epoch := 0xFFFFFFFF }

/-- The answer of a source end to a PROBE: STANDING, and RECLAIM again from a source READY at E + 2 (R306). -/
def probeSrc (c : Chip) (n : Nat) (m : CutMsg) (r : Option CutRec) (i : Option Nat) : Chip :=
  let c1 := sendCut c n (standing c m r i)
  match i with
  | some k =>
    if (entry c k).state = .ready ∧ (entry c k).epoch = m.epoch.toNat + 1 then
      sendCut c1 n { cutZero with typ := 0x1A, cutId := m.cutId, srcHandle := m.srcHandle, dstHandle := m.dstHandle,
                                  epoch := w32 (entry c k).epoch }
    else c1
  | none => c1

/-- CUT_PROBE_RX: answered by the end whose record it names, else by the end whose handle it names. -/
def probeRx (c : Chip) (n : Nat) (m : CutMsg) : Chip :=
  let src := srcOf c n m
  let dst := dstOf c n m
  let names := fun (x : Option CutRec) => (x.map (fun r => decide (r.srcHandle = m.srcHandle))).getD false
  if names src.1 then probeSrc c n m src.1 src.2
  else if names dst.1 then sendCut c n (standing c m dst.1 dst.2)
  else if src.1.isNone && src.2.isSome then probeSrc c n m none src.2
  else if dst.1.isNone && dst.2.isSome then sendCut c n (standing c m none dst.2)
  else sendCut c n (standing c m none none)

/-- STANDING at a destination (R306). -/
def standingDst (c : Chip) (m : CutMsg) (r : Option CutRec) (i : Nat) : Chip :=
  let e := entry c i
  let gone := decide (m.status = 0xFF ∧ m.epoch = 0xFFFFFFFF)
  if arriving c i = false then c
  else
    match r with
    | some x =>
      if e.state = .ready ∧ m.flags.getLsbD 1 then settleArrival c i x
      else if gone then (if e.state = .handoffIn then discardDst c i r else raise c .cut 19)
      else if e.epoch < m.epoch.toNat then discardDst c i r
      else c
    | none =>
      if e.state = .ready ∧ m.flags.getLsbD 1 then settleBare c i
      else if gone then (if e.state = .handoffIn then discardDst c i r else raise c .cut 19)
      else if e.epoch < m.epoch.toNat then discardDst c i r
      else c

/-- STANDING at a HELD source (R306). -/
def standingSrc (c : Chip) (n : Nat) (m : CutMsg) (r : CutRec) (i : Nat) : Chip :=
  let e := entry c i
  let st := m.status.toNat
  if e.state ≠ .held ∨ r.state ≠ .heldSrc then c
  else if 1 ≤ st ∧ st ≤ 4 ∧ m.epoch.toNat = e.epoch + 1 then srcDone c i r
  else if st = 6 ∧ m.flags.getLsbD 0 = false then
    sendCut c n { srcMsg r 0x0D r.epoch with imageCrc := r.imageCrc }
  else c

/-- CUT_STANDING_RX. -/
def standingRx (c : Chip) (n : Nat) (m : CutMsg) : Chip :=
  let atDst := fun (_ : Unit) =>
    match dstOf c n m with
    | (x, some j) => standingDst c m x j
    | _ => c
  match srcMeets c n m with
  | some (r, i) => if r.srcHandle = m.srcHandle ∧ (entry c i).state = .held then standingSrc c n m r i else atDst ()
  | none => atDst ()

/-! ### Timers (R303-R307) -/

/-- A timer of a session's cut-in. -/
def withHandle (c : Chip) (h : Word) (f : Chip → Nat → Chip) : Chip :=
  if cutUp c = false then c
  else
    let c1 := settle c
    match sessionAt c1 h with
    | some i => settle (kick (settle (f c1 i)))
    | none => c1

/-- ACCEPT_TIMEOUT. -/
def acceptTimeout (c : Chip) (i : Nat) : Chip :=
  match srcCut c i with
  | some r =>
    if r.state = .offered ∧ (entry c i).state = .handoffOut then srcWithdraw c i r stCutAborted else c
  | none => c

/-- CONFIRM_TIMEOUT. -/
def confirmTimeout (c : Chip) (i : Nat) : Chip :=
  match srcCut c i with
  | some r =>
    if r.state = .heldSrc ∧ (entry c i).state = .held then
      raise (srcReturn c i r ((entry c i).epoch + 2) stReclaimed (some 0x1A)) .cut 17
    else c
  | none => c

/-- SOURCE_PROBE_TIMER. -/
def sourceProbe (c : Chip) (i : Nat) : Chip :=
  match srcCut c i with
  | some r =>
    if r.state = .heldSrc ∧ (entry c i).state = .held then sendCut c r.conn (srcMsg r 0x1B (entry c i).epoch) else c
  | none => c

/-- SETTLE_PROBE_TIMER. -/
def settleProbe (c : Chip) (i : Nat) : Chip :=
  match dstCut c i with
  | some r =>
    if r.state = .unsettled then
      sendCut (sendCut c r.conn (srcMsg r 0x1B (r.epoch + 1))) r.conn (srcMsg r 0x0E (r.epoch + 1))
    else c
  | none => c

/-- ORPHAN_AGE_TIMER. -/
def orphanAge (c : Chip) (i : Nat) : Chip :=
  match dstCut c i with
  | some r =>
    if (entry c i).state = .handoffIn then sendCut (raise c .cut 19) r.conn (srcMsg r 0x1B (entry c i).epoch) else c
  | none => c

/-- RECORD_AGE_EXPIRY: a record of an ended cut-in goes. -/
def recordAge (c : Chip) (n : Nat) (id : Word) : Chip :=
  { c with cuts := c.cuts.filter (fun r => !(r.conn = n && r.cutId == id && r.ended)) }

/-- CUT.RESOLVE (R307, R309): the status of the action. -/
def cutResolve (c : Chip) (h : Word) (act : Nat) : Nat × Chip :=
  match sessionAt c h with
  | none => (rejState, c)
  | some i =>
    if arriving c i = false then (rejState, c)
    else if c.flt.chipPending ∨ isOn c .fig = false then (rejBusy, c)
    else if act = 1 then
      match dstCut c i with
      | some r => if r.state = .unsettled then (stOK, settleArrival c i r) else (rejState, c)
      | none => if (body c i).unsettled then (stOK, settleBare c i) else (rejState, c)
    else if act = 2 then (stOK, discardDst c i (dstCut c i))
    else (stOK, c)

/-- A source in HANDOFF_OUT withdraws at CUT.DRAIN_TIMEOUT (R310). -/
def cutDrainTimeout (c : Chip) : Chip :=
  (c.cuts.filter (fun r => r.source && !r.ended && decide ((entry c r.idx).state = .handoffOut))).foldl
    (fun c r => srcWithdraw c r.idx r stAbortDrain) c

/-! ### Commands -/

/-- The form of a message command. -/
def cutCmd (s : State) (n : Nat) (m : CutMsg) (f : Chip → Nat → CutMsg → Chip) : Host.Outcome State Fault Refusal :=
  act s (fun c => whenAwake c (fun c => withCut c m (fun c => f c n m)))

/-- The form of a timer command. -/
def cutTimer (s : State) (h : Word) (f : Chip → Nat → Chip) : Host.Outcome State Fault Refusal :=
  act s (fun c => whenAwake c (fun c => withHandle c h f))

/-- CUT_OFFER_RX. -/
def execCutOfferRx (conn : Conn) (m : CutMsg) (s : State) : Host.Outcome State Fault Refusal :=
  cutCmd s conn.toNat m offerRx

/-- CUT_ACCEPT_RX. -/
def execCutAcceptRx (conn : Conn) (m : CutMsg) (s : State) : Host.Outcome State Fault Refusal :=
  cutCmd s conn.toNat m acceptRx

/-- CUT_IMAGE_ACKED. -/
def execCutImageAcked (handle : Word) (s : State) : Host.Outcome State Fault Refusal := cutTimer s handle imageAcked

/-- CUT_RELEASE_RX. -/
def execCutReleaseRx (conn : Conn) (m : CutMsg) (s : State) : Host.Outcome State Fault Refusal :=
  cutCmd s conn.toNat m releaseRx

/-- CUT_CONVERSION_START. -/
def execCutConversionStart (handle : Word) (s : State) : Host.Outcome State Fault Refusal :=
  cutTimer s handle conversionStart

/-- CUT_CONVERSION_DONE. -/
def execCutConversionDone (handle : Word) (s : State) : Host.Outcome State Fault Refusal :=
  cutTimer s handle conversionDone

/-- CUT_CONFIRM_RX. -/
def execCutConfirmRx (conn : Conn) (m : CutMsg) (s : State) : Host.Outcome State Fault Refusal :=
  cutCmd s conn.toNat m confirmRx

/-- CUT_DECLINE_RX. -/
def execCutDeclineRx (conn : Conn) (m : CutMsg) (s : State) : Host.Outcome State Fault Refusal :=
  cutCmd s conn.toNat m declineRx

/-- CUT_WITHDRAW_RX. -/
def execCutWithdrawRx (conn : Conn) (m : CutMsg) (s : State) : Host.Outcome State Fault Refusal :=
  cutCmd s conn.toNat m withdrawRx

/-- CUT_RECLAIM_RX. -/
def execCutReclaimRx (conn : Conn) (m : CutMsg) (s : State) : Host.Outcome State Fault Refusal :=
  cutCmd s conn.toNat m reclaimRx

/-- CUT_PROBE_RX. -/
def execCutProbeRx (conn : Conn) (m : CutMsg) (s : State) : Host.Outcome State Fault Refusal :=
  cutCmd s conn.toNat m probeRx

/-- CUT_STANDING_RX. -/
def execCutStandingRx (conn : Conn) (m : CutMsg) (s : State) : Host.Outcome State Fault Refusal :=
  cutCmd s conn.toNat m standingRx

/-- CUT_DONE_RX. -/
def execCutDoneRx (conn : Conn) (m : CutMsg) (s : State) : Host.Outcome State Fault Refusal :=
  cutCmd s conn.toNat m doneRx

/-- ACCEPT_TIMEOUT. -/
def execAcceptTimeout (handle : Word) (s : State) : Host.Outcome State Fault Refusal := cutTimer s handle acceptTimeout

/-- CONFIRM_TIMEOUT. -/
def execConfirmTimeout (handle : Word) (s : State) : Host.Outcome State Fault Refusal := cutTimer s handle confirmTimeout

/-- SOURCE_PROBE_TIMER. -/
def execSourceProbeTimer (handle : Word) (s : State) : Host.Outcome State Fault Refusal := cutTimer s handle sourceProbe

/-- SETTLE_PROBE_TIMER. -/
def execSettleProbeTimer (handle : Word) (s : State) : Host.Outcome State Fault Refusal := cutTimer s handle settleProbe

/-- ORPHAN_AGE_TIMER. -/
def execOrphanAgeTimer (handle : Word) (s : State) : Host.Outcome State Fault Refusal := cutTimer s handle orphanAge

/-- RECORD_AGE_EXPIRY. -/
def execRecordAgeExpiry (conn : Conn) (cutId : Word) (s : State) : Host.Outcome State Fault Refusal :=
  act s (fun c => whenAwake c (fun c => recordAge c conn.toNat cutId))

end Sys2Proof.Machine
end

