-- ==== Sys2Proof/Machine/Port.lean ====
section
/-! DEFINITION. The ports: the peer fabric's frames, routing, arbitration, lanes and calibration (R343-R364), the
host port's frames, classification, policers and link (R365-R370, R379, R380), and the egress scheduler's shapers
and samples (R371-R377, R381, R382). -/

namespace Sys2Proof.Machine

/-! ### Peer ports (R343, R361) -/

/-- An OFF port. -/
def portReset : PeerPort :=
  { state := .off, active := 0, lost := 0, dark := 0, node := none, known := false, queue := [], bulkTurn := 0,
    ckptTurn := 0, transitTurn := [], localTurn := [], tx := [] }

/-- A peer port. -/
def pport (c : Chip) (p : Nat) : PeerPort := tget portReset c.peer.ports p

/-- Writes a peer port. -/
def setPport (c : Chip) (p : Nat) (x : PeerPort) : Chip :=
  { c with peer := { c.peer with ports := tset portReset c.peer.ports p x } }

/-- A lane of a port is in its stripe: active, lit, and not out for a sweep (R344, R354, R358). -/
def inStripe (c : Chip) (p l : Nat) : Bool :=
  (pport c p).active.getLsbD l && !(pport c p).dark.getLsbD l && decide (c.peer.sweep ≠ some (p, l))

/-- A port that carries frames: UP or REDUCED. -/
def portUp (c : Chip) (p : Nat) : Bool := decide ((pport c p).state = .up ∨ (pport c p).state = .reduced)

/-- PEER forwards: ON, DRAINING or DISABLED (R364), and one of its lasers is lit. -/
def peerForwards (c : Chip) : Bool :=
  (isUp c .peer || decide (bstate c .peer = .disabled)) && !c.peer.bothLasersOut

/-- Counts a dropped frame. -/
def dropFrame (c : Chip) (a n : Nat) : Chip := if n = 0 then c else raise (bump c a n) .peer 21

/-- Drops the frames that wait for a port (R356, R361). -/
def dropQueue (c : Chip) (p : Nat) : Chip :=
  let x := pport c p
  dropFrame (setPport c p { x with queue := [] }) aPEER_DROP_DOWN x.queue.length

/-- A port goes OFF: lanes dark. -/
def portOff (c : Chip) (p : Nat) : Chip :=
  let c1 := dropQueue c p
  setPport c1 p { portReset with tx := (pport c1 p).tx }

/-- A port starts training. -/
def portTrain (c : Chip) (p : Nat) : Chip :=
  setPport c p { pport c p with state := .training, active := 0, lost := 0, dark := 0, node := none, known := false }

/-- PORT_CFG.ENABLE of a port. -/
def portEnabled (c : Chip) (p : Nat) : Bool := bit (regB c p aPEER_PORT_CFG) 0

/-- A port goes DOWN (R356). -/
def portDown (c : Chip) (p : Nat) : Chip :=
  let c1 := dropQueue c p
  let c2 := setPport c1 p { pport c1 p with state := .down, active := 0, dark := 0 }
  fault (raise c2 .peer 16) 0x1A .peer p 0 false

/-- The four ports. -/
def ports4 : List Nat := [0, 1, 2, 3]

/-- PEER goes ON: enabled ports that are OFF train (R361). -/
def peerOn (c : Chip) : Chip :=
  ports4.foldl (fun c p => if (pport c p).state = .off ∧ portEnabled c p then portTrain c p else c) c

/-- PEER goes OFF. -/
def peerOff (c : Chip) : Chip := ports4.foldl portOff { c with peer := { c.peer with sweep := none } }

/-! ### Calibration (R353, R354) -/

/-- The first port from `p` on that carries frames. -/
def nextSweepPort (c : Chip) (p : Nat) : Option Nat := ports4.find? (fun q => decide (p ≤ q) && portUp c q)

/-- A full sweep starts; one that runs goes on. -/
def startSweep (c : Chip) : Chip :=
  if c.peer.sweep.isSome ∨ ¬peerForwards c then c
  else
    match nextSweepPort c 0 with
    | some p => { c with peer := { c.peer with sweep := some (p, 0) } }
    | none => c

/-- CAL_CTRL.AUTO. -/
def calAuto (c : Chip) : Bool := bit (reg c aPEER_CAL_CTRL) 8

/-- CAL_LANE_DONE (R354): the lane returns to service if it locked; the next lane, the next port, or the end. -/
def calLaneDone (c : Chip) (locked : Bool) : Chip :=
  match c.peer.sweep with
  | none => c
  | some (p, l) =>
    let x := pport c p
    let m : BitVec 16 := BitVec.ofNat 16 (2 ^ l)
    let c1 := if portUp c p = false then c
      else if locked then setPport c p { x with active := x.active ||| m, lost := x.lost &&& ~~~m }
      else setPport c p { x with active := x.active &&& ~~~m, lost := x.lost ||| m }
    if portUp c1 p ∧ l < 15 then { c1 with peer := { c1.peer with sweep := some (p, l + 1) } }
    else
      match nextSweepPort c1 (p + 1) with
      | some q => { c1 with peer := { c1.peer with sweep := some (q, 0) } }
      | none => raise { c1 with peer := { c1.peer with sweep := none } } .peer 19

/-! ### Lanes and ports (R355-R358, R361) -/

/-- PORT_TRAINED (R361). -/
def portTrained (c : Chip) (p : Nat) (lanes : BitVec 16) (node : Option Nat) : Chip :=
  let x := pport c p
  if x.state ≠ .training ∨ lanes = 0 ∨ isUp c .peer = false ∧ bstate c .peer ≠ .disabled then c
  else
    startSweep (raise (setPport c p { x with
      state := .up, active := lanes, lost := ~~~lanes, dark := 0, node := node, known := node.isSome }) .peer 22)

/-- LANE_LOST (R355): the port goes DOWN without an active lane (R356). -/
def laneLost (c : Chip) (p l : Nat) : Chip :=
  let x := pport c p
  let m : BitVec 16 := BitVec.ofNat 16 (2 ^ l)
  if portUp c p = false ∨ x.active &&& m = 0 then c
  else
    let c1 := setPport c p { x with active := x.active &&& ~~~m, lost := x.lost ||| m, dark := x.dark &&& ~~~m }
    let c2 := fault (raise c1 .peer 17) 0x19 .peer (16 * p + l) 0 false
    if (pport c2 p).active = 0 then portDown c2 p else c2

/-- The lowest four bits set of a lane map. -/
def lowFour (m : BitVec 16) : BitVec 16 :=
  ((((List.range 16).filter (fun i => m.getLsbD i)).take 4).foldl (fun a i => a ||| BitVec.ofNat 16 (2 ^ i)) 0)

/-- IDLE_REDUCE (R358). -/
def idleReduce (c : Chip) (p : Nat) : Chip :=
  let x := pport c p
  if x.state = .up ∧ bit (regB c p aPEER_PORT_CFG) 2 then
    setPport c p { x with state := .reduced, dark := x.active &&& ~~~(lowFour x.active) }
  else c

/-- LANE_RELIGHT (R358). -/
def laneRelight (c : Chip) (p : Nat) : Chip :=
  let x := pport c p
  if x.state = .reduced then setPport c p { x with state := .up, dark := 0 } else c

/-- SLOW_WINDOW (R357). -/
def slowWindow (c : Chip) (l : List Nat) : Chip :=
  let lim := min 100 (fld (reg c aPEER_SLOW_CFG) 6 0)
  (numbered l).foldl (fun c e =>
    let slow := decide (lim < e.2)
    let c1 := setRegB c e.1 aPEER_STALL (w32 (b2n slow * 2 ^ 31 + e.2 % 128))
    if slow then raise c1 .peer 18 else c1) c

/-- The lit source fails over, or both are out (R345, R365): LASER and the failover count. -/
def laserSwap (c : Chip) (a : Nat) : Chip :=
  let w := reg c a
  let n := min 255 (fld w 15 8 + 1)
  setReg c a (w32 (n * 256 + (1 - b2n (bit w 0))))

/-- LASER_FAILOVER (R345). -/
def peerLaser (c : Chip) (ok : Bool) : Chip :=
  if ok then fault (raise (laserSwap c aPEER_LASER) .peer 20) 0x1B .peer 0 0 false
  else
    let c0 := setFld c aPEER_LASER 1 1 0
    let c1 := { c0 with peer := { c0.peer with bothLasersOut := true, sweep := none } }
    ports4.foldl (fun c p => if portUp c p ∨ (pport c p).state = .training then portDown c p else c) c1

/-! ### Frames and routes (R346-R349) -/

/-- The 8 B header and the packet of an Idsabry frame (R346). -/
def frameBytes (vc cls : Nat) (cong spray : Bool) (hops dst src : Nat) (pkt : List Byte) : List Byte :=
  [BitVec.ofNat 8 (vc + 4 * cls + 16 * b2n cong + 32 * b2n spray), BitVec.ofNat 8 hops] ++ leBytes 2 dst ++
    leBytes 2 src ++ leBytes 2 pkt.length ++ pkt

/-- A frame's header is good (R346). -/
def frameOk (l : List Byte) : Bool :=
  let b := (l.getD 0 0).toNat
  8 ≤ l.length && b / 64 = 0 && (b / 4) % 4 ≠ 3 && rdLE l 2 2 < 4096 && rdLE l 4 2 < 4096 && rdLE l 6 2 < 8192 &&
    20 ≤ rdLE l 6 2 && rdLE l 6 2 ≤ 4148 && l.length = 8 + rdLE l 6 2

/-- VC of a frame. -/
def frVc (l : List Byte) : Nat := (l.getD 0 0).toNat % 4
/-- CLASS of a frame. -/
def frCls (l : List Byte) : Nat := (l.getD 0 0).toNat / 4 % 4
/-- CONG of a frame. -/
def frCong (l : List Byte) : Bool := (l.getD 0 0).getLsbD 4
/-- SPRAY of a frame; ignored outside the bulk and checkpoint channels (R362). -/
def frSpray (l : List Byte) : Bool := (l.getD 0 0).getLsbD 5 && 2 ≤ frVc l
/-- HOPS of a frame. -/
def frHops (l : List Byte) : Nat := (l.getD 1 0).toNat
/-- DST of a frame. -/
def frDst (l : List Byte) : Nat := rdLE l 2 2
/-- SRC of a frame. -/
def frSrc (l : List Byte) : Nat := rdLE l 4 2

/-- An entry of the active routing bank (R349). -/
def routeEntry (c : Chip) (dst : Nat) : Word := tget 0 (if c.peer.active then c.peer.bank1 else c.peer.bank0) dst

/-- What routing makes of a frame. -/
inductive Route
  | out (port cls : Nat)
  | noRoute
  | down
  deriving DecidableEq, Repr

/-- The escape class of a frame that leaves through a port (R348). -/
def escapeClass (c : Chip) (from_ : Option Nat) (cls out : Nat) : Nat :=
  let fromX := match from_ with
    | some p => decide (p < 2)
    | none => false
  if bit (regB c out aPEER_PORT_CFG) 1 then 1
  else if decide (2 ≤ out) && fromX then 0
  else if cls = 2 then 0 else cls

/-- Routes a frame (R347, R348, R356). `v` tells which port of a spray frame's mask holds the most credit, or that
none has credit for it (log entry 51). -/
def routeOf (c : Chip) (from_ : Option Nat) (dst cls : Nat) (spray : Bool) (v : Nat) : Route :=
  let e := routeEntry c dst
  if bit e 31 = false then .noRoute
  else
    let ok := fun (q : Nat) => nbit (fld e 7 4) q && portUp c q && decide (from_ ≠ some q)
    let cands := if spray && cls = 2 then ports4.filter ok else []
    match cands[v % (cands.length + 1)]? with
    | some q => .out q 2
    | none =>
      let q := fld e 1 0
      if from_ = some q then .noRoute
      else if portUp c q = false then .down
      else .out q (escapeClass c from_ cls q)

/-- Queues a frame for an output port, or drops it. -/
def queueFrame (c : Chip) (r : Route) (vc : Nat) (transit cong spray : Bool) (hops dst src : Nat) (pkt : List Byte) :
    Chip :=
  match r with
  | .out q cls =>
    let x := pport c q
    setPport c q { x with queue := x.queue ++
      [{ vc := vc, cls := cls, transit := transit, bytes := frameBytes vc cls cong spray hops dst src pkt }] }
  | .noRoute => dropFrame c aPEER_DROP_ROUTE 1
  | .down => dropFrame c aPEER_DROP_DOWN 1

/-- A frame that arrived and is not for this node (R347). -/
def transitFrame (c : Chip) (p : Nat) (l : List Byte) : Chip :=
  if frHops l = 0 then dropFrame c aPEER_DROP_HOPS 1
  else
    let (v, c1) := if frSpray l && frCls l = 2 then takeFree c else (0, c)
    queueFrame c1 (routeOf c1 (some p) (frDst l) (frCls l) (frSpray l) v) (frVc l) true (frCong l)
      ((l.getD 0 0).getLsbD 5) (frHops l - 1) (frDst l) (frSrc l) (l.drop 8)

/-- A node is this one, with an ID assigned (R347). -/
def forNode (c : Chip) (dst : Nat) : Bool := bit (reg c aPEER_NODE) 31 && fld (reg c aPEER_NODE) 11 0 = dst

/-- A frame for this node (R347). -/
def frameForUs (c : Chip) (l : List Byte) : Bool := forNode c (frDst l)

/-- The link of a frame from the fabric (R312). -/
def peerLink (l : List Byte) : Link :=
  { peer := true, addr := BitVec.ofNat 128 (frSrc l), port := 0, hostPart := none, ce := frCong l }

/-! ### Output arbitration (R351, R352) -/

/-- One side of a weighted choice: given the counts of both sides and their weights, whether the first is taken, and
the counts after. Idle sources accumulate no credit. -/
def weigh (a b : Bool) (na nb wa wb : Nat) : Bool × Nat × Nat :=
  if a && b then
    if na < wa then (true, na + 1, nb)
    else if nb + 1 < wb then (false, na, nb + 1)
    else (false, 0, 0)
  else (a, 0, 0)

/-- The channel that leaves next, with the counts of bulk and checkpoint. -/
def pickChannel (c : Chip) (x : PeerPort) : Nat × Nat × Nat :=
  let has := fun v => x.queue.any (fun f => f.vc = v)
  if has 0 then (0, x.bulkTurn, x.ckptTurn)
  else if has 1 then (1, x.bulkTurn, x.ckptTurn)
  else
    let w := reg c aPEER_ARB
    let r := weigh (has 2) (has 3) x.bulkTurn x.ckptTurn (max 1 (fld w 23 16)) (max 1 (fld w 31 24))
    (if r.1 then 2 else 3, r.2.1, r.2.2)

/-- Bytes of the frames that wait for a port in a channel. -/
def waitingBytes (x : PeerPort) (vc : Nat) : Nat := ((x.queue.filter (fun f => f.vc = vc)).map (fun f => f.bytes.length)).sum

/-- PEER_OUTPUT_ARBITRATE (R351, R352). -/
def arbitrate (c : Chip) (p : Nat) : Chip :=
  let x := pport c p
  if portUp c p = false ∨ peerForwards c = false ∨ x.queue = [] then c
  else
    let w := reg c aPEER_ARB
    let (vc, nb, nk) := pickChannel c x
    let has := fun t => x.queue.any (fun f => f.vc = vc && f.transit == t)
    let r := weigh (has true) (has false) (tget 0 x.transitTurn vc) (tget 0 x.localTurn vc) (max 1 (fld w 15 8))
      (max 1 (fld w 7 0))
    let mine := fun (f : QFrame) => f.vc = vc && f.transit == r.1
    match x.queue.find? mine with
    | none => c
    | some f =>
      let x1 := { x with
        queue := dropFirst mine x.queue, bulkTurn := nb, ckptTurn := nk,
        transitTurn := tset 0 x.transitTurn vc r.2.1, localTurn := tset 0 x.localTurn vc r.2.2 }
      let mark := decide (1024 * max 1 (fld (reg c aPEER_ECN_THRESH) 15 0) < waitingBytes x1 vc)
      let b := (f.bytes.getD 0 0) ||| (if mark then 0x10 else 0)
      let c1 := setPport c p { x1 with tx := x1.tx ++ [setAt f.bytes 0 b] }
      bumpPairB c1 p (if f.transit then aPEER_TRANSIT_LO else aPEER_LOCAL_LO) 1

/-! ### Routing tables (R349, R363) -/

/-- RT_CTRL.SWAP. -/
def rtSwap (c : Chip) : Chip := { c with peer := { c.peer with active := !c.peer.active } }

/-- RT_CTRL.COPY. -/
def rtCopy (c : Chip) : Chip :=
  if c.peer.active then { c with peer := { c.peer with bank0 := c.peer.bank1 } }
  else { c with peer := { c.peer with bank1 := c.peer.bank0 } }

/-- The shadow entry that RT_DATA reaches. -/
def rtShadow (c : Chip) (i : Nat) : Word := tget 0 (if c.peer.active then c.peer.bank0 else c.peer.bank1) i

/-- Writes a shadow entry. -/
def setShadow (c : Chip) (i : Nat) (w : Word) : Chip :=
  if c.peer.active then { c with peer := { c.peer with bank0 := tset 0 c.peer.bank0 i w } }
  else { c with peer := { c.peer with bank1 := tset 0 c.peer.bank1 i w } }

/-- RT_INDEX rises by 1, wrapping. -/
def rtAdvance (c : Chip) : Chip := setFld c aPEER_RT_INDEX 11 0 ((fld (reg c aPEER_RT_INDEX) 11 0 + 1) % 4096)

/-! ### Host port: addresses and frames (R366-R368) -/

/-- Big-endian bytes read as a number. -/
def rdBE (l : List Byte) (o n : Nat) : Nat := beNat (slice l o n)

/-- MAC address of a partition (R367). -/
def partMac (c : Chip) (p : Nat) : Nat := (pair c aHOST_BASE_MAC_LO % 2 ^ 48 + p) % 2 ^ 48

/-- PART_L2.VALID of a partition. -/
def l2Valid (c : Chip) (p : Nat) : Bool := bit (regB c p aHOST_PART_L2) 31 && partHolds c p

/-- VID of a partition; none when untagged. -/
def partVid (c : Chip) (p : Nat) : Option Nat :=
  let w := regB c p aHOST_PART_L2
  if bit w 30 then some (fld w 27 16) else none

/-- IPv4 address of a partition; 0 for none. -/
def partV4 (c : Chip) (p : Nat) : Nat := (regB c p aHOST_PART_IPV4).toNat

/-- IPv6 address of a partition; 0 for none. -/
def partV6 (c : Chip) (p : Nat) : Nat :=
  (List.range 4).foldl (fun s i => s + (regB c p (aHOST_PART_IPV6_ + 4 * i)).toNat * 2 ^ (32 * i)) 0

/-- Gateway MAC of a partition. -/
def partGw (c : Chip) (p : Nat) : Nat := pairB c p aHOST_GW_MAC_LO % 2 ^ 48

/-- A frame's VLAN: none for two tags, else the VID (0 for none), and the offset of the EtherType. -/
def frameVlan (l : List Byte) : Option (Nat × Nat) :=
  if rdBE l 12 2 = 0x8100 then
    (if rdBE l 16 2 = 0x8100 then none else some (rdBE l 14 2 % 4096, 16))
  else some (0, 12)

/-- Partitions whose VLAN a frame matches (R368). -/
def vlanParts (c : Chip) (vid : Nat) : List Nat :=
  parts8.filter (fun p => l2Valid c p && (match partVid c p with
    | some v => decide (v = vid ∧ vid ≠ 0)
    | none => decide (vid = 0)))

/-- The Ethernet header of a frame of a partition: tagged when the partition is, with the priority given. -/
def ethHeader (c : Chip) (p dst pcp typ : Nat) : List Byte :=
  beBytes 6 dst ++ beBytes 6 (partMac c p) ++
    (match partVid c p with
     | some v => beBytes 2 0x8100 ++ beBytes 2 (pcp * 2 ^ 13 + v)
     | none => []) ++ beBytes 2 typ

/-- The Internet checksum (RFC 1071; PRESUMED, log entry 52). -/
def inetSum (l : List Byte) : Nat :=
  let words := (chunksOf l.length 2 l).map (fun b => (b.getD 0 0).toNat * 256 + (b.getD 1 0).toNat)
  let fold := fun s => s % 65536 + s / 65536
  65535 - fold (fold (fold words.sum))

/-- Sends a frame that bypasses the egress queues. -/
def hostTx (c : Chip) (l : List Byte) : Chip :=
  bumpPair { c with host := { c.host with tx := c.host.tx ++ [l] } } aHOST_TX_FRAMES_LO 1

/-- An ARP request for an IPv4 address (RFC 826; PRESUMED, log entry 52). -/
def arpFor (l : List Byte) (o : Nat) : Option Nat :=
  if rdBE l (o + 2) 2 = 1 ∧ rdBE l (o + 4) 2 = 0x0800 ∧ rdBE l (o + 8) 2 = 1 then some (rdBE l (o + 26) 4) else none

/-- The ARP reply. -/
def arpReply (c : Chip) (p : Nat) (l : List Byte) (o : Nat) : Chip :=
  let sha := rdBE l (o + 10) 6
  hostTx c (padTo 60 (ethHeader c p sha 0 0x0806 ++ beBytes 2 1 ++ beBytes 2 0x0800 ++ [6, 4] ++ beBytes 2 2 ++
    beBytes 6 (partMac c p) ++ beBytes 4 (partV4 c p) ++ beBytes 6 sha ++ beBytes 4 (rdBE l (o + 16) 4)))

/-- A neighbour solicitation and its target (RFC 4861; PRESUMED, log entry 52). -/
def solicitFor (l : List Byte) (o : Nat) : Option Nat :=
  let ip := o + 2
  if rdBE l (ip + 6) 1 = 58 ∧ rdBE l (ip + 40) 1 = 135 then some (rdBE l (ip + 48) 16) else none

/-- The neighbour advertisement. -/
def solicitReply (c : Chip) (p : Nat) (l : List Byte) (o : Nat) : Chip :=
  let src := rdBE l (o + 2 + 8) 16
  let me := partV6 c p
  let body := fun (sum : Nat) => [(136 : Byte), 0] ++ beBytes 2 sum ++ beBytes 4 0x60000000 ++ beBytes 16 me ++ [2, 1] ++
    beBytes 6 (partMac c p)
  let pseudo := beBytes 16 me ++ beBytes 16 src ++ beBytes 4 32 ++ beBytes 4 58
  hostTx c (padTo 60 (ethHeader c p (rdBE l 6 6) 0 0x86DD ++ beBytes 4 0x60000000 ++ beBytes 2 32 ++ [58, 255] ++
    beBytes 16 me ++ beBytes 16 src ++ body (inetSum (pseudo ++ body 0))))

/-- What classification makes of a received frame (R368). -/
inductive HostClass
  | filtered
  | fragment
  | arp (part : Nat)
  | solicit (part : Nat)
  | vst (part : Nat) (link : Link) (payload : List Byte)
  deriving DecidableEq, Repr

/-- The IPv4 part of the classification: step 5. -/
def classV4 (c : Chip) (ps : List Nat) (l : List Byte) (ip : Nat) : HostClass :=
  let hl := rdBE l ip 1 % 16 * 4
  let dst := rdBE l (ip + 16) 4
  match ps.find? (fun p => dst ≠ 0 && partV4 c p = dst) with
  | none => .filtered
  | some p =>
    if rdBE l (ip + 6) 2 % 16384 ≠ 0 then .fragment
    else if rdBE l (ip + 9) 1 ≠ 17 ∨ rdBE l (ip + hl + 2) 2 ≠ fld (reg c aXPT_UDP_PORT) 15 0 then .filtered
    else
      .vst p { peer := false, addr := BitVec.ofNat 128 (0xFFFF * 2 ^ 32 + rdBE l (ip + 12) 4),
               port := BitVec.ofNat 16 (rdBE l (ip + hl) 2), hostPart := some (BitVec.ofNat 3 p),
               ce := rdBE l (ip + 1) 1 % 4 = 3 } (slice l (ip + hl + 8) (rdBE l (ip + hl + 4) 2 - 8))

/-- The IPv6 part of the classification: step 5. -/
def classV6 (c : Chip) (ps : List Nat) (l : List Byte) (ip : Nat) : HostClass :=
  let dst := rdBE l (ip + 24) 16
  match ps.find? (fun p => dst ≠ 0 && partV6 c p = dst) with
  | none => .filtered
  | some p =>
    if rdBE l (ip + 6) 1 ≠ 17 ∨ rdBE l (ip + 42) 2 ≠ fld (reg c aXPT_UDP_PORT) 15 0 then .filtered
    else
      .vst p { peer := false, addr := BitVec.ofNat 128 (rdBE l (ip + 8) 16),
               port := BitVec.ofNat 16 (rdBE l (ip + 40) 2), hostPart := some (BitVec.ofNat 3 p),
               ce := rdBE l ip 4 / 2 ^ 20 % 4 = 3 } (slice l (ip + 48) (rdBE l (ip + 44) 2 - 8))

/-- Steps 1 to 5 of the classification. -/
def hostClass (c : Chip) (l : List Byte) : HostClass :=
  match frameVlan l with
  | none => .filtered
  | some (vid, o) =>
    let ps := vlanParts c vid
    let typ := rdBE l o 2
    let dst := rdBE l 0 6
    let mine := ps.filter (fun p => partMac c p = dst)
    let arp := bit (reg c aHOST_PORT_CFG) 1
    if typ = 0x0806 then
      match (if dst = 2 ^ 48 - 1 then ps else mine).find? (fun p =>
          partV4 c p ≠ 0 && arp && decide (arpFor l (o) = some (partV4 c p))) with
      | some p => .arp p
      | none => .filtered
    else if mine.isEmpty then .filtered
    else if typ = 0x0800 then classV4 c mine l (o + 2)
    else if typ = 0x86DD then
      match mine.find? (fun p => partV6 c p ≠ 0 && arp && decide (solicitFor l o = some (partV6 c p))) with
      | some p => .solicit p
      | none => classV6 c mine l (o + 2)
    else .filtered

/-- The policer of a partition (R369): admits a packet and takes a token, or not. -/
def police (c : Chip) (p : Nat) : Bool × Chip :=
  let w := regB c p aHOST_POLICE
  let n := tget 0 c.host.buckets p
  if fld w 15 0 = 0 then (true, c)
  else if 0 < n then (true, { c with host := { c.host with buckets := tset 0 c.host.buckets p (n - 1) } })
  else (false, raise (bumpB c p aHOST_POLICE_DROP 1) .host 20)

/-- POLICER_REFILL (R369). -/
def policerRefill (c : Chip) : Chip :=
  parts8.foldl (fun c p =>
    let w := regB c p aHOST_POLICE
    let n := min (max 1 (fld w 31 16)) (tget 0 c.host.buckets p + fld w 15 0)
    if fld w 15 0 = 0 then c else { c with host := { c.host with buckets := tset 0 c.host.buckets p n } }) c

/-- Counts a filtered frame. -/
def filterFrame (c : Chip) : Chip := bump c aHOST_RX_FILTER 1

/-- HOST takes frames: the port is UP and HOST is ON, DRAINING or DISABLED (R370, R380). -/
def hostReceives (c : Chip) : Bool :=
  decide (c.host.state = .up) && (isUp c .host || decide (bstate c .host = .disabled))

/-- The part of HOST_FRAME_RX that HOST does by itself (R366, R368, R369); a packet that goes to XPT is returned with
its link. Frame bytes run from the destination address to the end of the payload, without the 4 B of FCS. -/
def hostRx (c : Chip) (l : List Byte) (fcsOk : Bool) : Option (Link × List Byte) × Chip :=
  if hostReceives c = false then (none, c)
  else
    let c1 := bumpPair c aHOST_RX_FRAMES_LO 1
    if fcsOk = false then (none, bump c1 aHOST_RX_FCS_ERR 1)
    else if l.length + 4 < 64 ∨ 9216 < l.length + 4 then (none, filterFrame c1)
    else if rdBE l 12 2 = 0x8808 then (none, bump c1 aHOST_RX_PAUSE 1)
    else
      match hostClass c1 l with
      | .filtered => (none, filterFrame c1)
      | .fragment => (none, if xptCounts c1 then bump (filterFrame c1) aXPT_BAD_CRC 1 else filterFrame c1)
      | .arp p => (none, arpReply c1 p l ((frameVlan l).map (·.2) |>.getD 12))
      | .solicit p => (none, solicitReply c1 p l ((frameVlan l).map (·.2) |>.getD 12))
      | .vst p k b =>
        let r := police c1 p
        if r.1 then (some (k, b), r.2) else (none, filterFrame r.2)

/-! ### Host link (R365, R370) -/

/-- The host port leaves UP. -/
def hostDown (c : Chip) : Chip := { c with host := { c.host with state := .down, lanes := 0, sweeping := false } }

/-- The host port trains: lanes lit, a full sweep. -/
def hostTrain (c : Chip) : Chip := { c with host := { c.host with state := .training, lanes := 0, sweeping := true } }

/-- HOST goes ON (R370). -/
def hostOn (c : Chip) : Chip :=
  if c.host.state = .off ∧ bit (reg c aHOST_PORT_CFG) 0 then hostTrain c else c

/-- The host port goes OFF: queued host frames are dropped. -/
def hostOff (c : Chip) : Chip :=
  { c with
    host := { c.host with state := .off, lanes := 0, sweeping := false, held := [] }
    egr := { c.egr with
      ctl0 := []
      queues := c.egr.queues.map (fun e => if bit (regB c e.1 aEGR_Q_CFG) 30 then e else (e.1, { e.2 with pkts := [] })) } }

/-- HOST_TRAINED. -/
def hostTrained (c : Chip) : Chip :=
  if c.host.state = .training then
    raise { c with host := { c.host with
      state := .up, lanes := 0xFF, needed := c.host.needed && !c.host.sweeping, sweeping := false } } .host 17
  else c

/-- HOST_LINK_LOSS: a lane lost, or PCS alignment with every lane aligned. -/
def hostLinkLoss (c : Chip) (lanes : Byte) : Chip :=
  if c.host.state = .up then
    let c1 := raise { hostDown c with host := { (hostDown c).host with lanes := lanes } } .host 16
    if lanes = 0xFF then fault c1 0x1A .host 4 0 false else fault c1 0x19 .host 4 0 false
  else c

/-- HOST_LASER_FAILOVER. -/
def hostLaser (c : Chip) (ok : Bool) : Chip :=
  if ok then fault (raise (laserSwap c aHOST_LASER) .host 18) 0x1B .host 0 0 false
  else
    let c1 := setFld c aHOST_LASER 1 1 0
    fault (if c.host.state = .up then raise (hostDown c1) .host 16 else hostDown c1) 0x1A .host 4 0 false

/-! ### Egress (R371-R377, R382) -/

/-- A connection's packets may leave: EGR and, on the host path, HOST serve it (R380, R382). -/
def connServed (c : Chip) (n : Nat) (peerOut : Bool) : Bool :=
  let m := (conn c n).mgmt
  (isUp c .egr || (decide (bstate c .egr = .disabled) && m)) &&
    (peerOut || isUp c .host || (decide (bstate c .host = .disabled) && m))

/-- A control packet may leave: the control lanes carry packets while EGR is DISABLED too. -/
def ctlServed (c : Chip) (n : Nat) (peerOut : Bool) : Bool :=
  (isUp c .egr || decide (bstate c .egr = .disabled)) &&
    (peerOut || isUp c .host || (decide (bstate c .host = .disabled) && (conn c n).mgmt))

/-- Node that a connection's packets go to. -/
def nodeOf (c : Chip) (n : Nat) : Nat := fld (regB c n aXPT_CONN_DEST) 27 16

/-- The class in which a local frame begins: adaptive for SPRAY on the bulk and checkpoint channels (R346, R348). -/
def localSpray (p : Pkt) (vc : Nat) : Bool := pSpray p && 2 ≤ vc

/-- The port that a local packet routes to takes a local frame: none of the same channel waits there (R351, R374).
A frame that would be dropped or is for this node is taken at once. -/
def portTakes (c : Chip) (dst : Nat) (spray : Bool) (vc v : Nat) : Bool :=
  forNode c dst ||
  match routeOf c none dst (if spray then 2 else 0) spray v with
  | .out q _ => (pport c q).queue.all (fun f => f.transit || f.vc ≠ vc)
  | _ => true

/-- The host frame of a packet (R311, R366, R367). Time to live, identification and flow label are free values. -/
def hostFrame (c : Chip) (part n queue : Nat) (addr : BitVec 128) (port : Nat) (p : Pkt) : Chip :=
  let w := regB c queue aEGR_Q_CFG
  let tos := fld w 21 16 * 4 + 2
  let (v, c1) := takeFree c
  let ttl := max 1 (v % 256)
  let a := addr.toNat
  let udp := fun (sum : Nat) => beBytes 2 (0xC000 + n) ++ beBytes 2 port ++ beBytes 2 (8 + pktLen p) ++ beBytes 2 sum ++ encPkt p
  let gw := partGw c1 part
  if a / 2 ^ 32 = 0xFFFF then
    let head := fun (sum : Nat) => [(0x45 : Byte), BitVec.ofNat 8 tos] ++ beBytes 2 (28 + pktLen p) ++ beBytes 2 (v / 256 % 65536) ++
      beBytes 2 0x4000 ++ [BitVec.ofNat 8 ttl, 17] ++ beBytes 2 sum ++ beBytes 4 (partV4 c1 part) ++ beBytes 4 (a % 2 ^ 32)
    let pseudo := beBytes 4 (partV4 c1 part) ++ beBytes 4 (a % 2 ^ 32) ++ beBytes 2 17 ++ beBytes 2 (8 + pktLen p)
    hostTx c1 (padTo (max 60 (ethHeader c1 part gw (fld w 15 13) 0x0800 ++ head 0 ++ udp 0).length)
      (ethHeader c1 part gw (fld w 15 13) 0x0800 ++ head (inetSum (head 0)) ++ udp (inetSum (pseudo ++ udp 0))))
  else
    let head := beBytes 4 (6 * 2 ^ 28 + tos * 2 ^ 20 + v % 2 ^ 20) ++ beBytes 2 (8 + pktLen p) ++ [17, BitVec.ofNat 8 ttl] ++
      beBytes 16 (partV6 c1 part) ++ beBytes 16 a
    let pseudo := beBytes 16 (partV6 c1 part) ++ beBytes 16 a ++ beBytes 4 (8 + pktLen p) ++ beBytes 4 17
    hostTx c1 (ethHeader c1 part gw (fld w 15 13) 0x86DD ++ head ++ udp (inetSum (pseudo ++ udp 0)))

/-- A queue may send its head packet now (R374, R375, R382). -/
def queueEligible (c : Chip) (q : Nat) (peerOut : Bool) (v : Nat) : Bool :=
  let e := equeue c q
  bit (regB c q aEGR_Q_CFG) 30 == peerOut &&
    (match e.pkts with
     | [] => false
     | (n, p) :: _ =>
       connServed c n peerOut && (!e.shaped || 0 < e.tokens || decide (bstate c .egr = .disabled)) &&
         (!peerOut || portTakes c (nodeOf c n) (localSpray p (vcOf p (ckptBit c n))) (vcOf p (ckptBit c n)) v))

/-- The queue that an output serves next (R374). -/
def nextQueue (c : Chip) (peerOut : Bool) (v : Nat) : Option Nat :=
  let pr := fun q => fld (regB c q aEGR_Q_CFG) 26 24
  let l := (c.egr.queues.map (·.1)).filter (fun q => queueEligible c q peerOut v)
  let best := l.foldl (fun m q => min m (pr q)) 8
  let at_ := tget 0 c.egr.last (b2n peerOut * 8 + best)
  match sortBy (fun q => (q + 512 - at_) % 512) (l.filter (fun q => pr q = best)) with
  | q :: _ => some q
  | [] => none

/-- SENDER_WAIT_RELEASE (R372): the first connection whose wait has ended; one that waits for buffer space holds
back those behind it. -/
def senderRelease (c : Chip) : List Nat → Option Nat
  | [] => none
  | n :: r =>
    match (conn c n).txWait with
    | [] => some n
    | (p, _) :: _ =>
      if hasSpace c (queueOf c n) p then some n
      else if (equeue c (queueOf c n)).pkts.length < queueLimit c (queueOf c n) then none
      else senderRelease c r

/-- The connection resumes. -/
def senderResume (c : Chip) : Chip :=
  match senderRelease c c.egr.waiters with
  | none => c
  | some n =>
    let c1 := { c with egr := { c.egr with waiters := c.egr.waiters.filter (fun x => x ≠ n) } }
    pumpConn (setConn c1 n { conn c1 n with waiting := false }) n

/-- The shaper of one queue at a refill (R375, R376). -/
def refillQueue (c : Chip) (q : Nat) : Chip :=
  let e := equeue c q
  let w := regB c q aEGR_Q_SHAPE
  if bit (regB c q aEGR_Q_CFG) 31 then
    let burst := max 1 (fld w 31 16)
    setEqueue c q { e with
      shaped := true, rate := fld w 15 0, burst := burst,
      tokens := min burst ((if e.shaped then e.tokens else 0) + fld w 15 0) }
  else if e.shaped then setEqueue c q { e with shaped := false, tokens := 0 }
  else c

/-- SHAPER_REFILL: one instant for every queue; a queue whose registers were never written holds its reset values. -/
def shaperRefill (c : Chip) : Chip :=
  if isUp c .egr then (List.range 512).foldl refillQueue c else c

/-- One queue's sample (R377). -/
def sampleQueue (c : Chip) (delays : List (Nat × Nat)) (q : Nat) : Chip :=
  let d := (equeue c q).pkts.length
  let t := if d = 0 then 0 else min 65535 (((delays.find? (fun x => x.1 = q)).map (·.2)).getD 0)
  let put := fun (c : Chip) a v => setRegB c q a (w32 (max (fld (regB c q a) 31 16) v * 65536 + v))
  put (put c aEGR_Q_DEPTH d) aEGR_Q_DELAY t

/-- QUEUE_SAMPLE. -/
def queueSample (c : Chip) (delays : List (Nat × Nat)) : Chip :=
  if isUp c .egr then (List.range 512).foldl (fun c q => sampleQueue c delays q) c else c

/-! ### Drain timeouts (R364, R380, R382) -/

/-- Local frames still queued at PEER's drain timeout are dropped. -/
def peerDrainTimeout (c : Chip) : Chip :=
  let c1 := ports4.foldl (fun c p =>
    setPport c p { pport c p with queue := (pport c p).queue.filter (fun f => f.transit) }) c
  { c1 with egr := { c1.egr with
      ctl1 := []
      queues := c1.egr.queues.map (fun e => if bit (regB c e.1 aEGR_Q_CFG) 30 then (e.1, { e.2 with pkts := [] }) else e) } }

/-- Queued host frames at HOST's drain timeout are dropped. -/
def hostDrainTimeout (c : Chip) : Chip :=
  { c with egr := { c.egr with
      ctl0 := []
      queues := c.egr.queues.map (fun e => if bit (regB c e.1 aEGR_Q_CFG) 30 then e else (e.1, { e.2 with pkts := [] })) } }

/-- Packets still queued at EGR's drain timeout are dropped. -/
def egrDrainTimeout (c : Chip) : Chip :=
  { c with egr := { c.egr with queues := c.egr.queues.map (fun e => (e.1, { e.2 with pkts := [] })) } }

/-! ### Commands -/

/-- The ports are powered: the link rail runs in every fast-domain state (R359). A module in EXTEST serves no traffic
(R463). -/
def whenLinked (c : Chip) (f : Chip → Chip) : Chip :=
  if c.chip.fast = .off ∨ c.tap.instr = .extest then c else f c

/-- PEER_OUTPUT_ARBITRATE. -/
def execPeerOutputArbitrate (port : PortId) (s : State) : Host.Outcome State Fault Refusal :=
  act s (fun c => whenLinked c (fun c => arbitrate c port.toNat))

/-- LASER_FAILOVER. -/
def execLaserFailover (standbyOk : Bool) (s : State) : Host.Outcome State Fault Refusal :=
  act s (fun c => whenLinked c (fun c => peerLaser c standbyOk))

/-- RING_LOCK_TICK (R353, R354): the heater follows its ring, which changes no register; a heater near its limit
starts a sweep under AUTO. -/
def execRingLockTick (port : PortId) (lane : BitVec 4) (nearLimit : Bool) (s : State) : Host.Outcome State Fault Refusal :=
  act s (fun c => whenLinked c (fun c =>
    if nearLimit ∧ calAuto c ∧ portUp c port.toNat ∧ (pport c port.toNat).active.getLsbD lane.toNat then startSweep c
    else c))

/-- CAL_LANE_DONE. -/
def execCalLaneDone (locked : Bool) (s : State) : Host.Outcome State Fault Refusal :=
  act s (fun c => whenLinked c (fun c => calLaneDone c locked))

/-- LANE_LOST. -/
def execLaneLost (port : PortId) (lane : BitVec 4) (s : State) : Host.Outcome State Fault Refusal :=
  act s (fun c => whenLinked c (fun c => laneLost c port.toNat lane.toNat))

/-- PORT_SILENCE_TIMEOUT (R356). -/
def execPortSilenceTimeout (port : PortId) (s : State) : Host.Outcome State Fault Refusal :=
  act s (fun c => whenLinked c (fun c => if portUp c port.toNat then portDown c port.toNat else c))

/-- SLOW_WINDOW. -/
def execSlowWindow (p0 p1 p2 p3 : BitVec 7) (s : State) : Host.Outcome State Fault Refusal :=
  act s (fun c => whenLinked c (fun c => slowWindow c [p0.toNat, p1.toNat, p2.toNat, p3.toNat]))

/-- IDLE_REDUCE. -/
def execIdleReduce (port : PortId) (s : State) : Host.Outcome State Fault Refusal :=
  act s (fun c => whenLinked c (fun c => idleReduce c port.toNat))

/-- LANE_RELIGHT. -/
def execLaneRelight (port : PortId) (s : State) : Host.Outcome State Fault Refusal :=
  act s (fun c => whenLinked c (fun c => laneRelight c port.toNat))

/-- PORT_TRAINED. -/
def execPortTrained (port : PortId) (lanes : BitVec 16) (node : Option (BitVec 12)) (s : State) :
    Host.Outcome State Fault Refusal :=
  act s (fun c => whenLinked c (fun c => portTrained c port.toNat lanes (node.map (·.toNat))))

/-- PORT_TRAINING_TIMEOUT (R361). -/
def execPortTrainingTimeout (port : PortId) (s : State) : Host.Outcome State Fault Refusal :=
  act s (fun c => whenLinked c (fun c =>
    let x := pport c port.toNat
    if x.state = .training then setPport c port.toNat { x with state := .down } else c))

/-- PORT_RETRAIN_TIMER (R361). -/
def execPortRetrainTimer (port : PortId) (s : State) : Host.Outcome State Fault Refusal :=
  act s (fun c => whenLinked c (fun c =>
    if (pport c port.toNat).state = .down ∧ c.peer.bothLasersOut = false then portTrain c port.toNat else c))

/-- HOST_TRAINED. -/
def execHostTrained (s : State) : Host.Outcome State Fault Refusal := act s (fun c => whenLinked c hostTrained)

/-- HOST_TRAINING_TIMEOUT (R370). -/
def execHostTrainingTimeout (s : State) : Host.Outcome State Fault Refusal :=
  act s (fun c => whenLinked c (fun c => if c.host.state = .training then hostDown c else c))

/-- HOST_LINK_LOSS. -/
def execHostLinkLoss (lanesOk : Byte) (s : State) : Host.Outcome State Fault Refusal :=
  act s (fun c => whenLinked c (fun c => hostLinkLoss c lanesOk))

/-- HOST_RETRAIN_TIMER (R370). -/
def execHostRetrainTimer (s : State) : Host.Outcome State Fault Refusal :=
  act s (fun c => whenLinked c (fun c => if c.host.state = .down then hostTrain c else c))

/-- HOST_CAL_NEEDED (R370). -/
def execHostCalNeeded (s : State) : Host.Outcome State Fault Refusal :=
  act s (fun c => whenLinked c (fun c =>
    if c.host.state = .up then raise { c with host := { c.host with needed := true } } .host 19 else c))

/-- HOST_LASER_FAILOVER. -/
def execHostLaserFailover (standbyOk : Bool) (s : State) : Host.Outcome State Fault Refusal :=
  act s (fun c => whenLinked c (fun c => hostLaser c standbyOk))

/-- POLICER_REFILL. -/
def execPolicerRefill (s : State) : Host.Outcome State Fault Refusal := act s (fun c => whenLinked c policerRefill)

/-- SHAPER_REFILL. -/
def execShaperRefill (s : State) : Host.Outcome State Fault Refusal := act s (fun c => whenAwake c shaperRefill)

/-- QUEUE_SAMPLE. -/
def execQueueSample (delays : List (Nat × Nat)) (s : State) : Host.Outcome State Fault Refusal :=
  act s (fun c => whenAwake c (fun c => queueSample c delays))

/-- SENDER_WAIT_RELEASE. -/
def execSenderWaitRelease (s : State) : Host.Outcome State Fault Refusal := act s (fun c => whenAwake c senderResume)

end Sys2Proof.Machine
end

