-- ==== Sys2Proof/Machine/Search.lean ====
section
/-! DEFINITION. SRCH (R383-R406): indexes, requests, distances, walks, scans, re-rank, merged queries, deletion,
loading and repair. -/

namespace Sys2Proof.Machine

/-! ### Index layout (R383-R385) -/

/-- IDX_CTRL.VALID of an index. -/
def ixValid (c : Chip) (x : Nat) : Bool := bit (regB c x aSRCH_IDX_CTRL) 0
/-- IDX_CTRL.REPAIR. -/
def ixRepair (c : Chip) (x : Nat) : Bool := bit (regB c x aSRCH_IDX_CTRL) 1
/-- IDX_CTRL.PARTITION. -/
def ixPart (c : Chip) (x : Nat) : Nat := fld (regB c x aSRCH_IDX_CTRL) 10 8
/-- DIM: 0 means 4,096. -/
def ixDim (c : Chip) (x : Nat) : Nat :=
  if fld (regB c x aSRCH_IDX_FORMAT) 27 16 = 0 then 4096 else fld (regB c x aSRCH_IDX_FORMAT) 27 16
/-- VFORMAT: BF16 vectors. -/
def ixBf16 (c : Chip) (x : Nat) : Bool := bit (regB c x aSRCH_IDX_FORMAT) 5
/-- METRIC: squared Euclidean. -/
def ixL2 (c : Chip) (x : Nat) : Bool := bit (regB c x aSRCH_IDX_FORMAT) 4
/-- Bytes of a sketch. -/
def ixSketch (c : Chip) (x : Nat) : Nat := 32 * 2 ^ fld (regB c x aSRCH_IDX_FORMAT) 1 0
/-- VEC_LOG2. -/
def ixVecLog (c : Chip) (x : Nat) : Nat := fld (regB c x aSRCH_IDX_GRAPH) 20 16
/-- LISTS_LOG2. -/
def ixListLog (c : Chip) (x : Nat) : Nat := fld (regB c x aSRCH_IDX_GRAPH) 12 8
/-- DEGREE. -/
def ixDegree (c : Chip) (x : Nat) : Nat := fld (regB c x aSRCH_IDX_GRAPH) 6 0
/-- ITEMS. -/
def ixItems (c : Chip) (x : Nat) : Nat := fld (regB c x aSRCH_IDX_ITEMS) 30 0
/-- Bytes of a query or stored vector, not padded. -/
def ixVecBytes (c : Chip) (x : Nat) : Nat := ixDim c x * (if ixBf16 c x then 2 else 1)
/-- Bytes of a stored vector (R384). -/
def ixVecPad (c : Chip) (x : Nat) : Nat := roundUp (ixVecBytes c x) 64
/-- G of R384. -/
def ixG (c : Chip) (x : Nat) : Nat :=
  if ixDegree c x = 0 then 0 else (ixItems c x + 2 ^ ixListLog c x - 1) / 2 ^ ixListLog c x
/-- V of R384. -/
def ixV (c : Chip) (x : Nat) : Nat := (ixItems c x + 2 ^ ixVecLog c x - 1) / 2 ^ ixVecLog c x
/-- Bytes of a graph object, and of a vector object. -/
def ixObjBytes (c : Chip) (x kind : Nat) : Nat :=
  if kind = 5 then 2 ^ ixListLog c x * ixDegree c x * 4 else 2 ^ ixVecLog c x * ixVecPad c x
/-- Objects of a kind: KIND 5 graph, 4 vectors. -/
def ixCount (c : Chip) (x kind : Nat) : Nat := if kind = 5 then ixG c x else ixV c x
/-- Bytes of the object table. -/
def ixTableBytes (c : Chip) (x : Nat) : Nat := 256 + 8 * (ixG c x + ixV c x)
/-- Base of a registration that a tag names. -/
def tagBase (c : Chip) (t : Word) : Nat := (region c (t.toNat / 256)).base
/-- Base of the object table. -/
def ixTable (c : Chip) (x : Nat) : Nat := tagBase c (regB c x aSRCH_IDX_TABLE_TAG)
/-- Address of an object-table entry. -/
def ixEntryAddr (c : Chip) (x kind j : Nat) : Nat :=
  ixTable c x + 256 + 8 * (if kind = 5 then j else ixG c x + j)
/-- An object-table entry (R385). -/
def ixEntry (c : Chip) (x kind j : Nat) : Nat := leNat (memRead c.mem (ixEntryAddr c x kind j) 8)
/-- DAMAGED, ABSENT and the address of an entry. -/
def enDamaged (e : Nat) : Bool := nbit e 63
/-- ABSENT. -/
def enAbsent (e : Nat) : Bool := nbit e 62
/-- Logical flash address. -/
def enAddr (e : Nat) : Nat := e % 2 ^ 44
/-- The entry that a host writes, and INDEX_FREE. -/
abbrev absentEntry : Nat := 2 ^ 62

/-- Sketch of an item. -/
def sketchOf (c : Chip) (x i : Nat) : List Byte :=
  memRead c.mem (tagBase c (regB c x aSRCH_IDX_SKETCH_TAG) + i * ixSketch c x) (ixSketch c x)
/-- Tombstone bit of an item. -/
def tombed (c : Chip) (x i : Nat) : Bool :=
  nbit (memGet c.mem (tagBase c (regB c x aSRCH_IDX_TOMB_TAG) + i / 8)).toNat (i % 8)
/-- Sets a tombstone bit. -/
def setTomb (c : Chip) (x i : Nat) : Chip :=
  let a := tagBase c (regB c x aSRCH_IDX_TOMB_TAG) + i / 8
  putMem c a [memGet c.mem a ||| BitVec.ofNat 8 (2 ^ (i % 8))]

/-- The three registrations of an index are ACTIVE registrations of its partition and long enough (R387). -/
def ixTagsOk (c : Chip) (x : Nat) : Bool :=
  let ok := fun (t : Word) (n : Nat) => decide (regionCheck c (ixPart c x) t 0 n = stOK)
  ok (regB c x aSRCH_IDX_SKETCH_TAG) (ixItems c x * ixSketch c x) &&
    ok (regB c x aSRCH_IDX_TOMB_TAG) ((ixItems c x + 7) / 8) &&
    ok (regB c x aSRCH_IDX_TABLE_TAG) (ixTableBytes c x)

/-- The table registration alone (R386). -/
def ixTableOk (c : Chip) (x : Nat) : Bool :=
  decide (regionCheck c (ixPart c x) (regB c x aSRCH_IDX_TABLE_TAG) 0 (ixTableBytes c x) = stOK)

/-- A layout within R383 and R384. -/
def ixLayoutOk (c : Chip) (x : Nat) : Bool :=
  let sizeOk := fun (n : Nat) => decide (64 ≤ n ∧ n ≤ extentBytes)
  decide (0 < ixItems c x ∧ ixItems c x ≤ 1073741824) && decide (fld (regB c x aSRCH_IDX_FORMAT) 1 0 ≠ 3) &&
    decide (ixDegree c x ≤ 64) && sizeOk (ixObjBytes c x 4) &&
    (decide (ixDegree c x = 0) || sizeOk (ixObjBytes c x 5))

/-- An entry holds what a host may write, or what SRCH wrote there (R385; log entry 53). -/
def ixEntryOk (c : Chip) (x kind j : Nat) : Bool :=
  let e := ixEntry c x kind j
  (decide (e = absentEntry) && !(kind = 5)) || decide (some (w64 e) = tfind c.srch.entries (ixEntryAddr c x kind j)) &&
    !(decide (kind = 5) && enAbsent e)

/-- The check of a slot (R387): a code of R7. -/
def ixCheck (c : Chip) (x : Nat) : Nat :=
  if ixLayoutOk c x = false then rejLimit
  else if ixTagsOk c x = false then rejState
  else if (List.range (ixG c x)).all (ixEntryOk c x 5) && (List.range (ixV c x)).all (ixEntryOk c x 4) then stOK
  else rejState

/-- Entries of an index that are DAMAGED now. -/
def ixDamaged (c : Chip) (x : Nat) : Nat :=
  if ixTableOk c x = false then 0
  else ((c.srch.entries.filter (fun e => ixTable c x ≤ e.1 && decide (e.1 < ixTable c x + ixTableBytes c x) &&
    e.2.getLsbD 63)).length)

/-- An operation on an index is in progress (R387). -/
def ixBusy (c : Chip) (x : Nat) : Bool :=
  c.srch.queries.any (fun q => q.index = x) || c.srch.deletes.any (fun d => d.index = x) ||
    c.srch.loads.any (fun l => l.index = x)

/-! ### Distances (R389) -/

/-- Set bits of a byte. -/
def popByte (b : Nat) : Nat := (List.range 8).foldl (fun n i => n + b / 2 ^ i % 2) 0
/-- Sketch distance. -/
def hamming (a b : List Byte) : Nat :=
  (List.zipWith (fun x y => popByte (x ^^^ y).toNat) a b).foldl (· + ·) 0

/-- Signed value of a byte. -/
def i8 (b : Byte) : Int := b.toInt

/-- Exact distance of INT8 vectors. -/
def distInt (l2 : Bool) (a b : List Byte) : Word :=
  let s : Int := (List.zipWith (fun x y => if l2 then (i8 x - i8 y) * (i8 x - i8 y) else i8 x * i8 y) a b).foldl
    (· + ·) 0
  fpOfInt (BitVec.ofInt 32 (if l2 then s else -s))

/-- BF16 elements of a vector. -/
def bf16s (l : List Byte) : List Word := (chunksOf l.length 2 l).map (fun p => ofBf16 (leNat p))

/-- Distance of BF16 vectors: each term added with one rounding, in dimension order. -/
def distBf16 (l2 : Bool) (a b : List Byte) : Word :=
  let s := (List.zip (bf16s a) (bf16s b)).foldl (fun s (e : Word × Word) =>
    if l2 then
      let d := fpOf (fsub e.1 e.2)
      fpTo (fpAdd (fpOf s) (fpMul d d))
    else fpTo (fpAdd (fpOf s) (fpMul (fpOf e.1) (fpOf e.2)))) 0
  if l2 then s else s ^^^ 0x80000000

/-- Exact distance of two vectors of an index. -/
def exactDist (c : Chip) (x : Nat) (a b : List Byte) : Word :=
  if ixBf16 c x then distBf16 (ixL2 c x) a b else distInt (ixL2 c x) a b

/-- A number that orders FP32 distances as their values; where a NaN stands in the order is open (log entry 54). -/
def fpRank (v : Nat) (w : Word) : Nat :=
  if fpNan (fpOf w) then v % 2 ^ 33
  else if w.getLsbD 31 then 2 ^ 31 - (w.toNat % 2 ^ 31) else 2 ^ 31 + w.toNat % 2 ^ 31

/-- (distance, item) before another (R389). -/
def before (a b : Nat × Nat) : Bool := a.1 < b.1 || (a.1 = b.1 && a.2 < b.2)

/-- Inserts into an ordered list. -/
def insertOrd (a : Nat × Nat) : List (Nat × Nat) → List (Nat × Nat)
  | [] => [a]
  | b :: r => if before a b then a :: b :: r else b :: insertOrd a r

/-! ### Records (R398) -/

/-- The search record (R398). -/
def searchRecord (op index flags : Nat) (tag : DWord) (status visited reads asked answered widen time : Nat)
    (hits : List SearchHit) : List Byte :=
  [5, BitVec.ofNat 8 status, BitVec.ofNat 8 op, BitVec.ofNat 8 index] ++ leBytes 2 flags ++
    leBytes 2 hits.length ++ leBytes 8 tag.toNat ++ leBytes 4 visited ++ leBytes 4 reads ++ leBytes 1 asked ++
    leBytes 1 answered ++ leBytes 1 widen ++ [0] ++ leBytes 4 time ++
    hits.flatMap (fun h => leBytes 4 h.item ++ leBytes 2 h.shard ++ [0, 0] ++ leBytes 4 h.dist.toNat)

/-- A record of an operation that names no query: its TIME is a free value (log entry 22). -/
def answerSearch (c : Chip) (n op index : Nat) (tag : DWord) (status visited : Nat) : Chip :=
  let (t, c1) := takeFree c
  let c2 := if op = 0x20 then bumpPair c1 aSRCH_QUERY_CNT_LO 1 else c1
  sendMsg c2 n 2 (searchRecord op index 0 tag status visited 0 0 0 0 t [])

/-! ### Queries -/

/-- A query by id. -/
def queryAt (c : Chip) (id : Nat) : Option Query := c.srch.queries.find? (fun q => q.id = id)
/-- Writes a query. -/
def setQuery (c : Chip) (q : Query) : Chip :=
  { c with srch := { c.srch with queries := c.srch.queries.map (fun p => if p.id = q.id then q else p) } }
/-- Queries in a phase. -/
def inPhase (c : Chip) (p : QPhase) : List Query := c.srch.queries.filter (fun q => q.phase = p)
/-- Walks in progress: those that hold one of the 256 places (R393). -/
def walks (c : Chip) : Nat :=
  (c.srch.queries.filter (fun q => q.req.mode = 0 && (q.phase = .walking || q.phase = .reranking))).length
/-- Scans of the running pass. -/
def passScans (c : Chip) : Nat := (inPhase c .scanning).length
/-- Queries waiting (R404). -/
def queuedQueries (c : Chip) : Nat := (inPhase c .queued).length

/-- FLAGS of a SEARCH. -/
def sSkip (r : SearchReq) : Bool := r.flags.getLsbD 0
/-- FILTER. -/
def sFilter (r : SearchReq) : Bool := r.flags.getLsbD 1
/-- SHARDED. -/
def sSharded (r : SearchReq) : Bool := r.flags.getLsbD 2
/-- SUB. -/
def sSub (r : SearchReq) : Bool := r.flags.getLsbD 3

/-- BEAM in force. -/
def beamOf (c : Chip) (r : SearchReq) : Nat :=
  if r.beam = 0 then max 16 (fld (reg c aSRCH_DEFAULTS) 12 0) else r.beam.toNat
/-- MAX_VISIT in force. -/
def visitOf (c : Chip) (r : SearchReq) : Nat := if r.maxVisit = 0 then (reg c aSRCH_MAX_VISIT).toNat else r.maxVisit.toNat
/-- DEFAULTS.SELECT. -/
def selectOf (c : Chip) : Nat := max 1 (min 64 (fld (reg c aSRCH_DEFAULTS) 23 16))
/-- DEFAULTS.PREFETCH. -/
def prefetchOf (c : Chip) : Nat := fld (reg c aSRCH_DEFAULTS) 31 24

/-- A filter bitmap's registration still stands (R394). -/
def filterStands (c : Chip) (q : Query) : Bool :=
  !sFilter q.req || decide (regionCheck c (ixPart c q.index) q.req.bitmapTag q.req.bitmapOffset.toNat
    ((ixItems c q.index + 7) / 8) = stOK)

/-- An item that may be returned (R392, R394). -/
def returnable (c : Chip) (q : Query) (i : Nat) : Bool :=
  !tombed c q.index i && (!sFilter q.req ||
    nbit (memGet c.mem (tagBase c q.req.bitmapTag + q.req.bitmapOffset.toNat + i / 8)).toNat (i % 8))

/-- Sketch distance of an item from a query. -/
def queryDist (c : Chip) (q : Query) (i : Nat) : Nat := hamming (sketchOf c q.index i) q.req.sketch

/-- An old object that no walk can read any more is freed (R400). -/
def freeOlds (c : Chip) : Chip :=
  let live := fun (o : OldObj) => o.walks.any (fun w => c.srch.queries.any (fun q => q.id = w && q.phase = .walking))
  let gone := c.srch.olds.filter (fun o => !live o)
  gone.foldl (fun c o => flashFree c o.addr) { c with srch := { c.srch with olds := c.srch.olds.filter live } }

/-- Counts the end of a SEARCH (R405). -/
def countSearch (c : Chip) (status : Nat) : Chip :=
  let c1 := bumpPair c aSRCH_QUERY_CNT_LO 1
  if status = stFewer then bump c1 aSRCH_FEWER_CNT 1
  else if status = stTierLate then bump c1 aSRCH_LATE_CNT 1
  else if status = stTierFault then bump c1 aSRCH_FAULT_CNT 1
  else c1

/-- Takes a query out of SRCH and sends its record. -/
def sendQuery (c : Chip) (q : Query) (status : Nat) (hits : List SearchHit) : Chip :=
  let (t, c1) := takeFree c
  let c2 := freeOlds { c1 with srch := { c1.srch with queries := c1.srch.queries.filter (fun p => p.id ≠ q.id) } }
  let flags := b2n (decide (q.req.rerank ≠ 0 ∧ (status = stOK ∨ status = stFewer ∨ status = stPartial))) +
    2 * b2n q.budget
  sendMsg (countSearch c2 status) q.conn 2 (searchRecord 0x20 q.index flags q.tag status q.scored q.reads
    q.shards.length q.answered.length q.widenings t hits)

/-- The order of merged results (R401): DIST, shard entry, ITEM. -/
def hitBefore (exact : Bool) (v : Nat) (a b : SearchHit) : Bool :=
  let k := fun (h : SearchHit) => if exact then fpRank v h.dist else h.dist.toNat
  k a < k b || (k a = k b && (a.shard < b.shard || (a.shard = b.shard && a.item < b.item)))

/-- Inserts a result in that order. -/
def insertHit (exact : Bool) (v : Nat) (a : SearchHit) : List SearchHit → List SearchHit
  | [] => [a]
  | b :: r => if hitBefore exact v a b then a :: b :: r else b :: insertHit exact v a r

/-- A merged query completes when every shard has answered (R401). The sketches and reads of the shards are not the
merger's own: VISITED, FLASH_READS and WIDENINGS of its record are free values (log entry 55). -/
def mergeDone (c : Chip) (q : Query) : Chip :=
  let (v, c1) := takeFree c
  let (r, c2) := takeFree c1
  let (w, c3) := takeFree c2
  let q1 := { q with scored := v % 2 ^ 32, reads := r % 2 ^ 32, widenings := w % 4 }
  if q.partialQ then raise (sendQuery c3 q1 stPartial q.merged) .srch 18
  else sendQuery c3 q1 (if q.merged.length < q.req.k.toNat then stFewer else stOK) q.merged

/-- A shard's answer at the merger (R401). -/
def shardAnswer (c : Chip) (id shard status : Nat) (hits : List SearchHit) : Chip :=
  match queryAt c id with
  | none => c
  | some q =>
    if q.phase ≠ .merging ∨ shard ∉ q.shards ∨ shard ∈ q.answered then c
    else
      let (v, c1) := takeFree c
      let good := decide (status < 0x10 ∨ status = stFewer)
      let m := if good then
          (hits.foldl (fun l h => insertHit (decide (q.req.rerank ≠ 0)) v { h with shard := shard } l) q.merged).take
            q.req.k.toNat
        else q.merged
      let q1 := { q with answered := q.answered ++ [shard], merged := m, partialQ := q.partialQ || !good }
      let c2 := setQuery c1 q1
      if q1.shards.all (fun s => s ∈ q1.answered) then mergeDone c2 q1 else c2

/-- A query ends (R396-R402): its record, or its answer to the merged query that it serves. -/
def endQuery (c : Chip) (q : Query) (status : Nat) (hits : List SearchHit) : Chip :=
  match q.parent with
  | none => sendQuery c q status hits
  | some (id, shard) =>
    let c1 := freeOlds { c with srch := { c.srch with queries := c.srch.queries.filter (fun p => p.id ≠ q.id) } }
    shardAnswer (countSearch c1 status) id shard status hits

/-- A query whose candidates are fixed (R392, R397): re-rank reads, or the record. -/
def candsFixed (c : Chip) (q : Query) (l : List (Nat × Nat)) : Chip :=
  if q.req.rerank ≠ 0 then
    setQuery c { q with phase := .reranking, cands := l.take q.req.rerank.toNat, visited := [], expanded := [],
                        fetched := [], beam := [] }
  else
    let hits := (l.take q.req.k.toNat).map (fun e => { item := e.2, shard := 0, dist := w32 e.1 : SearchHit })
    endQuery c q (if hits.length < q.req.k.toNat then stFewer else stOK) hits

/-! ### Walks (R392, R393) -/

/-- Unexpanded members of the beam, best first. -/
def unexpanded (q : Query) : List (Nat × Nat) := q.beam.filter (fun e => e.2 ∉ q.expanded)

/-- The loop head: whether the loop is left. -/
def leaveLoop (c : Chip) (q : Query) : Bool := (unexpanded q).isEmpty || decide (visitOf c q.req ≤ q.visited.length)

/-- Doublings when the loop is left, with fuel: visited and expanded marks stay (R392, R396). -/
def widenN (c : Chip) : Nat → Query → Query
  | 0, q => q
  | n + 1, q =>
    if leaveLoop c q ∧ (q.beam.filter (fun e => returnable c q e.2)).length < q.req.k.toNat ∧
        q.widenings < q.req.widen.toNat then
      widenN c n { q with width := min (2 * q.width) 4096, widenings := q.widenings + 1 }
    else q

/-- What a walk does at the head of its loop: it goes on, waiting for lists, or its candidates are fixed. -/
def walkHead (c : Chip) (q0 : Query) : Chip :=
  let q := widenN c 3 { q0 with budget := q0.budget || decide (visitOf c q0.req ≤ q0.visited.length) }
  if leaveLoop c q then candsFixed c q (q.beam.filter (fun e => returnable c q e.2))
  else
    let want := ((unexpanded q).take (selectOf c + prefetchOf c)).map (·.2)
    let new := want.filter (fun i => i ∉ q.fetched)
    setQuery c { q with fetched := q.fetched ++ new, reads := q.reads + new.length }

/-- Scores one item into the beam. -/
def scoreItem (c : Chip) (q : Query) (n : Nat) : Query :=
  if sSkip q.req ∧ tombed c q.index n then { q with visited := q.visited ++ [n] }
  else
    { q with visited := q.visited ++ [n], scored := q.scored + 1,
             beam := (insertOrd (queryDist c q n, n) q.beam).take q.width }

/-- Entry points of an index (R385): those used and in range, each once. -/
def entryPoints (c : Chip) (x : Nat) : List Nat :=
  ((wordsOf (memRead c.mem (ixTable c x) 256)).filter (fun n => n < ixItems c x)).dedup

/-- A walk takes a place and scores its entry points (t1, t2). -/
def walkStart (c : Chip) (q : Query) : Chip :=
  let q1 := { q with phase := .walking, width := max (beamOf c q.req) (max q.req.rerank.toNat q.req.k.toNat) }
  let q2 := (entryPoints c q.index).foldl (scoreItem c) q1
  walkHead (setQuery c q2) q2

/-- The next waiting walk, if a place is free. -/
def nextWalk (c : Chip) : Option Query :=
  if walks c < 256 then (inPhase c .queued).find? (fun q => q.req.mode = 0) else none

/-- Gives free places to waiting walks, with fuel. -/
def fillWalksN : Nat → Chip → Chip
  | 0, c => c
  | n + 1, c =>
    match nextWalk c with
    | none => c
    | some q => fillWalksN n (walkStart c q)

/-- `fillWalksN` over every waiting query. -/
def fillWalks (c : Chip) : Chip := fillWalksN c.srch.queries.length c

/-- Bytes of an object that an entry names, and the address. -/
def objBytes (c : Chip) (x kind j : Nat) : List Byte :=
  match flashObj c (enAddr (ixEntry c x kind j)) with
  | some o => o.data
  | none => []

/-- The list of an item (R384). -/
def listOfItem (c : Chip) (x i : Nat) : List Nat :=
  let d := ixDegree c x
  wordsOf (slice (objBytes c x 5 (i / 2 ^ ixListLog c x)) (i % 2 ^ ixListLog c x * d * 4) (d * 4))

/-- Counts the bytes of a read of an object (R138). -/
def countRead (c : Chip) (x kind j n : Nat) : Chip :=
  let c1 := bumpPair c aFLASH_READ_BYTES_LO n
  match extOfLext c1 (lextOf (enAddr (ixEntry c1 x kind j))) with
  | some e => setExtent c1 e { extent c1 e with reads := (extent c1 e).reads + 1 }
  | none => c1

/-- Objects whose read is uncorrectable: their entries become DAMAGED (R402). -/
def damageObjects (c : Chip) (x kind : Nat) (l : List Nat) : Chip :=
  l.foldl (fun c j =>
    if ixCount c x kind ≤ j ∨ enAbsent (ixEntry c x kind j) ∨ enDamaged (ixEntry c x kind j) then c
    else
      let a := enAddr (ixEntry c x kind j)
      let c1 := raise (bump c aFLASH_UNCORR_CNT 1) .flash 17
      fault (damageEntry c1 (ixEntryAddr c1 x kind j)) 0x0C .flash (dieAt c1 a) a false) c

/-- One neighbour of an expanded item (R392). A full visited set takes no more (log entry 56). -/
def visitEdge (c : Chip) (q : Query) (n : Nat) : Query :=
  if ixItems c q.index ≤ n ∨ n ∈ q.visited ∨ visitOf c q.req ≤ q.visited.length then q else scoreItem c q n

/-- Bad edges of a list: entries at or above ITEMS that are not empty. -/
def badEdges (c : Chip) (x : Nat) (l : List Nat) : Nat :=
  (l.filter (fun n => n ≠ 0xFFFFFFFF && ixItems c x ≤ n)).length

/-- Expands one selected item. -/
def expandItem (r : Query × Chip) (i : Nat) : Query × Chip :=
  let (q, c) := r
  let l := listOfItem c q.index i
  let bad := badEdges c q.index l
  let c1 := countRead c q.index 5 (i / 2 ^ ixListLog c q.index) (ixDegree c q.index * 4)
  let c2 := if bad = 0 then c1 else raise (bump c1 aSRCH_BAD_EDGE bad) .srch 19
  (l.foldl (visitEdge c) { q with expanded := q.expanded ++ [i] }, c2)

/-- An uncorrectable sketch byte of an index, at an address of the sketch array that a free value names (log entry 3). -/
def sketchUe (c : Chip) (x : Nat) : Chip :=
  let (v, c1) := takeFree c
  countUe c1 (tagBase c1 (regB c1 x aSRCH_IDX_SKETCH_TAG) + v % max 1 (ixItems c1 x * ixSketch c1 x))

/-- WALK_LISTS_READY (R392, R394, R402). `uncorr` are the graph objects whose read failed; `gddr` tells that a sketch of
the round was uncorrectable. -/
def walkListsReady (c : Chip) (id : Nat) (uncorr : List Nat) (gddr : Bool) : Chip :=
  match queryAt c id with
  | none => c
  | some q =>
    if q.phase ≠ .walking then c
    else
      let x := q.index
      let sel := ((unexpanded q).take (selectOf c)).map (·.2)
      let read := fun (j : Nat) => decide (j ∈ q.fetched.map (fun i => i / 2 ^ ixListLog c x))
      let c1 := damageObjects c x 5 (uncorr.filter read)
      if filterStands c1 q = false then fillWalks (endQuery c1 q stRevoked [])
      else if sel.any (fun i => enDamaged (ixEntry c1 x 5 (i / 2 ^ ixListLog c x))) then
        fillWalks (endQuery c1 q stTierFault [])
      else if gddr then fillWalks (endQuery (sketchUe c1 x) q stTierFault [])
      else
        let (q2, c2) := sel.foldl expandItem (q, c1)
        fillWalks (walkHead (setQuery c2 q2) q2)

/-! ### Scans (R391) -/

/-- SCAN_CFG.BATCH in force. -/
def scanBatch (c : Chip) : Nat := max 1 (min 64 (fld (reg c aSRCH_SCAN_CFG) 14 8))

/-- SCAN_PASS_START: the waiting scans of the first one's index, up to BATCH. -/
def scanPassStart (c : Chip) : Chip :=
  if isUp c .srch = false ∨ 0 < passScans c then c
  else
    let wait := (inPhase c .queued).filter (fun q => q.req.mode = 1)
    match wait with
    | [] => c
    | first :: _ =>
      let ids := ((wait.filter (fun q => q.index = first.index)).take (scanBatch c)).map (·.id)
      let c1 := { c with srch := { c.srch with pass := ids, queries := c.srch.queries.map (fun q =>
        if q.id ∈ ids then { q with phase := .scanning } else q) } }
      ids.foldl (fun c id =>
        match queryAt c id with
        | some q => if filterStands c q then c else endQuery c q stRevoked []
        | none => c) c1

/-- The best returnable items of a scan. -/
def scanBest (c : Chip) (q : Query) : List (Nat × Nat) :=
  let n := max q.req.k.toNat q.req.rerank.toNat
  (List.range (ixItems c q.index)).foldl (fun l i =>
    if returnable c q i then (insertOrd (queryDist c q i, i) l).take n else l) []

/-- The end of a pass for one scan. -/
def scanEnd (uncorr : Bool) (c : Chip) (id : Nat) : Chip :=
  match queryAt c id with
  | none => c
  | some q =>
    if q.phase ≠ .scanning then c
    else if uncorr then endQuery c q stTierFault []
    else if filterStands c q = false then endQuery c q stRevoked []
    else
      let q1 := { q with scored := ixItems c q.index }
      candsFixed c q1 (scanBest c q)

/-- SCAN_PASS_END (R391, R402). -/
def scanPassEnd (c : Chip) (uncorr : Bool) : Chip :=
  let ids := c.srch.pass
  if ids.isEmpty then c
  else
    let c2 := match ids.head?.bind (queryAt c) with
      | some q => if uncorr then sketchUe c q.index else c
      | none => c
    ids.foldl (scanEnd uncorr) { c2 with srch := { c2.srch with pass := [] } }

/-! ### Re-rank (R397) -/

/-- Page reads of the vector in a place of an object: one where it lies within one 4 KiB codeword (R393), else open
up to the codewords it touches (log entry 57). -/
def vectorReads (c : Chip) (x j slot v : Nat) : Nat :=
  let a := enAddr (ixEntry c x 4 j) % 2 ^ 27 + slot * ixVecPad c x
  let n := (a + ixVecBytes c x - 1) / 4096 - a / 4096 + 1
  v % n + 1

/-- RERANK_DONE (R397, R402). `uncorr` are the vector objects whose read failed. -/
def rerankDone (c : Chip) (id : Nat) (uncorr : List Nat) : Chip :=
  match queryAt c id with
  | none => c
  | some q =>
    if q.phase ≠ .reranking then c
    else
      let x := q.index
      let objs := (q.cands.map (fun e => e.2 / 2 ^ ixVecLog c x)).dedup
      let c1 := damageObjects c x 4 (uncorr.filter (fun j => j ∈ objs))
      let (v, c2) := takeFree c1
      let n := (q.cands.map (fun e =>
        vectorReads c x (e.2 / 2 ^ ixVecLog c x) (e.2 % 2 ^ ixVecLog c x) v)).foldl (· + ·) 0
      let c3 := q.cands.foldl (fun c e => countRead c x 4 (e.2 / 2 ^ ixVecLog c x) (ixVecBytes c x)) c2
      let q1 := { q with reads := q.reads + n }
      let done :=
        if objs.any (fun j => enDamaged (ixEntry c3 x 4 j)) then endQuery c3 q1 stTierFault []
        else if filterStands c3 q1 = false then endQuery c3 q1 stRevoked []
        else
          let dists := q.cands.map (fun e =>
            let j := e.2 / 2 ^ ixVecLog c x
            let vec := slice (objBytes c x 4 j) (e.2 % 2 ^ ixVecLog c x * ixVecPad c x) (ixVecBytes c x)
            (exactDist c x q.req.vector vec, e.2))
          let ord := sortBy (fun (d : Word × Nat) => fpRank v d.1 * 2 ^ 32 + d.2) dists
          let hits := (ord.take q.req.k.toNat).map (fun d => { item := d.2, shard := 0, dist := d.1 : SearchHit })
          endQuery c3 q1 (if hits.length < q.req.k.toNat then stFewer else stOK) hits
      fillWalks done

/-! ### Requests (R388) -/

/-- The refusals that every search operation shares, in order: the index's partition, the block. -/
def searchGate (c : Chip) (conn : Nat) (handle : Word) : Nat :=
  match partOfConn c conn with
  | none => rejPart
  | some p =>
    if 16 ≤ handle.toNat then rejLimit
    else if ixPart c handle.toNat ≠ p then rejPart
    else if isOn c .srch = false ∨ partValid c p = false then rejBusy
    else stOK

/-- A SEARCH body within its ranges (R388). -/
def searchOk (c : Chip) (x : Nat) (r : SearchReq) : Bool :=
  decide (r.mode.toNat ≤ 1 ∧ r.flags.toNat < 16 ∧ 1 ≤ r.k.toNat ∧ r.k.toNat ≤ 1024 ∧
    (r.beam = 0 ∨ 16 ≤ r.beam.toNat ∧ r.beam.toNat ≤ 4096) ∧
    (r.rerank = 0 ∨ r.k.toNat ≤ r.rerank.toNat ∧ r.rerank.toNat ≤ 4096) ∧ r.widen.toNat ≤ 3 ∧
    (r.maxVisit = 0 ∨ 64 ≤ r.maxVisit.toNat ∧ r.maxVisit.toNat ≤ 1048576)) &&
  !(sFilter r && r.bitmapOffset.toNat % 64 ≠ 0) &&
  decide (r.sketch.length = ixSketch c x) &&
  decide (r.vector.length = if r.rerank = 0 then 0 else ixVecBytes c x) &&
  !(decide (r.mode = 0) && ixDegree c x = 0) && !(sFilter r && sSharded r) && !(sSub r && sSharded r)

/-- The refusal of a SEARCH on a valid index, if any. -/
def searchRefusal (c : Chip) (x : Nat) (r : SearchReq) : Nat :=
  if ixValid c x = false then rejState
  else if searchOk c x r = false then rejLimit
  else if r.rerank ≠ 0 ∧ (List.range (ixV c x)).any (fun j => enAbsent (ixEntry c x 4 j)) then rejState
  else if sFilter r then
    regionCheck c (ixPart c x) r.bitmapTag r.bitmapOffset.toNat ((ixItems c x + 7) / 8)
  else stOK

/-- A new query. -/
def newQuery (id x conn : Nat) (tag : DWord) (r : SearchReq) (parent : Option (Nat × Nat)) : Query :=
  { id := id, index := x, conn := conn, tag := tag, req := r, phase := .queued, width := 0, widenings := 0,
    budget := false, visited := [], expanded := [], fetched := [], beam := [], cands := [], scored := 0, reads := 0,
    shards := [], answered := [], partialQ := false, merged := [], parent := parent }

/-- Adds a query. -/
def addQuery (c : Chip) (q : Query) : Chip :=
  { c with srch := { c.srch with queries := c.srch.queries ++ [q], nextId := c.srch.nextId + 1 } }

/-- A SEARCH waits for a walk place or a pass (R404): refused when 4,096 wait. -/
def queueQuery (c : Chip) (q : Query) : Chip :=
  let c1 := addQuery c q
  if (nextWalk c1).isSome then fillWalks c1
  else if 4096 ≤ queuedQueries c then raise (endQuery c1 q rejBusy []) .srch 20
  else c1

/-- Register of a shard entry (R405). -/
def shardEntry (c : Chip) (x e : Nat) : Word := regB c (x * 64 + e) aSRCH_SHARD_ENTRY
/-- Valid shard entries of an index. -/
def shardList (c : Chip) (x : Nat) : List Nat := (List.range 64).filter (fun e => bit (shardEntry c x e) 31)

/-- The request of a sub-query (R401). -/
def subReq (c : Chip) (r : SearchReq) : SearchReq :=
  let d := if r.deadline = 0 then (reg c aSRCH_DEADLINE_DEFAULT).toNat else r.deadline.toNat
  { r with flags := (r.flags &&& 0xFB) ||| 8, deadline := w32 (max 1 (d - (reg c aSRCH_MERGE_MARGIN).toNat)) }

/-- A SEARCH as the bytes of a SESSION_REQ message (R336, R388). -/
def searchBytes (x : Nat) (tag : DWord) (r : SearchReq) : List Byte :=
  let body := [r.mode, r.flags] ++ leBytes 2 r.k.toNat ++ leBytes 2 r.beam.toNat ++ leBytes 2 r.rerank.toNat ++
    [r.widen, 0, 0, 0] ++ leBytes 4 r.maxVisit.toNat ++ leBytes 4 r.deadline.toNat ++
    leBytes 4 r.bitmapTag.toNat ++ leBytes 8 r.bitmapOffset.toNat ++ r.sketch ++ r.vector
  [0x20, 0] ++ leBytes 2 body.length ++ leBytes 4 x ++ leBytes 8 tag.toNat ++ body

/-- One sub-query of a merged query: run here, or sent to its shard with the TAG that its answer returns (log entry
58). -/
def askShard (c : Chip) (q : Query) (e : Nat) : Chip :=
  let w := shardEntry c q.index e
  let r := subReq c q.req
  let y := fld w 27 24
  if bit w 30 then
    let st := if ixPart c y ≠ ixPart c q.index then rejPart else searchRefusal c y r
    if st = stOK then queueQuery c (newQuery c.srch.nextId y q.conn q.tag r (some (q.id, e)))
    else shardAnswer c q.id e st []
  else
    let n := fld w 13 0
    if partOfConn c n = some (ixPart c q.index) then sendMsg c n 1 (searchBytes y (w64 (q.id * 64 + e)) r) else c

/-- A merged query is accepted (R401). -/
def mergeStart (c : Chip) (q : Query) : Chip :=
  let l := shardList c q.index
  let q1 := { q with phase := .merging, shards := l }
  let c1 := addQuery c q1
  if l.isEmpty then mergeDone c1 q1 else l.foldl (fun c e => askShard c q1 e) c1

/-- SEARCH (R388, R404). -/
def searchReq (c : Chip) (conn : Nat) (tag : DWord) (handle : Word) (r : SearchReq) : Chip :=
  let g := searchGate c conn handle
  let x := handle.toNat % 16
  let st := if g = stOK then searchRefusal c x r else g
  if st ≠ stOK then answerSearch c conn 0x20 x tag st 0
  else
    let q := newQuery c.srch.nextId x conn tag r none
    if sSharded r then mergeStart c q else queueQuery c q

/-- SEARCH_DEADLINE (R402). -/
def searchDeadline (c : Chip) (id : Nat) : Chip :=
  match queryAt c id with
  | none => c
  | some q => fillWalks (endQuery { c with srch := { c.srch with
      queries := c.srch.queries.filter (fun p => p.parent.map (·.1) ≠ some id) } } q stTierLate [])

/-- SHARD_DEADLINE (R401): the shards that have not answered leave the merged query. -/
def shardDeadline (c : Chip) (id : Nat) : Chip :=
  match queryAt c id with
  | none => c
  | some q =>
    if q.phase ≠ .merging then c
    else
      let c1 := freeOlds { c with srch := { c.srch with
        queries := c.srch.queries.filter (fun p => p.parent.map (·.1) ≠ some id) } }
      fillWalks (mergeDone c1 { q with partialQ := true })

/-! ### Deletion (R399) -/

/-- DELETE. -/
def deleteReq (c : Chip) (conn : Nat) (tag : DWord) (handle : Word) (items : List Word) : Chip :=
  let g := searchGate c conn handle
  let x := handle.toNat % 16
  let st :=
    if g ≠ stOK then g
    else if ixValid c x = false then rejState
    else if items.isEmpty ∨ 16376 < items.length ∨ items.any (fun i => ixItems c x ≤ i.toNat) then rejLimit
    else stOK
  if st ≠ stOK then answerSearch c conn 0x21 x tag st 0
  else
    let new := ((items.map (·.toNat)).filter (fun i => !tombed c x i)).dedup
    let c1 := bumpB (new.foldl (fun c i => setTomb c x i) c) x aSRCH_IDX_DELETED new.length
    let ids := (c.srch.queries.filter (fun q => q.index = x)).map (·.id)
    if ids.isEmpty then answerSearch c1 conn 0x21 x tag stOK new.length
    else
      { c1 with srch := { c1.srch with
          nextId := c1.srch.nextId + 1
          deletes := c1.srch.deletes ++ [{ id := c1.srch.nextId, index := x, conn := conn, tag := tag,
                                           newly := new.length, queries := ids }] } }

/-- DELETE_WAIT_END: every query accepted before the DELETE has ended. -/
def deleteWaitEnd (c : Chip) (id : Nat) : Chip :=
  match c.srch.deletes.find? (fun d => d.id = id) with
  | none => c
  | some d =>
    if d.queries.any (fun i => (queryAt c i).isSome) then c
    else
      answerSearch { c with srch := { c.srch with deletes := c.srch.deletes.filter (fun e => e.id ≠ id) } }
        d.conn 0x21 d.index d.tag stOK d.newly

/-! ### Loading (R386) -/

/-- OWNER of a search object's summary record (R386). -/
def searchOwner (c : Chip) (x j : Nat) : DWord := w64 (x + 16 * ixPart c x + j * 2 ^ 32)

/-- The refusal of an INDEX_LOAD, if any. While a check of the index runs, no operation uses it (R535). -/
def loadRefusal (c : Chip) (x : Nat) (r : LoadReq) : Nat :=
  let k := r.kind.toNat
  if x ∈ c.checks.index then rejBusy
  else if k ≠ 4 ∧ k ≠ 5 then rejLimit
  else if ixLayoutOk c x = false ∨ ixCount c x k ≤ r.object.toNat ∨ r.length.toNat ≠ ixObjBytes c x k then rejLimit
  else if ixTableOk c x = false then rejState
  else if ixValid c x ∧ enDamaged (ixEntry c x k r.object.toNat) = false then rejState
  else regionCheck c (ixPart c x) r.tag r.offset.toNat r.length.toNat

/-- INDEX_LOAD (R386). -/
def indexLoad (c : Chip) (conn : Nat) (tag : DWord) (handle : Word) (r : LoadReq) : Chip :=
  let g := searchGate c conn handle
  let x := handle.toNat % 16
  let st := if g = stOK then loadRefusal c x r else g
  if st ≠ stOK then answerSearch c conn 0x22 x tag st 0
  else
    let obj : FObj := { len := r.length.toNat, kind := r.kind.toNat, owner := searchOwner c x r.object.toNat,
                        seq := c.fig.applied, data := regionRead c r.tag r.offset.toNat r.length.toNat }
    let (fs, id, c1) := flashWrite c (ixPart c x) obj (.search x r.kind.toNat r.object.toNat false)
    if fs ≠ stOK then answerSearch c1 conn 0x22 x tag rejBusy 0
    else { c1 with srch := { c1.srch with loads := c1.srch.loads ++
            [{ write := id, index := x, conn := conn, tag := tag, source := r.tag }] } }

/-- The source of a load left ACTIVE before its last 4 KiB was read (R328, R386): where it has left ACTIVE since the load
began, whether its read had ended then is a free value (log entry 129). -/
def sourceLost (c : Chip) (l : Option Load) : Bool × Chip :=
  match l with
  | none => (false, c)
  | some l =>
    if regionCheck c (ixPart c l.index) l.source 0 0 = stOK then (false, c)
    else ((takeFree c).1 % 2 = 0, (takeFree c).2)

/-- A search object is durable (R386, R400). A table registration that no longer stands, or a repair that its index
or SRCH no longer takes, frees the new object. -/
def searchDurable (c : Chip) (id addr x kind j : Nat) (repair : Bool) : Chip :=
  let load := c.srch.loads.find? (fun l => l.write = id)
  let (lost, c0) := sourceLost c load
  let c1 := { c0 with srch := { c0.srch with loads := c0.srch.loads.filter (fun l => l.write ≠ id) } }
  let say := fun (c : Chip) (st : Nat) =>
    match load with
    | some l => answerSearch c l.conn 0x22 l.index l.tag st 0
    | none => c
  if lost ∨ ixTableOk c1 x = false ∨ ixCount c1 x kind ≤ j ∨ (repair ∧ ixValid c1 x = false) then
    say (dropObject c1 addr) stRevoked
  else
    let old := tget 0 c1.srch.entries (ixEntryAddr c1 x kind j)
    let c2 := putEntry c1 (ixEntryAddr c1 x kind j) (w64 addr)
    let had := decide (old ≠ 0) && !old.getLsbD 62
    let c3 := if had then
        if repair then
          { c2 with srch := { c2.srch with olds := c2.srch.olds ++
            [{ addr := old.toNat % 2 ^ 44, walks := ((inPhase c2 .walking).filter (fun q => q.index = x)).map (·.id) }] } }
        else flashFree c2 (old.toNat % 2 ^ 44)
      else c2
    let c4 := freeOlds c3
    if repair then bumpB c4 x aSRCH_IDX_REPAIRED 1 else say c4 stOK

/-- Every object of an index is freed, and every entry of its table is ABSENT (R386). -/
def freeIndexObjects (c : Chip) (x : Nat) : Chip :=
  let mine := c.srch.entries.filter (fun e => ixTable c x + 256 ≤ e.1 && decide (e.1 < ixTable c x + ixTableBytes c x))
  let c1 := mine.foldl (fun c e => if e.2.getLsbD 62 then c else flashFree c (e.2.toNat % 2 ^ 44)) c
  (List.range (ixG c x + ixV c x)).foldl (fun c k => putEntry c (ixTable c x + 256 + 8 * k) (w64 absentEntry)) c1

/-- INDEX_FREE (R386): accepted while the index is not valid and none of its loads is being written. -/
def indexFree (c : Chip) (conn : Nat) (tag : DWord) (handle : Word) : Chip :=
  let g := searchGate c conn handle
  let x := handle.toNat % 16
  let st :=
    if g ≠ stOK then g
    else if x ∈ c.checks.index then rejBusy
    else if ixValid c x ∨ ixTableOk c x = false then rejState
    else if c.srch.loads.any (fun l => l.index = x) then rejBusy
    else stOK
  if st ≠ stOK then answerSearch c conn 0x23 x tag st 0
  else answerSearch (freeIndexObjects c x) conn 0x23 x tag stOK 0

/-! ### Repair (R400) -/

/-- The replacement of a dead edge: the nearest entry of the dead item's list that may stand. -/
def replacement (c : Chip) (x o t : Nat) (mine : List Nat) : Nat :=
  let j := t / 2 ^ ixListLog c x
  let l := if enDamaged (ixEntry c x 5 j) then [] else listOfItem c x t
  let ok := l.filter (fun n => n < ixItems c x && !tombed c x n && n ≠ o && n ∉ mine)
  match sortBy (fun n => hamming (sketchOf c x n) (sketchOf c x o) * 2 ^ 32 + n) ok with
  | [] => 0xFFFFFFFF
  | n :: _ => n

/-- An edge that names a tombstoned item. -/
def deadEdge (c : Chip) (x n : Nat) : Bool := decide (n < ixItems c x) && tombed c x n

/-- The list of an owner with its dead edges replaced, in list order. -/
def repairList (c : Chip) (x o : Nat) (l : List Nat) : List Nat :=
  (List.range l.length).foldl (fun l k =>
    let t := l.getD k 0xFFFFFFFF
    if deadEdge c x t then setAt l k (replacement c x o t l) else l) l

/-- Owners whose lists an object holds. -/
def ownersOf (c : Chip) (x j : Nat) : List Nat :=
  ((List.range (2 ^ ixListLog c x)).map (fun k => j * 2 ^ ixListLog c x + k)).filter (fun o => o < ixItems c x)

/-- Dead edges of an object. -/
def deadEdges (c : Chip) (x j : Nat) : Nat :=
  ((ownersOf c x j).map (fun o => ((listOfItem c x o).filter (deadEdge c x)).length)).foldl (· + ·) 0

/-- REPAIR_OBJECT: repair examines its next object, and rewrites it when it is due. -/
def repairObject (c : Chip) (x j : Nat) : Chip :=
  let busy := c.flash.writes.any (fun w =>
    match w.use with
    | .search y _ _ r => r && decide (y = x)
    | _ => false)
  if isOn c .srch = false ∨ ixValid c x = false ∨ ixRepair c x = false ∨ busy ∨ ixG c x ≤ j ∨
      tget 0 c.srch.repairNext x ≠ j then c
  else
    let c1 := { c with srch := { c.srch with
      repairNext := tset 0 c.srch.repairNext x (if j + 1 = ixG c x then 0 else j + 1) } }
    let c2 := if j + 1 = ixG c x then raise c1 .srch 17 else c1
    if enDamaged (ixEntry c2 x 5 j) ∨ deadEdges c2 x j < max 1 (fld (reg c2 aSRCH_REPAIR_CFG) 23 16) then c2
    else
      let old := objBytes c2 x 5 j
      let new := (ownersOf c2 x j).flatMap (fun o => (repairList c2 x o (listOfItem c2 x o)).flatMap (leBytes 4))
      let obj : FObj := { len := old.length, kind := 5, owner := searchOwner c2 x j, seq := c2.fig.applied,
                          data := new ++ old.drop new.length }
      let c3 := countRead c2 x 5 j old.length
      (flashWrite c3 (ixPart c x) obj (.search x 5 j true)).2.2

/-- Repair writes not yet durable are freed (R406). -/
def stopRepair (c : Chip) : Chip :=
  (c.flash.writes.filter (fun w =>
    match w.use with
    | .search _ _ _ r => r
    | _ => false)).foldl (fun c w => cancelWrite c w.id) c

/-- SRCH's work is done (R406): nothing is left to run. -/
def srchIdle (c : Chip) : Bool := c.srch.queries.isEmpty && c.srch.deletes.isEmpty && c.srch.loads.isEmpty

/-- Every query and DELETE of a set of indexes ends with a code; its loads go on (R406). -/
def endSearches (c : Chip) (mine : Nat → Bool) (status : Nat) : Chip :=
  let c1 := (c.srch.queries.filter (fun q => mine q.index)).foldl (fun c q =>
    match queryAt c q.id with
    | some p => endQuery c p status []
    | none => c) c
  (c1.srch.deletes.filter (fun d => mine d.index)).foldl (fun c d =>
    answerSearch { c with srch := { c.srch with deletes := c.srch.deletes.filter (fun e => e.id ≠ d.id) } }
      d.conn 0x21 d.index d.tag status d.newly) c1

/-- SRCH's drain timeout (R406). -/
def srchDrainTimeout (c : Chip) : Chip := endSearches c (fun _ => true) stAbortDrain

/-! ### Commands -/

/-- SEARCH. -/
def execSearch (conn : Conn) (tag : DWord) (handle : Word) (req : SearchReq) (s : State) :
    Host.Outcome State Fault Refusal :=
  act s (fun c => whenAwake c (fun c => searchReq c conn.toNat tag handle req))

/-- DELETE. -/
def execDelete (conn : Conn) (tag : DWord) (handle : Word) (items : List Word) (s : State) :
    Host.Outcome State Fault Refusal :=
  act s (fun c => whenAwake c (fun c => deleteReq c conn.toNat tag handle items))

/-- DELETE_WAIT_END. -/
def execDeleteWaitEnd (id : Nat) (s : State) : Host.Outcome State Fault Refusal :=
  act s (fun c => whenAwake c (fun c => deleteWaitEnd c id))

/-- INDEX_LOAD. -/
def execIndexLoad (conn : Conn) (tag : DWord) (handle : Word) (req : LoadReq) (s : State) :
    Host.Outcome State Fault Refusal :=
  act s (fun c => whenAwake c (fun c => indexLoad c conn.toNat tag handle req))

/-- INDEX_FREE. -/
def execIndexFree (conn : Conn) (tag : DWord) (handle : Word) (s : State) : Host.Outcome State Fault Refusal :=
  act s (fun c => whenAwake c (fun c => indexFree c conn.toNat tag handle))

/-- SCAN_PASS_START. -/
def execScanPassStart (s : State) : Host.Outcome State Fault Refusal :=
  act s (fun c => whenAwake c scanPassStart)

/-- SCAN_PASS_END. -/
def execScanPassEnd (uncorr : Bool) (s : State) : Host.Outcome State Fault Refusal :=
  act s (fun c => whenAwake c (fun c => scanPassEnd c uncorr))

/-- WALK_LISTS_READY. -/
def execWalkListsReady (id : Nat) (uncorr : List Nat) (gddr : Bool) (s : State) : Host.Outcome State Fault Refusal :=
  act s (fun c => whenAwake c (fun c => walkListsReady c id uncorr gddr))

/-- RERANK_DONE. -/
def execRerankDone (id : Nat) (uncorr : List Nat) (s : State) : Host.Outcome State Fault Refusal :=
  act s (fun c => whenAwake c (fun c => rerankDone c id uncorr))

/-- SEARCH_DEADLINE. -/
def execSearchDeadline (id : Nat) (s : State) : Host.Outcome State Fault Refusal :=
  act s (fun c => whenAwake c (fun c => searchDeadline c id))

/-- SHARD_ANSWER. -/
def execShardAnswer (id : Nat) (shard : BitVec 6) (status : Byte) (hits : List SearchHit) (s : State) :
    Host.Outcome State Fault Refusal :=
  act s (fun c => whenAwake c (fun c => shardAnswer c id shard.toNat status.toNat hits))

/-- SHARD_DEADLINE. -/
def execShardDeadline (id : Nat) (s : State) : Host.Outcome State Fault Refusal :=
  act s (fun c => whenAwake c (fun c => shardDeadline c id))

/-- REPAIR_OBJECT. -/
def execRepairObject (index : BitVec 4) (object : Nat) (s : State) : Host.Outcome State Fault Refusal :=
  act s (fun c => whenAwake c (fun c => repairObject c index.toNat object))

end Sys2Proof.Machine
end

