-- ==== Sys2Proof/Machine/Flash.lean ====
section
/-! DEFINITION. The commands of FLASH (R119-R139): durable reports, program failures, copies, erases, wear
levelling, compaction, lost dies, the rebuilt map and the read-scan. -/

namespace Sys2Proof.Machine

/-! ### Durable reports (R124, R127) -/

/-- The owner takes the durable report of a write (R100, R103, R127, R386): an object that its owner no longer wants
is freed at once. -/
def ownerDurable (c : Chip) (w : FWrite) : Chip :=
  match w.use with
  | .block k =>
    if (ledger c k).state = .resident ∧ blockBytes c k = w.obj.data then
      setLedger c k { ledger c k with state := .mirrored, flash := some w.addr }
    else dropObject c w.addr
  | .image i =>
    match (body c i).evict with
    | some (some id, none) =>
      if id = w.id then setBody c i { body c i with evict := some (none, some w.addr) } else dropObject c w.addr
    | _ => dropObject c w.addr
  | .search x kind j r => searchDurable c w.id w.addr x kind j r
  | .relocate a => relocated c a w.addr

/-- A use counts in OWNER_BYTES: a relocation is FLASH's own write (R136). -/
def ownerWrite (u : FUse) : Bool :=
  match u with
  | .relocate _ => false
  | .block _ => true
  | .image _ => true
  | .search _ _ _ _ => true

/-- OBJECT_DURABLE (R124). Bytes programmed beyond the object's own are a free value (log entry 3). -/
def objectDurable (c : Chip) (id : Nat) : Chip :=
  match c.flash.writes.find? (fun w => w.id = id) with
  | none => c
  | some w =>
    let (v, c1) := takeFree c
    let c2 := if ownerWrite w.use then bumpPair c1 aFLASH_OWNER_BYTES_LO w.obj.len else c1
    let c2j := jput c2 (.summary w.ext
      { offset := w.addr % 2 ^ 27, len := w.obj.len, kind := w.obj.kind, owner := w.obj.owner, seq := w.obj.seq })
    let c3 := bumpPair c2j aFLASH_MEDIA_BYTES_LO (w.obj.len + v % 2 ^ 20)
    ownerDurable { c3 with flash := { c3.flash with
      writes := c3.flash.writes.filter (fun x => x.id ≠ id)
      objects := tins c3.flash.objects w.addr w.obj } } w

/-- OBJECT_DURABLE. -/
def execObjectDurable (id : Nat) (s : State) : Host.Outcome State Fault Refusal :=
  act s (fun c => whenAwake c (fun c =>
    if isUp c .flash then kick (settle (objectDurable (settle c) id)) else c))

/-! ### Program failures (R125, R131) -/

/-- A journal copy is lost and rebuilt from the other one (R131). -/
def journalLost (c : Chip) : Chip := raise { c with flash := { c.flash with journalBroken := true } } .flash 23

/-- A journal extent whose program failed is replaced from the spares of its die (R131). -/
def journalFail (c : Chip) (d : Nat) : Chip :=
  let (v, c1) := takeFree c
  match spareOn c1 d v with
  | none => journalLost c1
  | some e => journalLost (retire c1 e)

/-- The write head of a die fails (R125): its objects are written elsewhere, and it is copied whole and retired. -/
def headFail (c : Chip) (d e : Nat) : Chip :=
  let c1 := replaceWrites { c with flash := { c.flash with heads := tdel c.flash.heads d } } e
  let c2 := setExtent c1 e { extent c1 e with state := .closed, failed := true }
  match (extent c2 e).lext with
  | none => retire c2 e
  | some l => if liveBytes c2 l = 0 then retire c2 e else startCopy c2 e

/-- The target of a whole copy fails: it is retired, and the copy begins anew on another spare. DEDUCED (log entry 107). -/
def copyFail (c : Chip) (t : Nat) : Chip :=
  match (extent c t).state, (extent c t).copyTo with
  | .open, some e => startCopy (retire (setExtent c e { extent c e with copyTo := none, copyDue := true }) t) e
  | _, _ => c

/-- Whether a die programs what is said to fail. -/
def failsOn (c : Chip) (d : Nat) (what : FailTarget) : Bool :=
  match what with
  | .head => (tfind c.flash.heads d).isSome
  | .copy t => decide (dieOf t.toNat = d ∧ (extent c t.toNat).state = .open) && (extent c t.toNat).copyTo.isSome
  | .journal => true

/-- PROGRAM_FAIL (R125, R131). -/
def programFail (c : Chip) (d : Nat) (what : FailTarget) : Chip :=
  if diesOf c.variant ≤ d ∨ d ∈ c.flash.lostDies ∨ failsOn c d what = false then c
  else
    let c0 := fault (bump c aFLASH_PROGFAIL_CNT 1) 0x0F .flash d 0 false
    match what with
    | .head => keepHeads (headFail c0 d ((tfind c0.flash.heads d).getD 0))
    | .copy t => copyFail c0 t.toNat
    | .journal => journalFail c0 d

/-- PROGRAM_FAIL. -/
def execProgramFail (die : Die) (what : FailTarget) (s : State) : Host.Outcome State Fault Refusal :=
  act s (fun c => whenAwake c (fun c => if isUp c .flash then kick (settle (programFail c die.toNat what)) else c))

/-! ### Copies and erases (R125, R128, R133) -/

/-- EXTENT_COPY_DONE: the extent is the source of a whole copy. -/
def execExtentCopyDone (ext : BitVec 17) (s : State) : Host.Outcome State Fault Refusal :=
  act s (fun c => whenAwake c (fun c => if isUp c .flash then endCopy c ext.toNat else c))

/-- EXTENT_ERASE_DONE (R126, R128). -/
def eraseDone (c : Chip) (e : Nat) (pass : Bool) : Chip :=
  if (extent c e).state ≠ .erasing then c
  else
    let n := (extent c e).erases + 1
    let c0 := jput c (.erases e n)
    if pass then
      let c1 := applyCut (setExtent c0 e { extReset with erases := n })
      pumpFlash (if bit (reg c1 aFLASH_STATUS) 4 ∧ 0 < freeLexts c1 then setFld c1 aFLASH_STATUS 4 4 0 else c1)
    else retire (setExtent c0 e { extent c0 e with erases := n }) e

/-- EXTENT_ERASE_DONE. -/
def execExtentEraseDone (ext : BitVec 17) (pass : Bool) (s : State) : Host.Outcome State Fault Refusal :=
  act s (fun c => whenAwake c (fun c => if isUp c .flash then eraseDone c ext.toNat pass else c))

/-! ### Wear levelling and compaction (R127, R128) -/

/-- Highest erase count of any extent in service. -/
def maxErases (c : Chip) : Nat :=
  (c.flash.extents.filter (fun x => decide (x.2.state ≠ .retired))).foldl (fun m x => max m x.2.erases) 0

/-- Closed extents that no copy moves. -/
def quietClosed (c : Chip) : List Nat :=
  (c.flash.extents.filter (fun x => decide (x.2.state = .closed ∧ x.2.copyTo = none))).map (·.1)

/-- WEAR_LEVEL (R128): the coldest closed extent goes to the most worn spare. -/
def wearLevel (c : Chip) : Chip :=
  match sortBy (fun e => (extent c e).erases) (quietClosed c) with
  | [] => c
  | e :: _ =>
    if maxErases c ≤ (extent c e).erases + 200 then c
    else
      match sortBy (fun t => maxErases c - (extent c t).erases) (spareList c e) with
      | [] => c
      | t :: _ => copyTo c e t

/-- WEAR_LEVEL. -/
def execWearLevel (s : State) : Host.Outcome State Fault Refusal :=
  act s (fun c => whenAwake c (fun c => if isOn c .flash then wearLevel c else c))

/-- COMPACT.LIVE_PCT in force. -/
def livePct (c : Chip) : Nat := min 100 (fld (reg c aFLASH_COMPACT) 6 0)

/-- An extent whose live objects are being relocated. -/
def relocating (c : Chip) (e : Nat) : Bool :=
  c.flash.writes.any (fun w =>
    match w.use with
    | .relocate a => decide (extOfLext c (lextOf a) = some e)
    | _ => false)

/-- COMPACTION_START (R127): the closed extent with the fewest live bytes, if it is below LIVE_PCT. A LEXT that is to be
removed while none is free starts it too (R134). -/
def compactionStart (c : Chip) : Chip :=
  if fld (reg c aFLASH_COMPACT) 31 16 ≤ freeLexts c ∧ (c.flash.cutDue = 0 ∨ 0 < freeLexts c) then c
  else
    match sortBy (extLive c) ((quietClosed c).filter (fun e => !relocating c e)) with
    | [] => c
    | e :: _ => if extLive c e * 100 < livePct c * extentBytes then relocateAll c e else c

/-- COMPACTION_START. -/
def execCompactionStart (s : State) : Host.Outcome State Fault Refusal :=
  act s (fun c => whenAwake c (fun c => if isOn c .flash then compactionStart c else c))

/-! ### Lost dies (R130) -/

/-- DIE_COMMAND_TIMEOUT, or a poll that a die does not answer: the die is reset. -/
def dieTimeout (c : Chip) (d : Nat) : Chip :=
  if diesOf c.variant ≤ d ∨ d ∈ c.flash.lostDies ∨ d ∈ c.flash.resetDies then c
  else { c with flash := { c.flash with resetDies := c.flash.resetDies ++ [d] } }

/-- DIE_COMMAND_TIMEOUT. -/
def execDieCommandTimeout (die : Die) (s : State) : Host.Outcome State Fault Refusal :=
  act s (fun c => whenAwake c (fun c => dieTimeout c die.toNat))

/-- DIE_POLL: an answer ends a reset in progress. -/
def execDiePoll (die : Die) (answered : Bool) (s : State) : Host.Outcome State Fault Refusal :=
  act s (fun c => whenAwake c (fun c =>
    if answered then
      { c with flash := { c.flash with resetDies := c.flash.resetDies.filter (fun d => d ≠ die.toNat) } }
    else dieTimeout c die.toNat))

/-- Sets the DIE_LOST bit of a die. -/
def setDieLost (c : Chip) (d : Nat) : Chip :=
  let a := if d < 32 then aFLASH_DIE_LOST_LO else aFLASH_DIE_LOST_HI
  setReg c a (putBit (reg c a) (d % 32) true)

/-- Physical extents of a die. -/
def extentsOf (d : Nat) : List Nat := (List.range 2048).map (fun i => 2048 * d + i)

/-- DIE_LOST: the reset did not complete. A whole copy to or from the die ends; one from it leaves nothing to serve. -/
def dieLost (c : Chip) (d : Nat) : Chip :=
  if d ∉ c.flash.resetDies then c
  else
    let c0 := raise (setDieLost { c with flash := { c.flash with
      resetDies := c.flash.resetDies.filter (fun x => x ≠ d), lostDies := c.flash.lostDies ++ [d]
      heads := tdel c.flash.heads d } } d) .flash 16
    let mine := (c.flash.extents.filter (fun x => decide (dieOf x.1 = d)))
    let gone := (mine.filter (fun x => decide (x.2.copyTo = none ∨ x.2.state = .closed))).filterMap (fun x => x.2.lext)
    let lost := (c.flash.objects.filter (fun o => lextOf o.1 ∈ gone)).map (·.1)
    let c1 := (c.flash.extents.filter (fun x => decide (dieOf x.1 ≠ d))).foldl (fun c x =>
      match x.2.copyTo with
      | none => c
      | some t =>
        if dieOf t ≠ d then c
        else if x.2.state = .open then startErase c x.1
        else setExtent c x.1 { extent c x.1 with copyTo := none, copyDue := true }) c0
    let c2 := (c.flash.writes.filter (fun w => dieOf w.ext = d)).foldl replaceWrite c1
    let c3 := (extentsOf d).foldl (fun c e => if (extent c e).state = .retired then c else retire c e) c2
    let c4 := lost.foldl (fun c a =>
      let c5 := ownerLost c a
      { c5 with flash := { c5.flash with objects := tdel c5.flash.objects a } }) c3
    let (v, c6) := takeFree c4
    let c7 := if v % 2 = 1 then journalLost c6 else c6
    pumpFlash (sweepStart (fault c7 0x0E .flash d 0 false))

/-- DIE_LOST. -/
def execDieLost (die : Die) (s : State) : Host.Outcome State Fault Refusal :=
  act s (fun c => whenAwake c (fun c => kick (settle (dieLost (settle c) die.toNat))))

/-! ### Power-up (R132) -/

/-- MAP_REBUILT: reads are served from here on. -/
def execMapRebuilt (s : State) : Host.Outcome State Fault Refusal :=
  act s (fun c => whenAwake c (fun c =>
    if c.flash.mapReady then c else pumpRevivals { c with flash := { c.flash with mapReady := true } }))

/-- SUMMARY_SCAN_DONE: the live bytes are counted, frees that waited for them are made, closed extents without live bytes
are erased (R126), and FLASH that is enabled goes ON. -/
def summaryScanDone (c : Chip) : Chip :=
  if c.flash.mapReady = false ∨ c.flash.scanned then c
  else
    let (due, kept) := c.flash.heldFrees.partition (fun h => h.2 = 0)
    let c1 := { c with flash := { c.flash with scanned := true, heldFrees := kept } }
    let c2 := (mappedLexts c1).foldl eraseIfDead (due.foldl (fun c h => dropObject c h.1) c1)
    pumpFlash (if (hdr c2 .flash).enable ∧ bstate c2 .flash = .off then setState c2 .flash .on else c2)

/-- SUMMARY_SCAN_DONE. -/
def execSummaryScanDone (s : State) : Host.Outcome State Fault Refusal :=
  act s (fun c => whenAwake c summaryScanDone)

/-! ### The read-scan (R133) -/

/-- The scan counts an extent: the first one after a pass begins a new pass. -/
def scanCount (c : Chip) (passEnd : Bool) : Chip :=
  let n := if bit (reg c aFLASH_STATUS) 1 then fld (reg c aFLASH_SCAN_PROGRESS) 16 0 else 0
  let c1 := setFld c aFLASH_SCAN_PROGRESS 16 0 (n + 1)
  if passEnd then raise (setFld c1 aFLASH_STATUS 1 1 0) .flash 22 else setFld c1 aFLASH_STATUS 1 1 1

/-- Objects that a codeword of 4 KiB touches (R129). -/
def touchedBy (c : Chip) (l word : Nat) : List Nat :=
  ((objectsIn c l).filter (fun x => overlaps (x.1 % 2 ^ 27) x.2.len (word * 4096) 4096)).map (·.1)

/-- READ_SCAN: an extent is refreshed for a weak codeword or 500,000 reads; an uncorrectable codeword is an
uncorrectable read of each object it touches. -/
def readScan (c : Chip) (e : Nat) (res : ScanResult) (passEnd : Bool) : Chip :=
  match (extent c e).state, (extent c e).lext with
  | .closed, some l =>
    let c1 := scanCount c passEnd
    let tired := decide (500000 ≤ (extent c1 e).reads)
    match res with
    | .clean => if tired then startCopy c1 e else c1
    | .weak => startCopy (fault (bump c1 aFLASH_RETRY_CNT 1) 0x0D .flash (dieOf e) (l * 2 ^ 27) false) e
    | .uncorrectable offs weak =>
      let words := (offs.map (· / 4096)).dedup
      let c2 := raise (bump (bump c1 aFLASH_UNCORR_CNT words.length) aFLASH_RETRY_CNT (b2n weak)) .flash 17
      let c3 := fault c2 0x0D .flash (dieOf e) (l * 2 ^ 27) true
      let hit := (words.flatMap (touchedBy c3 l)).dedup
      let c4 := hit.foldl ownerLost c3
      if tired ∨ weak then startCopy c4 e else c4
  | _, _ => c

/-- READ_SCAN. -/
def execReadScan (ext : BitVec 17) (res : ScanResult) (passEnd : Bool) (s : State) :
    Host.Outcome State Fault Refusal :=
  act s (fun c => whenAwake c (fun c =>
    if isOn c .flash then kick (settle (readScan (settle c) ext.toNat res passEnd)) else c))

/-! ### Drain (R139) -/

/-- A write is abandoned and its owner learns ABORTED_DRAIN: TIER abandons the eviction (R103) or flushes the block again
(R101), SRCH answers its INDEX_LOAD. -/
def abandonWrite (c : Chip) (w : FWrite) : Chip :=
  let c1 := cancelWrite c w.id
  match w.use with
  | .image i => setBody c1 i { body c1 i with evict := none }
  | .search _ _ _ _ =>
    match c1.srch.loads.find? (fun l => l.write = w.id) with
    | some l => answerSearch { c1 with srch := { c1.srch with
        loads := c1.srch.loads.filter (fun x => x.write ≠ w.id) } } l.conn 0x22 l.index l.tag stAbortDrain 0
    | none => c1
  | .block _ => c1
  | .relocate _ => c1

/-- FLASH's drain timeout: a write that has not reached t2 is abandoned; one whose pages are programmed becomes durable.
No row says which have, so a free value does (log entry 108). -/
def flashDrainTimeout (c : Chip) : Chip :=
  c.flash.writes.foldl (fun c w =>
    let (v, c1) := takeFree c
    if v % 2 = 1 then objectDurable c1 w.id else abandonWrite c1 w) c

end Sys2Proof.Machine
end

