-- ==== Sys2Proof/Machine/Ckpt.lean ====
section
/-! DEFINITION. CKPT (R407-R425): the ring's own registrations, marks and rounds, snapshot and copy-before-write, the
shard, restore and held sessions. -/

namespace Sys2Proof.Machine

/-! ### Configuration (R407, R408, R424) -/

/-- CFG.MEMBERS: 0 means 64. -/
def ckMembers (c : Chip) : Nat :=
  if fld (reg c aCKPT_CFG) 29 24 = 0 then 64 else fld (reg c aCKPT_CFG) 29 24
/-- CFG.MEMBER. -/
def ckMember (c : Chip) : Nat := fld (reg c aCKPT_CFG) 21 16
/-- CFG.LEADER. -/
def ckLeader (c : Chip) : Bool := bit (reg c aCKPT_CFG) 2
/-- CFG.TAIL_BF16. -/
def ckTailBf16 (c : Chip) : Bool := bit (reg c aCKPT_CFG) 1
/-- CFG.FLUSH. -/
def ckFlush (c : Chip) : Bool := bit (reg c aCKPT_CFG) 0
/-- RING_CONN. -/
def ckConn (c : Chip) : Nat := fld (reg c aCKPT_RING_CONN) 13 0
/-- HOST_AREA.GEN_SIZE in bytes: 0 acts as 1 GiB, above 8 as 8. -/
def ckGenBytes (c : Chip) : Nat := max 1 (min 8 (fld (reg c aCKPT_HOST_AREA) 11 8)) * 2 ^ 30
/-- HOST_AREA.BASE in bytes. -/
def ckAreaBase (c : Chip) : Nat := fld (reg c aCKPT_HOST_AREA) 7 0 * 2 ^ 30
/-- BOUNCE in bytes. -/
def ckBounce (c : Chip) : Nat := max 64 (min 4096 (fld (reg c aCKPT_BOUNCE) 12 0)) * 2 ^ 20
/-- This member is in RESTORE_SET. -/
def ckInSet (c : Chip) : Bool := nbit (pair c aCKPT_RESTORE_SET_LO) (ckMember c)
/-- An epoch register that names none. -/
abbrev noEpoch : Nat := 0xFFFFFFFF
/-- CKPT works on what it has begun: ON or DRAINING. -/
def ckUp (c : Chip) : Bool := isUp c .ckpt

/-- Changes CKPT's own state. -/
def modCkpt (c : Chip) (f : CkptUnit → CkptUnit) : Chip := { c with ckpt := f c.ckpt }

/-- One of CKPT's own registrations (R408): partition 0, read and write, CONN 0xFFFF. It is no request's. -/
def ownRegion (c : Chip) (base len : Nat) : Option Nat × Chip :=
  match freeRegion c with
  | none => (none, c)
  | some i =>
    let c1 := takeRegion c i
    (some i, setRegion c1 i { region c1 i with
      state := .active, part := 0, base := base, len := len, write := true, read := true, conn := 0xFFFF,
      notify := 0xFFFF, inflight := 0, landing := false, zeroing := false, violated := false,
      replyConn := 0xFFFF, replyTag := 0 })

/-- The tag of one of its own registrations; 0 for none. -/
def ownTag (c : Chip) (r : Option Nat) : Word :=
  match r with
  | some i => regionTag c i
  | none => 0

/-- CKPT goes ON (R408): its registrations are created unless they still stand. The mark region's place is the
heap's, or open (log entry 59). -/
def ckptOn (c : Chip) : Chip :=
  if c.ckpt.areaRegion.isSome then c
  else
    let (a, c1) := ownRegion c (ckAreaBase c) (2 * ckGenBytes c)
    let (v, c2) := takeFree c1
    let (base, c3) := match (if heapServes c2 0 then heapAlloc c2 0 4096 else none) with
      | some (b, c') => (b, c')
      | none => (v % (gddrSize / 4096) * 4096, c2)
    let (m, c4) := ownRegion c3 base 4096
    let c5 := modCkpt c4 (fun k => { k with areaRegion := a, markRegion := m })
    setReg (setReg c5 aCKPT_AREA_TAG (ownTag c5 a)) aCKPT_MARK_TAG (ownTag c5 m)

/-- Ends one of CKPT's own registrations (R408): FREE at the next generation. -/
def endOwn (c : Chip) (r : Option Nat) (heap : Bool) : Chip :=
  match r with
  | none => c
  | some i =>
    let x := region c i
    let c1 := if heap then heapRelease c x.base else c
    let c2 := setRegion c1 i { regionReset with gen := if x.gen = 255 then 1 else x.gen + 1 }
    { c2 with xpt := { c2.xpt with freedRegions := c2.xpt.freedRegions ++ [i] } }

/-! ### Marks (R413) -/

/-- The 64 B of a mark. -/
def markBytes (m : Mark) : List Byte :=
  let l := [m.typ, m.flags, m.origin, m.hops] ++ leBytes 4 m.round.toNat ++ leBytes 4 m.epoch.toNat ++
    leBytes 4 m.cand0.toNat ++ leBytes 4 m.cand1.toNat ++ List.replicate 40 0
  l ++ leBytes 4 (crc32c l)

/-- Sends a mark to the next member. -/
def sendMark (c : Chip) (m : Mark) : Chip :=
  remoteWrite c (ckConn c) (reg c aCKPT_NEXT_MARK_TAG) (m.round.toNat % 64 * 64) (markBytes m) .mark

/-- A mark of this leader's round. -/
def ownMark (c : Chip) (typ : Nat) (epoch : Nat) : Mark :=
  { typ := BitVec.ofNat 8 typ, flags := 0, origin := BitVec.ofNat 8 (ckMember c), hops := 0,
    round := w32 c.ckpt.round, epoch := w32 epoch, cand0 := w32 noEpoch, cand1 := w32 noEpoch, crcOk := true }

/-- A mark as forwarded: one member more has passed it. -/
def passed (m : Mark) : Mark := { m with hops := m.hops + 1 }

/-- A member handles a mark (R413): a failing CRC or an older ROUND is ignored. -/
def onMark (c : Chip) (m : Mark) (typ : Nat) (f : Chip → Chip) : Chip :=
  if ckUp c = false ∨ m.crcOk = false ∨ m.typ.toNat ≠ typ ∨ m.round.toNat < c.ckpt.topRound then c
  else f (modCkpt c (fun k => { k with topRound := m.round.toNat }))

/-- A mark that comes back to the leader that waits for it. -/
def returned (c : Chip) (m : Mark) (typ : Nat) : Bool :=
  ckLeader c && decide (m.origin.toNat = ckMember c) && decide (c.ckpt.outstanding = some typ) &&
    decide (m.round.toNat = c.ckpt.round)

/-- A new round (R414): its number is above every round seen. -/
def newRound (c : Chip) (typ : Nat) : Chip :=
  let n := max c.ckpt.round c.ckpt.topRound + 1
  modCkpt c (fun k => { k with round := n, topRound := n, outstanding := some typ })

/-! ### Rounds (R414) -/

/-- LAST_EPOCH. -/
def lastEpoch (c : Chip) : Nat := (reg c aCKPT_LAST_EPOCH).toNat

/-- The leader starts a round: PREPARE. -/
def startRound (c : Chip) : Chip :=
  let c1 := modCkpt (newRound c 1) (fun k => { k with stepsSince := 0 })
  sendMark c1 (ownMark c1 1 (lastEpoch c1 + 1))

/-- The leader may start a round: ON, and no restore runs. -/
def mayRound (c : Chip) : Bool := isOn c .ckpt && ckLeader c && decide (c.ckpt.phase ≠ .restore)

/-- CKPT_TIMER_EXPIRY. -/
def ckptTimer (c : Chip) : Chip := if mayRound c ∧ reg c aCKPT_TIMER ≠ 0 then startRound c else c

/-- CKPT_STEPS_REACHED. -/
def ckptSteps (c : Chip) : Chip :=
  if mayRound c ∧ reg c aCKPT_STEPS ≠ 0 ∧ (reg c aCKPT_STEPS).toNat ≤ c.ckpt.stepsSince then startRound c else c

/-- CTRL.NOW (R424): the status of the write, and the round. -/
def ckptNow (c : Chip) : Nat × Chip :=
  if ckLeader c = false then (rejState, c)
  else if mayRound c = false then (rejBusy, c)
  else (stOK, startRound c)

/-- MARK_TIMEOUT: the leader starts a new round in place of one whose mark did not return. -/
def markTimeout (c : Chip) : Chip :=
  if isOn c .ckpt = false ∨ ckLeader c = false ∨ c.ckpt.outstanding.isNone then c
  else if c.ckpt.phase = .restore then c
  else startRound (raise c .ckpt 19)

/-- A member takes, or skips, the snapshot of an epoch (R414, R425). -/
def takeSnap (c : Chip) (e : Nat) : Chip :=
  let c1 := setReg c aCKPT_LAST_EPOCH (w32 (max (lastEpoch c) e))
  if c1.ckpt.phase ≠ .idle ∨ isOn c1 .ckpt = false then
    raise (bump c1 aCKPT_SKIP_CNT 1) .ckpt 18
  else modCkpt c1 (fun k => { k with phase := .snapshot, snapEpoch := some e })

/-- MARK_PREPARE_RX. -/
def prepareRx (c : Chip) (m : Mark) : Chip :=
  onMark c m 1 (fun c =>
    if returned c m 1 then
      let c1 := modCkpt c (fun k => { k with outstanding := some 2 })
      takeSnap (sendMark c1 (ownMark c1 2 m.epoch.toNat)) m.epoch.toNat
    else if ckLeader c then c
    else sendMark c (passed { m with epoch := w32 (max m.epoch.toNat (lastEpoch c + 1)) }))

/-- MARK_SNAP_RX. -/
def snapRx (c : Chip) (m : Mark) : Chip :=
  onMark c m 2 (fun c =>
    if returned c m 2 then modCkpt c (fun k => { k with outstanding := none })
    else if ckLeader c then c
    else takeSnap (sendMark c (passed m)) m.epoch.toNat)

/-! ### The shard (R409-R411) -/

/-- Block reference of a place in a block table: zeros for a dropped block. -/
def refBytes (c : Chip) (i k : Nat) : List Byte :=
  match tfind (body c i).blocks k with
  | none => List.replicate 16 0
  | some b => slice (blockData c b) 0x18 16

/-- Block references of a session. -/
def refCount (c : Chip) (i : Nat) : Nat := groupsOf (entry c i).length * attnLayers c (entry c i).model

/-- SEQ of a session's COLD image, 0 when it is not COLD. -/
def imageSeq (c : Chip) (i : Nat) : Nat :=
  if (entry c i).state = .cold then
    match (body c i).image.bind (flashObj c) with
    | some o => o.seq
    | none => 0
  else 0

/-- Sections 3 to 8 of a session (R300, R410). -/
def shardSections (c : Chip) (i : Nat) (bf16 : Bool) : List Byte :=
  let b := body c i
  section64 (imageTails c i bf16) ++ section64 (recurBytes c i) ++ section64 (countsBytes b.counts) ++
    section64 (stackBytes b.gram) ++ section64 (stopArea b) ++ exclTableBytes b

/-- A session record (R410). -/
def shardRecord (c : Chip) (i : Nat) (bf16 : Bool) : List Byte :=
  let e := entry c i
  let refs := (List.range (refCount c i)).flatMap (refBytes c i)
  let rest := entryBytes e i ((opsOf c i).length - 1) ++ refs ++
    (if e.state = .cold then [] else shardSections c i bf16)
  let len := roundUp (16 + rest.length) 64
  padTo len (leBytes 4 len ++ leBytes 4 (refCount c i) ++ leBytes 8 (imageSeq c i) ++ rest)

/-- Sessions that a shard records: the entries that are not FREE, in index order. -/
def shardSessions (c : Chip) : List Nat :=
  (c.sess.entries.filter (fun e => decide (e.2.state ≠ .free))).map (·.1)

/-- The body of a shard: generations and records. -/
def shardBody (c : Chip) (bf16 : Bool) : List Byte :=
  (List.range 4194304).map (fun i => BitVec.ofNat 8 (entry c i).gen) ++
    (List.range 65536).map (fun i => BitVec.ofNat 8 (region c i).gen) ++
    (shardSessions c).flatMap (fun i => shardRecord c i bf16)

/-- The shard header (R410). -/
def shardHeader (c : Chip) (epoch sessions figHead refs : Nat) (flags : Nat) (bodyBytes : List Byte) : List Byte :=
  let l := leBytes 2 0x4353 ++ [1, BitVec.ofNat 8 flags] ++ leBytes 4 epoch ++ leBytes 1 (ckMember c) ++
    leBytes 1 (fld (geometryOf c.variant) 31 24) ++ leBytes 2 (fld (reg c aPEER_NODE) 11 0) ++ leBytes 4 sessions ++
    leBytes 8 figHead ++ leBytes 8 (128 + bodyBytes.length) ++ leBytes 8 (128 + 4194304 + 65536) ++ leBytes 4 refs ++
    leBytes 1 c.chip.inForce ++ [0, 0, 0] ++ leBytes 8 (crc64 bodyBytes) ++ List.replicate 68 0
  l ++ leBytes 4 (crc32c l)

/-- The generation that a shard goes to (R417): not the one of the newest completed shard. -/
def shardGen (c : Chip) : Nat :=
  let g0 := (reg c aCKPT_GEN0_EPOCH).toNat
  let g1 := (reg c aCKPT_GEN1_EPOCH).toNat
  if g0 = noEpoch then 0 else if g1 = noEpoch then 1 else if g1 < g0 then 1 else 0

/-- GENn_EPOCH of a generation. -/
def genReg (g : Nat) : Nat := if g = 0 then aCKPT_GEN0_EPOCH else aCKPT_GEN1_EPOCH

/-- 4 KiB regions that a range touches. -/
def regionsOf (a n : Nat) : List Nat :=
  if n = 0 then [] else (List.range ((a + n - 1) / 4096 - a / 4096 + 1)).map (· + a / 4096)

/-- The pending regions of a snapshot (R415). -/
def pendingRegions (c : Chip) : List Nat :=
  ((shardSessions c).flatMap (fun i =>
    let e := entry c i
    regionsOf (dirBase c + 128 * i) 128 ++
      (if e.tailBase = 0 then [] else regionsOf e.tailBase (tailSetBytes c e.model)) ++
      (if e.smallState = 0 then [] else regionsOf e.smallState smallBytes) ++
      (if e.exclTable = 0 then [] else regionsOf e.exclTable exclBytes))).dedup

/-- Blocks that a shard refers to and that only GDDR7 holds. -/
def unflushed (c : Chip) : List Nat :=
  ((shardSessions c).flatMap (fun i => (blockList c i).filter (fun k => decide ((ledger c k).state = .resident)))).dedup

/-- Writes the blocks of R411 to flash, each under the partition of a session that refers to it. -/
def flushShard (c : Chip) : Chip :=
  (shardSessions c).foldl (fun c i => (flushBlocks (entry c i).part c (blockList c i)).2) c

/-- Ends the copying of a snapshot: the bounce space returns to the heap. -/
def dropCopies (c : Chip) : Chip :=
  let c1 := c.ckpt.bounced.foldl heapRelease c
  modCkpt c1 (fun k => { k with pending := [], bounced := [] })

/-- A free or a secure end of the time of a shard that is abandoned waits for two checkpoints more, not three (R412). -/
def uncountShard (c : Chip) : Chip :=
  { c with
    flash := { c.flash with heldFrees := c.flash.heldFrees.map (fun h => (h.1, min h.2 2)) }
    sess := { c.sess with bodies := c.sess.bodies.map (fun b => (b.1, { b.2 with ckptWait := min b.2.ckptWait 2 })) } }

/-- A shard is abandoned (R416, R417): its generation at the partner holds none. -/
def abandonShard (c : Chip) : Chip :=
  if c.ckpt.phase ≠ .stream then c
  else
    let c1 := setReg (uncountShard (dropCopies c)) (genReg c.ckpt.shardGen) (w32 noEpoch)
    let n := ckConn c1
    let k := conn c1 n
    let c2 := setConn c1 n { k with txWait := k.txWait.filter (fun w => w.2 ≠ .shardBody ∧ w.2 ≠ .shardHeader) }
    let c3 := modCkpt (forgetUse (forgetUse c2 n .shardBody) n .shardHeader) (fun k => { k with
      phase := .idle, shard := [], bodyAcked := false })
    raise (bump c3 aCKPT_FAIL_CNT 1) .ckpt 17

/-- Writes part of a shard at the partner. -/
def writeShard (c : Chip) (g off : Nat) (data : List Byte) (u : InitUse) : Chip :=
  remoteWrite c (ckConn c) (reg c aCKPT_NEXT_AREA_TAG) (g * ckGenBytes c + off) data u

/-- SNAPSHOT_POINT (R415-R417): every partition is at a step boundary; the figures are applied, the shard is taken
as it stands, and its header with COMPLETE 0 and its body are sent. -/
def snapshotPoint (c0 : Chip) : Chip :=
  match c0.ckpt.snapEpoch with
  | none => c0
  | some e =>
    if c0.ckpt.phase ≠ .snapshot ∨ parts8.any (fun p => (schedPart c0 p).step.isSome) then c0
    else
      let c := settle c0
      let bodyBytes := shardBody c (ckTailBf16 c)
      let refs := ((shardSessions c).map (refCount c)).sum
      let flags := 2 * b2n (ckTailBf16 c)
      let head := shardHeader c e (shardSessions c).length c.fig.seq refs flags bodyBytes
      let g := shardGen c
      let c1 := modCkpt c (fun k => { k with
        phase := .stream, snapEpoch := none, pending := pendingRegions c, bounced := [], shard := head ++ bodyBytes,
        shardEpoch := e, shardGen := g, shardFlags := flags, figHead := c.fig.seq, bodyAcked := false,
        flushing := if ckFlush c then some (unflushed c) else none })
      if ckGenBytes c1 < 128 + bodyBytes.length ∨ (conn c1 (ckConn c1)).state ≠ .open then abandonShard c1
      else
        let c2 := if c1.ckpt.flushing.isSome then flushShard c1 else c1
        let c3 := setReg c2 (genReg g) (w32 noEpoch)
        writeShard (writeShard c3 g 0 head .shardBody) g 128 bodyBytes .shardBody

/-- COPY_BEFORE_WRITE (R416): the region is copied to bounce space, or the shard is abandoned. -/
def copyBeforeWrite (c : Chip) (a : Nat) : Chip :=
  let g := a / 4096
  if c.ckpt.phase ≠ .stream ∨ g ∉ c.ckpt.pending then c
  else
    let c1 := bump c aCKPT_STALL_CNT 1
    if ckBounce c1 < (c1.ckpt.bounced.length + 1) * 4096 then abandonShard c1
    else
      match (if heapServes c1 0 then heapAlloc c1 0 4096 else none) with
      | none => abandonShard c1
      | some (b, c2) => modCkpt (putMem c2 b (memRead c2.mem (g * 4096) 4096)) (fun k => { k with
          pending := k.pending.filter (fun x => x ≠ g), bounced := k.bounced ++ [b] })

/-- The blocks that the shard refers to and that only GDDR7 held at its snapshot point are durable, as R411 asks. -/
def flushedNow (c : Chip) : Bool := (c.ckpt.flushing.getD []).all (fun k => decide ((ledger c k).state ≠ .resident))

/-- SHARD_BODY_ACKED (R411, R417): the header with COMPLETE 1. -/
def shardBodyAcked (c : Chip) : Chip :=
  if c.ckpt.phase ≠ .stream ∨ c.ckpt.bodyAcked ∨ useClosed c (ckConn c) .shardBody = false ∨
      (useNak c (ckConn c) .shardBody).isSome ∨ flushedNow c = false then c
  else
    let k := c.ckpt
    let flags := k.shardFlags + 1 + 4 * b2n k.flushing.isSome
    let bodyBytes := k.shard.drop 128
    let head := shardHeader c k.shardEpoch (rdLE k.shard 12 4) k.figHead (rdLE k.shard 0x28 4) flags bodyBytes
    let c1 := modCkpt (dropCopies c) (fun k => { k with bodyAcked := true, shard := head ++ bodyBytes })
    writeShard c1 k.shardGen 0 head .shardHeader

/-- A completed checkpoint counts for frees and secure ends that wait (R412). -/
def countCheckpoint (c : Chip) : Chip :=
  let held := c.flash.heldFrees.map (fun h => (h.1, h.2 - 1))
  let due := fun (h : Nat × Nat) => c.flash.scanned && decide (h.2 = 0)
  let c1 := { c with
    flash := { c.flash with heldFrees := held.filter (fun h => !due h) }
    sess := { c.sess with bodies := c.sess.bodies.map (fun b => (b.1, { b.2 with ckptWait := b.2.ckptWait - 1 })) } }
  (held.filter due).foldl (fun c h => dropObject c h.1) c1

/-- The CKPT_COMMIT figure of a generation. -/
def commitCkpt (epoch gen : Nat) (after : List After) : Figure :=
  { subjects := [.checkpoint], acts := [.ckptCommit (w32 epoch) gen], origin := .checkpoint, staged := 0,
    after := after }

/-- SHARD_COMMITTED (R417). -/
def shardCommitted (c : Chip) : Chip :=
  if c.ckpt.phase ≠ .stream ∨ c.ckpt.bodyAcked = false ∨ useClosed c (ckConn c) .shardHeader = false ∨
      (useNak c (ckConn c) .shardHeader).isSome then c
  else
    let k := c.ckpt
    let c1 := setFld c aCKPT_STATUS 31 16 (k.shard.length / 2 ^ 20)
    let c2 := modCkpt c1 (fun k => { k with phase := .idle, shard := [], bodyAcked := false })
    countCheckpoint (settle (openFig c2 (commitCkpt k.shardEpoch k.shardGen [.intEvent .ckpt 16])))

/-! ### Restore (R418-R420) -/

/-- A generation's bytes hold a complete shard whose checks pass. -/
def shardOk (l : List Byte) : Bool :=
  let len := rdLE l 0x18 8
  decide (128 ≤ len ∧ len ≤ l.length) && decide (rdLE l 0 2 = 0x4353) && nbit (rdLE l 3 1) 0 &&
    decide (rdLE l 0x7C 4 = crc32c (l.take 0x7C)) &&
    decide (rdLE l 0x30 8 = crc64 (slice l 128 (len - 128)))

/-- EPOCH of a shard. -/
def shardEpochOf (l : List Byte) : Nat := rdLE l 4 4

/-- Epochs that this member offers. -/
def ownEpochs (c : Chip) : List Nat := c.ckpt.offered.map (fun o => shardEpochOf o.2)

/-- A candidate word: noEpoch for none. -/
def candWord (l : List Nat) (k : Nat) : Word := w32 (l.getD k noEpoch)

/-- Candidates of a query. -/
def candsOf (m : Mark) : List Nat := [m.cand0.toNat, m.cand1.toNat].filter (fun e => e ≠ noEpoch)

/-- A restore ends with a code (R420, R424). -/
def endRestore (c : Chip) (st : Nat) : Chip :=
  let c1 := setFld (modCkpt c (fun k => { k with phase := .idle, offered := [], chosen := none }))
    aCKPT_RESTORE_CTRL 15 8 st
  let c2 := if st = stMixed then raise c1 .ckpt 21 else c1
  raise c2 .ckpt 20

/-- A set member acts on RESTORE_GO. -/
def goRestore (c : Chip) (m : Mark) : Chip :=
  if c.ckpt.phase ≠ .restore ∨ ckInSet c = false then c
  else if m.flags.getLsbD 0 ∨ m.epoch.toNat ∉ ownEpochs c then endRestore c stMixed
  else modCkpt c (fun k => { k with chosen := some m.epoch.toNat })

/-- The conditions of RESTORE_CTRL.START (R418). A leader outside the set only starts the query (R419; log entry
60). -/
def restoreRefusal (c : Chip) : Nat :=
  let idle := fun (p : Page) => decide (bstate c p = .off ∨ bstate c p = .disabled)
  if !(isOn c .flash && idle .sess && idle .fig && idle .tier && idle .sched && idle .cut) ∨
      (conn c (ckConn c)).state ≠ .open ∨ isOn c .ckpt = false ∨ c.ckpt.phase ≠ .idle then rejBusy
  else if ckInSet c = false ∧ ckLeader c = false then rejState
  else stOK

/-- The restore begins: the generations read from the partner are offered when they pass; the leader sends the query. -/
def restoreStart (c : Chip) (gen0 gen1 : List Byte) : Chip :=
  let offer := ([(0, gen0), (1, gen1)] : List (Nat × List Byte)).filter (fun o => shardOk o.2)
  let c1 := if ckInSet c then modCkpt c (fun k => { k with phase := .restore, offered := offer, chosen := none })
    else c
  if ckLeader c1 = false then c1
  else
    let c2 := newRound c1 3
    let m := ownMark c2 3 0
    let own := ownEpochs c2
    sendMark c2 (if ckInSet c2 then { m with cand0 := candWord own 0, cand1 := candWord own 1 }
      else { m with flags := 2 })

/-- MARK_RESTORE_QUERY_RX. -/
def restoreQueryRx (c : Chip) (m : Mark) : Chip :=
  onMark c m 3 (fun c =>
    if returned c m 3 then
      let l := candsOf m
      let none_ := l.isEmpty || m.flags.getLsbD 1
      let c1 := modCkpt c (fun k => { k with outstanding := some 4 })
      let g := ownMark c1 4 (l.foldl max 0)
      let go := if none_ then { g with flags := 1, epoch := w32 noEpoch } else g
      goRestore (sendMark c1 go) go
    else if ckLeader c then c
    else if ckInSet c then
      let own := if c.ckpt.phase = .restore then ownEpochs c else []
      let l := if m.flags.getLsbD 1 then own else (candsOf m).filter (fun e => e ∈ own)
      sendMark c (passed { m with flags := m.flags &&& 0xFD, cand0 := candWord l 0, cand1 := candWord l 1 })
    else sendMark c (passed m))

/-- MARK_RESTORE_GO_RX. -/
def restoreGoRx (c : Chip) (m : Mark) : Chip :=
  onMark c m 4 (fun c =>
    if returned c m 4 then modCkpt c (fun k => { k with outstanding := none })
    else if ckLeader c then c
    else goRestore (sendMark c (passed m)) m)

/-! The rebuild -/

/-- A directory entry from its 128 B (R40). -/
def entryOf (l : List Byte) : Session :=
  let f := rdLE l 5 1
  { part := rdLE l 0 4 / 2 ^ 29, gen := rdLE l 0 4 % 128
    state := stateOf (rdLE l 4 1)
    dense := nbit f 0, stopInclude := nbit f 1, shared := nbit f 2, tailDecoded := nbit f 3
    priority := rdLE l 6 1, model := rdLE l 7 1, length := rdLE l 8 4, maxLen := rdLE l 12 4, epoch := rdLE l 0x10 4
    client := rdLE l 0x14 2, grammar := rdLE l 0x16 2, blockTable := rdLE l 0x18 8, tailBase := rdLE l 0x20 8
    smallState := rdLE l 0x28 8, exclTable := rdLE l 0x30 8, figSeq := rdLE l 0x38 8
    prngKey := w64 (rdLE l 0x40 8), prngCtr := w64 (rdLE l 0x48 8), resident := rdLE l 0x50 4
    flashBlocks := rdLE l 0x54 4, parent := w32 (rdLE l 0x58 4), stamp := w32 (rdLE l 0x5C 4)
    excluded := rdLE l 0x60 4, stopCount := rdLE l 0x64 1, exclCount := rdLE l 0x65 1, crcFlip := 0 }

/-- The records of a shard, with fuel: each names its own length. -/
def recordsFrom (l : List Byte) : Nat → List (List Byte)
  | 0 => []
  | n + 1 =>
    let len := rdLE l 0 4
    if len < 144 then [] else l.take len :: recordsFrom (l.drop len) n

/-- The session records of a shard. -/
def shardRecords (l : List Byte) : List (List Byte) := recordsFrom (l.drop (rdLE l 0x20 8)) (rdLE l 0x0C 4)

/-- Index that a record's entry names. -/
def recIdx (r : List Byte) : Nat := hIdx (w32 (rdLE r 16 4))

/-- The sealed block that a reference names: its object in flash (R410). -/
def refObject (c : Chip) (ref : List Byte) (group layer : Nat) : Option Nat :=
  ((c.flash.objects.find? (fun o => decide (o.2.kind = 1 ∧ o.2.seq = rdLE ref 0 8 ∧
    o.2.owner.toNat / 2 ^ 32 % 2 ^ 15 = group % 2 ^ 15 ∧ o.2.owner.toNat / 2 ^ 56 = layer ∧
    rdLE o.2.data 0x20 8 = rdLE ref 8 8)))).map (·.1)

/-- The ledger entry of a flash object, made when no reference before it named the object (R420 step 3). -/
def ledgerFor (c : Chip) (addr : Nat) : Option (Nat × Chip) :=
  match blocksAt c addr with
  | k :: _ => some (k, setLedger c k { ledger c k with ref := (ledger c k).ref + 1 })
  | [] =>
    let (v, c1) := takeFree c
    match pickLedger c1 v with
    | none => none
    | some k => some (k, noteLedger (ledgerFree c1) (setLedger c1 k { ledgerReset with
        size := ((flashObj c1 addr).map (·.len)).getD 0, flash := some addr, ref := 1, state := .flash }))

/-- Resolves the references of a record: the block table, and whether every one has its match. -/
def takeRefs (c : Chip) (r : List Byte) (layers : Nat) : Tbl Nat × Bool × Chip :=
  (List.range (rdLE r 4 4)).foldl (fun (a : Tbl Nat × Bool × Chip) k =>
    let ref := slice r (144 + 16 * k) 16
    if ref.all (fun b => b = 0) then a
    else
      match (refObject a.2.2 ref (k / max 1 layers) (k % max 1 layers)).bind (ledgerFor a.2.2) with
      | some (b, c1) => (tins a.1 k b, a.2.1, c1)
      | none => (a.1, false, a.2.2)) ([], true, c)

/-- Used count slots at the start of a section: a used slot has its bit set, a stack entry has not. -/
def usedSlots : Nat → List Byte → List CountSlot
  | 0, _ => []
  | n + 1, l => if nbit (rdLE l 0 8) 58 then countSlotOf (l.take 8) :: usedSlots n (l.drop 8) else []

/-- The depth of a recorded stack: the section does not say where its padding begins when state 0 stands on top, so
the depth there is open (log entry 61). -/
def stackDepth (l : List Byte) (v : Nat) : Nat :=
  let w := wordsOf l
  if w.isEmpty then 0
  else
    let lo := max (w.length - 15) (w.length - (w.reverse.takeWhile (fun x => x = 0)).length)
    lo + v % (w.length - lo + 1)

/-- Tails, recurrent state, small state and exclusions of a record, placed in the heap (R420 step 4): the entry, the
body, and whether the heap could supply them. -/
def placeRecord (c : Chip) (e : Session) (r : List Byte) (bf16 : Bool) : Option (Session × Body × Chip) :=
  match heapAllocs c e.part [tailSetBytes c e.model, smallBytes, exclBytes] with
  | none => none
  | some (addrs, c1) =>
    let base := addrs.getD 0 0
    let o := 144 + 16 * rdLE r 4 4
    let n := e.length % 128
    let t := (shapes c e.model).foldl (fun (a : Nat × Chip) s =>
      let len := coldTailLen e.dense bf16 s n
      let l := slice r a.1 len
      let rows := if bf16 then (List.range n).map (fun p => slice l (p * rowBytes s) (rowBytes s))
        else decodeRows e.dense (smoothing c e.model) s n l
      (a.1 + len, putTailRows a.2 base e.model s rows)) (o, c1)
    let recur := o + roundUp (t.1 - o) 64
    let rb := (recurSizes c e.model).sum
    let c2 := putMem t.2 (recurAddr t.2 base e.model) (slice r recur rb)
    let counts := recur + roundUp rb 64
    let slots := usedSlots (r.length / 8) (r.drop counts)
    let stack := counts + roundUp (8 * slots.length) 64
    let tail := r.length - 704
    let area := slice r tail 576
    let (v, c3) := takeFree c2
    let st := slice r stack (tail - stack)
    let b : Body := { bodyReset with
      counts := countsOf slots, gram := (wordsOf st).take (stackDepth st v), hist := area.take 64,
      stops := stopsFrom area e.stopCount, excl := exclOf (slice r (tail + 576) 128) e.exclCount }
    some ({ e with tailBase := base, smallState := addrs.getD 1 0, exclTable := addrs.getD 2 0,
                   tailDecoded := e.tailDecoded || (!bf16 && n ≠ 0) }, b, c3)

/-- The state that a recorded session takes (R420), with its EPOCH. -/
def restoredState (e : Session) : Session :=
  match e.state with
  | .ready => { e with state := .sitout }
  | .running => { e with state := .sitout }
  | .handoffOut => { e with state := .sitout, epoch := e.epoch + 2 }
  | .ended => { freeEntry with part := e.part, gen := nextGen e.gen }
  | .free => e
  | .sitout => e
  | .cold => e
  | .damaged => e
  | .handoffIn => e
  | .held => e

/-- A COLD image of a handle with a SEQ. -/
def imageObject (c : Chip) (h seq : Nat) : Option Nat :=
  ((c.flash.objects.find? (fun o => decide (o.2.kind = 2 ∧ o.2.owner.toNat % 2 ^ 32 = h ∧ o.2.seq = seq)))).map (·.1)

/-- Restores one session record (R420 steps 3 to 5). What the shard does not say of a READY session of a later epoch,
whether it was unsettled, is a free value (log entry 62). A slot without a valid layer table, or a heap that cannot
supply the session, makes it DAMAGED (log entry 63). -/
def restoreRecord (bf16 : Bool) (c : Chip) (r : List Byte) : Chip :=
  let i := recIdx r
  let e0 := entryOf (slice r 16 128)
  if e0.state = .ended then setEntry c i (restoredState e0)
  else
    let (v, c0) := takeFree c
    let (blocks, whole, c1) := takeRefs c0 r (attnLayers c0 e0.model)
    let e1 := { restoredState e0 with tailBase := 0, smallState := 0, exclTable := 0, resident := 0,
                                      flashBlocks := blocks.length }
    let hurt := fun (c : Chip) => setBody (setEntry c i { e1 with state := .damaged }) i { bodyReset with blocks := blocks }
    if e0.state = .damaged ∨ whole = false ∨ modelValid c1 e0.model = false then hurt c1
    else if e0.state = .cold then
      match imageObject c1 (rdLE r 16 4) (rdLE r 8 8) with
      | some a => setBody (setEntry c1 i e1) i { bodyReset with blocks := blocks, image := some a }
      | none => hurt c1
    else if e0.state = .handoffIn then setBody (setEntry c1 i e1) i { bodyReset with blocks := blocks }
    else
      match placeRecord c1 e1 r bf16 with
      | none => hurt c1
      | some (e2, b, c2) =>
        setBody (setEntry c2 i e2) i { b with
          blocks := blocks, unsettled := decide (e0.state = .ready ∧ 0 < e0.epoch) && v % 2 = 1 }

/-- Every entry FREE and every registration FREE at its recorded generation (R420 step 2). CKPT's own registrations
stand (log entry 64). -/
def freshDirectory (c : Chip) (l : List Byte) : Chip :=
  let own := [c.ckpt.areaRegion, c.ckpt.markRegion].filterMap id
  let gens := (numbered (slice l 128 4194304)).filter (fun g => g.2.toNat % 128 ≠ freeEntry.gen)
  let regs := (numbered (slice l (128 + 4194304) 65536)).filter (fun g => g.1 ∉ own)
  let markAt := (c.ckpt.markRegion.map (fun i => (region c i).base)).toList
  { c with
    sess := { c.sess with
      entries := gens.map (fun g => (g.1, { freeEntry with gen := g.2.toNat % 128 }))
      bodies := [], ops := [], fresh := [], freed := [], cached := [], inited := true, lossDone := false }
    tier := { c.tier with ledger := [], revivals := [], heap := c.tier.heap.filter (fun h => h.1 ∈ markAt) }
    cuts := []
    xpt := { c.xpt with
      regions := (c.xpt.regions.filter (fun r => r.1 ∈ own)) ++
        (regs.map (fun g => (g.1, { regionReset with gen := if g.2.toNat = 255 then 1 else g.2.toNat + 1 }))).filter
          (fun x => decide (x.2 ≠ regionReset))
      freshRegion := 0, freedRegions := [], accs := [], heldReqs := [] } }

/-- Objects of sealed blocks and COLD images that no restored session refers to are freed (R420 step 6). -/
def dropUnwanted (c : Chip) : Chip :=
  (c.flash.objects.filter (fun o => (o.2.kind = 1 || o.2.kind = 2) && (blocksAt c o.1).isEmpty &&
    (imagesAt c o.1).isEmpty)).foldl (fun c o => dropObject c o.1) c

/-- The rebuild of a member at an epoch (R420). FIG's SEQ is then that of the CKPT_COMMIT of step 7, the first figure after
the two bounds of step 2. -/
def rebuild (c : Chip) (e : Nat) (l : List Byte) : Chip :=
  let top := (c.flash.objects.map (fun o => o.2.seq)).foldl max 0
  let seq := max (rdLE l 0x10 8 + 1) (top + 1)
  let c1 := freshDirectory c l
  let c2 := { c1 with
    fig := { c1.fig with waiting := [], committed := [], seq := seq, applied := seq, staged := 0, reserved := 0,
                         logUsed := 0, logHead := 0, logTail := 0 }
    flash := { c1.flash with heldFrees := [] } }
  let c3 := (shardRecords l).foldl (restoreRecord (nbit (rdLE l 3 1) 1)) c2
  let c3 := { c3 with xpt := { c3.xpt with regions := sortBy (·.1) c3.xpt.regions } }
  let c4 := dropUnwanted c3
  let g := ((c.ckpt.offered.find? (fun o => shardEpochOf o.2 = e)).map (·.1)).getD 0
  let other := ((c.ckpt.offered.find? (fun o => o.1 ≠ g)).map (fun o => shardEpochOf o.2)).getD noEpoch
  let c5 := setReg (setReg c4 (genReg g) (w32 e)) (genReg (1 - g)) (w32 other)
  let c6 := setReg (setReg c5 aCKPT_LAST_EPOCH (w32 e)) aCKPT_RESTORE_EPOCH (w32 e)
  let hurt := (c6.sess.entries.filter (fun x => decide (x.2.state = .damaged))).length
  let c7 := endRestore (setReg c6 aCKPT_RESTORE_DAMAGED (w32 hurt)) stOK
  if c7.sess.entries.any (fun x => decide (x.2.state = .held)) then raise c7 .ckpt 22 else c7

/-- RESTORE_REBUILD_DONE: the shard of the chosen epoch, read again; none where the read failed. -/
def restoreRebuild (c : Chip) (shard : Option (List Byte)) : Chip :=
  match c.ckpt.phase, c.ckpt.chosen with
  | .restore, some e =>
    match shard with
    | none => endRestore c stTierFault
    | some l => if shardOk l ∧ shardEpochOf l = e then rebuild c e l else endRestore c stTierFault
  | _, _ => c

/-- CUT_RESOLVE (R421): the status of the action on the HELD session named by CUT_HANDLE; 1 RECLAIM, 2 DROP. -/
def cutResolveHeld (c0 : Chip) (action : Nat) : Nat × Chip :=
  let c := settle c0
  match sessionAt c (reg c aCKPT_CUT_HANDLE) with
  | none => (rejState, setFld c aCKPT_CUT_RESOLVE 15 8 rejState)
  | some i =>
    let e := entry c i
    if e.state ≠ .held ∨ (srcCut c i).isSome then (rejState, setFld c aCKPT_CUT_RESOLVE 15 8 rejState)
    else if isOn c .fig = false ∨ c.flt.chipPending then (rejBusy, setFld c aCKPT_CUT_RESOLVE 15 8 rejBusy)
    else
      let new := if action = 1 then { e with state := .sitout, epoch := e.epoch + 2 } else { e with state := .free }
      let c1 := openFig c (sessFig c i new (if action = 1 then [.epochSet (e.epoch + 2)] else []) [])
      (stOK, kick (settle (setFld c1 aCKPT_CUT_RESOLVE 15 8 stOK)))

/-- A write of NEXT_AREA_TAG (R408). -/
def forgetGens (c : Chip) : Chip :=
  setReg (setReg c aCKPT_GEN0_EPOCH (w32 noEpoch)) aCKPT_GEN1_EPOCH (w32 noEpoch)

/-- CKPT's drain timeout (R425): a shard whose snapshot point has not come is abandoned with nothing at the partner. -/
def ckptDrainTimeout (c : Chip) : Chip :=
  if c.ckpt.phase = .snapshot then
    raise (bump (modCkpt c (fun k => { k with phase := .idle, snapEpoch := none })) aCKPT_FAIL_CNT 1) .ckpt 17
  else abandonShard c

/-- SOFT_RESET of CKPT, or the loss of GDDR7: its registrations end and nothing is in progress (R408). -/
def ckptReset (c : Chip) : Chip :=
  let c1 := endOwn (endOwn (dropCopies c) c.ckpt.areaRegion false) c.ckpt.markRegion true
  modCkpt c1 (fun k => { k with
    phase := .idle, round := 0, topRound := 0, outstanding := none, snapEpoch := none, shard := [], bodyAcked := false,
    areaRegion := none, markRegion := none, stepsSince := 0, offered := [], chosen := none })

/-! ### Commands -/

/-- CKPT_TIMER_EXPIRY. -/
def execCkptTimerExpiry (s : State) : Host.Outcome State Fault Refusal := act s (fun c => whenAwake c ckptTimer)
/-- CKPT_STEPS_REACHED. -/
def execCkptStepsReached (s : State) : Host.Outcome State Fault Refusal := act s (fun c => whenAwake c ckptSteps)
/-- MARK_PREPARE_RX. -/
def execMarkPrepareRx (m : Mark) (s : State) : Host.Outcome State Fault Refusal :=
  act s (fun c => whenAwake c (fun c => prepareRx c m))
/-- MARK_SNAP_RX. -/
def execMarkSnapRx (m : Mark) (s : State) : Host.Outcome State Fault Refusal :=
  act s (fun c => whenAwake c (fun c => snapRx c m))
/-- MARK_RESTORE_QUERY_RX. -/
def execMarkRestoreQueryRx (m : Mark) (s : State) : Host.Outcome State Fault Refusal :=
  act s (fun c => whenAwake c (fun c => restoreQueryRx c m))
/-- MARK_RESTORE_GO_RX. -/
def execMarkRestoreGoRx (m : Mark) (s : State) : Host.Outcome State Fault Refusal :=
  act s (fun c => whenAwake c (fun c => restoreGoRx c m))
/-- MARK_TIMEOUT. -/
def execMarkTimeout (s : State) : Host.Outcome State Fault Refusal := act s (fun c => whenAwake c markTimeout)
/-- SNAPSHOT_POINT. -/
def execSnapshotPoint (s : State) : Host.Outcome State Fault Refusal := act s (fun c => whenAwake c snapshotPoint)
/-- COPY_BEFORE_WRITE. -/
def execCopyBeforeWrite (addr : BitVec 38) (s : State) : Host.Outcome State Fault Refusal :=
  act s (fun c => whenAwake c (fun c => copyBeforeWrite c addr.toNat))
/-- SHARD_BODY_ACKED. -/
def execShardBodyAcked (s : State) : Host.Outcome State Fault Refusal := act s (fun c => whenAwake c shardBodyAcked)
/-- SHARD_COMMITTED. -/
def execShardCommitted (s : State) : Host.Outcome State Fault Refusal := act s (fun c => whenAwake c shardCommitted)
/-- RESTORE_REBUILD_DONE. -/
def execRestoreRebuildDone (shard : Option (List Byte)) (s : State) : Host.Outcome State Fault Refusal :=
  act s (fun c => whenAwake c (fun c => restoreRebuild c shard))

end Sys2Proof.Machine
end

