-- ==== Sys2Proof/Machine/Power.lean ====
section
/-! DEFINITION. PWR (R426-R446): measurement and the fast limit, the class table, exploration and decisions of the
learning controller, marking, and thermal protection with the trip. The values that the manual leaves to the
measurement or the controller are free (log entry 65). -/

namespace Sys2Proof.Machine

/-- Changes the power state. -/
def modPwr (c : Chip) (f : PwrUnit → PwrUnit) : Chip := { c with pwr := f c.pwr }

/-- A command of the minuet domain acts while that domain is powered. -/
def whenMinuet (c : Chip) (f : Chip → Chip) : Chip := if minuetOn c then f c else c

/-- A value held between two bounds. -/
def between (lo hi v : Nat) : Nat := max lo (min hi v)

/-! ### Measurement and the fast limit (R427, R430) -/

/-- Adds the energy of a 10 us sample: 0.1 W for 10 us is 1 uJ. -/
def addEnergy (c : Chip) (dw : Nat) : Chip :=
  let e := c.pwr.energyUj + dw
  modPwr (bumpPair c aPWR_ENERGY_LO (e / 1000)) (fun p => { p with energyUj := e % 1000 })

/-- The rails: the core-rail current as sampled, every other value as measured, which is free. -/
def sampleRails (c : Chip) (da : Nat) : Chip :=
  [0, 1, 2, 3, 4, 5].foldl (fun c r =>
    let (v, c1) := takeFree c
    let w := w32 v
    setRegB c1 r aPWR_RAIL_PWR (if r = 0 then putFld w 31 16 da else w)) c

/-- A step of some partition waits for pacing (R436). -/
def pacedNow (c : Chip) : Bool :=
  parts8.any (fun p => match (schedPart c p).step with
    | some st => st.paced
    | none => false)

/-- The fast limit (R430): the two conditions, the release below 95% of both, and LIMIT.FAST and LIMIT.ICC while
each acts. -/
def fastLimit (c : Chip) (avg da : Nat) : Chip :=
  let w := reg c aPWR_FAST
  let pl := 10 * fld w 10 0
  let il := 10 * fld w 25 16
  let hot := decide (pl < avg)
  let icc := decide (il < da)
  let l := reg c aPWR_LIMIT
  let mark := fun (c : Chip) =>
    setFld (setFld c aPWR_LIMIT 1 1 (b2n (hot || bit l 1))) aPWR_LIMIT 2 2 (b2n (icc || bit l 2))
  if c.pwr.halved then
    if avg * 100 < 95 * pl ∧ da * 100 < 95 * il then
      modPwr (setFld c aPWR_LIMIT 2 1 0) (fun p => { p with halved := false })
    else mark c
  else if hot || icc then
    raise (bump (modPwr (mark c) (fun p => { p with halved := true })) aPWR_FAST_CNT 1) .pwr 17
  else c

/-- POWER_SAMPLE: input power, energy, rails, and the fast limit. What pacing gaps draw is learned from them; how is
not stated. -/
def samplePower (c : Chip) (dw avg da : Nat) : Chip :=
  let c1 := sampleRails (addEnergy (setFld c aPWR_PWR_NOW 15 0 avg) dw) da
  let c2 := if pacedNow c1 then
      let (v, c2) := takeFree c1
      modPwr c2 (fun p => { p with gapPower := v })
    else c1
  fastLimit c2 avg da

/-- POWER_SAMPLE. -/
def execPowerSample (dw avg da : BitVec 16) (s : State) : Host.Outcome State Fault Refusal :=
  act s (fun c => whenMinuet c (fun c => samplePower c dw.toNat avg.toNat da.toNat))

/-! ### The class table (R434) -/

/-- CTRL.LEARN. -/
def learnOn (c : Chip) : Bool := bit (reg c aPWR_CTRL) 0

/-- Energy and time of a class at a point; 0 is unknown. -/
def classAt (c : Chip) (cls point : Nat) : Nat × Nat := tget (0, 0) c.pwr.classes (cls * 16 + point)

/-- CLASS_DATA as CLASS_SEL selects it. -/
def classData (c : Chip) : Word :=
  let w := reg c aPWR_CLASS_SEL
  let e := classAt c (fld w 2 0) (fld w 11 8)
  w32 (e.1 * 65536 + e.2)

/-- One average of weight 1/16: how it rounds, what the first sample of an unknown entry gives, and what does not
fit the 16 bits of the table, are not stated: `v` decides. -/
def learnAvg (old s v : Nat) : Nat :=
  let n := 15 * old + s
  let r := if n % 16 = 0 then n / 16 else n / 16 + v % 2
  if old = 0 ∨ 65535 < r then v % 65536 else r

/-- One sample of a class at a point. -/
def learnOne (c : Chip) (x : LearnSample) : Chip :=
  let e := classAt c x.cls.toNat x.point.toNat
  let (v, c1) := takeFree c
  let (w, c2) := takeFree c1
  modPwr c2 (fun p => { p with
    classes := tset (0, 0) p.classes (x.cls.toNat * 16 + x.point.toNat) (learnAvg e.1 x.nj v, learnAvg e.2 x.ns w) })

/-- PWR_LEARN. -/
def execPwrLearn (samples : List LearnSample) (s : State) : Host.Outcome State Fault Refusal :=
  act s (fun c => whenMinuet c (fun c => if learnOn c then samples.foldl learnOne c else c))

/-- PWR_EXPLORE: one engine runs a point above or below its choice for 64 steps. -/
def explore (c : Chip) (p : Nat) (k : EngineKind) (up : Bool) : Chip :=
  let key := p * 2 + engineIdx k
  let rows := engineRows c p k
  match rows with
  | [] => c
  | y :: _ =>
    let base := rowPoint c y
    if learnOn c = false ∨ reg c aPWR_EXPLORE = 0 ∨ c.pwr.throttled ∨ (tfind c.pwr.exploring key).isSome ∨
        (up ∧ base = 15) ∨ (!up ∧ base = 0) then c
    else
      modPwr (setRowPoints c rows (if up then base + 1 else base - 1))
        (fun x => { x with exploring := tins x.exploring key (base, 64) })

/-- PWR_EXPLORE. -/
def execPwrExplore (part : Part) (engine : EngineKind) (up : Bool) (s : State) : Host.Outcome State Fault Refusal :=
  act s (fun c => whenMinuet c (fun c => explore c part.toNat engine up))

/-! ### Decisions (R435-R437) -/

/-- CAP.WATTS in force (R446). -/
def capWatts (c : Chip) : Nat := between 300 780 (fld (reg c aPWR_CAP) 9 0)

/-- DECIDE.EFF_TOL in 0.1%. -/
def effTol (c : Chip) : Nat := fld (reg c aPWR_DECIDE) 7 0

/-- CTRL.PACE_EN. -/
def paceEn (c : Chip) : Bool := bit (reg c aPWR_CTRL) 8

/-- Time of an engine at a point: the nominal cycles of each class by its learned time; none where an entry that it
needs is unknown. `cy` gives the cycles of the eight classes in thousands. -/
def engineTime (c : Chip) (cy : List Nat) (point : Nat) : Option Nat :=
  (numbered (cy.take 8)).foldl (fun a x =>
    let t := (classAt c x.1 point).2
    if x.2 = 0 then a
    else if t = 0 then none
    else a.map (fun n => n + x.2 * t)) (some 0)

/-- Time of an engine at a point of a pair; where an entry is unknown the engine uses point 15 (R435). -/
def pairTime (c : Chip) (cy : List Nat) (point : Nat) : Nat :=
  (engineTime c cy point).getD ((engineTime c cy 15).getD 1)

/-- The point at which an engine runs in a pair. -/
def pairPoint (c : Chip) (cy : List Nat) (point : Nat) : Nat := if (engineTime c cy point).isSome then point else 15

/-- One pair of points: its running share in 1/65,536, its rate and its power. -/
structure PwrPair where
  chunk : Nat
  decode : Nat
  x : Nat
  rate : Nat
  power : Nat
  deriving DecidableEq, Repr

/-- The running share of R435 in 1/65,536. Without PACE_EN a pair above the target does not run. -/
def paceShare (c : Chip) (target power : Nat) : Nat :=
  if power ≤ target then 65536
  else if paceEn c = false ∨ target ≤ c.pwr.gapPower then 0
  else (target - c.pwr.gapPower) * 65536 / (power - c.pwr.gapPower)

/-- The pairs that R435 compares: all 256, or FIXED_POINT alone without LEARN. The manual gives no formula for the
predicted power: each is a free value. -/
def pairsOf (c : Chip) (target : Nat) (dec chk : List Nat) : List PwrPair :=
  let all := if learnOn c then List.range 256
    else
      let f := fld (reg c aPWR_CTRL) 15 12
      [f * 16 + f]
  all.map (fun k =>
    let s := max 1 (max (pairTime c chk (k / 16)) (pairTime c dec (k % 16)))
    let p := (Config.free (c.free + k)).toNat
    let x := paceShare c target p
    let pc := if learnOn c then pairPoint c chk (k / 16) else k / 16
    let pd := if learnOn c then pairPoint c dec (k % 16) else k % 16
    { chunk := pc, decode := pd, x := x, rate := x * 2 ^ 48 / s, power := p })

/-- The pair of least power among those within EFF_TOL of the best rate. -/
def choosePair (tol : Nat) (l : List PwrPair) : Option PwrPair :=
  let best := (l.map (·.rate)).foldl max 0
  (l.filter (fun a => best * (1000 - tol) ≤ a.rate * 1000)).foldl (fun m a =>
    match m with
    | none => some a
    | some b => if a.power < b.power then some a else some b) none

/-- Sets the points of an engine; while it explores, its offset from the choice is kept. -/
def setChoice (c : Chip) (p : Nat) (k : EngineKind) (v : Nat) : Chip :=
  let rows := engineRows c p k
  let key := p * 2 + engineIdx k
  match tfind c.pwr.exploring key, rows with
  | some (base, left), y :: _ =>
    let cur := rowPoint c y
    let c1 := modPwr c (fun x => { x with exploring := tins x.exploring key (v, left) })
    setRowPoints c1 rows (min 15 (v + cur - base))
  | _, _ => setRowPoints c rows v

/-- One decision for one partition: the target it may use, and what it leaves of it. `cy` gives, for each class, the
thousands of nominal cycles of the decode and of the chunk engine. -/
def decideOne (c : Chip) (p target : Nat) (cy : List (Nat × Nat)) : Nat × Chip :=
  let mine := (cy.drop (8 * p)).take 8
  let l := pairsOf c target (mine.map (·.1)) (mine.map (·.2))
  let c1 := { c with free := c.free + 256 }
  match choosePair (effTol c) l with
  | none => (target, c1)
  | some b =>
    let c2 := setChoice (setChoice c1 p .decode b.decode) p .chunk b.chunk
    let c3 := modPwr c2 (fun x => { x with paceX := tset 65536 x.paceX p (if paceEn c then b.x else 65536) })
    let c4 := if l.any (fun a => decide (a.x < 65536)) then setFld c3 aPWR_LIMIT 0 0 1 else c3
    let short := decide (target < b.power) && (paceEn c = false || target < c.pwr.gapPower)
    let c5 := if short then raise (setFld c4 aPWR_LIMIT 4 4 1) .pwr 16 else c4
    (target - b.power, c5)

/-- PWR_DECIDE: every partition in order, with the part of the budget that earlier ones leave (R437). `ratio` is
measured over predicted power in 1/65,536. -/
def decidePower (c : Chip) (ratio : Nat) (cy : List (Nat × Nat)) (avg : Nat) : Chip :=
  let c0 := setFld c aPWR_PWR_AVG 15 0 avg
  let (v, c1) := takeFree c0
  let c2 := setFld c1 aPWR_PACE 23 16 (v % 101)
  if c2.pwr.throttled then c2
  else
    let total := capWatts c2 * 9950 / 1000 * 65536 / max 1 ratio
    let held := parts8.filter (fun p => !(rowsOf c2 p).isEmpty)
    let rows := (held.map (fun p => (rowsOf c2 p).length)).sum
    let c3 := setFld (setFld c2 aPWR_LIMIT 0 0 0) aPWR_LIMIT 4 4 0
    (held.foldl (fun (a : Nat × Chip) p =>
      decideOne a.2 p (total * (rowsOf a.2 p).length / max 1 rows + a.1) cy) (0, c3)).2

/-- PWR_DECIDE. -/
def execPwrDecide (ratio : Nat) (cycles : List (Nat × Nat)) (avg : BitVec 16) (s : State) :
    Host.Outcome State Fault Refusal :=
  act s (fun c => whenMinuet c (fun c => decidePower c ratio cycles avg.toNat))

/-- PACING_RELEASE (R436): the step that pacing held back is released. -/
def pacingRelease (c : Chip) (p : Nat) : Chip :=
  match (schedPart c p).step with
  | none => c
  | some st =>
    if st.paced = false ∨ c.flt.chipPending then c
    else placeWaiting (setSched c p { schedPart c p with step := some { st with paced := false } }) p

/-- PACING_RELEASE. -/
def execPacingRelease (part : Part) (s : State) : Host.Outcome State Fault Refusal :=
  act s (fun c => whenAwake c (fun c => pacingRelease c part.toNat))

/-! ### Marking (R438-R440) -/

/-- Some core of a row waits at a barrier in the sense of R438. -/
def rowWaits (c : Chip) (y : Nat) : Bool :=
  let wait := fun (k : Core) => match k.wait with
    | some (.bar _) => true
    | _ => false
  let done := fun (k : Core) => k.halted && decide (k.state = .busy)
  let held := parts8.any (fun p => y ∈ rowsOf c p &&
    (match (schedPart c p).step with
     | some st => st.waitPeer || st.engines.any (fun e => !e.ended && e.cores.any (fun n =>
         n / 16 = y && decide ((coreAt c n).state = .free)))
     | none => decide (c.ckpt.phase = .snapshot) && !(eligible c p).isEmpty))
  (List.range 16).any (fun x => wait (coreAt c (y * 16 + x)) || done (coreAt c (y * 16 + x))) || held

/-- The bound that PWR keeps a row's estimate at, in mA: the greater of the floor and of the slewed fall. `t` counts
0.1 us. After the hold the floor no longer applies. -/
def markBound (c : Chip) (y i0 t : Nat) : Nat :=
  let w := reg c aPWR_MARK
  let slew := max 1 (fld w 31 16) * 25 * t / 4
  let floor := if y ∈ c.pwr.markDone then 0 else min 100 (fld w 6 0) * i0 / 100
  max floor (i0 - slew)

/-- The fill of a row for one estimate: after the hold it falls at the slew; what FRACTION of the MAC slots can give is
not stated: `v` decides. -/
def markFill (c : Chip) (y est i0 t v : Nat) : Nat × Bool :=
  let fall := tget 0 c.pwr.marking y - max 1 (fld (reg c aPWR_MARK) 31 16) * 25 / 4
  let need := if y ∈ c.pwr.markDone then min fall i0 else markBound c y i0 t - est
  if v < need then (v, true) else (need, false)

/-- Adds marking energy: a fill in mA at the row's voltage in mV for 0.1 us, in units of 10^-13 J. -/
def markEnergy (c : Chip) (y fill : Nat) : Chip :=
  let e := c.pwr.markRem + fill * (550 + 20 * rowPoint c y)
  modPwr (bump c aPWR_MARK_ENERGY (e / 10 ^ 10)) (fun p => { p with markRem := e % 10 ^ 10 })

/-- MARK_ESTIMATE: est and i0 in mA, t in 0.1 us. -/
def markEstimate (c : Chip) (y est i0 t : Nat) : Chip :=
  if bit (reg c aPWR_CTRL) 1 = false ∨ rowWaits c y = false then
    modPwr c (fun p => { p with marking := tdel p.marking y, markDone := p.markDone.filter (· ≠ y) })
  else
    let (v, c1) := takeFree c
    let (fill, short) := markFill c1 y est i0 t v
    let c2 := markEnergy (modPwr c1 (fun p => { p with marking := tset 0 p.marking y fill })) y fill
    if short then raise (bump c2 aPWR_MARK_SHORT 1) .pwr 21 else c2

/-- MARK_ESTIMATE. Without a core rail no core marks. -/
def execMarkEstimate (row : BitVec 4) (est i0 t : Nat) (s : State) : Host.Outcome State Fault Refusal :=
  act s (fun c => whenAwake c (fun c => markEstimate c row.toNat est i0 t))

/-- MARK_HOLD_EXPIRY: from now on the fill of the row falls to zero. -/
def execMarkHoldExpiry (row : BitVec 4) (s : State) : Host.Outcome State Fault Refusal :=
  act s (fun c => whenAwake c (fun c =>
    if tget 0 c.pwr.marking row.toNat = 0 ∨ row.toNat ∈ c.pwr.markDone then c
    else modPwr c (fun p => { p with markDone := p.markDone ++ [row.toNat] })))

/-! ### Thermal protection (R441-R444) -/

/-- The reading of a site: the higher of its two sensors (R441). -/
def siteReading (r : SiteReading) : Nat := max r.a.toNat r.b.toNat

/-- The sensors of a site differ by more than 3 degrees. -/
def siteDiffers (r : SiteReading) : Bool := 24 < max r.a.toNat r.b.toNat - min r.a.toNat r.b.toNat

/-- Follows the disagreement of one site: the fourth read in a row is a fault (R441). -/
def noteSite (c : Chip) (r : SiteReading) : Chip :=
  let s := r.site.toNat
  let n := tget 0 c.pwr.disagree s
  if siteDiffers r = false then
    setFld (modPwr c (fun p => { p with disagree := tdel p.disagree s })) aPWR_SENSOR_FAULT s s 0
  else
    let c1 := modPwr c (fun p => { p with disagree := tins p.disagree s (min 4 (n + 1)) })
    if n = 3 then fault (raise (setFld c1 aPWR_SENSOR_FAULT s s 1) .pwr 20) 0x16 .pwr s 0 false else c1

/-- The highest reading and its site. -/
def hottest (l : List SiteReading) : Option (Nat × Nat) :=
  l.foldl (fun m r =>
    match m with
    | none => some (siteReading r, r.site.toNat)
    | some (t, s) => if t < siteReading r then some (siteReading r, r.site.toNat) else some (t, s)) none

/-- TJ in 0.125 degrees C. -/
def tjNow (c : Chip) : Nat := fld (reg c aPWR_TJ) 11 0

/-- Throttling begins at THROTTLE and ends below THROTTLE - HYST (R442). -/
def followThrottle (c : Chip) : Chip :=
  let w := reg c aPWR_THERM
  let hot := 8 * between 85 105 (fld w 7 0)
  let cool := hot - 8 * max 1 (fld w 15 8)
  if c.pwr.throttled then
    if tjNow c < cool then
      modPwr (setFld c aPWR_LIMIT 3 3 0) (fun p => { p with throttled := false, throttlePace := 0 })
    else c
  else if hot ≤ tjNow c ∧ c.pwr.tripped = false then
    raise (bump (modPwr (setFld c aPWR_LIMIT 3 3 1) (fun p => { p with throttled := true, throttlePace := 0 }))
      aPWR_THROTTLE_CNT 1) .pwr 18
  else c

/-- THERMAL_READ: the sites as read, TJ, and throttling. -/
def thermalRead (c : Chip) (l : List SiteReading) : Chip :=
  let c1 := l.foldl noteSite c
  match hottest l with
  | none => c1
  | some (t, s) => followThrottle (setFld (setFld c1 aPWR_TJ 11 0 t) aPWR_TJ 20 16 s)

/-- THERMAL_READ. -/
def execThermalRead (sites : List SiteReading) (s : State) : Host.Outcome State Fault Refusal :=
  act s (fun c => whenMinuet c (fun c => thermalRead c sites))

/-- THROTTLE_STEP: every row falls by one point; with every row at point 0, pacing rises by 10%. -/
def throttleStep (c : Chip) : Chip :=
  let rows := List.range 16
  if c.pwr.throttled = false then c
  else if rows.all (fun y => rowPoint c y = 0) then
    modPwr c (fun p => { p with throttlePace := min 100 (p.throttlePace + 10) })
  else rows.foldl (fun c y => setRowPoint c y (rowPoint c y - 1)) c

/-- THROTTLE_STEP. -/
def execThrottleStep (s : State) : Host.Outcome State Fault Refusal := act s (fun c => whenMinuet c throttleStep)

/-- THERMAL_TRIP: GDDR7 in self-refresh, the fast clocks stopped, the core rail off, TRIPPED and the KIND 5 record
(R443). -/
def thermalTrip (c : Chip) : Chip :=
  if c.pwr.tripped then c
  else
    let n := fld (reg c aPWR_TRIP) 31 16
    let c1 := setFld (setFld c aPWR_TRIP 31 16 (min 0xFFFF (n + 1))) aPWR_TRIP 0 0 1
    bbPlain (modPwr c1 (fun p => { p with tripped := true, marking := [], markDone := [] })) 5 0

/-- THERMAL_TRIP. -/
def execThermalTrip (_site : BitVec 5) (s : State) : Host.Outcome State Fault Refusal :=
  act s (fun c => whenMinuet c thermalTrip)

/-- A write of TRIP.CLEAR (R444): only while tripped, over the sideband, below CLEAR_C. The fault report starts the
reaction of a chip fault. -/
def tripClearOp (c : Chip) (r : Requester) : Nat × Chip :=
  if c.pwr.tripped = false ∨ r ≠ .sideband ∨ 8 * between 60 100 (fld (reg c aPWR_TRIP) 15 8) ≤ tjNow c then
    (rejState, c)
  else
    let c1 := modPwr (setFld c aPWR_TRIP 0 0 0) (fun p => { p with tripped := false })
    (stOK, raise (fault c1 0x17 .pwr 0 0 false) .pwr 19)

/-- COMPARATOR_EXERCISE (R446): the exercise leaves measurement, caps, limits and every register as they are; the
manual gives no effect of a comparator that fails it. -/
def execComparatorExercise (_site : BitVec 5) (_pass : Bool) (s : State) : Host.Outcome State Fault Refusal :=
  act s id

end Sys2Proof.Machine
end

