-- ==== Sys2Proof/Machine/View.lean ====
section
/-! DEFINITION. GDDR7 as a reader of raw addresses finds it (R511, R470): the tables that State holds as data
(directory, ledger, client counts, block tables, small state, exclusion tables) as the bytes that their layouts
give, and every other byte as memory holds it. -/

namespace Sys2Proof.Machine

/-- The byte at an offset of a list; bytes past its end read as 0. -/
def byteAt (l : List Byte) (o : Nat) : Byte := l.getD o 0

/-- The 32 B of a ledger entry (R98). -/
def ledgerBytes (l : Ledger) : List Byte :=
  leBytes 4 (match l.gddr with
    | some a => a / 64
    | none => 0xFFFFFFFF) ++
  leBytes 4 l.size ++
  leBytes 8 (l.flash.getD 0xFFFFFFFFFFFFFFFF) ++ leBytes 2 l.ref ++ leBytes 2 l.res ++
  leBytes 1 (match l.state with
    | .free => 0
    | .staged => 1
    | .resident => 2
    | .mirrored => 3
    | .flash => 4
    | .reading => 5
    | .damaged => 6) ++ List.replicate 3 0 ++ leBytes 8 l.refSeq

/-- The 16 B of a client's counts (R239): the three counts in the order of the rule (log entry 67). -/
def clientBytes (v : Nat × Nat × Nat) : List Byte :=
  leBytes 4 (v.1 % 2 ^ 32) ++ leBytes 4 (v.2.1 % 2 ^ 32) ++ leBytes 4 (v.2.2 % 2 ^ 32) ++ List.replicate 4 0

/-- A byte of the small-state area of a session (R93): the count table, the grammar stack, the stop matcher. -/
def smallByte (b : Body) (o : Nat) : Byte :=
  if o < 524288 then
    match tfind b.counts (o / 8) with
    | some s => byteAt (countSlotBytes s) (o % 8)
    | none => 0
  else if o < 525312 then (stackBytes b.gram).getD (o - 524288) 0xFF
  else byteAt (stopArea b) (o - 525312)

/-- The byte of a session's own tables at an address, if it lies in one. -/
def sessionByte (c : Chip) (i a : Nat) : Option Byte :=
  let e := entry c i
  let t := tableBytes c i
  if e.state = .free then none
  else if e.blockTable ≤ a ∧ a < e.blockTable + t.length then some (byteAt t (a - e.blockTable))
  else if e.smallState ≠ 0 ∧ e.smallState ≤ a ∧ a < e.smallState + 525888 then
    some (smallByte (body c i) (a - e.smallState))
  else if e.exclTable ≠ 0 ∧ e.exclTable ≤ a ∧ a < e.exclTable + 128 then
    some (byteAt (exclTableBytes (body c i)) (a - e.exclTable))
  else none

/-- The byte of the staging pool at an offset: the staged arguments of a figure that is not yet applied. -/
def poolByte (c : Chip) (o : Nat) : Option Byte :=
  c.fig.committed.findSome? (fun k =>
    if k.place ≤ o then (stagedBytes k.fig.acts)[o - k.place]? else none)

/-- The byte that a read of a GDDR7 address finds. -/
def viewByte (c : Chip) (a : Nat) : Byte :=
  let d := dirBase c
  let l := pair c aTIER_LEDGER_BASE_LO
  let t := pair c aSCHED_CLIENT_BASE_LO
  if c.sess.inited ∧ d ≤ a ∧ a < d + 2 ^ 29 then
    let i := (a - d) / 128
    byteAt (entryBytes (entry c i) i ((opsOf c i).length - 1)) ((a - d) % 128)
  else if bstate c .tier ≠ .off ∧ l ≤ a ∧ a < l + 32 * ledgerSize c then
    byteAt (ledgerBytes (ledger c ((a - l) / 32))) ((a - l) % 32)
  else if bstate c .sched ≠ .off ∧ t ≤ a ∧ a < t + 2 ^ 23 then
    byteAt (clientBytes (tget (0, 0, 0) c.sched.clients ((a - t) / 16))) ((a - t) % 16)
  else if bstate c .fig ≠ .off ∧ inRange a (pair c aFIG_LOG_BASE_LO) (2 ^ 20) then
    let o := a - pair c aFIG_LOG_BASE_LO
    ((tfind c.fig.ring (o / 32)).map (fun l => byteAt l (o % 32))).getD (memGet c.mem a)
  else if bstate c .fig ≠ .off ∧ inRange a (pair c aFIG_STAGE_BASE_LO) (stageSize c) then
    (poolByte c (a - pair c aFIG_STAGE_BASE_LO)).getD (Config.ringByte c.free a)
  else (c.sess.entries.findSome? (fun e => sessionByte c e.1 a)).getD (memGet c.mem a)

/-- The bytes that a read of GDDR7 finds from an address. -/
def viewRead (c : Chip) (a n : Nat) : List Byte := (List.range n).map (fun k => viewByte c (a + k))

end Sys2Proof.Machine
end

