-- ==== Sys2Proof/Machine/Crc.lean ====
section
/-! DEFINITION. The check-value units CRC0 to CRC3 (R510-R517). -/

namespace Sys2Proof.Machine

/-- An idle unit that holds 0. -/
def crcReset : CrcRun := { held := 0, busy := false, ranges := [], input := [] }

/-- A unit. -/
def crcUnit (c : Chip) (u : Nat) : CrcRun := tget crcReset c.crc u

/-- Writes a unit. -/
def setCrcUnit (c : Chip) (u : Nat) (x : CrcRun) : Chip := { c with crc := tset crcReset c.crc u x }

/-- W of a unit: WIDTH_M1 + 1 (R517). -/
def crcWidth (c : Chip) (u : Nat) : Nat := fld (regB c u aCRC_CFG) 5 0 + 1
/-- CHAIN. -/
def crcChain (c : Chip) (u : Nat) : Bool := bit (regB c u aCRC_CFG) 11
/-- MODE: a descriptor list. -/
def crcList (c : Chip) (u : Nat) : Bool := bit (regB c u aCRC_CFG) 10
/-- REFOUT. -/
def crcRefout (c : Chip) (u : Nat) : Bool := bit (regB c u aCRC_CFG) 9
/-- REFIN. -/
def crcRefin (c : Chip) (u : Nat) : Bool := bit (regB c u aCRC_CFG) 8

/-- The register after a run over the bytes (R510): from INIT, or from the held register under CHAIN. -/
def crcRunReg (c : Chip) (u : Nat) (l : List Byte) : Nat :=
  let w := crcWidth c u
  let init := if crcChain c u then (crcUnit c u).held.toNat else pairB c u aCRC_INIT_LO
  crcRaw w (pairB c u aCRC_POLY_LO % 2 ^ w) (crcRefin c u) (init % 2 ^ w) l

/-- RESULT of a register (R510). -/
def crcResultOf (c : Chip) (u reg_ : Nat) : Nat :=
  let w := crcWidth c u
  (if crcRefout c u then revBits w reg_ else reg_) ^^^ (pairB c u aCRC_XOROUT_LO % 2 ^ w)

/-! ### Sources (R511, R512) -/

/-- The live object that holds a flash range. -/
def crcObject (c : Chip) (a n : Nat) : Option (Nat × FObj) :=
  c.flash.objects.find? (fun o => o.1 ≤ a && a + n ≤ o.1 + o.2.len)

/-- The channel groups that a GDDR7 range touches: 4 channels each (R154). 64 granules of 256 B reach every
channel that a longer range of MODE 0 reaches. -/
def groupsTouched (c : Chip) (a n : Nat) : List Nat :=
  if n = 0 then []
  else if bit (reg c aGDR_INTERLEAVE) 0 then
    (List.range ((a + n - 1) / 2 ^ 35 - a / 2 ^ 35 + 1)).map (fun k => a / 2 ^ 35 + k)
  else
    ((List.range (min 64 ((a + n - 1) / 256 - a / 256 + 1))).map (fun k =>
      channelOf c ((a / 256 + k) * 256) / 4)).dedup

/-- Partition 0 holds the channel group. -/
def p0Group (c : Chip) (g : Nat) : Bool := bit (regB c 0 aSEC_PART_RES) (8 + g)

/-- Whether a range breaks R511, passes the end of GDDR7, or lies in no live object. -/
def crcRangeBad (c : Chip) (r : Bool × Nat × Nat) : Bool :=
  let (fl, a, n) := r
  if fl then decide (n = 0 ∨ a % 64 ≠ 0 ∨ n % 64 ≠ 0) || (crcObject c a n).isNone
  else decide (n = 0 ∨ gddrSize < a + n)

/-- Whether a range touches units that partition 0 does not hold. -/
def crcRangeForeign (c : Chip) (r : Bool × Nat × Nat) : Bool :=
  let (fl, a, n) := r
  if fl then decide (dieAt c a ∉ diesFor c 0) else (groupsTouched c a n).any (fun g => !p0Group c g)

/-- A source field and its length as a range (R511): none where a bit that must be zero is set. -/
def crcRange (src len : Nat) : Option (Bool × Nat × Nat) :=
  if nbit src 63 then (if src % 2 ^ 63 < 2 ^ 44 then some (true, src % 2 ^ 44, len) else none)
  else if src < 2 ^ 38 then some (false, src, len)
  else none

/-- The ranges of a run, or the code that refuses it. -/
def crcSources (c : Chip) (u : Nat) : Nat × List (Bool × Nat × Nat) :=
  let src := pairB c u aCRC_SRC_LO
  let len := (regB c u aCRC_LEN).toNat
  if crcList c u then
    if src % 16 ≠ 0 ∨ len = 0 ∨ 65536 < len ∨ gddrSize < src + 16 * len then (rejLimit, [])
    else if (groupsTouched c src (16 * len)).any (fun g => !p0Group c g) then (rejPart, [])
    else
      let ds := (List.range len).map (fun k => viewRead c (src + 16 * k) 16)
      let rs := ds.map (fun d => if rdLE d 12 4 ≠ 0 then none else crcRange (rdLE d 0 8) (rdLE d 8 4))
      let ok := rs.filterMap (fun r => r)
      if ok.length < rs.length then (rejLimit, []) else (stOK, ok)
  else
    match crcRange src len with
    | none => (rejLimit, [])
    | some r => (stOK, [r])

/-- The bytes of a range now. -/
def crcBytes (c : Chip) (r : Bool × Nat × Nat) : List Byte :=
  let (fl, a, n) := r
  if fl then
    match crcObject c a n with
    | some o => slice o.2.data (a - o.1) n
    | none => []
  else viewRead c a n

/-- STAT of a unit. -/
def setCrcStat (c : Chip) (u : Nat) (busy : Bool) (status : Nat) (valid : Bool) : Chip :=
  setRegB c u aCRC_STAT (w32 (b2n busy * 2 ^ 31 + status * 2 ^ 16 + b2n valid))

/-- A run ends without a result: STATUS has the code, VALID is 0, RESULT and the held register stay. -/
def crcFail (c : Chip) (u status : Nat) : Chip :=
  let c1 := setCrcStat (setCrcUnit c u { crcUnit c u with busy := false, ranges := [], input := [] }) u false status false
  raises c1 [(.crc, 16 + u), (.crc, 20 + u)]

/-- A flash range is read: READ_BYTES and the reads of its extent (R133, R138). -/
def crcCountRead (c : Chip) (r : Bool × Nat × Nat) : Chip :=
  if r.1 then
    let c1 := bumpPair c aFLASH_READ_BYTES_LO r.2.2
    match extOfLext c1 (lextOf r.2.1) with
    | some e => setExtent c1 e { extent c1 e with reads := (extent c1 e).reads + 1 }
    | none => c1
  else c

/-- A START (R511-R513, R515, R516): the status of the write and the chip. -/
def crcStart (c : Chip) (u : Nat) : Nat × Chip :=
  if !isOn c .crc || (crcUnit c u).busy then (rejBusy, c)
  else
    let (st, rs) := crcSources c u
    let st1 := if st ≠ stOK then st
      else if rs.any (crcRangeBad c) then rejLimit
      else if rs.any (crcRangeForeign c) then rejPart
      else stOK
    let c0 := setRegB c u aCRC_BYTES 0
    if st1 ≠ stOK then (stOK, crcFail c0 u st1)
    else
      let c1 := setCrcUnit c0 u { crcUnit c0 u with busy := true, ranges := rs, input := rs.flatMap (crcBytes c) }
      (stOK, setCrcStat c1 u true 0 false)

/-- The bytes that a run read: those of a GDDR7 range that another block wrote meanwhile are old or new,
byte by byte, as free values choose (R513). -/
def crcSettleBytes (c : Chip) : List (Bool × Nat × Nat) → List Byte → List Byte × Chip
  | [], _ => ([], c)
  | r :: rs, old =>
    let mine := old.take r.2.2
    let (here, c1) :=
      if r.1 then (mine, c)
      else (mine.zip (viewRead c r.2.1 r.2.2)).foldl (fun (x : List Byte × Chip) p =>
        if p.1 = p.2 then (x.1 ++ [p.1], x.2)
        else
          let (v, c2) := takeFree x.2
          (x.1 ++ [if v % 2 = 0 then p.1 else p.2], c2)) ([], c)
    let (rest, c3) := crcSettleBytes c1 rs (old.drop r.2.2)
    (here ++ rest, c3)

/-- A free place of the ranges met an uncorrectable read (R514): the reaction of R112 or R108. -/
def crcHurt (c : Chip) (rs : List (Bool × Nat × Nat)) : Chip :=
  let (v, c1) := takeFree c
  let r := rs.getD (v % max 1 rs.length) (false, 0, 1)
  let a := r.2.1 + v / max 1 rs.length % max 1 r.2.2
  if r.1 then
    let c2 := raise (bump c1 aFLASH_UNCORR_CNT 1) .flash 17
    let c3 := fault c2 0x0C .flash (dieAt c2 a) a false
    match crcObject c3 a 1 with
    | some o => ownerLost c3 o.1
    | none => c3
  else uncorrectable (countUe c1 a) 0x07 a

/-- CRC_RUN_DONE (R510, R514): t3 of a run. -/
def crcRunDone (c : Chip) (u : Nat) (uncorr : Bool) : Chip :=
  let x := crcUnit c u
  if !x.busy then c
  else
    let c0 := x.ranges.foldl crcCountRead c
    if uncorr then kick (settle (crcHurt (crcFail (settle c0) u stTierFault) x.ranges))
    else
      let (l, c1) := crcSettleBytes c0 x.ranges x.input
      let reg_ := crcRunReg c1 u l
      let c2 := setPairB c1 u aCRC_RESULT_LO (crcResultOf c1 u reg_)
      let c3 := setRegB c2 u aCRC_BYTES (w32 (sat32 l.length))
      let c4 := setCrcUnit c3 u { held := w64 reg_, busy := false, ranges := [], input := [] }
      raise (setCrcStat c4 u false stOK true) .crc (16 + u)

/-- CRC_RUN_DONE. -/
def execCrcRunDone (unit : BitVec 2) (uncorr : Bool) (s : State) : Host.Outcome State Fault Refusal :=
  act s (fun c => whenAwake c (fun c => if isUp c .crc then crcRunDone c unit.toNat uncorr else c))

/-- The drain timeout of CRC (R516). -/
def crcDrainTimeout (c : Chip) : Chip :=
  (List.range 4).foldl (fun c u => if (crcUnit c u).busy then crcFail c u stAbortDrain else c) c

end Sys2Proof.Machine
end

