-- ==== Sys2Proof/Machine/XptRx.lean ====
section
/-! DEFINITION. What the end of a remote operation starts (R301, R306, R321, R330, R417), and the commands VST_ACK,
VST_NAK, VST_CLOSE and RTO_EXPIRY. -/

namespace Sys2Proof.Machine

/-- The cut record whose image an operation of this end writes (R301). -/
def imageCut (c : Chip) (n : Nat) (id : Word) : Option CutRec :=
  c.cuts.find? (fun r => r.source && r.conn = n && r.cutId = id && decide (r.state = .sending))

/-- An operation that this chip initiated ends with a NAK status or with its connection: an image write that is refused
ends the OFFER (R306), a shard is abandoned (R417). -/
def useFailed (c : Chip) (n : Nat) (u : InitUse) : Chip :=
  match u with
  | .cutImage id =>
    match imageCut c n id with
    | none => forgetUse c n u
    | some r => if (entry c r.idx).state = .handoffOut then srcWithdraw c r.idx r stCutAborted else forgetUse c n u
  | .shardBody => abandonShard c
  | .shardHeader => abandonShard c
  | .mark => forgetUse c n u
  | .shardQuery _ _ => forgetUse c n u
  | .plain => c

/-- Every operation of a list that is closed with a NAK among its packets completes with that status (R330). -/
def usesClosed (c : Chip) (n : Nat) (l : List InitUse) : Chip :=
  l.foldl (fun c u => if useClosed c n u ∧ (useNak c n u).isSome then useFailed c n u else c) c

/-- Every operation of a list ends with its connection (R321). -/
def usesLost (c : Chip) (n : Nat) (l : List InitUse) : Chip := l.foldl (fun c u => useFailed c n u) c

/-- VST_ACK (R320, R324). -/
def vstAck (c : Chip) (l : Link) (p : Pkt) : Chip :=
  match rxGate c l p with
  | (none, c1) => c1
  | (some n, c1) =>
    let r := ackRx (countRx c1 l) n p
    usesClosed r.2 n r.1

/-- VST_ACK. -/
def execVstAck (l : Link) (p : Pkt) (s : State) : Host.Outcome State Fault Refusal :=
  act s (fun c => whenAwake c (fun c => vstAck c l p))

/-- VST_NAK (R330). -/
def vstNak (c : Chip) (l : Link) (p : Pkt) : Chip :=
  match rxGate c l p with
  | (none, c1) => c1
  | (some n, c1) =>
    let r := nakRx (countRx c1 l) n p
    usesClosed r.2 n r.1

/-- VST_NAK. -/
def execVstNak (l : Link) (p : Pkt) (s : State) : Host.Outcome State Fault Refusal :=
  act s (fun c => whenAwake c (fun c => vstNak c l p))

/-- VST_CLOSE (R317): operations whose packets were not sent end. -/
def vstClose (c : Chip) (l : Link) (p : Pkt) : Chip :=
  let r := closeRx c l p
  usesLost r.2.2 r.2.1 r.1

/-- VST_CLOSE. -/
def execVstClose (l : Link) (p : Pkt) (s : State) : Host.Outcome State Fault Refusal :=
  act s (fun c => whenAwake c (fun c => vstClose c l p))

/-- RTO_EXPIRY (R320, R321), while XPT carries the connection. -/
def rtoRun (c : Chip) (n : Nat) (seq : Word) : Chip :=
  if xptCarries c n then
    let r := rtoExpiry c n seq
    usesLost r.2 n r.1
  else c

/-- RTO_EXPIRY. -/
def execRtoExpiry (conn : Conn) (seq : Word) (s : State) : Host.Outcome State Fault Refusal :=
  act s (fun c => whenAwake c (fun c => rtoRun c conn.toNat seq))

/-- CONN_CTRL.CLOSE on a connection (R317). -/
def connCloseOp (c : Chip) (n : Nat) : Chip :=
  let r := startClosing c n
  usesLost r.2 n r.1

end Sys2Proof.Machine
end

