-- ==== Sys2Proof/Machine/Sec.lean ====
section
/-! DEFINITION. Partitions, measurements, consent, debug, attestation (R447-R470), and TEL (R465, R466, R471). -/

namespace Sys2Proof.Machine

/-! ### Chip-wide GDDR7 regions (R538) -/

/-- The regions of R538 in the order of its table: base and size. -/
def chipRegions (c : Chip) : List (Nat × Nat) :=
  [(dirBase c, 2 ^ 29), (pair c aFIG_LOG_BASE_LO, 2 ^ 20), (pair c aFIG_STAGE_BASE_LO, stageSize c),
    (pair c aTIER_LEDGER_BASE_LO, 32 * ledgerSize c), heapRegion c, (pair c aSCHED_CLIENT_BASE_LO, 2 ^ 23),
    (pair c aTEXT_WORK_BASE_LO, workSize c), (ckAreaBase c, 2 * ckGenBytes c)]

/-- A region of R538, by its place in the table, stands clear: it ends inside GDDR7 and overlaps no other. -/
def regionClear (c : Chip) (k : Nat) : Bool :=
  let l := chipRegions c
  let x := l.getD k (0, 0)
  decide (x.1 + x.2 ≤ gddrSize) &&
    (List.range 8).all (fun j => decide (j = k) || !(overlaps x.1 x.2 (l.getD j (0, 0)).1 (l.getD j (0, 0)).2))

/-! ### Units of a partition (R447, R448) -/

/-- Stored words of a partition: PART_RES, PART_SLOTS, PART_CONN, PART_DIR. -/
def partWords (c : Chip) (p : Nat) : List Word :=
  [regB c p aSEC_PART_RES, regB c p aSEC_PART_SLOTS, regB c p aSEC_PART_CONN, regB c p aSEC_PART_DIR]

/-- The four words as 16 B. -/
def partImage (c : Chip) (p : Nat) : List Byte := (partWords c p).flatMap (fun w => leBytes 4 w.toNat)

/-- Row pairs, channel groups and flash channel pairs of a partition. -/
def partMask (c : Chip) (p : Nat) : Nat := fld (regB c p aSEC_PART_RES) 23 0
/-- Model slots of a partition. -/
def partSlots (c : Chip) (p : Nat) : Nat := fld (regB c p aSEC_PART_SLOTS) 15 0

/-- Whether something that is in use lies in a set of indices, connections or GDDR7 ranges (R448). -/
def unitsUsed (c : Chip) (inDir inConn : Nat → Bool) (inMem : Nat → Nat → Bool) : Bool :=
  c.sess.entries.any (fun e => decide (e.2.state ≠ .free) && inDir e.1) ||
    c.xpt.conns.any (fun k => decide (k.2.state ≠ .closed) && inConn k.1) ||
    c.xpt.regions.any (fun r => (decide (r.2.state ≠ .free) || r.2.zeroing) && inMem r.2.base r.2.len) ||
    c.tier.heap.any (fun h => inMem h.1 h.2.1)

/-- A number lies in a range given as base and count. -/
def inSpan (x : Nat × Nat) (n : Nat) : Bool := decide (x.1 ≤ n ∧ n < x.1 + x.2)

/-- A unit of a tenant is in use (R450). -/
def tenantUsed (c : Chip) (p : Nat) : Bool :=
  unitsUsed c (inSpan (dirRange c p)) (inSpan (connRange c p)) (fun _ _ => false) ||
    c.xpt.regions.any (fun r => (decide (r.2.state ≠ .free) || r.2.zeroing) && decide (r.2.part = p)) ||
    c.tier.heap.any (fun h => decide (h.2.2 = p))

/-- A block that is OFF or DISABLED. -/
def isIdleBlock (c : Chip) (p : Page) : Bool := bstate c p = .off || bstate c p = .disabled

/-- The refusal of a write of PART_RES, PART_SLOTS, PART_CONN or PART_DIR (R448): `after` is the chip with the new
value stored. -/
def partRegRefusal (c after : Chip) (p : Nat) : Nat :=
  if p ≠ 0 then (if (secPart c p).state = .invalid then stOK else rejState)
  else if !([Page.sess, .sched, .tier, .xpt].all (isIdleBlock c)) then rejState
  else
    let lostDir := fun i => inSpan (dirRange c 0) i && !inSpan (dirRange after 0) i
    let lostConn := fun n => inSpan (connRange c 0) n && !inSpan (connRange after 0) n
    let lostMem := fun a n => (groupsTouched c a n).any (fun g => p0Group c g && !p0Group after g)
    let lostSlot := c.sess.entries.any (fun e => decide (e.2.state ≠ .free ∧ e.2.part = 0) &&
      nbit (partSlots c 0) e.2.model && !nbit (partSlots after 0) e.2.model)
    if unitsUsed c lostDir lostConn lostMem || lostSlot then rejState else stOK

/-- Two ranges given as base and count share a number. -/
def spansMeet (x y : Nat × Nat) : Bool := overlaps x.1 x.2 y.1 y.2

/-- The check of PART_CTRL.VALID (R448). -/
def partCheck (c : Chip) (p : Nat) : Nat :=
  let m := partMask c p
  let cr := connRange c p
  let dr := dirRange c p
  let others := parts8.filter (fun q => decide (q ≠ p) && partHolds c q)
  if m % 2 ^ 8 = 0 ∨ m / 2 ^ 8 % 2 ^ 8 = 0 ∨ m / 2 ^ 16 = 0 ∨ partSlots c p = 0 ∨ cr.2 = 0 ∨ dr.2 = 0 then rejLimit
  else if others.any (fun q => decide (Nat.land m (partMask c q) ≠ 0 ∨ Nat.land (partSlots c p) (partSlots c q) ≠ 0) ||
      spansMeet cr (connRange c q) || spansMeet dr (dirRange c q)) then rejLimit
  else if 16384 < cr.1 + cr.2 ∨ cr.1 % 64 ≠ 0 ∨ cr.2 % 64 ≠ 0 ∨ 4194304 < dr.1 + dr.2 then rejLimit
  else if bit (reg c aGDR_INTERLEAVE) 0 = false then rejState
  else
    let fixed := [0, 1, 2, 3, 5, 6, 7].map (fun k => (chipRegions c).getD k (0, 0))
    if fixed.any (fun x => (groupsTouched c x.1 x.2).any (fun g => nbit (m / 2 ^ 8) g)) then rejState
    else stOK

/-! ### Debug and trace (R461-R464) -/


/-- Chip-wide debug closes: the TAP goes to Test-Logic-Reset (R464). -/
def chipDebugShut (c : Chip) : Chip :=
  if c.sec.chipDebug then
    { c with
      sec := { c.sec with chipDebug := false }
      tap := { c.tap with instr := .idcode } }
  else c

/-- Debug and trace that depend on a partition's consent close (R464). -/
def closeDebugOf (c : Chip) (p : Nat) : Chip :=
  let c1 := chipDebugShut c
  if c1.sec.partDebug = some p then { c1 with sec := { c1.sec with partDebug := none } } else c1

/-- The trace of a partition's rows stops. -/
def closeTraceOf (c : Chip) (p : Nat) : Chip :=
  if c.sec.tracing = some p then raise (traceStop c) .tel 16 else c

/-- New consent bits of a partition (R461, R464). -/
def setConsent (c : Chip) (p : Nat) (debug profile : Bool) : Chip :=
  let x := secPart c p
  let c1 := setSecPart c p { x with debug := debug, profile := profile }
  let c2 := if x.debug ∧ debug = false then closeDebugOf c1 p else c1
  let c3 := if x.profile ∧ profile = false then closeTraceOf c2 p else c2
  if x.debug ≠ debug ∨ x.profile ≠ profile then raise c3 .sec 18 else c3

/-- A partition leaves VALID (R461, R464). -/
def leaveValid (c : Chip) (p : Nat) (st : PartState) (purged : Bool) : Chip :=
  let c1 := setConsent (closeTraceOf (closeDebugOf c p) p) p false false
  raise (setSecPart c1 p { secPart c1 p with state := st, purged := purged }) .sec 16

/-! ### PART_CTRL (R448, R450, R451) -/

/-- STATUS of PART_CTRL. -/
def setPartStatus (c : Chip) (p st : Nat) : Chip := setFldB c p aSEC_PART_CTRL 23 16 st

/-- VALID written 1. -/
def partValidate (c : Chip) (p : Nat) : Nat × Chip :=
  match (secPart c p).state with
  | .valid => (stOK, c)
  | .purging => (rejState, setPartStatus c p rejState)
  | .scrubbing => (rejState, setPartStatus c p rejState)
  | .invalid =>
    let st := partCheck c p
    let c1 := setPartStatus c p st
    if st ≠ stOK then (stOK, c1)
    else
      let x := { secPart c1 p with
        state := .valid, purged := false, debug := false, profile := false, mp0 := sha256 (partImage c1 p),
        mp1 := List.replicate 32 0, extend := [] }
      (stOK, raise (chipDebugShut (setSecPart c1 p x)) .sec 16)

/-- VALID written 0 (R450). -/
def partInvalidate (c : Chip) (p : Nat) : Nat × Chip :=
  match (secPart c p).state with
  | .valid =>
    if p = 0 ∨ tenantUsed c p then (rejState, setPartStatus c p rejState)
    else (stOK, leaveValid (setPartStatus c p stOK) p .scrubbing false)
  | _ => if p = 0 then (rejState, setPartStatus c p rejState) else (stOK, c)

/-- Every operation of a session ends with ABORTED_DRAIN; one that runs in a step ends with it (R451, t1). -/
def purgeOps (c : Chip) (i : Nat) : Chip :=
  match opsOf c i with
  | [] => c
  | o :: rest =>
    let c1 := rest.foldl (fun c q => applyAfters c (endRecs c i q stAbortDrain)) c
    if o.phase = .running then setOps c1 i [{ o with drainEnd := true }]
    else finishOp (setOps c1 i [o]) i stAbortDrain

/-- A session of a purged partition is discarded, or ends securely (R451, t2 and t3). -/
def purgeSession (c : Chip) (i : Nat) : Chip :=
  let e := entry c i
  match e.state with
  | .free => c
  | .ended => setBody c i { body c i with secure := true }
  | .handoffIn => discardDst c i (dstCut c i)
  | .handoffOut =>
    let c1 := match srcCut c i with
      | some r => setCut c { r with state := .discarded, ended := true }
      | none => c
    openFig c1 { sessFig c1 i { e with state := .free } [] [] with origin := .cutIn }
  | .held =>
    let c1 := match srcCut c i with
      | some r => setCut c { r with state := .discarded, ended := true }
      | none => c
    openFig c1 { sessFig c1 i { e with state := .free } [] [] with origin := .cutIn }
  | _ =>
    if (body c i).unsettled then discardDst c i (dstCut c i)
    else
      let c1 := setBody (abandonRevival c i) i { body c i with
        secure := true
        ckptWait := if isOn c .ckpt then 2 + b2n (decide (c.ckpt.phase = .stream)) else 0 }
      openFig c1 (sessFig c1 i { entry c1 i with state := .ended } [] [])

/-- Registrations of a partition are revoked; one that is still being zeroed ends with ABORTED_DRAIN. -/
def purgeRegion (c : Chip) (i : Nat) : Chip :=
  let r := region c i
  if r.zeroing ∧ !r.landing then
    let c1 := heapRelease (setRegion c i { regionReset with gen := r.gen }) r.base
    answerRegion c1 r.replyConn stAbortDrain 1 0 r.replyTag r.len
  else if r.state = .active ∧ !regionWaits c i then revokeRegion c i 16384 0
  else c

/-- Searches and loads of a partition's indexes end, and every index is freed and invalidated (R451, t3). -/
def purgeIndexes (c : Chip) (p : Nat) : Chip :=
  let mine := fun x => ixPart c x = p
  let c1 := endSearches c mine stAbortDrain
  let c2 := (c1.srch.loads.filter (fun l => mine l.index)).foldl (fun c l =>
    answerSearch (cancelWrite { c with srch := { c.srch with loads := c.srch.loads.filter (fun x => x.write ≠ l.write) } }
      l.write) l.conn 0x22 l.index l.tag stAbortDrain 0) c1
  (List.range 16).foldl (fun c x =>
    if mine x then
      let c1 := { setFldB c x aSRCH_IDX_CTRL 0 0 0 with
        checks := { c.checks with index := c.checks.index.filter (fun y => y ≠ x) } }
      if ixTableOk c x then freeIndexObjects c1 x else c1
    else c) c2

/-- One pass of the purge of a partition (R451): t1 for every session, and, once none of its operations runs in a
step, t2 to t4. -/
def purgePass (c0 : Chip) (p : Nat) : Chip :=
  let c := settle c0
  let mine := (c.sess.entries.filter (fun e => decide (e.2.part = p ∧ e.2.state ≠ .free))).map (·.1)
  let c1 := settle (mine.foldl purgeOps c)
  if mine.any (fun i => !(opsOf c1 i).isEmpty) then c1
  else
    let c2 := settle (mine.foldl purgeSession c1)
    let regs := (c2.xpt.regions.filter (fun r => decide (r.2.part = p))).map (·.1)
    let c3 := settle (regs.foldl purgeRegion (purgeIndexes c2 p))
    let qs := c3.egr.queues.map (fun q =>
      if fld (regB c3 q.1 aEGR_Q_CFG) 29 27 = p then (q.1, { q.2 with pkts := [] }) else q)
    let c4 : Chip := { c3 with egr := { c3.egr with queues := qs } }
    let conns := (c4.xpt.conns.filter (fun k => inSpan (connRange c4 p) k.1 && decide (k.2.state ≠ .closed))).map (·.1)
    conns.foldl (fun c n =>
      let c1 := if (conn c n).state = .open then connCloseOp c n else c
      closeConn c1 n) c4

/-- PURGE written 1. -/
def partPurge (c : Chip) (p : Nat) : Nat × Chip :=
  if p = 0 ∨ (secPart c p).state ≠ .valid then (rejState, setPartStatus c p rejState)
  else (stOK, kick (purgePass (leaveValid (setPartStatus c p stOK) p .purging true) p))

/-- PURGE_DRAINED (R450): the purge goes on, and SCRUBBING follows when nothing of the partition is left. -/
def purgeDrained (c : Chip) (p : Nat) : Chip :=
  if (secPart c p).state ≠ .purging then c
  else
    let c1 := purgePass c p
    let left := c1.sess.entries.any (fun e => decide (e.2.part = p ∧ e.2.state ≠ .free)) ||
      c1.xpt.conns.any (fun k => inSpan (connRange c1 p) k.1 && decide (k.2.state ≠ .closed)) ||
      c1.xpt.regions.any (fun r => decide (r.2.part = p) && (decide (r.2.state ≠ .free) || r.2.zeroing)) ||
      (List.range 16).any (fun x => ixValid c1 x && decide (ixPart c1 x = p))
    if left then c1 else raise (setSecPart c1 p { secPart c1 p with state := .scrubbing }) .sec 16

/-- PURGE_DRAINED. -/
def execPurgeDrained (part : Part) (s : State) : Host.Outcome State Fault Refusal :=
  act s (fun c => whenAwake c (fun c => purgeDrained c part.toNat))

/-- The flash of a partition is erased and verified (R451, t5): no object is left on its dies, and every extent that
was in use is SPARE again. -/
def scrubFlash (c : Chip) (p : Nat) : Chip :=
  let mine := fun e => decide (dieOf e ∈ diesFor c p)
  let onMine := fun a => decide (dieAt c a ∈ diesFor c p)
  { c with flash := { c.flash with
      objects := c.flash.objects.filter (fun o => !onMine o.1)
      writes := c.flash.writes.filter (fun w => !mine w.ext)
      heldFrees := c.flash.heldFrees.filter (fun h => !onMine h.1)
      heads := c.flash.heads.filter (fun h => decide (h.1 ∉ diesFor c p))
      extents := c.flash.extents.map (fun e =>
        if mine e.1 ∧ (e.2.state = .open ∨ e.2.state = .closed ∨ e.2.state = .erasing) then
          (e.1, { extReset with erases := e.2.erases + 1 })
        else e) } }

/-- PART_SCRUB_DONE (R450, R451): everything of the partition is zero or erased, and it goes INVALID. -/
def partScrubDone (c : Chip) (p : Nat) : Chip :=
  let x := secPart c p
  if x.state ≠ .scrubbing then c
  else
    let groups := partMask c p / 2 ^ 8 % 2 ^ 8
    let group := fun a => if bit (reg c aGDR_INTERLEAVE) 0 then a / 2 ^ 35 else channelOf c a / 4
    let c1 := { c with mem := c.mem.filter (fun m => !nbit groups (group m.1)) }
    let c2 := zeroCores c1 p
    let rows := partMask c p % 2 ^ 8
    let c3 := { c2 with grid := { c2.grid with
      cores := c2.grid.cores.map (fun k => if nbit rows (k.1 / 32) then (k.1, { k.2 with programs := [] }) else k) } }
    let c4 := scrubFlash c3 p
    let c5 := setSecPart c4 p { x with state := .invalid, purged := false }
    raises c5 ([(.sec, 16)] ++ (if x.purged then [(.sec, 17)] else []))

/-- PART_SCRUB_DONE. -/
def execPartScrubDone (part : Part) (s : State) : Host.Outcome State Fault Refusal :=
  act s (fun c => whenAwake c (fun c => partScrubDone c part.toNat))

/-! ### Writes of SEC (R457, R458, R461-R463) -/

/-- PART_CONSENT written by a requester of partition `q` in the bank of partition `p`. -/
def consentWrite (c : Chip) (q p : Nat) (w : Word) : Nat × Chip :=
  if q ≠ p then (rejPart, c) else (stOK, setConsent c p (bit w 0) (bit w 1))

/-- EXTENDn written (R458): the words collect, and EXTEND7 extends MP1. -/
def extendWrite (c : Chip) (q p k : Nat) (w : Word) : Nat × Chip :=
  if q ≠ p then (rejPart, c)
  else
    let x := secPart c p
    let y := { x with extend := tset 0 x.extend k w }
    if k = 7 then
      let v := (List.range 8).flatMap (fun j => leBytes 4 (tget 0 y.extend j).toNat)
      (stOK, setSecPart c p { y with mp1 := sha256 (y.mp1 ++ v) })
    else (stOK, setSecPart c p y)

/-- ROLLBACK.MIN_SVN written (R457): only a higher value burns fuses. -/
def rollbackWrite (c : Chip) (w : Word) : Nat × Chip :=
  if fld w 5 0 ≤ fld (reg c aSEC_ROLLBACK) 5 0 then (rejState, c) else (stOK, setFld c aSEC_ROLLBACK 5 0 (fld w 5 0))

/-- KEY_REVOKE written (R457): a 1 revokes its slot for good, but not the last one. -/
def revokeWrite (c : Chip) (w : Word) : Nat × Chip :=
  let v := Nat.lor (fld (reg c aSEC_KEY_REVOKE) 3 0) (fld w 3 0)
  if v = 15 ∧ fld (reg c aSEC_KEY_REVOKE) 3 0 ≠ 15 then (rejState, c) else (stOK, setFld c aSEC_KEY_REVOKE 3 0 v)

/-- CHIP_DEBUG.REQ (R463). -/
def chipDebugReq (c : Chip) : Nat × Chip :=
  if (parts8.filter (fun p => (secPart c p).state = .valid)).all (fun p => (secPart c p).debug) then
    let c1 := setFld c aSEC_CHIP_DEBUG 31 24 stOK
    (stOK, raise { c1 with sec := { c1.sec with chipDebug := true, everDebug := true } } .sec 19)
  else (rejPart, setFld c aSEC_CHIP_DEBUG 31 24 rejPart)

/-- CHIP_DEBUG written: REQ, then CLOSE. -/
def chipDebugWrite (c : Chip) (w : Word) : Nat × Chip :=
  let (st, c1) := if bit w 0 then chipDebugReq c else (stOK, c)
  (st, if bit w 1 then chipDebugShut c1 else c1)

/-- DBG_CTRL written: PART, then OPEN, then CLOSE (R462, R464). -/
def dbgWrite (c : Chip) (w : Word) : Nat × Chip :=
  let p := fld w 2 0
  let (st, c1) :=
    if bit w 8 then
      if (secPart c p).state = .valid ∧ (secPart c p).debug then
        let c1 := setFld (setFld c aSEC_DBG_CTRL 2 0 p) aSEC_DBG_CTRL 31 24 stOK
        (stOK, raise { c1 with sec := { c1.sec with partDebug := some p } } .sec 19)
      else (rejPart, setFld c aSEC_DBG_CTRL 31 24 rejPart)
    else (stOK, setFld c aSEC_DBG_CTRL 2 0 p)
  (st, if bit w 9 then { c1 with sec := { c1.sec with partDebug := none } } else c1)

/-- The debug address: whether it is a core store, the core, and the byte address (R470). -/
def dbgAddr (c : Chip) : Bool × Nat × Nat :=
  let lo := reg c aSEC_DBG_ADDR_LO
  let hi := reg c aSEC_DBG_ADDR_HI
  if bit hi 31 then (true, fld hi 23 16, fld lo 19 0) else (false, 0, fld hi 5 0 * 2 ^ 32 + fld lo 31 2 * 4)

/-- The debug address lies in what the open debug reaches (R462, R463). -/
def dbgAllowed (c : Chip) : Bool :=
  let (core, n, a) := dbgAddr c
  c.sec.chipDebug ||
    (match c.sec.partDebug with
     | none => false
     | some p =>
       if core then nbit (partMask c p) (n / 32)
       else (groupsTouched c a 4).all (fun g => nbit (partMask c p / 2 ^ 8) g))

/-- DBG_DATA read: the word, after which the address rises by 4. -/
def dbgRead (c : Chip) : Nat × Word × Chip :=
  if !dbgAllowed c then (rejPart, 0, c)
  else
    let (core, n, a) := dbgAddr c
    let l := if core then coreRead (coreAt c n) a 4 else viewRead c a 4
    let c1 := if core then setFld c aSEC_DBG_ADDR_LO 19 0 ((a + 4) % 2 ^ 20)
      else
        let b := (a + 4) % 2 ^ 38
        setFld (setFld c aSEC_DBG_ADDR_LO 31 0 (b % 2 ^ 32)) aSEC_DBG_ADDR_HI 5 0 (b / 2 ^ 32)
    (stOK, w32 (leNat l), c1)

/-! ### Attestation (R459, R460) -/

/-- A report that does not end with OK: bytes 0x00-0x0F. -/
def attestShort (p : Nat) (tag : DWord) (st : Nat) : List Byte :=
  [6, BitVec.ofNat 8 st, 1, BitVec.ofNat 8 p] ++ leBytes 4 17408 ++ leBytes 8 tag.toNat

/-- PART of a report: the flash part fitted. -/
def variantCode (v : Variant) : Nat :=
  match v with
  | .nvt9404 => 4
  | .nvt9408 => 8
  | .nvt9416 => 16

/-- A mask of the partitions that satisfy a condition. -/
def partsMask (f : Nat → Bool) : Nat := (parts8.map (fun p => b2n (f p) * 2 ^ p)).sum

/-- The signed part of a report (R460): bytes 0x000-0x13F. -/
def attestBody (c : Chip) (p : Nat) (tag : DWord) (nonce : List Byte) : List Byte :=
  let x := secPart c p
  attestShort p tag stOK ++ padTo 32 nonce ++
    leBytes 4 (reg c aSEC_DEVICE_ID_LO).toNat ++ leBytes 4 (reg c aSEC_DEVICE_ID_HI).toNat ++
    [BitVec.ofNat 8 (variantCode c.variant), 0xB0, BitVec.ofNat 8 (fld (reg c aSEC_BOOT_STAT) 23 16),
      BitVec.ofNat 8 (fld (reg c aSEC_ROLLBACK) 5 0), BitVec.ofNat 8 (fld (reg c aSEC_BOOT_STAT) 9 8),
      BitVec.ofNat 8 (b2n c.sec.chipDebug + 2 * b2n c.sec.everDebug + 4 * b2n (decide (c.sec.partDebug = some p)) +
        8 * b2n (decide (c.sec.tracing = some p))),
      BitVec.ofNat 8 (b2n x.debug + 2 * b2n x.profile), 0,
      BitVec.ofNat 8 (partsMask (fun q => (secPart c q).state = .valid)),
      BitVec.ofNat 8 (partsMask (fun q => (secPart c q).debug)), 0, 0] ++
    leBytes 4 (reg c aSEC_ATTEST_CNT).toNat ++ leBytes 8 c.chip.lastBundle.toNat ++ partImage c p ++
    padTo 32 c.sec.mc0 ++ padTo 32 c.sec.mc1 ++ padTo 32 c.sec.mc2 ++ padTo 32 x.mp0 ++ padTo 32 x.mp1 ++
    padTo 32 Config.attestPk ++ List.replicate 32 0

/-- A report is signed and sent: COUNTER is ATTEST_CNT after it. -/
def attestAnswer (c : Chip) (q : AttestReq) : Chip :=
  let p := (partOfConn c q.conn).getD 0
  let c1 := bump c aSEC_ATTEST_CNT 1
  let l := attestBody c1 p q.tag q.nonce
  sendMsg c1 q.conn 2 (l ++ padTo 17088 (Config.slhSign l))

/-- The requests that waited for SEC's self-test are answered in order (R470). -/
def attestFlush (c : Chip) : Chip :=
  c.sec.attest.foldl attestAnswer { c with sec := { c.sec with attest := [] } }

/-- An ATTEST request (R460). -/
def attestReq (c : Chip) (n : Nat) (tag : DWord) (handle : Word) (nonce : List Byte) : Chip :=
  match partOfConn c n with
  | none => sendMsg c n 2 (attestShort 0 tag rejPart)
  | some p =>
    if !partValid c p then sendMsg c n 2 (attestShort p tag rejBusy)
    else if handle ≠ 0 ∨ nonce.length ≠ 32 then sendMsg c n 2 (attestShort p tag rejLimit)
    else if 64 ≤ c.sec.attest.length then sendMsg c n 2 (attestShort p tag rejBusy)
    else if (hdr c .sec).selftest then
      { c with sec := { c.sec with attest := c.sec.attest ++ [{ conn := n, tag := tag, nonce := nonce }] } }
    else attestAnswer c { conn := n, tag := tag, nonce := nonce }

/-- ATTEST. -/
def execAttest (conn : Conn) (tag : DWord) (handle : Word) (body : List Byte) (s : State) :
    Host.Outcome State Fault Refusal :=
  act s (fun c => whenAwake c (fun c => attestReq c conn.toNat tag handle body))

/-! ### TEL (R465, R466, R471) -/

/-- Sums of the job counts of a partition's clients. -/
def jobSums (c : Chip) (p : Nat) : Nat × Nat × Nat :=
  let l := (c.sched.clients.filter (fun e => decide (e.1 / 65536 = p))).map (·.2)
  ((l.map (·.1)).sum, (l.map (·.2.1)).sum, (l.map (·.2.2)).sum)

/-- Object bytes of a partition in flash. -/
def flashBytesOf (c : Chip) (p : Nat) : Nat :=
  ((c.flash.objects.filter (fun o => decide (partOfDie c (dieAt c o.1) = p))).map (fun o => o.2.len)).sum

/-- One client count by its place: started, completed, aborted. -/
def jobCount (j : Nat × Nat × Nat) (k : Nat) : Nat := if k = 0 then j.1 else if k = 1 then j.2.1 else j.2.2

/-- The live value of a TEL counter of a partition by the offset of its low word, as one 64-bit value. -/
def telValue (c : Chip) (p off : Nat) : Nat :=
  if off = 0x44 then (c.sess.entries.filter (fun e => decide (e.2.part = p ∧ e.2.state ≠ .free))).length
  else if off = 0x48 then pairB c p aSCHED_STEP_CNT_LO
  else if off = 0x50 then pairB c p aTEL_TOKENS_IN_LO
  else if off = 0x58 then pairB c p aTEL_TOKENS_OUT_LO
  else if off = 0x60 then (jobSums c p).1 % 2 ^ 32
  else if off = 0x64 then (jobSums c p).2.1 % 2 ^ 32
  else if off = 0x68 then (jobSums c p).2.2 % 2 ^ 32
  else if off = 0x6C then heapUsed c p / 2 ^ 20
  else if off = 0x70 then flashBytesOf c p / 2 ^ 20
  else 0

/-- Offsets of the counters that a snapshot holds, by their low words. -/
def telOffsets : List Nat := [0x44, 0x48, 0x50, 0x58, 0x60, 0x64, 0x68, 0x6C, 0x70]

/-- The greatest power of two not above a value; 0 stays 0 (R465). -/
def powFloor (n : Nat) : Nat := if n = 0 then 0 else 2 ^ Nat.log2 n

/-- The snapshot of one partition: the low word of each counter under its offset, the high word under the next; the
counts of a client under 1,024 + 4 times its number. -/
def telSnap (c : Chip) (t : Tbl Word) (p : Nat) : Tbl Word :=
  let t1 := telOffsets.foldl (fun t o =>
    let v := powFloor (telValue c p o)
    let t2 := tset 0 t (p * 64 + o / 4) (w32 v)
    if o = 0x48 ∨ o = 0x50 ∨ o = 0x58 then tset 0 t2 (p * 64 + o / 4 + 1) (w32 (v / 2 ^ 32)) else t2) t
  (c.sched.clients.filter (fun e => decide (e.1 / 65536 = p))).foldl (fun t e =>
    (List.range 3).foldl (fun t k => tset 0 t (1024 + 4 * e.1 + k) (w32 (powFloor (jobCount e.2 k % 2 ^ 32)))) t) t1

/-- TEL_SNAPSHOT (R465). -/
def telSnapshot (c : Chip) : Chip :=
  if !isOn c .tel then c
  else bump { c with sec := { c.sec with snaps := parts8.foldl (telSnap c) [] } } aTEL_SNAP_SEQ 1

/-- TEL_SNAPSHOT. -/
def execTelSnapshot (s : State) : Host.Outcome State Fault Refusal :=
  act s (fun c => whenAwake c telSnapshot)

/-- TEL_POWER_UPDATE (R466): the average of the last whole second, in 0.1 W. -/
def execTelPowerUpdate (avg : BitVec 16) (s : State) : Host.Outcome State Fault Refusal :=
  act s (fun c => whenAwake c (fun c =>
    if isOn c .tel then { c with sec := { c.sec with powerAvg := avg.toNat } } else c))

/-- A TEL counter as partition 0 reads it: live and exact. -/
def telLive (c : Chip) (p off : Nat) : Word :=
  if off = 0x74 then w32 c.sec.powerAvg
  else if 0x7C ≤ off ∧ off ≤ 0x84 then w32 (jobCount (jobs c p (fld (regB c p aTEL_CLIENT_SEL) 15 0)) ((off - 0x7C) / 4))
  else if off = 0x4C ∨ off = 0x54 ∨ off = 0x5C then w32 (telValue c p (off - 4) / 2 ^ 32)
  else w32 (telValue c p off)

/-- A TEL counter as a tenant reads it: from the snapshot; POWER in steps of 10 W. -/
def telTenant (c : Chip) (p off : Nat) : Word :=
  if off = 0x74 then w32 (c.sec.powerAvg / 100 * 100)
  else if 0x7C ≤ off ∧ off ≤ 0x84 then
    tget 0 c.sec.snaps (1024 + 4 * (p * 65536 + fld (regB c p aTEL_CLIENT_SEL) 15 0) + (off - 0x7C) / 4)
  else tget 0 c.sec.snaps (p * 64 + off / 4)

/-- TEL.TRACE_CTRL written (R462, R471). -/
def traceWrite (c : Chip) (w : Word) : Nat × Chip :=
  let p := fld w 10 8
  if bit w 0 then
    if !isOn c .tel then (rejBusy, c)
    else if (secPart c p).state = .valid ∧ (secPart c p).profile then
      let c1 := setReg c aTEL_TRACE_CTRL (w32 (1 + p * 2 ^ 8))
      if c.sec.tracing = some p then (stOK, c1)
      else (stOK, { c1 with sec := { c1.sec with tracing := some p, tracePos := 0 } })
    else (rejPart, c)
  else (stOK, setReg (traceStop c) aTEL_TRACE_CTRL (w32 (p * 2 ^ 8)))

end Sys2Proof.Machine
end

