-- ==== Sys2Proof/Machine/Drain.lean ====
section
/-! DEFINITION. Block states and drain (R31-R34): the work that a block has accepted, what a drain ends, self-test,
SOFT_RESET, and writes of BLK_CTRL. -/

namespace Sys2Proof.Machine

/-! ### Steps and cores that stop -/

/-- The figures of a running step abort (R80): its operations end with a code, or stay for their caller to end. The step
ends at its last abort (R236, R237). -/
def dropStep (c : Chip) (p : Nat) (status : Option Nat) : Chip :=
  match (schedPart c p).step with
  | none => c
  | some st =>
    let works := st.engines.flatMap (·.works)
    let c1 := works.foldl (if status.isSome then abortWork else voidWork) c
    let c2 := match status with
      | none => c1
      | some s => works.foldl (fun c w => finishOp c w.idx s) c1
    if status.isSome then endDrained (closeStep c2 p st.tail) p else closeStep c2 p st.tail

/-- What a core was running, and what waited for it, is lost. -/
def clearRun (k : Core) : Core :=
  { k with
    wait := none, halted := false, loops := [], posts := [], sendQ := [], inFlight := [], credits := [], plans := [],
    queued := [] }

/-- A placement on a core is stopped and lost (R165, R171). A chip fault takes a core that drains toward OFF back to FREE
or LAME; at a drain timeout its placement has ended, and it goes OFF. -/
def stopCore (chipFault : Bool) (c0 : Chip) (n : Nat) : Chip :=
  let k := { coreAt c0 n with queued := [] }
  let c := if (coreAt c0 n).queued.isEmpty then c0 else setCore c0 n k
  match k.state with
  | .busy =>
    let c1 := setCore c n { clearRun k with state := .free, lameDue := false }
    if k.lameDue then becomeLame c1 n else c1
  | .draining =>
    let k1 := { clearRun k with lameDue := false, wantOff := false }
    if k.wantOff = false then setCore c n { k1 with state := .testing, before := .free }
    else if chipFault then
      runTests (if k.lameDue then becomeLame (setCore c n { k1 with state := .free }) n
        else setCore c n { k1 with state := .free })
    else runTests (setCore c n { k1 with state := .off })
  | .off => c
  | .free => c
  | .testing => c
  | .lame => c
  | .faulted => c

/-- The cores of a partition's running step are stopped. -/
def stopCoresOf (c : Chip) (p : Nat) : Chip :=
  (c.grid.cores.map (·.1)).foldl (fun c n => if corePart c n = p then stopCore false c n else c) c

/-- Every unfinished step is dropped with a code and its placements are stopped. -/
def stopSteps (c : Chip) (status : Option Nat) : Chip :=
  parts8.foldl (fun c p =>
    if (schedPart c p).step.isSome then dropStep (stopCoresOf c p) p status else c) c

/-! ### Work in flight (R17) -/

/-- The operations in progress. -/
def headOps (c : Chip) : List (Nat × Op) :=
  c.sess.ops.filterMap (fun e =>
    match e.2 with
    | [] => none
    | o :: _ => some (e.1, o))

/-- An operation in progress that TEXT serves (R295). -/
def usesText (c : Chip) (x : Nat × Op) : Bool := isText x.2.arg || (decide (x.2.code = 3) && needsText c x.1)

/-- Work items that a block has accepted and not completed or aborted (log entry 68). -/
def inflightCount (c : Chip) (p : Page) : Nat :=
  match p with
  | .chip => 0
  | .clk => 0
  | .pwr => 0
  | .sec => c.sec.attest.length
  | .flt => c.flt.queue.length
  | .sess => (c.sess.ops.map (fun e => e.2.length)).sum
  | .fig => c.fig.waiting.length + c.fig.committed.length +
      ((parts8.filterMap (fun q => (schedPart c q).step)).map (fun s => (s.engines.map (fun e => e.works.length)).sum)).sum
  | .tier => c.tier.revivals.length + (c.sess.bodies.filter (fun b => b.2.evict.isSome)).length + b2n c.tier.sweeping
  | .gdr => 0
  | .flash => c.flash.writes.length +
      (c.flash.extents.filter (fun e => decide (e.2.state = .erasing) || e.2.copyTo.isSome)).length
  | .grid => (c.grid.cores.filter (fun k => decide (k.2.state = .busy ∨ k.2.state = .draining ∨ k.2.state = .testing))).length
  | .sched => ((headOps c).filter (fun x => decide (x.2.code = 2 ∨ x.2.code = 3))).length
  | .attn => (parts8.filter (fun q => (schedPart c q).step.isSome)).length
  | .samp => ((headOps c).filter (fun x => decide (x.2.code = 3))).length
  | .spec => (parts8.filter (fun q => ((schedPart c q).step.map (·.spec)).getD false)).length
  | .text => ((headOps c).filter (usesText c)).length
  | .cut => (c.cuts.filter (fun r => !r.ended)).length
  | .xpt => c.xpt.accs.length + (c.xpt.conns.map (fun k => k.2.txOpen.length + k.2.txWait.length)).sum
  | .peer => ((ports4.map (fun q => ((pport c q).queue.filter (fun f => !f.transit)).length)).sum)
  | .host => c.egr.ctl0.length +
      ((c.egr.queues.filter (fun q => !bit (regB c q.1 aEGR_Q_CFG) 30)).map (fun q => q.2.pkts.length)).sum
  | .egr => (c.egr.queues.map (fun q => q.2.pkts.length)).sum
  | .srch => c.srch.queries.length + c.srch.deletes.length + c.srch.loads.length
  | .ckpt => b2n (decide (c.ckpt.phase ≠ .idle))
  | .crc => ((List.range 4).filter (fun u => (crcUnit c u).busy)).length
  | .tel => 0

/-! ### Drain (R31, R32) -/

/-- Every operation of a session ends with a code, the one in progress first. -/
def endAllOps (c : Chip) (st i : Nat) : Chip :=
  match opsOf c i with
  | [] => c
  | o :: rest =>
    let c1 := finishOp (setOps c i [o]) i st
    rest.foldl (fun c q => applyAfters c (endRecs c i q st)) c1

/-- Operations in progress end with ABORTED_DRAIN once the step that their partition runs ends; at once where none runs
(R243, R267, R295). -/
def drainOps (c : Chip) (mine : Nat × Op → Bool) : Chip :=
  ((headOps c).filter mine).foldl (fun c x =>
    if (schedPart c (entry c x.1).part).step.isSome then setHead c x.1 { x.2 with drainEnd := true }
    else finishOp c x.1 stAbortDrain) c

/-- A state-return figure (R61): one DIR_SET of STATE that takes a RUNNING session to READY. -/
def stateReturn (c : Chip) (f : Figure) : Bool :=
  decide (f.acts = [.dirSet false .state (stateCode .ready)]) &&
    (match f.subjects with
     | [.session i] => decide ((entry c i).state = .running)
     | _ => false)

/-- A figure takes a session index. -/
def takesIndex (f : Figure) : Bool :=
  f.after.any (fun a =>
    match a with
    | .takeIndex _ => true
    | _ => false)

/-- What follows a figure that never commits: the landing range of an arrival is released, an OPEN completes with a
code. Every other operation stands in its session's queue. -/
def voidAfter (status : Nat) (c : Chip) (a : After) : Chip :=
  match a with
  | .cutRecord r =>
    if r.source then c
    else if (region c r.region).state = .free ∧ (region c r.region).landing ∧ (region c r.region).base = r.base then
      heapRelease (setRegion c r.region { regionReset with gen := (region c r.region).gen }) r.base
    else c
  | .send n (.comp r) =>
    if r.code = 1 then sendOut c n (.comp { r with status := BitVec.ofNat 8 status, figSeq := some 0, aux := 0 }) 0 else c
  | _ => c

/-- What an action of a figure that never commits had taken: staged blocks, and the areas of an entry that is not
created (R38, R100). -/
def voidAct (create : Bool) (c : Chip) (a : Action) : Chip :=
  match a with
  | .blockRef l => (l.map (·.2)).foldl freeBlock c
  | .dirSet _ .tailBase v => if create then releaseAddr c v else c
  | .dirSet _ .smallState v => if create then releaseAddr c v else c
  | .dirSet _ .exclTable v => if create then releaseAddr c v else c
  | _ => c

/-- A figure that waits to open never commits (R80, R82): what it held is released; a REGISTER or REVOKE that it
would have carried out completes with a code (R327). -/
def voidFigure (c : Chip) (f : Figure) (status : Nat) : Chip :=
  let c1 := f.acts.foldl (voidAct (takesIndex f)) c
  let c2 := f.subjects.foldl (fun c s =>
    match s with
    | .region i =>
      let r := region c i
      if r.landing then c
      else if r.zeroing then
        answerRegion (heapRelease (setRegion c i { regionReset with gen := r.gen }) r.base) r.replyConn status 1 0
          r.replyTag r.len
      else if r.replyConn < 16384 then answerRegion c r.replyConn status 2 (regionTag c i) r.replyTag r.len
      else c
    | _ => c) c1
  f.after.foldl (voidAfter status) c2

/-- The figures of a partition's running step abort while the step runs on (R80). -/
def abortStepFigures (c : Chip) (p : Nat) (status : Nat) : Chip :=
  match (schedPart c p).step with
  | none => c
  | some st =>
    let works := st.engines.flatMap (·.works)
    let c1 := works.foldl abortWork c
    let bare : Step := { st with engines := st.engines.map (fun e => { e with works := [] }) }
    works.foldl (fun c w => finishOp c w.idx status) (setSched c1 p { schedPart c1 p with step := some bare })

/-- Figures that wait to open abort with ABORTED_DRAIN (R80, R85): those of a kind, but for state-return figures. -/
def abortWaitingWhere (c : Chip) (mine : Figure → Bool) : Chip :=
  let stays := fun (f : Figure) => stateReturn c f || !mine f
  let gone := c.fig.waiting.filter (fun f => !stays f)
  let c0 := bump c aFIG_ABORT_CNT gone.length
  let c1 : Chip := { c0 with fig := { c0.fig with waiting := c0.fig.waiting.filter stays } }
  gone.foldl (fun c f =>
    f.subjects.foldl (fun c s =>
      match s with
      | .session i => finishOp c i stAbortDrain
      | _ => c) (if f.origin = .checkpoint then abandonShard c else voidFigure c f stAbortDrain)) c1

/-- The figures that a block opens (R71, R80). -/
def opensFor (p : Page) (f : Figure) : Bool :=
  match p, f.origin with
  | .sess, .session => true
  | .spec, .step => true
  | .attn, .step => true
  | .grid, .step => true
  | .cut, .cutIn => true
  | .xpt, .transport => true
  | .ckpt, .checkpoint => true
  | _, _ => false

/-- FIG's drain timeout (R85): figures that wait to open and the figures of running steps abort with
ABORTED_DRAIN; state-return figures commit. -/
def figDrainTimeout (c : Chip) : Chip :=
  let c2 := abortWaitingWhere c (fun _ => true)
  let c3 := parts8.foldl (fun c p => abortStepFigures c p stAbortDrain) c2
  settle (releaseWaiting (settle c3))

/-- TIER's drain timeout: a revival that still waits or reads is given up (R117, R31). -/
def tierDrainTimeout (c : Chip) : Chip :=
  c.tier.revivals.foldl (fun c r =>
    match opsOf c r.idx with
    | o :: _ => if o.phase = .reviving then finishOp c r.idx stAbortDrain else abandonRevival c r.idx
    | [] => abandonRevival c r.idx) c

/-- XPT's drain timeout (R342): operations still unfinished complete with ABORTED_DRAIN, and a packet of a remote
operation that had begun begins a new one from now on. -/
def xptDrainTimeout (c : Chip) : Chip :=
  (c.xpt.conns.map (·.1)).foldl (fun c n =>
    let us := openUses (conn c n)
    let k := conn c n
    let c1 := setConn c n { k with ops := [], txWait := k.txWait.filter (fun w => decide (w.2 = .plain)) }
    us.foldl (fun c u => useFailed c n u) c1) c

/-- Operations whose queued packets a port or EGR drops complete with ABORTED_DRAIN (R364, R380, R382). -/
def dropQueued (c : Chip) (mine : Nat → Bool) (f : Chip → Chip) : Chip :=
  let pkts := (c.egr.queues.filter (fun q => mine q.1)).flatMap (fun q => q.2.pkts)
  let uses := (pkts.flatMap (fun x => (((conn c x.1).txOpen.filter (fun t => decide (t.pkt.seq = x.2.seq))).map
    (fun t => (x.1, t.use))))).dedup
  (uses.filter (fun u => decide (u.2 ≠ .plain))).foldl (fun c u => useFailed c u.1 u.2) (f c)

/-- What is left of a block's work when its drain timeout expires (R31). -/
def drainTimeoutOf (c0 : Chip) (p : Page) : Chip :=
  let c := abortWaitingWhere (settle c0) (opensFor p)
  match p with
  | .sess => ((c.sess.ops.map (·.1)).foldl (fun c i => endAllOps c stAbortDrain i) c)
  | .fig => figDrainTimeout c
  | .tier => tierDrainTimeout c
  | .flash => flashDrainTimeout c
  | .grid =>
    parts8.foldl (fun c q => dropStep (stopCoresOf c q) q (some stAbortDrain)) c
  | .sched => drainOps c (fun x => decide (x.2.code = 2 ∨ x.2.code = 3))
  | .attn => stopSteps c (some stAbortDrain)
  | .samp => drainOps c (fun x => decide (x.2.code = 3))
  | .text => drainOps c (usesText c)
  | .cut => cutDrainTimeout c
  | .xpt => xptDrainTimeout c
  | .peer => dropQueued c (fun q => bit (regB c q aEGR_Q_CFG) 30) peerDrainTimeout
  | .host => dropQueued c (fun q => !bit (regB c q aEGR_Q_CFG) 30) hostDrainTimeout
  | .egr => dropQueued c (fun _ => true) egrDrainTimeout
  | .srch => srchDrainTimeout c
  | .ckpt => ckptDrainTimeout c
  | .crc => crcDrainTimeout c
  | .chip => c
  | .clk => c
  | .pwr => c
  | .sec => c
  | .flt => c
  | .gdr => c
  | .spec => c
  | .tel => c

/-- What the start of a drain ends at once: evictions in phase 1 (R117), repair (R406), the trace (R471). -/
def drainStarts (c : Chip) (p : Page) : Chip :=
  if p = .tier then
    ((c.sess.bodies.filter (fun b => b.2.evict.isSome)).map (·.1)).foldl cancelEvict c
  else if p = .srch then stopRepair c
  else telLeaves c p

/-- A drain ends: DISABLED, ENABLE cleared, DRAIN_DONE, and DRAIN_ABORT after a timeout. -/
def endDrain (c : Chip) (p : Page) (forced : Bool) : Chip :=
  let c1 := setHdr c p { hdr c p with enable := false, drainForced := forced }
  raises (setState c1 p .disabled) ((if forced then [(p, 2)] else []) ++ [(p, 1)])

/-- DRAIN_DONE. -/
def execDrainDone (page : Page) (s : State) : Host.Outcome State Fault Refusal :=
  act s (fun c => whenAwake c (fun c =>
    if bstate c page = .draining ∧ inflightCount c page = 0 then endDrain c page false else c))

/-- DRAIN_TIMEOUT. -/
def execDrainTimeout (page : Page) (s : State) : Host.Outcome State Fault Refusal :=
  act s (fun c => whenAwake c (fun c =>
    if bstate c page = .draining then kick (settle (endDrain (drainTimeoutOf c page) page true)) else c))

/-! ### Going ON (R31) -/

/-- SESS goes ON: the first time after power-up every entry is written FREE at generation 1, unless KEEP (R65). -/
def sessOn (c : Chip) : Chip :=
  let c1 := setState c .sess .on
  if c1.sess.inited then c1
  else if bit (reg c1 aSESS_DIR_CTRL) 0 then { c1 with sess := { c1.sess with inited := true } }
  else
    { c1 with sess := { c1.sess with
        inited := true, entries := [], bodies := [], ops := [], fresh := [], freed := [], cached := [] } }

/-- SCHED goes ON: every partition starts at INIT, STEP_CNT counts from 0, and a table that moved is zero (R228,
R241, R242). -/
def schedOn (c : Chip) : Chip :=
  let c1 := parts8.foldl (fun c p => setPairB (setSched c p { schedPart c p with initDue := true }) p aSCHED_STEP_CNT_LO 0) c
  if c1.sched.clientMove then { c1 with sched := { c1.sched with clientMove := false, clients := [] } } else c1

/-- A block goes from OFF or DISABLED to ON: the status of the write and the chip. -/
def turnOn (c : Chip) (p : Page) : Nat × Chip :=
  let on := fun c => setState c p .on
  match p with
  | .sess =>
    if c.sess.moveFrom.isSome then
      (stOK, setState { c with sess := { c.sess with copying := true } } .sess .disabled)
    else (stOK, sessOn c)
  | .flash => (stOK, if c.flash.scanned then pumpFlash (on c) else c)
  | .gdr =>
    let c1 := on c
    (stOK, if reg c1 aGDR_CH_READY = 0 ∧ c.chip.bootDone then
      setReg c1 aGDR_CH_READY (BitVec.allOnes 32 ^^^ reg c1 aGDR_CH_FAULT) else c1)
  | .grid => (stOK, gridOn (on c))
  | .sched => (stOK, schedOn (on c))
  | .peer => (stOK, peerOn (on c))
  | .host => (stOK, hostOn (on c))
  | .ckpt => (stOK, ckptOn (on c))
  | _ => (stOK, on c)

/-- DIR_COPY_DONE (R66): the copy is complete and SESS goes ON. -/
def dirCopyDone (c : Chip) : Chip :=
  if c.sess.copying = false then c
  else
    let c1 : Chip := { c with sess := { c.sess with copying := false, moveFrom := none } }
    if (hdr c1 .sess).enable ∧ !(hdr c1 .sess).drain ∧ bstate c1 .sess = .disabled then sessOn c1 else c1

/-- DIR_COPY_DONE. -/
def execDirCopyDone (s : State) : Host.Outcome State Fault Refusal :=
  act s (fun c => whenAwake c (fun c => kick (dirCopyDone c)))

/-! ### Self-test (R31, R33) -/

/-- A drainable block enters TESTING: the host link goes down and no port forwards (R364, R380). -/
def enterTesting (c : Chip) (p : Page) : Chip :=
  let c1 := telLeaves (setState (setHdr c p { hdr c p with selftest := true }) p .testing) p
  if p = .host then hostOff c1 else if p = .grid then gridTesting c1 else c1

/-- A block leaves TESTING: the host link trains again. -/
def leaveTesting (c : Chip) (p : Page) (st : BState) : Chip :=
  let c1 := setState c p st
  if p = .host then hostOn c1 else c1

/-- The result of a self-test: ST_RAN, ST_FAIL, and their events. -/
def testResult (c : Chip) (p : Page) (pass : Bool) : Chip :=
  let ca := if p = .grid then gridTested c pass else c
  let c1 := setHdr ca p { hdr ca p with selftest := false, stRan := true, stFail := !pass }
  let c2 := raises c1 ([(p, 5)] ++ (if pass then [] else [(p, 6)]))
  if pass then c2 else fault c2 0x1D p 0 0 false

/-- SELFTEST_END of a block's own self-test. A block that went from TESTING to FAULT stays in FAULT, which only
SOFT_RESET ends (R31, R476). -/
def selftestEnd (c : Chip) (p : Page) (pass : Bool) : Chip :=
  let h := hdr c p
  if h.selftest = false ∨ p ∈ c.chip.testing then c
  else if drainable p then testResult (if h.state = .testing then leaveTesting c p .disabled else c) p pass
  else
    let c1 := testResult c p pass
    if p = .sec then attestFlush { c1 with chip := { c1.chip with updateWaits := false } } else c1

/-- A command of a page acts while the page's domain runs. -/
def whenPage (c : Chip) (p : Page) (f : Chip → Chip) : Chip :=
  if minuetPage p then whenMinuet c f else whenAwake c f

/-- SELFTEST_END. -/
def execSelftestEnd (page : Page) (pass : Bool) (s : State) : Host.Outcome State Fault Refusal :=
  act s (fun c => whenPage c page (fun c => selftestEnd c page pass))

/-! ### SOFT_RESET (R31) -/

/-- Registers kept across SOFT_RESET: FIG's sequence numbers (R86), and what is counted or fixed since manufacture
or power-up (log entry 69). -/
def keptRegs : List Nat :=
  [aFIG_SEQ_LO, aFIG_SEQ_HI, aFIG_APPLIED_LO, aFIG_APPLIED_HI, aFLASH_STATUS, aFLASH_DIE_LOST_LO, aFLASH_DIE_LOST_HI,
    aFLASH_OWNER_BYTES_LO, aFLASH_OWNER_BYTES_HI, aFLASH_MEDIA_BYTES_LO, aFLASH_MEDIA_BYTES_HI, aFLASH_READ_BYTES_LO,
    aFLASH_READ_BYTES_HI, aFLASH_WEAR, aFLASH_UNCORR_CNT, aFLASH_RETRY_CNT, aFLASH_PROGFAIL_CNT, aFLASH_RETIRED_CNT,
    aHOST_BASE_MAC_LO, aHOST_BASE_MAC_HI]

/-- Page index of a register key. -/
def keyPage (k : Nat) : Nat := k % bankStride / 0x4000

/-- The words of a page go to their reset values. -/
def resetWords (c : Chip) (p : Page) : Chip :=
  let keep := fun (e : Nat × Word) => decide (keyPage e.1 ≠ pageIdx p) || decide (e.1 % bankStride ∈ keptRegs)
  let fails := fld (reg c aPEER_LASER) 15 8
  let c1 : Chip := { c with mgmt := { c.mgmt with
    regs := c.mgmt.regs.filter keep, copy1 := c.mgmt.copy1.filter keep, copy2 := c.mgmt.copy2.filter keep } }
  if p = .peer then setFld c1 aPEER_LASER 15 8 fails else c1

/-- What a page's registers show and its block holds on chip returns to reset with them (log entry 69). -/
def resetUnit (c : Chip) (p : Page) : Chip :=
  match p with
  | .sess => { c with sess := { c.sess with moveFrom := none, copying := false } }
  | .fig =>
    let c1 := figDrainTimeout c
    { c1 with fig := { c1.fig with logTail := 0, logHead := 0, logUsed := 0, written := 0, reserved := 0 } }
  | .tier => { c with tier := { c.tier with sweeping := false } }
  | .grid => { c with grid := { cores := [], tests := [], rotateNext := 0 } }
  | .sched => { c with sched := { c.sched with parts := [] } }
  | .attn => { c with checks := { c.checks with model := none, layerImg := [], tableImg := [] } }
  | .text => { c with checks := { c.checks with vocab := none, gram := none, vocabImg := [], gramImg := [] } }
  | .xpt =>
    let c1 := (c.xpt.conns.map (·.1)).foldl closeConn c
    let c2 := c1.xpt.regions.foldl (fun c r => if r.2.len = 0 then c else heapRelease c r.2.base) c1
    { c2 with xpt := { conns := [], regions := [], freshRegion := 0, freedRegions := [], accs := [], heldReqs := [] } }
  | .peer =>
    let c1 := peerOff c
    { c1 with peer := { c1.peer with bank0 := [], bank1 := [], active := false } }
  | .host =>
    let c1 := hostOff c
    { c1 with host := { c1.host with buckets := [], needed := false } }
  | .egr => c.egr.waiters.foldl (fun c n => pumpConn (setConn c n { conn c n with waiting := false }) n)
      { c with egr := { queues := [], ctl0 := [], ctl1 := [], last := [], waiters := [] } }
  | .srch =>
    let c1 := endSearches { c with checks := { c.checks with index := [] } } (fun _ => true) stAbortDrain
    { c1 with srch := { c1.srch with pass := [], repairNext := [] } }
  | .ckpt => ckptReset c
  | .crc => { c with crc := [] }
  | .tel => traceStop { c with sec := { c.sec with snaps := [], powerAvg := 0 } }
  | .chip => c
  | .clk => c
  | .pwr => c
  | .sec => c
  | .flt => c
  | .gdr => c
  | .flash => c
  | .samp => c
  | .spec => c
  | .cut => c

/-- Every requester's unlock on a page is gone: BLK_UNLOCK returns to its reset value with the page. -/
def disarmPage (c : Chip) (p : Page) : Chip :=
  let off := fun (s : ReqState) => { s with unlocked := s.unlocked.filter (fun i => i ≠ pageIdx p) }
  { c with mgmt := { c.mgmt with
      sideband := off c.mgmt.sideband
      inband := (c.mgmt.inband.map (fun e => (e.1, off e.2))).filter (fun e => decide (e.2 ≠ ReqState.empty)) } }

/-- SOFT_RESET of a block that is OFF, DISABLED or in FAULT: its registers return to reset and it is OFF. -/
def softReset (c : Chip) (p : Page) : Chip :=
  let was := bstate c p
  let c1 := disarmPage (resetWords (resetUnit (abortWaitingWhere (settle c) (opensFor p)) p) p) p
  let c2 := setHdr c1 p { hdrReset (pageIdx p) with state := was }
  kick (setState c2 p .off)

/-! ### BLK_CTRL (R17, R26, R31) -/

/-- How a write reaches a register: plain, or through the set, clear or toggle alias (R22). -/
inductive WMode
  | plain | set | clear | toggle
  deriving DecidableEq, Repr

/-- The word that a write gives, from the word before it. -/
def wNew (m : WMode) (old w : Word) : Word :=
  match m with
  | .plain => w
  | .set => old ||| w
  | .clear => old &&& ~~~w
  | .toggle => old ^^^ w

/-- The bits that a write writes as 1. -/
def wOnes (m : WMode) (old w : Word) : Word :=
  match m with
  | .plain => w
  | .set => w
  | .clear => 0
  | .toggle => w &&& ~~~old

/-- BLK_CTRL as it reads: on the pages 0x00 to 0x04 ENABLE reads 1 and DRAIN reads 0 (R31). -/
def ctrlWord (c : Chip) (p : Page) : Word :=
  let h := hdr c p
  let low := if drainable p then b2n h.enable + 2 * b2n h.drain else 1
  w32 (low + 4 * b2n h.selftest + 8 * b2n h.softReset)

/-- The three copies of BLK_CTRL are equal from now on: a write stores its fields into all of them (R20). -/
def evenCopies (h : BlockHdr) : BlockHdr := { h with odd0 := 0, odd1 := 0, odd2 := 0 }

/-- A write of BLK_CTRL that the guard of R26 has let through (R31): its status and the chip. DEDUCED: a 1 written to
SELFTEST while the block is TESTING is discarded as the TESTING row discards the other fields, with REJECTED_BUSY (log
entry 89). DEDUCED: a write with ENABLE and SELFTEST in OFF or DISABLED starts the self-test and stores ENABLE (log entry
90). -/
def ctrlWrite (c0 : Chip) (p : Page) (m : WMode) (w : Word) : Nat × Chip :=
  let c := setHdr c0 p (evenCopies (hdr c0 p))
  let h := hdr c p
  let old := ctrlWord c p
  let new := wNew m old w
  let ones := wOnes m old w
  let en := bit new 0
  let dr := bit new 1
  let tst := bit ones 2
  let rst := bit ones 3
  let chg := en ≠ h.enable || dr ≠ h.drain
  if !drainable p then
    if rst then (rejBusy, c0)
    else if tst ∧ !h.selftest then (stOK, setHdr c p { h with selftest := true })
    else (stOK, c)
  else if !chg && !tst && !rst then (stOK, c)
  else
    let c1 := setHdr c p { h with enable := en, drain := dr }
    match h.state with
    | .on =>
      if tst || rst then (rejBusy, c0)
      else if dr || !en then (stOK, drainStarts (setState c1 p .draining) p)
      else (stOK, c1)
    | .draining => if tst || rst then (rejBusy, c0) else (stOK, c1)
    | .testing => (rejBusy, c0)
    | .fault => if rst then (stOK, softReset c p) else (rejState, c0)
    | .off =>
      if rst then (stOK, softReset c p)
      else if tst then (stOK, enterTesting c1 p)
      else if p = .ckpt ∧ en ∧ !h.enable ∧ !dr ∧ fld (reg c aCKPT_CFG) 29 24 = 1 then (rejLimit, c0)
      else if en ∧ !h.enable ∧ !dr then
        let r := turnOn c1 p
        (r.1, kick (settle (releaseWaiting r.2)))
      else (stOK, c1)
    | .disabled =>
      if rst then (stOK, softReset c p)
      else if tst then (stOK, enterTesting c1 p)
      else if c.sess.copying ∧ p = .sess then (stOK, c1)
      else if p = .ckpt ∧ en ∧ !dr ∧ fld (reg c aCKPT_CFG) 29 24 = 1 then (rejLimit, c0)
      else if en ∧ !dr then
        let r := turnOn c1 p
        (r.1, kick (settle (releaseWaiting r.2)))
      else (stOK, c1)

end Sys2Proof.Machine
end

