-- ==== Sys2Proof/Machine/Rx.lean ====
section
/-! DEFINITION. Frames that arrive on the two ports and the packets that they bring to XPT (R311, R347, R359, R368,
R443, R477, R496). -/

namespace Sys2Proof.Machine

/-- A packet given as bytes reaches XPT: what the VST command of its TYPE does. A packet that fails a check of R313 is
dropped and counted while XPT counts. -/
def pktRx (c : Chip) (l : Link) (bytes : List Byte) : Chip :=
  match parsePkt bytes with
  | none => if xptCounts c then bump c aXPT_BAD_CRC 1 else c
  | some p =>
    let t := p.typ.toNat
    if t = 1 then rxData c l p (fun c n => assembleAll (writeAccess (settle c) n p) n)
    else if t = 2 then rxData c l p (fun c n => assembleAll (readAccess (settle c) n p) n)
    else if t = 3 then rxData c l p (fun c n => assembleAll (respAccess (settle c) n p) n)
    else if t = 4 then rxData c l p (fun c n => assembleAll (msgAccess c n p) n)
    else if t = 5 then vstAck c l p
    else if t = 6 then vstNak c l p
    else if t = 7 then connectRx c l p
    else if t = 8 then connectAckRx c l p
    else vstClose c l p

/-- The fast domain sleeps or changes state (R493). -/
def asleep (c : Chip) : Bool :=
  decide (c.chip.fast = .nap ∨ c.chip.fast = .deep ∨ c.chip.fast = .waking ∨ c.chip.fast = .entering)

/-- Neither a trip nor a module fault keeps this node from its frames (R443, R477). -/
def nodeServes (c : Chip) : Bool := !c.pwr.tripped && !c.flt.faulted

/-- The fast domain is in NAP or DEEP and no wake has begun (R493). -/
def sleeping (c : Chip) : Bool := decide (c.chip.fast = .nap ∨ c.chip.fast = .deep)

/-- A wake of the sleeping domain begins (R14, R495); FAST_WAKE ends it. -/
def startWake (c : Chip) : Chip :=
  if sleeping c then { c with chip := { c.chip with fast := .waking, wakeFrom := c.chip.fast } } else c

/-- A frame for this node (R347, R359, R364): delivered, held while the chip sleeps, which it wakes, or dropped. -/
def localFrame (c : Chip) (l : List Byte) : Chip :=
  if !nodeServes c ∨ bstate c .peer = .disabled then dropFrame c aPEER_DROP_ROUTE 1
  else if asleep c then
    let c1 := startWake c
    { c1 with peer := { c1.peer with held := c1.peer.held ++ [l] } }
  else pktRx c (peerLink l) (l.drop 8)

/-! ### Egress (R346, R373, R374) -/

/-- Injects a packet into the fabric (R346) and routes its frame (R347): one for this node goes to XPT, and HOPS of every
other falls by 1. -/
def injectPkt (c : Chip) (dst : Nat) (p : Pkt) (ckpt : Bool) (v : Nat) : Chip :=
  let vc := vcOf p ckpt
  let s := localSpray p vc
  let hops := max 0x40 (fld (reg c aPEER_HOP_LIMIT) 7 0)
  let me := fld (reg c aPEER_NODE) 11 0
  if forNode c dst then localFrame c (frameBytes vc (if s then 2 else 0) false s hops dst me (encPkt p))
  else queueFrame c (routeOf c none dst (if s then 2 else 0) s v) vc false false s (hops - 1) dst me (encPkt p)

/-- Sends a queue's head packet. -/
def serveQueue (c : Chip) (q : Nat) (peerOut : Bool) (v : Nat) : Chip :=
  let e := equeue c q
  match e.pkts with
  | [] => c
  | (n, p) :: rest =>
    let tok := if e.shaped && decide (bstate c .egr ≠ .disabled) then e.tokens - 1 else e.tokens
    let c1 := setEqueue c q { e with pkts := rest, tokens := tok }
    let k := b2n peerOut * 8 + fld (regB c q aEGR_Q_CFG) 26 24
    let c2 := { c1 with egr := { c1.egr with last := tset 0 c1.egr.last k ((q + 1) % 512) } }
    let c3 := bumpPair (bumpPairB c2 q aEGR_Q_TX_LO 1) aXPT_TX_PKT_LO 1
    if peerOut then injectPkt c3 (nodeOf c3 n) p (ckptBit c3 n) v
    else hostFrame c3 ((partOfConn c3 n).getD 0) n q (connAddr c3 n) (fld (regB c3 n aXPT_CONN_PORT) 15 0) p

/-- Sends a control packet. -/
def serveControl (c : Chip) (peerOut : Bool) (n : Nat) (k : Option Link) (p : Pkt) (v : Nat) : Chip :=
  let c1 := bumpPair c aXPT_TX_PKT_LO 1
  match k with
  | none =>
    if peerOut then injectPkt c1 (nodeOf c1 n) p false v
    else hostFrame c1 ((partOfConn c1 n).getD 0) n (queueOf c1 n) (connAddr c1 n) (fld (regB c1 n aXPT_CONN_PORT) 15 0) p
  | some l =>
    if peerOut then injectPkt c1 (l.addr.toNat % 4096) p false v
    else hostFrame c1 ((l.hostPart.map (·.toNat)).getD 0) 0 0 l.addr l.port.toNat p

/-- EGRESS_SELECT (R373, R374). -/
def egressSelect (c : Chip) (peerOut : Bool) : Chip :=
  if (if peerOut then peerForwards c else decide (c.host.state = .up)) = false then c
  else
    let (v, c1) := if peerOut then takeFree c else (0, c)
    let lane := if peerOut then c1.egr.ctl1 else c1.egr.ctl0
    let can := fun (x : Nat × Option Link × Pkt) => ctlServed c1 x.1 peerOut &&
      (!peerOut || portTakes c1 (match x.2.1 with
        | some l => l.addr.toNat % 4096
        | none => nodeOf c1 x.1) false 0 v)
    match lane.find? can with
    | some (n, k, p) =>
      let rest := dropFirst can lane
      let c2 := if peerOut then { c1 with egr := { c1.egr with ctl1 := rest } } else { c1 with egr := { c1.egr with ctl0 := rest } }
      serveControl c2 peerOut n k p v
    | none =>
      match nextQueue c1 peerOut v with
      | some q => serveQueue c1 q peerOut v
      | none => c1

/-- EGRESS_SELECT. -/
def execEgressSelect (peerOut : Bool) (s : State) : Host.Outcome State Fault Refusal :=
  act s (fun c => whenAwake c (fun c => egressSelect c peerOut))

/-! ### Frames from the ports -/

/-- The lanes that a port's neighbour may stripe over, in lane order, from the lane on that carries a frame's first
codeword (R344); a lane that the neighbour keeps dark (R358) or swept (R354) carries none. -/
def stripeOrder (x : PeerPort) (first : Nat) : List Nat :=
  let on := (List.range 16).filter (fun l => x.active.getLsbD l)
  on.filter (fun l => first ≤ l) ++ on.filter (fun l => l < first)

/-- A frame reassembled in stripe order: the codewords of a lane in the order they came, a round of lanes at a time
(R344). -/
def reassemble (order : List Nat) (ws : List Codeword) : List Byte :=
  (List.range ws.length).flatMap (fun k => order.flatMap (fun l =>
    (((ws.filter (fun w => w.lane.toNat = l))[k]?).map (·.bytes)).getD []))

/-- FEC_CORR and FEC_UNCORR count the codewords of a frame, each once (R344). -/
def countFec (c : Chip) (p : Nat) (ws : List Codeword) : Chip :=
  let n := fun (f : FecResult) => (ws.filter (fun w => decide (w.fec = f) && !w.shared)).length
  bumpB (bumpB c p aPEER_FEC_CORR (n .corrected)) p aPEER_FEC_UNCORR (n .uncorrectable)

/-- No codeword of a frame is uncorrectable or was on a lane outside the stripe (R344, R355). -/
def frameWhole (order : List Nat) (ws : List Codeword) : Bool :=
  ws.all (fun w => decide (w.fec ≠ .uncorrectable) && decide (w.lane.toNat ∈ order))

/-- A frame that arrived whole: delivered, dropped, or routed on. -/
def peerFrame (c : Chip) (p : Nat) (l : List Byte) : Chip :=
  if !frameOk l then dropFrame c aPEER_DROP_ROUTE 1
  else if frameForUs c l then localFrame c l
  else transitFrame c p l

/-- PEER_FRAME_RX: a frame that the FEC lost is dropped (R344). -/
def peerFrameRx (c : Chip) (p first : Nat) (ws : List Codeword) : Chip :=
  let order := stripeOrder (pport c p) first
  if !peerForwards c ∨ !portUp c p then c
  else if frameWhole order ws = false then countFec c p ws
  else peerFrame (countFec c p ws) p (reassemble order ws)

/-- PEER_FRAME_RX. -/
def execPeerFrameRx (port : PortId) (first : BitVec 4) (words : List Codeword) (s : State) :
    Host.Outcome State Fault Refusal :=
  act s (fun c => whenLinked c (fun c => peerFrameRx c port.toNat first.toNat words))

/-- Bytes of the host frames that wait in the receive buffer (R496). -/
def hostHeldBytes (c : Chip) : Nat := (c.host.held.map (fun l => l.length)).sum

/-- FEC_CORR and FEC_UNCORR of the host port count the codewords of a frame (R379). -/
def hostFec (c : Chip) (l : List FecResult) : Chip :=
  bump (bump c aHOST_FEC_CORR (l.filter (fun f => decide (f = .corrected))).length) aHOST_FEC_UNCORR
    (l.filter (fun f => decide (f = .uncorrectable))).length

/-- A frame that the FEC has delivered: while the chip sleeps a VST frame wakes it and waits in the 4 MiB receive buffer;
under a trip or a module fault only ARP is answered. -/
def hostFrameIn (c : Chip) (l : List Byte) (fcsOk : Bool) : Chip :=
  if !nodeServes c then
    match hostClass c l with
    | .arp _ => (hostRx c l fcsOk).2
    | _ => c
  else
    match hostRx c l fcsOk with
    | (none, c1) => c1
    | (some (k, b), c1) =>
      if asleep c then
        let c2 := startWake c1
        if 4194304 < hostHeldBytes c2 + l.length then raise (bump c2 aHOST_RX_FULL 1) .host 21
        else { c2 with host := { c2.host with held := c2.host.held ++ [l] } }
      else pktRx c1 k b

/-- HOST_FRAME_RX: the FEC's codewords are counted, and one that it cannot correct leaves no valid FCS (log entry 126). -/
def hostFrameRx (c : Chip) (l : List Byte) (fcsOk : Bool) (fec : List FecResult) : Chip :=
  if hostReceives c then hostFrameIn (hostFec c fec) l (fcsOk && fec.all (fun f => decide (f ≠ .uncorrectable))) else c

/-- HOST_FRAME_RX. -/
def execHostFrameRx (frame : List Byte) (fcsOk : Bool) (fec : List FecResult) (s : State) :
    Host.Outcome State Fault Refusal :=
  act s (fun c => whenLinked c (fun c => hostFrameRx c frame fcsOk fec))

/-- The frames that waited through a sleep reach XPT in the order they came (R359, R496). -/
def deliverHeld (c : Chip) : Chip :=
  let p := c.peer.held
  let h := c.host.held
  let c1 : Chip := { c with peer := { c.peer with held := [] }, host := { c.host with held := [] } }
  let c2 := p.foldl (fun c l => pktRx c (peerLink l) (l.drop 8)) c1
  h.foldl (fun c l =>
    match hostClass c l with
    | .vst _ k b => pktRx c k b
    | _ => c) c2

end Sys2Proof.Machine
end

