-- ==== Sys2Proof/Machine/Boot.lean ====
section
/-! DEFINITION. Supplies, resets, sleep and module faults (R477, R485, R489-R499, R508, R523, R527): everything but the
power-up sequence itself, which needs register writes. -/

namespace Sys2Proof.Machine

/-! ### What a reset keeps (R491) -/

/-- Registers that hold a value since manufacture: fuses, the device's own numbers, and counts over the module's
life. -/
def factoryRegs : List Nat :=
  [aSEC_ROLLBACK, aSEC_KEY_REVOKE, aSEC_DEVICE_ID_LO, aSEC_DEVICE_ID_HI, aHOST_BASE_MAC_LO, aHOST_BASE_MAC_HI,
    aFLASH_DIE_LOST_LO, aFLASH_DIE_LOST_HI, aFLASH_OWNER_BYTES_LO, aFLASH_OWNER_BYTES_HI, aFLASH_MEDIA_BYTES_LO,
    aFLASH_MEDIA_BYTES_HI, aFLASH_READ_BYTES_LO, aFLASH_READ_BYTES_HI, aFLASH_WEAR, aFLASH_UNCORR_CNT,
    aFLASH_RETRY_CNT, aFLASH_PROGFAIL_CNT, aFLASH_RETIRED_CNT]

/-- Flash after a loss of power (R132, R491): durable objects stay; an extent that was open is closed, and the target of
a copy that was not complete is erased. -/
def flashKept (f : FlashUnit) : FlashUnit :=
  { f with
    writes := [], resetDies := [], heads := [], mapReady := false, scanned := false, heldFrees := []
    extents := f.extents.map (fun e =>
      if e.2.state = .open ∧ e.2.copyTo.isSome then
        (e.1, { e.2 with state := .erasing, lext := none, copyTo := none, records := [], copyDue := false })
      else if e.2.state = .open then (e.1, { e.2 with state := .closed, copyTo := none })
      else (e.1, { e.2 with copyTo := none, copyDue := e.2.copyDue || e.2.copyTo.isSome })) }

/-- A reset (R491): `minuet` tells whether the minuet domain keeps its registers, `cause` is the row of R491. GDDR7 is
lost; flash, the boot NOR and the black box are kept; an update that is cut off may have erased its bank. BOOT_CFG is loaded from the boot record (R509). -/
def resetChip (c : Chip) (minuet : Bool) (cause : Nat) : Chip :=
  let z := Chip.reset
  let keep := fun (e : Nat × Word) => decide (e.1 % bankStride ∈ factoryRegs) ||
    (minuet && minuetPage (pageOf (keyPage e.1)))
  let lasers := fld (reg c aPEER_LASER) 15 8
  let trips := fld (reg c aPWR_TRIP) 31 16
  let scan := c.tap.instr
  let tapKept := { c.tap with instr := if scan = .extest ∨ scan = .intest ∨ scan = .clamp ∨ scan = .highz then .idcode else scan }
  let (cut, c0) := takeFree c
  let kept := if c.chip.updating ∧ cut % 2 = 1 then (norErase c (bankBase (!c.chip.bank)) bankBytes).chip.nor else c.chip.nor
  let c1 : Chip :=
    { z with
      variant := c.variant
      mgmt := { z.mgmt with
        regs := c.mgmt.regs.filter keep
        copy1 := c.mgmt.copy1.filter keep
        copy2 := c.mgmt.copy2.filter keep
        blocks := if minuet then c.mgmt.blocks.filter (fun b => minuetPage (pageOf b.1)) else []
        sideband := if minuet then c.mgmt.sideband else ReqState.empty
        acc := c.mgmt.acc }
      smb := if minuet then c.smb else { z.smb with strap := c.smb.strap, nacking := c.smb.nacking }
      flash := flashKept c.flash
      pwr := if minuet then c.pwr else { z.pwr with tripped := decide (cause = 1) && c.pwr.tripped }
      sec := { z.sec with everDebug := decide (cause ≠ 0) && c.sec.everDebug }
      flt := if minuet then { c.flt with faulted := false, modulePending := false, chipPending := false }
        else { z.flt with slots := c.flt.slots, boots := c.flt.boots, faulted := decide (cause = 1) && c.flt.faulted }
      chip := { z.chip with
        mainMv := c.chip.mainMv, auxMv := c.chip.auxMv, inputOpen := c.chip.inputOpen, lossSeen := c.chip.lossSeen
        nor := kept, prefer := c.chip.prefer, bootOverlay := c.chip.bootOverlay, bank := c.chip.bank
        inForce := c.chip.bootOverlay
        lastBundle := c.chip.lastBundle, inReset := c.chip.inReset, resetCause := cause
        xtalOk := decide (cause ≠ 0) && c.chip.xtalOk }
      tap := if cause = 0 then z.tap else tapKept
      free := c0.free
      now := if cause = 0 then 0 else c.now
      fineNow := c.fineNow }
  let c2 := setFld (setFld (setFld c1 aPEER_LASER 15 8 lasers) aPWR_TRIP 31 16 trips) aFLASH_STATUS 3 3
    (fld (reg c aFLASH_STATUS) 3 3)
  if minuet then c2 else setReg c2 aCHIP_BOOT_CFG (w32 (b2n c.chip.prefer + 256 * c.chip.bootOverlay))

/-- Loss of the main supply while the auxiliary supply stays good (R491). -/
def mainLoss (c : Chip) : Chip := resetChip c true 2

/-! ### Supplies (R485, R489, R523) -/

/-- SUPPLY_CHANGE: the minuet domain starts when the auxiliary supply reaches 3.135 V and samples the straps (R489,
R525; the value at the pins is free); below 60 V the input stage closes (R523). -/
def supplyChange (c : Chip) (main aux : Nat) : Chip :=
  let was := minuetOn c
  let c1 : Chip := { c with chip := { c.chip with
    mainMv := main
    auxMv := aux
    inputOpen := c.chip.inputOpen && decide (60000 ≤ main)
    lossSeen := c.chip.lossSeen && !decide (40000 ≤ main ∧ 3135 ≤ aux) } }
  if !was ∧ minuetOn c1 then
    let (v, c2) := takeFree c1
    let c3 := resetChip c2 false 0
    { c3 with
      smb := { c3.smb with strap := BitVec.ofNat 2 v, nacking := false }
      chip := { c3.chip with lossSeen := decide (main < 38000), inReset := false } }
  else c1

/-- SUPPLY_CHANGE. -/
def execSupplyChange (mainMv auxMv : Nat) (s : State) : Host.Outcome State Fault Refusal :=
  act s (fun c => supplyChange c mainMv auxMv)

/-- POWER_LOSS (R475 class 0x15, R485): the report, the KIND 4 record, and the reset. -/
def powerLoss (c : Chip) : Chip :=
  if c.chip.lossSeen ∨ !(decide (c.chip.mainMv < 38000) || decide (c.chip.auxMv < 3000)) then c
  else
    let c1 := bbPlain (fault c 0x15 .pwr 0 0 false) 4 0
    mainLoss { c1 with chip := { c1.chip with lossSeen := true } }

/-- POWER_LOSS. -/
def execPowerLoss (s : State) : Host.Outcome State Fault Refusal := act s powerLoss

/-- MAIN_OVERVOLTAGE (R523). -/
def mainOvervoltage (c : Chip) : Chip :=
  if c.chip.inputOpen ∨ c.chip.mainMv ≤ 62000 then c
  else
    let c1 := bbPlain c 4 0
    mainLoss { c1 with chip := { c1.chip with inputOpen := true } }

/-- MAIN_OVERVOLTAGE. -/
def execMainOvervoltage (s : State) : Host.Outcome State Fault Refusal :=
  act s (fun c => whenMinuet c mainOvervoltage)

/-! ### RESET_N and the crystal (R491, R492, R508, R527) -/

/-- RESET_INPUT: the module is reset and NACKs its address while RESET_N is low. A trip and a module fault end only as
R444 and R478 say (log entry 71). -/
def resetInput (c : Chip) : Chip :=
  let c1 := resetChip c false 1
  { c1 with
    smb := { c1.smb with nacking := true, addr := 0, reply := [], lastStatus := 0 }
    chip := { c1.chip with inReset := true } }

/-- RESET_INPUT. -/
def execResetInput (s : State) : Host.Outcome State Fault Refusal := act s (fun c => whenMinuet c resetInput)

/-- RESET_N_RELEASE (R525, R527): the straps are sampled again. The up to 1 ms of further NACKs are not modelled (log
entry 71). -/
def execResetNRelease (addr : BitVec 2) (s : State) : Host.Outcome State Fault Refusal :=
  act s (fun c => whenMinuet c (fun c =>
    if c.chip.inReset then
      { c with
        smb := { c.smb with strap := addr, nacking := false }
        chip := { c.chip with inReset := false } }
    else c))

/-- XTAL_STABLE (R492). -/
def execXtalStable (s : State) : Host.Outcome State Fault Refusal :=
  act s (fun c => whenMinuet c (fun c => { c with chip := { c.chip with xtalOk := true } }))

/-- XTAL_FAIL (R508). -/
def execXtalFail (s : State) : Host.Outcome State Fault Refusal :=
  act s (fun c => whenMinuet c (fun c =>
    if c.chip.xtalOk then raise { c with chip := { c.chip with xtalOk := false } } .clk 18 else c))

/-! ### Sleep (R493-R497) -/

/-- MAX_STATE of SLEEP_CFG: 3 acts as 2. -/
def maxSleep (c : Chip) : Nat := min 2 (fld (reg c aCLK_SLEEP_CFG) 1 0)

/-- The conditions of R494 for sleep, but for their duration. -/
def idleChip (c : Chip) : Bool :=
  allPages.all (fun p => !drainable p ||
    (decide (inflightCount c p = 0) && decide (bstate c p ≠ .draining ∧ bstate c p ≠ .testing))) &&
    c.fig.waiting.isEmpty && c.fig.committed.isEmpty && !c.tier.sweeping && c.peer.sweep.isNone && !c.host.sweeping &&
    c.chip.testing.isEmpty && !c.chip.updating && !bit (reg c aCLK_CTRL) 1

/-- NAP_ENTRY. -/
def napEntry (c : Chip) : Chip :=
  if c.chip.fast = .run ∧ 1 ≤ maxSleep c ∧ idleChip (settle c) ∧ c.chip.bootDone = true then
    let c1 := settle c
    { c1 with chip := { c1.chip with fast := .nap } }
  else c

/-- NAP_ENTRY. -/
def execNapEntry (s : State) : Host.Outcome State Fault Refusal := act s (fun c => whenAwake c napEntry)

/-- DEEP_ENTRY: core stores and program stores lose their contents (R493). -/
def deepEntry (c : Chip) : Chip :=
  if c.chip.fast = .nap ∧ maxSleep c = 2 ∧ idleChip c then
    let c1 := bump c aCLK_DEEP_CNT 1
    let cores := c1.grid.cores.map (fun k =>
      (k.1, { k.2 with store := [], fill := c1.free + 1, paramFill := 0, programs := [] }))
    { c1 with
      free := c1.free + 1
      grid := { c1.grid with cores := cores }
      chip := { c1.chip with fast := .deep } }
  else c

/-- DEEP_ENTRY. -/
def execDeepEntry (s : State) : Host.Outcome State Fault Refusal := act s (fun c => whenMinuet c deepEntry)

/-- The bound of a wake in us (R493). -/
def wakeBound (f : FastState) : Nat := if f = .nap then 2 else 150

/-- The state whose bound a wake has: the one that the domain is in, or was in when the wake began. -/
def wakeState (c : Chip) : FastState := if c.chip.fast = .waking then c.chip.wakeFrom else c.chip.fast

/-- A wake to RUN: its cause, its duration, and the frames that waited (R495, R496). -/
def wakeFast (c : Chip) (cause us : Nat) : Chip :=
  if asleep c then
    let late := decide (wakeBound (wakeState c) < us)
    let c1 := setReg (bump c aCLK_WAKE_CNT 1) aCLK_LAST_WAKE (w32 (us % 2 ^ 16 * 2 ^ 16 + cause % 2 ^ 8))
    let c2 : Chip := { c1 with chip := { c1.chip with fast := .run, wakeFrom := .off } }
    deliverHeld (if late then raise c2 .clk 16 else c2)
  else c


/-- PLL_RELOCK (R475 class 0x12): relocked, or the same fault again at level 3. -/
def execPllRelock (inTime : Bool) (s : State) : Host.Outcome State Fault Refusal :=
  act s (fun c => whenMinuet c (fun c =>
    if inTime then raise c .clk 17 else fault c 0x12 .clk 0 0 true))

/-! ### Module faults (R477) -/

/-- MODULE_FAULT: every fast-domain page except PEER and HOST goes to FAULT, GDDR7 is abandoned, the KIND 3 record is
written. No event frame of it leaves. -/
def moduleFault (c : Chip) : Chip :=
  if c.flt.modulePending = false then c
  else
    let c0 : Chip := { c with flt := { c.flt with modulePending := false, chipPending := false, faulted := true } }
    let pages := allPages.filter (fun p => !minuetPage p && decide (p ≠ .peer ∧ p ≠ .host))
    let c1 := pages.foldl (fun c p =>
      let h := hdr c p
      setHdr c p { h with state := .fault, int := h.int ||| 1 }) c0
    let r := c1.flt.reports.find? (fun x => decide (x.level = 3 ∧ x.cls ≠ 0x15))
    let c2 : Chip := { c1 with mem := [] }
    match r with
    | some x => bbRecord c2 3 x.cls 3 x.page x.info x.addr 0
    | none => bbRecord c2 3 0 3 0 0 0 0

/-- MODULE_FAULT. -/
def execModuleFault (s : State) : Host.Outcome State Fault Refusal := act s (fun c => whenMinuet c moduleFault)

/-! ### JTAG (R463, R527, R528) -/

/-- The boundary register samples the management connector's 14 signal contacts in contact order: contacts 3 and 4 as
the module drives them, 5 RESET_N, 6 and 7 the straps, 8 PRESENT_N low, 14 AUX_GOOD; the others are open (log entry 72). -/
def boundarySample (c : Chip) (v : Nat) : BitVec 14 :=
  let p : Pins := { alertLow := alertOn c, tripLow := c.pwr.tripped, auxGood := true }
  let fixed := b2n (!p.alertLow) * 4 + b2n (!p.tripLow) * 8 + b2n (!c.chip.inReset) * 16 + c.smb.strap.toNat * 32 +
    b2n p.auxGood * 2 ^ 13
  BitVec.ofNat 14 (Nat.lor fixed (Nat.land v 0x1F03))

/-- The TAP takes an instruction that only chip-wide debug admits; otherwise BYPASS is loaded (R463). -/
def tapDebug (c : Chip) (i : TapInstr) : Chip :=
  { c with tap := { c.tap with instr := if c.sec.chipDebug then i else .bypass } }

/-- JTAG_TRST: Test-Logic-Reset, which selects IDCODE. -/
def execJtagTrst (s : State) : Host.Outcome State Fault Refusal :=
  act s (fun c => whenMinuet c (fun c => { c with tap := { c.tap with instr := .idcode } }))

/-- JTAG_IDCODE. -/
def execJtagIdcode (s : State) : Host.Outcome State Fault Refusal :=
  act s (fun c => whenMinuet c (fun c => { c with tap := { c.tap with instr := .idcode, captured := 0x194005D3 } }))

/-- JTAG_BYPASS: the bypass register captures 0. -/
def execJtagBypass (s : State) : Host.Outcome State Fault Refusal :=
  act s (fun c => whenMinuet c (fun c => { c with tap := { c.tap with instr := .bypass, captured := 0 } }))

/-- JTAG_SAMPLE_PRELOAD: the pins are captured and the boundary register is preloaded. -/
def execJtagSamplePreload (preload : BitVec 14) (s : State) : Host.Outcome State Fault Refusal :=
  act s (fun c => whenMinuet c (fun c =>
    let (v, c1) := takeFree c
    { c1 with tap := { instr := .samplePreload, boundary := preload, captured := (boundarySample c1 v).setWidth 32 } }))

/-- JTAG_EXTEST: the boundary register drives the pins from then on. -/
def execJtagExtest (s : State) : Host.Outcome State Fault Refusal :=
  act s (fun c => whenMinuet c (fun c => tapDebug c .extest))

/-- JTAG_INTEST. -/
def execJtagIntest (s : State) : Host.Outcome State Fault Refusal :=
  act s (fun c => whenMinuet c (fun c => tapDebug c .intest))

/-- JTAG_CLAMP. -/
def execJtagClamp (s : State) : Host.Outcome State Fault Refusal :=
  act s (fun c => whenMinuet c (fun c => tapDebug c .clamp))

/-- JTAG_HIGHZ. -/
def execJtagHighz (s : State) : Host.Outcome State Fault Refusal :=
  act s (fun c => whenMinuet c (fun c => tapDebug c .highz))

end Sys2Proof.Machine
end

