-- ==== Sys2Proof/Machine/Check.lean ====
section
/-! DEFINITION. Checked validation (R535): layer tables (R191, R196, R216), vocabularies (R271), grammars (R278) and
search indexes (R387), from the write of VALID to the end of the check. -/

namespace Sys2Proof.Machine

/-! ### What sessions name -/

/-- A session that is not FREE names the slot (R196, R272). -/
def slotNamed (c : Chip) (slot : Nat) : Bool :=
  c.sess.entries.any (fun e => decide (e.2.state ≠ .free) && decide (e.2.model = slot))

/-- A GENERATE in progress or queued drafts on the slot (R266). -/
def slotDrafts (c : Chip) (slot : Nat) : Bool :=
  c.sess.ops.any (fun e => e.2.any (fun o =>
    match genReq o with
    | some g => srcDraft g.spec && decide (g.spec.draftSlot.toNat = slot)
    | none => false))

/-- A session that is not FREE names the grammar (R278). -/
def gramNamed (c : Chip) (g : Nat) : Bool :=
  c.sess.entries.any (fun e => decide (e.2.state ≠ .free) && decide (e.2.grammar = g))

/-! ### Layer tables -/

/-- KV_HEADS of a descriptor is in the range of its KIND (R195). -/
def headsOk (d : List Byte) : Bool :=
  if ldKind d = 0 then decide (1 ≤ ldHeads d ∧ ldHeads d ≤ 64)
  else if ldKind d = 1 then decide (ldHeads d = 1)
  else decide (ldHeads d = 0)

/-- AUX of a descriptor is in the range of its KIND (R195, R216). -/
def auxOk (d : List Byte) : Bool :=
  if ldKind d = 1 then decide (ldAux d < gddrSize)
  else if ldKind d = 2 then
    decide (64 ≤ ldAux d % 2 ^ 32 ∧ ldAux d % 2 ^ 32 ≤ 524288 ∧ ldAux d < 2 ^ 48)
  else decide (ldAux d = 0)

/-- A descriptor that passes the check of R196: every field of every KIND inside the limits of R191, R195 and R216.
WINDOW is in use, and checked, when FLAGS.WINDOW is 1 (log entry 73). -/
def layerDescOk (d : List Byte) : Bool :=
  let latent := ldKind d = 1
  decide (ldKind d ≤ 3) && decide (ldFlags d < 8) && headsOk d && auxOk d &&
    decide (1 ≤ ldQ d ∧ ldQ d ≤ 32 ∧ ldHeads d * ldQ d ≤ 256) &&
    decide (16 ≤ ldDim d ∧ ldDim d ≤ 512 ∧ ldDim d % 16 = 0) &&
    decide (ldRope d % 2 = 0 ∧ ldRope d ≤ (if latent then 2 else 1) * ldDim d) &&
    (!nbit (ldFlags d) 0 || decide (1 ≤ ldWindow d ∧ ldWindow d ≤ 4194304)) &&
    (latent || !nbit (ldFlags d) 2) &&
    (if nbit (ldFlags d) 1 then decide (ldTable d < gddrSize) else decide (ldTable d = 0))

/-- BF16 tail bytes of 128 positions over the first layers of a table. -/
def tailsUpTo (l : List (List Byte)) (n : Nat) : Nat :=
  128 * (((l.take n).filter isAttn).map (fun d => ldHeads d * ldDim d * 4)).sum

/-- The first layer that fails the check of R196: its own descriptor, or the layer at which the tails pass a quarter of
the staging pool (R216); layer 0 when no layer is attention and some layer is not of KIND 3 (log entry 73). -/
def badLayer (c : Chip) (slot : Nat) : Option Nat :=
  let l := layerTableAt c slot
  let own := (List.range l.length).find? (fun i =>
    !layerDescOk (l.getD i []) || decide (stageSize c / 4 < tailsUpTo l (i + 1)))
  match own with
  | some i => some i
  | none => if l.any isAttn || l.all (fun d => decide (ldKind d = 3)) then none else some 0

/-- The check of a layer table begins (R535). -/
def modelCheckStart (c : Chip) (slot : Nat) : Chip :=
  setFld { c with checks := { c.checks with model := some slot } } aATTN_MODEL_STAT 7 0 rejBusy

/-- MODEL_CHECK_DONE. -/
def modelCheckDone (c : Chip) : Chip :=
  match c.checks.model with
  | none => c
  | some slot =>
    let c1 : Chip := { c with checks := { c.checks with model := none } }
    match badLayer c1 slot with
    | some i => raise (setReg c1 aATTN_MODEL_STAT (w32 (i * 2 ^ 8 + rejLimit))) .attn 17
    | none =>
      let c2 := setFldB (setReg c1 aATTN_MODEL_STAT (w32 stOK)) slot aATTN_MODEL_CTRL 0 0 1
      let c3 : Chip := { c2 with checks := { c2.checks with
        layerImg := tins c2.checks.layerImg slot (layerTableAt c2 slot).flatten } }
      raise { c3 with checks := { c3.checks with tableImg := tset [] c3.checks.tableImg slot (ropeCells c3 slot) } } .attn 16

/-- MODEL_CHECK_DONE. -/
def execModelCheckDone (s : State) : Host.Outcome State Fault Refusal :=
  act s (fun c => whenAwake c (fun c => modelCheckDone (settle c)))

/-- MODEL_CTRL.VALID written 0. -/
def modelInvalid (c : Chip) (slot : Nat) : Chip :=
  let c1 : Chip := { c with checks := { c.checks with
    layerImg := tdel c.checks.layerImg slot, tableImg := tdel c.checks.tableImg slot } }
  if modelValid c slot then raise (setFldB c1 slot aATTN_MODEL_CTRL 0 0 0) .attn 16 else c1

/-! ### Vocabularies -/

/-- The check of a vocabulary begins. -/
def vocabCheckStart (c : Chip) (slot : Nat) : Chip :=
  setFld { c with checks := { c.checks with vocab := some slot } } aTEXT_VOCAB_STAT 7 0 rejBusy

/-- VOCAB_CHECK_DONE. -/
def vocabCheckDone (c : Chip) : Chip :=
  match c.checks.vocab with
  | none => c
  | some slot =>
    let c1 : Chip := { c with checks := { c.checks with vocab := none } }
    if vocabCheckOk c1 slot then
      let c2 := setFldB (setFld c1 aTEXT_VOCAB_STAT 7 0 stOK) slot aTEXT_VOCAB_CTRL 0 0 1
      { c2 with checks := { c2.checks with
        vocabImg := tins c2.checks.vocabImg slot (if vocabMode c2 slot then vocabBytes c2 (vocabAddr c2 slot) else []) } }
    else raise (setFld c1 aTEXT_VOCAB_STAT 7 0 rejLimit) .text 17

/-- VOCAB_CHECK_DONE. -/
def execVocabCheckDone (s : State) : Host.Outcome State Fault Refusal :=
  act s (fun c => whenAwake c (fun c => vocabCheckDone (settle c)))

/-- VOCAB_CTRL.VALID written 0. -/
def vocabInvalid (c : Chip) (slot : Nat) : Chip :=
  setFldB { c with checks := { c.checks with vocabImg := tdel c.checks.vocabImg slot } } slot aTEXT_VOCAB_CTRL 0 0 0

/-! ### Grammars -/

/-- The check of a grammar begins. -/
def gramCheckStart (c : Chip) (g : Nat) : Chip :=
  setFld { c with checks := { c.checks with gram := some g } } aTEXT_GRAM_STAT 7 0 rejBusy

/-- GRAM_CHECK_DONE. -/
def gramCheckDone (c : Chip) : Chip :=
  match c.checks.gram with
  | none => c
  | some g =>
    let c1 : Chip := { c with checks := { c.checks with gram := none } }
    if gramCheckOk c1 g then
      let c2 := setFldB (setFld c1 aTEXT_GRAM_STAT 7 0 stOK) g aTEXT_GRAM_CTRL 0 0 1
      { c2 with checks := { c2.checks with gramImg := tins c2.checks.gramImg g (gramBytes c2 g) } }
    else raise (setFld c1 aTEXT_GRAM_STAT 7 0 rejLimit) .text 18

/-- GRAM_CHECK_DONE. -/
def execGramCheckDone (s : State) : Host.Outcome State Fault Refusal :=
  act s (fun c => whenAwake c (fun c => gramCheckDone (settle c)))

/-- GRAM_CTRL.VALID written 0. -/
def gramInvalid (c : Chip) (g : Nat) : Chip :=
  setFldB { c with checks := { c.checks with gramImg := tdel c.checks.gramImg g } } g aTEXT_GRAM_CTRL 0 0 0

/-! ### Search indexes -/

/-- A check of the index runs. -/
def ixChecking (c : Chip) (x : Nat) : Bool := decide (x ∈ c.checks.index)

/-- The check of an index begins. -/
def ixCheckStart (c : Chip) (x : Nat) : Chip :=
  setRegB { c with checks := { c.checks with index := c.checks.index ++ [x] } } x aSRCH_IDX_STAT (w32 rejBusy)

/-- IDX_CHECK_DONE: the counts of the index begin at 0 as it becomes valid (R405). -/
def idxCheckDone (c : Chip) (x : Nat) : Chip :=
  if ixChecking c x = false then c
  else
    let c1 : Chip := { c with checks := { c.checks with index := c.checks.index.filter (fun y => y ≠ x) } }
    let st := ixCheck c1 x
    let c2 := setRegB c1 x aSRCH_IDX_STAT (w32 st)
    if st ≠ stOK then c2
    else
      let c3 := setRegB (setRegB (setFldB c2 x aSRCH_IDX_CTRL 0 0 1) x aSRCH_IDX_REPAIRED 0) x aSRCH_IDX_DELETED 0
      { c3 with srch := { c3.srch with repairNext := tdel c3.srch.repairNext x } }

/-- IDX_CHECK_DONE. -/
def execIdxCheckDone (index : BitVec 4) (s : State) : Host.Outcome State Fault Refusal :=
  act s (fun c => whenAwake c (fun c => idxCheckDone (settle c) index.toNat))

end Sys2Proof.Machine
end

