-- ==== Sys2Proof/Machine/ChipFault.lean ====
section
/-! DEFINITION. A chip fault (R52, R82, R83, R236): every step stops, FIG recovers, every session operation ends with
ABORTED_CHIP_FAULT, and SCHED resumes forming. -/

namespace Sys2Proof.Machine

/-- A figure of CUT, SEC or XPT that carries on after recovery (R307, R327, R451): the state changes of a cut-in that
stands in its records, the discards of a purge, and REGION_SET actions that no request waits for. -/
def survivesFault (c : Chip) (f : Figure) : Bool :=
  let fresh := f.after.any (fun a =>
    match a with
    | .takeIndex _ => true
    | .opUpdate _ _ => true
    | _ => false)
  match f.origin with
  | .cutIn => !fresh
  | .transport =>
    f.subjects.all (fun s =>
      match s with
      | .region i => (region c i).landing || decide ((region c i).state = .draining) || decide (16384 ≤ (region c i).replyConn)
      | _ => true) && !f.after.any (fun a =>
      match a with
      | .takeRegion _ => true
      | _ => false)
  | .step => false
  | .session => false
  | .overlay => false
  | .checkpoint => false

/-- A figure that carries on ends no operation: all of them end with the fault. -/
def withoutOps (f : Figure) : Figure :=
  { f with after := f.after.filter (fun a =>
      match a with
      | .send _ (.comp _) => false
      | .send _ (.out _) => false
      | .opDone _ _ => false
      | .opTrim _ => false
      | .opFig _ => false
      | _ => true) }

/-- Recovery's first step (R82): every open figure becomes void. No abort record is written, so FIG.ABORT_CNT stands. -/
def voidOpen (c : Chip) : Chip :=
  let gone := c.fig.waiting.filter (fun f => !survivesFault c f)
  let kept := (c.fig.waiting.filter (survivesFault c)).map withoutOps
  let c1 : Chip := { c with fig := { c.fig with waiting := kept } }
  gone.foldl (fun c f => if f.origin = .checkpoint then abandonShard c else voidFigure c f stAbortFault) c1

/-- A session named by a figure that cannot be reapplied becomes DAMAGED (R83). -/
def damageNamed (c : Chip) (i : Nat) : Chip :=
  let e := entry c i
  if e.state = .damaged then c
  else
    let part := if e.state = .free then (partOfIdx c i).getD 0 else e.part
    openFig c (sessFig c i { e with state := .damaged, part := part } [] [.intEvent .sess 16])

/-- What an unreadable intent does to SUBJECT0 where it is no session (R83): the region is revoked, the base image is
applied again, the shard counts as absent. -/
def hurtSubject (k : Committed) (c : Chip) (s : Subject) : Chip :=
  match s with
  | .session _ => c
  | .region i =>
    if (region c i).state = .active then revokeRegion c i 16384 0
    else if (region c i).state = .draining then c
    else applyAct c k.seq k.fig (.regionSet false .free)
  | .config => { c with chip := { c.chip with overlays := c.chip.overlays ++ [0] } }
  | .checkpoint => k.fig.acts.foldl (fun c a =>
      match a with
      | .ckptCommit _ g => setReg c (genReg g) (w32 noEpoch)
      | _ => c) c

/-- Sessions that a figure names. -/
def namedSessions (f : Figure) : List Nat :=
  f.subjects.filterMap (fun s =>
    match s with
    | .session i => some i
    | _ => none)

/-- The sessions that become DAMAGED by a figure that cannot be reapplied: those it names, when SUBJECT0 is one (R83). -/
def hurtSessions (k : Committed) : List Nat :=
  match k.fig.subjects with
  | .session _ :: _ => namedSessions k.fig
  | _ => []

/-- A committed figure leaves the log without being applied. -/
def skipOne (c : Chip) (k : Committed) (r : List Committed) : Chip :=
  { c with fig := { c.fig with
    committed := r
    applied := k.seq
    logUsed := c.fig.logUsed - k.units
    logTail := (c.fig.logTail + k.units) % 32768
    staged := c.fig.staged - k.fig.staged } }

/-- The replay of R82: committed figures not yet applied are reapplied in FIG_SEQ order, but for those whose intent
record is unreadable, and those whose commit record fails its CRC: these are no commits and vanish (R71, R83). Answers
the figures reapplied and those with an unreadable intent. -/
def replayN : Nat → List Nat → List Nat → Chip × Nat × List Committed → Chip × Nat × List Committed
  | 0, _, _, x => x
  | n + 1, gone, bad, (c, done, hurt) =>
    match c.fig.committed with
    | [] => (c, done, hurt)
    | k :: r =>
      if k.seq ∈ gone then
        replayN n gone bad ((skipOne c k r |> fun c => k.fig.acts.foldl (voidAct (takesIndex k.fig)) c), done, hurt)
      else if k.seq ∈ bad then replayN n gone bad (skipOne c k r, done, hurt ++ [k])
      else replayN n gone bad (applyOne c, done + 1, hurt)

/-- FIG.REPLAY and FIG.REPLAY_TIME, and the events of a recovery. -/
def replayRecord (c : Chip) (done : Nat) (damage : Bool) (time : Nat) : Chip :=
  let c1 := setReg c aFIG_REPLAY (w32 (b2n damage * 65536 + min done 65535))
  raises (setReg c1 aFIG_REPLAY_TIME (w32 time)) ([(.fig, 16)] ++ (if damage then [(.fig, 18)] else []))

/-- Searches, deletes, index loads and waiting attestations end too: R52 excepts only REGISTER and REVOKE. -/
def endOther (c : Chip) : Chip :=
  let c1 := endSearches c (fun _ => true) stAbortFault
  let c2 := c1.srch.loads.foldl (fun c l =>
    answerSearch (cancelWrite { c with srch := { c.srch with loads := c.srch.loads.filter (fun x => x.write ≠ l.write) } }
      l.write) l.conn 0x22 l.index l.tag stAbortFault 0) c1
  let waiting := c2.sec.attest
  waiting.foldl (fun c q => sendMsg c q.conn 2 (attestShort ((partOfConn c q.conn).getD 0) q.tag stAbortFault))
    { c2 with sec := { c2.sec with attest := [] } }

/-- Every session operation ends (R52), revivals stop, and a conversion starts again at the first group without a
BLOCK_REF (R302). -/
def endLost (c : Chip) : Chip :=
  let c1 := (c.sess.ops.map (·.1)).foldl (fun c i => endAllOps c stAbortFault i) c
  let c2 := (c1.tier.revivals.map (·.idx)).foldl abandonRevival (endOther c1)
  { c2 with
    sess := { c2.sess with bodies := c2.sess.bodies.map (fun b =>
      if (entry c2 b.1).state = .ended then b else (b.1, { b.2 with secure := false, ckptWait := 0 })) }
    cuts := c2.cuts.map (fun r => if r.state = .converting then { r with state := .handoffIn } else r) }

/-- The recovery from a chip fault: t1 to t3 of R236. -/
def recoverChip (c : Chip) (lost unreadable : List Nat) (time : Nat) : Chip :=
  let c0 : Chip := { c with flt := { c.flt with chipPending := false }, sched := { c.sched with stopped := true } }
  let c1 := parts8.foldl (fun c p => dropStep c p none) c0
  let c3 := (c1.grid.cores.map (·.1)).foldl (stopCore true) c1
  let (c4, done, hurt) := replayN (c3.fig.committed.length) lost unreadable (voidOpen c3, 0, [])
  let c5 := hurt.foldl (fun c k => (k.fig.subjects.take 1).foldl (hurtSubject k) c) c4
  let c6 := endLost (replayRecord c5 done (!hurt.isEmpty) time)
  let c7 := ((hurt.flatMap hurtSessions).dedup).foldl damageNamed c6
  kick (settle (releaseWaiting c7))

/-- CHIP_FAULT acts on a report of level 2. `lost` lists the FIG_SEQ values whose commit record fails its CRC,
`unreadable` those whose intent record does. -/
def chipFault (c : Chip) (lost unreadable : List DWord) (time : Nat) : Chip :=
  if c.flt.chipPending then recoverChip c (lost.map (·.toNat)) (unreadable.map (·.toNat)) time else c

/-- CHIP_FAULT. -/
def execChipFault (lost unreadable : List DWord) (time : BitVec 16) (s : State) : Host.Outcome State Fault Refusal :=
  act s (fun c => whenAwake c (fun c => chipFault c lost unreadable time.toNat))

/-- SCHED_RESUME (t4 of R236): CHUNK_ROWS, LAME marks and counters are kept. -/
def schedResume (c : Chip) : Chip :=
  if c.sched.stopped ∧ !c.flt.chipPending then
    kick (raise { c with sched := { c.sched with stopped := false } } .sched 19)
  else c

/-- SCHED_RESUME. -/
def execSchedResume (s : State) : Host.Outcome State Fault Refusal := act s (fun c => whenAwake c schedResume)

end Sys2Proof.Machine
end

