-- ==== Sys2Proof/Machine/Maint.lean ====
section
/-! DEFINITION. Maintenance of the chip: whole-chip self-test (R507), bundle update and the boot NOR (R502, R509). -/

namespace Sys2Proof.Machine

/-! ### Whole-chip self-test (R507) -/

/-- The blocks a whole-chip test takes: the four of the ports only with PORTS. -/
def testedPages (ports : Bool) : List Page :=
  allPages.filter (fun p => drainable p && (ports || decide (p ≠ .xpt ∧ p ≠ .egr ∧ p ≠ .host ∧ p ≠ .peer)))

/-- Work in flight on a drainable page, or an open figure. -/
def chipBusy (c : Chip) : Bool :=
  allPages.any (fun p => drainable p && decide (0 < inflightCount c p)) || !c.fig.waiting.isEmpty

/-- A write of SELFTEST whose START bit is 1: bit 1 FORCE, bit 2 PORTS. FORCE acts as a step control fault first. Only
blocks that are ON or DISABLED are taken to TESTING (R31). -/
def selftestWrite (c0 : Chip) (w : Word) : Nat × Chip :=
  let c := settle c0
  if bit w 0 = false then (stOK, c0)
  else if c.chip.testing ≠ [] ∨ (chipBusy c ∧ !bit w 1) then (rejBusy, setFld c aCHIP_SELFTEST 23 16 rejBusy)
  else
    let c1 := if bit w 1 then
        let (t, c2) := takeFree c
        recoverChip c2 [] [] (t % 65536)
      else c
    let ps := (testedPages (bit w 2)).filter (fun p => decide (bstate c1 p = .on ∨ bstate c1 p = .disabled))
    let c2 := ps.foldl (fun c p => enterTesting (setHdr c p { hdr c p with before := some (bstate c p) }) p) c1
    (stOK, setFld { c2 with chip := { c2.chip with testing := ps } } aCHIP_SELFTEST 23 8 (stOK * 256 + 1))

/-- A tested block's result: it returns to the state before the test, or stays DISABLED. -/
def testedResult (failed : List Page) (c : Chip) (p : Page) : Chip :=
  let pass := decide (p ∉ failed)
  let was := (hdr c p).before.getD .disabled
  let c1 := leaveTesting c p (if pass then was else .disabled)
  testResult (setHdr c1 p { hdr c1 p with before := none }) p pass

/-- CHIP_SELFTEST_END: RUNNING reads 0, FAIL shows whether a block failed. -/
def chipSelftestEnd (c : Chip) (failed : List Page) : Chip :=
  if c.chip.testing = [] then c
  else
    let ps := c.chip.testing
    let c1 := ps.foldl (testedResult failed) { c with chip := { c.chip with testing := [] } }
    let c2 := setFld c1 aCHIP_SELFTEST 9 8 (2 * b2n (ps.any (fun p => decide (p ∈ failed))))
    kick (settle (releaseWaiting (raise c2 .chip 18)))

/-- CHIP_SELFTEST_END. -/
def execChipSelftestEnd (failed : List Page) (s : State) : Host.Outcome State Fault Refusal :=
  act s (fun c => whenAwake c (fun c => chipSelftestEnd c failed))

/-! ### Boot configuration record (R500, R509) -/

/-- A write of BOOT_CFG stores a new boot record. -/
def bootRecord (c : Chip) (w : Word) : Chip :=
  { c with chip := { c.chip with prefer := bit w 0, bootOverlay := fld w 11 8 } }

/-! ### Update (R502) -/

/-- CHECK, STATUS and BUSY of CHIP.UPDATE. -/
def setUpdate (c : Chip) (check st : Nat) (busy : Bool) : Chip :=
  setFld c aCHIP_UPDATE 31 8 (check * 65536 + st * 256 + b2n busy)

/-- An update ends: its code, its failing check, and UPDATE_DONE. -/
def updateEnds (c : Chip) (check st : Nat) : Chip :=
  raise (setUpdate { c with chip := { c.chip with updating := false, updateImage := [] } } check st false) .chip 19

/-- A write of UPDATE whose START bit is 1. The tag is checked when the write is accepted (R328). The bytes read are
those of this moment; what is programmed shows when the update ends (log entry 74). -/
def updateWrite (c0 : Chip) (w : Word) : Nat × Chip :=
  let c := settle c0
  let tag := reg c aCHIP_UPDATE_TAG
  let st := regionCheck c 0 tag 0 0
  if bit w 0 = false then (stOK, c0)
  else if c.chip.updating then (rejBusy, c0)
  else if st ≠ stOK then (st, c0)
  else
    let image := regionRead c tag 0 (min bankBytes (region c (tag.toNat / 256)).len)
    (stOK, setUpdate { c with chip := { c.chip with
      updating := true, updateTag := tag, updateImage := image, updatePrefer := !bit w 1
      updateWaits := (hdr c .sec).selftest } } 0 0 true)

/-- Sealed blocks of a slot exist (R182). -/
def slotSealed (c : Chip) (slot : Nat) : Bool :=
  c.sess.entries.any (fun e => decide (e.2.model = slot) && !(body c e.1).blocks.isEmpty)

/-- A bundle changes the smoothing table of a slot of which sealed blocks exist (R182): some shift of its attention
layers, heads and channels differs. -/
def changesSmoothing (c : Chip) (src : Source) : Bool :=
  (List.range 16).any (fun slot => slotSealed c slot && (shapes c slot).any (fun s =>
    (List.range s.heads).any (fun h => (List.range s.dim).any (fun ch =>
      decide (Config.smooth (codecTables src) slot s.layer h ch ≠ smoothing c slot s.layer h ch)))))

/-- UPDATE_DONE: REVOKED where the registration was revoked before its last 4 KiB were read (a free value tells), the
failing check, TIER_FAULT for a failed read-back, or OK with the new boot record. DEDUCED: a bundle that changes a
smoothing table in use fails check 6, which R500 has section 0x04 pass under R182 (log entry 114). A verification that
arrived during SEC's self-test waits for it to end (R470). -/
def updateDone (c0 : Chip) (readBackOk : Bool) : Chip :=
  let c := settle c0
  if c.chip.updating = false ∨ c.chip.updateWaits then c0
  else
    let (cut, c1) := takeFree c
    let img := c1.chip.updateImage
    let other := !c1.chip.bank
    let bad := if bundleCheck c1 (listSource img) = 0 ∧ changesSmoothing c1 (listSource img) then 6
      else bundleCheck c1 (listSource img)
    if regionActive c1 c1.chip.updateTag = false ∧ cut % 2 = 1 then updateEnds c1 0 stRevoked
    else if bad ≠ 0 then updateEnds c1 bad rejState
    else
      let c2 := norErase c1 (bankBase other) bankBytes
      if readBackOk = false then updateEnds c2 0 stTierFault
      else
        let c3 := norPut c2 (bankBase other) (img.take (bodyAt + mfLen (img.take 128)))
        let c4 := if c3.chip.updatePrefer then
            setFld { c3 with chip := { c3.chip with prefer := other } } aCHIP_BOOT_CFG 0 0 (b2n other)
          else c3
        updateEnds c4 0 stOK

/-- UPDATE_DONE. -/
def execUpdateDone (readBackOk : Bool) (s : State) : Host.Outcome State Fault Refusal :=
  act s (fun c => whenAwake c (fun c => updateDone c readBackOk))

/-! ### Programming bank A by hand (R502, R509) -/

/-- A write of NOR_DATA: only over the sideband while boot has FAILED. An address that is no multiple of 4, or past bank
A, completes with REJECTED_LIMIT (log entry 75). -/
def norDataWrite (c : Chip) (sideband : Bool) (w : Word) : Nat × Chip :=
  let a := (reg c aCHIP_NOR_ADDR).toNat
  if !sideband ∨ c.chip.bootState ≠ .failed then (rejState, c)
  else if a % 4 ≠ 0 ∨ bankBytes < a + 4 then (rejLimit, c)
  else (stOK, setReg (norPut c a (leBytes 4 w.toNat)) aCHIP_NOR_ADDR (w32 (a + 4)))

end Sys2Proof.Machine
end

