-- ==== Sys2Proof/Machine/WinRead.lean ====
section
/-! DEFINITION. Reads of the management window (R8-R27): banks, the values that registers show live, the common header,
votes at a read, the read shadow. -/

namespace Sys2Proof.Machine

/-! ### Banks -/

/-- The bank that an access of a requester of partition `q` reaches: a tenant reaches its own bank of SEC and TEL
(R454). -/
def bankFor (c : Chip) (q : Nat) (b : Bank) : Nat :=
  let idx := fld (reg c aSRCH_INDEX_SEL) 3 0
  match b with
  | .none_ => 0
  | .part => fld (reg c aSCHED_PART_SEL) 2 0
  | .model => fld (reg c aATTN_MODEL_SEL) 3 0
  | .slot => fld (reg c aSAMP_SLOT_SEL) 3 0
  | .vocab => fld (reg c aTEXT_VOCAB_SEL) 3 0
  | .gram => fld (reg c aTEXT_GRAM_SEL) 11 0
  | .cutSlot => fld (reg c aCUT_SLOT_SEL) 3 0
  | .conn => fld (reg c aXPT_CONN_SEL) 13 0
  | .reg => fld (reg c aXPT_REG_SEL) 15 0
  | .port => fld (reg c aPEER_PORT_SEL) 1 0
  | .hostPart => fld (reg c aHOST_PART_SEL) 2 0
  | .queue => fld (reg c aEGR_QUEUE_SEL) 8 0
  | .index => idx
  | .shard => idx * 64 + fld (regB c idx aSRCH_SHARD_SEL) 5 0
  | .rail => fld (reg c aPWR_RAIL_SEL) 2 0
  | .cls => 0
  | .secPart => if q = 0 then fld (reg c aSEC_PART_SEL) 2 0 else q
  | .fltClass => fld (reg c aFLT_CLASS_SEL) 7 0
  | .unit => fld (reg c aCRC_UNIT_SEL) 1 0
  | .telPart => if q = 0 then fld (reg c aTEL_PART_SEL) 2 0 else q

/-! ### Live values -/

/-- A field at its place. -/
def at_ (v lo : Nat) : Nat := v * 2 ^ lo

/-- A bit for each index below `n` that satisfies a condition. -/
def bitsOf (n : Nat) (f : Nat → Bool) : Nat := ((List.range n).map (fun i => b2n (f i) * 2 ^ i)).sum

/-- A word of a byte string: bytes 4k to 4k + 3. -/
def wordAt (l : List Byte) (k : Nat) : Word := w32 (rdLE l (4 * k) 4)

/-- Code of CHIP.BOOT.STATE (R509). -/
def bootCode (s : BootState) : Nat :=
  match s with
  | .powering => 0
  | .verifying => 1
  | .configuring => 2
  | .ready => 3
  | .configErr => 4
  | .failed => 5

/-- Code of CLK.STATE.FAST (R508). -/
def fastCode (s : FastState) : Nat :=
  match s with
  | .run => 0
  | .nap => 1
  | .deep => 2
  | .waking => 3
  | .entering => 4
  | .off => 5

/-- Code of a partition state (R450). -/
def partCode (s : PartState) : Nat :=
  match s with
  | .invalid => 0
  | .valid => 1
  | .purging => 2
  | .scrubbing => 3

/-- Code of a core state (R165). -/
def coreCode (s : CoreState) : Nat :=
  match s with
  | .off => 0
  | .free => 1
  | .busy => 2
  | .draining => 3
  | .testing => 4
  | .lame => 5
  | .faulted => 6

/-- Code of a connection state (R317). -/
def connCode (s : ConnState) : Nat :=
  match s with
  | .closed => 0
  | .connecting => 1
  | .open => 2
  | .closing => 3
  | .failed => 4

/-- Code of a peer port state (R361). -/
def portCode (s : PortState) : Nat :=
  match s with
  | .off => 0
  | .training => 1
  | .up => 2
  | .reduced => 3
  | .down => 4

/-- Code of a host port state (R370). -/
def hostCode (s : HostState) : Nat :=
  match s with
  | .off => 0
  | .training => 1
  | .up => 2
  | .down => 3

/-- Code of a CKPT phase (R424). -/
def phaseCode (s : CkptPhase) : Nat :=
  match s with
  | .idle => 0
  | .snapshot => 1
  | .stream => 2
  | .restore => 3

/-- CHIP (R509). -/
def liveChip (c : Chip) (a : Nat) : Option Word :=
  if a = aCHIP_BOOT then some (putFld (reg c a) 2 0 (bootCode c.chip.bootState))
  else if a = aCHIP_OVL_STAT then
    some (putFld (putFld (reg c a) 3 0 c.chip.inForce) 31 31 (b2n (!c.chip.overlays.isEmpty)))
  else if a = aCHIP_RESET_CAUSE then some (w32 c.chip.resetCause)
  else none

/-- CLK (R508), but for the tick count. -/
def liveClk (c : Chip) (a : Nat) : Option Word :=
  if a = aCLK_STATE then some (w32 (at_ (b2n c.chip.refOk) 9 + at_ (b2n c.chip.xtalOk) 8 + fastCode c.chip.fast))
  else none

/-- PWR (R446). -/
def livePwr (c : Chip) (a : Nat) : Option Word :=
  if a = aPWR_CLASS_DATA then some (classData c)
  else if a = aPWR_TRIP then some (putFld (reg c a) 0 0 (b2n c.pwr.tripped))
  else none

/-- SEC (R470), but for DBG_DATA; `q` is the requester's partition. -/
def liveSec (c : Chip) (q bank a : Nat) : Option Word :=
  let x := secPart c bank
  if a = aSEC_PART_SEL then (if q = 0 then none else some (w32 q))
  else if a = aSEC_PART_CTRL then
    some (putFld (putFld (regB c bank a) 3 2 (partCode x.state)) 1 0 (b2n (decide (x.state = .valid))))
  else if a = aSEC_PART_CONSENT then some (w32 (b2n x.debug + 2 * b2n x.profile))
  else if aSEC_MP0_ ≤ a ∧ a < aSEC_MP0_ + 32 then some (wordAt x.mp0 ((a - aSEC_MP0_) / 4))
  else if aSEC_MP1_ ≤ a ∧ a < aSEC_MP1_ + 32 then some (wordAt x.mp1 ((a - aSEC_MP1_) / 4))
  else if aSEC_MC0_ ≤ a ∧ a < aSEC_MC0_ + 32 then some (wordAt c.sec.mc0 ((a - aSEC_MC0_) / 4))
  else if aSEC_MC1_ ≤ a ∧ a < aSEC_MC1_ + 32 then some (wordAt c.sec.mc1 ((a - aSEC_MC1_) / 4))
  else if aSEC_MC2_ ≤ a ∧ a < aSEC_MC2_ + 32 then some (wordAt c.sec.mc2 ((a - aSEC_MC2_) / 4))
  else if a = aSEC_CHIP_DEBUG then
    some (putFld (reg c a) 9 0 (at_ (b2n c.sec.everDebug) 9 + at_ (b2n c.sec.chipDebug) 8))
  else if a = aSEC_DBG_CTRL then some (putFld (reg c a) 16 16 (b2n c.sec.partDebug.isSome))
  else none

/-- FLT (R487, R488). -/
def liveFlt (c : Chip) (a : Nat) : Option Word :=
  if a = aFLT_MODULE then some (w32 (at_ (b2n c.flt.faulted) 31))
  else if a = aFLT_BB_STAT then some (w32 (b2n c.flt.ready + 2 * b2n c.flt.crcOk))
  else if aFLT_BB_WINDOW ≤ a ∧ a < aFLT_BB_WINDOW + 256 then some (wordAt c.flt.window ((a - aFLT_BB_WINDOW) / 4))
  else none

/-- CNT_VALUE (R65): entries in the state that CNT_SEL selects; 0 until the directory is written, as its reset value has
it (log entry 100). -/
def stateCount (c : Chip) (k : Nat) : Nat :=
  let n := fun (s : SessState) => (c.sess.entries.filter (fun e => decide (e.2.state = s))).length
  if c.sess.inited = false then 0
  else if k = 0 then 4194304 - (c.sess.entries.filter (fun e => decide (e.2.state ≠ .free))).length
  else if 10 ≤ k then 0
  else n (stateOf k)

/-- SESS (R65). -/
def liveSess (c : Chip) (a : Nat) : Option Word :=
  if a = aSESS_OPQ_FREE then some (w32 (65536 - opPlaces c))
  else if a = aSESS_CNT_VALUE then some (w32 (stateCount c (fld (reg c aSESS_CNT_SEL) 3 0)))
  else none

/-- FIG (R88). -/
def liveFig (c : Chip) (a : Nat) : Option Word :=
  if a = aFIG_SEQ_LO then some (w32 c.fig.seq)
  else if a = aFIG_SEQ_HI then some (w32 (c.fig.seq / 2 ^ 32))
  else if a = aFIG_APPLIED_LO then some (w32 c.fig.applied)
  else if a = aFIG_APPLIED_HI then some (w32 (c.fig.applied / 2 ^ 32))
  else if a = aFIG_LOG_FREE then some (w32 (logFree c))
  else if a = aFIG_LOG_TAIL then some (w32 c.fig.logTail)
  else if a = aFIG_OPEN then some 0  -- log entry 95
  else if a = aFIG_STAGE_FREE then some (w32 (stageFree c / 1024))
  else none

/-- TIER (R115). The heap and the ledger are those of a block that has gone ON (log entry 76). -/
def liveTier (c : Chip) (a : Nat) : Option Word :=
  if a = aTIER_HEAP_FREE then
    some (w32 ((if bstate c .tier = .off then 0
      else if tenantsValid c then (parts8.map (heapFree c)).sum else heapFree c 0) / 2 ^ 20))
  else if a = aTIER_LEDGER_FREE then some (w32 (if bstate c .tier = .off then 0 else ledgerFree c))
  else if a = aTIER_SWEEP then some (putFld (reg c a) 31 31 (b2n c.tier.sweeping))
  else if a = aTIER_REVIVE_ACTIVE then some (w32 (reviveActive c))
  else none

/-- The extents in service and their erase counts: highest and mean, rounded down (log entry 77). -/
def wearWord (c : Chip) : Word :=
  let used := c.flash.extents.filter (fun e => decide (e.2.state ≠ .retired))
  let n := physExtents c.variant - (c.flash.extents.length - used.length)
  let top := used.foldl (fun m e => max m e.2.erases) 0
  w32 (at_ (min 65535 top) 16 + min 65535 ((used.map (fun e => e.2.erases)).sum / max 1 n))

/-- FLASH (R138): values loaded at power-up read 0 until the map is ready. -/
def liveFlash (c : Chip) (a : Nat) : Option Word :=
  let up := fun (w : Word) => some (if c.flash.mapReady then w else 0)
  let dies := bitsOf 64 (fun d => decide (d ∈ c.flash.lostDies))
  if a = aFLASH_USER_EXTENTS then up (w32 (userExtents c))
  else if a = aFLASH_SPARE_EXTENTS then up (w32 (spareExtents c))
  else if a = aFLASH_FREE_EXTENTS then up (w32 (freeLexts c))
  else if a = aFLASH_STATUS then up (putBit (putBit (reg c a) 0 c.flash.mapReady) 2 (0 < c.flash.userCut))
  else if a = aFLASH_DIE_LOST_LO then up (w32 dies)
  else if a = aFLASH_DIE_LOST_HI then up (w32 (dies / 2 ^ 32))
  else if a = aFLASH_WEAR then up (wearWord c)
  else if aFLASH_OWNER_BYTES_LO ≤ a ∧ a ≤ aFLASH_READ_BYTES_HI then up (reg c a)
  else if aFLASH_UNCORR_CNT ≤ a ∧ a ≤ aFLASH_RETIRED_CNT then up (reg c a)
  else none

/-- GRID (R169). -/
def liveGrid (c : Chip) (a : Nat) : Option Word :=
  let map := fun (base : Nat) (f : CoreState → Bool) =>
    some (w32 (bitsOf 32 (fun b => f (coreAt c (32 * ((a - base) / 4) + b)).state)))
  if a = aGRID_CORE_STAT then
    let n := fld (reg c aGRID_CORE_SEL) 7 0
    let k := coreAt c n
    some (w32 (at_ (medianOf k.window) 16 + at_ (corePart c n) 13 + at_ (b2n k.stFail) 3 + coreCode k.state))
  else if a = aGRID_GRID_MEDIAN then some (w32 (gridMedian c))
  else if a = aGRID_TEST_QUEUE then some (w32 (at_ c.grid.rotateNext 8 + min 255 c.grid.tests.length))
  else if aGRID_AVAIL ≤ a ∧ a < aGRID_AVAIL + 32 then map aGRID_AVAIL (fun s => decide (s = .free ∨ s = .busy))
  else if aGRID_LAMEMAP ≤ a ∧ a < aGRID_LAMEMAP + 32 then map aGRID_LAMEMAP (fun s => decide (s = .lame))
  else if aGRID_FAULTMAP ≤ a ∧ a < aGRID_FAULTMAP + 32 then map aGRID_FAULTMAP (fun s => decide (s = .faulted))
  else none

/-- SCHED (R241). -/
def liveSched (c : Chip) (bank a : Nat) : Option Word :=
  let s := reg c aSCHED_CLIENT_SEL
  let j := jobs c (fld s 18 16) (fld s 15 0)
  if a = aSCHED_RATIO_STAT then
    let x := schedPart c bank
    some (w32 (at_ x.cLast 24 + at_ x.dLast 16 + at_ (rowsOf c bank).length 8 + x.chunkRows))
  else if a = aSCHED_CLIENT_STARTED then some (w32 j.1)
  else if a = aSCHED_CLIENT_COMPLETED then some (w32 j.2.1)
  else if a = aSCHED_CLIENT_ABORTED then some (w32 j.2.2)
  else none

/-- TEXT (R293). -/
def liveText (c : Chip) (a : Nat) : Option Word :=
  if a = aTEXT_VOCAB_STAT then
    some (putFld (reg c a) 31 16 (bitsOf 16 (fun s => bit (regB c s aTEXT_VOCAB_CTRL) 0)))
  else if a = aTEXT_WORK_FREE then some (w32 (if bstate c .text = .off then 0 else workFree c / 2 ^ 20))
  else none

/-- XPT (R340). -/
def liveXpt (c : Chip) (bank a : Nat) : Option Word :=
  let k := conn c bank
  if a = aXPT_CONN_DEST then some (putFld (regB c bank a) 30 28 ((partOfConn c bank).getD 0))
  else if a = aXPT_CONN_STAT then
    some (w32 (at_ (min 65535 k.retx) 16 + at_ (b2n k.spray) 6 + at_ (b2n (k.mgmt && eventsBit c bank)) 5 +
      at_ (b2n k.mgmt) 4 + connCode k.state))
  else if a = aXPT_CONN_RATE then some (w32 (rateNow c bank))
  else if a = aXPT_MGMT_CFG then some (putFld (reg c a) 20 16 (mgmtCount c))
  else if a = aXPT_REG_COUNT then some (w32 (c.xpt.regions.filter (fun r => decide (r.2.state ≠ .free))).length)
  else if a = aXPT_REG_STAT then
    let r := region c bank
    some (w32 (at_ (min 65535 r.inflight) 16 + at_ r.gen 8 +
      at_ (if r.state = .free then 0 else r.part) 5 + regionCode r.state))
  else none

/-- PEER (R363). -/
def livePeer (c : Chip) (bank a : Nat) : Option Word :=
  let p := pport c bank
  if a = aPEER_PORT_STAT then
    some (w32 (at_ (p.node.getD 0) 20 + at_ (b2n p.known) 19 +
      at_ ((List.range 16).filter (fun i => inStripe c bank i)).length 8 + portCode p.state))
  else if a = aPEER_LANE_MAP then
    some (w32 (at_ p.lost.toNat 16 + ((List.range 16).map (fun i => b2n (inStripe c bank i) * 2 ^ i)).sum))
  else if a = aPEER_CAL_CTRL then
    some (putFld (reg c a) 7 0 (match c.peer.sweep with
      | some (port, lane) => at_ lane 4 + at_ port 2 + 1
      | none => 0))
  else if a = aPEER_RT_CTRL then some (w32 (at_ (b2n c.peer.active) 8))
  else none

/-- HOST (R379). -/
def liveHost (c : Chip) (a : Nat) : Option Word :=
  if a = aHOST_PORT_STAT then some (w32 (at_ c.host.lanes.toNat 8 + hostCode c.host.state))
  else if a = aHOST_CAL_CTRL then some (w32 (2 * b2n c.host.needed + b2n c.host.sweeping))
  else none

/-- EGR (R381). -/
def liveEgr (c : Chip) (bank a : Nat) : Option Word :=
  let q := equeue c bank
  if a = aEGR_Q_STAT then some (w32 (at_ q.tokens 16 + q.pkts.length))
  else if a = aEGR_BUF_FREE then some (w32 (bufFree c))
  else none

/-- SRCH (R405). -/
def liveSrch (c : Chip) (bank a : Nat) : Option Word :=
  if a = aSRCH_IDX_DAMAGED then some (w32 (ixDamaged c bank))
  else if a = aSRCH_ACTIVE then
    some (w32 (at_ (queuedQueries c) 16 + at_ (passScans c) 9 + walks c))
  else none

/-- The value that a register shows where it is not a stored word. -/
def liveWord (c : Chip) (q bank a : Nat) : Option Word :=
  match pageOf (a / 0x4000) with
  | .chip => liveChip c a
  | .clk => liveClk c a
  | .pwr => livePwr c a
  | .sec => liveSec c q bank a
  | .flt => liveFlt c a
  | .sess => liveSess c a
  | .fig => liveFig c a
  | .tier => liveTier c a
  | .gdr => none
  | .flash => liveFlash c a
  | .grid => liveGrid c a
  | .sched => liveSched c bank a
  | .attn => if a = aATTN_MODEL_VALID then some (w32 (bitsOf 16 (modelValid c))) else none
  | .samp => none
  | .spec => none
  | .text => liveText c a
  | .cut => if a = aCUT_RECORDS then some (w32 c.cuts.length) else none
  | .xpt => liveXpt c bank a
  | .peer => livePeer c bank a
  | .host => liveHost c a
  | .egr => liveEgr c bank a
  | .srch => liveSrch c bank a
  | .ckpt => if a = aCKPT_STATUS then some (putFld (reg c a) 2 0 (phaseCode c.ckpt.phase)) else none
  | .crc => none
  | .tel => none

/-! ### Votes (R28-R30) -/

/-- The three copies of a stored word. -/
def copiesOf (c : Chip) (key : Nat) : Word × Word × Word :=
  let a := tget (regReset c.variant key) c.mgmt.regs key
  (a, a ^^^ tget 0 c.mgmt.copy1 key, a ^^^ tget 0 c.mgmt.copy2 key)

/-- The three copies of one field hold three different values. -/
def fieldSplit (x : Word × Word × Word) (f : RegField) : Bool :=
  let v := fun (w : Word) => fld w f.hi f.lo
  decide (v x.1 ≠ v x.2.1 ∧ v x.1 ≠ v x.2.2 ∧ v x.2.1 ≠ v x.2.2)

/-- A disagreement is recorded in BLK_VOTE_ERR and raised (R29, R30). -/
def voteRecord (c : Chip) (a : Nat) (noMaj : Bool) : Chip :=
  let page := pageOf (a / 0x4000)
  let h := hdr c page
  raise (setHdr c page { h with
    voteCount := BitVec.ofNat 8 (min 255 (h.voteCount.toNat + 1))
    voteOffset := BitVec.ofNat 10 (a % 0x4000 / 4)
    voteNomaj := noMaj
    votePending := true }) page 4

/-- The bits of the triplicated fields of a register that have no majority (R30). -/
def splitMask (c : Chip) (key : Nat) : Word :=
  match rowOf (key % bankStride) with
  | some r =>
    (r.fields.filter (fun f => tripleAcc f.acc && fieldSplit (copiesOf c key) f)).foldl
      (fun m f => m ||| maskOf f.hi f.lo) 0
  | none => 0

/-- The comparison of the copies of one register: the odd copy of a field takes the majority and the disagreement is
recorded (R29); a field without majority puts its block in FAULT (R30, R31), once: a block that is in FAULT for it, or a
module that is FAULTED, does not report it again (log entry 79). -/
def voteKey (c : Chip) (key : Nat) : Chip :=
  let flips := tget 0 c.mgmt.copy1 key ||| tget 0 c.mgmt.copy2 key
  if flips = 0 then c
  else
    let a := key % bankStride
    let page := pageOf (a / 0x4000)
    let x := copiesOf c key
    let m := splitMask c key
    let c1 :=
      if flips &&& ~~~m = 0 then c
      else fault (voteRecord (setKey c key (~~~m) (majority x.1 x.2.1 x.2.2)) a false) 0x10 page (a % 0x4000) 0 false
    if m = 0 ∨ bstate c1 page = .fault ∨ c1.flt.faulted then c1
    else fault (voteRecord c1 a true) 0x11 page (a % 0x4000) 0 false

/-- The bits of BLK_CTRL as the majority of its copies has them. -/
def ctrlBits (h : BlockHdr) : BitVec 4 :=
  BitVec.ofNat 4 (b2n h.enable + 2 * b2n h.drain + 4 * b2n h.selftest + 8 * b2n h.softReset)

/-- Upsets of one copy of BLK_CTRL: the majority of the copies stands, and each copy's difference from it (R28). -/
def ctrlUpset (h : BlockHdr) (copy : Nat) (f : BitVec 4) : BlockHdr :=
  let v := ctrlBits h
  let copyOf := fun (k : Nat) (odd : BitVec 4) => v ^^^ odd ^^^ (if copy = k then f else 0)
  let x := copyOf 0 h.odd0
  let y := copyOf 1 h.odd1
  let z := copyOf 2 h.odd2
  let m := (x &&& y) ||| (x &&& z) ||| (y &&& z)
  { h with
    enable := m.getLsbD 0, drain := m.getLsbD 1, selftest := m.getLsbD 2, softReset := m.getLsbD 3
    odd0 := x ^^^ m, odd1 := y ^^^ m, odd2 := z ^^^ m }

/-- The comparison of the copies of a page's BLK_CTRL (R29). Its fields are single bits, so a majority always stands. -/
def voteCtrl (c : Chip) (p : Page) : Chip :=
  let h := hdr c p
  if h.odd0 = 0 ∧ h.odd1 = 0 ∧ h.odd2 = 0 then c
  else fault (voteRecord (setHdr c p { h with odd0 := 0, odd1 := 0, odd2 := 0 }) (pageAddr p 8) false) 0x10 p 8 0 false

/-! ### Words -/

/-- The word of the common header at an offset (R17), as a requester reads it. -/
def hdrWord (c : Chip) (p : Page) (off : Nat) (r : Requester) : Word :=
  let h := hdr c p
  if off = 0x00 then w32 (0x4E560000 + pageIdx p)
  else if off = 0x04 then 0x0100B000
  else if off = 0x08 then ctrlWord c p
  else if off = 0x0C then
    w32 (at_ (min 65535 (inflightCount c p)) 16 + at_ (b2n h.drainForced) 7 + at_ (b2n h.stFail) 6 +
      at_ (b2n h.stRan) 5 + bstateCode h.state)
  else if off = 0x10 then h.int
  else if off = 0x14 then h.intEn
  else if off = 0x1C then w32 (b2n (decide (pageIdx p ∈ (reqState c r).unlocked)))
  else if off = 0x20 then
    w32 (at_ h.voteCount.toNat 24 + at_ h.voteOffset.toNat 2 + at_ (b2n h.voteNomaj) 1 + b2n h.votePending)
  else 0

/-- SELFTEST and RT_CTRL read their command bits as 0; write-only fields read 0 (R20, R363, R509). -/
def shownMask (row : RegRow) (a : Nat) : Word :=
  let m := maskOfAcc row (fun x => !writeOnlyAcc x)
  if a = aCHIP_SELFTEST then m &&& ~~~7 else m

/-- A register word as it reads, without the effects that some reads have. -/
def plainWord (c : Chip) (q bank : Nat) (row : RegRow) (a : Nat) : Word :=
  ((liveWord c q bank a).getD (regB c bank a)) &&& shownMask row a

/-- The word of a register for a requester of partition `q`: status, word, and the chip after what the read does. -/
def wordRead (c : Chip) (q : Nat) (row : RegRow) (a : Nat) : Nat × Word × Chip :=
  let bank := bankFor c q row.bank
  if a = aCLK_MINUET_LO ∨ a = aCLK_MINUET_HI then
    let (t, c1) := takeTick c
    (stOK, w32 (if a = aCLK_MINUET_LO then t else t / 2 ^ 32), c1)
  else if a = aSEC_DBG_DATA then dbgRead c
  else if a = aPEER_RT_DATA then
    (stOK, rtShadow c (fld (reg c aPEER_RT_INDEX) 11 0), rtAdvance c)
  else if pageIdx .tel = a / 0x4000 ∧ aTEL_SESSIONS ≤ a ∧ a ≤ aTEL_CLIENT_ABORTED ∧ a ≠ aTEL_CLIENT_SEL then
    (stOK, if q = 0 then telLive c bank (a % 0x4000) else telTenant c bank (a % 0x4000), c)
  else if a = aTEL_PART_SEL ∧ q ≠ 0 then (stOK, w32 q, c)
  else (stOK, plainWord c q bank row a, voteKey c (rkey bank a))

/-- The read shadow (R27): a _LO read loads it with its pair's _HI, and a _HI read of that pair takes it. -/
def shadowRead (c : Chip) (r : Requester) (q : Nat) (row : RegRow) (a : Nat) : Nat × Word × Chip :=
  let s := reqState c r
  let bank := bankFor c q row.bank
  if row.pair = 2 ∧ s.shadow.map (·.1) = some (rkey bank a) then
    (stOK, (s.shadow.map (·.2)).getD 0, c)
  else if row.pair = 1 ∧ a = aCLK_MINUET_LO then
    let (t, c1) := takeTick c
    (stOK, w32 t, setReqState c1 r { reqState c1 r with shadow := some (rkey bank (a + 4), w32 (t / 2 ^ 32)) })
  else if row.pair = 1 then
    let x := wordRead c q row a
    match rowOf (a + 4) with
    | some up =>
      let y := wordRead x.2.2 q up (a + 4)
      (x.1, x.2.1, setReqState y.2.2 r { reqState y.2.2 r with shadow := some (rkey bank (a + 4), y.2.1) })
    | none => x
  else wordRead c q row a

end Sys2Proof.Machine
end

