-- ==== Sys2Proof/Machine/WinWrite.lean ====
section
/-! DEFINITION. What a write of each register does (R20, R22, R27 and the register rules of the chapters): the guard, the
unlock and the hold are Window.lean's. -/

namespace Sys2Proof.Machine

/-- Values that only some commands give: the duration of a wake, whether a marker comes too early, and the generations
that a restore reads. -/
structure WrArgs where
  us : Option Nat
  early : Option Bool
  gen0 : List Byte
  gen1 : List Byte
  deriving DecidableEq, Repr

/-- A write that gives none of them. -/
def noArgs : WrArgs := { us := none, early := none, gen0 := [], gen1 := [] }

/-- A write of a register: its requester (none: a configuration image), the requester's partition, the bank, the base
address and row, the word before and after, the word and the bits written as 1, whether it is a plain write, and the
held _LO word that a plain _HI write commits. -/
structure RegWr where
  src : Option Requester
  part : Nat
  bank : Nat
  a : Nat
  row : RegRow
  old : Word
  new : Word
  raw : Word
  ones : Word
  plain : Bool
  lo : Option Word
  args : WrArgs
  deriving DecidableEq, Repr

/-- Bits of a register that a write stores. -/
def storeMask (row : RegRow) : Word := maskOfAcc row storedAcc

/-- Stores the new word, and with a held _LO both words of the pair. -/
def storeReg (c : Chip) (x : RegWr) : Chip :=
  let c1 := setKey c (rkey x.bank x.a) (storeMask x.row) x.new
  match x.lo, rowOf (x.a - 4) with
  | some v, some lo => setKey c1 (rkey x.bank (x.a - 4)) (storeMask lo) v
  | _, _ => c1

/-- The write is stored. -/
def stored (c : Chip) (x : RegWr) : Nat × Chip := (stOK, storeReg c x)

/-- The requester of a write; an image has none and acts for partition 0. -/
def wrSrc (x : RegWr) : Requester := x.src.getD (.conn 0)

/-- A plain write writes 1 to a bit; alias writes leave WO and W1C bits alone (R23). -/
def plainBit (x : RegWr) (n : Nat) : Bool := x.plain && bit x.raw n

/-- A register of a pair: its _LO or its _HI address. -/
def ofPair (a lo : Nat) : Bool := a = lo || a = lo + 4

/-- A write that moves or resizes a region of R538: only in the given states, and only to where it stands clear. -/
def regionWrite (c : Chip) (x : RegWr) (free : Bool) (k : Nat) : Nat × Chip :=
  if !free then (rejBusy, c)
  else
    let c1 := storeReg c x
    if regionClear c1 k then (stOK, c1) else (rejLimit, c)

/-- A wake by a register write (R495): cause 3. A wake that has begun ends with FAST_WAKE (log entry 93). -/
def wakeByWrite (c : Chip) (x : RegWr) : Chip :=
  if sleeping c && nodeServes c then
    match x.args.us with
    | some us => wakeFast c 3 us
    | none =>
      let (v, c1) := takeFree c
      wakeFast c1 3 (v % 65536)
  else c

/-! ### CHIP, CLK, PWR, SEC, FLT -/

/-- OVL_APPLY (R505): it queues a figure, which FIG refuses while it drains or a recovery runs (R82, R85). -/
def ovlApply (c : Chip) (n : Nat) : Nat × Chip :=
  let c1 := setFld c aCHIP_OVL_STAT 11 8 n
  if bstate c .fig = .draining ∨ c.flt.chipPending then (rejBusy, setFld c1 aCHIP_OVL_STAT 23 16 rejBusy)
  else if bit (reg c aCHIP_OVL_PRESENT) n then
    (stOK, { c1 with chip := { c1.chip with overlays := c1.chip.overlays ++ [n] } })
  else (rejLimit, setFld c1 aCHIP_OVL_STAT 23 16 rejLimit)

/-- Writes of CHIP (R505-R509). -/
def writeChip (c : Chip) (x : RegWr) : Nat × Chip :=
  if x.a = aCHIP_BOOT_CFG then
    let c1 := storeReg c x
    (stOK, bootRecord c1 (reg c1 aCHIP_BOOT_CFG))
  else if x.a = aCHIP_OVL_APPLY then (if x.plain then ovlApply (wakeByWrite c x) (fld x.raw 3 0) else (stOK, c))
  else if x.a = aCHIP_SPLIT then
    let n := fld x.new 30 27
    if n = 0 ∨ 8 < n ∨ n ≤ fld x.new 26 24 then (rejLimit, c) else stored c x
  else if x.a = aCHIP_SELFTEST then
    let c1 := wakeByWrite c x
    if bit x.ones 0 ∧ fastRuns c1 = false then (rejBusy, c) else selftestWrite c1 x.ones
  else if x.a = aCHIP_UPDATE then
    let c1 := wakeByWrite c x
    let c2 := storeReg c1 x
    if bit x.ones 0 ∧ fastRuns c1 = false then (rejBusy, c)
    else
      let y := updateWrite c2 (w32 (b2n (bit x.ones 0) + 2 * b2n (bit x.new 1)))
      if y.1 = stOK then y else (y.1, c1)
  else if x.a = aCHIP_NOR_DATA then
    (if x.plain then norDataWrite c (decide (x.src = some .sideband)) x.raw else (stOK, c))
  else stored c x

/-- Writes of CLK (R495, R508). -/
def writeClk (c : Chip) (x : RegWr) : Nat × Chip :=
  let c1 := storeReg c x
  if x.a = aCLK_CTRL ∧ (plainBit x 0 ∨ bit x.new 1) then (stOK, wakeByWrite c1 x) else (stOK, c1)

/-- Writes of PWR (R444, R446). -/
def writePwr (c : Chip) (x : RegWr) : Nat × Chip :=
  let c1 := storeReg c x
  if x.a = aPWR_TRIP ∧ plainBit x 1 then
    let y := tripClearOp c1 (wrSrc x)
    if y.1 = stOK then y else (y.1, c)
  else (stOK, c1)

/-- A write of PART_CTRL (R448-R451): PURGE first. -/
def partCtrlWrite (c : Chip) (x : RegWr) : Nat × Chip :=
  if plainBit x 1 then partPurge c x.bank
  else if x.plain ∨ bit x.new 0 ≠ bit x.old 0 then
    (if bit x.new 0 then partValidate c x.bank else partInvalidate c x.bank)
  else (stOK, c)

/-- Writes of SEC (R448, R454, R457, R458, R461-R464). -/
def writeSec (c : Chip) (x : RegWr) : Nat × Chip :=
  if x.a = aSEC_PART_SEL then (if x.part = 0 then stored c x else (stOK, c))
  else if x.a = aSEC_PART_CTRL then partCtrlWrite c x
  else if aSEC_PART_RES ≤ x.a ∧ x.a ≤ aSEC_PART_DIR then
    let c1 := storeReg c x
    let st := partRegRefusal c c1 x.bank
    (st, if st ≠ stOK then c else if x.a = aSEC_PART_DIR then renewList c1 x.bank else c1)
  else if x.a = aSEC_PART_CONSENT then consentWrite c x.part x.bank x.new
  else if aSEC_EXTEND ≤ x.a ∧ x.a < aSEC_EXTEND + 32 then
    (if x.plain then extendWrite c x.part x.bank ((x.a - aSEC_EXTEND) / 4) x.raw else (stOK, c))
  else if x.a = aSEC_ROLLBACK then rollbackWrite c x.new
  else if x.a = aSEC_KEY_REVOKE then revokeWrite c x.ones
  else if x.a = aSEC_CHIP_DEBUG then (if x.plain then chipDebugWrite c x.raw else (stOK, c))
  else if x.a = aSEC_DBG_CTRL then (if x.plain then dbgWrite c x.raw else stored c x)
  else stored c x

/-- FLT.LAST_* are cleared (R488). -/
def clearLast (c : Chip) : Chip :=
  [aFLT_LAST_CLASS, aFLT_LAST_INFO, aFLT_LAST_ADDR_LO, aFLT_LAST_ADDR_HI, aFLT_LAST_STAMP].foldl (fun c a => setReg c a 0) c

/-- BB_MARK (R483): sooner than 1,000 ms after the mark before it the write is refused. -/
def bbMarkWrite (c : Chip) (x : RegWr) : Nat × Chip :=
  let (early, c1) := match x.args.early with
    | some e => (e, c)
    | none =>
      let (v, c1) := takeFree c
      (decide (v % 2 = 1), c1)
  if x.part ≠ 0 then (rejPart, c) else if early then (rejBusy, c1) else (stOK, bbPlain c1 7 x.raw)

/-- Writes of FLT (R478, R487, R488). -/
def writeFlt (c : Chip) (x : RegWr) : Nat × Chip :=
  if x.a = aFLT_LAST_CLASS then (stOK, if plainBit x 31 then clearLast c else c)
  else if x.a = aFLT_MODULE then
    if bit x.ones 0 = false then (stOK, c)
    else if c.flt.faulted ∧ x.src = some .sideband then (stOK, resetChip c true 3)
    else (rejState, c)
  else if x.a = aFLT_BB_INDEX then
    let c1 := storeReg c x
    (stOK, { c1 with flt := { c1.flt with loading := true, ready := false, crcOk := false } })
  else if x.a = aFLT_BB_MARK then (if x.plain then bbMarkWrite c x else (stOK, c))
  else stored c x

/-! ### SESS, FIG, TIER, GDR, GRID, SCHED -/

/-- A commit of DIR_BASE (R66): the new region also stands clear of the old one; the entries move when SESS next goes
ON. DEDUCED: of two commits before that, the second is held against the region of the first, and the entries are copied
from where they lie (log entry 102). -/
def dirBaseWrite (c : Chip) (x : RegWr) : Nat × Chip :=
  let old := dirBase c
  if !isIdleBlock c .sess then (rejBusy, c)
  else
    let c1 := storeReg c x
    if overlaps old (2 ^ 29) (dirBase c1) (2 ^ 29) ∨ regionClear c1 0 = false then (rejLimit, c)
    else (stOK, { c1 with sess := { c1.sess with moveFrom := some (c1.sess.moveFrom.getD old) } })

/-- VIEW_HANDLE (R65): the handle checks of partition 0, then the committed entry. -/
def viewHandleWrite (c : Chip) (x : RegWr) : Nat × Chip :=
  let c1 := settle (storeReg c x)
  let h := x.new
  let st := handleStatus c1 (some x.part) h
  let words := fun (c : Chip) (l : List Byte) =>
    (List.range 32).foldl (fun c k => setReg c (aSESS_VIEW_ENTRY + 4 * k) (wordAt l k)) c
  if st ≠ stOK then (stOK, words (setReg c1 aSESS_VIEW_STAT (w32 (st * 256))) [])
  else
    let i := hIdx h
    let c2 := touch c1 i
    let l := entryBytes (entry c2 i) i ((opsOf c2 i).length - 1)
    (stOK, words (setReg c2 aSESS_VIEW_STAT (w32 (stOK * 256 + 1))) l)

/-- Writes of SESS (R65, R66). -/
def writeSess (c : Chip) (x : RegWr) : Nat × Chip :=
  if ofPair x.a aSESS_DIR_BASE_LO then dirBaseWrite c x
  else if x.a = aSESS_VIEW_HANDLE then viewHandleWrite c x
  else stored c x

/-- Writes of FIG (R88). -/
def writeFig (c : Chip) (x : RegWr) : Nat × Chip :=
  let free := isIdleBlock c .fig
  if ofPair x.a aFIG_LOG_BASE_LO then regionWrite c x free 1
  else if ofPair x.a aFIG_STAGE_BASE_LO ∨ x.a = aFIG_STAGE_SIZE then regionWrite c x free 2
  else stored c x

/-- Writes of TIER (R109, R115, R116). A sweep that runs goes on. -/
def writeTier (c : Chip) (x : RegWr) : Nat × Chip :=
  let free := isIdleBlock c .tier
  if ofPair x.a aTIER_LEDGER_BASE_LO ∨ x.a = aTIER_LEDGER_SIZE then regionWrite c x free 3
  else if x.a = aTIER_HEAP then
    (if free && (fld x.new 24 16 = 0 || 256 < fld x.new 24 16) then (rejLimit, c) else regionWrite c x free 4)
  else if x.a = aTIER_SWEEP then
    if bit x.ones 31 = false then (stOK, c)
    else if isOn c .tier = false then (rejBusy, c)
    else (stOK, sweepStart c)
  else stored c x

/-- After a change of GDR.INTERLEAVE.MODE nothing in GDDR7 is readable at its old address (R118): no address is written
since, and the ENTRY_CRC of an entry that no cache holds fails (log entry 110). -/
def remapped (c : Chip) : Chip :=
  { c with
    mem := []
    sess := { c.sess with entries := c.sess.entries.map (fun e =>
      if e.1 ∈ c.sess.cached ∨ e.2.state = .free then e else (e.1, { e.2 with crcFlip := 1 })) } }

/-- Writes of GDR (R118). -/
def writeGdr (c : Chip) (x : RegWr) : Nat × Chip :=
  if x.a = aGDR_INTERLEAVE then
    if !isIdleBlock c .gdr then (rejBusy, c)
    else if bit x.new 0 = bit (reg c aGDR_INTERLEAVE) 0 then stored c x
    else
      let r := stored c x
      (r.1, if r.1 = stOK then remapped r.2 else r.2)
  else stored c x

/-- Writes of GRID (R165, R169). -/
def writeGrid (c : Chip) (x : RegWr) : Nat × Chip :=
  if x.a = aGRID_CORE_CTRL then
    if !x.plain ∨ fld x.raw 2 0 = 0 then (stOK, c)
    else
      match coreCtrl c (fld (reg c aGRID_CORE_SEL) 7 0) x.raw with
      | some c1 => (stOK, c1)
      | none => (rejState, c)
  else if x.a = aGRID_PROG_ERR then (stOK, if plainBit x 31 then setReg c aGRID_PROG_ERR 0 else c)
  else stored c x

/-- Writes of SCHED (R228, R241, R242). -/
def writeSched (c : Chip) (x : RegWr) : Nat × Chip :=
  if ofPair x.a aSCHED_CLIENT_BASE_LO then
    let y := regionWrite c x (isIdleBlock c .sched) 5
    (y.1, if y.1 = stOK then { y.2 with sched := { y.2.sched with clientMove := true } } else y.2)
  else if x.a = aSCHED_RATIO_CFG then
    let c1 := storeReg c x
    (stOK, setSched c1 x.bank { schedPart c1 x.bank with initDue := true })
  else stored c x

/-! ### Slots, vocabularies, grammars (R196, R266, R271, R272, R278, R535) -/

/-- Writes of ATTN. -/
def writeAttn (c : Chip) (x : RegWr) : Nat × Chip :=
  let s := x.bank
  if ofPair x.a aATTN_LAYERS_LO then
    if c.checks.model = some s then (rejBusy, c)
    else if slotNamed c s then (rejState, c)
    else stored c x
  else if x.a = aATTN_MODEL_CTRL then
    if c.checks.model.isSome then (rejBusy, c)
    else if slotNamed c s ∧ (fld x.new 15 8 ≠ fld x.old 15 8 ∨ (!bit x.new 0 ∧ (x.plain ∨ bit x.old 0))) then
      (rejState, c)
    else
      let c1 := setFldB c s aATTN_MODEL_CTRL 15 8 (fld x.new 15 8)
      if bit x.new 0 then (stOK, if bit x.old 0 then c1 else modelCheckStart c1 s)
      else (stOK, modelInvalid c1 s)
  else stored c x

/-- Writes of SAMP: SLOT_VOCAB takes at most 2^20 tokens (R265), and not while a session names its slot (R266). -/
def writeSamp (c : Chip) (x : RegWr) : Nat × Chip :=
  if x.a = aSAMP_SLOT_VOCAB then
    if c.checks.vocab = some x.bank then (rejBusy, c)
    else if slotNamed c x.bank ∨ slotDrafts c x.bank then (rejState, c)
    else if 2 ^ 20 < fld x.new 20 0 then (rejLimit, c)
    else stored c x
  else stored c x

/-- A write of VOCAB_CTRL: MODE and VALID. -/
def vocabCtrlWrite (c : Chip) (x : RegWr) : Nat × Chip :=
  if c.checks.vocab.isSome then (rejBusy, c)
  else if slotNamed c x.bank then (rejState, c)
  else
    let c1 := setFldB c x.bank aTEXT_VOCAB_CTRL 1 1 (fld x.new 1 1)
    if bit x.new 0 then (stOK, if bit x.old 0 then c1 else vocabCheckStart c1 x.bank)
    else (stOK, vocabInvalid c1 x.bank)

/-- A write of GRAM_CTRL: SLOT and VALID. -/
def gramCtrlWrite (c : Chip) (x : RegWr) : Nat × Chip :=
  if c.checks.gram.isSome then (rejBusy, c)
  else if gramNamed c x.bank ∧ (fld x.new 7 4 ≠ fld x.old 7 4 ∨ (!bit x.new 0 ∧ (x.plain ∨ bit x.old 0))) then (rejState, c)
  else
    let c1 := setFldB c x.bank aTEXT_GRAM_CTRL 7 4 (fld x.new 7 4)
    if bit x.new 0 then (stOK, if bit x.old 0 then c1 else gramCheckStart c1 x.bank)
    else (stOK, gramInvalid c1 x.bank)

/-- Writes of TEXT. -/
def writeText (c : Chip) (x : RegWr) : Nat × Chip :=
  if ofPair x.a aTEXT_VOCAB_LO then
    if c.checks.vocab = some x.bank then (rejBusy, c)
    else if slotNamed c x.bank then (rejState, c)
    else stored c x
  else if x.a = aTEXT_VOCAB_CTRL then vocabCtrlWrite c x
  else if ofPair x.a aTEXT_GRAM_LO then
    if c.checks.gram = some x.bank then (rejBusy, c)
    else if gramNamed c x.bank then (rejState, c)
    else stored c x
  else if x.a = aTEXT_GRAM_CTRL then gramCtrlWrite c x
  else if ofPair x.a aTEXT_WORK_BASE_LO ∨ x.a = aTEXT_WORK_SIZE then regionWrite c x (isIdleBlock c .text) 6
  else stored c x

/-! ### CUT, XPT, PEER, HOST, EGR -/

/-- A write of RESOLVE (R307, R309): the action, whose code goes to STATUS; the write itself is accepted (log entry
80). -/
def resolveWrite (c : Chip) (x : RegWr) : Nat × Chip :=
  let k := fld x.new 1 0
  let c1 := storeReg c x
  if (k = 1 ∨ k = 2) ∧ (x.plain ∨ k ≠ fld x.old 1 0) then
    let y := cutResolve c1 (reg c1 aCUT_RESOLVE_HANDLE) k
    (stOK, setFld y.2 aCUT_RESOLVE 15 8 y.1)
  else (stOK, c1)

/-- Writes of CUT. -/
def writeCut (c : Chip) (x : RegWr) : Nat × Chip :=
  if ofPair x.a aCUT_MODEL_KEY_LO then (if slotNamed c x.bank then (rejState, c) else stored c x)
  else if x.a = aCUT_RESOLVE then resolveWrite c x
  else stored c x

/-- A write of CONN_CTRL (R317, R341): EVENTS and CKPT are stored, then the one action. -/
def connCtrlWrite (c : Chip) (x : RegWr) : Nat × Chip :=
  let n := x.bank
  let w := if x.plain then fld x.raw 4 0 else 0
  let c1 := storeReg c x
  let y :=
    if w = 0 then (stOK, c1)
    else if w = 1 then connOpen c1 n
    else if w = 2 then (if (conn c n).state = .open then (stOK, connCloseOp c1 n) else (rejState, c1))
    else if w = 4 then connRelease c1 n
    else if w = 8 then connMgmt c1 n
    else if w = 16 then connUnmgmt c1 n
    else (rejState, c1)
  (y.1, if y.1 = stOK then y.2 else if y.1 = rejLimit then raise c .xpt 19 else c)

/-- Writes of XPT (R322, R340, R341). -/
def writeXpt (c : Chip) (x : RegWr) : Nat × Chip :=
  if aXPT_CONN_ADDR ≤ x.a ∧ x.a ≤ aXPT_CONN_RATE then
    if partOfConn c x.bank ≠ some x.part then (rejPart, c)
    else if x.a = aXPT_CONN_CTRL then connCtrlWrite c x
    else if x.a < aXPT_CONN_CTRL ∧ (conn c x.bank).state ≠ .closed then (rejState, c)
    else stored c x
  else if aXPT_SPRAY_CONN ≤ x.a ∧ x.a < aXPT_SPRAY_CONN + 32 then
    if (conn c (fld x.new 13 0)).state ≠ .closed then (rejState, c) else stored c x
  else stored c x

/-- A write of PEER.PORT_CFG: a change of ENABLE trains the port or takes it OFF (R361). -/
def portCfgWrite (c : Chip) (x : RegWr) : Nat × Chip :=
  let was := portEnabled c x.bank
  let c1 := storeReg c x
  if was ∧ !bit x.new 0 then (stOK, portOff c1 x.bank)
  else if !was ∧ bit x.new 0 ∧ isOn c .peer ∧ (pport c x.bank).state = .off then (stOK, portTrain c1 x.bank)
  else (stOK, c1)

/-- Writes of PEER (R349, R354, R363). RT_CTRL: SWAP, then COPY. -/
def writePeer (c : Chip) (x : RegWr) : Nat × Chip :=
  if x.a = aPEER_NODE ∧ !isIdleBlock c .peer then (rejBusy, c)
  else if x.a = aPEER_PORT_CFG then portCfgWrite c x
  else if x.a = aPEER_CAL_CTRL then
    let c1 := setKey c (rkey 0 x.a) (storeMask x.row &&& ~~~1) x.new
    (stOK, if bit x.ones 0 then startSweep c1 else c1)
  else if x.a = aPEER_RT_DATA then
    (stOK, rtAdvance (setShadow c (fld (reg c aPEER_RT_INDEX) 11 0) (x.new &&& storeMask x.row)))
  else if x.a = aPEER_RT_CTRL then
    let c1 := if bit x.ones 0 then rtSwap c else c
    (stOK, if bit x.ones 1 then rtCopy c1 else c1)
  else stored c x

/-- Writes of HOST (R370, R379). -/
def writeHost (c : Chip) (x : RegWr) : Nat × Chip :=
  if x.a = aHOST_PORT_CFG then
    let c1 := storeReg c x
    (stOK, if bit (reg c x.a) 0 ∧ !bit x.new 0 then hostOff c1 else c1)
  else if x.a = aHOST_CAL_CTRL then
    (stOK, if bit x.ones 0 ∧ c.host.state = .up then hostTrain c else c)
  else stored c x

/-- Writes of EGR (R371, R381). -/
def writeEgr (c : Chip) (x : RegWr) : Nat × Chip :=
  let busy := !(equeue c x.bank).pkts.isEmpty ||
    c.xpt.conns.any (fun k => decide (k.2.state ≠ .closed) && decide (queueOf c k.1 = x.bank))
  if x.a = aEGR_Q_CFG ∧ busy then (rejState, c) else stored c x

/-! ### SRCH, CKPT, CRC, TEL -/

/-- A write of IDX_CTRL (R387, R405, R535). -/
def idxCtrlWrite (c : Chip) (x : RegWr) : Nat × Chip :=
  let i := x.bank
  let valid := bit x.old 0
  if ixChecking c i then (rejBusy, c)
  else if valid ∧ !bit x.new 0 ∧ ixBusy c i then (rejBusy, c)
  else if valid ∧ fld x.new 10 8 ≠ fld x.old 10 8 then (rejState, c)
  else
    let c1 := setKey c (rkey i x.a) (storeMask x.row &&& ~~~1) x.new
    if bit x.new 0 then (stOK, if valid then c1 else ixCheckStart c1 i)
    else (stOK, setFldB c1 i aSRCH_IDX_CTRL 0 0 0)

/-- Writes of SRCH. -/
def writeSrch (c : Chip) (x : RegWr) : Nat × Chip :=
  let idx := fld (reg c aSRCH_INDEX_SEL) 3 0
  if x.a = aSRCH_IDX_CTRL then idxCtrlWrite c x
  else if aSRCH_IDX_FORMAT ≤ x.a ∧ x.a ≤ aSRCH_IDX_DELETED then
    if ixChecking c x.bank then (rejBusy, c)
    else if ixValid c x.bank then (rejState, c)
    else stored c x
  else if x.a = aSRCH_SHARD_ENTRY ∧ ixValid c idx ∧
      c.srch.queries.any (fun q => decide (q.index = idx) && sSharded q.req) then (rejState, c)
  else stored c x

/-- A write of RESTORE_CTRL (R418, R424). -/
def restoreWrite (c : Chip) (x : RegWr) : Nat × Chip :=
  let c1 := storeReg c x
  if bit x.ones 0 = false then (stOK, c1)
  else
    let st := restoreRefusal c
    if st ≠ stOK then (st, c)
    else (stOK, restoreStart c1 x.args.gen0 x.args.gen1)

/-- Writes of CKPT (R408, R414, R418, R421, R424). -/
def writeCkpt (c : Chip) (x : RegWr) : Nat × Chip :=
  if x.a = aCKPT_CTRL then (if plainBit x 0 then ckptNow c else (stOK, c))
  else if x.a = aCKPT_NEXT_AREA_TAG then (stOK, forgetGens (storeReg c x))
  else if x.a = aCKPT_HOST_AREA then regionWrite c x (decide (bstate c .ckpt = .off)) 7
  else if x.a = aCKPT_RESTORE_CTRL then restoreWrite c x
  else if x.a = aCKPT_CUT_RESOLVE then
    let k := fld x.new 1 0
    if (k = 1 ∨ k = 2) ∧ (x.plain ∨ k ≠ fld x.old 1 0) then cutResolveHeld (storeReg c x) k else stored c x
  else stored c x

/-- Writes of CRC (R511-R517). -/
def writeCrc (c : Chip) (x : RegWr) : Nat × Chip :=
  if x.a = aCRC_CTRL then (if plainBit x 0 then crcStart c x.bank else (stOK, c))
  else if aCRC_CFG ≤ x.a ∧ x.a ≤ aCRC_LEN ∧ (crcUnit c x.bank).busy then (rejBusy, c)
  else stored c x

/-- Writes of TEL (R454, R471). -/
def writeTel (c : Chip) (x : RegWr) : Nat × Chip :=
  if x.a = aTEL_PART_SEL ∧ x.part ≠ 0 then (stOK, c)
  else if x.a = aTEL_TRACE_CTRL then traceWrite c x.new
  else stored c x

/-! ### All pages -/

/-- What a write of a register does: the status of the access and the chip. -/
def pageWrite (c : Chip) (x : RegWr) : Nat × Chip :=
  match pageOf (x.a / 0x4000) with
  | .chip => writeChip c x
  | .clk => writeClk c x
  | .pwr => writePwr c x
  | .sec => writeSec c x
  | .flt => writeFlt c x
  | .sess => writeSess c x
  | .fig => writeFig c x
  | .tier => writeTier c x
  | .gdr => writeGdr c x
  | .flash => stored c x
  | .grid => writeGrid c x
  | .sched => writeSched c x
  | .attn => writeAttn c x
  | .samp => writeSamp c x
  | .spec => stored c x
  | .text => writeText c x
  | .cut => writeCut c x
  | .xpt => writeXpt c x
  | .peer => writePeer c x
  | .host => writeHost c x
  | .egr => writeEgr c x
  | .srch => writeSrch c x
  | .ckpt => writeCkpt c x
  | .crc => writeCrc c x
  | .tel => writeTel c x

/-- A plain _LO write that goes to the hold may be refused by its register's rule (R272, R278, R515, R535). -/
def loRefusal (c : Chip) (bank a : Nat) : Nat :=
  if a = aATTN_LAYERS_LO then (if c.checks.model = some bank then rejBusy else stOK)
  else if a = aTEXT_VOCAB_LO then
    (if c.checks.vocab = some bank then rejBusy else if slotNamed c bank then rejState else stOK)
  else if a = aTEXT_GRAM_LO then
    (if c.checks.gram = some bank then rejBusy else if gramNamed c bank then rejState else stOK)
  else if aCRC_POLY_LO ≤ a ∧ a ≤ aCRC_SRC_LO ∧ (crcUnit c bank).busy then rejBusy
  else stOK

end Sys2Proof.Machine
end

