-- ==== Sys2Proof/Machine/Window.lean ====
section
/-! DEFINITION. Management accesses (R8-R27): who may reach which address, the aliases, the unlock, the hold, the common
header, and the writes of configuration images (R35, R504). -/

namespace Sys2Proof.Machine

/-! ### Who reaches what (R8-R10, R13-R15, R454) -/

/-- The sideband answers: auxiliary supply good, the address not NACKed, RESET_N released, and no scan instruction that
takes the pins (R463, R527). -/
def sidebandUp (c : Chip) : Bool := minuetOn c && !c.smb.nacking && !c.chip.inReset && (tapPins c).isNone

/-- A connection designated for management, whose frames this node takes (R10, R443, R477). -/
def inbandUp (c : Chip) (n : Nat) : Bool :=
  let k := conn c n
  k.mgmt && decide (k.state = .open ∨ k.state = .closing) && fastRuns c && nodeServes c && xptCarries c n

/-- The requester exists and can make an access. -/
def requesterUp (c : Chip) (r : Requester) : Bool :=
  match r with
  | .sideband => sidebandUp c
  | .conn n => inbandUp c n.toNat

/-- Offsets of SEC that a tenant reads (R454). -/
def tenantSecRead (base : Nat) : Bool :=
  base = aSEC_PART_SEL || base = aSEC_PART_CTRL || (aSEC_PART_RES ≤ base && base ≤ aSEC_PART_CONSENT) ||
    (aSEC_MP0_ ≤ base && base < aSEC_MP0_ + 32) || (aSEC_MP1_ ≤ base && base < aSEC_MP1_ + 32) ||
    (aSEC_MC0_ ≤ base && base < aSEC_MC0_ + 96) || base = aSEC_BOOT_STAT || base = aSEC_DEVICE_ID_LO ||
    base = aSEC_DEVICE_ID_HI || base = aSEC_CHIP_DEBUG || base = aSEC_ATTEST_CNT

/-- Registers of TEL but those of the trace (R454, R471). -/
def tenantTel (base : Nat) : Bool := pageIdx .tel = base / 0x4000 && aTEL_PART_SEL ≤ base && base < aTEL_TRACE_CTRL

/-- A requester of partition `q` may read a base address (R454). -/
def mayRead (q base : Nat) : Bool :=
  q = 0 || base % 0x4000 < 0x40 || tenantSecRead base || tenantTel base

/-- A requester of partition `q` may write a base address (R454); its writes of PART_SEL are discarded. -/
def mayWrite (q base : Nat) : Bool :=
  q = 0 || base = aSEC_PART_SEL || base = aSEC_PART_CONSENT || (aSEC_EXTEND ≤ base && base < aSEC_EXTEND + 32) ||
    tenantTel base

/-- The base address of an access: the aliases are taken away (R22). -/
def baseAddr (a : Nat) : Nat := a / 0x4000 * 0x4000 + a % 0x1000

/-- The alias of an access (R22). -/
def aliasOf (a : Nat) : WMode :=
  let k := a % 0x4000 / 0x1000
  if k = 0 then .plain else if k = 1 then .set else if k = 2 then .clear else .toggle

/-- Pages of the fast domain are served from t6 of R490, while the domain runs and no trip holds (R13, R443). -/
def fastServed (c : Chip) : Bool :=
  fastRuns c && !c.pwr.tripped && c.chip.bootDone

/-- The checks before an access reaches its register: address (R8, R9), grant (R15), power (R13). A sideband access to a
page of the fast domain in NAP wakes it (R495). -/
def gate (c : Chip) (r : Requester) (write : Bool) (a : Nat) : Nat × Chip :=
  if a % 4 ≠ 0 ∨ 0x64000 ≤ a then (rejLimit, c)
  else
    let q := reqPart c r
    let base := baseAddr a
    if (if write then mayWrite q base else mayRead q base) = false then (rejPart, c)
    else if minuetPage (pageOf (a / 0x4000)) then (stOK, c)
    else
      let c1 :=
        if r = .sideband ∧ c.chip.fast = .nap ∧ nodeServes c then
          let (v, c1) := takeFree c
          wakeFast c1 4 (v % 65536)
        else c
      (if fastServed c1 then stOK else rejBusy, c1)

/-! ### Reads -/

/-- A read that has passed the gate: status, word, and the chip after it. A reserved offset reads 0 (R9); tenants read TEL
only while it is ON (R471). -/
def readAt (c : Chip) (r : Requester) (a : Nat) : Nat × Word × Chip :=
  let base := baseAddr a
  let p := pageOf (a / 0x4000)
  if base % 0x4000 < 0x40 then (stOK, hdrWord c p (base % 0x4000) r, if base % 0x4000 = 8 then voteCtrl c p else c)
  else
    match rowOf base with
    | some row =>
      if reqPart c r ≠ 0 ∧ tenantTel base = true ∧ isOn c .tel = false then (rejBusy, 0, c)
      else shadowRead c r (reqPart c r) row base
    | none => (stOK, 0, c)

/-- A management read: its status and word stand in `mgmt.acc`. -/
def mgmtRead (c : Chip) (r : Requester) (a : Nat) : Chip :=
  if requesterUp c r = false then c
  else
    let g := gate c r false a
    if g.1 ≠ stOK then answer g.2 g.1 0
    else
      let x := readAt g.2 r a
      answer x.2.2 x.1 x.2.1

/-! ### The unlock and the hold (R25-R27) -/

/-- The requester has an unlock armed on a page. -/
def armed (c : Chip) (r : Requester) (p : Page) : Bool := decide (pageIdx p ∈ (reqState c r).unlocked)

/-- Arms or disarms an unlock. -/
def setArmed (c : Chip) (r : Requester) (p : Page) (on : Bool) : Chip :=
  let s := reqState c r
  let others := s.unlocked.filter (fun i => i ≠ pageIdx p)
  setReqState c r { s with unlocked := if on then insertBy id (pageIdx p) others else others }

/-- Empties the hold of a requester. -/
def dropHold (c : Chip) (r : Requester) : Chip := setReqState c r { reqState c r with hold := none }

/-- The held _LO word of the pair of a _HI register. -/
def heldLo (s : ReqState) (bank a : Nat) : Option Word :=
  match s.hold with
  | some (k, w) => if k = rkey bank (a - 4) then some w else none
  | none => none

/-! ### The common header (R17-R19, R26, R31) -/

/-- The highest block event of a page, as the BLK_INT table of its chapter gives it; the bits above are reserved. -/
def intTop (p : Page) : Nat :=
  match p with
  | .chip => 20
  | .clk => 18
  | .pwr => 21
  | .sec => 19
  | .flt => 21
  | .sess => 19
  | .fig => 18
  | .tier => 21
  | .gdr => 19
  | .flash => 23
  | .grid => 21
  | .sched => 20
  | .attn => 18
  | .samp => 18
  | .spec => 18
  | .text => 20
  | .cut => 20
  | .xpt => 21
  | .peer => 22
  | .host => 21
  | .egr => 17
  | .srch => 20
  | .ckpt => 22
  | .crc => 23
  | .tel => 16

/-- Bits of BLK_INT and BLK_INT_EN that exist on a page (R17): a reserved bit reads 0 and a one written there is
ignored (R9). -/
def intMask (p : Page) : Word := w32 (2 ^ (intTop p + 1) - 2 ^ 16 + 0x7F)

/-- A write of BLK_INT_EN: a bit enabled while it is pending sends an event frame (R19), one for all bits of the write
(log entry 88). -/
def intEnWrite (c : Chip) (p : Page) (m : WMode) (w : Word) : Chip :=
  let h := hdr c p
  let new := wNew m h.intEn (w &&& intMask p) &&& intMask p
  let fresh := new &&& ~~~h.intEn &&& h.int
  let c1 := setHdr c p { h with intEn := new }
  if fresh = 0 then c1 else settleEvents (sendEvent c1 p)

/-- A write of BLK_VOTE_ERR: writing 1 to PENDING clears the record (R17). -/
def voteErrWrite (c : Chip) (p : Page) (w : Word) : Chip :=
  if bit w 0 then
    setHdr c p { hdr c p with voteCount := 0, voteOffset := 0, voteNomaj := false, votePending := false }
  else c

/-- A write of a header register at an offset, with the unlock as it stood before: alias writes act on BLK_CTRL and
BLK_INT_EN alone (R23). A write of 1 to SOFT_RESET needs the unlock (R26). -/
def hdrWrite (c : Chip) (p : Page) (open_ : Bool) (m : WMode) (off : Nat) (w : Word) : Nat × Chip :=
  if off = 0x08 then
    (if bit (wOnes m (ctrlWord c p) w) 3 ∧ open_ = false then (rejState, raise c p 3) else ctrlWrite c p m w)
  else if off = 0x10 ∧ m = .plain then
    (stOK, setHdr c p { hdr c p with int := (hdr c p).int &&& ~~~w })
  else if off = 0x14 then (stOK, intEnWrite c p m w)
  else if off = 0x18 ∧ m = .plain then (stOK, settleEvents (setInt c p (w &&& intMask p)))
  else if off = 0x20 ∧ m = .plain then (stOK, voteErrWrite c p w)
  else (stOK, c)

/-! ### Writes -/

/-- The write of a register row as its page takes it: alias writes act on stored fields alone (R23). -/
def regWrOf (c : Chip) (src : Option Requester) (q : Nat) (args : WrArgs) (row : RegRow) (m : WMode) (bank a : Nat)
    (w : Word) (lo : Option Word) : RegWr :=
  let old := if a = aPEER_RT_DATA then rtShadow c (fld (reg c aPEER_RT_INDEX) 11 0) else plainWord c q bank row a
  let v := if m = .plain then w else w &&& storeMask row
  { src := src, part := q, bank := bank, a := a, row := row, old := old, new := wNew m old v, raw := w,
    ones := wOnes m old v, plain := decide (m = .plain), lo := lo, args := args }

/-- A plain write of the _LO word of a pair goes to the hold and leaves the unlock armed (R25, R27); that of a read-only
pair is ignored. -/
def loWrite (c : Chip) (r : Requester) (row : RegRow) (bank a : Nat) (w : Word) : Nat × Chip :=
  if storeMask row = 0 then (stOK, c)
  else
    let st := loRefusal c bank a
    if st ≠ stOK then (st, c)
    else (stOK, setReqState c r { reqState c r with hold := some (rkey bank a, w) })

/-- A write of a register row: the unlock is consumed, a guarded register without it refuses (R26), and the page's rule
decides. The hold empties when the _HI write of its pair is applied (R27). -/
def rowWrite (c : Chip) (r : Requester) (args : WrArgs) (row : RegRow) (m : WMode) (p : Page) (a : Nat) (w : Word) :
    Nat × Chip :=
  let q := reqPart c r
  let bank := bankFor c q row.bank
  if m = .plain ∧ row.pair = 1 then loWrite c r row bank a w
  else
    let was := armed c r p
    let c1 := setArmed c r p false
    if rowGuarded row ∧ was = false then (rejState, raise c1 p 3)
    else
      let lo := if m = .plain ∧ row.pair = 2 then heldLo (reqState c1 r) bank a else none
      let y := pageWrite c1 (regWrOf c1 (some r) q args row m bank a w lo)
      if y.1 = stOK ∧ lo.isSome then (y.1, dropHold y.2 r) else y

/-- A write that has passed the gate (R20-R27, R31). -/
def writeAt (c : Chip) (r : Requester) (args : WrArgs) (a : Nat) (w : Word) : Nat × Chip :=
  let base := baseAddr a
  let off := base % 0x4000
  let p := pageOf (a / 0x4000)
  let m := aliasOf a
  if m = .plain ∧ off = 0x1C then (stOK, setArmed c r p (decide (w = 0xC0DA)))
  else if off < 0x40 then hdrWrite (setArmed c r p false) p (armed c r p) m off w
  else
    match rowOf base with
    | some row => rowWrite c r args row m p base w
    | none => (stOK, setArmed c r p false)

/-- The status of a sideband write is kept for LAST_STATUS (R13). -/
def keepStatus (c : Chip) (r : Requester) (st : Nat) : Chip :=
  match r with
  | .sideband => { c with smb := { c.smb with lastStatus := BitVec.ofNat 8 st } }
  | .conn _ => c

/-- A management write with the values that only some commands give. DEDUCED: a write that the gate refuses, for its
address, its grant or its page's power, reaches no page and leaves an armed unlock as it was (log entry 91). -/
def mgmtWriteWith (c : Chip) (r : Requester) (args : WrArgs) (a : Nat) (w : Word) : Chip :=
  if requesterUp c r = false then c
  else
    let g := gate c r true a
    let y := if g.1 ≠ stOK then g else writeAt g.2 r args a w
    keepStatus (answer y.2 y.1 0) r y.1

/-- A management write: its status stands in `mgmt.acc`. -/
def mgmtWrite (c : Chip) (r : Requester) (a : Nat) (w : Word) : Chip := mgmtWriteWith c r noArgs a w

/-! ### Writes of configuration images (R35, R503, R504) -/

/-- One write of an image, with the image's own hold: it needs no unlock, and a read-only or reserved field ignores it. -/
def imageWrite (x : Nat × Option (Nat × Word) × Chip) (e : Word × Word) : Nat × Option (Nat × Word) × Chip :=
  if x.1 ≠ stOK then x
  else
    let c := x.2.2
    let a := e.1.toNat
    let p := pageOf (a / 0x4000)
    if a % 0x4000 = 0x08 then
      let y := ctrlWrite c p .plain e.2
      (y.1, x.2.1, y.2)
    else
      match rowOf a with
      | none => x
      | some row =>
        let bank := bankFor c 0 row.bank
        if row.pair = 1 then
          (if storeMask row = 0 then x
           else (loRefusal c bank a, some (rkey bank a, e.2), c))
        else
          let lo := if row.pair = 2 then heldLo { shadow := none, hold := x.2.1, unlocked := [] } bank a else none
          let y := pageWrite c (regWrOf c none 0 noArgs row .plain bank a e.2 lo)
          (y.1, if lo.isSome then none else x.2.1, y.2)

/-- The writes of an image in order up to the first refused one: its index and code, or none, and the chip. -/
def imageWrites (c : Chip) : Nat → Option (Nat × Word) → List (Word × Word) → Option (Nat × Nat) × Chip
  | _, _, [] => (none, c)
  | i, hold, e :: rest =>
    let y := imageWrite (stOK, hold, c) e
    if y.1 ≠ stOK then (some (i, y.1), y.2.2) else imageWrites y.2.2 (i + 1) y.2.1 rest

end Sys2Proof.Machine
end

