-- ==== Sys2Proof/Machine/PowerUp.lean ====
section
/-! DEFINITION. The power-up sequence and overlays (R78, R458, R490, R500-R505). -/

namespace Sys2Proof.Machine

/-! ### Overlays (R78, R505) -/

/-- MC2 is extended with the digest of an image (R458). -/
def extendMc2 (c : Chip) (image : List Byte) : Chip :=
  { c with sec := { c.sec with mc2 := sha256 (c.sec.mc2 ++ sha256 image) } }

/-- The image of an overlay of the running bundle: its bytes and its writes. -/
def overlayImage (c : Chip) (n : Nat) : List Byte × List (Word × Word) :=
  match overlayOf (running c) n with
  | some s => (imgBytes (running c) s, imgWrites (running c) s)
  | none => ([], [])

/-- An overlay that is in force: MC2, IN_FORCE, STATUS, the event (R505). -/
def overlayInForce (c : Chip) (n : Nat) (image : List Byte) : Chip :=
  let c1 := setFld (extendMc2 c image) aCHIP_OVL_STAT 23 16 stOK
  raise { c1 with chip := { c1.chip with inForce := n } } .chip 16

/-- An overlay one of whose writes is refused changes nothing (R505). -/
def overlayRefused (c : Chip) (st : Nat) : Chip := raise (setFld c aCHIP_OVL_STAT 23 16 st) .chip 17

/-- The figure of an overlay. -/
def overlayFig (n : Nat) (writes : List (Word × Word)) : Figure :=
  { subjects := [.config], acts := [.regOverlay n writes], origin := .overlay,
    staged := (stagedBytes [.regOverlay n writes]).length, after := [] }

/-- The oldest queued overlay as one figure, once no partition runs a step and FIG can open it (R78, R219). -/
def overlayCommit (c0 : Chip) : Chip :=
  let c := settle c0
  match c.chip.overlays with
  | [] => c0
  | n :: rest =>
    let img := overlayImage c n
    let fig := overlayFig n img.2
    if parts8.any (fun p => (schedPart c p).step.isSome) || !canOpen c fig then c0
    else
      let c1 : Chip := { c with chip := { c.chip with overlays := rest } }
      match imageWrites c1 0 none img.2 with
      | (some e, _) => overlayRefused (abortOpen c1 fig) e.2
      | (none, _) => overlayInForce (imageWrites (settle (commitFig c1 fig)) 0 none img.2).2 n img.1

/-- OVERLAY_COMMIT. -/
def execOverlayCommit (s : State) : Host.Outcome State Fault Refusal := act s (fun c => whenAwake c overlayCommit)

/-! ### Power-up (R490, R500-R504) -/

/-- CHIP.BOOT and SEC.BOOT_STAT.STATUS after the banks were tried: the failing check of each, the fallback, and the first
failing check of R456 in the last attempt. -/
def bootChecks (c : Chip) (failA failB last : Nat) (fallback : Bool) : Chip :=
  let c1 := setReg c aCHIP_BOOT (w32 (failB * 2 ^ 24 + failA * 2 ^ 16 + 8 * b2n fallback))
  setFld c1 aSEC_BOOT_STAT 31 24 (if last ≤ 5 then last else 0)

/-- What verification of a bundle leaves (R458): MC0, whose boot logic version is not given, is free. -/
def bundleTaken (c : Chip) (b : Bool) : Chip :=
  let src := bankSource c b
  let m := src 0 128
  let c1 : Chip := { c with chip := { c.chip with
    bank := b
    bundleLive := true
    smooth := (List.range 16).foldl (fun t k => tset [] t k (codecTables src)) []
    bundleChanged := decide (mfId m ≠ c.chip.lastBundle)
    lastBundle := mfId m } }
  let c2 := setFld (setFld (setFld c1 aSEC_BOOT_STAT 23 16 (mfSvn m)) aSEC_BOOT_STAT 9 8 (mfSlot m)) aSEC_BOOT_STAT 0 0 (b2n b)
  let (v, c3) := takeFree c2
  let c4 : Chip := { c3 with sec := { c3.sec with
    mc0 := leBytes 32 v
    mc1 := sha256 m
    mc2 := List.replicate 32 0 } }
  setReg c4 aCHIP_OVL_PRESENT (w32 (ovlPresent src))

/-- The boot overlay, after the base image (R490). -/
def bootOverlayStep (c : Chip) : Chip :=
  let n := fld (reg c aCHIP_BOOT_CFG) 11 8
  let none_ : Chip := { c with chip := { c.chip with inForce := 0 } }
  if n = 0 then none_
  else if bit (reg c aCHIP_OVL_PRESENT) n = false then overlayRefused none_ rejLimit
  else
    let img := overlayImage c n
    match imageWrites c 0 none img.2 with
    | (some e, _) => overlayRefused none_ e.2
    | (none, c1) => overlayInForce c1 n img.1

/-- The base image, entry by entry, then the boot overlay (R504). -/
def applyBase (c : Chip) : Chip :=
  let writes := ((sectionsOf (running c) 1).head?.map (imgWrites (running c))).getD []
  match imageWrites c 0 none writes with
  | (some e, c1) =>
    setFld { c1 with chip := { c1.chip with bootState := .configErr } } aCHIP_BASE_ERR 13 0 e.1
  | (none, c1) => bootOverlayStep { c1 with chip := { c1.chip with bootState := .configuring } }

/-- A bank that passed boots. -/
def bootBank (c : Chip) (b : Bool) (fallback : Bool) : Chip :=
  let c1 := applyBase (bundleTaken c b)
  if fallback then raise c1 .chip 20 else c1

/-- The failing check of a bank at boot (R501): 7 where the NOR cannot be read, else that of its bundle. -/
def bankCheck (c : Chip) (readFail : BitVec 2) (b : Bool) : Nat :=
  if readFail.getLsbD (b2n b) then 7 else bundleCheck c (bankSource c b)

/-- The preferred bank first, then the other one (R501). Bit 0 of `readFail` tells that bank A cannot be read, bit 1 that
bank B cannot. -/
def verifyBanks (c : Chip) (readFail : BitVec 2) : Chip :=
  let b := c.chip.prefer
  let k := bankCheck c readFail b
  let other := bankCheck c readFail (!b)
  let ab := fun (mine his : Nat) => if b then (his, mine) else (mine, his)
  if k = 0 then bootBank (bootChecks c 0 0 0 false) b false
  else if other = 0 then bootBank (bootChecks c (ab k 0).1 (ab k 0).2 0 true) (!b) true
  else
    let c1 := bootChecks c (ab k other).1 (ab k other).2 other false
    { c1 with chip := { c1.chip with bootState := .failed } }

/-- The fast domain may start (R489, R478): both supplies good, no reset, no trip, no module fault, and not yet
started. -/
def mayStart (c : Chip) : Bool :=
  minuetOn c && 40000 ≤ c.chip.mainMv && !c.chip.inputOpen && !c.chip.inReset && !c.flt.faulted && !c.pwr.tripped &&
    decide (c.chip.fast = .off ∧ c.chip.bootState = .powering)

/-- SUPPLIES_GOOD: t0 to t3 of R490. -/
def suppliesGood (c : Chip) (readFail : BitVec 2) : Chip :=
  if mayStart c then
    verifyBanks { c with
      chip := { c.chip with fast := .run, refOk := true, pllLost := false }
      flt := { c.flt with boots := c.flt.boots + 1 } } readFail
  else c

/-- SUPPLIES_GOOD. -/
def execSuppliesGood (readFail : BitVec 2) (s : State) : Host.Outcome State Fault Refusal :=
  act s (fun c => suppliesGood c readFail)

/-- BOOT_READY: t4 to t6 of R490, and the result of the hold-up check (R485). CONFIG_ERR stays (R504). -/
def bootReady (c : Chip) (holdupOk : Bool) : Chip :=
  if c.chip.bootDone ∨ ¬(c.chip.bootState = .configuring ∨ c.chip.bootState = .configErr) then c
  else
    let c1 := setReg c aGDR_CH_READY (BitVec.allOnes 32 ^^^ reg c aGDR_CH_FAULT)
    let c2 : Chip := { c1 with
      flash := { c1.flash with mapReady := true }
      chip := { c1.chip with
        bootDone := true
        bootState := if c.chip.bootState = .configuring then .ready else c.chip.bootState } }
    let c3 := setFld c2 aFLT_STATUS 0 0 (b2n holdupOk)
    let c4 := bbPlain (if holdupOk then c3 else raise c3 .flt 21) 1 0
    if c.chip.bundleChanged then bbPlain c4 6 0 else c4

/-- BOOT_READY. -/
def execBootReady (holdupOk : Bool) (s : State) : Host.Outcome State Fault Refusal :=
  act s (fun c => whenAwake c (fun c => bootReady c holdupOk))

end Sys2Proof.Machine
end

