-- ==== Sys2Proof/Machine/WinRows.lean ====
section
/-! DEFINITION. The commands that are one management access (R18-R27, R31 and the register rules of the chapters): each
names its address and word. -/

namespace Sys2Proof.Machine

/-- Address of a header register of a page. -/
def hdrAddr (p : Page) (off : Nat) : Nat := pageIdx p * 0x4000 + off

/-- The address of an alias of a register: an address that is already in an alias page keeps its register. -/
def aliasAddr (k a : Nat) : Nat := if a < 0x64000 then baseAddr a + k else a

/-- CONN_CTRL of the selected connection with one action bit. -/
def connAction (c : Chip) (bit : Nat) : Word :=
  (regB c (bankFor c 0 .conn) aXPT_CONN_CTRL &&& 0x600) ||| w32 bit

/-- A register as a requester would read it. -/
def plainWordAt (c : Chip) (r : Requester) (a : Nat) : Word :=
  match rowOf a with
  | some row => plainWord c (reqPart c r) (bankFor c (reqPart c r) row.bank) row a
  | none => 0

/-- REGISTER_WRITE (R20). -/
def execRegisterWrite (r : Requester) (addr data : Word) (s : State) : Host.Outcome State Fault Refusal :=
  act s (fun c => mgmtWrite c r addr.toNat data)

/-- LO_READ (R27). -/
def execLoRead (r : Requester) (addr : Word) (s : State) : Host.Outcome State Fault Refusal :=
  act s (fun c => mgmtRead c r addr.toNat)

/-- LO_WRITE (R27). -/
def execLoWrite (r : Requester) (addr data : Word) (s : State) : Host.Outcome State Fault Refusal :=
  act s (fun c => mgmtWrite c r addr.toNat data)

/-- HI_WRITE (R27). -/
def execHiWrite (r : Requester) (addr data : Word) (s : State) : Host.Outcome State Fault Refusal :=
  act s (fun c => mgmtWrite c r addr.toNat data)

/-- ALIAS_SET (R22): `addr` is the base address. -/
def execAliasSet (r : Requester) (addr data : Word) (s : State) : Host.Outcome State Fault Refusal :=
  act s (fun c => mgmtWrite c r (aliasAddr 0x1000 addr.toNat) data)

/-- ALIAS_CLEAR (R22): `addr` is the base address. -/
def execAliasClear (r : Requester) (addr data : Word) (s : State) : Host.Outcome State Fault Refusal :=
  act s (fun c => mgmtWrite c r (aliasAddr 0x2000 addr.toNat) data)

/-- ALIAS_TOGGLE (R22): `addr` is the base address. -/
def execAliasToggle (r : Requester) (addr data : Word) (s : State) : Host.Outcome State Fault Refusal :=
  act s (fun c => mgmtWrite c r (aliasAddr 0x3000 addr.toNat) data)

/-- BLK_UNLOCK (R25). -/
def execBlkUnlock (r : Requester) (page : Page) (data : Word) (s : State) : Host.Outcome State Fault Refusal :=
  act s (fun c => mgmtWrite c r (hdrAddr page 0x1C) data)

/-- UNLOCK_LAPSE (R25). -/
def execUnlockLapse (r : Requester) (page : Page) (s : State) : Host.Outcome State Fault Refusal :=
  act s (fun c => if minuetOn c then setArmed c r page false else c)

/-- ENABLE (R31): a plain write of BLK_CTRL. -/
def execEnable (r : Requester) (page : Page) (value : Word) (s : State) : Host.Outcome State Fault Refusal :=
  act s (fun c => mgmtWrite c r (hdrAddr page 0x08) value)

/-- DRAIN (R31): a write of 1 to the bit through the set alias. -/
def execDrain (r : Requester) (page : Page) (s : State) : Host.Outcome State Fault Refusal :=
  act s (fun c => mgmtWrite c r (hdrAddr page 0x1008) 2)

/-- SELFTEST (R31): a write of 1 to the bit through the set alias. -/
def execSelftest (r : Requester) (page : Page) (s : State) : Host.Outcome State Fault Refusal :=
  act s (fun c => mgmtWrite c r (hdrAddr page 0x1008) 4)

/-- SOFT_RESET (R31): a write of 1 to the bit through the set alias. -/
def execSoftReset (r : Requester) (page : Page) (s : State) : Host.Outcome State Fault Refusal :=
  act s (fun c => mgmtWrite c r (hdrAddr page 0x1008) 8)

/-- BLK_INT_SET (R18). -/
def execBlkIntSet (r : Requester) (page : Page) (data : Word) (s : State) : Host.Outcome State Fault Refusal :=
  act s (fun c => mgmtWrite c r (hdrAddr page 0x18) data)

/-- BLK_INT_EN_WRITE (R19). -/
def execBlkIntEnWrite (r : Requester) (page : Page) (data : Word) (s : State) : Host.Outcome State Fault Refusal :=
  act s (fun c => mgmtWrite c r (hdrAddr page 0x14) data)

/-- MODEL_VALIDATE (R196). -/
def execModelValidate (r : Requester) (layers : Byte) (s : State) : Host.Outcome State Fault Refusal :=
  act s (fun c => mgmtWrite c r aATTN_MODEL_CTRL (w32 (layers.toNat * 256 + 1)))

/-- MODEL_INVALIDATE (R196). -/
def execModelInvalidate (r : Requester) (layers : Byte) (s : State) : Host.Outcome State Fault Refusal :=
  act s (fun c => mgmtWrite c r aATTN_MODEL_CTRL (w32 (layers.toNat * 256)))

/-- VOCAB_VALIDATE (R271). -/
def execVocabValidate (r : Requester) (mode : Bool) (s : State) : Host.Outcome State Fault Refusal :=
  act s (fun c => mgmtWrite c r aTEXT_VOCAB_CTRL (w32 (2 * b2n mode + 1)))

/-- VOCAB_INVALIDATE (R272). -/
def execVocabInvalidate (r : Requester) (mode : Bool) (s : State) : Host.Outcome State Fault Refusal :=
  act s (fun c => mgmtWrite c r aTEXT_VOCAB_CTRL (w32 (2 * b2n mode)))

/-- GRAM_VALIDATE (R278). -/
def execGramValidate (r : Requester) (slot : BitVec 4) (s : State) : Host.Outcome State Fault Refusal :=
  act s (fun c => mgmtWrite c r aTEXT_GRAM_CTRL (w32 (slot.toNat * 16 + 1)))

/-- GRAM_INVALIDATE (R278). -/
def execGramInvalidate (r : Requester) (slot : BitVec 4) (s : State) : Host.Outcome State Fault Refusal :=
  act s (fun c => mgmtWrite c r aTEXT_GRAM_CTRL (w32 (slot.toNat * 16)))

/-- IDX_VALIDATE (R387). -/
def execIdxValidate (r : Requester) (part : Part) (repair : Bool) (s : State) : Host.Outcome State Fault Refusal :=
  act s (fun c => mgmtWrite c r aSRCH_IDX_CTRL (w32 (part.toNat * 256 + 2 * b2n repair + 1)))

/-- IDX_INVALIDATE (R387). -/
def execIdxInvalidate (r : Requester) (part : Part) (repair : Bool) (s : State) : Host.Outcome State Fault Refusal :=
  act s (fun c => mgmtWrite c r aSRCH_IDX_CTRL (w32 (part.toNat * 256 + 2 * b2n repair)))

/-- VIEW_HANDLE (R65). -/
def execViewHandle (r : Requester) (handle : Word) (s : State) : Host.Outcome State Fault Refusal :=
  act s (fun c => mgmtWrite c r aSESS_VIEW_HANDLE handle)

/-- DAMAGE_SWEEP_START (R109). -/
def execDamageSweepStart (r : Requester) (s : State) : Host.Outcome State Fault Refusal :=
  act s (fun c => mgmtWrite c r aTIER_SWEEP 0x80000000)

/-- CORE_ONLINE (R165). -/
def execCoreOnline (r : Requester) (s : State) : Host.Outcome State Fault Refusal :=
  act s (fun c => mgmtWrite c r aGRID_CORE_CTRL 4)

/-- CORE_OFFLINE (R165). -/
def execCoreOffline (r : Requester) (s : State) : Host.Outcome State Fault Refusal :=
  act s (fun c => mgmtWrite c r aGRID_CORE_CTRL 2)

/-- CORE_TEST (R165). -/
def execCoreTest (r : Requester) (s : State) : Host.Outcome State Fault Refusal :=
  act s (fun c => mgmtWrite c r aGRID_CORE_CTRL 1)

/-- CAL_SWEEP_START (R354): a write of CAL_CTRL.START through the set alias, or the module's own start. -/
def execCalSweepStart (by_ : Option Requester) (s : State) : Host.Outcome State Fault Refusal :=
  act s (fun c => match by_ with
    | some r => mgmtWrite c r (aliasAddr 0x1000 aPEER_CAL_CTRL) 1
    | none => whenLinked c (fun c => if calAuto c then startSweep c else c))

/-- PORT_ENABLE (R361): a write of PORT_CFG of the selected port. -/
def execPortEnable (r : Requester) (value : Word) (s : State) : Host.Outcome State Fault Refusal :=
  act s (fun c => mgmtWrite c r aPEER_PORT_CFG value)

/-- RT_SWAP (R349). -/
def execRtSwap (r : Requester) (s : State) : Host.Outcome State Fault Refusal :=
  act s (fun c => mgmtWrite c r aPEER_RT_CTRL 1)

/-- RT_COPY (R363). -/
def execRtCopy (r : Requester) (s : State) : Host.Outcome State Fault Refusal :=
  act s (fun c => mgmtWrite c r aPEER_RT_CTRL 2)

/-- RT_DATA_ACCESS (R363). -/
def execRtDataAccess (r : Requester) (write : Option Word) (s : State) : Host.Outcome State Fault Refusal :=
  act s (fun c => match write with
    | some w => mgmtWrite c r aPEER_RT_DATA w
    | none => mgmtRead c r aPEER_RT_DATA)

/-- HOST_CAL_START (R370). -/
def execHostCalStart (r : Requester) (s : State) : Host.Outcome State Fault Refusal :=
  act s (fun c => mgmtWrite c r (aliasAddr 0x1000 aHOST_CAL_CTRL) 1)

/-- CONN_OPEN (R315): the selected connection's EVENTS and CKPT stay as they are. -/
def execConnOpen (r : Requester) (s : State) : Host.Outcome State Fault Refusal :=
  act s (fun c => mgmtWrite c r aXPT_CONN_CTRL (connAction c 1))

/-- CONN_CLOSE (R317): the selected connection's EVENTS and CKPT stay as they are. -/
def execConnClose (r : Requester) (s : State) : Host.Outcome State Fault Refusal :=
  act s (fun c => mgmtWrite c r aXPT_CONN_CTRL (connAction c 2))

/-- CONN_RELEASE (R317): the selected connection's EVENTS and CKPT stay as they are. -/
def execConnRelease (r : Requester) (s : State) : Host.Outcome State Fault Refusal :=
  act s (fun c => mgmtWrite c r aXPT_CONN_CTRL (connAction c 4))

/-- CONN_MGMT (R316): the selected connection's EVENTS and CKPT stay as they are. -/
def execConnMgmt (r : Requester) (s : State) : Host.Outcome State Fault Refusal :=
  act s (fun c => mgmtWrite c r aXPT_CONN_CTRL (connAction c 8))

/-- CONN_UNMGMT (R317): the selected connection's EVENTS and CKPT stay as they are. -/
def execConnUnmgmt (r : Requester) (s : State) : Host.Outcome State Fault Refusal :=
  act s (fun c => mgmtWrite c r aXPT_CONN_CTRL (connAction c 16))

/-- RESOLVE_SETTLE (R307). -/
def execResolveSettle (r : Requester) (s : State) : Host.Outcome State Fault Refusal :=
  act s (fun c => mgmtWrite c r aCUT_RESOLVE 1)

/-- RESOLVE_DISCARD (R307). -/
def execResolveDiscard (r : Requester) (s : State) : Host.Outcome State Fault Refusal :=
  act s (fun c => mgmtWrite c r aCUT_RESOLVE 2)

/-- CKPT_NOW (R414). -/
def execCkptNow (r : Requester) (s : State) : Host.Outcome State Fault Refusal :=
  act s (fun c => mgmtWrite c r aCKPT_CTRL 1)

/-- RESTORE_START (R418): with the bytes of the two generation objects as they are read. -/
def execRestoreStart (r : Requester) (gen0 gen1 : List Byte) (s : State) : Host.Outcome State Fault Refusal :=
  act s (fun c => mgmtWriteWith c r { us := none, early := none, gen0 := gen0, gen1 := gen1 } aCKPT_RESTORE_CTRL 1)

/-- CKPT_CUT_RECLAIM (R421). -/
def execCkptCutReclaim (r : Requester) (s : State) : Host.Outcome State Fault Refusal :=
  act s (fun c => mgmtWrite c r aCKPT_CUT_RESOLVE 1)

/-- CKPT_CUT_DROP (R421). -/
def execCkptCutDrop (r : Requester) (s : State) : Host.Outcome State Fault Refusal :=
  act s (fun c => mgmtWrite c r aCKPT_CUT_RESOLVE 2)

/-- NEXT_AREA_TAG_WRITE (R408). -/
def execNextAreaTagWrite (r : Requester) (data : Word) (s : State) : Host.Outcome State Fault Refusal :=
  act s (fun c => mgmtWrite c r aCKPT_NEXT_AREA_TAG data)

/-- TRIP_CLEAR (R444). -/
def execTripClear (r : Requester) (data : Word) (s : State) : Host.Outcome State Fault Refusal :=
  act s (fun c => mgmtWrite c r aPWR_TRIP data)

/-- PART_VALIDATE (R448). -/
def execPartValidate (r : Requester) (s : State) : Host.Outcome State Fault Refusal :=
  act s (fun c => mgmtWrite c r aSEC_PART_CTRL 1)

/-- PART_INVALIDATE (R450). -/
def execPartInvalidate (r : Requester) (s : State) : Host.Outcome State Fault Refusal :=
  act s (fun c => mgmtWrite c r aSEC_PART_CTRL 0)

/-- PART_PURGE (R451): VALID is written as it reads. -/
def execPartPurge (r : Requester) (s : State) : Host.Outcome State Fault Refusal :=
  act s (fun c => mgmtWrite c r aSEC_PART_CTRL (w32 (2 + fld (plainWordAt c r aSEC_PART_CTRL) 0 0)))

/-- EXTEND (R458): the write of EXTEND7. -/
def execExtend (r : Requester) (data : Word) (s : State) : Host.Outcome State Fault Refusal :=
  act s (fun c => mgmtWrite c r (aSEC_EXTEND + 28) data)

/-- CONSENT_WRITE (R461). -/
def execConsentWrite (r : Requester) (data : Word) (s : State) : Host.Outcome State Fault Refusal :=
  act s (fun c => mgmtWrite c r aSEC_PART_CONSENT data)

/-- CHIP_DEBUG_REQ (R463). -/
def execChipDebugReq (r : Requester) (s : State) : Host.Outcome State Fault Refusal :=
  act s (fun c => mgmtWrite c r aSEC_CHIP_DEBUG 1)

/-- CHIP_DEBUG_CLOSE (R463). -/
def execChipDebugClose (r : Requester) (s : State) : Host.Outcome State Fault Refusal :=
  act s (fun c => mgmtWrite c r aSEC_CHIP_DEBUG 2)

/-- DBG_OPEN (R462). -/
def execDbgOpen (r : Requester) (part : Part) (s : State) : Host.Outcome State Fault Refusal :=
  act s (fun c => mgmtWrite c r aSEC_DBG_CTRL (w32 (part.toNat + 256)))

/-- DBG_CLOSE (R464): PART is written as it reads. -/
def execDbgClose (r : Requester) (s : State) : Host.Outcome State Fault Refusal :=
  act s (fun c => mgmtWrite c r aSEC_DBG_CTRL (w32 (fld (plainWordAt c r aSEC_DBG_CTRL) 2 0 + 512)))

/-- DBG_DATA_READ (R470). -/
def execDbgDataRead (r : Requester) (s : State) : Host.Outcome State Fault Refusal :=
  act s (fun c => mgmtRead c r aSEC_DBG_DATA)

/-- ROLLBACK_RAISE (R457). -/
def execRollbackRaise (r : Requester) (value : Word) (s : State) : Host.Outcome State Fault Refusal :=
  act s (fun c => mgmtWrite c r aSEC_ROLLBACK value)

/-- KEY_REVOKE (R457). -/
def execKeyRevoke (r : Requester) (value : Word) (s : State) : Host.Outcome State Fault Refusal :=
  act s (fun c => mgmtWrite c r aSEC_KEY_REVOKE value)

/-- TRACE_ENABLE (R471). -/
def execTraceEnable (r : Requester) (part : Part) (s : State) : Host.Outcome State Fault Refusal :=
  act s (fun c => mgmtWrite c r aTEL_TRACE_CTRL (w32 (part.toNat * 256 + 1)))

/-- MODULE_RESET (R478). -/
def execModuleReset (r : Requester) (s : State) : Host.Outcome State Fault Refusal :=
  act s (fun c => mgmtWrite c r aFLT_MODULE 1)

/-- BB_INDEX (R487). -/
def execBbIndex (r : Requester) (slot : Word) (s : State) : Host.Outcome State Fault Refusal :=
  act s (fun c => mgmtWrite c r aFLT_BB_INDEX slot)

/-- BB_MARK (R483): `early` when the marker before it is less than 1,000 ms old. -/
def execBbMark (r : Requester) (value : Word) (early : Bool) (s : State) : Host.Outcome State Fault Refusal :=
  act s (fun c => mgmtWriteWith c r { noArgs with early := some early } aFLT_BB_MARK value)

/-- CLK_WAKE (R495): HOLD is written as it reads. -/
def execClkWake (r : Requester) (us : BitVec 16) (s : State) : Host.Outcome State Fault Refusal :=
  act s (fun c => mgmtWriteWith c r { noArgs with us := some us.toNat } aCLK_CTRL (w32 (1 + 2 * fld (reg c aCLK_CTRL) 1 1)))

/-- CLK_HOLD (R495). -/
def execClkHold (r : Requester) (hold : Bool) (us : BitVec 16) (s : State) : Host.Outcome State Fault Refusal :=
  act s (fun c => mgmtWriteWith c r { noArgs with us := some us.toNat } aCLK_CTRL (w32 (2 * b2n hold)))

/-- OVL_APPLY (R505). -/
def execOvlApply (r : Requester) (number : BitVec 4) (s : State) : Host.Outcome State Fault Refusal :=
  act s (fun c => mgmtWrite c r aCHIP_OVL_APPLY (w32 number.toNat))

/-- BOOT_PREFER_WRITE (R509). -/
def execBootPreferWrite (r : Requester) (value : Word) (s : State) : Host.Outcome State Fault Refusal :=
  act s (fun c => mgmtWrite c r aCHIP_BOOT_CFG value)

/-- CHIP_SELFTEST_START (R507). -/
def execChipSelftestStart (r : Requester) (value : Word) (s : State) : Host.Outcome State Fault Refusal :=
  act s (fun c => mgmtWrite c r aCHIP_SELFTEST value)

/-- UPDATE_START (R502). -/
def execUpdateStart (r : Requester) (value : Word) (s : State) : Host.Outcome State Fault Refusal :=
  act s (fun c => mgmtWrite c r aCHIP_UPDATE value)

/-- NOR_DATA_WRITE (R509). -/
def execNorDataWrite (r : Requester) (value : Word) (s : State) : Host.Outcome State Fault Refusal :=
  act s (fun c => mgmtWrite c r aCHIP_NOR_DATA value)

/-- CRC_START (R515). -/
def execCrcStart (r : Requester) (s : State) : Host.Outcome State Fault Refusal :=
  act s (fun c => mgmtWrite c r aCRC_CTRL 1)

end Sys2Proof.Machine
end

