-- ==== Sys2Proof/Machine/Access.lean ====
section
/-! DEFINITION. The sideband commands (R13, R526), in-band management frames (R337) and the vote sweep (R28-R30). -/

namespace Sys2Proof.Machine

/-! ### The sideband (R13) -/

/-- The answer to the PEC byte of a block write: a wrong PEC is NACKed. -/
def pecAnswer (c : Chip) (pecOk : Bool) : Chip := { c with smb := { c.smb with pecNack := !pecOk } }

/-- SMB_WRITE: a transaction whose PEC is wrong is NACKed and not executed. -/
def execSmbWrite (addr data : Word) (pecOk : Bool) (s : State) : Host.Outcome State Fault Refusal :=
  act s (fun c =>
    if sidebandUp c = false then c
    else if pecOk then mgmtWrite (pecAnswer c true) .sideband addr.toNat data
    else pecAnswer c false)

/-- SMB_SET_ADDR: a transaction whose PEC is wrong is NACKed and not executed. -/
def execSmbSetAddr (addr : Word) (pecOk : Bool) (s : State) : Host.Outcome State Fault Refusal :=
  act s (fun c =>
    if sidebandUp c = false then c
    else if pecOk then { c with smb := { c.smb with addr := addr, pecNack := false } }
    else pecAnswer c false)

/-- A sideband READ: STATUS and DATA of the latched address, which advances by 4 once the PEC is sent. -/
def smbReadOp (c : Chip) : Chip :=
  let c1 := mgmtRead c .sideband c.smb.addr.toNat
  { c1 with smb := { c1.smb with
      addr := c.smb.addr + 4
      reply := c1.mgmt.acc.status :: leBytes 4 c1.mgmt.acc.data.toNat } }

/-- SMB_READ: one abandoned before its PEC is sent returns nothing. -/
def execSmbRead (pecSent : Bool) (s : State) : Host.Outcome State Fault Refusal :=
  act s (fun c =>
    if sidebandUp c = false then c
    else if pecSent then smbReadOp c
    else { c with smb := { c.smb with reply := [] } })

/-- SMB_LAST_STATUS. -/
def execSmbLastStatus (s : State) : Host.Outcome State Fault Refusal :=
  act s (fun c => if sidebandUp c then { c with smb := { c.smb with reply := [c.smb.lastStatus] } } else c)

/-- SMB_CLOCK_LOW_TIMEOUT (R526): a WRITE whose PEC byte was already ACKed executes, any other transaction does not. -/
def execSmbClockLowTimeout (acked : Option (Word × Word)) (s : State) : Host.Outcome State Fault Refusal :=
  act s (fun c =>
    if sidebandUp c = false then c
    else
      let c1 := match acked with
        | some (a, d) => mgmtWrite c .sideband a.toNat d
        | none => c
      { c1 with smb := { c1.smb with reply := [] } })

/-! ### In-band frames (R337) -/

/-- One access of a frame: its STATUS and DATA stand in `mgmt.acc`. -/
def frameAccess (c : Chip) (n : Nat) (e : List Byte) : Chip :=
  let op := rdLE e 0 1
  if requesterUp c (.conn (BitVec.ofNat 14 n)) = false then answer c rejState 0
  else if op = 1 then mgmtRead c (.conn (BitVec.ofNat 14 n)) (rdLE e 4 4)
  else if op = 2 then mgmtWrite c (.conn (BitVec.ofNat 14 n)) (rdLE e 4 4) (w32 (rdLE e 8 4))
  else answer c rejLimit 0

/-- An entry of the response. -/
def respEntry (st : Byte) (d : Word) : List Byte := [st, 0, 0, 0] ++ leBytes 4 d.toNat

/-- The accesses of a frame in order, with the entries of the response. -/
def frameRun (n : Nat) : List (List Byte) → Chip × List Byte → Chip × List Byte
  | [], x => x
  | e :: rest, x =>
    let c := frameAccess x.1 n e
    frameRun n rest (c, x.2 ++ respEntry c.mgmt.acc.status c.mgmt.acc.data)

/-- A management frame on a connection. One shorter than its header is discarded; where COUNT does not fit its length,
no access is executed and every STATUS is REJECTED_LIMIT, with or without designation (log entry 78). -/
def mgmtFrame (c : Chip) (n : Nat) (f : List Byte) : Chip :=
  let k := rdLE f 0 1
  let head := [BitVec.ofNat 8 k, 0, 0, 0] ++ slice f 4 4
  let all := fun (st : Nat) => (List.range k).flatMap (fun _ => respEntry (BitVec.ofNat 8 st) 0)
  if f.length < 8 then c
  else if k = 0 ∨ f.length ≠ 8 + 12 * k then sendMsg c n 6 (head ++ all rejLimit)
  else if (conn c n).mgmt = false then sendMsg c n 6 (head ++ all rejState)
  else
    let x := frameRun n (chunksOf k 12 (f.drop 8)) (c, [])
    sendMsg x.1 n 6 (head ++ x.2)

/-- A connection on which messages are taken: OPEN or CLOSING, carried, and this node serves its frames. -/
def connTakes (c : Chip) (n : Nat) : Bool :=
  decide ((conn c n).state = .open ∨ (conn c n).state = .closing) && xptCarries c n && nodeServes c

/-- A management frame that reaches its connection: executed, or kept while the fast domain wakes for it (R14). -/
def mgmtArrives (c : Chip) (n : Nat) (frame : List Byte) : Chip :=
  if connTakes c n = false then c
  else if asleep c then
    let c1 := startWake c
    { c1 with xpt := { c1.xpt with heldReqs := c1.xpt.heldReqs ++ [(n, frame)] } }
  else if fastRuns c then mgmtFrame c n frame
  else c

/-- MGMT_REQ. -/
def execMgmtReq (conn : Conn) (frame : List Byte) (s : State) : Host.Outcome State Fault Refusal :=
  act s (fun c => mgmtArrives c conn.toNat frame)

/-- The management frames that waited for a wake are executed in the order they came (R14). -/
def runHeldReqs (c : Chip) : Chip :=
  if fastRuns c = false then c
  else
    c.xpt.heldReqs.foldl (fun c e => if connTakes c e.1 then mgmtFrame c e.1 e.2 else c)
      { c with xpt := { c.xpt with heldReqs := [] } }

/-- The fast domain wakes to RUN, and what waited for it is served (R14, R495, R496). -/
def wakeDone (c : Chip) (cause us : Nat) : Chip :=
  if nodeServes c && asleep c then runHeldReqs (wakeFast c cause us) else c

/-- FAST_WAKE. -/
def execFastWake (cause : Byte) (us : BitVec 16) (s : State) : Host.Outcome State Fault Refusal :=
  act s (fun c => whenMinuet c (fun c => wakeDone c cause.toNat us.toNat))

/-- HOUSEKEEPING_WAKE (R497): the shares of the periodic duties are commands of their own. -/
def execHousekeepingWake (us : BitVec 16) (s : State) : Host.Outcome State Fault Refusal :=
  act s (fun c => whenMinuet c (fun c => wakeDone c 6 us.toNat))

/-! ### The vote sweep (R28-R30) -/

/-- An upset: bits of one of the three copies of a register change, in triplicated fields alone. -/
def upsetReg (c : Chip) (u : Upset) : Chip :=
  let a := u.addr.toNat
  let p := pageOf (a / 0x4000)
  match rowOf a with
  | none =>
    if a < 0x64000 ∧ a % 0x4000 = 8 then setHdr c p (ctrlUpset (hdr c p) u.copy (u.flip.setWidth 4)) else c
  | some row =>
    let f := u.flip &&& maskOfAcc row tripleAcc
    let key := rkey u.bank a
    let m := c.mgmt
    let r := regReset c.variant key
    let x1 := tget 0 m.copy1 key
    let x2 := tget 0 m.copy2 key
    let all := u.copy = 0
    { c with mgmt := { m with
        regs := if all then tset r m.regs key (tget r m.regs key ^^^ f) else m.regs
        copy1 := if u.copy = 1 ∨ all then tset 0 m.copy1 key (x1 ^^^ f) else m.copy1
        copy2 := if u.copy = 2 ∨ all then tset 0 m.copy2 key (x2 ^^^ f) else m.copy2 } }


/-- The page's copies are compared now: minuet pages always, fast pages while the domain runs. -/
def votesNow (c : Chip) (p : Page) : Bool := minuetPage p || fastRuns c

/-- The sweep: the upsets appear, and every register whose copies differ is compared on the pages that are swept now; an
upset of a page that sleeps waits for its next sweep or read. -/
def voteSweep (c : Chip) (l : List Upset) : Chip :=
  let c1 := (l.filter (fun u => decide (u.addr.toNat < 0x64000))).foldl upsetReg c
  let keys := (c1.mgmt.copy1.map (·.1) ++ c1.mgmt.copy2.map (·.1)).eraseDups
  let c2 := (keys.filter (fun k => votesNow c (pageOf (k % bankStride / 0x4000)))).foldl voteKey c1
  (allPages.filter (votesNow c)).foldl voteCtrl c2

/-- VOTE_SWEEP. -/
def execVoteSweep (upsets : List Upset) (s : State) : Host.Outcome State Fault Refusal :=
  act s (fun c => if minuetOn c then voteSweep c upsets else c)

end Sys2Proof.Machine
end

