-- ==== Sys2Proof/Machine/Deliver.lean ====
section
/-! DEFINITION. Delivery of messages (R336): the bytes of a request are read as the tables of the chapters lay them out,
and the operation is the one that its own command has. -/

namespace Sys2Proof.Machine

/-! ### Bodies of session requests (R244, R255, R336) -/

/-- The little-endian words of 4 B of a byte string. -/
def words4 (l : List Byte) : List Word := (chunksOf (l.length / 4) 4 l).map (fun b => w32 (leNat b))

/-- Stop strings: each a length byte and its bytes; none where the bytes do not fit the count. -/
def stopList : Nat → List Byte → Option (List (List Byte))
  | 0, [] => some []
  | 0, _ :: _ => none
  | _ + 1, [] => none
  | n + 1, k :: r =>
    if r.length < k.toNat then none
    else (stopList n (r.drop k.toNat)).map (fun rest => r.take k.toNat :: rest)

/-- An OPEN body. -/
def openBody (b : List Byte) : Option OpenReq :=
  if b.length < 0x18 then none
  else
    (stopList (rdLE b 0x0C 1) (b.drop 0x18)).map (fun stops =>
      { model := b.getD 0 0, codec := b.getD 1 0, priority := b.getD 2 0, stopInclude := b.getD 3 0,
        client := BitVec.ofNat 16 (rdLE b 4 2), grammar := BitVec.ofNat 16 (rdLE b 6 2),
        maxLen := w32 (rdLE b 8 4), seed := w64 (rdLE b 0x10 8), stops := stops })

/-- An APPEND body. -/
def appendBody (b : List Byte) : Option AppendSrc :=
  let form := rdLE b 0 1
  let src := rdLE b 1 1
  let n := rdLE b 4 4
  if b.length < 8 ∨ 1 < form ∨ 1 < src then none
  else if src = 1 then
    (if b.length = 20 then some (.region (decide (form = 1)) (w32 n) (w32 (rdLE b 8 4)) (w64 (rdLE b 12 8))) else none)
  else if form = 0 then (if b.length = 8 + 4 * n then some (.tokens (words4 (b.drop 8))) else none)
  else if b.length = 8 + n then some (.text (b.drop 8))
  else none

/-- A sampling block. -/
def samplingOf (b : List Byte) : Sampling :=
  { temp := w32 (rdLE b 0 4), topP := w32 (rdLE b 4 4), minP := w32 (rdLE b 8 4), rep := w32 (rdLE b 0x0C 4),
    pres := w32 (rdLE b 0x10 4), freq := w32 (rdLE b 0x14 4), window := w32 (rdLE b 0x18 4),
    topK := BitVec.ofNat 16 (rdLE b 0x1C 2), flags := BitVec.ofNat 16 (rdLE b 0x1E 2), eos := w32 (rdLE b 0x20 4),
    rsvd := w32 (rdLE b 0x24 4) }

/-- A speculation block. -/
def specOf (b : List Byte) : SpecBlock :=
  { sources := b.getD 0 0, maxNodes := b.getD 1 0, maxDepth := b.getD 2 0, echoBranches := b.getD 3 0,
    draftSlot := b.getD 4 0, draftWidth := b.getD 5 0, hostCount := BitVec.ofNat 16 (rdLE b 6 2),
    echoTag := w32 (rdLE b 8 4), echoCount := w32 (rdLE b 0x0C 4), echoOffset := w64 (rdLE b 0x10 8),
    rsvd := w64 (rdLE b 0x18 8) }

/-- A GENERATE body: HOST_COUNT sets its length. -/
def generateBody (b : List Byte) : Option GenReq :=
  if b.length < 0x50 ∨ b.length ≠ 0x50 + 4 * rdLE b 0x36 2 then none
  else some { maxNew := BitVec.ofNat 16 (rdLE b 0 2), samp := samplingOf (b.drop 8), spec := specOf (b.drop 0x30),
              drafts := words4 (b.drop 0x50) }

/-- The argument of a session operation from its body; none where the length does not match the operation. -/
def opBody (code : Nat) (b : List Byte) : Option OpArg :=
  if code = 2 then (appendBody b).map OpArg.append
  else if code = 3 then (generateBody b).map OpArg.generate
  else if code = 5 then (if b.length = 4 then some (.resume (w32 (rdLE b 0 4))) else none)
  else if code = 6 then
    (if b.length = 16 then some (.fork { p := w32 (rdLE b 0 4), seed := w64 (rdLE b 8 8) }) else none)
  else if code = 7 then
    (if b.length = 8 then some (.exclude (w32 (rdLE b 0 4)) (w32 (rdLE b 4 4))) else none)
  else if code = 11 then
    (if b.length = 4 then some (.offer (BitVec.ofNat 16 (rdLE b 0 2)) (BitVec.ofNat 16 (rdLE b 2 2))) else none)
  else if b = [] then some .plain
  else none

/-- A request whose body does not match its operation: REJECTED_LIMIT, after what R39 checks first, and for a GENERATE
after SLOT_VOCAB (check 3 of R537). -/
def badRequest (c : Chip) (n : Nat) (tag : DWord) (handle : Word) (code : Nat) : Chip :=
  let c1 := settle c
  let hs := handleStatus c1 (partOfConn c1 n) handle
  if code = 1 then rejectReq c n 0 tag code rejLimit
  else if hs ≠ stOK then rejectReq c1 n handle tag code hs
  else
    let i := hIdx handle
    let c2 := touch c1 i
    let accepted := acceptStatus c2 i code .plain
    let st := if accepted = stOK ∧ code = 3 ∧ slotVocab c2 (entry c2 i).model = 0 then rejState else accepted
    answerReq c2 n handle tag code (if st = stOK then rejLimit else st) (entry c2 i) 0

/-! ### Bodies of search requests (R388) -/

/-- A SEARCH body: the sketch has the index's size, and what follows is the vector. -/
def searchBody (sketch : Nat) (b : List Byte) : SearchReq :=
  { mode := b.getD 0 0, flags := b.getD 1 0, k := BitVec.ofNat 16 (rdLE b 2 2), beam := BitVec.ofNat 16 (rdLE b 4 2),
    rerank := BitVec.ofNat 16 (rdLE b 6 2), widen := b.getD 8 0, maxVisit := w32 (rdLE b 0x0C 4),
    deadline := w32 (rdLE b 0x10 4), bitmapTag := w32 (rdLE b 0x14 4), bitmapOffset := w64 (rdLE b 0x18 8),
    sketch := (b.drop 0x20).take sketch, vector := b.drop (0x20 + sketch) }

/-- The item numbers of a DELETE; none where COUNT does not match the length. -/
def deleteBody (b : List Byte) : List Word :=
  if b.length < 8 ∨ b.length ≠ 8 + 4 * rdLE b 0 4 then [] else words4 (b.drop 8)

/-- An INDEX_LOAD body. -/
def loadBody (b : List Byte) : LoadReq :=
  { kind := b.getD 0 0, object := w32 (rdLE b 4 4), tag := w32 (rdLE b 8 4), offset := w64 (rdLE b 0x10 8),
    length := w32 (rdLE b 0x18 4) }

/-- A search operation from its bytes. A body of the wrong length gives REJECTED_LIMIT. -/
def searchMsg (c : Chip) (n op : Nat) (tag : DWord) (handle : Word) (b : List Byte) : Chip :=
  let g := searchGate c n handle
  let x := handle.toNat % 16
  let limit := answerSearch c n op x tag (if g = stOK then rejLimit else g) 0
  if op = 0x20 then (if b.length < 0x20 then limit else searchReq c n tag handle (searchBody (ixSketch c x) b))
  else if op = 0x21 then deleteReq c n tag handle (deleteBody b)
  else if op = 0x22 then (if b.length = 0x1C then indexLoad c n tag handle (loadBody b) else limit)
  else if b = [] then indexFree c n tag handle
  else limit

/-! ### Messages by class (R335, R336) -/

/-- A SESSION_REQ: its header, then the operation. -/
def sessionMsg (c : Chip) (n : Nat) (l : List Byte) : Chip :=
  let op := rdLE l 0 1
  let handle := w32 (rdLE l 4 4)
  let tag := w64 (rdLE l 8 8)
  let b := l.drop 16
  let fits := decide (b.length = rdLE l 2 2)
  if op = 0x30 then attestReq c n tag handle (if fits then b else [])
  else if 0x20 ≤ op ∧ op ≤ 0x23 then
    (if fits then searchMsg c n op tag handle b
     else answerSearch c n op (handle.toNat % 16) tag
       (if searchGate c n handle = stOK then rejLimit else searchGate c n handle) 0)
  else if op = 0 ∨ 11 < op then rejectReq c n handle tag op rejState
  else if fits = false then badRequest c n tag handle op
  else if op = 1 then
    match openBody b with
    | some r => kick (openReq c n tag r)
    | none => badRequest c n tag handle 1
  else
    match opBody op b with
    | some a => if op = 10 then queryReq c n tag handle else request c n tag handle op a
    | none => badRequest c n tag handle op

/-- A REG_REQ: REGISTER or REVOKE. -/
def regMsg (c : Chip) (n : Nat) (l : List Byte) : Chip :=
  let op := rdLE l 0 1
  let tag := w64 (rdLE l 8 8)
  let b := l.drop 16
  let fits := decide (b.length = rdLE l 2 2)
  if op = 1 then
    (if fits ∧ b.length = 16 then
      registerReq c n tag { length := w64 (rdLE b 0 8), access := b.getD 8 0, conn := BitVec.ofNat 16 (rdLE b 10 2),
                            notify := BitVec.ofNat 16 (rdLE b 12 2) }
     else answerRegion c n rejLimit 1 0 tag 0)
  else if op = 2 then
    (if fits ∧ b = [] then revokeReq c n tag (w32 (rdLE l 4 4)) else answerRegion c n rejLimit 2 (w32 (rdLE l 4 4)) tag 0)
  else answerRegion c n rejState op (w32 (rdLE l 4 4)) tag 0

/-- A CUT message by its TYPE (R298). One that is not 64 B counts as failing its CRC; a TYPE that the table does not give is
dropped. -/
def cutMsgIn (c : Chip) (n : Nat) (l : List Byte) : Chip :=
  let m0 := cutOf l
  let m := { m0 with crcOk := m0.crcOk && decide (l.length = 64) }
  withCut c m (fun c =>
    let t := m.typ.toNat
    if t = 0x0B then offerRx c n m
    else if t = 0x0C then acceptRx c n m
    else if t = 0x0D then releaseRx c n m
    else if t = 0x0E then confirmRx c n m
    else if t = 0x18 then declineRx c n m
    else if t = 0x19 then withdrawRx c n m
    else if t = 0x1A then reclaimRx c n m
    else if t = 0x1B then probeRx c n m
    else if t = 0x1C then standingRx c n m
    else if t = 0x1D then doneRx c n m
    else c)

/-- A delivered message. One of the requests that is shorter than its header tells no TAG to answer and is dropped. -/
def actMessage (c : Chip) (n cls : Nat) (l : List Byte) : Chip :=
  if cls = 1 then (if l.length < 16 then c else sessionMsg c n l)
  else if cls = 3 then (if l.length < 16 then c else regMsg c n l)
  else if cls = 4 then cutMsgIn c n l
  else if cls = 5 then mgmtFrame c n l
  else c

/-- The oldest complete message of a connection is delivered when every packet below its first segment has been placed or
refused. -/
def deliverMsg (c : Chip) (n : Nat) (id : Word) : Chip :=
  let k := conn c n
  match k.ready with
  | [] => c
  | segs :: rest =>
    match segs with
    | [] => c
    | first :: _ =>
      if first.msgId ≠ id ∨ k.rxPend.any (fun s => seqBefore s first.seq) then c
      else
        let seqs := segs.map (fun p => p.seq)
        let c1 := setConn c n { k with ready := rest, rxPend := k.rxPend.filter (fun s => s ∉ seqs) }
        actMessage c1 n first.cls.toNat (segs.flatMap (fun p => p.payload))

/-- MESSAGE_DELIVER. -/
def execMessageDeliver (conn : Conn) (msgId : Word) (s : State) : Host.Outcome State Fault Refusal :=
  act s (fun c => whenAwake c (fun c => if xptCarries c conn.toNat then deliverMsg c conn.toNat msgId else c))

end Sys2Proof.Machine
end

