-- ==== Sys2Proof/Machine/Dispatch.lean ====
section
/-! DEFINITION. The dispatch of the commands: one arm for each constructor of Instr, one direct call of
its meaning. -/

namespace Sys2Proof.Machine

/-- The effect of a command on everything but the queue of waiting commands. -/
def exec (i : Instr) (s : State) : Host.Outcome State Fault Refusal :=
  match i with
  | .smbWrite addr data pecOk => Sys2Proof.Machine.execSmbWrite addr data pecOk s
  | .smbSetAddr addr pecOk => Sys2Proof.Machine.execSmbSetAddr addr pecOk s
  | .smbRead pecSent => Sys2Proof.Machine.execSmbRead pecSent s
  | .smbLastStatus => Sys2Proof.Machine.execSmbLastStatus s
  | .smbClockLowTimeout acked => Sys2Proof.Machine.execSmbClockLowTimeout acked s
  | .mgmtReq conn frame => Sys2Proof.Machine.execMgmtReq conn frame s
  | .registerWrite r addr data => Sys2Proof.Machine.execRegisterWrite r addr data s
  | .loRead r addr => Sys2Proof.Machine.execLoRead r addr s
  | .loWrite r addr data => Sys2Proof.Machine.execLoWrite r addr data s
  | .hiWrite r addr data => Sys2Proof.Machine.execHiWrite r addr data s
  | .aliasSet r addr data => Sys2Proof.Machine.execAliasSet r addr data s
  | .aliasClear r addr data => Sys2Proof.Machine.execAliasClear r addr data s
  | .aliasToggle r addr data => Sys2Proof.Machine.execAliasToggle r addr data s
  | .blkUnlock r page data => Sys2Proof.Machine.execBlkUnlock r page data s
  | .unlockLapse r page => Sys2Proof.Machine.execUnlockLapse r page s
  | .enable r page value => Sys2Proof.Machine.execEnable r page value s
  | .drain r page => Sys2Proof.Machine.execDrain r page s
  | .selftest r page => Sys2Proof.Machine.execSelftest r page s
  | .softReset r page => Sys2Proof.Machine.execSoftReset r page s
  | .drainDone page => Sys2Proof.Machine.execDrainDone page s
  | .drainTimeout page => Sys2Proof.Machine.execDrainTimeout page s
  | .selftestEnd page pass => Sys2Proof.Machine.execSelftestEnd page pass s
  | .blkIntSet r page data => Sys2Proof.Machine.execBlkIntSet r page data s
  | .blkIntEnWrite r page data => Sys2Proof.Machine.execBlkIntEnWrite r page data s
  | .voteSweep upsets => Sys2Proof.Machine.execVoteSweep upsets s
  | .modelValidate r layers => Sys2Proof.Machine.execModelValidate r layers s
  | .modelInvalidate r layers => Sys2Proof.Machine.execModelInvalidate r layers s
  | .modelCheckDone => Sys2Proof.Machine.execModelCheckDone s
  | .vocabValidate r mode => Sys2Proof.Machine.execVocabValidate r mode s
  | .vocabInvalidate r mode => Sys2Proof.Machine.execVocabInvalidate r mode s
  | .vocabCheckDone => Sys2Proof.Machine.execVocabCheckDone s
  | .gramValidate r slot => Sys2Proof.Machine.execGramValidate r slot s
  | .gramInvalidate r slot => Sys2Proof.Machine.execGramInvalidate r slot s
  | .gramCheckDone => Sys2Proof.Machine.execGramCheckDone s
  | .idxValidate r part repair => Sys2Proof.Machine.execIdxValidate r part repair s
  | .idxInvalidate r part repair => Sys2Proof.Machine.execIdxInvalidate r part repair s
  | .idxCheckDone index => Sys2Proof.Machine.execIdxCheckDone index s
  | .viewHandle r handle => Sys2Proof.Machine.execViewHandle r handle s
  | .damageSweepStart r => Sys2Proof.Machine.execDamageSweepStart r s
  | .damageSweepEnd => Sys2Proof.Machine.execDamageSweepEnd s
  | .openSession conn tag req => Sys2Proof.Machine.execOpenSession conn tag req s
  | .append conn tag handle src => Sys2Proof.Machine.execAppend conn tag handle src s
  | .generate conn tag handle req => Sys2Proof.Machine.execGenerate conn tag handle req s
  | .park conn tag handle => Sys2Proof.Machine.execPark conn tag handle s
  | .resume conn tag handle deadline => Sys2Proof.Machine.execResume conn tag handle deadline s
  | .revivalDone handle elapsed image => Sys2Proof.Machine.execRevivalDone handle elapsed image s
  | .fork conn tag handle req => Sys2Proof.Machine.execFork conn tag handle req s
  | .excludeSpan conn tag handle start stop => Sys2Proof.Machine.execExcludeSpan conn tag handle start stop s
  | .endSession conn tag handle => Sys2Proof.Machine.execEndSession conn tag handle s
  | .secureEnd conn tag handle => Sys2Proof.Machine.execSecureEnd conn tag handle s
  | .sessionReleaseDone handle verified => Sys2Proof.Machine.execSessionReleaseDone handle verified s
  | .query conn tag handle => Sys2Proof.Machine.execQuery conn tag handle s
  | .offer conn tag handle toConn notify => Sys2Proof.Machine.execOffer conn tag handle toConn notify s
  | .attest conn tag handle body => Sys2Proof.Machine.execAttest conn tag handle body s
  | .register conn tag req => Sys2Proof.Machine.execRegister conn tag req s
  | .registerZeroDone index => Sys2Proof.Machine.execRegisterZeroDone index s
  | .revoke conn tag region => Sys2Proof.Machine.execRevoke conn tag region s
  | .revokeDrained index => Sys2Proof.Machine.execRevokeDrained index s
  | .search conn tag handle req => Sys2Proof.Machine.execSearch conn tag handle req s
  | .delete conn tag handle items => Sys2Proof.Machine.execDelete conn tag handle items s
  | .deleteWaitEnd id => Sys2Proof.Machine.execDeleteWaitEnd id s
  | .indexLoad conn tag handle req => Sys2Proof.Machine.execIndexLoad conn tag handle req s
  | .indexFree conn tag handle => Sys2Proof.Machine.execIndexFree conn tag handle s
  | .figureApply => Sys2Proof.Machine.execFigureApply s
  | .figStallRelease => Sys2Proof.Machine.execFigStallRelease s
  | .chipFault lost unreadable time => Sys2Proof.Machine.execChipFault lost unreadable time s
  | .schedResume => Sys2Proof.Machine.execSchedResume s
  | .stepBoundary part late => Sys2Proof.Machine.execStepBoundary part late s
  | .batchHoldExpiry part late => Sys2Proof.Machine.execBatchHoldExpiry part late s
  | .layerEnd part engine res => Sys2Proof.Machine.execLayerEnd part engine res s
  | .ratioJudge part => Sys2Proof.Machine.execRatioJudge part s
  | .activationsArrived part waited compute => Sys2Proof.Machine.execActivationsArrived part waited compute s
  | .tokeniseDone handle => Sys2Proof.Machine.execTokeniseDone handle s
  | .nop core g => Sys2Proof.Machine.execNop core g s
  | .halt core g => Sys2Proof.Machine.execHalt core g s
  | .loop core g a len => Sys2Proof.Machine.execLoop core g a len s
  | .skip core g n => Sys2Proof.Machine.execSkip core g n s
  | .bar core g b => Sys2Proof.Machine.execBar core g b s
  | .fence core g => Sys2Proof.Machine.execFence core g s
  | .smovi core g a imm => Sys2Proof.Machine.execSmovi core g a imm s
  | .sadd core g a b c imm => Sys2Proof.Machine.execSadd core g a b c imm s
  | .ssub core g a b c imm => Sys2Proof.Machine.execSsub core g a b c imm s
  | .smul core g a b c imm => Sys2Proof.Machine.execSmul core g a b c imm s
  | .sand core g a b c imm => Sys2Proof.Machine.execSand core g a b c imm s
  | .sor core g a b c imm => Sys2Proof.Machine.execSor core g a b c imm s
  | .sxor core g a b c imm => Sys2Proof.Machine.execSxor core g a b c imm s
  | .sshl core g a b c imm => Sys2Proof.Machine.execSshl core g a b c imm s
  | .sshr core g a b c imm => Sys2Proof.Machine.execSshr core g a b c imm s
  | .scmp core g p b c fmt => Sys2Proof.Machine.execScmp core g p b c fmt s
  | .sld core g a b imm => Sys2Proof.Machine.execSld core g a b imm s
  | .sst core g a b imm => Sys2Proof.Machine.execSst core g a b imm s
  | .spar core g a imm => Sys2Proof.Machine.execSpar core g a imm s
  | .sidx core g a depth => Sys2Proof.Machine.execSidx core g a depth s
  | .vld core g a b fmt imm => Sys2Proof.Machine.execVld core g a b fmt imm s
  | .vst core g a b fmt imm => Sys2Proof.Machine.execVst core g a b fmt imm s
  | .vadd core g a b c => Sys2Proof.Machine.execVadd core g a b c s
  | .vsub core g a b c => Sys2Proof.Machine.execVsub core g a b c s
  | .vmul core g a b c => Sys2Proof.Machine.execVmul core g a b c s
  | .vfma core g a b c => Sys2Proof.Machine.execVfma core g a b c s
  | .vmax core g a b c => Sys2Proof.Machine.execVmax core g a b c s
  | .vmin core g a b c => Sys2Proof.Machine.execVmin core g a b c s
  | .vexp2 core g a b => Sys2Proof.Machine.execVexp2 core g a b s
  | .vrcp core g a b => Sys2Proof.Machine.execVrcp core g a b s
  | .vrsq core g a b => Sys2Proof.Machine.execVrsq core g a b s
  | .vred core g a b max => Sys2Proof.Machine.execVred core g a b max s
  | .vbcast core g a b scalar lane => Sys2Proof.Machine.execVbcast core g a b scalar lane s
  | .vsel core g a b c => Sys2Proof.Machine.execVsel core g a b c s
  | .vcmp core g p b c fmt => Sys2Proof.Machine.execVcmp core g p b c fmt s
  | .vrot core g a b c => Sys2Proof.Machine.execVrot core g a b c s
  | .mzero core g bank => Sys2Proof.Machine.execMzero core g bank s
  | .mma core g a b c fa fb bank dist => Sys2Proof.Machine.execMma core g a b c fa fb bank dist s
  | .mout core g a fmt bank => Sys2Proof.Machine.execMout core g a fmt bank s
  | .mcol core g a col bank => Sys2Proof.Machine.execMcol core g a col bank s
  | .recv core g a b c tag => Sys2Proof.Machine.execRecv core g a b c tag s
  | .send core g a b c tag => Sys2Proof.Machine.execSend core g a b c tag s
  | .messageArrival src dst tag => Sys2Proof.Machine.execMessageArrival src dst tag s
  | .meshLinkFail core => Sys2Proof.Machine.execMeshLinkFail core s
  | .rwait core g a tag => Sys2Proof.Machine.execRwait core g a tag s
  | .cplan core g a b plan => Sys2Proof.Machine.execCplan core g a b plan s
  | .copyPlanDone core plan met replays => Sys2Proof.Machine.execCopyPlanDone core plan met replays s
  | .cwait core g plan => Sys2Proof.Machine.execCwait core g plan s
  | .placementDone core cycles => Sys2Proof.Machine.execPlacementDone core cycles s
  | .watchdogExpiry core => Sys2Proof.Machine.execWatchdogExpiry core s
  | .lameEval => Sys2Proof.Machine.execLameEval s
  | .rotateTest => Sys2Proof.Machine.execRotateTest s
  | .coreTestEnd core res => Sys2Proof.Machine.execCoreTestEnd core res s
  | .coreStoreScrub core single double reloadFails => Sys2Proof.Machine.execCoreStoreScrub core single double reloadFails s
  | .lockstepDisagree core => Sys2Proof.Machine.execLockstepDisagree core s
  | .coreOnline r => Sys2Proof.Machine.execCoreOnline r s
  | .coreOffline r => Sys2Proof.Machine.execCoreOffline r s
  | .coreTest r => Sys2Proof.Machine.execCoreTest r s
  | .ageFlush handle => Sys2Proof.Machine.execAgeFlush handle s
  | .pressureEvict part => Sys2Proof.Machine.execPressureEvict part s
  | .coldAgeEvict handle => Sys2Proof.Machine.execColdAgeEvict handle s
  | .evictionCommit handle => Sys2Proof.Machine.execEvictionCommit handle s
  | .blockReadDone block res => Sys2Proof.Machine.execBlockReadDone block res s
  | .patrolScrub addr res passEnd => Sys2Proof.Machine.execPatrolScrub addr res passEnd s
  | .retrainWindow ch ok => Sys2Proof.Machine.execRetrainWindow ch ok s
  | .objectDurable id => Sys2Proof.Machine.execObjectDurable id s
  | .programFail die what => Sys2Proof.Machine.execProgramFail die what s
  | .extentCopyDone ext => Sys2Proof.Machine.execExtentCopyDone ext s
  | .extentEraseDone ext pass => Sys2Proof.Machine.execExtentEraseDone ext pass s
  | .wearLevel => Sys2Proof.Machine.execWearLevel s
  | .compactionStart => Sys2Proof.Machine.execCompactionStart s
  | .dieCommandTimeout die => Sys2Proof.Machine.execDieCommandTimeout die s
  | .dieLost die => Sys2Proof.Machine.execDieLost die s
  | .diePoll die answered => Sys2Proof.Machine.execDiePoll die answered s
  | .mapRebuilt => Sys2Proof.Machine.execMapRebuilt s
  | .summaryScanDone => Sys2Proof.Machine.execSummaryScanDone s
  | .readScan ext res passEnd => Sys2Proof.Machine.execReadScan ext res passEnd s
  | .peerFrameRx port first words => Sys2Proof.Machine.execPeerFrameRx port first words s
  | .peerOutputArbitrate port => Sys2Proof.Machine.execPeerOutputArbitrate port s
  | .laserFailover standbyOk => Sys2Proof.Machine.execLaserFailover standbyOk s
  | .ringLockTick port lane nearLimit => Sys2Proof.Machine.execRingLockTick port lane nearLimit s
  | .calSweepStart by_ => Sys2Proof.Machine.execCalSweepStart by_ s
  | .calLaneDone locked => Sys2Proof.Machine.execCalLaneDone locked s
  | .laneLost port lane => Sys2Proof.Machine.execLaneLost port lane s
  | .portSilenceTimeout port => Sys2Proof.Machine.execPortSilenceTimeout port s
  | .slowWindow p0 p1 p2 p3 => Sys2Proof.Machine.execSlowWindow p0 p1 p2 p3 s
  | .idleReduce port => Sys2Proof.Machine.execIdleReduce port s
  | .laneRelight port => Sys2Proof.Machine.execLaneRelight port s
  | .portEnable r value => Sys2Proof.Machine.execPortEnable r value s
  | .portTrained port lanes node => Sys2Proof.Machine.execPortTrained port lanes node s
  | .portTrainingTimeout port => Sys2Proof.Machine.execPortTrainingTimeout port s
  | .portRetrainTimer port => Sys2Proof.Machine.execPortRetrainTimer port s
  | .rtSwap r => Sys2Proof.Machine.execRtSwap r s
  | .rtCopy r => Sys2Proof.Machine.execRtCopy r s
  | .rtDataAccess r write => Sys2Proof.Machine.execRtDataAccess r write s
  | .hostFrameRx frame fcsOk fec => Sys2Proof.Machine.execHostFrameRx frame fcsOk fec s
  | .hostTrained => Sys2Proof.Machine.execHostTrained s
  | .hostTrainingTimeout => Sys2Proof.Machine.execHostTrainingTimeout s
  | .hostLinkLoss lanesOk => Sys2Proof.Machine.execHostLinkLoss lanesOk s
  | .hostRetrainTimer => Sys2Proof.Machine.execHostRetrainTimer s
  | .hostCalStart r => Sys2Proof.Machine.execHostCalStart r s
  | .hostCalNeeded => Sys2Proof.Machine.execHostCalNeeded s
  | .hostLaserFailover standbyOk => Sys2Proof.Machine.execHostLaserFailover standbyOk s
  | .policerRefill => Sys2Proof.Machine.execPolicerRefill s
  | .shaperRefill => Sys2Proof.Machine.execShaperRefill s
  | .queueSample delays => Sys2Proof.Machine.execQueueSample delays s
  | .egressSelect peerOut => Sys2Proof.Machine.execEgressSelect peerOut s
  | .senderWaitRelease => Sys2Proof.Machine.execSenderWaitRelease s
  | .vstWrite l p => Sys2Proof.Machine.execVstWrite l p s
  | .writePlaced conn seq => Sys2Proof.Machine.execWritePlaced conn seq s
  | .vstReadReq l p => Sys2Proof.Machine.execVstReadReq l p s
  | .vstReadResp l p => Sys2Proof.Machine.execVstReadResp l p s
  | .vstMsg l p => Sys2Proof.Machine.execVstMsg l p s
  | .messageDeliver conn msgId => Sys2Proof.Machine.execMessageDeliver conn msgId s
  | .vstAck l p => Sys2Proof.Machine.execVstAck l p s
  | .vstNak l p => Sys2Proof.Machine.execVstNak l p s
  | .vstConnect l p => Sys2Proof.Machine.execVstConnect l p s
  | .vstConnectAck l p => Sys2Proof.Machine.execVstConnectAck l p s
  | .vstClose l p => Sys2Proof.Machine.execVstClose l p s
  | .connClosed conn => Sys2Proof.Machine.execConnClosed conn s
  | .rtoExpiry conn seq => Sys2Proof.Machine.execRtoExpiry conn seq s
  | .ackDelayExpiry conn => Sys2Proof.Machine.execAckDelayExpiry conn s
  | .rateIncreaseTick conn => Sys2Proof.Machine.execRateIncreaseTick conn s
  | .connFailedTimeout conn => Sys2Proof.Machine.execConnFailedTimeout conn s
  | .connOpen r => Sys2Proof.Machine.execConnOpen r s
  | .connClose r => Sys2Proof.Machine.execConnClose r s
  | .connRelease r => Sys2Proof.Machine.execConnRelease r s
  | .connMgmt r => Sys2Proof.Machine.execConnMgmt r s
  | .connUnmgmt r => Sys2Proof.Machine.execConnUnmgmt r s
  | .cutOfferRx conn m => Sys2Proof.Machine.execCutOfferRx conn m s
  | .cutAcceptRx conn m => Sys2Proof.Machine.execCutAcceptRx conn m s
  | .cutImageAcked handle => Sys2Proof.Machine.execCutImageAcked handle s
  | .cutReleaseRx conn m => Sys2Proof.Machine.execCutReleaseRx conn m s
  | .cutConversionStart handle => Sys2Proof.Machine.execCutConversionStart handle s
  | .cutConversionDone handle => Sys2Proof.Machine.execCutConversionDone handle s
  | .cutConfirmRx conn m => Sys2Proof.Machine.execCutConfirmRx conn m s
  | .cutDeclineRx conn m => Sys2Proof.Machine.execCutDeclineRx conn m s
  | .cutWithdrawRx conn m => Sys2Proof.Machine.execCutWithdrawRx conn m s
  | .cutReclaimRx conn m => Sys2Proof.Machine.execCutReclaimRx conn m s
  | .cutProbeRx conn m => Sys2Proof.Machine.execCutProbeRx conn m s
  | .cutStandingRx conn m => Sys2Proof.Machine.execCutStandingRx conn m s
  | .cutDoneRx conn m => Sys2Proof.Machine.execCutDoneRx conn m s
  | .acceptTimeout handle => Sys2Proof.Machine.execAcceptTimeout handle s
  | .confirmTimeout handle => Sys2Proof.Machine.execConfirmTimeout handle s
  | .sourceProbeTimer handle => Sys2Proof.Machine.execSourceProbeTimer handle s
  | .settleProbeTimer handle => Sys2Proof.Machine.execSettleProbeTimer handle s
  | .orphanAgeTimer handle => Sys2Proof.Machine.execOrphanAgeTimer handle s
  | .recordAgeExpiry conn cutId => Sys2Proof.Machine.execRecordAgeExpiry conn cutId s
  | .resolveSettle r => Sys2Proof.Machine.execResolveSettle r s
  | .resolveDiscard r => Sys2Proof.Machine.execResolveDiscard r s
  | .scanPassStart => Sys2Proof.Machine.execScanPassStart s
  | .scanPassEnd uncorr => Sys2Proof.Machine.execScanPassEnd uncorr s
  | .walkListsReady id uncorr gddr => Sys2Proof.Machine.execWalkListsReady id uncorr gddr s
  | .rerankDone id uncorr => Sys2Proof.Machine.execRerankDone id uncorr s
  | .searchDeadline id => Sys2Proof.Machine.execSearchDeadline id s
  | .shardAnswer id shard status hits => Sys2Proof.Machine.execShardAnswer id shard status hits s
  | .repairObject index object => Sys2Proof.Machine.execRepairObject index object s
  | .ckptTimerExpiry => Sys2Proof.Machine.execCkptTimerExpiry s
  | .ckptStepsReached => Sys2Proof.Machine.execCkptStepsReached s
  | .ckptNow r => Sys2Proof.Machine.execCkptNow r s
  | .markPrepareRx m => Sys2Proof.Machine.execMarkPrepareRx m s
  | .markSnapRx m => Sys2Proof.Machine.execMarkSnapRx m s
  | .markRestoreQueryRx m => Sys2Proof.Machine.execMarkRestoreQueryRx m s
  | .markRestoreGoRx m => Sys2Proof.Machine.execMarkRestoreGoRx m s
  | .markTimeout => Sys2Proof.Machine.execMarkTimeout s
  | .snapshotPoint => Sys2Proof.Machine.execSnapshotPoint s
  | .copyBeforeWrite addr => Sys2Proof.Machine.execCopyBeforeWrite addr s
  | .shardBodyAcked => Sys2Proof.Machine.execShardBodyAcked s
  | .shardCommitted => Sys2Proof.Machine.execShardCommitted s
  | .restoreStart r gen0 gen1 => Sys2Proof.Machine.execRestoreStart r gen0 gen1 s
  | .restoreRebuildDone shard => Sys2Proof.Machine.execRestoreRebuildDone shard s
  | .ckptCutReclaim r => Sys2Proof.Machine.execCkptCutReclaim r s
  | .ckptCutDrop r => Sys2Proof.Machine.execCkptCutDrop r s
  | .nextAreaTagWrite r data => Sys2Proof.Machine.execNextAreaTagWrite r data s
  | .powerSample dw avg da => Sys2Proof.Machine.execPowerSample dw avg da s
  | .pwrLearn samples => Sys2Proof.Machine.execPwrLearn samples s
  | .pwrExplore part engine up => Sys2Proof.Machine.execPwrExplore part engine up s
  | .pwrDecide ratio cycles avg => Sys2Proof.Machine.execPwrDecide ratio cycles avg s
  | .markEstimate row est i0 t => Sys2Proof.Machine.execMarkEstimate row est i0 t s
  | .markHoldExpiry row => Sys2Proof.Machine.execMarkHoldExpiry row s
  | .thermalRead sites => Sys2Proof.Machine.execThermalRead sites s
  | .throttleStep => Sys2Proof.Machine.execThrottleStep s
  | .thermalTrip site => Sys2Proof.Machine.execThermalTrip site s
  | .tripClear r data => Sys2Proof.Machine.execTripClear r data s
  | .comparatorExercise site pass => Sys2Proof.Machine.execComparatorExercise site pass s
  | .partValidate r => Sys2Proof.Machine.execPartValidate r s
  | .partInvalidate r => Sys2Proof.Machine.execPartInvalidate r s
  | .partPurge r => Sys2Proof.Machine.execPartPurge r s
  | .purgeDrained part => Sys2Proof.Machine.execPurgeDrained part s
  | .partScrubDone part => Sys2Proof.Machine.execPartScrubDone part s
  | .extend r data => Sys2Proof.Machine.execExtend r data s
  | .consentWrite r data => Sys2Proof.Machine.execConsentWrite r data s
  | .chipDebugReq r => Sys2Proof.Machine.execChipDebugReq r s
  | .chipDebugClose r => Sys2Proof.Machine.execChipDebugClose r s
  | .dbgOpen r part => Sys2Proof.Machine.execDbgOpen r part s
  | .dbgClose r => Sys2Proof.Machine.execDbgClose r s
  | .dbgDataRead r => Sys2Proof.Machine.execDbgDataRead r s
  | .rollbackRaise r value => Sys2Proof.Machine.execRollbackRaise r value s
  | .keyRevoke r value => Sys2Proof.Machine.execKeyRevoke r value s
  | .traceEnable r part => Sys2Proof.Machine.execTraceEnable r part s
  | .telSnapshot => Sys2Proof.Machine.execTelSnapshot s
  | .telPowerUpdate avg => Sys2Proof.Machine.execTelPowerUpdate avg s
  | .faultReport f => Sys2Proof.Machine.execFaultReport f s
  | .moduleFault => Sys2Proof.Machine.execModuleFault s
  | .moduleReset r => Sys2Proof.Machine.execModuleReset r s
  | .bbSectorEraseDone => Sys2Proof.Machine.execBbSectorEraseDone s
  | .bbIndex r slot => Sys2Proof.Machine.execBbIndex r slot s
  | .bbWindowReady => Sys2Proof.Machine.execBbWindowReady s
  | .bbMark r value early => Sys2Proof.Machine.execBbMark r value early s
  | .supplyChange mainMv auxMv => Sys2Proof.Machine.execSupplyChange mainMv auxMv s
  | .powerLoss => Sys2Proof.Machine.execPowerLoss s
  | .mainOvervoltage => Sys2Proof.Machine.execMainOvervoltage s
  | .suppliesGood readFail => Sys2Proof.Machine.execSuppliesGood readFail s
  | .bootReady holdupOk => Sys2Proof.Machine.execBootReady holdupOk s
  | .resetInput => Sys2Proof.Machine.execResetInput s
  | .xtalStable => Sys2Proof.Machine.execXtalStable s
  | .xtalFail => Sys2Proof.Machine.execXtalFail s
  | .napEntry => Sys2Proof.Machine.execNapEntry s
  | .deepEntry => Sys2Proof.Machine.execDeepEntry s
  | .fastWake cause us => Sys2Proof.Machine.execFastWake cause us s
  | .housekeepingWake us => Sys2Proof.Machine.execHousekeepingWake us s
  | .clkWake r us => Sys2Proof.Machine.execClkWake r us s
  | .clkHold r hold us => Sys2Proof.Machine.execClkHold r hold us s
  | .ovlApply r number => Sys2Proof.Machine.execOvlApply r number s
  | .overlayCommit => Sys2Proof.Machine.execOverlayCommit s
  | .bootPreferWrite r value => Sys2Proof.Machine.execBootPreferWrite r value s
  | .chipSelftestStart r value => Sys2Proof.Machine.execChipSelftestStart r value s
  | .chipSelftestEnd failed => Sys2Proof.Machine.execChipSelftestEnd failed s
  | .updateStart r value => Sys2Proof.Machine.execUpdateStart r value s
  | .updateDone readBackOk => Sys2Proof.Machine.execUpdateDone readBackOk s
  | .norDataWrite r value => Sys2Proof.Machine.execNorDataWrite r value s
  | .crcStart r => Sys2Proof.Machine.execCrcStart r s
  | .crcRunDone unit uncorr => Sys2Proof.Machine.execCrcRunDone unit uncorr s
  | .jtagTrst => Sys2Proof.Machine.execJtagTrst s
  | .jtagIdcode => Sys2Proof.Machine.execJtagIdcode s
  | .jtagBypass => Sys2Proof.Machine.execJtagBypass s
  | .jtagSamplePreload preload => Sys2Proof.Machine.execJtagSamplePreload preload s
  | .jtagExtest => Sys2Proof.Machine.execJtagExtest s
  | .jtagIntest => Sys2Proof.Machine.execJtagIntest s
  | .jtagClamp => Sys2Proof.Machine.execJtagClamp s
  | .jtagHighz => Sys2Proof.Machine.execJtagHighz s
  | .readFullyRead conn seq => Sys2Proof.Machine.execReadFullyRead conn seq s
  | .shardDeadline id => Sys2Proof.Machine.execShardDeadline id s
  | .pacingRelease part => Sys2Proof.Machine.execPacingRelease part s
  | .pllRelock inTime => Sys2Proof.Machine.execPllRelock inTime s
  | .resetNRelease addr => Sys2Proof.Machine.execResetNRelease addr s
  | .bbHeadFound => Sys2Proof.Machine.execBbHeadFound s
  | .dirCopyDone => Sys2Proof.Machine.execDirCopyDone s

end Sys2Proof.Machine
end

