-- ==== Sys2Proof/Safety.lean ====
section
/-! DEFINITION. What counts as a safe run of the block, and the terms that the statements use: the conditions under
which commands have their effect, and what a command leaves alone. -/

namespace Sys2Proof.Safety

open Sys2Proof.Machine

/-! ### Runs -/

/-- A command answers a next state: no fault, no refusal. -/
def Answers (i : Instr) (s : State) : Prop := ∃ t, exec i s = .next t

/-- A run of `n` steps that ends in a next state. -/
def RunsTo : Nat → State → State → Prop
  | 0, s, t => s = t
  | n + 1, s, t => ∃ u, step s = .next u ∧ RunsTo n u t

/-- The output pins stand as the state sets them (R480, R489, R524, R529). -/
abbrev PinsFollow (s : State) : Prop := s.pins = pinsOf s.toChip

/-- The state in which an effect on the chip leaves the machine: the pins follow it, the queue stays. -/
def after (s : State) (c : Chip) : State := { s with toChip := drivePins c }

/-- A chip without what raising events, sending packets and reporting faults may change: the stored registers and block
headers, the transport, the egress queues, FLT, the pins, and the model's own counters. Two chips with the same quiet
part differ in nothing else. -/
def quiet (c : Chip) : Chip :=
  { c with
    mgmt := { c.mgmt with regs := [], copy1 := [], copy2 := [], blocks := [] }
    xpt := Chip.reset.xpt
    egr := Chip.reset.egr
    flt := Chip.reset.flt
    pins := Chip.reset.pins
    free := 0
    now := 0
    fineNow := 0 }

/-! ### Conditions -/

/-- The fast domain runs, no module fault is in force and the module is not tripped (R443, R477, R493). -/
abbrev Awake (c : Chip) : Prop := c.chip.fast = .run ∧ c.flt.faulted = false ∧ c.pwr.tripped = false

/-- A core issues its next instruction (R146, R150, R236): its program runs, it waits for nothing, GRID is up. -/
abbrev Issues (c : Chip) (n : Nat) : Prop := Awake c ∧ canIssue c (coreAt c n) = true

/-- Lane 0 of an instruction's guard: what enables a scalar operation (R149). -/
def lane0 (c : Chip) (n : Nat) (g : Guard) : Bool := (guardMask (coreAt c n) g).getLsbD 0

/-- An operand of `n` bytes of the core store stands in the store at the alignment `al`, and no page of it is busy
for this access (R142, R143). -/
abbrev Operand (c : Chip) (core : Nat) (write : Bool) (a n al : Nat) : Prop :=
  a + n ≤ storeSize ∧ a % al = 0 ∧
    pageBusy (if write then busyWrites c core else busyReads c core) a n = false

/-! ### What a step operation changes -/

/-- Nothing but one core and the counter of free values is changed. -/
def OnlyCore (s t : State) (n : Nat) : Prop :=
  t = after s { setCore s.toChip n (coreAt t.toChip n) with free := t.free }

/-- An instruction gives S[A] a value under lane 0 of its guard, changes no other register (a write to S0 is
discarded), and issue goes on after it (R140, R149, R150). -/
def SetsScalar (i : Instr) (s : State) (core : CoreId) (g : Guard) (a : Reg) (w : Word) : Prop :=
  ∃ t, exec i s = .next t ∧ OnlyCore s t core.toNat ∧
    coreAt t.toChip core.toNat = { advance (coreAt s.toChip core.toNat) with s := (coreAt t.toChip core.toNat).s } ∧
    ∀ r, sget (coreAt t.toChip core.toNat) r =
      if lane0 s.toChip core.toNat g = true ∧ r = a ∧ a ≠ 0 then w else sget (coreAt s.toChip core.toNat) r

/-- An instruction gives the enabled lanes of V[A] the lanes of a list and changes nothing else of its core, and issue
goes on after it (R149, R150). -/
def SetsVector (i : Instr) (s : State) (core : CoreId) (m : BitVec 64) (a : Reg) (l : List Word) : Prop :=
  ∃ t, exec i s = .next t ∧ OnlyCore s t core.toNat ∧
    coreAt t.toChip core.toNat = { advance (coreAt s.toChip core.toNat) with v := (coreAt t.toChip core.toNat).v } ∧
    ∀ r j, j < 64 → (vget (coreAt t.toChip core.toNat) r).getD j 0 =
      if r = a ∧ m.getLsbD j = true then l.getD j 0 else (vget (coreAt s.toChip core.toNat) r).getD j 0

/-- An instruction gives the enabled lanes of P[A] the lanes of a word (a write to P0 is discarded) and changes nothing
else of its core, and issue goes on after it (R140, R149, R150). -/
def SetsPredicate (i : Instr) (s : State) (core : CoreId) (m : BitVec 64) (a : PReg) (w : BitVec 64) : Prop :=
  ∃ t, exec i s = .next t ∧ OnlyCore s t core.toNat ∧
    coreAt t.toChip core.toNat = { advance (coreAt s.toChip core.toNat) with p := (coreAt t.toChip core.toNat).p } ∧
    ∀ r, pget (coreAt t.toChip core.toNat) r =
      if r = a ∧ a ≠ 0 then (w &&& m) ||| (pget (coreAt s.toChip core.toNat) a &&& ~~~m)
      else pget (coreAt s.toChip core.toNat) r

/-- An instruction stores bytes in its core store: those that `b` gives, by address, and no other; it changes nothing
else of its core, and issue goes on after it (R142, R150). -/
def StoresBytes (i : Instr) (s : State) (core : CoreId) (b : Nat → Option Byte) : Prop :=
  ∃ t, exec i s = .next t ∧ OnlyCore s t core.toNat ∧
    coreAt t.toChip core.toNat =
      { advance (coreAt s.toChip core.toNat) with store := (coreAt t.toChip core.toNat).store } ∧
    ∀ x, coreByte (coreAt t.toChip core.toNat) x = (b x).getD (coreByte (coreAt s.toChip core.toNat) x)

/-- An instruction leaves its core as given and changes no other part of the chip (R150). -/
def CoreBecomes (i : Instr) (s : State) (core : CoreId) (k : Core) : Prop :=
  ∃ t, exec i s = .next t ∧ OnlyCore s t core.toNat ∧ coreAt t.toChip core.toNat = k

/-- An instruction gives the 2,048 elements of an accumulator bank, says what they are (0 zeros, 1 floating, 2 integer),
and leaves the other bank and the rest of its core alone; issue goes on after it (R150, R174). -/
def SetsBank (i : Instr) (s : State) (core : CoreId) (bank kind : Nat) (l : List Word) : Prop :=
  ∃ t, exec i s = .next t ∧ OnlyCore s t core.toNat ∧
    coreAt t.toChip core.toNat = { advance (coreAt s.toChip core.toNat) with
      acc := (coreAt t.toChip core.toNat).acc, accKind := (coreAt t.toChip core.toNat).accKind } ∧
    (∀ j, j < 2048 → bankGet (coreAt t.toChip core.toNat) bank j = l.getD j 0 ∧
      bankGet (coreAt t.toChip core.toNat) (1 - bank) j = bankGet (coreAt s.toChip core.toNat) (1 - bank) j) ∧
    tget 0 (coreAt t.toChip core.toNat).accKind bank = kind ∧
    tget 0 (coreAt t.toChip core.toNat).accKind (1 - bank) = tget 0 (coreAt s.toChip core.toNat).accKind (1 - bank)

/-! ### What a command changes beside its own effect -/

/-- A bit of a page's BLK_INT is set (R17, R18). -/
def Event (t : State) (p : Page) (b : Nat) : Prop := bit (hdr t.toChip p).int b = true

/-- A command answers a state whose quiet part is that of the given chip: beside the effect shown, it can only have
raised events, sent packets, reported faults and counted. -/
def Quietly (i : Instr) (s : State) (c : Chip) (p : State → Prop) : Prop :=
  ∃ t, exec i s = .next t ∧ t.pending = s.pending ∧ quiet t.toChip = quiet c ∧ p t

/-- A program error (R147): the first is kept in PROG_ERR and raises the event; a chip fault of GRID of a class that R475
does not list is reported, and its reaction begins; no register of a core and no memory changes. -/
def ProgramError (i : Instr) (s : State) (core : CoreId) (kind : Nat) : Prop :=
  Quietly i s s.toChip (fun t =>
    reg t.toChip aGRID_PROG_ERR = (if bit (reg s.toChip aGRID_PROG_ERR) 31 then reg s.toChip aGRID_PROG_ERR
      else w32 (2 ^ 31 + kind * 2 ^ 16 + core.toNat)) ∧
    (bit (reg s.toChip aGRID_PROG_ERR) 31 = false → Event t .grid 18) ∧
    (∃ l, t.flt.reports.head? = some l ∧ l.page = pageIdx .grid ∧ l.level = 2 ∧ 0x1E < l.cls) ∧
    (s.flt.modulePending = false → s.flt.faulted = false → t.flt.chipPending = true))

/-! ### Management accesses -/

/-- A requester of the operator's partition whose accesses to a page are served (R10, R13, R15, R443, R454). -/
abbrev Reaches (c : Chip) (r : Requester) (p : Page) : Prop :=
  requesterUp c r = true ∧ reqPart c r = 0 ∧ (minuetPage p = true ∨ fastServed c = true)

/-- A chip without what a management access itself changes: the quiet part, less the requesters' own state, the result of
the access, and the status of the last sideband write. -/
def desk (c : Chip) : Chip :=
  { quiet c with mgmt := Chip.reset.mgmt, smb := { c.smb with lastStatus := 0 } }

/-- A management command is answered with a code. Beside what it writes in registers and headers, it leaves the chip as
given. -/
def Answered (i : Instr) (s : State) (r : Requester) (code : Byte) (c : Chip) (p : State → Prop) : Prop :=
  ∃ t, exec i s = .next t ∧ t.pending = s.pending ∧ t.mgmt.acc = { status := code, data := 0 } ∧
    (r = .sideband → t.smb.lastStatus = code) ∧ desk t.toChip = desk c ∧ p t

/-- A management command is accepted: it is answered OK. -/
def Accepted (i : Instr) (s : State) (r : Requester) (c : Chip) (p : State → Prop) : Prop := Answered i s r 0x00 c p

/-- A management command is accepted and reaches a state with a property. -/
def AcceptedWith (i : Instr) (s : State) (r : Requester) (p : State → Prop) : Prop :=
  ∃ t, exec i s = .next t ∧ t.pending = s.pending ∧ t.mgmt.acc = { status := 0x00, data := 0 } ∧
    (r = .sideband → t.smb.lastStatus = 0x00) ∧ p t

/-- Beside the register that a write names, nothing that `desk` leaves open has moved: the connections, the queues, the
fault unit and every block's header stand. -/
abbrev Unmoved (s t : State) : Prop :=
  t.xpt = s.xpt ∧ t.egr = s.egr ∧ t.flt = s.flt ∧ ∀ q, hdr t.toChip q = hdr s.toChip q

/-- A command answers a state with a property, and leaves the queue. -/
def Completes (i : Instr) (s : State) (p : State → Prop) : Prop :=
  ∃ t, exec i s = .next t ∧ t.pending = s.pending ∧ p t

/-- No session operation, no figure, no revival and no heap pressure is in progress. -/
abbrev Quiescent (c : Chip) : Prop :=
  c.fig.committed = [] ∧ c.fig.waiting = [] ∧ c.sess.ops = [] ∧ c.tier.revivals = [] ∧ c.tier.pressing = []

/-- Nothing of a partition is in use: no session, connection, registration, search or load. -/
abbrev Vacant (c : Chip) (p : Nat) : Prop :=
  (∀ e ∈ c.sess.entries, e.2.part = p → e.2.state = .free) ∧
  (∀ k ∈ c.xpt.conns, inSpan (connRange c p) k.1 = true → k.2.state = .closed) ∧
  (∀ x ∈ c.xpt.regions, x.2.part ≠ p) ∧
  (∀ q ∈ c.srch.queries, ixPart c q.index ≠ p) ∧ (∀ d ∈ c.srch.deletes, ixPart c d.index ≠ p) ∧
  (∀ l ∈ c.srch.loads, ixPart c l.index ≠ p)

/-- The figure engine is idle: nothing is in progress, and its log and staging area are empty. -/
abbrev FigIdle (c : Chip) : Prop := Quiescent c ∧ c.fig.logUsed = 0 ∧ c.fig.staged = 0

/-- A request on a connection names a session that takes it (R39, R43): the handle passes, the entry stands in the
cache, no eviction of it runs, and no check of acceptance refuses. -/
abbrev Takes (c : Chip) (n : Nat) (h : Word) (code : Nat) (arg : OpArg) : Prop :=
  Awake c ∧ FigIdle c ∧ (∃ q, partOfConn c n = some q ∧ handleStatus c (some q) h = 0) ∧ hIdx h ∈ c.sess.cached ∧
    (body c (hIdx h)).evict = none ∧ (body c (hIdx h)).unsettled = false ∧ acceptStatus c (hIdx h) code arg = 0

/-- The entry of a session once every committed figure is applied (R73, R76). -/
def applied (t : State) (i : Nat) : Session := entry (settle t.toChip) i

/-- One figure was opened: it has committed, or it waits. -/
def OneFigure (t : State) : Prop := t.fig.committed.length + t.fig.waiting.length = 1

/-- A packet of an open connection arrives whole and in order (R313, R315, R318): XPT carries it on the way it came, its
nonce matches, and its number is the next one. -/
abbrev Arrives (c : Chip) (l : Link) (p : Pkt) (n : Nat) : Prop :=
  Awake c ∧ isUp c .xpt = true ∧ onlyMgmt c l = false ∧ pktValid p = true ∧ n = p.dst.toNat % 2 ^ 14 ∧
    (conn c n).state = .open ∧ p.nonce = (conn c n).myNonce ∧ p.seq = (conn c n).rxCum ∧ (conn c n).rxGot = []

/-! ### Ports -/

/-- The ports are powered and the module serves traffic (R359, R463). -/
abbrev Linked (c : Chip) : Prop := c.chip.fast ≠ .off ∧ c.tap.instr ≠ .extest

/-- A chip without its peer ports. -/
def portless (c : Chip) : Chip := quiet { c with peer := { c.peer with ports := [] } }

/-- A command leaves one peer port as given and every other port alone. -/
def PortBecomes (i : Instr) (s : State) (n : Nat) (x : PeerPort) (p : State → Prop) : Prop :=
  ∃ t, exec i s = .next t ∧ t.pending = s.pending ∧ pport t.toChip n = x ∧
    (∀ q, q ≠ n → pport t.toChip q = pport s.toChip q) ∧ portless t.toChip = portless s.toChip ∧ p t

/-- A port that went down: its waiting frames are dropped and no lane is active (R356). -/
def fallen (x : PeerPort) : PeerPort := { x with queue := [], state := .down, active := 0, dark := 0 }

/-- A counter rose by a number and stopped at its largest value. -/
def Counted (s t : State) (a n : Nat) : Prop :=
  (reg t.toChip a).toNat = min ((reg s.toChip a).toNat + n) 0xFFFFFFFF

/-! ### Cut-in -/

/-- CUT acts on messages and timers, FIG is idle, and no session operation is in progress but an OFFER that waits for
its destination (R305, R310). -/
abbrev CutReady (c : Chip) : Prop :=
  Awake c ∧ cutUp c = true ∧ isUp c .fig = true ∧ c.flt.chipPending = false ∧ c.fig.committed = [] ∧ c.fig.waiting = [] ∧
    c.fig.logUsed = 0 ∧ c.fig.staged = 0 ∧ c.tier.revivals = [] ∧ c.tier.pressing = [] ∧
    ∀ e ∈ c.sess.ops, e.2.map (·.phase) = [.handing]

/-- A number of messages was sent on a connection that is OPEN, not spray, and takes no events. -/
def Spoke (s t : State) (n k : Nat) : Prop :=
  (conn s.toChip n).state = .open → (conn s.toChip n).spray = false → (conn s.toChip n).mgmt = false →
    (conn t.toChip n).msgNext = (conn s.toChip n).msgNext + w32 k

/-- A session returned to the free list with the next generation (R38, R306). -/
def Discarded (s t : State) (i : Nat) : Prop :=
  (entry t.toChip i).state = .free ∧ (entry t.toChip i).gen = nextGen (entry s.toChip i).gen

/-- One query is in SRCH, and it ends with a record of its own (R396-R402). -/
abbrev OneQuery (c : Chip) (q : Query) : Prop := c.srch.queries = [q] ∧ q.parent = none ∧ c.srch.olds = []

/-- The query has left, and its record was sent. -/
def QueryEnded (s t : State) (q : Query) : Prop := t.srch.queries = [] ∧ Spoke s t q.conn 1

/-- A number of packets was sent, or waits to be sent, on a connection that takes no events. -/
def Queued (s t : State) (n k : Nat) : Prop :=
  (conn s.toChip n).mgmt = false → (conn t.toChip n).txOpen.length + (conn t.toChip n).txWait.length =
    (conn s.toChip n).txOpen.length + (conn s.toChip n).txWait.length + k

/-! ### Packets -/

/-- A packet carries only the fields of its TYPE (R313): every other field reads as zero. -/
abbrev Carried (p : Pkt) : Prop :=
  let t := p.typ.toNat
  (t ≠ 1 → t ≠ 2 → t ≠ 3 → p.tag = 0 ∧ p.offset = 0 ∧ p.opId = 0) ∧
  (t ≠ 2 → p.length = 0 ∧ p.respTag = 0 ∧ p.respOffset = 0) ∧
  (t ≠ 4 → p.cls = 0 ∧ p.msgLen = 0 ∧ p.msgId = 0) ∧
  (t ≠ 5 → p.cumSeq = 0 ∧ p.ce = 0) ∧
  (t ≠ 6 → p.nakSeq = 0) ∧
  (t ≠ 6 → t ≠ 7 → t ≠ 8 → p.status = 0) ∧
  (t ≠ 7 → t ≠ 8 → p.part = 0 ∧ p.cflags = 0 ∧ p.myNonce = 0 ∧ p.initSeq = 0)

/-! ### Checkpoints -/

/-- A mark that a member handles (R413). -/
abbrev Handles (c : Chip) (m : Mark) (typ : Nat) : Prop :=
  Awake c ∧ ckUp c = true ∧ m.crcOk = true ∧ m.typ.toNat = typ ∧ c.ckpt.topRound ≤ m.round.toNat

/-- A chip with CKPT's own state as given. -/
def withCkpt (c : Chip) (k : CkptUnit) : Chip := { c with ckpt := k }

end Sys2Proof.Safety
end

