-- ==== Sys2Proof/Certificates/Slice0/Obligations.lean ====
section
/-! DEFINITION. The statements about the block that the provers are asked to prove, family by family of the commands.
Each says under which conditions commands have their own effect, what they then change and what they leave alone. -/

section

open Sys2Proof Sys2Proof.Machine Sys2Proof.Safety

/-! ### The queue -/

/-- Task's form of a block: a step is the front command on the state with the rest of the queue; an empty queue idles
(log entry 2). -/
def Obligations.StepRunsTheFrontCommand : Prop :=
  (∀ (i : Instr) (rest : List Instr) (s : State), s.pending = i :: rest → step s = exec i { s with pending := rest }) ∧
  (∀ s : State, s.pending = [] → step s = .next s)

/-- No command ends a step in a fault or a refusal, none touches the commands that wait, and each leaves the output pins
as the state sets them (R480, R489, R524, R529). -/
def Obligations.EveryCommandAnswers : Prop :=
  ∀ (i : Instr) (s : State), ∃ t, exec i s = .next t ∧ t.pending = s.pending ∧ PinsFollow t

/-- GDDR7 keeps its canonical form at every step, and the output pins follow the state: an invariant of every step from
every state that has it. -/
def Obligations.StepKeepsMemoryAndPins : Prop :=
  ∀ s t : State, Memory.wf s.mem = true → PinsFollow s → step s = .next t → Memory.wf t.mem = true ∧ PinsFollow t

/-- The invariant holds after reset, with nothing of GDDR7 listed.

What reset leaves (R31, R17, R38, R317, R326, R361, R370, R448): the drainable pages OFF with ENABLE 0 and the pages
0x00 to 0x04 ON with ENABLE 1, BLK_INT and BLK_INT_EN 0, connections CLOSED, registrations FREE, ports OFF, partition 0
VALID and the others INVALID. -/
def Obligations.ResetState : Prop :=
  (Memory.wf State.reset.mem = true ∧ PinsFollow State.reset ∧ State.reset.pending = []) ∧
  ((∀ p : Page, bstate State.reset.toChip p = (if drainable p then .off else .on) ∧
    (hdr State.reset.toChip p).enable = !drainable p ∧ (hdr State.reset.toChip p).drain = false ∧
    (hdr State.reset.toChip p).int = 0 ∧ (hdr State.reset.toChip p).intEn = 0) ∧
  (∀ n, (conn State.reset.toChip n).state = .closed ∧ (region State.reset.toChip n).state = .free ∧
    (pport State.reset.toChip n).state = .off) ∧
  State.reset.host.state = .off ∧
  (∀ p, (secPart State.reset.toChip p).state = if p = 0 then .valid else .invalid))

/-! ### The management window (R8-R31) -/

/-- An access whose address breaks R8 is refused with REJECTED_LIMIT: it reads nothing, and it writes nothing, neither
a register nor a header nor the requester's own hold, shadow and unlocks. -/
def Obligations.AccessesOutsideTheRangeAreRefused : Prop :=
  ∀ (s : State) (r : Requester) (addr data : Word), requesterUp s.toChip r = true →
    (addr.toNat % 4 ≠ 0 ∨ 0x03FFFFFF < addr.toNat) →
    let refused := fun (i : Instr) => Answered i s r 0x23 s.toChip (fun t => (∀ k, regKey t.toChip k = regKey s.toChip k) ∧
      (∀ p, hdr t.toChip p = hdr s.toChip p) ∧ ∀ q, reqState t.toChip q = reqState s.toChip q)
    exec (.loRead r addr) s =
      .next (after s { s.toChip with mgmt := { s.mgmt with acc := { status := 0x23, data := 0 } } }) ∧
    (r = .sideband → s.smb.addr = addr → Completes (.smbRead true) s (fun t => t.smb.reply = [0x23, 0, 0, 0, 0] ∧
      t.mgmt = { s.mgmt with acc := { status := 0x23, data := 0 } })) ∧
    refused (.registerWrite r addr data) ∧ refused (.loWrite r addr data) ∧ refused (.hiWrite r addr data)

/-- The sideband commands (R13, R526): SET_ADDR latches its address; READ answers the status and the data of a read at the
latched address and adds 4 to it; WRITE does what REGISTER_WRITE of the sideband does, and keeps its status; LAST_STATUS
answers that status. A SET_ADDR or WRITE whose PEC is wrong is NACKed and changes nothing else; a READ abandoned before
its PEC is sent answers nothing and leaves the address. A clock held low abandons the transaction, but for a WRITE whose
PEC had been ACKed. -/
def Obligations.SidebandCommands : Prop :=
  ∀ (s : State) (addr data : Word), sidebandUp s.toChip = true →
    exec (.smbSetAddr addr true) s = .next (after s { s.toChip with smb := { s.smb with addr := addr, pecNack := false } }) ∧
    exec (.smbSetAddr addr false) s = .next (after s { s.toChip with smb := { s.smb with pecNack := true } }) ∧
    exec .smbLastStatus s = .next (after s { s.toChip with smb := { s.smb with reply := [s.smb.lastStatus] } }) ∧
    Completes (.smbRead true) s (fun t => t.smb.addr = s.smb.addr + 4 ∧
      t.smb.reply = t.mgmt.acc.status :: leBytes 4 t.mgmt.acc.data.toNat ∧
      exec (.loRead .sideband s.smb.addr) s =
        .next { t with smb := { t.smb with addr := s.smb.addr, reply := s.smb.reply } }) ∧
    exec (.smbRead false) s = .next (after s { s.toChip with smb := { s.smb with reply := [] } }) ∧
    Completes (.smbWrite addr data true) s (fun t =>
      exec (.registerWrite .sideband addr data) { s with smb := { s.smb with pecNack := false } } = .next t ∧
      t.smb.lastStatus = t.mgmt.acc.status ∧ t.smb.pecNack = false) ∧
    exec (.smbWrite addr data false) s = .next (after s { s.toChip with smb := { s.smb with pecNack := true } }) ∧
    exec (.smbClockLowTimeout none) s = .next (after s { s.toChip with smb := { s.smb with reply := [] } }) ∧
    Completes (.smbClockLowTimeout (some (addr, data))) s (fun t => t.smb.reply = [] ∧
      exec (.registerWrite .sideband addr data) s = .next { t with smb := { t.smb with reply := s.smb.reply } })

/-- A register of FLASH, GDR or SPEC that no rule of its own governs (R20, R22-R26): a write stores the stored fields,
and evens the three copies of a triplicated one; the aliases set, clear or toggle the written bits; every other bit,
every other register and the rest of the chip stand. The unlock, if any, is consumed. -/
def Obligations.WritesStoreFields : Prop :=
  ∀ (s : State) (r : Requester) (addr data : Word) (row : RegRow) (p : Page),
    (p = .flash ∨ p = .spec ∨ (p = .gdr ∧ addr.toNat ≠ aGDR_INTERLEAVE)) → p = pageOf (addr.toNat / 0x4000) →
    Reaches s.toChip r p → addr.toNat % 4 = 0 → 0x40 ≤ addr.toNat % 0x4000 → addr.toNat % 0x4000 < 0x1000 →
    rowOf addr.toNat = some row → row.pair = 0 → (rowGuarded row = true → armed s.toChip r p = true) →
    liveWord s.toChip 0 0 addr.toNat = none → row.bank = .none_ →
    let old := reg s.toChip addr.toNat
    let m := storeMask row
    let k0 := rkey 0 addr.toNat
    let wrote := fun (w : Word) (t : State) => reg t.toChip addr.toNat = (old &&& ~~~m) ||| (w &&& m) ∧
      tget 0 t.mgmt.copy1 k0 &&& m = 0 ∧ tget 0 t.mgmt.copy2 k0 &&& m = 0 ∧
      (∀ k, k ≠ k0 → regKey t.toChip k = regKey s.toChip k) ∧ armed t.toChip r p = false ∧ Unmoved s t
    Accepted (.registerWrite r addr data) s r s.toChip (wrote data) ∧
    Accepted (.aliasSet r addr data) s r s.toChip (wrote (old ||| data)) ∧
    Accepted (.aliasClear r addr data) s r s.toChip (wrote (old &&& ~~~data)) ∧
    Accepted (.aliasToggle r addr data) s r s.toChip (wrote (old ^^^ data))

/-- A 64-bit pair of an idle CRC unit (R25, R27): a _LO read answers the word and loads the shadow with the pair's _HI;
a _LO write goes to the hold, changes no register and leaves an unlock armed; the _HI write of the held pair applies both
words and empties the hold. -/
def Obligations.PairsApplyWhole : Prop :=
  ∀ (s : State) (r : Requester) (a lo hi : Word) (u : Nat),
    a.toNat ∈ [aCRC_POLY_LO, aCRC_INIT_LO, aCRC_XOROUT_LO] → Reaches s.toChip r .crc →
    u = bankFor s.toChip 0 .unit → (crcUnit s.toChip u).busy = false →
    (∃ t, exec (.loRead r a) s = .next t ∧ t.pending = s.pending ∧
      t.mgmt.acc = { status := 0x00, data := regB s.toChip u a.toNat } ∧
      (reqState t.toChip r).shadow = some (rkey u (a.toNat + 4), regB s.toChip u (a.toNat + 4))) ∧
    Accepted (.loWrite r a lo) s r s.toChip (fun t => (reqState t.toChip r).hold = some (rkey u a.toNat, lo) ∧
      (∀ k, regKey t.toChip k = regKey s.toChip k) ∧ armed t.toChip r .crc = armed s.toChip r .crc) ∧
    ((reqState s.toChip r).hold = some (rkey u a.toNat, lo) →
      Accepted (.hiWrite r (a + 4) hi) s r s.toChip (fun t => (reqState t.toChip r).hold = none ∧
        regB t.toChip u a.toNat = lo ∧ regB t.toChip u (a.toNat + 4) = hi ∧
        ∀ k, k ≠ rkey u a.toNat → k ≠ rkey u (a.toNat + 4) → regKey t.toChip k = regKey s.toChip k))

/-! ### In-band management, unlocks and block control (R19, R25-R34, R337) -/

/-- An in-band frame (R337) on a connection that takes messages, while the fast domain runs: a frame shorter than its
header is discarded; any other is answered by one message of its COUNT and FRAME_ID. Where COUNT is 0 or does not fit the
length, or the connection is not designated, no access is executed and every entry answers REJECTED_LIMIT or
REJECTED_STATE; otherwise the accesses run in order, each as LO_READ or REGISTER_WRITE of that connection, and the answer
holds the status and the word of each. In NAP and DEEP the frame is kept and a wake begins (R14).

BLK_UNLOCK and UNLOCK_LAPSE (R25): the code arms the requester's unlock of that page, any other value disarms it, a
lapse disarms it; no other unlock, no register and no header changes. A guarded write without the unlock is refused with
REJECTED_STATE, leaves its register as it was and raises the page's GUARD_ERR event (R26). -/
def Obligations.FramesAndUnlocks : Prop :=
  (∀ (s : State) (n : Conn) (f : List Byte), connTakes s.toChip n.toNat = true →
    let k := rdLE f 0 1
    let answered := fun (c : Chip) (l : List Byte) =>
      exec (.mgmtReq n f) s = .next (after s (sendMsg c n.toNat 6 ([BitVec.ofNat 8 k, 0, 0, 0] ++ slice f 4 4 ++ l)))
    let all := fun (code : Byte) => (List.range k).flatMap (fun _ => [code, 0, 0, 0, 0, 0, 0, 0])
    let ran := frameRun n.toNat (chunksOf k 12 (f.drop 8)) (s.toChip, [])
    (s.chip.fast = .run →
      (f.length < 8 → exec (.mgmtReq n f) s = .next (after s s.toChip)) ∧
      (8 ≤ f.length → (k = 0 ∨ f.length ≠ 8 + 12 * k) → answered s.toChip (all 0x23)) ∧
      (0 < k → f.length = 8 + 12 * k → (conn s.toChip n.toNat).mgmt = false → answered s.toChip (all 0x21)) ∧
      (0 < k → f.length = 8 + 12 * k → (conn s.toChip n.toNat).mgmt = true → answered ran.1 ran.2)) ∧
    ((s.chip.fast = .nap ∨ s.chip.fast = .deep) → exec (.mgmtReq n f) s = .next (after s { s.toChip with
      chip := { s.chip with fast := .waking, wakeFrom := s.chip.fast }
      xpt := { s.xpt with heldReqs := s.xpt.heldReqs ++ [(n.toNat, f)] } }))) ∧
  (∀ (s : State) (n : Conn) (e : List Byte) (rest : List (List Byte)) (l : List Byte),
    let c := frameAccess s.toChip n.toNat e
    frameRun n.toNat [] (s.toChip, l) = (s.toChip, l) ∧
    frameRun n.toNat (e :: rest) (s.toChip, l) =
      frameRun n.toNat rest (c, l ++ [c.mgmt.acc.status, 0, 0, 0] ++ leBytes 4 c.mgmt.acc.data.toNat) ∧
    (requesterUp s.toChip (.conn n) = true →
      (rdLE e 0 1 = 1 → exec (.loRead (.conn n) (w32 (rdLE e 4 4))) s = .next (after s c)) ∧
      (rdLE e 0 1 = 2 → exec (.registerWrite (.conn n) (w32 (rdLE e 4 4)) (w32 (rdLE e 8 4))) s = .next (after s c)) ∧
      (rdLE e 0 1 ≠ 1 → rdLE e 0 1 ≠ 2 →
        c = { s.toChip with mgmt := { s.mgmt with acc := { status := 0x23, data := 0 } } }))) ∧
  (∀ (s : State) (r : Requester) (p : Page) (data : Word),
    let one := fun (on : Bool) (t : State) => armed t.toChip r p = on ∧
      (∀ q, q ≠ p → armed t.toChip r q = armed s.toChip r q) ∧
      (∀ r', r' ≠ r → reqState t.toChip r' = reqState s.toChip r') ∧ (∀ k, regKey t.toChip k = regKey s.toChip k) ∧
      Unmoved s t
    (Reaches s.toChip r p → Accepted (.blkUnlock r p data) s r s.toChip (one (decide (data = 0xC0DA)))) ∧
    (minuetOn s.toChip = true → Completes (.unlockLapse r p) s (fun t => one false t ∧ desk t.toChip = desk s.toChip)) ∧
    (∀ (addr : Word) (row : RegRow), Reaches s.toChip r p → p = pageOf (addr.toNat / 0x4000) → addr.toNat % 4 = 0 →
      addr.toNat < 0x64000 → 0x40 ≤ addr.toNat % 0x4000 → addr.toNat % 0x4000 < 0x1000 →
      rowOf addr.toNat = some row → row.pair = 0 → rowGuarded row = true → armed s.toChip r p = false →
      Answered (.registerWrite r addr data) s r 0x21 s.toChip (fun t => Event t p 3 ∧
        regB t.toChip (bankFor s.toChip 0 row.bank) addr.toNat = regB s.toChip (bankFor s.toChip 0 row.bank) addr.toNat)))

/-- Pages whose block does nothing of its own when it goes ON. -/
abbrev plainPages : List Page :=
  [.fig, .tier, .attn, .samp, .spec, .text, .cut, .xpt, .egr, .srch, .crc, .tel]

/-- ENABLE, DRAIN and SELFTEST of a drainable block (R31): OFF or DISABLED goes ON with ENABLE 1; ON goes DRAINING with
ENABLE cleared or DRAIN set; OFF or DISABLED goes to TESTING; an ON or DRAINING block refuses a self-test with
REJECTED_BUSY, as a block in TESTING does (the model's choice, log entry 89), and a block in FAULT refuses ENABLE and
SELFTEST with REJECTED_STATE. A change of state sets BLK_INT.STATE; no other block changes state. SESS whose directory is
being moved and CKPT with one member do not go ON by this. -/
def Obligations.BlockControlMovesTheBlock : Prop :=
  ∀ (s : State) (r : Requester) (p : Page), drainable p = true → Reaches s.toChip r p → FigIdle s.toChip →
    let h := hdr s.toChip p
    let moved := fun (st : BState) (t : State) => bstate t.toChip p = st ∧ Event t p 0 ∧
      ∀ q, q ≠ p → bstate t.toChip q = bstate s.toChip q
    let stays := fun (t : State) => (∀ q, hdr t.toChip q = hdr s.toChip q) ∧ ∀ k, regKey t.toChip k = regKey s.toChip k
    ((h.state = .off ∨ h.state = .disabled) → h.enable = false →
      (p = .sess → s.sess.moveFrom = none ∧ s.sess.copying = false) →
      (p = .ckpt → fld (reg s.toChip aCKPT_CFG) 29 24 ≠ 1) →
      AcceptedWith (.enable r p 1) s r (fun t => bstate t.toChip p = .on) ∧
      (p ∈ plainPages → Accepted (.enable r p 1) s r s.toChip (fun t => moved .on t ∧ (hdr t.toChip p).enable = true))) ∧
    (h.state = .on → h.enable = true →
      AcceptedWith (.enable r p 0) s r (fun t => bstate t.toChip p = .draining ∧ (hdr t.toChip p).enable = false) ∧
      (p ∉ [.tier, .srch, .tel] →
        Accepted (.enable r p 0) s r s.toChip (fun t => moved .draining t ∧ (hdr t.toChip p).enable = false))) ∧
    (h.state = .on → h.drain = false → AcceptedWith (.drain r p) s r (fun t => bstate t.toChip p = .draining) ∧
      (p ∉ [.tier, .srch, .tel] → Accepted (.drain r p) s r s.toChip (fun t => moved .draining t ∧
        (hdr t.toChip p).drain = true ∧ (hdr t.toChip p).enable = h.enable))) ∧
    ((h.state = .off ∨ h.state = .disabled) →
      AcceptedWith (.selftest r p) s r (fun t => moved .testing t ∧ (hdr t.toChip p).selftest = true)) ∧
    ((h.state = .on ∨ h.state = .draining ∨ h.state = .testing) → Answered (.selftest r p) s r 0x20 s.toChip stays) ∧
    (h.state = .fault → Answered (.selftest r p) s r 0x21 s.toChip stays ∧
      (h.enable = false → Answered (.enable r p 1) s r 0x21 s.toChip stays))

/-- SOFT_RESET (R26, R31): without the unlock it is refused and changes nothing but GUARD_ERR; with it a block that is
OFF, DISABLED or in FAULT goes OFF with its header and registers at reset (the registers that stand are the model's
choice, log entry 69; what XPT, PEER, EGR, SRCH and CKPT end with it is left open here); an ON, DRAINING or TESTING block
refuses it.

The ends of a drain and of a self-test (R31, R33): DRAIN_DONE takes a DRAINING block whose INFLIGHT is 0 to DISABLED
with ENABLE 0, and does nothing otherwise; the timeout of a block without work does so with DRAIN_FORCED and
DRAIN_ABORT; the end of a self-test sets ST_RAN, and ST_FAIL as it failed, and takes a drainable block from TESTING to
DISABLED, while a block in another state stays as it was. -/
def Obligations.BlocksResetAndEnd : Prop :=
  (∀ (s : State) (r : Requester) (p : Page), drainable p = true → Reaches s.toChip r p → FigIdle s.toChip →
    let h := hdr s.toChip p
    (armed s.toChip r p = false → Answered (.softReset r p) s r 0x21 s.toChip (fun t =>
      Event t p 3 ∧ bstate t.toChip p = h.state)) ∧
    (armed s.toChip r p = true → (h.state = .on ∨ h.state = .draining ∨ h.state = .testing) →
      Answered (.softReset r p) s r 0x20 s.toChip (fun t => ∀ q, hdr t.toChip q = hdr s.toChip q)) ∧
    (armed s.toChip r p = true → (h.state = .off ∨ h.state = .disabled ∨ h.state = .fault) →
      AcceptedWith (.softReset r p) s r (fun t => bstate t.toChip p = .off) ∧
      (p ∉ [.xpt, .peer, .egr, .srch, .ckpt] →
        AcceptedWith (.softReset r p) s r (fun t => bstate t.toChip p = .off ∧ armed t.toChip r p = false ∧
          { hdr t.toChip p with int := 0 } = hdrReset (pageIdx p) ∧
          ∀ bank a, a < 0x64000 → a / 0x4000 = pageIdx p → a ∉ keptRegs →
            regB t.toChip bank a = regReset s.variant (rkey bank a))))) ∧
  (∀ (s : State) (p : Page),
    let h := hdr s.toChip p
    let tested := fun (pass : Bool) (t : State) =>
      bstate t.toChip p = (if drainable p = true ∧ h.state = .testing then .disabled else h.state) ∧
      (hdr t.toChip p).selftest = false ∧ (hdr t.toChip p).stRan = true ∧ (hdr t.toChip p).stFail = !pass ∧
      Event t p 5 ∧ (pass = false → Event t p 6)
    (Awake s.toChip → h.state = .draining → inflightCount s.toChip p = 0 →
      Quietly (.drainDone p) s s.toChip (fun t => bstate t.toChip p = .disabled ∧ (hdr t.toChip p).enable = false ∧
        (hdr t.toChip p).drainForced = false ∧ Event t p 0 ∧ Event t p 1 ∧
        ∀ q, q ≠ p → bstate t.toChip q = bstate s.toChip q)) ∧
    (h.state ≠ .draining ∨ inflightCount s.toChip p ≠ 0 → exec (.drainDone p) s = .next (after s s.toChip)) ∧
    (Awake s.toChip → h.state = .draining → FigIdle s.toChip →
      p ∈ [.sess, .tier, .gdr, .sched, .samp, .spec, .text, .tel] →
      Quietly (.drainTimeout p) s s.toChip (fun t => bstate t.toChip p = .disabled ∧ (hdr t.toChip p).enable = false ∧
        (hdr t.toChip p).drainForced = true ∧ Event t p 0 ∧ Event t p 1 ∧ Event t p 2)) ∧
    (∀ pass, h.selftest = true → p ∉ s.chip.testing → (if minuetPage p then minuetOn s.toChip = true else Awake s.toChip) →
      p ∉ [.host, .sec, .grid] → Quietly (.selftestEnd p pass) s s.toChip (tested pass)) ∧
    (∀ pass, h.selftest = true → p ∉ s.chip.testing → Awake s.toChip → p ∈ [.host, .sec, .grid] →
      Completes (.selftestEnd p pass) s (tested pass)))

/-- BLK_INT_SET and BLK_INT_EN (R18, R19): bits that exist and are written as 1 are set in BLK_INT, none is cleared;
BLK_INT_EN takes the written bits that exist. Enabling a bit that is pending sends one event frame to the event
destination.

VOTE_SWEEP (R28, R29): bits of one copy of a triplicated register, or of BLK_CTRL, that changed are outvoted: the
register reads as before, its copies agree again, and the page records the disagreement in BLK_VOTE_ERR and raises VOTE.
(FLT has no triplicated register but BLK_CTRL.) -/
def Obligations.InterruptBitsAndVotes : Prop :=
  (∀ (s : State) (r : Requester) (p : Page) (data : Word), Reaches s.toChip r p →
    let h := hdr s.toChip p
    Accepted (.blkIntSet r p data) s r s.toChip (fun t =>
      (∀ b, bit (h.int ||| (data &&& intMask p)) b = true → bit (hdr t.toChip p).int b = true) ∧
      (data &&& h.intEn &&& ~~~h.int = 0 → (hdr t.toChip p) = { h with int := h.int ||| (data &&& intMask p) })) ∧
    Accepted (.blkIntEnWrite r p data) s r s.toChip (fun t => (hdr t.toChip p).intEn = data &&& intMask p ∧
      (data &&& intMask p &&& ~~~h.intEn &&& h.int = 0 → hdr t.toChip p = { h with intEn := data &&& intMask p } ∧
        t.xpt = s.xpt) ∧
      ∀ n, data &&& intMask p &&& ~~~h.intEn &&& h.int ≠ 0 → p ∉ [.xpt, .egr] → (hdr s.toChip .xpt).intEn = 0 →
        (hdr s.toChip .egr).intEn = 0 → eventConns s.toChip = [n] → (conn s.toChip n).spray = false →
        (conn t.toChip n).msgNext = (conn s.toChip n).msgNext + 1)) ∧
  (∀ (s : State) (u : Upset) (p : Page), minuetOn s.toChip = true → s.mgmt.copy1 = [] → s.mgmt.copy2 = [] →
    u.addr.toNat < 0x64000 → p = pageOf (u.addr.toNat / 0x4000) → (minuetPage p = true ∨ s.chip.fast = .run) →
    (∀ q, (hdr s.toChip q).odd0 = 0 ∧ (hdr s.toChip q).odd1 = 0 ∧ (hdr s.toChip q).odd2 = 0) → u.copy < 3 →
    let outvoted := fun (t : State) => t.mgmt.copy1 = [] ∧ t.mgmt.copy2 = [] ∧
      (hdr t.toChip p).odd0 = 0 ∧ (hdr t.toChip p).odd1 = 0 ∧ (hdr t.toChip p).odd2 = 0 ∧ Event t p 4 ∧
      (hdr t.toChip p).votePending = true ∧ (hdr t.toChip p).voteNomaj = false ∧
      (hdr t.toChip p).voteOffset.toNat = u.addr.toNat % 0x4000 / 4 ∧
      (hdr t.toChip p).voteCount.toNat = min 255 ((hdr s.toChip p).voteCount.toNat + 1) ∧
      bstate t.toChip p = bstate s.toChip p
    (∀ row : RegRow, rowOf u.addr.toNat = some row → p ≠ .flt → u.flip ≠ 0 → u.flip &&& maskOfAcc row tripleAcc = u.flip →
      Quietly (.voteSweep [u]) s s.toChip (fun t => outvoted t ∧
        regB t.toChip u.bank u.addr.toNat = regB s.toChip u.bank u.addr.toNat)) ∧
    (u.addr.toNat % 0x4000 = 8 → u.flip.setWidth 4 ≠ 0 →
      Quietly (.voteSweep [u]) s s.toChip (fun t => outvoted t ∧
        (hdr t.toChip p).enable = (hdr s.toChip p).enable ∧ (hdr t.toChip p).drain = (hdr s.toChip p).drain ∧
        (hdr t.toChip p).selftest = (hdr s.toChip p).selftest ∧ (hdr t.toChip p).softReset = (hdr s.toChip p).softReset)))

/-! ### Checked validation (R196, R271, R272, R278, R387, R535) -/

/-- A chip with another set of checks. -/
abbrev withChecks (c : Chip) (k : ChecksUnit) : Chip := { c with checks := k }

/-- VOCAB_VALIDATE and VOCAB_INVALIDATE (R271, R272, R535), under the unlock: on the selected slot, when no session names
it and no check of a vocabulary runs, the first stores MODE and starts the check, which shows in VOCAB_STAT as
REJECTED_BUSY, and the second stores MODE, clears VALID and drops the table's image; a running check refuses both with
REJECTED_BUSY, and a session that names the slot refuses both with REJECTED_STATE.

GRAM_VALIDATE and GRAM_INVALIDATE (R278, R535), under the unlock: the same for the selected grammar with its vocabulary
slot and GRAM_STAT; a session that names the grammar refuses the second. -/
def Obligations.TextTableWrites : Prop :=
  (∀ (s : State) (r : Requester) (mode : Bool) (m : Nat), Reaches s.toChip r .text → armed s.toChip r .text = true →
    m = fld (reg s.toChip aTEXT_VOCAB_SEL) 3 0 →
    let w := fun (t : State) => regB t.toChip m aTEXT_VOCAB_CTRL
    let same := fun (t : State) => ∀ k, regKey t.toChip k = regKey s.toChip k
    (s.checks.vocab = none → slotNamed s.toChip m = false →
      (bit (w s) 0 = false → Accepted (.vocabValidate r mode) s r (withChecks s.toChip { s.checks with vocab := some m })
        (fun t => bit (w t) 1 = mode ∧ bit (w t) 0 = false ∧ fld (reg t.toChip aTEXT_VOCAB_STAT) 7 0 = 0x20)) ∧
      Accepted (.vocabInvalidate r mode) s r (withChecks s.toChip { s.checks with vocabImg := tdel s.checks.vocabImg m })
        (fun t => bit (w t) 1 = mode ∧ bit (w t) 0 = false)) ∧
    (s.checks.vocab.isSome = true → Answered (.vocabValidate r mode) s r 0x20 s.toChip same ∧
      Answered (.vocabInvalidate r mode) s r 0x20 s.toChip same) ∧
    (s.checks.vocab = none → slotNamed s.toChip m = true → Answered (.vocabValidate r mode) s r 0x21 s.toChip same ∧
      Answered (.vocabInvalidate r mode) s r 0x21 s.toChip same)) ∧
  (∀ (s : State) (r : Requester) (slot : BitVec 4) (g : Nat), Reaches s.toChip r .text → armed s.toChip r .text = true →
    g = fld (reg s.toChip aTEXT_GRAM_SEL) 11 0 →
    let w := fun (t : State) => regB t.toChip g aTEXT_GRAM_CTRL
    let same := fun (t : State) => ∀ k, regKey t.toChip k = regKey s.toChip k
    (s.checks.gram = none → gramNamed s.toChip g = false →
      (bit (w s) 0 = false → Accepted (.gramValidate r slot) s r (withChecks s.toChip { s.checks with gram := some g })
        (fun t => fld (w t) 7 4 = slot.toNat ∧ bit (w t) 0 = false ∧ fld (reg t.toChip aTEXT_GRAM_STAT) 7 0 = 0x20)) ∧
      Accepted (.gramInvalidate r slot) s r (withChecks s.toChip { s.checks with gramImg := tdel s.checks.gramImg g })
        (fun t => fld (w t) 7 4 = slot.toNat ∧ bit (w t) 0 = false)) ∧
    (s.checks.gram.isSome = true → Answered (.gramValidate r slot) s r 0x20 s.toChip same ∧
      Answered (.gramInvalidate r slot) s r 0x20 s.toChip same) ∧
    (s.checks.gram = none → gramNamed s.toChip g = true → Answered (.gramInvalidate r slot) s r 0x21 s.toChip same))

/-- MODEL_VALIDATE and MODEL_INVALIDATE (R196, R535): under the unlock, on a slot that no session names and while no check
of a layer table runs, the first stores LAYERS and starts the check, which shows in MODEL_STAT as REJECTED_BUSY, and the
second stores LAYERS, clears VALID and drops the table's image; a running check refuses both with REJECTED_BUSY, and a
session that names the slot refuses the second with REJECTED_STATE.

IDX_VALIDATE and IDX_INVALIDATE (R387, R535): under the unlock, VALID 1 starts the check of the selected slot and
VALID 0 makes the index invalid, unless an operation on it is in progress or its check runs (REJECTED_BUSY). -/
def Obligations.SlotWrites : Prop :=
  (∀ (s : State) (r : Requester) (n : Byte) (m : Nat), Reaches s.toChip r .attn → armed s.toChip r .attn = true →
    m = fld (reg s.toChip aATTN_MODEL_SEL) 3 0 →
    let w := fun (t : State) => regB t.toChip m aATTN_MODEL_CTRL
    let same := fun (t : State) => ∀ k, regKey t.toChip k = regKey s.toChip k
    (s.checks.model = none → slotNamed s.toChip m = false →
      (bit (w s) 0 = false → Accepted (.modelValidate r n) s r (withChecks s.toChip { s.checks with model := some m })
        (fun t => fld (w t) 15 8 = n.toNat ∧ bit (w t) 0 = false ∧ fld (reg t.toChip aATTN_MODEL_STAT) 7 0 = 0x20)) ∧
      Accepted (.modelInvalidate r n) s r (withChecks s.toChip { s.checks with
          layerImg := tdel s.checks.layerImg m, tableImg := tdel s.checks.tableImg m })
        (fun t => fld (w t) 15 8 = n.toNat ∧ bit (w t) 0 = false ∧ (bit (w s) 0 = true → Event t .attn 16))) ∧
    (s.checks.model.isSome = true → Answered (.modelValidate r n) s r 0x20 s.toChip same ∧
      Answered (.modelInvalidate r n) s r 0x20 s.toChip same) ∧
    (s.checks.model = none → slotNamed s.toChip m = true → Answered (.modelInvalidate r n) s r 0x21 s.toChip same)) ∧
  (∀ (s : State) (r : Requester) (part : Part) (rep : Bool) (x : Nat), Reaches s.toChip r .srch →
    armed s.toChip r .srch = true → x = fld (reg s.toChip aSRCH_INDEX_SEL) 3 0 →
    let w := fun (t : State) => regB t.toChip x aSRCH_IDX_CTRL
    let same := fun (t : State) => ∀ k, regKey t.toChip k = regKey s.toChip k
    let wrote := fun (t : State) => fld (w t) 10 8 = part.toNat ∧ bit (w t) 1 = rep ∧ bit (w t) 0 = false
    (ixChecking s.toChip x = false → bit (w s) 0 = false →
      Accepted (.idxValidate r part rep) s r (withChecks s.toChip { s.checks with index := s.checks.index ++ [x] })
        (fun t => wrote t ∧ regB t.toChip x aSRCH_IDX_STAT = 0x20)) ∧
    (ixChecking s.toChip x = false → bit (w s) 0 = true → ixBusy s.toChip x = false → fld (w s) 10 8 = part.toNat →
      Accepted (.idxInvalidate r part rep) s r s.toChip wrote) ∧
    (ixChecking s.toChip x = true ∨ (bit (w s) 0 = true ∧ ixBusy s.toChip x = true) →
      Answered (.idxInvalidate r part rep) s r 0x20 s.toChip same) ∧
    (ixChecking s.toChip x = true → Answered (.idxValidate r part rep) s r 0x20 s.toChip same))

/-- The ends of the checks (R196, R271, R278, R387, R535): a layer table, a vocabulary and a grammar that passed become
valid, with the image of the table as the check found it; one that failed stays as it was, with REJECTED_LIMIT in its
status register (and the failing layer of a layer table), and the failure event is raised. An index that passed becomes
valid with its counts at 0; one that failed stays as it was, with the code of its check in its status register. The check
is over either way. -/
def Obligations.ChecksEnd : Prop :=
  ∀ s : State, Awake s.toChip → FigIdle s.toChip →
    (∀ m, s.checks.model = some m →
      let c1 := withChecks s.toChip { s.checks with model := none }
      let img := tins s.checks.layerImg m (layerTableAt c1 m).flatten
      let valid := setFldB (withChecks s.toChip { s.checks with model := none, layerImg := img }) m aATTN_MODEL_CTRL 0 0 1
      (badLayer c1 m = none → Quietly .modelCheckDone s
        (withChecks s.toChip { s.checks with
          model := none, layerImg := img, tableImg := tset [] s.checks.tableImg m (ropeCells valid m) })
        (fun t => modelValid t.toChip m = true ∧ reg t.toChip aATTN_MODEL_STAT = 0 ∧ Event t .attn 16)) ∧
      (∀ i, badLayer c1 m = some i → Quietly .modelCheckDone s c1 (fun t =>
        modelValid t.toChip m = modelValid s.toChip m ∧ reg t.toChip aATTN_MODEL_STAT = w32 (i * 256 + 0x23) ∧
        Event t .attn 17))) ∧
    (∀ m, s.checks.vocab = some m →
      let c1 := withChecks s.toChip { s.checks with vocab := none }
      (vocabCheckOk c1 m = true → Quietly .vocabCheckDone s (withChecks s.toChip { s.checks with
          vocab := none
          vocabImg := tins s.checks.vocabImg m
            (if vocabMode s.toChip m then vocabBytes s.toChip (vocabAddr s.toChip m) else []) })
        (fun t => bit (regB t.toChip m aTEXT_VOCAB_CTRL) 0 = true ∧ fld (reg t.toChip aTEXT_VOCAB_STAT) 7 0 = 0)) ∧
      (vocabCheckOk c1 m = false → Quietly .vocabCheckDone s c1 (fun t =>
        regB t.toChip m aTEXT_VOCAB_CTRL = regB s.toChip m aTEXT_VOCAB_CTRL ∧
        fld (reg t.toChip aTEXT_VOCAB_STAT) 7 0 = 0x23 ∧ Event t .text 17))) ∧
    (∀ g, s.checks.gram = some g →
      let c1 := withChecks s.toChip { s.checks with gram := none }
      (gramCheckOk c1 g = true → Quietly .gramCheckDone s (withChecks s.toChip { s.checks with
          gram := none, gramImg := tins s.checks.gramImg g (gramBytes s.toChip g) })
        (fun t => bit (regB t.toChip g aTEXT_GRAM_CTRL) 0 = true ∧ fld (reg t.toChip aTEXT_GRAM_STAT) 7 0 = 0)) ∧
      (gramCheckOk c1 g = false → Quietly .gramCheckDone s c1 (fun t =>
        regB t.toChip g aTEXT_GRAM_CTRL = regB s.toChip g aTEXT_GRAM_CTRL ∧
        fld (reg t.toChip aTEXT_GRAM_STAT) 7 0 = 0x23 ∧ Event t .text 18))) ∧
    (∀ x : BitVec 4, ixChecking s.toChip x.toNat = true →
      let c1 := withChecks s.toChip { s.checks with index := s.checks.index.filter (fun y => y ≠ x.toNat) }
      Completes (.idxCheckDone x) s (fun t => t.checks = c1.checks ∧ t.mem = s.mem ∧ t.flash = s.flash ∧
        regB t.toChip x.toNat aSRCH_IDX_STAT = w32 (ixCheck c1 x.toNat) ∧
        (ixCheck c1 x.toNat = 0 → bit (regB t.toChip x.toNat aSRCH_IDX_CTRL) 0 = true ∧
          regB t.toChip x.toNat aSRCH_IDX_REPAIRED = 0 ∧ regB t.toChip x.toNat aSRCH_IDX_DELETED = 0) ∧
        (ixCheck c1 x.toNat ≠ 0 → regB t.toChip x.toNat aSRCH_IDX_CTRL = regB s.toChip x.toNat aSRCH_IDX_CTRL)))


/-! ### Session operations (R36-R67, R275, R305, R467) -/

/-- The payload of the last packet that a connection sent or holds back. -/
abbrev lastSent (c : Chip) (n : Nat) : List Byte :=
  ((((conn c n).txOpen.map (·.pkt)) ++ (conn c n).txWait.map (·.1)).getLast?.map (·.payload)).getD []

/-- On a connection that is OPEN, not spray and takes no events, the last packet sent is a completion record. -/
abbrev Reports (s t : State) (n : Nat) (r : CompRec) (seq : Nat) : Prop :=
  (conn s.toChip n).state = .open → (conn s.toChip n).spray = false → (conn s.toChip n).mgmt = false →
    ∃ stamp, lastSent t.toChip n = compBytes r seq stamp

/-- The requests on a session, with their codes (R43). -/
abbrev sessionRequests (n : Conn) (tag : DWord) (h : Word) (src : AppendSrc) (gen : GenReq) (fork : ForkReq) (a b : Word)
    (u v : BitVec 16) : List (Nat × Instr) :=
  [(2, .append n tag h src), (3, .generate n tag h gen), (4, .park n tag h), (5, .resume n tag h a),
    (6, .fork n tag h fork), (7, .excludeSpan n tag h a b), (8, .endSession n tag h), (9, .secureEnd n tag h),
    (10, .query n tag h), (11, .offer n tag h u v)]

/-- A session handle (R37): PARTITION in bits 31:29, INDEX in 28:7, GENERATION in 6:0; the three give the handle back. -/
def Obligations.HandleLayout : Prop :=
  (∀ h : Word, hPart h = h.toNat / 2 ^ 29 ∧ hIdx h = h.toNat / 2 ^ 7 % 2 ^ 22 ∧ hGen h = h.toNat % 2 ^ 7 ∧
    mkHandle (hPart h) (hIdx h) (hGen h) = h) ∧
  ∀ p i g, p < 8 → i < 2 ^ 22 → g < 2 ^ 7 →
    hPart (mkHandle p i g) = p ∧ hIdx (mkHandle p i g) = i ∧ hGen (mkHandle p i g) = g

/-- The handle checks come first (R39): a request whose handle fails them changes no session and is answered with their
code. -/
def Obligations.HandleChecksComeFirst : Prop :=
  ∀ (s : State) (n : Conn) (tag : DWord) (h : Word) (src : AppendSrc) (gen : GenReq) (fork : ForkReq) (a b : Word)
    (u v : BitVec 16) (x : Nat × Instr), x ∈ sessionRequests n tag h src gen fork a b u v → Awake s.toChip →
    s.fig.committed = [] →
    let st := handleStatus s.toChip (partOfConn s.toChip n.toNat) h
    st ≠ 0 → Quietly x.2 s s.toChip (fun t => Reports s t n.toNat (bareRec h tag x.1 st) 0)

/-- OPEN (R44, R46): a request that no rule refuses takes a FREE index and creates a READY session there by one figure,
with LENGTH 0, EPOCH 0 and the request's fields, and the record's AUX is its handle; a refused one changes no session and
is answered with its code. (The address of the block table is the model's own, log entry 12.) -/
def Obligations.OpenCreatesAReadySession : Prop :=
  ∀ (s : State) (n : Conn) (tag : DWord) (req : OpenReq) (p : Nat), Awake s.toChip → FigIdle s.toChip →
    partOfConn s.toChip n.toNat = some p →
    (∀ k x, openRefusal s.toChip p req = 0 → freeIndex s.toChip p = some k →
      heapAllocs s.toChip p [tailSetBytes s.toChip req.model.toNat, smallBytes, exclBytes] = some x →
      Completes (.openSession n tag req) s (fun t =>
        (∃ v, applied t k = { openEntry s.toChip p k req x.1 v with
          stamp := (applied t k).stamp, figSeq := s.fig.seq + 1, crcFlip := 0 }) ∧
        (∀ j, j ≠ k → applied t j = entry s.toChip j) ∧ t.fig.seq = s.fig.seq + 1 ∧ t.sess.ops = [] ∧
        Reports s t n.toNat { bareRec 0 tag 1 0 with
          figSeq := none, aux := w64 (mkHandle p k (entry s.toChip k).gen).toNat } (s.fig.seq + 1))) ∧
    (openRefusal s.toChip p req ≠ 0 → Quietly (.openSession n tag req) s s.toChip (fun t =>
      Reports s t n.toNat (bareRec 0 tag 1 (openRefusal s.toChip p req)) 0))

/-- APPEND and GENERATE on a READY session (R45, R47, R537): the accepted operation waits for a place in a step with its
tokens known, or, for text, is being tokenised; the session's entry stands. TOKENISE_DONE (R275) makes the text's tokens
known and counts them. -/
def Obligations.AppendAndGenerateQueue : Prop :=
  ∀ (s : State) (n : Conn) (tag : DWord) (h : Word),
    let i := hIdx h
    let e := entry s.toChip i
    let now := fun (o : Op) => quiet { s.toChip with
      sess := { s.sess with ops := [(i, [o])], accepted := s.sess.accepted + 1 } }
    (∀ l : List Word, Takes s.toChip n.toNat h 2 (.append (.tokens l)) → e.state = .ready →
      let toks := l.map (fun t => t.toNat % 2 ^ 20)
      ((toks.all (fun t => decide (t < slotVocab s.toChip e.model)) = true → e.length + toks.length ≤ e.maxLen →
        Completes (.append n tag h (.tokens l)) s (fun t => quiet t.toChip = now
          { newOp 2 n.toNat tag h (.append (.tokens l)) s.sess.accepted with phase := .ready, tokens := toks })) ∧
      (toks.any (fun t => decide (slotVocab s.toChip e.model ≤ t)) = true ∨ e.maxLen < e.length + toks.length →
        Completes (.append n tag h (.tokens l)) s (fun t => t.sess.ops = [] ∧ t.sess.entries = s.sess.entries ∧
          t.fig = s.fig ∧ Spoke s t n.toNat 1)))) ∧
    (∀ l : List Byte, Takes s.toChip n.toNat h 2 (.append (.text l)) → e.state = .ready →
      Completes (.append n tag h (.text l)) s (fun t => quiet t.toChip = now
        { newOp 2 n.toNat tag h (.append (.text l)) s.sess.accepted with phase := .tokenising })) ∧
    (∀ req : GenReq, Takes s.toChip n.toNat h 3 (.generate req) → e.state = .ready → 0 < e.length → e.length < e.maxLen →
      Completes (.generate n tag h req) s (fun t => quiet t.toChip = now
        { newOp 3 n.toNat tag h (.generate req) s.sess.accepted with
          phase := .ready, hostAt := if srcHost req.spec ∧ 0 < req.drafts.length then some 0 else none })) ∧
    (∀ (o : Op) (l : List Byte), Awake s.toChip → isUp s.toChip .text = true → s.fig.committed = [] →
      s.tier.revivals = [] → s.tier.pressing = [] → sessionAt s.toChip h = some i → s.sess.ops = [(i, [o])] → o.phase = .tokenising →
      o.arg = .append (.text l) → e.state = .ready →
      let toks := tokenise s.toChip e.model l
      4 * toks.length ≤ workFree s.toChip → toks.all (fun t => decide (t < slotVocab s.toChip e.model)) = true →
      e.length + toks.length ≤ e.maxLen →
      Completes (.tokeniseDone h) s (fun t => t.sess.ops = [(i, [{ o with phase := .ready, tokens := toks }])] ∧
        t.sess.entries = s.sess.entries ∧ t.fig = s.fig ∧
        pair t.toChip aTEXT_TOK_OUT_LO = (pair s.toChip aTEXT_TOK_OUT_LO + toks.length) % 2 ^ 64))

/-- PARK, END, SECURE_END, EXCLUDE_SPAN and OFFER of an idle session (R46, R54, R59, R60, R305, R467): each opens one
figure. PARK commits SITOUT; END commits ENDED and completes; SECURE_END commits ENDED and stays in progress;
EXCLUDE_SPAN records the merged spans; OFFER commits HANDOFF_OUT, keeps a cut record under a CUT_ID of its own and sends
one message. No other field of the entry changes but STAMP and the sequence number. -/
def Obligations.SessionFiguresCommit : Prop :=
  ∀ (s : State) (n : Conn) (tag : DWord) (h : Word),
    let i := hIdx h
    let e := entry s.toChip i
    let went := fun (st : SessState) (t : State) => t.fig.seq = s.fig.seq + 1 ∧
      applied t i = { e with state := st, stamp := (applied t i).stamp, figSeq := s.fig.seq + 1, crcFlip := 0 } ∧
      ∀ j, j ≠ i → applied t j = entry s.toChip j
    (Takes s.toChip n.toNat h 4 .plain → Completes (.park n tag h) s (fun t => went .sitout t ∧ t.sess.ops = [] ∧
      Spoke s t n.toNat 1)) ∧
    (Takes s.toChip n.toNat h 8 .plain → Completes (.endSession n tag h) s (fun t => went .ended t ∧ t.sess.ops = [] ∧
      Spoke s t n.toNat 1)) ∧
    (Takes s.toChip n.toNat h 9 .plain → Completes (.secureEnd n tag h) s (fun t => went .ended t ∧
      (body t.toChip i).secure = true ∧ (opsOf t.toChip i).map (fun o => (o.code, o.phase)) = [(9, .handing)] ∧
      Spoke s t n.toNat 0)) ∧
    (∀ a b : Word, Takes s.toChip n.toNat h 7 (.exclude a b) → a.toNat < b.toNat → b.toNat ≤ e.length →
      let spans := addSpan (body s.toChip i).excl a.toNat b.toNat
      spans.length ≤ 16 →
      Completes (.excludeSpan n tag h a b) s (fun t => (applied t i).excluded = spanCover spans ∧
        (applied t i).exclCount = spans.length ∧ (applied t i).length = e.length ∧ (applied t i).state = e.state ∧
        (body (settle t.toChip) i).excl = spans ∧ t.fig.seq = s.fig.seq + 1 ∧ t.sess.ops = [] ∧ Spoke s t n.toNat 1)) ∧
    (∀ dst k : BitVec 16, Takes s.toChip n.toNat h 11 (.offer dst k) → e.state = .ready →
      cutFind s.toChip true (dst.toNat % 2 ^ 14) s.cutNext = none →
      Completes (.offer n tag h dst k) s (fun t => went .handoffOut t ∧ t.cutNext = s.cutNext + 1 ∧
        (∃ r, t.cuts = s.cuts ++ [r] ∧ r.cutId = s.cutNext ∧ r.source = true ∧ r.state = .offered ∧ r.idx = i ∧
          r.epoch = e.epoch ∧ r.conn = dst.toNat % 2 ^ 14) ∧
        (opsOf t.toChip i).map (fun o => (o.code, o.phase)) = [(11, .handing)] ∧ Spoke s t (dst.toNat % 2 ^ 14) 1))

/-- RESUME of a SITOUT or COLD session whose data has a good copy (R55, R106): a revival of the session stands in TIER
with the deadline of the request (0: DEADLINE_DEFAULT), the operation is reviving, and the entry stands.

FORK (R57, R97) of a source whose copies are good: one figure creates a session at a FREE index with the first P
positions of the source, which keeps its entry; the record's AUX is the new handle. A fork that must read flash may be too
late for its reads and then ends without a figure. (EPOCH 0 is the model's own reading, log entry 96; that the late fork
is a free value, log entry 98.) -/
def Obligations.ResumeAndFork : Prop :=
  (∀ (s : State) (n : Conn) (tag : DWord) (h : Word) (d : Word), Takes s.toChip n.toNat h 5 (.resume d) →
    let i := hIdx h
    let e := entry s.toChip i
    (unclaimed s.toChip i).any (fun k => decide ((ledger s.toChip k).state = .damaged)) = false →
    (e.state = .cold → (imageOf s.toChip i).isSome = true) →
    Completes (.resume n tag h d) s (fun t =>
      (∃ r, revivalOf t.toChip i = some r ∧ r.deadline = (if d = 0 then deadlineDefault s.toChip else d.toNat) ∧
        r.priority = e.priority ∧ r.cold = decide (e.state = .cold)) ∧
      (opsOf t.toChip i).map (fun o => (o.code, o.phase)) = [(5, .reviving)] ∧ entry t.toChip i = e ∧
      t.fig.seq = s.fig.seq)) ∧
  (∀ (s : State) (n : Conn) (tag : DWord) (h : Word) (req : ForkReq) (k : Nat) (x : List Nat × Chip),
    Takes s.toChip n.toNat h 6 (.fork req) →
    let i := hIdx h
    let e := entry s.toChip i
    let p := req.p.toNat
    forkRefusal s.toChip i p = 0 → (forkReads s.toChip i p = true → flashServes s.toChip = true) →
    (p / 128 < groupsOf e.length → p % 128 ≠ 0 → ∀ b ∈ groupBlocks s.toChip i (p / 128),
      (ledger s.toChip b).state ≠ .damaged ∧
      ((ledger s.toChip b).state = .flash → blockOk (blockData s.toChip b) = true) ∧
      ((ledger s.toChip b).state = .resident ∨ (ledger s.toChip b).state = .mirrored → hdrOk (blockBytes s.toChip b) = true)) →
    (e.state = .cold → (imageOf s.toChip i).isSome = true) → freeIndex s.toChip e.part = some k → k ≠ i →
    (body s.toChip i).counts.length ≤ 65536 → (body s.toChip i).gram.length ≤ 1048576 →
    heapAllocs s.toChip e.part [tailSetBytes s.toChip e.model, smallBytes, exclBytes] = some x →
    Completes (.fork n tag h req) s (fun t =>
      let f := applied t k
      t.sess.ops = [] ∧ Spoke s t n.toNat 1 ∧
      ((f.part = e.part ∧ (f.state = .ready ∨ f.state = .sitout) ∧ f.length = p ∧ f.maxLen = e.maxLen ∧
        f.model = e.model ∧ f.dense = e.dense ∧ f.epoch = 0 ∧ f.parent = handleOf s.toChip i ∧ f.prngCtr = 0 ∧
        f.prngKey = (if req.seed = 0 then e.prngKey else req.seed) ∧ f.gen = (entry s.toChip k).gen ∧
        applied t i = { e with figSeq := s.fig.seq + 1, crcFlip := 0 } ∧ t.fig.seq = s.fig.seq + 1) ∨
      (forkReads s.toChip i p = true ∧ t.sess.entries = s.sess.entries ∧ t.fig = s.fig))))

/-- QUERY (R50, R63): it is answered at once from the committed entry and changes nothing.

SESSION_RELEASE_DONE (R38, R60, R467): an ENDED session becomes FREE at the next generation and holds nothing more; a
SECURE_END that was verified, and that no checkpoint keeps waiting, completes then. -/
def Obligations.QueryAndRelease : Prop :=
  (∀ (s : State) (n : Conn) (tag : DWord) (h : Word), Awake s.toChip → s.fig.committed = [] →
    handleStatus s.toChip (partOfConn s.toChip n.toNat) h = 0 → hIdx h ∈ s.sess.cached →
    let e := entry s.toChip (hIdx h)
    let rec_ := { bareRec h tag 10 (if sessClosed s.toChip e.part then 0x20 else 0) with
      epoch := e.epoch, length := e.length,
      aux := if sessClosed s.toChip e.part then 0 else w64 (queryAux s.toChip (hIdx h)) }
    Quietly (.query n tag h) s s.toChip (fun t => Reports s t n.toNat rec_ 0)) ∧
  (∀ (s : State) (h : Word) (v : Bool), Awake s.toChip → isUp s.toChip .fig = true → s.flt.chipPending = false →
    s.fig.committed = [] → s.fig.waiting = [] → s.fig.logUsed = 0 → s.fig.staged = 0 → s.tier.revivals = [] →
    s.tier.pressing = [] → sessionAt s.toChip h = some (hIdx h) → (entry s.toChip (hIdx h)).state = .ended →
    let i := hIdx h
    ((body s.toChip i).secure = false → s.sess.ops = [] → Completes (.sessionReleaseDone h v) s (fun t =>
      Discarded s t i ∧ body t.toChip i = bodyReset ∧ t.fig.seq = s.fig.seq + 1)) ∧
    (∀ o, (body s.toChip i).secure = true → s.sess.ops = [(i, [o])] → o.phase = .handing → isOn s.toChip .ckpt = false →
      heldObjects s.toChip i = [] → Completes (.sessionReleaseDone h true) s (fun t =>
        Discarded s t i ∧ body t.toChip i = bodyReset ∧ t.sess.ops = [] ∧ Spoke s t o.conn 1)))

/-! ### Step operations (R140-R161, R172-R179) -/

/-- What is enabled of an instruction that tests lane 0 alone (R149): every lane or none. -/
abbrev laneAll (c : Chip) (n : Nat) (g : Guard) : BitVec 64 := if lane0 c n g then BitVec.allOnes 64 else 0

/-- The scalar arithmetic of R150: SMOVI, SADD, SSUB, SMUL (low 32 bits), SAND, SOR, SXOR and the shifts by bits 4:0,
each on S[B] and S[C] + IMM; SCMP writes every lane of a predicate.

The control operations (R146, R149, R150, R156, R157): NOP goes on; HALT ends the program; LOOP enters its body
S[A] mod 2^16 times or skips it; SKIP goes on past IMM instructions; FENCE waits until all is acknowledged; BAR waits, and
the last member of the group to arrive releases every member. Without lane 0 each only goes on. -/
def Obligations.ScalarAndControl : Prop :=
  (∀ (s : State) (core : CoreId) (g : Guard) (a b c : Reg) (p : PReg) (imm : Word) (fmt : BitVec 2),
    Issues s.toChip core.toNat →
    let k := coreAt s.toChip core.toNat
    let x := sget k b
    let y := sget k c + imm
    let z := sget k c
    SetsScalar (.smovi core g a imm) s core g a imm ∧
    SetsScalar (.sadd core g a b c imm) s core g a (x + y) ∧
    SetsScalar (.ssub core g a b c imm) s core g a (x - y) ∧
    SetsScalar (.smul core g a b c imm) s core g a (x * y) ∧
    SetsScalar (.sand core g a b c imm) s core g a (x &&& y) ∧
    SetsScalar (.sor core g a b c imm) s core g a (x ||| y) ∧
    SetsScalar (.sxor core g a b c imm) s core g a (x ^^^ y) ∧
    SetsScalar (.sshl core g a b c imm) s core g a (x <<< (y.toNat % 32)) ∧
    SetsScalar (.sshr core g a b c imm) s core g a (x >>> (y.toNat % 32)) ∧
    SetsPredicate (.scmp core g p b c fmt) s core (laneAll s.toChip core.toNat g) p
      (if (if fmt = 0 then x = z else if fmt = 1 then x.toNat < z.toNat else if fmt = 2 then x.toInt < z.toInt
        else x.toInt ≤ z.toInt) then BitVec.allOnes 64 else 0)) ∧
  (∀ (s : State) (core : CoreId) (g : Guard) (a : Reg) (n : Word) (b : BitVec 2), Issues s.toChip core.toNat →
    let k := coreAt s.toChip core.toNat
    let count := (sget k a).toNat % 65536
    let members := (List.range 256).filter (inGroup k)
    let others := members.all (fun m => decide (m = core.toNat) || decide ((coreAt s.toChip m).wait = some (.bar b.toNat)))
    CoreBecomes (.nop core g) s core (advance k) ∧
    (lane0 s.toChip core.toNat g = false → CoreBecomes (.halt core g) s core (advance k) ∧
      CoreBecomes (.loop core g a n) s core (advance k) ∧ CoreBecomes (.skip core g n) s core (advance k) ∧
      CoreBecomes (.fence core g) s core (advance k) ∧ CoreBecomes (.bar core g b) s core (advance k)) ∧
    (lane0 s.toChip core.toNat g = true →
      CoreBecomes (.halt core g) s core { k with halted := true } ∧
      (count = 0 ∨ n = 0 → CoreBecomes (.loop core g a n) s core (goTo k (k.pc + 1 + n.toNat))) ∧
      (count ≠ 0 → n ≠ 0 → CoreBecomes (.loop core g a n) s core { k with
        pc := k.pc + 1, loops := { start := k.pc + 1, len := n.toNat, count := count, index := 0 } :: k.loops }) ∧
      CoreBecomes (.skip core g n) s core (goTo k (k.pc + 1 + n.toNat)) ∧
      (drained k = true → CoreBecomes (.fence core g) s core (advance k)) ∧
      (drained k = false → CoreBecomes (.fence core g) s core { k with wait := some .fence }) ∧
      (core.toNat ∉ members ∨ others = false → CoreBecomes (.bar core g b) s core { k with wait := some (.bar b.toNat) }) ∧
      (core.toNat ∈ members → others = true → Completes (.bar core g b) s (fun t =>
        (∀ m, m ∈ members → coreAt t.toChip m = advance { coreAt s.toChip m with wait := none }) ∧
        ∀ m, m ∉ members → coreAt t.toChip m = coreAt s.toChip m))))

/-- Loads (R142, R150, R177): SLD and SPAR read a little-endian word of the core store, VLD 64 elements of a format
widened to FP32, SIDX the iteration index of an enclosing loop by depth from the outermost (log entry 38).

Stores (R142, R149, R150): SST stores a word, VST the enabled lanes of V[A] in a format, MOUT the 2,048 elements of a
bank in a format; every other byte of the core store stands. -/
def Obligations.LoadsAndStores : Prop :=
  (∀ (s : State) (core : CoreId) (g : Guard) (a b : Reg) (imm : Word) (fmt depth : BitVec 2), Issues s.toChip core.toNat →
    let n := core.toNat
    let k := coreAt s.toChip n
    let x := (sget k b + imm).toNat
    let size := fun (f : BitVec 2) => if f = 0 then 4 else if f = 1 then 2 else 1
    ((lane0 s.toChip n g = true → Operand s.toChip n false x 4 4) →
      SetsScalar (.sld core g a b imm) s core g a (w32 (leNat (coreRead k x 4)))) ∧
    ((lane0 s.toChip n g = true → Operand s.toChip n false (4 * imm.toNat) 4 4) →
      SetsScalar (.spar core g a imm) s core g a (w32 (leNat (coreRead k (4 * imm.toNat) 4)))) ∧
    (∀ l, k.loops.reverse[depth.toNat]? = some l → SetsScalar (.sidx core g a depth) s core g a (w32 l.index)) ∧
    (k.loops.length ≤ depth.toNat → ∃ w, SetsScalar (.sidx core g a depth) s core g a w) ∧
    (Operand s.toChip n false x (64 * size fmt) 64 →
      SetsVector (.vld core g a b fmt imm) s core (guardMask k g) a
        ((List.range 64).map (fun i => widen fmt.toNat (leNat (coreRead k (x + i * size fmt) (size fmt))))))) ∧
  (∀ (s : State) (core : CoreId) (g : Guard) (a b : Reg) (imm : Word) (fmt : BitVec 2) (bank : Bool),
    Issues s.toChip core.toNat →
    let n := core.toNat
    let k := coreAt s.toChip n
    let x := (sget k b + imm).toNat
    let y := (sget k a).toNat
    let size := if fmt = 0 then 4 else if fmt = 1 then 2 else 1
    let on := lane0 s.toChip n g
    ((on = true → Operand s.toChip n true x 4 4) → StoresBytes (.sst core g a b imm) s core (fun q =>
      if on = true ∧ x ≤ q ∧ q < x + 4 then (leBytes 4 (sget k a).toNat)[q - x]? else none)) ∧
    (Operand s.toChip n true x (64 * size) 64 → StoresBytes (.vst core g a b fmt imm) s core (fun q =>
      if x ≤ q ∧ q < x + 64 * size ∧ (guardMask k g).getLsbD ((q - x) / size) = true then
        (leBytes size (narrow fmt.toNat ((vget k a).getD ((q - x) / size) 0)))[(q - x) % size]? else none)) ∧
    ((on = true → Operand s.toChip n true y (2048 * size) 64) → StoresBytes (.mout core g a fmt bank) s core (fun q =>
      if on = true ∧ y ≤ q ∧ q < y + 2048 * size then
        (leBytes size (narrow fmt.toNat (bankFp k (b2n bank) ((q - y) / size))))[(q - y) % size]? else none)))

/-- Operands of the core store that are wrong or busy (R142, R143, R147): one past the end of the store is a program
error of kind 0x01, a misaligned one of kind 0x0A, and on a busy page the instruction stalls and changes nothing. -/
def Obligations.OperandErrorsAndStalls : Prop :=
  ∀ (s : State) (core : CoreId) (g : Guard) (a b : Reg) (imm : Word), Issues s.toChip core.toNat →
    lane0 s.toChip core.toNat g = true →
    let n := core.toNat
    let x := (sget (coreAt s.toChip n) b + imm).toNat
    (storeSize < x + 4 → ProgramError (.sld core g a b imm) s core 0x01 ∧ ProgramError (.sst core g a b imm) s core 0x01) ∧
    (storeSize < x + 256 → ProgramError (.vld core g a b 0 imm) s core 0x01 ∧
      ProgramError (.vst core g a b 0 imm) s core 0x01) ∧
    (x + 4 ≤ storeSize → x % 4 ≠ 0 → ProgramError (.sld core g a b imm) s core 0x0A ∧
      ProgramError (.sst core g a b imm) s core 0x0A) ∧
    (x + 256 ≤ storeSize → x % 64 ≠ 0 → ProgramError (.vld core g a b 0 imm) s core 0x0A ∧
      ProgramError (.vst core g a b 0 imm) s core 0x0A) ∧
    (x + 4 ≤ storeSize → x % 4 = 0 → pageBusy (busyReads s.toChip n) x 4 = true →
      exec (.sld core g a b imm) s = .next (after s s.toChip)) ∧
    (x + 4 ≤ storeSize → x % 4 = 0 → pageBusy (busyWrites s.toChip n) x 4 = true →
      exec (.sst core g a b imm) s = .next (after s s.toChip))

/-- The vector operations (R149, R150, R177-R179): under the guard, lane by lane, VADD, VSUB, VMUL, VFMA, VMAX, VMIN,
VEXP2, VRCP, VRSQ, VRED, VBCAST and VROT; VSEL selects by the predicate and writes every lane; VCMP writes the enabled
lanes of a predicate; MCOL reads a bank column. -/
def Obligations.VectorOperations : Prop :=
  ∀ (s : State) (core : CoreId) (g : Guard) (a b c : Reg) (p : PReg) (fmt : BitVec 2) (scalar max : Bool)
    (lane : BitVec 6) (col : BitVec 5) (bank : Bool), Issues s.toChip core.toNat →
    let k := coreAt s.toChip core.toNat
    let m := guardMask k g
    let va := vget k a
    let vb := vget k b
    let vc := vget k c
    SetsVector (.vadd core g a b c) s core m a (List.zipWith fadd vb vc) ∧
    SetsVector (.vsub core g a b c) s core m a (List.zipWith fsub vb vc) ∧
    SetsVector (.vmul core g a b c) s core m a (List.zipWith fmul vb vc) ∧
    SetsVector (.vfma core g a b c) s core m a
      ((List.range 64).map (fun i => ffma (vb.getD i 0) (vc.getD i 0) (va.getD i 0))) ∧
    SetsVector (.vmax core g a b c) s core m a (List.zipWith fmax vb vc) ∧
    SetsVector (.vmin core g a b c) s core m a (List.zipWith fmin vb vc) ∧
    SetsVector (.vexp2 core g a b) s core m a (vb.map fexp2) ∧
    SetsVector (.vrcp core g a b) s core m a (vb.map frcp) ∧
    SetsVector (.vrsq core g a b) s core m a (vb.map frsq) ∧
    SetsVector (.vred core g a b max) s core m a ((if max then vredMax vb else vredSum vb) :: List.replicate 63 0) ∧
    SetsVector (.vbcast core g a b scalar lane) s core m a
      (List.replicate 64 (if scalar then sget k b else vb.getD lane.toNat 0)) ∧
    SetsVector (.vrot core g a b c) s core m a (rotLanes va vb vc) ∧
    SetsVector (.vsel core g a b c) s core (BitVec.allOnes 64) a
      ((List.range 64).map (fun i => if m.getLsbD i then vb.getD i 0 else vc.getD i 0)) ∧
    SetsVector (.mcol core g a col bank) s core (laneAll s.toChip core.toNat g) a
      ((List.range 64).map (fun i => bankGet k (b2n bank) (col.toNat * 64 + i))) ∧
    ∀ w : BitVec 64, (∀ i, i < 64 → w.getLsbD i = fcmp fmt.toNat (vb.getD i 0) (vc.getD i 0)) →
      SetsPredicate (.vcmp core g p b c fmt) s core m p w

/-- MZERO and MMA (R150, R152, R173-R175): MZERO gives every element +0; MMA of K slices within the limits and of formats
that may stand together, on a bank of the same kind or zeros, gives the sums; where the manual states no result the bank
is open (log entry 40). An operand past the store or misaligned, and a slice distance of 4-bit elements that is no
multiple of 64, is a program error whatever K and the bank are. -/
def Obligations.MatrixOperations : Prop :=
  ∀ (s : State) (core : CoreId) (g : Guard) (a b c : Reg) (fa fb : BitVec 4) (bank : Bool) (dist : BitVec 16),
    Issues s.toChip core.toNat → lane0 s.toChip core.toNat g = true →
    let n := core.toNat
    let k := coreAt s.toChip n
    let kk := (sget k c).toNat
    let d := if dist = 0 then 64 else dist.toNat
    let x := (sget k a).toNat
    let y := (sget k b).toNat
    let la := operandSpan fa.toNat x (aBytes fa.toNat kk d) (2 * kk)
    let lb := operandSpan fb.toNat y (bBytes fb.toNat kk) kk
    let kind := if fa = 4 ∨ fa = 5 then 2 else 1
    SetsBank (.mzero core g bank) s core (b2n bank) 0 (List.replicate 2048 0) ∧
    (operandErr x la = none → operandErr y lb = none → (fa = 2 ∨ fa = 5 → d % 64 = 0) →
      pageBusy (busyReads s.toChip n) x la = false → pageBusy (busyReads s.toChip n) y lb = false →
      (mmaStated k (b2n bank) fa.toNat fb.toNat kk = true →
        SetsBank (.mma core g a b c fa fb bank dist) s core (b2n bank) kind
          (mmaBank k (b2n bank) fa.toNat fb.toNat x y kk d)) ∧
      (mmaStated k (b2n bank) fa.toNat fb.toNat kk = false →
        ∃ l, SetsBank (.mma core g a b c fa fb bank dist) s core (b2n bank) kind l)) ∧
    (∀ e, operandErr x la = some e ∨ (operandErr x la = none ∧ operandErr y lb = some e) →
      ProgramError (.mma core g a b c fa fb bank dist) s core e) ∧
    (operandErr x la = none → operandErr y lb = none → (fa = 2 ∨ fa = 5) → d % 64 ≠ 0 →
      ProgramError (.mma core g a b c fa fb bank dist) s core 0x0A)

/-- Messages and plans of a core (R155, R158): RECV posts its buffer and gives the source its credit; SEND queues a
message, which streams once its credit is held; RWAIT and CWAIT go on with what has come or wait; CPLAN starts a plan of
1 to 4,096 descriptors. A tag posted twice is a program error of kind 0x03, a destination outside the group of kind 0x04,
an empty or too long plan of kind 0x05; a full queue or a running plan stalls.

What ends messages and plans (R155, R158): a message that arrives stands whole in its posted buffer, which shows its
length, and leaves the source; a finished plan of one LOAD has copied its bytes of GDDR7 to the core store, one of one
STORE its bytes of the core store to GDDR7, and the plan runs no more. -/
def Obligations.MessagesAndPlans : Prop :=
  (∀ (s : State) (core : CoreId) (g : Guard) (a b c : Reg) (tag : BitVec 4) (plan : BitVec 2), Issues s.toChip core.toNat →
    lane0 s.toChip core.toNat g = true →
    let n := core.toNat
    let k := coreAt s.toChip n
    let x := (sget k a).toNat
    let len := (sget k b).toNat
    let src := (sget k c).toNat
    let msg : SendMsg := { dst := x, tag := tag.toNat, addr := len, len := src }
    let posted := (tfind k.posts tag.toNat).map (fun p => p.arrived)
    let post : Core := advance { k with
      posts := tins k.posts tag.toNat { addr := x, len := len, src := src, arrived := none } }
    (operandErr x len = none → posted ≠ some none → 256 ≤ src → CoreBecomes (.recv core g a b c tag) s core post) ∧
    (operandErr x len = none → posted ≠ some none → src < 256 → src ≠ n → (coreAt s.toChip src).sendQ = [] →
      (coreAt s.toChip src).wait = none → Completes (.recv core g a b c tag) s (fun t => coreAt t.toChip n = post ∧
        coreAt t.toChip src = { coreAt s.toChip src with credits := (coreAt s.toChip src).credits ++ [(n, tag.toNat)] } ∧
        ∀ m, m ≠ n → m ≠ src → coreAt t.toChip m = coreAt s.toChip m)) ∧
    (operandErr x len = none → posted = some none → ProgramError (.recv core g a b c tag) s core 0x03) ∧
    (inGroup k x = true → k.sendQ = [] → operandErr len src = none → pageBusy (busyReads s.toChip n) len src = false →
      ((x, tag.toNat) ∉ k.credits → CoreBecomes (.send core g a b c tag) s core (advance { k with sendQ := [msg] })) ∧
      ((x, tag.toNat) ∈ k.credits → x ≠ n → CoreBecomes (.send core g a b c tag) s core (advance { k with
        inFlight := k.inFlight ++ [(msg, coreRead k len src)], credits := k.credits.erase (x, tag.toNat) }))) ∧
    (inGroup k x = false → ProgramError (.send core g a b c tag) s core 0x04) ∧
    (inGroup k x = true → 8 ≤ k.sendQ.length → exec (.send core g a b c tag) s = .next (after s s.toChip)) ∧
    (∀ l, (tfind k.posts tag.toNat).bind (·.arrived) = some l →
      CoreBecomes (.rwait core g a tag) s core (advance (sset k a (w32 l)))) ∧
    ((tfind k.posts tag.toNat).bind (·.arrived) = none →
      CoreBecomes (.rwait core g a tag) s core { k with wait := some (.message tag.toNat a.toNat) }) ∧
    (tfind k.plans plan.toNat = none → CoreBecomes (.cwait core g plan) s core (advance k)) ∧
    ((tfind k.plans plan.toNat).isSome = true →
      CoreBecomes (.cwait core g plan) s core { k with wait := some (.plan plan.toNat) } ∧
      exec (.cplan core g a b plan) s = .next (after s s.toChip)) ∧
    (tfind k.plans plan.toNat = none → (len = 0 ∨ 4096 < len) → ProgramError (.cplan core g a b plan) s core 0x05) ∧
    (∀ ds, tfind k.plans plan.toNat = none → 0 < len → len ≤ 4096 → operandErr x (32 * len) = none →
      pageBusy (busyReads s.toChip n) x (32 * len) = false →
      descsCheck s.toChip n k (chunksOf len 32 (coreRead k x (32 * len))) = .ok ds →
      CoreBecomes (.cplan core g a b plan) s core (advance { k with plans := tins k.plans plan.toNat ds }))) ∧
  (∀ (s : State), Awake s.toChip → isUp s.toChip .grid = true →
    (∀ (src dst : CoreId) (m : SendMsg) (data : List Byte) (p : Post) (tag : BitVec 4), src ≠ dst →
      let k := coreAt s.toChip src.toNat
      let d := coreAt s.toChip dst.toNat
      k.inFlight.find? (fun e => e.1.dst = dst.toNat) = some (m, data) → m.tag = tag.toNat →
      tfind d.posts tag.toNat = some p → data.length ≤ p.len → d.wait = none → k.wait = none → k.sendQ = [] →
      Completes (.messageArrival src dst tag) s (fun t =>
        coreRead (coreAt t.toChip dst.toNat) p.addr data.length = data ∧
        (tfind (coreAt t.toChip dst.toNat).posts tag.toNat) = some { p with arrived := some data.length } ∧
        coreAt t.toChip src.toNat = { k with inFlight := dropFirst (fun x => decide (x = (m, data))) k.inFlight } ∧
        t.mem = s.mem)) ∧
    (∀ (core : CoreId) (plan : BitVec 2) (d : Desc),
      let k := coreAt s.toChip core.toNat
      tfind k.plans plan.toNat = some [d] → d.rows = 1 → k.wait = none →
      (d.kind = 1 → Completes (.copyPlanDone core plan [] 0) s (fun t =>
        (∀ x, coreByte (coreAt t.toChip core.toNat) x =
          if d.dst ≤ x ∧ x < d.dst + d.len then memGet s.mem (d.src + (x - d.dst)) else coreByte k x) ∧
        tfind (coreAt t.toChip core.toNat).plans plan.toNat = none ∧ t.mem = s.mem)) ∧
      (d.kind = 2 → Completes (.copyPlanDone core plan [] 0) s (fun t =>
        (∀ x, memGet t.mem x = if d.dst ≤ x ∧ x < d.dst + d.len then coreByte k (d.src + (x - d.dst)) else memGet s.mem x) ∧
        tfind (coreAt t.toChip core.toNat).plans plan.toNat = none))))

/-! ### The core table and steps (R144-R168, R219-R243, R71-R83) -/

/-- Fault reports of a class were counted (R488). -/
abbrev Logged (s t : State) (cls n : Nat) : Prop :=
  (regB t.toChip cls aFLT_CLASS_CNT).toNat = min ((regB s.toChip cls aFLT_CLASS_CNT).toNat + n) 0xFFFFFFFF

/-- The reaction of a level 2 fault begins with this report: no fault before it is kept, no module fault is pending. -/
abbrev FirstFault (c : Chip) : Prop := c.flt.reports = [] ∧ c.flt.modulePending = false

/-- No partition runs a step. -/
abbrev noSteps (c : Chip) : Prop := ∀ p, (schedPart c p).step = none

/-- A test of a core was asked for, with no other waiting and fewer than 16 in test (R165, R167): a FREE, LAME or FAULTED
core is in TESTING, a BUSY one is DRAINING, the request of a DRAINING one waits, and every other core stands. -/
abbrev Asked (s t : State) (m : Nat) : Prop :=
  let k := coreAt s.toChip m
  coreAt t.toChip m = (if k.state = .free ∨ k.state = .lame ∨ k.state = .faulted then
      { k with requested := true, state := .testing, before := k.state }
    else if k.state = .busy then { k with state := .draining, requested := true, wantOff := false }
    else k) ∧
  (k.state = .draining → t.grid.tests = [m]) ∧ ∀ j, j ≠ m → coreAt t.toChip j = coreAt s.toChip j

/-- The end of a placement (R146, R163-R165): with the program halted and everything acknowledged, a BUSY core becomes
FREE, or LAME where that was due, with the latency sample in its window (the program's NOMINAL_CYCLES as divisor); a
DRAINING core goes OFF as it was asked, or to TESTING. Every other core stands. -/
def Obligations.PlacementsEnd : Prop :=
  ∀ (s : State) (core : CoreId) (cycles : Word),
    let n := core.toNat
    let k := coreAt s.toChip n
    Awake s.toChip → isUp s.toChip .grid = true → s.flt.chipPending = false → noSteps s.toChip → s.grid.tests = [] →
    k.halted = true → drained k = true →
    let ends := fun (f : List Nat → Core) (p : State → Prop) => Completes (.placementDone core cycles) s (fun t =>
      (∃ v, (∀ x, progOf s.toChip (coreLE k 0x08 2) = some x →
          v = if x.nominal = 0 then 0xFFFF else min 0xFFFF (cycles.toNat * 256 / x.nominal)) ∧
        coreAt t.toChip n = f ((k.window ++ [v]).drop (k.window.length + 1 - 1024))) ∧
      (∀ m, m ≠ n → coreAt t.toChip m = coreAt s.toChip m) ∧ p t)
    (k.state = .busy → k.lameDue = false →
      ends (fun w => { k with state := .free, halted := false, window := w }) (fun _ => True)) ∧
    (k.state = .busy → k.lameDue = true → bit (reg s.toChip aGRID_LAME_CFG) 1 = false →
      ends (fun w => { k with state := .lame, lameDue := false, halted := false, window := w }) (fun t => Event t .grid 16)) ∧
    (k.state = .draining → k.wantOff = true →
      ends (fun w => { k with state := .off, wantOff := false, lameDue := false, halted := false, window := w })
        (fun _ => True)) ∧
    (k.state = .draining → k.wantOff = false →
      ends (fun w => { k with state := .testing, before := .free, lameDue := false, halted := false, window := w })
        (fun _ => True))

/-- The core table's tests and checks (R148, R153, R164-R168, R475): a watchdog ends a placement that is not done with a
program error; LAME_EVAL marks each FREE core whose median exceeds the bound LAME and each such BUSY core as due; the
rotation asks for a test of the next core; a test's end makes the core FREE, LAME or FAULTED; a store scrub counts single
errors, a double error takes the core out, and a program store that cannot be reloaded takes it to TESTING; a lockstep
disagreement and a failed link are chip faults; ONLINE, OFFLINE and TEST follow the state table. -/
def Obligations.CoreTable : Prop :=
  ∀ (s : State) (core : CoreId),
    let n := core.toNat
    let k := coreAt s.toChip n
    let others := fun (t : State) (m : Nat) => ∀ j, j ≠ m → coreAt t.toChip j = coreAt s.toChip j
    Awake s.toChip → isUp s.toChip .grid = true → s.grid.tests = [] → testsRunning s.toChip < 16 →
    ((k.state = .busy ∨ k.state = .draining) → ProgramError (.watchdogExpiry core) s core 0x08) ∧
    (k.state ≠ .busy → k.state ≠ .draining → exec (.watchdogExpiry core) s = .next (after s s.toChip)) ∧
    (bit (reg s.toChip aGRID_LAME_CFG) 0 = false → exec .lameEval s = .next (after s s.toChip)) ∧
    (bit (reg s.toChip aGRID_LAME_CFG) 0 = true → Completes .lameEval s (fun t => ∀ m, m < 256 →
      let c := coreAt s.toChip m
      let slow := lameRatio s.toChip * gridMedian s.toChip < medianOf c.window * 256
      (c.state = .free → slow → Event t .grid 16 ∧
        (bit (reg s.toChip aGRID_LAME_CFG) 1 = false → coreAt t.toChip m = { c with state := .lame, lameDue := false }) ∧
        ((coreAt t.toChip m).state = .lame ∨ (coreAt t.toChip m).state = .testing)) ∧
      (c.state = .busy → slow → coreAt t.toChip m = { c with lameDue := true }) ∧
      ((c.state ≠ .free ∧ c.state ≠ .busy) ∨ ¬ slow → coreAt t.toChip m = c))) ∧
    (Completes .rotateTest s (fun t => Asked s t s.grid.rotateNext ∧ t.grid.rotateNext = (s.grid.rotateNext + 1) % 256 ∧
      (s.grid.rotateNext = 255 → Event t .grid 21))) ∧
    (k.state = .testing → noSteps s.toChip →
      let left := { k with store := [], fill := s.free + 1, paramFill := 0, requested := false }
      Completes (.coreTestEnd core .pass) s (fun t => others t n ∧ Event t .grid 20 ∧
        coreAt t.toChip n = { left with state := .free, stFail := false, window := [] }) ∧
      Completes (.coreTestEnd core .slow) s (fun t => others t n ∧ Event t .grid 20 ∧ Event t .grid 16 ∧
        coreAt t.toChip n = { left with state := .lame, stFail := false }) ∧
      Completes (.coreTestEnd core .fail) s (fun t => others t n ∧ Event t .grid 20 ∧ Event t .grid 17 ∧ Logged s t 0x18 1 ∧
        coreAt t.toChip n = { left with state := .faulted, stFail := true })) ∧
    (∀ m : Nat, 0 < m → Quietly (.coreStoreScrub core m false false) s s.toChip (fun t =>
      Counted s t aGRID_STORE_CE m ∧ Logged s t 0x03 m)) ∧
    (k.state = .free ∨ k.state = .lame → Completes (.coreStoreScrub core 0 true false) s (fun t => Logged s t 0x04 1 ∧
      others t n ∧ coreAt t.toChip n = { k with state := .testing, before := k.state })) ∧
    (k.state = .free ∨ k.state = .lame → Completes (.coreStoreScrub core 0 false true) s (fun t =>
      others t n ∧ coreAt t.toChip n = { k with state := .testing, before := k.state })) ∧
    (k.state = .busy ∨ k.state = .draining → FirstFault s.toChip →
      Completes (.coreStoreScrub core 0 true false) s (fun t => Logged s t 0x04 1 ∧ t.flt.chipPending = true ∧ Asked s t n) ∧
      Completes (.lockstepDisagree core) s (fun t => Logged s t 0x01 1 ∧ t.flt.chipPending = true ∧ Asked s t n)) ∧
    (FirstFault s.toChip → Quietly (.meshLinkFail core) s s.toChip (fun t => Counted s t aGRID_MESH_RETRY 16 ∧
      Event t .grid 19 ∧ Logged s t 0x05 1 ∧ t.flt.chipPending = true)) ∧
    (∀ r, Reaches s.toChip r .grid → fld (reg s.toChip aGRID_CORE_SEL) 7 0 = n →
      let moved := fun (x : Core) (t : State) => coreAt t.toChip n = x ∧ others t n
      (k.state = .off → AcceptedWith (.coreOnline r) s r (moved { k with state := .testing, before := .off })) ∧
      (k.state ≠ .off → Answered (.coreOnline r) s r 0x21 s.toChip (fun _ => True)) ∧
      ((k.state = .free ∨ k.state = .lame) → AcceptedWith (.coreOffline r) s r (moved { k with state := .off })) ∧
      (k.state = .busy → AcceptedWith (.coreOffline r) s r (moved { k with state := .draining, wantOff := true })) ∧
      ((k.state = .off ∨ k.state = .testing ∨ k.state = .faulted ∨ k.state = .draining) →
        Answered (.coreOffline r) s r 0x21 s.toChip (fun _ => True)) ∧
      ((k.state = .free ∨ k.state = .lame ∨ k.state = .faulted ∨ k.state = .busy) →
        AcceptedWith (.coreTest r) s r (fun t => Asked s t n)) ∧
      ((k.state = .off ∨ k.state = .testing ∨ k.state = .draining) →
        Answered (.coreTest r) s r 0x21 s.toChip (fun _ => True)))

/-- Steps (R219-R243): a boundary with nothing eligible forms none; with one eligible GENERATE at its first token it forms a
step of its replay row, reserves its staging space and runs its operation, unless the batch hold waits, whose expiry forms
it; the end of an engine's layer goes to its next layer; the end of its last layer ends the engine, and with no other engine
running ends the layers, and the step with its figures; a level of the draft model ends the same way; RATIO_JUDGE after 64
steps moves CHUNK_ROWS by at most one; activations and pacing release the step that waits for them. -/
def Obligations.StepsFormAndEnd : Prop :=
  ∀ (s : State) (part : Part), Awake s.toChip → s.fig.committed = [] → s.fig.waiting = [] → s.tier.revivals = [] →
    s.tier.pressing = [] →
    let p := part.toNat
    let x := schedPart s.toChip p
    let formed := fun (i : Nat) (t : State) => (∃ st, (schedPart t.toChip p).step = some st ∧
      st.engines.map (fun e => (e.kind, e.works.map (fun w => (w.idx, w.kind, w.rows)))) =
        [(.decode, [(i, .replay, 1)])]) ∧ (opsOf t.toChip i).map (·.phase) = [.running] ∧
      regB t.toChip p aSCHED_QUEUE = 1 ∧ t.fig.reserved = s.fig.reserved + 65536
    let one := fun (i : Nat) (o : Op) => s.sess.ops = [(i, [o])] ∧ o.code = 3 ∧ o.phase = .ready ∧ o.final = none ∧
      o.carried = none ∧ o.drainEnd = false ∧ (entry s.toChip i).part = p ∧ i ∈ s.sess.cached ∧
      ((entry s.toChip i).state = .ready ∨ (entry s.toChip i).state = .running) ∧
      modelValid s.toChip (entry s.toChip i).model = true ∧ s.fig.staged = 0 ∧ s.fig.reserved = 0 ∧
      listOf s.toChip (rowsOf s.toChip p) ≠ []
    (∀ late, canForm s.toChip p = true → s.sess.ops = [] → Completes (.stepBoundary part late) s (fun t =>
      (schedPart t.toChip p).step = none ∧ (schedPart t.toChip p).holding = false ∧
      regB t.toChip p aSCHED_QUEUE = 0)) ∧
    (∀ late i o, canForm s.toChip p = true → one i o → (batchHold s.toChip).2 = 0 →
      Completes (.stepBoundary part late) s (formed i)) ∧
    (∀ late i o, canForm s.toChip p = true → one i o → (batchHold s.toChip).2 ≠ 0 → 1 < (batchHold s.toChip).1 →
      Completes (.stepBoundary part late) s (fun t => (schedPart t.toChip p).holding = true ∧
        (schedPart t.toChip p).step = none)) ∧
    (∀ late i o, canForm s.toChip p = true → one i o → x.holding = true →
      Completes (.batchHoldExpiry part late) s (formed i)) ∧
    (∀ late, x.holding = false → exec (.batchHoldExpiry part late) s = .next (after s s.toChip)) ∧
    (∀ (st : Step) (e : Engine) (k : EngineKind) (res : LayerResult), x.step = some st → st.phase = .layers →
      st.engines.find? (fun y => decide (y.kind = k) && !y.ended) = some e → st.waitPeer = false → st.paced = false →
      s.flt.chipPending = false → layerDone s.toChip e = true →
      let becomes := fun (e' : Engine) => some { st with engines := st.engines.map (fun y => if y.kind = k then e' else y) }
      let alone := ∀ y ∈ st.engines, y.kind = k ∨ y.ended = true
      (e.layer + 1 < e.layers → Completes (.layerEnd part k res) s (fun t => ∃ e', (schedPart t.toChip p).step = becomes e' ∧
        e'.layer = e.layer + 1 ∧ e'.ended = false ∧ e'.works.map (·.idx) = e.works.map (·.idx))) ∧
      (e.layers ≤ e.layer + 1 → ¬ alone → Completes (.layerEnd part k res) s (fun t => ∃ e',
        (schedPart t.toChip p).step = becomes e' ∧ e'.ended = true ∧ e'.works.map (·.idx) = e.works.map (·.idx))) ∧
      (e.layers ≤ e.layer + 1 → alone → Completes (.layerEnd part k res) s (fun t =>
        (schedPart t.toChip p).step = none ∨ ∃ st', (schedPart t.toChip p).step = some st' ∧ st'.phase ≠ .layers ∧
          ∀ y ∈ st'.engines, y.works = [])) ∧
      (e.layers ≤ e.layer + 1 → alone → s.sess.ops = [] → ringSplit s.toChip = false →
        Completes (.layerEnd part k res) s (fun t => (schedPart t.toChip p).step = none ∧
          pairB t.toChip p aSCHED_STEP_CNT_LO = (pairB s.toChip p aSCHED_STEP_CNT_LO + 1) % 2 ^ 64))) ∧
    (∀ (st : Step) (level : Nat) (cores : List Nat) (res : LayerResult), x.step = some st → st.phase = .draft level cores →
      s.flt.chipPending = false → coresDone s.toChip .decode cores = true →
      Completes (.layerEnd part .decode res) s (fun t => (schedPart t.toChip p).step = none ∨
        ∃ st', (schedPart t.toChip p).step = some st' ∧ (st'.phase = .sending ∨ ∃ l, st'.phase = .draft (level + 1) l))) ∧
    (∀ k res, (x.step = none ∨ ∃ st, x.step = some st ∧ (st.phase = .figures ∨ st.phase = .sending)) →
      exec (.layerEnd part k res) s = .next (after s s.toChip)) ∧
    (64 ≤ x.window → isUp s.toChip .sched = true →
      let w := regB s.toChip p aSCHED_RATIO_CFG
      let h := max 1 (fld w 19 16)
      let cur := x.chunkNext.getD x.chunkRows
      let want := if x.dLast + h ≤ x.cLast then cur + 1 else if x.cLast + h ≤ x.dLast then cur - 1 else cur
      let moves := bit w 31 && decide (boundRows s.toChip p want ≠ cur)
      let next := if moves then some (boundRows s.toChip p want) else x.chunkNext
      Completes (.ratioJudge part) s (fun t => (moves = true → Event t .sched 17) ∧
        schedPart t.toChip p = { x with window := 0, cLast := 0, dLast := 0, chunkNext := next })) ∧
    (x.window < 64 → exec (.ratioJudge part) s = .next (after s s.toChip)) ∧
    (∀ (st : Step) (waited compute : Word), x.step = some st → st.waitPeer = true →
      Completes (.activationsArrived part waited compute) s (fun t => reg t.toChip aSCHED_PEER_WAIT = waited ∧
        (compute.toNat < waited.toNat → Event t .sched 20) ∧ ∃ st', (schedPart t.toChip p).step = some st' ∧
          st'.waitPeer = false ∧ st'.engines.map (·.works) = st.engines.map (·.works))) ∧
    (∀ st : Step, x.step = some st → st.paced = true → s.flt.chipPending = false →
      Completes (.pacingRelease part) s (fun t => ∃ st', (schedPart t.toChip p).step = some st' ∧ st'.paced = false ∧
        st'.engines.map (·.works) = st.engines.map (·.works)))

/-- Figures and the chip fault (R71-R77, R82, R236): FIGURE_APPLY applies the oldest committed figure, writes the markers
of the sessions it names and releases its log and staging space; a waiting figure that can open commits with the next
FIG_SEQ, and a wait for space alone is counted once; CHIP_FAULT with nothing open ends the fault, stops forming, frees the
BUSY cores and records the recovery; SCHED_RESUME lets steps form again. -/
def Obligations.FiguresApplyAndRecover : Prop :=
  ∀ s : State, Awake s.toChip →
    (s.fig.committed = [] → exec .figureApply s = .next (after s s.toChip)) ∧
    (∀ k r, s.fig.committed = k :: r → Completes .figureApply s (fun t => t.fig.committed = r ∧ t.fig.applied = k.seq ∧
      t.fig.seq = s.fig.seq ∧ t.fig.waiting = s.fig.waiting ∧ t.fig.logUsed = s.fig.logUsed - k.units ∧
      t.fig.logTail = (s.fig.logTail + k.units) % 32768 ∧ t.fig.staged = s.fig.staged - k.fig.staged ∧
      ∀ i, Subject.session i ∈ k.fig.subjects → (entry t.toChip i).figSeq = k.seq)) ∧
    (∀ f, s.fig.waiting = [f] → s.sess.ops = [] → s.tier.revivals = [] → s.tier.pressing = [] →
      (canOpen s.toChip f = true → Completes .figStallRelease s (fun t => t.fig.waiting = [] ∧
        t.fig.seq = s.fig.seq + 1 ∧ (∃ k, t.fig.committed = s.fig.committed ++ [k] ∧ k.seq = s.fig.seq + 1 ∧ k.fig = f ∧
          k.units = figUnits f) ∧
        t.fig.logUsed = s.fig.logUsed + figUnits f ∧ t.fig.staged = s.fig.staged + f.staged)) ∧
      (figOpens s.toChip = false ∨ (figRoom s.toChip f = false ∧ f.stalled = true) →
        exec .figStallRelease s = .next (after s s.toChip)) ∧
      (figOpens s.toChip = true → figRoom s.toChip f = false → f.stalled = false → Completes .figStallRelease s (fun t =>
        t.fig = { s.fig with waiting := [{ f with stalled := true }] } ∧ Counted s t aFIG_STALL_CNT 1))) ∧
    (∀ l u time, s.flt.chipPending = false → exec (.chipFault l u time) s = .next (after s s.toChip)) ∧
    (∀ l u time, s.flt.chipPending = true → FigIdle s.toChip → noSteps s.toChip → s.srch.queries = [] →
      s.srch.deletes = [] → s.srch.olds = [] → s.srch.loads = [] → s.sec.attest = [] → s.grid.tests = [] →
      (∀ n, (coreAt s.toChip n).lameDue = false) → Completes (.chipFault l u time) s (fun t => t.flt.chipPending = false ∧
        t.sched.stopped = true ∧ reg t.toChip aFIG_REPLAY = 0 ∧ (reg t.toChip aFIG_REPLAY_TIME).toNat = time.toNat ∧
        Event t .fig 16 ∧ reg t.toChip aFIG_ABORT_CNT = reg s.toChip aFIG_ABORT_CNT ∧ t.fig.seq = s.fig.seq ∧
        ∀ n, (coreAt s.toChip n).state = .busy → (coreAt t.toChip n).state = .free)) ∧
    (s.sched.stopped = true → s.flt.chipPending = false → FigIdle s.toChip →
      Quietly .schedResume s { s.toChip with sched := { s.sched with stopped := false } } (fun t => Event t .sched 19)) ∧
    (s.sched.stopped = false → exec .schedResume s = .next (after s s.toChip))

/-! ### TIER, GDR and FLASH (R99-R139) -/

/-- The write that a placement adds (R123): the first free write id, the object and its use. -/
abbrev WriteQueued (s t : State) (obj : FObj) (use : FUse) : Prop :=
  ∃ w, t.flash.writes = s.flash.writes ++ [w] ∧ w.id = s.flash.nextWrite ∧ w.obj = obj ∧ w.use = use ∧
    t.flash.nextWrite = s.flash.nextWrite + 1

/-- The object that a flush writes for a block (R101, R122). -/
abbrev blockObj (c : Chip) (k : Nat) : FObj :=
  { len := (blockBytes c k).length, kind := 1, owner := blockOwner (blockBytes c k), seq := rdLE (blockBytes c k) 0x18 8,
    data := blockBytes c k }

/-- The object that an eviction writes for a session (R103, R104). -/
abbrev imageObj (c : Chip) (i : Nat) : FObj :=
  { len := (coldImage c i).length, kind := 2, owner := w64 (handleOf c i).toNat, seq := c.fig.seq, data := coldImage c i }

/-- Revivals (R55, R100, R107, R108, R129): the last read within the deadline commits READY and completes the RESUME; past it
the operation ends with TIER_LATE and a session whose reads were not issued stays; a read's data makes the block MIRRORED; a
failed read leaves it DAMAGED, is counted and reported.

Flushes and evictions (R101-R104): a flush writes the RESIDENT block of a SITOUT session to flash; an eviction, for
pressure or for age, writes the session's image and waits for it; with every block MIRRORED and the image durable, its
commit makes the session COLD, its tails, small state and exclusion table released. (That SMALL_STATE and EXCL_TABLE read 0
then is the model's own reading, log entry 103.) -/
def Obligations.TierOperations : Prop :=
  (∀ (s : State) (h : Word) (elapsed : Word) (image : ReadResult) (i : Nat) (r : Revival) (o : Op), Awake s.toChip →
    isUp s.toChip .tier = true → isUp s.toChip .fig = true → s.flt.chipPending = false → s.fig.committed = [] →
    s.fig.waiting = [] → s.fig.logUsed = 0 → s.fig.staged = 0 → s.tier.pressing = [] →
    (sessionAt s.toChip h = some i → s.tier.revivals = [r] → r.idx = i → r.late = false → s.sess.ops = [(i, [o])] →
      r.waitBlocks = [] →
      (elapsed.toNat ≤ r.deadline → r.reading = true → r.cold = false → o.code = 5 →
        (entry s.toChip i).state = .sitout → Completes (.revivalDone h elapsed image) s (fun t =>
          (entry t.toChip i).state = .ready ∧ (entry t.toChip i).figSeq = s.fig.seq + 1 ∧ t.fig.seq = s.fig.seq + 1 ∧
          (∀ j, j ≠ i → entry t.toChip j = entry s.toChip j) ∧ t.tier.revivals = [] ∧ t.sess.ops = [] ∧
          Spoke s t o.conn 1)) ∧
      (r.deadline < elapsed.toNat → r.reading = false → o.held = [] → Completes (.revivalDone h elapsed image) s (fun t =>
        t.sess.entries = s.sess.entries ∧ t.fig.seq = s.fig.seq ∧ t.tier.revivals = [] ∧ t.sess.ops = [] ∧
        Counted s t aTIER_LATE_CNT 1 ∧ Event t .tier 18 ∧ Spoke s t o.conn 1))) ∧
    (∀ (k : Word) (obj : FObj), s.tier.revivals = [] → s.sess.ops = [] →
      let e := ledger s.toChip k.toNat
      e.state = .reading → flashObj s.toChip (e.flash.getD 0) = some obj →
      (∀ res, res ≠ .uncorrectable → blockOk obj.data = true → Completes (.blockReadDone k res) s (fun t =>
        (ledger t.toChip k.toNat).state = .mirrored ∧ (ledger t.toChip k.toNat).flash = e.flash ∧
        (ledger t.toChip k.toNat).gddr = e.gddr ∧ Counted s t aFLASH_RETRY_CNT (if res = .retried then 1 else 0) ∧
        pair t.toChip aTIER_REVIVE_BYTES_LO = (pair s.toChip aTIER_REVIVE_BYTES_LO + e.size) % 2 ^ 64)) ∧
      Completes (.blockReadDone k .uncorrectable) s (fun t => (ledger t.toChip k.toNat).state = .damaged ∧
        (ledger t.toChip k.toNat).gddr = none ∧ Counted s t aFLASH_UNCORR_CNT 1 ∧ Event t .flash 17 ∧ Logged s t 0x0C 1))) ∧
  (∀ (s : State) (h : Word) (i : Nat) (part : Part), Awake s.toChip → isOn s.toChip .tier = true → FigIdle s.toChip →
    let e := entry s.toChip i
    let begun := fun (t : State) => WriteQueued s t (imageObj s.toChip i) (.image i) ∧
      (body t.toChip i).evict = some (some s.flash.nextWrite, none) ∧ entry t.toChip i = e
    (∀ k, sessionAt s.toChip h = some i → e.state = .sitout → reg s.toChip aTIER_FLUSH_AGE ≠ 0 →
      blockList s.toChip i = [k] → (ledger s.toChip k).state = .resident → flushing s.toChip k = false →
      hdrOk (blockBytes s.toChip k) = true →
      (flashWrite s.toChip e.part (blockObj s.toChip k) (.block k)).1 = 0 → Completes (.ageFlush h) s (fun t =>
        WriteQueued s t (blockObj s.toChip k) (.block k) ∧ ledger t.toChip k = ledger s.toChip k ∧
        t.sess.entries = s.sess.entries)) ∧
    (sessionAt s.toChip h = some i → reg s.toChip aTIER_COLD_AGE ≠ 0 → i ∈ evictable s.toChip e.part →
      blockList s.toChip i = [] → (flashWrite s.toChip e.part (imageObj s.toChip i) (.image i)).1 = 0 →
      Completes (.coldAgeEvict h) s begun) ∧
    (heapFree s.toChip part.toNat < pressureLow s.toChip →
      heapFree s.toChip part.toNat + evictingGain s.toChip part.toNat < pressureHigh s.toChip →
      evictOrder s.toChip part.toNat = [i] →
      blockList s.toChip i = [] → (flashWrite s.toChip e.part (imageObj s.toChip i) (.image i)).1 = 0 →
      Completes (.pressureEvict part) s begun) ∧
    (pressureLow s.toChip ≤ heapFree s.toChip part.toNat → exec (.pressureEvict part) s = .next (after s s.toChip)) ∧
    (∀ a, sessionAt s.toChip h = some i → e.state = .sitout → isUp s.toChip .fig = true → s.flt.chipPending = false →
      (body s.toChip i).evict = some (none, some a) → allMirrored s.toChip i = true →
      Completes (.evictionCommit h) s (fun t => let f := entry t.toChip i
        f.state = .cold ∧ f.tailBase = 0 ∧ f.smallState = 0 ∧ f.exclTable = 0 ∧ f.length = e.length ∧
        (body t.toChip i).image = some a ∧ (body t.toChip i).evict = none ∧ (body t.toChip i).claims = [] ∧
        t.fig.seq = s.fig.seq + 1)))

/-- GDR (R111-R113, R118): the patrol counts a corrected burst and reports it, counts an uncorrectable one outside every
structure of R112 with its address and event, counts the retries of a CRC failure whether they end it or not, and ends a
pass with SCRUB_PASSES and its event; a retraining that fails takes the channel out, with a module fault pending. -/
def Obligations.PatrolAndRetraining : Prop :=
  ∀ (s : State) (addr : BitVec 38) (ch : BitVec 5), Awake s.toChip → isUp s.toChip .gdr = true → FigIdle s.toChip →
    let ends := fun (p : Bool) (t : State) => Counted s t aGDR_SCRUB_PASSES (if p then 1 else 0) ∧ (p = true → Event t .gdr 18)
    (∀ p, Quietly (.patrolScrub addr .clean p) s s.toChip (ends p)) ∧
    (∀ p, Quietly (.patrolScrub addr .corrected p) s s.toChip (fun t => ends p t ∧ Counted s t aGDR_CE_CNT 1 ∧
      Logged s t 0x08 1)) ∧
    (∀ p n, Quietly (.patrolScrub addr (.retried n) p) s s.toChip (fun t => ends p t ∧
      Counted s t aGDR_RETRY_CNT (n.toNat + 1) ∧ Logged s t 0x08 1)) ∧
    (∀ p, placeOf s.toChip addr.toNat = .other → Quietly (.patrolScrub addr .uncorrectable p) s s.toChip (fun t =>
      ends p t ∧ Counted s t aGDR_UE_CNT 1 ∧ pair t.toChip aGDR_UE_ADDR_LO = addr.toNat ∧ Event t .gdr 16 ∧
      Logged s t 0x08 1)) ∧
    (∀ p, placeOf s.toChip addr.toNat = .other → Quietly (.patrolScrub addr .retryOut p) s s.toChip (fun t =>
      ends p t ∧ Counted s t aGDR_RETRY_CNT 4 ∧ Counted s t aGDR_UE_CNT 1 ∧ Event t .gdr 19 ∧ Event t .gdr 16 ∧
      Logged s t 0x08 1)) ∧
    (bit (reg s.toChip aGDR_RETRAIN) 0 = true → FirstFault s.toChip → Quietly (.retrainWindow ch false) s s.toChip
      (fun t => bit (reg t.toChip aGDR_CH_READY) ch.toNat = false ∧ bit (reg t.toChip aGDR_CH_FAULT) ch.toNat = true ∧
        Event t .gdr 17 ∧ Logged s t 0x09 1 ∧ t.flt.modulePending = true)) ∧
    exec (.retrainWindow ch true) s = .next (after s s.toChip)

/-- FLASH's commands (R122-R134): a durable write becomes an object that its owner takes; a program failure retires the
write head it hit, or closes it while live objects stand in it, retires a copy's target, or breaks a copy of the journal; a
copy's end serves the LEXT from the copy and erases or retires the source; an erase returns the extent to the spares or
retires it; wear levelling, compaction and the read-scan start copies; a die that does not answer is reset, and lost when
the reset fails.

FLASH at power-up (R132): the map serves reads from MAP_REBUILT on; once the summaries are scanned the frees that waited
are made, and an enabled FLASH goes ON. -/
def Obligations.FlashOperations : Prop :=
  (∀ s : State, Awake s.toChip → isOn s.toChip .flash = true → FigIdle s.toChip →
    (∀ w k, s.flash.writes.find? (fun x => x.id = w.id) = some w → w.use = .block k →
      (ledger s.toChip k).state = .resident → blockBytes s.toChip k = w.obj.data →
      Completes (.objectDurable w.id) s (fun t => flashObj t.toChip w.addr = some w.obj ∧
        t.flash.writes = s.flash.writes.filter (fun x => x.id ≠ w.id) ∧
        ledger t.toChip k = { ledger s.toChip k with state := .mirrored, flash := some w.addr } ∧
        pair t.toChip aFLASH_OWNER_BYTES_LO = (pair s.toChip aFLASH_OWNER_BYTES_LO + w.obj.len) % 2 ^ 64)) ∧
    (∀ (die : Die), die.toNat < diesOf s.variant → die.toNat ∉ s.flash.lostDies →
      let failed := fun (t : State) => Counted s t aFLASH_PROGFAIL_CNT 1 ∧ Logged s t 0x0F 1
      (∀ (e l : Nat), tfind s.flash.heads die.toNat = some e → s.flash.writes = [] → (extent s.toChip e).lext = some l →
        (liveBytes s.toChip l = 0 → Completes (.programFail die .head) s (fun t => (extent t.toChip e).state = .retired ∧
          tfind t.flash.heads die.toNat ≠ some e ∧ failed t ∧ Counted s t aFLASH_RETIRED_CNT 1 ∧ Event t .flash 18)) ∧
        (liveBytes s.toChip l ≠ 0 → Completes (.programFail die .head) s (fun t => (extent t.toChip e).state = .closed ∧
          (extent t.toChip e).failed = true ∧ (extent t.toChip e).lext = some l ∧
          tfind t.flash.heads die.toNat ≠ some e ∧ failed t))) ∧
      (∀ (x : BitVec 17) (e : Nat), dieOf x.toNat = die.toNat → (extent s.toChip x.toNat).state = .open →
        (extent s.toChip x.toNat).copyTo = some e → Completes (.programFail die (.copy x)) s (fun t =>
          (extent t.toChip x.toNat).state = .retired ∧ failed t ∧ Counted s t aFLASH_RETIRED_CNT 1 ∧ Event t .flash 18)) ∧
      Completes (.programFail die .journal) s (fun t => t.flash.journalBroken = true ∧ failed t ∧ Event t .flash 23)) ∧
    (∀ (ext : BitVec 17) (c l : Nat), (extent s.toChip ext.toNat).state = .closed →
      (extent s.toChip ext.toNat).copyTo = some c → c ≠ ext.toNat → (extent s.toChip ext.toNat).lext = some l →
      liveBytes s.toChip l ≠ 0 → (extent s.toChip c).failed = false → (extent s.toChip c).copyDue = false →
      Completes (.extentCopyDone ext) s (fun t => (extent t.toChip c).state = .closed ∧
        (extent t.toChip c).copyTo = none ∧ (extent t.toChip c).lext = (extent s.toChip c).lext ∧
        (extent t.toChip ext.toNat).lext = none ∧
        (extent t.toChip ext.toNat).state = (if (extent s.toChip ext.toNat).failed then .retired else .erasing))) ∧
    (∀ ext : BitVec 17, (extent s.toChip ext.toNat).state = .erasing →
      Completes (.extentEraseDone ext true) s (fun t =>
        (extent t.toChip ext.toNat).erases = (extent s.toChip ext.toNat).erases + 1 ∧
        ((extent t.toChip ext.toNat).state = .spare ∨ (extent t.toChip ext.toNat).state = .open)) ∧
      Completes (.extentEraseDone ext false) s (fun t => (extent t.toChip ext.toNat).state = .retired ∧
        Counted s t aFLASH_RETIRED_CNT 1 ∧ Event t .flash 18)) ∧
    (∀ e d, (sortBy (fun x => (extent s.toChip x).erases) (quietClosed s.toChip)).head? = some e →
      (extent s.toChip e).erases + 200 < maxErases s.toChip →
      (sortBy (fun x => maxErases s.toChip - (extent s.toChip x).erases) (spareList s.toChip e)).head? = some d → e ≠ d →
      Completes .wearLevel s (fun t => (extent t.toChip e).copyTo = some d ∧ (extent t.toChip d).copyTo = some e ∧
        (extent t.toChip d).state = .open ∧ (extent t.toChip d).lext = (extent s.toChip e).lext ∧
        (extent t.toChip d).fill = (extent s.toChip e).fill)) ∧
    (∀ e l o, freeLexts s.toChip < fld (reg s.toChip aFLASH_COMPACT) 31 16 → quietClosed s.toChip = [e] →
      relocating s.toChip e = false → extLive s.toChip e * 100 < livePct s.toChip * extentBytes →
      (extent s.toChip e).lext = some l → objectsIn s.toChip l = [o] →
      (let c1 := (takeFree s.toChip).2
       (placeWrite c1 (dieOrder c1 (partOfDie c1 (dieOf e)) (takeFree s.toChip).1) o.2 (.relocate o.1)).isSome = true) →
      Completes .compactionStart s (fun t => WriteQueued s t o.2 (.relocate o.1) ∧ t.flash.objects = s.flash.objects)) ∧
    (∀ die : Die, die.toNat < diesOf s.variant → die.toNat ∉ s.flash.lostDies → die.toNat ∉ s.flash.resetDies →
      let reset := after s { s.toChip with flash := { s.flash with resetDies := s.flash.resetDies ++ [die.toNat] } }
      exec (.dieCommandTimeout die) s = .next reset ∧ exec (.diePoll die false) s = .next reset) ∧
    (∀ die : Die, exec (.diePoll die true) s = .next (after s { s.toChip with
      flash := { s.flash with resetDies := s.flash.resetDies.filter (fun d => d ≠ die.toNat) } })) ∧
    (∀ die : Die, die.toNat ∈ s.flash.resetDies → s.flash.writes = [] → s.flash.objects = [] →
      Completes (.dieLost die) s (fun t => t.flash.lostDies = s.flash.lostDies ++ [die.toNat] ∧
        die.toNat ∉ t.flash.resetDies ∧ (∀ x ∈ extentsOf die.toNat, (extent t.toChip x).state = .retired) ∧
        bit (reg t.toChip (if die.toNat < 32 then aFLASH_DIE_LOST_LO else aFLASH_DIE_LOST_HI)) (die.toNat % 32) = true ∧
        t.tier.sweeping = true ∧ Event t .flash 16 ∧ Logged s t 0x0E 1)) ∧
    (∀ (ext : BitVec 17) (l : Nat) (p : Bool), (extent s.toChip ext.toNat).state = .closed →
      (extent s.toChip ext.toNat).lext = some l → (extent s.toChip ext.toNat).reads < 500000 →
      (extent s.toChip ext.toNat).copyTo = none →
      let counted := fun (t : State) => bit (reg t.toChip aFLASH_STATUS) 1 = !p ∧ (p = true → Event t .flash 22) ∧
        fld (reg t.toChip aFLASH_SCAN_PROGRESS) 16 0 =
          ((if bit (reg s.toChip aFLASH_STATUS) 1 then fld (reg s.toChip aFLASH_SCAN_PROGRESS) 16 0 else 0) + 1) % 2 ^ 17
      Quietly (.readScan ext .clean p) s s.toChip counted ∧
      (spareList s.toChip ext.toNat ≠ [] → Completes (.readScan ext .weak p) s (fun t => counted t ∧ Logged s t 0x0D 1 ∧
        Counted s t aFLASH_RETRY_CNT 1 ∧ ∃ d ∈ spareList s.toChip ext.toNat, (extent t.toChip ext.toNat).copyTo = some d)) ∧
      (∀ offs weak, objectsIn s.toChip l = [] → Completes (.readScan ext (.uncorrectable offs weak) p) s (fun t =>
        counted t ∧ Logged s t 0x0D 1 ∧ Counted s t aFLASH_UNCORR_CNT (offs.map (· / 4096)).dedup.length ∧
        Counted s t aFLASH_RETRY_CNT (if weak then 1 else 0) ∧ Event t .flash 17)))) ∧
  (∀ s : State, Awake s.toChip →
    (s.flash.mapReady = false → s.tier.revivals = [] →
      exec .mapRebuilt s = .next (after s { s.toChip with flash := { s.flash with mapReady := true } })) ∧
    (s.flash.mapReady = true → s.flash.scanned = false → Completes .summaryScanDone s (fun t => t.flash.scanned = true ∧
      t.flash.heldFrees = s.flash.heldFrees.filter (fun x => x.2 ≠ 0) ∧
      (∀ x ∈ s.flash.heldFrees, x.2 = 0 → flashObj t.toChip x.1 = none) ∧
      ((hdr s.toChip .flash).enable = true → bstate s.toChip .flash = .off → bstate t.toChip .flash = .on ∧ Event t .flash 0) ∧
      ((hdr s.toChip .flash).enable = false → bstate t.toChip .flash = bstate s.toChip .flash))) ∧
    (s.flash.mapReady = false ∨ s.flash.scanned = true → exec .summaryScanDone s = .next (after s s.toChip)))

/-! ### XPT (R311-R342) -/

/-- Registrations (R326, R327, R331, R333, R336): a REGISTER that no rule refuses takes the head of the free list and a
range of the heap, which are zeroed; REGISTER_ZERO_DONE zeroes exactly those bytes and commits ACTIVE, and the record
follows; REVOKE commits DRAINING; with nothing in flight REVOKE_DRAINED commits FREE at the next generation; a read that
is done leaves INFLIGHT. (The place in the heap is the model's free value, log entry 12.) -/
def Obligations.RegistrationsRunTheirCourse : Prop :=
  ∀ (s : State) (n : Conn) (tag : DWord), Awake s.toChip → FigIdle s.toChip →
    (∀ (req : RegReq) (p i a : Nat) (c : Chip), partOfConn s.toChip n.toNat = some p →
      registerRefusal s.toChip p req = 0 → freeRegion s.toChip = some i →
      heapServes s.toChip p = true → heapAlloc s.toChip p req.length.toNat = some (a, c) → Completes (.register n tag req) s (fun t =>
        region t.toChip i = { region s.toChip i with
          part := p, base := a, len := req.length.toNat, write := req.access.getLsbD 0, read := req.access.getLsbD 1,
          conn := req.conn.toNat, notify := req.notify.toNat, inflight := 0, landing := false, zeroing := true,
          violated := false, replyConn := n.toNat, replyTag := tag } ∧
        (∀ j, j ≠ i → region t.toChip j = region s.toChip j) ∧
        t.tier.heap = s.tier.heap ++ [(a, req.length.toNat, p)] ∧ t.mem = s.mem)) ∧
    (∀ (req : RegReq) (p : Nat), partOfConn s.toChip n.toNat = some p → registerRefusal s.toChip p req ≠ 0 →
      Quietly (.register n tag req) s s.toChip (fun t => Spoke s t n.toNat 1)) ∧
    (∀ i : BitVec 16, isUp s.toChip .fig = true → s.flt.chipPending = false →
      let r := region s.toChip i.toNat
      r.zeroing = true → r.landing = false → Completes (.registerZeroDone i) s (fun t =>
        region t.toChip i.toNat = { r with state := .active, zeroing := false } ∧
        (∀ a, memGet t.mem a = if r.base ≤ a ∧ a < r.base + r.len then 0 else memGet s.mem a) ∧
        t.fig.seq = s.fig.seq + 1 ∧ Spoke s t r.replyConn 1)) ∧
    (∀ w : Word, isOn s.toChip .fig = true → s.flt.chipPending = false →
      let i := w.toNat / 256
      let r := region s.toChip i
      i < 65536 → r.state = .active → r.gen = w.toNat % 256 → partOfConn s.toChip n.toNat = some r.part →
      indexHolds s.toChip w = false → Completes (.revoke n tag w) s (fun t =>
        region t.toChip i = { r with state := .draining, zeroing := false, replyConn := n.toNat, replyTag := tag } ∧
        t.fig.seq = s.fig.seq + 1 ∧ t.mem = s.mem)) ∧
    (∀ w : Word, (region s.toChip (w.toNat / 256)).state ≠ .active →
      Quietly (.revoke n tag w) s s.toChip (fun t => Spoke s t n.toNat 1)) ∧
    (∀ i : BitVec 16, isUp s.toChip .fig = true → s.flt.chipPending = false →
      let r := region s.toChip i.toNat
      r.state = .draining → r.inflight = 0 → r.landing = false → r.replyConn < 16384 →
      Completes (.revokeDrained i) s (fun t =>
        region t.toChip i.toNat = { regionReset with gen := if 255 ≤ r.gen then 1 else r.gen + 1 } ∧
        t.xpt.freedRegions = s.xpt.freedRegions ++ [i.toNat] ∧ t.fig.seq = s.fig.seq + 1 ∧ Spoke s t r.replyConn 1)) ∧
    (∀ (seq : Word) (a : RemAcc) (rest : List RemAcc), s.xpt.accs = a :: rest → a.conn = n.toNat → a.seq = seq →
      a.isRead = true → Completes (.readFullyRead n seq) s (fun t => t.xpt.accs = rest ∧
        region t.toChip a.region = { region s.toChip a.region with inflight := (region s.toChip a.region).inflight - 1 } ∧
        t.mem = s.mem))

/-- Packets in order on an open connection (R313, R318, R319, R329-R332, R335): an allowed WRITE and READ_REQ are
accepted, count in INFLIGHT of their registration, and the read's data is sent in packets of 4,096 B; a READ_RESP is placed;
a segment that is a whole message makes it ready, and its delivery has the effect of the request it carries; WRITE_PLACED
writes the bytes. CUM advances by one. -/
def Obligations.PacketsTakeEffect : Prop :=
  ∀ (s : State) (l : Link) (p : Pkt) (n : Nat), Awake s.toChip → s.fig.committed = [] →
    let k := conn s.toChip n
    let i := p.tag.toNat / 256
    let took := fun (t : State) => (conn t.toChip n).rxCum = k.rxCum + 1 ∧
      pair t.toChip aXPT_RX_PKT_LO = (pair s.toChip aXPT_RX_PKT_LO + 1) % 2 ^ 64
    let a := (region s.toChip i).base + p.offset.toNat
    let acc := fun (rd : Bool) =>
      ({ conn := n, seq := p.seq, region := i, isRead := rd, addr := a, data := p.payload, req := p } : RemAcc)
    let flies := fun (rd : Bool) (t : State) => t.xpt.accs = s.xpt.accs ++ [acc rd] ∧ t.mem = s.mem ∧
      (region t.toChip i).inflight = (region s.toChip i).inflight + 1
    (Arrives s.toChip l p n → k.spray = false → k.segs = [] → p.seq ∉ k.rxPend →
      (p.typ = 1 → drainRefuses s.toChip n p = false →
        accessCheck s.toChip n p.tag p.offset.toNat p.payload.length true = 0 →
        Completes (.vstWrite l p) s (fun t => took t ∧ flies false t)) ∧
      (p.typ = 2 → drainRefuses s.toChip n p = false → 0 < p.length.toNat → p.length.toNat ≤ 16777216 →
        accessCheck s.toChip n p.tag p.offset.toNat p.length.toNat false = 0 →
        Completes (.vstReadReq l p) s (fun t => took t ∧ flies true t ∧ Queued s t n ((p.length.toNat + 4095) / 4096))) ∧
      (p.typ = 3 → accessCheck s.toChip n p.tag p.offset.toNat p.payload.length true = 0 → s.xpt.accs = [] →
        ckptHeld s.toChip ((region s.toChip i).base + p.offset.toNat) p.payload.length = false →
        Completes (.vstReadResp l p) s (fun t => took t ∧ t.xpt.accs = [] ∧ region t.toChip i = region s.toChip i ∧
          t.mem = memWrite s.mem ((region s.toChip i).base + p.offset.toNat) p.payload)) ∧
      (p.typ = 4 → p.cls.toNat ∈ [1, 3, 4, 5] → pFirst p = true → pLast p = true → k.part = [] →
        p.payload.length = msgTotal p → Completes (.vstMsg l p) s (fun t => took t ∧
          (conn t.toChip n).ready = k.ready ++ [[p]] ∧ (conn t.toChip n).part = []))) ∧
    (∀ (m : Conn) (seq : Word) (a : RemAcc) (rest : List RemAcc), s.xpt.accs = a :: rest → a.conn = m.toNat →
      a.seq = seq → a.isRead = false → ckptHeld s.toChip a.addr a.data.length = false →
      Completes (.writePlaced m seq) s (fun t => t.mem = memWrite s.mem a.addr a.data ∧ t.xpt.accs = rest ∧
        (region t.toChip a.region).inflight = (region s.toChip a.region).inflight - 1 ∧
        seq ∉ (conn t.toChip m.toNat).rxPend)) ∧
    (∀ (m : Conn) (id : Word) (q : Pkt) (rest : List (List Pkt)), xptCarries s.toChip m.toNat = true →
      (conn s.toChip m.toNat).ready = [q] :: rest → q.msgId = id →
      ((conn s.toChip m.toNat).rxPend.any (fun x => seqBefore x q.seq)) = false →
      let u := { s with toChip := setConn s.toChip m.toNat { conn s.toChip m.toNat with
        ready := rest, rxPend := (conn s.toChip m.toNat).rxPend.filter (fun x => x ∉ [q.seq]) } }
      let h := w32 (rdLE q.payload 4 4)
      let tag := w64 (rdLE q.payload 8 8)
      (q.cls = 1 → q.payload.length < 16 → exec (.messageDeliver m id) s = .next (after s u.toChip)) ∧
      (q.payload.length = 16 → rdLE q.payload 2 2 = 0 →
        (q.cls = 1 → rdLE q.payload 0 1 = 4 → exec (.messageDeliver m id) s = exec (.park m tag h) u) ∧
        (q.cls = 1 → rdLE q.payload 0 1 = 8 → exec (.messageDeliver m id) s = exec (.endSession m tag h) u) ∧
        (q.cls = 1 → rdLE q.payload 0 1 = 10 → exec (.messageDeliver m id) s = exec (.query m tag h) u) ∧
        (q.cls = 3 → rdLE q.payload 0 1 = 2 → exec (.messageDeliver m id) s = exec (.revoke m tag h) u)))

/-- Acknowledgement and retransmission (R318-R321, R324, R330): an ACK closes the numbers below CUM_SEQ and, with CE, lowers
the rate; a NAK closes its packet; a packet whose timer expires is sent again and counted, and at RETRY.LIMIT the
connection fails; the delay timer sends the owed ACK; a tick raises the rate within its ceiling. -/
def Obligations.AcksAndTimers : Prop :=
  ∀ (s : State) (l : Link) (p : Pkt) (m : Conn), Awake s.toChip →
    let n := m.toNat
    let k := conn s.toChip n
    (∀ x : TxPkt, isUp s.toChip .xpt = true → onlyMgmt s.toChip l = false → pktValid p = true → n = p.dst.toNat % 2 ^ 14 → p.nonce = k.myNonce →
      k.state = .open → k.txOpen = [x] → k.txWait = [] → k.nakd = [] → x.use = .plain →
      (p.typ = 5 → p.payload = [] → seqBefore x.pkt.seq p.cumSeq = true →
        (p.ce = 0 → Completes (.vstAck l p) s (fun t => conn t.toChip n = { k with txOpen := [] } ∧
          pair t.toChip aXPT_RX_PKT_LO = (pair s.toChip aXPT_RX_PKT_LO + 1) % 2 ^ 64)) ∧
        (p.ce ≠ 0 → k.slowed = false → Completes (.vstAck l p) s (fun t => conn t.toChip n = { k with
          txOpen := [], slowed := true
          rate := max (rateFloor s.toChip) (rateNow s.toChip n * max 1 (fld (reg s.toChip aXPT_RATE_CFG) 31 24) / 256) }))) ∧
      (p.typ = 6 → x.pkt.seq = p.nakSeq → Completes (.vstNak l p) s (fun t =>
        conn t.toChip n = { k with txOpen := [] }))) ∧
    (∀ (x : TxPkt), xptCarries s.toChip n = true → k.state = .open → k.mgmt = false → k.txOpen = [x] → k.txWait = [] → k.nakd = [] →
      x.use = .plain →
      (x.expiries < retryLimit s.toChip → Completes (.rtoExpiry m x.pkt.seq) s (fun t =>
        (conn t.toChip n).txOpen = [{ x with
          expiries := x.expiries + 1
          timer := min (max (timerOf s.toChip x) (fld (reg s.toChip aXPT_RTO) 31 16)) (2 * timerOf s.toChip x) }] ∧
        (conn t.toChip n).retx = k.retx + 1 ∧ Counted s t aXPT_RETX_CNT 1)) ∧
      (retryLimit s.toChip ≤ x.expiries → Completes (.rtoExpiry m x.pkt.seq) s (fun t =>
        (conn t.toChip n).state = .failed ∧ (conn t.toChip n).txOpen = [] ∧ Event t .xpt 18))) ∧
    (xptCarries s.toChip n = true → k.owed = true → (k.state = .open ∨ k.state = .closing) → Completes (.ackDelayExpiry m) s (fun t =>
      conn t.toChip n = { k with ackDue := 0, ceSince := 0, owed := decide (k.rxPend ≠ []) } ∧
      t.egr.ctl0.length + t.egr.ctl1.length = s.egr.ctl0.length + s.egr.ctl1.length + 1)) ∧
    ((k.state = .open ∨ k.state = .closing) → exec (.rateIncreaseTick m) s = .next (after s (setConn s.toChip n
      { k with rate := min (rateCeil s.toChip n) (rateNow s.toChip n + 1000 * fld (reg s.toChip aXPT_RATE_CFG) 23 16) })))

/-- The states of a connection (R315-R317): OPEN connects a CLOSED number, a CONNECT opens the lowest CLOSED number of its
partition and a CONNECT_ACK the connecting one; CLOSE on either end closes, and both ends' CLOSE ends, the connection;
a refused one and one out of retries is FAILED until RELEASE or its time; MGMT and UNMGMT change the designation. -/
def Obligations.ConnectionStates : Prop :=
  ∀ s : State, Awake s.toChip →
    (∀ (l : Link) (p : Pkt) (m : Nat), isOn s.toChip .xpt = true → onlyMgmt s.toChip l = false → pktValid p = true →
      p.typ = 7 →
      connectedBy s.toChip l p = none → p.part.toNat < 8 → partValid s.toChip p.part.toNat = true →
      (l.peer = false → l.hostPart.map (·.toNat) = some p.part.toNat) → p.cflags.getLsbD 0 = false →
      lowestClosed s.toChip p.part.toNat = some m → Completes (.vstConnect l p) s (fun t =>
        let k := conn t.toChip m
        k.state = .open ∧ k.local_ = false ∧ k.remConn = p.src.toNat % 2 ^ 14 ∧ k.remNonce = p.myNonce ∧
          k.rxCum = p.initSeq ∧ k.mgmt = false ∧ k.peer = l.peer ∧ k.remAddr = l.addr ∧
          (∀ j, j ≠ m → conn t.toChip j = conn s.toChip j) ∧
          t.egr.ctl0.length + t.egr.ctl1.length = s.egr.ctl0.length + s.egr.ctl1.length + 1)) ∧
    (∀ (l : Link) (p : Pkt), bstate s.toChip .xpt = .draining → pktValid p = true → p.typ = 7 →
      connectedBy s.toChip l p = none → Completes (.vstConnect l p) s (fun t => t.xpt = s.xpt ∧
        t.egr.ctl0.length + t.egr.ctl1.length = s.egr.ctl0.length + s.egr.ctl1.length + 1)) ∧
    (∀ (l : Link) (p : Pkt), isUp s.toChip .xpt = true → onlyMgmt s.toChip l = false → pktValid p = true →
      let n := p.dst.toNat % 2 ^ 14
      let k := conn s.toChip n
      p.nonce = k.myNonce → k.txWait = [] →
      (k.state = .connecting → p.typ = 8 → p.status = 0 → Completes (.vstConnectAck l p) s (fun t =>
        conn t.toChip n = { k with
          state := .open, remConn := p.src.toNat % 2 ^ 14, remNonce := p.myNonce, remAddr := l.addr,
          rxCum := p.initSeq, rxTop := p.initSeq - 1, txOpen := [], rate := rateCeil s.toChip n })) ∧
      (k.state = .connecting → p.typ = 8 → p.status ≠ 0 → Completes (.vstConnectAck l p) s (fun t =>
        (conn t.toChip n).state = .failed ∧ (conn t.toChip n).txOpen = [] ∧ Event t .xpt 18)) ∧
      (k.state = .open → p.typ = 9 → Completes (.vstClose l p) s (fun t =>
        (conn t.toChip n).state = .closing ∧ (conn t.toChip n).closeRx = true ∧
        t.egr.ctl0.length + t.egr.ctl1.length = s.egr.ctl0.length + s.egr.ctl1.length + 1)) ∧
      (k.state = .closing → p.typ = 9 → Completes (.vstClose l p) s (fun t =>
        conn t.toChip n = { k with closeRx := true }))) ∧
    (∀ m : Conn, let k := conn s.toChip m.toNat
      (k.state = .closing → k.txOpen = [] → k.closeRx = true → Completes (.connClosed m) s (fun t =>
        conn t.toChip m.toNat = connReset)) ∧
      (k.state ≠ .closing → exec (.connClosed m) s = .next (after s s.toChip)) ∧
      (k.state = .failed → Completes (.connFailedTimeout m) s (fun t => conn t.toChip m.toNat = connReset)) ∧
      (k.state ≠ .failed → exec (.connFailedTimeout m) s = .next (after s s.toChip))) ∧
    (∀ r, Reaches s.toChip r .xpt →
      let n := bankFor s.toChip 0 .conn
      let k := conn s.toChip n
      let q := regB s.toChip (queueOf s.toChip n) aEGR_Q_CFG
      partOfConn s.toChip n = some 0 →
      (k.state = .closed → isOn s.toChip .xpt = true → pathBusy s.toChip n = false → fld q 29 27 = 0 →
        bit q 30 = pathPeer s.toChip n → AcceptedWith (.connOpen r) s r (fun t =>
          (conn t.toChip n).state = .connecting ∧ (conn t.toChip n).local_ = true ∧
          (conn t.toChip n).txOpen.map (·.pkt.typ) = [7])) ∧
      (k.state ≠ .closed → Answered (.connOpen r) s r 0x21 s.toChip (fun t => conn t.toChip n = k)) ∧
      (k.state = .open → k.txWait = [] → AcceptedWith (.connClose r) s r (fun t =>
        (conn t.toChip n).state = .closing)) ∧
      (k.state ≠ .open → Answered (.connClose r) s r 0x21 s.toChip (fun t => conn t.toChip n = k)) ∧
      (k.state = .failed → AcceptedWith (.connRelease r) s r (fun t => conn t.toChip n = connReset)) ∧
      (k.state ≠ .failed → Answered (.connRelease r) s r 0x21 s.toChip (fun t => conn t.toChip n = k)) ∧
      (k.state = .open → k.mgmt = false → mgmtCount s.toChip < 16 → AcceptedWith (.connMgmt r) s r (fun t =>
        conn t.toChip n = { k with mgmt := true })) ∧
      (k.state = .open → k.mgmt = true → AcceptedWith (.connUnmgmt r) s r (fun t =>
        conn t.toChip n = { k with mgmt := false } ∧ bit (regB t.toChip n aXPT_CONN_CTRL) 9 = false)))

/-! ### SRCH (R383-R406) -/

/-- The record of a query was sent, whole in one packet, on a connection that is OPEN, not spray and takes no events; its
TIME is the model's free value (log entry 22). -/
abbrev SearchReports (s t : State) (q : Query) (status scored : Nat) (hits : List SearchHit) : Prop :=
  (conn s.toChip q.conn).state = .open → (conn s.toChip q.conn).spray = false → (conn s.toChip q.conn).mgmt = false →
    hits.length ≤ 300 → ∃ time, lastSent t.toChip q.conn = searchRecord 0x20 q.index (2 * b2n q.budget) q.tag status scored
      q.reads q.shards.length q.answered.length q.widenings time hits

/-- The candidates of a query without re-rank as results (R397). -/
abbrev sketchHits (k : Nat) (l : List (Nat × Nat)) : List SearchHit :=
  (l.take k).map (fun e => { item := e.2, shard := 0, dist := w32 e.1 })

/-- Search requests (R386, R388, R399, R404): a request that the gate refuses changes nothing and is answered; a scan that
no rule refuses waits as a query of its own; a DELETE sets the tombstones and counts the new ones, and is answered once
the queries accepted before it have ended; an INDEX_LOAD queues its object's write; an INDEX_FREE makes every entry
ABSENT. -/
def Obligations.SearchRequests : Prop :=
  ∀ (s : State) (n : Conn) (tag : DWord) (h : Word), Awake s.toChip →
    let x := h.toNat % 16
    let ok := searchGate s.toChip n.toNat h = 0
    (∀ req, ¬ ok → Quietly (.search n tag h req) s s.toChip (fun t => Spoke s t n.toNat 1 ∧
      pair t.toChip aSRCH_QUERY_CNT_LO = (pair s.toChip aSRCH_QUERY_CNT_LO + 1) % 2 ^ 64)) ∧
    (∀ items, ¬ ok → Quietly (.delete n tag h items) s s.toChip (fun t => Spoke s t n.toNat 1)) ∧
    (∀ req, ¬ ok → Quietly (.indexLoad n tag h req) s s.toChip (fun t => Spoke s t n.toNat 1)) ∧
    (¬ ok → Quietly (.indexFree n tag h) s s.toChip (fun t => Spoke s t n.toNat 1)) ∧
    (∀ req : SearchReq, ok → searchRefusal s.toChip x req = 0 → req.mode = 1 → sSharded req = false →
      s.srch.queries = [] → exec (.search n tag h req) s =
        .next (after s (addQuery s.toChip (newQuery s.srch.nextId x n.toNat tag req none)))) ∧
    (∀ items : List Word, ok → ixValid s.toChip x = true → items ≠ [] → items.length ≤ 16376 →
      (∀ i ∈ items, i.toNat < ixItems s.toChip x) →
      let new := ((items.map (·.toNat)).filter (fun i => !tombed s.toChip x i)).dedup
      let marked := fun (t : State) => (∀ i ∈ items, tombed t.toChip x i.toNat = true) ∧
        (regB t.toChip x aSRCH_IDX_DELETED).toNat = min ((regB s.toChip x aSRCH_IDX_DELETED).toNat + new.length) 0xFFFFFFFF
      (s.srch.queries = [] → Completes (.delete n tag h items) s (fun t => marked t ∧ t.srch.deletes = s.srch.deletes ∧
        Spoke s t n.toNat 1)) ∧
      (∀ q, s.srch.queries = [q] → q.index = x → Completes (.delete n tag h items) s (fun t => marked t ∧
        t.srch.deletes = s.srch.deletes ++ [{ id := s.srch.nextId, index := x, conn := n.toNat, tag := tag,
                                              newly := new.length, queries := [q.id] }] ∧ t.xpt = s.xpt))) ∧
    (∀ d, s.srch.deletes.find? (fun e => e.id = d.id) = some d → s.srch.queries = [] →
      Completes (.deleteWaitEnd d.id) s (fun t => t.srch.deletes = s.srch.deletes.filter (fun e => e.id ≠ d.id) ∧
        Spoke s t d.conn 1)) ∧
    (∀ req : LoadReq, ok → loadRefusal s.toChip x req = 0 →
      let obj : FObj := { len := req.length.toNat, kind := req.kind.toNat, owner := searchOwner s.toChip x req.object.toNat,
                          seq := s.fig.applied, data := regionRead s.toChip req.tag req.offset.toNat req.length.toNat }
      let use := FUse.search x req.kind.toNat req.object.toNat false
      (flashWrite s.toChip (ixPart s.toChip x) obj use).1 = 0 → Completes (.indexLoad n tag h req) s (fun t =>
        WriteQueued s t obj use ∧ t.srch.loads = s.srch.loads ++
          [{ write := s.flash.nextWrite, index := x, conn := n.toNat, tag := tag, source := req.tag }])) ∧
    (ok → x ∉ s.checks.index → ixValid s.toChip x = false → ixTableOk s.toChip x = true → s.srch.loads = [] →
      Completes (.indexFree n tag h) s (fun t => Spoke s t n.toNat 1 ∧
        ∀ k, k < ixG s.toChip x + ixV s.toChip x →
          leNat (memRead t.mem (ixTable s.toChip x + 256 + 8 * k) 8) = 2 ^ 62))

/-- Queries (R391, R392, R396-R402): a pass takes the waiting scans of its index and returns the best returnable items; a
walk expands the best member of its beam and goes on, and with none left its candidates are fixed; a re-rank ends with a
record; an uncorrectable sketch ends a walk or a scan with TIER_FAULT; the deadline ends a query with TIER_LATE; a merged query takes
its shards' answers and ends with the last one, or, past their deadline, with PARTIAL; repair goes to the next object. -/
def Obligations.QueriesProgress : Prop :=
  ∀ (s : State) (q : Query), Awake s.toChip → OneQuery s.toChip q → filterStands s.toChip q = true →
    (isUp s.toChip .srch = true → q.phase = .queued → q.req.mode = 1 →
      exec .scanPassStart s = .next (after s { s.toChip with
        srch := { s.srch with pass := [q.id], queries := [{ q with phase := .scanning }] } })) ∧
    (q.phase = .scanning → s.srch.pass = [q.id] → q.req.rerank = 0 →
      let hits := sketchHits q.req.k.toNat (scanBest s.toChip q)
      Completes (.scanPassEnd false) s (fun t => QueryEnded s t q ∧ t.srch.pass = [] ∧
        SearchReports s t q (if hits.length < q.req.k.toNat then 0x60 else 0) (ixItems s.toChip q.index) hits)) ∧
    (q.phase = .scanning → s.srch.pass = [q.id] → Completes (.scanPassEnd true) s (fun t => QueryEnded s t q ∧
      Counted s t aSRCH_FAULT_CNT 1 ∧ Counted s t aGDR_UE_CNT 1 ∧ SearchReports s t q 0x11 q.scored [])) ∧
    (q.phase = .walking → q.req.widen = 0 → unexpanded q = [] →
      let l := q.beam.filter (fun e => returnable s.toChip q e.2)
      (q.req.rerank = 0 → Completes (.walkListsReady q.id [] false) s (fun t => QueryEnded s t q)) ∧
      (q.req.rerank ≠ 0 → Completes (.walkListsReady q.id [] false) s (fun t => t.xpt = s.xpt ∧
        t.srch.queries.map (fun r => (r.id, r.phase, r.cands)) = [(q.id, .reranking, l.take q.req.rerank.toNat)]))) ∧
    (∀ d i, q.phase = .walking → unexpanded q = [(d, i)] →
      enDamaged (ixEntry s.toChip q.index 5 (i / 2 ^ ixListLog s.toChip q.index)) = false →
      let r := (expandItem (q, s.toChip) i).1
      leaveLoop s.toChip r = false → Completes (.walkListsReady q.id [] false) s (fun t =>
        t.srch.queries.map (fun y => (y.id, y.phase, y.beam, y.visited, y.expanded)) =
          [(q.id, .walking, r.beam, r.visited, q.expanded ++ [i])] ∧
        Counted s t aSRCH_BAD_EDGE (badEdges s.toChip q.index (listOfItem s.toChip q.index i)))) ∧
    (q.phase = .walking → (∀ e ∈ (unexpanded q).take (selectOf s.toChip),
      enDamaged (ixEntry s.toChip q.index 5 (e.2 / 2 ^ ixListLog s.toChip q.index)) = false) →
      Completes (.walkListsReady q.id [] true) s (fun t => QueryEnded s t q ∧ Counted s t aSRCH_FAULT_CNT 1 ∧
        Counted s t aGDR_UE_CNT 1 ∧ SearchReports s t q 0x11 q.scored [])) ∧
    (q.phase = .reranking →
      (∀ e ∈ q.cands, enDamaged (ixEntry s.toChip q.index 4 (e.2 / 2 ^ ixVecLog s.toChip q.index)) = false) →
      Completes (.rerankDone q.id []) s (fun t => QueryEnded s t q ∧
        pair t.toChip aSRCH_QUERY_CNT_LO = (pair s.toChip aSRCH_QUERY_CNT_LO + 1) % 2 ^ 64)) ∧
    (Completes (.searchDeadline q.id) s (fun t => QueryEnded s t q ∧ Counted s t aSRCH_LATE_CNT 1 ∧
      SearchReports s t q 0x10 q.scored [])) ∧
    (∀ (a : BitVec 6) (hits : List SearchHit), q.phase = .merging → a.toNat ∈ q.shards → a.toNat ∉ q.answered →
      ((∃ b ∈ q.shards, b ≠ a.toNat ∧ b ∉ q.answered) → Completes (.shardAnswer q.id a 0 hits) s (fun t =>
        ∃ m, t.srch.queries = [{ q with answered := q.answered ++ [a.toNat], merged := m }])) ∧
      ((∀ b ∈ q.shards, b = a.toNat ∨ b ∈ q.answered) → Completes (.shardAnswer q.id a 0 hits) s (fun t =>
        QueryEnded s t q))) ∧
    (q.phase = .merging → Completes (.shardDeadline q.id) s (fun t => QueryEnded s t q ∧ Event t .srch 18)) ∧
    (∀ (x : BitVec 4) (j : Nat), isOn s.toChip .srch = true → ixValid s.toChip x.toNat = true →
      ixRepair s.toChip x.toNat = true → s.flash.writes = [] → j < ixG s.toChip x.toNat →
      tget 0 s.srch.repairNext x.toNat = j → Completes (.repairObject x j) s (fun t =>
        tget 0 t.srch.repairNext x.toNat = (if j + 1 = ixG s.toChip x.toNat then 0 else j + 1) ∧
        (j + 1 = ixG s.toChip x.toNat → Event t .srch 17) ∧ t.srch.queries = s.srch.queries))

/-! ### PEER (R343-R364) -/

/-- A packet that a frame carries has the effect of the command of its TYPE (R311, R313). -/
abbrev packetRuns (i : Instr) (s u : State) (l : Link) (p : Pkt) : Prop :=
  (p.typ = 1 → exec i s = exec (.vstWrite l p) u) ∧ (p.typ = 2 → exec i s = exec (.vstReadReq l p) u) ∧
  (p.typ = 3 → exec i s = exec (.vstReadResp l p) u) ∧ (p.typ = 4 → exec i s = exec (.vstMsg l p) u) ∧
  (p.typ = 5 → exec i s = exec (.vstAck l p) u) ∧ (p.typ = 6 → exec i s = exec (.vstNak l p) u) ∧
  (p.typ = 7 → exec i s = exec (.vstConnect l p) u) ∧ (p.typ = 8 → exec i s = exec (.vstConnectAck l p) u) ∧
  (p.typ = 9 → exec i s = exec (.vstClose l p) u)

/-- A counter of a bank rose by a number and stopped at its largest value. -/
abbrev CountedB (s t : State) (k a n : Nat) : Prop :=
  (regB t.toChip k a).toNat = min ((regB s.toChip k a).toNat + n) 0xFFFFFFFF

/-- Codewords of a frame with an FEC result, less those that another frame shares (R344). -/
abbrev fecCount (ws : List Codeword) (f : FecResult) : Nat :=
  (ws.filter (fun w => decide (w.fec = f) && !w.shared)).length

/-- The peer ports (R344-R363): the states of a port, its lanes and its laser, calibration lane by lane, frames for this
node and in transit, output arbitration, and the two routing banks. The FEC counters of a port count a frame's codewords,
and a frame with an uncorrectable codeword has no other effect. A frame for this node that comes while the chip sleeps
waits and wakes it. -/
def Obligations.PeerPorts : Prop :=
  ∀ (s : State) (port : PortId), Linked s.toChip →
    let n := port.toNat
    let x := pport s.toChip n
    let others := fun (t : State) => ∀ q, q ≠ n → pport t.toChip q = pport s.toChip q
    let lane := fun (l : BitVec 4) => BitVec.ofNat 16 (2 ^ l.toNat)
    (∀ (lanes : BitVec 16) (node : Option (BitVec 12)),
      (x.state = .training → lanes ≠ 0 → (isUp s.toChip .peer = true ∨ bstate s.toChip .peer = .disabled) →
        Completes (.portTrained port lanes node) s (fun t => others t ∧ Event t .peer 22 ∧
          pport t.toChip n = { x with
            state := .up, active := lanes, lost := ~~~lanes, dark := 0
            node := node.map (·.toNat), known := node.isSome } ∧
          (s.peer.bothLasersOut = false → t.peer.sweep.isSome = true))) ∧
      (x.state ≠ .training ∨ lanes = 0 → exec (.portTrained port lanes node) s = .next (after s s.toChip))) ∧
    (x.state = .training → PortBecomes (.portTrainingTimeout port) s n { x with state := .down } (fun _ => True)) ∧
    (x.state = .down → s.peer.bothLasersOut = false → PortBecomes (.portRetrainTimer port) s n { x with
      state := .training, active := 0, lost := 0, dark := 0, node := none, known := false } (fun _ => True)) ∧
    (portUp s.toChip n = true →
      PortBecomes (.portSilenceTimeout port) s n (fallen x) (fun t => Event t .peer 16 ∧ Logged s t 0x1A 1 ∧
        Counted s t aPEER_DROP_DOWN x.queue.length) ∧
      (∀ l : BitVec 4, x.active.getLsbD l.toNat = true →
        let y := { x with active := x.active &&& ~~~lane l, lost := x.lost ||| lane l, dark := x.dark &&& ~~~lane l }
        (y.active ≠ 0 → PortBecomes (.laneLost port l) s n y (fun t => Event t .peer 17 ∧ Logged s t 0x19 1)) ∧
        (y.active = 0 → PortBecomes (.laneLost port l) s n (fallen y) (fun t =>
          Event t .peer 17 ∧ Event t .peer 16 ∧ Logged s t 0x1A 1 ∧ Counted s t aPEER_DROP_DOWN x.queue.length)))) ∧
    (x.state = .up → bit (regB s.toChip n aPEER_PORT_CFG) 2 = true → PortBecomes (.idleReduce port) s n
      { x with state := .reduced, dark := x.active &&& ~~~lowFour x.active } (fun _ => True)) ∧
    (x.state = .reduced → PortBecomes (.laneRelight port) s n { x with state := .up, dark := 0 } (fun _ => True)) ∧
    (∀ p0 p1 p2 p3 : BitVec 7, Quietly (.slowWindow p0 p1 p2 p3) s s.toChip (fun t =>
      ∀ q v, (q, v) ∈ [(0, p0), (1, p1), (2, p2), (3, p3)] →
        let slow := decide (min 100 (fld (reg s.toChip aPEER_SLOW_CFG) 6 0) < v.toNat)
        regB t.toChip q aPEER_STALL = w32 (b2n slow * 2 ^ 31 + v.toNat) ∧ (slow = true → Event t .peer 18))) ∧
    Quietly (.laserFailover true) s s.toChip (fun t => Event t .peer 20 ∧ Logged s t 0x1B 1 ∧
      bit (reg t.toChip aPEER_LASER) 0 = !bit (reg s.toChip aPEER_LASER) 0 ∧
      fld (reg t.toChip aPEER_LASER) 15 8 = min 255 (fld (reg s.toChip aPEER_LASER) 15 8 + 1)) ∧
    Completes (.laserFailover false) s (fun t => t.peer.bothLasersOut = true ∧ t.peer.sweep = none ∧
      ∀ q, q < 4 → portUp t.toChip q = false ∧ (pport t.toChip q).state ≠ .training) ∧
    (∀ (l : BitVec 4) (b : Bool), (b = true → calAuto s.toChip = false) →
      exec (.ringLockTick port l b) s = .next (after s s.toChip)) ∧
    (∀ l : BitVec 4, calAuto s.toChip = true → portUp s.toChip n = true → x.active.getLsbD l.toNat = true →
      s.peer.sweep = none → peerForwards s.toChip = true → ∀ q, nextSweepPort s.toChip 0 = some q →
      exec (.ringLockTick port l true) s = .next (after s { s.toChip with peer := { s.peer with sweep := some (q, 0) } })) ∧
    (∀ (l : BitVec 4) (b : Bool), s.peer.sweep = some (n, l.toNat) → portUp s.toChip n = true →
      let y := if b then { x with active := x.active ||| lane l, lost := x.lost &&& ~~~lane l }
        else { x with active := x.active &&& ~~~lane l, lost := x.lost ||| lane l }
      (l ≠ 15 → Completes (.calLaneDone b) s (fun t => pport t.toChip n = y ∧ others t ∧
        t.peer.sweep = some (n, l.toNat + 1))) ∧
      (l = 15 → nextSweepPort s.toChip (n + 1) = none → Completes (.calLaneDone b) s (fun t =>
        pport t.toChip n = y ∧ others t ∧ t.peer.sweep = none ∧ Event t .peer 19))) ∧
    (∀ r q, Reaches s.toChip r .peer → peerForwards s.toChip = true → s.peer.sweep = none →
      nextSweepPort s.toChip 0 = some q → Accepted (.calSweepStart (some r)) s r
        { s.toChip with peer := { s.peer with sweep := some (q, 0) } } (fun _ => True)) ∧
    (∀ q, calAuto s.toChip = true → peerForwards s.toChip = true → s.peer.sweep = none →
      nextSweepPort s.toChip 0 = some q → exec (.calSweepStart none) s =
        .next (after s { s.toChip with peer := { s.peer with sweep := some (q, 0) } })) ∧
    (calAuto s.toChip = false → exec (.calSweepStart none) s = .next (after s s.toChip)) ∧
    (∀ f : QFrame, portUp s.toChip n = true → peerForwards s.toChip = true → x.queue = [f] → f.vc < 4 →
      f.bytes ≠ [] → Completes (.peerOutputArbitrate port) s (fun t => others t ∧ (pport t.toChip n).queue = [] ∧
        (pport t.toChip n).tx = x.tx ++ [f.bytes] ∧
        let a := if f.transit then aPEER_TRANSIT_LO else aPEER_LOCAL_LO
        pairB t.toChip n a = (pairB s.toChip n a + 1) % 2 ^ 64)) ∧
    (∀ (first : BitVec 4) (ws : List Codeword) (l : List Byte), peerForwards s.toChip = true → portUp s.toChip n = true →
      let order := stripeOrder x first.toNat
      let fec := fun (t : State) => CountedB s t n aPEER_FEC_CORR (fecCount ws .corrected) ∧
        CountedB s t n aPEER_FEC_UNCORR (fecCount ws .uncorrectable)
      (frameWhole order ws = false → Quietly (.peerFrameRx port first ws) s s.toChip fec) ∧
      (frameWhole order ws = true → reassemble order ws = l →
        (frameOk l = false → Quietly (.peerFrameRx port first ws) s s.toChip (fun t => fec t ∧
          Counted s t aPEER_DROP_ROUTE 1 ∧ Event t .peer 21)) ∧
        (frameOk l = true → frameForUs s.toChip l = false →
          (frHops l = 0 → Quietly (.peerFrameRx port first ws) s s.toChip (fun t => fec t ∧
            Counted s t aPEER_DROP_HOPS 1 ∧ Event t .peer 21)) ∧
          (∀ q k, frHops l ≠ 0 → (frSpray l = false ∨ frCls l ≠ 2) →
            routeOf s.toChip (some n) (frDst l) (frCls l) false 0 = .out q k →
            Completes (.peerFrameRx port first ws) s (fun t => fec t ∧ (∀ j, j ≠ q → pport t.toChip j = pport s.toChip j) ∧
              pport t.toChip q = { pport s.toChip q with queue := (pport s.toChip q).queue ++
                [{ vc := frVc l, cls := k, transit := true
                   bytes := frameBytes (frVc l) k (frCong l) ((l.getD 0 0).getLsbD 5) (frHops l - 1) (frDst l) (frSrc l)
                    (l.drop 8) }] }))) ∧
        (frameOk l = true → frameForUs s.toChip l = true → bstate s.toChip .peer ≠ .disabled → s.pwr.tripped = false →
          s.flt.faulted = false →
          (asleep s.toChip = true → Completes (.peerFrameRx port first ws) s (fun t => fec t ∧
            t.peer = { s.peer with held := s.peer.held ++ [l] } ∧
            (sleeping s.toChip = true → t.chip = { s.chip with fast := .waking, wakeFrom := s.chip.fast }) ∧
            (sleeping s.toChip = false → t.chip = s.chip))) ∧
          (∀ p, s.chip.fast = .run → parsePkt (l.drop 8) = some p → packetRuns (.peerFrameRx port first ws) s
            { s with toChip := countFec s.toChip n ws } (peerLink l) p)))) ∧
    (∀ r, Reaches s.toChip r .peer →
      (∀ w : Word, bankFor s.toChip 0 .port = n →
        (portEnabled s.toChip n = true → bit w 0 = false → AcceptedWith (.portEnable r w) s r (fun t => others t ∧
          pport t.toChip n = { portReset with tx := x.tx } ∧ Counted s t aPEER_DROP_DOWN x.queue.length)) ∧
        (portEnabled s.toChip n = false → bit w 0 = true → isOn s.toChip .peer = true → x.state = .off →
          AcceptedWith (.portEnable r w) s r (fun t => others t ∧ portEnabled t.toChip n = true ∧
            (pport t.toChip n).state = .training))) ∧
      (armed s.toChip r .peer = true →
        Accepted (.rtSwap r) s r { s.toChip with peer := { s.peer with active := !s.peer.active } }
          (fun t => armed t.toChip r .peer = false) ∧
        Accepted (.rtCopy r) s r { s.toChip with peer := { s.peer with
            bank0 := if s.peer.active then s.peer.bank1 else s.peer.bank0
            bank1 := if s.peer.active then s.peer.bank1 else s.peer.bank0 } }
          (fun t => armed t.toChip r .peer = false)) ∧
      (armed s.toChip r .peer = false →
        Answered (.rtSwap r) s r 0x21 s.toChip (fun t => Event t .peer 3) ∧
        Answered (.rtCopy r) s r 0x21 s.toChip (fun t => Event t .peer 3)) ∧
      (let i := fld (reg s.toChip aPEER_RT_INDEX) 11 0
       let next := fun (t : State) => fld (reg t.toChip aPEER_RT_INDEX) 11 0 = (i + 1) % 4096
       (∀ w : Word, AcceptedWith (.rtDataAccess r (some w)) s r (fun t => next t ∧
          rtShadow t.toChip i = w &&& 0x800000F3 ∧ (∀ j, j ≠ i → rtShadow t.toChip j = rtShadow s.toChip j) ∧
          (∀ j, routeEntry t.toChip j = routeEntry s.toChip j))) ∧
       Completes (.rtDataAccess r none) s (fun t => next t ∧ t.mgmt.acc = { status := 0, data := rtShadow s.toChip i } ∧
         desk t.toChip = desk s.toChip)))

/-! ### HOST and EGR (R365-R382) -/

/-- The host port and the egress scheduler (R365-R377): frames and their FEC codewords are counted, and a frame is
classified and given to XPT, dropped, or held through a sleep that it ends (a frame with an uncorrectable codeword counts
as one of a bad FCS: the model's choice, log entry 126); the
states of the link and its laser; policers and shapers refill; an output sends its control lane first, then the queue that
is due; a connection whose wait has ended resumes; queues are sampled. -/
def Obligations.HostPortAndEgress : Prop :=
  ∀ s : State, Linked s.toChip →
    let h := s.host
    (∀ (l : List Byte) (ok : Bool) (fec : List FecResult), s.pwr.tripped = false → s.flt.faulted = false →
      let i := Instr.hostFrameRx l ok fec
      let good := ok && fec.all (fun f => decide (f ≠ .uncorrectable))
      let hits := fun (f : FecResult) => (fec.filter (fun g => decide (g = f))).length
      (hostReceives s.toChip = false → exec i s = .next (after s s.toChip)) ∧
      (hostReceives s.toChip = true →
        let rx := fun (t : State) => pair t.toChip aHOST_RX_FRAMES_LO = (pair s.toChip aHOST_RX_FRAMES_LO + 1) % 2 ^ 64 ∧
          Counted s t aHOST_FEC_CORR (hits .corrected) ∧ Counted s t aHOST_FEC_UNCORR (hits .uncorrectable)
        (good = false → Quietly i s s.toChip (fun t => rx t ∧ Counted s t aHOST_RX_FCS_ERR 1)) ∧
        (good = true → (l.length + 4 < 64 ∨ 9216 < l.length + 4) → Quietly i s s.toChip (fun t =>
          rx t ∧ Counted s t aHOST_RX_FILTER 1)) ∧
        (good = true → 64 ≤ l.length + 4 → l.length + 4 ≤ 9216 →
          (rdBE l 12 2 = 0x8808 → Quietly i s s.toChip (fun t => rx t ∧ Counted s t aHOST_RX_PAUSE 1)) ∧
          (rdBE l 12 2 ≠ 0x8808 →
            (hostClass s.toChip l = .filtered → Quietly i s s.toChip (fun t => rx t ∧ Counted s t aHOST_RX_FILTER 1)) ∧
            (∀ q k b, hostClass s.toChip l = .vst q k b → fld (regB s.toChip q aHOST_POLICE) 15 0 ≠ 0 →
              tget 0 h.buckets q = 0 → Quietly i s s.toChip (fun t => rx t ∧ CountedB s t q aHOST_POLICE_DROP 1 ∧
                Event t .host 20)) ∧
            (∀ q k b, hostClass s.toChip l = .vst q k b → fld (regB s.toChip q aHOST_POLICE) 15 0 = 0 →
              (asleep s.toChip = true → hostHeldBytes s.toChip + l.length ≤ 4194304 →
                Completes i s (fun t => rx t ∧ t.host = { h with held := h.held ++ [l] } ∧
                  (sleeping s.toChip = true → t.chip = { s.chip with fast := .waking, wakeFrom := s.chip.fast }) ∧
                  (sleeping s.toChip = false → t.chip = s.chip))) ∧
              (∀ p, s.chip.fast = .run → parsePkt b = some p → packetRuns i s
                { s with toChip := bumpPair (hostFec s.toChip fec) aHOST_RX_FRAMES_LO 1 } k p)))))) ∧
    (h.state = .training → Quietly .hostTrained s { s.toChip with host := { h with
        state := .up, lanes := 0xFF, needed := h.needed && !h.sweeping, sweeping := false } } (fun t => Event t .host 17) ∧
      exec .hostTrainingTimeout s = .next (after s { s.toChip with host := { h with
        state := .down, lanes := 0, sweeping := false } })) ∧
    (h.state = .down → exec .hostRetrainTimer s = .next (after s { s.toChip with host := { h with
      state := .training, lanes := 0, sweeping := true } })) ∧
    (h.state = .up →
      (∀ b : Byte, Quietly (.hostLinkLoss b) s { s.toChip with host := { h with
        state := .down, lanes := b, sweeping := false } } (fun t => Event t .host 16 ∧
          Logged s t (if b = 0xFF then 0x1A else 0x19) 1)) ∧
      Quietly .hostCalNeeded s { s.toChip with host := { h with needed := true } } (fun t => Event t .host 19) ∧
      (∀ r, Reaches s.toChip r .host → Accepted (.hostCalStart r) s r { s.toChip with host := { h with
        state := .training, lanes := 0, sweeping := true } } (fun _ => True)) ∧
      Quietly (.hostLaserFailover false) s { s.toChip with host := { h with
        state := .down, lanes := 0, sweeping := false } } (fun t => Event t .host 16 ∧ Logged s t 0x1A 1)) ∧
    (∀ r, h.state ≠ .up → Reaches s.toChip r .host → Accepted (.hostCalStart r) s r s.toChip (fun _ => True)) ∧
    Quietly (.hostLaserFailover true) s s.toChip (fun t => Event t .host 18 ∧ Logged s t 0x1B 1 ∧
      bit (reg t.toChip aHOST_LASER) 0 = !bit (reg s.toChip aHOST_LASER) 0 ∧
      fld (reg t.toChip aHOST_LASER) 15 8 = min 255 (fld (reg s.toChip aHOST_LASER) 15 8 + 1)) ∧
    Completes .policerRefill s (fun t => t.mgmt = s.mgmt ∧ t.mem = s.mem ∧ ∀ p, p < 8 →
      let w := regB s.toChip p aHOST_POLICE
      tget 0 t.host.buckets p = if fld w 15 0 = 0 then tget 0 h.buckets p
        else min (max 1 (fld w 31 16)) (tget 0 h.buckets p + fld w 15 0)) ∧
    (Awake s.toChip → isUp s.toChip .egr = true →
      Completes .shaperRefill s (fun t => t.mgmt = s.mgmt ∧ t.xpt = s.xpt ∧ ∀ q, q < 512 →
        let e := equeue s.toChip q
        let w := regB s.toChip q aEGR_Q_SHAPE
        let b := max 1 (fld w 31 16)
        equeue t.toChip q =
          if bit (regB s.toChip q aEGR_Q_CFG) 31 then { e with
            shaped := true, rate := fld w 15 0, burst := b
            tokens := min b ((if e.shaped then e.tokens else 0) + fld w 15 0) }
          else if e.shaped then { e with shaped := false, tokens := 0 } else e) ∧
      (∀ l : List (Nat × Nat), Completes (.queueSample l) s (fun t => t.egr = s.egr ∧ t.xpt = s.xpt ∧ ∀ q, q < 512 →
        let d := (equeue s.toChip q).pkts.length
        regB t.toChip q aEGR_Q_DEPTH = w32 (max (fld (regB s.toChip q aEGR_Q_DEPTH) 31 16) d * 65536 + d) ∧
        (d = 0 → fld (regB t.toChip q aEGR_Q_DELAY) 15 0 = 0)))) ∧
    (Awake s.toChip → s.host.state = .up →
      (∀ n k p rest, s.egr.ctl0 = (n, k, p) :: rest → ctlServed s.toChip n false = true →
        Completes (.egressSelect false) s (fun t => t.egr.ctl0 = rest ∧ t.egr.queues = s.egr.queues ∧
          ∃ f, t.host.tx = h.tx ++ [f] ∧ encPkt p <:+: f)) ∧
      (∀ q e n p rest, s.egr.ctl0 = [] → s.egr.queues = [(q, e)] → e.pkts = (n, p) :: rest → e.shaped = false →
        q < 512 → bit (regB s.toChip q aEGR_Q_CFG) 30 = false → connServed s.toChip n false = true →
        Completes (.egressSelect false) s (fun t => equeue t.toChip q = { e with pkts := rest } ∧
          pairB t.toChip q aEGR_Q_TX_LO = (pairB s.toChip q aEGR_Q_TX_LO + 1) % 2 ^ 64 ∧
          ∃ f, t.host.tx = h.tx ++ [f] ∧ encPkt p <:+: f))) ∧
    (∀ n p rest q k, Awake s.toChip → peerForwards s.toChip = true → s.egr.ctl1 = (n, none, p) :: rest →
      ctlServed s.toChip n true = true → pSpray p = false → (pport s.toChip q).queue = [] →
      forNode s.toChip (nodeOf s.toChip n) = false → routeOf s.toChip none (nodeOf s.toChip n) 0 false 0 = .out q k →
      Completes (.egressSelect true) s (fun t => t.egr.ctl1 = rest ∧ (pport t.toChip q).queue =
        [{ vc := vcOf p false, cls := k, transit := false
           bytes := frameBytes (vcOf p false) k false false (max 0x40 (fld (reg s.toChip aPEER_HOP_LIMIT) 7 0) - 1)
            (nodeOf s.toChip n) (fld (reg s.toChip aPEER_NODE) 11 0) (encPkt p) }])) ∧
    (∀ n p u, Awake s.toChip → s.egr.waiters = [n] → (conn s.toChip n).txWait = [(p, u)] →
      let k := conn s.toChip n
      (hasSpace s.toChip (queueOf s.toChip n) p = true → mayNumber s.toChip n = true → k.mgmt = false →
        pRetx p = false → Completes .senderWaitRelease s (fun t => n ∉ t.egr.waiters ∧
          (conn t.toChip n).waiting = false ∧ (conn t.toChip n).txWait = [] ∧ (conn t.toChip n).txNext = k.txNext + 1 ∧
          (conn t.toChip n).txOpen.map (·.pkt.seq) = k.txOpen.map (·.pkt.seq) ++ [k.txNext])) ∧
      (hasSpace s.toChip (queueOf s.toChip n) p = false → exec .senderWaitRelease s = .next (after s s.toChip)))

/-! ### CUT (R296-R310) -/

/-- The source of a cut-in (R301, R303-R306): with the only record that of a session whose OFFER is in progress, ACCEPT sends
the image where every block of it reads, its acknowledgement commits HELD, CONFIRM frees the session and counts the hand-over, DECLINE and the timers
return it to READY at the epoch that R306 gives, PROBE and STANDING are answered, and a record of an ended cut-in ages
out. -/
def Obligations.CutSource : Prop :=
  ∀ (s : State) (cn : Conn) (m : CutMsg) (r : CutRec) (i : Nat), CutReady s.toChip → s.cuts = [r] → r.conn = cn.toNat →
    (r.ended = true → exec (.recordAgeExpiry cn r.cutId) s = .next (after s { s.toChip with cuts := [] })) ∧
    (r.ended = false → exec (.recordAgeExpiry cn r.cutId) s = .next (after s s.toChip)) ∧
    (∀ o : Op, m.crcOk = true → r.cutId = m.cutId → r.idx = i → r.ended = false → r.source = true →
      sessionAt s.toChip r.srcHandle = some i → opsOf s.toChip i = [o] → o.code = 11 → o.conn ≠ cn.toNat →
      let n := cn.toNat
      let h := r.srcHandle
      let e := entry s.toChip i
      let only := fun (t : State) (x : CutRec) => t.cuts = [x]
      let becomes := fun (t : State) (st : SessState) (ep : Nat) => (entry t.toChip i).state = st ∧
        (entry t.toChip i).epoch = ep ∧ (entry t.toChip i).gen = e.gen ∧ (entry t.toChip i).length = e.length
      let ends := fun (t : State) => opsOf t.toChip i = [] ∧ Spoke s t o.conn 1
      let done := fun (t : State) => Discarded s t i ∧ ends t ∧ Spoke s t n 1 ∧ Counted s t aCUT_OUT_CNT 1 ∧
        only t { r with state := .done, confirmed := true, ended := true }
      let out := e.state = .handoffOut
      let held := e.state = .held ∧ r.state = .heldSrc
      (r.state = .offered → out → m.epoch.toNat = r.epoch → checkCopies s.toChip (blockList s.toChip i) = s.toChip →
        anyDamaged s.toChip (blockList s.toChip i) = false → Completes (.cutAcceptRx cn m) s (fun t =>
        entry t.toChip i = e ∧ Queued s t n (((cutImage s.toChip i).length + 4095) / 4096) ∧
        only t { r with
          state := .sending, dstHandle := m.dstHandle, regionTag := m.regionTag
          imageCrc := w64 (crc64 ((cutImage s.toChip i).drop 128)) })) ∧
      (r.state = .sending → out → useClosed s.toChip n (.cutImage r.cutId) = true →
        useNak s.toChip n (.cutImage r.cutId) = none → Completes (.cutImageAcked h) s (fun t =>
          becomes t .held e.epoch ∧ opsOf t.toChip i = [o] ∧ Spoke s t n 1 ∧ only t { r with state := .heldSrc })) ∧
      (held → m.epoch.toNat = e.epoch + 1 → Completes (.cutConfirmRx cn m) s done) ∧
      (e.state = .ready → e.epoch = m.epoch.toNat + 1 →
        Quietly (.cutConfirmRx cn m) s s.toChip (fun t => Spoke s t n 1)) ∧
      (out → r.state ≠ .heldSrc → Completes (.cutDeclineRx cn m) s (fun t => becomes t .ready e.epoch ∧ ends t ∧
        Event t .cut 20 ∧ Counted s t aCUT_ABORT_CNT 1 ∧
        only t { r with state := .aborted, ended := true, reclaimed := false })) ∧
      (held → Completes (.cutDeclineRx cn m) s (fun t => becomes t .ready (e.epoch + 2) ∧ ends t ∧ Spoke s t n 1 ∧
        Event t .cut 20 ∧ Counted s t aCUT_ABORT_CNT 1 ∧ Counted s t aCUT_RECLAIM_CNT 1 ∧
        only t { r with state := .aborted, ended := true, reclaimed := true })) ∧
      (r.srcHandle = m.srcHandle →
        (held → 1 ≤ m.status.toNat → m.status.toNat ≤ 4 → m.epoch.toNat = e.epoch + 1 →
          Completes (.cutStandingRx cn m) s done) ∧
        (held → m.status = 6 → m.flags.getLsbD 0 = false →
          Quietly (.cutStandingRx cn m) s s.toChip (fun t => Spoke s t n 1)) ∧
        Quietly (.cutProbeRx cn m) s s.toChip (fun t =>
          Spoke s t n (if e.state = .ready ∧ e.epoch = m.epoch.toNat + 1 then 2 else 1))) ∧
      (r.state = .offered → out → Completes (.acceptTimeout h) s (fun t => becomes t .ready (e.epoch + 2) ∧ ends t ∧
        Spoke s t n 1 ∧ Counted s t aCUT_ABORT_CNT 1 ∧
        only t { r with state := .aborted, ended := true, reclaimed := false })) ∧
      (held → Completes (.confirmTimeout h) s (fun t => becomes t .ready (e.epoch + 2) ∧ ends t ∧ Spoke s t n 1 ∧
        Event t .cut 17 ∧ Counted s t aCUT_RECLAIM_CNT 1 ∧
        only t { r with state := .reclaimed, ended := true, reclaimed := true })) ∧
      (held → Quietly (.sourceProbeTimer h) s s.toChip (fun t => Spoke s t n 1)))

/-- The destination of a cut-in (R297-R299, R302-R309): a valid OFFER creates the session, its landing region and its record
at the offered epoch, another is declined; RELEASE closes the region; the conversion declines a bad image and otherwise
ends with a READY session that waits unsettled at the next epoch; DONE, STANDING and RESOLVE settle it; a higher epoch
discards it; timers probe; and messages that repeat are answered again. -/
def Obligations.CutDestination : Prop :=
  ∀ (s : State) (cn : Conn) (m : CutMsg), CutReady s.toChip → m.crcOk = true →
    let n := cn.toNat
    (s.cuts = [] → ∀ p, partOfConn s.toChip n = some p →
      (offerRefusal s.toChip p m ≠ 0 → Quietly (.cutOfferRx cn m) s s.toChip (fun t =>
        Spoke s t n 1 ∧ Event t .cut 20)) ∧
      (∀ sl k g a c, offerRefusal s.toChip p m = 0 → slotOfKey s.toChip p m.modelKey.toNat = some sl →
        freeIndex s.toChip p = some k → freeRegion s.toChip = some g → (entry s.toChip k).state = .free →
        heapServes s.toChip p = true → heapAlloc s.toChip p (landingLen m.imageLen.toNat) = some (a, c) →
        Completes (.cutOfferRx cn m) s (fun t =>
          let e := entry t.toChip k
          let x := region t.toChip g
          e.state = .handoffIn ∧ e.part = p ∧ e.model = sl ∧ e.epoch = m.epoch.toNat ∧
          e.gen = (entry s.toChip k).gen ∧ x.state = .active ∧ x.landing = true ∧ x.write = true ∧ x.read = false ∧
          x.part = p ∧ x.base = a ∧ x.len = landingLen m.imageLen.toNat ∧ x.conn = n ∧ Spoke s t n 1 ∧
          t.cuts.map (fun y => (y.source, y.conn, y.cutId, y.idx, y.region, y.epoch, y.state, y.released)) =
            [(false, n, m.cutId, k, g, m.epoch.toNat, .handoffIn, false)]))) ∧
    (∀ (r : CutRec) (i : Nat), s.cuts = [r] → r.conn = n → r.cutId = m.cutId → r.idx = i → r.ended = false →
      r.source = false → sessionAt s.toChip r.dstHandle = some i → heldHere s.toChip n m.srcHandle = none →
      let h := r.dstHandle
      let e := entry s.toChip i
      let only := fun (t : State) (x : CutRec) => t.cuts = [x]
      let discards := fun (t : State) => Discarded s t i ∧ Event t .cut 18 ∧
        only t { r with state := .discarded, reckoned := 0, reclaimed := true, ended := true }
      let settles := fun (t : State) => (body t.toChip i).unsettled = false ∧
        only t { r with state := .settled, confirmed := true, ended := true }
      let arrives := fun (t : State) => settles t ∧ entry t.toChip i = e ∧ Counted s t aCUT_IN_CNT 1 ∧ Event t .cut 16 ∧
        Spoke s t r.notify 1
      let waits := e.state = .ready ∧ (body s.toChip i).unsettled = true
      let img := landed s.toChip r
      (r.state = .handoffIn → r.released = false →
        Quietly (.cutOfferRx cn m) s s.toChip (fun t => Spoke s t n 1) ∧
        (m.epoch.toNat = r.epoch → Completes (.cutReleaseRx cn m) s (fun t =>
          (region t.toChip r.region).state = .draining ∧ entry t.toChip i = e ∧
          only t { r with released := true, imageCrc := m.imageCrc }))) ∧
      (r.state = .handoffIn → r.released = true → e.state = .handoffIn → landingOpen s.toChip r = false →
        (imageStatus s.toChip e.model r img ≠ 0 → Completes (.cutConversionStart h) s (fun t =>
          entry t.toChip i = e ∧ Event t .cut 20 ∧ Spoke s t n 1 ∧ only t { r with state := .aborted })) ∧
        (imageStatus s.toChip e.model r img = 0 → Completes (.cutConversionStart h) s (fun t =>
          (entry t.toChip i).state = .handoffIn ∧
          (t.cuts.map (·.state) = [.converting] ∨ (t.cuts.map (·.state) = [.aborted] ∧ Event t .cut 20)))) ∧
        (imageStatus s.toChip e.model r img = 0 → imageBlocks s.toChip e.model img = [] → r.form = 0 →
          Quietly (.cutConversionStart h) s { s.toChip with cuts := [{ r with
            state := .converting
            reckoned := tailSetBytes s.toChip e.model + smallBytes + exclBytes }] } (fun _ => True))) ∧
      (∀ addrs c, r.state = .converting → e.state = .handoffIn → imageStatus s.toChip e.model r img = 0 →
        heapServes s.toChip e.part = true →
        heapAllocs (setCut s.toChip { r with reckoned := 0 }) e.part [tailSetBytes s.toChip e.model, smallBytes, exclBytes] =
          some (addrs, c) → Completes (.cutConversionDone h) s (fun t =>
          (entry t.toChip i).state = .ready ∧ (entry t.toChip i).epoch = r.epoch + 1 ∧
          (entry t.toChip i).length = rdLE img 8 4 ∧ (entry t.toChip i).maxLen = rdLE img 12 4 ∧
          (entry t.toChip i).gen = e.gen ∧ (body t.toChip i).unsettled = true ∧ Spoke s t n 1 ∧
          only t { r with state := .unsettled, reckoned := 0 })) ∧
      (r.state = .unsettled → waits →
        Quietly (.cutReleaseRx cn m) s s.toChip (fun t => Spoke s t n 1) ∧
        Completes (.cutDoneRx cn m) s arrives ∧
        (m.flags.getLsbD 1 = true → Completes (.cutStandingRx cn m) s arrives) ∧
        (m.flags.getLsbD 1 = false → m.status = 0xFF → m.epoch = 0xFFFFFFFF →
          Quietly (.cutStandingRx cn m) s s.toChip (fun t => Event t .cut 19)) ∧
        Quietly (.settleProbeTimer h) s s.toChip (fun t => Spoke s t n 2)) ∧
      (r.srcHandle = m.srcHandle → Quietly (.cutProbeRx cn m) s s.toChip (fun t => Spoke s t n 1)) ∧
      (arriving s.toChip i = true →
        (e.epoch < m.epoch.toNat → Completes (.cutWithdrawRx cn m) s discards ∧
          Completes (.cutReclaimRx cn m) s discards) ∧
        (m.epoch.toNat ≤ e.epoch → Quietly (.cutWithdrawRx cn m) s s.toChip (fun _ => True))) ∧
      (e.state = .handoffIn →
        (m.status = 0xFF → m.epoch = 0xFFFFFFFF → Completes (.cutStandingRx cn m) s discards) ∧
        Quietly (.orphanAgeTimer h) s s.toChip (fun t => Event t .cut 19 ∧ Spoke s t n 1)) ∧
      (e.state ∈ [.ready, .sitout, .cold, .damaged] → (body s.toChip i).unsettled = false →
        m.epoch.toNat = e.epoch + 1 → Completes (.cutReclaimRx cn m) s discards) ∧
      (∀ q, Reaches s.toChip q .cut →
        (armed s.toChip q .cut = false →
          Answered (.resolveSettle q) s q 0x21 s.toChip (fun t => Event t .cut 3) ∧
          Answered (.resolveDiscard q) s q 0x21 s.toChip (fun t => Event t .cut 3)) ∧
        (armed s.toChip q .cut = true → reg s.toChip aCUT_RESOLVE_HANDLE = h → isOn s.toChip .fig = false →
          arriving s.toChip i = true → AcceptedWith (.resolveSettle q) s q (fun t =>
            only t r ∧ fld (reg t.toChip aCUT_RESOLVE) 15 8 = 0x20)) ∧
        (armed s.toChip q .cut = true → reg s.toChip aCUT_RESOLVE_HANDLE = h → isOn s.toChip .fig = true →
          (r.state = .unsettled → waits → AcceptedWith (.resolveSettle q) s q (fun t =>
            settles t ∧ fld (reg t.toChip aCUT_RESOLVE) 15 8 = 0)) ∧
          (arriving s.toChip i = true → AcceptedWith (.resolveDiscard q) s q (fun t =>
            (applied t i).state = .free ∧ fld (reg t.toChip aCUT_RESOLVE) 15 8 = 0 ∧
            only t { r with state := .discarded, reckoned := 0, reclaimed := true, ended := true })) ∧
          (arriving s.toChip i = false → AcceptedWith (.resolveDiscard q) s q (fun t =>
            only t r ∧ fld (reg t.toChip aCUT_RESOLVE) 15 8 = 0x21)))))

/-! ### CKPT (R407-R425) -/

/-- The payloads of the packets that a connection has sent and not closed, or holds to send. -/
abbrev sentPayloads (t : State) (n : Nat) : List (List Byte) :=
  (conn t.toChip n).txOpen.map (·.pkt.payload) ++ (conn t.toChip n).txWait.map (·.1.payload)

/-- One mark was written at the next member, whose connection takes no events (R413). -/
abbrev MarkSent (s t : State) (m : Mark) : Prop :=
  let n := ckConn s.toChip
  (conn s.toChip n).mgmt = false → sentPayloads t n = sentPayloads s n ++ [markBytes m]

/-- The number of the next round. -/
abbrev nextRound (c : Chip) : Nat := max c.ckpt.round c.ckpt.topRound + 1

/-- A mark of this leader. -/
abbrev leaderMark (c : Chip) (typ flags : Byte) (round epoch : Nat) (cand0 cand1 : Word) : Mark :=
  { typ := typ, flags := flags, origin := BitVec.ofNat 8 (ckMember c), hops := 0, round := w32 round, epoch := w32 epoch,
    cand0 := cand0, cand1 := cand1, crcOk := true }

/-- The word of an epoch that names none. -/
abbrev noneWord : Word := 0xFFFFFFFF

/-- Rounds and marks (R413, R414, R425): the timer, the steps, NOW and a lost mark each start a round with PREPARE; a member
raises and forwards PREPARE and forwards SNAP; PREPARE at the leader becomes SNAP; and each takes its snapshot at once or
skips it. A mark that fails its CRC or is of an older round changes nothing. -/
def Obligations.CkptRounds : Prop :=
  ∀ s : State, Awake s.toChip →
    let k := s.ckpt
    let r := nextRound s.toChip
    let e1 := lastEpoch s.toChip + 1
    let started := withCkpt s.toChip { k with round := r, topRound := r, outstanding := some 1, stepsSince := 0 }
    let asks := fun (t : State) => MarkSent s t (leaderMark s.toChip 1 0 r e1 noneWord noneWord)
    (mayRound s.toChip = true →
      (reg s.toChip aCKPT_TIMER ≠ 0 → Quietly .ckptTimerExpiry s started asks) ∧
      (reg s.toChip aCKPT_STEPS ≠ 0 → (reg s.toChip aCKPT_STEPS).toNat ≤ k.stepsSince →
        Quietly .ckptStepsReached s started asks) ∧
      (∀ q, Reaches s.toChip q .ckpt → Accepted (.ckptNow q) s q started asks)) ∧
    (mayRound s.toChip = false →
      exec .ckptTimerExpiry s = .next (after s s.toChip) ∧ exec .ckptStepsReached s = .next (after s s.toChip) ∧
      (∀ q, Reaches s.toChip q .ckpt → Answered (.ckptNow q) s q (if ckLeader s.toChip then 0x20 else 0x21) s.toChip
        (fun t => t.ckpt = k))) ∧
    (isOn s.toChip .ckpt = true → ckLeader s.toChip = true → k.outstanding.isSome = true → k.phase ≠ .restore →
      Quietly .markTimeout s started (fun t => asks t ∧ Event t .ckpt 19)) ∧
    (∀ m : Mark, (m.crcOk = false ∨ m.round.toNat < k.topRound) →
      exec (.markPrepareRx m) s = .next (after s s.toChip) ∧ exec (.markSnapRx m) s = .next (after s s.toChip) ∧
      exec (.markRestoreQueryRx m) s = .next (after s s.toChip) ∧ exec (.markRestoreGoRx m) s = .next (after s s.toChip)) ∧
    (∀ m : Mark, Handles s.toChip m 1 →
      (ckLeader s.toChip = false → Quietly (.markPrepareRx m) s
        (withCkpt s.toChip { k with topRound := m.round.toNat })
        (fun t => MarkSent s t { m with epoch := w32 (max m.epoch.toNat e1), hops := m.hops + 1 })) ∧
      (returned s.toChip m 1 = true → k.phase = .idle → isOn s.toChip .ckpt = true → Quietly (.markPrepareRx m) s
        (withCkpt s.toChip { k with
          topRound := m.round.toNat, outstanding := some 2, phase := .snapshot, snapEpoch := some m.epoch.toNat })
        (fun t => MarkSent s t (leaderMark s.toChip 2 0 k.round m.epoch.toNat noneWord noneWord) ∧
          lastEpoch t.toChip = max (lastEpoch s.toChip) m.epoch.toNat))) ∧
    (∀ m : Mark, Handles s.toChip m 2 →
      (ckLeader s.toChip = false → k.phase = .idle → isOn s.toChip .ckpt = true → Quietly (.markSnapRx m) s
        (withCkpt s.toChip { k with
          topRound := m.round.toNat, phase := .snapshot, snapEpoch := some m.epoch.toNat })
        (fun t => MarkSent s t { m with hops := m.hops + 1 } ∧
          lastEpoch t.toChip = max (lastEpoch s.toChip) m.epoch.toNat)) ∧
      (ckLeader s.toChip = false → k.phase ≠ .idle → Quietly (.markSnapRx m) s
        (withCkpt s.toChip { k with topRound := m.round.toNat })
        (fun t => MarkSent s t { m with hops := m.hops + 1 } ∧ Counted s t aCKPT_SKIP_CNT 1 ∧ Event t .ckpt 18)) ∧
      (returned s.toChip m 2 = true → exec (.markSnapRx m) s = .next (after s
        (withCkpt s.toChip { k with topRound := m.round.toNat, outstanding := none }))))

/-- The shard (R409-R412, R415-R417): the snapshot point takes the body as it stands and sends it, or abandons it; the first
write to a pending region copies it, or abandons the shard; with the body acknowledged the header follows with COMPLETE
1, and with the header acknowledged CKPT_COMMIT commits and the frees that wait are counted. -/
def Obligations.CkptShard : Prop :=
  ∀ s : State, Awake s.toChip → s.fig.committed = [] →
    let k := s.ckpt
    let n := ckConn s.toChip
    let gives := fun (t : State) => t.ckpt.phase = .idle ∧ t.ckpt.shard = [] ∧ t.ckpt.pending = [] ∧ t.ckpt.bounced = [] ∧
      Counted s t aCKPT_FAIL_CNT 1 ∧ Event t .ckpt 17
    let bodyBytes := shardBody s.toChip (ckTailBf16 s.toChip)
    let head := fun e => shardHeader s.toChip e (shardSessions s.toChip).length s.fig.seq
      ((shardSessions s.toChip).map (refCount s.toChip)).sum (2 * b2n (ckTailBf16 s.toChip)) bodyBytes
    let fits := 128 + bodyBytes.length ≤ ckGenBytes s.toChip ∧ (conn s.toChip n).state = .open
    (∀ e, k.snapEpoch = some e → k.phase = .snapshot → noSteps s.toChip →
      (¬ fits → Completes .snapshotPoint s (fun t => gives t ∧ t.ckpt.snapEpoch = none ∧
        reg t.toChip (genReg (shardGen s.toChip)) = noneWord)) ∧
      (fits → Completes .snapshotPoint s (fun t => reg t.toChip (genReg (shardGen s.toChip)) = noneWord ∧
        t.ckpt = { k with
          phase := .stream, snapEpoch := none, pending := pendingRegions s.toChip, bounced := []
          shard := head e ++ bodyBytes, shardEpoch := e, shardGen := shardGen s.toChip
          shardFlags := 2 * b2n (ckTailBf16 s.toChip), figHead := s.fig.seq, bodyAcked := false
          flushing := if ckFlush s.toChip then some (unflushed s.toChip) else none } ∧
        ((ckFlush s.toChip = true → ∀ b ∈ unflushed s.toChip, hdrOk (blockBytes s.toChip b) = true) → t.mem = s.mem ∧
          Queued s t n (1 + (bodyBytes.length + 4095) / 4096))))) ∧
    (∀ p, (schedPart s.toChip p).step.isSome = true → p < 8 → exec .snapshotPoint s = .next (after s s.toChip)) ∧
    (∀ a : BitVec 38,
      let g := a.toNat / 4096
      (k.phase ≠ .stream ∨ g ∉ k.pending → exec (.copyBeforeWrite a) s = .next (after s s.toChip)) ∧
      (k.phase = .stream → g ∈ k.pending →
        (ckBounce s.toChip < (k.bounced.length + 1) * 4096 → Completes (.copyBeforeWrite a) s (fun t =>
          gives t ∧ Counted s t aCKPT_STALL_CNT 1)) ∧
        (heapServes s.toChip 0 = false → Completes (.copyBeforeWrite a) s (fun t =>
          gives t ∧ Counted s t aCKPT_STALL_CNT 1)) ∧
        (∀ b c, (k.bounced.length + 1) * 4096 ≤ ckBounce s.toChip → heapServes s.toChip 0 = true →
          heapAlloc (bump s.toChip aCKPT_STALL_CNT 1) 0 4096 = some (b, c) → Completes (.copyBeforeWrite a) s (fun t =>
            t.ckpt = { k with pending := k.pending.filter (fun x => x ≠ g), bounced := k.bounced ++ [b] } ∧
            memRead t.mem b 4096 = memRead s.mem (g * 4096) 4096 ∧
            (∀ x, (x < b ∨ b + 4096 ≤ x) → memGet t.mem x = memGet s.mem x) ∧ Counted s t aCKPT_STALL_CNT 1)))) ∧
    (k.phase = .stream → k.bodyAcked = false → useClosed s.toChip n .shardBody = true →
      useNak s.toChip n .shardBody = none → flushedNow s.toChip = true →
      let done := shardHeader s.toChip k.shardEpoch (rdLE k.shard 12 4) k.figHead (rdLE k.shard 0x28 4)
        (k.shardFlags + 1 + 4 * b2n k.flushing.isSome) (k.shard.drop 128)
      Completes .shardBodyAcked s (fun t => t.mem = s.mem ∧ Queued s t n 1 ∧ t.ckpt = { k with
        pending := [], bounced := [], bodyAcked := true, shard := done ++ k.shard.drop 128 })) ∧
    (k.phase = .stream → k.bodyAcked = true → useClosed s.toChip n .shardHeader = true →
      useNak s.toChip n .shardHeader = none → FigIdle s.toChip → isUp s.toChip .fig = true → s.flt.chipPending = false →
      Completes .shardCommitted s (fun t => reg t.toChip (genReg k.shardGen) = w32 k.shardEpoch ∧
        t.fig.seq = s.fig.seq + 1 ∧ Event t .ckpt 16 ∧
        t.ckpt = { k with phase := .idle, shard := [], bodyAcked := false } ∧
        (s.flash.heldFrees = [] → ∀ i, (body t.toChip i).ckptWait = (body s.toChip i).ckptWait - 1)))

/-- Restore (R408, R418-R421, R424): RESTORE_CTRL refuses, or offers the complete generations that were read and, at the
leader, asks the ring; the query keeps the epochs that every member of the set holds; GO chooses the newest of them or
ends the restore with MIXED; the rebuild ends it; the host resolves HELD sessions; and a write of NEXT_AREA_TAG forgets
the generations. -/
def Obligations.CkptRestore : Prop :=
  ∀ s : State, Awake s.toChip →
    let k := s.ckpt
    let r := nextRound s.toChip
    let status := fun (t : State) => fld (reg t.toChip aCKPT_RESTORE_CTRL) 15 8
    let ended := fun (t : State) (st : Nat) => t.ckpt.phase = .idle ∧ t.ckpt.offered = [] ∧ t.ckpt.chosen = none ∧
      status t = st ∧ Event t .ckpt 20 ∧ (st = 0x61 → Event t .ckpt 21)
    let idle := { k with phase := .idle, offered := [], chosen := none }
    (∀ q (g0 g1 : List Byte), Reaches s.toChip q .ckpt →
      let offer := ([(0, g0), (1, g1)] : List (Nat × List Byte)).filter (fun o => shardOk o.2)
      let own := offer.map (fun o => shardEpochOf o.2)
      (armed s.toChip q .ckpt = false → Answered (.restoreStart q g0 g1) s q 0x21 s.toChip (fun t => Event t .ckpt 3)) ∧
      (armed s.toChip q .ckpt = true →
        (restoreRefusal s.toChip ≠ 0 → Answered (.restoreStart q g0 g1) s q (BitVec.ofNat 8 (restoreRefusal s.toChip))
          s.toChip (fun t => status t = restoreRefusal s.toChip)) ∧
        (restoreRefusal s.toChip = 0 → ckInSet s.toChip = true → ckLeader s.toChip = false →
          Accepted (.restoreStart q g0 g1) s q
            (withCkpt s.toChip { k with phase := .restore, offered := offer, chosen := none }) (fun _ => True)) ∧
        (restoreRefusal s.toChip = 0 → ckInSet s.toChip = true → ckLeader s.toChip = true →
          Accepted (.restoreStart q g0 g1) s q (withCkpt s.toChip { k with
            phase := .restore, offered := offer, chosen := none, round := r, topRound := r, outstanding := some 3 })
            (fun t => MarkSent s t (leaderMark s.toChip 3 0 r 0 (candWord own 0) (candWord own 1)))) ∧
        (restoreRefusal s.toChip = 0 → ckInSet s.toChip = false → ckLeader s.toChip = true →
          Accepted (.restoreStart q g0 g1) s q (withCkpt s.toChip { k with
            round := r, topRound := r, outstanding := some 3 })
            (fun t => MarkSent s t (leaderMark s.toChip 3 2 r 0 noneWord noneWord))))) ∧
    (∀ m : Mark, Handles s.toChip m 3 →
      let top := { k with topRound := m.round.toNat }
      (ckLeader s.toChip = false → ckInSet s.toChip = false → Quietly (.markRestoreQueryRx m) s (withCkpt s.toChip top)
        (fun t => MarkSent s t { m with hops := m.hops + 1 })) ∧
      (ckLeader s.toChip = false → ckInSet s.toChip = true → k.phase = .restore →
        let own := ownEpochs s.toChip
        let l := if m.flags.getLsbD 1 then own else (candsOf m).filter (fun e => e ∈ own)
        Quietly (.markRestoreQueryRx m) s (withCkpt s.toChip top) (fun t => MarkSent s t { m with
          hops := m.hops + 1, flags := m.flags &&& 0xFD, cand0 := candWord l 0, cand1 := candWord l 1 })) ∧
      (returned s.toChip m 3 = true → k.phase = .restore → ckInSet s.toChip = true →
        let l := candsOf m
        let e := l.foldl max 0
        ((l = [] ∨ m.flags.getLsbD 1 = true) → Quietly (.markRestoreQueryRx m) s
          (withCkpt s.toChip { idle with topRound := m.round.toNat, outstanding := some 4 })
          (fun t => ended t 0x61 ∧ MarkSent s t (leaderMark s.toChip 4 1 k.round noEpoch noneWord noneWord))) ∧
        (l ≠ [] → m.flags.getLsbD 1 = false → e ∈ ownEpochs s.toChip → Quietly (.markRestoreQueryRx m) s
          (withCkpt s.toChip { top with outstanding := some 4, chosen := some e })
          (fun t => MarkSent s t (leaderMark s.toChip 4 0 k.round e noneWord noneWord))))) ∧
    (∀ m : Mark, Handles s.toChip m 4 →
      let top := { k with topRound := m.round.toNat }
      let on := fun (t : State) => MarkSent s t { m with hops := m.hops + 1 }
      (returned s.toChip m 4 = true → exec (.markRestoreGoRx m) s =
        .next (after s (withCkpt s.toChip { top with outstanding := none }))) ∧
      (ckLeader s.toChip = false → (k.phase ≠ .restore ∨ ckInSet s.toChip = false) →
        Quietly (.markRestoreGoRx m) s (withCkpt s.toChip top) on) ∧
      (ckLeader s.toChip = false → k.phase = .restore → ckInSet s.toChip = true →
        ((m.flags.getLsbD 0 = true ∨ m.epoch.toNat ∉ ownEpochs s.toChip) → Quietly (.markRestoreGoRx m) s
          (withCkpt s.toChip { idle with topRound := m.round.toNat }) (fun t => on t ∧ ended t 0x61)) ∧
        (m.flags.getLsbD 0 = false → m.epoch.toNat ∈ ownEpochs s.toChip → Quietly (.markRestoreGoRx m) s
          (withCkpt s.toChip { top with chosen := some m.epoch.toNat }) on))) ∧
    (∀ e, k.phase = .restore → k.chosen = some e →
      Quietly (.restoreRebuildDone none) s (withCkpt s.toChip idle) (fun t => ended t 0x11) ∧
      (∀ l, (shardOk l = false ∨ shardEpochOf l ≠ e) →
        Quietly (.restoreRebuildDone (some l)) s (withCkpt s.toChip idle) (fun t => ended t 0x11)) ∧
      (∀ l, shardOk l = true → shardEpochOf l = e → Completes (.restoreRebuildDone (some l)) s (fun t =>
        ended t 0 ∧ reg t.toChip aCKPT_RESTORE_EPOCH = w32 e ∧ reg t.toChip aCKPT_LAST_EPOCH = w32 e ∧
        (shardRecords l = [] → t.cuts = [] ∧ (∀ i, (entry t.toChip i).state = .free) ∧
          rdLE l 0x10 8 < t.fig.seq ∧ t.fig.applied = t.fig.seq ∧ t.fig.committed = [])))) ∧
    (k.chosen = none → ∀ l, exec (.restoreRebuildDone l) s = .next (after s s.toChip)) ∧
    (∀ q, Reaches s.toChip q .ckpt → FigIdle s.toChip → isOn s.toChip .fig = true → s.flt.chipPending = false →
      let i := hIdx (reg s.toChip aCKPT_CUT_HANDLE)
      let e := entry s.toChip i
      let st := fun (t : State) => fld (reg t.toChip aCKPT_CUT_RESOLVE) 15 8
      armed s.toChip q .ckpt = true →
        (sessionAt s.toChip (reg s.toChip aCKPT_CUT_HANDLE) = some i → e.state = .held → srcCut s.toChip i = none →
          AcceptedWith (.ckptCutReclaim q) s q (fun t => (entry t.toChip i).state = .sitout ∧
            (entry t.toChip i).epoch = e.epoch + 2 ∧ (entry t.toChip i).gen = e.gen ∧ st t = 0) ∧
          AcceptedWith (.ckptCutDrop q) s q (fun t => Discarded s t i ∧ st t = 0)) ∧
        (e.state ≠ .held →
          Answered (.ckptCutReclaim q) s q 0x21 s.toChip (fun t => entry t.toChip i = e ∧ st t = 0x21) ∧
          Answered (.ckptCutDrop q) s q 0x21 s.toChip (fun t => entry t.toChip i = e ∧ st t = 0x21))) ∧
    (∀ q w, Reaches s.toChip q .ckpt → Accepted (.nextAreaTagWrite q w) s q s.toChip (fun t =>
      reg t.toChip aCKPT_NEXT_AREA_TAG = w ∧ reg t.toChip aCKPT_GEN0_EPOCH = noneWord ∧
      reg t.toChip aCKPT_GEN1_EPOCH = noneWord))

/-! ### PWR (R426-R446) -/

/-- Power (R427, R430, R434-R445): the sample's power, energy and core-rail current, and the fast limit as it halves and
releases; one learned sample as the average of weight 1/16 where it comes out even; an engine that explores; a decision
without LEARN, which puts every held row at FIXED_POINT; marking and its hold; readings, throttling and the trip, with its
record; and TRIP.CLEAR, which only the sideband may write below CLEAR_C. (How an average rounds, the predicted power and
what pacing gaps draw are the model's free values, log entry 65.) -/
def Obligations.PowerAndHeat : Prop :=
  ∀ s : State, minuetOn s.toChip = true →
    let w := s.pwr
    (∀ dw avg da : BitVec 16,
      let pl := 10 * fld (reg s.toChip aPWR_FAST) 10 0
      let il := 10 * fld (reg s.toChip aPWR_FAST) 25 16
      let above := pl < avg.toNat ∨ il < da.toNat
      let below := avg.toNat * 100 < 95 * pl ∧ da.toNat * 100 < 95 * il
      let e := w.energyUj + dw.toNat
      let measured := fun (t : State) => fld (reg t.toChip aPWR_PWR_NOW) 15 0 = avg.toNat ∧
        pair t.toChip aPWR_ENERGY_LO = (pair s.toChip aPWR_ENERGY_LO + e / 1000) % 2 ^ 64 ∧ t.pwr.energyUj = e % 1000 ∧
        fld (regB t.toChip 0 aPWR_RAIL_PWR) 31 16 = da.toNat ∧
        (pacedNow s.toChip = false → t.pwr.gapPower = w.gapPower) ∧ t.mem = s.mem ∧ t.sched = s.sched
      (w.halved = false → above → Completes (.powerSample dw avg da) s (fun t => measured t ∧ t.pwr.halved = true ∧
        Counted s t aPWR_FAST_CNT 1 ∧ Event t .pwr 17)) ∧
      (w.halved = false → ¬ above → Completes (.powerSample dw avg da) s (fun t => measured t ∧ t.pwr.halved = false ∧
        reg t.toChip aPWR_LIMIT = reg s.toChip aPWR_LIMIT)) ∧
      (w.halved = true → below → Completes (.powerSample dw avg da) s (fun t => measured t ∧ t.pwr.halved = false ∧
        fld (reg t.toChip aPWR_LIMIT) 2 1 = 0)) ∧
      (w.halved = true → ¬ below → Completes (.powerSample dw avg da) s (fun t => measured t ∧ t.pwr.halved = true))) ∧
    (∀ l, learnOn s.toChip = false → exec (.pwrLearn l) s = .next (after s s.toChip)) ∧
    (∀ x : LearnSample, learnOn s.toChip = true → Completes (.pwrLearn [x]) s (fun t =>
      let k := x.cls.toNat * 16 + x.point.toNat
      let old := classAt s.toChip x.cls.toNat x.point.toNat
      let new := classAt t.toChip x.cls.toNat x.point.toNat
      let even := fun (o v n : Nat) => o ≠ 0 → (15 * o + v) / 16 < 65535 →
        n = (15 * o + v) / 16 ∨ ((15 * o + v) % 16 ≠ 0 ∧ n = (15 * o + v) / 16 + 1)
      even old.1 x.nj new.1 ∧ even old.2 x.ns new.2 ∧
      (∀ j, j ≠ k → tget (0, 0) t.pwr.classes j = tget (0, 0) w.classes j) ∧ t.mgmt = s.mgmt)) ∧
    (∀ (p : Part) (k : EngineKind) (up : Bool) (y : Nat) (rest : List Nat),
      let key := p.toNat * 2 + engineIdx k
      let base := rowPoint s.toChip y
      engineRows s.toChip p.toNat k = y :: rest → learnOn s.toChip = true → reg s.toChip aPWR_EXPLORE ≠ 0 →
      w.throttled = false →
      (tfind w.exploring key = none → (if up then base ≠ 15 else base ≠ 0) → Completes (.pwrExplore p k up) s (fun t =>
        t.pwr = { w with exploring := tins w.exploring key (base, 64) } ∧
        (∀ z ∈ y :: rest, rowPoint t.toChip z = if up then base + 1 else base - 1) ∧
        (∀ z, z < 16 → z ∉ y :: rest → rowPoint t.toChip z = rowPoint s.toChip z))) ∧
      ((tfind w.exploring key).isSome = true ∨ (if up then base = 15 else base = 0) →
        exec (.pwrExplore p k up) s = .next (after s s.toChip))) ∧
    (∀ (ratio : Nat) (cy : List (Nat × Nat)) (avg : BitVec 16),
      (w.throttled = true → Completes (.pwrDecide ratio cy avg) s (fun t =>
        fld (reg t.toChip aPWR_PWR_AVG) 15 0 = avg.toNat ∧ t.pwr = w ∧
        ∀ y, y < 16 → rowPoint t.toChip y = rowPoint s.toChip y)) ∧
      (w.throttled = false → learnOn s.toChip = false → w.exploring = [] → Completes (.pwrDecide ratio cy avg) s (fun t =>
        fld (reg t.toChip aPWR_PWR_AVG) 15 0 = avg.toNat ∧
        (∀ p y, p < 8 → y ∈ rowsOf s.toChip p → rowPoint t.toChip y = fld (reg s.toChip aPWR_CTRL) 15 12) ∧
        (∀ y, y < 16 → (∀ p, p < 8 → y ∉ rowsOf s.toChip p) → rowPoint t.toChip y = rowPoint s.toChip y)))) ∧
    (∀ (row : BitVec 4) (est i0 n : Nat), Awake s.toChip →
      let y := row.toNat
      (bit (reg s.toChip aPWR_CTRL) 1 = false ∨ rowWaits s.toChip y = false →
        exec (.markEstimate row est i0 n) s = .next (after s { s.toChip with pwr := { w with
          marking := tdel w.marking y, markDone := w.markDone.filter (· ≠ y) } })) ∧
      (bit (reg s.toChip aPWR_CTRL) 1 = true → rowWaits s.toChip y = true → y ∉ w.markDone →
        let need := markBound s.toChip y i0 n - est
        Completes (.markEstimate row est i0 n) s (fun t =>
          let fill := tget 0 t.pwr.marking y
          fill ≤ need ∧ (fill < need → Event t .pwr 21 ∧ Counted s t aPWR_MARK_SHORT 1) ∧
          (∀ z, z ≠ y → tget 0 t.pwr.marking z = tget 0 w.marking z) ∧
          (let e := w.markRem + fill * (550 + 20 * rowPoint s.toChip y)
           t.pwr.markRem = e % 10 ^ 10 ∧ Counted s t aPWR_MARK_ENERGY (e / 10 ^ 10)))) ∧
      (tget 0 w.marking y ≠ 0 → y ∉ w.markDone → exec (.markHoldExpiry row) s =
        .next (after s { s.toChip with pwr := { w with markDone := w.markDone ++ [y] } })) ∧
      (tget 0 w.marking y = 0 → exec (.markHoldExpiry row) s = .next (after s s.toChip))) ∧
    (∀ (l : List SiteReading) (tj site : Nat), hottest l = some (tj, site) →
      let th := reg s.toChip aPWR_THERM
      let hot := 8 * between 85 105 (fld th 7 0)
      let read := fun (t : State) => tjNow t.toChip = tj ∧ fld (reg t.toChip aPWR_TJ) 20 16 = site
      (w.throttled = false → w.tripped = false → hot ≤ tj → Completes (.thermalRead l) s (fun t => read t ∧
        t.pwr.throttled = true ∧ t.pwr.throttlePace = 0 ∧ bit (reg t.toChip aPWR_LIMIT) 3 = true ∧
        Counted s t aPWR_THROTTLE_CNT 1 ∧ Event t .pwr 18)) ∧
      (w.throttled = false → tj < hot → Completes (.thermalRead l) s (fun t => read t ∧ t.pwr.throttled = false)) ∧
      (w.throttled = true → tj < hot - 8 * max 1 (fld th 15 8) → Completes (.thermalRead l) s (fun t => read t ∧
        t.pwr.throttled = false ∧ t.pwr.throttlePace = 0 ∧ bit (reg t.toChip aPWR_LIMIT) 3 = false)) ∧
      (w.throttled = true → hot - 8 * max 1 (fld th 15 8) ≤ tj → Completes (.thermalRead l) s (fun t => read t ∧
        t.pwr.throttled = true ∧ t.pwr.throttlePace = w.throttlePace))) ∧
    (∀ r : SiteReading,
      let n := tget 0 w.disagree r.site.toNat
      (siteDiffers r = false → Completes (.thermalRead [r]) s (fun t => tget 0 t.pwr.disagree r.site.toNat = 0 ∧
        bit (reg t.toChip aPWR_SENSOR_FAULT) r.site.toNat = false)) ∧
      (siteDiffers r = true → n = 3 → Completes (.thermalRead [r]) s (fun t => tget 0 t.pwr.disagree r.site.toNat = 4 ∧
        bit (reg t.toChip aPWR_SENSOR_FAULT) r.site.toNat = true ∧ Event t .pwr 20 ∧ Logged s t 0x16 1))) ∧
    (w.throttled = false → exec .throttleStep s = .next (after s s.toChip)) ∧
    (w.throttled = true →
      ((∀ y, y < 16 → rowPoint s.toChip y = 0) → exec .throttleStep s =
        .next (after s { s.toChip with pwr := { w with throttlePace := min 100 (w.throttlePace + 10) } })) ∧
      (∀ z, z < 16 → rowPoint s.toChip z ≠ 0 → Completes .throttleStep s (fun t => t.pwr = w ∧
        ∀ y, y < 16 → rowPoint t.toChip y = rowPoint s.toChip y - 1))) ∧
    (∀ site : BitVec 5,
      (w.tripped = true → exec (.thermalTrip site) s = .next (after s s.toChip)) ∧
      (w.tripped = false → Completes (.thermalTrip site) s (fun t =>
        t.pwr = { w with tripped := true, marking := [], markDone := [] } ∧ bit (reg t.toChip aPWR_TRIP) 0 = true ∧
        fld (reg t.toChip aPWR_TRIP) 31 16 = min 0xFFFF (fld (reg s.toChip aPWR_TRIP) 31 16 + 1) ∧
        (s.flt.headKnown = false → s.flt.queue.length < 64 →
          ∃ x, t.flt.queue = s.flt.queue ++ [x] ∧ bbKind x = 5))) ∧
      (∀ b, exec (.comparatorExercise site b) s = .next (after s s.toChip))) ∧
    (∀ (r : Requester) (d : Word), Reaches s.toChip r .pwr → armed s.toChip r .pwr = true → bit d 1 = true →
      let clear := w.tripped = true ∧ r = .sideband ∧ tjNow s.toChip < 8 * between 60 100 (fld d 15 8)
      (clear → AcceptedWith (.tripClear r d) s r (fun t => t.pwr = { w with tripped := false } ∧
        bit (reg t.toChip aPWR_TRIP) 0 = false ∧ Event t .pwr 19 ∧ Logged s t 0x17 1)) ∧
      (¬ clear → Answered (.tripClear r d) s r 0x21 s.toChip (fun t => t.pwr = w)))

/-! ### SEC and TEL (R447-R471) -/

/-- A requester that exists and whose accesses to SEC are served, with its partition and the bank it reaches (R454). -/
abbrev secBank (c : Chip) (r : Requester) : Nat := bankFor c (reqPart c r) .secPart

/-- Partitions (R448-R461): PART_CTRL checks and validates, takes an unused tenant to SCRUBBING, or purges it; the purge and
the scrub end; measurements extend; and a partition gives and withdraws its consent, which closes what depended on it. A
guarded write without the unlock is refused. -/
def Obligations.Partitions : Prop :=
  ∀ s : State,
    let others := fun (t : State) (p : Nat) => ∀ q, q ≠ p → secPart t.toChip q = secPart s.toChip q
    let status := fun (t : State) (p : Nat) => fld (regB t.toChip p aSEC_PART_CTRL) 23 16
    (∀ r, Reaches s.toChip r .sec →
      let p := bankFor s.toChip 0 .secPart
      let x := secPart s.toChip p
      (armed s.toChip r .sec = false →
        Answered (.partValidate r) s r 0x21 s.toChip (fun t => Event t .sec 3) ∧
        Answered (.partInvalidate r) s r 0x21 s.toChip (fun t => Event t .sec 3) ∧
        Answered (.partPurge r) s r 0x21 s.toChip (fun t => Event t .sec 3)) ∧
      (armed s.toChip r .sec = true →
        (x.state = .invalid →
          (partCheck s.toChip p = 0 → AcceptedWith (.partValidate r) s r (fun t => others t p ∧ Event t .sec 16 ∧
            status t p = 0 ∧ t.sec.chipDebug = false ∧ secPart t.toChip p = { x with
              state := .valid, purged := false, debug := false, profile := false, mp0 := sha256 (partImage s.toChip p)
              mp1 := List.replicate 32 0, extend := [] })) ∧
          (partCheck s.toChip p ≠ 0 → Accepted (.partValidate r) s r s.toChip (fun t =>
            status t p = partCheck s.toChip p))) ∧
        (x.state = .valid →
          Accepted (.partValidate r) s r s.toChip (fun _ => True) ∧
          (p ≠ 0 → tenantUsed s.toChip p = false → AcceptedWith (.partInvalidate r) s r (fun t =>
            others t p ∧ Event t .sec 16 ∧ status t p = 0 ∧
            secPart t.toChip p = { x with state := .scrubbing, purged := false, debug := false, profile := false })) ∧
          ((p = 0 ∨ tenantUsed s.toChip p = true) → Answered (.partInvalidate r) s r 0x21 s.toChip (fun t =>
            status t p = 0x21)) ∧
          (p ≠ 0 → Vacant s.toChip p → FigIdle s.toChip → AcceptedWith (.partPurge r) s r (fun t =>
            others t p ∧ Event t .sec 16 ∧ status t p = 0 ∧
            secPart t.toChip p = { x with state := .purging, purged := true, debug := false, profile := false }))) ∧
        (x.state = .purging ∨ x.state = .scrubbing → Answered (.partValidate r) s r 0x21 s.toChip (fun t =>
          status t p = 0x21)) ∧
        (p = 0 ∨ x.state ≠ .valid → Answered (.partPurge r) s r 0x21 s.toChip (fun t => status t p = 0x21)))) ∧
    (∀ part : Part, Awake s.toChip →
      let p := part.toNat
      let x := secPart s.toChip p
      (x.state = .purging → Vacant s.toChip p → FigIdle s.toChip → Completes (.purgeDrained part) s (fun t =>
        others t p ∧ Event t .sec 16 ∧ secPart t.toChip p = { x with state := .scrubbing })) ∧
      (x.state ≠ .purging → exec (.purgeDrained part) s = .next (after s s.toChip)) ∧
      (x.state = .scrubbing →
        let groups := partMask s.toChip p / 2 ^ 8 % 2 ^ 8
        let group := fun a => if bit (reg s.toChip aGDR_INTERLEAVE) 0 then a / 2 ^ 35 else channelOf s.toChip a / 4
        Completes (.partScrubDone part) s (fun t => others t p ∧ Event t .sec 16 ∧ (x.purged = true → Event t .sec 17) ∧
          secPart t.toChip p = { x with state := .invalid, purged := false } ∧
          (∀ a, memGet t.mem a = if nbit groups (group a) then 0 else memGet s.mem a) ∧
          (∀ o ∈ t.flash.objects, dieAt s.toChip o.1 ∉ diesFor s.toChip p))) ∧
      (x.state ≠ .scrubbing → exec (.partScrubDone part) s = .next (after s s.toChip))) ∧
    (∀ (r : Requester) (d : Word), requesterUp s.toChip r = true → fastServed s.toChip = true →
      let p := secBank s.toChip r
      let x := secPart s.toChip p
      (reqPart s.toChip r = p →
        AcceptedWith (.extend r d) s r (fun t => others t p ∧ secPart t.toChip p = { x with
          extend := tset 0 x.extend 7 d
          mp1 := sha256 (x.mp1 ++ (List.range 7).flatMap (fun j => leBytes 4 (tget 0 x.extend j).toNat) ++
            leBytes 4 d.toNat) }) ∧
        AcceptedWith (.consentWrite r d) s r (fun t => others t p ∧
          secPart t.toChip p = { x with debug := bit d 0, profile := bit d 1 } ∧
          (x.debug ≠ bit d 0 ∨ x.profile ≠ bit d 1 → Event t .sec 18) ∧
          (x.debug = true → bit d 0 = false → t.sec.chipDebug = false ∧ t.sec.partDebug ≠ some p) ∧
          (x.profile = true → bit d 1 = false → t.sec.tracing ≠ some p))) ∧
      (reqPart s.toChip r ≠ p →
        Answered (.extend r d) s r 0x22 s.toChip (fun t => secPart t.toChip p = x) ∧
        Answered (.consentWrite r d) s r 0x22 s.toChip (fun t => secPart t.toChip p = x)))

/-- Debug, lifecycle fuses, trace, telemetry and attestation (R457, R459-R466, R470, R471): what opens on consent and what
closes it, the debug window, fuses that only rise, the trace, the coarsened snapshot and the power average, and an ATTEST
request answered with its counter, held through a self-test, or refused. -/
def Obligations.DebugAndTelemetry : Prop :=
  ∀ s : State,
    let x := s.sec
    (∀ r, Reaches s.toChip r .sec →
      let all := (parts8.filter (fun p => (secPart s.toChip p).state = .valid)).all (fun p => (secPart s.toChip p).debug)
      (all = true → Accepted (.chipDebugReq r) s r
        { s.toChip with sec := { x with chipDebug := true, everDebug := true } } (fun t => Event t .sec 19)) ∧
      (all = false → Answered (.chipDebugReq r) s r 0x22 s.toChip (fun t =>
        fld (reg t.toChip aSEC_CHIP_DEBUG) 31 24 = 0x22)) ∧
      (x.chipDebug = true → Accepted (.chipDebugClose r) s r { s.toChip with
        sec := { x with chipDebug := false }, tap := { s.tap with instr := .idcode } } (fun _ => True)) ∧
      (x.chipDebug = false → Accepted (.chipDebugClose r) s r s.toChip (fun _ => True)) ∧
      (∀ part : Part,
        let y := secPart s.toChip part.toNat
        (y.state = .valid → y.debug = true → Accepted (.dbgOpen r part) s r
          { s.toChip with sec := { x with partDebug := some part.toNat } } (fun t => Event t .sec 19 ∧
            fld (reg t.toChip aSEC_DBG_CTRL) 2 0 = part.toNat)) ∧
        (y.state ≠ .valid ∨ y.debug = false → Answered (.dbgOpen r part) s r 0x22 s.toChip (fun t =>
          fld (reg t.toChip aSEC_DBG_CTRL) 31 24 = 0x22))) ∧
      Accepted (.dbgClose r) s r { s.toChip with sec := { x with partDebug := none } } (fun _ => True) ∧
      (let d := dbgAddr s.toChip
       (dbgAllowed s.toChip = false → Completes (.dbgDataRead r) s (fun t =>
         t.mgmt.acc = { status := 0x22, data := 0 } ∧ dbgAddr t.toChip = d ∧ desk t.toChip = desk s.toChip)) ∧
       (dbgAllowed s.toChip = true → d.1 = true → Completes (.dbgDataRead r) s (fun t =>
         t.mgmt.acc = { status := 0, data := w32 (leNat (coreRead (coreAt s.toChip d.2.1) d.2.2 4)) } ∧
         dbgAddr t.toChip = (true, d.2.1, (d.2.2 + 4) % 2 ^ 20) ∧ desk t.toChip = desk s.toChip)) ∧
       (dbgAllowed s.toChip = true → d.1 = false → Completes (.dbgDataRead r) s (fun t =>
         t.mgmt.acc = { status := 0, data := w32 (leNat (viewRead s.toChip d.2.2 4)) } ∧
         dbgAddr t.toChip = (false, 0, (d.2.2 + 4) % 2 ^ 38) ∧ desk t.toChip = desk s.toChip))) ∧
      (∀ v : Word,
        let svn := fld (reg s.toChip aSEC_ROLLBACK) 5 0
        let keys := fld (reg s.toChip aSEC_KEY_REVOKE) 3 0
        let more := Nat.lor keys (fld v 3 0)
        (armed s.toChip r .sec = false →
          Answered (.rollbackRaise r v) s r 0x21 s.toChip (fun t => reg t.toChip aSEC_ROLLBACK = reg s.toChip aSEC_ROLLBACK) ∧
          Answered (.keyRevoke r v) s r 0x21 s.toChip (fun t => reg t.toChip aSEC_KEY_REVOKE = reg s.toChip aSEC_KEY_REVOKE)) ∧
        (armed s.toChip r .sec = true →
          (svn < fld v 5 0 → Accepted (.rollbackRaise r v) s r s.toChip (fun t =>
            fld (reg t.toChip aSEC_ROLLBACK) 5 0 = fld v 5 0)) ∧
          (fld v 5 0 ≤ svn → Answered (.rollbackRaise r v) s r 0x21 s.toChip (fun t =>
            fld (reg t.toChip aSEC_ROLLBACK) 5 0 = svn)) ∧
          (more ≠ 15 → Accepted (.keyRevoke r v) s r s.toChip (fun t =>
            fld (reg t.toChip aSEC_KEY_REVOKE) 3 0 = more)) ∧
          (more = 15 → keys ≠ 15 → Answered (.keyRevoke r v) s r 0x21 s.toChip (fun t =>
            fld (reg t.toChip aSEC_KEY_REVOKE) 3 0 = keys))))) ∧
    (∀ r (part : Part), Reaches s.toChip r .tel →
      let p := part.toNat
      let y := secPart s.toChip p
      (isOn s.toChip .tel = false → Answered (.traceEnable r part) s r 0x20 s.toChip (fun _ => True)) ∧
      (isOn s.toChip .tel = true →
        (y.state = .valid → y.profile = true → Accepted (.traceEnable r part) s r { s.toChip with
          sec := if x.tracing = some p then x else { x with tracing := some p, tracePos := 0 } }
          (fun t => reg t.toChip aTEL_TRACE_CTRL = w32 (1 + p * 256))) ∧
        (y.state ≠ .valid ∨ y.profile = false → Answered (.traceEnable r part) s r 0x22 s.toChip (fun _ => True)))) ∧
    (Awake s.toChip →
      (isOn s.toChip .tel = true →
        Completes .telSnapshot s (fun t => Counted s t aTEL_SNAP_SEQ 1 ∧
          t.toChip.sec = { x with snaps := t.sec.snaps } ∧
          ∀ p o, p < 8 → o ∈ telOffsets → tget 0 t.sec.snaps (p * 64 + o / 4) = w32 (powFloor (telValue s.toChip p o))) ∧
        (∀ avg : BitVec 16, exec (.telPowerUpdate avg) s =
          .next (after s { s.toChip with sec := { x with powerAvg := avg.toNat } }))) ∧
      (isOn s.toChip .tel = false → exec .telSnapshot s = .next (after s s.toChip) ∧
        ∀ avg, exec (.telPowerUpdate avg) s = .next (after s s.toChip)) ∧
      (∀ (cn : Conn) (tag : DWord) (h : Word) (b : List Byte),
        let n := cn.toNat
        let refused := Quietly (.attest cn tag h b) s s.toChip (fun t => Spoke s t n 1 ∧
          reg t.toChip aSEC_ATTEST_CNT = reg s.toChip aSEC_ATTEST_CNT)
        (partOfConn s.toChip n = none → refused) ∧
        (∀ p, partOfConn s.toChip n = some p →
          ((partValid s.toChip p = false ∨ h ≠ 0 ∨ b.length ≠ 32 ∨ 64 ≤ x.attest.length) → refused) ∧
          (partValid s.toChip p = true → h = 0 → b.length = 32 → x.attest.length < 64 →
            ((hdr s.toChip .sec).selftest = true → exec (.attest cn tag h b) s = .next (after s { s.toChip with
              sec := { x with attest := x.attest ++ [{ conn := n, tag := tag, nonce := b }] } })) ∧
            ((hdr s.toChip .sec).selftest = false → Quietly (.attest cn tag h b) s s.toChip (fun t =>
              Spoke s t n 1 ∧ Counted s t aSEC_ATTEST_CNT 1))))))

/-! ### FLT, supplies and boot (R472-R491, R500-R504, R523) -/

/-- A new black-box record of a kind waits in the queue: the head is not known yet. -/
abbrev RecordWaits (s t : State) (kind : Nat) : Prop :=
  s.flt.headKnown = false → s.flt.queue.length < 64 → ∃ x, t.flt.queue = s.flt.queue ++ [x] ∧ bbKind x = kind

/-- The fast domain was reset (R491): it is off and waits to power up, GDDR7 is lost, and sessions, figures and connections
with it; durable objects in flash and, but for an update that is cut off, the boot NOR stand. -/
abbrev Restarted (s t : State) (cause : Nat) : Prop :=
  t.chip.fast = .off ∧ t.chip.bootState = .powering ∧ t.chip.bootDone = false ∧ t.chip.resetCause = cause ∧ t.mem = [] ∧
    t.sess = Chip.reset.sess ∧ t.fig = Chip.reset.fig ∧ t.xpt = Chip.reset.xpt ∧ t.grid = Chip.reset.grid ∧
    t.flash.objects = s.flash.objects ∧ (s.chip.updating = false → t.chip.nor = s.chip.nor)

/-- Fault reports and the alert line (R474, R475, R479, R480): a fault of its own raises its class count, loads LAST_CLASS,
LAST_INFO and LAST_ADDR and sets the event of its level; level 2 begins the chip reaction, and level 3 the module reaction,
which supersedes it (class 0x15 is a power loss of its own). A later report of the same fault counts its class, and shows
the higher level. A code that R475 does not list names no fault. A lockstep, residue or core-store fault of a core that
runs a placement asks for its test.

Module faults (R476-R478): every page of the fast domain but PEER and HOST goes to FAULT with its STATE event, GDDR7 is
abandoned, FAULTED is set, the alert line is asserted and the record of KIND 3 is written. Only the sideband, with the
unlock, resets the module; anything else is refused. -/
def Obligations.FaultReactions : Prop :=
  ((∀ f : FaultRep,
    let k := f.cls.toNat
    (k ∈ [0x01, 0x02, 0x13, 0x17] → levelOf f = 2) ∧ (k ∈ [0x09, 0x0A, 0x14, 0x15] → levelOf f = 3) ∧
    (k ∈ [0x0B, 0x0C, 0x0E, 0x1A, 0x1C] → levelOf f = 1) ∧
    (k ∈ [0x03, 0x06, 0x0F, 0x10, 0x16, 0x18, 0x1B, 0x1D, 0x1E] → levelOf f = 0) ∧
    (k = 0x12 → levelOf f = if f.higher then 3 else 2) ∧
    (k = 0x11 → levelOf f = if pageIdx f.page < 5 then 3 else 2)) ∧
  ∀ (s : State) (f : FaultRep), minuetOn s.toChip = true →
    let k := f.cls.toNat
    let l := levelOf f
    let core := coreAt s.toChip (f.info.toNat % 256)
    let tests := f.page = .grid ∧ k ∈ [0x01, 0x02, 0x04] ∧ (core.state = .busy ∨ core.state = .draining)
    let c : Chip := if k = 0x11 ∧ f.page = .tel then { s.toChip with sec := { s.sec with tracing := none } } else s.toChip
    ((k = 0 ∨ 0x1E < k) → exec (.faultReport f) s = .next (after s s.toChip)) ∧
    (tests → s.grid.tests = [] → testsRunning s.toChip < 16 →
      Completes (.faultReport f) s (fun t => Logged s t k 1 ∧ Asked s t (f.info.toNat % 256))) ∧
    (0 < k → k ≤ 0x1E → ¬ tests →
      ((sameFault s.toChip f = none ∨ f.together = false) → Quietly (.faultReport f) s c (fun t =>
        Logged s t k 1 ∧ reg t.toChip aFLT_LAST_CLASS = w32 (2 ^ 31 + pageIdx f.page * 2 ^ 16 + l * 2 ^ 8 + k) ∧
        reg t.toChip aFLT_LAST_INFO = f.info ∧ pair t.toChip aFLT_LAST_ADDR_LO = f.addr.toNat % 2 ^ 38 ∧
        Event t .flt (16 + l) ∧ t.flt.faulted = s.flt.faulted ∧
        (l ≤ 1 ∨ k = 0x15 → t.flt.chipPending = s.flt.chipPending ∧ t.flt.modulePending = s.flt.modulePending) ∧
        (l = 2 → s.flt.modulePending = false → s.flt.faulted = false → t.flt.chipPending = true) ∧
        (l = 3 → k ≠ 0x15 → t.flt.modulePending = true ∧ t.flt.chipPending = false) ∧
        (l = 1 → s.flt.faultRecs < 16 → RecordWaits s t 2) ∧
        (k = 0x11 → drainable f.page = true → bstate t.toChip f.page = .fault))) ∧
      (∀ x, sameFault s.toChip f = some x → f.together = true → l ≤ x.level →
        Quietly (.faultReport f) s c (fun t => Logged s t k 1 ∧ t.flt = s.flt ∧
          reg t.toChip aFLT_LAST_CLASS = reg s.toChip aFLT_LAST_CLASS)) ∧
      (∀ x, sameFault s.toChip f = some x → f.together = true → x.level < l →
        Quietly (.faultReport f) s c (fun t => Logged s t k 1 ∧ Event t .flt (16 + l) ∧
          reg t.toChip aFLT_LAST_INFO = reg s.toChip aFLT_LAST_INFO ∧
          (s.flt.reports.head? = some x → fld (reg t.toChip aFLT_LAST_CLASS) 9 8 = l ∧
            fld (reg t.toChip aFLT_LAST_CLASS) 7 0 = fld (reg s.toChip aFLT_LAST_CLASS) 7 0))))) ∧
  (∀ s : State, minuetOn s.toChip = true →
    (s.flt.modulePending = false → exec .moduleFault s = .next (after s s.toChip)) ∧
    (s.flt.modulePending = true → Quietly .moduleFault s { s.toChip with mem := [] } (fun t =>
      t.flt.faulted = true ∧ t.flt.modulePending = false ∧ t.flt.chipPending = false ∧ t.mem = [] ∧
      (∀ p, minuetPage p = false → p ≠ .peer → p ≠ .host → bstate t.toChip p = .fault ∧ Event t p 0) ∧
      (∀ p, (minuetPage p = true ∨ p = .peer ∨ p = .host) → bstate t.toChip p = bstate s.toChip p) ∧
      (tapPins s.toChip = none → t.pins.alertLow = true) ∧ RecordWaits s t 3)) ∧
    (∀ r : Requester, Reaches s.toChip r .flt →
      (armed s.toChip r .flt = false → Answered (.moduleReset r) s r 0x21 s.toChip (fun t => Event t .flt 3)) ∧
      (armed s.toChip r .flt = true →
        (s.flt.faulted = true → r = .sideband → AcceptedWith (.moduleReset r) s r (fun t =>
          Restarted s t 3 ∧ t.flt.faulted = false ∧ t.flt.slots = s.flt.slots)) ∧
        (s.flt.faulted = false ∨ r ≠ .sideband → Answered (.moduleReset r) s r 0x21 s.toChip (fun t =>
          t.flt = s.flt)))))

/-- The black box (R482-R484, R487): after power-up the head follows the valid record of greatest SEQ; a record that waits is
programmed as an erase ends, into the slot at the head with the next SEQ, and a record that enters a sector starts the
erase of the next one; BB_INDEX starts a copy of its slot into the window, which then shows the slot and whether its CRC
passes; a marker is kept with its value, and one that comes too soon is refused. -/
def Obligations.BlackBox : Prop :=
  ∀ s : State,
    let f := s.flt
    (minuetOn s.toChip = true →
      (f.headKnown = true → exec .bbHeadFound s = .next (after s s.toChip)) ∧
      (f.headKnown = false → f.queue = [] →
        let found := fun (h q : Nat) => Quietly .bbHeadFound s s.toChip (fun t =>
          t.flt = { f with headKnown := true, erasing := t.flt.erasing } ∧ bbHead t.toChip = h ∧
          reg t.toChip aFLT_BB_SEQ = w32 q)
        ((∀ e ∈ f.slots, bbValid e.2 = false) → found 0 0) ∧
        (∀ e ∈ f.slots, bbValid e.2 = true →
          (∀ x ∈ f.slots, bbValid x.2 = true → x ≠ e → rdLE x.2 4 4 < rdLE e.2 4 4) →
          found ((e.1 + 1) % 32768) (rdLE e.2 4 4)))) ∧
    (f.erasing = none → exec .bbSectorEraseDone s = .next (after s s.toChip)) ∧
    (∀ sec, f.erasing = some sec →
      let kept := f.slots.filter (fun e => e.1 / 16 ≠ sec)
      (f.queue = [] → exec .bbSectorEraseDone s =
        .next (after s { s.toChip with flt := { f with erasing := none, slots := kept } })) ∧
      (∀ x, f.queue = [x] → f.headKnown = true → x.length = 256 → Quietly .bbSectorEraseDone s s.toChip (fun t =>
        let h := bbHead s.toChip
        t.flt.queue = [] ∧ bbHead t.toChip = (h + 1) % 32768 ∧
        reg t.toChip aFLT_BB_SEQ = reg s.toChip aFLT_BB_SEQ + 1 ∧
        (∃ y, tfind t.flt.slots h = some y ∧ bbKind y = bbKind x ∧ bbValid y = true) ∧
        (∀ j, j ≠ h → tfind t.flt.slots j = tfind kept j) ∧
        t.flt.erasing = (if h % 16 = 0 then some ((h / 16 + 1) % 2048) else none) ∧ (h = 32767 → Event t .flt 20)))) ∧
    (∀ r, Reaches s.toChip r .flt →
      (∀ slot, Accepted (.bbIndex r slot) s r s.toChip (fun t =>
        t.flt = { f with loading := true, ready := false, crcOk := false } ∧
        fld (reg t.toChip aFLT_BB_INDEX) 14 0 = fld slot 14 0)) ∧
      (∀ v, Answered (.bbMark r v true) s r 0x20 s.toChip (fun t => t.flt = f) ∧
        Accepted (.bbMark r v false) s r s.toChip (fun t => f.headKnown = false → f.queue.length < 64 →
          ∃ x, t.flt.queue = f.queue ++ [x] ∧ bbKind x = 7 ∧ rdLE x 0x6C 4 = v.toNat))) ∧
    (f.loading = false → exec .bbWindowReady s = .next (after s s.toChip)) ∧
    (f.loading = true →
      let x := (tfind f.slots (fld (reg s.toChip aFLT_BB_INDEX) 14 0)).getD (List.replicate 256 0xFF)
      exec .bbWindowReady s = .next (after s { s.toChip with
        flt := { f with window := x, loading := false, ready := true, crcOk := bbValid x } }))

/-- Supplies (R485, R489, R491, R523): the levels that a supply takes; the minuet domain starts as the auxiliary supply
reaches 3.135 V, with everything but fuses, flash, NOR and black box at reset; a power loss records class 0x15 at level 3,
writes the record of KIND 4 into the slot at the head and loses GDDR7; an overvoltage opens the input stage, as a loss of
the main supply.

Power-up (R490, R501, R504, R485): with both supplies good the banks are verified, the preferred one first; the other
one follows with FALLBACK; where both fail, boot has FAILED with the failing check of each (7 where the
boot NOR cannot be read). A bundle without a base image
leaves the chip configuring; BOOT_READY then makes it READY, with the channels that are not faulty, the map of FLASH, the
result of the hold-up check and the record of KIND 1. -/
def Obligations.SuppliesAndPowerUp : Prop :=
  (∀ s : State,
    let h := s.chip
    (∀ main aux,
      let open_ := h.inputOpen && decide (60000 ≤ main)
      ((minuetOn s.toChip = true ∨ aux < 3135) → exec (.supplyChange main aux) s = .next (after s { s.toChip with
        chip := { h with mainMv := main, auxMv := aux, inputOpen := open_,
                         lossSeen := h.lossSeen && !decide (40000 ≤ main ∧ 3135 ≤ aux) } })) ∧
      (minuetOn s.toChip = false → 3135 ≤ aux → Completes (.supplyChange main aux) s (fun t => Restarted s t 0 ∧
        t.chip.mainMv = main ∧ t.chip.auxMv = aux ∧ t.chip.inputOpen = open_ ∧ t.chip.inReset = false ∧
        t.flt.faulted = false ∧ t.pwr.tripped = false ∧ t.flt.slots = s.flt.slots ∧ t.flt.boots = s.flt.boots ∧
        t.chip.prefer = h.prefer ∧ t.chip.bootOverlay = h.bootOverlay))) ∧
    (let loss := h.lossSeen = false ∧ (h.mainMv < 38000 ∨ h.auxMv < 3000)
     (¬ loss → exec .powerLoss s = .next (after s s.toChip)) ∧
     (loss → Completes .powerLoss s (fun t => Restarted s t 2 ∧ t.chip.lossSeen = true ∧ t.flt.faulted = false ∧
       t.pwr.tripped = s.pwr.tripped ∧ bbHead t.toChip = (bbHead s.toChip + 1) % 32768 ∧
       (∃ x, tfind t.flt.slots (bbHead s.toChip) = some x ∧ bbKind x = 4) ∧
       (∀ j, j ≠ bbHead s.toChip → tfind t.flt.slots j = tfind s.flt.slots j) ∧ Logged s t 0x15 1 ∧
       (s.flt.reports = [] → Event t .flt 19 ∧
         reg t.toChip aFLT_LAST_CLASS = w32 (2 ^ 31 + pageIdx .pwr * 2 ^ 16 + 0x315))))) ∧
    (minuetOn s.toChip = true →
      let trips := h.inputOpen = false ∧ 62000 < h.mainMv
      (¬ trips → exec .mainOvervoltage s = .next (after s s.toChip)) ∧
      (trips → Completes .mainOvervoltage s (fun t => Restarted s t 2 ∧ t.chip.inputOpen = true ∧
        ∃ x, tfind t.flt.slots (bbHead s.toChip) = some x ∧ bbKind x = 4)))) ∧
  (∀ s : State,
    (∀ rf, mayStart s.toChip = false → exec (.suppliesGood rf) s = .next (after s s.toChip)) ∧
    (∀ rf, mayStart s.toChip = true →
      let c : Chip := { s.toChip with
        chip := { s.chip with fast := .run, refOk := true, pllLost := false }
        flt := { s.flt with boots := s.flt.boots + 1 } }
      let b := s.chip.prefer
      let mine := bankCheck c rf b
      let his := bankCheck c rf (!b)
      let plain := fun (x : Bool) => sectionsOf (bankSource c x) 1 = [] ∧ s.chip.bootOverlay = 0 ∧
        fld (reg s.toChip aCHIP_BOOT_CFG) 11 8 = 0
      let shows := fun (x : Bool) (fallback a o : Nat) (t : State) => t.flt.boots = s.flt.boots + 1 ∧
        t.chip.fast = .run ∧ t.chip.bootState = .configuring ∧ t.chip.bank = x ∧ t.chip.inForce = 0 ∧
        t.chip.bundleLive = true ∧
        reg t.toChip aCHIP_BOOT = w32 ((if b then a else o) * 2 ^ 24 + (if b then o else a) * 2 ^ 16 + 8 * fallback) ∧
        t.sec.mc1 = sha256 (bankSource c x 0 128) ∧ t.sec.mc2 = List.replicate 32 0
      (mine ≠ 0 → his ≠ 0 → Quietly (.suppliesGood rf) s { c with chip := { c.chip with bootState := .failed } } (fun t =>
        t.flt.boots = s.flt.boots + 1 ∧
        reg t.toChip aCHIP_BOOT = w32 ((if b then mine else his) * 2 ^ 24 + (if b then his else mine) * 2 ^ 16) ∧
        fld (reg t.toChip aSEC_BOOT_STAT) 31 24 = (if his ≤ 5 then his else 0))) ∧
      (mine = 0 → plain b → Completes (.suppliesGood rf) s (fun t => shows b 0 0 0 t)) ∧
      (mine ≠ 0 → his = 0 → plain (!b) → Completes (.suppliesGood rf) s (fun t => shows (!b) 1 mine 0 t ∧
        Event t .chip 20))) ∧
    (∀ ok, Awake s.toChip →
      let state := s.chip.bootState
      (s.chip.bootDone = true ∨ (state ≠ .configuring ∧ state ≠ .configErr) →
        exec (.bootReady ok) s = .next (after s s.toChip)) ∧
      (s.chip.bootDone = false → (state = .configuring ∨ state = .configErr) →
        Quietly (.bootReady ok) s { s.toChip with
          flash := { s.flash with mapReady := true }
          chip := { s.chip with bootDone := true, bootState := if state = .configuring then .ready else .configErr } }
          (fun t => reg t.toChip aGDR_CH_READY = ~~~(reg s.toChip aGDR_CH_FAULT) ∧
            bit (reg t.toChip aFLT_STATUS) 0 = ok ∧ (ok = false → Event t .flt 21) ∧
            (s.chip.bundleChanged = false → RecordWaits s t 1) ∧
            (s.chip.bundleChanged = true → s.flt.headKnown = false → s.flt.queue.length < 63 →
              ∃ x y, t.flt.queue = s.flt.queue ++ [x, y] ∧ bbKind x = 1 ∧ bbKind y = 6)))))

/-! ### RESET_N, clocks, sleep, overlays, update and the boot NOR (R489-R509, R525, R527, R66) -/

/-- Sleep and wake (R493-R497, R508): an idle chip enters NAP as MAX_STATE admits, and DEEP from NAP, which loses the core
stores and program stores; a wake to RUN counts, records its duration and cause, and reports a wake beyond its bound; a
trip or a module fault keeps the chip asleep; CTRL.WAKE wakes, CTRL.HOLD wakes and then stands. -/
def Obligations.SleepAndWake : Prop :=
  ∀ s : State, minuetOn s.toChip = true →
    let h := s.chip
    let running := { s.toChip with chip := { h with fast := .run, wakeFrom := .off } }
    let noFrames := s.peer.held = [] ∧ s.host.held = [] ∧ s.xpt.heldReqs = []
    let woken := fun (us cause : Nat) (t : State) => Counted s t aCLK_WAKE_CNT 1 ∧
      reg t.toChip aCLK_LAST_WAKE = w32 (us * 2 ^ 16 + cause) ∧
      (wakeBound (wakeState s.toChip) < us → Event t .clk 16)
    (Awake s.toChip → s.fig.committed = [] →
      let may := h.fast = .run ∧ 1 ≤ maxSleep s.toChip ∧ idleChip s.toChip = true ∧ h.bootDone = true
      (may → exec .napEntry s = .next (after s { s.toChip with chip := { h with fast := .nap } })) ∧
      (¬ may → exec .napEntry s = .next (after s s.toChip))) ∧
    (let may := h.fast = .nap ∧ maxSleep s.toChip = 2 ∧ idleChip s.toChip = true
     (may → Completes .deepEntry s (fun t => t.chip = { h with fast := .deep } ∧ Counted s t aCLK_DEEP_CNT 1 ∧
       (∀ n, (coreAt t.toChip n).store = [] ∧ (coreAt t.toChip n).programs = [] ∧
         (coreAt t.toChip n).state = (coreAt s.toChip n).state) ∧ t.mem = s.mem ∧ t.sess = s.sess)) ∧
     (¬ may → exec .deepEntry s = .next (after s s.toChip))) ∧
    (∀ (cause : Byte) (us : BitVec 16),
      (nodeServes s.toChip = true → asleep s.toChip = true → noFrames →
        Quietly (.fastWake cause us) s running (woken us.toNat cause.toNat) ∧
        Quietly (.housekeepingWake us) s running (woken us.toNat 6)) ∧
      ((nodeServes s.toChip = false ∨ asleep s.toChip = false) →
        exec (.fastWake cause us) s = .next (after s s.toChip) ∧
        exec (.housekeepingWake us) s = .next (after s s.toChip))) ∧
    (∀ (r : Requester) (us : BitVec 16), Reaches s.toChip r .clk →
      let hold := bit (reg s.toChip aCLK_CTRL) 1
      let held := fun (b : Bool) (t : State) => bit (reg t.toChip aCLK_CTRL) 1 = b
      (nodeServes s.toChip = true → sleeping s.toChip = true → noFrames →
        Accepted (.clkWake r us) s r running (fun t => woken us.toNat 3 t ∧ held hold t) ∧
        Accepted (.clkHold r true us) s r running (fun t => woken us.toNat 3 t ∧ held true t)) ∧
      ((nodeServes s.toChip = false ∨ sleeping s.toChip = false) →
        Accepted (.clkWake r us) s r s.toChip (fun t => held hold t ∧
          reg t.toChip aCLK_LAST_WAKE = reg s.toChip aCLK_LAST_WAKE) ∧
        Accepted (.clkHold r true us) s r s.toChip (held true)) ∧
      Accepted (.clkHold r false us) s r s.toChip (held false))

/-- Overlays and the boot record (R500, R505, R509): OVL_APPLY queues an overlay that the bundle has and refuses another, and
any while FIG drains or recovers; the oldest one commits as one figure between steps and is then in force, or its figure
aborts with nothing changed where one of its writes is refused; BOOT_CFG, guarded, stores the preferred bank and the boot overlay. -/
def Obligations.Overlays : Prop :=
  ∀ s : State,
    let h := s.chip
    (∀ (r : Requester) (n : BitVec 4), Reaches s.toChip r .chip → asleep s.toChip = false →
      let busy := bstate s.toChip .fig = .draining ∨ s.flt.chipPending = true
      (busy → Answered (.ovlApply r n) s r 0x20 s.toChip (fun t =>
        fld (reg t.toChip aCHIP_OVL_STAT) 11 8 = n.toNat ∧ fld (reg t.toChip aCHIP_OVL_STAT) 23 16 = 0x20)) ∧
      (¬ busy → bit (reg s.toChip aCHIP_OVL_PRESENT) n.toNat = true → Accepted (.ovlApply r n) s r
        { s.toChip with chip := { h with overlays := h.overlays ++ [n.toNat] } }
        (fun t => fld (reg t.toChip aCHIP_OVL_STAT) 11 8 = n.toNat)) ∧
      (¬ busy → bit (reg s.toChip aCHIP_OVL_PRESENT) n.toNat = false → Answered (.ovlApply r n) s r 0x23 s.toChip (fun t =>
        fld (reg t.toChip aCHIP_OVL_STAT) 11 8 = n.toNat ∧ fld (reg t.toChip aCHIP_OVL_STAT) 23 16 = 0x23))) ∧
    (Awake s.toChip → s.fig.committed = [] →
      (h.overlays = [] → exec .overlayCommit s = .next (after s s.toChip)) ∧
      (∀ n rest, h.overlays = n :: rest →
        let img := overlayImage s.toChip n
        let c : Chip := { s.toChip with chip := { h with overlays := rest } }
        let free := (∀ p, p < 8 → (schedPart s.toChip p).step = none) ∧ canOpen s.toChip (overlayFig n img.2) = true
        (¬ free → exec .overlayCommit s = .next (after s s.toChip)) ∧
        (∀ e x, free → imageWrites c 0 none img.2 = (some e, x) → Completes .overlayCommit s (fun t =>
          quiet { t.toChip with fig := s.fig } = quiet c ∧ t.fig.seq = s.fig.seq ∧ t.fig.committed = [] ∧
          t.fig.waiting = s.fig.waiting ∧ Counted s t aFIG_ABORT_CNT 1 ∧ fld (reg t.toChip aCHIP_OVL_STAT) 23 16 = e.2 % 256 ∧ Event t .chip 17)) ∧
        (∀ x, free → imageWrites c 0 none img.2 = (none, x) → Completes .overlayCommit s (fun t =>
          t.chip.inForce = n ∧ fld (reg t.toChip aCHIP_OVL_STAT) 23 16 = 0 ∧ Event t .chip 16)))) ∧
    (∀ (r : Requester) (v : Word), Reaches s.toChip r .chip →
      (armed s.toChip r .chip = true → Accepted (.bootPreferWrite r v) s r
        { s.toChip with chip := { h with prefer := bit v 0, bootOverlay := fld v 11 8 } }
        (fun t => bit (reg t.toChip aCHIP_BOOT_CFG) 0 = bit v 0 ∧ fld (reg t.toChip aCHIP_BOOT_CFG) 11 8 = fld v 11 8)) ∧
      (armed s.toChip r .chip = false → Answered (.bootPreferWrite r v) s r 0x21 s.toChip (fun t =>
        Event t .chip 3 ∧ reg t.toChip aCHIP_BOOT_CFG = reg s.toChip aCHIP_BOOT_CFG)))

/-- The whole-chip self-test (R507): without START nothing begins; while a test runs, or work is in flight without FORCE, it
is refused as busy; otherwise every drainable block that is ON or DISABLED, those of the ports only with PORTS, is TESTING
until the test ends, and returns to its state before it where it passed, or stays DISABLED with its event.

Update and the boot NOR (R500, R502, R509): an update takes its bytes from an ACTIVE registration of partition 0; it ends
with the check that fails, once a self-test of SEC does not hold it back, with a failed read-back, or with the other bank programmed and preferred unless KEEP; by hand
only the sideband programs bank A, while boot has FAILED, word by word. (Which bytes an update reads, log entry 74; what
a NOR address outside the bank is answered, log entry 75; that a changed smoothing table in use fails check 6, log entry
114.) -/
def Obligations.SelftestUpdateAndNor : Prop :=
  (∀ s : State,
    let h := s.chip
    (∀ (r : Requester) (v : Word), Reaches s.toChip r .chip → h.fast = .run → s.fig.committed = [] →
      armed s.toChip r .chip = true →
      let busy := h.testing ≠ [] ∨ (chipBusy s.toChip = true ∧ bit v 1 = false)
      let ps := (testedPages (bit v 2)).filter (fun p =>
        decide (bstate s.toChip p = .on ∨ bstate s.toChip p = .disabled))
      let begun := fun (t : State) => t.chip.testing = ps ∧ bit (reg t.toChip aCHIP_SELFTEST) 8 = true ∧
        fld (reg t.toChip aCHIP_SELFTEST) 23 16 = 0 ∧
        (∀ p ∈ ps, bstate t.toChip p = .testing ∧ (hdr t.toChip p).selftest = true ∧
          (hdr t.toChip p).before = some (bstate s.toChip p) ∧ Event t p 0) ∧
        ∀ p, p ∉ ps → bstate t.toChip p = bstate s.toChip p
      (bit v 0 = false → Accepted (.chipSelftestStart r v) s r s.toChip (fun _ => True)) ∧
      (bit v 0 = true → busy → Answered (.chipSelftestStart r v) s r 0x20 s.toChip (fun t =>
        fld (reg t.toChip aCHIP_SELFTEST) 23 16 = 0x20)) ∧
      (bit v 0 = true → ¬ busy → bit v 1 = false → AcceptedWith (.chipSelftestStart r v) s r (fun t => begun t ∧
        desk { t.toChip with grid := s.grid, sec := s.sec, host := s.host } =
          desk { s.toChip with chip := { h with testing := ps } } ∧
        (bit v 2 = false → t.host = s.host) ∧ (.grid ∉ ps → t.grid = s.grid) ∧ (.tel ∉ ps → t.sec = s.sec))) ∧
      (bit v 0 = true → ¬ busy → bit v 1 = true → AcceptedWith (.chipSelftestStart r v) s r (fun t =>
        bit (reg t.toChip aCHIP_SELFTEST) 8 = true ∧ ∀ p ∈ t.chip.testing, bstate t.toChip p = .testing))) ∧
    (∀ failed : List Page, Awake s.toChip →
      (h.testing = [] → exec (.chipSelftestEnd failed) s = .next (after s s.toChip)) ∧
      (h.testing ≠ [] → h.testing.Nodup → FigIdle s.toChip →
        Completes (.chipSelftestEnd failed) s (fun t =>
          quiet { t.toChip with grid := s.grid, host := s.host } = quiet { s.toChip with chip := { h with testing := [] } } ∧
          (.host ∉ h.testing → t.host = s.host) ∧ (.grid ∉ h.testing → t.grid = s.grid) ∧ Event t .chip 18 ∧ bit (reg t.toChip aCHIP_SELFTEST) 8 = false ∧
          bit (reg t.toChip aCHIP_SELFTEST) 9 = h.testing.any (fun p => decide (p ∈ failed)) ∧
          (∀ p ∈ h.testing, p ∉ failed → bstate t.toChip p = (hdr s.toChip p).before.getD .disabled ∧
            (hdr t.toChip p).stRan = true ∧ (hdr t.toChip p).stFail = false ∧ Event t p 5) ∧
          (∀ p ∈ h.testing, p ∈ failed → bstate t.toChip p = .disabled ∧ (hdr t.toChip p).stFail = true ∧ Event t p 6) ∧
          ∀ p, p ∉ h.testing → bstate t.toChip p = bstate s.toChip p)))) ∧
  (∀ s : State,
    let h := s.chip
    (∀ (r : Requester) (v : Word), Reaches s.toChip r .chip → h.fast = .run → s.fig.committed = [] →
      armed s.toChip r .chip = true →
      let tag := reg s.toChip aCHIP_UPDATE_TAG
      let code := regionCheck s.toChip 0 tag 0 0
      (bit v 0 = false → Accepted (.updateStart r v) s r s.toChip (fun _ => True)) ∧
      (bit v 0 = true → h.updating = true → Answered (.updateStart r v) s r 0x20 s.toChip (fun _ => True)) ∧
      (bit v 0 = true → h.updating = false → code ≠ 0 →
        Answered (.updateStart r v) s r (BitVec.ofNat 8 code) s.toChip (fun _ => True)) ∧
      (bit v 0 = true → h.updating = false → code = 0 → Accepted (.updateStart r v) s r
        { s.toChip with chip := { h with
          updating := true, updateTag := tag, updatePrefer := !bit v 1, updateWaits := (hdr s.toChip .sec).selftest
          updateImage := regionRead s.toChip tag 0 (min bankBytes (region s.toChip (tag.toNat / 256)).len) } }
        (fun t => bit (reg t.toChip aCHIP_UPDATE) 8 = true ∧ fld (reg t.toChip aCHIP_UPDATE) 31 16 = 0))) ∧
    (∀ ok, Awake s.toChip → s.fig.committed = [] →
      (h.updating = false ∨ h.updateWaits = true → exec (.updateDone ok) s = .next (after s s.toChip)) ∧
      (h.updating = true → h.updateWaits = false → regionActive s.toChip h.updateTag = true → h.updateImage.length ≤ bankBytes →
        let img := h.updateImage
        let fails := bundleCheck s.toChip (listSource img)
        let bad := if fails = 0 ∧ changesSmoothing s.toChip (listSource img) = true then 6 else fails
        let base := bankBase (!h.bank)
        let len := bodyAt + mfLen (img.take 128)
        let ended := fun (check code : Nat) (t : State) => t.chip.updating = false ∧
          bit (reg t.toChip aCHIP_UPDATE) 8 = false ∧ fld (reg t.toChip aCHIP_UPDATE) 23 16 = code ∧
          fld (reg t.toChip aCHIP_UPDATE) 31 24 = check % 256 ∧ Event t .chip 19
        (bad ≠ 0 → Quietly (.updateDone ok) s
          { s.toChip with chip := { h with updating := false, updateImage := [] } } (ended bad 0x21)) ∧
        (bad = 0 → ok = false → Completes (.updateDone ok) s (fun t => ended 0 0x11 t ∧ t.chip.prefer = h.prefer)) ∧
        (bad = 0 → ok = true → Completes (.updateDone ok) s (fun t => ended 0 0 t ∧
          t.chip.prefer = (if h.updatePrefer then !h.bank else h.prefer) ∧
          ∀ a, norGet t.toChip a = if base ≤ a ∧ a < base + bankBytes then (img.take len).getD (a - base) 0xFF
            else norGet s.toChip a)))) ∧
    (∀ (r : Requester) (v : Word), Reaches s.toChip r .chip →
      let a := (reg s.toChip aCHIP_NOR_ADDR).toNat
      let stays := fun (t : State) => reg t.toChip aCHIP_NOR_ADDR = reg s.toChip aCHIP_NOR_ADDR
      (r ≠ .sideband ∨ h.bootState ≠ .failed → Answered (.norDataWrite r v) s r 0x21 s.toChip stays) ∧
      (r = .sideband → h.bootState = .failed →
        ((a % 4 ≠ 0 ∨ bankBytes < a + 4) → Answered (.norDataWrite r v) s r 0x23 s.toChip stays) ∧
        (a % 4 = 0 → a + 4 ≤ bankBytes → Accepted (.norDataWrite r v) s r (norPut s.toChip a (leBytes 4 v.toNat))
          (fun t => reg t.toChip aCHIP_NOR_ADDR = w32 (a + 4) ∧
            ∀ x, norGet t.toChip x = if a ≤ x ∧ x < a + 4 then (leBytes 4 v.toNat).getD (x - a) 0
              else norGet s.toChip x)))))

/-- VIEW_HANDLE (R65): a handle that passes the checks and whose entry is cached and intact gives VIEW_STAT VALID with OK
and its 128 B in VIEW_ENTRY; a handle that fails gives VIEW_STAT its code, VALID 0, and zeros.

A damage sweep (R109): START on an ON block starts it, and a block that is not ON refuses with REJECTED_BUSY; its end
records in FOUND how many sessions refer to a DAMAGED block, raises SWEEP_DONE, and makes such a session DAMAGED.

DIR_COPY_DONE (R65, R66): once the entries of a directory that moved are copied, SESS goes ON where it is enabled; with
the directory already set up its entries stand, and otherwise it starts empty unless KEEP. -/
def Obligations.SessDirectory : Prop :=
  (∀ (s : State) (r : Requester) (h : Word), Reaches s.toChip r .sess → FigIdle s.toChip →
    let i := hIdx h
    let l := entryBytes (entry s.toChip i) i ((opsOf s.toChip i).length - 1)
    (handleStatus s.toChip (some 0) h = 0 → i ∈ s.sess.cached → Accepted (.viewHandle r h) s r s.toChip (fun t =>
      reg t.toChip aSESS_VIEW_STAT = 1 ∧ ∀ k, k < 32 → reg t.toChip (aSESS_VIEW_ENTRY + 4 * k) = wordAt l k)) ∧
    (handleStatus s.toChip (some 0) h ≠ 0 → Accepted (.viewHandle r h) s r s.toChip (fun t =>
      reg t.toChip aSESS_VIEW_STAT = w32 (handleStatus s.toChip (some 0) h * 256) ∧
      ∀ k, k < 32 → reg t.toChip (aSESS_VIEW_ENTRY + 4 * k) = 0))) ∧
  (∀ (s : State) (r : Requester),
    (Reaches s.toChip r .tier → isOn s.toChip .tier = true →
      Accepted (.damageSweepStart r) s r { s.toChip with tier := { s.tier with sweeping := true } }
        (fun t => ∀ k, regKey t.toChip k = regKey s.toChip k)) ∧
    (Reaches s.toChip r .tier → isOn s.toChip .tier = false → Answered (.damageSweepStart r) s r 0x20 s.toChip
      (fun t => ∀ k, regKey t.toChip k = regKey s.toChip k)) ∧
    (Awake s.toChip → FigIdle s.toChip → s.tier.sweeping = true → sweepFound s.toChip = [] →
      Quietly .damageSweepEnd s { s.toChip with tier := { s.tier with sweeping := false } }
        (fun t => fld (reg t.toChip aTIER_SWEEP) 22 0 = 0 ∧ Event t .tier 20)) ∧
    (∀ i, Awake s.toChip → FigIdle s.toChip → isUp s.toChip .fig = true → s.flt.chipPending = false →
      s.tier.sweeping = true → keysRise s.sess.entries = true → sweepFound s.toChip = [i] →
      Completes .damageSweepEnd s (fun t => t.tier.sweeping = false ∧ fld (reg t.toChip aTIER_SWEEP) 22 0 = 1 ∧
        Event t .tier 20 ∧ (entry t.toChip i).state = .damaged ∧ Event t .sess 16))) ∧
  (∀ s : State, Awake s.toChip → FigIdle s.toChip →
    let d := s.sess
    let h := hdr s.toChip .sess
    let goes := h.enable = true ∧ h.drain = false ∧ h.state = .disabled
    let keep := bit (reg s.toChip aSESS_DIR_CTRL) 0
    let done := fun (u : SessUnit) => Quietly .dirCopyDone s { s.toChip with sess := u } (fun t =>
      bstate t.toChip .sess = .on ∧ Event t .sess 0)
    (d.copying = false → exec .dirCopyDone s = .next (after s s.toChip)) ∧
    (d.copying = true →
      (¬ goes → exec .dirCopyDone s =
        .next (after s { s.toChip with sess := { d with copying := false, moveFrom := none } })) ∧
      (goes → d.inited = true → done { d with copying := false, moveFrom := none }) ∧
      (goes → d.inited = false → keep = true → done { d with copying := false, moveFrom := none, inited := true }) ∧
      (goes → d.inited = false → keep = false → done { d with
        copying := false, moveFrom := none, inited := true, entries := [], bodies := [], ops := [], fresh := []
        freed := [], cached := [] })))

/-! ### Check values (R510-R516) -/

/-- A run of a check-value unit (R510-R516): START is refused while the block is not ON or the unit runs; sources that break
the rules end the run at once with their code; otherwise it runs over its ranges, and its end gives RESULT over the bytes
read, holds the register, and raises its event; an uncorrectable read ends it without a result. -/
def Obligations.CheckValueRuns : Prop :=
  ∀ s : State,
    (∀ r, Reaches s.toChip r .crc →
      let u := bankFor s.toChip 0 .unit
      let x := crcUnit s.toChip u
      let src := crcSources s.toChip u
      let code := if src.1 ≠ 0 then src.1 else if src.2.any (crcRangeBad s.toChip) then 0x23
        else if src.2.any (crcRangeForeign s.toChip) then 0x22 else 0
      let kept := fun (t : State) => pairB t.toChip u aCRC_RESULT_LO = pairB s.toChip u aCRC_RESULT_LO
      (isOn s.toChip .crc = false ∨ x.busy = true → Answered (.crcStart r) s r 0x20 s.toChip (fun t => kept t ∧
        regB t.toChip u aCRC_STAT = regB s.toChip u aCRC_STAT)) ∧
      (isOn s.toChip .crc = true → x.busy = false →
        (code ≠ 0 → Accepted (.crcStart r) s r (setCrcUnit s.toChip u { x with ranges := [], input := [] }) (fun t =>
          kept t ∧ regB t.toChip u aCRC_STAT = w32 (code * 2 ^ 16) ∧ regB t.toChip u aCRC_BYTES = 0 ∧
          Event t .crc (16 + u) ∧ Event t .crc (20 + u))) ∧
        (code = 0 → Accepted (.crcStart r) s r (setCrcUnit s.toChip u
          { x with busy := true, ranges := src.2, input := src.2.flatMap (crcBytes s.toChip) }) (fun t =>
          kept t ∧ regB t.toChip u aCRC_STAT = w32 (2 ^ 31) ∧ regB t.toChip u aCRC_BYTES = 0)))) ∧
    (∀ (unit : BitVec 2) (bad : Bool), Awake s.toChip →
      let u := unit.toNat
      let x := crcUnit s.toChip u
      let end_ := { x with held := w64 (crcRunReg s.toChip u x.input), busy := false, ranges := [], input := [] }
      let shown := fun (t : State) =>
        pairB t.toChip u aCRC_RESULT_LO = crcResultOf s.toChip u (crcRunReg s.toChip u x.input) % 2 ^ 64 ∧
        regB t.toChip u aCRC_BYTES = w32 (min x.input.length 0xFFFFFFFF) ∧ regB t.toChip u aCRC_STAT = 1 ∧
        Event t .crc (16 + u)
      (isUp s.toChip .crc = false ∨ x.busy = false → exec (.crcRunDone unit bad) s = .next (after s s.toChip)) ∧
      (isUp s.toChip .crc = true → x.busy = true →
        (∀ a n, bad = false → x.ranges = [(false, a, n)] → x.input = viewRead s.toChip a n →
          Quietly (.crcRunDone unit bad) s (setCrcUnit s.toChip u end_) shown) ∧
        (∀ a n, bad = false → x.ranges = [(true, a, n)] → x.input.length = n →
          Completes (.crcRunDone unit bad) s (fun t => shown t ∧ crcUnit t.toChip u = end_ ∧
            pair t.toChip aFLASH_READ_BYTES_LO = (pair s.toChip aFLASH_READ_BYTES_LO + n) % 2 ^ 64)) ∧
        (∀ a n, bad = true → x.ranges = [(true, a, n)] → FigIdle s.toChip →
          (∀ b, a ≤ b → b < a + max 1 n → crcObject s.toChip b 1 = none) →
          Completes (.crcRunDone unit bad) s (fun t => crcUnit t.toChip u = { x with busy := false, ranges := [], input := [] } ∧
            regB t.toChip u aCRC_STAT = w32 (0x11 * 2 ^ 16) ∧
            pairB t.toChip u aCRC_RESULT_LO = pairB s.toChip u aCRC_RESULT_LO ∧ Event t .crc (16 + u) ∧
            Event t .crc (20 + u) ∧ Event t .flash 17 ∧ Counted s t aFLASH_UNCORR_CNT 1))))

/-! ### RESET_N, the crystal and the scan chain (R463, R491, R492, R508, R527, R528) -/

/-- RESET_N and the crystal (R491, R492, R508, R527): while RESET_N is low the module is reset, its sideband address is not
acknowledged, and a trip or module fault stands (log entry 71); its release samples the straps; the crystal's state; a PLL
that relocks raises its event, and one that does not is class 0x12 at level 3.

JTAG (R463, R528): TRST selects IDCODE; IDCODE and BYPASS capture their registers; SAMPLE/PRELOAD captures the contacts
(as log entry 72 reads them) and preloads the boundary register; the instructions that take or release the pins are
loaded only while chip-wide debug is open, and BYPASS otherwise. -/
def Obligations.ResetInputAndScan : Prop :=
  (∀ s : State, minuetOn s.toChip = true →
    let h := s.chip
    Completes .resetInput s (fun t => Restarted s t 1 ∧ t.smb.nacking = true ∧ t.chip.inReset = true ∧
      t.pwr.tripped = s.pwr.tripped ∧ t.flt.faulted = s.flt.faulted ∧ t.flt.slots = s.flt.slots) ∧
    (∀ a, (h.inReset = true → exec (.resetNRelease a) s = .next (after s { s.toChip with
        smb := { s.smb with strap := a, nacking := false }
        chip := { h with inReset := false } })) ∧
      (h.inReset = false → exec (.resetNRelease a) s = .next (after s s.toChip))) ∧
    exec .xtalStable s = .next (after s { s.toChip with chip := { h with xtalOk := true } }) ∧
    (h.xtalOk = true → Quietly .xtalFail s { s.toChip with chip := { h with xtalOk := false } } (fun t => Event t .clk 18)) ∧
    (h.xtalOk = false → exec .xtalFail s = .next (after s s.toChip)) ∧
    Quietly (.pllRelock true) s s.toChip (fun t => Event t .clk 17) ∧
    (s.flt.reports = [] → Quietly (.pllRelock false) s s.toChip (fun t => Logged s t 0x12 1 ∧
      t.flt.modulePending = true ∧ Event t .flt 19))) ∧
  (∀ s : State, minuetOn s.toChip = true →
    let tap := s.tap
    let loads := fun (i : Instr) (x : Tap) => exec i s = .next (after s { s.toChip with tap := x })
    let debug := fun (i : Instr) (n : TapInstr) => loads i { tap with instr := if s.sec.chipDebug then n else .bypass }
    loads .jtagTrst { tap with instr := .idcode } ∧
    loads .jtagIdcode { tap with instr := .idcode, captured := 0x194005D3 } ∧
    loads .jtagBypass { tap with instr := .bypass, captured := 0 } ∧
    debug .jtagExtest .extest ∧ debug .jtagIntest .intest ∧ debug .jtagClamp .clamp ∧ debug .jtagHighz .highz ∧
    ∀ preload, Completes (.jtagSamplePreload preload) s (fun t =>
      t.tap = { instr := .samplePreload, boundary := preload, captured := t.tap.captured } ∧
      t.toChip = drivePins { s.toChip with tap := t.tap, free := t.free } ∧
      bit t.tap.captured 2 = !alertOn s.toChip ∧ bit t.tap.captured 3 = !s.pwr.tripped ∧
      bit t.tap.captured 4 = !s.chip.inReset ∧ fld t.tap.captured 6 5 = s.smb.strap.toNat ∧ bit t.tap.captured 13 = true))

end
end

