-- ==== Sys2Proof/Laws/Crc.lean ====
section
/-! SUPPORT. Laws of check values: a run of bytes in parts, and zeros leave a register of 0 at 0. Laws of reading a part of memory. -/

namespace Sys2Proof.Machine

/-- A byte of 0 leaves a CRC register of 0 at 0. -/
theorem crcByte_zero (w poly : Nat) : crcByte w poly 0 0 = 0 := by
  simp [crcByte, crcBit, nbit]

/-- Any number of zeros leaves the register of CRC-64 at 0 (R510). -/
theorem crc64_zeros (n : Nat) : crc64 (List.replicate n 0) = 0 := by
  have h : crcRaw 64 0x42F0E1EBA9EA3693 false 0 (List.replicate n 0) = 0 := by
    induction n with
    | zero => rfl
    | succ n ih =>
      simp only [crcRaw, List.replicate_succ, List.foldl_cons] at ih ⊢
      rw [show crcByte 64 0x42F0E1EBA9EA3693 0 (if false = true then revBits 8 (0 : Byte).toNat else (0 : Byte).toNat) = 0
        from crcByte_zero _ _]
      exact ih
  have e : crc64 (List.replicate n 0) = crcRaw 64 0x42F0E1EBA9EA3693 false 0 (List.replicate n 0) := by
    simp only [crc64, crcGen, Bool.false_eq_true, if_false, Nat.xor_zero]
  exact e.trans h

/-- The register after two runs of bytes is that of the second, begun where the first left it. -/
theorem crcRaw_append (w poly : Nat) (refin : Bool) (init : Nat) (l m : List Byte) :
    crcRaw w poly refin init (l ++ m) = crcRaw w poly refin (crcRaw w poly refin init l) m := by
  simp [crcRaw]

/-- CRC-32C of four runs of bytes, from the register after each. -/
theorem crc32c_runs {a b c d : List Byte} (x y z w : Nat) (ha : crcRaw 32 0x1EDC6F41 true 0xFFFFFFFF a = x)
    (hb : crcRaw 32 0x1EDC6F41 true x b = y) (hc : crcRaw 32 0x1EDC6F41 true y c = z)
    (hd : crcRaw 32 0x1EDC6F41 true z d = w) : crc32c (a ++ b ++ c ++ d) = revBits 32 w ^^^ 0xFFFFFFFF := by
  simp only [crc32c, crcGen, crcRaw_append, ha, hb, hc, hd, if_true]

/-- A read of two runs of bytes that follow one another. -/
theorem memRead_append (m : List Host.Cell) (a k n : Nat) :
    memRead m a (k + n) = memRead m a k ++ memRead m (a + k) n := by
  simp only [memRead, List.range_add, List.map_append, List.map_map, Function.comp_def, Nat.add_assoc]

/-- Memory that holds zeros reads as zeros. -/
theorem memRead_zeros {m : List Host.Cell} {a n : Nat} (h : ∀ i, i < n → memGet m (a + i) = 0) :
    memRead m a n = List.replicate n 0 := by
  refine List.ext_getElem (by simp [memRead]) ?_
  intro i h1 h2
  simp [memRead, h i (by simpa [memRead] using h1)]

/-- Above its last cell memory reads as zero. -/
theorem memGet_above {m : List Host.Cell} {a : Nat} (h : ∀ x ∈ m, x.1 < a) : memGet m a = 0 := by
  induction m with
  | nil => rfl
  | cons x r ih =>
    have h1 := h x (by simp)
    have h2 := ih fun y hy => h y (by simp [hy])
    simp only [memGet, tget, tfind] at h2 ⊢
    rw [if_neg (by omega)]
    exact h2

end Sys2Proof.Machine
end

