-- ==== Sys2Proof/Laws/Events.lean ====
section
/-! SUPPORT. What events, messages and fault reports can change: one law for each shared operation. None of them touches
the quiet part of the chip (`Safety.quiet`). -/

namespace Sys2Proof.Machine

open Sys2Proof.Safety

/-! ### Registers and headers -/

@[simp] theorem quiet_setKey (c : Chip) (k : Nat) (m v : Word) : quiet (setKey c k m v) = quiet c := by
  unfold quiet setKey; rfl
@[simp] theorem quiet_setReg (c : Chip) (a : Nat) (v : Word) : quiet (setReg c a v) = quiet c := by
  simp [setReg]
@[simp] theorem quiet_setRegB (c : Chip) (b a : Nat) (v : Word) : quiet (setRegB c b a v) = quiet c := by
  simp [setRegB]
@[simp] theorem quiet_setFld (c : Chip) (a h l v : Nat) : quiet (setFld c a h l v) = quiet c := by
  simp [setFld]
@[simp] theorem quiet_setFldB (c : Chip) (b a h l v : Nat) : quiet (setFldB c b a h l v) = quiet c := by
  simp [setFldB]
@[simp] theorem quiet_setPairB (c : Chip) (b a v : Nat) : quiet (setPairB c b a v) = quiet c := by
  simp [setPairB]
@[simp] theorem quiet_setPair (c : Chip) (a v : Nat) : quiet (setPair c a v) = quiet c := by
  simp [setPair]
@[simp] theorem quiet_setHdr (c : Chip) (p : Page) (h : BlockHdr) : quiet (setHdr c p h) = quiet c := by
  unfold quiet setHdr; rfl
@[simp] theorem quiet_drivePins (c : Chip) : quiet (drivePins c) = quiet c := by
  unfold quiet drivePins; rfl
@[simp] theorem quiet_after (s : State) (c : Chip) : quiet (after s c).toChip = quiet c := by
  unfold after; exact quiet_drivePins c

@[simp] theorem quiet_bumpB (c : Chip) (b a n : Nat) : quiet (bumpB c b a n) = quiet c := by
  unfold bumpB; split <;> simp
@[simp] theorem quiet_bump (c : Chip) (a n : Nat) : quiet (bump c a n) = quiet c := quiet_bumpB c 0 a n
@[simp] theorem quiet_bumpPair (c : Chip) (a n : Nat) : quiet (bumpPair c a n) = quiet c := by
  unfold bumpPair; split <;> simp
@[simp] theorem quiet_bumpPairB (c : Chip) (b a n : Nat) : quiet (bumpPairB c b a n) = quiet c := by
  unfold bumpPairB; split <;> simp

/-! ### The model's own counters -/

@[simp] theorem quiet_takeFree (c : Chip) : quiet (takeFree c).2 = quiet c := by
  unfold quiet takeFree; rfl
@[simp] theorem quiet_takeTick (c : Chip) : quiet (takeTick c).2 = quiet c := by
  unfold quiet takeTick takeFree; rfl
@[simp] theorem quiet_takeFine (c : Chip) : quiet (takeFine c).2 = quiet c := by
  unfold quiet takeFine takeFree; rfl

/-! ### Packets and messages -/

@[simp] theorem quiet_setConn (c : Chip) (n : Nat) (k : ConnSt) : quiet (setConn c n k) = quiet c := by
  unfold quiet setConn; rfl
@[simp] theorem quiet_setEqueue (c : Chip) (n : Nat) (k : EQueue) : quiet (setEqueue c n k) = quiet c := by
  unfold quiet setEqueue; rfl
@[simp] theorem quiet_enqueuePkt (c : Chip) (n : Nat) (p : Pkt) : quiet (enqueuePkt c n p).1 = quiet c := by
  simp [enqueuePkt]
@[simp] theorem quiet_sendNow (c : Chip) (n : Nat) (p : Pkt) (u : InitUse) : quiet (sendNow c n p u).1 = quiet c := by
  simp [sendNow]
@[simp] theorem quiet_sendControl (c : Chip) (n : Nat) (p : Pkt) : quiet (sendControl c n p) = quiet c := by
  unfold sendControl; split <;> rfl

@[simp] theorem quiet_waitSpace (c : Chip) (n : Nat) (w : List (Pkt × InitUse)) :
    quiet (waitSpace c n w).1 = quiet c := by
  simp only [waitSpace, quiet_bumpB]; rfl

@[simp] theorem quiet_sendPkt (c : Chip) (n : Nat) (p : Pkt) (u : InitUse) : quiet (sendPkt c n p u).1 = quiet c := by
  unfold sendPkt; dsimp only; split
  · rfl
  · split <;> simp

@[simp] theorem quiet_sendAgain (c : Chip) (n : Nat) (p : Pkt) (u : InitUse) :
    quiet (sendAgain c n p u).1 = quiet c := by
  unfold sendAgain; dsimp only; split <;> simp

@[simp] theorem quiet_pumpN (f : Nat) (c : Chip) (n : Nat) : quiet (pumpN f c n).1 = quiet c := by
  induction f generalizing c with
  | zero => rfl
  | succ f ih =>
    unfold pumpN; dsimp only; split
    · rfl
    · split
      · rfl
      · split
        · simp only [ih]; split <;> simp
        · simp

@[simp] theorem quiet_pump (c : Chip) (n : Nat) : quiet (pump c n).1 = quiet c := quiet_pumpN _ _ _

theorem quiet_sendFold (n : Nat) (u : InitUse) (ps : List Pkt) (a : Chip × List EventBit) :
    quiet (ps.foldl (fun a p => ((sendPkt a.1 n p u).1, a.2 ++ (sendPkt a.1 n p u).2)) a).1 = quiet a.1 := by
  induction ps generalizing a with
  | nil => rfl
  | cons p r ih => rw [List.foldl_cons, ih]; simp

@[simp] theorem quiet_sendAll (c : Chip) (n : Nat) (ps : List Pkt) (u : InitUse) :
    quiet (sendAll c n ps u).1 = quiet c := quiet_sendFold n u ps (c, [])

@[simp] theorem quiet_pushMsg (c : Chip) (n cls : Nat) (b : List Byte) : quiet (pushMsg c n cls b).1 = quiet c := by
  unfold pushMsg; dsimp only; split
  · split <;> simp
  · split <;> simp

/-! ### Events -/

theorem quiet_eventFold (b : List Byte) (ns : List Nat) (a : Chip × List EventBit) :
    quiet (ns.foldl (fun a n => ((pushMsg a.1 n 7 b).1, a.2 ++ (pushMsg a.1 n 7 b).2)) a).1 = quiet a.1 := by
  induction ns generalizing a with
  | nil => rfl
  | cons p r ih => rw [List.foldl_cons, ih]; simp

@[simp] theorem quiet_sendEvent (c : Chip) (p : Page) : quiet (sendEvent c p).1 = quiet c := by
  unfold sendEvent; dsimp only; split
  · rfl
  · rw [quiet_eventFold]; rfl

@[simp] theorem quiet_setInt (c : Chip) (p : Page) (b : Word) : quiet (setInt c p b).1 = quiet c := by
  unfold setInt; dsimp only; split <;> simp

@[simp] theorem quiet_raiseN (f : Nat) (l : List EventBit) (c : Chip) : quiet (raiseN f l c) = quiet c := by
  induction f generalizing l c with
  | zero => rfl
  | succ f ih =>
    cases l with
    | nil => rfl
    | cons e r => unfold raiseN; dsimp only; rw [ih]; simp

@[simp] theorem quiet_raises (c : Chip) (l : List EventBit) : quiet (raises c l) = quiet c := quiet_raiseN _ _ _
@[simp] theorem quiet_raise (c : Chip) (p : Page) (b : Nat) : quiet (raise c p b) = quiet c := quiet_raises _ _
@[simp] theorem quiet_settleEvents (r : Chip × List EventBit) : quiet (settleEvents r) = quiet r.1 := quiet_raises _ _
@[simp] theorem quiet_sendMsg (c : Chip) (n cls : Nat) (b : List Byte) : quiet (sendMsg c n cls b) = quiet c := by
  simp [sendMsg]
@[simp] theorem quiet_setState (c : Chip) (p : Page) (s : BState) : quiet (setState c p s) = quiet c := by
  unfold setState; dsimp only; split <;> simp

/-! ### Fault reports and the black box -/

@[simp] theorem quiet_bbProgram (c : Chip) (r : List Byte) : quiet (bbProgram c r) = quiet c := by
  unfold bbProgram; dsimp only; split <;> simp <;> rfl

@[simp] theorem quiet_bbQueue (c : Chip) (r : List Byte) : quiet (bbQueue c r) = quiet c := by
  unfold bbQueue; dsimp only; split
  · rfl
  · split
    · simp
    · exact quiet_bump c _ _

@[simp] theorem quiet_bbAppend (c : Chip) (r : List Byte) : quiet (bbAppend c r) = quiet c := by
  unfold bbAppend; split
  · simp
  · split <;> simp

@[simp] theorem quiet_bbDrainN (f : Nat) (c : Chip) : quiet (bbDrainN f c) = quiet c := by
  induction f generalizing c with
  | zero => rfl
  | succ f ih =>
    unfold bbDrainN; split
    · rfl
    · split
      · rw [ih]; simp; rfl
      · rfl

@[simp] theorem quiet_bbDrain (c : Chip) : quiet (bbDrain c) = quiet c := quiet_bbDrainN _ _
@[simp] theorem quiet_bbRecord (c : Chip) (k cls l p : Nat) (i : Word) (a : DWord) (m : Word) :
    quiet (bbRecord c k cls l p i a m) = quiet c := by
  unfold bbRecord; dsimp only; simp
@[simp] theorem quiet_bbPlain (c : Chip) (k : Nat) (m : Word) : quiet (bbPlain c k m) = quiet c := quiet_bbRecord _ _ _ _ _ _ _ _

@[simp] theorem quiet_startReaction (c : Chip) (cls l : Nat) : quiet (startReaction c cls l) = quiet c := by
  unfold startReaction; split
  · rfl
  · split <;> rfl

@[simp] theorem quiet_faultRecord (c : Chip) (f : FaultRep) (l : Nat) : quiet (faultRecord c f l) = quiet c := by
  unfold faultRecord; split
  · rfl
  · dsimp only; split
    · rfl
    · split
      · simp
      · simp; rfl

@[simp] theorem quiet_bbRewrite (c : Chip) : quiet (bbRewrite c) = quiet c := by
  unfold bbRewrite; dsimp only; split
  · simp
  · simp; rfl

@[simp] theorem quiet_reportAgain (c : Chip) (f : FaultRep) (l : LastReport) : quiet (reportAgain c f l) = quiet c := by
  unfold reportAgain; dsimp only; split
  · rfl
  · simp only [quiet_startReaction, quiet_raise]; split
    · rw [quiet_setFld]; rfl
    · rfl

@[simp] theorem quiet_reportAt (c : Chip) (f : FaultRep) (n : Nat) : quiet (reportAt c f n) = quiet c := by
  unfold reportAt
  simp only [quiet_startReaction, quiet_faultRecord, quiet_raise]
  split
  · simp only [quiet_bbRewrite, quiet_setReg, quiet_setPair]; exact quiet_takeTick c
  · simp only [quiet_setReg, quiet_setPair]; exact quiet_takeTick c

@[simp] theorem quiet_reportFirst (c : Chip) (f : FaultRep) : quiet (reportFirst c f) = quiet c := quiet_reportAt c f _

theorem quiet_faultState (c : Chip) (f : FaultRep) (h : f.page ≠ .tel) : quiet (faultState c f) = quiet c := by
  unfold faultState; split
  · rw [telLeaves, if_neg h, quiet_setState]
  · rfl

/-- A report changes nothing of the quiet part of the chip; one of TEL's that puts it in FAULT also stops the trace. -/
theorem quiet_report (c : Chip) (f : FaultRep) (h : f.cls.toNat = 0x11 → f.page ≠ .tel) :
    quiet (report c f) = quiet c := by
  unfold report; split
  · rfl
  · have hf : ∀ d : Chip, quiet (faultState d f) = quiet d := by
      intro d
      by_cases e : f.cls.toNat = 0x11
      · exact quiet_faultState d f (h e)
      · exact congrArg quiet (if_neg (fun x => e x.1))
    simp only [hf]; split
    · split <;> simp
    · simp

/-- A fault report changes nothing of the quiet part of the chip; one of TEL's that puts it in FAULT also stops the
trace. -/
theorem quiet_fault (c : Chip) (cls : Nat) (p : Page) (i a : Nat) (b : Bool) (h : cls % 256 = 0x11 → p ≠ .tel) :
    quiet (fault c cls p i a b) = quiet c := by
  have h' : (BitVec.ofNat 8 cls).toNat = 0x11 → p ≠ .tel := by simpa using h
  unfold fault; dsimp only; split
  · exact quiet_report _ _ h'
  · rw [quiet_report _ _ h']; simp

/-- Nor does a fault outside the classes of R475. -/
@[simp] theorem quiet_reportUnlisted (c : Chip) (p : Page) : quiet (reportUnlisted c p) = quiet c := by
  simp [reportUnlisted]

end Sys2Proof.Machine
end

