-- ==== Sys2Proof/Laws/Table.lean ====
section
/-! SUPPORT. Laws of the sparse tables and of GDDR7: a read after a write of the same key gives the value written, a
write leaves every other key alone, and every operation on memory keeps its canonical form. -/

namespace Sys2Proof.Machine

/-! ### Reads after writes -/

theorem tdel_cons {α : Type} (j : Nat) (v : α) (r : Tbl α) (k : Nat) :
    tdel ((j, v) :: r) k = if j = k then tdel r k else (j, v) :: tdel r k := by
  by_cases h : j = k <;> simp [tdel, h]

theorem tfind_tdel_self {α : Type} (t : Tbl α) (k : Nat) : tfind (tdel t k) k = none := by
  induction t with
  | nil => rfl
  | cons e r ih =>
    rw [tdel_cons]
    split
    · exact ih
    · rename_i h; simpa [tfind, h] using ih

theorem tfind_tdel_other {α : Type} (t : Tbl α) (k j : Nat) (h : j ≠ k) : tfind (tdel t k) j = tfind t j := by
  induction t with
  | nil => rfl
  | cons e r ih =>
    rw [tdel_cons]
    split
    · rename_i hk; simp [tfind, ih, show e.1 ≠ j by omega]
    · simp [tfind, ih]

theorem tfind_tins_self {α : Type} (t : Tbl α) (k : Nat) (v : α) : tfind (tins t k v) k = some v := by
  induction t with
  | nil => simp [tins, tfind]
  | cons e r ih =>
    obtain ⟨i, w⟩ := e
    simp only [tins]
    split
    · simp [tfind]
    · split
      · simp [tfind]
      · rename_i h1 h2
        simp [tfind, Ne.symm h2, ih]

theorem tfind_tins_other {α : Type} (t : Tbl α) (k j : Nat) (v : α) (h : j ≠ k) :
    tfind (tins t k v) j = tfind t j := by
  induction t with
  | nil => simp [tins, tfind, Ne.symm h]
  | cons e r ih =>
    obtain ⟨i, w⟩ := e
    simp only [tins]
    split
    · simp [tfind, Ne.symm h]
    · split
      · rename_i h1 h2
        subst h2
        simp [tfind, Ne.symm h]
      · simp [tfind, ih]

@[simp] theorem tget_tset_self {α : Type} [DecidableEq α] (d : α) (t : Tbl α) (k : Nat) (v : α) :
    tget d (tset d t k v) k = v := by
  unfold tget tset
  split
  · rename_i h; simp [tfind_tdel_self, h]
  · simp [tfind_tins_self]

theorem tget_tset_other {α : Type} [DecidableEq α] (d : α) (t : Tbl α) (k j : Nat) (v : α) (h : j ≠ k) :
    tget d (tset d t k v) j = tget d t j := by
  unfold tget tset
  split
  · rw [tfind_tdel_other _ _ _ h]
  · rw [tfind_tins_other _ _ _ _ h]

/-- A key keeps its reading whatever two unlisted keys read as. -/
theorem tget_tset_other' {α : Type} [DecidableEq α] (d d' : α) (t : Tbl α) (k j : Nat) (v : α) (h : j ≠ k) :
    tget d (tset d' t k v) j = tget d t j := by
  unfold tget tset
  split
  · rw [tfind_tdel_other _ _ _ h]
  · rw [tfind_tins_other _ _ _ _ h]

/-- A table read after a write, for every key. -/
theorem tget_tset {α : Type} [DecidableEq α] (d : α) (t : Tbl α) (k j : Nat) (v : α) :
    tget d (tset d t k v) j = if j = k then v else tget d t j := by
  split
  · rename_i h; subst h; simp
  · rename_i h; exact tget_tset_other d t k j v h

/-- Writing what a key reads and then reading any key gives the table's own value. -/
theorem tget_tset_same_value {α : Type} [DecidableEq α] (d : α) (t : Tbl α) (k j : Nat) :
    tget d (tset d t k (tget d t k)) j = tget d t j := by
  rw [tget_tset]; split
  · rename_i h; rw [h]
  · rfl

/-! ### Keys stay in order -/

/-- Keys are strictly rising: each is below all that follow. -/
theorem keysRise_cons {α : Type} (e : Nat × α) (r : Tbl α) :
    keysRise (e :: r) = true ↔ (∀ x ∈ r, e.1 < x.1) ∧ keysRise r = true := by
  induction r generalizing e with
  | nil => simp [keysRise]
  | cons b r ih =>
    simp only [keysRise, Bool.and_eq_true, decide_eq_true_eq, List.mem_cons]
    rw [ih b]
    constructor
    · rintro ⟨h1, h2, h3⟩
      exact ⟨by rintro x (rfl | hx); exacts [h1, h1.trans (h2 x hx)], h2, h3⟩
    · rintro ⟨h1, h2, h3⟩
      exact ⟨h1 b (Or.inl rfl), h2, h3⟩

theorem keysRise_filter {α : Type} (p : Nat × α → Bool) (t : Tbl α) (h : keysRise t = true) :
    keysRise (t.filter p) = true := by
  induction t with
  | nil => rfl
  | cons e r ih =>
    obtain ⟨h1, h2⟩ := (keysRise_cons e r).1 h
    rw [List.filter_cons]
    split
    · exact (keysRise_cons _ _).2 ⟨fun x hx => h1 x (List.mem_of_mem_filter hx), ih h2⟩
    · exact ih h2

theorem mem_tins {α : Type} (t : Tbl α) (k : Nat) (v : α) (x : Nat × α) (h : x ∈ tins t k v) :
    x = (k, v) ∨ x ∈ t := by
  induction t with
  | nil => simpa [tins] using h
  | cons e r ih =>
    obtain ⟨i, w⟩ := e
    simp only [tins] at h
    split at h
    · simpa using h
    · split at h
      · rcases List.mem_cons.1 h with rfl | h
        · exact Or.inl rfl
        · exact Or.inr (List.mem_cons_of_mem _ h)
      · rcases List.mem_cons.1 h with rfl | h
        · exact Or.inr List.mem_cons_self
        · rcases ih h with h | h
          · exact Or.inl h
          · exact Or.inr (List.mem_cons_of_mem _ h)

theorem keysRise_tins {α : Type} (t : Tbl α) (k : Nat) (v : α) (h : keysRise t = true) :
    keysRise (tins t k v) = true := by
  induction t with
  | nil => rfl
  | cons e r ih =>
    obtain ⟨i, w⟩ := e
    obtain ⟨h1, h2⟩ := (keysRise_cons _ _).1 h
    simp only [tins]
    split
    · rename_i hk
      refine (keysRise_cons _ _).2 ⟨?_, h⟩
      intro x hx
      rcases List.mem_cons.1 hx with rfl | hx
      · exact hk
      · exact hk.trans (h1 x hx)
    · split
      · rename_i hk
        subst hk
        exact (keysRise_cons _ _).2 ⟨h1, h2⟩
      · rename_i hk1 hk2
        refine (keysRise_cons _ _).2 ⟨?_, ih h2⟩
        intro x hx
        rcases mem_tins r k v x hx with rfl | hx
        · exact lt_of_le_of_ne (Nat.le_of_not_lt hk1) (Ne.symm hk2)
        · exact h1 x hx

/-! ### Memory -/

/-- A byte read after a byte written. -/
theorem memGet_memPut (m : List Host.Cell) (a b : Nat) (v : Byte) :
    memGet (memPut m a v) b = if b = a then v else memGet m b := tget_tset _ _ _ _ _

theorem memPut_wf (m : List Host.Cell) (a : Nat) (v : Byte) (h : Memory.wf m = true) :
    Memory.wf (memPut m a v) = true := by
  simp only [Memory.wf, Bool.and_eq_true, List.all_eq_true] at h ⊢
  unfold memPut tset
  split
  · exact ⟨keysRise_filter _ _ h.1, fun x hx => h.2 x (List.mem_of_mem_filter hx)⟩
  · rename_i hv
    refine ⟨keysRise_tins _ _ _ h.1, fun x hx => ?_⟩
    rcases mem_tins m a v x hx with rfl | hx
    · simpa using hv
    · exact h.2 x hx

theorem memPuts_wf (l : List (Nat × Byte)) (m : List Host.Cell) (a : Nat) (h : Memory.wf m = true) :
    Memory.wf (l.foldl (fun m e => memPut m (a + e.1) e.2) m) = true := by
  induction l generalizing m with
  | nil => exact h
  | cons e r ih => exact ih _ (memPut_wf _ _ _ h)

/-- A write of bytes keeps the canonical form of memory. -/
theorem memWrite_wf (m : List Host.Cell) (a : Nat) (l : List Byte) (h : Memory.wf m = true) :
    Memory.wf (memWrite m a l) = true := memPuts_wf _ _ _ h

/-- Zeroing a range keeps the canonical form of memory. -/
theorem memZero_wf (m : List Host.Cell) (a n : Nat) (h : Memory.wf m = true) : Memory.wf (memZero m a n) = true := by
  simp only [Memory.wf, Bool.and_eq_true, List.all_eq_true] at h ⊢
  exact ⟨keysRise_filter _ _ h.1, fun x hx => h.2 x (List.mem_of_mem_filter hx)⟩

theorem numbered_cons {α : Type} (b : α) (r : List α) :
    numbered (b :: r) = (0, b) :: (numbered r).map (fun e => (e.1 + 1, e.2)) := by
  simp only [numbered, List.length_cons, List.range_succ_eq_map, List.zip_cons_cons]
  congr 1
  rw [List.zip_map_left]
  apply List.map_congr_left
  rintro ⟨i, x⟩ _
  rfl

/-- A byte read after bytes written at rising places. -/
theorem memGet_puts (l : List Byte) (m : List Host.Cell) (a x : Nat) :
    memGet ((numbered l).foldl (fun m e => memPut m (a + e.1) e.2) m) x =
      if a ≤ x ∧ x < a + l.length then l.getD (x - a) 0 else memGet m x := by
  induction l generalizing m a with
  | nil => simp [numbered]
  | cons b r ih =>
    rw [numbered_cons, List.foldl_cons, List.foldl_map]
    have hs : (fun (m : List Host.Cell) (e : Nat × Byte) => memPut m (a + (e.1 + 1)) e.2) =
        fun m e => memPut m (a + 1 + e.1) e.2 := by
      funext m e; congr 1; omega
    rw [hs, ih, memGet_memPut]
    simp only [List.length_cons, Nat.add_zero]
    by_cases h1 : a = x
    · subst h1
      simp
    · by_cases h2 : a + 1 ≤ x ∧ x < a + 1 + r.length
      · have h3 : x - a = (x - (a + 1)) + 1 := by omega
        rw [if_pos h2, if_pos (by omega), h3]
        simp
      · rw [if_neg h2, if_neg (Ne.symm h1), if_neg (by omega)]

/-- Memory after a write: the bytes written inside the range, all others as before. -/
theorem memGet_memWrite (m : List Host.Cell) (a x : Nat) (l : List Byte) :
    memGet (memWrite m a l) x = if a ≤ x ∧ x < a + l.length then l.getD (x - a) 0 else memGet m x :=
  memGet_puts l m a x

theorem tfind_filter {α : Type} (p : Nat → Bool) (t : Tbl α) (k : Nat) :
    tfind (t.filter (fun e => p e.1)) k = if p k then tfind t k else none := by
  induction t with
  | nil => simp [tfind]
  | cons e r ih =>
    obtain ⟨j, v⟩ := e
    rw [List.filter_cons]
    by_cases hp : p j = true
    · by_cases hj : j = k
      · subst hj; simp [tfind, hp]
      · simp [tfind, hp, hj, ih]
    · by_cases hj : j = k
      · subst hj; simp [hp, ih]
      · simp [tfind, hp, hj, ih]

/-- Memory after a range is zeroed. -/
theorem memGet_memZero (m : List Host.Cell) (a n x : Nat) :
    memGet (memZero m a n) x = if a ≤ x ∧ x < a + n then memDefault else memGet m x := by
  have h := tfind_filter (fun j => decide (j < a) || decide (a + n ≤ j)) m x
  unfold memGet tget memZero
  rw [h]
  by_cases hx : a ≤ x ∧ x < a + n
  · rw [if_pos hx, if_neg (by simp; omega)]; rfl
  · rw [if_neg hx, if_pos (by simp; omega)]

/-- The memory of the machine after reset has the canonical form. -/
theorem reset_memory_wf : Memory.wf State.reset.mem = true := rfl

end Sys2Proof.Machine
end

