-- ==== Sys2Proof/Laws/Grid.lean ====
section
/-! SUPPORT. Laws of the step cores: registers read after they are written, what the advance of issue changes, and what
an operation that issues answers. -/

namespace Sys2Proof.Machine

open Sys2Proof.Safety

/-! ### Cores -/

@[simp] theorem coreAt_setCore (c : Chip) (n : Nat) (k : Core) : coreAt (setCore c n k) n = k := by
  simp [coreAt, setCore]

theorem coreAt_setCore_other (c : Chip) (n m : Nat) (k : Core) (h : m ≠ n) :
    coreAt (setCore c n k) m = coreAt c m := by
  simp [coreAt, setCore, tget_tset_other _ _ _ _ _ h]

@[simp] theorem coreAt_drivePins (c : Chip) (n : Nat) : coreAt (drivePins c) n = coreAt c n := rfl

@[simp] theorem coreAt_after (s : State) (c : Chip) (n : Nat) : coreAt (after s c).toChip n = coreAt c n := rfl

@[simp] theorem after_free (s : State) (c : Chip) : (after s c).free = c.free := rfl

@[simp] theorem setCore_free (c : Chip) (n : Nat) (k : Core) : (setCore c n k).free = c.free := rfl

/-! ### Program order -/

/-- Where issue stands after loops have closed: place and loops left. -/
def loopEnd : Nat → Nat → List LoopFrame → Nat × List LoopFrame
  | 0, pc, ls => (pc, ls)
  | f + 1, pc, ls =>
    match ls with
    | [] => (pc, [])
    | l :: r =>
      if pc ≠ l.start + l.len then (pc, l :: r)
      else if l.index + 1 < l.count then (l.start, { l with index := l.index + 1 } :: r)
      else loopEnd f pc r

theorem closeLoops_eq (f : Nat) (k : Core) :
    closeLoops f k = { k with pc := (loopEnd f k.pc k.loops).1, loops := (loopEnd f k.pc k.loops).2 } := by
  induction f generalizing k with
  | zero => rfl
  | succ f ih =>
    unfold closeLoops loopEnd
    generalize hl : k.loops = ls
    cases ls with
    | nil => simp [← hl]
    | cons l r =>
      by_cases h1 : k.pc = l.start + l.len
      · by_cases h2 : l.index + 1 < l.count
        · simp [h1, h2]
        · simp [h1, h2, ih]
      · simp [h1, ← hl]

/-- Issue that goes on at a place changes that place and the loops alone. -/
theorem goTo_eq (k : Core) (p : Nat) :
    goTo k p = { k with
      pc := (loopEnd (k.loops.length + 1) p k.loops).1
      loops := (loopEnd (k.loops.length + 1) p k.loops).2 } := by
  simp [goTo, closeLoops_eq]

theorem advance_eq (k : Core) :
    advance k = { k with
      pc := (loopEnd (k.loops.length + 1) (k.pc + 1) k.loops).1
      loops := (loopEnd (k.loops.length + 1) (k.pc + 1) k.loops).2 } := by
  simp [advance, goTo_eq]

/-! ### Registers -/

/-- S[A] after a write of S[B]: S0 stays 0. -/
theorem sget_sset (k : Core) (a r : Reg) (w : Word) :
    sget (sset k a w) r = if r = a ∧ a ≠ 0 then w else sget k r := by
  unfold sget sset
  by_cases ha : a = 0
  · subst ha; simp
  · by_cases hr : r = 0
    · subst hr
      rw [if_pos rfl, if_neg (by rintro ⟨h, -⟩; exact ha h.symm), if_pos rfl]
    · rw [if_neg hr, if_neg ha, if_neg hr, tget_tset]
      by_cases h : r = a
      · subst h; rw [if_pos rfl, if_pos ⟨rfl, ha⟩]
      · rw [if_neg (fun h' => h (BitVec.eq_of_toNat_eq h')), if_neg (fun h' => h h'.1)]

theorem sset_eq (k : Core) (a : Reg) (w : Word) : sset k a w = { k with s := (sset k a w).s } := by
  unfold sset; split <;> rfl

@[simp] theorem sget_advance (k : Core) (r : Reg) : sget (advance k) r = sget k r := by
  simp [sget, advance_eq]

theorem advance_sset (k : Core) (a : Reg) (w : Word) :
    advance (sset k a w) = { advance k with s := (sset k a w).s } := by
  rw [sset_eq, advance_eq, advance_eq]

theorem pget_pset (k : Core) (a r : PReg) (w : BitVec 64) :
    pget (pset k a w) r = if r = a ∧ a ≠ 0 then w else pget k r := by
  unfold pget pset
  by_cases ha : a = 0
  · subst ha; simp
  · by_cases hr : r = 0
    · subst hr
      rw [if_pos rfl, if_neg (by rintro ⟨h, -⟩; exact ha h.symm), if_pos rfl]
    · rw [if_neg hr, if_neg ha, if_neg hr, tget_tset]
      by_cases h : r = a
      · subst h; rw [if_pos rfl, if_pos ⟨rfl, ha⟩]
      · rw [if_neg (fun h' => h (BitVec.eq_of_toNat_eq h')), if_neg (fun h' => h h'.1)]

theorem pset_eq (k : Core) (a : PReg) (w : BitVec 64) : pset k a w = { k with p := (pset k a w).p } := by
  unfold pset; split <;> rfl

@[simp] theorem pget_advance (k : Core) (r : PReg) : pget (advance k) r = pget k r := by
  simp [pget, advance_eq]

theorem vget_vset (k : Core) (a r : Reg) (l : List Word) : vget (vset k a l) r = if r = a then l else vget k r := by
  unfold vget vset
  rw [tget_tset]
  by_cases h : r = a
  · subst h; simp
  · rw [if_neg (fun h' => h (BitVec.eq_of_toNat_eq h')), if_neg h]

@[simp] theorem vget_advance (k : Core) (r : Reg) : vget (advance k) r = vget k r := by
  simp [vget, advance_eq]

/-- The lanes of a vector register after a masked write. -/
theorem vget_vsetMasked (k : Core) (g : Guard) (a r : Reg) (l : List Word) (j : Nat) (hj : j < 64) :
    (vget (vsetMasked k g a l) r).getD j 0 =
      if r = a ∧ (guardMask k g).getLsbD j = true then l.getD j 0 else (vget k r).getD j 0 := by
  unfold vsetMasked
  simp only [vget_vset]
  by_cases h : r = a
  · subst h
    rw [if_pos rfl]
    rw [List.getD_eq_getElem?_getD, List.getElem?_map, List.getElem?_range hj]
    simp
  · rw [if_neg h, if_neg (fun h' => h h'.1)]

/-! ### Core store -/

theorem tfind_puts (l : List Byte) (t : Tbl Byte) (a x : Nat) :
    tfind ((numbered l).foldl (fun t e => tins t (a + e.1) e.2) t) x =
      if a ≤ x ∧ x < a + l.length then some (l.getD (x - a) 0) else tfind t x := by
  induction l generalizing t a with
  | nil => simp [numbered]
  | cons b r ih =>
    rw [numbered_cons, List.foldl_cons, List.foldl_map]
    have hs : (fun (t : Tbl Byte) (e : Nat × Byte) => tins t (a + (e.1 + 1)) e.2) =
        fun t e => tins t (a + 1 + e.1) e.2 := by
      funext t e; congr 1; omega
    rw [hs, ih]
    simp only [List.length_cons, Nat.add_zero]
    by_cases h1 : a = x
    · subst h1
      simp [tfind_tins_self]
    · by_cases h2 : a + 1 ≤ x ∧ x < a + 1 + r.length
      · have h3 : x - a = (x - (a + 1)) + 1 := by omega
        rw [if_pos h2, if_pos (by omega), h3]
        simp
      · rw [if_neg h2, tfind_tins_other _ _ _ _ (Ne.symm h1), if_neg (by omega)]

/-- The core store after a write: the bytes written inside the range, all others as before. -/
theorem coreByte_coreWrite (k : Core) (a x : Nat) (l : List Byte) :
    coreByte (coreWrite k a l) x = if a ≤ x ∧ x < a + l.length then l.getD (x - a) 0 else coreByte k x := by
  unfold coreByte coreWrite
  simp only [tfind_puts]
  split <;> simp

@[simp] theorem coreByte_advance (k : Core) (x : Nat) : coreByte (advance k) x = coreByte k x := by
  simp [coreByte, advance_eq]

/-! ### Issue -/

/-- A core that issues: the operation's effect, then what follows on the chip. -/
theorem onCore_next (s : State) (core : CoreId) (f : Chip → Core → IRes) (post : Chip → Chip) (k' : Core)
    (h : Issues s.toChip core.toNat) (hf : f s.toChip (coreAt s.toChip core.toNat) = .next k') :
    onCore s core f post = .next (after s (post (setCore s.toChip core.toNat k'))) := by
  obtain ⟨⟨h1, h2, h3⟩, h4⟩ := h
  simp [onCore, act, whenAwake, fastRuns, h1, h2, h3, issue, h4, hf, after]

/-- A core that meets a program error. -/
theorem onCore_err (s : State) (core : CoreId) (f : Chip → Core → IRes) (post : Chip → Chip) (e : Nat)
    (h : Issues s.toChip core.toNat) (hf : f s.toChip (coreAt s.toChip core.toNat) = .err e) :
    onCore s core f post = .next (after s (progError s.toChip core.toNat e)) := by
  obtain ⟨⟨h1, h2, h3⟩, h4⟩ := h
  simp [onCore, act, whenAwake, fastRuns, h1, h2, h3, issue, h4, hf, after]

/-- A core that stalls changes nothing. -/
theorem onCore_stall (s : State) (core : CoreId) (f : Chip → Core → IRes) (post : Chip → Chip)
    (h : Issues s.toChip core.toNat) (hf : f s.toChip (coreAt s.toChip core.toNat) = .stall) :
    onCore s core f post = .next (after s s.toChip) := by
  obtain ⟨⟨h1, h2, h3⟩, h4⟩ := h
  simp [onCore, act, whenAwake, fastRuns, h1, h2, h3, issue, h4, hf, after]

theorem onlyCore_set (s : State) (n : Nat) (k : Core) : OnlyCore s (after s (setCore s.toChip n k)) n := by
  simp [OnlyCore]; rfl

/-- An operand in range, aligned and not busy is read or written. -/
theorem withStore_ok (c : Chip) (n : Nat) (w : Bool) (a len : Nat) (r : IRes)
    (h : Operand c n w a len (alignOf len)) : withStore c n w a len r = r := by
  obtain ⟨h1, h2, h3⟩ := h
  simp [withStore, operandErr, Nat.not_lt.2 h1, h2, h3]

end Sys2Proof.Machine
end

