-- ==== Sys2Proof/Laws/Heap.lean ====
section
/-! SUPPORT. Laws of the heap allocator: an allocation stands where it fits, and a candidate that fits makes it succeed
whatever the free value names; laws of the stable sort. -/

namespace Sys2Proof.Machine

/-- Whether a place fits depends on the ranges of the heap and on its allocations alone. -/
theorem heapFits_congr {c d : Chip} (p a n : Nat) (hr : heapRanges c p = heapRanges d p)
    (hh : c.tier.heap = d.tier.heap) : heapFits c p a n = heapFits d p a n := by
  simp [heapFits, hr, hh]

/-- The place of an allocation fits, and the chip keeps everything but the heap and the counter of free values. -/
theorem heapAlloc_spec {c : Chip} {p n b : Nat} {c1 : Chip} (h : heapAlloc c p n = some (b, c1)) :
    heapFits c p b n = true ∧
      c1 = { c with free := c.free + 1, tier := { c.tier with heap := c.tier.heap ++ [(b, n, p)] } } := by
  have hc : ∀ a, heapFits { c with free := c.free + 1 } p a n = heapFits c p a n := fun a => rfl
  simp only [heapAlloc, takeFree, hc] at h
  split at h
  · cases h
  · rename_i d hd
    simp only [Option.some.injEq, Prod.mk.injEq] at h
    obtain ⟨rfl, rfl⟩ := h
    refine ⟨?_, rfl⟩
    split at hd
    · rename_i ht
      simp only [Option.some.injEq] at hd
      exact hd ▸ ht
    · have := List.find?_some (p := fun b => heapFits c p b n) hd
      exact this

/-- An allocation succeeds when some candidate place fits. -/
theorem heapAlloc_isSome {c : Chip} {p n b : Nat} (hm : b ∈ heapCands c p) (hb : heapFits c p b n = true) :
    (heapAlloc c p n).isSome = true := by
  have hc : ∀ a, heapFits { c with free := c.free + 1 } p a n = heapFits c p a n := fun a => rfl
  have hd : heapCands { c with free := c.free + 1 } p = heapCands c p := rfl
  simp only [heapAlloc, takeFree, hc, hd]
  split
  · rename_i h
    split at h
    · cases h
    · exact absurd hb (by simpa using List.find?_eq_none.1 h b hm)
  · rfl

/-- A place in a heap of one range, in terms of addresses. -/
theorem heapFits_one {c : Chip} {p a n base len : Nat} (hr : heapRanges c p = [(base, len)]) :
    heapFits c p a n = true ↔ 0 < a ∧ a % 64 = 0 ∧ base ≤ a ∧ a + n ≤ base + len ∧
      ∀ x ∈ c.tier.heap, overlaps a (max 1 n) x.1 (max 1 x.2.1) = false := by
  simp [heapFits, hr, and_assoc]

/-- In a heap of one range a place that follows an allocation, or begins the range, is a candidate. -/
theorem mem_heapCands_one {c : Chip} {p a base len : Nat} (hr : heapRanges c p = [(base, len)]) :
    a ∈ heapCands c p ↔ a = max 64 (roundUp base 64) ∨ ∃ x ∈ c.tier.heap, roundUp (x.1 + max 1 x.2.1) 64 = a := by
  simp [heapCands, hr]

/-- An aligned number rounds up to itself. -/
theorem roundUp_self {a : Nat} (h : a % 64 = 0) : roundUp a 64 = a := by
  simp only [roundUp]; split
  · omega
  · omega

/-- Ranges of which one ends before the other do not overlap. -/
theorem overlaps_eq_false {a n b k : Nat} : overlaps a n b k = false ↔ n = 0 ∨ k = 0 ∨ b + k ≤ a ∨ a + n ≤ b := by
  simp only [overlaps, Bool.and_eq_false_iff, decide_eq_false_iff_not]; omega

/-- Three aligned allocations succeed in an empty heap of one range, not at address 0, that holds four times their bytes,
wherever the free values place them. -/
theorem heapAllocs_three {c : Chip} {p base len m n k : Nat} (hr : heapRanges c p = [(base, len)])
    (hh : c.tier.heap = []) (h0 : 0 < base) (hb : base % 64 = 0) (hm : m % 64 = 0) (hn : n % 64 = 0) (hk : k % 64 = 0)
    (hm0 : 0 < m) (hn0 : 0 < n) (hk0 : 0 < k) (hl : 4 * (m + n + k) ≤ len) :
    (heapAllocs c p [m, n, k]).isSome = true := by
  have hbase : base = max 64 (roundUp base 64) := by rw [roundUp_self hb]; omega
  have mm : max 1 m = m := by omega
  have mn : max 1 n = n := by omega
  have mk : max 1 k = k := by omega
  have h1 : (heapAlloc c p m).isSome = true := by
    refine heapAlloc_isSome (b := base) ((mem_heapCands_one hr).2 (.inl hbase)) ?_
    exact (heapFits_one hr).2 ⟨h0, hb, le_refl _, by omega, by simp [hh]⟩
  obtain ⟨⟨b1, c1⟩, e1⟩ := Option.isSome_iff_exists.1 h1
  obtain ⟨f1, d1⟩ := heapAlloc_spec e1
  have g1 := (heapFits_one hr).1 f1
  have hr1 : heapRanges c1 p = [(base, len)] := by rw [d1]; exact hr
  have hh1 : c1.tier.heap = [(b1, m, p)] := by rw [d1]; simp [hh]
  have h2 : (heapAlloc c1 p n).isSome = true := by
    by_cases hs : base + n ≤ b1
    · refine heapAlloc_isSome (b := base) ((mem_heapCands_one hr1).2 (.inl hbase)) ?_
      refine (heapFits_one hr1).2 ⟨h0, hb, le_refl _, by omega, ?_⟩
      simp only [hh1, List.mem_singleton, forall_eq, mm, mn, overlaps_eq_false]; omega
    · refine heapAlloc_isSome (b := b1 + m) ((mem_heapCands_one hr1).2 (.inr ⟨(b1, m, p), by simp [hh1], ?_⟩)) ?_
      · simp only [mm]; exact roundUp_self (by omega)
      · refine (heapFits_one hr1).2 ⟨by omega, by omega, by omega, by omega, ?_⟩
        simp only [hh1, List.mem_singleton, forall_eq, mm, mn, overlaps_eq_false]; omega
  obtain ⟨⟨b2, c2⟩, e2⟩ := Option.isSome_iff_exists.1 h2
  obtain ⟨f2, d2⟩ := heapAlloc_spec e2
  have g2 := (heapFits_one hr1).1 f2
  have o2 : n = 0 ∨ m = 0 ∨ b1 + m ≤ b2 ∨ b2 + n ≤ b1 := by
    simpa only [hh1, List.mem_singleton, forall_eq, mm, mn, overlaps_eq_false] using g2.2.2.2.2
  have hr2 : heapRanges c2 p = [(base, len)] := by rw [d2]; exact hr1
  have hh2 : c2.tier.heap = [(b1, m, p), (b2, n, p)] := by rw [d2]; simp [hh1]
  have key : ∀ a, a % 64 = 0 → (a = base ∨ a = b1 + m ∨ a = b2 + n) → base ≤ a → a + k ≤ base + len →
      (b1 + m ≤ a ∨ a + k ≤ b1) → (b2 + n ≤ a ∨ a + k ≤ b2) → (heapAlloc c2 p k).isSome = true := by
    intro a ha hc hlo hhi p1 p2
    refine heapAlloc_isSome (b := a) ((mem_heapCands_one hr2).2 ?_) ((heapFits_one hr2).2 ⟨by omega, ha, hlo, hhi, ?_⟩)
    · rcases hc with rfl | rfl | rfl
      · exact .inl hbase
      · exact .inr ⟨(b1, m, p), by simp [hh2], by simp only [mm]; exact roundUp_self ha⟩
      · exact .inr ⟨(b2, n, p), by simp [hh2], by simp only [mn]; exact roundUp_self ha⟩
    · simp only [hh2, List.mem_cons, List.not_mem_nil, or_false, forall_eq_or_imp, forall_eq, overlaps_eq_false, mm, mn, mk]
      omega
  have h3 : (heapAlloc c2 p k).isSome = true := by
    obtain ⟨-, a1, a2, a3, -⟩ := g1
    obtain ⟨-, a4, a5, a6, -⟩ := g2
    by_cases q0 : base + k ≤ b1 ∧ base + k ≤ b2
    · exact key base hb (.inl rfl) (le_refl _) (by omega) (by omega) (by omega)
    by_cases q1 : b1 + m + k ≤ base + len ∧ (b2 + n ≤ b1 + m ∨ b1 + m + k ≤ b2)
    · exact key (b1 + m) (by omega) (.inr (.inl rfl)) (by omega) (by omega) (by omega) (by omega)
    · exact key (b2 + n) (by omega) (.inr (.inr rfl)) (by omega) (by omega) (by omega) (by omega)
  obtain ⟨⟨b3, c3⟩, e3⟩ := Option.isSome_iff_exists.1 h3
  simp [heapAllocs, e1, e2, e3]

/-! ### The stable sort -/

/-- Inserting keeps the members. -/
theorem mem_insertBy {α : Type} (k : α → Nat) (a b : α) (l : List α) : b ∈ insertBy k a l ↔ b = a ∨ b ∈ l := by
  induction l with
  | nil => simp [insertBy]
  | cons c r ih => simp only [insertBy]; split <;> simp [ih] ; tauto

/-- Sorting keeps the members. -/
theorem mem_sortBy {α : Type} (k : α → Nat) (b : α) (l : List α) : b ∈ sortBy k l ↔ b ∈ l := by
  induction l with
  | nil => simp [sortBy]
  | cons c r ih =>
    have h : sortBy k (c :: r) = insertBy k c (sortBy k r) := rfl
    rw [h, mem_insertBy, ih, List.mem_cons]

end Sys2Proof.Machine
end

