-- ==== Sys2Proof/Laws/Media.lean ====
section
/-! SUPPORT. Laws of flash placement: with one die left its order is settled, and a spare stays a choice whatever the
free values name. -/

namespace Sys2Proof.Machine

/-- A partition with one die tries that die. -/
theorem dieOrder_one {c : Chip} {p d : Nat} (h : diesFor c p = [d]) (v : Nat) : dieOrder c p v = [d] := by
  simp [dieOrder, h, sortBy, insertBy, Nat.mod_one]

/-- The spares that a copy of extent `s` may go to are the spare extents on the dies of its partition. -/
theorem mem_spareList {c : Chip} {s e : Nat} : e ∈ spareList c s ↔
    e / 2048 ∈ diesFor c (partOfDie c (dieOf s)) ∧ (extent c e).state = .spare := by
  simp only [spareList, sparesOn, List.mem_flatMap, List.mem_filter, List.mem_range, List.mem_map, decide_eq_true_eq]
  constructor
  · rintro ⟨d, h1, ⟨i, hi, rfl⟩, h3⟩
    have : (2048 * d + i) / 2048 = d := by omega
    exact ⟨by rw [this]; exact h1, h3⟩
  · rintro ⟨h1, h3⟩
    exact ⟨e / 2048, h1, ⟨e % 2048, by omega, by omega⟩, h3⟩

/-- Where some spare exists, a sort of the spares has a first one, and that one is a spare. -/
theorem spare_first {c : Chip} {s e : Nat} (k : Nat → Nat) (h : e ∈ spareList c s) :
    ∃ x m, sortBy k (spareList c s) = x :: m ∧ (extent c x).state = .spare := by
  have h1 : e ∈ sortBy k (spareList c s) := (mem_sortBy k e _).2 h
  cases hs : sortBy k (spareList c s) with
  | nil => rw [hs] at h1; cases h1
  | cons x m =>
    have hx : x ∈ sortBy k (spareList c s) := by simp [hs]
    exact ⟨x, m, rfl, (mem_spareList.1 ((mem_sortBy k x _).1 hx)).2⟩

end Sys2Proof.Machine
end

