-- ==== Sys2Proof/Laws/State.lean ====
section
/-! SUPPORT. What each update of a chip leaves alone: one law for each update and each field that it does not write, all by
definition. -/

namespace Sys2Proof.Machine

/-! ### setEntry -/

@[simp] theorem setEntry_variant (c : Chip) (i : Nat) (e : Session) : (setEntry c i e).variant = c.variant := rfl
@[simp] theorem setEntry_mgmt (c : Chip) (i : Nat) (e : Session) : (setEntry c i e).mgmt = c.mgmt := rfl
@[simp] theorem setEntry_smb (c : Chip) (i : Nat) (e : Session) : (setEntry c i e).smb = c.smb := rfl
@[simp] theorem setEntry_mem (c : Chip) (i : Nat) (e : Session) : (setEntry c i e).mem = c.mem := rfl
@[simp] theorem setEntry_fig (c : Chip) (i : Nat) (e : Session) : (setEntry c i e).fig = c.fig := rfl
@[simp] theorem setEntry_tier (c : Chip) (i : Nat) (e : Session) : (setEntry c i e).tier = c.tier := rfl
@[simp] theorem setEntry_flash (c : Chip) (i : Nat) (e : Session) : (setEntry c i e).flash = c.flash := rfl
@[simp] theorem setEntry_grid (c : Chip) (i : Nat) (e : Session) : (setEntry c i e).grid = c.grid := rfl
@[simp] theorem setEntry_sched (c : Chip) (i : Nat) (e : Session) : (setEntry c i e).sched = c.sched := rfl
@[simp] theorem setEntry_checks (c : Chip) (i : Nat) (e : Session) : (setEntry c i e).checks = c.checks := rfl
@[simp] theorem setEntry_cuts (c : Chip) (i : Nat) (e : Session) : (setEntry c i e).cuts = c.cuts := rfl
@[simp] theorem setEntry_cutNext (c : Chip) (i : Nat) (e : Session) : (setEntry c i e).cutNext = c.cutNext := rfl
@[simp] theorem setEntry_xpt (c : Chip) (i : Nat) (e : Session) : (setEntry c i e).xpt = c.xpt := rfl
@[simp] theorem setEntry_peer (c : Chip) (i : Nat) (e : Session) : (setEntry c i e).peer = c.peer := rfl
@[simp] theorem setEntry_host (c : Chip) (i : Nat) (e : Session) : (setEntry c i e).host = c.host := rfl
@[simp] theorem setEntry_egr (c : Chip) (i : Nat) (e : Session) : (setEntry c i e).egr = c.egr := rfl
@[simp] theorem setEntry_srch (c : Chip) (i : Nat) (e : Session) : (setEntry c i e).srch = c.srch := rfl
@[simp] theorem setEntry_ckpt (c : Chip) (i : Nat) (e : Session) : (setEntry c i e).ckpt = c.ckpt := rfl
@[simp] theorem setEntry_pwr (c : Chip) (i : Nat) (e : Session) : (setEntry c i e).pwr = c.pwr := rfl
@[simp] theorem setEntry_sec (c : Chip) (i : Nat) (e : Session) : (setEntry c i e).sec = c.sec := rfl
@[simp] theorem setEntry_flt (c : Chip) (i : Nat) (e : Session) : (setEntry c i e).flt = c.flt := rfl
@[simp] theorem setEntry_chip (c : Chip) (i : Nat) (e : Session) : (setEntry c i e).chip = c.chip := rfl
@[simp] theorem setEntry_tap (c : Chip) (i : Nat) (e : Session) : (setEntry c i e).tap = c.tap := rfl
@[simp] theorem setEntry_crc (c : Chip) (i : Nat) (e : Session) : (setEntry c i e).crc = c.crc := rfl
@[simp] theorem setEntry_pins (c : Chip) (i : Nat) (e : Session) : (setEntry c i e).pins = c.pins := rfl
@[simp] theorem setEntry_free (c : Chip) (i : Nat) (e : Session) : (setEntry c i e).free = c.free := rfl
@[simp] theorem setEntry_now (c : Chip) (i : Nat) (e : Session) : (setEntry c i e).now = c.now := rfl
@[simp] theorem setEntry_fineNow (c : Chip) (i : Nat) (e : Session) : (setEntry c i e).fineNow = c.fineNow := rfl

/-! ### setBody -/

@[simp] theorem setBody_variant (c : Chip) (i : Nat) (b : Body) : (setBody c i b).variant = c.variant := rfl
@[simp] theorem setBody_mgmt (c : Chip) (i : Nat) (b : Body) : (setBody c i b).mgmt = c.mgmt := rfl
@[simp] theorem setBody_smb (c : Chip) (i : Nat) (b : Body) : (setBody c i b).smb = c.smb := rfl
@[simp] theorem setBody_mem (c : Chip) (i : Nat) (b : Body) : (setBody c i b).mem = c.mem := rfl
@[simp] theorem setBody_fig (c : Chip) (i : Nat) (b : Body) : (setBody c i b).fig = c.fig := rfl
@[simp] theorem setBody_tier (c : Chip) (i : Nat) (b : Body) : (setBody c i b).tier = c.tier := rfl
@[simp] theorem setBody_flash (c : Chip) (i : Nat) (b : Body) : (setBody c i b).flash = c.flash := rfl
@[simp] theorem setBody_grid (c : Chip) (i : Nat) (b : Body) : (setBody c i b).grid = c.grid := rfl
@[simp] theorem setBody_sched (c : Chip) (i : Nat) (b : Body) : (setBody c i b).sched = c.sched := rfl
@[simp] theorem setBody_checks (c : Chip) (i : Nat) (b : Body) : (setBody c i b).checks = c.checks := rfl
@[simp] theorem setBody_cuts (c : Chip) (i : Nat) (b : Body) : (setBody c i b).cuts = c.cuts := rfl
@[simp] theorem setBody_cutNext (c : Chip) (i : Nat) (b : Body) : (setBody c i b).cutNext = c.cutNext := rfl
@[simp] theorem setBody_xpt (c : Chip) (i : Nat) (b : Body) : (setBody c i b).xpt = c.xpt := rfl
@[simp] theorem setBody_peer (c : Chip) (i : Nat) (b : Body) : (setBody c i b).peer = c.peer := rfl
@[simp] theorem setBody_host (c : Chip) (i : Nat) (b : Body) : (setBody c i b).host = c.host := rfl
@[simp] theorem setBody_egr (c : Chip) (i : Nat) (b : Body) : (setBody c i b).egr = c.egr := rfl
@[simp] theorem setBody_srch (c : Chip) (i : Nat) (b : Body) : (setBody c i b).srch = c.srch := rfl
@[simp] theorem setBody_ckpt (c : Chip) (i : Nat) (b : Body) : (setBody c i b).ckpt = c.ckpt := rfl
@[simp] theorem setBody_pwr (c : Chip) (i : Nat) (b : Body) : (setBody c i b).pwr = c.pwr := rfl
@[simp] theorem setBody_sec (c : Chip) (i : Nat) (b : Body) : (setBody c i b).sec = c.sec := rfl
@[simp] theorem setBody_flt (c : Chip) (i : Nat) (b : Body) : (setBody c i b).flt = c.flt := rfl
@[simp] theorem setBody_chip (c : Chip) (i : Nat) (b : Body) : (setBody c i b).chip = c.chip := rfl
@[simp] theorem setBody_tap (c : Chip) (i : Nat) (b : Body) : (setBody c i b).tap = c.tap := rfl
@[simp] theorem setBody_crc (c : Chip) (i : Nat) (b : Body) : (setBody c i b).crc = c.crc := rfl
@[simp] theorem setBody_pins (c : Chip) (i : Nat) (b : Body) : (setBody c i b).pins = c.pins := rfl
@[simp] theorem setBody_free (c : Chip) (i : Nat) (b : Body) : (setBody c i b).free = c.free := rfl
@[simp] theorem setBody_now (c : Chip) (i : Nat) (b : Body) : (setBody c i b).now = c.now := rfl
@[simp] theorem setBody_fineNow (c : Chip) (i : Nat) (b : Body) : (setBody c i b).fineNow = c.fineNow := rfl

/-! ### setOps -/

@[simp] theorem setOps_variant (c : Chip) (i : Nat) (l : List Op) : (setOps c i l).variant = c.variant := rfl
@[simp] theorem setOps_mgmt (c : Chip) (i : Nat) (l : List Op) : (setOps c i l).mgmt = c.mgmt := rfl
@[simp] theorem setOps_smb (c : Chip) (i : Nat) (l : List Op) : (setOps c i l).smb = c.smb := rfl
@[simp] theorem setOps_mem (c : Chip) (i : Nat) (l : List Op) : (setOps c i l).mem = c.mem := rfl
@[simp] theorem setOps_fig (c : Chip) (i : Nat) (l : List Op) : (setOps c i l).fig = c.fig := rfl
@[simp] theorem setOps_tier (c : Chip) (i : Nat) (l : List Op) : (setOps c i l).tier = c.tier := rfl
@[simp] theorem setOps_flash (c : Chip) (i : Nat) (l : List Op) : (setOps c i l).flash = c.flash := rfl
@[simp] theorem setOps_grid (c : Chip) (i : Nat) (l : List Op) : (setOps c i l).grid = c.grid := rfl
@[simp] theorem setOps_sched (c : Chip) (i : Nat) (l : List Op) : (setOps c i l).sched = c.sched := rfl
@[simp] theorem setOps_checks (c : Chip) (i : Nat) (l : List Op) : (setOps c i l).checks = c.checks := rfl
@[simp] theorem setOps_cuts (c : Chip) (i : Nat) (l : List Op) : (setOps c i l).cuts = c.cuts := rfl
@[simp] theorem setOps_cutNext (c : Chip) (i : Nat) (l : List Op) : (setOps c i l).cutNext = c.cutNext := rfl
@[simp] theorem setOps_xpt (c : Chip) (i : Nat) (l : List Op) : (setOps c i l).xpt = c.xpt := rfl
@[simp] theorem setOps_peer (c : Chip) (i : Nat) (l : List Op) : (setOps c i l).peer = c.peer := rfl
@[simp] theorem setOps_host (c : Chip) (i : Nat) (l : List Op) : (setOps c i l).host = c.host := rfl
@[simp] theorem setOps_egr (c : Chip) (i : Nat) (l : List Op) : (setOps c i l).egr = c.egr := rfl
@[simp] theorem setOps_srch (c : Chip) (i : Nat) (l : List Op) : (setOps c i l).srch = c.srch := rfl
@[simp] theorem setOps_ckpt (c : Chip) (i : Nat) (l : List Op) : (setOps c i l).ckpt = c.ckpt := rfl
@[simp] theorem setOps_pwr (c : Chip) (i : Nat) (l : List Op) : (setOps c i l).pwr = c.pwr := rfl
@[simp] theorem setOps_sec (c : Chip) (i : Nat) (l : List Op) : (setOps c i l).sec = c.sec := rfl
@[simp] theorem setOps_flt (c : Chip) (i : Nat) (l : List Op) : (setOps c i l).flt = c.flt := rfl
@[simp] theorem setOps_chip (c : Chip) (i : Nat) (l : List Op) : (setOps c i l).chip = c.chip := rfl
@[simp] theorem setOps_tap (c : Chip) (i : Nat) (l : List Op) : (setOps c i l).tap = c.tap := rfl
@[simp] theorem setOps_crc (c : Chip) (i : Nat) (l : List Op) : (setOps c i l).crc = c.crc := rfl
@[simp] theorem setOps_pins (c : Chip) (i : Nat) (l : List Op) : (setOps c i l).pins = c.pins := rfl
@[simp] theorem setOps_free (c : Chip) (i : Nat) (l : List Op) : (setOps c i l).free = c.free := rfl
@[simp] theorem setOps_now (c : Chip) (i : Nat) (l : List Op) : (setOps c i l).now = c.now := rfl
@[simp] theorem setOps_fineNow (c : Chip) (i : Nat) (l : List Op) : (setOps c i l).fineNow = c.fineNow := rfl

/-! ### setRegion -/

@[simp] theorem setRegion_variant (c : Chip) (i : Nat) (r : Region) : (setRegion c i r).variant = c.variant := rfl
@[simp] theorem setRegion_mgmt (c : Chip) (i : Nat) (r : Region) : (setRegion c i r).mgmt = c.mgmt := rfl
@[simp] theorem setRegion_smb (c : Chip) (i : Nat) (r : Region) : (setRegion c i r).smb = c.smb := rfl
@[simp] theorem setRegion_mem (c : Chip) (i : Nat) (r : Region) : (setRegion c i r).mem = c.mem := rfl
@[simp] theorem setRegion_sess (c : Chip) (i : Nat) (r : Region) : (setRegion c i r).sess = c.sess := rfl
@[simp] theorem setRegion_fig (c : Chip) (i : Nat) (r : Region) : (setRegion c i r).fig = c.fig := rfl
@[simp] theorem setRegion_tier (c : Chip) (i : Nat) (r : Region) : (setRegion c i r).tier = c.tier := rfl
@[simp] theorem setRegion_flash (c : Chip) (i : Nat) (r : Region) : (setRegion c i r).flash = c.flash := rfl
@[simp] theorem setRegion_grid (c : Chip) (i : Nat) (r : Region) : (setRegion c i r).grid = c.grid := rfl
@[simp] theorem setRegion_sched (c : Chip) (i : Nat) (r : Region) : (setRegion c i r).sched = c.sched := rfl
@[simp] theorem setRegion_checks (c : Chip) (i : Nat) (r : Region) : (setRegion c i r).checks = c.checks := rfl
@[simp] theorem setRegion_cuts (c : Chip) (i : Nat) (r : Region) : (setRegion c i r).cuts = c.cuts := rfl
@[simp] theorem setRegion_cutNext (c : Chip) (i : Nat) (r : Region) : (setRegion c i r).cutNext = c.cutNext := rfl
@[simp] theorem setRegion_peer (c : Chip) (i : Nat) (r : Region) : (setRegion c i r).peer = c.peer := rfl
@[simp] theorem setRegion_host (c : Chip) (i : Nat) (r : Region) : (setRegion c i r).host = c.host := rfl
@[simp] theorem setRegion_egr (c : Chip) (i : Nat) (r : Region) : (setRegion c i r).egr = c.egr := rfl
@[simp] theorem setRegion_srch (c : Chip) (i : Nat) (r : Region) : (setRegion c i r).srch = c.srch := rfl
@[simp] theorem setRegion_ckpt (c : Chip) (i : Nat) (r : Region) : (setRegion c i r).ckpt = c.ckpt := rfl
@[simp] theorem setRegion_pwr (c : Chip) (i : Nat) (r : Region) : (setRegion c i r).pwr = c.pwr := rfl
@[simp] theorem setRegion_sec (c : Chip) (i : Nat) (r : Region) : (setRegion c i r).sec = c.sec := rfl
@[simp] theorem setRegion_flt (c : Chip) (i : Nat) (r : Region) : (setRegion c i r).flt = c.flt := rfl
@[simp] theorem setRegion_chip (c : Chip) (i : Nat) (r : Region) : (setRegion c i r).chip = c.chip := rfl
@[simp] theorem setRegion_tap (c : Chip) (i : Nat) (r : Region) : (setRegion c i r).tap = c.tap := rfl
@[simp] theorem setRegion_crc (c : Chip) (i : Nat) (r : Region) : (setRegion c i r).crc = c.crc := rfl
@[simp] theorem setRegion_pins (c : Chip) (i : Nat) (r : Region) : (setRegion c i r).pins = c.pins := rfl
@[simp] theorem setRegion_free (c : Chip) (i : Nat) (r : Region) : (setRegion c i r).free = c.free := rfl
@[simp] theorem setRegion_now (c : Chip) (i : Nat) (r : Region) : (setRegion c i r).now = c.now := rfl
@[simp] theorem setRegion_fineNow (c : Chip) (i : Nat) (r : Region) : (setRegion c i r).fineNow = c.fineNow := rfl

/-! ### setJobs -/

@[simp] theorem setJobs_variant (c : Chip) (p client : Nat) (j : Nat × Nat × Nat) : (setJobs c p client j).variant = c.variant := rfl
@[simp] theorem setJobs_mgmt (c : Chip) (p client : Nat) (j : Nat × Nat × Nat) : (setJobs c p client j).mgmt = c.mgmt := rfl
@[simp] theorem setJobs_smb (c : Chip) (p client : Nat) (j : Nat × Nat × Nat) : (setJobs c p client j).smb = c.smb := rfl
@[simp] theorem setJobs_mem (c : Chip) (p client : Nat) (j : Nat × Nat × Nat) : (setJobs c p client j).mem = c.mem := rfl
@[simp] theorem setJobs_sess (c : Chip) (p client : Nat) (j : Nat × Nat × Nat) : (setJobs c p client j).sess = c.sess := rfl
@[simp] theorem setJobs_fig (c : Chip) (p client : Nat) (j : Nat × Nat × Nat) : (setJobs c p client j).fig = c.fig := rfl
@[simp] theorem setJobs_tier (c : Chip) (p client : Nat) (j : Nat × Nat × Nat) : (setJobs c p client j).tier = c.tier := rfl
@[simp] theorem setJobs_flash (c : Chip) (p client : Nat) (j : Nat × Nat × Nat) : (setJobs c p client j).flash = c.flash := rfl
@[simp] theorem setJobs_grid (c : Chip) (p client : Nat) (j : Nat × Nat × Nat) : (setJobs c p client j).grid = c.grid := rfl
@[simp] theorem setJobs_checks (c : Chip) (p client : Nat) (j : Nat × Nat × Nat) : (setJobs c p client j).checks = c.checks := rfl
@[simp] theorem setJobs_cuts (c : Chip) (p client : Nat) (j : Nat × Nat × Nat) : (setJobs c p client j).cuts = c.cuts := rfl
@[simp] theorem setJobs_cutNext (c : Chip) (p client : Nat) (j : Nat × Nat × Nat) : (setJobs c p client j).cutNext = c.cutNext := rfl
@[simp] theorem setJobs_xpt (c : Chip) (p client : Nat) (j : Nat × Nat × Nat) : (setJobs c p client j).xpt = c.xpt := rfl
@[simp] theorem setJobs_peer (c : Chip) (p client : Nat) (j : Nat × Nat × Nat) : (setJobs c p client j).peer = c.peer := rfl
@[simp] theorem setJobs_host (c : Chip) (p client : Nat) (j : Nat × Nat × Nat) : (setJobs c p client j).host = c.host := rfl
@[simp] theorem setJobs_egr (c : Chip) (p client : Nat) (j : Nat × Nat × Nat) : (setJobs c p client j).egr = c.egr := rfl
@[simp] theorem setJobs_srch (c : Chip) (p client : Nat) (j : Nat × Nat × Nat) : (setJobs c p client j).srch = c.srch := rfl
@[simp] theorem setJobs_ckpt (c : Chip) (p client : Nat) (j : Nat × Nat × Nat) : (setJobs c p client j).ckpt = c.ckpt := rfl
@[simp] theorem setJobs_pwr (c : Chip) (p client : Nat) (j : Nat × Nat × Nat) : (setJobs c p client j).pwr = c.pwr := rfl
@[simp] theorem setJobs_sec (c : Chip) (p client : Nat) (j : Nat × Nat × Nat) : (setJobs c p client j).sec = c.sec := rfl
@[simp] theorem setJobs_flt (c : Chip) (p client : Nat) (j : Nat × Nat × Nat) : (setJobs c p client j).flt = c.flt := rfl
@[simp] theorem setJobs_chip (c : Chip) (p client : Nat) (j : Nat × Nat × Nat) : (setJobs c p client j).chip = c.chip := rfl
@[simp] theorem setJobs_tap (c : Chip) (p client : Nat) (j : Nat × Nat × Nat) : (setJobs c p client j).tap = c.tap := rfl
@[simp] theorem setJobs_crc (c : Chip) (p client : Nat) (j : Nat × Nat × Nat) : (setJobs c p client j).crc = c.crc := rfl
@[simp] theorem setJobs_pins (c : Chip) (p client : Nat) (j : Nat × Nat × Nat) : (setJobs c p client j).pins = c.pins := rfl
@[simp] theorem setJobs_free (c : Chip) (p client : Nat) (j : Nat × Nat × Nat) : (setJobs c p client j).free = c.free := rfl
@[simp] theorem setJobs_now (c : Chip) (p client : Nat) (j : Nat × Nat × Nat) : (setJobs c p client j).now = c.now := rfl
@[simp] theorem setJobs_fineNow (c : Chip) (p client : Nat) (j : Nat × Nat × Nat) : (setJobs c p client j).fineNow = c.fineNow := rfl

/-! ### setSecPart -/

@[simp] theorem setSecPart_variant (c : Chip) (p : Nat) (x : SecPart) : (setSecPart c p x).variant = c.variant := rfl
@[simp] theorem setSecPart_mgmt (c : Chip) (p : Nat) (x : SecPart) : (setSecPart c p x).mgmt = c.mgmt := rfl
@[simp] theorem setSecPart_smb (c : Chip) (p : Nat) (x : SecPart) : (setSecPart c p x).smb = c.smb := rfl
@[simp] theorem setSecPart_mem (c : Chip) (p : Nat) (x : SecPart) : (setSecPart c p x).mem = c.mem := rfl
@[simp] theorem setSecPart_sess (c : Chip) (p : Nat) (x : SecPart) : (setSecPart c p x).sess = c.sess := rfl
@[simp] theorem setSecPart_fig (c : Chip) (p : Nat) (x : SecPart) : (setSecPart c p x).fig = c.fig := rfl
@[simp] theorem setSecPart_tier (c : Chip) (p : Nat) (x : SecPart) : (setSecPart c p x).tier = c.tier := rfl
@[simp] theorem setSecPart_flash (c : Chip) (p : Nat) (x : SecPart) : (setSecPart c p x).flash = c.flash := rfl
@[simp] theorem setSecPart_grid (c : Chip) (p : Nat) (x : SecPart) : (setSecPart c p x).grid = c.grid := rfl
@[simp] theorem setSecPart_sched (c : Chip) (p : Nat) (x : SecPart) : (setSecPart c p x).sched = c.sched := rfl
@[simp] theorem setSecPart_checks (c : Chip) (p : Nat) (x : SecPart) : (setSecPart c p x).checks = c.checks := rfl
@[simp] theorem setSecPart_cuts (c : Chip) (p : Nat) (x : SecPart) : (setSecPart c p x).cuts = c.cuts := rfl
@[simp] theorem setSecPart_cutNext (c : Chip) (p : Nat) (x : SecPart) : (setSecPart c p x).cutNext = c.cutNext := rfl
@[simp] theorem setSecPart_xpt (c : Chip) (p : Nat) (x : SecPart) : (setSecPart c p x).xpt = c.xpt := rfl
@[simp] theorem setSecPart_peer (c : Chip) (p : Nat) (x : SecPart) : (setSecPart c p x).peer = c.peer := rfl
@[simp] theorem setSecPart_host (c : Chip) (p : Nat) (x : SecPart) : (setSecPart c p x).host = c.host := rfl
@[simp] theorem setSecPart_egr (c : Chip) (p : Nat) (x : SecPart) : (setSecPart c p x).egr = c.egr := rfl
@[simp] theorem setSecPart_srch (c : Chip) (p : Nat) (x : SecPart) : (setSecPart c p x).srch = c.srch := rfl
@[simp] theorem setSecPart_ckpt (c : Chip) (p : Nat) (x : SecPart) : (setSecPart c p x).ckpt = c.ckpt := rfl
@[simp] theorem setSecPart_pwr (c : Chip) (p : Nat) (x : SecPart) : (setSecPart c p x).pwr = c.pwr := rfl
@[simp] theorem setSecPart_flt (c : Chip) (p : Nat) (x : SecPart) : (setSecPart c p x).flt = c.flt := rfl
@[simp] theorem setSecPart_chip (c : Chip) (p : Nat) (x : SecPart) : (setSecPart c p x).chip = c.chip := rfl
@[simp] theorem setSecPart_tap (c : Chip) (p : Nat) (x : SecPart) : (setSecPart c p x).tap = c.tap := rfl
@[simp] theorem setSecPart_crc (c : Chip) (p : Nat) (x : SecPart) : (setSecPart c p x).crc = c.crc := rfl
@[simp] theorem setSecPart_pins (c : Chip) (p : Nat) (x : SecPart) : (setSecPart c p x).pins = c.pins := rfl
@[simp] theorem setSecPart_free (c : Chip) (p : Nat) (x : SecPart) : (setSecPart c p x).free = c.free := rfl
@[simp] theorem setSecPart_now (c : Chip) (p : Nat) (x : SecPart) : (setSecPart c p x).now = c.now := rfl
@[simp] theorem setSecPart_fineNow (c : Chip) (p : Nat) (x : SecPart) : (setSecPart c p x).fineNow = c.fineNow := rfl

/-! ### setCore -/

@[simp] theorem setCore_variant (c : Chip) (n : Nat) (k : Core) : (setCore c n k).variant = c.variant := rfl
@[simp] theorem setCore_mgmt (c : Chip) (n : Nat) (k : Core) : (setCore c n k).mgmt = c.mgmt := rfl
@[simp] theorem setCore_smb (c : Chip) (n : Nat) (k : Core) : (setCore c n k).smb = c.smb := rfl
@[simp] theorem setCore_mem (c : Chip) (n : Nat) (k : Core) : (setCore c n k).mem = c.mem := rfl
@[simp] theorem setCore_sess (c : Chip) (n : Nat) (k : Core) : (setCore c n k).sess = c.sess := rfl
@[simp] theorem setCore_fig (c : Chip) (n : Nat) (k : Core) : (setCore c n k).fig = c.fig := rfl
@[simp] theorem setCore_tier (c : Chip) (n : Nat) (k : Core) : (setCore c n k).tier = c.tier := rfl
@[simp] theorem setCore_flash (c : Chip) (n : Nat) (k : Core) : (setCore c n k).flash = c.flash := rfl
@[simp] theorem setCore_sched (c : Chip) (n : Nat) (k : Core) : (setCore c n k).sched = c.sched := rfl
@[simp] theorem setCore_checks (c : Chip) (n : Nat) (k : Core) : (setCore c n k).checks = c.checks := rfl
@[simp] theorem setCore_cuts (c : Chip) (n : Nat) (k : Core) : (setCore c n k).cuts = c.cuts := rfl
@[simp] theorem setCore_cutNext (c : Chip) (n : Nat) (k : Core) : (setCore c n k).cutNext = c.cutNext := rfl
@[simp] theorem setCore_xpt (c : Chip) (n : Nat) (k : Core) : (setCore c n k).xpt = c.xpt := rfl
@[simp] theorem setCore_peer (c : Chip) (n : Nat) (k : Core) : (setCore c n k).peer = c.peer := rfl
@[simp] theorem setCore_host (c : Chip) (n : Nat) (k : Core) : (setCore c n k).host = c.host := rfl
@[simp] theorem setCore_egr (c : Chip) (n : Nat) (k : Core) : (setCore c n k).egr = c.egr := rfl
@[simp] theorem setCore_srch (c : Chip) (n : Nat) (k : Core) : (setCore c n k).srch = c.srch := rfl
@[simp] theorem setCore_ckpt (c : Chip) (n : Nat) (k : Core) : (setCore c n k).ckpt = c.ckpt := rfl
@[simp] theorem setCore_pwr (c : Chip) (n : Nat) (k : Core) : (setCore c n k).pwr = c.pwr := rfl
@[simp] theorem setCore_sec (c : Chip) (n : Nat) (k : Core) : (setCore c n k).sec = c.sec := rfl
@[simp] theorem setCore_flt (c : Chip) (n : Nat) (k : Core) : (setCore c n k).flt = c.flt := rfl
@[simp] theorem setCore_chip (c : Chip) (n : Nat) (k : Core) : (setCore c n k).chip = c.chip := rfl
@[simp] theorem setCore_tap (c : Chip) (n : Nat) (k : Core) : (setCore c n k).tap = c.tap := rfl
@[simp] theorem setCore_crc (c : Chip) (n : Nat) (k : Core) : (setCore c n k).crc = c.crc := rfl
@[simp] theorem setCore_pins (c : Chip) (n : Nat) (k : Core) : (setCore c n k).pins = c.pins := rfl
@[simp] theorem setCore_now (c : Chip) (n : Nat) (k : Core) : (setCore c n k).now = c.now := rfl
@[simp] theorem setCore_fineNow (c : Chip) (n : Nat) (k : Core) : (setCore c n k).fineNow = c.fineNow := rfl

/-! ### setLedger -/

@[simp] theorem setLedger_variant (c : Chip) (i : Nat) (e : Ledger) : (setLedger c i e).variant = c.variant := rfl
@[simp] theorem setLedger_mgmt (c : Chip) (i : Nat) (e : Ledger) : (setLedger c i e).mgmt = c.mgmt := rfl
@[simp] theorem setLedger_smb (c : Chip) (i : Nat) (e : Ledger) : (setLedger c i e).smb = c.smb := rfl
@[simp] theorem setLedger_mem (c : Chip) (i : Nat) (e : Ledger) : (setLedger c i e).mem = c.mem := rfl
@[simp] theorem setLedger_sess (c : Chip) (i : Nat) (e : Ledger) : (setLedger c i e).sess = c.sess := rfl
@[simp] theorem setLedger_fig (c : Chip) (i : Nat) (e : Ledger) : (setLedger c i e).fig = c.fig := rfl
@[simp] theorem setLedger_flash (c : Chip) (i : Nat) (e : Ledger) : (setLedger c i e).flash = c.flash := rfl
@[simp] theorem setLedger_grid (c : Chip) (i : Nat) (e : Ledger) : (setLedger c i e).grid = c.grid := rfl
@[simp] theorem setLedger_sched (c : Chip) (i : Nat) (e : Ledger) : (setLedger c i e).sched = c.sched := rfl
@[simp] theorem setLedger_checks (c : Chip) (i : Nat) (e : Ledger) : (setLedger c i e).checks = c.checks := rfl
@[simp] theorem setLedger_cuts (c : Chip) (i : Nat) (e : Ledger) : (setLedger c i e).cuts = c.cuts := rfl
@[simp] theorem setLedger_cutNext (c : Chip) (i : Nat) (e : Ledger) : (setLedger c i e).cutNext = c.cutNext := rfl
@[simp] theorem setLedger_xpt (c : Chip) (i : Nat) (e : Ledger) : (setLedger c i e).xpt = c.xpt := rfl
@[simp] theorem setLedger_peer (c : Chip) (i : Nat) (e : Ledger) : (setLedger c i e).peer = c.peer := rfl
@[simp] theorem setLedger_host (c : Chip) (i : Nat) (e : Ledger) : (setLedger c i e).host = c.host := rfl
@[simp] theorem setLedger_egr (c : Chip) (i : Nat) (e : Ledger) : (setLedger c i e).egr = c.egr := rfl
@[simp] theorem setLedger_srch (c : Chip) (i : Nat) (e : Ledger) : (setLedger c i e).srch = c.srch := rfl
@[simp] theorem setLedger_ckpt (c : Chip) (i : Nat) (e : Ledger) : (setLedger c i e).ckpt = c.ckpt := rfl
@[simp] theorem setLedger_pwr (c : Chip) (i : Nat) (e : Ledger) : (setLedger c i e).pwr = c.pwr := rfl
@[simp] theorem setLedger_sec (c : Chip) (i : Nat) (e : Ledger) : (setLedger c i e).sec = c.sec := rfl
@[simp] theorem setLedger_flt (c : Chip) (i : Nat) (e : Ledger) : (setLedger c i e).flt = c.flt := rfl
@[simp] theorem setLedger_chip (c : Chip) (i : Nat) (e : Ledger) : (setLedger c i e).chip = c.chip := rfl
@[simp] theorem setLedger_tap (c : Chip) (i : Nat) (e : Ledger) : (setLedger c i e).tap = c.tap := rfl
@[simp] theorem setLedger_crc (c : Chip) (i : Nat) (e : Ledger) : (setLedger c i e).crc = c.crc := rfl
@[simp] theorem setLedger_pins (c : Chip) (i : Nat) (e : Ledger) : (setLedger c i e).pins = c.pins := rfl
@[simp] theorem setLedger_free (c : Chip) (i : Nat) (e : Ledger) : (setLedger c i e).free = c.free := rfl
@[simp] theorem setLedger_now (c : Chip) (i : Nat) (e : Ledger) : (setLedger c i e).now = c.now := rfl
@[simp] theorem setLedger_fineNow (c : Chip) (i : Nat) (e : Ledger) : (setLedger c i e).fineNow = c.fineNow := rfl

/-! ### setExtent -/

@[simp] theorem setExtent_variant (c : Chip) (e : Nat) (x : Extent) : (setExtent c e x).variant = c.variant := rfl
@[simp] theorem setExtent_mgmt (c : Chip) (e : Nat) (x : Extent) : (setExtent c e x).mgmt = c.mgmt := rfl
@[simp] theorem setExtent_smb (c : Chip) (e : Nat) (x : Extent) : (setExtent c e x).smb = c.smb := rfl
@[simp] theorem setExtent_mem (c : Chip) (e : Nat) (x : Extent) : (setExtent c e x).mem = c.mem := rfl
@[simp] theorem setExtent_sess (c : Chip) (e : Nat) (x : Extent) : (setExtent c e x).sess = c.sess := rfl
@[simp] theorem setExtent_fig (c : Chip) (e : Nat) (x : Extent) : (setExtent c e x).fig = c.fig := rfl
@[simp] theorem setExtent_tier (c : Chip) (e : Nat) (x : Extent) : (setExtent c e x).tier = c.tier := rfl
@[simp] theorem setExtent_grid (c : Chip) (e : Nat) (x : Extent) : (setExtent c e x).grid = c.grid := rfl
@[simp] theorem setExtent_sched (c : Chip) (e : Nat) (x : Extent) : (setExtent c e x).sched = c.sched := rfl
@[simp] theorem setExtent_checks (c : Chip) (e : Nat) (x : Extent) : (setExtent c e x).checks = c.checks := rfl
@[simp] theorem setExtent_cuts (c : Chip) (e : Nat) (x : Extent) : (setExtent c e x).cuts = c.cuts := rfl
@[simp] theorem setExtent_cutNext (c : Chip) (e : Nat) (x : Extent) : (setExtent c e x).cutNext = c.cutNext := rfl
@[simp] theorem setExtent_xpt (c : Chip) (e : Nat) (x : Extent) : (setExtent c e x).xpt = c.xpt := rfl
@[simp] theorem setExtent_peer (c : Chip) (e : Nat) (x : Extent) : (setExtent c e x).peer = c.peer := rfl
@[simp] theorem setExtent_host (c : Chip) (e : Nat) (x : Extent) : (setExtent c e x).host = c.host := rfl
@[simp] theorem setExtent_egr (c : Chip) (e : Nat) (x : Extent) : (setExtent c e x).egr = c.egr := rfl
@[simp] theorem setExtent_srch (c : Chip) (e : Nat) (x : Extent) : (setExtent c e x).srch = c.srch := rfl
@[simp] theorem setExtent_ckpt (c : Chip) (e : Nat) (x : Extent) : (setExtent c e x).ckpt = c.ckpt := rfl
@[simp] theorem setExtent_pwr (c : Chip) (e : Nat) (x : Extent) : (setExtent c e x).pwr = c.pwr := rfl
@[simp] theorem setExtent_sec (c : Chip) (e : Nat) (x : Extent) : (setExtent c e x).sec = c.sec := rfl
@[simp] theorem setExtent_flt (c : Chip) (e : Nat) (x : Extent) : (setExtent c e x).flt = c.flt := rfl
@[simp] theorem setExtent_chip (c : Chip) (e : Nat) (x : Extent) : (setExtent c e x).chip = c.chip := rfl
@[simp] theorem setExtent_tap (c : Chip) (e : Nat) (x : Extent) : (setExtent c e x).tap = c.tap := rfl
@[simp] theorem setExtent_crc (c : Chip) (e : Nat) (x : Extent) : (setExtent c e x).crc = c.crc := rfl
@[simp] theorem setExtent_pins (c : Chip) (e : Nat) (x : Extent) : (setExtent c e x).pins = c.pins := rfl
@[simp] theorem setExtent_free (c : Chip) (e : Nat) (x : Extent) : (setExtent c e x).free = c.free := rfl
@[simp] theorem setExtent_now (c : Chip) (e : Nat) (x : Extent) : (setExtent c e x).now = c.now := rfl
@[simp] theorem setExtent_fineNow (c : Chip) (e : Nat) (x : Extent) : (setExtent c e x).fineNow = c.fineNow := rfl

/-! ### setCut -/

@[simp] theorem setCut_variant (c : Chip) (r : CutRec) : (setCut c r).variant = c.variant := rfl
@[simp] theorem setCut_mgmt (c : Chip) (r : CutRec) : (setCut c r).mgmt = c.mgmt := rfl
@[simp] theorem setCut_smb (c : Chip) (r : CutRec) : (setCut c r).smb = c.smb := rfl
@[simp] theorem setCut_mem (c : Chip) (r : CutRec) : (setCut c r).mem = c.mem := rfl
@[simp] theorem setCut_sess (c : Chip) (r : CutRec) : (setCut c r).sess = c.sess := rfl
@[simp] theorem setCut_fig (c : Chip) (r : CutRec) : (setCut c r).fig = c.fig := rfl
@[simp] theorem setCut_tier (c : Chip) (r : CutRec) : (setCut c r).tier = c.tier := rfl
@[simp] theorem setCut_flash (c : Chip) (r : CutRec) : (setCut c r).flash = c.flash := rfl
@[simp] theorem setCut_grid (c : Chip) (r : CutRec) : (setCut c r).grid = c.grid := rfl
@[simp] theorem setCut_sched (c : Chip) (r : CutRec) : (setCut c r).sched = c.sched := rfl
@[simp] theorem setCut_checks (c : Chip) (r : CutRec) : (setCut c r).checks = c.checks := rfl
@[simp] theorem setCut_cutNext (c : Chip) (r : CutRec) : (setCut c r).cutNext = c.cutNext := rfl
@[simp] theorem setCut_xpt (c : Chip) (r : CutRec) : (setCut c r).xpt = c.xpt := rfl
@[simp] theorem setCut_peer (c : Chip) (r : CutRec) : (setCut c r).peer = c.peer := rfl
@[simp] theorem setCut_host (c : Chip) (r : CutRec) : (setCut c r).host = c.host := rfl
@[simp] theorem setCut_egr (c : Chip) (r : CutRec) : (setCut c r).egr = c.egr := rfl
@[simp] theorem setCut_srch (c : Chip) (r : CutRec) : (setCut c r).srch = c.srch := rfl
@[simp] theorem setCut_ckpt (c : Chip) (r : CutRec) : (setCut c r).ckpt = c.ckpt := rfl
@[simp] theorem setCut_pwr (c : Chip) (r : CutRec) : (setCut c r).pwr = c.pwr := rfl
@[simp] theorem setCut_sec (c : Chip) (r : CutRec) : (setCut c r).sec = c.sec := rfl
@[simp] theorem setCut_flt (c : Chip) (r : CutRec) : (setCut c r).flt = c.flt := rfl
@[simp] theorem setCut_chip (c : Chip) (r : CutRec) : (setCut c r).chip = c.chip := rfl
@[simp] theorem setCut_tap (c : Chip) (r : CutRec) : (setCut c r).tap = c.tap := rfl
@[simp] theorem setCut_crc (c : Chip) (r : CutRec) : (setCut c r).crc = c.crc := rfl
@[simp] theorem setCut_pins (c : Chip) (r : CutRec) : (setCut c r).pins = c.pins := rfl
@[simp] theorem setCut_free (c : Chip) (r : CutRec) : (setCut c r).free = c.free := rfl
@[simp] theorem setCut_now (c : Chip) (r : CutRec) : (setCut c r).now = c.now := rfl
@[simp] theorem setCut_fineNow (c : Chip) (r : CutRec) : (setCut c r).fineNow = c.fineNow := rfl

/-! ### setKey -/

@[simp] theorem setKey_variant (c : Chip) (key : Nat) (mask v : Word) : (setKey c key mask v).variant = c.variant := rfl
@[simp] theorem setKey_smb (c : Chip) (key : Nat) (mask v : Word) : (setKey c key mask v).smb = c.smb := rfl
@[simp] theorem setKey_mem (c : Chip) (key : Nat) (mask v : Word) : (setKey c key mask v).mem = c.mem := rfl
@[simp] theorem setKey_sess (c : Chip) (key : Nat) (mask v : Word) : (setKey c key mask v).sess = c.sess := rfl
@[simp] theorem setKey_fig (c : Chip) (key : Nat) (mask v : Word) : (setKey c key mask v).fig = c.fig := rfl
@[simp] theorem setKey_tier (c : Chip) (key : Nat) (mask v : Word) : (setKey c key mask v).tier = c.tier := rfl
@[simp] theorem setKey_flash (c : Chip) (key : Nat) (mask v : Word) : (setKey c key mask v).flash = c.flash := rfl
@[simp] theorem setKey_grid (c : Chip) (key : Nat) (mask v : Word) : (setKey c key mask v).grid = c.grid := rfl
@[simp] theorem setKey_sched (c : Chip) (key : Nat) (mask v : Word) : (setKey c key mask v).sched = c.sched := rfl
@[simp] theorem setKey_checks (c : Chip) (key : Nat) (mask v : Word) : (setKey c key mask v).checks = c.checks := rfl
@[simp] theorem setKey_cuts (c : Chip) (key : Nat) (mask v : Word) : (setKey c key mask v).cuts = c.cuts := rfl
@[simp] theorem setKey_cutNext (c : Chip) (key : Nat) (mask v : Word) : (setKey c key mask v).cutNext = c.cutNext := rfl
@[simp] theorem setKey_xpt (c : Chip) (key : Nat) (mask v : Word) : (setKey c key mask v).xpt = c.xpt := rfl
@[simp] theorem setKey_peer (c : Chip) (key : Nat) (mask v : Word) : (setKey c key mask v).peer = c.peer := rfl
@[simp] theorem setKey_host (c : Chip) (key : Nat) (mask v : Word) : (setKey c key mask v).host = c.host := rfl
@[simp] theorem setKey_egr (c : Chip) (key : Nat) (mask v : Word) : (setKey c key mask v).egr = c.egr := rfl
@[simp] theorem setKey_srch (c : Chip) (key : Nat) (mask v : Word) : (setKey c key mask v).srch = c.srch := rfl
@[simp] theorem setKey_ckpt (c : Chip) (key : Nat) (mask v : Word) : (setKey c key mask v).ckpt = c.ckpt := rfl
@[simp] theorem setKey_pwr (c : Chip) (key : Nat) (mask v : Word) : (setKey c key mask v).pwr = c.pwr := rfl
@[simp] theorem setKey_sec (c : Chip) (key : Nat) (mask v : Word) : (setKey c key mask v).sec = c.sec := rfl
@[simp] theorem setKey_flt (c : Chip) (key : Nat) (mask v : Word) : (setKey c key mask v).flt = c.flt := rfl
@[simp] theorem setKey_chip (c : Chip) (key : Nat) (mask v : Word) : (setKey c key mask v).chip = c.chip := rfl
@[simp] theorem setKey_tap (c : Chip) (key : Nat) (mask v : Word) : (setKey c key mask v).tap = c.tap := rfl
@[simp] theorem setKey_crc (c : Chip) (key : Nat) (mask v : Word) : (setKey c key mask v).crc = c.crc := rfl
@[simp] theorem setKey_pins (c : Chip) (key : Nat) (mask v : Word) : (setKey c key mask v).pins = c.pins := rfl
@[simp] theorem setKey_free (c : Chip) (key : Nat) (mask v : Word) : (setKey c key mask v).free = c.free := rfl
@[simp] theorem setKey_now (c : Chip) (key : Nat) (mask v : Word) : (setKey c key mask v).now = c.now := rfl
@[simp] theorem setKey_fineNow (c : Chip) (key : Nat) (mask v : Word) : (setKey c key mask v).fineNow = c.fineNow := rfl

/-! ### setReg -/

@[simp] theorem setReg_variant (c : Chip) (a : Nat) (v : Word) : (setReg c a v).variant = c.variant := setKey_variant ..
@[simp] theorem setReg_smb (c : Chip) (a : Nat) (v : Word) : (setReg c a v).smb = c.smb := setKey_smb ..
@[simp] theorem setReg_mem (c : Chip) (a : Nat) (v : Word) : (setReg c a v).mem = c.mem := setKey_mem ..
@[simp] theorem setReg_sess (c : Chip) (a : Nat) (v : Word) : (setReg c a v).sess = c.sess := setKey_sess ..
@[simp] theorem setReg_fig (c : Chip) (a : Nat) (v : Word) : (setReg c a v).fig = c.fig := setKey_fig ..
@[simp] theorem setReg_tier (c : Chip) (a : Nat) (v : Word) : (setReg c a v).tier = c.tier := setKey_tier ..
@[simp] theorem setReg_flash (c : Chip) (a : Nat) (v : Word) : (setReg c a v).flash = c.flash := setKey_flash ..
@[simp] theorem setReg_grid (c : Chip) (a : Nat) (v : Word) : (setReg c a v).grid = c.grid := setKey_grid ..
@[simp] theorem setReg_sched (c : Chip) (a : Nat) (v : Word) : (setReg c a v).sched = c.sched := setKey_sched ..
@[simp] theorem setReg_checks (c : Chip) (a : Nat) (v : Word) : (setReg c a v).checks = c.checks := setKey_checks ..
@[simp] theorem setReg_cuts (c : Chip) (a : Nat) (v : Word) : (setReg c a v).cuts = c.cuts := setKey_cuts ..
@[simp] theorem setReg_cutNext (c : Chip) (a : Nat) (v : Word) : (setReg c a v).cutNext = c.cutNext := setKey_cutNext ..
@[simp] theorem setReg_xpt (c : Chip) (a : Nat) (v : Word) : (setReg c a v).xpt = c.xpt := setKey_xpt ..
@[simp] theorem setReg_peer (c : Chip) (a : Nat) (v : Word) : (setReg c a v).peer = c.peer := setKey_peer ..
@[simp] theorem setReg_host (c : Chip) (a : Nat) (v : Word) : (setReg c a v).host = c.host := setKey_host ..
@[simp] theorem setReg_egr (c : Chip) (a : Nat) (v : Word) : (setReg c a v).egr = c.egr := setKey_egr ..
@[simp] theorem setReg_srch (c : Chip) (a : Nat) (v : Word) : (setReg c a v).srch = c.srch := setKey_srch ..
@[simp] theorem setReg_ckpt (c : Chip) (a : Nat) (v : Word) : (setReg c a v).ckpt = c.ckpt := setKey_ckpt ..
@[simp] theorem setReg_pwr (c : Chip) (a : Nat) (v : Word) : (setReg c a v).pwr = c.pwr := setKey_pwr ..
@[simp] theorem setReg_sec (c : Chip) (a : Nat) (v : Word) : (setReg c a v).sec = c.sec := setKey_sec ..
@[simp] theorem setReg_flt (c : Chip) (a : Nat) (v : Word) : (setReg c a v).flt = c.flt := setKey_flt ..
@[simp] theorem setReg_chip (c : Chip) (a : Nat) (v : Word) : (setReg c a v).chip = c.chip := setKey_chip ..
@[simp] theorem setReg_tap (c : Chip) (a : Nat) (v : Word) : (setReg c a v).tap = c.tap := setKey_tap ..
@[simp] theorem setReg_crc (c : Chip) (a : Nat) (v : Word) : (setReg c a v).crc = c.crc := setKey_crc ..
@[simp] theorem setReg_pins (c : Chip) (a : Nat) (v : Word) : (setReg c a v).pins = c.pins := setKey_pins ..
@[simp] theorem setReg_free (c : Chip) (a : Nat) (v : Word) : (setReg c a v).free = c.free := setKey_free ..
@[simp] theorem setReg_now (c : Chip) (a : Nat) (v : Word) : (setReg c a v).now = c.now := setKey_now ..
@[simp] theorem setReg_fineNow (c : Chip) (a : Nat) (v : Word) : (setReg c a v).fineNow = c.fineNow := setKey_fineNow ..

/-! ### setRegB -/

@[simp] theorem setRegB_variant (c : Chip) (bank a : Nat) (v : Word) : (setRegB c bank a v).variant = c.variant := setKey_variant ..
@[simp] theorem setRegB_smb (c : Chip) (bank a : Nat) (v : Word) : (setRegB c bank a v).smb = c.smb := setKey_smb ..
@[simp] theorem setRegB_mem (c : Chip) (bank a : Nat) (v : Word) : (setRegB c bank a v).mem = c.mem := setKey_mem ..
@[simp] theorem setRegB_sess (c : Chip) (bank a : Nat) (v : Word) : (setRegB c bank a v).sess = c.sess := setKey_sess ..
@[simp] theorem setRegB_fig (c : Chip) (bank a : Nat) (v : Word) : (setRegB c bank a v).fig = c.fig := setKey_fig ..
@[simp] theorem setRegB_tier (c : Chip) (bank a : Nat) (v : Word) : (setRegB c bank a v).tier = c.tier := setKey_tier ..
@[simp] theorem setRegB_flash (c : Chip) (bank a : Nat) (v : Word) : (setRegB c bank a v).flash = c.flash := setKey_flash ..
@[simp] theorem setRegB_grid (c : Chip) (bank a : Nat) (v : Word) : (setRegB c bank a v).grid = c.grid := setKey_grid ..
@[simp] theorem setRegB_sched (c : Chip) (bank a : Nat) (v : Word) : (setRegB c bank a v).sched = c.sched := setKey_sched ..
@[simp] theorem setRegB_checks (c : Chip) (bank a : Nat) (v : Word) : (setRegB c bank a v).checks = c.checks := setKey_checks ..
@[simp] theorem setRegB_cuts (c : Chip) (bank a : Nat) (v : Word) : (setRegB c bank a v).cuts = c.cuts := setKey_cuts ..
@[simp] theorem setRegB_cutNext (c : Chip) (bank a : Nat) (v : Word) : (setRegB c bank a v).cutNext = c.cutNext := setKey_cutNext ..
@[simp] theorem setRegB_xpt (c : Chip) (bank a : Nat) (v : Word) : (setRegB c bank a v).xpt = c.xpt := setKey_xpt ..
@[simp] theorem setRegB_peer (c : Chip) (bank a : Nat) (v : Word) : (setRegB c bank a v).peer = c.peer := setKey_peer ..
@[simp] theorem setRegB_host (c : Chip) (bank a : Nat) (v : Word) : (setRegB c bank a v).host = c.host := setKey_host ..
@[simp] theorem setRegB_egr (c : Chip) (bank a : Nat) (v : Word) : (setRegB c bank a v).egr = c.egr := setKey_egr ..
@[simp] theorem setRegB_srch (c : Chip) (bank a : Nat) (v : Word) : (setRegB c bank a v).srch = c.srch := setKey_srch ..
@[simp] theorem setRegB_ckpt (c : Chip) (bank a : Nat) (v : Word) : (setRegB c bank a v).ckpt = c.ckpt := setKey_ckpt ..
@[simp] theorem setRegB_pwr (c : Chip) (bank a : Nat) (v : Word) : (setRegB c bank a v).pwr = c.pwr := setKey_pwr ..
@[simp] theorem setRegB_sec (c : Chip) (bank a : Nat) (v : Word) : (setRegB c bank a v).sec = c.sec := setKey_sec ..
@[simp] theorem setRegB_flt (c : Chip) (bank a : Nat) (v : Word) : (setRegB c bank a v).flt = c.flt := setKey_flt ..
@[simp] theorem setRegB_chip (c : Chip) (bank a : Nat) (v : Word) : (setRegB c bank a v).chip = c.chip := setKey_chip ..
@[simp] theorem setRegB_tap (c : Chip) (bank a : Nat) (v : Word) : (setRegB c bank a v).tap = c.tap := setKey_tap ..
@[simp] theorem setRegB_crc (c : Chip) (bank a : Nat) (v : Word) : (setRegB c bank a v).crc = c.crc := setKey_crc ..
@[simp] theorem setRegB_pins (c : Chip) (bank a : Nat) (v : Word) : (setRegB c bank a v).pins = c.pins := setKey_pins ..
@[simp] theorem setRegB_free (c : Chip) (bank a : Nat) (v : Word) : (setRegB c bank a v).free = c.free := setKey_free ..
@[simp] theorem setRegB_now (c : Chip) (bank a : Nat) (v : Word) : (setRegB c bank a v).now = c.now := setKey_now ..
@[simp] theorem setRegB_fineNow (c : Chip) (bank a : Nat) (v : Word) : (setRegB c bank a v).fineNow = c.fineNow := setKey_fineNow ..

/-! ### setHdr -/

@[simp] theorem setHdr_variant (c : Chip) (p : Page) (h : BlockHdr) : (setHdr c p h).variant = c.variant := rfl
@[simp] theorem setHdr_smb (c : Chip) (p : Page) (h : BlockHdr) : (setHdr c p h).smb = c.smb := rfl
@[simp] theorem setHdr_mem (c : Chip) (p : Page) (h : BlockHdr) : (setHdr c p h).mem = c.mem := rfl
@[simp] theorem setHdr_sess (c : Chip) (p : Page) (h : BlockHdr) : (setHdr c p h).sess = c.sess := rfl
@[simp] theorem setHdr_fig (c : Chip) (p : Page) (h : BlockHdr) : (setHdr c p h).fig = c.fig := rfl
@[simp] theorem setHdr_tier (c : Chip) (p : Page) (h : BlockHdr) : (setHdr c p h).tier = c.tier := rfl
@[simp] theorem setHdr_flash (c : Chip) (p : Page) (h : BlockHdr) : (setHdr c p h).flash = c.flash := rfl
@[simp] theorem setHdr_grid (c : Chip) (p : Page) (h : BlockHdr) : (setHdr c p h).grid = c.grid := rfl
@[simp] theorem setHdr_sched (c : Chip) (p : Page) (h : BlockHdr) : (setHdr c p h).sched = c.sched := rfl
@[simp] theorem setHdr_checks (c : Chip) (p : Page) (h : BlockHdr) : (setHdr c p h).checks = c.checks := rfl
@[simp] theorem setHdr_cuts (c : Chip) (p : Page) (h : BlockHdr) : (setHdr c p h).cuts = c.cuts := rfl
@[simp] theorem setHdr_cutNext (c : Chip) (p : Page) (h : BlockHdr) : (setHdr c p h).cutNext = c.cutNext := rfl
@[simp] theorem setHdr_xpt (c : Chip) (p : Page) (h : BlockHdr) : (setHdr c p h).xpt = c.xpt := rfl
@[simp] theorem setHdr_peer (c : Chip) (p : Page) (h : BlockHdr) : (setHdr c p h).peer = c.peer := rfl
@[simp] theorem setHdr_host (c : Chip) (p : Page) (h : BlockHdr) : (setHdr c p h).host = c.host := rfl
@[simp] theorem setHdr_egr (c : Chip) (p : Page) (h : BlockHdr) : (setHdr c p h).egr = c.egr := rfl
@[simp] theorem setHdr_srch (c : Chip) (p : Page) (h : BlockHdr) : (setHdr c p h).srch = c.srch := rfl
@[simp] theorem setHdr_ckpt (c : Chip) (p : Page) (h : BlockHdr) : (setHdr c p h).ckpt = c.ckpt := rfl
@[simp] theorem setHdr_pwr (c : Chip) (p : Page) (h : BlockHdr) : (setHdr c p h).pwr = c.pwr := rfl
@[simp] theorem setHdr_sec (c : Chip) (p : Page) (h : BlockHdr) : (setHdr c p h).sec = c.sec := rfl
@[simp] theorem setHdr_flt (c : Chip) (p : Page) (h : BlockHdr) : (setHdr c p h).flt = c.flt := rfl
@[simp] theorem setHdr_chip (c : Chip) (p : Page) (h : BlockHdr) : (setHdr c p h).chip = c.chip := rfl
@[simp] theorem setHdr_tap (c : Chip) (p : Page) (h : BlockHdr) : (setHdr c p h).tap = c.tap := rfl
@[simp] theorem setHdr_crc (c : Chip) (p : Page) (h : BlockHdr) : (setHdr c p h).crc = c.crc := rfl
@[simp] theorem setHdr_pins (c : Chip) (p : Page) (h : BlockHdr) : (setHdr c p h).pins = c.pins := rfl
@[simp] theorem setHdr_free (c : Chip) (p : Page) (h : BlockHdr) : (setHdr c p h).free = c.free := rfl
@[simp] theorem setHdr_now (c : Chip) (p : Page) (h : BlockHdr) : (setHdr c p h).now = c.now := rfl
@[simp] theorem setHdr_fineNow (c : Chip) (p : Page) (h : BlockHdr) : (setHdr c p h).fineNow = c.fineNow := rfl

/-! ### setReqState -/

@[simp] theorem setReqState_variant (c : Chip) (r : Requester) (q : ReqState) : (setReqState c r q).variant = c.variant := by cases r <;> rfl
@[simp] theorem setReqState_smb (c : Chip) (r : Requester) (q : ReqState) : (setReqState c r q).smb = c.smb := by cases r <;> rfl
@[simp] theorem setReqState_mem (c : Chip) (r : Requester) (q : ReqState) : (setReqState c r q).mem = c.mem := by cases r <;> rfl
@[simp] theorem setReqState_sess (c : Chip) (r : Requester) (q : ReqState) : (setReqState c r q).sess = c.sess := by cases r <;> rfl
@[simp] theorem setReqState_fig (c : Chip) (r : Requester) (q : ReqState) : (setReqState c r q).fig = c.fig := by cases r <;> rfl
@[simp] theorem setReqState_tier (c : Chip) (r : Requester) (q : ReqState) : (setReqState c r q).tier = c.tier := by cases r <;> rfl
@[simp] theorem setReqState_flash (c : Chip) (r : Requester) (q : ReqState) : (setReqState c r q).flash = c.flash := by cases r <;> rfl
@[simp] theorem setReqState_grid (c : Chip) (r : Requester) (q : ReqState) : (setReqState c r q).grid = c.grid := by cases r <;> rfl
@[simp] theorem setReqState_sched (c : Chip) (r : Requester) (q : ReqState) : (setReqState c r q).sched = c.sched := by cases r <;> rfl
@[simp] theorem setReqState_checks (c : Chip) (r : Requester) (q : ReqState) : (setReqState c r q).checks = c.checks := by cases r <;> rfl
@[simp] theorem setReqState_cuts (c : Chip) (r : Requester) (q : ReqState) : (setReqState c r q).cuts = c.cuts := by cases r <;> rfl
@[simp] theorem setReqState_cutNext (c : Chip) (r : Requester) (q : ReqState) : (setReqState c r q).cutNext = c.cutNext := by cases r <;> rfl
@[simp] theorem setReqState_xpt (c : Chip) (r : Requester) (q : ReqState) : (setReqState c r q).xpt = c.xpt := by cases r <;> rfl
@[simp] theorem setReqState_peer (c : Chip) (r : Requester) (q : ReqState) : (setReqState c r q).peer = c.peer := by cases r <;> rfl
@[simp] theorem setReqState_host (c : Chip) (r : Requester) (q : ReqState) : (setReqState c r q).host = c.host := by cases r <;> rfl
@[simp] theorem setReqState_egr (c : Chip) (r : Requester) (q : ReqState) : (setReqState c r q).egr = c.egr := by cases r <;> rfl
@[simp] theorem setReqState_srch (c : Chip) (r : Requester) (q : ReqState) : (setReqState c r q).srch = c.srch := by cases r <;> rfl
@[simp] theorem setReqState_ckpt (c : Chip) (r : Requester) (q : ReqState) : (setReqState c r q).ckpt = c.ckpt := by cases r <;> rfl
@[simp] theorem setReqState_pwr (c : Chip) (r : Requester) (q : ReqState) : (setReqState c r q).pwr = c.pwr := by cases r <;> rfl
@[simp] theorem setReqState_sec (c : Chip) (r : Requester) (q : ReqState) : (setReqState c r q).sec = c.sec := by cases r <;> rfl
@[simp] theorem setReqState_flt (c : Chip) (r : Requester) (q : ReqState) : (setReqState c r q).flt = c.flt := by cases r <;> rfl
@[simp] theorem setReqState_chip (c : Chip) (r : Requester) (q : ReqState) : (setReqState c r q).chip = c.chip := by cases r <;> rfl
@[simp] theorem setReqState_tap (c : Chip) (r : Requester) (q : ReqState) : (setReqState c r q).tap = c.tap := by cases r <;> rfl
@[simp] theorem setReqState_crc (c : Chip) (r : Requester) (q : ReqState) : (setReqState c r q).crc = c.crc := by cases r <;> rfl
@[simp] theorem setReqState_pins (c : Chip) (r : Requester) (q : ReqState) : (setReqState c r q).pins = c.pins := by cases r <;> rfl
@[simp] theorem setReqState_free (c : Chip) (r : Requester) (q : ReqState) : (setReqState c r q).free = c.free := by cases r <;> rfl
@[simp] theorem setReqState_now (c : Chip) (r : Requester) (q : ReqState) : (setReqState c r q).now = c.now := by cases r <;> rfl
@[simp] theorem setReqState_fineNow (c : Chip) (r : Requester) (q : ReqState) : (setReqState c r q).fineNow = c.fineNow := by cases r <;> rfl

/-! ### setArmed -/

@[simp] theorem setArmed_variant (c : Chip) (r : Requester) (p : Page) (on : Bool) : (setArmed c r p on).variant = c.variant := setReqState_variant ..
@[simp] theorem setArmed_smb (c : Chip) (r : Requester) (p : Page) (on : Bool) : (setArmed c r p on).smb = c.smb := setReqState_smb ..
@[simp] theorem setArmed_mem (c : Chip) (r : Requester) (p : Page) (on : Bool) : (setArmed c r p on).mem = c.mem := setReqState_mem ..
@[simp] theorem setArmed_sess (c : Chip) (r : Requester) (p : Page) (on : Bool) : (setArmed c r p on).sess = c.sess := setReqState_sess ..
@[simp] theorem setArmed_fig (c : Chip) (r : Requester) (p : Page) (on : Bool) : (setArmed c r p on).fig = c.fig := setReqState_fig ..
@[simp] theorem setArmed_tier (c : Chip) (r : Requester) (p : Page) (on : Bool) : (setArmed c r p on).tier = c.tier := setReqState_tier ..
@[simp] theorem setArmed_flash (c : Chip) (r : Requester) (p : Page) (on : Bool) : (setArmed c r p on).flash = c.flash := setReqState_flash ..
@[simp] theorem setArmed_grid (c : Chip) (r : Requester) (p : Page) (on : Bool) : (setArmed c r p on).grid = c.grid := setReqState_grid ..
@[simp] theorem setArmed_sched (c : Chip) (r : Requester) (p : Page) (on : Bool) : (setArmed c r p on).sched = c.sched := setReqState_sched ..
@[simp] theorem setArmed_checks (c : Chip) (r : Requester) (p : Page) (on : Bool) : (setArmed c r p on).checks = c.checks := setReqState_checks ..
@[simp] theorem setArmed_cuts (c : Chip) (r : Requester) (p : Page) (on : Bool) : (setArmed c r p on).cuts = c.cuts := setReqState_cuts ..
@[simp] theorem setArmed_cutNext (c : Chip) (r : Requester) (p : Page) (on : Bool) : (setArmed c r p on).cutNext = c.cutNext := setReqState_cutNext ..
@[simp] theorem setArmed_xpt (c : Chip) (r : Requester) (p : Page) (on : Bool) : (setArmed c r p on).xpt = c.xpt := setReqState_xpt ..
@[simp] theorem setArmed_peer (c : Chip) (r : Requester) (p : Page) (on : Bool) : (setArmed c r p on).peer = c.peer := setReqState_peer ..
@[simp] theorem setArmed_host (c : Chip) (r : Requester) (p : Page) (on : Bool) : (setArmed c r p on).host = c.host := setReqState_host ..
@[simp] theorem setArmed_egr (c : Chip) (r : Requester) (p : Page) (on : Bool) : (setArmed c r p on).egr = c.egr := setReqState_egr ..
@[simp] theorem setArmed_srch (c : Chip) (r : Requester) (p : Page) (on : Bool) : (setArmed c r p on).srch = c.srch := setReqState_srch ..
@[simp] theorem setArmed_ckpt (c : Chip) (r : Requester) (p : Page) (on : Bool) : (setArmed c r p on).ckpt = c.ckpt := setReqState_ckpt ..
@[simp] theorem setArmed_pwr (c : Chip) (r : Requester) (p : Page) (on : Bool) : (setArmed c r p on).pwr = c.pwr := setReqState_pwr ..
@[simp] theorem setArmed_sec (c : Chip) (r : Requester) (p : Page) (on : Bool) : (setArmed c r p on).sec = c.sec := setReqState_sec ..
@[simp] theorem setArmed_flt (c : Chip) (r : Requester) (p : Page) (on : Bool) : (setArmed c r p on).flt = c.flt := setReqState_flt ..
@[simp] theorem setArmed_chip (c : Chip) (r : Requester) (p : Page) (on : Bool) : (setArmed c r p on).chip = c.chip := setReqState_chip ..
@[simp] theorem setArmed_tap (c : Chip) (r : Requester) (p : Page) (on : Bool) : (setArmed c r p on).tap = c.tap := setReqState_tap ..
@[simp] theorem setArmed_crc (c : Chip) (r : Requester) (p : Page) (on : Bool) : (setArmed c r p on).crc = c.crc := setReqState_crc ..
@[simp] theorem setArmed_pins (c : Chip) (r : Requester) (p : Page) (on : Bool) : (setArmed c r p on).pins = c.pins := setReqState_pins ..
@[simp] theorem setArmed_free (c : Chip) (r : Requester) (p : Page) (on : Bool) : (setArmed c r p on).free = c.free := setReqState_free ..
@[simp] theorem setArmed_now (c : Chip) (r : Requester) (p : Page) (on : Bool) : (setArmed c r p on).now = c.now := setReqState_now ..
@[simp] theorem setArmed_fineNow (c : Chip) (r : Requester) (p : Page) (on : Bool) : (setArmed c r p on).fineNow = c.fineNow := setReqState_fineNow ..

/-! ### setPport -/

@[simp] theorem setPport_variant (c : Chip) (p : Nat) (x : PeerPort) : (setPport c p x).variant = c.variant := rfl
@[simp] theorem setPport_mgmt (c : Chip) (p : Nat) (x : PeerPort) : (setPport c p x).mgmt = c.mgmt := rfl
@[simp] theorem setPport_smb (c : Chip) (p : Nat) (x : PeerPort) : (setPport c p x).smb = c.smb := rfl
@[simp] theorem setPport_mem (c : Chip) (p : Nat) (x : PeerPort) : (setPport c p x).mem = c.mem := rfl
@[simp] theorem setPport_sess (c : Chip) (p : Nat) (x : PeerPort) : (setPport c p x).sess = c.sess := rfl
@[simp] theorem setPport_fig (c : Chip) (p : Nat) (x : PeerPort) : (setPport c p x).fig = c.fig := rfl
@[simp] theorem setPport_tier (c : Chip) (p : Nat) (x : PeerPort) : (setPport c p x).tier = c.tier := rfl
@[simp] theorem setPport_flash (c : Chip) (p : Nat) (x : PeerPort) : (setPport c p x).flash = c.flash := rfl
@[simp] theorem setPport_grid (c : Chip) (p : Nat) (x : PeerPort) : (setPport c p x).grid = c.grid := rfl
@[simp] theorem setPport_sched (c : Chip) (p : Nat) (x : PeerPort) : (setPport c p x).sched = c.sched := rfl
@[simp] theorem setPport_checks (c : Chip) (p : Nat) (x : PeerPort) : (setPport c p x).checks = c.checks := rfl
@[simp] theorem setPport_cuts (c : Chip) (p : Nat) (x : PeerPort) : (setPport c p x).cuts = c.cuts := rfl
@[simp] theorem setPport_cutNext (c : Chip) (p : Nat) (x : PeerPort) : (setPport c p x).cutNext = c.cutNext := rfl
@[simp] theorem setPport_xpt (c : Chip) (p : Nat) (x : PeerPort) : (setPport c p x).xpt = c.xpt := rfl
@[simp] theorem setPport_host (c : Chip) (p : Nat) (x : PeerPort) : (setPport c p x).host = c.host := rfl
@[simp] theorem setPport_egr (c : Chip) (p : Nat) (x : PeerPort) : (setPport c p x).egr = c.egr := rfl
@[simp] theorem setPport_srch (c : Chip) (p : Nat) (x : PeerPort) : (setPport c p x).srch = c.srch := rfl
@[simp] theorem setPport_ckpt (c : Chip) (p : Nat) (x : PeerPort) : (setPport c p x).ckpt = c.ckpt := rfl
@[simp] theorem setPport_pwr (c : Chip) (p : Nat) (x : PeerPort) : (setPport c p x).pwr = c.pwr := rfl
@[simp] theorem setPport_sec (c : Chip) (p : Nat) (x : PeerPort) : (setPport c p x).sec = c.sec := rfl
@[simp] theorem setPport_flt (c : Chip) (p : Nat) (x : PeerPort) : (setPport c p x).flt = c.flt := rfl
@[simp] theorem setPport_chip (c : Chip) (p : Nat) (x : PeerPort) : (setPport c p x).chip = c.chip := rfl
@[simp] theorem setPport_tap (c : Chip) (p : Nat) (x : PeerPort) : (setPport c p x).tap = c.tap := rfl
@[simp] theorem setPport_crc (c : Chip) (p : Nat) (x : PeerPort) : (setPport c p x).crc = c.crc := rfl
@[simp] theorem setPport_pins (c : Chip) (p : Nat) (x : PeerPort) : (setPport c p x).pins = c.pins := rfl
@[simp] theorem setPport_free (c : Chip) (p : Nat) (x : PeerPort) : (setPport c p x).free = c.free := rfl
@[simp] theorem setPport_now (c : Chip) (p : Nat) (x : PeerPort) : (setPport c p x).now = c.now := rfl
@[simp] theorem setPport_fineNow (c : Chip) (p : Nat) (x : PeerPort) : (setPport c p x).fineNow = c.fineNow := rfl

/-! ### setSched -/

@[simp] theorem setSched_variant (c : Chip) (p : Nat) (x : SchedPart) : (setSched c p x).variant = c.variant := rfl
@[simp] theorem setSched_mgmt (c : Chip) (p : Nat) (x : SchedPart) : (setSched c p x).mgmt = c.mgmt := rfl
@[simp] theorem setSched_smb (c : Chip) (p : Nat) (x : SchedPart) : (setSched c p x).smb = c.smb := rfl
@[simp] theorem setSched_mem (c : Chip) (p : Nat) (x : SchedPart) : (setSched c p x).mem = c.mem := rfl
@[simp] theorem setSched_sess (c : Chip) (p : Nat) (x : SchedPart) : (setSched c p x).sess = c.sess := rfl
@[simp] theorem setSched_fig (c : Chip) (p : Nat) (x : SchedPart) : (setSched c p x).fig = c.fig := rfl
@[simp] theorem setSched_tier (c : Chip) (p : Nat) (x : SchedPart) : (setSched c p x).tier = c.tier := rfl
@[simp] theorem setSched_flash (c : Chip) (p : Nat) (x : SchedPart) : (setSched c p x).flash = c.flash := rfl
@[simp] theorem setSched_grid (c : Chip) (p : Nat) (x : SchedPart) : (setSched c p x).grid = c.grid := rfl
@[simp] theorem setSched_checks (c : Chip) (p : Nat) (x : SchedPart) : (setSched c p x).checks = c.checks := rfl
@[simp] theorem setSched_cuts (c : Chip) (p : Nat) (x : SchedPart) : (setSched c p x).cuts = c.cuts := rfl
@[simp] theorem setSched_cutNext (c : Chip) (p : Nat) (x : SchedPart) : (setSched c p x).cutNext = c.cutNext := rfl
@[simp] theorem setSched_xpt (c : Chip) (p : Nat) (x : SchedPart) : (setSched c p x).xpt = c.xpt := rfl
@[simp] theorem setSched_peer (c : Chip) (p : Nat) (x : SchedPart) : (setSched c p x).peer = c.peer := rfl
@[simp] theorem setSched_host (c : Chip) (p : Nat) (x : SchedPart) : (setSched c p x).host = c.host := rfl
@[simp] theorem setSched_egr (c : Chip) (p : Nat) (x : SchedPart) : (setSched c p x).egr = c.egr := rfl
@[simp] theorem setSched_srch (c : Chip) (p : Nat) (x : SchedPart) : (setSched c p x).srch = c.srch := rfl
@[simp] theorem setSched_ckpt (c : Chip) (p : Nat) (x : SchedPart) : (setSched c p x).ckpt = c.ckpt := rfl
@[simp] theorem setSched_pwr (c : Chip) (p : Nat) (x : SchedPart) : (setSched c p x).pwr = c.pwr := rfl
@[simp] theorem setSched_sec (c : Chip) (p : Nat) (x : SchedPart) : (setSched c p x).sec = c.sec := rfl
@[simp] theorem setSched_flt (c : Chip) (p : Nat) (x : SchedPart) : (setSched c p x).flt = c.flt := rfl
@[simp] theorem setSched_chip (c : Chip) (p : Nat) (x : SchedPart) : (setSched c p x).chip = c.chip := rfl
@[simp] theorem setSched_tap (c : Chip) (p : Nat) (x : SchedPart) : (setSched c p x).tap = c.tap := rfl
@[simp] theorem setSched_crc (c : Chip) (p : Nat) (x : SchedPart) : (setSched c p x).crc = c.crc := rfl
@[simp] theorem setSched_pins (c : Chip) (p : Nat) (x : SchedPart) : (setSched c p x).pins = c.pins := rfl
@[simp] theorem setSched_free (c : Chip) (p : Nat) (x : SchedPart) : (setSched c p x).free = c.free := rfl
@[simp] theorem setSched_now (c : Chip) (p : Nat) (x : SchedPart) : (setSched c p x).now = c.now := rfl
@[simp] theorem setSched_fineNow (c : Chip) (p : Nat) (x : SchedPart) : (setSched c p x).fineNow = c.fineNow := rfl

/-! ### setRevival -/

@[simp] theorem setRevival_variant (c : Chip) (r : Revival) : (setRevival c r).variant = c.variant := rfl
@[simp] theorem setRevival_mgmt (c : Chip) (r : Revival) : (setRevival c r).mgmt = c.mgmt := rfl
@[simp] theorem setRevival_smb (c : Chip) (r : Revival) : (setRevival c r).smb = c.smb := rfl
@[simp] theorem setRevival_mem (c : Chip) (r : Revival) : (setRevival c r).mem = c.mem := rfl
@[simp] theorem setRevival_sess (c : Chip) (r : Revival) : (setRevival c r).sess = c.sess := rfl
@[simp] theorem setRevival_fig (c : Chip) (r : Revival) : (setRevival c r).fig = c.fig := rfl
@[simp] theorem setRevival_flash (c : Chip) (r : Revival) : (setRevival c r).flash = c.flash := rfl
@[simp] theorem setRevival_grid (c : Chip) (r : Revival) : (setRevival c r).grid = c.grid := rfl
@[simp] theorem setRevival_sched (c : Chip) (r : Revival) : (setRevival c r).sched = c.sched := rfl
@[simp] theorem setRevival_checks (c : Chip) (r : Revival) : (setRevival c r).checks = c.checks := rfl
@[simp] theorem setRevival_cuts (c : Chip) (r : Revival) : (setRevival c r).cuts = c.cuts := rfl
@[simp] theorem setRevival_cutNext (c : Chip) (r : Revival) : (setRevival c r).cutNext = c.cutNext := rfl
@[simp] theorem setRevival_xpt (c : Chip) (r : Revival) : (setRevival c r).xpt = c.xpt := rfl
@[simp] theorem setRevival_peer (c : Chip) (r : Revival) : (setRevival c r).peer = c.peer := rfl
@[simp] theorem setRevival_host (c : Chip) (r : Revival) : (setRevival c r).host = c.host := rfl
@[simp] theorem setRevival_egr (c : Chip) (r : Revival) : (setRevival c r).egr = c.egr := rfl
@[simp] theorem setRevival_srch (c : Chip) (r : Revival) : (setRevival c r).srch = c.srch := rfl
@[simp] theorem setRevival_ckpt (c : Chip) (r : Revival) : (setRevival c r).ckpt = c.ckpt := rfl
@[simp] theorem setRevival_pwr (c : Chip) (r : Revival) : (setRevival c r).pwr = c.pwr := rfl
@[simp] theorem setRevival_sec (c : Chip) (r : Revival) : (setRevival c r).sec = c.sec := rfl
@[simp] theorem setRevival_flt (c : Chip) (r : Revival) : (setRevival c r).flt = c.flt := rfl
@[simp] theorem setRevival_chip (c : Chip) (r : Revival) : (setRevival c r).chip = c.chip := rfl
@[simp] theorem setRevival_tap (c : Chip) (r : Revival) : (setRevival c r).tap = c.tap := rfl
@[simp] theorem setRevival_crc (c : Chip) (r : Revival) : (setRevival c r).crc = c.crc := rfl
@[simp] theorem setRevival_pins (c : Chip) (r : Revival) : (setRevival c r).pins = c.pins := rfl
@[simp] theorem setRevival_free (c : Chip) (r : Revival) : (setRevival c r).free = c.free := rfl
@[simp] theorem setRevival_now (c : Chip) (r : Revival) : (setRevival c r).now = c.now := rfl
@[simp] theorem setRevival_fineNow (c : Chip) (r : Revival) : (setRevival c r).fineNow = c.fineNow := rfl

/-! ### setQuery -/

@[simp] theorem setQuery_variant (c : Chip) (q : Query) : (setQuery c q).variant = c.variant := rfl
@[simp] theorem setQuery_mgmt (c : Chip) (q : Query) : (setQuery c q).mgmt = c.mgmt := rfl
@[simp] theorem setQuery_smb (c : Chip) (q : Query) : (setQuery c q).smb = c.smb := rfl
@[simp] theorem setQuery_mem (c : Chip) (q : Query) : (setQuery c q).mem = c.mem := rfl
@[simp] theorem setQuery_sess (c : Chip) (q : Query) : (setQuery c q).sess = c.sess := rfl
@[simp] theorem setQuery_fig (c : Chip) (q : Query) : (setQuery c q).fig = c.fig := rfl
@[simp] theorem setQuery_tier (c : Chip) (q : Query) : (setQuery c q).tier = c.tier := rfl
@[simp] theorem setQuery_flash (c : Chip) (q : Query) : (setQuery c q).flash = c.flash := rfl
@[simp] theorem setQuery_grid (c : Chip) (q : Query) : (setQuery c q).grid = c.grid := rfl
@[simp] theorem setQuery_sched (c : Chip) (q : Query) : (setQuery c q).sched = c.sched := rfl
@[simp] theorem setQuery_checks (c : Chip) (q : Query) : (setQuery c q).checks = c.checks := rfl
@[simp] theorem setQuery_cuts (c : Chip) (q : Query) : (setQuery c q).cuts = c.cuts := rfl
@[simp] theorem setQuery_cutNext (c : Chip) (q : Query) : (setQuery c q).cutNext = c.cutNext := rfl
@[simp] theorem setQuery_xpt (c : Chip) (q : Query) : (setQuery c q).xpt = c.xpt := rfl
@[simp] theorem setQuery_peer (c : Chip) (q : Query) : (setQuery c q).peer = c.peer := rfl
@[simp] theorem setQuery_host (c : Chip) (q : Query) : (setQuery c q).host = c.host := rfl
@[simp] theorem setQuery_egr (c : Chip) (q : Query) : (setQuery c q).egr = c.egr := rfl
@[simp] theorem setQuery_ckpt (c : Chip) (q : Query) : (setQuery c q).ckpt = c.ckpt := rfl
@[simp] theorem setQuery_pwr (c : Chip) (q : Query) : (setQuery c q).pwr = c.pwr := rfl
@[simp] theorem setQuery_sec (c : Chip) (q : Query) : (setQuery c q).sec = c.sec := rfl
@[simp] theorem setQuery_flt (c : Chip) (q : Query) : (setQuery c q).flt = c.flt := rfl
@[simp] theorem setQuery_chip (c : Chip) (q : Query) : (setQuery c q).chip = c.chip := rfl
@[simp] theorem setQuery_tap (c : Chip) (q : Query) : (setQuery c q).tap = c.tap := rfl
@[simp] theorem setQuery_crc (c : Chip) (q : Query) : (setQuery c q).crc = c.crc := rfl
@[simp] theorem setQuery_pins (c : Chip) (q : Query) : (setQuery c q).pins = c.pins := rfl
@[simp] theorem setQuery_free (c : Chip) (q : Query) : (setQuery c q).free = c.free := rfl
@[simp] theorem setQuery_now (c : Chip) (q : Query) : (setQuery c q).now = c.now := rfl
@[simp] theorem setQuery_fineNow (c : Chip) (q : Query) : (setQuery c q).fineNow = c.fineNow := rfl

/-! ### addQuery -/

@[simp] theorem addQuery_variant (c : Chip) (q : Query) : (addQuery c q).variant = c.variant := rfl
@[simp] theorem addQuery_mgmt (c : Chip) (q : Query) : (addQuery c q).mgmt = c.mgmt := rfl
@[simp] theorem addQuery_smb (c : Chip) (q : Query) : (addQuery c q).smb = c.smb := rfl
@[simp] theorem addQuery_mem (c : Chip) (q : Query) : (addQuery c q).mem = c.mem := rfl
@[simp] theorem addQuery_sess (c : Chip) (q : Query) : (addQuery c q).sess = c.sess := rfl
@[simp] theorem addQuery_fig (c : Chip) (q : Query) : (addQuery c q).fig = c.fig := rfl
@[simp] theorem addQuery_tier (c : Chip) (q : Query) : (addQuery c q).tier = c.tier := rfl
@[simp] theorem addQuery_flash (c : Chip) (q : Query) : (addQuery c q).flash = c.flash := rfl
@[simp] theorem addQuery_grid (c : Chip) (q : Query) : (addQuery c q).grid = c.grid := rfl
@[simp] theorem addQuery_sched (c : Chip) (q : Query) : (addQuery c q).sched = c.sched := rfl
@[simp] theorem addQuery_checks (c : Chip) (q : Query) : (addQuery c q).checks = c.checks := rfl
@[simp] theorem addQuery_cuts (c : Chip) (q : Query) : (addQuery c q).cuts = c.cuts := rfl
@[simp] theorem addQuery_cutNext (c : Chip) (q : Query) : (addQuery c q).cutNext = c.cutNext := rfl
@[simp] theorem addQuery_xpt (c : Chip) (q : Query) : (addQuery c q).xpt = c.xpt := rfl
@[simp] theorem addQuery_peer (c : Chip) (q : Query) : (addQuery c q).peer = c.peer := rfl
@[simp] theorem addQuery_host (c : Chip) (q : Query) : (addQuery c q).host = c.host := rfl
@[simp] theorem addQuery_egr (c : Chip) (q : Query) : (addQuery c q).egr = c.egr := rfl
@[simp] theorem addQuery_ckpt (c : Chip) (q : Query) : (addQuery c q).ckpt = c.ckpt := rfl
@[simp] theorem addQuery_pwr (c : Chip) (q : Query) : (addQuery c q).pwr = c.pwr := rfl
@[simp] theorem addQuery_sec (c : Chip) (q : Query) : (addQuery c q).sec = c.sec := rfl
@[simp] theorem addQuery_flt (c : Chip) (q : Query) : (addQuery c q).flt = c.flt := rfl
@[simp] theorem addQuery_chip (c : Chip) (q : Query) : (addQuery c q).chip = c.chip := rfl
@[simp] theorem addQuery_tap (c : Chip) (q : Query) : (addQuery c q).tap = c.tap := rfl
@[simp] theorem addQuery_crc (c : Chip) (q : Query) : (addQuery c q).crc = c.crc := rfl
@[simp] theorem addQuery_pins (c : Chip) (q : Query) : (addQuery c q).pins = c.pins := rfl
@[simp] theorem addQuery_free (c : Chip) (q : Query) : (addQuery c q).free = c.free := rfl
@[simp] theorem addQuery_now (c : Chip) (q : Query) : (addQuery c q).now = c.now := rfl
@[simp] theorem addQuery_fineNow (c : Chip) (q : Query) : (addQuery c q).fineNow = c.fineNow := rfl

/-! ### setConn -/

@[simp] theorem setConn_variant (c : Chip) (n : Nat) (k : ConnSt) : (setConn c n k).variant = c.variant := rfl
@[simp] theorem setConn_mgmt (c : Chip) (n : Nat) (k : ConnSt) : (setConn c n k).mgmt = c.mgmt := rfl
@[simp] theorem setConn_smb (c : Chip) (n : Nat) (k : ConnSt) : (setConn c n k).smb = c.smb := rfl
@[simp] theorem setConn_mem (c : Chip) (n : Nat) (k : ConnSt) : (setConn c n k).mem = c.mem := rfl
@[simp] theorem setConn_sess (c : Chip) (n : Nat) (k : ConnSt) : (setConn c n k).sess = c.sess := rfl
@[simp] theorem setConn_fig (c : Chip) (n : Nat) (k : ConnSt) : (setConn c n k).fig = c.fig := rfl
@[simp] theorem setConn_tier (c : Chip) (n : Nat) (k : ConnSt) : (setConn c n k).tier = c.tier := rfl
@[simp] theorem setConn_flash (c : Chip) (n : Nat) (k : ConnSt) : (setConn c n k).flash = c.flash := rfl
@[simp] theorem setConn_grid (c : Chip) (n : Nat) (k : ConnSt) : (setConn c n k).grid = c.grid := rfl
@[simp] theorem setConn_sched (c : Chip) (n : Nat) (k : ConnSt) : (setConn c n k).sched = c.sched := rfl
@[simp] theorem setConn_checks (c : Chip) (n : Nat) (k : ConnSt) : (setConn c n k).checks = c.checks := rfl
@[simp] theorem setConn_cuts (c : Chip) (n : Nat) (k : ConnSt) : (setConn c n k).cuts = c.cuts := rfl
@[simp] theorem setConn_cutNext (c : Chip) (n : Nat) (k : ConnSt) : (setConn c n k).cutNext = c.cutNext := rfl
@[simp] theorem setConn_peer (c : Chip) (n : Nat) (k : ConnSt) : (setConn c n k).peer = c.peer := rfl
@[simp] theorem setConn_host (c : Chip) (n : Nat) (k : ConnSt) : (setConn c n k).host = c.host := rfl
@[simp] theorem setConn_egr (c : Chip) (n : Nat) (k : ConnSt) : (setConn c n k).egr = c.egr := rfl
@[simp] theorem setConn_srch (c : Chip) (n : Nat) (k : ConnSt) : (setConn c n k).srch = c.srch := rfl
@[simp] theorem setConn_ckpt (c : Chip) (n : Nat) (k : ConnSt) : (setConn c n k).ckpt = c.ckpt := rfl
@[simp] theorem setConn_pwr (c : Chip) (n : Nat) (k : ConnSt) : (setConn c n k).pwr = c.pwr := rfl
@[simp] theorem setConn_sec (c : Chip) (n : Nat) (k : ConnSt) : (setConn c n k).sec = c.sec := rfl
@[simp] theorem setConn_flt (c : Chip) (n : Nat) (k : ConnSt) : (setConn c n k).flt = c.flt := rfl
@[simp] theorem setConn_chip (c : Chip) (n : Nat) (k : ConnSt) : (setConn c n k).chip = c.chip := rfl
@[simp] theorem setConn_tap (c : Chip) (n : Nat) (k : ConnSt) : (setConn c n k).tap = c.tap := rfl
@[simp] theorem setConn_crc (c : Chip) (n : Nat) (k : ConnSt) : (setConn c n k).crc = c.crc := rfl
@[simp] theorem setConn_pins (c : Chip) (n : Nat) (k : ConnSt) : (setConn c n k).pins = c.pins := rfl
@[simp] theorem setConn_free (c : Chip) (n : Nat) (k : ConnSt) : (setConn c n k).free = c.free := rfl
@[simp] theorem setConn_now (c : Chip) (n : Nat) (k : ConnSt) : (setConn c n k).now = c.now := rfl
@[simp] theorem setConn_fineNow (c : Chip) (n : Nat) (k : ConnSt) : (setConn c n k).fineNow = c.fineNow := rfl

/-! ### setEqueue -/

@[simp] theorem setEqueue_variant (c : Chip) (q : Nat) (e : EQueue) : (setEqueue c q e).variant = c.variant := rfl
@[simp] theorem setEqueue_mgmt (c : Chip) (q : Nat) (e : EQueue) : (setEqueue c q e).mgmt = c.mgmt := rfl
@[simp] theorem setEqueue_smb (c : Chip) (q : Nat) (e : EQueue) : (setEqueue c q e).smb = c.smb := rfl
@[simp] theorem setEqueue_mem (c : Chip) (q : Nat) (e : EQueue) : (setEqueue c q e).mem = c.mem := rfl
@[simp] theorem setEqueue_sess (c : Chip) (q : Nat) (e : EQueue) : (setEqueue c q e).sess = c.sess := rfl
@[simp] theorem setEqueue_fig (c : Chip) (q : Nat) (e : EQueue) : (setEqueue c q e).fig = c.fig := rfl
@[simp] theorem setEqueue_tier (c : Chip) (q : Nat) (e : EQueue) : (setEqueue c q e).tier = c.tier := rfl
@[simp] theorem setEqueue_flash (c : Chip) (q : Nat) (e : EQueue) : (setEqueue c q e).flash = c.flash := rfl
@[simp] theorem setEqueue_grid (c : Chip) (q : Nat) (e : EQueue) : (setEqueue c q e).grid = c.grid := rfl
@[simp] theorem setEqueue_sched (c : Chip) (q : Nat) (e : EQueue) : (setEqueue c q e).sched = c.sched := rfl
@[simp] theorem setEqueue_checks (c : Chip) (q : Nat) (e : EQueue) : (setEqueue c q e).checks = c.checks := rfl
@[simp] theorem setEqueue_cuts (c : Chip) (q : Nat) (e : EQueue) : (setEqueue c q e).cuts = c.cuts := rfl
@[simp] theorem setEqueue_cutNext (c : Chip) (q : Nat) (e : EQueue) : (setEqueue c q e).cutNext = c.cutNext := rfl
@[simp] theorem setEqueue_xpt (c : Chip) (q : Nat) (e : EQueue) : (setEqueue c q e).xpt = c.xpt := rfl
@[simp] theorem setEqueue_peer (c : Chip) (q : Nat) (e : EQueue) : (setEqueue c q e).peer = c.peer := rfl
@[simp] theorem setEqueue_host (c : Chip) (q : Nat) (e : EQueue) : (setEqueue c q e).host = c.host := rfl
@[simp] theorem setEqueue_srch (c : Chip) (q : Nat) (e : EQueue) : (setEqueue c q e).srch = c.srch := rfl
@[simp] theorem setEqueue_ckpt (c : Chip) (q : Nat) (e : EQueue) : (setEqueue c q e).ckpt = c.ckpt := rfl
@[simp] theorem setEqueue_pwr (c : Chip) (q : Nat) (e : EQueue) : (setEqueue c q e).pwr = c.pwr := rfl
@[simp] theorem setEqueue_sec (c : Chip) (q : Nat) (e : EQueue) : (setEqueue c q e).sec = c.sec := rfl
@[simp] theorem setEqueue_flt (c : Chip) (q : Nat) (e : EQueue) : (setEqueue c q e).flt = c.flt := rfl
@[simp] theorem setEqueue_chip (c : Chip) (q : Nat) (e : EQueue) : (setEqueue c q e).chip = c.chip := rfl
@[simp] theorem setEqueue_tap (c : Chip) (q : Nat) (e : EQueue) : (setEqueue c q e).tap = c.tap := rfl
@[simp] theorem setEqueue_crc (c : Chip) (q : Nat) (e : EQueue) : (setEqueue c q e).crc = c.crc := rfl
@[simp] theorem setEqueue_pins (c : Chip) (q : Nat) (e : EQueue) : (setEqueue c q e).pins = c.pins := rfl
@[simp] theorem setEqueue_free (c : Chip) (q : Nat) (e : EQueue) : (setEqueue c q e).free = c.free := rfl
@[simp] theorem setEqueue_now (c : Chip) (q : Nat) (e : EQueue) : (setEqueue c q e).now = c.now := rfl
@[simp] theorem setEqueue_fineNow (c : Chip) (q : Nat) (e : EQueue) : (setEqueue c q e).fineNow = c.fineNow := rfl

/-! ### setCrcUnit -/

@[simp] theorem setCrcUnit_variant (c : Chip) (u : Nat) (x : CrcRun) : (setCrcUnit c u x).variant = c.variant := rfl
@[simp] theorem setCrcUnit_mgmt (c : Chip) (u : Nat) (x : CrcRun) : (setCrcUnit c u x).mgmt = c.mgmt := rfl
@[simp] theorem setCrcUnit_smb (c : Chip) (u : Nat) (x : CrcRun) : (setCrcUnit c u x).smb = c.smb := rfl
@[simp] theorem setCrcUnit_mem (c : Chip) (u : Nat) (x : CrcRun) : (setCrcUnit c u x).mem = c.mem := rfl
@[simp] theorem setCrcUnit_sess (c : Chip) (u : Nat) (x : CrcRun) : (setCrcUnit c u x).sess = c.sess := rfl
@[simp] theorem setCrcUnit_fig (c : Chip) (u : Nat) (x : CrcRun) : (setCrcUnit c u x).fig = c.fig := rfl
@[simp] theorem setCrcUnit_tier (c : Chip) (u : Nat) (x : CrcRun) : (setCrcUnit c u x).tier = c.tier := rfl
@[simp] theorem setCrcUnit_flash (c : Chip) (u : Nat) (x : CrcRun) : (setCrcUnit c u x).flash = c.flash := rfl
@[simp] theorem setCrcUnit_grid (c : Chip) (u : Nat) (x : CrcRun) : (setCrcUnit c u x).grid = c.grid := rfl
@[simp] theorem setCrcUnit_sched (c : Chip) (u : Nat) (x : CrcRun) : (setCrcUnit c u x).sched = c.sched := rfl
@[simp] theorem setCrcUnit_checks (c : Chip) (u : Nat) (x : CrcRun) : (setCrcUnit c u x).checks = c.checks := rfl
@[simp] theorem setCrcUnit_cuts (c : Chip) (u : Nat) (x : CrcRun) : (setCrcUnit c u x).cuts = c.cuts := rfl
@[simp] theorem setCrcUnit_cutNext (c : Chip) (u : Nat) (x : CrcRun) : (setCrcUnit c u x).cutNext = c.cutNext := rfl
@[simp] theorem setCrcUnit_xpt (c : Chip) (u : Nat) (x : CrcRun) : (setCrcUnit c u x).xpt = c.xpt := rfl
@[simp] theorem setCrcUnit_peer (c : Chip) (u : Nat) (x : CrcRun) : (setCrcUnit c u x).peer = c.peer := rfl
@[simp] theorem setCrcUnit_host (c : Chip) (u : Nat) (x : CrcRun) : (setCrcUnit c u x).host = c.host := rfl
@[simp] theorem setCrcUnit_egr (c : Chip) (u : Nat) (x : CrcRun) : (setCrcUnit c u x).egr = c.egr := rfl
@[simp] theorem setCrcUnit_srch (c : Chip) (u : Nat) (x : CrcRun) : (setCrcUnit c u x).srch = c.srch := rfl
@[simp] theorem setCrcUnit_ckpt (c : Chip) (u : Nat) (x : CrcRun) : (setCrcUnit c u x).ckpt = c.ckpt := rfl
@[simp] theorem setCrcUnit_pwr (c : Chip) (u : Nat) (x : CrcRun) : (setCrcUnit c u x).pwr = c.pwr := rfl
@[simp] theorem setCrcUnit_sec (c : Chip) (u : Nat) (x : CrcRun) : (setCrcUnit c u x).sec = c.sec := rfl
@[simp] theorem setCrcUnit_flt (c : Chip) (u : Nat) (x : CrcRun) : (setCrcUnit c u x).flt = c.flt := rfl
@[simp] theorem setCrcUnit_chip (c : Chip) (u : Nat) (x : CrcRun) : (setCrcUnit c u x).chip = c.chip := rfl
@[simp] theorem setCrcUnit_tap (c : Chip) (u : Nat) (x : CrcRun) : (setCrcUnit c u x).tap = c.tap := rfl
@[simp] theorem setCrcUnit_pins (c : Chip) (u : Nat) (x : CrcRun) : (setCrcUnit c u x).pins = c.pins := rfl
@[simp] theorem setCrcUnit_free (c : Chip) (u : Nat) (x : CrcRun) : (setCrcUnit c u x).free = c.free := rfl
@[simp] theorem setCrcUnit_now (c : Chip) (u : Nat) (x : CrcRun) : (setCrcUnit c u x).now = c.now := rfl
@[simp] theorem setCrcUnit_fineNow (c : Chip) (u : Nat) (x : CrcRun) : (setCrcUnit c u x).fineNow = c.fineNow := rfl

/-! ### modCkpt -/

@[simp] theorem modCkpt_variant (c : Chip) (f : CkptUnit → CkptUnit) : (modCkpt c f).variant = c.variant := rfl
@[simp] theorem modCkpt_mgmt (c : Chip) (f : CkptUnit → CkptUnit) : (modCkpt c f).mgmt = c.mgmt := rfl
@[simp] theorem modCkpt_smb (c : Chip) (f : CkptUnit → CkptUnit) : (modCkpt c f).smb = c.smb := rfl
@[simp] theorem modCkpt_mem (c : Chip) (f : CkptUnit → CkptUnit) : (modCkpt c f).mem = c.mem := rfl
@[simp] theorem modCkpt_sess (c : Chip) (f : CkptUnit → CkptUnit) : (modCkpt c f).sess = c.sess := rfl
@[simp] theorem modCkpt_fig (c : Chip) (f : CkptUnit → CkptUnit) : (modCkpt c f).fig = c.fig := rfl
@[simp] theorem modCkpt_tier (c : Chip) (f : CkptUnit → CkptUnit) : (modCkpt c f).tier = c.tier := rfl
@[simp] theorem modCkpt_flash (c : Chip) (f : CkptUnit → CkptUnit) : (modCkpt c f).flash = c.flash := rfl
@[simp] theorem modCkpt_grid (c : Chip) (f : CkptUnit → CkptUnit) : (modCkpt c f).grid = c.grid := rfl
@[simp] theorem modCkpt_sched (c : Chip) (f : CkptUnit → CkptUnit) : (modCkpt c f).sched = c.sched := rfl
@[simp] theorem modCkpt_checks (c : Chip) (f : CkptUnit → CkptUnit) : (modCkpt c f).checks = c.checks := rfl
@[simp] theorem modCkpt_cuts (c : Chip) (f : CkptUnit → CkptUnit) : (modCkpt c f).cuts = c.cuts := rfl
@[simp] theorem modCkpt_cutNext (c : Chip) (f : CkptUnit → CkptUnit) : (modCkpt c f).cutNext = c.cutNext := rfl
@[simp] theorem modCkpt_xpt (c : Chip) (f : CkptUnit → CkptUnit) : (modCkpt c f).xpt = c.xpt := rfl
@[simp] theorem modCkpt_peer (c : Chip) (f : CkptUnit → CkptUnit) : (modCkpt c f).peer = c.peer := rfl
@[simp] theorem modCkpt_host (c : Chip) (f : CkptUnit → CkptUnit) : (modCkpt c f).host = c.host := rfl
@[simp] theorem modCkpt_egr (c : Chip) (f : CkptUnit → CkptUnit) : (modCkpt c f).egr = c.egr := rfl
@[simp] theorem modCkpt_srch (c : Chip) (f : CkptUnit → CkptUnit) : (modCkpt c f).srch = c.srch := rfl
@[simp] theorem modCkpt_pwr (c : Chip) (f : CkptUnit → CkptUnit) : (modCkpt c f).pwr = c.pwr := rfl
@[simp] theorem modCkpt_sec (c : Chip) (f : CkptUnit → CkptUnit) : (modCkpt c f).sec = c.sec := rfl
@[simp] theorem modCkpt_flt (c : Chip) (f : CkptUnit → CkptUnit) : (modCkpt c f).flt = c.flt := rfl
@[simp] theorem modCkpt_chip (c : Chip) (f : CkptUnit → CkptUnit) : (modCkpt c f).chip = c.chip := rfl
@[simp] theorem modCkpt_tap (c : Chip) (f : CkptUnit → CkptUnit) : (modCkpt c f).tap = c.tap := rfl
@[simp] theorem modCkpt_crc (c : Chip) (f : CkptUnit → CkptUnit) : (modCkpt c f).crc = c.crc := rfl
@[simp] theorem modCkpt_pins (c : Chip) (f : CkptUnit → CkptUnit) : (modCkpt c f).pins = c.pins := rfl
@[simp] theorem modCkpt_free (c : Chip) (f : CkptUnit → CkptUnit) : (modCkpt c f).free = c.free := rfl
@[simp] theorem modCkpt_now (c : Chip) (f : CkptUnit → CkptUnit) : (modCkpt c f).now = c.now := rfl
@[simp] theorem modCkpt_fineNow (c : Chip) (f : CkptUnit → CkptUnit) : (modCkpt c f).fineNow = c.fineNow := rfl

/-! ### modPwr -/

@[simp] theorem modPwr_variant (c : Chip) (f : PwrUnit → PwrUnit) : (modPwr c f).variant = c.variant := rfl
@[simp] theorem modPwr_mgmt (c : Chip) (f : PwrUnit → PwrUnit) : (modPwr c f).mgmt = c.mgmt := rfl
@[simp] theorem modPwr_smb (c : Chip) (f : PwrUnit → PwrUnit) : (modPwr c f).smb = c.smb := rfl
@[simp] theorem modPwr_mem (c : Chip) (f : PwrUnit → PwrUnit) : (modPwr c f).mem = c.mem := rfl
@[simp] theorem modPwr_sess (c : Chip) (f : PwrUnit → PwrUnit) : (modPwr c f).sess = c.sess := rfl
@[simp] theorem modPwr_fig (c : Chip) (f : PwrUnit → PwrUnit) : (modPwr c f).fig = c.fig := rfl
@[simp] theorem modPwr_tier (c : Chip) (f : PwrUnit → PwrUnit) : (modPwr c f).tier = c.tier := rfl
@[simp] theorem modPwr_flash (c : Chip) (f : PwrUnit → PwrUnit) : (modPwr c f).flash = c.flash := rfl
@[simp] theorem modPwr_grid (c : Chip) (f : PwrUnit → PwrUnit) : (modPwr c f).grid = c.grid := rfl
@[simp] theorem modPwr_sched (c : Chip) (f : PwrUnit → PwrUnit) : (modPwr c f).sched = c.sched := rfl
@[simp] theorem modPwr_checks (c : Chip) (f : PwrUnit → PwrUnit) : (modPwr c f).checks = c.checks := rfl
@[simp] theorem modPwr_cuts (c : Chip) (f : PwrUnit → PwrUnit) : (modPwr c f).cuts = c.cuts := rfl
@[simp] theorem modPwr_cutNext (c : Chip) (f : PwrUnit → PwrUnit) : (modPwr c f).cutNext = c.cutNext := rfl
@[simp] theorem modPwr_xpt (c : Chip) (f : PwrUnit → PwrUnit) : (modPwr c f).xpt = c.xpt := rfl
@[simp] theorem modPwr_peer (c : Chip) (f : PwrUnit → PwrUnit) : (modPwr c f).peer = c.peer := rfl
@[simp] theorem modPwr_host (c : Chip) (f : PwrUnit → PwrUnit) : (modPwr c f).host = c.host := rfl
@[simp] theorem modPwr_egr (c : Chip) (f : PwrUnit → PwrUnit) : (modPwr c f).egr = c.egr := rfl
@[simp] theorem modPwr_srch (c : Chip) (f : PwrUnit → PwrUnit) : (modPwr c f).srch = c.srch := rfl
@[simp] theorem modPwr_ckpt (c : Chip) (f : PwrUnit → PwrUnit) : (modPwr c f).ckpt = c.ckpt := rfl
@[simp] theorem modPwr_sec (c : Chip) (f : PwrUnit → PwrUnit) : (modPwr c f).sec = c.sec := rfl
@[simp] theorem modPwr_flt (c : Chip) (f : PwrUnit → PwrUnit) : (modPwr c f).flt = c.flt := rfl
@[simp] theorem modPwr_chip (c : Chip) (f : PwrUnit → PwrUnit) : (modPwr c f).chip = c.chip := rfl
@[simp] theorem modPwr_tap (c : Chip) (f : PwrUnit → PwrUnit) : (modPwr c f).tap = c.tap := rfl
@[simp] theorem modPwr_crc (c : Chip) (f : PwrUnit → PwrUnit) : (modPwr c f).crc = c.crc := rfl
@[simp] theorem modPwr_pins (c : Chip) (f : PwrUnit → PwrUnit) : (modPwr c f).pins = c.pins := rfl
@[simp] theorem modPwr_free (c : Chip) (f : PwrUnit → PwrUnit) : (modPwr c f).free = c.free := rfl
@[simp] theorem modPwr_now (c : Chip) (f : PwrUnit → PwrUnit) : (modPwr c f).now = c.now := rfl
@[simp] theorem modPwr_fineNow (c : Chip) (f : PwrUnit → PwrUnit) : (modPwr c f).fineNow = c.fineNow := rfl

/-! ### putMem -/

@[simp] theorem putMem_variant (c : Chip) (a : Nat) (l : List Byte) : (putMem c a l).variant = c.variant := rfl
@[simp] theorem putMem_mgmt (c : Chip) (a : Nat) (l : List Byte) : (putMem c a l).mgmt = c.mgmt := rfl
@[simp] theorem putMem_smb (c : Chip) (a : Nat) (l : List Byte) : (putMem c a l).smb = c.smb := rfl
@[simp] theorem putMem_sess (c : Chip) (a : Nat) (l : List Byte) : (putMem c a l).sess = c.sess := rfl
@[simp] theorem putMem_fig (c : Chip) (a : Nat) (l : List Byte) : (putMem c a l).fig = c.fig := rfl
@[simp] theorem putMem_tier (c : Chip) (a : Nat) (l : List Byte) : (putMem c a l).tier = c.tier := rfl
@[simp] theorem putMem_flash (c : Chip) (a : Nat) (l : List Byte) : (putMem c a l).flash = c.flash := rfl
@[simp] theorem putMem_grid (c : Chip) (a : Nat) (l : List Byte) : (putMem c a l).grid = c.grid := rfl
@[simp] theorem putMem_sched (c : Chip) (a : Nat) (l : List Byte) : (putMem c a l).sched = c.sched := rfl
@[simp] theorem putMem_checks (c : Chip) (a : Nat) (l : List Byte) : (putMem c a l).checks = c.checks := rfl
@[simp] theorem putMem_cuts (c : Chip) (a : Nat) (l : List Byte) : (putMem c a l).cuts = c.cuts := rfl
@[simp] theorem putMem_cutNext (c : Chip) (a : Nat) (l : List Byte) : (putMem c a l).cutNext = c.cutNext := rfl
@[simp] theorem putMem_xpt (c : Chip) (a : Nat) (l : List Byte) : (putMem c a l).xpt = c.xpt := rfl
@[simp] theorem putMem_peer (c : Chip) (a : Nat) (l : List Byte) : (putMem c a l).peer = c.peer := rfl
@[simp] theorem putMem_host (c : Chip) (a : Nat) (l : List Byte) : (putMem c a l).host = c.host := rfl
@[simp] theorem putMem_egr (c : Chip) (a : Nat) (l : List Byte) : (putMem c a l).egr = c.egr := rfl
@[simp] theorem putMem_srch (c : Chip) (a : Nat) (l : List Byte) : (putMem c a l).srch = c.srch := rfl
@[simp] theorem putMem_ckpt (c : Chip) (a : Nat) (l : List Byte) : (putMem c a l).ckpt = c.ckpt := rfl
@[simp] theorem putMem_pwr (c : Chip) (a : Nat) (l : List Byte) : (putMem c a l).pwr = c.pwr := rfl
@[simp] theorem putMem_sec (c : Chip) (a : Nat) (l : List Byte) : (putMem c a l).sec = c.sec := rfl
@[simp] theorem putMem_flt (c : Chip) (a : Nat) (l : List Byte) : (putMem c a l).flt = c.flt := rfl
@[simp] theorem putMem_chip (c : Chip) (a : Nat) (l : List Byte) : (putMem c a l).chip = c.chip := rfl
@[simp] theorem putMem_tap (c : Chip) (a : Nat) (l : List Byte) : (putMem c a l).tap = c.tap := rfl
@[simp] theorem putMem_crc (c : Chip) (a : Nat) (l : List Byte) : (putMem c a l).crc = c.crc := rfl
@[simp] theorem putMem_pins (c : Chip) (a : Nat) (l : List Byte) : (putMem c a l).pins = c.pins := rfl
@[simp] theorem putMem_free (c : Chip) (a : Nat) (l : List Byte) : (putMem c a l).free = c.free := rfl
@[simp] theorem putMem_now (c : Chip) (a : Nat) (l : List Byte) : (putMem c a l).now = c.now := rfl
@[simp] theorem putMem_fineNow (c : Chip) (a : Nat) (l : List Byte) : (putMem c a l).fineNow = c.fineNow := rfl

/-! ### drivePins -/

@[simp] theorem drivePins_variant (c : Chip) : (drivePins c).variant = c.variant := rfl
@[simp] theorem drivePins_mgmt (c : Chip) : (drivePins c).mgmt = c.mgmt := rfl
@[simp] theorem drivePins_smb (c : Chip) : (drivePins c).smb = c.smb := rfl
@[simp] theorem drivePins_mem (c : Chip) : (drivePins c).mem = c.mem := rfl
@[simp] theorem drivePins_sess (c : Chip) : (drivePins c).sess = c.sess := rfl
@[simp] theorem drivePins_fig (c : Chip) : (drivePins c).fig = c.fig := rfl
@[simp] theorem drivePins_tier (c : Chip) : (drivePins c).tier = c.tier := rfl
@[simp] theorem drivePins_flash (c : Chip) : (drivePins c).flash = c.flash := rfl
@[simp] theorem drivePins_grid (c : Chip) : (drivePins c).grid = c.grid := rfl
@[simp] theorem drivePins_sched (c : Chip) : (drivePins c).sched = c.sched := rfl
@[simp] theorem drivePins_checks (c : Chip) : (drivePins c).checks = c.checks := rfl
@[simp] theorem drivePins_cuts (c : Chip) : (drivePins c).cuts = c.cuts := rfl
@[simp] theorem drivePins_cutNext (c : Chip) : (drivePins c).cutNext = c.cutNext := rfl
@[simp] theorem drivePins_xpt (c : Chip) : (drivePins c).xpt = c.xpt := rfl
@[simp] theorem drivePins_peer (c : Chip) : (drivePins c).peer = c.peer := rfl
@[simp] theorem drivePins_host (c : Chip) : (drivePins c).host = c.host := rfl
@[simp] theorem drivePins_egr (c : Chip) : (drivePins c).egr = c.egr := rfl
@[simp] theorem drivePins_srch (c : Chip) : (drivePins c).srch = c.srch := rfl
@[simp] theorem drivePins_ckpt (c : Chip) : (drivePins c).ckpt = c.ckpt := rfl
@[simp] theorem drivePins_pwr (c : Chip) : (drivePins c).pwr = c.pwr := rfl
@[simp] theorem drivePins_sec (c : Chip) : (drivePins c).sec = c.sec := rfl
@[simp] theorem drivePins_flt (c : Chip) : (drivePins c).flt = c.flt := rfl
@[simp] theorem drivePins_chip (c : Chip) : (drivePins c).chip = c.chip := rfl
@[simp] theorem drivePins_tap (c : Chip) : (drivePins c).tap = c.tap := rfl
@[simp] theorem drivePins_crc (c : Chip) : (drivePins c).crc = c.crc := rfl
@[simp] theorem drivePins_free (c : Chip) : (drivePins c).free = c.free := rfl
@[simp] theorem drivePins_now (c : Chip) : (drivePins c).now = c.now := rfl
@[simp] theorem drivePins_fineNow (c : Chip) : (drivePins c).fineNow = c.fineNow := rfl

end Sys2Proof.Machine
end

