-- ==== Sys2Proof/Laws/Minor.lean ====
section
/-! SUPPORT. What raising events, sending messages and reporting faults leave alone in the registers and headers, said
once: every register but a few counters and those of FLT, and of a header all but its BLK_INT, whose bits only rise. -/

namespace Sys2Proof.Machine

open Sys2Proof.Safety

/-- Registers that an event, a message or a fault report may change: four counters, and the page FLT. -/
def noisyKey (k : Nat) : Bool :=
  k % bankStride / 0x4000 = 4 ||
    (k % bankStride = aXPT_REC_DROP || k % bankStride = aXPT_BAD_CRC || k % bankStride = aXPT_RETX_CNT ||
      k % bankStride = aEGR_Q_FULL)

/-- `d` comes from `c` by events, messages and fault reports alone. -/
structure Minor (c d : Chip) : Prop where
  quiet : quiet d = quiet c
  regs : ∀ k, noisyKey k = false → regKey d k = regKey c k
  hdrs : ∀ p, { hdr d p with int := 0 } = { hdr c p with int := 0 }
  ints : ∀ p b, bit (hdr c p).int b = true → bit (hdr d p).int b = true

theorem Minor.refl (c : Chip) : Minor c c := ⟨rfl, fun _ _ => rfl, fun _ => rfl, fun _ _ h => h⟩

theorem Minor.trans {a b c : Chip} (h : Minor a b) (k : Minor b c) : Minor a c :=
  ⟨k.quiet.trans h.quiet, fun x hx => (k.regs x hx).trans (h.regs x hx), fun p => (k.hdrs p).trans (h.hdrs p),
    fun p b hb => k.ints p b (h.ints p b hb)⟩

/-- A change outside the management window. -/
theorem Minor.of_mgmt {c d : Chip} (hq : Safety.quiet d = Safety.quiet c) (hm : d.mgmt = c.mgmt) : Minor c d := by
  have hv : d.variant = c.variant := by
    have := congrArg Chip.variant hq
    exact this
  refine ⟨hq, fun k _ => ?_, fun p => ?_, fun p b h => ?_⟩
  · simp [regKey, hm, hv]
  · simp [hdr, hm]
  · simpa [hdr, hm] using h

theorem Minor.state {c d : Chip} (h : Minor c d) (p : Page) : bstate d p = bstate c p := by
  have := congrArg BlockHdr.state (h.hdrs p)
  exact this
theorem Minor.reg {c d : Chip} (h : Minor c d) {a : Nat} (ha : noisyKey (rkey 0 a) = false) :
    Machine.reg d a = Machine.reg c a := h.regs _ ha
theorem Minor.regB {c d : Chip} (h : Minor c d) {b a : Nat} (ha : noisyKey (rkey b a) = false) :
    Machine.regB d b a = Machine.regB c b a := h.regs _ ha

/-! ### Registers -/

theorem regKey_setKey_other (c : Chip) (key k : Nat) (m v : Word) (h : k ≠ key) : regKey (setKey c key m v) k = regKey c k := by
  simp [regKey, setKey, tget_tset_other' _ _ _ _ _ _ h]

theorem hdr_setKey (c : Chip) (key : Nat) (m v : Word) (p : Page) : hdr (setKey c key m v) p = hdr c p := rfl

theorem pageIdx_inj {p q : Page} (h : pageIdx p = pageIdx q) : p = q := by
  cases p <;> cases q <;> first | rfl | (exact absurd h (by decide))

theorem hdr_setHdr (c : Chip) (p q : Page) (h : BlockHdr) : hdr (setHdr c p h) q = if q = p then h else hdr c q := by
  unfold hdr setHdr
  split
  · rename_i e; subst e; exact tget_tset_self _ _ _ _
  · rename_i e; exact tget_tset_other' _ _ _ _ _ _ (fun x => e (pageIdx_inj x))

@[simp] theorem hdr_setHdr_self (c : Chip) (p : Page) (h : BlockHdr) : hdr (setHdr c p h) p = h := by simp [hdr_setHdr]

@[simp] theorem regKey_setHdr (c : Chip) (p : Page) (h : BlockHdr) (k : Nat) : regKey (setHdr c p h) k = regKey c k := rfl

theorem minor_setKey (c : Chip) (key : Nat) (m v : Word) (h : noisyKey key = true) : Minor c (setKey c key m v) :=
  ⟨quiet_setKey _ _ _ _, fun k hk => regKey_setKey_other _ _ _ _ _ (fun e => by rw [e, h] at hk; cases hk),
    fun _ => rfl, fun _ _ x => x⟩

theorem minor_setReg (c : Chip) (a : Nat) (v : Word) (h : noisyKey (rkey 0 a) = true) : Minor c (setReg c a v) :=
  minor_setKey _ _ _ _ h
theorem minor_setFld (c : Chip) (a hi lo v : Nat) (h : noisyKey (rkey 0 a) = true) : Minor c (setFld c a hi lo v) :=
  minor_setKey _ _ _ _ h
theorem minor_bumpB (c : Chip) (b a n : Nat) (h : noisyKey (rkey b a) = true) : Minor c (bumpB c b a n) := by
  unfold bumpB; split
  · exact Minor.refl _
  · exact minor_setKey _ _ _ _ h
theorem minor_bump (c : Chip) (a n : Nat) (h : noisyKey (rkey 0 a) = true) : Minor c (bump c a n) := minor_bumpB c 0 a n h
theorem minor_setPair (c : Chip) (a v : Nat) (h : noisyKey (rkey 0 a) = true) (h' : noisyKey (rkey 0 (a + 4)) = true) :
    Minor c (setPair c a v) := (minor_setKey _ _ _ _ h).trans (minor_setKey _ _ _ _ h')
theorem minor_intHdr (c : Chip) (p : Page) (w : Word) :
    Minor c (setHdr c p { hdr c p with int := (hdr c p).int ||| w }) := by
  refine ⟨quiet_setHdr _ _ _, fun _ _ => rfl, fun q => ?_, fun q b hb => ?_⟩
  · rw [hdr_setHdr]; split
    · rename_i e; subst e; rfl
    · rfl
  · rw [hdr_setHdr]; split
    · rename_i e; subst e
      simp only [bit] at hb ⊢
      simp [BitVec.getLsbD_or, hb]
    · exact hb

/-! ### Messages and events -/

theorem minor_takeFine (c : Chip) : Minor c (takeFine c).2 := Minor.of_mgmt (quiet_takeFine _) rfl
theorem minor_takeTick (c : Chip) : Minor c (takeTick c).2 := Minor.of_mgmt (quiet_takeTick _) rfl
theorem minor_takeFree (c : Chip) : Minor c (takeFree c).2 := Minor.of_mgmt (quiet_takeFree _) rfl
theorem minor_setConn (c : Chip) (n : Nat) (k : ConnSt) : Minor c (setConn c n k) := Minor.of_mgmt (quiet_setConn _ _ _) rfl
theorem minor_enqueuePkt (c : Chip) (n : Nat) (p : Pkt) : Minor c (enqueuePkt c n p).1 :=
  Minor.of_mgmt (quiet_enqueuePkt _ _ _) rfl
theorem minor_sendNow (c : Chip) (n : Nat) (p : Pkt) (u : InitUse) : Minor c (sendNow c n p u).1 :=
  Minor.of_mgmt (quiet_sendNow _ _ _ _) rfl

theorem noisy_queueFull (b : Nat) : noisyKey (rkey b aEGR_Q_FULL) = true := by
  have h : rkey b aEGR_Q_FULL % bankStride = aEGR_Q_FULL := by
    simp only [rkey, bankStride, aEGR_Q_FULL]; omega
  simp [noisyKey, h]

theorem minor_waitSpace (c : Chip) (n : Nat) (w : List (Pkt × InitUse)) : Minor c (waitSpace c n w).1 := by
  unfold waitSpace; dsimp only
  refine Minor.trans ?_ (minor_bumpB _ _ _ _ (noisy_queueFull _))
  exact Minor.of_mgmt rfl rfl

theorem minor_sendPkt (c : Chip) (n : Nat) (p : Pkt) (u : InitUse) : Minor c (sendPkt c n p u).1 := by
  unfold sendPkt; dsimp only; split
  · exact minor_setConn _ _ _
  · split
    · exact minor_sendNow _ _ _ _
    · exact minor_waitSpace _ _ _

theorem minor_sendFold (n : Nat) (u : InitUse) (ps : List Pkt) (a : Chip × List EventBit) :
    Minor a.1 (ps.foldl (fun a p => let (c1, e) := sendPkt a.1 n p u; (c1, a.2 ++ e)) a).1 := by
  induction ps generalizing a with
  | nil => exact Minor.refl _
  | cons p r ih => exact (minor_sendPkt a.1 n p u).trans (ih ((sendPkt a.1 n p u).1, a.2 ++ (sendPkt a.1 n p u).2))

theorem minor_pushMsg (c : Chip) (n cls : Nat) (b : List Byte) : Minor c (pushMsg c n cls b).1 := by
  unfold pushMsg; dsimp only; split
  · split
    · exact (minor_bumpB c 0 aXPT_REC_DROP 1 (by decide) : Minor c (bump c aXPT_REC_DROP 1))
    · exact Minor.refl _
  · split
    · exact (minor_bumpB c 0 aXPT_BAD_CRC 1 (by decide) : Minor c (bump c aXPT_BAD_CRC 1))
    · exact Minor.trans (minor_setConn c n _) (minor_sendFold n .plain _ (_, []))

theorem minor_eventFold (b : List Byte) (ns : List Nat) (a : Chip × List EventBit) :
    Minor a.1 (ns.foldl (fun a n => let (c2, e) := pushMsg a.1 n 7 b; (c2, a.2 ++ e)) a).1 := by
  induction ns generalizing a with
  | nil => exact Minor.refl _
  | cons n r ih => exact (minor_pushMsg a.1 n 7 b).trans (ih ((pushMsg a.1 n 7 b).1, a.2 ++ (pushMsg a.1 n 7 b).2))

theorem minor_sendEvent (c : Chip) (p : Page) : Minor c (sendEvent c p).1 := by
  unfold sendEvent; dsimp only; split
  · exact Minor.refl _
  · exact Minor.trans (minor_takeFine c) (minor_eventFold _ _ (_, []))

theorem minor_setInt (c : Chip) (p : Page) (w : Word) : Minor c (setInt c p w).1 := by
  unfold setInt; dsimp only; split
  · exact minor_intHdr _ _ _
  · exact (minor_intHdr c p w).trans (minor_sendEvent _ _)

theorem setInt_int (c : Chip) (p : Page) (w : Word) (b : Nat) (h : bit w b = true) :
    bit (hdr (setInt c p w).1 p).int b = true := by
  have h1 : bit (hdr (setHdr c p { hdr c p with int := (hdr c p).int ||| w }) p).int b = true := by
    simp only [bit] at h ⊢
    simp [BitVec.getLsbD_or, h]
  unfold setInt; dsimp only; split
  · exact h1
  · exact (minor_sendEvent _ p).ints _ _ h1

theorem minor_raiseN (f : Nat) (l : List EventBit) (c : Chip) : Minor c (raiseN f l c) := by
  induction f generalizing l c with
  | zero => exact Minor.refl _
  | succ f ih =>
    cases l with
    | nil => exact Minor.refl _
    | cons e r => exact (minor_setInt c e.1 _).trans (ih _ _)

theorem minor_raises (c : Chip) (l : List EventBit) : Minor c (raises c l) := minor_raiseN _ _ _
theorem minor_raise (c : Chip) (p : Page) (b : Nat) : Minor c (raise c p b) := minor_raises _ _
theorem minor_settleEvents (r : Chip × List EventBit) : Minor r.1 (settleEvents r) := minor_raises _ _
theorem minor_sendMsg (c : Chip) (n cls : Nat) (b : List Byte) : Minor c (sendMsg c n cls b) :=
  (minor_pushMsg _ _ _ _).trans (minor_settleEvents _)

theorem raiseN_cons (f : Nat) (p : Page) (b : Nat) (rest : List EventBit) (c : Chip) :
    raiseN (f + 1) ((p, b) :: rest) c =
      raiseN f (rest ++ (setInt c p (BitVec.ofNat 32 (2 ^ b))).2) (setInt c p (BitVec.ofNat 32 (2 ^ b))).1 := rfl

theorem raises_cons (c : Chip) (p : Page) (b : Nat) (rest : List EventBit) : ∃ f l,
    raises c ((p, b) :: rest) = raiseN f (rest ++ l) (setInt c p (BitVec.ofNat 32 (2 ^ b))).1 := by
  have h : 32 * ((p, b) :: rest).length + 128 = (32 * rest.length + 159) + 1 := by simp; omega
  exact ⟨_, _, by unfold raises; rw [h, raiseN_cons]⟩

/-- The bit of an event stands in BLK_INT once it is raised. -/
theorem raise_int (c : Chip) (p : Page) (b : Nat) (hb : b < 32) : bit (hdr (raise c p b) p).int b = true := by
  have h : bit (BitVec.ofNat 32 (2 ^ b)) b = true := by interval_cases b <;> decide
  obtain ⟨f, l, e⟩ := raises_cons c p b []
  unfold raise
  rw [e]
  exact (minor_raiseN _ _ _).ints _ _ (setInt_int c p _ b h)

theorem setState_spec (c : Chip) (p : Page) (s : BState) :
    Minor (setHdr c p { hdr c p with state := s }) (setState c p s) := by
  unfold setState; dsimp only; split
  · rename_i h
    have : setHdr c p { hdr c p with state := s } = setHdr c p (hdr c p) := by rw [← h]
    rw [this]
    refine ⟨by simp, fun _ _ => rfl, fun q => ?_, fun q b hb => ?_⟩
    · rw [hdr_setHdr]; split
      · rename_i e; subst e; rfl
      · rfl
    · rw [hdr_setHdr] at hb; split at hb
      · rename_i e; subst e; exact hb
      · exact hb
  · exact minor_raise _ _ _

@[simp] theorem bstate_setState (c : Chip) (p q : Page) (s : BState) :
    bstate (setState c p s) q = if q = p then s else bstate c q := by
  rw [(setState_spec c p s).state]; unfold bstate; rw [hdr_setHdr]; split <;> rfl

/-! ### Fault reports -/

theorem noisy_flt (b a : Nat) (h : 0x10000 ≤ a) (h' : a < 0x14000) : noisyKey (rkey b a) = true := by
  have h1 : rkey b a % bankStride = a := by simp only [rkey, bankStride]; omega
  have h2 : a / 0x4000 = 4 := by omega
  simp [noisyKey, h1, h2]

theorem minor_bbProgram (c : Chip) (r : List Byte) : Minor c (bbProgram c r) := by
  have h : ∀ d : Chip, Safety.quiet d = Safety.quiet c → d.mgmt = c.mgmt → ∀ v w,
      Minor c (setFld (setReg (setReg d aFLT_BB_SEQ v) aFLT_BB_HEAD w) aFLT_STATUS 1 1 1) := fun d hq hm v w =>
    (Minor.of_mgmt hq hm).trans ((minor_setReg _ aFLT_BB_SEQ _ (by decide)).trans
      ((minor_setReg _ aFLT_BB_HEAD _ (by decide)).trans (minor_setFld _ aFLT_STATUS _ _ _ (by decide))))
  unfold bbProgram; dsimp only; split
  · refine Minor.trans ?_ (minor_raise _ _ _)
    apply h <;> rfl
  · apply h <;> rfl

theorem minor_bbQueue (c : Chip) (r : List Byte) : Minor c (bbQueue c r) := by
  have hb : Minor c (bump c aFLT_BB_SUPPRESSED 1) := minor_bumpB c 0 aFLT_BB_SUPPRESSED 1 (by decide)
  unfold bbQueue; dsimp only; split
  · exact Minor.of_mgmt rfl rfl
  · split
    · exact hb
    · exact hb.trans (Minor.of_mgmt rfl rfl)

theorem minor_bbAppend (c : Chip) (r : List Byte) : Minor c (bbAppend c r) := by
  unfold bbAppend; split
  · exact minor_bbProgram _ _
  · split
    · exact minor_bbProgram _ _
    · exact minor_bbQueue _ _

theorem minor_bbRecord (c : Chip) (k cls l p : Nat) (i : Word) (a : DWord) (m : Word) :
    Minor c (bbRecord c k cls l p i a m) := by
  unfold bbRecord; dsimp only
  exact (minor_takeTick c).trans ((minor_takeFine _).trans (minor_bbAppend _ _))

theorem minor_bbPlain (c : Chip) (k : Nat) (m : Word) : Minor c (bbPlain c k m) := minor_bbRecord _ _ _ _ _ _ _ _

theorem minor_startReaction (c : Chip) (cls l : Nat) : Minor c (startReaction c cls l) := by
  unfold startReaction; split
  · exact Minor.of_mgmt rfl rfl
  · split
    · exact Minor.of_mgmt rfl rfl
    · exact Minor.refl _

theorem minor_faultRecord (c : Chip) (f : FaultRep) (l : Nat) : Minor c (faultRecord c f l) := by
  have h2 : Minor c (takeFree (takeFree c).2).2 := (minor_takeFree c).trans (minor_takeFree _)
  unfold faultRecord; split
  · exact Minor.refl _
  · dsimp only; split
    · exact h2
    · split
      · exact Minor.trans h2 (minor_bump _ aFLT_BB_SUPPRESSED 1 (by decide))
      · refine Minor.trans ?_ (minor_bbRecord _ _ _ _ _ _ _ _)
        refine Minor.trans h2 ?_
        exact Minor.of_mgmt rfl rfl

theorem minor_bbRewrite (c : Chip) : Minor c (bbRewrite c) := by
  have h1 : Minor c (setFld c aFLT_STATUS 1 1 0) := minor_setFld _ aFLT_STATUS _ _ _ (by decide)
  unfold bbRewrite; dsimp only; split
  · exact h1
  · refine Minor.trans ?_ (minor_bbAppend _ _)
    refine Minor.trans ?_ (minor_setReg _ aFLT_BB_SEQ _ (by decide))
    refine Minor.trans h1 ?_
    exact Minor.of_mgmt rfl rfl

theorem minor_reportAgain (c : Chip) (f : FaultRep) (l : LastReport) : Minor c (reportAgain c f l) := by
  unfold reportAgain; dsimp only; split
  · exact Minor.refl _
  · refine Minor.trans ?_ (Minor.trans (minor_raise _ _ _) (minor_startReaction _ _ _))
    split
    · refine Minor.trans ?_ (minor_setFld _ aFLT_LAST_CLASS _ _ _ (by decide))
      exact Minor.of_mgmt rfl rfl
    · exact Minor.of_mgmt rfl rfl

theorem minor_reportAt (c : Chip) (f : FaultRep) (n : Nat) : Minor c (reportAt c f n) := by
  have h4 : ∀ d : Chip, Safety.quiet d = Safety.quiet c → d.mgmt = c.mgmt → ∀ u v w x,
      Minor c (setReg (setPair (setReg (setReg d aFLT_LAST_CLASS u) aFLT_LAST_INFO v) aFLT_LAST_ADDR_LO w) aFLT_LAST_STAMP x) :=
    fun d hq hm u v w x => (Minor.of_mgmt hq hm).trans ((minor_setReg _ aFLT_LAST_CLASS _ (by decide)).trans
      ((minor_setReg _ aFLT_LAST_INFO _ (by decide)).trans ((minor_setPair _ aFLT_LAST_ADDR_LO _ (by decide) (by decide)).trans
        (minor_setReg _ aFLT_LAST_STAMP _ (by decide)))))
  unfold reportAt
  refine Minor.trans ?_ (minor_startReaction _ _ _)
  refine Minor.trans ?_ (minor_faultRecord _ _ _)
  refine Minor.trans ?_ (minor_raise _ _ _)
  split
  · refine Minor.trans ?_ (minor_bbRewrite _)
    apply h4
    · exact quiet_takeTick c
    · rfl
  · apply h4
    · exact quiet_takeTick c
    · rfl

theorem minor_reportFirst (c : Chip) (f : FaultRep) : Minor c (reportFirst c f) := minor_reportAt c f _

theorem minor_report (c : Chip) (f : FaultRep) (h : f.cls.toNat ≠ 0x11) : Minor c (report c f) := by
  unfold report; split
  · exact Minor.refl _
  · have hb : Minor c (bumpB c f.cls.toNat aFLT_CLASS_CNT 1) :=
      minor_bumpB _ _ _ _ (noisy_flt _ _ (by decide) (by decide))
    have hf : ∀ d : Chip, faultState d f = d := fun d => if_neg (fun x => h x.1)
    simp only [hf]
    split
    · split
      · exact hb.trans (minor_reportAgain _ _ _)
      · exact hb.trans (minor_reportFirst _ _)
    · exact hb.trans (minor_reportFirst _ _)

theorem minor_reportUnlisted (c : Chip) (p : Page) : Minor c (reportUnlisted c p) :=
  (minor_takeFree c).trans ((minor_takeFree _).trans ((minor_takeFree _).trans (minor_reportAt _ _ _)))

/-- A fault report of a class other than 0x11 (which puts the block in FAULT). -/
theorem minor_fault (c : Chip) (cls : Nat) (p : Page) (i a : Nat) (hi : Bool) (h : cls % 256 ≠ 0x11) :
    Minor c (fault c cls p i a hi) := by
  have h' : (BitVec.ofNat 8 cls).toNat ≠ 0x11 := by simpa using h
  unfold fault; dsimp only; split
  · exact minor_report _ _ h'
  · exact (minor_takeFree c).trans (minor_report _ _ h')

theorem minor_drivePins (c : Chip) : Minor c (drivePins c) := Minor.of_mgmt (quiet_drivePins _) rfl

end Sys2Proof.Machine
end

