-- ==== Sys2Proof/Laws/Shard.lean ====
section
/-! SUPPORT. Laws of checkpoint shards: how long a body is, and that a shard of zeros passes its checks. -/

namespace Sys2Proof.Machine

/-- Rounding up never lowers a number. -/
theorem le_roundUp (n m : Nat) : n ≤ roundUp n m := by
  simp only [roundUp]; split
  · exact le_refl n
  · rename_i h
    have h1 := Nat.div_add_mod (n + m - 1) m
    have h2 := Nat.mod_lt (n + m - 1) (show 0 < m by omega)
    rw [Nat.mul_comm] at h1
    omega

/-- A padded list has the length it is padded to. -/
theorem padTo_length (n : Nat) (l : List Byte) : (padTo n l).length = n := by
  simp only [padTo, List.length_append, List.length_take, List.length_replicate]; omega

/-- The body of a shard of a chip without sessions. -/
theorem shardBody_empty {c : Chip} (h : shardSessions c = []) (b : Bool) : (shardBody c b).length = 4259840 := by
  simp [shardBody, h]

/-- The record of a session that is not COLD holds its recurrent state. -/
theorem recur_le_record {c : Chip} {i : Nat} (h : (entry c i).state ≠ .cold) (b : Bool) :
    (recurBytes c i).length ≤ (shardRecord c i b).length := by
  simp only [shardRecord, padTo_length, if_neg h, shardSections, List.length_append, section64]
  refine le_trans ?_ (le_roundUp _ _)
  have := le_roundUp (recurBytes c i).length 64
  omega

/-- The body of a shard is longer than the recurrent state of any session that it records. -/
theorem recur_lt_body {c : Chip} {i : Nat} (hm : i ∈ shardSessions c) (h : (entry c i).state ≠ .cold) (b : Bool) :
    (recurBytes c i).length < (shardBody c b).length := by
  have h1 : (shardRecord c i b).length ≤ ((shardSessions c).flatMap (fun i => shardRecord c i b)).length := by
    obtain ⟨x, y, e⟩ := List.append_of_mem hm
    simp only [e, List.flatMap_append, List.flatMap_cons, List.length_append]; omega
  have h2 := recur_le_record h b
  simp only [shardBody, List.length_append, List.length_map, List.length_range]
  omega

end Sys2Proof.Machine
end

