-- ==== Sys2Proof/Laws/Window.lean ====
section
/-! SUPPORT. What a management access does before and after its register's rule, said once: the checks of the gate, the
unlock, the status (R8-R27). -/

namespace Sys2Proof.Machine

open Sys2Proof.Safety

@[simp] theorem regKey_setReqState (c : Chip) (r : Requester) (q : ReqState) (k : Nat) :
    regKey (setReqState c r q) k = regKey c k := by cases r <;> rfl
@[simp] theorem hdr_setReqState (c : Chip) (r : Requester) (q : ReqState) (p : Page) :
    hdr (setReqState c r q) p = hdr c p := by cases r <;> rfl
@[simp] theorem regKey_setArmed (c : Chip) (r : Requester) (p : Page) (on : Bool) (k : Nat) :
    regKey (setArmed c r p on) k = regKey c k := regKey_setReqState ..
@[simp] theorem hdr_setArmed (c : Chip) (r : Requester) (p q : Page) (on : Bool) :
    hdr (setArmed c r p on) q = hdr c q := hdr_setReqState ..
@[simp] theorem regB_setArmed (c : Chip) (r : Requester) (p : Page) (on : Bool) (b a : Nat) :
    regB (setArmed c r p on) b a = regB c b a := regKey_setArmed ..
@[simp] theorem reg_setArmed (c : Chip) (r : Requester) (p : Page) (on : Bool) (a : Nat) :
    reg (setArmed c r p on) a = reg c a := regKey_setArmed ..
@[simp] theorem conn_setArmed (c : Chip) (r : Requester) (p : Page) (on : Bool) (n : Nat) :
    conn (setArmed c r p on) n = conn c n := by simp [conn]
@[simp] theorem bankFor_setArmed (c : Chip) (r : Requester) (p : Page) (on : Bool) (q : Nat) (b : Bank) :
    bankFor (setArmed c r p on) q b = bankFor c q b := by cases b <;> simp [bankFor]

theorem desk_of_quiet {c d : Chip} (h : quiet c = quiet d) : desk c = desk d := by
  have hs : c.smb = d.smb := by have := congrArg Chip.smb h; exact this
  unfold desk; rw [h, hs]
theorem desk_setReqState (c : Chip) (r : Requester) (q : ReqState) : desk (setReqState c r q) = desk c := by cases r <;> rfl
theorem desk_setArmed (c : Chip) (r : Requester) (p : Page) (on : Bool) : desk (setArmed c r p on) = desk c :=
  desk_setReqState ..
theorem desk_keepStatus (c : Chip) (r : Requester) (st : Nat) : desk (keepStatus c r st) = desk c := by cases r <;> rfl
theorem desk_answer (c : Chip) (st : Nat) (d : Word) : desk (answer c st d) = desk c := rfl
theorem desk_drivePins (c : Chip) : desk (drivePins c) = desk c := rfl

/-- Addresses of plain registers: word-aligned, on a page, past the header and below the aliases (R16, R17). -/
def plainReg (a : Nat) : Bool := a % 4 = 0 && a < 0x64000 && 0x40 ≤ a % 0x4000 && a % 0x4000 < 0x1000

theorem baseAddr_plain {a : Nat} (h : plainReg a = true) : baseAddr a = a := by
  simp only [plainReg, Bool.and_eq_true, decide_eq_true_eq] at h
  unfold baseAddr; omega

theorem aliasOf_plain {a : Nat} (h : plainReg a = true) : aliasOf a = .plain := by
  simp only [plainReg, Bool.and_eq_true, decide_eq_true_eq] at h
  have : a % 0x4000 / 0x1000 = 0 := by omega
  simp [aliasOf, this]

theorem fastRuns_not_nap {c : Chip} (h : fastServed c = true) : c.chip.fast = .run := by
  simp only [fastServed, fastRuns, Bool.and_eq_true, decide_eq_true_eq] at h
  exact h.1.1

/-- The gate lets an access of a requester of the operator's partition through, and changes nothing. -/
theorem gate_ok {c : Chip} {r : Requester} {p : Page} {a : Nat} (w : Bool) (h : Reaches c r p)
    (hp : pageOf (a / 0x4000) = p) (ha : a % 4 = 0) (hb : a < 0x64000) : gate c r w a = (stOK, c) := by
  obtain ⟨_, hq, hs⟩ := h
  have h0 : ¬(a % 4 ≠ 0 ∨ 0x64000 ≤ a) := by omega
  unfold gate
  rw [if_neg h0]
  simp only [hq, mayWrite, mayRead, decide_true, Bool.true_or, ite_self, hp]
  rcases hs with hs | hs
  · simp [hs]
  · have hr := fastRuns_not_nap hs
    simp [hr, hs]

/-- A plain write of a register that is no pair word: the unlock is consumed, and the register's rule decides. -/
theorem mgmtWrite_row {c : Chip} {r : Requester} {a : Nat} {row : RegRow} (args : WrArgs) (w : Word)
    (h : Reaches c r (pageOf (a / 0x4000))) (ha : plainReg a = true) (hr : rowOf a = some row) (hp : row.pair = 0)
    (hg : rowGuarded row = true → armed c r (pageOf (a / 0x4000)) = true) :
    mgmtWriteWith c r args a w =
      let c1 := setArmed c r (pageOf (a / 0x4000)) false
      let y := pageWrite c1 (regWrOf c1 (some r) 0 args row .plain (bankFor c 0 row.bank) a w none)
      keepStatus (answer y.2 y.1 0) r y.1 := by
  have ha' := ha
  simp only [plainReg, Bool.and_eq_true, decide_eq_true_eq] at ha'
  obtain ⟨⟨⟨h4, hl⟩, h40⟩, h1⟩ := ha'
  have hq : reqPart c r = 0 := h.2.1
  unfold mgmtWriteWith
  rw [if_neg (by rw [h.1]; simp), gate_ok true h rfl h4 hl]
  simp only [ne_eq, not_true_eq_false, if_false]
  unfold writeAt
  simp only [baseAddr_plain ha, aliasOf_plain ha, hr]
  rw [if_neg (by omega), if_neg (by omega)]
  unfold rowWrite
  simp only [hp, hq]
  have hg' : ¬(rowGuarded row = true ∧ armed c r (pageOf (a / 0x4000)) = false) := fun x => by
    rw [hg x.1] at x; exact absurd x.2 (by simp)
  simp [hg']

/-- An accepted write whose rule gives a chip. -/
theorem accepted_of {i : Instr} {s : State} {r : Requester} {c d : Chip} {p : State → Prop}
    (he : exec i s = .next { s with toChip := drivePins (keepStatus (answer c stOK 0) r stOK) })
    (hd : desk c = desk d) (hp : p { s with toChip := drivePins (keepStatus (answer c stOK 0) r stOK) }) :
    Accepted i s r d p := by
  refine ⟨_, he, rfl, ?_, ?_, ?_, hp⟩
  · cases r <;> rfl
  · intro h; subst h; rfl
  · show desk (drivePins (keepStatus (answer c stOK 0) r stOK)) = desk d
    rw [desk_drivePins, desk_keepStatus, desk_answer, hd]

@[simp] theorem regKey_drive (c : Chip) (r : Requester) (st n : Nat) (d : Word) (k : Nat) :
    regKey (drivePins (keepStatus (answer c n d) r st)) k = regKey c k := by cases r <;> rfl
@[simp] theorem hdr_drive (c : Chip) (r : Requester) (st n : Nat) (d : Word) (p : Page) :
    hdr (drivePins (keepStatus (answer c n d) r st)) p = hdr c p := by cases r <;> rfl

end Sys2Proof.Machine
end

