-- ==== Sys2Proof/WellFormed.lean ====
section
/-! DEFINITION. Well-formed commands: operands within what the encodings and the events of the spec can carry. A command
that breaks one of these checks stands for nothing that can reach the block. -/

namespace Sys2Proof

/-- Copy numbers of an upset are 0, 1 and 2 (R28), and its address names a word. -/
def upsetWf (u : Upset) : Bool := decide (u.copy ≤ 2 ∧ u.addr.toNat % 4 = 0 ∧ u.addr.toNat < 0x64000)

/-- An inline APPEND fits a message of 65,536 B (R336). -/
def appendWf (s : AppendSrc) : Bool :=
  match s with
  | .tokens l => decide (l.length ≤ 16378)
  | .text l => decide (l.length ≤ 65512)
  | .region _ _ _ _ => true

/-- Format codes of an MMA (R152, R174): 0 to 3 floating, 4 and 5 integer; the two operands are of one kind. -/
def mmaWf (fa fb : Nat) : Bool := decide (fa < 6 ∧ fb < 6) && (decide (4 ≤ fa) == decide (4 ≤ fb))

/-- The payload that a TYPE carries (R313). -/
def payloadWf (typ n : Nat) : Bool :=
  if typ = 1 ∨ typ = 3 ∨ typ = 4 then decide (1 ≤ n ∧ n ≤ 4096)
  else if typ = 5 then decide (n = 0 ∨ n = 128)
  else decide (n = 0)

/-- A packet of the TYPE of its command (R313). -/
def pktWf (typ : Nat) (p : Pkt) : Bool := decide (p.typ.toNat = typ) && payloadWf typ p.payload.length

/-- The well-formed commands. -/
def Instr.wf (i : Instr) : Bool :=
  match i with
  | .smbWrite .. => true
  | .smbSetAddr .. => true
  | .smbRead .. => true
  | .smbLastStatus => true
  | .smbClockLowTimeout .. => true
  | .mgmtReq _ frame => decide (1 ≤ frame.length ∧ frame.length ≤ 65536)
  | .registerWrite .. => true
  | .loRead .. => true
  | .loWrite .. => true
  | .hiWrite .. => true
  | .aliasSet .. => true
  | .aliasClear .. => true
  | .aliasToggle .. => true
  | .blkUnlock .. => true
  | .unlockLapse .. => true
  | .enable .. => true
  | .drain .. => true
  | .selftest .. => true
  | .softReset .. => true
  | .drainDone .. => true
  | .drainTimeout .. => true
  | .selftestEnd .. => true
  | .blkIntSet .. => true
  | .blkIntEnWrite .. => true
  | .voteSweep upsets => upsets.all upsetWf
  | .modelValidate .. => true
  | .modelInvalidate .. => true
  | .modelCheckDone => true
  | .vocabValidate .. => true
  | .vocabInvalidate .. => true
  | .vocabCheckDone => true
  | .gramValidate .. => true
  | .gramInvalidate .. => true
  | .gramCheckDone => true
  | .idxValidate .. => true
  | .idxInvalidate .. => true
  | .idxCheckDone .. => true
  | .viewHandle .. => true
  | .damageSweepStart .. => true
  | .damageSweepEnd => true
  | .openSession _ _ req => decide (req.stops.length ≤ 255) && req.stops.all (fun s => decide (s.length ≤ 255))
  | .append _ _ _ src => appendWf src
  | .generate _ _ _ req => decide (req.drafts.length = req.spec.hostCount.toNat ∧ req.drafts.length ≤ 16360)
  | .park .. => true
  | .resume .. => true
  | .revivalDone .. => true
  | .fork .. => true
  | .excludeSpan .. => true
  | .endSession .. => true
  | .secureEnd .. => true
  | .sessionReleaseDone .. => true
  | .query .. => true
  | .offer .. => true
  | .attest _ _ _ body => decide (body.length ≤ 65520)
  | .register .. => true
  | .registerZeroDone .. => true
  | .revoke .. => true
  | .revokeDrained .. => true
  | .search _ _ _ req => decide (req.sketch.length + req.vector.length ≤ 65488)
  | .delete _ _ _ items => decide (items.length ≤ 16378)
  | .deleteWaitEnd .. => true
  | .indexLoad .. => true
  | .indexFree .. => true
  | .figureApply => true
  | .figStallRelease => true
  | .chipFault .. => true
  | .schedResume => true
  | .stepBoundary .. => true
  | .batchHoldExpiry .. => true
  | .layerEnd .. => true
  | .ratioJudge .. => true
  | .activationsArrived .. => true
  | .tokeniseDone .. => true
  | .nop .. => true
  | .halt .. => true
  | .loop .. => true
  | .skip _ _ n => decide (1 ≤ n.toNat ∧ n.toNat ≤ 255)
  | .bar .. => true
  | .fence .. => true
  | .smovi .. => true
  | .sadd .. => true
  | .ssub .. => true
  | .smul .. => true
  | .sand .. => true
  | .sor .. => true
  | .sxor .. => true
  | .sshl .. => true
  | .sshr .. => true
  | .scmp .. => true
  | .sld .. => true
  | .sst .. => true
  | .spar _ _ _ imm => decide (imm.toNat ≤ 1023)
  | .sidx .. => true
  | .vld .. => true
  | .vst .. => true
  | .vadd .. => true
  | .vsub .. => true
  | .vmul .. => true
  | .vfma .. => true
  | .vmax .. => true
  | .vmin .. => true
  | .vexp2 .. => true
  | .vrcp .. => true
  | .vrsq .. => true
  | .vred .. => true
  | .vbcast .. => true
  | .vsel .. => true
  | .vcmp .. => true
  | .vrot .. => true
  | .mzero .. => true
  | .mma _ _ _ _ _ fa fb _ _ => mmaWf fa.toNat fb.toNat
  | .mout .. => true
  | .mcol .. => true
  | .recv .. => true
  | .send .. => true
  | .messageArrival .. => true
  | .meshLinkFail .. => true
  | .rwait .. => true
  | .cplan .. => true
  | .copyPlanDone .. => true
  | .cwait .. => true
  | .placementDone .. => true
  | .watchdogExpiry .. => true
  | .lameEval => true
  | .rotateTest => true
  | .coreTestEnd .. => true
  | .coreStoreScrub .. => true
  | .lockstepDisagree .. => true
  | .coreOnline .. => true
  | .coreOffline .. => true
  | .coreTest .. => true
  | .ageFlush .. => true
  | .pressureEvict .. => true
  | .coldAgeEvict .. => true
  | .evictionCommit .. => true
  | .blockReadDone .. => true
  | .patrolScrub .. => true
  | .retrainWindow .. => true
  | .objectDurable .. => true
  | .programFail .. => true
  | .extentCopyDone .. => true
  | .extentEraseDone .. => true
  | .wearLevel => true
  | .compactionStart => true
  | .dieCommandTimeout .. => true
  | .dieLost .. => true
  | .diePoll .. => true
  | .mapRebuilt => true
  | .summaryScanDone => true
  | .readScan .. => true
  | .peerFrameRx _ _ words => decide ((words.map (·.bytes.length)).sum ≤ 4352)
  | .peerOutputArbitrate .. => true
  | .laserFailover .. => true
  | .ringLockTick .. => true
  | .calSweepStart .. => true
  | .calLaneDone .. => true
  | .laneLost .. => true
  | .portSilenceTimeout .. => true
  | .slowWindow .. => true
  | .idleReduce .. => true
  | .laneRelight .. => true
  | .portEnable .. => true
  | .portTrained .. => true
  | .portTrainingTimeout .. => true
  | .portRetrainTimer .. => true
  | .rtSwap .. => true
  | .rtCopy .. => true
  | .rtDataAccess .. => true
  | .hostFrameRx .. => true
  | .hostTrained => true
  | .hostTrainingTimeout => true
  | .hostLinkLoss .. => true
  | .hostRetrainTimer => true
  | .hostCalStart .. => true
  | .hostCalNeeded => true
  | .hostLaserFailover .. => true
  | .policerRefill => true
  | .shaperRefill => true
  | .queueSample .. => true
  | .egressSelect .. => true
  | .senderWaitRelease => true
  | .vstWrite _ p => pktWf 1 p
  | .writePlaced .. => true
  | .vstReadReq _ p => pktWf 2 p
  | .vstReadResp _ p => pktWf 3 p
  | .vstMsg _ p => pktWf 4 p
  | .messageDeliver .. => true
  | .vstAck _ p => pktWf 5 p
  | .vstNak _ p => pktWf 6 p
  | .vstConnect _ p => pktWf 7 p
  | .vstConnectAck _ p => pktWf 8 p
  | .vstClose _ p => pktWf 9 p
  | .connClosed .. => true
  | .rtoExpiry .. => true
  | .ackDelayExpiry .. => true
  | .rateIncreaseTick .. => true
  | .connFailedTimeout .. => true
  | .connOpen .. => true
  | .connClose .. => true
  | .connRelease .. => true
  | .connMgmt .. => true
  | .connUnmgmt .. => true
  | .cutOfferRx _ m => decide (m.typ = 0xb)
  | .cutAcceptRx _ m => decide (m.typ = 0xc)
  | .cutImageAcked .. => true
  | .cutReleaseRx _ m => decide (m.typ = 0xd)
  | .cutConversionStart .. => true
  | .cutConversionDone .. => true
  | .cutConfirmRx _ m => decide (m.typ = 0xe)
  | .cutDeclineRx _ m => decide (m.typ = 0x18)
  | .cutWithdrawRx _ m => decide (m.typ = 0x19)
  | .cutReclaimRx _ m => decide (m.typ = 0x1a)
  | .cutProbeRx _ m => decide (m.typ = 0x1b)
  | .cutStandingRx _ m => decide (m.typ = 0x1c)
  | .cutDoneRx _ m => decide (m.typ = 0x1d)
  | .acceptTimeout .. => true
  | .confirmTimeout .. => true
  | .sourceProbeTimer .. => true
  | .settleProbeTimer .. => true
  | .orphanAgeTimer .. => true
  | .recordAgeExpiry .. => true
  | .resolveSettle .. => true
  | .resolveDiscard .. => true
  | .scanPassStart => true
  | .scanPassEnd .. => true
  | .walkListsReady .. => true
  | .rerankDone .. => true
  | .searchDeadline .. => true
  | .shardAnswer _ _ _ hits => decide (hits.length ≤ 1024)
  | .repairObject .. => true
  | .ckptTimerExpiry => true
  | .ckptStepsReached => true
  | .ckptNow .. => true
  | .markPrepareRx m => decide (m.typ = 1)
  | .markSnapRx m => decide (m.typ = 2)
  | .markRestoreQueryRx m => decide (m.typ = 3)
  | .markRestoreGoRx m => decide (m.typ = 4)
  | .markTimeout => true
  | .snapshotPoint => true
  | .copyBeforeWrite .. => true
  | .shardBodyAcked => true
  | .shardCommitted => true
  | .restoreStart .. => true
  | .restoreRebuildDone .. => true
  | .ckptCutReclaim .. => true
  | .ckptCutDrop .. => true
  | .nextAreaTagWrite .. => true
  | .powerSample .. => true
  | .pwrLearn .. => true
  | .pwrExplore .. => true
  | .pwrDecide .. => true
  | .markEstimate .. => true
  | .markHoldExpiry .. => true
  | .thermalRead sites => decide (sites.length ≤ 32)
  | .throttleStep => true
  | .thermalTrip .. => true
  | .tripClear .. => true
  | .comparatorExercise .. => true
  | .partValidate .. => true
  | .partInvalidate .. => true
  | .partPurge .. => true
  | .purgeDrained .. => true
  | .partScrubDone .. => true
  | .extend .. => true
  | .consentWrite .. => true
  | .chipDebugReq .. => true
  | .chipDebugClose .. => true
  | .dbgOpen .. => true
  | .dbgClose .. => true
  | .dbgDataRead .. => true
  | .rollbackRaise .. => true
  | .keyRevoke .. => true
  | .traceEnable .. => true
  | .telSnapshot => true
  | .telPowerUpdate .. => true
  | .faultReport f => decide (1 ≤ f.cls.toNat ∧ f.cls.toNat ≤ 0x1E)
  | .moduleFault => true
  | .moduleReset .. => true
  | .bbSectorEraseDone => true
  | .bbIndex .. => true
  | .bbWindowReady => true
  | .bbMark .. => true
  | .supplyChange .. => true
  | .powerLoss => true
  | .mainOvervoltage => true
  | .suppliesGood _ => true
  | .bootReady .. => true
  | .resetInput => true
  | .xtalStable => true
  | .xtalFail => true
  | .napEntry => true
  | .deepEntry => true
  | .fastWake .. => true
  | .housekeepingWake .. => true
  | .clkWake .. => true
  | .clkHold .. => true
  | .ovlApply .. => true
  | .overlayCommit => true
  | .bootPreferWrite .. => true
  | .chipSelftestStart .. => true
  | .chipSelftestEnd failed => decide failed.Nodup
  | .updateStart .. => true
  | .updateDone .. => true
  | .norDataWrite .. => true
  | .crcStart .. => true
  | .crcRunDone .. => true
  | .jtagTrst => true
  | .jtagIdcode => true
  | .jtagBypass => true
  | .jtagSamplePreload .. => true
  | .jtagExtest => true
  | .jtagIntest => true
  | .jtagClamp => true
  | .jtagHighz => true
  | .readFullyRead .. => true
  | .shardDeadline .. => true
  | .pacingRelease .. => true
  | .pllRelock .. => true
  | .resetNRelease .. => true
  | .bbHeadFound => true
  | .dirCopyDone => true

end Sys2Proof
end

