-- ==== Sys2Proof/Tests/Slice0.lean ====
section
/-! SUPPORT. Tests of the block: well-formedness refuses what it should, small functions give the values that the manual
or the standards it names give, and every statement's hypotheses are met by some state. -/

namespace Sys2Proof.Tests

set_option Elab.async false

open Sys2Proof.Machine Sys2Proof.Safety

/-! ### States -/

/-- A chip that is up: the fast domain runs and every block is ON but CKPT. -/
def up : Chip :=
  let c := Chip.reset
  let c := { c with chip := { c.chip with fast := .run, bootDone := true, bootState := .ready } }
  let c := (Machine.allPages.filter (fun p => p ≠ .ckpt)).foldl
    (fun c p => setHdr c p { hdr c p with state := .on, enable := true }) c
  { c with sess := { c.sess with inited := true } }

/-- A state without waiting commands. -/
def st (c : Chip) : State := { toChip := c, pending := [] }

/-- The chip with a heap of 32 GiB at 16 GiB and connection 0 open. -/
def busy : Chip :=
  let c := setReg up aTIER_HEAP 0x00200010
  setConn c 0 { conn c 0 with state := .open }

/-- A session of partition 0 at generation 1, in a state, with a length. -/
def sess1 (x : SessState) (n : Nat) : Session :=
  { freeEntry with state := x, length := n, maxLen := 4096, part := 0, gen := 1 }

/-- The chip with session 0. -/
def withSess (x : SessState) (n : Nat) : Chip :=
  { busy with sess := { busy.sess with entries := [(0, sess1 x n)], cached := [0] } }

/-- The chip with a page's block in a state. -/
def withBlock (c : Chip) (p : Page) (x : BState) : Chip := setHdr c p { hdr c p with state := x, enable := decide (x = .on) }

/-- A chip on which the sideband holds the unlock of a page. -/
def held (c : Chip) (p : Page) : Chip := setArmed c .sideband p true

/-! ### The queue and the window: what the statements assume is met -/

theorem test_StepRunsTheFrontCommand : (st up).pending = [] ∧ { st up with pending := [Instr.figureApply] }.pending = Instr.figureApply :: [] :=
  ⟨rfl, rfl⟩

/-- The invariant of every step holds at a state and a step of it answers. -/
theorem test_StepKeepsMemoryAndPins : Memory.wf State.reset.mem = true ∧ PinsFollow State.reset ∧
    step State.reset = .next State.reset := ⟨by decide +kernel, by decide +kernel, rfl⟩

theorem test_AccessesOutsideTheRangeAreRefused : requesterUp up .sideband = true ∧ (2 : Word).toNat % 4 ≠ 0 ∧
    0x03FFFFFF < (0x04000000 : Word).toNat ∧ (st up).smb.addr = 0 := by decide +kernel

theorem test_SidebandCommands : sidebandUp up = true := by decide +kernel

/-- FLASH.DRAIN_TIMEOUT, SPEC.DRAIN_TIMEOUT and, under the unlock, GDR's as plain registers. -/
theorem test_WritesStoreFields :
    (Reaches up .sideband .flash ∧ pageOf (0x2409C / 0x4000) = .flash ∧ (rowOf 0x2409C).map rowGuarded = some false ∧
      (rowOf 0x2409C).map (·.pair) = some 0 ∧ (rowOf 0x2409C).map (·.bank) = some .none_ ∧ liveWord up 0 0 0x2409C = none) ∧
    (Reaches up .sideband .gdr ∧ (rowOf aGDR_SCRUB_PERIOD).map (·.pair) = some 0 ∧
      liveWord up 0 0 aGDR_SCRUB_PERIOD = none) ∧ Reaches up .sideband .spec := by decide +kernel

theorem test_PairsApplyWhole : Reaches up .sideband .crc ∧ (crcUnit up (bankFor up 0 .unit)).busy = false ∧
    (reqState (setReqState up .sideband { reqState up .sideband with hold := some (rkey 0 aCRC_POLY_LO, 5) }) .sideband).hold =
      some (rkey (bankFor up 0 .unit) aCRC_POLY_LO, 5) := by decide +kernel

theorem test_FramesAndUnlocks :
    let c := setConn up 0 { conn up 0 with state := .open, mgmt := true }
    let f : List Byte := [1, 0, 0, 0, 0, 0, 0, 0] ++ List.replicate 12 0
    (connTakes c 0 = true ∧ (conn c 0).mgmt = true ∧ 8 ≤ f.length ∧ rdLE f 0 1 = 1 ∧ f.length = 8 + 12 * 1) ∧
    (connTakes busy 0 = true ∧ (conn busy 0).mgmt = false) ∧ Reaches up .sideband .sess ∧ minuetOn up = true ∧
    ((rowOf aFLT_MODULE).map rowGuarded = some true ∧ (rowOf aFLT_MODULE).map (·.pair) = some 0 ∧
      Reaches up .sideband .flt ∧ armed up .sideband .flt = false) := by decide +kernel

theorem test_BlockControlMovesTheBlock : Reaches up .sideband .samp ∧ FigIdle up ∧ drainable .samp = true ∧
    ((hdr (withBlock up .samp .off) .samp).enable = false ∧ (hdr (withBlock up .samp .disabled) .samp).state = .disabled) ∧
    ((hdr up .samp).state = .on ∧ (hdr up .samp).enable = true ∧ (hdr up .samp).drain = false) ∧
    (hdr (withBlock up .samp .draining) .samp).state = .draining ∧ (hdr (withBlock up .samp .testing) .samp).state = .testing ∧
    (hdr (withBlock up .samp .fault) .samp).state = .fault ∧ Reaches (withBlock up .samp .fault) .sideband .samp := by
  decide +kernel

theorem test_BlocksResetAndEnd :
    armed up .sideband .samp = false ∧ armed (held up .samp) .sideband .samp = true ∧ Reaches (held up .samp) .sideband .samp ∧
    (let d := withBlock up .samp .draining
     (hdr d .samp).state = .draining ∧ inflightCount d .samp = 0 ∧ Awake d ∧ FigIdle d) ∧
    (let c := setHdr up .samp { hdr up .samp with selftest := true }
     (hdr c .samp).selftest = true ∧ Page.samp ∉ c.chip.testing ∧ minuetPage .samp = false ∧ Awake c) ∧
    (let c := setHdr up .sec { hdr up .sec with selftest := true }
     (hdr c .sec).selftest = true ∧ Page.sec ∉ c.chip.testing ∧ Awake c) := by decide +kernel

/-- BLK_INT.GUARD of SESS pending, its enable bit clear, and one event destination. -/
theorem test_InterruptBitsAndVotes :
    (let c := setHdr (setFldB (setConn up 0 { conn up 0 with state := .open, mgmt := true }) 0 aXPT_CONN_CTRL 9 9 1) .sess
       { hdr up .sess with int := 8 }
     Reaches c .sideband .sess ∧ (8 : Word) &&& intMask .sess &&& ~~~(hdr c .sess).intEn &&& (hdr c .sess).int ≠ 0 ∧
      (hdr c .xpt).intEn = 0 ∧ (hdr c .egr).intEn = 0 ∧ eventConns c = [0] ∧ (conn c 0).spray = false) ∧
    (minuetOn up = true ∧ up.mgmt.copy1 = [] ∧ up.mgmt.copy2 = [] ∧ pageOf (aSESS_OPQ_CFG / 0x4000) = .sess ∧
      (rowOf aSESS_OPQ_CFG).isSome = true ∧ ((rowOf aSESS_OPQ_CFG).map (fun row => decide ((4 : Word) &&& maskOfAcc row tripleAcc = 4))) =
        some true) := by decide +kernel

/-! ### Checked validation -/

theorem test_TextTableWrites :
    (Reaches (held up .text) .sideband .text ∧ armed (held up .text) .sideband .text = true ∧ up.checks.vocab = none ∧
      slotNamed up 0 = false ∧ fld (reg up aTEXT_VOCAB_SEL) 3 0 = 0 ∧ bit (regB up 0 aTEXT_VOCAB_CTRL) 0 = false) ∧
    slotNamed (withSess .ready 3) 0 = true ∧
    (up.checks.gram = none ∧ gramNamed up 0 = false ∧ fld (reg up aTEXT_GRAM_SEL) 11 0 = 0) ∧
    gramNamed (withSess .ready 3) 0 = true ∧ bit (regB (setRegB (withSess .ready 3) 0 aTEXT_GRAM_CTRL 1) 0 aTEXT_GRAM_CTRL) 0 = true := by
  decide +kernel

theorem test_SlotWrites :
    (Reaches (held up .attn) .sideband .attn ∧ armed (held up .attn) .sideband .attn = true ∧
      fld (reg up aATTN_MODEL_SEL) 3 0 = 0 ∧ up.checks.model = none ∧ bit (regB up 0 aATTN_MODEL_CTRL) 0 = false) ∧
    (Reaches (held up .srch) .sideband .srch ∧ fld (reg up aSRCH_INDEX_SEL) 3 0 = 0 ∧ ixChecking up 0 = false ∧
      bit (regB up 0 aSRCH_IDX_CTRL) 0 = false) ∧
    (let c := setRegB up 0 aSRCH_IDX_CTRL 1
     bit (regB c 0 aSRCH_IDX_CTRL) 0 = true ∧ ixBusy c 0 = false ∧ fld (regB c 0 aSRCH_IDX_CTRL) 10 8 = 0) ∧
    ixChecking { up with checks := { up.checks with index := [0] } } 0 = true := by decide +kernel

/-- A layer table of one attention layer: one head of 16 channels, all of them rotated. -/
def layered : Chip :=
  let c := { up with mem := memWrite up.mem 0x1000 ([0, 1, 1, 0] ++ leBytes 2 64 ++ leBytes 2 64 ++ List.replicate 24 0) }
  setRegB (setRegB c 0 aATTN_LAYERS_LO 0x1000) 0 aATTN_MODEL_CTRL 0x100

/-- A byte-mode slot of 256 tokens, and a grammar table of one FINAL state without transitions. -/
def spoken : Chip :=
  let h := [0x54, 0x47, 0, 0] ++ leBytes 4 1 ++ leBytes 4 0 ++ leBytes 4 0 ++ leBytes 4 256 ++ leBytes 8 0 ++
    leBytes 8 64 ++ leBytes 8 80 ++ leBytes 8 128 ++ leBytes 8 192
  let l := h ++ leBytes 4 (crc32c h) ++ (leBytes 4 0 ++ leBytes 2 0 ++ leBytes 2 1 ++ leBytes 4 0 ++ leBytes 4 0xFFFFFFFF)
  let c := { up with mem := memWrite up.mem 0x2000 l }
  setRegB (setRegB (setRegB c 0 aSAMP_SLOT_VOCAB 256) 0 aTEXT_VOCAB_CTRL 1) 0 aTEXT_GRAM_LO 0x2000

theorem test_ChecksEnd : (Awake up ∧ FigIdle up) ∧
    (badLayer (setRegB up 0 aATTN_MODEL_CTRL 0x100) 0).isSome = true ∧
    badLayer layered 0 = none ∧ vocabCheckOk up 0 = false ∧ vocabCheckOk spoken 0 = true ∧ gramCheckOk up 0 = false ∧
    gramCheckOk spoken 0 = true ∧
    ixChecking { up with checks := { up.checks with index := [0] } } 0 = true := by decide +kernel

/-! ### Session operations -/

/-- A request body with nothing unusual. -/
def openBody : OpenReq :=
  { model := 0, codec := 1, priority := 0, stopInclude := 0, client := 0, grammar := 0xFFFF, maxLen := 0, seed := 7, stops := [] }
def sampBody : Sampling :=
  { temp := 0, topP := 0x3F800000, minP := 0, rep := 0x3F800000, pres := 0, freq := 0, window := 0, topK := 0, flags := 0,
    eos := 0xFFFFFFFF, rsvd := 0 }
def specBody : SpecBlock :=
  { sources := 0, maxNodes := 0, maxDepth := 0, echoBranches := 0, draftSlot := 0, draftWidth := 0, hostCount := 0,
    echoTag := 0, echoCount := 0, echoOffset := 0, rsvd := 0 }
def genBody : GenReq := { maxNew := 2, samp := sampBody, spec := specBody, drafts := [] }

/-- The chip with session 0 and a vocabulary of 256 tokens in slot 0. -/
def talking (x : SessState) (n : Nat) : Chip :=
  setRegB (setRegB (withSess x n) 0 aSAMP_SLOT_VOCAB 256) 0 aTEXT_VOCAB_CTRL 1

theorem test_HandleLayout : (5 : Nat) < 8 ∧ (70000 : Nat) < 2 ^ 22 ∧ (127 : Nat) < 2 ^ 7 ∧
    hIdx (mkHandle 5 70000 127) = 70000 := by decide +kernel

theorem test_HandleChecksComeFirst : Awake busy ∧ busy.fig.committed = [] ∧
    handleStatus busy (partOfConn busy 0) 1 ≠ 0 := by decide +kernel

theorem test_OpenCreatesAReadySession : Awake busy ∧ FigIdle busy ∧ partOfConn busy 0 = some 0 ∧
    openRefusal busy 0 openBody = 0 ∧ freeIndex busy 0 = some 0 ∧
    openRefusal busy 0 { openBody with codec := 2 } = 0x23 := by decide +kernel

/-- The heap grants the areas of a session, wherever the free values point. -/
theorem test_OpenCreatesAReadySession_heap :
    ∃ x, heapAllocs (setReg layered aTIER_HEAP 0x00200010) 0 [tailSetBytes (setReg layered aTIER_HEAP 0x00200010) 0, smallBytes, exclBytes] = some x := by
  have e : tailSetBytes (setReg layered aTIER_HEAP 0x00200010) 0 = 32768 := by decide +kernel
  rw [e]
  exact Option.isSome_iff_exists.1 (heapAllocs_three (base := 2 ^ 34) (len := 2 ^ 35) (by decide +kernel) (by decide +kernel)
    (by decide) (by decide) (by decide) (by decide) (by decide) (by decide) (by decide) (by decide) (by decide))

/-- What `Takes` asks, of connection 0 and handle 1. -/
theorem takes_of {c : Chip} {code : Nat} {arg : OpArg} (h : Awake c ∧ FigIdle c ∧ partOfConn c 0 = some 0 ∧
    handleStatus c (some 0) 1 = 0 ∧ hIdx 1 ∈ c.sess.cached ∧ (body c (hIdx 1)).evict = none ∧
    (body c (hIdx 1)).unsettled = false ∧ acceptStatus c (hIdx 1) code arg = 0) : Takes c 0 1 code arg :=
  ⟨h.1, h.2.1, ⟨0, h.2.2.1, h.2.2.2.1⟩, h.2.2.2.2.1, h.2.2.2.2.2.1, h.2.2.2.2.2.2.1, h.2.2.2.2.2.2.2⟩

theorem test_AppendAndGenerateQueue : Takes (talking .ready 3) 0 1 2 (.append (.tokens [65])) ∧
    Takes (talking .ready 3) 0 1 2 (.append (.text [65])) ∧ Takes (talking .ready 3) 0 1 3 (.generate genBody) ∧
    ((entry (talking .ready 3) 0).state = .ready ∧ 0 < (entry (talking .ready 3) 0).length ∧
      (entry (talking .ready 3) 0).length < (entry (talking .ready 3) 0).maxLen ∧ 65 < slotVocab (talking .ready 3) 0) ∧
    (let c := { talking .ready 3 with sess := { (talking .ready 3).sess with
        ops := [(0, [{ newOp 2 0 1 1 (.append (.text [65])) 0 with phase := .tokenising }])] } }
     isUp c .text = true ∧ sessionAt c 1 = some 0 ∧ tokenise c 0 [65] = [65] ∧ 4 ≤ workFree c) :=
  ⟨takes_of (by decide +kernel), takes_of (by decide +kernel), takes_of (by decide +kernel), by decide +kernel,
    by decide +kernel⟩

theorem test_SessionFiguresCommit : Takes (talking .ready 3) 0 1 4 .plain ∧ Takes (talking .ready 3) 0 1 8 .plain ∧
    Takes (talking .ready 3) 0 1 9 .plain ∧ Takes (talking .ready 3) 0 1 7 (.exclude 0 2) ∧
    (addSpan (body (talking .ready 3) 0).excl 0 2).length ≤ 16 ∧ cutFind (talking .ready 3) true 1 0 = none :=
  ⟨takes_of (by decide +kernel), takes_of (by decide +kernel), takes_of (by decide +kernel), takes_of (by decide +kernel),
    by decide +kernel, by decide +kernel⟩

theorem test_ResumeAndFork : Takes (talking .sitout 3) 0 1 5 (.resume 0) ∧ Takes (talking .ready 3) 0 1 6 (.fork { p := 2, seed := 0 }) ∧
    (unclaimed (talking .sitout 3) 0 = [] ∧ forkRefusal (talking .ready 3) 0 2 = 0 ∧
      freeIndex (talking .ready 3) 0 = some 1) :=
  ⟨takes_of (by decide +kernel), takes_of (by decide +kernel), by decide +kernel⟩

theorem test_QueryAndRelease : handleStatus (withSess .ready 3) (partOfConn (withSess .ready 3) 0) 1 = 0 ∧
    hIdx 1 ∈ (withSess .ready 3).sess.cached ∧
    (let c := withSess .ended 3
     Awake c ∧ isUp c .fig = true ∧ c.flt.chipPending = false ∧ sessionAt c 1 = some 0 ∧ (entry c 0).state = .ended ∧
      (body c 0).secure = false ∧ c.sess.ops = []) ∧
    (let c := { withSess .ended 3 with sess := { (withSess .ended 3).sess with
        bodies := [(0, { bodyReset with secure := true })]
        ops := [(0, [{ newOp 9 0 1 1 .plain 0 with phase := .handing }])] } }
     (body c 0).secure = true ∧ isOn c .ckpt = false ∧ heldObjects c 0 = []) := by decide +kernel

/-! ### Step operations -/

/-- A core that runs a program, with S1 = 64, S2 = 4, S3 = 300 and both of the cores 0 and 1 in its group. -/
def running : Core :=
  { coreReset with state := .busy, s := [(1, 64), (2, 4), (3, 300)], store := [(0x10, 3)] }

/-- The chip with core 0 as given. -/
def onCore (k : Core) : Chip := setCore up 0 k

/-- Every lane. -/
def every : Guard := { neg := false, pred := 0 }

/-- No lane. -/
def none_ : Guard := { neg := true, pred := 0 }

theorem test_ScalarAndControl : Issues (onCore running) 0 ∧ lane0 (onCore running) 0 none_ = false ∧
    lane0 (onCore running) 0 every = true ∧ (sget running 0).toNat % 65536 = 0 ∧ (sget running 1).toNat % 65536 ≠ 0 ∧
    drained running = true ∧ drained { running with sendQ := [{ dst := 1, tag := 0, addr := 0, len := 4 }] } = false ∧
    inGroup running 0 = true ∧ inGroup coreReset 0 = false ∧
    ((List.range 256).filter (inGroup running)).all (fun m =>
      decide (m = 0) || decide ((coreAt (setCore (onCore running) 1 { running with wait := some (.bar 0) }) m).wait = some (.bar 0))) =
        true := by decide +kernel

theorem test_LoadsAndStores : Issues (onCore running) 0 ∧ lane0 (onCore running) 0 every = true ∧
    Operand (onCore running) 0 false (0xFFFFC) 4 4 ∧ Operand (onCore running) 0 true (0xFFFFC) 4 4 ∧
    Operand (onCore running) 0 false (4 * 1023) 4 4 ∧ Operand (onCore running) 0 true (0xFFF00) 256 64 ∧
    Operand (onCore running) 0 true 64 (2048 * 4) 64 ∧
    (let k := { running with loops := [{ start := 1, len := 2, count := 3, index := 1 }] }
     Issues (onCore k) 0 ∧ k.loops.reverse[0]? = some { start := 1, len := 2, count := 3, index := 1 } ∧ k.loops.length ≤ 1) := by
  decide +kernel

theorem test_OperandErrorsAndStalls : Issues (onCore running) 0 ∧ lane0 (onCore running) 0 every = true ∧
    storeSize < 0xFFFFD + 4 ∧ storeSize < 0xFFF40 + 256 ∧ (66 + 4 ≤ storeSize ∧ 66 % 4 ≠ 0) ∧ (68 + 256 ≤ storeSize ∧ 68 % 64 ≠ 0) ∧
    (let k := { running with posts := [(0, { addr := 0, len := 256, src := 1, arrived := none })] }
     Issues (onCore k) 0 ∧ pageBusy (busyReads (onCore k) 0) 64 4 = true ∧ pageBusy (busyWrites (onCore k) 0) 4092 4 = true) := by
  decide +kernel

theorem test_VectorOperations : Issues (onCore running) 0 ∧
    ∃ w : BitVec 64, ∀ i, i < 64 → w.getLsbD i = fcmp 0 ((vget running 1).getD i 0) ((vget running 2).getD i 0) := by
  refine ⟨by decide +kernel, if fcmp 0 0 0 then BitVec.allOnes 64 else 0, fun i hi => ?_⟩
  revert i hi
  decide +kernel

theorem test_MatrixOperations : Issues (onCore running) 0 ∧ lane0 (onCore running) 0 every = true ∧
    (mmaStated running 0 0 0 4 = true ∧ operandErr 64 (operandSpan 0 64 (aBytes 0 4 64) 8) = none ∧
      operandErr 64 (operandSpan 0 64 (bBytes 0 4) 4) = none ∧ pageBusy (busyReads (onCore running) 0) 64 64 = false) ∧
    mmaStated running 0 0 0 0 = false ∧ mmaStated { running with accKind := [(0, 2)] } 0 0 0 4 = false ∧
    mmaStated { running with accKind := [(0, 2)] } 0 4 5 4 = true := by decide +kernel

/-- A LOAD of 64 bytes of GDDR7 at 0x8000 to the core store at 128. -/
def loadDesc : List Byte :=
  [1, 0, 0, 0] ++ leBytes 4 64 ++ leBytes 8 0x8000 ++ leBytes 8 128 ++ leBytes 4 0 ++ leBytes 2 1 ++ leBytes 2 0

theorem test_MessagesAndPlans :
    (Issues (onCore running) 0 ∧ lane0 (onCore running) 0 every = true ∧ operandErr 64 4 = none ∧
      (tfind running.posts 0).map (fun p => p.arrived) ≠ some none ∧ inGroup running 1 = true ∧ inGroup running 300 = false ∧
      running.sendQ = [] ∧ tfind running.plans 0 = none ∧ (coreAt (onCore running) 1).wait = none) ∧
    (let k := { running with posts := [(0, { addr := 4096, len := 4, src := 1, arrived := none })],
                             credits := [(1, 0)], plans := [(0, [])] }
     Issues (onCore k) 0 ∧ (tfind k.posts 0).map (fun p => p.arrived) = some none ∧ (1, 0) ∈ k.credits ∧
      (tfind k.plans 0).isSome = true ∧ (tfind k.posts 0).bind (·.arrived) = none) ∧
    (let k := { running with posts := [(0, { addr := 4096, len := 4, src := 1, arrived := some 4 })],
                             sendQ := List.replicate 8 { dst := 1, tag := 0, addr := 0, len := 4 } }
     Issues (onCore k) 0 ∧ (tfind k.posts 0).bind (·.arrived) = some 4 ∧ 8 ≤ k.sendQ.length) ∧
    (Awake up ∧ isUp up .grid = true) ∧
    (descsCheck up 0 running [loadDesc] = .ok [
      { kind := 1, size := 64, outFp32 := false, part := 0, keyT := false, len := 64, src := 0x8000, dst := 128,
        stride := 0, rows := 1 }]) := by decide +kernel

theorem test_PlacementsEnd : Awake up ∧ isUp up .grid = true ∧ up.flt.chipPending = false ∧ noSteps up ∧ up.grid.tests = [] ∧
    (let k := { running with halted := true }
     k.halted = true ∧ drained k = true ∧ k.state = .busy ∧ k.lameDue = false) ∧
    bit (reg (setReg up aGRID_LAME_CFG 1) aGRID_LAME_CFG) 1 = false ∧ progOf up 0 = none :=
  ⟨by decide +kernel, by decide +kernel, by decide +kernel, fun _ => rfl, by decide +kernel, by decide +kernel, by decide +kernel,
    by decide +kernel⟩

theorem test_CoreTable : Awake up ∧ isUp up .grid = true ∧ up.grid.tests = [] ∧ testsRunning up < 16 ∧ FirstFault up ∧ noSteps up ∧
    bit (reg (setReg up aGRID_LAME_CFG 0) aGRID_LAME_CFG) 0 = false ∧
    (let c := setReg up aGRID_LAME_CFG 0x01100001
     bit (reg c aGRID_LAME_CFG) 0 = true ∧ bit (reg c aGRID_LAME_CFG) 1 = false ∧ Awake c ∧ isUp c .grid = true ∧
      testsRunning c < 16) ∧
    (Reaches up .sideband .grid ∧ fld (reg (setReg up aGRID_CORE_SEL 255) aGRID_CORE_SEL) 7 0 = 255) ∧
    (coreAt (onCore running) 0).state = .busy ∧ testsRunning (onCore running) < 16 ∧
    (coreAt (onCore { coreReset with state := .testing }) 0).state = .testing ∧
    testsRunning (onCore { coreReset with state := .testing, requested := true }) < 16 ∧
    (coreAt (onCore { coreReset with state := .free }) 0).state = .free ∧ (coreAt up 0).state = .off :=
  ⟨by decide +kernel, by decide +kernel, by decide +kernel, by decide +kernel, by decide +kernel, fun _ => rfl, by decide +kernel,
    by decide +kernel, by decide +kernel, by decide +kernel, by decide +kernel, by decide +kernel, by decide +kernel,
    by decide +kernel, by decide +kernel⟩

/-! ### Steps, figures, tiers -/

/-- The chip with the session of index 0, its GENERATE READY, model slot 0 valid and core 0 FREE. -/
def forming : Chip :=
  let c := setRegB (setCore (talking .ready 3) 0 { coreReset with state := .free }) 0 aATTN_MODEL_CTRL 1
  { c with sess := { c.sess with ops := [(0, [{ newOp 3 0 1 1 (.generate genBody) 0 with phase := .ready }])] } }

/-- A work of session 0 and an engine on core 0, whose placement has ended. -/
def work0 : Work :=
  { idx := 0, kind := .replay, tokens := [], rows := 1, tree := [], stage := 65536, blocks := [], fresh := [], draws := [],
    deadNodes := [], outs := [], recur := [], bad := false }
def engine0 (n : Nat) : Engine :=
  { kind := .decode, slot := 0, rows := [0], works := [work0], layer := 0, layers := n, cores := [0], ended := false }
def stepping (st : Step) : Chip := setSched forming 0 { schedPart forming 0 with step := some st }

theorem test_StepsFormAndEnd :
    (Awake up ∧ canForm up 0 = true ∧ up.fig.committed = [] ∧ up.fig.waiting = [] ∧ up.tier.revivals = [] ∧ up.sess.ops = []) ∧
    (canForm forming 0 = true ∧ (entry forming 0).part = 0 ∧ (entry forming 0).state = .ready ∧
      modelValid forming 0 = true ∧ listOf forming (rowsOf forming 0) ≠ [] ∧ forming.fig.staged = 0 ∧ forming.fig.reserved = 0) ∧
    ((batchHold (setReg up aSCHED_BATCH_HOLD 0)).2 = 0 ∧ 1 < (batchHold (setReg up aSCHED_BATCH_HOLD 0x00010002)).1 ∧
      (batchHold (setReg up aSCHED_BATCH_HOLD 0x00010002)).2 ≠ 0) ∧
    (let c := stepping { engines := [engine0 1], waitPeer := false, paced := false }
     Awake c ∧ c.flt.chipPending = false ∧ layerDone c (engine0 1) = true ∧
      (schedPart c 0).step = some { engines := [engine0 1], waitPeer := false, paced := false } ∧
      (engine0 1).layers ≤ (engine0 1).layer + 1 ∧ (engine0 2).layer + 1 < (engine0 2).layers) ∧
    (let c := setSched up 0 { schedPart up 0 with window := 64 }
     64 ≤ (schedPart c 0).window ∧ isUp c .sched = true ∧ (schedPart up 0).window < 64) ∧
    (let c := stepping { engines := [engine0 1], waitPeer := true, paced := true }
     Awake c ∧ (schedPart c 0).step = some { engines := [engine0 1], waitPeer := true, paced := true }) := by decide +kernel

/-- A figure of session 0, and a committed one. -/
def fig0 (n : Nat) : Figure := { subjects := [.session 0], acts := [], origin := .session, staged := n, after := [] }

theorem test_FiguresApplyAndRecover : Awake up ∧ FigIdle up ∧ noSteps up ∧ up.sched.stopped = false ∧
    (canOpen up (fig0 0) = true ∧ canOpen up (fig0 (2 ^ 40)) = false) ∧
    (let c := { up with fig := { up.fig with committed := [{ seq := 1, fig := fig0 0, units := 2, id := 0, place := 0 }] } }
     Awake c ∧ c.fig.committed = [{ seq := 1, fig := fig0 0, units := 2, id := 0, place := 0 }]) ∧
    (let c := { up with flt := { up.flt with chipPending := true } }
     Awake c ∧ FigIdle c ∧ c.flt.chipPending = true ∧ c.srch.queries = [] ∧ c.srch.deletes = [] ∧ c.srch.olds = [] ∧
      c.srch.loads = [] ∧ c.sec.attest = [] ∧ c.grid.tests = []) ∧
    (∀ n, (coreAt up n).lameDue = false) ∧
    (let c := { up with sched := { up.sched with stopped := true } }
     c.sched.stopped = true ∧ c.flt.chipPending = false ∧ FigIdle c ∧ Awake c) :=
  ⟨by decide +kernel, by decide +kernel, fun _ => rfl, by decide +kernel, by decide +kernel, by decide +kernel, by decide +kernel,
    fun _ => rfl, by decide +kernel⟩

/-- A module of one die that works, with a write head in it: extent 1 open as LEXT 1, extent 0 closed as LEXT 0. -/
def oneDie (c : Chip) : Chip :=
  { c with
    variant := .nvt9404
    flash := { c.flash with
      lostDies := (List.range 16).drop 1, heads := [(0, 1)], mapReady := true, scanned := true
      extents := [(0, { extReset with state := .closed, lext := some 0, fill := 64 }),
        (1, { extReset with state := .open, lext := some 1, erases := 300 })] } }

/-- A write reaches the one die that works. -/
theorem write_goes {c : Chip} {p d : Nat} {o : FObj} {u : FUse} (h1 : isOn c .flash = true)
    (h2 : ¬(o.len < 64 ∨ extentBytes < o.len)) (h3 : flashReadOnly c = false) (h4 : diesFor (takeFree c).2 p = [d])
    (h5 : (placeWrite (takeFree c).2 [d] o u).isSome = true) : (flashWrite c p o u).1 = 0 := by
  obtain ⟨x, hx⟩ := Option.isSome_iff_exists.1 h5
  simp [flashWrite, flashWriteTo, h1, h3, h2, dieOrder_one h4, hx]

/-- Session 0 parked with the block 5, which is RESIDENT. -/
def parked : Chip :=
  let c := oneDie (withSess .sitout 3)
  { c with
    sess := { c.sess with bodies := [(0, { bodyReset with blocks := [(0, 5)] })] }
    tier := { c.tier with ledger := [(5, { ledgerReset with gddr := some 0x400000000, size := 64, res := 1, state := .resident })] } }

/-- Session 0 parked without blocks. -/
def bare : Chip := oneDie (withSess .sitout 3)

/-- A revival of session 0. -/
def rev0 (reading : Bool) : Revival :=
  { idx := 0, priority := 0, order := 0, deadline := 100, reading := reading, waitBlocks := [], addrs := [], cold := false,
    late := false, arrived := false }

/-- The block 5 being read from flash. -/
def readingBlock : Chip :=
  let c := oneDie busy
  { c with
    flash := { c.flash with objects := [(0, { len := 64, kind := 1, owner := 0, seq := 0, data := List.replicate 64 0 })] }
    tier := { c.tier with ledger := [(5, { ledgerReset with flash := some 0, size := 64, res := 1, state := .reading })] } }

theorem test_TierOperations :
    (let c := withSess .sitout 3
     Awake c ∧ isUp c .tier = true ∧ isUp c .fig = true ∧ c.flt.chipPending = false ∧ c.fig.committed = [] ∧ c.fig.waiting = [] ∧
      c.fig.logUsed = 0 ∧ c.fig.staged = 0 ∧ sessionAt c 1 = some 0 ∧ (entry c 0).state = .sitout ∧
      (newOp 5 0 1 1 (.resume 0) 0).held = []) ∧
    ((ledger readingBlock 5).state = .reading ∧ (flashObj readingBlock ((ledger readingBlock 5).flash.getD 0)).isSome = true ∧
      readingBlock.tier.revivals = [] ∧ readingBlock.sess.ops = []) ∧
    (Awake parked ∧ isOn parked .tier = true ∧ FigIdle parked ∧ sessionAt parked 1 = some 0 ∧
      (entry parked 0).state = .sitout ∧ reg (setReg parked aTIER_FLUSH_AGE 1) aTIER_FLUSH_AGE ≠ 0 ∧
      blockList parked 0 = [5] ∧ (ledger parked 5).state = .resident ∧ flushing parked 5 = false) ∧
    (Awake bare ∧ isOn bare .tier = true ∧ FigIdle bare ∧ 0 ∈ evictable bare (entry bare 0).part ∧ blockList bare 0 = [] ∧
      evictOrder bare 0 = [0] ∧ heapFree (setReg bare aTIER_PRESSURE 0xFFFF) 0 < pressureLow (setReg bare aTIER_PRESSURE 0xFFFF) ∧
      pressureLow (setReg bare aTIER_PRESSURE 0) ≤ heapFree (setReg bare aTIER_PRESSURE 0) 0) ∧
    (let c := setBody bare 0 { body bare 0 with evict := some (none, some 64) }
     (body c 0).evict = some (none, some 64) ∧ allMirrored c 0 = true ∧ sessionAt c 1 = some 0) := by decide +kernel

/-- The writes that a flush and an eviction need are taken. -/
theorem test_TierOperations_writes :
    (flashWrite (setReg parked aTIER_FLUSH_AGE 1) 0
      { len := (blockBytes parked 5).length, kind := 1, owner := blockOwner (blockBytes parked 5),
        seq := rdLE (blockBytes parked 5) 0x18 8, data := blockBytes parked 5 } (.block 5)).1 = 0 ∧
    (flashWrite bare 0 { len := (coldImage bare 0).length, kind := 2, owner := w64 (handleOf bare 0).toNat, seq := bare.fig.seq,
                         data := coldImage bare 0 } (.image 0)).1 = 0 :=
  ⟨write_goes (d := 0) (by decide +kernel) (by decide +kernel) (by decide +kernel) (by decide +kernel) (by decide +kernel),
    write_goes (d := 0) (by decide +kernel) (by decide +kernel) (by decide +kernel) (by decide +kernel) (by decide +kernel)⟩

theorem test_PatrolAndRetraining : Awake busy ∧ isUp busy .gdr = true ∧ FigIdle busy ∧ placeOf busy 0x3FFFFFFFFF = .other ∧
    bit (reg (setReg busy aGDR_RETRAIN 1) aGDR_RETRAIN) 0 = true ∧ FirstFault busy := by decide +kernel

/-- An object of 64 bytes. -/
def obj0 : FObj := { len := 64, kind := 1, owner := 0, seq := 0, data := List.replicate 64 0 }

/-- A live object in LEXT 0, which extent 0 serves, and COMPACT as it asks for compaction. -/
def filled : Chip :=
  let c := setReg (oneDie busy) aFLASH_COMPACT 0xFFFF0064
  { c with flash := { c.flash with objects := [(0, obj0)] } }

theorem test_FlashOperations :
    (Awake (oneDie busy) ∧ isOn (oneDie busy) .flash = true ∧ FigIdle (oneDie busy)) ∧
    (let w : FWrite := { id := 0, obj := obj0, use := .block 5, ext := 1, addr := 2 ^ 27 }
     let c := { parked with flash := { parked.flash with writes := [w] } }
     c.flash.writes.find? (fun x => x.id = w.id) = some w ∧ (ledger c 5).state = .resident ∧ blockBytes c 5 = w.obj.data ∧
      (ledger c 5).res ≠ 0) ∧
    (let c := oneDie busy
     (0 : Nat) < diesOf c.variant ∧ 0 ∉ c.flash.lostDies ∧ 0 ∉ c.flash.resetDies ∧ tfind c.flash.heads 0 = some 1 ∧
      c.flash.writes = [] ∧ (extent c 1).lext = some 1 ∧ liveBytes c 1 = 0) ∧
    (let c := setExtent filled 0 { extent filled 0 with copyTo := some 1 }
     (extent c 0).state = .closed ∧ (extent c 0).copyTo = some 1 ∧ (extent c 0).lext = some 0 ∧ liveBytes c 0 ≠ 0) ∧
    (extent (setExtent filled 0 { extReset with state := .erasing }) 0).state = .erasing ∧
    ((sortBy (fun x => (extent (oneDie busy) x).erases) (quietClosed (oneDie busy))).head? = some 0 ∧
      (extent (oneDie busy) 0).erases + 200 < maxErases (oneDie busy)) ∧
    (freeLexts filled < fld (reg filled aFLASH_COMPACT) 31 16 ∧ quietClosed filled = [0] ∧ relocating filled 0 = false ∧
      extLive filled 0 * 100 < livePct filled * extentBytes ∧ objectsIn filled 0 = [(0, obj0)]) ∧
    (let c := { oneDie busy with flash := { (oneDie busy).flash with resetDies := [0] } }
     (0 : Nat) ∈ c.flash.resetDies ∧ c.flash.writes = [] ∧ c.flash.objects = []) ∧
    ((extent (oneDie busy) 0).reads < 500000 ∧ (extent (oneDie busy) 0).copyTo = none ∧ objectsIn (oneDie busy) 0 = []) ∧
    (up.flash.mapReady = false ∧
      let c := withBlock { up with flash := { up.flash with mapReady := true } } .flash .off
      let d := setHdr c .flash { hdr c .flash with enable := true }
      d.flash.mapReady = true ∧ d.flash.scanned = false ∧ (hdr d .flash).enable = true ∧ bstate d .flash = .off ∧
      (hdr c .flash).enable = false) := by decide +kernel

/-- Wear levelling finds a spare, a weak extent has one to go to, and compaction has a place to write to. -/
theorem test_FlashOperations_places :
    (∃ d, (sortBy (fun x => maxErases (oneDie busy) - (extent (oneDie busy) x).erases) (spareList (oneDie busy) 0)).head? = some d ∧
      0 ≠ d) ∧ spareList (oneDie busy) 0 ≠ [] ∧
    (let c1 := (takeFree filled).2
     (placeWrite c1 (dieOrder c1 (partOfDie c1 (dieOf 0)) (takeFree filled).1) obj0 (.relocate 0)).isSome = true) := by
  have h : 2 ∈ spareList (oneDie busy) 0 := mem_spareList.2 (by decide +kernel)
  refine ⟨?_, List.ne_nil_of_mem h, ?_⟩
  · obtain ⟨x, m, hs, hx⟩ := spare_first (fun x => maxErases (oneDie busy) - (extent (oneDie busy) x).erases) h
    refine ⟨x, by rw [hs]; rfl, ?_⟩
    rintro rfl
    revert hx
    decide +kernel
  · show (placeWrite (takeFree filled).2 (dieOrder (takeFree filled).2 (partOfDie (takeFree filled).2 (dieOf 0))
      (takeFree filled).1) obj0 (.relocate 0)).isSome = true
    rw [dieOrder_one (d := 0) (by decide +kernel)]
    decide +kernel

/-! ### Transport -/

/-- The chip with registration 1 as given: 4 KiB at 16 GiB. -/
def registered (r : Region) : Chip := setRegion busy 1 { r with gen := 1, base := 2 ^ 34, len := 4096, part := 0, conn := 0xFFFF }

/-- An ACTIVE registration that may be read and written. -/
def live : Region := { regionReset with state := .active, write := true, read := true }

def regReq : RegReq := { length := 4096, access := 3, conn := 0xFFFF, notify := 0 }

theorem test_RegistrationsRunTheirCourse :
    (Awake busy ∧ FigIdle busy ∧ partOfConn busy 0 = some 0 ∧ registerRefusal (setReg busy aTIER_PRESSURE 0) 0 regReq = 0 ∧
      (freeRegion busy).isSome = true ∧ registerRefusal busy 0 { regReq with length := 4095 } ≠ 0) ∧
    (∃ a c, heapAlloc (setReg busy aTIER_PRESSURE 0) 0 4096 = some (a, c)) ∧
    (let c := registered { live with state := .free, zeroing := true }
     isUp c .fig = true ∧ c.flt.chipPending = false ∧ (region c 1).zeroing = true ∧ (region c 1).landing = false) ∧
    (let c := registered live
     isOn c .fig = true ∧ (0x101 : Word).toNat / 256 = 1 ∧ (region c 1).state = .active ∧ (region c 1).gen = (0x101 : Word).toNat % 256 ∧
      partOfConn c 0 = some (region c 1).part ∧ indexHolds c 0x101 = false) ∧
    (region busy 65535).state ≠ .active ∧
    (let c := registered { live with state := .draining }
     (region c 1).state = .draining ∧ (region c 1).inflight = 0 ∧ (region c 1).landing = false ∧ (region c 1).replyConn < 16384) := by
  refine ⟨by decide +kernel, ?_, by decide +kernel, by decide +kernel, by decide +kernel, by decide +kernel⟩
  obtain ⟨x, hx⟩ := Option.isSome_iff_exists.1 (heapAlloc_isSome (c := setReg busy aTIER_PRESSURE 0) (p := 0) (n := 4096)
    (b := 2 ^ 34) (by decide +kernel) (by decide +kernel))
  exact ⟨x.1, x.2, hx⟩

/-- A peer port. -/
def wire : Link := { peer := true, addr := 0, port := 0, hostPart := none, ce := false }

/-- A packet of a TYPE for connection 0 with a tag of registration 1. -/
def pkt (t : BitVec 4) (l : List Byte) : Pkt := { typ := t, tag := 0x101, payload := l, length := 4096 }

theorem test_PacketsTakeEffect :
    Arrives (registered live) wire (pkt 1 [7]) 0 ∧ Arrives (registered live) wire (pkt 3 [7]) 0 ∧ Arrives (registered live) wire (pkt 4 [7]) 0 ∧ Arrives (registered live) wire (pkt 2 []) 0 ∧
    ((conn busy 0).spray = false ∧ (conn busy 0).segs = [] ∧ (0 : Word) ∉ (conn busy 0).rxPend ∧ (conn busy 0).part = []) ∧
    drainRefuses (registered live) 0 (pkt 1 [7]) = false ∧
    accessCheck (registered live) 0 0x101 4095 1 true = 0 ∧ accessCheck (registered live) 0 0x101 0 4096 false = 0 ∧
    accessCheck (registered live) 0 0x101 4096 1 true ≠ 0 ∧ ckptHeld (registered live) (2 ^ 34) 1 = false := by decide +kernel

/-- A message of one segment arrives, and one that carries a PARK is delivered. -/
theorem test_PacketsTakeEffect_messages :
    (let p : Pkt := { typ := 4, flags := 3, cls := 1, msgLen := 1, payload := [7] }
     Arrives busy wire p 0 ∧ p.cls.toNat ∈ [1, 3, 4, 5] ∧ pFirst p = true ∧ pLast p = true ∧ p.payload.length = msgTotal p) ∧
    (let q : Pkt := { typ := 4, flags := 3, cls := 1, payload := [4, 0, 0, 0] ++ leBytes 4 1 ++ leBytes 8 9 }
     let c := setConn busy 0 { conn busy 0 with ready := [[q]] }
     xptCarries c 0 = true ∧ (conn c 0).ready = [[q]] ∧ ((conn c 0).rxPend.any (fun x => seqBefore x q.seq)) = false ∧
      q.payload.length = 16 ∧ rdLE q.payload 2 2 = 0 ∧ rdLE q.payload 0 1 = 4) := by decide +kernel

/-- A sent packet that is not acknowledged. -/
def sent (n : Nat) : TxPkt := { pkt := { typ := 4, seq := 5 }, use := .plain, expiries := n, timer := 0 }

theorem test_AcksAndTimers :
    (let c := setConn busy 0 { conn busy 0 with txOpen := [sent 0] }
     Awake c ∧ isUp c .xpt = true ∧ (conn c 0).state = .open ∧ (conn c 0).mgmt = false ∧ (conn c 0).txOpen = [sent 0] ∧
      (conn c 0).txWait = [] ∧ (conn c 0).nakd = [] ∧ (conn c 0).slowed = false ∧ xptCarries c 0 = true ∧
      pktValid { typ := 5, cumSeq := 6 } = true ∧ seqBefore (sent 0).pkt.seq 6 = true ∧ seqBefore (sent 0).pkt.seq 5 = false ∧
      pktValid { typ := 6, nakSeq := 5 } = true ∧ 0 < retryLimit c ∧ retryLimit c ≤ (sent 15).expiries) ∧
    (let c := setConn busy 0 { conn busy 0 with owed := true }
     (conn c 0).owed = true ∧ (conn c 0).state = .open) := by decide +kernel

/-- The chip with connection 0 in a state. -/
def connIn (x : ConnState) : Chip := setConn up 0 { connReset with state := x }

theorem test_ConnectionStates :
    (Awake up ∧ isOn up .xpt = true ∧ pktValid { typ := 7 } = true ∧
      connectedBy up { peer := true, addr := 0, port := 0, hostPart := none, ce := false } { typ := 7 } = none ∧
      partValid up 0 = true ∧ lowestClosed up 0 = some 0 ∧ lowestClosed (connIn .open) 0 = some 1 ∧ pktValid { typ := 8 } = true ∧
      pktValid { typ := 9 } = true) ∧
    (bstate (withBlock up .xpt .draining) .xpt = .draining ∧ Awake (withBlock up .xpt .draining)) ∧
    ((conn (connIn .connecting) 0).state = .connecting ∧ (conn (connIn .open) 0).state = .open ∧
      (conn (connIn .failed) 0).state = .failed ∧ (conn (connIn .closing) 0).state = .closing ∧
      (conn (connIn .closing) 0).txOpen = [] ∧ isUp (connIn .closing) .xpt = true) ∧
    (Reaches up .sideband .xpt ∧ bankFor up 0 .conn = 0 ∧ partOfConn up 0 = some 0 ∧ pathBusy up 0 = false ∧
      fld (regB up (queueOf up 0) aEGR_Q_CFG) 29 27 = 0 ∧ bit (regB up (queueOf up 0) aEGR_Q_CFG) 30 = pathPeer up 0 ∧
      mgmtCount up < 16 ∧ Reaches (connIn .failed) .sideband .xpt) := by decide +kernel

/-! ### Search -/

/-- Index 0: 64 items of 32-byte sketches with no graph, its three registrations those of registration 1. -/
def indexed (valid : Bool) : Chip :=
  let c := setReg (oneDie (registered live)) aTIER_PRESSURE 0
  let c := [(aSRCH_IDX_SKETCH_TAG, (0x101 : Word)), (aSRCH_IDX_TOMB_TAG, 0x101), (aSRCH_IDX_TABLE_TAG, 0x101),
    (aSRCH_IDX_FORMAT, 0), (aSRCH_IDX_GRAPH, 0),
    (aSRCH_IDX_ITEMS, 64), (aSRCH_IDX_CTRL, if valid then 1 else 0)].foldl (fun c e => setRegB c 0 e.1 e.2) c
  c

/-- A scan for the best item. -/
def scanReq : SearchReq :=
  { mode := 1, flags := 0, k := 1, beam := 0, rerank := 0, widen := 0, maxVisit := 0, deadline := 0, bitmapTag := 0,
    bitmapOffset := 0, sketch := List.replicate 32 0, vector := [] }

/-- An object of index 0 to load. -/
def loadReq : LoadReq := { kind := 4, object := 63, tag := 0x101, offset := 0, length := 4096 }

/-- A query of index 0. -/
def query (p : QPhase) : Query := { newQuery 1 0 0 5 scanReq none with phase := p }

/-- The chip with one query. -/
def asked (q : Query) : Chip := { indexed true with srch := { (indexed true).srch with queries := [q], nextId := 2 } }

theorem test_SearchRequests :
    (Awake (indexed true) ∧ searchGate (indexed true) 0 0 = 0 ∧ searchGate (indexed true) 0 16 ≠ 0 ∧
      searchRefusal (indexed true) 0 scanReq = 0 ∧ sSharded scanReq = false ∧ (indexed true).srch.queries = [] ∧
      ixValid (indexed true) 0 = true ∧ (63 : Nat) < ixItems (indexed true) 0) ∧
    ((asked (query .queued)).srch.queries = [query .queued] ∧ (query .queued).index = 0) ∧
    (let d : DelWait := { id := 1, index := 0, conn := 0, tag := 0, newly := 1, queries := [] }
     let c := { indexed true with srch := { (indexed true).srch with deletes := [d] } }
     c.srch.deletes.find? (fun e => e.id = d.id) = some d) ∧
    (searchGate (indexed false) 0 0 = 0 ∧ loadRefusal (indexed false) 0 loadReq = 0 ∧ 0 ∉ (indexed false).checks.index ∧
      ixValid (indexed false) 0 = false ∧ ixTableOk (indexed false) 0 = true ∧ (indexed false).srch.loads = []) := by
  decide +kernel

/-- The write of an object that a load names is taken. -/
theorem test_SearchRequests_load : (flashWrite (indexed false) (ixPart (indexed false) 0)
    { len := loadReq.length.toNat, kind := loadReq.kind.toNat, owner := searchOwner (indexed false) 0 loadReq.object.toNat,
      seq := (indexed false).fig.applied, data := regionRead (indexed false) loadReq.tag loadReq.offset.toNat loadReq.length.toNat }
    (.search 0 loadReq.kind.toNat loadReq.object.toNat false)).1 = 0 :=
  write_goes (d := 0) (by decide +kernel) (by decide +kernel) (by decide +kernel) (by decide +kernel) (by decide +kernel)

theorem test_QueriesProgress :
    (Awake (asked (query .queued)) ∧ OneQuery (asked (query .queued)) (query .queued) ∧
      filterStands (asked (query .queued)) (query .queued) = true ∧ isUp (asked (query .queued)) .srch = true ∧
      (query .queued).req.mode = 1 ∧ (query .queued).req.rerank = 0 ∧ (query .queued).req.widen = 0) ∧
    (let q := query .scanning
     let c := { asked q with srch := { (asked q).srch with pass := [1] } }
     OneQuery c q ∧ c.srch.pass = [q.id] ∧ (scanBest c q).length ≤ 64) ∧
    (unexpanded { query .walking with beam := [(0, 3)], expanded := [3] } = []) ∧
    (let q := { query .walking with beam := [(0, 3)] }
     unexpanded q = [(0, 3)] ∧ enDamaged (ixEntry (asked q) 0 5 (3 / 2 ^ ixListLog (asked q) 0)) = false) ∧
    (enDamaged (ixEntry (asked { query .reranking with cands := [(0, 3)] }) 0 4 3) = false) ∧
    (let q := { query .merging with shards := [0, 63], answered := [63] }
     (0 : Nat) ∈ q.shards ∧ 0 ∉ q.answered ∧ (∀ b ∈ q.shards, b = 0 ∨ b ∈ q.answered) ∧
      ∃ b ∈ [0, 63], b ≠ 0 ∧ b ∉ ({ q with answered := [] } : Query).answered) ∧
    (let c := setRegB (setRegB (indexed true) 0 aSRCH_IDX_CTRL 3) 0 aSRCH_IDX_GRAPH 1
     isOn c .srch = true ∧ ixValid c 0 = true ∧ ixRepair c 0 = true ∧ c.flash.writes = [] ∧ 63 < ixG c 0 ∧
      tget 0 c.srch.repairNext 0 = 0 ∧
      tget 0 { c with srch := { c.srch with repairNext := [(0, 63)] } }.srch.repairNext 0 = 63 ∧ 63 + 1 = ixG c 0) := by
  decide +kernel

/-- A walk that goes on: with its list read, item 3 leads to item 4. -/
theorem test_QueriesProgress_walk :
    let q := { query .walking with beam := [(0, 3)], width := 16 }
    let a := setRegB (asked q) 0 aSRCH_IDX_GRAPH 1
    let c := { a with
      mem := memWrite a.mem (2 ^ 34 + 256 + 8 * 3) (leBytes 8 0)
      flash := { a.flash with objects := [(0, { len := 64, kind := 5, owner := 0, seq := 0, data := leBytes 4 4 })] } }
    leaveLoop c (expandItem (q, c) 3).1 = false := by decide +kernel

/-! ### Ports -/

/-- The chip as node 5 with port 0 as given, port 1 UP, and a route to node 7 by port 1. -/
def port0 (x : PeerPort) : Chip :=
  let c := setPport (setPport (setReg up aPEER_NODE 0x80000005) 1 { portReset with state := .up, active := 1 }) 0 x
  { c with peer := { c.peer with bank0 := [(7, 0x80000011)] } }

/-- A port in a state with two lanes. -/
def lanes2 (st : PortState) : PeerPort := { portReset with state := st, active := 3 }

/-- A packet and the frame that carries it to a node. -/
def ackPkt : Pkt := { typ := 5, cumSeq := 1 }
def frameTo (n hops : Nat) : List Byte := frameBytes 3 0 false false hops n 9 (encPkt ackPkt)

theorem test_PeerPorts :
    (Linked up ∧ isUp up .peer = true ∧ (pport (port0 (lanes2 .training)) 0).state = .training ∧
      (pport (port0 (lanes2 .down)) 0).state = .down ∧ up.peer.bothLasersOut = false) ∧
    (let c := port0 (lanes2 .up)
     portUp c 0 = true ∧ (pport c 0).active.getLsbD 1 = true ∧ (pport c 0).active &&& ~~~(2 : BitVec 16) ≠ 0 ∧
      bit (regB (setRegB c 0 aPEER_PORT_CFG 5) 0 aPEER_PORT_CFG) 2 = true ∧ c.peer.sweep = none ∧ peerForwards c = true ∧
      nextSweepPort c 0 = some 0 ∧ calAuto (setReg c aPEER_CAL_CTRL 0x100) = true ∧ calAuto (setReg c aPEER_CAL_CTRL 0) = false) ∧
    ((pport (port0 (lanes2 .reduced)) 0).state = .reduced ∧ (pport (port0 { lanes2 .up with active := 1 }) 0).active &&& ~~~(1 : BitVec 16) = 0) ∧
    (let c := { port0 (lanes2 .up) with peer := { (port0 (lanes2 .up)).peer with sweep := some (0, 15) } }
     c.peer.sweep = some (0, 15) ∧ portUp c 0 = true ∧ nextSweepPort (setPport c 1 portReset) 1 = none) ∧
    (let f : QFrame := { vc := 3, cls := 0, transit := false, bytes := [1] }
     portUp (port0 { lanes2 .up with queue := [f] }) 0 = true ∧ (pport (port0 { lanes2 .up with queue := [f] }) 0).queue = [f] ∧
      f.vc < 4 ∧ f.bytes ≠ []) := by decide +kernel

theorem test_PeerPorts_frames :
    (frameOk (frameTo 5 1) = true ∧ frameForUs (port0 (lanes2 .up)) (frameTo 5 1) = true ∧
      parsePkt ((frameTo 5 1).drop 8) = some ackPkt ∧ asleep up = false) ∧
    (frameOk (frameTo 7 1) = true ∧ frameForUs (port0 (lanes2 .up)) (frameTo 7 1) = false ∧ frHops (frameTo 7 1) ≠ 0 ∧
      frHops (frameTo 7 0) = 0 ∧ frSpray (frameTo 7 1) = false ∧
      routeOf (port0 (lanes2 .up)) (some 0) (frDst (frameTo 7 1)) (frCls (frameTo 7 1)) false 0 = .out 1 0) ∧
    frameOk [] = false ∧ frameOk ((frameTo 7 1).drop 1) = false := by decide +kernel

theorem test_PeerPorts_accesses :
    (Reaches (port0 portReset) .sideband .peer ∧ bankFor (port0 portReset) 0 .port = 0 ∧ isOn (port0 portReset) .peer = true ∧
      portEnabled (setRegB (port0 portReset) 0 aPEER_PORT_CFG 0) 0 = false ∧ portEnabled (setRegB (port0 portReset) 0 aPEER_PORT_CFG 1) 0 = true) ∧
    (armed (held (port0 portReset) .peer) .sideband .peer = true ∧ Reaches (held (port0 portReset) .peer) .sideband .peer) := by
  decide +kernel

/-- A host port that is UP; partition 0 has a MAC and an IPv4 address. -/
def hosted : Chip :=
  let c := setRegB (setRegB up 0 aHOST_PART_L2 0x80000000) 0 aHOST_PART_IPV4 0x0A000001
  { c with host := { c.host with state := .up } }

/-- An IPv4 frame with a UDP datagram to partition 0. -/
def ipFrame (port : Nat) (l : List Byte) : List Byte :=
  beBytes 6 (partMac hosted 0) ++ beBytes 6 9 ++ beBytes 2 0x0800 ++
    ([0x45, 0] ++ beBytes 2 (28 + l.length) ++ beBytes 4 0 ++ [64, 17] ++ beBytes 2 0 ++ beBytes 4 0x0A000002 ++ beBytes 4 0x0A000001) ++
    (beBytes 2 1000 ++ beBytes 2 port ++ beBytes 2 (8 + l.length) ++ beBytes 2 0) ++ l

theorem test_HostPortAndEgress :
    (Linked hosted ∧ hostReceives hosted = true ∧ hostReceives up = false ∧ (hdr hosted .host).state = .on) ∧
    (∃ k, hostClass hosted (ipFrame (fld (reg up aXPT_UDP_PORT) 15 0) (encPkt ackPkt)) = .vst 0 k (encPkt ackPkt)) ∧
    parsePkt (encPkt ackPkt) = some ackPkt ∧ 64 ≤ (ipFrame 1 (encPkt ackPkt)).length + 4 ∧
    rdBE (ipFrame 1 []) 12 2 ≠ 0x8808 ∧ rdBE (List.replicate 12 0 ++ [0x88, 0x08]) 12 2 = 0x8808 ∧
    hostClass hosted (List.replicate 60 0) = .filtered ∧
    (fld (regB (setRegB hosted 0 aHOST_POLICE 0) 0 aHOST_POLICE) 15 0 = 0 ∧
      fld (regB (setRegB hosted 0 aHOST_POLICE 1) 0 aHOST_POLICE) 15 0 ≠ 0 ∧ tget 0 hosted.host.buckets 0 = 0) ∧
    (asleep { hosted with chip := { hosted.chip with fast := .nap } } = true ∧ hostHeldBytes hosted = 0) ∧
    (isUp hosted .egr = true ∧ Awake hosted ∧ ctlServed hosted 0 false = true ∧ connServed hosted 0 false = true) := by
  exact ⟨by decide +kernel, ⟨{ peer := false, addr := 0xFFFF0A000002, port := 1000, hostPart := some 0, ce := false },
    by decide +kernel⟩, by decide +kernel⟩

theorem test_HostPortAndEgress_outputs :
    (let c := { hosted with egr := { hosted.egr with ctl0 := [(0, none, ackPkt)] } }
     c.egr.ctl0 = (0, none, ackPkt) :: [] ∧ ctlServed c 0 false = true ∧ c.host.state = .up) ∧
    (let e : EQueue := { equeueReset with pkts := [(0, { typ := 4, payload := [1] })] }
     let c := { hosted with egr := { hosted.egr with queues := [(3, e)] } }
     c.egr.ctl0 = [] ∧ c.egr.queues = [(3, e)] ∧ e.shaped = false ∧ bit (regB c 3 aEGR_Q_CFG) 30 = false ∧
      connServed c 0 false = true) ∧
    (let c := setRegB (port0 (lanes2 .up)) 0 aXPT_CONN_DEST 0x80070000
     nodeOf c 0 = 7 ∧ peerForwards c = true ∧ ctlServed c 0 true = true ∧ (pport c 1).queue = [] ∧ pSpray ackPkt = false ∧
      routeOf c none (nodeOf c 0) 0 false 0 = .out 1 0) ∧
    (let p : Pkt := { typ := 4, payload := [1] }
     let c := setConn busy 0 { conn busy 0 with txWait := [(p, .plain)], waiting := true }
     hasSpace c (queueOf c 0) p = true ∧ mayNumber c 0 = true ∧ (conn c 0).mgmt = false ∧ pRetx p = false) := by
  decide +kernel

/-! ### Cut-in -/

/-- A cut record of connection 0 and session 0. -/
def rec0 (src : Bool) (st : CutState) : CutRec :=
  { conn := 0, cutId := 9, source := src, idx := 0, srcHandle := if src then 1 else 0x80000001, dstHandle := if src then 0x80000001 else 1,
    epoch := 4, form := 0, imageLen := 0, imageCrc := 0, region := 1, regionTag := 0x101, reckoned := 0, state := st,
    released := false, confirmed := false, reclaimed := false, notify := 0, tag := 0, replyConn := 0, replyTag := 0,
    base := 2 ^ 34, ended := false }

/-- The source of a cut-in: session 0 with its OFFER in progress on connection 1. -/
def giving (st : SessState) (r : CutState) : Chip :=
  let c := withSess st 3
  let c := { c with sess := { c.sess with
    entries := [(0, { sess1 st 3 with epoch := 5 })], ops := [(0, [{ newOp 11 1 1 1 (.offer 0 0) 0 with phase := .handing }])] } }
  { c with cuts := [rec0 true r] }

theorem test_CutSource :
    (∀ x ∈ [giving .handoffOut .offered, giving .handoffOut .sending, giving .held .heldSrc, giving .ready .offered],
      x.fig.committed = [] ∧ sessionAt x 1 = some 0 ∧ (opsOf x 0).map (·.code) = [11]) ∧
    (Awake (giving .held .heldSrc) ∧ cutUp (giving .held .heldSrc) = true ∧ isUp (giving .held .heldSrc) .fig = true ∧
      (giving .held .heldSrc).tier.revivals = [] ∧ ∀ e ∈ (giving .held .heldSrc).sess.ops, e.2.map (·.phase) = [.handing]) ∧
    ((entry (giving .handoffOut .offered) 0).state = .handoffOut ∧ (entry (giving .held .heldSrc) 0).state = .held ∧
      (entry (giving .held .heldSrc) 0).epoch = 5 ∧ (rec0 true .offered).ended = false ∧
      useClosed (giving .handoffOut .sending) 0 (.cutImage 9) = true ∧ useNak (giving .handoffOut .sending) 0 (.cutImage 9) = none) ∧
    (∃ m : CutMsg, m.crcOk = true ∧ m.cutId = 9 ∧ m.epoch.toNat = 5 + 1) :=
  ⟨by decide +kernel, by decide +kernel, by decide +kernel, ⟨{ cutZero with crcOk := true, cutId := 9, epoch := 6 }, by decide⟩⟩

/-- The destination of a cut-in: session 0 in HANDOFF_IN, or READY and not yet settled. -/
def taking (st : SessState) (unsettled : Bool) (r : CutRec) : Chip :=
  let c := registered { live with state := .free }
  { c with
    sess := { c.sess with entries := [(0, { sess1 st 3 with epoch := 5 })], bodies := [(0, { bodyReset with unsettled := unsettled })],
                          cached := [0] }
    cuts := [r] }

theorem test_CutDestination :
    (CutReady (taking .handoffIn false (rec0 false .handoffIn)) ∧ partOfConn up 0 = some 0) ∧
    (let c := taking .handoffIn false (rec0 false .handoffIn)
     sessionAt c 1 = some 0 ∧ heldHere c 0 0x80000001 = none ∧ (entry c 0).state = .handoffIn ∧ arriving c 0 = true ∧
      landingOpen c { rec0 false .handoffIn with released := true } = false ∧
      imageStatus c 0 { rec0 false .handoffIn with released := true } (landed c (rec0 false .handoffIn)) ≠ 0) ∧
    (let c := taking .ready true (rec0 false .unsettled)
     CutReady c ∧ (entry c 0).state = .ready ∧ (body c 0).unsettled = true ∧ arriving c 0 = true ∧ (entry c 0).epoch < 6 ∧
      Reaches c .sideband .cut ∧ armed (held c .cut) .sideband .cut = true ∧ armed c .sideband .cut = false) ∧
    (let c := taking .ready false (rec0 false .settled)
     CutReady c ∧ arriving c 0 = false ∧ (body c 0).unsettled = false ∧ (entry c 0).epoch + 1 = 6) ∧
    reg (setReg up aCUT_RESOLVE_HANDLE 1) aCUT_RESOLVE_HANDLE = 1 := by decide +kernel

/-- An image of FORM 0 of three tokens, its header in four runs of 32 and 28 bytes before the CRC-32C. -/
def headA : List Byte :=
  [0x49, 0x43, 1, 0, 0, 0, 0, 0] ++ leBytes 4 3 ++ leBytes 4 4096 ++ leBytes 4 4 ++ leBytes 2 0xFFFF ++ List.replicate 10 0
def headB : List Byte := List.replicate 24 0 ++ leBytes 8 832
def headC : List Byte := List.replicate 32 0
def headD : List Byte := List.replicate 28 0
def image0 : List Byte := headA ++ headB ++ headC ++ headD ++ leBytes 4 3309642152 ++ List.replicate 704 0
def landedRec : CutRec := { rec0 false .handoffIn with imageLen := 832, released := true }

/-- The chip whose GDDR7 holds the image where its record says. -/
def landedChip : Chip := { taking .handoffIn false landedRec with mem := memWrite [] (2 ^ 34) image0 }

/-- What was written reads back. -/
theorem read_back (a : Nat) (l : List Byte) : memRead (memWrite [] a l) a l.length = l := by
  refine List.ext_getElem (by simp [memRead]) fun i h1 h2 => ?_
  simp only [memRead, List.getElem_map, List.getElem_range, memGet_memWrite]
  rw [if_pos (by omega), Nat.add_sub_cancel_left, List.getD_eq_getElem _ _ h2]

theorem image0_landed : landed landedChip landedRec = image0 := by
  have e := read_back (2 ^ 34) image0
  have h1 : landedRec.base = 2 ^ 34 := by decide +kernel
  have h2 : landedRec.imageLen = image0.length := by decide +kernel
  simp only [landed, landedChip, h1, h2]
  exact e

/-- An image that a partner wrote whole passes the checks of its conversion. -/
theorem test_CutDestination_image : imageStatus landedChip 0 landedRec (landed landedChip landedRec) = 0 ∧
    imageBlocks landedChip 0 (landed landedChip landedRec) = [] ∧ landingOpen landedChip landedRec = false ∧
    landedRec.form = 0 := by
  rw [image0_landed]
  have h1 : crc32c (headA ++ headB ++ headC ++ headD) = 3309642152 := by
    rw [crc32c_runs (x := 4000097868) (y := 3786054884) (z := 3636117602) (w := 3933953372) (by decide +kernel) (by decide +kernel)
      (by decide +kernel) (by decide +kernel)]
    decide +kernel
  have h2 : (image0.take 128).take 0x7C = headA ++ headB ++ headC ++ headD := by decide +kernel
  have h3 : image0.drop 128 = List.replicate 704 0 := by decide +kernel
  refine ⟨?_, by decide +kernel, by decide +kernel, rfl⟩
  simp only [imageStatus, h2, h3, h1, crc64_zeros]
  decide +kernel

/-- The heap grants what a conversion and a landing region need. -/
theorem test_CutDestination_heap :
    (∃ x, heapAllocs (setReg layered aTIER_HEAP 0x00200010) 0
      [tailSetBytes (setReg layered aTIER_HEAP 0x00200010) 0, smallBytes, exclBytes] = some x) ∧
    ∃ x, heapAlloc busy 0 (landingLen 1) = some x :=
  ⟨test_OpenCreatesAReadySession_heap, Option.isSome_iff_exists.1
    (heapAlloc_isSome (b := 2 ^ 34) (by decide +kernel) (by decide +kernel))⟩

/-- An OFFER that names the key of a valid slot is not refused; one that names none is. -/
theorem test_CutDestination_offer :
    let c := setReg (setRegB (setRegB (setRegB busy 0 aATTN_MODEL_CTRL 1) 0 aCUT_MODEL_KEY_LO 7) 0 aCUT_MODEL_KEY_HI 0) aTIER_PRESSURE 0
    offerRefusal c 0 { cutZero with modelKey := 7, imageLen := 1 } = 0 ∧
      offerRefusal c 0 { cutZero with modelKey := 8, imageLen := 1 } ≠ 0 ∧ slotOfKey c 0 7 = some 0 ∧
      freeIndex c 0 = some 0 ∧ (freeRegion c).isSome = true ∧ (entry c 0).state = .free ∧ c.cuts = [] := by decide +kernel

/-! ### Checked bytes -/

theorem revBits_lt (n v : Nat) : revBits n v < 2 ^ n := by
  induction n generalizing v with
  | zero => simp [revBits]
  | succ n ih =>
    have h := ih (v / 2)
    have h2 : v % 2 ≤ 1 := by omega
    have h3 : v % 2 * 2 ^ n ≤ 1 * 2 ^ n := Nat.mul_le_mul_right _ h2
    simp only [revBits, Nat.pow_succ]
    omega

theorem crc32c_lt (l : List Byte) : crc32c l < 2 ^ 32 := by
  simp only [crc32c, crcGen, if_true]
  exact Nat.xor_lt_two_pow (revBits_lt 32 _) (by decide)

theorem leNat_leBytes (n v : Nat) : leNat (leBytes n v) = v % 256 ^ n := by
  induction n generalizing v with
  | zero => simp [leBytes, leNat, Nat.mod_one]
  | succ n ih =>
    show (BitVec.ofNat 8 v).toNat + 256 * leNat (leBytes n (v / 256)) = v % (256 ^ n * 256)
    rw [ih, BitVec.toNat_ofNat, Nat.mul_comm (256 ^ n) 256, Nat.mod_mul]

/-- Bytes with their CRC-32C behind them. -/
def sealed (l : List Byte) : List Byte := l ++ leBytes 4 (crc32c l)

theorem rdLE_sealed {l : List Byte} {n : Nat} (h : l.length = n) : rdLE (sealed l) n 4 = crc32c ((sealed l).take n) := by
  subst h
  have e : (leBytes 4 (crc32c l)).take 4 = leBytes 4 (crc32c l) := by simp [leBytes]
  have b := crc32c_lt l
  simp only [sealed, rdLE, List.drop_left, List.take_left, e, leNat_leBytes]
  omega

/-! ### Checkpoints -/

/-- The chip with CKPT ON, and a leader or not. -/
def ck (leader : Bool) : Chip :=
  withBlock (setReg (setReg (setReg busy aCKPT_CFG (if leader then 4 else 0)) aCKPT_TIMER 1) aCKPT_STEPS 1) .ckpt .on

/-- CKPT's own state changed. -/
def ckWith (leader : Bool) (f : CkptUnit → CkptUnit) : Chip := { ck leader with ckpt := f (ck leader).ckpt }

/-- A mark of round 3 and epoch 8 of member 0. -/
def mark (t : Byte) : Mark :=
  { typ := t, flags := 0, origin := 0, hops := 0, round := 3, epoch := 8, cand0 := 8, cand1 := 0xFFFFFFFF, crcOk := true }

theorem test_CkptRounds :
    (Awake (ck true) ∧ mayRound (ck true) = true ∧ reg (ck true) aCKPT_TIMER ≠ 0 ∧ reg (ck true) aCKPT_STEPS ≠ 0 ∧
      (reg (ck true) aCKPT_STEPS).toNat ≤ (ckWith true (fun k => { k with stepsSince := 1 })).ckpt.stepsSince ∧
      Reaches (ck true) .sideband .ckpt ∧ mayRound (ck false) = false ∧ isOn (ck true) .ckpt = true) ∧
    (Handles (ck false) (mark 1) 1 ∧ Handles (ck false) (mark 2) 2 ∧ ckLeader (ck false) = false ∧ (ck false).ckpt.phase = .idle ∧
      (ck false).ckpt.topRound ≤ 3) ∧
    (let c := ckWith true (fun k => { k with round := 3, topRound := 3, outstanding := some 1 })
     returned c (mark 1) 1 = true ∧ Handles c (mark 1) 1 ∧ c.ckpt.phase = .idle ∧ c.ckpt.outstanding.isSome = true ∧
      (2 : Word).toNat < c.ckpt.topRound) ∧
    returned (ckWith true (fun k => { k with round := 3, topRound := 3, outstanding := some 2 })) (mark 2) 2 = true ∧
    (ckWith false (fun k => { k with phase := .stream })).ckpt.phase ≠ .idle := by decide +kernel

/-- A shard of no session fits its generation, and one of a closed connection does not. -/
theorem test_CkptShard :
    (let c := ckWith false (fun k => { k with phase := .snapshot, snapEpoch := some 8 })
     Awake c ∧ c.fig.committed = [] ∧ c.ckpt.snapEpoch = some 8 ∧ c.ckpt.phase = .snapshot ∧ noSteps c ∧
      (conn c (ckConn c)).state = .open ∧ (conn { c with xpt := Chip.reset.xpt } (ckConn c)).state ≠ .open) ∧
    128 + (shardBody (ck false) false).length ≤ ckGenBytes (ck false) ∧
    (let c := ckWith false (fun k => { k with phase := .stream, pending := [2] })
     (8192 : Nat) / 4096 ∈ c.ckpt.pending ∧ (c.ckpt.bounced.length + 1) * 4096 ≤ ckBounce c ∧ c.ckpt.bodyAcked = false ∧
      useClosed c (ckConn c) .shardBody = true ∧ useNak c (ckConn c) .shardBody = none ∧ flushedNow c = true) ∧
    (∃ x, heapAlloc (bump (ckWith false (fun k => { k with phase := .stream, pending := [2] })) aCKPT_STALL_CNT 1) 0 4096 = some x) ∧
    (let c := ckWith false (fun k => { k with phase := .stream, bodyAcked := true })
     c.ckpt.bodyAcked = true ∧ useClosed c (ckConn c) .shardHeader = true ∧ useNak c (ckConn c) .shardHeader = none ∧
      FigIdle c ∧ isUp c .fig = true ∧ c.flt.chipPending = false) ∧
    (schedPart (stepping { engines := [], waitPeer := false, paced := false }) 0).step.isSome = true := by
  refine ⟨⟨by decide +kernel, by decide +kernel, by decide +kernel, by decide +kernel, fun _ => rfl, by decide +kernel,
    by decide +kernel⟩, ?_, by decide +kernel, ?_, by decide +kernel, by decide +kernel⟩
  · have h : shardSessions (ck false) = [] := by decide +kernel
    have g : 128 + (4194304 + 65536) ≤ ckGenBytes (ck false) := by decide +kernel
    have e : (shardBody (ck false) false).length = 4194304 + 65536 := by simp [shardBody, h]
    rw [e]
    exact g
  · exact Option.isSome_iff_exists.1 (heapAlloc_isSome (b := 2 ^ 34) (by decide +kernel) (by decide +kernel))

/-- The 124 B before the CRC of the header of an empty shard of epoch 8. -/
def shardLo : List Byte :=
  leBytes 2 0x4353 ++ [1, 1] ++ leBytes 4 8 ++ List.replicate 16 0 ++ leBytes 8 128 ++ leBytes 8 128 ++ List.replicate 84 0

/-- A chip whose blocks allow a restore, with this member in the set. -/
def restoring (leader : Bool) (f : CkptUnit → CkptUnit) : Chip :=
  let c := [Page.sess, .fig, .tier, .sched, .cut].foldl (fun c p => withBlock c p .off) (ckWith leader f)
  setReg c aCKPT_RESTORE_SET_LO 1

theorem test_CkptRestore_shard : shardOk (sealed shardLo) = true ∧ shardEpochOf (sealed shardLo) = 8 ∧
    shardRecords (sealed shardLo) = [] ∧ shardOk [] = false := by
  refine ⟨?_, by decide +kernel, by decide +kernel, by decide +kernel⟩
  have h := rdLE_sealed (l := shardLo) (n := 0x7C) (by decide +kernel)
  simp only [shardOk, h, decide_true, Bool.and_true]
  decide +kernel

theorem test_CkptRestore :
    (let c := restoring true id
     Awake c ∧ Reaches c .sideband .ckpt ∧ armed c .sideband .ckpt = false ∧ armed (held c .ckpt) .sideband .ckpt = true ∧
      restoreRefusal c = 0 ∧ restoreRefusal (ck true) ≠ 0 ∧ ckInSet c = true ∧ ckLeader c = true ∧
      ckInSet (setReg c aCKPT_RESTORE_SET_LO 0) = false ∧ restoreRefusal (setReg c aCKPT_RESTORE_SET_LO 0) = 0) ∧
    (let c := restoring false (fun k => { k with phase := .restore, offered := [(0, leBytes 4 0 ++ leBytes 4 8)], chosen := some 8 })
     Handles c (mark 3) 3 ∧ Handles c (mark 4) 4 ∧ ckLeader c = false ∧ ckInSet c = true ∧ c.ckpt.phase = .restore ∧
      (mark 4).epoch.toNat ∈ ownEpochs c ∧ c.ckpt.chosen = some 8 ∧ (9 : Word).toNat ∉ ownEpochs c) ∧
    (let c := restoring true (fun k => { k with phase := .restore, round := 3, topRound := 3, outstanding := some 3,
                                                offered := [(0, leBytes 4 0 ++ leBytes 4 8)] })
     returned c (mark 3) 3 = true ∧ candsOf (mark 3) ≠ [] ∧ (candsOf (mark 3)).foldl max 0 ∈ ownEpochs c) ∧
    returned (restoring true (fun k => { k with round := 3, topRound := 3, outstanding := some 4 })) (mark 4) 4 = true ∧
    (let c := held (setReg (withBlock (withSess .held 3) .ckpt .on) aCKPT_CUT_HANDLE 1) .ckpt
     Reaches c .sideband .ckpt ∧ FigIdle c ∧ isOn c .fig = true ∧ c.flt.chipPending = false ∧ armed c .sideband .ckpt = true ∧
      sessionAt c (reg c aCKPT_CUT_HANDLE) = some 0 ∧ (entry c 0).state = .held ∧ srcCut c 0 = none) := by decide +kernel

/-! ### Power -/

theorem test_PowerAndHeat :
    (minuetOn up = true ∧ up.pwr.halved = false ∧ up.pwr.throttled = false ∧ up.pwr.tripped = false ∧ Awake up ∧
      up.pwr.exploring = []) ∧
    (learnOn (setReg up aPWR_CTRL 0) = false ∧ learnOn (setReg up aPWR_CTRL 1) = true) ∧
    (∃ y rest, engineRows up 0 .decode = y :: rest) ∧
    (let c := setReg (setReg (setReg up aPWR_CTRL 1) aPWR_EXPLORE 1) aPWR_ROW_POINT0 0x77777777
     learnOn c = true ∧ reg c aPWR_EXPLORE ≠ 0 ∧ rowPoint c 0 = 7 ∧ tfind c.pwr.exploring 0 = none) ∧
    (let c := setCore (setReg up aPWR_CTRL 2) 0 { running with wait := some (.bar 0) }
     bit (reg c aPWR_CTRL) 1 = true ∧ rowWaits c 0 = true ∧ (0 : Nat) ∉ c.pwr.markDone ∧ rowWaits up 0 = false) ∧
    (hottest [{ site := 0, a := 800, b := 790 }] = some (siteReading { site := 0, a := 800, b := 790 }, 0) ∧
      siteDiffers { site := 0, a := 800, b := 776 } = false ∧ siteDiffers { site := 0, a := 800, b := 775 } = true) ∧
    (let c := { up with pwr := { up.pwr with tripped := true } }
     Reaches (held c .pwr) .sideband .pwr ∧ armed (held c .pwr) .sideband .pwr = true ∧ tjNow c < 8 * between 60 100 0) :=
  ⟨by decide +kernel, by decide +kernel, List.exists_cons_of_ne_nil (by decide +kernel), by decide +kernel, by decide +kernel,
    by decide +kernel, by decide +kernel⟩

/-! ### Partitions, debug, telemetry -/

/-- The chip with partition 1 in a state, selected by the operator. -/
def tenant (x : PartState) : Chip := setReg (held (setSecPart up 1 { secPart up 1 with state := x }) .sec) aSEC_PART_SEL 1

theorem test_Partitions :
    (Reaches (tenant .invalid) .sideband .sec ∧ armed up .sideband .sec = false ∧ armed (tenant .valid) .sideband .sec = true ∧
      bankFor (tenant .valid) 0 .secPart = 1 ∧ bankFor up 0 .secPart = 0) ∧
    ((secPart (tenant .invalid) 1).state = .invalid ∧ (secPart (tenant .valid) 1).state = .valid ∧
      partCheck (tenant .invalid) 1 ≠ 0 ∧ tenantUsed (tenant .valid) 1 = false) ∧
    (∀ x ∈ [PartState.purging, .scrubbing], (secPart (tenant x) 1).state = x ∧ Awake (tenant x) ∧ FigIdle (tenant x)) ∧
    (requesterUp up .sideband = true ∧ fastServed up = true ∧ reqPart up .sideband = bankFor up 0 .secPart ∧
      reqPart (tenant .valid) .sideband ≠ bankFor (tenant .valid) 0 .secPart) := by decide +kernel

/-- A tenant without anything is vacant. -/
theorem test_Partitions_vacant : Vacant (tenant .valid) 1 := by decide +kernel

/-- Partition 1 that takes units which partition 0 gave up passes its check. -/
theorem test_Partitions_check :
    let c := setRegB (setRegB (setRegB (setRegB (tenant .invalid) 0 aSEC_PART_RES 0x7F7F7F) 0 aSEC_PART_SLOTS 0x7FFF) 0 aSEC_PART_CONN 0x20000000)
      0 aSEC_PART_DIR 0x02000000
    let d := setRegB (setRegB (setRegB (setRegB c 1 aSEC_PART_RES 0x808080) 1 aSEC_PART_SLOTS 0x8000) 1 aSEC_PART_CONN 0x20002000)
      1 aSEC_PART_DIR 0x02000200
    (secPart d 1).state = .invalid ∧ partCheck (setReg d aGDR_INTERLEAVE 1) 1 = 0 := by decide +kernel

theorem test_DebugAndTelemetry :
    (let c := setSecPart up 0 { secPart up 0 with debug := true, profile := true }
     Reaches c .sideband .sec ∧ (parts8.filter (fun p => (secPart c p).state = .valid)).all (fun p => (secPart c p).debug) = true ∧
      (secPart c 0).state = .valid ∧ (secPart c 0).debug = true ∧ Reaches c .sideband .tel ∧ isOn c .tel = true) ∧
    ((parts8.filter (fun p => (secPart up p).state = .valid)).all (fun p => (secPart up p).debug) = false ∧
      dbgAllowed up = false ∧ isOn (withBlock up .tel .off) .tel = false) ∧
    (let c := setReg { up with sec := { up.sec with chipDebug := true } } aSEC_DBG_ADDR_HI 0x80000000
     dbgAllowed c = true ∧ (dbgAddr c).1 = true ∧ (dbgAddr { up with sec := { up.sec with chipDebug := true } }).1 = false) ∧
    (armed (held up .sec) .sideband .sec = true ∧ fld (reg up aSEC_ROLLBACK) 5 0 < 63 ∧
      Nat.lor (fld (reg up aSEC_KEY_REVOKE) 3 0) 1 ≠ 15) ∧
    (partOfConn busy 0 = some 0 ∧ partValid busy 0 = true ∧ busy.sec.attest.length < 64 ∧ (hdr busy .sec).selftest = false ∧
      partOfConn (setRegB busy 0 aSEC_PART_CONN 0x00400040) 0 = none) := by decide +kernel

/-! ### Faults, supplies, sleep, overlays, update -/

/-- A report of a class. -/
def report (k : Byte) : FaultRep := { cls := k, page := .sess, info := 5, addr := 6, higher := false, together := true }

theorem test_FaultReactions :
    (minuetOn up = true ∧ sameFault up (report 0x0B) = none ∧ (0 < (0x1E : Nat) ∧ levelOf (report 0x0B) = 1) ∧
      up.flt.modulePending = false ∧ up.flt.faulted = false) ∧
    (let x : LastReport := { cls := 3, page := 5, info := 5, addr := 6, level := 0 }
     let c := { up with flt := { up.flt with reports := [x] } }
     sameFault c (report 3) = some x ∧ levelOf (report 3) ≤ x.level ∧ x.level < levelOf (report 0x0B)) ∧
    (let c := { up with flt := { up.flt with modulePending := true } }
     c.flt.modulePending = true ∧ minuetOn c = true) ∧
    (let c := held { up with flt := { up.flt with faulted := true } } .flt
     Reaches c .sideband .flt ∧ armed c .sideband .flt = true ∧ c.flt.faulted = true) := by decide +kernel

/-- A record of 256 bytes that passes its CRC. -/
theorem test_BlackBox_record : bbValid (sealed (List.replicate 252 0)) = true ∧ bbValid [] = false := by
  refine ⟨?_, by decide +kernel⟩
  have h := rdLE_sealed (l := List.replicate 252 0) (n := 252) (by decide +kernel)
  have h2 : (sealed (List.replicate 252 0)).length = 256 := by decide +kernel
  simp only [bbValid, h, h2, decide_true, Bool.and_self]

theorem test_BlackBox :
    (minuetOn up = true ∧ up.flt.headKnown = false ∧ up.flt.queue = [] ∧ up.flt.slots = [] ∧ up.flt.erasing = none ∧
      up.flt.loading = false ∧ Reaches up .sideband .flt) ∧
    (let c := { up with flt := { up.flt with erasing := some 1, headKnown := true, queue := [List.replicate 256 0] } }
     c.flt.erasing = some 1 ∧ c.flt.headKnown = true ∧ (List.replicate 256 (0 : Byte)).length = 256) := by decide +kernel

theorem test_SuppliesAndPowerUp :
    (minuetOn up = true ∧ minuetOn { up with chip := { up.chip with auxMv := 3134 } } = false ∧
      minuetOn { up with chip := { up.chip with auxMv := 3135 } } = true) ∧
    (let c := { up with chip := { up.chip with mainMv := 37999, lossSeen := false } }
     c.chip.lossSeen = false ∧ c.chip.mainMv < 38000) ∧
    (let c := { up with chip := { up.chip with mainMv := 62001, inputOpen := false } }
     c.chip.inputOpen = false ∧ 62000 < c.chip.mainMv ∧ minuetOn c = true) ∧
    (mayStart Chip.reset = true ∧ mayStart up = false) ∧
    (bundleCheck Chip.reset (bankSource Chip.reset false) = 1 ∧ bundleCheck Chip.reset (bankSource Chip.reset true) = 1) ∧
    (let c := { up with chip := { up.chip with bootDone := false, bootState := .configuring } }
     Awake c ∧ c.chip.bootDone = false ∧ c.chip.bootState = .configuring) := by decide +kernel

/-- The chip asleep or ready to sleep. -/
def sleepy (f : FastState) : Chip :=
  let c := setReg up aCLK_SLEEP_CFG 2
  { c with chip := { c.chip with fast := f } }

theorem test_SleepAndWake :
    (minuetOn (sleepy .run) = true ∧ Awake (sleepy .run) ∧ (sleepy .run).fig.committed = [] ∧ 1 ≤ maxSleep (sleepy .run) ∧
      idleChip (sleepy .run) = true ∧ (sleepy .run).chip.bootDone = true) ∧
    (maxSleep (sleepy .nap) = 2 ∧ idleChip (sleepy .nap) = true) ∧
    (nodeServes (sleepy .nap) = true ∧ asleep (sleepy .nap) = true ∧ (sleepy .nap).peer.held = [] ∧ (sleepy .nap).host.held = [] ∧
      asleep up = false ∧ Reaches (sleepy .nap) .sideband .clk ∧ Reaches up .sideband .clk) := by decide +kernel

theorem test_Overlays :
    (Reaches up .sideband .chip ∧ asleep up = false ∧ bit (reg (setReg up aCHIP_OVL_PRESENT 2) aCHIP_OVL_PRESENT) 1 = true ∧
      bit (reg (setReg up aCHIP_OVL_PRESENT 2) aCHIP_OVL_PRESENT) 0 = false) ∧
    (let c := { up with chip := { up.chip with overlays := [1] } }
     Awake c ∧ c.fig.committed = [] ∧ c.chip.overlays = [1] ∧ (∀ p, p < 8 → (schedPart c p).step = none) ∧
      canOpen c (overlayFig 1 [(0x24090, 5)]) = true) ∧
    ((imageWrites up 0 none [(0x2409C, 5)]).1 = none ∧ (imageWrites up 0 none [(w32 aTIER_HEAP, 5)]).1.isSome = true) ∧
    (armed (held up .chip) .sideband .chip = true ∧ armed up .sideband .chip = false) := by decide +kernel

theorem test_SelftestUpdateAndNor :
    (let c := held up .chip
     Reaches c .sideband .chip ∧ c.chip.fast = .run ∧ c.fig.committed = [] ∧ armed c .sideband .chip = true ∧ c.chip.testing = [] ∧
      chipBusy c = false ∧ c.chip.updating = false) ∧
    (let c := withBlock { up with chip := { up.chip with testing := [.samp] } } .samp .testing
     Awake c ∧ c.chip.testing ≠ [] ∧ c.chip.testing.Nodup ∧ FigIdle c ∧ Page.host ∉ c.chip.testing) ∧
    (let c := held (setReg (registered live) aCHIP_UPDATE_TAG 0x101) .chip
     regionCheck c 0 (reg c aCHIP_UPDATE_TAG) 0 0 = 0 ∧ regionCheck up 0 (reg up aCHIP_UPDATE_TAG) 0 0 ≠ 0) ∧
    (let c := registered live
     let d := { c with chip := { c.chip with updating := true, updateTag := 0x101, updateImage := List.replicate 128 0 } }
     Awake d ∧ regionActive d d.chip.updateTag = true ∧ d.chip.updateImage.length ≤ bankBytes ∧
      bundleCheck d (listSource d.chip.updateImage) ≠ 0) ∧
    (let c := { up with chip := { up.chip with bootState := .failed } }
     Reaches c .sideband .chip ∧ c.chip.bootState = .failed ∧ bankBytes - 4 + 4 ≤ bankBytes ∧ (bankBytes - 4) % 4 = 0) := by
  decide +kernel

/-! ### Directory, check values, reset, scan -/

theorem test_SessDirectory :
    (Reaches (withSess .ready 3) .sideband .sess ∧ FigIdle (withSess .ready 3) ∧ handleStatus (withSess .ready 3) (some 0) 1 = 0 ∧
      hIdx 1 ∈ (withSess .ready 3).sess.cached ∧ handleStatus (withSess .ready 3) (some 0) 2 ≠ 0) ∧
    (Reaches up .sideband .tier ∧ isOn up .tier = true ∧ isOn (withBlock up .tier .disabled) .tier = false) ∧
    (let c := { parked with tier := { parked.tier with sweeping := true, ledger := [(5, { ledgerReset with state := .damaged })] } }
     Awake c ∧ FigIdle c ∧ isUp c .fig = true ∧ c.flt.chipPending = false ∧ c.tier.sweeping = true ∧
      keysRise c.sess.entries = true ∧ sweepFound c = [0] ∧ sweepFound parked = []) ∧
    (let c := setHdr up .sess { hdr up .sess with enable := true, drain := false, state := .disabled }
     let d := { c with sess := { c.sess with copying := true, inited := false } }
     Awake d ∧ FigIdle d ∧ (hdr d .sess).enable = true ∧ (hdr d .sess).drain = false ∧ (hdr d .sess).state = .disabled ∧
      d.sess.copying = true ∧ bit (reg (setReg d aSESS_DIR_CTRL 1) aSESS_DIR_CTRL) 0 = true) := by decide +kernel

theorem test_CheckValueRuns :
    (let c := setRegB up 0 aCRC_LEN 9
     Reaches c .sideband .crc ∧ bankFor c 0 .unit = 0 ∧ isOn c .crc = true ∧ (crcUnit c 0).busy = false ∧
      (crcSources c 0).1 = 0 ∧ (crcSources c 0).2.any (crcRangeBad c) = false ∧ (crcSources c 0).2.any (crcRangeForeign c) = false) ∧
    ((crcSources up 0).1 ≠ 0 ∨ (crcSources up 0).2.any (crcRangeBad up) = true) ∧
    (let c := setCrcUnit up 3 { crcUnit up 3 with busy := true, ranges := [(false, 0x2000000000, 2)], input := [0, 0] }
     Awake c ∧ isUp c .crc = true ∧ (crcUnit c 3).busy = true ∧ (crcUnit c 3).ranges = [(false, 0x2000000000, 2)] ∧
      (crcUnit c 3).input = viewRead c 0x2000000000 2) ∧
    (let c := setCrcUnit up 3 { crcUnit up 3 with busy := true, ranges := [(true, 0, 64)], input := List.replicate 64 0 }
     (crcUnit c 3).ranges = [(true, 0, 64)] ∧ (crcUnit c 3).input.length = 64 ∧ FigIdle c) ∧
    (∀ b, 0 ≤ b → b < 0 + max 1 64 → crcObject up b 1 = none) :=
  ⟨by decide +kernel, by decide +kernel, by decide +kernel, by decide +kernel, fun _ _ _ => rfl⟩

theorem test_ResetInputAndScan : minuetOn up = true ∧ up.flt.reports = [] ∧ up.chip.inReset = false ∧
    (let c := { up with chip := { up.chip with inReset := true, xtalOk := true } }
     minuetOn c = true ∧ c.chip.inReset = true ∧ c.chip.xtalOk = true) := by decide +kernel

/-! ### The remaining clauses: what each of them assumes is met -/

/-- A chip in NAP, with a designated connection that is open. -/
def napping : Chip :=
  let c := setConn up 0 { conn up 0 with state := .open, mgmt := true }
  { c with chip := { c.chip with fast := .nap } }

theorem test_FramesAndUnlocks_clauses : (connTakes napping 0 = true ∧ napping.chip.fast = .nap) ∧
    requesterUp (setConn up 0 { conn up 0 with state := .open, mgmt := true }) (.conn 0) = true ∧
    rdLE ([2] ++ List.replicate 11 0) 0 1 = 2 ∧ rdLE (List.replicate 12 3) 0 1 = 3 ∧ minuetOn up = true := by decide +kernel

theorem test_BlocksResetAndEnd_clauses :
    (∀ x ∈ [BState.off, .disabled, .fault, .on, .draining, .testing],
      let c := held (withBlock up .samp x) .samp
      Reaches c .sideband .samp ∧ FigIdle c ∧ armed c .sideband .samp = true ∧ (hdr c .samp).state = x) ∧
    (let c := setHdr up .flt { hdr up .flt with selftest := true }
     (hdr c .flt).selftest = true ∧ minuetPage .flt = true ∧ minuetOn c = true) ∧
    (let c := setHdr up .grid { hdr up .grid with selftest := true }
     (hdr c .grid).selftest = true ∧ Awake c ∧ Page.grid ∉ c.chip.testing) := by decide +kernel

theorem test_InterruptBitsAndVotes_clauses : (∀ q : Page, (hdr up q).odd0 = 0 ∧ (hdr up q).odd1 = 0 ∧ (hdr up q).odd2 = 0) ∧
    (0x17008 % 0x4000 = 0x3008 ∧ 0x14008 % 0x4000 = 8 ∧ pageOf (0x14008 / 0x4000) = .sess ∧ (8 : Word).setWidth 4 ≠ 0#4) := by
  refine ⟨fun q => ?_, by decide⟩
  cases q <;> decide +kernel

theorem test_TextTableWrites_clauses :
    (let c := held { up with checks := { up.checks with vocab := some 1, gram := some 9 } } .text
     Reaches c .sideband .text ∧ armed c .sideband .text = true ∧ c.checks.vocab.isSome = true ∧ c.checks.gram.isSome = true) ∧
    (let c := held (withSess .ready 3) .text
     Reaches c .sideband .text ∧ armed c .sideband .text = true ∧ c.checks.vocab = none ∧ slotNamed c 0 = true ∧
      c.checks.gram = none) := by decide +kernel

theorem test_SlotWrites_clauses :
    (let c := held { up with checks := { up.checks with model := some 1 } } .attn
     Reaches c .sideband .attn ∧ armed c .sideband .attn = true ∧ c.checks.model.isSome = true) ∧
    (let c := held (withSess .ready 3) .attn
     Reaches c .sideband .attn ∧ armed c .sideband .attn = true ∧ c.checks.model = none ∧ slotNamed c 0 = true) := by
  decide +kernel

theorem test_ChecksEnd_clauses :
    (let c := withChecks layered { layered.checks with model := some 0 }
     Awake c ∧ FigIdle c ∧ c.checks.model = some 0) ∧
    (let c := withChecks spoken { spoken.checks with vocab := some 0, gram := some 0 }
     Awake c ∧ FigIdle c ∧ c.checks.vocab = some 0 ∧ c.checks.gram = some 0) ∧
    FigIdle { up with checks := { up.checks with index := [0] } } := by decide +kernel

/-- The chip whose session 0 has one operation of a code and a phase. -/
def doing (x : SessState) (o : Op) : Chip :=
  { talking x 3 with sess := { (talking x 3).sess with ops := [(0, [o])] } }

theorem test_AppendAndGenerateQueue_clauses : Takes (talking .ready 3) 0 1 2 (.append (.tokens [300])) ∧
    slotVocab (talking .ready 3) 0 ≤ 300 ∧
    (let c := doing .ready { newOp 2 0 1 1 (.append (.text [65])) 0 with phase := .tokenising }
     Awake c ∧ c.fig.committed = [] ∧ c.tier.revivals = [] ∧ c.tier.pressing = []) :=
  ⟨takes_of (by decide +kernel), by decide +kernel, by decide +kernel⟩

/-- The copies of a FORK's source: none to read, or one to read in flash. -/
theorem test_ResumeAndFork_clauses :
    (forkReads (talking .ready 3) 0 2 = false ∧ (unclaimed (talking .sitout 3) 0).any
      (fun k => decide ((ledger (talking .sitout 3) k).state = .damaged)) = false ∧
      (body (talking .ready 3) 0).counts.length ≤ 65536 ∧ (body (talking .ready 3) 0).gram.length ≤ 1048576 ∧
      ¬ (2 / 128 < groupsOf 3)) ∧ flashServes (oneDie (talking .ready 3)) = true := by decide +kernel

theorem test_QueryAndRelease_clauses :
    (let c := withSess .ended 3
     c.fig.committed = [] ∧ c.fig.waiting = [] ∧ c.fig.logUsed = 0 ∧ c.fig.staged = 0 ∧ c.tier.revivals = [] ∧
      c.tier.pressing = []) := by decide +kernel

/-- A core with a message in flight to core 1, which has posted its buffer. -/
def sending : Chip :=
  let m : SendMsg := { dst := 1, tag := 2, addr := 0, len := 4 }
  setCore (setCore up 0 { running with inFlight := [(m, [1, 2, 3, 4])] }) 1
    { running with posts := [(2, { addr := 256, len := 4, src := 0, arrived := none })] }

/-- A descriptor of one row. -/
def desc (kind : Nat) : Desc :=
  { kind := kind, size := 64, outFp32 := false, part := 0, keyT := false, len := 64, src := 0x8000, dst := 128, stride := 0, rows := 1 }

theorem test_MessagesAndPlans_ends :
    (Awake sending ∧ isUp sending .grid = true ∧
      (coreAt sending 0).inFlight.find? (fun e => e.1.dst = 1) = some ({ dst := 1, tag := 2, addr := 0, len := 4 }, [1, 2, 3, 4]) ∧
      tfind (coreAt sending 1).posts 2 = some { addr := 256, len := 4, src := 0, arrived := none } ∧
      (coreAt sending 0).wait = none ∧ (coreAt sending 1).wait = none ∧ (coreAt sending 0).sendQ = []) ∧
    (∀ k ∈ [1, 2], tfind (coreAt (onCore { running with plans := [(3, [desc k])] }) 0).plans 3 = some [desc k] ∧ (desc k).rows = 1 ∧
      (desc k).kind = k) := by decide +kernel

theorem test_PlacementsEnd_clauses :
    (∀ x ∈ [(CoreState.busy, true, false), (.draining, false, true), (.draining, false, false)],
      let k := { running with halted := true, state := x.1, lameDue := x.2.1, wantOff := x.2.2 }
      Awake (onCore k) ∧ (onCore k).grid.tests = [] ∧ drained k = true ∧ (coreAt (onCore k) 0).state = x.1) := by decide +kernel

theorem test_CoreTable_clauses :
    (∀ x ∈ [CoreState.off, .testing, .free, .busy, .lame, .draining, .faulted],
      let c := onCore { coreReset with state := x }
      Awake c ∧ isUp c .grid = true ∧ c.grid.tests = [] ∧ testsRunning c < 16 ∧ (coreAt c 0).state = x ∧ FirstFault c ∧
        Reaches c .sideband .grid ∧ fld (reg c aGRID_CORE_SEL) 7 0 = 0) ∧
    (let c := setReg (onCore { coreReset with state := .free, window := List.replicate 1024 600 }) aGRID_LAME_CFG 0x01100001
     lameRatio c * gridMedian c < medianOf (coreAt c 0).window * 256 ∨ gridMedian c ≠ 0) := by decide +kernel

/-- The GENERATE of session 0, waiting for a step. -/
def genOp : Op := { newOp 3 0 1 1 (.generate genBody) 0 with phase := .ready }

theorem test_StepsFormAndEnd_clauses :
    (forming.sess.ops = [(0, [genOp])] ∧ genOp.code = 3 ∧ genOp.final = none ∧ genOp.carried = none ∧ genOp.drainEnd = false ∧
      0 ∈ forming.sess.cached ∧ Awake forming ∧ forming.fig.committed = [] ∧ forming.fig.waiting = [] ∧ forming.tier.revivals = [] ∧
      forming.tier.pressing = [] ∧ (batchHold (setReg forming aSCHED_BATCH_HOLD 0)).2 = 0 ∧
      canForm (setReg forming aSCHED_BATCH_HOLD 0) 0 = true ∧ canForm (setReg forming aSCHED_BATCH_HOLD 0x00010002) 0 = true) ∧
    (let c := setSched forming 0 { schedPart forming 0 with holding := true }
     canForm c 0 = true ∧ (schedPart c 0).holding = true) ∧
    (let c := setSched up 0 { schedPart up 0 with step := some { engines := [engine0 1], waitPeer := false, paced := false } }
     c.sess.ops = [] ∧ ringSplit c = false ∧ layerDone c (engine0 1) = true ∧
      [engine0 1].find? (fun y => decide (y.kind = .decode) && !y.ended) = some (engine0 1)) ∧
    (let two := [engine0 1, { engine0 1 with kind := .chunk }]
     two.find? (fun y => decide (y.kind = .decode) && !y.ended) = some (engine0 1) ∧ ¬ ∀ y ∈ two, y.kind = .decode ∨ y.ended = true) ∧
    (let x : Step := { engines := [], waitPeer := false, paced := false, phase := .draft 0 [0] }
     let c := stepping x
     (schedPart c 0).step = some x ∧ coresDone c .decode [0] = true ∧ c.flt.chipPending = false) := by decide +kernel

theorem test_FiguresApplyAndRecover_clauses :
    (let c := { up with fig := { up.fig with waiting := [fig0 0] } }
     Awake c ∧ c.fig.waiting = [fig0 0] ∧ c.sess.ops = [] ∧ c.tier.revivals = [] ∧ c.tier.pressing = [] ∧ canOpen c (fig0 0) = true) ∧
    (let f := fig0 (2 ^ 40)
     let c := { up with fig := { up.fig with waiting := [f] } }
     figOpens c = true ∧ figRoom c f = false ∧ f.stalled = false) ∧
    figOpens (withBlock up .fig .off) = false := by decide +kernel

/-- A stored block of one header, whose CRC passes. -/
def goodBlock : List Byte := sealed (List.replicate 60 0)

theorem goodBlock_ok : hdrOk goodBlock = true ∧ blockOk goodBlock = true := by
  have h := rdLE_sealed (l := List.replicate 60 0) (n := 60) (by decide +kernel)
  have h1 : hdrOk goodBlock = true := by simp only [hdrOk, goodBlock, h, decide_true]
  have h2 : goodBlock.drop 64 = [] := by decide +kernel
  have h3 : rdLE goodBlock 0x20 8 = 0 := by decide +kernel
  have h4 : crc64 [] = 0 := by decide +kernel
  exact ⟨h1, by simp only [blockOk, h1, h2, h3, h4, decide_true, Bool.and_self]⟩

/-- The parked session's block as GDDR7 holds it, with its CRC, and as a read from flash brings it. -/
def parkedWith (l : List Byte) : Chip := { parked with mem := memWrite [] 0x400000000 l }
theorem parkedWith_mem (l : List Byte) : (parkedWith l).mem = memWrite [] 0x400000000 l := rfl
def goodObj : FObj := { len := 64, kind := 1, owner := 0, seq := 0, data := goodBlock }

theorem blockBytes_of {c : Chip} {k a : Nat} {l : List Byte} (h1 : (ledger c k).gddr = some a)
    (h2 : (ledger c k).size = l.length) (h3 : c.mem = memWrite [] a l) : blockBytes c k = l := by
  simp only [blockBytes, h1, h2, h3]
  exact read_back a l

theorem test_TierOperations_blocks : hdrOk (blockBytes (parkedWith goodBlock) 5) = true ∧ blockOk goodObj.data = true := by
  rw [blockBytes_of (c := (parkedWith goodBlock)) (k := 5) (a := 0x400000000) (l := goodBlock) (by decide +kernel) (by decide +kernel)
    (parkedWith_mem _)]
  exact goodBlock_ok

theorem test_TierOperations_clauses :
    (let r := rev0 true
     let o : Op := { newOp 5 0 1 1 (.resume 0) 0 with phase := .reviving }
     let c0 := withSess .sitout 3
     let c := { c0 with tier := { c0.tier with revivals := [r] }, sess := { c0.sess with ops := [(0, [o])] } }
     Awake c ∧ c.tier.pressing = [] ∧ sessionAt c 1 = some 0 ∧ c.tier.revivals = [r] ∧ r.idx = 0 ∧ r.late = false ∧
      c.sess.ops = [(0, [o])] ∧ r.waitBlocks = [] ∧ (50 : Word).toNat ≤ r.deadline ∧ r.reading = true ∧ r.cold = false ∧
      (entry c 0).state = .sitout ∧ r.deadline < (101 : Word).toNat ∧ (rev0 false).reading = false ∧ o.held = []) ∧
    (let c := setReg bare aTIER_PRESSURE 0xFFFF
     heapFree c 0 < pressureLow c ∧ heapFree c 0 + evictingGain c 0 < pressureHigh c ∧ evictOrder c 0 = [0] ∧ blockList c 0 = []) ∧
    reg (setReg bare aTIER_COLD_AGE 1) aTIER_COLD_AGE ≠ 0 ∧ isUp bare .fig = true ∧ bare.flt.chipPending = false := by
  decide +kernel

theorem test_FlashOperations_clauses :
    (let c := setExtent (oneDie busy) 2 { extReset with state := .open, copyTo := some 0 }
     dieOf (2 : BitVec 17).toNat = 0 ∧ (extent c 2).state = .open ∧ (extent c 2).copyTo = some 0) ∧
    (let c := setExtent (setExtent filled 0 { extent filled 0 with copyTo := some 2 }) 2 { extReset with state := .open, copyTo := some 0 }
     (extent c 0).state = .closed ∧ (extent c 0).copyTo = some 2 ∧ (extent c 2).failed = false ∧ (extent c 2).copyDue = false) ∧
    (up.flash.mapReady = false ∧ up.tier.revivals = [] ∧ Awake up) := by decide +kernel

theorem test_RegistrationsRunTheirCourse_clauses : heapServes (setReg busy aTIER_PRESSURE 0) 0 = true ∧
    (let a : RemAcc := { conn := 0, seq := 7, region := 1, isRead := true, addr := 0, data := [], req := { typ := 2 } }
     let c := { registered live with xpt := { (registered live).xpt with accs := [a] } }
     Awake c ∧ FigIdle c ∧ c.xpt.accs = a :: [] ∧ a.conn = 0 ∧ a.isRead = true) := by decide +kernel

theorem test_PacketsTakeEffect_clauses :
    (let a : RemAcc := { conn := 0, seq := 7, region := 1, isRead := false, addr := 2 ^ 34, data := [1], req := { typ := 1 } }
     let c := { registered live with xpt := { (registered live).xpt with accs := [a] } }
     c.xpt.accs = a :: [] ∧ ckptHeld c a.addr a.data.length = false) ∧
    (let q : Pkt := { typ := 4, flags := 3, cls := 1, payload := [4] }
     let c := setConn busy 0 { conn busy 0 with ready := [[q]] }
     xptCarries c 0 = true ∧ (conn c 0).ready = [q] :: [] ∧ q.payload.length < 16) := by decide +kernel

theorem test_ConnectionStates_clauses : onlyMgmt up wire = false ∧ partOfConn (connIn .closed) 0 = some 0 ∧
    (let c := setConn up 0 { connReset with state := .closing, closeRx := true }
     (conn c 0).state = .closing ∧ (conn c 0).txOpen = [] ∧ (conn c 0).closeRx = true) ∧
    (let c := setConn up 0 { connReset with state := .open, mgmt := true }
     Reaches c .sideband .xpt ∧ (conn c 0).mgmt = true) := by decide +kernel

theorem test_QueriesProgress_clauses :
    (let q := { query .walking with beam := [(0, 3)] }
     Awake (asked q) ∧ OneQuery (asked q) q ∧ filterStands (asked q) q = true ∧
      ∀ e ∈ (unexpanded q).take (selectOf (asked q)), enDamaged (ixEntry (asked q) 0 5 (e.2 / 2 ^ ixListLog (asked q) 0)) = false) ∧
    (let q := { query .reranking with cands := [(0, 3)] }
     OneQuery (asked q) q ∧ ∀ e ∈ q.cands, enDamaged (ixEntry (asked q) 0 4 (e.2 / 2 ^ ixVecLog (asked q) 0)) = false) := by
  decide +kernel

/-- A frame in one codeword on the one lane of a port. -/
def oneWord (l : List Byte) (f : FecResult) : List Codeword := [{ lane := 0, bytes := l, fec := f, shared := false }]

theorem test_PeerPorts_codewords :
    (let c := port0 { lanes2 .up with active := 1 }
     Linked c ∧ peerForwards c = true ∧ portUp c 0 = true ∧
      frameWhole (stripeOrder (pport c 0) 0) (oneWord (frameTo 5 1) .corrected) = true ∧
      reassemble (stripeOrder (pport c 0) 0) (oneWord (frameTo 5 1) .clean) = frameTo 5 1 ∧
      frameWhole (stripeOrder (pport c 0) 0) (oneWord (frameTo 5 1) .uncorrectable) = false ∧
      bstate c .peer ≠ .disabled ∧ c.pwr.tripped = false ∧ c.flt.faulted = false ∧ asleep c = false) ∧
    (let c := { port0 { lanes2 .up with active := 1 } with chip := { up.chip with fast := .nap } }
     Linked c ∧ asleep c = true ∧ sleeping c = true ∧ peerForwards c = true ∧ portUp c 0 = true) ∧
    (let c := { up with chip := { up.chip with fast := .waking } }
     asleep c = true ∧ sleeping c = false) ∧
    (let c := setReg (port0 (lanes2 .up)) aPEER_CAL_CTRL 0x100
     calAuto c = true ∧ peerForwards c = true ∧ c.peer.sweep = none ∧ nextSweepPort c 0 = some 0) := by decide +kernel

theorem test_CutSource_clauses :
    (let c := giving .handoffOut .offered
     CutReady c ∧ checkCopies c (blockList c 0) = c ∧ anyDamaged c (blockList c 0) = false ∧ c.cuts = [rec0 true .offered] ∧
      (rec0 true .offered).conn = 0) ∧
    (let r := { rec0 true .offered with ended := true }
     let c := { giving .ready .offered with cuts := [r] }
     CutReady c ∧ c.cuts = [r]) := by decide +kernel

theorem test_CutDestination_clauses :
    (let c := setReg (held (withBlock (taking .ready true (rec0 false .unsettled)) .fig .draining) .cut) aCUT_RESOLVE_HANDLE 1
     CutReady c ∧ isOn c .fig = false ∧ Reaches c .sideband .cut ∧ armed c .sideband .cut = true ∧ arriving c 0 = true ∧
      reg c aCUT_RESOLVE_HANDLE = (rec0 false .unsettled).dstHandle ∧ sessionAt c 1 = some 0) ∧
    (let r := { landedRec with state := .converting }
     let c := { landedChip with cuts := [r] }
     CutReady c ∧ heapServes (setReg c aTIER_PRESSURE 0) 0 = true ∧ (entry c 0).state = .handoffIn) ∧
    (let c := taking .handoffIn false (rec0 false .handoffIn)
     (rec0 false .handoffIn).released = false ∧ (entry c 0).epoch < 6 ∧ CutReady c) := by decide +kernel

theorem test_CkptShard_clauses :
    (let c := ckWith false (fun k => { k with phase := .stream, pending := [2] })
     heapServes (setReg c aTIER_PRESSURE 0) 0 = true ∧ Awake c ∧ c.fig.committed = []) ∧
    (let c := setReg { ck false with tier := { (ck false).tier with heap := [(2 ^ 34, 2 ^ 35 - 64, 0)] } } aTIER_PRESSURE 0x0201
     heapServes c 0 = false) ∧
    ckFlush (ck false) = false := by decide +kernel

/-- A fault of core 0 while it runs a placement, and one that the vote of a TEL register reports. -/
theorem test_FaultReactions_clauses :
    (let c := onCore running
     let f : FaultRep := { cls := 0x04, page := .grid, info := 0, addr := 0, higher := false, together := false }
     minuetOn c = true ∧ f.page = .grid ∧ (coreAt c (f.info.toNat % 256)).state = .busy ∧ c.grid.tests = [] ∧ testsRunning c < 16) ∧
    drainable .tel = true ∧ sameFault up { cls := 0x11, page := .tel, info := 0, addr := 0, higher := false, together := false } = none := by
  decide +kernel

/-- Where neither bank can be read, boot fails (R501). -/
theorem test_SuppliesAndPowerUp_readFail : bankCheck Chip.reset 3 false = 7 ∧ bankCheck Chip.reset 3 true = 7 := by decide +kernel

theorem test_SleepAndWake_clauses :
    ((sleepy .nap).xpt.heldReqs = [] ∧ sleeping (sleepy .nap) = true ∧ sleeping up = false ∧ asleep (sleepy .waking) = true ∧
      nodeServes { up with pwr := { up.pwr with tripped := true } } = false) := by decide +kernel

theorem test_Overlays_clauses :
    (let c := withBlock up .fig .draining
     Reaches c .sideband .chip ∧ asleep c = false ∧ bstate c .fig = .draining) ∧
    (let c := { up with flt := { up.flt with chipPending := true } }
     Reaches c .sideband .chip ∧ c.flt.chipPending = true) := by decide +kernel

theorem test_SelftestUpdateAndNor_clauses :
    (let c := { up with chip := { up.chip with testing := [.grid, .host] } }
     c.chip.testing.Nodup ∧ Awake c ∧ FigIdle c) ∧
    (let d := { registered live with chip := { (registered live).chip with updating := true, updateWaits := true } }
     Awake d ∧ d.fig.committed = [] ∧ d.chip.updateWaits = true) := by decide +kernel

/-! ### Instruction words -/

/-- A word by its fields (R149): OP, PNEG, PRED, A, B, C, FMT, IMM. -/
def word (op : BitVec 8) (neg : BitVec 1) (p : BitVec 3) (a b c : BitVec 6) (fmt : BitVec 2) (imm : Word) : BitVec 64 :=
  op ++ neg ++ p ++ a ++ b ++ c ++ fmt ++ imm

/-- One word of each part of R150's table is the operation that the table names; a register past S31, an opcode that the
table does not have and a SKIP of 0 are no operation. -/
theorem test_step_words :
    stepWord 3 (word 0x04 0 0 0 0 0 0 2) = some (.bar 3 every 2) ∧
    stepWord 3 (word 0x11 1 5 1 2 3 0 7) = some (.sadd 3 { neg := true, pred := 5 } 1 2 3 7) ∧
    stepWord 3 (word 0x19 0 0 7 2 31 3 0) = some (.scmp 3 every 7 2 31 3) ∧
    stepWord 3 (word 0x20 0 1 4 5 0 1 64) = some (.vld 3 { neg := false, pred := 1 } 4 5 1 64) ∧
    stepWord 3 (word 0x2C 0 0 4 5 0 0 63) = some (.vbcast 3 every 4 5 false 63) ∧
    stepWord 3 (word 0x41 0 0 1 2 3 0 0x01000142) = some (.mma 3 every 1 2 3 2 4 true 0x100) ∧
    stepWord 3 (word 0x51 0 0 1 2 3 0 15) = some (.send 3 every 1 2 3 15) ∧
    stepWord 3 (word 0x60 0 0 1 2 0 0 3) = some (.cplan 3 every 1 2 3) ∧
    stepWord 3 (word 0x11 0 0 32 2 3 0 7) = none ∧ stepWord 3 (word 0x30 0 0 0 0 0 0 0) = none ∧
    stepWord 3 (word 0x03 0 0 0 0 0 0 0) = none ∧ decodeTableWord 8 0 = none := by decide +kernel

/-! ### Well-formedness refuses what no encoding or event carries -/

theorem test_wf_upsets : Instr.wf (.voteSweep [{ addr := 0x100, bank := 0, copy := 3, flip := 1 }]) = false ∧
    Instr.wf (.voteSweep [{ addr := 0x102, bank := 0, copy := 2, flip := 1 }]) = false ∧
    Instr.wf (.voteSweep [{ addr := 0x64000, bank := 0, copy := 2, flip := 1 }]) = false ∧
    Instr.wf (.voteSweep [{ addr := 0x63FFC, bank := 0, copy := 2, flip := 1 }]) = true := by decide

theorem test_wf_lengths : Instr.wf (.mgmtReq 0 []) = false ∧ Instr.wf (.mgmtReq 0 (List.replicate 65537 0)) = false ∧
    Instr.wf (.append 0 0 0 (.tokens (List.replicate 16379 0))) = false ∧
    Instr.wf (.append 0 0 0 (.text (List.replicate 65513 0))) = false ∧ Instr.wf (.append 0 0 0 (.text [])) = true ∧
    Instr.wf (.attest 0 0 0 (List.replicate 65521 0)) = false ∧ Instr.wf (.delete 0 0 0 (List.replicate 16379 0)) = false ∧
    Instr.wf (.search 0 0 0 { scanReq with sketch := List.replicate 65489 0 }) = false ∧
    Instr.wf (.peerFrameRx 0 0 [{ lane := 0, bytes := List.replicate 4353 0, fec := .clean, shared := false }]) = false ∧
    Instr.wf (.shardAnswer 0 0 0 (List.replicate 1025 { item := 0, shard := 0, dist := 0 })) = false ∧
    Instr.wf (.thermalRead (List.replicate 33 { site := 0, a := 0, b := 0 })) = false := by
  have e1 : ∀ f, Instr.wf (.mgmtReq 0 f) = decide (1 ≤ f.length ∧ f.length ≤ 65536) := fun _ => rfl
  have e2 : ∀ l, Instr.wf (.append 0 0 0 (.tokens l)) = decide (l.length ≤ 16378) := fun _ => rfl
  have e3 : ∀ l, Instr.wf (.append 0 0 0 (.text l)) = decide (l.length ≤ 65512) := fun _ => rfl
  have e4 : ∀ l, Instr.wf (.attest 0 0 0 l) = decide (l.length ≤ 65520) := fun _ => rfl
  have e5 : ∀ l, Instr.wf (.delete 0 0 0 l) = decide (l.length ≤ 16378) := fun _ => rfl
  have e6 : ∀ l, Instr.wf (.search 0 0 0 { scanReq with sketch := l }) = decide (l.length + 0 ≤ 65488) := fun _ => rfl
  have e7 : ∀ l, Instr.wf (.peerFrameRx 0 0 [{ lane := 0, bytes := l, fec := .clean, shared := false }]) =
      decide (l.length + 0 ≤ 4352) := fun _ => rfl
  have e8 : ∀ l, Instr.wf (.shardAnswer 0 0 0 l) = decide (l.length ≤ 1024) := fun _ => rfl
  have e9 : ∀ l, Instr.wf (.thermalRead l) = decide (l.length ≤ 32) := fun _ => rfl
  rw [e1, e1, e2, e3, e3, e4, e5, e6, e7, e8, e9]
  simp only [List.length_replicate]
  decide

theorem test_wf_requests : Instr.wf (.openSession 0 0 { openBody with stops := [List.replicate 256 0] }) = false ∧
    Instr.wf (.openSession 0 0 { openBody with stops := List.replicate 256 [] }) = false ∧ Instr.wf (.openSession 0 0 openBody) = true ∧
    Instr.wf (.generate 0 0 0 { genBody with drafts := [1] }) = false ∧ Instr.wf (.generate 0 0 0 genBody) = true := by
  decide +kernel

theorem test_wf_steps : Instr.wf (.skip 0 every 0) = false ∧ Instr.wf (.skip 0 every 256) = false ∧ Instr.wf (.skip 0 every 255) = true ∧
    Instr.wf (.spar 0 every 1 1024) = false ∧ Instr.wf (.spar 0 every 1 1023) = true ∧
    Instr.wf (.mma 0 every 1 2 3 6 0 false 0) = false ∧ Instr.wf (.mma 0 every 1 2 3 0 4 false 0) = false ∧
    Instr.wf (.mma 0 every 1 2 3 5 4 false 0) = true := by decide

/-- A packet command carries a packet of its own TYPE, with the payload of that TYPE. -/
theorem test_wf_packets :
    let l : Link := { peer := true, addr := 0, port := 0, hostPart := none, ce := false }
    let p := fun (t : BitVec 4) (n : Nat) => ({ typ := t, payload := List.replicate n 0 } : Pkt)
    Instr.wf (.vstWrite l (p 2 1)) = false ∧ Instr.wf (.vstWrite l (p 1 0)) = false ∧ Instr.wf (.vstWrite l (p 1 1)) = true ∧
    Instr.wf (.vstReadReq l (p 2 1)) = false ∧ Instr.wf (.vstReadReq l (p 2 0)) = true ∧ Instr.wf (.vstReadResp l (p 3 0)) = false ∧
    Instr.wf (.vstMsg l (p 4 0)) = false ∧ Instr.wf (.vstMsg l (p 3 1)) = false ∧ Instr.wf (.vstAck l (p 5 1)) = false ∧
    Instr.wf (.vstAck l (p 5 128)) = true ∧ Instr.wf (.vstNak l (p 6 1)) = false ∧ Instr.wf (.vstConnect l (p 8 0)) = false ∧
    Instr.wf (.vstConnectAck l (p 7 0)) = false ∧ Instr.wf (.vstClose l (p 9 1)) = false ∧ Instr.wf (.vstClose l (p 9 0)) = true := by
  decide +kernel

theorem test_wf_cut_messages : ∀ t : Byte,
    let m := { cutZero with typ := t }
    (Instr.wf (.cutOfferRx 0 m) = true ↔ t = 0x0B) ∧ (Instr.wf (.cutAcceptRx 0 m) = true ↔ t = 0x0C) ∧
    (Instr.wf (.cutReleaseRx 0 m) = true ↔ t = 0x0D) ∧ (Instr.wf (.cutConfirmRx 0 m) = true ↔ t = 0x0E) ∧
    (Instr.wf (.cutDeclineRx 0 m) = true ↔ t = 0x18) ∧ (Instr.wf (.cutWithdrawRx 0 m) = true ↔ t = 0x19) ∧
    (Instr.wf (.cutReclaimRx 0 m) = true ↔ t = 0x1A) ∧ (Instr.wf (.cutProbeRx 0 m) = true ↔ t = 0x1B) ∧
    (Instr.wf (.cutStandingRx 0 m) = true ↔ t = 0x1C) ∧ (Instr.wf (.cutDoneRx 0 m) = true ↔ t = 0x1D) := by
  decide +kernel

theorem test_wf_marks_and_reports : Instr.wf (.markPrepareRx (mark 2)) = false ∧ Instr.wf (.markSnapRx (mark 1)) = false ∧
    Instr.wf (.markRestoreQueryRx (mark 4)) = false ∧ Instr.wf (.markRestoreGoRx (mark 3)) = false ∧
    Instr.wf (.markRestoreGoRx (mark 4)) = true ∧ Instr.wf (.faultReport (report 0)) = false ∧
    Instr.wf (.faultReport (report 0x1F)) = false ∧ Instr.wf (.faultReport (report 0x1E)) = true ∧
    Instr.wf (.chipSelftestEnd [.samp, .samp]) = false ∧ Instr.wf (.chipSelftestEnd [.samp]) = true := by decide

/-! ### Values that the manual gives -/

/-- The ASCII bytes of the check values of R510. -/
def digits : List Byte := [0x31, 0x32, 0x33, 0x34, 0x35, 0x36, 0x37, 0x38, 0x39]

/-- The check values of R510's table. -/
theorem test_check_values : crc32c digits = 0xE3069283 ∧ crc64 digits = 0x6C40DF5F0B497347 := by decide +kernel

/-- R16's example: SESS.BLK_CTRL at 0x0001_4008, its set alias at 0x0001_5008, its clear alias at 0x0001_6008. -/
theorem test_register_address : pageOf (0x14008 / 0x4000) = .sess ∧ pageOf (0x15008 / 0x4000) = .sess ∧
    pageOf (0x16008 / 0x4000) = .sess ∧ 0x14008 % 0x4000 = 0x08 := by decide

/-- The example of the transport section: region 37 at generation 6 has the tag 0x0000_2506. -/
theorem test_region_tag : regionTag (setRegion up 37 { regionReset with gen := 6 }) 37 = 0x2506 := by decide +kernel

/-- Floating-point values of R177-R179: 1 + 2 = 3, 2 * 3 = 6, the greater of two, and 2 * 3 + 1 = 7. -/
theorem test_arithmetic : fadd 0x3F800000 0x40000000 = 0x40400000 ∧ fmul 0x40000000 0x40400000 = 0x40C00000 ∧
    fmax 0x40000000 0x40400000 = 0x40400000 ∧ ffma 0x40000000 0x40400000 0x3F800000 = 0x40E00000 := by
  decide +kernel

/-! ### Steps of the queue -/

/-- The chip, with commands waiting. -/
def queued (c : Chip) (l : List Instr) : State := { toChip := c, pending := l }

/-- What a step answers, seen through a function. -/
def seen {α : Type} (f : State → α) (s : State) : Option α :=
  match step s with
  | .next t => some (f t)
  | _ => none

/-- JTAG IDCODE captures the identification of R528, and the rest of the queue stays. -/
theorem test_step_idcode : seen (fun t => (t.tap.captured, t.pending.length)) (queued up [.jtagIdcode, .figureApply]) =
    some (0x194005D3, 1) := by decide +kernel

/-- A sideband SET_ADDR latches the address, and LAST_STATUS answers one byte (R526). -/
theorem test_step_sideband : seen (fun t => t.smb.addr) (queued up [.smbSetAddr 0x10 true]) = some 0x10 ∧
    seen (fun t => t.smb.reply) (queued up [.smbLastStatus]) = some [0] := by decide +kernel

/-- SADD of S1 = 64 and S2 = 4 with IMM 1 gives 69 in S5, and a write to S0 is discarded (R140, R150). -/
theorem test_step_sadd : seen (fun t => (sget (coreAt t.toChip 0) 5, (coreAt t.toChip 0).pc)) (queued (onCore running) [.sadd 0 every 5 1 2 1]) =
    some (69, 1) ∧ seen (fun t => sget (coreAt t.toChip 0) 0) (queued (onCore running) [.sadd 0 every 0 1 2 1]) = some 0 := by
  decide +kernel

/-- SST stores a little-endian word (R5, R150). -/
theorem test_step_sst : seen (fun t => coreRead (coreAt t.toChip 0) 128 4)
    (queued (onCore { running with s := [(1, 0x11223344), (2, 128)] }) [.sst 0 every 1 2 0]) = some [0x44, 0x33, 0x22, 0x11] := by
  decide +kernel

/-- An empty queue idles. -/
theorem test_step_idle : step (queued up []) = .next (queued up []) := rfl

end Sys2Proof.Tests
end

section
/-! Accesses whose address breaks R8 (O5): the gate refuses them before any register is reached. -/

namespace Sys2Proof.Machine

open Sys2Proof.Safety

/-! ### The gate refuses, whatever the grant and the power of the page -/

/-- An address that is no word of a page is refused before the grant and the page's power are looked at. -/
theorem gate_limit (c : Chip) (r : Requester) (write : Bool) {a : Nat} (h : a % 4 ≠ 0 ∨ 0x64000 ≤ a) :
    gate c r write a = (rejLimit, c) := by
  unfold gate
  rw [if_pos h]

/-- A read that the gate refuses for its address gives the code and no data. -/
theorem mgmtRead_limit {c : Chip} {r : Requester} {a : Nat} (hr : requesterUp c r = true)
    (h : a % 4 ≠ 0 ∨ 0x64000 ≤ a) : mgmtRead c r a = answer c rejLimit 0 := by
  unfold mgmtRead
  rw [gate_limit c r false h]
  simp [hr]

/-- A write that the gate refuses for its address leaves only its status. -/
theorem mgmtWrite_limit {c : Chip} {r : Requester} {a : Nat} (w : Word) (hr : requesterUp c r = true)
    (h : a % 4 ≠ 0 ∨ 0x64000 ≤ a) : mgmtWrite c r a w = keepStatus (answer c rejLimit 0) r rejLimit := by
  unfold mgmtWrite mgmtWriteWith
  rw [gate_limit c r true h]
  simp [hr]

/-! ### What is left of a refused write -/

@[simp] theorem reqState_drive (c : Chip) (q r : Requester) (st n : Nat) (d : Word) :
    reqState (drivePins (keepStatus (answer c n d) q st)) r = reqState c r := by cases q <;> cases r <;> rfl

/-- A command that only keeps a status is answered with its code. -/
theorem answered_of_status {i : Instr} {s : State} {r : Requester} {n : Nat} {p : State → Prop}
    (he : exec i s = .next { s with toChip := drivePins (keepStatus (answer s.toChip n 0) r n) })
    (hp : p { s with toChip := drivePins (keepStatus (answer s.toChip n 0) r n) }) :
    Answered i s r (BitVec.ofNat 8 n) s.toChip p := by
  refine ⟨_, he, rfl, ?_, ?_, ?_, hp⟩
  · cases r <;> rfl
  · intro h; subst h; rfl
  · show desk (drivePins (keepStatus (answer s.toChip n 0) r n)) = desk s.toChip
    rw [desk_drivePins, desk_keepStatus, desk_answer]

/-- A command that is a write at an address outside the window is refused, and no register, no header and no
requester's hold, shadow or unlock changes. -/
theorem answered_write_limit {i : Instr} {s : State} {r : Requester} {a : Nat} {w : Word}
    (hi : exec i s = act s (fun c => mgmtWrite c r a w)) (hr : requesterUp s.toChip r = true)
    (h : a % 4 ≠ 0 ∨ 0x64000 ≤ a) :
    Answered i s r 0x23 s.toChip (fun t => (∀ k, regKey t.toChip k = regKey s.toChip k) ∧
      (∀ p, hdr t.toChip p = hdr s.toChip p) ∧ ∀ q, reqState t.toChip q = reqState s.toChip q) := by
  refine answered_of_status (n := rejLimit) ?_
    ⟨fun k => regKey_drive .., fun p => hdr_drive .., fun q => reqState_drive ..⟩
  rw [hi, act, mgmtWrite_limit w hr h]

/-! ### Reads -/

/-- LO_READ at such an address changes nothing but the result of the access. -/
theorem exec_loRead_limit {s : State} {r : Requester} {addr : Word} (hr : requesterUp s.toChip r = true)
    (h : addr.toNat % 4 ≠ 0 ∨ 0x64000 ≤ addr.toNat) :
    exec (.loRead r addr) s = .next (after s (answer s.toChip rejLimit 0)) := by
  show act s (fun c => mgmtRead c r addr.toNat) = _
  rw [act, mgmtRead_limit hr h, after]

/-- The four bytes of a word of 0. -/
theorem leBytes_word_zero : leBytes 4 (0 : Word).toNat = [0, 0, 0, 0] := by simp [leBytes]

/-- A sideband READ with such an address latched answers the code and four bytes of 0. -/
theorem smbReadOp_limit {c : Chip} (hr : sidebandUp c = true)
    (h : c.smb.addr.toNat % 4 ≠ 0 ∨ 0x64000 ≤ c.smb.addr.toNat) :
    smbReadOp c = { answer c rejLimit 0 with
      smb := { c.smb with addr := c.smb.addr + 4, reply := [0x23, 0, 0, 0, 0] } } := by
  have hm : mgmtRead c .sideband c.smb.addr.toNat = answer c rejLimit 0 := mgmtRead_limit hr h
  unfold smbReadOp
  rw [hm]
  simp only [answer, leBytes_word_zero]
  rfl

/-- SMB_READ with such an address latched: the reply, and the window as a refused access leaves it. -/
theorem completes_smbRead_limit {s : State} (hr : sidebandUp s.toChip = true)
    (h : s.smb.addr.toNat % 4 ≠ 0 ∨ 0x64000 ≤ s.smb.addr.toNat) :
    Completes (.smbRead true) s (fun t => t.smb.reply = [0x23, 0, 0, 0, 0] ∧
      t.mgmt = { s.mgmt with acc := { status := 0x23, data := 0 } }) := by
  have he : exec (.smbRead true) s = .next (after s (smbReadOp s.toChip)) := by
    show execSmbRead true s = _
    simp [execSmbRead, act, after, hr]
  rw [smbReadOp_limit hr h] at he
  exact ⟨_, he, rfl, rfl, rfl⟩

/-! ### The statement -/

/-- Settles O5: the gate refuses the access before the grant, the page and the register are looked at, since every
address above 0x03FFFFFF also lies above the pages. -/
theorem accessesOutsideTheRangeAreRefused : Obligations.AccessesOutsideTheRangeAreRefused := by
  intro s r addr data hr haddr
  have h : addr.toNat % 4 ≠ 0 ∨ 0x64000 ≤ addr.toNat := haddr.imp_right (by omega)
  refine ⟨exec_loRead_limit hr h, ?_, answered_write_limit rfl hr h, answered_write_limit rfl hr h,
    answered_write_limit rfl hr h⟩
  rintro rfl rfl
  exact completes_smbRead_limit hr h

end Sys2Proof.Machine
end

section
/-! The fields of a session handle (O16): each of R37 as arithmetic on the handle's number, which is the weighted sum of
the three. -/

namespace Sys2Proof.Machine

/-! ### The three fields -/

/-- PARTITION: nothing of a word lies above bit 31. -/
theorem hPart_eq_div (h : Word) : hPart h = h.toNat / 2 ^ 29 := by
  have htop : h.toNat / 2 ^ 29 < 2 ^ 3 := Nat.div_lt_of_lt_mul h.isLt
  rw [hPart, fld, Nat.shiftRight_eq_div_pow]
  exact Nat.mod_eq_of_lt htop

/-- INDEX: the 22 bits from bit 7 up. -/
theorem hIdx_eq_div_mod (h : Word) : hIdx h = h.toNat / 2 ^ 7 % 2 ^ 22 := by
  rw [hIdx, fld, Nat.shiftRight_eq_div_pow]

/-- GENERATION: the seven lowest bits. -/
theorem hGen_eq_mod (h : Word) : hGen h = h.toNat % 2 ^ 7 := by
  rw [hGen, fld, Nat.shiftRight_zero]

/-! ### A handle and its fields -/

/-- Fields within their widths fit in 32 bits together, so a handle is exactly their weighted sum. -/
theorem toNat_mkHandle {p i g : Nat} (hp : p < 8) (hi : i < 2 ^ 22) (hg : g < 2 ^ 7) :
    (mkHandle p i g).toNat = p * 2 ^ 29 + i * 2 ^ 7 + g := by
  rw [mkHandle, w32, BitVec.toNat_ofNat]
  exact Nat.mod_eq_of_lt (by omega)

/-- The fields of a handle give it back. -/
theorem mkHandle_fields (h : Word) : mkHandle (hPart h) (hIdx h) (hGen h) = h := by
  have hsum : hPart h * 2 ^ 29 + hIdx h * 2 ^ 7 + hGen h = h.toNat := by
    rw [hPart_eq_div, hIdx_eq_div_mod, hGen_eq_mod]
    omega
  rw [mkHandle, hsum, w32, BitVec.ofNat_toNat, BitVec.setWidth_eq]

/-- A handle made of fields within their widths has those fields. -/
theorem fields_mkHandle {p i g : Nat} (hp : p < 8) (hi : i < 2 ^ 22) (hg : g < 2 ^ 7) :
    hPart (mkHandle p i g) = p ∧ hIdx (mkHandle p i g) = i ∧ hGen (mkHandle p i g) = g := by
  rw [hPart_eq_div, hIdx_eq_div_mod, hGen_eq_mod, toNat_mkHandle hp hi hg]
  omega

/-! ### The statement -/

/-- Settles O16: the three fields cover the 32 bits without overlap, so the weighted sum of R37 and the fields are
inverse to each other. -/
theorem handleLayout : Obligations.HandleLayout :=
  ⟨fun h => ⟨hPart_eq_div h, hIdx_eq_div_mod h, hGen_eq_mod h, mkHandle_fields h⟩,
    fun _ _ _ hp hi hg => fields_mkHandle hp hi hg⟩

end Sys2Proof.Machine
end

section
/-! Steps and commands (O1, O2), and what reset leaves (O4). -/

open Sys2Proof.Safety

namespace Sys2Proof.Machine

/-- Every command has the form of a meaning: an effect on the chip, after which the pins follow. -/
theorem exec_eq_after (i : Instr) (s : State) : ∃ c, exec i s = .next (after s c) := by
  cases i <;> exact ⟨_, rfl⟩

@[simp] theorem after_pending (s : State) (c : Chip) : (after s c).pending = s.pending := rfl

theorem pinsFollow_after (s : State) (c : Chip) : PinsFollow (after s c) := rfl

/-- Settles O2: each command is an effect on the chip alone, followed by the pins. -/
theorem everyCommandAnswers : Obligations.EveryCommandAnswers := by
  intro i s
  obtain ⟨c, hc⟩ := exec_eq_after i s
  exact ⟨_, hc, after_pending s c, pinsFollow_after s c⟩

/-- Settles O1, by the two cases of the queue. -/
theorem stepRunsTheFrontCommand : Obligations.StepRunsTheFrontCommand := by
  constructor
  · intro i rest s h
    simp only [step, h]
  · intro s h
    simp only [step, h]

/-- The page that a block's state names after reset: OFF where it is drainable, ON elsewhere. -/
theorem bstate_reset (p : Page) : bstate State.reset.toChip p = (if drainable p then .off else .on) := by
  cases p <;> rfl

/-- Settles O4: reset is a constant, and the tables it leaves empty read their default. -/
theorem resetState : Obligations.ResetState := by
  refine ⟨⟨rfl, rfl, rfl⟩, fun p => ⟨bstate_reset p, ?_⟩, fun n => ⟨?_, ?_, ?_⟩, ?_, fun p => ?_⟩
  · cases p <;> exact ⟨rfl, rfl, rfl, rfl⟩
  · rfl
  · rfl
  · rfl
  · rfl
  · rfl
end Sys2Proof.Machine
end

section
/-! The functions of the model that leave GDDR7 as it is (for O3): one lemma for each, in the order of the model, so that a
later proof rewrites the memory of a chip through any of them. -/

open Sys2Proof.Safety

namespace Sys2Proof.Machine

/-- A fold whose every step leaves a part of the state alone leaves it alone. -/
theorem foldl_same {σ α β : Type} (f : σ → β) (g : σ → α → σ) (h : ∀ x a, f (g x a) = f x) (l : List α) (x : σ) :
    f (l.foldl g x) = f x := by
  induction l generalizing x with
  | nil => rfl
  | cons a r ih => exact (ih _).trans (h x a)

/-- The same for a chip's memory. -/
theorem mem_foldl {α : Type} (g : Chip → α → Chip) (h : ∀ c a, (g c a).mem = c.mem) (l : List α) (c : Chip) :
    (l.foldl g c).mem = c.mem := foldl_same (·.mem) g h l c

/-- The same for a chip with a value beside it. -/
theorem mem_foldl_fst {α β : Type} (g : Chip × β → α → Chip × β) (h : ∀ x a, (g x a).1.mem = x.1.mem) (l : List α)
    (x : Chip × β) : (l.foldl g x).1.mem = x.1.mem := foldl_same (·.1.mem) g h l x

/-- The same for a value with a chip beside it. -/
theorem mem_foldl_snd {α β : Type} (g : β × Chip → α → β × Chip) (h : ∀ x a, (g x a).2.mem = x.2.mem) (l : List α)
    (x : β × Chip) : (l.foldl g x).2.mem = x.2.mem := foldl_same (·.2.mem) g h l x

/-! ### Functions of Ops -/

@[simp] theorem mem_takeFree (c : Chip) : (takeFree c).2.mem = c.mem := by
  simp [takeFree]

@[simp] theorem mem_takeTick (c : Chip) : (takeTick c).2.mem = c.mem := by
  simp [takeTick]

@[simp] theorem mem_takeFine (c : Chip) : (takeFine c).2.mem = c.mem := by
  simp [takeFine]

/-! ### Functions of Operands -/

@[simp] theorem mem_setFld (c : Chip) (a hi lo v : Nat) : (setFld c a hi lo v).mem = c.mem := by
  simp [setFld]

@[simp] theorem mem_setFldB (c : Chip) (bank a hi lo v : Nat) : (setFldB c bank a hi lo v).mem = c.mem := by
  grind [setFldB, setKey_mem]

@[simp] theorem mem_setPairB (c : Chip) (bank lo v : Nat) : (setPairB c bank lo v).mem = c.mem := by
  simp [setPairB]

@[simp] theorem mem_setPair (c : Chip) (lo v : Nat) : (setPair c lo v).mem = c.mem := by
  simp [setPair]

@[simp] theorem mem_bumpB (c : Chip) (bank a n : Nat) : (bumpB c bank a n).mem = c.mem := by
  unfold bumpB
  split <;> simp

@[simp] theorem mem_bump (c : Chip) (a n : Nat) : (bump c a n).mem = c.mem := by
  simp [bump]

@[simp] theorem mem_bumpPair (c : Chip) (lo n : Nat) : (bumpPair c lo n).mem = c.mem := by
  unfold bumpPair
  split <;> simp

@[simp] theorem mem_bumpPairB (c : Chip) (bank lo n : Nat) : (bumpPairB c bank lo n).mem = c.mem := by
  unfold bumpPairB
  split <;> simp

@[simp] theorem mem_answer (c : Chip) (st : Nat) (d : Word) : (answer c st d).mem = c.mem := by
  simp [answer]

/-! ### Functions of Bundle -/

@[simp] theorem mem_norPut (c : Chip) (a : Nat) (l : List Byte) : (norPut c a l).mem = c.mem := by
  simp [norPut]

@[simp] theorem mem_norErase (c : Chip) (a n : Nat) : (norErase c a n).mem = c.mem := by
  simp [norErase]

/-! ### Functions of Send -/

@[simp] theorem mem_enqueuePkt (c : Chip) (n : Nat) (p : Pkt) : (enqueuePkt c n p).1.mem = c.mem := by
  simp [enqueuePkt]

@[simp] theorem mem_waitSpace (c : Chip) (n : Nat) (w : List (Pkt × InitUse)) : (waitSpace c n w).1.mem = c.mem := by
  simp [waitSpace]

@[simp] theorem mem_sendNow (c : Chip) (n : Nat) (p : Pkt) (u : InitUse) : (sendNow c n p u).1.mem = c.mem := by
  simp [sendNow]

@[simp] theorem mem_sendPkt (c : Chip) (n : Nat) (p : Pkt) (u : InitUse) : (sendPkt c n p u).1.mem = c.mem := by
  grind [sendPkt, setConn_mem, mem_sendNow, mem_waitSpace]

@[simp] theorem mem_sendAgain (c : Chip) (n : Nat) (p : Pkt) (u : InitUse) : (sendAgain c n p u).1.mem = c.mem := by
  grind [sendAgain, setConn_mem, mem_bump, mem_enqueuePkt, mem_waitSpace]

@[simp] theorem mem_pumpN (a : Nat) (a1 : Chip) (a2 : Nat) : (pumpN a a1 a2).1.mem = a1.mem := by
  fun_induction pumpN a a1 a2 <;> grind [setConn_mem, mem_enqueuePkt, mem_sendNow, mem_waitSpace]

@[simp] theorem mem_pump (c : Chip) (n : Nat) : (pump c n).1.mem = c.mem := by
  simp [pump]

@[simp] theorem mem_sendControl (c : Chip) (n : Nat) (p : Pkt) : (sendControl c n p).mem = c.mem := by
  unfold sendControl
  split <;> simp

@[simp] theorem mem_sendAll (c : Chip) (n : Nat) (ps : List Pkt) (u : InitUse) : (sendAll c n ps u).1.mem = c.mem := by
  simp [sendAll, mem_foldl_fst]

@[simp] theorem mem_pushMsg (c : Chip) (n cls : Nat) (bytes : List Byte) : (pushMsg c n cls bytes).1.mem = c.mem := by
  grind [pushMsg, mem_bump, mem_sendAll, setConn_mem]

@[simp] theorem mem_sendEvent (c : Chip) (p : Page) : (sendEvent c p).1.mem = c.mem := by
  unfold sendEvent
  dsimp only
  split
  · rfl
  · refine (mem_foldl_fst _ (fun x n => ?_) _ _).trans ?_ <;> simp

@[simp] theorem mem_setInt (c : Chip) (p : Page) (bits : Word) : (setInt c p bits).1.mem = c.mem := by
  grind [setInt, setHdr_mem, mem_sendEvent]

@[simp] theorem mem_raiseN (a : Nat) (a1 : List EventBit) (a2 : Chip) : (raiseN a a1 a2).mem = a2.mem := by
  fun_induction raiseN a a1 a2 <;> grind [mem_setInt]

@[simp] theorem mem_raises (c : Chip) (l : List EventBit) : (raises c l).mem = c.mem := by
  simp [raises]

@[simp] theorem mem_raise (c : Chip) (p : Page) (b : Nat) : (raise c p b).mem = c.mem := by
  simp [raise]

@[simp] theorem mem_settleEvents (r : Chip × List EventBit) : (settleEvents r).mem = r.1.mem := by
  simp [settleEvents]

@[simp] theorem mem_sendMsg (c : Chip) (n cls : Nat) (bytes : List Byte) : (sendMsg c n cls bytes).mem = c.mem := by
  simp [sendMsg]

@[simp] theorem mem_setState (c : Chip) (p : Page) (s : BState) : (setState c p s).mem = c.mem := by
  grind [setState, mem_raise, setHdr_mem]

/-! ### Functions of Fault -/

@[simp] theorem mem_bbProgram (c : Chip) (r : List Byte) : (bbProgram c r).mem = c.mem := by
  grind [bbProgram, setReg_mem, mem_setFld, mem_raise]

@[simp] theorem mem_bbQueue (c : Chip) (r : List Byte) : (bbQueue c r).mem = c.mem := by
  grind [bbQueue, mem_bump]

@[simp] theorem mem_bbAppend (c : Chip) (r : List Byte) : (bbAppend c r).mem = c.mem := by
  unfold bbAppend
  (repeat' split) <;> simp

@[simp] theorem mem_bbDrainN (a : Nat) (a1 : Chip) : (bbDrainN a a1).mem = a1.mem := by
  induction a generalizing a1 with
  | zero => simp [bbDrainN]
  | succ k ih =>
    unfold bbDrainN
    (repeat' split) <;> simp [ih]

@[simp] theorem mem_bbDrain (c : Chip) : (bbDrain c).mem = c.mem := by
  simp [bbDrain]

@[simp] theorem mem_bbRecord (c : Chip) (kind cls level page : Nat) (info : Word) (addr : DWord) (mark : Word) :
    (bbRecord c kind cls level page info addr mark).mem = c.mem := by
  simp [bbRecord]

@[simp] theorem mem_bbPlain (c : Chip) (kind : Nat) (mark : Word) : (bbPlain c kind mark).mem = c.mem := by
  simp [bbPlain]

@[simp] theorem mem_startReaction (c : Chip) (cls level : Nat) : (startReaction c cls level).mem = c.mem := by
  unfold startReaction
  (repeat' split) <;> simp

@[simp] theorem mem_faultRecord (c : Chip) (f : FaultRep) (level : Nat) : (faultRecord c f level).mem = c.mem := by
  grind [faultRecord, mem_takeFree, mem_bump, mem_bbRecord]

@[simp] theorem mem_bbRewrite (c : Chip) : (bbRewrite c).mem = c.mem := by
  grind [bbRewrite, mem_setFld, mem_bbAppend, setReg_mem]

@[simp] theorem mem_reportAgain (c : Chip) (f : FaultRep) (l : LastReport) : (reportAgain c f l).mem = c.mem := by
  grind [reportAgain, mem_setFld, mem_startReaction, mem_raise]

@[simp] theorem mem_reportAt (c : Chip) (f : FaultRep) (level : Nat) : (reportAt c f level).mem = c.mem := by
  grind [reportAt, mem_takeTick, setReg_mem, mem_setPair, mem_bbRewrite, mem_startReaction, mem_faultRecord, mem_raise]

@[simp] theorem mem_reportFirst (c : Chip) (f : FaultRep) : (reportFirst c f).mem = c.mem := by
  simp [reportFirst]

@[simp] theorem mem_reportUnlisted (c : Chip) (p : Page) : (reportUnlisted c p).mem = c.mem := by
  simp [reportUnlisted]

@[simp] theorem mem_traceStop (c : Chip) : (traceStop c).mem = c.mem := by
  simp [traceStop]

@[simp] theorem mem_telLeaves (c : Chip) (p : Page) : (telLeaves c p).mem = c.mem := by
  unfold telLeaves
  split <;> simp

@[simp] theorem mem_faultState (c : Chip) (f : FaultRep) : (faultState c f).mem = c.mem := by
  unfold faultState
  split <;> simp

@[simp] theorem mem_report (c : Chip) (f : FaultRep) : (report c f).mem = c.mem := by
  unfold report
  (repeat' split) <;> simp

@[simp] theorem mem_fault (c : Chip) (cls : Nat) (p : Page) (info addr : Nat) (higher : Bool) :
    (fault c cls p info addr higher).mem = c.mem := by
  grind [fault, mem_report, mem_takeFree]

@[simp] theorem mem_bbEraseDone (c : Chip) : (bbEraseDone c).mem = c.mem := by
  unfold bbEraseDone
  split <;> simp

@[simp] theorem mem_bbHeadFound (c : Chip) : (bbHeadFound c).mem = c.mem := by
  unfold bbHeadFound
  split <;> simp

@[simp] theorem mem_bbWindowReady (c : Chip) : (bbWindowReady c).mem = c.mem := by
  unfold bbWindowReady
  split <;> simp

/-! ### Functions of Media -/

@[simp] theorem mem_jput (c : Chip) (r : JRec) : (jput c r).mem = c.mem := by
  simp [jput]

@[simp] theorem mem_noteSpares (was : Nat) (c : Chip) : (noteSpares was c).mem = c.mem := by
  unfold noteSpares
  split <;> simp

@[simp] theorem mem_applyCut (c : Chip) : (applyCut c).mem = c.mem := by
  unfold applyCut
  split <;> simp

@[simp] theorem mem_spareReaction (c : Chip) (was : Nat) : (spareReaction c was).mem = c.mem := by
  grind [spareReaction, mem_noteSpares, mem_raise, mem_setFld, mem_applyCut]

@[simp] theorem mem_retire (c : Chip) (e : Nat) : (retire c e).mem = c.mem := by
  simp [retire]

@[simp] theorem mem_startErase (c : Chip) (e : Nat) : (startErase c e).mem = c.mem := by
  grind [startErase, setExtent_mem, mem_noteSpares, mem_applyCut, mem_jput]

@[simp] theorem mem_eraseIfDead (c : Chip) (l : Nat) : (eraseIfDead c l).mem = c.mem := by
  unfold eraseIfDead
  (repeat' split) <;> simp

@[simp] theorem mem_closeExtent (c : Chip) (e : Nat) : (closeExtent c e).mem = c.mem := by
  grind [closeExtent, setExtent_mem, mem_eraseIfDead]

theorem mem_openHead (c : Chip) (d : Nat) : ∀ y, openHead c d = some y → y.2.mem = c.mem := by
  grind [openHead, mem_takeFree, mem_jput, setExtent_mem]

@[simp] theorem mem_keepHeads (c : Chip) : (keepHeads c).mem = c.mem := by
  unfold keepHeads
  split
  · rfl
  · refine mem_foldl _ (fun c d => ?_) _ _
    (repeat' split) <;> first | rfl | exact mem_openHead _ _ _ ‹_›

theorem mem_headFor (c : Chip) (d len : Nat) : ∀ y, headFor c d len = some y → y.2.mem = c.mem := by
  intro r h
  unfold headFor at h
  split at h
  · split at h
    · cases h; rfl
    · exact (mem_openHead _ _ _ h).trans (by simp)
  · exact mem_openHead _ _ _ h

theorem mem_firstHead (c : Chip) (len : Nat) (a : List Nat) : ∀ y, firstHead c len a = some y → y.2.mem = c.mem := by
  fun_induction firstHead c len a <;> grind [mem_headFor]

@[simp] theorem mem_closeFull (c : Chip) (e : Nat) : (closeFull c e).mem = c.mem := by
  unfold closeFull
  split
  · rfl
  · split
    · next h => exact (mem_openHead _ _ _ h).trans (by simp)
    · simp

theorem mem_placeWrite (c : Chip) (dies : List Nat) (obj : FObj) (use : FUse) :
    ∀ y, placeWrite c dies obj use = some y → y.2.mem = c.mem := by
  intro r h
  unfold placeWrite at h
  split at h
  · cases h
  · next hf =>
    cases h
    simpa using mem_firstHead _ _ _ _ hf

@[simp] theorem mem_flashWriteTo (c : Chip) (part : Nat) (obj : FObj) (use : FUse) (avoid : Option Nat) :
    (flashWriteTo c part obj use avoid).2.2.mem = c.mem := by
  grind [flashWriteTo, mem_takeFree, mem_placeWrite, mem_setFld]

@[simp] theorem mem_flashWrite (c : Chip) (part : Nat) (obj : FObj) (use : FUse) :
    (flashWrite c part obj use).2.2.mem = c.mem := by
  simp [flashWrite]

@[simp] theorem mem_dropObject (c : Chip) (addr : Nat) : (dropObject c addr).mem = c.mem := by
  grind [dropObject, mem_eraseIfDead, mem_setFld]

@[simp] theorem mem_flashFreeOf (c : Chip) (addr len : Nat) : (flashFreeOf c addr len).2.mem = c.mem := by
  unfold flashFreeOf
  (repeat' split) <;> simp

@[simp] theorem mem_flashFree (c : Chip) (addr : Nat) : (flashFree c addr).mem = c.mem := by
  simp [flashFree]

@[simp] theorem mem_copyTo (c : Chip) (e t : Nat) : (copyTo c e t).mem = c.mem := by
  simp [copyTo]

@[simp] theorem mem_startCopy (c : Chip) (e : Nat) : (startCopy c e).mem = c.mem := by
  grind [startCopy, mem_takeFree, setExtent_mem, mem_copyTo]

@[simp] theorem mem_pumpCopies (c : Chip) : (pumpCopies c).mem = c.mem := by
  simp [pumpCopies, apply_ite Chip.mem, mem_foldl]

@[simp] theorem mem_pumpFlash (c : Chip) : (pumpFlash c).mem = c.mem := by
  simp [pumpFlash]

@[simp] theorem mem_flashRead (c : Chip) (addr : Nat) : (flashRead c addr).2.mem = c.mem := by
  grind [flashRead, mem_bumpPair, setExtent_mem]

@[simp] theorem mem_cancelWrite (c : Chip) (id : Nat) : (cancelWrite c id).mem = c.mem := by
  unfold cancelWrite
  split <;> simp

/-! ### Functions of Heap -/

theorem mem_heapAlloc (c : Chip) (p n : Nat) : ∀ y, heapAlloc c p n = some y → y.2.mem = c.mem := by
  grind [heapAlloc, mem_takeFree]

theorem mem_heapAllocs (c : Chip) (p : Nat) (a : List Nat) : ∀ y, heapAllocs c p a = some y → y.2.mem = c.mem := by
  induction a generalizing c with
  | nil => intro r h; cases h; rfl
  | cons n l ih =>
    intro r h
    unfold heapAllocs at h
    split at h
    · cases h
    · next ha =>
      split at h
      · cases h
      · next hl => cases h; exact (ih _ _ hl).trans (mem_heapAlloc _ _ _ _ ha)

@[simp] theorem mem_heapRelease (c : Chip) (a : Nat) : (heapRelease c a).mem = c.mem := by
  simp [heapRelease]

@[simp] theorem mem_noteLedger (was : Nat) (c : Chip) : (noteLedger was c).mem = c.mem := by
  unfold noteLedger
  split <;> simp

theorem mem_stageBlock (c : Chip) (part size : Nat) : ∀ y, stageBlock c part size = some y → y.2.2.mem = c.mem := by
  intro r h
  simp only [stageBlock] at h
  split at h
  · cases h
  · split at h
    · cases h
    · next ha => cases h; simpa using mem_heapAlloc _ _ _ _ ha

@[simp] theorem mem_dropGddr (c : Chip) (i : Nat) : (dropGddr c i).mem = c.mem := by
  unfold dropGddr
  split <;> simp

@[simp] theorem mem_freeBlock (c : Chip) (i : Nat) : (freeBlock c i).mem = c.mem := by
  grind [freeBlock, mem_dropGddr, mem_flashFree, setLedger_mem]

@[simp] theorem mem_releaseCopy (c : Chip) (i : Nat) : (releaseCopy c i).mem = c.mem := by
  unfold releaseCopy
  split <;> simp

@[simp] theorem mem_takeClaim (c : Chip) (i : Nat) : (takeClaim c i).mem = c.mem := by
  simp [takeClaim]

@[simp] theorem mem_dropClaim (c : Chip) (i : Nat) : (dropClaim c i).mem = c.mem := by
  simp [dropClaim]

@[simp] theorem mem_evictClaim (c : Chip) (i : Nat) : (evictClaim c i).mem = c.mem := by
  simp [evictClaim]

@[simp] theorem mem_refAdjust (c : Chip) (seq i : Nat) (up : Bool) : (refAdjust c seq i up).mem = c.mem := by
  grind [refAdjust, setLedger_mem, mem_freeBlock]

/-! ### Functions of Fig -/

@[simp] theorem mem_takeIndex (c : Chip) (i : Nat) : (takeIndex c i).mem = c.mem := by
  grind [takeIndex]

@[simp] theorem mem_putIndex (c : Chip) (i : Nat) : (putIndex c i).mem = c.mem := by
  unfold putIndex
  split <;> simp

@[simp] theorem mem_renewList (c : Chip) (p : Nat) : (renewList c p).mem = c.mem := by
  simp [renewList]

@[simp] theorem mem_takeRegion (c : Chip) (i : Nat) : (takeRegion c i).mem = c.mem := by
  unfold takeRegion
  split <;> simp

@[simp] theorem mem_sendOut (c : Chip) (n : Nat) (m : OutMsg) (seq : Nat) : (sendOut c n m seq).mem = c.mem := by
  unfold sendOut
  split <;> simp

@[simp] theorem mem_countJobEnd (c : Chip) (i status : Nat) (o : Op) : (countJobEnd c i status o).mem = c.mem := by
  unfold countJobEnd
  split <;> simp

@[simp] theorem mem_countTier (c : Chip) (status : Nat) : (countTier c status).mem = c.mem := by
  unfold countTier
  (repeat' split) <;> simp

@[simp] theorem mem_endOp (c : Chip) (i status : Nat) : (endOp c i status).mem = c.mem := by
  unfold endOp
  split <;> simp

@[simp] theorem mem_releaseAddr (c : Chip) (a : Nat) : (releaseAddr c a).mem = c.mem := by
  unfold releaseAddr
  split <;> simp

@[simp] theorem mem_recount (c : Chip) (i : Nat) : (recount c i).mem = c.mem := by
  simp [recount]

@[simp] theorem mem_releaseState (c : Chip) (i : Nat) : (releaseState c i).mem = c.mem := by
  grind [releaseState, mem_releaseAddr]

@[simp] theorem mem_releaseImage (c : Chip) (i : Nat) : (releaseImage c i).mem = c.mem := by
  grind [releaseImage, mem_flashFree, mem_cancelWrite]

@[simp] theorem mem_goCold (c : Chip) (i : Nat) : (goCold c i).mem = c.mem := by
  simp [goCold, mem_foldl]

@[simp] theorem mem_enterFree (c : Chip) (seq i : Nat) : (enterFree c seq i).mem = c.mem := by
  simp [enterFree, mem_foldl]

@[simp] theorem mem_replaceTable (c : Chip) (i : Nat) (blocks : Tbl Nat) (claims : List Nat) :
    (replaceTable c i blocks claims).mem = c.mem := by
  simp [replaceTable, mem_foldl]

@[simp] theorem mem_markApplied (c : Chip) (seq : Nat) (f : Figure) : (markApplied c seq f).mem = c.mem := by
  unfold markApplied
  refine mem_foldl _ (fun c a => ?_) _ _
  grind [setEntry_mem]

@[simp] theorem mem_afterOne (c : Chip) (seq : Nat) (a : After) : (afterOne c seq a).mem = c.mem := by
  unfold afterOne
  (repeat' split) <;> simp

@[simp] theorem mem_logWrite (c : Chip) (u : Nat) (l : List Byte) : (logWrite c u l).mem = c.mem := by
  simp [logWrite]

@[simp] theorem mem_commitFig (c : Chip) (f : Figure) : (commitFig c f).mem = c.mem := by
  simp [commitFig, apply_ite Chip.mem, mem_foldl]

@[simp] theorem mem_abortOpen (c : Chip) (f : Figure) : (abortOpen c f).mem = c.mem := by
  grind [abortOpen, mem_bump, mem_takeFine, mem_logWrite]

@[simp] theorem mem_openFig (c : Chip) (f : Figure) : (openFig c f).mem = c.mem := by
  unfold openFig
  split <;> simp

@[simp] theorem mem_countStalls (a : Nat) (a1 : Chip) : (countStalls a a1).mem = a1.mem := by
  induction a generalizing a1 with
  | zero => simp [countStalls]
  | succ k ih =>
    unfold countStalls
    (repeat' split) <;> simp [ih]

@[simp] theorem mem_releaseWaitingN (a : Nat) (a1 : Chip) : (releaseWaitingN a a1).mem = a1.mem := by
  fun_induction releaseWaitingN a a1 <;> grind [mem_commitFig]

@[simp] theorem mem_releaseWaiting (c : Chip) : (releaseWaiting c).mem = c.mem := by
  simp [releaseWaiting]

@[simp] theorem mem_damageSession (c : Chip) (i : Nat) : (damageSession c i).mem = c.mem := by
  grind [damageSession, mem_openFig]

/-! ### Functions of Text -/

@[simp] theorem mem_vocabMisses (c : Chip) (slot : Nat) : (vocabMisses c slot).mem = c.mem := by
  unfold vocabMisses
  split <;> simp

/-! ### Functions of Revive -/

@[simp] theorem mem_noteHeapLow (c : Chip) (p : Nat) : (noteHeapLow c p).mem = c.mem := by
  unfold noteHeapLow
  split <;> simp

@[simp] theorem mem_dropRevival (c : Chip) (i : Nat) : (dropRevival c i).mem = c.mem := by
  simp [dropRevival]

@[simp] theorem mem_claimBlock (c : Chip) (i k : Nat) : (claimBlock c i k).mem = c.mem := by
  simp [claimBlock]

theorem mem_startRead (c : Chip) (p k : Nat) : ∀ y, startRead c p k = some y → y.mem = c.mem := by
  intro r h
  unfold startRead at h
  split at h
  · cases h
  · next ha => cases h; simpa using mem_heapAlloc _ _ _ _ ha

theorem mem_startReads (c : Chip) (p : Nat) (a : List Nat) : ∀ y, startReads c p a = some y → y.mem = c.mem := by
  fun_induction startReads c p a <;> grind [mem_startRead]

theorem mem_beginRevival (c : Chip) (r : Revival) : ∀ y, beginRevival c r = some y → y.mem = c.mem := by
  intro y h
  unfold beginRevival at h
  extract_lets i e want flash busy here img c0 at h
  split at h
  · have h0 : c0.mem = c.mem := by
      unfold c0
      split
      · exact mem_fault ..
      · rfl
    rw [← Option.some.inj h, mem_damageSession, mem_dropRevival, h0]
  · split at h
    · exact nomatch h
    · split at h
      · exact nomatch h
      · split at h
        · exact nomatch h
        · split at h
          · exact nomatch h
          · next addrs c1 ha =>
            split at h
            · exact nomatch h
            · next c2 hs =>
              have hm := (mem_startReads _ _ _ _ hs).trans (mem_heapAllocs _ _ _ _ ha)
              rw [← Option.some.inj h, ← hm, setRevival_mem, mem_bumpPair]
              split
              · rw [mem_flashRead, mem_foldl _ (fun c k => mem_claimBlock _ _ _)]
              · rw [mem_foldl _ (fun c k => mem_claimBlock _ _ _)]

@[simp] theorem mem_pumpRevivals (c : Chip) : (pumpRevivals c).mem = c.mem := by
  unfold pumpRevivals
  refine mem_foldl _ (fun c d => ?_) _ _
  (repeat' split) <;> first | exact mem_beginRevival _ _ _ ‹_› | simp

@[simp] theorem mem_startRevival (c : Chip) (i deadline order : Nat) :
    (startRevival c i deadline order).mem = c.mem := by
  simp [startRevival]

@[simp] theorem mem_releaseImageSpace (c : Chip) (r : Revival) : (releaseImageSpace c r).mem = c.mem := by
  unfold releaseImageSpace
  split <;> simp

@[simp] theorem mem_abandonRevival (c : Chip) (i : Nat) : (abandonRevival c i).mem = c.mem := by
  unfold abandonRevival
  (repeat' split) <;> simp [mem_foldl]

@[simp] theorem mem_failRevival (c : Chip) (i : Nat) : (failRevival c i).mem = c.mem := by
  unfold failRevival
  (repeat' split) <;> simp [mem_foldl]

@[simp] theorem mem_damageBlock (c : Chip) (k : Nat) : (damageBlock c k).mem = c.mem := by
  simp [damageBlock, mem_foldl]

@[simp] theorem mem_flashCopyBad (c : Chip) (k : Nat) : (flashCopyBad c k).mem = c.mem := by
  simp [flashCopyBad]

@[simp] theorem mem_cancelEvict (c : Chip) (i : Nat) : (cancelEvict c i).mem = c.mem := by
  unfold cancelEvict
  (repeat' split) <;> simp

/-! ### Functions of FlashOps -/

@[simp] theorem mem_hurtSession (c : Chip) (i : Nat) : (hurtSession c i).mem = c.mem := by
  unfold hurtSession
  split <;> simp

@[simp] theorem mem_blockLost (c : Chip) (k : Nat) : (blockLost c k).mem = c.mem := by
  unfold blockLost
  (repeat' split) <;> simp

@[simp] theorem mem_endCopy (c : Chip) (e : Nat) : (endCopy c e).mem = c.mem := by
  grind [endCopy, mem_takeFree, setExtent_mem, mem_bumpPair, mem_jput, mem_retire, mem_startErase, mem_pumpFlash,
    mem_eraseIfDead]

@[simp] theorem mem_relocateAll (c : Chip) (e : Nat) : (relocateAll c e).mem = c.mem := by
  unfold relocateAll
  split
  · rfl
  · refine mem_foldl _ (fun c d => ?_) _ _
    dsimp only
    split
    · simp
    · next h => exact (mem_placeWrite _ _ _ _ _ h).trans (by simp)

@[simp] theorem mem_replaceWrite (c : Chip) (w : FWrite) : (replaceWrite c w).mem = c.mem := by
  unfold replaceWrite
  dsimp only
  split
  · next h => simpa using mem_placeWrite _ _ _ _ _ h
  · split <;> simp

@[simp] theorem mem_replaceWrites (c : Chip) (e : Nat) : (replaceWrites c e).mem = c.mem := by
  simp [replaceWrites, mem_foldl]

@[simp] theorem mem_dropCopy (c : Chip) (e : Nat) : (dropCopy c e).mem = c.mem := by
  unfold dropCopy
  split <;> simp

@[simp] theorem mem_moveWhole (c : Chip) (e : Nat) : (moveWhole c e).mem = c.mem := by
  unfold moveWhole
  (repeat' split) <;> simp

/-! ### Functions of Offer -/

@[simp] theorem mem_offerBegin (c : Chip) (i : Nat) (o : Op) (toConn notify : BitVec 16) :
    (offerBegin c i o toConn notify).mem = c.mem := by
  simp [offerBegin]

/-! ### Functions of Sess -/

@[simp] theorem mem_answerReq (c : Chip) (n : Nat) (handle : Word) (tag : DWord) (code status : Nat) (e : Session)
    (aux : Nat) :
    (answerReq c n handle tag code status e aux).mem = c.mem := by
  simp [answerReq]

@[simp] theorem mem_rejectReq (c : Chip) (n : Nat) (handle : Word) (tag : DWord) (code status : Nat) :
    (rejectReq c n handle tag code status).mem = c.mem := by
  simp [rejectReq]

@[simp] theorem mem_applyAfters (c : Chip) (l : List After) : (applyAfters c l).mem = c.mem := by
  simp [applyAfters, mem_foldl]

@[simp] theorem mem_endNow (c : Chip) (i : Nat) (o : Op) (status : Nat) : (endNow c i o status).mem = c.mem := by
  simp [endNow]

@[simp] theorem mem_figOp (c : Chip) (i : Nat) (o : Op) (new : Session) (acts : List Action) (aux : Nat)
    (more : List After) :
    (figOp c i o new acts aux more).mem = c.mem := by
  grind [figOp, mem_endNow, mem_openFig]

@[simp] theorem mem_setHead (c : Chip) (i : Nat) (o : Op) : (setHead c i o).mem = c.mem := by
  unfold setHead
  split <;> simp

@[simp] theorem mem_reviveOrReady (c : Chip) (i : Nat) (o ready : Op) : (reviveOrReady c i o ready).mem = c.mem := by
  grind [reviveOrReady, mem_endNow, mem_startRevival, mem_setHead]

@[simp] theorem mem_appendTokens (c : Chip) (i : Nat) (o : Op) (l : List Nat) : (appendTokens c i o l).mem = c.mem := by
  grind [appendTokens, mem_endNow, mem_reviveOrReady]

@[simp] theorem mem_appendBegin (c : Chip) (i : Nat) (o : Op) (src : AppendSrc) :
    (appendBegin c i o src).mem = c.mem := by
  unfold appendBegin
  (repeat' split) <;> simp

@[simp] theorem mem_generateBegin (c : Chip) (i : Nat) (o : Op) (req : GenReq) :
    (generateBegin c i o req).mem = c.mem := by
  grind [generateBegin, mem_endNow, mem_reviveOrReady]

@[simp] theorem mem_excludeBegin (c : Chip) (i : Nat) (o : Op) (a b : Nat) : (excludeBegin c i o a b).mem = c.mem := by
  grind [excludeBegin, mem_endNow, mem_takeFree, mem_figOp]

@[simp] theorem mem_endBegin (c : Chip) (i : Nat) (o : Op) (secure : Bool) : (endBegin c i o secure).mem = c.mem := by
  simp [endBegin]

@[simp] theorem mem_cleanRevivals (c : Chip) : (cleanRevivals c).mem = c.mem := by
  simp [cleanRevivals, mem_foldl]

@[simp] theorem mem_preemptWaiting (c : Chip) (i : Nat) : (preemptWaiting c i).mem = c.mem := by
  grind [preemptWaiting, mem_setHead, mem_bump, mem_endNow, setOps_mem]

@[simp] theorem mem_enqueue (c : Chip) (i code conn : Nat) (tag : DWord) (handle : Word) (arg : OpArg) :
    (enqueue c i code conn tag handle arg).mem = c.mem := by
  grind [enqueue, setOps_mem, mem_cancelEvict, mem_raise, mem_preemptWaiting]

@[simp] theorem mem_zeroCores (c : Chip) (p : Nat) : (zeroCores c p).mem = c.mem := by
  simp [zeroCores]

@[simp] theorem mem_tokeniseDone (c : Chip) (i : Nat) : (tokeniseDone c i).mem = c.mem := by
  unfold tokeniseDone
  dsimp only
  (repeat' split) <;> simp

/-! ### Functions of Tier -/

@[simp] theorem mem_imageRead (c : Chip) (r : Revival) : (imageRead c r).2.mem = c.mem := by
  unfold imageRead
  split <;> simp

@[simp] theorem mem_noteRetry (c : Chip) (res : ReadResult) : (noteRetry c res).mem = c.mem := by
  fun_cases noteRetry c res <;> grind [mem_bump]

@[simp] theorem mem_sweepStart (c : Chip) : (sweepStart c).mem = c.mem := by
  simp [sweepStart]

@[simp] theorem mem_sweepEnd (c : Chip) : (sweepEnd c).mem = c.mem := by
  simp [sweepEnd, apply_ite Chip.mem, mem_foldl]

@[simp] theorem mem_countUe (c : Chip) (a : Nat) : (countUe c a).mem = c.mem := by
  simp [countUe]

@[simp] theorem mem_retrain (c : Chip) (ch : Nat) (ok : Bool) : (retrain c ch ok).mem = c.mem := by
  unfold retrain
  split <;> simp

/-! ### Functions of Grid -/

@[simp] theorem mem_progError (c : Chip) (n kind : Nat) : (progError c n kind).mem = c.mem := by
  unfold progError
  split <;> simp

@[simp] theorem mem_wakeCore (c : Chip) (n : Nat) : (wakeCore c n).mem = c.mem := by
  grind [wakeCore, setCore_mem]

@[simp] theorem mem_stopMarking (c : Chip) (n : Nat) : (stopMarking c n).mem = c.mem := by
  grind [stopMarking]

@[simp] theorem mem_releaseBarrier (c : Chip) (n b : Nat) : (releaseBarrier c n b).mem = c.mem := by
  unfold releaseBarrier
  extract_lets members
  split
  · exact (mem_foldl _ (fun c m => mem_stopMarking c m) _ _).trans (mem_foldl _ (fun c m => setCore_mem c m _) _ _)
  · rfl

@[simp] theorem mem_deliver (c : Chip) (dst tag : Nat) (data : List Byte) : (deliver c dst tag data).mem = c.mem := by
  grind [deliver, mem_progError, mem_wakeCore, setCore_mem]

@[simp] theorem mem_pumpSends (a : Nat) (a1 : Chip) (a2 : Nat) : (pumpSends a a1 a2).mem = a1.mem := by
  fun_induction pumpSends a a1 a2 <;> grind [mem_deliver, setCore_mem]

@[simp] theorem mem_pumpCore (c : Chip) (n : Nat) : (pumpCore c n).mem = c.mem := by
  simp [pumpCore]

@[simp] theorem mem_messageArrival (c : Chip) (src dst tag : Nat) : (messageArrival c src dst tag).mem = c.mem := by
  grind [messageArrival, mem_takeFree, mem_bump, setCore_mem, mem_pumpCore, mem_deliver]

@[simp] theorem mem_putPieces (c : Chip) (n : Nat) (d : Desc) (bad : Bool) (l : List (Nat × List Byte)) :
    (putPieces c n d bad l).mem = c.mem := by
  unfold putPieces
  split <;> simp

@[simp] theorem mem_markBad (c : Chip) (idxs : List Nat) : (markBad c idxs).mem = c.mem := by
  simp [markBad]

@[simp] theorem mem_startTest (c : Chip) (n : Nat) : (startTest c n).mem = c.mem := by
  simp [startTest]

@[simp] theorem mem_pumpTests (a : Nat) (a1 : Chip) : (pumpTests a a1).mem = a1.mem := by
  fun_induction pumpTests a a1 <;> grind [mem_startTest, setCore_mem]

@[simp] theorem mem_runTests (c : Chip) : (runTests c).mem = c.mem := by
  simp [runTests]

@[simp] theorem mem_requestTest (c : Chip) (n : Nat) : (requestTest c n).mem = c.mem := by
  unfold requestTest
  split <;> simp

theorem mem_coreCtrl (c : Chip) (n : Nat) (w : Word) : ∀ y, coreCtrl c n w = some y → y.mem = c.mem := by
  grind [coreCtrl, mem_startTest, setCore_mem, mem_requestTest]

@[simp] theorem mem_becomeLame (c : Chip) (n : Nat) : (becomeLame c n).mem = c.mem := by
  grind [becomeLame, mem_raise, setCore_mem, mem_requestTest]

@[simp] theorem mem_lameEval (c : Chip) : (lameEval c).mem = c.mem := by
  simp [lameEval, apply_ite Chip.mem, mem_foldl]

@[simp] theorem mem_addSample (c : Chip) (n cycles : Nat) : (addSample c n cycles).mem = c.mem := by
  grind [addSample, mem_takeFree, setCore_mem]

@[simp] theorem mem_rotateTest (c : Chip) : (rotateTest c).mem = c.mem := by
  grind [rotateTest, mem_requestTest, mem_raise]

@[simp] theorem mem_coreTested (c : Chip) (n : Nat) (res : TestResult) : (coreTested c n res).mem = c.mem := by
  unfold coreTested
  split <;> simp

@[simp] theorem mem_coreTestEnd (c : Chip) (n : Nat) (res : TestResult) : (coreTestEnd c n res).mem = c.mem := by
  unfold coreTestEnd
  split <;> simp

@[simp] theorem mem_gridTesting (c : Chip) : (gridTesting c).mem = c.mem := by
  simp [gridTesting, mem_foldl]

@[simp] theorem mem_gridTestedCore (pass : Bool) (c : Chip) (n : Nat) : (gridTestedCore pass c n).mem = c.mem := by
  grind [gridTestedCore, mem_takeFree, mem_coreTested, setCore_mem]

@[simp] theorem mem_gridTested (c : Chip) (pass : Bool) : (gridTested c pass).mem = c.mem := by
  simp [gridTested, mem_foldl]

@[simp] theorem mem_storeDouble (c : Chip) (n : Nat) : (storeDouble c n).mem = c.mem := by
  grind [storeDouble, mem_requestTest, mem_fault, mem_startTest]

@[simp] theorem mem_reloadFailed (c : Chip) (n : Nat) : (reloadFailed c n).mem = c.mem := by
  grind [reloadFailed, mem_startTest]

@[simp] theorem mem_coreStoreScrub (c : Chip) (n single : Nat) (double reloadFails : Bool) :
    (coreStoreScrub c n single double reloadFails).mem = c.mem := by
  unfold coreStoreScrub
  (repeat' split) <;> simp

@[simp] theorem mem_faultReport (c : Chip) (f : FaultRep) : (faultReport c f).mem = c.mem := by
  grind [faultReport, mem_report, mem_requestTest]

@[simp] theorem mem_placeCore (c : Chip) (n owner : Nat) (block : List Byte) (prog : Nat) :
    (placeCore c n owner block prog).mem = c.mem := by
  grind [placeCore, mem_stopMarking, setCore_mem]

@[simp] theorem mem_gridOn (c : Chip) : (gridOn c).mem = c.mem := by
  simp [gridOn, apply_ite Chip.mem, mem_foldl]

/-! ### Functions of Oper -/

@[simp] theorem mem_giveCredit (c : Chip) (src dst tag : Nat) : (giveCredit c src dst tag).mem = c.mem := by
  unfold giveCredit
  split <;> simp

/-! ### Functions of Attn -/

@[simp] theorem mem_formSpans (c : Chip) (e : Engine) : (formSpans c e).2.mem = c.mem := by
  grind [formSpans, mem_setFld]

@[simp] theorem mem_attendLayer (c : Chip) (e : Engine) (s : LayerShape) (queries : List RowQueries) (ws : List Work) :
    (attendLayer c e s queries ws).2.mem = c.mem := by
  grind [attendLayer, mem_takeFree]

/-! ### Functions of Sched -/

@[simp] theorem mem_ratioAtBoundary (c : Chip) (p : Nat) : (ratioAtBoundary c p).mem = c.mem := by
  grind [ratioAtBoundary, setSched_mem]

theorem mem_stageBlocks (c : Chip) (part : Nat) (a : List Nat) :
    ∀ y, stageBlocks c part a = some y → y.2.mem = c.mem := by
  induction a generalizing c with
  | nil => intro r h; cases h; rfl
  | cons n l ih =>
    intro r h
    unfold stageBlocks at h
    split at h
    · cases h
    · next ha =>
      split at h
      · cases h
      · next hl => cases h; exact (ih _ _ hl).trans (mem_stageBlock _ _ _ _ ha)

@[simp] theorem mem_reserveSeals (c : Chip) (ws : List Work) : (reserveSeals c ws).2.mem = c.mem := by
  unfold reserveSeals
  refine mem_foldl_snd _ (fun x w => ?_) _ _
  dsimp only
  split
  · next h =>
    split at h
    · exact mem_stageBlocks _ _ _ _ h
    · cases h
  · rfl

@[simp] theorem mem_serveSeals (c : Chip) (late : List Word) (a : Nat) (a3 : List (Nat × Op)) :
    (serveSeals c late a a3).2.2.mem = c.mem := by
  fun_induction serveSeals c late a a3 <;> grind [mem_reserveSeals]

@[simp] theorem mem_offerCore (c : Chip) (n owner : Nat) (block : List Byte) (prog : Nat) :
    (offerCore c n owner block prog).mem = c.mem := by
  grind [offerCore, mem_placeCore, setCore_mem]

@[simp] theorem mem_startQueued (c : Chip) (n : Nat) : (startQueued c n).mem = c.mem := by
  grind [startQueued, mem_placeCore, setCore_mem]

@[simp] theorem mem_releaseGroup (c : Chip) (p : Nat) (k : EngineKind) (cores : List Nat) (prog phase : Nat) :
    (releaseGroup c p k cores prog phase).mem = c.mem := by
  simp [releaseGroup, mem_foldl]

@[simp] theorem mem_releaseLayer (c : Chip) (p : Nat) (e : Engine) : (releaseLayer c p e).mem = c.mem := by
  simp [releaseLayer, apply_ite Chip.mem, mem_foldl]

@[simp] theorem mem_placeLayer (c : Chip) (p : Nat) (st : Step) (e : Engine) : (placeLayer c p st e).2.mem = c.mem := by
  grind [placeLayer, mem_raise, mem_formSpans, mem_releaseLayer]

@[simp] theorem mem_placeDraft (c : Chip) (p : Nat) (st : Step) (level : Nat) :
    (placeDraft c p st level).mem = c.mem := by
  grind [placeDraft, mem_raise, mem_takeFree, mem_releaseGroup, setSched_mem]

@[simp] theorem mem_placeWaiting (c0 : Chip) (p : Nat) : (placeWaiting c0 p).mem = c0.mem := by
  unfold placeWaiting
  dsimp only
  (repeat' split) <;> simp [mem_foldl]
  refine (mem_foldl_snd _ (fun x e => ?_) _ _).trans (by simp [mem_foldl])
  split <;> simp

@[simp] theorem mem_leftOut (c : Chip) (p n : Nat) : (leftOut c p n).mem = c.mem := by
  unfold leftOut
  split <;> simp

@[simp] theorem mem_setRowPoint (c : Chip) (y v : Nat) : (setRowPoint c y v).mem = c.mem := by
  simp [setRowPoint]

@[simp] theorem mem_setRowPoints (c : Chip) (ys : List Nat) (v : Nat) : (setRowPoints c ys v).mem = c.mem := by
  simp [setRowPoints, mem_foldl]

@[simp] theorem mem_exploreStep (c : Chip) (p : Nat) (k : EngineKind) : (exploreStep c p k).mem = c.mem := by
  grind [exploreStep, mem_setRowPoints]

@[simp] theorem mem_freeStaged (c : Chip) (l : List Nat) : (freeStaged c l).mem = c.mem := by
  simp [freeStaged, mem_foldl]

@[simp] theorem mem_preemptRunning (c : Chip) (i : Nat) : (preemptRunning c i).mem = c.mem := by
  unfold preemptRunning
  (repeat' split) <;> simp

@[simp] theorem mem_dueAtBoundary (c : Chip) (p : Nat) : (dueAtBoundary c p).mem = c.mem := by
  simp [dueAtBoundary]

@[simp] theorem mem_ratioJudge (c : Chip) (p : Nat) : (ratioJudge c p).mem = c.mem := by
  grind [ratioJudge, setSched_mem, mem_raise]

@[simp] theorem mem_activationsArrived (c : Chip) (p : Nat) (waited compute : Word) :
    (activationsArrived c p waited compute).mem = c.mem := by
  unfold activationsArrived
  (repeat' split) <;> simp

/-! ### Functions of StepEnd -/

@[simp] theorem mem_countDraw (c : Chip) (i : Nat) (req : GenReq) (w : Work) (r : Nat) (d : Drawn) :
    (countDraw c i req w r d).mem = c.mem := by
  grind [countDraw, mem_takeFree, mem_bumpPair, mem_vocabMisses, mem_raise, mem_setFld, mem_bump]

@[simp] theorem mem_drawWork (c : Chip) (res : LayerResult) (w : Work) : (drawWork c res w).2.mem = c.mem := by
  unfold drawWork
  split
  · rfl
  · split
    · rfl
    · refine mem_foldl_snd _ (fun x w => ?_) _ _
      dsimp only
      split <;> simp

@[simp] theorem mem_sendOutputs (c : Chip) (bytes : List Byte) : (sendOutputs c bytes).mem = c.mem := by
  simp [sendOutputs]

@[simp] theorem mem_endEngine (c : Chip) (e : Engine) (res : LayerResult) : (endEngine c e res).2.mem = c.mem := by
  simp [endEngine, apply_ite Chip.mem, mem_foldl_snd]

@[simp] theorem mem_echoChains (c : Chip) (o : Op) (b : SpecBlock) (root : Nat) :
    (echoChains c o b root).2.mem = c.mem := by
  unfold echoChains
  (repeat' split) <;> simp

@[simp] theorem mem_draftBegin (c : Chip) (i : Nat) (b : SpecBlock) : (draftBegin c i b).2.mem = c.mem := by
  unfold draftBegin
  (repeat' split) <;> simp

@[simp] theorem mem_buildTree (c : Chip) (i : Nat) (o : Op) (req : GenReq) (stack : List Nat) (root : Nat) :
    (buildTree c i o req stack root).2.2.mem = c.mem := by
  grind [buildTree, mem_echoChains, mem_draftBegin]

@[simp] theorem mem_advanceHost (c : Chip) (o : Op) (req : GenReq) (l : List Nat) :
    (advanceHost c o req l).2.mem = c.mem := by
  unfold advanceHost
  (repeat' split) <;> simp

@[simp] theorem mem_carryToken (c : Chip) (i : Nat) (o : Op) (req : GenReq) (path seen : List Nat) (x : Nat) :
    (carryToken c i o req path seen x).2.mem = c.mem := by
  grind [carryToken, mem_advanceHost, mem_buildTree]

@[simp] theorem mem_unreserve (c : Chip) (w : Work) : (unreserve c w).mem = c.mem := by
  simp [unreserve]

@[simp] theorem mem_voidWork (c : Chip) (w : Work) : (voidWork c w).mem = c.mem := by
  simp [voidWork]

@[simp] theorem mem_abortWork (c : Chip) (w : Work) : (abortWork c w).mem = c.mem := by
  unfold abortWork
  split <;> simp

@[simp] theorem mem_countBatch (c : Chip) (i : Nat) (l : List Nat) : (countBatch c i l).2.mem = c.mem := by
  unfold countBatch
  (repeat' split) <;> simp

@[simp] theorem mem_closeStep (c : Chip) (p : Nat) (tail : Option StepTail) : (closeStep c p tail).mem = c.mem := by
  simp [closeStep]

@[simp] theorem mem_draftLevel (c : Chip) (level : Nat) (l : List (Word × List Word)) (x : Nat × Op) :
    (draftLevel c level l x).mem = c.mem := by
  grind [draftLevel, mem_setHead]

/-! ### Functions of Xpt -/

@[simp] theorem mem_sendAck (c : Chip) (n : Nat) : (sendAck c n).mem = c.mem := by
  simp [sendAck]

@[simp] theorem mem_unpend (c : Chip) (n : Nat) (s : Word) : (unpend c n s).mem = c.mem := by
  simp [unpend]

@[simp] theorem mem_sendNak (c : Chip) (n : Nat) (s : Word) (st : Nat) : (sendNak c n s st).mem = c.mem := by
  simp [sendNak]

@[simp] theorem mem_rxGate (c : Chip) (l : Link) (p : Pkt) : (rxGate c l p).2.mem = c.mem := by
  grind [rxGate, mem_bump]

@[simp] theorem mem_countRx (c : Chip) (l : Link) : (countRx c l).mem = c.mem := by
  simp [countRx]

@[simp] theorem mem_rxSeq (c : Chip) (n : Nat) (p : Pkt) (l : Link) : (rxSeq c n p l).2.mem = c.mem := by
  grind [rxSeq, mem_bump, mem_sendAck, mem_countRx, setConn_mem]

@[simp] theorem mem_violRecord (c : Chip) (n i : Nat) (p : Pkt) (chk len : Nat) :
    (violRecord c n i p chk len).mem = c.mem := by
  grind [violRecord, mem_takeFree, mem_takeFine, setRegion_mem, mem_sendMsg]

@[simp] theorem mem_refuseAccess (c : Chip) (n : Nat) (p : Pkt) (len chk : Nat) :
    (refuseAccess c n p len chk).mem = c.mem := by
  unfold refuseAccess
  (repeat' split) <;> simp

@[simp] theorem mem_noteOp (c : Chip) (n : Nat) (p : Pkt) : (noteOp c n p).mem = c.mem := by
  grind [noteOp, setConn_mem]

@[simp] theorem mem_addAcc (c : Chip) (n : Nat) (p : Pkt) (isRead : Bool) : (addAcc c n p isRead).mem = c.mem := by
  simp [addAcc]

@[simp] theorem mem_dropAcc (c : Chip) (a : RemAcc) : (dropAcc c a).mem = c.mem := by
  simp [dropAcc]

@[simp] theorem mem_writeAccess (c : Chip) (n : Nat) (p : Pkt) : (writeAccess c n p).mem = c.mem := by
  grind [writeAccess, mem_sendNak, mem_noteOp, mem_refuseAccess, mem_addAcc]

@[simp] theorem mem_readAccess (c : Chip) (n : Nat) (p : Pkt) : (readAccess c n p).mem = c.mem := by
  grind [readAccess, mem_sendNak, mem_noteOp, mem_refuseAccess, mem_unpend, mem_addAcc, mem_settleEvents, mem_sendAll]

@[simp] theorem mem_fullyRead (c : Chip) (n : Nat) (s : Word) : (fullyRead c n s).mem = c.mem := by
  unfold fullyRead
  split <;> simp

@[simp] theorem mem_nakAll (c : Chip) (n : Nat) (l : List Pkt) (st : Nat) : (nakAll c n l st).mem = c.mem := by
  simp [nakAll, mem_foldl]

@[simp] theorem mem_msgStep (c : Chip) (n : Nat) (p : Pkt) : (msgStep c n p).mem = c.mem := by
  grind [msgStep, mem_sendNak, setConn_mem, mem_nakAll]

@[simp] theorem mem_assemble (a : Nat) (a1 : Chip) (a2 : Nat) : (assemble a a1 a2).mem = a1.mem := by
  fun_induction assemble a a1 a2 <;> grind [mem_msgStep, setConn_mem]

@[simp] theorem mem_assembleAll (c : Chip) (n : Nat) : (assembleAll c n).mem = c.mem := by
  simp [assembleAll]

@[simp] theorem mem_msgAccess (c : Chip) (n : Nat) (p : Pkt) : (msgAccess c n p).mem = c.mem := by
  simp [msgAccess]

@[simp] theorem mem_rateDown (c : Chip) (n : Nat) : (rateDown c n).mem = c.mem := by
  grind [rateDown, mem_takeFree, setConn_mem]

@[simp] theorem mem_rateUp (c : Chip) (n : Nat) : (rateUp c n).mem = c.mem := by
  grind [rateUp, setConn_mem]

@[simp] theorem mem_resendGaps (c : Chip) (n : Nat) (p : Pkt) : (resendGaps c n p).mem = c.mem := by
  simp [resendGaps, mem_foldl_fst]

@[simp] theorem mem_pumpConn (c : Chip) (n : Nat) : (pumpConn c n).mem = c.mem := by
  simp [pumpConn]

@[simp] theorem mem_ackRx (c : Chip) (n : Nat) (p : Pkt) : (ackRx c n p).2.mem = c.mem := by
  unfold ackRx
  split <;> simp

@[simp] theorem mem_nakRx (c : Chip) (n : Nat) (p : Pkt) : (nakRx c n p).2.mem = c.mem := by
  grind [nakRx, setConn_mem, mem_raise, mem_pumpConn]

@[simp] theorem mem_forgetUse (c : Chip) (n : Nat) (u : InitUse) : (forgetUse c n u).mem = c.mem := by
  simp [forgetUse]

@[simp] theorem mem_dropWaiting (c : Chip) (n : Nat) : (dropWaiting c n).mem = c.mem := by
  grind [dropWaiting, setConn_mem, mem_raise, mem_bump]

@[simp] theorem mem_dropRequester (c : Chip) (n : Nat) : (dropRequester c n).mem = c.mem := by
  simp [dropRequester]

@[simp] theorem mem_connFail (c : Chip) (n : Nat) : (connFail c n).2.mem = c.mem := by
  simp [connFail]

@[simp] theorem mem_rtoExpiry (c : Chip) (n : Nat) (s : Word) : (rtoExpiry c n s).2.mem = c.mem := by
  grind [rtoExpiry, mem_connFail, setConn_mem, mem_bump, mem_sendControl, mem_settleEvents, mem_sendAgain]

@[simp] theorem mem_closeConn (c : Chip) (n : Nat) : (closeConn c n).mem = c.mem := by
  simp [closeConn]

@[simp] theorem mem_connOpen (c : Chip) (n : Nat) : (connOpen c n).2.mem = c.mem := by
  grind [connOpen, mem_takeFree, mem_sendControl, setConn_mem]

@[simp] theorem mem_setRemote (c : Chip) (n : Nat) (l : Link) : (setRemote c n l).mem = c.mem := by
  simp [setRemote, apply_ite Chip.mem, mem_foldl]

@[simp] theorem mem_refuseConnect (c : Chip) (l : Link) (p : Pkt) (st : Nat) :
    (refuseConnect c l p st).mem = c.mem := by
  unfold refuseConnect
  split <;> simp

@[simp] theorem mem_acceptConnect (c : Chip) (l : Link) (p : Pkt) (n : Nat) : (acceptConnect c l p n).mem = c.mem := by
  grind [acceptConnect, mem_takeFree, mem_setRemote, setConn_mem, mem_setFldB, mem_raise, mem_sendControl]

@[simp] theorem mem_connectRx (c : Chip) (l : Link) (p : Pkt) : (connectRx c l p).mem = c.mem := by
  grind [connectRx, mem_bump, mem_countRx, mem_sendControl, mem_refuseConnect, mem_acceptConnect]

@[simp] theorem mem_connectAckRx (c : Chip) (l : Link) (p : Pkt) : (connectAckRx c l p).mem = c.mem := by
  grind [connectAckRx, mem_rxGate, mem_countRx, setConn_mem, mem_pumpConn, mem_connFail]

@[simp] theorem mem_startClosing (c : Chip) (n : Nat) : (startClosing c n).2.mem = c.mem := by
  simp [startClosing]

@[simp] theorem mem_closeRx (c : Chip) (l : Link) (p : Pkt) : (closeRx c l p).2.2.mem = c.mem := by
  grind [closeRx, mem_rxGate, mem_countRx, mem_startClosing, mem_dropRequester, setConn_mem]

@[simp] theorem mem_connClosed (c : Chip) (n : Nat) : (connClosed c n).mem = c.mem := by
  grind [connClosed, mem_closeConn]

@[simp] theorem mem_connMgmt (c : Chip) (n : Nat) : (connMgmt c n).2.mem = c.mem := by
  grind [connMgmt, mem_raise, setConn_mem]

@[simp] theorem mem_connUnmgmt (c : Chip) (n : Nat) : (connUnmgmt c n).2.mem = c.mem := by
  grind [connUnmgmt, mem_dropRequester, mem_setFldB, setConn_mem]

@[simp] theorem mem_connRelease (c : Chip) (n : Nat) : (connRelease c n).2.mem = c.mem := by
  unfold connRelease
  split <;> simp

@[simp] theorem mem_answerRegion (c : Chip) (n st op : Nat) (tag : Word) (reqTag : DWord) (len : Nat) :
    (answerRegion c n st op tag reqTag len).mem = c.mem := by
  simp [answerRegion]

@[simp] theorem mem_takeRange (c : Chip) (i p base len : Nat) (write read landing : Bool) (conn notify reply : Nat)
    (tag : DWord) :
    (takeRange c i p base len write read landing conn notify reply tag).mem = c.mem := by
  simp [takeRange]

@[simp] theorem mem_remoteWrite (c : Chip) (n : Nat) (tag : Word) (off : Nat) (data : List Byte) (u : InitUse) :
    (remoteWrite c n tag off data u).mem = c.mem := by
  simp [remoteWrite]

/-! ### Functions of Cut -/

@[simp] theorem mem_sendCut (c : Chip) (n : Nat) (m : CutMsg) : (sendCut c n m).mem = c.mem := by
  simp [sendCut]

@[simp] theorem mem_abortWaiting (c : Chip) (i : Nat) : (abortWaiting c i).mem = c.mem := by
  simp [abortWaiting, mem_foldl]

@[simp] theorem mem_releaseRest (c : Chip) (base len : Nat) : (releaseRest c base len).mem = c.mem := by
  simp [releaseRest]

@[simp] theorem mem_acceptOffer (c : Chip) (n p slot k g base : Nat) (m : CutMsg) :
    (acceptOffer c n p slot k g base m).mem = c.mem := by
  simp [acceptOffer]

@[simp] theorem mem_offerRx (c : Chip) (n : Nat) (m : CutMsg) : (offerRx c n m).mem = c.mem := by
  have hd : ∀ st, (raise (sendCut c n (declineMsg m st m.epoch.toNat)) .cut 20).mem = c.mem := fun st => by
    rw [mem_raise, mem_sendCut]
  fun_cases offerRx c n m
  case case1 => exact mem_sendCut ..
  case case2 => rfl
  case case3 => rfl
  case case4 => exact hd _
  case case5 h _ _ _ =>
    rw [mem_acceptOffer]
    split at h
    · exact mem_heapAlloc _ _ _ _ h
    · exact nomatch h
  case case6 => exact hd _

@[simp] theorem mem_splitLanding (c : Chip) (base len part : Nat) (l : List (Nat × Nat)) :
    (splitLanding c base len part l).mem = c.mem := by
  unfold splitLanding
  split <;> simp

@[simp] theorem mem_declineImage (c : Chip) (r : CutRec) (st : Nat) : (declineImage c r st).mem = c.mem := by
  simp [declineImage]

@[simp] theorem mem_settleArrival (c : Chip) (i : Nat) (r : CutRec) : (settleArrival c i r).mem = c.mem := by
  simp [settleArrival]

@[simp] theorem mem_settleBare (c : Chip) (i : Nat) : (settleBare c i).mem = c.mem := by
  simp [settleBare]

@[simp] theorem mem_doneRx (c : Chip) (n : Nat) (m : CutMsg) : (doneRx c n m).mem = c.mem := by
  unfold doneRx
  (repeat' split) <;> simp

@[simp] theorem mem_srcReturn (c : Chip) (i : Nat) (r : CutRec) (epoch st : Nat) (msg : Option Byte) :
    (srcReturn c i r epoch st msg).mem = c.mem := by
  unfold srcReturn
  (repeat' split) <;> simp

@[simp] theorem mem_srcWithdraw (c : Chip) (i : Nat) (r : CutRec) (st : Nat) : (srcWithdraw c i r st).mem = c.mem := by
  simp [srcWithdraw]

@[simp] theorem mem_imageAcked (c : Chip) (i : Nat) : (imageAcked c i).mem = c.mem := by
  unfold imageAcked
  (repeat' split) <;> simp

@[simp] theorem mem_srcDone (c : Chip) (i : Nat) (r : CutRec) : (srcDone c i r).mem = c.mem := by
  simp [srcDone]

@[simp] theorem mem_confirmRx (c : Chip) (n : Nat) (m : CutMsg) : (confirmRx c n m).mem = c.mem := by
  grind [confirmRx, mem_srcDone, mem_sendCut]

@[simp] theorem mem_declineRx (c : Chip) (n : Nat) (m : CutMsg) : (declineRx c n m).mem = c.mem := by
  grind [declineRx, mem_raise, mem_srcReturn]

@[simp] theorem mem_probeSrc (c : Chip) (n : Nat) (m : CutMsg) (r : Option CutRec) (i : Option Nat) :
    (probeSrc c n m r i).mem = c.mem := by
  unfold probeSrc
  (repeat' split) <;> simp

@[simp] theorem mem_probeRx (c : Chip) (n : Nat) (m : CutMsg) : (probeRx c n m).mem = c.mem := by
  grind [probeRx, mem_probeSrc, mem_sendCut]

@[simp] theorem mem_standingSrc (c : Chip) (n : Nat) (m : CutMsg) (r : CutRec) (i : Nat) :
    (standingSrc c n m r i).mem = c.mem := by
  grind [standingSrc, mem_srcDone, mem_sendCut]

@[simp] theorem mem_acceptTimeout (c : Chip) (i : Nat) : (acceptTimeout c i).mem = c.mem := by
  unfold acceptTimeout
  (repeat' split) <;> simp

@[simp] theorem mem_confirmTimeout (c : Chip) (i : Nat) : (confirmTimeout c i).mem = c.mem := by
  unfold confirmTimeout
  (repeat' split) <;> simp

@[simp] theorem mem_sourceProbe (c : Chip) (i : Nat) : (sourceProbe c i).mem = c.mem := by
  unfold sourceProbe
  (repeat' split) <;> simp

@[simp] theorem mem_settleProbe (c : Chip) (i : Nat) : (settleProbe c i).mem = c.mem := by
  unfold settleProbe
  (repeat' split) <;> simp

@[simp] theorem mem_orphanAge (c : Chip) (i : Nat) : (orphanAge c i).mem = c.mem := by
  unfold orphanAge
  (repeat' split) <;> simp

@[simp] theorem mem_recordAge (c : Chip) (n : Nat) (id : Word) : (recordAge c n id).mem = c.mem := by
  simp [recordAge]

@[simp] theorem mem_cutDrainTimeout (c : Chip) : (cutDrainTimeout c).mem = c.mem := by
  simp [cutDrainTimeout, mem_foldl]

/-! ### Functions of Port -/

@[simp] theorem mem_dropFrame (c : Chip) (a n : Nat) : (dropFrame c a n).mem = c.mem := by
  unfold dropFrame
  split <;> simp

@[simp] theorem mem_dropQueue (c : Chip) (p : Nat) : (dropQueue c p).mem = c.mem := by
  simp [dropQueue]

@[simp] theorem mem_portOff (c : Chip) (p : Nat) : (portOff c p).mem = c.mem := by
  simp [portOff]

@[simp] theorem mem_portTrain (c : Chip) (p : Nat) : (portTrain c p).mem = c.mem := by
  simp [portTrain]

@[simp] theorem mem_portDown (c : Chip) (p : Nat) : (portDown c p).mem = c.mem := by
  simp [portDown]

@[simp] theorem mem_peerOn (c : Chip) : (peerOn c).mem = c.mem := by
  simp [peerOn, apply_ite Chip.mem, mem_foldl]

@[simp] theorem mem_peerOff (c : Chip) : (peerOff c).mem = c.mem := by
  simp [peerOff, mem_foldl]

@[simp] theorem mem_startSweep (c : Chip) : (startSweep c).mem = c.mem := by
  unfold startSweep
  (repeat' split) <;> simp

@[simp] theorem mem_calLaneDone (c : Chip) (locked : Bool) : (calLaneDone c locked).mem = c.mem := by
  grind [calLaneDone, setPport_mem, mem_raise]

@[simp] theorem mem_portTrained (c : Chip) (p : Nat) (lanes : BitVec 16) (node : Option Nat) :
    (portTrained c p lanes node).mem = c.mem := by
  grind [portTrained, mem_startSweep, mem_raise, setPport_mem]

@[simp] theorem mem_laneLost (c : Chip) (p l : Nat) : (laneLost c p l).mem = c.mem := by
  grind [laneLost, setPport_mem, mem_fault, mem_raise, mem_portDown]

@[simp] theorem mem_idleReduce (c : Chip) (p : Nat) : (idleReduce c p).mem = c.mem := by
  grind [idleReduce, setPport_mem]

@[simp] theorem mem_laneRelight (c : Chip) (p : Nat) : (laneRelight c p).mem = c.mem := by
  grind [laneRelight, setPport_mem]

@[simp] theorem mem_slowWindow (c : Chip) (l : List Nat) : (slowWindow c l).mem = c.mem := by
  simp [slowWindow, apply_ite Chip.mem, mem_foldl]

@[simp] theorem mem_laserSwap (c : Chip) (a : Nat) : (laserSwap c a).mem = c.mem := by
  simp [laserSwap]

@[simp] theorem mem_peerLaser (c : Chip) (ok : Bool) : (peerLaser c ok).mem = c.mem := by
  simp [peerLaser, apply_ite Chip.mem, mem_foldl]

@[simp] theorem mem_queueFrame (c : Chip) (r : Route) (vc : Nat) (transit cong spray : Bool) (hops dst src : Nat)
    (pkt : List Byte) :
    (queueFrame c r vc transit cong spray hops dst src pkt).mem = c.mem := by
  unfold queueFrame
  split <;> simp

@[simp] theorem mem_transitFrame (c : Chip) (p : Nat) (l : List Byte) : (transitFrame c p l).mem = c.mem := by
  grind [transitFrame, mem_dropFrame, mem_takeFree, mem_queueFrame]

@[simp] theorem mem_arbitrate (c : Chip) (p : Nat) : (arbitrate c p).mem = c.mem := by
  grind [arbitrate, setPport_mem, mem_bumpPairB]

@[simp] theorem mem_rtSwap (c : Chip) : (rtSwap c).mem = c.mem := by
  simp [rtSwap]

@[simp] theorem mem_rtCopy (c : Chip) : (rtCopy c).mem = c.mem := by
  unfold rtCopy
  split <;> simp

@[simp] theorem mem_setShadow (c : Chip) (i : Nat) (w : Word) : (setShadow c i w).mem = c.mem := by
  unfold setShadow
  split <;> simp

@[simp] theorem mem_rtAdvance (c : Chip) : (rtAdvance c).mem = c.mem := by
  simp [rtAdvance]

@[simp] theorem mem_hostTx (c : Chip) (l : List Byte) : (hostTx c l).mem = c.mem := by
  simp [hostTx]

@[simp] theorem mem_arpReply (c : Chip) (p : Nat) (l : List Byte) (o : Nat) : (arpReply c p l o).mem = c.mem := by
  simp [arpReply]

@[simp] theorem mem_solicitReply (c : Chip) (p : Nat) (l : List Byte) (o : Nat) :
    (solicitReply c p l o).mem = c.mem := by
  simp [solicitReply]

@[simp] theorem mem_police (c : Chip) (p : Nat) : (police c p).2.mem = c.mem := by
  grind [police, mem_raise, mem_bumpB]

@[simp] theorem mem_policerRefill (c : Chip) : (policerRefill c).mem = c.mem := by
  simp [policerRefill, apply_ite Chip.mem, mem_foldl]

@[simp] theorem mem_filterFrame (c : Chip) : (filterFrame c).mem = c.mem := by
  simp [filterFrame]

@[simp] theorem mem_hostRx (c : Chip) (l : List Byte) (fcsOk : Bool) : (hostRx c l fcsOk).2.mem = c.mem := by
  grind [hostRx, mem_bumpPair, mem_bump, mem_filterFrame, mem_arpReply, mem_solicitReply, mem_police]

@[simp] theorem mem_hostDown (c : Chip) : (hostDown c).mem = c.mem := by
  simp [hostDown]

@[simp] theorem mem_hostTrain (c : Chip) : (hostTrain c).mem = c.mem := by
  simp [hostTrain]

@[simp] theorem mem_hostOn (c : Chip) : (hostOn c).mem = c.mem := by
  unfold hostOn
  split <;> simp

@[simp] theorem mem_hostOff (c : Chip) : (hostOff c).mem = c.mem := by
  simp [hostOff]

@[simp] theorem mem_hostTrained (c : Chip) : (hostTrained c).mem = c.mem := by
  unfold hostTrained
  split <;> simp

@[simp] theorem mem_hostLinkLoss (c : Chip) (lanes : Byte) : (hostLinkLoss c lanes).mem = c.mem := by
  unfold hostLinkLoss
  (repeat' split) <;> simp

@[simp] theorem mem_hostLaser (c : Chip) (ok : Bool) : (hostLaser c ok).mem = c.mem := by
  unfold hostLaser
  (repeat' split) <;> simp

@[simp] theorem mem_hostFrame (c : Chip) (part n queue : Nat) (addr : BitVec 128) (port : Nat) (p : Pkt) :
    (hostFrame c part n queue addr port p).mem = c.mem := by
  grind [hostFrame, mem_takeFree, mem_hostTx]

@[simp] theorem mem_senderResume (c : Chip) : (senderResume c).mem = c.mem := by
  unfold senderResume
  split <;> simp

@[simp] theorem mem_refillQueue (c : Chip) (q : Nat) : (refillQueue c q).mem = c.mem := by
  grind [refillQueue, setEqueue_mem]

@[simp] theorem mem_shaperRefill (c : Chip) : (shaperRefill c).mem = c.mem := by
  simp [shaperRefill, apply_ite Chip.mem, mem_foldl]

@[simp] theorem mem_sampleQueue (c : Chip) (delays : List (Nat × Nat)) (q : Nat) :
    (sampleQueue c delays q).mem = c.mem := by
  simp [sampleQueue]

@[simp] theorem mem_queueSample (c : Chip) (delays : List (Nat × Nat)) : (queueSample c delays).mem = c.mem := by
  simp [queueSample, apply_ite Chip.mem, mem_foldl]

@[simp] theorem mem_peerDrainTimeout (c : Chip) : (peerDrainTimeout c).mem = c.mem := by
  unfold peerDrainTimeout
  refine mem_foldl _ (fun c a => ?_) _ _
  grind [setPport_mem]

@[simp] theorem mem_hostDrainTimeout (c : Chip) : (hostDrainTimeout c).mem = c.mem := by
  simp [hostDrainTimeout]

@[simp] theorem mem_egrDrainTimeout (c : Chip) : (egrDrainTimeout c).mem = c.mem := by
  simp [egrDrainTimeout]

/-! ### Functions of Search -/

@[simp] theorem mem_answerSearch (c : Chip) (n op index : Nat) (tag : DWord) (status visited : Nat) :
    (answerSearch c n op index tag status visited).mem = c.mem := by
  grind [answerSearch, mem_takeFree, mem_bumpPair, mem_sendMsg]

@[simp] theorem mem_freeOlds (c : Chip) : (freeOlds c).mem = c.mem := by
  simp [freeOlds, mem_foldl]

@[simp] theorem mem_countSearch (c : Chip) (status : Nat) : (countSearch c status).mem = c.mem := by
  unfold countSearch
  (repeat' split) <;> simp

@[simp] theorem mem_sendQuery (c : Chip) (q : Query) (status : Nat) (hits : List SearchHit) :
    (sendQuery c q status hits).mem = c.mem := by
  simp [sendQuery]

@[simp] theorem mem_mergeDone (c : Chip) (q : Query) : (mergeDone c q).mem = c.mem := by
  grind [mergeDone, mem_takeFree, mem_raise, mem_sendQuery]

@[simp] theorem mem_shardAnswer (c : Chip) (id shard status : Nat) (hits : List SearchHit) :
    (shardAnswer c id shard status hits).mem = c.mem := by
  grind [shardAnswer, mem_takeFree, setQuery_mem, mem_mergeDone]

@[simp] theorem mem_endQuery (c : Chip) (q : Query) (status : Nat) (hits : List SearchHit) :
    (endQuery c q status hits).mem = c.mem := by
  unfold endQuery
  split <;> simp

@[simp] theorem mem_candsFixed (c : Chip) (q : Query) (l : List (Nat × Nat)) : (candsFixed c q l).mem = c.mem := by
  unfold candsFixed
  split <;> simp

@[simp] theorem mem_walkHead (c : Chip) (q0 : Query) : (walkHead c q0).mem = c.mem := by
  grind [walkHead, mem_candsFixed, setQuery_mem]

@[simp] theorem mem_walkStart (c : Chip) (q : Query) : (walkStart c q).mem = c.mem := by
  simp [walkStart]

@[simp] theorem mem_fillWalksN (a : Nat) (a1 : Chip) : (fillWalksN a a1).mem = a1.mem := by
  induction a generalizing a1 with
  | zero => simp [fillWalksN]
  | succ k ih =>
    unfold fillWalksN
    (repeat' split) <;> simp [ih]

@[simp] theorem mem_fillWalks (c : Chip) : (fillWalks c).mem = c.mem := by
  simp [fillWalks]

@[simp] theorem mem_countRead (c : Chip) (x kind j n : Nat) : (countRead c x kind j n).mem = c.mem := by
  grind [countRead, mem_bumpPair, setExtent_mem]

@[simp] theorem mem_expandItem (r : Query × Chip) (i : Nat) : (expandItem r i).2.mem = r.2.mem := by
  grind [expandItem, mem_countRead, mem_raise, mem_bump]

@[simp] theorem mem_sketchUe (c : Chip) (x : Nat) : (sketchUe c x).mem = c.mem := by
  simp [sketchUe]

@[simp] theorem mem_scanPassStart (c : Chip) : (scanPassStart c).mem = c.mem := by
  unfold scanPassStart
  split
  · rfl
  · dsimp only
    split
    · rfl
    · refine (mem_foldl _ (fun c d => ?_) _ _).trans rfl
      (repeat' split) <;> simp

@[simp] theorem mem_scanEnd (uncorr : Bool) (c : Chip) (id : Nat) : (scanEnd uncorr c id).mem = c.mem := by
  unfold scanEnd
  (repeat' split) <;> simp

@[simp] theorem mem_scanPassEnd (c : Chip) (uncorr : Bool) : (scanPassEnd c uncorr).mem = c.mem := by
  unfold scanPassEnd
  dsimp only
  split
  · rfl
  · refine (mem_foldl _ (fun c d => ?_) _ _).trans ?_
    · simp
    · (repeat' split) <;> simp

@[simp] theorem mem_queueQuery (c : Chip) (q : Query) : (queueQuery c q).mem = c.mem := by
  grind [queueQuery, addQuery_mem, mem_fillWalks, mem_raise, mem_endQuery]

@[simp] theorem mem_askShard (c : Chip) (q : Query) (e : Nat) : (askShard c q e).mem = c.mem := by
  grind [askShard, mem_queueQuery, mem_shardAnswer, mem_sendMsg]

@[simp] theorem mem_mergeStart (c : Chip) (q : Query) : (mergeStart c q).mem = c.mem := by
  simp [mergeStart, apply_ite Chip.mem, mem_foldl]

@[simp] theorem mem_searchReq (c : Chip) (conn : Nat) (tag : DWord) (handle : Word) (r : SearchReq) :
    (searchReq c conn tag handle r).mem = c.mem := by
  grind [searchReq, mem_answerSearch, mem_mergeStart, mem_queueQuery]

@[simp] theorem mem_searchDeadline (c : Chip) (id : Nat) : (searchDeadline c id).mem = c.mem := by
  unfold searchDeadline
  split <;> simp

@[simp] theorem mem_shardDeadline (c : Chip) (id : Nat) : (shardDeadline c id).mem = c.mem := by
  unfold shardDeadline
  (repeat' split) <;> simp

@[simp] theorem mem_deleteWaitEnd (c : Chip) (id : Nat) : (deleteWaitEnd c id).mem = c.mem := by
  unfold deleteWaitEnd
  (repeat' split) <;> simp

@[simp] theorem mem_indexLoad (c : Chip) (conn : Nat) (tag : DWord) (handle : Word) (r : LoadReq) :
    (indexLoad c conn tag handle r).mem = c.mem := by
  grind [indexLoad, mem_answerSearch, mem_flashWrite]

@[simp] theorem mem_sourceLost (c : Chip) (l : Option Load) : (sourceLost c l).2.mem = c.mem := by
  unfold sourceLost
  (repeat' split) <;> simp

@[simp] theorem mem_repairObject (c : Chip) (x j : Nat) : (repairObject c x j).mem = c.mem := by
  grind [repairObject, mem_raise, mem_countRead, mem_flashWrite]

@[simp] theorem mem_stopRepair (c : Chip) : (stopRepair c).mem = c.mem := by
  simp [stopRepair, mem_foldl]

@[simp] theorem mem_endSearches (c : Chip) (mine : Nat → Bool) (status : Nat) :
    (endSearches c mine status).mem = c.mem := by
  unfold endSearches
  refine (mem_foldl _ (fun c d => by simp) _ _).trans (mem_foldl _ (fun c d => ?_) _ _)
  split <;> simp

@[simp] theorem mem_srchDrainTimeout (c : Chip) : (srchDrainTimeout c).mem = c.mem := by
  simp [srchDrainTimeout]

/-! ### Functions of Flash -/

@[simp] theorem mem_journalLost (c : Chip) : (journalLost c).mem = c.mem := by
  simp [journalLost]

@[simp] theorem mem_journalFail (c : Chip) (d : Nat) : (journalFail c d).mem = c.mem := by
  grind [journalFail, mem_takeFree, mem_journalLost, mem_retire]

@[simp] theorem mem_headFail (c : Chip) (d e : Nat) : (headFail c d e).mem = c.mem := by
  grind [headFail, mem_replaceWrites, setExtent_mem, mem_retire, mem_startCopy]

@[simp] theorem mem_copyFail (c : Chip) (t : Nat) : (copyFail c t).mem = c.mem := by
  unfold copyFail
  split <;> simp

@[simp] theorem mem_programFail (c : Chip) (d : Nat) (what : FailTarget) : (programFail c d what).mem = c.mem := by
  unfold programFail
  (repeat' split) <;> simp

@[simp] theorem mem_eraseDone (c : Chip) (e : Nat) (pass : Bool) : (eraseDone c e pass).mem = c.mem := by
  grind [eraseDone, mem_jput, mem_applyCut, setExtent_mem, mem_pumpFlash, mem_setFld, mem_retire]

@[simp] theorem mem_wearLevel (c : Chip) : (wearLevel c).mem = c.mem := by
  unfold wearLevel
  (repeat' split) <;> simp

@[simp] theorem mem_compactionStart (c : Chip) : (compactionStart c).mem = c.mem := by
  unfold compactionStart
  (repeat' split) <;> simp

@[simp] theorem mem_dieTimeout (c : Chip) (d : Nat) : (dieTimeout c d).mem = c.mem := by
  unfold dieTimeout
  split <;> simp

@[simp] theorem mem_setDieLost (c : Chip) (d : Nat) : (setDieLost c d).mem = c.mem := by
  simp [setDieLost]

@[simp] theorem mem_summaryScanDone (c : Chip) : (summaryScanDone c).mem = c.mem := by
  simp [summaryScanDone, apply_ite Chip.mem, mem_foldl]

@[simp] theorem mem_scanCount (c : Chip) (passEnd : Bool) : (scanCount c passEnd).mem = c.mem := by
  unfold scanCount
  (repeat' split) <;> simp

@[simp] theorem mem_abandonWrite (c : Chip) (w : FWrite) : (abandonWrite c w).mem = c.mem := by
  grind [abandonWrite, mem_cancelWrite, setBody_mem, mem_answerSearch]

/-! ### Functions of Ckpt -/

@[simp] theorem mem_ownRegion (c : Chip) (base len : Nat) : (ownRegion c base len).2.mem = c.mem := by
  unfold ownRegion
  split <;> simp

@[simp] theorem mem_ckptOn (c : Chip) : (ckptOn c).mem = c.mem := by
  fun_cases ckptOn c
  case case1 => rfl
  case case2 _ a c1 h1 v c2 h2 base c3 h3 m c4 h4 c5 =>
    have e1 : c1.mem = c.mem := by rw [← mem_ownRegion c, h1]
    have e2 : c2.mem = c1.mem := by rw [← mem_takeFree c1, h2]
    have e4 : c4.mem = c3.mem := by rw [← mem_ownRegion c3, h4]
    have e3 : c3.mem = c2.mem := by
      split at h3
      · next h =>
        split at h
        · rw [← (Prod.mk.inj h3).2, mem_heapAlloc _ _ _ _ h]
        · exact nomatch h
      · rw [← (Prod.mk.inj h3).2]
    rw [setReg_mem, setReg_mem, modCkpt_mem, e4, e3, e2, e1]

@[simp] theorem mem_endOwn (c : Chip) (r : Option Nat) (heap : Bool) : (endOwn c r heap).mem = c.mem := by
  unfold endOwn
  (repeat' split) <;> simp

@[simp] theorem mem_sendMark (c : Chip) (m : Mark) : (sendMark c m).mem = c.mem := by
  simp [sendMark]

/-- A mark that is handled or dropped leaves the memory alone where its handling does. -/
theorem mem_onMark (c : Chip) (m : Mark) (typ : Nat) (f : Chip → Chip) (hf : ∀ c, (f c).mem = c.mem) :
    (onMark c m typ f).mem = c.mem := by
  unfold onMark
  split
  · rfl
  · exact hf _

@[simp] theorem mem_newRound (c : Chip) (typ : Nat) : (newRound c typ).mem = c.mem := by
  simp [newRound]

@[simp] theorem mem_startRound (c : Chip) : (startRound c).mem = c.mem := by
  simp [startRound]

@[simp] theorem mem_ckptTimer (c : Chip) : (ckptTimer c).mem = c.mem := by
  unfold ckptTimer
  split <;> simp

@[simp] theorem mem_ckptSteps (c : Chip) : (ckptSteps c).mem = c.mem := by
  unfold ckptSteps
  split <;> simp

@[simp] theorem mem_ckptNow (c : Chip) : (ckptNow c).2.mem = c.mem := by
  unfold ckptNow
  (repeat' split) <;> simp

@[simp] theorem mem_markTimeout (c : Chip) : (markTimeout c).mem = c.mem := by
  unfold markTimeout
  (repeat' split) <;> simp

@[simp] theorem mem_takeSnap (c : Chip) (e : Nat) : (takeSnap c e).mem = c.mem := by
  grind [takeSnap, setReg_mem, mem_raise, mem_bump, modCkpt_mem]

@[simp] theorem mem_prepareRx (c : Chip) (m : Mark) : (prepareRx c m).mem = c.mem := by
  unfold prepareRx
  refine mem_onMark _ _ _ _ (fun c => ?_)
  dsimp only
  (repeat' split) <;> simp

@[simp] theorem mem_snapRx (c : Chip) (m : Mark) : (snapRx c m).mem = c.mem := by
  refine mem_onMark _ _ _ _ (fun c => ?_)
  split
  · rw [modCkpt_mem]
  · split
    · rfl
    · rw [mem_takeSnap, mem_sendMark]

@[simp] theorem mem_dropCopies (c : Chip) : (dropCopies c).mem = c.mem := by
  simp [dropCopies, mem_foldl]

@[simp] theorem mem_uncountShard (c : Chip) : (uncountShard c).mem = c.mem := by
  simp [uncountShard]

@[simp] theorem mem_abandonShard (c : Chip) : (abandonShard c).mem = c.mem := by
  unfold abandonShard
  split <;> simp

@[simp] theorem mem_writeShard (c : Chip) (g off : Nat) (data : List Byte) (u : InitUse) :
    (writeShard c g off data u).mem = c.mem := by
  simp [writeShard]

@[simp] theorem mem_shardBodyAcked (c : Chip) : (shardBodyAcked c).mem = c.mem := by
  unfold shardBodyAcked
  split <;> simp

@[simp] theorem mem_countCheckpoint (c : Chip) : (countCheckpoint c).mem = c.mem := by
  simp [countCheckpoint, mem_foldl]

@[simp] theorem mem_endRestore (c : Chip) (st : Nat) : (endRestore c st).mem = c.mem := by
  unfold endRestore
  split <;> simp

@[simp] theorem mem_goRestore (c : Chip) (m : Mark) : (goRestore c m).mem = c.mem := by
  unfold goRestore
  (repeat' split) <;> simp

@[simp] theorem mem_restoreStart (c : Chip) (gen0 gen1 : List Byte) : (restoreStart c gen0 gen1).mem = c.mem := by
  grind [restoreStart, modCkpt_mem, mem_newRound, mem_sendMark]

@[simp] theorem mem_restoreQueryRx (c : Chip) (m : Mark) : (restoreQueryRx c m).mem = c.mem := by
  unfold restoreQueryRx
  refine mem_onMark _ _ _ _ (fun c => ?_)
  dsimp only
  (repeat' split) <;> simp

@[simp] theorem mem_restoreGoRx (c : Chip) (m : Mark) : (restoreGoRx c m).mem = c.mem := by
  refine mem_onMark _ _ _ _ (fun c => ?_)
  split
  · rw [modCkpt_mem]
  · split
    · rfl
    · rw [mem_goRestore, mem_sendMark]

theorem mem_ledgerFor (c : Chip) (addr : Nat) : ∀ y, ledgerFor c addr = some y → y.2.mem = c.mem := by
  grind [ledgerFor, setLedger_mem, mem_takeFree, mem_noteLedger]

@[simp] theorem mem_takeRefs (c : Chip) (r : List Byte) (layers : Nat) : (takeRefs c r layers).2.2.mem = c.mem := by
  unfold takeRefs
  refine foldl_same (fun x : Tbl Nat × Bool × Chip => x.2.2.mem) _ (fun x k => ?_) _ _
  dsimp only
  split
  · rfl
  · split
    · next h =>
      obtain ⟨o, -, ho⟩ := Option.bind_eq_some_iff.1 h
      exact mem_ledgerFor _ _ _ ho
    · rfl

@[simp] theorem mem_freshDirectory (c : Chip) (l : List Byte) : (freshDirectory c l).mem = c.mem := by
  simp [freshDirectory]

@[simp] theorem mem_dropUnwanted (c : Chip) : (dropUnwanted c).mem = c.mem := by
  simp [dropUnwanted, mem_foldl]

@[simp] theorem mem_forgetGens (c : Chip) : (forgetGens c).mem = c.mem := by
  simp [forgetGens]

@[simp] theorem mem_ckptDrainTimeout (c : Chip) : (ckptDrainTimeout c).mem = c.mem := by
  unfold ckptDrainTimeout
  split <;> simp

@[simp] theorem mem_ckptReset (c : Chip) : (ckptReset c).mem = c.mem := by
  simp [ckptReset]

/-! ### Functions of Power -/

@[simp] theorem mem_addEnergy (c : Chip) (dw : Nat) : (addEnergy c dw).mem = c.mem := by
  simp [addEnergy]

@[simp] theorem mem_sampleRails (c : Chip) (da : Nat) : (sampleRails c da).mem = c.mem := by
  simp [sampleRails]

@[simp] theorem mem_fastLimit (c : Chip) (avg da : Nat) : (fastLimit c avg da).mem = c.mem := by
  grind [fastLimit, mem_setFld, modPwr_mem, mem_raise, mem_bump]

@[simp] theorem mem_samplePower (c : Chip) (dw avg da : Nat) : (samplePower c dw avg da).mem = c.mem := by
  grind [samplePower, mem_sampleRails, mem_addEnergy, mem_setFld, mem_takeFree, modPwr_mem, mem_fastLimit]

@[simp] theorem mem_learnOne (c : Chip) (x : LearnSample) : (learnOne c x).mem = c.mem := by
  simp [learnOne]

@[simp] theorem mem_explore (c : Chip) (p : Nat) (k : EngineKind) (up : Bool) : (explore c p k up).mem = c.mem := by
  grind [explore, modPwr_mem, mem_setRowPoints]

@[simp] theorem mem_setChoice (c : Chip) (p : Nat) (k : EngineKind) (v : Nat) : (setChoice c p k v).mem = c.mem := by
  grind [setChoice, modPwr_mem, mem_setRowPoints]

@[simp] theorem mem_decideOne (c : Chip) (p target : Nat) (cy : List (Nat × Nat)) :
    (decideOne c p target cy).2.mem = c.mem := by
  grind [decideOne, mem_setChoice, modPwr_mem, mem_setFld, mem_raise]

@[simp] theorem mem_decidePower (c : Chip) (ratio : Nat) (cy : List (Nat × Nat)) (avg : Nat) :
    (decidePower c ratio cy avg).mem = c.mem := by
  simp [decidePower, apply_ite Chip.mem, mem_foldl_snd]

@[simp] theorem mem_pacingRelease (c : Chip) (p : Nat) : (pacingRelease c p).mem = c.mem := by
  unfold pacingRelease
  (repeat' split) <;> simp

@[simp] theorem mem_markEnergy (c : Chip) (y fill : Nat) : (markEnergy c y fill).mem = c.mem := by
  simp [markEnergy]

@[simp] theorem mem_markEstimate (c : Chip) (y est i0 t : Nat) : (markEstimate c y est i0 t).mem = c.mem := by
  grind [markEstimate, modPwr_mem, mem_takeFree, mem_markEnergy, mem_raise, mem_bump]

@[simp] theorem mem_noteSite (c : Chip) (r : SiteReading) : (noteSite c r).mem = c.mem := by
  grind [noteSite, mem_setFld, modPwr_mem, mem_fault, mem_raise]

@[simp] theorem mem_followThrottle (c : Chip) : (followThrottle c).mem = c.mem := by
  grind [followThrottle, modPwr_mem, mem_setFld, mem_raise, mem_bump]

@[simp] theorem mem_thermalRead (c : Chip) (l : List SiteReading) : (thermalRead c l).mem = c.mem := by
  unfold thermalRead
  (repeat' split) <;> simp [mem_foldl]

@[simp] theorem mem_throttleStep (c : Chip) : (throttleStep c).mem = c.mem := by
  simp [throttleStep, apply_ite Chip.mem, mem_foldl]

@[simp] theorem mem_thermalTrip (c : Chip) : (thermalTrip c).mem = c.mem := by
  unfold thermalTrip
  split <;> simp

@[simp] theorem mem_tripClearOp (c : Chip) (r : Requester) : (tripClearOp c r).2.mem = c.mem := by
  unfold tripClearOp
  split <;> simp

/-! ### Functions of Crc -/

@[simp] theorem mem_setCrcStat (c : Chip) (u : Nat) (busy : Bool) (status : Nat) (valid : Bool) :
    (setCrcStat c u busy status valid).mem = c.mem := by
  simp [setCrcStat]

@[simp] theorem mem_crcFail (c : Chip) (u status : Nat) : (crcFail c u status).mem = c.mem := by
  simp [crcFail]

@[simp] theorem mem_crcCountRead (c : Chip) (r : Bool × Nat × Nat) : (crcCountRead c r).mem = c.mem := by
  grind [crcCountRead, mem_bumpPair, setExtent_mem]

@[simp] theorem mem_crcStart (c : Chip) (u : Nat) : (crcStart c u).2.mem = c.mem := by
  grind [crcStart, setRegB_mem, mem_crcFail, setCrcUnit_mem, mem_setCrcStat]

@[simp] theorem mem_crcSettleBytes (c : Chip) (a : List (Bool × Nat × Nat)) (a2 : List Byte) :
    (crcSettleBytes c a a2).2.mem = c.mem := by
  induction a generalizing c a2 with
  | nil => rfl
  | cons r rs ih =>
    unfold crcSettleBytes
    dsimp only
    rw [ih]
    split
    · rfl
    · refine mem_foldl_snd _ (fun x p => ?_) _ _
      split <;> simp

@[simp] theorem mem_crcDrainTimeout (c : Chip) : (crcDrainTimeout c).mem = c.mem := by
  simp [crcDrainTimeout, apply_ite Chip.mem, mem_foldl]

/-! ### Functions of XptRx -/

@[simp] theorem mem_useFailed (c : Chip) (n : Nat) (u : InitUse) : (useFailed c n u).mem = c.mem := by
  unfold useFailed
  (repeat' split) <;> simp

@[simp] theorem mem_usesClosed (c : Chip) (n : Nat) (l : List InitUse) : (usesClosed c n l).mem = c.mem := by
  simp [usesClosed, apply_ite Chip.mem, mem_foldl]

@[simp] theorem mem_usesLost (c : Chip) (n : Nat) (l : List InitUse) : (usesLost c n l).mem = c.mem := by
  simp [usesLost, mem_foldl]

@[simp] theorem mem_vstAck (c : Chip) (l : Link) (p : Pkt) : (vstAck c l p).mem = c.mem := by
  grind [vstAck, mem_rxGate, mem_ackRx, mem_countRx, mem_usesClosed]

@[simp] theorem mem_vstNak (c : Chip) (l : Link) (p : Pkt) : (vstNak c l p).mem = c.mem := by
  grind [vstNak, mem_rxGate, mem_nakRx, mem_countRx, mem_usesClosed]

@[simp] theorem mem_vstClose (c : Chip) (l : Link) (p : Pkt) : (vstClose c l p).mem = c.mem := by
  simp [vstClose]

@[simp] theorem mem_rtoRun (c : Chip) (n : Nat) (seq : Word) : (rtoRun c n seq).mem = c.mem := by
  unfold rtoRun
  split <;> simp

@[simp] theorem mem_connCloseOp (c : Chip) (n : Nat) : (connCloseOp c n).mem = c.mem := by
  simp [connCloseOp]

/-! ### Functions of Sec -/

@[simp] theorem mem_chipDebugShut (c : Chip) : (chipDebugShut c).mem = c.mem := by
  unfold chipDebugShut
  split <;> simp

@[simp] theorem mem_closeDebugOf (c : Chip) (p : Nat) : (closeDebugOf c p).mem = c.mem := by
  grind [closeDebugOf, mem_chipDebugShut]

@[simp] theorem mem_closeTraceOf (c : Chip) (p : Nat) : (closeTraceOf c p).mem = c.mem := by
  unfold closeTraceOf
  split <;> simp

@[simp] theorem mem_setConsent (c : Chip) (p : Nat) (debug profile : Bool) :
    (setConsent c p debug profile).mem = c.mem := by
  grind [setConsent, setSecPart_mem, mem_closeDebugOf, mem_closeTraceOf, mem_raise]

@[simp] theorem mem_leaveValid (c : Chip) (p : Nat) (st : PartState) (purged : Bool) :
    (leaveValid c p st purged).mem = c.mem := by
  simp [leaveValid]

@[simp] theorem mem_setPartStatus (c : Chip) (p st : Nat) : (setPartStatus c p st).mem = c.mem := by
  simp [setPartStatus]

@[simp] theorem mem_partValidate (c : Chip) (p : Nat) : (partValidate c p).2.mem = c.mem := by
  grind [partValidate, mem_setPartStatus, mem_raise, mem_chipDebugShut, setSecPart_mem]

@[simp] theorem mem_partInvalidate (c : Chip) (p : Nat) : (partInvalidate c p).2.mem = c.mem := by
  unfold partInvalidate
  (repeat' split) <;> simp

@[simp] theorem mem_scrubFlash (c : Chip) (p : Nat) : (scrubFlash c p).mem = c.mem := by
  simp [scrubFlash]

@[simp] theorem mem_consentWrite (c : Chip) (q p : Nat) (w : Word) : (consentWrite c q p w).2.mem = c.mem := by
  unfold consentWrite
  split <;> simp

@[simp] theorem mem_extendWrite (c : Chip) (q p k : Nat) (w : Word) : (extendWrite c q p k w).2.mem = c.mem := by
  unfold extendWrite
  (repeat' split) <;> simp

@[simp] theorem mem_rollbackWrite (c : Chip) (w : Word) : (rollbackWrite c w).2.mem = c.mem := by
  unfold rollbackWrite
  split <;> simp

@[simp] theorem mem_revokeWrite (c : Chip) (w : Word) : (revokeWrite c w).2.mem = c.mem := by
  grind [revokeWrite, mem_setFld]

@[simp] theorem mem_chipDebugReq (c : Chip) : (chipDebugReq c).2.mem = c.mem := by
  unfold chipDebugReq
  split <;> simp

@[simp] theorem mem_chipDebugWrite (c : Chip) (w : Word) : (chipDebugWrite c w).2.mem = c.mem := by
  grind [chipDebugWrite, mem_chipDebugReq, mem_chipDebugShut]

@[simp] theorem mem_dbgWrite (c : Chip) (w : Word) : (dbgWrite c w).2.mem = c.mem := by
  grind [dbgWrite, mem_setFld, mem_raise]

@[simp] theorem mem_dbgRead (c : Chip) : (dbgRead c).2.2.mem = c.mem := by
  unfold dbgRead
  (repeat' split) <;> simp

@[simp] theorem mem_attestAnswer (c : Chip) (q : AttestReq) : (attestAnswer c q).mem = c.mem := by
  simp [attestAnswer]

@[simp] theorem mem_attestFlush (c : Chip) : (attestFlush c).mem = c.mem := by
  simp [attestFlush, mem_foldl]

@[simp] theorem mem_attestReq (c : Chip) (n : Nat) (tag : DWord) (handle : Word) (nonce : List Byte) :
    (attestReq c n tag handle nonce).mem = c.mem := by
  unfold attestReq
  (repeat' split) <;> simp

@[simp] theorem mem_telSnapshot (c : Chip) : (telSnapshot c).mem = c.mem := by
  unfold telSnapshot
  split <;> simp

@[simp] theorem mem_traceWrite (c : Chip) (w : Word) : (traceWrite c w).2.mem = c.mem := by
  grind [traceWrite, setReg_mem, mem_traceStop]

/-! ### Functions of Drain -/

@[simp] theorem mem_stopCore (chipFault : Bool) (c0 : Chip) (n : Nat) : (stopCore chipFault c0 n).mem = c0.mem := by
  grind [stopCore, setCore_mem, mem_becomeLame, mem_runTests]

@[simp] theorem mem_stopCoresOf (c : Chip) (p : Nat) : (stopCoresOf c p).mem = c.mem := by
  simp [stopCoresOf, apply_ite Chip.mem, mem_foldl]

@[simp] theorem mem_voidAfter (status : Nat) (c : Chip) (a : After) : (voidAfter status c a).mem = c.mem := by
  unfold voidAfter
  (repeat' split) <;> simp

@[simp] theorem mem_voidAct (create : Bool) (c : Chip) (a : Action) : (voidAct create c a).mem = c.mem := by
  unfold voidAct
  (repeat' split) <;> simp [mem_foldl]

@[simp] theorem mem_voidFigure (c : Chip) (f : Figure) (status : Nat) : (voidFigure c f status).mem = c.mem := by
  unfold voidFigure
  refine (mem_foldl _ (fun c d => by simp) _ _).trans ((mem_foldl _ (fun c d => ?_) _ _).trans
    (mem_foldl _ (fun c d => by simp) _ _))
  split
  · dsimp only
    (repeat' split) <;> simp
  · rfl

@[simp] theorem mem_xptDrainTimeout (c : Chip) : (xptDrainTimeout c).mem = c.mem := by
  simp [xptDrainTimeout, mem_foldl]

@[simp] theorem mem_drainStarts (c : Chip) (p : Page) : (drainStarts c p).mem = c.mem := by
  simp [drainStarts, apply_ite Chip.mem, mem_foldl]

@[simp] theorem mem_endDrain (c : Chip) (p : Page) (forced : Bool) : (endDrain c p forced).mem = c.mem := by
  simp [endDrain]

@[simp] theorem mem_sessOn (c : Chip) : (sessOn c).mem = c.mem := by
  grind [sessOn, mem_setState]

@[simp] theorem mem_schedOn (c : Chip) : (schedOn c).mem = c.mem := by
  simp [schedOn, apply_ite Chip.mem, mem_foldl]

@[simp] theorem mem_turnOn (c : Chip) (p : Page) : (turnOn c p).2.mem = c.mem := by
  unfold turnOn
  (repeat' split) <;> simp [apply_ite Chip.mem]

@[simp] theorem mem_dirCopyDone (c : Chip) : (dirCopyDone c).mem = c.mem := by
  grind [dirCopyDone, mem_sessOn]

@[simp] theorem mem_enterTesting (c : Chip) (p : Page) : (enterTesting c p).mem = c.mem := by
  unfold enterTesting
  (repeat' split) <;> simp

@[simp] theorem mem_leaveTesting (c : Chip) (p : Page) (st : BState) : (leaveTesting c p st).mem = c.mem := by
  unfold leaveTesting
  split <;> simp

@[simp] theorem mem_testResult (c : Chip) (p : Page) (pass : Bool) : (testResult c p pass).mem = c.mem := by
  unfold testResult
  (repeat' split) <;> simp

@[simp] theorem mem_selftestEnd (c : Chip) (p : Page) (pass : Bool) : (selftestEnd c p pass).mem = c.mem := by
  grind [selftestEnd, mem_testResult, mem_leaveTesting, mem_attestFlush]

@[simp] theorem mem_resetWords (c : Chip) (p : Page) : (resetWords c p).mem = c.mem := by
  unfold resetWords
  split <;> simp

@[simp] theorem mem_disarmPage (c : Chip) (p : Page) : (disarmPage c p).mem = c.mem := by
  simp [disarmPage]

/-! ### Functions of Rx -/

@[simp] theorem mem_startWake (c : Chip) : (startWake c).mem = c.mem := by
  unfold startWake
  split <;> simp

@[simp] theorem mem_countFec (c : Chip) (p : Nat) (ws : List Codeword) : (countFec c p ws).mem = c.mem := by
  grind [countFec, mem_bumpB]

@[simp] theorem mem_hostFec (c : Chip) (l : List FecResult) : (hostFec c l).mem = c.mem := by
  grind [hostFec, mem_bump]

/-! ### Functions of Boot -/

@[simp] theorem mem_deepEntry (c : Chip) : (deepEntry c).mem = c.mem := by
  unfold deepEntry
  split <;> simp

@[simp] theorem mem_tapDebug (c : Chip) (i : TapInstr) : (tapDebug c i).mem = c.mem := by
  simp [tapDebug]

/-! ### Functions of Check -/

@[simp] theorem mem_modelCheckStart (c : Chip) (slot : Nat) : (modelCheckStart c slot).mem = c.mem := by
  simp [modelCheckStart]

@[simp] theorem mem_modelCheckDone (c : Chip) : (modelCheckDone c).mem = c.mem := by
  grind [modelCheckDone, mem_raise, setReg_mem, mem_setFldB]

@[simp] theorem mem_modelInvalid (c : Chip) (slot : Nat) : (modelInvalid c slot).mem = c.mem := by
  unfold modelInvalid
  split <;> simp

@[simp] theorem mem_vocabCheckStart (c : Chip) (slot : Nat) : (vocabCheckStart c slot).mem = c.mem := by
  simp [vocabCheckStart]

@[simp] theorem mem_vocabCheckDone (c : Chip) : (vocabCheckDone c).mem = c.mem := by
  unfold vocabCheckDone
  (repeat' split) <;> simp [apply_ite Chip.mem]

@[simp] theorem mem_vocabInvalid (c : Chip) (slot : Nat) : (vocabInvalid c slot).mem = c.mem := by
  simp [vocabInvalid]

@[simp] theorem mem_gramCheckStart (c : Chip) (g : Nat) : (gramCheckStart c g).mem = c.mem := by
  simp [gramCheckStart]

@[simp] theorem mem_gramCheckDone (c : Chip) : (gramCheckDone c).mem = c.mem := by
  grind [gramCheckDone, mem_setFldB, mem_setFld, mem_raise]

@[simp] theorem mem_gramInvalid (c : Chip) (g : Nat) : (gramInvalid c g).mem = c.mem := by
  simp [gramInvalid]

@[simp] theorem mem_ixCheckStart (c : Chip) (x : Nat) : (ixCheckStart c x).mem = c.mem := by
  simp [ixCheckStart]

@[simp] theorem mem_idxCheckDone (c : Chip) (x : Nat) : (idxCheckDone c x).mem = c.mem := by
  grind [idxCheckDone, setRegB_mem, mem_setFldB]

/-! ### Functions of ChipFault -/

@[simp] theorem mem_voidOpen (c : Chip) : (voidOpen c).mem = c.mem := by
  simp [voidOpen, apply_ite Chip.mem, mem_foldl]

@[simp] theorem mem_damageNamed (c : Chip) (i : Nat) : (damageNamed c i).mem = c.mem := by
  grind [damageNamed, mem_openFig]

@[simp] theorem mem_skipOne (c : Chip) (k : Committed) (r : List Committed) : (skipOne c k r).mem = c.mem := by
  simp [skipOne]

@[simp] theorem mem_replayRecord (c : Chip) (done : Nat) (damage : Bool) (time : Nat) :
    (replayRecord c done damage time).mem = c.mem := by
  simp [replayRecord]

@[simp] theorem mem_endOther (c : Chip) : (endOther c).mem = c.mem := by
  simp [endOther, mem_foldl]

/-! ### Functions of Maint -/

@[simp] theorem mem_testedResult (failed : List Page) (c : Chip) (p : Page) :
    (testedResult failed c p).mem = c.mem := by
  simp [testedResult]

@[simp] theorem mem_bootRecord (c : Chip) (w : Word) : (bootRecord c w).mem = c.mem := by
  simp [bootRecord]

@[simp] theorem mem_setUpdate (c : Chip) (check st : Nat) (busy : Bool) : (setUpdate c check st busy).mem = c.mem := by
  simp [setUpdate]

@[simp] theorem mem_updateEnds (c : Chip) (check st : Nat) : (updateEnds c check st).mem = c.mem := by
  simp [updateEnds]

@[simp] theorem mem_norDataWrite (c : Chip) (sideband : Bool) (w : Word) :
    (norDataWrite c sideband w).2.mem = c.mem := by
  grind [norDataWrite, setReg_mem, mem_norPut]

/-! ### Functions of WinRead -/

@[simp] theorem mem_voteRecord (c : Chip) (a : Nat) (noMaj : Bool) : (voteRecord c a noMaj).mem = c.mem := by
  simp [voteRecord]

@[simp] theorem mem_voteKey (c : Chip) (key : Nat) : (voteKey c key).mem = c.mem := by
  grind [voteKey, mem_fault, mem_voteRecord, setKey_mem]

@[simp] theorem mem_voteCtrl (c : Chip) (p : Page) : (voteCtrl c p).mem = c.mem := by
  grind [voteCtrl, mem_fault, mem_voteRecord, setHdr_mem]

@[simp] theorem mem_wordRead (c : Chip) (q : Nat) (row : RegRow) (a : Nat) : (wordRead c q row a).2.2.mem = c.mem := by
  grind [wordRead, mem_takeTick, mem_dbgRead, mem_rtAdvance, mem_voteKey]

@[simp] theorem mem_shadowRead (c : Chip) (r : Requester) (q : Nat) (row : RegRow) (a : Nat) :
    (shadowRead c r q row a).2.2.mem = c.mem := by
  grind [shadowRead, mem_takeTick, setReqState_mem, mem_wordRead]

/-! ### Functions of WinWrite -/

@[simp] theorem mem_storeReg (c : Chip) (x : RegWr) : (storeReg c x).mem = c.mem := by
  grind [storeReg, setKey_mem]

@[simp] theorem mem_stored (c : Chip) (x : RegWr) : (stored c x).2.mem = c.mem := by
  simp [stored]

@[simp] theorem mem_regionWrite (c : Chip) (x : RegWr) (free : Bool) (k : Nat) :
    (regionWrite c x free k).2.mem = c.mem := by
  grind [regionWrite, mem_storeReg]

@[simp] theorem mem_ovlApply (c : Chip) (n : Nat) : (ovlApply c n).2.mem = c.mem := by
  unfold ovlApply
  (repeat' split) <;> simp

@[simp] theorem mem_writePwr (c : Chip) (x : RegWr) : (writePwr c x).2.mem = c.mem := by
  grind [writePwr, mem_storeReg, mem_tripClearOp]

@[simp] theorem mem_clearLast (c : Chip) : (clearLast c).mem = c.mem := by
  simp [clearLast]

@[simp] theorem mem_bbMarkWrite (c : Chip) (x : RegWr) : (bbMarkWrite c x).2.mem = c.mem := by
  grind [bbMarkWrite, mem_takeFree, mem_bbPlain]

@[simp] theorem mem_dirBaseWrite (c : Chip) (x : RegWr) : (dirBaseWrite c x).2.mem = c.mem := by
  fun_cases dirBaseWrite c x <;> grind [mem_storeReg]

@[simp] theorem mem_writeFig (c : Chip) (x : RegWr) : (writeFig c x).2.mem = c.mem := by
  unfold writeFig
  (repeat' split) <;> simp

@[simp] theorem mem_writeTier (c : Chip) (x : RegWr) : (writeTier c x).2.mem = c.mem := by
  grind [writeTier, mem_regionWrite, mem_sweepStart, mem_stored]

@[simp] theorem mem_writeGrid (c : Chip) (x : RegWr) : (writeGrid c x).2.mem = c.mem := by
  grind [writeGrid, mem_coreCtrl, setReg_mem, mem_stored]

@[simp] theorem mem_writeSched (c : Chip) (x : RegWr) : (writeSched c x).2.mem = c.mem := by
  grind [writeSched, mem_regionWrite, mem_storeReg, setSched_mem, mem_stored]

@[simp] theorem mem_writeAttn (c : Chip) (x : RegWr) : (writeAttn c x).2.mem = c.mem := by
  grind [writeAttn, mem_stored, mem_setFldB, mem_modelCheckStart, mem_modelInvalid]

@[simp] theorem mem_writeSamp (c : Chip) (x : RegWr) : (writeSamp c x).2.mem = c.mem := by
  unfold writeSamp
  (repeat' split) <;> simp

@[simp] theorem mem_vocabCtrlWrite (c : Chip) (x : RegWr) : (vocabCtrlWrite c x).2.mem = c.mem := by
  unfold vocabCtrlWrite
  (repeat' split) <;> simp

@[simp] theorem mem_gramCtrlWrite (c : Chip) (x : RegWr) : (gramCtrlWrite c x).2.mem = c.mem := by
  unfold gramCtrlWrite
  (repeat' split) <;> simp

@[simp] theorem mem_writeText (c : Chip) (x : RegWr) : (writeText c x).2.mem = c.mem := by
  unfold writeText
  (repeat' split) <;> simp

@[simp] theorem mem_connCtrlWrite (c : Chip) (x : RegWr) : (connCtrlWrite c x).2.mem = c.mem := by
  grind [connCtrlWrite, mem_storeReg, mem_connOpen, mem_connCloseOp, mem_connRelease, mem_connMgmt, mem_connUnmgmt,
    mem_raise]

@[simp] theorem mem_writeXpt (c : Chip) (x : RegWr) : (writeXpt c x).2.mem = c.mem := by
  unfold writeXpt
  (repeat' split) <;> simp

@[simp] theorem mem_portCfgWrite (c : Chip) (x : RegWr) : (portCfgWrite c x).2.mem = c.mem := by
  grind [portCfgWrite, mem_storeReg, mem_portOff, mem_portTrain]

@[simp] theorem mem_writePeer (c : Chip) (x : RegWr) : (writePeer c x).2.mem = c.mem := by
  unfold writePeer
  (repeat' split) <;> simp

@[simp] theorem mem_writeHost (c : Chip) (x : RegWr) : (writeHost c x).2.mem = c.mem := by
  unfold writeHost
  (repeat' split) <;> simp

@[simp] theorem mem_writeEgr (c : Chip) (x : RegWr) : (writeEgr c x).2.mem = c.mem := by
  grind [writeEgr, mem_stored]

@[simp] theorem mem_idxCtrlWrite (c : Chip) (x : RegWr) : (idxCtrlWrite c x).2.mem = c.mem := by
  grind [idxCtrlWrite, setKey_mem, mem_ixCheckStart, mem_setFldB]

@[simp] theorem mem_writeSrch (c : Chip) (x : RegWr) : (writeSrch c x).2.mem = c.mem := by
  grind [writeSrch, mem_idxCtrlWrite, mem_stored]

@[simp] theorem mem_restoreWrite (c : Chip) (x : RegWr) : (restoreWrite c x).2.mem = c.mem := by
  grind [restoreWrite, mem_storeReg, mem_restoreStart]

@[simp] theorem mem_writeCrc (c : Chip) (x : RegWr) : (writeCrc c x).2.mem = c.mem := by
  unfold writeCrc
  (repeat' split) <;> simp

@[simp] theorem mem_writeTel (c : Chip) (x : RegWr) : (writeTel c x).2.mem = c.mem := by
  unfold writeTel
  (repeat' split) <;> simp

/-! ### Functions of Window -/

@[simp] theorem mem_readAt (c : Chip) (r : Requester) (a : Nat) : (readAt c r a).2.2.mem = c.mem := by
  grind [readAt, mem_voteCtrl, mem_shadowRead]

@[simp] theorem mem_dropHold (c : Chip) (r : Requester) : (dropHold c r).mem = c.mem := by
  simp [dropHold]

@[simp] theorem mem_intEnWrite (c : Chip) (p : Page) (m : WMode) (w : Word) : (intEnWrite c p m w).mem = c.mem := by
  grind [intEnWrite, setHdr_mem, mem_settleEvents, mem_sendEvent]

@[simp] theorem mem_voteErrWrite (c : Chip) (p : Page) (w : Word) : (voteErrWrite c p w).mem = c.mem := by
  unfold voteErrWrite
  split <;> simp

@[simp] theorem mem_loWrite (c : Chip) (r : Requester) (row : RegRow) (bank a : Nat) (w : Word) :
    (loWrite c r row bank a w).2.mem = c.mem := by
  grind [loWrite, setReqState_mem]

@[simp] theorem mem_keepStatus (c : Chip) (r : Requester) (st : Nat) : (keepStatus c r st).mem = c.mem := by
  unfold keepStatus
  split <;> simp

/-! ### Functions of PowerUp -/

@[simp] theorem mem_extendMc2 (c : Chip) (image : List Byte) : (extendMc2 c image).mem = c.mem := by
  simp [extendMc2]

@[simp] theorem mem_overlayInForce (c : Chip) (n : Nat) (image : List Byte) :
    (overlayInForce c n image).mem = c.mem := by
  simp [overlayInForce]

@[simp] theorem mem_overlayRefused (c : Chip) (st : Nat) : (overlayRefused c st).mem = c.mem := by
  simp [overlayRefused]

@[simp] theorem mem_bootChecks (c : Chip) (failA failB last : Nat) (fallback : Bool) :
    (bootChecks c failA failB last fallback).mem = c.mem := by
  simp [bootChecks]

@[simp] theorem mem_bundleTaken (c : Chip) (b : Bool) : (bundleTaken c b).mem = c.mem := by
  simp [bundleTaken]

@[simp] theorem mem_bootReady (c : Chip) (holdupOk : Bool) : (bootReady c holdupOk).mem = c.mem := by
  unfold bootReady
  (repeat' split) <;> simp

/-! ### Functions of Access -/

@[simp] theorem mem_pecAnswer (c : Chip) (pecOk : Bool) : (pecAnswer c pecOk).mem = c.mem := by
  simp [pecAnswer]

@[simp] theorem mem_upsetReg (c : Chip) (u : Upset) : (upsetReg c u).mem = c.mem := by
  grind [upsetReg, setHdr_mem]

@[simp] theorem mem_voteSweep (c : Chip) (l : List Upset) : (voteSweep c l).mem = c.mem := by
  simp [voteSweep, mem_foldl]

end Sys2Proof.Machine
end

section
/-! The functions of the model that may write GDDR7 (for O3): each keeps the canonical form of the memory. Every write goes
through memWrite, memZero or a filter, which the laws of Table cover. -/

open Sys2Proof.Safety

namespace Sys2Proof.Machine

/-- The memory of a chip is in canonical form. -/
abbrev MemWf (c : Chip) : Prop := Memory.wf c.mem = true

/-- A fold whose every step keeps a property keeps it. -/
theorem foldl_keeps {σ α : Type} (p : σ → Prop) (g : σ → α → σ) (hg : ∀ x a, p x → p (g x a)) (l : List α) (x : σ)
    (hx : p x) : p (l.foldl g x) := by
  induction l generalizing x with
  | nil => exact hx
  | cons a r ih => exact ih _ (hg x a hx)

/-- The canonical form under a fold over chips. -/
theorem wf_foldl {α : Type} (g : Chip → α → Chip) (hg : ∀ c a, MemWf c → MemWf (g c a)) (l : List α) (c : Chip)
    (h : MemWf c) : MemWf (l.foldl g c) := foldl_keeps MemWf g hg l c h

/-- The same for a chip with a value beside it. -/
theorem wf_foldl_fst {α β : Type} (g : Chip × β → α → Chip × β) (hg : ∀ x a, MemWf x.1 → MemWf (g x a).1) (l : List α)
    (x : Chip × β) (h : MemWf x.1) : MemWf (l.foldl g x).1 := foldl_keeps (fun x => MemWf x.1) g hg l x h

/-- The same for a value with a chip beside it. -/
theorem wf_foldl_snd {α β : Type} (g : β × Chip → α → β × Chip) (hg : ∀ x a, MemWf x.2 → MemWf (g x a).2) (l : List α)
    (x : β × Chip) (h : MemWf x.2) : MemWf (l.foldl g x).2 := foldl_keeps (fun x => MemWf x.2) g hg l x h

/-- Writes of several runs of bytes keep the canonical form. -/
theorem wf_writes {α : Type} (at_ : α → Nat) (bytes : α → List Byte) (l : List α) (m : List Host.Cell)
    (h : Memory.wf m = true) : Memory.wf (l.foldl (fun m x => memWrite m (at_ x) (bytes x)) m) = true :=
  foldl_keeps (fun m => Memory.wf m = true) _ (fun m _ hm => memWrite_wf m _ _ hm) l m h

/-- Sealing the header of a block keeps the canonical form. -/
theorem sealHeader_wf (m : List Host.Cell) (a seq : Nat) (h : Memory.wf m = true) :
    Memory.wf (sealHeader m a seq) = true :=
  memWrite_wf _ _ _ (memWrite_wf _ _ _ h)

/-- Keeping some cells keeps the canonical form. -/
theorem filter_wf (m : List Host.Cell) (p : Host.Cell → Bool) (h : Memory.wf m = true) :
    Memory.wf (m.filter p) = true := by
  simp only [Memory.wf, Bool.and_eq_true, List.all_eq_true] at h ⊢
  exact ⟨keysRise_filter p m h.1, fun e he => h.2 e (List.mem_filter.1 he).1⟩

/-- `rehome` with the test of TIER's room as a parameter: the kernel would unroll its comparison with 2^30. -/
def rehomeBy (serves : Chip → Nat → Bool) (c : Chip) (k : Nat) (data : List Byte) : Chip :=
  let p := ((c.tier.heap.find? (fun x => decide ((ledger c k).gddr = some x.1))).map (·.2.2)).getD 0
  let c1 := dropGddr c k
  match (if serves c p then heapAlloc c1 p (ledger c k).size else none) with
  | some (b, c2) => putMem (setLedger c2 k { ledger c2 k with gddr := some b }) b data
  | none => putMem c ((ledger c k).gddr.getD 0) data

theorem rehome_eq_rehomeBy : rehome = rehomeBy heapServes := rfl

/-- `rehomeBy` keeps the canonical form, whatever the test is. -/
theorem wf_rehomeBy (serves : Chip → Nat → Bool) (c : Chip) (k : Nat) (data : List Byte) (h : MemWf c) :
    MemWf (rehomeBy serves c k data) := by
  unfold rehomeBy
  extract_lets p c1
  have h1 : MemWf c1 := by simpa [MemWf, c1] using h
  split
  · next b c2 hx =>
    split at hx
    · have h2 := mem_heapAlloc _ _ _ _ hx
      exact memWrite_wf _ _ _ (by rw [setLedger_mem, h2]; exact h1)
    · exact nomatch hx
  · exact memWrite_wf _ _ _ h

/-- Taking a free value leaves memory. -/
theorem mem_of_takeFree {c c' : Chip} {v : Nat} (h : takeFree c = (v, c')) : c'.mem = c.mem := by
  have := mem_takeFree c
  rwa [h] at this

/-- What leaves memory keeps its canonical form. -/
theorem wf_of_mem {c c' : Chip} (h : MemWf c) (e : c'.mem = c.mem) : MemWf c' := by rwa [MemWf, e]

/-! ### Functions of Flags -/

@[simp] theorem wf_whenAwake (c : Chip) (f : Chip → Chip) (hf : ∀ c, MemWf c → MemWf (f c)) (h : MemWf c) :
    MemWf (whenAwake c f) := by
  fun_cases whenAwake c f <;> simp [MemWf, *]

/-! ### Functions of Fig -/

@[simp] theorem wf_applyAct (c : Chip) (seq : Nat) (f : Figure) (a : Action) (h : MemWf c) :
    MemWf (applyAct c seq f a) := by
  have hw : ∀ c : Chip, c.mem = c.mem := fun _ => rfl
  cases a with
  | kvAppend b n stage => exact wf_writes _ _ stage _ h
  | blockRef refs =>
    have h1 := wf_foldl (fun c k =>
      setLedger { c with mem := sealHeader c.mem ((ledger c k).gddr.getD 0) seq } k
        { ledger c k with state := .resident, ref := 1, res := 1, refSeq := seq })
      (fun c k hc => sealHeader_wf _ _ _ hc) (refs.map (·.2)) c h
    simpa [applyAct, MemWf] using h1
  | dirSet sub fd v =>
    unfold applyAct
    dsimp only
    (repeat' split) <;> simp [MemWf, h]
  | regionSet g st =>
    unfold applyAct
    dsimp only
    (repeat' split) <;> simp [MemWf, h]
  | tableSet => simp [applyAct, MemWf, h]
  | tokenEmit => exact h
  | countBatch => exact h
  | grammarSet => exact h
  | stopSet => exact h
  | epochSet => exact h
  | exclSet => exact h
  | refAdjust => simp [applyAct, MemWf, h]
  | regOverlay => exact h
  | ckptCommit => simp [applyAct, MemWf, h]

@[simp] theorem wf_applyOne (c : Chip) (h : MemWf c) : MemWf (applyOne c) := by
  unfold applyOne
  split
  · exact h
  · next k r _ =>
    have h1 : MemWf (k.fig.acts.foldl (fun c a => applyAct c k.seq k.fig a) { c with fig := { c.fig with committed := r } }) :=
      wf_foldl _ (fun c a hc => wf_applyAct c _ _ a hc) _ _ h
    simpa [MemWf] using h1

@[simp] theorem wf_settleN (a : Nat) (a1 : Chip) (h : MemWf a1) : MemWf (settleN a a1) := by
  induction a generalizing a1 with
  | zero => exact h
  | succ n ih => exact ih _ (wf_applyOne _ h)

@[simp] theorem wf_settle (c : Chip) (h : MemWf c) : MemWf (settle c) := by
  simp [MemWf, settle, h]

@[simp] theorem wf_touch (c : Chip) (i : Nat) (h : MemWf c) : MemWf (touch c i) := by
  grind [touch, mem_bumpPair, mem_takeFree, wf_settle, mem_damageSession, mem_raise]

/-! ### Functions of Image -/

@[simp] theorem wf_putTailRows (c : Chip) (base slot : Nat) (s : LayerShape) (rows : List (List Byte)) (h : MemWf c) :
    MemWf (putTailRows c base slot s rows) := by
  exact wf_writes _ _ _ _ h

@[simp] theorem wf_putMem (c : Chip) (a : Nat) (l : List Byte) (h : MemWf c) : MemWf (putMem c a l) := by
  exact memWrite_wf _ _ _ h

@[simp] theorem wf_placeColdTails (c : Chip) (dense : Bool) (slot len base : Nat) (img : List Byte) (h : MemWf c) :
    MemWf (placeColdTails c dense slot len base img) := by
  exact wf_putMem _ _ _ (wf_foldl _ (fun c x hc => wf_putTailRows c _ _ _ _ hc) _ _ h)

/-! ### Functions of Revive -/

@[simp] theorem wf_rebuildCold (c : Chip) (i : Nat) (r : Revival) (h : MemWf c) : MemWf (rebuildCold c i r).2 := by
  unfold rebuildCold
  (repeat' split) <;> simp [MemWf, h]

@[simp] theorem wf_blockArrived (c : Chip) (k : Nat) (data : List Byte) (h : MemWf c) :
    MemWf (blockArrived c k data) := by
  simp [MemWf, blockArrived, h, apply_ite Chip.mem, mem_foldl]

@[simp] theorem wf_rehome (c : Chip) (k : Nat) (data : List Byte) (h : MemWf c) : MemWf (rehome c k data) := by
  rw [rehome_eq_rehomeBy]
  exact wf_rehomeBy _ _ _ _ h

@[simp] theorem wf_lostCopy (c : Chip) (cls a k : Nat) (h : MemWf c) : MemWf (lostCopy c cls a k) := by
  grind [lostCopy, mem_flashRead, mem_fault, wf_rehome, mem_flashCopyBad, mem_damageBlock]

@[simp] theorem wf_checkCopies (c : Chip) (ks : List Nat) (h : MemWf c) : MemWf (checkCopies c ks) := by
  unfold checkCopies
  refine wf_foldl _ (fun c a h => ?_) _ _ h
  (repeat' split) <;> simp [MemWf, h]

@[simp] theorem wf_flushBlock (c : Chip) (part k : Nat) (avoid : Option Nat) (h : MemWf c) :
    MemWf (flushBlock c part k avoid).2 := by
  grind [flushBlock, wf_lostCopy, mem_flashWriteTo, mem_bumpPair]

@[simp] theorem wf_flushRest (part : Nat) (a : Chip) (a2 : Option Nat) (a3 : List Nat) (h : MemWf a) :
    MemWf (flushRest part a a2 a3).2 := by
  induction a3 generalizing a a2 with
  | nil => exact h
  | cons k r ih =>
    have h1 := wf_flushBlock a part k a2 h
    unfold flushRest
    split
    next st c1 hf =>
    rw [hf] at h1
    split
    · exact ih _ _ h1
    · exact h1

@[simp] theorem wf_flushBlocks (part : Nat) (c : Chip) (l : List Nat) (h : MemWf c) :
    MemWf (flushBlocks part c l).2 := by
  simp [MemWf, flushBlocks, h]

@[simp] theorem wf_startEvict (c : Chip) (i : Nat) (h : MemWf c) : MemWf (startEvict c i) := by
  grind [startEvict, wf_flushBlocks, mem_flashWriteTo, mem_bumpPair, setBody_mem]

@[simp] theorem wf_pressOn (c : Chip) (p : Nat) (h : MemWf c) : MemWf (pressOn c p) := by
  unfold pressOn
  split
  · exact h
  · split
    · simpa [MemWf] using wf_foldl _ (fun c i hc => wf_startEvict c i hc) _ _ h
    · exact h

@[simp] theorem wf_pumpPressure (c : Chip) (h : MemWf c) : MemWf (pumpPressure c) := by
  unfold pumpPressure
  refine wf_foldl _ (fun c a h => ?_) _ _ h
  simp [MemWf, h]

/-! ### Functions of FlashOps -/

@[simp] theorem wf_putEntry (c : Chip) (a : Nat) (v : DWord) (h : MemWf c) : MemWf (putEntry c a v) := by
  simp [MemWf, putEntry, h]

@[simp] theorem wf_damageEntry (c : Chip) (a : Nat) (h : MemWf c) : MemWf (damageEntry c a) := by
  simp [MemWf, damageEntry, h]

@[simp] theorem wf_moveAddr (c : Chip) (old new : Nat) (h : MemWf c) : MemWf (moveAddr c old new).2 := by
  unfold moveAddr
  extract_lets bl im ev en held c1 c2 c3 c4
  have h3 : c3.mem = c.mem := (mem_foldl _ (fun c i => setBody_mem ..) _ _).trans
    ((mem_foldl _ (fun c i => setBody_mem ..) _ _).trans (mem_foldl _ (fun c i => setLedger_mem ..) _ _))
  exact wf_foldl _ (fun c a hc => wf_putEntry c a _ hc) _ _ (by rw [MemWf, h3]; exact h)

@[simp] theorem wf_ownerLost (c : Chip) (addr : Nat) (h : MemWf c) : MemWf (ownerLost c addr) := by
  unfold ownerLost
  extract_lets c1 c2 c3
  have h3 : c3.mem = c.mem := (mem_foldl _ (fun c i => setBody_mem ..) _ _).trans
    ((mem_foldl _ (fun c i => mem_hurtSession ..) _ _).trans (mem_foldl _ (fun c i => mem_blockLost ..) _ _))
  exact wf_foldl _ (fun c a hc => wf_damageEntry c a hc) _ _ (by rw [MemWf, h3]; exact h)

@[simp] theorem wf_relocated (c : Chip) (old new : Nat) (h : MemWf c) : MemWf (relocated c old new) := by
  grind [relocated, wf_moveAddr, mem_dropObject]

@[simp] theorem wf_moveNow (c : Chip) (e : Nat) (o : Nat × FObj) (h : MemWf c) : MemWf (moveNow c e o) := by
  unfold moveNow
  dsimp only
  split
  · simpa [MemWf] using h
  · next hp =>
    have hc := mem_placeWrite _ _ _ _ _ hp
    simp only [mem_takeFree] at hc
    split
    · rw [MemWf, hc]; exact h
    · refine wf_moveAddr _ _ _ ?_
      simp only [MemWf, mem_bumpPair, mem_takeFree, hc]
      exact h

@[simp] theorem wf_destroyObject (c : Chip) (addr : Nat) (ok : Bool) (h : MemWf c) :
    MemWf (destroyObject c addr ok) := by
  unfold destroyObject
  split
  · next e _ _ =>
    extract_lets c0 _ c1 c2
    have h0 : MemWf c0 := by
      simp only [c0, MemWf, mem_dropCopy, mem_replaceWrites]
      split <;> simp [h]
    have h2 : MemWf c2 := by
      simp only [c2, MemWf, mem_moveWhole]
      exact wf_foldl _ (fun c o hc => wf_moveNow c e o hc) _ _ h0
    dsimp only
    split <;> simpa [MemWf] using h2
  · exact h

/-! ### Functions of Sess -/

@[simp] theorem wf_finishOp (c0 : Chip) (i status : Nat) (h : MemWf c0) : MemWf (finishOp c0 i status) := by
  grind [finishOp, wf_settle, mem_abandonRevival, mem_openFig, mem_endNow]

@[simp] theorem wf_forkMake (c : Chip) (i : Nat) (o : Op) (req : ForkReq) (k : Nat) (addrs : List Nat) (h : MemWf c) :
    MemWf (forkMake c i o req k addrs) := by
  unfold forkMake
  extract_lets e b p l blocks ids claims whole sealed base decoded rows c1 c2 spans
  have h1 : MemWf c1 := wf_foldl _ (fun c x hc => wf_putTailRows c _ _ _ _ hc) _ _ h
  have h2 : MemWf c2 := by
    unfold c2
    split
    · exact wf_putMem _ _ _ h1
    · exact h1
  split
  next v c3 h3 =>
  have h4 : c3.mem = c2.mem := by rw [← mem_takeFree c2, h3]
  extract_lets
  split
  · rw [MemWf, mem_endNow]; exact h
  · rw [MemWf, mem_openFig, mem_setHead, h4]; exact h2

@[simp] theorem wf_forkBegin (c : Chip) (i : Nat) (o : Op) (req : ForkReq) (h : MemWf c) :
    MemWf (forkBegin c i o req) := by
  fun_cases forkBegin c i o req
  case case1 e p st _ c1 =>
    rw [MemWf, mem_endNow]
    have h1 : c1.mem = c.mem := by unfold c1; split <;> simp
    split <;> simp [h1, h]
  case case2 => rw [MemWf, mem_endNow]; exact h
  case case3 ks ca _ => rw [MemWf, mem_hurtSession]; exact wf_checkCopies _ _ h
  case case4 ks ca _ _ _ _ _ _ _ _ _ _ => rw [MemWf, mem_endNow]; exact wf_checkCopies _ _ h
  case case5 ks ca _ k addrs c1 ha _ v c2 ht _ =>
    have h1 : MemWf c1 := by rw [MemWf, mem_heapAllocs _ _ _ _ ha]; exact wf_checkCopies _ _ h
    refine wf_forkMake _ _ _ _ _ _ ?_
    split
    · rw [show c2 = (takeFree c1).2 by rw [ht], MemWf, mem_takeFree]; exact h1
    · exact h1
  case case6 => rw [MemWf, mem_endNow]; exact wf_checkCopies _ _ h

@[simp] theorem wf_beginOp (c : Chip) (i : Nat) (o : Op) (h : MemWf c) : MemWf (beginOp c i o) := by
  grind [beginOp, mem_setHead, mem_endNow, mem_appendBegin, mem_generateBegin, mem_startRevival, wf_forkBegin,
    mem_excludeBegin, mem_offerBegin, mem_reviveOrReady, mem_figOp, mem_endBegin]

@[simp] theorem wf_kickN (a : Nat) (a1 : Chip) (h : MemWf a1) : MemWf (kickN a a1) := by
  induction a generalizing a1 with
  | zero => exact h
  | succ n ih =>
    unfold kickN
    split
    · exact h
    · refine ih _ (wf_foldl _ (fun c i hc => ?_) _ _ h)
      split
      · exact wf_beginOp _ _ _ (wf_settle _ hc)
      · exact hc

@[simp] theorem wf_kick (c : Chip) (h : MemWf c) : MemWf (kick c) := by
  simp [MemWf, kick, h]

@[simp] theorem wf_request (c : Chip) (conn : Nat) (tag : DWord) (handle : Word) (code : Nat) (arg : OpArg)
    (h : MemWf c) :
    MemWf (request c conn tag handle code arg) := by
  grind [request, wf_settle, mem_rejectReq, wf_touch, mem_answerReq, wf_kick, mem_enqueue]

@[simp] theorem wf_queryReq (c : Chip) (conn : Nat) (tag : DWord) (handle : Word) (h : MemWf c) :
    MemWf (queryReq c conn tag handle) := by
  grind [queryReq, wf_settle, mem_rejectReq, wf_touch, mem_answerReq]

@[simp] theorem wf_openReq (c : Chip) (conn : Nat) (tag : DWord) (req : OpenReq) (h : MemWf c) :
    MemWf (openReq c conn tag req) := by
  fun_cases openReq c conn tag req
  case case1 => rw [MemWf, mem_rejectReq]; exact wf_settle _ h
  case case2 c1 p _ st _ c2 =>
    rw [MemWf, mem_rejectReq]
    have h2 : c2.mem = c1.mem := by unfold c2; split <;> simp
    have h1 : MemWf c1 := wf_settle _ h
    split <;> simpa [MemWf, h2] using h1
  case case3 c1 p _ st _ slot k addrs c2 ha _ v c3 ht old new base c4 gram =>
    rw [MemWf, mem_openFig]
    refine memZero_wf _ _ _ ?_
    rw [show c3 = (takeFree c2).2 by rw [ht], mem_takeFree, mem_heapAllocs _ _ _ _ ha]
    exact wf_settle _ h
  case case4 => rw [MemWf, mem_rejectReq]; exact wf_settle _ h

@[simp] theorem wf_zeroHeld (c : Chip) (i : Nat) (h : MemWf c) : MemWf (zeroHeld c i) := by
  have h1 := foldl_keeps (fun m => Memory.wf m = true) (fun m a => if a = 0 then m else memZero m a
      (((c.tier.heap.find? (fun x => x.1 = a)).map (fun x => x.2.1)).getD 0))
    (fun m a hm => by split; exacts [hm, memZero_wf _ _ _ hm])
    [(entry c i).tailBase, (entry c i).smallState, (entry c i).exclTable] c.mem h
  refine foldl_keeps (fun m => Memory.wf m = true) _ (fun m k hm => ?_) _ _ h1
  split
  · exact memZero_wf _ _ _ hm
  · exact hm

@[simp] theorem wf_releaseDone (c : Chip) (i : Nat) (verified : Bool) (h : MemWf c) :
    MemWf (releaseDone c i verified) := by
  unfold releaseDone
  extract_lets e b new kept objs c1 c2 c3
  split
  · exact h
  · split
    · rw [MemWf, mem_openFig]; exact h
    · have h2 : MemWf c2 := wf_foldl _ (fun c x hc => wf_destroyObject c _ _ hc) _ _ (by
        rw [MemWf, mem_zeroCores]; exact wf_zeroHeld _ _ h)
      have h3 : MemWf c3 := by
        unfold c3
        split
        · exact h2
        · rw [MemWf, mem_fault]; exact h2
      rw [MemWf, mem_openFig]; exact h3

/-! ### Functions of Tier -/

@[simp] theorem wf_revivalOk (c : Chip) (i : Nat) (r : Revival) (o : Op) (rest : List Op) (elapsed : Word)
    (h : MemWf c) :
    MemWf (revivalOk c i r o rest elapsed) := by
  fun_cases revivalOk c i r o rest elapsed <;> grind [wf_rebuildCold, mem_dropRevival, setOps_mem, mem_bump,
    mem_openFig]

@[simp] theorem wf_revivalLate (c0 : Chip) (i : Nat) (r : Revival) (o : Op) (h : MemWf c0) :
    MemWf (revivalLate c0 i r o) := by
  grind [revivalLate, mem_imageRead, mem_endNow, mem_abandonRevival, wf_rebuildCold, mem_dropRevival, mem_openFig]

@[simp] theorem wf_revivalDone (c0 : Chip) (i elapsed : Nat) (image : ReadResult) (h : MemWf c0) :
    MemWf (revivalDone c0 i elapsed image) := by
  grind [revivalDone, mem_noteRetry, mem_failRevival, mem_fault, mem_raise, mem_bump, wf_revivalOk, wf_revivalLate]

@[simp] theorem wf_blockReadDone (c : Chip) (k : Nat) (res : ReadResult) (h : MemWf c) :
    MemWf (blockReadDone c k res) := by
  grind [blockReadDone, mem_flashRead, mem_noteRetry, wf_blockArrived, mem_flashCopyBad]

@[simp] theorem wf_ageFlush (c : Chip) (i : Nat) (h : MemWf c) : MemWf (ageFlush c i) := by
  unfold ageFlush
  split <;> simp [MemWf, h]

@[simp] theorem wf_pressureEvict (c : Chip) (p : Nat) (h : MemWf c) : MemWf (pressureEvict c p) := by
  unfold pressureEvict
  split <;> simp [MemWf, h]

@[simp] theorem wf_coldAgeEvict (c : Chip) (i : Nat) (h : MemWf c) : MemWf (coldAgeEvict c i) := by
  unfold coldAgeEvict
  split <;> simp [MemWf, h]

@[simp] theorem wf_evictionCommit (c : Chip) (i : Nat) (h : MemWf c) : MemWf (evictionCommit c i) := by
  grind [evictionCommit, wf_flushBlocks, mem_cancelEvict, mem_openFig]

@[simp] theorem wf_uncorrectable (c : Chip) (cls a : Nat) (h : MemWf c) : MemWf (uncorrectable c cls a) := by
  grind [uncorrectable, mem_fault, setEntry_mem, wf_lostCopy, mem_hurtSession, mem_flashRead, wf_putMem]

@[simp] theorem wf_readBurst (c : Chip) (masked lost a : Nat) (res : EccResult) (h : MemWf c) :
    MemWf (readBurst c masked lost a res) := by
  unfold readBurst
  split <;> simp [MemWf, h]

@[simp] theorem wf_patrol (c : Chip) (a : Nat) (res : EccResult) (passEnd : Bool) (h : MemWf c) :
    MemWf (patrol c a res passEnd) := by
  unfold patrol
  split <;> simp [MemWf, h]

/-! ### Functions of Grid -/

@[simp] theorem wf_issue (c : Chip) (n : Nat) (f : Core → IRes) (post : Chip → Chip) (hpost : ∀ c, MemWf c → MemWf
    (post c)) (h : MemWf c) :
    MemWf (issue c n f post) := by
  fun_cases issue c n f post <;> simp [MemWf, *]

@[simp] theorem wf_copyBlock (c : Chip) (n : Nat) (d : Desc) (res : EccResult) (h : MemWf c) :
    MemWf (copyBlock c n d res) := by
  grind [copyBlock, wf_checkCopies, wf_readBurst, mem_putPieces, mem_markBad]

@[simp] theorem wf_copyTail (c : Chip) (n : Nat) (d : Desc) (res : EccResult) (h : MemWf c) :
    MemWf (copyTail c n d res) := by
  unfold copyTail
  (repeat' split) <;> simp [MemWf, h]

@[simp] theorem wf_copyLoad (c : Chip) (n : Nat) (d : Desc) (res : EccResult) (h : MemWf c) :
    MemWf (copyLoad c n d res) := by
  unfold copyLoad
  split <;> simp [MemWf, h]

@[simp] theorem wf_copyOne (c : Chip) (n : Nat) (d : Desc) (res : EccResult) (h : MemWf c) :
    MemWf (copyOne c n d res) := by
  unfold copyOne
  (repeat' split) <;> simp [MemWf, h]

@[simp] theorem wf_copyPlanDone (c : Chip) (n plan : Nat) (met : List (Nat × EccResult)) (replays : Nat) (h : MemWf c) :
    MemWf (copyPlanDone c n plan met replays) := by
  unfold copyPlanDone
  split
  · exact h
  · rw [MemWf, mem_wakeCore, setCore_mem]
    exact wf_foldl _ (fun c e hc => wf_copyOne _ _ _ _ hc) _ _ (by rw [MemWf, mem_bump]; exact h)

@[simp] theorem wf_traceRecord (c : Chip) (n cycles : Nat) (h : MemWf c) : MemWf (traceRecord c n cycles) := by
  unfold traceRecord
  extract_lets tag r k
  split
  · exact h
  · split
    · rw [MemWf, mem_bump]; exact h
    · exact memWrite_wf _ _ _ h

@[simp] theorem wf_placementDone (c : Chip) (n cycles : Nat) (h : MemWf c) : MemWf (placementDone c n cycles) := by
  grind [placementDone, wf_traceRecord, mem_addSample, mem_becomeLame, setCore_mem, mem_runTests]

/-! ### Functions of Sched -/

@[simp] theorem wf_joinStep (c : Chip) (i : Nat) (h : MemWf c) : MemWf (joinStep c i) := by
  grind [joinStep, setJobs_mem, mem_setHead, wf_touch, mem_openFig]

@[simp] theorem wf_releaseStep (c : Chip) (p : Nat) (ws : List Work) (trimmed : Bool) (h : MemWf c) :
    MemWf (releaseStep c p ws trimmed) := by
  fun_cases releaseStep c p ws trimmed
  case case1 dec chk engines c1 c2 c3 v c4 hx ring st c5 =>
  have h2 : MemWf c2 := by
    show MemWf (if trimmed then raise c1 .attn 18 else c1)
    split
    · simpa [MemWf] using h
    · exact h
  have h3 : MemWf c3 := wf_foldl _ (fun c w hc => wf_joinStep c w.idx hc) _ _ h2
  have h4 : MemWf c4 := by
    split at hx
    · rw [MemWf, mem_of_takeFree hx]; exact h3
    · cases hx; exact h3
  rw [MemWf, mem_placeWaiting]
  split
  · exact h4
  · rw [setReg_mem]; exact h4

@[simp] theorem wf_formStep (c : Chip) (p : Nat) (force : Bool) (late : List Word) (h : MemWf c) :
    MemWf (formStep c p force late) := by
  have shown (c0 : Chip) (b : Bool) (w : Word) :
      (if b then raise (setRegB c0 p aSCHED_QUEUE w) .tier 17 else setRegB c0 p aSCHED_QUEUE w).mem = c0.mem := by
    split <;> simp
  have h0 : MemWf (ratioAtBoundary c p) := by simpa [MemWf] using h
  fun_cases formStep c p force late
  case case1 => exact (congrArg Memory.wf (shown _ _ _)).trans h0
  case case2 => exact (congrArg Memory.wf (shown _ _ _)).trans h0
  case case3 c0 el0 el ws served hs full dec chk shown' _ _ _ _ _ _ =>
    rw [MemWf, mem_raise]; exact (congrArg Memory.wf (shown _ _ _)).trans h0
  all_goals
    next c0 el0 el ws served hs full dec chk shown' _ _ _ _ _ _ c2 ws' trimmed hr gone c3 c4 _ =>
    have h1 : MemWf served := by
      have := mem_serveSeals c0 late (el0.length + 1) el0
      rw [hs] at this
      exact (congrArg Memory.wf this).trans h0
    have h2 : MemWf c2 := (congrArg Memory.wf (shown _ _ _)).trans h1
    have h3 : MemWf c3 := wf_foldl _ (fun c w hc => by rw [MemWf, mem_freeStaged]; exact hc) _ _ h2
    have h4 : MemWf c4 := by rw [MemWf, mem_leftOut]; exact h3
    first | exact h4 | exact wf_releaseStep _ _ _ _ h4

@[simp] theorem wf_boundaryQueues (c : Chip) (p : Nat) (h : MemWf c) : MemWf (boundaryQueues c p) := by
  simp [MemWf, boundaryQueues, h, mem_foldl]

/-! ### Functions of StepEnd -/

@[simp] theorem wf_scatterWork (c : Chip) (s : LayerShape) (w : Work) (h : MemWf c) : MemWf (scatterWork c s w) := by
  unfold scatterWork
  extract_lets e
  split
  · exact h
  · refine wf_foldl _ (fun c r hc => ?_) _ _ h
    dsimp only
    split
    · exact wf_putMem _ _ _ hc
    · exact hc

@[simp] theorem wf_scatterLayer (c : Chip) (e : Engine) (res : LayerResult) (h : MemWf c) :
    MemWf (scatterLayer c e res).2 := by
  unfold scatterLayer
  extract_lets d k
  split
  · exact h
  · split
    · exact h
    · split
      · exact h
      · next s _ =>
        split
        next ws c0 ha =>
        have h0 : MemWf c0 := by
          have := mem_attendLayer c e s res.queries (e.works.map (storeFresh c s res.fresh))
          rw [ha] at this; rw [MemWf, this]; exact h
        have h1 := wf_foldl (fun c w => scatterWork c s w) (fun c w hc => wf_scatterWork _ _ _ hc) ws c0 h0
        simpa [MemWf] using h1

@[simp] theorem wf_sealOne (c : Chip) (w : Work) (nodes : List Nat) (g k : Nat) (s : LayerShape) (h : MemWf c) :
    MemWf (sealOne c w nodes g k s) := by
  simp [MemWf, sealOne, h]

@[simp] theorem wf_sealGroups (c : Chip) (w : Work) (nodes : List Nat) (h : MemWf c) :
    MemWf (sealGroups c w nodes).2.2 := by
  unfold sealGroups
  extract_lets e sh g0
  refine foldl_keeps (fun x : List Action × List Nat × Chip => MemWf x.2.2) _ (fun x j hx => ?_) _ _ h
  exact wf_foldl _ (fun c y hc => wf_sealOne _ _ _ _ _ _ hc) _ _ hx

@[simp] theorem wf_compact (c : Chip) (w : Work) (nodes : List Nat) (h : MemWf c) : MemWf (compact c w nodes) := by
  unfold compact
  extract_lets e c1 off
  have h1 : MemWf c1 := by
    refine wf_foldl _ (fun c s hc => ?_) _ _ h
    refine wf_foldl _ (fun c r hc => ?_) _ _ hc
    dsimp only
    split
    · exact wf_putMem _ _ _ hc
    · exact hc
  split
  · rw [MemWf, mem_bumpPair]; exact h1
  · exact h1

@[simp] theorem wf_stepFigure (c : Chip) (w : Work) (nodes : List Nat) (acts : List Action) (new : Session)
    (after : List After) (h : MemWf c) :
    MemWf (stepFigure c w nodes acts new after) := by
  simp [MemWf, stepFigure, h]

@[simp] theorem wf_deadEnd (c : Chip) (i : Nat) (h : MemWf c) : MemWf (deadEnd c i) := by
  simp [MemWf, deadEnd, h]

@[simp] theorem wf_finishReplay (c : Chip) (w : Work) (o : Op) (req : GenReq) (h : MemWf c) :
    MemWf (finishReplay c w o req) := by
  unfold finishReplay
  split <;> simp [MemWf, h]

@[simp] theorem wf_finishCarried (c : Chip) (w : Work) (o : Op) (req : GenReq) (h : MemWf c) :
    MemWf (finishCarried c w o req) := by
  grind [finishCarried, mem_bumpPair, wf_deadEnd, mem_abortWork, mem_carryToken, mem_countBatch, mem_vocabMisses,
    mem_bumpPairB, wf_stepFigure]

@[simp] theorem wf_finishClosing (c : Chip) (w : Work) (o : Op) (req : GenReq) (h : MemWf c) :
    MemWf (finishClosing c w o req) := by
  grind [finishClosing, mem_countBatch, mem_bump, mem_vocabMisses, mem_bumpPairB, wf_stepFigure]

@[simp] theorem wf_finishChunk (c : Chip) (w : Work) (o : Op) (h : MemWf c) : MemWf (finishChunk c w o) := by
  unfold finishChunk
  split <;> simp [MemWf, h]

@[simp] theorem wf_finishWork (c : Chip) (w : Work) (h : MemWf c) : MemWf (finishWork c w) := by
  unfold finishWork
  (repeat' split) <;> simp [MemWf, h]

@[simp] theorem wf_endDrained (c : Chip) (p : Nat) (h : MemWf c) : MemWf (endDrained c p) := by
  unfold endDrained
  refine wf_foldl _ (fun c a h => ?_) _ _ h
  simp [MemWf, h]

@[simp] theorem wf_advanceStep (c : Chip) (p : Nat) (h : MemWf c) : MemWf (advanceStep c p) := by
  grind [advanceStep, wf_endDrained, mem_closeStep, setSched_mem, mem_placeWaiting]

@[simp] theorem wf_endLayers (c : Chip) (p : Nat) (st : Step) (res : LayerResult) (last : EngineKind) (h : MemWf c) :
    MemWf (endLayers c p st res last) := by
  unfold endLayers
  extract_lets c1 two st1
  have h1 : MemWf c1 := wf_foldl _ (fun c w hc => wf_finishWork c w hc) _ _ h
  exact wf_advanceStep _ _ (by rw [MemWf, setSched_mem]; exact h1)

@[simp] theorem wf_draftEnd (c0 : Chip) (p : Nat) (st : Step) (level : Nat) (res : LayerResult) (h : MemWf c0) :
    MemWf (draftEnd c0 p st level res) := by
  have hd : MemWf ((draftOps (settle c0) p).foldl (fun c x => draftLevel c level res.drafts x) (settle c0)) :=
    wf_foldl _ (fun c x hc => by simpa [MemWf] using hc) _ _ (wf_settle _ h)
  fun_cases draftEnd c0 p st level res
  · exact wf_advanceStep _ _ hd
  · rw [MemWf, mem_placeWaiting]; exact hd

@[simp] theorem wf_stepBoundary (c0 : Chip) (p : Nat) (late : List Word) (h : MemWf c0) :
    MemWf (stepBoundary c0 p late) := by
  grind [stepBoundary, wf_advanceStep, mem_placeWaiting, wf_settle, wf_boundaryQueues, wf_formStep]

@[simp] theorem wf_layerEnd (c : Chip) (p : Nat) (k : EngineKind) (res : LayerResult) (h : MemWf c) :
    MemWf (layerEnd c p k res) := by
  grind [layerEnd, wf_kick, wf_settle, wf_draftEnd, wf_scatterLayer, mem_placeLayer, setSched_mem, mem_endEngine,
    wf_endLayers]

/-! ### Functions of Xpt -/

@[simp] theorem wf_rxData (c : Chip) (l : Link) (p : Pkt) (effect : Chip → Nat → Chip)
    (heffect : ∀ c n, MemWf c → MemWf (effect c n)) (h : MemWf c) :
    MemWf (rxData c l p effect) := by
  grind [rxData, mem_rxGate, mem_bump, mem_rxSeq, mem_sendAck]

@[simp] theorem wf_placeAcc (c : Chip) (n : Nat) (s : Word) (h : MemWf c) : MemWf (placeAcc c n s) := by
  unfold placeAcc
  extract_lets before
  split
  · exact h
  · split
    · exact h
    · rw [MemWf, mem_unpend, mem_dropAcc]
      exact memWrite_wf _ _ _ h

@[simp] theorem wf_respAccess (c : Chip) (n : Nat) (p : Pkt) (h : MemWf c) : MemWf (respAccess c n p) := by
  fun_cases respAccess c n p <;> simp [MemWf, *]

@[simp] theorem wf_registerReq (c : Chip) (n : Nat) (tag : DWord) (req : RegReq) (h : MemWf c) :
    MemWf (registerReq c n tag req) := by
  have hs : MemWf (settle c) := wf_settle _ h
  fun_cases registerReq c n tag req
  case case1 => simpa [MemWf] using hs
  case case2 c0 p hp st hst c1 =>
    rw [MemWf, mem_answerRegion]
    show Memory.wf (if _ then raise c0 .xpt 21 else c0).mem = true
    split
    · rw [mem_raise]; exact hs
    · exact hs
  case case3 c0 p hp st hst i a c1 hf hx =>
    rw [MemWf, mem_takeRange]
    split at hf
    · rw [mem_heapAlloc _ _ _ _ hf]; exact hs
    · exact nomatch hf
  case case4 => rw [MemWf, mem_answerRegion]; exact hs

@[simp] theorem wf_zeroDone (c : Chip) (i : Nat) (h : MemWf c) : MemWf (zeroDone c i) := by
  fun_cases zeroDone c i
  · exact wf_settle _ h
  next c r _ t c1 hx =>
    have hc : MemWf c := wf_settle _ h
    have h1 : MemWf c1 := by
      have := mem_takeFine { c with mem := memZero c.mem r.base r.len }
      rw [hx] at this
      rw [MemWf, this]; exact memZero_wf _ _ _ hc
    exact wf_settle _ (by rw [MemWf, mem_openFig]; exact h1)

@[simp] theorem wf_revokeRegion (c : Chip) (i reply : Nat) (tag : DWord) (h : MemWf c) :
    MemWf (revokeRegion c i reply tag) := by
  simp [MemWf, revokeRegion, h]

@[simp] theorem wf_revokeReq (c : Chip) (n : Nat) (tag : DWord) (reg : Word) (h : MemWf c) :
    MemWf (revokeReq c n tag reg) := by
  grind [revokeReq, wf_settle, mem_answerRegion, wf_revokeRegion]

@[simp] theorem wf_revokeDrained (c : Chip) (i : Nat) (h : MemWf c) : MemWf (revokeDrained c i) := by
  grind [revokeDrained, wf_settle, mem_openFig, mem_takeFine]

/-! ### Functions of Cut -/

@[simp] theorem wf_withCut (c : Chip) (m : CutMsg) (f : Chip → Chip) (hf : ∀ c, MemWf c → MemWf (f c)) (h : MemWf c) :
    MemWf (withCut c m f) := by
  grind [withCut, mem_bump, wf_settle, wf_kick]

@[simp] theorem wf_dropLanding (c : Chip) (x : CutRec) (h : MemWf c) : MemWf (dropLanding c x) := by
  grind [dropLanding, setRegion_mem, wf_settle, mem_openFig, mem_releaseRest]

@[simp] theorem wf_discardDst (c : Chip) (i : Nat) (r : Option CutRec) (h : MemWf c) : MemWf (discardDst c i r) := by
  unfold discardDst
  (repeat' split) <;> simp [MemWf, h]

@[simp] theorem wf_releaseRx (c : Chip) (n : Nat) (m : CutMsg) (h : MemWf c) : MemWf (releaseRx c n m) := by
  unfold releaseRx
  (repeat' split) <;> simp [MemWf, h]

theorem wf_placeImageBlock (c : Chip) (r : CutRec) (slot layers base : Nat) (img : List Byte)
    (b : Nat × Nat × LayerShape) (h : MemWf c) :
    ∀ y, placeImageBlock c r slot layers base img b = some y → MemWf y.2 := by
  intro y hy
  unfold placeImageBlock at hy
  extract_lets dense s at hy
  split at hy
  · split at hy
    · exact nomatch hy
    · next hs =>
      rw [← Option.some.inj hy]
      exact wf_putMem _ _ _ (by rw [MemWf, mem_stageBlock _ _ _ _ hs]; exact h)
  · split at hy
    next v c1 ht =>
    have h1 : c1.mem = c.mem := by rw [← mem_takeFree c, ht]
    split at hy
    · exact nomatch hy
    · rw [← Option.some.inj hy]
      exact wf_putMem _ _ _ (by rw [MemWf, mem_noteLedger, setLedger_mem, h1]; exact h)

theorem wf_placeBlocks (r : CutRec) (slot layers base : Nat) (img : List Byte) (a : Chip) (a6 : List
    (Nat × Nat × LayerShape)) (h : MemWf a) :
    ∀ y, placeBlocks r slot layers base img a a6 = some y → MemWf y.2 := by
  induction a6 generalizing a with
  | nil => intro y hy; cases hy; exact h
  | cons b rest ih =>
    intro y hy
    rw [placeBlocks] at hy
    split at hy
    · exact nomatch hy
    next k c1 h1 =>
      have hc := wf_placeImageBlock a r slot layers base img b h _ h1
      split at hy
      · exact nomatch hy
      next l c2 h2 =>
        have hr := ih c1 hc (l, c2) h2
        cases hy; exact hr

theorem wf_placeGroups (r : CutRec) (slot layers base : Nat) (img : List Byte) (blocks : List
    (Nat × Nat × LayerShape)) (a : Chip) (a7 : List Nat) (h : MemWf a) :
    ∀ y, placeGroups r slot layers base img blocks a a7 = some y → MemWf y := by
  induction a7 generalizing a with
  | nil => intro y hy; cases hy; exact h
  | cons g rest ih =>
    intro y hy
    rw [placeGroups] at hy
    split at hy
    · exact nomatch hy
    next refs c1 h1 =>
      have hc := wf_placeBlocks r slot layers base img a _ h _ h1
      exact ih _ (by rw [MemWf, mem_openFig]; exact hc) _ hy

@[simp] theorem wf_conversionStart (c : Chip) (i : Nat) (h : MemWf c) : MemWf (conversionStart c i) := by
  grind [conversionStart, wf_revokeDrained, mem_declineImage, mem_splitLanding, wf_placeGroups, setCut_mem]

@[simp] theorem wf_conversionDone (c : Chip) (i : Nat) (h : MemWf c) : MemWf (conversionDone c i) := by
  fun_cases conversionDone c i
  case case4 r hr hc e img m c0 addrs c1 hx n c2 c3 v c4 ht area spans new acts c5 r1 =>
    have h1 : MemWf c1 := by
      split at hx
      · rw [MemWf, mem_heapAllocs _ _ _ _ hx]; simpa [MemWf, c0] using h
      · exact nomatch hx
    have h2 : MemWf c2 := wf_foldl_snd _ (fun a s ha => wf_putTailRows _ _ _ _ _ ha) _ _ h1
    have h3 : MemWf c3 := wf_putMem _ _ _ h2
    have h4 : MemWf c4 := by rw [MemWf, mem_of_takeFree ht]; exact h3
    rw [MemWf, mem_openFig, setBody_mem, mem_releaseRest]
    exact h4
  all_goals exact h

@[simp] theorem wf_withdrawRx (c : Chip) (n : Nat) (m : CutMsg) (h : MemWf c) : MemWf (withdrawRx c n m) := by
  unfold withdrawRx
  (repeat' split) <;> simp [MemWf, h]

@[simp] theorem wf_reclaimRx (c : Chip) (n : Nat) (m : CutMsg) (h : MemWf c) : MemWf (reclaimRx c n m) := by
  fun_cases reclaimRx c n m <;> simp [MemWf, *]

@[simp] theorem wf_acceptRx (c : Chip) (n : Nat) (m : CutMsg) (h : MemWf c) : MemWf (acceptRx c n m) := by
  grind [acceptRx, wf_checkCopies, mem_hurtSession, wf_settle, mem_srcWithdraw, setCut_mem, mem_remoteWrite]

@[simp] theorem wf_standingDst (c : Chip) (m : CutMsg) (r : Option CutRec) (i : Nat) (h : MemWf c) :
    MemWf (standingDst c m r i) := by
  fun_cases standingDst c m r i <;> simp [MemWf, *]

@[simp] theorem wf_standingRx (c : Chip) (n : Nat) (m : CutMsg) (h : MemWf c) : MemWf (standingRx c n m) := by
  unfold standingRx
  (repeat' split) <;> simp [MemWf, h]

@[simp] theorem wf_withHandle (c : Chip) (hdl : Word) (f : Chip → Nat → Chip) (hf : ∀ c n, MemWf c → MemWf (f c n))
    (h : MemWf c) :
    MemWf (withHandle c hdl f) := by
  unfold withHandle
  split
  · exact h
  · extract_lets c1
    have h1 : MemWf c1 := wf_settle _ h
    split
    · exact wf_settle _ (wf_kick _ (wf_settle _ (hf _ _ h1)))
    · exact h1

@[simp] theorem wf_cutResolve (c : Chip) (hdl : Word) (act : Nat) (h : MemWf c) : MemWf (cutResolve c hdl act).2 := by
  fun_cases cutResolve c hdl act <;> simp [MemWf, *]

/-! ### Functions of Port -/

@[simp] theorem wf_whenLinked (c : Chip) (f : Chip → Chip) (hf : ∀ c, MemWf c → MemWf (f c)) (h : MemWf c) :
    MemWf (whenLinked c f) := by
  fun_cases whenLinked c f <;> simp [MemWf, *]

/-! ### Functions of Search -/

@[simp] theorem wf_setTomb (c : Chip) (x i : Nat) (h : MemWf c) : MemWf (setTomb c x i) := by
  simp [MemWf, setTomb, h]

@[simp] theorem wf_damageObjects (c : Chip) (x kind : Nat) (l : List Nat) (h : MemWf c) :
    MemWf (damageObjects c x kind l) := by
  unfold damageObjects
  refine wf_foldl _ (fun c a h => ?_) _ _ h
  (repeat' split) <;> simp [MemWf, h]

@[simp] theorem wf_walkListsReady (c : Chip) (id : Nat) (uncorr : List Nat) (gddr : Bool) (h : MemWf c) :
    MemWf (walkListsReady c id uncorr gddr) := by
  have hd (x : Nat) (l : List Nat) : MemWf (damageObjects c x 5 l) := wf_damageObjects _ _ _ _ h
  fun_cases walkListsReady c id uncorr gddr
  all_goals
    try simp only [MemWf, mem_fillWalks, mem_endQuery, mem_sketchUe, mem_walkHead, setQuery_mem]
  case case1 | case2 => exact h
  case case3 | case4 | case5 => exact hd _ _
  case case6 q hq hp x sel read c1 hf hany hg q2 c2 hx =>
    have h2 : MemWf (sel.foldl expandItem (q, c1)).2 :=
      wf_foldl_snd _ (fun r i hr => by rw [MemWf, mem_expandItem]; exact hr) _ _ (hd _ _)
    rwa [hx] at h2

@[simp] theorem wf_rerankDone (c : Chip) (id : Nat) (uncorr : List Nat) (h : MemWf c) :
    MemWf (rerankDone c id uncorr) := by
  fun_cases rerankDone c id uncorr
  case case1 | case2 => exact h
  case case3 q hq hp x objs c1 v c2 ht n c3 q1 done =>
    have h2 : MemWf c2 := by rw [MemWf, mem_of_takeFree ht]; exact wf_damageObjects _ _ _ _ h
    have h3 : MemWf c3 := wf_foldl _ (fun c e hc => by rw [MemWf, mem_countRead]; exact hc) _ _ h2
    rw [MemWf, mem_fillWalks]
    show MemWf (if _ then _ else _)
    (repeat' split) <;> simpa [MemWf] using h3

@[simp] theorem wf_deleteReq (c : Chip) (conn : Nat) (tag : DWord) (handle : Word) (items : List Word) (h : MemWf c) :
    MemWf (deleteReq c conn tag handle items) := by
  have hd (x n a k : Nat) (l : List Nat) : MemWf (bumpB (l.foldl (fun c i => setTomb c x i) c) n a k) := by
    rw [MemWf, mem_bumpB]
    exact wf_foldl _ (fun c i hc => wf_setTomb c x i hc) _ _ h
  fun_cases deleteReq c conn tag handle items
  · simpa [MemWf] using h
  · rw [MemWf, mem_answerSearch]; exact hd _ _ _ _ _
  · exact hd _ _ _ _ _

@[simp] theorem wf_searchDurable (c : Chip) (id addr x kind j : Nat) (repair : Bool) (h : MemWf c) :
    MemWf (searchDurable c id addr x kind j repair) := by
  grind [searchDurable, mem_sourceLost, mem_answerSearch, mem_dropObject, wf_putEntry, mem_flashFree, mem_freeOlds,
    mem_bumpB]

@[simp] theorem wf_freeIndexObjects (c : Chip) (x : Nat) (h : MemWf c) : MemWf (freeIndexObjects c x) := by
  have h1 (l : List (Nat × DWord)) :
      MemWf (l.foldl (fun c e => if e.2.getLsbD 62 then c else flashFree c (e.2.toNat % 2 ^ 44)) c) :=
    wf_foldl _ (fun c e hc => by split <;> simpa [MemWf] using hc) _ _ h
  exact wf_foldl _ (fun c k hc => wf_putEntry c _ _ hc) _ _ (h1 _)

@[simp] theorem wf_indexFree (c : Chip) (conn : Nat) (tag : DWord) (handle : Word) (h : MemWf c) :
    MemWf (indexFree c conn tag handle) := by
  fun_cases indexFree c conn tag handle <;> simp [MemWf, *]

/-! ### Functions of Flash -/

@[simp] theorem wf_ownerDurable (c : Chip) (w : FWrite) (h : MemWf c) : MemWf (ownerDurable c w) := by
  unfold ownerDurable
  (repeat' split) <;> simp [MemWf, h]

@[simp] theorem wf_objectDurable (c : Chip) (id : Nat) (h : MemWf c) : MemWf (objectDurable c id) := by
  grind [objectDurable, mem_takeFree, mem_bumpPair, mem_jput, wf_ownerDurable]

@[simp] theorem wf_dieLost (c : Chip) (d : Nat) (h : MemWf c) : MemWf (dieLost c d) := by
  fun_cases dieLost c d
  · exact h
  next _ c0 mine gone lost c1 c2 c3 c4 v c6 ht c7 =>
    have h0 : MemWf c0 := by simpa [MemWf, c0] using h
    have h1 : MemWf c1 := wf_foldl _ (fun c x hc => by
      split
      · exact hc
      · (repeat' split) <;> simpa [MemWf] using hc) _ _ h0
    have h2 : MemWf c2 := wf_foldl _ (fun c w hc => by rw [MemWf, mem_replaceWrite]; exact hc) _ _ h1
    have hr (l : List Nat) (c : Chip) (hc : MemWf c) :
        MemWf (l.foldl (fun c e => if (extent c e).state = .retired then c else retire c e) c) :=
      wf_foldl _ (fun c e hc => by split <;> simpa [MemWf] using hc) _ _ hc
    have e3 : c3 = (extentsOf d).foldl (fun c e => if (extent c e).state = .retired then c else retire c e) c2 := rfl
    have h3 : MemWf c3 := by rw [e3]; exact hr _ _ h2
    have h4 : MemWf c4 := by
      refine wf_foldl _ (fun c a hc => ?_) _ _ h3
      exact wf_ownerLost c a hc
    have h6 : MemWf c6 := by rw [MemWf, mem_of_takeFree ht]; exact h4
    rw [MemWf, mem_pumpFlash, mem_sweepStart, mem_fault]
    show MemWf (if _ then _ else _)
    split <;> simpa [MemWf] using h6

@[simp] theorem wf_readScan (c : Chip) (e : Nat) (res : ScanResult) (passEnd : Bool) (h : MemWf c) :
    MemWf (readScan c e res passEnd) := by
  fun_cases readScan c e res passEnd
  case case4 | case5 =>
    have h4 (c : Chip) (hit : List Nat) (hc : MemWf c) : MemWf (hit.foldl ownerLost c) :=
      wf_foldl _ (fun c a hc => wf_ownerLost c a hc) _ _ hc
    simp only [MemWf, mem_startCopy]
    exact h4 _ _ (by simpa +zetaDelta [MemWf] using h)
  all_goals simpa +zetaDelta [MemWf] using h

@[simp] theorem wf_flashDrainTimeout (c : Chip) (h : MemWf c) : MemWf (flashDrainTimeout c) := by
  refine wf_foldl _ (fun c w hc => ?_) _ _ h
  have h1 : MemWf (takeFree c).2 := by rw [MemWf, mem_takeFree]; exact hc
  split
  split
  · next hx _ => rw [hx] at h1; exact wf_objectDurable _ _ h1
  · simp_all [MemWf]

/-! ### Functions of Ckpt -/

@[simp] theorem wf_flushShard (c : Chip) (h : MemWf c) : MemWf (flushShard c) := by
  unfold flushShard
  refine wf_foldl _ (fun c a h => ?_) _ _ h
  simp [MemWf, h]

@[simp] theorem wf_snapshotPoint (c0 : Chip) (h : MemWf c0) : MemWf (snapshotPoint c0) := by
  fun_cases snapshotPoint c0 <;> grind [wf_settle, modCkpt_mem, mem_abandonShard, wf_flushShard, setReg_mem,
    mem_writeShard]

@[simp] theorem wf_copyBeforeWrite (c : Chip) (a : Nat) (h : MemWf c) : MemWf (copyBeforeWrite c a) := by
  fun_cases copyBeforeWrite c a
  case case4 g hg c1 hb b c2 hx =>
    have h1 : MemWf c1 := by simpa +zetaDelta [MemWf] using h
    have h2 : MemWf c2 := by
      split at hx
      · rw [MemWf, mem_heapAlloc _ _ _ _ hx]; exact h1
      · exact nomatch hx
    rw [MemWf, modCkpt_mem]
    exact wf_putMem _ _ _ h2
  all_goals simpa +zetaDelta [MemWf] using h

@[simp] theorem wf_shardCommitted (c : Chip) (h : MemWf c) : MemWf (shardCommitted c) := by
  unfold shardCommitted
  split <;> simp [MemWf, h]

theorem wf_placeRecord (c : Chip) (e : Session) (r : List Byte) (bf16 : Bool) (h : MemWf c) :
    ∀ y, placeRecord c e r bf16 = some y → MemWf y.2.2 := by
  fun_cases placeRecord c e r bf16
  · intro y hy; exact nomatch hy
  next addrs c1 hx base o n t recur rb c2 counts slots stack tail area v c3 ht st b =>
    intro y hy
    have h1 : MemWf c1 := by rw [MemWf, mem_heapAllocs _ _ _ _ hx]; exact h
    have ht2 : MemWf t.2 := wf_foldl_snd _ (fun a s ha => wf_putTailRows _ _ _ _ _ ha) _ _ h1
    have h2 : MemWf c2 := wf_putMem _ _ _ ht2
    have h3 : MemWf c3 := by rw [MemWf, mem_of_takeFree ht]; exact h2
    cases hy; exact h3

@[simp] theorem wf_restoreRecord (bf16 : Bool) (c : Chip) (r : List Byte) (h : MemWf c) :
    MemWf (restoreRecord bf16 c r) := by
  have hr (v : Nat) (c0 c1 : Chip) (n : Nat) (bl : Tbl Nat) (w : Bool) (h0 : takeFree c = (v, c0))
      (h1 : takeRefs c0 r n = (bl, w, c1)) : MemWf c1 := by
    have := mem_takeRefs c0 r n
    rw [h1] at this
    rw [MemWf, this, mem_of_takeFree h0]; exact h
  fun_cases restoreRecord bf16 c r
  case case1 => simpa [MemWf] using h
  case case7 v c0 ht bl w c1 hb e1 _ _ _ e2 b c2 hp =>
    have h2 := wf_placeRecord c1 e1 r bf16 (hr _ _ _ _ _ _ ht hb) _ hp
    rw [MemWf, setBody_mem, setEntry_mem]; exact h2
  all_goals
    have h1 := hr _ _ _ _ _ _ ‹takeFree c = _› ‹takeRefs _ r _ = _›
    simpa +zetaDelta [MemWf] using h1

@[simp] theorem wf_rebuild (c : Chip) (e : Nat) (l : List Byte) (h : MemWf c) : MemWf (rebuild c e l) := by
  fun_cases rebuild c e l
  all_goals
    next top seq c1 c2 c3 c3' c4 g other c5 c6 hurt c7 _ =>
    have h2 : MemWf c2 := by
      have : c2.mem = (freshDirectory c l).mem := rfl
      rw [MemWf, this, mem_freshDirectory]; exact h
    have h3 : MemWf c3 := wf_foldl _ (fun c r hc => wf_restoreRecord _ c r hc) _ _ h2
    have h4 : MemWf c4 := by
      have : c4 = dropUnwanted c3' := rfl
      rw [this, MemWf, mem_dropUnwanted]; exact h3
    have h5 : MemWf c5 := by
      have : c5 = setReg (setReg c4 (genReg g) (w32 e)) (genReg (1 - g)) (w32 other) := rfl
      rw [this, MemWf, setReg_mem, setReg_mem]; exact h4
    have h6 : MemWf c6 := by
      have : c6 = setReg (setReg c5 aCKPT_LAST_EPOCH (w32 e)) aCKPT_RESTORE_EPOCH (w32 e) := rfl
      rw [this, MemWf, setReg_mem, setReg_mem]; exact h5
    have h7 : MemWf c7 := by
      have : c7 = endRestore (setReg c6 aCKPT_RESTORE_DAMAGED (w32 hurt)) stOK := rfl
      rw [this, MemWf, mem_endRestore, setReg_mem]; exact h6
    first | exact h7 | (rw [MemWf, mem_raise]; exact h7)

@[simp] theorem wf_restoreRebuild (c : Chip) (shard : Option (List Byte)) (h : MemWf c) :
    MemWf (restoreRebuild c shard) := by
  unfold restoreRebuild
  (repeat' split) <;> simp [MemWf, h]

@[simp] theorem wf_cutResolveHeld (c0 : Chip) (action : Nat) (h : MemWf c0) : MemWf (cutResolveHeld c0 action).2 := by
  grind [cutResolveHeld, wf_settle, mem_setFld, mem_openFig, wf_kick]

/-! ### Functions of Power -/

@[simp] theorem wf_whenMinuet (c : Chip) (f : Chip → Chip) (hf : ∀ c, MemWf c → MemWf (f c)) (h : MemWf c) :
    MemWf (whenMinuet c f) := by
  fun_cases whenMinuet c f <;> simp [MemWf, *]

/-! ### Functions of Crc -/

@[simp] theorem wf_crcHurt (c : Chip) (rs : List (Bool × Nat × Nat)) (h : MemWf c) : MemWf (crcHurt c rs) := by
  grind [crcHurt, mem_takeFree, mem_raise, mem_bump, mem_fault, wf_ownerLost, wf_uncorrectable, mem_countUe]

@[simp] theorem wf_crcRunDone (c : Chip) (u : Nat) (uncorr : Bool) (h : MemWf c) : MemWf (crcRunDone c u uncorr) := by
  have h0 (l : List (Bool × Nat × Nat)) : MemWf (l.foldl crcCountRead c) :=
    wf_foldl _ (fun c x hc => by simpa [MemWf] using hc) _ _ h
  fun_cases crcRunDone c u uncorr
  case case1 => exact h
  case case2 =>
    refine wf_kick _ (wf_settle _ (wf_crcHurt _ _ ?_))
    rw [MemWf, mem_crcFail]
    exact wf_settle _ (h0 _)
  case case3 x _ c0 _ l' c1 hl reg_ c2 c3 c4 =>
    have h1 : MemWf c1 := by
      have := mem_crcSettleBytes c0 x.ranges x.input
      rw [hl] at this
      rw [MemWf, this]; exact h0 _
    have h2 : MemWf c2 := by
      have : c2 = setPairB c1 u aCRC_RESULT_LO (crcResultOf c1 u reg_) := rfl
      rw [this, MemWf, mem_setPairB]; exact h1
    have h3 : MemWf c3 := by
      have : c3 = setRegB c2 u aCRC_BYTES (w32 (sat32 l'.length)) := rfl
      rw [this, MemWf, setRegB_mem]; exact h2
    have h4 : MemWf c4 := by
      have : c4 = setCrcUnit c3 u { held := w64 reg_, busy := false, ranges := [], input := [] } := rfl
      rw [this, MemWf, setCrcUnit_mem]; exact h3
    rw [MemWf, mem_raise, mem_setCrcStat]; exact h4

/-! ### Functions of Sec -/

@[simp] theorem wf_purgeOps (c : Chip) (i : Nat) (h : MemWf c) : MemWf (purgeOps c i) := by
  have h1 (l : List Op) : MemWf (l.foldl (fun c q => applyAfters c (endRecs c i q stAbortDrain)) c) :=
    wf_foldl _ (fun c q hc => by simpa [MemWf] using hc) _ _ h
  fun_cases purgeOps c i
  · exact h
  · rw [MemWf, setOps_mem]; exact h1 _
  · exact wf_finishOp _ _ _ (by rw [MemWf, setOps_mem]; exact h1 _)

@[simp] theorem wf_purgeSession (c : Chip) (i : Nat) (h : MemWf c) : MemWf (purgeSession c i) := by
  grind [purgeSession, setBody_mem, wf_discardDst, setCut_mem, mem_openFig, mem_abandonRevival]

@[simp] theorem wf_purgeRegion (c : Chip) (i : Nat) (h : MemWf c) : MemWf (purgeRegion c i) := by
  grind [purgeRegion, mem_heapRelease, setRegion_mem, mem_answerRegion, wf_revokeRegion]

@[simp] theorem wf_purgeIndexes (c : Chip) (p : Nat) (h : MemWf c) : MemWf (purgeIndexes c p) := by
  fun_cases purgeIndexes c p
  next mine c1 c2 =>
  have h1 : MemWf c1 := by rw [MemWf, mem_endSearches]; exact h
  have h2 : MemWf c2 := wf_foldl _ (fun c l hc => by simpa [MemWf] using hc) _ _ h1
  refine wf_foldl _ (fun c x hc => ?_) _ _ h2
  split
  · have hs : MemWf { setFldB c x aSRCH_IDX_CTRL 0 0 0 with
        checks := { c.checks with index := c.checks.index.filter (fun y => y ≠ x) } } := by simpa [MemWf] using hc
    dsimp only
    split
    · exact wf_freeIndexObjects _ _ hs
    · exact hs
  · exact hc

@[simp] theorem wf_purgePass (c0 : Chip) (p : Nat) (h : MemWf c0) : MemWf (purgePass c0 p) := by
  fun_cases purgePass c0 p
  case case1 c mine c1 _ =>
    exact wf_settle _ (wf_foldl _ (fun c i hc => wf_purgeOps c i hc) _ _ (wf_settle _ h))
  case case2 c mine c1 _ c2 regs c3 qs c4 conns =>
    have h1 : MemWf c1 := wf_settle _ (wf_foldl _ (fun c i hc => wf_purgeOps c i hc) _ _ (wf_settle _ h))
    have h2 : MemWf c2 := wf_settle _ (wf_foldl _ (fun c i hc => wf_purgeSession c i hc) _ _ h1)
    have h3 : MemWf c3 := wf_settle _ (wf_foldl _ (fun c i hc => wf_purgeRegion c i hc) _ _ (wf_purgeIndexes _ _ h2))
    refine wf_foldl _ (fun c n hc => ?_) _ _ h3
    dsimp only
    rw [MemWf, mem_closeConn]
    split <;> simpa [MemWf] using hc

@[simp] theorem wf_partPurge (c : Chip) (p : Nat) (h : MemWf c) : MemWf (partPurge c p).2 := by
  unfold partPurge
  split <;> simp [MemWf, h]

@[simp] theorem wf_purgeDrained (c : Chip) (p : Nat) (h : MemWf c) : MemWf (purgeDrained c p) := by
  grind [purgeDrained, wf_purgePass, mem_raise, setSecPart_mem]

@[simp] theorem wf_partScrubDone (c : Chip) (p : Nat) (h : MemWf c) : MemWf (partScrubDone c p) := by
  fun_cases partScrubDone c p
  · exact h
  next x _ groups group c1 c2 rows c3 c4 c5 =>
    have h1 : MemWf c1 := filter_wf _ _ h
    have h2 : MemWf c2 := by rw [MemWf, mem_zeroCores]; exact h1
    have h5 : MemWf c5 := by rw [MemWf, setSecPart_mem, mem_scrubFlash]; exact h2
    rw [MemWf, mem_raises]; exact h5

/-! ### Functions of Drain -/

@[simp] theorem wf_dropStep (c : Chip) (p : Nat) (status : Option Nat) (h : MemWf c) : MemWf (dropStep c p status) := by
  unfold dropStep
  split
  · exact h
  next st _ =>
    extract_lets works c1 c2
    have h1 : MemWf c1 := wf_foldl _ (fun c w hc => by split <;> simpa [MemWf] using hc) _ _ h
    have h2 : MemWf c2 := by
      show MemWf (match status with | none => c1 | some s => works.foldl (fun c w => finishOp c w.idx s) c1)
      split
      · exact h1
      · exact wf_foldl _ (fun c w hc => wf_finishOp _ _ _ hc) _ _ h1
    split
    · exact wf_endDrained _ _ (by rw [MemWf, mem_closeStep]; exact h2)
    · rw [MemWf, mem_closeStep]; exact h2

@[simp] theorem wf_stopSteps (c : Chip) (status : Option Nat) (h : MemWf c) : MemWf (stopSteps c status) := by
  unfold stopSteps
  refine wf_foldl _ (fun c a h => ?_) _ _ h
  (repeat' split) <;> simp [MemWf, h]

@[simp] theorem wf_endAllOps (c : Chip) (st i : Nat) (h : MemWf c) : MemWf (endAllOps c st i) := by
  fun_cases endAllOps c st i
  · exact h
  next o rest _ c1 =>
    have h1 : MemWf c1 := wf_finishOp _ _ _ (by rw [MemWf, setOps_mem]; exact h)
    exact wf_foldl _ (fun c q hc => by simpa [MemWf] using hc) _ _ h1

@[simp] theorem wf_drainOps (c : Chip) (mine : Nat × Op → Bool) (h : MemWf c) : MemWf (drainOps c mine) := by
  unfold drainOps
  refine wf_foldl _ (fun c a h => ?_) _ _ h
  (repeat' split) <;> simp [MemWf, h]

@[simp] theorem wf_abortStepFigures (c : Chip) (p status : Nat) (h : MemWf c) :
    MemWf (abortStepFigures c p status) := by
  fun_cases abortStepFigures c p status
  · exact h
  next st _ works c1 bare =>
    have h1 : MemWf c1 := wf_foldl _ (fun c w hc => by simpa [MemWf] using hc) _ _ h
    exact wf_foldl _ (fun c w hc => wf_finishOp _ _ _ hc) _ _ (by rw [MemWf, setSched_mem]; exact h1)

@[simp] theorem wf_abortWaitingWhere (c : Chip) (mine : Figure → Bool) (h : MemWf c) :
    MemWf (abortWaitingWhere c mine) := by
  fun_cases abortWaitingWhere c mine
  next stays gone c0 c1 =>
  have h1 : MemWf c1 := by show Memory.wf c0.mem = true; simpa +zetaDelta using h
  refine wf_foldl _ (fun c f hc => ?_) _ _ h1
  refine wf_foldl _ (fun c s hc => ?_) _ _ ?_
  · split
    · exact wf_finishOp _ _ _ hc
    · exact hc
  · split <;> simpa [MemWf] using hc

@[simp] theorem wf_figDrainTimeout (c : Chip) (h : MemWf c) : MemWf (figDrainTimeout c) := by
  refine wf_settle _ ?_
  rw [MemWf, mem_releaseWaiting]
  exact wf_settle _ (wf_foldl _ (fun c p hc => wf_abortStepFigures _ _ _ hc) _ _ (wf_abortWaitingWhere _ _ h))

@[simp] theorem wf_tierDrainTimeout (c : Chip) (h : MemWf c) : MemWf (tierDrainTimeout c) := by
  unfold tierDrainTimeout
  refine wf_foldl _ (fun c a h => ?_) _ _ h
  (repeat' split) <;> simp [MemWf, h]

@[simp] theorem wf_dropQueued (c : Chip) (mine : Nat → Bool) (f : Chip → Chip) (hf : ∀ c, MemWf c → MemWf (f c))
    (h : MemWf c) :
    MemWf (dropQueued c mine f) := by
  fun_cases dropQueued c mine f <;> simp [MemWf, *, mem_foldl]

@[simp] theorem wf_drainTimeoutOf (c0 : Chip) (p : Page) (h : MemWf c0) : MemWf (drainTimeoutOf c0 p) := by
  have h1 : MemWf (abortWaitingWhere (settle c0) (opensFor p)) := wf_abortWaitingWhere _ _ (wf_settle _ h)
  have hp : ∀ c, MemWf c → MemWf (peerDrainTimeout c) := fun c hc => by rw [MemWf, mem_peerDrainTimeout]; exact hc
  have hh : ∀ c, MemWf c → MemWf (hostDrainTimeout c) := fun c hc => by rw [MemWf, mem_hostDrainTimeout]; exact hc
  have he : ∀ c, MemWf c → MemWf (egrDrainTimeout c) := fun c hc => by rw [MemWf, mem_egrDrainTimeout]; exact hc
  cases p <;> rw [drainTimeoutOf]
  case sess => exact wf_foldl _ (fun c i hc => wf_endAllOps _ _ _ hc) _ _ h1
  case fig => exact wf_figDrainTimeout _ h1
  case tier => exact wf_tierDrainTimeout _ h1
  case flash => exact wf_flashDrainTimeout _ h1
  case grid => exact wf_foldl _ (fun c q hc => wf_dropStep _ _ _ (by rw [MemWf, mem_stopCoresOf]; exact hc)) _ _ h1
  case sched => exact wf_drainOps _ _ h1
  case attn => exact wf_stopSteps _ _ h1
  case samp => exact wf_drainOps _ _ h1
  case text => exact wf_drainOps _ _ h1
  case cut => exact wf_of_mem h1 (mem_cutDrainTimeout _)
  case xpt => exact wf_of_mem h1 (mem_xptDrainTimeout _)
  case peer => exact wf_dropQueued _ _ _ hp h1
  case host => exact wf_dropQueued _ _ _ hh h1
  case egr => exact wf_dropQueued _ _ _ he h1
  case srch => exact wf_of_mem h1 (mem_srchDrainTimeout _)
  case ckpt => exact wf_of_mem h1 (mem_ckptDrainTimeout _)
  case crc => exact wf_of_mem h1 (mem_crcDrainTimeout _)
  all_goals exact h1

@[simp] theorem wf_whenPage (c : Chip) (p : Page) (f : Chip → Chip) (hf : ∀ c, MemWf c → MemWf (f c)) (h : MemWf c) :
    MemWf (whenPage c p f) := by
  fun_cases whenPage c p f <;> simp_all [MemWf]

@[simp] theorem wf_resetUnit (c : Chip) (p : Page) (h : MemWf c) : MemWf (resetUnit c p) := by
  fun_cases resetUnit c p
  case case2 c1 =>
    have h1 : MemWf c1 := wf_figDrainTimeout _ h
    clear_value c1
    exact h1
  case case8 c1 c2 =>
    have h1 (l : List Nat) : MemWf (l.foldl closeConn c) :=
      wf_foldl _ (fun c n hc => by rw [MemWf, mem_closeConn]; exact hc) _ _ h
    have h2 : MemWf c2 := wf_foldl _ (fun c r hc => by split <;> simpa [MemWf] using hc) _ _ (h1 _)
    clear_value c2
    exact h2
  case case9 c1 =>
    have h1 : MemWf c1 := wf_of_mem h (mem_peerOff _)
    clear_value c1
    exact h1
  case case10 c1 =>
    have h1 : MemWf c1 := wf_of_mem h (mem_hostOff _)
    clear_value c1
    exact h1
  case case11 =>
    have h1 (l : List Nat) (c : Chip) (h : MemWf c) :
        MemWf (l.foldl (fun c n => pumpConn (setConn c n { conn c n with waiting := false }) n) c) :=
      wf_foldl _ (fun c n hc => by rw [MemWf, mem_pumpConn, setConn_mem]; exact hc) _ _ h
    exact h1 _ _ h
  case case12 =>
    next c1 =>
    have h1 : MemWf c1 := wf_of_mem h (mem_endSearches _ _ _)
    clear_value c1
    exact h1
  case case13 => exact wf_of_mem h (mem_ckptReset _)
  case case15 =>
    rw [MemWf, mem_traceStop]
    exact h
  all_goals exact h

@[simp] theorem wf_softReset (c : Chip) (p : Page) (h : MemWf c) : MemWf (softReset c p) := by
  grind [softReset, mem_disarmPage, mem_resetWords, wf_resetUnit, wf_abortWaitingWhere, wf_settle, setHdr_mem,
    wf_kick, mem_setState]

@[simp] theorem wf_ctrlWrite (c0 : Chip) (p : Page) (m : WMode) (w : Word) (h : MemWf c0) :
    MemWf (ctrlWrite c0 p m w).2 := by
  grind [ctrlWrite, setHdr_mem, mem_drainStarts, mem_setState, wf_softReset, mem_enterTesting, mem_turnOn, wf_kick,
    wf_settle, mem_releaseWaiting]

/-! ### Functions of Rx -/

@[simp] theorem wf_pktRx (c : Chip) (l : Link) (bytes : List Byte) (h : MemWf c) : MemWf (pktRx c l bytes) := by
  grind [pktRx, mem_bump, wf_rxData, mem_assembleAll, mem_writeAccess, wf_settle, mem_readAccess, wf_respAccess,
    mem_msgAccess, mem_vstAck, mem_vstNak, mem_connectRx, mem_connectAckRx, mem_vstClose]

@[simp] theorem wf_localFrame (c : Chip) (l : List Byte) (h : MemWf c) : MemWf (localFrame c l) := by
  unfold localFrame
  (repeat' split) <;> simp [MemWf, h]

@[simp] theorem wf_injectPkt (c : Chip) (dst : Nat) (p : Pkt) (ckpt : Bool) (v : Nat) (h : MemWf c) :
    MemWf (injectPkt c dst p ckpt v) := by
  unfold injectPkt
  split <;> simp [MemWf, h]

@[simp] theorem wf_serveQueue (c : Chip) (q : Nat) (peerOut : Bool) (v : Nat) (h : MemWf c) :
    MemWf (serveQueue c q peerOut v) := by
  grind [serveQueue, setEqueue_mem, mem_bumpPair, mem_bumpPairB, wf_injectPkt, mem_hostFrame]

@[simp] theorem wf_serveControl (c : Chip) (peerOut : Bool) (n : Nat) (k : Option Link) (p : Pkt) (v : Nat)
    (h : MemWf c) :
    MemWf (serveControl c peerOut n k p v) := by
  fun_cases serveControl c peerOut n k p v <;> grind [mem_bumpPair, wf_injectPkt, mem_hostFrame]

@[simp] theorem wf_egressSelect (c : Chip) (peerOut : Bool) (h : MemWf c) : MemWf (egressSelect c peerOut) := by
  grind [egressSelect, mem_takeFree, wf_serveControl, wf_serveQueue]

@[simp] theorem wf_peerFrame (c : Chip) (p : Nat) (l : List Byte) (h : MemWf c) : MemWf (peerFrame c p l) := by
  unfold peerFrame
  (repeat' split) <;> simp [MemWf, h]

@[simp] theorem wf_peerFrameRx (c : Chip) (p first : Nat) (ws : List Codeword) (h : MemWf c) :
    MemWf (peerFrameRx c p first ws) := by
  fun_cases peerFrameRx c p first ws <;> simp [MemWf, *]

@[simp] theorem wf_hostFrameIn (c : Chip) (l : List Byte) (fcsOk : Bool) (h : MemWf c) :
    MemWf (hostFrameIn c l fcsOk) := by
  grind [hostFrameIn, mem_hostRx, mem_startWake, mem_raise, mem_bump, wf_pktRx]

@[simp] theorem wf_hostFrameRx (c : Chip) (l : List Byte) (fcsOk : Bool) (fec : List FecResult) (h : MemWf c) :
    MemWf (hostFrameRx c l fcsOk fec) := by
  unfold hostFrameRx
  split <;> simp [MemWf, h]

@[simp] theorem wf_deliverHeld (c : Chip) (h : MemWf c) : MemWf (deliverHeld c) := by
  have h2 (l : List (List Byte)) (c : Chip) (h : MemWf c) :
      MemWf (l.foldl (fun c l => pktRx c (peerLink l) (l.drop 8)) c) :=
    wf_foldl _ (fun c l hc => wf_pktRx _ _ _ hc) _ _ h
  exact wf_foldl _ (fun c l hc => by split; exact wf_pktRx _ _ _ hc; exact hc) _ _ (h2 _ _ h)

/-! ### Functions of Boot -/

@[simp] theorem wf_resetChip (c : Chip) (minuet : Bool) (cause : Nat) (h : MemWf c) :
    MemWf (resetChip c minuet cause) := by
  have h0 : MemWf Chip.reset := rfl
  fun_cases resetChip c minuet cause
  all_goals
    simp only [MemWf, setReg_mem]
    exact h0

@[simp] theorem wf_mainLoss (c : Chip) (h : MemWf c) : MemWf (mainLoss c) := by
  simp [MemWf, mainLoss, h]

@[simp] theorem wf_supplyChange (c : Chip) (main aux : Nat) (h : MemWf c) : MemWf (supplyChange c main aux) := by
  grind [supplyChange, mem_takeFree, wf_resetChip]

@[simp] theorem wf_powerLoss (c : Chip) (h : MemWf c) : MemWf (powerLoss c) := by
  unfold powerLoss
  split <;> simp [MemWf, h]

@[simp] theorem wf_mainOvervoltage (c : Chip) (h : MemWf c) : MemWf (mainOvervoltage c) := by
  unfold mainOvervoltage
  split <;> simp [MemWf, h]

@[simp] theorem wf_resetInput (c : Chip) (h : MemWf c) : MemWf (resetInput c) := by
  simp [MemWf, resetInput, h]

@[simp] theorem wf_napEntry (c : Chip) (h : MemWf c) : MemWf (napEntry c) := by
  unfold napEntry
  split <;> simp [MemWf, h]

@[simp] theorem wf_wakeFast (c : Chip) (cause us : Nat) (h : MemWf c) : MemWf (wakeFast c cause us) := by
  grind [wakeFast, setReg_mem, mem_bump, wf_deliverHeld, mem_raise]

@[simp] theorem wf_moduleFault (c : Chip) (h : MemWf c) : MemWf (moduleFault c) := by
  fun_cases moduleFault c
  · exact h
  · rw [MemWf, mem_bbRecord]; rfl
  · rw [MemWf, mem_bbRecord]; rfl

/-! ### Functions of ChipFault -/

@[simp] theorem wf_hurtSubject (k : Committed) (c : Chip) (s : Subject) (h : MemWf c) : MemWf (hurtSubject k c s) := by
  cases s with
  | session i => exact h
  | region i =>
    rw [hurtSubject]
    split
    · exact wf_revokeRegion _ _ _ _ h
    split
    · exact h
    · exact wf_applyAct _ _ _ _ h
  | config => exact h
  | checkpoint => exact wf_foldl _ (fun c a hc => by split; rw [MemWf, setReg_mem]; exact hc; exact hc) _ _ h

@[simp] theorem wf_replayN (a : Nat) (a1 a2 : List Nat) (a3 : Chip × Nat × List Committed) (h : MemWf a3.1) :
    MemWf (replayN a a1 a2 a3).1 := by
  induction a generalizing a3 with
  | zero => exact h
  | succ n ih =>
    obtain ⟨c, done, hurt⟩ := a3
    rw [replayN]
    have hs (k : Committed) (r : List Committed) : MemWf (skipOne c k r) := by rw [MemWf, mem_skipOne]; exact h
    split
    · exact h
    next k r _ =>
      split
      · exact ih _ (wf_foldl _ (fun c a hc => by rw [MemWf, mem_voidAct]; exact hc) _ _ (hs k r))
      split
      · exact ih _ (hs k r)
      · exact ih _ (wf_applyOne _ h)

@[simp] theorem wf_endLost (c : Chip) (h : MemWf c) : MemWf (endLost c) := by
  have h1 (l : List Nat) : MemWf (l.foldl (fun c i => endAllOps c stAbortFault i) c) :=
    wf_foldl _ (fun c i hc => wf_endAllOps _ _ _ hc) _ _ h
  have h2 (l : List Nat) (c : Chip) (hc : MemWf c) : MemWf (l.foldl abandonRevival (endOther c)) :=
    wf_foldl _ (fun c i hc => by rw [MemWf, mem_abandonRevival]; exact hc) _ _ (by rw [MemWf, mem_endOther]; exact hc)
  exact h2 _ _ (h1 _)

@[simp] theorem wf_recoverChip (c : Chip) (lost unreadable : List Nat) (time : Nat) (h : MemWf c) :
    MemWf (recoverChip c lost unreadable time) := by
  fun_cases recoverChip c lost unreadable time
  next c0 c1 c3 c4 done hurt hr c5 c6 c7 =>
  have h1 : MemWf c1 := wf_foldl _ (fun c p hc => wf_dropStep _ _ _ hc) _ _ h
  have h3 : MemWf c3 := wf_foldl _ (fun c i hc => by rw [MemWf, mem_stopCore]; exact hc) _ _ h1
  have h4 : MemWf c4 := by
    have := wf_replayN c3.fig.committed.length lost unreadable (voidOpen c3, 0, []) (by rw [MemWf, mem_voidOpen]; exact h3)
    rwa [hr] at this
  have h5 : MemWf c5 :=
    wf_foldl _ (fun c k hc => wf_foldl _ (fun c s hc => wf_hurtSubject _ _ _ hc) _ _ hc) _ _ h4
  have h6 : MemWf c6 := wf_endLost _ (by rw [MemWf, mem_replayRecord]; exact h5)
  have h7 : MemWf c7 := wf_foldl _ (fun c i hc => by rw [MemWf, mem_damageNamed]; exact hc) _ _ h6
  exact wf_kick _ (wf_settle _ (by rw [MemWf, mem_releaseWaiting]; exact h7))

@[simp] theorem wf_chipFault (c : Chip) (lost unreadable : List DWord) (time : Nat) (h : MemWf c) :
    MemWf (chipFault c lost unreadable time) := by
  unfold chipFault
  split <;> simp [MemWf, h]

@[simp] theorem wf_schedResume (c : Chip) (h : MemWf c) : MemWf (schedResume c) := by
  unfold schedResume
  split <;> simp [MemWf, h]

/-! ### Functions of Maint -/

@[simp] theorem wf_selftestWrite (c0 : Chip) (w : Word) (h : MemWf c0) : MemWf (selftestWrite c0 w).2 := by
  have hs := wf_settle _ h
  fun_cases selftestWrite c0 w
  · exact h
  · rw [MemWf, mem_setFld]; exact hs
  next c _ _ c1 ps c2 =>
    have h1 : MemWf c1 := by
      show MemWf (if _ then _ else _)
      split
      · exact wf_recoverChip _ _ _ _ hs
      · exact hs
    have h2 : MemWf c2 := wf_foldl _ (fun c p hc => by rw [MemWf, mem_enterTesting, setHdr_mem]; exact hc) _ _ h1
    rw [MemWf, mem_setFld]; exact h2

@[simp] theorem wf_chipSelftestEnd (c : Chip) (failed : List Page) (h : MemWf c) :
    MemWf (chipSelftestEnd c failed) := by
  fun_cases chipSelftestEnd c failed
  · exact h
  next _ ps c1 c2 =>
    have h1 : MemWf c1 := wf_foldl _ (fun c p hc => by rw [MemWf, mem_testedResult]; exact hc) _ _ h
    have h2 : MemWf c2 := by
      rw [MemWf, show c2 = setFld c1 aCHIP_SELFTEST 9 8 (2 * b2n (ps.any (fun p => decide (p ∈ failed)))) from rfl, mem_setFld]
      exact h1
    exact wf_kick _ (wf_settle _ (by rw [MemWf, mem_releaseWaiting, mem_raise]; exact h2))

@[simp] theorem wf_updateWrite (c0 : Chip) (w : Word) (h : MemWf c0) : MemWf (updateWrite c0 w).2 := by
  grind [updateWrite, wf_settle, mem_setUpdate]

@[simp] theorem wf_updateDone (c0 : Chip) (readBackOk : Bool) (h : MemWf c0) : MemWf (updateDone c0 readBackOk) := by
  grind [updateDone, wf_settle, mem_takeFree, mem_updateEnds, mem_norErase, mem_norPut, mem_setFld]

/-! ### Functions of WinWrite -/

@[simp] theorem wf_wakeByWrite (c : Chip) (x : RegWr) (h : MemWf c) : MemWf (wakeByWrite c x) := by
  grind [wakeByWrite, wf_wakeFast, mem_takeFree]

@[simp] theorem wf_writeChip (c : Chip) (x : RegWr) (h : MemWf c) : MemWf (writeChip c x).2 := by
  grind [writeChip, mem_storeReg, mem_bootRecord, mem_ovlApply, wf_wakeByWrite, mem_stored, wf_selftestWrite,
    wf_updateWrite, mem_norDataWrite]

@[simp] theorem wf_writeClk (c : Chip) (x : RegWr) (h : MemWf c) : MemWf (writeClk c x).2 := by
  unfold writeClk
  split <;> simp [MemWf, h]

@[simp] theorem wf_partCtrlWrite (c : Chip) (x : RegWr) (h : MemWf c) : MemWf (partCtrlWrite c x).2 := by
  unfold partCtrlWrite
  (repeat' split) <;> simp [MemWf, h]

@[simp] theorem wf_writeSec (c : Chip) (x : RegWr) (h : MemWf c) : MemWf (writeSec c x).2 := by
  grind [writeSec, mem_stored, wf_partCtrlWrite, mem_storeReg, mem_renewList, mem_consentWrite, mem_extendWrite,
    mem_rollbackWrite, mem_revokeWrite, mem_chipDebugWrite, mem_dbgWrite]

@[simp] theorem wf_writeFlt (c : Chip) (x : RegWr) (h : MemWf c) : MemWf (writeFlt c x).2 := by
  unfold writeFlt
  (repeat' split) <;> simp [MemWf, h]

@[simp] theorem wf_viewHandleWrite (c : Chip) (x : RegWr) (h : MemWf c) : MemWf (viewHandleWrite c x).2 := by
  have hw (l : List Nat) (b : List Byte) (c : Chip) (hc : MemWf c) :
      MemWf (l.foldl (fun c k => setReg c (aSESS_VIEW_ENTRY + 4 * k) (wordAt b k)) c) :=
    wf_foldl _ (fun c k hc => by rw [MemWf, setReg_mem]; exact hc) _ _ hc
  have h1 : MemWf (settle (storeReg c x)) := wf_settle _ (by rw [MemWf, mem_storeReg]; exact h)
  fun_cases viewHandleWrite c x
  · exact hw _ _ _ (by rw [MemWf, setReg_mem]; exact h1)
  · exact hw _ _ _ (by rw [MemWf, setReg_mem]; exact wf_touch _ _ h1)

@[simp] theorem wf_writeSess (c : Chip) (x : RegWr) (h : MemWf c) : MemWf (writeSess c x).2 := by
  unfold writeSess
  (repeat' split) <;> simp [MemWf, h]

@[simp] theorem wf_remapped (c : Chip) (h : MemWf c) : MemWf (remapped c) := by
  rfl

@[simp] theorem wf_writeGdr (c : Chip) (x : RegWr) (h : MemWf c) : MemWf (writeGdr c x).2 := by
  grind [writeGdr, mem_stored, wf_remapped]

@[simp] theorem wf_resolveWrite (c : Chip) (x : RegWr) (h : MemWf c) : MemWf (resolveWrite c x).2 := by
  have h1 : MemWf (storeReg c x) := by rw [MemWf, mem_storeReg]; exact h
  fun_cases resolveWrite c x
  · rw [MemWf, mem_setFld]; exact wf_cutResolve _ _ _ h1
  · exact h1

@[simp] theorem wf_writeCut (c : Chip) (x : RegWr) (h : MemWf c) : MemWf (writeCut c x).2 := by
  unfold writeCut
  (repeat' split) <;> simp [MemWf, h]

@[simp] theorem wf_writeCkpt (c : Chip) (x : RegWr) (h : MemWf c) : MemWf (writeCkpt c x).2 := by
  fun_cases writeCkpt c x <;> simp [MemWf, *]

@[simp] theorem wf_pageWrite (c : Chip) (x : RegWr) (h : MemWf c) : MemWf (pageWrite c x).2 := by
  unfold pageWrite
  split <;> simp [MemWf, h]

/-! ### Functions of Window -/

@[simp] theorem wf_gate (c : Chip) (r : Requester) (write : Bool) (a : Nat) (h : MemWf c) :
    MemWf (gate c r write a).2 := by
  grind [gate, mem_takeFree, wf_wakeFast]

@[simp] theorem wf_mgmtRead (c : Chip) (r : Requester) (a : Nat) (h : MemWf c) : MemWf (mgmtRead c r a) := by
  grind [mgmtRead, wf_gate, mem_answer, mem_readAt]

@[simp] theorem wf_hdrWrite (c : Chip) (p : Page) (open_ : Bool) (m : WMode) (off : Nat) (w : Word) (h : MemWf c) :
    MemWf (hdrWrite c p open_ m off w).2 := by
  unfold hdrWrite
  (repeat' split) <;> simp [MemWf, h]

@[simp] theorem wf_rowWrite (c : Chip) (r : Requester) (args : WrArgs) (row : RegRow) (m : WMode) (p : Page)
    (a : Nat) (w : Word) (h : MemWf c) :
    MemWf (rowWrite c r args row m p a w).2 := by
  grind [rowWrite, mem_loWrite, setArmed_mem, mem_raise, wf_pageWrite, mem_dropHold]

@[simp] theorem wf_writeAt (c : Chip) (r : Requester) (args : WrArgs) (a : Nat) (w : Word) (h : MemWf c) :
    MemWf (writeAt c r args a w).2 := by
  fun_cases writeAt c r args a w <;> simp [MemWf, *]

@[simp] theorem wf_mgmtWriteWith (c : Chip) (r : Requester) (args : WrArgs) (a : Nat) (w : Word) (h : MemWf c) :
    MemWf (mgmtWriteWith c r args a w) := by
  grind [mgmtWriteWith, wf_gate, wf_writeAt, mem_keepStatus, mem_answer]

@[simp] theorem wf_mgmtWrite (c : Chip) (r : Requester) (a : Nat) (w : Word) (h : MemWf c) :
    MemWf (mgmtWrite c r a w) := by
  simp [MemWf, mgmtWrite, h]

@[simp] theorem wf_imageWrite (x : Nat × Option (Nat × Word) × Chip) (e : Word × Word) (h : MemWf x.2.2) :
    MemWf (imageWrite x e).2.2 := by
  grind [imageWrite, wf_ctrlWrite, wf_pageWrite]

@[simp] theorem wf_imageWrites (c : Chip) (a : Nat) (a2 : Option (Nat × Word)) (a3 : List (Word × Word)) (h : MemWf c) :
    MemWf (imageWrites c a a2 a3).2 := by
  induction a3 generalizing c a a2 with
  | nil => exact h
  | cons e rest ih =>
    rw [imageWrites]
    have hy := wf_imageWrite (stOK, a2, c) e h
    split
    · exact hy
    · exact ih _ _ _ hy

/-! ### Functions of PowerUp -/

@[simp] theorem wf_overlayCommit (c0 : Chip) (h : MemWf c0) : MemWf (overlayCommit c0) := by
  grind [overlayCommit, wf_settle, wf_imageWrites, mem_overlayRefused, mem_abortOpen, mem_overlayInForce, mem_commitFig]

@[simp] theorem wf_bootOverlayStep (c : Chip) (h : MemWf c) : MemWf (bootOverlayStep c) := by
  grind [bootOverlayStep, mem_overlayRefused, wf_imageWrites, mem_overlayInForce]

@[simp] theorem wf_applyBase (c : Chip) (h : MemWf c) : MemWf (applyBase c) := by
  grind [applyBase, wf_imageWrites, mem_setFld, wf_bootOverlayStep]

@[simp] theorem wf_bootBank (c : Chip) (b fallback : Bool) (h : MemWf c) : MemWf (bootBank c b fallback) := by
  unfold bootBank
  split <;> simp [MemWf, h]

@[simp] theorem wf_verifyBanks (c : Chip) (readFail : BitVec 2) (h : MemWf c) : MemWf (verifyBanks c readFail) := by
  grind [verifyBanks, wf_bootBank, mem_bootChecks]

@[simp] theorem wf_suppliesGood (c : Chip) (readFail : BitVec 2) (h : MemWf c) : MemWf (suppliesGood c readFail) := by
  unfold suppliesGood
  split <;> simp [MemWf, h]

/-! ### Functions of Access -/

@[simp] theorem wf_smbReadOp (c : Chip) (h : MemWf c) : MemWf (smbReadOp c) := by
  simp [MemWf, smbReadOp, h]

@[simp] theorem wf_frameAccess (c : Chip) (n : Nat) (e : List Byte) (h : MemWf c) : MemWf (frameAccess c n e) := by
  fun_cases frameAccess c n e <;> simp [MemWf, *]

@[simp] theorem wf_frameRun (n : Nat) (a : List (List Byte)) (a2 : Chip × List Byte) (h : MemWf a2.1) :
    MemWf (frameRun n a a2).1 := by
  induction a generalizing a2 with
  | nil => exact h
  | cons e rest ih => exact ih _ (wf_frameAccess _ _ _ h)

@[simp] theorem wf_mgmtFrame (c : Chip) (n : Nat) (f : List Byte) (h : MemWf c) : MemWf (mgmtFrame c n f) := by
  grind [mgmtFrame, mem_sendMsg, wf_frameRun]

@[simp] theorem wf_mgmtArrives (c : Chip) (n : Nat) (frame : List Byte) (h : MemWf c) :
    MemWf (mgmtArrives c n frame) := by
  unfold mgmtArrives
  (repeat' split) <;> simp [MemWf, h]

@[simp] theorem wf_runHeldReqs (c : Chip) (h : MemWf c) : MemWf (runHeldReqs c) := by
  fun_cases runHeldReqs c
  · exact h
  · exact wf_foldl _ (fun c e hc => by split; exact wf_mgmtFrame _ _ _ hc; exact hc) _ _ h

@[simp] theorem wf_wakeDone (c : Chip) (cause us : Nat) (h : MemWf c) : MemWf (wakeDone c cause us) := by
  unfold wakeDone
  split <;> simp [MemWf, h]

/-! ### Functions of Deliver -/

@[simp] theorem wf_badRequest (c : Chip) (n : Nat) (tag : DWord) (handle : Word) (code : Nat) (h : MemWf c) :
    MemWf (badRequest c n tag handle code) := by
  grind [badRequest, wf_settle, mem_rejectReq, wf_touch, mem_answerReq]

@[simp] theorem wf_searchMsg (c : Chip) (n op : Nat) (tag : DWord) (handle : Word) (b : List Byte) (h : MemWf c) :
    MemWf (searchMsg c n op tag handle b) := by
  unfold searchMsg
  (repeat' split) <;> simp [MemWf, h]

@[simp] theorem wf_sessionMsg (c : Chip) (n : Nat) (l : List Byte) (h : MemWf c) : MemWf (sessionMsg c n l) := by
  fun_cases sessionMsg c n l <;> simp [MemWf, *]

@[simp] theorem wf_regMsg (c : Chip) (n : Nat) (l : List Byte) (h : MemWf c) : MemWf (regMsg c n l) := by
  fun_cases regMsg c n l <;> simp [MemWf, *]

@[simp] theorem wf_cutMsgIn (c : Chip) (n : Nat) (l : List Byte) (h : MemWf c) : MemWf (cutMsgIn c n l) := by
  fun_cases cutMsgIn c n l
  refine wf_withCut _ _ _ (fun c hc => ?_) h
  dsimp only
  split; · exact wf_of_mem hc (mem_offerRx _ _ _)
  split; · exact wf_acceptRx _ _ _ hc
  split; · exact wf_releaseRx _ _ _ hc
  split; · exact wf_of_mem hc (mem_confirmRx _ _ _)
  split; · exact wf_of_mem hc (mem_declineRx _ _ _)
  split; · exact wf_withdrawRx _ _ _ hc
  split; · exact wf_reclaimRx _ _ _ hc
  split; · exact wf_of_mem hc (mem_probeRx _ _ _)
  split; · exact wf_standingRx _ _ _ hc
  split; · exact wf_of_mem hc (mem_doneRx _ _ _)
  exact hc

@[simp] theorem wf_actMessage (c : Chip) (n cls : Nat) (l : List Byte) (h : MemWf c) :
    MemWf (actMessage c n cls l) := by
  unfold actMessage
  (repeat' split) <;> simp [MemWf, h]

@[simp] theorem wf_deliverMsg (c : Chip) (n : Nat) (id : Word) (h : MemWf c) : MemWf (deliverMsg c n id) := by
  fun_cases deliverMsg c n id <;> simp [MemWf, *]

end Sys2Proof.Machine
end

section
/-! The invariant of every step (O3). -/

open Sys2Proof.Safety

namespace Sys2Proof.Machine

/-- Every command keeps the canonical form of GDDR7: the commands of the table are the meanings of the functions above,
under the gates of the domains. The first cases are those that fold over a list, hand on a function or pass through
several functions that write; the others are one function under a gate each. -/
theorem memWf_exec (i : Instr) (s : State) (h : MemWf s.toChip) (t : State) (ht : exec i s = .next t) : MemWf t.toChip := by
  cases i <;> (cases ht; dsimp only; rw [MemWf, drivePins_mem]; generalize s.toChip = c at h ⊢)
  case drainTimeout page =>
    refine wf_whenAwake _ _ (fun c hc => ?_) h
    split
    · exact wf_kick _ (wf_settle _ (by rw [MemWf, mem_endDrain]; exact wf_drainTimeoutOf _ _ hc))
    · exact hc
  case damageSweepEnd =>
    exact wf_whenAwake _ _ (fun c hc => wf_kick _ (wf_settle _ (by rw [MemWf, mem_sweepEnd]; exact wf_settle _ hc))) h
  case revivalDone =>
    refine wf_whenAwake _ _ (fun c hc => ?_) h
    have hs := wf_settle _ hc
    split
    · split
      · exact wf_kick _ (wf_settle _ (wf_revivalDone _ _ _ _ hs))
      · exact hs
    · exact hs
  case sessionReleaseDone =>
    refine wf_whenAwake _ _ (fun c hc => ?_) h
    have hs := wf_settle _ hc
    split
    · exact wf_kick _ (wf_settle _ (wf_releaseDone _ _ _ hs))
    · exact hs
  case batchHoldExpiry =>
    refine wf_whenAwake _ _ (fun c hc => ?_) h
    split
    · exact wf_formStep _ _ _ _ (wf_settle _ (wf_boundaryQueues _ _ (wf_settle _ hc)))
    · exact hc
  case tokeniseDone =>
    refine wf_whenAwake _ _ (fun c hc => ?_) h
    have hs := wf_settle _ hc
    split
    · split
      · exact wf_kick _ (by rw [MemWf, mem_tokeniseDone]; exact hs)
      · exact hs
    · exact hs
  case bar =>
    refine wf_whenAwake _ _ (fun c hc => wf_issue _ _ _ _ (fun c hc => ?_) hc) h
    split <;> simpa [MemWf] using hc
  case mzero => exact wf_whenAwake _ _ (fun c hc => wf_issue _ _ _ _ (fun c hc => hc) hc) h
  case recv =>
    refine wf_whenAwake _ _ (fun c hc => wf_issue _ _ _ _ (fun c hc => ?_) hc) h
    split <;> simpa [MemWf] using hc
  case placementDone =>
    exact wf_whenAwake _ _ (fun c hc =>
      wf_foldl _ (fun c p hc => by rw [MemWf, mem_placeWaiting]; exact hc) _ _ (wf_placementDone _ _ _ hc)) h
  case watchdogExpiry =>
    refine wf_whenAwake _ _ (fun c hc => ?_) h
    split <;> simpa [MemWf] using hc
  case coreTestEnd =>
    exact wf_whenAwake _ _ (fun c hc =>
      wf_foldl _ (fun c p hc => by rw [MemWf, mem_placeWaiting]; exact hc) _ _ (by rw [MemWf, mem_coreTestEnd]; exact hc)) h
  case lockstepDisagree =>
    refine wf_whenAwake _ _ (fun c hc => ?_) h
    split <;> simpa [MemWf] using hc
  case ageFlush =>
    refine wf_whenAwake _ _ (fun c hc => ?_) h
    have hs := wf_settle _ hc
    split
    · exact wf_ageFlush _ _ hs
    · exact hs
  case coldAgeEvict =>
    refine wf_whenAwake _ _ (fun c hc => ?_) h
    have hs := wf_settle _ hc
    split
    · exact wf_coldAgeEvict _ _ hs
    · exact hs
  case evictionCommit =>
    refine wf_whenAwake _ _ (fun c hc => ?_) h
    have hs := wf_settle _ hc
    split
    · exact wf_pumpPressure _ (wf_kick _ (wf_settle _ (wf_evictionCommit _ _ hs)))
    · exact hs
  case blockReadDone =>
    exact wf_whenAwake _ _ (fun c hc => wf_kick _ (wf_settle _ (wf_blockReadDone _ _ _ (wf_settle _ hc)))) h
  case patrolScrub =>
    refine wf_whenAwake _ _ (fun c hc => ?_) h
    split
    · exact wf_kick _ (wf_settle _ (wf_patrol _ _ _ _ (wf_settle _ hc)))
    · exact hc
  case objectDurable =>
    refine wf_whenAwake _ _ (fun c hc => ?_) h
    split
    · exact wf_kick _ (wf_settle _ (wf_objectDurable _ _ (wf_settle _ hc)))
    · exact hc
  case dieLost =>
    exact wf_whenAwake _ _ (fun c hc => wf_kick _ (wf_settle _ (wf_dieLost _ _ (wf_settle _ hc)))) h
  case readScan =>
    refine wf_whenAwake _ _ (fun c hc => ?_) h
    split
    · exact wf_kick _ (wf_settle _ (wf_readScan _ _ _ _ (wf_settle _ hc)))
    · exact hc
  case portTrainingTimeout =>
    refine wf_whenLinked _ _ (fun c hc => ?_) h
    split <;> simpa [MemWf] using hc
  case vstReadResp =>
    refine wf_whenAwake _ _ (fun c hc => wf_rxData _ _ _ _ (fun c n hc => ?_) hc) h
    rw [MemWf, mem_assembleAll]
    exact wf_respAccess _ _ _ (wf_settle _ hc)
  case ackDelayExpiry =>
    refine wf_whenAwake _ _ (fun c hc => ?_) h
    split <;> simpa [MemWf] using hc
  case pwrLearn =>
    refine wf_whenMinuet _ _ (fun c hc => ?_) h
    split
    · exact wf_foldl _ (fun c x hc => by rw [MemWf, mem_learnOne]; exact hc) _ _ hc
    · exact hc
  case jtagSamplePreload =>
    exact wf_whenMinuet _ _ (fun c hc => hc) h
  all_goals
    try simp only [whenAwake, whenMinuet, whenLinked]
    (repeat' split) <;> simp_all [MemWf]

/-- Settles O3: an idle step changes nothing; a command keeps the canonical form (`memWf_exec`) and ends by setting the pins
(`exec_eq_after`). -/
theorem stepKeepsMemoryAndPins : Obligations.StepKeepsMemoryAndPins := by
  intro s t hm hp hs
  cases hq : s.pending with
  | nil =>
    simp only [step, hq] at hs
    cases hs
    exact ⟨hm, hp⟩
  | cons i rest =>
    simp only [step, hq] at hs
    have hm' : MemWf ({ s with pending := rest } : State).toChip := hm
    obtain ⟨c, hc⟩ := exec_eq_after i { s with pending := rest }
    refine ⟨memWf_exec i _ hm' t hs, ?_⟩
    rw [hc] at hs
    cases hs
    exact pinsFollow_after _ _

end Sys2Proof.Machine
end

section
/-! Scalar and control operations of the step cores (O23). An operation that issues is one of two: its effect under lane 0
of the guard, or the next instruction without it. -/

namespace Sys2Proof.Machine

open Sys2Proof.Safety

/-! ### Writing one key twice -/

theorem tins_tins {α : Type} (t : Tbl α) (k : Nat) (v w : α) : tins (tins t k v) k w = tins t k w := by
  induction t with
  | nil => simp [tins]
  | cons e r ih =>
    obtain ⟨j, x⟩ := e
    by_cases h1 : k < j
    · simp [tins, h1]
    · by_cases h2 : k = j
      · simp [tins, h2]
      · simp [tins, h1, h2, ih]

theorem tdel_tins {α : Type} (t : Tbl α) (k : Nat) (v : α) : tdel (tins t k v) k = tdel t k := by
  induction t with
  | nil => simp [tins, tdel]
  | cons e r ih =>
    obtain ⟨j, x⟩ := e
    by_cases h1 : k < j
    · simp [tins, h1, tdel]
    · by_cases h2 : k = j
      · simp [tins, h2, tdel]
      · simpa [tins, h1, h2, tdel, Ne.symm h2] using ih

/-- A value that the table lists, written over, is as if it had not been written. -/
theorem tset_tset {α : Type} [DecidableEq α] (d : α) (t : Tbl α) (k : Nat) (v w : α) (h : v ≠ d) :
    tset d (tset d t k v) k w = tset d t k w := by
  simp only [tset, if_neg h]
  split
  · exact tdel_tins t k v
  · exact tins_tins t k v w

theorem setCore_setCore (c : Chip) (n : Nat) (k k' : Core) (h : k ≠ coreReset) :
    setCore (setCore c n k) n k' = setCore c n k' := by
  simp only [setCore, tset_tset _ _ _ _ _ h]

/-! ### The guard -/

theorem scalarOp_on {g : Guard} {f : Core → IRes} {k : Core} (h : (guardMask k g).getLsbD 0 = true) :
    scalarOp g f k = f k := if_pos h

theorem scalarOp_off {g : Guard} {f : Core → IRes} {k : Core} (h : (guardMask k g).getLsbD 0 = false) :
    scalarOp g f k = .next (advance k) := by
  rw [scalarOp, h]
  rfl

/-- A core that an operation leaves as given, with nothing to follow on the chip. -/
theorem coreBecomes_next {i : Instr} {s : State} {core : CoreId} {f : Chip → Core → IRes} {k : Core}
    (hi : exec i s = onCore s core f id) (h : Issues s.toChip core.toNat)
    (hf : f s.toChip (coreAt s.toChip core.toNat) = .next k) : CoreBecomes i s core k :=
  ⟨_, hi.trans (onCore_next s core f id k h hf), onlyCore_set s _ k, by simp⟩

/-- An operation that gives S[A] a word where lane 0 enables it. -/
theorem setsScalar_of {i : Instr} {s : State} {core : CoreId} {g : Guard} {a : Reg} {w : Word} {f : Chip → Core → IRes}
    (hi : exec i s = onCore s core (fun c => scalarOp g (f c)) id) (h : Issues s.toChip core.toNat)
    (hf : lane0 s.toChip core.toNat g = true →
      f s.toChip (coreAt s.toChip core.toNat) = .next (advance (sset (coreAt s.toChip core.toNat) a w))) :
    SetsScalar i s core g a w := by
  cases hg : lane0 s.toChip core.toNat g with
  | true =>
    obtain ⟨t, ht, honly, hk⟩ := coreBecomes_next hi h ((scalarOp_on hg).trans (hf hg))
    refine ⟨t, ht, honly, by rw [hk, advance_sset], fun r => ?_⟩
    simp [hk, sget_sset, hg]
  | false =>
    obtain ⟨t, ht, honly, hk⟩ := coreBecomes_next hi h (scalarOp_off hg)
    refine ⟨t, ht, honly, by rw [hk], fun r => ?_⟩
    simp [hk, hg]

theorem advance_pset (k : Core) (a : PReg) (w : BitVec 64) :
    advance (pset k a w) = { advance k with p := (pset k a w).p } := by
  rw [pset_eq, advance_eq, advance_eq]

/-- An operation that gives P[A] a word, lane by lane under a mask. -/
theorem setsPredicate_next {i : Instr} {s : State} {core : CoreId} {m w w' : BitVec 64} {a : PReg}
    {f : Chip → Core → IRes} (hi : exec i s = onCore s core f id) (h : Issues s.toChip core.toNat)
    (hf : f s.toChip (coreAt s.toChip core.toNat) = .next (advance (pset (coreAt s.toChip core.toNat) a w')))
    (hw : w' = (w &&& m) ||| (pget (coreAt s.toChip core.toNat) a &&& ~~~m)) : SetsPredicate i s core m a w := by
  obtain ⟨t, ht, honly, hk⟩ := coreBecomes_next hi h hf
  refine ⟨t, ht, honly, by rw [hk, advance_pset], fun r => ?_⟩
  rw [hk, pget_advance, pget_pset, hw]

/-! ### Comparison -/

/-- SCMP's comparison as the numbers that its four forms compare. -/
theorem scmpOf_iff (fmt : BitVec 2) (x z : Word) : scmpOf fmt x z = true ↔
    if fmt = 0 then x = z else if fmt = 1 then x.toNat < z.toNat else if fmt = 2 then x.toInt < z.toInt
      else x.toInt ≤ z.toInt := by
  unfold scmpOf
  split_ifs <;> simp [BitVec.ult, BitVec.slt, BitVec.sle]

/-- SCMP: every lane of P[A]. -/
theorem setsPredicate_scmp {s : State} {core : CoreId} {g : Guard} {p : PReg} {b c : Reg} {fmt : BitVec 2}
    (h : Issues s.toChip core.toNat) : SetsPredicate (.scmp core g p b c fmt) s core
      (if lane0 s.toChip core.toNat g then BitVec.allOnes 64 else 0) p
      (if scmpOf fmt (sget (coreAt s.toChip core.toNat) b) (sget (coreAt s.toChip core.toNat) c) then
        BitVec.allOnes 64 else 0) := by
  cases hg : lane0 s.toChip core.toNat g with
  | true =>
    refine setsPredicate_next rfl h (scalarOp_on hg) ?_
    rw [if_pos rfl, BitVec.and_allOnes, BitVec.not_allOnes, BitVec.and_zero, BitVec.or_zero]
  | false =>
    obtain ⟨t, ht, honly, hk⟩ := coreBecomes_next (i := .scmp core g p b c fmt) rfl h (scalarOp_off hg)
    refine ⟨t, ht, honly, by rw [hk], fun r => ?_⟩
    simp only [hk, pget_advance, Bool.false_eq_true, if_false]
    split
    next hr =>
      show _ = _ &&& 0#64 ||| _ &&& ~~~0#64
      rw [hr.1, BitVec.and_zero, BitVec.not_zero, BitVec.and_allOnes, BitVec.zero_or]
    · rfl

/-! ### Waits -/

/-- A core that issues waits for nothing, and it is not as reset leaves it. -/
theorem wait_of_issues {c : Chip} {n : Nat} (h : Issues c n) : (coreAt c n).wait = none := by
  obtain ⟨-, hi⟩ := h
  simp only [canIssue, Bool.and_eq_true, Option.isNone_iff_eq_none] at hi
  exact hi.1.1.2

theorem ne_coreReset_of_wait {k : Core} {w : CoreWait} (h : k.wait = some w) : k ≠ coreReset := by
  rintro rfl
  exact nomatch h

theorem wait_none_self {k : Core} (h : k.wait = none) : { k with wait := none } = k := by
  cases k
  simp_all

/-- FENCE with everything acknowledged goes on. -/
theorem exec_fence_drained {s : State} {core : CoreId} {g : Guard} (h : Issues s.toChip core.toNat)
    (hg : lane0 s.toChip core.toNat g = true) (hd : drained (coreAt s.toChip core.toNat) = true) :
    exec (.fence core g) s =
      .next (after s (setCore s.toChip core.toNat (advance (coreAt s.toChip core.toNat)))) := by
  have hw := wait_none_self (wait_of_issues h)
  refine (onCore_next s core _ _ _ h (scalarOp_on hg)).trans ?_
  congr 2
  have hd' : drained { coreAt s.toChip core.toNat with wait := some .fence } = true := hd
  simp only [wakeCore, coreAt_setCore, hd', if_true]
  rw [setCore_setCore _ _ _ _ (ne_coreReset_of_wait rfl), hw]

/-- FENCE with something left waits. -/
theorem exec_fence_wait {s : State} {core : CoreId} {g : Guard} (h : Issues s.toChip core.toNat)
    (hg : lane0 s.toChip core.toNat g = true) (hd : drained (coreAt s.toChip core.toNat) = false) :
    exec (.fence core g) s =
      .next (after s (setCore s.toChip core.toNat { coreAt s.toChip core.toNat with wait := some .fence })) := by
  refine (onCore_next s core _ _ _ h (scalarOp_on hg)).trans ?_
  congr 2
  have hd' : drained { coreAt s.toChip core.toNat with wait := some .fence } = false := hd
  simp [wakeCore, hd']

/-- FENCE without lane 0 goes on: there is no wait to end. -/
theorem exec_fence_off {s : State} {core : CoreId} {g : Guard} (h : Issues s.toChip core.toNat)
    (hg : lane0 s.toChip core.toNat g = false) :
    exec (.fence core g) s =
      .next (after s (setCore s.toChip core.toNat (advance (coreAt s.toChip core.toNat)))) := by
  refine (onCore_next s core _ _ _ h (scalarOp_off hg)).trans ?_
  have hw : (advance (coreAt s.toChip core.toNat)).wait = none := by
    rw [advance_eq]; exact wait_of_issues h
  simp [wakeCore, hw]

theorem coreBecomes_of_exec {i : Instr} {s : State} {core : CoreId} {k : Core}
    (h : exec i s = .next (after s (setCore s.toChip core.toNat k))) : CoreBecomes i s core k :=
  ⟨_, h, onlyCore_set s _ k, by simp⟩

/-! ### Barriers (R157) -/

@[simp] theorem stopMarking_grid (c : Chip) (n : Nat) : (stopMarking c n).grid = c.grid := by
  unfold stopMarking
  dsimp only
  split <;> rfl

theorem coreAt_congr {c d : Chip} (h : c.grid = d.grid) (n : Nat) : coreAt c n = coreAt d n := by rw [coreAt, coreAt, h]

theorem coreAt_foldl_stopMarking (l : List Nat) (c : Chip) (m : Nat) : coreAt (l.foldl stopMarking c) m = coreAt c m :=
  coreAt_congr (foldl_same (·.grid) stopMarking (fun c n => stopMarking_grid c n) l c) m

/-- Each of a list of cores changed by one rule: the listed ones are changed once, the others stand. -/
theorem coreAt_foldl_setCore (f : Core → Core) (l : List Nat) (hl : l.Nodup) (c : Chip) (m : Nat) :
    coreAt (l.foldl (fun c m => setCore c m (f (coreAt c m))) c) m = if m ∈ l then f (coreAt c m) else coreAt c m := by
  induction l generalizing c with
  | nil => simp
  | cons a r ih =>
    obtain ⟨ha, hr⟩ := List.nodup_cons.1 hl
    rw [List.foldl_cons, ih hr]
    by_cases hm : m = a
    · subst hm
      simp [ha]
    · simp [coreAt_setCore_other _ _ _ _ hm, hm]

/-- The group of a core does not depend on its wait. -/
theorem inGroup_wait (k : Core) (w : Option CoreWait) : inGroup { k with wait := w } = inGroup k := rfl

/-- What BAR leaves before the group is looked at. -/
theorem exec_bar_on {s : State} {core : CoreId} {g : Guard} {b : BitVec 2} (h : Issues s.toChip core.toNat)
    (hg : lane0 s.toChip core.toNat g = true) :
    exec (.bar core g b) s = .next (after s (releaseBarrier (setCore s.toChip core.toNat
      { coreAt s.toChip core.toNat with wait := some (.bar b.toNat) }) core.toNat b.toNat)) := by
  refine (onCore_next s core _ _ _ h (scalarOp_on hg)).trans ?_
  simp

/-- The members of the group all wait once this core does, exactly where the others already do. -/
theorem all_wait_iff (c : Chip) (n b : Nat) (l : List Nat) :
    l.all (fun m => decide ((coreAt (setCore c n { coreAt c n with wait := some (.bar b) }) m).wait = some (.bar b))) =
      l.all (fun m => decide (m = n) || decide ((coreAt c m).wait = some (.bar b))) := by
  congr 1
  funext m
  by_cases hm : m = n
  · subst hm; simp
  · simp [coreAt_setCore_other _ _ _ _ hm, hm]

/-- The barrier holds where this core is no member, or another member has not come. -/
theorem releaseBarrier_wait {c : Chip} {n b : Nat}
    (hm : n ∉ (List.range 256).filter (inGroup (coreAt c n)) ∨
      ((List.range 256).filter (inGroup (coreAt c n))).all (fun m => decide (m = n) ||
        decide ((coreAt c m).wait = some (.bar b))) = false) :
    releaseBarrier (setCore c n { coreAt c n with wait := some (.bar b) }) n b =
      setCore c n { coreAt c n with wait := some (.bar b) } := by
  simp only [releaseBarrier, coreAt_setCore, inGroup_wait, all_wait_iff]
  refine if_neg ?_
  rintro ⟨h1, h2⟩
  exact hm.elim (fun h => h h1) (fun h => by rw [h] at h2; exact nomatch h2)

/-- The cores after the barrier is released. -/
theorem coreAt_releaseBarrier {c : Chip} {n b : Nat} (hm : n ∈ (List.range 256).filter (inGroup (coreAt c n)))
    (ho : ((List.range 256).filter (inGroup (coreAt c n))).all (fun m => decide (m = n) ||
      decide ((coreAt c m).wait = some (.bar b))) = true) (m : Nat) :
    coreAt (releaseBarrier (setCore c n { coreAt c n with wait := some (.bar b) }) n b) m =
      if m ∈ (List.range 256).filter (inGroup (coreAt c n)) then advance { coreAt c m with wait := none }
      else coreAt c m := by
  simp only [releaseBarrier, coreAt_setCore, inGroup_wait, all_wait_iff]
  rw [if_pos ⟨hm, ho⟩, coreAt_foldl_stopMarking,
    coreAt_foldl_setCore (fun k => advance { k with wait := none }) _ (List.nodup_range.filter _)]
  by_cases hmn : m = n
  · subst hmn
    rw [if_pos hm, if_pos hm, coreAt_setCore]
  · rw [coreAt_setCore_other _ _ _ _ hmn]

/-- BAR without lane 0 goes on. -/
theorem exec_bar_off {s : State} {core : CoreId} {g : Guard} {b : BitVec 2} (h : Issues s.toChip core.toNat)
    (hg : lane0 s.toChip core.toNat g = false) :
    exec (.bar core g b) s = .next (after s (setCore s.toChip core.toNat (advance (coreAt s.toChip core.toNat)))) := by
  refine (onCore_next s core _ _ _ h (scalarOp_off hg)).trans ?_
  have hw : (advance (coreAt s.toChip core.toNat)).wait = none := by
    rw [advance_eq]; exact wait_of_issues h
  simp [hw]

/-! ### The statement -/

/-- Settles O23: each operation issues by its guard; SCMP's comparison is that of the numbers, FENCE looks again at once at
what it waits for, and BAR at its group. -/
theorem scalarAndControl : Obligations.ScalarAndControl := by
  constructor
  · intro s core g a b c p imm fmt h
    refine ⟨setsScalar_of rfl h fun _ => rfl, setsScalar_of rfl h fun _ => rfl, setsScalar_of rfl h fun _ => rfl,
      setsScalar_of rfl h fun _ => rfl, setsScalar_of rfl h fun _ => rfl, setsScalar_of rfl h fun _ => rfl,
      setsScalar_of rfl h fun _ => rfl, setsScalar_of rfl h fun _ => rfl, setsScalar_of rfl h fun _ => rfl, ?_⟩
    simp only [← scmpOf_iff]
    exact setsPredicate_scmp h
  · intro s core g a n b h
    refine ⟨?_, fun hg => ⟨?_, ?_, ?_, ?_, ?_⟩, fun hg => ⟨?_, fun hn => ?_, fun hc hn => ?_, ?_, fun hd => ?_, fun hd => ?_,
      fun hm => ?_, fun hm ho => ?_⟩⟩
    · cases hg : lane0 s.toChip core.toNat g with
      | true => exact coreBecomes_next rfl h (scalarOp_on hg)
      | false => exact coreBecomes_next rfl h (scalarOp_off hg)
    · exact coreBecomes_next rfl h (scalarOp_off hg)
    · exact coreBecomes_next rfl h (scalarOp_off hg)
    · exact coreBecomes_next rfl h (scalarOp_off hg)
    · exact coreBecomes_of_exec (exec_fence_off h hg)
    · exact coreBecomes_of_exec (exec_bar_off h hg)
    · exact coreBecomes_next rfl h (scalarOp_on hg)
    · refine coreBecomes_next rfl h ((scalarOp_on hg).trans ?_)
      rw [enterLoop, if_pos (hn.imp_right fun h => by rw [h]; rfl)]
    · refine coreBecomes_next rfl h ((scalarOp_on hg).trans ?_)
      rw [enterLoop, if_neg (by rintro (h0 | h0); exacts [hc h0, hn (BitVec.eq_of_toNat_eq h0)])]
    · exact coreBecomes_next rfl h (scalarOp_on hg)
    · exact coreBecomes_of_exec (exec_fence_drained h hg hd)
    · exact coreBecomes_of_exec (exec_fence_wait h hg hd)
    · exact coreBecomes_of_exec ((exec_bar_on h hg).trans (by rw [releaseBarrier_wait hm]))
    · have hr := coreAt_releaseBarrier hm ho
      refine ⟨_, exec_bar_on h hg, after_pending _ _, fun m hm => ?_, fun m hm => ?_⟩
      · rw [coreAt_after, hr, if_pos hm]
      · rw [coreAt_after, hr, if_neg hm]

end Sys2Proof.Machine
end

section
/-! What raising events and sending messages leave alone, more finely than the quiet part: FLT, XPT but for its
connections, and the requesters' own state stand too. -/

namespace Sys2Proof.Machine

open Sys2Proof.Safety

/-- A chip without what raising events and sending messages may change. -/
def mute (c : Chip) : Chip :=
  { c with
    mgmt := { c.mgmt with regs := [], copy1 := [], copy2 := [], blocks := [] }
    xpt := { c.xpt with conns := [] }
    egr := Chip.reset.egr
    pins := Chip.reset.pins
    free := 0
    now := 0
    fineNow := 0 }

theorem flt_of_mute {c d : Chip} (h : mute d = mute c) : d.flt = c.flt := by
  have := congrArg Chip.flt h
  exact this

theorem acc_of_mute {c d : Chip} (h : mute d = mute c) : d.mgmt.acc = c.mgmt.acc := by
  have := congrArg (fun c => c.mgmt.acc) h
  exact this

theorem reqState_of_mute {c d : Chip} (h : mute d = mute c) (r : Requester) : reqState d r = reqState c r := by
  have hs := congrArg (fun c => c.mgmt.sideband) h
  have hi := congrArg (fun c => c.mgmt.inband) h
  cases r with
  | sideband => exact hs
  | conn n => exact congrArg (fun t => tget ReqState.empty t n.toNat) hi

/-- A finer account of what stands than the quiet part. -/
theorem quiet_of_mute {c d : Chip} (h : mute d = mute c) : quiet d = quiet c := by
  have := congrArg quiet h
  exact this

/-! ### Registers and headers -/

@[simp] theorem mute_setKey (c : Chip) (k : Nat) (m v : Word) : mute (setKey c k m v) = mute c := by
  unfold mute setKey; rfl
@[simp] theorem mute_setReg (c : Chip) (a : Nat) (v : Word) : mute (setReg c a v) = mute c := by
  simp [setReg]
@[simp] theorem mute_setRegB (c : Chip) (b a : Nat) (v : Word) : mute (setRegB c b a v) = mute c := by
  simp [setRegB]
@[simp] theorem mute_setFld (c : Chip) (a h l v : Nat) : mute (setFld c a h l v) = mute c := by
  simp [setFld]
@[simp] theorem mute_setFldB (c : Chip) (b a h l v : Nat) : mute (setFldB c b a h l v) = mute c := by
  simp [setFldB]
@[simp] theorem mute_setPairB (c : Chip) (b a v : Nat) : mute (setPairB c b a v) = mute c := by
  simp [setPairB]
@[simp] theorem mute_setPair (c : Chip) (a v : Nat) : mute (setPair c a v) = mute c := by
  simp [setPair]
@[simp] theorem mute_setHdr (c : Chip) (p : Page) (h : BlockHdr) : mute (setHdr c p h) = mute c := by
  unfold mute setHdr; rfl
@[simp] theorem mute_drivePins (c : Chip) : mute (drivePins c) = mute c := by
  unfold mute drivePins; rfl
@[simp] theorem mute_after (s : State) (c : Chip) : mute (after s c).toChip = mute c := by
  unfold after; exact mute_drivePins c

@[simp] theorem mute_bumpB (c : Chip) (b a n : Nat) : mute (bumpB c b a n) = mute c := by
  unfold bumpB; split <;> simp
@[simp] theorem mute_bump (c : Chip) (a n : Nat) : mute (bump c a n) = mute c := mute_bumpB c 0 a n
@[simp] theorem mute_bumpPair (c : Chip) (a n : Nat) : mute (bumpPair c a n) = mute c := by
  unfold bumpPair; split <;> simp
@[simp] theorem mute_bumpPairB (c : Chip) (b a n : Nat) : mute (bumpPairB c b a n) = mute c := by
  unfold bumpPairB; split <;> simp

/-! ### The model's own counters -/

@[simp] theorem mute_takeFree (c : Chip) : mute (takeFree c).2 = mute c := by
  unfold mute takeFree; rfl
@[simp] theorem mute_takeTick (c : Chip) : mute (takeTick c).2 = mute c := by
  unfold mute takeTick takeFree; rfl
@[simp] theorem mute_takeFine (c : Chip) : mute (takeFine c).2 = mute c := by
  unfold mute takeFine takeFree; rfl

/-! ### Packets and messages -/

@[simp] theorem mute_setConn (c : Chip) (n : Nat) (k : ConnSt) : mute (setConn c n k) = mute c := by
  unfold mute setConn; rfl
@[simp] theorem mute_setEqueue (c : Chip) (n : Nat) (k : EQueue) : mute (setEqueue c n k) = mute c := by
  unfold mute setEqueue; rfl
@[simp] theorem mute_enqueuePkt (c : Chip) (n : Nat) (p : Pkt) : mute (enqueuePkt c n p).1 = mute c := by
  simp [enqueuePkt]
@[simp] theorem mute_sendNow (c : Chip) (n : Nat) (p : Pkt) (u : InitUse) : mute (sendNow c n p u).1 = mute c := by
  simp [sendNow]
@[simp] theorem mute_sendControl (c : Chip) (n : Nat) (p : Pkt) : mute (sendControl c n p) = mute c := by
  unfold sendControl; split <;> rfl

@[simp] theorem mute_waitSpace (c : Chip) (n : Nat) (w : List (Pkt × InitUse)) :
    mute (waitSpace c n w).1 = mute c := by
  simp only [waitSpace, mute_bumpB]; rfl

@[simp] theorem mute_sendPkt (c : Chip) (n : Nat) (p : Pkt) (u : InitUse) : mute (sendPkt c n p u).1 = mute c := by
  unfold sendPkt; dsimp only; split
  · rfl
  · split <;> simp

@[simp] theorem mute_sendAgain (c : Chip) (n : Nat) (p : Pkt) (u : InitUse) :
    mute (sendAgain c n p u).1 = mute c := by
  unfold sendAgain; dsimp only; split <;> simp

@[simp] theorem mute_pumpN (f : Nat) (c : Chip) (n : Nat) : mute (pumpN f c n).1 = mute c := by
  induction f generalizing c with
  | zero => rfl
  | succ f ih =>
    unfold pumpN; dsimp only; split
    · rfl
    · split
      · rfl
      · split
        · simp only [ih]; split <;> simp
        · simp

@[simp] theorem mute_pump (c : Chip) (n : Nat) : mute (pump c n).1 = mute c := mute_pumpN _ _ _

theorem mute_sendFold (n : Nat) (u : InitUse) (ps : List Pkt) (a : Chip × List EventBit) :
    mute (ps.foldl (fun a p => ((sendPkt a.1 n p u).1, a.2 ++ (sendPkt a.1 n p u).2)) a).1 = mute a.1 := by
  induction ps generalizing a with
  | nil => rfl
  | cons p r ih => rw [List.foldl_cons, ih]; simp

@[simp] theorem mute_sendAll (c : Chip) (n : Nat) (ps : List Pkt) (u : InitUse) :
    mute (sendAll c n ps u).1 = mute c := mute_sendFold n u ps (c, [])

@[simp] theorem mute_pushMsg (c : Chip) (n cls : Nat) (b : List Byte) : mute (pushMsg c n cls b).1 = mute c := by
  unfold pushMsg; dsimp only; split
  · split <;> simp
  · split <;> simp

/-! ### Events -/

theorem mute_eventFold (b : List Byte) (ns : List Nat) (a : Chip × List EventBit) :
    mute (ns.foldl (fun a n => ((pushMsg a.1 n 7 b).1, a.2 ++ (pushMsg a.1 n 7 b).2)) a).1 = mute a.1 := by
  induction ns generalizing a with
  | nil => rfl
  | cons p r ih => rw [List.foldl_cons, ih]; simp

@[simp] theorem mute_sendEvent (c : Chip) (p : Page) : mute (sendEvent c p).1 = mute c := by
  unfold sendEvent; dsimp only; split
  · rfl
  · rw [mute_eventFold]; rfl

@[simp] theorem mute_setInt (c : Chip) (p : Page) (b : Word) : mute (setInt c p b).1 = mute c := by
  unfold setInt; dsimp only; split <;> simp

@[simp] theorem mute_raiseN (f : Nat) (l : List EventBit) (c : Chip) : mute (raiseN f l c) = mute c := by
  induction f generalizing l c with
  | zero => rfl
  | succ f ih =>
    cases l with
    | nil => rfl
    | cons e r => unfold raiseN; dsimp only; rw [ih]; simp

@[simp] theorem mute_raises (c : Chip) (l : List EventBit) : mute (raises c l) = mute c := mute_raiseN _ _ _
@[simp] theorem mute_raise (c : Chip) (p : Page) (b : Nat) : mute (raise c p b) = mute c := mute_raises _ _
@[simp] theorem mute_settleEvents (r : Chip × List EventBit) : mute (settleEvents r) = mute r.1 := mute_raises _ _
@[simp] theorem mute_sendMsg (c : Chip) (n cls : Nat) (b : List Byte) : mute (sendMsg c n cls b) = mute c := by
  simp [sendMsg]
@[simp] theorem mute_setState (c : Chip) (p : Page) (s : BState) : mute (setState c p s) = mute c := by
  unfold setState; dsimp only; split <;> simp

end Sys2Proof.Machine
end

section
/-! What a fault report leaves in FLT: the list of reports and the reaction that is pending (R474-R481). The black box
changes neither. -/

namespace Sys2Proof.Machine

open Sys2Proof.Safety

/-- The reports that are kept, and the reactions that are pending or in force. -/
def alarm (c : Chip) : List LastReport × Bool × Bool × Bool :=
  (c.flt.reports, c.flt.modulePending, c.flt.chipPending, c.flt.faulted)

theorem alarm_congr {c d : Chip} (h : d.flt = c.flt) : alarm d = alarm c := by rw [alarm, alarm, h]

theorem alarm_of_mute {c d : Chip} (h : mute d = mute c) : alarm d = alarm c := alarm_congr (flt_of_mute h)

@[simp] theorem alarm_raise (c : Chip) (p : Page) (b : Nat) : alarm (raise c p b) = alarm c := alarm_of_mute (by simp)
@[simp] theorem alarm_setReg (c : Chip) (a : Nat) (v : Word) : alarm (setReg c a v) = alarm c := rfl
@[simp] theorem alarm_setFld (c : Chip) (a hi lo v : Nat) : alarm (setFld c a hi lo v) = alarm c := rfl
@[simp] theorem alarm_setPair (c : Chip) (a v : Nat) : alarm (setPair c a v) = alarm c := rfl
@[simp] theorem alarm_bump (c : Chip) (a n : Nat) : alarm (bump c a n) = alarm c := alarm_of_mute (by simp)
@[simp] theorem alarm_takeFree (c : Chip) : alarm (takeFree c).2 = alarm c := rfl
@[simp] theorem alarm_takeTick (c : Chip) : alarm (takeTick c).2 = alarm c := rfl
@[simp] theorem alarm_takeFine (c : Chip) : alarm (takeFine c).2 = alarm c := rfl

@[simp] theorem alarm_bbProgram (c : Chip) (r : List Byte) : alarm (bbProgram c r) = alarm c := by
  unfold bbProgram
  dsimp only
  split
  · rw [alarm_raise]; rfl
  · rfl

@[simp] theorem alarm_bbQueue (c : Chip) (r : List Byte) : alarm (bbQueue c r) = alarm c := by
  unfold bbQueue
  dsimp only
  split
  · rfl
  split
  · rw [alarm_bump]
  · rw [← alarm_bump c aFLT_BB_SUPPRESSED 1]; rfl

@[simp] theorem alarm_bbAppend (c : Chip) (r : List Byte) : alarm (bbAppend c r) = alarm c := by
  unfold bbAppend
  split
  · exact alarm_bbProgram c r
  split
  · exact alarm_bbProgram c r
  · exact alarm_bbQueue c r

@[simp] theorem alarm_bbRecord (c : Chip) (k cls l p : Nat) (i : Word) (a : DWord) (m : Word) :
    alarm (bbRecord c k cls l p i a m) = alarm c := by
  unfold bbRecord
  dsimp only
  rw [alarm_bbAppend, alarm_takeFine, alarm_takeTick]

@[simp] theorem alarm_faultRecord (c : Chip) (f : FaultRep) (l : Nat) : alarm (faultRecord c f l) = alarm c := by
  unfold faultRecord
  split
  · rfl
  dsimp only
  split
  · rfl
  split
  · rw [alarm_bump]; rfl
  · rw [alarm_bbRecord]; rfl

@[simp] theorem alarm_bbRewrite (c : Chip) : alarm (bbRewrite c) = alarm c := by
  unfold bbRewrite
  dsimp only
  split
  · rfl
  · rw [alarm_bbAppend]; rfl

/-- The report of a fault of its own, as kept. -/
def reportOf (f : FaultRep) (level : Nat) : LastReport :=
  { cls := f.cls.toNat, page := pageIdx f.page, info := f.info, addr := f.addr, level := level }

/-- A fault of its own stands first among the reports, and its level begins a reaction. -/
theorem alarm_reportAt (c : Chip) (f : FaultRep) (level : Nat) :
    ∃ d, alarm d = (reportOf f level :: otherFaults c f, c.flt.modulePending, c.flt.chipPending, c.flt.faulted) ∧
      reportAt c f level = startReaction d f.cls.toNat level := by
  refine ⟨_, ?_, rfl⟩
  rw [alarm_faultRecord, alarm_raise]
  split
  · rw [alarm_bbRewrite]; rfl
  · rfl

theorem startReaction_reports (c : Chip) (cls level : Nat) : (startReaction c cls level).flt.reports = c.flt.reports := by
  unfold startReaction
  split
  · rfl
  split <;> rfl

theorem reports_of_alarm {c : Chip} {x : List LastReport × Bool × Bool × Bool} (h : alarm c = x) :
    c.flt.reports = x.1 := congrArg (·.1) h
theorem modulePending_of_alarm {c : Chip} {x : List LastReport × Bool × Bool × Bool} (h : alarm c = x) :
    c.flt.modulePending = x.2.1 := congrArg (·.2.1) h
theorem faulted_of_alarm {c : Chip} {x : List LastReport × Bool × Bool × Bool} (h : alarm c = x) :
    c.flt.faulted = x.2.2.2 := congrArg (·.2.2.2) h

/-- A report at level 2 begins the chip reaction where no module reaction supersedes it. -/
theorem startReaction_chip {c : Chip} (cls : Nat) (hm : c.flt.modulePending = false) (hf : c.flt.faulted = false) :
    (startReaction c cls 2).flt.chipPending = true := by
  unfold startReaction
  rw [if_neg (by omega), if_pos ⟨rfl, hm, hf⟩]

/-- A fault that R475 does not list: the report at level 2, with a class above 0x1E. -/
theorem reportUnlisted_reports (c : Chip) (p : Page) : ∃ l, (reportUnlisted c p).flt.reports.head? = some l ∧
    l.page = pageIdx p ∧ l.level = 2 ∧ 0x1E < l.cls := by
  unfold reportUnlisted
  dsimp only
  obtain ⟨d, hd, he⟩ := alarm_reportAt (takeFree (takeFree (takeFree c).2).2).2
    { cls := BitVec.ofNat 8 (0x1F + (takeFree c).1 % 225), page := p, info := w32 (takeFree (takeFree c).2).1,
      addr := w64 ((takeFree (takeFree (takeFree c).2).2).1 % 2 ^ 38), higher := true, together := false } 2
  refine ⟨_, by rw [he, startReaction_reports, reports_of_alarm hd]; rfl, rfl, rfl, ?_⟩
  simp only [reportOf, BitVec.toNat_ofNat]
  omega

/-- It begins the chip reaction. -/
theorem reportUnlisted_chip {c : Chip} (p : Page) (hm : c.flt.modulePending = false) (hf : c.flt.faulted = false) :
    (reportUnlisted c p).flt.chipPending = true := by
  unfold reportUnlisted
  dsimp only
  obtain ⟨d, hd, he⟩ := alarm_reportAt (takeFree (takeFree (takeFree c).2).2).2
    { cls := BitVec.ofNat 8 (0x1F + (takeFree c).1 % 225), page := p, info := w32 (takeFree (takeFree c).2).1,
      addr := w64 ((takeFree (takeFree (takeFree c).2).2).1 % 2 ^ 38), higher := true, together := false } 2
  rw [he]
  exact startReaction_chip _ ((modulePending_of_alarm hd).trans hm) ((faulted_of_alarm hd).trans hf)

/-! ### Program errors (R147) -/

/-- What a program error does before its report: PROG_ERR and its event, the first time. -/
def progErrNoted (c : Chip) (n kind : Nat) : Chip :=
  if bit (reg c aGRID_PROG_ERR) 31 then c
  else raise (setReg c aGRID_PROG_ERR (w32 (2 ^ 31 + kind * 2 ^ 16 + n))) .grid 18

theorem progError_eq (c : Chip) (n kind : Nat) : progError c n kind = reportUnlisted (progErrNoted c n kind) .grid := rfl

theorem majority_self (v : Word) : majority v v v = v := by
  simp only [majority, BitVec.and_self, BitVec.or_self]

@[simp] theorem reg_setReg_self (c : Chip) (a : Nat) (v : Word) : reg (setReg c a v) a = v := by
  have hv : v &&& 0xFFFFFFFF#32 = v := BitVec.and_allOnes
  simp [reg, setReg, regKey, setKey, hv, majority_self]

theorem quiet_progErrNoted (c : Chip) (n kind : Nat) : quiet (progErrNoted c n kind) = quiet c := by
  unfold progErrNoted
  split <;> simp

theorem flt_progErrNoted (c : Chip) (n kind : Nat) : (progErrNoted c n kind).flt = c.flt := by
  unfold progErrNoted
  split
  · rfl
  · exact flt_of_mute (by simp)

theorem reg_progErrNoted (c : Chip) (n kind : Nat) : reg (progErrNoted c n kind) aGRID_PROG_ERR =
    if bit (reg c aGRID_PROG_ERR) 31 then reg c aGRID_PROG_ERR else w32 (2 ^ 31 + kind * 2 ^ 16 + n) := by
  unfold progErrNoted
  split
  · rfl
  · rw [(minor_raise _ _ _).reg (by decide), reg_setReg_self]

theorem event_progErrNoted {c : Chip} (n kind : Nat) (h : bit (reg c aGRID_PROG_ERR) 31 = false) :
    bit (hdr (progErrNoted c n kind) .grid).int 18 = true := by
  unfold progErrNoted
  rw [if_neg (by rw [h]; exact Bool.false_ne_true)]
  exact raise_int _ _ _ (by omega)

@[simp] theorem reg_after (s : State) (c : Chip) (a : Nat) : reg (after s c).toChip a = reg c a := rfl
@[simp] theorem hdr_after (s : State) (c : Chip) (p : Page) : hdr (after s c).toChip p = hdr c p := rfl
@[simp] theorem after_flt (s : State) (c : Chip) : (after s c).flt = c.flt := rfl

/-- An instruction that ends in a program error answers as R147 has it. -/
theorem programError_of_exec {i : Instr} {s : State} {core : CoreId} {kind : Nat}
    (h : exec i s = .next (after s (progError s.toChip core.toNat kind))) : ProgramError i s core kind := by
  have hm := minor_reportUnlisted (progErrNoted s.toChip core.toNat kind) .grid
  have hn := flt_progErrNoted s.toChip core.toNat kind
  rw [progError_eq] at h
  refine ⟨_, h, after_pending _ _, ?_, ?_, fun hb => ?_, ?_, fun hp hf => ?_⟩
  · rw [quiet_after, quiet_reportUnlisted, quiet_progErrNoted]
  · rw [reg_after, hm.reg (by decide), reg_progErrNoted]
  · rw [Event, hdr_after]
    exact hm.ints _ _ (event_progErrNoted _ _ hb)
  · rw [after_flt]
    exact reportUnlisted_reports _ _
  · rw [after_flt]
    exact reportUnlisted_chip _ (by rw [hn]; exact hp) (by rw [hn]; exact hf)

end Sys2Proof.Machine
end

section
/-! Loads and stores of the step cores (O24), and operands that are wrong or busy (O25). -/

namespace Sys2Proof.Machine

open Sys2Proof.Safety

/-! ### Operands of the core store -/

theorem elemBytes_toNat (f : BitVec 2) : elemBytes f.toNat = if f = 0 then 4 else if f = 1 then 2 else 1 := by
  revert f
  decide

/-- An operand of a whole number of 64-byte lines is aligned to them. -/
theorem alignOf_lines (f : BitVec 2) : alignOf (64 * elemBytes f.toNat) = 64 := by
  revert f
  decide

theorem alignOf_bank (f : BitVec 2) : alignOf (2048 * elemBytes f.toNat) = 64 := by
  revert f
  decide

theorem withStore_range {c : Chip} {n a len : Nat} {w : Bool} {r : IRes} (h : storeSize < a + len) :
    withStore c n w a len r = .err 0x01 := by
  simp [withStore, operandErr, h]

theorem withStore_misaligned {c : Chip} {n a len : Nat} {w : Bool} {r : IRes} (h : a + len ≤ storeSize)
    (ha : a % alignOf len ≠ 0) : withStore c n w a len r = .err 0x0A := by
  simp [withStore, operandErr, Nat.not_lt.2 h, ha]

theorem withStore_busy {c : Chip} {n a len : Nat} {w : Bool} {r : IRes} (h : a + len ≤ storeSize)
    (ha : a % alignOf len = 0) (hb : pageBusy (if w then busyWrites c n else busyReads c n) a len = true) :
    withStore c n w a len r = .stall := by
  simp [withStore, operandErr, Nat.not_lt.2 h, ha, hb]

/-! ### Program errors and stalls of an instruction that issues -/

theorem programError_of_err {i : Instr} {s : State} {core : CoreId} {f : Chip → Core → IRes} {post : Chip → Chip}
    {e : Nat} (hi : exec i s = onCore s core f post) (h : Issues s.toChip core.toNat)
    (hf : f s.toChip (coreAt s.toChip core.toNat) = .err e) : ProgramError i s core e :=
  programError_of_exec (hi.trans (onCore_err s core f post e h hf))

theorem exec_of_stall {i : Instr} {s : State} {core : CoreId} {f : Chip → Core → IRes} {post : Chip → Chip}
    (hi : exec i s = onCore s core f post) (h : Issues s.toChip core.toNat)
    (hf : f s.toChip (coreAt s.toChip core.toNat) = .stall) : exec i s = .next (after s s.toChip) :=
  hi.trans (onCore_stall s core f post h hf)

/-- Settles O25: the range is looked at first, then the alignment, then the pages. -/
theorem operandErrorsAndStalls : Obligations.OperandErrorsAndStalls := by
  intro s core g a b imm h hg n x
  refine ⟨fun hx => ⟨?_, ?_⟩, fun hx => ⟨?_, ?_⟩, fun hx ha => ⟨?_, ?_⟩, fun hx ha => ⟨?_, ?_⟩, fun hx ha hb => ?_,
    fun hx ha hb => ?_⟩
  · exact programError_of_err rfl h ((scalarOp_on hg).trans (withStore_range hx))
  · exact programError_of_err rfl h ((scalarOp_on hg).trans (withStore_range hx))
  · exact programError_of_err rfl h (withStore_range hx)
  · exact programError_of_err rfl h (withStore_range hx)
  · exact programError_of_err rfl h ((scalarOp_on hg).trans (withStore_misaligned hx ha))
  · exact programError_of_err rfl h ((scalarOp_on hg).trans (withStore_misaligned hx ha))
  · exact programError_of_err rfl h (withStore_misaligned hx (by rw [alignOf_lines]; exact ha))
  · exact programError_of_err rfl h (withStore_misaligned hx (by rw [alignOf_lines]; exact ha))
  · exact exec_of_stall rfl h ((scalarOp_on hg).trans (withStore_busy hx ha hb))
  · exact exec_of_stall rfl h ((scalarOp_on hg).trans (withStore_busy hx ha hb))

/-! ### Loads -/

theorem advance_vset (k : Core) (a : Reg) (l : List Word) :
    advance (vset k a l) = { advance k with v := (vset k a l).v } := by
  rw [vset, advance_eq, advance_eq]

/-- An operation that gives V[A] lanes under a mask: the lanes that the register then holds say so. -/
theorem setsVector_next {i : Instr} {s : State} {core : CoreId} {m : BitVec 64} {a : Reg} {l l' : List Word}
    {f : Chip → Core → IRes} (hi : exec i s = onCore s core f id) (h : Issues s.toChip core.toNat)
    (hf : f s.toChip (coreAt s.toChip core.toNat) = .next (advance (vset (coreAt s.toChip core.toNat) a l')))
    (hl : ∀ j, j < 64 → l'.getD j 0 =
      if m.getLsbD j = true then l.getD j 0 else (vget (coreAt s.toChip core.toNat) a).getD j 0) :
    SetsVector i s core m a l := by
  obtain ⟨t, ht, honly, hk⟩ := coreBecomes_next hi h hf
  refine ⟨t, ht, honly, by rw [hk, advance_vset], fun r j hj => ?_⟩
  rw [hk, vget_advance, vget_vset]
  by_cases hr : r = a
  · rw [if_pos hr, hl j hj, hr]
    simp
  · rw [if_neg hr, if_neg (fun h => hr h.1)]

theorem getD_map_range {α : Type} (f : Nat → α) (d : α) {n j : Nat} (hj : j < n) :
    ((List.range n).map f).getD j d = f j := by
  rw [List.getD_eq_getElem?_getD, List.getElem?_map, List.getElem?_range hj]
  rfl

/-- A vector operation under its guard. -/
theorem setsVector_masked {i : Instr} {s : State} {core : CoreId} {g : Guard} {a : Reg} {l : List Word}
    {f : Chip → Core → IRes} (hi : exec i s = onCore s core f id) (h : Issues s.toChip core.toNat)
    (hf : f s.toChip (coreAt s.toChip core.toNat) = .next (advance (vsetMasked (coreAt s.toChip core.toNat) g a l))) :
    SetsVector i s core (guardMask (coreAt s.toChip core.toNat) g) a l :=
  setsVector_next hi h hf fun _ hj => getD_map_range _ _ hj

/-- A core that an operation leaves as given, where free values follow on the chip. -/
theorem coreBecomes_free {i : Instr} {s : State} {core : CoreId} {f : Chip → Core → IRes} {k : Core} {m : Nat}
    (hi : exec i s = onCore s core f (fun c => { c with free := c.free + m })) (h : Issues s.toChip core.toNat)
    (hf : f s.toChip (coreAt s.toChip core.toNat) = .next k) : CoreBecomes i s core k := by
  have hk : coreAt { setCore s.toChip core.toNat k with free := s.free + m } core.toNat = k :=
    coreAt_setCore s.toChip core.toNat k
  refine ⟨_, hi.trans (onCore_next s core f _ k h hf), ?_, hk⟩
  show after s { setCore s.toChip core.toNat k with free := s.free + m } =
    after s { setCore s.toChip core.toNat (coreAt { setCore s.toChip core.toNat k with free := s.free + m } core.toNat)
      with free := s.free + m }
  rw [hk]

/-- SIDX takes a free value whether it needs one or not. -/
theorem setsScalar_sidx {s : State} {core : CoreId} {g : Guard} {a : Reg} {depth : BitVec 2}
    (h : Issues s.toChip core.toNat) : SetsScalar (.sidx core g a depth) s core g a
      (loopIndex s.toChip (coreAt s.toChip core.toNat) depth.toNat) := by
  cases hg : lane0 s.toChip core.toNat g with
  | true =>
    obtain ⟨t, ht, honly, hk⟩ := coreBecomes_free (i := .sidx core g a depth) rfl h (scalarOp_on hg)
    refine ⟨t, ht, honly, by rw [hk, advance_sset], fun r => ?_⟩
    simp [hk, sget_sset, hg]
  | false =>
    obtain ⟨t, ht, honly, hk⟩ := coreBecomes_free (i := .sidx core g a depth) rfl h (scalarOp_off hg)
    refine ⟨t, ht, honly, by rw [hk], fun r => ?_⟩
    simp [hk, hg]

theorem loopIndex_some {c : Chip} {k : Core} {n : Nat} {l : LoopFrame} (h : k.loops.reverse[n]? = some l) :
    loopIndex c k n = w32 l.index := by
  rw [loopIndex, h]

/-! ### Stores -/

theorem length_leBytes (n v : Nat) : (leBytes n v).length = n := by
  induction n generalizing v with
  | zero => rfl
  | succ n ih => rw [leBytes, List.length_cons, ih]

/-- A core without its store. -/
def storeless (k : Core) : Core := { k with store := [] }

theorem eq_of_storeless {k k' : Core} (h : storeless k' = storeless k) : k' = { k with store := k'.store } := by
  have hk := congrArg (fun c : Core => { c with store := k'.store }) h
  exact hk

theorem advance_store (k : Core) (t : Tbl Byte) : advance { k with store := t } = { advance k with store := t } := by
  rw [advance_eq, advance_eq]

@[simp] theorem storeless_coreWrite (k : Core) (a : Nat) (l : List Byte) : storeless (coreWrite k a l) = storeless k := rfl

/-- An operation that leaves the core but for its store, by the bytes that the store then holds. -/
theorem storesBytes_next {i : Instr} {s : State} {core : CoreId} {b : Nat → Option Byte} {k' : Core}
    {f : Chip → Core → IRes} (hi : exec i s = onCore s core f id) (h : Issues s.toChip core.toNat)
    (hf : f s.toChip (coreAt s.toChip core.toNat) = .next (advance k'))
    (hk' : storeless k' = storeless (coreAt s.toChip core.toNat))
    (hb : ∀ x, coreByte k' x = (b x).getD (coreByte (coreAt s.toChip core.toNat) x)) : StoresBytes i s core b := by
  obtain ⟨t, ht, honly, hk⟩ := coreBecomes_next hi h hf
  refine ⟨t, ht, honly, ?_, fun x => by rw [hk, coreByte_advance, hb]⟩
  rw [hk, eq_of_storeless hk', advance_store]

/-- A store that lane 0 disables writes nothing. -/
theorem storesBytes_off {i : Instr} {s : State} {core : CoreId} {g : Guard} {b : Nat → Option Byte}
    {f : Chip → Core → IRes} (hi : exec i s = onCore s core (fun c => scalarOp g (f c)) id)
    (h : Issues s.toChip core.toNat) (hg : lane0 s.toChip core.toNat g = false) (hb : ∀ x, b x = none) :
    StoresBytes i s core b := by
  refine storesBytes_next hi h (scalarOp_off hg) rfl fun x => ?_
  rw [hb]
  rfl

/-- The bytes of a write, as an optional byte for each address. -/
theorem coreByte_write (k : Core) (a x : Nat) (l : List Byte) :
    coreByte (coreWrite k a l) x = (if a ≤ x ∧ x < a + l.length then l[x - a]? else none).getD (coreByte k x) := by
  rw [coreByte_coreWrite]
  split
  next h =>
    have hl : x - a < l.length := by omega
    simp [hl]
  · rfl

theorem length_flatMap_leBytes (size n : Nat) (f : Nat → Nat) :
    ((List.range n).flatMap (fun i => leBytes size (f i))).length = n * size := by
  simp [List.length_flatMap, length_leBytes]

/-- Elements of one size laid one after the other: the byte at a place is that of its element. -/
theorem getElem?_flatMap_leBytes {size : Nat} (hs : 0 < size) (f : Nat → Nat) {n j : Nat} (hj : j < n * size) :
    ((List.range n).flatMap (fun i => leBytes size (f i)))[j]? = (leBytes size (f (j / size)))[j % size]? := by
  induction n with
  | zero => omega
  | succ n ih =>
    rw [List.range_succ, List.flatMap_append]
    rw [Nat.succ_mul] at hj
    by_cases h : j < n * size
    · rw [List.getElem?_append_left (by rwa [length_flatMap_leBytes]), ih h]
    · have hq : j = size * n + (j - n * size) := by rw [Nat.mul_comm size n]; omega
      have hd : j / size = n := by
        rw [hq, Nat.mul_add_div hs, Nat.div_eq_of_lt (by omega), Nat.add_zero]
      have hm : j % size = j - n * size := by
        conv => lhs; rw [hq, Nat.mul_add_mod, Nat.mod_eq_of_lt (by omega)]
      rw [List.getElem?_append_right (by rw [length_flatMap_leBytes]; omega), length_flatMap_leBytes, hd, hm]
      simp

/-- A core store after a write of elements of one size. -/
theorem coreByte_writeElems (k : Core) (y : Nat) {size : Nat} (hs : 0 < size) (f : Nat → Nat) (n q : Nat) :
    coreByte (coreWrite k y ((List.range n).flatMap (fun i => leBytes size (f i)))) q =
      (if y ≤ q ∧ q < y + n * size then (leBytes size (f ((q - y) / size)))[(q - y) % size]? else none).getD
        (coreByte k q) := by
  rw [coreByte_write, length_flatMap_leBytes]
  by_cases hq : y ≤ q ∧ q < y + n * size
  · rw [if_pos hq, if_pos hq, getElem?_flatMap_leBytes hs f (by omega)]
  · rw [if_neg hq, if_neg hq]

/-- The lanes of a vector stored so far. -/
theorem coreByte_storedLanes (k : Core) (m : BitVec 64) (x : Nat) {size : Nat} (hs : 0 < size) (f : Nat → Nat) (n y : Nat) :
    coreByte ((List.range n).foldl (fun k i =>
      if m.getLsbD i then coreWrite k (x + i * size) (leBytes size (f i)) else k) k) y =
      (if x ≤ y ∧ y < x + n * size ∧ m.getLsbD ((y - x) / size) = true then
        (leBytes size (f ((y - x) / size)))[(y - x) % size]? else none).getD (coreByte k y) := by
  induction n with
  | zero => rw [if_neg (by omega)]; rfl
  | succ n ih =>
    rw [List.range_succ, List.foldl_append, List.foldl_cons, List.foldl_nil, Nat.succ_mul]
    by_cases hin : x + n * size ≤ y ∧ y < x + n * size + size
    · have hq : y - x = size * n + (y - (x + n * size)) := by rw [Nat.mul_comm size n]; omega
      have hd : (y - x) / size = n := by
        rw [hq, Nat.mul_add_div hs, Nat.div_eq_of_lt (by omega), Nat.add_zero]
      have hm : (y - x) % size = y - (x + n * size) := by
        conv => lhs; rw [hq, Nat.mul_add_mod, Nat.mod_eq_of_lt (by omega)]
      have hold : ¬ (x ≤ y ∧ y < x + n * size ∧ m.getLsbD ((y - x) / size) = true) := by omega
      rw [if_neg hold] at ih
      rw [hd, hm]
      cases hb : m.getLsbD n with
      | true =>
        rw [if_pos rfl, coreByte_write, length_leBytes, if_pos hin, if_pos ⟨by omega, by omega, rfl⟩, ih]
        rfl
      | false =>
        rw [if_neg (by decide), if_neg (by simp), ih]
    · have hk : coreByte (if m.getLsbD n = true then coreWrite ((List.range n).foldl (fun k i =>
          if m.getLsbD i = true then coreWrite k (x + i * size) (leBytes size (f i)) else k) k) (x + n * size)
            (leBytes size (f n)) else (List.range n).foldl (fun k i =>
          if m.getLsbD i = true then coreWrite k (x + i * size) (leBytes size (f i)) else k) k) y =
          coreByte ((List.range n).foldl (fun k i =>
          if m.getLsbD i = true then coreWrite k (x + i * size) (leBytes size (f i)) else k) k) y := by
        split
        · rw [coreByte_write, length_leBytes, if_neg hin]
          rfl
        · rfl
      rw [hk, ih]
      congr 1
      refine if_congr ?_ rfl rfl
      constructor
      · rintro ⟨h1, h2, h3⟩; exact ⟨h1, by omega, h3⟩
      · rintro ⟨h1, h2, h3⟩; exact ⟨h1, by omega, h3⟩

/-- VST changes the store of its core alone. -/
@[simp] theorem storeless_storeLanes (k : Core) (g : Guard) (a : Reg) (x fmt : Nat) :
    storeless (storeLanes k g a x fmt) = storeless k := by
  refine foldl_same storeless _ (fun k i => ?_) _ k
  split <;> rfl

theorem coreByte_storeLanes (k : Core) (g : Guard) (a : Reg) (x fmt y : Nat) (hs : 0 < elemBytes fmt) :
    coreByte (storeLanes k g a x fmt) y =
      (if x ≤ y ∧ y < x + 64 * elemBytes fmt ∧ (guardMask k g).getLsbD ((y - x) / elemBytes fmt) = true then
        (leBytes (elemBytes fmt) (narrow fmt ((vget k a).getD ((y - x) / elemBytes fmt) 0)))[(y - x) % elemBytes fmt]?
      else none).getD (coreByte k y) := by
  unfold storeLanes
  exact coreByte_storedLanes k _ x hs _ 64 y

/-- Settles O24: a load reads its element or elements, a store lays its bytes one after the other. -/
theorem loadsAndStores : Obligations.LoadsAndStores := by
  constructor
  · intro s core g a b imm fmt depth h n k x size
    refine ⟨fun ho => ?_, fun ho => ?_, fun l hl => ?_, fun hl => ⟨_, setsScalar_sidx h⟩, fun ho => ?_⟩
    · exact setsScalar_of rfl h fun hg => withStore_ok _ _ _ _ _ _ (ho hg)
    · exact setsScalar_of rfl h fun hg => withStore_ok _ _ _ _ _ _ (ho hg)
    · rw [← loopIndex_some hl]
      exact setsScalar_sidx h
    · have hs : size fmt = elemBytes fmt.toNat := (elemBytes_toNat fmt).symm
      rw [hs] at ho ⊢
      exact setsVector_masked rfl h (withStore_ok _ _ _ _ _ _ (by rw [alignOf_lines]; exact ho))
  · intro s core g a b imm fmt bank h n k x y size on
    have hs : size = elemBytes fmt.toNat := (elemBytes_toNat fmt).symm
    rw [hs]
    have hpos : 0 < elemBytes fmt.toNat := by unfold elemBytes; split_ifs <;> decide
    refine ⟨fun ho => ?_, fun ho => ?_, fun ho => ?_⟩
    · cases hg : on with
      | true =>
        refine storesBytes_next rfl h ((scalarOp_on hg).trans (withStore_ok _ _ _ _ _ _ (ho hg))) (storeless_coreWrite _ _ _)
          fun q => ?_
        refine (coreByte_write k x q _).trans ?_
        rw [length_leBytes]
        simp only [true_and]
        rfl
      | false => exact storesBytes_off rfl h hg fun q => by simp
    · exact storesBytes_next rfl h (withStore_ok _ _ _ _ _ _ (by rw [alignOf_lines]; exact ho))
        (storeless_storeLanes _ _ _ _ _) fun q => coreByte_storeLanes k g a x fmt.toNat q hpos
    · cases hg : on with
      | true =>
        refine storesBytes_next rfl h ((scalarOp_on hg).trans (withStore_ok _ _ _ _ _ _
          (by rw [alignOf_bank]; exact ho hg))) (storeless_coreWrite _ _ _) fun q => ?_
        simp only [true_and]
        exact coreByte_writeElems k y hpos _ 2048 q
      | false => exact storesBytes_off rfl h hg fun q => by simp

end Sys2Proof.Machine
end

section
/-! Vector operations (O26) and matrix operations (O27) of the step cores. -/

namespace Sys2Proof.Machine

open Sys2Proof.Safety

/-! ### Vector operations -/

theorem getLsbD_allLanes {j : Nat} (hj : j < 64) : (BitVec.allOnes 64).getLsbD j = true := by
  rw [BitVec.getLsbD_allOnes, decide_eq_true hj]

/-- An operation that reads a bank's column, or does nothing: every lane or none. -/
theorem setsVector_laneAll {i : Instr} {s : State} {core : CoreId} {g : Guard} {a : Reg} {l : List Word}
    {f : Chip → Core → IRes} (hi : exec i s = onCore s core (fun c => scalarOp g (f c)) id)
    (h : Issues s.toChip core.toNat)
    (hf : f s.toChip (coreAt s.toChip core.toNat) = .next (advance (vset (coreAt s.toChip core.toNat) a l))) :
    SetsVector i s core (laneAll s.toChip core.toNat g) a l := by
  unfold laneAll
  cases hg : lane0 s.toChip core.toNat g with
  | true => exact setsVector_next hi h ((scalarOp_on hg).trans hf) fun j hj =>
      (if_pos (getLsbD_allLanes hj)).symm
  | false =>
    obtain ⟨t, ht, honly, hk⟩ := coreBecomes_next hi h (scalarOp_off hg)
    exact ⟨t, ht, honly, by rw [hk], fun r j hj => by simp [hk]⟩

theorem getLsbD_oneBit (n : Nat) {j : Nat} (hj : j < 64) :
    ((1 <<< n : Nat) : BitVec 64).getLsbD j = decide (j = n) := by
  rw [BitVec.natCast_eq_ofNat, BitVec.getLsbD_ofNat, decide_eq_true hj, Bool.true_and, Nat.one_shiftLeft,
    Nat.testBit_two_pow]
  exact decide_eq_decide.2 eq_comm

/-- A word built bit by bit. -/
theorem getLsbD_foldl_setBit (p : Nat → Bool) (n j : Nat) (hj : j < 64) :
    ((List.range n).foldl (fun (w : BitVec 64) i => if p i then w ||| (1 <<< i) else w) 0).getLsbD j =
      (decide (j < n) && p j) := by
  induction n with
  | zero => exact BitVec.getLsbD_zero
  | succ n ih =>
    rw [List.range_succ, List.foldl_append, List.foldl_cons, List.foldl_nil]
    by_cases h : j = n
    · subst h
      rw [decide_eq_false (lt_irrefl j), Bool.false_and] at ih
      rw [decide_eq_true (Nat.lt_succ_self j), Bool.true_and]
      split
      next hp => rw [BitVec.getLsbD_or, getLsbD_oneBit _ hj, decide_eq_true rfl, Bool.or_true, hp]
      next hp => rw [ih, Bool.eq_false_iff.2 hp]
    · have hlt : decide (j < n + 1) = decide (j < n) := by simp only [decide_eq_decide]; omega
      rw [hlt, ← ih]
      split
      · rw [BitVec.getLsbD_or, getLsbD_oneBit _ hj, decide_eq_false h, Bool.or_false]
      · rfl

/-- Settles O26: each operation issues; the lanes that its guard enables take the result. -/
theorem vectorOperations : Obligations.VectorOperations := by
  intro s core g a b c p fmt scalar max lane col bank h k m va vb vc
  refine ⟨setsVector_masked rfl h rfl, setsVector_masked rfl h rfl, setsVector_masked rfl h rfl,
    setsVector_masked rfl h rfl, setsVector_masked rfl h rfl, setsVector_masked rfl h rfl,
    setsVector_masked rfl h rfl, setsVector_masked rfl h rfl, setsVector_masked rfl h rfl,
    setsVector_masked rfl h rfl, setsVector_masked rfl h rfl, setsVector_masked rfl h rfl, ?_,
    setsVector_laneAll rfl h rfl, fun w hw => ?_⟩
  · refine setsVector_next rfl h rfl fun j hj => ?_
    rw [if_pos (getLsbD_allLanes hj), getD_map_range _ _ hj]
  · refine setsPredicate_next rfl h rfl ?_
    congr 2
    apply BitVec.eq_of_getLsbD_eq
    intro i hi
    rw [getLsbD_foldl_setBit _ _ _ hi, hw i hi, decide_eq_true hi, Bool.true_and]

/-! ### Accumulator banks -/

theorem tget_puts {α : Type} [DecidableEq α] (d : α) (l : List α) (t : Tbl α) (a x : Nat) :
    tget d ((numbered l).foldl (fun t e => tset d t (a + e.1) e.2) t) x =
      if a ≤ x ∧ x < a + l.length then l.getD (x - a) d else tget d t x := by
  induction l generalizing t a with
  | nil => simp [numbered]
  | cons b r ih =>
    rw [numbered_cons, List.foldl_cons, List.foldl_map]
    have hs : (fun (t : Tbl α) (e : Nat × α) => tset d t (a + (e.1 + 1)) e.2) =
        fun t e => tset d t (a + 1 + e.1) e.2 := by
      funext t e; congr 1; omega
    rw [hs, ih, tget_tset]
    simp only [List.length_cons, Nat.add_zero]
    by_cases h1 : x = a
    · subst h1
      simp
    · by_cases h2 : a + 1 ≤ x ∧ x < a + 1 + r.length
      · have h3 : x - a = (x - (a + 1)) + 1 := by omega
        rw [if_pos h2, if_pos (by omega), h3]
        simp
      · rw [if_neg h2, if_neg h1, if_neg (by omega)]

/-- The elements of a bank after it is replaced. -/
theorem bankGet_bankSet (k : Core) (bank kind j : Nat) (l : List Word) (hl : l.length = 2048) (hj : j < 2048) :
    bankGet (bankSet k bank kind l) bank j = l.getD j 0 := by
  simp only [bankGet, bankSet, tget_puts, hl]
  rw [if_pos (by omega)]
  congr 1
  omega

theorem bankGet_bankSet_other (k : Core) (bank kind j b : Nat) (l : List Word) (hl : l.length = 2048) (hj : j < 2048)
    (hb : b ≠ bank) : bankGet (bankSet k bank kind l) b j = bankGet k b j := by
  simp only [bankGet, bankSet, tget_puts, hl]
  rw [if_neg (by omega)]

theorem bankGet_advance (k : Core) (b j : Nat) : bankGet (advance k) b j = bankGet k b j := by
  rw [bankGet, bankGet, advance_eq]

theorem advance_bank (k : Core) (t : Tbl Word) (u : Tbl Nat) :
    advance { k with acc := t, accKind := u } = { advance k with acc := t, accKind := u } := by
  rw [advance_eq, advance_eq]

theorem accKind_advance (k : Core) : (advance k).accKind = k.accKind := by rw [advance_eq]

/-- An operation that leaves its core with a bank replaced. -/
theorem setsBank_of_becomes {i : Instr} {s : State} {core : CoreId} {bank kind : Nat} {l : List Word} (hb : bank ≤ 1)
    (hl : l.length = 2048) (h : CoreBecomes i s core (advance (bankSet (coreAt s.toChip core.toNat) bank kind l))) :
    SetsBank i s core bank kind l := by
  obtain ⟨t, ht, honly, hk⟩ := h
  refine ⟨t, ht, honly, ?_, fun j hj => ⟨?_, ?_⟩, ?_, ?_⟩
  · rw [hk, bankSet, advance_bank]
  · rw [hk, bankGet_advance, bankGet_bankSet _ _ _ _ _ hl hj]
  · rw [hk, bankGet_advance, bankGet_bankSet_other _ _ _ _ _ _ hl hj (by omega)]
  · rw [hk, accKind_advance, bankSet, tget_tset, if_pos rfl]
  · rw [hk, accKind_advance, bankSet, tget_tset, if_neg (by omega)]

/-! ### MMA -/

theorem four_iff (f : BitVec 4) : four f.toNat = true ↔ f = 2 ∨ f = 5 := by
  revert f
  decide

theorem isInt_iff (f : BitVec 4) : isInt f.toNat = true ↔ f = 4 ∨ f = 5 := by
  revert f
  decide

theorem b2n_le (b : Bool) : b2n b ≤ 1 := by
  cases b <;> decide

theorem length_mmaBank (k : Core) (bank fa fb x y kk d : Nat) : (mmaBank k bank fa fb x y kk d).length = 2048 := by
  simp [mmaBank]

theorem length_freeBank (c : Chip) : (freeBank c).length = 2048 := by
  simp [freeBank]

/-- The distance of the A slices: 0 stands for 64. -/
theorem mmaDist_eq (dist : BitVec 16) : (if dist.toNat = 0 then 64 else dist.toNat) = if dist = 0 then 64 else dist.toNat := by
  simp only [← BitVec.toNat_inj]
  rfl

/-- Settles O27: the errors come first, then the scoreboard; the bank is replaced whole. -/
theorem matrixOperations : Obligations.MatrixOperations := by
  intro s core g a b c fa fb bank dist h hg n k kk d x y la lb kind
  have hkind : (if isInt fa.toNat then 2 else 1) = kind := if_congr (isInt_iff fa) rfl rfl
  have hstep : mmaStep s.toChip n a b c fa.toNat fb.toNat (b2n bank) dist.toNat k =
      match operandErr x la, operandErr y lb with
      | some e, _ => .err e
      | none, some e => .err e
      | none, none =>
        if (fa = 2 ∨ fa = 5) ∧ d % 64 ≠ 0 then .err 0x0A
        else if pageBusy (busyReads s.toChip n) x la ∨ pageBusy (busyReads s.toChip n) y lb then .stall
        else .next (advance (bankSet k (b2n bank) kind
          (if mmaStated k (b2n bank) fa.toNat fb.toNat kk then mmaBank k (b2n bank) fa.toNat fb.toNat x y kk d
            else freeBank s.toChip))) := by
    simp only [mmaStep, mmaDist_eq, four_iff, hkind]
    rfl
  have hok : operandErr x la = none → operandErr y lb = none → (fa = 2 ∨ fa = 5 → d % 64 = 0) →
      pageBusy (busyReads s.toChip n) x la = false → pageBusy (busyReads s.toChip n) y lb = false →
      CoreBecomes (.mma core g a b c fa fb bank dist) s core (advance (bankSet k (b2n bank) kind
        (if mmaStated k (b2n bank) fa.toNat fb.toNat kk then mmaBank k (b2n bank) fa.toNat fb.toNat x y kk d
          else freeBank s.toChip))) := by
    intro hx hy hd hbx hby
    refine coreBecomes_free rfl h ((scalarOp_on hg).trans (hstep.trans ?_))
    simp only [hx, hy, hbx, hby, Bool.false_eq_true, or_self, if_false]
    rw [if_neg (fun hf => hf.2 (hd hf.1))]
  refine ⟨?_, fun hx hy hd hbx hby => ⟨fun hst => ?_, fun hst => ⟨freeBank s.toChip, ?_⟩⟩, fun e he => ?_,
    fun hx hy hf hd => ?_⟩
  · exact setsBank_of_becomes (b2n_le bank) List.length_replicate (coreBecomes_next rfl h (scalarOp_on hg))
  · have hb := hok hx hy hd hbx hby
    rw [if_pos hst] at hb
    exact setsBank_of_becomes (b2n_le bank) (length_mmaBank _ _ _ _ _ _ _ _) hb
  · have hb := hok hx hy hd hbx hby
    rw [if_neg (by rw [hst]; exact Bool.false_ne_true)] at hb
    exact setsBank_of_becomes (b2n_le bank) (length_freeBank _) hb
  · refine programError_of_err rfl h ((scalarOp_on hg).trans (hstep.trans ?_))
    rcases he with hx | ⟨hx, hy⟩
    · simp only [hx]
    · simp only [hx, hy]
  · refine programError_of_err rfl h ((scalarOp_on hg).trans (hstep.trans ?_))
    simp only [hx, hy]
    rw [if_pos ⟨hf, hd⟩]

end Sys2Proof.Machine
end

section
/-! Messages and copy plans of the step cores (O28). -/

namespace Sys2Proof.Machine

open Sys2Proof.Safety

/-! ### Commands of the fast domain -/

/-- A command of the fast domain that has its effect. -/
theorem act_whenAwake {s : State} {f : Chip → Chip} (h : Awake s.toChip) :
    act s (fun c => whenAwake c f) = .next (after s (f s.toChip)) := by
  obtain ⟨h1, h2, h3⟩ := h
  simp [act, whenAwake, fastRuns, h1, h2, h3, after]

theorem issue_next {c : Chip} {n : Nat} {f : Core → IRes} {post : Chip → Chip} {k : Core}
    (h : canIssue c (coreAt c n) = true) (hf : f (coreAt c n) = .next k) : issue c n f post = post (setCore c n k) := by
  simp only [issue, h, hf, if_true]

theorem issue_err {c : Chip} {n e : Nat} {f : Core → IRes} {post : Chip → Chip}
    (h : canIssue c (coreAt c n) = true) (hf : f (coreAt c n) = .err e) : issue c n f post = progError c n e := by
  simp only [issue, h, hf, if_true]

/-! ### What a core that waits for nothing, or has nothing queued, does -/

theorem wakeCore_of_none {c : Chip} {n : Nat} (h : (coreAt c n).wait = none) : wakeCore c n = c := by
  simp only [wakeCore, h]

theorem readySend_nil {k : Core} (h : k.sendQ = []) : readySend k = none := by
  rw [readySend, h]
  rfl

theorem pumpSends_idle {c : Chip} {n f : Nat} (h : (coreAt c n).sendQ = []) : pumpSends f c n = c := by
  cases f with
  | zero => rfl
  | succ f => simp only [pumpSends, readySend_nil h]

theorem pumpCore_idle {c : Chip} {n : Nat} (hq : (coreAt c n).sendQ = []) (hw : (coreAt c n).wait = none) :
    pumpCore c n = c := by
  rw [pumpCore, pumpSends_idle hq, wakeCore_of_none hw]

theorem wait_advance (k : Core) : (advance k).wait = k.wait := by rw [advance_eq]
theorem sendQ_advance (k : Core) : (advance k).sendQ = k.sendQ := by rw [advance_eq]
theorem credits_advance (k : Core) : (advance k).credits = k.credits := by rw [advance_eq]

theorem coreRead_congr {k k' : Core} (h : ∀ x, coreByte k x = coreByte k' x) (a n : Nat) :
    coreRead k a n = coreRead k' a n := by
  simp only [coreRead, h]

/-! ### RECV and SEND -/

/-- The buffer that RECV posts. -/
def recvBuffer (k : Core) (a b c : Reg) : Post :=
  { addr := (sget k a).toNat, len := (sget k b).toNat, src := (sget k c).toNat, arrived := none }

/-- What RECV does to its own core: the buffer is posted. -/
def recvPost (k : Core) (a b c : Reg) (n : Nat) : Core :=
  advance { k with posts := tins k.posts n (recvBuffer k a b c) }

/-- The message of a posted buffer has not come. -/
theorem awaited_iff (o : Option Post) :
    (o.map (fun p => p.arrived.isNone)).getD false = true ↔ o.map (fun p => p.arrived) = some none := by
  cases o <;> simp

section
variable {s : State} {core : CoreId} {g : Guard} {a b c : Reg} {tag : BitVec 4}

/-- RECV of a buffer that may be posted. -/
theorem exec_recv (h : Issues s.toChip core.toNat) (hg : lane0 s.toChip core.toNat g = true)
    (ho : operandErr (sget (coreAt s.toChip core.toNat) a).toNat (sget (coreAt s.toChip core.toNat) b).toNat = none)
    (hp : (tfind (coreAt s.toChip core.toNat).posts tag.toNat).map (fun p => p.arrived) ≠ some none) :
    exec (.recv core g a b c tag) s = .next (after s (giveCredit
      (setCore s.toChip core.toNat (recvPost (coreAt s.toChip core.toNat) a b c tag.toNat))
      (sget (coreAt s.toChip core.toNat) c).toNat core.toNat tag.toNat)) := by
  refine (act_whenAwake h.1).trans ?_
  dsimp only
  rw [issue_next h.2 (k := recvPost (coreAt s.toChip core.toNat) a b c tag.toNat)]
  · rw [if_pos (show (guardMask _ g).getLsbD 0 = true from hg)]
  refine (scalarOp_on hg).trans ?_
  simp only [ho]
  rw [if_neg]
  · rfl
  · rwa [awaited_iff]


/-- RECV of a tag whose message has not come. -/
theorem exec_recv_twice (h : Issues s.toChip core.toNat) (hg : lane0 s.toChip core.toNat g = true)
    (ho : operandErr (sget (coreAt s.toChip core.toNat) a).toNat (sget (coreAt s.toChip core.toNat) b).toNat = none)
    (hp : (tfind (coreAt s.toChip core.toNat).posts tag.toNat).map (fun p => p.arrived) = some none) :
    exec (.recv core g a b c tag) s = .next (after s (progError s.toChip core.toNat 0x03)) := by
  refine (act_whenAwake h.1).trans ?_
  dsimp only
  rw [issue_err h.2]
  refine (scalarOp_on hg).trans ?_
  simp only [ho]
  rw [if_pos ((awaited_iff _).2 hp)]

theorem giveCredit_far {d : Chip} {x n m : Nat} (h : 256 ≤ x) : giveCredit d x n m = d := if_pos h

/-- A source with nothing queued keeps its credit. -/
theorem giveCredit_idle {d : Chip} {x n m : Nat} (hx : x < 256) (hq : (coreAt d x).sendQ = [])
    (hw : (coreAt d x).wait = none) :
    giveCredit d x n m = setCore d x { coreAt d x with credits := (coreAt d x).credits ++ [(n, m)] } := by
  rw [giveCredit, if_neg (by omega), pumpCore_idle (by rw [coreAt_setCore]; exact hq) (by rw [coreAt_setCore]; exact hw)]

/-- The message that SEND queues. -/
def sendMsgOf (k : Core) (a b c : Reg) (n : Nat) : SendMsg :=
  { dst := (sget k a).toNat, tag := n, addr := (sget k b).toNat, len := (sget k c).toNat }

/-- SEND of a message whose operand is in order, with nothing queued before it. -/
theorem exec_send (h : Issues s.toChip core.toNat) (hg : lane0 s.toChip core.toNat g = true)
    (hm : inGroup (coreAt s.toChip core.toNat) (sget (coreAt s.toChip core.toNat) a).toNat = true)
    (hq : (coreAt s.toChip core.toNat).sendQ = [])
    (ho : operandErr (sget (coreAt s.toChip core.toNat) b).toNat (sget (coreAt s.toChip core.toNat) c).toNat = none)
    (hb : pageBusy (busyReads s.toChip core.toNat) (sget (coreAt s.toChip core.toNat) b).toNat
      (sget (coreAt s.toChip core.toNat) c).toNat = false) :
    exec (.send core g a b c tag) s = .next (after s (pumpCore (setCore s.toChip core.toNat
      (advance { coreAt s.toChip core.toNat with
        sendQ := [sendMsgOf (coreAt s.toChip core.toNat) a b c tag.toNat] })) core.toNat)) := by
  refine onCore_next s core _ _ _ h ((scalarOp_on hg).trans ?_)
  dsimp only
  rw [if_neg (by rw [hm]; decide), if_neg (by rw [hq]; decide)]
  simp only [withStore, ho, Bool.false_eq_true, if_false, hb, hq]
  rfl

/-- The first message of a queue streams exactly where its credit is held. -/
theorem readySend_one {k : Core} {m : SendMsg} (hq : k.sendQ = [m]) :
    readySend k = if (m.dst, m.tag) ∈ k.credits then some m else none := by
  simp [readySend, hq, numbered]

/-- A message that has no credit stays queued. -/
theorem pumpCore_waits {d : Chip} {n : Nat} {m : SendMsg} (hq : (coreAt d n).sendQ = [m]) (hw : (coreAt d n).wait = none)
    (hc : (m.dst, m.tag) ∉ (coreAt d n).credits) : pumpCore d n = d := by
  have hp : pumpSends 8 d n = d := by simp only [pumpSends, readySend_one hq, if_neg hc]
  rw [pumpCore, hp, wakeCore_of_none hw]

/-- A message that has its credit leaves for another core. -/
theorem pumpCore_streams {d : Chip} {n : Nat} {m : SendMsg} (hq : (coreAt d n).sendQ = [m])
    (hw : (coreAt d n).wait = none) (hc : (m.dst, m.tag) ∈ (coreAt d n).credits) (hn : m.dst ≠ n) :
    pumpCore d n = setCore d n { coreAt d n with
      sendQ := []
      credits := (coreAt d n).credits.erase (m.dst, m.tag)
      inFlight := (coreAt d n).inFlight ++ [(m, coreRead (coreAt d n) m.addr m.len)] } := by
  have hp : pumpSends 8 d n = setCore d n { coreAt d n with
      sendQ := []
      credits := (coreAt d n).credits.erase (m.dst, m.tag)
      inFlight := (coreAt d n).inFlight ++ [(m, coreRead (coreAt d n) m.addr m.len)] } := by
    rw [pumpSends]
    simp only [readySend_one hq, if_pos hc, if_neg hn]
    rw [pumpSends_idle (by rw [coreAt_setCore]; simp [hq, dropFirst])]
    simp [hq, dropFirst]
  rw [pumpCore, hp, wakeCore_of_none (by rw [coreAt_setCore]; exact hw)]

/-- RECV from a source with nothing queued: the buffer and the credit. -/
theorem completes_recv (h : Issues s.toChip core.toNat) (hg : lane0 s.toChip core.toNat g = true)
    (ho : operandErr (sget (coreAt s.toChip core.toNat) a).toNat (sget (coreAt s.toChip core.toNat) b).toNat = none)
    (hp : (tfind (coreAt s.toChip core.toNat).posts tag.toNat).map (fun p => p.arrived) ≠ some none)
    {x : Nat} (hx : (sget (coreAt s.toChip core.toNat) c).toNat = x) (hlt : x < 256) (hne : x ≠ core.toNat)
    (hq : (coreAt s.toChip x).sendQ = []) (hw : (coreAt s.toChip x).wait = none) :
    Completes (.recv core g a b c tag) s (fun t =>
      coreAt t.toChip core.toNat = recvPost (coreAt s.toChip core.toNat) a b c tag.toNat ∧
      coreAt t.toChip x = { coreAt s.toChip x with credits := (coreAt s.toChip x).credits ++ [(core.toNat, tag.toNat)] } ∧
      ∀ m, m ≠ core.toNat → m ≠ x → coreAt t.toChip m = coreAt s.toChip m) := by
  have hso := coreAt_setCore_other s.toChip core.toNat x (recvPost (coreAt s.toChip core.toNat) a b c tag.toNat) hne
  have he := exec_recv (c := c) h hg ho hp
  rw [hx, giveCredit_idle hlt (by rw [hso]; exact hq) (by rw [hso]; exact hw)] at he
  refine ⟨_, he, after_pending _ _, ?_, ?_, fun m hn hm => ?_⟩
  · rw [coreAt_after, coreAt_setCore_other _ _ _ _ (Ne.symm hne), coreAt_setCore]
  · rw [coreAt_after, coreAt_setCore, hso]
  · rw [coreAt_after, coreAt_setCore_other _ _ _ _ hm, coreAt_setCore_other _ _ _ _ hn]

theorem advance_sent (k : Core) (q : List SendMsg) (cr : List (Nat × Nat)) (fl : List (SendMsg × List Byte)) :
    advance { k with sendQ := q, credits := cr, inFlight := fl } =
      { advance k with sendQ := q, credits := cr, inFlight := fl } := by
  rw [advance_eq, advance_eq]

/-- A message that SEND queues where its credit is held streams at once. -/
theorem streamed_eq {k : Core} {m : SendMsg} (hq : k.sendQ = []) :
    { advance { k with sendQ := [m] } with
      sendQ := []
      credits := k.credits.erase (m.dst, m.tag)
      inFlight := k.inFlight ++ [(m, coreRead (advance { k with sendQ := [m] }) m.addr m.len)] } =
    advance { k with
      inFlight := k.inFlight ++ [(m, coreRead k m.addr m.len)]
      credits := k.credits.erase (m.dst, m.tag) } := by
  have hr : coreRead (advance { k with sendQ := [m] }) m.addr m.len = coreRead k m.addr m.len :=
    coreRead_congr (fun x => by rw [coreByte_advance]; rfl) _ _
  rw [hr, ← advance_sent]
  simp [hq]

theorem inFlight_advance (k : Core) : (advance k).inFlight = k.inFlight := by rw [advance_eq]

/-- SEND where the credit is held. -/
theorem exec_send_streams (h : Issues s.toChip core.toNat) (hg : lane0 s.toChip core.toNat g = true)
    (hm : inGroup (coreAt s.toChip core.toNat) (sget (coreAt s.toChip core.toNat) a).toNat = true)
    (hq : (coreAt s.toChip core.toNat).sendQ = [])
    (ho : operandErr (sget (coreAt s.toChip core.toNat) b).toNat (sget (coreAt s.toChip core.toNat) c).toNat = none)
    (hb : pageBusy (busyReads s.toChip core.toNat) (sget (coreAt s.toChip core.toNat) b).toNat
      (sget (coreAt s.toChip core.toNat) c).toNat = false) {m : SendMsg}
    (hmsg : sendMsgOf (coreAt s.toChip core.toNat) a b c tag.toNat = m)
    (hc : (m.dst, m.tag) ∈ (coreAt s.toChip core.toNat).credits) (hn : m.dst ≠ core.toNat) :
    exec (.send core g a b c tag) s = .next (after s (setCore s.toChip core.toNat
      (advance { coreAt s.toChip core.toNat with
        inFlight := (coreAt s.toChip core.toNat).inFlight ++ [(m, coreRead (coreAt s.toChip core.toNat) m.addr m.len)]
        credits := (coreAt s.toChip core.toNat).credits.erase (m.dst, m.tag) }))) := by
  have hne : advance { coreAt s.toChip core.toNat with sendQ := [m] } ≠ coreReset := fun he => by
    have := congrArg (·.sendQ) he
    rw [sendQ_advance] at this
    exact nomatch this
  rw [exec_send h hg hm hq ho hb, hmsg,
    pumpCore_streams (by rw [coreAt_setCore, sendQ_advance]) (by rw [coreAt_setCore, wait_advance]; exact wait_of_issues h)
      (by rw [coreAt_setCore, credits_advance]; exact hc) hn, coreAt_setCore, setCore_setCore _ _ _ _ hne, credits_advance,
    inFlight_advance]
  rw [streamed_eq hq]

/-- SEND where it is not. -/
theorem exec_send_waits (h : Issues s.toChip core.toNat) (hg : lane0 s.toChip core.toNat g = true)
    (hm : inGroup (coreAt s.toChip core.toNat) (sget (coreAt s.toChip core.toNat) a).toNat = true)
    (hq : (coreAt s.toChip core.toNat).sendQ = [])
    (ho : operandErr (sget (coreAt s.toChip core.toNat) b).toNat (sget (coreAt s.toChip core.toNat) c).toNat = none)
    (hb : pageBusy (busyReads s.toChip core.toNat) (sget (coreAt s.toChip core.toNat) b).toNat
      (sget (coreAt s.toChip core.toNat) c).toNat = false) {m : SendMsg}
    (hmsg : sendMsgOf (coreAt s.toChip core.toNat) a b c tag.toNat = m)
    (hc : (m.dst, m.tag) ∉ (coreAt s.toChip core.toNat).credits) :
    exec (.send core g a b c tag) s = .next (after s (setCore s.toChip core.toNat
      (advance { coreAt s.toChip core.toNat with sendQ := [m] }))) := by
  rw [exec_send h hg hm hq ho hb, hmsg,
    pumpCore_waits (by rw [coreAt_setCore, sendQ_advance]) (by rw [coreAt_setCore, wait_advance]; exact wait_of_issues h)
      (by rw [coreAt_setCore, credits_advance]; exact hc)]

/-! ### Waits for messages and plans -/

theorem tag_of_toNat (a : Reg) : BitVec.ofNat 5 a.toNat = a := by simp

/-- RWAIT with its message there goes on at once. -/
theorem exec_rwait_arrived {l : Nat} (h : Issues s.toChip core.toNat) (hg : lane0 s.toChip core.toNat g = true)
    (hl : (tfind (coreAt s.toChip core.toNat).posts tag.toNat).bind (·.arrived) = some l) :
    exec (.rwait core g a tag) s =
      .next (after s (setCore s.toChip core.toNat (advance (sset (coreAt s.toChip core.toNat) a (w32 l))))) := by
  refine (onCore_next s core _ _ _ h (scalarOp_on hg)).trans ?_
  congr 2
  simp only [wakeCore, coreAt_setCore, hl, tag_of_toNat]
  rw [setCore_setCore _ _ _ _ (ne_coreReset_of_wait rfl), wait_none_self (wait_of_issues h)]

/-- RWAIT without it waits. -/
theorem exec_rwait_waits (h : Issues s.toChip core.toNat) (hg : lane0 s.toChip core.toNat g = true)
    (hl : (tfind (coreAt s.toChip core.toNat).posts tag.toNat).bind (·.arrived) = none) :
    exec (.rwait core g a tag) s = .next (after s (setCore s.toChip core.toNat
      { coreAt s.toChip core.toNat with wait := some (.message tag.toNat a.toNat) })) := by
  refine (onCore_next s core _ _ _ h (scalarOp_on hg)).trans ?_
  congr 2
  simp only [wakeCore, coreAt_setCore, hl]

/-- CWAIT with no such plan running goes on at once. -/
theorem exec_cwait_idle {plan : BitVec 2} (h : Issues s.toChip core.toNat) (hg : lane0 s.toChip core.toNat g = true)
    (hl : tfind (coreAt s.toChip core.toNat).plans plan.toNat = none) :
    exec (.cwait core g plan) s =
      .next (after s (setCore s.toChip core.toNat (advance (coreAt s.toChip core.toNat)))) := by
  refine (onCore_next s core _ _ _ h (scalarOp_on hg)).trans ?_
  congr 2
  simp only [wakeCore, coreAt_setCore, hl, Option.isNone_none, if_true]
  rw [setCore_setCore _ _ _ _ (ne_coreReset_of_wait rfl), wait_none_self (wait_of_issues h)]

/-- CWAIT of a plan that runs waits. -/
theorem exec_cwait_waits {plan : BitVec 2} (h : Issues s.toChip core.toNat) (hg : lane0 s.toChip core.toNat g = true)
    (hl : (tfind (coreAt s.toChip core.toNat).plans plan.toNat).isSome = true) :
    exec (.cwait core g plan) s = .next (after s (setCore s.toChip core.toNat
      { coreAt s.toChip core.toNat with wait := some (.plan plan.toNat) })) := by
  refine (onCore_next s core _ _ _ h (scalarOp_on hg)).trans ?_
  congr 2
  have hn : (tfind (coreAt s.toChip core.toNat).plans plan.toNat).isNone = false := by
    rw [Option.isNone_eq_false_iff]; exact hl
  simp only [wakeCore, coreAt_setCore, hn, Bool.false_eq_true, if_false]

/-- CPLAN of a plan in order starts it. -/
theorem coreBecomes_cplan {plan : BitVec 2} {ds : List Desc} (h : Issues s.toChip core.toNat)
    (hg : lane0 s.toChip core.toNat g = true) (hp : tfind (coreAt s.toChip core.toNat).plans plan.toNat = none)
    (h0 : 0 < (sget (coreAt s.toChip core.toNat) b).toNat) (h1 : (sget (coreAt s.toChip core.toNat) b).toNat ≤ 4096)
    (ho : operandErr (sget (coreAt s.toChip core.toNat) a).toNat (32 * (sget (coreAt s.toChip core.toNat) b).toNat) = none)
    (hb : pageBusy (busyReads s.toChip core.toNat) (sget (coreAt s.toChip core.toNat) a).toNat
      (32 * (sget (coreAt s.toChip core.toNat) b).toNat) = false)
    (hds : descsCheck s.toChip core.toNat (coreAt s.toChip core.toNat) (chunksOf
      (sget (coreAt s.toChip core.toNat) b).toNat 32 (coreRead (coreAt s.toChip core.toNat) (sget (coreAt s.toChip core.toNat) a).toNat
        (32 * (sget (coreAt s.toChip core.toNat) b).toNat))) = .ok ds) :
    CoreBecomes (.cplan core g a b plan) s core
      (advance { coreAt s.toChip core.toNat with plans := tins (coreAt s.toChip core.toNat).plans plan.toNat ds }) := by
  refine coreBecomes_next rfl h ((scalarOp_on hg).trans ?_)
  dsimp only
  rw [if_neg (by rw [hp]; decide), if_neg (by omega)]
  simp only [withStore, ho, Bool.false_eq_true, if_false, hb, hds]

end

/-! ### Arrivals -/

@[simp] theorem coreAt_bump (c : Chip) (a n m : Nat) : coreAt (bump c a n) m = coreAt c m := by
  unfold bump bumpB
  split <;> rfl

/-- A message that fits its buffer arrives whole. -/
theorem deliver_fits {c : Chip} {n tag : Nat} {data : List Byte} {p : Post} (hp : tfind (coreAt c n).posts tag = some p)
    (hl : data.length ≤ p.len) (hw : (coreAt c n).wait = none) :
    deliver c n tag data = setCore c n { coreWrite (coreAt c n) p.addr data with
      posts := tins (coreAt c n).posts tag { p with arrived := some data.length } } := by
  simp only [deliver, hp, if_neg (Nat.not_lt.2 hl)]
  exact wakeCore_of_none (by rw [coreAt_setCore]; exact hw)

theorem coreRead_write (k : Core) (a : Nat) (l : List Byte) : coreRead (coreWrite k a l) a l.length = l := by
  refine List.ext_getElem (by simp [coreRead]) fun i h1 h2 => ?_
  simp [coreRead, coreByte_coreWrite, h2]

/-- The chip before a message is delivered: a free count of link replays, and the message out of its source. -/
def leaving (c : Chip) (n : Nat) (e : SendMsg × List Byte) : Chip :=
  setCore (bump (takeFree c).2 aGRID_MESH_RETRY (takeFree c).1) n
    { coreAt c n with inFlight := dropFirst (fun x => decide (x = e)) (coreAt c n).inFlight }

/-- A message that arrives where its buffer is posted. -/
theorem exec_messageArrival {s : State} {src dst : CoreId} {m : SendMsg} {data : List Byte} {tag : BitVec 4}
    (h : Awake s.toChip) (hg : isUp s.toChip .grid = true)
    (hf : (coreAt s.toChip src.toNat).inFlight.find? (fun e => e.1.dst = dst.toNat) = some (m, data))
    (ht : m.tag = tag.toNat) :
    exec (.messageArrival src dst tag) s = .next (after s (pumpCore
      (deliver (leaving s.toChip src.toNat (m, data)) dst.toNat tag.toNat data) src.toNat)) := by
  refine (act_whenAwake h).trans ?_
  congr 2
  simp only [messageArrival, hf]
  rw [if_neg (by rw [hg, ht]; simp)]
  rfl

/-! ### Copy plans -/

/-- The end of a plan of one descriptor. -/
theorem exec_copyPlanDone {s : State} {core : CoreId} {plan : BitVec 2} {d : Desc} (h : Awake s.toChip)
    (hg : isUp s.toChip .grid = true) (hd : tfind (coreAt s.toChip core.toNat).plans plan.toNat = some [d]) :
    exec (.copyPlanDone core plan [] 0) s = .next (after s (
      let c := copyOne (bump s.toChip aGRID_MESH_RETRY 0) core.toNat d .clean
      wakeCore (setCore c core.toNat { coreAt c core.toNat with
        plans := tdel (coreAt c core.toNat).plans plan.toNat }) core.toNat)) := by
  refine (act_whenAwake h).trans ?_
  simp only [hg, if_true, copyPlanDone, hd]
  rfl

/-- The rows of a descriptor of one row. -/
theorem oneRow {α : Type} (f : Nat → List α) {n : Nat} (h : n = 1) : (List.range n).flatMap f = f 0 := by
  subst h
  simp [List.range_succ]

theorem length_memRead (m : List Host.Cell) (a n : Nat) : (memRead m a n).length = n := by simp [memRead]
theorem length_coreRead (k : Core) (a n : Nat) : (coreRead k a n).length = n := by simp [coreRead]

/-- A finished plan of one LOAD has copied bytes of GDDR7 to the core store. -/
theorem copyOne_load {c : Chip} {n : Nat} {d : Desc} (hk : d.kind = 1) (hr : d.rows = 1) :
    copyOne c n d .clean = setCore c n (coreWrite (coreAt c n) d.dst (memRead c.mem d.src d.len)) := by
  simp only [copyOne, hk, if_true, copyLoad, readBurst, burstLost, oneRow _ hr]
  simp

/-- A finished plan of one STORE has copied bytes of the core store to GDDR7. -/
theorem copyOne_store {c : Chip} {n : Nat} {d : Desc} (hk : d.kind = 2) (hr : d.rows = 1) :
    copyOne c n d .clean = putMem c d.dst (coreRead (coreAt c n) d.src d.len) := by
  simp only [copyOne, hk, oneRow _ hr]
  simp

theorem coreAt_leaving_other {c : Chip} {n m : Nat} {e : SendMsg × List Byte} (h : m ≠ n) :
    coreAt (leaving c n e) m = coreAt c m := by
  rw [leaving, coreAt_setCore_other _ _ _ _ h, coreAt_bump]
  rfl

theorem coreAt_leaving (c : Chip) (n : Nat) (e : SendMsg × List Byte) : coreAt (leaving c n e) n =
    { coreAt c n with inFlight := dropFirst (fun x => decide (x = e)) (coreAt c n).inFlight } := by
  rw [leaving, coreAt_setCore]

theorem leaving_mem (c : Chip) (n : Nat) (e : SendMsg × List Byte) : (leaving c n e).mem = c.mem := by
  show (bump (takeFree c).2 aGRID_MESH_RETRY (takeFree c).1).mem = c.mem
  rw [mem_bump]
  rfl

/-- A message that arrives: its bytes, its buffer, its source. -/
theorem completes_messageArrival {s : State} {src dst : CoreId} {m : SendMsg} {data : List Byte} {p : Post} {tag : BitVec 4}
    (h : Awake s.toChip) (hup : isUp s.toChip .grid = true) (hne : dst.toNat ≠ src.toNat)
    (hf : (coreAt s.toChip src.toNat).inFlight.find? (fun e => e.1.dst = dst.toNat) = some (m, data))
    (ht : m.tag = tag.toNat) (hp : tfind (coreAt s.toChip dst.toNat).posts tag.toNat = some p)
    (hl : data.length ≤ p.len) (hwd : (coreAt s.toChip dst.toNat).wait = none)
    (hwk : (coreAt s.toChip src.toNat).wait = none) (hq : (coreAt s.toChip src.toNat).sendQ = []) :
    Completes (.messageArrival src dst tag) s (fun t =>
      coreRead (coreAt t.toChip dst.toNat) p.addr data.length = data ∧
      (tfind (coreAt t.toChip dst.toNat).posts tag.toNat) = some { p with arrived := some data.length } ∧
      coreAt t.toChip src.toNat = { coreAt s.toChip src.toNat with
        inFlight := dropFirst (fun x => decide (x = (m, data))) (coreAt s.toChip src.toNat).inFlight } ∧
      t.mem = s.mem) := by
  have he := exec_messageArrival h hup hf ht
  have hd := coreAt_leaving_other (c := s.toChip) (e := (m, data)) hne
  rw [deliver_fits (by rw [hd]; exact hp) hl (by rw [hd]; exact hwd), hd] at he
  have hs := coreAt_setCore_other (leaving s.toChip src.toNat (m, data)) dst.toNat src.toNat
    { coreWrite (coreAt s.toChip dst.toNat) p.addr data with
      posts := tins (coreAt s.toChip dst.toNat).posts tag.toNat { p with arrived := some data.length } } (Ne.symm hne)
  rw [coreAt_leaving] at hs
  rw [pumpCore_idle (by rw [hs]; exact hq) (by rw [hs]; exact hwk)] at he
  refine ⟨_, he, after_pending _ _, ?_, ?_, ?_, ?_⟩
  · rw [coreAt_after, coreAt_setCore]
    exact coreRead_write (coreAt s.toChip dst.toNat) p.addr data
  · rw [coreAt_after, coreAt_setCore]
    exact tfind_tins_self _ _ _
  · rw [coreAt_after, hs]
  · exact leaving_mem s.toChip src.toNat (m, data)

/-- The end of a plan: its core waits for nothing, so that it only loses the plan. -/
theorem completes_copyPlanDone {s : State} {core : CoreId} {plan : BitVec 2} {d : Desc} {c : Chip} (h : Awake s.toChip)
    (hup : isUp s.toChip .grid = true) (hd : tfind (coreAt s.toChip core.toNat).plans plan.toNat = some [d])
    (hc : copyOne (bump s.toChip aGRID_MESH_RETRY 0) core.toNat d .clean = c) (hw : (coreAt c core.toNat).wait = none) :
    Completes (.copyPlanDone core plan [] 0) s (fun t =>
      coreAt t.toChip core.toNat = { coreAt c core.toNat with plans := tdel (coreAt c core.toNat).plans plan.toNat } ∧
      t.mem = c.mem) := by
  have he := exec_copyPlanDone h hup hd
  simp only [hc] at he
  rw [wakeCore_of_none (by rw [coreAt_setCore]; exact hw)] at he
  exact ⟨_, he, after_pending _ _, by rw [coreAt_after, coreAt_setCore], rfl⟩

/-! ### The statement -/

/-- Settles O28: an instruction goes on, waits, stalls or errs by the branches of its operation; what streams, arrives or
ends is the one message or plan that the statement names. -/
theorem messagesAndPlans : Obligations.MessagesAndPlans := by
  constructor
  · intro s core g a b c tag plan h hg n k x len src msg posted post
    have hw : k.wait = none := wait_of_issues h
    refine ⟨fun ho hp hs => ?_, fun ho hp hs hne hq hws => ?_, fun ho hp => ?_,
      fun hm hq ho hb => ⟨fun hc => ?_, fun hc hx => ?_⟩, fun hm => ?_, fun hm hq => ?_, fun l hl => ?_, fun hl => ?_, fun hl => ?_, fun hl => ⟨?_, ?_⟩, fun hp hl => ?_,
      fun ds hp h0 h1 ho hb hds => ?_⟩
    · exact coreBecomes_of_exec ((exec_recv h hg ho hp).trans (by rw [giveCredit_far hs]; rfl))
    · exact completes_recv h hg ho hp rfl hs hne hq hws
    · exact programError_of_exec (exec_recv_twice h hg ho hp)
    · exact coreBecomes_of_exec (exec_send_waits h hg hm hq ho hb rfl hc)
    · exact coreBecomes_of_exec (exec_send_streams h hg hm hq ho hb rfl hc hx)
    · exact programError_of_err rfl h ((scalarOp_on hg).trans (if_pos hm))
    · refine exec_of_stall rfl h ((scalarOp_on hg).trans ?_)
      dsimp only
      rw [if_neg (by rw [hm]; decide), if_pos hq]
    · exact coreBecomes_of_exec (exec_rwait_arrived h hg hl)
    · exact coreBecomes_of_exec (exec_rwait_waits h hg hl)
    · exact coreBecomes_of_exec (exec_cwait_idle h hg hl)
    · exact coreBecomes_of_exec (exec_cwait_waits h hg hl)
    · exact exec_of_stall rfl h ((scalarOp_on hg).trans (if_pos hl))
    · refine programError_of_err rfl h ((scalarOp_on hg).trans ?_)
      dsimp only
      rw [if_neg (by rw [hp]; decide), if_pos hl]
    · exact coreBecomes_cplan h hg hp h0 h1 ho hb hds
  · intro s h hup
    constructor
    · intro src dst m data p tag hne k d hf ht hp hl hwd hwk hq
      exact completes_messageArrival h hup (fun he => hne (BitVec.eq_of_toNat_eq he.symm)) hf ht hp hl hwd hwk hq
    intro core plan d k hd hr hw
    refine ⟨fun hk => ?_, fun hk => ?_⟩
    · have hload := copyOne_load (c := bump s.toChip aGRID_MESH_RETRY 0) (n := core.toNat) hk hr
      rw [coreAt_bump, mem_bump] at hload
      obtain ⟨t, he, hpend, hcore, hmem⟩ := completes_copyPlanDone h hup hd hload (by rw [coreAt_setCore]; exact hw)
      rw [coreAt_setCore] at hcore
      refine ⟨t, he, hpend, fun x => ?_, by rw [hcore]; exact tfind_tdel_self _ _,
        hmem.trans (mem_bump s.toChip aGRID_MESH_RETRY 0)⟩
      rw [hcore]
      refine (coreByte_coreWrite k d.dst x (memRead s.mem d.src d.len)).trans ?_
      rw [length_memRead]
      refine ite_congr rfl (fun hx => ?_) fun _ => rfl
      exact getD_map_range _ _ (by omega)
    · have hstore := copyOne_store (c := bump s.toChip aGRID_MESH_RETRY 0) (n := core.toNat) hk hr
      rw [coreAt_bump] at hstore
      have hkeep : coreAt (putMem (bump s.toChip aGRID_MESH_RETRY 0) d.dst (coreRead k d.src d.len)) core.toNat = k :=
        coreAt_bump _ _ _ _
      obtain ⟨t, he, hpend, hcore, hmem⟩ := completes_copyPlanDone h hup hd hstore (by rw [hkeep]; exact hw)
      refine ⟨t, he, hpend, fun x => ?_, by rw [hcore]; exact tfind_tdel_self _ _⟩
      rw [hmem]
      refine (memGet_memWrite _ d.dst x (coreRead k d.src d.len)).trans ?_
      rw [length_coreRead, mem_bump]
      refine ite_congr rfl (fun hx => ?_) fun _ => rfl
      exact getD_map_range _ _ (by omega)

end Sys2Proof.Machine
end

section
/-! A table that lists one key twice. The statements of this part range over every state, and they ask nothing of the
order of its tables. In a state whose table of connections lists a number twice a command sends one message more than
they say: the first entry is an OPEN connection that takes no events, the second makes the same number an event
destination, so that the event of a full egress queue, raised by the message itself, follows it on its own connection.
(The commands keep the keys of a table rising, so that reset leads to no such state: what the statements lack is that
premise.) -/

namespace Sys2Proof.Machine

open Sys2Proof.Safety

/-- A chip on which the fast domain runs and every block but CKPT is ON, with a heap of 32 GiB. -/
def litChip : Chip :=
  let c := Chip.reset
  let c := { c with chip := { c.chip with fast := .run, bootDone := true, bootState := .ready } }
  let c := (allPages.filter (fun p => p ≠ .ckpt)).foldl (fun c p => setHdr c p { hdr c p with state := .on, enable := true }) c
  setReg { c with sess := { c.sess with inited := true } } aTIER_HEAP 0x00200010

/-- Makes the table of connections list connection 0 twice: OPEN, and again as an OPEN event destination. Its egress queue
is full, and QUEUE_FULL is enabled. -/
def doubled (c : Chip) : Chip :=
  let c := setHdr c .egr { hdr c .egr with intEn := 0x10000 }
  let c := setRegB (setRegB c 0 aXPT_CONN_CTRL 0x200) 0 aEGR_Q_CFG 1
  { c with
    xpt := { c.xpt with
      conns := [(0, { connReset with state := .open }), (0, { connReset with state := .open, mgmt := true })] }
    egr := { c.egr with queues := [(0, { equeueReset with pkts := [(0, { typ := 4, payload := [] })] })] } }

/-- A chip with session 0 of partition 0 at generation 1, in a state, of a length, with a vocabulary of 256 tokens. -/
def seated (x : SessState) (n : Nat) : Chip :=
  let c := setRegB (setRegB litChip 0 aSAMP_SLOT_VOCAB 256) 0 aTEXT_VOCAB_CTRL 1
  { c with sess := { c.sess with
      entries := [(0, { freeEntry with state := x, length := n, maxLen := 4096, part := 0, gen := 1 })], cached := [0] } }

/-- A state in which no command waits. -/
def alone (c : Chip) : State := { toChip := c, pending := [] }

/-- What a command leaves in view of connection 0: the number of its next message, and the bytes of its last packet. -/
def heard (i : Instr) (c : Chip) : Option (Word × Nat) :=
  match exec i (alone c) with
  | .next t => some ((conn t.toChip 0).msgNext, (lastSent t.toChip 0).length)
  | _ => none

theorem msgNext_of_heard {i : Instr} {c : Chip} {t : State} {w : Word} {n : Nat} (h : heard i c = some (w, n))
    (ht : exec i (alone c) = .next t) : (conn t.toChip 0).msgNext = w ∧ (lastSent t.toChip 0).length = n := by
  simp only [heard, ht, Option.some.injEq, Prod.mk.injEq] at h
  exact h

/-- The connection that speaks: OPEN, not spray, and, as its first entry has it, no event destination. -/
theorem conn_doubled (c : Chip) : conn (doubled c) 0 = { connReset with state := .open } := rfl

/-- One message was to be sent, and two were. -/
theorem not_spoke {i : Instr} {c : Chip} {t : State} {w : Word} {n k : Nat} (h : heard i (doubled c) = some (w, n))
    (ht : exec i (alone (doubled c)) = .next t) (hw : w ≠ w32 k) : ¬ Spoke (alone (doubled c)) t 0 k := by
  intro hs
  have hm := hs rfl rfl rfl
  rw [(msgNext_of_heard h ht).1] at hm
  exact hw (hm.trans (BitVec.zero_add _))

theorem length_compBytes (r : CompRec) (seq stamp : Nat) : (compBytes r seq stamp).length = 128 := by
  simp only [compBytes, List.length_append, length_leBytes, padTo_length, List.length_cons, List.length_nil]

/-- A record of 128 bytes was to be the last packet, and an event frame is. -/
theorem not_reports {i : Instr} {c : Chip} {t : State} {w : Word} {n : Nat} {r : CompRec} {seq : Nat}
    (h : heard i (doubled c) = some (w, n)) (ht : exec i (alone (doubled c)) = .next t) (hn : n ≠ 128) :
    ¬ Reports (alone (doubled c)) t 0 r seq := by
  intro hs
  obtain ⟨stamp, hl⟩ := hs rfl rfl rfl
  have hlen := (msgNext_of_heard h ht).2
  rw [hl, length_compBytes] at hlen
  exact hn hlen.symm

/-! ### Session requests -/

/-- Refutes O17: the refusal of a handle that names no session is followed by an event frame on its own connection. -/
theorem not_handleChecksComeFirst : ¬ Obligations.HandleChecksComeFirst := by
  intro h
  obtain ⟨t, ht, -, -, hr⟩ := h (alone (doubled litChip)) 0 0 1 (.tokens []) ⟨0, ⟨0, 0, 0, 0, 0, 0, 0, 0, 0, 0, 0⟩,
    ⟨0, 0, 0, 0, 0, 0, 0, 0, 0, 0, 0⟩, []⟩ ⟨0, 0⟩ 0 0 0 0 (2, .append 0 0 1 (.tokens [])) (List.mem_cons_self ..)
    (by decide +kernel) rfl (by decide +kernel)
  exact not_reports (i := .append 0 0 1 (.tokens [])) (w := 2) (n := 16) (by decide +kernel) ht (by decide) hr

/-- An OPEN body that no rule refuses but for its codec. -/
def codecBody (codec : Byte) : OpenReq :=
  { model := 0, codec := codec, priority := 0, stopInclude := 0, client := 0, grammar := 0xFFFF, maxLen := 0, seed := 7,
    stops := [] }

/-- Refutes O18: so is the refusal of an OPEN with an unknown codec. -/
theorem not_openCreatesAReadySession : ¬ Obligations.OpenCreatesAReadySession := by
  intro h
  obtain ⟨-, hrefused⟩ := h (alone (doubled litChip)) 0 0 (codecBody 2) 0 (by decide +kernel) (by decide +kernel)
    (by decide +kernel)
  obtain ⟨t, ht, -, -, hr⟩ := hrefused (by decide +kernel)
  exact not_reports (i := .openSession 0 0 (codecBody 2)) (w := 2) (n := 16) (by decide +kernel) ht (by decide) hr

/-- What `Takes` asks, of connection 0 and handle 1. -/
theorem takes_first {c : Chip} {code : Nat} {arg : OpArg} (h : Awake c ∧ FigIdle c ∧ partOfConn c 0 = some 0 ∧
    handleStatus c (some 0) 1 = 0 ∧ hIdx 1 ∈ c.sess.cached ∧ (body c (hIdx 1)).evict = none ∧
    (body c (hIdx 1)).unsettled = false ∧ acceptStatus c (hIdx 1) code arg = 0) : Takes c 0 1 code arg := by
  obtain ⟨ha, hf, hp, hh, hc, he, hu, hs⟩ := h
  exact ⟨ha, hf, ⟨0, hp, hh⟩, hc, he, hu, hs⟩

/-- Refutes O19: so is the record of an APPEND of a token outside the vocabulary. -/
theorem not_appendAndGenerateQueue : ¬ Obligations.AppendAndGenerateQueue := by
  intro h
  obtain ⟨happend, -, -, -⟩ := h (alone (doubled (seated .ready 3))) 0 0 1
  obtain ⟨-, hbad⟩ := happend [300] (takes_first (by decide +kernel)) (by decide +kernel)
  obtain ⟨t, ht, -, -, -, -, hs⟩ := hbad (by decide +kernel)
  exact not_spoke (i := .append 0 0 1 (.tokens [300])) (w := 2) (n := 16) (by decide +kernel) ht (by decide) hs


/-- Refutes O22: so is the answer of a QUERY. -/
theorem not_queryAndRelease : ¬ Obligations.QueryAndRelease := by
  rintro ⟨h, -⟩
  obtain ⟨t, ht, -, -, hr⟩ := h (alone (doubled (seated .ready 3))) 0 0 1 (by decide +kernel) rfl (by decide +kernel)
    (by decide +kernel)
  exact not_reports (i := .query 0 0 1) (w := 2) (n := 16) (by decide +kernel) ht (by decide) hr

/-! ### Revivals, registrations and remote reads -/

/-- A revival of session 0 whose reads were not issued. -/
def dormantRevival : Revival :=
  { idx := 0, priority := 0, order := 0, deadline := 5, reading := false, waitBlocks := [], addrs := [], cold := false,
    late := false, arrived := false }

/-- The RESUME that it serves. -/
def dormantOp : Op := { newOp 5 0 0 1 (.resume 5) 0 with phase := .reviving }

/-- The chip with both. -/
def dormant : Chip :=
  let c := seated .sitout 3
  { c with
    tier := { c.tier with revivals := [dormantRevival] }
    sess := { c.sess with ops := [(0, [dormantOp])] } }

/-- Refutes O33: so is the record of a RESUME that is too late. -/
theorem not_tierOperations : ¬ Obligations.TierOperations := by
  rintro ⟨h, -⟩
  obtain ⟨hlate, -⟩ := h (alone (doubled dormant)) 1 6 .clean 0 dormantRevival dormantOp (by decide +kernel) (by decide +kernel)
    (by decide +kernel) rfl rfl rfl rfl rfl rfl
  obtain ⟨-, hlate⟩ := hlate (by decide +kernel) rfl rfl rfl rfl rfl
  obtain ⟨t, ht, -, -, -, -, -, -, -, hs⟩ := hlate (by decide +kernel) rfl rfl
  exact not_spoke (i := .revivalDone 1 6 .clean) (w := 2) (n := 16) (by decide +kernel) ht (by decide) hs

/-- Refutes O36: so is the refusal of a REVOKE of a registration that is not ACTIVE. -/
theorem not_registrationsRunTheirCourse : ¬ Obligations.RegistrationsRunTheirCourse := by
  intro h
  obtain ⟨-, -, -, -, hrevoke, -⟩ := h (alone (doubled litChip)) 0 0 (by decide +kernel) (by decide +kernel)
  obtain ⟨t, ht, -, -, hs⟩ := hrevoke 0 (by decide +kernel)
  exact not_spoke (i := .revoke 0 0 0) (w := 2) (n := 16) (by decide +kernel) ht (by decide) hs

/-- The packets that connection 0 has sent and not closed, or holds to send, after a command. -/
def carried (i : Instr) (c : Chip) : Option Nat :=
  match exec i (alone c) with
  | .next t => some ((conn t.toChip 0).txOpen.length + (conn t.toChip 0).txWait.length)
  | _ => none

/-- One packet was to be sent, and two were. -/
theorem not_queued {i : Instr} {c : Chip} {t : State} {n k : Nat} (h : carried i (doubled c) = some n)
    (ht : exec i (alone (doubled c)) = .next t) (hk : n ≠ k) : ¬ Queued (alone (doubled c)) t 0 k := by
  intro hs
  have hn := hs rfl
  simp only [carried, ht, Option.some.injEq] at h
  rw [h] at hn
  exact hk (hn.trans (Nat.zero_add _))

/-- A registration of partition 0 that may be read. -/
def readable : Chip :=
  { litChip with xpt := { litChip.xpt with
      regions := [(0, { regionReset with state := .active, len := 64, read := true, conn := 0xFFFF })] } }

/-- A packet that asks for its first byte. -/
def readReq : Pkt := { typ := 2, tag := 1, length := 1 }

/-- The host port, as partition 0 uses it. -/
def hostLink : Link := { peer := false, addr := 0, port := 0, hostPart := some 0, ce := false }

/-- Refutes O37: so are the packets that answer a READ_REQ. -/
theorem not_packetsTakeEffect : ¬ Obligations.PacketsTakeEffect := by
  intro h
  obtain ⟨hread, -⟩ := h (alone (doubled readable)) hostLink readReq 0 (by decide +kernel) rfl
  obtain ⟨-, hread, -⟩ := hread (by decide +kernel) rfl rfl (by decide +kernel)
  obtain ⟨t, ht, -, -, -, hs⟩ := hread rfl (by decide +kernel) (by decide) (by decide) (by decide +kernel)
  exact not_queued (i := .vstReadReq hostLink readReq) (n := 2) (by decide +kernel) ht (by decide) hs

/-! ### Searches -/

/-- Refutes O40: so is the refusal of an INDEX_FREE whose handle names no index. -/
theorem not_searchRequests : ¬ Obligations.SearchRequests := by
  intro h
  obtain ⟨-, -, -, hfree, -⟩ := h (alone (doubled litChip)) 0 0 16 (by decide +kernel)
  obtain ⟨t, ht, -, -, hs⟩ := hfree (by decide +kernel)
  exact not_spoke (i := .indexFree 0 0 16) (w := 2) (n := 16) (by decide +kernel) ht (by decide) hs

/-- A query that waits for a pass. -/
def waitingQuery : Query :=
  { id := 0, index := 0, conn := 0, tag := 0
    req := { mode := 1, flags := 0, k := 1, beam := 0, rerank := 0, widen := 0, maxVisit := 0, deadline := 0,
             bitmapTag := 0, bitmapOffset := 0, sketch := [], vector := [] }
    phase := .queued, width := 0, widenings := 0, budget := false, visited := [], expanded := [], fetched := [],
    beam := [], cands := [], scored := 0, reads := 0, shards := [], answered := [], partialQ := false, merged := [],
    parent := none }

/-- The chip with that query. -/
def asked : Chip := { litChip with srch := { litChip.srch with queries := [waitingQuery] } }

/-- Refutes O41: so is the record of a query whose deadline passes. -/
theorem not_queriesProgress : ¬ Obligations.QueriesProgress := by
  intro h
  obtain ⟨-, -, -, -, -, -, -, hdeadline, -⟩ := h (alone (doubled asked)) waitingQuery (by decide +kernel)
    (by decide +kernel) (by decide +kernel)
  obtain ⟨t, ht, -, hended, -⟩ := hdeadline
  obtain ⟨-, hs⟩ := hended
  exact not_spoke (i := .searchDeadline 0) (w := 2) (n := 16) (by decide +kernel) ht (by decide) hs

/-! ### Cut-in -/

/-- A cut-in message about source handle 1. -/
def aboutFirst : CutMsg :=
  { typ := 0, form := 0, status := 0, flags := 0, cutId := 0, srcHandle := 1, dstHandle := 0, epoch := 0, regionTag := 0,
    imageLen := 0, imageCrc := 0, modelKey := 0, tag := 0, notify := 0, crcOk := true }

/-- The record of an OFFER of session 0. -/
def offerRecord : CutRec :=
  { conn := 0, cutId := 0, source := true, idx := 0, srcHandle := 1, dstHandle := 0, epoch := 0, form := 0, imageLen := 0,
    imageCrc := 0, region := 0, regionTag := 0, reckoned := 0, state := .offered, released := false, confirmed := false,
    reclaimed := false, notify := 0, tag := 0, replyConn := 1, replyTag := 0, base := 0, ended := false }

/-- The OFFER in progress. -/
def offeredOp : Op := { newOp 11 1 0 1 (.offer 0 0) 0 with phase := .handing }

/-- The chip with that OFFER. -/
def offering : Chip :=
  let c := seated .handoffOut 3
  { c with cuts := [offerRecord], sess := { c.sess with ops := [(0, [offeredOp])] } }

/-- Refutes O44: so is the answer of a PROBE. -/
theorem not_cutSource : ¬ Obligations.CutSource := by
  intro h
  obtain ⟨-, -, hcut⟩ := h (alone (doubled offering)) 0 aboutFirst offerRecord 0 (by decide +kernel) rfl rfl
  obtain ⟨-, -, -, -, -, -, hprobe, -⟩ := hcut offeredOp rfl rfl rfl rfl rfl (by decide +kernel) (by decide +kernel) rfl
    (by decide)
  obtain ⟨-, -, hprobe⟩ := hprobe rfl
  obtain ⟨t, ht, -, -, hs⟩ := hprobe
  rw [if_neg (by decide +kernel)] at hs
  exact not_spoke (i := .cutProbeRx 0 aboutFirst) (w := 2) (n := 16) (by decide +kernel) ht (by decide) hs

/-- Refutes O45: so is the DECLINE of an OFFER. -/
theorem not_cutDestination : ¬ Obligations.CutDestination := by
  intro h
  obtain ⟨hoffer, -⟩ := h (alone (doubled litChip)) 0 aboutFirst (by decide +kernel) rfl
  obtain ⟨hdecline, -⟩ := hoffer rfl 0 (by decide +kernel)
  obtain ⟨t, ht, -, -, hs, -⟩ := hdecline (by decide +kernel)
  exact not_spoke (i := .cutOfferRx 0 aboutFirst) (w := 2) (n := 16) (by decide +kernel) ht (by decide) hs

/-! ### Checkpoints -/

/-- A leader whose timer runs, its ring on connection 0. -/
def leading : Chip :=
  let c := setHdr litChip .ckpt { hdr litChip .ckpt with state := .on, enable := true }
  setReg (setReg c aCKPT_CFG 4) aCKPT_TIMER 1

/-- Refutes O46: so is the PREPARE with which the timer starts a round. -/
theorem not_ckptRounds : ¬ Obligations.CkptRounds := by
  intro h
  obtain ⟨hround, -⟩ := h (alone (doubled leading)) (by decide +kernel)
  obtain ⟨htimer, -⟩ := hround (by decide +kernel)
  obtain ⟨t, ht, -, -, hs⟩ := htimer (by decide +kernel)
  have hring : ckConn (alone (doubled leading)).toChip = 0 := by decide +kernel
  rw [MarkSent, hring] at hs
  refine not_queued (i := .ckptTimerExpiry) (n := 2) (k := 1) (by decide +kernel) ht (by decide) fun hm => ?_
  have hlen := congrArg List.length (hs hm)
  simpa only [sentPayloads, List.length_append, List.length_map, List.length_cons, List.length_nil] using hlen

/-- A shard that streams, its body sent. -/
def streaming : Chip := { litChip with ckpt := { litChip.ckpt with phase := .stream } }

/-- Refutes O47: so is the header that follows a shard's body. -/
theorem not_ckptShard : ¬ Obligations.CkptShard := by
  intro h
  obtain ⟨-, -, -, hbody, -⟩ := h (alone (doubled streaming)) (by decide +kernel) rfl
  obtain ⟨t, ht, -, -, hs, -⟩ := hbody rfl rfl (by decide +kernel) (by decide +kernel) (by decide +kernel)
  have hring : ckConn (alone (doubled streaming)).toChip = 0 := by decide +kernel
  rw [hring] at hs
  exact not_queued (i := .shardBodyAcked) (n := 2) (by decide +kernel) ht (by decide) hs

/-! ### Attestation -/

/-- Refutes O51: so is the refusal of an ATTEST request. -/
theorem not_debugAndTelemetry : ¬ Obligations.DebugAndTelemetry := by
  intro h
  obtain ⟨-, -, hawake⟩ := h (alone (doubled litChip))
  obtain ⟨-, -, hattest⟩ := hawake (by decide +kernel)
  obtain ⟨-, hrefused⟩ := hattest 0 0 1 []
  obtain ⟨hrefused, -⟩ := hrefused 0 (by decide +kernel)
  obtain ⟨t, ht, -, -, hs, -⟩ := hrefused (.inr (.inl (by decide)))
  exact not_spoke (i := .attest 0 0 1 []) (w := 2) (n := 16) (by decide +kernel) ht (by decide) hs

end Sys2Proof.Machine
end

section
/-! A table whose first entry of a connection hides its second. In such a state, which the statement of the interrupt bits
admits, the event destinations list a connection that reads as CLOSED. (The commands keep the keys of a table rising, so
that reset leads to no such state.) -/

namespace Sys2Proof.Machine

open Sys2Proof.Safety

/-- A chip whose table of connections lists connection 0 twice: CLOSED, and then as an OPEN event destination. BLK_INT.STATE
of FIG is pending. -/
def ghosted : Chip :=
  let c := setHdr litChip .fig { hdr litChip .fig with int := 1 }
  let c := setRegB c 0 aXPT_CONN_CTRL 0x200
  { c with xpt := { c.xpt with conns := [(0, connReset), (0, { connReset with state := .open, mgmt := true })] } }

/-- The number of connection 0's next message after a command. -/
def nextMsg (i : Instr) (c : Chip) : Option Word :=
  match exec i (alone c) with
  | .next t => some (conn t.toChip 0).msgNext
  | _ => none

/-- Refutes O12: enabling the pending bit sends no event frame, since the only event destination reads as CLOSED. -/
theorem not_interruptBitsAndVotes : ¬ Obligations.InterruptBitsAndVotes := by
  rintro ⟨h, -⟩
  obtain ⟨-, t, ht, -, -, -, -, -, -, hsent⟩ := h (alone ghosted) .sideband .fig 1 (by decide +kernel)
  have hnext := hsent 0 (by decide +kernel) (by decide) (by decide +kernel) (by decide +kernel) (by decide +kernel)
    (by decide +kernel)
  have hstands : nextMsg (.blkIntEnWrite .sideband .fig 1) ghosted = some 0 := by decide +kernel
  simp only [nextMsg, ht, Option.some.injEq] at hstands
  rw [hstands] at hnext
  exact absurd hnext (by decide)

end Sys2Proof.Machine
end

section
/-! An egress buffer at its threshold. In the states of this part, too, the table of connections lists connection 0
twice: OPEN, and again as an OPEN event destination. The egress buffer has 4,096 free cells, so that the next packet
raises BUF_LOW, which is enabled, and the event frame follows the packet on its own connection. -/

namespace Sys2Proof.Machine

open Sys2Proof.Safety

/-- A packet of 16 cells. -/
def bulkPkt : Pkt := { typ := 4, payload := List.replicate 4068 0 }

/-- Makes the table of connections list connection 0 twice, with 3,840 packets of another connection in queue 1. -/
def brimming (k : ConnSt) : Chip :=
  let c := setHdr litChip .egr { hdr litChip .egr with intEn := 0x20000 }
  let c := setRegB c 0 aXPT_CONN_CTRL 0x200
  { c with
    xpt := { c.xpt with conns := [(0, k), (0, { connReset with state := .open, mgmt := true })] }
    egr := { c.egr with queues := [(1, { equeueReset with pkts := List.replicate 3840 (9, bulkPkt) })], waiters := [0] } }

/-- The packets of connection 0 that are sent and not closed after a command. -/
def openAfter (i : Instr) (c : Chip) : Option Nat :=
  match exec i (alone c) with
  | .next t => some (conn t.toChip 0).txOpen.length
  | _ => none

theorem openAfter_eq {i : Instr} {c : Chip} {t : State} {n : Nat} (h : openAfter i c = some n)
    (ht : exec i (alone c) = .next t) : (conn t.toChip 0).txOpen.length = n := by
  simpa only [openAfter, ht, Option.some.injEq] using h

/-- A packet that was sent and waits for its acknowledgement. -/
def sentPkt : TxPkt := { pkt := { typ := 4 }, use := .plain, expiries := 0, timer := 0 }

/-- Refutes O38: the packet that is sent again is followed by an event frame, which is open beside it. -/
theorem not_acksAndTimers : ¬ Obligations.AcksAndTimers := by
  intro h
  obtain ⟨-, hrto, -, -⟩ := h (alone (brimming { connReset with state := .open, txOpen := [sentPkt] })) hostLink
    { typ := 5 } 0 (by decide +kernel)
  obtain ⟨hrto, -⟩ := hrto sentPkt (by decide +kernel) rfl rfl rfl rfl rfl rfl
  obtain ⟨t, ht, -, hopen, -⟩ := hrto (by decide +kernel)
  have hlen := openAfter_eq (i := .rtoExpiry 0 sentPkt.pkt.seq) (n := 2) (by decide +kernel) ht
  rw [show (0 : Conn).toNat = 0 from rfl] at hopen
  rw [hopen] at hlen
  exact absurd hlen (by decide)

/-- Refutes O43: so is the packet with which a connection resumes. -/
theorem not_hostPortAndEgress : ¬ Obligations.HostPortAndEgress := by
  intro h
  obtain ⟨-, -, -, -, -, -, -, -, -, -, hresume⟩ := h (alone (brimming { connReset with
    state := .open, txWait := [({ typ := 4 }, .plain)], waiting := true })) (by decide +kernel)
  obtain ⟨hresume, -⟩ := hresume 0 { typ := 4 } .plain (by decide +kernel) rfl rfl
  obtain ⟨t, ht, -, -, -, -, -, hopen⟩ := hresume (by decide +kernel) (by decide +kernel) rfl (by decide)
  have hlen := openAfter_eq (i := .senderWaitRelease) (n := 2) (by decide +kernel) ht
  have h1 := congrArg List.length hopen
  simp only [List.length_map, List.length_append, hlen] at h1
  exact absurd h1 (by decide)

end Sys2Proof.Machine
end

section
/-! Plain registers (O7): a write through any of the four aliases stores the masked word of its mode, and the rest of the
chip stands. -/

namespace Sys2Proof.Machine

open Sys2Proof.Safety

/-! ### What storing under a mask gives -/

/-- A key after masked bits were stored in its three copies: the masked bits are the new ones, the others the majority as
it was. -/
theorem regKey_setKey_self (c : Chip) (k : Nat) (m v : Word) :
    regKey (setKey c k m v) k = (regKey c k &&& ~~~m) ||| (v &&& m) := by
  simp only [regKey, setKey, tget_tset_self, majority]
  generalize tget (regReset c.variant k) c.mgmt.regs k = a
  generalize tget 0 c.mgmt.copy1 k = x
  generalize tget 0 c.mgmt.copy2 k = y
  ext i
  simp only [BitVec.getElem_or, BitVec.getElem_and, BitVec.getElem_xor, BitVec.getElem_not]
  cases a[i] <;> cases x[i] <;> cases y[i] <;> cases m[i] <;> cases v[i] <;> rfl

/-- The copies of a key agree on the bits that were stored. -/
theorem copies_setKey_self (c : Chip) (k : Nat) (m v : Word) :
    tget 0 (setKey c k m v).mgmt.copy1 k &&& m = 0 ∧ tget 0 (setKey c k m v).mgmt.copy2 k &&& m = 0 := by
  simp only [setKey, tget_tset_self]
  constructor <;> (ext i; simp)

/-- Folding fields of one access class gives no bit that a wider class does not. -/
theorem maskOfAcc_le (row : RegRow) {p q : Acc → Bool} (h : ∀ a, p a = true → q a = true) :
    maskOfAcc row p &&& maskOfAcc row q = maskOfAcc row p := by
  suffices H : ∀ (l : List RegField) (x y : Word), x &&& y = x →
      l.foldl (fun m f => if p f.acc then m ||| maskOf f.hi f.lo else m) x &&&
        l.foldl (fun m f => if q f.acc then m ||| maskOf f.hi f.lo else m) y =
      l.foldl (fun m f => if p f.acc then m ||| maskOf f.hi f.lo else m) x from H row.fields 0 0 (by simp)
  intro l
  induction l with
  | nil => exact fun _ _ hxy => hxy
  | cons f l ih =>
    intro x y hxy
    have hbit : ∀ i : Nat, x.getLsbD i = true → y.getLsbD i = true := fun i hi => by
      have := congrArg (fun z : Word => z.getLsbD i) hxy
      simpa [hi] using this
    simp only [List.foldl_cons]
    refine ih _ _ (BitVec.eq_of_getLsbD_eq fun i _ => ?_)
    cases hp : p f.acc
    · cases q f.acc <;> cases hx : x.getLsbD i <;> simp [hx, hbit i]
    · cases hx : x.getLsbD i <;> simp [h _ hp, hx, hbit i]
      exact .inr

/-- A stored field is no write-only one, so a register shows what a write stores. -/
theorem storeMask_shown (row : RegRow) {a : Nat} (h : a ≠ aCHIP_SELFTEST) :
    storeMask row &&& shownMask row a = storeMask row := by
  simp only [shownMask, if_neg h]
  exact maskOfAcc_le row (fun x hx => by cases x <;> simp_all [storedAcc, writeOnlyAcc])

/-- The masked bits of a mode's new word do not depend on the bits that the old word hides. -/
theorem wNew_masked (m : WMode) (old w k s : Word) (h : k &&& s = k) :
    wNew m (old &&& s) (if m = .plain then w else w &&& k) &&& k = wNew m old w &&& k := by
  have hbit : ∀ i : Nat, k.getLsbD i = true → s.getLsbD i = true := fun i hi => by
    have := congrArg (fun z : Word => z.getLsbD i) h
    simpa [hi] using this
  refine BitVec.eq_of_getLsbD_eq fun i hi => ?_
  cases hk : k.getLsbD i
  · simp [hk]
  · have hs := hbit i hk
    rw [BitVec.getLsbD_eq_getElem hi] at hk hs
    cases m <;> simp [wNew, hk, hs, hi]

/-! ### A write of a plain register -/

theorem armed_setArmed_self (c : Chip) (r : Requester) (p : Page) : armed (setArmed c r p false) r p = false := by
  cases r <;> simp [armed, setArmed, setReqState, reqState]

theorem liveWord_setArmed_none {c : Chip} (r : Requester) {p : Page} {a : Nat}
    (hp : pageOf (a / 0x4000) = .flash ∨ pageOf (a / 0x4000) = .spec ∨ pageOf (a / 0x4000) = .gdr)
    (h : liveWord c 0 0 a = none) : liveWord (setArmed c r p false) 0 0 a = none := by
  rcases hp with hp | hp | hp
  · simp only [liveWord, hp, liveFlash] at h ⊢
    grind
  · simp [liveWord, hp]
  · simp [liveWord, hp]

/-- FLASH, SPEC and GDR without INTERLEAVE: the rule of the page stores the write. -/
theorem pageWrite_stored {c : Chip} {x : RegWr}
    (h : pageOf (x.a / 0x4000) = .flash ∨ pageOf (x.a / 0x4000) = .spec ∨
      (pageOf (x.a / 0x4000) = .gdr ∧ x.a ≠ aGDR_INTERLEAVE)) : pageWrite c x = stored c x := by
  rcases h with h | h | ⟨h, hx⟩ <;> simp [pageWrite, h]
  simp [writeGdr, hx]

/-- The chip that a write of a plain register leaves: the unlock consumed, the masked word of the mode stored. -/
def plainWritten (c : Chip) (r : Requester) (p : Page) (a : Nat) (k w : Word) : Chip :=
  keepStatus (answer (setKey (setArmed c r p false) (rkey 0 a) k w) stOK 0) r stOK

/-- An address at which a register is reached in a mode (R22). -/
structure ReachesReg (b a : Nat) (m : WMode) : Prop where
  aligned : b % 4 = 0
  below : b < 0x64000
  base : baseAddr b = a
  mode : aliasOf b = m

/-- The word-aligned addresses of a plain register: its own and those of its three aliases. -/
theorem reachesReg_alias {a : Nat} (h : plainReg a = true) :
    ReachesReg a a .plain ∧ ReachesReg (aliasAddr 0x1000 a) a .set ∧ ReachesReg (aliasAddr 0x2000 a) a .clear ∧
      ReachesReg (aliasAddr 0x3000 a) a .toggle := by
  have hb := baseAddr_plain h
  have hp := aliasOf_plain h
  simp only [plainReg, Bool.and_eq_true, decide_eq_true_eq] at h
  obtain ⟨⟨⟨h4, hl⟩, _⟩, h1⟩ := h
  refine ⟨⟨h4, hl, hb, hp⟩, ?_, ?_, ?_⟩ <;> simp only [aliasAddr, if_pos hl, hb] <;>
    refine ⟨by omega, by omega, by unfold baseAddr; omega, ?_⟩ <;> unfold aliasOf <;>
    simp only [] <;> grind

/-- A write of an unguarded or unlocked register of these pages, in any mode, stores it. -/
theorem mgmtWrite_plain {c : Chip} {r : Requester} {a b : Nat} {m : WMode} {row : RegRow} {p : Page} (w : Word)
    (hb : ReachesReg b a m) (ha : plainReg a = true)
    (hpg : p = .flash ∨ p = .spec ∨ (p = .gdr ∧ a ≠ aGDR_INTERLEAVE)) (hp : pageOf (a / 0x4000) = p)
    (h : Reaches c r p) (hr : rowOf a = some row) (h0 : row.pair = 0)
    (hg : rowGuarded row = true → armed c r p = true) (hl : liveWord c 0 0 a = none) (hn : row.bank = .none_) :
    ∃ v, v &&& storeMask row = wNew m (reg c a) w &&& storeMask row ∧
      mgmtWrite c r b w = plainWritten c r p a (storeMask row) v := by
  have hpage : pageOf (b / 0x4000) = p := by
    rw [← hp]; congr 1; have := hb.base; unfold baseAddr at this; omega
  have hoff : 0x40 ≤ a % 0x4000 := by
    simp only [plainReg, Bool.and_eq_true, decide_eq_true_eq] at ha; exact ha.1.2
  have hself : a ≠ aCHIP_SELFTEST := by
    rintro rfl
    have hc : pageOf (aCHIP_SELFTEST / 0x4000) = .chip := by decide
    rw [hc] at hp; subst hp; simp at hpg
  have hdt : a ≠ aPEER_RT_DATA := by
    rintro rfl
    have hc : pageOf (aPEER_RT_DATA / 0x4000) = .peer := by decide
    rw [hc] at hp; subst hp; simp at hpg
  have hpg' : pageOf (a / 0x4000) = .flash ∨ pageOf (a / 0x4000) = .spec ∨ pageOf (a / 0x4000) = .gdr := by
    rw [hp]; rcases hpg with h | h | ⟨h, -⟩ <;> simp [h]
  have hlive := liveWord_setArmed_none r (p := p) hpg' hl
  refine ⟨wNew m (reg c a &&& shownMask row a) (if m = .plain then w else w &&& storeMask row),
    wNew_masked m _ w _ _ (storeMask_shown row hself), ?_⟩
  unfold mgmtWrite mgmtWriteWith
  rw [if_neg (by rw [h.1]; simp), gate_ok true h hpage hb.aligned hb.below]
  simp only [ne_eq, not_true_eq_false, if_false]
  unfold writeAt
  simp only [hb.base, hb.mode, hr, hpage]
  rw [if_neg (by omega), if_neg (by omega)]
  have hg' : ¬(rowGuarded row = true ∧ armed c r p = false) := fun x => by simp [hg x.1] at x
  have hq : reqPart c r = 0 := h.2.1
  simp only [rowWrite, h0, hq, hn, bankFor]
  simp only [hg', if_false]
  rw [pageWrite_stored (by simpa [regWrOf, hp] using hpg)]
  simp [stored, storeReg, regWrOf, hdt, plainWord, hlive, plainWritten, regB, reg]

/-- The window has 25 pages. -/
theorem pageOf_above {n : Nat} (h : 25 ≤ n) : pageOf n = .chip :=
  List.getD_eq_default _ _ h

/-- What such a write leaves: the register with the masked bits of the word, its copies even, every other register, every
header and the rest of the chip as they were, and the unlock gone. -/
theorem accepted_plainWritten {i : Instr} {s : State} {r : Requester} {p : Page} {a : Nat} {k v w : Word}
    (he : exec i s = .next (after s (plainWritten s.toChip r p a k v))) (hw : v &&& k = w &&& k) :
    Accepted i s r s.toChip (fun t => reg t.toChip a = (reg s.toChip a &&& ~~~k) ||| (w &&& k) ∧
      tget 0 t.mgmt.copy1 (rkey 0 a) &&& k = 0 ∧ tget 0 t.mgmt.copy2 (rkey 0 a) &&& k = 0 ∧
      (∀ j, j ≠ rkey 0 a → regKey t.toChip j = regKey s.toChip j) ∧ armed t.toChip r p = false ∧ Unmoved s t) := by
  refine accepted_of he ?_ ⟨?_, ?_, ?_, ?_, ?_, ?_⟩
  · exact (desk_of_quiet (quiet_setKey ..)).trans (desk_setArmed ..)
  · simp only [reg, regKey_drive, regKey_setKey_self, regKey_setArmed, hw]
  · have h := (copies_setKey_self (setArmed s.toChip r p false) (rkey 0 a) k v).1
    cases r <;> exact h
  · have h := (copies_setKey_self (setArmed s.toChip r p false) (rkey 0 a) k v).2
    cases r <;> exact h
  · intro j hj
    simp only [regKey_drive, regKey_setKey_other _ _ _ _ _ hj, regKey_setArmed]
  · have h := armed_setArmed_self s.toChip r p
    cases r <;> exact h
  · cases r <;> exact ⟨rfl, rfl, rfl, fun _ => rfl⟩

/-- Settles O7: each of the aliases reaches the register's rule, which on these pages stores the masked word of the mode. -/
theorem writesStoreFields : Obligations.WritesStoreFields := by
  intro s r addr data row p hpg hp h h4 h40 h1 hr h0 hg hl hn old m k0 wrote
  have hlt : addr.toNat < 0x64000 := by
    refine lt_of_not_ge fun hge => ?_
    have hc : p = .chip := by rw [hp]; exact pageOf_above (by omega)
    subst hc; simp at hpg
  have ha : plainReg addr.toNat = true := by simp [plainReg, h4, hlt, h40, h1]
  obtain ⟨hpl, hset, hclr, htog⟩ := reachesReg_alias ha
  have go : ∀ (i : Instr) (b : Nat) (md : WMode), ReachesReg b addr.toNat md →
      exec i s = act s (fun c => mgmtWrite c r b data) → Accepted i s r s.toChip (wrote (wNew md old data)) := by
    intro i b md hb hi
    obtain ⟨v, hv, hm⟩ := mgmtWrite_plain (w := data) hb ha hpg hp.symm h hr h0 hg hl hn
    refine accepted_plainWritten (v := v) ?_ hv
    rw [hi, act, hm, after]
  exact ⟨go _ _ .plain hpl rfl, go _ _ .set hset rfl, go _ _ .clear hclr rfl, go _ _ .toggle htog rfl⟩

end Sys2Proof.Machine
end

section
/-! The pairs of a check-value unit (O8): the comparison of copies at a read keeps what registers read as, so the shadow
takes the word of the pair; a write of both halves stores both. -/

namespace Sys2Proof.Machine

open Sys2Proof.Safety

/-! ### A vote where a majority exists -/

/-- The stored word is the majority of the copies that a vote compares. -/
theorem regKey_eq_copies (c : Chip) (k : Nat) :
    regKey c k = majority (copiesOf c k).1 (copiesOf c k).2.1 (copiesOf c k).2.2 := rfl

/-- Storing under a mask what a key reads as changes no register. -/
theorem regKey_setKey_read (c : Chip) (k j : Nat) (m : Word) : regKey (setKey c k m (regKey c k)) j = regKey c j := by
  by_cases h : j = k
  · subst h
    rw [regKey_setKey_self]
    ext i
    simp only [BitVec.getElem_or, BitVec.getElem_and, BitVec.getElem_not]
    cases (regKey c j)[i] <;> cases m[i] <;> rfl
  · exact regKey_setKey_other _ _ _ _ _ h

/-- Recording a disagreement changes registers as raising an event does. -/
theorem regKey_voteRecord (c : Chip) (a k : Nat) (b : Bool) (h : noisyKey k = false) :
    regKey (voteRecord c a b) k = regKey c k :=
  (minor_raise _ _ _).regs k h

/-- A vote in which every field has a majority keeps what registers read as. -/
theorem regKey_voteKey {c : Chip} {k j : Nat} (hs : splitMask c k = 0) (hj : noisyKey j = false) :
    regKey (voteKey c k) j = regKey c j := by
  unfold voteKey
  simp only [hs, true_or, if_true, ← regKey_eq_copies]
  split
  · rfl
  · split
    · rfl
    · rw [(minor_fault _ 0x10 _ _ _ _ (by decide)).regs j hj, regKey_voteRecord _ _ _ _ hj, regKey_setKey_read]

theorem regB_voteKey {c : Chip} {k b a : Nat} (hs : splitMask c k = 0) (hj : noisyKey (rkey b a) = false) :
    regB (voteKey c k) b a = regB c b a := regKey_voteKey hs hj

/-- A register without triplicated fields has a majority in every bit. -/
theorem splitMask_of_single {c : Chip} {k : Nat} {row : RegRow} (hr : rowOf (k % bankStride) = some row)
    (h : row.fields.any (fun f => tripleAcc f.acc) = false) : splitMask c k = 0 := by
  have he : row.fields.filter (fun f => tripleAcc f.acc && fieldSplit (copiesOf c k) f) = [] := by
    rw [List.filter_eq_nil_iff]
    intro f hf
    have := List.any_eq_false.1 h f hf
    simp [this]
  simp only [splitMask, hr, he, List.foldl_nil]

/-! ### The pairs of a unit -/

/-- The row of a word of a pair whose bits are all stored: POLY, INIT and XOROUT. -/
def pairRow (off pair reset : Nat) : RegRow := ⟨off, 1, .unit, pair, [⟨31, 0, .rw, reset⟩]⟩

/-- What the proofs use of the rows of a unit's pair: both words are whole, unguarded, not live, and stay below the bank's
stride. -/
structure UnitPair (a : Nat) : Prop where
  lo : ∃ o v, rowOf a = some (pairRow o 1 v)
  hi : ∃ o v, rowOf (a + 4) = some (pairRow o 2 v)
  plain : plainReg a = true ∧ plainReg (a + 4) = true
  page : a / 0x4000 = 23 ∧ (a + 4) / 0x4000 = 23
  place : aCRC_POLY_LO ≤ a ∧ a + 4 < aCRC_SRC_LO

theorem unitPair_of_mem {a : Nat} (h : a ∈ [aCRC_POLY_LO, aCRC_INIT_LO, aCRC_XOROUT_LO]) : UnitPair a := by
  simp only [List.mem_cons, List.not_mem_nil, or_false] at h
  rcases h with rfl | rfl | rfl <;>
    exact ⟨⟨_, _, rfl⟩, ⟨_, _, rfl⟩, ⟨by decide, by decide⟩, ⟨by decide, by decide⟩, ⟨by decide, by decide⟩⟩

theorem pageOf_crc : pageOf 23 = .crc := rfl

@[simp] theorem storeMask_pairRow (o p v : Nat) : storeMask (pairRow o p v) = BitVec.allOnes 32 := by
  simp only [storeMask, maskOfAcc, pairRow, List.foldl_cons, List.foldl_nil, storedAcc]; decide

theorem shownMask_pairRow (o p v : Nat) {a : Nat} (h : a ≠ aCHIP_SELFTEST) :
    shownMask (pairRow o p v) a = BitVec.allOnes 32 := by
  rw [shownMask, if_neg h]
  exact (by decide : (0 : Word) ||| maskOf 31 0 = BitVec.allOnes 32)

theorem rowGuarded_pairRow (o p v : Nat) : rowGuarded (pairRow o p v) = false := rfl

/-- A key's register is its remainder by the stride of the banks. -/
theorem rkey_mod {u a : Nat} (h : a < bankStride) : rkey u a % bankStride = a := by
  rw [rkey, Nat.mul_comm, Nat.mul_add_mod, Nat.mod_eq_of_lt h]

theorem noisyKey_crc {u a : Nat} (h : a / 0x4000 = 23) : noisyKey (rkey u a) = false := by
  have hlt : a < bankStride := by simp only [bankStride]; omega
  have hne : ∀ x, x / 0x4000 ≠ 23 → a ≠ x := fun x hx e => hx (e ▸ h)
  simp only [noisyKey, rkey_mod hlt, h]
  simp [hne _ (by decide : aXPT_REC_DROP / 0x4000 ≠ 23), hne _ (by decide : aXPT_BAD_CRC / 0x4000 ≠ 23),
    hne _ (by decide : aXPT_RETX_CNT / 0x4000 ≠ 23), hne _ (by decide : aEGR_Q_FULL / 0x4000 ≠ 23)]

theorem rkey_next (u a : Nat) : rkey u (a + 4) = rkey u a + 4 := (Nat.add_assoc _ _ _).symm

/-- The unit that an access reaches stands at a vote. -/
theorem bankFor_voteKey {c : Chip} {k : Nat} (hs : splitMask c k = 0) :
    bankFor (voteKey c k) 0 .unit = bankFor c 0 .unit := by
  show fld (reg _ aCRC_UNIT_SEL) 1 0 = fld (reg c aCRC_UNIT_SEL) 1 0
  rw [reg, regKey_voteKey hs (noisyKey_crc (by decide)), reg]

/-! ### The read -/

/-- A register of a unit reads as stored, and its copies are compared. -/
theorem wordRead_unit {c : Chip} {a o p v : Nat} (hp : a / 0x4000 = 23) :
    wordRead c 0 (pairRow o p v) a =
      (stOK, regB c (bankFor c 0 .unit) a, voteKey c (rkey (bankFor c 0 .unit) a)) := by
  have hne : ∀ x, x / 0x4000 ≠ 23 → a ≠ x := fun x hx e => hx (e ▸ hp)
  have hlive : liveWord c 0 (bankFor c 0 .unit) a = none := by simp [liveWord, hp, pageOf_crc]
  have htel : pageIdx .tel ≠ a / 0x4000 := by rw [hp]; decide
  unfold wordRead
  rw [if_neg (by simp [hne _ (by decide : aCLK_MINUET_LO / 0x4000 ≠ 23), hne _ (by decide : aCLK_MINUET_HI / 0x4000 ≠ 23)]),
    if_neg (hne _ (by decide : aSEC_DBG_DATA / 0x4000 ≠ 23)), if_neg (hne _ (by decide : aPEER_RT_DATA / 0x4000 ≠ 23)),
    if_neg (fun x => htel x.1), if_neg (by simp)]
  simp only [plainWord, pairRow, hlive, Option.getD_none]
  rw [show (⟨o, 1, .unit, p, [⟨31, 0, .rw, v⟩]⟩ : RegRow) = pairRow o p v from rfl,
    shownMask_pairRow _ _ _ (hne _ (by decide : aCHIP_SELFTEST / 0x4000 ≠ 23)), BitVec.and_allOnes]

/-- A read that the gate lets through: what `readAt` answers. -/
theorem mgmtRead_reaches {c : Chip} {r : Requester} {a : Nat} (h : Reaches c r (pageOf (a / 0x4000)))
    (ha : plainReg a = true) : mgmtRead c r a = answer (readAt c r a).2.2 (readAt c r a).1 (readAt c r a).2.1 := by
  simp only [plainReg, Bool.and_eq_true, decide_eq_true_eq] at ha
  obtain ⟨⟨⟨h4, hl⟩, -⟩, -⟩ := ha
  unfold mgmtRead
  rw [if_neg (by rw [h.1]; simp), gate_ok false h rfl h4 hl]
  simp

@[simp] theorem reqState_setReqState (c : Chip) (r : Requester) (q : ReqState) : reqState (setReqState c r q) r = q := by
  cases r <;> simp [reqState, setReqState]

/-- A _LO read answers the word and loads the shadow with the word of its _HI. -/
theorem readAt_pair {c : Chip} {r : Requester} {a : Nat} (ha : UnitPair a) (hq : reqPart c r = 0) :
    ∃ d : Chip, readAt c r a = (stOK, regB c (bankFor c 0 .unit) a, setReqState d r { reqState d r with
      shadow := some (rkey (bankFor c 0 .unit) (a + 4), regB c (bankFor c 0 .unit) (a + 4)) }) := by
  obtain ⟨⟨o, v, hlo⟩, ⟨o', v', hhi⟩, ⟨hpl, -⟩, ⟨hpg, hpg'⟩, -⟩ := ha
  have hoff : ¬ a % 0x4000 < 0x40 := by
    simp only [plainReg, Bool.and_eq_true, decide_eq_true_eq] at hpl
    omega
  have hclk : a ≠ aCLK_MINUET_LO := fun e => absurd (e ▸ hpg) (by decide)
  have hs : splitMask c (rkey (bankFor c 0 .unit) a) = 0 :=
    splitMask_of_single (by rw [rkey_mod (by simp only [bankStride]; omega), hlo]) rfl
  have hlo' : (pairRow o 1 v).bank = .unit := rfl
  refine ⟨voteKey (voteKey c (rkey (bankFor c 0 .unit) a)) (rkey (bankFor c 0 .unit) (a + 4)), ?_⟩
  unfold readAt
  simp only [baseAddr_plain hpl, if_neg hoff, hlo, hq]
  rw [if_neg (by simp)]
  unfold shadowRead
  rw [if_neg (fun x => absurd x.1 (by decide : (1 : Nat) ≠ 2)), if_neg (fun x => hclk x.2),
    if_pos (show (pairRow o 1 v).pair = 1 from rfl)]
  simp only [hhi, wordRead_unit hpg, wordRead_unit hpg', bankFor_voteKey hs, hlo',
    regB_voteKey hs (noisyKey_crc hpg')]

/-! ### The writes -/

/-- No rule holds back a _LO word of an idle unit. -/
theorem loRefusal_idle {c : Chip} {u a : Nat} (ha : UnitPair a) (hb : (crcUnit c u).busy = false) :
    loRefusal c u a = stOK := by
  have hne : ∀ x, x / 0x4000 ≠ 23 → a ≠ x := fun x hx e => hx (e ▸ ha.page.1)
  unfold loRefusal
  rw [if_neg (hne _ (by decide))]
  simp [hne _ (by decide : aTEXT_VOCAB_LO / 0x4000 ≠ 23), hne _ (by decide : aTEXT_GRAM_LO / 0x4000 ≠ 23), hb]

/-- A plain write that passes the gate, at a plain register. -/
theorem mgmtWrite_reaches {c : Chip} {r : Requester} {a : Nat} {row : RegRow} (w : Word)
    (h : Reaches c r (pageOf (a / 0x4000))) (ha : plainReg a = true) (hr : rowOf a = some row) :
    mgmtWrite c r a w =
      let y := rowWrite c r noArgs row .plain (pageOf (a / 0x4000)) a w
      keepStatus (answer y.2 y.1 0) r y.1 := by
  have ha' := ha
  simp only [plainReg, Bool.and_eq_true, decide_eq_true_eq] at ha'
  obtain ⟨⟨⟨h4, hl⟩, h40⟩, h1⟩ := ha'
  unfold mgmtWrite mgmtWriteWith
  rw [if_neg (by rw [h.1]; simp), gate_ok true h rfl h4 hl]
  simp only [ne_eq, not_true_eq_false, if_false]
  unfold writeAt
  simp only [baseAddr_plain ha, aliasOf_plain ha, hr]
  rw [if_neg (by omega), if_neg (by omega)]

/-- The chip after a _LO write of a unit's pair: the hold has the word. -/
theorem mgmtWrite_lo {c : Chip} {r : Requester} {a : Nat} (w : Word) (ha : UnitPair a) (h : Reaches c r .crc)
    (hb : (crcUnit c (bankFor c 0 .unit)).busy = false) :
    mgmtWrite c r a w = keepStatus (answer (setReqState c r { reqState c r with
      hold := some (rkey (bankFor c 0 .unit) a, w) }) stOK 0) r stOK := by
  obtain ⟨o, v, hlo⟩ := ha.lo
  have hp : pageOf (a / 0x4000) = .crc := by rw [ha.page.1]; rfl
  rw [mgmtWrite_reaches w (by rw [hp]; exact h) ha.plain.1 hlo]
  have hq : reqPart c r = 0 := h.2.1
  have hm : storeMask (pairRow o 1 v) ≠ 0 := by rw [storeMask_pairRow]; decide
  simp only [rowWrite, hq]
  rw [if_pos ⟨trivial, rfl⟩]
  simp only [loWrite]
  rw [if_neg hm, if_neg (by rw [show (pairRow o 1 v).bank = .unit from rfl, loRefusal_idle ha hb]; simp)]
  rfl

/-- Both words of a pair stored, the _HI first. -/
def pairStored (c : Chip) (u a : Nat) (lo hi : Word) : Chip :=
  setKey (setKey c (rkey u (a + 4)) (BitVec.allOnes 32) hi) (rkey u a) (BitVec.allOnes 32) lo

theorem regKey_setKey_all (c : Chip) (k : Nat) (v : Word) : regKey (setKey c k (BitVec.allOnes 32) v) k = v := by
  rw [regKey_setKey_self, BitVec.and_allOnes, BitVec.not_allOnes, BitVec.and_zero, BitVec.zero_or]

theorem regB_pairStored_lo (c : Chip) (u a : Nat) (lo hi : Word) : regB (pairStored c u a lo hi) u a = lo :=
  regKey_setKey_all _ _ _

theorem regB_pairStored_hi (c : Chip) (u a : Nat) (lo hi : Word) : regB (pairStored c u a lo hi) u (a + 4) = hi := by
  rw [regB, pairStored, regKey_setKey_other _ _ _ _ _ (by rw [rkey_next]; omega), regKey_setKey_all]

theorem regKey_pairStored_other (c : Chip) (u a : Nat) (lo hi : Word) {k : Nat} (h : k ≠ rkey u a)
    (h' : k ≠ rkey u (a + 4)) : regKey (pairStored c u a lo hi) k = regKey c k := by
  rw [pairStored, regKey_setKey_other _ _ _ _ _ h, regKey_setKey_other _ _ _ _ _ h']

/-- The chip after the _HI write of a held pair: the unlock consumed, both words stored, the hold empty. -/
theorem mgmtWrite_hi {c : Chip} {r : Requester} {a : Nat} {lo : Word} (w : Word) (ha : UnitPair a) (h : Reaches c r .crc)
    (hb : (crcUnit c (bankFor c 0 .unit)).busy = false)
    (hh : (reqState c r).hold = some (rkey (bankFor c 0 .unit) a, lo)) :
    mgmtWrite c r (a + 4) w = keepStatus (answer (dropHold
      (pairStored (setArmed c r .crc false) (bankFor c 0 .unit) a lo w) r) stOK 0) r stOK := by
  obtain ⟨⟨o', v', hlo⟩, ⟨o, v, hhi⟩, ⟨-, hpl⟩, ⟨-, hpg⟩, hplace⟩ := ha
  have hp : pageOf ((a + 4) / 0x4000) = .crc := by rw [hpg]; rfl
  rw [mgmtWrite_reaches w (by rw [hp]; exact h) hpl hhi]
  have hq : reqPart c r = 0 := h.2.1
  have hold : heldLo (reqState (setArmed c r .crc false) r) (bankFor c 0 .unit) (a + 4) = some lo := by
    have : (reqState (setArmed c r .crc false) r).hold = some (rkey (bankFor c 0 .unit) a, lo) := by
      rw [setArmed, reqState_setReqState]; exact hh
    simp [heldLo, this]
  have hbank : (pairRow o 2 v).bank = .unit := rfl
  have hwrite : ∀ x : RegWr, x.a = a + 4 → x.bank = bankFor c 0 .unit →
      pageWrite (setArmed c r .crc false) x = stored (setArmed c r .crc false) x := fun x hx hu => by
    have hidle : (crcUnit (setArmed c r .crc false) x.bank).busy = false := by rw [hu, ← hb]; cases r <;> rfl
    have hctl : x.a ≠ aCRC_CTRL := by
      have : aCRC_SRC_LO < aCRC_CTRL := by decide
      omega
    simp [pageWrite, hx, hp, writeCrc, hidle]
    intro e; exact absurd (hx.trans e) hctl
  simp only [rowWrite, hq, hp]
  have hpair : (pairRow o 2 v).pair = 2 := rfl
  simp only [rowGuarded_pairRow, hpair, hbank, hold, true_and, if_true]
  rw [if_neg (by decide : ¬(2 : Nat) = 1), if_neg (by simp), hwrite _ rfl rfl]
  simp [stored, storeReg, regWrOf, hlo, pairStored, wNew]

/-! ### The statement -/

theorem desk_dropHold (c : Chip) (r : Requester) : desk (dropHold c r) = desk c := desk_setReqState ..

/-- Settles O8: both rows of a pair are whole words of one bank, so the read takes both as stored and the _HI write
stores both. -/
theorem pairsApplyWhole : Obligations.PairsApplyWhole := by
  intro s r a lo hi u hmem h hu hb
  subst hu
  have ha := unitPair_of_mem hmem
  have hnext : (a + 4).toNat = a.toNat + 4 := by
    have := ha.page.2
    rw [BitVec.toNat_add]; exact Nat.mod_eq_of_lt (by rw [show (4 : Word).toNat = 4 from rfl]; omega)
  have hp : pageOf (a.toNat / 0x4000) = .crc := by rw [ha.page.1]; rfl
  refine ⟨?_, ?_, fun hh => ?_⟩
  · obtain ⟨d, hd⟩ := readAt_pair (r := r) ha h.2.1
    refine ⟨after s (answer (readAt s.toChip r a.toNat).2.2 stOK (regB s.toChip (bankFor s.toChip 0 .unit) a.toNat)),
      ?_, rfl, rfl, ?_⟩
    · show act s (fun c => mgmtRead c r a.toNat) = _
      rw [act, mgmtRead_reaches (by rw [hp]; exact h) ha.plain.1, hd, after]
    · rw [hd]; cases r <;> simp [setReqState, reqState, answer, drivePins, after]
  · have he : exec (.loWrite r a lo) s = act s (fun c => mgmtWrite c r a.toNat lo) := rfl
    rw [act, mgmtWrite_lo lo ha h hb] at he
    refine accepted_of he (desk_setReqState ..) ⟨?_, fun k => ?_, ?_⟩
    · rw [reqState_drive, reqState_setReqState]
    · rw [regKey_drive, regKey_setReqState]
    · rw [armed, armed, reqState_drive, reqState_setReqState]
  · have he : exec (.hiWrite r (a + 4) hi) s = act s (fun c => mgmtWrite c r (a + 4).toNat hi) := rfl
    rw [hnext, act, mgmtWrite_hi hi ha h hb hh] at he
    refine accepted_of he ?_ ⟨?_, ?_, ?_, fun k hk hk' => ?_⟩
    · rw [desk_dropHold, pairStored, desk_of_quiet (quiet_setKey ..), desk_of_quiet (quiet_setKey ..), desk_setArmed]
    · rw [reqState_drive, dropHold, reqState_setReqState]
    · rw [regB, regKey_drive, dropHold, regKey_setReqState]; exact regB_pairStored_lo ..
    · rw [regB, regKey_drive, dropHold, regKey_setReqState]; exact regB_pairStored_hi ..
    · rw [regKey_drive, dropHold, regKey_setReqState, regKey_pairStored_other _ _ _ _ _ hk hk', regKey_setArmed]

end Sys2Proof.Machine
end

section
/-! What events, messages and fault reports do to registers, finer than `Minor`: which registers of FLT a report leaves
alone, the class counters, and counters in general. Also: an idle chip has nothing to begin. -/

namespace Sys2Proof.Machine

open Sys2Proof.Safety

/-! ### Registers that events and messages may change -/

/-- The counters that sending may move. -/
def eventKey (k : Nat) : Bool :=
  k % bankStride = aXPT_REC_DROP || k % bankStride = aXPT_BAD_CRC || k % bankStride = aEGR_Q_FULL

/-- Every register but the sending counters reads the same. -/
def KeepsRegs (c d : Chip) : Prop := ∀ k, eventKey k = false → regKey d k = regKey c k

theorem KeepsRegs.refl (c : Chip) : KeepsRegs c c := fun _ _ => rfl

theorem KeepsRegs.trans {a b c : Chip} (h : KeepsRegs a b) (g : KeepsRegs b c) : KeepsRegs a c :=
  fun k hk => (g k hk).trans (h k hk)

theorem KeepsRegs.of_regs {c d : Chip} (hv : d.variant = c.variant) (hm : d.mgmt = c.mgmt) : KeepsRegs c d :=
  fun k _ => by simp [regKey, hv, hm]

theorem KeepsRegs.reg {c d : Chip} (h : KeepsRegs c d) {a : Nat} (ha : eventKey (rkey 0 a) = false) :
    Machine.reg d a = Machine.reg c a := h _ ha

theorem KeepsRegs.regB {c d : Chip} (h : KeepsRegs c d) {b a : Nat} (ha : eventKey (rkey b a) = false) :
    Machine.regB d b a = Machine.regB c b a := h _ ha

theorem eventKey_rkey {b a : Nat} (h : a < bankStride) (h1 : a ≠ aXPT_REC_DROP) (h2 : a ≠ aXPT_BAD_CRC)
    (h3 : a ≠ aEGR_Q_FULL) : eventKey (rkey b a) = false := by
  simp [eventKey, rkey_mod h, h1, h2, h3]

theorem eventKey_queueFull (b : Nat) : eventKey (rkey b aEGR_Q_FULL) = true := by
  simp [eventKey, rkey_mod (show aEGR_Q_FULL < bankStride by decide)]

theorem keepsRegs_bumpB (c : Chip) (b a n : Nat) (h : eventKey (rkey b a) = true) : KeepsRegs c (bumpB c b a n) := by
  unfold bumpB
  split
  · exact KeepsRegs.refl _
  · exact fun k hk => regKey_setKey_other _ _ _ _ _ (fun e => by rw [e, h] at hk; cases hk)

theorem keepsRegs_setHdr (c : Chip) (p : Page) (h : BlockHdr) : KeepsRegs c (setHdr c p h) := fun _ _ => rfl

theorem keepsRegs_waitSpace (c : Chip) (n : Nat) (w : List (Pkt × InitUse)) : KeepsRegs c (waitSpace c n w).1 :=
  fun k hk => keepsRegs_bumpB _ _ _ _ (eventKey_queueFull _) k hk

theorem keepsRegs_sendPkt (c : Chip) (n : Nat) (p : Pkt) (u : InitUse) : KeepsRegs c (sendPkt c n p u).1 := by
  unfold sendPkt
  dsimp only
  split
  · exact KeepsRegs.refl _
  split
  · exact KeepsRegs.refl _
  · exact keepsRegs_waitSpace _ _ _

theorem keepsRegs_sendFold (n : Nat) (u : InitUse) (ps : List Pkt) (a : Chip × List EventBit) :
    KeepsRegs a.1 (ps.foldl (fun a p => let (c1, e) := sendPkt a.1 n p u; (c1, a.2 ++ e)) a).1 := by
  induction ps generalizing a with
  | nil => exact KeepsRegs.refl _
  | cons p r ih => exact (keepsRegs_sendPkt a.1 n p u).trans (ih ((sendPkt a.1 n p u).1, a.2 ++ (sendPkt a.1 n p u).2))

theorem keepsRegs_pushMsg (c : Chip) (n cls : Nat) (b : List Byte) : KeepsRegs c (pushMsg c n cls b).1 := by
  unfold pushMsg
  dsimp only
  split
  · split
    · exact keepsRegs_bumpB c 0 aXPT_REC_DROP 1 (by decide)
    · exact KeepsRegs.refl _
  split
  · exact keepsRegs_bumpB c 0 aXPT_BAD_CRC 1 (by decide)
  · exact fun k hk => keepsRegs_sendFold n .plain _ (_, []) k hk

theorem keepsRegs_eventFold (b : List Byte) (ns : List Nat) (a : Chip × List EventBit) :
    KeepsRegs a.1 (ns.foldl (fun a n => let (c2, e) := pushMsg a.1 n 7 b; (c2, a.2 ++ e)) a).1 := by
  induction ns generalizing a with
  | nil => exact KeepsRegs.refl _
  | cons n r ih => exact (keepsRegs_pushMsg a.1 n 7 b).trans (ih ((pushMsg a.1 n 7 b).1, a.2 ++ (pushMsg a.1 n 7 b).2))

theorem keepsRegs_sendEvent (c : Chip) (p : Page) : KeepsRegs c (sendEvent c p).1 := by
  unfold sendEvent
  dsimp only
  split
  · exact KeepsRegs.refl _
  · exact fun k hk => keepsRegs_eventFold _ _ (_, []) k hk

theorem keepsRegs_setInt (c : Chip) (p : Page) (w : Word) : KeepsRegs c (setInt c p w).1 := by
  unfold setInt
  dsimp only
  split
  · exact KeepsRegs.refl _
  · exact fun k hk => keepsRegs_sendEvent _ _ k hk

theorem keepsRegs_raiseN (f : Nat) (l : List EventBit) (c : Chip) : KeepsRegs c (raiseN f l c) := by
  induction f generalizing l c with
  | zero => exact KeepsRegs.refl _
  | succ f ih =>
    cases l with
    | nil => exact KeepsRegs.refl _
    | cons e r => exact (keepsRegs_setInt c e.1 _).trans (ih _ _)

theorem keepsRegs_raises (c : Chip) (l : List EventBit) : KeepsRegs c (raises c l) := keepsRegs_raiseN _ _ _
theorem keepsRegs_raise (c : Chip) (p : Page) (b : Nat) : KeepsRegs c (raise c p b) := keepsRegs_raises _ _

theorem keepsRegs_setState (c : Chip) (p : Page) (s : BState) : KeepsRegs c (setState c p s) := by
  unfold setState
  dsimp only
  split
  · exact KeepsRegs.refl _
  · exact fun k hk => keepsRegs_raise _ _ _ k hk

/-! ### Registers that the black box may change -/

/-- The registers of FLT that the black box writes. -/
def boxRegs : List Nat := [aFLT_BB_HEAD, aFLT_BB_SEQ, aFLT_BB_SUPPRESSED, aFLT_STATUS]

/-- Keys that a record may change. -/
def boxKey (k : Nat) : Bool := eventKey k || boxRegs.contains k

/-- Every register reads the same but the sending counters and the registers of the black box. -/
def KeepsBox (c d : Chip) : Prop := ∀ k, boxKey k = false → regKey d k = regKey c k

theorem KeepsRegs.box {c d : Chip} (h : KeepsRegs c d) : KeepsBox c d := fun k hk => h k (by
  simp only [boxKey, Bool.or_eq_false_iff] at hk
  exact hk.1)

theorem KeepsBox.refl (c : Chip) : KeepsBox c c := fun _ _ => rfl

theorem KeepsBox.trans {a b c : Chip} (h : KeepsBox a b) (g : KeepsBox b c) : KeepsBox a c :=
  fun k hk => (g k hk).trans (h k hk)

theorem KeepsBox.of_regs {c d : Chip} (hv : d.variant = c.variant) (hm : d.mgmt = c.mgmt) : KeepsBox c d :=
  (KeepsRegs.of_regs hv hm).box

theorem KeepsBox.reg {c d : Chip} (h : KeepsBox c d) {a : Nat} (ha : boxKey (rkey 0 a) = false) :
    Machine.reg d a = Machine.reg c a := h _ ha

theorem keepsBox_setKey (c : Chip) (k : Nat) (m v : Word) (h : boxKey k = true) : KeepsBox c (setKey c k m v) :=
  fun _ hj => regKey_setKey_other _ _ _ _ _ (fun e => by rw [e, h] at hj; cases hj)

theorem keepsBox_setReg (c : Chip) (a : Nat) (v : Word) (h : boxKey (rkey 0 a) = true) : KeepsBox c (setReg c a v) :=
  keepsBox_setKey _ _ _ _ h

theorem keepsBox_setFld (c : Chip) (a hi lo v : Nat) (h : boxKey (rkey 0 a) = true) : KeepsBox c (setFld c a hi lo v) :=
  keepsBox_setKey _ _ _ _ h

theorem keepsBox_bump (c : Chip) (a n : Nat) (h : boxKey (rkey 0 a) = true) : KeepsBox c (bump c a n) := by
  unfold bump bumpB
  split
  · exact KeepsBox.refl _
  · exact keepsBox_setKey _ _ _ _ h

theorem keepsBox_bbProgram (c : Chip) (r : List Byte) : KeepsBox c (bbProgram c r) := by
  have h : ∀ d : Chip, d.variant = c.variant → d.mgmt = c.mgmt → ∀ v w,
      KeepsBox c (setFld (setReg (setReg d aFLT_BB_SEQ v) aFLT_BB_HEAD w) aFLT_STATUS 1 1 1) := fun d hv hm v w =>
    (KeepsBox.of_regs hv hm).trans ((keepsBox_setReg _ aFLT_BB_SEQ _ (by decide)).trans
      ((keepsBox_setReg _ aFLT_BB_HEAD _ (by decide)).trans (keepsBox_setFld _ aFLT_STATUS _ _ _ (by decide))))
  unfold bbProgram
  dsimp only
  split
  · refine KeepsBox.trans ?_ (keepsRegs_raise _ _ _).box
    apply h <;> rfl
  · apply h <;> rfl

theorem keepsBox_bbQueue (c : Chip) (r : List Byte) : KeepsBox c (bbQueue c r) := by
  have hb : KeepsBox c (bump c aFLT_BB_SUPPRESSED 1) := keepsBox_bump c aFLT_BB_SUPPRESSED 1 (by decide)
  unfold bbQueue
  dsimp only
  split
  · exact KeepsBox.refl _
  split
  · exact hb
  · exact hb.trans (KeepsBox.of_regs rfl rfl)

theorem keepsBox_bbAppend (c : Chip) (r : List Byte) : KeepsBox c (bbAppend c r) := by
  unfold bbAppend
  split
  · exact keepsBox_bbProgram _ _
  split
  · exact keepsBox_bbProgram _ _
  · exact keepsBox_bbQueue _ _

theorem keepsBox_bbRecord (c : Chip) (k cls l p : Nat) (i : Word) (a : DWord) (m : Word) :
    KeepsBox c (bbRecord c k cls l p i a m) := by
  unfold bbRecord
  exact fun j hj => keepsBox_bbAppend _ _ j hj

theorem keepsBox_faultRecord (c : Chip) (f : FaultRep) (l : Nat) : KeepsBox c (faultRecord c f l) := by
  unfold faultRecord
  split
  · exact KeepsBox.refl _
  dsimp only
  split
  · exact KeepsBox.refl _
  split
  · exact fun j hj => keepsBox_bump _ aFLT_BB_SUPPRESSED 1 (by decide) j hj
  · exact fun j hj => keepsBox_bbRecord _ _ _ _ _ _ _ _ j hj

theorem keepsBox_startReaction (c : Chip) (cls l : Nat) : KeepsBox c (startReaction c cls l) := by
  unfold startReaction
  split
  · exact KeepsBox.refl _
  split <;> exact KeepsBox.refl _

theorem keepsBox_bbRewrite (c : Chip) : KeepsBox c (bbRewrite c) := by
  have h1 : KeepsBox c (setFld c aFLT_STATUS 1 1 0) := keepsBox_setFld _ aFLT_STATUS _ _ _ (by decide)
  unfold bbRewrite
  dsimp only
  split
  · exact h1
  · refine KeepsBox.trans ?_ (keepsBox_bbAppend _ _)
    refine KeepsBox.trans ?_ (keepsBox_setReg _ aFLT_BB_SEQ _ (by decide))
    exact h1.trans (KeepsBox.of_regs rfl rfl)

/-! ### Registers that a fault report may change -/

/-- The registers of FLT that a report shows its fault in. -/
def lastRegs : List Nat := [aFLT_LAST_CLASS, aFLT_LAST_INFO, aFLT_LAST_ADDR_LO, aFLT_LAST_ADDR_HI, aFLT_LAST_STAMP]

/-- Keys that a report may change, beside its class counter. -/
def reportKey (k : Nat) : Bool := boxKey k || lastRegs.contains k

/-- Every register reads the same but the sending counters and the registers of a report. -/
def KeepsCounts (c d : Chip) : Prop := ∀ k, reportKey k = false → regKey d k = regKey c k

theorem KeepsBox.counts {c d : Chip} (h : KeepsBox c d) : KeepsCounts c d := fun k hk => h k (by
  simp only [reportKey, Bool.or_eq_false_iff] at hk
  exact hk.1)

theorem KeepsCounts.refl (c : Chip) : KeepsCounts c c := fun _ _ => rfl

theorem KeepsCounts.trans {a b c : Chip} (h : KeepsCounts a b) (g : KeepsCounts b c) : KeepsCounts a c :=
  fun k hk => (g k hk).trans (h k hk)

theorem KeepsCounts.of_regs {c d : Chip} (hv : d.variant = c.variant) (hm : d.mgmt = c.mgmt) : KeepsCounts c d :=
  (KeepsBox.of_regs hv hm).counts

theorem keepsCounts_setKey (c : Chip) (k : Nat) (m v : Word) (h : reportKey k = true) : KeepsCounts c (setKey c k m v) :=
  fun _ hj => regKey_setKey_other _ _ _ _ _ (fun e => by rw [e, h] at hj; cases hj)

theorem keepsCounts_setReg (c : Chip) (a : Nat) (v : Word) (h : reportKey (rkey 0 a) = true) : KeepsCounts c (setReg c a v) :=
  keepsCounts_setKey _ _ _ _ h

theorem keepsCounts_setFld (c : Chip) (a hi lo v : Nat) (h : reportKey (rkey 0 a) = true) :
    KeepsCounts c (setFld c a hi lo v) := keepsCounts_setKey _ _ _ _ h

theorem keepsCounts_setPair (c : Chip) (a v : Nat) (h : reportKey (rkey 0 a) = true) (h' : reportKey (rkey 0 (a + 4)) = true) :
    KeepsCounts c (setPair c a v) := (keepsCounts_setKey _ _ _ _ h).trans (keepsCounts_setKey _ _ _ _ h')

theorem keepsCounts_reportAgain (c : Chip) (f : FaultRep) (l : LastReport) : KeepsCounts c (reportAgain c f l) := by
  unfold reportAgain
  dsimp only
  split
  · exact KeepsCounts.refl _
  · refine KeepsCounts.trans ?_ ((keepsRegs_raise _ _ _).box.counts.trans (keepsBox_startReaction _ _ _).counts)
    split
    · exact fun j hj => keepsCounts_setFld _ aFLT_LAST_CLASS _ _ _ (by decide) j hj
    · exact KeepsCounts.refl _

theorem keepsCounts_reportAt (c : Chip) (f : FaultRep) (n : Nat) : KeepsCounts c (reportAt c f n) := by
  have h4 : ∀ d : Chip, d.variant = c.variant → d.mgmt = c.mgmt → ∀ u v w x, KeepsCounts c
      (setReg (setPair (setReg (setReg d aFLT_LAST_CLASS u) aFLT_LAST_INFO v) aFLT_LAST_ADDR_LO w) aFLT_LAST_STAMP x) :=
    fun d hv hm u v w x => (KeepsCounts.of_regs hv hm).trans ((keepsCounts_setReg _ aFLT_LAST_CLASS _ (by decide)).trans
      ((keepsCounts_setReg _ aFLT_LAST_INFO _ (by decide)).trans
        ((keepsCounts_setPair _ aFLT_LAST_ADDR_LO _ (by decide) (by decide)).trans
          (keepsCounts_setReg _ aFLT_LAST_STAMP _ (by decide)))))
  unfold reportAt
  refine KeepsCounts.trans ?_ (keepsBox_startReaction _ _ _).counts
  refine KeepsCounts.trans ?_ (keepsBox_faultRecord _ _ _).counts
  refine KeepsCounts.trans ?_ (keepsRegs_raise _ _ _).box.counts
  split
  · refine KeepsCounts.trans ?_ (keepsBox_bbRewrite _).counts
    apply h4 <;> rfl
  · apply h4 <;> rfl

/-! ### Class counters (R488) -/

/-- A counter reads its stored sum, which saturates. -/
theorem toNat_regB_bumpB (c : Chip) (b a n : Nat) :
    (regB (bumpB c b a n) b a).toNat = min ((regB c b a).toNat + n) 0xFFFFFFFF := by
  unfold bumpB
  split
  · rename_i h
    have := (regB c b a).isLt
    omega
  · rw [regB, setRegB, regKey_setKey_all, w32, BitVec.toNat_ofNat, sat32]
    omega

theorem toNat_reg_bump (c : Chip) (a n : Nat) : (reg (bump c a n) a).toNat = min ((reg c a).toNat + n) 0xFFFFFFFF :=
  toNat_regB_bumpB c 0 a n

theorem reportKey_classCnt (b : Nat) : reportKey (rkey b aFLT_CLASS_CNT) = false := by
  have he : eventKey (rkey b aFLT_CLASS_CNT) = false := eventKey_rkey (by decide) (by decide) (by decide) (by decide)
  have hm : ∀ l : List Nat, (∀ x ∈ l, x % bankStride ≠ aFLT_CLASS_CNT) → rkey b aFLT_CLASS_CNT ∉ l := fun l hl h =>
    hl _ h (rkey_mod (by decide))
  simp [reportKey, boxKey, he, hm boxRegs (by decide), hm lastRegs (by decide)]

/-- TEL leaving ON and a block's FAULT change no register but the trace's. -/
theorem regKey_faultState (c : Chip) (f : FaultRep) {k : Nat} (he : eventKey k = false) (ht : k ≠ rkey 0 aTEL_TRACE_CTRL) :
    regKey (faultState c f) k = regKey c k := by
  unfold faultState telLeaves traceStop
  split
  · split
    · rw [setFld, regKey_setKey_other _ _ _ _ _ ht]
      exact keepsRegs_setState _ _ _ k he
    · exact keepsRegs_setState _ _ _ k he
  · rfl

/-- A report counts in the counter of its class. -/
theorem regB_report_classCnt (c : Chip) (f : FaultRep) (h0 : f.cls.toNat ≠ 0) (h1 : f.cls.toNat ≤ 0x1E) :
    regB (report c f) f.cls.toNat aFLT_CLASS_CNT =
      regB (bumpB c f.cls.toNat aFLT_CLASS_CNT 1) f.cls.toNat aFLT_CLASS_CNT := by
  have hk := reportKey_classCnt f.cls.toNat
  have he : eventKey (rkey f.cls.toNat aFLT_CLASS_CNT) = false := by
    simp only [reportKey, boxKey, Bool.or_eq_false_iff] at hk
    exact hk.1.1
  have ht : rkey f.cls.toNat aFLT_CLASS_CNT ≠ rkey 0 aTEL_TRACE_CTRL := fun h => by
    have := congrArg (· % bankStride) h
    simp only [rkey_mod (show aFLT_CLASS_CNT < bankStride by decide),
      rkey_mod (show aTEL_TRACE_CTRL < bankStride by decide)] at this
    exact absurd this (by decide)
  unfold report
  rw [if_neg (by omega)]
  dsimp only
  rw [regB, regKey_faultState _ _ he ht]
  split
  · split
    · exact keepsCounts_reportAgain _ _ _ _ hk
    · exact keepsCounts_reportAt _ _ _ _ hk
  · exact keepsCounts_reportAt _ _ _ _ hk

/-- A fault of a listed class counts once. -/
theorem toNat_classCnt_fault (c : Chip) {cls : Nat} (p : Page) (i a : Nat) (hi : Bool) (h0 : 0 < cls) (h1 : cls ≤ 0x1E) :
    (regB (fault c cls p i a hi) cls aFLT_CLASS_CNT).toNat =
      min ((regB c cls aFLT_CLASS_CNT).toNat + 1) 0xFFFFFFFF := by
  have hc : (BitVec.ofNat 8 cls).toNat = cls := by
    rw [BitVec.toNat_ofNat]; omega
  have go : ∀ (d : Chip) (g : FaultRep), g.cls = BitVec.ofNat 8 cls → d.mgmt = c.mgmt → d.variant = c.variant →
      (regB (report d g) cls aFLT_CLASS_CNT).toNat = min ((regB c cls aFLT_CLASS_CNT).toNat + 1) 0xFFFFFFFF :=
    fun d g hg hm hv => by
      have h := regB_report_classCnt d g (by rw [hg, hc]; omega) (by rw [hg, hc]; omega)
      rw [hg, hc] at h
      have hd : regB d cls aFLT_CLASS_CNT = regB c cls aFLT_CLASS_CNT := by simp [regB, regKey, hm, hv]
      rw [h, toNat_regB_bumpB, hd]
  unfold fault
  dsimp only
  split
  · exact go _ _ rfl rfl rfl
  · exact go _ _ rfl rfl rfl

/-! ### Counters of 64 bits -/

theorem rkey_next_ne (b a : Nat) : rkey b a ≠ rkey b (a + 4) := by rw [rkey_next]; omega

theorem regB_setPairB_lo (c : Chip) (b a v : Nat) : regB (setPairB c b a v) b a = w32 v := by
  rw [regB, setPairB, setRegB, regKey_setKey_other _ _ _ _ _ (rkey_next_ne b a), setRegB, regKey_setKey_all]

theorem regB_setPairB_hi (c : Chip) (b a v : Nat) : regB (setPairB c b a v) b (a + 4) = w32 (v / 2 ^ 32) := by
  rw [regB, setPairB, setRegB, regKey_setKey_all]

/-- A pair reads as the 64 bits that were stored. -/
theorem pairB_setPairB (c : Chip) (b a v : Nat) : pairB (setPairB c b a v) b a = v % 2 ^ 64 := by
  rw [pairB, regB_setPairB_lo, regB_setPairB_hi, w32, w32, BitVec.toNat_ofNat, BitVec.toNat_ofNat]
  omega

theorem pairB_lt (c : Chip) (b a : Nat) : pairB c b a < 2 ^ 64 := by
  have h1 := (regB c b a).isLt
  have h2 := (regB c b (a + 4)).isLt
  rw [pairB]
  omega

theorem pairB_bumpPairB (c : Chip) (b a n : Nat) : pairB (bumpPairB c b a n) b a = (pairB c b a + n) % 2 ^ 64 := by
  unfold bumpPairB
  split
  · rename_i h
    rw [h, Nat.add_zero, Nat.mod_eq_of_lt (pairB_lt c b a)]
  · exact pairB_setPairB ..

theorem pair_bumpPair (c : Chip) (a n : Nat) : pair (bumpPair c a n) a = (pair c a + n) % 2 ^ 64 :=
  pairB_bumpPairB c 0 a n

theorem regKey_setPairB_other (c : Chip) (b a v : Nat) {k : Nat} (h : k ≠ rkey b a) (h' : k ≠ rkey b (a + 4)) :
    regKey (setPairB c b a v) k = regKey c k := by
  rw [setPairB, setRegB, regKey_setKey_other _ _ _ _ _ h', setRegB, regKey_setKey_other _ _ _ _ _ h]

theorem regKey_bumpPair_other (c : Chip) (a n : Nat) {k : Nat} (h : k ≠ rkey 0 a) (h' : k ≠ rkey 0 (a + 4)) :
    regKey (bumpPair c a n) k = regKey c k := by
  unfold bumpPair
  split
  · rfl
  · exact regKey_setPairB_other _ _ _ _ h h'

theorem regKey_bumpB_other (c : Chip) (b a n : Nat) {k : Nat} (h : k ≠ rkey b a) :
    regKey (bumpB c b a n) k = regKey c k := by
  unfold bumpB
  split
  · rfl
  · exact regKey_setKey_other _ _ _ _ _ h

theorem regKey_bump_other (c : Chip) (a n : Nat) {k : Nat} (h : k ≠ rkey 0 a) : regKey (bump c a n) k = regKey c k :=
  regKey_bumpB_other c 0 a n h

/-! ### An idle chip has nothing to begin -/

theorem settle_idle {c : Chip} (h : c.fig.committed = []) : settle c = c := by
  rw [settle, h]; rfl

theorem kick_idle {c : Chip} (ho : c.sess.ops = []) (hr : c.tier.revivals = []) (hp : c.tier.pressing = []) :
    kick c = c := by
  have hk : kickN 1 c = c := by
    have hd : dueSessions c = [] := by rw [dueSessions, ho]; rfl
    rw [kickN, hd]
  have hc : cleanRevivals c = c := by rw [cleanRevivals, hr]; rfl
  have hq : pumpPressure c = c := by rw [pumpPressure, hp]; rfl
  have hv : pumpRevivals c = c := by rw [pumpRevivals, hr]; rfl
  unfold kick
  rw [ho]
  show pumpRevivals (pumpPressure (cleanRevivals (kickN 1 c))) = c
  rw [hk, hc, hq, hv]

/-- What ends a command changes nothing where nothing waits. -/
theorem kick_settle_idle {c d : Chip} (h : Quiescent c) (hf : d.fig = c.fig) (hs : d.sess = c.sess) (ht : d.tier = c.tier) :
    kick (settle d) = d := by
  obtain ⟨h1, -, h2, h3, h4⟩ := h
  rw [settle_idle (by rw [hf]; exact h1), kick_idle (by rw [hs]; exact h2) (by rw [ht]; exact h3) (by rw [ht]; exact h4)]

end Sys2Proof.Machine
end

section
/-! Runs of the check-value units (O59): the START write, the end of a run over one range, and an uncorrectable read. -/

namespace Sys2Proof.Machine

open Sys2Proof.Safety

/-! ### Events in a list -/

/-- An event that waits in the list is raised once its turn comes. -/
theorem raiseN_int {p : Page} {b : Nat} (hb : b < 32) : ∀ (i f : Nat) (l : List EventBit) (c : Chip), i < f →
    l[i]? = some (p, b) → bit (hdr (raiseN f l c) p).int b = true := by
  have h1 : bit (BitVec.ofNat 32 (2 ^ b)) b = true := by interval_cases b <;> decide
  intro i
  induction i with
  | zero =>
    intro f l c hf hl
    obtain ⟨f, rfl⟩ : ∃ g, f = g + 1 := ⟨f - 1, by omega⟩
    cases l with
    | nil => simp at hl
    | cons e rest =>
      obtain rfl : e = (p, b) := by simpa using hl
      rw [raiseN_cons]
      exact (minor_raiseN _ _ _).ints _ _ (setInt_int c p _ b h1)
  | succ i ih =>
    intro f l c hf hl
    obtain ⟨f, rfl⟩ : ∃ g, f = g + 1 := ⟨f - 1, by omega⟩
    cases l with
    | nil => simp at hl
    | cons e rest =>
      have hr : rest[i]? = some (p, b) := by simpa using hl
      obtain ⟨hi, -⟩ := List.getElem?_eq_some_iff.1 hr
      obtain ⟨q, e⟩ := e
      rw [raiseN_cons]
      exact ih f _ _ (by omega) (by rw [List.getElem?_append_left hi]; exact hr)

/-- Every event of a list is raised. -/
theorem raises_int {c : Chip} {l : List EventBit} {p : Page} {b : Nat} (hb : b < 32) (h : (p, b) ∈ l) :
    bit (hdr (raises c l) p).int b = true := by
  obtain ⟨i, hi, he⟩ := List.getElem_of_mem h
  exact raiseN_int hb i _ l c (by omega) (by rw [List.getElem?_eq_getElem hi, he])

/-! ### The write of CRC_CTRL -/

/-- A command that ends with a status, whose rule gives a chip. -/
theorem answered_of {i : Instr} {s : State} {r : Requester} {n : Nat} {c d : Chip} {p : State → Prop}
    (he : exec i s = .next { s with toChip := drivePins (keepStatus (answer c n 0) r n) })
    (hd : desk c = desk d) (hp : p { s with toChip := drivePins (keepStatus (answer c n 0) r n) }) :
    Answered i s r (BitVec.ofNat 8 n) d p := by
  refine ⟨_, he, rfl, ?_, ?_, ?_, hp⟩
  · cases r <;> rfl
  · intro h; subst h; rfl
  · show desk (drivePins (keepStatus (answer c n 0) r n)) = desk d
    rw [desk_drivePins, desk_keepStatus, desk_answer, hd]

/-- START: the unlock of the page is consumed, and the unit that the page selects starts. -/
theorem mgmtWrite_crcCtrl {c : Chip} {r : Requester} (h : Reaches c r .crc) :
    mgmtWrite c r aCRC_CTRL 1 =
      let y := crcStart (setArmed c r .crc false) (bankFor c 0 .unit)
      keepStatus (answer y.2 y.1 0) r y.1 := by
  have hw := mgmtWrite_row (c := c) (r := r) (a := aCRC_CTRL) (row := ⟨0x06c, 1, .unit, 0, [⟨0, 0, .wo, 0⟩]⟩) noArgs 1 h
    (by decide) rfl rfl (fun x => absurd x (by decide))
  rw [mgmtWrite, hw]
  simp only [pageWrite, regWrOf, show pageOf (aCRC_CTRL / 0x4000) = .crc from rfl, writeCrc, plainBit, if_true]
  rw [if_pos (by decide)]

section
variable {c : Chip} {r : Requester}

theorem isOn_setArmed (p q : Page) (on : Bool) : isOn (setArmed c r p on) q = isOn c q := by
  unfold isOn bstate
  rw [hdr_setArmed]

theorem crcUnit_setArmed (p : Page) (u : Nat) : crcUnit (setArmed c r p false) u = crcUnit c u := by cases r <;> rfl
theorem crcSources_setArmed (p : Page) (u : Nat) : crcSources (setArmed c r p false) u = crcSources c u := by
  cases r <;> rfl
theorem crcRangeBad_setArmed (p : Page) : crcRangeBad (setArmed c r p false) = crcRangeBad c := by cases r <;> rfl
theorem crcRangeForeign_setArmed (p : Page) : crcRangeForeign (setArmed c r p false) = crcRangeForeign c := by
  cases r <;> rfl
theorem crcBytes_setArmed (p : Page) : crcBytes (setArmed c r p false) = crcBytes c := by cases r <;> rfl

end

/-- The code that a START ends with at once, or 0. -/
def startCode (c : Chip) (u : Nat) : Nat :=
  if (crcSources c u).1 ≠ stOK then (crcSources c u).1
  else if (crcSources c u).2.any (crcRangeBad c) then rejLimit
  else if (crcSources c u).2.any (crcRangeForeign c) then rejPart
  else stOK

theorem crcUnit_setRegB (c : Chip) (b a u : Nat) (v : Word) : crcUnit (setRegB c b a v) u = crcUnit c u := by
  rw [crcUnit, crcUnit, setRegB_crc]

theorem crcStart_eq (c : Chip) (u : Nat) : crcStart c u =
    if !isOn c .crc || (crcUnit c u).busy then (rejBusy, c)
    else if startCode c u ≠ stOK then (stOK, crcFail (setRegB c u aCRC_BYTES 0) u (startCode c u))
    else (stOK, setCrcStat (setCrcUnit (setRegB c u aCRC_BYTES 0) u
      { crcUnit c u with busy := true, ranges := (crcSources c u).2, input := (crcSources c u).2.flatMap (crcBytes c) })
      u true 0 false) := by
  unfold crcStart startCode
  simp only [crcUnit_setRegB]

theorem crcStart_busy {c : Chip} {u : Nat} (h : isOn c .crc = false ∨ (crcUnit c u).busy = true) :
    crcStart c u = (rejBusy, c) := by
  rw [crcStart_eq, if_pos (by rcases h with h | h <;> simp [h])]

theorem crcStart_fails {c : Chip} {u : Nat} (h : isOn c .crc = true) (hb : (crcUnit c u).busy = false)
    (hc : startCode c u ≠ 0) : crcStart c u = (stOK, crcFail (setRegB c u aCRC_BYTES 0) u (startCode c u)) := by
  rw [crcStart_eq, if_neg (by simp [h, hb]), if_pos hc]

theorem crcStart_runs {c : Chip} {u : Nat} (h : isOn c .crc = true) (hb : (crcUnit c u).busy = false)
    (hc : startCode c u = 0) : crcStart c u = (stOK, setCrcStat (setCrcUnit (setRegB c u aCRC_BYTES 0) u
      { crcUnit c u with busy := true, ranges := (crcSources c u).2, input := (crcSources c u).2.flatMap (crcBytes c) })
      u true 0 false) := by
  rw [crcStart_eq, if_neg (by simp [h, hb]), if_neg (fun x => x hc)]

theorem startCode_setArmed (c : Chip) (r : Requester) (p : Page) (u : Nat) :
    startCode (setArmed c r p false) u = startCode c u := by
  simp only [startCode, crcSources_setArmed, crcRangeBad_setArmed, crcRangeForeign_setArmed]

/-! ### Registers of a unit -/

/-- Keys of one bank are as distinct as the addresses. -/
theorem rkey_ne {u a b : Nat} (h : a ≠ b) : rkey u a ≠ rkey u b := by simp only [rkey]; omega

@[simp] theorem regKey_setCrcUnit (c : Chip) (u k : Nat) (x : CrcRun) : regKey (setCrcUnit c u x) k = regKey c k := rfl
@[simp] theorem regB_setCrcUnit (c : Chip) (u b a : Nat) (x : CrcRun) : regB (setCrcUnit c u x) b a = regB c b a := rfl
theorem quiet_setCrcUnit (c : Chip) (u : Nat) (x : CrcRun) : quiet (setCrcUnit c u x) = setCrcUnit (quiet c) u x := rfl
@[simp] theorem hdr_setCrcUnit (c : Chip) (u : Nat) (x : CrcRun) (p : Page) : hdr (setCrcUnit c u x) p = hdr c p := rfl

theorem regB_setCrcStat_self (c : Chip) (u : Nat) (b v : Bool) (st : Nat) :
    regB (setCrcStat c u b st v) u aCRC_STAT = w32 (b2n b * 2 ^ 31 + st * 2 ^ 16 + b2n v) := regKey_setKey_all _ _ _

theorem regB_setRegB_self (c : Chip) (b a : Nat) (v : Word) : regB (setRegB c b a v) b a = v := regKey_setKey_all _ _ _

theorem regB_setRegB_other (c : Chip) (b a a' : Nat) (v : Word) (h : a' ≠ a) :
    regB (setRegB c b a v) b a' = regB c b a' := regKey_setKey_other _ _ _ _ _ (rkey_ne h)

theorem regB_setCrcStat_other (c : Chip) (u a : Nat) (b v : Bool) (st : Nat) (h : a ≠ aCRC_STAT) :
    regB (setCrcStat c u b st v) u a = regB c u a := regB_setRegB_other _ _ _ _ _ h

/-- A run that ends without a result: the unit idle, STAT with the code, both events. -/
theorem crcFail_spec (c : Chip) (u st : Nat) (hu : u < 4) :
    (quiet (crcFail c u st) = quiet (setCrcUnit c u { crcUnit c u with busy := false, ranges := [], input := [] })) ∧
    regB (crcFail c u st) u aCRC_STAT = w32 (st * 2 ^ 16) ∧
    (∀ a, a / 0x4000 = 23 → a ≠ aCRC_STAT → regB (crcFail c u st) u a = regB c u a) ∧
    bit (hdr (crcFail c u st) .crc).int (16 + u) = true ∧ bit (hdr (crcFail c u st) .crc).int (20 + u) = true ∧
    (∀ k, noisyKey k = false → k % bankStride / 0x4000 ≠ 23 → regKey (crcFail c u st) k = regKey c k) := by
  have hm := minor_raises (setCrcStat (setCrcUnit c u { crcUnit c u with busy := false, ranges := [], input := [] })
    u false st false) [(.crc, 16 + u), (.crc, 20 + u)]
  refine ⟨?_, ?_, fun a ha hne => ?_, ?_, ?_, fun k hk h23 => ?_⟩
  · exact hm.quiet.trans (quiet_setRegB _ _ _ _)
  · rw [show regB (crcFail c u st) u aCRC_STAT = _ from hm.regB (noisyKey_crc (by decide)), regB_setCrcStat_self]
    simp [b2n]
  · rw [show regB (crcFail c u st) u a = _ from hm.regB (noisyKey_crc ha), regB_setCrcStat_other _ _ _ _ _ _ hne]
    rfl
  · exact raises_int (by omega) (by simp)
  · exact raises_int (by omega) (by simp)
  · refine (hm.regs k hk).trans ((regKey_setKey_other _ _ _ _ _ fun e => h23 ?_).trans (regKey_setCrcUnit ..))
    rw [e, rkey_mod (by decide)]; decide

/-! ### The end of a run -/

theorem exec_crcRunDone {s : State} {unit : BitVec 2} {bad : Bool} (h : Awake s.toChip) :
    exec (.crcRunDone unit bad) s =
      .next (after s (if isUp s.toChip .crc then crcRunDone s.toChip unit.toNat bad else s.toChip)) := by
  show execCrcRunDone unit bad s = _
  unfold execCrcRunDone
  rw [act_whenAwake h]

/-- The register and the bytes that a run ends with, the unit idle. -/
def runEnded (c : Chip) (u : Nat) (l : List Byte) : Chip :=
  let v := crcRunReg c u l
  raise (setCrcStat (setCrcUnit (setRegB (setPairB c u aCRC_RESULT_LO (crcResultOf c u v)) u aCRC_BYTES
    (w32 (sat32 l.length))) u { held := w64 v, busy := false, ranges := [], input := [] }) u false stOK true) .crc (16 + u)

theorem crcRunDone_good {c d : Chip} {u : Nat} {l : List Byte} (h : (crcUnit c u).busy = true)
    (hs : crcSettleBytes ((crcUnit c u).ranges.foldl crcCountRead c) (crcUnit c u).ranges (crcUnit c u).input = (l, d)) :
    crcRunDone c u false = runEnded d u l := by
  simp only [crcRunDone, h, Bool.not_true, Bool.false_eq_true, if_false, hs]
  rfl

/-- The result of a run that ended, read back. -/
theorem runEnded_spec (c : Chip) (u : Nat) (l : List Byte) (hu : u < 4) :
    let d := runEnded c u l
    quiet d = quiet (setCrcUnit c u { held := w64 (crcRunReg c u l), busy := false, ranges := [], input := [] }) ∧
    pairB d u aCRC_RESULT_LO = crcResultOf c u (crcRunReg c u l) % 2 ^ 64 ∧
    regB d u aCRC_BYTES = w32 (min l.length 0xFFFFFFFF) ∧ regB d u aCRC_STAT = 1 ∧
    bit (hdr d .crc).int (16 + u) = true ∧
    (∀ k, noisyKey k = false → k % bankStride / 0x4000 ≠ 23 → regKey d k = regKey c k) := by
  intro d
  have hm := minor_raise (setCrcStat (setCrcUnit (setRegB (setPairB c u aCRC_RESULT_LO (crcResultOf c u (crcRunReg c u l)))
    u aCRC_BYTES (w32 (sat32 l.length))) u { held := w64 (crcRunReg c u l), busy := false, ranges := [], input := [] })
    u false stOK true) .crc (16 + u)
  have hlo : regB d u aCRC_RESULT_LO = w32 (crcResultOf c u (crcRunReg c u l)) := by
    rw [show regB d u aCRC_RESULT_LO = _ from hm.regB (noisyKey_crc (by decide)),
      regB_setCrcStat_other _ _ _ _ _ _ (by decide)]
    rw [regB_setCrcUnit, regB_setRegB_other _ _ _ _ _ (by decide), regB_setPairB_lo]
  have hhi : regB d u (aCRC_RESULT_LO + 4) = w32 (crcResultOf c u (crcRunReg c u l) / 2 ^ 32) := by
    rw [show regB d u (aCRC_RESULT_LO + 4) = _ from hm.regB (noisyKey_crc (by decide)),
      regB_setCrcStat_other _ _ _ _ _ _ (by decide)]
    rw [regB_setCrcUnit, regB_setRegB_other _ _ _ _ _ (by decide), regB_setPairB_hi]
  refine ⟨?_, ?_, ?_, ?_, raise_int _ _ _ (by omega), fun k hk h23 => ?_⟩
  · refine hm.quiet.trans ((quiet_setRegB _ _ _ _).trans ?_)
    rw [quiet_setCrcUnit, quiet_setCrcUnit, quiet_setRegB, quiet_setPairB]
  · rw [pairB, hlo, hhi, w32, w32, BitVec.toNat_ofNat, BitVec.toNat_ofNat]
    omega
  · rw [show regB d u aCRC_BYTES = _ from hm.regB (noisyKey_crc (by decide)),
      regB_setCrcStat_other _ _ _ _ _ _ (by decide)]
    rw [regB_setCrcUnit, regB_setRegB_self, sat32]
  · rw [show regB d u aCRC_STAT = _ from hm.regB (noisyKey_crc (by decide)), regB_setCrcStat_self]
    rfl
  · have hne : ∀ a, a / 0x4000 = 23 → k ≠ rkey u a := fun a ha e => h23 (by
      rw [e, rkey_mod (by simp only [bankStride]; omega), ha])
    refine (hm.regs k hk).trans ?_
    rw [setCrcStat, setRegB, regKey_setKey_other _ _ _ _ _ (hne _ (by decide)), regKey_setCrcUnit, setRegB,
      regKey_setKey_other _ _ _ _ _ (hne _ (by decide)),
      regKey_setPairB_other _ _ _ _ (hne _ (by decide)) (hne _ (by decide))]

/-- Bytes that are in memory as they were read need no choice. -/
theorem settleFold_same (c : Chip) (l acc : List Byte) :
    (l.zip l).foldl (fun (x : List Byte × Chip) p =>
      if p.1 = p.2 then (x.1 ++ [p.1], x.2)
      else
        let (v, c2) := takeFree x.2
        (x.1 ++ [if v % 2 = 0 then p.1 else p.2], c2)) (acc, c) = (acc ++ l, c) := by
  induction l generalizing acc with
  | nil => simp
  | cons b l ih => simp only [List.zip_cons_cons, List.foldl_cons, if_true, ih, List.append_assoc, List.singleton_append]

theorem viewRead_length (c : Chip) (a n : Nat) : (viewRead c a n).length = n := by simp [viewRead]

theorem settleBytes_gddr {c : Chip} {a n : Nat} :
    crcSettleBytes c [(false, a, n)] (viewRead c a n) = (viewRead c a n, c) := by
  have ht : (viewRead c a n).take n = viewRead c a n := List.take_of_length_le (by rw [viewRead_length])
  simp only [crcSettleBytes, ht, Bool.false_eq_true, if_false, settleFold_same, List.nil_append, List.append_nil]

theorem settleBytes_flash {c : Chip} {a n : Nat} {l : List Byte} (h : l.length = n) :
    crcSettleBytes c [(true, a, n)] l = (l, c) := by
  simp only [crcSettleBytes, if_true, ← h, List.take_length, List.append_nil]

/-- The chip once a flash range was counted as read. -/
def flashCounted (c : Chip) (n : Nat) (f : FlashUnit) : Chip := { bumpPair c aFLASH_READ_BYTES_LO n with flash := f }

/-- Counting the read of a flash range. -/
theorem crcCountRead_flash (c : Chip) (a n : Nat) :
    ∃ f : FlashUnit, crcCountRead c (true, a, n) = flashCounted c n f ∧ f.objects = c.flash.objects := by
  have hf : (bumpPair c aFLASH_READ_BYTES_LO n).flash = c.flash := by unfold bumpPair; split <;> rfl
  unfold crcCountRead
  simp only [if_true]
  split
  · exact ⟨_, rfl, congrArg (·.objects) hf⟩
  · exact ⟨(bumpPair c aFLASH_READ_BYTES_LO n).flash, rfl, congrArg (·.objects) hf⟩

/-- A flash read moves its counter and the reads of an extent alone. -/
theorem flashCounted_stands (c : Chip) (n : Nat) (f : FlashUnit) :
    (flashCounted c n f).fig = c.fig ∧ (flashCounted c n f).sess = c.sess ∧ (flashCounted c n f).tier = c.tier ∧
      (flashCounted c n f).crc = c.crc := by
  unfold flashCounted bumpPair setPair setPairB
  split
  · exact ⟨rfl, rfl, rfl, rfl⟩
  · exact ⟨by simp, by simp, by simp, by simp⟩

/-! ### An uncorrectable read -/

/-- The free place that an uncorrectable read of one flash range meets lies in the range; where no object stands there the
read is counted and reported alone. -/
theorem crcHurt_flash {c : Chip} {a n : Nat} (h : ∀ b, a ≤ b → b < a + max 1 n → crcObject c b 1 = none) :
    ∃ b : Nat × Nat, crcHurt c [(true, a, n)] =
      fault (raise (bump (takeFree c).2 aFLASH_UNCORR_CNT 1) .flash 17) 0x0C .flash b.1 b.2 false := by
  have hv := Nat.mod_lt ((takeFree c).1 / max 1 1) (show 0 < max 1 n by omega)
  have hobj : ∀ d : Chip, quiet d = quiet c → crcObject d (a + (takeFree c).1 / max 1 1 % max 1 n) 1 = none := fun d hd => by
    have hf : d.flash = c.flash := congrArg (·.flash) hd
    have := h (a + (takeFree c).1 / max 1 1 % max 1 n) (by omega) (by omega)
    unfold crcObject at this ⊢
    rw [hf]
    exact this
  refine ⟨(dieAt (raise (bump (takeFree c).2 aFLASH_UNCORR_CNT 1) .flash 17) (a + (takeFree c).1 / max 1 1 % max 1 n),
    a + (takeFree c).1 / max 1 1 % max 1 n), ?_⟩
  have hone : [(true, a, n)].getD ((takeFree c).1 % max 1 1) (false, 0, 1) = (true, a, n) := by
    rw [show (takeFree c).1 % max 1 1 = 0 from Nat.mod_one _]; rfl
  unfold crcHurt
  simp only [List.length_cons, List.length_nil, Nat.zero_add, hone, if_true]
  rw [hobj _ (by rw [quiet_fault _ _ _ _ _ _ (by decide), quiet_raise, quiet_bump, quiet_takeFree])]

theorem crcRunDone_bad {c : Chip} {u a n : Nat} (h : (crcUnit c u).busy = true) (hr : (crcUnit c u).ranges = [(true, a, n)]) :
    crcRunDone c u true =
      kick (settle (crcHurt (crcFail (settle (crcCountRead c (true, a, n))) u stTierFault) [(true, a, n)])) := by
  simp only [crcRunDone, h, hr, Bool.not_true, Bool.false_eq_true, if_false, if_true, List.foldl_cons, List.foldl_nil]

/-! ### The statement -/

theorem desk_setCrcUnit (c : Chip) (u : Nat) (x : CrcRun) : desk (setCrcUnit c u x) = setCrcUnit (desk c) u x := rfl

theorem pairB_kept {c d : Chip} {u a : Nat} (h : regB d u a = regB c u a) (h' : regB d u (a + 4) = regB c u (a + 4)) :
    pairB d u a = pairB c u a := by rw [pairB, pairB, h, h']

theorem regB_drive (c : Chip) (r : Requester) (st n : Nat) (d : Word) (b a : Nat) :
    regB (drivePins (keepStatus (answer c n d) r st)) b a = regB c b a := regKey_drive ..

/-- The chip that a START which fails at once leaves. -/
theorem startFails_spec (c : Chip) (r : Requester) (u st : Nat) (hu : u < 4) :
    let d := crcFail (setRegB (setArmed c r .crc false) u aCRC_BYTES 0) u st
    desk d = desk (setCrcUnit c u { crcUnit c u with ranges := [], input := [], busy := false }) ∧
    regB d u aCRC_STAT = w32 (st * 2 ^ 16) ∧ regB d u aCRC_BYTES = 0 ∧
    pairB d u aCRC_RESULT_LO = pairB c u aCRC_RESULT_LO ∧
    bit (hdr d .crc).int (16 + u) = true ∧ bit (hdr d .crc).int (20 + u) = true := by
  intro d
  obtain ⟨hq, hst, hreg, he1, he2, -⟩ := crcFail_spec (setRegB (setArmed c r .crc false) u aCRC_BYTES 0) u st hu
  refine ⟨?_, hst, ?_, pairB_kept ?_ ?_, he1, he2⟩
  · rw [desk_of_quiet hq, desk_setCrcUnit, desk_setCrcUnit, crcUnit_setRegB, crcUnit_setArmed,
      desk_of_quiet (quiet_setRegB ..), desk_setArmed]
  · rw [hreg _ (by decide) (by decide), regB_setRegB_self]
  · rw [hreg _ (by decide) (by decide), regB_setRegB_other _ _ _ _ _ (by decide), regB_setArmed]
  · rw [hreg _ (by decide) (by decide), regB_setRegB_other _ _ _ _ _ (by decide), regB_setArmed]

/-- The chip that a START which begins a run leaves. -/
theorem startRuns_spec (c : Chip) (r : Requester) (u : Nat) (x : CrcRun) :
    let d := setCrcStat (setCrcUnit (setRegB (setArmed c r .crc false) u aCRC_BYTES 0) u x) u true 0 false
    desk d = desk (setCrcUnit c u x) ∧ regB d u aCRC_STAT = w32 (2 ^ 31) ∧ regB d u aCRC_BYTES = 0 ∧
      pairB d u aCRC_RESULT_LO = pairB c u aCRC_RESULT_LO := by
  intro d
  have hreg : ∀ a, a ≠ aCRC_STAT → a ≠ aCRC_BYTES → regB d u a = regB c u a := fun a h1 h2 => by
    rw [regB_setCrcStat_other _ _ _ _ _ _ h1, regB_setCrcUnit, regB_setRegB_other _ _ _ _ _ h2, regB_setArmed]
  refine ⟨?_, ?_, ?_, pairB_kept (hreg _ (by decide) (by decide)) (hreg _ (by decide) (by decide))⟩
  · rw [desk_of_quiet (show quiet d = _ from quiet_setRegB ..), desk_setCrcUnit, desk_setCrcUnit,
      desk_of_quiet (quiet_setRegB ..), desk_setArmed]
  · rw [regB_setCrcStat_self]; simp [b2n]
  · rw [regB_setCrcStat_other _ _ _ _ _ _ (by decide), regB_setCrcUnit, regB_setRegB_self]

/-- START as a command. -/
theorem exec_crcStart {s : State} {r : Requester} (h : Reaches s.toChip r .crc) {st : Nat} {d : Chip}
    (hs : crcStart (setArmed s.toChip r .crc false) (bankFor s.toChip 0 .unit) = (st, d)) :
    exec (.crcStart r) s = .next { s with toChip := drivePins (keepStatus (answer d st 0) r st) } := by
  show act s (fun c => mgmtWrite c r aCRC_CTRL 1) = _
  rw [act, mgmtWrite_crcCtrl h]
  simp only [hs]

/-- START (R511, R513). -/
theorem starts_run {s : State} {r : Requester} (h : Reaches s.toChip r .crc) :
    let u := bankFor s.toChip 0 .unit
    let x := crcUnit s.toChip u
    let kept := fun (t : State) => pairB t.toChip u aCRC_RESULT_LO = pairB s.toChip u aCRC_RESULT_LO
    (isOn s.toChip .crc = false ∨ x.busy = true → Answered (.crcStart r) s r 0x20 s.toChip (fun t => kept t ∧
      regB t.toChip u aCRC_STAT = regB s.toChip u aCRC_STAT)) ∧
    (isOn s.toChip .crc = true → x.busy = false →
      (startCode s.toChip u ≠ 0 →
        Accepted (.crcStart r) s r (setCrcUnit s.toChip u { x with ranges := [], input := [] }) (fun t =>
          kept t ∧ regB t.toChip u aCRC_STAT = w32 (startCode s.toChip u * 2 ^ 16) ∧ regB t.toChip u aCRC_BYTES = 0 ∧
          Event t .crc (16 + u) ∧ Event t .crc (20 + u))) ∧
      (startCode s.toChip u = 0 → Accepted (.crcStart r) s r (setCrcUnit s.toChip u { x with
          busy := true, ranges := (crcSources s.toChip u).2, input := (crcSources s.toChip u).2.flatMap (crcBytes s.toChip) })
        (fun t => kept t ∧ regB t.toChip u aCRC_STAT = w32 (2 ^ 31) ∧ regB t.toChip u aCRC_BYTES = 0))) := by
  intro u x kept
  have hu : u < 4 := by
    show bankFor s.toChip 0 .unit < 4
    simp only [bankFor, fld]
    exact Nat.mod_lt _ (by decide)
  have hx : crcUnit (setArmed s.toChip r .crc false) u = x := crcUnit_setArmed _ _
  refine ⟨fun hb => ?_, fun hon hb => ⟨fun hc => ?_, fun hc => ?_⟩⟩
  · have he := exec_crcStart h (crcStart_busy (c := setArmed s.toChip r .crc false) (u := u)
      (by rw [isOn_setArmed, hx]; exact hb))
    refine answered_of he (desk_setArmed ..) ⟨pairB_kept ?_ ?_, ?_⟩ <;> rw [regB_drive, regB_setArmed]
  · have he := exec_crcStart h (crcStart_fails (c := setArmed s.toChip r .crc false) (u := u)
      (by rw [isOn_setArmed]; exact hon) (by rw [hx]; exact hb) (by rw [startCode_setArmed]; exact hc))
    rw [startCode_setArmed] at he
    obtain ⟨hd, hst, hby, hres, he1, he2⟩ := startFails_spec s.toChip r u (startCode s.toChip u) hu
    refine accepted_of he ?_ ⟨?_, ?_, ?_, ?_, ?_⟩
    · have hxb : ({ x with ranges := [], input := [], busy := false } : CrcRun) = { x with ranges := [], input := [] } := by
        rw [← hb]
      rw [hd, hxb]
    · exact (pairB_kept (regB_drive ..) (regB_drive ..)).trans hres
    · rw [regB_drive, hst]
    · rw [regB_drive, hby]
    · rw [Event, hdr_drive]; exact he1
    · rw [Event, hdr_drive]; exact he2
  · have he := exec_crcStart h (crcStart_runs (c := setArmed s.toChip r .crc false) (u := u)
      (by rw [isOn_setArmed]; exact hon) (by rw [hx]; exact hb) (by rw [startCode_setArmed]; exact hc))
    rw [hx, crcSources_setArmed, crcBytes_setArmed] at he
    obtain ⟨hd, hst, hby, hres⟩ := startRuns_spec s.toChip r u { x with
      busy := true, ranges := (crcSources s.toChip u).2, input := (crcSources s.toChip u).2.flatMap (crcBytes s.toChip) }
    refine accepted_of he hd ⟨?_, ?_, ?_⟩
    · exact (pairB_kept (regB_drive ..) (regB_drive ..)).trans hres
    · rw [regB_drive, hst]
    · rw [regB_drive, hby]

/-- The result of a run depends on the registers of its page and the unit's own state. -/
theorem crcRunReg_congr {c d : Chip} {u : Nat} (hr : ∀ a, a / 0x4000 = 23 → regB d u a = regB c u a)
    (hu : crcUnit d u = crcUnit c u) (l : List Byte) : crcRunReg d u l = crcRunReg c u l := by
  unfold crcRunReg crcWidth crcChain crcRefin pairB
  rw [hu, hr aCRC_CFG (by decide), hr aCRC_INIT_LO (by decide), hr (aCRC_INIT_LO + 4) (by decide),
    hr aCRC_POLY_LO (by decide), hr (aCRC_POLY_LO + 4) (by decide)]

theorem crcResultOf_congr {c d : Chip} {u : Nat} (hr : ∀ a, a / 0x4000 = 23 → regB d u a = regB c u a) (v : Nat) :
    crcResultOf d u v = crcResultOf c u v := by
  unfold crcResultOf crcWidth crcRefout pairB
  rw [hr aCRC_CFG (by decide), hr aCRC_XOROUT_LO (by decide), hr (aCRC_XOROUT_LO + 4) (by decide)]

theorem regKey_flashCounted {c : Chip} {n k : Nat} {f : FlashUnit} (h : k % bankStride / 0x4000 ≠ 9) :
    regKey (flashCounted c n f) k = regKey c k :=
  regKey_bumpPair_other c _ n (fun e => h (by rw [e]; decide)) (fun e => h (by rw [e]; decide))

theorem regB_flashCounted {c : Chip} {n u a : Nat} {f : FlashUnit} (h : a / 0x4000 = 23) :
    regB (flashCounted c n f) u a = regB c u a :=
  regKey_flashCounted (by rw [rkey_mod (by simp only [bankStride]; omega), h]; decide)

theorem crcUnit_flashCounted (c : Chip) (n u : Nat) (f : FlashUnit) : crcUnit (flashCounted c n f) u = crcUnit c u := by
  rw [crcUnit, (flashCounted_stands c n f).2.2.2, crcUnit]

theorem crcUnit_of_quiet {c d : Chip} (h : quiet d = quiet c) (u : Nat) : crcUnit d u = crcUnit c u := by
  have : d.crc = c.crc := congrArg (·.crc) h
  rw [crcUnit, crcUnit, this]

theorem crcUnit_setCrcUnit (c : Chip) (u : Nat) (x : CrcRun) : crcUnit (setCrcUnit c u x) u = x := tget_tset_self ..

/-- The end of a run over one flash range. -/
theorem flashRun_spec (c : Chip) (u n : Nat) (l : List Byte) (f : FlashUnit) (hu : u < 4) :
    let d := runEnded (flashCounted c n f) u l
    pairB d u aCRC_RESULT_LO = crcResultOf c u (crcRunReg c u l) % 2 ^ 64 ∧
    regB d u aCRC_BYTES = w32 (min l.length 0xFFFFFFFF) ∧ regB d u aCRC_STAT = 1 ∧
    bit (hdr d .crc).int (16 + u) = true ∧
    crcUnit d u = { held := w64 (crcRunReg c u l), busy := false, ranges := [], input := [] } ∧
    pair d aFLASH_READ_BYTES_LO = (pair c aFLASH_READ_BYTES_LO + n) % 2 ^ 64 := by
  intro d
  have hr : ∀ a, a / 0x4000 = 23 → regB (flashCounted c n f) u a = regB c u a := fun a ha => regB_flashCounted ha
  have hreg := crcRunReg_congr hr (crcUnit_flashCounted c n u f) l
  obtain ⟨hq, hres, hby, hst, hev, hother⟩ := runEnded_spec (flashCounted c n f) u l hu
  rw [hreg, crcResultOf_congr hr] at hres
  rw [hreg] at hq
  refine ⟨hres, hby, hst, hev, ?_, ?_⟩
  · rw [crcUnit_of_quiet hq, crcUnit_setCrcUnit]
  · have hp : pair d aFLASH_READ_BYTES_LO = pair (bumpPair c aFLASH_READ_BYTES_LO n) aFLASH_READ_BYTES_LO :=
      pairB_kept (hother _ (by decide) (by decide)) (hother _ (by decide) (by decide))
    rw [hp, pair_bumpPair]

/-- An uncorrectable read of one flash range, on a chip where nothing waits. -/
theorem crcRunDone_bad_spec {c : Chip} {u a n : Nat} (hu : u < 4) (hb : (crcUnit c u).busy = true)
    (hr : (crcUnit c u).ranges = [(true, a, n)]) (hidle : FigIdle c)
    (hno : ∀ b, a ≤ b → b < a + max 1 n → crcObject c b 1 = none) :
    let d := crcRunDone c u true
    crcUnit d u = { crcUnit c u with busy := false, ranges := [], input := [] } ∧
    regB d u aCRC_STAT = w32 (0x11 * 2 ^ 16) ∧ pairB d u aCRC_RESULT_LO = pairB c u aCRC_RESULT_LO ∧
    bit (hdr d .crc).int (16 + u) = true ∧ bit (hdr d .crc).int (20 + u) = true ∧ bit (hdr d .flash).int 17 = true ∧
    (reg d aFLASH_UNCORR_CNT).toNat = min ((reg c aFLASH_UNCORR_CNT).toNat + 1) 0xFFFFFFFF := by
  intro d
  obtain ⟨f, hf, hobj⟩ := crcCountRead_flash c a n
  obtain ⟨hfig, hsess, htier, -⟩ := flashCounted_stands c n f
  obtain ⟨hq, hst, hreg, he1, he2, hother⟩ := crcFail_spec (flashCounted c n f) u stTierFault hu
  generalize hg : crcFail (flashCounted c n f) u stTierFault = g at hq hst hreg he1 he2 hother
  have hflash : g.flash = f := congrArg (·.flash) hq
  obtain ⟨b, hhurt⟩ := crcHurt_flash (c := g) (a := a) (n := n) (fun b h1 h2 => by
    have := hno b h1 h2
    unfold crcObject at this ⊢
    rw [hflash, hobj]
    exact this)
  have hm1 := minor_raise (bump (takeFree g).2 aFLASH_UNCORR_CNT 1) .flash 17
  have hm2 := minor_fault (raise (bump (takeFree g).2 aFLASH_UNCORR_CNT 1) .flash 17) 0x0C .flash b.1 b.2 false (by decide)
  have hm := hm1.trans hm2
  have hqx : quiet (crcHurt g [(true, a, n)]) = quiet g := by
    rw [hhurt, hm.quiet, quiet_bump, quiet_takeFree]
  have hd : d = crcHurt g [(true, a, n)] := by
    show crcRunDone c u true = _
    rw [crcRunDone_bad hb hr, hf, settle_idle (c := flashCounted c n f) (by rw [hfig]; exact hidle.1.1), hg]
    refine kick_settle_idle hidle.1 ?_ ?_ ?_
    · exact (congrArg (·.fig) (hqx.trans hq)).trans hfig
    · exact (congrArg (·.sess) (hqx.trans hq)).trans hsess
    · exact (congrArg (·.tier) (hqx.trans hq)).trans htier
  have hcrc : ∀ x, x / 0x4000 = 23 → regB d u x = regB g u x := fun x hx => by
    rw [hd, hhurt, hm.regB (noisyKey_crc hx)]
    refine regKey_bump_other _ _ _ (fun e => ?_)
    have := congrArg (· % bankStride) e
    simp only [rkey_mod (show x < bankStride by simp only [bankStride]; omega),
      rkey_mod (show aFLASH_UNCORR_CNT < bankStride by decide)] at this
    rw [this] at hx
    exact absurd hx (by decide)
  have hcnt : reg g aFLASH_UNCORR_CNT = reg c aFLASH_UNCORR_CNT :=
    (hother _ (by decide) (by decide)).trans (regKey_bumpPair_other c _ n (by decide) (by decide))
  have hint : ∀ p k, bit (hdr g p).int k = true → bit (hdr d p).int k = true := fun p k hk => by
    rw [hd, hhurt]
    exact hm.ints p k hk
  refine ⟨?_, ?_, pairB_kept ?_ ?_, hint _ _ he1, hint _ _ he2, ?_, ?_⟩
  · rw [hd, crcUnit_of_quiet (hqx.trans hq), crcUnit_setCrcUnit, crcUnit_flashCounted]
  · rw [hcrc _ (by decide), hst]
  · rw [hcrc _ (by decide), hreg _ (by decide) (by decide), regB_flashCounted (by decide)]
  · rw [hcrc _ (by decide), hreg _ (by decide) (by decide), regB_flashCounted (by decide)]
  · rw [hd, hhurt]
    exact hm2.ints _ _ (raise_int _ _ _ (by omega))
  · rw [hd, hhurt, hm.reg (by decide), toNat_reg_bump]
    show min ((reg g aFLASH_UNCORR_CNT).toNat + 1) _ = _
    rw [hcnt]

/-- Settles O59: a START is decided by its sources, and the bytes of one range are those that were read, since GDDR7 did
not change under it. -/
theorem checkValueRuns : Obligations.CheckValueRuns := by
  intro s
  refine ⟨fun r h => starts_run h, fun unit bad ha => ?_⟩
  intro u x end_ shown
  have hu : u < 4 := unit.isLt
  have hex := exec_crcRunDone (s := s) (unit := unit) (bad := bad) ha
  refine ⟨fun h => ?_, fun hup hb => ⟨fun a n hbad hr hin => ?_, fun a n hbad hr hin => ?_, fun a n hbad hr hidle hno => ?_⟩⟩
  · rw [hex]
    rcases h with h | h
    · rw [h]; rfl
    · have hx : crcRunDone s.toChip u bad = s.toChip := by
        unfold crcRunDone
        rw [if_pos (by rw [show (crcUnit s.toChip u).busy = false from h]; rfl)]
      rw [show crcRunDone s.toChip unit.toNat bad = s.toChip from hx, ite_self]
  · subst hbad
    rw [if_pos hup, crcRunDone_good hb (l := x.input) (d := s.toChip)
      (by rw [show (crcUnit s.toChip unit.toNat).ranges = [(false, a, n)] from hr,
            show (crcUnit s.toChip unit.toNat).input = viewRead s.toChip a n from hin]
          exact settleBytes_gddr)] at hex
    obtain ⟨hq, hres, hby, hst, hev, -⟩ := runEnded_spec s.toChip u x.input hu
    exact ⟨_, hex, after_pending _ _, (quiet_after _ _).trans hq, hres, hby, hst, hev⟩
  · subst hbad
    obtain ⟨f, hf, -⟩ := crcCountRead_flash s.toChip a n
    rw [if_pos hup, crcRunDone_good hb (l := x.input) (d := flashCounted s.toChip n f)
      (by rw [show (crcUnit s.toChip unit.toNat).ranges = [(true, a, n)] from hr, List.foldl_cons, List.foldl_nil, hf]
          exact settleBytes_flash hin)] at hex
    obtain ⟨hres, hby, hst, hev, hunit, hp⟩ := flashRun_spec s.toChip u n x.input f hu
    exact ⟨_, hex, after_pending _ _, ⟨hres, hby, hst, hev⟩, hunit, hp⟩
  · subst hbad
    rw [if_pos hup] at hex
    exact ⟨_, hex, after_pending _ _, crcRunDone_bad_spec hu hb hr hidle hno⟩

end Sys2Proof.Machine
end

section
/-! Fields of a register: what a stored field reads as, and that the other fields of its register stand. -/

namespace Sys2Proof.Machine

open Sys2Proof.Safety

/-! ### Bits of a field -/

/-- A bit of a field is a bit of the word. -/
theorem testBit_fld (w : Word) (hi lo i : Nat) :
    (fld w hi lo).testBit i = (decide (i < hi - lo + 1) && bit w (lo + i)) := by
  rw [fld, Nat.testBit_mod_two_pow, Nat.testBit_shiftRight, BitVec.testBit_toNat, bit]

/-- Two words with the same bits in a field have the same field. -/
theorem fld_congr {w v : Word} {hi lo : Nat} (h : ∀ n, lo ≤ n → n < lo + (hi - lo + 1) → bit w n = bit v n) :
    fld w hi lo = fld v hi lo := by
  refine Nat.eq_of_testBit_eq fun i => ?_
  rw [testBit_fld, testBit_fld]
  by_cases hi' : i < hi - lo + 1
  · rw [h (lo + i) (by omega) (by omega)]
  · simp [hi']

theorem getLsbD_maskOf {hi lo n : Nat} (h : lo ≤ hi) :
    (maskOf hi lo).getLsbD n = decide (n < 32 ∧ lo ≤ n ∧ n ≤ hi) := by
  rw [maskOf, BitVec.getLsbD_ofNat, Nat.testBit_shiftLeft, Nat.testBit_two_pow_sub_one]
  by_cases h1 : n < 32 <;> by_cases h2 : lo ≤ n <;> simp [h1, h2] <;> omega

/-- A field stored into a word: its bits are the value's, the other bits stand. -/
theorem bit_stored (w : Word) {hi lo : Nat} (v n : Nat) (h : lo ≤ hi) :
    bit ((w &&& ~~~(maskOf hi lo)) ||| (BitVec.ofNat 32 (v <<< lo) &&& maskOf hi lo)) n =
      if n < 32 ∧ lo ≤ n ∧ n ≤ hi then v.testBit (n - lo) else bit w n := by
  by_cases h32 : n < 32
  · simp only [bit, BitVec.getLsbD_or, BitVec.getLsbD_and, BitVec.getLsbD_not, getLsbD_maskOf h, BitVec.getLsbD_ofNat,
      Nat.testBit_shiftLeft, h32, decide_true, Bool.true_and, true_and]
    by_cases hr : lo ≤ n ∧ n ≤ hi
    · simp [hr.1, hr.2]
    · simp [hr]
  · have h1 : ∀ x : Word, bit x n = false := fun x => BitVec.getLsbD_of_ge x n (by omega)
    simp [h1, h32]

theorem bit_putFld (w : Word) {hi lo : Nat} (v n : Nat) (h : lo ≤ hi) :
    bit (putFld w hi lo v) n = if n < 32 ∧ lo ≤ n ∧ n ≤ hi then v.testBit (n - lo) else bit w n := bit_stored w v n h

/-- The stored field reads as the value, cut to its width. -/
theorem fld_putFld_self (w : Word) {hi lo : Nat} (v : Nat) (h : lo ≤ hi) (h32 : hi < 32) :
    fld (putFld w hi lo v) hi lo = v % 2 ^ (hi - lo + 1) := by
  refine Nat.eq_of_testBit_eq fun i => ?_
  rw [testBit_fld, bit_putFld w v _ h, Nat.testBit_mod_two_pow]
  by_cases hi' : i < hi - lo + 1
  · rw [if_pos ⟨by omega, by omega, by omega⟩, Nat.add_sub_cancel_left]
  · simp [hi']

/-- A field apart from the stored one stands. -/
theorem fld_putFld_other (w : Word) {hi lo a b : Nat} (v : Nat) (h : lo ≤ hi) (hab : b ≤ a) (hd : a < lo ∨ hi < b) :
    fld (putFld w hi lo v) a b = fld w a b :=
  fld_congr fun n h1 h2 => by rw [bit_putFld w v n h, if_neg (by omega)]

/-! ### Registers -/

theorem regB_setFldB_self (c : Chip) (b a hi lo v : Nat) : regB (setFldB c b a hi lo v) b a = putFld (regB c b a) hi lo v :=
  regKey_setKey_self ..

theorem reg_setFld_self (c : Chip) (a hi lo v : Nat) : reg (setFld c a hi lo v) a = putFld (reg c a) hi lo v :=
  regKey_setKey_self ..

theorem reg_setFld_other (c : Chip) {a a' : Nat} (hi lo v : Nat) (h : a' ≠ a) : reg (setFld c a hi lo v) a' = reg c a' :=
  regKey_setKey_other _ _ _ _ _ (rkey_ne h)

theorem reg_setReg_other (c : Chip) {a a' : Nat} (v : Word) (h : a' ≠ a) : reg (setReg c a v) a' = reg c a' :=
  regKey_setKey_other _ _ _ _ _ (rkey_ne h)

/-- A field of a register after it was stored. -/
theorem fld_setFld_self (c : Chip) (a : Nat) {hi lo : Nat} (v : Nat) (h : lo ≤ hi) (h32 : hi < 32) :
    fld (reg (setFld c a hi lo v) a) hi lo = v % 2 ^ (hi - lo + 1) := by
  rw [reg_setFld_self, fld_putFld_self _ _ h h32]

/-- A field of a register after another one of it was stored. -/
theorem fld_setFld_other (c : Chip) (a : Nat) {hi lo a' b' : Nat} (v : Nat) (h : lo ≤ hi) (hab : b' ≤ a')
    (hd : a' < lo ∨ hi < b') : fld (reg (setFld c a hi lo v) a) a' b' = fld (reg c a) a' b' := by
  rw [reg_setFld_self, fld_putFld_other _ _ h hab hd]

/-- A bit of a register after a field of it was stored. -/
theorem bit_setFld (c : Chip) (a : Nat) {hi lo : Nat} (v n : Nat) (h : lo ≤ hi) :
    bit (reg (setFld c a hi lo v) a) n = if n < 32 ∧ lo ≤ n ∧ n ≤ hi then v.testBit (n - lo) else bit (reg c a) n := by
  rw [reg_setFld_self, bit_putFld _ _ _ h]

theorem bit_setFld_one (c : Chip) (a : Nat) {n : Nat} (h : n < 32) : bit (reg (setFld c a n n 1) a) n = true := by
  rw [bit_setFld _ _ _ _ (Nat.le_refl n), if_pos ⟨h, Nat.le_refl n, Nat.le_refl n⟩, Nat.sub_self]
  rfl

theorem bit_setFld_zero (c : Chip) (a : Nat) {n : Nat} (h : n < 32) : bit (reg (setFld c a n n 0) a) n = false := by
  rw [bit_setFld _ _ _ _ (Nat.le_refl n), if_pos ⟨h, Nat.le_refl n, Nat.le_refl n⟩, Nat.zero_testBit]

/-- The lowest field of a number below its bound. -/
theorem fld_w32 {v hi : Nat} (h : v < 2 ^ (hi + 1)) (h32 : hi < 32) : fld (w32 v) hi 0 = v := by
  have hv : v < 2 ^ 32 := lt_of_lt_of_le h (Nat.pow_le_pow_right (by decide) (by omega))
  rw [fld, Nat.shiftRight_zero, w32, BitVec.toNat_ofNat, Nat.mod_eq_of_lt hv, Nat.sub_zero, Nat.mod_eq_of_lt h]

end Sys2Proof.Machine
end

section
/-! Writes of registers with a rule of their own: what reaches the rule, what it stores, and what an answer leaves. -/

namespace Sys2Proof.Machine

open Sys2Proof.Safety

/-- The write that reaches the rule of a plain register: of no pair, at none of the aliases, from outside. -/
structure PlainWrite (c : Chip) (r : Requester) (args : WrArgs) (row : RegRow) (a : Nat) (w : Word) (x : RegWr) : Prop where
  old : a ≠ aPEER_RT_DATA →
    x.old = plainWord (setArmed c r (pageOf (a / 0x4000)) false) 0 (bankFor c 0 row.bank) row a
  src : x.src = some r
  part : x.part = 0
  bank : x.bank = bankFor c 0 row.bank
  addr : x.a = a
  row : x.row = row
  raw : x.raw = w
  new : x.new = w
  ones : x.ones = w
  plain : x.plain = true
  lo : x.lo = none
  args : x.args = args

/-- A write that passes the gate and the guard is judged by the rule of its page, with the unlock consumed. -/
theorem mgmtWriteWith_rule {c : Chip} {r : Requester} {a : Nat} {row : RegRow} (args : WrArgs) (w : Word)
    (h : Reaches c r (pageOf (a / 0x4000))) (ha : plainReg a = true) (hr : rowOf a = some row) (hp : row.pair = 0)
    (hg : rowGuarded row = true → armed c r (pageOf (a / 0x4000)) = true) :
    ∃ x, PlainWrite c r args row a w x ∧ mgmtWriteWith c r args a w =
      keepStatus (answer (pageWrite (setArmed c r (pageOf (a / 0x4000)) false) x).2
        (pageWrite (setArmed c r (pageOf (a / 0x4000)) false) x).1 0) r
        (pageWrite (setArmed c r (pageOf (a / 0x4000)) false) x).1 :=
  ⟨_, ⟨fun h => by rw [regWrOf, if_neg h], rfl, rfl, rfl, rfl, rfl, rfl, rfl, rfl, rfl, rfl, rfl⟩,
    mgmtWrite_row args w h ha hr hp hg⟩

/-- A write that is not of a pair stores its own word alone. -/
theorem storeReg_single (c : Chip) {x : RegWr} (h : x.lo = none) :
    storeReg c x = setKey c (rkey x.bank x.a) (storeMask x.row) x.new := by
  unfold storeReg
  rw [h]

theorem flt_setArmed (c : Chip) (r : Requester) (p : Page) (on : Bool) : (setArmed c r p on).flt = c.flt := by
  cases r <;> rfl

theorem flt_drive (c : Chip) (r : Requester) (st n : Nat) (d : Word) :
    (drivePins (keepStatus (answer c n d) r st)).flt = c.flt := by cases r <;> rfl

theorem reg_drive (c : Chip) (r : Requester) (st n : Nat) (d : Word) (a : Nat) :
    reg (drivePins (keepStatus (answer c n d) r st)) a = reg c a := regKey_drive ..

/-- A write that its rule takes. -/
theorem accepted_write {i : Instr} {s : State} {r : Requester} {args : WrArgs} {a : Nat} {w : Word} {c d : Chip}
    {p : State → Prop} (he : exec i s = act s (fun c => mgmtWriteWith c r args a w))
    (hw : mgmtWriteWith s.toChip r args a w = keepStatus (answer d stOK 0) r stOK) (hd : desk d = desk c)
    (hp : p (after s (keepStatus (answer d stOK 0) r stOK))) : Accepted i s r c p := by
  rw [act, hw] at he
  exact accepted_of he hd hp

/-- A write that its rule refuses: no register changes. -/
theorem refused_write {i : Instr} {s : State} {r : Requester} {args : WrArgs} {a n : Nat} {w : Word} {p : Page}
    (he : exec i s = act s (fun c => mgmtWriteWith c r args a w))
    (hw : mgmtWriteWith s.toChip r args a w = keepStatus (answer (setArmed s.toChip r p false) n 0) r n) :
    Answered i s r (BitVec.ofNat 8 n) s.toChip (fun t => ∀ k, regKey t.toChip k = regKey s.toChip k) := by
  rw [act, hw] at he
  exact answered_of he (desk_setArmed ..) fun k => by rw [regKey_drive, regKey_setArmed]

theorem regB_answered (s : State) (c : Chip) (r : Requester) (n : Nat) (d : Word) (b a : Nat) :
    regB (after s (keepStatus (answer c n d) r n)).toChip b a = regB c b a := regKey_drive ..

theorem reg_answered (s : State) (c : Chip) (r : Requester) (n : Nat) (d : Word) (a : Nat) :
    reg (after s (keepStatus (answer c n d) r n)).toChip a = reg c a := regKey_drive ..

theorem hdr_answered (s : State) (c : Chip) (r : Requester) (n : Nat) (d : Word) (p : Page) :
    hdr (after s (keepStatus (answer c n d) r n)).toChip p = hdr c p := by cases r <;> rfl

/-! ### Fields of banked registers -/

theorem regB_setFldB_other (c : Chip) (b : Nat) {a a' : Nat} (hi lo v : Nat) (h : a' ≠ a) :
    regB (setFldB c b a hi lo v) b a' = regB c b a' := regKey_setKey_other _ _ _ _ _ (rkey_ne h)

/-- Registers at different addresses have different keys, whatever their banks. -/
theorem rkey_apart {b b' a a' : Nat} (h : a < bankStride) (h' : a' < bankStride) (hne : a ≠ a') : rkey b a ≠ rkey b' a' :=
  fun e => hne (by
    have := congrArg (· % bankStride) e
    simpa only [rkey_mod h, rkey_mod h'] using this)

theorem fld_setFldB_self (c : Chip) (b a : Nat) {hi lo : Nat} (v : Nat) (h : lo ≤ hi) (h32 : hi < 32) :
    fld (regB (setFldB c b a hi lo v) b a) hi lo = v % 2 ^ (hi - lo + 1) := by
  rw [regB_setFldB_self, fld_putFld_self _ _ h h32]

theorem fld_setFldB_other (c : Chip) (b a : Nat) {hi lo a' b' : Nat} (v : Nat) (h : lo ≤ hi) (hab : b' ≤ a')
    (hd : a' < lo ∨ hi < b') : fld (regB (setFldB c b a hi lo v) b a) a' b' = fld (regB c b a) a' b' := by
  rw [regB_setFldB_self, fld_putFld_other _ _ h hab hd]

theorem bit_setFldB (c : Chip) (b a : Nat) {hi lo : Nat} (v n : Nat) (h : lo ≤ hi) :
    bit (regB (setFldB c b a hi lo v) b a) n =
      if n < 32 ∧ lo ≤ n ∧ n ≤ hi then v.testBit (n - lo) else bit (regB c b a) n := by
  rw [regB_setFldB_self, bit_putFld _ _ _ h]

theorem bit_setFldB_other (c : Chip) (b a : Nat) {hi lo : Nat} (v n : Nat) (h : lo ≤ hi) (hn : n < lo ∨ hi < n) :
    bit (regB (setFldB c b a hi lo v) b a) n = bit (regB c b a) n := by
  rw [bit_setFldB _ _ _ _ _ h, if_neg (by omega)]

theorem bit_setFldB_one (c : Chip) (b a : Nat) {n : Nat} (h : n < 32) :
    bit (regB (setFldB c b a n n 1) b a) n = true := by
  rw [bit_setFldB _ _ _ _ _ (Nat.le_refl n), if_pos ⟨h, Nat.le_refl n, Nat.le_refl n⟩, Nat.sub_self]
  rfl

theorem bit_setFldB_zero (c : Chip) (b a : Nat) {n : Nat} (h : n < 32) :
    bit (regB (setFldB c b a n n 0) b a) n = false := by
  rw [bit_setFldB _ _ _ _ _ (Nat.le_refl n), if_pos ⟨h, Nat.le_refl n, Nat.le_refl n⟩, Nat.zero_testBit]

/-- A bit of a register's shown word, where a mask keeps it. -/
theorem bit_and_mask {w m : Word} {n : Nat} (h : bit m n = true) : bit (w &&& m) n = bit w n := by
  rw [bit, BitVec.getLsbD_and, show m.getLsbD n = true from h, Bool.and_true, bit]

theorem fld_and_mask {w m : Word} {hi lo : Nat} (h : ∀ n, lo ≤ n → n < lo + (hi - lo + 1) → bit m n = true) :
    fld (w &&& m) hi lo = fld w hi lo := fld_congr fun n h1 h2 => bit_and_mask (h n h1 h2)

/-- A stored field of a plain write reads as the word's. -/
theorem fld_setKey_masked (c : Chip) (a : Nat) {hi lo : Nat} (v : Word) (h : lo ≤ hi) (h32 : hi < 32) :
    fld (reg (setKey c (rkey 0 a) (maskOf hi lo) v) a) hi lo = fld v hi lo :=
  fld_congr fun n h1 h2 => by
    have hm : (maskOf hi lo).getLsbD n = true := by
      rw [getLsbD_maskOf h, decide_eq_true_eq]
      omega
    rw [reg, regKey_setKey_self]
    simp only [bit, BitVec.getLsbD_or, BitVec.getLsbD_and, BitVec.getLsbD_not, hm, Bool.not_true, Bool.and_false,
      Bool.and_true, Bool.false_or]

end Sys2Proof.Machine
end

section
/-! The black box (O53): the head that the newest valid record gives, the record that follows an erase, the window, and
markers. -/

namespace Sys2Proof.Machine

open Sys2Proof.Safety

/-! ### Bytes with their check value -/

theorem leNat_of_leBytes (n v : Nat) : leNat (leBytes n v) = v % 256 ^ n := by
  induction n generalizing v with
  | zero => rw [Nat.pow_zero, Nat.mod_one]; rfl
  | succ n ih =>
    show (BitVec.ofNat 8 v).toNat + 256 * leNat (leBytes n (v / 256)) = v % (256 ^ n * 256)
    rw [ih, BitVec.toNat_ofNat, Nat.mul_comm (256 ^ n) 256, Nat.mod_mul]

theorem revBits_lt_pow (n v : Nat) : revBits n v < 2 ^ n := by
  induction n generalizing v with
  | zero => exact Nat.one_pos
  | succ n ih =>
    have h := ih (v / 2)
    have h2 : v % 2 * 2 ^ n ≤ 1 * 2 ^ n := Nat.mul_le_mul_right _ (by omega)
    rw [revBits, Nat.pow_succ]
    omega

/-- A CRC-32C fits four bytes. -/
theorem crc32c_lt_pow (l : List Byte) : crc32c l < 2 ^ 32 :=
  Nat.xor_lt_two_pow (revBits_lt_pow 32 _) (by decide)

/-- Bytes with their CRC-32C behind them. -/
def withCrc (l : List Byte) : List Byte := l ++ leBytes 4 (crc32c l)

/-- The CRC behind `n` bytes is that of these bytes. -/
theorem rdLE_withCrc {l : List Byte} {n : Nat} (h : l.length = n) :
    rdLE (withCrc l) n 4 = crc32c ((withCrc l).take n) := by
  subst h
  rw [withCrc, rdLE, List.drop_left, List.take_left, List.take_of_length_le (by rw [length_leBytes]), leNat_of_leBytes]
  exact Nat.mod_eq_of_lt (crc32c_lt_pow l)

/-! ### The head at power-up -/

/-- Without a valid record none is the newest. -/
theorem bbNewest_none {c : Chip} (h : ∀ e ∈ c.flt.slots, bbValid e.2 = false) : bbNewest c = none := by
  unfold bbNewest
  generalize c.flt.slots = l at h
  induction l with
  | nil => rfl
  | cons e l ih =>
    rw [List.foldl_cons, if_neg (by rw [h e (by simp)]; exact Bool.false_ne_true)]
    exact ih fun x hx => h x (by simp [hx])

/-- The step of the search for the newest record. -/
def newer (m : Option (Nat × Nat)) (e : Nat × List Byte) : Option (Nat × Nat) :=
  if bbValid e.2 then
    match m with
    | none => some (e.1, rdLE e.2 4 4)
    | some (k, q) => if q < rdLE e.2 4 4 then some (e.1, rdLE e.2 4 4) else some (k, q)
  else m

theorem bbNewest_eq (c : Chip) : bbNewest c = c.flt.slots.foldl newer none := rfl

/-- What the search holds stays once it is the greatest. -/
theorem newer_keeps {e : Nat × List Byte} (l : List (Nat × List Byte))
    (h : ∀ x ∈ l, bbValid x.2 = true → x ≠ e → rdLE x.2 4 4 < rdLE e.2 4 4) :
    l.foldl newer (some (e.1, rdLE e.2 4 4)) = some (e.1, rdLE e.2 4 4) := by
  induction l with
  | nil => rfl
  | cons x l ih =>
    have hx : newer (some (e.1, rdLE e.2 4 4)) x = some (e.1, rdLE e.2 4 4) := by
      unfold newer
      split
      · rename_i hv
        by_cases hxe : x = e
        · simp [hxe]
        · have := h x (by simp) hv hxe
          simp only
          rw [if_neg (by omega)]
      · rfl
    rw [List.foldl_cons, hx]
    exact ih fun y hy => h y (by simp [hy])

/-- A search that holds a record of lower SEQ, or none, ends with the record of greatest SEQ. -/
theorem newer_finds {e : Nat × List Byte} (hv : bbValid e.2 = true) (l : List (Nat × List Byte))
    (m : Option (Nat × Nat)) (hm : ∀ x ∈ m, x.2 < rdLE e.2 4 4) (he : e ∈ l)
    (h : ∀ x ∈ l, bbValid x.2 = true → x ≠ e → rdLE x.2 4 4 < rdLE e.2 4 4) :
    l.foldl newer m = some (e.1, rdLE e.2 4 4) := by
  induction l generalizing m with
  | nil => simp at he
  | cons x l ih =>
    have hl : ∀ y ∈ l, bbValid y.2 = true → y ≠ e → rdLE y.2 4 4 < rdLE e.2 4 4 := fun y hy => h y (by simp [hy])
    rw [List.foldl_cons]
    by_cases hxe : x = e
    · have : newer m x = some (e.1, rdLE e.2 4 4) := by
        unfold newer
        rw [hxe, if_pos hv]
        cases m with
        | none => rfl
        | some y => simp only; rw [if_pos (hm y rfl)]
      rw [this]
      exact newer_keeps l hl
    · refine ih (newer m x) (fun y hy => ?_) (by simpa [Ne.symm hxe] using he) hl
      unfold newer at hy
      split at hy
      · rename_i hvx
        have hlt := h x (by simp) hvx hxe
        cases m with
        | none =>
          obtain rfl := Option.mem_some_iff.1 hy
          exact hlt
        | some z =>
          simp only at hy
          split at hy
          · obtain rfl := Option.mem_some_iff.1 hy
            exact hlt
          · obtain rfl := Option.mem_some_iff.1 hy
            exact hm _ rfl
      · exact hm y hy

/-- The head and SEQ that the slots give. -/
def foundHead (c : Chip) : Nat × Nat :=
  match bbNewest c with
  | none => (0, 0)
  | some (k, q) => ((k + 1) % 32768, q)

theorem foundHead_lt (c : Chip) : (foundHead c).1 < 32768 := by
  unfold foundHead
  split
  · exact (by decide : 0 < 32768)
  · exact Nat.mod_lt _ (by decide)

theorem bbDrain_nil {c : Chip} (h : c.flt.queue = []) : bbDrain c = c := by
  unfold bbDrain
  rw [h]
  rfl

/-- The chip once the head is known, with nothing held. -/
theorem bbHeadFound_spec {c : Chip} (h : c.flt.headKnown = false) (hq : c.flt.queue = []) :
    quiet (bbHeadFound c) = quiet c ∧
    (bbHeadFound c).flt = { c.flt with headKnown := true, erasing := (bbHeadFound c).flt.erasing } ∧
    bbHead (bbHeadFound c) = (foundHead c).1 ∧ reg (bbHeadFound c) aFLT_BB_SEQ = w32 (foundHead c).2 := by
  obtain ⟨er, he⟩ : ∃ er, bbHeadFound c =
      { setReg (setReg c aFLT_BB_HEAD (w32 (foundHead c).1)) aFLT_BB_SEQ (w32 (foundHead c).2) with
        flt := { c.flt with headKnown := true, erasing := er } } := by
    unfold bbHeadFound
    rw [if_neg (by rw [h]; exact Bool.false_ne_true)]
    exact ⟨_, bbDrain_nil hq⟩
  have hlt := foundHead_lt c
  rw [he]
  refine ⟨?_, rfl, ?_, ?_⟩
  · have : quiet (setReg (setReg c aFLT_BB_HEAD (w32 (foundHead c).1)) aFLT_BB_SEQ (w32 (foundHead c).2)) = quiet c := by
      rw [quiet_setReg, quiet_setReg]
    exact this
  · show fld (reg (setReg (setReg c aFLT_BB_HEAD _) aFLT_BB_SEQ _) aFLT_BB_HEAD) 14 0 = _
    rw [reg_setReg_other _ _ (by decide), reg_setReg_self, fld_w32 hlt (by decide)]
  · show reg (setReg _ aFLT_BB_SEQ _) aFLT_BB_SEQ = _
    rw [reg_setReg_self]

/-! ### A record that waited -/

/-- A record as it is programmed: SEQ and CRC filled in. -/
def finished (r : List Byte) (seq : Nat) : List Byte := withCrc (r.take 4 ++ leBytes 4 seq ++ (r.drop 8).take 244)

theorem length_finished {r : List Byte} (h : r.length = 256) (seq : Nat) :
    (r.take 4 ++ leBytes 4 seq ++ (r.drop 8).take 244).length = 252 := by
  simp only [List.length_append, List.length_take, List.length_drop, length_leBytes, h]
  rfl

/-- A finished record passes its CRC and keeps its KIND. -/
theorem finished_spec {r : List Byte} (h : r.length = 256) (seq : Nat) :
    bbValid (finished r seq) = true ∧ bbKind (finished r seq) = bbKind r := by
  have hl := length_finished h seq
  constructor
  · have h256 : (finished r seq).length = 256 := by
      rw [finished, withCrc, List.length_append, hl, length_leBytes]
    have hc := rdLE_withCrc hl
    rw [finished] at h256
    rw [bbValid, finished, h256, hc]
    exact Bool.and_eq_true_iff.2 ⟨decide_eq_true rfl, decide_eq_true rfl⟩
  · have h3 : 3 < (r.take 4).length := by rw [List.length_take, h]; decide
    unfold bbKind finished withCrc
    rw [List.getD_append _ _ _ _ (by rw [hl]; decide), List.append_assoc, List.getD_append _ _ _ _ h3]
    simp [List.getD_eq_getElem?_getD]

/-- What programming a record of the right length leaves. -/
theorem bbProgram_spec (c : Chip) (r : List Byte) :
    quiet (bbProgram c r) = quiet c ∧
    (bbProgram c r).flt = { c.flt with
      slots := tins c.flt.slots (bbHead c) (finished r ((reg c aFLT_BB_SEQ).toNat + 1))
      erasing := if bbHead c % 16 = 0 then some ((bbHead c / 16 + 1) % 2048) else c.flt.erasing } ∧
    bbHead (bbProgram c r) = (bbHead c + 1) % 32768 ∧
    reg (bbProgram c r) aFLT_BB_SEQ = reg c aFLT_BB_SEQ + 1 ∧
    (bbHead c = 32767 → bit (hdr (bbProgram c r) .flt).int 20 = true) := by
  obtain ⟨c1, hc1, hq1, hf1, hr1⟩ : ∃ c1 : Chip, (bbProgram c r =
      if bbHead c = 32767 then raise (setFld (setReg (setReg c1 aFLT_BB_SEQ (w32 ((reg c aFLT_BB_SEQ).toNat + 1)))
          aFLT_BB_HEAD (w32 ((bbHead c + 1) % 32768))) aFLT_STATUS 1 1 1) .flt 20
      else setFld (setReg (setReg c1 aFLT_BB_SEQ (w32 ((reg c aFLT_BB_SEQ).toNat + 1)))
          aFLT_BB_HEAD (w32 ((bbHead c + 1) % 32768))) aFLT_STATUS 1 1 1) ∧ quiet c1 = quiet c ∧
      c1.flt = { c.flt with
        slots := tins c.flt.slots (bbHead c) (finished r ((reg c aFLT_BB_SEQ).toNat + 1))
        erasing := if bbHead c % 16 = 0 then some ((bbHead c / 16 + 1) % 2048) else c.flt.erasing } ∧ True :=
    ⟨{ c with flt := { c.flt with
        slots := tins c.flt.slots (bbHead c) (finished r ((reg c aFLT_BB_SEQ).toNat + 1))
        erasing := if bbHead c % 16 = 0 then some ((bbHead c / 16 + 1) % 2048) else c.flt.erasing } }, rfl, rfl, rfl, trivial⟩
  generalize hc3 : setFld (setReg (setReg c1 aFLT_BB_SEQ (w32 ((reg c aFLT_BB_SEQ).toNat + 1)))
    aFLT_BB_HEAD (w32 ((bbHead c + 1) % 32768))) aFLT_STATUS 1 1 1 = c3 at hc1
  have hq3 : quiet c3 = quiet c := by rw [← hc3, quiet_setFld, quiet_setReg, quiet_setReg, hq1]
  have hf3 : c3.flt = c1.flt := by rw [← hc3]; rfl
  have hh3 : bbHead c3 = (bbHead c + 1) % 32768 := by
    unfold bbHead
    rw [← hc3, reg_setFld_other _ _ _ _ (by decide), reg_setReg_self]
    exact fld_w32 (Nat.mod_lt _ (by decide)) (by decide)
  have hs3 : reg c3 aFLT_BB_SEQ = reg c aFLT_BB_SEQ + 1 := by
    rw [← hc3, reg_setFld_other _ _ _ _ (by decide), reg_setReg_other _ _ (by decide), reg_setReg_self]
    exact BitVec.eq_of_toNat_eq (by simp [w32])
  rw [hc1]
  split
  · have hk := keepsRegs_raise c3 .flt 20
    refine ⟨by rw [quiet_raise, hq3], ?_, ?_, ?_, fun _ => raise_int _ _ _ (by decide)⟩
    · rw [flt_of_mute (mute_raise c3 .flt 20), hf3, hf1]
    · rw [bbHead, hk.reg (by decide)]; exact hh3
    · rw [hk.reg (by decide), hs3]
  · exact ⟨hq3, by rw [hf3, hf1], hh3, hs3, fun h => by contradiction⟩

/-- The one record that waits is programmed as the erase ends. -/
theorem bbDrain_one {c : Chip} {x : List Byte} (h : c.flt.queue = [x]) (hk : c.flt.headKnown = true)
    (he : c.flt.erasing = none) : bbDrain c = bbProgram { c with flt := { c.flt with queue := [] } } x := by
  unfold bbDrain
  rw [h]
  show bbDrainN 1 c = _
  unfold bbDrainN
  rw [h]
  have hfree : bbFree c = true := by simp [bbFree, hk, he]
  simp only [hfree, if_true]
  rfl

/-! ### Registers of FLT -/

theorem pageWrite_flt (c : Chip) {x : RegWr} (h : x.a / 0x4000 = 4) : pageWrite c x = writeFlt c x := by
  unfold pageWrite
  rw [h]
  rfl

theorem writeFlt_bbIndex (c : Chip) {x : RegWr} (h : x.a = aFLT_BB_INDEX) : writeFlt c x =
    (stOK, { storeReg c x with flt := { (storeReg c x).flt with loading := true, ready := false, crcOk := false } }) := by
  have h1 : x.a ≠ aFLT_LAST_CLASS := by rw [h]; decide
  have h2 : x.a ≠ aFLT_MODULE := by rw [h]; decide
  rw [writeFlt, if_neg h1, if_neg h2, if_pos h]

theorem writeFlt_bbMark (c : Chip) {x : RegWr} (h : x.a = aFLT_BB_MARK) (hp : x.plain = true) :
    writeFlt c x = bbMarkWrite c x := by
  have h1 : x.a ≠ aFLT_LAST_CLASS := by rw [h]; decide
  have h2 : x.a ≠ aFLT_MODULE := by rw [h]; decide
  have h3 : x.a ≠ aFLT_BB_INDEX := by rw [h]; decide
  rw [writeFlt, if_neg h1, if_neg h2, if_neg h3, if_pos h, if_pos hp]

/-- The row of BB_INDEX. -/
def rowBbIndex : RegRow := ⟨0x06c, 1, .none_, 0, [⟨14, 0, .rw, 0⟩]⟩

/-- The row of BB_MARK. -/
def rowBbMark : RegRow := ⟨0x074, 1, .none_, 0, [⟨31, 0, .wo, 0⟩]⟩

/-- A write of BB_INDEX: the slot is stored, and its copy into the window starts. -/
theorem mgmtWrite_bbIndex {c : Chip} {r : Requester} (slot : Word) (h : Reaches c r .flt) :
    ∃ d : Chip, mgmtWrite c r aFLT_BB_INDEX slot = keepStatus (answer d stOK 0) r stOK ∧ desk d = desk c ∧
      d.flt = { c.flt with loading := true, ready := false, crcOk := false } ∧
      fld (reg d aFLT_BB_INDEX) 14 0 = fld slot 14 0 := by
  obtain ⟨x, hx, hw⟩ := mgmtWriteWith_rule (a := aFLT_BB_INDEX) (row := rowBbIndex) noArgs slot h (by decide) rfl rfl
    (fun y => absurd y (by decide))
  have hs : storeReg (setArmed c r .flt false) x =
      setKey (setArmed c r .flt false) (rkey 0 aFLT_BB_INDEX) (maskOf 14 0) slot := by
    rw [storeReg_single _ hx.lo, hx.bank, hx.addr, hx.row, hx.new, show storeMask rowBbIndex = maskOf 14 0 by decide]
    rfl
  rw [show pageOf (aFLT_BB_INDEX / 0x4000) = .flt from rfl, pageWrite_flt _ (by rw [hx.addr]; rfl),
    writeFlt_bbIndex _ hx.addr, hs, setKey_flt, flt_setArmed] at hw
  have hd := (desk_of_quiet (quiet_setKey (setArmed c r .flt false) (rkey 0 aFLT_BB_INDEX) (maskOf 14 0) slot)).trans
    (desk_setArmed c r .flt false)
  have hfld := fld_setKey_masked (setArmed c r .flt false) aFLT_BB_INDEX slot (by decide : 0 ≤ 14) (by decide)
  generalize setKey (setArmed c r .flt false) (rkey 0 aFLT_BB_INDEX) (maskOf 14 0) slot = d at hw hd hfld
  exact ⟨_, hw, hd, rfl, hfld⟩

/-- A write of BB_MARK. -/
theorem mgmtWrite_bbMark {c : Chip} {r : Requester} (v : Word) (early : Bool) (h : Reaches c r .flt) :
    mgmtWriteWith c r { noArgs with early := some early } aFLT_BB_MARK v =
      if early then keepStatus (answer (setArmed c r .flt false) rejBusy 0) r rejBusy
      else keepStatus (answer (bbPlain (setArmed c r .flt false) 7 v) stOK 0) r stOK := by
  obtain ⟨x, hx, hw⟩ := mgmtWriteWith_rule (a := aFLT_BB_MARK) (row := rowBbMark) { noArgs with early := some early } v h
    (by decide) rfl rfl (fun y => absurd y (by decide))
  have hm : bbMarkWrite (setArmed c r .flt false) x =
      if early then (rejBusy, setArmed c r .flt false) else (stOK, bbPlain (setArmed c r .flt false) 7 v) := by
    simp only [bbMarkWrite, hx.args, hx.part, hx.raw, ne_eq, not_true_eq_false, if_false]
  rw [show pageOf (aFLT_BB_MARK / 0x4000) = .flt from rfl, pageWrite_flt _ (by rw [hx.addr]; rfl),
    writeFlt_bbMark _ hx.addr hx.plain, hm] at hw
  rw [hw]
  cases early
  · simp only [Bool.false_eq_true, if_false]
  · simp only [if_true]

/-- The bytes of a record between its KIND and its mark. -/
def bbMiddle (c : Chip) (cls level page : Nat) (info : Word) (addr : DWord) (m f : Nat) : List Byte :=
  leBytes 4 0 ++ leBytes 4 c.flt.boots ++ leBytes 4 m ++ leBytes 8 (if fastAwake c then f else 0) ++
    [BitVec.ofNat 8 cls, BitVec.ofNat 8 level, BitVec.ofNat 8 page, 0] ++ leBytes 4 info.toNat ++
    leBytes 8 addr.toNat ++ stateBytes c ++ [0] ++ leBytes 2 (fld (reg c aPWR_PWR_NOW) 15 0) ++
    leBytes 2 (fld (reg c aPWR_TJ) 11 0) ++ leBytes 1 (fld (reg c aPWR_TJ) 20 16) ++
    leBytes 1 (fld (reg c aPWR_LIMIT) 4 0) ++ leBytes 4 (reg c aPWR_ROW_POINT0).toNat ++
    leBytes 4 (reg c aPWR_ROW_POINT1).toNat ++ leBytes 8 (if figPowered c then c.fig.seq else 0) ++
    leBytes 8 (pair c aSEC_DEVICE_ID_LO) ++ leBytes 8 c.chip.lastBundle.toNat ++
    leBytes 1 (fld (reg c aSEC_BOOT_STAT) 23 16) ++ leBytes 1 (b2n c.chip.bank) ++ [0, 0]

theorem bbBytes_eq (c : Chip) (kind cls level page : Nat) (info : Word) (addr : DWord) (mark : Word) (m f : Nat) :
    bbBytes c kind cls level page info addr mark m f =
      [0x42, 0x42, 1, BitVec.ofNat 8 kind] ++ (bbMiddle c cls level page info addr m f ++
        (leBytes 4 mark.toNat ++ List.replicate 140 0)) := by
  unfold bbBytes bbMiddle
  repeat rw [List.append_assoc]

theorem length_stateBytes (c : Chip) : (stateBytes c).length = 25 := by rw [stateBytes, List.length_map]; rfl

theorem length_bbMiddle (c : Chip) (cls level page : Nat) (info : Word) (addr : DWord) (m f : Nat) :
    (bbMiddle c cls level page info addr m f).length = 104 := by
  unfold bbMiddle
  simp only [List.length_append, length_leBytes, length_stateBytes, List.length_cons, List.length_nil]

/-- A record carries its KIND at byte 3 and its mark at byte 0x6C. -/
theorem bbBytes_mark (c : Chip) (kind cls level page : Nat) (info : Word) (addr : DWord) (mark : Word) (m f : Nat) :
    bbKind (bbBytes c kind cls level page info addr mark m f) = kind % 256 ∧
    rdLE (bbBytes c kind cls level page info addr mark m f) 0x6C 4 = mark.toNat := by
  have hl := length_bbMiddle c cls level page info addr m f
  rw [bbBytes_eq]
  constructor
  · rw [bbKind]
    exact BitVec.toNat_ofNat kind 8
  · rw [rdLE, ← List.append_assoc, List.drop_left' (by rw [List.length_append, hl]; rfl),
      List.take_left' (length_leBytes 4 _), leNat_of_leBytes]
    exact Nat.mod_eq_of_lt mark.isLt

/-- A record that is no KIND 4 waits while the head is not known. -/
theorem bbAppend_waits {c : Chip} {r : List Byte} (hk : bbKind r ≠ 4) (hh : c.flt.headKnown = false)
    (hq : c.flt.queue.length < 64) : bbAppend c r = { c with flt := { c.flt with queue := c.flt.queue ++ [r] } } := by
  have hfree : bbFree c = false := by simp [bbFree, hh]
  unfold bbAppend
  rw [if_neg hk, if_neg (by simp [hfree]), bbQueue, if_pos hq]

/-- A record that is made waits likewise, with its mark. -/
theorem bbRecord_waits {c : Chip} {kind : Nat} (cls level page : Nat) (info : Word) (addr : DWord) (mark : Word)
    (hk : kind % 256 ≠ 4) (hh : c.flt.headKnown = false) (hq : c.flt.queue.length < 64) :
    ∃ x, (bbRecord c kind cls level page info addr mark).flt = { c.flt with queue := c.flt.queue ++ [x] } ∧
      bbKind x = kind % 256 ∧ rdLE x 0x6C 4 = mark.toNat := by
  have hb := bbBytes_mark (takeFine (takeTick c).2).2 kind cls level page info addr mark (takeTick c).1
    (takeFine (takeTick c).2).1
  refine ⟨_, ?_, hb⟩
  have he : bbRecord c kind cls level page info addr mark = bbAppend (takeFine (takeTick c).2).2
      (bbBytes (takeFine (takeTick c).2).2 kind cls level page info addr mark (takeTick c).1
        (takeFine (takeTick c).2).1) := rfl
  rw [he, bbAppend_waits (c := (takeFine (takeTick c).2).2) (by rw [hb.1]; exact hk) hh hq]
  rfl

/-! ### The statement -/

/-- Settles O53: the search for the newest record is a fold that keeps the greatest SEQ, and each other command moves the
head or the queue by one record. -/
theorem blackBox : Obligations.BlackBox := by
  intro s f
  refine ⟨fun hm => ⟨fun hk => ?_, fun hk hq => ?_⟩, fun he => ?_, fun sec he => ⟨fun hq => ?_, fun x hq hk hx => ?_⟩,
    fun r hr => ⟨fun slot => ?_, fun v => ⟨?_, ?_⟩⟩, fun hl => ?_, fun hl => ?_⟩
  · show act s (fun c => if minuetOn c then bbHeadFound c else c) = _
    rw [act, if_pos hm, bbHeadFound, if_pos hk]; rfl
  · intro found
    have he : exec .bbHeadFound s = .next (after s (bbHeadFound s.toChip)) := by
      show act s (fun c => if minuetOn c then bbHeadFound c else c) = _
      rw [act, if_pos hm]; rfl
    obtain ⟨h1, h2, h3, h4⟩ := bbHeadFound_spec hk hq
    refine ⟨fun hno => ?_, fun e hmem hv hmax => ?_⟩
    · have hz : foundHead s.toChip = (0, 0) := by rw [foundHead, bbNewest_none hno]
      rw [hz] at h3 h4
      exact ⟨_, he, rfl, (quiet_after _ _).trans h1, h2, h3, h4⟩
    · have hz : foundHead s.toChip = ((e.1 + 1) % 32768, rdLE e.2 4 4) := by
        rw [foundHead, bbNewest_eq, newer_finds hv _ none (by simp) hmem hmax]
      rw [hz] at h3 h4
      exact ⟨_, he, rfl, (quiet_after _ _).trans h1, h2, h3, h4⟩
  · show act s bbEraseDone = _
    rw [act, bbEraseDone, show s.flt.erasing = none from he]; rfl
  · show act s bbEraseDone = _
    rw [act, bbEraseDone, show s.flt.erasing = some sec from he]
    simp only
    rw [bbDrain_nil (c := { s.toChip with flt := { f with
      erasing := none, slots := f.slots.filter (fun e => e.1 / 16 ≠ sec) } }) hq]; rfl
  · have hexec : exec .bbSectorEraseDone s = .next (after s (bbProgram { s.toChip with flt := { f with
        erasing := none, slots := f.slots.filter (fun e => e.1 / 16 ≠ sec), queue := [] } } x)) := by
      show act s bbEraseDone = _
      rw [act, bbEraseDone, show s.flt.erasing = some sec from he]
      simp only
      rw [bbDrain_one (c := { s.toChip with flt := { f with
        erasing := none, slots := f.slots.filter (fun e => e.1 / 16 ≠ sec) } }) hq hk rfl]; rfl
    obtain ⟨h1, h2, h3, h4, h5⟩ := bbProgram_spec { s.toChip with flt := { f with
      erasing := none, slots := f.slots.filter (fun e => e.1 / 16 ≠ sec), queue := [] } } x
    refine ⟨_, hexec, rfl, (quiet_after _ _).trans h1, ?_⟩
    refine ⟨?_, h3, h4, ⟨finished x ((reg s.toChip aFLT_BB_SEQ).toNat + 1), ?_, ?_, ?_⟩, fun j hj => ?_, ?_, h5⟩
    · rw [after_flt, h2]
    · rw [after_flt, h2]; exact tfind_tins_self _ _ _
    · exact (finished_spec hx _).2
    · exact (finished_spec hx _).1
    · rw [after_flt, h2]; exact tfind_tins_other _ _ _ _ hj
    · rw [after_flt, h2]; rfl
  · obtain ⟨d, hd, hdesk, hflt, hfld⟩ := mgmtWrite_bbIndex slot hr
    have he : exec (.bbIndex r slot) s = act s (fun c => mgmtWrite c r aFLT_BB_INDEX slot) := rfl
    rw [act, hd] at he
    exact accepted_of he hdesk ⟨(flt_drive ..).trans hflt, by rw [reg_drive, hfld]⟩
  · have he : exec (.bbMark r v true) s =
        act s (fun c => mgmtWriteWith c r { noArgs with early := some true } aFLT_BB_MARK v) := rfl
    rw [act, mgmtWrite_bbMark v true hr, if_pos rfl] at he
    exact answered_of he (desk_setArmed ..) ((flt_drive ..).trans (flt_setArmed ..))
  · have he : exec (.bbMark r v false) s =
        act s (fun c => mgmtWriteWith c r { noArgs with early := some false } aFLT_BB_MARK v) := rfl
    rw [act, mgmtWrite_bbMark v false hr, if_neg Bool.false_ne_true] at he
    refine accepted_of he ((desk_of_quiet (quiet_bbPlain _ 7 v)).trans (desk_setArmed ..)) fun hh hq => ?_
    obtain ⟨x, hx, hkind, hmark⟩ := bbRecord_waits (c := setArmed s.toChip r .flt false) (kind := 7) 0 0xFF 4 0 0 v (by decide)
      (by rw [flt_setArmed]; exact hh) (by rw [flt_setArmed]; exact hq)
    refine ⟨x, ?_, hkind, hmark⟩
    rw [flt_drive, bbPlain, hx, flt_setArmed]
  · show act s bbWindowReady = _
    rw [act, bbWindowReady, if_pos hl]; rfl
  · intro x
    show act s bbWindowReady = _
    rw [act, bbWindowReady, if_neg (by rw [show s.flt.loading = true from hl]; exact Bool.true_eq_false_eq_False)]; rfl

end Sys2Proof.Machine
end

section
/-! The patrol scrub and a retraining that fails (O34). -/

namespace Sys2Proof.Machine

open Sys2Proof.Safety

/-! ### The first report of a fault -/

/-- Where no fault is kept, a report of a listed class is a fault of its own. -/
theorem fault_first {c : Chip} {cls : Nat} (p : Page) (i a : Nat) (hi : Bool) (hr : c.flt.reports = []) (h0 : 0 < cls)
    (h1 : cls ≤ 0x1E) (h11 : cls ≠ 0x11) :
    fault c cls p i a hi = reportAt (bumpB c cls aFLT_CLASS_CNT 1)
      { cls := BitVec.ofNat 8 cls, page := p, info := w32 i, addr := w64 a, higher := hi, together := false }
      (levelOf { cls := BitVec.ofNat 8 cls, page := p, info := w32 i, addr := w64 a, higher := hi, together := false }) := by
  have hc : (BitVec.ofNat 8 cls).toNat = cls := by rw [BitVec.toNat_ofNat]; omega
  have hs : ∀ f, sameFault c f = none := fun f => by rw [sameFault, hr]; rfl
  unfold fault
  simp only [hs, Option.isNone_none, if_true]
  unfold report
  simp only [hc, hs]
  rw [if_neg (by omega), faultState, if_neg (by rw [hc]; omega)]
  rfl

/-- A report at level 3 begins the module reaction. -/
theorem startReaction_module (c : Chip) {cls : Nat} (h : cls ≠ 0x15) :
    (startReaction c cls 3).flt.modulePending = true := by
  unfold startReaction
  rw [if_pos ⟨rfl, h⟩]

/-! ### What an address holds -/

/-- A change of GDR's own registers and of events leaves what every address holds. -/
theorem placeOf_congr {c d : Chip} (hq : quiet d = quiet c)
    (hr : ∀ k, noisyKey k = false → k % bankStride / 0x4000 ≠ 8 → regKey d k = regKey c k)
    (hb : ∀ p, bstate d p = bstate c p) (a : Nat) : placeOf d a = placeOf c a := by
  have hreg : ∀ x, noisyKey (rkey 0 x) = false → rkey 0 x % bankStride / 0x4000 ≠ 8 → reg d x = reg c x :=
    fun x h1 h2 => hr _ h1 h2
  have hpair : ∀ x, noisyKey (rkey 0 x) = false → rkey 0 x % bankStride / 0x4000 ≠ 8 → noisyKey (rkey 0 (x + 4)) = false →
      rkey 0 (x + 4) % bankStride / 0x4000 ≠ 8 → pair d x = pair c x := fun x h1 h2 h3 h4 => by
    rw [pair, pairB, pair, pairB, regB, regB, regB, regB, hr _ h1 h2, hr _ h3 h4]
  have htier : d.tier = c.tier := congrArg (·.tier) hq
  have hsess : d.sess = c.sess := congrArg (·.sess) hq
  have hup : ∀ p, isUp d p = isUp c p := fun p => by rw [isUp, isUp, hb]
  have hst : ∀ b, stateOwner d b = stateOwner c b := fun b => by rw [stateOwner, stateOwner, hsess]
  have hbo : ∀ b, blockOwnerAt d b = blockOwnerAt c b := fun b => by rw [blockOwnerAt, blockOwnerAt, htier]
  unfold placeOf stageSize ledgerSize dirBase
  simp only [hup, htier, hst, hbo, hpair aFIG_LOG_BASE_LO (by decide) (by decide) (by decide) (by decide),
    hpair aFIG_STAGE_BASE_LO (by decide) (by decide) (by decide) (by decide),
    hpair aTIER_LEDGER_BASE_LO (by decide) (by decide) (by decide) (by decide),
    hpair aSESS_DIR_BASE_LO (by decide) (by decide) (by decide) (by decide),
    hreg aFIG_STAGE_SIZE (by decide) (by decide), hreg aTIER_LEDGER_SIZE (by decide) (by decide)]

/-! ### A burst that the patrol meets -/

/-- A chip reached by counting in GDR's registers, by events and by one report of a class, at most. -/
structure Burst (c d : Chip) (log : Nat) : Prop where
  quiet : quiet d = quiet c
  classes : (regB d 8 aFLT_CLASS_CNT).toNat = min ((regB c 8 aFLT_CLASS_CNT).toNat + log) 0xFFFFFFFF
  passes : reg d aGDR_SCRUB_PASSES = reg c aGDR_SCRUB_PASSES

theorem Burst.none (c : Chip) : Burst c c 0 := by
  refine ⟨rfl, ?_, rfl⟩
  have := (regB c 8 aFLT_CLASS_CNT).isLt
  omega

theorem bstate_raise (c : Chip) (p q : Page) (b : Nat) : bstate (raise c p b) q = bstate c q :=
  congrArg (·.state) ((minor_raise c p b).hdrs q)

/-- What counting an uncorrectable burst leaves. -/
structure UeCounted (c d : Chip) (a : Nat) : Prop where
  quiet : Safety.quiet d = Safety.quiet c
  other : ∀ k, eventKey k = false → k ∉ [rkey 0 aGDR_UE_CNT, rkey 0 aGDR_UE_ADDR_LO, rkey 0 (aGDR_UE_ADDR_LO + 4)] →
    regKey d k = regKey c k
  state : ∀ p, bstate d p = bstate c p
  count : (reg d aGDR_UE_CNT).toNat = min ((reg c aGDR_UE_CNT).toNat + 1) 0xFFFFFFFF
  addr : pair d aGDR_UE_ADDR_LO = a % 2 ^ 64
  event : bit (hdr d .gdr).int 16 = true
  ints : ∀ p b, bit (hdr c p).int b = true → bit (hdr d p).int b = true

theorem hdr_bump (c : Chip) (a n : Nat) (p : Page) : hdr (bump c a n) p = hdr c p := by
  unfold bump bumpB
  split <;> rfl

theorem hdr_setPair (c : Chip) (a v : Nat) (p : Page) : hdr (setPair c a v) p = hdr c p := rfl

theorem countUe_spec (c : Chip) (a : Nat) : UeCounted c (countUe c a) a := by
  have hm := minor_raise (setPair (bump c aGDR_UE_CNT 1) aGDR_UE_ADDR_LO a) .gdr 16
  have hk := keepsRegs_raise (setPair (bump c aGDR_UE_CNT 1) aGDR_UE_ADDR_LO a) .gdr 16
  have hh : ∀ p, hdr (setPair (bump c aGDR_UE_CNT 1) aGDR_UE_ADDR_LO a) p = hdr c p := fun p => by
    rw [hdr_setPair, hdr_bump]
  refine ⟨?_, fun k h1 h2 => ?_, fun p => ?_, ?_, ?_, raise_int _ _ _ (by decide), fun p b h => hm.ints p b (by rw [hh]; exact h)⟩
  · exact hm.quiet.trans (by rw [quiet_setPair, quiet_bump])
  · simp only [List.mem_cons, List.not_mem_nil, or_false, not_or] at h2
    obtain ⟨ha, hb, hc⟩ := h2
    refine (hk k h1).trans ?_
    rw [setPair, regKey_setPairB_other _ _ _ _ hb hc, regKey_bump_other _ _ _ ha]
  · rw [countUe, bstate_raise, bstate, hh, bstate]
  · rw [countUe, hk.reg (by decide), setPair, show reg (setPairB (bump c aGDR_UE_CNT 1) 0 aGDR_UE_ADDR_LO a) aGDR_UE_CNT =
      reg (bump c aGDR_UE_CNT 1) aGDR_UE_CNT from regKey_setPairB_other _ _ _ _ (by decide) (by decide)]
    exact toNat_reg_bump ..
  · have hp : pair (countUe c a) aGDR_UE_ADDR_LO = pair (setPair (bump c aGDR_UE_CNT 1) aGDR_UE_ADDR_LO a) aGDR_UE_ADDR_LO :=
      pairB_kept (hk.regB (by decide)) (hk.regB (by decide))
    rw [hp]
    exact pairB_setPairB ..

/-- A report of class 0x08 counts once and leaves the registers of GDR and every event. -/
theorem fault08_spec (c : Chip) (i a : Nat) :
    let d := fault c 0x08 .gdr i a false
    quiet d = quiet c ∧
    (regB d 8 aFLT_CLASS_CNT).toNat = min ((regB c 8 aFLT_CLASS_CNT).toNat + 1) 0xFFFFFFFF ∧
    (∀ k, noisyKey k = false → regKey d k = regKey c k) ∧
    (∀ p b, bit (hdr c p).int b = true → bit (hdr d p).int b = true) := by
  have hm := minor_fault c 0x08 .gdr i a false (by decide)
  exact ⟨hm.quiet, toNat_classCnt_fault c .gdr i a false (by decide) (by decide), hm.regs, hm.ints⟩

/-- A counted burst whose report is of class 0x08. -/
theorem burst_counted (c : Chip) (a n : Nat) (i x : Nat) (hn : noisyKey (rkey 0 a) = false) (hp : a ≠ aGDR_SCRUB_PASSES)
    (ha : a < bankStride) :
    Burst c (fault (bump c a n) 0x08 .gdr i x false) 1 ∧
    (reg (fault (bump c a n) 0x08 .gdr i x false) a).toNat = min ((reg c a).toNat + n) 0xFFFFFFFF := by
  obtain ⟨hq, hc, hr, -⟩ := fault08_spec (bump c a n) i x
  have hne : ∀ {b y : Nat}, y < bankStride → y ≠ a → rkey b y ≠ rkey 0 a := fun hy hya h => hya (by
    have := congrArg (· % bankStride) h
    simpa only [rkey_mod hy, rkey_mod ha] using this)
  have hcls : aFLT_CLASS_CNT ≠ a := fun h => by
    rw [← h] at hn; exact absurd hn (by decide)
  refine ⟨⟨by rw [hq, quiet_bump], ?_, ?_⟩, ?_⟩
  · rw [hc, regB, regKey_bump_other _ _ _ (hne (by decide) hcls), regB]
  · exact (hr _ (by decide)).trans (regKey_bump_other _ _ _ (hne (by decide) (Ne.symm hp)))
  · rw [show reg (fault (bump c a n) 0x08 .gdr i x false) a = reg (bump c a n) a from hr _ hn]
    exact toNat_reg_bump ..

/-- An uncorrectable burst where nothing of R112 stands: counted, its address kept, its event raised, and reported. -/
theorem burst_ue {c : Chip} {a : Nat} (h : placeOf c a = .other) :
    let d := uncorrectable (countUe c a) 0x08 a
    Burst c d 1 ∧ (reg d aGDR_UE_CNT).toNat = min ((reg c aGDR_UE_CNT).toNat + 1) 0xFFFFFFFF ∧
    pair d aGDR_UE_ADDR_LO = a % 2 ^ 64 ∧ bit (hdr d .gdr).int 16 = true ∧
    reg d aGDR_RETRY_CNT = reg c aGDR_RETRY_CNT ∧
    (∀ p b, bit (hdr c p).int b = true → bit (hdr d p).int b = true) := by
  intro d
  have hu := countUe_spec c a
  have hpl : placeOf (countUe c a) a = .other := by
    rw [placeOf_congr hu.quiet (fun k hk h8 => hu.other k ?_ ?_) hu.state, h]
    · simp only [noisyKey, Bool.or_eq_false_iff, decide_eq_false_iff_not] at hk
      obtain ⟨-, ⟨⟨h1, h2⟩, -⟩, h3⟩ := hk
      simp only [eventKey, Bool.or_eq_false_iff, decide_eq_false_iff_not]
      exact ⟨⟨h1, h2⟩, h3⟩
    · intro hmem
      simp only [List.mem_cons, List.not_mem_nil, or_false] at hmem
      rcases hmem with e | e | e <;> exact h8 (by rw [e]; decide)
  have hd : d = fault (countUe c a) 0x08 .gdr (channelOf (countUe c a) a) a false := by
    show uncorrectable _ _ _ = _
    unfold uncorrectable
    rw [hpl]
  obtain ⟨hq, hc, hr, hi⟩ := fault08_spec (countUe c a) (channelOf (countUe c a) a) a
  rw [← hd] at hq hc hr hi
  have hreg : ∀ x, noisyKey (rkey 0 x) = false → reg d x = reg (countUe c a) x := fun x hx => hr _ hx
  refine ⟨⟨hq.trans hu.quiet, ?_, ?_⟩, ?_, ?_, hi _ _ hu.event, ?_, fun p b hb => hi p b (hu.ints p b hb)⟩
  · rw [hc, regB, hu.other _ (by decide) (by decide), regB]
  · exact (hreg _ (by decide)).trans (hu.other _ (by decide) (by decide))
  · rw [hreg _ (by decide), hu.count]
  · exact (pairB_kept (hr _ (by decide)) (hr _ (by decide))).trans hu.addr
  · exact (hreg _ (by decide)).trans (hu.other _ (by decide) (by decide))

/-- The end of a pass: it is counted and its event is raised. -/
def passEnded (c : Chip) (p : Bool) : Chip := if p then raise (bump c aGDR_SCRUB_PASSES 1) .gdr 18 else c

theorem patrol_eq (c : Chip) (a : Nat) (res : EccResult) (p : Bool) :
    patrol c a res p = passEnded (readBurst c 0x08 0x08 a res) p := rfl

/-- What the end of a pass keeps. -/
theorem passEnded_spec (c : Chip) (p : Bool) :
    quiet (passEnded c p) = quiet c ∧
    (reg (passEnded c p) aGDR_SCRUB_PASSES).toNat =
      min ((reg c aGDR_SCRUB_PASSES).toNat + if p then 1 else 0) 0xFFFFFFFF ∧
    (p = true → bit (hdr (passEnded c p) .gdr).int 18 = true) ∧
    (∀ k, eventKey k = false → k ≠ rkey 0 aGDR_SCRUB_PASSES → regKey (passEnded c p) k = regKey c k) ∧
    (∀ q b, bit (hdr c q).int b = true → bit (hdr (passEnded c p) q).int b = true) := by
  cases p with
  | false =>
    refine ⟨rfl, ?_, fun h => absurd h Bool.false_ne_true, fun _ _ _ => rfl, fun _ _ h => h⟩
    have := (reg c aGDR_SCRUB_PASSES).isLt
    simp only [passEnded, Bool.false_eq_true, if_false]
    omega
  | true =>
    have hk := keepsRegs_raise (bump c aGDR_SCRUB_PASSES 1) .gdr 18
    have hp : passEnded c true = raise (bump c aGDR_SCRUB_PASSES 1) .gdr 18 := rfl
    rw [hp]
    refine ⟨by rw [quiet_raise, quiet_bump], ?_, fun _ => raise_int _ _ _ (by decide), fun k h1 h2 => ?_, fun q b h => ?_⟩
    · rw [hk.reg (by decide)]
      exact toNat_reg_bump ..
    · exact (hk k h1).trans (regKey_bump_other _ _ _ h2)
    · exact (minor_raise _ _ _).ints q b (by rw [hdr_bump]; exact h)

/-! ### The statement -/

/-- PATROL_SCRUB on an idle chip. -/
theorem exec_patrolScrub {s : State} (addr : BitVec 38) (res : EccResult) (p : Bool) (ha : Awake s.toChip)
    (hu : isUp s.toChip .gdr = true) (hf : FigIdle s.toChip)
    (hq : quiet (readBurst s.toChip 0x08 0x08 addr.toNat res) = quiet s.toChip) :
    exec (.patrolScrub addr res p) s = .next (after s (passEnded (readBurst s.toChip 0x08 0x08 addr.toNat res) p)) := by
  have he : exec (.patrolScrub addr res p) s = act s (fun c => whenAwake c (fun c =>
    if isUp c .gdr then kick (settle (patrol (settle c) addr.toNat res p)) else c)) := rfl
  have hq' := (passEnded_spec (readBurst s.toChip 0x08 0x08 addr.toNat res) p).1.trans hq
  rw [he, act_whenAwake ha, if_pos hu, settle_idle hf.1.1, patrol_eq,
    kick_settle_idle (d := passEnded _ p) hf.1 (congrArg (·.fig) hq') (congrArg (·.sess) hq') (congrArg (·.tier) hq')]

/-- A patrolled burst, with what its end leaves. -/
theorem patrolled {s : State} {addr : BitVec 38} {res : EccResult} {log : Nat} {q : State → Prop} (p : Bool)
    (ha : Awake s.toChip) (hu : isUp s.toChip .gdr = true) (hf : FigIdle s.toChip)
    (hb : Burst s.toChip (readBurst s.toChip 0x08 0x08 addr.toNat res) log)
    (h : ∀ t : State, t.toChip = drivePins (passEnded (readBurst s.toChip 0x08 0x08 addr.toNat res) p) →
      Logged s t 0x08 log → q t) :
    Quietly (.patrolScrub addr res p) s s.toChip (fun t => (Counted s t aGDR_SCRUB_PASSES (if p then 1 else 0) ∧
      (p = true → Event t .gdr 18)) ∧ q t) := by
  obtain ⟨hq, hc, he, hr, -⟩ := passEnded_spec (readBurst s.toChip 0x08 0x08 addr.toNat res) p
  refine ⟨_, exec_patrolScrub addr res p ha hu hf hb.quiet, rfl, (quiet_after _ _).trans (hq.trans hb.quiet),
    ⟨?_, fun hp => he hp⟩, h _ rfl ?_⟩
  · rw [Counted, reg_after, hc, hb.passes]
  · have hcl : regB (after s (passEnded (readBurst s.toChip 0x08 0x08 addr.toNat res) p)).toChip 8 aFLT_CLASS_CNT =
        regB (readBurst s.toChip 0x08 0x08 addr.toNat res) 8 aFLT_CLASS_CNT := hr _ (by decide) (by decide)
    rw [Logged, hcl, hb.classes]

/-- A register of GDR but the pass counter is not moved by the end of a pass. -/
theorem reg_passEnded (c : Chip) (p : Bool) {a : Nat} (h : eventKey (rkey 0 a) = false)
    (h' : rkey 0 a ≠ rkey 0 aGDR_SCRUB_PASSES) : reg (drivePins (passEnded c p)) a = reg c a :=
  (passEnded_spec c p).2.2.2.1 _ h h'

theorem event_passEnded {c : Chip} (p : Bool) {q : Page} {b : Nat} (h : bit (hdr c q).int b = true) :
    bit (hdr (drivePins (passEnded c p)) q).int b = true := (passEnded_spec c p).2.2.2.2 _ _ h

/-- A retry that ends in a lost burst. -/
theorem burst_retryOut {c : Chip} {a : Nat} (h : placeOf c a = .other) :
    let d := readBurst c 0x08 0x08 a .retryOut
    Burst c d 1 ∧ (reg d aGDR_RETRY_CNT).toNat = min ((reg c aGDR_RETRY_CNT).toNat + 4) 0xFFFFFFFF ∧
    (reg d aGDR_UE_CNT).toNat = min ((reg c aGDR_UE_CNT).toNat + 1) 0xFFFFFFFF ∧
    bit (hdr d .gdr).int 19 = true ∧ bit (hdr d .gdr).int 16 = true := by
  intro d
  have hm := minor_raise (bump c aGDR_RETRY_CNT 4) .gdr 19
  have hk := keepsRegs_raise (bump c aGDR_RETRY_CNT 4) .gdr 19
  have hkey : ∀ k, eventKey k = false → k ≠ rkey 0 aGDR_RETRY_CNT →
      regKey (raise (bump c aGDR_RETRY_CNT 4) .gdr 19) k = regKey c k :=
    fun k h1 h2 => (hk k h1).trans (regKey_bump_other _ _ _ h2)
  have hpl : placeOf (raise (bump c aGDR_RETRY_CNT 4) .gdr 19) a = .other := by
    rw [placeOf_congr (c := c) (by rw [hm.quiet, quiet_bump]) (fun k hk' h8 => ?_) (fun p => ?_), h]
    · exact (hm.regs k hk').trans (regKey_bump_other _ _ _ (fun e => h8 (by rw [e]; decide)))
    · rw [bstate_raise, bstate, hdr_bump, bstate]
  obtain ⟨hb, hue, -, he, hre, hi⟩ := burst_ue hpl
  refine ⟨⟨hb.quiet.trans (by rw [hm.quiet, quiet_bump]), ?_, ?_⟩, ?_, ?_, hi _ _ (raise_int _ _ _ (by decide)), he⟩
  · refine hb.classes.trans ?_
    rw [regB, hkey _ (by decide) (by decide), regB]
  · exact hb.passes.trans (hkey _ (by decide) (by decide))
  · rw [show reg d aGDR_RETRY_CNT = _ from hre, hk.reg (by decide)]
    exact toNat_reg_bump ..
  · refine hue.trans ?_
    rw [reg, hkey _ (by decide) (by decide), reg]

/-- What a failed retraining leaves. -/
theorem retrain_fails {c : Chip} {ch : Nat} (hu : isUp c .gdr = true) (hb : bit (reg c aGDR_RETRAIN) 0 = true) :
    retrain c ch false = fault (raise (setFld (setFld c aGDR_CH_READY ch ch 0) aGDR_CH_FAULT ch ch 1) .gdr 17)
      0x09 .gdr ch 0 false := by
  unfold retrain
  rw [if_neg (by simp [hu, hb])]

theorem retrain_fails_spec {c : Chip} {ch : Nat} (hch : ch < 32) (hr : c.flt.reports = []) :
    let d := fault (raise (setFld (setFld c aGDR_CH_READY ch ch 0) aGDR_CH_FAULT ch ch 1) .gdr 17) 0x09 .gdr ch 0 false
    quiet d = quiet c ∧ bit (reg d aGDR_CH_READY) ch = false ∧ bit (reg d aGDR_CH_FAULT) ch = true ∧
    bit (hdr d .gdr).int 17 = true ∧
    (regB d 9 aFLT_CLASS_CNT).toNat = min ((regB c 9 aFLT_CLASS_CNT).toNat + 1) 0xFFFFFFFF ∧
    d.flt.modulePending = true := by
  generalize hc2 : setFld (setFld c aGDR_CH_READY ch ch 0) aGDR_CH_FAULT ch ch 1 = c2
  intro d
  have hm := minor_fault (raise c2 .gdr 17) 0x09 .gdr ch 0 false (by decide)
  have hm1 := minor_raise c2 .gdr 17
  have hq2 : quiet c2 = quiet c := by rw [← hc2, quiet_setFld, quiet_setFld]
  have hf2 : (raise c2 .gdr 17).flt = c.flt := by
    rw [flt_of_mute (mute_raise c2 .gdr 17), ← hc2]; rfl
  have hreg : ∀ x, noisyKey (rkey 0 x) = false → reg d x = reg c2 x := fun x hx => (hm.regs _ hx).trans (hm1.regs _ hx)
  refine ⟨by rw [hm.quiet, hm1.quiet, hq2], ?_, ?_, hm.ints _ _ (raise_int _ _ _ (by decide)), ?_, ?_⟩
  · rw [hreg _ (by decide), ← hc2, reg_setFld_other _ _ _ _ (by decide), bit_setFld_zero _ _ hch]
  · rw [hreg _ (by decide), ← hc2, bit_setFld_one _ _ hch]
  · have hcl : regB (raise c2 .gdr 17) 9 aFLT_CLASS_CNT = regB c 9 aFLT_CLASS_CNT := by
      refine ((keepsRegs_raise c2 .gdr 17) _ (by decide)).trans ?_
      rw [← hc2, setFld, regKey_setKey_other _ _ _ _ _ (by decide), setFld,
        regKey_setKey_other _ _ _ _ _ (by decide)]
      rfl
    rw [toNat_classCnt_fault _ .gdr ch 0 false (by decide) (by decide), hcl]
  · show (fault (raise c2 .gdr 17) 0x09 .gdr ch 0 false).flt.modulePending = true
    rw [fault_first .gdr ch 0 false (by rw [hf2]; exact hr) (by decide) (by decide) (by decide)]
    obtain ⟨e, -, he⟩ := alarm_reportAt (bumpB (raise c2 .gdr 17) 9 aFLT_CLASS_CNT 1)
      { cls := BitVec.ofNat 8 9, page := .gdr, info := w32 ch, addr := w64 0, higher := false, together := false } 3
    refine Eq.trans ?_ (startReaction_module e (cls := 9) (by decide))
    rw [← show (BitVec.ofNat 8 9).toNat = 9 from rfl, ← he]
    rfl

/-- Settles O34: the result of a patrolled burst moves its counters and reports, the end of a pass moves its own, and a
failed retraining is a first fault of level 3. -/
theorem patrolAndRetraining : Obligations.PatrolAndRetraining := by
  intro s addr ch ha hu hf ends
  have h38 : addr.toNat % 2 ^ 64 = addr.toNat := Nat.mod_eq_of_lt (Nat.lt_trans addr.isLt (by decide))
  refine ⟨fun p => ?_, fun p => ?_, fun p n => ?_, fun p hp => ?_, fun p hp => ?_, fun hb hff => ?_, ?_⟩
  · obtain ⟨t, h1, h2, h3, h4, -⟩ := patrolled (q := fun _ => True) (res := .clean) p ha hu hf (Burst.none _)
      (fun _ _ _ => trivial)
    exact ⟨t, h1, h2, h3, h4⟩
  · obtain ⟨hb, hc⟩ := burst_counted s.toChip aGDR_CE_CNT 1 (channelOf s.toChip addr.toNat) addr.toNat (by decide) (by decide)
      (by decide)
    refine patrolled p ha hu hf (res := .corrected) hb fun t ht hl => ⟨?_, hl⟩
    rw [Counted, ht, reg_passEnded _ _ (by decide) (by decide)]
    exact hc
  · obtain ⟨hb, hc⟩ := burst_counted s.toChip aGDR_RETRY_CNT (n.toNat + 1) (channelOf s.toChip addr.toNat) addr.toNat
      (by decide) (by decide) (by decide)
    refine patrolled p ha hu hf (res := .retried n) hb fun t ht hl => ⟨?_, hl⟩
    rw [Counted, ht, reg_passEnded _ _ (by decide) (by decide)]
    exact hc
  · obtain ⟨hb, hc, had, he, -⟩ := burst_ue hp
    refine patrolled p ha hu hf (res := .uncorrectable) hb fun t ht hl => ⟨?_, ?_, ?_, hl⟩
    · rw [Counted, ht, reg_passEnded _ _ (by decide) (by decide)]
      exact hc
    · rw [ht, pair, pairB_kept (reg_passEnded _ _ (by decide) (by decide)) (reg_passEnded _ _ (by decide) (by decide))]
      exact had.trans h38
    · rw [Event, ht]
      exact event_passEnded p he
  · obtain ⟨hb, hc, hue, he, he'⟩ := burst_retryOut hp
    refine patrolled p ha hu hf (res := .retryOut) hb fun t ht hl => ⟨?_, ?_, ?_, ?_, hl⟩
    · rw [Counted, ht, reg_passEnded _ _ (by decide) (by decide)]
      exact hc
    · rw [Counted, ht, reg_passEnded _ _ (by decide) (by decide)]
      exact hue
    · rw [Event, ht]
      exact event_passEnded p he
    · rw [Event, ht]
      exact event_passEnded p he'
  · have hx : exec (.retrainWindow ch false) s = act s (fun c => whenAwake c (fun c => retrain c ch.toNat false)) := rfl
    rw [act_whenAwake ha, retrain_fails hu hb] at hx
    obtain ⟨h1, h2, h3, h4, h5, h6⟩ := retrain_fails_spec (c := s.toChip) ch.isLt hff.1
    exact ⟨_, hx, rfl, (quiet_after _ _).trans h1, h2, h3, h4, h5, h6⟩
  · have hx : exec (.retrainWindow ch true) s = act s (fun c => whenAwake c (fun c => retrain c ch.toNat true)) := rfl
    rw [hx, act_whenAwake ha, retrain, if_pos (.inr (.inr rfl))]

end Sys2Proof.Machine
end

section
/-! Writes of VALID: vocabularies, grammars (O13), layer tables and search indexes (O14). -/

namespace Sys2Proof.Machine

open Sys2Proof.Safety

theorem desk_withChecks (c : Chip) (k : ChecksUnit) : desk (withChecks c k) = withChecks (desk c) k := rfl

theorem regB_withChecks (c : Chip) (k : ChecksUnit) (b a : Nat) : regB (withChecks c k) b a = regB c b a := rfl

theorem setFldB_checks (c : Chip) (b a hi lo v : Nat) : (setFldB c b a hi lo v).checks = c.checks :=
  setKey_checks ..

section
variable {c : Chip} {r : Requester} {p : Page}

theorem checks_setArmed : (setArmed c r p false).checks = c.checks := by cases r <;> rfl
theorem slotNamed_setArmed (m : Nat) : slotNamed (setArmed c r p false) m = slotNamed c m := by cases r <;> rfl
theorem gramNamed_setArmed (g : Nat) : gramNamed (setArmed c r p false) g = gramNamed c g := by cases r <;> rfl
theorem ixBusy_setArmed (x : Nat) : ixBusy (setArmed c r p false) x = ixBusy c x := by cases r <;> rfl

theorem regB_setArmed_eq (b a : Nat) : regB (setArmed c r p false) b a = regB c b a := regKey_setArmed ..

end

/-! ### What the writes of VALID leave -/

/-- The check of a vocabulary begins on a slot whose MODE was stored. -/
def vocabBegun (c : Chip) (m v : Nat) : Chip :=
  setFld (withChecks (setFldB c m aTEXT_VOCAB_CTRL 1 1 v) { c.checks with vocab := some m }) aTEXT_VOCAB_STAT 7 0 rejBusy

theorem vocabCheckStart_stored (c : Chip) (m v : Nat) :
    vocabCheckStart (setFldB c m aTEXT_VOCAB_CTRL 1 1 v) m = vocabBegun c m v := by
  rw [vocabCheckStart, setFldB_checks, vocabBegun]

theorem desk_vocabBegun (c : Chip) (m v : Nat) :
    desk (vocabBegun c m v) = withChecks (desk c) { c.checks with vocab := some m } := by
  rw [vocabBegun, desk_of_quiet (quiet_setFld ..), desk_withChecks, desk_of_quiet (quiet_setFldB ..)]

theorem vocabBegun_regs (c : Chip) (m v : Nat) :
    bit (regB (vocabBegun c m v) m aTEXT_VOCAB_CTRL) 1 = v.testBit 0 ∧
    bit (regB (vocabBegun c m v) m aTEXT_VOCAB_CTRL) 0 = bit (regB c m aTEXT_VOCAB_CTRL) 0 ∧
    fld (reg (vocabBegun c m v) aTEXT_VOCAB_STAT) 7 0 = 0x20 := by
  have h : regB (vocabBegun c m v) m aTEXT_VOCAB_CTRL = regB (setFldB c m aTEXT_VOCAB_CTRL 1 1 v) m aTEXT_VOCAB_CTRL := by
    rw [vocabBegun, regB, setFld, regKey_setKey_other _ _ _ _ _ (rkey_apart (by decide) (by decide) (by decide))]
    exact regB_withChecks ..
  refine ⟨?_, ?_, fld_setFld_self _ _ _ (by decide) (by decide)⟩
  · rw [h, bit_setFldB _ _ _ _ _ (by decide), if_pos (by decide)]
  · rw [h, bit_setFldB_other _ _ _ _ _ (by decide) (by decide)]

/-- A vocabulary made invalid on a slot whose MODE was stored. -/
def vocabDropped (c : Chip) (m v : Nat) : Chip :=
  setFldB (withChecks (setFldB c m aTEXT_VOCAB_CTRL 1 1 v) { c.checks with vocabImg := tdel c.checks.vocabImg m })
    m aTEXT_VOCAB_CTRL 0 0 0

theorem vocabInvalid_stored (c : Chip) (m v : Nat) :
    vocabInvalid (setFldB c m aTEXT_VOCAB_CTRL 1 1 v) m = vocabDropped c m v := by
  rw [vocabInvalid, setFldB_checks, vocabDropped]

theorem desk_vocabDropped (c : Chip) (m v : Nat) :
    desk (vocabDropped c m v) = withChecks (desk c) { c.checks with vocabImg := tdel c.checks.vocabImg m } := by
  rw [vocabDropped, desk_of_quiet (quiet_setFldB ..), desk_withChecks, desk_of_quiet (quiet_setFldB ..)]

theorem vocabDropped_regs (c : Chip) (m v : Nat) :
    bit (regB (vocabDropped c m v) m aTEXT_VOCAB_CTRL) 1 = v.testBit 0 ∧
    bit (regB (vocabDropped c m v) m aTEXT_VOCAB_CTRL) 0 = false := by
  rw [vocabDropped]
  refine ⟨?_, by rw [bit_setFldB_zero _ _ _ (by decide)]⟩
  rw [bit_setFldB_other _ _ _ _ _ (by decide) (by decide), regB_withChecks, bit_setFldB _ _ _ _ _ (by decide), if_pos (by decide)]

/-- The check of a grammar begins, with its vocabulary slot stored. -/
def gramBegun (c : Chip) (g v : Nat) : Chip :=
  setFld (withChecks (setFldB c g aTEXT_GRAM_CTRL 7 4 v) { c.checks with gram := some g }) aTEXT_GRAM_STAT 7 0 rejBusy

theorem gramCheckStart_stored (c : Chip) (g v : Nat) :
    gramCheckStart (setFldB c g aTEXT_GRAM_CTRL 7 4 v) g = gramBegun c g v := by
  rw [gramCheckStart, setFldB_checks, gramBegun]

theorem desk_gramBegun (c : Chip) (g v : Nat) :
    desk (gramBegun c g v) = withChecks (desk c) { c.checks with gram := some g } := by
  rw [gramBegun, desk_of_quiet (quiet_setFld ..), desk_withChecks, desk_of_quiet (quiet_setFldB ..)]

theorem gramBegun_regs (c : Chip) (g v : Nat) :
    fld (regB (gramBegun c g v) g aTEXT_GRAM_CTRL) 7 4 = v % 2 ^ 4 ∧
    bit (regB (gramBegun c g v) g aTEXT_GRAM_CTRL) 0 = bit (regB c g aTEXT_GRAM_CTRL) 0 ∧
    fld (reg (gramBegun c g v) aTEXT_GRAM_STAT) 7 0 = 0x20 := by
  have h : regB (gramBegun c g v) g aTEXT_GRAM_CTRL = regB (setFldB c g aTEXT_GRAM_CTRL 7 4 v) g aTEXT_GRAM_CTRL := by
    rw [gramBegun, regB, setFld, regKey_setKey_other _ _ _ _ _ (rkey_apart (by decide) (by decide) (by decide))]
    exact regB_withChecks ..
  refine ⟨?_, ?_, fld_setFld_self _ _ _ (by decide) (by decide)⟩
  · rw [h, fld_setFldB_self _ _ _ _ (by decide) (by decide)]
  · rw [h, bit_setFldB_other _ _ _ _ _ (by decide) (by decide)]

/-- A grammar made invalid, with its vocabulary slot stored. -/
def gramDropped (c : Chip) (g v : Nat) : Chip :=
  setFldB (withChecks (setFldB c g aTEXT_GRAM_CTRL 7 4 v) { c.checks with gramImg := tdel c.checks.gramImg g })
    g aTEXT_GRAM_CTRL 0 0 0

theorem gramInvalid_stored (c : Chip) (g v : Nat) :
    gramInvalid (setFldB c g aTEXT_GRAM_CTRL 7 4 v) g = gramDropped c g v := by
  rw [gramInvalid, setFldB_checks, gramDropped]

theorem desk_gramDropped (c : Chip) (g v : Nat) :
    desk (gramDropped c g v) = withChecks (desk c) { c.checks with gramImg := tdel c.checks.gramImg g } := by
  rw [gramDropped, desk_of_quiet (quiet_setFldB ..), desk_withChecks, desk_of_quiet (quiet_setFldB ..)]

theorem gramDropped_regs (c : Chip) (g v : Nat) :
    fld (regB (gramDropped c g v) g aTEXT_GRAM_CTRL) 7 4 = v % 2 ^ 4 ∧
    bit (regB (gramDropped c g v) g aTEXT_GRAM_CTRL) 0 = false := by
  rw [gramDropped]
  refine ⟨?_, by rw [bit_setFldB_zero _ _ _ (by decide)]⟩
  rw [fld_setFldB_other _ _ _ _ (by decide) (by decide) (by decide), regB_withChecks, fld_setFldB_self _ _ _ _ (by decide)
      (by decide)]

/-- The check of a layer table begins, with LAYERS stored. -/
def modelBegun (c : Chip) (m v : Nat) : Chip :=
  setFld (withChecks (setFldB c m aATTN_MODEL_CTRL 15 8 v) { c.checks with model := some m }) aATTN_MODEL_STAT 7 0 rejBusy

theorem modelCheckStart_stored (c : Chip) (m v : Nat) :
    modelCheckStart (setFldB c m aATTN_MODEL_CTRL 15 8 v) m = modelBegun c m v := by
  rw [modelCheckStart, setFldB_checks, modelBegun]

theorem desk_modelBegun (c : Chip) (m v : Nat) :
    desk (modelBegun c m v) = withChecks (desk c) { c.checks with model := some m } := by
  rw [modelBegun, desk_of_quiet (quiet_setFld ..), desk_withChecks, desk_of_quiet (quiet_setFldB ..)]

theorem modelBegun_regs (c : Chip) (m v : Nat) :
    fld (regB (modelBegun c m v) m aATTN_MODEL_CTRL) 15 8 = v % 2 ^ 8 ∧
    bit (regB (modelBegun c m v) m aATTN_MODEL_CTRL) 0 = bit (regB c m aATTN_MODEL_CTRL) 0 ∧
    fld (reg (modelBegun c m v) aATTN_MODEL_STAT) 7 0 = 0x20 := by
  have h : regB (modelBegun c m v) m aATTN_MODEL_CTRL = regB (setFldB c m aATTN_MODEL_CTRL 15 8 v) m aATTN_MODEL_CTRL := by
    rw [modelBegun, regB, setFld, regKey_setKey_other _ _ _ _ _ (rkey_apart (by decide) (by decide) (by decide))]
    exact regB_withChecks ..
  refine ⟨?_, ?_, fld_setFld_self _ _ _ (by decide) (by decide)⟩
  · rw [h, fld_setFldB_self _ _ _ _ (by decide) (by decide)]
  · rw [h, bit_setFldB_other _ _ _ _ _ (by decide) (by decide)]

/-- The images of a slot's tables dropped. -/
def imagesDropped (c : Chip) (m : Nat) : ChecksUnit :=
  { c.checks with layerImg := tdel c.checks.layerImg m, tableImg := tdel c.checks.tableImg m }

/-- A model slot made invalid, with LAYERS stored. -/
def modelDropped (c : Chip) (m v : Nat) : Chip :=
  if bit (regB c m aATTN_MODEL_CTRL) 0 then
    raise (setFldB (withChecks (setFldB c m aATTN_MODEL_CTRL 15 8 v) (imagesDropped c m)) m aATTN_MODEL_CTRL 0 0 0) .attn 16
  else withChecks (setFldB c m aATTN_MODEL_CTRL 15 8 v) (imagesDropped c m)

theorem modelInvalid_stored (c : Chip) (m v : Nat) :
    modelInvalid (setFldB c m aATTN_MODEL_CTRL 15 8 v) m = modelDropped c m v := by
  have h : modelValid (setFldB c m aATTN_MODEL_CTRL 15 8 v) m = bit (regB c m aATTN_MODEL_CTRL) 0 :=
    bit_setFldB_other _ _ _ _ _ (by decide) (by decide)
  rw [modelInvalid, h, setFldB_checks, modelDropped, imagesDropped]

theorem desk_modelDropped (c : Chip) (m v : Nat) : desk (modelDropped c m v) = withChecks (desk c) (imagesDropped c m) := by
  have h2 := desk_of_quiet (quiet_setFldB c m aATTN_MODEL_CTRL 15 8 v)
  rw [modelDropped]
  split
  · rw [desk_of_quiet (quiet_raise ..), desk_of_quiet (quiet_setFldB ..), desk_withChecks, h2]
  · rw [desk_withChecks, h2]

theorem modelDropped_regs (c : Chip) (m v : Nat) :
    fld (regB (modelDropped c m v) m aATTN_MODEL_CTRL) 15 8 = v % 2 ^ 8 ∧
    bit (regB (modelDropped c m v) m aATTN_MODEL_CTRL) 0 = false ∧
    (bit (regB c m aATTN_MODEL_CTRL) 0 = true → bit (hdr (modelDropped c m v) .attn).int 16 = true) := by
  rw [modelDropped]
  split
  · rw [(keepsRegs_raise _ .attn 16).regB (eventKey_rkey (by decide) (by decide) (by decide) (by decide))]
    refine ⟨?_, by rw [bit_setFldB_zero _ _ _ (by decide)], fun _ => raise_int _ _ _ (by decide)⟩
    rw [fld_setFldB_other _ _ _ _ (by decide) (by decide) (by decide), regB_withChecks,
      fld_setFldB_self _ _ _ _ (by decide) (by decide)]
  · rename_i hb
    refine ⟨?_, ?_, fun h => absurd h hb⟩
    · rw [regB_withChecks, fld_setFldB_self _ _ _ _ (by decide) (by decide)]
    · rw [regB_withChecks, bit_setFldB_other _ _ _ _ _ (by decide) (by decide)]
      exact Bool.eq_false_of_not_eq_true hb

/-! ### The rules of the registers -/

theorem vocabCtrlWrite_busy {c : Chip} (x : RegWr) (h : c.checks.vocab.isSome = true) :
    vocabCtrlWrite c x = (rejBusy, c) := by
  rw [vocabCtrlWrite, if_pos h]

theorem vocabCtrlWrite_named {c : Chip} {x : RegWr} (h : c.checks.vocab = none) (hn : slotNamed c x.bank = true) :
    vocabCtrlWrite c x = (rejState, c) := by
  rw [vocabCtrlWrite, if_neg (by rw [h]; exact Bool.false_ne_true), if_pos hn]

theorem vocabCtrlWrite_valid {c : Chip} {x : RegWr} (h : c.checks.vocab = none) (hn : slotNamed c x.bank = false)
    (hv : bit x.new 0 = true) (ho : bit x.old 0 = false) :
    vocabCtrlWrite c x = (stOK, vocabBegun c x.bank (fld x.new 1 1)) := by
  rw [vocabCtrlWrite, if_neg (by rw [h]; exact Bool.false_ne_true), if_neg (by rw [hn]; exact Bool.false_ne_true)]
  simp only [hv, ho, if_true, Bool.false_eq_true, if_false, vocabCheckStart_stored]

theorem vocabCtrlWrite_invalid {c : Chip} {x : RegWr} (h : c.checks.vocab = none) (hn : slotNamed c x.bank = false)
    (hv : bit x.new 0 = false) : vocabCtrlWrite c x = (stOK, vocabDropped c x.bank (fld x.new 1 1)) := by
  rw [vocabCtrlWrite, if_neg (by rw [h]; exact Bool.false_ne_true), if_neg (by rw [hn]; exact Bool.false_ne_true)]
  simp only [hv, Bool.false_eq_true, if_false, vocabInvalid_stored]

theorem gramCtrlWrite_busy {c : Chip} (x : RegWr) (h : c.checks.gram.isSome = true) :
    gramCtrlWrite c x = (rejBusy, c) := by
  rw [gramCtrlWrite, if_pos h]

theorem gramCtrlWrite_named {c : Chip} {x : RegWr} (h : c.checks.gram = none) (hn : gramNamed c x.bank = true)
    (hv : bit x.new 0 = false) (hp : x.plain = true) : gramCtrlWrite c x = (rejState, c) := by
  rw [gramCtrlWrite, if_neg (by rw [h]; exact Bool.false_ne_true),
    if_pos ⟨hn, .inr ⟨by rw [hv]; rfl, .inl hp⟩⟩]

theorem gramCtrlWrite_valid {c : Chip} {x : RegWr} (h : c.checks.gram = none) (hn : gramNamed c x.bank = false)
    (hv : bit x.new 0 = true) (ho : bit x.old 0 = false) :
    gramCtrlWrite c x = (stOK, gramBegun c x.bank (fld x.new 7 4)) := by
  rw [gramCtrlWrite, if_neg (by rw [h]; exact Bool.false_ne_true),
    if_neg (fun hx => by rw [hn] at hx; exact Bool.false_ne_true hx.1)]
  simp only [hv, ho, if_true, Bool.false_eq_true, if_false, gramCheckStart_stored]

theorem gramCtrlWrite_invalid {c : Chip} {x : RegWr} (h : c.checks.gram = none) (hn : gramNamed c x.bank = false)
    (hv : bit x.new 0 = false) : gramCtrlWrite c x = (stOK, gramDropped c x.bank (fld x.new 7 4)) := by
  rw [gramCtrlWrite, if_neg (by rw [h]; exact Bool.false_ne_true),
    if_neg (fun hx => by rw [hn] at hx; exact Bool.false_ne_true hx.1)]
  simp only [hv, Bool.false_eq_true, if_false, gramInvalid_stored]

/-- The rule of MODEL_CTRL. -/
theorem writeAttn_ctrl {c : Chip} {x : RegWr} (ha : x.a = aATTN_MODEL_CTRL) : writeAttn c x =
    if c.checks.model.isSome then (rejBusy, c)
    else if slotNamed c x.bank ∧ (fld x.new 15 8 ≠ fld x.old 15 8 ∨ (!bit x.new 0 ∧ (x.plain ∨ bit x.old 0))) then
      (rejState, c)
    else if bit x.new 0 then (stOK, if bit x.old 0 then setFldB c x.bank aATTN_MODEL_CTRL 15 8 (fld x.new 15 8)
      else modelBegun c x.bank (fld x.new 15 8))
    else (stOK, modelDropped c x.bank (fld x.new 15 8)) := by
  have h1 : ofPair x.a aATTN_LAYERS_LO = false := by rw [ha]; decide
  unfold writeAttn
  rw [h1, if_neg Bool.false_ne_true, if_pos ha]
  simp only [modelCheckStart_stored, modelInvalid_stored]

theorem writeAttn_busy {c : Chip} {x : RegWr} (ha : x.a = aATTN_MODEL_CTRL) (h : c.checks.model.isSome = true) :
    writeAttn c x = (rejBusy, c) := by
  rw [writeAttn_ctrl ha, if_pos h]

theorem writeAttn_named {c : Chip} {x : RegWr} (ha : x.a = aATTN_MODEL_CTRL) (h : c.checks.model = none)
    (hn : slotNamed c x.bank = true) (hv : bit x.new 0 = false) (hp : x.plain = true) :
    writeAttn c x = (rejState, c) := by
  rw [writeAttn_ctrl ha, if_neg (by rw [h]; exact Bool.false_ne_true), if_pos ⟨hn, .inr ⟨by rw [hv]; rfl, .inl hp⟩⟩]

theorem writeAttn_valid {c : Chip} {x : RegWr} (ha : x.a = aATTN_MODEL_CTRL) (h : c.checks.model = none)
    (hn : slotNamed c x.bank = false) (hv : bit x.new 0 = true) (ho : bit x.old 0 = false) :
    writeAttn c x = (stOK, modelBegun c x.bank (fld x.new 15 8)) := by
  rw [writeAttn_ctrl ha, if_neg (by rw [h]; exact Bool.false_ne_true),
    if_neg (fun hx => by rw [hn] at hx; exact Bool.false_ne_true hx.1), if_pos hv,
    if_neg (by rw [ho]; exact Bool.false_ne_true)]

theorem writeAttn_invalid {c : Chip} {x : RegWr} (ha : x.a = aATTN_MODEL_CTRL) (h : c.checks.model = none)
    (hn : slotNamed c x.bank = false) (hv : bit x.new 0 = false) :
    writeAttn c x = (stOK, modelDropped c x.bank (fld x.new 15 8)) := by
  rw [writeAttn_ctrl ha, if_neg (by rw [h]; exact Bool.false_ne_true),
    if_neg (fun hx => by rw [hn] at hx; exact Bool.false_ne_true hx.1), if_neg (by rw [hv]; exact Bool.false_ne_true)]

/-! ### Reaching the rules -/

theorem pageWrite_text {c : Chip} {x : RegWr} (h : pageOf (x.a / 0x4000) = .text) : pageWrite c x = writeText c x := by
  unfold pageWrite
  rw [h]

theorem pageWrite_attn {c : Chip} {x : RegWr} (h : pageOf (x.a / 0x4000) = .attn) : pageWrite c x = writeAttn c x := by
  unfold pageWrite
  rw [h]

theorem pageWrite_srch {c : Chip} {x : RegWr} (h : pageOf (x.a / 0x4000) = .srch) : pageWrite c x = writeSrch c x := by
  unfold pageWrite
  rw [h]

/-- The row of VOCAB_CTRL. -/
def rowVocabCtrl : RegRow := ⟨0x04c, 1, .vocab, 0, [⟨1, 1, .rwg, 0⟩, ⟨0, 0, .rwg, 0⟩]⟩
/-- The row of GRAM_CTRL. -/
def rowGramCtrl : RegRow := ⟨0x060, 1, .gram, 0, [⟨7, 4, .rwg, 0⟩, ⟨0, 0, .rwg, 0⟩]⟩
/-- The row of MODEL_CTRL. -/
def rowModelCtrl : RegRow := ⟨0x050, 1, .model, 0, [⟨15, 8, .rwg, 0⟩, ⟨0, 0, .rwg, 0⟩]⟩
/-- The row of IDX_CTRL. -/
def rowIdxCtrl : RegRow := ⟨0x044, 1, .index, 0, [⟨10, 8, .rwg, 0⟩, ⟨1, 1, .rw, 0⟩, ⟨0, 0, .rwg, 0⟩]⟩

/-- An unlocked write of a VALID register of TEXT, as its rule sees it. -/
theorem write_vocabCtrl {c : Chip} {r : Requester} (w : Word) (h : Reaches c r .text) (ha : armed c r .text = true) :
    ∃ x, x.new = w ∧ x.bank = fld (reg c aTEXT_VOCAB_SEL) 3 0 ∧ bit x.old 0 = bit (regB c x.bank aTEXT_VOCAB_CTRL) 0 ∧
      mgmtWrite c r aTEXT_VOCAB_CTRL w = keepStatus (answer (vocabCtrlWrite (setArmed c r .text false) x).2
        (vocabCtrlWrite (setArmed c r .text false) x).1 0) r (vocabCtrlWrite (setArmed c r .text false) x).1 := by
  obtain ⟨x, hx, hw⟩ := mgmtWriteWith_rule (a := aTEXT_VOCAB_CTRL) (row := rowVocabCtrl) noArgs w h (by decide) rfl rfl
    (fun _ => ha)
  have hb : x.bank = fld (reg c aTEXT_VOCAB_SEL) 3 0 := hx.bank
  have hrule : writeText (setArmed c r .text false) x = vocabCtrlWrite (setArmed c r .text false) x := by
    have h1 : ofPair x.a aTEXT_VOCAB_LO = false := by rw [hx.addr]; decide
    unfold writeText
    rw [h1, if_neg Bool.false_ne_true, if_pos hx.addr]
  rw [show pageOf (aTEXT_VOCAB_CTRL / 0x4000) = .text from rfl, pageWrite_text (by rw [hx.addr]; rfl), hrule] at hw
  refine ⟨x, hx.new, hb, ?_, hw⟩
  have hp : plainWord (setArmed c r .text false) 0 x.bank rowVocabCtrl aTEXT_VOCAB_CTRL =
      regB (setArmed c r .text false) x.bank aTEXT_VOCAB_CTRL &&& shownMask rowVocabCtrl aTEXT_VOCAB_CTRL := rfl
  rw [hx.old (by decide), ← hx.bank, show pageOf (aTEXT_VOCAB_CTRL / 0x4000) = .text from rfl, hp,
    bit_and_mask (by decide), regB_setArmed_eq]

theorem write_gramCtrl {c : Chip} {r : Requester} (w : Word) (h : Reaches c r .text) (ha : armed c r .text = true) :
    ∃ x, x.new = w ∧ x.plain = true ∧ x.bank = fld (reg c aTEXT_GRAM_SEL) 11 0 ∧
      bit x.old 0 = bit (regB c x.bank aTEXT_GRAM_CTRL) 0 ∧
      mgmtWrite c r aTEXT_GRAM_CTRL w = keepStatus (answer (gramCtrlWrite (setArmed c r .text false) x).2
        (gramCtrlWrite (setArmed c r .text false) x).1 0) r (gramCtrlWrite (setArmed c r .text false) x).1 := by
  obtain ⟨x, hx, hw⟩ := mgmtWriteWith_rule (a := aTEXT_GRAM_CTRL) (row := rowGramCtrl) noArgs w h (by decide) rfl rfl
    (fun _ => ha)
  have hb : x.bank = fld (reg c aTEXT_GRAM_SEL) 11 0 := hx.bank
  have hrule : writeText (setArmed c r .text false) x = gramCtrlWrite (setArmed c r .text false) x := by
    have h1 : ofPair x.a aTEXT_VOCAB_LO = false := by rw [hx.addr]; decide
    have h2 : x.a ≠ aTEXT_VOCAB_CTRL := by rw [hx.addr]; decide
    have h3 : ofPair x.a aTEXT_GRAM_LO = false := by rw [hx.addr]; decide
    unfold writeText
    rw [h1, if_neg Bool.false_ne_true, if_neg h2, h3, if_neg Bool.false_ne_true, if_pos hx.addr]
  rw [show pageOf (aTEXT_GRAM_CTRL / 0x4000) = .text from rfl, pageWrite_text (by rw [hx.addr]; rfl), hrule] at hw
  refine ⟨x, hx.new, hx.plain, hb, ?_, hw⟩
  have hp : plainWord (setArmed c r .text false) 0 x.bank rowGramCtrl aTEXT_GRAM_CTRL =
      regB (setArmed c r .text false) x.bank aTEXT_GRAM_CTRL &&& shownMask rowGramCtrl aTEXT_GRAM_CTRL := rfl
  rw [hx.old (by decide), ← hx.bank, show pageOf (aTEXT_GRAM_CTRL / 0x4000) = .text from rfl, hp,
    bit_and_mask (by decide), regB_setArmed_eq]

theorem write_modelCtrl {c : Chip} {r : Requester} (w : Word) (h : Reaches c r .attn) (ha : armed c r .attn = true) :
    ∃ x, x.a = aATTN_MODEL_CTRL ∧ x.new = w ∧ x.plain = true ∧ x.bank = fld (reg c aATTN_MODEL_SEL) 3 0 ∧
      bit x.old 0 = bit (regB c x.bank aATTN_MODEL_CTRL) 0 ∧
      mgmtWrite c r aATTN_MODEL_CTRL w = keepStatus (answer (writeAttn (setArmed c r .attn false) x).2
        (writeAttn (setArmed c r .attn false) x).1 0) r (writeAttn (setArmed c r .attn false) x).1 := by
  obtain ⟨x, hx, hw⟩ := mgmtWriteWith_rule (a := aATTN_MODEL_CTRL) (row := rowModelCtrl) noArgs w h (by decide) rfl rfl
    (fun _ => ha)
  have hb : x.bank = fld (reg c aATTN_MODEL_SEL) 3 0 := hx.bank
  rw [show pageOf (aATTN_MODEL_CTRL / 0x4000) = .attn from rfl, pageWrite_attn (by rw [hx.addr]; rfl)] at hw
  refine ⟨x, hx.addr, hx.new, hx.plain, hb, ?_, hw⟩
  have hp : plainWord (setArmed c r .attn false) 0 x.bank rowModelCtrl aATTN_MODEL_CTRL =
      regB (setArmed c r .attn false) x.bank aATTN_MODEL_CTRL &&& shownMask rowModelCtrl aATTN_MODEL_CTRL := rfl
  rw [hx.old (by decide), ← hx.bank, show pageOf (aATTN_MODEL_CTRL / 0x4000) = .attn from rfl, hp,
    bit_and_mask (by decide), regB_setArmed_eq]

/-! ### Search indexes -/

/-- An index's PART and REPAIR stored. -/
def idxStored (c : Chip) (x : Nat) (w : Word) : Chip :=
  setKey c (rkey x aSRCH_IDX_CTRL) (storeMask rowIdxCtrl &&& ~~~1) w

theorem bit_idxStored (c : Chip) (x : Nat) (w : Word) (n : Nat) :
    bit (regB (idxStored c x w) x aSRCH_IDX_CTRL) n =
      if n = 1 ∨ (8 ≤ n ∧ n ≤ 10) then bit w n else bit (regB c x aSRCH_IDX_CTRL) n := by
  have hm : storeMask rowIdxCtrl &&& ~~~1 = 0x702#32 := by decide
  have hk : ∀ i, (0x702#32 : Word).getLsbD i = decide (i = 1 ∨ (8 ≤ i ∧ i ≤ 10)) := fun i => by
    by_cases h : i < 32
    · revert i; decide
    · rw [BitVec.getLsbD_of_ge _ _ (by omega)]
      exact (decide_eq_false (by omega)).symm
  rw [idxStored, hm, regB, regKey_setKey_self]
  simp only [bit, BitVec.getLsbD_or, BitVec.getLsbD_and, BitVec.getLsbD_not, hk]
  by_cases h32 : n < 32
  · by_cases h : n = 1 ∨ (8 ≤ n ∧ n ≤ 10)
    · simp [h]
    · simp [h, h32, regB]
  · have hz : ∀ y : Word, y.getLsbD n = false := fun y => BitVec.getLsbD_of_ge y n (by omega)
    simp [hz]

theorem desk_idxStored (c : Chip) (x : Nat) (w : Word) : desk (idxStored c x w) = desk c :=
  desk_of_quiet (quiet_setKey c (rkey x aSRCH_IDX_CTRL) (storeMask rowIdxCtrl &&& ~~~1) w)

theorem idxStored_checks (c : Chip) (x : Nat) (w : Word) : (idxStored c x w).checks = c.checks := setKey_checks ..

/-- The check of an index begins, with PART and REPAIR stored. -/
def idxBegun (c : Chip) (x : Nat) (w : Word) : Chip :=
  setRegB (withChecks (idxStored c x w) { c.checks with index := c.checks.index ++ [x] }) x aSRCH_IDX_STAT (w32 rejBusy)

theorem ixCheckStart_stored (c : Chip) (x : Nat) (w : Word) : ixCheckStart (idxStored c x w) x = idxBegun c x w := by
  rw [ixCheckStart, idxStored_checks, idxBegun]

theorem desk_idxBegun (c : Chip) (x : Nat) (w : Word) :
    desk (idxBegun c x w) = withChecks (desk c) { c.checks with index := c.checks.index ++ [x] } := by
  rw [idxBegun, desk_of_quiet (quiet_setRegB ..), desk_withChecks, desk_idxStored]

theorem idxBegun_regs (c : Chip) (x : Nat) (w : Word) :
    regB (idxBegun c x w) x aSRCH_IDX_CTRL = regB (idxStored c x w) x aSRCH_IDX_CTRL ∧
    regB (idxBegun c x w) x aSRCH_IDX_STAT = 0x20 := by
  rw [idxBegun]
  exact ⟨by rw [regB_setRegB_other _ _ _ _ _ (by decide), regB_withChecks], regB_setRegB_self ..⟩

theorem write_idxCtrl {c : Chip} {r : Requester} (w : Word) (h : Reaches c r .srch) (ha : armed c r .srch = true) :
    ∃ x, x.a = aSRCH_IDX_CTRL ∧ x.row = rowIdxCtrl ∧ x.new = w ∧ x.bank = fld (reg c aSRCH_INDEX_SEL) 3 0 ∧
      bit x.old 0 = bit (regB c x.bank aSRCH_IDX_CTRL) 0 ∧
      fld x.old 10 8 = fld (regB c x.bank aSRCH_IDX_CTRL) 10 8 ∧
      mgmtWrite c r aSRCH_IDX_CTRL w = keepStatus (answer (idxCtrlWrite (setArmed c r .srch false) x).2
        (idxCtrlWrite (setArmed c r .srch false) x).1 0) r (idxCtrlWrite (setArmed c r .srch false) x).1 := by
  obtain ⟨x, hx, hw⟩ := mgmtWriteWith_rule (a := aSRCH_IDX_CTRL) (row := rowIdxCtrl) noArgs w h (by decide) rfl rfl
    (fun _ => ha)
  have hb : x.bank = fld (reg c aSRCH_INDEX_SEL) 3 0 := hx.bank
  have hrule : writeSrch (setArmed c r .srch false) x = idxCtrlWrite (setArmed c r .srch false) x := by
    unfold writeSrch
    dsimp only
    rw [if_pos hx.addr]
  rw [show pageOf (aSRCH_IDX_CTRL / 0x4000) = .srch from rfl, pageWrite_srch (by rw [hx.addr]; rfl), hrule] at hw
  have hp : plainWord (setArmed c r .srch false) 0 x.bank rowIdxCtrl aSRCH_IDX_CTRL =
      regB (setArmed c r .srch false) x.bank aSRCH_IDX_CTRL &&& shownMask rowIdxCtrl aSRCH_IDX_CTRL := rfl
  have hold := hx.old (by decide)
  rw [← hx.bank, show pageOf (aSRCH_IDX_CTRL / 0x4000) = .srch from rfl, hp, regB_setArmed_eq] at hold
  refine ⟨x, hx.addr, hx.row, hx.new, hb, ?_, ?_, hw⟩
  · rw [hold, bit_and_mask (by decide)]
  · rw [hold, fld_and_mask]
    intro n h1 h2
    have : n = 8 ∨ n = 9 ∨ n = 10 := by omega
    rcases this with rfl | rfl | rfl <;> decide

/-- The rule of IDX_CTRL. -/
theorem idxCtrlWrite_eq {c : Chip} {x : RegWr} (ha : x.a = aSRCH_IDX_CTRL) (hr : x.row = rowIdxCtrl) :
    idxCtrlWrite c x =
      if ixChecking c x.bank then (rejBusy, c)
      else if bit x.old 0 ∧ !bit x.new 0 ∧ ixBusy c x.bank then (rejBusy, c)
      else if bit x.old 0 ∧ fld x.new 10 8 ≠ fld x.old 10 8 then (rejState, c)
      else if bit x.new 0 then (stOK, if bit x.old 0 then idxStored c x.bank x.new
        else idxBegun c x.bank x.new)
      else (stOK, setFldB (idxStored c x.bank x.new) x.bank aSRCH_IDX_CTRL 0 0 0) := by
  simp only [← ixCheckStart_stored]
  unfold idxCtrlWrite idxStored
  rw [ha, hr]

/-- The stored word of IDX_CTRL, without its VALID. -/
theorem idxStored_fields (c : Chip) (x : Nat) (w : Word) :
    fld (regB (idxStored c x w) x aSRCH_IDX_CTRL) 10 8 = fld w 10 8 ∧
    bit (regB (idxStored c x w) x aSRCH_IDX_CTRL) 1 = bit w 1 ∧
    bit (regB (idxStored c x w) x aSRCH_IDX_CTRL) 0 = bit (regB c x aSRCH_IDX_CTRL) 0 := by
  refine ⟨fld_congr fun n h1 h2 => ?_, ?_, ?_⟩
  · rw [bit_idxStored, if_pos (by omega)]
  · rw [bit_idxStored, if_pos (by decide)]
  · rw [bit_idxStored, if_neg (by decide)]

/-- The words that IDX_VALIDATE and IDX_INVALIDATE write. -/
theorem idxWord (p : BitVec 3) (rep v : Bool) :
    fld (w32 (p.toNat * 256 + 2 * b2n rep + b2n v)) 10 8 = p.toNat ∧
    bit (w32 (p.toNat * 256 + 2 * b2n rep + b2n v)) 1 = rep ∧ bit (w32 (p.toNat * 256 + 2 * b2n rep + b2n v)) 0 = v := by
  revert p rep v; decide

theorem modelWord (n : Byte) (v : Bool) :
    fld (w32 (n.toNat * 256 + b2n v)) 15 8 = n.toNat ∧ bit (w32 (n.toNat * 256 + b2n v)) 0 = v := by
  revert n v; decide

theorem gramWord (n : BitVec 4) (v : Bool) :
    fld (w32 (n.toNat * 16 + b2n v)) 7 4 = n.toNat ∧ bit (w32 (n.toNat * 16 + b2n v)) 0 = v := by
  revert n v; decide

theorem vocabWord (m v : Bool) :
    fld (w32 (2 * b2n m + b2n v)) 1 1 = b2n m ∧ bit (w32 (2 * b2n m + b2n v)) 0 = v := by
  revert m v; decide

/-! ### The statements -/

/-- VOCAB_VALIDATE and VOCAB_INVALIDATE. -/
theorem vocabWrites {s : State} {r : Requester} {mode : Bool} {m : Nat} (h : Reaches s.toChip r .text)
    (ha : armed s.toChip r .text = true) (hm : m = fld (reg s.toChip aTEXT_VOCAB_SEL) 3 0) :
    let w := fun (t : State) => regB t.toChip m aTEXT_VOCAB_CTRL
    let same := fun (t : State) => ∀ k, regKey t.toChip k = regKey s.toChip k
    (s.checks.vocab = none → slotNamed s.toChip m = false →
      (bit (w s) 0 = false → Accepted (.vocabValidate r mode) s r (withChecks s.toChip { s.checks with vocab := some m })
        (fun t => bit (w t) 1 = mode ∧ bit (w t) 0 = false ∧ fld (reg t.toChip aTEXT_VOCAB_STAT) 7 0 = 0x20)) ∧
      Accepted (.vocabInvalidate r mode) s r (withChecks s.toChip { s.checks with vocabImg := tdel s.checks.vocabImg m })
        (fun t => bit (w t) 1 = mode ∧ bit (w t) 0 = false)) ∧
    (s.checks.vocab.isSome = true → Answered (.vocabValidate r mode) s r 0x20 s.toChip same ∧
      Answered (.vocabInvalidate r mode) s r 0x20 s.toChip same) ∧
    (s.checks.vocab = none → slotNamed s.toChip m = true → Answered (.vocabValidate r mode) s r 0x21 s.toChip same ∧
      Answered (.vocabInvalidate r mode) s r 0x21 s.toChip same) := by
  intro w same
  have hck : (setArmed s.toChip r .text false).checks = s.checks := checks_setArmed
  have hex : ∀ v, exec (if v then .vocabValidate r mode else .vocabInvalidate r mode) s =
      act s (fun c => mgmtWriteWith c r noArgs aTEXT_VOCAB_CTRL (w32 (2 * b2n mode + b2n v))) := fun v => by
    cases v
    · rw [show b2n false = 0 from rfl, Nat.add_zero]; rfl
    · rw [show b2n true = 1 from rfl]; rfl
  have hv := hex true
  have hi := hex false
  obtain ⟨xv, hnv, hbv, hov, hwv⟩ := write_vocabCtrl (w32 (2 * b2n mode + b2n true)) h ha
  obtain ⟨xi, hni, hbi, -, hwi⟩ := write_vocabCtrl (w32 (2 * b2n mode + b2n false)) h ha
  rw [← hm] at hbv hbi
  rw [hbv] at hov
  obtain ⟨hfv, h0v⟩ := vocabWord mode true
  obtain ⟨hfi, h0i⟩ := vocabWord mode false
  have htest : (b2n mode).testBit 0 = mode := by cases mode <;> rfl
  refine ⟨fun hn hs => ⟨fun h0 => ?_, ?_⟩, fun hn => ⟨?_, ?_⟩, fun hn hs => ⟨?_, ?_⟩⟩
  · rw [vocabCtrlWrite_valid (by rw [hck]; exact hn) (by rw [slotNamed_setArmed, hbv]; exact hs) (by rw [hnv]; exact h0v)
      (by rw [hov]; exact h0), hbv, hnv, hfv] at hwv
    refine accepted_write hv hwv ?_ ?_
    · rw [desk_vocabBegun, desk_setArmed, hck]; rfl
    · obtain ⟨h1, h2, h3⟩ := vocabBegun_regs (setArmed s.toChip r .text false) m (b2n mode)
      rw [regB_setArmed_eq] at h2
      refine ⟨?_, ?_, ?_⟩
      · show bit (regB _ _ _) 1 = _
        rw [regB_answered, h1, htest]
      · show bit (regB _ _ _) 0 = _
        rw [regB_answered, h2, h0]
      · rw [reg_answered, h3]
  · rw [vocabCtrlWrite_invalid (by rw [hck]; exact hn) (by rw [slotNamed_setArmed, hbi]; exact hs)
      (by rw [hni]; exact h0i), hbi, hni, hfi] at hwi
    refine accepted_write hi hwi ?_ ?_
    · rw [desk_vocabDropped, desk_setArmed, hck]; rfl
    · obtain ⟨h1, h2⟩ := vocabDropped_regs (setArmed s.toChip r .text false) m (b2n mode)
      refine ⟨?_, ?_⟩
      · show bit (regB _ _ _) 1 = _
        rw [regB_answered, h1, htest]
      · show bit (regB _ _ _) 0 = _
        rw [regB_answered, h2]
  · rw [vocabCtrlWrite_busy _ (by rw [hck]; exact hn)] at hwv
    exact refused_write hv hwv
  · rw [vocabCtrlWrite_busy _ (by rw [hck]; exact hn)] at hwi
    exact refused_write hi hwi
  · rw [vocabCtrlWrite_named (by rw [hck]; exact hn) (by rw [slotNamed_setArmed, hbv]; exact hs)] at hwv
    exact refused_write hv hwv
  · rw [vocabCtrlWrite_named (by rw [hck]; exact hn) (by rw [slotNamed_setArmed, hbi]; exact hs)] at hwi
    exact refused_write hi hwi

/-- Settles O13: each write reaches the rule of its register, whose cases are the clauses. -/
theorem textTableWrites : Obligations.TextTableWrites := by
  refine ⟨fun s r mode m h ha hm => vocabWrites h ha hm, ?_⟩
  intro s r slot g h ha hg w same
  have hck : (setArmed s.toChip r .text false).checks = s.checks := checks_setArmed
  have hex : ∀ v, exec (if v then .gramValidate r slot else .gramInvalidate r slot) s =
      act s (fun c => mgmtWriteWith c r noArgs aTEXT_GRAM_CTRL (w32 (slot.toNat * 16 + b2n v))) := fun v => by
    cases v
    · rw [show b2n false = 0 from rfl, Nat.add_zero]; rfl
    · rw [show b2n true = 1 from rfl]; rfl
  have hv := hex true
  have hi := hex false
  obtain ⟨xv, hnv, -, hbv, hov, hwv⟩ := write_gramCtrl (w32 (slot.toNat * 16 + b2n true)) h ha
  obtain ⟨xi, hni, hpi, hbi, -, hwi⟩ := write_gramCtrl (w32 (slot.toNat * 16 + b2n false)) h ha
  rw [← hg] at hbv hbi
  rw [hbv] at hov
  obtain ⟨hfv, h0v⟩ := gramWord slot true
  obtain ⟨hfi, h0i⟩ := gramWord slot false
  have hlt : slot.toNat % 2 ^ 4 = slot.toNat := Nat.mod_eq_of_lt slot.isLt
  refine ⟨fun hn hs => ⟨fun h0 => ?_, ?_⟩, fun hn => ⟨?_, ?_⟩, fun hn hs => ?_⟩
  · rw [gramCtrlWrite_valid (by rw [hck]; exact hn) (by rw [gramNamed_setArmed, hbv]; exact hs) (by rw [hnv]; exact h0v)
      (by rw [hov]; exact h0), hbv, hnv, hfv] at hwv
    refine accepted_write hv hwv ?_ ?_
    · rw [desk_gramBegun, desk_setArmed, hck]; rfl
    · obtain ⟨h1, h2, h3⟩ := gramBegun_regs (setArmed s.toChip r .text false) g slot.toNat
      rw [regB_setArmed_eq] at h2
      refine ⟨?_, ?_, ?_⟩
      · show fld (regB _ _ _) 7 4 = _
        rw [regB_answered, h1, hlt]
      · show bit (regB _ _ _) 0 = _
        rw [regB_answered, h2, h0]
      · rw [reg_answered, h3]
  · rw [gramCtrlWrite_invalid (by rw [hck]; exact hn) (by rw [gramNamed_setArmed, hbi]; exact hs)
      (by rw [hni]; exact h0i), hbi, hni, hfi] at hwi
    refine accepted_write hi hwi ?_ ?_
    · rw [desk_gramDropped, desk_setArmed, hck]; rfl
    · obtain ⟨h1, h2⟩ := gramDropped_regs (setArmed s.toChip r .text false) g slot.toNat
      refine ⟨?_, ?_⟩
      · show fld (regB _ _ _) 7 4 = _
        rw [regB_answered, h1, hlt]
      · show bit (regB _ _ _) 0 = _
        rw [regB_answered, h2]
  · rw [gramCtrlWrite_busy _ (by rw [hck]; exact hn)] at hwv
    exact refused_write hv hwv
  · rw [gramCtrlWrite_busy _ (by rw [hck]; exact hn)] at hwi
    exact refused_write hi hwi
  · rw [gramCtrlWrite_named (by rw [hck]; exact hn) (by rw [gramNamed_setArmed, hbi]; exact hs) (by rw [hni]; exact h0i)
      hpi] at hwi
    exact refused_write hi hwi

/-- IDX_VALIDATE and IDX_INVALIDATE. -/
theorem indexWrites {s : State} {r : Requester} {part : Part} {rep : Bool} {x : Nat} (h : Reaches s.toChip r .srch)
    (ha : armed s.toChip r .srch = true) (hx : x = fld (reg s.toChip aSRCH_INDEX_SEL) 3 0) :
    let w := fun (t : State) => regB t.toChip x aSRCH_IDX_CTRL
    let same := fun (t : State) => ∀ k, regKey t.toChip k = regKey s.toChip k
    let wrote := fun (t : State) => fld (w t) 10 8 = part.toNat ∧ bit (w t) 1 = rep ∧ bit (w t) 0 = false
    (ixChecking s.toChip x = false → bit (w s) 0 = false →
      Accepted (.idxValidate r part rep) s r (withChecks s.toChip { s.checks with index := s.checks.index ++ [x] })
        (fun t => wrote t ∧ regB t.toChip x aSRCH_IDX_STAT = 0x20)) ∧
    (ixChecking s.toChip x = false → bit (w s) 0 = true → ixBusy s.toChip x = false → fld (w s) 10 8 = part.toNat →
      Accepted (.idxInvalidate r part rep) s r s.toChip wrote) ∧
    (ixChecking s.toChip x = true ∨ (bit (w s) 0 = true ∧ ixBusy s.toChip x = true) →
      Answered (.idxInvalidate r part rep) s r 0x20 s.toChip same) ∧
    (ixChecking s.toChip x = true → Answered (.idxValidate r part rep) s r 0x20 s.toChip same) := by
  intro w same wrote
  have hck : ixChecking (setArmed s.toChip r .srch false) x = ixChecking s.toChip x := by
    rw [ixChecking, checks_setArmed, ixChecking]
  have hex : ∀ v, exec (if v then .idxValidate r part rep else .idxInvalidate r part rep) s =
      act s (fun c => mgmtWriteWith c r noArgs aSRCH_IDX_CTRL (w32 (part.toNat * 256 + 2 * b2n rep + b2n v))) := fun v => by
    cases v
    · rw [show b2n false = 0 from rfl, Nat.add_zero]; rfl
    · rw [show b2n true = 1 from rfl]; rfl
  have hv := hex true
  have hi := hex false
  obtain ⟨xv, hav, hrv, hnv, hbv, hov, -, hwv⟩ := write_idxCtrl (w32 (part.toNat * 256 + 2 * b2n rep + b2n true)) h ha
  obtain ⟨xi, hai, hri, hni, hbi, hoi, hfi, hwi⟩ := write_idxCtrl (w32 (part.toNat * 256 + 2 * b2n rep + b2n false)) h ha
  rw [← hx] at hbv hbi
  rw [hbv] at hov
  rw [hbi] at hoi hfi
  obtain ⟨hpv, h1v, h0v⟩ := idxWord part rep true
  obtain ⟨hpi, h1i, h0i⟩ := idxWord part rep false
  rw [idxCtrlWrite_eq hav hrv, hbv, hck] at hwv
  rw [idxCtrlWrite_eq hai hri, hbi, hck] at hwi
  refine ⟨fun hc h0 => ?_, fun hc h0 hb hp => ?_, fun hc => ?_, fun hc => ?_⟩
  · have ho : bit xv.old 0 = false := hov.trans h0
    simp only [hc, ho, hnv, h0v, Bool.false_eq_true, if_false, if_true, false_and] at hwv
    refine accepted_write hv hwv ?_ ?_
    · rw [desk_idxBegun, desk_setArmed, checks_setArmed]; rfl
    · obtain ⟨g1, g2, g3⟩ := idxStored_fields (setArmed s.toChip r .srch false) x
        (w32 (part.toNat * 256 + 2 * b2n rep + b2n true))
      obtain ⟨hreg, hst⟩ := idxBegun_regs (setArmed s.toChip r .srch false) x
        (w32 (part.toNat * 256 + 2 * b2n rep + b2n true))
      rw [regB_setArmed_eq] at g3
      refine ⟨⟨?_, ?_, ?_⟩, ?_⟩
      · show fld (regB _ _ _) 10 8 = _
        rw [regB_answered, hreg, g1, hpv]
      · show bit (regB _ _ _) 1 = _
        rw [regB_answered, hreg, g2, h1v]
      · show bit (regB _ _ _) 0 = _
        rw [regB_answered, hreg, g3]
        exact h0
      · rw [regB_answered, hst]
  · have ho : bit xi.old 0 = true := hoi.trans h0
    have hf : fld xi.old 10 8 = part.toNat := hfi.trans hp
    simp only [hc, ho, hni, h0i, hf, hpi, ixBusy_setArmed, hb, Bool.false_eq_true, if_false, and_false,
      ne_eq, not_true_eq_false] at hwi
    refine accepted_write hi hwi ?_ ?_
    · rw [desk_of_quiet (quiet_setFldB ..), desk_idxStored, desk_setArmed]
    · obtain ⟨g1, g2, -⟩ := idxStored_fields (setArmed s.toChip r .srch false) x
        (w32 (part.toNat * 256 + 2 * b2n rep + b2n false))
      refine ⟨?_, ?_, ?_⟩
      · show fld (regB _ _ _) 10 8 = _
        rw [regB_answered, fld_setFldB_other _ _ _ _ (by decide) (by decide) (by decide), g1, hpi]
      · show bit (regB _ _ _) 1 = _
        rw [regB_answered, bit_setFldB_other _ _ _ _ _ (by decide) (by decide), g2, h1i]
      · show bit (regB _ _ _) 0 = _
        rw [regB_answered, bit_setFldB_zero _ _ _ (by decide)]
  · have hbusy : (if ixChecking s.toChip x then ((rejBusy, setArmed s.toChip r .srch false) : Nat × Chip)
        else if bit xi.old 0 ∧ !bit xi.new 0 ∧ ixBusy (setArmed s.toChip r .srch false) x then
          (rejBusy, setArmed s.toChip r .srch false)
        else if bit xi.old 0 ∧ fld xi.new 10 8 ≠ fld xi.old 10 8 then (rejState, setArmed s.toChip r .srch false)
        else if bit xi.new 0 then (stOK, if bit xi.old 0 then idxStored (setArmed s.toChip r .srch false) x xi.new
          else idxBegun (setArmed s.toChip r .srch false) x xi.new)
        else (stOK, setFldB (idxStored (setArmed s.toChip r .srch false) x xi.new) x aSRCH_IDX_CTRL 0 0 0)) =
        (rejBusy, setArmed s.toChip r .srch false) := by
      rcases hc with hc | ⟨h0, hb⟩
      · rw [if_pos hc]
      · split
        · rfl
        · rw [if_pos ⟨hoi.trans h0, by rw [hni, h0i]; rfl, by rw [ixBusy_setArmed]; exact hb⟩]
    rw [hbusy] at hwi
    exact refused_write hi hwi
  · rw [if_pos hc] at hwv
    exact refused_write hv hwv

/-- Settles O14: each write reaches the rule of its register, whose cases are the clauses. -/
theorem slotWrites : Obligations.SlotWrites := by
  refine ⟨?_, fun s r part rep x h ha hx => indexWrites h ha hx⟩
  intro s r n m h ha hm w same
  have hck : (setArmed s.toChip r .attn false).checks = s.checks := checks_setArmed
  have hex : ∀ v, exec (if v then .modelValidate r n else .modelInvalidate r n) s =
      act s (fun c => mgmtWriteWith c r noArgs aATTN_MODEL_CTRL (w32 (n.toNat * 256 + b2n v))) := fun v => by
    cases v
    · rw [show b2n false = 0 from rfl, Nat.add_zero]; rfl
    · rw [show b2n true = 1 from rfl]; rfl
  have hv := hex true
  have hi := hex false
  obtain ⟨xv, hav, hnv, -, hbv, hov, hwv⟩ := write_modelCtrl (w32 (n.toNat * 256 + b2n true)) h ha
  obtain ⟨xi, hai, hni, hpi, hbi, -, hwi⟩ := write_modelCtrl (w32 (n.toNat * 256 + b2n false)) h ha
  rw [← hm] at hbv hbi
  rw [hbv] at hov
  obtain ⟨hfv, h0v⟩ := modelWord n true
  obtain ⟨hfi, h0i⟩ := modelWord n false
  have hlt : n.toNat % 2 ^ 8 = n.toNat := Nat.mod_eq_of_lt n.isLt
  refine ⟨fun hn hs => ⟨fun h0 => ?_, ?_⟩, fun hn => ⟨?_, ?_⟩, fun hn hs => ?_⟩
  · rw [writeAttn_valid hav (by rw [hck]; exact hn) (by rw [slotNamed_setArmed, hbv]; exact hs) (by rw [hnv]; exact h0v)
      (by rw [hov]; exact h0), hbv, hnv, hfv] at hwv
    refine accepted_write hv hwv ?_ ?_
    · rw [desk_modelBegun, desk_setArmed, hck]; rfl
    · obtain ⟨h1, h2, h3⟩ := modelBegun_regs (setArmed s.toChip r .attn false) m n.toNat
      rw [regB_setArmed_eq] at h2
      refine ⟨?_, ?_, ?_⟩
      · show fld (regB _ _ _) 15 8 = _
        rw [regB_answered, h1, hlt]
      · show bit (regB _ _ _) 0 = _
        rw [regB_answered, h2, h0]
      · rw [reg_answered, h3]
  · rw [writeAttn_invalid hai (by rw [hck]; exact hn) (by rw [slotNamed_setArmed, hbi]; exact hs)
      (by rw [hni]; exact h0i), hbi, hni, hfi] at hwi
    refine accepted_write hi hwi ?_ ?_
    · rw [desk_modelDropped, desk_setArmed, imagesDropped, hck]; rfl
    · obtain ⟨h1, h2, h3⟩ := modelDropped_regs (setArmed s.toChip r .attn false) m n.toNat
      rw [regB_setArmed_eq] at h3
      refine ⟨?_, ?_, fun h0 => ?_⟩
      · show fld (regB _ _ _) 15 8 = _
        rw [regB_answered, h1, hlt]
      · show bit (regB _ _ _) 0 = _
        rw [regB_answered, h2]
      · rw [Event, hdr_answered]
        exact h3 h0
  · rw [writeAttn_busy hav (by rw [hck]; exact hn)] at hwv
    exact refused_write hv hwv
  · rw [writeAttn_busy hai (by rw [hck]; exact hn)] at hwi
    exact refused_write hi hwi
  · rw [writeAttn_named hai (by rw [hck]; exact hn) (by rw [slotNamed_setArmed, hbi]; exact hs) (by rw [hni]; exact h0i)
      hpi] at hwi
    exact refused_write hi hwi

end Sys2Proof.Machine
end

section
/-! The ends of the checks of tables and indexes (O15). -/

namespace Sys2Proof.Machine

open Sys2Proof.Safety

theorem reg_withChecks (c : Chip) (k : ChecksUnit) (a : Nat) : reg (withChecks c k) a = reg c a := regB_withChecks c k 0 a

theorem quiet_withChecks_congr {c d : Chip} {k k' : ChecksUnit} (h : quiet d = quiet (withChecks c k')) :
    quiet (withChecks d k) = quiet (withChecks c k) := congrArg (withChecks · k) h

/-! ### What the tables depend on -/

theorem layerTableAt_congr {c d : Chip} {m : Nat}
    (hn : fld (regB d m aATTN_MODEL_CTRL) 15 8 = fld (regB c m aATTN_MODEL_CTRL) 15 8)
    (ha : pairB d m aATTN_LAYERS_LO = pairB c m aATTN_LAYERS_LO) (hm : d.mem = c.mem) :
    layerTableAt d m = layerTableAt c m := by
  have h : layerDescAt d m = layerDescAt c m := funext fun i => by
    rw [layerDescAt, layersAddr, ha, hm, layerDescAt, layersAddr]
  rw [layerTableAt, layerTableAt, h, layerCount, hn, layerCount]

theorem ropeCells_congr {c d : Chip} {m : Nat}
    (hn : fld (regB d m aATTN_MODEL_CTRL) 15 8 = fld (regB c m aATTN_MODEL_CTRL) 15 8)
    (ha : pairB d m aATTN_LAYERS_LO = pairB c m aATTN_LAYERS_LO) (hm : d.mem = c.mem)
    (hi : d.checks.layerImg = c.checks.layerImg) : ropeCells d m = ropeCells c m := by
  have h : layerDesc d m = layerDesc c m := funext fun i => by
    rw [layerDesc, hi, layerDescAt, layersAddr, ha, hm, layerDesc, layerDescAt, layersAddr]
  rw [ropeCells, ropeCells, layerTable, layerTable, h, layerCount, hn, hm, layerCount]

theorem vocabBytes_congr {c d : Chip} (h : d.mem = c.mem) (a : Nat) : vocabBytes d a = vocabBytes c a := by
  simp only [vocabBytes, vocEntryAt, vocEntries, vocPoolAt, vocPoolLen, vocMergeAt, vocLog2, vocByteAt, memNat, h]

theorem gramBytes_congr {c d : Chip} {g : Nat} (h : d.mem = c.mem) (ha : gramAddr d g = gramAddr c g) :
    gramBytes d g = gramBytes c g := by
  have hm : memNat d = memNat c := funext fun a => funext fun n => by rw [memNat, h, memNat]
  unfold gramBytes deepOf stMask stDeep grStateAt grStates grTransAt grTrans grMaskAt grEntries grDeepAt
  rw [hm, h, ha]

/-! ### Layer tables -/

/-- The layer table of a slot that passed its check: valid, its status cleared. -/
def modelMarked (c : Chip) (m : Nat) : Chip := setFldB (setReg c aATTN_MODEL_STAT (w32 stOK)) m aATTN_MODEL_CTRL 0 0 1

theorem modelMarked_regs (c : Chip) (m : Nat) :
    fld (regB (modelMarked c m) m aATTN_MODEL_CTRL) 15 8 = fld (regB c m aATTN_MODEL_CTRL) 15 8 ∧
    pairB (modelMarked c m) m aATTN_LAYERS_LO = pairB c m aATTN_LAYERS_LO ∧
    bit (regB (modelMarked c m) m aATTN_MODEL_CTRL) 0 = true ∧ reg (modelMarked c m) aATTN_MODEL_STAT = 0 := by
  have hs : ∀ b a, a < bankStride → a ≠ aATTN_MODEL_STAT →
      regB (setReg c aATTN_MODEL_STAT (w32 stOK)) b a = regB c b a := fun b a h1 h2 =>
    regKey_setKey_other _ _ _ _ _ (rkey_apart h1 (by decide) h2)
  have hf : ∀ a, a < bankStride → a ≠ aATTN_MODEL_STAT → a ≠ aATTN_MODEL_CTRL →
      regB (modelMarked c m) m a = regB c m a := fun a h1 h2 h3 => by
    rw [modelMarked, regB_setFldB_other _ _ _ _ _ h3, hs _ _ h1 h2]
  refine ⟨?_, ?_, ?_, ?_⟩
  · rw [modelMarked, fld_setFldB_other _ _ _ _ (by decide) (by decide) (by decide), hs _ _ (by decide) (by decide)]
  · rw [pairB, pairB, hf _ (by decide) (by decide) (by decide), hf _ (by decide) (by decide) (by decide)]
  · rw [modelMarked, bit_setFldB_one _ _ _ (by decide)]
  · rw [modelMarked, reg, setFldB, regKey_setKey_other _ _ _ _ _ (rkey_apart (by decide) (by decide) (by decide))]
    exact reg_setReg_self ..

theorem modelMarked_stands (c : Chip) (m : Nat) : (modelMarked c m).mem = c.mem ∧ (modelMarked c m).checks = c.checks ∧
    quiet (modelMarked c m) = quiet c := by
  refine ⟨?_, ?_, by rw [modelMarked, quiet_setFldB, quiet_setReg]⟩
  · rw [modelMarked, setFldB, setKey_mem, setReg_mem]
  · rw [modelMarked, setFldB, setKey_checks, setReg_checks]

/-- The end of a check that passed, with the images it found. -/
def modelPassed (c : Chip) (m : Nat) (img : Tbl (List Byte)) (cells : Tbl (List Host.Cell)) : Chip :=
  raise (withChecks (modelMarked c m) { c.checks with layerImg := img, tableImg := cells }) .attn 16

theorem modelCheckDone_pass {c : Chip} {m : Nat} (h : c.checks.model = some m)
    (hb : badLayer (withChecks c { c.checks with model := none }) m = none) :
    let c1 := withChecks c { c.checks with model := none }
    let img := tins c.checks.layerImg m (layerTableAt c1 m).flatten
    let valid := setFldB (withChecks c { c.checks with model := none, layerImg := img }) m aATTN_MODEL_CTRL 0 0 1
    modelCheckDone c = modelPassed c1 m img (tset [] c.checks.tableImg m (ropeCells valid m)) := by
  intro c1 img valid
  obtain ⟨hn, ha, -, -⟩ := modelMarked_regs c1 m
  obtain ⟨hmem, hck, -⟩ := modelMarked_stands c1 m
  have himg : tins (modelMarked c1 m).checks.layerImg m (layerTableAt (modelMarked c1 m) m).flatten = img := by
    rw [layerTableAt_congr hn ha hmem, hck]
  have hcells : ropeCells (withChecks (modelMarked c1 m) { (modelMarked c1 m).checks with layerImg := img }) m =
      ropeCells valid m := by
    have hv : ∀ a, a ≠ aATTN_MODEL_CTRL → regB valid m a = regB c m a := fun a ha =>
      (regB_setFldB_other _ _ _ _ _ ha).trans (regB_withChecks ..)
    refine ropeCells_congr ?_ ?_ ?_ ?_
    · rw [regB_withChecks, hn, regB_withChecks, fld_setFldB_other _ _ _ _ (by decide) (by decide) (by decide)]
      rfl
    · refine (pairB_kept (regB_withChecks ..) (regB_withChecks ..)).trans (ha.trans ?_)
      exact pairB_kept ((regB_withChecks ..).trans (hv _ (by decide)).symm) ((regB_withChecks ..).trans (hv _ (by decide)).symm)
    · rw [hmem, show valid.mem = c.mem from setKey_mem ..]
    · rw [show valid.checks = _ from setFldB_checks ..]
  have hd : modelCheckDone c = raise (withChecks (withChecks (modelMarked c1 m) { (modelMarked c1 m).checks with
      layerImg := tins (modelMarked c1 m).checks.layerImg m (layerTableAt (modelMarked c1 m) m).flatten })
      { (modelMarked c1 m).checks with
        layerImg := tins (modelMarked c1 m).checks.layerImg m (layerTableAt (modelMarked c1 m) m).flatten
        tableImg := tset [] (modelMarked c1 m).checks.tableImg m (ropeCells (withChecks (modelMarked c1 m)
          { (modelMarked c1 m).checks with
            layerImg := tins (modelMarked c1 m).checks.layerImg m (layerTableAt (modelMarked c1 m) m).flatten }) m) })
      .attn 16 := by
    unfold modelCheckDone
    rw [h]
    dsimp only
    rw [hb]
    rfl
  rw [hd, himg, hcells, hck]
  rfl

theorem modelCheckDone_fail {c : Chip} {m i : Nat} (h : c.checks.model = some m)
    (hb : badLayer (withChecks c { c.checks with model := none }) m = some i) :
    modelCheckDone c = raise (setReg (withChecks c { c.checks with model := none }) aATTN_MODEL_STAT
      (w32 (i * 2 ^ 8 + rejLimit))) .attn 17 := by
  unfold modelCheckDone
  rw [h]
  dsimp only
  rw [hb]

/-- MODEL_CHECK_DONE on an idle chip. -/
theorem exec_modelCheckDone {s : State} (ha : Awake s.toChip) (hf : FigIdle s.toChip) :
    exec .modelCheckDone s = .next (after s (modelCheckDone s.toChip)) := by
  have he : exec .modelCheckDone s = act s (fun c => whenAwake c (fun c => modelCheckDone (settle c))) := rfl
  rw [he, act_whenAwake ha, settle_idle hf.1.1]

/-! ### Vocabularies and grammars -/

/-- A vocabulary slot that passed its check. -/
def vocabMarked (c : Chip) (m : Nat) : Chip := setFldB (setFld c aTEXT_VOCAB_STAT 7 0 stOK) m aTEXT_VOCAB_CTRL 0 0 1

theorem vocabMarked_regs (c : Chip) (m : Nat) :
    bit (regB (vocabMarked c m) m aTEXT_VOCAB_CTRL) 0 = true ∧ vocabMode (vocabMarked c m) m = vocabMode c m ∧
    vocabAddr (vocabMarked c m) m = vocabAddr c m ∧ fld (reg (vocabMarked c m) aTEXT_VOCAB_STAT) 7 0 = 0 := by
  have hs : ∀ b a, a < bankStride → a ≠ aTEXT_VOCAB_STAT →
      regB (setFld c aTEXT_VOCAB_STAT 7 0 stOK) b a = regB c b a := fun b a h1 h2 =>
    regKey_setKey_other _ _ _ _ _ (rkey_apart h1 (by decide) h2)
  have hf : ∀ a, a < bankStride → a ≠ aTEXT_VOCAB_STAT → a ≠ aTEXT_VOCAB_CTRL →
      regB (vocabMarked c m) m a = regB c m a := fun a h1 h2 h3 => by
    rw [vocabMarked, regB_setFldB_other _ _ _ _ _ h3, hs _ _ h1 h2]
  refine ⟨?_, ?_, ?_, ?_⟩
  · rw [vocabMarked, bit_setFldB_one _ _ _ (by decide)]
  · rw [vocabMode, vocabMarked, bit_setFldB_other _ _ _ _ _ (by decide) (by decide), hs _ _ (by decide) (by decide),
      vocabMode]
  · rw [vocabAddr, vocabAddr, pairB, pairB, hf _ (by decide) (by decide) (by decide),
      hf _ (by decide) (by decide) (by decide)]
  · rw [vocabMarked, reg, setFldB, regKey_setKey_other _ _ _ _ _ (rkey_apart (by decide) (by decide) (by decide))]
    exact fld_setFld_self _ _ _ (by decide) (by decide)

theorem vocabMarked_stands (c : Chip) (m : Nat) : (vocabMarked c m).mem = c.mem ∧ (vocabMarked c m).checks = c.checks ∧
    quiet (vocabMarked c m) = quiet c := by
  refine ⟨?_, ?_, by rw [vocabMarked, quiet_setFldB, quiet_setFld]⟩
  · rw [vocabMarked, setFldB, setKey_mem, setFld, setKey_mem]
  · rw [vocabMarked, setFldB, setKey_checks, setFld, setKey_checks]

theorem vocabCheckDone_pass {c : Chip} {m : Nat} (h : c.checks.vocab = some m)
    (hb : vocabCheckOk (withChecks c { c.checks with vocab := none }) m = true) :
    vocabCheckDone c = withChecks (vocabMarked (withChecks c { c.checks with vocab := none }) m) { c.checks with
      vocab := none
      vocabImg := tins c.checks.vocabImg m (if vocabMode c m then vocabBytes c (vocabAddr c m) else []) } := by
  obtain ⟨-, hmode, haddr, -⟩ := vocabMarked_regs (withChecks c { c.checks with vocab := none }) m
  obtain ⟨hmem, hck, -⟩ := vocabMarked_stands (withChecks c { c.checks with vocab := none }) m
  have hd : vocabCheckDone c = withChecks (vocabMarked (withChecks c { c.checks with vocab := none }) m)
      { (vocabMarked (withChecks c { c.checks with vocab := none }) m).checks with
        vocabImg := tins (vocabMarked (withChecks c { c.checks with vocab := none }) m).checks.vocabImg m
          (if vocabMode (vocabMarked (withChecks c { c.checks with vocab := none }) m) m then
            vocabBytes (vocabMarked (withChecks c { c.checks with vocab := none }) m)
              (vocabAddr (vocabMarked (withChecks c { c.checks with vocab := none }) m) m) else []) } := by
    unfold vocabCheckDone
    rw [h]
    dsimp only
    rw [if_pos hb]
    rfl
  rw [hd, hmode, haddr, hck, vocabBytes_congr (c := c) hmem]
  rfl

theorem vocabCheckDone_fail {c : Chip} {m : Nat} (h : c.checks.vocab = some m)
    (hb : vocabCheckOk (withChecks c { c.checks with vocab := none }) m = false) :
    vocabCheckDone c = raise (setFld (withChecks c { c.checks with vocab := none }) aTEXT_VOCAB_STAT 7 0 rejLimit)
      .text 17 := by
  unfold vocabCheckDone
  rw [h]
  dsimp only
  rw [if_neg (by rw [hb]; exact Bool.false_ne_true)]

theorem exec_vocabCheckDone {s : State} (ha : Awake s.toChip) (hf : FigIdle s.toChip) :
    exec .vocabCheckDone s = .next (after s (vocabCheckDone s.toChip)) := by
  have he : exec .vocabCheckDone s = act s (fun c => whenAwake c (fun c => vocabCheckDone (settle c))) := rfl
  rw [he, act_whenAwake ha, settle_idle hf.1.1]

/-- A grammar that passed its check. -/
def gramMarked (c : Chip) (g : Nat) : Chip := setFldB (setFld c aTEXT_GRAM_STAT 7 0 stOK) g aTEXT_GRAM_CTRL 0 0 1

theorem gramMarked_regs (c : Chip) (g : Nat) :
    bit (regB (gramMarked c g) g aTEXT_GRAM_CTRL) 0 = true ∧ gramAddr (gramMarked c g) g = gramAddr c g ∧
    fld (reg (gramMarked c g) aTEXT_GRAM_STAT) 7 0 = 0 := by
  have hs : ∀ b a, a < bankStride → a ≠ aTEXT_GRAM_STAT →
      regB (setFld c aTEXT_GRAM_STAT 7 0 stOK) b a = regB c b a := fun b a h1 h2 =>
    regKey_setKey_other _ _ _ _ _ (rkey_apart h1 (by decide) h2)
  have hf : ∀ a, a < bankStride → a ≠ aTEXT_GRAM_STAT → a ≠ aTEXT_GRAM_CTRL →
      regB (gramMarked c g) g a = regB c g a := fun a h1 h2 h3 => by
    rw [gramMarked, regB_setFldB_other _ _ _ _ _ h3, hs _ _ h1 h2]
  refine ⟨?_, ?_, ?_⟩
  · rw [gramMarked, bit_setFldB_one _ _ _ (by decide)]
  · rw [gramAddr, gramAddr, pairB, pairB, hf _ (by decide) (by decide) (by decide),
      hf _ (by decide) (by decide) (by decide)]
  · rw [gramMarked, reg, setFldB, regKey_setKey_other _ _ _ _ _ (rkey_apart (by decide) (by decide) (by decide))]
    exact fld_setFld_self _ _ _ (by decide) (by decide)

theorem gramMarked_stands (c : Chip) (g : Nat) : (gramMarked c g).mem = c.mem ∧ (gramMarked c g).checks = c.checks ∧
    quiet (gramMarked c g) = quiet c := by
  refine ⟨?_, ?_, by rw [gramMarked, quiet_setFldB, quiet_setFld]⟩
  · rw [gramMarked, setFldB, setKey_mem, setFld, setKey_mem]
  · rw [gramMarked, setFldB, setKey_checks, setFld, setKey_checks]

theorem gramCheckDone_pass {c : Chip} {g : Nat} (h : c.checks.gram = some g)
    (hb : gramCheckOk (withChecks c { c.checks with gram := none }) g = true) :
    gramCheckDone c = withChecks (gramMarked (withChecks c { c.checks with gram := none }) g) { c.checks with
      gram := none, gramImg := tins c.checks.gramImg g (gramBytes c g) } := by
  obtain ⟨-, haddr, -⟩ := gramMarked_regs (withChecks c { c.checks with gram := none }) g
  obtain ⟨hmem, hck, -⟩ := gramMarked_stands (withChecks c { c.checks with gram := none }) g
  have hd : gramCheckDone c = withChecks (gramMarked (withChecks c { c.checks with gram := none }) g)
      { (gramMarked (withChecks c { c.checks with gram := none }) g).checks with
        gramImg := tins (gramMarked (withChecks c { c.checks with gram := none }) g).checks.gramImg g
          (gramBytes (gramMarked (withChecks c { c.checks with gram := none }) g) g) } := by
    unfold gramCheckDone
    rw [h]
    dsimp only
    rw [if_pos hb]
    rfl
  rw [hd, hck, gramBytes_congr (c := c) hmem haddr]

theorem gramCheckDone_fail {c : Chip} {g : Nat} (h : c.checks.gram = some g)
    (hb : gramCheckOk (withChecks c { c.checks with gram := none }) g = false) :
    gramCheckDone c = raise (setFld (withChecks c { c.checks with gram := none }) aTEXT_GRAM_STAT 7 0 rejLimit)
      .text 18 := by
  unfold gramCheckDone
  rw [h]
  dsimp only
  rw [if_neg (by rw [hb]; exact Bool.false_ne_true)]

theorem exec_gramCheckDone {s : State} (ha : Awake s.toChip) (hf : FigIdle s.toChip) :
    exec .gramCheckDone s = .next (after s (gramCheckDone s.toChip)) := by
  have he : exec .gramCheckDone s = act s (fun c => whenAwake c (fun c => gramCheckDone (settle c))) := rfl
  rw [he, act_whenAwake ha, settle_idle hf.1.1]

/-! ### Indexes -/

/-- An index that passed its check: valid, its counts at 0. -/
def idxMarked (c : Chip) (x : Nat) : Chip :=
  setRegB (setRegB (setFldB c x aSRCH_IDX_CTRL 0 0 1) x aSRCH_IDX_REPAIRED 0) x aSRCH_IDX_DELETED 0

theorem idxMarked_regs (c : Chip) (x : Nat) :
    bit (regB (idxMarked c x) x aSRCH_IDX_CTRL) 0 = true ∧ regB (idxMarked c x) x aSRCH_IDX_REPAIRED = 0 ∧
    regB (idxMarked c x) x aSRCH_IDX_DELETED = 0 ∧ regB (idxMarked c x) x aSRCH_IDX_STAT = regB c x aSRCH_IDX_STAT := by
  rw [idxMarked]
  refine ⟨?_, ?_, regB_setRegB_self .., ?_⟩
  · rw [regB_setRegB_other _ _ _ _ _ (by decide), regB_setRegB_other _ _ _ _ _ (by decide), bit_setFldB_one _ _ _ (by decide)]
  · rw [regB_setRegB_other _ _ _ _ _ (by decide), regB_setRegB_self]
  · rw [regB_setRegB_other _ _ _ _ _ (by decide), regB_setRegB_other _ _ _ _ _ (by decide),
      regB_setFldB_other _ _ _ _ _ (by decide)]

theorem idxMarked_stands (c : Chip) (x : Nat) : (idxMarked c x).mem = c.mem ∧ (idxMarked c x).checks = c.checks ∧
    (idxMarked c x).flash = c.flash := by
  rw [idxMarked, setRegB, setRegB, setFldB]
  refine ⟨?_, ?_, ?_⟩
  · rw [setKey_mem, setKey_mem, setKey_mem]
  · rw [setKey_checks, setKey_checks, setKey_checks]
  · rw [setKey_flash, setKey_flash, setKey_flash]

/-- The chip with the check of an index over. -/
def idxOver (c : Chip) (x : Nat) : Chip := withChecks c { c.checks with index := c.checks.index.filter (fun y => y ≠ x) }

/-- The code of the check stands in the index's status register. -/
def idxCoded (c : Chip) (x : Nat) : Chip := setRegB (idxOver c x) x aSRCH_IDX_STAT (w32 (ixCheck (idxOver c x) x))

theorem idxCoded_stands (c : Chip) (x : Nat) : (idxCoded c x).mem = c.mem ∧ (idxCoded c x).checks = (idxOver c x).checks ∧
    (idxCoded c x).flash = c.flash := by
  rw [idxCoded, setRegB]
  exact ⟨setKey_mem .., setKey_checks .., setKey_flash ..⟩

theorem idxCheckDone_fail {c : Chip} {x : Nat} (h : ixChecking c x = true) (hb : ixCheck (idxOver c x) x ≠ 0) :
    idxCheckDone c x = idxCoded c x := by
  unfold idxCheckDone
  rw [if_neg (by rw [h]; exact Bool.true_eq_false_eq_False)]
  exact if_pos hb

theorem idxCheckDone_pass {c : Chip} {x : Nat} (h : ixChecking c x = true) (hb : ixCheck (idxOver c x) x = 0) :
    ∃ u, idxCheckDone c x = { idxMarked (idxCoded c x) x with srch := u } := by
  refine ⟨{ (idxMarked (idxCoded c x) x).srch with
    repairNext := tdel (idxMarked (idxCoded c x) x).srch.repairNext x }, ?_⟩
  unfold idxCheckDone
  rw [if_neg (by rw [h]; exact Bool.true_eq_false_eq_False)]
  exact if_neg (fun hne => hne hb)

theorem regB_after (s : State) (c : Chip) (b a : Nat) : regB (after s c).toChip b a = regB c b a := rfl

theorem regB_withSrch (c : Chip) (u : SrchUnit) (b a : Nat) : regB { c with srch := u } b a = regB c b a := rfl


/-- What the end of a check of an index leaves. -/
structure IdxEnded (c d : Chip) (x : Nat) : Prop where
  checks : d.checks = (idxOver c x).checks
  mem : d.mem = c.mem
  flash : d.flash = c.flash
  stat : regB d x aSRCH_IDX_STAT = w32 (ixCheck (idxOver c x) x)
  passed : ixCheck (idxOver c x) x = 0 → bit (regB d x aSRCH_IDX_CTRL) 0 = true ∧
    regB d x aSRCH_IDX_REPAIRED = 0 ∧ regB d x aSRCH_IDX_DELETED = 0
  failed : ixCheck (idxOver c x) x ≠ 0 → regB d x aSRCH_IDX_CTRL = regB c x aSRCH_IDX_CTRL

theorem idxEnded_fail {c : Chip} {x : Nat} (h : ixCheck (idxOver c x) x ≠ 0) : IdxEnded c (idxCoded c x) x := by
  obtain ⟨hm, hc, hfl⟩ := idxCoded_stands c x
  refine ⟨hc, hm, hfl, ?_, fun hz => absurd hz h, fun _ => ?_⟩
  · rw [idxCoded, regB_setRegB_self]
  · rw [idxCoded, regB_setRegB_other _ _ _ _ _ (by decide), idxOver, regB_withChecks]

theorem idxEnded_pass {c : Chip} {x : Nat} (h : ixCheck (idxOver c x) x = 0) :
    IdxEnded c (idxMarked (idxCoded c x) x) x := by
  obtain ⟨hm, hc, hfl⟩ := idxCoded_stands c x
  obtain ⟨h1, h2, h3, h4⟩ := idxMarked_regs (idxCoded c x) x
  obtain ⟨g1, g2, g3⟩ := idxMarked_stands (idxCoded c x) x
  have hst : regB (idxCoded c x) x aSRCH_IDX_STAT = w32 (ixCheck (idxOver c x) x) := by rw [idxCoded, regB_setRegB_self]
  exact ⟨g2.trans hc, g1.trans hm, g3.trans hfl, h4.trans hst, fun _ => ⟨h1, h2, h3⟩, fun hz => absurd h hz⟩

/-- The state of SRCH is no part of it. -/
theorem IdxEnded.withSrch {c d : Chip} {x : Nat} (h : IdxEnded c d x) (u : SrchUnit) : IdxEnded c { d with srch := u } x :=
  ⟨h.checks, h.mem, h.flash, (regB_withSrch ..).trans h.stat, fun hz => by
    rw [regB_withSrch, regB_withSrch, regB_withSrch]
    exact h.passed hz, fun hz => (regB_withSrch ..).trans (h.failed hz)⟩

theorem idxCheckDone_ends {c : Chip} {x : Nat} (h : ixChecking c x = true) : IdxEnded c (idxCheckDone c x) x := by
  by_cases hb : ixCheck (idxOver c x) x = 0
  · obtain ⟨u, hu⟩ := idxCheckDone_pass h hb
    rw [hu]
    exact (idxEnded_pass hb).withSrch u
  · rw [idxCheckDone_fail h hb]
    exact idxEnded_fail hb

theorem indexCheckEnds {s : State} (x : BitVec 4) (ha : Awake s.toChip) (hf : FigIdle s.toChip)
    (hx : ixChecking s.toChip x.toNat = true) :
    Completes (.idxCheckDone x) s (fun t => t.checks = (idxOver s.toChip x.toNat).checks ∧ t.mem = s.mem ∧
      t.flash = s.flash ∧ regB t.toChip x.toNat aSRCH_IDX_STAT = w32 (ixCheck (idxOver s.toChip x.toNat) x.toNat) ∧
      (ixCheck (idxOver s.toChip x.toNat) x.toNat = 0 → bit (regB t.toChip x.toNat aSRCH_IDX_CTRL) 0 = true ∧
        regB t.toChip x.toNat aSRCH_IDX_REPAIRED = 0 ∧ regB t.toChip x.toNat aSRCH_IDX_DELETED = 0) ∧
      (ixCheck (idxOver s.toChip x.toNat) x.toNat ≠ 0 →
        regB t.toChip x.toNat aSRCH_IDX_CTRL = regB s.toChip x.toNat aSRCH_IDX_CTRL)) := by
  have he : exec (.idxCheckDone x) s = act s (fun c => whenAwake c (fun c => idxCheckDone (settle c) x.toNat)) := rfl
  rw [act_whenAwake ha, settle_idle hf.1.1] at he
  have hend := idxCheckDone_ends hx
  generalize idxCheckDone s.toChip x.toNat = d at he hend
  obtain ⟨h1, h2, h3, h4, h5, h6⟩ := hend
  refine ⟨_, he, after_pending _ _, h1, h2, h3, ?_, fun hz => ?_, fun hz => ?_⟩
  · rw [regB_after, h4]
  · rw [regB_after, regB_after, regB_after]
    exact h5 hz
  · rw [regB_after]
    exact h6 hz
/-! ### The statement -/

/-- MODEL_CHECK_DONE, passed. -/
theorem modelEnds_pass {s : State} {m : Nat} (ha : Awake s.toChip) (hf : FigIdle s.toChip) (hm : s.checks.model = some m)
    (hb : badLayer (withChecks s.toChip { s.checks with model := none }) m = none) :
    let img := tins s.checks.layerImg m (layerTableAt (withChecks s.toChip { s.checks with model := none }) m).flatten
    let valid := setFldB (withChecks s.toChip { s.checks with model := none, layerImg := img }) m aATTN_MODEL_CTRL 0 0 1
    Quietly .modelCheckDone s
      (withChecks s.toChip { s.checks with
        model := none, layerImg := img, tableImg := tset [] s.checks.tableImg m (ropeCells valid m) })
      (fun t => modelValid t.toChip m = true ∧ reg t.toChip aATTN_MODEL_STAT = 0 ∧ Event t .attn 16) := by
  intro img valid
  have he := exec_modelCheckDone ha hf
  have hp := modelCheckDone_pass hm hb
  dsimp only at hp
  obtain ⟨-, -, h3, h4⟩ := modelMarked_regs (withChecks s.toChip { s.checks with model := none }) m
  obtain ⟨-, -, hq⟩ := modelMarked_stands (withChecks s.toChip { s.checks with model := none }) m
  rw [hp, modelPassed] at he
  generalize modelMarked (withChecks s.toChip { s.checks with model := none }) m = d at he h3 h4 hq
  have hk := keepsRegs_raise (withChecks d
    { s.checks with model := none, layerImg := img, tableImg := tset [] s.checks.tableImg m (ropeCells valid m) }) .attn 16
  refine ⟨_, he, after_pending _ _, ?_, ?_, ?_, raise_int _ _ _ (by decide)⟩
  · rw [quiet_after, quiet_raise]
    exact quiet_withChecks_congr hq
  · rw [modelValid, regB_after, hk.regB (eventKey_rkey (by decide) (by decide) (by decide) (by decide)), regB_withChecks, h3]
  · exact (hk.reg (by decide)).trans h4

/-- MODEL_CHECK_DONE, failed. -/
theorem modelEnds_fail {s : State} {m i : Nat} (ha : Awake s.toChip) (hf : FigIdle s.toChip) (hm : s.checks.model = some m)
    (hb : badLayer (withChecks s.toChip { s.checks with model := none }) m = some i) :
    Quietly .modelCheckDone s (withChecks s.toChip { s.checks with model := none }) (fun t =>
        modelValid t.toChip m = modelValid s.toChip m ∧ reg t.toChip aATTN_MODEL_STAT = w32 (i * 256 + 0x23) ∧
        Event t .attn 17) := by
  have he := exec_modelCheckDone ha hf
  rw [modelCheckDone_fail hm hb] at he
  have hk := keepsRegs_raise (setReg (withChecks s.toChip { s.checks with model := none }) aATTN_MODEL_STAT
    (w32 (i * 2 ^ 8 + rejLimit))) .attn 17
  refine ⟨_, he, after_pending _ _, ?_, ?_, ?_, raise_int _ _ _ (by decide)⟩
  · rw [quiet_after, quiet_raise, quiet_setReg]
  · rw [modelValid, regB_after, hk.regB (eventKey_rkey (by decide) (by decide) (by decide) (by decide)), regB, setReg,
      regKey_setKey_other _ _ _ _ _ (rkey_apart (by decide) (by decide) (by decide))]
    exact congrArg (bit · 0) (regB_withChecks s.toChip _ m aATTN_MODEL_CTRL)
  · exact (hk.reg (by decide)).trans (reg_setReg_self ..)

/-- VOCAB_CHECK_DONE, passed. -/
theorem vocabEnds_pass {s : State} {m : Nat} (ha : Awake s.toChip) (hf : FigIdle s.toChip) (hm : s.checks.vocab = some m)
    (hb : vocabCheckOk (withChecks s.toChip { s.checks with vocab := none }) m = true) :
    Quietly .vocabCheckDone s (withChecks s.toChip { s.checks with
        vocab := none
        vocabImg := tins s.checks.vocabImg m
          (if vocabMode s.toChip m then vocabBytes s.toChip (vocabAddr s.toChip m) else []) })
      (fun t => bit (regB t.toChip m aTEXT_VOCAB_CTRL) 0 = true ∧ fld (reg t.toChip aTEXT_VOCAB_STAT) 7 0 = 0) := by
  have he := exec_vocabCheckDone ha hf
  rw [vocabCheckDone_pass hm hb] at he
  obtain ⟨h1, -, -, h4⟩ := vocabMarked_regs (withChecks s.toChip { s.checks with vocab := none }) m
  obtain ⟨-, -, hq⟩ := vocabMarked_stands (withChecks s.toChip { s.checks with vocab := none }) m
  generalize vocabMarked (withChecks s.toChip { s.checks with vocab := none }) m = d at he h1 h4 hq
  refine ⟨_, he, after_pending _ _, ?_, ?_, ?_⟩
  · rw [quiet_after]
    exact quiet_withChecks_congr hq
  · rw [regB_after, regB_withChecks, h1]
  · rw [reg_after, reg_withChecks, h4]

/-- VOCAB_CHECK_DONE, failed. -/
theorem vocabEnds_fail {s : State} {m : Nat} (ha : Awake s.toChip) (hf : FigIdle s.toChip) (hm : s.checks.vocab = some m)
    (hb : vocabCheckOk (withChecks s.toChip { s.checks with vocab := none }) m = false) :
    Quietly .vocabCheckDone s (withChecks s.toChip { s.checks with vocab := none }) (fun t =>
        regB t.toChip m aTEXT_VOCAB_CTRL = regB s.toChip m aTEXT_VOCAB_CTRL ∧
        fld (reg t.toChip aTEXT_VOCAB_STAT) 7 0 = 0x23 ∧ Event t .text 17) := by
  have he := exec_vocabCheckDone ha hf
  rw [vocabCheckDone_fail hm hb] at he
  have hk := keepsRegs_raise (setFld (withChecks s.toChip { s.checks with vocab := none }) aTEXT_VOCAB_STAT 7 0
    rejLimit) .text 17
  refine ⟨_, he, after_pending _ _, ?_, ?_, ?_, raise_int _ _ _ (by decide)⟩
  · rw [quiet_after, quiet_raise, quiet_setFld]
  · rw [regB_after, hk.regB (eventKey_rkey (by decide) (by decide) (by decide) (by decide)), regB, setFld,
      regKey_setKey_other _ _ _ _ _ (rkey_apart (by decide) (by decide) (by decide))]
    exact regB_withChecks ..
  · exact (congrArg (fld · 7 0) (hk.reg (by decide))).trans (fld_setFld_self _ _ _ (by decide) (by decide))

/-- GRAM_CHECK_DONE, passed. -/
theorem gramEnds_pass {s : State} {g : Nat} (ha : Awake s.toChip) (hf : FigIdle s.toChip) (hg : s.checks.gram = some g)
    (hb : gramCheckOk (withChecks s.toChip { s.checks with gram := none }) g = true) :
    Quietly .gramCheckDone s (withChecks s.toChip { s.checks with
        gram := none, gramImg := tins s.checks.gramImg g (gramBytes s.toChip g) })
      (fun t => bit (regB t.toChip g aTEXT_GRAM_CTRL) 0 = true ∧ fld (reg t.toChip aTEXT_GRAM_STAT) 7 0 = 0) := by
  have he := exec_gramCheckDone ha hf
  rw [gramCheckDone_pass hg hb] at he
  obtain ⟨h1, -, h4⟩ := gramMarked_regs (withChecks s.toChip { s.checks with gram := none }) g
  obtain ⟨-, -, hq⟩ := gramMarked_stands (withChecks s.toChip { s.checks with gram := none }) g
  generalize gramMarked (withChecks s.toChip { s.checks with gram := none }) g = d at he h1 h4 hq
  refine ⟨_, he, after_pending _ _, ?_, ?_, ?_⟩
  · rw [quiet_after]
    exact quiet_withChecks_congr hq
  · rw [regB_after, regB_withChecks, h1]
  · rw [reg_after, reg_withChecks, h4]

/-- GRAM_CHECK_DONE, failed. -/
theorem gramEnds_fail {s : State} {g : Nat} (ha : Awake s.toChip) (hf : FigIdle s.toChip) (hg : s.checks.gram = some g)
    (hb : gramCheckOk (withChecks s.toChip { s.checks with gram := none }) g = false) :
    Quietly .gramCheckDone s (withChecks s.toChip { s.checks with gram := none }) (fun t =>
        regB t.toChip g aTEXT_GRAM_CTRL = regB s.toChip g aTEXT_GRAM_CTRL ∧
        fld (reg t.toChip aTEXT_GRAM_STAT) 7 0 = 0x23 ∧ Event t .text 18) := by
  have he := exec_gramCheckDone ha hf
  rw [gramCheckDone_fail hg hb] at he
  have hk := keepsRegs_raise (setFld (withChecks s.toChip { s.checks with gram := none }) aTEXT_GRAM_STAT 7 0
    rejLimit) .text 18
  refine ⟨_, he, after_pending _ _, ?_, ?_, ?_, raise_int _ _ _ (by decide)⟩
  · rw [quiet_after, quiet_raise, quiet_setFld]
  · rw [regB_after, hk.regB (eventKey_rkey (by decide) (by decide) (by decide) (by decide)), regB, setFld,
      regKey_setKey_other _ _ _ _ _ (rkey_apart (by decide) (by decide) (by decide))]
    exact regB_withChecks ..
  · exact (congrArg (fld · 7 0) (hk.reg (by decide))).trans (fld_setFld_self _ _ _ (by decide) (by decide))

/-- Settles O15: each check's end is the passed or the failed case of its function. -/
theorem checksEnd : Obligations.ChecksEnd := fun _ ha hf =>
  ⟨fun _ hm => ⟨fun hb => modelEnds_pass ha hf hm hb, fun _ hb => modelEnds_fail ha hf hm hb⟩,
    fun _ hm => ⟨fun hb => vocabEnds_pass ha hf hm hb, fun hb => vocabEnds_fail ha hf hm hb⟩,
    fun _ hg => ⟨fun hb => gramEnds_pass ha hf hg hb, fun hb => gramEnds_fail ha hf hg hb⟩,
    fun x hx => indexCheckEnds x ha hf hx⟩

end Sys2Proof.Machine
end

section
/-! Resets in general, and RESET_N, the crystal, the PLLs and the scan chain (O60). -/

namespace Sys2Proof.Machine

open Sys2Proof.Safety

/-! ### Commands of the minuet domain -/

/-- A command of the minuet domain that has its effect. -/
theorem act_whenMinuet {s : State} {f : Chip → Chip} (h : minuetOn s.toChip = true) :
    act s (fun c => whenMinuet c f) = .next (after s (f s.toChip)) := by
  rw [act, whenMinuet, if_pos h]
  rfl

/-! ### What a reset leaves (R491) -/

/-- The boot NOR after a reset: an update that is cut off may have erased its bank. -/
def norKept (c : Chip) : Tbl Byte :=
  if c.chip.updating ∧ (takeFree c).1 % 2 = 1 then (norErase c (bankBase (!c.chip.bank)) bankBytes).chip.nor else c.chip.nor

theorem norKept_idle {c : Chip} (h : c.chip.updating = false) : norKept c = c.chip.nor := by
  rw [norKept, if_neg (by rw [h]; exact fun x => Bool.false_ne_true x.1)]

/-- The scan chain after a reset that keeps the auxiliary supply. -/
def tapKept (t : Tap) : Tap :=
  { t with instr := if t.instr = .extest ∨ t.instr = .intest ∨ t.instr = .clamp ∨ t.instr = .highz then .idcode else t.instr }

/-- A chip after a reset, but for its management window. -/
def restarted (c : Chip) (minuet : Bool) (cause : Nat) : Chip :=
  { Chip.reset with
    variant := c.variant
    smb := if minuet then c.smb else { Chip.reset.smb with strap := c.smb.strap, nacking := c.smb.nacking }
    flash := flashKept c.flash
    pwr := if minuet then c.pwr else { Chip.reset.pwr with tripped := decide (cause = 1) && c.pwr.tripped }
    sec := { Chip.reset.sec with everDebug := decide (cause ≠ 0) && c.sec.everDebug }
    flt := if minuet then { c.flt with faulted := false, modulePending := false, chipPending := false }
      else { Chip.reset.flt with slots := c.flt.slots, boots := c.flt.boots,
                                 faulted := decide (cause = 1) && c.flt.faulted }
    chip := { Chip.reset.chip with
      mainMv := c.chip.mainMv, auxMv := c.chip.auxMv, inputOpen := c.chip.inputOpen, lossSeen := c.chip.lossSeen
      nor := norKept c, prefer := c.chip.prefer, bootOverlay := c.chip.bootOverlay, bank := c.chip.bank
      inForce := c.chip.bootOverlay
      lastBundle := c.chip.lastBundle, inReset := c.chip.inReset, resetCause := cause
      xtalOk := decide (cause ≠ 0) && c.chip.xtalOk }
    tap := if cause = 0 then Chip.reset.tap else tapKept c.tap
    free := (takeFree c).2.free
    now := if cause = 0 then 0 else c.now
    fineNow := c.fineNow }

/-- A reset changes the management window beside that. -/
theorem resetChip_eq (c : Chip) (minuet : Bool) (cause : Nat) :
    ∃ m, resetChip c minuet cause = { restarted c minuet cause with mgmt := m } := by
  unfold resetChip
  dsimp only
  cases minuet
  · exact ⟨_, rfl⟩
  · exact ⟨_, rfl⟩

/-! ### A first fault of the highest level -/

/-- A fault of its own raises the event of its level. -/
theorem event_reportAt (c : Chip) (f : FaultRep) {n : Nat} (h : n ≤ 3) :
    bit (hdr (reportAt c f n) .flt).int (16 + n) = true := by
  have hr : ∀ d : Chip, bit (hdr (startReaction (faultRecord (raise d .flt (16 + n)) f n) f.cls.toNat n) .flt).int (16 + n) =
      true := fun d =>
    (minor_startReaction _ _ _).ints _ _ ((minor_faultRecord _ _ _).ints _ _ (raise_int d .flt (16 + n) (by omega)))
  exact hr _

/-! ### The scan chain -/

/-- What the boundary register samples of the module's own pins, whatever its open contacts show. -/
theorem sample_bits (a b d : Bool) (strap : BitVec 2) (v : Nat) :
    let w : Word := (BitVec.ofNat 14 (Nat.lor (b2n (!a) * 4 + b2n (!b) * 8 + b2n (!d) * 16 + strap.toNat * 32 +
      b2n true * 2 ^ 13) (Nat.land v 0x1F03))).setWidth 32
    bit w 2 = !a ∧ bit w 3 = !b ∧ bit w 4 = !d ∧ fld w 6 5 = strap.toNat ∧ bit w 13 = true := by
  intro w
  have hw : ∀ n, n < 14 → (0x1F03 : Nat).testBit n = false →
      bit w n = bit (w32 (b2n (!a) * 4 + b2n (!b) * 8 + b2n (!d) * 16 + strap.toNat * 32 + b2n true * 2 ^ 13)) n :=
    fun n hn hz => by
      have hl : ∀ x y : Nat, Nat.lor x y = x ||| y := fun _ _ => rfl
      have hd : ∀ x y : Nat, Nat.land x y = x &&& y := fun _ _ => rfl
      simp only [w, bit, w32, BitVec.getLsbD_setWidth, BitVec.getLsbD_ofNat, hl, hd, Nat.testBit_lor, Nat.testBit_land, hz,
        Bool.and_false, Bool.or_false, hn, decide_true, Bool.true_and, show n < 32 by omega]
  have hall : ∀ (a b d : Bool) (x : BitVec 2),
      let z := w32 (b2n (!a) * 4 + b2n (!b) * 8 + b2n (!d) * 16 + x.toNat * 32 + b2n true * 2 ^ 13)
      bit z 2 = !a ∧ bit z 3 = !b ∧ bit z 4 = !d ∧ fld z 6 5 = x.toNat ∧ bit z 13 = true := by decide
  obtain ⟨h2, h3, h4, h5, h13⟩ := hall a b d strap
  refine ⟨(hw 2 (by decide) (by decide)).trans h2, (hw 3 (by decide) (by decide)).trans h3,
    (hw 4 (by decide) (by decide)).trans h4, (fld_congr fun n h1 h2 => ?_).trans h5,
    (hw 13 (by decide) (by decide)).trans h13⟩
  have hn : n = 5 ∨ n = 6 := by omega
  rcases hn with rfl | rfl <;> exact hw _ (by decide) (by decide)

/-! ### The statement -/

/-- Settles O60: a reset keeps what R491 lists, a relock that fails is a first fault at level 3, and the scan chain's
commands set the TAP alone. -/
theorem resetInputAndScan : Obligations.ResetInputAndScan := by
  refine ⟨fun s hm => ?_, fun s hm => ?_⟩
  · refine ⟨?_, fun a => ⟨fun hr => ?_, fun hr => ?_⟩, ?_, fun hx => ?_, fun hx => ?_, ?_, fun hr => ?_⟩
    · have he : exec .resetInput s = act s (fun c => whenMinuet c resetInput) := rfl
      rw [act_whenMinuet hm, resetInput] at he
      obtain ⟨m, hc⟩ := resetChip_eq s.toChip false 1
      rw [hc] at he
      refine ⟨_, he, after_pending _ _, ⟨rfl, rfl, rfl, rfl, rfl, rfl, rfl, rfl, rfl, rfl, fun h => norKept_idle h⟩, rfl, rfl,
        rfl, rfl, rfl⟩
    · have he : exec (.resetNRelease a) s = act s (fun c => whenMinuet c (fun c =>
        if c.chip.inReset then
          { c with
            smb := { c.smb with strap := a, nacking := false }
            chip := { c.chip with inReset := false } }
        else c)) := rfl
      rw [he, act_whenMinuet hm]
      simp only [show s.chip.inReset = true from hr, if_true]
    · have he : exec (.resetNRelease a) s = act s (fun c => whenMinuet c (fun c =>
        if c.chip.inReset then
          { c with
            smb := { c.smb with strap := a, nacking := false }
            chip := { c.chip with inReset := false } }
        else c)) := rfl
      rw [he, act_whenMinuet hm]
      simp only [show s.chip.inReset = false from hr, Bool.false_eq_true, if_false]
    · exact act_whenMinuet hm
    · have he : exec .xtalFail s = act s (fun c => whenMinuet c (fun c =>
        if c.chip.xtalOk then raise { c with chip := { c.chip with xtalOk := false } } .clk 18 else c)) := rfl
      rw [act_whenMinuet hm, if_pos hx] at he
      exact ⟨_, he, after_pending _ _, by rw [quiet_after, quiet_raise], raise_int _ _ _ (by decide)⟩
    · have he : exec .xtalFail s = act s (fun c => whenMinuet c (fun c =>
        if c.chip.xtalOk then raise { c with chip := { c.chip with xtalOk := false } } .clk 18 else c)) := rfl
      rw [he, act_whenMinuet hm, if_neg (by rw [show s.chip.xtalOk = false from hx]; exact Bool.false_ne_true)]
    · have he : exec (.pllRelock true) s = act s (fun c => whenMinuet c (fun c => raise c .clk 17)) := rfl
      rw [act_whenMinuet hm] at he
      exact ⟨_, he, after_pending _ _, by rw [quiet_after, quiet_raise], raise_int _ _ _ (by decide)⟩
    · have he : exec (.pllRelock false) s = act s (fun c => whenMinuet c (fun c => fault c 0x12 .clk 0 0 true)) := rfl
      rw [act_whenMinuet hm] at he
      refine ⟨_, he, after_pending _ _, ?_, ?_, ?_, ?_⟩
      · rw [quiet_after, quiet_fault _ _ _ _ _ _ (by decide)]
      · exact toNat_classCnt_fault s.toChip .clk 0 0 true (by decide) (by decide)
      · rw [after_flt, fault_first .clk 0 0 true hr (by decide) (by decide) (by decide)]
        exact startReaction_module _ (by decide)
      · rw [Event, hdr_after, fault_first .clk 0 0 true hr (by decide) (by decide) (by decide)]
        exact event_reportAt _ _ (Nat.le_refl 3)
  · refine ⟨act_whenMinuet hm, act_whenMinuet hm, act_whenMinuet hm, act_whenMinuet hm, act_whenMinuet hm,
      act_whenMinuet hm, act_whenMinuet hm, fun preload => ?_⟩
    have he : exec (.jtagSamplePreload preload) s = act s (fun c => whenMinuet c (fun c =>
      { (takeFree c).2 with tap := { instr := .samplePreload, boundary := preload,
                                     captured := (boundarySample (takeFree c).2 (takeFree c).1).setWidth 32 } })) := rfl
    rw [act_whenMinuet hm] at he
    obtain ⟨h2, h3, h4, h5, h13⟩ := sample_bits (alertOn s.toChip) s.pwr.tripped s.chip.inReset s.smb.strap
      (takeFree s.toChip).1
    exact ⟨_, he, after_pending _ _, rfl, rfl, h2, h3, h4, h5, h13⟩

end Sys2Proof.Machine
end

section
/-! Fault reports, module faults and their reset (O52). -/

namespace Sys2Proof.Machine

open Sys2Proof.Safety

/-! ### Levels (R475) -/

/-- A class of one level has that level. -/
theorem levelOf_single {f : FaultRep} {n : Nat} (h : levelsOf f.cls.toNat f.page = (n, n)) : levelOf f = n := by
  unfold levelOf
  dsimp only
  rw [h]
  split <;> rfl

theorem levelOf_listed {f : FaultRep} {n : Nat} {l : List Nat} (h : ∀ k ∈ l, levelsOf k f.page = (n, n))
    (hm : f.cls.toNat ∈ l) : levelOf f = n := levelOf_single (h _ hm)

/-- No row of a table of levels is above 3 where all its rows are not. -/
theorem getD_levels_le {l : List (Nat × Nat)} (h : ∀ e ∈ l, e.1 ≤ 3 ∧ e.2 ≤ 3) (n : Nat) :
    (l.getD n (0, 0)).1 ≤ 3 ∧ (l.getD n (0, 0)).2 ≤ 3 := by
  rw [List.getD_eq_getElem?_getD]
  cases hn : l[n]? with
  | none => exact ⟨Nat.zero_le 3, Nat.zero_le 3⟩
  | some e => exact h e (List.mem_of_getElem? hn)

theorem levelsOf_le (k : Nat) (p : Page) : (levelsOf k p).1 ≤ 3 ∧ (levelsOf k p).2 ≤ 3 := by
  unfold levelsOf
  split
  · split <;> decide
  split
  · split <;> decide
  · exact getD_levels_le (by decide) k

theorem levelOf_le (f : FaultRep) : levelOf f ≤ 3 := by
  unfold levelOf
  dsimp only
  split
  · exact (levelsOf_le _ _).2
  · exact (levelsOf_le _ _).1

/-! ### The state of the reporting block -/

/-- A chip whose trace has stopped where TEL's own report takes it out of ON. -/
def traceLost (c : Chip) (f : FaultRep) : Chip :=
  if f.cls.toNat = 0x11 ∧ f.page = .tel then { c with sec := { c.sec with tracing := none } } else c

/-- What the state of the reporting block may change: events, TEL's trace, and the state. -/
structure StateMoved (c d : Chip) (f : FaultRep) : Prop where
  flt : d.flt = c.flt
  quiet : Safety.quiet d = Safety.quiet (traceLost c f)
  ints : ∀ p b, bit (hdr c p).int b = true → bit (hdr d p).int b = true
  fault : f.cls.toNat = 0x11 → drainable f.page = true → bstate d f.page = .fault

theorem ints_setState (c : Chip) (p : Page) (st : BState) (q : Page) (b : Nat) (h : bit (hdr c q).int b = true) :
    bit (hdr (setState c p st) q).int b = true := by
  refine (setState_spec c p st).ints q b ?_
  rw [hdr_setHdr]
  split
  · rename_i hq
    rw [hq] at h
    exact h
  · exact h

theorem flt_setState (c : Chip) (p : Page) (st : BState) : (setState c p st).flt = c.flt := by
  unfold setState
  dsimp only
  split
  · rfl
  · rw [flt_of_mute (mute_raise _ _ _)]; rfl

theorem faultState_moved (c : Chip) (f : FaultRep) : StateMoved c (faultState c f) f := by
  unfold faultState
  split
  · rename_i h
    obtain ⟨hk, hd⟩ := h
    have hq := quiet_setState c f.page .fault
    by_cases ht : f.page = .tel
    · rw [telLeaves, if_pos ht, traceStop]
      refine ⟨flt_setState .., ?_, fun p b hb => ints_setState _ _ _ _ _ hb, fun _ _ => ?_⟩
      · rw [quiet_setFld, traceLost, if_pos ⟨hk, ht⟩]
        exact congrArg (fun x : Chip => { x with sec := { x.sec with tracing := none } }) hq
      · exact (bstate_setState c f.page f.page .fault).trans (if_pos rfl)
    · rw [telLeaves, if_neg ht]
      refine ⟨flt_setState .., ?_, fun p b hb => ints_setState _ _ _ _ _ hb, fun _ _ => ?_⟩
      · rw [hq, traceLost, if_neg (fun x => ht x.2)]
      · rw [bstate_setState, if_pos rfl]
  · rename_i h
    refine ⟨rfl, ?_, fun _ _ hb => hb, fun hk hd => absurd ⟨hk, hd⟩ h⟩
    rw [traceLost, if_neg (fun x => h ⟨x.1, by rw [x.2]; rfl⟩)]

theorem quiet_traceLost {c d : Chip} (f : FaultRep) (h : quiet d = quiet c) :
    quiet (traceLost d f) = quiet (traceLost c f) := by
  unfold traceLost
  split
  · exact congrArg (fun x : Chip => { x with sec := { x.sec with tracing := none } }) h
  · exact h

/-! ### A fault of its own -/

/-- The LAST registers take a fault. -/
def lastShown (c : Chip) (f : FaultRep) (n st : Nat) : Chip :=
  setReg (setPair (setReg (setReg c aFLT_LAST_CLASS (w32 (2 ^ 31 + pageIdx f.page * 2 ^ 16 + n * 2 ^ 8 + f.cls.toNat)))
    aFLT_LAST_INFO f.info) aFLT_LAST_ADDR_LO (f.addr.toNat % 2 ^ 38)) aFLT_LAST_STAMP (w32 st)

/-- What the LAST registers read for a fault. -/
structure Shows (d : Chip) (f : FaultRep) (n : Nat) : Prop where
  cls : reg d aFLT_LAST_CLASS = w32 (2 ^ 31 + pageIdx f.page * 2 ^ 16 + n * 2 ^ 8 + f.cls.toNat)
  info : reg d aFLT_LAST_INFO = f.info
  addr : pair d aFLT_LAST_ADDR_LO = f.addr.toNat % 2 ^ 38

theorem lastShown_shows (c : Chip) (f : FaultRep) (n st : Nat) : Shows (lastShown c f n st) f n := by
  rw [lastShown]
  refine ⟨?_, ?_, ?_⟩
  · rw [reg_setReg_other _ _ (by decide), reg, setPair, regKey_setPairB_other _ _ _ _ (by decide) (by decide)]
    refine (reg_setReg_other _ _ (by decide)).trans ?_
    rw [reg_setReg_self]
  · rw [reg_setReg_other _ _ (by decide), reg, setPair, regKey_setPairB_other _ _ _ _ (by decide) (by decide)]
    exact reg_setReg_self ..
  · refine (pairB_kept (regKey_setKey_other _ _ _ _ _ (by decide)) (regKey_setKey_other _ _ _ _ _ (by decide))).trans ?_
    refine (pairB_setPairB ..).trans (Nat.mod_eq_of_lt ?_)
    exact Nat.lt_trans (Nat.mod_lt _ (by decide)) (by decide)

theorem Shows.keep {c d : Chip} {f : FaultRep} {n : Nat} (h : Shows c f n) (g : KeepsBox c d) : Shows d f n :=
  ⟨(g.reg (by decide)).trans h.cls, (g.reg (by decide)).trans h.info,
    (pairB_kept (g _ (by decide)) (g _ (by decide))).trans h.addr⟩

/-- A report made anew, in its steps. -/
theorem reportAt_eq (c : Chip) (f : FaultRep) (n : Nat) : ∃ c1 st, (c1.variant = c.variant ∧ c1.mgmt = c.mgmt) ∧ c1.flt = { c.flt with
      reports := { cls := f.cls.toNat, page := pageIdx f.page, info := f.info, addr := f.addr, level := n } ::
        otherFaults (takeTick c).2 f } ∧
    reportAt c f n = startReaction (faultRecord (raise (if f.cls.toNat = 0x1E then bbRewrite (lastShown c1 f n st)
      else lastShown c1 f n st) .flt (16 + n)) f n) f.cls.toNat n :=
  ⟨{ (takeTick c).2 with flt := { (takeTick c).2.flt with
      reports := { cls := f.cls.toNat, page := pageIdx f.page, info := f.info, addr := f.addr, level := n } ::
        otherFaults (takeTick c).2 f } }, (takeTick c).1, ⟨rfl, rfl⟩, rfl, rfl⟩

theorem reportAt_shows (c : Chip) (f : FaultRep) (n : Nat) : Shows (reportAt c f n) f n := by
  obtain ⟨c1, st, -, -, he⟩ := reportAt_eq c f n
  rw [he]
  refine Shows.keep ?_ ((keepsRegs_raise _ .flt (16 + n)).box.trans
    ((keepsBox_faultRecord _ f n).trans (keepsBox_startReaction _ _ _)))
  split
  · exact (lastShown_shows c1 f n st).keep (keepsBox_bbRewrite _)
  · exact lastShown_shows c1 f n st

/-- A report of level 1 makes a record of KIND 2. -/
theorem reportAt_record {c : Chip} {f : FaultRep} (hk : f.cls.toNat ≠ 0x1E) (hr : c.flt.faultRecs < 16)
    (hh : c.flt.headKnown = false) (hq : c.flt.queue.length < 64) :
    ∃ x, (reportAt c f 1).flt.queue = c.flt.queue ++ [x] ∧ bbKind x = 2 := by
  obtain ⟨c1, st, -, hf, he⟩ := reportAt_eq c f 1
  rw [if_neg hk] at he
  have hflt : (raise (lastShown c1 f 1 st) .flt (16 + 1)).flt = c1.flt := flt_of_mute (mute_raise _ _ _)
  generalize hx : raise (lastShown c1 f 1 st) .flt (16 + 1) = d at he hflt
  rw [hf] at hflt
  have hrec : faultRecord d f 1 = bbRecord { (takeFree (takeFree d).2).2 with flt := { d.flt with
      faultRecs := d.flt.faultRecs + 1, level0Seen := d.flt.level0Seen } } 2 f.cls.toNat 1 (pageIdx f.page) f.info f.addr
      0 := by
    have hr' : ¬ 16 ≤ d.flt.faultRecs := by rw [hflt]; exact Nat.not_le.2 hr
    unfold faultRecord
    rw [if_neg (by decide)]
    simp only [show ¬ (1 : Nat) = 0 by decide, false_and, if_false]
    rw [if_neg (fun h => hr' h.1)]
    rfl
  obtain ⟨x, hx1, hx2, -⟩ := bbRecord_waits (c := { (takeFree (takeFree d).2).2 with flt := { d.flt with
    faultRecs := d.flt.faultRecs + 1, level0Seen := d.flt.level0Seen } }) (kind := 2) f.cls.toNat 1 (pageIdx f.page) f.info
    f.addr 0 (by decide) (by rw [hflt]; exact hh) (by rw [hflt]; exact hq)
  refine ⟨x, ?_, hx2⟩
  rw [he, startReaction, if_neg (fun h => absurd h.1 (by decide)),
    if_neg (fun h => absurd h.1 (by decide)), hrec, hx1, hflt]

/-- The reactions that a level begins. -/
theorem reportAt_reaction (c : Chip) (f : FaultRep) (n : Nat) :
    (reportAt c f n).flt.faulted = c.flt.faulted ∧
    (n ≤ 1 ∨ (f.cls.toNat = 0x15 ∧ n = 3) → (reportAt c f n).flt.chipPending = c.flt.chipPending ∧
      (reportAt c f n).flt.modulePending = c.flt.modulePending) ∧
    (n = 2 → c.flt.modulePending = false → c.flt.faulted = false → (reportAt c f n).flt.chipPending = true) ∧
    (n = 3 → f.cls.toNat ≠ 0x15 → (reportAt c f n).flt.modulePending = true ∧ (reportAt c f n).flt.chipPending = false) := by
  obtain ⟨d, hd, he⟩ := alarm_reportAt c f n
  have hm := modulePending_of_alarm hd
  have hf := faulted_of_alarm hd
  have hc : d.flt.chipPending = c.flt.chipPending := congrArg (·.2.2.1) hd
  rw [he]
  unfold startReaction
  refine ⟨?_, fun hn => ?_, fun hn h1 h2 => ?_, fun hn hk => ?_⟩
  · split
    · exact hf
    split <;> exact hf
  · rw [if_neg (fun h => by rcases hn with hn | hn; omega; exact h.2 hn.1), if_neg (by omega)]
    exact ⟨hc, hm⟩
  · rw [if_neg (by omega), if_pos ⟨hn, hm.trans h1, hf.trans h2⟩]
  · rw [if_pos ⟨hn, hk⟩]
    exact ⟨rfl, rfl⟩

/-! ### Reports of a listed class -/

/-- A fault reported for the first time, or not as the same one. -/
theorem report_anew {c : Chip} {f : FaultRep} (h0 : 0 < f.cls.toNat) (h1 : f.cls.toNat ≤ 0x1E)
    (h : sameFault c f = none ∨ f.together = false) :
    report c f = faultState (reportAt (bumpB c f.cls.toNat aFLT_CLASS_CNT 1) f (levelOf f)) f := by
  unfold report
  rw [if_neg (by omega)]
  dsimp only
  cases hs : sameFault c f with
  | none => rfl
  | some x =>
    have ht : f.together = false := h.resolve_left (by rw [hs]; exact Option.some_ne_none x)
    simp only [ht, Bool.false_eq_true, if_false]
    rfl

/-- A fault reported again. -/
theorem report_again {c : Chip} {f : FaultRep} {x : LastReport} (h0 : 0 < f.cls.toNat) (h1 : f.cls.toNat ≤ 0x1E)
    (hs : sameFault c f = some x) (ht : f.together = true) :
    report c f = faultState (reportAgain (bumpB c f.cls.toNat aFLT_CLASS_CNT 1) f x) f := by
  unfold report
  rw [if_neg (by omega)]
  dsimp only
  simp only [hs, ht, if_true]

theorem flt_bumpB (c : Chip) (b a n : Nat) : (bumpB c b a n).flt = c.flt := flt_of_mute (mute_bumpB ..)

/-- A report that is no higher than the one before it changes no fault register. -/
theorem reportAgain_low {c : Chip} {f : FaultRep} {x : LastReport} (h : levelOf f ≤ x.level) : reportAgain c f x = c := by
  unfold reportAgain
  dsimp only
  rw [if_pos h]

/-- A higher report of the same fault, in its steps. -/
theorem reportAgain_high {c : Chip} {f : FaultRep} {x : LastReport} (h : x.level < levelOf f) :
    ∃ c1, c1.variant = c.variant ∧ c1.mgmt = c.mgmt ∧ reportAgain c f x = startReaction (raise
      (if c.flt.reports.head? = some x then setFld c1 aFLT_LAST_CLASS 9 8 (levelOf f) else c1) .flt (16 + levelOf f))
      f.cls.toNat (levelOf f) := by
  refine ⟨{ c with flt := { c.flt with
    reports := c.flt.reports.map (fun y => if y = x then { x with level := levelOf f } else y) } }, rfl, rfl, ?_⟩
  unfold reportAgain
  dsimp only
  rw [if_neg (by omega)]
  simp only [decide_eq_true_eq]

theorem reg_of_mgmt {c d : Chip} (hv : d.variant = c.variant) (hm : d.mgmt = c.mgmt) (a : Nat) : reg d a = reg c a := by
  rw [reg, reg, regKey, regKey, hv, hm]

/-- What a higher report shows. -/
theorem reportAgain_shows {c : Chip} {f : FaultRep} {x : LastReport} (h : x.level < levelOf f) :
    bit (hdr (reportAgain c f x) .flt).int (16 + levelOf f) = true ∧
    reg (reportAgain c f x) aFLT_LAST_INFO = reg c aFLT_LAST_INFO ∧
    (c.flt.reports.head? = some x → fld (reg (reportAgain c f x) aFLT_LAST_CLASS) 9 8 = levelOf f ∧
      fld (reg (reportAgain c f x) aFLT_LAST_CLASS) 7 0 = fld (reg c aFLT_LAST_CLASS) 7 0) := by
  obtain ⟨c1, hv, hm, he⟩ := reportAgain_high (c := c) h
  have hl := levelOf_le f
  have hk : ∀ d : Chip, KeepsBox d (startReaction (raise d .flt (16 + levelOf f)) f.cls.toNat (levelOf f)) := fun d =>
    (keepsRegs_raise _ _ _).box.trans (keepsBox_startReaction _ _ _)
  rw [he]
  refine ⟨(minor_startReaction _ _ _).ints _ _ (raise_int _ _ _ (by omega)), ?_, fun hh => ?_⟩
  · rw [(hk _).reg (by decide)]
    split
    · rw [reg_setFld_other _ _ _ _ (by decide), reg_of_mgmt hv hm]
    · exact reg_of_mgmt hv hm _
  · rw [if_pos hh, (hk _).reg (by decide), fld_setFld_self _ _ _ (by decide) (by decide),
      fld_setFld_other _ _ _ (by decide) (by decide) (by decide), reg_of_mgmt hv hm]
    exact ⟨Nat.mod_eq_of_lt (by omega), rfl⟩

/-! ### Reports that ask for a test (R165, R480) -/

/-- What a request for a self-test leaves, where no other waits and fewer than 16 cores are in test. -/
structure AskedOf (c d : Chip) (n : Nat) : Prop where
  core : coreAt d n = (if (coreAt c n).state = .free ∨ (coreAt c n).state = .lame ∨ (coreAt c n).state = .faulted then
      { coreAt c n with requested := true, state := .testing, before := (coreAt c n).state }
    else if (coreAt c n).state = .busy then { coreAt c n with state := .draining, requested := true, wantOff := false }
    else coreAt c n)
  waits : (coreAt c n).state = .draining → d.grid.tests = [n]
  others : ∀ j, j ≠ n → coreAt d j = coreAt c j
  rest : ∃ g, d = { c with grid := g }

/-- The request goes to the queue and is started at once, but for a core that is DRAINING. -/
theorem requestTest_eq {c : Chip} {n : Nat} (ht : c.grid.tests = []) (hr : testsRunning c < 16) : requestTest c n =
    if (coreAt c n).state = .draining then { c with grid := { c.grid with tests := [n] } }
    else if (coreAt c n).state = .free ∨ (coreAt c n).state = .lame ∨ (coreAt c n).state = .faulted then
      startTest (setCore c n { coreAt c n with requested := true }) n
    else if (coreAt c n).state = .busy then
      setCore c n { coreAt c n with state := .draining, requested := true, wantOff := false }
    else c := by
  have hc : ({ c with grid := { c.grid with tests := [] } } : Chip) = c := by rw [← ht]
  have hcore : ∀ l, coreAt { c with grid := { c.grid with tests := l } } n = coreAt c n := fun _ => rfl
  have hrun : ∀ l, testsRunning { c with grid := { c.grid with tests := l } } = testsRunning c := fun _ => rfl
  unfold requestTest runTests
  rw [ht, if_neg (List.not_mem_nil)]
  show pumpTests 1 { c with grid := { c.grid with tests := [n] } } = _
  unfold pumpTests
  by_cases hd : (coreAt c n).state = .draining
  · simp only [List.find?_cons, hcore, hd, List.find?_nil, ne_eq, not_true_eq_false, decide_false, if_true]
  · simp only [List.find?_cons, hcore, hd, ne_eq, not_false_eq_true, decide_true, if_false, hrun,
      List.erase_cons_head]
    rw [if_neg (Nat.not_le.2 hr), hc]
    rfl

theorem requestTest_asked {c : Chip} {n : Nat} (ht : c.grid.tests = []) (hr : testsRunning c < 16) :
    AskedOf c (requestTest c n) n := by
  rw [requestTest_eq ht hr]
  by_cases hd : (coreAt c n).state = .draining
  · rw [if_pos hd]
    refine ⟨?_, fun _ => rfl, fun _ _ => rfl, ⟨_, rfl⟩⟩
    rw [if_neg (by rw [hd]; decide), if_neg (by rw [hd]; decide)]
    rfl
  · rw [if_neg hd]
    by_cases hf : (coreAt c n).state = .free ∨ (coreAt c n).state = .lame ∨ (coreAt c n).state = .faulted
    · have hn : (coreAt c n).state ≠ .testing := by
        rcases hf with h | h | h <;> rw [h] <;> decide
      rw [if_pos hf, startTest, coreAt_setCore]
      refine ⟨?_, fun h => absurd h hd, fun j hj => ?_, ⟨_, rfl⟩⟩
      · rw [coreAt_setCore, if_pos hf, if_neg hn]
      · rw [coreAt_setCore_other _ _ _ _ hj, coreAt_setCore_other _ _ _ _ hj]
    · rw [if_neg hf]
      by_cases hb : (coreAt c n).state = .busy
      · rw [if_pos hb]
        refine ⟨?_, fun h => absurd h hd, fun j hj => coreAt_setCore_other _ _ _ _ hj, ⟨_, rfl⟩⟩
        rw [coreAt_setCore, if_neg hf, if_pos hb]
      · rw [if_neg hb]
        refine ⟨?_, fun h => absurd h hd, fun _ _ => rfl, ⟨_, rfl⟩⟩
        rw [if_neg hf, if_neg hb]

/-! ### Module faults (R477) -/

/-- A block goes to FAULT with its STATE event, without a frame. -/
def pageFaulted (c : Chip) (p : Page) : Chip :=
  setHdr c p { hdr c p with state := .fault, int := (hdr c p).int ||| 1 }

/-- What a fold of blocks to FAULT leaves of a header: the others stand. -/
theorem hdr_pagesFaulted (l : List Page) (c : Chip) (q : Page) :
    (q ∈ l → bstate (l.foldl pageFaulted c) q = .fault ∧ bit (hdr (l.foldl pageFaulted c) q).int 0 = true) ∧
    (q ∉ l → hdr (l.foldl pageFaulted c) q = hdr c q) := by
  induction l using List.reverseRecOn with
  | nil => exact ⟨fun h => absurd h List.not_mem_nil, fun _ => rfl⟩
  | append_singleton l p ih =>
    rw [List.foldl_append, List.foldl_cons, List.foldl_nil]
    refine ⟨fun h => ?_, fun h => ?_⟩
    · rw [bstate, pageFaulted, hdr_setHdr]
      by_cases hq : q = p
      · rw [if_pos hq]
        refine ⟨rfl, ?_⟩
        rw [bit, BitVec.getLsbD_or]
        exact Bool.or_eq_true_iff.2 (.inr (by decide))
      · rw [if_neg hq]
        exact ih.1 (by simpa [hq] using h)
    · have hq : q ≠ p := fun e => h (by simp [e])
      rw [pageFaulted, hdr_setHdr, if_neg hq]
      exact ih.2 (fun hm => h (by simp [hm]))

theorem pagesFaulted_rest (l : List Page) (c : Chip) :
    quiet (l.foldl pageFaulted c) = quiet c ∧ (l.foldl pageFaulted c).flt = c.flt := by
  induction l generalizing c with
  | nil => exact ⟨rfl, rfl⟩
  | cons p l ih =>
    obtain ⟨h1, h2⟩ := ih (pageFaulted c p)
    exact ⟨h1.trans (quiet_setHdr ..), h2⟩

/-- The pages that a module fault takes to FAULT. -/
def faultPages : List Page := allPages.filter (fun p => !minuetPage p && decide (p ≠ .peer ∧ p ≠ .host))

theorem mem_faultPages (p : Page) : p ∈ faultPages ↔ minuetPage p = false ∧ p ≠ .peer ∧ p ≠ .host := by
  cases p <;> decide

/-- The chip with its fault in force. -/
def faultedChip (c : Chip) : Chip :=
  { c with flt := { c.flt with modulePending := false, chipPending := false, faulted := true } }

/-- The chip as its module fault comes into force. -/
def moduleBegun (c : Chip) : Chip := { faultPages.foldl pageFaulted (faultedChip c) with mem := [] }

theorem moduleBegun_flt (c : Chip) : (moduleBegun c).flt =
    { c.flt with modulePending := false, chipPending := false, faulted := true } := by
  have h := (pagesFaulted_rest faultPages (faultedChip c)).2
  unfold moduleBegun
  generalize faultPages.foldl pageFaulted (faultedChip c) = d at h
  exact h

theorem quiet_moduleBegun (c : Chip) : quiet (moduleBegun c) = quiet { c with mem := [] } := by
  have h := (pagesFaulted_rest faultPages (faultedChip c)).1
  unfold moduleBegun
  generalize faultPages.foldl pageFaulted (faultedChip c) = d at h
  exact congrArg (fun x : Chip => { x with mem := [] }) h

theorem hdr_moduleBegun (c : Chip) (q : Page) :
    (q ∈ faultPages → bstate (moduleBegun c) q = .fault ∧ bit (hdr (moduleBegun c) q).int 0 = true) ∧
    (q ∉ faultPages → hdr (moduleBegun c) q = hdr c q) := by
  have h := hdr_pagesFaulted faultPages (faultedChip c) q
  unfold moduleBegun
  generalize faultPages.foldl pageFaulted (faultedChip c) = d at h
  exact h

theorem moduleFault_eq {c : Chip} (h : c.flt.modulePending = true) : ∃ (k p : Nat) (i : Word) (a : DWord),
    moduleFault c = bbRecord (moduleBegun c) 3 k 3 p i a 0 := by
  unfold moduleFault
  rw [if_neg (by rw [h]; exact Bool.true_eq_false_eq_False)]
  dsimp only
  split
  · exact ⟨_, _, _, _, rfl⟩
  · exact ⟨_, _, _, _, rfl⟩

theorem pins_alert {c : Chip} (h : minuetOn c = true) (ht : tapPins c = none) (hf : c.flt.faulted = true) :
    (pinsOf c).alertLow = true := by
  rw [pinsOf, if_pos h, ht]
  show alertOn c = true
  simp only [alertOn, hf, Bool.true_or]

/-! ### The reset of a module fault (R478) -/

/-- The row of MODULE. -/
def rowModule : RegRow := ⟨0x05c, 1, .none_, 0, [⟨31, 31, .ro, 0⟩, ⟨0, 0, .rwg, 0⟩]⟩

/-- A guarded register without the unlock refuses a write (R26). -/
theorem mgmtWrite_guarded {c : Chip} {r : Requester} {a : Nat} {row : RegRow} (w : Word)
    (h : Reaches c r (pageOf (a / 0x4000))) (ha : plainReg a = true) (hr : rowOf a = some row) (hp : row.pair = 0)
    (hg : rowGuarded row = true) (hu : armed c r (pageOf (a / 0x4000)) = false) :
    mgmtWrite c r a w = keepStatus (answer (raise (setArmed c r (pageOf (a / 0x4000)) false) (pageOf (a / 0x4000)) 3)
      rejState 0) r rejState := by
  rw [mgmtWrite_reaches w h ha hr]
  have hw : rowWrite c r noArgs row .plain (pageOf (a / 0x4000)) a w =
      (rejState, raise (setArmed c r (pageOf (a / 0x4000)) false) (pageOf (a / 0x4000)) 3) := by
    unfold rowWrite
    dsimp only
    rw [if_neg (by rw [hp]; exact fun x => absurd x.2 (by decide)), if_pos ⟨hg, hu⟩]
  simp only [hw]

/-- An unlocked write of 1 to MODULE. -/
theorem mgmtWrite_module {c : Chip} {r : Requester} (h : Reaches c r .flt) (ha : armed c r .flt = true) :
    mgmtWrite c r aFLT_MODULE 1 =
      if c.flt.faulted = true ∧ r = .sideband then
        keepStatus (answer (resetChip (setArmed c r .flt false) true 3) stOK 0) r stOK
      else keepStatus (answer (setArmed c r .flt false) rejState 0) r rejState := by
  obtain ⟨x, hx, hw⟩ := mgmtWriteWith_rule (a := aFLT_MODULE) (row := rowModule) noArgs 1 h (by decide) rfl rfl (fun _ => ha)
  have h1 : x.a ≠ aFLT_LAST_CLASS := by rw [hx.addr]; decide
  have hrule : writeFlt (setArmed c r .flt false) x =
      if c.flt.faulted = true ∧ r = .sideband then (stOK, resetChip (setArmed c r .flt false) true 3)
      else (rejState, setArmed c r .flt false) := by
    have hb : bit (1 : Word) 0 = true := rfl
    have hs : (some r = some Requester.sideband) ↔ r = .sideband := Option.some_inj
    unfold writeFlt
    rw [if_neg h1, if_pos hx.addr, hx.ones, hb, hx.src, flt_setArmed]
    simp only [hs, Bool.true_eq_false, if_false]
  rw [show pageOf (aFLT_MODULE / 0x4000) = .flt from rfl, pageWrite_flt _ (by rw [hx.addr]; rfl), hrule] at hw
  rw [mgmtWrite, hw]
  split <;> rfl

/-! ### The statement -/

/-- FAULT_REPORT of a listed class that asks for no test. -/
theorem exec_faultReport {s : State} {f : FaultRep} (hm : minuetOn s.toChip = true)
    (ht : ¬ (f.page = .grid ∧ f.cls.toNat ∈ [0x01, 0x02, 0x04] ∧
      ((coreAt s.toChip (f.info.toNat % 256)).state = .busy ∨ (coreAt s.toChip (f.info.toNat % 256)).state = .draining))) :
    exec (.faultReport f) s = .next (after s (report s.toChip f)) := by
  have he : exec (.faultReport f) s = act s (fun c => if minuetOn c then faultReport c f else c) := rfl
  have hk : (f.cls = 0x01 ∨ f.cls = 0x02 ∨ f.cls = 0x04) ↔ f.cls.toNat ∈ [0x01, 0x02, 0x04] := by
    simp only [List.mem_cons, List.not_mem_nil, or_false, ← BitVec.toNat_inj]
    rfl
  rw [he, act, if_pos hm, faultReport]
  dsimp only
  rw [if_neg (by rw [hk]; exact ht)]
  rfl

/-- FAULT_REPORT that asks for a test. -/
theorem exec_faultReport_tests {s : State} {f : FaultRep} (hm : minuetOn s.toChip = true)
    (ht : f.page = .grid ∧ f.cls.toNat ∈ [0x01, 0x02, 0x04] ∧
      ((coreAt s.toChip (f.info.toNat % 256)).state = .busy ∨ (coreAt s.toChip (f.info.toNat % 256)).state = .draining)) :
    exec (.faultReport f) s = .next (after s (requestTest (report s.toChip f) (f.info.toNat % 256))) := by
  have he : exec (.faultReport f) s = act s (fun c => if minuetOn c then faultReport c f else c) := rfl
  have hk : (f.cls = 0x01 ∨ f.cls = 0x02 ∨ f.cls = 0x04) ↔ f.cls.toNat ∈ [0x01, 0x02, 0x04] := by
    simp only [List.mem_cons, List.not_mem_nil, or_false, ← BitVec.toNat_inj]
    rfl
  rw [he, act, if_pos hm, faultReport]
  dsimp only
  rw [if_pos (by rw [hk]; exact ht)]
  rfl

/-- A report counts in the counter of its class. -/
theorem report_logged {c : Chip} {f : FaultRep} (h0 : 0 < f.cls.toNat) (h1 : f.cls.toNat ≤ 0x1E) :
    (regB (report c f) f.cls.toNat aFLT_CLASS_CNT).toNat =
      min ((regB c f.cls.toNat aFLT_CLASS_CNT).toNat + 1) 0xFFFFFFFF := by
  rw [regB_report_classCnt c f (by omega) h1, toNat_regB_bumpB]

/-- The quiet part after a report. -/
theorem quiet_report_trace {c : Chip} {f : FaultRep} (h0 : 0 < f.cls.toNat) (h1 : f.cls.toNat ≤ 0x1E) :
    quiet (report c f) = quiet (traceLost c f) := by
  cases hs : sameFault c f with
  | none =>
    rw [report_anew h0 h1 (.inl hs), (faultState_moved _ _).quiet]
    exact quiet_traceLost f (by rw [quiet_reportAt, quiet_bumpB])
  | some x =>
    cases ht : f.together with
    | false =>
      rw [report_anew h0 h1 (.inr ht), (faultState_moved _ _).quiet]
      exact quiet_traceLost f (by rw [quiet_reportAt, quiet_bumpB])
    | true =>
      rw [report_again h0 h1 hs ht, (faultState_moved _ _).quiet]
      exact quiet_traceLost f (by rw [quiet_reportAgain, quiet_bumpB])

theorem KeepsCounts.classCnt {c d : Chip} (h : KeepsCounts c d) (b : Nat) :
    regB d b aFLT_CLASS_CNT = regB c b aFLT_CLASS_CNT := h _ (reportKey_classCnt b)

/-- A register of FLT is moved by no change of the reporting block's state. -/
theorem reg_faultState (c : Chip) (f : FaultRep) {a : Nat} (h : eventKey (rkey 0 a) = false)
    (h' : rkey 0 a ≠ rkey 0 aTEL_TRACE_CTRL) : reg (faultState c f) a = reg c a := regKey_faultState c f h h'

/-- The levels of the classes. -/
theorem levels_listed (f : FaultRep) :
    let k := f.cls.toNat
    (k ∈ [0x01, 0x02, 0x13, 0x17] → levelOf f = 2) ∧ (k ∈ [0x09, 0x0A, 0x14, 0x15] → levelOf f = 3) ∧
    (k ∈ [0x0B, 0x0C, 0x0E, 0x1A, 0x1C] → levelOf f = 1) ∧
    (k ∈ [0x03, 0x06, 0x0F, 0x10, 0x16, 0x18, 0x1B, 0x1D, 0x1E] → levelOf f = 0) ∧
    (k = 0x12 → levelOf f = if f.higher then 3 else 2) ∧
    (k = 0x11 → levelOf f = if pageIdx f.page < 5 then 3 else 2) := by
  refine ⟨levelOf_listed (by simp [levelsOf]), levelOf_listed (by simp [levelsOf]), levelOf_listed (by simp [levelsOf]),
    levelOf_listed (by simp [levelsOf]), fun hk => ?_, fun hk => ?_⟩
  · unfold levelOf
    rw [hk]
    rfl
  · refine levelOf_single ?_
    rw [hk, levelsOf, if_pos rfl]
    split <;> rfl

/-- A fault of its own. -/
theorem reports_anew {s : State} {f : FaultRep} (hm : minuetOn s.toChip = true) (h0 : 0 < f.cls.toNat)
    (h1 : f.cls.toNat ≤ 0x1E)
    (ht : ¬ (f.page = .grid ∧ f.cls.toNat ∈ [0x01, 0x02, 0x04] ∧
      ((coreAt s.toChip (f.info.toNat % 256)).state = .busy ∨ (coreAt s.toChip (f.info.toNat % 256)).state = .draining)))
    (hs : sameFault s.toChip f = none ∨ f.together = false) :
    Quietly (.faultReport f) s (traceLost s.toChip f) (fun t =>
      Logged s t f.cls.toNat 1 ∧
      reg t.toChip aFLT_LAST_CLASS = w32 (2 ^ 31 + pageIdx f.page * 2 ^ 16 + levelOf f * 2 ^ 8 + f.cls.toNat) ∧
      reg t.toChip aFLT_LAST_INFO = f.info ∧ pair t.toChip aFLT_LAST_ADDR_LO = f.addr.toNat % 2 ^ 38 ∧
      Event t .flt (16 + levelOf f) ∧ t.flt.faulted = s.flt.faulted ∧
      (levelOf f ≤ 1 ∨ f.cls.toNat = 0x15 →
        t.flt.chipPending = s.flt.chipPending ∧ t.flt.modulePending = s.flt.modulePending) ∧
      (levelOf f = 2 → s.flt.modulePending = false → s.flt.faulted = false → t.flt.chipPending = true) ∧
      (levelOf f = 3 → f.cls.toNat ≠ 0x15 → t.flt.modulePending = true ∧ t.flt.chipPending = false) ∧
      (levelOf f = 1 → s.flt.faultRecs < 16 → RecordWaits s t 2) ∧
      (f.cls.toNat = 0x11 → drainable f.page = true → bstate t.toChip f.page = .fault)) := by
  have hlog := report_logged (c := s.toChip) h0 h1
  have hq := quiet_report_trace (c := s.toChip) h0 h1
  have he := exec_faultReport hm ht
  rw [report_anew h0 h1 hs] at he hlog hq
  have hb := flt_bumpB s.toChip f.cls.toNat aFLT_CLASS_CNT 1
  generalize bumpB s.toChip f.cls.toNat aFLT_CLASS_CNT 1 = c at he hlog hq hb
  have hmv := faultState_moved (reportAt c f (levelOf f)) f
  have hreg : ∀ a, eventKey (rkey 0 a) = false → rkey 0 a ≠ rkey 0 aTEL_TRACE_CTRL →
      reg (faultState (reportAt c f (levelOf f)) f) a = reg (reportAt c f (levelOf f)) a := fun a => reg_faultState _ f
  obtain ⟨hcls, hinfo, haddr⟩ := reportAt_shows c f (levelOf f)
  obtain ⟨r1, r2, r3, r4⟩ := reportAt_reaction c f (levelOf f)
  rw [hb] at r1 r2 r3
  refine ⟨_, he, after_pending _ _, (quiet_after _ _).trans hq, hlog, ?_, ?_, ?_, ?_, ?_, fun hl => ?_, fun h2 hp hf => ?_,
    fun h3 hk => ?_, fun hl hr hh hqu => ?_, fun hk hd => ?_⟩
  · rw [reg_after, hreg _ (by decide) (by decide), hcls]
  · rw [reg_after, hreg _ (by decide) (by decide), hinfo]
  · exact (pairB_kept (hreg _ (by decide) (by decide)) (hreg _ (by decide) (by decide))).trans haddr
  · rw [Event, hdr_after]
    exact hmv.ints _ _ (event_reportAt _ _ (levelOf_le f))
  · rw [after_flt, hmv.flt, r1]
  · rw [after_flt, hmv.flt]
    exact r2 (hl.imp_right fun hk => ⟨hk, (levels_listed f).2.1 (by rw [hk]; decide)⟩)
  · rw [after_flt, hmv.flt]
    exact r3 h2 hp hf
  · rw [after_flt, hmv.flt]
    exact r4 h3 hk
  · have hne : f.cls.toNat ≠ 0x1E := fun hk => by
      have := (levels_listed f).2.2.2.1 (by rw [hk]; decide)
      omega
    obtain ⟨x, hx, hkind⟩ := reportAt_record (c := c) hne (by rw [hb]; exact hr) (by rw [hb]; exact hh)
      (by rw [hb]; exact hqu)
    refine ⟨x, ?_, hkind⟩
    rw [after_flt, hmv.flt, hl, hx, hb]
  · exact hmv.fault hk hd

/-- A fault reported again. -/
theorem reports_again {s : State} {f : FaultRep} {x : LastReport} (hm : minuetOn s.toChip = true) (h0 : 0 < f.cls.toNat)
    (h1 : f.cls.toNat ≤ 0x1E)
    (ht : ¬ (f.page = .grid ∧ f.cls.toNat ∈ [0x01, 0x02, 0x04] ∧
      ((coreAt s.toChip (f.info.toNat % 256)).state = .busy ∨ (coreAt s.toChip (f.info.toNat % 256)).state = .draining)))
    (hs : sameFault s.toChip f = some x) (hto : f.together = true) :
    (levelOf f ≤ x.level → Quietly (.faultReport f) s (traceLost s.toChip f) (fun t => Logged s t f.cls.toNat 1 ∧
      t.flt = s.flt ∧ reg t.toChip aFLT_LAST_CLASS = reg s.toChip aFLT_LAST_CLASS)) ∧
    (x.level < levelOf f → Quietly (.faultReport f) s (traceLost s.toChip f) (fun t => Logged s t f.cls.toNat 1 ∧
      Event t .flt (16 + levelOf f) ∧ reg t.toChip aFLT_LAST_INFO = reg s.toChip aFLT_LAST_INFO ∧
      (s.flt.reports.head? = some x → fld (reg t.toChip aFLT_LAST_CLASS) 9 8 = levelOf f ∧
        fld (reg t.toChip aFLT_LAST_CLASS) 7 0 = fld (reg s.toChip aFLT_LAST_CLASS) 7 0))) := by
  have hlog := report_logged (c := s.toChip) h0 h1
  have hq := quiet_report_trace (c := s.toChip) h0 h1
  have he := exec_faultReport hm ht
  rw [report_again h0 h1 hs hto] at he hlog hq
  have hb := flt_bumpB s.toChip f.cls.toNat aFLT_CLASS_CNT 1
  have hlast : ∀ a, a < bankStride → a ≠ aFLT_CLASS_CNT →
      reg (bumpB s.toChip f.cls.toNat aFLT_CLASS_CNT 1) a = reg s.toChip a := fun a h1 h2 =>
    regKey_bumpB_other _ _ _ _ (rkey_apart h1 (by decide) h2)
  have hinfo := hlast aFLT_LAST_INFO (by decide) (by decide)
  have hcls := hlast aFLT_LAST_CLASS (by decide) (by decide)
  generalize bumpB s.toChip f.cls.toNat aFLT_CLASS_CNT 1 = c at he hlog hq hb hinfo hcls
  refine ⟨fun hl => ?_, fun hl => ?_⟩
  · rw [reportAgain_low hl] at he hlog hq
    refine ⟨_, he, after_pending _ _, (quiet_after _ _).trans hq, hlog, ?_, ?_⟩
    · rw [after_flt, (faultState_moved c f).flt, hb]
    · rw [reg_after, reg_faultState _ _ (by decide) (by decide), hcls]
  · obtain ⟨hev, hin, hfl⟩ := reportAgain_shows (c := c) hl
    refine ⟨_, he, after_pending _ _, (quiet_after _ _).trans hq, hlog, ?_, ?_, fun hh => ?_⟩
    · rw [Event, hdr_after]
      exact (faultState_moved _ f).ints _ _ hev
    · rw [reg_after, reg_faultState _ _ (by decide) (by decide), hin, hinfo]
    · obtain ⟨g1, g2⟩ := hfl (by rw [hb]; exact hh)
      rw [reg_after, reg_faultState _ _ (by decide) (by decide), g1, g2, hcls]
      exact ⟨rfl, rfl⟩

/-- A report of a core that runs a placement asks for its test. -/
theorem reports_test {s : State} {f : FaultRep} (hm : minuetOn s.toChip = true)
    (ht : f.page = .grid ∧ f.cls.toNat ∈ [0x01, 0x02, 0x04] ∧
      ((coreAt s.toChip (f.info.toNat % 256)).state = .busy ∨ (coreAt s.toChip (f.info.toNat % 256)).state = .draining))
    (hn : s.grid.tests = []) (hr : testsRunning s.toChip < 16) :
    Completes (.faultReport f) s (fun t => Logged s t f.cls.toNat 1 ∧ Asked s t (f.info.toNat % 256)) := by
  have hk : 0 < f.cls.toNat ∧ f.cls.toNat ≤ 0x1E := by
    have := ht.2.1
    simp only [List.mem_cons, List.not_mem_nil, or_false] at this
    omega
  have hlog := report_logged (c := s.toChip) hk.1 hk.2
  have hg : (report s.toChip f).grid = s.grid :=
    congrArg (·.grid) (quiet_report s.toChip f (fun _ => by rw [ht.1]; decide))
  have hcore : ∀ j, coreAt (report s.toChip f) j = coreAt s.toChip j := fun j => coreAt_congr hg j
  have ha := requestTest_asked (c := report s.toChip f) (n := f.info.toNat % 256) (by rw [hg]; exact hn)
    (by rw [testsRunning, hg]; exact hr)
  have he := exec_faultReport_tests hm ht
  generalize requestTest (report s.toChip f) (f.info.toNat % 256) = d at he ha
  generalize report s.toChip f = e at ha hlog hcore
  obtain ⟨h1, h2, h3, g, hd⟩ := ha
  simp only [hcore] at h1 h2 h3
  refine ⟨_, he, after_pending _ _, ?_, ?_, h2, h3⟩
  · rw [Logged, regB_after, hd]
    exact hlog
  · rw [coreAt_after, h1]

/-- MODULE_FAULT. -/
theorem moduleFaults {s : State} (hm : minuetOn s.toChip = true) (hp : s.flt.modulePending = true) :
    Quietly .moduleFault s { s.toChip with mem := [] } (fun t =>
      t.flt.faulted = true ∧ t.flt.modulePending = false ∧ t.flt.chipPending = false ∧ t.mem = [] ∧
      (∀ p, minuetPage p = false → p ≠ .peer → p ≠ .host → bstate t.toChip p = .fault ∧ Event t p 0) ∧
      (∀ p, (minuetPage p = true ∨ p = .peer ∨ p = .host) → bstate t.toChip p = bstate s.toChip p) ∧
      (tapPins s.toChip = none → t.pins.alertLow = true) ∧ RecordWaits s t 3) := by
  have he : exec .moduleFault s = act s (fun c => whenMinuet c moduleFault) := rfl
  rw [act_whenMinuet hm] at he
  obtain ⟨k, p, i, a, hmf⟩ := moduleFault_eq hp
  rw [hmf] at he
  have hmin := minor_bbRecord (moduleBegun s.toChip) 3 k 3 p i a 0
  have hal := alarm_bbRecord (moduleBegun s.toChip) 3 k 3 p i a 0
  have hflt := moduleBegun_flt s.toChip
  have hq := quiet_moduleBegun s.toChip
  have hhdr := hdr_moduleBegun s.toChip
  have hw := bbRecord_waits (c := moduleBegun s.toChip) (kind := 3) k 3 p i a 0 (by decide)
  rw [hflt] at hw
  have hfa : (bbRecord (moduleBegun s.toChip) 3 k 3 p i a 0).flt.faulted = true := by
    rw [faulted_of_alarm hal, alarm, hflt]
  generalize moduleBegun s.toChip = c at he hmin hal hflt hq hhdr hw hfa
  generalize bbRecord c 3 k 3 p i a 0 = d at he hmin hal hw hfa
  have hqd : quiet d = quiet { s.toChip with mem := [] } := hmin.quiet.trans hq
  refine ⟨_, he, after_pending _ _, (quiet_after _ _).trans hqd, hfa, ?_, ?_, congrArg (·.mem) hqd, fun q h1 h2 h3 => ?_,
    fun q h => ?_, fun ht => ?_, fun h1 h2 => ?_⟩
  · rw [after_flt, modulePending_of_alarm hal, alarm, hflt]
  · rw [after_flt, show d.flt.chipPending = c.flt.chipPending from congrArg (·.2.2.1) hal, hflt]
  · obtain ⟨g1, g2⟩ := (hhdr q).1 ((mem_faultPages q).2 ⟨h1, h2, h3⟩)
    exact ⟨(hmin.state q).trans g1, hmin.ints _ _ g2⟩
  · have hn : q ∉ faultPages := fun hm' => by
      obtain ⟨g1, g2, g3⟩ := (mem_faultPages q).1 hm'
      rcases h with h | h | h
      · rw [g1] at h; exact Bool.false_ne_true h
      · exact g2 h
      · exact g3 h
    exact (hmin.state q).trans (congrArg (·.state) ((hhdr q).2 hn))
  · refine pins_alert ?_ ?_ hfa
    · rw [minuetOn, show d.chip = s.chip from congrArg (·.chip) hqd]; exact hm
    · rw [tapPins, show d.tap = s.tap from congrArg (·.tap) hqd]; exact ht
  · obtain ⟨x, hx, hkind, -⟩ := hw h1 h2
    exact ⟨x, by rw [after_flt, hx], hkind⟩

/-- MODULE_RESET. -/
theorem moduleResets {s : State} {r : Requester} (h : Reaches s.toChip r .flt) :
    (armed s.toChip r .flt = false → Answered (.moduleReset r) s r 0x21 s.toChip (fun t => Event t .flt 3)) ∧
    (armed s.toChip r .flt = true →
      (s.flt.faulted = true → r = .sideband → AcceptedWith (.moduleReset r) s r (fun t =>
        Restarted s t 3 ∧ t.flt.faulted = false ∧ t.flt.slots = s.flt.slots)) ∧
      (s.flt.faulted = false ∨ r ≠ .sideband → Answered (.moduleReset r) s r 0x21 s.toChip (fun t =>
        t.flt = s.flt))) := by
  have he : exec (.moduleReset r) s = act s (fun c => mgmtWrite c r aFLT_MODULE 1) := rfl
  refine ⟨fun hu => ?_, fun hu => ⟨fun hf hr => ?_, fun hn => ?_⟩⟩
  · rw [act, mgmtWrite_guarded (row := rowModule) 1 h (by decide) rfl rfl (by decide) hu] at he
    refine answered_of he ((desk_of_quiet (quiet_raise ..)).trans (desk_setArmed ..)) ?_
    exact (congrArg (fun x : BlockHdr => bit x.int 3) (hdr_answered s ..)).trans (raise_int _ _ _ (by decide))
  · rw [act, mgmtWrite_module h hu, if_pos ⟨hf, hr⟩] at he
    obtain ⟨m, hc⟩ := resetChip_eq (setArmed s.toChip r .flt false) true 3
    rw [hc] at he
    have hst := flt_setArmed s.toChip r .flt false
    subst hr
    exact ⟨_, he, rfl, rfl, fun _ => rfl,
      ⟨rfl, rfl, rfl, rfl, rfl, rfl, rfl, rfl, rfl, rfl, fun hup => norKept_idle (c := setArmed s.toChip .sideband .flt false) hup⟩,
      rfl, rfl⟩
  · rw [act, mgmtWrite_module h hu, if_neg (fun x => by
      rcases hn with hn | hn
      · rw [hn] at x; exact Bool.false_ne_true x.1
      · exact hn x.2)] at he
    exact answered_of he (desk_setArmed ..) ((flt_drive ..).trans (flt_setArmed ..))

/-- Settles O52: a report is made anew or again, each with its level's event and reaction; a module fault and its reset
follow R477 and R478. -/
theorem faultReactions : Obligations.FaultReactions := by
  refine ⟨⟨levels_listed, fun s f hm => ?_⟩, fun s hm => ⟨fun hp => ?_, moduleFaults hm, fun r h => moduleResets h⟩⟩
  · refine ⟨fun hk => ?_, reports_test hm, fun h0 h1 ht => ⟨reports_anew hm h0 h1 ht,
      fun x hs hto => (reports_again hm h0 h1 ht hs hto).1, fun x hs hto => (reports_again hm h0 h1 ht hs hto).2⟩⟩
    rw [exec_faultReport hm (fun ht => ?_), report, if_pos hk]
    have := ht.2.1
    simp only [List.mem_cons, List.not_mem_nil, or_false] at this
    omega
  · have he : exec .moduleFault s = act s (fun c => whenMinuet c moduleFault) := rfl
    rw [he, act_whenMinuet hm, moduleFault, if_pos hp]

end Sys2Proof.Machine
end

section
/-! Overlays and the boot record (O56). -/

namespace Sys2Proof.Machine

open Sys2Proof.Safety

/-! ### CHIP's own state -/

/-- A chip with CHIP's own state as given. -/
def withChip (c : Chip) (h : ChipUnit) : Chip := { c with chip := h }

theorem desk_withChip (c : Chip) (h : ChipUnit) : desk (withChip c h) = withChip (desk c) h := rfl

theorem quiet_withChip (c : Chip) (h : ChipUnit) : quiet (withChip c h) = withChip (quiet c) h := rfl

theorem reg_withChip (c : Chip) (h : ChipUnit) (a : Nat) : reg (withChip c h) a = reg c a := rfl

theorem pageWrite_chip {c : Chip} {x : RegWr} (h : pageOf (x.a / 0x4000) = .chip) : pageWrite c x = writeChip c x := by
  unfold pageWrite
  rw [h]

theorem chip_of_desk {c d : Chip} (h : desk c = desk d) : c.chip = d.chip := congrArg (·.chip) h

theorem bstate_setArmed (c : Chip) (r : Requester) (p q : Page) (on : Bool) : bstate (setArmed c r p on) q = bstate c q := by
  cases r <;> rfl

/-- A management command that ends with a status, whose rule gives a chip. -/
theorem answered_after {i : Instr} {s : State} {r : Requester} {y : Nat × Chip} {n : Nat} {c d : Chip} {p : State → Prop}
    (he : exec i s = .next (after s (keepStatus (answer y.2 y.1 0) r y.1))) (hy : y = (n, c))
    (hd : desk c = desk d) (hp : p (after s (keepStatus (answer c n 0) r n))) : Answered i s r (BitVec.ofNat 8 n) d p := by
  subst hy
  exact answered_of he hd hp

/-- A guarded register without the unlock: the access is refused, GUARD_ERR is raised, no register changes (R26). -/
theorem guarded_refused {i : Instr} {s : State} {r : Requester} {a : Nat} {w : Word} {row : RegRow} {p : Page}
    (he : exec i s = .next (after s (mgmtWrite s.toChip r a w))) (hpg : pageOf (a / 0x4000) = p)
    (h : Reaches s.toChip r p) (ha : plainReg a = true) (hr : rowOf a = some row) (hp : row.pair = 0)
    (hg : rowGuarded row = true) (hu : armed s.toChip r p = false) :
    Answered i s r 0x21 s.toChip (fun t => Event t p 3 ∧ KeepsRegs s.toChip t.toChip) := by
  subst hpg
  rw [mgmtWrite_guarded w h ha hr hp hg hu] at he
  have hq := desk_of_quiet (quiet_raise (setArmed s.toChip r (pageOf (a / 0x4000)) false) (pageOf (a / 0x4000)) 3)
  have hi := raise_int (setArmed s.toChip r (pageOf (a / 0x4000)) false) (pageOf (a / 0x4000)) 3 (by decide)
  have hk := keepsRegs_raise (setArmed s.toChip r (pageOf (a / 0x4000)) false) (pageOf (a / 0x4000)) 3
  generalize raise (setArmed s.toChip r (pageOf (a / 0x4000)) false) (pageOf (a / 0x4000)) 3 = d at he hq hi hk
  refine answered_after (y := (rejState, d)) he rfl (hq.trans (desk_setArmed ..)) ⟨?_, fun k hn => ?_⟩
  · rw [Event, hdr_answered]
    exact hi
  · exact (regKey_drive ..).trans ((hk k hn).trans (regKey_setArmed ..))

/-! ### OVL_APPLY (R505) -/

/-- The row of OVL_APPLY. -/
def rowOvlApply : RegRow := ⟨0x048, 1, .none_, 0, [⟨3, 0, .wo, 0⟩]⟩

/-- NUMBER of OVL_STAT as OVL_APPLY leaves it. -/
def ovlNumbered (c : Chip) (n : Nat) : Chip := setFld c aCHIP_OVL_STAT 11 8 n

/-- A write of OVL_APPLY while the fast domain does not sleep. -/
theorem mgmtWrite_ovlApply {c : Chip} {r : Requester} (n : BitVec 4) (h : Reaches c r .chip) (hs : asleep c = false) :
    mgmtWrite c r aCHIP_OVL_APPLY (w32 n.toNat) = keepStatus (answer (ovlApply (setArmed c r .chip false) n.toNat).2
      (ovlApply (setArmed c r .chip false) n.toNat).1 0) r (ovlApply (setArmed c r .chip false) n.toNat).1 := by
  obtain ⟨x, hx, hw⟩ := mgmtWriteWith_rule (a := aCHIP_OVL_APPLY) (row := rowOvlApply) noArgs (w32 n.toNat) h (by decide)
    rfl rfl (fun hg => absurd hg (by decide))
  have h1 : x.a ≠ aCHIP_BOOT_CFG := by rw [hx.addr]; decide
  have hsl : sleeping (setArmed c r .chip false) = false := by
    rw [sleeping, chip_of_desk (desk_setArmed ..)]
    simp only [asleep, decide_eq_false_iff_not, not_or] at hs
    exact decide_eq_false fun hn => hn.elim hs.1 hs.2.1
  have hv : fld (w32 n.toNat) 3 0 = n.toNat := fld_w32 n.isLt (by decide)
  have hrule : writeChip (setArmed c r .chip false) x = ovlApply (setArmed c r .chip false) n.toNat := by
    unfold writeChip
    rw [if_neg h1, if_pos hx.addr, hx.plain, if_pos rfl, hx.raw, hv, wakeByWrite, hsl]
    rfl
  rw [show pageOf (aCHIP_OVL_APPLY / 0x4000) = .chip from rfl, pageWrite_chip (by rw [hx.addr]; rfl), hrule] at hw
  exact hw

/-- OVL_APPLY, in its three cases. -/
theorem ovlApplies {s : State} {r : Requester} (n : BitVec 4) (h : Reaches s.toChip r .chip)
    (hs : asleep s.toChip = false) :
    let busy := bstate s.toChip .fig = .draining ∨ s.flt.chipPending = true
    (busy → Answered (.ovlApply r n) s r 0x20 s.toChip (fun t =>
      fld (reg t.toChip aCHIP_OVL_STAT) 11 8 = n.toNat ∧ fld (reg t.toChip aCHIP_OVL_STAT) 23 16 = 0x20)) ∧
    (¬ busy → bit (reg s.toChip aCHIP_OVL_PRESENT) n.toNat = true → Accepted (.ovlApply r n) s r
      { s.toChip with chip := { s.chip with overlays := s.chip.overlays ++ [n.toNat] } }
      (fun t => fld (reg t.toChip aCHIP_OVL_STAT) 11 8 = n.toNat)) ∧
    (¬ busy → bit (reg s.toChip aCHIP_OVL_PRESENT) n.toNat = false → Answered (.ovlApply r n) s r 0x23 s.toChip (fun t =>
      fld (reg t.toChip aCHIP_OVL_STAT) 11 8 = n.toNat ∧ fld (reg t.toChip aCHIP_OVL_STAT) 23 16 = 0x23)) := by
  have he : exec (.ovlApply r n) s = .next (after s (mgmtWrite s.toChip r aCHIP_OVL_APPLY (w32 n.toNat))) := rfl
  rw [mgmtWrite_ovlApply n h hs] at he
  have hf := flt_setArmed s.toChip r .chip false
  have hst := bstate_setArmed s.toChip r .chip .fig false
  have hp := reg_setArmed s.toChip r .chip false aCHIP_OVL_PRESENT
  have hd := desk_setArmed s.toChip r .chip false
  generalize setArmed s.toChip r .chip false = c at he hf hst hp hd
  have hn := n.isLt
  have hfields : ∀ st, fld (reg (setFld (ovlNumbered c n.toNat) aCHIP_OVL_STAT 23 16 st) aCHIP_OVL_STAT) 11 8 = n.toNat ∧
      fld (reg (setFld (ovlNumbered c n.toNat) aCHIP_OVL_STAT 23 16 st) aCHIP_OVL_STAT) 23 16 = st % 256 := fun st => by
    rw [fld_setFld_other _ _ _ (by decide) (by decide) (by decide), ovlNumbered, fld_setFld_self _ _ _ (by decide) (by decide),
      fld_setFld_self _ _ _ (by decide) (by decide)]
    exact ⟨Nat.mod_eq_of_lt hn, rfl⟩
  have hdesk : ∀ st, desk (setFld (ovlNumbered c n.toNat) aCHIP_OVL_STAT 23 16 st) = desk s.toChip := fun st => by
    rw [desk_of_quiet (quiet_setFld ..), ovlNumbered, desk_of_quiet (quiet_setFld ..), hd]
  refine ⟨fun hb => ?_, fun hb hpr => ?_, fun hb hpr => ?_⟩
  · refine answered_after he (by rw [ovlApply, hst, hf, if_pos hb]; rfl) (hdesk rejBusy) ?_
    rw [reg_answered]
    exact hfields _
  · refine answered_after (c := withChip (ovlNumbered c n.toNat) { (ovlNumbered c n.toNat).chip with
      overlays := (ovlNumbered c n.toNat).chip.overlays ++ [n.toNat] }) he
      (by rw [ovlApply, hst, hf, if_neg hb, if_pos (by rw [hp]; exact hpr)]; rfl) ?_ ?_
    · have hc : (ovlNumbered c n.toNat).chip = s.chip :=
        (congrArg (·.chip) (quiet_setFld c aCHIP_OVL_STAT 11 8 n.toNat)).trans (chip_of_desk hd)
      rw [desk_withChip, hc, ovlNumbered, desk_of_quiet (quiet_setFld ..), hd]
      rfl
    · rw [reg_answered, reg_withChip, ovlNumbered, fld_setFld_self _ _ _ (by decide) (by decide)]
      exact Nat.mod_eq_of_lt hn
  · refine answered_after he (by
      rw [ovlApply, hst, hf, if_neg hb, if_neg (by rw [hp, hpr]; exact Bool.false_ne_true)]; rfl) (hdesk rejLimit) ?_
    rw [reg_answered]
    exact hfields _

/-! ### BOOT_CFG (R509) -/

/-- The row of BOOT_CFG. -/
def rowBootCfg : RegRow := ⟨0x040, 1, .none_, 0, [⟨11, 8, .rwgt, 0⟩, ⟨0, 0, .rwgt, 0⟩]⟩

/-- BOOT_CFG as a write stores it. -/
def bootCfgStored (c : Chip) (w : Word) : Chip := setKey c (rkey 0 aCHIP_BOOT_CFG) 0xF01 w

theorem bootCfgStored_reads (c : Chip) (w : Word) :
    bit (reg (bootCfgStored c w) aCHIP_BOOT_CFG) 0 = bit w 0 ∧
    fld (reg (bootCfgStored c w) aCHIP_BOOT_CFG) 11 8 = fld w 11 8 := by
  have hm : ∀ n, n = 0 ∨ (8 ≤ n ∧ n ≤ 11) → (0xF01 : Word).getLsbD n = true := fun n hn => by
    have : n = 0 ∨ n = 8 ∨ n = 9 ∨ n = 10 ∨ n = 11 := by omega
    rcases this with rfl | rfl | rfl | rfl | rfl <;> decide
  have hb : ∀ n, n = 0 ∨ (8 ≤ n ∧ n ≤ 11) → bit (reg (bootCfgStored c w) aCHIP_BOOT_CFG) n = bit w n := fun n hn => by
    rw [reg, bootCfgStored, regKey_setKey_self]
    simp only [bit, BitVec.getLsbD_or, BitVec.getLsbD_and, BitVec.getLsbD_not, hm n hn, Bool.not_true, Bool.and_false,
      Bool.and_true, Bool.false_or]
  exact ⟨hb 0 (.inl rfl), fld_congr fun n h1 h2 => hb n (.inr ⟨h1, by omega⟩)⟩

/-- An unlocked write of BOOT_CFG. -/
theorem mgmtWrite_bootCfg {c : Chip} {r : Requester} (w : Word) (h : Reaches c r .chip) (ha : armed c r .chip = true) :
    mgmtWrite c r aCHIP_BOOT_CFG w = keepStatus (answer (bootRecord (bootCfgStored (setArmed c r .chip false) w)
      (reg (bootCfgStored (setArmed c r .chip false) w) aCHIP_BOOT_CFG)) stOK 0) r stOK := by
  obtain ⟨x, hx, hw⟩ := mgmtWriteWith_rule (a := aCHIP_BOOT_CFG) (row := rowBootCfg) noArgs w h (by decide)
    rfl rfl (fun _ => ha)
  have hb : x.bank = 0 := hx.bank
  have hst : storeReg (setArmed c r .chip false) x = bootCfgStored (setArmed c r .chip false) w := by
    rw [storeReg_single _ hx.lo, hb, hx.addr, hx.row, hx.new]
    rfl
  have hrule : writeChip (setArmed c r .chip false) x = (stOK, bootRecord (bootCfgStored (setArmed c r .chip false) w)
      (reg (bootCfgStored (setArmed c r .chip false) w) aCHIP_BOOT_CFG)) := by
    unfold writeChip
    rw [if_pos hx.addr, hst]
  rw [show pageOf (aCHIP_BOOT_CFG / 0x4000) = .chip from rfl, pageWrite_chip (by rw [hx.addr]; rfl), hrule] at hw
  exact hw

/-- BOOT_PREFER_WRITE, with and without the unlock. -/
theorem bootPrefers {s : State} {r : Requester} (v : Word) (h : Reaches s.toChip r .chip) :
    (armed s.toChip r .chip = true → Accepted (.bootPreferWrite r v) s r
      { s.toChip with chip := { s.chip with prefer := bit v 0, bootOverlay := fld v 11 8 } }
      (fun t => bit (reg t.toChip aCHIP_BOOT_CFG) 0 = bit v 0 ∧ fld (reg t.toChip aCHIP_BOOT_CFG) 11 8 = fld v 11 8)) ∧
    (armed s.toChip r .chip = false → Answered (.bootPreferWrite r v) s r 0x21 s.toChip (fun t =>
      Event t .chip 3 ∧ reg t.toChip aCHIP_BOOT_CFG = reg s.toChip aCHIP_BOOT_CFG)) := by
  have he : exec (.bootPreferWrite r v) s = .next (after s (mgmtWrite s.toChip r aCHIP_BOOT_CFG v)) := rfl
  refine ⟨fun hu => ?_, fun hu => ?_⟩
  · rw [mgmtWrite_bootCfg v h hu] at he
    have hd := desk_setArmed s.toChip r .chip false
    generalize setArmed s.toChip r .chip false = c at he hd
    have hq : desk (bootCfgStored c v) = desk s.toChip :=
      (desk_of_quiet (quiet_setKey c (rkey 0 aCHIP_BOOT_CFG) 0xF01 v)).trans hd
    obtain ⟨h1, h2⟩ := bootCfgStored_reads c v
    generalize bootCfgStored c v = d at he hq h1 h2
    refine answered_after (y := (stOK, bootRecord d (reg d aCHIP_BOOT_CFG)))
      (c := withChip d { d.chip with prefer := bit v 0, bootOverlay := fld v 11 8 }) he
      (by rw [bootRecord, h1, h2]; rfl) ?_ ?_
    · rw [desk_withChip, hq, chip_of_desk hq]
      rfl
    · rw [reg_answered, reg_withChip]
      exact ⟨h1, h2⟩
  · obtain ⟨t, ht, hp, hacc, hl, hd, hev, hk⟩ := guarded_refused (row := rowBootCfg) he rfl h (by decide) rfl rfl (by decide) hu
    exact ⟨t, ht, hp, hacc, hl, hd, hev, hk.reg (by decide)⟩

/-! ### OVERLAY_COMMIT (R78, R505) -/

/-- What an aborted figure leaves where none is committed: the counter of aborts and FIG's log. -/
theorem abortOpen_idle {c : Chip} (f : Figure) (h : c.fig.committed = []) : ∃ (g : FigUnit) (m n : Nat),
    g.seq = c.fig.seq ∧ g.committed = [] ∧ g.waiting = c.fig.waiting ∧
    abortOpen c f = { bump c aFIG_ABORT_CNT 1 with fig := g, free := m, fineNow := n } := by
  have hf : (bump c aFIG_ABORT_CNT 1).fig = c.fig := congrArg (·.fig) (quiet_bump c aFIG_ABORT_CNT 1)
  unfold abortOpen
  dsimp only
  split
  · exact ⟨(bump c aFIG_ABORT_CNT 1).fig, (bump c aFIG_ABORT_CNT 1).free, (bump c aFIG_ABORT_CNT 1).fineNow, by rw [hf], by rw [hf, h], by rw [hf], rfl⟩
  · rw [h]
    generalize bump c aFIG_ABORT_CNT 1 = d at hf
    refine ⟨_, _, _, ?_, ?_, ?_, rfl⟩
    · exact congrArg (·.seq) hf
    · exact (congrArg (·.committed) hf).trans h
    · exact congrArg (·.waiting) hf

theorem stepless_iff (c : Chip) (f : Figure) :
    (parts8.any (fun p => (schedPart c p).step.isSome) || !canOpen c f) = false ↔
      (∀ p, p < 8 → (schedPart c p).step = none) ∧ canOpen c f = true := by
  rw [Bool.or_eq_false_iff, List.any_eq_false]
  refine and_congr ⟨fun h p hp => ?_, fun h p hp => ?_⟩ (by cases canOpen c f <;> decide)
  · have := h p ((List.mem_range (n := 8)).2 hp)
    simpa only [Option.not_isSome_iff_eq_none] using this
  · rw [h p ((List.mem_range (n := 8)).1 hp)]
    exact Bool.false_ne_true

/-- The overlay at the front may commit now. -/
abbrev OverlayFree (c : Chip) (n : Nat) : Prop :=
  (∀ p, p < 8 → (schedPart c p).step = none) ∧ canOpen c (overlayFig n (overlayImage c n).2) = true

/-- The chip as the overlay at the front leaves the queue. -/
def overlayTaken (c : Chip) (rest : List Nat) : Chip := withChip c { c.chip with overlays := rest }

theorem overlayCommit_waits {c : Chip} {n : Nat} {rest : List Nat} (hc : c.fig.committed = [])
    (ho : c.chip.overlays = n :: rest) (hn : ¬ OverlayFree c n) : overlayCommit c = c := by
  unfold overlayCommit
  rw [settle_idle hc]
  dsimp only
  rw [ho]
  exact if_pos (Bool.eq_true_of_not_eq_false (mt (stepless_iff c _).1 hn))

theorem overlayCommit_refused {c x : Chip} {n : Nat} {rest : List Nat} {e : Nat × Nat} (hc : c.fig.committed = [])
    (ho : c.chip.overlays = n :: rest) (hn : OverlayFree c n)
    (hi : imageWrites (overlayTaken c rest) 0 none (overlayImage c n).2 = (some e, x)) :
    overlayCommit c = overlayRefused (abortOpen (overlayTaken c rest) (overlayFig n (overlayImage c n).2)) e.2 := by
  unfold overlayCommit
  rw [settle_idle hc]
  dsimp only
  rw [ho]
  refine (if_neg (by rw [(stepless_iff c _).2 hn]; exact Bool.false_ne_true)).trans ?_
  split
  · rename_i h
    cases h.symm.trans hi
    rfl
  · rename_i h
    cases h.symm.trans hi

theorem overlayCommit_inForce {c x : Chip} {n : Nat} {rest : List Nat} (hc : c.fig.committed = [])
    (ho : c.chip.overlays = n :: rest) (hn : OverlayFree c n)
    (hi : imageWrites (overlayTaken c rest) 0 none (overlayImage c n).2 = (none, x)) :
    ∃ d, overlayCommit c = overlayInForce d n (overlayImage c n).1 := by
  unfold overlayCommit
  rw [settle_idle hc]
  dsimp only
  rw [ho]
  simp only [(stepless_iff c _).2 hn, Bool.false_eq_true, if_false]
  split
  · rename_i h
    cases h.symm.trans hi
  · exact ⟨_, rfl⟩

/-- What an overlay that is refused leaves. -/
theorem overlayRefused_leaves {c : Chip} (f : Figure) (e : Nat) (h : c.fig.committed = []) :
    let d := overlayRefused (abortOpen c f) e
    quiet { d with fig := c.fig } = quiet c ∧ d.fig.seq = c.fig.seq ∧ d.fig.committed = [] ∧ d.fig.waiting = c.fig.waiting ∧
      (reg d aFIG_ABORT_CNT).toNat = min ((reg c aFIG_ABORT_CNT).toNat + 1) 0xFFFFFFFF ∧
      fld (reg d aCHIP_OVL_STAT) 23 16 = e % 256 ∧ bit (hdr d .chip).int 17 = true := by
  obtain ⟨g, k, m, h1, h2, h3, he⟩ := abortOpen_idle f h
  rw [he]
  have hq := quiet_bump c aFIG_ABORT_CNT 1
  have hcnt := toNat_reg_bump c aFIG_ABORT_CNT 1
  generalize bump c aFIG_ABORT_CNT 1 = b at hq hcnt
  have hqr : quiet (overlayRefused { b with fig := g, free := k, fineNow := m } e) = quiet { b with fig := g } := by
    rw [overlayRefused, quiet_raise, quiet_setFld]
    rfl
  have hk := keepsRegs_raise (setFld { b with fig := g, free := k, fineNow := m } aCHIP_OVL_STAT 23 16 e) .chip 17
  have hfig : (overlayRefused { b with fig := g, free := k, fineNow := m } e).fig = g := congrArg (·.fig) hqr
  intro d
  refine ⟨?_, ?_, ?_, ?_, ?_, ?_, raise_int _ _ _ (by decide)⟩
  · have := congrArg (fun x : Chip => { x with fig := c.fig }) hqr
    refine this.trans ((congrArg (fun x : Chip => { x with fig := c.fig }) hq).trans ?_)
    rfl
  · exact (congrArg (·.seq) hfig).trans h1
  · exact (congrArg (·.committed) hfig).trans h2
  · exact (congrArg (·.waiting) hfig).trans h3
  · refine Eq.trans (congrArg BitVec.toNat ((hk.reg (by decide)).trans ?_)) hcnt
    rw [reg_setFld_other _ _ _ _ (by decide)]
    rfl
  · refine (congrArg (fun w => fld w 23 16) (hk.reg (by decide))).trans ?_
    exact fld_setFld_self _ _ _ (by decide) (by decide)

theorem overlayInForce_leaves (c : Chip) (n : Nat) (l : List Byte) :
    (overlayInForce c n l).chip.inForce = n ∧ fld (reg (overlayInForce c n l) aCHIP_OVL_STAT) 23 16 = 0 ∧
    bit (hdr (overlayInForce c n l) .chip).int 16 = true := by
  unfold overlayInForce
  dsimp only
  generalize hd : setFld (extendMc2 c l) aCHIP_OVL_STAT 23 16 stOK = d
  have hr : reg d aCHIP_OVL_STAT = reg (setFld (extendMc2 c l) aCHIP_OVL_STAT 23 16 stOK) aCHIP_OVL_STAT := by rw [hd]
  refine ⟨congrArg (·.chip.inForce) (quiet_raise { d with chip := { d.chip with inForce := n } } .chip 16), ?_,
    raise_int _ _ _ (by decide)⟩
  rw [(keepsRegs_raise _ _ _).reg (by decide)]
  refine (congrArg (fun w => fld w 23 16) hr).trans ?_
  rw [fld_setFld_self _ _ _ (by decide) (by decide)]
  rfl

/-- OVERLAY_COMMIT where every figure has been applied. -/
theorem overlaysCommit {s : State} (ha : Awake s.toChip) (hc : s.fig.committed = []) :
    (s.chip.overlays = [] → exec .overlayCommit s = .next (after s s.toChip)) ∧
    (∀ n rest, s.chip.overlays = n :: rest →
      let img := overlayImage s.toChip n
      let c : Chip := { s.toChip with chip := { s.chip with overlays := rest } }
      let free := (∀ p, p < 8 → (schedPart s.toChip p).step = none) ∧ canOpen s.toChip (overlayFig n img.2) = true
      (¬ free → exec .overlayCommit s = .next (after s s.toChip)) ∧
      (∀ e x, free → imageWrites c 0 none img.2 = (some e, x) → Completes .overlayCommit s (fun t =>
        quiet { t.toChip with fig := s.fig } = quiet c ∧ t.fig.seq = s.fig.seq ∧ t.fig.committed = [] ∧
        t.fig.waiting = s.fig.waiting ∧ Counted s t aFIG_ABORT_CNT 1 ∧
        fld (reg t.toChip aCHIP_OVL_STAT) 23 16 = e.2 % 256 ∧ Event t .chip 17)) ∧
      (∀ x, free → imageWrites c 0 none img.2 = (none, x) → Completes .overlayCommit s (fun t =>
        t.chip.inForce = n ∧ fld (reg t.toChip aCHIP_OVL_STAT) 23 16 = 0 ∧ Event t .chip 16))) := by
  have he : exec .overlayCommit s = act s (fun c => whenAwake c overlayCommit) := rfl
  rw [act_whenAwake ha] at he
  refine ⟨fun ho => ?_, fun n rest ho => ?_⟩
  · rw [he, overlayCommit, settle_idle hc]
    dsimp only
    rw [ho]
  · refine ⟨fun hn => by rw [he, overlayCommit_waits hc ho hn], fun e x hfree hi => ?_, fun x hfree hi => ?_⟩
    · rw [overlayCommit_refused hc ho hfree hi] at he
      have hl := overlayRefused_leaves (c := overlayTaken s.toChip rest) (overlayFig n (overlayImage s.toChip n).2) e.2 hc
      generalize overlayRefused (abortOpen (overlayTaken s.toChip rest) (overlayFig n (overlayImage s.toChip n).2)) e.2 = d
        at he hl
      obtain ⟨h1, h2, h3, h4, h5, h6, h7⟩ := hl
      exact ⟨_, he, after_pending _ _, (quiet_after s { d with fig := s.fig }).trans h1, h2, h3, h4, h5, h6, h7⟩
    · obtain ⟨d, hd⟩ := overlayCommit_inForce hc ho hfree hi
      obtain ⟨h1, h2, h3⟩ := overlayInForce_leaves d n (overlayImage s.toChip n).1
      rw [hd] at he
      exact ⟨_, he, after_pending _ _, h1, h2, h3⟩

/-- Settles O56: overlays are queued, commit as one figure or abort, and BOOT_CFG stores the boot record. -/
theorem overlays : Obligations.Overlays := fun _ =>
  ⟨fun _ n h hs => ovlApplies n h hs, fun ha hc => overlaysCommit ha hc, fun _ v h => bootPrefers v h⟩

end Sys2Proof.Machine
end

section
/-! What the commit of a figure and its application leave: the shared part of the statements about figures. -/

namespace Sys2Proof.Machine

open Sys2Proof.Safety

/-! ### The commit -/

/-- FIG's own state after a commit. -/
structure FigAfter (c : Chip) (f : Figure) (g : FigUnit) : Prop where
  seq : g.seq = c.fig.seq + 1
  committed : ∃ k : Committed, k.seq = c.fig.seq + 1 ∧ k.fig = f ∧ k.units = figUnits f ∧
    g.committed = c.fig.committed ++ [k]
  waiting : g.waiting = c.fig.waiting
  applied : g.applied = c.fig.applied
  logUsed : g.logUsed = c.fig.logUsed + figUnits f
  staged : g.staged = c.fig.staged + f.staged

/-- The registers that a commit counts in. -/
def commitRegs : List Nat := [aFIG_COMMIT_CNT_LO, aFIG_COMMIT_CNT_LO + 4, aFIG_LAT_MAX]

/-- A chip whose figure has committed, before what follows the commit. -/
structure CommitMoved (c d : Chip) (f : Figure) : Prop where
  fig : FigAfter c f d.fig
  quiet : quiet d = Safety.quiet { c with fig := d.fig }
  regs : ∀ k, eventKey k = false → k ∉ commitRegs.map (rkey 0) → regKey d k = regKey c k
  ints : ∀ p b, bit (hdr c p).int b = true → bit (hdr d p).int b = true
  state : ∀ p, bstate d p = bstate c p
  flt : d.flt = c.flt

/-- A chip once a figure's latency, place and stamp are given. -/
def stamped (c : Chip) : Chip := (takeFine (takeFree (takeFree c).2).2).2

/-- The intent and commit records of a figure. -/
def figRecords (c : Chip) (f : Figure) : List Byte :=
  intentOf c f (stagePlace c f.staged (takeFree (takeFree c).2).1) ++
    closeBytes 0x02 (logHeadOf c f) (c.fig.seq + 1) (takeFine (takeFree (takeFree c).2).2).1

/-- A figure as FIG keeps it between its commit and its application. -/
def committedAs (c : Chip) (f : Figure) : Committed :=
  { seq := c.fig.seq + 1, fig := f, units := figUnits f, id := c.fig.written,
    place := stagePlace c f.staged (takeFree (takeFree c).2).1 }

/-- FIG's own state with a figure in the log. -/
def figWith (c : Chip) (f : Figure) : FigUnit :=
  { (logWrite (stamped c) (figUnits f) (figRecords c f)).fig with
    seq := c.fig.seq + 1
    committed := (stamped c).fig.committed ++ [committedAs c f]
    logUsed := (stamped c).fig.logUsed + figUnits f
    staged := (stamped c).fig.staged + f.staged }

/-- A chip with FIG's own state, the free values and the stamps as given. -/
def withFig (c : Chip) (g : FigUnit) (free fine : Nat) : Chip := { c with fig := g, free := free, fineNow := fine }

theorem quiet_withFig (c : Chip) (g : FigUnit) (n m : Nat) : quiet (withFig c g n m) = quiet { c with fig := g } := rfl

theorem hdr_withFig (c : Chip) (g : FigUnit) (n m : Nat) (p : Page) : hdr (withFig c g n m) p = hdr c p := rfl

theorem regKey_withFig (c : Chip) (g : FigUnit) (n m k : Nat) : regKey (withFig c g n m) k = regKey c k := rfl

theorem flt_withFig (c : Chip) (g : FigUnit) (n m : Nat) : (withFig c g n m).flt = c.flt := rfl

theorem fig_withFig (c : Chip) (g : FigUnit) (n m : Nat) : (withFig c g n m).fig = g := rfl

/-- A figure stands in the log. -/
def figLogged (c : Chip) (f : Figure) : Chip := withFig c (figWith c f) (stamped c).free (stamped c).fineNow

/-- FIG's counters at a commit. -/
def commitCounted (c : Chip) (lat : Nat) : Chip :=
  setFld (bumpPair c aFIG_COMMIT_CNT_LO 1) aFIG_LAT_MAX 15 0
    (max (fld (reg (bumpPair c aFIG_COMMIT_CNT_LO 1) aFIG_LAT_MAX) 15 0) (lat % 65536))

/-- LOG_HIGH is raised as the log fills up. -/
def logFills (c d : Chip) : Chip := if 131072 ≤ logFree c ∧ logFree d < 131072 then raise d .fig 17 else d

/-- A commit in its steps: its records, its counters, LOG_HIGH, and what follows. -/
theorem commitFig_eq (c : Chip) (f : Figure) :
    commitFig c f = f.after.foldl (fun d a => afterOne d (c.fig.seq + 1) a)
      (logFills (stamped c) (commitCounted (figLogged c f) (takeFree c).1)) := by
  unfold commitFig logFills commitCounted figLogged withFig figWith committedAs figRecords stamped
  rfl

theorem figWith_after (c : Chip) (f : Figure) : FigAfter c f (figWith c f) :=
  ⟨rfl, ⟨committedAs c f, rfl, rfl, rfl, rfl⟩, rfl, rfl, rfl, rfl⟩

theorem hdr_setFld (c : Chip) (a hi lo v : Nat) (p : Page) : hdr (setFld c a hi lo v) p = hdr c p := hdr_setKey ..

theorem flt_setFld (c : Chip) (a hi lo v : Nat) : (setFld c a hi lo v).flt = c.flt := setKey_flt ..

theorem hdr_bumpPair (c : Chip) (a n : Nat) (p : Page) : hdr (bumpPair c a n) p = hdr c p := by
  unfold bumpPair
  split
  · rfl
  · exact (hdr_setKey ..).trans (hdr_setKey ..)

theorem flt_bumpPair (c : Chip) (a n : Nat) : (bumpPair c a n).flt = c.flt := by
  unfold bumpPair
  split
  · rfl
  · exact (setKey_flt ..).trans (setKey_flt ..)

theorem quiet_commitCounted (c : Chip) (lat : Nat) : quiet (commitCounted c lat) = quiet c := by
  rw [commitCounted, quiet_setFld, quiet_bumpPair]

theorem hdr_commitCounted (c : Chip) (lat : Nat) (p : Page) : hdr (commitCounted c lat) p = hdr c p := by
  rw [commitCounted, hdr_setFld, hdr_bumpPair]

theorem flt_commitCounted (c : Chip) (lat : Nat) : (commitCounted c lat).flt = c.flt := by
  rw [commitCounted, flt_setFld, flt_bumpPair]

theorem regKey_commitCounted (c : Chip) (lat : Nat) {k : Nat} (h : k ∉ commitRegs.map (rkey 0)) :
    regKey (commitCounted c lat) k = regKey c k := by
  simp only [commitRegs, List.map_cons, List.map_nil, List.mem_cons, List.not_mem_nil, or_false, not_or] at h
  obtain ⟨h1, h2, h3⟩ := h
  rw [commitCounted]
  exact (regKey_setKey_other _ _ _ _ _ h3).trans (regKey_bumpPair_other _ _ _ h1 h2)

theorem commitCounted_moved (c : Chip) (f : Figure) (lat : Nat) :
    CommitMoved c (commitCounted (figLogged c f) lat) f := by
  have hg := figWith_after c f
  rw [figLogged]
  generalize figWith c f = g at hg
  generalize (stamped c).free = n
  generalize (stamped c).fineNow = m
  have hq := (quiet_commitCounted (withFig c g n m) lat).trans (quiet_withFig c g n m)
  have hfig : (commitCounted (withFig c g n m) lat).fig = g := congrArg (·.fig) hq
  refine ⟨?_, ?_, fun k _ hk => ?_, fun p b h => ?_, fun p => ?_, ?_⟩
  · rw [hfig]
    exact hg
  · rw [hfig, hq]
  · rw [regKey_commitCounted _ _ hk, regKey_withFig]
  · rw [hdr_commitCounted, hdr_withFig]
    exact h
  · rw [bstate, hdr_commitCounted, hdr_withFig, bstate]
  · rw [flt_commitCounted, flt_withFig]

theorem CommitMoved.raise {c d : Chip} {f : Figure} (h : CommitMoved c d f) (p : Page) (b : Nat) :
    CommitMoved c (Machine.raise d p b) f := by
  have hfig : (Machine.raise d p b).fig = d.fig := congrArg (·.fig) (quiet_raise d p b)
  refine ⟨?_, ?_, fun k hn hk => ?_, fun q x hx => ?_, fun q => ?_, ?_⟩
  · rw [hfig]
    exact h.fig
  · rw [quiet_raise, hfig]
    exact h.quiet
  · rw [keepsRegs_raise d p b k hn, h.regs k hn hk]
  · exact (minor_raise d p b).ints q x (h.ints q x hx)
  · exact ((minor_raise d p b).state q).trans (h.state q)
  · exact (flt_of_mute (mute_raise d p b)).trans h.flt

theorem CommitMoved.fills {c d e : Chip} {f : Figure} (h : CommitMoved c d f) : CommitMoved c (logFills e d) f := by
  unfold logFills
  split
  · exact h.raise _ _
  · exact h

/-- A figure that ends with one event. -/
theorem commitFig_event {c : Chip} {f : Figure} {p : Page} {b : Nat} (h : f.after = [.intEvent p b]) :
    ∃ d, CommitMoved c d f ∧ commitFig c f = raise d p b := by
  refine ⟨logFills (stamped c) (commitCounted (figLogged c f) (takeFree c).1), (commitCounted_moved c f _).fills, ?_⟩
  rw [commitFig_eq, h, List.foldl_cons, List.foldl_nil, afterOne]

/-! ### Opening (R71, R75) -/

/-- A figure that can open and waits for no other commits at once. -/
theorem openFig_commits {c : Chip} {f : Figure} (h : canOpen c f = true) (hw : c.fig.waiting = []) :
    openFig c f = commitFig c f := by
  unfold openFig
  rw [if_pos ⟨h, by rw [hw]; rfl⟩]

/-- An idle FIG has room for a figure that stages nothing and takes few units. -/
theorem canOpen_idle {c : Chip} {f : Figure} (hi : FigIdle c) (hu : isUp c .fig = true) (hp : c.flt.chipPending = false)
    (hn : figUnits f ≤ 32768) (hs : f.staged ≤ stageSize c) : canOpen c f = true := by
  obtain ⟨-, hl, hst⟩ := hi
  rw [canOpen, figOpens, hu, hp, figRoom, hl, hst]
  simp only [Nat.zero_add, Bool.not_false, Bool.and_true, Bool.true_and, Bool.and_eq_true, decide_eq_true_eq]
  exact ⟨hn, hs⟩

/-! ### One session's state -/

/-- The change of a session's state alone is one DIR_SET. -/
theorem dirDiff_state (e : Session) {st : SessState} (h : e.state ≠ st) :
    dirDiff false e { e with state := st } = [.dirSet false .state (stateCode st)] := by
  have hs : stateCode e.state ≠ stateCode st := fun hx => h (by
    revert hx
    cases e.state <;> cases st <;> decide)
  have hf : dirFields.filter (fun f => getField e f ≠ getField { e with state := st } f) = [.state] := by
    simp only [dirFields, List.filter_cons, getField, flagsOf, ne_eq, not_true_eq_false, decide_false, hs,
      not_false_eq_true, decide_true, List.filter_nil, Bool.false_eq_true, if_false, if_true]
  rw [dirDiff, hf]
  rfl

/-- A session's entry with its new state. -/
theorem stateOf_stateCode (st : SessState) : stateOf (stateCode st) = st := by cases st <;> rfl

/-- The application of a figure that changes one session's state, neither to FREE nor to or from COLD. -/
structure StateApplied (c d : Chip) (i : Nat) (st : SessState) : Prop where
  state : (entry d i).state = st
  rest : ∃ (e : Tbl Session) (g : FigUnit) (free now : Nat), g.committed = [] ∧ g.waiting = c.fig.waiting ∧
    d = { c with sess := { c.sess with entries := e }, fig := g, free := free, now := now }

/-- A chip with the directory and FIG's own state as given. -/
def withDir (c : Chip) (e : Tbl Session) (g : FigUnit) (free now : Nat) : Chip :=
  { c with sess := { c.sess with entries := e }, fig := g, free := free, now := now }

theorem subjectIdx_session {f : Figure} {i : Nat} (h : f.subjects = [.session i]) : subjectIdx f false = some i := by
  rw [subjectIdx, h]
  rfl

/-- DIR_SET of a state that moves no image. -/
theorem applyAct_state {c : Chip} {f : Figure} {i : Nat} {st : SessState} (seq : Nat) (hs : f.subjects = [.session i])
    (h0 : st ≠ .free) (h4 : st ≠ .cold) (h13 : st ≠ .ready ∧ st ≠ .sitout ∨ (entry c i).state ≠ .cold) :
    ∃ (e : Tbl Session) (w : Word) (n m : Nat), tget freeEntry e i = { entry c i with state := st, stamp := w } ∧
      applyAct c seq f (.dirSet false .state (stateCode st)) = withDir c e c.fig n m := by
  have hv0 : stateCode st ≠ 0 := fun h => h0 (by revert h; cases st <;> decide)
  have hv4 : stateCode st ≠ 4 := fun h => h4 (by revert h; cases st <;> decide)
  have hv13 : ¬ ((entry c i).state = .cold ∧ (stateCode st = 1 ∨ stateCode st = 3)) := fun h => by
    rcases h13 with h' | h'
    · rcases h.2 with h1 | h1
      · exact h'.1 (by revert h1; cases st <;> decide)
      · exact h'.2 (by revert h1; cases st <;> decide)
    · exact h' h.1
  have hk : (subjectIdx f false).getD 0 = i := by rw [subjectIdx_session hs]; rfl
  unfold applyAct
  simp only [hk, if_true, if_neg hv0, if_neg hv4, if_neg hv13]
  have hent : entry (takeTick (setEntry c i (setField (entry c i) .state (stateCode st)))).2 i =
      { entry c i with state := st } := by
    refine (tget_tset_self ..).trans ?_
    rw [setField, stateOf_stateCode]
  refine ⟨_, w32 (takeTick (setEntry c i (setField (entry c i) .state (stateCode st)))).1, _, _, ?_, rfl⟩
  rw [tget_tset_self, hent]

/-- The marker of the figure on the one session it names. -/
theorem markApplied_session {c : Chip} {f : Figure} {i : Nat} (seq : Nat) (h : f.subjects = [.session i]) :
    markApplied c seq f = setEntry c i { entry c i with figSeq := seq, crcFlip := 0 } := by
  rw [markApplied, h]
  rfl

/-- A figure of one session's state is applied where no other stands committed. -/
theorem settle_state {c : Chip} {k : Committed} {i : Nat} {st : SessState} (hc : c.fig.committed = [k])
    (hs : k.fig.subjects = [.session i]) (ha : k.fig.acts = [.dirSet false .state (stateCode st)])
    (h0 : st ≠ .free) (h4 : st ≠ .cold) (h13 : st ≠ .ready ∧ st ≠ .sitout ∨ (entry c i).state ≠ .cold) :
    StateApplied c (settle c) i st := by
  obtain ⟨e, w, n, m, he, hact⟩ := applyAct_state (c := { c with fig := { c.fig with committed := [] } }) k.seq hs h0 h4 h13
  have hset : settle c = applyOne c := by rw [settle, hc]; rfl
  rw [hset, applyOne, hc]
  dsimp only
  rw [ha, List.foldl_cons, List.foldl_nil, hact, markApplied_session _ hs]
  refine ⟨?_, _, _, _, _, ?_, ?_, rfl⟩
  · show (tget freeEntry (tset freeEntry e i _) i).state = st
    rw [tget_tset_self]
    exact congrArg (·.state) he
  · rfl
  · rfl

end Sys2Proof.Machine
end

section
/-! The view of a directory entry, the damage sweep, and the copy of a directory that moved (O58). -/

namespace Sys2Proof.Machine

open Sys2Proof.Safety

/-! ### VIEW_HANDLE (R65) -/

theorem pageWrite_sess {c : Chip} {x : RegWr} (h : pageOf (x.a / 0x4000) = .sess) : pageWrite c x = writeSess c x := by
  unfold pageWrite
  rw [h]

theorem pageWrite_tier {c : Chip} {x : RegWr} (h : pageOf (x.a / 0x4000) = .tier) : pageWrite c x = writeTier c x := by
  unfold pageWrite
  rw [h]

/-- The words of the view. -/
def viewWords (c : Chip) (l : List Byte) : Chip :=
  (List.range 32).foldl (fun c k => setReg c (aSESS_VIEW_ENTRY + 4 * k) (wordAt l k)) c

/-- A run of registers written one after the other: each reads its own word, and every other register stands. -/
theorem wordsWritten (base : Nat) (f : Nat → Word) (c : Chip) (n : Nat) :
    let d := (List.range n).foldl (fun c k => setReg c (base + 4 * k) (f k)) c
    quiet d = quiet c ∧ (∀ p, hdr d p = hdr c p) ∧ (∀ k, k < n → reg d (base + 4 * k) = f k) ∧
      (∀ a, (∀ k, k < n → a ≠ base + 4 * k) → reg d a = reg c a) := by
  induction n with
  | zero => exact ⟨rfl, fun _ => rfl, fun k hk => absurd hk (Nat.not_lt_zero k), fun _ _ => rfl⟩
  | succ n ih =>
    rw [List.range_succ, List.foldl_append, List.foldl_cons, List.foldl_nil]
    generalize (List.range n).foldl (fun c k => setReg c (base + 4 * k) (f k)) c = d at ih
    obtain ⟨hq, hh, hw, ho⟩ := ih
    refine ⟨(quiet_setReg ..).trans hq, fun p => (hdr_setKey ..).trans (hh p), fun k hk => ?_, fun a ha => ?_⟩
    · by_cases he : k = n
      · rw [he, reg_setReg_self]
      · rw [reg_setReg_other _ _ (by omega)]
        exact hw k (by omega)
    · rw [reg_setReg_other _ _ (ha n (Nat.lt_succ_self n))]
      exact ho a fun k hk => ha k (Nat.lt_succ_of_lt hk)

/-- What the view shows: its status word and the words of an entry. -/
structure Views (c d : Chip) (st : Word) (l : List Byte) : Prop where
  quiet : Safety.quiet d = Safety.quiet c
  status : reg d aSESS_VIEW_STAT = st
  words : ∀ k, k < 32 → reg d (aSESS_VIEW_ENTRY + 4 * k) = wordAt l k

theorem viewWords_views (c : Chip) (st : Word) (l : List Byte) : Views c (viewWords (setReg c aSESS_VIEW_STAT st) l) st l := by
  obtain ⟨hq, -, hw, ho⟩ := wordsWritten aSESS_VIEW_ENTRY (wordAt l) (setReg c aSESS_VIEW_STAT st) 32
  refine ⟨hq.trans (quiet_setReg ..), (ho _ fun k hk => ?_).trans (reg_setReg_self ..), hw⟩
  simp only [aSESS_VIEW_STAT, aSESS_VIEW_ENTRY]
  omega

/-- The handle checks read the directory and the ranges of the partitions only. -/
theorem handleStatus_congr {c d : Chip} (hs : d.sess = c.sess) (hr : ∀ q, regB d q aSEC_PART_DIR = regB c q aSEC_PART_DIR)
    (p : Option Nat) (h : Word) : handleStatus d p h = handleStatus c p h := by
  unfold handleStatus dirRange entry
  simp only [hs, hr]

theorem touch_cached {c : Chip} {i : Nat} (h : i ∈ c.sess.cached) : touch c i = c := by
  unfold touch
  rw [if_pos h]

/-- The row of VIEW_HANDLE. -/
def rowViewHandle : RegRow := ⟨0x068, 1, .none_, 0, [⟨31, 0, .rw, 0⟩]⟩

/-- A handle as VIEW_HANDLE stores it. -/
def viewStored (c : Chip) (h : Word) : Chip := setKey c (rkey 0 aSESS_VIEW_HANDLE) (storeMask rowViewHandle) h

/-- A write of VIEW_HANDLE, up to its rule. -/
theorem mgmtWrite_viewHandle {c : Chip} {r : Requester} (h : Word) (hr : Reaches c r .sess) :
    ∃ x, x.new = h ∧ x.part = 0 ∧ storeReg (setArmed c r .sess false) x = viewStored (setArmed c r .sess false) h ∧
      mgmtWrite c r aSESS_VIEW_HANDLE h = keepStatus (answer (viewHandleWrite (setArmed c r .sess false) x).2
        (viewHandleWrite (setArmed c r .sess false) x).1 0) r (viewHandleWrite (setArmed c r .sess false) x).1 := by
  obtain ⟨x, hx, hw⟩ := mgmtWriteWith_rule (a := aSESS_VIEW_HANDLE) (row := rowViewHandle) noArgs h hr (by decide)
    rfl rfl (fun hg => absurd hg (by decide))
  have hb : x.bank = 0 := hx.bank
  have h1 : ofPair x.a aSESS_DIR_BASE_LO = false := by rw [hx.addr]; decide
  have hrule : writeSess (setArmed c r .sess false) x = viewHandleWrite (setArmed c r .sess false) x := by
    unfold writeSess
    rw [h1, if_neg Bool.false_ne_true, if_pos hx.addr]
  rw [show pageOf (aSESS_VIEW_HANDLE / 0x4000) = .sess from rfl, pageWrite_sess (by rw [hx.addr]; rfl), hrule] at hw
  refine ⟨x, hx.new, hx.part, ?_, hw⟩
  rw [storeReg_single _ hx.lo, hb, hx.addr, hx.row, hx.new]
  rfl

/-- The view of a handle that passes the checks, with its entry in the cache. -/
theorem viewHandleWrite_passes {c : Chip} {x : RegWr} (hc : (storeReg c x).fig.committed = [])
    (hs : handleStatus (storeReg c x) (some x.part) x.new = 0) (hi : hIdx x.new ∈ (storeReg c x).sess.cached) :
    viewHandleWrite c x = (stOK, viewWords (setReg (storeReg c x) aSESS_VIEW_STAT 1)
      (entryBytes (entry (storeReg c x) (hIdx x.new)) (hIdx x.new) ((opsOf (storeReg c x) (hIdx x.new)).length - 1))) := by
  unfold viewHandleWrite
  rw [settle_idle hc]
  dsimp only
  rw [hs, if_neg (by decide), touch_cached hi]
  rfl

theorem viewHandleWrite_fails {c : Chip} {x : RegWr} (hc : (storeReg c x).fig.committed = [])
    (hs : handleStatus (storeReg c x) (some x.part) x.new ≠ 0) :
    viewHandleWrite c x = (stOK, viewWords (setReg (storeReg c x) aSESS_VIEW_STAT
      (w32 (handleStatus (storeReg c x) (some x.part) x.new * 256))) []) := by
  unfold viewHandleWrite
  rw [settle_idle hc]
  dsimp only
  rw [if_pos hs]
  rfl

theorem wordAt_nil (k : Nat) : wordAt [] k = 0 := by
  rw [wordAt, rdLE, List.drop_nil, List.take_nil]
  rfl

/-- VIEW_HANDLE, for a handle that passes and for one that fails. -/
theorem viewsHandle {s : State} {r : Requester} {h : Word} (hr : Reaches s.toChip r .sess) (hf : FigIdle s.toChip) :
    let i := hIdx h
    let l := entryBytes (entry s.toChip i) i ((opsOf s.toChip i).length - 1)
    (handleStatus s.toChip (some 0) h = 0 → i ∈ s.sess.cached → Accepted (.viewHandle r h) s r s.toChip (fun t =>
      reg t.toChip aSESS_VIEW_STAT = 1 ∧ ∀ k, k < 32 → reg t.toChip (aSESS_VIEW_ENTRY + 4 * k) = wordAt l k)) ∧
    (handleStatus s.toChip (some 0) h ≠ 0 → Accepted (.viewHandle r h) s r s.toChip (fun t =>
      reg t.toChip aSESS_VIEW_STAT = w32 (handleStatus s.toChip (some 0) h * 256) ∧
      ∀ k, k < 32 → reg t.toChip (aSESS_VIEW_ENTRY + 4 * k) = 0)) := by
  have he : exec (.viewHandle r h) s = .next (after s (mgmtWrite s.toChip r aSESS_VIEW_HANDLE h)) := rfl
  obtain ⟨x, hn, hp, hst, hw⟩ := mgmtWrite_viewHandle h hr
  rw [hw] at he
  have hd := desk_setArmed s.toChip r .sess false
  have hreg : ∀ q, regB (viewStored (setArmed s.toChip r .sess false) h) q aSEC_PART_DIR = regB s.toChip q aSEC_PART_DIR :=
    fun q => (regKey_setKey_other _ _ _ _ _ (rkey_apart (by decide) (by decide) (by decide))).trans (regKey_setArmed ..)
  have hq : desk (viewStored (setArmed s.toChip r .sess false) h) = desk s.toChip :=
    (desk_of_quiet (quiet_setKey (setArmed s.toChip r .sess false) (rkey 0 aSESS_VIEW_HANDLE) (storeMask rowViewHandle) h)).trans hd
  generalize setArmed s.toChip r .sess false = c at he hst hreg hq
  generalize viewStored c h = d at hst hreg hq
  have hsess : d.sess = s.sess := congrArg (·.sess) hq
  have hfig : d.fig.committed = [] := (congrArg (·.fig.committed) hq).trans hf.1.1
  have hhs : handleStatus d (some 0) h = handleStatus s.toChip (some 0) h := handleStatus_congr hsess hreg _ _
  have hent : entry d (hIdx h) = entry s.toChip (hIdx h) := congrArg (fun u : SessUnit => tget freeEntry u.entries (hIdx h)) hsess
  have hops : opsOf d (hIdx h) = opsOf s.toChip (hIdx h) := congrArg (fun u : SessUnit => tget [] u.ops (hIdx h)) hsess
  have hshown : ∀ st l, viewHandleWrite c x = (stOK, viewWords (setReg d aSESS_VIEW_STAT st) l) →
      Accepted (.viewHandle r h) s r s.toChip (fun t => reg t.toChip aSESS_VIEW_STAT = st ∧
        ∀ k, k < 32 → reg t.toChip (aSESS_VIEW_ENTRY + 4 * k) = wordAt l k) := fun st l hv => by
    obtain ⟨v1, v2, v3⟩ := viewWords_views d st l
    refine answered_after he hv ((desk_of_quiet v1).trans hq) ⟨?_, fun k hk => ?_⟩
    · rw [reg_answered, v2]
    · rw [reg_answered, v3 k hk]
  refine ⟨fun h0 hi => ?_, fun h0 => ?_⟩
  · have hv := viewHandleWrite_passes (c := c) (x := x) (by rw [hst]; exact hfig) (by rw [hst, hn, hp, hhs]; exact h0)
      (by rw [hst, hn, hsess]; exact hi)
    rw [hst, hn, hent, hops] at hv
    exact hshown _ _ hv
  · have hv := viewHandleWrite_fails (c := c) (x := x) (by rw [hst]; exact hfig) (by rw [hst, hn, hp, hhs]; exact h0)
    rw [hst, hn, hp, hhs] at hv
    obtain ⟨t, h1, h2, h3, h4, h5, h6, h7⟩ := hshown _ _ hv
    exact ⟨t, h1, h2, h3, h4, h5, h6, fun k hk => by rw [h7 k hk, wordAt_nil]⟩

/-! ### The damage sweep (R109) -/

/-- The row of SWEEP. -/
def rowSweep : RegRow := ⟨0x084, 1, .none_, 0, [⟨31, 31, .rw, 0⟩, ⟨22, 0, .ro, 0⟩]⟩

/-- A chip with TIER's own state as given. -/
def withTier (c : Chip) (u : TierUnit) : Chip := { c with tier := u }

theorem desk_withTier (c : Chip) (u : TierUnit) : desk (withTier c u) = withTier (desk c) u := rfl

theorem regKey_withTier (c : Chip) (u : TierUnit) (k : Nat) : regKey (withTier c u) k = regKey c k := rfl

/-- A write of START to SWEEP. -/
theorem mgmtWrite_sweep {c : Chip} {r : Requester} (h : Reaches c r .tier) :
    mgmtWrite c r aTIER_SWEEP 0x80000000 =
      let y := if isOn c .tier = false then (rejBusy, setArmed c r .tier false)
        else (stOK, sweepStart (setArmed c r .tier false))
      keepStatus (answer y.2 y.1 0) r y.1 := by
  obtain ⟨x, hx, hw⟩ := mgmtWriteWith_rule (a := aTIER_SWEEP) (row := rowSweep) noArgs 0x80000000 h (by decide)
    rfl rfl (fun hg => absurd hg (by decide))
  have h1 : ofPair x.a aTIER_LEDGER_BASE_LO = false := by rw [hx.addr]; decide
  have h2 : x.a ≠ aTIER_LEDGER_SIZE := by rw [hx.addr]; decide
  have h3 : x.a ≠ aTIER_HEAP := by rw [hx.addr]; decide
  have hon : isOn (setArmed c r .tier false) .tier = isOn c .tier := by rw [isOn, bstate_setArmed, isOn]
  have hrule : writeTier (setArmed c r .tier false) x = if isOn c .tier = false then (rejBusy, setArmed c r .tier false)
      else (stOK, sweepStart (setArmed c r .tier false)) := by
    have hb : bit (0x80000000 : Word) 31 = true := by decide
    unfold writeTier
    dsimp only
    rw [h1, if_neg (by simp [h2]), if_neg h3, if_pos hx.addr, hx.ones, hb, hon, if_neg (by decide)]
  rw [show pageOf (aTIER_SWEEP / 0x4000) = .tier from rfl, pageWrite_tier (by rw [hx.addr]; rfl), hrule] at hw
  exact hw

/-- DAMAGE_SWEEP_START. -/
theorem sweepStarts {s : State} {r : Requester} (h : Reaches s.toChip r .tier) :
    (isOn s.toChip .tier = true → Accepted (.damageSweepStart r) s r
      { s.toChip with tier := { s.tier with sweeping := true } } (fun t => ∀ k, regKey t.toChip k = regKey s.toChip k)) ∧
    (isOn s.toChip .tier = false → Answered (.damageSweepStart r) s r 0x20 s.toChip
      (fun t => ∀ k, regKey t.toChip k = regKey s.toChip k)) := by
  have he : exec (.damageSweepStart r) s = .next (after s (mgmtWrite s.toChip r aTIER_SWEEP 0x80000000)) := rfl
  rw [mgmtWrite_sweep h] at he
  have hd := desk_setArmed s.toChip r .tier false
  have hr := fun k => regKey_setArmed s.toChip r .tier false k
  generalize setArmed s.toChip r .tier false = c at he hd hr
  refine ⟨fun hon => ?_, fun hon => ?_⟩
  · have ht : c.tier = s.tier := congrArg (·.tier) hd
    refine answered_after (c := withTier c { c.tier with sweeping := true }) he
      (if_neg (by rw [hon]; exact Bool.true_eq_false_eq_False)) ?_ fun k => ?_
    · rw [desk_withTier, hd, ht]
      rfl
    · exact (regKey_drive ..).trans ((regKey_withTier ..).trans (hr k))
  · exact answered_after he (if_pos hon) hd fun k => (regKey_drive ..).trans (hr k)

/-- The chip as its sweep ends, before what it found. -/
def sweepOver (c : Chip) : Chip := withTier c { c.tier with sweeping := false }

/-- FOUND and SWEEP_DONE. -/
def sweepShown (c : Chip) (n : Nat) : Chip := raise (setFld c aTIER_SWEEP 22 0 n) .tier 20

theorem sweepShown_shows (c : Chip) {n : Nat} (hn : n < 2 ^ 23) :
    quiet (sweepShown c n) = quiet c ∧ fld (reg (sweepShown c n) aTIER_SWEEP) 22 0 = n ∧
    bit (hdr (sweepShown c n) .tier).int 20 = true ∧
    ∀ p b, bit (hdr c p).int b = true → bit (hdr (sweepShown c n) p).int b = true := by
  have hk := keepsRegs_raise (setFld c aTIER_SWEEP 22 0 n) .tier 20
  refine ⟨?_, ?_, raise_int _ _ _ (by decide), fun p b h => (minor_raise _ _ _).ints p b ?_⟩
  · rw [sweepShown, quiet_raise, quiet_setFld]
  · refine (congrArg (fun w => fld w 22 0) (hk.reg (by decide))).trans ?_
    rw [fld_setFld_self _ _ _ (by decide) (by decide)]
    exact Nat.mod_eq_of_lt hn
  · rw [hdr_setFld]
    exact h

theorem sweepEnd_eq {c : Chip} (h : c.tier.sweeping = true) :
    sweepEnd c = sweepShown ((sweepFound c).foldl hurtSession (sweepOver c)) (min (sweepFound c).length (2 ^ 23 - 1)) := by
  unfold sweepEnd
  rw [if_neg (by rw [h]; exact Bool.true_eq_false_eq_False)]
  rfl

/-- The value of a listed key of a rising table. -/
theorem tget_of_mem {α : Type} {d : α} {t : Tbl α} {e : Nat × α} (hk : keysRise t = true) (h : e ∈ t) : tget d t e.1 = e.2 := by
  induction t with
  | nil => cases h
  | cons x r ih =>
    obtain ⟨h1, h2⟩ := (keysRise_cons x r).1 hk
    rcases List.mem_cons.1 h with h | h
    · rw [h, tget, tfind, if_pos rfl]
      rfl
    · have hne : x.1 ≠ e.1 := Nat.ne_of_lt (h1 e h)
      rw [tget, tfind, if_neg hne]
      exact ih h2 h

/-- A session that the sweep found stands in a state that leads to DAMAGED. -/
theorem found_state {c : Chip} {i : Nat} (hk : keysRise c.sess.entries = true) (hf : i ∈ sweepFound c) :
    (entry c i).state = .ready ∨ (entry c i).state = .running ∨ (entry c i).state = .sitout ∨ (entry c i).state = .cold := by
  rw [sweepFound, List.mem_map] at hf
  obtain ⟨e, he, rfl⟩ := hf
  obtain ⟨hm, hs⟩ := List.mem_filter.1 he
  have hg : entry c e.1 = e.2 := tget_of_mem hk hm
  rw [hg]
  exact of_decide_eq_true (Bool.and_eq_true_iff.1 hs).1

/-- The figure that makes a session DAMAGED where no operation of it is in progress. -/
theorem damageSession_opens {c : Chip} {i : Nat} (ho : c.sess.ops = [])
    (hs : (entry c i).state = .ready ∨ (entry c i).state = .running ∨ (entry c i).state = .sitout ∨ (entry c i).state = .cold) :
    ∃ f, f.subjects = [.session i] ∧ f.acts = [.dirSet false .state (stateCode .damaged)] ∧ f.staged = 0 ∧
      f.after = [.intEvent .sess 16] ∧ damageSession c i = openFig c f := by
  have hne : (entry c i).state ≠ .damaged := fun h => by
    rw [h] at hs
    exact absurd hs (by decide)
  have hr : damageRecs c i = [] := by
    rw [damageRecs, opsOf, ho]
    rfl
  refine ⟨sessFig c i { entry c i with state := .damaged } [] (damageRecs c i ++ [.intEvent .sess 16]), rfl, ?_, rfl, ?_, ?_⟩
  · exact dirDiff_state _ hne
  · rw [hr]
    rfl
  · unfold damageSession
    exact if_pos hs

theorem figUnits_small {f : Figure} (h : f.acts.length ≤ 64) : figUnits f ≤ 32768 := by
  have := List.length_filter_le recorded f.acts
  unfold figUnits countedActs
  omega

/-- A found session becomes DAMAGED by one figure. -/
theorem hurtSession_commits {c : Chip} {i : Nat} (hi : FigIdle c) (hu : isUp c .fig = true) (hp : c.flt.chipPending = false)
    (hs : (entry c i).state = .ready ∨ (entry c i).state = .running ∨ (entry c i).state = .sitout ∨ (entry c i).state = .cold) :
    ∃ (d : Chip) (k : Committed), hurtSession c i = d ∧ quiet d = quiet { c with fig := d.fig } ∧ d.fig.committed = [k] ∧
      k.fig.subjects = [.session i] ∧ k.fig.acts = [.dirSet false .state (stateCode .damaged)] ∧
      bit (hdr d .sess).int 16 = true := by
  obtain ⟨⟨hc, hw, ho, hr, -⟩, -, -⟩ := id hi
  obtain ⟨f, hsub, hact, hst, haft, he⟩ := damageSession_opens ho hs
  have hcan : canOpen c f = true := canOpen_idle hi hu hp (figUnits_small (by rw [hact]; decide)) (by rw [hst]; exact Nat.zero_le _)
  obtain ⟨d, hm, hcf⟩ := commitFig_event haft
  have hh : hurtSession c i = damageSession c i := by
    unfold hurtSession revivalOf
    rw [hr]
    rfl
  obtain ⟨k, -, hkf, -, hk⟩ := hm.fig.committed
  have hq := quiet_raise d .sess 16
  have hfig : (raise d .sess 16).fig = d.fig := congrArg (·.fig) hq
  refine ⟨raise d .sess 16, k, ?_, ?_, ?_, by rw [hkf]; exact hsub, by rw [hkf]; exact hact, raise_int _ _ _ (by decide)⟩
  · rw [hh, he, openFig_commits hcan hw, hcf]
  · rw [hq, hm.quiet, hfig]
  · rw [hfig, hk, hc]
    rfl

/-- DAMAGE_SWEEP_END that found nothing. -/
theorem sweepEnds_none {s : State} (ha : Awake s.toChip) (hf : FigIdle s.toChip) (hw : s.tier.sweeping = true)
    (hn : sweepFound s.toChip = []) :
    Quietly .damageSweepEnd s { s.toChip with tier := { s.tier with sweeping := false } }
      (fun t => fld (reg t.toChip aTIER_SWEEP) 22 0 = 0 ∧ Event t .tier 20) := by
  have he : exec .damageSweepEnd s = act s (fun c => whenAwake c (fun c => kick (settle (sweepEnd (settle c))))) := rfl
  rw [act_whenAwake ha, settle_idle hf.1.1, sweepEnd_eq hw, hn, List.foldl_nil] at he
  obtain ⟨hq, hr, hev, -⟩ := sweepShown_shows (sweepOver s.toChip) (n := 0) (by decide)
  rw [show min ([] : List Nat).length (2 ^ 23 - 1) = 0 from rfl] at he
  generalize sweepShown (sweepOver s.toChip) 0 = d at he hq hr hev
  have hk : kick (settle d) = d := kick_settle_idle (c := sweepOver s.toChip) hf.1 (congrArg (·.fig) hq)
    (congrArg (·.sess) hq) (congrArg (·.tier) hq)
  rw [hk] at he
  exact ⟨_, he, after_pending _ _, (quiet_after _ _).trans hq, hr, hev⟩

/-- DAMAGE_SWEEP_END that found one session. -/
theorem sweepEnds_one {s : State} {i : Nat} (ha : Awake s.toChip) (hf : FigIdle s.toChip) (hu : isUp s.toChip .fig = true)
    (hp : s.flt.chipPending = false) (hw : s.tier.sweeping = true) (hk : keysRise s.sess.entries = true)
    (hn : sweepFound s.toChip = [i]) :
    Completes .damageSweepEnd s (fun t => t.tier.sweeping = false ∧ fld (reg t.toChip aTIER_SWEEP) 22 0 = 1 ∧
      Event t .tier 20 ∧ (entry t.toChip i).state = .damaged ∧ Event t .sess 16) := by
  have he : exec .damageSweepEnd s = act s (fun c => whenAwake c (fun c => kick (settle (sweepEnd (settle c))))) := rfl
  rw [act_whenAwake ha, settle_idle hf.1.1, sweepEnd_eq hw, hn, List.foldl_cons, List.foldl_nil,
    show min [i].length (2 ^ 23 - 1) = 1 from rfl] at he
  obtain ⟨d, k, hd, hqd, hc, hsub, hact, hev⟩ := hurtSession_commits (c := sweepOver s.toChip) (i := i) hf hu hp
    (found_state (c := s.toChip) hk (by rw [hn]; exact List.mem_singleton_self i))
  rw [hd] at he
  obtain ⟨hq, hr, h20, hints⟩ := sweepShown_shows d (n := 1) (by decide)
  generalize sweepShown d 1 = e at he hq hr h20 hints
  have hqe : quiet e = quiet { sweepOver s.toChip with fig := d.fig } := hq.trans hqd
  obtain ⟨hst, es, g, n, m, hgc, -, hset⟩ := settle_state (c := e) (k := k) (i := i) (st := .damaged)
    ((congrArg (·.fig.committed) hqe).trans hc) hsub hact (by decide) (by decide) (.inl (by decide))
  have hops : e.sess.ops = [] := (congrArg (·.sess.ops) hqe).trans hf.1.2.2.1
  have htier : e.tier = (sweepOver s.toChip).tier := congrArg (·.tier) hqe
  have hkick : kick (settle e) = settle e := by
    rw [hset]
    exact kick_idle hops (by rw [htier]; exact hf.1.2.2.2.1) (by rw [htier]; exact hf.1.2.2.2.2)
  rw [hkick] at he
  have hreg : reg (settle e) aTIER_SWEEP = reg e aTIER_SWEEP := by rw [hset]; rfl
  have hhdr : ∀ p, hdr (settle e) p = hdr e p := fun p => by rw [hset]; rfl
  refine ⟨_, he, after_pending _ _, ?_, ?_, ?_, hst, ?_⟩
  · exact (congrArg (·.tier.sweeping) hset).trans (congrArg (·.sweeping) htier)
  · rw [reg_after, hreg, hr]
  · rw [Event, hdr_after, hhdr, h20]
  · rw [Event, hdr_after, hhdr]
    exact hints _ _ hev

/-! ### DIR_COPY_DONE (R65, R66) -/

/-- A block that changes its state raises its STATE event. -/
theorem setState_event {c : Chip} {p : Page} {st : BState} (h : (hdr c p).state ≠ st) :
    bit (hdr (setState c p st) p).int 0 = true := by
  unfold setState
  dsimp only
  rw [if_neg h]
  exact raise_int _ _ _ (by decide)

/-- A chip with SESS's own state as given. -/
def withSess (c : Chip) (u : SessUnit) : Chip := { c with sess := u }

/-- SESS once a copy of its directory is complete. -/
def copied (u : SessUnit) : SessUnit := { u with copying := false, moveFrom := none }

/-- SESS as it goes ON. -/
def sessBegun (u : SessUnit) (keep : Bool) : SessUnit :=
  if u.inited then u
  else if keep then { u with inited := true }
  else { u with inited := true, entries := [], bodies := [], ops := [], fresh := [], freed := [], cached := [] }

theorem sessOn_eq (c : Chip) (h : (setState c .sess .on).sess = c.sess) :
    sessOn c = withSess (setState c .sess .on) (sessBegun c.sess (bit (reg (setState c .sess .on) aSESS_DIR_CTRL) 0)) := by
  unfold sessOn sessBegun
  rw [← h]
  dsimp only
  split
  · rfl
  · split <;> rfl

theorem sessBegun_idle {u : SessUnit} (k : Bool) (h : u.ops = []) : (sessBegun u k).ops = [] := by
  unfold sessBegun
  split
  · exact h
  · split
    · exact h
    · rfl

theorem dirCopyDone_stays {c : Chip} (h : c.sess.copying = true)
    (hn : ¬ ((hdr c .sess).enable = true ∧ (hdr c .sess).drain = false ∧ (hdr c .sess).state = .disabled)) :
    dirCopyDone c = withSess c (copied c.sess) := by
  unfold dirCopyDone
  rw [if_neg (by rw [h]; exact Bool.true_eq_false_eq_False)]
  refine if_neg fun x => hn ⟨x.1, Bool.not_eq_true' _ ▸ x.2.1, x.2.2⟩

theorem dirCopyDone_goes {c : Chip} (h : c.sess.copying = true)
    (hn : (hdr c .sess).enable = true ∧ (hdr c .sess).drain = false ∧ (hdr c .sess).state = .disabled) :
    dirCopyDone c = sessOn (withSess c (copied c.sess)) := by
  unfold dirCopyDone
  rw [if_neg (by rw [h]; exact Bool.true_eq_false_eq_False)]
  refine if_pos ⟨hn.1, ?_, hn.2.2⟩
  show (!(hdr c .sess).drain) = true
  rw [hn.2.1]
  rfl

/-- DIR_COPY_DONE that takes SESS to ON. -/
theorem copyDone_goes {s : State} (ha : Awake s.toChip) (hf : FigIdle s.toChip) (hc : s.sess.copying = true)
    (hn : (hdr s.toChip .sess).enable = true ∧ (hdr s.toChip .sess).drain = false ∧
      (hdr s.toChip .sess).state = .disabled) :
    Quietly .dirCopyDone s (withSess s.toChip (sessBegun (copied s.sess) (bit (reg s.toChip aSESS_DIR_CTRL) 0)))
      (fun t => bstate t.toChip .sess = .on ∧ Event t .sess 0) := by
  have he : exec .dirCopyDone s = act s (fun c => whenAwake c (fun c => kick (dirCopyDone c))) := rfl
  have hq := quiet_setState (withSess s.toChip (copied s.sess)) .sess .on
  have hsess : (setState (withSess s.toChip (copied s.sess)) .sess .on).sess = copied s.sess := congrArg (·.sess) hq
  have htier : (setState (withSess s.toChip (copied s.sess)) .sess .on).tier = s.tier := congrArg (·.tier) hq
  have hreg : reg (setState (withSess s.toChip (copied s.sess)) .sess .on) aSESS_DIR_CTRL = reg s.toChip aSESS_DIR_CTRL :=
    (keepsRegs_setState _ _ _).reg (by decide)
  have hst : bstate (setState (withSess s.toChip (copied s.sess)) .sess .on) .sess = .on := by
    rw [bstate_setState, if_pos rfl]
  have hev := setState_event (c := withSess s.toChip (copied s.sess)) (p := .sess) (st := .on)
    (by rw [show (hdr (withSess s.toChip (copied s.sess)) .sess).state = _ from hn.2.2]; decide)
  rw [act_whenAwake ha, dirCopyDone_goes hc hn, sessOn_eq _ hsess, hreg] at he
  generalize setState (withSess s.toChip (copied s.sess)) .sess .on = d at he hq hsess htier hst hev
  generalize bit (reg s.toChip aSESS_DIR_CTRL) 0 = k at he ⊢
  have hk : kick (withSess d (sessBegun (copied s.sess) k)) = withSess d (sessBegun (copied s.sess) k) :=
    kick_idle (sessBegun_idle k hf.1.2.2.1) ((congrArg (·.revivals) htier).trans hf.1.2.2.2.1)
      ((congrArg (·.pressing) htier).trans hf.1.2.2.2.2)
  have hu : (withSess s.toChip (copied s.sess)).sess = copied s.sess := rfl
  rw [hu, hk] at he
  exact ⟨_, he, after_pending _ _, (quiet_after _ _).trans (congrArg (fun x => withSess x (sessBegun (copied s.sess) k)) hq),
    hst, hev⟩

/-- DIR_COPY_DONE, in its cases. -/
theorem copyDone {s : State} (ha : Awake s.toChip) (hf : FigIdle s.toChip) :
    let d := s.sess
    let h := hdr s.toChip .sess
    let goes := h.enable = true ∧ h.drain = false ∧ h.state = .disabled
    let keep := bit (reg s.toChip aSESS_DIR_CTRL) 0
    let done := fun (u : SessUnit) => Quietly .dirCopyDone s { s.toChip with sess := u } (fun t =>
      bstate t.toChip .sess = .on ∧ Event t .sess 0)
    (d.copying = false → exec .dirCopyDone s = .next (after s s.toChip)) ∧
    (d.copying = true →
      (¬ goes → exec .dirCopyDone s =
        .next (after s { s.toChip with sess := { d with copying := false, moveFrom := none } })) ∧
      (goes → d.inited = true → done { d with copying := false, moveFrom := none }) ∧
      (goes → d.inited = false → keep = true → done { d with copying := false, moveFrom := none, inited := true }) ∧
      (goes → d.inited = false → keep = false → done { d with
        copying := false, moveFrom := none, inited := true, entries := [], bodies := [], ops := [], fresh := []
        freed := [], cached := [] })) := by
  have he : exec .dirCopyDone s = act s (fun c => whenAwake c (fun c => kick (dirCopyDone c))) := rfl
  rw [act_whenAwake ha] at he
  obtain ⟨⟨-, -, ho, hr, hp⟩, -, -⟩ := id hf
  refine ⟨fun hc => ?_, fun hc => ⟨fun hn => ?_, fun hg hi => ?_, fun hg hi hk => ?_, fun hg hi hk => ?_⟩⟩
  · rw [he, dirCopyDone, if_pos hc, kick_idle ho hr hp]
  · rw [he, dirCopyDone_stays hc hn, kick_idle (c := withSess s.toChip (copied s.sess)) ho hr hp]
    rfl
  · have h := copyDone_goes ha hf hc hg
    rw [sessBegun, if_pos (show (copied s.sess).inited = true from hi)] at h
    exact h
  · have h := copyDone_goes ha hf hc hg
    rw [sessBegun, if_neg (by rw [show (copied s.sess).inited = s.sess.inited from rfl, hi]; exact Bool.false_ne_true),
      if_pos hk] at h
    exact h
  · have h := copyDone_goes ha hf hc hg
    rw [sessBegun, if_neg (by rw [show (copied s.sess).inited = s.sess.inited from rfl, hi]; exact Bool.false_ne_true),
      if_neg (by rw [hk]; exact Bool.false_ne_true)] at h
    exact h

/-- Settles O58: the view of an entry, the damage sweep with none and with one session found, and the end of a copy of the
directory. -/
theorem sessDirectory : Obligations.SessDirectory :=
  ⟨fun _ _ _ hr hf => viewsHandle hr hf,
    fun _ _ => ⟨fun h => (sweepStarts h).1, fun h => (sweepStarts h).2, sweepEnds_none, fun _ => sweepEnds_one⟩,
    fun _ ha hf => copyDone ha hf⟩

end Sys2Proof.Machine
end

section
/-! A placement that waits on a shared core (R232). The statements about the end of a placement and of a core's test ask
that no partition runs a step, but not that no placement waits on the core itself. In the states of this part one does: the
core takes it as soon as it is FREE, and ends the command BUSY. -/

namespace Sys2Proof.Machine

open Sys2Proof.Safety

/-- A chip with core 0 as given, on which a placement of partition 0's decode engine waits. -/
def awaited (k : Core) : Chip := setCore litChip 0 { k with queued := [(0, [], 0)] }

/-- The state of core 0 after a command. -/
def coreAfter (i : Instr) (c : Chip) : Option CoreState :=
  match exec i (alone c) with
  | .next t => some (coreAt t.toChip 0).state
  | _ => none

theorem coreAfter_eq {i : Instr} {c : Chip} {t : State} {x : CoreState} (h : coreAfter i c = some x)
    (ht : exec i (alone c) = .next t) : (coreAt t.toChip 0).state = x := by
  simpa only [coreAfter, ht, Option.some.injEq] using h

theorem noSteps_awaited (k : Core) : ∀ p, (schedPart (awaited k) p).step = none := fun _ => rfl

/-- Refutes O29: core 0 has ended its placement and takes the one that waits, so that it is BUSY, not FREE. -/
theorem not_placementsEnd : ¬ Obligations.PlacementsEnd := by
  intro h
  obtain ⟨hfree, -⟩ := h (alone (awaited { coreReset with state := .busy, halted := true })) 0 0 (by decide +kernel)
    (by decide +kernel) rfl (noSteps_awaited _) rfl (by decide +kernel) (by decide +kernel)
  obtain ⟨t, ht, -, ⟨v, -, hcore⟩, -⟩ := hfree (by decide +kernel) (by decide +kernel)
  have hbusy := coreAfter_eq (x := .busy) (by decide +kernel) ht
  have hst : CoreState.busy = CoreState.free := hbusy.symm.trans (congrArg Core.state hcore)
  exact absurd hst (by decide)

/-- Refutes O30: core 0 passes its test and takes the placement that waits, so that it is BUSY, not FREE. -/
theorem not_coreTable : ¬ Obligations.CoreTable := by
  intro h
  obtain ⟨-, -, -, -, -, htest, -⟩ := h (alone (awaited { coreReset with state := .testing })) 0 (by decide +kernel)
    (by decide +kernel) rfl (by decide +kernel)
  obtain ⟨⟨t, ht, -, -, -, hcore⟩, -⟩ := htest (by decide +kernel) (noSteps_awaited _)
  have hbusy := coreAfter_eq (x := .busy) (by decide +kernel) ht
  have hst : CoreState.busy = CoreState.free := hbusy.symm.trans (congrArg Core.state hcore)
  exact absurd hst (by decide)

end Sys2Proof.Machine
end

section
/-! Supplies and the power-up sequence (O54). -/

namespace Sys2Proof.Machine

open Sys2Proof.Safety

/-! ### What a reset that keeps the minuet domain leaves of its registers (R491) -/

/-- A key of a register of the minuet domain. -/
def minuetKey (k : Nat) : Bool := minuetPage (pageOf (keyPage k))

theorem tget_filter {α : Type} (d : α) (p : Nat → Bool) (t : Tbl α) {k : Nat} (h : p k = true) :
    tget d (t.filter (fun e => p e.1)) k = tget d t k := by
  rw [tget, tfind_filter, if_pos h, tget]

/-- The management window that a reset keeps with the minuet domain. -/
structure WindowKept (c d : Chip) : Prop where
  regs : ∀ k, minuetKey k = true → k ≠ rkey 0 aPWR_TRIP → regKey d k = regKey c k
  hdrs : ∀ p, minuetPage p = true → hdr d p = hdr c p

/-- A chip after a reset that keeps the minuet domain, before the fields that are written again. -/
def minuetKept (c : Chip) (cause : Nat) (keep : Nat → Bool) : Chip :=
  { restarted c true cause with mgmt := { Chip.reset.mgmt with
      regs := c.mgmt.regs.filter (fun e => keep e.1)
      copy1 := c.mgmt.copy1.filter (fun e => keep e.1)
      copy2 := c.mgmt.copy2.filter (fun e => keep e.1)
      blocks := c.mgmt.blocks.filter (fun b => minuetPage (pageOf b.1))
      sideband := c.mgmt.sideband
      acc := c.mgmt.acc } }

theorem minuetKept_window (c : Chip) (cause : Nat) {keep : Nat → Bool} (h : ∀ k, minuetKey k = true → keep k = true) :
    WindowKept c (minuetKept c cause keep) := by
  refine ⟨fun k hk _ => ?_, fun p hp => ?_⟩
  · have hkeep := h k hk
    simp only [regKey, minuetKept, restarted, tget_filter _ keep _ hkeep]
  · refine tget_filter _ (fun n => minuetPage (pageOf n)) c.mgmt.blocks ?_
    show minuetPage (pageOf (pageIdx p)) = true
    rw [show pageOf (pageIdx p) = p by cases p <;> rfl]
    exact hp

/-- The three fields that a reset writes again. -/
def rewritten (c : Chip) (a b d : Nat) : Chip :=
  setFld (setFld (setFld c aPEER_LASER 15 8 a) aPWR_TRIP 31 16 b) aFLASH_STATUS 3 3 d

theorem resetChip_minuet (c : Chip) (cause : Nat) :
    resetChip c true cause = rewritten (minuetKept c cause fun k =>
        decide (k % bankStride ∈ factoryRegs) || (true && minuetKey k))
      (fld (reg c aPEER_LASER) 15 8) (fld (reg c aPWR_TRIP) 31 16) (fld (reg c aFLASH_STATUS) 3 3) := by
  unfold resetChip
  rfl

theorem quiet_rewritten (c : Chip) (a b d : Nat) : quiet (rewritten c a b d) = quiet c := by
  rw [rewritten, quiet_setFld, quiet_setFld, quiet_setFld]

theorem flt_rewritten (c : Chip) (a b d : Nat) : (rewritten c a b d).flt = c.flt := by
  rw [rewritten, flt_setFld, flt_setFld, flt_setFld]

theorem xpt_setFld (c : Chip) (a hi lo v : Nat) : (setFld c a hi lo v).xpt = c.xpt := setKey_xpt ..

theorem rewritten_window {c d : Chip} (x y z : Nat) (h : WindowKept c d) : WindowKept c (rewritten d x y z) := by
  refine ⟨fun k hk ht => ?_, fun p hp => ?_⟩
  · have hne : ∀ a, minuetKey (rkey 0 a) = false → k ≠ rkey 0 a := fun a ha e => by rw [e, ha] at hk; cases hk
    rw [rewritten]
    refine (regKey_setKey_other _ _ _ _ _ (hne _ (by decide))).trans ((regKey_setKey_other _ _ _ _ _ ht).trans
      ((regKey_setKey_other _ _ _ _ _ (hne _ (by decide))).trans (h.regs k hk ht)))
  · rw [rewritten, hdr_setFld, hdr_setFld, hdr_setFld]
    exact h.hdrs p hp

/-- What a loss of the main supply leaves. -/
structure MainLost (c d : Chip) : Prop where
  window : WindowKept c d
  quiet : ∃ m, Safety.quiet d = Safety.quiet { restarted c true 2 with mgmt := m }
  flt : d.flt = { c.flt with faulted := false, modulePending := false, chipPending := false }
  xpt : d.xpt = Chip.reset.xpt

theorem mainLoss_lost (c : Chip) : MainLost c (mainLoss c) := by
  rw [mainLoss, resetChip_minuet]
  have hw := minuetKept_window c 2 (keep := fun k => decide (k % bankStride ∈ factoryRegs) || (true && minuetKey k))
    (fun k hk => by rw [hk, Bool.and_true, Bool.or_true])
  have hq : quiet (minuetKept c 2 fun k => decide (k % bankStride ∈ factoryRegs) || (true && minuetKey k)) =
      quiet { restarted c true 2 with mgmt := (minuetKept c 2 fun k =>
        decide (k % bankStride ∈ factoryRegs) || (true && minuetKey k)).mgmt } := rfl
  have hf : (minuetKept c 2 fun k => decide (k % bankStride ∈ factoryRegs) || (true && minuetKey k)).flt =
      { c.flt with faulted := false, modulePending := false, chipPending := false } := rfl
  have hx : (minuetKept c 2 fun k => decide (k % bankStride ∈ factoryRegs) || (true && minuetKey k)).xpt =
      Chip.reset.xpt := rfl
  generalize minuetKept c 2 (fun k => decide (k % bankStride ∈ factoryRegs) || (true && minuetKey k)) = d at hw hq hf hx
  refine ⟨rewritten_window _ _ _ hw, ⟨_, (quiet_rewritten ..).trans hq⟩, (flt_rewritten ..).trans hf, ?_⟩
  rw [rewritten, xpt_setFld, xpt_setFld, xpt_setFld, hx]

/-- The reset's part of the statements, where the chip before it has the state's own flash and NOR. -/
theorem MainLost.restarts {s : State} {c d : Chip} (h : MainLost c d) (hf : c.flash = s.flash)
    (hn : c.chip.nor = s.chip.nor) (hu : c.chip.updating = s.chip.updating) : Restarted s (after s d) 2 := by
  obtain ⟨m, hq⟩ := h.quiet
  have hc : d.chip = (restarted c true 2).chip := congrArg (·.chip) hq
  refine ⟨congrArg (·.fast) hc, congrArg (·.bootState) hc, congrArg (·.bootDone) hc, congrArg (·.resetCause) hc,
    congrArg (·.mem) hq, congrArg (·.sess) hq, congrArg (·.fig) hq, h.xpt, congrArg (·.grid) hq, ?_, fun hup => ?_⟩
  · have hfl : d.flash = flashKept c.flash := congrArg (·.flash) hq
    show d.flash.objects = _
    rw [hfl, hf]
    rfl
  · refine (congrArg (·.nor) hc).trans ?_
    show norKept c = _
    rw [norKept_idle (hu.trans hup), hn]

/-! ### The record of a power loss (R485) -/

theorem bbRecord_lost (c : Chip) (mark : Word) : bbPlain c 4 mark =
    bbProgram (takeFine (takeTick c).2).2 (bbBytes (takeFine (takeTick c).2).2 4 0 0xFF 4 0 0 mark (takeTick c).1
      (takeFine (takeTick c).2).1) := by
  have hk := (bbBytes_mark (takeFine (takeTick c).2).2 4 0 0xFF 4 0 0 mark (takeTick c).1 (takeFine (takeTick c).2).1).1
  have he : bbPlain c 4 mark = bbAppend (takeFine (takeTick c).2).2 (bbBytes (takeFine (takeTick c).2).2 4 0 0xFF 4 0 0 mark
      (takeTick c).1 (takeFine (takeTick c).2).1) := rfl
  rw [he, bbAppend, if_pos hk]

/-- A finished record keeps its KIND. -/
theorem bbKind_finished {r : List Byte} (h : 8 ≤ r.length) (seq : Nat) : bbKind (finished r seq) = bbKind r := by
  have h3 : 3 < (r.take 4).length := by rw [List.length_take]; omega
  unfold bbKind finished withCrc
  rw [List.append_assoc, List.append_assoc, List.getD_append _ _ _ _ h3]
  simp [List.getD_eq_getElem?_getD]

theorem length_bbBytes (c : Chip) (kind cls level page : Nat) (info : Word) (addr : DWord) (mark : Word) (m f : Nat) :
    (bbBytes c kind cls level page info addr mark m f).length = 252 := by
  rw [bbBytes_eq]
  simp only [List.length_append, length_bbMiddle, length_leBytes, List.length_replicate, List.length_cons, List.length_nil]

/-- What the record of KIND 4 leaves. -/
structure LossRecorded (c d : Chip) : Prop where
  quiet : Safety.quiet d = Safety.quiet c
  boots : d.flt.boots = c.flt.boots
  head : bbHead d = (bbHead c + 1) % 32768
  slot : ∃ x, tfind d.flt.slots (bbHead c) = some x ∧ bbKind x = 4
  others : ∀ j, j ≠ bbHead c → tfind d.flt.slots j = tfind c.flt.slots j
  regs : KeepsBox c d
  ints : ∀ p b, bit (hdr c p).int b = true → bit (hdr d p).int b = true

theorem lossRecorded (c : Chip) : LossRecorded c (bbPlain c 4 0) := by
  have hm := minor_bbPlain c 4 0
  have hk : KeepsBox c (bbPlain c 4 0) := keepsBox_bbRecord c 4 0 0xFF 4 0 0 0
  have hlen := length_bbBytes (takeFine (takeTick c).2).2 4 0 0xFF 4 0 0 0 (takeTick c).1 (takeFine (takeTick c).2).1
  have hkind := (bbBytes_mark (takeFine (takeTick c).2).2 4 0 0xFF 4 0 0 0 (takeTick c).1 (takeFine (takeTick c).2).1).1
  have he := bbRecord_lost c 0
  generalize bbBytes (takeFine (takeTick c).2).2 4 0 0xFF 4 0 0 0 (takeTick c).1 (takeFine (takeTick c).2).1 = r at hlen hkind he
  obtain ⟨-, hf, hh, -, -⟩ := bbProgram_spec (takeFine (takeTick c).2).2 r
  rw [← he] at hf hh
  refine ⟨hm.quiet, by rw [hf]; rfl, hh, ⟨_, by rw [hf]; exact tfind_tins_self _ _ _, ?_⟩, fun j hj => ?_, hk, hm.ints⟩
  · rw [bbKind_finished (by rw [hlen]; decide), hkind]
  · rw [hf]
    exact tfind_tins_other _ _ _ _ hj

/-! ### The report of a power loss (R475 class 0x15) -/

/-- A report of class 0x15, as POWER_LOSS makes it. -/
def lossRep (together : Bool) : FaultRep :=
  { cls := 0x15, page := .pwr, info := 0, addr := 0, higher := false, together := together }

theorem levelOf_lossRep (b : Bool) : levelOf (lossRep b) = 3 := rfl

/-- What the report of a power loss leaves. -/
structure LossReported (c d : Chip) : Prop where
  quiet : Safety.quiet d = Safety.quiet c
  flt : ∃ l, d.flt = { c.flt with reports := l }
  head : reg d aFLT_BB_HEAD = reg c aFLT_BB_HEAD
  count : (regB d 0x15 aFLT_CLASS_CNT).toNat = min ((regB c 0x15 aFLT_CLASS_CNT).toNat + 1) 0xFFFFFFFF
  first : c.flt.reports = [] → bit (hdr d .flt).int 19 = true ∧
    reg d aFLT_LAST_CLASS = w32 (2 ^ 31 + pageIdx .pwr * 2 ^ 16 + 0x315)

/-- A level 3 report of class 0x15 makes no record and begins no reaction. -/
theorem reportAt_loss (c : Chip) (b : Bool) : ∃ (c1 : Chip) (st : Nat) (l : List LastReport), c1.variant = c.variant ∧
    c1.mgmt = c.mgmt ∧ c1.flt = { c.flt with reports := l } ∧
    reportAt c (lossRep b) 3 = raise (lastShown c1 (lossRep b) 3 st) .flt 19 := by
  obtain ⟨c1, st, ⟨hv, hm⟩, hf, he⟩ := reportAt_eq c (lossRep b) 3
  refine ⟨c1, st, _, hv, hm, hf, ?_⟩
  rw [he, faultRecord, if_pos rfl, startReaction, if_neg (fun h => h.2 rfl), if_neg (fun h => absurd h.1 (by decide)),
    if_neg (show ¬ (lossRep b).cls.toNat = 0x1E from by rw [show (lossRep b).cls.toNat = 0x15 from rfl]; decide)]

/-- A chip reached by a report that changes LAST registers and events only. -/
structure LastMoved (c d : Chip) : Prop where
  flt : ∃ l, d.flt = { c.flt with reports := l }
  regs : ∀ k, eventKey k = false → k ∉ lastRegs → regKey d k = regKey c k

theorem lastMoved_reportAt (c : Chip) (b : Bool) : LastMoved c (reportAt c (lossRep b) 3) := by
  obtain ⟨c1, st, l, hv, hm, hf, he⟩ := reportAt_loss c b
  have hr : ∀ k, regKey c1 k = regKey c k := fun k => by rw [regKey, regKey, hv, hm]
  rw [he]
  refine ⟨⟨l, (flt_of_mute (mute_raise _ _ _)).trans hf⟩, fun k hn hl => ?_⟩
  rw [keepsRegs_raise _ _ _ k hn, ← hr k]
  have hne : ∀ a ∈ lastRegs, k ≠ rkey 0 a := fun a ha e => hl (by rw [e, rkey, Nat.zero_mul, Nat.zero_add]; exact ha)
  rw [lastShown]
  exact (regKey_setKey_other _ _ _ _ _ (hne aFLT_LAST_STAMP (by decide))).trans
    ((regKey_setPairB_other _ _ _ _ (hne aFLT_LAST_ADDR_LO (by decide)) (hne aFLT_LAST_ADDR_HI (by decide))).trans
      ((regKey_setKey_other _ _ _ _ _ (hne aFLT_LAST_INFO (by decide))).trans
        (regKey_setKey_other _ _ _ _ _ (hne aFLT_LAST_CLASS (by decide)))))

theorem lastMoved_reportAgain (c : Chip) (b : Bool) (x : LastReport) : LastMoved c (reportAgain c (lossRep b) x) := by
  unfold reportAgain
  dsimp only
  split
  · exact ⟨⟨c.flt.reports, rfl⟩, fun _ _ _ => rfl⟩
  · rw [startReaction, if_neg (fun h => h.2 rfl), if_neg (fun h => absurd (show (3 : Nat) = 2 from h.1) (by decide))]
    refine ⟨⟨c.flt.reports.map (fun y => if y = x then { x with level := levelOf (lossRep b) } else y), ?_⟩, fun k hn hl => ?_⟩
    · rw [flt_of_mute (mute_raise _ _ _)]
      split
      · rw [flt_setFld]
      · rfl
    · rw [keepsRegs_raise _ _ _ k hn]
      have h9 : k ≠ rkey 0 aFLT_LAST_CLASS := fun e => hl (by rw [e]; decide)
      split
      · exact regKey_setKey_other _ _ _ _ _ h9
      · rfl

theorem LastMoved.reported {c d : Chip} (h : LastMoved (bumpB c 0x15 aFLT_CLASS_CNT 1) d) :
    (∃ l, d.flt = { c.flt with reports := l }) ∧ reg d aFLT_BB_HEAD = reg c aFLT_BB_HEAD := by
  obtain ⟨l, hl⟩ := h.flt
  refine ⟨⟨l, by rw [hl, flt_bumpB]⟩, ?_⟩
  rw [reg, h.regs _ (by decide) (by decide)]
  exact regKey_bumpB_other _ _ _ _ (by decide)

/-- A report of a power loss, made anew or again. -/
theorem report_loss (c : Chip) (b : Bool) : (∃ l, (report c (lossRep b)).flt = { c.flt with reports := l }) ∧
    reg (report c (lossRep b)) aFLT_BB_HEAD = reg c aFLT_BB_HEAD := by
  have hs : ∀ d, faultState d (lossRep b) = d := fun d => by
    rw [faultState, if_neg (fun h => absurd (show (0x15 : Nat) = 0x11 from h.1) (by decide))]
  have h0 : 0 < (lossRep b).cls.toNat := (by decide : 0 < (0x15 : Byte).toNat)
  have h1 : (lossRep b).cls.toNat ≤ 0x1E := (by decide : (0x15 : Byte).toNat ≤ 0x1E)
  by_cases h : sameFault c (lossRep b) = none ∨ (lossRep b).together = false
  · rw [report_anew h0 h1 h, hs]
    exact (lastMoved_reportAt _ b).reported
  · obtain ⟨hn, h2⟩ := not_or.1 h
    obtain ⟨x, hx⟩ := Option.ne_none_iff_exists'.1 hn
    rw [report_again h0 h1 hx (by simpa using h2), hs]
    exact (lastMoved_reportAgain _ b x).reported

theorem lossReported (c : Chip) : LossReported c (fault c 0x15 .pwr 0 0 false) := by
  have hcnt := toNat_classCnt_fault c .pwr 0 0 false (cls := 0x15) (by decide) (by decide)
  have hq := quiet_fault c 0x15 .pwr 0 0 false (by decide)
  have hr : (∃ l, (fault c 0x15 .pwr 0 0 false).flt = { c.flt with reports := l }) ∧
      reg (fault c 0x15 .pwr 0 0 false) aFLT_BB_HEAD = reg c aFLT_BB_HEAD := by
    unfold fault
    dsimp only
    split
    · exact report_loss c false
    · exact report_loss (takeFree c).2 _
  refine ⟨hq, hr.1, hr.2, hcnt, fun h => ?_⟩
  rw [fault_first .pwr 0 0 false h (by decide) (by decide) (by decide)]
  exact ⟨event_reportAt _ _ (Nat.le_refl 3), (reportAt_shows _ _ _).cls⟩

/-! ### The supplies' commands (R485, R489, R523) -/

/-- A chip with the levels of its supplies as given. -/
def supplied (c : Chip) (main aux : Nat) : Chip :=
  { c with chip := { c.chip with
    mainMv := main
    auxMv := aux
    inputOpen := c.chip.inputOpen && decide (60000 ≤ main)
    lossSeen := c.chip.lossSeen && !decide (40000 ≤ main ∧ 3135 ≤ aux) } }

theorem supplyChange_levels {c : Chip} {main aux : Nat} (h : minuetOn c = true ∨ aux < 3135) :
    supplyChange c main aux = supplied c main aux := by
  unfold supplyChange
  refine if_neg fun x => ?_
  simp only [Bool.not_eq_true', minuetOn, decide_eq_true_eq, decide_eq_false_iff_not] at x h
  omega

/-- The minuet domain as it starts: the straps are sampled. -/
def strapped (c : Chip) (strap : BitVec 2) (loss : Bool) : Chip :=
  { c with
    smb := { c.smb with strap := strap, nacking := false }
    chip := { c.chip with lossSeen := loss, inReset := false } }

/-- The minuet domain starts. -/
theorem supplyChange_starts {c : Chip} {main aux : Nat} (h : minuetOn c = false) (ha : 3135 ≤ aux) :
    ∃ (m : Mgmt) (strap : BitVec 2), supplyChange c main aux =
      strapped { restarted (takeFree (supplied c main aux)).2 false 0 with mgmt := m } strap (decide (main < 38000)) := by
  obtain ⟨m, hm⟩ := resetChip_eq (takeFree (supplied c main aux)).2 false 0
  have hs : supplyChange c main aux = strapped (resetChip (takeFree (supplied c main aux)).2 false 0)
      (BitVec.ofNat 2 (takeFree (supplied c main aux)).1) (decide (main < 38000)) := by
    unfold supplyChange
    exact if_pos (by rw [h]; simpa [minuetOn] using ha)
  exact ⟨m, BitVec.ofNat 2 (takeFree (supplied c main aux)).1, by rw [hs, hm]⟩

/-- SUPPLY_CHANGE. -/
theorem suppliesChange (s : State) (main aux : Nat) :
    let h := s.chip
    let open_ := h.inputOpen && decide (60000 ≤ main)
    ((minuetOn s.toChip = true ∨ aux < 3135) → exec (.supplyChange main aux) s = .next (after s { s.toChip with
      chip := { h with mainMv := main, auxMv := aux, inputOpen := open_,
                       lossSeen := h.lossSeen && !decide (40000 ≤ main ∧ 3135 ≤ aux) } })) ∧
    (minuetOn s.toChip = false → 3135 ≤ aux → Completes (.supplyChange main aux) s (fun t => Restarted s t 0 ∧
      t.chip.mainMv = main ∧ t.chip.auxMv = aux ∧ t.chip.inputOpen = open_ ∧ t.chip.inReset = false ∧
      t.flt.faulted = false ∧ t.pwr.tripped = false ∧ t.flt.slots = s.flt.slots ∧ t.flt.boots = s.flt.boots ∧
      t.chip.prefer = h.prefer ∧ t.chip.bootOverlay = h.bootOverlay)) := by
  have he : exec (.supplyChange main aux) s = .next (after s (supplyChange s.toChip main aux)) := rfl
  refine ⟨fun h => ?_, fun h ha => ?_⟩
  · rw [he, supplyChange_levels h]
    rfl
  · obtain ⟨m, strap, hc⟩ := supplyChange_starts (c := s.toChip) (main := main) h ha
    rw [hc] at he
    exact ⟨_, he, after_pending _ _, ⟨rfl, rfl, rfl, rfl, rfl, rfl, rfl, rfl, rfl, rfl, fun hu => norKept_idle hu⟩,
      rfl, rfl, rfl, rfl, rfl, rfl, rfl, rfl, rfl, rfl⟩

/-- A chip whose loss of power, or whose open input stage, is noted. -/
def noted (c : Chip) (loss inputOpen : Bool) : Chip := { c with chip := { c.chip with lossSeen := loss, inputOpen := inputOpen } }

/-- The reset that follows a record of KIND 4, with what was noted. -/
theorem loss_restarts {s : State} {c : Chip} (l o : Bool) (hq : quiet c = quiet s.toChip) (hh : reg c aFLT_BB_HEAD = reg s.toChip aFLT_BB_HEAD) :
    let d := mainLoss (noted (bbPlain c 4 0) l o)
    Restarted s (after s d) 2 ∧ d.chip.lossSeen = l ∧ d.chip.inputOpen = o ∧ d.pwr.tripped = s.pwr.tripped ∧
      d.flt.faulted = false ∧ WindowKept (bbPlain c 4 0) d ∧ d.flt.slots = (bbPlain c 4 0).flt.slots ∧
      LossRecorded c (bbPlain c 4 0) ∧ bbHead c = bbHead s.toChip := by
  have hr := lossRecorded c
  generalize bbPlain c 4 0 = e at hr
  have hqe : quiet e = quiet s.toChip := hr.quiet.trans hq
  have hm := mainLoss_lost (noted e l o)
  obtain ⟨m, hqm⟩ := hm.quiet
  have hw : WindowKept e (mainLoss (noted e l o)) := ⟨hm.window.regs, hm.window.hdrs⟩
  have hflt := hm.flt
  have hres := hm.restarts (s := s) (congrArg (·.flash) hqe) (congrArg (·.chip.nor) hqe) (congrArg (·.chip.updating) hqe)
  generalize mainLoss (noted e l o) = d at hqm hw hflt hres
  refine ⟨hres, congrArg (·.chip.lossSeen) hqm, congrArg (·.chip.inputOpen) hqm, ?_, by rw [hflt], hw, by rw [hflt]; rfl, hr,
    by rw [bbHead, hh, bbHead]⟩
  exact (congrArg (·.pwr.tripped) hqm).trans (congrArg (·.pwr.tripped) hqe)

/-- POWER_LOSS. -/
theorem losesPower (s : State) :
    let h := s.chip
    let loss := h.lossSeen = false ∧ (h.mainMv < 38000 ∨ h.auxMv < 3000)
    (¬ loss → exec .powerLoss s = .next (after s s.toChip)) ∧
    (loss → Completes .powerLoss s (fun t => Restarted s t 2 ∧ t.chip.lossSeen = true ∧ t.flt.faulted = false ∧
      t.pwr.tripped = s.pwr.tripped ∧ bbHead t.toChip = (bbHead s.toChip + 1) % 32768 ∧
      (∃ x, tfind t.flt.slots (bbHead s.toChip) = some x ∧ bbKind x = 4) ∧
      (∀ j, j ≠ bbHead s.toChip → tfind t.flt.slots j = tfind s.flt.slots j) ∧ Logged s t 0x15 1 ∧
      (s.flt.reports = [] → Event t .flt 19 ∧
        reg t.toChip aFLT_LAST_CLASS = w32 (2 ^ 31 + pageIdx .pwr * 2 ^ 16 + 0x315)))) := by
  have he : exec .powerLoss s = .next (after s (powerLoss s.toChip)) := rfl
  have hguard : (s.chip.lossSeen = true ∨ (!(decide (s.chip.mainMv < 38000) || decide (s.chip.auxMv < 3000))) = true) ↔
      ¬ (s.chip.lossSeen = false ∧ (s.chip.mainMv < 38000 ∨ s.chip.auxMv < 3000)) := by
    cases s.chip.lossSeen <;> simp
  refine ⟨fun hn => ?_, fun hl => ?_⟩
  · rw [he, powerLoss, if_pos (hguard.2 hn)]
  · have hp : powerLoss s.toChip = mainLoss (noted (bbPlain (fault s.toChip 0x15 .pwr 0 0 false) 4 0) true
        (bbPlain (fault s.toChip 0x15 .pwr 0 0 false) 4 0).chip.inputOpen) := by
      unfold powerLoss
      exact if_neg (fun x => hguard.1 x hl)
    rw [hp] at he
    have hf := lossReported s.toChip
    generalize fault s.toChip 0x15 .pwr 0 0 false = f at he hf
    generalize (bbPlain f 4 0).chip.inputOpen = o at he
    obtain ⟨h1, h2, -, h4, h5, hw, hslots, hr, hhead⟩ := loss_restarts (s := s) true o hf.quiet hf.head
    generalize mainLoss (noted (bbPlain f 4 0) true o) = d at he h1 h2 h4 h5 hw hslots
    generalize bbPlain f 4 0 = e at hw hslots hr
    have hreg : ∀ k, minuetKey k = true → k ≠ rkey 0 aPWR_TRIP → boxKey k = false → regKey d k = regKey f k :=
      fun k h1 h2 h3 => (hw.regs k h1 h2).trans (hr.regs k h3)
    obtain ⟨l, hl⟩ := hf.flt
    refine ⟨_, he, after_pending _ _, h1, h2, h5, h4, ?_, ?_, fun j hj => ?_, ?_, fun hrep => ?_⟩
    · rw [← hhead, ← hr.head]
      exact congrArg (fun w => fld w 14 0) (hw.regs (rkey 0 aFLT_BB_HEAD) (by decide) (by decide))
    · rw [after_flt, hslots, ← hhead]
      exact hr.slot
    · rw [after_flt, hslots, hr.others j (by rw [hhead]; exact hj), hl]
    · rw [Logged, regB_after, regB, hreg _ (by decide) (by decide) (by decide)]
      exact hf.count
    · obtain ⟨g1, g2⟩ := hf.first hrep
      refine ⟨?_, ?_⟩
      · rw [Event, hdr_after, hw.hdrs _ rfl]
        exact hr.ints _ _ g1
      · rw [reg_after, reg, hreg _ (by decide) (by decide) (by decide)]
        exact g2

/-- MAIN_OVERVOLTAGE. -/
theorem overvolts (s : State) (hm : minuetOn s.toChip = true) :
    let h := s.chip
    let trips := h.inputOpen = false ∧ 62000 < h.mainMv
    (¬ trips → exec .mainOvervoltage s = .next (after s s.toChip)) ∧
    (trips → Completes .mainOvervoltage s (fun t => Restarted s t 2 ∧ t.chip.inputOpen = true ∧
      ∃ x, tfind t.flt.slots (bbHead s.toChip) = some x ∧ bbKind x = 4)) := by
  have he : exec .mainOvervoltage s = act s (fun c => whenMinuet c mainOvervoltage) := rfl
  rw [act_whenMinuet hm] at he
  have hguard : (s.chip.inputOpen = true ∨ s.chip.mainMv ≤ 62000) ↔ ¬ (s.chip.inputOpen = false ∧ 62000 < s.chip.mainMv) := by
    cases s.chip.inputOpen <;> simp
  refine ⟨fun hn => ?_, fun hl => ?_⟩
  · rw [he, mainOvervoltage, if_pos (hguard.2 hn)]
  · have hp : mainOvervoltage s.toChip = mainLoss (noted (bbPlain s.toChip 4 0) (bbPlain s.toChip 4 0).chip.lossSeen true) := by
      unfold mainOvervoltage
      exact if_neg (fun x => hguard.1 x hl)
    rw [hp] at he
    generalize (bbPlain s.toChip 4 0).chip.lossSeen = l at he
    obtain ⟨h1, -, h3, -, -, -, hslots, hr, -⟩ := loss_restarts (s := s) (c := s.toChip) l true rfl rfl
    exact ⟨_, he, after_pending _ _, h1, h3, by rw [after_flt, hslots]; exact hr.slot⟩

/-! ### The banks (R490, R501) -/

/-- A chip as its fast domain starts. -/
def started (c : Chip) : Chip :=
  { c with
    chip := { c.chip with fast := .run, refOk := true, pllLost := false }
    flt := { c.flt with boots := c.flt.boots + 1 } }

/-- What the results of the banks' checks leave. -/
structure ChecksShown (c d : Chip) (failA failB last : Nat) (fallback : Bool) : Prop where
  quiet : Safety.quiet d = Safety.quiet c
  flt : d.flt = c.flt
  boot : reg d aCHIP_BOOT = w32 (failB * 2 ^ 24 + failA * 2 ^ 16 + 8 * b2n fallback)
  last : fld (reg d aSEC_BOOT_STAT) 31 24 = if last ≤ 5 then last else 0
  cfg : reg d aCHIP_BOOT_CFG = reg c aCHIP_BOOT_CFG

theorem bootChecks_shown (c : Chip) (failA failB last : Nat) (fallback : Bool) :
    ChecksShown c (bootChecks c failA failB last fallback) failA failB last fallback := by
  unfold bootChecks
  dsimp only
  refine ⟨?_, ?_, ?_, ?_, ?_⟩
  · rw [quiet_setFld, quiet_setReg]
  · rw [flt_setFld, setReg_flt]
  · rw [reg_setFld_other _ _ _ _ (by decide), reg_setReg_self]
  · rw [fld_setFld_self _ _ _ (by decide) (by decide)]
    split
    · exact Nat.mod_eq_of_lt (by omega)
    · rfl
  · rw [reg_setFld_other _ _ _ _ (by decide), reg_setReg_other _ _ (by decide)]

theorem bankSource_congr {c d : Chip} (h : d.chip.nor = c.chip.nor) (b : Bool) : bankSource d b = bankSource c b := by
  unfold bankSource norGet
  rw [h]

/-- CHIP's own state once a bundle has been taken. -/
def chipTaken (h : ChipUnit) (b : Bool) (src : Source) : ChipUnit :=
  { h with
    bank := b
    bundleLive := true
    smooth := (List.range 16).foldl (fun t k => tset [] t k (codecTables src)) []
    bundleChanged := decide (mfId (src 0 128) ≠ h.lastBundle)
    lastBundle := mfId (src 0 128) }

/-- What taking a bundle leaves. -/
structure Taken (c d : Chip) (b : Bool) : Prop where
  chip : d.chip = chipTaken c.chip b (bankSource c b)
  flt : d.flt = c.flt
  mc1 : d.sec.mc1 = sha256 (bankSource c b 0 128)
  mc2 : d.sec.mc2 = List.replicate 32 0
  boot : reg d aCHIP_BOOT = reg c aCHIP_BOOT
  cfg : reg d aCHIP_BOOT_CFG = reg c aCHIP_BOOT_CFG

/-- A chip with the measurements of a bundle. -/
def measured (c : Chip) (mc0 mc1 : List Byte) (free : Nat) : Chip :=
  { c with sec := { c.sec with mc0 := mc0, mc1 := mc1, mc2 := List.replicate 32 0 }, free := free }

/-- What the manifest of a bundle shows in SEC.BOOT_STAT. -/
def manifestShown (c : Chip) (svn slot bank : Nat) : Chip :=
  setFld (setFld (setFld c aSEC_BOOT_STAT 23 16 svn) aSEC_BOOT_STAT 9 8 slot) aSEC_BOOT_STAT 0 0 bank

/-- A chip whose bundle is taken, before its measurements. -/
def bundleShown (c : Chip) (b : Bool) : Chip :=
  manifestShown (withChip c (chipTaken c.chip b (bankSource c b))) (mfSvn (bankSource c b 0 128))
    (mfSlot (bankSource c b 0 128)) (b2n b)

theorem bundleTaken_eq (c : Chip) (b : Bool) : bundleTaken c b =
    setReg (measured (bundleShown c b) (leBytes 32 (takeFree (bundleShown c b)).1) (sha256 (bankSource c b 0 128))
      (takeFree (bundleShown c b)).2.free) aCHIP_OVL_PRESENT (w32 (ovlPresent (bankSource c b))) := by
  unfold bundleTaken bundleShown manifestShown
  rfl

theorem bundleShown_shows (c : Chip) (b : Bool) :
    quiet (bundleShown c b) = quiet (withChip c (chipTaken c.chip b (bankSource c b))) ∧ (bundleShown c b).flt = c.flt ∧
    ∀ a, a ≠ aSEC_BOOT_STAT → reg (bundleShown c b) a = reg c a := by
  unfold bundleShown manifestShown
  generalize chipTaken c.chip b (bankSource c b) = h
  generalize mfSvn (bankSource c b 0 128) = svn
  generalize mfSlot (bankSource c b 0 128) = slot
  generalize b2n b = bank
  refine ⟨?_, ?_, fun a ha => ?_⟩
  · rw [quiet_setFld, quiet_setFld, quiet_setFld]
  · rw [flt_setFld, flt_setFld, flt_setFld]
    rfl
  · rw [reg_setFld_other _ _ _ _ ha, reg_setFld_other _ _ _ _ ha, reg_setFld_other _ _ _ _ ha, reg_withChip]

theorem bundleTaken_taken (c : Chip) (b : Bool) : Taken c (bundleTaken c b) b := by
  obtain ⟨hq, hf, hr⟩ := bundleShown_shows c b
  rw [bundleTaken_eq]
  generalize bundleShown c b = d at hq hf hr
  generalize leBytes 32 (takeFree d).1 = mc0
  generalize (takeFree d).2.free = free
  generalize w32 (ovlPresent (bankSource c b)) = w
  have hqm := quiet_setReg (measured d mc0 (sha256 (bankSource c b 0 128)) free) aCHIP_OVL_PRESENT w
  refine ⟨(congrArg (·.chip) hqm).trans (congrArg (·.chip) hq), ?_, congrArg (·.sec.mc1) hqm, congrArg (·.sec.mc2) hqm, ?_, ?_⟩
  · rw [setReg_flt]
    exact hf
  · rw [reg_setReg_other _ _ (by decide)]
    exact hr _ (by decide)
  · rw [reg_setReg_other _ _ (by decide)]
    exact hr _ (by decide)

/-- A bundle without a base image and without a boot overlay leaves the chip configuring. -/
theorem applyBase_plain {c : Chip} (h : sectionsOf (running c) 1 = []) (hn : fld (reg c aCHIP_BOOT_CFG) 11 8 = 0) :
    applyBase c = withChip c { c.chip with bootState := .configuring, inForce := 0 } := by
  have hn' : fld (reg (withChip c { c.chip with bootState := .configuring }) aCHIP_BOOT_CFG) 11 8 = 0 := hn
  unfold applyBase
  rw [h]
  show bootOverlayStep (withChip c { c.chip with bootState := .configuring }) = _
  unfold bootOverlayStep
  dsimp only
  rw [if_pos hn']
  rfl

/-- What a bank that boots without an image shows. -/
structure Booted (c d : Chip) (b : Bool) (boot : Word) : Prop where
  chip : d.chip = { chipTaken c.chip b (bankSource c b) with bootState := .configuring, inForce := 0 }
  flt : d.flt = c.flt
  boot : reg d aCHIP_BOOT = boot
  mc1 : d.sec.mc1 = sha256 (bankSource c b 0 128)
  mc2 : d.sec.mc2 = List.replicate 32 0

theorem Booted.raise {c d : Chip} {b : Bool} {w : Word} (h : Booted c d b w) (p : Page) (n : Nat) :
    Booted c (Machine.raise d p n) b w := by
  have hq := quiet_raise d p n
  exact ⟨(congrArg (·.chip) hq).trans h.chip, (flt_of_mute (mute_raise d p n)).trans h.flt,
    ((keepsRegs_raise d p n).reg (by decide)).trans h.boot, (congrArg (·.sec.mc1) hq).trans h.mc1,
    (congrArg (·.sec.mc2) hq).trans h.mc2⟩

theorem applyBase_booted {c e : Chip} {b : Bool} {w : Word} (hq : quiet e = quiet c) (hf : e.flt = c.flt)
    (hb : reg e aCHIP_BOOT = w) (h : sectionsOf (bankSource c b) 1 = []) (hn : fld (reg e aCHIP_BOOT_CFG) 11 8 = 0) :
    Booted c (applyBase (bundleTaken e b)) b w := by
  have hchip : e.chip = c.chip := congrArg (·.chip) hq
  have hsrc : bankSource e b = bankSource c b := bankSource_congr (by rw [hchip]) b
  have ht := bundleTaken_taken e b
  generalize bundleTaken e b = g at ht
  have hg := ht.chip
  rw [hsrc, hchip] at hg
  have hrun : running g = bankSource c b := by
    rw [running, hg]
    exact bankSource_congr (by rw [hg]; rfl) b
  rw [applyBase_plain (c := g) (by rw [hrun]; exact h) (by rw [ht.cfg]; exact hn)]
  refine ⟨?_, ht.flt.trans hf, ht.boot.trans hb, ht.mc1.trans (by rw [hsrc]), ht.mc2⟩
  rw [← hg]
  rfl

/-- A bank boots once the checks of both are shown. -/
theorem bootBank_booted {c : Chip} {b : Bool} (x y : Nat) (fallback : Bool) (h : sectionsOf (bankSource c b) 1 = [])
    (hn : fld (reg c aCHIP_BOOT_CFG) 11 8 = 0) :
    let d := bootBank (bootChecks c x y 0 fallback) b fallback
    Booted c d b (w32 (y * 2 ^ 24 + x * 2 ^ 16 + 8 * b2n fallback)) ∧ (fallback = true → bit (hdr d .chip).int 20 = true) := by
  have hs := bootChecks_shown c x y 0 fallback
  generalize bootChecks c x y 0 fallback = e at hs
  have ha := applyBase_booted hs.quiet hs.flt hs.boot h (by rw [hs.cfg]; exact hn)
  unfold bootBank
  dsimp only
  generalize applyBase (bundleTaken e b) = d at ha
  split
  · exact ⟨ha.raise _ _, fun _ => raise_int _ _ _ (by decide)⟩
  · rename_i hf
    exact ⟨ha, fun hx => absurd hx hf⟩

/-- The checks of the banks as they stand in CHIP.BOOT: that of the preferred bank and that of the other one. -/
theorem verifyBanks_first {c : Chip} {rf : BitVec 2} (h : bankCheck c rf c.chip.prefer = 0) :
    verifyBanks c rf = bootBank (bootChecks c 0 0 0 false) c.chip.prefer false := by
  unfold verifyBanks
  dsimp only
  rw [if_pos h]

theorem verifyBanks_second {c : Chip} {rf : BitVec 2} (h : bankCheck c rf c.chip.prefer ≠ 0)
    (h' : bankCheck c rf (!c.chip.prefer) = 0) :
    verifyBanks c rf = bootBank (bootChecks c (if c.chip.prefer then 0 else bankCheck c rf c.chip.prefer)
      (if c.chip.prefer then bankCheck c rf c.chip.prefer else 0) 0 true) (!c.chip.prefer) true := by
  unfold verifyBanks
  dsimp only
  rw [if_neg h, if_pos h']
  cases c.chip.prefer <;> rfl

theorem verifyBanks_neither {c : Chip} {rf : BitVec 2} (h : bankCheck c rf c.chip.prefer ≠ 0)
    (h' : bankCheck c rf (!c.chip.prefer) ≠ 0) :
    ∃ d, ChecksShown c d (if c.chip.prefer then bankCheck c rf (!c.chip.prefer) else bankCheck c rf c.chip.prefer)
        (if c.chip.prefer then bankCheck c rf c.chip.prefer else bankCheck c rf (!c.chip.prefer))
        (bankCheck c rf (!c.chip.prefer)) false ∧
      verifyBanks c rf = withChip d { d.chip with bootState := .failed } := by
  refine ⟨_, bootChecks_shown .., ?_⟩
  unfold verifyBanks
  dsimp only
  rw [if_neg h, if_neg h']
  cases c.chip.prefer <;> rfl

/-- SUPPLIES_GOOD. -/
theorem suppliesStart (s : State) :
    (∀ rf, mayStart s.toChip = false → exec (.suppliesGood rf) s = .next (after s s.toChip)) ∧
    (∀ rf, mayStart s.toChip = true →
      let c : Chip := { s.toChip with
        chip := { s.chip with fast := .run, refOk := true, pllLost := false }
        flt := { s.flt with boots := s.flt.boots + 1 } }
      let b := s.chip.prefer
      let mine := bankCheck c rf b
      let his := bankCheck c rf (!b)
      let plain := fun (x : Bool) => sectionsOf (bankSource c x) 1 = [] ∧ s.chip.bootOverlay = 0 ∧
        fld (reg s.toChip aCHIP_BOOT_CFG) 11 8 = 0
      let shows := fun (x : Bool) (fallback a o : Nat) (t : State) => t.flt.boots = s.flt.boots + 1 ∧
        t.chip.fast = .run ∧ t.chip.bootState = .configuring ∧ t.chip.bank = x ∧ t.chip.inForce = 0 ∧
        t.chip.bundleLive = true ∧
        reg t.toChip aCHIP_BOOT = w32 ((if b then a else o) * 2 ^ 24 + (if b then o else a) * 2 ^ 16 + 8 * fallback) ∧
        t.sec.mc1 = sha256 (bankSource c x 0 128) ∧ t.sec.mc2 = List.replicate 32 0
      (mine ≠ 0 → his ≠ 0 → Quietly (.suppliesGood rf) s { c with chip := { c.chip with bootState := .failed } } (fun t =>
        t.flt.boots = s.flt.boots + 1 ∧
        reg t.toChip aCHIP_BOOT = w32 ((if b then mine else his) * 2 ^ 24 + (if b then his else mine) * 2 ^ 16) ∧
        fld (reg t.toChip aSEC_BOOT_STAT) 31 24 = (if his ≤ 5 then his else 0))) ∧
      (mine = 0 → plain b → Completes (.suppliesGood rf) s (fun t => shows b 0 0 0 t)) ∧
      (mine ≠ 0 → his = 0 → plain (!b) → Completes (.suppliesGood rf) s (fun t => shows (!b) 1 mine 0 t ∧
        Event t .chip 20))) := by
  have he : ∀ rf, exec (.suppliesGood rf) s = .next (after s (suppliesGood s.toChip rf)) := fun _ => rfl
  refine ⟨fun rf h => by rw [he, suppliesGood, if_neg (by rw [h]; exact Bool.false_ne_true)], fun rf h => ?_⟩
  have hv := he rf
  rw [suppliesGood, if_pos h] at hv
  change exec (.suppliesGood rf) s = .next (after s (verifyBanks (started s.toChip) rf)) at hv
  intro c b mine his plain shows
  have hshows : ∀ (x : Bool) (fallback : Bool) (p q : Nat) (d : Chip), Booted (started s.toChip) d x
      (w32 ((if b then p else q) * 2 ^ 24 + (if b then q else p) * 2 ^ 16 + 8 * b2n fallback)) →
      shows x (b2n fallback) p q (after s d) := fun x fallback p q d hd => by
    obtain ⟨hc, hf, hb, h1, h2⟩ := hd
    exact ⟨congrArg (·.boots) hf, congrArg (·.fast) hc, congrArg (·.bootState) hc, congrArg (·.bank) hc,
      congrArg (·.inForce) hc, congrArg (·.bundleLive) hc, hb, h1, h2⟩
  refine ⟨fun h1 h2 => ?_, fun h1 hp => ?_, fun h1 h2 hp => ?_⟩
  · obtain ⟨d, hd, hvd⟩ := verifyBanks_neither (c := started s.toChip) (rf := rf) h1 h2
    rw [hvd] at hv
    have hchip : d.chip = (started s.toChip).chip := congrArg (·.chip) hd.quiet
    refine ⟨_, hv, after_pending _ _, ?_, ?_, ?_, ?_⟩
    · rw [quiet_after, quiet_withChip, hd.quiet, hchip]
      rfl
    · exact congrArg (·.boots) hd.flt
    · refine hd.boot.trans (congrArg w32 ?_)
      rw [show 8 * b2n false = 0 from rfl, Nat.add_zero]
      rfl
    · exact hd.last
  · rw [verifyBanks_first (c := started s.toChip) h1] at hv
    obtain ⟨hb, -⟩ := bootBank_booted (c := started s.toChip) (b := b) 0 0 false hp.1 hp.2.2
    refine ⟨_, hv, after_pending _ _, hshows b false 0 0 _ ?_⟩
    rw [ite_self]
    exact hb
  · rw [verifyBanks_second (c := started s.toChip) h1 h2] at hv
    obtain ⟨hb, hev⟩ := bootBank_booted (c := started s.toChip) (b := !b) (if b then 0 else mine) (if b then mine else 0) true
      hp.1 hp.2.2
    exact ⟨_, hv, after_pending _ _, hshows (!b) true mine 0 _ hb, hev rfl⟩

/-! ### BOOT_READY (R485, R490, R504) -/

/-- Bit 0 of FLT.STATUS, the result of the hold-up check, stands. -/
def KeepsHoldup (c d : Chip) : Prop := bit (reg d aFLT_STATUS) 0 = bit (reg c aFLT_STATUS) 0

theorem KeepsRegs.holdup {c d : Chip} (h : KeepsRegs c d) : KeepsHoldup c d := by
  rw [KeepsHoldup, h.reg (by decide)]

/-- The hold-up check's result is a register, no field of the module's own state. -/
theorem KeepsHoldup.withFlt {c d : Chip} (f : FltUnit) (h : KeepsHoldup c d) : KeepsHoldup c { d with flt := f } := h

/-- The moves of the head and of the sequence number leave the result of the hold-up check. -/
theorem keepsHoldup_head (c : Chip) (u v : Word) :
    KeepsHoldup c (setFld (setReg (setReg c aFLT_BB_SEQ u) aFLT_BB_HEAD v) aFLT_STATUS 1 1 1) := by
  generalize hd : setReg (setReg c aFLT_BB_SEQ u) aFLT_BB_HEAD v = d
  have hr : reg d aFLT_STATUS = reg c aFLT_STATUS := by
    rw [← hd, reg_setReg_other _ _ (by decide), reg_setReg_other _ _ (by decide)]
  refine (bit_setFldB_other d 0 aFLT_STATUS (hi := 1) (lo := 1) 1 0 (by decide) (by decide)).trans ?_
  exact congrArg (bit · 0) hr

theorem keepsHoldup_bbProgram (c : Chip) (r : List Byte) : KeepsHoldup c (bbProgram c r) := by
  have hf : ∀ (f : FltUnit) u v, KeepsHoldup c
      (setFld (setReg (setReg { c with flt := f } aFLT_BB_SEQ u) aFLT_BB_HEAD v) aFLT_STATUS 1 1 1) := fun f u v =>
    keepsHoldup_head { c with flt := f } u v
  unfold bbProgram
  dsimp only
  split
  · exact (keepsRegs_raise _ _ _).holdup.trans (hf _ _ _)
  · exact hf _ _ _

theorem keepsHoldup_bump (c : Chip) : KeepsHoldup c (bump c aFLT_BB_SUPPRESSED 1) := by
  have h : reg (bump c aFLT_BB_SUPPRESSED 1) aFLT_STATUS = reg c aFLT_STATUS :=
    regKey_bump_other _ _ _ (by decide)
  rw [KeepsHoldup, h]

theorem keepsHoldup_bbQueue (c : Chip) (r : List Byte) : KeepsHoldup c (bbQueue c r) := by
  have h := keepsHoldup_bump c
  unfold bbQueue
  dsimp only
  generalize bump c aFLT_BB_SUPPRESSED 1 = d at h ⊢
  split
  · rfl
  · split
    · exact h
    · exact h.withFlt _

/-- The black box leaves the result of the hold-up check alone. -/
theorem keepsHoldup_bbPlain (c : Chip) (k : Nat) (m : Word) : KeepsHoldup c (bbPlain c k m) := by
  have ha : ∀ (d : Chip) (r : List Byte), KeepsHoldup d (bbAppend d r) := fun d r => by
    unfold bbAppend
    split
    · exact keepsHoldup_bbProgram d r
    · split
      · exact keepsHoldup_bbProgram d r
      · exact keepsHoldup_bbQueue d r
  unfold bbPlain bbRecord
  dsimp only
  exact ha (takeFine (takeTick c).2).2 _

/-- The chip as its boot ends, before the result of the hold-up check. -/
def bootEnded (c : Chip) : Chip :=
  { c with
    flash := { c.flash with mapReady := true }
    chip := { c.chip with
      bootDone := true
      bootState := if c.chip.bootState = .configuring then .ready else c.chip.bootState } }

/-- The result of the hold-up check, with its event. -/
def holdupShown (c : Chip) (ok : Bool) : Chip :=
  if ok then setFld c aFLT_STATUS 0 0 1 else raise (setFld c aFLT_STATUS 0 0 0) .flt 21

structure HoldupShown (c d : Chip) (ok : Bool) : Prop where
  quiet : Safety.quiet d = Safety.quiet c
  flt : d.flt = c.flt
  status : bit (reg d aFLT_STATUS) 0 = ok
  event : ok = false → bit (hdr d .flt).int 21 = true
  ready : reg d aGDR_CH_READY = reg c aGDR_CH_READY

theorem holdupShown_shows (c : Chip) (ok : Bool) : HoldupShown c (holdupShown c ok) ok := by
  unfold holdupShown
  cases ok
  · refine ⟨?_, ?_, ?_, fun _ => raise_int _ _ _ (by decide), ?_⟩
    · rw [if_neg Bool.false_ne_true, quiet_raise, quiet_setFld]
    · rw [if_neg Bool.false_ne_true, flt_of_mute (mute_raise _ _ _), flt_setFld]
    · rw [if_neg Bool.false_ne_true, (keepsRegs_raise _ _ _).reg (by decide)]
      exact bit_setFldB_zero _ _ _ (by decide)
    · rw [if_neg Bool.false_ne_true, (keepsRegs_raise _ _ _).reg (by decide), reg_setFld_other _ _ _ _ (by decide)]
  · refine ⟨?_, ?_, ?_, fun h => absurd h.symm Bool.false_ne_true, ?_⟩
    · rw [if_pos rfl, quiet_setFld]
    · rw [if_pos rfl, flt_setFld]
    · rw [if_pos rfl]
      exact bit_setFldB_one _ _ _ (by decide)
    · rw [if_pos rfl, reg_setFld_other _ _ _ _ (by decide)]

/-- The records of a boot: KIND 1, and KIND 6 of a bundle that changed. -/
def bootRecorded (c : Chip) (changed : Bool) : Chip :=
  if changed then bbPlain (bbPlain c 1 0) 6 0 else bbPlain c 1 0

theorem bootReady_eq {c : Chip} (ok : Bool) (h : c.chip.bootDone = false)
    (hs : c.chip.bootState = .configuring ∨ c.chip.bootState = .configErr) :
    bootReady c ok = bootRecorded (holdupShown (bootEnded (setReg c aGDR_CH_READY
      (BitVec.allOnes 32 ^^^ reg c aGDR_CH_FAULT))) ok) c.chip.bundleChanged := by
  have hc : (setReg c aGDR_CH_READY (BitVec.allOnes 32 ^^^ reg c aGDR_CH_FAULT)).chip = c.chip := setReg_chip ..
  unfold bootReady bootEnded
  rw [if_neg (by rw [h]; exact fun x => x.elim Bool.false_ne_true (fun y => y hs)), hc]
  dsimp only
  generalize setReg c aGDR_CH_READY (BitVec.allOnes 32 ^^^ reg c aGDR_CH_FAULT) = d at hc
  rw [hc]
  unfold bootRecorded holdupShown
  cases ok <;> rfl

/-- What the records of a boot leave. -/
structure BootRecorded (c d : Chip) : Prop where
  minor : Minor c d
  box : KeepsBox c d
  holdup : KeepsHoldup c d

theorem bootRecorded_leaves (c : Chip) (changed : Bool) : BootRecorded c (bootRecorded c changed) := by
  have h : ∀ (d : Chip) (k : Nat), BootRecorded d (bbPlain d k 0) := fun d k =>
    ⟨minor_bbPlain d k 0, keepsBox_bbRecord d k 0 0xFF 4 0 0 0, keepsHoldup_bbPlain d k 0⟩
  unfold bootRecorded
  cases changed
  · rw [if_neg Bool.false_ne_true]
    exact h c 1
  · rw [if_pos rfl]
    exact ⟨(h c 1).minor.trans (h _ 6).minor, (h c 1).box.trans (h _ 6).box, (h _ 6).holdup.trans (h c 1).holdup⟩

/-- BOOT_READY. -/
theorem bootsReady {s : State} (ok : Bool) (ha : Awake s.toChip) :
    let state := s.chip.bootState
    (s.chip.bootDone = true ∨ (state ≠ .configuring ∧ state ≠ .configErr) →
      exec (.bootReady ok) s = .next (after s s.toChip)) ∧
    (s.chip.bootDone = false → (state = .configuring ∨ state = .configErr) →
      Quietly (.bootReady ok) s { s.toChip with
        flash := { s.flash with mapReady := true }
        chip := { s.chip with bootDone := true, bootState := if state = .configuring then .ready else .configErr } }
        (fun t => reg t.toChip aGDR_CH_READY = ~~~(reg s.toChip aGDR_CH_FAULT) ∧
          bit (reg t.toChip aFLT_STATUS) 0 = ok ∧ (ok = false → Event t .flt 21) ∧
          (s.chip.bundleChanged = false → RecordWaits s t 1) ∧
          (s.chip.bundleChanged = true → s.flt.headKnown = false → s.flt.queue.length < 63 →
            ∃ x y, t.flt.queue = s.flt.queue ++ [x, y] ∧ bbKind x = 1 ∧ bbKind y = 6))) := by
  have he : exec (.bootReady ok) s = act s (fun c => whenAwake c (fun c => bootReady c ok)) := rfl
  rw [act_whenAwake ha] at he
  refine ⟨fun h => ?_, fun h hs => ?_⟩
  · rw [he, bootReady, if_pos (h.imp_right fun x => not_or.2 x)]
  · rw [bootReady_eq ok h hs] at he
    have hq0 := quiet_setReg s.toChip aGDR_CH_READY (BitVec.allOnes 32 ^^^ reg s.toChip aGDR_CH_FAULT)
    have hf0 := setReg_flt s.toChip aGDR_CH_READY (BitVec.allOnes 32 ^^^ reg s.toChip aGDR_CH_FAULT)
    have hr0 := reg_setReg_self s.toChip aGDR_CH_READY (BitVec.allOnes 32 ^^^ reg s.toChip aGDR_CH_FAULT)
    generalize setReg s.toChip aGDR_CH_READY (BitVec.allOnes 32 ^^^ reg s.toChip aGDR_CH_FAULT) = c at he hq0 hf0 hr0
    have hsh := holdupShown_shows (bootEnded c) ok
    generalize holdupShown (bootEnded c) ok = d at he hsh
    have hq : quiet d = quiet (bootEnded s.toChip) := hsh.quiet.trans (congrArg bootEnded hq0)
    have hfd : d.flt = s.flt := hsh.flt.trans hf0
    have hb := bootRecorded_leaves d s.chip.bundleChanged
    have hstate : (if s.chip.bootState = .configuring then BootState.ready else s.chip.bootState) =
        if s.chip.bootState = .configuring then .ready else .configErr := by
      rcases hs with h | h <;> simp [h]
    refine ⟨_, he, after_pending _ _, ?_, ?_, ?_, fun hk => ?_, fun hn hh hl => ?_, fun hn hh hl => ?_⟩
    · rw [quiet_after, hb.minor.quiet, hq, bootEnded, hstate]
    · rw [reg_after, hb.box.reg (by decide), hsh.ready]
      refine Eq.trans hr0 ?_
      exact BitVec.allOnes_xor
    · rw [reg_after]
      exact hb.holdup.trans hsh.status
    · rw [Event, hdr_after]
      exact hb.minor.ints _ _ (hsh.event hk)
    · obtain ⟨x, hx, hkind, -⟩ := bbRecord_waits (c := d) (kind := 1) 0 0xFF 4 0 0 0 (by decide) (by rw [hfd]; exact hh)
        (by rw [hfd]; exact hl)
      refine ⟨x, ?_, hkind⟩
      rw [after_flt, hn, bootRecorded, if_neg Bool.false_ne_true, bbPlain, hx, hfd]
    · obtain ⟨x, hx, hkx, -⟩ := bbRecord_waits (c := d) (kind := 1) 0 0xFF 4 0 0 0 (by decide) (by rw [hfd]; exact hh)
        (by rw [hfd]; omega)
      have hx' : (bbPlain d 1 0).flt = { s.flt with queue := s.flt.queue ++ [x] } := by rw [bbPlain, hx, hfd]
      obtain ⟨y, hy, hky, -⟩ := bbRecord_waits (c := bbPlain d 1 0) (kind := 6) 0 0xFF 4 0 0 0 (by decide)
        (by rw [hx']; exact hh) (by rw [hx']; simp only [List.length_append, List.length_cons, List.length_nil]; omega)
      refine ⟨x, y, ?_, hkx, hky⟩
      have hy' : (bbPlain (bbPlain d 1 0) 6 0).flt.queue = s.flt.queue ++ [x] ++ [y] := by
        rw [bbPlain, hy, hx']
      rw [after_flt, hn, bootRecorded, if_pos rfl, hy', List.append_assoc]
      rfl

/-- Settles O54: the supplies' changes, the loss of power with its report and record, the start with the first bank that
passes, and the end of the boot. -/
theorem suppliesAndPowerUp : Obligations.SuppliesAndPowerUp :=
  ⟨fun s => ⟨suppliesChange s, losesPower s, overvolts s⟩,
    fun s => ⟨(suppliesStart s).1, (suppliesStart s).2, fun ok ha => bootsReady ok ha⟩⟩

end Sys2Proof.Machine
end

section
/-! A table of extents that lists one extent twice. The statement about FLASH ranges over every state, and asks nothing of
the order of that table. In the state of this part the target of a whole copy is listed twice: reads see the first entry,
while what the end of the copy makes due is gathered from every entry, and starts a second copy from the target at once.
(The commands keep the keys of a table rising, so that reset leads to no such state.) -/

namespace Sys2Proof.Machine

open Sys2Proof.Safety

/-- Extent 0 of LEXT 0, closed, whose whole copy to extent 1 runs. -/
def copySource : Extent := { extReset with state := .closed, lext := some 0, copyTo := some 1 }

/-- Extent 1, the open target of that copy. -/
def copyTarget : Extent := { extReset with state := .open, lext := some 0, copyTo := some 0 }

/-- Dies 1 to 63 are lost, and a live object stands in LEXT 0, which is copied from extent 0 to extent 1. The second entry
of extent 1 is that of a closed extent after a program failure. -/
def relisted : Chip :=
  { litChip with flash := { litChip.flash with
      extents := [(0, copySource), (1, copyTarget), (1, { extReset with state := .closed, failed := true })]
      objects := [(0, { len := 64, kind := 1, owner := 0, seq := 0, data := [] })]
      lostDies := (List.range 63).map (· + 1)
      heads := [(0, 5)] } }

/-- What the end of a copy asks of FLASH stands. -/
structure SameMedia (c d : Chip) : Prop where
  extents : d.flash.extents = c.flash.extents
  objects : d.flash.objects = c.flash.objects
  writes : d.flash.writes = c.flash.writes
  lost : d.flash.lostDies = c.flash.lostDies
  heads : d.flash.heads = c.flash.heads
  cut : d.flash.cutDue = c.flash.cutDue
  variant : d.variant = c.variant
  state : bstate d .flash = bstate c .flash
  dies : regB d 0 aSEC_PART_RES = regB c 0 aSEC_PART_RES

theorem SameMedia.trans {a b c : Chip} (h : SameMedia a b) (k : SameMedia b c) : SameMedia a c :=
  ⟨k.extents.trans h.extents, k.objects.trans h.objects, k.writes.trans h.writes, k.lost.trans h.lost,
    k.heads.trans h.heads, k.cut.trans h.cut, k.variant.trans h.variant, k.state.trans h.state, k.dies.trans h.dies⟩

theorem SameMedia.refl (c : Chip) : SameMedia c c := ⟨rfl, rfl, rfl, rfl, rfl, rfl, rfl, rfl, rfl⟩

theorem SameMedia.of_minor {c d : Chip} (h : Minor c d) : SameMedia c d := by
  have hf : d.flash = c.flash := congrArg (·.flash) h.quiet
  exact ⟨congrArg (·.extents) hf, congrArg (·.objects) hf, congrArg (·.writes) hf, congrArg (·.lostDies) hf,
    congrArg (·.heads) hf, congrArg (·.cutDue) hf, congrArg (·.variant) h.quiet, h.state .flash, h.regB (by decide)⟩

theorem sameMedia_bumpPair (c : Chip) (n : Nat) : SameMedia c (bumpPair c aFLASH_MEDIA_BYTES_LO n) := by
  have hq : quiet (bumpPair c aFLASH_MEDIA_BYTES_LO n) = quiet c := quiet_bumpPair ..
  have hf : (bumpPair c aFLASH_MEDIA_BYTES_LO n).flash = c.flash := congrArg (·.flash) hq
  exact ⟨congrArg (·.extents) hf, congrArg (·.objects) hf, congrArg (·.writes) hf, congrArg (·.lostDies) hf,
    congrArg (·.heads) hf, congrArg (·.cutDue) hf, congrArg (·.variant) hq, congrArg (·.state) (hdr_bumpPair ..),
    regKey_bumpPair_other _ _ _ (by decide) (by decide)⟩

theorem sameMedia_jput (c : Chip) (r : JRec) : SameMedia c (jput c r) := by
  unfold jput
  dsimp only
  refine SameMedia.trans ?_ (sameMedia_bumpPair _ _)
  exact ⟨rfl, rfl, rfl, rfl, rfl, rfl, rfl, rfl, rfl⟩

theorem sameMedia_noteSpares (c : Chip) (n : Nat) : SameMedia c (noteSpares n c) := by
  unfold noteSpares
  split
  · exact SameMedia.of_minor (minor_raise ..)
  · exact SameMedia.refl c

/-- Extent 0 as it waits for its erase. -/
def erasedSource : Extent := { extReset with state := .erasing }

/-- The chip once the copy has ended: extent 1 serves LEXT 0, and extent 0 is to be erased. -/
def recopied : Chip :=
  setExtent (setExtent relisted 1 { copyTarget with state := .closed, copyTo := none }) 0 erasedSource

/-- Ending the copy comes to what is due on the media as the copy leaves them. -/
theorem endCopy_relisted : ∃ d, SameMedia recopied d ∧ endCopy relisted 0 = pumpFlash d := by
  have he : extent relisted 0 = copySource := rfl
  have hl : lextOf 0 = 0 := rfl
  generalize hc : setExtent (takeFree relisted).2 1
    { extent (takeFree relisted).2 1 with state := .closed, copyTo := none } = c1
  generalize hd : bumpPair (jput c1 (.map 0 1)) aFLASH_MEDIA_BYTES_LO (0 + (takeFree relisted).1 % 2 ^ 20) = c2
  have h2 : SameMedia c1 c2 := hd ▸ (sameMedia_jput _ _).trans (sameMedia_bumpPair _ _)
  have hends : endCopy relisted 0 = pumpFlash (eraseIfDead (startErase c2 0) 0) := by
    rw [← hd, ← hc]
    rfl
  have hx : extent c2 0 = copySource := by
    rw [extent, h2.extents, ← hc]
    rfl
  have hext : (setExtent c2 0 erasedSource).flash.extents = recopied.flash.extents :=
    congrArg (tset extReset · 0 erasedSource) (h2.extents.trans (by rw [← hc]; rfl))
  have hm : (mappedLexts (setExtent c2 0 erasedSource)).contains 0 = true := by
    rw [mappedLexts, hext]
    decide +kernel
  have hcut : c2.flash.cutDue = 0 := h2.cut.trans (by rw [← hc]; rfl)
  have hs : SameMedia recopied (startErase c2 0) := by
    have hx3 : startErase c2 0 = noteSpares (spareExtents c2) (setExtent c2 0 erasedSource) := by
      unfold startErase
      dsimp only
      rw [hx]
      dsimp only [copySource]
      change noteSpares (spareExtents c2) (applyCut (if (mappedLexts (setExtent c2 0 erasedSource)).contains 0 = true then
        setExtent c2 0 erasedSource else jput (setExtent c2 0 erasedSource) (.unmap 0))) = _
      rw [if_pos hm, applyCut, if_pos (Or.inl (show (setExtent c2 0 erasedSource).flash.cutDue = 0 from hcut))]
    rw [hx3]
    refine SameMedia.trans ?_ (sameMedia_noteSpares _ _)
    exact ⟨hext,
      h2.objects.trans (by rw [← hc]; rfl), h2.writes.trans (by rw [← hc]; rfl), h2.lost.trans (by rw [← hc]; rfl),
      h2.heads.trans (by rw [← hc]; rfl), h2.cut.trans (by rw [← hc]; rfl), h2.variant.trans (by rw [← hc]; rfl),
      h2.state.trans (by rw [← hc]; rfl), h2.dies.trans (by rw [← hc]; rfl)⟩
  refine ⟨_, hs, ?_⟩
  rw [hends]
  generalize startErase c2 0 = d at hs ⊢
  have hfind : extOfLext d 0 = some 1 := by
    rw [extOfLext, hs.extents]
    decide +kernel
  have hlive : liveBytes d 0 ≠ 0 := by
    rw [liveBytes, hs.objects, hs.writes]
    decide +kernel
  unfold eraseIfDead
  rw [hfind]
  dsimp only
  rw [if_neg (fun h => hlive h.2.2)]

theorem extent_setExtent_same (c : Chip) (e : Nat) (x : Extent) : extent (setExtent c e x) e = x :=
  tget_tset_self _ _ _ _

/-- A copy of a closed extent starts to some spare. -/
theorem startCopy_copies {c : Chip} {e : Nat} (hs : (extent c e).state = .closed) (ht : (extent c e).copyTo = none)
    (hl : spareList c e ≠ []) : (extent (startCopy c e) e).copyTo ≠ none := by
  have hpos : 0 < (spareList c e).length := List.length_pos_iff.2 hl
  have hlt : (takeFree c).1 % max 1 (spareList c e).length < (spareList c e).length := by
    rw [Nat.max_eq_right hpos]
    exact Nat.mod_lt _ hpos
  have heq : startCopy c e = copyTo (takeFree c).2 e ((spareList c e)[(takeFree c).1 % max 1 (spareList c e).length]) := by
    unfold startCopy
    rw [if_neg (fun h => h.elim (fun h => h hs) (fun h => h ht))]
    dsimp only
    rw [show spareList (takeFree c).2 e = spareList c e from rfl, List.getElem?_eq_getElem hlt]
  rw [heq, copyTo]
  dsimp only
  rw [extent, (sameMedia_noteSpares _ _).extents]
  intro h
  rw [show ∀ (d : Chip) (x : Extent), tget extReset (setExtent d e x).flash.extents e = x from
    fun d x => extent_setExtent_same d e x] at h
  exact Option.some_ne_none _ h

/-- A write head stands on each die that is not lost. -/
theorem keepHeads_none {c : Chip}
    (h : ∀ d ∈ List.range (diesOf c.variant), d ∈ c.flash.lostDies ∨ (tfind c.flash.heads d).isSome) : keepHeads c = c := by
  unfold keepHeads
  split
  · rfl
  · generalize List.range (diesOf c.variant) = l at h
    induction l with
    | nil => rfl
    | cons d r ih =>
      rw [List.foldl_cons, if_pos (h d List.mem_cons_self)]
      exact ih fun x hx => h x (List.mem_cons_of_mem _ hx)

/-- A copy changes neither the dies nor their write heads. -/
theorem startCopy_heads (c : Chip) (e : Nat) : (startCopy c e).flash.heads = c.flash.heads ∧
    (startCopy c e).flash.lostDies = c.flash.lostDies ∧ (startCopy c e).variant = c.variant := by
  unfold startCopy
  dsimp only
  split
  · exact ⟨rfl, rfl, rfl⟩
  · split
    · exact ⟨rfl, rfl, rfl⟩
    · unfold copyTo
      dsimp only
      have h := sameMedia_noteSpares
      exact ⟨(h _ _).heads, (h _ _).lost, (h _ _).variant⟩

/-- The target of the ended copy is copied again. -/
theorem pumpFlash_recopied {d : Chip} (h : SameMedia recopied d) : (extent (pumpFlash d) 1).copyTo ≠ none := by
  have hx : extent d 1 = { copyTarget with state := .closed, copyTo := none } := by
    rw [extent, h.extents]
    rfl
  have hdies : 0 ∈ diesFor d (partOfDie d 0) := by
    have hzero : 0 ∈ diesFor d 0 := by
      rw [diesFor, h.variant, h.lost, h.dies]
      decide +kernel
    unfold partOfDie
    cases hf : parts8.find? (fun p => partHolds d p && decide (0 ∈ diesFor d p)) with
    | none => exact hzero
    | some p =>
      have hp : (partHolds d p && decide (0 ∈ diesFor d p)) = true :=
        List.find?_some (p := fun p => partHolds d p && decide (0 ∈ diesFor d p)) hf
      exact of_decide_eq_true (Bool.and_eq_true_iff.1 hp).2
  have hspare : 2 ∈ sparesOn d 0 := by
    have h2 : extent d 2 = extReset := by
      rw [extent, h.extents]
      rfl
    refine List.mem_filter.2 ⟨List.mem_map.2 ⟨2, List.mem_range.2 (by decide), rfl⟩, ?_⟩
    rw [h2]
    rfl
  have hl : spareList d 1 ≠ [] := List.ne_nil_of_mem (List.mem_flatMap.2 ⟨0, hdies, hspare⟩)
  have hpump : pumpCopies d = startCopy d 1 := by
    have hon : isOn d .flash = true := decide_eq_true (h.state.trans (by decide +kernel))
    unfold pumpCopies
    rw [if_neg (by rw [hon]; decide), h.extents]
    change List.foldl _ d [1] = _
    rw [List.foldl_cons, List.foldl_nil, hx, if_neg (fun h => Bool.false_ne_true h.1)]
  obtain ⟨hheads, hlost, hvar⟩ := startCopy_heads d 1
  rw [pumpFlash, hpump, keepHeads_none]
  · exact startCopy_copies (by rw [hx]) (by rw [hx]) hl
  · rw [hheads, hlost, hvar, h.heads, h.lost, h.variant]
    decide +kernel

/-- Refutes O35: extent 1 serves LEXT 0 from the end of the copy on, and is the source of a copy again. -/
theorem not_flashOperations : ¬ Obligations.FlashOperations := by
  rintro ⟨h, -⟩
  obtain ⟨-, -, hcopy, -⟩ := h (alone relisted) (by decide +kernel) (by decide +kernel) (by decide +kernel)
  obtain ⟨t, ht, -, -, hnone, -⟩ := hcopy 0 1 0 rfl rfl (by decide) rfl (by decide +kernel) rfl rfl
  have he : exec (.extentCopyDone 0) (alone relisted) =
      act (alone relisted) (fun c => whenAwake c (fun c => if isUp c .flash then endCopy c 0 else c)) := rfl
  obtain ⟨d, hd, hends⟩ := endCopy_relisted
  rw [act_whenAwake (by decide +kernel), if_pos (by decide +kernel)] at he
  have hs : t.toChip.flash = (pumpFlash d).flash := by
    have hnext := ht.symm.trans he
    change Host.Outcome.next t = Host.Outcome.next (after (alone relisted) (endCopy relisted 0)) at hnext
    rw [hends] at hnext
    rw [Host.Outcome.next.inj hnext]
    rfl
  rw [extent, hs] at hnone
  exact pumpFlash_recopied hd hnone

end Sys2Proof.Machine
end

section
/-! Sleep and wake (O55). -/

namespace Sys2Proof.Machine

open Sys2Proof.Safety

/-! ### Wakes (R495, R496) -/

/-- No frame waits for a wake. -/
abbrev NoneHeld (c : Chip) : Prop := c.peer.held = [] ∧ c.host.held = [] ∧ c.xpt.heldReqs = []

theorem deliverHeld_none {c : Chip} (hp : c.peer.held = []) (hh : c.host.held = []) : deliverHeld c = c := by
  have h1 : ({ c.peer with held := [] } : PeerUnit) = c.peer := hp ▸ rfl
  have h2 : ({ c.host with held := [] } : HostUnit) = c.host := hh ▸ rfl
  unfold deliverHeld
  dsimp only
  rw [hp, hh, h1, h2]
  rfl

theorem runHeldReqs_none {c : Chip} (h : c.xpt.heldReqs = []) : runHeldReqs c = c := by
  have h1 : ({ c.xpt with heldReqs := [] } : XptUnit) = c.xpt := h ▸ rfl
  unfold runHeldReqs
  split
  · rfl
  · rw [h, h1]
    rfl

/-- The chip with its fast domain in RUN. -/
def runningChip (c : Chip) : Chip := withChip c { c.chip with fast := .run, wakeFrom := .off }

/-- A wake as CLK records it: counted, with its duration and cause. -/
def wakeNoted (c : Chip) (cause us : Nat) : Chip :=
  setReg (bump c aCLK_WAKE_CNT 1) aCLK_LAST_WAKE (w32 (us % 2 ^ 16 * 2 ^ 16 + cause % 2 ^ 8))

/-- The event of a wake beyond its bound. -/
def wakeJudged (c : Chip) (late : Bool) : Chip := if late then raise c .clk 16 else c

/-- What a wake of a chip for which no frame waits leaves. -/
structure Woken (c d : Chip) (cause us : Nat) : Prop where
  quiet : Safety.quiet d = Safety.quiet (runningChip c)
  count : (reg d aCLK_WAKE_CNT).toNat = min ((reg c aCLK_WAKE_CNT).toNat + 1) 0xFFFFFFFF
  last : reg d aCLK_LAST_WAKE = w32 (us * 2 ^ 16 + cause)
  late : wakeBound (wakeState c) < us → bit (hdr d .clk).int 16 = true
  ctrl : reg d aCLK_CTRL = reg c aCLK_CTRL
  reqs : d.xpt.heldReqs = c.xpt.heldReqs

theorem wakeJudged_quiet (c : Chip) (late : Bool) : quiet (wakeJudged c late) = quiet c := by
  cases late
  · rfl
  · exact quiet_raise c .clk 16

theorem wakeJudged_mute (c : Chip) (late : Bool) : mute (wakeJudged c late) = mute c := by
  cases late
  · rfl
  · exact mute_raise c .clk 16

theorem wakeJudged_reg (c : Chip) (late : Bool) {a : Nat} (h : eventKey (rkey 0 a) = false) :
    reg (wakeJudged c late) a = reg c a := by
  cases late
  · rfl
  · exact (keepsRegs_raise c .clk 16).reg h

/-- A wake, with no frame that waits. -/
theorem wakeFast_woken {c : Chip} {cause us : Nat} (ha : asleep c = true) (hn : NoneHeld c) (hc : cause < 2 ^ 8)
    (hu : us < 2 ^ 16) : Woken c (wakeFast c cause us) cause us := by
  have hq : quiet (wakeNoted c cause us) = quiet c := by rw [wakeNoted, quiet_setReg, quiet_bump]
  have hcnt : (reg (wakeNoted c cause us) aCLK_WAKE_CNT).toNat = min ((reg c aCLK_WAKE_CNT).toNat + 1) 0xFFFFFFFF := by
    rw [wakeNoted, reg_setReg_other _ _ (by decide)]
    exact toNat_reg_bump c aCLK_WAKE_CNT 1
  have hlast : reg (wakeNoted c cause us) aCLK_LAST_WAKE = w32 (us * 2 ^ 16 + cause) := by
    rw [wakeNoted, reg_setReg_self, Nat.mod_eq_of_lt hu, Nat.mod_eq_of_lt hc]
  have hctrl : reg (wakeNoted c cause us) aCLK_CTRL = reg c aCLK_CTRL := by
    rw [wakeNoted, reg_setReg_other _ _ (by decide)]
    exact regKey_bump_other _ _ _ (by decide)
  have hreqs : (wakeNoted c cause us).xpt.heldReqs = c.xpt.heldReqs :=
    congrArg (·.xpt.heldReqs) (show mute (wakeNoted c cause us) = mute c by rw [wakeNoted, mute_setReg, mute_bump])
  have hw : wakeFast c cause us = deliverHeld (wakeJudged (runningChip (wakeNoted c cause us))
      (decide (wakeBound (wakeState c) < us))) := if_pos ha
  generalize wakeNoted c cause us = d at hq hcnt hlast hctrl hreqs hw
  have hqd : quiet (runningChip d) = quiet (runningChip c) := by
    rw [runningChip, quiet_withChip, hq, show d.chip = c.chip from congrArg (·.chip) hq]
    rfl
  have hqj := (wakeJudged_quiet (runningChip d) (decide (wakeBound (wakeState c) < us))).trans hqd
  obtain ⟨hp, hh, -⟩ := hn
  have hpeer : (wakeJudged (runningChip d) (decide (wakeBound (wakeState c) < us))).peer = c.peer := congrArg (·.peer) hqj
  have hhost : (wakeJudged (runningChip d) (decide (wakeBound (wakeState c) < us))).host = c.host := congrArg (·.host) hqj
  rw [hw, deliverHeld_none (by rw [hpeer]; exact hp) (by rw [hhost]; exact hh)]
  refine ⟨hqj, ?_, ?_, fun h => ?_, ?_, ?_⟩
  · rw [wakeJudged_reg _ _ (by decide)]
    exact hcnt
  · rw [wakeJudged_reg _ _ (by decide)]
    exact hlast
  · rw [decide_eq_true h]
    exact raise_int (runningChip d) .clk 16 (by decide)
  · rw [wakeJudged_reg _ _ (by decide)]
    exact hctrl
  · have hm := congrArg (·.xpt.heldReqs) (wakeJudged_mute (runningChip d) (decide (wakeBound (wakeState c) < us)))
    exact hm.trans hreqs

/-- What a wake shows in the registers of CLK. -/
abbrev ShowsWake (s t : State) (us cause : Nat) : Prop :=
  Counted s t aCLK_WAKE_CNT 1 ∧ reg t.toChip aCLK_LAST_WAKE = w32 (us * 2 ^ 16 + cause) ∧
    (wakeBound (wakeState s.toChip) < us → Event t .clk 16)

/-- The wakes that FAST_WAKE and HOUSEKEEPING_WAKE end. -/
theorem wakeDone_completes {i : Instr} {s : State} {cause us : Nat}
    (he : exec i s = .next (after s (wakeDone s.toChip cause us))) (hc : cause < 2 ^ 8) (hu : us < 2 ^ 16) :
    (nodeServes s.toChip = true → asleep s.toChip = true → NoneHeld s.toChip →
      Quietly i s (runningChip s.toChip) (fun t => ShowsWake s t us cause)) ∧
    ((nodeServes s.toChip = false ∨ asleep s.toChip = false) → exec i s = .next (after s s.toChip)) := by
  refine ⟨fun h1 h2 h3 => ?_, fun h => ?_⟩
  · have hw := wakeFast_woken h2 h3 hc hu
    have hd : wakeDone s.toChip cause us = wakeFast s.toChip cause us := by
      rw [wakeDone, h1, h2]
      exact runHeldReqs_none (hw.reqs.trans h3.2.2)
    rw [hd] at he
    generalize wakeFast s.toChip cause us = d at he hw
    exact ⟨_, he, after_pending _ _, (quiet_after s d).trans hw.quiet, hw.count, hw.last, hw.late⟩
  · have hf : (nodeServes s.toChip && asleep s.toChip) = false := by
      rcases h with h | h <;> rw [h]
      · rfl
      · exact Bool.and_false _
    rw [he, wakeDone, hf]
    rfl

/-! ### CTRL.WAKE and CTRL.HOLD (R495) -/

/-- The row of CLK.CTRL. -/
def rowClkCtrl : RegRow := ⟨0x050, 1, .none_, 0, [⟨1, 1, .rwt, 0⟩, ⟨0, 0, .wo, 0⟩]⟩

/-- CLK.CTRL as a write stores it. -/
def clkCtrlStored (c : Chip) (w : Word) : Chip := setKey c (rkey 0 aCLK_CTRL) 2 w

theorem clkCtrlStored_hold (c : Chip) (w : Word) : bit (reg (clkCtrlStored c w) aCLK_CTRL) 1 = bit w 1 := by
  rw [reg, clkCtrlStored, regKey_setKey_self]
  simp [bit]

theorem pageWrite_clk {c : Chip} {x : RegWr} (h : pageOf (x.a / 0x4000) = .clk) : pageWrite c x = writeClk c x := by
  unfold pageWrite
  rw [h]

/-- What follows the write of CLK.CTRL: a wake of a sleeping chip, if the write asks for one. -/
def clkWritten (c : Chip) (w : Word) (us : Nat) : Chip :=
  if (bit w 0 ∨ bit w 1) ∧ sleeping c = true ∧ nodeServes c = true then wakeFast (clkCtrlStored c w) 3 us
  else clkCtrlStored c w

theorem mgmtWrite_clkCtrl {c : Chip} {r : Requester} (w : Word) (us : Nat) (h : Reaches c r .clk) :
    mgmtWriteWith c r { noArgs with us := some us } aCLK_CTRL w =
      keepStatus (answer (clkWritten (setArmed c r .clk false) w us) stOK 0) r stOK := by
  obtain ⟨x, hx, hw⟩ := mgmtWriteWith_rule (a := aCLK_CTRL) (row := rowClkCtrl) { noArgs with us := some us } w h (by decide)
    rfl rfl (fun hg => absurd hg (by decide))
  have hst : storeReg (setArmed c r .clk false) x = clkCtrlStored (setArmed c r .clk false) w := by
    rw [storeReg_single _ hx.lo, hx.bank, hx.addr, hx.row, hx.new]
    rfl
  rw [show pageOf (aCLK_CTRL / 0x4000) = .clk from rfl, pageWrite_clk (by rw [hx.addr]; rfl)] at hw
  have hrule : writeClk (setArmed c r .clk false) x = (stOK, clkWritten (setArmed c r .clk false) w us) := by
    have hs : ∀ d : Chip, sleeping (clkCtrlStored d w) = sleeping d := fun _ => rfl
    have hn : ∀ d : Chip, nodeServes (clkCtrlStored d w) = nodeServes d := fun _ => rfl
    unfold writeClk clkWritten wakeByWrite
    rw [hst, hx.addr, plainBit, hx.plain, hx.raw, hx.new, hx.args]
    dsimp only
    rw [hs, hn, Bool.true_and]
    generalize setArmed c r .clk false = d
    by_cases h1 : bit w 0 = true ∨ bit w 1 = true
    · rw [if_pos ⟨rfl, h1⟩]
      by_cases h2 : sleeping d = true ∧ nodeServes d = true
      · rw [if_pos (⟨h1, h2⟩ : _ ∧ _), if_pos (Bool.and_eq_true_iff.2 h2)]
      · rw [if_neg (fun h : _ ∧ _ => h2 h.2), if_neg (fun h => h2 (Bool.and_eq_true_iff.1 h))]
    · rw [if_neg (fun h : _ ∧ _ => h1 h.2), if_neg (fun h : _ ∧ _ => h1 h.1)]
  rw [hrule] at hw
  exact hw

/-- The wake that a write of CLK.CTRL asks for. -/
abbrev Wakes (c : Chip) (w : Word) : Prop := (bit w 0 ∨ bit w 1) ∧ sleeping c = true ∧ nodeServes c = true

/-- What a write of CLK.CTRL leaves: HOLD as written, and the wake or nothing else. -/
theorem clkCtrl_written {i : Instr} {s : State} {r : Requester} {w : Word} {us : Nat}
    (he : exec i s = .next (after s (mgmtWriteWith s.toChip r { noArgs with us := some us } aCLK_CTRL w)))
    (h : Reaches s.toChip r .clk) (hu : us < 2 ^ 16) :
    (Wakes s.toChip w → NoneHeld s.toChip → Accepted i s r (runningChip s.toChip) (fun t =>
      ShowsWake s t us 3 ∧ bit (reg t.toChip aCLK_CTRL) 1 = bit w 1)) ∧
    (¬ Wakes s.toChip w → Accepted i s r s.toChip (fun t => bit (reg t.toChip aCLK_CTRL) 1 = bit w 1 ∧
        reg t.toChip aCLK_LAST_WAKE = reg s.toChip aCLK_LAST_WAKE)) := by
  rw [mgmtWrite_clkCtrl w us h] at he
  have hd := desk_setArmed s.toChip r .clk false
  have hr := reg_setArmed s.toChip r .clk false
  have hf := flt_setArmed s.toChip r .clk false
  have hx : (setArmed s.toChip r .clk false).xpt = s.xpt := by cases r <;> rfl
  generalize setArmed s.toChip r .clk false = c at he hd hr hf hx
  have hchip := chip_of_desk hd
  have hpwr : c.pwr = s.pwr := congrArg (·.pwr) hd
  have hpeer : c.peer = s.peer := congrArg (·.peer) hd
  have hhost : c.host = s.host := congrArg (·.host) hd
  have hwk : Wakes c w ↔ Wakes s.toChip w := by
    unfold Wakes sleeping nodeServes
    rw [hchip, hpwr, hf]
  have hds : desk (clkCtrlStored c w) = desk s.toChip := (desk_of_quiet (quiet_setKey ..)).trans hd
  have hhold := clkCtrlStored_hold c w
  have hother : ∀ a, rkey 0 a ≠ rkey 0 aCLK_CTRL → reg (clkCtrlStored c w) a = reg s.toChip a := fun a ha =>
    (regKey_setKey_other _ _ _ _ _ ha).trans (hr a)
  refine ⟨fun hw hn => ?_, fun hw => ?_⟩
  · rw [clkWritten, if_pos (hwk.2 hw)] at he
    have has : asleep (clkCtrlStored c w) = true := by
      have hsl : c.chip.fast = .nap ∨ c.chip.fast = .deep := of_decide_eq_true (hwk.2 hw).2.1
      exact decide_eq_true (hsl.elim .inl (fun h => .inr (.inl h)))
    have hwoke := wakeFast_woken (c := clkCtrlStored c w) (cause := 3) has
      ⟨(congrArg (·.held) hpeer).trans hn.1, (congrArg (·.held) hhost).trans hn.2.1,
        (congrArg (·.heldReqs) hx).trans hn.2.2⟩ (by decide) hu
    have hstate : wakeState (clkCtrlStored c w) = wakeState s.toChip := by
      rw [wakeState, wakeState, ← hchip]
      rfl
    generalize wakeFast (clkCtrlStored c w) 3 us = d at he hwoke
    refine answered_after (y := (stOK, d)) he rfl ?_ ⟨⟨?_, ?_, fun hl => ?_⟩, ?_⟩
    · rw [desk_of_quiet hwoke.quiet, runningChip, desk_withChip, hds, chip_of_desk hds]
      rfl
    · rw [Counted, reg_answered, hwoke.count, hother _ (by decide)]
    · rw [reg_answered]
      exact hwoke.last
    · rw [Event, hdr_answered]
      exact hwoke.late (by rw [hstate]; exact hl)
    · rw [reg_answered, hwoke.ctrl]
      exact hhold
  · rw [clkWritten, if_neg (fun h => hw (hwk.1 h))] at he
    refine answered_after (y := (stOK, clkCtrlStored c w)) he rfl hds ⟨?_, ?_⟩
    · rw [reg_answered]
      exact hhold
    · rw [reg_answered]
      exact hother _ (by decide)

/-- A field of one bit. -/
theorem fld_one (w : Word) (n : Nat) : fld w n n = b2n (bit w n) := by
  rw [fld, bit, BitVec.getLsbD, Nat.sub_self, Nat.zero_add, pow_one, Nat.shiftRight_eq_div_pow, ← Nat.toNat_testBit]
  cases w.toNat.testBit n <;> rfl

/-- CLK_WAKE and CLK_HOLD. -/
theorem clkWakes {s : State} {r : Requester} (us : BitVec 16) (h : Reaches s.toChip r .clk) :
    let hold := bit (reg s.toChip aCLK_CTRL) 1
    let held := fun (b : Bool) (t : State) => bit (reg t.toChip aCLK_CTRL) 1 = b
    (nodeServes s.toChip = true → sleeping s.toChip = true → NoneHeld s.toChip →
      Accepted (.clkWake r us) s r (runningChip s.toChip) (fun t => ShowsWake s t us.toNat 3 ∧ held hold t) ∧
      Accepted (.clkHold r true us) s r (runningChip s.toChip) (fun t => ShowsWake s t us.toNat 3 ∧ held true t)) ∧
    ((nodeServes s.toChip = false ∨ sleeping s.toChip = false) →
      Accepted (.clkWake r us) s r s.toChip (fun t => held hold t ∧
        reg t.toChip aCLK_LAST_WAKE = reg s.toChip aCLK_LAST_WAKE) ∧
      Accepted (.clkHold r true us) s r s.toChip (held true)) ∧
    Accepted (.clkHold r false us) s r s.toChip (held false) := by
  have hset : ∀ b, exec (.clkHold r b us) s = .next (after s (mgmtWriteWith s.toChip r { noArgs with us := some us.toNat }
      aCLK_CTRL (w32 (2 * b2n b)))) := fun _ => rfl
  have hwake : exec (.clkWake r us) s = .next (after s (mgmtWriteWith s.toChip r { noArgs with us := some us.toNat }
      aCLK_CTRL (w32 (1 + 2 * fld (reg s.toChip aCLK_CTRL) 1 1)))) := rfl
  have hbits : ∀ b, bit (w32 (2 * b2n b)) 0 = false ∧ bit (w32 (2 * b2n b)) 1 = b ∧ bit (w32 (1 + 2 * b2n b)) 0 = true ∧
      bit (w32 (1 + 2 * b2n b)) 1 = b := by decide
  rw [show fld (reg s.toChip aCLK_CTRL) 1 1 = b2n (bit (reg s.toChip aCLK_CTRL) 1) from fld_one _ _] at hwake
  intro hold held
  change exec (.clkWake r us) s = .next (after s (mgmtWriteWith s.toChip r { noArgs with us := some us.toNat }
      aCLK_CTRL (w32 (1 + 2 * b2n hold)))) at hwake
  obtain ⟨-, -, hw0, hw1⟩ := hbits hold
  obtain ⟨-, ht1, -, -⟩ := hbits true
  obtain ⟨hf0, hf1, -, -⟩ := hbits false
  have hW := clkCtrl_written hwake h us.isLt
  have hT := clkCtrl_written (hset true) h us.isLt
  have hF := clkCtrl_written (hset false) h us.isLt
  rw [hw1] at hW
  rw [ht1] at hT
  rw [hf1] at hF
  have drop : ∀ {i : Instr} {b : Bool}, Accepted i s r s.toChip (fun t => held b t ∧
      reg t.toChip aCLK_LAST_WAKE = reg s.toChip aCLK_LAST_WAKE) → Accepted i s r s.toChip (held b) :=
    fun ⟨t, h1, h2, h3, h4, h5, h6⟩ => ⟨t, h1, h2, h3, h4, h5, h6.1⟩
  refine ⟨fun hn hs hf => ⟨hW.1 ⟨.inl hw0, hs, hn⟩ hf, hT.1 ⟨.inr ht1, hs, hn⟩ hf⟩, fun hn => ?_,
    drop (hF.2 fun hw => hw.1.elim (by rw [hf0]; exact Bool.false_ne_true) (by rw [hf1]; exact Bool.false_ne_true))⟩
  have hnot : ∀ w, ¬ Wakes s.toChip w := fun w ⟨_, h1, h2⟩ =>
    hn.elim (fun h => by rw [h] at h2; cases h2) (fun h => by rw [h] at h1; cases h1)
  exact ⟨hW.2 (hnot _), drop (hT.2 (hnot _))⟩

/-! ### NAP and DEEP (R493, R494) -/

/-- NAP_ENTRY. -/
theorem napEnters {s : State} (ha : Awake s.toChip) (hc : s.fig.committed = []) :
    let may := s.chip.fast = .run ∧ 1 ≤ maxSleep s.toChip ∧ idleChip s.toChip = true ∧ s.chip.bootDone = true
    (may → exec .napEntry s = .next (after s { s.toChip with chip := { s.chip with fast := .nap } })) ∧
    (¬ may → exec .napEntry s = .next (after s s.toChip)) := by
  have he : exec .napEntry s = act s (fun c => whenAwake c napEntry) := rfl
  rw [act_whenAwake ha, napEntry, settle_idle hc] at he
  intro may
  exact ⟨fun h => by rw [he, if_pos h], fun h => by rw [he, if_neg h]⟩

/-- A core whose stores lost their contents. -/
def coreLost (fill : Nat) (k : Core) : Core := { k with store := [], fill := fill, paramFill := 0, programs := [] }

theorem tfind_map {α β : Type} (f : α → β) (l : Tbl α) (k : Nat) :
    tfind (l.map fun e => (e.1, f e.2)) k = (tfind l k).map f := by
  induction l with
  | nil => rfl
  | cons e r ih =>
    rw [List.map_cons, tfind, tfind]
    split
    · rfl
    · exact ih

/-- DEEP_ENTRY. -/
theorem deepEnters {s : State} (hm : minuetOn s.toChip = true) :
    let may := s.chip.fast = .nap ∧ maxSleep s.toChip = 2 ∧ idleChip s.toChip = true
    (may → Completes .deepEntry s (fun t => t.chip = { s.chip with fast := .deep } ∧ Counted s t aCLK_DEEP_CNT 1 ∧
      (∀ n, (coreAt t.toChip n).store = [] ∧ (coreAt t.toChip n).programs = [] ∧
        (coreAt t.toChip n).state = (coreAt s.toChip n).state) ∧ t.mem = s.mem ∧ t.sess = s.sess)) ∧
    (¬ may → exec .deepEntry s = .next (after s s.toChip)) := by
  have he : exec .deepEntry s = .next (after s (whenMinuet s.toChip deepEntry)) := rfl
  rw [whenMinuet, if_pos hm, deepEntry] at he
  intro may
  refine ⟨fun h => ?_, fun h => by rw [he, if_neg h]⟩
  rw [if_pos h] at he
  have hq := quiet_bump s.toChip aCLK_DEEP_CNT 1
  have hcnt := toNat_reg_bump s.toChip aCLK_DEEP_CNT 1
  generalize bump s.toChip aCLK_DEEP_CNT 1 = c at he hq hcnt
  have hgrid : c.grid = s.grid := congrArg (·.grid) hq
  have hchip : c.chip = s.chip := congrArg (·.chip) hq
  refine ⟨_, he, after_pending _ _, ?_, hcnt, fun n => ?_, congrArg (·.mem) hq, congrArg (·.sess) hq⟩
  · exact congrArg (fun h : ChipUnit => { h with fast := .deep }) hchip
  · have hcore : coreAt (after s { c with
        free := c.free + 1
        grid := { c.grid with cores := c.grid.cores.map (fun k => (k.1, coreLost (c.free + 1) k.2)) }
        chip := { c.chip with fast := .deep } }).toChip n =
        ((tfind s.grid.cores n).map (coreLost (c.free + 1))).getD coreReset := by
      rw [← tfind_map, ← hgrid]
      rfl
    refine (congrArg (fun k : Core => k.store = [] ∧ k.programs = [] ∧ k.state = (coreAt s.toChip n).state) hcore).mpr ?_
    rw [coreAt, tget]
    cases tfind s.grid.cores n with
    | none => exact ⟨rfl, rfl, rfl⟩
    | some k => exact ⟨rfl, rfl, rfl⟩

/-- Settles O55: the sleeps, the wakes that the domain ends, and the wakes by a write of CLK.CTRL. -/
theorem sleepAndWake : Obligations.SleepAndWake := by
  intro s hm
  have hfast : ∀ (cause : Byte) (us : BitVec 16), exec (.fastWake cause us) s =
      .next (after s (wakeDone s.toChip cause.toNat us.toNat)) := fun cause us => by
    have he : exec (.fastWake cause us) s =
      .next (after s (whenMinuet s.toChip (fun c => wakeDone c cause.toNat us.toNat))) := rfl
    rw [he, whenMinuet, if_pos hm]
  have hhouse : ∀ us : BitVec 16, exec (.housekeepingWake us) s = .next (after s (wakeDone s.toChip 6 us.toNat)) := fun us => by
    have he : exec (.housekeepingWake us) s =
      .next (after s (whenMinuet s.toChip (fun c => wakeDone c 6 us.toNat))) := rfl
    rw [he, whenMinuet, if_pos hm]
  refine ⟨fun ha hc => napEnters ha hc, deepEnters hm, fun cause us => ?_, fun r us h => clkWakes us h⟩
  obtain ⟨h1, h2⟩ := wakeDone_completes (hfast cause us) cause.isLt us.isLt
  obtain ⟨h3, h4⟩ := wakeDone_completes (hhouse us) (by decide) us.isLt
  exact ⟨fun a b c => ⟨h1 a b c, h3 a b c⟩, fun h => ⟨h2 h, h4 h⟩⟩

end Sys2Proof.Machine
end

section
/-! In-band frames and unlocks (O9). -/

namespace Sys2Proof.Machine

open Sys2Proof.Safety

/-! ### Frames (R337) -/

/-- A frame that its connection takes while the fast domain runs. -/
theorem mgmtReq_runs {s : State} {n : Conn} (f : List Byte) (h : connTakes s.toChip n.toNat = true) (hr : s.chip.fast = .run) :
    exec (.mgmtReq n f) s = .next (after s (mgmtFrame s.toChip n.toNat f)) := by
  have he : exec (.mgmtReq n f) s = .next (after s (mgmtArrives s.toChip n.toNat f)) := rfl
  have ha : asleep s.toChip = false := by rw [asleep, hr]; rfl
  have hf : fastRuns s.toChip = true := decide_eq_true hr
  rw [he, mgmtArrives, if_neg (by rw [h]; exact fun x => Bool.false_ne_true x.symm), if_neg (by rw [ha]; exact Bool.false_ne_true), if_pos hf]

/-- A frame that comes while the fast domain sleeps is kept, and a wake begins. -/
theorem mgmtReq_kept {s : State} {n : Conn} (f : List Byte) (h : connTakes s.toChip n.toNat = true)
    (hs : s.chip.fast = .nap ∨ s.chip.fast = .deep) :
    exec (.mgmtReq n f) s = .next (after s { s.toChip with
      chip := { s.chip with fast := .waking, wakeFrom := s.chip.fast }
      xpt := { s.xpt with heldReqs := s.xpt.heldReqs ++ [(n.toNat, f)] } }) := by
  have he : exec (.mgmtReq n f) s = .next (after s (mgmtArrives s.toChip n.toNat f)) := rfl
  have ha : asleep s.toChip = true := decide_eq_true (hs.elim .inl (fun x => .inr (.inl x)))
  have hsl : sleeping s.toChip = true := decide_eq_true hs
  rw [he, mgmtArrives, if_neg (by rw [h]; exact fun x => Bool.false_ne_true x.symm), if_pos ha, startWake, if_pos hsl]

/-- Every entry of an answer with one code. -/
theorem respEntry_zero (code : Byte) : respEntry code 0 = [code, 0, 0, 0, 0, 0, 0, 0] := rfl

/-- What a frame that runs is answered. -/
theorem mgmtFrame_answers (c : Chip) (n : Nat) (f : List Byte) :
    let k := rdLE f 0 1
    let tells := fun (d : Chip) (l : List Byte) =>
      mgmtFrame c n f = sendMsg d n 6 ([BitVec.ofNat 8 k, 0, 0, 0] ++ slice f 4 4 ++ l)
    let all := fun (code : Byte) => (List.range k).flatMap (fun _ => [code, 0, 0, 0, 0, 0, 0, 0])
    let ran := frameRun n (chunksOf k 12 (f.drop 8)) (c, [])
    (f.length < 8 → mgmtFrame c n f = c) ∧
    (8 ≤ f.length → (k = 0 ∨ f.length ≠ 8 + 12 * k) → tells c (all 0x23)) ∧
    (0 < k → f.length = 8 + 12 * k → (conn c n).mgmt = false → tells c (all 0x21)) ∧
    (0 < k → f.length = 8 + 12 * k → (conn c n).mgmt = true → tells ran.1 ran.2) := by
  intro k tells all ran
  refine ⟨fun h => if_pos h, fun h hk => ?_, fun h hk hm => ?_, fun h hk hm => ?_⟩
  · exact (if_neg (Nat.not_lt.2 h)).trans (if_pos hk)
  · exact (if_neg (by omega)).trans ((if_neg (by omega)).trans (if_pos hm))
  · exact (if_neg (by omega)).trans ((if_neg (by omega)).trans (if_neg (by rw [hm]; exact fun x => Bool.false_ne_true x.symm)))

/-! ### The accesses of a frame -/

theorem leNat_lt (l : List Byte) : leNat l < 256 ^ l.length := by
  induction l with
  | nil => exact Nat.one_pos
  | cons b r ih =>
    have hb := b.isLt
    rw [leNat, List.length_cons, Nat.pow_succ]
    omega

theorem toNat_rdLE (l : List Byte) (o : Nat) : (w32 (rdLE l o 4)).toNat = rdLE l o 4 := by
  have h := leNat_lt ((l.drop o).take 4)
  have hl : ((l.drop o).take 4).length ≤ 4 := List.length_take_le ..
  have hp : 256 ^ ((l.drop o).take 4).length ≤ 256 ^ 4 := Nat.pow_le_pow_right (by decide) hl
  rw [w32, BitVec.toNat_ofNat]
  exact Nat.mod_eq_of_lt (lt_of_lt_of_le h hp)

/-- An access of a frame is LO_READ or REGISTER_WRITE of its connection. -/
theorem frameAccess_runs {s : State} {n : Conn} (e : List Byte) (h : requesterUp s.toChip (.conn n) = true) :
    (rdLE e 0 1 = 1 → exec (.loRead (.conn n) (w32 (rdLE e 4 4))) s = .next (after s (frameAccess s.toChip n.toNat e))) ∧
    (rdLE e 0 1 = 2 → exec (.registerWrite (.conn n) (w32 (rdLE e 4 4)) (w32 (rdLE e 8 4))) s =
      .next (after s (frameAccess s.toChip n.toNat e))) ∧
    (rdLE e 0 1 ≠ 1 → rdLE e 0 1 ≠ 2 → frameAccess s.toChip n.toNat e = answer s.toChip rejLimit 0) := by
  have hn : BitVec.ofNat 14 n.toNat = n := by rw [BitVec.ofNat_toNat, BitVec.setWidth_eq]
  have hup : ¬ requesterUp s.toChip (.conn (BitVec.ofNat 14 n.toNat)) = false := by
    rw [hn, h]
    exact fun x => Bool.false_ne_true x.symm
  unfold frameAccess
  dsimp only
  rw [if_neg hup, hn]
  refine ⟨fun h1 => ?_, fun h2 => ?_, fun h1 h2 => ?_⟩
  · have he : exec (.loRead (.conn n) (w32 (rdLE e 4 4))) s =
      .next (after s (mgmtRead s.toChip (.conn n) (w32 (rdLE e 4 4)).toNat)) := rfl
    rw [he, toNat_rdLE, if_pos h1]
  · have he : exec (.registerWrite (.conn n) (w32 (rdLE e 4 4)) (w32 (rdLE e 8 4))) s =
      .next (after s (mgmtWrite s.toChip (.conn n) (w32 (rdLE e 4 4)).toNat (w32 (rdLE e 8 4)))) := rfl
    rw [he, toNat_rdLE, if_neg (by omega), if_pos h2]
  · rw [if_neg h1, if_neg h2]

/-! ### Unlocks (R25) -/

/-- Only the unlock of a requester on a page. -/
structure OneUnlock (c d : Chip) (r : Requester) (p : Page) (on : Bool) : Prop where
  armed : armed d r p = on
  others : ∀ q, q ≠ p → Machine.armed d r q = Machine.armed c r q
  requesters : ∀ r', r' ≠ r → reqState d r' = reqState c r'
  regs : ∀ k, regKey d k = regKey c k
  xpt : d.xpt = c.xpt
  egr : d.egr = c.egr
  flt : d.flt = c.flt
  hdrs : ∀ q, hdr d q = hdr c q

theorem reqState_setReqState_self (c : Chip) (r : Requester) (x : ReqState) : reqState (setReqState c r x) r = x := by
  cases r with
  | sideband => rfl
  | conn n => exact tget_tset_self _ _ _ _

theorem reqState_setReqState_other (c : Chip) (x : ReqState) {r r' : Requester} (h : r' ≠ r) :
    reqState (setReqState c r x) r' = reqState c r' := by
  cases r with
  | sideband =>
    cases r' with
    | sideband => exact absurd rfl h
    | conn m => rfl
  | conn n =>
    cases r' with
    | sideband => rfl
    | conn m => exact tget_tset_other _ _ _ _ _ fun e => h (congrArg _ (BitVec.eq_of_toNat_eq e))

theorem setArmed_one (c : Chip) (r : Requester) (p : Page) (on : Bool) : OneUnlock c (setArmed c r p on) r p on := by
  have hin : ∀ q, pageIdx q ∈ (reqState (setArmed c r p on) r).unlocked ↔
      (q = p ∧ on = true) ∨ (q ≠ p ∧ pageIdx q ∈ (reqState c r).unlocked) := fun q => by
    have hf : ∀ l : List Nat, pageIdx q ∈ l.filter (fun i => i ≠ pageIdx p) ↔ q ≠ p ∧ pageIdx q ∈ l := fun l => by
      rw [List.mem_filter, decide_eq_true_eq, and_comm]
      exact and_congr_left' (not_congr ⟨pageIdx_inj, congrArg pageIdx⟩)
    rw [setArmed, reqState_setReqState_self]
    cases on
    · rw [if_neg Bool.false_ne_true, hf]
      simp
    · rw [if_pos rfl, mem_insertBy, hf]
      exact or_congr_left ⟨fun h => ⟨pageIdx_inj h, rfl⟩, fun h => congrArg pageIdx h.1⟩
  refine ⟨?_, fun q hq => ?_, fun r' h => reqState_setReqState_other c _ h, fun k => regKey_setArmed .., ?_, ?_, ?_, fun q => ?_⟩
  · refine Bool.eq_iff_iff.2 (decide_eq_true_iff.trans ((hin p).trans ?_))
    exact ⟨fun h => h.elim (·.2) (fun x => absurd rfl x.1), fun h => .inl ⟨rfl, h⟩⟩
  · exact decide_eq_decide.2 ((hin q).trans ⟨fun h => h.elim (fun x => absurd x.1 hq) (·.2), fun h => .inr ⟨hq, h⟩⟩)
  · cases r <;> rfl
  · cases r <;> rfl
  · cases r <;> rfl
  · cases r <;> rfl

/-- BLK_UNLOCK writes the unlock of its page. -/
theorem mgmtWrite_unlock {c : Chip} {r : Requester} {p : Page} (w : Word) (h : Reaches c r p) :
    mgmtWrite c r (hdrAddr p 0x1C) w = keepStatus (answer (setArmed c r p (decide (w = 0xC0DA))) stOK 0) r stOK := by
  have hp : pageOf (hdrAddr p 0x1C / 0x4000) = p := by cases p <;> rfl
  have hl : hdrAddr p 0x1C < 0x64000 ∧ hdrAddr p 0x1C % 4 = 0 := by cases p <;> decide
  have ho : baseAddr (hdrAddr p 0x1C) % 0x4000 = 0x1C := by cases p <;> rfl
  have ha : aliasOf (hdrAddr p 0x1C) = .plain := by cases p <;> rfl
  unfold mgmtWrite mgmtWriteWith
  rw [if_neg (by rw [h.1]; exact fun x => Bool.false_ne_true x.symm), gate_ok true h hp hl.2 hl.1]
  dsimp only
  rw [if_neg (fun x => x rfl), writeAt, hp, ho, ha, if_pos ⟨rfl, rfl⟩]

/-- A guarded register has no key that an event may change. -/
theorem eventKey_guarded {a b : Nat} {row : RegRow} (hl : a < 0x64000) (hr : rowOf a = some row) (hg : rowGuarded row = true) :
    eventKey (rkey b a) = false := by
  have hne : ∀ x, (∀ y, rowOf x = some y → rowGuarded y = false) → a ≠ x := fun x hx e => by
    rw [hx row (e ▸ hr)] at hg
    cases hg
  refine eventKey_rkey (lt_of_lt_of_le hl (by decide)) (hne _ fun y hy => ?_) (hne _ fun y hy => ?_) (hne _ fun y hy => ?_)
  · cases hy; rfl
  · cases hy; rfl
  · cases hy; rfl

theorem reqState_answered (s : State) (c : Chip) (r r' : Requester) (n : Nat) (d : Word) :
    reqState (after s (keepStatus (answer c n d) r n)).toChip r' = reqState c r' := by
  cases r <;> cases r' <;> rfl

theorem xpt_answered (s : State) (c : Chip) (r : Requester) (n : Nat) (d : Word) :
    (after s (keepStatus (answer c n d) r n)).xpt = c.xpt := by cases r <;> rfl

theorem egr_answered (s : State) (c : Chip) (r : Requester) (n : Nat) (d : Word) :
    (after s (keepStatus (answer c n d) r n)).egr = c.egr := by cases r <;> rfl

/-- Settles O9: the frames, their accesses, the unlocks, and the guarded write without one. -/
theorem framesAndUnlocks : Obligations.FramesAndUnlocks := by
  refine ⟨fun s n f h => ⟨fun hr => ?_, mgmtReq_kept f h⟩, fun s n e rest l => ⟨rfl, ?_, fun h => ?_⟩, fun s r p data => ?_⟩
  · obtain ⟨h1, h2, h3, h4⟩ := mgmtFrame_answers s.toChip n.toNat f
    rw [mgmtReq_runs f h hr]
    exact ⟨fun h => by rw [h1 h], fun h hk => by rw [h2 h hk], fun h hk hm => by rw [h3 h hk hm],
      fun h hk hm => by rw [h4 h hk hm]⟩
  · rw [frameRun, respEntry, ← List.append_assoc]
  · exact frameAccess_runs e h
  · refine ⟨fun h => ?_, fun hm => ?_, fun addr row h hp h4 hl h40 h1 hr hpair hg hu => ?_⟩
    · have he : exec (.blkUnlock r p data) s = .next (after s (mgmtWrite s.toChip r (hdrAddr p 0x1C) data)) := rfl
      rw [mgmtWrite_unlock data h] at he
      have ho := setArmed_one s.toChip r p (decide (data = 0xC0DA))
      have hd := desk_setArmed s.toChip r p (decide (data = 0xC0DA))
      generalize setArmed s.toChip r p (decide (data = 0xC0DA)) = d at he ho hd
      refine answered_after (y := (stOK, d)) he rfl hd ⟨?_, fun q hq => ?_, fun r' h' => ?_, fun k => ?_, ?_, ?_, ?_, fun q => ?_⟩
      · exact (congrArg (fun x : ReqState => decide (pageIdx p ∈ x.unlocked)) (reqState_answered ..)).trans ho.armed
      · exact (congrArg (fun x : ReqState => decide (pageIdx q ∈ x.unlocked)) (reqState_answered ..)).trans (ho.others q hq)
      · exact (reqState_answered ..).trans (ho.requesters r' h')
      · exact (regKey_drive ..).trans (ho.regs k)
      · exact (xpt_answered ..).trans ho.xpt
      · exact (egr_answered ..).trans ho.egr
      · exact (flt_drive ..).trans ho.flt
      · rw [hdr_answered]
        exact ho.hdrs q
    · have he : exec (.unlockLapse r p) s =
        .next (after s (if minuetOn s.toChip then setArmed s.toChip r p false else s.toChip)) := rfl
      rw [if_pos hm] at he
      obtain ⟨h1, h2, h3, h4, h5, h6, h7, h8⟩ := setArmed_one s.toChip r p false
      exact ⟨_, he, after_pending _ _, ⟨h1, h2, h3, h4, h5, h6, h7, h8⟩, (desk_drivePins _).trans (desk_setArmed ..)⟩
    · have hplain : plainReg addr.toNat = true := by
        simp only [plainReg, Bool.and_eq_true, decide_eq_true_eq]
        exact ⟨⟨⟨h4, hl⟩, h40⟩, h1⟩
      have he : exec (.registerWrite r addr data) s = .next (after s (mgmtWrite s.toChip r addr.toNat data)) := rfl
      obtain ⟨t, ht, hpe, hacc, hlast, hd, hev, hk⟩ := guarded_refused he hp.symm h hplain hr hpair hg hu
      exact ⟨t, ht, hpe, hacc, hlast, hd, hev, hk.regB (eventKey_guarded hl hr hg)⟩

end Sys2Proof.Machine
end

section
/-! SOFT_RESET, and the ends of drains and self-tests (O11). -/

namespace Sys2Proof.Machine

open Sys2Proof.Safety

/-! ### Work that waits

What a SOFT_RESET does to a block leaves the operations, revivals and figures of an idle chip as they are: none. -/

/-- The operations, revivals, heap requests and figures that wait, with the variant of the module. -/
def pendingWork (c : Chip) :
    List (Nat × List Op) × List Revival × List Nat × List Committed × List Figure × Variant :=
  (c.sess.ops, c.tier.revivals, c.tier.pressing, c.fig.committed, c.fig.waiting, c.variant)

theorem work_of_quiet {c d : Chip} (h : quiet d = quiet c) : pendingWork d = pendingWork c := by
  have := congrArg pendingWork h
  exact this

theorem work_foldl {α : Type} (f : Chip → α → Chip) (h : ∀ c x, pendingWork (f c x) = pendingWork c) (l : List α) (c : Chip) :
    pendingWork (l.foldl f c) = pendingWork c := by
  induction l generalizing c with
  | nil => rfl
  | cons x r ih => exact (ih (f c x)).trans (h c x)

theorem work_raise (c : Chip) (p : Page) (b : Nat) : pendingWork (raise c p b) = pendingWork c :=
  work_of_quiet (quiet_raise c p b)
theorem work_setReg (c : Chip) (a : Nat) (v : Word) : pendingWork (setReg c a v) = pendingWork c :=
  work_of_quiet (quiet_setReg c a v)
theorem work_setFld (c : Chip) (a hi lo v : Nat) : pendingWork (setFld c a hi lo v) = pendingWork c :=
  work_of_quiet (quiet_setFld c a hi lo v)
theorem work_bump (c : Chip) (a n : Nat) : pendingWork (bump c a n) = pendingWork c := work_of_quiet (quiet_bump c a n)
theorem work_bumpPair (c : Chip) (a n : Nat) : pendingWork (bumpPair c a n) = pendingWork c :=
  work_of_quiet (quiet_bumpPair c a n)
theorem work_sendMsg (c : Chip) (n cls : Nat) (b : List Byte) : pendingWork (sendMsg c n cls b) = pendingWork c :=
  work_of_quiet (quiet_sendMsg c n cls b)

/-! ### Objects of flash that are freed -/

theorem work_jput (c : Chip) (r : JRec) : pendingWork (jput c r) = pendingWork c := by
  unfold jput
  dsimp only
  rw [work_bumpPair]
  rfl

theorem work_setExtent (c : Chip) (e : Nat) (x : Extent) : pendingWork (setExtent c e x) = pendingWork c := rfl

theorem work_noteSpares (was : Nat) (c : Chip) : pendingWork (noteSpares was c) = pendingWork c := by
  unfold noteSpares
  split
  · exact work_raise ..
  · rfl

theorem work_applyCut (c : Chip) : pendingWork (applyCut c) = pendingWork c := by
  unfold applyCut
  split
  · rfl
  · dsimp only
    rw [work_raise, work_jput]
    rfl

theorem work_spareReaction (c : Chip) (was : Nat) : pendingWork (spareReaction c was) = pendingWork c := by
  unfold spareReaction
  dsimp only
  split
  · exact work_noteSpares was c
  · split
    · split
      · exact work_noteSpares was c
      · rw [work_raise, work_setFld, work_noteSpares]
    · split
      · rw [work_applyCut]
        exact work_noteSpares was c
      · exact work_noteSpares was c

theorem work_retire (c : Chip) (e : Nat) : pendingWork (retire c e) = pendingWork c := by
  unfold retire
  dsimp only
  rw [work_spareReaction, work_raise, work_bump, work_jput, work_setExtent]

theorem work_startErase (c : Chip) (e : Nat) : pendingWork (startErase c e) = pendingWork c := by
  unfold startErase
  dsimp only
  rw [work_noteSpares, work_applyCut]
  split
  · split
    · rfl
    · rw [work_jput, work_setExtent]
  · rfl

theorem work_eraseIfDead (c : Chip) (l : Nat) : pendingWork (eraseIfDead c l) = pendingWork c := by
  unfold eraseIfDead
  split
  · rfl
  · split
    · split
      · exact work_retire ..
      · exact work_startErase ..
    · rfl

theorem work_dropObject (c : Chip) (a : Nat) : pendingWork (dropObject c a) = pendingWork c := by
  unfold dropObject
  dsimp only
  split
  · rw [work_setFld, work_eraseIfDead]
    rfl
  · rw [work_eraseIfDead]
    rfl

theorem work_flashFree (c : Chip) (a : Nat) : pendingWork (flashFree c a) = pendingWork c := by
  unfold flashFree flashFreeOf
  split
  · rfl
  · dsimp only
    split
    · rfl
    · split
      · rfl
      · split
        · rfl
        · exact work_dropObject ..

theorem work_freeBlock (c : Chip) (i : Nat) : pendingWork (freeBlock c i) = pendingWork c := by
  have hg : pendingWork (dropGddr c i) = pendingWork c := by
    unfold dropGddr
    split
    · rfl
    · rfl
  have hl : ∀ (d : Chip) (x : Ledger), pendingWork (setLedger d i x) = pendingWork d := fun _ _ => rfl
  unfold freeBlock
  dsimp only
  rw [hl]
  split
  · exact hg
  · rw [work_flashFree, hg]

/-! ### FIG's drain timeout, with no operation and no figure -/

/-- No operation and no figure waits. -/
theorem settle_of_work {c d : Chip} (h : pendingWork d = pendingWork c) (hc : c.fig.committed = []) : settle d = d :=
  settle_idle ((congrArg (fun x => x.2.2.2.1) h).trans hc)

theorem abortWork_work {c : Chip} (w : Work) (h : c.fig.committed = []) : pendingWork (abortWork c w) = pendingWork c := by
  have hv : pendingWork (voidWork c w) = pendingWork c := by
    unfold voidWork freeStaged
    rw [work_foldl _ work_freeBlock]
    rfl
  unfold abortWork
  dsimp only
  split
  · exact hv
  · have hcom : (voidWork c w).fig.committed = [] := (congrArg (fun x => x.2.2.2.1) hv).trans h
    generalize voidWork c w = d at hv hcom
    rw [← hv]
    obtain ⟨g, m, n, -, h2, h3, he⟩ := abortOpen_idle (openStepFig c w) hcom
    rw [he]
    have hb := work_bump d aFIG_ABORT_CNT 1
    generalize bump d aFIG_ABORT_CNT 1 = b at hb
    simp only [pendingWork, Prod.mk.injEq] at hb ⊢
    obtain ⟨h4, h5, h6, -, -, h7⟩ := hb
    exact ⟨h4, h5, h6, h2.trans hcom.symm, h3, h7⟩

theorem finishOp_none {c : Chip} (i st : Nat) (hc : c.fig.committed = []) (ho : c.sess.ops = []) : finishOp c i st = c := by
  unfold finishOp
  rw [settle_idle hc]
  have hn : opsOf c i = [] := by rw [opsOf, ho]; rfl
  dsimp only
  rw [hn]

/-- No operation waits, and no figure is committed or waits. -/
abbrev Workless (c : Chip) : Prop := c.sess.ops = [] ∧ c.fig.committed = [] ∧ c.fig.waiting = []

theorem Workless.of_work {c d : Chip} (h : Workless c) (hw : pendingWork d = pendingWork c) : Workless d :=
  ⟨(congrArg (·.1) hw).trans h.1, (congrArg (·.2.2.2.1) hw).trans h.2.1, (congrArg (·.2.2.2.2.1) hw).trans h.2.2⟩

theorem abortWorks_work (l : List Work) {c : Chip} (h : Workless c) : pendingWork (l.foldl abortWork c) = pendingWork c := by
  induction l generalizing c with
  | nil => rfl
  | cons w r ih =>
    have hw := abortWork_work w h.2.1
    exact (ih (h.of_work hw)).trans hw

theorem finishOps_none (l : List Work) (st : Nat) {c : Chip} (h : Workless c) :
    l.foldl (fun c w => finishOp c w.idx st) c = c := by
  induction l with
  | nil => rfl
  | cons w r ih => rw [List.foldl_cons, finishOp_none _ _ h.2.1 h.1, ih]

theorem abortStepFigures_work (p st : Nat) {c : Chip} (h : Workless c) :
    pendingWork (abortStepFigures c p st) = pendingWork c := by
  unfold abortStepFigures
  split
  · rfl
  · rename_i x _
    have hw := abortWorks_work (x.engines.flatMap (·.works)) h
    dsimp only
    rw [finishOps_none _ _ (h.of_work (show pendingWork (setSched _ _ _) = _ from hw))]
    exact hw

theorem bump_zero (c : Chip) (a : Nat) : bump c a 0 = c := by
  unfold bump bumpB
  exact if_pos rfl

theorem abortWaitingWhere_none {c : Chip} (mine : Figure → Bool) (h : c.fig.waiting = []) : abortWaitingWhere c mine = c := by
  have hf : ({ c.fig with waiting := [] } : FigUnit) = c.fig := h ▸ rfl
  unfold abortWaitingWhere
  rw [h]
  dsimp only [List.filter_nil, List.length_nil, List.foldl_nil]
  rw [show bump c aFIG_ABORT_CNT 0 = c from bump_zero .., h, List.filter_nil]
  exact congrArg (fun g : FigUnit => { c with fig := g }) hf

theorem releaseWaiting_none {c : Chip} (h : c.fig.waiting = []) : releaseWaiting c = c := by
  unfold releaseWaiting
  rw [h]
  dsimp only [List.length_nil, releaseWaitingN]
  rw [h]
  rfl

theorem figDrainTimeout_work {c : Chip} (h : Workless c) : pendingWork (figDrainTimeout c) = pendingWork c := by
  have hfold : ∀ (l : List Nat) (d : Chip), Workless d →
      pendingWork (l.foldl (fun c p => abortStepFigures c p stAbortDrain) d) = pendingWork d := fun l => by
    induction l with
    | nil => exact fun d _ => rfl
    | cons p r ih =>
      intro d hd
      have hw := abortStepFigures_work p stAbortDrain hd
      exact (ih _ (hd.of_work hw)).trans hw
  have hw := hfold parts8 c h
  have hd := h.of_work hw
  unfold figDrainTimeout
  dsimp only
  rw [abortWaitingWhere_none _ h.2.2]
  generalize parts8.foldl (fun c p => abortStepFigures c p stAbortDrain) c = d at hw hd
  rw [settle_idle hd.2.1, releaseWaiting_none hd.2.2, settle_idle hd.2.1, hw]

/-! ### What a block's own state loses -/

theorem work_closeConn (c : Chip) (n : Nat) : pendingWork (closeConn c n) = pendingWork c := by
  have hw : pendingWork (dropWaiting c n) = pendingWork c := by
    unfold dropWaiting
    dsimp only
    split
    · rfl
    · rw [work_raise, work_bump]
      rfl
  exact hw

theorem work_portOff (c : Chip) (p : Nat) : pendingWork (portOff c p) = pendingWork c := by
  have hw : pendingWork (dropQueue c p) = pendingWork c := by
    unfold dropQueue dropFrame
    dsimp only
    split
    · rfl
    · rw [work_raise, work_bump]
      rfl
  exact hw

theorem work_pumpConn (c : Chip) (n : Nat) : pendingWork (pumpConn c n) = pendingWork c :=
  work_of_quiet ((quiet_settleEvents _).trans (quiet_pump c n))

theorem work_countSearch (c : Chip) (st : Nat) : pendingWork (countSearch c st) = pendingWork c := by
  unfold countSearch
  dsimp only
  split
  · rw [work_bump, work_bumpPair]
  · split
    · rw [work_bump, work_bumpPair]
    · split
      · rw [work_bump, work_bumpPair]
      · exact work_bumpPair ..

theorem work_freeOlds (c : Chip) : pendingWork (freeOlds c) = pendingWork c := by
  unfold freeOlds
  dsimp only
  rw [work_foldl _ (fun c (o : OldObj) => work_flashFree c o.addr)]
  rfl

theorem work_sendQuery (c : Chip) (q : Query) (st : Nat) (l : List SearchHit) :
    pendingWork (sendQuery c q st l) = pendingWork c := by
  unfold sendQuery
  dsimp only
  rw [work_sendMsg, work_countSearch, work_freeOlds]
  rfl

theorem work_mergeDone (c : Chip) (q : Query) : pendingWork (mergeDone c q) = pendingWork c := by
  unfold mergeDone
  dsimp only
  split
  · rw [work_raise, work_sendQuery]
    rfl
  · rw [work_sendQuery]
    rfl

theorem work_shardAnswer (c : Chip) (id shard st : Nat) (l : List SearchHit) :
    pendingWork (shardAnswer c id shard st l) = pendingWork c := by
  unfold shardAnswer
  split
  · rfl
  · split
    · rfl
    · dsimp only
      split
      · rw [work_mergeDone]
        rfl
      · rfl

theorem work_endQuery (c : Chip) (q : Query) (st : Nat) (l : List SearchHit) :
    pendingWork (endQuery c q st l) = pendingWork c := by
  unfold endQuery
  split
  · exact work_sendQuery ..
  · dsimp only
    rw [work_shardAnswer, work_countSearch, work_freeOlds]
    rfl

theorem work_answerSearch (c : Chip) (n op index : Nat) (tag : DWord) (st visited : Nat) :
    pendingWork (answerSearch c n op index tag st visited) = pendingWork c := by
  unfold answerSearch
  dsimp only
  rw [work_sendMsg]
  split
  · rw [work_bumpPair]
    rfl
  · rfl

theorem work_endSearches (c : Chip) (mine : Nat → Bool) (st : Nat) : pendingWork (endSearches c mine st) = pendingWork c := by
  unfold endSearches
  dsimp only
  rw [work_foldl, work_foldl]
  · intro d q
    split
    · exact work_endQuery ..
    · rfl
  · intro d x
    rw [work_answerSearch]
    rfl

theorem work_ckptReset (c : Chip) : pendingWork (ckptReset c) = pendingWork c := by
  have ho : ∀ (d : Chip) (r : Option Nat) (h : Bool), pendingWork (endOwn d r h) = pendingWork d := fun d r h => by
    unfold endOwn
    split
    · rfl
    · cases h <;> rfl
  have hd : pendingWork (dropCopies c) = pendingWork c := by
    unfold dropCopies
    exact work_foldl heapRelease (fun _ _ => rfl) _ _
  have hm : ∀ (d : Chip) (f : CkptUnit → CkptUnit), pendingWork (modCkpt d f) = pendingWork d := fun _ _ => rfl
  unfold ckptReset
  dsimp only
  rw [hm, ho, ho, hd]

theorem work_traceStop (c : Chip) : pendingWork (traceStop c) = pendingWork c := by
  unfold traceStop
  rw [work_setFld]
  rfl

/-- A block's own state returns to reset, and no operation, revival or figure begins to wait. -/
theorem work_resetUnit {c : Chip} (p : Page) (h : Workless c) : pendingWork (resetUnit c p) = pendingWork c := by
  cases p with
  | fig =>
    have hw := figDrainTimeout_work h
    unfold resetUnit
    dsimp only
    generalize figDrainTimeout c = d at hw ⊢
    exact hw
  | xpt =>
    have h1 := work_foldl closeConn work_closeConn (c.xpt.conns.map (·.1)) c
    have h2 : ∀ (d : Chip) (l : List (Nat × Region)), pendingWork (l.foldl
        (fun c r => if r.2.len = 0 then c else heapRelease c r.2.base) d) = pendingWork d := fun d l =>
      work_foldl _ (fun c r => by split <;> rfl) l d
    have hw := (h2 ((c.xpt.conns.map (·.1)).foldl closeConn c) ((c.xpt.conns.map (·.1)).foldl closeConn c).xpt.regions).trans h1
    unfold resetUnit
    dsimp only
    generalize (c.xpt.conns.map (·.1)).foldl closeConn c = d at hw ⊢
    exact hw
  | peer =>
    have hw : pendingWork (peerOff c) = pendingWork c :=
      work_foldl portOff work_portOff ports4 { c with peer := { c.peer with sweep := none } }
    unfold resetUnit
    dsimp only
    generalize peerOff c = d at hw ⊢
    exact hw
  | egr =>
    exact work_foldl _ (fun c n => work_pumpConn (setConn c n { conn c n with waiting := false }) n) c.egr.waiters
      { c with egr := { queues := [], ctl0 := [], ctl1 := [], last := [], waiters := [] } }
  | srch =>
    have hw := work_endSearches { c with checks := { c.checks with index := [] } } (fun _ => true) stAbortDrain
    unfold resetUnit
    dsimp only
    generalize endSearches { c with checks := { c.checks with index := [] } } (fun _ => true) stAbortDrain = d at hw ⊢
    exact hw
  | ckpt => exact work_ckptReset c
  | tel => exact work_traceStop { c with sec := { c.sec with snaps := [], powerAvg := 0 } }
  | _ => rfl

/-! ### SOFT_RESET (R26, R31) -/

/-- The chip before the block's header returns to reset. -/
def unitReset (c : Chip) (p : Page) : Chip := disarmPage (resetWords (resetUnit c p) p) p

theorem work_unitReset {c : Chip} (p : Page) (h : Workless c) : pendingWork (unitReset c p) = pendingWork c := by
  have hr : ∀ d : Chip, pendingWork (resetWords d p) = pendingWork d := fun d => by
    unfold resetWords
    dsimp only
    split
    · rw [work_setFld]
      rfl
    · rfl
  have hd : ∀ d : Chip, pendingWork (disarmPage d p) = pendingWork d := fun _ => rfl
  rw [unitReset, hd, hr, work_resetUnit p h]

theorem workless_of_idle {c : Chip} (h : FigIdle c) : Workless c := by
  obtain ⟨⟨hc, hw, ho, -, -⟩, -, -⟩ := h
  exact ⟨ho, hc, hw⟩

/-- The header that a SOFT_RESET gives a block before it goes OFF. -/
def resetHdr (p : Page) (was : BState) : BlockHdr := { hdrReset (pageIdx p) with state := was }

theorem softReset_eq {c : Chip} (p : Page) (h : FigIdle c) :
    softReset c p = setState (setHdr (unitReset c p) p (resetHdr p (bstate c p))) p .off := by
  have hw := workless_of_idle h
  have hu := work_unitReset p hw
  obtain ⟨⟨hc, hwt, ho, hr, hp⟩, -, -⟩ := h
  have hs : softReset c p = kick (setState (setHdr (unitReset c p) p (resetHdr p (bstate c p))) p .off) := by
    unfold softReset
    rw [settle_idle hc, abortWaitingWhere_none _ hwt]
    rfl
  rw [hs]
  generalize unitReset c p = d at hu
  have hd : pendingWork (setState (setHdr d p (resetHdr p (bstate c p))) p .off) = pendingWork c :=
    (work_of_quiet (quiet_setState ..)).trans (Eq.trans rfl hu)
  generalize setState (setHdr d p (resetHdr p (bstate c p))) p .off = e at hd
  exact kick_idle ((congrArg (·.1) hd).trans ho) ((congrArg (·.2.1) hd).trans hr) ((congrArg (·.2.2.1) hd).trans hp)

theorem mem_of_tfind {α : Type} {t : Tbl α} {k : Nat} {v : α} (h : tfind t k = some v) : (k, v) ∈ t := by
  induction t with
  | nil => cases h
  | cons e r ih =>
    rw [tfind] at h
    split at h
    · rename_i he
      cases h
      rw [← he]
      exact List.mem_cons_self
    · exact List.mem_cons_of_mem _ (ih h)

/-- No requester's unlock of the page stands. -/
theorem armed_disarmPage (c : Chip) (r : Requester) (p : Page) : armed (disarmPage c p) r p = false := by
  have hn : ∀ l : List Nat, pageIdx p ∉ l.filter (fun i => i ≠ pageIdx p) := fun l hm =>
    of_decide_eq_true (List.mem_filter.1 hm).2 rfl
  refine decide_eq_false ?_
  cases r with
  | sideband => exact hn _
  | conn n =>
    change pageIdx p ∉ (tget ReqState.empty (disarmPage c p).mgmt.inband n.toNat).unlocked
    rw [tget]
    cases hf : tfind (disarmPage c p).mgmt.inband n.toNat with
    | none => exact List.not_mem_nil
    | some x =>
      obtain ⟨e, -, he⟩ := List.mem_map.1 (List.mem_filter.1 (mem_of_tfind hf)).1
      have hx : x = { e.2 with unlocked := e.2.unlocked.filter (fun i => i ≠ pageIdx p) } := (congrArg Prod.snd he).symm
      rw [hx]
      exact hn _

/-- What a SOFT_RESET leaves of the block's header and unlocks. -/
theorem softReset_header {c : Chip} {p : Page} (r : Requester) (h : FigIdle c) (hp : drainable p = true) :
    bstate (softReset c p) p = .off ∧ { hdr (softReset c p) p with int := 0 } = hdrReset (pageIdx p) ∧
    armed (softReset c p) r p = false := by
  rw [softReset_eq p h]
  have hs := setState_spec (setHdr (unitReset c p) p (resetHdr p (bstate c p))) p .off
  have hreset : { hdrReset (pageIdx p) with state := BState.off } = hdrReset (pageIdx p) := by
    have h5 : ¬ pageIdx p < 5 := by
      revert hp
      cases p <;> decide
    rw [hdrReset, if_neg h5]
  refine ⟨?_, ?_, ?_⟩
  · rw [bstate_setState, if_pos rfl]
  · rw [hs.hdrs, hdr_setHdr_self, hdr_setHdr_self]
    exact hreset
  · have hm : mute (setState (setHdr (unitReset c p) p (resetHdr p (bstate c p))) p .off) = mute (unitReset c p) := by
      rw [mute_setState, mute_setHdr]
    exact (congrArg (fun x : ReqState => decide (pageIdx p ∈ x.unlocked)) (reqState_of_mute hm r)).trans
      (armed_disarmPage _ r p)

theorem regKey_eq_reset {c : Chip} {k : Nat} (h : tfind c.mgmt.regs k = none) (h1 : tfind c.mgmt.copy1 k = none)
    (h2 : tfind c.mgmt.copy2 k = none) : regKey c k = regReset c.variant k := by
  simp only [regKey, tget, h, h1, h2, Option.getD_none]
  rw [show ∀ w : Word, w ^^^ 0 = w from fun _ => BitVec.xor_zero, majority_self]

/-- The registers of the page return to reset. -/
theorem softReset_regs {c : Chip} {p : Page} (h : FigIdle c) (hp : p ∉ [Page.xpt, .peer, .egr, .srch, .ckpt]) (bank : Nat)
    {a : Nat} (hl : a < 0x64000) (ha : a / 0x4000 = pageIdx p) (hk : a ∉ keptRegs) :
    regB (softReset c p) bank a = regReset c.variant (rkey bank a) := by
  have hlt : a < bankStride := lt_of_lt_of_le hl (by decide)
  have hne : ∀ x, x / 0x4000 = pageIdx .xpt ∨ x / 0x4000 = pageIdx .egr → a ≠ x := fun x hx e => by
    rw [← e, ha] at hx
    rcases hx with hx | hx
    · exact hp (by rw [pageIdx_inj hx]; decide)
    · exact hp (by rw [pageIdx_inj hx]; decide)
  have hev : eventKey (rkey bank a) = false :=
    eventKey_rkey hlt (hne _ (.inl rfl)) (hne _ (.inl rfl)) (hne _ (.inr rfl))
  have hkp : keyPage (rkey bank a) = pageIdx p := by rw [keyPage, rkey_mod hlt, ha]
  have hkeep : (decide (keyPage (rkey bank a) ≠ pageIdx p) || decide (rkey bank a % bankStride ∈ keptRegs)) = false := by
    rw [hkp, rkey_mod hlt, decide_eq_false hk, decide_eq_false (fun x => x rfl)]
    rfl
  have hv : (unitReset c p).variant = c.variant := congrArg (·.2.2.2.2.2) (work_unitReset p (workless_of_idle h))
  have hu : regKey (unitReset c p) (rkey bank a) = regReset c.variant (rkey bank a) := by
    rw [← hv]
    have hnone : ∀ t : Tbl Word, tfind (t.filter (fun e => decide (keyPage e.1 ≠ pageIdx p) ||
        decide (e.1 % bankStride ∈ keptRegs))) (rkey bank a) = none := fun t => by
      rw [tfind_filter (fun k => decide (keyPage k ≠ pageIdx p) || decide (k % bankStride ∈ keptRegs)), hkeep]
      rfl
    have hw : ∀ d : Chip, (resetWords d p).mgmt = { d.mgmt with
        regs := d.mgmt.regs.filter (fun e => decide (keyPage e.1 ≠ pageIdx p) || decide (e.1 % bankStride ∈ keptRegs))
        copy1 := d.mgmt.copy1.filter (fun e => decide (keyPage e.1 ≠ pageIdx p) || decide (e.1 % bankStride ∈ keptRegs))
        copy2 := d.mgmt.copy2.filter (fun e => decide (keyPage e.1 ≠ pageIdx p) || decide (e.1 % bankStride ∈ keptRegs)) } :=
      fun d => by
        unfold resetWords
        dsimp only
        rw [if_neg (fun e : p = .peer => hp (by rw [e]; decide))]
    refine regKey_eq_reset ?_ ?_ ?_
    · exact (congrArg (fun m => tfind m.regs (rkey bank a)) (hw (resetUnit c p))).trans (hnone _)
    · exact (congrArg (fun m => tfind m.copy1 (rkey bank a)) (hw (resetUnit c p))).trans (hnone _)
    · exact (congrArg (fun m => tfind m.copy2 (rkey bank a)) (hw (resetUnit c p))).trans (hnone _)
  rw [softReset_eq p h]
  exact ((keepsRegs_setState _ p .off) _ hev).trans (Eq.trans rfl hu)

/-- A write of SOFT_RESET through the bit-setting address of BLK_CTRL. -/
theorem mgmtWrite_softReset {c : Chip} {r : Requester} {p : Page} (h : Reaches c r p) :
    let y := hdrWrite (setArmed c r p false) p (armed c r p) .set 8 8
    mgmtWrite c r (hdrAddr p 0x1008) 8 = keepStatus (answer y.2 y.1 0) r y.1 := by
  have hp : pageOf (hdrAddr p 0x1008 / 0x4000) = p := by cases p <;> rfl
  have hl : hdrAddr p 0x1008 < 0x64000 ∧ hdrAddr p 0x1008 % 4 = 0 := by cases p <;> decide
  have ho : baseAddr (hdrAddr p 0x1008) % 0x4000 = 8 := by cases p <;> rfl
  have ha : aliasOf (hdrAddr p 0x1008) = .set := by cases p <;> rfl
  unfold mgmtWrite mgmtWriteWith
  rw [if_neg (by rw [h.1]; exact fun x => Bool.false_ne_true x.symm), gate_ok true h hp hl.2 hl.1]
  dsimp only
  rw [if_neg (fun x => x rfl), writeAt, hp, ho, ha, if_neg (by decide), if_pos (by decide)]

/-- BLK_CTRL's SOFT_RESET with the unlock, by the state of the block. -/
theorem ctrlWrite_softReset {c : Chip} {p : Page} (hp : drainable p = true) :
    let d := setHdr c p (evenCopies (hdr c p))
    ctrlWrite c p .set 8 =
      (if bstate c p = .on ∨ bstate c p = .draining ∨ bstate c p = .testing then (rejBusy, c) else (stOK, softReset d p)) := by
  intro d
  have hd : hdr d p = evenCopies (hdr c p) := hdr_setHdr_self ..
  have h3 : ∀ w : Word, bit (wOnes .set w 8) 2 = false ∧ bit (wOnes .set w 8) 3 = true := fun _ =>
    ⟨show bit (8 : Word) 2 = false by decide, show bit (8 : Word) 3 = true by decide⟩
  have hs : (hdr d p).state = bstate c p := by rw [hd]; rfl
  unfold ctrlWrite
  change (if (!drainable p) = true then _ else _) = _
  rw [hp]
  simp only [(h3 _).1, (h3 _).2, Bool.not_true, Bool.and_false, Bool.false_eq_true, if_false, Bool.or_true, if_true]
  change (match (hdr d p).state with | .on => _ | .draining => _ | .testing => _ | .fault => _ | .off => _ | .disabled => _) = _
  rw [hs]
  cases bstate c p <;> rfl

/-- A management command that its rule accepts. -/
theorem acceptedWith_after {i : Instr} {s : State} {r : Requester} {y : Nat × Chip} {c : Chip} {p : State → Prop}
    (he : exec i s = .next (after s (keepStatus (answer y.2 y.1 0) r y.1))) (hy : y = (stOK, c))
    (hp : p (after s (keepStatus (answer c stOK 0) r stOK))) : AcceptedWith i s r p := by
  subst hy
  refine ⟨_, he, after_pending _ _, ?_, ?_, hp⟩
  · cases r <;> rfl
  · intro h
    subst h
    rfl

/-- SOFT_RESET of a drainable block. -/
theorem softResets {s : State} {r : Requester} {p : Page} (hd : drainable p = true) (h : Reaches s.toChip r p)
    (hi : FigIdle s.toChip) :
    (armed s.toChip r p = false → Answered (.softReset r p) s r 0x21 s.toChip (fun t =>
      Event t p 3 ∧ bstate t.toChip p = bstate s.toChip p)) ∧
    (armed s.toChip r p = true →
      (bstate s.toChip p = .on ∨ bstate s.toChip p = .draining ∨ bstate s.toChip p = .testing) →
      Answered (.softReset r p) s r 0x20 s.toChip (fun t => ∀ q, hdr t.toChip q = hdr s.toChip q)) ∧
    (armed s.toChip r p = true →
      (bstate s.toChip p = .off ∨ bstate s.toChip p = .disabled ∨ bstate s.toChip p = .fault) →
      AcceptedWith (.softReset r p) s r (fun t => bstate t.toChip p = .off) ∧
      (p ∉ [Page.xpt, .peer, .egr, .srch, .ckpt] →
        AcceptedWith (.softReset r p) s r (fun t => bstate t.toChip p = .off ∧ armed t.toChip r p = false ∧
          { hdr t.toChip p with int := 0 } = hdrReset (pageIdx p) ∧
          ∀ bank a, a < 0x64000 → a / 0x4000 = pageIdx p → a ∉ keptRegs →
            regB t.toChip bank a = regReset s.variant (rkey bank a)))) := by
  have he : exec (.softReset r p) s = .next (after s (mgmtWrite s.toChip r (hdrAddr p 0x1008) 8)) := rfl
  rw [mgmtWrite_softReset h] at he
  have hdesk := desk_setArmed s.toChip r p false
  have hst := bstate_setArmed s.toChip r p p false
  have hv : (setArmed s.toChip r p false).variant = s.variant := congrArg (·.variant) hdesk
  have hidle : FigIdle (setArmed s.toChip r p false) := by cases r <;> exact hi
  have hh : ∀ q, hdr (setArmed s.toChip r p false) q = hdr s.toChip q := fun q => by cases r <;> rfl
  generalize setArmed s.toChip r p false = c at he hdesk hst hv hidle hh
  have hone : ∀ w : Word, bit (wOnes .set w 8) 3 = true := fun _ => show bit (8 : Word) 3 = true by decide
  refine ⟨fun ha => ?_, fun ha hs => ?_, fun ha hs => ?_⟩
  · have hw : hdrWrite c p (armed s.toChip r p) .set 8 8 = (rejState, raise c p 3) := by
      rw [hdrWrite, if_pos rfl, if_pos ⟨hone _, ha⟩]
    have hq := desk_of_quiet (quiet_raise c p 3)
    have hev := raise_int c p 3 (by decide)
    have hb := bstate_raise c p p 3
    generalize raise c p 3 = d at hw hq hev hb
    refine answered_after he hw (hq.trans hdesk) ⟨?_, ?_⟩
    · rw [Event, hdr_answered]
      exact hev
    · rw [bstate, hdr_answered]
      exact hb.trans hst
  · have hw : hdrWrite c p (armed s.toChip r p) .set 8 8 = (rejBusy, c) := by
      rw [hdrWrite, if_pos rfl, if_neg (fun x => by rw [ha] at x; cases x.2), ctrlWrite_softReset hd, hst, if_pos hs]
    refine answered_after he hw hdesk fun q => ?_
    rw [hdr_answered]
    exact hh q
  · have hnot : ¬ (bstate c p = .on ∨ bstate c p = .draining ∨ bstate c p = .testing) := by
      rw [hst]
      rcases hs with hs | hs | hs <;> rw [hs] <;> decide
    have hw : hdrWrite c p (armed s.toChip r p) .set 8 8 = (stOK, softReset (setHdr c p (evenCopies (hdr c p))) p) := by
      rw [hdrWrite, if_pos rfl, if_neg (fun x => by rw [ha] at x; cases x.2), ctrlWrite_softReset hd, if_neg hnot]
    have hidle' : FigIdle (setHdr c p (evenCopies (hdr c p))) := hidle
    obtain ⟨h1, h2, h3⟩ := softReset_header r hidle' hd
    have h4 := fun (hp : p ∉ [Page.xpt, .peer, .egr, .srch, .ckpt]) (bank a : Nat) => softReset_regs hidle' hp bank (a := a)
    rw [show (setHdr c p (evenCopies (hdr c p))).variant = s.variant from hv] at h4
    generalize softReset (setHdr c p (evenCopies (hdr c p))) p = d at hw h1 h2 h3 h4
    have hb : bstate (after s (keepStatus (answer d stOK 0) r stOK)).toChip p = .off := by
      rw [bstate, hdr_answered]
      exact h1
    refine ⟨acceptedWith_after he hw hb, fun hp => acceptedWith_after he hw ⟨hb, ?_, ?_, fun bank a hl ha hk => ?_⟩⟩
    · exact (congrArg (fun x : ReqState => decide (pageIdx p ∈ x.unlocked)) (reqState_answered ..)).trans h3
    · rw [hdr_answered]
      exact h2
    · exact (regKey_drive ..).trans (h4 hp bank a hl ha hk)

/-! ### The ends of a drain (R31, R33) -/

/-- What the end of a drain leaves. -/
structure DrainEnded (c d : Chip) (p : Page) (forced : Bool) : Prop where
  quiet : Safety.quiet d = Safety.quiet c
  hdr : { Machine.hdr d p with int := 0 } =
    { Machine.hdr c p with int := 0, state := .disabled, enable := false, drainForced := forced }
  others : ∀ q, q ≠ p → bstate d q = bstate c q
  stateEvent : bit (Machine.hdr d p).int 0 = true
  doneEvent : bit (Machine.hdr d p).int 1 = true
  abortEvent : forced = true → bit (Machine.hdr d p).int 2 = true

theorem endDrain_ended {c : Chip} {p : Page} (forced : Bool) (h : bstate c p = .draining) :
    DrainEnded c (endDrain c p forced) p forced := by
  have hs := setState_spec (setHdr c p { hdr c p with enable := false, drainForced := forced }) p .disabled
  have hev : bit (hdr (setState (setHdr c p { hdr c p with enable := false, drainForced := forced }) p .disabled) p).int 0 = true :=
    setState_event (by rw [hdr_setHdr_self]; exact fun e => by rw [show (hdr c p).state = .draining from h] at e; cases e)
  have he : endDrain c p forced = raises
      (setState (setHdr c p { hdr c p with enable := false, drainForced := forced }) p .disabled)
      ((if forced then [(p, 2)] else []) ++ [(p, 1)]) := rfl
  rw [he]
  have hm := minor_raises (setState (setHdr c p { hdr c p with enable := false, drainForced := forced }) p .disabled)
    ((if forced then [(p, 2)] else []) ++ [(p, 1)])
  have hq : quiet (setState (setHdr c p { hdr c p with enable := false, drainForced := forced }) p .disabled) = quiet c := by
    rw [quiet_setState, quiet_setHdr]
  refine ⟨hm.quiet.trans hq, ?_, fun q hne => ?_, hm.ints _ _ hev, raises_int (by decide) (by cases forced <;> simp), fun hf => ?_⟩
  · rw [hm.hdrs, hs.hdrs, hdr_setHdr_self, hdr_setHdr_self]
  · rw [hm.state, bstate_setState, if_neg hne, bstate, hdr_setHdr, if_neg hne, bstate]
  · rw [hf]
    exact raises_int (by decide) (by simp)

theorem drainTimeoutOf_idle {c : Chip} {p : Page} (h : FigIdle c)
    (hp : p ∈ [Page.sess, .tier, .gdr, .sched, .samp, .spec, .text, .tel]) : drainTimeoutOf c p = c := by
  obtain ⟨⟨hc, hw, ho, hr, -⟩, -, -⟩ := h
  have hops : headOps c = [] := by rw [headOps, ho]; rfl
  have hd : ∀ mine, drainOps c mine = c := fun mine => by rw [drainOps, hops]; rfl
  unfold drainTimeoutOf
  rw [settle_idle hc, abortWaitingWhere_none _ hw]
  simp only [List.mem_cons, List.not_mem_nil, or_false] at hp
  rcases hp with rfl | rfl | rfl | rfl | rfl | rfl | rfl | rfl
  · dsimp only
    rw [ho]
    rfl
  · dsimp only [tierDrainTimeout]
    rw [hr]
    rfl
  · rfl
  · exact hd _
  · exact hd _
  · rfl
  · exact hd _
  · rfl

/-- DRAIN_DONE and DRAIN_TIMEOUT. -/
theorem drainsEnd (s : State) (p : Page) :
    (Awake s.toChip → bstate s.toChip p = .draining → inflightCount s.toChip p = 0 →
      Quietly (.drainDone p) s s.toChip (fun t => bstate t.toChip p = .disabled ∧ (hdr t.toChip p).enable = false ∧
        (hdr t.toChip p).drainForced = false ∧ Event t p 0 ∧ Event t p 1 ∧
        ∀ q, q ≠ p → bstate t.toChip q = bstate s.toChip q)) ∧
    (bstate s.toChip p ≠ .draining ∨ inflightCount s.toChip p ≠ 0 → exec (.drainDone p) s = .next (after s s.toChip)) ∧
    (Awake s.toChip → bstate s.toChip p = .draining → FigIdle s.toChip →
      p ∈ [Page.sess, .tier, .gdr, .sched, .samp, .spec, .text, .tel] →
      Quietly (.drainTimeout p) s s.toChip (fun t => bstate t.toChip p = .disabled ∧ (hdr t.toChip p).enable = false ∧
        (hdr t.toChip p).drainForced = true ∧ Event t p 0 ∧ Event t p 1 ∧ Event t p 2)) := by
  have hdone : exec (.drainDone p) s = .next (after s (whenAwake s.toChip (fun c =>
    if bstate c p = .draining ∧ inflightCount c p = 0 then endDrain c p false else c))) := rfl
  refine ⟨fun ha hb hn => ?_, fun hb => ?_, fun ha hb hi hp => ?_⟩
  · have he : exec (.drainDone p) s = act s (fun c => whenAwake c (fun c =>
      if bstate c p = .draining ∧ inflightCount c p = 0 then endDrain c p false else c)) := rfl
    rw [act_whenAwake ha, if_pos ⟨hb, hn⟩] at he
    have hd := endDrain_ended false hb
    generalize endDrain s.toChip p false = d at he hd
    exact ⟨_, he, after_pending _ _, (quiet_after s d).trans hd.quiet, congrArg (·.state) hd.hdr, congrArg (·.enable) hd.hdr,
      congrArg (·.drainForced) hd.hdr, hd.stateEvent, hd.doneEvent, hd.others⟩
  · have hn : ¬ (bstate s.toChip p = .draining ∧ inflightCount s.toChip p = 0) := fun x => hb.elim (fun y => y x.1) (fun y => y x.2)
    rw [hdone, whenAwake, if_neg hn, ite_self]
  · have he : exec (.drainTimeout p) s = act s (fun c => whenAwake c (fun c =>
      if bstate c p = .draining then kick (settle (endDrain (drainTimeoutOf c p) p true)) else c)) := rfl
    rw [act_whenAwake ha, if_pos hb, drainTimeoutOf_idle hi hp] at he
    have hd := endDrain_ended true hb
    obtain ⟨⟨hc, -, ho, hr, hpr⟩, -, -⟩ := hi
    generalize endDrain s.toChip p true = d at he hd
    have hw := work_of_quiet hd.quiet
    rw [settle_idle ((congrArg (·.2.2.2.1) hw).trans hc), kick_idle ((congrArg (·.1) hw).trans ho)
      ((congrArg (·.2.1) hw).trans hr) ((congrArg (·.2.2.1) hw).trans hpr)] at he
    exact ⟨_, he, after_pending _ _, (quiet_after s d).trans hd.quiet, congrArg (·.state) hd.hdr, congrArg (·.enable) hd.hdr,
      congrArg (·.drainForced) hd.hdr, hd.stateEvent, hd.doneEvent, hd.abortEvent rfl⟩

/-! ### The end of a self-test (R31, R33) -/

/-- Headers that stand but for events that are set. -/
structure Headed (c d : Chip) : Prop where
  hdrs : ∀ p, { hdr d p with int := 0 } = { hdr c p with int := 0 }
  ints : ∀ p b, bit (hdr c p).int b = true → bit (hdr d p).int b = true

theorem Headed.refl (c : Chip) : Headed c c := ⟨fun _ => rfl, fun _ _ h => h⟩

theorem Headed.trans {a b c : Chip} (h : Headed a b) (g : Headed b c) : Headed a c :=
  ⟨fun p => (g.hdrs p).trans (h.hdrs p), fun p n hb => g.ints p n (h.ints p n hb)⟩

theorem Headed.of_minor {c d : Chip} (h : Minor c d) : Headed c d := ⟨h.hdrs, h.ints⟩

theorem Headed.of_hdr {c d : Chip} (h : ∀ p, hdr d p = hdr c p) : Headed c d :=
  ⟨fun p => by rw [h p], fun p b hb => by rw [h p]; exact hb⟩

theorem headed_foldl {α : Type} (f : Chip → α → Chip) (h : ∀ c x, Headed c (f c x)) (l : List α) (c : Chip) :
    Headed c (l.foldl f c) := by
  induction l generalizing c with
  | nil => exact Headed.refl c
  | cons x r ih => exact (h c x).trans (ih (f c x))

theorem headed_coreTested (c : Chip) (n : Nat) (res : TestResult) : Headed c (coreTested c n res) := by
  have hset : ∀ (d : Chip) (k : Core), Headed d (setCore d n k) := fun _ _ => Headed.of_hdr fun _ => rfl
  have hr : ∀ (d : Chip) (b : Nat), Headed d (raise d .grid b) := fun d b => Headed.of_minor (minor_raise d .grid b)
  have hfr : Headed c { c with free := c.free + 1 } := Headed.of_hdr fun _ => rfl
  unfold coreTested
  dsimp only
  refine Headed.trans ?_ (hr _ 20)
  generalize ({ c with free := c.free + 1 } : Chip) = d at hfr ⊢
  cases res with
  | pass => exact hfr.trans (hset _ _)
  | slow => exact hfr.trans ((hset _ _).trans (hr _ 16))
  | fail =>
    exact hfr.trans ((hset _ _).trans ((hr _ 17).trans (Headed.of_minor (minor_fault _ 0x18 .grid n 0 false (by decide)))))

theorem headed_gridTested (c : Chip) (pass : Bool) : Headed c (gridTested c pass) := by
  refine headed_foldl _ (fun c n => ?_) _ c
  unfold gridTestedCore
  dsimp only
  have hfr : Headed c (takeFree c).2 := Headed.of_hdr fun _ => rfl
  split
  · exact hfr.trans ((headed_coreTested _ n _).trans (Headed.of_hdr fun _ => rfl))
  · exact hfr.trans (headed_coreTested _ n _)

theorem headed_attestFlush (c : Chip) : Headed c (attestFlush c) := by
  unfold attestFlush
  refine Headed.trans (b := { c with sec := { c.sec with attest := [] } }) (Headed.of_hdr fun _ => rfl)
    (headed_foldl _ (fun c q => ?_) _ _)
  unfold attestAnswer
  dsimp only
  refine Headed.trans ?_ (Headed.of_minor (minor_sendMsg ..))
  exact Headed.of_hdr fun p => hdr_bump c aSEC_ATTEST_CNT 1 p

/-- The header that a self-test's end gives. -/
def testedHdr (h : BlockHdr) (pass : Bool) : BlockHdr := { h with selftest := false, stRan := true, stFail := !pass }

/-- What a self-test's result leaves. -/
structure TestNoted (c d : Chip) (p : Page) (pass : Bool) : Prop where
  hdr : { Machine.hdr d p with int := 0 } = { testedHdr (Machine.hdr c p) pass with int := 0 }
  ran : bit (Machine.hdr d p).int 5 = true
  failed : pass = false → bit (Machine.hdr d p).int 6 = true

/-- The result of a self-test, with what GRID does first. -/
theorem testResult_noted (c : Chip) (p : Page) (pass : Bool) : TestNoted c (testResult c p pass) p pass := by
  have hg : Headed c (if p = .grid then gridTested c pass else c) := by
    split
    · exact headed_gridTested c pass
    · exact Headed.refl c
  unfold testResult
  dsimp only
  generalize (if p = .grid then gridTested c pass else c) = ca at hg ⊢
  have h1 : { hdr (setHdr ca p { hdr ca p with selftest := false, stRan := true, stFail := !pass }) p with int := 0 } =
      { testedHdr (hdr c p) pass with int := 0 } := by
    rw [hdr_setHdr_self]
    exact congrArg (fun h => testedHdr h pass) (hg.hdrs p)
  generalize setHdr ca p { hdr ca p with selftest := false, stRan := true, stFail := !pass } = d at h1 ⊢
  have hm := minor_raises d ([(p, 5)] ++ (if pass then [] else [(p, 6)]))
  have h5 : bit (hdr (raises d ([(p, 5)] ++ (if pass then [] else [(p, 6)]))) p).int 5 = true :=
    raises_int (by decide) (by simp)
  have h6 : pass = false → bit (hdr (raises d ([(p, 5)] ++ (if pass then [] else [(p, 6)]))) p).int 6 = true := fun hp => by
    rw [hp]
    exact raises_int (by decide) (by simp)
  generalize raises d ([(p, 5)] ++ (if pass then [] else [(p, 6)])) = e at hm h5 h6 ⊢
  split
  · exact ⟨(hm.hdrs p).trans h1, h5, h6⟩
  · have hf := minor_fault e 0x1D p 0 0 false (by decide)
    exact ⟨(hf.hdrs p).trans ((hm.hdrs p).trans h1), hf.ints _ _ h5, fun hp => hf.ints _ _ (h6 hp)⟩

theorem quiet_testResult {c : Chip} {p : Page} (pass : Bool) (h : p ≠ .grid) : quiet (testResult c p pass) = quiet c := by
  unfold testResult
  dsimp only
  rw [if_neg h]
  split
  · rw [quiet_raises, quiet_setHdr]
  · rw [quiet_fault _ _ _ _ _ _ (fun x => absurd x (by decide)), quiet_raises, quiet_setHdr]

/-- A block leaves TESTING. -/
theorem leaveTesting_hdr (c : Chip) (p : Page) :
    { hdr (leaveTesting c p .disabled) p with int := 0 } = { hdr c p with int := 0, state := .disabled } := by
  have h1 : { hdr (setState c p .disabled) p with int := 0 } = { hdr c p with int := 0, state := .disabled } := by
    rw [(setState_spec c p .disabled).hdrs, hdr_setHdr_self]
  have h2 : ∀ d : Chip, hdr (hostOn d) p = hdr d p := fun d => by
    unfold hostOn
    split
    · rfl
    · rfl
  unfold leaveTesting
  dsimp only
  split
  · rw [h2]
    exact h1
  · exact h1

/-- The chip before the result is noted. -/
def testLeft (c : Chip) (p : Page) : Chip :=
  if drainable p = true ∧ (hdr c p).state = .testing then leaveTesting c p .disabled else c

theorem testLeft_hdr (c : Chip) (p : Page) : { hdr (testLeft c p) p with int := 0 } = { hdr c p with
    int := 0, state := if drainable p = true ∧ (hdr c p).state = .testing then .disabled else (hdr c p).state } := by
  unfold testLeft
  split
  · exact leaveTesting_hdr c p
  · rfl

/-- The end of a self-test is its result, and, for SEC, the answers that waited for it. -/
theorem selftestEnd_eq {c : Chip} {p : Page} (pass : Bool) (h : (hdr c p).selftest = true) (ht : p ∉ c.chip.testing) :
    ∃ d, selftestEnd c p pass = d ∧ Headed (testResult (testLeft c p) p pass) d ∧
      (p ≠ .sec → d = testResult (testLeft c p) p pass) := by
  have hn : ¬ ((hdr c p).selftest = false ∨ p ∈ c.chip.testing) := fun x =>
    x.elim (fun y => by rw [h] at y; cases y) ht
  by_cases hd : drainable p = true
  · have he : selftestEnd c p pass = testResult (testLeft c p) p pass := by
      unfold selftestEnd testLeft
      dsimp only
      rw [if_neg hn, if_pos hd]
      simp only [hd, true_and]
    exact ⟨_, he, Headed.refl _, fun _ => rfl⟩
  · have hl : testLeft c p = c := if_neg fun x => hd x.1
    refine ⟨_, rfl, ?_⟩
    rw [hl]
    unfold selftestEnd
    dsimp only
    rw [if_neg hn, if_neg hd]
    generalize testResult c p pass = d
    by_cases he : p = .sec
    · rw [if_pos he]
      have hs : Headed d { d with chip := { d.chip with updateWaits := false } } := Headed.of_hdr fun _ => rfl
      generalize ({ d with chip := { d.chip with updateWaits := false } } : Chip) = e at hs ⊢
      exact ⟨hs.trans (headed_attestFlush e), fun hne => absurd he hne⟩
    · rw [if_neg he]
      exact ⟨Headed.refl _, fun _ => rfl⟩

/-- What the end of a self-test shows. -/
abbrev Tested (s : State) (p : Page) (pass : Bool) (t : State) : Prop :=
  bstate t.toChip p =
    (if drainable p = true ∧ (hdr s.toChip p).state = .testing then .disabled else (hdr s.toChip p).state) ∧
  (hdr t.toChip p).selftest = false ∧ (hdr t.toChip p).stRan = true ∧ (hdr t.toChip p).stFail = !pass ∧
  Event t p 5 ∧ (pass = false → Event t p 6)

theorem tested_of_noted {s : State} {d : Chip} {p : Page} {pass : Bool}
    (h : TestNoted (testLeft s.toChip p) d p pass) : Tested s p pass (after s d) := by
  have hh : { hdr d p with int := 0 } = { testedHdr (hdr s.toChip p) pass with
      int := 0, state := if drainable p = true ∧ (hdr s.toChip p).state = .testing then .disabled else (hdr s.toChip p).state } :=
    h.hdr.trans (congrArg (fun x => testedHdr x pass) (testLeft_hdr s.toChip p))
  exact ⟨congrArg (·.state) hh, congrArg (·.selftest) hh, congrArg (·.stRan) hh, congrArg (·.stFail) hh, h.ran, h.failed⟩

/-- SELFTEST_END. -/
theorem selftestEnds {s : State} {p : Page} (pass : Bool) (h : (hdr s.toChip p).selftest = true) (ht : p ∉ s.chip.testing)
    (hu : if minuetPage p then minuetOn s.toChip = true else Awake s.toChip) :
    Completes (.selftestEnd p pass) s (Tested s p pass) ∧
    (p ∉ [Page.host, .sec, .grid] → Quietly (.selftestEnd p pass) s s.toChip (Tested s p pass)) := by
  obtain ⟨d, hd, hh, hne⟩ := selftestEnd_eq pass h ht
  have he : exec (.selftestEnd p pass) s = .next (after s d) := by
    have hx : exec (.selftestEnd p pass) s = act s (fun c => whenPage c p (fun c => selftestEnd c p pass)) := rfl
    by_cases hm : minuetPage p = true
    · rw [if_pos hm] at hu
      have hw : whenPage s.toChip p (fun c => selftestEnd c p pass) = d := by
        rw [whenPage, if_pos hm, whenMinuet, if_pos hu, hd]
      exact hx.trans (congrArg (fun c => Host.Outcome.next (after s c)) hw)
    · rw [if_neg hm] at hu
      have hw : whenPage s.toChip p (fun c => selftestEnd c p pass) = whenAwake s.toChip (fun c => selftestEnd c p pass) := by
        rw [whenPage, if_neg hm]
      have ha := act_whenAwake (f := fun c => selftestEnd c p pass) hu
      rw [hd] at ha
      exact hx.trans ((congrArg (fun c => Host.Outcome.next (after s c)) hw).trans ha)
  have hn := testResult_noted (testLeft s.toChip p) p pass
  have hnd : TestNoted (testLeft s.toChip p) d p pass :=
    ⟨(hh.hdrs p).trans hn.hdr, hh.ints _ _ hn.ran, fun hp => hh.ints _ _ (hn.failed hp)⟩
  refine ⟨⟨_, he, after_pending _ _, tested_of_noted hnd⟩, fun hp => ⟨_, he, after_pending _ _, ?_, tested_of_noted hnd⟩⟩
  simp only [List.mem_cons, List.not_mem_nil, or_false, not_or] at hp
  obtain ⟨h1, h2, h3⟩ := hp
  rw [quiet_after, hne h2, quiet_testResult pass h3, testLeft]
  split
  · unfold leaveTesting
    dsimp only
    rw [if_neg h1, quiet_setState]
  · rfl

/-- Settles O11: the soft reset, the ends of a drain, and the ends of a self-test. -/
theorem blocksResetAndEnd : Obligations.BlocksResetAndEnd := by
  refine ⟨fun s r p hd h hi => softResets hd h hi, fun s p => ?_⟩
  obtain ⟨h1, h2, h3⟩ := drainsEnd s p
  refine ⟨h1, h2, h3, fun pass h ht hu hp => (selftestEnds pass h ht hu).2 hp, fun pass h ht ha hp => ?_⟩
  have hm : minuetPage p = false := by
    revert hp
    cases p <;> decide
  exact (selftestEnds pass h ht (by rw [hm]; exact ha)).1

end Sys2Proof.Machine
end

section
/-! The whole-chip self-test, update, and the boot NOR (O57). -/

namespace Sys2Proof.Machine

open Sys2Proof.Safety

/-! ### What is done to one block after another -/

/-- A header without its events. -/
def calm (h : BlockHdr) : BlockHdr := { h with int := 0 }

/-- A step that gives one page's header, sets events of it, and leaves every other header but for events. -/
structure PageStep (f : Page → BlockHdr → BlockHdr) (ev : Page → BlockHdr → Nat → Prop) (c d : Chip) (p : Page) : Prop where
  own : calm (hdr d p) = f p (calm (hdr c p))
  others : ∀ q, q ≠ p → calm (hdr d q) = calm (hdr c q)
  ints : ∀ q b, bit (hdr c q).int b = true → bit (hdr d q).int b = true
  events : ∀ b, ev p (calm (hdr c p)) b → bit (hdr d p).int b = true

/-- What steps over different pages give together. -/
structure PagesDone (f : Page → BlockHdr → BlockHdr) (ev : Page → BlockHdr → Nat → Prop) (c d : Chip) (l : List Page) :
    Prop where
  own : ∀ p ∈ l, calm (hdr d p) = f p (calm (hdr c p))
  others : ∀ q, q ∉ l → calm (hdr d q) = calm (hdr c q)
  ints : ∀ q b, bit (hdr c q).int b = true → bit (hdr d q).int b = true
  events : ∀ p ∈ l, ∀ b, ev p (calm (hdr c p)) b → bit (hdr d p).int b = true

theorem pages_done {f : Page → BlockHdr → BlockHdr} {ev : Page → BlockHdr → Nat → Prop} {step : Chip → Page → Chip}
    (h : ∀ c p, PageStep f ev c (step c p) p) (l : List Page) (hl : l.Nodup) (c : Chip) :
    PagesDone f ev c (l.foldl step c) l := by
  induction l generalizing c with
  | nil => exact ⟨fun _ hp => absurd hp List.not_mem_nil, fun _ _ => rfl, fun _ _ hb => hb, fun _ hp => absurd hp List.not_mem_nil⟩
  | cons p r ih =>
    obtain ⟨hp, hr⟩ := List.nodup_cons.1 hl
    obtain ⟨h1, h2, h3, h4⟩ := h c p
    obtain ⟨g1, g2, g3, g4⟩ := ih hr (step c p)
    have hne : ∀ q ∈ r, q ≠ p := fun q hq e => hp (e ▸ hq)
    refine ⟨fun q hq => ?_, fun q hq => ?_, fun q b hb => g3 q b (h3 q b hb), fun q hq b hb => ?_⟩
    · rcases List.mem_cons.1 hq with rfl | hq
      · exact (g2 q hp).trans h1
      · exact (g1 q hq).trans (congrArg (f q) (h2 q (hne q hq)))
    · rw [List.mem_cons, not_or] at hq
      exact (g2 q hq.2).trans (h2 q hq.1)
    · rcases List.mem_cons.1 hq with rfl | hq
      · exact g3 q b (h4 b hb)
      · exact g4 q hq b (by rw [h2 q (hne q hq)]; exact hb)

/-! ### The start of the whole-chip self-test (R507) -/

/-- One block is taken to its test. -/
def testEntered (c : Chip) (p : Page) : Chip := enterTesting (setHdr c p { hdr c p with before := some (bstate c p) }) p

/-- The header of a block under test. -/
def underTest (_ : Page) (h : BlockHdr) : BlockHdr := { h with before := some h.state, selftest := true, state := .testing }

/-- The chip but for GRID, SEC and HOST, which a test of their blocks changes. -/
def veiled (c : Chip) : Chip :=
  quiet { c with grid := Chip.reset.grid, sec := Chip.reset.sec, host := Chip.reset.host }

/-- What a block's test leaves of the chip beside its header. -/
structure TestEntered (c d : Chip) (p : Page) : Prop where
  header : PageStep underTest (fun _ h b => b = 0 ∧ h.state ≠ .testing) c d p
  veil : veiled d = veiled c
  host : p ≠ .host → d.host = c.host
  grid : p ≠ .grid → d.grid = c.grid
  sec : p ≠ .tel → d.sec = c.sec

theorem veiled_of_quiet {c d : Chip} (h : quiet d = quiet c) : veiled d = veiled c := by
  have := congrArg veiled h
  exact this

theorem gridTesting_leaves (c : Chip) : veiled (gridTesting c) = veiled c ∧ (gridTesting c).host = c.host ∧
    (gridTesting c).sec = c.sec ∧ ∀ p, hdr (gridTesting c) p = hdr c p := by
  unfold gridTesting
  generalize List.range 256 = l
  induction l generalizing c with
  | nil => exact ⟨rfl, rfl, rfl, fun _ => rfl⟩
  | cons n r ih => exact ih (startTest c n)

theorem telLeaves_leaves (c : Chip) (p : Page) : veiled (telLeaves c p) = veiled c ∧ (telLeaves c p).host = c.host ∧
    (telLeaves c p).grid = c.grid ∧ (p ≠ .tel → (telLeaves c p).sec = c.sec) ∧ ∀ q, hdr (telLeaves c p) q = hdr c q := by
  unfold telLeaves
  by_cases h : p = .tel
  · rw [if_pos h]
    have hq := quiet_setFld { c with sec := { c.sec with tracing := none } } aTEL_TRACE_CTRL 0 0 0
    have hh := hdr_setFld { c with sec := { c.sec with tracing := none } } aTEL_TRACE_CTRL 0 0 0
    unfold traceStop
    generalize setFld { c with sec := { c.sec with tracing := none } } aTEL_TRACE_CTRL 0 0 0 = d at hq hh
    exact ⟨(veiled_of_quiet hq).trans rfl, congrArg (·.host) hq, congrArg (·.grid) hq, fun hn => absurd h hn, hh⟩
  · rw [if_neg h]
    exact ⟨rfl, rfl, rfl, fun _ => rfl, fun _ => rfl⟩

/-- One page's header becomes a given one but for events, and no other header but for events. -/
structure HdrMoved (c d : Chip) (p : Page) (x : BlockHdr) : Prop where
  quiet : Safety.quiet d = Safety.quiet c
  own : calm (hdr d p) = calm x
  others : ∀ q, q ≠ p → calm (hdr d q) = calm (hdr c q)
  ints : ∀ q b, bit (hdr c q).int b = true → bit (hdr d q).int b = true

/-- A block whose header was written goes to a state. -/
theorem setState_moved {c e : Chip} {p : Page} {x : BlockHdr} (st : BState) (hq : quiet e = quiet c)
    (hh : ∀ q, hdr e q = if q = p then x else hdr c q) (hi : x.int = (hdr c p).int) :
    HdrMoved c (setState e p st) p { x with state := st } ∧ (x.state ≠ st → bit (hdr (setState e p st) p).int 0 = true) := by
  have hs := setState_spec e p st
  have hp : hdr e p = x := (hh p).trans (if_pos rfl)
  refine ⟨⟨(quiet_setState e p st).trans hq, ?_, fun q hne => ?_, fun q b hb => hs.ints q b ?_⟩,
    fun hne => setState_event (by rw [hp]; exact hne)⟩
  · refine (hs.hdrs p).trans ?_
    rw [hdr_setHdr_self, hp]
    rfl
  · refine (hs.hdrs q).trans ?_
    rw [hdr_setHdr, if_neg hne, hh q, if_neg hne]
    rfl
  · rw [hdr_setHdr]
    split
    · rename_i he
      rw [he] at hb
      rw [hp]
      exact (congrArg (bit · b) hi).trans hb
    · rename_i he
      rw [hh q, if_neg he]
      exact hb

theorem testEntered_spec (c : Chip) (p : Page) : TestEntered c (testEntered c p) p := by
  have hh : ∀ q, hdr (setHdr (setHdr c p { hdr c p with before := some (bstate c p) }) p
      { hdr (setHdr c p { hdr c p with before := some (bstate c p) }) p with selftest := true }) q =
      if q = p then { hdr c p with before := some (bstate c p), selftest := true } else hdr c q := fun q => by
    rw [hdr_setHdr, hdr_setHdr_self, hdr_setHdr]
    split <;> rfl
  obtain ⟨hm, hev⟩ := setState_moved (c := c) .testing
    (show quiet (setHdr (setHdr c p { hdr c p with before := some (bstate c p) }) p
      { hdr (setHdr c p { hdr c p with before := some (bstate c p) }) p with selftest := true }) = quiet c by
      rw [quiet_setHdr, quiet_setHdr]) hh rfl
  have he : testEntered c p = (if p = .host then hostOff (telLeaves (setState (setHdr (setHdr c p
      { hdr c p with before := some (bstate c p) }) p { hdr (setHdr c p { hdr c p with before := some (bstate c p) }) p with
        selftest := true }) p .testing) p)
    else if p = .grid then gridTesting (telLeaves (setState (setHdr (setHdr c p
      { hdr c p with before := some (bstate c p) }) p { hdr (setHdr c p { hdr c p with before := some (bstate c p) }) p with
        selftest := true }) p .testing) p)
    else telLeaves (setState (setHdr (setHdr c p { hdr c p with before := some (bstate c p) }) p
      { hdr (setHdr c p { hdr c p with before := some (bstate c p) }) p with selftest := true }) p .testing) p) := rfl
  generalize setState (setHdr (setHdr c p { hdr c p with before := some (bstate c p) }) p
    { hdr (setHdr c p { hdr c p with before := some (bstate c p) }) p with selftest := true }) p .testing = y at hm hev he
  obtain ⟨h1, h2, h3, h4, h5⟩ := telLeaves_leaves y p
  generalize telLeaves y p = z at he h1 h2 h3 h4 h5
  have hstep : ∀ d : Chip, (∀ q, hdr d q = hdr z q) → PageStep underTest (fun _ h b => b = 0 ∧ h.state ≠ .testing) c d p :=
    fun d hd => ⟨by rw [hd, h5]; exact hm.own, fun q hq => by rw [hd, h5]; exact hm.others q hq,
      fun q b hb => by rw [hd, h5]; exact hm.ints q b hb, fun b hb => by rw [hd, h5, hb.1]; exact hev hb.2⟩
  have hv : veiled z = veiled c := h1.trans (veiled_of_quiet hm.quiet)
  have hho : z.host = c.host := h2.trans (congrArg (·.host) hm.quiet)
  have hg : z.grid = c.grid := h3.trans (congrArg (·.grid) hm.quiet)
  have hsec : p ≠ .tel → z.sec = c.sec := fun hn => (h4 hn).trans (congrArg (·.sec) hm.quiet)
  rw [he]
  by_cases hp : p = .host
  · rw [if_pos hp]
    exact ⟨hstep (hostOff z) fun _ => rfl, hv, fun hn => absurd hp hn, fun _ => hg, hsec⟩
  · rw [if_neg hp]
    by_cases hp' : p = .grid
    · rw [if_pos hp']
      obtain ⟨g1, g2, g3, g4⟩ := gridTesting_leaves z
      exact ⟨hstep _ g4, g1.trans hv, fun _ => g2.trans hho, fun hn => absurd hp' hn, fun hn => g3.trans (hsec hn)⟩
    · rw [if_neg hp']
      exact ⟨hstep z fun _ => rfl, hv, fun _ => hho, fun _ => hg, hsec⟩

/-- What the tests of several blocks leave of the chip beside the headers. -/
structure TestsEntered (c d : Chip) (l : List Page) : Prop where
  headers : PagesDone underTest (fun _ h b => b = 0 ∧ h.state ≠ .testing) c d l
  veil : veiled d = veiled c
  host : .host ∉ l → d.host = c.host
  grid : .grid ∉ l → d.grid = c.grid
  sec : .tel ∉ l → d.sec = c.sec

theorem testsEntered (c : Chip) {l : List Page} (hl : l.Nodup) : TestsEntered c (l.foldl testEntered c) l := by
  refine ⟨pages_done (fun c p => (testEntered_spec c p).header) l hl c, ?_, ?_, ?_, ?_⟩
  · clear hl
    induction l generalizing c with
    | nil => rfl
    | cons p r ih => exact (ih _).trans (testEntered_spec c p).veil
  · clear hl
    induction l generalizing c with
    | nil => exact fun _ => rfl
    | cons p r ih =>
      intro hn
      rw [List.mem_cons, not_or] at hn
      exact (ih _ hn.2).trans ((testEntered_spec c p).host (fun e => hn.1 e.symm))
  · clear hl
    induction l generalizing c with
    | nil => exact fun _ => rfl
    | cons p r ih =>
      intro hn
      rw [List.mem_cons, not_or] at hn
      exact (ih _ hn.2).trans ((testEntered_spec c p).grid (fun e => hn.1 e.symm))
  · clear hl
    induction l generalizing c with
    | nil => exact fun _ => rfl
    | cons p r ih =>
      intro hn
      rw [List.mem_cons, not_or] at hn
      exact (ih _ hn.2).trans ((testEntered_spec c p).sec (fun e => hn.1 e.symm))

/-! ### The write of CHIP.SELFTEST -/

/-- The row of SELFTEST. -/
def rowSelftest : RegRow :=
  ⟨0x05C, 1, .none_, 0, [⟨23, 16, .ro, 0⟩, ⟨9, 9, .ro, 0⟩, ⟨8, 8, .ro, 0⟩, ⟨2, 2, .rwg, 0⟩, ⟨1, 1, .rwg, 0⟩, ⟨0, 0, .rwg, 0⟩]⟩

/-- A write of SELFTEST while the fast domain runs. -/
theorem mgmtWrite_selftest {c : Chip} {r : Requester} (v : Word) (h : Reaches c r .chip) (hf : c.chip.fast = .run)
    (ha : armed c r .chip = true) :
    mgmtWrite c r aCHIP_SELFTEST v = keepStatus (answer (selftestWrite (setArmed c r .chip false) v).2
      (selftestWrite (setArmed c r .chip false) v).1 0) r (selftestWrite (setArmed c r .chip false) v).1 := by
  obtain ⟨x, hx, hw⟩ := mgmtWriteWith_rule (a := aCHIP_SELFTEST) (row := rowSelftest) noArgs v h (by decide)
    rfl rfl (fun _ => ha)
  have hc : (setArmed c r .chip false).chip = c.chip := chip_of_desk (desk_setArmed ..)
  have hrule : writeChip (setArmed c r .chip false) x = selftestWrite (setArmed c r .chip false) v := by
    have hwake : wakeByWrite (setArmed c r .chip false) x = setArmed c r .chip false := by
      rw [wakeByWrite, sleeping, hc, hf]
      rfl
    have hrun : fastRuns (setArmed c r .chip false) = true := by rw [fastRuns, hc, hf]; rfl
    unfold writeChip
    rw [hx.addr, if_neg (by decide), if_neg (by decide), if_neg (by decide), if_pos rfl]
    dsimp only
    rw [hwake, hrun, if_neg (fun y => by cases y.2), hx.ones]
  rw [show pageOf (aCHIP_SELFTEST / 0x4000) = .chip from rfl, pageWrite_chip (by rw [hx.addr]; rfl), hrule] at hw
  exact hw

/-- The blocks that a whole-chip test takes. -/
def pagesTested (c : Chip) (ports : Bool) : List Page :=
  (testedPages ports).filter (fun p => decide (bstate c p = .on ∨ bstate c p = .disabled))

theorem nodup_pagesTested (c : Chip) (ports : Bool) : (pagesTested c ports).Nodup :=
  ((show (allPages).Nodup by decide).filter _).filter _

theorem not_testing_of_mem {c : Chip} {ports : Bool} {p : Page} (h : p ∈ pagesTested c ports) : bstate c p ≠ .testing := by
  have hs : bstate c p = .on ∨ bstate c p = .disabled := of_decide_eq_true (List.mem_filter.1 h).2
  rcases hs with hs | hs <;> rw [hs] <;> decide

/-- The chip with every block of a whole-chip test in TESTING, and RUNNING shown. -/
def wholeTest (c : Chip) (ports : Bool) : Chip :=
  setFld (withChip ((pagesTested c ports).foldl testEntered c)
    { ((pagesTested c ports).foldl testEntered c).chip with testing := pagesTested c ports }) aCHIP_SELFTEST 23 8 1

/-- A whole-chip test that has begun. -/
structure TestBegun (c d : Chip) (l : List Page) : Prop where
  headers : PagesDone underTest (fun _ h b => b = 0 ∧ h.state ≠ .testing) c d l
  veil : veiled d = veiled (withChip c { c.chip with testing := l })
  host : .host ∉ l → d.host = c.host
  grid : .grid ∉ l → d.grid = c.grid
  sec : .tel ∉ l → d.sec = c.sec
  running : bit (reg d aCHIP_SELFTEST) 8 = true
  status : fld (reg d aCHIP_SELFTEST) 23 16 = 0

/-- A field within one that was stored. -/
theorem fld_setFld_within (c : Chip) (a : Nat) {hi lo h l : Nat} (v : Nat) (h1 : lo ≤ l) (h2 : l ≤ h) (h3 : h ≤ hi) (h32 : hi < 32) :
    fld (reg (setFld c a hi lo v) a) h l = (v >>> (l - lo)) % 2 ^ (h - l + 1) := by
  refine Nat.eq_of_testBit_eq fun i => ?_
  rw [testBit_fld, Nat.testBit_mod_two_pow, Nat.testBit_shiftRight]
  by_cases hi' : i < h - l + 1
  · rw [bit_setFld _ _ _ _ (by omega), if_pos (by omega), show l - lo + i = l + i - lo by omega]
  · simp [hi']

theorem wholeTest_begun (c : Chip) (ports : Bool) : TestBegun c (wholeTest c ports) (pagesTested c ports) := by
  have ht := testsEntered c (nodup_pagesTested c ports)
  unfold wholeTest
  generalize pagesTested c ports = l at ht ⊢
  generalize l.foldl testEntered c = e at ht ⊢
  have hc : e.chip = c.chip := congrArg (·.chip) ht.veil
  have hq := quiet_setFld (withChip e { e.chip with testing := l }) aCHIP_SELFTEST 23 8 1
  have hh := hdr_setFld (withChip e { e.chip with testing := l }) aCHIP_SELFTEST 23 8 1
  have hrun : bit (reg (setFld (withChip e { e.chip with testing := l }) aCHIP_SELFTEST 23 8 1) aCHIP_SELFTEST) 8 = true :=
    (bit_setFld _ _ _ _ (by decide)).trans ((if_pos (by decide)).trans (by decide))
  have hst : fld (reg (setFld (withChip e { e.chip with testing := l }) aCHIP_SELFTEST 23 8 1) aCHIP_SELFTEST) 23 16 = 0 :=
    (fld_setFld_within _ _ _ (by decide) (by decide) (by decide) (by decide)).trans (by decide)
  generalize setFld (withChip e { e.chip with testing := l }) aCHIP_SELFTEST 23 8 1 = d at hq hh hrun hst
  have hhe : ∀ q, hdr d q = hdr e q := hh
  refine ⟨⟨fun p hp => ?_, fun p hp => ?_, fun p b hb => ?_, fun p hp b hb => ?_⟩, ?_, fun hn => ?_, fun hn => ?_, fun hn => ?_,
    hrun, hst⟩
  · rw [hhe]
    exact ht.headers.own p hp
  · rw [hhe]
    exact ht.headers.others p hp
  · rw [hhe]
    exact ht.headers.ints p b hb
  · rw [hhe]
    exact ht.headers.events p hp b hb
  · refine (veiled_of_quiet hq).trans ?_
    rw [← hc]
    exact congrArg (fun x : Chip => withChip x { e.chip with testing := l }) ht.veil
  · exact (congrArg (·.host) hq).trans (ht.host hn)
  · exact (congrArg (·.grid) hq).trans (ht.grid hn)
  · exact (congrArg (·.sec) hq).trans (ht.sec hn)

/-- What a write of SELFTEST with START does, with every figure applied. -/
theorem selftestWrite_cases {c : Chip} (v : Word) (hc : c.fig.committed = []) :
    (bit v 0 = false → selftestWrite c v = (stOK, c)) ∧
    (bit v 0 = true → (c.chip.testing ≠ [] ∨ (chipBusy c = true ∧ bit v 1 = false)) →
      selftestWrite c v = (rejBusy, setFld c aCHIP_SELFTEST 23 16 rejBusy)) ∧
    (bit v 0 = true → ¬ (c.chip.testing ≠ [] ∨ (chipBusy c = true ∧ bit v 1 = false)) →
      ∃ d, (bit v 1 = false → d = c) ∧ selftestWrite c v = (stOK, wholeTest d (bit v 2))) := by
  have hb : (chipBusy c = true ∧ (!bit v 1) = true) ↔ (chipBusy c = true ∧ bit v 1 = false) := by
    rw [Bool.not_eq_true']
  unfold selftestWrite
  rw [settle_idle hc]
  dsimp only
  refine ⟨fun h => by rw [if_pos h], fun h hbusy => ?_, fun h hbusy => ?_⟩
  · rw [if_neg (by rw [h]; exact fun x => Bool.false_ne_true x.symm), if_pos (hbusy.imp_right hb.2)]
  · rw [if_neg (by rw [h]; exact fun x => Bool.false_ne_true x.symm), if_neg (fun x => hbusy (x.imp_right hb.1))]
    cases hf : bit v 1
    · exact ⟨c, fun _ => rfl, rfl⟩
    · exact ⟨_, fun x => absurd x.symm Bool.false_ne_true, rfl⟩

/-- CHIP_SELFTEST_START. -/
theorem chipSelftestStarts {s : State} {r : Requester} (v : Word) (h : Reaches s.toChip r .chip) (hf : s.chip.fast = .run)
    (hc : s.fig.committed = []) (ha : armed s.toChip r .chip = true) :
    let busy := s.chip.testing ≠ [] ∨ (chipBusy s.toChip = true ∧ bit v 1 = false)
    let ps := pagesTested s.toChip (bit v 2)
    let begun := fun (t : State) => t.chip.testing = ps ∧ bit (reg t.toChip aCHIP_SELFTEST) 8 = true ∧
      fld (reg t.toChip aCHIP_SELFTEST) 23 16 = 0 ∧
      (∀ p ∈ ps, bstate t.toChip p = .testing ∧ (hdr t.toChip p).selftest = true ∧
        (hdr t.toChip p).before = some (bstate s.toChip p) ∧ Event t p 0) ∧
      ∀ p, p ∉ ps → bstate t.toChip p = bstate s.toChip p
    (bit v 0 = false → Accepted (.chipSelftestStart r v) s r s.toChip (fun _ => True)) ∧
    (bit v 0 = true → busy → Answered (.chipSelftestStart r v) s r 0x20 s.toChip (fun t =>
      fld (reg t.toChip aCHIP_SELFTEST) 23 16 = 0x20)) ∧
    (bit v 0 = true → ¬ busy → bit v 1 = false → AcceptedWith (.chipSelftestStart r v) s r (fun t => begun t ∧
      desk { t.toChip with grid := s.grid, sec := s.sec, host := s.host } =
        desk { s.toChip with chip := { s.chip with testing := ps } } ∧
      (bit v 2 = false → t.host = s.host) ∧ (.grid ∉ ps → t.grid = s.grid) ∧ (.tel ∉ ps → t.sec = s.sec))) ∧
    (bit v 0 = true → ¬ busy → bit v 1 = true → AcceptedWith (.chipSelftestStart r v) s r (fun t =>
      bit (reg t.toChip aCHIP_SELFTEST) 8 = true ∧ ∀ p ∈ t.chip.testing, bstate t.toChip p = .testing)) := by
  have he : exec (.chipSelftestStart r v) s = .next (after s (mgmtWrite s.toChip r aCHIP_SELFTEST v)) := rfl
  rw [mgmtWrite_selftest v h hf ha] at he
  have hd := desk_setArmed s.toChip r .chip false
  have hcm : (setArmed s.toChip r .chip false).fig.committed = [] := (congrArg (·.fig.committed) hd).trans hc
  have hchip := chip_of_desk hd
  have hbusy : chipBusy (setArmed s.toChip r .chip false) = chipBusy s.toChip := by cases r <;> rfl
  have hps : pagesTested (setArmed s.toChip r .chip false) (bit v 2) = pagesTested s.toChip (bit v 2) := by cases r <;> rfl
  have hh : ∀ q, hdr (setArmed s.toChip r .chip false) q = hdr s.toChip q := fun q => by cases r <;> rfl
  have hsm : (setArmed s.toChip r .chip false).smb = s.smb := by cases r <;> rfl
  generalize setArmed s.toChip r .chip false = c at he hd hcm hchip hbusy hps hh hsm
  obtain ⟨h0, h1, h2⟩ := selftestWrite_cases v hcm
  rw [hchip, hbusy] at h1 h2
  refine ⟨fun hv => answered_after he (h0 hv) hd trivial, fun hv hb => ?_, fun hv hb hn => ?_, fun hv hb hn => ?_⟩
  · refine answered_after he (h1 hv hb) ((desk_of_quiet (quiet_setFld ..)).trans hd) ?_
    rw [reg_answered, fld_setFld_self _ _ _ (by decide) (by decide)]
    rfl
  · obtain ⟨d, hdc, hw⟩ := h2 hv hb
    rw [hdc hn] at hw
    have hbg := wholeTest_begun c (bit v 2)
    rw [hps] at hbg
    generalize wholeTest c (bit v 2) = e at hw hbg
    have hdr' : ∀ q, hdr (after s (keepStatus (answer e stOK 0) r stOK)).toChip q = hdr e q := fun q => hdr_answered ..
    have hown := hbg.headers.own
    have hcalm : ∀ q, calm (hdr c q) = calm (hdr s.toChip q) := fun q => by rw [hh]
    refine acceptedWith_after he hw ⟨⟨?_, ?_, ?_, fun p hp => ⟨?_, ?_, ?_, ?_⟩, fun p hp => ?_⟩, ?_, fun hv2 => ?_, fun hg => ?_, fun ht => ?_⟩
    · have hce : e.chip = { c.chip with testing := pagesTested s.toChip (bit v 2) } := congrArg (·.chip) hbg.veil
      have hca : (after s (keepStatus (answer e stOK 0) r stOK)).chip = e.chip := by cases r <;> rfl
      rw [hca, hce]
    · rw [reg_answered]
      exact hbg.running
    · rw [reg_answered]
      exact hbg.status
    · rw [bstate, hdr']
      exact congrArg (·.state) (hown p hp)
    · rw [hdr']
      exact congrArg (·.selftest) (hown p hp)
    · rw [hdr']
      refine (congrArg (·.before) (hown p hp)).trans ?_
      rw [hcalm]
      rfl
    · rw [Event, hdr']
      refine hbg.headers.events p hp 0 ⟨rfl, ?_⟩
      rw [hcalm]
      exact not_testing_of_mem hp
    · rw [bstate, hdr', bstate]
      exact congrArg (·.state) ((hbg.headers.others p hp).trans (hcalm p))
    · have hda : desk { (after s (keepStatus (answer e stOK 0) r stOK)).toChip with grid := s.grid, sec := s.sec, host := s.host } =
          desk { e with grid := s.grid, sec := s.sec, host := s.host } := by cases r <;> rfl
      have hde := congrArg (fun x : Chip => desk { x with grid := s.grid, sec := s.sec, host := s.host }) hbg.veil
      have hdc := congrArg (fun x : Chip => { withChip x { s.chip with testing := pagesTested s.toChip (bit v 2) } with
        grid := s.grid, sec := s.sec, host := s.host }) hd
      rw [hda]
      refine Eq.trans hde (Eq.trans ?_ hdc)
      rw [hchip]
      rfl
    · have hn : Page.host ∉ pagesTested s.toChip (bit v 2) := fun hm => by
        rw [hv2] at hm
        exact absurd (List.mem_filter.1 hm).1 (by decide)
      have hx : (after s (keepStatus (answer e stOK 0) r stOK)).host = e.host := by cases r <;> rfl
      exact hx.trans ((hbg.host hn).trans (congrArg (·.host) hd))
    · have hx : (after s (keepStatus (answer e stOK 0) r stOK)).grid = e.grid := by cases r <;> rfl
      exact hx.trans ((hbg.grid hg).trans (congrArg (·.grid) hd))
    · have hx : (after s (keepStatus (answer e stOK 0) r stOK)).sec = e.sec := by cases r <;> rfl
      exact hx.trans ((hbg.sec ht).trans (congrArg (·.sec) hd))
  · obtain ⟨d, -, hw⟩ := h2 hv hb
    have hbg := wholeTest_begun d (bit v 2)
    have hce : (wholeTest d (bit v 2)).chip = { d.chip with testing := pagesTested d (bit v 2) } := congrArg (·.chip) hbg.veil
    generalize wholeTest d (bit v 2) = e at hw hbg hce
    refine acceptedWith_after he hw ⟨?_, fun p hp => ?_⟩
    · rw [reg_answered]
      exact hbg.running
    · have hca : (after s (keepStatus (answer e stOK 0) r stOK)).chip = e.chip := by cases r <;> rfl
      rw [hca, hce] at hp
      rw [bstate, hdr_answered]
      exact congrArg (·.state) (hbg.headers.own p hp)

/-! ### The end of the whole-chip self-test -/

/-- The chip but for GRID, which the end of a test of its block changes. -/
def gridless (c : Chip) : Chip := quiet { c with grid := Chip.reset.grid }

/-- The chip but for GRID and HOST. -/
def linkless (c : Chip) : Chip := quiet { c with grid := Chip.reset.grid, host := Chip.reset.host }

theorem gridless_of_quiet {c d : Chip} (h : quiet d = quiet c) : gridless d = gridless c := by
  have := congrArg gridless h
  exact this

theorem linkless_of_gridless {c d : Chip} (h : gridless d = gridless c) : linkless d = linkless c := by
  have := congrArg linkless h
  exact this

theorem gridless_coreTested (c : Chip) (n : Nat) (res : TestResult) : gridless (coreTested c n res) = gridless c := by
  have hset : ∀ (d : Chip) (k : Core), gridless (setCore d n k) = gridless d := fun _ _ => rfl
  have hr : ∀ (d : Chip) (b : Nat), gridless (raise d .grid b) = gridless d := fun d b =>
    gridless_of_quiet (quiet_raise d .grid b)
  have hf : ∀ d : Chip, gridless (fault d 0x18 .grid n 0 false) = gridless d := fun d =>
    gridless_of_quiet (quiet_fault d 0x18 .grid n 0 false (fun x => absurd x (by decide)))
  unfold coreTested
  dsimp only
  rw [hr]
  cases res with
  | pass => rfl
  | slow =>
    dsimp only
    rw [hr, hset]
    rfl
  | fail =>
    dsimp only
    rw [hf, hr, hset]
    rfl

theorem gridless_gridTested (c : Chip) (pass : Bool) : gridless (gridTested c pass) = gridless c := by
  have hstep : ∀ (d : Chip) (n : Nat), gridless (gridTestedCore pass d n) = gridless d := fun d n => by
    have hset : ∀ (e : Chip) (k : Core), gridless (setCore e n k) = gridless e := fun _ _ => rfl
    unfold gridTestedCore
    dsimp only
    split
    · rw [hset, gridless_coreTested]
      rfl
    · rw [gridless_coreTested]
      rfl
  unfold gridTested
  generalize List.range 256 = l
  induction l generalizing c with
  | nil => rfl
  | cons n r ih => exact (ih _).trans (hstep c n)

/-- Every header but one page's stands but for events, no event is lost, and the rest of the chip but GRID stands. -/
structure LeavesOthers (c d : Chip) (p : Page) : Prop where
  others : ∀ q, q ≠ p → calm (hdr d q) = calm (hdr c q)
  ints : ∀ q b, bit (hdr c q).int b = true → bit (hdr d q).int b = true
  rest : gridless d = gridless c

theorem LeavesOthers.trans {a b c : Chip} {p : Page} (h : LeavesOthers a b p) (g : LeavesOthers b c p) : LeavesOthers a c p :=
  ⟨fun q hq => (g.others q hq).trans (h.others q hq), fun q n hb => g.ints q n (h.ints q n hb), g.rest.trans h.rest⟩

theorem LeavesOthers.of_headed {c d : Chip} {p : Page} (h : Headed c d) (hg : gridless d = gridless c) : LeavesOthers c d p :=
  ⟨fun q _ => h.hdrs q, h.ints, hg⟩

theorem LeavesOthers.of_setHdr (c : Chip) (p : Page) {x : BlockHdr} (hi : x.int = (hdr c p).int) :
    LeavesOthers c (setHdr c p x) p := by
  refine ⟨fun q hq => ?_, fun q b hb => ?_, gridless_of_quiet (quiet_setHdr ..)⟩
  · rw [hdr_setHdr, if_neg hq]
  · rw [hdr_setHdr]
    split
    · rename_i he
      rw [he] at hb
      exact (congrArg (bit · b) hi).trans hb
    · exact hb

theorem testResult_leaves (c : Chip) (p : Page) (pass : Bool) : LeavesOthers c (testResult c p pass) p := by
  have hg : LeavesOthers c (if p = .grid then gridTested c pass else c) p := by
    split
    · exact .of_headed (headed_gridTested c pass) (gridless_gridTested c pass)
    · exact .of_headed (Headed.refl c) rfl
  unfold testResult
  dsimp only
  generalize (if p = .grid then gridTested c pass else c) = ca at hg ⊢
  have h1 := hg.trans (.of_setHdr ca p (x := { hdr ca p with selftest := false, stRan := true, stFail := !pass }) rfl)
  generalize setHdr ca p { hdr ca p with selftest := false, stRan := true, stFail := !pass } = d at h1 ⊢
  have h2 := h1.trans (.of_headed (.of_minor (minor_raises d ([(p, 5)] ++ (if pass then [] else [(p, 6)]))))
    (gridless_of_quiet (quiet_raises ..)))
  generalize raises d ([(p, 5)] ++ (if pass then [] else [(p, 6)])) = e at h2 ⊢
  split
  · exact h2
  · exact h2.trans (.of_headed (.of_minor (minor_fault e 0x1D p 0 0 false (by decide)))
      (gridless_of_quiet (quiet_fault _ _ _ _ _ _ (fun x => absurd x (by decide)))))

/-- The header of a block whose test has ended. -/
def afterTest (failed : List Page) (p : Page) (h : BlockHdr) : BlockHdr :=
  { h with
    state := if p ∈ failed then .disabled else h.before.getD .disabled
    before := none, selftest := false, stRan := true, stFail := decide (p ∈ failed) }

/-- The events of a test's end. -/
def endEvents (failed : List Page) (p : Page) (_ : BlockHdr) (b : Nat) : Prop := b = 5 ∨ (b = 6 ∧ p ∈ failed)

/-- What the end of a block's test leaves of the chip beside its header. -/
structure TestLeft (failed : List Page) (c d : Chip) (p : Page) : Prop where
  header : PageStep (afterTest failed) (endEvents failed) c d p
  veil : linkless d = linkless c
  host : p ≠ .host → d.host = c.host
  grid : p ≠ .grid → d.grid = c.grid

theorem linkless_hostOn (c : Chip) : linkless (hostOn c) = linkless c := by
  unfold hostOn
  split <;> rfl

theorem hdr_hostOn (c : Chip) (p : Page) : hdr (hostOn c) p = hdr c p := by
  unfold hostOn
  split <;> rfl

/-- A block leaves TESTING, with HOST's link where it is HOST. -/
theorem leaveTesting_leaves (c : Chip) (p : Page) (st : BState) :
    linkless (leaveTesting c p st) = linkless c ∧ (leaveTesting c p st).grid = c.grid ∧
    (p ≠ .host → (leaveTesting c p st).host = c.host) ∧ ∀ q, hdr (leaveTesting c p st) q = hdr (setState c p st) q := by
  have hq := quiet_setState c p st
  have hl : linkless (setState c p st) = linkless c := linkless_of_gridless (gridless_of_quiet hq)
  have he : leaveTesting c p st = if p = .host then hostOn (setState c p st) else setState c p st := rfl
  rw [he]
  generalize setState c p st = d at hq hl
  by_cases h : p = .host
  · rw [if_pos h]
    have hg : (hostOn d).grid = d.grid := by
      unfold hostOn
      split <;> rfl
    exact ⟨(linkless_hostOn d).trans hl, hg.trans (congrArg (·.grid) hq), fun hn => absurd h hn, hdr_hostOn d⟩
  · rw [if_neg h]
    exact ⟨hl, congrArg (·.grid) hq, fun _ => congrArg (·.host) hq, fun _ => rfl⟩

theorem testedResult_spec (failed : List Page) (c : Chip) (p : Page) : TestLeft failed c (testedResult failed c p) p := by
  have he : testedResult failed c p = testResult (setHdr (leaveTesting c p
      (if decide (p ∉ failed) then (hdr c p).before.getD .disabled else .disabled)) p
      { hdr (leaveTesting c p (if decide (p ∉ failed) then (hdr c p).before.getD .disabled else .disabled)) p with
        before := none }) p (decide (p ∉ failed)) := rfl
  obtain ⟨st, hst⟩ : ∃ st, st = if decide (p ∉ failed) then (hdr c p).before.getD .disabled else .disabled := ⟨_, rfl⟩
  rw [← hst] at he
  obtain ⟨hm, -⟩ := setState_moved (c := c) (e := c) (p := p) (x := hdr c p) st rfl (fun q => by split <;> simp [*]) rfl
  obtain ⟨h1, h2, h3, h4⟩ := leaveTesting_leaves c p st
  generalize leaveTesting c p st = y at he h1 h2 h3 h4
  have hy := LeavesOthers.of_setHdr y p (x := { hdr y p with before := none }) rfl
  have hyp : calm (hdr (setHdr y p { hdr y p with before := none }) p) = { calm (hdr c p) with state := st, before := none } := by
    rw [hdr_setHdr_self, h4]
    exact congrArg (fun h : BlockHdr => { h with before := none }) hm.own
  have hyh : (setHdr y p { hdr y p with before := none }).host = y.host := rfl
  have hyg : (setHdr y p { hdr y p with before := none }).grid = y.grid := rfl
  generalize setHdr y p { hdr y p with before := none } = z at he hy hyp hyh hyg
  have hn := testResult_noted z p (decide (p ∉ failed))
  have hr := hy.trans (testResult_leaves z p (decide (p ∉ failed)))
  have hz := testResult_leaves z p (decide (p ∉ failed))
  have hq : p ≠ .grid → quiet (testResult z p (decide (p ∉ failed))) = quiet z := quiet_testResult _
  rw [he]
  generalize testResult z p (decide (p ∉ failed)) = d at hn hr hz hq
  refine ⟨⟨?_, fun q hne => ?_, fun q b hb => ?_, fun b hb => ?_⟩, ?_, fun hp => ?_, fun hp => ?_⟩
  · refine hn.hdr.trans ((congrArg (fun h => testedHdr h (decide (p ∉ failed))) hyp).trans ?_)
    rw [hst]
    by_cases h : p ∈ failed <;> simp [afterTest, testedHdr, calm, h]
  · rw [hr.others q hne, h4]
    exact hm.others q hne
  · refine hr.ints q b ?_
    rw [h4]
    exact hm.ints q b hb
  · rcases hb with rfl | ⟨rfl, hf⟩
    · exact hn.ran
    · exact hn.failed (decide_eq_false (fun h => h hf))
  · exact (linkless_of_gridless hr.rest).trans h1
  · exact (congrArg (·.host) hz.rest).trans (hyh.trans (h3 hp))
  · exact (congrArg (·.grid) (hq hp)).trans (hyg.trans h2)

/-- What the ends of several blocks' tests leave of the chip beside the headers. -/
structure TestsLeft (failed : List Page) (c d : Chip) (l : List Page) : Prop where
  headers : PagesDone (afterTest failed) (endEvents failed) c d l
  veil : linkless d = linkless c
  host : .host ∉ l → d.host = c.host
  grid : .grid ∉ l → d.grid = c.grid

theorem testsLeft (failed : List Page) (c : Chip) {l : List Page} (hl : l.Nodup) :
    TestsLeft failed c (l.foldl (testedResult failed) c) l := by
  refine ⟨pages_done (fun c p => (testedResult_spec failed c p).header) l hl c, ?_, ?_, ?_⟩
  · clear hl
    induction l generalizing c with
    | nil => rfl
    | cons p r ih => exact (ih _).trans (testedResult_spec failed c p).veil
  · clear hl
    induction l generalizing c with
    | nil => exact fun _ => rfl
    | cons p r ih =>
      intro hn
      rw [List.mem_cons, not_or] at hn
      exact (ih _ hn.2).trans ((testedResult_spec failed c p).host (fun e => hn.1 e.symm))
  · clear hl
    induction l generalizing c with
    | nil => exact fun _ => rfl
    | cons p r ih =>
      intro hn
      rw [List.mem_cons, not_or] at hn
      exact (ih _ hn.2).trans ((testedResult_spec failed c p).grid (fun e => hn.1 e.symm))

/-- CHIP_SELFTEST_END. -/
theorem chipSelftestEnds {s : State} (failed : List Page) (hw : Awake s.toChip) :
    (s.chip.testing = [] → exec (.chipSelftestEnd failed) s = .next (after s s.toChip)) ∧
    (s.chip.testing ≠ [] → s.chip.testing.Nodup → FigIdle s.toChip →
      Completes (.chipSelftestEnd failed) s (fun t =>
        quiet { t.toChip with grid := s.grid, host := s.host } = quiet { s.toChip with chip := { s.chip with testing := [] } } ∧
        (.host ∉ s.chip.testing → t.host = s.host) ∧ (.grid ∉ s.chip.testing → t.grid = s.grid) ∧
        Event t .chip 18 ∧ bit (reg t.toChip aCHIP_SELFTEST) 8 = false ∧
        bit (reg t.toChip aCHIP_SELFTEST) 9 = s.chip.testing.any (fun p => decide (p ∈ failed)) ∧
        (∀ p ∈ s.chip.testing, p ∉ failed → bstate t.toChip p = (hdr s.toChip p).before.getD .disabled ∧
          (hdr t.toChip p).stRan = true ∧ (hdr t.toChip p).stFail = false ∧ Event t p 5) ∧
        (∀ p ∈ s.chip.testing, p ∈ failed → bstate t.toChip p = .disabled ∧ (hdr t.toChip p).stFail = true ∧ Event t p 6) ∧
        ∀ p, p ∉ s.chip.testing → bstate t.toChip p = bstate s.toChip p)) := by
  have he : exec (.chipSelftestEnd failed) s = act s (fun c => whenAwake c (fun c => chipSelftestEnd c failed)) := rfl
  rw [act_whenAwake hw] at he
  refine ⟨fun h => ?_, fun h hnd hi => ?_⟩
  · rw [he, chipSelftestEnd, if_pos h]
  obtain ⟨⟨hc, hwt, ho, hr, hp⟩, -, -⟩ := hi
  rw [chipSelftestEnd, if_neg h] at he
  dsimp only at he
  have ht := testsLeft failed (withChip s.toChip { s.chip with testing := [] }) hnd
  change exec _ s = .next (after s (kick (settle (releaseWaiting (raise (setFld (s.chip.testing.foldl (testedResult failed)
    (withChip s.toChip { s.chip with testing := [] })) _ 9 8 _) .chip 18))))) at he
  generalize s.chip.testing.foldl (testedResult failed) (withChip s.toChip { s.chip with testing := [] }) = d at ht he
  generalize s.chip.testing.any (fun p => decide (p ∈ failed)) = some at he ⊢
  have h8 : bit (reg (setFld d aCHIP_SELFTEST 9 8 (2 * b2n some)) aCHIP_SELFTEST) 8 = false := by
    rw [bit_setFld _ _ _ _ (by decide), if_pos (by decide)]
    cases some <;> decide
  have h9 : bit (reg (setFld d aCHIP_SELFTEST 9 8 (2 * b2n some)) aCHIP_SELFTEST) 9 = some := by
    rw [bit_setFld _ _ _ _ (by decide), if_pos (by decide)]
    cases some <;> decide
  have hq := quiet_setFld d aCHIP_SELFTEST 9 8 (2 * b2n some)
  have hh := hdr_setFld d aCHIP_SELFTEST 9 8 (2 * b2n some)
  generalize setFld d aCHIP_SELFTEST 9 8 (2 * b2n some) = e at he h8 h9 hq hh
  have hm := minor_raise e .chip 18
  have h18 : bit (hdr (raise e .chip 18) .chip).int 18 = true := raises_int (l := [(.chip, 18)]) (by decide) (by simp)
  generalize raise e .chip 18 = f at he hm h18
  have hqf : quiet f = quiet d := hm.quiet.trans hq
  have hwork : pendingWork f = pendingWork s.toChip := by
    have hl := congrArg pendingWork ht.veil
    exact (work_of_quiet hqf).trans hl
  rw [releaseWaiting_none ((congrArg (·.2.2.2.2.1) hwork).trans hwt), settle_idle ((congrArg (·.2.2.2.1) hwork).trans hc),
    kick_idle ((congrArg (·.1) hwork).trans ho) ((congrArg (·.2.1) hwork).trans hr) ((congrArg (·.2.2.1) hwork).trans hp)] at he
  have hown : ∀ p ∈ s.chip.testing, calm (hdr f p) = afterTest failed p (calm (hdr s.toChip p)) := fun p hp =>
    (hm.hdrs p).trans ((congrArg calm (hh p)).trans (ht.headers.own p hp))
  have hev : ∀ p ∈ s.chip.testing, ∀ b, endEvents failed p (calm (hdr s.toChip p)) b → bit (hdr f p).int b = true :=
    fun p hp b hb => hm.ints p b (by rw [hh]; exact ht.headers.events p hp b hb)
  refine ⟨_, he, after_pending _ _, ?_, fun hn => ?_, fun hn => ?_, h18, ?_, ?_, fun p hp hnf => ⟨?_, ?_, ?_, ?_⟩,
    fun p hp hf => ⟨?_, ?_, ?_⟩, fun p hp => ?_⟩
  · have hl : linkless f = linkless (withChip s.toChip { s.chip with testing := [] }) :=
      (linkless_of_gridless (gridless_of_quiet hqf)).trans ht.veil
    exact congrArg (fun x : Chip => quiet { x with grid := s.grid, host := s.host }) hl
  · exact (congrArg (·.host) hqf).trans (ht.host hn)
  · exact (congrArg (·.grid) hqf).trans (ht.grid hn)
  · exact (congrArg (bit · 8) (hm.regs (rkey 0 aCHIP_SELFTEST) (by decide))).trans h8
  · exact (congrArg (bit · 9) (hm.regs (rkey 0 aCHIP_SELFTEST) (by decide))).trans h9
  · exact (congrArg (·.state) (hown p hp)).trans (if_neg hnf)
  · exact congrArg (·.stRan) (hown p hp)
  · exact (congrArg (·.stFail) (hown p hp)).trans (decide_eq_false hnf)
  · exact hev p hp 5 (.inl rfl)
  · exact (congrArg (·.state) (hown p hp)).trans (if_pos hf)
  · exact (congrArg (·.stFail) (hown p hp)).trans (decide_eq_true hf)
  · exact hev p hp 6 (.inr ⟨rfl, hf⟩)
  · exact (congrArg (·.state) (hm.hdrs p)).trans ((congrArg (·.state) (hh p)).trans (congrArg (·.state) (ht.headers.others p hp)))

/-! ### Update (R502): the write of START -/

/-- The row of UPDATE. -/
def rowUpdate : RegRow :=
  ⟨0x064, 1, .none_, 0, [⟨31, 24, .ro, 0⟩, ⟨23, 16, .ro, 0⟩, ⟨8, 8, .ro, 0⟩, ⟨1, 1, .rwg, 0⟩, ⟨0, 0, .rwg, 0⟩]⟩

/-- A write of UPDATE, stored. -/
def updateStored (c : Chip) (v : Word) : Chip := setKey c (rkey 0 aCHIP_UPDATE) (storeMask rowUpdate) v

/-- START and KEEP as a write of UPDATE gives them to its rule. -/
def updateArgs (v : Word) : Word := w32 (b2n (bit v 0) + 2 * b2n (bit v 1))

/-- What the rule of UPDATE answers, with the unlock consumed. -/
def updateAnswer (c : Chip) (v : Word) : Nat × Chip :=
  if (updateWrite (updateStored c v) (updateArgs v)).1 = stOK then updateWrite (updateStored c v) (updateArgs v)
  else ((updateWrite (updateStored c v) (updateArgs v)).1, c)

/-- An unlocked write of UPDATE while the fast domain runs. -/
theorem mgmtWrite_update {c : Chip} {r : Requester} (v : Word) (h : Reaches c r .chip) (hf : c.chip.fast = .run)
    (ha : armed c r .chip = true) :
    mgmtWrite c r aCHIP_UPDATE v = keepStatus (answer (updateAnswer (setArmed c r .chip false) v).2
      (updateAnswer (setArmed c r .chip false) v).1 0) r (updateAnswer (setArmed c r .chip false) v).1 := by
  obtain ⟨x, hx, hw⟩ := mgmtWriteWith_rule (a := aCHIP_UPDATE) (row := rowUpdate) noArgs v h (by decide)
    rfl rfl (fun _ => ha)
  have hc : (setArmed c r .chip false).chip = c.chip := chip_of_desk (desk_setArmed ..)
  have hb : x.bank = 0 := hx.bank
  have hst : storeReg (setArmed c r .chip false) x = updateStored (setArmed c r .chip false) v := by
    rw [storeReg_single _ hx.lo, hb, hx.addr, hx.row, hx.new]
    rfl
  have hrule : writeChip (setArmed c r .chip false) x = updateAnswer (setArmed c r .chip false) v := by
    have hwake : wakeByWrite (setArmed c r .chip false) x = setArmed c r .chip false := by
      rw [wakeByWrite, sleeping, hc, hf]
      rfl
    have hrun : fastRuns (setArmed c r .chip false) = true := by rw [fastRuns, hc, hf]; rfl
    unfold writeChip
    rw [hx.addr, if_neg (by decide), if_neg (by decide), if_neg (by decide), if_neg (by decide), if_pos rfl]
    dsimp only
    rw [hwake, hrun, if_neg (fun y => by cases y.2), hst, hx.ones, hx.new]
    rfl
  rw [show pageOf (aCHIP_UPDATE / 0x4000) = .chip from rfl, pageWrite_chip (by rw [hx.addr]; rfl), hrule] at hw
  exact hw

/-- CHIP while an update runs. -/
def updateBegun (h : ChipUnit) (tag : Word) (keep waits : Bool) (image : List Byte) : ChipUnit :=
  { h with updating := true, updateTag := tag, updatePrefer := !keep, updateWaits := waits, updateImage := image }

theorem updateArgs_bits (v : Word) : bit (updateArgs v) 0 = bit v 0 ∧ bit (updateArgs v) 1 = bit v 1 := by
  have h : ∀ a b : Bool, bit (w32 (b2n a + 2 * b2n b)) 0 = a ∧ bit (w32 (b2n a + 2 * b2n b)) 1 = b := by decide
  exact h _ _

/-- The bytes that an update reads. -/
def updateBytes (c : Chip) (tag : Word) : List Byte := regionRead c tag 0 (min bankBytes (region c (tag.toNat / 256)).len)

theorem updateAnswer_cases {c : Chip} (v : Word) (hc : c.fig.committed = []) :
    (bit v 0 = false → updateAnswer c v = (stOK, updateStored c v)) ∧
    (bit v 0 = true → c.chip.updating = true → updateAnswer c v = (rejBusy, c)) ∧
    (bit v 0 = true → c.chip.updating = false → regionCheck c 0 (reg c aCHIP_UPDATE_TAG) 0 0 ≠ stOK →
      updateAnswer c v = (regionCheck c 0 (reg c aCHIP_UPDATE_TAG) 0 0, c)) ∧
    (bit v 0 = true → c.chip.updating = false → regionCheck c 0 (reg c aCHIP_UPDATE_TAG) 0 0 = stOK →
      updateAnswer c v = (stOK, setUpdate (withChip (updateStored c v) (updateBegun c.chip (reg c aCHIP_UPDATE_TAG) (bit v 1)
        (hdr c .sec).selftest (updateBytes c (reg c aCHIP_UPDATE_TAG)))) 0 0 true)) := by
  obtain ⟨h0, h1⟩ := updateArgs_bits v
  have htag : reg (updateStored c v) aCHIP_UPDATE_TAG = reg c aCHIP_UPDATE_TAG := regKey_setKey_other _ _ _ _ _ (by decide)
  have hw : updateWrite (updateStored c v) (updateArgs v) =
      if bit v 0 = false then (stOK, updateStored c v)
      else if c.chip.updating then (rejBusy, updateStored c v)
      else if regionCheck c 0 (reg c aCHIP_UPDATE_TAG) 0 0 ≠ stOK then
        (regionCheck c 0 (reg c aCHIP_UPDATE_TAG) 0 0, updateStored c v)
      else (stOK, setUpdate (withChip (updateStored c v) (updateBegun c.chip (reg c aCHIP_UPDATE_TAG) (bit v 1)
        (hdr c .sec).selftest (updateBytes c (reg c aCHIP_UPDATE_TAG)))) 0 0 true) := by
    unfold updateWrite
    rw [settle_idle (c := updateStored c v) hc]
    dsimp only
    rw [htag, h0, h1]
    rfl
  unfold updateAnswer
  rw [hw]
  refine ⟨fun h => ?_, fun h hu => ?_, fun h hu hr => ?_, fun h hu hr => ?_⟩
  · rw [if_pos h, if_pos rfl]
  · simp [h, hu]
  · simp [h, hu, hr]
  · simp [h, hu, hr]

/-- CHECK, STATUS and BUSY as they are set. -/
theorem setUpdate_shows (c : Chip) (check st : Nat) (busy : Bool) (hs : st < 256) :
    bit (reg (setUpdate c check st busy) aCHIP_UPDATE) 8 = busy ∧
    fld (reg (setUpdate c check st busy) aCHIP_UPDATE) 23 16 = st ∧
    fld (reg (setUpdate c check st busy) aCHIP_UPDATE) 31 24 = check % 256 := by
  have hb : b2n busy < 2 := by cases busy <;> decide
  refine ⟨?_, ?_, ?_⟩
  · refine (bit_setFld _ _ _ _ (by decide)).trans ((if_pos (by decide)).trans ?_)
    rw [Nat.testBit_zero, show check * 65536 + st * 256 + b2n busy = 2 * (check * 32768 + st * 128) + b2n busy by omega,
      Nat.mul_add_mod]
    cases busy <;> rfl
  · refine (fld_setFld_within _ _ _ (by decide) (by decide) (by decide) (by decide)).trans ?_
    rw [Nat.shiftRight_eq_div_pow]
    omega
  · refine (fld_setFld_within _ _ _ (by decide) (by decide) (by decide) (by decide)).trans ?_
    rw [Nat.shiftRight_eq_div_pow]
    omega

/-- UPDATE_START. -/
theorem updateStarts {s : State} {r : Requester} (v : Word) (h : Reaches s.toChip r .chip) (hf : s.chip.fast = .run)
    (hc : s.fig.committed = []) (ha : armed s.toChip r .chip = true) :
    let tag := reg s.toChip aCHIP_UPDATE_TAG
    let code := regionCheck s.toChip 0 tag 0 0
    (bit v 0 = false → Accepted (.updateStart r v) s r s.toChip (fun _ => True)) ∧
    (bit v 0 = true → s.chip.updating = true → Answered (.updateStart r v) s r 0x20 s.toChip (fun _ => True)) ∧
    (bit v 0 = true → s.chip.updating = false → code ≠ 0 →
      Answered (.updateStart r v) s r (BitVec.ofNat 8 code) s.toChip (fun _ => True)) ∧
    (bit v 0 = true → s.chip.updating = false → code = 0 → Accepted (.updateStart r v) s r
      (withChip s.toChip (updateBegun s.chip tag (bit v 1) (hdr s.toChip .sec).selftest (updateBytes s.toChip tag)))
      (fun t => bit (reg t.toChip aCHIP_UPDATE) 8 = true ∧ fld (reg t.toChip aCHIP_UPDATE) 31 16 = 0)) := by
  have he : exec (.updateStart r v) s = .next (after s (mgmtWrite s.toChip r aCHIP_UPDATE v)) := rfl
  rw [mgmtWrite_update v h hf ha] at he
  have hd := desk_setArmed s.toChip r .chip false
  have hx := updateAnswer_cases (c := setArmed s.toChip r .chip false) v ((congrArg (·.fig.committed) hd).trans hc)
  have hchip := chip_of_desk hd
  have hreg : reg (setArmed s.toChip r .chip false) aCHIP_UPDATE_TAG = reg s.toChip aCHIP_UPDATE_TAG := regKey_setArmed ..
  have hrc : ∀ tag, regionCheck (setArmed s.toChip r .chip false) 0 tag 0 0 = regionCheck s.toChip 0 tag 0 0 := fun _ => by
    cases r <;> rfl
  have hub : ∀ tag, updateBytes (setArmed s.toChip r .chip false) tag = updateBytes s.toChip tag := fun _ => by
    cases r <;> rfl
  have hh : hdr (setArmed s.toChip r .chip false) .sec = hdr s.toChip .sec := by cases r <;> rfl
  rw [hreg, hrc, hub, hh] at hx
  generalize setArmed s.toChip r .chip false = c at he hd hx hchip
  obtain ⟨h0, h1, h2, h3⟩ := hx
  rw [hchip] at h1 h2 h3
  have hst : desk (updateStored c v) = desk s.toChip := (desk_of_quiet (quiet_setKey ..)).trans hd
  refine ⟨fun hv => answered_after he (h0 hv) hst trivial, fun hv hu => answered_after he (h1 hv hu) hd trivial,
    fun hv hu hn => answered_after he (h2 hv hu hn) hd trivial, fun hv hu hn => answered_after he (h3 hv hu hn) ?_ ?_⟩
  · refine (desk_of_quiet (quiet_setFld ..)).trans ?_
    rw [desk_withChip, hst]
    rfl
  · rw [reg_answered]
    exact ⟨(setUpdate_shows _ 0 0 true (by decide)).1,
      (fld_setFld_within _ _ _ (by decide) (by decide) (by decide) (by decide)).trans (by decide)⟩

/-! ### Update (R502): its end -/

/-- The boot NOR with the bytes of a bundle in a bank. -/
def norWritten (c : Chip) (b : Bool) (l : List Byte) : Chip := norPut (norErase c (bankBase b) bankBytes) (bankBase b) l

theorem norGet_norPut (c : Chip) (a : Nat) (l : List Byte) (x : Nat) :
    norGet (norPut c a l) x = if a ≤ x ∧ x < a + l.length then l.getD (x - a) 0xFF else norGet c x :=
  tget_puts _ l c.chip.nor a x

theorem norGet_norErase (c : Chip) (a n x : Nat) :
    norGet (norErase c a n) x = if a ≤ x ∧ x < a + n then 0xFF else norGet c x := by
  unfold norGet norErase tget
  dsimp only
  rw [tfind_filter (fun k => decide (k < a) || decide (a + n ≤ k))]
  by_cases h : a ≤ x ∧ x < a + n
  · rw [if_pos h, if_neg (by simp only [Bool.or_eq_true, decide_eq_true_eq]; omega)]
    rfl
  · rw [if_neg h, if_pos (by simp only [Bool.or_eq_true, decide_eq_true_eq]; omega)]

theorem norGet_norWritten (c : Chip) (b : Bool) {l : List Byte} (hl : l.length ≤ bankBytes) (x : Nat) :
    norGet (norWritten c b l) x =
      if bankBase b ≤ x ∧ x < bankBase b + bankBytes then l.getD (x - bankBase b) 0xFF else norGet c x := by
  rw [norWritten, norGet_norPut, norGet_norErase]
  by_cases h : bankBase b ≤ x ∧ x < bankBase b + bankBytes
  · rw [if_pos h, if_pos h]
    split
    · rfl
    · rw [List.getD_eq_default _ _ (by omega)]
  · rw [if_neg h, if_neg h, if_neg (by omega)]

/-- The check of a bundle that fails, with R182's. -/
def updateFails (c : Chip) (img : List Byte) : Nat :=
  if bundleCheck c (listSource img) = 0 ∧ changesSmoothing c (listSource img) = true then 6
  else bundleCheck c (listSource img)

/-- The bytes of an update that are programmed. -/
def updateBody (img : List Byte) : List Byte := img.take (bodyAt + mfLen (img.take 128))

/-- The other bank preferred, where an update asks for it. -/
def updatePreferred (c : Chip) (other : Bool) : Chip :=
  if c.chip.updatePrefer then setFld (withChip c { c.chip with prefer := other }) aCHIP_BOOT_CFG 0 0 (b2n other) else c

/-- The end of an update whose registration stands. -/
theorem updateDone_eq {c : Chip} (ok : Bool) (hc : c.fig.committed = []) (hu : c.chip.updating = true)
    (hw : c.chip.updateWaits = false) (hr : regionActive c c.chip.updateTag = true) :
    updateDone c ok =
      if updateFails c c.chip.updateImage ≠ 0 then updateEnds (takeFree c).2 (updateFails c c.chip.updateImage) rejState
      else if ok = false then updateEnds (norErase (takeFree c).2 (bankBase (!c.chip.bank)) bankBytes) 0 stTierFault
      else updateEnds (updatePreferred (norWritten (takeFree c).2 (!c.chip.bank) (updateBody c.chip.updateImage))
        (!c.chip.bank)) 0 stOK := by
  have hb : ∀ src, bundleCheck (takeFree c).2 src = bundleCheck c src := fun _ => rfl
  have hs : ∀ src, changesSmoothing (takeFree c).2 src = changesSmoothing c src := fun _ => rfl
  have ha : regionActive (takeFree c).2 (takeFree c).2.chip.updateTag = true := hr
  unfold updateDone
  rw [settle_idle hc]
  dsimp only
  rw [if_neg (by rw [hu, hw]; decide), ha, if_neg (fun x => by cases x.1)]
  simp only [hb, hs]
  rfl

/-- What the end of an update leaves. -/
structure UpdateEnded (c d : Chip) (check st : Nat) : Prop where
  quiet : Safety.quiet d = Safety.quiet (withChip c { c.chip with updating := false, updateImage := [] })
  busy : bit (reg d aCHIP_UPDATE) 8 = false
  status : fld (reg d aCHIP_UPDATE) 23 16 = st
  check : fld (reg d aCHIP_UPDATE) 31 24 = check % 256
  done : bit (hdr d .chip).int 19 = true

theorem updateEnds_ended (c : Chip) (check : Nat) {st : Nat} (h : st < 256) : UpdateEnded c (updateEnds c check st) check st := by
  have hs := setUpdate_shows (withChip c { c.chip with updating := false, updateImage := [] }) check st false h
  have hq : quiet (setUpdate (withChip c { c.chip with updating := false, updateImage := [] }) check st false) =
    quiet (withChip c { c.chip with updating := false, updateImage := [] }) := quiet_setFld ..
  have he : updateEnds c check st =
    raise (setUpdate (withChip c { c.chip with updating := false, updateImage := [] }) check st false) .chip 19 := rfl
  rw [he]
  generalize setUpdate (withChip c { c.chip with updating := false, updateImage := [] }) check st false = d at hs hq
  have hm := minor_raise d .chip 19
  have hr : reg (raise d .chip 19) aCHIP_UPDATE = reg d aCHIP_UPDATE := hm.regs (rkey 0 aCHIP_UPDATE) (by decide)
  refine ⟨hm.quiet.trans hq, ?_, ?_, ?_, raises_int (l := [(.chip, 19)]) (by decide) (by simp)⟩
  · rw [hr, hs.1]
  · rw [hr, hs.2.1]
  · rw [hr, hs.2.2]

/-- What the end of an update shows. -/
abbrev UpdateShown (check code : Nat) (t : State) : Prop :=
  t.chip.updating = false ∧ bit (reg t.toChip aCHIP_UPDATE) 8 = false ∧ fld (reg t.toChip aCHIP_UPDATE) 23 16 = code ∧
  fld (reg t.toChip aCHIP_UPDATE) 31 24 = check % 256 ∧ Event t .chip 19

theorem UpdateEnded.chip {c d : Chip} {check st : Nat} (h : UpdateEnded c d check st) :
    d.chip = { c.chip with updating := false, updateImage := [] } := congrArg (·.chip) h.quiet

theorem UpdateEnded.shown {s : State} {c d : Chip} {check st : Nat} (h : UpdateEnded c d check st) :
    UpdateShown check st (after s d) :=
  ⟨congrArg (·.updating) h.chip, h.busy, h.status, h.check, h.done⟩

theorem updatePreferred_chip (c : Chip) (other : Bool) : (updatePreferred c other).chip.nor = c.chip.nor ∧
    (updatePreferred c other).chip.prefer = if c.chip.updatePrefer then other else c.chip.prefer := by
  have hq : ∀ d : Chip, (setFld d aCHIP_BOOT_CFG 0 0 (b2n other)).chip = d.chip := fun d =>
    congrArg (·.chip) (quiet_setFld d aCHIP_BOOT_CFG 0 0 (b2n other))
  unfold updatePreferred
  split
  · rw [hq]
    exact ⟨rfl, rfl⟩
  · exact ⟨rfl, rfl⟩

/-- UPDATE_DONE. -/
theorem updateEndsWith {s : State} (ok : Bool) (ha : Awake s.toChip) (hc : s.fig.committed = []) :
    (s.chip.updating = false ∨ s.chip.updateWaits = true → exec (.updateDone ok) s = .next (after s s.toChip)) ∧
    (s.chip.updating = true → s.chip.updateWaits = false → regionActive s.toChip s.chip.updateTag = true →
      s.chip.updateImage.length ≤ bankBytes →
      let img := s.chip.updateImage
      let bad := updateFails s.toChip img
      (bad ≠ 0 → Quietly (.updateDone ok) s (withChip s.toChip { s.chip with updating := false, updateImage := [] })
        (UpdateShown bad 0x21)) ∧
      (bad = 0 → ok = false → Completes (.updateDone ok) s (fun t => UpdateShown 0 0x11 t ∧ t.chip.prefer = s.chip.prefer)) ∧
      (bad = 0 → ok = true → Completes (.updateDone ok) s (fun t => UpdateShown 0 0 t ∧
        t.chip.prefer = (if s.chip.updatePrefer then !s.chip.bank else s.chip.prefer) ∧
        ∀ a, norGet t.toChip a = if bankBase (!s.chip.bank) ≤ a ∧ a < bankBase (!s.chip.bank) + bankBytes
          then (updateBody img).getD (a - bankBase (!s.chip.bank)) 0xFF else norGet s.toChip a))) := by
  have he : exec (.updateDone ok) s = act s (fun c => whenAwake c (fun c => updateDone c ok)) := rfl
  rw [act_whenAwake ha] at he
  refine ⟨fun h => ?_, fun hu hw hr hl => ?_⟩
  · rw [he, updateDone, settle_idle hc]
    dsimp only
    rw [if_pos h]
  rw [updateDone_eq ok hc hu hw hr] at he
  refine ⟨fun hb => ?_, fun hb hok => ?_, fun hb hok => ?_⟩
  · rw [if_pos hb] at he
    have hd := updateEnds_ended (takeFree s.toChip).2 (updateFails s.toChip s.chip.updateImage) (st := rejState) (by decide)
    generalize updateEnds (takeFree s.toChip).2 (updateFails s.toChip s.chip.updateImage) rejState = d at he hd
    exact ⟨_, he, after_pending _ _, (quiet_after s d).trans hd.quiet, hd.shown⟩
  · rw [if_neg (fun x => x hb), if_pos hok] at he
    have hd := updateEnds_ended (norErase (takeFree s.toChip).2 (bankBase (!s.chip.bank)) bankBytes) 0 (st := stTierFault)
      (by decide)
    generalize updateEnds (norErase (takeFree s.toChip).2 (bankBase (!s.chip.bank)) bankBytes) 0 stTierFault = d at he hd
    exact ⟨_, he, after_pending _ _, hd.shown, congrArg (·.prefer) hd.chip⟩
  · rw [if_neg (fun x => x hb), if_neg (by rw [hok]; decide)] at he
    have hp := updatePreferred_chip (norWritten (takeFree s.toChip).2 (!s.chip.bank) (updateBody s.chip.updateImage))
      (!s.chip.bank)
    have hbody : (updateBody s.chip.updateImage).length ≤ bankBytes := (List.length_take_le' _ _).trans hl
    generalize updatePreferred (norWritten (takeFree s.toChip).2 (!s.chip.bank) (updateBody s.chip.updateImage))
      (!s.chip.bank) = e at he hp
    have hd := updateEnds_ended e 0 (st := stOK) (by decide)
    generalize updateEnds e 0 stOK = d at he hd
    refine ⟨_, he, after_pending _ _, hd.shown, (congrArg (·.prefer) hd.chip).trans hp.2, fun a => ?_⟩
    have hn : norGet d a = norGet (norWritten (takeFree s.toChip).2 (!s.chip.bank) (updateBody s.chip.updateImage)) a := by
      unfold norGet
      rw [congrArg (·.nor) hd.chip, ← hp.1]
    exact hn.trans (norGet_norWritten _ _ hbody a)

/-! ### The boot NOR, word by word (R509) -/

/-- The row of NOR_DATA. -/
def rowNorData : RegRow := ⟨0x06C, 1, .none_, 0, [⟨31, 0, .wo, 0⟩]⟩

/-- A write of NOR_DATA. -/
theorem mgmtWrite_norData {c : Chip} {r : Requester} (v : Word) (h : Reaches c r .chip) :
    let y := norDataWrite (setArmed c r .chip false) (decide (r = .sideband)) v
    mgmtWrite c r aCHIP_NOR_DATA v = keepStatus (answer y.2 y.1 0) r y.1 := by
  obtain ⟨x, hx, hw⟩ := mgmtWriteWith_rule (a := aCHIP_NOR_DATA) (row := rowNorData) noArgs v h (by decide)
    rfl rfl (fun hg => absurd hg (by decide))
  have hrule : writeChip (setArmed c r .chip false) x = norDataWrite (setArmed c r .chip false) (decide (r = .sideband)) v := by
    unfold writeChip
    rw [hx.addr, if_neg (by decide), if_neg (by decide), if_neg (by decide), if_neg (by decide), if_neg (by decide), if_pos rfl,
      hx.plain, if_pos rfl, hx.raw, hx.src]
    cases r <;> rfl
  rw [show pageOf (aCHIP_NOR_DATA / 0x4000) = .chip from rfl, pageWrite_chip (by rw [hx.addr]; rfl), hrule] at hw
  exact hw

/-- NOR_DATA_WRITE. -/
theorem norDataWrites {s : State} {r : Requester} (v : Word) (h : Reaches s.toChip r .chip) :
    let a := (reg s.toChip aCHIP_NOR_ADDR).toNat
    let stays := fun (t : State) => reg t.toChip aCHIP_NOR_ADDR = reg s.toChip aCHIP_NOR_ADDR
    (r ≠ .sideband ∨ s.chip.bootState ≠ .failed → Answered (.norDataWrite r v) s r 0x21 s.toChip stays) ∧
    (r = .sideband → s.chip.bootState = .failed →
      ((a % 4 ≠ 0 ∨ bankBytes < a + 4) → Answered (.norDataWrite r v) s r 0x23 s.toChip stays) ∧
      (a % 4 = 0 → a + 4 ≤ bankBytes → Accepted (.norDataWrite r v) s r (norPut s.toChip a (leBytes 4 v.toNat))
        (fun t => reg t.toChip aCHIP_NOR_ADDR = w32 (a + 4) ∧
          ∀ x, norGet t.toChip x = if a ≤ x ∧ x < a + 4 then (leBytes 4 v.toNat).getD (x - a) 0
            else norGet s.toChip x))) := by
  have he : exec (.norDataWrite r v) s = .next (after s (mgmtWrite s.toChip r aCHIP_NOR_DATA v)) := rfl
  rw [mgmtWrite_norData v h] at he
  have hd := desk_setArmed s.toChip r .chip false
  have hreg : reg (setArmed s.toChip r .chip false) aCHIP_NOR_ADDR = reg s.toChip aCHIP_NOR_ADDR := regKey_setArmed ..
  generalize setArmed s.toChip r .chip false = c at he hd hreg
  have hchip := chip_of_desk hd
  have hw : norDataWrite c (decide (r = .sideband)) v =
      if r ≠ .sideband ∨ s.chip.bootState ≠ .failed then (rejState, c)
      else if (reg s.toChip aCHIP_NOR_ADDR).toNat % 4 ≠ 0 ∨ bankBytes < (reg s.toChip aCHIP_NOR_ADDR).toNat + 4 then (rejLimit, c)
      else (stOK, setReg (norPut c (reg s.toChip aCHIP_NOR_ADDR).toNat (leBytes 4 v.toNat)) aCHIP_NOR_ADDR
        (w32 ((reg s.toChip aCHIP_NOR_ADDR).toNat + 4))) := by
    unfold norDataWrite
    dsimp only
    rw [hreg, hchip]
    simp only [Bool.not_eq_true', decide_eq_false_iff_not]
  generalize (reg s.toChip aCHIP_NOR_ADDR).toNat = a at hw ⊢
  refine ⟨fun hn => answered_after he (hw.trans (if_pos hn)) hd ?_, fun hr hb => ?_⟩
  · exact (reg_answered ..).trans hreg
  have hn : ¬ (r ≠ .sideband ∨ s.chip.bootState ≠ .failed) := fun x => x.elim (fun y => y hr) (fun y => y hb)
  refine ⟨fun hl => answered_after he (hw.trans ((if_neg hn).trans (if_pos hl))) hd ?_, fun h4 hl => ?_⟩
  · exact (reg_answered ..).trans hreg
  refine answered_after he (hw.trans ((if_neg hn).trans (if_neg (by omega)))) ?_ ⟨?_, fun x => ?_⟩
  · refine (desk_of_quiet (quiet_setReg ..)).trans ?_
    have := congrArg (fun d : Chip => norPut d a (leBytes 4 v.toNat)) hd
    exact this
  · rw [reg_answered, reg_setReg_self]
  · have hg : norGet (after s (keepStatus (answer (setReg (norPut c a (leBytes 4 v.toNat)) aCHIP_NOR_ADDR (w32 (a + 4))) stOK 0) r
        stOK)).toChip x = norGet (norPut c a (leBytes 4 v.toNat)) x := by
      cases r <;> rfl
    have hl4 : (leBytes 4 v.toNat).length = 4 := rfl
    rw [hg, norGet_norPut, hl4]
    by_cases hx : a ≤ x ∧ x < a + 4
    · rw [if_pos hx, if_pos hx, List.getD_eq_getElem _ _ (by omega), List.getD_eq_getElem _ _ (by omega)]
    · rw [if_neg hx, if_neg hx, norGet, norGet, hchip]

/-- Settles O57: the whole-chip self-test, the update, and the boot NOR by hand. -/
theorem selftestUpdateAndNor : Obligations.SelftestUpdateAndNor := by
  refine ⟨fun s => ⟨fun r v h hf hc ha => chipSelftestStarts v h hf hc ha, fun failed ha => chipSelftestEnds failed ha⟩,
    fun s => ⟨fun r v h hf hc ha => updateStarts v h hf hc ha, fun ok ha hc => updateEndsWith ok ha hc,
      fun r v h => norDataWrites v h⟩⟩

end Sys2Proof.Machine
end

section
/-! Power and heat (O49). -/

namespace Sys2Proof.Machine

open Sys2Proof.Safety

/-! ### Rows and their points -/

/-- The register that holds a row's point. -/
def pointReg (y : Nat) : Nat := if y < 8 then aPWR_ROW_POINT0 else aPWR_ROW_POINT1

theorem rowPoint_eq (c : Chip) (y : Nat) : rowPoint c y = fld (reg c (pointReg y)) (4 * (y % 8) + 3) (4 * (y % 8)) := by
  unfold rowPoint pointReg
  split <;> rfl

theorem rowPoint_congr {c d : Chip} (h : ∀ a, reg d a = reg c a) (y : Nat) : rowPoint d y = rowPoint c y := by
  rw [rowPoint_eq, rowPoint_eq, h]

theorem rowPoint_after (s : State) (c : Chip) (y : Nat) : rowPoint (after s c).toChip y = rowPoint c y :=
  rowPoint_congr (fun _ => rfl) y

theorem rowPoint_lt (c : Chip) (y : Nat) : rowPoint c y < 16 := by
  rw [rowPoint_eq, fld, show 4 * (y % 8) + 3 - 4 * (y % 8) + 1 = 4 by omega]
  exact Nat.mod_lt _ (by decide)

theorem rowPoint_setRowPoint_self (c : Chip) (y : Nat) {v : Nat} (h : v < 16) : rowPoint (setRowPoint c y v) y = v := by
  rw [rowPoint_eq]
  refine (fld_setFld_self c (pointReg y) v (by omega) (by omega)).trans ?_
  rw [show 4 * (y % 8) + 3 - 4 * (y % 8) + 1 = 4 by omega]
  exact Nat.mod_eq_of_lt h

theorem rowPoint_setRowPoint_other (c : Chip) {y z : Nat} (v : Nat) (hy : y < 16) (hz : z < 16) (h : z ≠ y) :
    rowPoint (setRowPoint c y v) z = rowPoint c z := by
  rw [rowPoint_eq, rowPoint_eq, show setRowPoint c y v = setFld c (pointReg y) (4 * (y % 8) + 3) (4 * (y % 8)) v from rfl]
  by_cases hr : pointReg z = pointReg y
  · rw [hr]
    refine fld_setFld_other _ _ _ (by omega) (by omega) ?_
    have : z / 8 = y / 8 := by
      unfold pointReg at hr
      split at hr <;> split at hr <;> first | omega | (exact absurd hr (by decide))
    omega
  · rw [reg_setFld_other _ _ _ _ hr]

/-- A change of the registers of row points alone. -/
structure PointsMoved (c d : Chip) : Prop where
  quiet : Safety.quiet d = Safety.quiet c
  regs : ∀ k, k ≠ rkey 0 aPWR_ROW_POINT0 → k ≠ rkey 0 aPWR_ROW_POINT1 → regKey d k = regKey c k

theorem PointsMoved.refl (c : Chip) : PointsMoved c c := ⟨rfl, fun _ _ _ => rfl⟩

theorem PointsMoved.trans {a b c : Chip} (h : PointsMoved a b) (g : PointsMoved b c) : PointsMoved a c :=
  ⟨g.quiet.trans h.quiet, fun k h0 h1 => (g.regs k h0 h1).trans (h.regs k h0 h1)⟩

theorem setRowPoint_moved (c : Chip) (y v : Nat) : PointsMoved c (setRowPoint c y v) := by
  refine ⟨quiet_setFld .., fun k h0 h1 => ?_⟩
  refine regKey_setKey_other _ _ _ _ _ ?_
  split
  · exact h0
  · exact h1

theorem setRowPoints_moved (c : Chip) (ys : List Nat) (v : Nat) : PointsMoved c (setRowPoints c ys v) := by
  unfold setRowPoints
  induction ys generalizing c with
  | nil => exact .refl c
  | cons y r ih => exact (setRowPoint_moved c y v).trans (ih _)

theorem rowPoint_setRowPoints (c : Chip) {ys : List Nat} {v z : Nat} (hys : ∀ y ∈ ys, y < 16) (hz : z < 16) (hv : v < 16) :
    rowPoint (setRowPoints c ys v) z = if z ∈ ys then v else rowPoint c z := by
  induction ys generalizing c with
  | nil => rfl
  | cons y r ih =>
    have h : rowPoint (setRowPoints c (y :: r) v) z = if z ∈ r then v else rowPoint (setRowPoint c y v) z :=
      ih _ fun x hx => hys x (List.mem_cons_of_mem _ hx)
    rw [h]
    by_cases hr : z ∈ r
    · rw [if_pos hr, if_pos (List.mem_cons_of_mem _ hr)]
    · rw [if_neg hr]
      by_cases he : z = y
      · rw [he, rowPoint_setRowPoint_self _ _ hv, if_pos List.mem_cons_self]
      · rw [rowPoint_setRowPoint_other _ _ (hys y List.mem_cons_self) hz he, if_neg (by simp [he, hr])]

/-- Every row of a list falls by a point. -/
def rowsFall (c : Chip) (l : List Nat) : Chip := l.foldl (fun c y => setRowPoint c y (rowPoint c y - 1)) c

theorem rowPoint_rowsFall (c : Chip) {l : List Nat} {z : Nat} (hl : l.Nodup) (h16 : ∀ y ∈ l, y < 16) (hz : z < 16) :
    rowPoint (rowsFall c l) z = if z ∈ l then rowPoint c z - 1 else rowPoint c z := by
  induction l generalizing c with
  | nil => rfl
  | cons y r ih =>
    obtain ⟨hy, hr⟩ := List.nodup_cons.1 hl
    have hlt := rowPoint_lt c y
    have h : rowPoint (rowsFall c (y :: r)) z = if z ∈ r then rowPoint (setRowPoint c y (rowPoint c y - 1)) z - 1
        else rowPoint (setRowPoint c y (rowPoint c y - 1)) z := ih _ hr fun x hx => h16 x (List.mem_cons_of_mem _ hx)
    rw [h]
    by_cases he : z = y
    · rw [he, if_neg hy, if_pos List.mem_cons_self, rowPoint_setRowPoint_self _ _ (by omega)]
    · rw [rowPoint_setRowPoint_other _ _ (h16 y List.mem_cons_self) hz he]
      simp [he]

theorem quiet_rowsFall (c : Chip) (l : List Nat) : quiet (rowsFall c l) = quiet c := by
  unfold rowsFall
  induction l generalizing c with
  | nil => rfl
  | cons y r ih => exact (ih _).trans (quiet_setFld ..)

theorem throttleStep_eq (c : Chip) : throttleStep c =
    if c.pwr.throttled = false then c
    else if (List.range 16).all (fun y => rowPoint c y = 0) then
      modPwr c (fun p => { p with throttlePace := min 100 (p.throttlePace + 10) })
    else rowsFall c (List.range 16) := rfl

/-- THROTTLE_STEP. -/
theorem throttleSteps {s : State} (hm : minuetOn s.toChip = true) :
    (s.pwr.throttled = false → exec .throttleStep s = .next (after s s.toChip)) ∧
    (s.pwr.throttled = true →
      ((∀ y, y < 16 → rowPoint s.toChip y = 0) → exec .throttleStep s =
        .next (after s { s.toChip with pwr := { s.pwr with throttlePace := min 100 (s.pwr.throttlePace + 10) } })) ∧
      (∀ z, z < 16 → rowPoint s.toChip z ≠ 0 → Completes .throttleStep s (fun t => t.pwr = s.pwr ∧
        ∀ y, y < 16 → rowPoint t.toChip y = rowPoint s.toChip y - 1))) := by
  have he : exec .throttleStep s = act s (fun c => whenMinuet c throttleStep) := rfl
  rw [act_whenMinuet hm, throttleStep_eq] at he
  refine ⟨fun h => by rw [he, if_pos h], fun h => ?_⟩
  rw [if_neg (by rw [h]; decide)] at he
  refine ⟨fun hz => ?_, fun z hz hn => ?_⟩
  · rw [if_pos (List.all_eq_true.2 fun y hy => decide_eq_true (hz y (List.mem_range.1 hy)))] at he
    exact he
  · rw [if_neg (fun ha => hn (of_decide_eq_true (List.all_eq_true.1 ha z (List.mem_range.2 hz))))] at he
    have hq := quiet_rowsFall s.toChip (List.range 16)
    have hp : ∀ y, y < 16 → rowPoint (rowsFall s.toChip (List.range 16)) y = rowPoint s.toChip y - 1 := fun y hy =>
      (rowPoint_rowsFall s.toChip List.nodup_range (fun y hy => List.mem_range.1 hy) hy).trans (if_pos (List.mem_range.2 hy))
    generalize rowsFall s.toChip (List.range 16) = d at he hq hp
    exact ⟨_, he, after_pending _ _, congrArg (·.pwr) hq, fun y hy => (rowPoint_after s d y).trans (hp y hy)⟩

/-! ### Exploration (R434) -/

theorem rowsOf_lt {c : Chip} {p y : Nat} (h : y ∈ rowsOf c p) : y < 16 := by
  unfold rowsOf at h
  split at h
  · exact List.mem_range.1 (List.mem_filter.1 h).1
  · exact absurd h List.not_mem_nil

theorem engineRows_sub {c : Chip} {p y : Nat} {k : EngineKind} (h : y ∈ engineRows c p k) : y ∈ rowsOf c p := by
  unfold engineRows at h
  cases k with
  | decode => exact List.mem_of_mem_take h
  | chunk => exact List.mem_of_mem_drop h

/-- PWR_EXPLORE. -/
theorem explores {s : State} (hm : minuetOn s.toChip = true) (p : Part) (k : EngineKind) (up : Bool) (y : Nat) (rest : List Nat)
    (hr : engineRows s.toChip p.toNat k = y :: rest) (hl : learnOn s.toChip = true) (hx : reg s.toChip aPWR_EXPLORE ≠ 0)
    (ht : s.pwr.throttled = false) :
    let key := p.toNat * 2 + engineIdx k
    let base := rowPoint s.toChip y
    (tfind s.pwr.exploring key = none → (if up then base ≠ 15 else base ≠ 0) → Completes (.pwrExplore p k up) s (fun t =>
      t.pwr = { s.pwr with exploring := tins s.pwr.exploring key (base, 64) } ∧
      (∀ z ∈ y :: rest, rowPoint t.toChip z = if up then base + 1 else base - 1) ∧
      (∀ z, z < 16 → z ∉ y :: rest → rowPoint t.toChip z = rowPoint s.toChip z))) ∧
    ((tfind s.pwr.exploring key).isSome = true ∨ (if up then base = 15 else base = 0) →
      exec (.pwrExplore p k up) s = .next (after s s.toChip)) := by
  intro key base
  have he : exec (.pwrExplore p k up) s = act s (fun c => whenMinuet c (fun c => explore c p.toNat k up)) := rfl
  have hex : explore s.toChip p.toNat k up =
      if (tfind s.pwr.exploring key).isSome = true ∨ (if up then base = 15 else base = 0) then s.toChip
      else modPwr (setRowPoints s.toChip (y :: rest) (if up then base + 1 else base - 1))
        (fun x => { x with exploring := tins x.exploring key (base, 64) }) := by
    unfold explore
    dsimp only
    rw [hr]
    have hx' : ¬ reg s.toChip aPWR_EXPLORE = 0#32 := hx
    cases up <;> simp [hl, hx', ht, key, base]
  rw [act_whenMinuet hm, hex] at he
  have hb : base < 16 := rowPoint_lt _ _
  have h16 : ∀ z ∈ y :: rest, z < 16 := fun z hz => rowsOf_lt (engineRows_sub (hr ▸ hz))
  refine ⟨fun hn hu => ?_, fun h => by rw [he, if_pos h]⟩
  have hno : ¬ ((tfind s.pwr.exploring key).isSome = true ∨ (if up then base = 15 else base = 0)) := by
    rw [hn]
    cases up <;> simpa using hu
  have hv : (if up then base + 1 else base - 1) < 16 := by
    cases up
    · simp only [Bool.false_eq_true, if_false] at hu ⊢
      omega
    · simp only [if_true] at hu ⊢
      omega
  rw [if_neg hno] at he
  have hp : ∀ z, z < 16 → rowPoint (setRowPoints s.toChip (y :: rest) (if up then base + 1 else base - 1)) z = _ :=
    fun z hz => rowPoint_setRowPoints s.toChip h16 hz hv
  have hq := (setRowPoints_moved s.toChip (y :: rest) (if up then base + 1 else base - 1)).quiet
  generalize setRowPoints s.toChip (y :: rest) (if up then base + 1 else base - 1) = d at he hp hq
  have hpwr : d.pwr = s.pwr := congrArg (·.pwr) hq
  refine ⟨_, he, after_pending _ _, ?_, fun z hz => ?_, fun z hz hn => ?_⟩
  · exact (congrArg (fun w : PwrUnit => { w with exploring := tins w.exploring key (base, 64) }) hpwr)
  · exact (rowPoint_after ..).trans ((hp z (h16 z hz)).trans (if_pos hz))
  · exact (rowPoint_after ..).trans ((hp z hz).trans (if_neg hn))

/-! ### The class table (R434) -/

/-- An average of weight 1/16 comes out as the sum's sixteenth, or the next number where a rest is left. -/
theorem learnAvg_even {o v w : Nat} (h0 : o ≠ 0) (h : (15 * o + v) / 16 < 65535) : learnAvg o v w = (15 * o + v) / 16 ∨
    ((15 * o + v) % 16 ≠ 0 ∧ learnAvg o v w = (15 * o + v) / 16 + 1) := by
  unfold learnAvg
  dsimp only
  by_cases hn : (15 * o + v) % 16 = 0
  · rw [if_pos hn, if_neg (by omega)]
    exact .inl rfl
  · rw [if_neg hn, if_neg (by omega)]
    rcases Nat.mod_two_eq_zero_or_one w with hw | hw <;> rw [hw]
    · exact .inl rfl
    · exact .inr ⟨hn, rfl⟩

/-- PWR_LEARN of one sample. -/
theorem learns {s : State} (hm : minuetOn s.toChip = true) :
    (∀ l, learnOn s.toChip = false → exec (.pwrLearn l) s = .next (after s s.toChip)) ∧
    (∀ x : LearnSample, learnOn s.toChip = true → Completes (.pwrLearn [x]) s (fun t =>
      let k := x.cls.toNat * 16 + x.point.toNat
      let old := classAt s.toChip x.cls.toNat x.point.toNat
      let new := classAt t.toChip x.cls.toNat x.point.toNat
      let even := fun (o v n : Nat) => o ≠ 0 → (15 * o + v) / 16 < 65535 →
        n = (15 * o + v) / 16 ∨ ((15 * o + v) % 16 ≠ 0 ∧ n = (15 * o + v) / 16 + 1)
      even old.1 x.nj new.1 ∧ even old.2 x.ns new.2 ∧
      (∀ j, j ≠ k → tget (0, 0) t.pwr.classes j = tget (0, 0) s.pwr.classes j) ∧ t.mgmt = s.mgmt)) := by
  have he : ∀ l, exec (.pwrLearn l) s = act s (fun c => whenMinuet c (fun c => if learnOn c then l.foldl learnOne c else c)) :=
    fun _ => rfl
  refine ⟨fun l h => ?_, fun x h => ?_⟩
  · rw [he, act_whenMinuet hm, h, if_neg (by decide)]
  · have hx := he [x]
    rw [act_whenMinuet hm, if_pos h] at hx
    refine ⟨_, hx, after_pending _ _, ?_⟩
    have hcl : (learnOne s.toChip x).pwr.classes = tset (0, 0) s.pwr.classes (x.cls.toNat * 16 + x.point.toNat)
        (learnAvg (classAt s.toChip x.cls.toNat x.point.toNat).1 x.nj (takeFree s.toChip).1,
          learnAvg (classAt s.toChip x.cls.toNat x.point.toNat).2 x.ns (takeFree (takeFree s.toChip).2).1) := rfl
    have hg : (learnOne s.toChip x).mgmt = s.mgmt := rfl
    have hf : [x].foldl learnOne s.toChip = learnOne s.toChip x := rfl
    rw [hf]
    generalize learnOne s.toChip x = d at hcl hg
    have hnew : classAt (after s d).toChip x.cls.toNat x.point.toNat = tget (0, 0) d.pwr.classes
      (x.cls.toNat * 16 + x.point.toNat) := rfl
    rw [hcl, tget_tset_self] at hnew
    refine ⟨fun h0 hl => ?_, fun h0 hl => ?_, fun j hj => ?_, hg⟩
    · rw [hnew]
      exact learnAvg_even h0 hl
    · rw [hnew]
      exact learnAvg_even h0 hl
    · exact (congrArg (fun t => tget (0, 0) t j) hcl).trans (tget_tset_other _ _ _ _ _ hj)

/-! ### The trip (R443, R444) -/

/-- THERMAL_TRIP, and the exercise of a comparator. -/
theorem trips {s : State} (hm : minuetOn s.toChip = true) (site : BitVec 5) :
    (s.pwr.tripped = true → exec (.thermalTrip site) s = .next (after s s.toChip)) ∧
    (s.pwr.tripped = false → Completes (.thermalTrip site) s (fun t =>
      t.pwr = { s.pwr with tripped := true, marking := [], markDone := [] } ∧ bit (reg t.toChip aPWR_TRIP) 0 = true ∧
      fld (reg t.toChip aPWR_TRIP) 31 16 = min 0xFFFF (fld (reg s.toChip aPWR_TRIP) 31 16 + 1) ∧
      (s.flt.headKnown = false → s.flt.queue.length < 64 →
        ∃ x, t.flt.queue = s.flt.queue ++ [x] ∧ bbKind x = 5))) ∧
    (∀ b, exec (.comparatorExercise site b) s = .next (after s s.toChip)) := by
  have he : exec (.thermalTrip site) s = act s (fun c => whenMinuet c thermalTrip) := rfl
  rw [act_whenMinuet hm] at he
  refine ⟨fun h => by rw [he, thermalTrip, if_pos h], fun h => ?_, fun _ => rfl⟩
  have hx : thermalTrip s.toChip = bbPlain (modPwr (setFld (setFld s.toChip aPWR_TRIP 31 16
      (min 0xFFFF (fld (reg s.toChip aPWR_TRIP) 31 16 + 1))) aPWR_TRIP 0 0 1)
      (fun p => { p with tripped := true, marking := [], markDone := [] })) 5 0 := by
    rw [thermalTrip, if_neg (by rw [h]; decide)]
  rw [hx] at he
  have h0 : bit (reg (setFld (setFld s.toChip aPWR_TRIP 31 16 (min 0xFFFF (fld (reg s.toChip aPWR_TRIP) 31 16 + 1)))
      aPWR_TRIP 0 0 1) aPWR_TRIP) 0 = true := bit_setFld_one _ _ (by decide)
  have h1 : fld (reg (setFld (setFld s.toChip aPWR_TRIP 31 16 (min 0xFFFF (fld (reg s.toChip aPWR_TRIP) 31 16 + 1)))
      aPWR_TRIP 0 0 1) aPWR_TRIP) 31 16 = min 0xFFFF (fld (reg s.toChip aPWR_TRIP) 31 16 + 1) := by
    rw [fld_setFld_other _ _ _ (by decide) (by decide) (by decide), fld_setFld_self _ _ _ (by decide) (by decide)]
    exact Nat.mod_eq_of_lt (by omega)
  have hq : quiet (setFld (setFld s.toChip aPWR_TRIP 31 16 (min 0xFFFF (fld (reg s.toChip aPWR_TRIP) 31 16 + 1)))
      aPWR_TRIP 0 0 1) = quiet s.toChip := by rw [quiet_setFld, quiet_setFld]
  have hf : (setFld (setFld s.toChip aPWR_TRIP 31 16 (min 0xFFFF (fld (reg s.toChip aPWR_TRIP) 31 16 + 1)))
      aPWR_TRIP 0 0 1).flt = s.flt := by rw [flt_setFld, flt_setFld]
  generalize setFld (setFld s.toChip aPWR_TRIP 31 16 (min 0xFFFF (fld (reg s.toChip aPWR_TRIP) 31 16 + 1)))
    aPWR_TRIP 0 0 1 = c at he h0 h1 hq hf
  have hmi := minor_bbPlain (modPwr c (fun p => { p with tripped := true, marking := [], markDone := [] })) 5 0
  have hw : c.flt.headKnown = false → c.flt.queue.length < 64 → ∃ x,
      (bbPlain (modPwr c (fun p => { p with tripped := true, marking := [], markDone := [] })) 5 0).flt =
        { c.flt with queue := c.flt.queue ++ [x] } ∧ bbKind x = 5 % 256 ∧ rdLE x 0x6C 4 = (0 : Word).toNat :=
    fun hk hl => bbRecord_waits 0 0xFF 4 0 0 0 (by decide) hk hl
  generalize bbPlain (modPwr c (fun p => { p with tripped := true, marking := [], markDone := [] })) 5 0 = d at he hmi hw
  have hp : c.pwr = s.pwr := congrArg (·.pwr) hq
  refine ⟨_, he, after_pending _ _, ?_, ?_, ?_, fun hk hl => ?_⟩
  · exact (congrArg (·.pwr) hmi.quiet).trans (congrArg (fun p : PwrUnit => { p with tripped := true, marking := [], markDone := [] }) hp)
  · exact (congrArg (bit · 0) (hmi.regs (rkey 0 aPWR_TRIP) (by decide))).trans h0
  · exact (congrArg (fld · 31 16) (hmi.regs (rkey 0 aPWR_TRIP) (by decide))).trans h1
  · rw [hf] at hw
    obtain ⟨x, hx, hk', -⟩ := hw hk hl
    exact ⟨x, congrArg (·.queue) hx, hk'⟩

/-- The row of TRIP. -/
def rowTrip : RegRow := ⟨0x0E0, 1, .none_, 0, [⟨31, 16, .ro, 0⟩, ⟨15, 8, .rwgt, 0x5F⟩, ⟨1, 1, .wo, 0⟩, ⟨0, 0, .ro, 0⟩]⟩

/-- A write of TRIP, stored. -/
def tripStored (c : Chip) (d : Word) : Chip := setKey c (rkey 0 aPWR_TRIP) (storeMask rowTrip) d

theorem tripStored_clear (c : Chip) (d : Word) : fld (reg (tripStored c d) aPWR_TRIP) 15 8 = fld d 15 8 := by
  have hm : ∀ n, 8 ≤ n → n ≤ 15 → (storeMask rowTrip).getLsbD n = true := fun n h1 h2 => by
    have : n = 8 ∨ n = 9 ∨ n = 10 ∨ n = 11 ∨ n = 12 ∨ n = 13 ∨ n = 14 ∨ n = 15 := by omega
    rcases this with rfl | rfl | rfl | rfl | rfl | rfl | rfl | rfl <;> decide
  refine fld_congr fun n h1 h2 => ?_
  rw [reg, tripStored, regKey_setKey_self]
  simp only [bit, BitVec.getLsbD_or, BitVec.getLsbD_and, BitVec.getLsbD_not, hm n h1 (by omega), Bool.not_true, Bool.and_false,
    Bool.and_true, Bool.false_or]

/-- What the rule of TRIP answers to CLEAR, with the unlock consumed. -/
def tripAnswer (c : Chip) (r : Requester) (d : Word) : Nat × Chip :=
  if (tripClearOp (tripStored c d) r).1 = stOK then tripClearOp (tripStored c d) r else ((tripClearOp (tripStored c d) r).1, c)

/-- An unlocked write of CLEAR. -/
theorem mgmtWrite_trip {c : Chip} {r : Requester} {d : Word} (h : Reaches c r .pwr) (ha : armed c r .pwr = true)
    (hd : bit d 1 = true) :
    mgmtWrite c r aPWR_TRIP d = keepStatus (answer (tripAnswer (setArmed c r .pwr false) r d).2
      (tripAnswer (setArmed c r .pwr false) r d).1 0) r (tripAnswer (setArmed c r .pwr false) r d).1 := by
  obtain ⟨x, hx, hw⟩ := mgmtWriteWith_rule (a := aPWR_TRIP) (row := rowTrip) noArgs d h (by decide)
    rfl rfl (fun _ => ha)
  have hb : x.bank = 0 := hx.bank
  have hst : storeReg (setArmed c r .pwr false) x = tripStored (setArmed c r .pwr false) d := by
    rw [storeReg_single _ hx.lo, hb, hx.addr, hx.row, hx.new]
    rfl
  have hrule : writePwr (setArmed c r .pwr false) x = tripAnswer (setArmed c r .pwr false) r d := by
    have hp : plainBit x 1 = true := by rw [plainBit, hx.plain, hx.raw, hd]; rfl
    have hs : wrSrc x = r := by rw [wrSrc, hx.src]; rfl
    unfold writePwr
    dsimp only
    rw [if_pos ⟨hx.addr, hp⟩, hst, hs]
    rfl
  have hpw : ∀ e : Chip, pageWrite e x = writePwr e x := fun e => by
    unfold pageWrite
    rw [show pageOf (x.a / 0x4000) = .pwr by rw [hx.addr]; rfl]
  rw [show pageOf (aPWR_TRIP / 0x4000) = .pwr from rfl, hpw, hrule] at hw
  exact hw

/-- TRIP_CLEAR. -/
theorem tripClears {s : State} {r : Requester} {d : Word} (h : Reaches s.toChip r .pwr) (ha : armed s.toChip r .pwr = true)
    (hd : bit d 1 = true) :
    let clear := s.pwr.tripped = true ∧ r = .sideband ∧ tjNow s.toChip < 8 * between 60 100 (fld d 15 8)
    (clear → AcceptedWith (.tripClear r d) s r (fun t => t.pwr = { s.pwr with tripped := false } ∧
      bit (reg t.toChip aPWR_TRIP) 0 = false ∧ Event t .pwr 19 ∧ Logged s t 0x17 1)) ∧
    (¬ clear → Answered (.tripClear r d) s r 0x21 s.toChip (fun t => t.pwr = s.pwr)) := by
  intro clear
  have he : exec (.tripClear r d) s = .next (after s (mgmtWrite s.toChip r aPWR_TRIP d)) := rfl
  rw [mgmtWrite_trip h ha hd] at he
  have hda := desk_setArmed s.toChip r .pwr false
  have hrk : ∀ k, regKey (setArmed s.toChip r .pwr false) k = regKey s.toChip k := fun k => regKey_setArmed ..
  generalize setArmed s.toChip r .pwr false = c at he hda hrk
  have hpwr : c.pwr = s.pwr := congrArg (·.pwr) hda
  have htj : tjNow (tripStored c d) = tjNow s.toChip := by
    unfold tjNow
    exact congrArg (fld · 11 0) ((regKey_setKey_other _ _ _ _ _ (by decide)).trans (hrk _))
  have hp : (tripStored c d).pwr = s.pwr := hpwr
  have hop : tripClearOp (tripStored c d) r = if ¬ clear then (rejState, tripStored c d) else (stOK, raise (fault
      (modPwr (setFld (tripStored c d) aPWR_TRIP 0 0 0) (fun p => { p with tripped := false })) 0x17 .pwr 0 0 false) .pwr 19) := by
    unfold tripClearOp
    rw [tripStored_clear, htj, hp]
    refine if_congr ?_ rfl rfl
    simp only [clear, not_and_or, Bool.not_eq_true, not_lt, ne_eq]
  have hcnt : regB (tripStored c d) 0x17 aFLT_CLASS_CNT = regB s.toChip 0x17 aFLT_CLASS_CNT :=
    (regKey_setKey_other _ _ _ _ _ (by decide)).trans (hrk _)
  unfold tripAnswer at he
  refine ⟨fun hc => ?_, fun hc => ?_⟩
  · rw [hop.trans (if_neg (fun x => x hc)), if_pos rfl] at he
    clear hop
    generalize tripStored c d = e at he hp hcnt
    have h0 : bit (reg (setFld e aPWR_TRIP 0 0 0) aPWR_TRIP) 0 = false := bit_setFld_zero _ _ (by decide)
    have hp' : (setFld e aPWR_TRIP 0 0 0).pwr = s.pwr := (congrArg (·.pwr) (quiet_setFld e aPWR_TRIP 0 0 0)).trans hp
    have hc' : regB (setFld e aPWR_TRIP 0 0 0) 0x17 aFLT_CLASS_CNT = regB s.toChip 0x17 aFLT_CLASS_CNT :=
      (regKey_setKey_other _ _ _ _ _ (by decide)).trans hcnt
    generalize setFld e aPWR_TRIP 0 0 0 = f at he h0 hp' hc'
    have hm1 := minor_fault (modPwr f (fun p => { p with tripped := false })) 0x17 .pwr 0 0 false (by decide)
    have hl := toNat_classCnt_fault (modPwr f (fun p => { p with tripped := false })) (cls := 0x17) .pwr 0 0 false (by decide) (by decide)
    generalize fault (modPwr f (fun p => { p with tripped := false })) 0x17 .pwr 0 0 false = g at he hm1 hl
    have hm2 := minor_raise g .pwr 19
    have hk2 := keepsRegs_raise g .pwr 19
    have hev : bit (hdr (raise g .pwr 19) .pwr).int 19 = true := raises_int (l := [(.pwr, 19)]) (by decide) (by simp)
    generalize raise g .pwr 19 = k at he hm2 hk2 hev
    refine acceptedWith_after he rfl ⟨?_, ?_, ?_, ?_⟩
    · have hx : (after s (keepStatus (answer k stOK 0) r stOK)).pwr = k.pwr := by cases r <;> rfl
      exact hx.trans ((congrArg (·.pwr) (hm2.quiet.trans hm1.quiet)).trans
        (congrArg (fun p : PwrUnit => { p with tripped := false }) hp'))
    · rw [reg_answered]
      exact (congrArg (bit · 0) ((hm2.regs (rkey 0 aPWR_TRIP) (by decide)).trans (hm1.regs (rkey 0 aPWR_TRIP) (by decide)))).trans h0
    · rw [Event, hdr_answered]
      exact hev
    · rw [Logged, regB_answered, show regB k 0x17 aFLT_CLASS_CNT = regB g 0x17 aFLT_CLASS_CNT from hk2 _ (by decide), hl, ← hc']
      rfl
  · rw [hop.trans (if_pos hc), if_neg (show ¬ (rejState = stOK) by decide)] at he
    refine answered_after he rfl hda ?_
    have hx : (after s (keepStatus (answer c rejState 0) r rejState)).pwr = c.pwr := by cases r <;> rfl
    exact hx.trans hpwr

/-! ### Marking (R438-R440) -/

/-- MARK_HOLD_EXPIRY. -/
theorem markHoldExpires {s : State} (row : BitVec 4) (ha : Awake s.toChip) :
    let y := row.toNat
    (tget 0 s.pwr.marking y ≠ 0 → y ∉ s.pwr.markDone → exec (.markHoldExpiry row) s =
      .next (after s { s.toChip with pwr := { s.pwr with markDone := s.pwr.markDone ++ [y] } })) ∧
    (tget 0 s.pwr.marking y = 0 → exec (.markHoldExpiry row) s = .next (after s s.toChip)) := by
  have he : exec (.markHoldExpiry row) s = act s (fun c => whenAwake c (fun c =>
    if tget 0 c.pwr.marking row.toNat = 0 ∨ row.toNat ∈ c.pwr.markDone then c
    else modPwr c (fun p => { p with markDone := p.markDone ++ [row.toNat] }))) := rfl
  rw [act_whenAwake ha] at he
  refine ⟨fun h1 h2 => ?_, fun h => ?_⟩
  · rw [he, if_neg (fun x => x.elim h1 h2)]
    rfl
  · rw [he, if_pos (.inl h)]

/-- A row's fill noted: its energy counted, and its shortfall reported. -/
def markedAt (c : Chip) (y : Nat) (f : Nat × Bool) : Chip :=
  let d := markEnergy (modPwr (takeFree c).2 (fun p => { p with marking := tset 0 p.marking y f.1 })) y f.1
  if f.2 then raise (bump d aPWR_MARK_SHORT 1) .pwr 21 else d

/-- What it leaves. -/
structure MarkedAt (c d : Chip) (y : Nat) (f : Nat × Bool) : Prop where
  marking : d.pwr.marking = tset 0 c.pwr.marking y f.1
  rest : d.pwr.markRem = (c.pwr.markRem + f.1 * (550 + 20 * rowPoint c y)) % 10 ^ 10
  energy : (reg d aPWR_MARK_ENERGY).toNat = min ((reg c aPWR_MARK_ENERGY).toNat +
    (c.pwr.markRem + f.1 * (550 + 20 * rowPoint c y)) / 10 ^ 10) 0xFFFFFFFF
  short : f.2 = true → bit (hdr d .pwr).int 21 = true ∧
    (reg d aPWR_MARK_SHORT).toNat = min ((reg c aPWR_MARK_SHORT).toNat + 1) 0xFFFFFFFF

theorem reg_bump_other (c : Chip) {a b : Nat} (n : Nat) (h : b ≠ a) : reg (bump c a n) b = reg c b := by
  unfold bump bumpB
  split
  · rfl
  · exact regKey_setKey_other _ _ _ _ _ (rkey_ne h)

theorem markedAt_marked (c : Chip) (y : Nat) (f : Nat × Bool) : MarkedAt c (markedAt c y f) y f := by
  have hp : rowPoint (modPwr (takeFree c).2 (fun p => { p with marking := tset 0 p.marking y f.1 })) y = rowPoint c y :=
    rowPoint_congr (fun _ => rfl) y
  have hr : ∀ a, reg (modPwr (takeFree c).2 (fun p => { p with marking := tset 0 p.marking y f.1 })) a = reg c a := fun _ => rfl
  have he : markEnergy (modPwr (takeFree c).2 (fun p => { p with marking := tset 0 p.marking y f.1 })) y f.1 =
      modPwr (bump (modPwr (takeFree c).2 (fun p => { p with marking := tset 0 p.marking y f.1 })) aPWR_MARK_ENERGY
        ((c.pwr.markRem + f.1 * (550 + 20 * rowPoint c y)) / 10 ^ 10))
        (fun p => { p with markRem := (c.pwr.markRem + f.1 * (550 + 20 * rowPoint c y)) % 10 ^ 10 }) := by
    rw [← hp]
    rfl
  unfold markedAt
  dsimp only
  rw [he]
  generalize hge : c.pwr.markRem + f.1 * (550 + 20 * rowPoint c y) = e
  have hpw : (modPwr (takeFree c).2 (fun p => { p with marking := tset 0 p.marking y f.1 })).pwr =
    { c.pwr with marking := tset 0 c.pwr.marking y f.1 } := rfl
  generalize modPwr (takeFree c).2 (fun p => { p with marking := tset 0 p.marking y f.1 }) = x at hr hpw
  have hq := quiet_bump x aPWR_MARK_ENERGY (e / 10 ^ 10)
  have hen := toNat_reg_bump x aPWR_MARK_ENERGY (e / 10 ^ 10)
  have hs : reg (bump x aPWR_MARK_ENERGY (e / 10 ^ 10)) aPWR_MARK_SHORT = reg c aPWR_MARK_SHORT :=
    (reg_bump_other _ _ (by decide)).trans (hr _)
  rw [hr] at hen
  generalize bump x aPWR_MARK_ENERGY (e / 10 ^ 10) = z at hq hen hs
  have hz : (modPwr z (fun p => { p with markRem := e % 10 ^ 10 })).pwr =
      { c.pwr with marking := tset 0 c.pwr.marking y f.1, markRem := e % 10 ^ 10 } :=
    congrArg (fun p : PwrUnit => { p with markRem := e % 10 ^ 10 }) ((congrArg (·.pwr) hq).trans hpw)
  have hzr : ∀ a, reg (modPwr z (fun p => { p with markRem := e % 10 ^ 10 })) a = reg z a := fun _ => rfl
  generalize modPwr z (fun p => { p with markRem := e % 10 ^ 10 }) = w at hz hzr
  by_cases hf : f.2 = true
  · rw [if_pos hf]
    have hqb := quiet_bump w aPWR_MARK_SHORT 1
    have hsb := toNat_reg_bump w aPWR_MARK_SHORT 1
    have heb : reg (bump w aPWR_MARK_SHORT 1) aPWR_MARK_ENERGY = reg w aPWR_MARK_ENERGY := reg_bump_other _ _ (by decide)
    generalize bump w aPWR_MARK_SHORT 1 = b at hqb hsb heb
    have hm := minor_raise b .pwr 21
    have hev : bit (hdr (raise b .pwr 21) .pwr).int 21 = true := raises_int (l := [(.pwr, 21)]) (by decide) (by simp)
    generalize raise b .pwr 21 = d at hm hev
    have hpd : d.pwr = w.pwr := congrArg (·.pwr) (hm.quiet.trans hqb)
    have hrd : ∀ a, noisyKey (rkey 0 a) = false → reg d a = reg b a := fun a ha => hm.reg ha
    refine ⟨(congrArg (·.marking) hpd).trans (congrArg (·.marking) hz), by rw [hge]; exact (congrArg (·.markRem) hpd).trans (congrArg (·.markRem) hz), ?_, fun _ => ⟨hev, ?_⟩⟩
    · rw [hge, hrd _ (by decide), heb, hzr, hen]
    · rw [hrd _ (by decide), hsb, hzr, hs]
  · rw [if_neg hf]
    exact ⟨congrArg (·.marking) hz, by rw [hge]; exact congrArg (·.markRem) hz, by rw [hge, hzr, hen], fun h => absurd h hf⟩

theorem markFill_bound {c : Chip} {y : Nat} (est i0 n : Nat) (h : y ∉ c.pwr.markDone) :
    let f := markFill (takeFree c).2 y est i0 n (takeFree c).1
    f.1 ≤ markBound c y i0 n - est ∧ (f.1 < markBound c y i0 n - est → f.2 = true) := by
  have hf : markFill (takeFree c).2 y est i0 n (takeFree c).1 =
      if (takeFree c).1 < markBound c y i0 n - est then ((takeFree c).1, true) else (markBound c y i0 n - est, false) := by
    have hb : markBound (takeFree c).2 y i0 n = markBound c y i0 n := rfl
    unfold markFill
    dsimp only
    rw [if_neg (show y ∉ (takeFree c).2.pwr.markDone from h), hb]
  intro f
  rw [show f = _ from hf]
  split
  · exact ⟨by dsimp only; omega, fun _ => rfl⟩
  · exact ⟨le_refl _, fun hl => absurd hl (lt_irrefl _)⟩

/-- MARK_ESTIMATE. -/
theorem markEstimates {s : State} (row : BitVec 4) (est i0 n : Nat) (ha : Awake s.toChip) :
    let y := row.toNat
    (bit (reg s.toChip aPWR_CTRL) 1 = false ∨ rowWaits s.toChip y = false →
      exec (.markEstimate row est i0 n) s = .next (after s { s.toChip with pwr := { s.pwr with
        marking := tdel s.pwr.marking y, markDone := s.pwr.markDone.filter (· ≠ y) } })) ∧
    (bit (reg s.toChip aPWR_CTRL) 1 = true → rowWaits s.toChip y = true → y ∉ s.pwr.markDone →
      let need := markBound s.toChip y i0 n - est
      Completes (.markEstimate row est i0 n) s (fun t =>
        let fill := tget 0 t.pwr.marking y
        fill ≤ need ∧ (fill < need → Event t .pwr 21 ∧ Counted s t aPWR_MARK_SHORT 1) ∧
        (∀ z, z ≠ y → tget 0 t.pwr.marking z = tget 0 s.pwr.marking z) ∧
        (let e := s.pwr.markRem + fill * (550 + 20 * rowPoint s.toChip y)
         t.pwr.markRem = e % 10 ^ 10 ∧ Counted s t aPWR_MARK_ENERGY (e / 10 ^ 10)))) := by
  intro y
  have he : exec (.markEstimate row est i0 n) s = act s (fun c => whenAwake c (fun c => markEstimate c y est i0 n)) := rfl
  rw [act_whenAwake ha] at he
  refine ⟨fun h => ?_, fun hb hw hd => ?_⟩
  · rw [he, markEstimate, if_pos h]
    rfl
  · intro need
    have hx : markEstimate s.toChip y est i0 n = markedAt s.toChip y (markFill (takeFree s.toChip).2 y est i0 n (takeFree s.toChip).1) := by
      rw [markEstimate, if_neg (by rw [hb, hw]; decide)]
      rfl
    obtain ⟨hle, hsh⟩ := markFill_bound est i0 n hd
    rw [hx] at he
    generalize markFill (takeFree s.toChip).2 y est i0 n (takeFree s.toChip).1 = f at he hle hsh
    have hm := markedAt_marked s.toChip y f
    generalize markedAt s.toChip y f = d at he hm
    have hf : tget 0 (after s d).pwr.marking y = f.1 := by
      refine (congrArg (fun t => tget 0 t y) hm.marking).trans ?_
      rw [tget_tset_self]
    refine ⟨_, he, after_pending _ _, ?_⟩
    dsimp only
    rw [hf]
    exact ⟨hle, fun hl => hm.short (hsh hl), fun z hz => (congrArg (fun t => tget 0 t z) hm.marking).trans
      (tget_tset_other _ _ _ _ _ hz), hm.rest, hm.energy⟩

/-! ### Measurement (R427) -/

/-- One rail as a sample measures it: the core rail's current is given. -/
def railSampled (da : Nat) (c : Chip) (r : Nat) : Chip :=
  setRegB (takeFree c).2 r aPWR_RAIL_PWR (if r = 0 then putFld (w32 (takeFree c).1) 31 16 da else w32 (takeFree c).1)

theorem sampleRails_eq (c : Chip) (da : Nat) : sampleRails c da = [0, 1, 2, 3, 4, 5].foldl (railSampled da) c := rfl

/-- Rails other than the core rail. -/
theorem railsSampled_moved (da : Nat) (l : List Nat) (c : Chip) : quiet (l.foldl (railSampled da) c) = quiet c ∧
    ∀ k, k ∉ l.map (fun r => rkey r aPWR_RAIL_PWR) → regKey (l.foldl (railSampled da) c) k = regKey c k := by
  induction l generalizing c with
  | nil => exact ⟨rfl, fun _ _ => rfl⟩
  | cons r l ih =>
    obtain ⟨h1, h2⟩ := ih (railSampled da c r)
    have g1 : quiet (railSampled da c r) = quiet c := by
      unfold railSampled
      rw [quiet_setRegB]
      rfl
    have g2 : ∀ k, k ≠ rkey r aPWR_RAIL_PWR → regKey (railSampled da c r) k = regKey c k := fun k hk =>
      regKey_setKey_other (takeFree c).2 _ _ _ _ hk
    rw [List.foldl_cons]
    generalize railSampled da c r = d at h1 h2 g1 g2
    refine ⟨h1.trans g1, fun k hk => ?_⟩
    rw [List.map_cons, List.mem_cons, not_or] at hk
    exact (h2 k hk.2).trans (g2 k hk.1)

theorem sampleRails_moved (c : Chip) {da : Nat} (h : da < 65536) :
    quiet (sampleRails c da) = quiet c ∧ fld (regB (sampleRails c da) 0 aPWR_RAIL_PWR) 31 16 = da ∧
    ∀ k, k ∉ [0, 1, 2, 3, 4, 5].map (fun r => rkey r aPWR_RAIL_PWR) → regKey (sampleRails c da) k = regKey c k := by
  rw [sampleRails_eq]
  obtain ⟨h1, h2⟩ := railsSampled_moved da [0, 1, 2, 3, 4, 5] c
  refine ⟨h1, ?_, h2⟩
  rw [List.foldl_cons]
  have g : regB (railSampled da c 0) 0 aPWR_RAIL_PWR = putFld (w32 (takeFree c).1) 31 16 da := regKey_setKey_all ..
  obtain ⟨-, h3⟩ := railsSampled_moved da [1, 2, 3, 4, 5] (railSampled da c 0)
  refine (congrArg (fld · 31 16) ((h3 (rkey 0 aPWR_RAIL_PWR) (by decide)).trans g)).trans ?_
  rw [fld_putFld_self _ _ (by decide) (by decide)]
  exact Nat.mod_eq_of_lt h

/-- The registers that a measurement writes. -/
def sampleKeys : List Nat :=
  [rkey 0 aPWR_PWR_NOW, rkey 0 aPWR_ENERGY_LO, rkey 0 (aPWR_ENERGY_LO + 4)] ++
    [0, 1, 2, 3, 4, 5].map (fun r => rkey r aPWR_RAIL_PWR)

/-- What a measurement leaves. -/
structure Measured (c d : Chip) (dw avg da : Nat) : Prop where
  now : fld (reg d aPWR_PWR_NOW) 15 0 = avg
  energy : pair d aPWR_ENERGY_LO = (pair c aPWR_ENERGY_LO + (c.pwr.energyUj + dw) / 1000) % 2 ^ 64
  left : d.pwr.energyUj = (c.pwr.energyUj + dw) % 1000
  rail : fld (regB d 0 aPWR_RAIL_PWR) 31 16 = da
  gap : pacedNow c = false → d.pwr.gapPower = c.pwr.gapPower
  mem : d.mem = c.mem
  sched : d.sched = c.sched

/-- The chip as measured, before the fast limit. -/
def sampled (c : Chip) (dw avg da : Nat) : Chip :=
  let d := sampleRails (addEnergy (setFld c aPWR_PWR_NOW 15 0 avg) dw) da
  if pacedNow d then modPwr (takeFree d).2 (fun p => { p with gapPower := (takeFree d).1 }) else d

theorem samplePower_eq (c : Chip) (dw avg da : Nat) : samplePower c dw avg da = fastLimit (sampled c dw avg da) avg da := rfl

theorem pacedNow_congr {c d : Chip} (h : d.sched = c.sched) : pacedNow d = pacedNow c := by
  have hs : ∀ p, schedPart d p = schedPart c p := fun p => by rw [schedPart, schedPart, h]
  unfold pacedNow
  simp only [hs]

theorem pair_kept {c d : Chip} {a : Nat} (h : reg d a = reg c a) (h' : reg d (a + 4) = reg c (a + 4)) : pair d a = pair c a :=
  pairB_kept h h'

/-- The energy of a sample added. -/
theorem addEnergy_moved (c : Chip) (dw : Nat) :
    pair (addEnergy c dw) aPWR_ENERGY_LO = (pair c aPWR_ENERGY_LO + (c.pwr.energyUj + dw) / 1000) % 2 ^ 64 ∧
    quiet (addEnergy c dw) = quiet (modPwr c (fun p => { p with energyUj := (c.pwr.energyUj + dw) % 1000 })) ∧
    ∀ k, k ≠ rkey 0 aPWR_ENERGY_LO → k ≠ rkey 0 (aPWR_ENERGY_LO + 4) → regKey (addEnergy c dw) k = regKey c k := by
  unfold addEnergy
  dsimp only
  generalize c.pwr.energyUj + dw = e
  have h1 := pair_bumpPair c aPWR_ENERGY_LO (e / 1000)
  have hq1 := quiet_bumpPair c aPWR_ENERGY_LO (e / 1000)
  have hk1 : ∀ k, k ≠ rkey 0 aPWR_ENERGY_LO → k ≠ rkey 0 (aPWR_ENERGY_LO + 4) →
      regKey (bumpPair c aPWR_ENERGY_LO (e / 1000)) k = regKey c k := fun k ha hb => regKey_bumpPair_other _ _ _ ha hb
  generalize bumpPair c aPWR_ENERGY_LO (e / 1000) = d at h1 hq1 hk1
  generalize e % 1000 = m
  refine ⟨(pair_kept rfl rfl).trans h1, ?_, hk1⟩
  have := congrArg (fun x : Chip => modPwr x (fun p => { p with energyUj := m })) hq1
  exact this

/-- The input power shown, and the energy and the rails of a sample. -/
def sampledRails (c : Chip) (dw avg da : Nat) : Chip := sampleRails (addEnergy (setFld c aPWR_PWR_NOW 15 0 avg) dw) da

/-- What they leave. -/
structure RailsMeasured (c d : Chip) (dw avg da : Nat) : Prop where
  now : fld (reg d aPWR_PWR_NOW) 15 0 = avg
  energy : pair d aPWR_ENERGY_LO = (pair c aPWR_ENERGY_LO + (c.pwr.energyUj + dw) / 1000) % 2 ^ 64
  rail : fld (regB d 0 aPWR_RAIL_PWR) 31 16 = da
  quiet : Safety.quiet d = Safety.quiet (modPwr c (fun p => { p with energyUj := (c.pwr.energyUj + dw) % 1000 }))
  regs : ∀ k, k ∉ sampleKeys → regKey d k = regKey c k

theorem sampledRails_measured (c : Chip) {dw avg da : Nat} (ha : avg < 65536) (hd : da < 65536) :
    RailsMeasured c (sampledRails c dw avg da) dw avg da := by
  unfold sampledRails
  have h0 : fld (reg (setFld c aPWR_PWR_NOW 15 0 avg) aPWR_PWR_NOW) 15 0 = avg :=
    (fld_setFld_self _ _ _ (by decide) (by decide)).trans (Nat.mod_eq_of_lt ha)
  have hq0 := quiet_setFld c aPWR_PWR_NOW 15 0 avg
  have hk0 : ∀ k, k ≠ rkey 0 aPWR_PWR_NOW → regKey (setFld c aPWR_PWR_NOW 15 0 avg) k = regKey c k := fun k hk =>
    regKey_setKey_other _ _ _ _ _ hk
  generalize setFld c aPWR_PWR_NOW 15 0 avg = c0 at h0 hq0 hk0
  have hp0 : c0.pwr = c.pwr := congrArg (·.pwr) hq0
  have hpair : pair c0 aPWR_ENERGY_LO = pair c aPWR_ENERGY_LO := pair_kept (hk0 _ (by decide)) (hk0 _ (by decide))
  obtain ⟨h1, hq1, hk1⟩ := addEnergy_moved c0 dw
  rw [hpair, hp0] at h1
  rw [hp0] at hq1
  generalize addEnergy c0 dw = c1 at h1 hq1 hk1
  obtain ⟨hq3, h3, hk3⟩ := sampleRails_moved c1 hd
  generalize sampleRails c1 da = c3 at hq3 h3 hk3
  refine ⟨?_, ?_, h3, ?_, fun k hk => ?_⟩
  · exact (congrArg (fld · 15 0) ((hk3 _ (by decide)).trans (hk1 _ (by decide) (by decide)))).trans h0
  · exact (pair_kept (hk3 _ (by decide)) (hk3 _ (by decide))).trans h1
  · generalize (c.pwr.energyUj + dw) % 1000 = m at hq1 ⊢
    have := congrArg (fun x : Chip => modPwr x (fun p => { p with energyUj := m })) hq0
    exact hq3.trans (hq1.trans this)
  · rw [sampleKeys, List.cons_append, List.cons_append, List.cons_append, List.nil_append, List.mem_cons, List.mem_cons,
      List.mem_cons, not_or, not_or, not_or] at hk
    obtain ⟨k0, k1, k2, k3⟩ := hk
    rw [hk3 k k3, hk1 k k1 k2, hk0 k k0]

theorem RailsMeasured.measured {c d : Chip} {dw avg da : Nat} (h : RailsMeasured c d dw avg da) : Measured c d dw avg da :=
  ⟨h.now, h.energy, congrArg (·.pwr.energyUj) h.quiet, h.rail, fun _ => congrArg (·.pwr.gapPower) h.quiet,
    congrArg (·.mem) h.quiet, congrArg (·.sched) h.quiet⟩

/-- A chip with another draw of the pacing gaps. -/
theorem measured_gap {c d e : Chip} {dw avg da g : Nat} (h : Measured c d dw avg da) (hr : ∀ k, regKey e k = regKey d k)
    (hp : e.pwr = { d.pwr with gapPower := g }) (hm : e.mem = d.mem) (hs : e.sched = d.sched) (hn : pacedNow c = true) :
    Measured c e dw avg da :=
  ⟨(congrArg (fld · 15 0) (hr _)).trans h.now, (pair_kept (hr _) (hr _)).trans h.energy,
    (congrArg (·.energyUj) hp).trans h.left, (congrArg (fld · 31 16) (hr _)).trans h.rail,
    fun hx => absurd (hx.symm.trans hn) Bool.false_ne_true, hm.trans h.mem, hs.trans h.sched⟩

theorem sampled_eq (c : Chip) (dw avg da : Nat) : sampled c dw avg da =
    if pacedNow (sampledRails c dw avg da) then modPwr (takeFree (sampledRails c dw avg da)).2
      (fun p => { p with gapPower := (takeFree (sampledRails c dw avg da)).1 })
    else sampledRails c dw avg da := rfl

theorem regKey_modPwr (c : Chip) (f : PwrUnit → PwrUnit) (k : Nat) : regKey (modPwr c f) k = regKey c k := rfl

theorem regKey_takeFree (c : Chip) (k : Nat) : regKey (takeFree c).2 k = regKey c k := rfl

theorem memSched_modPwr (c : Chip) (f : PwrUnit → PwrUnit) : (modPwr c f).mem = c.mem ∧ (modPwr c f).sched = c.sched :=
  ⟨rfl, rfl⟩

theorem memSched_takeFree (c : Chip) : (takeFree c).2.mem = c.mem ∧ (takeFree c).2.sched = c.sched := ⟨rfl, rfl⟩

theorem sampled_measured (c : Chip) {dw avg da : Nat} (ha : avg < 65536) (hd : da < 65536) :
    Measured c (sampled c dw avg da) dw avg da ∧ (sampled c dw avg da).pwr.halved = c.pwr.halved ∧
    ∀ k, k ∉ sampleKeys → regKey (sampled c dw avg da) k = regKey c k := by
  rw [sampled_eq]
  have h := sampledRails_measured c (dw := dw) ha hd
  generalize sampledRails c dw avg da = d at h
  have hm := h.measured
  have hh : d.pwr.halved = c.pwr.halved := congrArg (·.pwr.halved) h.quiet
  rw [pacedNow_congr hm.sched]
  by_cases hn : pacedNow c = true
  · rw [if_pos hn]
    have hr : ∀ k, regKey (modPwr (takeFree d).2 (fun p => { p with gapPower := (takeFree d).1 })) k = regKey d k := fun k =>
      (regKey_modPwr ..).trans (regKey_takeFree ..)
    have hp : (modPwr (takeFree d).2 (fun p => { p with gapPower := (takeFree d).1 })).pwr =
      { d.pwr with gapPower := (takeFree d).1 } := rfl
    have hms := memSched_modPwr (takeFree d).2 (fun p => { p with gapPower := (takeFree d).1 })
    rw [(memSched_takeFree d).1, (memSched_takeFree d).2] at hms
    generalize (modPwr (takeFree d).2 (fun p => { p with gapPower := (takeFree d).1 })) = e at hr hp hms ⊢
    exact ⟨measured_gap hm hr hp hms.1 hms.2 hn, (congrArg (·.halved) hp).trans hh, fun k hk => (hr k).trans (h.regs k hk)⟩
  · rw [if_neg hn]
    exact ⟨hm, hh, h.regs⟩

/-! ### The fast limit (R430) -/

/-- What the fast limit may move. -/
structure FastMoved (c d : Chip) (halved : Bool) : Prop where
  quiet : Safety.quiet d = Safety.quiet (modPwr c (fun p => { p with halved := halved }))
  regs : ∀ k, noisyKey k = false → k ≠ rkey 0 aPWR_LIMIT → k ≠ rkey 0 aPWR_FAST_CNT → regKey d k = regKey c k

theorem FastMoved.measured {c d e : Chip} {b : Bool} {dw avg da : Nat} (h : FastMoved d e b) (hm : Measured c d dw avg da) :
    Measured c e dw avg da := by
  have hr : ∀ a, noisyKey (rkey 0 a) = false → rkey 0 a ≠ rkey 0 aPWR_LIMIT → rkey 0 a ≠ rkey 0 aPWR_FAST_CNT →
      regB e 0 a = regB d 0 a := fun a h1 h2 h3 => h.regs _ h1 h2 h3
  have hp : e.pwr = { d.pwr with halved := b } := congrArg (·.pwr) h.quiet
  refine ⟨?_, ?_, (congrArg (·.energyUj) hp).trans hm.left, ?_, fun hn => (congrArg (·.gapPower) hp).trans (hm.gap hn),
    (congrArg (·.mem) h.quiet).trans hm.mem, (congrArg (·.sched) h.quiet).trans hm.sched⟩
  · exact (congrArg (fld · 15 0) (hr aPWR_PWR_NOW (by decide) (by decide) (by decide))).trans hm.now
  · refine Eq.trans ?_ hm.energy
    rw [pair, pair, pairB, pairB, hr aPWR_ENERGY_LO (by decide) (by decide) (by decide),
      hr (aPWR_ENERGY_LO + 4) (by decide) (by decide) (by decide)]
  · exact (congrArg (fld · 31 16) (hr aPWR_RAIL_PWR (by decide) (by decide) (by decide))).trans hm.rail

/-- LIMIT.FAST and LIMIT.ICC as the conditions hold. -/
def limitMarked (c : Chip) (hot icc : Bool) : Chip :=
  setFld (setFld c aPWR_LIMIT 1 1 (b2n (hot || bit (reg c aPWR_LIMIT) 1))) aPWR_LIMIT 2 2 (b2n (icc || bit (reg c aPWR_LIMIT) 2))

theorem limitMarked_moved (c : Chip) (hot icc : Bool) : quiet (limitMarked c hot icc) = quiet c ∧
    ∀ k, k ≠ rkey 0 aPWR_LIMIT → regKey (limitMarked c hot icc) k = regKey c k :=
  ⟨by rw [limitMarked, quiet_setFld, quiet_setFld], fun k hk =>
    (regKey_setKey_other _ _ _ _ _ hk).trans (regKey_setKey_other _ _ _ _ _ hk)⟩

/-- The fast limit by its cases. -/
theorem fastLimit_cases (c : Chip) (avg da : Nat) :
    let pl := 10 * fld (reg c aPWR_FAST) 10 0
    let il := 10 * fld (reg c aPWR_FAST) 25 16
    let above := pl < avg ∨ il < da
    let below := avg * 100 < 95 * pl ∧ da * 100 < 95 * il
    let d := fastLimit c avg da
    (c.pwr.halved = false → above → FastMoved c d true ∧
      (reg d aPWR_FAST_CNT).toNat = min ((reg c aPWR_FAST_CNT).toNat + 1) 0xFFFFFFFF ∧ bit (hdr d .pwr).int 17 = true) ∧
    (c.pwr.halved = false → ¬ above → d = c) ∧
    (c.pwr.halved = true → below → FastMoved c d false ∧ fld (reg d aPWR_LIMIT) 2 1 = 0) ∧
    (c.pwr.halved = true → ¬ below → FastMoved c d true) := by
  intro pl il above below d
  have hd : d = if c.pwr.halved then
      if below then modPwr (setFld c aPWR_LIMIT 2 1 0) (fun p => { p with halved := false })
      else limitMarked c (decide (pl < avg)) (decide (il < da))
    else if (decide (pl < avg) || decide (il < da)) = true then
      raise (bump (modPwr (limitMarked c (decide (pl < avg)) (decide (il < da))) (fun p => { p with halved := true }))
        aPWR_FAST_CNT 1) .pwr 17
    else c := rfl
  have hab : (decide (pl < avg) || decide (il < da)) = true ↔ above := by simp [above]
  clear_value d
  refine ⟨fun hh ha => ?_, fun hh ha => ?_, fun hh hb => ?_, fun hh hb => ?_⟩
  · rw [if_neg (by rw [hh]; decide), if_pos (hab.2 ha)] at hd
    obtain ⟨hq, hk⟩ := limitMarked_moved c (decide (pl < avg)) (decide (il < da))
    generalize limitMarked c (decide (pl < avg)) (decide (il < da)) = e at hd hq hk
    have hq2 : quiet (modPwr e (fun p => { p with halved := true })) = quiet (modPwr c (fun p => { p with halved := true })) := by
      have := congrArg (fun x : Chip => modPwr x (fun p => { p with halved := true })) hq
      exact this
    have hk2 : ∀ k, k ≠ rkey 0 aPWR_LIMIT → regKey (modPwr e (fun p => { p with halved := true })) k = regKey c k := hk
    generalize modPwr e (fun p => { p with halved := true }) = f at hd hq2 hk2
    have hq3 := quiet_bump f aPWR_FAST_CNT 1
    have hc3 := toNat_reg_bump f aPWR_FAST_CNT 1
    have hk3 : ∀ k, k ≠ rkey 0 aPWR_FAST_CNT → regKey (bump f aPWR_FAST_CNT 1) k = regKey f k := fun k hk =>
      regKey_setKey_other _ _ _ _ _ hk
    generalize bump f aPWR_FAST_CNT 1 = g at hd hq3 hc3 hk3
    have hm := minor_raise g .pwr 17
    have hev : bit (hdr (raise g .pwr 17) .pwr).int 17 = true := raises_int (l := [(.pwr, 17)]) (by decide) (by simp)
    generalize raise g .pwr 17 = k at hd hm hev
    subst hd
    refine ⟨⟨hm.quiet.trans (hq3.trans hq2), fun k h1 h2 h3 => ?_⟩, ?_, hev⟩
    · rw [hm.regs k h1, hk3 k h3, hk2 k h2]
    · rw [hm.reg (by decide), hc3, show reg f aPWR_FAST_CNT = reg c aPWR_FAST_CNT from hk2 _ (by decide)]
  · rw [if_neg (by rw [hh]; decide), if_neg (fun x => ha (hab.1 x))] at hd
    exact hd
  · rw [if_pos hh, if_pos hb] at hd
    have hf : fld (reg (setFld c aPWR_LIMIT 2 1 0) aPWR_LIMIT) 2 1 = 0 :=
      (fld_setFld_self _ _ _ (by decide) (by decide)).trans rfl
    have hq := quiet_setFld c aPWR_LIMIT 2 1 0
    have hk : ∀ k, k ≠ rkey 0 aPWR_LIMIT → regKey (setFld c aPWR_LIMIT 2 1 0) k = regKey c k := fun k hk =>
      regKey_setKey_other _ _ _ _ _ hk
    generalize setFld c aPWR_LIMIT 2 1 0 = e at hd hf hq hk
    subst hd
    refine ⟨⟨?_, fun k _ h2 _ => hk k h2⟩, hf⟩
    have := congrArg (fun x : Chip => modPwr x (fun p => { p with halved := false })) hq
    exact this
  · rw [if_pos hh, if_neg hb] at hd
    obtain ⟨hq, hk⟩ := limitMarked_moved c (decide (pl < avg)) (decide (il < da))
    rw [hd]
    refine ⟨hq.trans ?_, fun k _ h2 _ => hk k h2⟩
    have hp : modPwr c (fun p => { p with halved := true }) = c := by
      unfold modPwr
      rw [← hh]
    rw [hp]

/-- POWER_SAMPLE. -/
theorem powerSamples {s : State} (hm : minuetOn s.toChip = true) (dw avg da : BitVec 16) :
    let w := s.pwr
    let pl := 10 * fld (reg s.toChip aPWR_FAST) 10 0
    let il := 10 * fld (reg s.toChip aPWR_FAST) 25 16
    let above := pl < avg.toNat ∨ il < da.toNat
    let below := avg.toNat * 100 < 95 * pl ∧ da.toNat * 100 < 95 * il
    let e := w.energyUj + dw.toNat
    let measured := fun (t : State) => fld (reg t.toChip aPWR_PWR_NOW) 15 0 = avg.toNat ∧
      pair t.toChip aPWR_ENERGY_LO = (pair s.toChip aPWR_ENERGY_LO + e / 1000) % 2 ^ 64 ∧ t.pwr.energyUj = e % 1000 ∧
      fld (regB t.toChip 0 aPWR_RAIL_PWR) 31 16 = da.toNat ∧
      (pacedNow s.toChip = false → t.pwr.gapPower = w.gapPower) ∧ t.mem = s.mem ∧ t.sched = s.sched
    (w.halved = false → above → Completes (.powerSample dw avg da) s (fun t => measured t ∧ t.pwr.halved = true ∧
      Counted s t aPWR_FAST_CNT 1 ∧ Event t .pwr 17)) ∧
    (w.halved = false → ¬ above → Completes (.powerSample dw avg da) s (fun t => measured t ∧ t.pwr.halved = false ∧
      reg t.toChip aPWR_LIMIT = reg s.toChip aPWR_LIMIT)) ∧
    (w.halved = true → below → Completes (.powerSample dw avg da) s (fun t => measured t ∧ t.pwr.halved = false ∧
      fld (reg t.toChip aPWR_LIMIT) 2 1 = 0)) ∧
    (w.halved = true → ¬ below → Completes (.powerSample dw avg da) s (fun t => measured t ∧ t.pwr.halved = true)) := by
  intro w pl il above below e measured
  have he : exec (.powerSample dw avg da) s =
    act s (fun c => whenMinuet c (fun c => samplePower c dw.toNat avg.toNat da.toNat)) := rfl
  rw [act_whenMinuet hm, samplePower_eq] at he
  obtain ⟨hme, hh, hk⟩ := sampled_measured s.toChip (dw := dw.toNat) avg.isLt da.isLt
  generalize sampled s.toChip dw.toNat avg.toNat da.toNat = c at he hme hh hk
  have hf : reg c aPWR_FAST = reg s.toChip aPWR_FAST := hk _ (by decide)
  have hl : reg c aPWR_LIMIT = reg s.toChip aPWR_LIMIT := hk _ (by decide)
  have hfc : reg c aPWR_FAST_CNT = reg s.toChip aPWR_FAST_CNT := hk _ (by decide)
  obtain ⟨h1, h2, h3, h4⟩ := fastLimit_cases c avg.toNat da.toNat
  rw [hf, hh, hfc] at h1
  rw [hf, hh] at h2 h3 h4
  generalize fastLimit c avg.toNat da.toNat = d at he h1 h2 h3 h4
  have hmeas : Measured s.toChip d dw.toNat avg.toNat da.toNat → measured (after s d) := fun m =>
    ⟨m.now, m.energy, m.left, m.rail, m.gap, m.mem, m.sched⟩
  refine ⟨fun hv ha => ?_, fun hv ha => ?_, fun hv hb => ?_, fun hv hb => ?_⟩
  · obtain ⟨g, gc, ge⟩ := h1 hv ha
    exact ⟨_, he, after_pending _ _, hmeas (g.measured hme), congrArg (·.pwr.halved) g.quiet, gc, ge⟩
  · have g := h2 hv ha
    exact ⟨_, he, after_pending _ _, hmeas (g ▸ hme), (congrArg (·.pwr.halved) g).trans (hh.trans hv),
      (congrArg (reg · aPWR_LIMIT) g).trans hl⟩
  · obtain ⟨g, gl⟩ := h3 hv hb
    exact ⟨_, he, after_pending _ _, hmeas (g.measured hme), congrArg (·.pwr.halved) g.quiet, gl⟩
  · have g := h4 hv hb
    exact ⟨_, he, after_pending _ _, hmeas (g.measured hme), congrArg (·.pwr.halved) g.quiet⟩

/-! ### Thermal reads (R441, R442) -/

/-- A change of the sites' disagreement alone, beside events and reports. -/
structure SitesMoved (c d : Chip) : Prop where
  quiet : Safety.quiet d = Safety.quiet (modPwr c (fun p => { p with disagree := d.pwr.disagree }))
  regs : ∀ k, noisyKey k = false → k ≠ rkey 0 aPWR_SENSOR_FAULT → regKey d k = regKey c k

theorem SitesMoved.refl (c : Chip) : SitesMoved c c := ⟨rfl, fun _ _ _ => rfl⟩

theorem SitesMoved.trans {a b c : Chip} (h : SitesMoved a b) (g : SitesMoved b c) : SitesMoved a c := by
  refine ⟨g.quiet.trans ?_, fun k h1 h2 => (g.regs k h1 h2).trans (h.regs k h1 h2)⟩
  have := congrArg (fun x : Chip => modPwr x (fun p => { p with disagree := c.pwr.disagree })) h.quiet
  exact this

/-- The fourth disagreement of a site in a row. -/
def siteFault (c : Chip) (s : Nat) : Chip :=
  fault (raise (setFld (modPwr c (fun p => { p with disagree := tins p.disagree s 4 })) aPWR_SENSOR_FAULT s s 1) .pwr 20)
    0x16 .pwr s 0 false

theorem noteSite_cases (c : Chip) (r : SiteReading) :
    let s := r.site.toNat
    let n := tget 0 c.pwr.disagree s
    (siteDiffers r = false → noteSite c r =
      setFld (modPwr c (fun p => { p with disagree := tdel p.disagree s })) aPWR_SENSOR_FAULT s s 0) ∧
    (siteDiffers r = true → n = 3 → noteSite c r = siteFault c s) ∧
    (siteDiffers r = true → n ≠ 3 → noteSite c r = modPwr c (fun p => { p with disagree := tins p.disagree s (min 4 (n + 1)) })) := by
  intro s n
  refine ⟨fun h => ?_, fun h hn => ?_, fun h hn => ?_⟩
  · unfold noteSite
    dsimp only
    rw [if_pos h]
  · unfold noteSite
    dsimp only
    rw [if_neg (by rw [h]; decide), if_pos (show tget 0 c.pwr.disagree r.site.toNat = 3 from hn),
      show tget 0 c.pwr.disagree r.site.toNat = 3 from hn]
    rfl
  · unfold noteSite
    dsimp only
    rw [if_neg (by rw [h]; decide), if_neg (show ¬ tget 0 c.pwr.disagree r.site.toNat = 3 from hn)]

/-- What a fourth disagreement leaves. -/
structure SiteFaulted (c d : Chip) (s : Nat) : Prop where
  moved : SitesMoved c d
  disagree : d.pwr.disagree = tins c.pwr.disagree s 4
  shown : bit (reg d aPWR_SENSOR_FAULT) s = true
  event : bit (hdr d .pwr).int 20 = true
  logged : (regB d 0x16 aFLT_CLASS_CNT).toNat = min ((regB c 0x16 aFLT_CLASS_CNT).toNat + 1) 0xFFFFFFFF

theorem siteFault_faulted (c : Chip) {s : Nat} (h : s < 32) : SiteFaulted c (siteFault c s) s := by
  unfold siteFault
  have hp0 : (modPwr c (fun p => { p with disagree := tins p.disagree s 4 })).pwr =
    { c.pwr with disagree := tins c.pwr.disagree s 4 } := rfl
  have hq0 : quiet (modPwr c (fun p => { p with disagree := tins p.disagree s 4 })) =
    quiet (modPwr c (fun p => { p with disagree := tins c.pwr.disagree s 4 })) := rfl
  have hr0 : ∀ k, regKey (modPwr c (fun p => { p with disagree := tins p.disagree s 4 })) k = regKey c k := regKey_modPwr _ _
  generalize modPwr c (fun p => { p with disagree := tins p.disagree s 4 }) = c0 at hp0 hq0 hr0
  have hq1 := quiet_setFld c0 aPWR_SENSOR_FAULT s s 1
  have hb1 : bit (reg (setFld c0 aPWR_SENSOR_FAULT s s 1) aPWR_SENSOR_FAULT) s = true := bit_setFld_one _ _ h
  have hr1 : ∀ k, k ≠ rkey 0 aPWR_SENSOR_FAULT → regKey (setFld c0 aPWR_SENSOR_FAULT s s 1) k = regKey c0 k := fun k hk =>
    regKey_setKey_other _ _ _ _ _ hk
  generalize setFld c0 aPWR_SENSOR_FAULT s s 1 = c1 at hq1 hb1 hr1
  have hm2 := minor_raise c1 .pwr 20
  have hk2 := keepsRegs_raise c1 .pwr 20
  have he2 : bit (hdr (raise c1 .pwr 20) .pwr).int 20 = true := raises_int (l := [(.pwr, 20)]) (by decide) (by simp)
  generalize raise c1 .pwr 20 = c2 at hm2 hk2 he2
  have hm3 := minor_fault c2 0x16 .pwr s 0 false (by decide)
  have hl3 := toNat_classCnt_fault c2 (cls := 0x16) .pwr s 0 false (by decide) (by decide)
  generalize fault c2 0x16 .pwr s 0 false = d at hm3 hl3
  have hq : quiet d = quiet c0 := hm3.quiet.trans (hm2.quiet.trans hq1)
  have hp : d.pwr.disagree = tins c.pwr.disagree s 4 := (congrArg (·.pwr.disagree) hq).trans (congrArg (·.disagree) hp0)
  refine ⟨⟨?_, fun k h1 h2 => ?_⟩, hp, ?_, hm3.ints _ _ he2, ?_⟩
  · rw [hp]
    exact hq.trans hq0
  · rw [hm3.regs k h1, hm2.regs k h1, hr1 k h2, hr0]
  · rw [hm3.reg (by decide), hm2.reg (by decide), hb1]
  · rw [hl3, show regB c2 0x16 aFLT_CLASS_CNT = regB c1 0x16 aFLT_CLASS_CNT from hk2 _ (by decide),
      show regB c1 0x16 aFLT_CLASS_CNT = regB c 0x16 aFLT_CLASS_CNT from (hr1 _ (by decide)).trans (hr0 _)]

theorem noteSite_moved (c : Chip) (r : SiteReading) : SitesMoved c (noteSite c r) := by
  obtain ⟨h1, h2, h3⟩ := noteSite_cases c r
  cases hs : siteDiffers r
  · rw [h1 hs]
    refine ⟨?_, fun k hk hn => (regKey_setKey_other _ _ _ _ _ hn).trans (regKey_modPwr ..)⟩
    have hq := quiet_setFld (modPwr c (fun p => { p with disagree := tdel p.disagree r.site.toNat })) aPWR_SENSOR_FAULT
      r.site.toNat r.site.toNat 0
    generalize setFld (modPwr c (fun p => { p with disagree := tdel p.disagree r.site.toNat })) aPWR_SENSOR_FAULT
      r.site.toNat r.site.toNat 0 = d at hq
    have hp : d.pwr.disagree = tdel c.pwr.disagree r.site.toNat := congrArg (·.pwr.disagree) hq
    rw [hp]
    exact hq
  · by_cases hn : tget 0 c.pwr.disagree r.site.toNat = 3
    · rw [h2 hs hn]
      exact (siteFault_faulted c r.site.isLt).moved
    · rw [h3 hs hn]
      exact ⟨rfl, fun k _ _ => regKey_modPwr ..⟩

theorem noteSites_moved (l : List SiteReading) (c : Chip) : SitesMoved c (l.foldl noteSite c) := by
  induction l generalizing c with
  | nil => exact .refl c
  | cons r l ih => exact (noteSite_moved c r).trans (ih _)

/-- The hottest reading fits TJ. -/
theorem hottest_lt {l : List SiteReading} {t s : Nat} (h : hottest l = some (t, s)) : t < 4096 ∧ s < 32 := by
  have go : ∀ (l : List SiteReading) (m : Option (Nat × Nat)), (∀ x, m = some x → x.1 < 4096 ∧ x.2 < 32) →
      ∀ x, l.foldl (fun m r => match m with
        | none => some (siteReading r, r.site.toNat)
        | some (t, s) => if t < siteReading r then some (siteReading r, r.site.toNat) else some (t, s)) m = some x →
        x.1 < 4096 ∧ x.2 < 32 := fun l => by
    induction l with
    | nil => exact fun m hm => hm
    | cons r l ih =>
      intro m hm
      refine ih _ fun x hx => ?_
      have hr : siteReading r < 4096 ∧ r.site.toNat < 32 := ⟨max_lt r.a.isLt r.b.isLt, r.site.isLt⟩
      cases m with
      | none =>
        obtain rfl := Option.some.inj hx
        exact hr
      | some y =>
        dsimp only at hx
        split at hx
        · obtain rfl := Option.some.inj hx
          exact hr
        · exact hm x hx
  exact go l none (fun x hx => by cases hx) (t, s) h

/-- What following the throttle leaves: the sites, and every register but LIMIT and THROTTLE_CNT. -/
structure ThrottleMoved (c d : Chip) : Prop where
  disagree : d.pwr.disagree = c.pwr.disagree
  regs : ∀ k, eventKey k = false → k ≠ rkey 0 aPWR_LIMIT → k ≠ rkey 0 aPWR_THROTTLE_CNT → regKey d k = regKey c k
  ints : ∀ p b, bit (hdr c p).int b = true → bit (hdr d p).int b = true

theorem ThrottleMoved.refl (c : Chip) : ThrottleMoved c c := ⟨rfl, fun _ _ _ _ => rfl, fun _ _ h => h⟩

/-- Throttling by its cases. -/
theorem followThrottle_cases (c : Chip) :
    let th := reg c aPWR_THERM
    let hot := 8 * between 85 105 (fld th 7 0)
    let cool := hot - 8 * max 1 (fld th 15 8)
    let d := followThrottle c
    ThrottleMoved c d ∧
    (c.pwr.throttled = false → c.pwr.tripped = false → hot ≤ tjNow c → d.pwr.throttled = true ∧ d.pwr.throttlePace = 0 ∧
      bit (reg d aPWR_LIMIT) 3 = true ∧
      (reg d aPWR_THROTTLE_CNT).toNat = min ((reg c aPWR_THROTTLE_CNT).toNat + 1) 0xFFFFFFFF ∧ bit (hdr d .pwr).int 18 = true) ∧
    (c.pwr.throttled = false → tjNow c < hot → d = c) ∧
    (c.pwr.throttled = true → tjNow c < cool → d.pwr.throttled = false ∧ d.pwr.throttlePace = 0 ∧
      bit (reg d aPWR_LIMIT) 3 = false) ∧
    (c.pwr.throttled = true → cool ≤ tjNow c → d = c) := by
  intro th hot cool d
  have hd : d = if c.pwr.throttled then
      if tjNow c < cool then
        modPwr (setFld c aPWR_LIMIT 3 3 0) (fun p => { p with throttled := false, throttlePace := 0 })
      else c
    else if hot ≤ tjNow c ∧ c.pwr.tripped = false then
      raise (bump (modPwr (setFld c aPWR_LIMIT 3 3 1) (fun p => { p with throttled := true, throttlePace := 0 }))
        aPWR_THROTTLE_CNT 1) .pwr 18
    else c := rfl
  clear_value d
  cases ht : c.pwr.throttled
  · rw [if_neg (by rw [ht]; decide)] at hd
    by_cases hh : hot ≤ tjNow c ∧ c.pwr.tripped = false
    · rw [if_pos hh] at hd
      have hq := quiet_setFld c aPWR_LIMIT 3 3 1
      have hb := bit_setFld_one c aPWR_LIMIT (n := 3) (by decide)
      have hk : ∀ k, k ≠ rkey 0 aPWR_LIMIT → regKey (setFld c aPWR_LIMIT 3 3 1) k = regKey c k := fun k hk =>
        regKey_setKey_other _ _ _ _ _ hk
      have hn := hdr_setFld c aPWR_LIMIT 3 3 1
      generalize setFld c aPWR_LIMIT 3 3 1 = e at hd hq hb hk hn
      have hp1 : (modPwr e (fun p => { p with throttled := true, throttlePace := 0 })).pwr =
        { e.pwr with throttled := true, throttlePace := 0 } := rfl
      have hk1 := regKey_modPwr e (fun p => { p with throttled := true, throttlePace := 0 })
      have hn1 : ∀ p, hdr (modPwr e (fun p => { p with throttled := true, throttlePace := 0 })) p = hdr e p := fun _ => rfl
      generalize modPwr e (fun p => { p with throttled := true, throttlePace := 0 }) = f at hd hp1 hk1 hn1
      have hq2 := quiet_bump f aPWR_THROTTLE_CNT 1
      have hc2 := toNat_reg_bump f aPWR_THROTTLE_CNT 1
      have hk2 : ∀ k, k ≠ rkey 0 aPWR_THROTTLE_CNT → regKey (bump f aPWR_THROTTLE_CNT 1) k = regKey f k := fun k hk =>
        regKey_setKey_other _ _ _ _ _ hk
      have hn2 := hdr_bump f aPWR_THROTTLE_CNT 1
      generalize bump f aPWR_THROTTLE_CNT 1 = g at hd hq2 hc2 hk2 hn2
      have hm := minor_raise g .pwr 18
      have hkr := keepsRegs_raise g .pwr 18
      have hev : bit (hdr (raise g .pwr 18) .pwr).int 18 = true := raises_int (l := [(.pwr, 18)]) (by decide) (by simp)
      generalize raise g .pwr 18 = k at hd hm hkr hev
      subst hd
      have hp : d.pwr = { e.pwr with throttled := true, throttlePace := 0 } :=
        (congrArg (·.pwr) (hm.quiet.trans hq2)).trans hp1
      refine ⟨⟨?_, fun k h1 h2 h3 => ?_, fun p b h => hm.ints p b ?_⟩, fun _ _ _ => ⟨congrArg (·.throttled) hp,
        congrArg (·.throttlePace) hp, ?_, ?_, hev⟩, fun _ hl => absurd hh.1 (by omega), (fun h => absurd h Bool.false_ne_true), (fun h => absurd h Bool.false_ne_true)⟩
      · exact (congrArg (·.disagree) hp).trans (congrArg (·.pwr.disagree) hq)
      · rw [hkr k h1, hk2 k h3, hk1, hk k h2]
      · rw [hn2, hn1, hn]
        exact h
      · rw [show reg d aPWR_LIMIT = reg e aPWR_LIMIT from (hkr _ (by decide)).trans ((hk2 _ (by decide)).trans (hk1 _)), hb]
      · rw [show reg d aPWR_THROTTLE_CNT = reg g aPWR_THROTTLE_CNT from hkr _ (by decide), hc2,
          show reg f aPWR_THROTTLE_CNT = reg c aPWR_THROTTLE_CNT from (hk1 _).trans (hk _ (by decide))]
    · rw [if_neg hh] at hd
      subst hd
      exact ⟨.refl _, fun _ h1 h2 => absurd ⟨h2, h1⟩ hh, fun _ _ => rfl, (fun h => absurd h Bool.false_ne_true), (fun h => absurd h Bool.false_ne_true)⟩
  · rw [if_pos ht] at hd
    by_cases hh : tjNow c < cool
    · rw [if_pos hh] at hd
      have hq := quiet_setFld c aPWR_LIMIT 3 3 0
      have hb := bit_setFld_zero c aPWR_LIMIT (n := 3) (by decide)
      have hk : ∀ k, k ≠ rkey 0 aPWR_LIMIT → regKey (setFld c aPWR_LIMIT 3 3 0) k = regKey c k := fun k hk =>
        regKey_setKey_other _ _ _ _ _ hk
      have hn := hdr_setFld c aPWR_LIMIT 3 3 0
      generalize setFld c aPWR_LIMIT 3 3 0 = e at hd hq hb hk hn
      subst hd
      refine ⟨⟨congrArg (·.pwr.disagree) hq, fun k h1 h2 h3 => hk k h2, fun p b h => ?_⟩, (fun h => absurd h.symm Bool.false_ne_true), (fun h => absurd h.symm Bool.false_ne_true),
        fun _ _ => ⟨rfl, rfl, hb⟩, fun _ hl => absurd hh (by omega)⟩
      have hx : hdr e p = hdr c p := hn p
      rw [← hx] at h
      exact h
    · rw [if_neg hh] at hd
      subst hd
      exact ⟨.refl _, (fun h => absurd h.symm Bool.false_ne_true), (fun h => absurd h.symm Bool.false_ne_true), fun _ h => absurd h hh, fun _ _ => rfl⟩

/-- The chip with the sites noted and TJ shown. -/
def tjShown (c : Chip) (l : List SiteReading) (tj site : Nat) : Chip :=
  setFld (setFld (l.foldl noteSite c) aPWR_TJ 11 0 tj) aPWR_TJ 20 16 site

theorem thermalRead_eq {c : Chip} {l : List SiteReading} {tj site : Nat} (h : hottest l = some (tj, site)) :
    thermalRead c l = followThrottle (tjShown c l tj site) := by
  unfold thermalRead
  dsimp only
  rw [h]
  rfl

/-- What it shows. -/
structure TjShown (c e d : Chip) (tj site : Nat) : Prop where
  tj : tjNow d = tj
  site : fld (reg d aPWR_TJ) 20 16 = site
  quiet : Safety.quiet d = Safety.quiet e
  regs : ∀ k, k ≠ rkey 0 aPWR_TJ → regKey d k = regKey e k
  hdrs : ∀ p, hdr d p = hdr e p

theorem tjShown_shown (c : Chip) {l : List SiteReading} {tj site : Nat} (h : hottest l = some (tj, site)) :
    TjShown c (l.foldl noteSite c) (tjShown c l tj site) tj site := by
  obtain ⟨ht, hs⟩ := hottest_lt h
  unfold tjShown
  generalize l.foldl noteSite c = e
  refine ⟨?_, ?_, by rw [quiet_setFld, quiet_setFld], fun k hk => ?_, fun p => ?_⟩
  · unfold tjNow
    rw [fld_setFld_other _ _ _ (by decide) (by decide) (by decide), fld_setFld_self _ _ _ (by decide) (by decide)]
    exact Nat.mod_eq_of_lt ht
  · rw [fld_setFld_self _ _ _ (by decide) (by decide)]
    exact Nat.mod_eq_of_lt hs
  · exact (regKey_setKey_other _ _ _ _ _ hk).trans (regKey_setKey_other _ _ _ _ _ hk)
  · rw [hdr_setFld, hdr_setFld]

/-- THERMAL_READ. -/
theorem thermalReads {s : State} (hm : minuetOn s.toChip = true) (l : List SiteReading) (tj site : Nat)
    (hl : hottest l = some (tj, site)) :
    let th := reg s.toChip aPWR_THERM
    let hot := 8 * between 85 105 (fld th 7 0)
    let read := fun (t : State) => tjNow t.toChip = tj ∧ fld (reg t.toChip aPWR_TJ) 20 16 = site
    (s.pwr.throttled = false → s.pwr.tripped = false → hot ≤ tj → Completes (.thermalRead l) s (fun t => read t ∧
      t.pwr.throttled = true ∧ t.pwr.throttlePace = 0 ∧ bit (reg t.toChip aPWR_LIMIT) 3 = true ∧
      Counted s t aPWR_THROTTLE_CNT 1 ∧ Event t .pwr 18)) ∧
    (s.pwr.throttled = false → tj < hot → Completes (.thermalRead l) s (fun t => read t ∧ t.pwr.throttled = false)) ∧
    (s.pwr.throttled = true → tj < hot - 8 * max 1 (fld th 15 8) → Completes (.thermalRead l) s (fun t => read t ∧
      t.pwr.throttled = false ∧ t.pwr.throttlePace = 0 ∧ bit (reg t.toChip aPWR_LIMIT) 3 = false)) ∧
    (s.pwr.throttled = true → hot - 8 * max 1 (fld th 15 8) ≤ tj → Completes (.thermalRead l) s (fun t => read t ∧
      t.pwr.throttled = true ∧ t.pwr.throttlePace = s.pwr.throttlePace)) := by
  intro th hot read
  have he : exec (.thermalRead l) s = act s (fun c => whenMinuet c (fun c => thermalRead c l)) := rfl
  rw [act_whenMinuet hm, thermalRead_eq hl] at he
  have hs := noteSites_moved l s.toChip
  have ht := tjShown_shown s.toChip hl
  generalize tjShown s.toChip l tj site = c at he ht
  generalize l.foldl noteSite s.toChip = e at hs ht
  have hpwr : c.pwr = { s.pwr with disagree := e.pwr.disagree } := congrArg (·.pwr) (ht.quiet.trans hs.quiet)
  have hreg : ∀ a, noisyKey (rkey 0 a) = false → rkey 0 a ≠ rkey 0 aPWR_SENSOR_FAULT → rkey 0 a ≠ rkey 0 aPWR_TJ →
      reg c a = reg s.toChip a := fun a h1 h2 h3 => (ht.regs _ h3).trans (hs.regs _ h1 h2)
  obtain ⟨hmv, h1, h2, h3, h4⟩ := followThrottle_cases c
  rw [hreg aPWR_THERM (by decide) (by decide) (by decide), ht.tj, hpwr] at h1 h2 h3 h4
  rw [hreg aPWR_THROTTLE_CNT (by decide) (by decide) (by decide)] at h1
  generalize followThrottle c = d at he hmv h1 h2 h3 h4
  have htj : reg d aPWR_TJ = reg c aPWR_TJ := hmv.regs _ (by decide) (by decide) (by decide)
  have hread : read (after s d) := ⟨(congrArg (fld · 11 0) htj).trans ht.tj, (congrArg (fld · 20 16) htj).trans ht.site⟩
  refine ⟨fun g1 g2 g3 => ?_, fun g1 g2 => ?_, fun g1 g2 => ?_, fun g1 g2 => ?_⟩
  · obtain ⟨k1, k2, k3, k4, k5⟩ := h1 g1 g2 g3
    exact ⟨_, he, after_pending _ _, hread, k1, k2, k3, k4, k5⟩
  · exact ⟨_, he, after_pending _ _, hread, (congrArg (·.pwr.throttled) (h2 g1 g2)).trans ((congrArg (·.throttled) hpwr).trans g1)⟩
  · obtain ⟨k1, k2, k3⟩ := h3 g1 g2
    exact ⟨_, he, after_pending _ _, hread, k1, k2, k3⟩
  · have k := h4 g1 g2
    exact ⟨_, he, after_pending _ _, hread, (congrArg (·.pwr.throttled) k).trans ((congrArg (·.throttled) hpwr).trans g1),
      (congrArg (·.pwr.throttlePace) k).trans (congrArg (·.throttlePace) hpwr)⟩

/-- THERMAL_READ of one site. -/
theorem siteReads {s : State} (hm : minuetOn s.toChip = true) (r : SiteReading) :
    let n := tget 0 s.pwr.disagree r.site.toNat
    (siteDiffers r = false → Completes (.thermalRead [r]) s (fun t => tget 0 t.pwr.disagree r.site.toNat = 0 ∧
      bit (reg t.toChip aPWR_SENSOR_FAULT) r.site.toNat = false)) ∧
    (siteDiffers r = true → n = 3 → Completes (.thermalRead [r]) s (fun t => tget 0 t.pwr.disagree r.site.toNat = 4 ∧
      bit (reg t.toChip aPWR_SENSOR_FAULT) r.site.toNat = true ∧ Event t .pwr 20 ∧ Logged s t 0x16 1)) := by
  intro n
  have he : exec (.thermalRead [r]) s = act s (fun c => whenMinuet c (fun c => thermalRead c [r])) := rfl
  have hl : hottest [r] = some (siteReading r, r.site.toNat) := rfl
  rw [act_whenMinuet hm, thermalRead_eq hl] at he
  have ht := tjShown_shown s.toChip hl
  rw [List.foldl_cons, List.foldl_nil] at ht
  generalize tjShown s.toChip [r] (siteReading r) r.site.toNat = c at he ht
  obtain ⟨hmv, -⟩ := followThrottle_cases c
  generalize followThrottle c = d at he hmv
  obtain ⟨h1, h2, -⟩ := noteSite_cases s.toChip r
  have hdis : d.pwr.disagree = (noteSite s.toChip r).pwr.disagree := hmv.disagree.trans (congrArg (·.pwr.disagree) ht.quiet)
  have hsf : reg d aPWR_SENSOR_FAULT = reg (noteSite s.toChip r) aPWR_SENSOR_FAULT :=
    (hmv.regs _ (by decide) (by decide) (by decide)).trans (ht.regs _ (by decide))
  refine ⟨fun hs => ?_, fun hs hn => ?_⟩
  · rw [h1 hs] at hdis hsf
    have hz := bit_setFld_zero (modPwr s.toChip (fun p => { p with disagree := tdel p.disagree r.site.toNat }))
      aPWR_SENSOR_FAULT (n := r.site.toNat) r.site.isLt
    have hq := quiet_setFld (modPwr s.toChip (fun p => { p with disagree := tdel p.disagree r.site.toNat }))
      aPWR_SENSOR_FAULT r.site.toNat r.site.toNat 0
    generalize setFld (modPwr s.toChip (fun p => { p with disagree := tdel p.disagree r.site.toNat }))
      aPWR_SENSOR_FAULT r.site.toNat r.site.toNat 0 = e at hdis hsf hz hq
    have hp : d.pwr.disagree = tdel s.pwr.disagree r.site.toNat := hdis.trans (congrArg (·.pwr.disagree) hq)
    refine ⟨_, he, after_pending _ _, ?_, (congrArg (bit · r.site.toNat) hsf).trans hz⟩
    refine (congrArg (fun t => tget 0 t r.site.toNat) hp).trans ?_
    rw [tget, tfind_tdel_self]
    rfl
  · have hf := siteFault_faulted s.toChip r.site.isLt
    rw [← h2 hs hn] at hf
    refine ⟨_, he, after_pending _ _, ?_, (congrArg (bit · r.site.toNat) hsf).trans hf.shown, ?_, ?_⟩
    · refine (congrArg (fun t => tget 0 t r.site.toNat) (hdis.trans hf.disagree)).trans ?_
      rw [tget, tfind_tins_self]
      rfl
    · refine hmv.ints _ _ ?_
      rw [ht.hdrs]
      exact hf.event
    · refine Eq.trans (congrArg BitVec.toNat ?_) hf.logged
      exact (hmv.regs (rkey 0x16 aFLT_CLASS_CNT) (by decide) (by decide) (by decide)).trans (ht.regs _ (by decide))

/-! ### Decisions without LEARN (R435) -/

/-- FIXED_POINT. -/
def fixedPoint (c : Chip) : Nat := fld (reg c aPWR_CTRL) 15 12

theorem fixedPoint_lt (c : Chip) : fixedPoint c < 16 := by
  rw [fixedPoint, fld]
  exact Nat.mod_lt _ (by decide)

theorem noisyKey_rkey {b a : Nat} (h : a < bankStride) : noisyKey (rkey b a) = noisyKey (rkey 0 a) := by
  unfold noisyKey
  rw [rkey_mod h, rkey_mod h]

theorem rowsOf_congr {c d : Chip} {p : Nat} (hs : d.sec = c.sec) (hr : regB d p aSEC_PART_RES = regB c p aSEC_PART_RES) :
    rowsOf d p = rowsOf c p := by
  have hh : partHolds d p = partHolds c p := by rw [partHolds, partHolds, secPart, secPart, hs]
  rw [rowsOf, rowsOf, hh, hr]

/-- What a decision may move: the points of rows, the pacing, and LIMIT. -/
structure DecideMoved (c d : Chip) : Prop where
  quiet : ∃ x, Safety.quiet d = Safety.quiet (modPwr c (fun p => { p with paceX := x }))
  regs : ∀ k, noisyKey k = false → k ≠ rkey 0 aPWR_ROW_POINT0 → k ≠ rkey 0 aPWR_ROW_POINT1 → k ≠ rkey 0 aPWR_LIMIT →
    regKey d k = regKey c k

theorem DecideMoved.refl (c : Chip) : DecideMoved c c := ⟨⟨c.pwr.paceX, rfl⟩, fun _ _ _ _ _ => rfl⟩

theorem DecideMoved.trans {a b c : Chip} (h : DecideMoved a b) (g : DecideMoved b c) : DecideMoved a c := by
  obtain ⟨x, hx⟩ := h.quiet
  obtain ⟨y, hy⟩ := g.quiet
  refine ⟨⟨y, hy.trans ?_⟩, fun k h0 h1 h2 h3 => (g.regs k h0 h1 h2 h3).trans (h.regs k h0 h1 h2 h3)⟩
  have := congrArg (fun z : Chip => modPwr z (fun p => { p with paceX := y })) hx
  exact this

theorem DecideMoved.of_quiet {c d : Chip} (hq : Safety.quiet d = Safety.quiet c) (hr : ∀ k, noisyKey k = false →
    k ≠ rkey 0 aPWR_ROW_POINT0 → k ≠ rkey 0 aPWR_ROW_POINT1 → k ≠ rkey 0 aPWR_LIMIT → regKey d k = regKey c k) :
    DecideMoved c d := ⟨⟨c.pwr.paceX, hq⟩, hr⟩

theorem DecideMoved.of_points {c d : Chip} (h : PointsMoved c d) : DecideMoved c d :=
  .of_quiet h.quiet fun k _ h0 h1 _ => h.regs k h0 h1

theorem DecideMoved.exploring {c d : Chip} (h : DecideMoved c d) : d.pwr.exploring = c.pwr.exploring := by
  obtain ⟨x, hx⟩ := h.quiet
  exact congrArg (·.pwr.exploring) hx

theorem DecideMoved.ctrl {c d : Chip} (h : DecideMoved c d) : reg d aPWR_CTRL = reg c aPWR_CTRL :=
  h.regs _ (by decide) (by decide) (by decide) (by decide)

theorem DecideMoved.rows {c d : Chip} (h : DecideMoved c d) (p : Nat) : rowsOf d p = rowsOf c p := by
  obtain ⟨x, hx⟩ := h.quiet
  refine rowsOf_congr (congrArg (·.sec) hx) (h.regs _ ?_ ?_ ?_ ?_)
  · rw [noisyKey_rkey (by decide)]
    decide
  · exact rkey_apart (by decide) (by decide) (by decide)
  · exact rkey_apart (by decide) (by decide) (by decide)
  · exact rkey_apart (by decide) (by decide) (by decide)

theorem DecideMoved.engineRows {c d : Chip} (h : DecideMoved c d) (p : Nat) (k : EngineKind) :
    engineRows d p k = Machine.engineRows c p k := by
  obtain ⟨x, hx⟩ := h.quiet
  have hs : schedPart d p = schedPart c p := by
    have hsc : d.sched = c.sched := congrArg (·.sched) hx
    rw [schedPart, schedPart, hsc]
  unfold Machine.engineRows
  rw [h.rows, hs]

/-- Registers of row points that no change but of others touches. -/
theorem rowPoint_of_regs {c d : Chip} (h : ∀ k, noisyKey k = false → k ≠ rkey 0 aPWR_LIMIT → regKey d k = regKey c k) (y : Nat) :
    rowPoint d y = rowPoint c y := by
  rw [rowPoint_eq, rowPoint_eq, show reg d (pointReg y) = reg c (pointReg y) from ?_]
  unfold pointReg
  split
  · exact h _ (by decide) (by decide)
  · exact h _ (by decide) (by decide)

theorem setChoice_plain {c : Chip} (h : c.pwr.exploring = []) (p v : Nat) (k : EngineKind) :
    setChoice c p k v = setRowPoints c (engineRows c p k) v := by
  unfold setChoice
  dsimp only
  rw [h]
  rfl

/-- One pair is the choice. -/
theorem choosePair_single (tol : Nat) (a : PwrPair) : choosePair tol [a] = some a := by
  have hb : ([a].map (·.rate)).foldl max 0 = a.rate := Nat.zero_max _
  unfold choosePair
  dsimp only
  rw [hb, List.filter_cons_of_pos]
  · rfl
  · exact decide_eq_true (Nat.mul_le_mul_left _ (Nat.sub_le _ _))

/-- Without LEARN the pair is FIXED_POINT's. -/
theorem pairsOf_fixed {c : Chip} (h : learnOn c = false) (target : Nat) (dec chk : List Nat) :
    ∃ a, pairsOf c target dec chk = [a] ∧ a.chunk = fixedPoint c ∧ a.decode = fixedPoint c := by
  have hf := fixedPoint_lt c
  unfold pairsOf
  dsimp only
  rw [h]
  simp only [Bool.false_eq_true, if_false, List.map_cons, List.map_nil]
  exact ⟨_, rfl, show (fixedPoint c * 16 + fixedPoint c) / 16 = fixedPoint c by omega,
    show (fixedPoint c * 16 + fixedPoint c) % 16 = fixedPoint c by omega⟩

/-- The points after both engines of a partition are given FIXED_POINT. -/
def rowsFixed (c : Chip) (p v : Nat) : Chip :=
  let d := setRowPoints c (engineRows c p .decode) v
  setRowPoints d (engineRows d p .chunk) v

theorem rowsFixed_moved (c : Chip) (p v : Nat) : DecideMoved c (rowsFixed c p v) :=
  (DecideMoved.of_points (setRowPoints_moved ..)).trans (.of_points (setRowPoints_moved ..))

theorem rowPoint_rowsFixed (c : Chip) {p v y : Nat} (hv : v < 16) (hy : y < 16) :
    rowPoint (rowsFixed c p v) y = if y ∈ rowsOf c p then v else rowPoint c y := by
  have h16 : ∀ (d : Chip) (k : EngineKind), ∀ z ∈ engineRows d p k, z < 16 := fun d k z hz => rowsOf_lt (engineRows_sub hz)
  have hm := (DecideMoved.of_points (setRowPoints_moved c (engineRows c p .decode) v)).engineRows p .chunk
  unfold rowsFixed
  dsimp only
  rw [rowPoint_setRowPoints _ (h16 _ _) hy hv, rowPoint_setRowPoints _ (h16 _ _) hy hv, hm]
  have hd : engineRows c p .decode = (rowsOf c p).take ((rowsOf c p).length - (schedPart c p).chunkRows) := rfl
  have hc : engineRows c p .chunk = (rowsOf c p).drop ((rowsOf c p).length - (schedPart c p).chunkRows) := rfl
  rw [hd, hc]
  have hmem : y ∈ rowsOf c p ↔ y ∈ (rowsOf c p).take ((rowsOf c p).length - (schedPart c p).chunkRows) ∨
      y ∈ (rowsOf c p).drop ((rowsOf c p).length - (schedPart c p).chunkRows) := by
    rw [← List.mem_append, List.take_append_drop]
  by_cases h1 : y ∈ (rowsOf c p).drop ((rowsOf c p).length - (schedPart c p).chunkRows)
  · rw [if_pos h1, if_pos (hmem.2 (.inr h1))]
  · rw [if_neg h1]
    by_cases h2 : y ∈ (rowsOf c p).take ((rowsOf c p).length - (schedPart c p).chunkRows)
    · rw [if_pos h2, if_pos (hmem.2 (.inl h2))]
    · rw [if_neg h2, if_neg (fun h => (hmem.1 h).elim h2 h1)]

/-- A change that a decision may make beside the points of rows. -/
structure Aside (c d : Chip) : Prop where
  moved : DecideMoved c d
  points : ∀ y, rowPoint d y = rowPoint c y

theorem Aside.refl (c : Chip) : Aside c c := ⟨.refl c, fun _ => rfl⟩

theorem Aside.trans {a b c : Chip} (h : Aside a b) (g : Aside b c) : Aside a c :=
  ⟨h.moved.trans g.moved, fun y => (g.points y).trans (h.points y)⟩

theorem Aside.ite {a b c : Chip} {p : Prop} [Decidable p] (h : Aside a b) (g : Aside a c) : Aside a (if p then b else c) := by
  split
  · exact h
  · exact g

theorem Aside.of_regs {c d : Chip} (hq : quiet d = quiet c)
    (h : ∀ k, noisyKey k = false → k ≠ rkey 0 aPWR_LIMIT → regKey d k = regKey c k) : Aside c d :=
  ⟨.of_quiet hq fun k h0 _ _ h3 => h k h0 h3, rowPoint_of_regs h⟩

theorem aside_limit (c : Chip) (hi lo v : Nat) : Aside c (setFld c aPWR_LIMIT hi lo v) :=
  .of_regs (quiet_setFld ..) fun _ _ hk => regKey_setKey_other _ _ _ _ _ hk

theorem aside_raise (c : Chip) (p : Page) (b : Nat) : Aside c (raise c p b) :=
  .of_regs (quiet_raise ..) fun k hk _ => (minor_raise c p b).regs k hk

theorem aside_pace (c : Chip) (f : Tbl Nat → Tbl Nat) : Aside c (modPwr c (fun x => { x with paceX := f x.paceX })) :=
  ⟨⟨⟨f c.pwr.paceX, rfl⟩, fun _ _ _ _ _ => regKey_modPwr ..⟩, rowPoint_congr fun _ => regKey_modPwr ..⟩

/-- One decision without LEARN: every row of the partition at FIXED_POINT. -/
structure Decided (c d : Chip) (p : Nat) : Prop where
  moved : DecideMoved c d
  points : ∀ y, y < 16 → rowPoint d y = if y ∈ rowsOf c p then fixedPoint c else rowPoint c y

theorem decideOne_decided {c : Chip} (p target : Nat) (cy : List (Nat × Nat)) (hl : learnOn c = false)
    (hx : c.pwr.exploring = []) : Decided c (decideOne c p target cy).2 p := by
  obtain ⟨a, ha, hck, hdc⟩ := pairsOf_fixed hl target (((cy.drop (8 * p)).take 8).map (·.1)) (((cy.drop (8 * p)).take 8).map (·.2))
  unfold decideOne
  dsimp only
  rw [ha, choosePair_single]
  dsimp only
  rw [hck, hdc, setChoice_plain (c := { c with free := c.free + 256 }) hx]
  have hch := (DecideMoved.of_points (setRowPoints_moved { c with free := c.free + 256 }
    (engineRows { c with free := c.free + 256 } p .decode) (fixedPoint c))).exploring
  rw [setChoice_plain (hch.trans hx)]
  have hfree : DecideMoved c { c with free := c.free + 256 } := .of_quiet rfl fun _ _ _ _ _ => rfl
  have hrf : ∀ q, rowsOf { c with free := c.free + 256 } q = rowsOf c q := fun _ => rfl
  have hpf : ∀ y, rowPoint { c with free := c.free + 256 } y = rowPoint c y := rowPoint_congr fun _ => rfl
  have hm := hfree.trans (rowsFixed_moved { c with free := c.free + 256 } p (fixedPoint c))
  have hp : ∀ y, y < 16 → rowPoint (rowsFixed { c with free := c.free + 256 } p (fixedPoint c)) y =
      if y ∈ rowsOf c p then fixedPoint c else rowPoint c y := fun y hy => by
    rw [rowPoint_rowsFixed _ (fixedPoint_lt c) hy, hrf, hpf]
  change Decided c (if _ then raise (setFld (if _ then setFld (modPwr (rowsFixed { c with free := c.free + 256 } p
    (fixedPoint c)) _) _ 0 0 1 else modPwr (rowsFixed { c with free := c.free + 256 } p (fixedPoint c)) _) _ 4 4 1) .pwr 16
    else (if _ then setFld (modPwr (rowsFixed { c with free := c.free + 256 } p (fixedPoint c)) _) _ 0 0 1
      else modPwr (rowsFixed { c with free := c.free + 256 } p (fixedPoint c)) _)) p
  generalize rowsFixed { c with free := c.free + 256 } p (fixedPoint c) = e at hm hp
  have ha : ∀ {d : Chip}, Aside e d → Decided c d p := fun h =>
    ⟨hm.trans h.moved, fun y hy => (h.points y).trans (hp y hy)⟩
  have hpace := aside_pace e (fun t => tset 65536 t p (if paceEn c then a.x else 65536))
  refine ha (.ite ((Aside.trans ?_ (aside_limit ..)).trans (aside_raise ..)) ?_)
  all_goals exact hpace.trans (.ite (aside_limit ..) (.refl _))

/-- The decisions of several partitions without LEARN. -/
structure AllDecided (c d : Chip) (l : List Nat) : Prop where
  moved : DecideMoved c d
  held : ∀ p ∈ l, ∀ y ∈ rowsOf c p, rowPoint d y = fixedPoint c
  others : ∀ y, y < 16 → (∀ p ∈ l, y ∉ rowsOf c p) → rowPoint d y = rowPoint c y

theorem AllDecided.cons {c d e : Chip} {p : Nat} {l : List Nat} (h : Decided c d p) (g : AllDecided d e l) : AllDecided c e (p :: l) := by
  have hf : fixedPoint d = fixedPoint c := by rw [fixedPoint, fixedPoint, h.moved.ctrl]
  refine ⟨h.moved.trans g.moved, fun q hq y hy => ?_, fun y hy hn => ?_⟩
  · by_cases hm : ∃ r ∈ l, y ∈ rowsOf d r
    · obtain ⟨r, hr, hyr⟩ := hm
      rw [g.held r hr y hyr, hf]
    · have hqp : q = p := (List.mem_cons.1 hq).resolve_right fun hl => hm ⟨q, hl, by rw [h.moved.rows]; exact hy⟩
      rw [g.others y (rowsOf_lt hy) fun r hr hyr => hm ⟨r, hr, hyr⟩, h.points y (rowsOf_lt hy), if_pos (hqp ▸ hy)]
  · rw [g.others y hy fun r hr hyr => hn r (List.mem_cons_of_mem _ hr) (by rw [← h.moved.rows]; exact hyr), h.points y hy,
      if_neg (hn p List.mem_cons_self)]

theorem decisions_decided (target : Chip → Nat → Nat → Nat) (cy : List (Nat × Nat)) (l : List Nat) (n : Nat) {c : Chip}
    (hl : learnOn c = false) (hx : c.pwr.exploring = []) :
    AllDecided c (l.foldl (fun (a : Nat × Chip) p => decideOne a.2 p (target a.2 p a.1) cy) (n, c)).2 l := by
  induction l generalizing n c with
  | nil => exact ⟨.refl c, fun _ hp => absurd hp List.not_mem_nil, fun _ _ _ => rfl⟩
  | cons p r ih =>
    have h := decideOne_decided p (target c p n) cy hl hx
    have hl' : learnOn (decideOne c p (target c p n) cy).2 = false := by
      rw [learnOn, h.moved.ctrl]
      exact hl
    exact AllDecided.cons h (ih _ hl' (h.moved.exploring.trans hx))

/-- The average power shown, and PACE as a decision finds it. -/
def averageShown (c : Chip) (avg : Nat) : Chip :=
  let d := setFld c aPWR_PWR_AVG 15 0 avg
  setFld (takeFree d).2 aPWR_PACE 23 16 ((takeFree d).1 % 101)

/-- What it leaves. -/
structure AverageShown (c d : Chip) (avg : Nat) : Prop where
  average : fld (reg d aPWR_PWR_AVG) 15 0 = avg
  quiet : Safety.quiet d = Safety.quiet c
  regs : ∀ k, k ≠ rkey 0 aPWR_PWR_AVG → k ≠ rkey 0 aPWR_PACE → regKey d k = regKey c k

theorem averageShown_shown (c : Chip) {avg : Nat} (h : avg < 65536) : AverageShown c (averageShown c avg) avg := by
  unfold averageShown
  dsimp only
  have h0 : fld (reg (setFld c aPWR_PWR_AVG 15 0 avg) aPWR_PWR_AVG) 15 0 = avg :=
    (fld_setFld_self _ _ _ (by decide) (by decide)).trans (Nat.mod_eq_of_lt h)
  have hq0 := quiet_setFld c aPWR_PWR_AVG 15 0 avg
  have hk0 : ∀ k, k ≠ rkey 0 aPWR_PWR_AVG → regKey (setFld c aPWR_PWR_AVG 15 0 avg) k = regKey c k := fun k hk =>
    regKey_setKey_other _ _ _ _ _ hk
  generalize setFld c aPWR_PWR_AVG 15 0 avg = d at h0 hq0 hk0
  have hq1 : quiet (takeFree d).2 = quiet d := rfl
  have hk1 := regKey_takeFree d
  generalize (takeFree d).2 = e at hq1 hk1
  generalize (takeFree d).1 % 101 = v
  refine ⟨?_, (quiet_setFld ..).trans (hq1.trans hq0), fun k ha hb => ?_⟩
  · rw [reg_setFld_other _ _ _ _ (by decide), reg, hk1]
    exact h0
  · exact (regKey_setKey_other _ _ _ _ _ hb).trans ((hk1 k).trans (hk0 k ha))

/-- The partitions that hold rows. -/
def holders (c : Chip) : List Nat := parts8.filter (fun p => !(rowsOf c p).isEmpty)

/-- The budget of a partition, with what earlier ones leave. -/
def decideTarget (c : Chip) (ratio : Nat) (d : Chip) (p left : Nat) : Nat :=
  capWatts c * 9950 / 1000 * 65536 / max 1 ratio * (rowsOf d p).length /
    max 1 (((holders c).map (fun p => (rowsOf c p).length)).sum) + left

theorem decidePower_eq (c : Chip) (ratio : Nat) (cy : List (Nat × Nat)) (avg : Nat) : decidePower c ratio cy avg =
    if (averageShown c avg).pwr.throttled then averageShown c avg
    else ((holders (averageShown c avg)).foldl (fun (a : Nat × Chip) p =>
      decideOne a.2 p (decideTarget (averageShown c avg) ratio a.2 p a.1) cy)
      (0, setFld (setFld (averageShown c avg) aPWR_LIMIT 0 0 0) aPWR_LIMIT 4 4 0)).2 := rfl

/-- PWR_DECIDE while throttled, and without LEARN and exploration. -/
theorem decides {s : State} (hm : minuetOn s.toChip = true) (ratio : Nat) (cy : List (Nat × Nat)) (avg : BitVec 16) :
    (s.pwr.throttled = true → Completes (.pwrDecide ratio cy avg) s (fun t =>
      fld (reg t.toChip aPWR_PWR_AVG) 15 0 = avg.toNat ∧ t.pwr = s.pwr ∧
      ∀ y, y < 16 → rowPoint t.toChip y = rowPoint s.toChip y)) ∧
    (s.pwr.throttled = false → learnOn s.toChip = false → s.pwr.exploring = [] → Completes (.pwrDecide ratio cy avg) s (fun t =>
      fld (reg t.toChip aPWR_PWR_AVG) 15 0 = avg.toNat ∧
      (∀ p y, p < 8 → y ∈ rowsOf s.toChip p → rowPoint t.toChip y = fld (reg s.toChip aPWR_CTRL) 15 12) ∧
      (∀ y, y < 16 → (∀ p, p < 8 → y ∉ rowsOf s.toChip p) → rowPoint t.toChip y = rowPoint s.toChip y))) := by
  have he : exec (.pwrDecide ratio cy avg) s = act s (fun c => whenMinuet c (fun c => decidePower c ratio cy avg.toNat)) := rfl
  rw [act_whenMinuet hm, decidePower_eq] at he
  obtain ⟨hav, hq, hk⟩ := averageShown_shown s.toChip avg.isLt
  generalize averageShown s.toChip avg.toNat = c at he hav hq hk
  have hpw : c.pwr = s.pwr := congrArg (·.pwr) hq
  have hrow : ∀ p, rowsOf c p = rowsOf s.toChip p := fun p => rowsOf_congr (congrArg (·.sec) hq)
    (hk _ (rkey_apart (by decide) (by decide) (by decide)) (rkey_apart (by decide) (by decide) (by decide)))
  have hpt : ∀ y, rowPoint c y = rowPoint s.toChip y := fun y => by
    rw [rowPoint_eq, rowPoint_eq, show reg c (pointReg y) = reg s.toChip (pointReg y) from ?_]
    unfold pointReg
    split
    · exact hk _ (by decide) (by decide)
    · exact hk _ (by decide) (by decide)
  have hctrl : reg c aPWR_CTRL = reg s.toChip aPWR_CTRL := hk _ (by decide) (by decide)
  rw [hpw] at he
  refine ⟨fun ht => ?_, fun ht hl hx => ?_⟩
  · rw [if_pos ht] at he
    exact ⟨_, he, after_pending _ _, hav, hpw, fun y _ => (rowPoint_after ..).trans (hpt y)⟩
  · rw [if_neg (by rw [ht]; decide)] at he
    have ha : Aside c (setFld (setFld c aPWR_LIMIT 0 0 0) aPWR_LIMIT 4 4 0) := (aside_limit ..).trans (aside_limit ..)
    have hr : reg (setFld (setFld c aPWR_LIMIT 0 0 0) aPWR_LIMIT 4 4 0) aPWR_PWR_AVG = reg c aPWR_PWR_AVG := by
      rw [reg_setFld_other _ _ _ _ (by decide), reg_setFld_other _ _ _ _ (by decide)]
    generalize setFld (setFld c aPWR_LIMIT 0 0 0) aPWR_LIMIT 4 4 0 = d at he ha hr
    have hd := decisions_decided (decideTarget c ratio) cy (holders c) 0 (c := d)
      (by rw [learnOn, ha.moved.ctrl, hctrl]; exact hl) (by rw [ha.moved.exploring, hpw]; exact hx)
    generalize ((holders c).foldl (fun (a : Nat × Chip) p =>
      decideOne a.2 p (decideTarget c ratio a.2 p a.1) cy) (0, d)).2 = e at he hd
    have hfp : fixedPoint d = fld (reg s.toChip aPWR_CTRL) 15 12 := by rw [fixedPoint, ha.moved.ctrl, hctrl]
    have hrows : ∀ p, rowsOf d p = rowsOf s.toChip p := fun p => (ha.moved.rows p).trans (hrow p)
    refine ⟨_, he, after_pending _ _, ?_, fun p y hp hy => ?_, fun y hy hn => ?_⟩
    · refine (congrArg (fld · 15 0) (Eq.trans ?_ hr)).trans hav
      exact hd.moved.regs _ (by decide) (by decide) (by decide) (by decide)
    · refine (rowPoint_after ..).trans ((hd.held p (List.mem_filter.2 ⟨?_, ?_⟩) y ?_).trans hfp)
      · have : ∀ p, p < 8 → p ∈ parts8 := by decide
        exact this p hp
      · rw [hrow, Bool.not_eq_true', List.isEmpty_eq_false_iff]
        exact List.ne_nil_of_mem hy
      · rw [hrows]
        exact hy
    · refine (rowPoint_after ..).trans ((hd.others y hy fun p hp => ?_).trans ((ha.points y).trans (hpt y)))
      have : ∀ p ∈ parts8, p < 8 := by decide
      rw [hrows]
      exact hn p (this p (List.mem_filter.1 hp).1)

/-- Settles O49: what a sample, a lesson, a decision, an estimate, a reading and a trip each leave. -/
theorem powerAndHeat : Obligations.PowerAndHeat := by
  intro s hm w
  obtain ⟨hl0, hl1⟩ := learns hm
  obtain ⟨ht0, ht1⟩ := throttleSteps hm
  exact ⟨powerSamples hm, hl0, hl1, fun p k up y rest hr hl hx ht => explores hm p k up y rest hr hl hx ht,
    fun ratio cy avg => decides hm ratio cy avg,
    fun row est i0 n ha => ⟨(markEstimates row est i0 n ha).1, (markEstimates row est i0 n ha).2, (markHoldExpires row ha).1,
      (markHoldExpires row ha).2⟩,
    fun l tj site hl => thermalReads hm l tj site hl, siteReads hm, ht0, ht1, trips hm, fun r d h ha hd => tripClears h ha hd⟩

end Sys2Proof.Machine
end

section
/-! The states of a connection (O39). -/

namespace Sys2Proof.Machine

open Sys2Proof.Safety

/-! ### What leaves a connection alone -/

theorem conn_of_xpt {c d : Chip} (h : d.xpt = c.xpt) (n : Nat) : conn d n = conn c n := by rw [conn, conn, h]

theorem conn_setConn_self (c : Chip) (n : Nat) (k : ConnSt) : conn (setConn c n k) n = k := tget_tset_self ..

theorem conn_setConn_other (c : Chip) {n m : Nat} (k : ConnSt) (h : m ≠ n) : conn (setConn c n k) m = conn c m :=
  tget_tset_other _ _ _ _ _ h

/-- A connection that is not OPEN stands. -/
def KeepsShut (n : Nat) (c d : Chip) : Prop := (conn c n).state ≠ .open → conn d n = conn c n

theorem KeepsShut.refl (n : Nat) (c : Chip) : KeepsShut n c c := fun _ => rfl

theorem KeepsShut.trans {n : Nat} {a b c : Chip} (h : KeepsShut n a b) (g : KeepsShut n b c) : KeepsShut n a c := fun hn =>
  (g (by rw [h hn]; exact hn)).trans (h hn)

theorem KeepsShut.of_xpt {n : Nat} {c d : Chip} (h : d.xpt = c.xpt) : KeepsShut n c d := fun _ => conn_of_xpt h n

theorem xpt_bumpB (c : Chip) (b a v : Nat) : (bumpB c b a v).xpt = c.xpt := by
  unfold bumpB
  split
  · rfl
  · exact setKey_xpt ..

theorem egr_bumpB (c : Chip) (b a v : Nat) : (bumpB c b a v).egr = c.egr := by
  unfold bumpB
  split
  · rfl
  · exact setKey_egr ..

theorem xpt_bumpPair (c : Chip) (a v : Nat) : (bumpPair c a v).xpt = c.xpt := by
  unfold bumpPair
  split
  · rfl
  · exact (setKey_xpt ..).trans (setKey_xpt ..)

theorem egr_bumpPair (c : Chip) (a v : Nat) : (bumpPair c a v).egr = c.egr := by
  unfold bumpPair
  split
  · rfl
  · exact (setKey_egr ..).trans (setKey_egr ..)

theorem conn_waitSpace_other (c : Chip) {n m : Nat} (w : List (Pkt × InitUse)) (h : n ≠ m) :
    conn (waitSpace c m w).1 n = conn c n := by
  unfold waitSpace
  dsimp only
  refine (conn_of_xpt (xpt_bumpB ..) n).trans ?_
  exact conn_setConn_other c _ h

theorem conn_enqueuePkt (c : Chip) (m n : Nat) (p : Pkt) : conn (enqueuePkt c m p).1 n = conn c n := rfl

theorem conn_sendPkt_other (c : Chip) {n m : Nat} (p : Pkt) (u : InitUse) (h : n ≠ m) : conn (sendPkt c m p u).1 n = conn c n := by
  unfold sendPkt
  dsimp only
  split
  · exact conn_setConn_other c _ h
  split
  · unfold sendNow
    dsimp only
    rw [conn_enqueuePkt]
    exact conn_setConn_other c _ h
  · exact conn_waitSpace_other c _ h

theorem conn_sendFold_other {n m : Nat} (u : InitUse) (h : n ≠ m) (ps : List Pkt) (a : Chip × List EventBit) :
    conn (ps.foldl (fun a p => let (c1, e) := sendPkt a.1 m p u; (c1, a.2 ++ e)) a).1 n = conn a.1 n := by
  induction ps generalizing a with
  | nil => rfl
  | cons p r ih => exact (ih ((sendPkt a.1 m p u).1, a.2 ++ (sendPkt a.1 m p u).2)).trans (conn_sendPkt_other a.1 p u h)

theorem keepsShut_pushMsg (n : Nat) (c : Chip) (m : Nat) (b : List Byte) : KeepsShut n c (pushMsg c m 7 b).1 := by
  intro hn
  unfold pushMsg
  dsimp only
  by_cases hm : n = m
  · rw [← hm, if_pos hn]
    rfl
  · split
    · rfl
    · split
      · exact conn_of_xpt (xpt_bumpB ..) n
      · unfold sendAll
        rw [conn_sendFold_other .plain hm]
        exact conn_setConn_other c _ hm

theorem keepsShut_eventFold (n : Nat) (b : List Byte) (ns : List Nat) (a : Chip × List EventBit) :
    KeepsShut n a.1 (ns.foldl (fun a m => let (c2, e) := pushMsg a.1 m 7 b; (c2, a.2 ++ e)) a).1 := by
  induction ns generalizing a with
  | nil => exact fun _ => rfl
  | cons m r ih =>
    exact (keepsShut_pushMsg n a.1 m b).trans (ih ((pushMsg a.1 m 7 b).1, a.2 ++ (pushMsg a.1 m 7 b).2))

theorem keepsShut_raiseN (n f : Nat) (l : List EventBit) (c : Chip) : KeepsShut n c (raiseN f l c) := by
  induction f generalizing l c with
  | zero => exact fun _ => rfl
  | succ f ih =>
    cases l with
    | nil => exact fun _ => rfl
    | cons e r =>
      have h : KeepsShut n c (setInt c e.1 (BitVec.ofNat 32 (2 ^ e.2))).1 := by
        unfold setInt
        dsimp only
        split
        · exact .of_xpt rfl
        · unfold sendEvent
          dsimp only
          split
          · exact .of_xpt rfl
          · exact fun hn => keepsShut_eventFold n _ _ (_, []) hn
      exact h.trans (ih _ _)

/-- Events leave a connection that is not OPEN. -/
theorem conn_raise_shut {c : Chip} {n : Nat} (p : Page) (b : Nat) (h : (conn c n).state ≠ .open) :
    conn (raise c p b) n = conn c n := keepsShut_raiseN n _ _ _ h

/-! ### Steps of a connection -/

/-- Control packets that wait to leave. -/
def controls (c : Chip) : Nat := c.egr.ctl0.length + c.egr.ctl1.length

theorem sendControl_sends (c : Chip) (n : Nat) (p : Pkt) :
    (sendControl c n p).xpt = c.xpt ∧ controls (sendControl c n p) = controls c + 1 ∧ ∀ k, regKey (sendControl c n p) k = regKey c k := by
  unfold sendControl
  split
  · refine ⟨rfl, ?_, fun _ => rfl⟩
    simp only [controls, List.length_append, List.length_singleton, Nat.add_assoc]
  · refine ⟨rfl, ?_, fun _ => rfl⟩
    simp only [controls, List.length_append, List.length_singleton]
    omega

/-- A connection of which nothing waits. -/
theorem dropWaiting_none {c : Chip} {n : Nat} (h : (conn c n).txWait = []) :
    (dropWaiting c n).xpt = (setConn c n { conn c n with txWait := [], waiting := false }).xpt ∧
    controls (dropWaiting c n) = controls c ∧ quiet (dropWaiting c n) = quiet c ∧
    ∀ k, regKey (dropWaiting c n) k = regKey c k := by
  have hr : waitingRecords (conn c n) = 0 := by
    unfold waitingRecords
    rw [h]
    rfl
  unfold dropWaiting
  dsimp only
  rw [if_pos hr, h]
  exact ⟨rfl, rfl, rfl, fun _ => rfl⟩

theorem pumpConn_none {c : Chip} {n : Nat} (h : (conn c n).txWait = []) : pumpConn c n = c := by
  have hp : pump c n = (c, []) := by
    unfold pump
    rw [h]
    rfl
  rw [pumpConn, hp]
  rfl

/-- What counting an accepted packet leaves. -/
theorem countRx_leaves (c : Chip) (l : Link) : (countRx c l).xpt = c.xpt ∧ (countRx c l).egr = c.egr ∧
    quiet (countRx c l) = quiet c ∧ (∀ p, hdr (countRx c l) p = hdr c p) ∧
    ∀ k, k ∉ [aXPT_RX_PKT_LO, aXPT_RX_PKT_LO + 4, aXPT_CE_CNT].map (rkey 0) → regKey (countRx c l) k = regKey c k := by
  unfold countRx
  refine ⟨(xpt_bumpB ..).trans (xpt_bumpPair ..), (egr_bumpB ..).trans (egr_bumpPair ..), ?_, fun p => ?_, fun k hk => ?_⟩
  · rw [quiet_bump, quiet_bumpPair]
  · rw [hdr_bump, hdr_bumpPair]
  · simp only [List.map_cons, List.map_nil, List.mem_cons, List.not_mem_nil, or_false, not_or] at hk
    obtain ⟨h1, h2, h3⟩ := hk
    have hb : ∀ d : Chip, regKey (bump d aXPT_CE_CNT (b2n l.ce)) k = regKey d k := fun d => by
      unfold bump bumpB
      split
      · rfl
      · exact regKey_setKey_other _ _ _ _ _ h3
    rw [hb, regKey_bumpPair_other _ _ _ h1 h2]

/-! ### A CONNECT (R315, R316) -/

theorem setRemote_leaves (c : Chip) (n : Nat) (l : Link) : (setRemote c n l).xpt = c.xpt ∧ (setRemote c n l).egr = c.egr := by
  have hf : ∀ (d : Chip) (hi lo v a : Nat), (setFldB d n a hi lo v).xpt = d.xpt ∧ (setFldB d n a hi lo v).egr = d.egr :=
    fun d hi lo v a => ⟨setKey_xpt .., setKey_egr ..⟩
  have hl : ∀ (is : List Nat) (d : Chip), (is.foldl (fun c i => setRegB c n (aXPT_CONN_ADDR + 4 * i)
      (w32 (l.addr.toNat / 2 ^ (32 * i)))) d).xpt = d.xpt ∧ (is.foldl (fun c i => setRegB c n (aXPT_CONN_ADDR + 4 * i)
      (w32 (l.addr.toNat / 2 ^ (32 * i)))) d).egr = d.egr := fun is => by
    induction is with
    | nil => exact fun _ => ⟨rfl, rfl⟩
    | cons i r ih => exact fun d => ⟨(ih _).1.trans (setKey_xpt ..), (ih _).2.trans (setKey_egr ..)⟩
  unfold setRemote
  dsimp only
  split
  · rw [(hf _ _ _ _ _).1, (hf _ _ _ _ _).1, (hf _ _ _ _ _).2, (hf _ _ _ _ _).2]
    exact ⟨rfl, rfl⟩
  · rw [(hf _ _ _ _ _).1, (hf _ _ _ _ _).1, (hf _ _ _ _ _).2, (hf _ _ _ _ _).2]
    exact hl _ c

/-- A connection as a CONNECT without a designation opens it. -/
def openedBy (l : Link) (p : Pkt) (v w : Word) (spray : Bool) (rate : Nat) : ConnSt :=
  { connReset with
    state := .open, remConn := p.src.toNat % 2 ^ 14, myNonce := v, remNonce := p.myNonce, remAddr := l.addr,
    peer := l.peer, txNext := w, rxCum := p.initSeq, rxTop := p.initSeq - 1, mgmt := false, spray := spray,
    reqNonce := some (stOK, w), rate := rate }

/-- A connection stored with its remote end and its rate. -/
def connStored (c : Chip) (l : Link) (m : Nat) (k : ConnSt) : Chip :=
  setConn (setRemote (setConn c m k) m l) m { k with rate := rateCeil (setRemote (setConn c m k) m l) m }

theorem connStored_stores (c : Chip) (l : Link) (m : Nat) (k : ConnSt) :
    (∃ rate, conn (connStored c l m k) m = { k with rate := rate }) ∧ (∀ j, j ≠ m → conn (connStored c l m k) j = conn c j) ∧
    (connStored c l m k).egr = c.egr := by
  unfold connStored
  have hc2 : ∀ j, j ≠ m → conn (setConn c m k) j = conn c j := fun j hj => conn_setConn_other c k hj
  have he : (setConn c m k).egr = c.egr := rfl
  generalize setConn c m k = e at hc2 he
  obtain ⟨hr1, hr2⟩ := setRemote_leaves e m l
  generalize setRemote e m l = f at hr1 hr2
  exact ⟨⟨_, conn_setConn_self ..⟩, fun j hj => (conn_setConn_other f _ hj).trans ((conn_of_xpt hr1 j).trans (hc2 j hj)),
    Eq.trans rfl (hr2.trans he)⟩

/-- A CONNECT without a designation opens its connection and answers. -/
theorem acceptConnect_eq (c : Chip) (l : Link) {p : Pkt} (m : Nat) (h : p.cflags.getLsbD 0 = false) :
    ∃ d v w spray, d.xpt = c.xpt ∧ d.egr = c.egr ∧ acceptConnect c l p m =
      sendControl (connStored d l m (openedBy l p v w spray connReset.rate)) m
        (connectAck (connStored d l m (openedBy l p v w spray connReset.rate)) m p stOK w) := by
  refine ⟨(takeFree (takeFree c).2).2, w32 (takeFree c).1, w32 (takeFree (takeFree c).2).1,
    pSpray p || sprayNamed (takeFree (takeFree c).2).2 m, rfl, rfl, ?_⟩
  have hd : ∀ d : Chip, designation d p = (false, stOK) := fun d => by rw [designation, if_pos h]
  unfold acceptConnect
  dsimp only
  rw [hd]
  rfl

theorem acceptConnect_opens {c : Chip} (l : Link) {p : Pkt} (m : Nat) (h : p.cflags.getLsbD 0 = false) :
    (∃ v w spray rate, conn (acceptConnect c l p m) m = openedBy l p v w spray rate) ∧
    (∀ j, j ≠ m → conn (acceptConnect c l p m) j = conn c j) ∧ controls (acceptConnect c l p m) = controls c + 1 := by
  obtain ⟨d, v, w, spray, hx, hg, he⟩ := acceptConnect_eq c l m h
  rw [he]
  obtain ⟨⟨rate, h1⟩, h2, h3⟩ := connStored_stores d l m (openedBy l p v w spray connReset.rate)
  generalize connStored d l m (openedBy l p v w spray connReset.rate) = g at h1 h2 h3
  obtain ⟨hs1, hs2, -⟩ := sendControl_sends g m (connectAck g m p stOK w)
  generalize sendControl g m (connectAck g m p stOK w) = y at hs1 hs2
  refine ⟨⟨v, w, spray, rate, (conn_of_xpt hs1 m).trans h1⟩, fun j hj => ?_, ?_⟩
  · rw [conn_of_xpt hs1, h2 j hj, conn_of_xpt hx]
  · rw [hs2, controls, h3, hg]
    rfl

theorem lowestClosed_congr {c d : Chip} (hx : d.xpt = c.xpt) {p : Nat}
    (hr : regB d p aSEC_PART_CONN = regB c p aSEC_PART_CONN) : lowestClosed d p = lowestClosed c p := by
  unfold lowestClosed connRange
  dsimp only
  rw [hr, hx]
  simp only [conn_of_xpt hx]

theorem refuseConnect_leaves (c : Chip) (l : Link) (p : Pkt) (st : Nat) : (refuseConnect c l p st).xpt = c.xpt ∧
    controls (refuseConnect c l p st) = controls c + 1 := by
  unfold refuseConnect
  dsimp only
  split
  · refine ⟨rfl, ?_⟩
    simp only [controls, List.length_append, List.length_singleton, Nat.add_assoc]
  · refine ⟨rfl, ?_⟩
    simp only [controls, List.length_append, List.length_singleton]
    omega

/-- VST_CONNECT. -/
theorem connects {s : State} (ha : Awake s.toChip) (l : Link) (p : Pkt) (hv : pktValid p = true)
    (hn : connectedBy s.toChip l p = none) :
    (∀ m, isOn s.toChip .xpt = true → onlyMgmt s.toChip l = false → p.part.toNat < 8 → partValid s.toChip p.part.toNat = true →
      (l.peer = false → l.hostPart.map (·.toNat) = some p.part.toNat) → p.cflags.getLsbD 0 = false →
      lowestClosed s.toChip p.part.toNat = some m → Completes (.vstConnect l p) s (fun t =>
        let k := conn t.toChip m
        k.state = .open ∧ k.local_ = false ∧ k.remConn = p.src.toNat % 2 ^ 14 ∧ k.remNonce = p.myNonce ∧
          k.rxCum = p.initSeq ∧ k.mgmt = false ∧ k.peer = l.peer ∧ k.remAddr = l.addr ∧
          (∀ j, j ≠ m → conn t.toChip j = conn s.toChip j) ∧ controls t.toChip = controls s.toChip + 1)) ∧
    (bstate s.toChip .xpt = .draining → Completes (.vstConnect l p) s (fun t => t.xpt = s.xpt ∧
      controls t.toChip = controls s.toChip + 1)) := by
  have he : exec (.vstConnect l p) s = act s (fun c => whenAwake c (fun c => connectRx c l p)) := rfl
  rw [act_whenAwake ha] at he
  obtain ⟨hx, hg, hq, hh, hr⟩ := countRx_leaves s.toChip l
  have hcb : connectedBy (countRx s.toChip l) l p = none := by rw [connectedBy, hx]; exact hn
  have hrx : xptCounts s.toChip = true → connectRx s.toChip l p =
      (if bstate (countRx s.toChip l) .xpt = .draining ∨ (onlyMgmt (countRx s.toChip l) l ∧
          (designation (countRx s.toChip l) p).1 = false) then refuseConnect (countRx s.toChip l) l p rejBusy
      else if 7 < p.part.toNat ∨ partValid (countRx s.toChip l) p.part.toNat = false ∨
          (l.peer = false ∧ l.hostPart.map (·.toNat) ≠ some p.part.toNat) then refuseConnect (countRx s.toChip l) l p rejPart
      else
        match lowestClosed (countRx s.toChip l) p.part.toNat with
        | none => refuseConnect (countRx s.toChip l) l p rejLimit
        | some n => acceptConnect (countRx s.toChip l) l p n) := fun hc => by
    unfold connectRx
    rw [if_neg (by rw [hc]; decide), if_neg (by rw [hv]; decide)]
    dsimp only
    rw [hcb] <;> rfl
  have hbs : bstate (countRx s.toChip l) .xpt = bstate s.toChip .xpt := congrArg (·.state) (hh .xpt)
  have hctl : controls (countRx s.toChip l) = controls s.toChip := by rw [controls, hg]; rfl
  refine ⟨fun m hon hom hp8 hpv hhp hcf hlc => ?_, fun hd => ?_⟩
  · have hon' : bstate s.toChip .xpt = .on := of_decide_eq_true hon
    have hom' : onlyMgmt (countRx s.toChip l) l = false := by
      unfold onlyMgmt
      rw [hbs, show bstate (countRx s.toChip l) .host = bstate s.toChip .host from congrArg (·.state) (hh .host)]
      exact hom
    have hpv' : partValid (countRx s.toChip l) p.part.toNat = true := by
      have hsec : (countRx s.toChip l).sec = s.sec := congrArg (·.sec) hq
      rw [partValid, secPart, hsec]
      exact hpv
    have hlc' : lowestClosed (countRx s.toChip l) p.part.toNat = some m := by
      rw [lowestClosed_congr hx (hr _ ?_), hlc]
      simp only [List.map_cons, List.map_nil, List.mem_cons, List.not_mem_nil, or_false, not_or]
      exact ⟨rkey_apart (by decide) (by decide) (by decide), rkey_apart (by decide) (by decide) (by decide),
        rkey_apart (by decide) (by decide) (by decide)⟩
    rw [hrx (by rw [xptCounts, isUp, hon']; rfl), if_neg (by rw [hbs, hon', hom']; exact fun x => x.elim (fun y => by cases y) (fun y => by cases y.1)), if_neg ?_, hlc'] at he
    · dsimp only at he
      obtain ⟨⟨v, w, spray, rate, h1⟩, h2, h3⟩ := acceptConnect_opens (c := countRx s.toChip l) l m hcf
      generalize acceptConnect (countRx s.toChip l) l p m = d at he h1 h2 h3
      refine ⟨_, he, after_pending _ _, ?_⟩
      have hm : conn (after s d).toChip m = openedBy l p v w spray rate := h1
      dsimp only
      rw [hm]
      exact ⟨rfl, rfl, rfl, rfl, rfl, rfl, rfl, rfl, fun j hj => (h2 j hj).trans (conn_of_xpt hx j), h3.trans (by rw [hctl])⟩
    · rw [hpv']
      rintro (h | h | ⟨h, h'⟩)
      · omega
      · cases h
      · exact h' (hhp h)
  · rw [hrx (by rw [xptCounts, isUp, hd]; rfl), if_pos (.inl (hbs.trans hd))] at he
    obtain ⟨h1, h2⟩ := refuseConnect_leaves (countRx s.toChip l) l p rejBusy
    generalize refuseConnect (countRx s.toChip l) l p rejBusy = d at he h1 h2
    exact ⟨_, he, after_pending _ _, h1.trans hx, h2.trans (by rw [hctl])⟩

/-! ### A CONNECT_ACK and a CLOSE (R315, R317) -/

theorem rxGate_passes {c : Chip} {l : Link} {p : Pkt} (hu : isUp c .xpt = true) (ho : onlyMgmt c l = false)
    (hv : pktValid p = true) (hs : (conn c (p.dst.toNat % 2 ^ 14)).state ≠ .closed)
    (hn : p.nonce = (conn c (p.dst.toNat % 2 ^ 14)).myNonce) : rxGate c l p = (some (p.dst.toNat % 2 ^ 14), c) := by
  unfold rxGate
  dsimp only
  rw [if_neg (by rw [xptCounts, hu]; exact fun x => by cases x), if_neg (by rw [hv]; decide),
    if_neg (by rw [ho]; exact fun x => by cases x.1), if_neg (fun x => x.elim hs (fun y => y hn))]

/-- What the failure of a connection leaves. -/
theorem connFail_fails (c : Chip) (n : Nat) :
    (conn (connFail c n).2 n).state = .failed ∧ (conn (connFail c n).2 n).txOpen = [] ∧
    bit (hdr (connFail c n).2 .xpt).int 18 = true := by
  have he : (connFail c n).2 = raise (dropRequester (setConn (dropWaiting c n) n { conn (dropWaiting c n) n with
    state := .failed, txOpen := [], txWait := [], segs := [], part := [], nakd := [] }) n) .xpt 18 := rfl
  rw [he]
  generalize hk : ({ conn (dropWaiting c n) n with
    state := ConnState.failed, txOpen := [], txWait := [], segs := [], part := [], nakd := [] } : ConnSt) = k
  have hd : conn (dropRequester (setConn (dropWaiting c n) n k) n) n = k :=
    (conn_of_xpt rfl n).trans (conn_setConn_self (dropWaiting c n) n k)
  generalize dropRequester (setConn (dropWaiting c n) n k) n = d at hd
  have hs : (conn d n).state ≠ .open := by
    rw [hd, ← hk]
    exact fun x => by cases x
  have hr := conn_raise_shut .xpt 18 hs
  have hev : bit (hdr (raise d .xpt 18) .xpt).int 18 = true := raises_int (l := [(.xpt, 18)]) (by decide) (by simp)
  generalize raise d .xpt 18 = e at hr hev
  refine ⟨?_, ?_, hev⟩
  · rw [hr, hd, ← hk]
  · rw [hr, hd, ← hk]

/-- A connection of which nothing waits begins to close: no operation ends. -/
theorem startClosing_closes {c : Chip} {n : Nat} (h : (conn c n).txWait = []) :
    (startClosing c n).1 = [] ∧ (conn (startClosing c n).2 n).state = .closing ∧
    (conn (startClosing c n).2 n).closeRx = (conn c n).closeRx ∧ controls (startClosing c n).2 = controls c + 1 := by
  obtain ⟨h1, h2, -⟩ := dropWaiting_none h
  have he : (startClosing c n).2 = sendControl (setConn (dropWaiting c n) n { conn (dropWaiting c n) n with state := .closing }) n
    (ctlPkt (dropWaiting c n) n 9) := rfl
  have hc : conn (dropWaiting c n) n = { conn c n with txWait := [], waiting := false } :=
    (conn_of_xpt h1 n).trans (conn_setConn_self ..)
  refine ⟨?_, ?_⟩
  · unfold startClosing
    dsimp only
    rw [h]
    rfl
  · rw [he]
    generalize dropWaiting c n = d at h2 hc
    have hk := conn_setConn_self d n { conn d n with state := .closing }
    have hg : controls (setConn d n { conn d n with state := .closing }) = controls d := rfl
    generalize setConn d n { conn d n with state := .closing } = e at hk hg
    obtain ⟨hs1, hs2, -⟩ := sendControl_sends e n (ctlPkt d n 9)
    generalize sendControl e n (ctlPkt d n 9) = f at hs1 hs2
    have hf := (conn_of_xpt hs1 n).trans hk
    exact ⟨congrArg (·.state) hf, (congrArg (·.closeRx) hf).trans (congrArg (·.closeRx) hc), by rw [hs2, hg, h2]⟩

/-- VST_CONNECT_ACK and VST_CLOSE. -/
theorem acksAndCloses {s : State} (ha : Awake s.toChip) (l : Link) (p : Pkt) (hu : isUp s.toChip .xpt = true)
    (ho : onlyMgmt s.toChip l = false) (hv : pktValid p = true) :
    let n := p.dst.toNat % 2 ^ 14
    let k := conn s.toChip n
    p.nonce = k.myNonce → k.txWait = [] →
    (k.state = .connecting → p.typ = 8 → p.status = 0 → Completes (.vstConnectAck l p) s (fun t =>
      conn t.toChip n = { k with
        state := .open, remConn := p.src.toNat % 2 ^ 14, remNonce := p.myNonce, remAddr := l.addr,
        rxCum := p.initSeq, rxTop := p.initSeq - 1, txOpen := [], rate := rateCeil s.toChip n })) ∧
    (k.state = .connecting → p.typ = 8 → p.status ≠ 0 → Completes (.vstConnectAck l p) s (fun t =>
      (conn t.toChip n).state = .failed ∧ (conn t.toChip n).txOpen = [] ∧ Event t .xpt 18)) ∧
    (k.state = .open → p.typ = 9 → Completes (.vstClose l p) s (fun t =>
      (conn t.toChip n).state = .closing ∧ (conn t.toChip n).closeRx = true ∧ controls t.toChip = controls s.toChip + 1)) ∧
    (k.state = .closing → p.typ = 9 → Completes (.vstClose l p) s (fun t =>
      conn t.toChip n = { k with closeRx := true })) := by
  intro n k hn hw
  have hea : exec (.vstConnectAck l p) s = act s (fun c => whenAwake c (fun c => connectAckRx c l p)) := rfl
  have hec : exec (.vstClose l p) s = act s (fun c => whenAwake c (fun c => vstClose c l p)) := rfl
  rw [act_whenAwake ha] at hea hec
  obtain ⟨hx, hg, -, -, hr⟩ := countRx_leaves s.toChip l
  have hk : conn (countRx s.toChip l) n = k := conn_of_xpt hx n
  have hctl : controls (countRx s.toChip l) = controls s.toChip := by rw [controls, hg]; rfl
  have hgate : k.state ≠ .closed → rxGate s.toChip l p = (some n, s.toChip) := fun hs => rxGate_passes hu ho hv hs hn
  have hack : k.state = .connecting → connectAckRx s.toChip l p =
      if p.status.toNat = stOK then pumpConn (setConn (countRx s.toChip l) n { k with
        state := .open, remConn := p.src.toNat % 2 ^ 14, remNonce := p.myNonce, remAddr := l.addr,
        rxCum := p.initSeq, rxTop := p.initSeq - 1, txOpen := [], rate := rateCeil (countRx s.toChip l) n }) n
      else (connFail (countRx s.toChip l) n).2 := fun hs => by
    unfold connectAckRx
    rw [hgate (by rw [hs]; decide)]
    dsimp only
    rw [if_neg (fun x => x hs)]
  have hclose : k.state ≠ .closed → closeRx s.toChip l p =
      if k.state = .open then
        ((startClosing (dropRequester (setConn (countRx s.toChip l) n { k with closeRx := true }) n) n).1, n,
          (startClosing (dropRequester (setConn (countRx s.toChip l) n { k with closeRx := true }) n) n).2)
      else if k.state = .closing then ([], n, setConn (countRx s.toChip l) n { k with closeRx := true })
      else ([], n, countRx s.toChip l) := fun hs => by
    unfold closeRx
    rw [hgate hs]
  have hvc : vstClose s.toChip l p = usesLost (closeRx s.toChip l p).2.2 (closeRx s.toChip l p).2.1 (closeRx s.toChip l p).1 := rfl
  refine ⟨fun hs _ hst => ?_, fun hs _ hst => ?_, fun hs _ => ?_, fun hs _ => ?_⟩
  · rw [hack hs, if_pos (by rw [hst]; rfl)] at hea
    have hrate : rateCeil (countRx s.toChip l) n = rateCeil s.toChip n := by
      have hm : reg (countRx s.toChip l) aXPT_RATE_MAX = reg s.toChip aXPT_RATE_MAX := hr _ (by decide)
      have hp : pathPeer (countRx s.toChip l) n = pathPeer s.toChip n := by
        rw [pathPeer, pathPeer, show regB (countRx s.toChip l) n aXPT_CONN_DEST = regB s.toChip n aXPT_CONN_DEST from hr _ ?_]
        simp only [List.map_cons, List.map_nil, List.mem_cons, List.not_mem_nil, or_false, not_or]
        exact ⟨rkey_apart (by decide) (by decide) (by decide), rkey_apart (by decide) (by decide) (by decide),
          rkey_apart (by decide) (by decide) (by decide)⟩
      rw [rateCeil, rateCeil, firstHop, firstHop, hm, hp, hk]
    rw [hrate] at hea
    generalize countRx s.toChip l = c at hea
    have hc := conn_setConn_self c n { k with
      state := .open, remConn := p.src.toNat % 2 ^ 14, remNonce := p.myNonce, remAddr := l.addr,
      rxCum := p.initSeq, rxTop := p.initSeq - 1, txOpen := [], rate := rateCeil s.toChip n }
    generalize setConn c n { k with
      state := .open, remConn := p.src.toNat % 2 ^ 14, remNonce := p.myNonce, remAddr := l.addr,
      rxCum := p.initSeq, rxTop := p.initSeq - 1, txOpen := [], rate := rateCeil s.toChip n } = d at hea hc
    rw [pumpConn_none (by rw [hc]; exact hw)] at hea
    exact ⟨_, hea, after_pending _ _, hc⟩
  · rw [hack hs, if_neg (show ¬ p.status.toNat = stOK from fun x => hst (BitVec.eq_of_toNat_eq x))] at hea
    have hf := connFail_fails (countRx s.toChip l) n
    generalize (connFail (countRx s.toChip l) n).2 = d at hea hf
    exact ⟨_, hea, after_pending _ _, hf⟩
  · rw [hvc, hclose (by rw [hs]; decide), if_pos hs] at hec
    generalize countRx s.toChip l = c at hec hctl
    have hc : conn (dropRequester (setConn c n { k with closeRx := true }) n) n = { k with closeRx := true } :=
      (conn_of_xpt rfl n).trans (conn_setConn_self c n _)
    have hcc : controls (dropRequester (setConn c n { k with closeRx := true }) n) = controls c := rfl
    generalize dropRequester (setConn c n { k with closeRx := true }) n = d at hec hc hcc
    obtain ⟨h1, h2, h3, h4⟩ := startClosing_closes (c := d) (n := n) (by rw [hc]; exact hw)
    rw [h1] at hec
    dsimp only at hec
    generalize (startClosing d n).2 = e at hec h2 h3 h4
    exact ⟨_, hec, after_pending _ _, h2, h3.trans (by rw [hc]), h4.trans (by rw [hcc, hctl])⟩
  · rw [hvc, hclose (by rw [hs]; decide), if_neg (by rw [hs]; decide), if_pos hs] at hec
    generalize countRx s.toChip l = c at hec
    have hc := conn_setConn_self c n { k with closeRx := true }
    generalize setConn c n { k with closeRx := true } = d at hec hc
    exact ⟨_, hec, after_pending _ _, hc⟩

/-! ### The ends of a connection (R317) -/

theorem conn_closeConn (c : Chip) (n : Nat) : conn (closeConn c n) n = connReset :=
  (conn_of_xpt rfl n).trans (conn_setConn_self (dropWaiting c n) n connReset)

/-- CONN_CLOSED and CONN_FAILED_TIMEOUT. -/
theorem connectionsEnd {s : State} (ha : Awake s.toChip) (m : Conn) :
    let k := conn s.toChip m.toNat
    (k.state = .closing → k.txOpen = [] → k.closeRx = true → Completes (.connClosed m) s (fun t =>
      conn t.toChip m.toNat = connReset)) ∧
    (k.state ≠ .closing → exec (.connClosed m) s = .next (after s s.toChip)) ∧
    (k.state = .failed → Completes (.connFailedTimeout m) s (fun t => conn t.toChip m.toNat = connReset)) ∧
    (k.state ≠ .failed → exec (.connFailedTimeout m) s = .next (after s s.toChip)) := by
  intro k
  have hec : exec (.connClosed m) s = act s (fun c => whenAwake c (fun c => connClosed c m.toNat)) := rfl
  have hef : exec (.connFailedTimeout m) s = act s (fun c => whenAwake c (fun c => (connRelease c m.toNat).2)) := rfl
  rw [act_whenAwake ha] at hec hef
  have hc := conn_closeConn s.toChip m.toNat
  refine ⟨fun h1 h2 h3 => ?_, fun h => ?_, fun h => ?_, fun h => ?_⟩
  · have he : connClosed s.toChip m.toNat = closeConn s.toChip m.toNat := if_pos ⟨h1, h2, h3⟩
    rw [he] at hec
    generalize closeConn s.toChip m.toNat = d at hec hc
    exact ⟨_, hec, after_pending _ _, hc⟩
  · have he : connClosed s.toChip m.toNat = s.toChip := if_neg fun x => h x.1
    rw [hec, he]
  · have he : connRelease s.toChip m.toNat = (stOK, closeConn s.toChip m.toNat) := if_pos h
    rw [he] at hef
    dsimp only at hef
    generalize closeConn s.toChip m.toNat = d at hef hc
    exact ⟨_, hef, after_pending _ _, hc⟩
  · have he : connRelease s.toChip m.toNat = (rejState, s.toChip) := if_neg h
    rw [hef, he]

/-! ### CONN_CTRL (R316, R317, R341) -/

theorem pageWrite_xpt {c : Chip} {x : RegWr} (h : pageOf (x.a / 0x4000) = .xpt) : pageWrite c x = writeXpt c x := by
  unfold pageWrite
  rw [h]

/-- The row of CONN_CTRL. -/
def rowConnCtrl : RegRow := ⟨0x060, 1, .conn, 0, [⟨10, 10, .rw, 0⟩, ⟨9, 9, .rw, 0⟩, ⟨4, 4, .wo, 0⟩, ⟨3, 3, .wo, 0⟩,
  ⟨2, 2, .wo, 0⟩, ⟨1, 1, .wo, 0⟩, ⟨0, 0, .wo, 0⟩]⟩

/-- CONN_CTRL of a connection with a word stored. -/
def connCtrlStored (c : Chip) (n : Nat) (w : Word) : Chip := setKey c (rkey n aXPT_CONN_CTRL) (storeMask rowConnCtrl) w

/-- The action bit of CONN_CTRL, on the stored register. -/
def connActed (c : Chip) (n k : Nat) (w : Word) : Nat × Chip :=
  if k = 1 then connOpen (connCtrlStored c n w) n
  else if k = 2 then (if (conn c n).state = .open then (stOK, connCloseOp (connCtrlStored c n w) n)
    else (rejState, connCtrlStored c n w))
  else if k = 4 then connRelease (connCtrlStored c n w) n
  else if k = 8 then connMgmt (connCtrlStored c n w) n
  else connUnmgmt (connCtrlStored c n w) n

/-- The answer to an action: a refused one leaves the register. -/
def connJudged (c : Chip) (y : Nat × Chip) : Nat × Chip :=
  (y.1, if y.1 = stOK then y.2 else if y.1 = rejLimit then raise c .xpt 19 else c)

theorem connJudged_ok (c d : Chip) : connJudged c (stOK, d) = (stOK, d) := rfl

theorem connJudged_state (c d : Chip) : connJudged c (rejState, d) = (rejState, c) := rfl

theorem fld_action (v : Word) {k : Nat} (h : k < 32) : fld ((v &&& 0x600) ||| w32 k) 4 0 = k := by
  have hk : (w32 k).toNat = k := Nat.mod_eq_of_lt (by omega)
  have hm : (0x600 : Word).toNat % 2 ^ 5 = 0 := rfl
  rw [fld, Nat.shiftRight_zero, BitVec.toNat_or, BitVec.toNat_and, hk]
  show (v.toNat &&& (0x600 : Word).toNat ||| k) % 2 ^ 5 = k
  rw [Nat.or_mod_two_pow, Nat.and_mod_two_pow, hm, Nat.and_zero, Nat.zero_or]
  exact Nat.mod_eq_of_lt h

/-- The rule of CONN_CTRL for one action. -/
theorem connCtrlWrite_acts {c : Chip} {x : RegWr} {n k : Nat} {w : Word} (hst : storeReg c x = connCtrlStored c n w)
    (hb : x.bank = n) (hp : x.plain = true) (hf : fld x.raw 4 0 = k) (hk : k ∈ [1, 2, 4, 8, 16]) :
    connCtrlWrite c x = connJudged c (connActed c n k w) := by
  unfold connCtrlWrite connJudged connActed
  rw [hst, hp, hf, hb, if_pos rfl]
  simp only [List.mem_cons, List.not_mem_nil, or_false] at hk
  rcases hk with rfl | rfl | rfl | rfl | rfl
  · simp only [Nat.reduceEqDiff, if_false, if_true]
  · simp only [Nat.reduceEqDiff, if_false, if_true]
  · simp only [Nat.reduceEqDiff, if_false, if_true]
  · simp only [Nat.reduceEqDiff, if_false, if_true]
  · simp only [Nat.reduceEqDiff, if_false, if_true]

/-- An action on a connection of partition 0. -/
theorem mgmtWrite_connCtrl {c : Chip} {r : Requester} {k : Nat} (h : Reaches c r .xpt)
    (hp : partOfConn c (bankFor c 0 .conn) = some 0) (hk : k ∈ [1, 2, 4, 8, 16]) :
    let y := connJudged (setArmed c r .xpt false)
      (connActed (setArmed c r .xpt false) (bankFor c 0 .conn) k (connAction c k))
    mgmtWrite c r aXPT_CONN_CTRL (connAction c k) = keepStatus (answer y.2 y.1 0) r y.1 := by
  obtain ⟨x, hx, hw⟩ := mgmtWriteWith_rule (a := aXPT_CONN_CTRL) (row := rowConnCtrl) noArgs (connAction c k) h (by decide)
    rfl rfl (fun y => by cases y)
  have hb : x.bank = bankFor c 0 .conn := hx.bank
  have hst : storeReg (setArmed c r .xpt false) x =
      connCtrlStored (setArmed c r .xpt false) (bankFor c 0 .conn) (connAction c k) := by
    rw [storeReg_single _ hx.lo, hb, hx.addr, hx.row, hx.new]
    rfl
  have hpc : partOfConn (setArmed c r .xpt false) x.bank = some x.part := by
    have hsec : (setArmed c r .xpt false).sec = c.sec := congrArg (·.sec) (desk_setArmed c r .xpt false)
    rw [hx.part, hb, ← hp]
    unfold partOfConn partHolds connRange secPart
    rw [hsec]
    simp only [regB_setArmed]
  have hfld : fld x.raw 4 0 = k := by
    rw [hx.raw]
    refine fld_action _ ?_
    simp only [List.mem_cons, List.not_mem_nil, or_false] at hk
    omega
  have hrule : writeXpt (setArmed c r .xpt false) x = connJudged (setArmed c r .xpt false)
      (connActed (setArmed c r .xpt false) (bankFor c 0 .conn) k (connAction c k)) := by
    unfold writeXpt
    rw [if_pos (by rw [hx.addr]; decide), if_neg (fun y => y hpc), if_pos hx.addr]
    exact connCtrlWrite_acts hst hb hx.plain hfld hk
  rw [show pageOf (aXPT_CONN_CTRL / 0x4000) = .xpt from rfl, pageWrite_xpt (by rw [hx.addr]; rfl), hrule] at hw
  exact hw

/-- Everything that an action on a connection reads but its CONN_CTRL. -/
structure SameForConn (c d : Chip) : Prop where
  xpt : d.xpt = c.xpt
  sec : d.sec = c.sec
  hdrs : ∀ p, hdr d p = hdr c p
  regs : ∀ b a, a < bankStride → a ≠ aXPT_CONN_CTRL → regB d b a = regB c b a

theorem SameForConn.trans {a b c : Chip} (h : SameForConn a b) (g : SameForConn b c) : SameForConn a c :=
  ⟨g.xpt.trans h.xpt, g.sec.trans h.sec, fun p => (g.hdrs p).trans (h.hdrs p),
    fun n x hx hne => (g.regs n x hx hne).trans (h.regs n x hx hne)⟩

theorem sec_setKey (c : Chip) (k : Nat) (m w : Word) : (setKey c k m w).sec = c.sec := congrArg (·.sec) (quiet_setKey c k m w)

theorem sameForConn_setKey (c : Chip) {b : Nat} (n : Nat) (m w : Word) (hb : b = aXPT_CONN_CTRL) :
    SameForConn c (setKey c (rkey n b) m w) :=
  ⟨setKey_xpt c _ m w, sec_setKey c _ m w, fun p => hdr_setKey c _ m w p,
    fun i _ h hne => regKey_setKey_other c _ (rkey i _) m w (rkey_apart h (by rw [hb]; decide) (fun x => hne (x.trans hb)))⟩

theorem sameForConn_stored (c : Chip) (n : Nat) (w : Word) : SameForConn c (connCtrlStored c n w) := by
  unfold connCtrlStored
  exact sameForConn_setKey c n _ w rfl

theorem sameForConn_setArmed (c : Chip) (r : Requester) (p : Page) (on : Bool) : SameForConn c (setArmed c r p on) :=
  ⟨by cases r <;> rfl, congrArg (·.sec) (desk_setArmed c r p on), fun _ => hdr_setArmed .., fun _ _ _ _ => regB_setArmed ..⟩

theorem SameForConn.partOfConn {c d : Chip} (h : SameForConn c d) (n : Nat) : partOfConn d n = Machine.partOfConn c n := by
  unfold Machine.partOfConn partHolds connRange secPart
  rw [h.sec]
  simp only [h.regs _ aSEC_PART_CONN (by decide) (by decide)]

theorem SameForConn.dest {c d : Chip} (h : SameForConn c d) (n : Nat) : regB d n aXPT_CONN_DEST = regB c n aXPT_CONN_DEST :=
  h.regs n _ (by decide) (by decide)

theorem SameForConn.pathPeer {c d : Chip} (h : SameForConn c d) (n : Nat) : pathPeer d n = Machine.pathPeer c n :=
  congrArg (bit · 31) (h.dest n)

theorem SameForConn.isOn {c d : Chip} (h : SameForConn c d) (p : Page) : isOn d p = Machine.isOn c p := by
  rw [Machine.isOn, bstate, h.hdrs]
  rfl

theorem SameForConn.pathBusy {c d : Chip} (h : SameForConn c d) (n : Nat) : pathBusy d n = Machine.pathBusy c n := by
  rw [Machine.pathBusy, h.pathPeer, h.isOn, h.isOn, h.isOn, conn_of_xpt h.xpt]
  rfl

/-- The connection that OPEN makes of a CLOSED one. -/
def opening (c : Chip) (n : Nat) (v w : Nat) (k : ConnSt) : ConnSt :=
  { connReset with
    state := .connecting, local_ := true, myNonce := w32 v, txNext := w32 w, peer := pathPeer c n, spray := sprayNamed c n,
    txOpen := [{
      pkt := { typ := 7, flags := if sprayNamed c n then 4 else 0, src := BitVec.ofNat 16 n,
               part := BitVec.ofNat 8 ((partOfConn c n).getD 0),
               cflags := BitVec.ofNat 8 (b2n k.mgmt + 2 * b2n (eventsBit c n)), myNonce := w32 v, initSeq := w32 w }
      use := .plain, expiries := 0, timer := 0 }] }

theorem xpt_setFldB (c : Chip) (n a hi lo v : Nat) : (setFldB c n a hi lo v).xpt = c.xpt := setKey_xpt c (rkey n a) _ _

theorem xpt_dropRequester (c : Chip) (n : Nat) : (dropRequester c n).xpt = c.xpt := rfl

theorem regB_dropRequester (c : Chip) (n b a : Nat) : regB (dropRequester c n) b a = regB c b a := rfl

theorem conn_dropped_cleared (c : Chip) (n m a : Nat) : conn (dropRequester (setFldB c n a 9 9 0) n) m = conn c m :=
  conn_of_xpt ((xpt_dropRequester _ n).trans (xpt_setFldB c n a 9 9 0)) m

theorem bit_dropped_cleared (c : Chip) (n a : Nat) : bit (regB (dropRequester (setFldB c n a 9 9 0) n) n a) 9 = false := by
  rw [regB_dropRequester, bit_setFldB_zero _ _ _ (by decide)]

theorem connOpen_opens {c : Chip} {n : Nat} (hs : (conn c n).state = .closed) (ho : isOn c .xpt = true)
    (hb : pathBusy c n = false) (hq : some (fld (regB c (queueOf c n) aEGR_Q_CFG) 29 27) = partOfConn c n)
    (hp : bit (regB c (queueOf c n) aEGR_Q_CFG) 30 = pathPeer c n) :
    ∃ d, connOpen c n = (stOK, d) ∧ ∃ e v w, conn d n = opening e n v w (conn c n) := by
  unfold connOpen
  dsimp only
  rw [if_neg (fun x => x hs), if_neg (by rw [ho, hb]; decide), if_neg (fun x => x hq), if_neg (fun x => x hp)]
  refine ⟨_, rfl, (takeFree (takeFree c).2).2, (takeFree c).1, (takeFree (takeFree c).2).1, ?_⟩
  refine (conn_of_xpt (sendControl_sends _ _ _).1 n).trans ?_
  exact conn_setConn_self ..

theorem connOpen_refused {c : Chip} {n : Nat} (hs : (conn c n).state ≠ .closed) : connOpen c n = (rejState, c) := by
  unfold connOpen
  exact if_pos hs

theorem connCloseOp_closes {c : Chip} {n : Nat} (hw : (conn c n).txWait = []) :
    (conn (connCloseOp c n) n).state = .closing := by
  obtain ⟨hu, hc, -⟩ := startClosing_closes hw
  unfold connCloseOp
  dsimp only
  rw [hu]
  exact hc

theorem connRelease_closes {c : Chip} {n : Nat} (hs : (conn c n).state = .failed) :
    ∃ d, connRelease c n = (stOK, d) ∧ conn d n = connReset := ⟨_, if_pos hs, conn_closeConn c n⟩

theorem connRelease_refused {c : Chip} {n : Nat} (hs : (conn c n).state ≠ .failed) : connRelease c n = (rejState, c) :=
  if_neg hs

theorem connMgmt_designates {c : Chip} {n : Nat} (hs : (conn c n).state = .open) (hm : (conn c n).mgmt = false)
    (hc : mgmtCount c < 16) : ∃ d, connMgmt c n = (stOK, d) ∧ conn d n = { conn c n with mgmt := true } := by
  refine ⟨setConn c n { conn c n with mgmt := true }, ?_, conn_setConn_self ..⟩
  unfold connMgmt
  dsimp only
  rw [if_neg (by rw [hs, hm]; decide), if_neg (by omega)]

theorem connUnmgmt_clears {c : Chip} {n : Nat} (hs : (conn c n).state = .open) (hm : (conn c n).mgmt = true) :
    ∃ d, connUnmgmt c n = (stOK, d) ∧ conn d n = { conn c n with mgmt := false } ∧
      bit (regB d n aXPT_CONN_CTRL) 9 = false :=
  ⟨_, if_pos ⟨.inl hs, hm⟩, (conn_dropped_cleared _ n n _).trans (conn_setConn_self ..), bit_dropped_cleared _ n _⟩

theorem connActed_open (c : Chip) (n : Nat) (w : Word) : connActed c n 1 w = connOpen (connCtrlStored c n w) n := if_pos rfl

theorem connActed_close (c : Chip) (n : Nat) (w : Word) : connActed c n 2 w = if (conn c n).state = .open then
    (stOK, connCloseOp (connCtrlStored c n w) n) else (rejState, connCtrlStored c n w) :=
  (if_neg (by decide)).trans (if_pos rfl)

theorem connActed_release (c : Chip) (n : Nat) (w : Word) : connActed c n 4 w = connRelease (connCtrlStored c n w) n :=
  (if_neg (by decide)).trans ((if_neg (by decide)).trans (if_pos rfl))

theorem connActed_mgmt (c : Chip) (n : Nat) (w : Word) : connActed c n 8 w = connMgmt (connCtrlStored c n w) n :=
  (if_neg (by decide)).trans ((if_neg (by decide)).trans ((if_neg (by decide)).trans (if_pos rfl)))

theorem connActed_unmgmt (c : Chip) (n : Nat) (w : Word) : connActed c n 16 w = connUnmgmt (connCtrlStored c n w) n :=
  (if_neg (by decide)).trans ((if_neg (by decide)).trans ((if_neg (by decide)).trans (if_neg (by decide))))

/-! ### The answers to the actions -/

theorem xpt_after (s : State) (c : Chip) (r : Requester) (n : Nat) :
    (after s (keepStatus (answer c n 0) r n)).toChip.xpt = c.xpt := by cases r <;> rfl

theorem conn_after (s : State) (c : Chip) (r : Requester) (n m : Nat) :
    conn (after s (keepStatus (answer c n 0) r n)).toChip m = conn c m := conn_of_xpt (xpt_after s c r n) m

theorem accepted_acted {i : Instr} {s : State} {r : Requester} {c d : Chip} {y : Nat × Chip} {p : State → Prop}
    (he : exec i s = .next (after s (keepStatus (answer (connJudged c y).2 (connJudged c y).1 0) r (connJudged c y).1)))
    (hy : y = (stOK, d)) (hp : p (after s (keepStatus (answer d stOK 0) r stOK))) : AcceptedWith i s r p :=
  acceptedWith_after he ((congrArg (connJudged c) hy).trans (connJudged_ok c d)) hp

theorem refused_acted {i : Instr} {s : State} {r : Requester} {c d : Chip} {y : Nat × Chip} {n : Nat}
    (he : exec i s = .next (after s (keepStatus (answer (connJudged c y).2 (connJudged c y).1 0) r (connJudged c y).1)))
    (hy : y = (rejState, d)) (hd : desk c = desk s.toChip) (hc : conn c n = conn s.toChip n) :
    Answered i s r 0x21 s.toChip (fun t => conn t.toChip n = conn s.toChip n) :=
  answered_after he ((congrArg (connJudged c) hy).trans (connJudged_state c d)) hd ((conn_after s c r rejState n).trans hc)

/-- An action in partition 0 is judged on a chip that differs by the consumed unlock. -/
theorem connActions {s : State} {r : Requester} (h : Reaches s.toChip r .xpt)
    (hp : partOfConn s.toChip (bankFor s.toChip 0 .conn) = some 0) :
    ∃ c : Chip, SameForConn s.toChip c ∧ desk c = desk s.toChip ∧ ∀ (i : Instr) (k : Nat), k ∈ [1, 2, 4, 8, 16] →
      exec i s = .next (after s (mgmtWrite s.toChip r aXPT_CONN_CTRL (connAction s.toChip k))) →
      exec i s = .next (after s (keepStatus
        (answer (connJudged c (connActed c (bankFor s.toChip 0 .conn) k (connAction s.toChip k))).2
          (connJudged c (connActed c (bankFor s.toChip 0 .conn) k (connAction s.toChip k))).1 0) r
        (connJudged c (connActed c (bankFor s.toChip 0 .conn) k (connAction s.toChip k))).1)) :=
  ⟨setArmed s.toChip r .xpt false, sameForConn_setArmed .., desk_setArmed .., fun _ _ hk he => by
    rw [he, mgmtWrite_connCtrl h hp hk]⟩

/-- CONN_OPEN, CONN_CLOSE, CONN_RELEASE, CONN_MGMT and CONN_UNMGMT. -/
theorem connControls {s : State} {r : Requester} (h : Reaches s.toChip r .xpt) :
    let n := bankFor s.toChip 0 .conn
    let k := conn s.toChip n
    let q := regB s.toChip (queueOf s.toChip n) aEGR_Q_CFG
    partOfConn s.toChip n = some 0 →
    (k.state = .closed → isOn s.toChip .xpt = true → pathBusy s.toChip n = false → fld q 29 27 = 0 →
      bit q 30 = pathPeer s.toChip n → AcceptedWith (.connOpen r) s r (fun t =>
        (conn t.toChip n).state = .connecting ∧ (conn t.toChip n).local_ = true ∧
        (conn t.toChip n).txOpen.map (·.pkt.typ) = [7])) ∧
    (k.state ≠ .closed → Answered (.connOpen r) s r 0x21 s.toChip (fun t => conn t.toChip n = k)) ∧
    (k.state = .open → k.txWait = [] → AcceptedWith (.connClose r) s r (fun t =>
      (conn t.toChip n).state = .closing)) ∧
    (k.state ≠ .open → Answered (.connClose r) s r 0x21 s.toChip (fun t => conn t.toChip n = k)) ∧
    (k.state = .failed → AcceptedWith (.connRelease r) s r (fun t => conn t.toChip n = connReset)) ∧
    (k.state ≠ .failed → Answered (.connRelease r) s r 0x21 s.toChip (fun t => conn t.toChip n = k)) ∧
    (k.state = .open → k.mgmt = false → mgmtCount s.toChip < 16 → AcceptedWith (.connMgmt r) s r (fun t =>
      conn t.toChip n = { k with mgmt := true })) ∧
    (k.state = .open → k.mgmt = true → AcceptedWith (.connUnmgmt r) s r (fun t =>
      conn t.toChip n = { k with mgmt := false } ∧ bit (regB t.toChip n aXPT_CONN_CTRL) 9 = false)) := by
  intro n k q hpart
  obtain ⟨c, hsa, hda, hcmd⟩ := connActions h hpart
  have hkc : conn c n = conn s.toChip n := conn_of_xpt hsa.xpt n
  have he1 := hcmd (.connOpen r) 1 (by decide) rfl
  have he2 := hcmd (.connClose r) 2 (by decide) rfl
  have he4 := hcmd (.connRelease r) 4 (by decide) rfl
  have he8 := hcmd (.connMgmt r) 8 (by decide) rfl
  have he16 := hcmd (.connUnmgmt r) 16 (by decide) rfl
  rw [connActed_open] at he1
  rw [connActed_close, hkc] at he2
  rw [connActed_release] at he4
  rw [connActed_mgmt] at he8
  rw [connActed_unmgmt] at he16
  have hst := fun w => hsa.trans (sameForConn_stored c n w)
  have hd1 := hst (connAction s.toChip 1)
  have hk1 := conn_of_xpt hd1.xpt n
  have hk2 := conn_of_xpt (hst (connAction s.toChip 2)).xpt n
  have hk4 := conn_of_xpt (hst (connAction s.toChip 4)).xpt n
  have hd8 := hst (connAction s.toChip 8)
  have hk8 := conn_of_xpt hd8.xpt n
  have hk16 := conn_of_xpt (hst (connAction s.toChip 16)).xpt n
  clear hst hcmd
  generalize connCtrlStored c n (connAction s.toChip 1) = c1 at he1 hd1 hk1
  generalize connCtrlStored c n (connAction s.toChip 2) = c2 at he2 hk2
  generalize connCtrlStored c n (connAction s.toChip 4) = c4 at he4 hk4
  generalize connCtrlStored c n (connAction s.toChip 8) = c8 at he8 hd8 hk8
  generalize connCtrlStored c n (connAction s.toChip 16) = c16 at he16 hk16
  refine ⟨fun hs ho hb hq hp => ?_, fun hs => ?_, fun hs hw => ?_, fun hs => ?_, fun hs => ?_, fun hs => ?_, fun hs hm hn => ?_,
    fun hs hm => ?_⟩
  · have hqc : regB c1 (queueOf c1 n) aEGR_Q_CFG = q := by
      rw [queueOf, hd1.dest, hd1.regs _ _ (by decide) (by decide)]
      rfl
    obtain ⟨d, hy, e, v, w, hdn⟩ := connOpen_opens (c := c1) (n := n) (by rw [hk1]; exact hs) ((hd1.isOn _).trans ho)
      ((hd1.pathBusy n).trans hb) (by rw [hqc, hd1.partOfConn, hq]; exact hpart.symm) (by rw [hqc, hd1.pathPeer, hp])
    refine accepted_acted he1 hy ?_
    rw [conn_after, hdn]
    exact ⟨rfl, rfl, rfl⟩
  · exact refused_acted he1 (connOpen_refused (by rw [hk1]; exact hs)) hda hkc
  · refine accepted_acted he2 (if_pos hs) ?_
    rw [conn_after]
    exact connCloseOp_closes (by rw [hk2]; exact hw)
  · exact refused_acted he2 (if_neg hs) hda hkc
  · obtain ⟨d, hy, hd⟩ := connRelease_closes (c := c4) (n := n) (by rw [hk4]; exact hs)
    exact accepted_acted he4 hy ((conn_after ..).trans hd)
  · exact refused_acted he4 (connRelease_refused (by rw [hk4]; exact hs)) hda hkc
  · obtain ⟨d, hy, hd⟩ := connMgmt_designates (c := c8) (n := n) (by rw [hk8]; exact hs) (by rw [hk8]; exact hm)
      (by rw [mgmtCount, hd8.xpt]; exact hn)
    rw [hk8] at hd
    exact accepted_acted he8 hy ((conn_after ..).trans hd)
  · obtain ⟨d, hy, hd, hb⟩ := connUnmgmt_clears (c := c16) (n := n) (by rw [hk16]; exact hs) (by rw [hk16]; exact hm)
    rw [hk16] at hd
    exact accepted_acted he16 hy ⟨(conn_after ..).trans hd, by rw [regB_answered]; exact hb⟩

/-- Settles O39: a CONNECT, its answer, a CLOSE, the ends of a connection and the actions of CONN_CTRL each reach one
branch of their operation, which stores the connection as stated. -/
theorem connectionStates : Obligations.ConnectionStates := by
  unfold Obligations.ConnectionStates
  intro s ha
  exact ⟨fun l p m h1 h2 h3 _ h5 h6 h7 h8 h9 h10 => (connects ha l p h3 h5).1 m h1 h2 h6 h7 h8 h9 h10,
    fun l p h1 h2 _ h4 => (connects ha l p h2 h4).2 h1, fun l p => acksAndCloses ha l p, fun m => connectionsEnd ha m,
    fun r h => connControls h⟩

end Sys2Proof.Machine
end

section
/-! Figures apply, commit and wait, and a chip fault recovers (O32). -/

namespace Sys2Proof.Machine

open Sys2Proof.Safety

/-! ### What leaves FIG alone -/

theorem fig_of_quiet {c d : Chip} (h : quiet d = quiet c) : d.fig = c.fig := congrArg (·.fig) h

theorem fig_foldl {α : Type} (f : Chip → α → Chip) (h : ∀ c x, (f c x).fig = c.fig) (l : List α) (c : Chip) :
    (l.foldl f c).fig = c.fig := by
  induction l generalizing c with
  | nil => rfl
  | cons x r ih => exact (ih (f c x)).trans (h c x)

theorem fig_raise (c : Chip) (p : Page) (b : Nat) : (raise c p b).fig = c.fig := fig_of_quiet (quiet_raise c p b)

theorem fig_setFld (c : Chip) (a hi lo v : Nat) : (setFld c a hi lo v).fig = c.fig := fig_of_quiet (quiet_setFld c a hi lo v)

theorem fig_bump (c : Chip) (a n : Nat) : (bump c a n).fig = c.fig := fig_of_quiet (quiet_bump c a n)

theorem fig_bumpPair (c : Chip) (a n : Nat) : (bumpPair c a n).fig = c.fig := fig_of_quiet (quiet_bumpPair c a n)

theorem fig_setReg (c : Chip) (a : Nat) (v : Word) : (setReg c a v).fig = c.fig := fig_of_quiet (quiet_setReg c a v)

theorem fig_jput (c : Chip) (r : JRec) : (jput c r).fig = c.fig := by
  unfold jput
  dsimp only
  rw [fig_bumpPair]
  rfl

theorem fig_noteSpares (was : Nat) (c : Chip) : (noteSpares was c).fig = c.fig := by
  unfold noteSpares
  split
  · exact fig_raise ..
  · rfl

theorem fig_applyCut (c : Chip) : (applyCut c).fig = c.fig := by
  unfold applyCut
  split
  · rfl
  · dsimp only
    rw [fig_raise, fig_jput]

theorem fig_spareReaction (c : Chip) (was : Nat) : (spareReaction c was).fig = c.fig := by
  unfold spareReaction
  dsimp only
  split
  · exact fig_noteSpares was c
  · split
    · split
      · exact fig_noteSpares was c
      · rw [fig_raise, fig_setFld, fig_noteSpares]
    · split
      · rw [fig_applyCut]
        exact fig_noteSpares was c
      · exact fig_noteSpares was c

theorem fig_retire (c : Chip) (e : Nat) : (retire c e).fig = c.fig := by
  unfold retire
  dsimp only
  rw [fig_spareReaction, fig_raise, fig_bump, fig_jput]
  rfl

theorem fig_startErase (c : Chip) (e : Nat) : (startErase c e).fig = c.fig := by
  unfold startErase
  dsimp only
  rw [fig_noteSpares, fig_applyCut]
  split
  · split
    · rfl
    · rw [fig_jput]
      rfl
  · rfl

theorem fig_eraseIfDead (c : Chip) (l : Nat) : (eraseIfDead c l).fig = c.fig := by
  unfold eraseIfDead
  split
  · rfl
  · split
    · split
      · exact fig_retire ..
      · exact fig_startErase ..
    · rfl

theorem fig_flashFree (c : Chip) (a : Nat) : (flashFree c a).fig = c.fig := by
  have hd : (dropObject c a).fig = c.fig := by
    unfold dropObject
    dsimp only
    split
    · rw [fig_setFld, fig_eraseIfDead]
    · rw [fig_eraseIfDead]
  unfold flashFree flashFreeOf
  split
  · rfl
  · dsimp only
    split
    · rfl
    · split
      · rfl
      · split
        · rfl
        · exact hd

theorem fig_cancelWrite (c : Chip) (id : Nat) : (cancelWrite c id).fig = c.fig := by
  unfold cancelWrite
  split
  · rfl
  · exact fig_eraseIfDead ..

theorem fig_dropGddr (c : Chip) (i : Nat) : (dropGddr c i).fig = c.fig := by
  unfold dropGddr
  split
  · rfl
  · rfl

theorem fig_freeBlock (c : Chip) (i : Nat) : (freeBlock c i).fig = c.fig := by
  have hl : ∀ (d : Chip) (x : Ledger), (setLedger d i x).fig = d.fig := fun _ _ => rfl
  unfold freeBlock
  dsimp only
  rw [hl]
  split
  · exact fig_dropGddr ..
  · rw [fig_flashFree, fig_dropGddr]

theorem fig_evictClaim (c : Chip) (i : Nat) : (evictClaim c i).fig = c.fig := by
  unfold evictClaim releaseCopy
  split
  · exact fig_dropGddr (dropClaim c i) i
  · rfl

theorem fig_refAdjust (c : Chip) (seq i : Nat) (up : Bool) : (refAdjust c seq i up).fig = c.fig := by
  unfold refAdjust
  dsimp only
  split
  · rfl
  · split
    · rfl
    · split
      · exact fig_freeBlock ..
      · rfl

theorem fig_recount (c : Chip) (i : Nat) : (recount c i).fig = c.fig := rfl

theorem fig_putIndex (c : Chip) (i : Nat) : (putIndex c i).fig = c.fig := by
  unfold putIndex
  split
  · rfl
  · rfl

theorem fig_releaseAddr (c : Chip) (a : Nat) : (releaseAddr c a).fig = c.fig := by
  unfold releaseAddr
  split
  · rfl
  · rfl

theorem fig_releaseState (c : Chip) (i : Nat) : (releaseState c i).fig = c.fig := by
  unfold releaseState
  dsimp only
  split
  · rfl
  · rw [fig_releaseAddr, fig_releaseAddr, fig_releaseAddr]

/-- A chip with the durable image of a session freed. -/
def imageFreed (c : Chip) (i : Nat) : Chip :=
  match (body c i).image with
  | some a => flashFree c a
  | none => c

theorem fig_imageFreed (c : Chip) (i : Nat) : (imageFreed c i).fig = c.fig := by
  unfold imageFreed
  split
  · exact fig_flashFree ..
  · rfl

theorem releaseImage_eq (c : Chip) (i : Nat) : releaseImage c i =
    match (body c i).evict with
    | some (some w, none) => cancelWrite (imageFreed c i) w
    | some (_, some a) => if (body c i).image = some a then imageFreed c i else flashFree (imageFreed c i) a
    | _ => imageFreed c i := by
  unfold releaseImage imageFreed
  rfl

theorem fig_releaseImage (c : Chip) (i : Nat) : (releaseImage c i).fig = c.fig := by
  rw [releaseImage_eq]
  split
  · rw [fig_cancelWrite, fig_imageFreed]
  · split
    · exact fig_imageFreed ..
    · rw [fig_flashFree, fig_imageFreed]
  · exact fig_imageFreed ..

theorem fig_goCold (c : Chip) (i : Nat) : (goCold c i).fig = c.fig := by
  unfold goCold
  show ((body c i).claims.foldl evictClaim (releaseState c i)).fig = c.fig
  rw [fig_foldl _ fig_evictClaim, fig_releaseState]

theorem fig_enterFree (c : Chip) (seq i : Nat) : (enterFree c seq i).fig = c.fig := by
  unfold enterFree
  dsimp only
  rw [fig_putIndex]
  show ((body c i).blocks.foldl (fun c k => refAdjust c seq k.2 false)
    ((body c i).claims.foldl dropClaim (releaseImage (releaseState c i) i))).fig = c.fig
  rw [fig_foldl _ (fun c (k : Nat × Nat) => fig_refAdjust c seq k.2 false), fig_foldl dropClaim (fun _ _ => rfl), fig_releaseImage,
    fig_releaseState]

theorem fig_replaceTable (c : Chip) (i : Nat) (blocks : Tbl Nat) (claims : List Nat) :
    (replaceTable c i blocks claims).fig = c.fig := by
  unfold replaceTable
  show (((body c i).claims.filter (fun k => k ∉ claims)).foldl dropClaim
    ((claims.filter (fun k => k ∉ (body c i).claims)).foldl takeClaim c)).fig = c.fig
  rw [fig_foldl dropClaim (fun _ _ => rfl), fig_foldl takeClaim (fun _ _ => rfl)]

/-- An action of a figure leaves FIG. -/
theorem fig_applyAct (c : Chip) (seq : Nat) (f : Figure) (a : Action) : (applyAct c seq f a).fig = c.fig := by
  cases a with
  | kvAppend b n stage => rfl
  | blockRef refs =>
    unfold applyAct
    dsimp only
    rw [fig_recount, setBody_fig]
    refine fig_foldl _ (fun d k => ?_) _ c
    rw [setLedger_fig]
  | tableSet a blocks claims => exact fig_replaceTable c _ blocks claims
  | tokenEmit => rfl
  | countBatch => rfl
  | grammarSet => rfl
  | stopSet => rfl
  | dirSet sub fd v =>
    unfold applyAct
    dsimp only
    split
    · split
      · rw [fig_enterFree]
        rfl
      · split
        · rw [fig_goCold]
          rfl
        · split
          · exact fig_releaseImage ..
          · rfl
    · rfl
  | epochSet => rfl
  | exclSet => rfl
  | refAdjust k up => exact fig_refAdjust ..
  | regionSet g st =>
    unfold applyAct
    dsimp only
    split
    · rfl
    · cases st with
      | free =>
        dsimp only
        split
        · rfl
        · rfl
      | draining =>
        dsimp only
        split
        · exact fig_raise ..
        · rfl
      | active => rfl
  | regOverlay => rfl
  | ckptCommit e g => exact fig_setReg c _ e

/-! ### FIGURE_APPLY (R73) -/

theorem fig_markApplied (c : Chip) (seq : Nat) (f : Figure) : (markApplied c seq f).fig = c.fig := by
  unfold markApplied
  refine fig_foldl _ (fun d x => ?_) _ c
  cases x with
  | session i => rfl
  | region i => rfl
  | config => rfl
  | checkpoint => rfl

theorem entry_setEntry_self (c : Chip) (i : Nat) (e : Session) : entry (setEntry c i e) i = e := tget_tset_self ..

theorem entry_setEntry_other (c : Chip) {i j : Nat} (e : Session) (h : j ≠ i) : entry (setEntry c i e) j = entry c j :=
  tget_tset_other _ _ _ _ _ h

/-- The marker of one subject. -/
def markOne (seq : Nat) (c : Chip) (x : Subject) : Chip :=
  match x with
  | .session i => setEntry c i { entry c i with figSeq := seq, crcFlip := 0 }
  | _ => c

theorem markApplied_eq (c : Chip) (seq : Nat) (f : Figure) : markApplied c seq f = f.subjects.foldl (markOne seq) c := rfl

theorem figSeq_markOne_session (seq : Nat) (c : Chip) (i : Nat) : (entry (markOne seq c (.session i)) i).figSeq = seq :=
  congrArg (·.figSeq) (entry_setEntry_self c i { entry c i with figSeq := seq, crcFlip := 0 })

theorem figSeq_markOne_keeps {seq : Nat} {c : Chip} {i : Nat} (x : Subject) (h : (entry c i).figSeq = seq) :
    (entry (markOne seq c x) i).figSeq = seq := by
  cases x with
  | session j =>
    by_cases hj : i = j
    · rw [← hj]
      exact figSeq_markOne_session seq c i
    · exact (congrArg (·.figSeq) (entry_setEntry_other c _ hj)).trans h
  | region j => exact h
  | config => exact h
  | checkpoint => exact h

theorem figSeq_marks_keep {seq i : Nat} (l : List Subject) {c : Chip} (h : (entry c i).figSeq = seq) :
    (entry (l.foldl (markOne seq) c) i).figSeq = seq := by
  induction l generalizing c with
  | nil => exact h
  | cons x r ih => exact ih (figSeq_markOne_keeps x h)

theorem figSeq_marks {seq i : Nat} {l : List Subject} (h : Subject.session i ∈ l) (c : Chip) :
    (entry (l.foldl (markOne seq) c) i).figSeq = seq := by
  induction l generalizing c with
  | nil => cases h
  | cons x r ih =>
    rcases List.mem_cons.mp h with rfl | h
    · exact figSeq_marks_keep r (figSeq_markOne_session seq c i)
    · exact ih h _

/-- The oldest committed figure is applied. -/
theorem applyOne_applies {c : Chip} {k : Committed} {r : List Committed} (h : c.fig.committed = k :: r) :
    (applyOne c).fig = { c.fig with
      committed := r
      applied := k.seq
      logUsed := c.fig.logUsed - k.units
      logTail := (c.fig.logTail + k.units) % 32768
      staged := c.fig.staged - k.fig.staged } ∧
    ∀ i, Subject.session i ∈ k.fig.subjects → (entry (applyOne c) i).figSeq = k.seq := by
  have hd : ∀ d : Chip, d.fig = { c.fig with committed := r } →
      (markApplied (k.fig.acts.foldl (fun c a => applyAct c k.seq k.fig a) d) k.seq k.fig).fig = { c.fig with committed := r } :=
    fun d hd => (fig_markApplied ..).trans ((fig_foldl _ (fun c a => fig_applyAct c k.seq k.fig a) _ _).trans hd)
  have hm := fun (d : Chip) i (hi : Subject.session i ∈ k.fig.subjects) =>
    (congrArg (fun e => (entry e i).figSeq) (markApplied_eq d k.seq k.fig)).trans (figSeq_marks hi d)
  unfold applyOne
  rw [h]
  dsimp only
  have h3 := hd { c with fig := { c.fig with committed := r } } rfl
  have h4 := hm (k.fig.acts.foldl (fun c a => applyAct c k.seq k.fig a) { c with fig := { c.fig with committed := r } })
  generalize markApplied _ k.seq k.fig = e at h3 h4
  refine ⟨?_, h4⟩
  rw [h3]

theorem applyOne_none {c : Chip} (h : c.fig.committed = []) : applyOne c = c := by
  unfold applyOne
  rw [h]

/-! ### FIG_STALL_RELEASE (R71, R75) -/

/-- FIG's own state, the operations, revivals and heap requests. -/
def openWork (c : Chip) : FigUnit × Tbl (List Op) × List Revival × List Nat :=
  (c.fig, c.sess.ops, c.tier.revivals, c.tier.pressing)

theorem openWork_of_quiet {c d : Chip} (h : quiet d = quiet c) : openWork d = openWork c := by
  have := congrArg openWork h
  exact this

theorem openWork_sendOut (c : Chip) (n : Nat) (m : OutMsg) (seq : Nat) : openWork (sendOut c n m seq) = openWork c := by
  cases m with
  | comp r => exact openWork_of_quiet (quiet_sendMsg ..)
  | out r => exact openWork_of_quiet (quiet_sendMsg ..)
  | raw cls b => exact openWork_of_quiet (quiet_sendMsg ..)

/-- What follows a commit leaves FIG, where no operation is in progress. -/
theorem openWork_afterOne {c : Chip} (seq : Nat) (a : After) (h : c.sess.ops = []) :
    openWork (afterOne c seq a) = openWork c := by
  have hn : ∀ i, opsOf c i = [] := fun i => by
    rw [opsOf, h]
    rfl
  cases a with
  | send n m => exact openWork_sendOut ..
  | opDone i st =>
    unfold afterOne endOp
    dsimp only
    rw [hn]
  | takeIndex i =>
    unfold afterOne takeIndex
    dsimp only
    split
    · rfl
    · split
      · rfl
      · split
        · rfl
        · rfl
  | takeRegion i =>
    unfold afterOne takeRegion
    dsimp only
    split
    · rfl
    · rfl
  | cutRecord r => rfl
  | intEvent p b => exact openWork_of_quiet (quiet_raise ..)
  | opUpdate i o =>
    unfold afterOne
    dsimp only
    rw [hn]
  | opTrim i =>
    unfold afterOne
    dsimp only
    rw [hn, setOps, h]
    show (c.fig, ([] : Tbl (List Op)), c.tier.revivals, c.tier.pressing) = _
    rw [openWork, h]
  | opFig i =>
    unfold afterOne
    dsimp only
    rw [hn]

theorem openWork_afters (seq : Nat) (l : List After) {c : Chip} (h : c.sess.ops = []) :
    openWork (l.foldl (fun d a => afterOne d seq a) c) = openWork c := by
  induction l generalizing c with
  | nil => rfl
  | cons a r ih =>
    have ha := openWork_afterOne seq a h
    exact (ih ((congrArg (·.2.1) ha).trans h)).trans ha

/-- A figure commits where no operation is in progress. -/
theorem commitFig_commits {c : Chip} (f : Figure) (h : c.sess.ops = []) :
    FigAfter c f (commitFig c f).fig ∧ (commitFig c f).sess.ops = [] ∧
    (commitFig c f).tier.revivals = c.tier.revivals ∧ (commitFig c f).tier.pressing = c.tier.pressing := by
  have hm : CommitMoved c (logFills (stamped c) (commitCounted (figLogged c f) (takeFree c).1)) f :=
    (commitCounted_moved c f _).fills
  rw [commitFig_eq]
  generalize logFills (stamped c) (commitCounted (figLogged c f) (takeFree c).1) = d at hm
  have hs : d.sess = c.sess := congrArg (·.sess) hm.quiet
  have ht : d.tier = c.tier := congrArg (·.tier) hm.quiet
  have hw := openWork_afters (c.fig.seq + 1) f.after (c := d) (by rw [hs]; exact h)
  generalize f.after.foldl (fun d a => afterOne d (c.fig.seq + 1) a) d = e at hw
  have hf : e.fig = d.fig := congrArg (·.1) hw
  refine ⟨by rw [hf]; exact hm.fig, ?_, ?_, ?_⟩
  · exact (congrArg (·.2.1) hw).trans (show d.sess.ops = [] by rw [hs]; exact h)
  · exact (congrArg (·.2.2.1) hw).trans (show d.tier.revivals = _ by rw [ht])
  · exact (congrArg (·.2.2.2) hw).trans (show d.tier.pressing = _ by rw [ht])

/-- FIGURE_APPLY. -/
theorem figureApplies {s : State} (ha : Awake s.toChip) :
    (s.fig.committed = [] → exec .figureApply s = .next (after s s.toChip)) ∧
    (∀ k r, s.fig.committed = k :: r → Completes .figureApply s (fun t => t.fig.committed = r ∧ t.fig.applied = k.seq ∧
      t.fig.seq = s.fig.seq ∧ t.fig.waiting = s.fig.waiting ∧ t.fig.logUsed = s.fig.logUsed - k.units ∧
      t.fig.logTail = (s.fig.logTail + k.units) % 32768 ∧ t.fig.staged = s.fig.staged - k.fig.staged ∧
      ∀ i, Subject.session i ∈ k.fig.subjects → (entry t.toChip i).figSeq = k.seq)) := by
  have he : exec .figureApply s = act s (fun c => whenAwake c applyOne) := rfl
  rw [act_whenAwake ha] at he
  refine ⟨fun h => ?_, fun k r h => ?_⟩
  · rw [he, applyOne_none h]
  · obtain ⟨h1, h2⟩ := applyOne_applies h
    generalize applyOne s.toChip = d at he h1 h2
    exact ⟨_, he, after_pending _ _, congrArg (·.committed) h1, congrArg (·.applied) h1, congrArg (·.seq) h1,
      congrArg (·.waiting) h1, congrArg (·.logUsed) h1, congrArg (·.logTail) h1, congrArg (·.staged) h1, h2⟩

theorem numbered_single {α : Type} (a : α) : numbered [a] = [(0, a)] := rfl

/-- The only waiting figure commits when it can open. -/
theorem releaseWaitingN_commits {c : Chip} {f : Figure} (hw : c.fig.waiting = [f]) (h : canOpen c f = true) :
    releaseWaitingN 1 c = commitFig { c with fig := { c.fig with waiting := [] } } f := by
  have hd : dropFirst (fun g => decide (g = f)) [f] = [] := by rw [dropFirst, if_pos (decide_eq_true rfl)]
  unfold releaseWaitingN
  rw [hw, numbered_single]
  simp only [List.find?_cons, h, List.take_zero, List.all_nil, Bool.and_true, Option.map_some, hd]
  rfl

theorem releaseWaitingN_waits {c : Chip} {f : Figure} (hw : c.fig.waiting = [f]) (h : canOpen c f = false) :
    releaseWaitingN 1 c = c := by
  unfold releaseWaitingN
  rw [hw, numbered_single]
  simp only [List.find?_cons, h, Bool.false_and, List.find?_nil, Option.map_none]

theorem stallDue_single {c : Chip} {f : Figure} (hw : c.fig.waiting = [f]) :
    stallDue c = if (figOpens c && !f.stalled && !figRoom c f) = true then some 0 else none := by
  unfold stallDue
  rw [hw, numbered_single]
  cases hb : (figOpens c && !f.stalled && !figRoom c f) with
  | true => simp only [List.find?_cons, hb, List.take_zero, List.all_nil, Bool.and_true, Option.map_some, if_true]
  | false => simp only [List.find?_cons, hb, Bool.false_and, List.find?_nil, Option.map_none, Bool.false_eq_true, if_false]

/-- FIG_STALL_RELEASE with one waiting figure. -/
theorem stallReleases {s : State} (ha : Awake s.toChip) (f : Figure) (hw : s.fig.waiting = [f]) (ho : s.sess.ops = [])
    (hr : s.tier.revivals = []) (hp : s.tier.pressing = []) :
    (canOpen s.toChip f = true → Completes .figStallRelease s (fun t => t.fig.waiting = [] ∧
      t.fig.seq = s.fig.seq + 1 ∧ (∃ k, t.fig.committed = s.fig.committed ++ [k] ∧ k.seq = s.fig.seq + 1 ∧ k.fig = f ∧
        k.units = figUnits f) ∧
      t.fig.logUsed = s.fig.logUsed + figUnits f ∧ t.fig.staged = s.fig.staged + f.staged)) ∧
    (figOpens s.toChip = false ∨ (figRoom s.toChip f = false ∧ f.stalled = true) →
      exec .figStallRelease s = .next (after s s.toChip)) ∧
    (figOpens s.toChip = true → figRoom s.toChip f = false → f.stalled = false → Completes .figStallRelease s (fun t =>
      t.fig = { s.fig with waiting := [{ f with stalled := true }] } ∧ Counted s t aFIG_STALL_CNT 1)) := by
  have he : exec .figStallRelease s = act s (fun c => whenAwake c (fun c => kick (releaseWaiting c))) := rfl
  rw [act_whenAwake ha] at he
  have hcan : canOpen s.toChip f = (figOpens s.toChip && figRoom s.toChip f) := rfl
  have hrel : releaseWaiting s.toChip = countStalls (releaseWaitingN 1 s.toChip).fig.waiting.length (releaseWaitingN 1 s.toChip) := by
    unfold releaseWaiting
    rw [hw]
    rfl
  have hstall : canOpen s.toChip f = false → releaseWaiting s.toChip = countStalls 1 s.toChip := fun h => by
    rw [hrel, releaseWaitingN_waits hw h, hw]
    rfl
  refine ⟨fun h => ?_, fun h => ?_, fun h1 h2 h3 => ?_⟩
  · rw [hrel, releaseWaitingN_commits hw h] at he
    obtain ⟨hf, h1, h2, h3⟩ := commitFig_commits (c := { s.toChip with fig := { s.fig with waiting := [] } }) f ho
    generalize commitFig { s.toChip with fig := { s.fig with waiting := [] } } f = d at he hf h1 h2 h3
    obtain ⟨hseq, ⟨k, k1, k2, k3, k4⟩, hwait, -, hlog, hst⟩ := hf
    have hk : countStalls d.fig.waiting.length d = d := by rw [hwait]; rfl
    rw [hk, kick_idle h1 (h2.trans hr) (h3.trans hp)] at he
    exact ⟨_, he, after_pending _ _, hwait, hseq, ⟨k, k4, k1, k2, k3⟩, hlog, hst⟩
  · have hno : canOpen s.toChip f = false := by
      rw [hcan]
      rcases h with h | ⟨h, -⟩
      · rw [h]
        rfl
      · rw [h, Bool.and_false]
    have hd : stallDue s.toChip = none := by
      rw [stallDue_single hw, if_neg]
      rcases h with h | ⟨-, h⟩
      · rw [h]
        exact Bool.false_ne_true
      · rw [h, Bool.not_true, Bool.and_false, Bool.false_and]
        exact Bool.false_ne_true
    have hk : countStalls 1 s.toChip = s.toChip := by
      unfold countStalls
      rw [hd]
    rw [he, hstall hno, hk, kick_idle ho hr hp]
  · have hno : canOpen s.toChip f = false := by rw [hcan, h2, Bool.and_false]
    have hd : stallDue s.toChip = some 0 := by
      rw [stallDue_single hw, h1, h2, h3]
      rfl
    have hk : countStalls 1 s.toChip = bump { s.toChip with fig := { s.fig with waiting := [{ f with stalled := true }] } }
        aFIG_STALL_CNT 1 := by
      unfold countStalls
      rw [hd]
      dsimp only
      rw [hw]
      rfl
    rw [hstall hno, hk] at he
    have hq := quiet_bump { s.toChip with fig := { s.fig with waiting := [{ f with stalled := true }] } } aFIG_STALL_CNT 1
    have hc := toNat_reg_bump { s.toChip with fig := { s.fig with waiting := [{ f with stalled := true }] } } aFIG_STALL_CNT 1
    generalize bump { s.toChip with fig := { s.fig with waiting := [{ f with stalled := true }] } } aFIG_STALL_CNT 1 = d
      at he hq hc
    have hsess : d.sess = s.sess := congrArg (·.sess) hq
    have htier : d.tier = s.tier := congrArg (·.tier) hq
    rw [kick_idle (by rw [hsess]; exact ho) (by rw [htier]; exact hr) (by rw [htier]; exact hp)] at he
    refine ⟨_, he, after_pending _ _, fig_of_quiet hq, ?_⟩
    rw [Counted, reg_after, hc]
    rfl

/-! ### The chip fault (R82, R236) -/

/-- A chip of which only core `n` was stopped: no test waits, and no core is due to be LAME. -/
structure CoreMoved (c d : Chip) (n : Nat) : Prop where
  grid : ∃ g, d = { c with grid := g }
  tests : d.grid.tests = []
  due : ∀ m, (coreAt d m).lameDue = false
  other : ∀ m, m ≠ n → coreAt d m = coreAt c m

theorem CoreMoved.setCore {c d : Chip} {n : Nat} (h : CoreMoved c d n) {k : Core} (hk : k.lameDue = false) :
    CoreMoved c (Machine.setCore d n k) n := by
  obtain ⟨⟨g, hg⟩, ht, hd, ho⟩ := h
  refine ⟨⟨{ g with cores := tset coreReset g.cores n k }, by rw [hg]; rfl⟩, ht, fun m => ?_, fun m hm => ?_⟩
  · by_cases hm : m = n
    · rw [hm, coreAt_setCore, hk]
    · rw [coreAt_setCore_other _ _ _ _ hm, hd]
  · rw [coreAt_setCore_other _ _ _ _ hm, ho m hm]

theorem runTests_none {c : Chip} (h : c.grid.tests = []) : runTests c = c := by
  unfold runTests
  rw [h]
  rfl

/-- Stopping one core, where no test waits and no core is due to be LAME. -/
theorem stopCore_moves {c : Chip} (n : Nat) (ht : c.grid.tests = []) (hl : ∀ m, (coreAt c m).lameDue = false) :
    CoreMoved c (stopCore true c n) n ∧
    ((coreAt c n).state = .free ∨ (coreAt c n).state = .busy → (coreAt (stopCore true c n) n).state = .free) := by
  have h0 : CoreMoved c c n := ⟨⟨c.grid, rfl⟩, ht, hl, fun _ _ => rfl⟩
  obtain ⟨d, hd, hm, hs⟩ : ∃ d, (if (coreAt c n).queued.isEmpty then c else setCore c n { coreAt c n with queued := [] }) = d ∧
      CoreMoved c d n ∧ (coreAt d n).state = (coreAt c n).state := by
    refine ⟨_, rfl, ?_, ?_⟩
    · split
      · exact h0
      · exact h0.setCore (hl n)
    · split
      · rfl
      · rw [coreAt_setCore]
  unfold stopCore
  dsimp only
  rw [hd, hl n]
  cases hst : (coreAt c n).state with
  | busy =>
    refine ⟨hm.setCore rfl, fun _ => ?_⟩
    dsimp only
    rw [if_neg Bool.false_ne_true, coreAt_setCore]
  | draining =>
    refine ⟨?_, fun x => by rcases x with x | x <;> cases x⟩
    dsimp only
    split
    · exact hm.setCore rfl
    · rw [if_pos rfl, if_neg Bool.false_ne_true, runTests_none (hm.setCore rfl).tests]
      exact hm.setCore rfl
  | free => exact ⟨hm, fun _ => hs.trans hst⟩
  | off => exact ⟨hm, fun x => by rcases x with x | x <;> cases x⟩
  | testing => exact ⟨hm, fun x => by rcases x with x | x <;> cases x⟩
  | lame => exact ⟨hm, fun x => by rcases x with x | x <;> cases x⟩
  | faulted => exact ⟨hm, fun x => by rcases x with x | x <;> cases x⟩

/-- Stopping cores moves nothing but them; the FREE ones stay FREE, the BUSY ones among them become FREE. -/
theorem stopCores_moves (l : List Nat) {c : Chip} (ht : c.grid.tests = []) (hl : ∀ m, (coreAt c m).lameDue = false) :
    (∃ g, l.foldl (stopCore true) c = { c with grid := g }) ∧
    (∀ m, (coreAt c m).state = .free ∨ ((coreAt c m).state = .busy ∧ m ∈ l) →
      (coreAt (l.foldl (stopCore true) c) m).state = .free) := by
  induction l generalizing c with
  | nil => exact ⟨⟨c.grid, rfl⟩, fun m h => h.elim id (fun x => absurd x.2 (List.not_mem_nil))⟩
  | cons n r ih =>
    obtain ⟨⟨⟨g, hg⟩, ht', hl', ho⟩, hs⟩ := stopCore_moves n ht hl
    obtain ⟨⟨g', hg'⟩, hf⟩ := ih ht' hl'
    rw [List.foldl_cons]
    refine ⟨⟨g', by rw [hg', hg]⟩, fun m h => hf m ?_⟩
    by_cases hm : m = n
    · rw [hm] at h ⊢
      exact .inl (hs (h.imp id (·.1)))
    · rw [ho m hm]
      exact h.imp id (fun x => ⟨x.1, (List.mem_cons.mp x.2).resolve_left hm⟩)

theorem tfind_unlisted {α : Type} {t : Tbl α} {k : Nat} (h : k ∉ t.map (·.1)) : tfind t k = none := by
  induction t with
  | nil => rfl
  | cons e r ih =>
    obtain ⟨j, v⟩ := e
    rw [List.map_cons, List.mem_cons, not_or] at h
    rw [tfind, if_neg (Ne.symm h.1), ih h.2]

theorem mem_cores_of_busy {c : Chip} {n : Nat} (h : (coreAt c n).state = .busy) : n ∈ c.grid.cores.map (·.1) := by
  by_contra hn
  have hf := tfind_unlisted hn
  rw [coreAt, tget, hf] at h
  cases h

/-- What the end of every operation leaves of a chip without any. -/
def endedLost (c : Chip) : Chip :=
  { c with
    sec := { c.sec with attest := [] }
    sess := { c.sess with bodies := c.sess.bodies.map (fun b =>
      if (entry c b.1).state = .ended then b else (b.1, { b.2 with secure := false, ckptWait := 0 })) }
    cuts := c.cuts.map (fun r => if r.state = .converting then { r with state := .handoffIn } else r) }

theorem endLost_none {c : Chip} (ho : c.sess.ops = []) (hr : c.tier.revivals = []) (hq : c.srch.queries = [])
    (hd : c.srch.deletes = []) (hl : c.srch.loads = []) (ha : c.sec.attest = []) : endLost c = endedLost c := by
  have hs : endSearches c (fun _ => true) stAbortFault = c := by
    unfold endSearches
    rw [hq]
    dsimp only [List.filter_nil, List.foldl_nil]
    rw [hd]
    rfl
  have he : endOther c = { c with sec := { c.sec with attest := [] } } := by
    unfold endOther
    rw [hs]
    dsimp only
    rw [hl]
    dsimp only [List.foldl_nil]
    rw [ha]
    rfl
  unfold endLost
  extract_lets c1 c2
  have h1 : c1 = c := by
    show (c.sess.ops.map (·.1)).foldl (fun c i => endAllOps c stAbortFault i) c = c
    rw [ho]
    rfl
  have h2 : c2 = { c with sec := { c.sec with attest := [] } } := by
    show (c1.tier.revivals.map (·.idx)).foldl abandonRevival (endOther c1) = _
    rw [h1, hr, he]
    rfl
  clear_value c2
  subst h2
  rfl

theorem voidOpen_none {c : Chip} (h : c.fig.waiting = []) : voidOpen c = c := by
  unfold voidOpen
  rw [h]
  dsimp only [List.filter_nil, List.map_nil, List.foldl_nil]
  have hf : ({ c.fig with waiting := [] } : FigUnit) = c.fig := h ▸ rfl
  exact congrArg (fun g : FigUnit => { c with fig := g }) hf

theorem dropSteps_none {c : Chip} (h : noSteps c) (l : List Nat) : l.foldl (fun c p => dropStep c p none) c = c := by
  induction l with
  | nil => rfl
  | cons p r ih =>
    have hd : dropStep c p none = c := by
      unfold dropStep
      rw [h p]
    rw [List.foldl_cons, hd, ih]

/-- A chip whose chip fault has begun to be handled. -/
def faultTaken (c : Chip) : Chip :=
  { c with flt := { c.flt with chipPending := false }, sched := { c.sched with stopped := true } }

/-- A chip whose cores are stopped. -/
def coresStopped (c : Chip) : Chip := (c.grid.cores.map (·.1)).foldl (stopCore true) c

/-- The replay of a recovery. -/
def replayed (d : Chip) (l u : List Nat) : Chip × Nat × List Committed :=
  replayN d.fig.committed.length l u (voidOpen d, 0, [])

/-- What follows the replay of a recovery. -/
def afterReplay (x : Chip × Nat × List Committed) (time : Nat) : Chip :=
  let c5 := x.2.2.foldl (fun c k => (k.fig.subjects.take 1).foldl (hurtSubject k) c) x.1
  let c6 := endLost (replayRecord c5 x.2.1 (!x.2.2.isEmpty) time)
  kick (settle (releaseWaiting (((x.2.2.flatMap hurtSessions).dedup).foldl damageNamed c6)))

theorem recoverChip_eq (c : Chip) (l u : List Nat) (time : Nat) :
    recoverChip c l u time =
      afterReplay (replayed (coresStopped (parts8.foldl (fun c p => dropStep c p none) (faultTaken c))) l u) time := by
  unfold recoverChip
  extract_lets f q c0 c1 c3
  have h1 : c1 = parts8.foldl (fun c p => dropStep c p none) (faultTaken c) := rfl
  have h3 : c3 = coresStopped c1 := rfl
  clear_value c3 c1
  subst h3 h1
  generalize coresStopped (parts8.foldl (fun c p => dropStep c p none) (faultTaken c)) = d
  unfold replayed
  generalize replayN d.fig.committed.length l u (voidOpen d, 0, []) = x
  obtain ⟨c4, done, hurt⟩ := x
  dsimp only [afterReplay]

theorem afterReplay_none (d : Chip) (time : Nat) :
    afterReplay (d, 0, []) time = kick (settle (releaseWaiting (endLost (replayRecord d 0 false time)))) := rfl

theorem quiet_replayRecord (d : Chip) (time : Nat) : quiet (replayRecord d 0 false time) = quiet d := by
  unfold replayRecord
  rw [quiet_raises, quiet_setReg, quiet_setReg]

/-- What ends a recovery is idle where nothing waits. -/
theorem afterReplay_idle {d : Chip} (time : Nat) (hw : Quiescent d) (hq : d.srch.queries = []) (hdel : d.srch.deletes = [])
    (hl : d.srch.loads = []) (ha : d.sec.attest = []) :
    afterReplay (d, 0, []) time = endedLost (replayRecord d 0 false time) := by
  obtain ⟨h1, h2, h3, h4, h5⟩ := hw
  have hqr := quiet_replayRecord d time
  rw [afterReplay_none]
  generalize replayRecord d 0 false time = e at hqr
  have hfig : e.fig = d.fig := congrArg (·.fig) hqr
  have hsess : e.sess = d.sess := congrArg (·.sess) hqr
  have htier : e.tier = d.tier := congrArg (·.tier) hqr
  have hsrch : e.srch = d.srch := congrArg (·.srch) hqr
  have hsec : e.sec = d.sec := congrArg (·.sec) hqr
  rw [endLost_none (by rw [hsess]; exact h3) (by rw [htier]; exact h4) (by rw [hsrch]; exact hq) (by rw [hsrch]; exact hdel)
    (by rw [hsrch]; exact hl) (by rw [hsec]; exact ha)]
  have hf : (endedLost e).fig = e.fig := rfl
  have ho : (endedLost e).sess.ops = e.sess.ops := rfl
  have ht : (endedLost e).tier = e.tier := rfl
  generalize endedLost e = x at hf ho ht
  rw [releaseWaiting_none (by rw [hf, hfig]; exact h2), settle_idle (by rw [hf, hfig]; exact h1),
    kick_idle (by rw [ho, hsess]; exact h3) (by rw [ht, htier]; exact h4) (by rw [ht, htier]; exact h5)]

/-- A recovery with nothing open stops the cores and records itself. -/
theorem recoverChip_idle {c : Chip} (l u : List Nat) (time : Nat) (hi : FigIdle c) (hs : noSteps c)
    (hq : c.srch.queries = []) (hdel : c.srch.deletes = []) (hl : c.srch.loads = []) (ha : c.sec.attest = [])
    (hg : ∃ g, coresStopped (faultTaken c) = { faultTaken c with grid := g }) :
    recoverChip c l u time = endedLost (replayRecord (coresStopped (faultTaken c)) 0 false time) := by
  have hc1 : parts8.foldl (fun c p => dropStep c p none) (faultTaken c) = faultTaken c :=
    dropSteps_none (c := faultTaken c) (fun p => hs p) _
  rw [recoverChip_eq, hc1]
  generalize coresStopped (faultTaken c) = d at hg
  obtain ⟨g, hg⟩ := hg
  obtain ⟨⟨h1, h2, h3, h4, h5⟩, -, -⟩ := hi
  have hfig : d.fig = c.fig := hg ▸ rfl
  have hsess : d.sess = c.sess := hg ▸ rfl
  have htier : d.tier = c.tier := hg ▸ rfl
  have hsrch : d.srch = c.srch := hg ▸ rfl
  have hsec : d.sec = c.sec := hg ▸ rfl
  have hrep : replayed d l u = (d, 0, []) := by
    rw [replayed, voidOpen_none (by rw [hfig]; exact h2), hfig, h1]
    rfl
  rw [hrep]
  exact afterReplay_idle time ⟨by rw [hfig]; exact h1, by rw [hfig]; exact h2, by rw [hsess]; exact h3,
    by rw [htier]; exact h4, by rw [htier]; exact h5⟩ (by rw [hsrch]; exact hq) (by rw [hsrch]; exact hdel)
    (by rw [hsrch]; exact hl) (by rw [hsec]; exact ha)

/-- What the record of a recovery leaves, and what it stores. -/
theorem replayRecord_records (d : Chip) (time : Nat) :
    quiet (replayRecord d 0 false time) = quiet d ∧ (replayRecord d 0 false time).flt = d.flt ∧
    reg (replayRecord d 0 false time) aFIG_REPLAY = 0 ∧ reg (replayRecord d 0 false time) aFIG_REPLAY_TIME = w32 time ∧
    reg (replayRecord d 0 false time) aFIG_ABORT_CNT = reg d aFIG_ABORT_CNT ∧
    bit (hdr (replayRecord d 0 false time) .fig).int 16 = true := by
  have he : replayRecord d 0 false time =
    raises (setReg (setReg d aFIG_REPLAY (w32 0)) aFIG_REPLAY_TIME (w32 time)) [(.fig, 16)] := rfl
  rw [he]
  have hq : quiet (setReg (setReg d aFIG_REPLAY (w32 0)) aFIG_REPLAY_TIME (w32 time)) = quiet d := by
    rw [quiet_setReg, quiet_setReg]
  have hflt : (setReg (setReg d aFIG_REPLAY (w32 0)) aFIG_REPLAY_TIME (w32 time)).flt = d.flt :=
    (setKey_flt ..).trans (setKey_flt ..)
  have h1 : reg (setReg (setReg d aFIG_REPLAY (w32 0)) aFIG_REPLAY_TIME (w32 time)) aFIG_REPLAY = 0 := by
    rw [reg_setReg_other _ _ (by decide), reg_setReg_self]
    rfl
  have h2 : reg (setReg (setReg d aFIG_REPLAY (w32 0)) aFIG_REPLAY_TIME (w32 time)) aFIG_REPLAY_TIME = w32 time :=
    reg_setReg_self ..
  have h3 : reg (setReg (setReg d aFIG_REPLAY (w32 0)) aFIG_REPLAY_TIME (w32 time)) aFIG_ABORT_CNT = reg d aFIG_ABORT_CNT := by
    rw [reg_setReg_other _ _ (by decide), reg_setReg_other _ _ (by decide)]
  generalize setReg (setReg d aFIG_REPLAY (w32 0)) aFIG_REPLAY_TIME (w32 time) = e at hq hflt h1 h2 h3
  have hk := keepsRegs_raises e [(.fig, 16)]
  have hev : bit (hdr (raises e [(.fig, 16)]) .fig).int 16 = true := raises_int (by decide) (by simp)
  have hfl : (raises e [(.fig, 16)]).flt = e.flt := flt_of_mute (mute_raises ..)
  have hqr := quiet_raises e [(.fig, 16)]
  generalize raises e [(.fig, 16)] = f at hk hev hfl hqr
  exact ⟨hqr.trans hq, hfl.trans hflt, (hk.reg (by decide)).trans h1, (hk.reg (by decide)).trans h2,
    (hk.reg (by decide)).trans h3, hev⟩

/-- CHIP_FAULT. -/
theorem chipFaults {s : State} (ha : Awake s.toChip) (l u : List DWord) (time : BitVec 16) :
    (s.flt.chipPending = false → exec (.chipFault l u time) s = .next (after s s.toChip)) ∧
    (s.flt.chipPending = true → FigIdle s.toChip → noSteps s.toChip → s.srch.queries = [] →
      s.srch.deletes = [] → s.srch.loads = [] → s.sec.attest = [] → s.grid.tests = [] →
      (∀ n, (coreAt s.toChip n).lameDue = false) → Completes (.chipFault l u time) s (fun t => t.flt.chipPending = false ∧
        t.sched.stopped = true ∧ reg t.toChip aFIG_REPLAY = 0 ∧ (reg t.toChip aFIG_REPLAY_TIME).toNat = time.toNat ∧
        Event t .fig 16 ∧ reg t.toChip aFIG_ABORT_CNT = reg s.toChip aFIG_ABORT_CNT ∧ t.fig.seq = s.fig.seq ∧
        ∀ n, (coreAt s.toChip n).state = .busy → (coreAt t.toChip n).state = .free)) := by
  have he : exec (.chipFault l u time) s = act s (fun c => whenAwake c (fun c => chipFault c l u time.toNat)) := rfl
  rw [act_whenAwake ha] at he
  refine ⟨fun h => ?_, fun hp hi hs hq hdel hl hat ht hdue => ?_⟩
  · rw [he, chipFault, h]
    rfl
  · have hr : chipFault s.toChip l u time.toNat = recoverChip s.toChip (l.map (·.toNat)) (u.map (·.toNat)) time.toNat :=
      if_pos hp
    obtain ⟨⟨g, hg⟩, hfree⟩ := stopCores_moves (s.grid.cores.map (·.1)) (c := faultTaken s.toChip) ht hdue
    rw [hr, recoverChip_idle _ _ _ hi hs hq hdel hl hat ⟨g, hg⟩] at he
    have hfree' : ∀ n, (coreAt s.toChip n).state = .busy → (coreAt (coresStopped (faultTaken s.toChip)) n).state = .free :=
      fun n hn => hfree n (.inr ⟨hn, mem_cores_of_busy hn⟩)
    have hst : coresStopped (faultTaken s.toChip) = { faultTaken s.toChip with grid := g } := hg
    clear hfree hg
    generalize coresStopped (faultTaken s.toChip) = c at he hfree' hst
    have hflt : c.flt.chipPending = false := hst ▸ rfl
    have hsch : c.sched.stopped = true := hst ▸ rfl
    have hf : c.fig = s.fig := hst ▸ rfl
    have hab : reg c aFIG_ABORT_CNT = reg s.toChip aFIG_ABORT_CNT := hst ▸ rfl
    obtain ⟨h1, h2, h3, h4, h5, h6⟩ := replayRecord_records c time.toNat
    generalize replayRecord c 0 false time.toNat = d at he h1 h2 h3 h4 h5 h6
    have hgrid : Chip.grid d = c.grid := congrArg (·.grid) h1
    have hsched : Chip.sched d = c.sched := congrArg (·.sched) h1
    have hfig : Chip.fig d = s.fig := (congrArg (·.fig) h1).trans hf
    refine ⟨_, he, after_pending _ _, (congrArg (·.chipPending) h2).trans hflt, (congrArg (·.stopped) hsched).trans hsch, h3, ?_, h6, h5.trans hab,
      congrArg (·.seq) hfig, fun n hn => ?_⟩
    · refine (congrArg BitVec.toNat h4).trans ?_
      exact Nat.mod_eq_of_lt (by omega)
    · have hc : coreAt (after s (endedLost d)).toChip n = coreAt c n :=
        congrArg (fun x : GridUnit => tget coreReset x.cores n) hgrid
      rw [hc]
      exact hfree' n hn

/-- SCHED_RESUME. -/
theorem schedResumes {s : State} (ha : Awake s.toChip) :
    (s.sched.stopped = true → s.flt.chipPending = false → FigIdle s.toChip →
      Quietly .schedResume s { s.toChip with sched := { s.sched with stopped := false } } (fun t => Event t .sched 19)) ∧
    (s.sched.stopped = false → exec .schedResume s = .next (after s s.toChip)) := by
  have he : exec .schedResume s = act s (fun c => whenAwake c schedResume) := rfl
  rw [act_whenAwake ha] at he
  refine ⟨fun h1 h2 hi => ?_, fun h => ?_⟩
  · obtain ⟨⟨-, -, h3, h4, h5⟩, -, -⟩ := hi
    have hr : schedResume s.toChip = kick (raise { s.toChip with sched := { s.sched with stopped := false } } .sched 19) :=
      if_pos ⟨h1, by rw [h2]; rfl⟩
    rw [hr] at he
    have hq := quiet_raise { s.toChip with sched := { s.sched with stopped := false } } .sched 19
    have hev : bit (hdr (raise { s.toChip with sched := { s.sched with stopped := false } } .sched 19) .sched).int 19 = true :=
      raises_int (l := [(.sched, 19)]) (by decide) (by simp)
    generalize raise { s.toChip with sched := { s.sched with stopped := false } } .sched 19 = d at he hq hev
    have hsess : d.sess = s.sess := congrArg (·.sess) hq
    have htier : d.tier = s.tier := congrArg (·.tier) hq
    rw [kick_idle (by rw [hsess]; exact h3) (by rw [htier]; exact h4) (by rw [htier]; exact h5)] at he
    exact ⟨_, he, after_pending _ _, (quiet_after ..).trans hq, hev⟩
  · have hr : schedResume s.toChip = s.toChip := if_neg fun x => absurd (x.1.symm.trans h) (by decide)
    rw [he, hr]

/-- Settles O32: actions and markers leave FIG's own state, which application, commit and wait then move as stated; with
nothing open each stage of the recovery is idle but the stop of the cores and its record. -/
theorem figuresApplyAndRecover : Obligations.FiguresApplyAndRecover := by
  unfold Obligations.FiguresApplyAndRecover
  intro s ha
  obtain ⟨h1, h2⟩ := figureApplies ha
  obtain ⟨h3, h4⟩ := schedResumes ha
  exact ⟨h1, h2, fun f hw ho hr hp => stallReleases ha f hw ho hr hp, fun l u time => (chipFaults ha l u time).1,
    fun l u time hp hi hs hq hdel _ hl hat => (chipFaults ha l u time).2 hp hi hs hq hdel hl hat, h3, h4⟩

end Sys2Proof.Machine
end

section
/-! The peer ports: training, lanes, lasers, calibration, frames and routing tables (O42). -/

namespace Sys2Proof.Machine

open Sys2Proof.Safety

theorem act_whenLinked {s : State} {f : Chip → Chip} (h : Linked s.toChip) :
    act s (fun c => whenLinked c f) = .next (after s (f s.toChip)) := by
  have hn : whenLinked s.toChip f = f s.toChip := if_neg (fun x => x.elim h.1 h.2)
  rw [act, hn]
  rfl

/-! ### What moves one port -/

theorem pport_setPport_self (c : Chip) (n : Nat) (x : PeerPort) : pport (setPport c n x) n = x := tget_tset_self ..

theorem pport_setPport_other (c : Chip) {n q : Nat} (x : PeerPort) (h : q ≠ n) : pport (setPport c n x) q = pport c q :=
  tget_tset_other _ _ _ _ _ h

theorem pport_of_quiet {c d : Chip} (h : quiet d = quiet c) (q : Nat) : pport d q = pport c q := by
  have hp : pport (quiet d) q = pport (quiet c) q := congrArg (fun x : Chip => pport x q) h
  exact hp

theorem portless_of_quiet {c d : Chip} (h : quiet d = quiet c) : portless d = portless c := by
  have hp : portless (quiet d) = portless (quiet c) := congrArg (fun x : Chip => portless x) h
  exact hp

theorem reg_setPport (c : Chip) (n : Nat) (x : PeerPort) (b a : Nat) : regB (setPport c n x) b a = regB c b a := rfl

theorem hdr_setPport (c : Chip) (n : Nat) (x : PeerPort) (p : Page) : hdr (setPport c n x) p = hdr c p := rfl

theorem bank_of_rkey {b q a : Nat} (h : rkey b a = rkey q a) : b = q := by
  simp only [rkey, bankStride] at h
  omega

/-- Beside one port, a chip moved as events, packets and reports move it. -/
structure PortMoved (c d : Chip) (n : Nat) (x : PeerPort) : Prop where
  self : pport d n = x
  other : ∀ q, q ≠ n → pport d q = pport c q
  rest : portless d = portless c

theorem portMoved_setPport (c : Chip) (n : Nat) (x : PeerPort) : PortMoved c (setPport c n x) n x :=
  ⟨pport_setPport_self .., fun _ h => pport_setPport_other c x h, rfl⟩

theorem PortMoved.setPport {c d : Chip} {n : Nat} {x : PeerPort} (h : PortMoved c d n x) (y : PeerPort) :
    PortMoved c (Machine.setPport d n y) n y :=
  ⟨pport_setPport_self .., fun q hq => (pport_setPport_other d y hq).trans (h.other q hq), Eq.trans rfl h.rest⟩

theorem PortMoved.of_quiet {c d e : Chip} {n : Nat} {x : PeerPort} (h : PortMoved c d n x) (hq : quiet e = quiet d) :
    PortMoved c e n x :=
  ⟨(pport_of_quiet hq n).trans h.self, fun q hn => (pport_of_quiet hq q).trans (h.other q hn), (portless_of_quiet hq).trans h.rest⟩

/-- A command that moves one port. -/
theorem PortMoved.becomes {i : Instr} {s : State} {d : Chip} {n : Nat} {x : PeerPort} {p : State → Prop}
    (h : PortMoved s.toChip d n x) (he : exec i s = .next (after s d)) (hp : p (after s d)) : PortBecomes i s n x p :=
  ⟨_, he, after_pending _ _, h.self, h.other, (portless_of_quiet (quiet_after s d)).trans h.rest, hp⟩

/-! ### Frames that are dropped -/

theorem quiet_dropFrame (c : Chip) (a n : Nat) : quiet (dropFrame c a n) = quiet c := by
  unfold dropFrame
  split
  · rfl
  · rw [quiet_raise, quiet_bump]

theorem regKey_dropFrame (c : Chip) (a n : Nat) {k : Nat} (h : k ≠ rkey 0 a) (he : eventKey k = false) :
    regKey (dropFrame c a n) k = regKey c k := by
  unfold dropFrame
  split
  · rfl
  · rw [keepsRegs_raise _ _ _ k he, regKey_bump_other _ _ _ h]

theorem toNat_dropFrame (c : Chip) (a n : Nat) (he : eventKey (rkey 0 a) = false) :
    (reg (dropFrame c a n) a).toNat = min ((reg c a).toNat + n) 0xFFFFFFFF := by
  unfold dropFrame
  split
  · next h =>
    rw [h, Nat.add_zero, Nat.min_eq_left]
    have := (reg c a).isLt
    omega
  · rw [(keepsRegs_raise _ _ _).reg he, toNat_reg_bump]

theorem ints_dropFrame (c : Chip) (a n : Nat) (p : Page) (b : Nat) (h : bit (hdr c p).int b = true) :
    bit (hdr (dropFrame c a n) p).int b = true := by
  have hb : ∀ d : Chip, hdr (bump d a n) p = hdr d p := fun d => hdr_bump ..
  unfold dropFrame
  split
  · exact h
  · exact (minor_raise _ _ _).ints p b (by rw [hb]; exact h)

theorem int_dropFrame (c : Chip) (a : Nat) {n : Nat} (h : n ≠ 0) : bit (hdr (dropFrame c a n) .peer).int 21 = true := by
  unfold dropFrame
  rw [if_neg h]
  exact raises_int (l := [(.peer, 21)]) (by decide) (by simp)

/-! ### Training (R361) -/

/-- PORT_TRAINING_TIMEOUT and PORT_RETRAIN_TIMER. -/
theorem portRetrains {s : State} (port : PortId) (hl : Linked s.toChip) :
    let n := port.toNat
    let x := pport s.toChip n
    (x.state = .training → PortBecomes (.portTrainingTimeout port) s n { x with state := .down } (fun _ => True)) ∧
    (x.state = .down → s.peer.bothLasersOut = false → PortBecomes (.portRetrainTimer port) s n { x with
      state := .training, active := 0, lost := 0, dark := 0, node := none, known := false } (fun _ => True)) := by
  intro n x
  have he1 : exec (.portTrainingTimeout port) s = act s (fun c => whenLinked c (fun c =>
    if (pport c port.toNat).state = .training then setPport c port.toNat { pport c port.toNat with state := .down } else c)) := rfl
  have he2 : exec (.portRetrainTimer port) s = act s (fun c => whenLinked c (fun c =>
    if (pport c port.toNat).state = .down ∧ c.peer.bothLasersOut = false then portTrain c port.toNat else c)) := rfl
  rw [act_whenLinked hl] at he1 he2
  refine ⟨fun h => ?_, fun h h' => ?_⟩
  · rw [if_pos h] at he1
    exact (portMoved_setPport _ _ _).becomes he1 trivial
  · rw [if_pos ⟨h, h'⟩] at he2
    exact (portMoved_setPport s.toChip n _).becomes he2 trivial

theorem nextSweepPort_of_up {c : Chip} {n : Nat} (hn : n < 4) (h : portUp c n = true) : (nextSweepPort c 0).isSome = true := by
  unfold nextSweepPort
  rw [List.find?_isSome]
  refine ⟨n, ?_, by rw [h]; rfl⟩
  simp only [ports4, List.mem_cons, List.not_mem_nil, or_false]
  omega

theorem startSweep_starts {c : Chip} {n : Nat} (hn : n < 4) (hu : portUp c n = true) (hf : peerForwards c = true) :
    (startSweep c).peer.sweep.isSome = true := by
  have hs := nextSweepPort_of_up hn hu
  unfold startSweep
  split
  · next h => exact h.resolve_right (fun x => x hf)
  · split
    · rfl
    · next h => rw [h] at hs; cases hs

/-- A sweep starts or goes on: the ports, the registers and the headers stand. -/
theorem startSweep_leaves (c : Chip) : (∀ q, pport (startSweep c) q = pport c q) ∧ (∀ p, hdr (startSweep c) p = hdr c p) := by
  unfold startSweep
  split
  · exact ⟨fun _ => rfl, fun _ => rfl⟩
  · split
    · exact ⟨fun _ => rfl, fun _ => rfl⟩
    · exact ⟨fun _ => rfl, fun _ => rfl⟩

/-- PORT_TRAINED. -/
theorem portTrains {s : State} (port : PortId) (lanes : BitVec 16) (node : Option (BitVec 12)) (hl : Linked s.toChip) :
    let n := port.toNat
    let x := pport s.toChip n
    (x.state = .training → lanes ≠ 0 → (isUp s.toChip .peer = true ∨ bstate s.toChip .peer = .disabled) →
      Completes (.portTrained port lanes node) s (fun t => (∀ q, q ≠ n → pport t.toChip q = pport s.toChip q) ∧
        Event t .peer 22 ∧
        pport t.toChip n = { x with
          state := .up, active := lanes, lost := ~~~lanes, dark := 0
          node := node.map (·.toNat), known := node.isSome } ∧
        (s.peer.bothLasersOut = false → t.peer.sweep.isSome = true))) ∧
    (x.state ≠ .training ∨ lanes = 0 → exec (.portTrained port lanes node) s = .next (after s s.toChip)) := by
  intro n x
  have he : exec (.portTrained port lanes node) s = act s (fun c => whenLinked c (fun c =>
    portTrained c port.toNat lanes (node.map (·.toNat)))) := rfl
  rw [act_whenLinked hl] at he
  refine ⟨fun h1 h2 h3 => ?_, fun h => ?_⟩
  · generalize hy : ({ x with
      state := PortState.up, active := lanes, lost := ~~~lanes, dark := 0
      node := node.map (·.toNat), known := node.isSome } : PeerPort) = y
    have hup : isUp s.toChip .peer = true ∨ bstate s.toChip .peer = .disabled := h3
    have hne : ¬ (x.state ≠ .training ∨ lanes = 0 ∨ isUp s.toChip .peer = false ∧ bstate s.toChip .peer ≠ .disabled) := by
      rintro (h | h | ⟨h, h'⟩)
      · exact h h1
      · exact h2 h
      · rcases h3 with h3 | h3
        · rw [h3] at h
          cases h
        · exact h' h3
    have hk : portTrained s.toChip port.toNat lanes (node.map (·.toNat)) =
        startSweep (raise (setPport s.toChip n y) .peer 22) := by
      have hnode : (node.map (·.toNat)).isSome = node.isSome := Option.isSome_map
      rw [portTrained, if_neg hne, hnode, ← hy]
    rw [hk] at he
    have hq := quiet_raise (setPport s.toChip n y) .peer 22
    have hm := (portMoved_setPport s.toChip n y).of_quiet hq
    have hev : bit (hdr (raise (setPport s.toChip n y) .peer 22) .peer).int 22 = true :=
      raises_int (l := [(.peer, 22)]) (by decide) (by simp)
    have hst : bstate (raise (setPport s.toChip n y) .peer 22) .peer = bstate s.toChip .peer :=
      ((minor_raise _ _ _).state .peer).trans rfl
    have hb : (raise (setPport s.toChip n y) .peer 22).peer.bothLasersOut = s.peer.bothLasersOut :=
      congrArg (·.peer.bothLasersOut) hq
    generalize raise (setPport s.toChip n y) .peer 22 = d at he hm hev hst hb
    obtain ⟨hp, hh⟩ := startSweep_leaves d
    have hsw : s.peer.bothLasersOut = false → (startSweep d).peer.sweep.isSome = true := fun hb0 => by
      refine startSweep_starts (n := n) port.isLt ?_ ?_
      · rw [portUp, hm.self, ← hy]
        rfl
      · rw [peerForwards, isUp, hst, hb, hb0]
        rcases h3 with h3 | h3
        · rw [isUp] at h3
          rw [h3]
          rfl
        · rw [h3]
          rfl
    generalize startSweep d = e at he hp hh hsw
    exact ⟨_, he, after_pending _ _, fun q hq => (hp q).trans (hm.other q hq), (congrArg (fun h : BlockHdr => bit h.int 22) (hh .peer)).trans hev,
      (hp n).trans hm.self, hsw⟩
  · have hk : portTrained s.toChip port.toNat lanes (node.map (·.toNat)) = s.toChip :=
      if_pos (h.imp id Or.inl)
    rw [he, hk]

/-! ### Lanes and ports (R355, R356, R358) -/

/-- What a report leaves of the port registers, and what it counts. -/
theorem portFault {c : Chip} (cls : Nat) (i : Nat) (h : cls % 256 ≠ 0x11) (h0 : 0 < cls) (h1 : cls ≤ 0x1E) :
    Minor c (fault c cls .peer i 0 false) ∧
    (regB (fault c cls .peer i 0 false) cls aFLT_CLASS_CNT).toNat = min ((regB c cls aFLT_CLASS_CNT).toNat + 1) 0xFFFFFFFF :=
  ⟨minor_fault c cls .peer i 0 false h, toNat_classCnt_fault c .peer i 0 false h0 h1⟩

/-- A report leaves the counters of the other classes. -/
theorem classCnt_report_other (c : Chip) (f : FaultRep) {b : Nat} (h : b ≠ f.cls.toNat) :
    regB (report c f) b aFLT_CLASS_CNT = regB c b aFLT_CLASS_CNT := by
  have hk := reportKey_classCnt b
  have he : eventKey (rkey b aFLT_CLASS_CNT) = false :=
    eventKey_rkey (by decide) (by decide) (by decide) (by decide)
  have hb : regKey (bumpB c f.cls.toNat aFLT_CLASS_CNT 1) (rkey b aFLT_CLASS_CNT) = regKey c (rkey b aFLT_CLASS_CNT) :=
    regKey_bumpB_other _ _ _ _ (fun x => h (bank_of_rkey x))
  unfold report
  split
  · rfl
  · dsimp only
    rw [regB, regKey_faultState _ _ he (rkey_apart (by decide) (by decide) (by decide))]
    refine Eq.trans ?_ hb
    split
    · split
      · exact keepsCounts_reportAgain _ _ _ _ hk
      · exact keepsCounts_reportAt _ _ _ _ hk
    · exact keepsCounts_reportAt _ _ _ _ hk

theorem classCnt_fault_other (c : Chip) {cls b : Nat} (p : Page) (i a : Nat) (hi : Bool) (h : b ≠ cls % 256) :
    regB (fault c cls p i a hi) b aFLT_CLASS_CNT = regB c b aFLT_CLASS_CNT := by
  have go : ∀ (d : Chip) (g : FaultRep), g.cls = BitVec.ofNat 8 cls → d.mgmt = c.mgmt → d.variant = c.variant →
      regB (report d g) b aFLT_CLASS_CNT = regB c b aFLT_CLASS_CNT := fun d g hg hm hv => by
    have hd : regB d b aFLT_CLASS_CNT = regB c b aFLT_CLASS_CNT := by simp [regB, regKey, hm, hv]
    rw [classCnt_report_other d g (by rw [hg, BitVec.toNat_ofNat]; exact h), hd]
  unfold fault
  dsimp only
  split
  · exact go _ _ rfl rfl rfl
  · exact go _ _ rfl rfl rfl

/-- A port goes down. -/
theorem portDown_falls (c : Chip) (n : Nat) :
    PortMoved c (portDown c n) n (fallen (pport c n)) ∧ bit (hdr (portDown c n) .peer).int 16 = true ∧
    (∀ b, bit (hdr c .peer).int b = true → bit (hdr (portDown c n) .peer).int b = true) ∧
    (regB (portDown c n) 0x1A aFLT_CLASS_CNT).toNat = min ((regB c 0x1A aFLT_CLASS_CNT).toNat + 1) 0xFFFFFFFF ∧
    (reg (portDown c n) aPEER_DROP_DOWN).toNat = min ((reg c aPEER_DROP_DOWN).toNat + (pport c n).queue.length) 0xFFFFFFFF := by
  have h1 := (portMoved_setPport c n { pport c n with queue := [] }).of_quiet
    (quiet_dropFrame (setPport c n { pport c n with queue := [] }) aPEER_DROP_DOWN (pport c n).queue.length)
  have hc : regB (dropQueue c n) 0x1A aFLT_CLASS_CNT = regB c 0x1A aFLT_CLASS_CNT :=
    (regKey_dropFrame _ _ _ (by decide) (by decide)).trans rfl
  have hd : (reg (dropQueue c n) aPEER_DROP_DOWN).toNat =
      min ((reg c aPEER_DROP_DOWN).toNat + (pport c n).queue.length) 0xFFFFFFFF := toNat_dropFrame _ _ _ (by decide)
  have hi : ∀ b, bit (hdr c .peer).int b = true → bit (hdr (dropQueue c n) .peer).int b = true := fun b hb =>
    ints_dropFrame _ _ _ _ _ hb
  have hm : PortMoved c (dropQueue c n) n { pport c n with queue := [] } := h1
  unfold portDown
  dsimp only
  generalize dropQueue c n = d at hm hc hd hi
  have hm2 := hm.setPport { pport d n with state := .down, active := 0, dark := 0 }
  rw [hm.self] at hm2
  rw [hm.self]
  have hr := minor_raise (setPport d n { { pport c n with queue := [] } with state := .down, active := 0, dark := 0 }) .peer 16
  have hk := keepsRegs_raise (setPport d n { { pport c n with queue := [] } with state := .down, active := 0, dark := 0 }) .peer 16
  have hev : bit (hdr (raise (setPport d n { { pport c n with queue := [] } with state := .down, active := 0, dark := 0 })
    .peer 16) .peer).int 16 = true := raises_int (l := [(.peer, 16)]) (by decide) (by simp)
  generalize hg : raise (setPport d n { { pport c n with queue := [] } with state := .down, active := 0, dark := 0 }) .peer 16 = e
    at hr hk hev
  obtain ⟨hf, hl⟩ := portFault (c := e) 0x1A n (by decide) (by decide) (by decide)
  generalize fault e 0x1A .peer n 0 false = f at hf hl
  refine ⟨(hm2.of_quiet hr.quiet).of_quiet hf.quiet, hf.ints _ _ hev, fun b hb => hf.ints _ _ (hr.ints _ _ (hi b hb)), ?_, ?_⟩
  · have hre : regB e 0x1A aFLT_CLASS_CNT = regB d 0x1A aFLT_CLASS_CNT := hk _ (by decide)
    rw [hl, hre, hc]
  · have hfe : reg f aPEER_DROP_DOWN = reg e aPEER_DROP_DOWN := hf.regs _ (by decide)
    have hee : reg e aPEER_DROP_DOWN = reg d aPEER_DROP_DOWN := hk _ (by decide)
    rw [hfe, hee, hd]

/-- PORT_SILENCE_TIMEOUT. -/
theorem portSilent {s : State} (port : PortId) (hl : Linked s.toChip) (hu : portUp s.toChip port.toNat = true) :
    let n := port.toNat
    let x := pport s.toChip n
    PortBecomes (.portSilenceTimeout port) s n (fallen x) (fun t => Event t .peer 16 ∧ Logged s t 0x1A 1 ∧
      Counted s t aPEER_DROP_DOWN x.queue.length) := by
  intro n x
  have he : exec (.portSilenceTimeout port) s = act s (fun c => whenLinked c (fun c =>
    if portUp c port.toNat then portDown c port.toNat else c)) := rfl
  rw [act_whenLinked hl, if_pos hu] at he
  obtain ⟨hm, hev, -, hlog, hcnt⟩ := portDown_falls s.toChip n
  exact hm.becomes he ⟨hev, hlog, hcnt⟩

theorem and_bit_ne_zero {m : BitVec 16} {l : Nat} (hl : l < 16) (h : m.getLsbD l = true) : m &&& BitVec.ofNat 16 (2 ^ l) ≠ 0 := by
  intro h0
  have hb := congrArg (fun v : BitVec 16 => v.getLsbD l) h0
  have ho : (BitVec.ofNat 16 (2 ^ l)).getLsbD l = true := by
    rw [BitVec.getLsbD_ofNat, Nat.testBit_two_pow_self, Bool.and_true]
    exact decide_eq_true hl
  simp only [BitVec.getLsbD_and, h, ho, Bool.and_self] at hb
  exact absurd hb (by simp)

/-- LANE_LOST. -/
theorem laneGoes {s : State} (port : PortId) (hl : Linked s.toChip) (hu : portUp s.toChip port.toNat = true) (l : BitVec 4) :
    let n := port.toNat
    let x := pport s.toChip n
    let m : BitVec 16 := BitVec.ofNat 16 (2 ^ l.toNat)
    let y := { x with active := x.active &&& ~~~m, lost := x.lost ||| m, dark := x.dark &&& ~~~m }
    x.active.getLsbD l.toNat = true →
    (y.active ≠ 0 → PortBecomes (.laneLost port l) s n y (fun t => Event t .peer 17 ∧ Logged s t 0x19 1)) ∧
    (y.active = 0 → PortBecomes (.laneLost port l) s n (fallen y) (fun t =>
      Event t .peer 17 ∧ Event t .peer 16 ∧ Logged s t 0x1A 1 ∧ Counted s t aPEER_DROP_DOWN x.queue.length)) := by
  intro n x m y ha
  have he : exec (.laneLost port l) s = act s (fun c => whenLinked c (fun c => laneLost c port.toNat l.toNat)) := rfl
  rw [act_whenLinked hl] at he
  have hk : laneLost s.toChip port.toNat l.toNat =
      let c2 := fault (raise (setPport s.toChip n y) .peer 17) 0x19 .peer (16 * n + l.toNat) 0 false
      if (pport c2 n).active = 0 then portDown c2 n else c2 :=
    if_neg (fun h => h.elim (fun h => absurd (h.symm.trans hu) Bool.false_ne_true) (and_bit_ne_zero l.isLt ha))
  rw [hk] at he
  dsimp only at he
  have hq : x.queue = y.queue := rfl
  have hm0 := portMoved_setPport s.toChip n y
  have hdd : reg (setPport s.toChip n y) aPEER_DROP_DOWN = reg s.toChip aPEER_DROP_DOWN := rfl
  have hlg : ∀ b, regB (setPport s.toChip n y) b aFLT_CLASS_CNT = regB s.toChip b aFLT_CLASS_CNT := fun _ => rfl
  generalize setPport s.toChip n y = c at he hm0 hdd hlg
  have hr := minor_raise c .peer 17
  have hkr := keepsRegs_raise c .peer 17
  have hev : bit (hdr (raise c .peer 17) .peer).int 17 = true := raises_int (l := [(.peer, 17)]) (by decide) (by simp)
  generalize raise c .peer 17 = d at he hr hkr hev
  obtain ⟨hf, hlog⟩ := portFault (c := d) 0x19 (16 * n + l.toNat) (by decide) (by decide) (by decide)
  have hc1a : regB (fault d 0x19 .peer (16 * n + l.toNat) 0 false) 0x1A aFLT_CLASS_CNT = regB d 0x1A aFLT_CLASS_CNT :=
    classCnt_fault_other d .peer _ _ _ (by decide)
  generalize fault d 0x19 .peer (16 * n + l.toNat) 0 false = e at he hf hlog hc1a
  have hm : PortMoved s.toChip e n y := (hm0.of_quiet hr.quiet).of_quiet hf.quiet
  rw [hm.self] at he
  refine ⟨fun h => ?_, fun h => ?_⟩
  · rw [if_neg h] at he
    refine hm.becomes he ⟨hf.ints _ _ hev, ?_⟩
    have hre : regB d 0x19 aFLT_CLASS_CNT = regB c 0x19 aFLT_CLASS_CNT := hkr _ (by decide)
    show (regB e 0x19 aFLT_CLASS_CNT).toNat = _
    rw [hlog, hre, hlg]
  · rw [if_pos h] at he
    obtain ⟨hd, h16, hi, h1a, hcnt⟩ := portDown_falls e n
    rw [hm.self] at hd hcnt
    generalize portDown e n = f at he hd h16 hi h1a hcnt
    have hmf : PortMoved s.toChip f n (fallen y) :=
      ⟨hd.self, fun q hq => (hd.other q hq).trans (hm.other q hq), hd.rest.trans hm.rest⟩
    refine hmf.becomes he ⟨hi _ (hf.ints _ _ hev), h16, ?_, ?_⟩
    · have hre : regB d 0x1A aFLT_CLASS_CNT = regB c 0x1A aFLT_CLASS_CNT := hkr _ (by decide)
      show (regB f 0x1A aFLT_CLASS_CNT).toNat = _
      rw [h1a, hc1a, hre, hlg]
    · have hfe : reg e aPEER_DROP_DOWN = reg d aPEER_DROP_DOWN := hf.regs _ (by decide)
      have hde : reg d aPEER_DROP_DOWN = reg c aPEER_DROP_DOWN := hkr _ (by decide)
      show (reg f aPEER_DROP_DOWN).toNat = _
      rw [hcnt, hfe, hde, hdd, hq]

/-- IDLE_REDUCE and LANE_RELIGHT. -/
theorem portReduces {s : State} (port : PortId) (hl : Linked s.toChip) :
    let n := port.toNat
    let x := pport s.toChip n
    (x.state = .up → bit (regB s.toChip n aPEER_PORT_CFG) 2 = true → PortBecomes (.idleReduce port) s n
      { x with state := .reduced, dark := x.active &&& ~~~lowFour x.active } (fun _ => True)) ∧
    (x.state = .reduced → PortBecomes (.laneRelight port) s n { x with state := .up, dark := 0 } (fun _ => True)) := by
  intro n x
  have he1 : exec (.idleReduce port) s = act s (fun c => whenLinked c (fun c => idleReduce c port.toNat)) := rfl
  have he2 : exec (.laneRelight port) s = act s (fun c => whenLinked c (fun c => laneRelight c port.toNat)) := rfl
  rw [act_whenLinked hl] at he1 he2
  refine ⟨fun h h' => ?_, fun h => ?_⟩
  · have hk : idleReduce s.toChip port.toNat =
        setPport s.toChip n { x with state := .reduced, dark := x.active &&& ~~~lowFour x.active } := if_pos ⟨h, h'⟩
    rw [hk] at he1
    exact (portMoved_setPport _ _ _).becomes he1 trivial
  · have hk : laneRelight s.toChip port.toNat = setPport s.toChip n { x with state := .up, dark := 0 } := if_pos h
    rw [hk] at he2
    exact (portMoved_setPport _ _ _).becomes he2 trivial

/-! ### Slow windows (R357) -/

/-- The window of one port. -/
def slowOne (lim : Nat) (c : Chip) (q v : Nat) : Chip :=
  if lim < v then raise (setRegB c q aPEER_STALL (w32 (b2n (decide (lim < v)) * 2 ^ 31 + v % 128))) .peer 18
  else setRegB c q aPEER_STALL (w32 (b2n (decide (lim < v)) * 2 ^ 31 + v % 128))

theorem slowWindow_eq (c : Chip) (a b d e : Nat) : slowWindow c [a, b, d, e] =
    let lim := min 100 (fld (reg c aPEER_SLOW_CFG) 6 0)
    slowOne lim (slowOne lim (slowOne lim (slowOne lim c 0 a) 1 b) 2 d) 3 e := by
  simp only [slowWindow, slowOne, decide_eq_true_eq]
  rfl

theorem slowOne_stores (lim : Nat) (c : Chip) (q v : Nat) :
    quiet (slowOne lim c q v) = quiet c ∧
    regB (slowOne lim c q v) q aPEER_STALL = w32 (b2n (decide (lim < v)) * 2 ^ 31 + v % 128) ∧
    (∀ j, j ≠ q → regB (slowOne lim c q v) j aPEER_STALL = regB c j aPEER_STALL) ∧
    (lim < v → bit (hdr (slowOne lim c q v) .peer).int 18 = true) ∧
    (∀ b, bit (hdr c .peer).int b = true → bit (hdr (slowOne lim c q v) .peer).int b = true) := by
  have hstall : ∀ j, eventKey (rkey j aPEER_STALL) = false := fun j =>
    eventKey_rkey (by decide) (by decide) (by decide) (by decide)
  have hne : ∀ {j}, j ≠ q → rkey j aPEER_STALL ≠ rkey q aPEER_STALL := fun h x => h (bank_of_rkey x)
  have hs : regB (setRegB c q aPEER_STALL (w32 (b2n (decide (lim < v)) * 2 ^ 31 + v % 128))) q aPEER_STALL =
    w32 (b2n (decide (lim < v)) * 2 ^ 31 + v % 128) := regB_setRegB_self ..
  have ho : ∀ j, j ≠ q → regB (setRegB c q aPEER_STALL (w32 (b2n (decide (lim < v)) * 2 ^ 31 + v % 128))) j aPEER_STALL =
    regB c j aPEER_STALL := fun j hj => regKey_setKey_other _ _ _ _ _ (hne hj)
  have hq := quiet_setRegB c q aPEER_STALL (w32 (b2n (decide (lim < v)) * 2 ^ 31 + v % 128))
  have hh : ∀ b, bit (hdr c .peer).int b = true →
    bit (hdr (setRegB c q aPEER_STALL (w32 (b2n (decide (lim < v)) * 2 ^ 31 + v % 128))) .peer).int b = true := fun b h => by
    rw [setRegB, hdr_setKey]
    exact h
  unfold slowOne
  generalize setRegB c q aPEER_STALL (w32 (b2n (decide (lim < v)) * 2 ^ 31 + v % 128)) = d at hs ho hq hh
  split
  · next h =>
    have hk := keepsRegs_raise d .peer 18
    exact ⟨(quiet_raise ..).trans hq, (hk _ (hstall q)).trans hs, fun j hj => (hk _ (hstall j)).trans (ho j hj),
      fun _ => raises_int (l := [(.peer, 18)]) (by decide) (by simp), fun b hb => (minor_raise d .peer 18).ints _ _ (hh b hb)⟩
  · next h => exact ⟨hq, hs, ho, fun x => absurd x h, hh⟩

/-- SLOW_WINDOW. -/
theorem slowWindows {s : State} (hl : Linked s.toChip) (p0 p1 p2 p3 : BitVec 7) :
    Quietly (.slowWindow p0 p1 p2 p3) s s.toChip (fun t =>
      ∀ q v, (q, v) ∈ [(0, p0), (1, p1), (2, p2), (3, p3)] →
        let slow := decide (min 100 (fld (reg s.toChip aPEER_SLOW_CFG) 6 0) < v.toNat)
        regB t.toChip q aPEER_STALL = w32 (b2n slow * 2 ^ 31 + v.toNat) ∧ (slow = true → Event t .peer 18)) := by
  have he : exec (.slowWindow p0 p1 p2 p3) s = act s (fun c => whenLinked c (fun c =>
    slowWindow c [p0.toNat, p1.toNat, p2.toNat, p3.toNat])) := rfl
  rw [act_whenLinked hl, slowWindow_eq] at he
  dsimp only at he
  generalize min 100 (fld (reg s.toChip aPEER_SLOW_CFG) 6 0) = lim at he ⊢
  obtain ⟨hq0, hr0, ho0, he0, hi0⟩ := slowOne_stores lim s.toChip 0 p0.toNat
  generalize slowOne lim s.toChip 0 p0.toNat = c0 at he hq0 hr0 ho0 he0 hi0
  obtain ⟨hq1, hr1, ho1, he1, hi1⟩ := slowOne_stores lim c0 1 p1.toNat
  generalize slowOne lim c0 1 p1.toNat = c1 at he hq1 hr1 ho1 he1 hi1
  obtain ⟨hq2, hr2, ho2, he2, hi2⟩ := slowOne_stores lim c1 2 p2.toNat
  generalize slowOne lim c1 2 p2.toNat = c2 at he hq2 hr2 ho2 he2 hi2
  obtain ⟨hq3, hr3, ho3, he3, hi3⟩ := slowOne_stores lim c2 3 p3.toNat
  generalize slowOne lim c2 3 p3.toNat = c3 at he hq3 hr3 ho3 he3 hi3
  refine ⟨_, he, after_pending _ _, (quiet_after ..).trans (hq3.trans (hq2.trans (hq1.trans hq0))), fun q v hqv => ?_⟩
  have hmod : ∀ p : BitVec 7, p.toNat % 128 = p.toNat := fun p => Nat.mod_eq_of_lt p.isLt
  simp only [List.mem_cons, List.not_mem_nil, or_false, Prod.mk.injEq] at hqv
  rcases hqv with ⟨rfl, rfl⟩ | ⟨rfl, rfl⟩ | ⟨rfl, rfl⟩ | ⟨rfl, rfl⟩
  · refine ⟨?_, fun h => hi3 _ (hi2 _ (hi1 _ (he0 (of_decide_eq_true h))))⟩
    rw [hmod] at hr0
    exact (ho3 0 (by decide)).trans ((ho2 0 (by decide)).trans ((ho1 0 (by decide)).trans hr0))
  · refine ⟨?_, fun h => hi3 _ (hi2 _ (he1 (of_decide_eq_true h)))⟩
    rw [hmod] at hr1
    exact (ho3 1 (by decide)).trans ((ho2 1 (by decide)).trans hr1)
  · refine ⟨?_, fun h => hi3 _ (he2 (of_decide_eq_true h))⟩
    rw [hmod] at hr2
    exact (ho3 2 (by decide)).trans hr2
  · refine ⟨?_, fun h => he3 (of_decide_eq_true h)⟩
    rw [hmod] at hr3
    exact hr3

end Sys2Proof.Machine
end

section
/-! The peer fabric: lasers, calibration, output arbitration, frames and the routing tables (O42). -/

namespace Sys2Proof.Machine

open Sys2Proof.Safety

/-! ### Lasers (R345) -/

/-- LASER after a failover: SOURCE is the other one and FAILS rose by 1. -/
def laserWord (w : Word) : Word := w32 (min 255 (fld w 15 8 + 1) * 256 + (1 - b2n (bit w 0)))

theorem laserWord_source (w : Word) : bit (laserWord w) 0 = !bit w 0 := by
  have h : ∀ k : Nat, ((min 255 (fld w 15 8 + 1) * 256 + k) % 2 ^ 32).testBit 0 = decide (k % 2 = 1) := fun k => by
    rw [Nat.testBit_zero]
    refine decide_eq_decide.2 ?_
    omega
  rw [laserWord, bit, w32, BitVec.getLsbD, BitVec.toNat_ofNat, h]
  cases bit w 0
  · rfl
  · rfl

theorem laserWord_fails (w : Word) : fld (laserWord w) 15 8 = min 255 (fld w 15 8 + 1) := by
  have hb : b2n (bit w 0) ≤ 1 := by cases bit w 0 <;> decide
  rw [laserWord, fld, w32, BitVec.toNat_ofNat, Nat.shiftRight_eq_div_pow]
  omega

/-- The lit source failed over to the other one. -/
theorem laserSwaps {s : State} (hl : Linked s.toChip) :
    Quietly (.laserFailover true) s s.toChip (fun t => Event t .peer 20 ∧ Logged s t 0x1B 1 ∧
      bit (reg t.toChip aPEER_LASER) 0 = !bit (reg s.toChip aPEER_LASER) 0 ∧
      fld (reg t.toChip aPEER_LASER) 15 8 = min 255 (fld (reg s.toChip aPEER_LASER) 15 8 + 1)) := by
  have he : exec (.laserFailover true) s = act s (fun c => whenLinked c (fun c =>
    fault (raise (laserSwap c aPEER_LASER) .peer 20) 0x1B .peer 0 0 false)) := rfl
  rw [act_whenLinked hl] at he
  have hq : quiet (laserSwap s.toChip aPEER_LASER) = quiet s.toChip := quiet_setReg ..
  have hr : reg (laserSwap s.toChip aPEER_LASER) aPEER_LASER = laserWord (reg s.toChip aPEER_LASER) := reg_setReg_self ..
  have hc : regB (laserSwap s.toChip aPEER_LASER) 0x1B aFLT_CLASS_CNT = regB s.toChip 0x1B aFLT_CLASS_CNT :=
    regKey_setKey_other _ _ _ _ _ (by decide)
  generalize laserSwap s.toChip aPEER_LASER = c at he hq hr hc
  have hm := minor_raise c .peer 20
  have hk := keepsRegs_raise c .peer 20
  have hev : bit (hdr (raise c .peer 20) .peer).int 20 = true := raises_int (l := [(.peer, 20)]) (by decide) (by simp)
  generalize raise c .peer 20 = d at he hm hk hev
  obtain ⟨hf, hlog⟩ := portFault (c := d) 0x1B 0 (by decide) (by decide) (by decide)
  have hfr : reg (fault d 0x1B .peer 0 0 false) aPEER_LASER = reg d aPEER_LASER := hf.regs _ (by decide)
  generalize fault d 0x1B .peer 0 0 false = e at he hf hlog hfr
  have hdr' : reg d aPEER_LASER = reg c aPEER_LASER := hk _ (by decide)
  have hdc : regB d 0x1B aFLT_CLASS_CNT = regB c 0x1B aFLT_CLASS_CNT := hk _ (by decide)
  refine ⟨_, he, after_pending _ _, (quiet_after ..).trans (hf.quiet.trans (hm.quiet.trans hq)), hf.ints _ _ hev, ?_, ?_, ?_⟩
  · show (regB e 0x1B aFLT_CLASS_CNT).toNat = _
    rw [hlog, hdc, hc]
  · show bit (reg e aPEER_LASER) 0 = _
    rw [hfr, hdr', hr, laserWord_source]
  · show fld (reg e aPEER_LASER) 15 8 = _
    rw [hfr, hdr', hr, laserWord_fails]

/-- One port when no laser is lit. -/
def darken (c : Chip) (p : Nat) : Chip := if portUp c p ∨ (pport c p).state = .training then portDown c p else c

/-- A port carries no frame and trains for none. -/
def Dark (c : Chip) (q : Nat) : Prop := portUp c q = false ∧ (pport c q).state ≠ .training

theorem dark_of_pport {c d : Chip} {q : Nat} (h : pport d q = pport c q) (hq : Dark c q) : Dark d q := by
  unfold Dark portUp
  rw [h]
  exact hq

theorem darken_dark (c : Chip) (p q : Nat) (h : q = p ∨ Dark c q) : Dark (darken c p) q := by
  unfold darken
  split
  · next hu =>
    have hm := (portDown_falls c p).1
    by_cases e : q = p
    · subst e
      unfold Dark portUp
      rw [hm.self]
      exact ⟨rfl, nofun⟩
    · exact dark_of_pport (hm.other q e) (h.resolve_left e)
  · next hu =>
    rcases h with rfl | h
    · exact ⟨by simpa using fun x => hu (.inl x), fun x => hu (.inr x)⟩
    · exact h

theorem darken_portless (c : Chip) (p : Nat) : portless (darken c p) = portless c := by
  unfold darken
  split
  · exact (portDown_falls c p).1.rest
  · rfl

/-- Every port of a list goes dark, and nothing else of PEER moves. -/
theorem darken_all (l : List Nat) (c : Chip) :
    (∀ q, q ∈ l ∨ Dark c q → Dark (l.foldl darken c) q) ∧ portless (l.foldl darken c) = portless c := by
  induction l generalizing c with
  | nil => exact ⟨fun q h => h.resolve_left (by simp), rfl⟩
  | cons p r ih =>
    obtain ⟨h1, h2⟩ := ih (darken c p)
    refine ⟨fun q h => h1 q ?_, h2.trans (darken_portless c p)⟩
    rcases h with h | h
    · rcases List.mem_cons.1 h with h | h
      · exact .inr (darken_dark c p q (.inl h))
      · exact .inl h
    · exact .inr (darken_dark c p q (.inr h))

/-- Both lasers are out. -/
theorem lasersOut {s : State} (hl : Linked s.toChip) :
    Completes (.laserFailover false) s (fun t => t.peer.bothLasersOut = true ∧ t.peer.sweep = none ∧
      ∀ q, q < 4 → portUp t.toChip q = false ∧ (pport t.toChip q).state ≠ .training) := by
  have he : exec (.laserFailover false) s = act s (fun c => whenLinked c (fun c =>
    ports4.foldl darken { setFld c aPEER_LASER 1 1 0 with peer :=
      { (setFld c aPEER_LASER 1 1 0).peer with bothLasersOut := true, sweep := none } })) := rfl
  rw [act_whenLinked hl] at he
  generalize setFld s.toChip aPEER_LASER 1 1 0 = c at he
  obtain ⟨hd, hp⟩ := darken_all ports4 { c with peer := { c.peer with bothLasersOut := true, sweep := none } }
  generalize ports4.foldl darken { c with peer := { c.peer with bothLasersOut := true, sweep := none } } = d at he hd hp
  have hb : d.peer.bothLasersOut = true := congrArg (·.peer.bothLasersOut) hp
  have hs : d.peer.sweep = none := congrArg (·.peer.sweep) hp
  refine ⟨_, he, after_pending _ _, hb, hs, fun q hq => hd q (.inl ?_)⟩
  simp only [ports4, List.mem_cons, List.not_mem_nil, or_false]
  omega

/-! ### Calibration (R353, R354) -/

theorem startSweep_first {c : Chip} {q : Nat} (hf : peerForwards c = true) (hs : c.peer.sweep = none)
    (hq : nextSweepPort c 0 = some q) : startSweep c = { c with peer := { c.peer with sweep := some (q, 0) } } := by
  unfold startSweep
  rw [if_neg (by rw [hs, hf]; simp), hq]

/-- RING_LOCK_TICK. -/
theorem ringLocks {s : State} (port : PortId) (hl : Linked s.toChip) :
    (∀ (l : BitVec 4) (b : Bool), (b = true → calAuto s.toChip = false) →
      exec (.ringLockTick port l b) s = .next (after s s.toChip)) ∧
    (∀ l : BitVec 4, calAuto s.toChip = true → portUp s.toChip port.toNat = true →
      (pport s.toChip port.toNat).active.getLsbD l.toNat = true →
      s.peer.sweep = none → peerForwards s.toChip = true → ∀ q, nextSweepPort s.toChip 0 = some q →
      exec (.ringLockTick port l true) s = .next (after s { s.toChip with peer := { s.peer with sweep := some (q, 0) } })) := by
  have he : ∀ l b, exec (.ringLockTick port l b) s = act s (fun c => whenLinked c (fun c =>
    if b = true ∧ calAuto c = true ∧ portUp c port.toNat = true ∧ (pport c port.toNat).active.getLsbD l.toNat = true then
      startSweep c else c)) := fun _ _ => rfl
  refine ⟨fun l b h => ?_, fun l ha hu hl' hs hf q hq => ?_⟩
  · rw [he, act_whenLinked hl, if_neg (fun x => absurd ((h x.1).symm.trans x.2.1) Bool.false_ne_true)]
  · rw [he, act_whenLinked hl, if_pos ⟨rfl, ha, hu, hl'⟩, startSweep_first hf hs hq]

/-- CAL_SWEEP_START by the module itself. -/
theorem calSweepsStart {s : State} (hl : Linked s.toChip) :
    (∀ q, calAuto s.toChip = true → peerForwards s.toChip = true → s.peer.sweep = none →
      nextSweepPort s.toChip 0 = some q → exec (.calSweepStart none) s =
        .next (after s { s.toChip with peer := { s.peer with sweep := some (q, 0) } })) ∧
    (calAuto s.toChip = false → exec (.calSweepStart none) s = .next (after s s.toChip)) := by
  have he : exec (.calSweepStart none) s = act s (fun c => whenLinked c (fun c => if calAuto c then startSweep c else c)) := rfl
  rw [act_whenLinked hl] at he
  refine ⟨fun q ha hf hs hq => ?_, fun ha => ?_⟩
  · rw [he, if_pos ha, startSweep_first hf hs hq]
  · rw [he, if_neg (by rw [ha]; exact Bool.false_ne_true)]

/-- CAL_LANE_DONE. -/
theorem laneDone {s : State} (port : PortId) (hl : Linked s.toChip) (l : BitVec 4) (b : Bool) :
    let n := port.toNat
    let x := pport s.toChip n
    let m : BitVec 16 := BitVec.ofNat 16 (2 ^ l.toNat)
    s.peer.sweep = some (n, l.toNat) → portUp s.toChip n = true →
      let y := if b then { x with active := x.active ||| m, lost := x.lost &&& ~~~m }
        else { x with active := x.active &&& ~~~m, lost := x.lost ||| m }
      (l ≠ 15 → Completes (.calLaneDone b) s (fun t => pport t.toChip n = y ∧
        (∀ q, q ≠ n → pport t.toChip q = pport s.toChip q) ∧ t.peer.sweep = some (n, l.toNat + 1))) ∧
      (l = 15 → nextSweepPort s.toChip (n + 1) = none → Completes (.calLaneDone b) s (fun t =>
        pport t.toChip n = y ∧ (∀ q, q ≠ n → pport t.toChip q = pport s.toChip q) ∧ t.peer.sweep = none ∧
        Event t .peer 19)) := by
  intro n x m hs hu y
  have he : exec (.calLaneDone b) s = act s (fun c => whenLinked c (fun c => calLaneDone c b)) := rfl
  rw [act_whenLinked hl] at he
  have hst : y.state = x.state := by
    cases b
    · rfl
    · rfl
  have hk : calLaneDone s.toChip b =
      let c1 := setPport s.toChip n y
      if portUp c1 n = true ∧ l.toNat < 15 then { c1 with peer := { c1.peer with sweep := some (n, l.toNat + 1) } }
      else match nextSweepPort c1 (n + 1) with
        | some q => { c1 with peer := { c1.peer with sweep := some (q, 0) } }
        | none => raise { c1 with peer := { c1.peer with sweep := none } } .peer 19 := by
    have hn : ¬ portUp s.toChip n = false := by rw [hu]; exact fun h => Bool.false_ne_true h.symm
    unfold calLaneDone
    rw [hs]
    dsimp only
    rw [if_neg hn]
    cases b <;> rfl
  have hm := portMoved_setPport s.toChip n y
  have hup : ∀ q, portUp (setPport s.toChip n y) q = portUp s.toChip q := fun q => by
    unfold portUp
    by_cases e : q = n
    · rw [e, hm.self, hst]
    · rw [hm.other q e]
  have hnx : nextSweepPort (setPport s.toChip n y) (n + 1) = nextSweepPort s.toChip (n + 1) :=
    congrArg ports4.find? (funext fun q => congrArg (decide (n + 1 ≤ q) && ·) (hup q))
  rw [hk] at he
  dsimp only at he
  rw [hup, hnx] at he
  generalize setPport s.toChip n y = c at he hm
  have hl15 : l ≠ 15 ↔ l.toNat < 15 := by
    have := l.isLt
    rw [ne_eq, ← BitVec.toNat_inj]
    show ¬ l.toNat = 15 ↔ l.toNat < 15
    omega
  refine ⟨fun h => ?_, fun h hn => ?_⟩
  · rw [if_pos ⟨hu, hl15.1 h⟩] at he
    exact ⟨_, he, after_pending _ _, hm.self, hm.other, rfl⟩
  · rw [if_neg (fun x => hl15.2 x.2 h), hn] at he
    have hq := quiet_raise { c with peer := { c.peer with sweep := none } } .peer 19
    have hev : bit (hdr (raise { c with peer := { c.peer with sweep := none } } .peer 19) .peer).int 19 = true :=
      raises_int (l := [(.peer, 19)]) (by decide) (by simp)
    generalize raise { c with peer := { c.peer with sweep := none } } .peer 19 = d at he hq hev
    have hsw : d.peer.sweep = none := congrArg (·.peer.sweep) hq
    have hp : ∀ q, pport d q = pport c q := fun q => (pport_of_quiet hq q).trans rfl
    exact ⟨_, he, after_pending _ _, (hp n).trans hm.self, fun q hne => (hp q).trans (hm.other q hne), hsw, hev⟩

end Sys2Proof.Machine
end

section
/-! Frames of the peer ports: output arbitration, arrival, transit and delivery (O42). -/

namespace Sys2Proof.Machine

open Sys2Proof.Safety

/-! ### Output arbitration (R351, R352) -/

theorem pickChannel_single (c : Chip) {x : PeerPort} {f : QFrame} (hq : x.queue = [f]) (hv : f.vc < 4) :
    (pickChannel c x).1 = f.vc := by
  have hcase : f.vc = 0 ∨ f.vc = 1 ∨ f.vc = 2 ∨ f.vc = 3 := by omega
  unfold pickChannel
  rw [hq]
  rcases hcase with h | h | h | h
  · simp [h]
  · simp [h]
  · simp [h, weigh]
  · simp [h, weigh]

theorem setAt_head {α : Type} {l : List α} (d : α) (h : l ≠ []) : setAt l 0 (l.getD 0 d) = l := by
  cases l with
  | nil => exact absurd rfl h
  | cons a r => rfl

/-- A single frame that waits leaves, unmarked. -/
theorem arbitrate_single {c : Chip} {p : Nat} {f : QFrame} (hu : portUp c p = true) (hf : peerForwards c = true)
    (hq : (pport c p).queue = [f]) (hv : f.vc < 4) (hb : f.bytes ≠ []) :
    ∃ y : PeerPort, y.queue = [] ∧ y.tx = (pport c p).tx ++ [f.bytes] ∧
      arbitrate c p = bumpPairB (setPport c p y) p (if f.transit then aPEER_TRANSIT_LO else aPEER_LOCAL_LO) 1 := by
  have hne : ¬ (portUp c p = false ∨ peerForwards c = false ∨ (pport c p).queue = []) := by
    rw [hu, hf, hq]
    simp
  have hch := pickChannel_single c hq hv
  have hw : ∀ na nb wa wb, (weigh f.transit (!f.transit) na nb wa wb).1 = f.transit := fun _ _ _ _ => by
    cases f.transit <;> rfl
  have hself : (f.bytes.getD 0 0 ||| (0 : Byte)) = f.bytes.getD 0 0 := BitVec.or_zero
  unfold arbitrate
  dsimp only
  rw [if_neg hne]
  generalize hpc : pickChannel c (pport c p) = z at hch
  obtain ⟨v, nb, nk⟩ := z
  subst hch
  have hany : ∀ t, (pport c p).queue.any (fun g => f.vc = g.vc && g.transit == t) = (f.transit == t) := fun t => by
    rw [hq]
    simp
  have hany' : ∀ t, (pport c p).queue.any (fun g => g.vc = f.vc && g.transit == t) = (f.transit == t) := fun t => by
    rw [hq]
    simp
  have ht : (f.transit == true) = f.transit := by cases f.transit <;> rfl
  have hnt : (f.transit == false) = !f.transit := by cases f.transit <;> rfl
  dsimp only
  simp only [hany', ht, hnt, hw]
  rw [hq]
  simp only [List.find?_cons, decide_true, Bool.true_and, beq_self_eq_true, dropFirst, if_true, waitingBytes, List.filter_nil,
    List.map_nil, List.sum_nil, Nat.not_lt_zero, decide_false, Bool.false_eq_true, if_false]
  rw [hself, setAt_head _ hb]
  exact ⟨_, rfl, rfl, rfl⟩

/-- PEER_OUTPUT_ARBITRATE with one frame waiting. -/
theorem frameLeaves {s : State} (port : PortId) (hl : Linked s.toChip) (f : QFrame) :
    let n := port.toNat
    let x := pport s.toChip n
    portUp s.toChip n = true → peerForwards s.toChip = true → x.queue = [f] → f.vc < 4 → f.bytes ≠ [] →
      Completes (.peerOutputArbitrate port) s (fun t => (∀ q, q ≠ n → pport t.toChip q = pport s.toChip q) ∧
        (pport t.toChip n).queue = [] ∧ (pport t.toChip n).tx = x.tx ++ [f.bytes] ∧
        let a := if f.transit then aPEER_TRANSIT_LO else aPEER_LOCAL_LO
        pairB t.toChip n a = (pairB s.toChip n a + 1) % 2 ^ 64) := by
  intro n x hu hf hq hv hb
  have he : exec (.peerOutputArbitrate port) s = act s (fun c => whenLinked c (fun c => arbitrate c port.toNat)) := rfl
  obtain ⟨y, hy1, hy2, hy⟩ := arbitrate_single hu hf hq hv hb
  rw [act_whenLinked hl, hy] at he
  have hm := portMoved_setPport s.toChip n y
  have hp : ∀ a, pairB (setPport s.toChip n y) n a = pairB s.toChip n a := fun _ => rfl
  generalize setPport s.toChip port.toNat y = c at he hm hp
  generalize (if f.transit then aPEER_TRANSIT_LO else aPEER_LOCAL_LO) = a at he ⊢
  have hm2 := hm.of_quiet (quiet_bumpPairB c n a 1)
  have hcnt := pairB_bumpPairB c n a 1
  generalize bumpPairB c port.toNat a 1 = d at he hm2 hcnt
  refine ⟨_, he, after_pending _ _, hm2.other, (congrArg PeerPort.queue hm2.self).trans hy1,
    (congrArg PeerPort.tx hm2.self).trans hy2, ?_⟩
  exact hcnt.trans (by rw [hp])

/-! ### What a frame's codewords count (R344) -/

/-- The effects of a frame's codewords: the two counters of the port. -/
structure FecCounted (c d : Chip) (n : Nat) (ws : List Codeword) : Prop where
  corr : (regB d n aPEER_FEC_CORR).toNat = min ((regB c n aPEER_FEC_CORR).toNat + fecCount ws .corrected) 0xFFFFFFFF
  uncorr : (regB d n aPEER_FEC_UNCORR).toNat =
    min ((regB c n aPEER_FEC_UNCORR).toNat + fecCount ws .uncorrectable) 0xFFFFFFFF

theorem hdr_bumpB (c : Chip) (b a n : Nat) (p : Page) : hdr (bumpB c b a n) p = hdr c p := by
  unfold bumpB
  split
  · rfl
  · rw [setRegB, hdr_setKey]

theorem regKey_countFec (c : Chip) (n : Nat) (ws : List Codeword) {k : Nat} (h1 : k ≠ rkey n aPEER_FEC_CORR)
    (h2 : k ≠ rkey n aPEER_FEC_UNCORR) : regKey (countFec c n ws) k = regKey c k :=
  (regKey_bumpB_other _ _ _ _ h2).trans (regKey_bumpB_other _ _ _ _ h1)

theorem regB_countFec (c : Chip) (n : Nat) (ws : List Codeword) {b a : Nat} (h : a < bankStride) (h1 : a ≠ aPEER_FEC_CORR)
    (h2 : a ≠ aPEER_FEC_UNCORR) : regB (countFec c n ws) b a = regB c b a :=
  regKey_countFec c n ws (rkey_apart h (by decide) h1) (rkey_apart h (by decide) h2)

theorem quiet_countFec (c : Chip) (n : Nat) (ws : List Codeword) : quiet (countFec c n ws) = quiet c :=
  (quiet_bumpB ..).trans (quiet_bumpB ..)

theorem hdr_countFec (c : Chip) (n : Nat) (ws : List Codeword) (p : Page) : hdr (countFec c n ws) p = hdr c p :=
  (hdr_bumpB ..).trans (hdr_bumpB ..)

theorem fecCounted_countFec (c : Chip) (n : Nat) (ws : List Codeword) : FecCounted c (countFec c n ws) n ws := by
  refine ⟨?_, ?_⟩
  · refine (congrArg BitVec.toNat (regKey_bumpB_other _ _ _ _ (rkey_apart (by decide) (by decide) (by decide)))).trans ?_
    exact toNat_regB_bumpB ..
  · refine (toNat_regB_bumpB ..).trans ?_
    have h : regB (bumpB c n aPEER_FEC_CORR (fecCount ws .corrected)) n aPEER_FEC_UNCORR = regB c n aPEER_FEC_UNCORR :=
      regKey_bumpB_other _ _ _ _ (rkey_apart (by decide) (by decide) (by decide))
    exact congrArg (fun w : Word => min (w.toNat + fecCount ws .uncorrectable) 0xFFFFFFFF) h

theorem FecCounted.of_regs {c d e : Chip} {n : Nat} {ws : List Codeword} (h : FecCounted c d n ws)
    (h1 : regB e n aPEER_FEC_CORR = regB d n aPEER_FEC_CORR) (h2 : regB e n aPEER_FEC_UNCORR = regB d n aPEER_FEC_UNCORR) :
    FecCounted c e n ws := ⟨by rw [h1]; exact h.corr, by rw [h2]; exact h.uncorr⟩

/-- A frame that is dropped once its codewords are counted. -/
theorem fecDropped {c d : Chip} {n : Nat} {ws : List Codeword} (h : FecCounted c d n ws) {a : Nat} (ha : a < bankStride)
    (h1 : a ≠ aPEER_FEC_CORR) (h2 : a ≠ aPEER_FEC_UNCORR) : FecCounted c (dropFrame d a 1) n ws :=
  h.of_regs
    (regKey_dropFrame d a 1 (rkey_apart (by decide) ha (fun x => h1 x.symm))
      (eventKey_rkey (by decide) (by decide) (by decide) (by decide)))
    (regKey_dropFrame d a 1 (rkey_apart (by decide) ha (fun x => h2 x.symm))
      (eventKey_rkey (by decide) (by decide) (by decide) (by decide)))

/-! ### Routing (R347, R348) -/

/-- A route depends on PEER and on the enables of its ports. -/
theorem routeOf_congr {c d : Chip} (hp : d.peer = c.peer) (hr : ∀ q, regB d q aPEER_PORT_CFG = regB c q aPEER_PORT_CFG)
    (f : Option Nat) (dst cls : Nat) (b : Bool) (v : Nat) : routeOf d f dst cls b v = routeOf c f dst cls b v := by
  have hpp : ∀ q, pport d q = pport c q := fun q => by rw [pport, hp, pport]
  have hu : portUp d = portUp c := funext fun q => by rw [portUp, hpp, portUp]
  have he : routeEntry d dst = routeEntry c dst := by rw [routeEntry, hp, routeEntry]
  have hc : escapeClass d = escapeClass c := by
    funext g k q
    unfold escapeClass
    rw [hr]
  unfold routeOf
  rw [he, hu, hc]

/-- Outside the adaptive class a frame is routed as an unsprayed one. -/
theorem routeOf_unsprayed (c : Chip) (f : Option Nat) (dst : Nat) {cls : Nat} {b : Bool} (h : b = false ∨ cls ≠ 2) (v : Nat) :
    routeOf c f dst cls b v = routeOf c f dst cls false v := by
  have hb : (b && decide (cls = 2)) = false := by
    rcases h with h | h
    · rw [h, Bool.false_and]
    · rw [decide_eq_false h, Bool.and_false]
  unfold routeOf
  simp only [hb, Bool.false_and]

/-! ### Arrival (R344, R347, R355, R359) -/

theorem exec_peerFrameRx {s : State} (port : PortId) (first : BitVec 4) (ws : List Codeword) (hl : Linked s.toChip)
    (hf : peerForwards s.toChip = true) (hu : portUp s.toChip port.toNat = true) :
    exec (.peerFrameRx port first ws) s = .next (after s
      (if frameWhole (stripeOrder (pport s.toChip port.toNat) first.toNat) ws = false then countFec s.toChip port.toNat ws
       else peerFrame (countFec s.toChip port.toNat ws) port.toNat
        (reassemble (stripeOrder (pport s.toChip port.toNat) first.toNat) ws))) := by
  have he : exec (.peerFrameRx port first ws) s = act s (fun c => whenLinked c (fun c =>
    peerFrameRx c port.toNat first.toNat ws)) := rfl
  rw [he, act_whenLinked hl, peerFrameRx, if_neg (by rw [hf, hu]; simp)]

/-- A frame that the ports drop. -/
theorem frameDropped {i : Instr} {s : State} {n a : Nat} {ws : List Codeword}
    (he : exec i s = .next (after s (dropFrame (countFec s.toChip n ws) a 1))) (ha : a < bankStride)
    (h1 : a ≠ aPEER_FEC_CORR) (h2 : a ≠ aPEER_FEC_UNCORR) (h3 : eventKey (rkey 0 a) = false) :
    Quietly i s s.toChip (fun t => (CountedB s t n aPEER_FEC_CORR (fecCount ws .corrected) ∧
      CountedB s t n aPEER_FEC_UNCORR (fecCount ws .uncorrectable)) ∧ Counted s t a 1 ∧ Event t .peer 21) := by
  have hq := (quiet_dropFrame (countFec s.toChip n ws) a 1).trans (quiet_countFec s.toChip n ws)
  have hc := fecDropped (fecCounted_countFec s.toChip n ws) ha h1 h2
  have hn := toNat_dropFrame (countFec s.toChip n ws) a 1 h3
  have hr : reg (countFec s.toChip n ws) a = reg s.toChip a := regB_countFec s.toChip n ws ha h1 h2
  have hev := int_dropFrame (countFec s.toChip n ws) a Nat.one_ne_zero
  generalize dropFrame (countFec s.toChip n ws) a 1 = d at he hq hc hn hev
  rw [hr] at hn
  exact ⟨_, he, after_pending _ _, (quiet_after ..).trans hq, ⟨hc.corr, hc.uncorr⟩, hn, hev⟩

/-- A frame for another node (R347). -/
theorem frameTransits {i : Instr} {s : State} {n : Nat} {ws : List Codeword} {l : List Byte}
    (he : exec i s = .next (after s (transitFrame (countFec s.toChip n ws) n l))) :
    (frHops l = 0 → Quietly i s s.toChip (fun t => (CountedB s t n aPEER_FEC_CORR (fecCount ws .corrected) ∧
      CountedB s t n aPEER_FEC_UNCORR (fecCount ws .uncorrectable)) ∧ Counted s t aPEER_DROP_HOPS 1 ∧ Event t .peer 21)) ∧
    (∀ q k, frHops l ≠ 0 → (frSpray l = false ∨ frCls l ≠ 2) →
      routeOf s.toChip (some n) (frDst l) (frCls l) false 0 = .out q k →
      Completes i s (fun t => (CountedB s t n aPEER_FEC_CORR (fecCount ws .corrected) ∧
        CountedB s t n aPEER_FEC_UNCORR (fecCount ws .uncorrectable)) ∧
        (∀ j, j ≠ q → pport t.toChip j = pport s.toChip j) ∧
        pport t.toChip q = { pport s.toChip q with queue := (pport s.toChip q).queue ++
          [{ vc := frVc l, cls := k, transit := true
             bytes := frameBytes (frVc l) k (frCong l) ((l.getD 0 0).getLsbD 5) (frHops l - 1) (frDst l) (frSrc l)
              (l.drop 8) }] })) := by
  refine ⟨fun h => ?_, fun q k h hs hr => ?_⟩
  · rw [transitFrame, if_pos h] at he
    exact frameDropped he (by decide) (by decide) (by decide) (by decide)
  · have hns : (frSpray l && decide (frCls l = 2)) = false := by
      rcases hs with hs | hs
      · rw [hs, Bool.false_and]
      · rw [decide_eq_false hs, Bool.and_false]
    have hc := fecCounted_countFec s.toChip n ws
    have hq := quiet_countFec s.toChip n ws
    have hro : routeOf (countFec s.toChip n ws) (some n) (frDst l) (frCls l) (frSpray l) 0 = .out q k := by
      rw [routeOf_unsprayed _ _ _ hs, ← hr]
      exact routeOf_congr (congrArg (·.peer) hq) (fun j => regB_countFec s.toChip n ws (by decide) (by decide) (by decide)) ..
    unfold transitFrame at he
    rw [if_neg h] at he
    simp only [hns, Bool.false_eq_true, if_false] at he
    rw [hro] at he
    generalize countFec s.toChip n ws = c at he hc hq
    have hp := fun j => pport_of_quiet hq j
    generalize hy : ({ pport c q with queue := (pport c q).queue ++
      [{ vc := frVc l, cls := k, transit := true
         bytes := frameBytes (frVc l) k (frCong l) ((l.getD 0 0).getLsbD 5) (frHops l - 1) (frDst l) (frSrc l)
          (l.drop 8) }] } : PeerPort) = y
    have he' : exec i s = .next (after s (setPport c q y)) := by rw [← hy]; exact he
    have hm := portMoved_setPport c q y
    have hcs := hc.of_regs (reg_setPport c q y n aPEER_FEC_CORR) (reg_setPport c q y n aPEER_FEC_UNCORR)
    refine ⟨_, he', after_pending _ _, ⟨hcs.corr, hcs.uncorr⟩, fun j hj => (hm.other j hj).trans (hp j), hm.self.trans ?_⟩
    rw [← hy, hp]

theorem after_of_pending {s u : State} (h : u.pending = s.pending) (c : Chip) : after u c = after s c := by
  cases s
  cases u
  cases h
  rfl

/-- A packet that a frame brings has the effect of the command of its TYPE. -/
theorem packet_runs {i : Instr} {s u : State} {k : Link} {b : List Byte} {p : Pkt} (hu : u.pending = s.pending)
    (hr : u.chip.fast = .run) (ht : u.pwr.tripped = false) (hf : u.flt.faulted = false) (hp : parsePkt b = some p)
    (he : exec i s = .next (after s (pktRx u.toChip k b))) : packetRuns i s u k p := by
  have hw : ∀ (j : Instr) (f : Chip → Chip), exec j u = act u (fun c => whenAwake c f) →
      exec j u = .next (after s (f u.toChip)) := fun j f hj => by
    have h : whenAwake u.toChip f = f u.toChip :=
      if_pos (by rw [fastRuns, hr, hf, ht]; rfl)
    rw [hj, act, h, ← after_of_pending hu]
    rfl
  have hx : pktRx u.toChip k b =
      if p.typ.toNat = 1 then rxData u.toChip k p (fun c n => assembleAll (writeAccess (settle c) n p) n)
      else if p.typ.toNat = 2 then rxData u.toChip k p (fun c n => assembleAll (readAccess (settle c) n p) n)
      else if p.typ.toNat = 3 then rxData u.toChip k p (fun c n => assembleAll (respAccess (settle c) n p) n)
      else if p.typ.toNat = 4 then rxData u.toChip k p (fun c n => assembleAll (msgAccess c n p) n)
      else if p.typ.toNat = 5 then vstAck u.toChip k p
      else if p.typ.toNat = 6 then vstNak u.toChip k p
      else if p.typ.toNat = 7 then connectRx u.toChip k p
      else if p.typ.toNat = 8 then connectAckRx u.toChip k p
      else vstClose u.toChip k p := by
    rw [pktRx, hp]
  rw [hx] at he
  refine ⟨fun h => ?_, fun h => ?_, fun h => ?_, fun h => ?_, fun h => ?_, fun h => ?_, fun h => ?_, fun h => ?_, fun h => ?_⟩
  all_goals simp only [h, BitVec.reduceToNat, Nat.reduceEqDiff, if_true, if_false] at he
  · have e := hw (.vstWrite k p) _ rfl
    exact he.trans e.symm
  · have e := hw (.vstReadReq k p) _ rfl
    exact he.trans e.symm
  · have e := hw (.vstReadResp k p) _ rfl
    exact he.trans e.symm
  · have e := hw (.vstMsg k p) _ rfl
    exact he.trans e.symm
  · have e := hw (.vstAck k p) _ rfl
    exact he.trans e.symm
  · have e := hw (.vstNak k p) _ rfl
    exact he.trans e.symm
  · have e := hw (.vstConnect k p) _ rfl
    exact he.trans e.symm
  · have e := hw (.vstConnectAck k p) _ rfl
    exact he.trans e.symm
  · have e := hw (.vstClose k p) _ rfl
    exact he.trans e.symm

/-- A wake that begins. -/
theorem startWake_wakes (c : Chip) : (startWake c).peer = c.peer ∧ (∀ b a, regB (startWake c) b a = regB c b a) ∧
    (sleeping c = true → (startWake c).chip = { c.chip with fast := .waking, wakeFrom := c.chip.fast }) ∧
    (sleeping c = false → (startWake c).chip = c.chip) := by
  unfold startWake
  split
  · next h => exact ⟨rfl, fun _ _ => rfl, fun _ => rfl, fun x => absurd (x.symm.trans h) Bool.false_ne_true⟩
  · next h => exact ⟨rfl, fun _ _ => rfl, fun x => absurd x h, fun _ => rfl⟩

/-- A frame for this node (R347, R359). -/
theorem frameDelivered {i : Instr} {s : State} {n : Nat} {ws : List Codeword} {l : List Byte}
    (he : exec i s = .next (after s (localFrame (countFec s.toChip n ws) l))) (hb : bstate s.toChip .peer ≠ .disabled)
    (ht : s.pwr.tripped = false) (hf : s.flt.faulted = false) :
    (asleep s.toChip = true → Completes i s (fun t => (CountedB s t n aPEER_FEC_CORR (fecCount ws .corrected) ∧
        CountedB s t n aPEER_FEC_UNCORR (fecCount ws .uncorrectable)) ∧
      t.peer = { s.peer with held := s.peer.held ++ [l] } ∧
      (sleeping s.toChip = true → t.chip = { s.chip with fast := .waking, wakeFrom := s.chip.fast }) ∧
      (sleeping s.toChip = false → t.chip = s.chip))) ∧
    (∀ p, s.chip.fast = .run → parsePkt (l.drop 8) = some p →
      packetRuns i s { s with toChip := countFec s.toChip n ws } (peerLink l) p) := by
  have hc := fecCounted_countFec s.toChip n ws
  have hq := quiet_countFec s.toChip n ws
  have hst : bstate (countFec s.toChip n ws) .peer = bstate s.toChip .peer := congrArg BlockHdr.state (hdr_countFec ..)
  have hflt : (countFec s.toChip n ws).flt = s.flt := (flt_bumpB ..).trans (flt_bumpB ..)
  generalize countFec s.toChip n ws = c at he hc hq hst hflt
  have hchip : c.chip = s.chip := congrArg (·.chip) hq
  have hpeer : c.peer = s.peer := congrArg (·.peer) hq
  have hpwr : c.pwr = s.pwr := congrArg (·.pwr) hq
  have hsv : nodeServes c = true := by rw [nodeServes, hpwr, hflt, ht, hf]; rfl
  have hn : ¬ ((!nodeServes c) = true ∨ bstate c .peer = .disabled) := by
    rw [hsv, hst]
    exact fun x => x.elim (fun h => absurd h Bool.false_ne_true) hb
  have has : asleep c = asleep s.toChip := by rw [asleep, hchip, asleep]
  have hsl : sleeping c = sleeping s.toChip := by rw [sleeping, hchip, sleeping]
  rw [localFrame, if_neg hn, has] at he
  refine ⟨fun h => ?_, fun p h hp => ?_⟩
  · rw [if_pos h] at he
    obtain ⟨hwp, hwr, hw1, hw2⟩ := startWake_wakes c
    rw [hsl, hchip] at hw1 hw2
    generalize startWake c = d at he hwp hwr hw1 hw2
    have hcd := hc.of_regs (hwr n aPEER_FEC_CORR) (hwr n aPEER_FEC_UNCORR)
    refine ⟨_, he, after_pending _ _, ⟨hcd.corr, hcd.uncorr⟩, ?_, hw1, hw2⟩
    show { d.peer with held := d.peer.held ++ [l] } = _
    rw [hwp, hpeer]
  · have ha : asleep s.toChip = false := by rw [asleep, h]; rfl
    rw [if_neg (by rw [ha]; exact Bool.false_ne_true)] at he
    exact packet_runs rfl (by rw [← h]; exact congrArg (·.fast) hchip) (by rw [← ht]; exact congrArg (·.tripped) hpwr)
      (by rw [← hf]; exact congrArg (·.faulted) hflt) hp he

/-- A frame that arrives. -/
theorem frameArrives {s : State} (port : PortId) (hl : Linked s.toChip) (first : BitVec 4) (ws : List Codeword)
    (l : List Byte) (hf : peerForwards s.toChip = true) (hu : portUp s.toChip port.toNat = true) :
    let n := port.toNat
    let order := stripeOrder (pport s.toChip n) first.toNat
    let fec := fun (t : State) => CountedB s t n aPEER_FEC_CORR (fecCount ws .corrected) ∧
      CountedB s t n aPEER_FEC_UNCORR (fecCount ws .uncorrectable)
    (frameWhole order ws = false → Quietly (.peerFrameRx port first ws) s s.toChip fec) ∧
    (frameWhole order ws = true → reassemble order ws = l →
      (frameOk l = false → Quietly (.peerFrameRx port first ws) s s.toChip (fun t => fec t ∧
        Counted s t aPEER_DROP_ROUTE 1 ∧ Event t .peer 21)) ∧
      (frameOk l = true → frameForUs s.toChip l = false →
        (frHops l = 0 → Quietly (.peerFrameRx port first ws) s s.toChip (fun t => fec t ∧
          Counted s t aPEER_DROP_HOPS 1 ∧ Event t .peer 21)) ∧
        (∀ q k, frHops l ≠ 0 → (frSpray l = false ∨ frCls l ≠ 2) →
          routeOf s.toChip (some n) (frDst l) (frCls l) false 0 = .out q k →
          Completes (.peerFrameRx port first ws) s (fun t => fec t ∧ (∀ j, j ≠ q → pport t.toChip j = pport s.toChip j) ∧
            pport t.toChip q = { pport s.toChip q with queue := (pport s.toChip q).queue ++
              [{ vc := frVc l, cls := k, transit := true
                 bytes := frameBytes (frVc l) k (frCong l) ((l.getD 0 0).getLsbD 5) (frHops l - 1) (frDst l) (frSrc l)
                  (l.drop 8) }] }))) ∧
      (frameOk l = true → frameForUs s.toChip l = true → bstate s.toChip .peer ≠ .disabled → s.pwr.tripped = false →
        s.flt.faulted = false →
        (asleep s.toChip = true → Completes (.peerFrameRx port first ws) s (fun t => fec t ∧
          t.peer = { s.peer with held := s.peer.held ++ [l] } ∧
          (sleeping s.toChip = true → t.chip = { s.chip with fast := .waking, wakeFrom := s.chip.fast }) ∧
          (sleeping s.toChip = false → t.chip = s.chip))) ∧
        (∀ p, s.chip.fast = .run → parsePkt (l.drop 8) = some p → packetRuns (.peerFrameRx port first ws) s
          { s with toChip := countFec s.toChip n ws } (peerLink l) p))) := by
  intro n order fec
  have he := exec_peerFrameRx port first ws hl hf hu
  have hfu : frameForUs (countFec s.toChip n ws) l = frameForUs s.toChip l := by
    have hr : reg (countFec s.toChip n ws) aPEER_NODE = reg s.toChip aPEER_NODE :=
      regB_countFec s.toChip n ws (by decide) (by decide) (by decide)
    unfold frameForUs forNode
    rw [hr]
  refine ⟨fun h => ?_, fun h hr => ?_⟩
  · rw [if_pos h] at he
    have hc := fecCounted_countFec s.toChip n ws
    exact ⟨_, he, after_pending _ _, (quiet_after ..).trans (quiet_countFec ..), hc.corr, hc.uncorr⟩
  · have hr' : reassemble (stripeOrder (pport s.toChip port.toNat) first.toNat) ws = l := hr
    rw [if_neg (fun x => absurd (x.symm.trans h) Bool.false_ne_true), hr', peerFrame] at he
    refine ⟨fun hok => ?_, fun hok hus => ?_, fun hok hus hb ht hfl => ?_⟩
    · rw [if_pos (by rw [hok]; rfl)] at he
      exact frameDropped he (by decide) (by decide) (by decide) (by decide)
    · rw [if_neg (by rw [hok]; decide), hfu, if_neg (by rw [hus]; exact Bool.false_ne_true)] at he
      exact frameTransits he
    · rw [if_neg (by rw [hok]; decide), hfu, if_pos hus] at he
      exact frameDelivered he hb ht hfl

end Sys2Proof.Machine
end

section
/-! The registers of PEER with a rule of their own, and O42 from its parts. -/

namespace Sys2Proof.Machine

open Sys2Proof.Safety

theorem pageWrite_peer {c : Chip} {x : RegWr} (h : pageOf (x.a / 0x4000) = .peer) : pageWrite c x = writePeer c x := by
  unfold pageWrite
  rw [h]

theorem desk_withPeer (c : Chip) (x : PeerUnit) : desk { c with peer := x } = { desk c with peer := x } := rfl

theorem peer_of_desk {c d : Chip} (h : desk c = desk d) : c.peer = d.peer := congrArg (·.peer) h

theorem pport_of_desk {c d : Chip} (h : desk c = desk d) (q : Nat) : pport c q = pport d q := by
  rw [pport, peer_of_desk h, pport]

theorem pport_answered (s : State) (c : Chip) (r : Requester) (n : Nat) (d : Word) (q : Nat) :
    pport (after s (keepStatus (answer c n d) r n)).toChip q = pport c q := by cases r <;> rfl

theorem peer_answered (s : State) (c : Chip) (r : Requester) (n : Nat) (d : Word) :
    (after s (keepStatus (answer c n d) r n)).peer = c.peer := by cases r <;> rfl

theorem armed_answered (s : State) (c : Chip) (r : Requester) (n : Nat) (d : Word) (p : Page) :
    armed (after s (keepStatus (answer c n d) r n)).toChip r p = armed c r p := by cases r <;> rfl

/-! ### CAL_CTRL (R354) -/

/-- The row of CAL_CTRL. -/
def rowCalCtrl : RegRow := ⟨0x080, 1, .none_, 0, [⟨23, 16, .rwt, 0xf⟩, ⟨8, 8, .rwt, 1⟩, ⟨7, 4, .ro, 0⟩, ⟨3, 2, .ro, 0⟩,
  ⟨0, 0, .rw, 0⟩]⟩

/-- CAL_CTRL with a word stored. -/
def calStored (c : Chip) (v : Word) : Chip := setKey c (rkey 0 aPEER_CAL_CTRL) (storeMask rowCalCtrl &&& ~~~1) v

/-- START of CAL_CTRL through its bit-setting address. -/
theorem mgmtWrite_calStart {c : Chip} {r : Requester} (h : Reaches c r .peer) :
    ∃ v, mgmtWrite c r (aliasAddr 0x1000 aPEER_CAL_CTRL) 1 =
      keepStatus (answer (startSweep (calStored (setArmed c r .peer false) v)) stOK 0) r stOK := by
  have hb := (reachesReg_alias (a := aPEER_CAL_CTRL) (by decide)).2.1
  have hp : pageOf (aliasAddr 0x1000 aPEER_CAL_CTRL / 0x4000) = .peer := by decide
  have hr : rowOf aPEER_CAL_CTRL = some rowCalCtrl := rfl
  have hw : ∀ x : RegWr, x.a = aPEER_CAL_CTRL → x.row = rowCalCtrl → bit x.ones 0 = true →
      pageWrite (setArmed c r .peer false) x = (stOK, startSweep (calStored (setArmed c r .peer false) x.new)) :=
    fun x ha hrow ho => by
      rw [pageWrite_peer (by rw [ha]; rfl), writePeer, if_neg (fun z => absurd (ha.symm.trans z.1) (by decide)), if_neg (by rw [ha]; decide), if_pos ha]
      dsimp only
      rw [if_pos ho, ha, hrow]
      rfl
  refine ⟨(regWrOf (setArmed c r .peer false) (some r) (reqPart c r) noArgs rowCalCtrl .set
    (bankFor c (reqPart c r) rowCalCtrl.bank) aPEER_CAL_CTRL 1 none).new, ?_⟩
  unfold mgmtWrite mgmtWriteWith
  rw [if_neg (by rw [h.1]; exact fun x => Bool.false_ne_true x.symm), gate_ok true h hp hb.aligned hb.below]
  dsimp only
  rw [if_neg (fun x => x rfl), writeAt, hb.base, hb.mode, hp, if_neg (by decide), if_neg (by decide), hr]
  dsimp only
  rw [rowWrite]
  dsimp only
  rw [if_neg (by decide), if_neg (fun z => absurd z.1 (by decide)), 
    if_neg (fun z => absurd z.2 (by rw [if_neg (by decide)]; exact Bool.false_ne_true)), hw _ rfl rfl (show bit (1 &&& storeMask rowCalCtrl) 0 = true by decide)]
  rfl

theorem portUp_congr {c d : Chip} (hp : d.peer = c.peer) (q : Nat) : portUp d q = portUp c q := by
  rw [portUp, pport, hp, portUp, pport]

theorem nextSweepPort_congr {c d : Chip} (hp : d.peer = c.peer) (n : Nat) : nextSweepPort d n = nextSweepPort c n :=
  congrArg ports4.find? (funext fun q => congrArg (decide (n ≤ q) && ·) (portUp_congr hp q))

theorem peerForwards_congr {c d : Chip} (hp : d.peer = c.peer) (hh : hdr d .peer = hdr c .peer) :
    peerForwards d = peerForwards c := by
  unfold peerForwards isUp bstate
  rw [hp, hh]

/-- CAL_SWEEP_START by a requester. -/
theorem calStartWritten {s : State} {r : Requester} (q : Nat) (h : Reaches s.toChip r .peer)
    (hf : peerForwards s.toChip = true) (hs : s.peer.sweep = none) (hq : nextSweepPort s.toChip 0 = some q) :
    Accepted (.calSweepStart (some r)) s r { s.toChip with peer := { s.peer with sweep := some (q, 0) } } (fun _ => True) := by
  obtain ⟨v, hv⟩ := mgmtWrite_calStart h
  have he : exec (.calSweepStart (some r)) s =
      .next (after s (mgmtWrite s.toChip r (aliasAddr 0x1000 aPEER_CAL_CTRL) 1)) := rfl
  rw [hv] at he
  have hd : desk (calStored (setArmed s.toChip r .peer false) v) = desk s.toChip :=
    (desk_of_quiet (quiet_setKey ..)).trans (desk_setArmed ..)
  have hh : hdr (calStored (setArmed s.toChip r .peer false) v) .peer = hdr s.toChip .peer :=
    (hdr_setKey ..).trans (hdr_setArmed ..)
  generalize calStored (setArmed s.toChip r .peer false) v = c at he hd hh
  have hp := peer_of_desk hd
  rw [startSweep_first ((peerForwards_congr hp hh).trans hf) ((congrArg (·.sweep) hp).trans hs)
    ((nextSweepPort_congr hp 0).trans hq)] at he
  refine accepted_of he ?_ trivial
  rw [desk_withPeer, hd, hp]
  rfl

/-! ### PORT_CFG (R361) -/

/-- The row of PORT_CFG. -/
def rowPortCfg : RegRow := ⟨0x048, 1, .port, 0, [⟨2, 2, .rwt, 1⟩, ⟨1, 1, .rwt, 0⟩, ⟨0, 0, .rwt, 1⟩]⟩

/-- PORT_CFG of a port with a word stored. -/
def portCfgStored (c : Chip) (n : Nat) (w : Word) : Chip := setKey c (rkey n aPEER_PORT_CFG) (storeMask rowPortCfg) w

/-- What a change of ENABLE does (R361). -/
def portCfgJudged (c : Chip) (n : Nat) (w : Word) : Nat × Chip :=
  if portEnabled c n = true ∧ (!bit w 0) = true then (stOK, portOff (portCfgStored c n w) n)
  else if (!portEnabled c n) = true ∧ bit w 0 = true ∧ isOn c .peer = true ∧ (pport c n).state = .off then
    (stOK, portTrain (portCfgStored c n w) n)
  else (stOK, portCfgStored c n w)

theorem portCfgJudged_off {c : Chip} {n : Nat} {w : Word} (h1 : portEnabled c n = true) (h2 : bit w 0 = false) :
    portCfgJudged c n w = (stOK, portOff (portCfgStored c n w) n) := if_pos ⟨h1, by rw [h2]; rfl⟩

theorem portCfgJudged_train {c : Chip} {n : Nat} {w : Word} (h1 : portEnabled c n = false) (h2 : bit w 0 = true)
    (h3 : isOn c .peer = true) (h4 : (pport c n).state = .off) :
    portCfgJudged c n w = (stOK, portTrain (portCfgStored c n w) n) :=
  (if_neg (fun z => absurd (h1.symm.trans z.1) Bool.false_ne_true)).trans (if_pos ⟨by rw [h1]; rfl, h2, h3, h4⟩)

/-- A write of PORT_CFG. -/
theorem mgmtWrite_portCfg {c : Chip} {r : Requester} (w : Word) (h : Reaches c r .peer) :
    let n := bankFor c 0 .port
    let y := portCfgJudged (setArmed c r .peer false) n w
    mgmtWrite c r aPEER_PORT_CFG w = keepStatus (answer y.2 y.1 0) r y.1 := by
  intro n y
  obtain ⟨x, hx, hw⟩ := mgmtWriteWith_rule (a := aPEER_PORT_CFG) (row := rowPortCfg) noArgs w h (by decide)
    rfl rfl (fun z => by cases z)
  have hb : x.bank = n := hx.bank
  have hst : storeReg (setArmed c r .peer false) x = portCfgStored (setArmed c r .peer false) n w := by
    rw [storeReg_single _ hx.lo, hb, hx.addr, hx.row, hx.new]
    rfl
  have hrule : writePeer (setArmed c r .peer false) x = y := by
    rw [writePeer, if_neg (fun z => absurd (hx.addr.symm.trans z.1) (by decide)), if_pos hx.addr, portCfgWrite, hst, hb, hx.new]
    rfl
  rw [show pageOf (aPEER_PORT_CFG / 0x4000) = .peer from rfl, pageWrite_peer (by rw [hx.addr]; rfl), hrule] at hw
  exact hw

/-- ENABLE reads as it was written. -/
theorem portEnabled_stored (c : Chip) (n : Nat) (w : Word) : portEnabled (portCfgStored c n w) n = bit w 0 := by
  have hm : (storeMask rowPortCfg).getLsbD 0 = true := by decide
  unfold portEnabled portCfgStored
  rw [regB, regKey_setKey_self]
  simp only [bit, BitVec.getLsbD_or, BitVec.getLsbD_and, BitVec.getLsbD_not, hm, Bool.not_true, Bool.and_false,
    Bool.and_true, Bool.false_or]

/-- A port goes OFF. -/
theorem portOff_falls (c : Chip) (n : Nat) :
    (∀ q, q ≠ n → pport (portOff c n) q = pport c q) ∧ pport (portOff c n) n = { portReset with tx := (pport c n).tx } ∧
    (reg (portOff c n) aPEER_DROP_DOWN).toNat = min ((reg c aPEER_DROP_DOWN).toNat + (pport c n).queue.length) 0xFFFFFFFF := by
  have hm : PortMoved c (dropQueue c n) n { pport c n with queue := [] } :=
    (portMoved_setPport c n { pport c n with queue := [] }).of_quiet
      (quiet_dropFrame (setPport c n { pport c n with queue := [] }) aPEER_DROP_DOWN (pport c n).queue.length)
  have hd : (reg (dropQueue c n) aPEER_DROP_DOWN).toNat =
      min ((reg c aPEER_DROP_DOWN).toNat + (pport c n).queue.length) 0xFFFFFFFF := toNat_dropFrame _ _ _ (by decide)
  unfold portOff
  dsimp only
  generalize dropQueue c n = d at hm hd
  have hself : (pport d n).tx = (pport c n).tx := by rw [hm.self]
  rw [hself]
  exact ⟨fun q hq => (pport_setPport_other d _ hq).trans (hm.other q hq), pport_setPport_self .., hd⟩

/-- PORT_ENABLE. -/
theorem portEnables {s : State} {r : Requester} (h : Reaches s.toChip r .peer) (w : Word) :
    let n := bankFor s.toChip 0 .port
    let x := pport s.toChip n
    (portEnabled s.toChip n = true → bit w 0 = false → AcceptedWith (.portEnable r w) s r (fun t =>
      (∀ q, q ≠ n → pport t.toChip q = pport s.toChip q) ∧
      pport t.toChip n = { portReset with tx := x.tx } ∧ Counted s t aPEER_DROP_DOWN x.queue.length)) ∧
    (portEnabled s.toChip n = false → bit w 0 = true → isOn s.toChip .peer = true → x.state = .off →
      AcceptedWith (.portEnable r w) s r (fun t => (∀ q, q ≠ n → pport t.toChip q = pport s.toChip q) ∧
        portEnabled t.toChip n = true ∧ (pport t.toChip n).state = .training)) := by
  intro n x
  have he : exec (.portEnable r w) s = .next (after s (mgmtWrite s.toChip r aPEER_PORT_CFG w)) := rfl
  rw [mgmtWrite_portCfg w h] at he
  have hda := desk_setArmed s.toChip r .peer false
  have hen : portEnabled (setArmed s.toChip r .peer false) n = portEnabled s.toChip n :=
    congrArg (fun v => bit v 0) (regB_setArmed ..)
  have hon : isOn (setArmed s.toChip r .peer false) .peer = isOn s.toChip .peer :=
    congrArg (fun z : BState => decide (z = .on)) (bstate_setArmed ..)
  have hdd : reg (portCfgStored (setArmed s.toChip r .peer false) n w) aPEER_DROP_DOWN = reg s.toChip aPEER_DROP_DOWN :=
    (regKey_setKey_other _ _ _ _ _ (rkey_apart (by decide) (by decide) (by decide))).trans (regKey_setArmed ..)
  generalize setArmed s.toChip r .peer false = c at he hda hen hon hdd
  have hpp : ∀ q, pport (portCfgStored c n w) q = pport s.toChip q := fun q =>
    (pport_of_quiet (quiet_setKey ..) q).trans (pport_of_desk hda q)
  have hpe := portEnabled_stored c n w
  have hst : (pport c n).state = x.state := congrArg PeerPort.state (pport_of_desk hda n)
  refine ⟨fun h1 h2 => ?_, fun h1 h2 h3 h4 => ?_⟩
  · obtain ⟨ho, hs, hd⟩ := portOff_falls (portCfgStored c n w) n
    refine acceptedWith_after he (portCfgJudged_off (hen.trans h1) h2) ⟨fun q hq => ?_, ?_, ?_⟩
    · rw [pport_answered, ho q hq, hpp]
    · rw [pport_answered, hs, hpp]
    · rw [Counted, reg_answered, hd, hdd, hpp]
  · refine acceptedWith_after he (portCfgJudged_train (hen.trans h1) h2 (hon.trans h3) (hst.trans h4)) ⟨fun q hq => ?_, ?_, ?_⟩
    · rw [pport_answered, portTrain, pport_setPport_other _ _ hq, hpp]
    · rw [portEnabled, regB_answered, portTrain, reg_setPport]
      exact hpe.trans h2
    · rw [pport_answered, portTrain, pport_setPport_self]

/-! ### RT_CTRL (R349, R363) -/

/-- The row of RT_CTRL. -/
def rowRtCtrl : RegRow := ⟨0x090, 1, .none_, 0, [⟨8, 8, .ro, 0⟩, ⟨1, 1, .rwg, 0⟩, ⟨0, 0, .rwg, 0⟩]⟩

/-- What RT_CTRL does. -/
def rtRun (c : Chip) (w : Word) : Chip :=
  let c1 := if bit w 0 then rtSwap c else c
  if bit w 1 then rtCopy c1 else c1

/-- An unlocked write of RT_CTRL. -/
theorem mgmtWrite_rtCtrl {c : Chip} {r : Requester} (w : Word) (h : Reaches c r .peer) (ha : armed c r .peer = true) :
    mgmtWrite c r aPEER_RT_CTRL w = keepStatus (answer (rtRun (setArmed c r .peer false) w) stOK 0) r stOK := by
  obtain ⟨x, hx, hw⟩ := mgmtWriteWith_rule (a := aPEER_RT_CTRL) (row := rowRtCtrl) noArgs w h (by decide)
    rfl rfl (fun _ => ha)
  have hrule : writePeer (setArmed c r .peer false) x = (stOK, rtRun (setArmed c r .peer false) w) := by
    rw [writePeer, if_neg (fun z => absurd (hx.addr.symm.trans z.1) (by decide)), if_neg (by rw [hx.addr]; decide),
      if_neg (by rw [hx.addr]; decide), if_neg (by rw [hx.addr]; decide), if_pos hx.addr, hx.ones]
    rfl
  rw [show pageOf (aPEER_RT_CTRL / 0x4000) = .peer from rfl, pageWrite_peer (by rw [hx.addr]; rfl), hrule] at hw
  exact hw

theorem armed_withPeer (c : Chip) (x : PeerUnit) (r : Requester) (p : Page) :
    armed { c with peer := x } r p = armed c r p := by cases r <;> rfl

theorem rtRun_swap (c : Chip) : rtRun c 1 = { c with peer := { c.peer with active := !c.peer.active } } := rfl

theorem rtRun_copy (c : Chip) : rtRun c 2 = { c with peer := { c.peer with
    bank0 := if c.peer.active then c.peer.bank1 else c.peer.bank0
    bank1 := if c.peer.active then c.peer.bank1 else c.peer.bank0 } } := by
  show rtCopy c = _
  unfold rtCopy
  split
  · rfl
  · rfl

/-- A command on the banks with the unlock. -/
theorem rtAccepted {i : Instr} {s : State} {r : Requester} {w : Word} {f : PeerUnit → PeerUnit} (h : Reaches s.toChip r .peer)
    (ha : armed s.toChip r .peer = true) (he : exec i s = .next (after s (mgmtWrite s.toChip r aPEER_RT_CTRL w)))
    (hr : ∀ c : Chip, rtRun c w = { c with peer := f c.peer }) :
    Accepted i s r { s.toChip with peer := f s.peer } (fun t => armed t.toChip r .peer = false) := by
  rw [mgmtWrite_rtCtrl w h ha, hr] at he
  have hd := desk_setArmed s.toChip r .peer false
  have hf := armed_setArmed_self s.toChip r .peer
  generalize setArmed s.toChip r .peer false = c at he hd hf
  refine accepted_of he ?_ ?_
  · rw [desk_withPeer, hd, peer_of_desk hd]
    rfl
  · exact (armed_answered s _ r stOK 0 .peer).trans ((armed_withPeer c _ r .peer).trans hf)

/-- RT_SWAP and RT_COPY. -/
theorem rtControls {s : State} {r : Requester} (h : Reaches s.toChip r .peer) :
    (armed s.toChip r .peer = true →
      Accepted (.rtSwap r) s r { s.toChip with peer := { s.peer with active := !s.peer.active } }
        (fun t => armed t.toChip r .peer = false) ∧
      Accepted (.rtCopy r) s r { s.toChip with peer := { s.peer with
          bank0 := if s.peer.active then s.peer.bank1 else s.peer.bank0
          bank1 := if s.peer.active then s.peer.bank1 else s.peer.bank0 } }
        (fun t => armed t.toChip r .peer = false)) ∧
    (armed s.toChip r .peer = false →
      Answered (.rtSwap r) s r 0x21 s.toChip (fun t => Event t .peer 3) ∧
      Answered (.rtCopy r) s r 0x21 s.toChip (fun t => Event t .peer 3)) := by
  have he1 : exec (.rtSwap r) s = .next (after s (mgmtWrite s.toChip r aPEER_RT_CTRL 1)) := rfl
  have he2 : exec (.rtCopy r) s = .next (after s (mgmtWrite s.toChip r aPEER_RT_CTRL 2)) := rfl
  have hrefused : ∀ {i : Instr} {w : Word}, armed s.toChip r .peer = false →
      exec i s = .next (after s (mgmtWrite s.toChip r aPEER_RT_CTRL w)) →
      Answered i s r 0x21 s.toChip (fun t => Event t .peer 3) := fun ha he => by
    obtain ⟨t, ht, hp, hacc, hl, hd, hev, -⟩ := guarded_refused (row := rowRtCtrl) he rfl h (by decide) rfl rfl (by decide) ha
    exact ⟨t, ht, hp, hacc, hl, hd, hev⟩
  exact ⟨fun ha => ⟨rtAccepted (f := fun p => { p with active := !p.active }) h ha he1 rtRun_swap,
    rtAccepted (f := fun p => { p with
      bank0 := if p.active then p.bank1 else p.bank0
      bank1 := if p.active then p.bank1 else p.bank0 }) h ha he2 rtRun_copy⟩,
    fun ha => ⟨hrefused ha he1, hrefused ha he2⟩⟩

/-! ### RT_DATA (R363) -/

/-- The row of RT_DATA. -/
def rowRtData : RegRow := ⟨0x08c, 1, .none_, 0, [⟨31, 31, .rw, 0⟩, ⟨7, 4, .rw, 0⟩, ⟨1, 0, .rw, 0⟩]⟩

/-- RT_DATA written. -/
def rtWritten (c : Chip) (w : Word) : Chip := rtAdvance (setShadow c (fld (reg c aPEER_RT_INDEX) 11 0) (w &&& 0x800000F3))

theorem mgmtWrite_rtData {c : Chip} {r : Requester} (w : Word) (h : Reaches c r .peer) :
    mgmtWrite c r aPEER_RT_DATA w = keepStatus (answer (rtWritten (setArmed c r .peer false) w) stOK 0) r stOK := by
  obtain ⟨x, hx, hw⟩ := mgmtWriteWith_rule (a := aPEER_RT_DATA) (row := rowRtData) noArgs w h (by decide)
    rfl rfl (fun z => by cases z)
  have hm : storeMask rowRtData = 0x800000F3 := by decide
  have hrule : writePeer (setArmed c r .peer false) x = (stOK, rtWritten (setArmed c r .peer false) w) := by
    rw [writePeer, if_neg (fun z => absurd (hx.addr.symm.trans z.1) (by decide)), if_neg (by rw [hx.addr]; decide),
      if_neg (by rw [hx.addr]; decide), if_pos hx.addr, hx.new, hx.row, hm]
    rfl
  rw [show pageOf (aPEER_RT_DATA / 0x4000) = .peer from rfl, pageWrite_peer (by rw [hx.addr]; rfl), hrule] at hw
  exact hw

/-- RT_INDEX goes on. -/
theorem rtAdvance_advances (c : Chip) :
    fld (reg (rtAdvance c) aPEER_RT_INDEX) 11 0 = (fld (reg c aPEER_RT_INDEX) 11 0 + 1) % 4096 ∧
    quiet (rtAdvance c) = quiet c := by
  refine ⟨?_, quiet_setKey ..⟩
  unfold rtAdvance
  rw [fld_setFld_self _ _ _ (by decide) (by decide)]
  exact Nat.mod_mod _ 4096

/-- A shadow entry that is written. -/
theorem setShadow_writes (c : Chip) (i : Nat) (w : Word) :
    rtShadow (setShadow c i w) i = w ∧ (∀ j, j ≠ i → rtShadow (setShadow c i w) j = rtShadow c j) ∧
    (∀ j, routeEntry (setShadow c i w) j = routeEntry c j) ∧ reg (setShadow c i w) aPEER_RT_INDEX = reg c aPEER_RT_INDEX := by
  unfold setShadow
  split
  · next h =>
    refine ⟨?_, fun j hj => ?_, fun j => ?_, rfl⟩
    · rw [rtShadow, if_pos h]
      exact tget_tset_self ..
    · rw [rtShadow, if_pos h, rtShadow, if_pos h]
      exact tget_tset_other _ _ _ _ _ hj
    · rw [routeEntry, if_pos h, routeEntry, if_pos h]
  · next h =>
    refine ⟨?_, fun j hj => ?_, fun j => ?_, rfl⟩
    · rw [rtShadow, if_neg h]
      exact tget_tset_self ..
    · rw [rtShadow, if_neg h, rtShadow, if_neg h]
      exact tget_tset_other _ _ _ _ _ hj
    · rw [routeEntry, if_neg h, routeEntry, if_neg h]

theorem rtShadow_congr {c d : Chip} (h : d.peer = c.peer) (i : Nat) : rtShadow d i = rtShadow c i := by
  rw [rtShadow, h, rtShadow]

theorem routeEntry_congr {c d : Chip} (h : d.peer = c.peer) (i : Nat) : routeEntry d i = routeEntry c i := by
  rw [routeEntry, h, routeEntry]

/-- A read of RT_DATA. -/
theorem mgmtRead_rtData {c : Chip} {r : Requester} (h : Reaches c r .peer) :
    mgmtRead c r aPEER_RT_DATA = answer (rtAdvance c) stOK (rtShadow c (fld (reg c aPEER_RT_INDEX) 11 0)) := by
  have hrow : rowOf aPEER_RT_DATA = some rowRtData := rfl
  have hr : readAt c r aPEER_RT_DATA = (stOK, rtShadow c (fld (reg c aPEER_RT_INDEX) 11 0), rtAdvance c) := by
    unfold readAt
    rw [show baseAddr aPEER_RT_DATA = aPEER_RT_DATA by decide]
    dsimp only
    rw [if_neg (by decide), hrow]
    dsimp only
    rw [if_neg (fun z => z.1 h.2.1), shadowRead]
    dsimp only
    rw [if_neg (fun z => absurd z.1 (by decide)), if_neg (fun z => absurd z.1 (by decide)), if_neg (by decide), wordRead]
    dsimp only
    rw [if_neg (by decide), if_neg (by decide), if_pos rfl]
  rw [mgmtRead_reaches (a := aPEER_RT_DATA) h (by decide), hr]

/-- RT_DATA_ACCESS. -/
theorem rtAccesses {s : State} {r : Requester} (h : Reaches s.toChip r .peer) :
    let i := fld (reg s.toChip aPEER_RT_INDEX) 11 0
    let next := fun (t : State) => fld (reg t.toChip aPEER_RT_INDEX) 11 0 = (i + 1) % 4096
    (∀ w : Word, AcceptedWith (.rtDataAccess r (some w)) s r (fun t => next t ∧
      rtShadow t.toChip i = w &&& 0x800000F3 ∧ (∀ j, j ≠ i → rtShadow t.toChip j = rtShadow s.toChip j) ∧
      (∀ j, routeEntry t.toChip j = routeEntry s.toChip j))) ∧
    Completes (.rtDataAccess r none) s (fun t => next t ∧ t.mgmt.acc = { status := 0, data := rtShadow s.toChip i } ∧
      desk t.toChip = desk s.toChip) := by
  intro i next
  refine ⟨fun w => ?_, ?_⟩
  · have he : exec (.rtDataAccess r (some w)) s = .next (after s (mgmtWrite s.toChip r aPEER_RT_DATA w)) := rfl
    rw [mgmtWrite_rtData w h] at he
    have hd := peer_of_desk (desk_setArmed s.toChip r .peer false)
    have hi : reg (setArmed s.toChip r .peer false) aPEER_RT_INDEX = reg s.toChip aPEER_RT_INDEX := regKey_setArmed ..
    generalize setArmed s.toChip r .peer false = c at he hd hi
    obtain ⟨h1, h2, h3, h4⟩ := setShadow_writes c i (w &&& 0x800000F3)
    have hw : rtWritten c w = rtAdvance (setShadow c i (w &&& 0x800000F3)) := by
      rw [rtWritten, hi]
    rw [hw] at he
    generalize setShadow c i (w &&& 0x800000F3) = d at he h1 h2 h3 h4
    obtain ⟨ha, hq⟩ := rtAdvance_advances d
    rw [h4, hi] at ha
    have hp : (rtAdvance d).peer = d.peer := congrArg (·.peer) hq
    generalize rtAdvance d = e at he ha hp
    have hpe := (peer_answered s e r stOK 0).trans hp
    refine acceptedWith_after (y := (stOK, e)) he rfl ⟨?_, ?_, fun j hj => ?_, fun j => ?_⟩
    · exact (congrArg (fun v => fld v 11 0) (reg_answered s e r stOK 0 _)).trans ha
    · rw [rtShadow_congr hpe, h1]
    · rw [rtShadow_congr hpe, h2 j hj, rtShadow_congr hd]
    · rw [routeEntry_congr hpe, h3, routeEntry_congr hd]
  · have he : exec (.rtDataAccess r none) s = .next (after s (mgmtRead s.toChip r aPEER_RT_DATA)) := rfl
    rw [mgmtRead_rtData h] at he
    obtain ⟨ha, hq⟩ := rtAdvance_advances s.toChip
    generalize rtAdvance s.toChip = e at he ha hq
    exact ⟨_, he, after_pending _ _, ha, rfl,
      (desk_drivePins _).trans ((desk_answer e stOK _).trans (desk_of_quiet hq))⟩

/-! ### The obligation -/

/-- Settles O42: a port's events move that port alone; each frame is counted, dropped, routed on, held or delivered; and
the registers of PEER do what their rules say. -/
theorem peerPorts : Obligations.PeerPorts := by
  intro s port hl n x others lane
  obtain ⟨hto, hrt⟩ := portRetrains (s := s) port hl
  obtain ⟨hred, hrel⟩ := portReduces (s := s) port hl
  obtain ⟨hr1, hr2⟩ := ringLocks (s := s) port hl
  obtain ⟨hc1, hc2⟩ := calSweepsStart hl
  refine ⟨fun lanes node => portTrains port lanes node hl, hto, hrt,
    fun hu => ⟨portSilent port hl hu, fun l ha => laneGoes port hl hu l ha⟩, hred, hrel,
    fun p0 p1 p2 p3 => slowWindows hl p0 p1 p2 p3, laserSwaps hl, lasersOut hl, hr1, hr2,
    fun l b hs hu => laneDone port hl l b hs hu, fun r q h hf hs hq => calStartWritten q h hf hs hq, hc1, hc2,
    fun f hu hf hq hv hb => frameLeaves port hl f hu hf hq hv hb,
    fun first ws l hf hu => frameArrives port hl first ws l hf hu, fun r h => ⟨fun w hb => ?_, ?_, ?_, ?_⟩⟩
  · have hp := portEnables h w
    rw [hb] at hp
    exact hp
  · exact (rtControls h).1
  · exact (rtControls h).2
  · exact rtAccesses h

end Sys2Proof.Machine
end

section
/-! What freeing objects of flash and clearing entries of an index leave alone (O50): SEC, the work that waits, the
sessions, the registrations, connections that are CLOSED, events that are set, and every register off the page FLASH. -/

namespace Sys2Proof.Machine

open Sys2Proof.Safety

/-! ### Connections of a range that are all CLOSED -/

/-- Every listed connection of a range is CLOSED. -/
def RangeShut (x : Nat × Nat) (c : Chip) : Prop := ∀ k ∈ c.xpt.conns, inSpan x k.1 = true → k.2.state = .closed

theorem RangeShut.of_xpt {x : Nat × Nat} {c d : Chip} (h : RangeShut x c) (hx : d.xpt = c.xpt) : RangeShut x d := by
  unfold RangeShut
  rw [hx]
  exact h

theorem mem_tset {α : Type} [DecidableEq α] {d : α} {t : Tbl α} {k : Nat} {v : α} {x : Nat × α} (h : x ∈ tset d t k v) :
    x = (k, v) ∨ x ∈ t := by
  unfold tset at h
  split at h
  · exact .inr (List.mem_filter.1 h).1
  · exact mem_tins t k v x h

/-- An OPEN connection lies outside. -/
theorem RangeShut.outside {x : Nat × Nat} {c : Chip} (h : RangeShut x c) {n : Nat} (ho : (conn c n).state = .open) :
    inSpan x n = false := by
  by_contra hn
  rw [Bool.not_eq_false] at hn
  unfold conn tget at ho
  cases hf : tfind c.xpt.conns n with
  | none =>
    rw [hf] at ho
    cases ho
  | some k =>
    rw [hf] at ho
    have hc := h (n, k) (mem_of_tfind hf) hn
    exact absurd (hc.symm.trans ho) (by decide)

theorem RangeShut.setConn {x : Nat × Nat} {c : Chip} (h : RangeShut x c) {n : Nat} (k : ConnSt) (hn : inSpan x n = false) :
    RangeShut x (Machine.setConn c n k) := fun e he hs => by
  rcases mem_tset he with rfl | he
  · exact absurd (hn.symm.trans hs) Bool.false_ne_true
  · exact h e he hs

theorem RangeShut.sendPkt {x : Nat × Nat} {c : Chip} (h : RangeShut x c) {n : Nat} (p : Pkt) (u : InitUse)
    (hn : inSpan x n = false) : RangeShut x (Machine.sendPkt c n p u).1 := by
  unfold Machine.sendPkt
  dsimp only
  split
  · exact h.setConn _ hn
  split
  · unfold sendNow
    dsimp only
    exact (h.setConn _ hn).of_xpt rfl
  · unfold waitSpace
    dsimp only
    exact (h.setConn _ hn).of_xpt (xpt_bumpB ..)

theorem RangeShut.sendFold {x : Nat × Nat} {n : Nat} (u : InitUse) (hn : inSpan x n = false) (ps : List Pkt)
    (a : Chip × List EventBit) (h : RangeShut x a.1) :
    RangeShut x (ps.foldl (fun a p => let (c1, e) := Machine.sendPkt a.1 n p u; (c1, a.2 ++ e)) a).1 := by
  induction ps generalizing a with
  | nil => exact h
  | cons p r ih => exact ih ((Machine.sendPkt a.1 n p u).1, a.2 ++ (Machine.sendPkt a.1 n p u).2) (h.sendPkt p u hn)

theorem RangeShut.pushMsg {x : Nat × Nat} {c : Chip} (h : RangeShut x c) (n : Nat) (b : List Byte) :
    RangeShut x (Machine.pushMsg c n 7 b).1 := by
  unfold Machine.pushMsg
  dsimp only
  split
  · exact h
  · next ho =>
    have hn := h.outside (not_not.1 ho)
    split
    · exact h.of_xpt (xpt_bumpB ..)
    · unfold sendAll
      exact RangeShut.sendFold .plain hn _ (_, []) (h.setConn _ hn)

theorem RangeShut.eventFold {x : Nat × Nat} (b : List Byte) (ns : List Nat) (a : Chip × List EventBit) (h : RangeShut x a.1) :
    RangeShut x (ns.foldl (fun a m => let (c2, e) := Machine.pushMsg a.1 m 7 b; (c2, a.2 ++ e)) a).1 := by
  induction ns generalizing a with
  | nil => exact h
  | cons m r ih => exact ih ((Machine.pushMsg a.1 m 7 b).1, a.2 ++ (Machine.pushMsg a.1 m 7 b).2) (h.pushMsg m b)

theorem RangeShut.raiseN {x : Nat × Nat} (f : Nat) (l : List EventBit) (c : Chip) (h : RangeShut x c) :
    RangeShut x (Machine.raiseN f l c) := by
  induction f generalizing l c with
  | zero => exact h
  | succ f ih =>
    cases l with
    | nil => exact h
    | cons e r =>
      have hs : RangeShut x (setInt c e.1 (BitVec.ofNat 32 (2 ^ e.2))).1 := by
        unfold setInt
        dsimp only
        split
        · exact h.of_xpt rfl
        · unfold sendEvent
          dsimp only
          split
          · exact h.of_xpt rfl
          · exact RangeShut.eventFold _ _ (_, []) (h.of_xpt rfl)
      exact ih _ _ hs

/-- Events send on OPEN connections alone. -/
theorem RangeShut.raise {x : Nat × Nat} {c : Chip} (h : RangeShut x c) (p : Page) (b : Nat) : RangeShut x (Machine.raise c p b) :=
  RangeShut.raiseN _ _ _ h

/-! ### What a sweep of flash leaves -/

/-- Registers that a sweep may change: those of an event, and the page FLASH. -/
def sweptKey (k : Nat) : Bool := noisyKey k || k % bankStride / 0x4000 = pageIdx .flash

/-- What stands beside flash and memory. -/
structure Swept (c d : Chip) : Prop where
  work : pendingWork d = pendingWork c
  sec : d.sec = c.sec
  entries : d.sess.entries = c.sess.entries
  regions : d.xpt.regions = c.xpt.regions
  shut : ∀ x, RangeShut x c → RangeShut x d
  ints : ∀ p b, bit (hdr c p).int b = true → bit (hdr d p).int b = true
  regs : ∀ k, sweptKey k = false → regKey d k = regKey c k

theorem Swept.refl (c : Chip) : Swept c c := ⟨rfl, rfl, rfl, rfl, fun _ h => h, fun _ _ h => h, fun _ _ => rfl⟩

theorem Swept.trans {a b c : Chip} (h : Swept a b) (g : Swept b c) : Swept a c :=
  ⟨g.work.trans h.work, g.sec.trans h.sec, g.entries.trans h.entries, g.regions.trans h.regions,
    fun x hx => g.shut x (h.shut x hx), fun p b hb => g.ints p b (h.ints p b hb),
    fun k hk => (g.regs k hk).trans (h.regs k hk)⟩

theorem Swept.foldl {α : Type} {f : Chip → α → Chip} (h : ∀ c x, Swept c (f c x)) (l : List α) (c : Chip) :
    Swept c (l.foldl f c) := by
  induction l generalizing c with
  | nil => exact .refl c
  | cons x r ih => exact (h c x).trans (ih (f c x))

theorem swept_raise (c : Chip) (p : Page) (b : Nat) : Swept c (raise c p b) := by
  have hm := minor_raise c p b
  refine ⟨work_raise c p b, congrArg (·.sec) hm.quiet, congrArg (·.sess.entries) hm.quiet,
    congrArg (·.xpt.regions) (mute_raise c p b), fun x h => h.raise p b, hm.ints, fun k hk => hm.regs k ?_⟩
  rw [sweptKey, Bool.or_eq_false_iff] at hk
  exact hk.1

theorem swept_setKey (c : Chip) {k : Nat} (m v : Word) (hk : sweptKey k = true) : Swept c (setKey c k m v) := by
  have hq := quiet_setKey c k m v
  refine ⟨work_of_quiet hq, congrArg (·.sec) hq, congrArg (·.sess.entries) hq, ?_, fun x h => h.of_xpt (setKey_xpt c k m v),
    fun p b h => ?_, fun j hj => regKey_setKey_other c k j m v (fun e => ?_)⟩
  · rw [setKey_xpt]
  · rw [hdr_setKey]
    exact h
  · rw [e, hk] at hj
    cases hj

theorem sweptKey_flash {a : Nat} (ha : a < bankStride) (h : a / 0x4000 = pageIdx .flash) : sweptKey (rkey 0 a) = true := by
  rw [sweptKey, rkey_mod ha, h, decide_eq_true rfl, Bool.or_true]

theorem swept_bump (c : Chip) {a : Nat} (n : Nat) (ha : a < bankStride) (h : a / 0x4000 = pageIdx .flash) :
    Swept c (bump c a n) := by
  unfold bump bumpB
  split
  · exact .refl c
  · exact swept_setKey c _ _ (sweptKey_flash ha h)

theorem swept_bumpPair (c : Chip) {a : Nat} (n : Nat) (ha : a + 4 < bankStride) (h : a / 0x4000 = pageIdx .flash)
    (h' : (a + 4) / 0x4000 = pageIdx .flash) : Swept c (bumpPair c a n) := by
  unfold bumpPair
  split
  · exact .refl c
  · exact (swept_setKey c _ _ (sweptKey_flash (by omega) h)).trans (swept_setKey _ _ _ (sweptKey_flash ha h'))

/-- Flash itself, memory and the model's own counter may change. -/
theorem swept_withFlash (c : Chip) (f : FlashUnit) : Swept c { c with flash := f } :=
  ⟨rfl, rfl, rfl, rfl, fun _ h => h, fun _ _ h => h, fun _ _ => rfl⟩

theorem swept_takeFree (c : Chip) : Swept c (takeFree c).2 :=
  ⟨rfl, rfl, rfl, rfl, fun _ h => h, fun _ _ h => h, fun _ _ => rfl⟩

/-! ### Objects of flash that are freed -/

theorem swept_jput (c : Chip) (r : JRec) : Swept c (jput c r) := by
  unfold jput
  dsimp only
  exact ((swept_takeFree c).trans (swept_withFlash _ _)).trans (swept_bumpPair _ _ (by decide) (by decide) (by decide))

theorem swept_setExtent (c : Chip) (e : Nat) (x : Extent) : Swept c (setExtent c e x) :=
  ⟨rfl, rfl, rfl, rfl, fun _ h => h, fun _ _ h => h, fun _ _ => rfl⟩

theorem swept_noteSpares (was : Nat) (c : Chip) : Swept c (noteSpares was c) := by
  unfold noteSpares
  split
  · exact swept_raise ..
  · exact .refl c

theorem swept_applyCut (c : Chip) : Swept c (applyCut c) := by
  unfold applyCut
  split
  · exact .refl c
  · dsimp only
    exact ((swept_withFlash c _).trans (swept_jput _ _)).trans (swept_raise ..)

theorem swept_spareReaction (c : Chip) (was : Nat) : Swept c (spareReaction c was) := by
  have hn := swept_noteSpares was c
  unfold spareReaction
  dsimp only
  generalize noteSpares was c = d at hn
  split
  · exact hn
  · split
    · split
      · exact hn
      · exact (hn.trans (swept_setKey d _ _ (sweptKey_flash (by decide) (by decide)))).trans (swept_raise ..)
    · split
      · exact (hn.trans (swept_withFlash d _)).trans (swept_applyCut _)
      · exact hn

theorem swept_retire (c : Chip) (e : Nat) : Swept c (retire c e) := by
  unfold retire
  dsimp only
  exact ((((swept_setExtent c e _).trans (swept_jput _ _)).trans (swept_bump _ _ (by decide) (by decide))).trans
    (swept_raise ..)).trans (swept_spareReaction _ _)

theorem swept_startErase (c : Chip) (e : Nat) : Swept c (startErase c e) := by
  have hs := fun x => swept_setExtent c e x
  unfold startErase
  dsimp only
  refine Swept.trans ?_ (swept_noteSpares _ _)
  refine Swept.trans ?_ (swept_applyCut _)
  split
  · split
    · exact hs _
    · exact (hs _).trans (swept_jput _ _)
  · exact hs _

theorem swept_eraseIfDead (c : Chip) (l : Nat) : Swept c (eraseIfDead c l) := by
  unfold eraseIfDead
  split
  · exact .refl c
  · split
    · split
      · exact swept_retire ..
      · exact swept_startErase ..
    · exact .refl c

theorem swept_dropObject (c : Chip) (a : Nat) : Swept c (dropObject c a) := by
  have he := (swept_withFlash c { c.flash with objects := tdel c.flash.objects a }).trans (swept_eraseIfDead _ (lextOf a))
  unfold dropObject
  dsimp only
  split
  · exact he.trans (swept_setKey _ _ _ (sweptKey_flash (by decide) (by decide)))
  · exact he

theorem swept_flashFree (c : Chip) (a : Nat) : Swept c (flashFree c a) := by
  unfold flashFree flashFreeOf
  split
  · exact .refl c
  · dsimp only
    split
    · exact .refl c
    · split
      · exact swept_withFlash c _
      · split
        · exact swept_withFlash c _
        · exact swept_dropObject ..

/-! ### The entries of an index -/

theorem swept_putEntry (c : Chip) (a : Nat) (v : DWord) : Swept c (putEntry c a v) :=
  ⟨rfl, rfl, rfl, rfl, fun _ h => h, fun _ _ h => h, fun _ _ => rfl⟩

theorem swept_freeIndexObjects (c : Chip) (x : Nat) : Swept c (freeIndexObjects c x) := by
  unfold freeIndexObjects
  dsimp only
  refine Swept.trans ?_ (Swept.foldl (fun c k => swept_putEntry c _ _) _ _)
  refine Swept.foldl (fun c (e : Nat × DWord) => ?_) _ _
  split
  · exact .refl c
  · exact swept_flashFree ..

end Sys2Proof.Machine
end

section
/-! Consent, the ways out of VALID, and the purge of a partition that is not in use (O50). -/

namespace Sys2Proof.Machine

open Sys2Proof.Safety

/-! ### Partitions -/

theorem secPart_setSecPart_self (c : Chip) (p : Nat) (x : SecPart) : secPart (setSecPart c p x) p = x := tget_tset_self ..

theorem secPart_setSecPart_other (c : Chip) {p q : Nat} (x : SecPart) (h : q ≠ p) : secPart (setSecPart c p x) q = secPart c q :=
  tget_tset_other' _ _ _ _ _ _ h

theorem secPart_of_parts {c d : Chip} (h : d.sec.parts = c.sec.parts) (p : Nat) : secPart d p = secPart c p := by
  rw [secPart, h, secPart]

/-- What closing debug, stopping a trace and raising events leave. -/
structure Vacating (c d : Chip) : Prop where
  work : pendingWork d = pendingWork c
  entries : d.sess.entries = c.sess.entries
  regions : d.xpt.regions = c.xpt.regions
  srch : d.srch = c.srch
  shut : ∀ x, RangeShut x c → RangeShut x d
  ints : ∀ p b, bit (hdr c p).int b = true → bit (hdr d p).int b = true
  regs : ∀ k, noisyKey k = false → k ≠ rkey 0 aTEL_TRACE_CTRL → regKey d k = regKey c k

theorem Vacating.refl (c : Chip) : Vacating c c :=
  ⟨rfl, rfl, rfl, rfl, fun _ h => h, fun _ _ h => h, fun _ _ _ => rfl⟩

theorem Vacating.trans {a b c : Chip} (h : Vacating a b) (g : Vacating b c) : Vacating a c :=
  ⟨g.work.trans h.work, g.entries.trans h.entries, g.regions.trans h.regions, g.srch.trans h.srch,
    fun x hx => g.shut x (h.shut x hx), fun p b hb => g.ints p b (h.ints p b hb),
    fun k hk ht => (g.regs k hk ht).trans (h.regs k hk ht)⟩

theorem Vacating.regB {c d : Chip} (h : Vacating c d) {a : Nat} (n : Nat) (ha : a < bankStride) (hs : a / 0x4000 = 3 ∨ a / 0x4000 = 21) :
    Machine.regB d n a = Machine.regB c n a := by
  refine h.regs _ ?_ (rkey_apart ha (by decide) (fun e => ?_))
  · rw [noisyKey, rkey_mod ha, Bool.or_eq_false_iff, Bool.or_eq_false_iff, Bool.or_eq_false_iff, Bool.or_eq_false_iff]
    simp only [decide_eq_false_iff_not]
    refine ⟨by omega, ⟨⟨fun e => ?_, fun e => ?_⟩, fun e => ?_⟩, fun e => ?_⟩
    all_goals
      rw [e] at hs
      exact absurd hs (by decide)
  · rw [e] at hs
    exact absurd hs (by decide)

theorem vacating_raise (c : Chip) (p : Page) (b : Nat) : Vacating c (raise c p b) := by
  have hm := minor_raise c p b
  exact ⟨work_raise c p b, congrArg (·.sess.entries) hm.quiet, congrArg (·.xpt.regions) (mute_raise c p b),
    congrArg (·.srch) hm.quiet, fun x h => h.raise p b, hm.ints, fun k hk _ => hm.regs k hk⟩

theorem parts_raise (c : Chip) (p : Page) (b : Nat) : (raise c p b).sec = c.sec := congrArg (·.sec) (quiet_raise c p b)

/-- SEC itself and the scan chain may change. -/
theorem vacating_withSec (c : Chip) (x : SecUnit) (t : Tap) : Vacating c { c with sec := x, tap := t } :=
  ⟨rfl, rfl, rfl, rfl, fun _ h => h, fun _ _ h => h, fun _ _ _ => rfl⟩

theorem vacating_setSecPart (c : Chip) (p : Nat) (x : SecPart) : Vacating c (setSecPart c p x) := vacating_withSec c _ c.tap

/-! ### Debug and the trace close (R464) -/

/-- Chip-wide debug is closed. -/
theorem chipDebugShut_shuts (c : Chip) : Vacating c (chipDebugShut c) ∧ (chipDebugShut c).sec.parts = c.sec.parts ∧
    (chipDebugShut c).sec.chipDebug = false ∧ (chipDebugShut c).sec.tracing = c.sec.tracing := by
  unfold chipDebugShut
  split
  · exact ⟨vacating_withSec .., rfl, rfl, rfl⟩
  · next h => exact ⟨.refl c, rfl, Bool.eq_false_iff.2 h, rfl⟩

theorem closeDebugOf_closes (c : Chip) (p : Nat) : Vacating c (closeDebugOf c p) ∧
    (closeDebugOf c p).sec.parts = c.sec.parts ∧ (closeDebugOf c p).sec.chipDebug = false ∧
    (closeDebugOf c p).sec.partDebug ≠ some p ∧ (closeDebugOf c p).sec.tracing = c.sec.tracing := by
  obtain ⟨hv, hp, hd, ht⟩ := chipDebugShut_shuts c
  unfold closeDebugOf
  dsimp only
  generalize chipDebugShut c = d at hv hp hd ht
  split
  · exact ⟨hv.trans (vacating_withSec d _ d.tap), hp, hd, nofun, ht⟩
  · next h => exact ⟨hv, hp, hd, h, ht⟩

theorem vacating_traceStop (c : Chip) : Vacating c (traceStop c) := by
  have h1 := vacating_withSec c { c.sec with tracing := none } c.tap
  have h2 : ∀ d : Chip, Vacating d (setFld d aTEL_TRACE_CTRL 0 0 0) := fun d =>
    ⟨work_setFld d _ _ _ _, congrArg (·.sess.entries) (quiet_setFld d aTEL_TRACE_CTRL 0 0 0),
      congrArg (·.regions) (xpt_setFld d aTEL_TRACE_CTRL 0 0 0), congrArg (·.srch) (quiet_setFld d aTEL_TRACE_CTRL 0 0 0),
      fun x h => h.of_xpt (xpt_setFld d aTEL_TRACE_CTRL 0 0 0),
      fun p b h => by rw [hdr_setFld]; exact h, fun k _ ht => regKey_setKey_other d _ _ _ _ ht⟩
  exact h1.trans (h2 _)

theorem closeTraceOf_closes (c : Chip) (p : Nat) : Vacating c (closeTraceOf c p) ∧
    (closeTraceOf c p).sec.parts = c.sec.parts ∧ (closeTraceOf c p).sec.chipDebug = c.sec.chipDebug ∧
    (closeTraceOf c p).sec.partDebug = c.sec.partDebug ∧ (closeTraceOf c p).sec.tracing ≠ some p := by
  unfold closeTraceOf
  split
  · have hv := (vacating_traceStop c).trans (vacating_raise (traceStop c) .tel 16)
    have hs : (raise (traceStop c) .tel 16).sec = { c.sec with tracing := none } :=
      (parts_raise ..).trans (congrArg (·.sec) (quiet_setFld { c with sec := { c.sec with tracing := none } } aTEL_TRACE_CTRL 0 0 0))
    generalize raise (traceStop c) .tel 16 = d at hv hs
    rw [hs]
    exact ⟨hv, rfl, rfl, rfl, nofun⟩
  · next h => exact ⟨.refl c, rfl, rfl, rfl, h⟩

/-! ### Consent (R461) -/

/-- New consent bits of a partition. -/
theorem setConsent_sets (c : Chip) (p : Nat) (a b : Bool) :
    let x := secPart c p
    let d := setConsent c p a b
    Vacating c d ∧ (∀ q, q ≠ p → secPart d q = secPart c q) ∧ secPart d p = { x with debug := a, profile := b } ∧
    (x.debug ≠ a ∨ x.profile ≠ b → bit (hdr d .sec).int 18 = true) ∧
    (x.debug = true → a = false → d.sec.chipDebug = false ∧ d.sec.partDebug ≠ some p) ∧
    (x.profile = true → b = false → d.sec.tracing ≠ some p) := by
  intro x d
  have h1 := vacating_setSecPart c p { x with debug := a, profile := b }
  have hs := secPart_setSecPart_self c p { x with debug := a, profile := b }
  have ho := fun q (hq : q ≠ p) => secPart_setSecPart_other c { x with debug := a, profile := b } hq
  have hd : d = (let c1 := setSecPart c p { x with debug := a, profile := b }
      let c2 := if x.debug = true ∧ a = false then closeDebugOf c1 p else c1
      let c3 := if x.profile = true ∧ b = false then closeTraceOf c2 p else c2
      if x.debug ≠ a ∨ x.profile ≠ b then raise c3 .sec 18 else c3) := rfl
  dsimp only at hd
  generalize setSecPart c p { x with debug := a, profile := b } = c1 at hd h1 hs ho
  obtain ⟨c2, hc2, h2, hp2, hd2⟩ : ∃ c2, (if x.debug = true ∧ a = false then closeDebugOf c1 p else c1) = c2 ∧
      Vacating c1 c2 ∧ c2.sec.parts = c1.sec.parts ∧
      (x.debug = true → a = false → c2.sec.chipDebug = false ∧ c2.sec.partDebug ≠ some p) := by
    refine ⟨_, rfl, ?_⟩
    split
    · obtain ⟨hv, hp, hcd, hpd, -⟩ := closeDebugOf_closes c1 p
      exact ⟨hv, hp, fun _ _ => ⟨hcd, hpd⟩⟩
    · next h => exact ⟨.refl c1, rfl, fun h1 h2 => absurd ⟨h1, h2⟩ h⟩
  rw [hc2] at hd
  obtain ⟨c3, hc3, h3, hp3, hd3, ht3⟩ : ∃ c3, (if x.profile = true ∧ b = false then closeTraceOf c2 p else c2) = c3 ∧
      Vacating c2 c3 ∧ c3.sec.parts = c2.sec.parts ∧
      (x.debug = true → a = false → c3.sec.chipDebug = false ∧ c3.sec.partDebug ≠ some p) ∧
      (x.profile = true → b = false → c3.sec.tracing ≠ some p) := by
    refine ⟨_, rfl, ?_⟩
    split
    · obtain ⟨hv, hp, hcd, hpd, ht⟩ := closeTraceOf_closes c2 p
      refine ⟨hv, hp, fun g1 g2 => ?_, fun _ _ => ht⟩
      rw [hcd, hpd]
      exact hd2 g1 g2
    · next h => exact ⟨.refl c2, rfl, hd2, fun h1 h2 => absurd ⟨h1, h2⟩ h⟩
  rw [hc3] at hd
  have hv := (h1.trans h2).trans h3
  have hpp : c3.sec.parts = c1.sec.parts := hp3.trans hp2
  have hoo : ∀ q, q ≠ p → secPart c3 q = secPart c q := fun q hq => (secPart_of_parts hpp q).trans (ho q hq)
  have hss := (secPart_of_parts hpp p).trans hs
  by_cases hch : x.debug ≠ a ∨ x.profile ≠ b
  · rw [if_pos hch] at hd
    have hr := vacating_raise c3 .sec 18
    have hsec := parts_raise c3 .sec 18
    have hev : bit (hdr (raise c3 .sec 18) .sec).int 18 = true := raises_int (l := [(.sec, 18)]) (by decide) (by simp)
    rw [hd]
    generalize raise c3 .sec 18 = e at hr hsec hev
    have hq := secPart_of_parts (congrArg SecUnit.parts hsec)
    rw [hsec]
    exact ⟨hv.trans hr, fun q hne => (hq q).trans (hoo q hne), (hq p).trans hss, fun _ => hev, hd3, ht3⟩
  · rw [if_neg hch] at hd
    rw [hd]
    exact ⟨hv, hoo, hss, fun h => absurd h hch, hd3, ht3⟩

/-- A partition leaves VALID. -/
theorem leaveValid_leaves (c : Chip) (p : Nat) (st : PartState) (pg : Bool) :
    let d := leaveValid c p st pg
    Vacating c d ∧ (∀ q, q ≠ p → secPart d q = secPart c q) ∧
    secPart d p = { secPart c p with state := st, purged := pg, debug := false, profile := false } ∧
    bit (hdr d .sec).int 16 = true := by
  intro d
  obtain ⟨h1, hp1, -, -, -⟩ := closeDebugOf_closes c p
  have hd : d = raise (setSecPart (setConsent (closeTraceOf (closeDebugOf c p) p) p false false) p
    { secPart (setConsent (closeTraceOf (closeDebugOf c p) p) p false false) p with state := st, purged := pg }) .sec 16 := rfl
  generalize closeDebugOf c p = c1 at hd h1 hp1
  obtain ⟨h2, hp2, -, -, -⟩ := closeTraceOf_closes c1 p
  generalize closeTraceOf c1 p = c2 at hd h2 hp2
  obtain ⟨h3, ho3, hs3, -, -, -⟩ := setConsent_sets c2 p false false
  generalize setConsent c2 p false false = c3 at hd h3 ho3 hs3
  have hq := secPart_of_parts (hp2.trans hp1)
  have h4 := vacating_setSecPart c3 p { secPart c3 p with state := st, purged := pg }
  have hs4 := secPart_setSecPart_self c3 p { secPart c3 p with state := st, purged := pg }
  have ho4 := fun q (hq : q ≠ p) => secPart_setSecPart_other c3 { secPart c3 p with state := st, purged := pg } hq
  generalize setSecPart c3 p { secPart c3 p with state := st, purged := pg } = c4 at hd h4 hs4 ho4
  have h5 := vacating_raise c4 .sec 16
  have hr := secPart_of_parts (congrArg SecUnit.parts (parts_raise c4 .sec 16))
  have hev : bit (hdr (raise c4 .sec 16) .sec).int 16 = true := raises_int (l := [(.sec, 16)]) (by decide) (by simp)
  rw [hd]
  generalize raise c4 .sec 16 = e at h5 hr hev
  refine ⟨(((h1.trans h2).trans h3).trans h4).trans h5, fun q hne => ?_, ?_, hev⟩
  · rw [hr, ho4 q hne, ho3 q hne, hq]
  · rw [hr, hs4, hs3, hq]

/-! ### The indexes of a partition (R451) -/

/-- What clearing indexes leaves. -/
structure IndexSwept (c d : Chip) : Prop where
  work : pendingWork d = pendingWork c
  sec : d.sec = c.sec
  entries : d.sess.entries = c.sess.entries
  regions : d.xpt.regions = c.xpt.regions
  shut : ∀ x, RangeShut x c → RangeShut x d
  ints : ∀ p b, bit (hdr c p).int b = true → bit (hdr d p).int b = true
  regs : ∀ k, sweptKey k = false → k % bankStride ≠ aSRCH_IDX_CTRL → regKey d k = regKey c k
  part : ∀ x, ixPart d x = ixPart c x
  invalid : ∀ x, ixValid c x = false → ixValid d x = false

theorem IndexSwept.refl (c : Chip) : IndexSwept c c :=
  ⟨rfl, rfl, rfl, rfl, fun _ h => h, fun _ _ h => h, fun _ _ _ => rfl, fun _ => rfl, fun _ h => h⟩

theorem IndexSwept.trans {a b c : Chip} (h : IndexSwept a b) (g : IndexSwept b c) : IndexSwept a c :=
  ⟨g.work.trans h.work, g.sec.trans h.sec, g.entries.trans h.entries, g.regions.trans h.regions,
    fun x hx => g.shut x (h.shut x hx), fun p b hb => g.ints p b (h.ints p b hb),
    fun k hk hn => (g.regs k hk hn).trans (h.regs k hk hn), fun x => (g.part x).trans (h.part x),
    fun x hx => g.invalid x (h.invalid x hx)⟩

theorem sweptKey_idxCtrl (x : Nat) : sweptKey (rkey x aSRCH_IDX_CTRL) = false := by
  unfold sweptKey noisyKey
  rw [rkey_mod (by decide)]
  decide

theorem Swept.index {c d : Chip} (h : Swept c d) : IndexSwept c d := by
  have hr : ∀ x, regB d x aSRCH_IDX_CTRL = regB c x aSRCH_IDX_CTRL := fun x => h.regs _ (sweptKey_idxCtrl x)
  refine ⟨h.work, h.sec, h.entries, h.regions, h.shut, h.ints, fun k hk _ => h.regs k hk, fun x => ?_, fun x hx => ?_⟩
  · rw [ixPart, hr, ixPart]
  · rw [ixValid, hr]
    exact hx

theorem sec_of_quiet {c d : Chip} (h : quiet d = quiet c) : d.sec = c.sec := congrArg (·.sec) h

theorem entries_of_quiet {c d : Chip} (h : quiet d = quiet c) : d.sess.entries = c.sess.entries :=
  congrArg (·.sess.entries) h

/-- VALID of an index is cleared. -/
theorem indexSwept_clear (c : Chip) (x : Nat) : IndexSwept c (setFldB c x aSRCH_IDX_CTRL 0 0 0) ∧
    ixValid (setFldB c x aSRCH_IDX_CTRL 0 0 0) x = false := by
  have hq := quiet_setFldB c x aSRCH_IDX_CTRL 0 0 0
  have hx := xpt_setFldB c x aSRCH_IDX_CTRL 0 0 0
  have hh : ∀ p, hdr (setFldB c x aSRCH_IDX_CTRL 0 0 0) p = hdr c p := fun p => by rw [setFldB, hdr_setKey]
  have hv : ixValid (setFldB c x aSRCH_IDX_CTRL 0 0 0) x = false := bit_setFldB_zero c x _ (by decide)
  have hp : ixPart (setFldB c x aSRCH_IDX_CTRL 0 0 0) x = ixPart c x :=
    fld_setFldB_other c x _ 0 (by decide) (by decide) (by decide)
  have hk : ∀ k, k ≠ rkey x aSRCH_IDX_CTRL → regKey (setFldB c x aSRCH_IDX_CTRL 0 0 0) k = regKey c k := fun k hk =>
    regKey_setKey_other c _ _ _ _ hk
  generalize setFldB c x aSRCH_IDX_CTRL 0 0 0 = d at hq hx hh hv hp hk ⊢
  have ho : ∀ y, y ≠ x → regB d y aSRCH_IDX_CTRL = regB c y aSRCH_IDX_CTRL := fun y hy =>
    hk _ (fun e => hy (bank_of_rkey e))
  refine ⟨⟨work_of_quiet hq, sec_of_quiet hq, entries_of_quiet hq, congrArg (·.regions) hx,
    fun z h => h.of_xpt hx, fun p b h => ?_, fun k _ hn => hk k (fun e => hn ?_), fun y => ?_, fun y hy => ?_⟩, hv⟩
  · rw [hh]
    exact h
  · rw [e, rkey_mod (by decide)]
  · by_cases e : y = x
    · rw [e, hp]
    · rw [ixPart, ho y e, ixPart]
  · by_cases e : y = x
    · rw [e, hv]
    · rw [ixValid, ho y e]
      exact hy

theorem indexSwept_withChecks (c : Chip) (k : ChecksUnit) : IndexSwept c (withChecks c k) :=
  ⟨rfl, rfl, rfl, rfl, fun _ h => h, fun _ _ h => h, fun _ _ _ => rfl, fun _ => rfl, fun _ h => h⟩

/-- One index of the purge, as `purgeIndexes` clears and frees it. -/
def purgeIndex (c0 : Chip) (p : Nat) (c : Chip) (x : Nat) : Chip :=
  if ixPart c0 x = p then
    let c1 := withChecks (setFldB c x aSRCH_IDX_CTRL 0 0 0) { c.checks with index := c.checks.index.filter (fun y => y ≠ x) }
    if ixTableOk c x then freeIndexObjects c1 x else c1
  else c

theorem purgeIndex_clears (c0 : Chip) (p : Nat) (c : Chip) (x : Nat) : IndexSwept c (purgeIndex c0 p c x) ∧
    (ixPart c0 x = p → ixValid (purgeIndex c0 p c x) x = false) := by
  obtain ⟨h1, hv⟩ := indexSwept_clear c x
  have h2 := indexSwept_withChecks (setFldB c x aSRCH_IDX_CTRL 0 0 0) { c.checks with index := c.checks.index.filter (fun y => y ≠ x) }
  have h3 := (swept_freeIndexObjects (withChecks (setFldB c x aSRCH_IDX_CTRL 0 0 0)
    { c.checks with index := c.checks.index.filter (fun y => y ≠ x) }) x).index
  unfold purgeIndex
  dsimp only
  generalize withChecks (setFldB c x aSRCH_IDX_CTRL 0 0 0) { c.checks with index := c.checks.index.filter (fun y => y ≠ x) } = d at h2 h3 ⊢
  generalize setFldB c x aSRCH_IDX_CTRL 0 0 0 = b at h1 hv h2
  by_cases hm : ixPart c0 x = p
  · rw [if_pos hm]
    split
    · exact ⟨(h1.trans h2).trans h3, fun _ => h3.invalid x (h2.invalid x hv)⟩
    · exact ⟨h1.trans h2, fun _ => h2.invalid x hv⟩
  · rw [if_neg hm]
    exact ⟨.refl c, fun h => absurd h hm⟩

theorem purgeIndex_fold (c0 : Chip) (p : Nat) (l : List Nat) (c : Chip) : IndexSwept c (l.foldl (purgeIndex c0 p) c) ∧
    (∀ x ∈ l, ixPart c0 x = p → ixValid (l.foldl (purgeIndex c0 p) c) x = false) := by
  induction l generalizing c with
  | nil => exact ⟨.refl c, fun x hx => by cases hx⟩
  | cons a r ih =>
    obtain ⟨h1, hv⟩ := purgeIndex_clears c0 p c a
    obtain ⟨h2, hr⟩ := ih (purgeIndex c0 p c a)
    refine ⟨h1.trans h2, fun x hx hm => ?_⟩
    rcases List.mem_cons.1 hx with rfl | hx
    · exact h2.invalid x (hv hm)
    · exact hr x hx hm

/-! ### A partition that is not in use (R451) -/

theorem filter_none {α : Type} {l : List α} {f : α → Bool} (h : ∀ x ∈ l, f x = false) : l.filter f = [] :=
  List.filter_eq_nil_iff.2 (fun x hx e => absurd ((h x hx).symm.trans e) Bool.false_ne_true)

theorem purgeIndexes_vacant {c : Chip} {p : Nat} (h : Vacant c p) :
    purgeIndexes c p = (List.range 16).foldl (purgeIndex c p) c := by
  obtain ⟨-, -, -, hq, hd, hl⟩ := h
  have he : endSearches c (fun x => ixPart c x = p) stAbortDrain = c := by
    unfold endSearches
    rw [filter_none (fun q hq' => decide_eq_false (hq q hq'))]
    dsimp only [List.foldl_nil]
    rw [filter_none (fun d hd' => decide_eq_false (hd d hd'))]
    rfl
  unfold purgeIndexes
  dsimp only
  rw [he, filter_none (fun l hl' => decide_eq_false (hl l hl'))]
  rfl

/-- A pass over a partition that is not in use frees its indexes, and nothing of it is left. -/
theorem purgePass_vacant {c : Chip} {p : Nat} (h : Vacant c p) (hc : c.fig.committed = []) :
    IndexSwept c (purgePass c p) ∧ (∀ x ∈ List.range 16, ixPart c x = p → ixValid (purgePass c p) x = false) := by
  obtain ⟨he, hk, hr, -, -, -⟩ := id h
  have hmine : (c.sess.entries.filter (fun e => decide (e.2.part = p ∧ e.2.state ≠ .free))) = [] :=
    filter_none (fun e hm => decide_eq_false (fun x => x.2 (he e hm x.1)))
  have hregs : (c.xpt.regions.filter (fun r => decide (r.2.part = p))) = [] :=
    filter_none (fun r hm => decide_eq_false (hr r hm))
  obtain ⟨hsw, hiv⟩ := purgeIndex_fold c p (List.range 16) c
  have hcr : connRange ((List.range 16).foldl (purgeIndex c p) c) p = connRange c p := by
    have hreg : regB ((List.range 16).foldl (purgeIndex c p) c) p aSEC_PART_CONN = regB c p aSEC_PART_CONN := by
      refine hsw.regs _ ?_ ?_
      · unfold sweptKey noisyKey
        rw [rkey_mod (by decide)]
        decide
      · rw [rkey_mod (by decide)]
        decide
    unfold connRange
    rw [hreg]
  unfold purgePass
  dsimp only
  rw [settle_idle hc, hmine, List.map_nil, List.foldl_nil, List.any_nil, settle_idle hc, if_neg Bool.false_ne_true, List.foldl_nil, settle_idle hc, hregs, List.map_nil,
    List.foldl_nil]
  rw [purgeIndexes_vacant h]
  generalize (List.range 16).foldl (purgeIndex c p) c = d at hsw hiv hcr
  have hcd : d.fig.committed = [] := (congrArg (fun x => x.2.2.2.1) hsw.work).trans hc
  rw [settle_idle hcd]
  generalize d.egr.queues.map (fun q => if fld (regB d q.1 aEGR_Q_CFG) 29 27 = p then (q.1, { q.2 with pkts := [] }) else q) = qs
  have hcr' : connRange { d with egr := { d.egr with queues := qs } } p = connRange c p := hcr
  have hshut := hsw.shut _ hk
  have hnone : d.xpt.conns.filter (fun k => inSpan (connRange c p) k.1 && decide (k.2.state ≠ .closed)) = [] :=
    filter_none (fun k hm => by
      cases hs : inSpan (connRange c p) k.1
      · rfl
      · rw [Bool.true_and]
        exact decide_eq_false (fun x => x (hshut k hm hs)))
  rw [hcr', hnone]
  exact ⟨⟨hsw.work, hsw.sec, hsw.entries, hsw.regions, hsw.shut, hsw.ints, hsw.regs, hsw.part, hsw.invalid⟩, fun x hx hm =>
    hiv x hx hm⟩

end Sys2Proof.Machine
end

section
/-! PART_CTRL, consent and measurement of a partition, its purge and its scrub (O50). -/

namespace Sys2Proof.Machine

open Sys2Proof.Safety

/-! ### What an answer and the unlock leave -/

theorem secPart_answered (s : State) (c : Chip) (r : Requester) (n : Nat) (d : Word) (q : Nat) :
    secPart (after s (keepStatus (answer c n d) r n)).toChip q = secPart c q := by cases r <;> rfl

theorem sec_answered (s : State) (c : Chip) (r : Requester) (n : Nat) (d : Word) :
    (after s (keepStatus (answer c n d) r n)).sec = c.sec := by cases r <;> rfl

theorem vacating_setArmed (c : Chip) (r : Requester) (p : Page) (on : Bool) : Vacating c (setArmed c r p on) := by
  have hx := setArmed_xpt c r p on
  refine ⟨?_, ?_, congrArg (·.regions) hx, congrArg (·.srch) (desk_setArmed c r p on), fun x h => h.of_xpt hx,
    fun q b h => by rw [hdr_setArmed]; exact h, fun k _ _ => regKey_setArmed ..⟩
  · cases r <;> rfl
  · cases r <;> rfl

theorem secPart_setArmed (c : Chip) (r : Requester) (p : Page) (on : Bool) (q : Nat) :
    secPart (setArmed c r p on) q = secPart c q :=
  secPart_of_parts (congrArg (·.sec.parts) (desk_setArmed c r p on)) q

/-! ### STATUS of PART_CTRL -/

/-- What the register of STATUS leaves. -/
theorem setPartStatus_sets (c : Chip) (p st : Nat) :
    fld (regB (setPartStatus c p st) p aSEC_PART_CTRL) 23 16 = st % 256 ∧
    (∀ b a, a < bankStride → a ≠ aSEC_PART_CTRL → regB (setPartStatus c p st) b a = regB c b a) ∧
    quiet (setPartStatus c p st) = quiet c ∧ (setPartStatus c p st).xpt = c.xpt ∧
    (∀ q, hdr (setPartStatus c p st) q = hdr c q) := by
  unfold setPartStatus
  refine ⟨fld_setFldB_self c p _ st (by decide) (by decide), fun b a ha hne => ?_, quiet_setFldB .., xpt_setFldB .., fun q => ?_⟩
  · exact regKey_setKey_other c _ _ _ _ (rkey_apart ha (by decide) hne)
  · unfold setFldB
    rw [hdr_setKey]

theorem secPart_setPartStatus (c : Chip) (p st q : Nat) : secPart (setPartStatus c p st) q = secPart c q :=
  secPart_of_parts (congrArg SecUnit.parts (sec_of_quiet (setPartStatus_sets c p st).2.2.1)) q

/-- Nothing of a partition is in use, whatever STATUS says. -/
theorem vacant_transfer {c d : Chip} {p : Nat} (h : Vacant c p) (he : d.sess.entries = c.sess.entries)
    (hx : ∀ x, RangeShut x c → RangeShut x d) (hr : d.xpt.regions = c.xpt.regions) (hs : d.srch = c.srch)
    (h1 : regB d p aSEC_PART_CONN = regB c p aSEC_PART_CONN)
    (h2 : ∀ x, regB d x aSRCH_IDX_CTRL = regB c x aSRCH_IDX_CTRL) : Vacant d p := by
  obtain ⟨g1, g2, g3, g4, g5, g6⟩ := h
  have hc : connRange d p = connRange c p := by rw [connRange, h1, connRange]
  have hp : ∀ x, ixPart d x = ixPart c x := fun x => by rw [ixPart, h2, ixPart]
  refine ⟨by rw [he]; exact g1, ?_, by rw [hr]; exact g3, ?_, ?_, ?_⟩
  · rw [hc]
    exact hx _ g2
  · rw [hs]
    exact fun q hq => by rw [hp]; exact g4 q hq
  · rw [hs]
    exact fun q hq => by rw [hp]; exact g5 q hq
  · rw [hs]
    exact fun q hq => by rw [hp]; exact g6 q hq

theorem vacant_vacating {c d : Chip} {p : Nat} (h : Vacant c p) (hv : Vacating c d) : Vacant d p :=
  vacant_transfer h hv.entries hv.shut hv.regions hv.srch (hv.regB p (by decide) (.inl (by decide)))
    (fun x => hv.regB x (by decide) (.inr (by decide)))

theorem vacant_other {c d : Chip} {p : Nat} (h : Vacant c p) (hq : quiet d = quiet c) (hx : d.xpt = c.xpt)
    (hr : ∀ b a, a < bankStride → a ≠ aSEC_PART_CTRL → regB d b a = regB c b a) : Vacant d p := by
  have hs : d.srch = c.srch := congrArg (·.srch) hq
  have hg : d.xpt.regions = c.xpt.regions := congrArg (·.regions) hx
  exact vacant_transfer h (entries_of_quiet hq) (fun x hs => hs.of_xpt hx) hg hs
    (hr p _ (by decide) (by decide)) (fun x => hr x _ (by decide) (by decide))

theorem vacant_setPartStatus {c : Chip} {p : Nat} (h : Vacant c p) (st : Nat) : Vacant (setPartStatus c p st) p := by
  obtain ⟨-, hr, hq, hx, -⟩ := setPartStatus_sets c p st
  exact vacant_other h hq hx hr

/-! ### PART_CTRL (R448, R450, R451) -/

/-- The row of PART_CTRL. -/
def rowPartCtrl : RegRow := ⟨0x044, 1, .secPart, 0, [⟨23, 16, .ro, 0⟩, ⟨3, 2, .ro, 0⟩, ⟨1, 1, .wo, 0⟩, ⟨0, 0, .rwg, 0⟩]⟩

/-- A plain write of PART_CTRL. -/
def partJudged (c : Chip) (p : Nat) (w : Word) : Nat × Chip :=
  if bit w 1 then partPurge c p else if bit w 0 then partValidate c p else partInvalidate c p

theorem pageWrite_sec {c : Chip} {x : RegWr} (h : pageOf (x.a / 0x4000) = .sec) : pageWrite c x = writeSec c x := by
  unfold pageWrite
  rw [h]

theorem mgmtWrite_partCtrl {c : Chip} {r : Requester} (w : Word) (h : Reaches c r .sec) (ha : armed c r .sec = true) :
    let y := partJudged (setArmed c r .sec false) (bankFor c 0 .secPart) w
    mgmtWrite c r aSEC_PART_CTRL w = keepStatus (answer y.2 y.1 0) r y.1 := by
  intro y
  obtain ⟨x, hx, hw⟩ := mgmtWriteWith_rule (a := aSEC_PART_CTRL) (row := rowPartCtrl) noArgs w h (by decide)
    rfl rfl (fun _ => ha)
  have hb : x.bank = bankFor c 0 .secPart := hx.bank
  have hpl : plainBit x 1 = bit w 1 := by rw [plainBit, hx.plain, hx.raw, Bool.true_and]
  have hrule : writeSec (setArmed c r .sec false) x = y := by
    rw [writeSec, if_neg (by rw [hx.addr]; decide), if_pos hx.addr, partCtrlWrite, hpl, hx.plain, hx.new, hb,
      if_pos (.inl rfl : true = true ∨ _)]
    rfl
  rw [show pageOf (aSEC_PART_CTRL / 0x4000) = .sec from rfl, pageWrite_sec (by rw [hx.addr]; rfl), hrule] at hw
  exact hw

theorem partCheck_setArmed (c : Chip) (r : Requester) (q : Page) (p : Nat) :
    partCheck (setArmed c r q false) p = partCheck c p := by cases r <;> rfl

theorem tenantUsed_setArmed (c : Chip) (r : Requester) (q : Page) (p : Nat) :
    tenantUsed (setArmed c r q false) p = tenantUsed c p := by cases r <;> rfl

theorem partImage_setArmed (c : Chip) (r : Requester) (q : Page) (p : Nat) :
    partImage (setArmed c r q false) p = partImage c p := by
  unfold partImage partWords
  simp only [regB_setArmed]

theorem partImage_setPartStatus (c : Chip) (p st : Nat) : partImage (setPartStatus c p st) p = partImage c p := by
  have h := (setPartStatus_sets c p st).2.1
  unfold partImage partWords
  rw [h p _ (by decide) (by decide), h p _ (by decide) (by decide), h p _ (by decide) (by decide),
    h p _ (by decide) (by decide)]

theorem partCheck_byte (c : Chip) (p : Nat) : partCheck c p % 256 = partCheck c p := by
  unfold partCheck
  dsimp only
  split
  · rfl
  split
  · rfl
  split
  · rfl
  split
  · rfl
  split
  · rfl
  · rfl

/-- A partition that becomes VALID. -/
theorem partValidate_valid {c : Chip} {p : Nat} (hs : (secPart c p).state = .invalid) (hc : partCheck c p = 0) :
    ∃ d, partValidate c p = (stOK, d) ∧ (∀ q, q ≠ p → secPart d q = secPart c q) ∧ bit (hdr d .sec).int 16 = true ∧
      fld (regB d p aSEC_PART_CTRL) 23 16 = 0 ∧ d.sec.chipDebug = false ∧
      secPart d p = { secPart c p with
        state := .valid, purged := false, debug := false, profile := false, mp0 := sha256 (partImage c p)
        mp1 := List.replicate 32 0, extend := [] } := by
  have hst := (setPartStatus_sets c p 0).1
  have hsp := secPart_setPartStatus c p 0
  have hi := partImage_setPartStatus c p 0
  have heq : partValidate c p = (stOK, raise (chipDebugShut (setSecPart (setPartStatus c p 0) p { secPart (setPartStatus c p 0) p with
        state := .valid, purged := false, debug := false, profile := false, mp0 := sha256 (partImage (setPartStatus c p 0) p)
        mp1 := List.replicate 32 0, extend := [] })) .sec 16) := by
    unfold partValidate
    rw [hs]
    dsimp only
    rw [hc, if_neg (fun h => h rfl)]
  rw [hsp, hi] at heq
  generalize setPartStatus c p 0 = c1 at heq hst hsp
  generalize hx : ({ secPart c p with
        state := .valid, purged := false, debug := false, profile := false, mp0 := sha256 (partImage c p)
        mp1 := List.replicate 32 0, extend := [] } : SecPart) = x at heq
  have hv1 := vacating_setSecPart c1 p x
  have hs1 := secPart_setSecPart_self c1 p x
  have ho1 := fun q (hq : q ≠ p) => secPart_setSecPart_other c1 x hq
  generalize setSecPart c1 p x = c2 at heq hv1 hs1 ho1
  obtain ⟨hv2, hp2, hcd, -⟩ := chipDebugShut_shuts c2
  generalize chipDebugShut c2 = c3 at heq hv2 hp2 hcd
  have hv3 := vacating_raise c3 .sec 16
  have hsec := parts_raise c3 .sec 16
  have hev : bit (hdr (raise c3 .sec 16) .sec).int 16 = true := raises_int (l := [(.sec, 16)]) (by decide) (by simp)
  generalize raise c3 .sec 16 = d at heq hv3 hsec hev
  have hq : ∀ q, secPart d q = secPart c2 q := secPart_of_parts ((congrArg SecUnit.parts hsec).trans hp2)
  refine ⟨d, heq, fun q hne => ?_, hev, ?_, by rw [hsec, hcd], ?_⟩
  · rw [hq, ho1 q hne, hsp]
  · rw [((hv1.trans hv2).trans hv3).regB p (by decide) (.inl (by decide)), hst]
  · rw [hq, hs1, ← hx]

/-- A partition that does not become VALID. -/
theorem partValidate_others {c : Chip} {p : Nat} :
    ((secPart c p).state = .invalid → partCheck c p ≠ 0 → partValidate c p = (stOK, setPartStatus c p (partCheck c p))) ∧
    ((secPart c p).state = .valid → partValidate c p = (stOK, c)) ∧
    ((secPart c p).state = .purging ∨ (secPart c p).state = .scrubbing →
      partValidate c p = (rejState, setPartStatus c p rejState)) := by
  refine ⟨fun h hc => ?_, fun h => ?_, fun h => ?_⟩
  · unfold partValidate
    rw [h]
    dsimp only
    rw [if_pos hc]
  · unfold partValidate
    rw [h]
  · unfold partValidate
    rcases h with h | h
    · rw [h]
    · rw [h]

/-- A refusal that STATUS shows. -/
theorem statusRefused {i : Instr} {s : State} {r : Requester} {y : Nat × Chip} {c : Chip} {p : Nat}
    (he : exec i s = .next (after s (keepStatus (answer y.2 y.1 0) r y.1)))
    (hy : y = (rejState, setPartStatus c p rejState)) (hd : desk c = desk s.toChip) :
    Answered i s r 0x21 s.toChip (fun t => fld (regB t.toChip p aSEC_PART_CTRL) 23 16 = 0x21) := by
  obtain ⟨h1, -, h3, -, -⟩ := setPartStatus_sets c p rejState
  generalize setPartStatus c p rejState = d at hy h1 h3
  refine answered_after he hy ((desk_of_quiet h3).trans hd) ?_
  rw [regB_answered, h1]
  rfl

theorem bit_purge {v : Nat} (h : v < 2) : bit (w32 (2 + v)) 1 = true := by
  have hv : v = 0 ∨ v = 1 := by omega
  rcases hv with rfl | rfl
  · decide
  · decide

/-- The ways out of VALID that PART_CTRL takes. -/
theorem partInvalidate_scrubs {c : Chip} {p : Nat} (hs : (secPart c p).state = .valid) (hp : p ≠ 0)
    (hu : tenantUsed c p = false) :
    ∃ d, partInvalidate c p = (stOK, d) ∧ (∀ q, q ≠ p → secPart d q = secPart c q) ∧ bit (hdr d .sec).int 16 = true ∧
      fld (regB d p aSEC_PART_CTRL) 23 16 = 0 ∧
      secPart d p = { secPart c p with state := .scrubbing, purged := false, debug := false, profile := false } := by
  have heq : partInvalidate c p = (stOK, leaveValid (setPartStatus c p stOK) p .scrubbing false) := by
    unfold partInvalidate
    rw [hs]
    dsimp only
    rw [if_neg (fun h => h.elim hp (fun h => absurd (hu.symm.trans h) Bool.false_ne_true))]
  have hst := (setPartStatus_sets c p stOK).1
  have hsp := secPart_setPartStatus c p stOK
  generalize setPartStatus c p stOK = c1 at heq hst hsp
  obtain ⟨hv, ho, hself, hev⟩ := leaveValid_leaves c1 p .scrubbing false
  generalize leaveValid c1 p .scrubbing false = d at heq hv ho hself hev
  exact ⟨d, heq, fun q hq => (ho q hq).trans (hsp q), hev, by rw [hv.regB p (by decide) (.inl (by decide)), hst]; rfl,
    by rw [hself, hsp]⟩

/-- A purge of a partition of which nothing is in use. -/
theorem partPurge_purges {c : Chip} {p : Nat} (hs : (secPart c p).state = .valid) (hp : p ≠ 0) (hva : Vacant c p)
    (ho : c.sess.ops = []) (hr : c.tier.revivals = []) (hpr : c.tier.pressing = []) (hc : c.fig.committed = []) :
    ∃ d, partPurge c p = (stOK, d) ∧ (∀ q, q ≠ p → secPart d q = secPart c q) ∧ bit (hdr d .sec).int 16 = true ∧
      fld (regB d p aSEC_PART_CTRL) 23 16 = 0 ∧
      secPart d p = { secPart c p with state := .purging, purged := true, debug := false, profile := false } := by
  have heq : partPurge c p = (stOK, kick (purgePass (leaveValid (setPartStatus c p stOK) p .purging true) p)) :=
    if_neg (fun h => h.elim hp (fun h => h hs))
  obtain ⟨hst, -, hq, -, -⟩ := setPartStatus_sets c p stOK
  have hsp := secPart_setPartStatus c p stOK
  have hva1 := vacant_setPartStatus hva stOK
  generalize setPartStatus c p stOK = c1 at heq hst hsp hq hva1
  obtain ⟨hv, hot, hself, hev⟩ := leaveValid_leaves c1 p .purging true
  generalize leaveValid c1 p .purging true = c2 at heq hv hot hself hev
  have hw : pendingWork c2 = pendingWork c := hv.work.trans (work_of_quiet hq)
  have hc2 : c2.fig.committed = [] := (congrArg (fun x => x.2.2.2.1) hw).trans hc
  obtain ⟨hsw, -⟩ := purgePass_vacant (vacant_vacating hva1 hv) hc2
  generalize purgePass c2 p = d at heq hsw
  have hwd := hsw.work.trans hw
  rw [kick_idle ((congrArg (fun x => x.1) hwd).trans ho) ((congrArg (fun x => x.2.1) hwd).trans hr)
    ((congrArg (fun x => x.2.2.1) hwd).trans hpr)] at heq
  have hsd : ∀ q, secPart d q = secPart c2 q := secPart_of_parts (congrArg SecUnit.parts hsw.sec)
  refine ⟨d, heq, fun q hne => ?_, hsw.ints _ _ hev, ?_, ?_⟩
  · rw [hsd, hot q hne, hsp]
  · have hk : regB d p aSEC_PART_CTRL = regB c2 p aSEC_PART_CTRL := by
      refine hsw.regs _ ?_ ?_
      · unfold sweptKey noisyKey
        rw [rkey_mod (by decide)]
        decide
      · rw [rkey_mod (by decide)]
        decide
    rw [hk, hv.regB p (by decide) (.inl (by decide)), hst]
    rfl
  · rw [hsd, hself, hsp]

/-- PART_VALIDATE, PART_INVALIDATE and PART_PURGE with the unlock. -/
theorem partControls {s : State} {r : Requester} (h : Reaches s.toChip r .sec) (ha : armed s.toChip r .sec = true) :
    let p := bankFor s.toChip 0 .secPart
    let x := secPart s.toChip p
    let others := fun (t : State) => ∀ q, q ≠ p → secPart t.toChip q = secPart s.toChip q
    let status := fun (t : State) => fld (regB t.toChip p aSEC_PART_CTRL) 23 16
    (x.state = .invalid →
      (partCheck s.toChip p = 0 → AcceptedWith (.partValidate r) s r (fun t => others t ∧ Event t .sec 16 ∧
        status t = 0 ∧ t.sec.chipDebug = false ∧ secPart t.toChip p = { x with
          state := .valid, purged := false, debug := false, profile := false, mp0 := sha256 (partImage s.toChip p)
          mp1 := List.replicate 32 0, extend := [] })) ∧
      (partCheck s.toChip p ≠ 0 → Accepted (.partValidate r) s r s.toChip (fun t => status t = partCheck s.toChip p))) ∧
    (x.state = .valid →
      Accepted (.partValidate r) s r s.toChip (fun _ => True) ∧
      (p ≠ 0 → tenantUsed s.toChip p = false → AcceptedWith (.partInvalidate r) s r (fun t =>
        others t ∧ Event t .sec 16 ∧ status t = 0 ∧
        secPart t.toChip p = { x with state := .scrubbing, purged := false, debug := false, profile := false })) ∧
      ((p = 0 ∨ tenantUsed s.toChip p = true) → Answered (.partInvalidate r) s r 0x21 s.toChip (fun t =>
        status t = 0x21)) ∧
      (p ≠ 0 → Vacant s.toChip p → FigIdle s.toChip → AcceptedWith (.partPurge r) s r (fun t =>
        others t ∧ Event t .sec 16 ∧ status t = 0 ∧
        secPart t.toChip p = { x with state := .purging, purged := true, debug := false, profile := false }))) ∧
    (x.state = .purging ∨ x.state = .scrubbing → Answered (.partValidate r) s r 0x21 s.toChip (fun t => status t = 0x21)) ∧
    (p = 0 ∨ x.state ≠ .valid → Answered (.partPurge r) s r 0x21 s.toChip (fun t => status t = 0x21)) := by
  intro p x others status
  have he1 : exec (.partValidate r) s = .next (after s (mgmtWrite s.toChip r aSEC_PART_CTRL 1)) := rfl
  have he0 : exec (.partInvalidate r) s = .next (after s (mgmtWrite s.toChip r aSEC_PART_CTRL 0)) := rfl
  have he2 : exec (.partPurge r) s = .next (after s (mgmtWrite s.toChip r aSEC_PART_CTRL
    (w32 (2 + fld (plainWordAt s.toChip r aSEC_PART_CTRL) 0 0)))) := rfl
  have hb2 : bit (w32 (2 + fld (plainWordAt s.toChip r aSEC_PART_CTRL) 0 0)) 1 = true :=
    bit_purge (Nat.mod_lt _ (by decide))
  generalize w32 (2 + fld (plainWordAt s.toChip r aSEC_PART_CTRL) 0 0) = w2 at he2 hb2
  rw [mgmtWrite_partCtrl _ h ha] at he0 he1 he2
  have hj1 : ∀ c : Chip, partJudged c p 1 = partValidate c p := fun c =>
    (if_neg (by decide)).trans (if_pos (by decide))
  have hj0 : ∀ c : Chip, partJudged c p 0 = partInvalidate c p := fun c =>
    (if_neg (by decide)).trans (if_neg (by decide))
  have hj2 : ∀ c : Chip, partJudged c p w2 = partPurge c p := fun c => if_pos hb2
  have hd := desk_setArmed s.toChip r .sec false
  have hsp := secPart_setArmed s.toChip r .sec false
  have hck := partCheck_setArmed s.toChip r .sec p
  have htu := tenantUsed_setArmed s.toChip r .sec p
  have him := partImage_setArmed s.toChip r .sec p
  have hva := vacating_setArmed s.toChip r .sec false
  generalize setArmed s.toChip r .sec false = c at he0 he1 he2 hd hsp hck htu him hva
  have hx : (secPart c p).state = x.state := congrArg SecPart.state (hsp p)
  refine ⟨fun hs => ⟨fun hc => ?_, fun hc => ?_⟩, fun hs => ⟨?_, fun hp hu => ?_, fun hu => ?_, fun hp hv hi => ?_⟩,
    fun hs => ?_, fun hs => ?_⟩
  · obtain ⟨d, hy, ho, hev, hst, hcd, hself⟩ := partValidate_valid (hx.trans hs) (hck.trans hc)
    refine acceptedWith_after he1 ((hj1 c).trans hy) ⟨fun q hq => ?_, ?_, ?_, ?_, ?_⟩
    · rw [secPart_answered, ho q hq, hsp]
    · rw [Event, hdr_answered]
      exact hev
    · exact (congrArg (fun v => fld v 23 16) (regB_answered s d r stOK 0 p aSEC_PART_CTRL)).trans hst
    · rw [sec_answered, hcd]
    · rw [secPart_answered, hself, hsp, him]
  · obtain ⟨h1, -, h3, -, -⟩ := setPartStatus_sets c p (partCheck c p)
    have hy := partValidate_others.1 (hx.trans hs) (by rw [hck]; exact hc)
    generalize setPartStatus c p (partCheck c p) = d at hy h1 h3
    refine answered_after (n := stOK) he1 ((hj1 c).trans hy) ((desk_of_quiet h3).trans hd) ?_
    rw [partCheck_byte, hck] at h1
    exact (congrArg (fun v => fld v 23 16) (regB_answered s d r stOK 0 p aSEC_PART_CTRL)).trans h1
  · exact answered_after (n := stOK) he1 ((hj1 c).trans (partValidate_others.2.1 (hx.trans hs))) hd trivial
  · obtain ⟨d, hy, ho, hev, hst, hself⟩ := partInvalidate_scrubs (hx.trans hs) hp (htu.trans hu)
    refine acceptedWith_after he0 ((hj0 c).trans hy) ⟨fun q hq => ?_, ?_, ?_, ?_⟩
    · rw [secPart_answered, ho q hq, hsp]
    · rw [Event, hdr_answered]
      exact hev
    · exact (congrArg (fun v => fld v 23 16) (regB_answered s d r stOK 0 p aSEC_PART_CTRL)).trans hst
    · rw [secPart_answered, hself, hsp]
  · have hy : partInvalidate c p = (rejState, setPartStatus c p rejState) := by
      unfold partInvalidate
      rw [hx, hs]
      dsimp only
      rw [htu, if_pos hu]
    exact statusRefused he0 ((hj0 c).trans hy) hd
  · obtain ⟨⟨hc1, -, hc3, hc4, hc5⟩, -, -⟩ := hi
    have hw := hva.work
    obtain ⟨d, hy, ho, hev, hst, hself⟩ := partPurge_purges (hx.trans hs) hp (vacant_vacating hv hva)
      ((congrArg (fun z => z.1) hw).trans hc3) ((congrArg (fun z => z.2.1) hw).trans hc4)
      ((congrArg (fun z => z.2.2.1) hw).trans hc5) ((congrArg (fun z => z.2.2.2.1) hw).trans hc1)
    refine acceptedWith_after he2 ((hj2 c).trans hy) ⟨fun q hq => ?_, ?_, ?_, ?_⟩
    · rw [secPart_answered, ho q hq, hsp]
    · rw [Event, hdr_answered]
      exact hev
    · exact (congrArg (fun v => fld v 23 16) (regB_answered s d r stOK 0 p aSEC_PART_CTRL)).trans hst
    · rw [secPart_answered, hself, hsp]
  · have hy := (partValidate_others (c := c) (p := p)).2.2 (by rw [hx]; exact hs)
    exact statusRefused he1 ((hj1 c).trans hy) hd
  · have hy : partPurge c p = (rejState, setPartStatus c p rejState) := if_pos (by rw [hx]; exact hs)
    exact statusRefused he2 ((hj2 c).trans hy) hd

end Sys2Proof.Machine
end

section
/-! The ends of a purge and of a scrub, measurement and consent, and O50 from its parts. -/

namespace Sys2Proof.Machine

open Sys2Proof.Safety

/-! ### PURGE_DRAINED (R450) -/

/-- A purge of which nothing is left. -/
theorem purgeDrained_ends {c : Chip} {p : Nat} (hs : (secPart c p).state = .purging) (hv : Vacant c p)
    (hc : c.fig.committed = []) :
    ∃ d, purgeDrained c p = d ∧ (∀ q, q ≠ p → secPart d q = secPart c q) ∧ bit (hdr d .sec).int 16 = true ∧
      secPart d p = { secPart c p with state := .scrubbing } := by
  obtain ⟨hsw, hiv⟩ := purgePass_vacant hv hc
  obtain ⟨he, hk, hr, -, -, -⟩ := hv
  have hreg : regB (purgePass c p) p aSEC_PART_CONN = regB c p aSEC_PART_CONN := by
    refine hsw.regs _ ?_ ?_
    · unfold sweptKey noisyKey
      rw [rkey_mod (by decide)]
      decide
    · rw [rkey_mod (by decide)]
      decide
  have hcr : connRange (purgePass c p) p = connRange c p := by rw [connRange, hreg, connRange]
  refine ⟨_, rfl, ?_⟩
  unfold purgeDrained
  rw [if_neg (fun h => h hs)]
  dsimp only
  generalize purgePass c p = d at hsw hiv hcr
  have h1 : d.sess.entries.any (fun e => decide (e.2.part = p ∧ e.2.state ≠ .free)) = false := by
    rw [hsw.entries]
    exact List.any_eq_false.2 (fun e hm => by simpa using he e hm)
  have h2 : d.xpt.conns.any (fun k => inSpan (connRange d p) k.1 && decide (k.2.state ≠ .closed)) = false := by
    rw [hcr]
    exact List.any_eq_false.2 (fun k hm => by simpa using hsw.shut _ hk k hm)
  have h3 : d.xpt.regions.any (fun r => decide (r.2.part = p) && (decide (r.2.state ≠ .free) || r.2.zeroing)) = false := by
    rw [hsw.regions]
    exact List.any_eq_false.2 (fun r hm => by
      rw [decide_eq_false (hr r hm)]
      exact Bool.false_ne_true)
  have h4 : (List.range 16).any (fun x => ixValid d x && decide (ixPart d x = p)) = false :=
    List.any_eq_false.2 (fun x hm => by
      rw [hsw.part]
      by_cases hp : ixPart c x = p
      · rw [hiv x hm hp]
        exact Bool.false_ne_true
      · rw [decide_eq_false hp, Bool.and_false]
        exact Bool.false_ne_true)
  rw [h1, h2, h3, h4]
  have hsd : ∀ q, secPart d q = secPart c q := secPart_of_parts (congrArg SecUnit.parts hsw.sec)
  show (∀ q, q ≠ p → secPart (raise (setSecPart d p { secPart d p with state := .scrubbing }) .sec 16) q = secPart c q) ∧ _
  rw [if_neg (by decide), hsd]
  generalize hx : ({ secPart c p with state := .scrubbing } : SecPart) = x
  have hself := secPart_setSecPart_self d p x
  have ho := fun q (hq : q ≠ p) => secPart_setSecPart_other d x hq
  generalize setSecPart d p x = e at hself ho
  have hq := secPart_of_parts (congrArg SecUnit.parts (parts_raise e .sec 16))
  refine ⟨fun q hne => ?_, raises_int (l := [(.sec, 16)]) (by decide) (by simp), ?_⟩
  · rw [hq, ho q hne, hsd]
  · rw [hq, hself]

/-- PURGE_DRAINED. -/
theorem purgeEnds {s : State} (part : Part) (ha : Awake s.toChip) :
    let p := part.toNat
    let x := secPart s.toChip p
    (x.state = .purging → Vacant s.toChip p → FigIdle s.toChip → Completes (.purgeDrained part) s (fun t =>
      (∀ q, q ≠ p → secPart t.toChip q = secPart s.toChip q) ∧ Event t .sec 16 ∧
      secPart t.toChip p = { x with state := .scrubbing })) ∧
    (x.state ≠ .purging → exec (.purgeDrained part) s = .next (after s s.toChip)) := by
  intro p x
  have he : exec (.purgeDrained part) s = act s (fun c => whenAwake c (fun c => purgeDrained c part.toNat)) := rfl
  rw [act_whenAwake ha] at he
  refine ⟨fun hs hv hi => ?_, fun hs => ?_⟩
  · obtain ⟨d, hd, ho, hev, hself⟩ := purgeDrained_ends hs hv hi.1.1
    rw [hd] at he
    exact ⟨_, he, after_pending _ _, ho, hev, hself⟩
  · rw [he, purgeDrained, if_pos hs]

/-! ### PART_SCRUB_DONE (R450, R451) -/

theorem memGet_filter (m : List Host.Cell) (keep : Nat → Bool) (a : Nat) :
    memGet (m.filter (fun e => keep e.1)) a = if keep a then memGet m a else 0 := by
  unfold memGet tget
  rw [tfind_filter keep m a]
  split
  · rfl
  · rfl

/-- The scrubbed chip before its events. -/
def partScrubbed (c : Chip) (p : Nat) : Chip :=
  let groups := partMask c p / 2 ^ 8 % 2 ^ 8
  let group := fun a => if bit (reg c aGDR_INTERLEAVE) 0 then a / 2 ^ 35 else channelOf c a / 4
  let c1 := { c with mem := c.mem.filter (fun m => !nbit groups (group m.1)) }
  let c2 := zeroCores c1 p
  let rows := partMask c p % 2 ^ 8
  let c3 := { c2 with grid := { c2.grid with
    cores := c2.grid.cores.map (fun k => if nbit rows (k.1 / 32) then (k.1, { k.2 with programs := [] }) else k) } }
  setSecPart (scrubFlash c3 p) p { secPart c p with state := .invalid, purged := false }

theorem partScrubbed_scrubs (c : Chip) (p : Nat) :
    let groups := partMask c p / 2 ^ 8 % 2 ^ 8
    let group := fun a => if bit (reg c aGDR_INTERLEAVE) 0 then a / 2 ^ 35 else channelOf c a / 4
    let d := partScrubbed c p
    (∀ q, q ≠ p → secPart d q = secPart c q) ∧ secPart d p = { secPart c p with state := .invalid, purged := false } ∧
    (∀ a, memGet d.mem a = if nbit groups (group a) then 0 else memGet c.mem a) ∧
    (∀ o ∈ d.flash.objects, dieAt c o.1 ∉ diesFor c p) := by
  intro groups group d
  refine ⟨fun q hq => ?_, secPart_setSecPart_self .., fun a => ?_, fun o ho => ?_⟩
  · exact secPart_setSecPart_other _ _ hq
  · have hm : d.mem = c.mem.filter (fun m => !nbit groups (group m.1)) := rfl
    rw [hm, memGet_filter c.mem (fun b => !nbit groups (group b)) a]
    cases nbit groups (group a)
    · rfl
    · rfl
  · have hf : d.flash.objects = c.flash.objects.filter (fun o => !decide (dieAt c o.1 ∈ diesFor c p)) := rfl
    rw [hf] at ho
    simpa using (List.mem_filter.1 ho).2

/-- PART_SCRUB_DONE. -/
theorem scrubEnds {s : State} (part : Part) (ha : Awake s.toChip) :
    let p := part.toNat
    let x := secPart s.toChip p
    (x.state = .scrubbing →
      let groups := partMask s.toChip p / 2 ^ 8 % 2 ^ 8
      let group := fun a => if bit (reg s.toChip aGDR_INTERLEAVE) 0 then a / 2 ^ 35 else channelOf s.toChip a / 4
      Completes (.partScrubDone part) s (fun t => (∀ q, q ≠ p → secPart t.toChip q = secPart s.toChip q) ∧
        Event t .sec 16 ∧ (x.purged = true → Event t .sec 17) ∧
        secPart t.toChip p = { x with state := .invalid, purged := false } ∧
        (∀ a, memGet t.mem a = if nbit groups (group a) then 0 else memGet s.mem a) ∧
        (∀ o ∈ t.flash.objects, dieAt s.toChip o.1 ∉ diesFor s.toChip p))) ∧
    (x.state ≠ .scrubbing → exec (.partScrubDone part) s = .next (after s s.toChip)) := by
  intro p x
  have he : exec (.partScrubDone part) s = act s (fun c => whenAwake c (fun c => partScrubDone c part.toNat)) := rfl
  rw [act_whenAwake ha] at he
  refine ⟨fun hs => ?_, fun hs => ?_⟩
  · intro groups group
    have hk : partScrubDone s.toChip p = raises (partScrubbed s.toChip p)
        ([(.sec, 16)] ++ (if x.purged then [(.sec, 17)] else [])) := if_neg (fun h => h hs)
    rw [hk] at he
    obtain ⟨ho, hself, hmem, hobj⟩ := partScrubbed_scrubs s.toChip p
    generalize partScrubbed s.toChip p = d at he ho hself hmem hobj
    have hq : quiet (raises d ([(.sec, 16)] ++ (if x.purged then [(.sec, 17)] else []))) = quiet d :=
      (minor_raises d _).quiet
    have h16 : bit (hdr (raises d ([(.sec, 16)] ++ (if x.purged then [(.sec, 17)] else []))) .sec).int 16 = true :=
      raises_int (by decide) (List.mem_append_left _ (List.mem_singleton_self _))
    have h17 : x.purged = true → bit (hdr (raises d ([(.sec, 16)] ++ (if x.purged then [(.sec, 17)] else []))) .sec).int 17 = true :=
      fun hp => raises_int (by decide) (by rw [hp]; simp)
    generalize raises d ([(.sec, 16)] ++ (if x.purged then [(.sec, 17)] else [])) = e at he hq h16 h17
    have hse := secPart_of_parts (congrArg SecUnit.parts (sec_of_quiet hq))
    have hme : e.mem = d.mem := congrArg (·.mem) hq
    have hfe : e.flash.objects = d.flash.objects := congrArg (·.flash.objects) hq
    refine ⟨_, he, after_pending _ _, fun q hne => (hse q).trans (ho q hne), h16, h17, (hse p).trans hself, fun a => ?_, fun o hm => ?_⟩
    · show memGet e.mem a = _
      rw [hme]
      exact hmem a
    · have hm' : o ∈ e.flash.objects := hm
      rw [hfe] at hm'
      exact hobj o hm'
  · rw [he, partScrubDone]
    exact congrArg (fun c => Host.Outcome.next (after s c)) (if_pos hs)

/-! ### Measurement and consent (R458, R461) -/

/-- A write that a tenant may make too. -/
structure OpenWrite (c : Chip) (r : Requester) (row : RegRow) (a : Nat) (w : Word) (x : RegWr) : Prop where
  part : x.part = reqPart c r
  bank : x.bank = bankFor c (reqPart c r) row.bank
  addr : x.a = a
  raw : x.raw = w
  new : x.new = w
  plain : x.plain = true

/-- An unguarded register that the requester's partition may write. -/
theorem mgmtWrite_open {c : Chip} {r : Requester} {a : Nat} {row : RegRow} {p : Page} (w : Word)
    (hu : requesterUp c r = true) (hm : mayWrite (reqPart c r) a = true) (hf : fastServed c = true)
    (hpg : pageOf (a / 0x4000) = p) (ha : plainReg a = true) (hr : rowOf a = some row) (hp : row.pair = 0)
    (hg : rowGuarded row = false) :
    ∃ x, OpenWrite c r row a w x ∧ mgmtWrite c r a w =
      keepStatus (answer (pageWrite (setArmed c r p false) x).2 (pageWrite (setArmed c r p false) x).1 0) r
        (pageWrite (setArmed c r p false) x).1 := by
  subst hpg
  have hb := baseAddr_plain ha
  have hl := aliasOf_plain ha
  have hrun := fastRuns_not_nap hf
  simp only [plainReg, Bool.and_eq_true, decide_eq_true_eq] at ha
  obtain ⟨⟨⟨h4, hlt⟩, h40⟩, h1⟩ := ha
  have hgate : gate c r true a = (stOK, c) := by
    unfold gate
    rw [if_neg (by omega)]
    dsimp only
    rw [hb, if_pos rfl, hm, if_neg (by decide)]
    split
    · rfl
    · have hn : ¬ (r = .sideband ∧ c.chip.fast = .nap ∧ nodeServes c = true) := fun x =>
        absurd (hrun.symm.trans x.2.1) (by decide)
      rw [if_neg hn, if_pos hf]
  refine ⟨regWrOf (setArmed c r (pageOf (a / 0x4000)) false) (some r) (reqPart c r) noArgs row .plain
    (bankFor c (reqPart c r) row.bank) a w none, ⟨rfl, rfl, rfl, rfl, rfl, rfl⟩, ?_⟩
  unfold mgmtWrite mgmtWriteWith
  rw [if_neg (by rw [hu]; decide), hgate]
  dsimp only
  rw [if_neg (fun x => x rfl), writeAt, hb, hl, if_neg (by omega), if_neg (by omega), hr]
  dsimp only
  rw [rowWrite, if_neg (by rw [hp]; decide), hg, if_neg (fun x => absurd x.1 Bool.false_ne_true), hp]
  have hlo : ∀ v : Option Word, (if WMode.plain = WMode.plain ∧ (0 : Nat) = 2 then v else none) = none := fun _ =>
    if_neg (fun x => absurd x.2 (by decide))
  rw [hlo, if_neg (fun x => absurd x.2 (by decide))]

/-- The row of PART_CONSENT. -/
def rowConsent : RegRow := ⟨0x058, 1, .secPart, 0, [⟨1, 1, .rw, 0⟩, ⟨0, 0, .rw, 0⟩]⟩

/-- The row of EXTEND0 to EXTEND7. -/
def rowExtend : RegRow := ⟨0x09c, 8, .secPart, 0, [⟨31, 0, .wo, 0⟩]⟩

theorem mayWrite_open (q : Nat) : mayWrite q aSEC_PART_CONSENT = true ∧ mayWrite q (aSEC_EXTEND + 28) = true := by
  unfold mayWrite
  rw [show (decide (aSEC_PART_CONSENT = aSEC_PART_CONSENT)) = true by decide,
    show (decide (aSEC_EXTEND ≤ aSEC_EXTEND + 28) && decide (aSEC_EXTEND + 28 < aSEC_EXTEND + 32)) = true by decide]
  simp only [Bool.or_true, Bool.true_or, and_self]

theorem mgmtWrite_consent {c : Chip} {r : Requester} (w : Word) (hu : requesterUp c r = true) (hf : fastServed c = true) :
    let y := consentWrite (setArmed c r .sec false) (reqPart c r) (secBank c r) w
    mgmtWrite c r aSEC_PART_CONSENT w = keepStatus (answer y.2 y.1 0) r y.1 := by
  intro y
  obtain ⟨x, hx, hw⟩ := mgmtWrite_open (row := rowConsent) w hu (mayWrite_open _).1 hf (p := .sec) rfl (by decide) rfl rfl
    (by decide)
  have hb : x.bank = secBank c r := hx.bank
  have hrule : writeSec (setArmed c r .sec false) x = y := by
    rw [writeSec, if_neg (by rw [hx.addr]; decide), if_neg (by rw [hx.addr]; decide), if_neg (by rw [hx.addr]; decide),
      if_pos hx.addr, hx.part, hb, hx.new]
  rw [pageWrite_sec (by rw [hx.addr]; rfl), hrule] at hw
  exact hw

theorem mgmtWrite_extend {c : Chip} {r : Requester} (w : Word) (hu : requesterUp c r = true) (hf : fastServed c = true) :
    let y := extendWrite (setArmed c r .sec false) (reqPart c r) (secBank c r) 7 w
    mgmtWrite c r (aSEC_EXTEND + 28) w = keepStatus (answer y.2 y.1 0) r y.1 := by
  intro y
  obtain ⟨x, hx, hw⟩ := mgmtWrite_open (row := rowExtend) w hu (mayWrite_open _).2 hf (p := .sec) rfl (by decide) rfl rfl
    (by decide)
  have hb : x.bank = secBank c r := hx.bank
  have hrule : writeSec (setArmed c r .sec false) x = y := by
    rw [writeSec, if_neg (by rw [hx.addr]; decide), if_neg (by rw [hx.addr]; decide), if_neg (by rw [hx.addr]; decide),
      if_neg (by rw [hx.addr]; decide), if_pos (by rw [hx.addr]; decide), hx.plain, if_pos rfl, hx.part, hb, hx.addr, hx.raw]
    rfl
  rw [pageWrite_sec (by rw [hx.addr]; rfl), hrule] at hw
  exact hw

/-- The words that EXTEND7 completes. -/
theorem extend_words (t : Tbl Word) (d : Word) :
    (List.range 8).flatMap (fun j => leBytes 4 (tget 0 (tset 0 t 7 d) j).toNat) =
      (List.range 7).flatMap (fun j => leBytes 4 (tget 0 t j).toNat) ++ leBytes 4 d.toNat := by
  have h : ∀ j, j ≠ 7 → tget 0 (tset 0 t 7 d) j = tget 0 t j := fun j hj => tget_tset_other _ _ _ _ _ hj
  rw [show List.range 8 = List.range 7 ++ [7] from List.range_succ, List.flatMap_append, List.flatMap_singleton, tget_tset_self]
  refine congrArg (· ++ leBytes 4 d.toNat) (List.flatMap_congr fun j hj => ?_)
  rw [h j (by have := List.mem_range.1 hj; omega)]

/-- EXTEND and CONSENT_WRITE. -/
theorem partitionWrites {s : State} (r : Requester) (d : Word) (hu : requesterUp s.toChip r = true)
    (hf : fastServed s.toChip = true) :
    let p := secBank s.toChip r
    let x := secPart s.toChip p
    let others := fun (t : State) => ∀ q, q ≠ p → secPart t.toChip q = secPart s.toChip q
    (reqPart s.toChip r = p →
      AcceptedWith (.extend r d) s r (fun t => others t ∧ secPart t.toChip p = { x with
        extend := tset 0 x.extend 7 d
        mp1 := sha256 (x.mp1 ++ (List.range 7).flatMap (fun j => leBytes 4 (tget 0 x.extend j).toNat) ++
          leBytes 4 d.toNat) }) ∧
      AcceptedWith (.consentWrite r d) s r (fun t => others t ∧
        secPart t.toChip p = { x with debug := bit d 0, profile := bit d 1 } ∧
        (x.debug ≠ bit d 0 ∨ x.profile ≠ bit d 1 → Event t .sec 18) ∧
        (x.debug = true → bit d 0 = false → t.sec.chipDebug = false ∧ t.sec.partDebug ≠ some p) ∧
        (x.profile = true → bit d 1 = false → t.sec.tracing ≠ some p))) ∧
    (reqPart s.toChip r ≠ p →
      Answered (.extend r d) s r 0x22 s.toChip (fun t => secPart t.toChip p = x) ∧
      Answered (.consentWrite r d) s r 0x22 s.toChip (fun t => secPart t.toChip p = x)) := by
  intro p x others
  have he1 : exec (.extend r d) s = .next (after s (mgmtWrite s.toChip r (aSEC_EXTEND + 28) d)) := rfl
  have he2 : exec (.consentWrite r d) s = .next (after s (mgmtWrite s.toChip r aSEC_PART_CONSENT d)) := rfl
  rw [mgmtWrite_extend d hu hf] at he1
  rw [mgmtWrite_consent d hu hf] at he2
  have hd := desk_setArmed s.toChip r .sec false
  have hsp := secPart_setArmed s.toChip r .sec false
  generalize setArmed s.toChip r .sec false = c at he1 he2 hd hsp
  refine ⟨fun hp => ⟨?_, ?_⟩, fun hp => ⟨?_, ?_⟩⟩
  · have hy : extendWrite c (reqPart s.toChip r) p 7 d = (stOK, setSecPart c p { x with
        extend := tset 0 x.extend 7 d
        mp1 := sha256 (x.mp1 ++ (List.range 7).flatMap (fun j => leBytes 4 (tget 0 x.extend j).toNat) ++
          leBytes 4 d.toNat) }) := by
      unfold extendWrite
      rw [if_neg (fun h => h hp), hsp]
      dsimp only
      rw [if_pos rfl, extend_words, ← List.append_assoc]
    refine acceptedWith_after he1 hy ⟨fun q hq => ?_, ?_⟩
    · rw [secPart_answered, secPart_setSecPart_other _ _ hq, hsp]
    · rw [secPart_answered, secPart_setSecPart_self]
  · have hy : consentWrite c (reqPart s.toChip r) p d = (stOK, setConsent c p (bit d 0) (bit d 1)) :=
      if_neg (fun h => h hp)
    obtain ⟨-, ho, hself, hev, hdb, htr⟩ := setConsent_sets c p (bit d 0) (bit d 1)
    rw [hsp] at hself hev hdb htr
    generalize setConsent c p (bit d 0) (bit d 1) = e at hy ho hself hev hdb htr
    refine acceptedWith_after he2 hy ⟨fun q hq => ?_, ?_, fun h => ?_, fun h1 h2 => ?_, fun h1 h2 => ?_⟩
    · rw [secPart_answered, ho q hq, hsp]
    · rw [secPart_answered, hself]
    · rw [Event, hdr_answered]
      exact hev h
    · rw [sec_answered]
      exact hdb h1 h2
    · rw [sec_answered]
      exact htr h1 h2
  · have hy : extendWrite c (reqPart s.toChip r) p 7 d = (rejPart, c) := if_pos hp
    exact answered_after he1 hy hd ((secPart_answered s c r rejPart 0 p).trans (hsp p))
  · have hy : consentWrite c (reqPart s.toChip r) p d = (rejPart, c) := if_pos hp
    exact answered_after he2 hy hd ((secPart_answered s c r rejPart 0 p).trans (hsp p))

/-! ### The obligation -/

/-- Settles O50: each command moves one partition, PART_CTRL by its state, and consent that is withdrawn closes what
depended on it. -/
theorem partitions : Obligations.Partitions := by
  intro s others status
  refine ⟨fun r h => ⟨fun ha => ?_, fun ha => partControls h ha⟩, fun part ha => ?_, fun r d hu hf => partitionWrites r d hu hf⟩
  · have hrefused : ∀ {i : Instr} {w : Word}, exec i s = .next (after s (mgmtWrite s.toChip r aSEC_PART_CTRL w)) →
        Answered i s r 0x21 s.toChip (fun t => Event t .sec 3) := fun he => by
      obtain ⟨t, ht, hp, hacc, hl, hd, hev, -⟩ := guarded_refused (row := rowPartCtrl) he rfl h (by decide) rfl rfl (by decide) ha
      exact ⟨t, ht, hp, hacc, hl, hd, hev⟩
    exact ⟨hrefused (w := 1) rfl, hrefused (w := 0) rfl,
      hrefused (w := w32 (2 + fld (plainWordAt s.toChip r aSEC_PART_CTRL) 0 0)) rfl⟩
  · obtain ⟨h1, h2⟩ := purgeEnds part ha
    obtain ⟨h3, h4⟩ := scrubEnds part ha
    exact ⟨h1, h2, h3, h4⟩

end Sys2Proof.Machine
end

section
/-! A FORK of the only session that an eviction may take. While no operation of it is in progress the source itself
counts as evictable, so that the heap is not low (R105); with the FORK in progress it no longer does, and the FORK ends
with REJECTED_BUSY. The statement asks for the refusals of a FORK as they stand before it is accepted. -/

namespace Sys2Proof.Machine

open Sys2Proof.Safety

/-! ### Three allocations in an empty heap -/

/-- An allocation that some place fits gets one: inside the range, 64 B aligned and clear of the others. -/
theorem heapAlloc_of_fits {c : Chip} {p n b : Nat} (hb : b ∈ heapCands c p) (hf : heapFits c p b n = true) :
    ∃ a d, heapAlloc c p n = some (a, d) ∧ heapFits c p a n = true ∧ heapRanges d p = heapRanges c p ∧
      d.tier.heap = c.tier.heap ++ [(a, n, p)] := by
  have hfound : ∃ a, (if heapFits (takeFree c).2 p ((takeFree c).1 % 2 ^ 32 * 64) n then
      some ((takeFree c).1 % 2 ^ 32 * 64) else (heapCands (takeFree c).2 p).find? (fun b => heapFits (takeFree c).2 p b n)) =
        some a ∧ heapFits c p a n = true := by
    split
    · next h => exact ⟨_, rfl, h⟩
    · obtain ⟨a, ha⟩ := Option.isSome_iff_exists.mp ((List.find?_isSome (p := fun b => heapFits (takeFree c).2 p b n)).mpr ⟨b, hb, hf⟩)
      exact ⟨a, ha, List.find?_some (p := fun b => heapFits (takeFree c).2 p b n) ha⟩
  obtain ⟨a, ha, hfit⟩ := hfound
  refine ⟨a, { (takeFree c).2 with tier := { (takeFree c).2.tier with heap := (takeFree c).2.tier.heap ++ [(a, n, p)] } },
    ?_, hfit, rfl, rfl⟩
  unfold heapAlloc
  simp only [ha]

/-- What a fitting place says, in a heap of one range. -/
theorem heapFits_iff {c : Chip} {p a n lo len : Nat} (hr : heapRanges c p = [(lo, len)]) :
    heapFits c p a n = true ↔ (0 < a ∧ a % 64 = 0) ∧ (lo ≤ a ∧ a + n ≤ lo + len) ∧
      ∀ x ∈ c.tier.heap, x.1 + max 1 x.2.1 ≤ a ∨ a + max 1 n ≤ x.1 := by
  simp only [heapFits, hr, overlaps, List.any_cons, List.any_nil, Bool.or_false, Bool.and_eq_true, decide_eq_true_eq,
    List.all_eq_true, Bool.not_eq_true', Bool.and_eq_false_iff, decide_eq_false_iff_not, and_assoc]
  constructor
  · rintro ⟨h1, h2, h3, h4, h5⟩
    exact ⟨h1, h2, h3, h4, fun x hx => by have := h5 x hx; omega⟩
  · rintro ⟨h1, h2, h3, h4, h5⟩
    exact ⟨h1, h2, h3, h4, fun x hx => by have := h5 x hx; omega⟩

/-- The start of a heap of one range is a place that an allocation tries. -/
theorem start_mem_heapCands {c : Chip} {p len : Nat} (hr : heapRanges c p = [(2 ^ 34, len)]) : 2 ^ 34 ∈ heapCands c p := by
  have hstart : max 64 (roundUp (2 ^ 34) 64) = 2 ^ 34 := by decide
  rw [heapCands, hr, List.map_cons, hstart]
  exact List.mem_cons_self ..

/-- So is the first aligned place behind an allocation. -/
theorem end_mem_heapCands {c : Chip} {p a n m q : Nat} (hx : (a, n, q) ∈ c.tier.heap) (ha : a % 64 = 0)
    (hm : roundUp (max 1 n) 64 = m) : a + m ∈ heapCands c p := by
  have hround : roundUp (a + max 1 n) 64 = a + m := by
    rw [← hm]
    simp only [roundUp, if_neg (by decide : ¬ (64 : Nat) = 0)]
    omega
  exact List.mem_append_right _ (List.mem_map.mpr ⟨_, hx, hround⟩)

/-- Tails without layers, a small state and an exclusion table have a place in an empty heap of 32 GiB. -/
theorem heapAllocs_emptyHeap {c : Chip} {p : Nat} (hr : heapRanges c p = [(2 ^ 34, 2 ^ 35)]) (hh : c.tier.heap = []) :
    ∃ x, heapAllocs c p [0, smallBytes, exclBytes] = some x := by
  obtain ⟨a, c1, h1, hf1, hr1, hh1⟩ := heapAlloc_of_fits (c := c) (p := p) (n := 0) (start_mem_heapCands hr)
    ((heapFits_iff hr).mpr (by simp [hh]))
  rw [hr] at hr1
  rw [hh, List.nil_append] at hh1
  obtain ⟨⟨-, ha⟩, ⟨hlo, hhi⟩, -⟩ := (heapFits_iff hr).mp hf1
  have hend : a + 64 ∈ heapCands c1 p :=
    end_mem_heapCands (n := 0) (q := p) (by rw [hh1]; exact List.mem_singleton_self _) ha (by decide)
  have hsecond : ∃ b ∈ heapCands c1 p, heapFits c1 p b smallBytes = true := by
    simp only [heapFits_iff hr1, hh1, List.mem_singleton, forall_eq, smallBytes]
    by_cases h : a < 2 ^ 34 + 528384
    · exact ⟨a + 64, hend, by omega⟩
    · exact ⟨2 ^ 34, start_mem_heapCands hr1, by omega⟩
  obtain ⟨b, hb, hfb⟩ := hsecond
  obtain ⟨a2, c2, h2, hf2, hr2, hh2⟩ := heapAlloc_of_fits hb hfb
  rw [hr1] at hr2
  rw [hh1, List.singleton_append] at hh2
  obtain ⟨⟨-, ha2⟩, ⟨hlo2, hhi2⟩, hclear⟩ := (heapFits_iff hr1).mp hf2
  rw [hh1] at hclear
  have hap := hclear _ (List.mem_singleton_self _)
  have hend1 : a + 64 ∈ heapCands c2 p :=
    end_mem_heapCands (n := 0) (q := p) (by rw [hh2]; exact List.mem_cons_self ..) ha (by decide)
  have hend2 : a2 + 528384 ∈ heapCands c2 p :=
    end_mem_heapCands (n := smallBytes) (q := p)
      (by rw [hh2]; exact List.mem_cons_of_mem _ (List.mem_singleton_self _)) ha2 (by decide)
  have hthird : ∃ b ∈ heapCands c2 p, heapFits c2 p b exclBytes = true := by
    simp only [heapFits_iff hr2, hh2, List.mem_cons, List.not_mem_nil, or_false, forall_eq_or_imp, forall_eq, smallBytes,
      exclBytes] at hap hhi2 ⊢
    by_cases hnear : a2 < 2 ^ 34 + 320
    · by_cases hbehind : a2 + 528384 ≤ a + 1 ∧ a < a2 + 528512
      · exact ⟨a + 64, hend1, by omega⟩
      · exact ⟨a2 + 528384, hend2, by omega⟩
    · by_cases hfirst : a < 2 ^ 34 + 128
      · exact ⟨a + 64, hend1, by omega⟩
      · exact ⟨2 ^ 34, start_mem_heapCands hr2, by omega⟩
  obtain ⟨b', hb', hfb'⟩ := hthird
  obtain ⟨a3, c3, h3, -⟩ := heapAlloc_of_fits hb' hfb'
  exact ⟨([a, a2, a3], c3), by simp only [heapAllocs, h1, h2, h3]⟩

/-! ### The counterexample -/

/-- A chip with one SITOUT session, whose heap lies below PRESSURE.LOW. -/
def lastSource : Chip := setReg (seated .sitout 3) aTIER_PRESSURE 0xFF

/-- FIG_SEQ after a command. -/
def figSeqAfter (i : Instr) (c : Chip) : Option Nat :=
  match exec i (alone c) with
  | .next t => some t.fig.seq
  | _ => none

theorem figSeqAfter_eq {i : Instr} {c : Chip} {t : State} {n : Nat} (h : figSeqAfter i c = some n)
    (ht : exec i (alone c) = .next t) : t.fig.seq = n := by
  simpa only [figSeqAfter, ht, Option.some.injEq] using h

/-- A FORK of the first positions of a session, none of them. -/
def forkNone : ForkReq := { p := 0, seed := 0 }

theorem lastSource_allocs : ∃ x, heapAllocs lastSource (entry lastSource (hIdx 1)).part
    [tailSetBytes lastSource (entry lastSource (hIdx 1)).model, smallBytes, exclBytes] = some x := by
  have hp : (entry lastSource (hIdx 1)).part = 0 := by decide +kernel
  have hz : tailSetBytes lastSource (entry lastSource (hIdx 1)).model = 0 := by decide +kernel
  rw [hp, hz]
  exact heapAllocs_emptyHeap (by decide +kernel) (by decide +kernel)

/-- Refutes O21: the FORK of such a session is refused, and no figure creates a session. -/
theorem not_resumeAndFork : ¬ Obligations.ResumeAndFork := by
  rintro ⟨-, h⟩
  obtain ⟨x, hx⟩ := lastSource_allocs
  obtain ⟨t, ht, -, -, -, hmade | hlate⟩ := h (alone lastSource) 0 0 1 forkNone 1 x (takes_first (by decide +kernel))
    (by decide +kernel) (fun h => absurd (show forkReads lastSource (hIdx 1) 0 = true from h) (by decide +kernel))
    (fun _ h => absurd rfl h) (fun h => absurd h (by decide +kernel))
    (by decide +kernel) (by decide) (by decide +kernel) (by decide +kernel) hx
  · obtain ⟨-, -, -, -, -, -, -, -, -, -, -, -, hseq⟩ := hmade
    have hstands := figSeqAfter_eq (n := 0) (by decide +kernel) ht
    have hmoved : t.fig.seq = 1 := hseq
    omega
  · exact absurd (show forkReads lastSource (hIdx 1) 0 = true from hlate.1) (by decide +kernel)

end Sys2Proof.Machine
end

section
/-! A PARK in the state whose connection table lists a number twice. Its figure commits within the command. The latency that
a commit takes is a free value, but FIG.LAT_MAX at its greatest value stays as it is. -/

namespace Sys2Proof.Machine

open Sys2Proof.Safety

/-- FIG.LAT_MAX at its greatest value takes no latency. -/
theorem commitCounted_latMax {c : Chip} (lat : Nat)
    (h : fld (reg (bumpPair c aFIG_COMMIT_CNT_LO 1) aFIG_LAT_MAX) 15 0 = 65535) :
    commitCounted c lat = commitCounted c 0 := by
  have hmax : max 65535 (lat % 65536) = max 65535 (0 % 65536) := by omega
  rw [commitCounted, commitCounted, h, hmax]

/-- A commit then does not depend on its latency. -/
theorem commitFig_latMax {c : Chip} {f : Figure}
    (h : fld (reg (bumpPair (figLogged c f) aFIG_COMMIT_CNT_LO 1) aFIG_LAT_MAX) 15 0 = 65535) :
    commitFig c f = f.after.foldl (fun d a => afterOne d (c.fig.seq + 1) a)
      (logFills (stamped c) (commitCounted (figLogged c f) 0)) := by
  rw [commitFig_eq, commitCounted_latMax _ h]

/-- A session's one due operation begins. -/
theorem kickN_one {c : Chip} {i n : Nat} {o : Op} (hd : dueSessions c = [i]) (ho : opsOf c i = [o]) :
    kickN (n + 1) c = kickN n (beginOp (settle c) i o) := by
  simp only [kickN, hd, List.foldl_cons, List.foldl_nil, ho]

/-- One operation waits in the chip, and begins (R49). -/
theorem kick_one {c : Chip} {i : Nat} {o : Op} (hn : (c.sess.ops.map (fun e => e.2.length)).sum = 1)
    (hd : dueSessions c = [i]) (ho : opsOf c i = [o]) :
    kick c = pumpRevivals (pumpPressure (cleanRevivals (kickN 1 (beginOp (settle c) i o)))) := by
  rw [kick, hn, kickN_one hd ho]

/-- A PARK begins with its figure. -/
theorem beginOp_park {c : Chip} {i : Nat} {o : Op} (hs : acceptedIn o.code (entry c i).state = true) (hp : o.arg = .plain)
    (hc : o.code = 4) : beginOp c i o =
      figOp (setHead c i { o with phase := .handing }) i o { entry c i with state := .sitout } [] 0 [] := by
  cases o
  cases hp
  cases hc
  exact if_neg (by rw [hs]; decide)

/-- The figure of an operation that it completes, as it is opened. -/
theorem figOp_opens {c : Chip} {i aux : Nat} {o : Op} {new : Session} {acts : List Action} {more : List After} {f : Figure}
    (hf : f = sessFig c i new acts
      ([.send o.conn (.comp { compRec o stOK new with aux := w64 aux }), .opDone i stOK] ++ more))
    (h : tooMany f = false) : figOp c i o new acts aux more = openFig c f := by
  subst hf
  rw [figOp]
  exact if_neg (by rw [h]; decide)

/-- A request that its session takes goes into the session's queue. -/
theorem request_taken {c d : Chip} {n code : Nat} {tag : DWord} {h : Word} {arg : OpArg}
    (hh : handleStatus (settle c) (partOfConn (settle c) n) h = stOK) (hb : fetchFails (settle c) (hIdx h) = false)
    (hd : d = touch (settle c) (hIdx h)) (ha : acceptStatus d (hIdx h) code arg = stOK) :
    request c n tag h code arg = kick (enqueue d (hIdx h) code n tag h arg) := by
  subst hd
  unfold request
  rw [if_neg (not_not.mpr hh)]
  simp only [hb, Bool.false_eq_true, if_false, ha, ne_eq, not_true]

/-! ### The counterexample -/

/-- Session 0 is READY, connection 0 stands in the table twice, and FIG.LAT_MAX is at its greatest value. -/
def parked : Chip := doubled (setReg (seated .ready 3) aFIG_LAT_MAX 0xFFFF)

/-- The chip with the PARK in the queue of session 0. -/
def parkDue : Chip := enqueue (touch (settle parked) (hIdx 1)) (hIdx 1) 4 0 0 1 .plain

/-- The PARK. -/
def parkOp : Op := { newOp 4 0 0 1 .plain 0 with phase := .due }

/-- The chip as the PARK begins. -/
def parkBegun : Chip := setHead (settle parkDue) 0 { parkOp with phase := .handing }

/-- The figure of the PARK. -/
def parkFig : Figure := sessFig parkBegun 0 { entry (settle parkDue) 0 with state := .sitout } []
  ([.send 0 (.comp { compRec parkOp stOK { entry (settle parkDue) 0 with state := .sitout } with aux := w64 0 }), .opDone 0 stOK]
    ++ [])

/-- The chip once the figure has committed. -/
def parkDone : Chip := parkFig.after.foldl (fun d a => afterOne d (parkBegun.fig.seq + 1) a)
  (logFills (stamped parkBegun) (commitCounted (figLogged parkBegun parkFig) 0))

theorem openFig_parkBegun : openFig parkBegun parkFig = parkDone := by
  rw [openFig_commits (by decide +kernel) (by decide +kernel), commitFig_latMax (by decide +kernel), parkDone]

theorem beginOp_parkDue : beginOp (settle parkDue) 0 parkOp = parkDone := by
  rw [beginOp_park (by decide +kernel) rfl rfl, ← parkBegun, figOp_opens (f := parkFig) rfl (by decide +kernel),
    openFig_parkBegun]

theorem request_parked : request parked 0 0 1 4 .plain =
    pumpRevivals (pumpPressure (cleanRevivals (kickN 1 parkDone))) := by
  have htaken : request parked 0 0 1 4 .plain = kick (enqueue (touch (settle parked) (hIdx 1)) (hIdx 1) 4 0 0 1 .plain) :=
    request_taken (by decide +kernel) (by decide +kernel) rfl (by decide +kernel)
  rw [htaken, ← parkDue, kick_one (i := 0) (o := parkOp) (by decide +kernel) (by decide +kernel) (by decide +kernel),
    beginOp_parkDue]

/-- The record of the PARK and an event frame are sent. -/
theorem heard_park : heard (.park 0 0 1) parked = some (2, 16) := by
  have hawake : whenAwake parked (fun c => request c 0 0 1 4 .plain) = request parked 0 0 1 4 .plain :=
    if_pos (by decide +kernel)
  have hexec : exec (.park 0 0 1) (alone parked) =
      act (alone parked) (fun c => whenAwake c (fun c => request c 0 0 1 4 .plain)) := rfl
  rw [heard, hexec, act, show (alone parked).toChip = parked from rfl, hawake, request_parked]
  decide +kernel

/-- Refutes O20: the record of a PARK is followed by an event frame on its own connection. -/
theorem not_sessionFiguresCommit : ¬ Obligations.SessionFiguresCommit := by
  intro h
  obtain ⟨hpark, -⟩ := h (alone parked) 0 0 1
  obtain ⟨t, ht, -, -, -, hs⟩ := hpark (takes_first (by decide +kernel))
  exact not_spoke (i := .park 0 0 1) heard_park ht (by decide) hs

end Sys2Proof.Machine
end

section
/-! What the sideband keeps (for O6): one lemma for each function that a management access runs through, in the order of
the model. None of them changes the sideband's own state. (`resetChip` is meant with the minuet domain kept, as a write
of the module reset asks for it.) -/

open Sys2Proof.Safety

namespace Sys2Proof.Machine

/-- A fold over chips whose every step leaves the sideband leaves it. -/
theorem smb_foldl {α : Type} (g : Chip → α → Chip) (h : ∀ c a, (g c a).smb = c.smb) (l : List α) (c : Chip) :
    (l.foldl g c).smb = c.smb := foldl_same (·.smb) g h l c

/-- The same for a chip with a value beside it. -/
theorem smb_foldl_fst {α β : Type} (g : Chip × β → α → Chip × β) (h : ∀ x a, (g x a).1.smb = x.1.smb) (l : List α)
    (x : Chip × β) : (l.foldl g x).1.smb = x.1.smb := foldl_same (·.1.smb) g h l x

/-- The same for a value with a chip beside it. -/
theorem smb_foldl_snd {α β : Type} (g : β × Chip → α → β × Chip) (h : ∀ x a, (g x a).2.smb = x.2.smb) (l : List α)
    (x : β × Chip) : (l.foldl g x).2.smb = x.2.smb := foldl_same (·.2.smb) g h l x

/-! ### Functions of Ops -/

@[simp] theorem smb_takeFree (c : Chip) : (takeFree c).2.smb = c.smb := by
  simp [takeFree]

@[simp] theorem smb_takeTick (c : Chip) : (takeTick c).2.smb = c.smb := by
  simp [takeTick]

@[simp] theorem smb_takeFine (c : Chip) : (takeFine c).2.smb = c.smb := by
  simp [takeFine]

/-! ### Functions of Operands -/

@[simp] theorem smb_setFld (c : Chip) (a hi lo v : Nat) : (setFld c a hi lo v).smb = c.smb := by
  simp [setFld]

@[simp] theorem smb_setFldB (c : Chip) (bank a hi lo v : Nat) : (setFldB c bank a hi lo v).smb = c.smb := by
  grind [setFldB, setKey_smb]

@[simp] theorem smb_setPairB (c : Chip) (bank lo v : Nat) : (setPairB c bank lo v).smb = c.smb := by
  simp [setPairB]

@[simp] theorem smb_setPair (c : Chip) (lo v : Nat) : (setPair c lo v).smb = c.smb := by
  simp [setPair]

@[simp] theorem smb_bumpB (c : Chip) (bank a n : Nat) : (bumpB c bank a n).smb = c.smb := by
  unfold bumpB
  split <;> simp

@[simp] theorem smb_bump (c : Chip) (a n : Nat) : (bump c a n).smb = c.smb := by
  simp [bump]

@[simp] theorem smb_bumpPair (c : Chip) (lo n : Nat) : (bumpPair c lo n).smb = c.smb := by
  unfold bumpPair
  split <;> simp

@[simp] theorem smb_bumpPairB (c : Chip) (bank lo n : Nat) : (bumpPairB c bank lo n).smb = c.smb := by
  unfold bumpPairB
  split <;> simp

@[simp] theorem smb_answer (c : Chip) (st : Nat) (d : Word) : (answer c st d).smb = c.smb := by
  simp [answer]

/-! ### Functions of Bundle -/

@[simp] theorem smb_norPut (c : Chip) (a : Nat) (l : List Byte) : (norPut c a l).smb = c.smb := by
  simp [norPut]

@[simp] theorem smb_norErase (c : Chip) (a n : Nat) : (norErase c a n).smb = c.smb := by
  simp [norErase]

/-! ### Functions of Send -/

@[simp] theorem smb_enqueuePkt (c : Chip) (n : Nat) (p : Pkt) : (enqueuePkt c n p).1.smb = c.smb := by
  simp [enqueuePkt]

@[simp] theorem smb_waitSpace (c : Chip) (n : Nat) (w : List (Pkt × InitUse)) : (waitSpace c n w).1.smb = c.smb := by
  simp [waitSpace]

@[simp] theorem smb_sendNow (c : Chip) (n : Nat) (p : Pkt) (u : InitUse) : (sendNow c n p u).1.smb = c.smb := by
  simp [sendNow]

@[simp] theorem smb_sendPkt (c : Chip) (n : Nat) (p : Pkt) (u : InitUse) : (sendPkt c n p u).1.smb = c.smb := by
  grind [sendPkt, setConn_smb, smb_sendNow, smb_waitSpace]

@[simp] theorem smb_sendAgain (c : Chip) (n : Nat) (p : Pkt) (u : InitUse) : (sendAgain c n p u).1.smb = c.smb := by
  grind [sendAgain, setConn_smb, smb_bump, smb_enqueuePkt, smb_waitSpace]

@[simp] theorem smb_pumpN (a : Nat) (a1 : Chip) (a2 : Nat) : (pumpN a a1 a2).1.smb = a1.smb := by
  fun_induction pumpN a a1 a2 <;> grind [setConn_smb, smb_enqueuePkt, smb_sendNow, smb_waitSpace]

@[simp] theorem smb_pump (c : Chip) (n : Nat) : (pump c n).1.smb = c.smb := by
  simp [pump]

@[simp] theorem smb_sendControl (c : Chip) (n : Nat) (p : Pkt) : (sendControl c n p).smb = c.smb := by
  unfold sendControl
  split <;> simp

@[simp] theorem smb_sendAll (c : Chip) (n : Nat) (ps : List Pkt) (u : InitUse) : (sendAll c n ps u).1.smb = c.smb := by
  simp [sendAll, smb_foldl_fst]

@[simp] theorem smb_pushMsg (c : Chip) (n cls : Nat) (bytes : List Byte) : (pushMsg c n cls bytes).1.smb = c.smb := by
  grind [pushMsg, smb_bump, smb_sendAll, setConn_smb]

@[simp] theorem smb_sendEvent (c : Chip) (p : Page) : (sendEvent c p).1.smb = c.smb := by
  unfold sendEvent
  dsimp only
  split
  · rfl
  · refine (smb_foldl_fst _ (fun x n => ?_) _ _).trans ?_ <;> simp

@[simp] theorem smb_setInt (c : Chip) (p : Page) (bits : Word) : (setInt c p bits).1.smb = c.smb := by
  grind [setInt, setHdr_smb, smb_sendEvent]

@[simp] theorem smb_raiseN (a : Nat) (a1 : List EventBit) (a2 : Chip) : (raiseN a a1 a2).smb = a2.smb := by
  fun_induction raiseN a a1 a2 <;> grind [smb_setInt]

@[simp] theorem smb_raises (c : Chip) (l : List EventBit) : (raises c l).smb = c.smb := by
  simp [raises]

@[simp] theorem smb_raise (c : Chip) (p : Page) (b : Nat) : (raise c p b).smb = c.smb := by
  simp [raise]

@[simp] theorem smb_settleEvents (r : Chip × List EventBit) : (settleEvents r).smb = r.1.smb := by
  simp [settleEvents]

@[simp] theorem smb_sendMsg (c : Chip) (n cls : Nat) (bytes : List Byte) : (sendMsg c n cls bytes).smb = c.smb := by
  simp [sendMsg]

@[simp] theorem smb_setState (c : Chip) (p : Page) (s : BState) : (setState c p s).smb = c.smb := by
  grind [setState, smb_raise, setHdr_smb]

/-! ### Functions of Fault -/

@[simp] theorem smb_bbProgram (c : Chip) (r : List Byte) : (bbProgram c r).smb = c.smb := by
  grind [bbProgram, setReg_smb, smb_setFld, smb_raise]

@[simp] theorem smb_bbQueue (c : Chip) (r : List Byte) : (bbQueue c r).smb = c.smb := by
  grind [bbQueue, smb_bump]

@[simp] theorem smb_bbAppend (c : Chip) (r : List Byte) : (bbAppend c r).smb = c.smb := by
  unfold bbAppend
  (repeat' split) <;> simp

@[simp] theorem smb_bbRecord (c : Chip) (kind cls level page : Nat) (info : Word) (addr : DWord) (mark : Word) :
    (bbRecord c kind cls level page info addr mark).smb = c.smb := by
  simp [bbRecord]

@[simp] theorem smb_bbPlain (c : Chip) (kind : Nat) (mark : Word) : (bbPlain c kind mark).smb = c.smb := by
  simp [bbPlain]

@[simp] theorem smb_startReaction (c : Chip) (cls level : Nat) : (startReaction c cls level).smb = c.smb := by
  unfold startReaction
  (repeat' split) <;> simp

@[simp] theorem smb_faultRecord (c : Chip) (f : FaultRep) (level : Nat) : (faultRecord c f level).smb = c.smb := by
  grind [faultRecord, smb_takeFree, smb_bump, smb_bbRecord]

@[simp] theorem smb_bbRewrite (c : Chip) : (bbRewrite c).smb = c.smb := by
  grind [bbRewrite, smb_setFld, smb_bbAppend, setReg_smb]

@[simp] theorem smb_reportAgain (c : Chip) (f : FaultRep) (l : LastReport) : (reportAgain c f l).smb = c.smb := by
  grind [reportAgain, smb_setFld, smb_startReaction, smb_raise]

@[simp] theorem smb_reportAt (c : Chip) (f : FaultRep) (level : Nat) : (reportAt c f level).smb = c.smb := by
  grind [reportAt, smb_takeTick, setReg_smb, smb_setPair, smb_bbRewrite, smb_startReaction, smb_faultRecord, smb_raise]

@[simp] theorem smb_reportFirst (c : Chip) (f : FaultRep) : (reportFirst c f).smb = c.smb := by
  simp [reportFirst]

@[simp] theorem smb_traceStop (c : Chip) : (traceStop c).smb = c.smb := by
  simp [traceStop]

@[simp] theorem smb_telLeaves (c : Chip) (p : Page) : (telLeaves c p).smb = c.smb := by
  unfold telLeaves
  split <;> simp

@[simp] theorem smb_faultState (c : Chip) (f : FaultRep) : (faultState c f).smb = c.smb := by
  unfold faultState
  split <;> simp

@[simp] theorem smb_report (c : Chip) (f : FaultRep) : (report c f).smb = c.smb := by
  unfold report
  (repeat' split) <;> simp

@[simp] theorem smb_fault (c : Chip) (cls : Nat) (p : Page) (info addr : Nat) (higher : Bool) :
    (fault c cls p info addr higher).smb = c.smb := by
  grind [fault, smb_report, smb_takeFree]

/-! ### Functions of Media -/

@[simp] theorem smb_jput (c : Chip) (r : JRec) : (jput c r).smb = c.smb := by
  simp [jput]

@[simp] theorem smb_noteSpares (was : Nat) (c : Chip) : (noteSpares was c).smb = c.smb := by
  unfold noteSpares
  split <;> simp

@[simp] theorem smb_applyCut (c : Chip) : (applyCut c).smb = c.smb := by
  unfold applyCut
  split <;> simp

@[simp] theorem smb_spareReaction (c : Chip) (was : Nat) : (spareReaction c was).smb = c.smb := by
  grind [spareReaction, smb_noteSpares, smb_raise, smb_setFld, smb_applyCut]

@[simp] theorem smb_retire (c : Chip) (e : Nat) : (retire c e).smb = c.smb := by
  simp [retire]

@[simp] theorem smb_startErase (c : Chip) (e : Nat) : (startErase c e).smb = c.smb := by
  grind [startErase, setExtent_smb, smb_noteSpares, smb_applyCut, smb_jput]

@[simp] theorem smb_eraseIfDead (c : Chip) (l : Nat) : (eraseIfDead c l).smb = c.smb := by
  unfold eraseIfDead
  (repeat' split) <;> simp

@[simp] theorem smb_closeExtent (c : Chip) (e : Nat) : (closeExtent c e).smb = c.smb := by
  grind [closeExtent, setExtent_smb, smb_eraseIfDead]

theorem smb_openHead (c : Chip) (d : Nat) : ∀ y, openHead c d = some y → y.2.smb = c.smb := by
  grind [openHead, smb_takeFree, smb_jput, setExtent_smb]

@[simp] theorem smb_keepHeads (c : Chip) : (keepHeads c).smb = c.smb := by
  unfold keepHeads
  split
  · rfl
  · refine smb_foldl _ (fun c d => ?_) _ _
    (repeat' split) <;> first | rfl | exact smb_openHead _ _ _ ‹_›

theorem smb_headFor (c : Chip) (d len : Nat) : ∀ y, headFor c d len = some y → y.2.smb = c.smb := by
  intro r h
  unfold headFor at h
  split at h
  · split at h
    · cases h; rfl
    · exact (smb_openHead _ _ _ h).trans (by simp)
  · exact smb_openHead _ _ _ h

theorem smb_firstHead (c : Chip) (len : Nat) (a : List Nat) : ∀ y, firstHead c len a = some y → y.2.smb = c.smb := by
  fun_induction firstHead c len a <;> grind [smb_headFor]

@[simp] theorem smb_closeFull (c : Chip) (e : Nat) : (closeFull c e).smb = c.smb := by
  unfold closeFull
  split
  · rfl
  · split
    · next h => exact (smb_openHead _ _ _ h).trans (by simp)
    · simp

theorem smb_placeWrite (c : Chip) (dies : List Nat) (obj : FObj) (use : FUse) :
    ∀ y, placeWrite c dies obj use = some y → y.2.smb = c.smb := by
  intro r h
  unfold placeWrite at h
  split at h
  · cases h
  · next hf =>
    cases h
    simpa using smb_firstHead _ _ _ _ hf

@[simp] theorem smb_flashWriteTo (c : Chip) (part : Nat) (obj : FObj) (use : FUse) (avoid : Option Nat) :
    (flashWriteTo c part obj use avoid).2.2.smb = c.smb := by
  grind [flashWriteTo, smb_takeFree, smb_placeWrite, smb_setFld]

@[simp] theorem smb_dropObject (c : Chip) (addr : Nat) : (dropObject c addr).smb = c.smb := by
  grind [dropObject, smb_eraseIfDead, smb_setFld]

@[simp] theorem smb_flashFreeOf (c : Chip) (addr len : Nat) : (flashFreeOf c addr len).2.smb = c.smb := by
  unfold flashFreeOf
  (repeat' split) <;> simp

@[simp] theorem smb_flashFree (c : Chip) (addr : Nat) : (flashFree c addr).smb = c.smb := by
  simp [flashFree]

@[simp] theorem smb_copyTo (c : Chip) (e t : Nat) : (copyTo c e t).smb = c.smb := by
  simp [copyTo]

@[simp] theorem smb_startCopy (c : Chip) (e : Nat) : (startCopy c e).smb = c.smb := by
  grind [startCopy, smb_takeFree, setExtent_smb, smb_copyTo]

@[simp] theorem smb_pumpCopies (c : Chip) : (pumpCopies c).smb = c.smb := by
  simp [pumpCopies, apply_ite Chip.smb, smb_foldl]

@[simp] theorem smb_pumpFlash (c : Chip) : (pumpFlash c).smb = c.smb := by
  simp [pumpFlash]

@[simp] theorem smb_flashRead (c : Chip) (addr : Nat) : (flashRead c addr).2.smb = c.smb := by
  grind [flashRead, smb_bumpPair, setExtent_smb]

@[simp] theorem smb_cancelWrite (c : Chip) (id : Nat) : (cancelWrite c id).smb = c.smb := by
  unfold cancelWrite
  split <;> simp

/-! ### Functions of Heap -/

theorem smb_heapAlloc (c : Chip) (p n : Nat) : ∀ y, heapAlloc c p n = some y → y.2.smb = c.smb := by
  grind [heapAlloc, smb_takeFree]

theorem smb_heapAllocs (c : Chip) (p : Nat) (a : List Nat) : ∀ y, heapAllocs c p a = some y → y.2.smb = c.smb := by
  induction a generalizing c with
  | nil => intro r h; cases h; rfl
  | cons n l ih =>
    intro r h
    unfold heapAllocs at h
    split at h
    · cases h
    · next ha =>
      split at h
      · cases h
      · next hl => cases h; exact (ih _ _ hl).trans (smb_heapAlloc _ _ _ _ ha)

@[simp] theorem smb_heapRelease (c : Chip) (a : Nat) : (heapRelease c a).smb = c.smb := by
  simp [heapRelease]

@[simp] theorem smb_dropGddr (c : Chip) (i : Nat) : (dropGddr c i).smb = c.smb := by
  unfold dropGddr
  split <;> simp

@[simp] theorem smb_freeBlock (c : Chip) (i : Nat) : (freeBlock c i).smb = c.smb := by
  grind [freeBlock, smb_dropGddr, smb_flashFree, setLedger_smb]

@[simp] theorem smb_releaseCopy (c : Chip) (i : Nat) : (releaseCopy c i).smb = c.smb := by
  unfold releaseCopy
  split <;> simp

@[simp] theorem smb_takeClaim (c : Chip) (i : Nat) : (takeClaim c i).smb = c.smb := by
  simp [takeClaim]

@[simp] theorem smb_dropClaim (c : Chip) (i : Nat) : (dropClaim c i).smb = c.smb := by
  simp [dropClaim]

@[simp] theorem smb_evictClaim (c : Chip) (i : Nat) : (evictClaim c i).smb = c.smb := by
  simp [evictClaim]

@[simp] theorem smb_refAdjust (c : Chip) (seq i : Nat) (up : Bool) : (refAdjust c seq i up).smb = c.smb := by
  grind [refAdjust, setLedger_smb, smb_freeBlock]

/-! ### Functions of Fig -/

@[simp] theorem smb_takeIndex (c : Chip) (i : Nat) : (takeIndex c i).smb = c.smb := by
  grind [takeIndex]

@[simp] theorem smb_putIndex (c : Chip) (i : Nat) : (putIndex c i).smb = c.smb := by
  unfold putIndex
  split <;> simp

@[simp] theorem smb_renewList (c : Chip) (p : Nat) : (renewList c p).smb = c.smb := by
  simp [renewList]

@[simp] theorem smb_takeRegion (c : Chip) (i : Nat) : (takeRegion c i).smb = c.smb := by
  unfold takeRegion
  split <;> simp

@[simp] theorem smb_sendOut (c : Chip) (n : Nat) (m : OutMsg) (seq : Nat) : (sendOut c n m seq).smb = c.smb := by
  unfold sendOut
  split <;> simp

@[simp] theorem smb_countJobEnd (c : Chip) (i status : Nat) (o : Op) : (countJobEnd c i status o).smb = c.smb := by
  unfold countJobEnd
  split <;> simp

@[simp] theorem smb_countTier (c : Chip) (status : Nat) : (countTier c status).smb = c.smb := by
  unfold countTier
  (repeat' split) <;> simp

@[simp] theorem smb_endOp (c : Chip) (i status : Nat) : (endOp c i status).smb = c.smb := by
  unfold endOp
  split <;> simp

@[simp] theorem smb_releaseAddr (c : Chip) (a : Nat) : (releaseAddr c a).smb = c.smb := by
  unfold releaseAddr
  split <;> simp

@[simp] theorem smb_recount (c : Chip) (i : Nat) : (recount c i).smb = c.smb := by
  simp [recount]

@[simp] theorem smb_releaseState (c : Chip) (i : Nat) : (releaseState c i).smb = c.smb := by
  grind [releaseState, smb_releaseAddr]

@[simp] theorem smb_releaseImage (c : Chip) (i : Nat) : (releaseImage c i).smb = c.smb := by
  grind [releaseImage, smb_flashFree, smb_cancelWrite]

@[simp] theorem smb_goCold (c : Chip) (i : Nat) : (goCold c i).smb = c.smb := by
  simp [goCold, smb_foldl]

@[simp] theorem smb_enterFree (c : Chip) (seq i : Nat) : (enterFree c seq i).smb = c.smb := by
  simp [enterFree, smb_foldl]

@[simp] theorem smb_replaceTable (c : Chip) (i : Nat) (blocks : Tbl Nat) (claims : List Nat) :
    (replaceTable c i blocks claims).smb = c.smb := by
  simp [replaceTable, smb_foldl]

theorem smb_setLedger_withMem (c : Chip) (m : List Host.Cell) (k : Nat) (e : Ledger) :
    (setLedger { c with mem := m } k e).smb = c.smb := rfl

@[simp] theorem smb_applyAct (c : Chip) (seq : Nat) (f : Figure) (a : Action) : (applyAct c seq f a).smb = c.smb := by
  cases a with
  | kvAppend b n stage => rfl
  | blockRef refs =>
    have h1 := smb_foldl (fun c k =>
      setLedger { c with mem := sealHeader c.mem ((ledger c k).gddr.getD 0) seq } k
        { ledger c k with state := .resident, ref := 1, res := 1, refSeq := seq })
      (fun c k => smb_setLedger_withMem ..) (refs.map (·.2)) c
    simpa [applyAct] using h1
  | dirSet sub fd v =>
    unfold applyAct
    dsimp only
    (repeat' split) <;> simp
  | regionSet g st =>
    unfold applyAct
    dsimp only
    (repeat' split) <;> simp
  | tableSet => simp [applyAct]
  | tokenEmit => rfl
  | countBatch => rfl
  | grammarSet => rfl
  | stopSet => rfl
  | epochSet => rfl
  | exclSet => rfl
  | refAdjust => simp [applyAct]
  | regOverlay => rfl
  | ckptCommit => simp [applyAct]

@[simp] theorem smb_markApplied (c : Chip) (seq : Nat) (f : Figure) : (markApplied c seq f).smb = c.smb := by
  unfold markApplied
  refine smb_foldl _ (fun c a => ?_) _ _
  grind [setEntry_smb]

@[simp] theorem smb_applyOne (c : Chip) : (applyOne c).smb = c.smb := by
  unfold applyOne
  (repeat' split) <;> simp [smb_foldl]

@[simp] theorem smb_settleN (n : Nat) (c : Chip) : (settleN n c).smb = c.smb := by
  induction n generalizing c with
  | zero => rfl
  | succ n ih => exact (ih _).trans (smb_applyOne c)

@[simp] theorem smb_settle (c : Chip) : (settle c).smb = c.smb := by
  unfold settle
  simp

@[simp] theorem smb_afterOne (c : Chip) (seq : Nat) (a : After) : (afterOne c seq a).smb = c.smb := by
  unfold afterOne
  (repeat' split) <;> simp

@[simp] theorem smb_logWrite (c : Chip) (u : Nat) (l : List Byte) : (logWrite c u l).smb = c.smb := by
  simp [logWrite]

@[simp] theorem smb_commitFig (c : Chip) (f : Figure) : (commitFig c f).smb = c.smb := by
  simp [commitFig, apply_ite Chip.smb, smb_foldl]

@[simp] theorem smb_abortOpen (c : Chip) (f : Figure) : (abortOpen c f).smb = c.smb := by
  grind [abortOpen, smb_bump, smb_takeFine, smb_logWrite]

@[simp] theorem smb_openFig (c : Chip) (f : Figure) : (openFig c f).smb = c.smb := by
  unfold openFig
  split <;> simp

@[simp] theorem smb_countStalls (a : Nat) (a1 : Chip) : (countStalls a a1).smb = a1.smb := by
  induction a generalizing a1 with
  | zero => simp [countStalls]
  | succ k ih =>
    unfold countStalls
    (repeat' split) <;> simp [ih]

@[simp] theorem smb_releaseWaitingN (a : Nat) (a1 : Chip) : (releaseWaitingN a a1).smb = a1.smb := by
  fun_induction releaseWaitingN a a1 <;> grind [smb_commitFig]

@[simp] theorem smb_releaseWaiting (c : Chip) : (releaseWaiting c).smb = c.smb := by
  simp [releaseWaiting]

@[simp] theorem smb_damageSession (c : Chip) (i : Nat) : (damageSession c i).smb = c.smb := by
  grind [damageSession, smb_openFig]

@[simp] theorem smb_touch (c : Chip) (i : Nat) : (touch c i).smb = c.smb := by
  grind [touch, smb_bumpPair, smb_takeFree, smb_settle, smb_damageSession, smb_raise]

/-! ### Functions of Image -/

@[simp] theorem smb_putTailRows (c : Chip) (base slot : Nat) (s : LayerShape) (rows : List (List Byte)) :
    (putTailRows c base slot s rows).smb = c.smb := by
  unfold putTailRows
  simp

@[simp] theorem smb_putMem (c : Chip) (a : Nat) (l : List Byte) : (putMem c a l).smb = c.smb := by
  unfold putMem
  simp

/-! ### Functions of Revive -/

@[simp] theorem smb_noteHeapLow (c : Chip) (p : Nat) : (noteHeapLow c p).smb = c.smb := by
  unfold noteHeapLow
  split <;> simp

@[simp] theorem smb_dropRevival (c : Chip) (i : Nat) : (dropRevival c i).smb = c.smb := by
  simp [dropRevival]

@[simp] theorem smb_claimBlock (c : Chip) (i k : Nat) : (claimBlock c i k).smb = c.smb := by
  simp [claimBlock]

theorem smb_startRead (c : Chip) (p k : Nat) : ∀ y, startRead c p k = some y → y.smb = c.smb := by
  intro r h
  unfold startRead at h
  split at h
  · cases h
  · next ha => cases h; simpa using smb_heapAlloc _ _ _ _ ha

theorem smb_startReads (c : Chip) (p : Nat) (a : List Nat) : ∀ y, startReads c p a = some y → y.smb = c.smb := by
  fun_induction startReads c p a <;> grind [smb_startRead]

theorem smb_beginRevival (c : Chip) (r : Revival) : ∀ y, beginRevival c r = some y → y.smb = c.smb := by
  intro y h
  unfold beginRevival at h
  extract_lets i e want flash busy here img c0 at h
  split at h
  · have h0 : c0.smb = c.smb := by
      unfold c0
      split
      · exact smb_fault ..
      · rfl
    rw [← Option.some.inj h, smb_damageSession, smb_dropRevival, h0]
  · split at h
    · exact nomatch h
    · split at h
      · exact nomatch h
      · split at h
        · exact nomatch h
        · split at h
          · exact nomatch h
          · next addrs c1 ha =>
            split at h
            · exact nomatch h
            · next c2 hs =>
              have hm := (smb_startReads _ _ _ _ hs).trans (smb_heapAllocs _ _ _ _ ha)
              rw [← Option.some.inj h, ← hm, setRevival_smb, smb_bumpPair]
              split
              · rw [smb_flashRead, smb_foldl _ (fun c k => smb_claimBlock _ _ _)]
              · rw [smb_foldl _ (fun c k => smb_claimBlock _ _ _)]

@[simp] theorem smb_pumpRevivals (c : Chip) : (pumpRevivals c).smb = c.smb := by
  unfold pumpRevivals
  refine smb_foldl _ (fun c d => ?_) _ _
  (repeat' split) <;> first | exact smb_beginRevival _ _ _ ‹_› | simp

@[simp] theorem smb_startRevival (c : Chip) (i deadline order : Nat) :
    (startRevival c i deadline order).smb = c.smb := by
  simp [startRevival]

@[simp] theorem smb_abandonRevival (c : Chip) (i : Nat) : (abandonRevival c i).smb = c.smb := by
  unfold abandonRevival
  (repeat' split) <;> simp [smb_foldl]

@[simp] theorem smb_failRevival (c : Chip) (i : Nat) : (failRevival c i).smb = c.smb := by
  unfold failRevival
  (repeat' split) <;> simp [smb_foldl]

@[simp] theorem smb_damageBlock (c : Chip) (k : Nat) : (damageBlock c k).smb = c.smb := by
  simp [damageBlock, smb_foldl]

@[simp] theorem smb_flashCopyBad (c : Chip) (k : Nat) : (flashCopyBad c k).smb = c.smb := by
  simp [flashCopyBad]

/-! ### Functions of Access -/

/-- Stated of `rehomeBy`, whose test of TIER's room the kernel does not unroll. -/
theorem smb_rehomeBy (serves : Chip → Nat → Bool) (c : Chip) (k : Nat) (data : List Byte) :
    (rehomeBy serves c k data).smb = c.smb := by
  unfold rehomeBy
  extract_lets p c1
  have h1 : c1.smb = c.smb := smb_dropGddr ..
  split
  · next b c2 hx =>
    split at hx
    · exact (smb_heapAlloc _ _ _ _ hx).trans h1
    · exact nomatch hx
  · rfl

@[simp] theorem smb_rehome (c : Chip) (k : Nat) (data : List Byte) : (rehome c k data).smb = c.smb := by
  rw [rehome_eq_rehomeBy, smb_rehomeBy]

@[simp] theorem smb_lostCopy (c : Chip) (cls a k : Nat) : (lostCopy c cls a k).smb = c.smb := by
  grind [lostCopy, smb_flashRead, smb_fault, smb_rehome, smb_flashCopyBad, smb_damageBlock]

@[simp] theorem smb_checkCopies (c : Chip) (ks : List Nat) : (checkCopies c ks).smb = c.smb := by
  unfold checkCopies
  simp [apply_ite Chip.smb, smb_foldl]

@[simp] theorem smb_flushBlock (c : Chip) (part k : Nat) (avoid : Option Nat) :
    (flushBlock c part k avoid).2.smb = c.smb := by
  grind [flushBlock, smb_lostCopy, smb_flashWriteTo, smb_bumpPair]

@[simp] theorem smb_flushRest (part : Nat) (c : Chip) (avoid : Option Nat) (l : List Nat) :
    (flushRest part c avoid l).2.smb = c.smb := by
  induction l generalizing c avoid with
  | nil => rfl
  | cons k r ih =>
    have h1 := smb_flushBlock c part k avoid
    unfold flushRest
    split
    next st c1 hf =>
    rw [hf] at h1
    split
    · exact (ih _ _).trans h1
    · exact h1

@[simp] theorem smb_flushBlocks (part : Nat) (c : Chip) (l : List Nat) : (flushBlocks part c l).2.smb = c.smb := by
  unfold flushBlocks
  simp

@[simp] theorem smb_cancelEvict (c : Chip) (i : Nat) : (cancelEvict c i).smb = c.smb := by
  unfold cancelEvict
  (repeat' split) <;> simp

@[simp] theorem smb_startEvict (c : Chip) (i : Nat) : (startEvict c i).smb = c.smb := by
  grind [startEvict, smb_flushBlocks, smb_flashWriteTo, smb_bumpPair, setBody_smb]

@[simp] theorem smb_pressOn (c : Chip) (p : Nat) : (pressOn c p).smb = c.smb := by
  unfold pressOn
  (repeat' split) <;> simp [smb_foldl]

@[simp] theorem smb_pumpPressure (c : Chip) : (pumpPressure c).smb = c.smb := by
  unfold pumpPressure
  simp [smb_foldl]

/-! ### Functions of FlashOps -/

@[simp] theorem smb_hurtSession (c : Chip) (i : Nat) : (hurtSession c i).smb = c.smb := by
  unfold hurtSession
  split <;> simp

@[simp] theorem smb_putEntry (c : Chip) (a : Nat) (v : DWord) : (putEntry c a v).smb = c.smb := by
  unfold putEntry
  simp

/-! ### Functions of Offer -/

@[simp] theorem smb_offerBegin (c : Chip) (i : Nat) (o : Op) (toConn notify : BitVec 16) :
    (offerBegin c i o toConn notify).smb = c.smb := by
  simp [offerBegin]

/-! ### Functions of Sess -/

@[simp] theorem smb_applyAfters (c : Chip) (l : List After) : (applyAfters c l).smb = c.smb := by
  simp [applyAfters, smb_foldl]

@[simp] theorem smb_endNow (c : Chip) (i : Nat) (o : Op) (status : Nat) : (endNow c i o status).smb = c.smb := by
  simp [endNow]

@[simp] theorem smb_finishOp (c0 : Chip) (i status : Nat) : (finishOp c0 i status).smb = c0.smb := by
  grind [finishOp, smb_settle, smb_abandonRevival, smb_openFig, smb_endNow]

@[simp] theorem smb_figOp (c : Chip) (i : Nat) (o : Op) (new : Session) (acts : List Action) (aux : Nat)
    (more : List After) :
    (figOp c i o new acts aux more).smb = c.smb := by
  grind [figOp, smb_endNow, smb_openFig]

@[simp] theorem smb_setHead (c : Chip) (i : Nat) (o : Op) : (setHead c i o).smb = c.smb := by
  unfold setHead
  split <;> simp

@[simp] theorem smb_reviveOrReady (c : Chip) (i : Nat) (o ready : Op) : (reviveOrReady c i o ready).smb = c.smb := by
  grind [reviveOrReady, smb_endNow, smb_startRevival, smb_setHead]

@[simp] theorem smb_appendTokens (c : Chip) (i : Nat) (o : Op) (l : List Nat) : (appendTokens c i o l).smb = c.smb := by
  grind [appendTokens, smb_endNow, smb_reviveOrReady]

@[simp] theorem smb_appendBegin (c : Chip) (i : Nat) (o : Op) (src : AppendSrc) :
    (appendBegin c i o src).smb = c.smb := by
  unfold appendBegin
  (repeat' split) <;> simp

@[simp] theorem smb_generateBegin (c : Chip) (i : Nat) (o : Op) (req : GenReq) :
    (generateBegin c i o req).smb = c.smb := by
  grind [generateBegin, smb_endNow, smb_reviveOrReady]

@[simp] theorem smb_excludeBegin (c : Chip) (i : Nat) (o : Op) (a b : Nat) : (excludeBegin c i o a b).smb = c.smb := by
  grind [excludeBegin, smb_endNow, smb_takeFree, smb_figOp]

@[simp] theorem smb_endBegin (c : Chip) (i : Nat) (o : Op) (secure : Bool) : (endBegin c i o secure).smb = c.smb := by
  simp [endBegin]

@[simp] theorem smb_forkMake (c : Chip) (i : Nat) (o : Op) (req : ForkReq) (k : Nat) (addrs : List Nat) :
    (forkMake c i o req k addrs).smb = c.smb := by
  unfold forkMake
  (repeat' split) <;> simp [apply_ite Chip.smb, smb_foldl]

@[simp] theorem smb_forkBegin (c : Chip) (i : Nat) (o : Op) (req : ForkReq) : (forkBegin c i o req).smb = c.smb := by
  fun_cases forkBegin c i o req
  case case1 e p st _ c1 =>
    have h1 : c1.smb = c.smb := by unfold c1; split <;> simp
    rw [smb_endNow]
    split <;> simp [h1]
  case case2 => exact smb_endNow ..
  case case3 ks ca _ => exact (smb_hurtSession ..).trans (smb_checkCopies ..)
  case case4 ks ca _ _ _ _ _ _ _ _ _ _ => exact (smb_endNow ..).trans (smb_checkCopies c ks)
  case case5 ks ca _ k addrs c1 ha _ v c2 ht _ =>
    have h1 : c1.smb = c.smb := (smb_heapAllocs _ _ _ _ ha).trans (smb_checkCopies ..)
    have h2 : c2.smb = c1.smb := by rw [← smb_takeFree c1, ht]
    rw [smb_forkMake]
    split
    · exact h2.trans h1
    · exact h1
  case case6 => exact (smb_endNow ..).trans (smb_checkCopies ..)

@[simp] theorem smb_beginOp (c : Chip) (i : Nat) (o : Op) : (beginOp c i o).smb = c.smb := by
  grind [beginOp, smb_setHead, smb_endNow, smb_appendBegin, smb_generateBegin, smb_startRevival, smb_forkBegin,
    smb_excludeBegin, smb_offerBegin, smb_reviveOrReady, smb_figOp, smb_endBegin]

@[simp] theorem smb_cleanRevivals (c : Chip) : (cleanRevivals c).smb = c.smb := by
  simp [cleanRevivals, smb_foldl]

@[simp] theorem smb_kickN (n : Nat) (c : Chip) : (kickN n c).smb = c.smb := by
  induction n generalizing c with
  | zero => rfl
  | succ n ih =>
    unfold kickN
    split
    · rfl
    · refine (ih _).trans (smb_foldl _ (fun c i => ?_) _ _)
      split <;> simp

@[simp] theorem smb_kick (c : Chip) : (kick c).smb = c.smb := by
  unfold kick
  simp

/-! ### Functions of Tier -/

@[simp] theorem smb_sweepStart (c : Chip) : (sweepStart c).smb = c.smb := by
  simp [sweepStart]

/-! ### Functions of Grid -/

@[simp] theorem smb_startTest (c : Chip) (n : Nat) : (startTest c n).smb = c.smb := by
  simp [startTest]

@[simp] theorem smb_pumpTests (a : Nat) (a1 : Chip) : (pumpTests a a1).smb = a1.smb := by
  fun_induction pumpTests a a1 <;> grind [smb_startTest, setCore_smb]

@[simp] theorem smb_runTests (c : Chip) : (runTests c).smb = c.smb := by
  simp [runTests]

@[simp] theorem smb_requestTest (c : Chip) (n : Nat) : (requestTest c n).smb = c.smb := by
  unfold requestTest
  split <;> simp

theorem smb_coreCtrl (c : Chip) (n : Nat) (w : Word) : ∀ y, coreCtrl c n w = some y → y.smb = c.smb := by
  grind [coreCtrl, smb_startTest, setCore_smb, smb_requestTest]

@[simp] theorem smb_becomeLame (c : Chip) (n : Nat) : (becomeLame c n).smb = c.smb := by
  grind [becomeLame, smb_raise, setCore_smb, smb_requestTest]

@[simp] theorem smb_gridTesting (c : Chip) : (gridTesting c).smb = c.smb := by
  simp [gridTesting, smb_foldl]

@[simp] theorem smb_gridOn (c : Chip) : (gridOn c).smb = c.smb := by
  simp [gridOn, apply_ite Chip.smb, smb_foldl]

/-! ### Functions of Sched -/

@[simp] theorem smb_setRowPoint (c : Chip) (y v : Nat) : (setRowPoint c y v).smb = c.smb := by
  simp [setRowPoint]

@[simp] theorem smb_setRowPoints (c : Chip) (ys : List Nat) (v : Nat) : (setRowPoints c ys v).smb = c.smb := by
  simp [setRowPoints, smb_foldl]

@[simp] theorem smb_exploreStep (c : Chip) (p : Nat) (k : EngineKind) : (exploreStep c p k).smb = c.smb := by
  grind [exploreStep, smb_setRowPoints]

@[simp] theorem smb_freeStaged (c : Chip) (l : List Nat) : (freeStaged c l).smb = c.smb := by
  simp [freeStaged, smb_foldl]

/-! ### Functions of StepEnd -/

@[simp] theorem smb_unreserve (c : Chip) (w : Work) : (unreserve c w).smb = c.smb := by
  simp [unreserve]

@[simp] theorem smb_voidWork (c : Chip) (w : Work) : (voidWork c w).smb = c.smb := by
  simp [voidWork]

@[simp] theorem smb_abortWork (c : Chip) (w : Work) : (abortWork c w).smb = c.smb := by
  unfold abortWork
  split <;> simp

@[simp] theorem smb_endDrained (c : Chip) (p : Nat) : (endDrained c p).smb = c.smb := by
  unfold endDrained
  simp [smb_foldl]

@[simp] theorem smb_closeStep (c : Chip) (p : Nat) (tail : Option StepTail) : (closeStep c p tail).smb = c.smb := by
  simp [closeStep]

/-! ### Functions of Xpt -/

@[simp] theorem smb_sendAck (c : Chip) (n : Nat) : (sendAck c n).smb = c.smb := by
  simp [sendAck]

@[simp] theorem smb_unpend (c : Chip) (n : Nat) (s : Word) : (unpend c n s).smb = c.smb := by
  simp [unpend]

@[simp] theorem smb_sendNak (c : Chip) (n : Nat) (s : Word) (st : Nat) : (sendNak c n s st).smb = c.smb := by
  simp [sendNak]

@[simp] theorem smb_rxGate (c : Chip) (l : Link) (p : Pkt) : (rxGate c l p).2.smb = c.smb := by
  grind [rxGate, smb_bump]

@[simp] theorem smb_countRx (c : Chip) (l : Link) : (countRx c l).smb = c.smb := by
  simp [countRx]

@[simp] theorem smb_rxSeq (c : Chip) (n : Nat) (p : Pkt) (l : Link) : (rxSeq c n p l).2.smb = c.smb := by
  grind [rxSeq, smb_bump, smb_sendAck, smb_countRx, setConn_smb]

@[simp] theorem smb_rxData (c : Chip) (l : Link) (p : Pkt) (effect : Chip → Nat → Chip)
    (heffect : ∀ c n, (effect c n).smb = c.smb) : (rxData c l p effect).smb = c.smb := by
  grind [rxData, smb_rxGate, smb_bump, smb_rxSeq, smb_sendAck]

@[simp] theorem smb_violRecord (c : Chip) (n i : Nat) (p : Pkt) (chk len : Nat) :
    (violRecord c n i p chk len).smb = c.smb := by
  grind [violRecord, smb_takeFree, smb_takeFine, setRegion_smb, smb_sendMsg]

@[simp] theorem smb_refuseAccess (c : Chip) (n : Nat) (p : Pkt) (len chk : Nat) :
    (refuseAccess c n p len chk).smb = c.smb := by
  unfold refuseAccess
  (repeat' split) <;> simp

@[simp] theorem smb_noteOp (c : Chip) (n : Nat) (p : Pkt) : (noteOp c n p).smb = c.smb := by
  grind [noteOp, setConn_smb]

@[simp] theorem smb_addAcc (c : Chip) (n : Nat) (p : Pkt) (isRead : Bool) : (addAcc c n p isRead).smb = c.smb := by
  simp [addAcc]

@[simp] theorem smb_dropAcc (c : Chip) (a : RemAcc) : (dropAcc c a).smb = c.smb := by
  simp [dropAcc]

@[simp] theorem smb_placeAcc (c : Chip) (n : Nat) (s : Word) : (placeAcc c n s).smb = c.smb := by
  grind [placeAcc, smb_dropAcc, smb_unpend]

@[simp] theorem smb_writeAccess (c : Chip) (n : Nat) (p : Pkt) : (writeAccess c n p).smb = c.smb := by
  grind [writeAccess, smb_sendNak, smb_noteOp, smb_refuseAccess, smb_addAcc]

@[simp] theorem smb_respAccess (c : Chip) (n : Nat) (p : Pkt) : (respAccess c n p).smb = c.smb := by
  grind [respAccess, smb_refuseAccess, smb_placeAcc, smb_addAcc]

@[simp] theorem smb_readAccess (c : Chip) (n : Nat) (p : Pkt) : (readAccess c n p).smb = c.smb := by
  grind [readAccess, smb_sendNak, smb_noteOp, smb_refuseAccess, smb_unpend, smb_addAcc, smb_settleEvents, smb_sendAll]

@[simp] theorem smb_nakAll (c : Chip) (n : Nat) (l : List Pkt) (st : Nat) : (nakAll c n l st).smb = c.smb := by
  simp [nakAll, smb_foldl]

@[simp] theorem smb_msgStep (c : Chip) (n : Nat) (p : Pkt) : (msgStep c n p).smb = c.smb := by
  grind [msgStep, smb_sendNak, setConn_smb, smb_nakAll]

@[simp] theorem smb_assemble (a : Nat) (a1 : Chip) (a2 : Nat) : (assemble a a1 a2).smb = a1.smb := by
  fun_induction assemble a a1 a2 <;> grind [smb_msgStep, setConn_smb]

@[simp] theorem smb_assembleAll (c : Chip) (n : Nat) : (assembleAll c n).smb = c.smb := by
  simp [assembleAll]

@[simp] theorem smb_msgAccess (c : Chip) (n : Nat) (p : Pkt) : (msgAccess c n p).smb = c.smb := by
  simp [msgAccess]

@[simp] theorem smb_rateDown (c : Chip) (n : Nat) : (rateDown c n).smb = c.smb := by
  grind [rateDown, smb_takeFree, setConn_smb]

@[simp] theorem smb_resendGaps (c : Chip) (n : Nat) (p : Pkt) : (resendGaps c n p).smb = c.smb := by
  simp [resendGaps, smb_foldl_fst]

@[simp] theorem smb_pumpConn (c : Chip) (n : Nat) : (pumpConn c n).smb = c.smb := by
  simp [pumpConn]

@[simp] theorem smb_ackRx (c : Chip) (n : Nat) (p : Pkt) : (ackRx c n p).2.smb = c.smb := by
  unfold ackRx
  split <;> simp

@[simp] theorem smb_nakRx (c : Chip) (n : Nat) (p : Pkt) : (nakRx c n p).2.smb = c.smb := by
  grind [nakRx, setConn_smb, smb_raise, smb_pumpConn]

@[simp] theorem smb_forgetUse (c : Chip) (n : Nat) (u : InitUse) : (forgetUse c n u).smb = c.smb := by
  simp [forgetUse]

@[simp] theorem smb_dropWaiting (c : Chip) (n : Nat) : (dropWaiting c n).smb = c.smb := by
  grind [dropWaiting, setConn_smb, smb_raise, smb_bump]

@[simp] theorem smb_dropRequester (c : Chip) (n : Nat) : (dropRequester c n).smb = c.smb := by
  simp [dropRequester]

@[simp] theorem smb_connFail (c : Chip) (n : Nat) : (connFail c n).2.smb = c.smb := by
  simp [connFail]

@[simp] theorem smb_closeConn (c : Chip) (n : Nat) : (closeConn c n).smb = c.smb := by
  simp [closeConn]

@[simp] theorem smb_connOpen (c : Chip) (n : Nat) : (connOpen c n).2.smb = c.smb := by
  grind [connOpen, smb_takeFree, smb_sendControl, setConn_smb]

@[simp] theorem smb_setRemote (c : Chip) (n : Nat) (l : Link) : (setRemote c n l).smb = c.smb := by
  simp [setRemote, apply_ite Chip.smb, smb_foldl]

@[simp] theorem smb_refuseConnect (c : Chip) (l : Link) (p : Pkt) (st : Nat) :
    (refuseConnect c l p st).smb = c.smb := by
  unfold refuseConnect
  split <;> simp

@[simp] theorem smb_acceptConnect (c : Chip) (l : Link) (p : Pkt) (n : Nat) : (acceptConnect c l p n).smb = c.smb := by
  grind [acceptConnect, smb_takeFree, smb_setRemote, setConn_smb, smb_setFldB, smb_raise, smb_sendControl]

@[simp] theorem smb_connectRx (c : Chip) (l : Link) (p : Pkt) : (connectRx c l p).smb = c.smb := by
  grind [connectRx, smb_bump, smb_countRx, smb_sendControl, smb_refuseConnect, smb_acceptConnect]

@[simp] theorem smb_connectAckRx (c : Chip) (l : Link) (p : Pkt) : (connectAckRx c l p).smb = c.smb := by
  grind [connectAckRx, smb_rxGate, smb_countRx, setConn_smb, smb_pumpConn, smb_connFail]

@[simp] theorem smb_startClosing (c : Chip) (n : Nat) : (startClosing c n).2.smb = c.smb := by
  simp [startClosing]

@[simp] theorem smb_closeRx (c : Chip) (l : Link) (p : Pkt) : (closeRx c l p).2.2.smb = c.smb := by
  grind [closeRx, smb_rxGate, smb_countRx, smb_startClosing, smb_dropRequester, setConn_smb]

@[simp] theorem smb_connMgmt (c : Chip) (n : Nat) : (connMgmt c n).2.smb = c.smb := by
  grind [connMgmt, smb_raise, setConn_smb]

@[simp] theorem smb_connUnmgmt (c : Chip) (n : Nat) : (connUnmgmt c n).2.smb = c.smb := by
  grind [connUnmgmt, smb_dropRequester, smb_setFldB, setConn_smb]

@[simp] theorem smb_connRelease (c : Chip) (n : Nat) : (connRelease c n).2.smb = c.smb := by
  unfold connRelease
  split <;> simp

@[simp] theorem smb_answerRegion (c : Chip) (n st op : Nat) (tag : Word) (reqTag : DWord) (len : Nat) :
    (answerRegion c n st op tag reqTag len).smb = c.smb := by
  simp [answerRegion]

@[simp] theorem smb_revokeRegion (c : Chip) (i reply : Nat) (tag : DWord) :
    (revokeRegion c i reply tag).smb = c.smb := by
  unfold revokeRegion
  simp

@[simp] theorem smb_remoteWrite (c : Chip) (n : Nat) (tag : Word) (off : Nat) (data : List Byte) (u : InitUse) :
    (remoteWrite c n tag off data u).smb = c.smb := by
  simp [remoteWrite]

/-! ### Functions of Cut -/

@[simp] theorem smb_abortWaiting (c : Chip) (i : Nat) : (abortWaiting c i).smb = c.smb := by
  simp [abortWaiting, smb_foldl]

@[simp] theorem smb_releaseRest (c : Chip) (base len : Nat) : (releaseRest c base len).smb = c.smb := by
  simp [releaseRest]

@[simp] theorem smb_dropLanding (c : Chip) (x : CutRec) : (dropLanding c x).smb = c.smb := by
  grind [dropLanding, setRegion_smb, smb_settle, smb_openFig, smb_releaseRest]

@[simp] theorem smb_discardDst (c : Chip) (i : Nat) (r : Option CutRec) : (discardDst c i r).smb = c.smb := by
  unfold discardDst
  (repeat' split) <;> simp

@[simp] theorem smb_settleArrival (c : Chip) (i : Nat) (r : CutRec) : (settleArrival c i r).smb = c.smb := by
  simp [settleArrival]

@[simp] theorem smb_settleBare (c : Chip) (i : Nat) : (settleBare c i).smb = c.smb := by
  simp [settleBare]

@[simp] theorem smb_srcReturn (c : Chip) (i : Nat) (r : CutRec) (epoch st : Nat) (msg : Option Byte) :
    (srcReturn c i r epoch st msg).smb = c.smb := by
  unfold srcReturn
  (repeat' split) <;> simp

@[simp] theorem smb_srcWithdraw (c : Chip) (i : Nat) (r : CutRec) (st : Nat) : (srcWithdraw c i r st).smb = c.smb := by
  simp [srcWithdraw]

@[simp] theorem smb_cutResolve (c : Chip) (hdl : Word) (act : Nat) : (cutResolve c hdl act).2.smb = c.smb := by
  unfold cutResolve
  (repeat' split) <;> simp

/-! ### Functions of Port -/

@[simp] theorem smb_dropFrame (c : Chip) (a n : Nat) : (dropFrame c a n).smb = c.smb := by
  unfold dropFrame
  split <;> simp

@[simp] theorem smb_dropQueue (c : Chip) (p : Nat) : (dropQueue c p).smb = c.smb := by
  simp [dropQueue]

@[simp] theorem smb_portOff (c : Chip) (p : Nat) : (portOff c p).smb = c.smb := by
  simp [portOff]

@[simp] theorem smb_portTrain (c : Chip) (p : Nat) : (portTrain c p).smb = c.smb := by
  simp [portTrain]

@[simp] theorem smb_peerOn (c : Chip) : (peerOn c).smb = c.smb := by
  simp [peerOn, apply_ite Chip.smb, smb_foldl]

@[simp] theorem smb_peerOff (c : Chip) : (peerOff c).smb = c.smb := by
  simp [peerOff, smb_foldl]

@[simp] theorem smb_startSweep (c : Chip) : (startSweep c).smb = c.smb := by
  unfold startSweep
  (repeat' split) <;> simp

@[simp] theorem smb_rtSwap (c : Chip) : (rtSwap c).smb = c.smb := by
  simp [rtSwap]

@[simp] theorem smb_rtCopy (c : Chip) : (rtCopy c).smb = c.smb := by
  unfold rtCopy
  split <;> simp

@[simp] theorem smb_setShadow (c : Chip) (i : Nat) (w : Word) : (setShadow c i w).smb = c.smb := by
  unfold setShadow
  split <;> simp

@[simp] theorem smb_rtAdvance (c : Chip) : (rtAdvance c).smb = c.smb := by
  simp [rtAdvance]

@[simp] theorem smb_hostTrain (c : Chip) : (hostTrain c).smb = c.smb := by
  simp [hostTrain]

@[simp] theorem smb_hostOn (c : Chip) : (hostOn c).smb = c.smb := by
  unfold hostOn
  split <;> simp

@[simp] theorem smb_hostOff (c : Chip) : (hostOff c).smb = c.smb := by
  simp [hostOff]

/-! ### Functions of Search -/

@[simp] theorem smb_answerSearch (c : Chip) (n op index : Nat) (tag : DWord) (status visited : Nat) :
    (answerSearch c n op index tag status visited).smb = c.smb := by
  grind [answerSearch, smb_takeFree, smb_bumpPair, smb_sendMsg]

@[simp] theorem smb_freeOlds (c : Chip) : (freeOlds c).smb = c.smb := by
  simp [freeOlds, smb_foldl]

@[simp] theorem smb_countSearch (c : Chip) (status : Nat) : (countSearch c status).smb = c.smb := by
  unfold countSearch
  (repeat' split) <;> simp

@[simp] theorem smb_sendQuery (c : Chip) (q : Query) (status : Nat) (hits : List SearchHit) :
    (sendQuery c q status hits).smb = c.smb := by
  simp [sendQuery]

@[simp] theorem smb_mergeDone (c : Chip) (q : Query) : (mergeDone c q).smb = c.smb := by
  grind [mergeDone, smb_takeFree, smb_raise, smb_sendQuery]

@[simp] theorem smb_shardAnswer (c : Chip) (id shard status : Nat) (hits : List SearchHit) :
    (shardAnswer c id shard status hits).smb = c.smb := by
  grind [shardAnswer, smb_takeFree, setQuery_smb, smb_mergeDone]

@[simp] theorem smb_endQuery (c : Chip) (q : Query) (status : Nat) (hits : List SearchHit) :
    (endQuery c q status hits).smb = c.smb := by
  unfold endQuery
  split <;> simp

@[simp] theorem smb_freeIndexObjects (c : Chip) (x : Nat) : (freeIndexObjects c x).smb = c.smb := by
  unfold freeIndexObjects
  simp [apply_ite Chip.smb, smb_foldl]

@[simp] theorem smb_stopRepair (c : Chip) : (stopRepair c).smb = c.smb := by
  simp [stopRepair, smb_foldl]

@[simp] theorem smb_endSearches (c : Chip) (mine : Nat → Bool) (status : Nat) :
    (endSearches c mine status).smb = c.smb := by
  unfold endSearches
  refine (smb_foldl _ (fun c d => by simp) _ _).trans (smb_foldl _ (fun c d => ?_) _ _)
  split <;> simp

@[simp] theorem smb_modCkpt (c : Chip) (f : CkptUnit → CkptUnit) : (modCkpt c f).smb = c.smb := by
  unfold modCkpt
  simp

/-! ### Functions of Ckpt -/

@[simp] theorem smb_ownRegion (c : Chip) (base len : Nat) : (ownRegion c base len).2.smb = c.smb := by
  unfold ownRegion
  split <;> simp

@[simp] theorem smb_ckptOn (c : Chip) : (ckptOn c).smb = c.smb := by
  fun_cases ckptOn c
  case case1 => rfl
  case case2 _ a c1 h1 v c2 h2 base c3 h3 m c4 h4 c5 =>
    have e1 : c1.smb = c.smb := by rw [← smb_ownRegion c, h1]
    have e2 : c2.smb = c1.smb := by rw [← smb_takeFree c1, h2]
    have e4 : c4.smb = c3.smb := by rw [← smb_ownRegion c3, h4]
    have e3 : c3.smb = c2.smb := by
      split at h3
      · next h =>
        split at h
        · rw [← (Prod.mk.inj h3).2, smb_heapAlloc _ _ _ _ h]
        · exact nomatch h
      · rw [← (Prod.mk.inj h3).2]
    rw [setReg_smb, setReg_smb, modCkpt_smb, e4, e3, e2, e1]

@[simp] theorem smb_endOwn (c : Chip) (r : Option Nat) (heap : Bool) : (endOwn c r heap).smb = c.smb := by
  unfold endOwn
  (repeat' split) <;> simp

@[simp] theorem smb_sendMark (c : Chip) (m : Mark) : (sendMark c m).smb = c.smb := by
  simp [sendMark]

@[simp] theorem smb_newRound (c : Chip) (typ : Nat) : (newRound c typ).smb = c.smb := by
  simp [newRound]

@[simp] theorem smb_startRound (c : Chip) : (startRound c).smb = c.smb := by
  simp [startRound]

@[simp] theorem smb_ckptNow (c : Chip) : (ckptNow c).2.smb = c.smb := by
  unfold ckptNow
  (repeat' split) <;> simp

@[simp] theorem smb_dropCopies (c : Chip) : (dropCopies c).smb = c.smb := by
  simp [dropCopies, smb_foldl]

@[simp] theorem smb_uncountShard (c : Chip) : (uncountShard c).smb = c.smb := by
  simp [uncountShard]

@[simp] theorem smb_abandonShard (c : Chip) : (abandonShard c).smb = c.smb := by
  unfold abandonShard
  split <;> simp

@[simp] theorem smb_restoreStart (c : Chip) (gen0 gen1 : List Byte) : (restoreStart c gen0 gen1).smb = c.smb := by
  grind [restoreStart, smb_modCkpt, smb_newRound, smb_sendMark]

@[simp] theorem smb_cutResolveHeld (c0 : Chip) (action : Nat) : (cutResolveHeld c0 action).2.smb = c0.smb := by
  grind [cutResolveHeld, smb_settle, smb_setFld, smb_openFig, smb_kick]

@[simp] theorem smb_forgetGens (c : Chip) : (forgetGens c).smb = c.smb := by
  simp [forgetGens]

@[simp] theorem smb_ckptReset (c : Chip) : (ckptReset c).smb = c.smb := by
  simp [ckptReset]

@[simp] theorem smb_modPwr (c : Chip) (f : PwrUnit → PwrUnit) : (modPwr c f).smb = c.smb := by
  unfold modPwr
  simp

/-! ### Functions of Power -/

@[simp] theorem smb_tripClearOp (c : Chip) (r : Requester) : (tripClearOp c r).2.smb = c.smb := by
  unfold tripClearOp
  split <;> simp

/-! ### Functions of Crc -/

@[simp] theorem smb_setCrcStat (c : Chip) (u : Nat) (busy : Bool) (status : Nat) (valid : Bool) :
    (setCrcStat c u busy status valid).smb = c.smb := by
  simp [setCrcStat]

@[simp] theorem smb_crcFail (c : Chip) (u status : Nat) : (crcFail c u status).smb = c.smb := by
  simp [crcFail]

@[simp] theorem smb_crcStart (c : Chip) (u : Nat) : (crcStart c u).2.smb = c.smb := by
  grind [crcStart, setRegB_smb, smb_crcFail, setCrcUnit_smb, smb_setCrcStat]

/-! ### Functions of XptRx -/

@[simp] theorem smb_useFailed (c : Chip) (n : Nat) (u : InitUse) : (useFailed c n u).smb = c.smb := by
  unfold useFailed
  (repeat' split) <;> simp

@[simp] theorem smb_usesClosed (c : Chip) (n : Nat) (l : List InitUse) : (usesClosed c n l).smb = c.smb := by
  simp [usesClosed, apply_ite Chip.smb, smb_foldl]

@[simp] theorem smb_usesLost (c : Chip) (n : Nat) (l : List InitUse) : (usesLost c n l).smb = c.smb := by
  simp [usesLost, smb_foldl]

@[simp] theorem smb_vstAck (c : Chip) (l : Link) (p : Pkt) : (vstAck c l p).smb = c.smb := by
  grind [vstAck, smb_rxGate, smb_ackRx, smb_countRx, smb_usesClosed]

@[simp] theorem smb_vstNak (c : Chip) (l : Link) (p : Pkt) : (vstNak c l p).smb = c.smb := by
  grind [vstNak, smb_rxGate, smb_nakRx, smb_countRx, smb_usesClosed]

@[simp] theorem smb_vstClose (c : Chip) (l : Link) (p : Pkt) : (vstClose c l p).smb = c.smb := by
  simp [vstClose]

@[simp] theorem smb_connCloseOp (c : Chip) (n : Nat) : (connCloseOp c n).smb = c.smb := by
  simp [connCloseOp]

/-! ### Functions of Sec -/

@[simp] theorem smb_chipDebugShut (c : Chip) : (chipDebugShut c).smb = c.smb := by
  unfold chipDebugShut
  split <;> simp

@[simp] theorem smb_closeDebugOf (c : Chip) (p : Nat) : (closeDebugOf c p).smb = c.smb := by
  grind [closeDebugOf, smb_chipDebugShut]

@[simp] theorem smb_closeTraceOf (c : Chip) (p : Nat) : (closeTraceOf c p).smb = c.smb := by
  unfold closeTraceOf
  split <;> simp

@[simp] theorem smb_setConsent (c : Chip) (p : Nat) (debug profile : Bool) :
    (setConsent c p debug profile).smb = c.smb := by
  grind [setConsent, setSecPart_smb, smb_closeDebugOf, smb_closeTraceOf, smb_raise]

@[simp] theorem smb_leaveValid (c : Chip) (p : Nat) (st : PartState) (purged : Bool) :
    (leaveValid c p st purged).smb = c.smb := by
  simp [leaveValid]

@[simp] theorem smb_setPartStatus (c : Chip) (p st : Nat) : (setPartStatus c p st).smb = c.smb := by
  simp [setPartStatus]

@[simp] theorem smb_partValidate (c : Chip) (p : Nat) : (partValidate c p).2.smb = c.smb := by
  grind [partValidate, smb_setPartStatus, smb_raise, smb_chipDebugShut, setSecPart_smb]

@[simp] theorem smb_partInvalidate (c : Chip) (p : Nat) : (partInvalidate c p).2.smb = c.smb := by
  unfold partInvalidate
  (repeat' split) <;> simp

@[simp] theorem smb_purgeOps (c : Chip) (i : Nat) : (purgeOps c i).smb = c.smb := by
  unfold purgeOps
  (repeat' split) <;> simp [smb_foldl]

@[simp] theorem smb_purgeSession (c : Chip) (i : Nat) : (purgeSession c i).smb = c.smb := by
  grind [purgeSession, setBody_smb, smb_discardDst, setCut_smb, smb_openFig, smb_abandonRevival]

@[simp] theorem smb_purgeRegion (c : Chip) (i : Nat) : (purgeRegion c i).smb = c.smb := by
  grind [purgeRegion, smb_heapRelease, setRegion_smb, smb_answerRegion, smb_revokeRegion]

@[simp] theorem smb_purgeIndexes (c : Chip) (p : Nat) : (purgeIndexes c p).smb = c.smb := by
  unfold purgeIndexes
  simp [apply_ite Chip.smb, smb_foldl]

@[simp] theorem smb_purgePass (c0 : Chip) (p : Nat) : (purgePass c0 p).smb = c0.smb := by
  unfold purgePass
  simp [apply_ite Chip.smb, smb_foldl]

@[simp] theorem smb_partPurge (c : Chip) (p : Nat) : (partPurge c p).2.smb = c.smb := by
  unfold partPurge
  (repeat' split) <;> simp

@[simp] theorem smb_consentWrite (c : Chip) (q p : Nat) (w : Word) : (consentWrite c q p w).2.smb = c.smb := by
  unfold consentWrite
  split <;> simp

@[simp] theorem smb_extendWrite (c : Chip) (q p k : Nat) (w : Word) : (extendWrite c q p k w).2.smb = c.smb := by
  unfold extendWrite
  (repeat' split) <;> simp

@[simp] theorem smb_rollbackWrite (c : Chip) (w : Word) : (rollbackWrite c w).2.smb = c.smb := by
  unfold rollbackWrite
  split <;> simp

@[simp] theorem smb_revokeWrite (c : Chip) (w : Word) : (revokeWrite c w).2.smb = c.smb := by
  grind [revokeWrite, smb_setFld]

@[simp] theorem smb_chipDebugReq (c : Chip) : (chipDebugReq c).2.smb = c.smb := by
  unfold chipDebugReq
  split <;> simp

@[simp] theorem smb_chipDebugWrite (c : Chip) (w : Word) : (chipDebugWrite c w).2.smb = c.smb := by
  grind [chipDebugWrite, smb_chipDebugReq, smb_chipDebugShut]

@[simp] theorem smb_dbgWrite (c : Chip) (w : Word) : (dbgWrite c w).2.smb = c.smb := by
  grind [dbgWrite, smb_setFld, smb_raise]

@[simp] theorem smb_dbgRead (c : Chip) : (dbgRead c).2.2.smb = c.smb := by
  unfold dbgRead
  (repeat' split) <;> simp

@[simp] theorem smb_traceWrite (c : Chip) (w : Word) : (traceWrite c w).2.smb = c.smb := by
  grind [traceWrite, setReg_smb, smb_traceStop]

/-! ### Functions of Drain -/

@[simp] theorem smb_dropStep (c : Chip) (p : Nat) (status : Option Nat) : (dropStep c p status).smb = c.smb := by
  unfold dropStep
  (repeat' split) <;> simp [smb_foldl]

@[simp] theorem smb_stopCore (chipFault : Bool) (c0 : Chip) (n : Nat) : (stopCore chipFault c0 n).smb = c0.smb := by
  grind [stopCore, setCore_smb, smb_becomeLame, smb_runTests]

@[simp] theorem smb_endAllOps (c : Chip) (st i : Nat) : (endAllOps c st i).smb = c.smb := by
  unfold endAllOps
  (repeat' split) <;> simp [smb_foldl]

@[simp] theorem smb_voidAfter (status : Nat) (c : Chip) (a : After) : (voidAfter status c a).smb = c.smb := by
  unfold voidAfter
  (repeat' split) <;> simp

@[simp] theorem smb_voidAct (create : Bool) (c : Chip) (a : Action) : (voidAct create c a).smb = c.smb := by
  unfold voidAct
  (repeat' split) <;> simp [smb_foldl]

@[simp] theorem smb_voidFigure (c : Chip) (f : Figure) (status : Nat) : (voidFigure c f status).smb = c.smb := by
  unfold voidFigure
  refine (smb_foldl _ (fun c d => by simp) _ _).trans ((smb_foldl _ (fun c d => ?_) _ _).trans
    (smb_foldl _ (fun c d => by simp) _ _))
  split
  · dsimp only
    (repeat' split) <;> simp
  · rfl

@[simp] theorem smb_abortStepFigures (c : Chip) (p status : Nat) : (abortStepFigures c p status).smb = c.smb := by
  unfold abortStepFigures
  (repeat' split) <;> simp [smb_foldl]

@[simp] theorem smb_abortWaitingWhere (c : Chip) (mine : Figure → Bool) :
    (abortWaitingWhere c mine).smb = c.smb := by
  fun_cases abortWaitingWhere c mine
  next stays gone c0 c1 =>
  have h1 : c1.smb = c.smb := smb_bump ..
  refine (smb_foldl _ (fun c f => ?_) _ _).trans h1
  refine (smb_foldl _ (fun c s => ?_) _ _).trans ?_
  · split <;> simp
  · split <;> simp

@[simp] theorem smb_figDrainTimeout (c : Chip) : (figDrainTimeout c).smb = c.smb := by
  unfold figDrainTimeout
  simp [smb_foldl]

@[simp] theorem smb_drainStarts (c : Chip) (p : Page) : (drainStarts c p).smb = c.smb := by
  simp [drainStarts, apply_ite Chip.smb, smb_foldl]

@[simp] theorem smb_sessOn (c : Chip) : (sessOn c).smb = c.smb := by
  grind [sessOn, smb_setState]

@[simp] theorem smb_schedOn (c : Chip) : (schedOn c).smb = c.smb := by
  simp [schedOn, apply_ite Chip.smb, smb_foldl]

@[simp] theorem smb_turnOn (c : Chip) (p : Page) : (turnOn c p).2.smb = c.smb := by
  unfold turnOn
  (repeat' split) <;> simp [apply_ite Chip.smb]

@[simp] theorem smb_enterTesting (c : Chip) (p : Page) : (enterTesting c p).smb = c.smb := by
  unfold enterTesting
  (repeat' split) <;> simp

@[simp] theorem smb_resetWords (c : Chip) (p : Page) : (resetWords c p).smb = c.smb := by
  unfold resetWords
  split <;> simp

@[simp] theorem smb_resetUnit (c : Chip) (p : Page) : (resetUnit c p).smb = c.smb := by
  unfold resetUnit
  (repeat' split) <;> simp [apply_ite Chip.smb, smb_foldl]

@[simp] theorem smb_disarmPage (c : Chip) (p : Page) : (disarmPage c p).smb = c.smb := by
  simp [disarmPage]

@[simp] theorem smb_softReset (c : Chip) (p : Page) : (softReset c p).smb = c.smb := by
  unfold softReset
  simp

@[simp] theorem smb_ctrlWrite (c0 : Chip) (p : Page) (m : WMode) (w : Word) : (ctrlWrite c0 p m w).2.smb = c0.smb := by
  grind [ctrlWrite, setHdr_smb, smb_drainStarts, smb_setState, smb_softReset, smb_enterTesting, smb_turnOn, smb_kick,
    smb_settle, smb_releaseWaiting]

/-! ### Functions of Rx -/

@[simp] theorem smb_pktRx (c : Chip) (l : Link) (bytes : List Byte) : (pktRx c l bytes).smb = c.smb := by
  grind [pktRx, smb_bump, smb_rxData, smb_assembleAll, smb_writeAccess, smb_settle, smb_readAccess, smb_respAccess,
    smb_msgAccess, smb_vstAck, smb_vstNak, smb_connectRx, smb_connectAckRx, smb_vstClose]

@[simp] theorem smb_deliverHeld (c : Chip) : (deliverHeld c).smb = c.smb := by
  refine (smb_foldl _ (fun c l => ?_) _ _).trans (smb_foldl _ (fun c l => smb_pktRx ..) _ _)
  split
  · exact smb_pktRx ..
  · rfl

@[simp] theorem smb_resetChip_minuet (c : Chip) (cause : Nat) : (resetChip c true cause).smb = c.smb := by
  unfold resetChip
  simp only [if_true, smb_setFld]

/-! ### Functions of Boot -/

@[simp] theorem smb_wakeFast (c : Chip) (cause us : Nat) : (wakeFast c cause us).smb = c.smb := by
  grind [wakeFast, setReg_smb, smb_bump, smb_deliverHeld, smb_raise]

/-! ### Functions of Check -/

@[simp] theorem smb_modelCheckStart (c : Chip) (slot : Nat) : (modelCheckStart c slot).smb = c.smb := by
  simp [modelCheckStart]

@[simp] theorem smb_modelInvalid (c : Chip) (slot : Nat) : (modelInvalid c slot).smb = c.smb := by
  unfold modelInvalid
  split <;> simp

@[simp] theorem smb_vocabCheckStart (c : Chip) (slot : Nat) : (vocabCheckStart c slot).smb = c.smb := by
  simp [vocabCheckStart]

@[simp] theorem smb_vocabInvalid (c : Chip) (slot : Nat) : (vocabInvalid c slot).smb = c.smb := by
  simp [vocabInvalid]

@[simp] theorem smb_gramCheckStart (c : Chip) (g : Nat) : (gramCheckStart c g).smb = c.smb := by
  simp [gramCheckStart]

@[simp] theorem smb_gramInvalid (c : Chip) (g : Nat) : (gramInvalid c g).smb = c.smb := by
  simp [gramInvalid]

@[simp] theorem smb_ixCheckStart (c : Chip) (x : Nat) : (ixCheckStart c x).smb = c.smb := by
  simp [ixCheckStart]

/-! ### Functions of ChipFault -/

@[simp] theorem smb_voidOpen (c : Chip) : (voidOpen c).smb = c.smb := by
  simp [voidOpen, apply_ite Chip.smb, smb_foldl]

@[simp] theorem smb_damageNamed (c : Chip) (i : Nat) : (damageNamed c i).smb = c.smb := by
  grind [damageNamed, smb_openFig]

@[simp] theorem smb_hurtSubject (k : Committed) (c : Chip) (s : Subject) : (hurtSubject k c s).smb = c.smb := by
  cases s with
  | session i => rfl
  | region i =>
    rw [hurtSubject]
    (repeat' split) <;> simp
  | config => rfl
  | checkpoint =>
    refine smb_foldl _ (fun c a => ?_) _ _
    split <;> simp

@[simp] theorem smb_skipOne (c : Chip) (k : Committed) (r : List Committed) : (skipOne c k r).smb = c.smb := by
  simp [skipOne]

@[simp] theorem smb_replayN (n : Nat) (l u : List Nat) (x : Chip × Nat × List Committed) :
    (replayN n l u x).1.smb = x.1.smb := by
  induction n generalizing x with
  | zero => rfl
  | succ n ih =>
    obtain ⟨c, done, hurt⟩ := x
    rw [replayN]
    split
    · rfl
    next k r _ =>
      split
      · exact (ih _).trans ((smb_foldl _ (fun c a => smb_voidAct ..) _ _).trans (smb_skipOne ..))
      split
      · exact (ih _).trans (smb_skipOne ..)
      · exact (ih _).trans (smb_applyOne ..)

@[simp] theorem smb_replayRecord (c : Chip) (done : Nat) (damage : Bool) (time : Nat) :
    (replayRecord c done damage time).smb = c.smb := by
  simp [replayRecord]

@[simp] theorem smb_endOther (c : Chip) : (endOther c).smb = c.smb := by
  simp [endOther, smb_foldl]

@[simp] theorem smb_endLost (c : Chip) : (endLost c).smb = c.smb := by
  unfold endLost
  simp [smb_foldl]

@[simp] theorem smb_recoverChip (c : Chip) (lost unreadable : List Nat) (time : Nat) :
    (recoverChip c lost unreadable time).smb = c.smb := by
  unfold recoverChip
  simp [smb_foldl]

/-! ### Functions of Maint -/

@[simp] theorem smb_selftestWrite (c : Chip) (w : Word) : (selftestWrite c w).2.smb = c.smb := by
  have hs := smb_settle c
  fun_cases selftestWrite c w
  · rfl
  · exact (smb_setFld ..).trans hs
  next c _ _ c1 ps c2 =>
    have h1 : c1.smb = c.smb := by
      unfold c1
      split
      · exact smb_recoverChip ..
      · rfl
    have h2 : c2.smb = c1.smb := smb_foldl _ (fun c p => by rw [smb_enterTesting, setHdr_smb]) _ _
    exact (smb_setFld ..).trans (h2.trans (h1.trans hs))

@[simp] theorem smb_bootRecord (c : Chip) (w : Word) : (bootRecord c w).smb = c.smb := by
  simp [bootRecord]

@[simp] theorem smb_setUpdate (c : Chip) (check st : Nat) (busy : Bool) : (setUpdate c check st busy).smb = c.smb := by
  simp [setUpdate]

@[simp] theorem smb_updateWrite (c0 : Chip) (w : Word) : (updateWrite c0 w).2.smb = c0.smb := by
  grind [updateWrite, smb_settle, smb_setUpdate]

@[simp] theorem smb_norDataWrite (c : Chip) (sideband : Bool) (w : Word) :
    (norDataWrite c sideband w).2.smb = c.smb := by
  grind [norDataWrite, setReg_smb, smb_norPut]

/-! ### Functions of WinRead -/

@[simp] theorem smb_voteRecord (c : Chip) (a : Nat) (noMaj : Bool) : (voteRecord c a noMaj).smb = c.smb := by
  simp [voteRecord]

@[simp] theorem smb_voteKey (c : Chip) (key : Nat) : (voteKey c key).smb = c.smb := by
  grind [voteKey, smb_fault, smb_voteRecord, setKey_smb]

@[simp] theorem smb_voteCtrl (c : Chip) (p : Page) : (voteCtrl c p).smb = c.smb := by
  grind [voteCtrl, smb_fault, smb_voteRecord, setHdr_smb]

@[simp] theorem smb_wordRead (c : Chip) (q : Nat) (row : RegRow) (a : Nat) : (wordRead c q row a).2.2.smb = c.smb := by
  grind [wordRead, smb_takeTick, smb_dbgRead, smb_rtAdvance, smb_voteKey]

@[simp] theorem smb_shadowRead (c : Chip) (r : Requester) (q : Nat) (row : RegRow) (a : Nat) :
    (shadowRead c r q row a).2.2.smb = c.smb := by
  grind [shadowRead, smb_takeTick, setReqState_smb, smb_wordRead]

/-! ### Functions of WinWrite -/

@[simp] theorem smb_storeReg (c : Chip) (x : RegWr) : (storeReg c x).smb = c.smb := by
  grind [storeReg, setKey_smb]

@[simp] theorem smb_stored (c : Chip) (x : RegWr) : (stored c x).2.smb = c.smb := by
  simp [stored]

@[simp] theorem smb_regionWrite (c : Chip) (x : RegWr) (free : Bool) (k : Nat) :
    (regionWrite c x free k).2.smb = c.smb := by
  grind [regionWrite, smb_storeReg]

@[simp] theorem smb_wakeByWrite (c : Chip) (x : RegWr) : (wakeByWrite c x).smb = c.smb := by
  grind [wakeByWrite, smb_wakeFast, smb_takeFree]

@[simp] theorem smb_ovlApply (c : Chip) (n : Nat) : (ovlApply c n).2.smb = c.smb := by
  unfold ovlApply
  (repeat' split) <;> simp

@[simp] theorem smb_writeChip (c : Chip) (x : RegWr) : (writeChip c x).2.smb = c.smb := by
  grind [writeChip, smb_storeReg, smb_bootRecord, smb_ovlApply, smb_wakeByWrite, smb_stored, smb_selftestWrite,
    smb_updateWrite, smb_norDataWrite]

@[simp] theorem smb_writeClk (c : Chip) (x : RegWr) : (writeClk c x).2.smb = c.smb := by
  unfold writeClk
  (repeat' split) <;> simp

@[simp] theorem smb_writePwr (c : Chip) (x : RegWr) : (writePwr c x).2.smb = c.smb := by
  grind [writePwr, smb_storeReg, smb_tripClearOp]

@[simp] theorem smb_partCtrlWrite (c : Chip) (x : RegWr) : (partCtrlWrite c x).2.smb = c.smb := by
  unfold partCtrlWrite
  (repeat' split) <;> simp

@[simp] theorem smb_writeSec (c : Chip) (x : RegWr) : (writeSec c x).2.smb = c.smb := by
  grind [writeSec, smb_stored, smb_partCtrlWrite, smb_storeReg, smb_renewList, smb_consentWrite, smb_extendWrite,
    smb_rollbackWrite, smb_revokeWrite, smb_chipDebugWrite, smb_dbgWrite]

@[simp] theorem smb_clearLast (c : Chip) : (clearLast c).smb = c.smb := by
  simp [clearLast]

@[simp] theorem smb_bbMarkWrite (c : Chip) (x : RegWr) : (bbMarkWrite c x).2.smb = c.smb := by
  grind [bbMarkWrite, smb_takeFree, smb_bbPlain]

@[simp] theorem smb_writeFlt (c : Chip) (x : RegWr) : (writeFlt c x).2.smb = c.smb := by
  unfold writeFlt
  (repeat' split) <;> simp

@[simp] theorem smb_dirBaseWrite (c : Chip) (x : RegWr) : (dirBaseWrite c x).2.smb = c.smb := by
  fun_cases dirBaseWrite c x <;> grind [smb_storeReg]

@[simp] theorem smb_viewHandleWrite (c : Chip) (x : RegWr) : (viewHandleWrite c x).2.smb = c.smb := by
  have hw (l : List Nat) (b : List Byte) (c : Chip) :
      (l.foldl (fun c k => setReg c (aSESS_VIEW_ENTRY + 4 * k) (wordAt b k)) c).smb = c.smb :=
    smb_foldl _ (fun c k => setReg_smb ..) _ _
  have h1 : (settle (storeReg c x)).smb = c.smb := (smb_settle ..).trans (smb_storeReg ..)
  fun_cases viewHandleWrite c x
  · exact (hw _ _ _).trans ((setReg_smb ..).trans h1)
  · exact (hw _ _ _).trans ((setReg_smb ..).trans ((smb_touch ..).trans h1))

@[simp] theorem smb_writeSess (c : Chip) (x : RegWr) : (writeSess c x).2.smb = c.smb := by
  unfold writeSess
  (repeat' split) <;> simp

@[simp] theorem smb_writeFig (c : Chip) (x : RegWr) : (writeFig c x).2.smb = c.smb := by
  unfold writeFig
  (repeat' split) <;> simp

@[simp] theorem smb_writeTier (c : Chip) (x : RegWr) : (writeTier c x).2.smb = c.smb := by
  grind [writeTier, smb_regionWrite, smb_sweepStart, smb_stored]

@[simp] theorem smb_remapped (c : Chip) : (remapped c).smb = c.smb := by
  unfold remapped
  simp

@[simp] theorem smb_writeGdr (c : Chip) (x : RegWr) : (writeGdr c x).2.smb = c.smb := by
  grind [writeGdr, smb_stored, smb_remapped]

@[simp] theorem smb_writeGrid (c : Chip) (x : RegWr) : (writeGrid c x).2.smb = c.smb := by
  grind [writeGrid, smb_coreCtrl, setReg_smb, smb_stored]

@[simp] theorem smb_writeSched (c : Chip) (x : RegWr) : (writeSched c x).2.smb = c.smb := by
  grind [writeSched, smb_regionWrite, smb_storeReg, setSched_smb, smb_stored]

@[simp] theorem smb_writeAttn (c : Chip) (x : RegWr) : (writeAttn c x).2.smb = c.smb := by
  grind [writeAttn, smb_stored, smb_setFldB, smb_modelCheckStart, smb_modelInvalid]

@[simp] theorem smb_writeSamp (c : Chip) (x : RegWr) : (writeSamp c x).2.smb = c.smb := by
  unfold writeSamp
  (repeat' split) <;> simp

@[simp] theorem smb_vocabCtrlWrite (c : Chip) (x : RegWr) : (vocabCtrlWrite c x).2.smb = c.smb := by
  unfold vocabCtrlWrite
  (repeat' split) <;> simp

@[simp] theorem smb_gramCtrlWrite (c : Chip) (x : RegWr) : (gramCtrlWrite c x).2.smb = c.smb := by
  unfold gramCtrlWrite
  (repeat' split) <;> simp

@[simp] theorem smb_writeText (c : Chip) (x : RegWr) : (writeText c x).2.smb = c.smb := by
  unfold writeText
  (repeat' split) <;> simp

@[simp] theorem smb_resolveWrite (c : Chip) (x : RegWr) : (resolveWrite c x).2.smb = c.smb := by
  grind [resolveWrite, smb_storeReg, smb_cutResolve, smb_setFld]

@[simp] theorem smb_writeCut (c : Chip) (x : RegWr) : (writeCut c x).2.smb = c.smb := by
  unfold writeCut
  (repeat' split) <;> simp

@[simp] theorem smb_connCtrlWrite (c : Chip) (x : RegWr) : (connCtrlWrite c x).2.smb = c.smb := by
  grind [connCtrlWrite, smb_storeReg, smb_connOpen, smb_connCloseOp, smb_connRelease, smb_connMgmt, smb_connUnmgmt,
    smb_raise]

@[simp] theorem smb_writeXpt (c : Chip) (x : RegWr) : (writeXpt c x).2.smb = c.smb := by
  unfold writeXpt
  (repeat' split) <;> simp

@[simp] theorem smb_portCfgWrite (c : Chip) (x : RegWr) : (portCfgWrite c x).2.smb = c.smb := by
  grind [portCfgWrite, smb_storeReg, smb_portOff, smb_portTrain]

@[simp] theorem smb_writePeer (c : Chip) (x : RegWr) : (writePeer c x).2.smb = c.smb := by
  unfold writePeer
  (repeat' split) <;> simp

@[simp] theorem smb_writeHost (c : Chip) (x : RegWr) : (writeHost c x).2.smb = c.smb := by
  unfold writeHost
  (repeat' split) <;> simp

@[simp] theorem smb_writeEgr (c : Chip) (x : RegWr) : (writeEgr c x).2.smb = c.smb := by
  grind [writeEgr, smb_stored]

@[simp] theorem smb_idxCtrlWrite (c : Chip) (x : RegWr) : (idxCtrlWrite c x).2.smb = c.smb := by
  grind [idxCtrlWrite, setKey_smb, smb_ixCheckStart, smb_setFldB]

@[simp] theorem smb_writeSrch (c : Chip) (x : RegWr) : (writeSrch c x).2.smb = c.smb := by
  grind [writeSrch, smb_idxCtrlWrite, smb_stored]

@[simp] theorem smb_restoreWrite (c : Chip) (x : RegWr) : (restoreWrite c x).2.smb = c.smb := by
  grind [restoreWrite, smb_storeReg, smb_restoreStart]

@[simp] theorem smb_writeCkpt (c : Chip) (x : RegWr) : (writeCkpt c x).2.smb = c.smb := by
  grind [writeCkpt, smb_ckptNow, smb_forgetGens, smb_storeReg, smb_regionWrite, smb_restoreWrite, smb_cutResolveHeld,
    smb_stored]

@[simp] theorem smb_writeCrc (c : Chip) (x : RegWr) : (writeCrc c x).2.smb = c.smb := by
  unfold writeCrc
  (repeat' split) <;> simp

@[simp] theorem smb_writeTel (c : Chip) (x : RegWr) : (writeTel c x).2.smb = c.smb := by
  unfold writeTel
  (repeat' split) <;> simp

@[simp] theorem smb_pageWrite (c : Chip) (x : RegWr) : (pageWrite c x).2.smb = c.smb := by
  unfold pageWrite
  (repeat' split) <;> simp

/-! ### Functions of Window -/

@[simp] theorem smb_gate (c : Chip) (r : Requester) (write : Bool) (a : Nat) : (gate c r write a).2.smb = c.smb := by
  grind [gate, smb_takeFree, smb_wakeFast]

@[simp] theorem smb_readAt (c : Chip) (r : Requester) (a : Nat) : (readAt c r a).2.2.smb = c.smb := by
  grind [readAt, smb_voteCtrl, smb_shadowRead]

@[simp] theorem smb_mgmtRead (c : Chip) (r : Requester) (a : Nat) : (mgmtRead c r a).smb = c.smb := by
  grind [mgmtRead, smb_gate, smb_answer, smb_readAt]

@[simp] theorem smb_dropHold (c : Chip) (r : Requester) : (dropHold c r).smb = c.smb := by
  simp [dropHold]

@[simp] theorem smb_intEnWrite (c : Chip) (p : Page) (m : WMode) (w : Word) : (intEnWrite c p m w).smb = c.smb := by
  grind [intEnWrite, setHdr_smb, smb_settleEvents, smb_sendEvent]

@[simp] theorem smb_voteErrWrite (c : Chip) (p : Page) (w : Word) : (voteErrWrite c p w).smb = c.smb := by
  unfold voteErrWrite
  split <;> simp

@[simp] theorem smb_hdrWrite (c : Chip) (p : Page) (open_ : Bool) (m : WMode) (off : Nat) (w : Word) :
    (hdrWrite c p open_ m off w).2.smb = c.smb := by
  unfold hdrWrite
  (repeat' split) <;> simp

@[simp] theorem smb_loWrite (c : Chip) (r : Requester) (row : RegRow) (bank a : Nat) (w : Word) :
    (loWrite c r row bank a w).2.smb = c.smb := by
  grind [loWrite, setReqState_smb]

@[simp] theorem smb_rowWrite (c : Chip) (r : Requester) (args : WrArgs) (row : RegRow) (m : WMode) (p : Page)
    (a : Nat) (w : Word) : (rowWrite c r args row m p a w).2.smb = c.smb := by
  grind [rowWrite, smb_loWrite, setArmed_smb, smb_raise, smb_pageWrite, smb_dropHold]

@[simp] theorem smb_writeAt (c : Chip) (r : Requester) (args : WrArgs) (a : Nat) (w : Word) :
    (writeAt c r args a w).2.smb = c.smb := by
  grind [writeAt, setArmed_smb, smb_hdrWrite, smb_rowWrite]

end Sys2Proof.Machine
end

section
/-! The sideband commands (O6): a management access of the sideband changes nothing of the sideband's own state but the
status that LAST_STATUS answers. -/

namespace Sys2Proof.Machine

open Sys2Proof.Safety

/-- A write of a requester that is up: its gate, what it writes, and its answer. -/
theorem mgmtWrite_up {c : Chip} {r : Requester} (a : Nat) (w : Word) (h : requesterUp c r = true) :
    ∃ y : Nat × Chip, y.2.smb = c.smb ∧ mgmtWrite c r a w = keepStatus (answer y.2 y.1 0) r y.1 := by
  refine ⟨if (gate c r true a).1 ≠ stOK then gate c r true a else writeAt (gate c r true a).2 r noArgs a w, ?_, ?_⟩
  · split
    · exact smb_gate ..
    · exact (smb_writeAt ..).trans (smb_gate ..)
  · rw [mgmtWrite, mgmtWriteWith, if_neg (by rw [h]; decide)]

/-- A write of the sideband keeps its status, and nothing else of the sideband's state changes. -/
theorem smb_mgmtWrite_sideband {c : Chip} (a : Nat) (w : Word) (h : sidebandUp c = true) :
    (mgmtWrite c .sideband a w).smb =
      { c.smb with lastStatus := (mgmtWrite c .sideband a w).mgmt.acc.status } := by
  obtain ⟨y, hy, hw⟩ := mgmtWrite_up a w (r := .sideband) h
  rw [hw, ← hy]
  rfl

/-- The pins do not depend on the sideband's own state. -/
theorem drivePins_withSmb (c : Chip) (m : Smb) : drivePins { c with smb := m } = { drivePins c with smb := m } := rfl

/-- A sideband command acts while the sideband answers (R13). -/
theorem exec_sideband {i : Instr} {s : State} {g : Chip → Chip} (h : sidebandUp s.toChip = true)
    (hi : exec i s = act s (fun c => if sidebandUp c = false then c else g c)) :
    exec i s = .next (after s (g s.toChip)) := by
  rw [hi, act, if_neg (by rw [h]; decide), after]

theorem exec_smbLastStatus {s : State} (h : sidebandUp s.toChip = true) : exec .smbLastStatus s =
    .next (after s { s.toChip with smb := { s.smb with reply := [s.smb.lastStatus] } }) := by
  have hexec : exec .smbLastStatus s =
    act s (fun c => if sidebandUp c then { c with smb := { c.smb with reply := [c.smb.lastStatus] } } else c) := rfl
  rw [hexec, act, if_pos h, after]

/-- A READ of the sideband is an LO_READ of it at the latched address, which advances. -/
theorem smbRead_completes {s : State} (h : sidebandUp s.toChip = true) :
    Completes (.smbRead true) s (fun t => t.smb.addr = s.smb.addr + 4 ∧
      t.smb.reply = t.mgmt.acc.status :: leBytes 4 t.mgmt.acc.data.toNat ∧
      exec (.loRead .sideband s.smb.addr) s =
        .next { t with smb := { t.smb with addr := s.smb.addr, reply := s.smb.reply } }) := by
  refine ⟨after s (smbReadOp s.toChip), exec_sideband (g := smbReadOp) h rfl, rfl, rfl, rfl, ?_⟩
  have hread : exec (.loRead .sideband s.smb.addr) s =
      .next (after s (mgmtRead s.toChip .sideband s.smb.addr.toNat)) := rfl
  have hkept := smb_mgmtRead s.toChip .sideband s.smb.addr.toNat
  rw [hread, after, after, smbReadOp, drivePins_withSmb]
  generalize mgmtRead s.toChip .sideband s.smb.addr.toNat = c at hkept
  rw [← hkept]
  rfl

/-- A WRITE of the sideband is a REGISTER_WRITE of it. -/
theorem smbWrite_completes {s : State} (addr data : Word) (h : sidebandUp s.toChip = true) :
    Completes (.smbWrite addr data true) s (fun t =>
      exec (.registerWrite .sideband addr data) { s with smb := { s.smb with pecNack := false } } = .next t ∧
      t.smb.lastStatus = t.mgmt.acc.status ∧ t.smb.pecNack = false) := by
  have hkept := smb_mgmtWrite_sideband (c := pecAnswer s.toChip true) addr.toNat data h
  refine ⟨after s (mgmtWrite (pecAnswer s.toChip true) .sideband addr.toNat data),
    exec_sideband (g := fun c => mgmtWrite (pecAnswer c true) .sideband addr.toNat data) h rfl, rfl, rfl, ?_, ?_⟩
  · exact congrArg Smb.lastStatus hkept
  · exact congrArg Smb.pecNack hkept

/-- So is one whose PEC byte had been ACKed when the clock was held low. -/
theorem smbClockLowTimeout_completes {s : State} (addr data : Word) (h : sidebandUp s.toChip = true) :
    Completes (.smbClockLowTimeout (some (addr, data))) s (fun t => t.smb.reply = [] ∧
      exec (.registerWrite .sideband addr data) s = .next { t with smb := { t.smb with reply := s.smb.reply } }) := by
  have hkept := congrArg Smb.reply (smb_mgmtWrite_sideband (c := s.toChip) addr.toNat data h)
  have hwrite : exec (.registerWrite .sideband addr data) s =
    .next (after s (mgmtWrite s.toChip .sideband addr.toNat data)) := rfl
  refine ⟨_, exec_sideband (g := fun c => { mgmtWrite c .sideband addr.toNat data with
    smb := { (mgmtWrite c .sideband addr.toNat data).smb with reply := [] } }) h rfl, rfl, rfl, ?_⟩
  rw [hwrite, after, after, drivePins_withSmb]
  generalize mgmtWrite s.toChip .sideband addr.toNat data = c at hkept
  rw [← show c.smb.reply = s.smb.reply from hkept]
  rfl

/-- Settles O6, command by command. -/
theorem sidebandCommands : Obligations.SidebandCommands := by
  intro s addr data h
  exact ⟨exec_sideband (g := fun c => { c with smb := { c.smb with addr := addr, pecNack := false } }) h rfl,
    exec_sideband (g := fun c => pecAnswer c false) h rfl, exec_smbLastStatus h, smbRead_completes h,
    exec_sideband (g := fun c => { c with smb := { c.smb with reply := [] } }) h rfl, smbWrite_completes addr data h,
    exec_sideband (g := fun c => pecAnswer c false) h rfl,
    exec_sideband (g := fun c => { c with smb := { c.smb with reply := [] } }) h rfl,
    smbClockLowTimeout_completes addr data h⟩

end Sys2Proof.Machine
end

section
/-! What SCHED keeps of its partitions (for O31): one lemma for each function that the end of a layer, a step or a
session's operation runs through, in the order of the model. None of them changes the state of a partition, and so none
changes its running step. -/

open Sys2Proof.Safety

namespace Sys2Proof.Machine

/-- A fold over chips whose every step leaves every partition of SCHED leaves them. -/
theorem schedParts_foldl {α : Type} (g : Chip → α → Chip) (h : ∀ c a, (g c a).sched.parts = c.sched.parts) (l : List α)
    (c : Chip) :
    (l.foldl g c).sched.parts = c.sched.parts := foldl_same (·.sched.parts) g h l c

/-- The same for a chip with a value beside it. -/
theorem schedParts_foldl_fst {α β : Type} (g : Chip × β → α → Chip × β) (h : ∀ x a,
    (g x a).1.sched.parts = x.1.sched.parts) (l : List α)
    (x : Chip × β) : (l.foldl g x).1.sched.parts = x.1.sched.parts := foldl_same (·.1.sched.parts) g h l x

/-- The same for a value with a chip beside it. -/
theorem schedParts_foldl_snd {α β : Type} (g : β × Chip → α → β × Chip) (h : ∀ x a,
    (g x a).2.sched.parts = x.2.sched.parts) (l : List α)
    (x : β × Chip) : (l.foldl g x).2.sched.parts = x.2.sched.parts := foldl_same (·.2.sched.parts) g h l x

/-! ### Functions of Ops -/

@[simp] theorem schedParts_takeFree (c : Chip) : (takeFree c).2.sched.parts = c.sched.parts := by
  simp [takeFree]

@[simp] theorem schedParts_takeTick (c : Chip) : (takeTick c).2.sched.parts = c.sched.parts := by
  simp [takeTick]

@[simp] theorem schedParts_takeFine (c : Chip) : (takeFine c).2.sched.parts = c.sched.parts := by
  simp [takeFine]

/-! ### Functions of Operands -/

@[simp] theorem schedParts_setFld (c : Chip) (a hi lo v : Nat) : (setFld c a hi lo v).sched.parts = c.sched.parts := by
  simp [setFld]

@[simp] theorem schedParts_setPairB (c : Chip) (bank lo v : Nat) :
    (setPairB c bank lo v).sched.parts = c.sched.parts := by
  simp [setPairB]

@[simp] theorem schedParts_setPair (c : Chip) (lo v : Nat) : (setPair c lo v).sched.parts = c.sched.parts := by
  simp [setPair]

@[simp] theorem schedParts_bumpB (c : Chip) (bank a n : Nat) : (bumpB c bank a n).sched.parts = c.sched.parts := by
  unfold bumpB
  split <;> simp

@[simp] theorem schedParts_bump (c : Chip) (a n : Nat) : (bump c a n).sched.parts = c.sched.parts := by
  simp [bump]

@[simp] theorem schedParts_bumpPair (c : Chip) (lo n : Nat) : (bumpPair c lo n).sched.parts = c.sched.parts := by
  unfold bumpPair
  split <;> simp

@[simp] theorem schedParts_bumpPairB (c : Chip) (bank lo n : Nat) :
    (bumpPairB c bank lo n).sched.parts = c.sched.parts := by
  unfold bumpPairB
  split <;> simp

/-! ### Functions of Send -/

@[simp] theorem schedParts_enqueuePkt (c : Chip) (n : Nat) (p : Pkt) :
    (enqueuePkt c n p).1.sched.parts = c.sched.parts := by
  simp [enqueuePkt]

@[simp] theorem schedParts_waitSpace (c : Chip) (n : Nat) (w : List (Pkt × InitUse)) :
    (waitSpace c n w).1.sched.parts = c.sched.parts := by
  simp [waitSpace]

@[simp] theorem schedParts_sendNow (c : Chip) (n : Nat) (p : Pkt) (u : InitUse) :
    (sendNow c n p u).1.sched.parts = c.sched.parts := by
  simp [sendNow]

@[simp] theorem schedParts_sendPkt (c : Chip) (n : Nat) (p : Pkt) (u : InitUse) :
    (sendPkt c n p u).1.sched.parts = c.sched.parts := by
  grind [sendPkt, setConn_sched, schedParts_sendNow, schedParts_waitSpace]

@[simp] theorem schedParts_sendAll (c : Chip) (n : Nat) (ps : List Pkt) (u : InitUse) :
    (sendAll c n ps u).1.sched.parts = c.sched.parts := by
  simp [sendAll, schedParts_foldl_fst]

@[simp] theorem schedParts_pushMsg (c : Chip) (n cls : Nat) (bytes : List Byte) :
    (pushMsg c n cls bytes).1.sched.parts = c.sched.parts := by
  grind [pushMsg, schedParts_bump, schedParts_sendAll, setConn_sched]

@[simp] theorem schedParts_sendEvent (c : Chip) (p : Page) : (sendEvent c p).1.sched.parts = c.sched.parts := by
  unfold sendEvent
  dsimp only
  split
  · rfl
  · refine (schedParts_foldl_fst _ (fun x n => ?_) _ _).trans ?_ <;> simp

@[simp] theorem schedParts_setInt (c : Chip) (p : Page) (bits : Word) :
    (setInt c p bits).1.sched.parts = c.sched.parts := by
  grind [setInt, setHdr_sched, schedParts_sendEvent]

@[simp] theorem schedParts_raiseN (a : Nat) (a1 : List EventBit) (a2 : Chip) :
    (raiseN a a1 a2).sched.parts = a2.sched.parts := by
  fun_induction raiseN a a1 a2 <;> grind [schedParts_setInt]

@[simp] theorem schedParts_raises (c : Chip) (l : List EventBit) : (raises c l).sched.parts = c.sched.parts := by
  simp [raises]

@[simp] theorem schedParts_raise (c : Chip) (p : Page) (b : Nat) : (raise c p b).sched.parts = c.sched.parts := by
  simp [raise]

@[simp] theorem schedParts_settleEvents (r : Chip × List EventBit) :
    (settleEvents r).sched.parts = r.1.sched.parts := by
  simp [settleEvents]

@[simp] theorem schedParts_sendMsg (c : Chip) (n cls : Nat) (bytes : List Byte) :
    (sendMsg c n cls bytes).sched.parts = c.sched.parts := by
  simp [sendMsg]

@[simp] theorem schedParts_setState (c : Chip) (p : Page) (s : BState) :
    (setState c p s).sched.parts = c.sched.parts := by
  grind [setState, schedParts_raise, setHdr_sched]

/-! ### Functions of Fault -/

@[simp] theorem schedParts_bbProgram (c : Chip) (r : List Byte) : (bbProgram c r).sched.parts = c.sched.parts := by
  grind [bbProgram, setReg_sched, schedParts_setFld, schedParts_raise]

@[simp] theorem schedParts_bbQueue (c : Chip) (r : List Byte) : (bbQueue c r).sched.parts = c.sched.parts := by
  grind [bbQueue, schedParts_bump]

@[simp] theorem schedParts_bbAppend (c : Chip) (r : List Byte) : (bbAppend c r).sched.parts = c.sched.parts := by
  unfold bbAppend
  (repeat' split) <;> simp

@[simp] theorem schedParts_bbRecord (c : Chip) (kind cls level page : Nat) (info : Word) (addr : DWord) (mark : Word) :
    (bbRecord c kind cls level page info addr mark).sched.parts = c.sched.parts := by
  simp [bbRecord]

@[simp] theorem schedParts_startReaction (c : Chip) (cls level : Nat) :
    (startReaction c cls level).sched.parts = c.sched.parts := by
  unfold startReaction
  (repeat' split) <;> simp

@[simp] theorem schedParts_faultRecord (c : Chip) (f : FaultRep) (level : Nat) :
    (faultRecord c f level).sched.parts = c.sched.parts := by
  grind [faultRecord, schedParts_takeFree, schedParts_bump, schedParts_bbRecord]

@[simp] theorem schedParts_bbRewrite (c : Chip) : (bbRewrite c).sched.parts = c.sched.parts := by
  grind [bbRewrite, schedParts_setFld, schedParts_bbAppend, setReg_sched]

@[simp] theorem schedParts_reportAgain (c : Chip) (f : FaultRep) (l : LastReport) :
    (reportAgain c f l).sched.parts = c.sched.parts := by
  grind [reportAgain, schedParts_setFld, schedParts_startReaction, schedParts_raise]

@[simp] theorem schedParts_reportAt (c : Chip) (f : FaultRep) (level : Nat) :
    (reportAt c f level).sched.parts = c.sched.parts := by
  grind [reportAt, schedParts_takeTick, setReg_sched, schedParts_setPair, schedParts_bbRewrite,
    schedParts_startReaction,
    schedParts_faultRecord, schedParts_raise]

@[simp] theorem schedParts_reportFirst (c : Chip) (f : FaultRep) : (reportFirst c f).sched.parts = c.sched.parts := by
  simp [reportFirst]

@[simp] theorem schedParts_traceStop (c : Chip) : (traceStop c).sched.parts = c.sched.parts := by
  simp [traceStop]

@[simp] theorem schedParts_telLeaves (c : Chip) (p : Page) : (telLeaves c p).sched.parts = c.sched.parts := by
  unfold telLeaves
  split <;> simp

@[simp] theorem schedParts_faultState (c : Chip) (f : FaultRep) : (faultState c f).sched.parts = c.sched.parts := by
  unfold faultState
  split <;> simp

@[simp] theorem schedParts_report (c : Chip) (f : FaultRep) : (report c f).sched.parts = c.sched.parts := by
  unfold report
  (repeat' split) <;> simp

@[simp] theorem schedParts_fault (c : Chip) (cls : Nat) (p : Page) (info addr : Nat) (higher : Bool) :
    (fault c cls p info addr higher).sched.parts = c.sched.parts := by
  grind [fault, schedParts_report, schedParts_takeFree]

/-! ### Functions of Media -/

@[simp] theorem schedParts_jput (c : Chip) (r : JRec) : (jput c r).sched.parts = c.sched.parts := by
  simp [jput]

@[simp] theorem schedParts_noteSpares (was : Nat) (c : Chip) : (noteSpares was c).sched.parts = c.sched.parts := by
  unfold noteSpares
  split <;> simp

@[simp] theorem schedParts_applyCut (c : Chip) : (applyCut c).sched.parts = c.sched.parts := by
  unfold applyCut
  split <;> simp

@[simp] theorem schedParts_spareReaction (c : Chip) (was : Nat) :
    (spareReaction c was).sched.parts = c.sched.parts := by
  grind [spareReaction, schedParts_noteSpares, schedParts_raise, schedParts_setFld, schedParts_applyCut]

@[simp] theorem schedParts_retire (c : Chip) (e : Nat) : (retire c e).sched.parts = c.sched.parts := by
  simp [retire]

@[simp] theorem schedParts_startErase (c : Chip) (e : Nat) : (startErase c e).sched.parts = c.sched.parts := by
  grind [startErase, setExtent_sched, schedParts_noteSpares, schedParts_applyCut, schedParts_jput]

@[simp] theorem schedParts_eraseIfDead (c : Chip) (l : Nat) : (eraseIfDead c l).sched.parts = c.sched.parts := by
  unfold eraseIfDead
  (repeat' split) <;> simp

@[simp] theorem schedParts_closeExtent (c : Chip) (e : Nat) : (closeExtent c e).sched.parts = c.sched.parts := by
  grind [closeExtent, setExtent_sched, schedParts_eraseIfDead]

theorem schedParts_openHead (c : Chip) (d : Nat) : ∀ y, openHead c d = some y → y.2.sched.parts = c.sched.parts := by
  grind [openHead, schedParts_takeFree, schedParts_jput, setExtent_sched]

theorem schedParts_headFor (c : Chip)
    (d len : Nat) : ∀ y, headFor c d len = some y → y.2.sched.parts = c.sched.parts := by
  intro r h
  unfold headFor at h
  split at h
  · split at h
    · cases h; rfl
    · exact (schedParts_openHead _ _ _ h).trans (by simp)
  · exact schedParts_openHead _ _ _ h

theorem schedParts_firstHead (c : Chip) (len : Nat)
    (a : List Nat) : ∀ y, firstHead c len a = some y → y.2.sched.parts = c.sched.parts := by
  fun_induction firstHead c len a <;> grind [schedParts_headFor]

@[simp] theorem schedParts_closeFull (c : Chip) (e : Nat) : (closeFull c e).sched.parts = c.sched.parts := by
  unfold closeFull
  split
  · rfl
  · split
    · next h => exact (schedParts_openHead _ _ _ h).trans (by simp)
    · simp

theorem schedParts_placeWrite (c : Chip) (dies : List Nat) (obj : FObj) (use : FUse) :
    ∀ y, placeWrite c dies obj use = some y → y.2.sched.parts = c.sched.parts := by
  intro r h
  unfold placeWrite at h
  split at h
  · cases h
  · next hf =>
    cases h
    simpa using schedParts_firstHead _ _ _ _ hf

@[simp] theorem schedParts_flashWriteTo (c : Chip) (part : Nat) (obj : FObj) (use : FUse) (avoid : Option Nat) :
    (flashWriteTo c part obj use avoid).2.2.sched.parts = c.sched.parts := by
  grind [flashWriteTo, schedParts_takeFree, schedParts_placeWrite, schedParts_setFld]

@[simp] theorem schedParts_dropObject (c : Chip) (addr : Nat) : (dropObject c addr).sched.parts = c.sched.parts := by
  grind [dropObject, schedParts_eraseIfDead, schedParts_setFld]

@[simp] theorem schedParts_flashFreeOf (c : Chip) (addr len : Nat) :
    (flashFreeOf c addr len).2.sched.parts = c.sched.parts := by
  unfold flashFreeOf
  (repeat' split) <;> simp

@[simp] theorem schedParts_flashFree (c : Chip) (addr : Nat) : (flashFree c addr).sched.parts = c.sched.parts := by
  simp [flashFree]

@[simp] theorem schedParts_copyTo (c : Chip) (e t : Nat) : (copyTo c e t).sched.parts = c.sched.parts := by
  simp [copyTo]

@[simp] theorem schedParts_flashRead (c : Chip) (addr : Nat) : (flashRead c addr).2.sched.parts = c.sched.parts := by
  grind [flashRead, schedParts_bumpPair, setExtent_sched]

@[simp] theorem schedParts_cancelWrite (c : Chip) (id : Nat) : (cancelWrite c id).sched.parts = c.sched.parts := by
  unfold cancelWrite
  split <;> simp

/-! ### Functions of Heap -/

theorem schedParts_heapAlloc (c : Chip)
    (p n : Nat) : ∀ y, heapAlloc c p n = some y → y.2.sched.parts = c.sched.parts := by
  grind [heapAlloc, schedParts_takeFree]

theorem schedParts_heapAllocs (c : Chip) (p : Nat)
    (a : List Nat) : ∀ y, heapAllocs c p a = some y → y.2.sched.parts = c.sched.parts := by
  induction a generalizing c with
  | nil => intro r h; cases h; rfl
  | cons n l ih =>
    intro r h
    unfold heapAllocs at h
    split at h
    · cases h
    · next ha =>
      split at h
      · cases h
      · next hl => cases h; exact (ih _ _ hl).trans (schedParts_heapAlloc _ _ _ _ ha)

@[simp] theorem schedParts_heapRelease (c : Chip) (a : Nat) : (heapRelease c a).sched.parts = c.sched.parts := by
  simp [heapRelease]

@[simp] theorem schedParts_noteLedger (was : Nat) (c : Chip) : (noteLedger was c).sched.parts = c.sched.parts := by
  unfold noteLedger
  split <;> simp

theorem schedParts_stageBlock (c : Chip)
    (part size : Nat) : ∀ y, stageBlock c part size = some y → y.2.2.sched.parts = c.sched.parts := by
  intro r h
  simp only [stageBlock] at h
  split at h
  · cases h
  · split at h
    · cases h
    · next ha => cases h; simpa using schedParts_heapAlloc _ _ _ _ ha

@[simp] theorem schedParts_dropGddr (c : Chip) (i : Nat) : (dropGddr c i).sched.parts = c.sched.parts := by
  unfold dropGddr
  split <;> simp

@[simp] theorem schedParts_freeBlock (c : Chip) (i : Nat) : (freeBlock c i).sched.parts = c.sched.parts := by
  grind [freeBlock, schedParts_dropGddr, schedParts_flashFree, setLedger_sched]

@[simp] theorem schedParts_releaseCopy (c : Chip) (i : Nat) : (releaseCopy c i).sched.parts = c.sched.parts := by
  unfold releaseCopy
  split <;> simp

@[simp] theorem schedParts_takeClaim (c : Chip) (i : Nat) : (takeClaim c i).sched.parts = c.sched.parts := by
  simp [takeClaim]

@[simp] theorem schedParts_dropClaim (c : Chip) (i : Nat) : (dropClaim c i).sched.parts = c.sched.parts := by
  simp [dropClaim]

@[simp] theorem schedParts_evictClaim (c : Chip) (i : Nat) : (evictClaim c i).sched.parts = c.sched.parts := by
  simp [evictClaim]

@[simp] theorem schedParts_refAdjust (c : Chip) (seq i : Nat) (up : Bool) :
    (refAdjust c seq i up).sched.parts = c.sched.parts := by
  grind [refAdjust, setLedger_sched, schedParts_freeBlock]

/-! ### Functions of Fig -/

@[simp] theorem schedParts_takeIndex (c : Chip) (i : Nat) : (takeIndex c i).sched.parts = c.sched.parts := by
  grind [takeIndex]

@[simp] theorem schedParts_putIndex (c : Chip) (i : Nat) : (putIndex c i).sched.parts = c.sched.parts := by
  unfold putIndex
  split <;> simp

@[simp] theorem schedParts_takeRegion (c : Chip) (i : Nat) : (takeRegion c i).sched.parts = c.sched.parts := by
  unfold takeRegion
  split <;> simp

@[simp] theorem schedParts_sendOut (c : Chip) (n : Nat) (m : OutMsg) (seq : Nat) :
    (sendOut c n m seq).sched.parts = c.sched.parts := by
  unfold sendOut
  split <;> simp

@[simp] theorem schedParts_setJobs (c : Chip) (p client : Nat) (j : Nat × Nat × Nat) :
    (setJobs c p client j).sched.parts = c.sched.parts :=
  rfl

@[simp] theorem schedParts_countJobEnd (c : Chip) (i status : Nat) (o : Op) :
    (countJobEnd c i status o).sched.parts = c.sched.parts := by
  unfold countJobEnd
  split <;> simp

@[simp] theorem schedParts_countTier (c : Chip) (status : Nat) : (countTier c status).sched.parts = c.sched.parts := by
  unfold countTier
  (repeat' split) <;> simp

@[simp] theorem schedParts_endOp (c : Chip) (i status : Nat) : (endOp c i status).sched.parts = c.sched.parts := by
  unfold endOp
  split <;> simp

@[simp] theorem schedParts_releaseAddr (c : Chip) (a : Nat) : (releaseAddr c a).sched.parts = c.sched.parts := by
  unfold releaseAddr
  split <;> simp

@[simp] theorem schedParts_recount (c : Chip) (i : Nat) : (recount c i).sched.parts = c.sched.parts := by
  simp [recount]

@[simp] theorem schedParts_releaseState (c : Chip) (i : Nat) : (releaseState c i).sched.parts = c.sched.parts := by
  grind [releaseState, schedParts_releaseAddr]

@[simp] theorem schedParts_releaseImage (c : Chip) (i : Nat) : (releaseImage c i).sched.parts = c.sched.parts := by
  grind [releaseImage, schedParts_flashFree, schedParts_cancelWrite]

@[simp] theorem schedParts_goCold (c : Chip) (i : Nat) : (goCold c i).sched.parts = c.sched.parts := by
  simp [goCold, schedParts_foldl]

@[simp] theorem schedParts_enterFree (c : Chip) (seq i : Nat) : (enterFree c seq i).sched.parts = c.sched.parts := by
  simp [enterFree, schedParts_foldl]

@[simp] theorem schedParts_replaceTable (c : Chip) (i : Nat) (blocks : Tbl Nat) (claims : List Nat) :
    (replaceTable c i blocks claims).sched.parts = c.sched.parts := by
  simp [replaceTable, schedParts_foldl]

theorem schedParts_setLedger_withMem (c : Chip) (m : List Host.Cell) (k : Nat) (e : Ledger) :
    (setLedger { c with mem := m } k e).sched.parts = c.sched.parts := rfl

@[simp] theorem schedParts_applyAct (c : Chip) (seq : Nat) (f : Figure) (a : Action) :
    (applyAct c seq f a).sched.parts = c.sched.parts := by
  cases a with
  | kvAppend b n stage => rfl
  | blockRef refs =>
    have h1 := schedParts_foldl (fun c k =>
      setLedger { c with mem := sealHeader c.mem ((ledger c k).gddr.getD 0) seq } k
        { ledger c k with state := .resident, ref := 1, res := 1, refSeq := seq })
      (fun c k => schedParts_setLedger_withMem ..) (refs.map (·.2)) c
    simpa [applyAct] using h1
  | dirSet sub fd v =>
    unfold applyAct
    dsimp only
    (repeat' split) <;> simp
  | regionSet g st =>
    unfold applyAct
    dsimp only
    (repeat' split) <;> simp
  | tableSet => simp [applyAct]
  | tokenEmit => rfl
  | countBatch => rfl
  | grammarSet => rfl
  | stopSet => rfl
  | epochSet => rfl
  | exclSet => rfl
  | refAdjust => simp [applyAct]
  | regOverlay => rfl
  | ckptCommit => simp [applyAct]

@[simp] theorem schedParts_markApplied (c : Chip) (seq : Nat) (f : Figure) :
    (markApplied c seq f).sched.parts = c.sched.parts := by
  unfold markApplied
  refine schedParts_foldl _ (fun c a => ?_) _ _
  grind [setEntry_sched]

@[simp] theorem schedParts_applyOne (c : Chip) : (applyOne c).sched.parts = c.sched.parts := by
  unfold applyOne
  (repeat' split) <;> simp [schedParts_foldl]

@[simp] theorem schedParts_settleN (n : Nat) (c : Chip) : (settleN n c).sched.parts = c.sched.parts := by
  induction n generalizing c with
  | zero => rfl
  | succ n ih => exact (ih _).trans (schedParts_applyOne c)

@[simp] theorem schedParts_settle (c : Chip) : (settle c).sched.parts = c.sched.parts := by
  unfold settle
  simp

@[simp] theorem schedParts_afterOne (c : Chip) (seq : Nat) (a : After) :
    (afterOne c seq a).sched.parts = c.sched.parts := by
  unfold afterOne
  (repeat' split) <;> simp

@[simp] theorem schedParts_logWrite (c : Chip) (u : Nat) (l : List Byte) :
    (logWrite c u l).sched.parts = c.sched.parts := by
  simp [logWrite]

@[simp] theorem schedParts_commitFig (c : Chip) (f : Figure) : (commitFig c f).sched.parts = c.sched.parts := by
  unfold commitFig
  dsimp only
  refine (schedParts_foldl _ (fun c a => schedParts_afterOne ..) _ _).trans ?_
  split <;> simp

@[simp] theorem schedParts_abortOpen (c : Chip) (f : Figure) : (abortOpen c f).sched.parts = c.sched.parts := by
  grind [abortOpen, schedParts_bump, schedParts_takeFine, schedParts_logWrite]

@[simp] theorem schedParts_openFig (c : Chip) (f : Figure) : (openFig c f).sched.parts = c.sched.parts := by
  unfold openFig
  split <;> simp

@[simp] theorem schedParts_damageSession (c : Chip) (i : Nat) : (damageSession c i).sched.parts = c.sched.parts := by
  grind [damageSession, schedParts_openFig]

@[simp] theorem schedParts_touch (c : Chip) (i : Nat) : (touch c i).sched.parts = c.sched.parts := by
  grind [touch, schedParts_bumpPair, schedParts_takeFree, schedParts_settle, schedParts_damageSession, schedParts_raise]

/-! ### Functions of Text -/

@[simp] theorem schedParts_vocabMisses (c : Chip) (slot : Nat) : (vocabMisses c slot).sched.parts = c.sched.parts := by
  unfold vocabMisses
  split <;> simp

/-! ### Functions of Image -/

@[simp] theorem schedParts_putTailRows (c : Chip) (base slot : Nat) (s : LayerShape) (rows : List (List Byte)) :
    (putTailRows c base slot s rows).sched.parts = c.sched.parts := by
  unfold putTailRows
  simp

@[simp] theorem schedParts_putMem (c : Chip) (a : Nat) (l : List Byte) :
    (putMem c a l).sched.parts = c.sched.parts := by
  unfold putMem
  simp

/-! ### Functions of Revive -/

@[simp] theorem schedParts_noteHeapLow (c : Chip) (p : Nat) : (noteHeapLow c p).sched.parts = c.sched.parts := by
  unfold noteHeapLow
  split <;> simp

@[simp] theorem schedParts_dropRevival (c : Chip) (i : Nat) : (dropRevival c i).sched.parts = c.sched.parts := by
  simp [dropRevival]

@[simp] theorem schedParts_claimBlock (c : Chip) (i k : Nat) : (claimBlock c i k).sched.parts = c.sched.parts := by
  simp [claimBlock]

theorem schedParts_startRead (c : Chip)
    (p k : Nat) : ∀ y, startRead c p k = some y → y.sched.parts = c.sched.parts := by
  intro r h
  unfold startRead at h
  split at h
  · cases h
  · next ha => cases h; simpa using schedParts_heapAlloc _ _ _ _ ha

theorem schedParts_startReads (c : Chip) (p : Nat)
    (a : List Nat) : ∀ y, startReads c p a = some y → y.sched.parts = c.sched.parts := by
  fun_induction startReads c p a <;> grind [schedParts_startRead]

theorem schedParts_beginRevival (c : Chip)
    (r : Revival) : ∀ y, beginRevival c r = some y → y.sched.parts = c.sched.parts := by
  intro y h
  unfold beginRevival at h
  extract_lets i e want flash busy here img c0 at h
  split at h
  · have h0 : c0.sched.parts = c.sched.parts := by
      unfold c0
      split
      · exact schedParts_fault ..
      · rfl
    rw [← Option.some.inj h, schedParts_damageSession, schedParts_dropRevival, h0]
  · split at h
    · exact nomatch h
    · split at h
      · exact nomatch h
      · split at h
        · exact nomatch h
        · split at h
          · exact nomatch h
          · next addrs c1 ha =>
            split at h
            · exact nomatch h
            · next c2 hs =>
              have hm := (schedParts_startReads _ _ _ _ hs).trans (schedParts_heapAllocs _ _ _ _ ha)
              rw [← Option.some.inj h, ← hm, setRevival_sched, schedParts_bumpPair]
              split
              · rw [schedParts_flashRead, schedParts_foldl _ (fun c k => schedParts_claimBlock _ _ _)]
              · rw [schedParts_foldl _ (fun c k => schedParts_claimBlock _ _ _)]

@[simp] theorem schedParts_pumpRevivals (c : Chip) : (pumpRevivals c).sched.parts = c.sched.parts := by
  unfold pumpRevivals
  refine schedParts_foldl _ (fun c d => ?_) _ _
  (repeat' split) <;> first | exact schedParts_beginRevival _ _ _ ‹_› | simp

@[simp] theorem schedParts_startRevival (c : Chip) (i deadline order : Nat) :
    (startRevival c i deadline order).sched.parts = c.sched.parts := by
  simp [startRevival]

@[simp] theorem schedParts_abandonRevival (c : Chip) (i : Nat) : (abandonRevival c i).sched.parts = c.sched.parts := by
  unfold abandonRevival
  (repeat' split) <;> simp [schedParts_foldl]

@[simp] theorem schedParts_failRevival (c : Chip) (i : Nat) : (failRevival c i).sched.parts = c.sched.parts := by
  unfold failRevival
  (repeat' split) <;> simp [schedParts_foldl]

@[simp] theorem schedParts_damageBlock (c : Chip) (k : Nat) : (damageBlock c k).sched.parts = c.sched.parts := by
  simp [damageBlock, schedParts_foldl]

@[simp] theorem schedParts_flashCopyBad (c : Chip) (k : Nat) : (flashCopyBad c k).sched.parts = c.sched.parts := by
  simp [flashCopyBad]

/-! ### Functions of Access -/

/-- Stated of `rehomeBy`, whose test of TIER's room the kernel does not unroll. -/
theorem schedParts_rehomeBy (serves : Chip → Nat → Bool) (c : Chip) (k : Nat) (data : List Byte) :
    (rehomeBy serves c k data).sched.parts = c.sched.parts := by
  unfold rehomeBy
  extract_lets p c1
  have h1 : c1.sched.parts = c.sched.parts := schedParts_dropGddr ..
  split
  · next b c2 hx =>
    split at hx
    · exact (schedParts_heapAlloc _ _ _ _ hx).trans h1
    · exact nomatch hx
  · rfl

@[simp] theorem schedParts_rehome (c : Chip) (k : Nat) (data : List Byte) :
    (rehome c k data).sched.parts = c.sched.parts := by
  rw [rehome_eq_rehomeBy, schedParts_rehomeBy]

@[simp] theorem schedParts_lostCopy (c : Chip) (cls a k : Nat) : (lostCopy c cls a k).sched.parts = c.sched.parts := by
  grind [lostCopy, schedParts_flashRead, schedParts_fault, schedParts_rehome, schedParts_flashCopyBad,
    schedParts_damageBlock]

@[simp] theorem schedParts_checkCopies (c : Chip) (ks : List Nat) : (checkCopies c ks).sched.parts = c.sched.parts := by
  unfold checkCopies
  refine schedParts_foldl _ (fun c a => ?_) _ _
  grind [schedParts_lostCopy, schedParts_flashCopyBad]

@[simp] theorem schedParts_flushBlock (c : Chip) (part k : Nat) (avoid : Option Nat) :
    (flushBlock c part k avoid).2.sched.parts = c.sched.parts := by
  grind [flushBlock, schedParts_lostCopy, schedParts_flashWriteTo, schedParts_bumpPair]

@[simp] theorem schedParts_flushRest (part : Nat) (c : Chip) (avoid : Option Nat) (l : List Nat) :
    (flushRest part c avoid l).2.sched.parts = c.sched.parts := by
  induction l generalizing c avoid with
  | nil => rfl
  | cons k r ih =>
    have h1 := schedParts_flushBlock c part k avoid
    unfold flushRest
    split
    next st c1 hf =>
    rw [hf] at h1
    split
    · exact (ih _ _).trans h1
    · exact h1

@[simp] theorem schedParts_flushBlocks (part : Nat) (c : Chip) (l : List Nat) :
    (flushBlocks part c l).2.sched.parts = c.sched.parts := by
  unfold flushBlocks
  simp

@[simp] theorem schedParts_startEvict (c : Chip) (i : Nat) : (startEvict c i).sched.parts = c.sched.parts := by
  grind [startEvict, schedParts_flushBlocks, schedParts_flashWriteTo, schedParts_bumpPair, setBody_sched]

@[simp] theorem schedParts_pressOn (c : Chip) (p : Nat) : (pressOn c p).sched.parts = c.sched.parts := by
  unfold pressOn
  (repeat' split) <;> simp [schedParts_foldl]

@[simp] theorem schedParts_pumpPressure (c : Chip) : (pumpPressure c).sched.parts = c.sched.parts := by
  unfold pumpPressure
  simp [schedParts_foldl]

/-! ### Functions of FlashOps -/

@[simp] theorem schedParts_hurtSession (c : Chip) (i : Nat) : (hurtSession c i).sched.parts = c.sched.parts := by
  unfold hurtSession
  split <;> simp

/-! ### Functions of Offer -/

@[simp] theorem schedParts_offerBegin (c : Chip) (i : Nat) (o : Op) (toConn notify : BitVec 16) :
    (offerBegin c i o toConn notify).sched.parts = c.sched.parts := by
  simp [offerBegin]

/-! ### Functions of Sess -/

@[simp] theorem schedParts_applyAfters (c : Chip) (l : List After) : (applyAfters c l).sched.parts = c.sched.parts := by
  simp [applyAfters, schedParts_foldl]

@[simp] theorem schedParts_endNow (c : Chip) (i : Nat) (o : Op) (status : Nat) :
    (endNow c i o status).sched.parts = c.sched.parts := by
  simp [endNow]

@[simp] theorem schedParts_finishOp (c0 : Chip) (i status : Nat) :
    (finishOp c0 i status).sched.parts = c0.sched.parts := by
  grind [finishOp, schedParts_settle, schedParts_abandonRevival, schedParts_openFig, schedParts_endNow]

@[simp] theorem schedParts_figOp (c : Chip) (i : Nat) (o : Op) (new : Session) (acts : List Action) (aux : Nat)
    (more : List After) :
    (figOp c i o new acts aux more).sched.parts = c.sched.parts := by
  grind [figOp, schedParts_endNow, schedParts_openFig]

@[simp] theorem schedParts_setHead (c : Chip) (i : Nat) (o : Op) : (setHead c i o).sched.parts = c.sched.parts := by
  unfold setHead
  split <;> simp

@[simp] theorem schedParts_reviveOrReady (c : Chip) (i : Nat) (o ready : Op) :
    (reviveOrReady c i o ready).sched.parts = c.sched.parts := by
  grind [reviveOrReady, schedParts_endNow, schedParts_startRevival, schedParts_setHead]

@[simp] theorem schedParts_appendTokens (c : Chip) (i : Nat) (o : Op) (l : List Nat) :
    (appendTokens c i o l).sched.parts = c.sched.parts := by
  grind [appendTokens, schedParts_endNow, schedParts_reviveOrReady]

@[simp] theorem schedParts_appendBegin (c : Chip) (i : Nat) (o : Op) (src : AppendSrc) :
    (appendBegin c i o src).sched.parts = c.sched.parts := by
  unfold appendBegin
  (repeat' split) <;> simp

@[simp] theorem schedParts_generateBegin (c : Chip) (i : Nat) (o : Op) (req : GenReq) :
    (generateBegin c i o req).sched.parts = c.sched.parts := by
  grind [generateBegin, schedParts_endNow, schedParts_reviveOrReady]

@[simp] theorem schedParts_excludeBegin (c : Chip) (i : Nat) (o : Op) (a b : Nat) :
    (excludeBegin c i o a b).sched.parts = c.sched.parts := by
  grind [excludeBegin, schedParts_endNow, schedParts_takeFree, schedParts_figOp]

@[simp] theorem schedParts_endBegin (c : Chip) (i : Nat) (o : Op) (secure : Bool) :
    (endBegin c i o secure).sched.parts = c.sched.parts := by
  simp [endBegin]

@[simp] theorem schedParts_forkMake (c : Chip) (i : Nat) (o : Op) (req : ForkReq) (k : Nat) (addrs : List Nat) :
    (forkMake c i o req k addrs).sched.parts = c.sched.parts := by
  unfold forkMake
  extract_lets e b p l blocks ids claims whole sealed base decoded rows c1 c2 spans
  have h1 : c1.sched.parts = c.sched.parts := schedParts_foldl _ (fun c x => schedParts_putTailRows ..) _ _
  have h2 : c2.sched.parts = c.sched.parts := by
    unfold c2
    split
    · exact (schedParts_putMem ..).trans h1
    · exact h1
  split
  next v c3 h3 =>
  have h4 : c3.sched.parts = c2.sched.parts := by rw [← schedParts_takeFree c2, h3]
  extract_lets
  split
  · exact schedParts_endNow ..
  · rw [schedParts_openFig, schedParts_setHead, h4, h2]

@[simp] theorem schedParts_forkBegin (c : Chip) (i : Nat) (o : Op) (req : ForkReq) :
    (forkBegin c i o req).sched.parts = c.sched.parts := by
  fun_cases forkBegin c i o req
  case case1 e p st _ c1 =>
    have h1 : c1.sched.parts = c.sched.parts := by unfold c1; split <;> simp
    rw [schedParts_endNow]
    split <;> simp [h1]
  case case2 => exact schedParts_endNow ..
  case case3 ks ca _ => exact (schedParts_hurtSession ..).trans (schedParts_checkCopies ..)
  case case4 ks ca _ _ _ _ _ _ _ _ _ _ => exact (schedParts_endNow ..).trans (schedParts_checkCopies c ks)
  case case5 ks ca _ k addrs c1 ha _ v c2 ht _ =>
    have h1 : c1.sched.parts = c.sched.parts := (schedParts_heapAllocs _ _ _ _ ha).trans (schedParts_checkCopies ..)
    have h2 : c2.sched.parts = c1.sched.parts := by rw [← schedParts_takeFree c1, ht]
    rw [schedParts_forkMake]
    split
    · exact h2.trans h1
    · exact h1
  case case6 => exact (schedParts_endNow ..).trans (schedParts_checkCopies ..)

@[simp] theorem schedParts_beginOp (c : Chip) (i : Nat) (o : Op) : (beginOp c i o).sched.parts = c.sched.parts := by
  grind [beginOp, schedParts_setHead, schedParts_endNow, schedParts_appendBegin, schedParts_generateBegin,
    schedParts_startRevival,
    schedParts_forkBegin, schedParts_excludeBegin, schedParts_offerBegin, schedParts_reviveOrReady, schedParts_figOp,
    schedParts_endBegin]

@[simp] theorem schedParts_cleanRevivals (c : Chip) : (cleanRevivals c).sched.parts = c.sched.parts := by
  simp [cleanRevivals, schedParts_foldl]

@[simp] theorem schedParts_kickN (n : Nat) (c : Chip) : (kickN n c).sched.parts = c.sched.parts := by
  induction n generalizing c with
  | zero => rfl
  | succ n ih =>
    unfold kickN
    split
    · rfl
    · refine (ih _).trans (schedParts_foldl _ (fun c i => ?_) _ _)
      split <;> simp

@[simp] theorem schedParts_kick (c : Chip) : (kick c).sched.parts = c.sched.parts := by
  unfold kick
  simp

/-! ### Functions of Grid -/

@[simp] theorem schedParts_stopMarking (c : Chip) (n : Nat) : (stopMarking c n).sched.parts = c.sched.parts := by
  grind [stopMarking]

@[simp] theorem schedParts_placeCore (c : Chip) (n owner : Nat) (block : List Byte) (prog : Nat) :
    (placeCore c n owner block prog).sched.parts = c.sched.parts := by
  grind [placeCore, schedParts_stopMarking, setCore_sched]

/-! ### Functions of Attn -/

@[simp] theorem schedParts_formSpans (c : Chip) (e : Engine) : (formSpans c e).2.sched.parts = c.sched.parts := by
  grind [formSpans, schedParts_setFld]

@[simp] theorem schedParts_attendLayer (c : Chip) (e : Engine) (s : LayerShape) (queries : List RowQueries)
    (ws : List Work) :
    (attendLayer c e s queries ws).2.sched.parts = c.sched.parts := by
  grind [attendLayer, schedParts_takeFree]

/-! ### Functions of Sched -/

theorem schedParts_stageBlocks (c : Chip) (part : Nat) (a : List Nat) :
    ∀ y, stageBlocks c part a = some y → y.2.sched.parts = c.sched.parts := by
  induction a generalizing c with
  | nil => intro r h; cases h; rfl
  | cons n l ih =>
    intro r h
    unfold stageBlocks at h
    split at h
    · cases h
    · next ha =>
      split at h
      · cases h
      · next hl => cases h; exact (ih _ _ hl).trans (schedParts_stageBlock _ _ _ _ ha)

@[simp] theorem schedParts_reserveSeals (c : Chip) (ws : List Work) :
    (reserveSeals c ws).2.sched.parts = c.sched.parts := by
  unfold reserveSeals
  refine schedParts_foldl_snd _ (fun x w => ?_) _ _
  dsimp only
  split
  · next h =>
    split at h
    · exact schedParts_stageBlocks _ _ _ _ h
    · cases h
  · rfl

@[simp] theorem schedParts_serveSeals (c : Chip) (late : List Word) (a : Nat) (a3 : List (Nat × Op)) :
    (serveSeals c late a a3).2.2.sched.parts = c.sched.parts := by
  fun_induction serveSeals c late a a3 <;> grind [schedParts_reserveSeals]

@[simp] theorem schedParts_offerCore (c : Chip) (n owner : Nat) (block : List Byte) (prog : Nat) :
    (offerCore c n owner block prog).sched.parts = c.sched.parts := by
  grind [offerCore, schedParts_placeCore, setCore_sched]

@[simp] theorem schedParts_startQueued (c : Chip) (n : Nat) : (startQueued c n).sched.parts = c.sched.parts := by
  grind [startQueued, schedParts_placeCore, setCore_sched]

@[simp] theorem schedParts_releaseGroup (c : Chip) (p : Nat) (k : EngineKind) (cores : List Nat) (prog phase : Nat) :
    (releaseGroup c p k cores prog phase).sched.parts = c.sched.parts := by
  simp [releaseGroup, schedParts_foldl]

@[simp] theorem schedParts_releaseLayer (c : Chip) (p : Nat) (e : Engine) :
    (releaseLayer c p e).sched.parts = c.sched.parts := by
  unfold releaseLayer
  dsimp only
  split
  · refine (schedParts_foldl _ (fun c n => schedParts_releaseGroup ..) _ _).trans ?_
    simp
  · simp

@[simp] theorem schedParts_placeLayer (c : Chip) (p : Nat) (st : Step) (e : Engine) :
    (placeLayer c p st e).2.sched.parts = c.sched.parts := by
  grind [placeLayer, schedParts_raise, schedParts_formSpans, schedParts_releaseLayer]

@[simp] theorem schedParts_leftOut (c : Chip) (p n : Nat) : (leftOut c p n).sched.parts = c.sched.parts := by
  unfold leftOut
  split <;> simp

@[simp] theorem schedParts_joinStep (c : Chip) (i : Nat) : (joinStep c i).sched.parts = c.sched.parts := by
  grind [joinStep, schedParts_setJobs, schedParts_setHead, schedParts_touch, schedParts_openFig]

@[simp] theorem schedParts_setRowPoint (c : Chip) (y v : Nat) : (setRowPoint c y v).sched.parts = c.sched.parts := by
  simp [setRowPoint]

@[simp] theorem schedParts_setRowPoints (c : Chip) (ys : List Nat) (v : Nat) :
    (setRowPoints c ys v).sched.parts = c.sched.parts := by
  simp [setRowPoints, schedParts_foldl]

@[simp] theorem schedParts_exploreStep (c : Chip) (p : Nat) (k : EngineKind) :
    (exploreStep c p k).sched.parts = c.sched.parts := by
  grind [exploreStep, schedParts_setRowPoints]

@[simp] theorem schedParts_freeStaged (c : Chip) (l : List Nat) : (freeStaged c l).sched.parts = c.sched.parts := by
  simp [freeStaged, schedParts_foldl]

@[simp] theorem schedParts_preemptRunning (c : Chip) (i : Nat) : (preemptRunning c i).sched.parts = c.sched.parts := by
  unfold preemptRunning
  (repeat' split) <;> simp

@[simp] theorem schedParts_dueAtBoundary (c : Chip) (p : Nat) : (dueAtBoundary c p).sched.parts = c.sched.parts := by
  simp [dueAtBoundary]

@[simp] theorem schedParts_boundaryQueues (c : Chip) (p : Nat) : (boundaryQueues c p).sched.parts = c.sched.parts := by
  unfold boundaryQueues
  simp [schedParts_foldl]

/-! ### Functions of StepEnd -/

@[simp] theorem schedParts_scatterWork (c : Chip) (s : LayerShape) (w : Work) :
    (scatterWork c s w).sched.parts = c.sched.parts := by
  unfold scatterWork
  (repeat' split) <;> simp [apply_ite Chip.sched, schedParts_foldl]

@[simp] theorem schedParts_scatterLayer (c : Chip) (e : Engine) (res : LayerResult) :
    (scatterLayer c e res).2.sched.parts = c.sched.parts := by
  unfold scatterLayer
  extract_lets d k
  split
  · rfl
  · split
    · rfl
    · split
      · rfl
      · next s _ =>
        split
        next ws c0 ha =>
        have h0 : c0.sched.parts = c.sched.parts := by
          rw [← schedParts_attendLayer c e s res.queries (e.works.map (storeFresh c s res.fresh)), ha]
        have h1 := schedParts_foldl (fun c w => scatterWork c s w) (fun c w => schedParts_scatterWork ..) ws c0
        simpa [h0] using h1

@[simp] theorem schedParts_countDraw (c : Chip) (i : Nat) (req : GenReq) (w : Work) (r : Nat) (d : Drawn) :
    (countDraw c i req w r d).sched.parts = c.sched.parts := by
  grind [countDraw, schedParts_takeFree, schedParts_bumpPair, schedParts_vocabMisses, schedParts_raise,
    schedParts_setFld, schedParts_bump]

@[simp] theorem schedParts_drawWork (c : Chip) (res : LayerResult) (w : Work) :
    (drawWork c res w).2.sched.parts = c.sched.parts := by
  unfold drawWork
  split
  · rfl
  · split
    · rfl
    · refine schedParts_foldl_snd _ (fun x w => ?_) _ _
      dsimp only
      split <;> simp

@[simp] theorem schedParts_sendOutputs (c : Chip) (bytes : List Byte) :
    (sendOutputs c bytes).sched.parts = c.sched.parts := by
  simp [sendOutputs]

@[simp] theorem schedParts_endEngine (c : Chip) (e : Engine) (res : LayerResult) :
    (endEngine c e res).2.sched.parts = c.sched.parts := by
  have hdraws : (e.works.foldl (fun (a : List Work × Chip) w =>
      (a.1 ++ [(drawWork a.2 res w).1], (drawWork a.2 res w).2))
      ([], c)).2.sched.parts = c.sched.parts :=
    foldl_same (fun x : List Work × Chip => x.2.sched.parts) _ (fun x w => schedParts_drawWork x.2 res w) _ _
  unfold endEngine
  dsimp only
  (repeat' split) <;> simp [hdraws]

@[simp] theorem schedParts_echoChains (c : Chip) (o : Op) (b : SpecBlock) (root : Nat) :
    (echoChains c o b root).2.sched.parts = c.sched.parts := by
  unfold echoChains
  (repeat' split) <;> simp

@[simp] theorem schedParts_draftBegin (c : Chip) (i : Nat) (b : SpecBlock) :
    (draftBegin c i b).2.sched.parts = c.sched.parts := by
  unfold draftBegin
  (repeat' split) <;> simp

@[simp] theorem schedParts_buildTree (c : Chip) (i : Nat) (o : Op) (req : GenReq) (stack : List Nat) (root : Nat) :
    (buildTree c i o req stack root).2.2.sched.parts = c.sched.parts := by
  grind [buildTree, schedParts_echoChains, schedParts_draftBegin]

@[simp] theorem schedParts_advanceHost (c : Chip) (o : Op) (req : GenReq) (l : List Nat) :
    (advanceHost c o req l).2.sched.parts = c.sched.parts := by
  unfold advanceHost
  (repeat' split) <;> simp

@[simp] theorem schedParts_carryToken (c : Chip) (i : Nat) (o : Op) (req : GenReq) (path seen : List Nat) (x : Nat) :
    (carryToken c i o req path seen x).2.sched.parts = c.sched.parts := by
  grind [carryToken, schedParts_advanceHost, schedParts_buildTree]

@[simp] theorem schedParts_sealOne (c : Chip) (w : Work) (nodes : List Nat) (g k : Nat) (s : LayerShape) :
    (sealOne c w nodes g k s).sched.parts = c.sched.parts := by
  unfold sealOne
  simp

@[simp] theorem schedParts_sealGroups (c : Chip) (w : Work) (nodes : List Nat) :
    (sealGroups c w nodes).2.2.sched.parts = c.sched.parts := by
  unfold sealGroups
  extract_lets e sh g0
  refine foldl_same (fun x : List Action × List Nat × Chip => x.2.2.sched.parts) _ (fun x j => ?_) _ _
  exact schedParts_foldl _ (fun c y => schedParts_sealOne ..) _ _

@[simp] theorem schedParts_compact (c : Chip) (w : Work) (nodes : List Nat) :
    (compact c w nodes).sched.parts = c.sched.parts := by
  unfold compact
  (repeat' split) <;> simp [apply_ite Chip.sched, schedParts_foldl]

@[simp] theorem schedParts_unreserve (c : Chip) (w : Work) : (unreserve c w).sched.parts = c.sched.parts := by
  simp [unreserve]

@[simp] theorem schedParts_stepFigure (c : Chip) (w : Work) (nodes : List Nat) (acts : List Action) (new : Session)
    (after : List After) : (stepFigure c w nodes acts new after).sched.parts = c.sched.parts := by
  unfold stepFigure
  simp

@[simp] theorem schedParts_voidWork (c : Chip) (w : Work) : (voidWork c w).sched.parts = c.sched.parts := by
  simp [voidWork]

@[simp] theorem schedParts_abortWork (c : Chip) (w : Work) : (abortWork c w).sched.parts = c.sched.parts := by
  unfold abortWork
  split <;> simp

@[simp] theorem schedParts_countBatch (c : Chip) (i : Nat) (l : List Nat) :
    (countBatch c i l).2.sched.parts = c.sched.parts := by
  unfold countBatch
  (repeat' split) <;> simp

@[simp] theorem schedParts_deadEnd (c : Chip) (i : Nat) : (deadEnd c i).sched.parts = c.sched.parts := by
  unfold deadEnd
  simp

@[simp] theorem schedParts_finishReplay (c : Chip) (w : Work) (o : Op) (req : GenReq) :
    (finishReplay c w o req).sched.parts = c.sched.parts := by
  unfold finishReplay
  (repeat' split) <;> simp

@[simp] theorem schedParts_finishCarried (c : Chip) (w : Work) (o : Op) (req : GenReq) :
    (finishCarried c w o req).sched.parts = c.sched.parts := by
  grind [finishCarried, schedParts_bumpPair, schedParts_deadEnd, schedParts_abortWork, schedParts_carryToken,
    schedParts_countBatch,
    schedParts_vocabMisses, schedParts_bumpPairB, schedParts_stepFigure]

@[simp] theorem schedParts_finishClosing (c : Chip) (w : Work) (o : Op) (req : GenReq) :
    (finishClosing c w o req).sched.parts = c.sched.parts := by
  grind [finishClosing, schedParts_countBatch, schedParts_bump, schedParts_vocabMisses, schedParts_bumpPairB,
    schedParts_stepFigure]

@[simp] theorem schedParts_finishChunk (c : Chip) (w : Work) (o : Op) :
    (finishChunk c w o).sched.parts = c.sched.parts := by
  grind [finishChunk, schedParts_countBatch, schedParts_bumpPairB, schedParts_stepFigure]

@[simp] theorem schedParts_finishWork (c : Chip) (w : Work) : (finishWork c w).sched.parts = c.sched.parts := by
  unfold finishWork
  (repeat' split) <;> simp

@[simp] theorem schedParts_endDrained (c : Chip) (p : Nat) : (endDrained c p).sched.parts = c.sched.parts := by
  unfold endDrained
  simp [schedParts_foldl]

@[simp] theorem schedParts_draftLevel (c : Chip) (level : Nat) (l : List (Word × List Word)) (x : Nat × Op) :
    (draftLevel c level l x).sched.parts = c.sched.parts := by
  grind [draftLevel, schedParts_setHead]

end Sys2Proof.Machine
end

section
/-! Placements (R228-R232): what the release of work on cores changes of the rest of the chip, and of a running step. -/

namespace Sys2Proof.Machine

open Sys2Proof.Safety

/-! ### A partition's scheduler -/

theorem schedPart_of_parts {c d : Chip} (h : d.sched.parts = c.sched.parts) (p : Nat) :
    schedPart d p = schedPart c p := by
  rw [schedPart, h, schedPart]

@[simp] theorem schedPart_setSched_self (c : Chip) (p : Nat) (x : SchedPart) : schedPart (setSched c p x) p = x :=
  tget_tset_self _ _ _ _

/-! ### What a placement leaves -/

/-- Sessions, figures and registers stand but for the counters of sending and ATTN.SPANS; a pending event stays so. -/
structure Placed (c d : Chip) : Prop where
  sess : d.sess = c.sess
  fig : d.fig = c.fig
  regs : ∀ k, eventKey k = false → k ≠ rkey 0 aATTN_SPANS → regKey d k = regKey c k
  ints : ∀ p b, bit (hdr c p).int b = true → bit (hdr d p).int b = true

theorem Placed.refl (c : Chip) : Placed c c := ⟨rfl, rfl, fun _ _ _ => rfl, fun _ _ h => h⟩

theorem Placed.trans {c d e : Chip} (h : Placed c d) (g : Placed d e) : Placed c e :=
  ⟨g.sess.trans h.sess, g.fig.trans h.fig, fun k h1 h2 => (g.regs k h1 h2).trans (h.regs k h1 h2),
    fun p b hb => g.ints p b (h.ints p b hb)⟩

/-- What stores no register and no header, and changes neither sessions nor figures. -/
theorem Placed.of_mgmt {c d : Chip} (h1 : d.sess = c.sess) (h2 : d.fig = c.fig) (h3 : d.mgmt = c.mgmt)
    (h4 : d.variant = c.variant) : Placed c d :=
  ⟨h1, h2, fun k _ _ => by rw [regKey, h3, h4, regKey], fun p b h => by rw [hdr, h3]; exact h⟩

/-- A fold of placements is one. -/
theorem placed_foldl {α : Type} (g : Chip → α → Chip) (h : ∀ c a, Placed c (g c a)) (l : List α) (c : Chip) :
    Placed c (l.foldl g c) := by
  induction l generalizing c with
  | nil => exact Placed.refl c
  | cons a r ih => exact (h c a).trans (ih _)

theorem placed_raise (c : Chip) (p : Page) (b : Nat) : Placed c (raise c p b) :=
  ⟨congrArg (·.sess) (quiet_raise c p b), congrArg (·.fig) (quiet_raise c p b), fun k h _ => keepsRegs_raise c p b k h,
    (minor_raise c p b).ints⟩

theorem placed_setSched (c : Chip) (p : Nat) (x : SchedPart) : Placed c (setSched c p x) := .of_mgmt rfl rfl rfl rfl

theorem placed_takeFree (c : Chip) : Placed c (takeFree c).2 := .of_mgmt rfl rfl rfl rfl

theorem placed_stopMarking (c : Chip) (n : Nat) : Placed c (stopMarking c n) := by
  unfold stopMarking
  dsimp only
  split
  · exact Placed.refl c
  · exact .of_mgmt rfl rfl rfl rfl

theorem placed_placeCore (c : Chip) (n owner : Nat) (block : List Byte) (prog : Nat) :
    Placed c (placeCore c n owner block prog) := by
  unfold placeCore
  dsimp only
  split
  · exact Placed.refl c
  · refine Placed.trans ?_ (placed_stopMarking _ n)
    exact .of_mgmt rfl rfl rfl rfl

theorem placed_startQueued (c : Chip) (n : Nat) : Placed c (startQueued c n) := by
  unfold startQueued
  dsimp only
  split
  · exact Placed.refl c
  · split
    · refine Placed.trans ?_ (placed_placeCore _ n _ _ _)
      exact .of_mgmt rfl rfl rfl rfl
    · exact Placed.refl c

theorem placed_offerCore (c : Chip) (n owner : Nat) (block : List Byte) (prog : Nat) :
    Placed c (offerCore c n owner block prog) := by
  unfold offerCore
  dsimp only
  split
  · exact placed_placeCore ..
  · exact .of_mgmt rfl rfl rfl rfl

theorem placed_releaseGroup (c : Chip) (p : Nat) (k : EngineKind) (cores : List Nat) (prog phase : Nat) :
    Placed c (releaseGroup c p k cores prog phase) :=
  placed_foldl _ (fun c (e : Nat × Nat) => placed_offerCore c e.2 _ _ _) _ _

theorem placed_releaseLayer (c : Chip) (p : Nat) (e : Engine) : Placed c (releaseLayer c p e) := by
  unfold releaseLayer
  dsimp only
  split
  · exact (placed_takeFree c).trans ((placed_takeFree _).trans (placed_foldl _ (fun c n => placed_releaseGroup ..) _ _))
  · exact (placed_takeFree c).trans ((placed_takeFree _).trans (placed_releaseGroup ..))

theorem placed_setSpans (c : Chip) (hi lo v : Nat) : Placed c (setFld c aATTN_SPANS hi lo v) :=
  ⟨congrArg (·.sess) (quiet_setFld c aATTN_SPANS hi lo v), congrArg (·.fig) (quiet_setFld c aATTN_SPANS hi lo v),
    fun _ _ h => regKey_setKey_other _ _ _ _ _ h, fun p b h => by rw [hdr_setFld]; exact h⟩

theorem placed_formSpans (c : Chip) (e : Engine) : Placed c (formSpans c e).2 := by
  unfold formSpans
  dsimp only
  split
  · exact Placed.refl c
  · exact (placed_setSpans ..).trans (placed_setSpans ..)

theorem placed_placeLayer (c : Chip) (p : Nat) (st : Step) (e : Engine) : Placed c (placeLayer c p st e).2 := by
  unfold placeLayer
  dsimp only
  split
  · exact Placed.refl c
  · split
    · exact placed_raise ..
    · exact (placed_releaseLayer ..).trans (placed_formSpans ..)

/-- What of an engine no placement changes. -/
def engineCore (e : Engine) : EngineKind × Nat × List Nat × List Work × Nat × Nat × Bool :=
  (e.kind, e.slot, e.rows, e.works, e.layer, e.layers, e.ended)

/-- A step after its layers or its draft level have taken cores. -/
structure StepPlaced (st st' : Step) : Prop where
  engines : st'.engines.map engineCore = st.engines.map engineCore
  waitPeer : st'.waitPeer = st.waitPeer
  paced : st'.paced = st.paced
  phase : st'.phase = st.phase ∨ ∃ level l l', st.phase = .draft level l ∧ st'.phase = .draft level l'

theorem StepPlaced.refl (st : Step) : StepPlaced st st := ⟨rfl, rfl, rfl, .inl rfl⟩

theorem StepPlaced.works {st st' : Step} (h : StepPlaced st st') :
    st'.engines.map (·.works) = st.engines.map (·.works) := by
  have := congrArg (List.map (fun x => x.2.2.2.1)) h.engines
  rwa [List.map_map, List.map_map] at this

theorem placed_placeDraft (c : Chip) (p : Nat) (st : Step) (level : Nat) : Placed c (placeDraft c p st level) := by
  unfold placeDraft
  split
  · exact Placed.refl c
  · extract_lets own l
    split
    · exact placed_raise ..
    · exact (placed_takeFree c).trans ((placed_takeFree _).trans ((placed_releaseGroup ..).trans (placed_setSched ..)))

/-- A level of the draft model takes cores, if there are any. -/
theorem placeDraft_step {c : Chip} {p : Nat} {st : Step} {level : Nat} {l : List Nat}
    (h : (schedPart c p).step = some st)
    (hp : st.phase = .draft level l) :
    ∃ st', (schedPart (placeDraft c p st level) p).step = some st' ∧ StepPlaced st st' := by
  unfold placeDraft
  split
  · exact ⟨st, h, StepPlaced.refl st⟩
  · extract_lets own l
    split
    · exact ⟨st, by rw [schedPart_of_parts (schedParts_raise ..), h], StepPlaced.refl st⟩
    · exact ⟨{ st with phase := .draft level l }, by rw [schedPart_setSched_self], rfl, rfl, rfl,
        .inr ⟨level, _, l, hp, rfl⟩⟩

/-! ### The engines of a step through placements -/

theorem engineCore_formSpans (c : Chip) (e : Engine) : engineCore (formSpans c e).1 = engineCore e := by
  unfold formSpans
  dsimp only
  split <;> rfl

theorem engineCore_placeLayer (c : Chip) (p : Nat) (st : Step) (e : Engine) :
    engineCore (placeLayer c p st e).1 = engineCore e := by
  unfold placeLayer
  dsimp only
  split
  · rfl
  · split
    · rfl
    · exact engineCore_formSpans ..

/-- The engines of a step that wait for cores are placed, one after the other. -/
def placeEngines (p : Nat) (st : Step) (l : List Engine) (x : List Engine × Chip) : List Engine × Chip :=
  l.foldl (fun (a : List Engine × Chip) e =>
    if e.ended ∨ e.cores ≠ [] then (a.1 ++ [e], a.2)
    else
      let (e1, c1) := placeLayer a.2 p { st with engines := a.1 ++ st.engines.drop a.1.length } e
      (a.1 ++ [e1], c1)) x

/-- One more engine of them. -/
theorem placeEngines_cons (p : Nat) (st : Step) (e : Engine) (l : List Engine) (x : List Engine × Chip) :
    ∃ e' d, placeEngines p st (e :: l) x = placeEngines p st l (x.1 ++ [e'], d) ∧ engineCore e' = engineCore e ∧
      Placed x.2 d ∧ d.sched.parts = x.2.sched.parts := by
  by_cases h : e.ended ∨ e.cores ≠ []
  · exact ⟨e, x.2, by rw [placeEngines, List.foldl_cons, if_pos h, placeEngines], rfl, Placed.refl _, rfl⟩
  · exact ⟨_, _, by rw [placeEngines, List.foldl_cons, if_neg h, placeEngines], engineCore_placeLayer ..,
      placed_placeLayer .., schedParts_placeLayer ..⟩

theorem placeEngines_keeps (p : Nat) (st : Step) (l : List Engine) (x : List Engine × Chip) :
    (placeEngines p st l x).1.map engineCore = x.1.map engineCore ++ l.map engineCore ∧
      Placed x.2 (placeEngines p st l x).2 ∧ (placeEngines p st l x).2.sched.parts = x.2.sched.parts := by
  induction l generalizing x with
  | nil => exact ⟨(List.append_nil _).symm, Placed.refl _, rfl⟩
  | cons e r ih =>
    obtain ⟨e', d, he, hcore, hd, hp⟩ := placeEngines_cons p st e r x
    obtain ⟨h1, h2, h3⟩ := ih (x.1 ++ [e'], d)
    rw [he]
    refine ⟨?_, hd.trans h2, h3.trans hp⟩
    rw [h1, List.map_append, List.map_cons, List.map_cons, List.map_nil, hcore, List.append_assoc,
      List.singleton_append]

/-! ### A running step takes cores (R232) -/

/-- The chip once the placements that wait on the cores of a partition have begun. -/
def queuedStarted (c : Chip) (p : Nat) : Chip :=
  ((c.grid.cores.filter (fun k => !k.2.queued.isEmpty && decide (corePart c k.1 = p))).map (·.1)).foldl startQueued c

theorem placed_queuedStarted (c : Chip) (p : Nat) : Placed c (queuedStarted c p) :=
  placed_foldl _ placed_startQueued _ _

theorem schedParts_queuedStarted (c : Chip) (p : Nat) : (queuedStarted c p).sched.parts = c.sched.parts :=
  schedParts_foldl _ schedParts_startQueued _ _

/-- Without a step nothing of the partition's scheduler changes; a running step may have taken cores. -/
theorem placeWaiting_step (c : Chip) (p : Nat) : Placed c (placeWaiting c p) ∧
    ((schedPart c p).step = none → schedPart (placeWaiting c p) p = schedPart c p) ∧
    ∀ st, (schedPart c p).step = some st →
      ∃ st', (schedPart (placeWaiting c p) p).step = some st' ∧ StepPlaced st st' := by
  have hq := placed_queuedStarted c p
  have hs := schedPart_of_parts (schedParts_queuedStarted c p) p
  unfold placeWaiting
  extract_lets d
  rw [show queuedStarted c p = d from rfl] at hq hs
  clear_value d
  rw [← hs]
  split
  next hnone => exact ⟨hq, fun _ => rfl, fun st h => by rw [hnone] at h; cases h⟩
  next st hstep =>
    have hsome : (schedPart d p).step ≠ none := by rw [hstep]; exact Option.some_ne_none _
    have hstays : ∀ st', (schedPart d p).step = some st' →
        ∃ st'', (schedPart d p).step = some st'' ∧ StepPlaced st' st'' := fun st' h => ⟨st', h, StepPlaced.refl st'⟩
    split
    next hphase =>
      split
      · exact ⟨hq, fun h => absurd h hsome, hstays⟩
      · have hr := placeEngines_keeps p st st.engines ([], d)
        obtain ⟨hcore, hplaced, hparts⟩ := hr
        refine ⟨(hq.trans hplaced).trans (placed_setSched ..), fun h => absurd h hsome, fun st' h => ?_⟩
        rw [hstep] at h
        cases h
        exact ⟨{ st with engines := (placeEngines p st st.engines ([], d)).1 },
          congrArg SchedPart.step (schedPart_setSched_self ..), hcore, rfl, rfl, .inl rfl⟩
    next level cores hphase =>
      split
      · refine ⟨hq.trans (placed_placeDraft ..), fun h => absurd h hsome, fun st' h => ?_⟩
        rw [hstep] at h
        cases h
        exact placeDraft_step hstep hphase
      · exact ⟨hq, fun h => absurd h hsome, hstays⟩
    · exact ⟨hq, fun h => absurd h hsome, hstays⟩
    · exact ⟨hq, fun h => absurd h hsome, hstays⟩

end Sys2Proof.Machine
end

section
/-! Commands about a partition's running step that form and end none: RATIO_JUDGE, ACTIVATIONS_ARRIVED, PACING_RELEASE,
and the expiry of a batch hold that is not held (O31). -/

namespace Sys2Proof.Machine

open Sys2Proof.Safety

/-! ### RATIO_JUDGE (R229) -/

theorem ratioJudge_early {c : Chip} {p : Nat} (h : (schedPart c p).window < 64) : ratioJudge c p = c := by
  unfold ratioJudge
  exact if_pos (.inl h)

/-- The value that a window of 64 steps asks of CHUNK_ROWS. -/
def wantRows (c : Chip) (p : Nat) : Nat :=
  let x := schedPart c p
  let h := max 1 (fld (regB c p aSCHED_RATIO_CFG) 19 16)
  let cur := x.chunkNext.getD x.chunkRows
  boundRows c p (if x.dLast + h ≤ x.cLast then cur + 1 else if x.cLast + h ≤ x.dLast then cur - 1 else cur)

/-- Whether the window moves CHUNK_ROWS. -/
def rowsMove (c : Chip) (p : Nat) : Bool :=
  bit (regB c p aSCHED_RATIO_CFG) 31 &&
    decide (wantRows c p ≠ (schedPart c p).chunkNext.getD (schedPart c p).chunkRows)

/-- The window starts anew. -/
def windowReset (x : SchedPart) : SchedPart := { x with window := 0, cLast := 0, dLast := 0 }

theorem ratioJudge_stays {c : Chip} {p : Nat} (hw : 64 ≤ (schedPart c p).window) (hu : isUp c .sched = true)
    (hm : rowsMove c p = false) : ratioJudge c p = setSched c p (windowReset (schedPart c p)) := by
  unfold ratioJudge
  refine (if_neg (fun h => h.elim (by omega) (by rw [hu]; decide))).trans (if_pos ?_)
  rw [rowsMove, Bool.and_eq_false_iff, decide_eq_false_iff_not, not_not] at hm
  exact hm

theorem ratioJudge_moves {c : Chip} {p : Nat} (hw : 64 ≤ (schedPart c p).window) (hu : isUp c .sched = true)
    (hm : rowsMove c p = true) : ratioJudge c p =
      raise (setSched c p { windowReset (schedPart c p) with chunkNext := some (wantRows c p) }) .sched 17 := by
  unfold ratioJudge
  refine (if_neg (fun h => h.elim (by omega) (by rw [hu]; decide))).trans (if_neg ?_)
  rw [rowsMove, Bool.and_eq_true, decide_eq_true_eq] at hm
  obtain ⟨hon, hne⟩ := hm
  exact fun h => h.elim (fun hoff => by rw [hon] at hoff; cases hoff) hne

/-- After the judgement the window starts anew, and CHUNK_ROWS moves at the next boundary if it is to move. -/
theorem ratioJudge_judges {c : Chip} {p : Nat} (hw : 64 ≤ (schedPart c p).window) (hu : isUp c .sched = true) :
    (rowsMove c p = true → bit (hdr (ratioJudge c p) .sched).int 17 = true) ∧
    schedPart (ratioJudge c p) p = { windowReset (schedPart c p) with
      chunkNext := if rowsMove c p = true then some (wantRows c p) else (schedPart c p).chunkNext } := by
  cases hm : rowsMove c p with
  | false =>
    rw [ratioJudge_stays hw hu hm]
    exact ⟨fun h => (Bool.false_ne_true h).elim, schedPart_setSched_self ..⟩
  | true =>
    rw [ratioJudge_moves hw hu hm]
    exact ⟨fun _ => raise_int _ _ _ (by decide),
      (schedPart_of_parts (schedParts_raise ..) p).trans (schedPart_setSched_self ..)⟩

/-! ### ACTIVATIONS_ARRIVED and PACING_RELEASE (R238, R436) -/

/-- A step that waits for activations or for pacing is released: it takes cores. -/
theorem released {c : Chip} {p : Nat} {st : Step} (x : SchedPart) :
    ∃ st', (schedPart (placeWaiting (setSched c p { x with step := some st }) p) p).step = some st' ∧
        StepPlaced st st' :=
  (placeWaiting_step _ p).2.2 st (congrArg SchedPart.step (schedPart_setSched_self ..))

/-- The wait of a step for its activations is shown, and reported when it was the longer part. -/
def peerWaited (c : Chip) (waited compute : Word) : Chip :=
  if compute.toNat < waited.toNat then raise (setReg c aSCHED_PEER_WAIT waited) .sched 20
  else setReg c aSCHED_PEER_WAIT waited

theorem reg_peerWaited (c : Chip) (waited compute : Word) :
    reg (peerWaited c waited compute) aSCHED_PEER_WAIT = waited := by
  unfold peerWaited
  split
  · exact (keepsRegs_raise _ _ _ _ (by decide)).trans (regKey_setKey_all ..)
  · exact regKey_setKey_all ..

theorem schedParts_peerWaited (c : Chip) (waited compute : Word) :
    (peerWaited c waited compute).sched.parts = c.sched.parts := by
  unfold peerWaited
  split
  · exact (schedParts_raise ..).trans (congrArg SchedUnit.parts (setReg_sched ..))
  · exact congrArg SchedUnit.parts (setReg_sched ..)

theorem activationsArrived_eq {c : Chip} {p : Nat} {st : Step} (waited compute : Word)
    (hs : (schedPart c p).step = some st)
    (hw : st.waitPeer = true) : activationsArrived c p waited compute =
      placeWaiting (setSched (peerWaited c waited compute) p { schedPart (peerWaited c waited compute) p with
        step := some { st with waitPeer := false } }) p := by
  unfold activationsArrived
  rw [hs]
  exact if_neg (by rw [hw]; decide)

theorem activationsArrived_releases {c : Chip} {p : Nat} {st : Step} (waited compute : Word)
    (hs : (schedPart c p).step = some st) (hw : st.waitPeer = true) :
    reg (activationsArrived c p waited compute) aSCHED_PEER_WAIT = waited ∧
    (compute.toNat < waited.toNat → bit (hdr (activationsArrived c p waited compute) .sched).int 20 = true) ∧
    ∃ st', (schedPart (activationsArrived c p waited compute) p).step = some st' ∧
      st'.waitPeer = false ∧ st'.engines.map (·.works) = st.engines.map (·.works) := by
  rw [activationsArrived_eq waited compute hs hw]
  obtain ⟨st', hst, hstep⟩ := released (c := peerWaited c waited compute) (p := p) (st := { st with waitPeer := false })
    (schedPart (peerWaited c waited compute) p)
  have hplaced := (placed_setSched (peerWaited c waited compute) p { schedPart (peerWaited c waited compute) p with
    step := some { st with waitPeer := false } }).trans (placeWaiting_step _ p).1
  refine ⟨(hplaced.regs _ (by decide) (by decide)).trans (reg_peerWaited ..), fun hlong => hplaced.ints _ _ ?_,
    st', hst, hstep.waitPeer, hstep.works⟩
  rw [peerWaited, if_pos hlong]
  exact raise_int _ _ _ (by decide)

theorem pacingRelease_releases {c : Chip} {p : Nat} {st : Step} (hs : (schedPart c p).step = some st)
    (hp : st.paced = true) (hf : c.flt.chipPending = false) :
    ∃ st', (schedPart (pacingRelease c p) p).step = some st' ∧ st'.paced = false ∧
      st'.engines.map (·.works) = st.engines.map (·.works) := by
  have hr : pacingRelease c p =
      placeWaiting (setSched c p { schedPart c p with step := some { st with paced := false } }) p := by
    unfold pacingRelease
    rw [hs]
    exact if_neg (by rw [hp, hf]; decide)
  obtain ⟨st', hst, hplaced⟩ := released (c := c) (p := p) (st := { st with paced := false }) (schedPart c p)
  exact ⟨st', by rw [hr, hst], hplaced.paced, hplaced.works⟩

end Sys2Proof.Machine
end

section
/-! What a boundary forms (O31): nothing when no session is eligible, a hold, or a step of one replay row. -/

namespace Sys2Proof.Machine

open Sys2Proof.Safety

/-! ### The queues at a boundary -/

/-- The one operation of the chip waits for a place in a step; no figure, revival or pressure is in progress. -/
structure OneReady (c : Chip) (i : Nat) (o : Op) : Prop where
  ops : c.sess.ops = [(i, [o])]
  phase : o.phase = .ready
  committed : c.fig.committed = []
  waiting : c.fig.waiting = []
  revivals : c.tier.revivals = []
  pressing : c.tier.pressing = []

theorem OneReady.opsOf {c : Chip} {i : Nat} {o : Op} (h : OneReady c i o) : opsOf c i = [o] := by
  rw [Machine.opsOf, h.ops]
  simp [tget, tfind]

theorem OneReady.due {c : Chip} {i : Nat} {o : Op} (h : OneReady c i o) : dueSessions c = [] := by
  rw [dueSessions, h.ops]
  simp [h.phase]

/-- With nothing due, nothing begins. -/
theorem kick_nothingDue {c : Chip} (hd : dueSessions c = []) (hr : c.tier.revivals = []) (hp : c.tier.pressing = []) :
    kick c = c := by
  have hk : ∀ n, kickN (n + 1) c = c := fun n => by simp only [kickN, hd]
  rw [kick, hk, cleanRevivals, hr, pumpPressure, pumpRevivals]
  simp [hp, hr, sortBy]

theorem OneReady.dueAtBoundary {c : Chip} {i : Nat} {o : Op} (h : OneReady c i o) (p : Nat) :
    dueAtBoundary c p = c := by
  unfold Machine.dueAtBoundary
  rw [h.ops, List.map_cons, List.map_nil]
  dsimp only
  rw [if_neg (by rw [h.phase]; exact fun x => by cases x.2.1), ← h.ops]

theorem OneReady.boundaryQueues {c : Chip} {i : Nat} {o : Op} (h : OneReady c i o) (p : Nat) :
    boundaryQueues c p = c := by
  have hpre : preemptRunning c i = c := by rw [preemptRunning, h.opsOf]
  have hfold : ((c.sess.ops.filter (fun e => decide ((entry c e.1).part = p))).map (·.1)).foldl
      preemptRunning c = c := by
    rw [h.ops, List.filter_cons, List.filter_nil]
    split
    · exact hpre
    · rfl
  rw [Machine.boundaryQueues, hfold, h.dueAtBoundary, kick_nothingDue h.due h.revivals h.pressing]

theorem boundaryQueues_noOps {c : Chip} (ho : c.sess.ops = []) (hr : c.tier.revivals = []) (hp : c.tier.pressing = [])
    (p : Nat) : boundaryQueues c p = c := by
  have hdue : dueAtBoundary c p = c := by
    unfold dueAtBoundary
    rw [ho, List.map_nil, ← ho]
  rw [boundaryQueues, ho]
  exact (congrArg kick hdue).trans (kick_idle ho hr hp)

/-! ### The boundary (R219) -/

/-- A boundary at which nothing runs and no queue moves goes on to form a step. -/
theorem stepBoundary_forms {c : Chip} {p : Nat} (late : List Word) (hf : canForm c p = true)
    (hc : c.fig.committed = []) (hq : boundaryQueues c p = c) : stepBoundary c p late = formStep c p false late := by
  have hstep : (schedPart c p).step = none := by
    simp only [canForm, Bool.and_eq_true, Option.isNone_iff_eq_none] at hf
    exact hf.2
  have hadv : advanceStep c p = c := by rw [advanceStep, hstep]
  unfold stepBoundary
  rw [hadv]
  dsimp only
  rw [hstep, settle_idle hc, hq, settle_idle hc]
  exact if_pos hf

/-- CHUNK_ROWS is all that a boundary sets first. -/
theorem ratioAtBoundary_eq (c : Chip) (p : Nat) : ∃ x : SchedPart, ratioAtBoundary c p = setSched c p x ∧
    x.step = (schedPart c p).step := by
  unfold ratioAtBoundary
  dsimp only
  split
  · exact ⟨_, rfl, rfl⟩
  · split
    · exact ⟨_, rfl, rfl⟩
    · exact ⟨_, rfl, rfl⟩

/-- SCHED.QUEUE as a boundary shows it, of the sessions that TIER serves among the eligible ones. -/
def queueShown (p : Nat) (all served : List (Nat × Op)) (c : Chip) : Chip :=
  let chk := served.filter (fun x => isChunk x.2)
  let dec := served.filter (fun x => !isChunk x.2)
  let c1 := setRegB c p aSCHED_QUEUE (w32 (min 65535 chk.length * 65536 + min 65535 dec.length))
  if isOn c1 .tier && decide (served.length < all.length) then raise c1 .tier 17 else c1

/-- A boundary ends with no step, and with or without a hold. -/
def boundaryEnds (c : Chip) (p : Nat) (hold : Bool) : Chip := setSched c p { schedPart c p with holding := hold }

/-- A step is formed of works, as far as its staging space goes. -/
def stepReserved (c : Chip) (p : Nat) (el : List (Nat × Op)) (ws : List Work) : Chip :=
  let x := reserveStage c ws
  let gone := ws.filter (fun w => x.1.all (fun y => y.idx ≠ w.idx))
  let c1 := leftOut (gone.foldl (fun c w => freeStaged c w.blocks) c) p (el.length - x.1.length)
  if x.1.isEmpty then c1 else releaseStep c1 p x.1 x.2

/-- The forming of a step in its branches. -/
theorem formStep_eq {c c0 d : Chip} {p : Nat} {el : List (Nat × Op)} {ws : List Work} (force : Bool) (late : List Word)
    (h0 : ratioAtBoundary c p = c0)
    (hs : serveSeals c0 late ((eligible c0 p).length + 1) (eligible c0 p) = (el, ws, d)) :
    formStep c p force late =
      if el.isEmpty then boundaryEnds (queueShown p (eligible c0 p) el c0) p false
      else if !force ∧ (el.filter (fun x => isChunk x.2)).isEmpty ∧ (batchHold c0).2 ≠ 0 ∧
          (el.filter (fun x => !isChunk x.2)).length < (batchHold c0).1 then
        boundaryEnds (queueShown p (eligible c0 p) el c0) p true
      else if (listOf c0 (rowsOf c0 p)).isEmpty then raise (queueShown p (eligible c0 p) el c0) .sched 16
      else stepReserved (queueShown p (eligible c0 p) el d) p el ws := by
  unfold formStep
  dsimp only
  rw [h0, hs]
  rfl

theorem queueShown_served {p chk dec : Nat} {el : List (Nat × Op)} (c : Chip)
    (hc : (el.filter (fun x => isChunk x.2)).length = chk) (hd : (el.filter (fun x => !isChunk x.2)).length = dec) :
    queueShown p el el c = setRegB c p aSCHED_QUEUE (w32 (min 65535 chk * 65536 + min 65535 dec)) := by
  subst hc hd
  rw [queueShown]
  exact if_neg (by simp)

/-- Without an eligible session no step is formed and none is held. -/
theorem formStep_nothing {c : Chip} {p : Nat} (force : Bool) (late : List Word)
    (he : eligible (ratioAtBoundary c p) p = []) : formStep c p force late =
      boundaryEnds (setRegB (ratioAtBoundary c p) p aSCHED_QUEUE 0) p false := by
  rw [formStep_eq force late rfl (el := []) (ws := []) (d := ratioAtBoundary c p) (by rw [he]; rfl), he,
    queueShown_served (chk := 0) (dec := 0) _ rfl rfl]
  rfl

/-! ### One replay row (R192, R221-R227) -/

/-- A GENERATE at its first token that waits for a step of its partition. -/
structure FirstToken (c : Chip) (p i : Nat) (o : Op) : Prop where
  ops : c.sess.ops = [(i, [o])]
  waiting : c.fig.waiting = []
  code : o.code = 3
  phase : o.phase = .ready
  final : o.final = none
  carried : o.carried = none
  drainEnd : o.drainEnd = false
  part : (entry c i).part = p
  state : (entry c i).state = .ready ∨ (entry c i).state = .running
  model : modelValid c (entry c i).model = true

/-- Its part of a step. -/
def replayWork (i : Nat) : Work :=
  { idx := i, kind := .replay, tokens := [], rows := 1, tree := [], stage := 0, blocks := [], fresh := [], draws := [],
    deadNodes := [], recur := [], outs := [], bad := false }

section
variable {c : Chip} {p i : Nat} {o : Op} (h : FirstToken c p i o)
include h

theorem FirstToken.opsOf : opsOf c i = [o] := by
  rw [Machine.opsOf, h.ops]
  simp [tget, tfind]

theorem FirstToken.kindOf : kindOf o = .replay := by
  rw [Machine.kindOf, h.code, h.final, h.carried]
  rfl

theorem FirstToken.isChunk : isChunk o = false := by
  rw [Machine.isChunk, h.code]
  rfl

theorem FirstToken.eligible : eligible c p = [(i, o)] := by
  have hone : eligibleOp c p i = some o := by
    unfold eligibleOp
    rw [h.opsOf]
    refine if_pos ⟨h.part, h.state, .inr h.code, h.phase, h.drainEnd, rfl, h.model, ?_⟩
    rw [figWaits, h.waiting]
    rfl
  rw [Machine.eligible, h.ops, List.filterMap_cons, hone]
  rfl

theorem FirstToken.mkWork (late : List Word) : mkWork c late (i, o) = replayWork i := by
  simp only [Machine.mkWork, h.kindOf, replayWork]

theorem FirstToken.pickWorks (late : List Word) : pickWorks c late [(i, o)] = [replayWork i] := by
  have hmax : 1 ≤ decodeMax c := by
    rw [decodeMax]
    omega
  obtain ⟨n, hn⟩ := Nat.exists_eq_add_of_le' hmax
  simp [Machine.pickWorks, sameSlot, h.isChunk, hn, withinBudget, h.mkWork]

theorem FirstToken.serveSeals (late : List Word) :
    serveSeals c late ([(i, o)].length + 1) [(i, o)] = ([(i, o)], [replayWork i], c) := by
  have hsizes : sealSizes c (replayWork i) = [] := by
    simp [sealSizes, workSpan, replayWork]
  have hseals : reserveSeals c [replayWork i] = ([replayWork i], c) := by
    rw [reserveSeals, List.foldl_cons, List.foldl_nil, hsizes]
    rfl
  simp only [List.length_singleton, Machine.serveSeals, h.pickWorks, hseals]
  simp

end

end Sys2Proof.Machine
end

section
/-! A session joins the step that a boundary formed, and the step is released (O31). -/

namespace Sys2Proof.Machine

open Sys2Proof.Safety

/-! ### A session's queue -/

@[simp] theorem opsOf_setOps_self (c : Chip) (i : Nat) (l : List Op) : opsOf (setOps c i l) i = l :=
  tget_tset_self _ _ _ _

theorem opsOf_of_sess {c d : Chip} (h : d.sess = c.sess) (i : Nat) : opsOf d i = opsOf c i := by rw [opsOf, h, opsOf]

theorem setHead_one {c : Chip} {i : Nat} {o : Op} (n : Op) (h : opsOf c i = [o]) : setHead c i n = setOps c i [n] := by
  rw [setHead, h]

/-! ### The figure that a READY session joins with -/

/-- The registers that the opening of a figure counts in. -/
def openRegs : List Nat := aFIG_STALL_CNT :: commitRegs

theorem reserved_logFills (c d : Chip) : (logFills c d).fig.reserved = d.fig.reserved := by
  unfold logFills
  split
  · exact congrArg (·.fig.reserved) (quiet_raise d .fig 17)
  · rfl

theorem reserved_figLogged (c : Chip) (f : Figure) : (figLogged c f).fig.reserved = c.fig.reserved := rfl

theorem reserved_commitCounted (c : Chip) (lat : Nat) : (commitCounted c lat).fig.reserved = c.fig.reserved :=
  congrArg (·.fig.reserved) (quiet_commitCounted c lat)

/-- What a chip shows of the session that joins a step. -/
structure Joined (c d : Chip) (i : Nat) : Prop where
  phase : (opsOf d i).map (·.phase) = (opsOf c i).map (·.phase)
  reserved : d.fig.reserved = c.fig.reserved
  regs : ∀ k, eventKey k = false → k ∉ openRegs.map (rkey 0) → regKey d k = regKey c k

/-- A figure that has to wait, and is counted as one that waits for space or is not. -/
theorem waits_joined (c : Chip) (g : FigUnit) (i n : Nat) (h : g.reserved = c.fig.reserved) :
    Joined c (bump { c with fig := g } aFIG_STALL_CNT n) i :=
  have hq := quiet_bump { c with fig := g } aFIG_STALL_CNT n
  ⟨congrArg (List.map (·.phase)) (opsOf_of_sess (congrArg (·.sess) hq) i), (congrArg (·.fig.reserved) hq).trans h,
    fun _ _ hk => regKey_bump_other _ _ _ (fun he => hk (he ▸ List.mem_cons_self ..))⟩

/-- A figure that records its number in its session's operation. -/
theorem openFig_joined {c : Chip} {f : Figure} {i : Nat} {o : Op} (hf : f.after = [.opFig i]) (ho : opsOf c i = [o]) :
    Joined c (openFig c f) i := by
  unfold openFig
  split
  · have hm : CommitMoved c (logFills (stamped c) (commitCounted (figLogged c f) (takeFree c).1)) f :=
      (commitCounted_moved c f _).fills
    have hr : (logFills (stamped c) (commitCounted (figLogged c f) (takeFree c).1)).fig.reserved = c.fig.reserved := by
      rw [reserved_logFills, reserved_commitCounted, reserved_figLogged]
    rw [commitFig_eq, hf, List.foldl_cons, List.foldl_nil]
    generalize logFills (stamped c) (commitCounted (figLogged c f) (takeFree c).1) = d at hm hr
    have hsess : d.sess = c.sess := congrArg (·.sess) hm.quiet
    have hops := (opsOf_of_sess hsess i).trans ho
    have hafter : afterOne d (c.fig.seq + 1) (.opFig i) = setOps d i [{ o with lastFig := c.fig.seq + 1 }] := by
      rw [afterOne, hops]
    rw [hafter]
    refine ⟨?_, hr, fun k h1 h2 => hm.regs k h1 (fun h => h2 (List.mem_cons_of_mem _ h))⟩
    rw [opsOf_setOps_self, ho]
    rfl
  · exact waits_joined c _ i _ rfl

/-- A chip whose sessions' queues and jobs alone changed, with one operation in the session's queue. -/
structure Queued (c d : Chip) (i : Nat) : Prop where
  one : ∃ x, opsOf d i = [x]
  cached : d.sess.cached = c.sess.cached
  fig : d.fig = c.fig
  regs : ∀ k, regKey d k = regKey c k

/-- The job of a session's first step is counted as started. -/
theorem jobStarted_queued {c : Chip} {i : Nat} {o : Op} (ho : opsOf c i = [o]) (p client : Nat) (j : Nat × Nat × Nat) :
    Queued c (if o.started then c else setJobs (setHead c i { o with started := true }) p client j) i := by
  split
  · exact ⟨⟨o, ho⟩, rfl, rfl, fun _ => rfl⟩
  · rw [setHead_one _ ho]
    exact ⟨⟨_, opsOf_setOps_self c i _⟩, rfl, rfl, fun _ => rfl⟩

/-- A session in the cache takes its running operation. -/
theorem touch_setHead {c d : Chip} {i : Nat} (n : Op) (h : Queued c d i) (hi : i ∈ c.sess.cached) :
    touch (setHead d i n) i = setOps d i [n] := by
  obtain ⟨x, hx⟩ := h.one
  rw [setHead_one n hx, touch]
  exact if_pos (by rw [← h.cached] at hi; exact hi)

/-- The operation of the session runs, its job is counted as started. -/
theorem joinStep_joins {c : Chip} {i : Nat} {o : Op} (ho : opsOf c i = [o]) (hi : i ∈ c.sess.cached) :
    (opsOf (joinStep c i) i).map (·.phase) = [.running] ∧ (joinStep c i).fig.reserved = c.fig.reserved ∧
    ∀ k, eventKey k = false → k ∉ openRegs.map (rkey 0) → regKey (joinStep c i) k = regKey c k := by
  unfold joinStep
  rw [ho]
  dsimp only
  have hq := jobStarted_queued ho (entry c i).part (entry c i).client
    ((jobs c (entry c i).part (entry c i).client).1 + 1, (jobs c (entry c i).part (entry c i).client).2)
  generalize (if o.started then c else setJobs _ _ _ _) = c1 at hq ⊢
  rw [touch_setHead _ hq hi]
  have hone := opsOf_setOps_self c1 i [{ o with started := true, phase := .running }]
  have hfig : (setOps c1 i [{ o with started := true, phase := .running }]).fig = c.fig := hq.fig
  have hregs : ∀ k, regKey (setOps c1 i [{ o with started := true, phase := .running }]) k = regKey c k := hq.regs
  generalize setOps c1 i [{ o with started := true, phase := .running }] = d at hone hfig hregs ⊢
  split
  · have hj := openFig_joined (f := sessFig d i { entry d i with state := .running } [] [.opFig i]) rfl hone
    exact ⟨by rw [hj.phase, hone]; rfl, hj.reserved.trans (by rw [hfig]),
      fun k h1 h2 => (hj.regs k h1 h2).trans (hregs k)⟩
  · exact ⟨by rw [hone]; rfl, by rw [hfig], fun k _ _ => hregs k⟩

end Sys2Proof.Machine
end

section
/-! A boundary forms a step of one replay row (O31). -/

namespace Sys2Proof.Machine

open Sys2Proof.Safety

/-- What shows that a step of one replay row runs, with its reservation. -/
structure OneFormed (c d : Chip) (p i : Nat) : Prop where
  step : ∃ st, (schedPart d p).step = some st ∧
    st.engines.map (fun e => (e.kind, e.works.map (fun w => (w.idx, w.kind, w.rows)))) = [(.decode, [(i, .replay, 1)])]
  phase : (opsOf d i).map (·.phase) = [.running]
  queue : regB d p aSCHED_QUEUE = 1
  reserved : d.fig.reserved = c.fig.reserved + 65536

/-- The replay row with the staging space of its figure. -/
def stagedReplay (i : Nat) : Work := { replayWork i with stage := 65536 }

/-! ### The engines -/

theorem stepOrder_one (c : Chip) (w : Work) : stepOrder c [w] = [w] := by
  rw [stepOrder]
  split <;> rfl

theorem mkEngines_replay (c : Chip) (p i : Nat) :
    (mkEngines c p [stagedReplay i] []).map (fun e => (e.kind, e.works.map (fun w => (w.idx, w.kind, w.rows)))) =
      [(.decode, [(i, .replay, 1)])] := by
  simp [mkEngines, stepOrder_one, stagedReplay, replayWork]

/-! ### The release -/

/-- The step that a release begins. -/
def releasedStep (c : Chip) (engines : List Engine) (v : Nat) : Step :=
  { engines := engines, waitPeer := ringSplit c, paced := v % 2 = 0, affinity := affinity c, spec := isOn c .spec }

/-- A pacing decision may have been drawn. -/
def paceDrawn (c : Chip) (p : Nat) : Nat × Chip := if paceOf c p < 65536 then takeFree c else (1, c)

theorem paceDrawn_keeps (c : Chip) (p : Nat) : Placed c (paceDrawn c p).2 := by
  rw [paceDrawn]
  split
  · exact placed_takeFree c
  · exact Placed.refl c

/-- The chip with a step of a partition set. -/
def stepSet (c : Chip) (p : Nat) (st : Step) : Chip :=
  let d := setSched c p { schedPart c p with step := some st, holding := false }
  if ringSplit c then d else setReg d aSCHED_PEER_WAIT 0

theorem stepSet_step (c : Chip) (p : Nat) (st : Step) : (schedPart (stepSet c p st) p).step = some st := by
  unfold stepSet
  dsimp only
  split
  · rw [schedPart_setSched_self]
  · exact congrArg SchedPart.step (schedPart_setSched_self ..)

theorem stepSet_keeps (c : Chip) (p : Nat) (st : Step) : (stepSet c p st).sess = c.sess ∧ (stepSet c p st).fig = c.fig ∧
    ∀ k, k ≠ rkey 0 aSCHED_PEER_WAIT → regKey (stepSet c p st) k = regKey c k := by
  unfold stepSet
  dsimp only
  split
  · exact ⟨rfl, rfl, fun _ _ => rfl⟩
  · exact ⟨rfl, rfl, fun _ h => regKey_setKey_other _ _ _ _ _ h⟩

theorem releaseStep_eq (c : Chip) (p i : Nat) : releaseStep c p [stagedReplay i] false =
    let c3 := joinStep { c with fig := { c.fig with reserved := c.fig.reserved + 65536 } } i
    let x := paceDrawn c3 p
    placeWaiting (stepSet x.2 p (releasedStep x.2 (mkEngines c p [stagedReplay i] []) x.1)) p := rfl

theorem queueKey_plain (p : Nat) : eventKey (rkey p aSCHED_QUEUE) = false ∧
    rkey p aSCHED_QUEUE ∉ openRegs.map (rkey 0) ∧ rkey p aSCHED_QUEUE ≠ rkey 0 aSCHED_PEER_WAIT ∧
    rkey p aSCHED_QUEUE ≠ rkey 0 aATTN_SPANS := by
  have hlt : aSCHED_QUEUE < bankStride := by decide
  refine ⟨?_, fun h => ?_, rkey_apart hlt (by decide) (by decide), rkey_apart hlt (by decide) (by decide)⟩
  · rw [eventKey, rkey_mod hlt]
    decide
  · obtain ⟨a, ha, he⟩ := List.mem_map.mp h
    have hall : ∀ a ∈ openRegs, a < bankStride ∧ a ≠ aSCHED_QUEUE := by decide
    exact rkey_apart (hall a ha).1 hlt (hall a ha).2 he

/-- The release of a replay row, with the queue shown. -/
theorem releaseStep_formed {c : Chip} {p i : Nat} {o : Op} (ho : opsOf c i = [o]) (hi : i ∈ c.sess.cached)
    (hq : regB c p aSCHED_QUEUE = 1) : OneFormed c (releaseStep c p [stagedReplay i] false) p i := by
  obtain ⟨hev, hopen, hwait, hspans⟩ := queueKey_plain p
  rw [releaseStep_eq]
  dsimp only
  obtain ⟨hphase, hres, hregs⟩ :=
    joinStep_joins (c := { c with fig := { c.fig with reserved := c.fig.reserved + 65536 } }) (o := o) ho hi
  generalize joinStep { c with fig := { c.fig with reserved := c.fig.reserved + 65536 } } i = c3 at hphase hres hregs ⊢
  have hpace := paceDrawn_keeps c3 p
  generalize paceDrawn c3 p = x at hpace ⊢
  obtain ⟨hsess, hfig, hset⟩ := stepSet_keeps x.2 p (releasedStep x.2 (mkEngines c p [stagedReplay i] []) x.1)
  have hstep := stepSet_step x.2 p (releasedStep x.2 (mkEngines c p [stagedReplay i] []) x.1)
  generalize stepSet x.2 p (releasedStep x.2 (mkEngines c p [stagedReplay i] []) x.1) = d at hsess hfig hset hstep ⊢
  obtain ⟨hw, _, hplaced⟩ := placeWaiting_step d p
  obtain ⟨st', hst', hsp⟩ := hplaced _ hstep
  refine ⟨⟨st', hst', ?_⟩, ?_, ?_, ?_⟩
  · have := congrArg (List.map (fun (e : EngineKind × Nat × List Nat × List Work × Nat × Nat × Bool) =>
      (e.1, e.2.2.2.1.map (fun w => (w.idx, w.kind, w.rows))))) hsp.engines
    rw [List.map_map, List.map_map] at this
    exact this.trans (mkEngines_replay c p i)
  · rw [opsOf_of_sess (hw.sess.trans (hsess.trans hpace.sess)), hphase]
  · exact (hw.regs _ hev hspans).trans ((hset _ hwait).trans ((hpace.regs _ hev hspans).trans
      ((hregs _ hev hopen).trans hq)))
  · rw [hw.fig, hfig, hpace.fig, hres]

end Sys2Proof.Machine
end

section
/-! The boundaries of O31: nothing eligible, a batch hold, and a step of one replay row. -/

namespace Sys2Proof.Machine

open Sys2Proof.Safety

/-! ### The staging space of a replay row (R227) -/

theorem stageNeed_replay (c : Chip) (i : Nat) : stageNeed c (replayWork i) = 65536 := by
  simp [stageNeed, replayWork]

theorem reserveStage_replay {c : Chip} (i : Nat) (hs : c.fig.staged = 0) (hr : c.fig.reserved = 0) :
    reserveStage c [replayWork i] = ([stagedReplay i], false) := by
  have hsize : 2 ^ 26 ≤ stageSize c := by
    rw [stageSize]
    exact Nat.le_mul_of_pos_left _ (by omega)
  have hfree : 65536 ≤ stageFree c := by
    rw [stageFree, hs, hr]
    omega
  have htrim : trimBack c (stageFree c) 65536 [replayWork i] = [replayWork i] := if_pos hfree
  unfold reserveStage
  simp only [List.map_cons, List.map_nil, List.sum_cons, List.sum_nil, Nat.add_zero,
    stageNeed_replay, List.reverse_singleton, htrim]
  simp [stagedReplay]

theorem stepReserved_replay {c : Chip} (p i : Nat) (o : Op) (hs : c.fig.staged = 0) (hr : c.fig.reserved = 0) :
    stepReserved c p [(i, o)] [replayWork i] = releaseStep c p [stagedReplay i] false := by
  rw [stepReserved, reserveStage_replay i hs hr]
  have hgone : [replayWork i].filter (fun w => [stagedReplay i].all (fun y => y.idx ≠ w.idx)) = [] := by
    simp [stagedReplay, replayWork]
  dsimp only
  rw [hgone]
  rfl

/-! ### One GENERATE at its first token -/

theorem schedParts_setRegB (c : Chip) (b a : Nat) (v : Word) : (setRegB c b a v).sched.parts = c.sched.parts :=
  congrArg (·.parts) (setRegB_sched ..)

theorem FirstToken.withSched {c : Chip} {p i : Nat} {o : Op} (h : FirstToken c p i o) (x : SchedPart) :
    FirstToken (setSched c p x) p i o :=
  ⟨h.ops, h.waiting, h.code, h.phase, h.final, h.carried, h.drainEnd, h.part, h.state, h.model⟩

section
variable {c : Chip} {p i : Nat} {o : Op} (h : FirstToken c p i o)
include h

/-- It waits for the batch hold, or a core, or its step is released. -/
theorem FirstToken.forms (force : Bool) (late : List Word) : ∃ x : SchedPart, x.step = (schedPart c p).step ∧
    formStep c p force late =
      if force = false ∧ (batchHold c).2 ≠ 0 ∧ 1 < (batchHold c).1 then
        boundaryEnds (setRegB (setSched c p x) p aSCHED_QUEUE 1) p true
      else if (listOf c (rowsOf c p)).isEmpty then raise (setRegB (setSched c p x) p aSCHED_QUEUE 1) .sched 16
      else stepReserved (setRegB (setSched c p x) p aSCHED_QUEUE 1) p [(i, o)] [replayWork i] := by
  obtain ⟨x, hx, hstep⟩ := ratioAtBoundary_eq c p
  refine ⟨x, hstep, ?_⟩
  have h0 := h.withSched x
  have hchk : [(i, o)].filter (fun x => Machine.isChunk x.2) = [] := by simp [h.isChunk]
  have hdec : [(i, o)].filter (fun x => !Machine.isChunk x.2) = [(i, o)] := by simp [h.isChunk]
  have hhold : batchHold (setSched c p x) = batchHold c := rfl
  have hlist : listOf (setSched c p x) (rowsOf (setSched c p x) p) = listOf c (rowsOf c p) := rfl
  have hone : w32 (min 65535 ([] : List (Nat × Op)).length * 65536 + min 65535 [(i, o)].length) = 1 := rfl
  have hserve : Machine.serveSeals (setSched c p x) late ((Machine.eligible (setSched c p x) p).length + 1)
      (Machine.eligible (setSched c p x) p) = ([(i, o)], [replayWork i], setSched c p x) := by
    rw [h0.eligible]
    exact h0.serveSeals late
  rw [formStep_eq force late hx hserve, h0.eligible,
    queueShown_served _ (congrArg List.length hchk) (congrArg List.length hdec), hchk, hdec, hhold, hlist, hone]
  simp only [List.isEmpty_cons, List.isEmpty_nil, List.length_singleton, Bool.not_eq_true', true_and,
    Bool.false_eq_true, if_false]

/-- Without a hold, and with a core, its step is formed. -/
theorem FirstToken.formed (force : Bool) (late : List Word) (hs : c.fig.staged = 0) (hr : c.fig.reserved = 0)
    (hi : i ∈ c.sess.cached) (hl : listOf c (rowsOf c p) ≠ [])
    (hn : ¬ (force = false ∧ (batchHold c).2 ≠ 0 ∧ 1 < (batchHold c).1)) :
    OneFormed c (formStep c p force late) p i := by
  obtain ⟨x, -, hform⟩ := h.forms force late
  rw [hform, if_neg hn, if_neg (by rwa [List.isEmpty_iff])]
  have hops : Machine.opsOf (setRegB (setSched c p x) p aSCHED_QUEUE 1) i = [o] :=
    (opsOf_of_sess (c := setSched c p x) (setRegB_sess ..) i).trans h.opsOf
  have hcached : i ∈ (setRegB (setSched c p x) p aSCHED_QUEUE 1).sess.cached := by
    rw [setRegB_sess]
    exact hi
  have hfig : (setRegB (setSched c p x) p aSCHED_QUEUE 1).fig = c.fig := setRegB_fig ..
  have hq := regB_setRegB_self (setSched c p x) p aSCHED_QUEUE 1
  generalize setRegB (setSched c p x) p aSCHED_QUEUE 1 = d at hops hcached hfig hq ⊢
  rw [stepReserved_replay p i o (by rw [hfig, hs]) (by rw [hfig, hr])]
  have hrel := releaseStep_formed hops hcached hq
  exact ⟨hrel.step, hrel.phase, hrel.queue, by rw [hrel.reserved, hfig]⟩

/-- With a hold that asks for more sessions, the boundary waits. -/
theorem FirstToken.holds (late : List Word) (hu : (batchHold c).2 ≠ 0) (hn : 1 < (batchHold c).1) :
    (schedPart (Machine.formStep c p false late) p).holding = true ∧
    (schedPart (Machine.formStep c p false late) p).step = (schedPart c p).step := by
  obtain ⟨x, hstep, hform⟩ := h.forms false late
  rw [hform, if_pos ⟨rfl, hu, hn⟩, boundaryEnds, schedPart_setSched_self]
  refine ⟨rfl, ?_⟩
  dsimp only
  rw [schedPart_of_parts (c := setSched c p x) (schedParts_setRegB ..), schedPart_setSched_self]
  exact hstep

end

theorem regB_boundaryEnds {c : Chip} {p b a : Nat} {hold : Bool} {v : Word} (h : regB c b a = v) :
    regB (boundaryEnds c p hold) b a = v := h

theorem eligible_noOps {c : Chip} (h : c.sess.ops = []) (p : Nat) : eligible c p = [] := by rw [eligible, h]; rfl

/-- With no operation no step is formed, and nothing is held. -/
theorem formStep_noOps {c : Chip} (force : Bool) (late : List Word) {p : Nat} (h : c.sess.ops = []) :
    (schedPart (formStep c p force late) p).step = (schedPart c p).step ∧
    (schedPart (formStep c p force late) p).holding = false ∧ regB (formStep c p force late) p aSCHED_QUEUE = 0 := by
  obtain ⟨x, hx, hstep⟩ := ratioAtBoundary_eq c p
  rw [formStep_nothing force late (by rw [hx]; exact eligible_noOps (c := setSched c p x) h p), hx]
  refine ⟨?_, ?_, regB_boundaryEnds (regB_setRegB_self ..)⟩
  · rw [boundaryEnds, schedPart_setSched_self]
    dsimp only
    rw [schedPart_of_parts (c := setSched c p x) (schedParts_setRegB ..),
      schedPart_setSched_self]
    exact hstep
  · rw [boundaryEnds, schedPart_setSched_self]

end Sys2Proof.Machine
end

section
/-! The end of a step, of its layers and of a level of the draft model (O31): which step stands then. -/

namespace Sys2Proof.Machine

open Sys2Proof.Safety

/-! ### The end of a step (R219) -/

/-- A partition's scheduler once its step is over, with the window of R229. -/
def stepOver (x : SchedPart) (last : Option EngineKind) : SchedPart :=
  let open_ := decide (x.window < 64)
  { x with
    step := none
    window := x.window + b2n open_
    cLast := x.cLast + b2n (open_ && decide (last = some .chunk))
    dLast := x.dLast + b2n (open_ && decide (last = some .decode)) }

/-- One more step since the last round of checkpoints (R413). -/
def ckptStepped (c : Chip) : Chip := { c with ckpt := { c.ckpt with stepsSince := c.ckpt.stepsSince + 1 } }

theorem schedParts_ckptStepped (c : Chip) : (ckptStepped c).sched.parts = c.sched.parts := rfl

/-- The step that ended is counted, and its LAST_STEP shown. -/
def stepCounted (c : Chip) (p : Nat) (stat : Word) : Chip :=
  ckptStepped (setRegB (bumpPairB c p aSCHED_STEP_CNT_LO 1) p aSCHED_LAST_STEP stat)

theorem closeStep_eq (c : Chip) (p : Nat) (tail : Option StepTail) :
    let t := tail.getD { last := none, stat := w32 (takeFree c).1 }
    closeStep c p tail = exploreStep (exploreStep (stepCounted
      (setSched (takeFree c).2 p (stepOver (schedPart (takeFree c).2 p) t.last)) p t.stat) p .decode) p .chunk := rfl

theorem schedParts_stepCounted (c : Chip) (p : Nat) (stat : Word) :
    (stepCounted c p stat).sched.parts = c.sched.parts := by
  rw [stepCounted, schedParts_ckptStepped, setRegB_sched, schedParts_bumpPairB]

theorem closeStep_none (c : Chip) (p : Nat) (tail : Option StepTail) :
    (schedPart (closeStep c p tail) p).step = none := by
  rw [closeStep_eq, schedPart_of_parts (schedParts_exploreStep ..), schedPart_of_parts (schedParts_exploreStep ..),
    schedPart_of_parts (schedParts_stepCounted ..), schedPart_setSched_self]
  rfl

/-- What is left of a step whose figures and draft levels are done: it ends, or its outputs are still being sent. -/
def stepLast (c : Chip) (p : Nat) (st : Step) : Chip :=
  if sentOn c st then endDrained (closeStep c p st.tail) p
  else setSched c p { schedPart c p with step := some { st with phase := .sending } }

theorem stepLast_step (c : Chip) (p : Nat) (st : Step) : (schedPart (stepLast c p st) p).step = none ∨
    (schedPart (stepLast c p st) p).step = some { st with phase := .sending } := by
  unfold stepLast
  split
  · exact .inl (by rw [schedPart_of_parts (schedParts_endDrained ..), closeStep_none])
  · exact .inr (by rw [schedPart_setSched_self])

/-- A step that has left its layers: it is over, or it has the same engines and another phase than that of layers. -/
def Beyond (st : Step) (x : Option Step) : Prop :=
  x = none ∨ ∃ st', x = some st' ∧ st'.phase ≠ .layers ∧ st'.engines.map engineCore = st.engines.map engineCore

theorem advanceStep_figures {c : Chip} {p : Nat} {st : Step} (hs : (schedPart c p).step = some st)
    (hp : st.phase = .figures) : Beyond st (schedPart (advanceStep c p) p).step := by
  unfold advanceStep
  rw [hs]
  dsimp only
  rw [hp]
  dsimp only
  split
  · exact .inr ⟨st, hs, by rw [hp]; exact StepPhase.noConfusion, rfl⟩
  · split
    · obtain ⟨st', hst', hpl⟩ := released (c := c) (p := p) (st := { st with phase := .draft 1 [] }) (schedPart c p)
      refine .inr ⟨st', hst', fun h => ?_, hpl.engines⟩
      obtain he | ⟨_, _, l', _, he⟩ := hpl.phase <;> exact StepPhase.noConfusion (he.symm.trans h)
    · obtain h | h := stepLast_step c p st
      · exact .inl h
      · exact .inr ⟨_, h, StepPhase.noConfusion, rfl⟩

/-- A level of the draft model with nothing to extend is the last one. -/
theorem advanceStep_draft {c : Chip} {p level : Nat} {st : Step} (hs : (schedPart c p).step = some st)
    (hp : st.phase = .draft level []) (hd : draftOps c p = []) : advanceStep c p = stepLast c p st := by
  unfold advanceStep
  rw [hs]
  dsimp only
  rw [hp]
  exact if_pos ⟨rfl, hd⟩

/-! ### The end of the layers -/

/-- A step whose layers are over: its works are done. -/
theorem endLayers_step (c : Chip) (p : Nat) (st : Step) (res : LayerResult) (last : EngineKind) :
    (schedPart (endLayers c p st res last) p).step = none ∨
    ∃ st', (schedPart (endLayers c p st res last) p).step = some st' ∧ st'.phase ≠ .layers ∧
      ∀ y ∈ st'.engines, y.works = [] := by
  unfold endLayers
  extract_lets c1 two st1
  have h := advanceStep_figures (c := setSched c1 p { schedPart c1 p with step := some st1 }) (p := p) (st := st1)
    (congrArg SchedPart.step (schedPart_setSched_self ..)) rfl
  obtain h | ⟨st', h, hphase, hcore⟩ := h
  · exact .inl h
  · refine .inr ⟨st', h, hphase, fun y hy => ?_⟩
    have hmem : engineCore y ∈ st1.engines.map engineCore := hcore ▸ List.mem_map_of_mem hy
    obtain ⟨z, hz, he⟩ := List.mem_map.mp hmem
    obtain ⟨w, -, rfl⟩ := List.mem_map.mp hz
    exact (congrArg (fun x : EngineKind × Nat × List Nat × List Work × Nat × Nat × Bool => x.2.2.2.1) he).symm

/-! ### The end of a draft level (R259) -/

/-- The step goes to its next level, or to its end. -/
theorem draftEnd_step (c : Chip) (p : Nat) (st : Step) (level : Nat) (res : LayerResult) :
    (schedPart (draftEnd c p st level res) p).step = none ∨
    ∃ st', (schedPart (draftEnd c p st level res) p).step = some st' ∧
      (st'.phase = .sending ∨ ∃ l, st'.phase = .draft (level + 1) l) := by
  unfold draftEnd
  extract_lets d c1 x c2
  have h2 : (schedPart c2 p).step = some { st with phase := .draft (level + 1) [] } :=
    congrArg SchedPart.step (schedPart_setSched_self ..)
  split
  next hno =>
    rw [advanceStep_draft h2 rfl (List.isEmpty_iff.mp hno)]
    obtain h | h := stepLast_step c2 p { st with phase := .draft (level + 1) [] }
    · exact .inl h
    · exact .inr ⟨_, h, .inl rfl⟩
  next =>
    obtain ⟨st', hst', hpl⟩ := (placeWaiting_step c2 p).2.2 _ h2
    refine .inr ⟨st', hst', .inr ?_⟩
    obtain he | ⟨_, _, l', h1, he⟩ := hpl.phase
    · exact ⟨_, he⟩
    · cases h1
      exact ⟨l', he⟩

end Sys2Proof.Machine
end

section
/-! The end of a layer (O31): the engine goes on to its next layer, or ends, and with it the layers. -/

namespace Sys2Proof.Machine

open Sys2Proof.Safety

/-! ### What an engine's layer leaves of the engine -/

/-- The place of an engine in its layers, and the sessions that it works for. -/
def engineShape (e : Engine) : Nat × Nat × Bool × List Nat := (e.layer, e.layers, e.ended, e.works.map (·.idx))

theorem engineShape_of_works {e : Engine} {ws : List Work} (h : ws.map (·.idx) = e.works.map (·.idx)) :
    engineShape { e with works := ws } = engineShape e := by
  rw [engineShape, engineShape, h]

theorem idx_mapped (l : List Work) (g : Work → Work) (h : ∀ w, (g w).idx = w.idx) :
    (l.map g).map (·.idx) = l.map (·.idx) := by
  rw [List.map_map]
  exact List.map_congr_left fun w _ => h w

theorem engineShape_noteBad (c : Chip) (l : List Word) (e : Engine) : engineShape (noteBad c l e) = engineShape e :=
  engineShape_of_works (idx_mapped _ _ fun _ => rfl)

theorem idx_attendWork (c : Chip) (open_ : Bool) (a : AttnLayer) (us : List (Nat × SpanUnit))
    (queries : List RowQueries)
    (x : Nat × Work) : (attendWork c open_ a us queries x).idx = x.2.idx := by
  unfold attendWork
  dsimp only
  split <;> rfl

theorem idx_attendLayer (c : Chip) (e : Engine) (s : LayerShape) (queries : List RowQueries) (ws : List Work) :
    (attendLayer c e s queries ws).1.map (·.idx) = ws.map (·.idx) := by
  have hn : ∀ l : List Work, (numbered l).map (fun x => x.2.idx) = l.map (·.idx) := fun l => by
    rw [numbered, show (fun x : Nat × Work => x.2.idx) = (·.idx) ∘ Prod.snd from rfl, ← List.map_map,
      List.map_snd_zip (by rw [List.length_range])]
  unfold attendLayer
  dsimp only
  rw [List.map_map, ← hn]
  exact List.map_congr_left fun x _ => idx_attendWork ..

theorem engineShape_scatterLayer (c : Chip) (e : Engine) (res : LayerResult) :
    engineShape (scatterLayer c e res).1 = engineShape e := by
  unfold scatterLayer
  dsimp only
  split
  · exact engineShape_of_works (idx_mapped _ _ fun _ => rfl)
  · split
    · rfl
    · split
      · rfl
      · exact engineShape_of_works ((idx_attendLayer ..).trans (idx_mapped _ _ fun _ => rfl))

theorem idx_drawWork (c : Chip) (res : LayerResult) (w : Work) : (drawWork c res w).1.idx = w.idx := by
  unfold drawWork
  split
  · rfl
  · split
    · rfl
    · exact foldl_same (fun a : Work × Chip => a.1.idx) _ (fun a r => by dsimp only; split <;> rfl) _ _

/-- The works of an engine are drawn one after the other. -/
def drawWorks (res : LayerResult) (l : List Work) (x : List Work × Chip) : List Work × Chip :=
  l.foldl (fun (a : List Work × Chip) w => (a.1 ++ [(drawWork a.2 res w).1], (drawWork a.2 res w).2)) x

theorem idx_drawWorks (res : LayerResult) (l : List Work) (x : List Work × Chip) :
    (drawWorks res l x).1.map (·.idx) = x.1.map (·.idx) ++ l.map (·.idx) := by
  induction l generalizing x with
  | nil => exact (List.append_nil _).symm
  | cons w r ih =>
    rw [drawWorks, List.foldl_cons]
    refine (ih _).trans ?_
    rw [List.map_append, List.map_cons, List.map_nil, idx_drawWork, List.append_assoc, List.map_cons,
      List.singleton_append]

/-- The engine after its last layer has ended, with the works of the same sessions. -/
theorem endEngine_engine (c : Chip) (e : Engine) (res : LayerResult) :
    (endEngine c e res).1 = { e with works := (drawWorks res e.works ([], c)).1, ended := true, pieces := [] } := rfl

theorem endEngine_ends (c : Chip) (e : Engine) (res : LayerResult) : (endEngine c e res).1.ended = true ∧
    (endEngine c e res).1.works.map (·.idx) = e.works.map (·.idx) := by
  rw [endEngine_engine]
  exact ⟨rfl, idx_drawWorks res e.works ([], c)⟩

/-! ### LAYER_END (R214, R230, R233) -/

/-- A step with the engine of a kind put in place. -/
def enginePut (st : Step) (k : EngineKind) (x : Engine) : Step :=
  { st with engines := st.engines.map (fun y => if y.kind = k then x else y) }

/-- An engine and the chip once its layer has been scattered. -/
def layerScattered (c : Chip) (e : Engine) (res : LayerResult) : Engine × Chip :=
  scatterLayer c (noteBad c res.bad e) res

theorem engineShape_layerScattered (c : Chip) (e : Engine) (res : LayerResult) :
    engineShape (layerScattered c e res).1 = engineShape e :=
  (engineShape_scatterLayer ..).trans (engineShape_noteBad ..)

/-- What follows the scatter of a layer: the next layer, the end of the engine, or the end of the layers. -/
def layerEndFrom (p : Nat) (k : EngineKind) (res : LayerResult) (st : Step) (a : Engine × Chip) : Chip :=
  if a.1.layer + 1 < a.1.layers then
    let b := placeLayer a.2 p st { a.1 with layer := a.1.layer + 1 }
    setSched b.2 p { schedPart b.2 p with step := some (enginePut st k b.1) }
  else
    let b := endEngine a.2 a.1 res
    if (enginePut st k b.1).engines.all (·.ended) then
      kick (settle (endLayers (settle b.2) p (enginePut st k b.1) res k))
    else setSched b.2 p { schedPart b.2 p with step := some (enginePut st k b.1) }

/-- A step in its layers at the end of a layer of an engine that may go on. -/
structure LayerDue (c : Chip) (p : Nat) (k : EngineKind) (st : Step) (e : Engine) : Prop where
  step : (schedPart c p).step = some st
  phase : st.phase = .layers
  engine : st.engines.find? (fun y => decide (y.kind = k) && !y.ended) = some e
  waitPeer : st.waitPeer = false
  paced : st.paced = false
  noFault : c.flt.chipPending = false
  done : layerDone c e = true

section
variable {c : Chip} {p : Nat} {k : EngineKind} {st : Step} {e : Engine} (h : LayerDue c p k st e)
include h

theorem LayerDue.layerEnd_eq (res : LayerResult) :
    layerEnd c p k res = layerEndFrom p k res st (layerScattered c e res) := by
  have hnot : ¬ (st.waitPeer = true ∨ st.paced = true ∨ c.flt.chipPending = true ∨ layerDone c e = false) := by
    rw [h.waitPeer, h.paced, h.noFault, h.done]
    decide
  unfold layerEnd layerScattered
  obtain ⟨hstep, hphase, hengine, -⟩ := h
  cases st
  cases hphase
  simp only [hstep, hengine, if_neg hnot]
  generalize scatterLayer c (noteBad c res.bad e) res = a
  rfl

/-- Before the last layer the engine goes on to the next one. -/
theorem LayerDue.next (res : LayerResult) (hl : e.layer + 1 < e.layers) : ∃ e',
    (schedPart (layerEnd c p k res) p).step = some (enginePut st k e') ∧ e'.layer = e.layer + 1 ∧ e'.ended = false ∧
      e'.works.map (·.idx) = e.works.map (·.idx) := by
  have hshape := engineShape_layerScattered c e res
  have hended : e.ended = false := by
    have := List.find?_some h.engine
    simpa using (Bool.and_eq_true_iff.mp this).2
  rw [h.layerEnd_eq]
  generalize layerScattered c e res = a at hshape ⊢
  rw [layerEndFrom]
  simp only [engineShape, Prod.mk.injEq] at hshape
  obtain ⟨hlayer, hlayers, hend, hidx⟩ := hshape
  rw [if_pos (by rw [hlayer, hlayers]; exact hl)]
  have hcore := engineCore_placeLayer a.2 p st { a.1 with layer := a.1.layer + 1 }
  generalize placeLayer a.2 p st { a.1 with layer := a.1.layer + 1 } = b at hcore ⊢
  simp only [engineCore, Prod.mk.injEq] at hcore
  obtain ⟨-, -, -, hworks, hblayer, -, hbend⟩ := hcore
  exact ⟨b.1, congrArg SchedPart.step (schedPart_setSched_self ..), by rw [hblayer, hlayer],
    by rw [hbend, hend, hended], by rw [hworks, hidx]⟩

/-- The last layer ends the engine, and with no other engine running the layers of the step. -/
theorem LayerDue.last (res : LayerResult) (hl : e.layers ≤ e.layer + 1) : ∃ b : Engine × Chip,
    b = endEngine (layerScattered c e res).2 (layerScattered c e res).1 res ∧ b.1.ended = true ∧
    b.1.works.map (·.idx) = e.works.map (·.idx) ∧
    layerEnd c p k res = if (∀ y ∈ st.engines, y.kind = k ∨ y.ended = true) then
      kick (settle (endLayers (settle b.2) p (enginePut st k b.1) res k))
    else setSched b.2 p { schedPart b.2 p with step := some (enginePut st k b.1) } := by
  have hshape := engineShape_layerScattered c e res
  rw [h.layerEnd_eq]
  generalize layerScattered c e res = a at hshape ⊢
  rw [layerEndFrom]
  simp only [engineShape, Prod.mk.injEq] at hshape
  obtain ⟨hlayer, hlayers, -, hidx⟩ := hshape
  obtain ⟨hended, hworks⟩ := endEngine_ends a.2 a.1 res
  rw [if_neg (by rw [hlayer, hlayers]; exact Nat.not_lt.mpr hl)]
  refine ⟨_, rfl, hended, by rw [hworks, hidx], ?_⟩
  generalize endEngine a.2 a.1 res = b at hended ⊢
  refine if_congr ?_ rfl rfl
  rw [List.all_eq_true, enginePut, List.forall_mem_map]
  refine forall₂_congr fun y _ => ?_
  by_cases hk : y.kind = k
  · rw [if_pos hk]
    exact iff_of_true hended (.inl hk)
  · rw [if_neg hk]
    exact (or_iff_right hk).symm

/-- While another engine runs, the step goes on without this one. -/
theorem LayerDue.engineEnds (res : LayerResult) (hl : e.layers ≤ e.layer + 1)
    (hn : ¬ ∀ y ∈ st.engines, y.kind = k ∨ y.ended = true) : ∃ e',
    (schedPart (layerEnd c p k res) p).step = some (enginePut st k e') ∧ e'.ended = true ∧
      e'.works.map (·.idx) = e.works.map (·.idx) := by
  obtain ⟨b, -, hended, hidx, heq⟩ := h.last res hl
  rw [heq, if_neg hn]
  exact ⟨b.1, congrArg SchedPart.step (schedPart_setSched_self ..), hended, hidx⟩

/-- With no other engine running the layers of the step are over. -/
theorem LayerDue.layersEnd (res : LayerResult) (hl : e.layers ≤ e.layer + 1)
    (ha : ∀ y ∈ st.engines, y.kind = k ∨ y.ended = true) : (schedPart (layerEnd c p k res) p).step = none ∨
    ∃ st', (schedPart (layerEnd c p k res) p).step = some st' ∧ st'.phase ≠ .layers ∧
        ∀ y ∈ st'.engines, y.works = [] := by
  obtain ⟨b, -, -, -, heq⟩ := h.last res hl
  rw [heq, if_pos ha, schedPart_of_parts (schedParts_kick ..), schedPart_of_parts (schedParts_settle ..)]
  exact endLayers_step ..

end

/-! ### The end of a draft level (R259) -/

/-- The end of a level of the draft model at LAYER_END. -/
theorem layerEnd_draft {c : Chip} {p level : Nat} {st : Step} {cores : List Nat} (res : LayerResult)
    (hs : (schedPart c p).step = some st) (hp : st.phase = .draft level cores) (hf : c.flt.chipPending = false)
    (hd : coresDone c .decode cores = true) : (schedPart (layerEnd c p .decode res) p).step = none ∨
    ∃ st', (schedPart (layerEnd c p .decode res) p).step = some st' ∧
      (st'.phase = .sending ∨ ∃ l, st'.phase = .draft (level + 1) l) := by
  have hend : layerEnd c p .decode res = kick (settle (draftEnd c p st level res)) := by
    unfold layerEnd
    rw [hs]
    dsimp only
    rw [hp]
    exact if_neg (by rw [hf, hd]; decide)
  rw [hend, schedPart_of_parts (schedParts_kick ..), schedPart_of_parts (schedParts_settle ..)]
  exact draftEnd_step ..

/-- Between the layers and the end of a step no layer ends. -/
theorem layerEnd_stays {c : Chip} {p : Nat} (k : EngineKind) (res : LayerResult) (h : (schedPart c p).step = none ∨
    ∃ st, (schedPart c p).step = some st ∧ (st.phase = .figures ∨ st.phase = .sending)) : layerEnd c p k res = c := by
  unfold layerEnd
  obtain hn | ⟨st, hs, hp | hp⟩ := h
  · rw [hn]
  · rw [hs]
    dsimp only
    rw [hp]
  · rw [hs]
    dsimp only
    rw [hp]

end Sys2Proof.Machine
end

section
/-! A step whose sessions have no operation is counted at its end (O31): what the rest of the step leaves. -/

namespace Sys2Proof.Machine

open Sys2Proof.Safety

/-! ### What the end of a step leaves of the rest -/

/-- STEP_CNT of the partitions, and CHIP.SPLIT. -/
def calmKey (k : Nat) : Bool :=
  k % bankStride = aSCHED_STEP_CNT_LO || k % bankStride = aSCHED_STEP_CNT_LO + 4 || k % bankStride = aCHIP_SPLIT

/-- Work in progress stands, and so do STEP_CNT and CHIP.SPLIT. -/
structure StepKept (c d : Chip) : Prop where
  work : pendingWork d = pendingWork c
  regs : ∀ k, calmKey k = true → regKey d k = regKey c k

theorem StepKept.refl (c : Chip) : StepKept c c := ⟨rfl, fun _ _ => rfl⟩

theorem StepKept.trans {a b c : Chip} (h : StepKept a b) (g : StepKept b c) : StepKept a c :=
  ⟨g.work.trans h.work, fun k hk => (g.regs k hk).trans (h.regs k hk)⟩

theorem StepKept.foldl {α : Type} {f : Chip → α → Chip} (h : ∀ c x, StepKept c (f c x)) (l : List α) (c : Chip) :
    StepKept c (l.foldl f c) := by
  induction l generalizing c with
  | nil => exact .refl c
  | cons x r ih => exact (h c x).trans (ih (f c x))

/-- Changes beside the registers and the work in progress. -/
theorem StepKept.of_mgmt {c d : Chip} (h : pendingWork d = pendingWork c) (hm : d.mgmt = c.mgmt) : StepKept c d :=
  ⟨h, fun k _ => by rw [regKey, hm, show d.variant = c.variant from congrArg (·.2.2.2.2.2) h, regKey]⟩

theorem StepKept.of_swept {c d : Chip} (h : Swept c d) : StepKept c d := by
  refine ⟨h.work, fun k hk => h.regs k ?_⟩
  simp only [calmKey, Bool.or_eq_true, decide_eq_true_eq] at hk
  rw [sweptKey, noisyKey]
  obtain (hk | hk) | hk := hk
  all_goals
    rw [hk]
    decide

theorem stepKept_setKey (c : Chip) {b a : Nat} (m v : Word) (ha : a < bankStride) (h : calmKey a = false) :
    StepKept c (setKey c (rkey b a) m v) := by
  refine ⟨work_of_quiet (quiet_setKey ..), fun k hk => regKey_setKey_other _ _ _ _ _ fun he => ?_⟩
  rw [he, calmKey, rkey_mod ha, ← Nat.mod_eq_of_lt ha] at hk
  exact absurd (hk.symm.trans h) (by decide)

theorem stepKept_setFld (c : Chip) {a : Nat} (hi lo v : Nat) (ha : a < bankStride) (h : calmKey a = false) :
    StepKept c (setFld c a hi lo v) := stepKept_setKey c _ _ ha h

theorem stepKept_bump (c : Chip) {a : Nat} (n : Nat) (ha : a < bankStride) (h : calmKey a = false) :
    StepKept c (bump c a n) := by
  unfold bump bumpB
  split
  · exact .refl c
  · exact stepKept_setKey c _ _ ha h

theorem stepKept_bumpPair (c : Chip) {a : Nat} (n : Nat) (ha : a + 4 < bankStride) (h : calmKey a = false)
    (h' : calmKey (a + 4) = false) : StepKept c (bumpPair c a n) := by
  unfold bumpPair
  split
  · exact .refl c
  · exact (stepKept_setKey c _ _ (by omega) h).trans (stepKept_setKey _ _ _ ha h')

theorem stepKept_takeFree (c : Chip) : StepKept c (takeFree c).2 := .of_mgmt rfl rfl

theorem stepKept_setSched (c : Chip) (p : Nat) (x : SchedPart) : StepKept c (setSched c p x) := .of_mgmt rfl rfl

theorem StepKept.ringSplit {c d : Chip} (h : StepKept c d) : ringSplit d = ringSplit c :=
  congrArg (fun w => bit w 31) (h.regs (rkey 0 aCHIP_SPLIT) (by decide))

theorem StepKept.stepCnt {c d : Chip} (h : StepKept c d) (p : Nat) :
    pairB d p aSCHED_STEP_CNT_LO = pairB c p aSCHED_STEP_CNT_LO :=
  have hcalm : ∀ a, a < bankStride → calmKey a = true → calmKey (rkey p a) = true := fun a ha h => by
    rwa [calmKey, rkey_mod ha, ← Nat.mod_eq_of_lt ha]
  pairB_kept (h.regs _ (hcalm _ (by decide) (by decide))) (h.regs _ (hcalm _ (by decide) (by decide)))

theorem StepKept.quiescent {c d : Chip} (h : StepKept c d) (hq : Quiescent c) : Quiescent d := by
  have hw := h.work
  simp only [pendingWork, Prod.mk.injEq] at hw
  obtain ⟨ho, hr, hp, hc, hf, -⟩ := hw
  obtain ⟨h1, h2, h3, h4, h5⟩ := hq
  exact ⟨hc.trans h1, hf.trans h2, ho.trans h3, hr.trans h4, hp.trans h5⟩

/-! ### A layer scatters, and its engine ends -/

theorem stepKept_putMem (c : Chip) (a : Nat) (l : List Byte) : StepKept c (putMem c a l) := .of_mgmt rfl rfl

theorem stepKept_scatterWork (c : Chip) (s : LayerShape) (w : Work) : StepKept c (scatterWork c s w) := by
  unfold scatterWork
  dsimp only
  split
  · exact .refl c
  · refine StepKept.foldl (fun d r => ?_) _ _
    split
    · exact stepKept_putMem ..
    · exact .refl d

theorem stepKept_attendLayer (c : Chip) (e : Engine) (s : LayerShape) (queries : List RowQueries) (ws : List Work) :
    StepKept c (attendLayer c e s queries ws).2 := by
  unfold attendLayer
  dsimp only
  split <;> split
  · exact .of_mgmt rfl rfl
  · exact .of_mgmt rfl rfl
  · exact .of_mgmt rfl rfl
  · exact .refl c

theorem stepKept_scatterLayer (c : Chip) (e : Engine) (res : LayerResult) : StepKept c (scatterLayer c e res).2 := by
  unfold scatterLayer
  dsimp only
  split
  · exact .refl c
  · split
    · exact .refl c
    · split
      · exact .refl c
      next s _ =>
        have ha := stepKept_attendLayer c e s res.queries (e.works.map (storeFresh c s res.fresh))
        generalize attendLayer c e s res.queries (e.works.map (storeFresh c s res.fresh)) = x at ha ⊢
        have hw := ha.trans (StepKept.foldl (fun d w => stepKept_scatterWork d s w) x.1 x.2)
        generalize x.1.foldl (fun d w => scatterWork d s w) x.2 = d at hw ⊢
        exact (hw.trans (stepKept_bumpPair d _ (by decide) (by decide) (by decide))).trans
          (stepKept_setFld _ _ _ _ (by decide) (by decide))

theorem drawWork_noOps {c : Chip} (h : c.sess.ops = []) (res : LayerResult) (w : Work) : drawWork c res w = (w, c) := by
  rw [drawWork, opsOf, h]
  rfl

theorem drawWorks_noOps {c : Chip} (h : c.sess.ops = []) (res : LayerResult) (l : List Work) (x : List Work) :
    (drawWorks res l (x, c)).2 = c := by
  induction l generalizing x with
  | nil => rfl
  | cons w r ih =>
    rw [drawWorks, List.foldl_cons, drawWork_noOps h]
    exact ih _

/-- SAMP.BUSY_MAX of the draws. -/
def drawsMeasured (c : Chip) (res : LayerResult) : Chip :=
  if res.logits.isEmpty then (takeFree c).2
  else setFld (takeFree c).2 aSAMP_BUSY_MAX 15 0
    (max (fld (reg (takeFree c).2 aSAMP_BUSY_MAX) 15 0) ((takeFree c).1 % 65536))

theorem stepKept_drawsMeasured (c : Chip) (res : LayerResult) : StepKept c (drawsMeasured c res) := by
  unfold drawsMeasured
  split
  · exact stepKept_takeFree c
  · exact (stepKept_takeFree c).trans (stepKept_setFld _ _ _ _ (by decide) (by decide))

theorem endEngine_chip (c : Chip) (e : Engine) (res : LayerResult) :
    (endEngine c e res).2 = if ringSplit (drawsMeasured (drawWorks res e.works ([], c)).2 res) then
      sendOutputs (drawsMeasured (drawWorks res e.works ([], c)).2 res) res.outputs
    else drawsMeasured (drawWorks res e.works ([], c)).2 res := rfl

theorem stepKept_endEngine {c : Chip} (e : Engine) (res : LayerResult) (ho : c.sess.ops = [])
    (hr : ringSplit c = false) :
    StepKept c (endEngine c e res).2 := by
  have hd := stepKept_drawsMeasured c res
  rw [endEngine_chip, drawWorks_noOps ho, if_neg (by rw [hd.ringSplit, hr]; decide)]
  exact hd

/-! ### Works whose sessions have no operation -/

theorem stepKept_dropGddr (c : Chip) (i : Nat) : StepKept c (dropGddr c i) := by
  unfold dropGddr
  split
  · exact .refl c
  · exact .of_mgmt rfl rfl

theorem stepKept_freeBlock (c : Chip) (i : Nat) : StepKept c (freeBlock c i) := by
  have hl : ∀ (d : Chip) (x : Ledger), StepKept d (setLedger d i x) := fun _ _ => .of_mgmt rfl rfl
  unfold freeBlock
  dsimp only
  refine StepKept.trans ?_ (hl _ _)
  split
  · exact stepKept_dropGddr ..
  · exact (stepKept_dropGddr ..).trans (.of_swept (swept_flashFree ..))

theorem stepKept_voidWork (c : Chip) (w : Work) : StepKept c (voidWork c w) :=
  (StepKept.of_mgmt (c := c) (d := unreserve c w) rfl rfl).trans (StepKept.foldl stepKept_freeBlock w.blocks _)

theorem stepKept_abortOpen {c : Chip} (f : Figure) (h : c.fig.committed = []) : StepKept c (abortOpen c f) := by
  have hb := stepKept_bump c (a := aFIG_ABORT_CNT) 1 (by decide) (by decide)
  obtain ⟨g, m, n, -, hc, hw, heq⟩ := abortOpen_idle f h
  rw [heq]
  generalize bump c aFIG_ABORT_CNT 1 = d at hb
  refine ⟨?_, fun k hk => hb.regs k hk⟩
  have hwork := hb.work
  simp only [pendingWork, Prod.mk.injEq] at hwork ⊢
  obtain ⟨h1, h2, h3, -, -, h6⟩ := hwork
  exact ⟨h1, h2, h3, hc.trans h.symm, hw, h6⟩

theorem stepKept_finishWork {c : Chip} (w : Work) (hq : Quiescent c) : StepKept c (finishWork c w) := by
  have hv := stepKept_voidWork c w
  have hc : (voidWork c w).fig.committed = [] := (hv.quiescent hq).1
  have ho : opsOf c w.idx = [] := by
    rw [opsOf, hq.2.2.1]
    rfl
  unfold finishWork
  rw [ho]
  dsimp only
  rw [abortWork]
  generalize voidWork c w = d at hv hc ⊢
  split
  · exact hv
  · exact hv.trans (stepKept_abortOpen _ hc)

theorem stepKept_finishWorks (l : List Work) {c : Chip} (hq : Quiescent c) : StepKept c (l.foldl finishWork c) := by
  induction l generalizing c with
  | nil => exact .refl c
  | cons w r ih =>
    have hw := stepKept_finishWork w hq
    exact hw.trans (ih (hw.quiescent hq))

/-! ### The step is counted -/

theorem stepKept_exploreStep (c : Chip) (p : Nat) (k : EngineKind) : StepKept c (exploreStep c p k) := by
  have hset : ∀ (d : Chip) (ys : List Nat) (v : Nat), StepKept d (setRowPoints d ys v) := fun d ys v =>
    StepKept.foldl (fun x y => stepKept_setFld x _ _ _ (by split <;> decide) (by split <;> decide)) _ _
  unfold exploreStep
  dsimp only
  split
  · exact .refl c
  · split
    · exact .of_mgmt rfl rfl
    · split
      · exact .of_mgmt rfl rfl
      · exact StepKept.trans (b := { c with pwr := { c.pwr with exploring := tdel c.pwr.exploring _ } })
          (.of_mgmt rfl rfl) (hset _ _ _)

/-- STEP_CNT has gone up by one; work in progress stands. -/
structure StepsUp (c d : Chip) (p : Nat) : Prop where
  work : pendingWork d = pendingWork c
  count : pairB d p aSCHED_STEP_CNT_LO = (pairB c p aSCHED_STEP_CNT_LO + 1) % 2 ^ 64

theorem StepKept.up {a b c : Chip} {p : Nat} (h : StepKept a b) (g : StepsUp b c p) : StepsUp a c p :=
  ⟨g.work.trans h.work, by rw [g.count, h.stepCnt]⟩

theorem StepsUp.kept {a b c : Chip} {p : Nat} (h : StepsUp a b p) (g : StepKept b c) : StepsUp a c p :=
  ⟨g.work.trans h.work, by rw [g.stepCnt, h.count]⟩

theorem bumpPairB_up (c : Chip) (p : Nat) : StepsUp c (bumpPairB c p aSCHED_STEP_CNT_LO 1) p :=
  ⟨work_of_quiet (quiet_bumpPairB ..), pairB_bumpPairB ..⟩

theorem stepKept_setRegB (c : Chip) (b : Nat) {a : Nat} (v : Word) (ha : a < bankStride) (h : calmKey a = false) :
    StepKept c (setRegB c b a v) := stepKept_setKey c _ v ha h

theorem stepKept_ckptStepped (c : Chip) : StepKept c (ckptStepped c) := .of_mgmt rfl rfl

theorem stepCounted_up (c : Chip) (p : Nat) (stat : Word) : StepsUp c (stepCounted c p stat) p :=
  ((bumpPairB_up c p).kept (stepKept_setRegB _ p stat (by decide) (by decide))).kept (stepKept_ckptStepped _)

theorem closeStep_up (c : Chip) (p : Nat) (tail : Option StepTail) : StepsUp c (closeStep c p tail) p := by
  have h1 : StepKept c (setSched (takeFree c).2 p (stepOver (schedPart (takeFree c).2 p)
    (tail.getD { last := none, stat := w32 (takeFree c).1 }).last)) :=
    (stepKept_takeFree c).trans (stepKept_setSched ..)
  rw [closeStep_eq]
  exact ((h1.up (stepCounted_up ..)).kept (stepKept_exploreStep ..)).kept (stepKept_exploreStep ..)

/-- A step whose figures are done, with no operation and nothing to send on, is over. -/
theorem advanceStep_over {c : Chip} {p : Nat} {st : Step} (hs : (schedPart c p).step = some st)
    (hp : st.phase = .figures) (ht : st.sendTo = none) (hq : Quiescent c) :
    advanceStep c p = closeStep c p st.tail := by
  have hwaits : stepFigWaits c p = false := by
    rw [stepFigWaits, hq.2.1]
    rfl
  have hdraft : ¬ draftOps c p ≠ [] := by
    rw [draftOps, hq.2.2.1]
    exact fun h => h rfl
  have hsent : sentOn c st = true := by rw [sentOn, ht]
  have hops : (closeStep c p st.tail).sess.ops = [] :=
    (congrArg (·.1) (closeStep_up c p st.tail).work).trans hq.2.2.1
  have hdrained : endDrained (closeStep c p st.tail) p = closeStep c p st.tail := by
    rw [endDrained, hops]
    rfl
  unfold advanceStep
  rw [hs]
  dsimp only
  rw [hp]
  dsimp only
  rw [hwaits, if_neg Bool.false_ne_true, if_neg hdraft, if_pos hsent, hdrained]

/-- The layers of a step whose sessions have no operation end with the step, which is counted. -/
theorem endLayers_counts {c : Chip} {p : Nat} (st : Step) (res : LayerResult) (last : EngineKind) (hq : Quiescent c)
    (hr : ringSplit c = false) : StepsUp c (endLayers c p st res last) p ∧
      (schedPart (endLayers c p st res last) p).step = none := by
  have hk := stepKept_finishWorks (st.engines.flatMap (·.works)) hq
  unfold endLayers
  extract_lets c1 two st1
  rw [show (st.engines.flatMap (·.works)).foldl finishWork c = c1 from rfl] at hk
  have hsend : st1.sendTo = none := if_neg (by rw [hk.ringSplit, hr]; decide)
  clear_value c1
  have hset := hk.trans (stepKept_setSched c1 p { schedPart c1 p with step := some st1 })
  have hstep : (schedPart (setSched c1 p { schedPart c1 p with step := some st1 }) p).step = some st1 :=
    congrArg SchedPart.step (schedPart_setSched_self ..)
  generalize setSched c1 p { schedPart c1 p with step := some st1 } = d at hset hstep ⊢
  rw [advanceStep_over hstep rfl hsend (hset.quiescent hq)]
  exact ⟨hset.up (closeStep_up ..), closeStep_none ..⟩

/-- The last layer of such a step at LAYER_END. -/
theorem LayerDue.counts {c : Chip} {p : Nat} {k : EngineKind} {st : Step} {e : Engine} (h : LayerDue c p k st e)
    (res : LayerResult) (hl : e.layers ≤ e.layer + 1) (ha : ∀ y ∈ st.engines, y.kind = k ∨ y.ended = true)
    (hq : Quiescent c) (hr : ringSplit c = false) : (schedPart (layerEnd c p k res) p).step = none ∧
      pairB (layerEnd c p k res) p aSCHED_STEP_CNT_LO = (pairB c p aSCHED_STEP_CNT_LO + 1) % 2 ^ 64 := by
  obtain ⟨b, hb, -, -, heq⟩ := h.last res hl
  have hs : StepKept c (layerScattered c e res).2 := stepKept_scatterLayer ..
  have hqs := hs.quiescent hq
  have hkept : StepKept c b.2 := by
    rw [hb]
    exact hs.trans (stepKept_endEngine _ _ hqs.2.2.1 (by rw [hs.ringSplit, hr]))
  have hqb := hkept.quiescent hq
  have hend := endLayers_counts (p := p) (enginePut st k b.1) res k hqb (by rw [hkept.ringSplit, hr])
  rw [heq, if_pos ha, settle_idle hqb.1]
  generalize endLayers b.2 p (enginePut st k b.1) res k = d at hend ⊢
  obtain ⟨hup, hnone⟩ := hend
  have hqd := hup.work
  simp only [pendingWork, Prod.mk.injEq] at hqd
  obtain ⟨h1, h2, h3, h4, -, -⟩ := hqd
  obtain ⟨g1, -, g3, g4, g5⟩ := hqb
  rw [settle_idle (h4.trans g1), kick_idle (h1.trans g3) (h2.trans g4) (h3.trans g5)]
  exact ⟨hnone, by rw [hup.count, hkept.stepCnt]⟩

end Sys2Proof.Machine
end

section
/-! The steps of a partition (O31): boundaries, layers, levels of the draft model, and what releases a step. -/

namespace Sys2Proof.Machine

open Sys2Proof.Safety

/-! ### After a command -/

theorem schedPart_after (s : State) (c : Chip) (p : Nat) : schedPart (after s c).toChip p = schedPart c p := rfl

theorem opsOf_after (s : State) (c : Chip) (i : Nat) : opsOf (after s c).toChip i = opsOf c i := rfl

theorem pairB_after (s : State) (c : Chip) (b a : Nat) : pairB (after s c).toChip b a = pairB c b a := rfl

theorem fig_after (s : State) (c : Chip) : (after s c).fig = c.fig := rfl

/-- A command of the fast domain completes with what its effect shows. -/
theorem completes_awake {i : Instr} {s : State} {c : Chip} {P : State → Prop} (he : exec i s = .next (after s c))
    (h : P (after s c)) : Completes i s P := ⟨after s c, he, rfl, h⟩

theorem OneFormed.after {s : State} {c : Chip} {p i : Nat} (h : OneFormed s.toChip c p i) :
    (∃ st, (schedPart (after s c).toChip p).step = some st ∧
      st.engines.map (fun e => (e.kind, e.works.map (fun w => (w.idx, w.kind, w.rows)))) =
        [(.decode, [(i, .replay, 1)])]) ∧
    (opsOf (after s c).toChip i).map (·.phase) = [.running] ∧ regB (after s c).toChip p aSCHED_QUEUE = 1 ∧
    (after s c).fig.reserved = s.fig.reserved + 65536 := by
  rw [schedPart_after, opsOf_after, regB_after, fig_after]
  exact ⟨h.step, h.phase, h.queue, h.reserved⟩

/-! ### Boundaries (R219, R224) -/

/-- BATCH_HOLD_EXPIRY of a partition. -/
def holdExpired (c : Chip) (p : Nat) (late : List Word) : Chip :=
  if (schedPart c p).holding ∧ canForm c p then formStep (settle (boundaryQueues (settle c) p)) p true late else c

theorem canForm_noStep {c : Chip} {p : Nat} (h : canForm c p = true) : (schedPart c p).step = none := by
  simp only [canForm, Bool.and_eq_true, Option.isNone_iff_eq_none] at h
  exact h.2

/-- No figure, revival or heap pressure is in progress. -/
structure FigStill (c : Chip) : Prop where
  committed : c.fig.committed = []
  waiting : c.fig.waiting = []
  revivals : c.tier.revivals = []
  pressing : c.tier.pressing = []

/-- The one operation of the chip is a GENERATE at its first token, for which there is room. -/
structure OneGenerate (c : Chip) (p i : Nat) (o : Op) : Prop where
  first : FirstToken c p i o
  still : FigStill c
  cached : i ∈ c.sess.cached
  staged : c.fig.staged = 0
  reserved : c.fig.reserved = 0
  cores : listOf c (rowsOf c p) ≠ []

section
variable {c : Chip} {p i : Nat} {o : Op} (h : OneGenerate c p i o)
include h

theorem OneGenerate.boundaryQueues : boundaryQueues c p = c :=
  OneReady.boundaryQueues ⟨h.first.ops, h.first.phase, h.still.committed, h.still.waiting, h.still.revivals,
      h.still.pressing⟩ p

theorem OneGenerate.boundary_forms (late : List Word) (hf : canForm c p = true) (hb : (batchHold c).2 = 0) :
    OneFormed c (stepBoundary c p late) p i := by
  rw [stepBoundary_forms late hf h.still.committed h.boundaryQueues]
  exact h.first.formed false late h.staged h.reserved h.cached h.cores fun hn => hn.2.1 hb

theorem OneGenerate.boundary_holds (late : List Word) (hf : canForm c p = true) (hu : (batchHold c).2 ≠ 0)
    (hn : 1 < (batchHold c).1) : (schedPart (stepBoundary c p late) p).holding = true ∧
    (schedPart (stepBoundary c p late) p).step = none := by
  rw [stepBoundary_forms late hf h.still.committed h.boundaryQueues]
  obtain ⟨hhold, hstep⟩ := h.first.holds late hu hn
  exact ⟨hhold, hstep.trans (canForm_noStep hf)⟩

/-- The expiry of the hold forms the step. -/
theorem OneGenerate.expiry_forms (late : List Word) (hf : canForm c p = true) (hh : (schedPart c p).holding = true) :
    OneFormed c (holdExpired c p late) p i := by
  rw [holdExpired, if_pos ⟨hh, hf⟩, settle_idle h.still.committed, h.boundaryQueues, settle_idle h.still.committed]
  exact h.first.formed true late h.staged h.reserved h.cached h.cores fun hn => Bool.noConfusion hn.1

end

/-- With no operation a boundary forms no step. -/
theorem boundary_noOps {c : Chip} {p : Nat} (late : List Word) (hf : canForm c p = true) (ho : c.sess.ops = [])
    (hs : FigStill c) : (schedPart (stepBoundary c p late) p).step = none ∧
    (schedPart (stepBoundary c p late) p).holding = false ∧ regB (stepBoundary c p late) p aSCHED_QUEUE = 0 := by
  rw [stepBoundary_forms late hf hs.committed (boundaryQueues_noOps ho hs.revivals hs.pressing p)]
  obtain ⟨hstep, hhold, hqueue⟩ := formStep_noOps false late (p := p) ho
  exact ⟨hstep.trans (canForm_noStep hf), hhold, hqueue⟩

/-! ### The commands -/

section
variable {s : State} (ha : Awake s.toChip) (part : Part)
include ha

theorem exec_stepBoundary (late : List Word) :
    exec (.stepBoundary part late) s = .next (after s (stepBoundary s.toChip part.toNat late)) := act_whenAwake ha

theorem exec_batchHoldExpiry (late : List Word) :
    exec (.batchHoldExpiry part late) s = .next (after s (holdExpired s.toChip part.toNat late)) := act_whenAwake ha

theorem exec_layerEnd (k : EngineKind) (res : LayerResult) :
    exec (.layerEnd part k res) s = .next (after s (layerEnd s.toChip part.toNat k res)) := act_whenAwake ha

theorem exec_ratioJudge : exec (.ratioJudge part) s = .next (after s (ratioJudge s.toChip part.toNat)) :=
  act_whenAwake ha

theorem exec_activationsArrived (waited compute : Word) : exec (.activationsArrived part waited compute) s =
    .next (after s (activationsArrived s.toChip part.toNat waited compute)) := act_whenAwake ha

theorem exec_pacingRelease : exec (.pacingRelease part) s = .next (after s (pacingRelease s.toChip part.toNat)) :=
  act_whenAwake ha

end

/-- Settles O31: boundaries through the forming of a step of one replay row, LAYER_END by what each of its branches
leaves of the partition's step. -/
theorem stepsFormAndEnd : Obligations.StepsFormAndEnd := by
  unfold Obligations.StepsFormAndEnd
  intro s part ha hcommitted hwaiting hrevivals hpressing p x formed one
  have hstill : FigStill s.toChip := ⟨hcommitted, hwaiting, hrevivals, hpressing⟩
  have hone : ∀ i o, one i o → OneGenerate s.toChip p i o := fun i o h => by
    obtain ⟨hops, hcode, hphase, hfinal, hcarried, hdrain, hpart, hcached, hstate, hmodel, hst, hres, hcores⟩ := h
    exact ⟨⟨hops, hwaiting, hcode, hphase, hfinal, hcarried, hdrain, hpart, hstate, hmodel⟩, hstill, hcached,
      hst, hres, hcores⟩
  refine ⟨fun late hf ho => ?_, fun late i o hf h hb => ?_, fun late i o hf h hu hn => ?_, fun late i o hf h hh => ?_,
    fun late hh => ?_, fun st e k res hs hp hfind hw hpc hfl hd => ?_, fun st level cores res hs hp hfl hd => ?_,
    fun k res h => ?_, fun hw hu => ?_, fun hw => ?_, fun st waited compute hs hw => ?_, fun st hs hp hfl => ?_⟩
  · refine completes_awake (exec_stepBoundary ha part late) ?_
    rw [schedPart_after, regB_after]
    exact boundary_noOps late hf ho hstill
  · exact completes_awake (exec_stepBoundary ha part late) ((hone i o h).boundary_forms late hf hb).after
  · refine completes_awake (exec_stepBoundary ha part late) ?_
    rw [schedPart_after]
    exact (hone i o h).boundary_holds late hf hu hn
  · exact completes_awake (exec_batchHoldExpiry ha part late) ((hone i o h).expiry_forms late hf hh).after
  · rw [exec_batchHoldExpiry ha, holdExpired, if_neg (fun h => absurd (h.1.symm.trans hh) (by decide))]
  · have hdue : LayerDue s.toChip p k st e := ⟨hs, hp, hfind, hw, hpc, hfl, hd⟩
    have hgoes : ∀ P : Engine → Prop,
        (∃ e', (schedPart (layerEnd s.toChip p k res) p).step = some (enginePut st k e') ∧ P e') →
        Completes (.layerEnd part k res) s
          (fun t => ∃ e', (schedPart t.toChip p).step = some (enginePut st k e') ∧ P e') :=
      fun P h => completes_awake (exec_layerEnd ha part k res) (by rw [schedPart_after]; exact h)
    refine ⟨fun hl => hgoes _ (hdue.next res hl), fun hl hn => hgoes _ (hdue.engineEnds res hl hn),
      fun hl hal => completes_awake (exec_layerEnd ha part k res) ?_, fun hl hal ho hr => ?_⟩
    · rw [schedPart_after]
      exact hdue.layersEnd res hl hal
    · refine completes_awake (exec_layerEnd ha part k res) ?_
      rw [schedPart_after, pairB_after]
      exact hdue.counts res hl hal ⟨hcommitted, hwaiting, ho, hrevivals, hpressing⟩ hr
  · refine completes_awake (exec_layerEnd ha part .decode res) ?_
    rw [schedPart_after]
    exact layerEnd_draft res hs hp hfl hd
  · rw [exec_layerEnd ha, layerEnd_stays k res h]
  · exact completes_awake (exec_ratioJudge ha part) (ratioJudge_judges hw hu)
  · rw [exec_ratioJudge ha, ratioJudge_early hw]
  · exact completes_awake (exec_activationsArrived ha part waited compute)
      (activationsArrived_releases waited compute hs hw)
  · exact completes_awake (exec_pacingRelease ha part) (pacingRelease_releases hs hp hfl)

end Sys2Proof.Machine
end
